-- ==== Sys2Proof/Word.lean ====
section
/-! DEFINITION. The word types of the FK4825 model and their plainest arithmetic.
Bit vectors hold what the manual treats as bits; counts, indexes and instants are naturals,
signed quantities (SNS64, RATE, NTW) are integers that are narrowed when they are encoded. -/

set_option Elab.async false

namespace Sys2Proof

/-- One byte of a record, an entry, a payload or a frame. -/
abbrev Byte := BitVec 8

/-- A register word (R48). -/
abbrev Word := BitVec 32

/-- A byte string: records, entries, payloads and frames. -/
abbrev Bytes := List Byte

end Sys2Proof
end

