-- ==== Sys2Proof/Syntax.lean ====
section
/-! DEFINITION. The commands of the block: one constructor of `Instr` for every row of spec/opcode_table.json, with
the row's operands.  A host command carries its Bluem entry (R95); a bus row carries its access; an event row
carries what reaches the device from outside at that event (a measurement, a frame, a message). -/

set_option Elab.async false

namespace Sys2Proof

/-- A requester path (R58, R67): the value is the requester code of R67. -/
inductive Path where
  | pcie | smbus | core0 | core1 | sequencer | twin | jtag
  deriving DecidableEq, Repr

/-- Where a command entry came from: a queue (R84), SMBus command 0x20 (R83), the twin's mirror (R121), or the translation of an FK2410
image at start-up (R703). -/
inductive Source where
  | urgent | general | smbus | mirror | image
  deriving DecidableEq, Repr

/-- One Bluem command entry (R95) with what the device reads through it: the payload (inline or external), and
whether the external payload could be read and the result buffer written (R116). `aux` holds host data that a
command fetches from an address it names, and `meas` the measured values of a command that measures. -/
structure Cmd where
  src : Source
  tag : Nat
  len : Nat
  flags : Nat
  rlen4k : Nat
  xaddr : Nat
  raddr : Nat
  payload : Bytes
  xReadable : Bool
  bufWritable : Bool
  aux : Bytes
  meas : List Int
  deriving DecidableEq, Repr

/-- One 32-bit register access on a BAR: requester path, BAR (0, 2 or 4), offset, byte enables and data. -/
structure Access where
  path : Path
  bar : Nat
  off : Nat
  be : Nat
  data : Nat
  deriving DecidableEq, Repr

/-- One doorbelled entry as core 0 will fetch it: its TAG, and for an entry that is no assigned command what makes it so (R117). -/
inductive Fetched where
  | command (tag : Nat)
  | unassigned (opcode : Nat) (c : Cmd)
  | unreadable
  deriving DecidableEq, Repr

/-- What start-up finds on the board (R694, R699, R703): the BOOT_SEL strap, whether the AO crystal runs, the AO tick, and the flash where
it has been programmed from outside since the last start: its bytes by offset, each slot's state, version, boot failures and KIND, and
the slot of the next start. -/
structure BootIn where
  bootSel : Bool
  xtal : Bool
  aoTick : Nat
  programmed : Bool
  flash : List (Nat × Nat)
  slots : List (Nat × Nat × Nat × Nat)
  next : Nat
  deriving DecidableEq, Repr

/-- What the tests of step 4 of R699 find: words that fail the patterns as (MEM, ADDR), the memory whose checker fails, and the evidence module's
failing self-test, 0 for none. -/
structure StartTests where
  words : List (Nat × Nat)
  checker : Option Nat
  evdTest : Nat
  deriving DecidableEq, Repr

/-- One measurement of a TDC channel's ring (R168, R171): the number of the word whose clock edge was measured, counted since the receiver's lock or
the transmitter's start, its coarse tick and its fine code. -/
structure EdgeEntry where
  word : Nat
  tick : Nat
  code : Nat
  deriving DecidableEq, Repr

/-- What a lane has at a stamp point (R169 to R171): the lane, the ring of its channel, newest entry first, the word that holds the stamp point's
bit, and the bit's position in it. -/
structure EdgeMeas where
  lane : Nat
  ring : List EdgeEntry
  word : Nat
  bit : Nat
  deriving DecidableEq, Repr

/-- A latency report's terms (R175): slip, CDR divider phase and FIFO fill. -/
structure LatTerms where
  slip : Nat
  cdr : Nat
  fill : Nat
  deriving DecidableEq, Repr

/-- What one calibration part has measured (R630 to R636): how far the junction temperature moved and where it stands
(1/16 °C), whether the delay line stayed locked, hits per code and channel, sampler trims and VSTEP (0.01 mV), the
non-linearity (1/16 step), the delays in 2⁻¹⁶ ns in record order from `first` on, and the largest deviation in fs. -/
structure CalMeas where
  moved : Int
  temp : Int
  dll : Bool
  hits : List Nat
  trims : List Int
  vstep : Nat
  inl : Nat
  first : Nat
  delays : List Int
  spread : Nat
  deriving DecidableEq, Repr


/-- A satellite as the channels see it at an epoch (R348, R374): system and PRN, the bands tracked (bit 0 GNA, bit 1 GNB) with the
channel state and C/N0 (0.01 dB-Hz) of each, elevation, azimuth (2°), the L1 delay of the ionosphere (ps), the residual (ps), and
whether a broadcast inter-system offset is held for its system. -/
structure GnSat where
  system : Nat
  prn : Nat
  stateA : Nat
  stateB : Nat
  cn0A : Nat
  cn0B : Nat
  elev : Int
  az : Nat
  iono : Int
  resid : Int
  offsetKnown : Bool
  deriving DecidableEq, Repr

/-- One solution over a set of satellites: whether its χ² passes, the place of the largest residual, the reference system's time
and its broadcast UTC at the epoch (both in 2⁻¹⁶ ns from the TAI epoch), its phase against SYSXO, σ (ps), the position (cm) and the
offsets of systems 0 to 3 (100 ps). -/
structure GnFix where
  passes : Bool
  worst : Nat
  time : Int
  utc : Int
  sys : Int
  sigma : Nat
  x : Int
  y : Int
  z : Int
  iso : List Int
  deriving DecidableEq, Repr

/-- A broadcast ephemeris decoded since the last epoch: as R368 codes it, and how far it places the satellite from a loaded one
(cm). -/
structure GnDecoded where
  system : Nat
  prn : Nat
  format : Nat
  blocks : List Bytes
  diff : Nat
  deriving DecidableEq, Repr

/-- What the baseband has at one epoch: the satellites, the solution with as many satellites excluded as its place in the list,
decoded ephemerides, TAI − UTC as broadcast, and a broadcast change of it. -/
structure GnEpoch where
  sats : List GnSat
  fixes : List GnFix
  decoded : List GnDecoded
  taiUtc : Int
  leap : Option (Int × Nat)
  deriving DecidableEq, Repr
/-- The commands of the block: one constructor for every row of spec/opcode_table.json. -/
inductive Instr where
  /-- HST_NOP (R114): Command that takes no arguments and completes with ST_OK. -/
  | hstNop (c : Cmd)
  /-- HST_CANCEL (R113): Command that cancels the oldest uncompleted command with a given tag on a named queue, before it starts or at a step boundary. -/
  | hstCancel (c : Cmd)
  /-- HST_RESTART_MGMT (R660): Command that restarts Leinnar from flash at the next decision point. -/
  | hstRestartMgmt (c : Cmd)
  /-- TB_READ (R140): Command that returns the event stamp and both domains' FT96 at one instant. -/
  | tbRead (c : Cmd)
  /-- TB_STEP (R144): Command that schedules a step of a domain at an instant x_c, after range and guard tests. -/
  | tbStep (c : Cmd)
  /-- TB_SLEW (R148): Command that starts or merges a slew of a domain at a clamped rate. -/
  | tbSlew (c : Cmd)
  /-- TB_ADJUST (R151): Command that sets the RATE of a non-served domain whose loop is open or that has no selected reference. -/
  | tbAdjust (c : Cmd)
  /-- TB_REALIGN (R153): Command that steps the served domain by TB_D_ALIGN_ERR without moving the loop setpoint and clears ALIGN_NEEDED. -/
  | tbRealign (c : Cmd)
  /-- TB_SET_SERVED (R154): Command that switches the served domain at a switch instant x_s, within the seamless bound or with REALIGN. -/
  | tbSetServed (c : Cmd)
  /-- TB_SET_UTC (R133): Command that sets a domain's UTC offset and pending leap. -/
  | tbSetUtc (c : Cmd)
  /-- TB_SNAPSHOT (R141): Command that captures both domains now or arms a snapshot source. -/
  | tbSnapshot (c : Cmd)
  /-- TB_SET_COMPACT (R136): Command that sets EXTEND or SIGNED mode for each compact-stamp consumer. -/
  | tbSetCompact (c : Cmd)
  /-- TT_SESSION_SET (R246): Command that writes a session descriptor to a disabled session. -/
  | ttSessionSet (c : Cmd)
  /-- TT_SESSION_GET (R246): Command that returns a session descriptor and its state and counters. -/
  | ttSessionGet (c : Cmd)
  /-- TT_SESSION_ENABLE (R242): Command that enables or disables a time-transfer session. -/
  | ttSessionEnable (c : Cmd)
  /-- TT_SET_ASYMMETRY (R262): Command that sets a port's asymmetry, effective at an instant x_c. -/
  | ttSetAsymmetry (c : Cmd)
  /-- TT_SERVO_SET (R260): Command that sets a line reference's mode, lane, session and servo settings. -/
  | ttServoSet (c : Cmd)
  /-- TT_SERVO_STATUS (R267): Command that returns a servo's offset, delay and state. -/
  | ttServoStatus (c : Cmd)
  /-- RS_SET_PRIORITY (R275): Command that sets a candidate's priorities, kind, QL, accuracy class and nominal frequency. -/
  | rsSetPriority (c : Cmd)
  /-- RS_SET_LIMITS (R279): Command that sets a candidate's drift, soft and hard limits and its timers. -/
  | rsSetLimits (c : Cmd)
  /-- RS_SET_TIMERS (R299): Command that sets a domain's QL mode, holdover limit, slew threshold and holdover terms. -/
  | rsSetTimers (c : Cmd)
  /-- RS_FORCE (R287): Command that forces or removes the selection of a candidate for a domain. -/
  | rsForce (c : Cmd)
  /-- RS_STATUS (R293): Command that returns a domain's selection and holdover status. -/
  | rsStatus (c : Cmd)
  /-- RS_LARDER_READ (R295): Stepped command that writes larder entries to the result buffer. -/
  | rsLarderRead (c : Cmd)
  /-- RS_OPEN_LOOP (R305): Command that opens or closes a domain's outer loop. -/
  | rsOpenLoop (c : Cmd)
  /-- RS_STEER (R306): Command that sets a clamped frequency offset from the held NTW on the open served domain. -/
  | rsSteer (c : Cmd)
  /-- PL_SET_LOOP (R319): Command that sets loop bandwidth, damping, windows, counts, inner bandwidth, or starts a band research. -/
  | plSetLoop (c : Cmd)
  /-- PL_OUT_CONFIG (R339): Command that configures a CLKOUT's standard, OSYN, divider, flags, squelch mask and phase. -/
  | plOutConfig (c : Cmd)
  /-- PL_OUT_RETUNE (R338): Command that loads a new plan into an OSYN and restarts its outputs. -/
  | plOutRetune (c : Cmd)
  /-- PL_PPS_CONFIG (R330): Command that configures a PPSOUT's pulse pattern, width, phase and TOD form. -/
  | plPpsConfig (c : Cmd)
  /-- PL_STATUS (R342): Command that returns the inner and outer loop status, NTW and output running bits. -/
  | plStatus (c : Cmd)
  /-- GN_ENABLE (R366): Command that enables or disables a GNSS solution and sets the shared baseband. -/
  | gnEnable (c : Cmd)
  /-- GN_LOAD_ALMANAC (R369): Stepped command that loads almanac records from an external payload. -/
  | gnLoadAlmanac (c : Cmd)
  /-- GN_LOAD_EPHEMERIS (R370): Stepped command that loads ephemeris records from an external payload. -/
  | gnLoadEphemeris (c : Cmd)
  /-- GN_SET_POSITION (R360): Command that sets survey or held position and makes enabled solutions INVALID for the next epoch. -/
  | gnSetPosition (c : Cmd)
  /-- GN_SET_ANTENNA_DELAY (R362): Command that sets the antenna delays and uncertainty, effective at the next epoch. -/
  | gnSetAntennaDelay (c : Cmd)
  /-- GN_STATUS (R374): Command that returns a solution's status and optionally per-channel records. -/
  | gnStatus (c : Cmd)
  /-- EM_INPUT_CONFIG (R377): Command that configures and wakes an event input, its FIFO and its ring. -/
  | emInputConfig (c : Cmd)
  /-- EM_INTERVAL (R386): Command that configures a pair unit's start, stop and window. -/
  | emInterval (c : Cmd)
  /-- EM_FREQUENCY (R388): Command that arms a frequency gate on an input and completes with ST_DEFERRED. -/
  | emFrequency (c : Cmd)
  /-- EM_SELF_AUDIT (R391): Stepped command that measures named outputs against output time over a duration. -/
  | emSelfAudit (c : Cmd)
  /-- SDS_PORT_CONFIG (R229): Stepped command that enables, changes the speed of, or disables a port. -/
  | sdsPortConfig (c : Cmd)
  /-- SDS_SET_FIR (R212): Command that sets a lane's transmit FIR taps for a mode. -/
  | sdsSetFir (c : Cmd)
  /-- SDS_SET_CTLE (R213): Command that sets a lane's CTLE peaking, gain and AUTO for a mode. -/
  | sdsSetCtle (c : Cmd)
  /-- SDS_PRBS (R223): Command that sets pattern generator, checker and error injection and reads the counters. -/
  | sdsPrbs (c : Cmd)
  /-- SDS_EYE_SCAN (R227): Stepped command that scans the offset sampler over a phase and voltage grid. -/
  | sdsEyeScan (c : Cmd)
  /-- SDS_SET_TRIM (R219): Command that sets a port lane's host transmit trim. -/
  | sdsSetTrim (c : Cmd)
  /-- SDS_LANE_STATUS (R237): Command that returns a lane's status, FIR, CTLE, trim and checker counts. -/
  | sdsLaneStatus (c : Cmd)
  /-- SDS_SET_STAMP_CORR (R180): Command that sets a port's RX_CORR or TX_CORR for a mode. -/
  | sdsSetStampCorr (c : Cmd)
  /-- SW_PORT_FORWARD (R398): Command that sets a source's forwarding flags, frame size, VLAN settings and host addresses. -/
  | swPortForward (c : Cmd)
  /-- SW_SET_VLAN (R405): Command that writes a VLAN's flags, members, untagged set and router MAC. -/
  | swSetVlan (c : Cmd)
  /-- SW_SET_LAG (R407): Command that creates, changes or dissolves a link aggregation group. -/
  | swSetLag (c : Cmd)
  /-- SW_RULE_WRITE (R404): Command that writes a classification rule. -/
  | swRuleWrite (c : Cmd)
  /-- SW_DIRECT_CONNECT (R423): Command that connects an input lane to a set of output lanes on the direct path. -/
  | swDirectConnect (c : Cmd)
  /-- SW_DIRECT_DISCONNECT (R427): Command that removes a direct-path connection. -/
  | swDirectDisconnect (c : Cmd)
  /-- FT_INSERT (R442): Command that inserts or replaces an exact-match entry, relocating entries if needed. -/
  | ftInsert (c : Cmd)
  /-- FT_DELETE (R445): Command that removes an entry and moves back at most one stash entry. -/
  | ftDelete (c : Cmd)
  /-- FT_SEARCH (R439): Command that looks up an entry and returns it. -/
  | ftSearch (c : Cmd)
  /-- FT_WALK_OPEN (R455): Command that opens a table walk with a filter. -/
  | ftWalkOpen (c : Cmd)
  /-- FT_WALK_NEXT (R459): Stepped command that writes the next walk records. -/
  | ftWalkNext (c : Cmd)
  /-- FT_WALK_CLOSE (R460): Command that closes the open walk. -/
  | ftWalkClose (c : Cmd)
  /-- FT_FLUSH_PORT (R462): Stepped command that removes every entry passing its filter. -/
  | ftFlushPort (c : Cmd)
  /-- FT_SET_AGING (R451): Command that sets the ager period, enable and AGE_NOTIFY. -/
  | ftSetAging (c : Cmd)
  /-- FT_ROUTE_WRITE (R466): Command that writes a route prefix or next hop. -/
  | ftRouteWrite (c : Cmd)
  /-- FT_ROUTE_DELETE (R467): Command that deletes a route prefix or an unreferenced next hop. -/
  | ftRouteDelete (c : Cmd)
  /-- FT_LEARN_CONFIG (R448): Command that sets the learn rate, coalescing time and move notifications. -/
  | ftLearnConfig (c : Cmd)
  /-- FT_DIGEST (R463): Stepped command that computes per-partition counts and sums of table items. -/
  | ftDigest (c : Cmd)
  /-- BF_SET_POOL (R495): Command that sets FREE_WARN and ECN_EN and re-arms BF_POOL_LOW. -/
  | bfSetPool (c : Cmd)
  /-- BF_SET_QUEUE (R480): Command that sets a queue's mode, weight, PCP mask and admission limits. -/
  | bfSetQueue (c : Cmd)
  /-- BF_SET_SHAPER (R487): Command that sets a queue or port shaper's rate and burst. -/
  | bfSetShaper (c : Cmd)
  /-- BF_SPILL_ENABLE (R483): Stepped command that enables DDR5 channels for spill or disables spill. -/
  | bfSpillEnable (c : Cmd)
  /-- BF_MCAST_GROUP (R489): Command that writes a replication group's member list. -/
  | bfMcastGroup (c : Cmd)
  /-- FM_GROUP_SET (R497): Command that sets a merge group's egress, members, window, flags and base DMAC. -/
  | fmGroupSet (c : Cmd)
  /-- FM_GROUP_ENABLE (R517): Command that enables a merge group or disables it with drain or flush. -/
  | fmGroupEnable (c : Cmd)
  /-- FM_SET_TRIM (R501): Command that sets a port's ingress lead trim, effective at x_c. -/
  | fmSetTrim (c : Cmd)
  /-- FM_PARTITION (R503): Command that assigns timed-hold granules to a merge or release group. -/
  | fmPartition (c : Cmd)
  /-- ER_GROUP_SET (R522): Command that sets a release group's inputs, members, delay and flags. -/
  | erGroupSet (c : Cmd)
  /-- ER_GROUP_ENABLE (R542): Command that enables a release group or disables it with drain or flush. -/
  | erGroupEnable (c : Cmd)
  /-- ER_SET_TRIM (R527): Command that sets a port's release lead trim, effective at x_c. -/
  | erSetTrim (c : Cmd)
  /-- EVD_CONFIG (R558): Command that sets the block period and the evidence ring. -/
  | evdConfig (c : Cmd)
  /-- EVD_GET_PUBKEY (R571): Command that returns the identity public key, KEY_ID and SERIAL. -/
  | evdGetPubkey (c : Cmd)
  /-- EVD_GET_BLOCK (R568): Command that returns stored block headers. -/
  | evdGetBlock (c : Cmd)
  /-- CAP_RING_SET (R545): Command that configures a disabled net ring. -/
  | capRingSet (c : Cmd)
  /-- CAP_RING_ENABLE (R545): Command that enables or disables a net ring. -/
  | capRingEnable (c : Cmd)
  /-- CAP_SELECT (R550): Command that configures a capture selector. -/
  | capSelect (c : Cmd)
  /-- TW_ENABLE (R587): Command that enables, disables or commits twin operation. -/
  | twEnable (c : Cmd)
  /-- TW_TAKEOVER (R582): Command that makes the standby take over as active. -/
  | twTakeover (c : Cmd)
  /-- TW_TAKEBACK (R585): Command that makes the preferred standby take back the active role at once. -/
  | twTakeback (c : Cmd)
  /-- TW_STATUS (R589): Command that returns twin status, mirror sequence, alignment and claim. -/
  | twStatus (c : Cmd)
  /-- TW_SET_WTR (R585): Command that sets the twin wait-to-restore time and restarts a running timer. -/
  | twSetWtr (c : Cmd)
  /-- CT_CLEAR (R595): Command that clears a range of counters in one clear instant, optionally returning them. -/
  | ctClear (c : Cmd)
  /-- CT_PRESET (R594): Command that presets one counter. -/
  | ctPreset (c : Cmd)
  /-- CT_SET_THRESHOLD (R599): Command that sets a threshold unit or the bandwidth windows. -/
  | ctSetThreshold (c : Cmd)
  /-- CT_WINDOW_MAP (R605): Command that maps window slots to counters in one CCLK. -/
  | ctWindowMap (c : Cmd)
  /-- CT_LATENCY_SAMPLE (R602): Command that configures or resets a latency sampler. -/
  | ctLatencySample (c : Cmd)
  /-- MP_SCRUB (R620): Stepped command that reads every word of a range of memories. -/
  | mpScrub (c : Cmd)
  /-- MP_SCRUB_SUMMARY (R621): Command that returns the error summary. -/
  | mpScrubSummary (c : Cmd)
  /-- MP_INJECT (R623): Command that injects or removes a stored-bit error. -/
  | mpInject (c : Cmd)
  /-- MP_RELEASE_QUARANTINE (R624): Command that pattern-tests and releases quarantined or STUCK locations. -/
  | mpReleaseQuarantine (c : Cmd)
  /-- CAL_LANE (R637): Stepped command that calibrates a lane's TDC, thresholds and latency. -/
  | calLane (c : Cmd)
  /-- CAL_EVTIN (R632): Stepped command that calibrates an event input's TDC and delay. -/
  | calEvtin (c : Cmd)
  /-- CAL_OUTPUT (R635): Stepped command that calibrates named outputs' TDC and driver delay. -/
  | calOutput (c : Cmd)
  /-- CAL_READ_RECORD (R628): Command that writes a target's calibration record to the result buffer. -/
  | calReadRecord (c : Cmd)
  /-- FW_WRITE_SLOT (R652): Stepped command that writes and optionally checks a flash slot. -/
  | fwWriteSlot (c : Cmd)
  /-- FW_APPLY_MOULT (R653): Stepped command that applies the staged moult to the running instar into a target slot. -/
  | fwApplyMoult (c : Cmd)
  /-- FW_ACTIVATE (R654): Command that starts a live handover or records a slot for the next start. -/
  | fwActivate (c : Cmd)
  /-- FW_CONFIRM (R662): Command that confirms the instar on trial. -/
  | fwConfirm (c : Cmd)
  /-- FW_STATUS (R667): Command that returns firmware state, versions and health. -/
  | fwStatus (c : Cmd)
  /-- FW_UPDATE_EVD (R664): Stepped command that changes the evidence-module instar. -/
  | fwUpdateEvd (c : Cmd)
  /-- SEC_OWNER_LOCK (R682): Command that sets, changes, unlocks the owner lock, raises the SVN floor or clears tamper flags. -/
  | secOwnerLock (c : Cmd)
  /-- SEC_GET_IDENTITY (R672): Command that returns the identity key, certificate and a fresh nonce. -/
  | secGetIdentity (c : Cmd)
  /-- SEC_ZEROISE (R684): Command that zeroises the evidence module. -/
  | secZeroise (c : Cmd)
  /-- SEC_SELF_TEST (R687): Stepped command that repeats the module's start-up self-tests. -/
  | secSelfTest (c : Cmd)
  /-- SEC_DRBG_READ (R673): Command that returns random bytes from the DRBG. -/
  | secDrbgRead (c : Cmd)
  /-- STEPPED_COMMAND_STEP (R110): Next step of a stepped command taken at a decision point, ending with its step record. -/
  | steppedCommandStep (amount : Nat)
  /-- MBX_DOORBELL (R90): Doorbell write to the URGENT or GENERAL queue that moves the tail and forms a hamper. -/
  | mbxDoorbell (a : Access) (fs : List Fetched)
  /-- MBX_QUEUE_ENABLE (R87): Setting MBX_CFG.EN, which resets the queue indices. -/
  | mbxQueueEnable (a : Access)
  /-- MBX_QUEUE_DISABLE (R88): Clearing MBX_CFG.EN, which stops fetching and discards unstarted entries. -/
  | mbxQueueDisable (a : Access)
  /-- CQ_CONS_WRITE (R74): Write of MBX_CQ_CONS that returns completion slots. -/
  | cqConsWrite (a : Access)
  /-- SMBUS_IDENTITY_READ (R80): SMBus command 0x01 returning HST_ID and the serial number. -/
  | smbusIdentityRead (addr : Nat)
  /-- SMBUS_STATUS_READ (R80): SMBus command 0x02 returning status, QCs, TSTAT and guard status. -/
  | smbusStatusRead (addr : Nat)
  /-- SMBUS_TEMPERATURE_READ (R80): SMBus command 0x03 returning the highest and lowest junction temperature. -/
  | smbusTemperatureRead (addr : Nat) (high low : Int)
  /-- SMBUS_OFFSET_WRITE (R80): SMBus command 0x10 setting the BAR0 offset for command 0x11. -/
  | smbusOffsetWrite (addr : Nat) (good : Bool) (off : Nat)
  /-- SMBUS_REGISTER_READ (R81): SMBus command 0x11 reading a register of the allowed blocks. -/
  | smbusRegisterRead (addr : Nat)
  /-- SMBUS_COMMAND_WRITE (R83): SMBus command 0x20 submitting one Bluem command. -/
  | smbusCommandWrite (addr : Nat) (good : Bool) (e : Fetched)
  /-- SMBUS_COMMAND_STATUS (R80): SMBus command 0x21 returning the status and completion of the last 0x20 command. -/
  | smbusCommandStatus (addr : Nat)
  /-- REGISTER_WRITE (R51): Write to a register that has no row of its own, acting on the enabled bytes under its access codes. -/
  | registerWrite (a : Access) (more : List (Nat × Nat))
  /-- UNMAPPED_READ (R55): Read of an unmapped address returning all ones and logging ACCESS_FAULT. -/
  | unmappedRead (a : Access)
  /-- UNMAPPED_WRITE (R55): Write to an unmapped address, discarded and logged. -/
  | unmappedWrite (a : Access)
  /-- READ_ONLY_WRITE (R56): Write to a read-only register, discarded and logged. -/
  | readOnlyWrite (a : Access)
  /-- PARTIAL_W32_WRITE (R52): Partial write to a W32 register, discarded and logged. -/
  | partialW32Write (a : Access)
  /-- BAR2_WRITE (R46): Write to the read-only counter window, discarded and logged. -/
  | bar2Write (a : Access)
  /-- BAR4_LONG_WRITE (R54): Write TLP longer than 4 bytes to the BAR4 doorbell area, discarded whole. -/
  | bar4LongWrite (a : Access) (more : List (Nat × Nat))
  /-- LATCHING_LO_READ (R57): Read of a latching pair's _LO word that copies _HI into the requester path's shadow. -/
  | latchingLoRead (a : Access) (more : List Nat)
  /-- PAIR_LO_WRITE (R60): 32-bit write to the _LO word of an RW pair, held in a staging word. -/
  | pairLoWrite (a : Access)
  /-- PAIR_HI_WRITE (R60): Write to the _HI word of an RW pair that commits the staged _LO with it. -/
  | pairHiWrite (a : Access)
  /-- KEYED_A_WRITE (R63): Write to the _A word of a keyed pair that opens a sequence. -/
  | keyedAWrite (a : Access)
  /-- KEYED_B_WRITE (R61): Write to the _B word of a keyed pair that completes or fails its sequence. -/
  | keyedBWrite (a : Access)
  /-- KEYED_PAIR_WRITE64 (R62): Aligned 64-bit write to a keyed pair writing _A and _B in one CCLK. -/
  | keyedPairWrite64 (a : Access) (be data : Nat)
  /-- KEYED_SEQUENCE_TIMEOUT (R63): Failure of an open keyed sequence when no _B write has arrived 64 CCLK after _A. -/
  | keyedSequenceTimeout (off : Nat) (path : Path)
  /-- GD_LOCK_SET (R64): Write that sets the LK bit GD_LOCK, making the guards read only until reset. -/
  | gdLockSet (a : Access)
  /-- HST_RESET (R698): Accepted keyed write of 1 to HST_RESET that asserts main reset 10 µs later. -/
  | hstReset (a : Access) (be data : Nat)
  /-- EVR_RING_ENABLE (R71): Setting HST_EVR_CFG.EN with a valid size, or making LOG2SZ valid, which resets the ring and drains the buffer. -/
  | evrRingEnable (a : Access)
  /-- EVR_CONS_WRITE (R74): Write of HST_EVR_CONS that returns event ring slots and lets buffered records drain. -/
  | evrConsWrite (a : Access)
  /-- TT_REC_RING_ENABLE (R271): Setting TT_REC_CFG.EN, which resets the session record ring. -/
  | ttRecRingEnable (a : Access)
  /-- TT_REC_CONS_WRITE (R74): Write of TT_REC_CONS that returns session record slots. -/
  | ttRecConsWrite (a : Access)
  /-- FT_LRN_RING_ENABLE (R450): Setting FT_LRN_CFG.EN, which resets the learn ring. -/
  | ftLrnRingEnable (a : Access)
  /-- FT_LRN_CONS_WRITE (R74): Write of FT_LRN_CONS that returns learn ring slots. -/
  | ftLrnConsWrite (a : Access)
  /-- EM_R_CONS_WRITE (R384): Write of an event input's EM_R_CONS that returns ring slots. -/
  | emRConsWrite (a : Access)
  /-- EVD_R_CONS_WRITE (R567): Write of EVD_R_CONS that returns evidence ring slots. -/
  | evdRConsWrite (a : Access)
  /-- NR_DOORBELL (R546): Net-ring doorbell write returning slots of a net ring. -/
  | nrDoorbell (a : Access)
  /-- SNAP_TRIGGER (R141): Write of TB_SNAP_CTRL.TRIG capturing a snapshot at once. -/
  | snapTrigger (a : Access)
  /-- SNAP_ARM (R141): Write of TB_SNAP_CTRL.ARM arming a snapshot source. -/
  | snapArm (a : Access)
  /-- SNAP_ARMED_CAPTURE (R141): Capture of a snapshot at the armed source's next event. -/
  | snapArmedCapture (src : Nat) (x : Nat)
  /-- PTM_DIALOG (R142): Periodic PTM dialog that pairs Master Time with served-domain FT96. -/
  | ptmDialog (master : Nat) (turn : Nat) (request : Nat)
  /-- STAMP_FIFO_POP (R194): Write of PTS_RXF_POP or PTS_TXF_POP removing N entries. -/
  | stampFifoPop (a : Access)
  /-- EM_FIFO_POP (R194): Write of EM_F_POP removing N entries from an input FIFO. -/
  | emFifoPop (a : Access)
  /-- HTX_RING_ENABLE (R418): Setting SW_HTX_CFG.EN, which resets the host transmit head and tail. -/
  | htxRingEnable (a : Access)
  /-- HTX_TAIL_WRITE (R418): Write of SW_HTX_TAIL posting host transmit descriptors. -/
  | htxTailWrite (a : Access)
  /-- HOST_TX_DESCRIPTOR (R418): Taking one host transmit descriptor and admitting or skipping its frame. -/
  | hostTxDescriptor (desc : Bytes) (data : Bytes) (readable : Bool)
  /-- EVENT_RECORD_WRITE (R76): Writing a held event record to the ring once DTT has passed its stamp by 2,048 ticks. -/
  | eventRecordWrite
  /-- EVENT_RECORD_LATE (R77): Immediate write of a record earlier than one already written, with LATE set. -/
  | eventRecordLate
  /-- RING_HOLDOFF_EXPIRY (R78): Expiry of a ring's HOLDOFF that meets its interrupt condition. -/
  | ringHoldoffExpiry (ring : Nat)
  /-- MAIN_RESET_ASSERT (R692): Assertion of main reset by PWRGD, RSTn, thermal reset or HST_RESET. -/
  | mainResetAssert (cause : Nat)
  /-- MAIN_RESET_RELEASE (R699): Release of main reset that starts the start-up timeline at t0. -/
  | mainResetRelease (b : BootIn)
  /-- THERMAL_RESET (R695): Thermal reset after a sensor has read above 125 °C for 1 ms. -/
  | thermalReset
  /-- READY (R699): Rise of HST_STATUS.READY at the end of start-up. -/
  | ready (ddr : Nat)
  /-- PCIE_PERST (R696): PCIE_PERSTn resetting only the host interface. -/
  | pciePerst
  /-- HOST_IF_RESET (R44): Function Level Reset or PCIe link loss resetting the host interface only. -/
  | hostIfReset
  /-- INNER_LOCK (R315): Inner loop declares lock after 1,024 good comparisons and DTT counts TCLK. -/
  | innerLock (fine : Nat) (margin : Bool)
  /-- INNER_LOCK_LOSS (R315): Inner loop declares loss of lock after 16 bad comparisons. -/
  | innerLockLoss
  /-- SYSXO_FAULT (R315): SYSXO missing for 100 ns or out of frequency, a loss of inner lock. -/
  | sysxoFault (missing : Bool)
  /-- BAND_SEARCH_DONE (R316): End of the TDCO band search. -/
  | bandSearchDone (band : Nat)
  /-- REFERENCE_SAMPLE (R25): Phase-error sample of a candidate reaching its monitor and the loop. -/
  | referenceSample (cand : Nat) (x : Nat) (sys : Int) (t : Int)
  /-- DPLL_LOCK (R322): Outer loop declares lock after the lock count within the window. -/
  | dpllLock (d : Nat)
  /-- DPLL_LOCK_LOSS (R323): Outer loop declares loss of lock after a sixteenth of the count beyond four windows. -/
  | dpllLockLoss (d : Nat)
  /-- FREQUENCY_ACQUIRED (R321): Third consecutive 1 s evaluation within 1e-9 that acquires frequency. -/
  | frequencyAcquired (d : Nat)
  /-- SERVO_UPDATE (R130): 1 ms servo update of the non-served RATE, rate transfer and holdover RATE. -/
  | servoUpdate (fine : Nat) (margin : Bool)
  /-- SEGMENT_RENEWAL (R126): Opening of a new unchanged segment when a segment is 2^38 ticks old. -/
  | segmentRenewal (d : Nat)
  /-- STEP_APPLY (R144): Application of a step at x_c, opening a segment and moving the setpoint. -/
  | stepApply (d : Nat)
  /-- OUT_REPHASE_DONE (R145): Return of TB_OUT_OFFSET at the first whole second after every output has re-phased. -/
  | outRephaseDone
  /-- SERVED_SWITCH (R154): Switch of the served domain at the switch instant x_s. -/
  | servedSwitch
  /-- TB_OUT_ALIGNED (R155): TB_OUT_OFFSET slewed to 0 after a seamless switch. -/
  | tbOutAligned
  /-- TB_SLEW_DONE (R149): Slew remainder reaching 0. -/
  | tbSlewDone (d : Nat)
  /-- TB_LEAP (R133): Application of a pending leap when domain time reaches LEAP_AT. -/
  | tbLeap (d : Nat)
  /-- MONITOR_EVALUATION (R276): Once-per-second evaluation of each candidate's frequency, slope and limits and its state changes. -/
  | monitorEvaluation
  /-- CANDIDATE_LOST (R281): Loss of a candidate at the instant its loss is detected. -/
  | candidateLost (cand : Nat)
  /-- QUAL_TIMER_EXPIRY (R282): Expiry of a candidate's qualification timer. -/
  | qualTimerExpiry (cand : Nat)
  /-- WTR_EXPIRY (R283): Clearing of a candidate's wait-to-restore flag. -/
  | wtrExpiry (cand : Nat)
  /-- SWITCH_TRANSACTION_START (R288): Start of a queued or spaced switch transaction with build-out capture. -/
  | switchTransactionStart (d : Nat)
  /-- SWITCH_TRANSACTION_END (R288): End of a switch transaction on lock or after 10 ms, then one re-evaluation. -/
  | switchTransactionEnd (d : Nat)
  /-- QC_CLASS_UPDATE (R293): Once-per-second recomputation of the error-bound class. -/
  | qcClassUpdate
  /-- HOLDOVER_UPDATE (R299): 1 s holdover bound update that enters HOLDOVER_EXPIRED above the limit. -/
  | holdoverUpdate
  /-- LARDER_ENTRY_WRITE (R295): Writing the larder entry at the end of each DTT minute. -/
  | larderEntryWrite
  /-- TSTAT_HOLD_EXPIRY (R310): End of the 10 µs TSTAT hold showing the latest waiting value. -/
  | tstatHoldExpiry
  /-- OSYN_LOCK (R326): OSYN declaring lock on a new plan and restarting its outputs. -/
  | osynLock (k : Nat)
  /-- SQUELCH_RELEASE (R336): Release of a squelched output after the state has stayed outside SQ_MASK for 1 s. -/
  | squelchRelease (out : Nat)
  /-- TOD_MESSAGE (R332): TOD message sent 10 ms after a PPSOUT0 pulse. -/
  | todMessage (edge : Nat)
  /-- TOD_RX_LABEL (R333): Received TOD message labelling a PPSIN0 edge with its second. -/
  | todRxLabel (second : Nat)
  /-- PORT_ISLAND_WAKE_DONE (R35): Completion of an island's wake, letting the waiting command continue. -/
  | portIslandWakeDone (island : Nat) (temp : Int)
  /-- RX_LOCK (R174): Receiver lock of a lane, starting a CTLE sweep or a latency report. -/
  | rxLock (lane : Nat)
  /-- CTLE_SWEEP_DONE (R214): End of the CTLE sweep with the chosen PEAK. -/
  | ctleSweepDone (lane : Nat) (openings : List Nat)
  /-- LATENCY_REPORT (R176): Writing a lane's latency report and raising PTS_LAT_REPORT. -/
  | latencyReport (lane : Nat) (tx : Bool) (t : LatTerms)
  /-- LINK_UP (R208): Port link up once its receive report is written, releasing it to forwarding. -/
  | linkUp (port : Nat) (remote : Bool)
  /-- LINK_DOWN (R209): Port link down in the CCLK it is detected. -/
  | linkDown (port cause : Nat) (data : Bytes)
  /-- TX_RESTART (R221): Transmitter restart after the frame in flight ends, for a changed word part. -/
  | txRestart (port phase : Nat)
  /-- SDS_TRIM_DONE (R220): Interpolator reaching its target position. -/
  | sdsTrimDone (lane : Nat)
  /-- PRBS_LOCK_CHANGE (R225): Checker gaining or losing lock. -/
  | prbsLockChange (lane : Nat) (locked : Bool) (bits errors : Nat)
  /-- PTS_RECAL_DUE (R200): Lane temperature moving more than 15 °C from its calibration. -/
  | ptsRecalDue (lane : Nat) (temp : Int)
  /-- PHASE_SAMPLE (R173): One-per-microsecond phase sample passed to continuous-phase consumers. -/
  | phaseSample (m : EdgeMeas) (tx : Bool) (sys : Int)
  /-- FRAME_RX (R409): Head decision on a received frame after its first 64 bytes: parse, lookups, admission and cut-through. -/
  | frameRx (src : Nat) (len : Nat) (head : Bytes) (bad : Bool) (m : EdgeMeas) (outs : List EdgeMeas)
  /-- FRAME_END (R416): End of a received frame with its FCS verdict, stamp entries and counts. -/
  | frameEnd (src : Nat) (rest : Bytes) (fault : Bool) (m : EdgeMeas) (outs : List EdgeMeas)
  /-- EGRESS_PICK (R486): Scheduler pick of the next frame when a port finishes a frame or is idle. -/
  | egressPick (egress : Nat) (m : EdgeMeas)
  /-- FRAME_TX_DONE (R592): Last bit of a frame leaving an egress, with TX counts, stamps and cell return. -/
  | frameTxDone (egress : Nat) (m : EdgeMeas)
  /-- SW_DP_SLIP (R425): Fill of a TRANSPARENT FIFO reaching 1 or 7 words and restored by a slip. -/
  | swDpSlip (lane : Nat) (repeated : Bool)
  /-- AGER_VISIT (R451): Ager visit of a slot clearing HIT or removing the entry. -/
  | agerVisit (slot : Nat)
  /-- FT_WALK_TIMEOUT (R460): Walk closed after 10 s without FT_WALK_NEXT. -/
  | ftWalkTimeout
  /-- SPILL_WRITE (R481): Spill engine moving a staged copy whole to DDR5. -/
  | spillWrite (queue : Nat)
  /-- SPILL_READBACK (R482): Spill engine reading a spilled frame back ahead of the queue head. -/
  | spillReadback (queue : Nat)
  /-- SPILL_DRAIN_DONE (R483): DDR5 holding no frame after spill is disabled, completing the disable. -/
  | spillDrainDone
  /-- MERGE_DUE (R506): Due instant of a held merge frame reached. -/
  | mergeDue (g : Nat) (m : EdgeMeas)
  /-- FM_DRAIN_DONE (R517): Draining merge group's partition empty, the group becoming DISABLED. -/
  | fmDrainDone (g : Nat)
  /-- RELEASE_COPY_START (R526): Start of a scheduled release copy at its instant on a member port. -/
  | releaseCopyStart (g : Nat) (port : Nat)
  /-- ER_DRAIN_DONE (R542): Draining release group's partition empty, the group becoming DISABLED. -/
  | erDrainDone (g : Nat)
  /-- EVD_RECORD (R556): Evidence record reaching the module and entering the open block. -/
  | evdRecord
  /-- EVD_BLOCK_CLOSE (R558): Closing of a block at a period boundary and writing of its header. -/
  | evdBlockClose
  /-- EVD_BLOCK_SIGNED (R562): Completion of a block signature. -/
  | evdBlockSigned
  /-- TT_PERIODIC_TX (R245): Transmission of a session's periodic message at its spread DTT instant. -/
  | ttPeriodicTx (session : Nat) (kind : Nat) (body : Bytes) (p : EdgeMeas) (m : EdgeMeas)
  /-- PTP_MESSAGE_RX (R239): Received PTP message claimed, stamped and processed by a session. -/
  | ptpMessageRx (p : EdgeMeas) (m : EdgeMeas) (sys : Int)
  /-- TT_PHASE_REPORT_TX (R265): Sending a phase report each millisecond in link mode. -/
  | ttPhaseReportTx (session : Nat)
  /-- TT_PHASE_REPORT_RX (R267): Receiving a phase report and pairing it with the tracker's window. -/
  | ttPhaseReportRx
  /-- TT_PHASE_ENTRY (R242): Entry to PHASE after 16 consecutive VALID phase reports. -/
  | ttPhaseEntry (session : Nat)
  /-- TT_REPORT_TIMEOUT (R242): No phase report for 100 ms returning the session to RUNNING. -/
  | ttReportTimeout (session : Nat)
  /-- TT_PHASE_SLIP (R267): Offset beyond Pw/4 for 16 exchanges returning the session to RUNNING. -/
  | ttPhaseSlip (servo : Nat)
  /-- TT_SERVO_TIMEOUT (R261): No valid exchange for 4 Sync intervals and 2 s, stopping servo samples. -/
  | ttServoTimeout (servo : Nat)
  /-- ESMC_PDU_TX (R308): Once-per-second ESMC information PDU on every enabled port. -/
  | esmcPduTx (changed : Bool)
  /-- ESMC_PDU_RX (R308): Received ESMC PDU passing its quality level to the selector. -/
  | esmcPduRx (port : Nat) (ql : Nat)
  /-- GNSS_EPOCH (R352): Solution epoch with checks, state and a phase sample to the monitors. -/
  | gnssEpoch (sol : Nat) (o : GnEpoch)
  /-- GN_RATE_CHANGE (R352): New solution RATE taking effect at the next whole-second DTT instant. -/
  | gnRateChange (sol : Nat)
  /-- GN_PORT_LOSS (R346): Sample port lost for a missing or out-of-range clock. -/
  | gnPortLoss (port : Nat) (clkOff : Int)
  /-- GN_PORT_RETURN (R346): Sample port returned after 100 ms of a good clock. -/
  | gnPortReturn (port : Nat) (clkOff : Int)
  /-- GN_MAG_CHECK (R347): 100 ms measurement of the magnitude-bit fraction. -/
  | gnMagCheck (port mag total : Nat)
  /-- SURVEY_DONE (R359): Completion of a position survey holding the mean. -/
  | surveyDone (sol : Nat)
  /-- SPOOF_HOLD_EXPIRY (R364): End of the SPOOF hold after SPOOF_HOLD_S without SPOOF. -/
  | spoofHoldExpiry (sol : Nat)
  /-- GN_NO_SAT_TIMEOUT (R366): No satellite tracked for 10 s returning the solution to ACQUIRING. -/
  | gnNoSatTimeout (sol : Nat)
  /-- EVTIN_EDGE (R380): Qualified edge on an event input, prescaled, stamped or missed. -/
  | evtinEdge (input : Nat) (falling : Bool) (tick phase code : Nat)
  /-- EM_RING_MOVE (R384): Moving FIFO entries to an input's host ring when it has room. -/
  | emRingMove (input : Nat)
  /-- EM_GATE_OPEN (R388): Opening of a frequency gate 64 ticks after the command. -/
  | emGateOpen (input : Nat)
  /-- EM_GATE_CLOSE (R388): Close of a frequency gate after GATE ms with its result. -/
  | emGateClose (input : Nat)
  /-- TW_HEARTBEAT_TX (R575): Heartbeat sent every 10 µs. -/
  | twHeartbeatTx
  /-- TW_HEARTBEAT_RX (R572): Partner heartbeat received, driving twin state, claim and strap checks. -/
  | twHeartbeatRx (good : Bool) (state qcA qcB claim : Nat) (fault : Bool) (pref serial : Nat)
  /-- TW_TIME_TX (R575): TIME frame sent every 1 ms by the active. -/
  | twTimeTx
  /-- TW_TIME_RX (R578): TIME frame received by the standby, taking step counters and commit values. -/
  | twTimeRx (good : Bool) (stamp here : Nat) (timeA timeB : Int) (stepA stepB : Nat) (rateA rateB : Int) (served : Nat)
  /-- TW_MIRROR_RX (R578): Mirrored command received and executed in step by the standby. -/
  | twMirrorRx (good : Bool) (seq opcode tag instant : Nat)
  /-- TW_ACK_RX (R122): Standby acknowledgement letting the active write its completion. -/
  | twAckRx (good : Bool) (seq status detail : Nat)
  /-- MIRROR_ACK_TIMEOUT (R122): No acknowledgement 1 ms after the active's finish. -/
  | mirrorAckTimeout
  /-- TW_EVD_BH_RX (R566): Block hash received from the active and kept by the standby. -/
  | twEvdBhRx (good : Bool) (epoch block : Nat) (bh : Bytes)
  /-- TW_CLAIM_RX (R579): CLAIM frame received at a takeover or takeback. -/
  | twClaimRx (good : Bool) (claim kind : Nat)
  /-- TW_LINK_TIMEOUT (R572): No partner heartbeat in LINKING for 10 s, entering ALONE. -/
  | twLinkTimeout
  /-- TW_HB_MISS (R581): No heartbeat for HB_MISS, taking over or raising LINK_FAULT. -/
  | twHbMiss
  /-- TW_FAULT_TIMEOUT (R581): Partner FAULT seen for 1 ms, causing takeover. -/
  | twFaultTimeout
  /-- TW_TWCLK_LOSS (R576): TWCLK without an edge for 1 µs. -/
  | twTwclkLoss
  /-- TW_ALIGN (R576): Twin alignment declared after 4,096 samples or lost after 16. -/
  | twAlign (raw : Int)
  /-- TW_WTR_EXPIRY (R585): Expiry of the twin wait-to-restore timer causing a takeback. -/
  | twWtrExpiry
  /-- BW_WINDOW_END (R600): End of a long bandwidth window writing its counts and peak. -/
  | bwWindowEnd (port : Nat) (dir : Nat) (octets : Nat) (peak : Nat) (slot : Nat)
  /-- CORR_WRITEBACK (R616): Automatic write-back of a corrected word through the arbiter. -/
  | corrWriteback (mem addr : Nat)
  /-- TRACKER_EXPIRY (R615): Removal of a tracker entry P_S after its first correction. -/
  | trackerExpiry (mem addr : Nat)
  /-- MERGE_BUFFER_FLUSH (R613): Merge buffer entry written after 64 CCLK without a write. -/
  | mergeBufferFlush (mem addr : Nat)
  /-- DEVICE_CAL_AUTO (R627): Automatic calibration of device channels every 10 min or on 5 °C change. -/
  | deviceCalAuto (temp : Int)
  /-- CAL_PART_DONE (R636): End of a calibration part with its plausibility checks. -/
  | calPartDone (target : Nat) (m : CalMeas) (later : Nat)
  /-- CAL_ACCEPT (R628): New calibration values taking effect at the acceptance instant x_a. -/
  | calAccept (target : Nat)
  /-- STAMP_CORR_APPLY (R180): Correction entry taking effect at x_c. -/
  | stampCorrApply (port mode : Nat) (tx : Bool)
  /-- ASYM_APPLY (R263): Asymmetry change taking effect at x_c with history adjustment. -/
  | asymApply (port : Nat)
  /-- FM_TRIM_APPLY (R501): Ingress lead trim taking effect at x_c. -/
  | fmTrimApply (port : Nat)
  /-- ER_TRIM_APPLY (R527): Release lead trim taking effect at x_c. -/
  | erTrimApply (port : Nat)
  /-- FW_LOAD_DONE (R655): Sections loaded into the idle bank, entering WAITING. -/
  | fwLoadDone
  /-- FW_FREEZE (R655): FREEZE at a decision point and restart of both cores on the new bank. -/
  | fwFreeze
  /-- FW_HANDOVER_DONE (R655): New instar resuming servos and commands on TRIAL. -/
  | fwHandoverDone
  /-- FW_WAIT_TIMEOUT (R656): Handover abandoned after 10 s in WAITING. -/
  | fwWaitTimeout
  /-- FW_FREEZE_TIMEOUT (R657): Hardware return to the old bank 20 ms after FREEZE. -/
  | fwFreezeTimeout
  /-- HELD_STEER_EXPIRY (R40): Held steer passing 20 ms, entering HOLDOVER. -/
  | heldSteerExpiry
  /-- FW_TRIAL_EXPIRY (R662): HEALTH_S elapsed on trial, confirming or falling back. -/
  | fwTrialExpiry
  /-- FW_HEALTH_FAIL (R663): A health bit 0 for 1 s causing fallback. -/
  | fwHealthFail (n : Nat)
  /-- WATCHDOG_EXPIRY (R661): Core watchdog or servo update lapse. -/
  | watchdogExpiry
  /-- LEINNAR_RESTART (R660): Restart of Leinnar from flash and reload of sequencers. -/
  | leinnarRestart
  /-- LEINNAR_RESTART_DONE (R120): Firmware running again and resuming commands after a restart. -/
  | leinnarRestartDone
  /-- TAMPER_ACTIVE (R683): Tamper input active for 4 samples, applying its action. -/
  | tamperActive (n tick : Nat)
  /-- SELFTEST_FAILURE (R688): Continuous health test failure putting the module in ERROR. -/
  | selftestFailure (test : Nat)
  /-- DRBG_RESEED (R673): DRBG reseed after 2^20 requests or 24 h. -/
  | drbgReseed
  /-- SEC_VBAT_LOW (R686): VBAT below 1.75 V with main power present. -/
  | secVbatLow (mv : Nat)
  /-- AO_CONTENTS_LOST (R720): VBAT below 1.60 V without main power, losing always-on contents. -/
  | aoContentsLost
  /-- AO_XTAL_STOP (R706): AO crystal stopping, clearing ANCHOR_VALID. -/
  | aoXtalStop
  /-- AO_ANCHOR_WRITE (R705): Once-per-second anchor write pairing an AO tick with served-domain time. -/
  | aoAnchorWrite (tick : Nat)
  /-- FIRST_SEGMENT_OPEN (R707): Opening both domains' first segment at the first AO edge after inner lock. -/
  | firstSegmentOpen (tick : Nat) (t : StartTests)
  /-- TWIN_LINK_DOWN (R574): Loss of lock or deskew on any of TW0–TW3 takes the twin link down, clearing TW_STATUS.LINK_UP, restarting a running twin wait-to-restore timer and leaving frames queued for the twin port to R494. -/
  | twinLinkDown
  /-- TAP_RESET (R709): A TRST of the TAP resets the JTAG TAP alone while everything else continues. -/
  | tapReset
  deriving DecidableEq, Repr

end Sys2Proof
end

