-- ==== Sys2Proof/Decode.lean ====
section
/-! DEFINITION. The command that a word spells by the bits of spec/opcode_table.json. No row of this hardware's table gives bits: a
command reaches the device as an entry, an access or an event, never as an instruction word, so no word spells one. -/

set_option Elab.async false

namespace Sys2Proof

/-- The command spelled by `w` in `nbits` bits: none, since the table gives no row any bits. -/
def decodeTableWord (_nbits _w : Nat) : Option Instr := none

end Sys2Proof
end

