-- ==== Sys2Proof/Machine/Bytes.lean ====
section
/-! DEFINITION. Byte order, two's complement, bit fields and the checksums the manual names
(CRC-32C of R646/R649, SHA-256 of R556-R562, SHA-384 of R648). Multi-byte fields are little-endian (R70, R95). -/

set_option Elab.async false

namespace Sys2Proof.Machine

/-- The `n` low bytes of `v`, least significant first. -/
def le : Nat → Nat → Bytes
  | 0, _ => []
  | n + 1, v => BitVec.ofNat 8 v :: le n (v / 256)

/-- The `n` low bytes of `v`, most significant first. -/
def be (n v : Nat) : Bytes := (le n v).reverse

/-- Two's complement of `v` in `n` bytes, little-endian. -/
def leI (n : Nat) (v : Int) : Bytes := le n (v % (2 ^ (8 * n) : Int)).toNat

/-- The natural number of a little-endian byte string. -/
def ofLe : Bytes → Nat
  | [] => 0
  | b :: r => b.toNat + 256 * ofLe r

/-- The natural number of a big-endian byte string. -/
def ofBe (l : Bytes) : Nat := ofLe l.reverse

/-- The low `w` bits of `v` read as a two's complement number. -/
def sext (w v : Nat) : Int :=
  if v % 2 ^ w < 2 ^ (w - 1) then (v % 2 ^ w : Nat) else (v % 2 ^ w : Nat) - (2 ^ w : Nat)

/-- Two's complement of `v` as an unsigned number of `w` bits. -/
def twos (w : Nat) (v : Int) : Nat := (v % (2 ^ w : Int)).toNat

/-- Bits `hi` down to `lo` of `v`. -/
def bits (v hi lo : Nat) : Nat := v / 2 ^ lo % 2 ^ (hi - lo + 1)

/-- Bit `n` of `v`. -/
def bit (v n : Nat) : Bool := v / 2 ^ n % 2 = 1

/-- 1 or 0. -/
def b2n (b : Bool) : Nat := if b then 1 else 0

/-- A number held below `m + 1` (a saturating count). -/
def sat (m v : Nat) : Nat := if v ≤ m then v else m

/-- An integer held between `lo` and `hi`. -/
def clampI (lo hi v : Int) : Int := if v < lo then lo else if hi < v then hi else v

/-- Bytes `o` to `o + n - 1` of `l`, 0 where `l` has ended. -/
def slice (l : Bytes) (o n : Nat) : Bytes := (List.range n).map (fun k => l.getD (o + k) 0)

/-- `l` with the bytes `v` placed at offset `o`. -/
def place (l : Bytes) (o : Nat) (v : Bytes) : Bytes := l.take o ++ v ++ l.drop (o + v.length)

/-- `n` zero bytes with every (offset, bytes) of `fs` placed. -/
def record (n : Nat) (fs : List (Nat × Bytes)) : Bytes :=
  (fs.foldl (fun l f => place l f.1 f.2) (List.replicate n 0)).take n

/-- Whether a little-endian number's bit `n` over a list of words is set: a member set held as a number. -/
def members (m limit : Nat) : List Nat := (List.range limit).filter (fun n => bit m n)

/-- A set of lanes or ports as the number whose bit n is member n. -/
def maskOf (l : List Nat) : Nat := l.foldl (fun m n => if bit m n then m else m + 2 ^ n) 0

/-- How many bits of `m` below `limit` are set. -/
def popCount (m limit : Nat) : Nat := (members m limit).length

/-- Rounded quotient of an integer by a positive one, ties toward plus infinity. -/
def divRound (a b : Int) : Int := (2 * a + b) / (2 * b)

/-- Integer square root by bisection from the top bit (structural, so that it evaluates). -/
def isqrtGo (v : Nat) : Nat → Nat → Nat
  | 0, acc => acc
  | k + 1, acc => if (acc + 2 ^ k) * (acc + 2 ^ k) ≤ v then isqrtGo v k (acc + 2 ^ k) else isqrtGo v k acc

/-- The largest number whose square is at most `v` (v below 2^128). -/
def isqrt (v : Nat) : Nat := isqrtGo v 64 0

/-! ### CRC -/

/-- One bit of a reflected CRC with polynomial `p`. -/
def crcBit (p c : Nat) : Nat := if c % 2 = 1 then (c / 2) ^^^ p else c / 2

/-- One byte of a reflected CRC. -/
def crcByte (p c : Nat) (b : Byte) : Nat :=
  let x := c ^^^ b.toNat
  crcBit p (crcBit p (crcBit p (crcBit p (crcBit p (crcBit p (crcBit p (crcBit p x)))))))

/-- CRC-32C (Castagnoli), reflected, initial and final value all ones (R646, R649). -/
def crc32c (l : Bytes) : Nat := (l.foldl (crcByte 0x82F63B78) 0xFFFFFFFF) ^^^ 0xFFFFFFFF

/-- The Ethernet frame check sequence: CRC-32 (IEEE 802.3), reflected (R416). -/
def crc32 (l : Bytes) : Nat := (l.foldl (crcByte 0xEDB88320) 0xFFFFFFFF) ^^^ 0xFFFFFFFF

/-! ### SHA-2 -/

/-- The largest `x` below `acc + 2^n` with `x ^ k ≤ v`, by bisection from bit `n - 1`. -/
def rootGo (k v : Nat) : Nat → Nat → Nat
  | 0, acc => acc
  | n + 1, acc => rootGo k v n (if (acc + 2 ^ n) ^ k ≤ v then acc + 2 ^ n else acc)

/-- The primes below 410, of which there are 80. -/
def smallPrimes : List Nat := (List.range 410).filter (fun n => 2 ≤ n && (List.range 19).all (fun d => n % (d + 2) ≠ 0 || n = d + 2))

/-- The first `w` bits of the fraction of the `k`-th root of `p`: where the words that SHA-2 starts from come from. -/
def rootBits (k w p : Nat) : Nat := rootGo k (p * 2 ^ (k * w)) (w + 5) 0 % 2 ^ w

/-- Round constants: the fractions of the cube roots of the first `n` primes, in words of `w` bits. -/
def shaConstants (w n : Nat) : List Nat := (smallPrimes.take n).map (rootBits 3 w)

/-- Initial words: the fractions of the square roots of eight primes from the `n`-th on (counted from 0), in words of `w` bits. -/
def shaInitial (w n : Nat) : List Nat := ((smallPrimes.drop n).take 8).map (rootBits 2 w)

/-- Rotation right of a word of `w` bits. -/
def rotr (w n x : Nat) : Nat := x / 2 ^ n + x % 2 ^ n * 2 ^ (w - n)

/-- Parameters of one member of the SHA-2 family: word size, block size, and the rotations of its sigmas. -/
structure ShaKind where
  w : Nat
  rounds : Nat
  bigA : Nat × Nat × Nat
  bigE : Nat × Nat × Nat
  smallA : Nat × Nat × Nat
  smallB : Nat × Nat × Nat

/-- Sigma with three rotations. -/
def shaBig (k : ShaKind) (r : Nat × Nat × Nat) (x : Nat) : Nat :=
  rotr k.w r.1 x ^^^ rotr k.w r.2.1 x ^^^ rotr k.w r.2.2 x

/-- Sigma with two rotations and a shift. -/
def shaSmall (k : ShaKind) (r : Nat × Nat × Nat) (x : Nat) : Nat :=
  rotr k.w r.1 x ^^^ rotr k.w r.2.1 x ^^^ x / 2 ^ r.2.2

/-- The message schedule, newest word first, extended by `n` words. -/
def shaExtend (k : ShaKind) : Nat → List Nat → List Nat
  | 0, ws => ws
  | n + 1, ws =>
    let v := shaSmall k k.smallB (ws.getD 1 0) + ws.getD 6 0 + shaSmall k k.smallA (ws.getD 14 0) + ws.getD 15 0
    shaExtend k n (v % 2 ^ k.w :: ws)

/-- One round on the eight working words. -/
def shaRound (k : ShaKind) (h : List Nat) (kt wt : Nat) : List Nat :=
  let a := h.getD 0 0
  let b := h.getD 1 0
  let c := h.getD 2 0
  let d := h.getD 3 0
  let e := h.getD 4 0
  let f := h.getD 5 0
  let g := h.getD 6 0
  let t1 := h.getD 7 0 + shaBig k k.bigE e + ((e &&& f) ^^^ ((2 ^ k.w - 1 - e) &&& g)) + kt + wt
  let t2 := shaBig k k.bigA a + ((a &&& b) ^^^ (a &&& c) ^^^ (b &&& c))
  [(t1 + t2) % 2 ^ k.w, a, b, c, (d + t1) % 2 ^ k.w, e, f, g]

/-- One block: the chaining words after the block. -/
def shaBlock (k : ShaKind) (ks h : List Nat) (blk : Bytes) : List Nat :=
  let b := k.w / 8
  let w0 := (List.range 16).map (fun t => ofBe (slice blk (t * b) b))
  let ws := (shaExtend k (k.rounds - 16) w0.reverse).reverse
  let h' := (ks.zip ws).foldl (fun h p => shaRound k h p.1 p.2) h
  (h.zip h').map (fun p => (p.1 + p.2) % 2 ^ k.w)

/-- Blocks of `m` from the front of the padded message, at most `n` of them. -/
def shaBlocks (k : ShaKind) (ks : List Nat) : Nat → List Nat → Bytes → List Nat
  | 0, h, _ => h
  | n + 1, h, l => if l = [] then h else shaBlocks k ks n (shaBlock k ks h (l.take (2 * k.w))) (l.drop (2 * k.w))

/-- A message padded to whole blocks: 0x80, zeros, then its length in bits. -/
def shaPad (k : ShaKind) (l : Bytes) : Bytes :=
  let blk := 2 * k.w
  let lb := k.w / 4
  let z := (blk - (l.length + 1 + lb) % blk) % blk
  l ++ [0x80] ++ List.replicate z 0 ++ be lb (8 * l.length)

/-- The digest's words. -/
def shaWords (k : ShaKind) (ks h0 : List Nat) (l : Bytes) : List Nat :=
  shaBlocks k ks ((shaPad k l).length / (2 * k.w)) h0 (shaPad k l)

/-- SHA-256 (the hash of R556 to R562). -/
def sha256 (l : Bytes) : Bytes :=
  let k : ShaKind := ⟨32, 64, (2, 13, 22), (6, 11, 25), (7, 18, 3), (17, 19, 10)⟩
  ((shaWords k (shaConstants 32 64) (shaInitial 32 0) l).map (be 4)).flatten

/-- SHA-384 (the hash of R648, R668, R680). -/
def sha384 (l : Bytes) : Bytes :=
  let k : ShaKind := ⟨64, 80, (28, 34, 39), (14, 18, 41), (1, 8, 7), (19, 61, 6)⟩
  (((shaWords k (shaConstants 64 80) (shaInitial 64 8) l).take 6).map (be 8)).flatten

/-- CRC-16/CCITT-FALSE: polynomial 0x1021, initial value 0xFFFF (R332, R407). -/
def crc16 (l : Bytes) : Nat :=
  l.foldl (fun c b => (List.range 8).foldl (fun c _ => if c / 2 ^ 15 = 1 then (c * 2 % 2 ^ 16) ^^^ 0x1021 else c * 2) (c ^^^ (b.toNat * 256))) 0xFFFF

end Sys2Proof.Machine
end

