-- ==== Sys2Proof/Config.lean ====
section
/-! DEFINITION. What one part fixes and the free values of the model: constants without a body, so that no proof
can see what they are. -/

set_option Elab.async false

namespace Sys2Proof.Config

/-- HST_ID.VARIANT, from fuses (the HST register table): 0 for FK4825-C, 1 for FK4825-I. -/
opaque variant : Nat

/-- The 64-bit device serial number, from fuses (R41). -/
opaque serial : Nat

/-- The TWIN_PREF strap as sampled at t0 (R694): 1 for the preferred device. -/
opaque twinPref : Nat

/-- Processor time in ticks of the `n`-th command or step that core 0 executes (R107 bounds it and fixes no figure). -/
opaque procTime : Nat → Nat

/-- Whether a W1C bit (by its field key) that the device has set in a tick was set in the very CCLK of a write in that tick that clears it (R66):
a tick is two CCLK long, and the model tells no two instants of one tick apart. -/
opaque sameCclk : Nat → Nat → Bool

/-- Subsystem vendor ID and subsystem device ID (R41) that a configuration record gives: of the bytes of its region (R645) that are not erased, by
offset in the region. The manual does not lay the record out; so with the SMBus address (R79), the DDR5 channels listed (R699) and DDR_TEST (R700). -/
opaque recordIds : List (Nat × Nat) → Nat × Nat

/-- The 7-bit SMBus address that a configuration record gives (R79). -/
opaque recordSmbAddr : List (Nat × Nat) → Nat

/-- The DDR5 channels that a configuration record lists, as bits 0 and 1 (R699). -/
opaque recordDdr : List (Nat × Nat) → Nat

/-- Whether a configuration record sets DDR_TEST (R700). -/
opaque recordDdrTest : List (Nat × Nat) → Bool

/-- A port's settings in an FK2410 image (R703): whether it is enabled, MAX_FRAME, PVID and ACCEPT. -/
structure ImagePort where
  enabled : Bool
  maxFrame : Nat
  pvid : Nat
  accept : Nat
  deriving DecidableEq, Repr

/-- A VLAN of an FK2410 image (R703): VID, member ports 0 to 23, whether the host is a member, and which of them are untagged. -/
structure ImageVlan where
  vid : Nat
  ports : Nat
  host : Bool
  untagged : Nat
  hostUntagged : Bool
  deriving DecidableEq, Repr

/-- A static MAC entry of an FK2410 image (R703): VID, address, and its port, or with `group` its link aggregation group. -/
structure ImageMac where
  vid : Nat
  mac : Nat
  group : Bool
  dest : Nat
  deriving DecidableEq, Repr

/-- A queue of an FK2410 image (R703): port, queue, whether it is DWRR, weight, and its shaper's rate and burst. -/
structure ImageQueue where
  port : Nat
  queue : Nat
  dwrr : Bool
  weight : Nat
  rate : Nat
  burst : Nat
  deriving DecidableEq, Repr

/-- A section of an FK2410 image by what it holds (R703): port settings from port 0 on, the VLAN table, link aggregation groups as number and member ports, static
MAC entries, queue scheduling and shapers, or anything else. -/
inductive ImageSection where
  | ports (l : List ImagePort)
  | vlans (l : List ImageVlan)
  | lags (l : List (Nat × Nat))
  | macs (l : List ImageMac)
  | queues (l : List ImageQueue)
  | other
  deriving DecidableEq, Repr

/-- The sections of an FK2410 image, in the order they stand in it, from the bytes of its region: the manual names the sections and does not give the
FK2410's format (R703). -/
opaque imageSections : List (Nat × Nat) → List ImageSection

/-- Proportional and integral gain of the outer loop's filter (R319) by effective bandwidth in mHz, damping in 0.01 and comparison rate in mHz: what a phase error of
2⁻¹⁶ ns adds, in 2⁻⁸⁰ of frequency. The manual gives the filter's type and its settings and no coefficients. -/
opaque loopGain (bw damp fcmp : Nat) : Int × Int

/-- The `n`-th value the manual leaves open where no other constant names it; read through State's own counter. -/
opaque free : Nat → Nat

/-- The 65 bytes of the device identity's uncompressed public key (R672). -/
opaque publicKey : Bytes

/-- The ECDSA P-256 signature (r then s as one big-endian number of 64 bytes) of a message whose SHA-256 is the argument,
under the device identity key, which never leaves the module (R561, R672). -/
opaque signature : Nat → Nat

/-- The factory TDC map: φ of target (KIND × 64 + INDEX), channel and fine code, in 2⁻²⁴ tick; below one tick (R627). -/
opaque factoryPhi : Nat → Nat → Nat → Fin 16777216

/-- The factory delay of a target at a record index, in 2⁻¹⁶ ns (R627). -/
opaque factoryDelay : Nat → Nat → Int

/-- The 256-byte cells of one DDR5 channel as fitted: at most 32 GiB of them (R481; up to 64 GiB over both channels). -/
opaque ddrCells : Fin 134217729

/-- The burst in bytes that the shaper on firmware's own transmission takes beyond a longest frame (R674 gives its rate alone). -/
opaque mgmtBurst : Nat

/-- Whether a navigation block (FORMAT of R368, its 40 bytes) passes the parity or CRC of its broadcast format, which R369 names
and does not give. -/
opaque navBlockOk : Nat → Bytes → Bool

/-- The issue of a navigation record (FORMAT, its blocks) in the order R369 and R370 compare issues by. -/
opaque navIssue : Nat → List Bytes → Nat

/-- The fused SHA-384 hash of signing key K0 to K3 (R668). -/
opaque keyHash : Nat → Bytes

/-- Whether a signing key is revoked (R668). -/
opaque keyRevoked : Nat → Bool

/-- ECDSA P-384 verification of a signature over a SHA-384 digest: public key, digest, signature (R651, R668, R682). -/
opaque p384Verifies : Bytes → Bytes → Bytes → Bool

/-- The bytes the X.509 certificate of the device identity is taken from (R672). -/
opaque certificateBytes : Bytes

/-- The X.509 certificate of the device identity, DER: at most 2,048 bytes (R672). -/
def certificate : Bytes := certificateBytes.take 2048

/-- Base-2 logarithm of the flash's erase sector in pages of 256 bytes; the manual names sectors (R652) and gives no size. -/
opaque sectorLog : Fin 13

end Sys2Proof.Config
end

