-- ==== Sys2Proof/Machine/Sparse.lean ====
section
/-! DEFINITION. Sparse tables in one canonical form: keys strictly rising, and no entry equal to what an
unlisted key reads as.  Register fields, counters and every large table of the device are held so, and the
host memory that the device has written is held as `Host.Cell`s in the same order. -/

set_option Elab.async false

namespace Sys2Proof.Machine

/-- The value at key `k`, `d` where no entry lists it. -/
def spGet {α : Type} (d : α) : List (Nat × α) → Nat → α
  | [], _ => d
  | (j, v) :: r, k => if j = k then v else spGet d r k

/-- The table without key `k`. -/
def spDel {α : Type} : List (Nat × α) → Nat → List (Nat × α)
  | [], _ => []
  | (j, v) :: r, k => if j = k then spDel r k else (j, v) :: spDel r k

/-- The table with `v` inserted at key `k` in rising order; `k` must not be listed. -/
def spIns {α : Type} : List (Nat × α) → Nat → α → List (Nat × α)
  | [], k, v => [(k, v)]
  | (j, w) :: r, k, v => if k < j then (k, v) :: (j, w) :: r else (j, w) :: spIns r k v

/-- The table with key `k` reading `v`; writing the default removes the entry. -/
def spSet {α : Type} [DecidableEq α] (d : α) (m : List (Nat × α)) (k : Nat) (v : α) : List (Nat × α) :=
  if v = d then spDel m k else spIns (spDel m k) k v

/-- Keys strictly rising. -/
def spSorted {α : Type} : List (Nat × α) → Bool
  | [] => true
  | [_] => true
  | (j, _) :: (k, w) :: r => decide (j < k) && spSorted ((k, w) :: r)

/-- The canonical form: keys strictly rising and no entry equal to the default. -/
def spCanon {α : Type} [DecidableEq α] (d : α) (m : List (Nat × α)) : Bool :=
  spSorted m && m.all (fun p => decide (p.2 ≠ d))

/-- Host memory as the device has written it: an address that no entry lists has not been written by the
device, and reading it answers no value. -/
abbrev Memory := List Host.Cell

/-- The byte the device wrote at address `a`, if it has written one. -/
def memRead (m : Memory) (a : Nat) : Option Byte := (m.find? (fun c => c.1 = a)).map (·.2)

/-- Host memory with byte `b` at address `a`. -/
def memWrite (m : Memory) (a : Nat) (b : Byte) : Memory := spIns (spDel m a) a b

/-- Host memory with the bytes `bs` from address `a` on; addresses wrap at 2^64 as PCIe addresses do. -/
def memWriteBytes (m : Memory) (a : Nat) : Bytes → Memory
  | [] => m
  | b :: bs => memWriteBytes (memWrite m (a % 2 ^ 64) b) (a + 1) bs

/-- The canonical form of host memory. -/
def Memory.wf (m : Memory) : Bool := spSorted m

end Sys2Proof.Machine
end

