-- ==== Sys2Proof/Machine/Regs.lean ====
section
/-! DEFINITION. The register map of BAR0 (R45): every register of the chapters' register tables, with its fields,
access codes (R16), reset values, W32 (R52) and its part in a latching, writable or keyed pair (R57, R60, R61).
The device holds one value per FIELD: the key of a field is its register's BAR0 offset times 32 plus its lowest bit. -/

set_option Elab.async false

namespace Sys2Proof.Machine

/-- Access codes of a field (R16). -/
inductive Acc where
  | ro | rw | wo | w1c | w1s | sc | lk | w1 | wk
  deriving DecidableEq, Repr

/-- The part a register has in a pair: latching (R57), writable (R60) or keyed (R61). -/
inductive RegKind where
  | plain | latchLo | latchHi | pairLo | pairHi | keyA | keyB
  deriving DecidableEq, Repr

/-- One field of a register: its highest and lowest bit, access code and reset value. -/
structure FieldDesc where
  hi : Nat
  lo : Nat
  acc : Acc
  reset : Nat
  deriving DecidableEq, Repr

/-- One register, or a family of registers at regular strides (stride, count), the widest stride first. -/
structure RegDesc where
  base : Nat
  strides : List (Nat × Nat)
  kind : RegKind
  w32 : Bool
  fields : List FieldDesc
  deriving DecidableEq, Repr

/-- A field by address: BAR0 offset of its register, lowest bit, width. In a family of registers an index past its last register names
the place after that one, so that no field leaves its block. -/
structure Fld where
  addr : Nat
  lo : Nat
  width : Nat
  deriving DecidableEq, Repr

/-- The key of a field in the register file. -/
def Fld.key (f : Fld) : Nat := f.addr * 32 + f.lo % 32

/-! ### HST block, 0x0 to 0xffff -/

/-- HST_ID.VARIANT (Device identity). -/
def Reg.hstIdVariant : Fld := ⟨0x0, 24, 2⟩

/-- HST_ID.REV (Device identity). -/
def Reg.hstIdRev : Fld := ⟨0x0, 16, 8⟩

/-- HST_ID.DEVICE (Device identity). -/
def Reg.hstIdDevice : Fld := ⟨0x0, 0, 16⟩

/-- HST_STATUS.ALARM (Device status). -/
def Reg.hstStatusAlarm : Fld := ⟨0x4, 11, 1⟩

/-- HST_STATUS.EVR_LOSS (Device status). -/
def Reg.hstStatusEvrLoss : Fld := ⟨0x4, 10, 1⟩

/-- HST_STATUS.ACCESS_FAULT (Device status). -/
def Reg.hstStatusAccessFault : Fld := ⟨0x4, 9, 1⟩

/-- HST_STATUS.ACTIVE (Device status). -/
def Reg.hstStatusActive : Fld := ⟨0x4, 3, 1⟩

/-- HST_STATUS.SERVED (Device status). -/
def Reg.hstStatusServed : Fld := ⟨0x4, 2, 1⟩

/-- HST_STATUS.FW_RUN (Device status). -/
def Reg.hstStatusFwRun : Fld := ⟨0x4, 1, 1⟩

/-- HST_STATUS.READY (Device status). -/
def Reg.hstStatusReady : Fld := ⟨0x4, 0, 1⟩

/-- HST_FAULT_ADDR.WRITE (Last access fault). -/
def Reg.hstFaultAddrWrite : Fld := ⟨0x8, 31, 1⟩

/-- HST_FAULT_ADDR.REQ (Last access fault). -/
def Reg.hstFaultAddrReq : Fld := ⟨0x8, 28, 3⟩

/-- HST_FAULT_ADDR.BAR (Last access fault). -/
def Reg.hstFaultAddrBar : Fld := ⟨0x8, 26, 2⟩

/-- HST_FAULT_ADDR.OFFSET (Last access fault). -/
def Reg.hstFaultAddrOffset : Fld := ⟨0x8, 0, 26⟩

/-- HST_SCRATCH.VALUE (Scratch). -/
def Reg.hstScratch : Fld := ⟨0xc, 0, 32⟩

/-- HST_DTT: the 64-bit pair (Live DTT). -/
def Reg.hstDtt : Nat := 0x10

/-- HST_IRQ_STATUS.READY_CHG (INTn causes). -/
def Reg.hstIrqStatusReadyChg : Fld := ⟨0x20, 4, 1⟩

/-- HST_IRQ_STATUS.QC_CHG (INTn causes). -/
def Reg.hstIrqStatusQcChg : Fld := ⟨0x20, 3, 1⟩

/-- HST_IRQ_STATUS.ALARM (INTn causes). -/
def Reg.hstIrqStatusAlarm : Fld := ⟨0x20, 2, 1⟩

/-- HST_IRQ_STATUS.GD_VIOL (INTn causes). -/
def Reg.hstIrqStatusGdViol : Fld := ⟨0x20, 1, 1⟩

/-- HST_IRQ_STATUS.EVR (INTn causes). -/
def Reg.hstIrqStatusEvr : Fld := ⟨0x20, 0, 1⟩

/-- HST_IRQ_MASK.EN (INTn enables). -/
def Reg.hstIrqMaskEn : Fld := ⟨0x24, 0, 5⟩

/-- HST_EVR_BASE: the 64-bit pair (Event ring base). -/
def Reg.hstEvrBase : Nat := 0x40

/-- HST_EVR_CFG.CFG_ERR (Event ring configuration). -/
def Reg.hstEvrCfgCfgErr : Fld := ⟨0x48, 31, 1⟩

/-- HST_EVR_CFG.MINSEV (Event ring configuration). -/
def Reg.hstEvrCfgMinsev : Fld := ⟨0x48, 16, 2⟩

/-- HST_EVR_CFG.LOG2SZ (Event ring configuration). -/
def Reg.hstEvrCfgLog2sz : Fld := ⟨0x48, 8, 5⟩

/-- HST_EVR_CFG.EN (Event ring configuration). -/
def Reg.hstEvrCfgEn : Fld := ⟨0x48, 0, 1⟩

/-- HST_EVR_PROD.PHASE (Producer index). -/
def Reg.hstEvrProdPhase : Fld := ⟨0x4c, 16, 1⟩

/-- HST_EVR_PROD.INDEX (Producer index). -/
def Reg.hstEvrProdIndex : Fld := ⟨0x4c, 0, 16⟩

/-- HST_EVR_CONS.INDEX (Consumer index (W32)). -/
def Reg.hstEvrConsIndex : Fld := ⟨0x50, 0, 16⟩

/-- HST_EVR_IRQ.HOLDOFF (Event ring interrupt moderation). -/
def Reg.hstEvrIrqHoldoff : Fld := ⟨0x54, 16, 16⟩

/-- HST_EVR_IRQ.THRESH (Event ring interrupt moderation). -/
def Reg.hstEvrIrqThresh : Fld := ⟨0x54, 0, 16⟩

/-- HST_EVR_LOST: the 64-bit pair (Discarded records). -/
def Reg.hstEvrLost : Nat := 0x58

/-- HST_RESET_A.VALUE (Device reset, value word). -/
def Reg.hstResetA : Fld := ⟨0x30, 0, 32⟩

/-- HST_RESET_B.VALUE (Device reset, complement word). -/
def Reg.hstResetB : Fld := ⟨0x34, 0, 32⟩

/-- The registers of the HST block. -/
def regsHst : List RegDesc :=
  [⟨0x0, [], .plain, false, [⟨25, 24, .ro, Config.variant % 2⟩, ⟨23, 16, .ro, 161⟩, ⟨15, 0, .ro, 0x4825⟩]⟩,
   ⟨0x4, [], .plain, false, [⟨11, 11, .w1c, 0⟩, ⟨10, 10, .w1c, 0⟩, ⟨9, 9, .w1c, 0⟩, ⟨3, 3, .ro, 1⟩, ⟨2, 2, .ro, 0⟩, ⟨1, 1, .ro, 0⟩, ⟨0, 0, .ro, 0⟩]⟩,
   ⟨0x8, [], .plain, false, [⟨31, 31, .ro, 0⟩, ⟨30, 28, .ro, 0⟩, ⟨27, 26, .ro, 0⟩, ⟨25, 0, .ro, 0⟩]⟩,
   ⟨0xc, [], .plain, false, [⟨31, 0, .rw, 0⟩]⟩,
   ⟨0x10, [], .latchLo, false, [⟨31, 0, .ro, 0⟩]⟩,
   ⟨0x14, [], .latchHi, false, [⟨31, 0, .ro, 0⟩]⟩,
   ⟨0x20, [], .plain, false, [⟨4, 4, .w1c, 0⟩, ⟨3, 3, .w1c, 0⟩, ⟨2, 2, .w1c, 0⟩, ⟨1, 1, .w1c, 0⟩, ⟨0, 0, .w1c, 0⟩]⟩,
   ⟨0x24, [], .plain, false, [⟨4, 0, .rw, 4⟩]⟩,
   ⟨0x40, [], .pairLo, false, [⟨31, 0, .rw, 0⟩]⟩,
   ⟨0x44, [], .pairHi, false, [⟨31, 0, .rw, 0⟩]⟩,
   ⟨0x48, [], .plain, false, [⟨31, 31, .ro, 0⟩, ⟨17, 16, .rw, 0⟩, ⟨12, 8, .rw, 0⟩, ⟨0, 0, .rw, 0⟩]⟩,
   ⟨0x4c, [], .plain, false, [⟨16, 16, .ro, 1⟩, ⟨15, 0, .ro, 0⟩]⟩,
   ⟨0x50, [], .plain, true, [⟨15, 0, .rw, 0⟩]⟩,
   ⟨0x54, [], .plain, false, [⟨31, 16, .rw, 100⟩, ⟨15, 0, .rw, 1⟩]⟩,
   ⟨0x58, [], .latchLo, false, [⟨31, 0, .ro, 0⟩]⟩,
   ⟨0x5c, [], .latchHi, false, [⟨31, 0, .ro, 0⟩]⟩,
   ⟨0x30, [], .keyA, true, [⟨31, 0, .wk, 0⟩]⟩,
   ⟨0x34, [], .keyB, true, [⟨31, 0, .wk, 0⟩]⟩]

/-! ### GD block, 0x10000 to 0x1ffff -/

/-- GD_LOCK.LOCK (Guard lock). -/
def Reg.gdLockLock : Fld := ⟨0x10000, 0, 1⟩

/-- GD_STATUS.VIOL_COUNT (Guard status). -/
def Reg.gdStatusViolCount : Fld := ⟨0x10004, 16, 16⟩

/-- GD_STATUS.LAST_REQ (Guard status). -/
def Reg.gdStatusLastReq : Fld := ⟨0x10004, 9, 3⟩

/-- GD_STATUS.LAST_REASON (Guard status). -/
def Reg.gdStatusLastReason : Fld := ⟨0x10004, 4, 5⟩

/-- GD_STATUS.GD_VIOL (Guard status). -/
def Reg.gdStatusGdViol : Fld := ⟨0x10004, 0, 1⟩

/-- GD_VIOL_ADDR.OFFSET (Address of the last guard violation). -/
def Reg.gdViolAddrOffset : Fld := ⟨0x10008, 0, 26⟩

/-- GD_STEP_MAX_A.VALUE (Step bound). -/
def Reg.gdStepMaxA : Fld := ⟨0x10010, 0, 32⟩

/-- GD_STEP_MAX_B.VALUE (Step bound). -/
def Reg.gdStepMaxB : Fld := ⟨0x10014, 0, 32⟩

/-- GD_SLEW_MAX_A.VALUE (Slew bound). -/
def Reg.gdSlewMaxA : Fld := ⟨0x10018, 0, 32⟩

/-- GD_SLEW_MAX_B.VALUE (Slew bound). -/
def Reg.gdSlewMaxB : Fld := ⟨0x1001c, 0, 32⟩

/-- GD_STEER_MAX_A.VALUE (Steer bound). -/
def Reg.gdSteerMaxA : Fld := ⟨0x10020, 0, 32⟩

/-- GD_STEER_MAX_B.VALUE (Steer bound). -/
def Reg.gdSteerMaxB : Fld := ⟨0x10024, 0, 32⟩

/-- GD_PORT_EN0_A.VALUE (Port enable bound, ports 0–31). -/
def Reg.gdPortEn0A : Fld := ⟨0x10028, 0, 32⟩

/-- GD_PORT_EN0_B.VALUE (Port enable bound, ports 0–31). -/
def Reg.gdPortEn0B : Fld := ⟨0x1002c, 0, 32⟩

/-- GD_PORT_EN1_A.VALUE (Port enable bound, ports 32–47 and twin link). -/
def Reg.gdPortEn1A : Fld := ⟨0x10030, 0, 32⟩

/-- GD_PORT_EN1_B.VALUE (Port enable bound, ports 32–47 and twin link). -/
def Reg.gdPortEn1B : Fld := ⟨0x10034, 0, 32⟩

/-- GD_MGMT_RATE_A.VALUE (Management rate bound). -/
def Reg.gdMgmtRateA : Fld := ⟨0x10038, 0, 32⟩

/-- GD_MGMT_RATE_B.VALUE (Management rate bound). -/
def Reg.gdMgmtRateB : Fld := ⟨0x1003c, 0, 32⟩

/-- GD_SEC_STATUS.TAMPER_CFG (Security status). -/
def Reg.gdSecStatusTamperCfg : Fld := ⟨0x10100, 16, 8⟩

/-- GD_SEC_STATUS.POLICY (Security status). -/
def Reg.gdSecStatusPolicy : Fld := ⟨0x10100, 8, 8⟩

/-- GD_SEC_STATUS.VBAT_LOW (Security status). -/
def Reg.gdSecStatusVbatLow : Fld := ⟨0x10100, 5, 1⟩

/-- GD_SEC_STATUS.AO_LOST (Security status). -/
def Reg.gdSecStatusAoLost : Fld := ⟨0x10100, 4, 1⟩

/-- GD_SEC_STATUS.SELFTEST_RUN (Security status). -/
def Reg.gdSecStatusSelftestRun : Fld := ⟨0x10100, 3, 1⟩

/-- GD_SEC_STATUS.EVD_ERROR (Security status). -/
def Reg.gdSecStatusEvdError : Fld := ⟨0x10100, 2, 1⟩

/-- GD_SEC_STATUS.ZEROISED (Security status). -/
def Reg.gdSecStatusZeroised : Fld := ⟨0x10100, 1, 1⟩

/-- GD_SEC_STATUS.OWNER_LOCKED (Security status). -/
def Reg.gdSecStatusOwnerLocked : Fld := ⟨0x10100, 0, 1⟩

/-- GD_SVN_FLOOR.SVN (SVN floor). -/
def Reg.gdSvnFloor : Fld := ⟨0x10104, 0, 32⟩

/-- The registers of the GD block. -/
def regsGd : List RegDesc :=
  [⟨0x10000, [], .plain, true, [⟨0, 0, .lk, 0⟩]⟩,
   ⟨0x10004, [], .plain, true, [⟨31, 16, .ro, 0⟩, ⟨11, 9, .ro, 0⟩, ⟨8, 4, .ro, 0⟩, ⟨0, 0, .w1c, 0⟩]⟩,
   ⟨0x10008, [], .plain, true, [⟨25, 0, .ro, 0⟩]⟩,
   ⟨0x10010, [], .keyA, true, [⟨31, 0, .wk, 0xffffffff⟩]⟩,
   ⟨0x10014, [], .keyB, true, [⟨31, 0, .wk, 0xffffffff⟩]⟩,
   ⟨0x10018, [], .keyA, true, [⟨31, 0, .wk, 1000⟩]⟩,
   ⟨0x1001c, [], .keyB, true, [⟨31, 0, .wk, 1000⟩]⟩,
   ⟨0x10020, [], .keyA, true, [⟨31, 0, .wk, 0xffffffff⟩]⟩,
   ⟨0x10024, [], .keyB, true, [⟨31, 0, .wk, 0xffffffff⟩]⟩,
   ⟨0x10028, [], .keyA, true, [⟨31, 0, .wk, 0xffffffff⟩]⟩,
   ⟨0x1002c, [], .keyB, true, [⟨31, 0, .wk, 0xffffffff⟩]⟩,
   ⟨0x10030, [], .keyA, true, [⟨31, 0, .wk, 0x1ffff⟩]⟩,
   ⟨0x10034, [], .keyB, true, [⟨31, 0, .wk, 0x1ffff⟩]⟩,
   ⟨0x10038, [], .keyA, true, [⟨31, 0, .wk, 1000⟩]⟩,
   ⟨0x1003c, [], .keyB, true, [⟨31, 0, .wk, 1000⟩]⟩,
   ⟨0x10100, [], .plain, true, [⟨23, 16, .ro, 0⟩, ⟨15, 8, .ro, 0⟩, ⟨5, 5, .ro, 0⟩, ⟨4, 4, .ro, 0⟩, ⟨3, 3, .ro, 0⟩, ⟨2, 2, .ro, 0⟩, ⟨1, 1, .ro, 0⟩, ⟨0, 0, .ro, 0⟩]⟩,
   ⟨0x10104, [], .plain, true, [⟨31, 0, .ro, 0⟩]⟩]

/-! ### MBX block, 0x20000 to 0x2ffff -/

/-- MBX_SQ_BASE: the 64-bit pair (Submission ring base). -/
def Reg.mbxSqBase (n : Nat) : Nat := 0x20000 + min n 2 * 0x100

/-- MBX_CQ_BASE: the 64-bit pair (Completion ring base). -/
def Reg.mbxCqBase (n : Nat) : Nat := 0x20008 + min n 2 * 0x100

/-- MBX_CFG.CFG_ERR (Queue configuration). -/
def Reg.mbxCfgCfgErr (n : Nat) : Fld := ⟨0x20010 + min n 2 * 0x100, 31, 1⟩

/-- MBX_CFG.CQ_LOG2SZ (Queue configuration). -/
def Reg.mbxCfgCqLog2sz (n : Nat) : Fld := ⟨0x20010 + min n 2 * 0x100, 16, 5⟩

/-- MBX_CFG.SQ_LOG2SZ (Queue configuration). -/
def Reg.mbxCfgSqLog2sz (n : Nat) : Fld := ⟨0x20010 + min n 2 * 0x100, 8, 5⟩

/-- MBX_CFG.EN (Queue configuration). -/
def Reg.mbxCfgEn (n : Nat) : Fld := ⟨0x20010 + min n 2 * 0x100, 0, 1⟩

/-- MBX_SQ_HEAD.INDEX (Submission head). -/
def Reg.mbxSqHeadIndex (n : Nat) : Fld := ⟨0x20014 + min n 2 * 0x100, 0, 16⟩

/-- MBX_DB_SHADOW.VALUE (Doorbell shadow). -/
def Reg.mbxDbShadow (n : Nat) : Fld := ⟨0x20018 + min n 2 * 0x100, 0, 32⟩

/-- MBX_CQ_PROD.PHASE (Completion producer). -/
def Reg.mbxCqProdPhase (n : Nat) : Fld := ⟨0x2001c + min n 2 * 0x100, 16, 1⟩

/-- MBX_CQ_PROD.INDEX (Completion producer). -/
def Reg.mbxCqProdIndex (n : Nat) : Fld := ⟨0x2001c + min n 2 * 0x100, 0, 16⟩

/-- MBX_CQ_CONS.INDEX (Completion consumer (W32)). -/
def Reg.mbxCqConsIndex (n : Nat) : Fld := ⟨0x20020 + min n 2 * 0x100, 0, 16⟩

/-- MBX_CQ_IRQ.HOLDOFF (Completion interrupt moderation). -/
def Reg.mbxCqIrqHoldoff (n : Nat) : Fld := ⟨0x20024 + min n 2 * 0x100, 16, 16⟩

/-- MBX_CQ_IRQ.THRESH (Completion interrupt moderation). -/
def Reg.mbxCqIrqThresh (n : Nat) : Fld := ⟨0x20024 + min n 2 * 0x100, 0, 16⟩

/-- MBX_STATUS.PENDING (Queue status). -/
def Reg.mbxStatusPending (n : Nat) : Fld := ⟨0x20028 + min n 2 * 0x100, 16, 16⟩

/-- MBX_STATUS.DISCARD (Queue status). -/
def Reg.mbxStatusDiscard (n : Nat) : Fld := ⟨0x20028 + min n 2 * 0x100, 3, 1⟩

/-- MBX_STATUS.CQ_STALL (Queue status). -/
def Reg.mbxStatusCqStall (n : Nat) : Fld := ⟨0x20028 + min n 2 * 0x100, 2, 1⟩

/-- MBX_STATUS.FETCH_ERR (Queue status). -/
def Reg.mbxStatusFetchErr (n : Nat) : Fld := ⟨0x20028 + min n 2 * 0x100, 1, 1⟩

/-- MBX_STATUS.DB_BAD (Queue status). -/
def Reg.mbxStatusDbBad (n : Nat) : Fld := ⟨0x20028 + min n 2 * 0x100, 0, 1⟩

/-- MBX_LONG_OP.OPCODE (Long command in progress). -/
def Reg.mbxLongOpOpcode : Fld := ⟨0x20200, 16, 16⟩

/-- MBX_LONG_OP.TAG (Long command in progress). -/
def Reg.mbxLongOpTag : Fld := ⟨0x20200, 0, 16⟩

/-- MBX_LONG_STEP.DONE (Long command progress). -/
def Reg.mbxLongStepDone : Fld := ⟨0x20204, 16, 16⟩

/-- MBX_LONG_STEP.ESTIMATE (Long command progress). -/
def Reg.mbxLongStepEstimate : Fld := ⟨0x20204, 0, 16⟩

/-- The registers of the MBX block. -/
def regsMbx : List RegDesc :=
  [⟨0x20000, [(0x100, 2)], .pairLo, false, [⟨31, 0, .rw, 0⟩]⟩,
   ⟨0x20004, [(0x100, 2)], .pairHi, false, [⟨31, 0, .rw, 0⟩]⟩,
   ⟨0x20008, [(0x100, 2)], .pairLo, false, [⟨31, 0, .rw, 0⟩]⟩,
   ⟨0x2000c, [(0x100, 2)], .pairHi, false, [⟨31, 0, .rw, 0⟩]⟩,
   ⟨0x20010, [(0x100, 2)], .plain, false, [⟨31, 31, .ro, 0⟩, ⟨20, 16, .rw, 0⟩, ⟨12, 8, .rw, 0⟩, ⟨0, 0, .rw, 0⟩]⟩,
   ⟨0x20014, [(0x100, 2)], .plain, false, [⟨15, 0, .ro, 0⟩]⟩,
   ⟨0x20018, [(0x100, 2)], .plain, false, [⟨31, 0, .ro, 0⟩]⟩,
   ⟨0x2001c, [(0x100, 2)], .plain, false, [⟨16, 16, .ro, 1⟩, ⟨15, 0, .ro, 0⟩]⟩,
   ⟨0x20020, [(0x100, 2)], .plain, true, [⟨15, 0, .rw, 0⟩]⟩,
   ⟨0x20024, [(0x100, 2)], .plain, false, [⟨31, 16, .rw, 10⟩, ⟨15, 0, .rw, 1⟩]⟩,
   ⟨0x20028, [(0x100, 2)], .plain, false, [⟨31, 16, .ro, 0⟩, ⟨3, 3, .w1c, 0⟩, ⟨2, 2, .w1c, 0⟩, ⟨1, 1, .w1c, 0⟩, ⟨0, 0, .w1c, 0⟩]⟩,
   ⟨0x20200, [], .plain, false, [⟨31, 16, .ro, 0⟩, ⟨15, 0, .ro, 0⟩]⟩,
   ⟨0x20204, [], .plain, false, [⟨31, 16, .ro, 0⟩, ⟨15, 0, .ro, 0⟩]⟩]

/-! ### TB block, 0x100000 to 0x10ffff -/

/-- TB_CFG.SEAMLESS (Slew and seamless configuration). -/
def Reg.tbCfgSeamless : Fld := ⟨0x100000, 12, 20⟩

/-- TB_CFG.RATE (Slew and seamless configuration). -/
def Reg.tbCfgRate : Fld := ⟨0x100000, 0, 10⟩

/-- TB_STATE.COMPACT (Time-base state). -/
def Reg.tbStateCompact : Fld := ⟨0x100004, 16, 5⟩

/-- TB_STATE.XFER (Time-base state). -/
def Reg.tbStateXfer : Fld := ⟨0x100004, 2, 1⟩

/-- TB_STATE.SWITCHING (Time-base state). -/
def Reg.tbStateSwitching : Fld := ⟨0x100004, 1, 1⟩

/-- TB_STATE.SERVED (Time-base state). -/
def Reg.tbStateServed : Fld := ⟨0x100004, 0, 1⟩

/-- TB_OUT_OFFSET: the 64-bit pair (Output offset). -/
def Reg.tbOutOffset : Nat := 0x100010

/-- TB_SNAP_CTRL.SEQ (Snapshot control). -/
def Reg.tbSnapCtrlSeq : Fld := ⟨0x100040, 24, 8⟩

/-- TB_SNAP_CTRL.DONE (Snapshot control). -/
def Reg.tbSnapCtrlDone : Fld := ⟨0x100040, 16, 1⟩

/-- TB_SNAP_CTRL.ARM (Snapshot control). -/
def Reg.tbSnapCtrlArm : Fld := ⟨0x100040, 8, 1⟩

/-- TB_SNAP_CTRL.ARM_SRC (Snapshot control). -/
def Reg.tbSnapCtrlArmSrc : Fld := ⟨0x100040, 4, 3⟩

/-- TB_SNAP_CTRL.TRIG (Snapshot control). -/
def Reg.tbSnapCtrlTrig : Fld := ⟨0x100040, 0, 1⟩

/-- TB_SNAP_TK0.WORD (Captured TK80, words W0–W2 (R131)). -/
def Reg.tbSnapTk0 : Fld := ⟨0x100044, 0, 32⟩

/-- TB_SNAP_TK1.WORD (Captured TK80, words W0–W2 (R131)). -/
def Reg.tbSnapTk1 : Fld := ⟨0x100048, 0, 32⟩

/-- TB_SNAP_TK2.WORD (Captured TK80, words W0–W2 (R131)). -/
def Reg.tbSnapTk2 : Fld := ⟨0x10004c, 0, 32⟩

/-- TB_SNAP_A0.WORD (Captured forewing FT96, words W0–W2). -/
def Reg.tbSnapA0 : Fld := ⟨0x100050, 0, 32⟩

/-- TB_SNAP_A1.WORD (Captured forewing FT96, words W0–W2). -/
def Reg.tbSnapA1 : Fld := ⟨0x100054, 0, 32⟩

/-- TB_SNAP_A2.WORD (Captured forewing FT96, words W0–W2). -/
def Reg.tbSnapA2 : Fld := ⟨0x100058, 0, 32⟩

/-- TB_SNAP_B0.WORD (Captured hindwing FT96, words W0–W2). -/
def Reg.tbSnapB0 : Fld := ⟨0x10005c, 0, 32⟩

/-- TB_SNAP_B1.WORD (Captured hindwing FT96, words W0–W2). -/
def Reg.tbSnapB1 : Fld := ⟨0x100060, 0, 32⟩

/-- TB_SNAP_B2.WORD (Captured hindwing FT96, words W0–W2). -/
def Reg.tbSnapB2 : Fld := ⟨0x100064, 0, 32⟩

/-- TB_SNAP_INFO.QC_B (Captured quality). -/
def Reg.tbSnapInfoQcB : Fld := ⟨0x100068, 24, 8⟩

/-- TB_SNAP_INFO.QC_A (Captured quality). -/
def Reg.tbSnapInfoQcA : Fld := ⟨0x100068, 16, 8⟩

/-- TB_SNAP_INFO.SERVED (Captured quality). -/
def Reg.tbSnapInfoServed : Fld := ⟨0x100068, 0, 1⟩

/-- TB_SNAP_STEPC.STEPC_B (Captured step counters). -/
def Reg.tbSnapStepcStepcB : Fld := ⟨0x10006c, 16, 16⟩

/-- TB_SNAP_STEPC.STEPC_A (Captured step counters). -/
def Reg.tbSnapStepcStepcA : Fld := ⟨0x10006c, 0, 16⟩

/-- TB_PTM_CTRL.SEQ (PTM pairing control). -/
def Reg.tbPtmCtrlSeq : Fld := ⟨0x100080, 24, 8⟩

/-- TB_PTM_CTRL.VALID (PTM pairing control). -/
def Reg.tbPtmCtrlValid : Fld := ⟨0x100080, 16, 1⟩

/-- TB_PTM_CTRL.PERIOD (PTM pairing control). -/
def Reg.tbPtmCtrlPeriod : Fld := ⟨0x100080, 0, 10⟩

/-- TB_PTM_HOST: the 64-bit pair (PTM Master Time). -/
def Reg.tbPtmHost : Nat := 0x100088

/-- TB_PTM_T0.WORD (Served-domain FT96 at the same instant, words W0–W2). -/
def Reg.tbPtmT0 : Fld := ⟨0x100090, 0, 32⟩

/-- TB_PTM_T1.WORD (Served-domain FT96 at the same instant, words W0–W2). -/
def Reg.tbPtmT1 : Fld := ⟨0x100094, 0, 32⟩

/-- TB_PTM_T2.WORD (Served-domain FT96 at the same instant, words W0–W2). -/
def Reg.tbPtmT2 : Fld := ⟨0x100098, 0, 32⟩

/-- TB_D_STATUS.LEAP (Domain status). -/
def Reg.tbDStatusLeap (n : Nat) : Fld := ⟨0x100100 + min n 2 * 0x100, 12, 2⟩

/-- TB_D_STATUS.SERVED (Domain status). -/
def Reg.tbDStatusServed (n : Nat) : Fld := ⟨0x100100 + min n 2 * 0x100, 11, 1⟩

/-- TB_D_STATUS.OPEN (Domain status). -/
def Reg.tbDStatusOpen (n : Nat) : Fld := ⟨0x100100 + min n 2 * 0x100, 10, 1⟩

/-- TB_D_STATUS.ALIGN_NEEDED (Domain status). -/
def Reg.tbDStatusAlignNeeded (n : Nat) : Fld := ⟨0x100100 + min n 2 * 0x100, 9, 1⟩

/-- TB_D_STATUS.SLEWING (Domain status). -/
def Reg.tbDStatusSlewing (n : Nat) : Fld := ⟨0x100100 + min n 2 * 0x100, 8, 1⟩

/-- TB_D_STATUS.QC (Domain status). -/
def Reg.tbDStatusQc (n : Nat) : Fld := ⟨0x100100 + min n 2 * 0x100, 0, 8⟩

/-- TB_D_STEPC.COUNT (Step counter). -/
def Reg.tbDStepc (n : Nat) : Fld := ⟨0x100104 + min n 2 * 0x100, 0, 32⟩

/-- TB_D_RATE: the 64-bit pair (Mapper rate). -/
def Reg.tbDRate (n : Nat) : Nat := 0x100108 + min n 2 * 0x100

/-- TB_D_SLEW_REM: the 64-bit pair (Slew remainder). -/
def Reg.tbDSlewRem (n : Nat) : Nat := 0x100110 + min n 2 * 0x100

/-- TB_D_ALIGN_ERR: the 64-bit pair (Alignment error). -/
def Reg.tbDAlignErr (n : Nat) : Nat := 0x100118 + min n 2 * 0x100

/-- TB_D_ANC_TK0.WORD (Current segment X_anc, TK80 words W0–W2). -/
def Reg.tbDAncTk0 (n : Nat) : Fld := ⟨0x100120 + min n 2 * 0x100, 0, 32⟩

/-- TB_D_ANC_TK1.WORD (Current segment X_anc, TK80 words W0–W2). -/
def Reg.tbDAncTk1 (n : Nat) : Fld := ⟨0x100124 + min n 2 * 0x100, 0, 32⟩

/-- TB_D_ANC_TK2.WORD (Current segment X_anc, TK80 words W0–W2). -/
def Reg.tbDAncTk2 (n : Nat) : Fld := ⟨0x100128 + min n 2 * 0x100, 0, 32⟩

/-- TB_D_ANC_T0.WORD (Current segment T_anc, FT96 words W0–W2). -/
def Reg.tbDAncT0 (n : Nat) : Fld := ⟨0x10012c + min n 2 * 0x100, 0, 32⟩

/-- TB_D_ANC_T1.WORD (Current segment T_anc, FT96 words W0–W2). -/
def Reg.tbDAncT1 (n : Nat) : Fld := ⟨0x100130 + min n 2 * 0x100, 0, 32⟩

/-- TB_D_ANC_T2.WORD (Current segment T_anc, FT96 words W0–W2). -/
def Reg.tbDAncT2 (n : Nat) : Fld := ⟨0x100134 + min n 2 * 0x100, 0, 32⟩

/-- TB_D_ANC_SEQ.SEQ (Segment sequence). -/
def Reg.tbDAncSeq (n : Nat) : Fld := ⟨0x100138 + min n 2 * 0x100, 0, 32⟩

/-- TB_D_UTC.OFFSET (UTC offset). -/
def Reg.tbDUtcOffset (n : Nat) : Fld := ⟨0x100140 + min n 2 * 0x100, 0, 16⟩

/-- TB_D_LEAP_AT: the 64-bit pair (Leap instant). -/
def Reg.tbDLeapAt (n : Nat) : Nat := 0x100148 + min n 2 * 0x100

/-- The registers of the TB block. -/
def regsTb : List RegDesc :=
  [⟨0x100000, [], .plain, false, [⟨31, 12, .rw, 100⟩, ⟨9, 0, .rw, 20⟩]⟩,
   ⟨0x100004, [], .plain, false, [⟨20, 16, .ro, 0⟩, ⟨2, 2, .ro, 0⟩, ⟨1, 1, .ro, 0⟩, ⟨0, 0, .ro, 0⟩]⟩,
   ⟨0x100010, [], .latchLo, false, [⟨31, 0, .ro, 0⟩]⟩,
   ⟨0x100014, [], .latchHi, false, [⟨31, 0, .ro, 0⟩]⟩,
   ⟨0x100040, [], .plain, false, [⟨31, 24, .ro, 0⟩, ⟨16, 16, .w1c, 0⟩, ⟨8, 8, .rw, 0⟩, ⟨6, 4, .rw, 0⟩, ⟨0, 0, .sc, 0⟩]⟩,
   ⟨0x100044, [], .plain, false, [⟨31, 0, .ro, 0⟩]⟩,
   ⟨0x100048, [], .plain, false, [⟨31, 0, .ro, 0⟩]⟩,
   ⟨0x10004c, [], .plain, false, [⟨31, 0, .ro, 0⟩]⟩,
   ⟨0x100050, [], .plain, false, [⟨31, 0, .ro, 0⟩]⟩,
   ⟨0x100054, [], .plain, false, [⟨31, 0, .ro, 0⟩]⟩,
   ⟨0x100058, [], .plain, false, [⟨31, 0, .ro, 0⟩]⟩,
   ⟨0x10005c, [], .plain, false, [⟨31, 0, .ro, 0⟩]⟩,
   ⟨0x100060, [], .plain, false, [⟨31, 0, .ro, 0⟩]⟩,
   ⟨0x100064, [], .plain, false, [⟨31, 0, .ro, 0⟩]⟩,
   ⟨0x100068, [], .plain, false, [⟨31, 24, .ro, 0⟩, ⟨23, 16, .ro, 0⟩, ⟨0, 0, .ro, 0⟩]⟩,
   ⟨0x10006c, [], .plain, false, [⟨31, 16, .ro, 0⟩, ⟨15, 0, .ro, 0⟩]⟩,
   ⟨0x100080, [], .plain, false, [⟨31, 24, .ro, 0⟩, ⟨16, 16, .ro, 0⟩, ⟨9, 0, .rw, 0⟩]⟩,
   ⟨0x100088, [], .latchLo, false, [⟨31, 0, .ro, 0⟩]⟩,
   ⟨0x10008c, [], .latchHi, false, [⟨31, 0, .ro, 0⟩]⟩,
   ⟨0x100090, [], .plain, false, [⟨31, 0, .ro, 0⟩]⟩,
   ⟨0x100094, [], .plain, false, [⟨31, 0, .ro, 0⟩]⟩,
   ⟨0x100098, [], .plain, false, [⟨31, 0, .ro, 0⟩]⟩,
   ⟨0x100100, [(0x100, 2)], .plain, false, [⟨13, 12, .ro, 0⟩, ⟨11, 11, .ro, 0⟩, ⟨10, 10, .ro, 0⟩, ⟨9, 9, .ro, 0⟩, ⟨8, 8, .ro, 0⟩, ⟨7, 0, .ro, 255⟩]⟩,
   ⟨0x100104, [(0x100, 2)], .plain, false, [⟨31, 0, .ro, 0⟩]⟩,
   ⟨0x100108, [(0x100, 2)], .latchLo, false, [⟨31, 0, .ro, 0⟩]⟩,
   ⟨0x10010c, [(0x100, 2)], .latchHi, false, [⟨31, 0, .ro, 0⟩]⟩,
   ⟨0x100110, [(0x100, 2)], .latchLo, false, [⟨31, 0, .ro, 0⟩]⟩,
   ⟨0x100114, [(0x100, 2)], .latchHi, false, [⟨31, 0, .ro, 0⟩]⟩,
   ⟨0x100118, [(0x100, 2)], .latchLo, false, [⟨31, 0, .ro, 0⟩]⟩,
   ⟨0x10011c, [(0x100, 2)], .latchHi, false, [⟨31, 0, .ro, 0⟩]⟩,
   ⟨0x100120, [(0x100, 2)], .plain, false, [⟨31, 0, .ro, 0⟩]⟩,
   ⟨0x100124, [(0x100, 2)], .plain, false, [⟨31, 0, .ro, 0⟩]⟩,
   ⟨0x100128, [(0x100, 2)], .plain, false, [⟨31, 0, .ro, 0⟩]⟩,
   ⟨0x10012c, [(0x100, 2)], .plain, false, [⟨31, 0, .ro, 0⟩]⟩,
   ⟨0x100130, [(0x100, 2)], .plain, false, [⟨31, 0, .ro, 0⟩]⟩,
   ⟨0x100134, [(0x100, 2)], .plain, false, [⟨31, 0, .ro, 0⟩]⟩,
   ⟨0x100138, [(0x100, 2)], .plain, false, [⟨31, 0, .ro, 0⟩]⟩,
   ⟨0x100140, [(0x100, 2)], .plain, false, [⟨15, 0, .ro, 0⟩]⟩,
   ⟨0x100148, [(0x100, 2)], .latchLo, false, [⟨31, 0, .ro, 0⟩]⟩,
   ⟨0x10014c, [(0x100, 2)], .latchHi, false, [⟨31, 0, .ro, 0⟩]⟩]

/-! ### RS block, 0x110000 to 0x11ffff -/

/-- RS_CAND_STATUS.PRIO_B (Candidate i status). -/
def Reg.rsCandStatusPrioB (n : Nat) : Fld := ⟨0x110000 + min n 16 * 0x20, 28, 4⟩

/-- RS_CAND_STATUS.PRIO_A (Candidate i status). -/
def Reg.rsCandStatusPrioA (n : Nat) : Fld := ⟨0x110000 + min n 16 * 0x20, 24, 4⟩

/-- RS_CAND_STATUS.QL (Candidate i status). -/
def Reg.rsCandStatusQl (n : Nat) : Fld := ⟨0x110000 + min n 16 * 0x20, 20, 4⟩

/-- RS_CAND_STATUS.KIND (Candidate i status). -/
def Reg.rsCandStatusKind (n : Nat) : Fld := ⟨0x110000 + min n 16 * 0x20, 16, 1⟩

/-- RS_CAND_STATUS.WTR (Candidate i status). -/
def Reg.rsCandStatusWtr (n : Nat) : Fld := ⟨0x110000 + min n 16 * 0x20, 15, 1⟩

/-- RS_CAND_STATUS.NONREV (Candidate i status). -/
def Reg.rsCandStatusNonrev (n : Nat) : Fld := ⟨0x110000 + min n 16 * 0x20, 14, 1⟩

/-- RS_CAND_STATUS.ACC_K (Candidate i status). -/
def Reg.rsCandStatusAccK (n : Nat) : Fld := ⟨0x110000 + min n 16 * 0x20, 8, 5⟩

/-- RS_CAND_STATUS.SEL_B (Candidate i status). -/
def Reg.rsCandStatusSelB (n : Nat) : Fld := ⟨0x110000 + min n 16 * 0x20, 7, 1⟩

/-- RS_CAND_STATUS.SEL_A (Candidate i status). -/
def Reg.rsCandStatusSelA (n : Nat) : Fld := ⟨0x110000 + min n 16 * 0x20, 6, 1⟩

/-- RS_CAND_STATUS.XCHK (Candidate i status). -/
def Reg.rsCandStatusXchk (n : Nat) : Fld := ⟨0x110000 + min n 16 * 0x20, 5, 1⟩

/-- RS_CAND_STATUS.STATE (Candidate i status). -/
def Reg.rsCandStatusState (n : Nat) : Fld := ⟨0x110000 + min n 16 * 0x20, 0, 3⟩

/-- RS_CAND_FFO: the 64-bit pair (Tested offset). -/
def Reg.rsCandFfo (n : Nat) : Nat := 0x110008 + min n 16 * 0x20

/-- RS_CAND_PHASE: the 64-bit pair (Phase against the served domain). -/
def Reg.rsCandPhase (n : Nat) : Nat := 0x110018 + min n 16 * 0x20

/-- RS_CAND_SLOPE.SLOPE (Drift slope). -/
def Reg.rsCandSlope (n : Nat) : Fld := ⟨0x110010 + min n 16 * 0x20, 0, 32⟩

/-- RS_D_SEL.FORCED (Domain selection). -/
def Reg.rsDSelForced (n : Nat) : Fld := ⟨0x111000 + min n 2 * 0x100, 31, 1⟩

/-- RS_D_SEL.TXN (Domain selection). -/
def Reg.rsDSelTxn (n : Nat) : Fld := ⟨0x111000 + min n 2 * 0x100, 30, 1⟩

/-- RS_D_SEL.QUEUED (Domain selection). -/
def Reg.rsDSelQueued (n : Nat) : Fld := ⟨0x111000 + min n 2 * 0x100, 29, 1⟩

/-- RS_D_SEL.HO_WINDOW (Domain selection). -/
def Reg.rsDSelHoWindow (n : Nat) : Fld := ⟨0x111000 + min n 2 * 0x100, 28, 1⟩

/-- RS_D_SEL.ONSET (Domain selection). -/
def Reg.rsDSelOnset (n : Nat) : Fld := ⟨0x111000 + min n 2 * 0x100, 27, 1⟩

/-- RS_D_SEL.SEL_VALID (Domain selection). -/
def Reg.rsDSelSelValid (n : Nat) : Fld := ⟨0x111000 + min n 2 * 0x100, 20, 1⟩

/-- RS_D_SEL.SEL (Domain selection). -/
def Reg.rsDSelSel (n : Nat) : Fld := ⟨0x111000 + min n 2 * 0x100, 16, 4⟩

/-- RS_D_SEL.HO_ENTRIES (Domain selection). -/
def Reg.rsDSelHoEntries (n : Nat) : Fld := ⟨0x111000 + min n 2 * 0x100, 8, 8⟩

/-- RS_D_SEL.QC (Domain selection). -/
def Reg.rsDSelQc (n : Nat) : Fld := ⟨0x111000 + min n 2 * 0x100, 0, 8⟩

/-- RS_D_BOUND: the 64-bit pair (Estimated bound). -/
def Reg.rsDBound (n : Nat) : Nat := 0x111008 + min n 2 * 0x100

/-- RS_D_HO_FFO: the 64-bit pair (Holdover value). -/
def Reg.rsDHoFfo (n : Nat) : Nat := 0x111010 + min n 2 * 0x100

/-- RS_LARDER_INFO.COUNT (Larder occupancy). -/
def Reg.rsLarderInfoCount : Fld := ⟨0x112000, 16, 12⟩

/-- RS_LARDER_INFO.NEWEST (Larder occupancy). -/
def Reg.rsLarderInfoNewest : Fld := ⟨0x112000, 0, 12⟩

/-- The registers of the RS block. -/
def regsRs : List RegDesc :=
  [⟨0x110000, [(0x20, 16)], .plain, false, [⟨31, 28, .ro, 0⟩, ⟨27, 24, .ro, 0⟩, ⟨23, 20, .ro, 0⟩, ⟨16, 16, .ro, 0⟩, ⟨15, 15, .ro, 0⟩, ⟨14, 14, .ro, 0⟩, ⟨12, 8, .ro, 31⟩, ⟨7, 7, .ro, 0⟩, ⟨6, 6, .ro, 0⟩, ⟨5, 5, .ro, 0⟩, ⟨2, 0, .ro, 7⟩]⟩,
   ⟨0x110008, [(0x20, 16)], .latchLo, false, [⟨31, 0, .ro, 0⟩]⟩,
   ⟨0x11000c, [(0x20, 16)], .latchHi, false, [⟨31, 0, .ro, 0⟩]⟩,
   ⟨0x110018, [(0x20, 16)], .latchLo, false, [⟨31, 0, .ro, 0⟩]⟩,
   ⟨0x11001c, [(0x20, 16)], .latchHi, false, [⟨31, 0, .ro, 0⟩]⟩,
   ⟨0x110010, [(0x20, 16)], .plain, false, [⟨31, 0, .ro, 0⟩]⟩,
   ⟨0x111000, [(0x100, 2)], .plain, false, [⟨31, 31, .ro, 0⟩, ⟨30, 30, .ro, 0⟩, ⟨29, 29, .ro, 0⟩, ⟨28, 28, .ro, 0⟩, ⟨27, 27, .ro, 0⟩, ⟨20, 20, .ro, 0⟩, ⟨19, 16, .ro, 0⟩, ⟨15, 8, .ro, 0⟩, ⟨7, 0, .ro, 255⟩]⟩,
   ⟨0x111008, [(0x100, 2)], .latchLo, false, [⟨31, 0, .ro, 0⟩]⟩,
   ⟨0x11100c, [(0x100, 2)], .latchHi, false, [⟨31, 0, .ro, 0⟩]⟩,
   ⟨0x111010, [(0x100, 2)], .latchLo, false, [⟨31, 0, .ro, 0⟩]⟩,
   ⟨0x111014, [(0x100, 2)], .latchHi, false, [⟨31, 0, .ro, 0⟩]⟩,
   ⟨0x112000, [], .plain, false, [⟨27, 16, .ro, 0⟩, ⟨11, 0, .ro, 0⟩]⟩]

/-! ### PL block, 0x120000 to 0x12ffff -/

/-- PL_STATUS.FINE (Inner loop status). -/
def Reg.plStatusFine : Fld := ⟨0x120000, 16, 16⟩

/-- PL_STATUS.BAND (Inner loop status). -/
def Reg.plStatusBand : Fld := ⟨0x120000, 8, 8⟩

/-- PL_STATUS.INNER_BW (Inner loop status). -/
def Reg.plStatusInnerBw : Fld := ⟨0x120000, 6, 2⟩

/-- PL_STATUS.MARGIN (Inner loop status). -/
def Reg.plStatusMargin : Fld := ⟨0x120000, 3, 1⟩

/-- PL_STATUS.SYSXO_OK (Inner loop status). -/
def Reg.plStatusSysxoOk : Fld := ⟨0x120000, 2, 1⟩

/-- PL_STATUS.SEARCH (Inner loop status). -/
def Reg.plStatusSearch : Fld := ⟨0x120000, 1, 1⟩

/-- PL_STATUS.INNER_LOCK (Inner loop status). -/
def Reg.plStatusInnerLock : Fld := ⟨0x120000, 0, 1⟩

/-- PL_NTW: the 64-bit pair (NTW). -/
def Reg.plNtw : Nat := 0x120008

/-- PL_D_STATUS.LOCK (Outer loop status). -/
def Reg.plDStatusLock (n : Nat) : Fld := ⟨0x120100 + min n 2 * 0x100, 31, 1⟩

/-- PL_D_STATUS.FACQ (Outer loop status). -/
def Reg.plDStatusFacq (n : Nat) : Fld := ⟨0x120100 + min n 2 * 0x100, 30, 1⟩

/-- PL_D_STATUS.SLOW (Outer loop status). -/
def Reg.plDStatusSlow (n : Nat) : Fld := ⟨0x120100 + min n 2 * 0x100, 29, 1⟩

/-- PL_D_STATUS.COUNT (Outer loop status). -/
def Reg.plDStatusCount (n : Nat) : Fld := ⟨0x120100 + min n 2 * 0x100, 0, 16⟩

/-- PL_D_PERR: the 64-bit pair (e_loop). -/
def Reg.plDPerr (n : Nat) : Nat := 0x120108 + min n 2 * 0x100

/-- PL_OSYN_STATUS.INT (OSYNk plan). -/
def Reg.plOsynStatusInt (n : Nat) : Fld := ⟨0x121000 + min n 4 * 0x10, 8, 3⟩

/-- PL_OSYN_STATUS.RETUNE (OSYNk plan). -/
def Reg.plOsynStatusRetune (n : Nat) : Fld := ⟨0x121000 + min n 4 * 0x10, 1, 1⟩

/-- PL_OSYN_STATUS.LOCK (OSYNk plan). -/
def Reg.plOsynStatusLock (n : Nat) : Fld := ⟨0x121000 + min n 4 * 0x10, 0, 1⟩

/-- PL_OSYN_NUM.VALUE (OSYNk numerator). -/
def Reg.plOsynNumValue (n : Nat) : Fld := ⟨0x121004 + min n 4 * 0x10, 0, 24⟩

/-- PL_OSYN_DEN.VALUE (OSYNk denominator). -/
def Reg.plOsynDenValue (n : Nat) : Fld := ⟨0x121008 + min n 4 * 0x10, 0, 24⟩

/-- PL_OUT_STATUS.SQ_MASK (CLKOUTn status). -/
def Reg.plOutStatusSqMask (n : Nat) : Fld := ⟨0x122000 + min n 8 * 0x10, 16, 8⟩

/-- PL_OUT_STATUS.SAFE (CLKOUTn status). -/
def Reg.plOutStatusSafe (n : Nat) : Fld := ⟨0x122000 + min n 8 * 0x10, 9, 1⟩

/-- PL_OUT_STATUS.ALIGN (CLKOUTn status). -/
def Reg.plOutStatusAlign (n : Nat) : Fld := ⟨0x122000 + min n 8 * 0x10, 8, 1⟩

/-- PL_OUT_STATUS.STD (CLKOUTn status). -/
def Reg.plOutStatusStd (n : Nat) : Fld := ⟨0x122000 + min n 8 * 0x10, 6, 2⟩

/-- PL_OUT_STATUS.OSYN (CLKOUTn status). -/
def Reg.plOutStatusOsyn (n : Nat) : Fld := ⟨0x122000 + min n 8 * 0x10, 4, 2⟩

/-- PL_OUT_STATUS.STATE (CLKOUTn status). -/
def Reg.plOutStatusState (n : Nat) : Fld := ⟨0x122000 + min n 8 * 0x10, 0, 3⟩

/-- PL_OUT_DIV.VALUE (CLKOUTn divider). -/
def Reg.plOutDiv (n : Nat) : Fld := ⟨0x122004 + min n 8 * 0x10, 0, 32⟩

/-- PL_PPS_STATUS.SQ_MASK (PPSOUTm status). -/
def Reg.plPpsStatusSqMask (n : Nat) : Fld := ⟨0x123000 + min n 4 * 0x10, 24, 8⟩

/-- PL_PPS_STATUS.TOD (PPSOUTm status). -/
def Reg.plPpsStatusTod (n : Nat) : Fld := ⟨0x123000 + min n 4 * 0x10, 8, 2⟩

/-- PL_PPS_STATUS.FLAGS (PPSOUTm status). -/
def Reg.plPpsStatusFlags (n : Nat) : Fld := ⟨0x123000 + min n 4 * 0x10, 3, 5⟩

/-- PL_PPS_STATUS.STATE (PPSOUTm status). -/
def Reg.plPpsStatusState (n : Nat) : Fld := ⟨0x123000 + min n 4 * 0x10, 0, 3⟩

/-- The registers of the PL block. -/
def regsPl : List RegDesc :=
  [⟨0x120000, [], .plain, false, [⟨31, 16, .ro, 0⟩, ⟨15, 8, .ro, 0⟩, ⟨7, 6, .ro, 2⟩, ⟨3, 3, .ro, 0⟩, ⟨2, 2, .ro, 0⟩, ⟨1, 1, .ro, 0⟩, ⟨0, 0, .ro, 0⟩]⟩,
   ⟨0x120008, [], .latchLo, false, [⟨31, 0, .ro, 0⟩]⟩,
   ⟨0x12000c, [], .latchHi, false, [⟨31, 0, .ro, 0⟩]⟩,
   ⟨0x120100, [(0x100, 2)], .plain, false, [⟨31, 31, .ro, 0⟩, ⟨30, 30, .ro, 0⟩, ⟨29, 29, .ro, 0⟩, ⟨15, 0, .ro, 0⟩]⟩,
   ⟨0x120108, [(0x100, 2)], .latchLo, false, [⟨31, 0, .ro, 0⟩]⟩,
   ⟨0x12010c, [(0x100, 2)], .latchHi, false, [⟨31, 0, .ro, 0⟩]⟩,
   ⟨0x121000, [(0x10, 4)], .plain, false, [⟨10, 8, .ro, 0⟩, ⟨1, 1, .ro, 0⟩, ⟨0, 0, .ro, 0⟩]⟩,
   ⟨0x121004, [(0x10, 4)], .plain, false, [⟨23, 0, .ro, 0⟩]⟩,
   ⟨0x121008, [(0x10, 4)], .plain, false, [⟨23, 0, .ro, 0⟩]⟩,
   ⟨0x122000, [(0x10, 8)], .plain, false, [⟨23, 16, .ro, 0⟩, ⟨9, 9, .ro, 0⟩, ⟨8, 8, .ro, 0⟩, ⟨7, 6, .ro, 0⟩, ⟨5, 4, .ro, 0⟩, ⟨2, 0, .ro, 0⟩]⟩,
   ⟨0x122004, [(0x10, 8)], .plain, false, [⟨31, 0, .ro, 0⟩]⟩,
   ⟨0x123000, [(0x10, 4)], .plain, false, [⟨31, 24, .ro, 0⟩, ⟨9, 8, .ro, 0⟩, ⟨7, 3, .ro, 0⟩, ⟨2, 0, .ro, 0⟩]⟩]

/-! ### EM block, 0x130000 to 0x13ffff -/

/-- EM_STATUS.STOP (Input status). -/
def Reg.emStatusStop (n : Nat) : Fld := ⟨0x130000 + min n 8 * 0x100, 5, 1⟩

/-- EM_STATUS.GATE (Input status). -/
def Reg.emStatusGate (n : Nat) : Fld := ⟨0x130000 + min n 8 * 0x100, 4, 1⟩

/-- EM_STATUS.RING (Input status). -/
def Reg.emStatusRing (n : Nat) : Fld := ⟨0x130000 + min n 8 * 0x100, 3, 1⟩

/-- EM_STATUS.CAL_OK (Input status). -/
def Reg.emStatusCalOk (n : Nat) : Fld := ⟨0x130000 + min n 8 * 0x100, 2, 1⟩

/-- EM_STATUS.AWAKE (Input status). -/
def Reg.emStatusAwake (n : Nat) : Fld := ⟨0x130000 + min n 8 * 0x100, 1, 1⟩

/-- EM_STATUS.EN (Input status). -/
def Reg.emStatusEn (n : Nat) : Fld := ⟨0x130000 + min n 8 * 0x100, 0, 1⟩

/-- EM_MISSED: the 64-bit pair (Missed edges). -/
def Reg.emMissed (n : Nat) : Nat := 0x130008 + min n 8 * 0x100

/-- EM_FQ_FREQ: the 64-bit pair (Frequency). -/
def Reg.emFqFreq (n : Nat) : Nat := 0x130060 + min n 8 * 0x100

/-- EM_F_CTRL.OCC (FIFO control). -/
def Reg.emFCtrlOcc (n : Nat) : Fld := ⟨0x130010 + min n 8 * 0x100, 16, 13⟩

/-- EM_F_CTRL.THRESH (FIFO control). -/
def Reg.emFCtrlThresh (n : Nat) : Fld := ⟨0x130010 + min n 8 * 0x100, 0, 13⟩

/-- EM_F_W0.WORD (FIFO head entry, bytes 0–3 to 12–15). -/
def Reg.emFW0 (n : Nat) : Fld := ⟨0x130020 + min n 8 * 0x100, 0, 32⟩

/-- EM_F_W1.WORD (FIFO head entry, bytes 0–3 to 12–15). -/
def Reg.emFW1 (n : Nat) : Fld := ⟨0x130024 + min n 8 * 0x100, 0, 32⟩

/-- EM_F_W2.WORD (FIFO head entry, bytes 0–3 to 12–15). -/
def Reg.emFW2 (n : Nat) : Fld := ⟨0x130028 + min n 8 * 0x100, 0, 32⟩

/-- EM_F_W3.WORD (FIFO head entry, bytes 0–3 to 12–15). -/
def Reg.emFW3 (n : Nat) : Fld := ⟨0x13002c + min n 8 * 0x100, 0, 32⟩

/-- EM_F_POP.N (FIFO pop (W32)). -/
def Reg.emFPopN (n : Nat) : Fld := ⟨0x130030 + min n 8 * 0x100, 0, 13⟩

/-- EM_LOST.VALUE (Discarded stamps). -/
def Reg.emLost (n : Nat) : Fld := ⟨0x130034 + min n 8 * 0x100, 0, 32⟩

/-- EM_IU_UNPAIRED.VALUE (Unpaired items of IUu). -/
def Reg.emIuUnpaired (n : Nat) : Fld := ⟨0x130800 + min n 4 * 0x4, 0, 32⟩

/-- EM_FQ_SIGMA.VALUE (Fractional deviation of the last gate). -/
def Reg.emFqSigma (n : Nat) : Fld := ⟨0x13006c + min n 8 * 0x100, 0, 32⟩

/-- EM_FQ_INFO.INVALID (Last gate). -/
def Reg.emFqInfoInvalid (n : Nat) : Fld := ⟨0x130068 + min n 8 * 0x100, 31, 1⟩

/-- EM_FQ_INFO.N (Last gate). -/
def Reg.emFqInfoN (n : Nat) : Fld := ⟨0x130068 + min n 8 * 0x100, 0, 24⟩

/-- EM_R_BASE: the 64-bit pair (Ring base). -/
def Reg.emRBase (n : Nat) : Nat := 0x130040 + min n 8 * 0x100

/-- EM_R_CFG.CFG_ERR (Ring configuration). -/
def Reg.emRCfgCfgErr (n : Nat) : Fld := ⟨0x130048 + min n 8 * 0x100, 31, 1⟩

/-- EM_R_CFG.LOG2SZ (Ring configuration). -/
def Reg.emRCfgLog2sz (n : Nat) : Fld := ⟨0x130048 + min n 8 * 0x100, 8, 5⟩

/-- EM_R_CFG.EN (Ring configuration). -/
def Reg.emRCfgEn (n : Nat) : Fld := ⟨0x130048 + min n 8 * 0x100, 0, 1⟩

/-- EM_R_PROD.PHASE (Ring producer). -/
def Reg.emRProdPhase (n : Nat) : Fld := ⟨0x13004c + min n 8 * 0x100, 16, 1⟩

/-- EM_R_PROD.INDEX (Ring producer). -/
def Reg.emRProdIndex (n : Nat) : Fld := ⟨0x13004c + min n 8 * 0x100, 0, 16⟩

/-- EM_R_CONS.INDEX (Ring consumer (W32)). -/
def Reg.emRConsIndex (n : Nat) : Fld := ⟨0x130050 + min n 8 * 0x100, 0, 16⟩

/-- The registers of the EM block. -/
def regsEm : List RegDesc :=
  [⟨0x130000, [(0x100, 8)], .plain, false, [⟨5, 5, .ro, 0⟩, ⟨4, 4, .ro, 0⟩, ⟨3, 3, .ro, 0⟩, ⟨2, 2, .ro, 0⟩, ⟨1, 1, .ro, 0⟩, ⟨0, 0, .ro, 0⟩]⟩,
   ⟨0x130008, [(0x100, 8)], .latchLo, false, [⟨31, 0, .ro, 0⟩]⟩,
   ⟨0x13000c, [(0x100, 8)], .latchHi, false, [⟨31, 0, .ro, 0⟩]⟩,
   ⟨0x130060, [(0x100, 8)], .latchLo, false, [⟨31, 0, .ro, 0⟩]⟩,
   ⟨0x130064, [(0x100, 8)], .latchHi, false, [⟨31, 0, .ro, 0⟩]⟩,
   ⟨0x130010, [(0x100, 8)], .plain, false, [⟨28, 16, .ro, 0⟩, ⟨12, 0, .rw, 1024⟩]⟩,
   ⟨0x130020, [(0x100, 8)], .plain, false, [⟨31, 0, .ro, 0⟩]⟩,
   ⟨0x130024, [(0x100, 8)], .plain, false, [⟨31, 0, .ro, 0⟩]⟩,
   ⟨0x130028, [(0x100, 8)], .plain, false, [⟨31, 0, .ro, 0⟩]⟩,
   ⟨0x13002c, [(0x100, 8)], .plain, false, [⟨31, 0, .ro, 0⟩]⟩,
   ⟨0x130030, [(0x100, 8)], .plain, true, [⟨12, 0, .wo, 0⟩]⟩,
   ⟨0x130034, [(0x100, 8)], .plain, false, [⟨31, 0, .ro, 0⟩]⟩,
   ⟨0x130800, [(0x4, 4)], .plain, false, [⟨31, 0, .ro, 0⟩]⟩,
   ⟨0x13006c, [(0x100, 8)], .plain, false, [⟨31, 0, .ro, 0⟩]⟩,
   ⟨0x130068, [(0x100, 8)], .plain, false, [⟨31, 31, .ro, 0⟩, ⟨23, 0, .ro, 0⟩]⟩,
   ⟨0x130040, [(0x100, 8)], .plain, false, [⟨31, 0, .ro, 0⟩]⟩,
   ⟨0x130044, [(0x100, 8)], .plain, false, [⟨31, 0, .ro, 0⟩]⟩,
   ⟨0x130048, [(0x100, 8)], .plain, false, [⟨31, 31, .ro, 0⟩, ⟨12, 8, .ro, 0⟩, ⟨0, 0, .ro, 0⟩]⟩,
   ⟨0x13004c, [(0x100, 8)], .plain, false, [⟨16, 16, .ro, 1⟩, ⟨15, 0, .ro, 0⟩]⟩,
   ⟨0x130050, [(0x100, 8)], .plain, true, [⟨15, 0, .rw, 0⟩]⟩]

/-! ### GN block, 0x140000 to 0x14ffff -/

/-- GN_STATUS.CHANNELS (Baseband status). -/
def Reg.gnStatusChannels : Fld := ⟨0x140000, 24, 7⟩

/-- GN_STATUS.LOAD (Baseband status). -/
def Reg.gnStatusLoad : Fld := ⟨0x140000, 3, 1⟩

/-- GN_STATUS.GNB_OK (Baseband status). -/
def Reg.gnStatusGnbOk : Fld := ⟨0x140000, 2, 1⟩

/-- GN_STATUS.GNA_OK (Baseband status). -/
def Reg.gnStatusGnaOk : Fld := ⟨0x140000, 1, 1⟩

/-- GN_STATUS.AWAKE (Baseband status). -/
def Reg.gnStatusAwake : Fld := ⟨0x140000, 0, 1⟩

/-- GN_PORT.CLK_OFF (Sample port). -/
def Reg.gnPortClkOff (n : Nat) : Fld := ⟨0x140010 + min n 2 * 0x4, 16, 16⟩

/-- GN_PORT.MAG_PCT (Sample port). -/
def Reg.gnPortMagPct (n : Nat) : Fld := ⟨0x140010 + min n 2 * 0x4, 8, 7⟩

/-- GN_PORT.INV (Sample port). -/
def Reg.gnPortInv (n : Nat) : Fld := ⟨0x140010 + min n 2 * 0x4, 1, 1⟩

/-- GN_PORT.OK (Sample port). -/
def Reg.gnPortOk (n : Nat) : Fld := ⟨0x140010 + min n 2 * 0x4, 0, 1⟩

/-- GN_SOL_STATUS.SATS (Solution status). -/
def Reg.gnSolStatusSats (n : Nat) : Fld := ⟨0x140100 + min n 2 * 0x100, 24, 8⟩

/-- GN_SOL_STATUS.SYSTEMS (Solution status). -/
def Reg.gnSolStatusSystems (n : Nat) : Fld := ⟨0x140100 + min n 2 * 0x100, 20, 4⟩

/-- GN_SOL_STATUS.ACC_K (Solution status). -/
def Reg.gnSolStatusAccK (n : Nat) : Fld := ⟨0x140100 + min n 2 * 0x100, 11, 5⟩

/-- GN_SOL_STATUS.SF (Solution status). -/
def Reg.gnSolStatusSf (n : Nat) : Fld := ⟨0x140100 + min n 2 * 0x100, 10, 1⟩

/-- GN_SOL_STATUS.SPOOF (Solution status). -/
def Reg.gnSolStatusSpoof (n : Nat) : Fld := ⟨0x140100 + min n 2 * 0x100, 9, 1⟩

/-- GN_SOL_STATUS.HOLD (Solution status). -/
def Reg.gnSolStatusHold (n : Nat) : Fld := ⟨0x140100 + min n 2 * 0x100, 8, 1⟩

/-- GN_SOL_STATUS.CAUSE (Solution status). -/
def Reg.gnSolStatusCause (n : Nat) : Fld := ⟨0x140100 + min n 2 * 0x100, 4, 4⟩

/-- GN_SOL_STATUS.STATE (Solution status). -/
def Reg.gnSolStatusState (n : Nat) : Fld := ⟨0x140100 + min n 2 * 0x100, 0, 3⟩

/-- GN_SOL_SIGMA.SIGMA (Solution deviation). -/
def Reg.gnSolSigma (n : Nat) : Fld := ⟨0x140104 + min n 2 * 0x100, 0, 32⟩

/-- The registers of the GN block. -/
def regsGn : List RegDesc :=
  [⟨0x140000, [], .plain, false, [⟨30, 24, .ro, 0⟩, ⟨3, 3, .ro, 0⟩, ⟨2, 2, .ro, 0⟩, ⟨1, 1, .ro, 0⟩, ⟨0, 0, .ro, 0⟩]⟩,
   ⟨0x140010, [(0x4, 2)], .plain, false, [⟨31, 16, .ro, 0⟩, ⟨14, 8, .ro, 0⟩, ⟨1, 1, .ro, 0⟩, ⟨0, 0, .ro, 0⟩]⟩,
   ⟨0x140100, [(0x100, 2)], .plain, false, [⟨31, 24, .ro, 0⟩, ⟨23, 20, .ro, 0⟩, ⟨15, 11, .ro, 31⟩, ⟨10, 10, .ro, 0⟩, ⟨9, 9, .ro, 0⟩, ⟨8, 8, .ro, 0⟩, ⟨7, 4, .ro, 0⟩, ⟨2, 0, .ro, 0⟩]⟩,
   ⟨0x140104, [(0x100, 2)], .plain, false, [⟨31, 0, .ro, 0⟩]⟩]

/-! ### TT block, 0x150000 to 0x15ffff -/

/-- TT_ENGINE_STATUS.TX_RATE (Engine status). -/
def Reg.ttEngineStatusTxRate : Fld := ⟨0x150000, 16, 16⟩

/-- TT_ENGINE_STATUS.ENABLED (Engine status). -/
def Reg.ttEngineStatusEnabled : Fld := ⟨0x150000, 0, 9⟩

/-- TT_ENGINE_LOAD.RX_RATE (Receive load). -/
def Reg.ttEngineLoadRxRate : Fld := ⟨0x15000c, 0, 17⟩

/-- TT_TC_CFG.DOM_EN (Transparent clock). -/
def Reg.ttTcCfgDomEn : Fld := ⟨0x150004, 12, 4⟩

/-- TT_TC_CFG.ALL_DOM (Transparent clock). -/
def Reg.ttTcCfgAllDom : Fld := ⟨0x150004, 4, 1⟩

/-- TT_TC_CFG.MODE (Transparent clock). -/
def Reg.ttTcCfgMode : Fld := ⟨0x150004, 0, 2⟩

/-- TT_TC_DOM.DOM (Transparent-clock domains). -/
def Reg.ttTcDom : Fld := ⟨0x150008, 0, 32⟩

/-- TT_REC_BASE: the 64-bit pair (Record ring base). -/
def Reg.ttRecBase : Nat := 0x150010

/-- TT_REC_CFG.CFG_ERR (Record ring configuration). -/
def Reg.ttRecCfgCfgErr : Fld := ⟨0x150018, 31, 1⟩

/-- TT_REC_CFG.LOG2SZ (Record ring configuration). -/
def Reg.ttRecCfgLog2sz : Fld := ⟨0x150018, 8, 5⟩

/-- TT_REC_CFG.EN (Record ring configuration). -/
def Reg.ttRecCfgEn : Fld := ⟨0x150018, 0, 1⟩

/-- TT_REC_PROD.PHASE (Record producer). -/
def Reg.ttRecProdPhase : Fld := ⟨0x15001c, 16, 1⟩

/-- TT_REC_PROD.INDEX (Record producer). -/
def Reg.ttRecProdIndex : Fld := ⟨0x15001c, 0, 16⟩

/-- TT_REC_CONS.INDEX (Record consumer (W32)). -/
def Reg.ttRecConsIndex : Fld := ⟨0x150020, 0, 16⟩

/-- TT_REC_IRQ.HOLDOFF (Record interrupt moderation). -/
def Reg.ttRecIrqHoldoff : Fld := ⟨0x150024, 16, 16⟩

/-- TT_REC_IRQ.THRESH (Record interrupt moderation). -/
def Reg.ttRecIrqThresh : Fld := ⟨0x150024, 0, 16⟩

/-- TT_LINK_CFG.ORG_ID (Link mode identifier (W32)). -/
def Reg.ttLinkCfgOrgId : Fld := ⟨0x150030, 0, 24⟩

/-- TT_S_STATE.REPORTS (Session s state). -/
def Reg.ttSStateReports (n : Nat) : Fld := ⟨0x151000 + min n 256 * 0x10, 16, 16⟩

/-- TT_S_STATE.P2P_OK (Session s state). -/
def Reg.ttSStateP2pOk (n : Nat) : Fld := ⟨0x151000 + min n 256 * 0x10, 3, 1⟩

/-- TT_S_STATE.STATE (Session s state). -/
def Reg.ttSStateState (n : Nat) : Fld := ⟨0x151000 + min n 256 * 0x10, 0, 2⟩

/-- TT_S_TXCNT.COUNT (Event messages transmitted). -/
def Reg.ttSTxcnt (n : Nat) : Fld := ⟨0x151004 + min n 256 * 0x10, 0, 32⟩

/-- TT_S_RXCNT.COUNT (Event messages accepted). -/
def Reg.ttSRxcnt (n : Nat) : Fld := ⟨0x151008 + min n 256 * 0x10, 0, 32⟩

/-- TT_S_DROP.COUNT (Event messages discarded (R243, R244)). -/
def Reg.ttSDrop (n : Nat) : Fld := ⟨0x15100c + min n 256 * 0x10, 0, 32⟩

/-- The registers of the TT block. -/
def regsTt : List RegDesc :=
  [⟨0x150000, [], .plain, false, [⟨31, 16, .ro, 0⟩, ⟨8, 0, .ro, 0⟩]⟩,
   ⟨0x15000c, [], .plain, false, [⟨16, 0, .ro, 0⟩]⟩,
   ⟨0x150004, [], .plain, false, [⟨15, 12, .rw, 0⟩, ⟨4, 4, .rw, 0⟩, ⟨1, 0, .rw, 0⟩]⟩,
   ⟨0x150008, [], .plain, false, [⟨31, 0, .rw, 0⟩]⟩,
   ⟨0x150010, [], .pairLo, false, [⟨31, 0, .rw, 0⟩]⟩,
   ⟨0x150014, [], .pairHi, false, [⟨31, 0, .rw, 0⟩]⟩,
   ⟨0x150018, [], .plain, false, [⟨31, 31, .ro, 0⟩, ⟨12, 8, .rw, 0⟩, ⟨0, 0, .rw, 0⟩]⟩,
   ⟨0x15001c, [], .plain, false, [⟨16, 16, .ro, 1⟩, ⟨15, 0, .ro, 0⟩]⟩,
   ⟨0x150020, [], .plain, true, [⟨15, 0, .rw, 0⟩]⟩,
   ⟨0x150024, [], .plain, false, [⟨31, 16, .rw, 1000⟩, ⟨15, 0, .rw, 64⟩]⟩,
   ⟨0x150030, [], .plain, true, [⟨23, 0, .rw, 0⟩]⟩,
   ⟨0x151000, [(0x10, 256)], .plain, false, [⟨31, 16, .ro, 0⟩, ⟨3, 3, .ro, 0⟩, ⟨1, 0, .ro, 0⟩]⟩,
   ⟨0x151004, [(0x10, 256)], .plain, false, [⟨31, 0, .ro, 0⟩]⟩,
   ⟨0x151008, [(0x10, 256)], .plain, false, [⟨31, 0, .ro, 0⟩]⟩,
   ⟨0x15100c, [(0x10, 256)], .plain, false, [⟨31, 0, .ro, 0⟩]⟩]

/-! ### PTS block, 0x200000 to 0x20bfff -/

/-- PTS_CFG.UPD_EN (Stamp selection). -/
def Reg.ptsCfgUpdEn (n : Nat) : Fld := ⟨0x200000 + min n 48 * 0x400, 9, 1⟩

/-- PTS_CFG.DP_FIFO (Stamp selection). -/
def Reg.ptsCfgDpFifo (n : Nat) : Fld := ⟨0x200000 + min n 48 * 0x400, 8, 1⟩

/-- PTS_CFG.TX_SEL (Stamp selection). -/
def Reg.ptsCfgTxSel (n : Nat) : Fld := ⟨0x200000 + min n 48 * 0x400, 4, 2⟩

/-- PTS_CFG.RX_SEL (Stamp selection). -/
def Reg.ptsCfgRxSel (n : Nat) : Fld := ⟨0x200000 + min n 48 * 0x400, 0, 2⟩

/-- PTS_STATUS.LAT_SEQ (Stamp status). -/
def Reg.ptsStatusLatSeq (n : Nat) : Fld := ⟨0x200004 + min n 48 * 0x400, 16, 16⟩

/-- PTS_STATUS.MODE (Stamp status). -/
def Reg.ptsStatusMode (n : Nat) : Fld := ⟨0x200004 + min n 48 * 0x400, 12, 4⟩

/-- PTS_STATUS.RECAL_DUE (Stamp status). -/
def Reg.ptsStatusRecalDue (n : Nat) : Fld := ⟨0x200004 + min n 48 * 0x400, 8, 1⟩

/-- PTS_STATUS.CAUSE (Stamp status). -/
def Reg.ptsStatusCause (n : Nat) : Fld := ⟨0x200004 + min n 48 * 0x400, 2, 3⟩

/-- PTS_STATUS.TX_VALID (Stamp status). -/
def Reg.ptsStatusTxValid (n : Nat) : Fld := ⟨0x200004 + min n 48 * 0x400, 1, 1⟩

/-- PTS_STATUS.RX_VALID (Stamp status). -/
def Reg.ptsStatusRxValid (n : Nat) : Fld := ⟨0x200004 + min n 48 * 0x400, 0, 1⟩

/-- PTS_LAT_RX.VALID (Receive latency report). -/
def Reg.ptsLatRxValid (n : Nat) : Fld := ⟨0x200010 + min n 48 * 0x400, 31, 1⟩

/-- PTS_LAT_RX.FILL (Receive latency report). -/
def Reg.ptsLatRxFill (n : Nat) : Fld := ⟨0x200010 + min n 48 * 0x400, 16, 4⟩

/-- PTS_LAT_RX.CDR (Receive latency report). -/
def Reg.ptsLatRxCdr (n : Nat) : Fld := ⟨0x200010 + min n 48 * 0x400, 8, 6⟩

/-- PTS_LAT_RX.SLIP (Receive latency report). -/
def Reg.ptsLatRxSlip (n : Nat) : Fld := ⟨0x200010 + min n 48 * 0x400, 0, 6⟩

/-- PTS_LAT_TX.VALID (Transmit latency report). -/
def Reg.ptsLatTxValid (n : Nat) : Fld := ⟨0x200014 + min n 48 * 0x400, 31, 1⟩

/-- PTS_LAT_TX.FILL (Transmit latency report). -/
def Reg.ptsLatTxFill (n : Nat) : Fld := ⟨0x200014 + min n 48 * 0x400, 16, 4⟩

/-- PTS_LAT_TX.SLIP (Transmit latency report). -/
def Reg.ptsLatTxSlip (n : Nat) : Fld := ⟨0x200014 + min n 48 * 0x400, 0, 6⟩

/-- PTS_LAT_TIME: the 64-bit pair (Latest report). -/
def Reg.ptsLatTime (n : Nat) : Nat := 0x200018 + min n 48 * 0x400

/-- PTS_A_RX.VALUE (Receive latency constant). -/
def Reg.ptsARx (n : Nat) : Fld := ⟨0x200020 + min n 48 * 0x400, 0, 32⟩

/-- PTS_A_TX.VALUE (Transmit latency constant). -/
def Reg.ptsATx (n : Nat) : Fld := ⟨0x200024 + min n 48 * 0x400, 0, 32⟩

/-- PTS_RXF_W0.WORD (RX FIFO head entry, bytes 0–3 to 12–15). -/
def Reg.ptsRxfW0 (n : Nat) : Fld := ⟨0x200040 + min n 48 * 0x400, 0, 32⟩

/-- PTS_RXF_W1.WORD (RX FIFO head entry, bytes 0–3 to 12–15). -/
def Reg.ptsRxfW1 (n : Nat) : Fld := ⟨0x200044 + min n 48 * 0x400, 0, 32⟩

/-- PTS_RXF_W2.WORD (RX FIFO head entry, bytes 0–3 to 12–15). -/
def Reg.ptsRxfW2 (n : Nat) : Fld := ⟨0x200048 + min n 48 * 0x400, 0, 32⟩

/-- PTS_RXF_W3.WORD (RX FIFO head entry, bytes 0–3 to 12–15). -/
def Reg.ptsRxfW3 (n : Nat) : Fld := ⟨0x20004c + min n 48 * 0x400, 0, 32⟩

/-- PTS_TXF_W0.WORD (TX FIFO head entry, bytes 0–3 to 12–15). -/
def Reg.ptsTxfW0 (n : Nat) : Fld := ⟨0x200060 + min n 48 * 0x400, 0, 32⟩

/-- PTS_TXF_W1.WORD (TX FIFO head entry, bytes 0–3 to 12–15). -/
def Reg.ptsTxfW1 (n : Nat) : Fld := ⟨0x200064 + min n 48 * 0x400, 0, 32⟩

/-- PTS_TXF_W2.WORD (TX FIFO head entry, bytes 0–3 to 12–15). -/
def Reg.ptsTxfW2 (n : Nat) : Fld := ⟨0x200068 + min n 48 * 0x400, 0, 32⟩

/-- PTS_TXF_W3.WORD (TX FIFO head entry, bytes 0–3 to 12–15). -/
def Reg.ptsTxfW3 (n : Nat) : Fld := ⟨0x20006c + min n 48 * 0x400, 0, 32⟩

/-- PTS_RXF_CTRL.OCC (RX FIFO control). -/
def Reg.ptsRxfCtrlOcc (n : Nat) : Fld := ⟨0x200050 + min n 48 * 0x400, 16, 9⟩

/-- PTS_RXF_CTRL.THRESH (RX FIFO control). -/
def Reg.ptsRxfCtrlThresh (n : Nat) : Fld := ⟨0x200050 + min n 48 * 0x400, 0, 9⟩

/-- PTS_TXF_CTRL.OCC (TX FIFO control). -/
def Reg.ptsTxfCtrlOcc (n : Nat) : Fld := ⟨0x200070 + min n 48 * 0x400, 16, 9⟩

/-- PTS_TXF_CTRL.THRESH (TX FIFO control). -/
def Reg.ptsTxfCtrlThresh (n : Nat) : Fld := ⟨0x200070 + min n 48 * 0x400, 0, 9⟩

/-- PTS_RXF_POP.N (RX FIFO pop (W32)). -/
def Reg.ptsRxfPopN (n : Nat) : Fld := ⟨0x200054 + min n 48 * 0x400, 0, 9⟩

/-- PTS_TXF_POP.N (TX FIFO pop (W32)). -/
def Reg.ptsTxfPopN (n : Nat) : Fld := ⟨0x200074 + min n 48 * 0x400, 0, 9⟩

/-- PTS_LOST.TX (Discarded stamps). -/
def Reg.ptsLostTx (n : Nat) : Fld := ⟨0x200080 + min n 48 * 0x400, 16, 16⟩

/-- PTS_LOST.RX (Discarded stamps). -/
def Reg.ptsLostRx (n : Nat) : Fld := ⟨0x200080 + min n 48 * 0x400, 0, 16⟩

/-- PTS_PRED_ERR.COUNT (Prediction errors). -/
def Reg.ptsPredErr (n : Nat) : Fld := ⟨0x200084 + min n 48 * 0x400, 0, 32⟩

/-- PTS_CORR_RX: the 64-bit pair (RX_CORR of mode m). -/
def Reg.ptsCorrRx (n : Nat) (m : Nat) : Nat := 0x200100 + min n 48 * 0x400 + min m 4 * 0x10

/-- PTS_CORR_TX: the 64-bit pair (TX_CORR of mode m). -/
def Reg.ptsCorrTx (n : Nat) (m : Nat) : Nat := 0x200108 + min n 48 * 0x400 + min m 4 * 0x10

/-- The registers of the PTS block. -/
def regsPts : List RegDesc :=
  [⟨0x200000, [(0x400, 48)], .plain, false, [⟨9, 9, .rw, 1⟩, ⟨8, 8, .rw, 0⟩, ⟨5, 4, .rw, 1⟩, ⟨1, 0, .rw, 1⟩]⟩,
   ⟨0x200004, [(0x400, 48)], .plain, false, [⟨31, 16, .ro, 0⟩, ⟨15, 12, .ro, 0⟩, ⟨8, 8, .ro, 0⟩, ⟨4, 2, .ro, 4⟩, ⟨1, 1, .ro, 0⟩, ⟨0, 0, .ro, 0⟩]⟩,
   ⟨0x200010, [(0x400, 48)], .plain, false, [⟨31, 31, .ro, 0⟩, ⟨19, 16, .ro, 0⟩, ⟨13, 8, .ro, 0⟩, ⟨5, 0, .ro, 0⟩]⟩,
   ⟨0x200014, [(0x400, 48)], .plain, false, [⟨31, 31, .ro, 0⟩, ⟨19, 16, .ro, 0⟩, ⟨5, 0, .ro, 0⟩]⟩,
   ⟨0x200018, [(0x400, 48)], .latchLo, false, [⟨31, 0, .ro, 0⟩]⟩,
   ⟨0x20001c, [(0x400, 48)], .latchHi, false, [⟨31, 0, .ro, 0⟩]⟩,
   ⟨0x200020, [(0x400, 48)], .plain, false, [⟨31, 0, .ro, 0⟩]⟩,
   ⟨0x200024, [(0x400, 48)], .plain, false, [⟨31, 0, .ro, 0⟩]⟩,
   ⟨0x200040, [(0x400, 48)], .plain, false, [⟨31, 0, .ro, 0⟩]⟩,
   ⟨0x200044, [(0x400, 48)], .plain, false, [⟨31, 0, .ro, 0⟩]⟩,
   ⟨0x200048, [(0x400, 48)], .plain, false, [⟨31, 0, .ro, 0⟩]⟩,
   ⟨0x20004c, [(0x400, 48)], .plain, false, [⟨31, 0, .ro, 0⟩]⟩,
   ⟨0x200060, [(0x400, 48)], .plain, false, [⟨31, 0, .ro, 0⟩]⟩,
   ⟨0x200064, [(0x400, 48)], .plain, false, [⟨31, 0, .ro, 0⟩]⟩,
   ⟨0x200068, [(0x400, 48)], .plain, false, [⟨31, 0, .ro, 0⟩]⟩,
   ⟨0x20006c, [(0x400, 48)], .plain, false, [⟨31, 0, .ro, 0⟩]⟩,
   ⟨0x200050, [(0x400, 48)], .plain, false, [⟨24, 16, .ro, 0⟩, ⟨8, 0, .rw, 64⟩]⟩,
   ⟨0x200070, [(0x400, 48)], .plain, false, [⟨24, 16, .ro, 0⟩, ⟨8, 0, .rw, 64⟩]⟩,
   ⟨0x200054, [(0x400, 48)], .plain, true, [⟨8, 0, .wo, 0⟩]⟩,
   ⟨0x200074, [(0x400, 48)], .plain, true, [⟨8, 0, .wo, 0⟩]⟩,
   ⟨0x200080, [(0x400, 48)], .plain, false, [⟨31, 16, .ro, 0⟩, ⟨15, 0, .ro, 0⟩]⟩,
   ⟨0x200084, [(0x400, 48)], .plain, false, [⟨31, 0, .ro, 0⟩]⟩,
   ⟨0x200100, [(0x400, 48), (0x10, 4)], .latchLo, false, [⟨31, 0, .ro, 0⟩]⟩,
   ⟨0x200104, [(0x400, 48), (0x10, 4)], .latchHi, false, [⟨31, 0, .ro, 0⟩]⟩,
   ⟨0x200108, [(0x400, 48), (0x10, 4)], .latchLo, false, [⟨31, 0, .ro, 0⟩]⟩,
   ⟨0x20010c, [(0x400, 48), (0x10, 4)], .latchHi, false, [⟨31, 0, .ro, 0⟩]⟩]

/-! ### SDS block, 0x300000 to 0x319fff -/

/-- SDS_STATUS.RELOCKS (Lane status). -/
def Reg.sdsStatusRelocks (n : Nat) : Fld := ⟨0x300000 + min n 52 * 0x800, 24, 8⟩

/-- SDS_STATUS.FEC (Lane status). -/
def Reg.sdsStatusFec (n : Nat) : Fld := ⟨0x300000 + min n 52 * 0x800, 12, 2⟩

/-- SDS_STATUS.MODE (Lane status). -/
def Reg.sdsStatusMode (n : Nat) : Fld := ⟨0x300000 + min n 52 * 0x800, 8, 4⟩

/-- SDS_STATUS.TRIM_BUSY (Lane status). -/
def Reg.sdsStatusTrimBusy (n : Nat) : Fld := ⟨0x300000 + min n 52 * 0x800, 7, 1⟩

/-- SDS_STATUS.SCAN (Lane status). -/
def Reg.sdsStatusScan (n : Nat) : Fld := ⟨0x300000 + min n 52 * 0x800, 6, 1⟩

/-- SDS_STATUS.PRBS_LOCK (Lane status). -/
def Reg.sdsStatusPrbsLock (n : Nat) : Fld := ⟨0x300000 + min n 52 * 0x800, 5, 1⟩

/-- SDS_STATUS.PRBS_RX (Lane status). -/
def Reg.sdsStatusPrbsRx (n : Nat) : Fld := ⟨0x300000 + min n 52 * 0x800, 4, 1⟩

/-- SDS_STATUS.PRBS_TX (Lane status). -/
def Reg.sdsStatusPrbsTx (n : Nat) : Fld := ⟨0x300000 + min n 52 * 0x800, 3, 1⟩

/-- SDS_STATUS.TX_ON (Lane status). -/
def Reg.sdsStatusTxOn (n : Nat) : Fld := ⟨0x300000 + min n 52 * 0x800, 2, 1⟩

/-- SDS_STATUS.RX_LOCK (Lane status). -/
def Reg.sdsStatusRxLock (n : Nat) : Fld := ⟨0x300000 + min n 52 * 0x800, 1, 1⟩

/-- SDS_STATUS.LINK (Lane status). -/
def Reg.sdsStatusLink (n : Nat) : Fld := ⟨0x300000 + min n 52 * 0x800, 0, 1⟩

/-- SDS_FIR.POST (Current FIR). -/
def Reg.sdsFirPost (n : Nat) : Fld := ⟨0x300004 + min n 52 * 0x800, 16, 5⟩

/-- SDS_FIR.MAIN (Current FIR). -/
def Reg.sdsFirMain (n : Nat) : Fld := ⟨0x300004 + min n 52 * 0x800, 8, 6⟩

/-- SDS_FIR.PRE (Current FIR). -/
def Reg.sdsFirPre (n : Nat) : Fld := ⟨0x300004 + min n 52 * 0x800, 0, 4⟩

/-- SDS_CTLE.PEAK_USED (Current CTLE). -/
def Reg.sdsCtlePeakUsed (n : Nat) : Fld := ⟨0x300008 + min n 52 * 0x800, 12, 4⟩

/-- SDS_CTLE.AUTO (Current CTLE). -/
def Reg.sdsCtleAuto (n : Nat) : Fld := ⟨0x300008 + min n 52 * 0x800, 8, 1⟩

/-- SDS_CTLE.GAIN (Current CTLE). -/
def Reg.sdsCtleGain (n : Nat) : Fld := ⟨0x300008 + min n 52 * 0x800, 4, 3⟩

/-- SDS_CTLE.PEAK (Current CTLE). -/
def Reg.sdsCtlePeak (n : Nat) : Fld := ⟨0x300008 + min n 52 * 0x800, 0, 4⟩

/-- SDS_TRIM.WORDS (Trim). -/
def Reg.sdsTrimWords (n : Nat) : Fld := ⟨0x300010 + min n 52 * 0x800, 28, 4⟩

/-- SDS_TRIM.PI_POS (Trim). -/
def Reg.sdsTrimPiPos (n : Nat) : Fld := ⟨0x300010 + min n 52 * 0x800, 13, 13⟩

/-- SDS_TRIM.PI_TGT (Trim). -/
def Reg.sdsTrimPiTgt (n : Nat) : Fld := ⟨0x300010 + min n 52 * 0x800, 0, 13⟩

/-- SDS_PRBS_CTRL.RATE (Pattern settings). -/
def Reg.sdsPrbsCtrlRate (n : Nat) : Fld := ⟨0x300020 + min n 52 * 0x800, 24, 8⟩

/-- SDS_PRBS_CTRL.INJ (Pattern settings). -/
def Reg.sdsPrbsCtrlInj (n : Nat) : Fld := ⟨0x300020 + min n 52 * 0x800, 16, 2⟩

/-- SDS_PRBS_CTRL.TRAFFIC (Pattern settings). -/
def Reg.sdsPrbsCtrlTraffic (n : Nat) : Fld := ⟨0x300020 + min n 52 * 0x800, 15, 1⟩

/-- SDS_PRBS_CTRL.RX_INV (Pattern settings). -/
def Reg.sdsPrbsCtrlRxInv (n : Nat) : Fld := ⟨0x300020 + min n 52 * 0x800, 8, 1⟩

/-- SDS_PRBS_CTRL.TX_INV (Pattern settings). -/
def Reg.sdsPrbsCtrlTxInv (n : Nat) : Fld := ⟨0x300020 + min n 52 * 0x800, 7, 1⟩

/-- SDS_PRBS_CTRL.RX_PAT (Pattern settings). -/
def Reg.sdsPrbsCtrlRxPat (n : Nat) : Fld := ⟨0x300020 + min n 52 * 0x800, 4, 3⟩

/-- SDS_PRBS_CTRL.TX_PAT (Pattern settings). -/
def Reg.sdsPrbsCtrlTxPat (n : Nat) : Fld := ⟨0x300020 + min n 52 * 0x800, 0, 3⟩

/-- SDS_PRBS_ERR: the 64-bit pair (Checker errors). -/
def Reg.sdsPrbsErr (n : Nat) : Nat := 0x300028 + min n 52 * 0x800

/-- SDS_PRBS_BITS: the 64-bit pair (Checker bits). -/
def Reg.sdsPrbsBits (n : Nat) : Nat := 0x300030 + min n 52 * 0x800

/-- The registers of the SDS block. -/
def regsSds : List RegDesc :=
  [⟨0x300000, [(0x800, 52)], .plain, false, [⟨31, 24, .ro, 0⟩, ⟨13, 12, .ro, 0⟩, ⟨11, 8, .ro, 0⟩, ⟨7, 7, .ro, 0⟩, ⟨6, 6, .ro, 0⟩, ⟨5, 5, .ro, 0⟩, ⟨4, 4, .ro, 0⟩, ⟨3, 3, .ro, 0⟩, ⟨2, 2, .ro, 0⟩, ⟨1, 1, .ro, 0⟩, ⟨0, 0, .ro, 0⟩]⟩,
   ⟨0x300004, [(0x800, 52)], .plain, false, [⟨20, 16, .ro, 0⟩, ⟨13, 8, .ro, 0⟩, ⟨3, 0, .ro, 0⟩]⟩,
   ⟨0x300008, [(0x800, 52)], .plain, false, [⟨15, 12, .ro, 0⟩, ⟨8, 8, .ro, 0⟩, ⟨6, 4, .ro, 0⟩, ⟨3, 0, .ro, 0⟩]⟩,
   ⟨0x300010, [(0x800, 52)], .plain, false, [⟨31, 28, .ro, 0⟩, ⟨25, 13, .ro, 0⟩, ⟨12, 0, .ro, 0⟩]⟩,
   ⟨0x300020, [(0x800, 52)], .plain, false, [⟨31, 24, .ro, 0⟩, ⟨17, 16, .ro, 0⟩, ⟨15, 15, .ro, 0⟩, ⟨8, 8, .ro, 0⟩, ⟨7, 7, .ro, 0⟩, ⟨6, 4, .ro, 0⟩, ⟨2, 0, .ro, 0⟩]⟩,
   ⟨0x300028, [(0x800, 52)], .latchLo, false, [⟨31, 0, .ro, 0⟩]⟩,
   ⟨0x30002c, [(0x800, 52)], .latchHi, false, [⟨31, 0, .ro, 0⟩]⟩,
   ⟨0x300030, [(0x800, 52)], .latchLo, false, [⟨31, 0, .ro, 0⟩]⟩,
   ⟨0x300034, [(0x800, 52)], .latchHi, false, [⟨31, 0, .ro, 0⟩]⟩]

/-! ### SW block, 0x400000 to 0x4fffff -/

/-- SW_PORT_STATUS.PVID (Forwarding state of source n, 0 to 48). -/
def Reg.swPortStatusPvid (n : Nat) : Fld := ⟨0x400000 + min n 49 * 0x10, 20, 12⟩

/-- SW_PORT_STATUS.ACCEPT (Forwarding state of source n, 0 to 48). -/
def Reg.swPortStatusAccept (n : Nat) : Fld := ⟨0x400000 + min n 49 * 0x10, 14, 2⟩

/-- SW_PORT_STATUS.LAG (Forwarding state of source n, 0 to 48). -/
def Reg.swPortStatusLag (n : Nat) : Fld := ⟨0x400000 + min n 49 * 0x10, 7, 1⟩

/-- SW_PORT_STATUS.L3 (Forwarding state of source n, 0 to 48). -/
def Reg.swPortStatusL3 (n : Nat) : Fld := ⟨0x400000 + min n 49 * 0x10, 6, 1⟩

/-- SW_PORT_STATUS.PTP_TRAP (Forwarding state of source n, 0 to 48). -/
def Reg.swPortStatusPtpTrap (n : Nat) : Fld := ⟨0x400000 + min n 49 * 0x10, 5, 1⟩

/-- SW_PORT_STATUS.CT (Forwarding state of source n, 0 to 48). -/
def Reg.swPortStatusCt (n : Nat) : Fld := ⟨0x400000 + min n 49 * 0x10, 4, 1⟩

/-- SW_PORT_STATUS.DP_TX (Forwarding state of source n, 0 to 48). -/
def Reg.swPortStatusDpTx (n : Nat) : Fld := ⟨0x400000 + min n 49 * 0x10, 3, 1⟩

/-- SW_PORT_STATUS.DP_RX (Forwarding state of source n, 0 to 48). -/
def Reg.swPortStatusDpRx (n : Nat) : Fld := ⟨0x400000 + min n 49 * 0x10, 2, 1⟩

/-- SW_PORT_STATUS.L23_TX (Forwarding state of source n, 0 to 48). -/
def Reg.swPortStatusL23Tx (n : Nat) : Fld := ⟨0x400000 + min n 49 * 0x10, 1, 1⟩

/-- SW_PORT_STATUS.L23_RX (Forwarding state of source n, 0 to 48). -/
def Reg.swPortStatusL23Rx (n : Nat) : Fld := ⟨0x400000 + min n 49 * 0x10, 0, 1⟩

/-- SW_TRAP_MAP.FWD (Trap reason map). -/
def Reg.swTrapMapFwd : Fld := ⟨0x400800, 28, 4⟩

/-- SW_TRAP_MAP.MAP (Trap reason map). -/
def Reg.swTrapMapMap : Fld := ⟨0x400800, 0, 28⟩

/-- SW_DP_STATUS.SLIPS (Connection i). -/
def Reg.swDpStatusSlips (n : Nat) : Fld := ⟨0x401000 + min n 48 * 0x10, 24, 8⟩

/-- SW_DP_STATUS.FILL (Connection i). -/
def Reg.swDpStatusFill (n : Nat) : Fld := ⟨0x401000 + min n 48 * 0x10, 4, 4⟩

/-- SW_DP_STATUS.MODE (Connection i). -/
def Reg.swDpStatusMode (n : Nat) : Fld := ⟨0x401000 + min n 48 * 0x10, 2, 1⟩

/-- SW_DP_STATUS.IN_LOCK (Connection i). -/
def Reg.swDpStatusInLock (n : Nat) : Fld := ⟨0x401000 + min n 48 * 0x10, 1, 1⟩

/-- SW_DP_STATUS.CONN (Connection i). -/
def Reg.swDpStatusConn (n : Nat) : Fld := ⟨0x401000 + min n 48 * 0x10, 0, 1⟩

/-- SW_DP_OUT0.LANES (Outputs of connection i, lanes 0–31). -/
def Reg.swDpOut0 (n : Nat) : Fld := ⟨0x401004 + min n 48 * 0x10, 0, 32⟩

/-- SW_DP_OUT1.LANES (Outputs of connection i, lanes 32–47). -/
def Reg.swDpOut1 (n : Nat) : Fld := ⟨0x401008 + min n 48 * 0x10, 0, 32⟩

/-- SW_HTX_BASE: the 64-bit pair (Host transmit ring base). -/
def Reg.swHtxBase : Nat := 0x402000

/-- SW_HTX_CFG.CFG_ERR (Host transmit ring configuration). -/
def Reg.swHtxCfgCfgErr : Fld := ⟨0x402008, 31, 1⟩

/-- SW_HTX_CFG.LOG2SZ (Host transmit ring configuration). -/
def Reg.swHtxCfgLog2sz : Fld := ⟨0x402008, 8, 5⟩

/-- SW_HTX_CFG.EN (Host transmit ring configuration). -/
def Reg.swHtxCfgEn : Fld := ⟨0x402008, 0, 1⟩

/-- SW_HTX_TAIL.INDEX (Host transmit doorbell (W32)). -/
def Reg.swHtxTailIndex : Fld := ⟨0x40200c, 0, 16⟩

/-- SW_HTX_HEAD.INDEX (Host transmit head). -/
def Reg.swHtxHeadIndex : Fld := ⟨0x402010, 0, 16⟩

/-- The registers of the SW block. -/
def regsSw : List RegDesc :=
  [⟨0x400000, [(0x10, 49)], .plain, false, [⟨31, 20, .ro, 1⟩, ⟨15, 14, .ro, 0⟩, ⟨7, 7, .ro, 0⟩, ⟨6, 6, .ro, 0⟩, ⟨5, 5, .ro, 0⟩, ⟨4, 4, .ro, 0⟩, ⟨3, 3, .ro, 0⟩, ⟨2, 2, .ro, 0⟩, ⟨1, 1, .ro, 0⟩, ⟨0, 0, .ro, 0⟩]⟩,
   ⟨0x400800, [], .plain, false, [⟨31, 28, .rw, 8⟩, ⟨27, 0, .rw, 0x8888888⟩]⟩,
   ⟨0x401000, [(0x10, 48)], .plain, false, [⟨31, 24, .ro, 0⟩, ⟨7, 4, .ro, 0⟩, ⟨2, 2, .ro, 0⟩, ⟨1, 1, .ro, 0⟩, ⟨0, 0, .ro, 0⟩]⟩,
   ⟨0x401004, [(0x10, 48)], .plain, false, [⟨31, 0, .ro, 0⟩]⟩,
   ⟨0x401008, [(0x10, 48)], .plain, false, [⟨31, 0, .ro, 0⟩]⟩,
   ⟨0x402000, [], .pairLo, false, [⟨31, 0, .rw, 0⟩]⟩,
   ⟨0x402004, [], .pairHi, false, [⟨31, 0, .rw, 0⟩]⟩,
   ⟨0x402008, [], .plain, false, [⟨31, 31, .ro, 0⟩, ⟨12, 8, .rw, 0⟩, ⟨0, 0, .rw, 0⟩]⟩,
   ⟨0x40200c, [], .plain, true, [⟨15, 0, .rw, 0⟩]⟩,
   ⟨0x402010, [], .plain, false, [⟨15, 0, .ro, 0⟩]⟩]

/-! ### FT block, 0x500000 to 0x5fffff -/

/-- FT_STATUS.WALKER (Table status). -/
def Reg.ftStatusWalker : Fld := ⟨0x500000, 30, 2⟩

/-- FT_STATUS.TAIL_OCC (Table status). -/
def Reg.ftStatusTailOcc : Fld := ⟨0x500000, 16, 7⟩

/-- FT_STATUS.STASH_OCC (Table status). -/
def Reg.ftStatusStashOcc : Fld := ⟨0x500000, 0, 9⟩

/-- FT_OCC_B0.COUNT (Bank 0 occupancy). -/
def Reg.ftOccB0 : Fld := ⟨0x500004, 0, 32⟩

/-- FT_OCC_B1.COUNT (Bank 1 occupancy). -/
def Reg.ftOccB1 : Fld := ⟨0x500008, 0, 32⟩

/-- FT_ROUTE_OCC.COUNT (Route units used). -/
def Reg.ftRouteOcc : Fld := ⟨0x50000c, 0, 32⟩

/-- FT_NH_OCC.COUNT (Next hops valid). -/
def Reg.ftNhOcc : Fld := ⟨0x500010, 0, 32⟩

/-- FT_AGE_STATUS.EN (Aging). -/
def Reg.ftAgeStatusEn : Fld := ⟨0x500014, 31, 1⟩

/-- FT_AGE_STATUS.NOTIFY (Aging). -/
def Reg.ftAgeStatusNotify : Fld := ⟨0x500014, 30, 1⟩

/-- FT_AGE_STATUS.PERIOD_S (Aging). -/
def Reg.ftAgeStatusPeriodS : Fld := ⟨0x500014, 0, 12⟩

/-- FT_LRN_STATUS.STATIC_MOVE (Learning). -/
def Reg.ftLrnStatusStaticMove : Fld := ⟨0x500018, 24, 1⟩

/-- FT_LRN_STATUS.MOVE (Learning). -/
def Reg.ftLrnStatusMove : Fld := ⟨0x500018, 23, 1⟩

/-- FT_LRN_STATUS.RATE (Learning). -/
def Reg.ftLrnStatusRate : Fld := ⟨0x500018, 0, 23⟩

/-- FT_LRN_COAL.COALESCE_US (Coalescing). -/
def Reg.ftLrnCoalCoalesceUs : Fld := ⟨0x50001c, 0, 16⟩

/-- FT_LRN_DROP: the 64-bit pair (Discarded notifications). -/
def Reg.ftLrnDrop : Nat := 0x500020

/-- FT_LRN_BASE: the 64-bit pair (Learn ring base). -/
def Reg.ftLrnBase : Nat := 0x500100

/-- FT_LRN_CFG.CFG_ERR (Learn ring configuration). -/
def Reg.ftLrnCfgCfgErr : Fld := ⟨0x500108, 31, 1⟩

/-- FT_LRN_CFG.LOG2SZ (Learn ring configuration). -/
def Reg.ftLrnCfgLog2sz : Fld := ⟨0x500108, 8, 5⟩

/-- FT_LRN_CFG.EN (Learn ring configuration). -/
def Reg.ftLrnCfgEn : Fld := ⟨0x500108, 0, 1⟩

/-- FT_LRN_PROD.PHASE (Learn ring producer). -/
def Reg.ftLrnProdPhase : Fld := ⟨0x50010c, 16, 1⟩

/-- FT_LRN_PROD.INDEX (Learn ring producer). -/
def Reg.ftLrnProdIndex : Fld := ⟨0x50010c, 0, 16⟩

/-- FT_LRN_CONS.INDEX (Learn ring consumer (W32)). -/
def Reg.ftLrnConsIndex : Fld := ⟨0x500110, 0, 16⟩

/-- FT_LRN_IRQ.HOLDOFF (Learn ring interrupt moderation). -/
def Reg.ftLrnIrqHoldoff : Fld := ⟨0x500114, 16, 16⟩

/-- FT_LRN_IRQ.THRESH (Learn ring interrupt moderation). -/
def Reg.ftLrnIrqThresh : Fld := ⟨0x500114, 0, 16⟩

/-- The registers of the FT block. -/
def regsFt : List RegDesc :=
  [⟨0x500000, [], .plain, false, [⟨31, 30, .ro, 0⟩, ⟨22, 16, .ro, 0⟩, ⟨8, 0, .ro, 0⟩]⟩,
   ⟨0x500004, [], .plain, false, [⟨31, 0, .ro, 0⟩]⟩,
   ⟨0x500008, [], .plain, false, [⟨31, 0, .ro, 0⟩]⟩,
   ⟨0x50000c, [], .plain, false, [⟨31, 0, .ro, 0⟩]⟩,
   ⟨0x500010, [], .plain, false, [⟨31, 0, .ro, 0⟩]⟩,
   ⟨0x500014, [], .plain, false, [⟨31, 31, .ro, 0⟩, ⟨30, 30, .ro, 0⟩, ⟨11, 0, .ro, 300⟩]⟩,
   ⟨0x500018, [], .plain, false, [⟨24, 24, .ro, 0⟩, ⟨23, 23, .ro, 1⟩, ⟨22, 0, .ro, 0xf4240⟩]⟩,
   ⟨0x50001c, [], .plain, false, [⟨15, 0, .ro, 1000⟩]⟩,
   ⟨0x500020, [], .latchLo, false, [⟨31, 0, .ro, 0⟩]⟩,
   ⟨0x500024, [], .latchHi, false, [⟨31, 0, .ro, 0⟩]⟩,
   ⟨0x500100, [], .pairLo, false, [⟨31, 0, .rw, 0⟩]⟩,
   ⟨0x500104, [], .pairHi, false, [⟨31, 0, .rw, 0⟩]⟩,
   ⟨0x500108, [], .plain, false, [⟨31, 31, .ro, 0⟩, ⟨12, 8, .rw, 0⟩, ⟨0, 0, .rw, 0⟩]⟩,
   ⟨0x50010c, [], .plain, false, [⟨16, 16, .ro, 1⟩, ⟨15, 0, .ro, 0⟩]⟩,
   ⟨0x500110, [], .plain, true, [⟨15, 0, .rw, 0⟩]⟩,
   ⟨0x500114, [], .plain, false, [⟨31, 16, .rw, 100⟩, ⟨15, 0, .rw, 64⟩]⟩]

/-! ### BF block, 0x600000 to 0x6fffff -/

/-- BF_POOL_FREE.F (Shared free cells). -/
def Reg.bfPoolFreeF : Fld := ⟨0x600000, 0, 19⟩

/-- BF_POOL_RES.STAGE (Pool partition). -/
def Reg.bfPoolResStage : Fld := ⟨0x600004, 31, 1⟩

/-- BF_POOL_RES.ECN_EN (Pool partition). -/
def Reg.bfPoolResEcnEn : Fld := ⟨0x600004, 30, 1⟩

/-- BF_POOL_RES.MIN_SUM (Pool partition). -/
def Reg.bfPoolResMinSum : Fld := ⟨0x600004, 0, 17⟩

/-- BF_QUAR.DDR (Quarantined cells). -/
def Reg.bfQuarDdr : Fld := ⟨0x600008, 16, 16⟩

/-- BF_QUAR.CHIP (Quarantined cells). -/
def Reg.bfQuarChip : Fld := ⟨0x600008, 0, 16⟩

/-- BF_RETIRED.COUNT (Retired DDR5 cells). -/
def Reg.bfRetired : Fld := ⟨0x60000c, 0, 32⟩

/-- BF_SPILL_STATUS.WR (Spill engine). -/
def Reg.bfSpillStatusWr : Fld := ⟨0x600100, 22, 10⟩

/-- BF_SPILL_STATUS.RD (Spill engine). -/
def Reg.bfSpillStatusRd : Fld := ⟨0x600100, 12, 10⟩

/-- BF_SPILL_STATUS.DRAINING (Spill engine). -/
def Reg.bfSpillStatusDraining : Fld := ⟨0x600100, 3, 1⟩

/-- BF_SPILL_STATUS.STAGE_FULL (Spill engine). -/
def Reg.bfSpillStatusStageFull : Fld := ⟨0x600100, 2, 1⟩

/-- BF_SPILL_STATUS.CH_EN (Spill engine). -/
def Reg.bfSpillStatusChEn : Fld := ⟨0x600100, 0, 2⟩

/-- BF_SPILL_CAP: the 64-bit pair (DDR5 cells). -/
def Reg.bfSpillCap : Nat := 0x600108

/-- BF_SPILL_USED: the 64-bit pair (DDR5 cells in use). -/
def Reg.bfSpillUsed : Nat := 0x600110

/-- BF_Q_STATUS.SPILLING (Queue state). -/
def Reg.bfQStatusSpilling (n : Nat) : Fld := ⟨0x601000 + min n 416 * 0x20, 31, 1⟩

/-- BF_Q_STATUS.MARKING (Queue state). -/
def Reg.bfQStatusMarking (n : Nat) : Fld := ⟨0x601000 + min n 416 * 0x20, 30, 1⟩

/-- BF_Q_STATUS.OCC (Queue state). -/
def Reg.bfQStatusOcc (n : Nat) : Fld := ⟨0x601000 + min n 416 * 0x20, 0, 18⟩

/-- BF_Q_CFG.WEIGHT (Queue settings). -/
def Reg.bfQCfgWeight (n : Nat) : Fld := ⟨0x601004 + min n 416 * 0x20, 24, 8⟩

/-- BF_Q_CFG.PCP_MASK (Queue settings). -/
def Reg.bfQCfgPcpMask (n : Nat) : Fld := ⟨0x601004 + min n 416 * 0x20, 16, 8⟩

/-- BF_Q_CFG.ALPHA (Queue settings). -/
def Reg.bfQCfgAlpha (n : Nat) : Fld := ⟨0x601004 + min n 416 * 0x20, 12, 4⟩

/-- BF_Q_CFG.MIN (Queue settings). -/
def Reg.bfQCfgMin (n : Nat) : Fld := ⟨0x601004 + min n 416 * 0x20, 0, 12⟩

/-- BF_Q_LIM.MODE (Cap and mode). -/
def Reg.bfQLimMode (n : Nat) : Fld := ⟨0x601008 + min n 416 * 0x20, 31, 1⟩

/-- BF_Q_LIM.MAX (Cap and mode). -/
def Reg.bfQLimMax (n : Nat) : Fld := ⟨0x601008 + min n 416 * 0x20, 0, 18⟩

/-- BF_Q_ECN.ECN_AT (Marking depth). -/
def Reg.bfQEcnEcnAt (n : Nat) : Fld := ⟨0x60100c + min n 416 * 0x20, 0, 24⟩

/-- BF_Q_SPILL.SPILL_MAX (Spill limit). -/
def Reg.bfQSpillSpillMax (n : Nat) : Fld := ⟨0x601010 + min n 416 * 0x20, 0, 16⟩

/-- BF_Q_DOCC.VALUE (Spilled cells). -/
def Reg.bfQDocc (n : Nat) : Fld := ⟨0x601014 + min n 416 * 0x20, 0, 32⟩

/-- BF_SHP_RATE.VALUE (Shaper rate). -/
def Reg.bfShpRate (k : Nat) : Fld := ⟨0x608000 + min k 459 * 0x10, 0, 32⟩

/-- BF_SHP_BURST.VALUE (Shaper burst). -/
def Reg.bfShpBurst (k : Nat) : Fld := ⟨0x608004 + min k 459 * 0x10, 0, 32⟩

/-- The registers of the BF block. -/
def regsBf : List RegDesc :=
  [⟨0x600000, [], .plain, false, [⟨18, 0, .ro, 0x3dee0⟩]⟩,
   ⟨0x600004, [], .plain, false, [⟨31, 31, .ro, 0⟩, ⟨30, 30, .ro, 1⟩, ⟨16, 0, .ro, 6432⟩]⟩,
   ⟨0x600008, [], .plain, false, [⟨31, 16, .ro, 0⟩, ⟨15, 0, .ro, 0⟩]⟩,
   ⟨0x60000c, [], .plain, false, [⟨31, 0, .ro, 0⟩]⟩,
   ⟨0x600100, [], .plain, false, [⟨31, 22, .ro, 0⟩, ⟨21, 12, .ro, 0⟩, ⟨3, 3, .ro, 0⟩, ⟨2, 2, .ro, 0⟩, ⟨1, 0, .ro, 0⟩]⟩,
   ⟨0x600108, [], .latchLo, false, [⟨31, 0, .ro, 0⟩]⟩,
   ⟨0x60010c, [], .latchHi, false, [⟨31, 0, .ro, 0⟩]⟩,
   ⟨0x600110, [], .latchLo, false, [⟨31, 0, .ro, 0⟩]⟩,
   ⟨0x600114, [], .latchHi, false, [⟨31, 0, .ro, 0⟩]⟩,
   ⟨0x601000, [(0x20, 416)], .plain, false, [⟨31, 31, .ro, 0⟩, ⟨30, 30, .ro, 0⟩, ⟨17, 0, .ro, 0⟩]⟩,
   ⟨0x601004, [(0x20, 416)], .plain, false, [⟨31, 24, .ro, 1⟩, ⟨23, 16, .ro, 0⟩, ⟨15, 12, .ro, 7⟩, ⟨11, 0, .ro, 16⟩]⟩,
   ⟨0x601008, [(0x20, 416)], .plain, false, [⟨31, 31, .ro, 0⟩, ⟨17, 0, .ro, 0⟩]⟩,
   ⟨0x60100c, [(0x20, 416)], .plain, false, [⟨23, 0, .ro, 0⟩]⟩,
   ⟨0x601010, [(0x20, 416)], .plain, false, [⟨15, 0, .ro, 0⟩]⟩,
   ⟨0x601014, [(0x20, 416)], .plain, false, [⟨31, 0, .ro, 0⟩]⟩,
   ⟨0x608000, [(0x10, 459)], .plain, false, [⟨31, 0, .ro, 0⟩]⟩,
   ⟨0x608004, [(0x10, 459)], .plain, false, [⟨31, 0, .ro, 0⟩]⟩]

/-! ### FM block, 0x700000 to 0x70ffff -/

/-- FM_G_STATUS.HELD (Group state). -/
def Reg.fmGStatusHeld (n : Nat) : Fld := ⟨0x700000 + min n 16 * 0x40, 16, 16⟩

/-- FM_G_STATUS.LATE_HELD (Group state). -/
def Reg.fmGStatusLateHeld (n : Nat) : Fld := ⟨0x700000 + min n 16 * 0x40, 4, 1⟩

/-- FM_G_STATUS.EG_DOWN (Group state). -/
def Reg.fmGStatusEgDown (n : Nat) : Fld := ⟨0x700000 + min n 16 * 0x40, 3, 1⟩

/-- FM_G_STATUS.SHORT (Group state). -/
def Reg.fmGStatusShort (n : Nat) : Fld := ⟨0x700000 + min n 16 * 0x40, 2, 1⟩

/-- FM_G_STATUS.STATE (Group state). -/
def Reg.fmGStatusState (n : Nat) : Fld := ⟨0x700000 + min n 16 * 0x40, 0, 2⟩

/-- FM_G_CFG.EVIDENCE (Group settings). -/
def Reg.fmGCfgEvidence (n : Nat) : Fld := ⟨0x700004 + min n 16 * 0x40, 31, 1⟩

/-- FM_G_CFG.TRAILER (Group settings). -/
def Reg.fmGCfgTrailer (n : Nat) : Fld := ⟨0x700004 + min n 16 * 0x40, 30, 1⟩

/-- FM_G_CFG.EGRESS (Group settings). -/
def Reg.fmGCfgEgress (n : Nat) : Fld := ⟨0x700004 + min n 16 * 0x40, 24, 6⟩

/-- FM_G_CFG.SHORT_PCT (Group settings). -/
def Reg.fmGCfgShortPct (n : Nat) : Fld := ⟨0x700004 + min n 16 * 0x40, 16, 7⟩

/-- FM_G_CFG.WINDOW (Group settings). -/
def Reg.fmGCfgWindow (n : Nat) : Fld := ⟨0x700004 + min n 16 * 0x40, 0, 14⟩

/-- FM_G_MEMB0.PORTS (Members, ports 0–31). -/
def Reg.fmGMemb0 (n : Nat) : Fld := ⟨0x700008 + min n 16 * 0x40, 0, 32⟩

/-- FM_G_MEMB1.PORTS (Members, ports 32–47). -/
def Reg.fmGMemb1 (n : Nat) : Fld := ⟨0x70000c + min n 16 * 0x40, 0, 32⟩

/-- FM_G_OCC.VALUE (Cells in use). -/
def Reg.fmGOcc (n : Nat) : Fld := ⟨0x700010 + min n 16 * 0x40, 0, 32⟩

/-- FM_G_PEAK.VALUE (Peak cells since enable). -/
def Reg.fmGPeak (n : Nat) : Fld := ⟨0x700014 + min n 16 * 0x40, 0, 32⟩

/-- FM_G_SEQ.VALUE (Next sequence number). -/
def Reg.fmGSeq (n : Nat) : Fld := ⟨0x700018 + min n 16 * 0x40, 0, 32⟩

/-- FM_G_HOLD_MIN.VALUE (Smallest hold). -/
def Reg.fmGHoldMin (n : Nat) : Fld := ⟨0x70001c + min n 16 * 0x40, 0, 32⟩

/-- FM_TRIM.PS (Ingress lead trim of port p). -/
def Reg.fmTrim (n : Nat) : Fld := ⟨0x700800 + min n 48 * 0x4, 0, 32⟩

/-- FM_PART_FREE.GRANULES (Unassigned granules). -/
def Reg.fmPartFreeGranules : Fld := ⟨0x700c00, 0, 9⟩

/-- FM_PART_MG.GRANULES (Granules of merge group g). -/
def Reg.fmPartMgGranules (n : Nat) : Fld := ⟨0x700c40 + min n 16 * 0x4, 0, 9⟩

/-- FM_PART_RG.GRANULES (Granules of release group r). -/
def Reg.fmPartRgGranules (n : Nat) : Fld := ⟨0x700d00 + min n 64 * 0x4, 0, 9⟩

/-- The registers of the FM block. -/
def regsFm : List RegDesc :=
  [⟨0x700000, [(0x40, 16)], .plain, false, [⟨31, 16, .ro, 0⟩, ⟨4, 4, .ro, 0⟩, ⟨3, 3, .ro, 0⟩, ⟨2, 2, .ro, 0⟩, ⟨1, 0, .ro, 0⟩]⟩,
   ⟨0x700004, [(0x40, 16)], .plain, false, [⟨31, 31, .ro, 0⟩, ⟨30, 30, .ro, 0⟩, ⟨29, 24, .ro, 0⟩, ⟨22, 16, .ro, 75⟩, ⟨13, 0, .ro, 500⟩]⟩,
   ⟨0x700008, [(0x40, 16)], .plain, false, [⟨31, 0, .ro, 0⟩]⟩,
   ⟨0x70000c, [(0x40, 16)], .plain, false, [⟨31, 0, .ro, 0⟩]⟩,
   ⟨0x700010, [(0x40, 16)], .plain, false, [⟨31, 0, .ro, 0⟩]⟩,
   ⟨0x700014, [(0x40, 16)], .plain, false, [⟨31, 0, .ro, 0⟩]⟩,
   ⟨0x700018, [(0x40, 16)], .plain, false, [⟨31, 0, .ro, 0⟩]⟩,
   ⟨0x70001c, [(0x40, 16)], .plain, false, [⟨31, 0, .ro, 0xffffffff⟩]⟩,
   ⟨0x700800, [(0x4, 48)], .plain, false, [⟨31, 0, .ro, 0⟩]⟩,
   ⟨0x700c00, [], .plain, false, [⟨8, 0, .ro, 256⟩]⟩,
   ⟨0x700c40, [(0x4, 16)], .plain, false, [⟨8, 0, .ro, 0⟩]⟩,
   ⟨0x700d00, [(0x4, 64)], .plain, false, [⟨8, 0, .ro, 0⟩]⟩]

/-! ### ER block, 0x710000 to 0x71ffff -/

/-- ER_G_STATUS.HELD (Group state). -/
def Reg.erGStatusHeld (n : Nat) : Fld := ⟨0x710000 + min n 64 * 0x40, 16, 16⟩

/-- ER_G_STATUS.MODE (Group state). -/
def Reg.erGStatusMode (n : Nat) : Fld := ⟨0x710000 + min n 64 * 0x40, 2, 2⟩

/-- ER_G_STATUS.STATE (Group state). -/
def Reg.erGStatusState (n : Nat) : Fld := ⟨0x710000 + min n 64 * 0x40, 0, 2⟩

/-- ER_G_CFG.RING (Group settings). -/
def Reg.erGCfgRing (n : Nat) : Fld := ⟨0x710004 + min n 64 * 0x40, 24, 3⟩

/-- ER_G_CFG.REC (Group settings). -/
def Reg.erGCfgRec (n : Nat) : Fld := ⟨0x710004 + min n 64 * 0x40, 20, 1⟩

/-- ER_G_CFG.EVIDENCE (Group settings). -/
def Reg.erGCfgEvidence (n : Nat) : Fld := ⟨0x710004 + min n 64 * 0x40, 19, 1⟩

/-- ER_G_CFG.LATE_SEND (Group settings). -/
def Reg.erGCfgLateSend (n : Nat) : Fld := ⟨0x710004 + min n 64 * 0x40, 18, 1⟩

/-- ER_G_CFG.DOWN_FAILS (Group settings). -/
def Reg.erGCfgDownFails (n : Nat) : Fld := ⟨0x710004 + min n 64 * 0x40, 17, 1⟩

/-- ER_G_CFG.AON (Group settings). -/
def Reg.erGCfgAon (n : Nat) : Fld := ⟨0x710004 + min n 64 * 0x40, 16, 1⟩

/-- ER_G_CFG.DELAY (Group settings). -/
def Reg.erGCfgDelay (n : Nat) : Fld := ⟨0x710004 + min n 64 * 0x40, 0, 16⟩

/-- ER_G_IN0.PORTS (Inputs, ports 0–31). -/
def Reg.erGIn0 (n : Nat) : Fld := ⟨0x710008 + min n 64 * 0x40, 0, 32⟩

/-- ER_G_IN1.PORTS (Inputs, ports 32–47). -/
def Reg.erGIn1 (n : Nat) : Fld := ⟨0x71000c + min n 64 * 0x40, 0, 32⟩

/-- ER_G_MEMB0.PORTS (Members, ports 0–31). -/
def Reg.erGMemb0 (n : Nat) : Fld := ⟨0x710010 + min n 64 * 0x40, 0, 32⟩

/-- ER_G_MEMB1.PORTS (Members, ports 32–47). -/
def Reg.erGMemb1 (n : Nat) : Fld := ⟨0x710014 + min n 64 * 0x40, 0, 32⟩

/-- ER_G_OCC.VALUE (Cells in use). -/
def Reg.erGOcc (n : Nat) : Fld := ⟨0x710018 + min n 64 * 0x40, 0, 32⟩

/-- ER_G_PEAK.VALUE (Peak cells since enable). -/
def Reg.erGPeak (n : Nat) : Fld := ⟨0x71001c + min n 64 * 0x40, 0, 32⟩

/-- ER_G_FSEQ.VALUE (Next frame sequence number). -/
def Reg.erGFseq (n : Nat) : Fld := ⟨0x710020 + min n 64 * 0x40, 0, 32⟩

/-- ER_TRIM.PS (Release lead trim of port p). -/
def Reg.erTrim (n : Nat) : Fld := ⟨0x711000 + min n 48 * 0x4, 0, 32⟩

/-- ER_PORT_ALIGN.ALIGNED (Release alignment of port p). -/
def Reg.erPortAlignAligned (n : Nat) : Fld := ⟨0x711100 + min n 48 * 0x4, 31, 1⟩

/-- ER_PORT_ALIGN.CAUSE (Release alignment of port p). -/
def Reg.erPortAlignCause (n : Nat) : Fld := ⟨0x711100 + min n 48 * 0x4, 28, 3⟩

/-- ER_PORT_ALIGN.WORD_OFF (Release alignment of port p). -/
def Reg.erPortAlignWordOff (n : Nat) : Fld := ⟨0x711100 + min n 48 * 0x4, 16, 1⟩

/-- ER_PORT_ALIGN.REL_PART (Release alignment of port p). -/
def Reg.erPortAlignRelPart (n : Nat) : Fld := ⟨0x711100 + min n 48 * 0x4, 0, 12⟩

/-- The registers of the ER block. -/
def regsEr : List RegDesc :=
  [⟨0x710000, [(0x40, 64)], .plain, false, [⟨31, 16, .ro, 0⟩, ⟨3, 2, .ro, 0⟩, ⟨1, 0, .ro, 0⟩]⟩,
   ⟨0x710004, [(0x40, 64)], .plain, false, [⟨26, 24, .ro, 0⟩, ⟨20, 20, .ro, 0⟩, ⟨19, 19, .ro, 0⟩, ⟨18, 18, .ro, 0⟩, ⟨17, 17, .ro, 0⟩, ⟨16, 16, .ro, 0⟩, ⟨15, 0, .ro, 0⟩]⟩,
   ⟨0x710008, [(0x40, 64)], .plain, false, [⟨31, 0, .ro, 0⟩]⟩,
   ⟨0x71000c, [(0x40, 64)], .plain, false, [⟨31, 0, .ro, 0⟩]⟩,
   ⟨0x710010, [(0x40, 64)], .plain, false, [⟨31, 0, .ro, 0⟩]⟩,
   ⟨0x710014, [(0x40, 64)], .plain, false, [⟨31, 0, .ro, 0⟩]⟩,
   ⟨0x710018, [(0x40, 64)], .plain, false, [⟨31, 0, .ro, 0⟩]⟩,
   ⟨0x71001c, [(0x40, 64)], .plain, false, [⟨31, 0, .ro, 0⟩]⟩,
   ⟨0x710020, [(0x40, 64)], .plain, false, [⟨31, 0, .ro, 0⟩]⟩,
   ⟨0x711000, [(0x4, 48)], .plain, false, [⟨31, 0, .ro, 0⟩]⟩,
   ⟨0x711100, [(0x4, 48)], .plain, false, [⟨31, 31, .ro, 0⟩, ⟨30, 28, .ro, 0⟩, ⟨16, 16, .ro, 0⟩, ⟨11, 0, .ro, 0⟩]⟩]

/-! ### EVD block, 0x800000 to 0x80ffff -/

/-- EVD_STATUS.PERIOD_US (Evidence status). -/
def Reg.evdStatusPeriodUs : Fld := ⟨0x800000, 0, 20⟩

/-- EVD_EPOCH: the 64-bit pair (Epoch). -/
def Reg.evdEpoch : Nat := 0x800008

/-- EVD_BLOCK: the 64-bit pair (Open block). -/
def Reg.evdBlock : Nat := 0x800010

/-- EVD_RING_LOST: the 64-bit pair (Slots not written). -/
def Reg.evdRingLost : Nat := 0x800018

/-- EVD_R_CFG.LOG2SZ (Evidence ring configuration). -/
def Reg.evdRCfgLog2sz : Fld := ⟨0x800020, 8, 5⟩

/-- EVD_R_CFG.EN (Evidence ring configuration). -/
def Reg.evdRCfgEn : Fld := ⟨0x800020, 0, 1⟩

/-- EVD_R_PROD.INDEX (Evidence ring producer). -/
def Reg.evdRProdIndex : Fld := ⟨0x800024, 0, 22⟩

/-- EVD_R_CONS.INDEX (Evidence ring consumer (W32)). -/
def Reg.evdRConsIndex : Fld := ⟨0x800028, 0, 22⟩

/-- The registers of the EVD block. -/
def regsEvd : List RegDesc :=
  [⟨0x800000, [], .plain, false, [⟨19, 0, .ro, 1000⟩]⟩,
   ⟨0x800008, [], .latchLo, false, [⟨31, 0, .ro, 0⟩]⟩,
   ⟨0x80000c, [], .latchHi, false, [⟨31, 0, .ro, 0⟩]⟩,
   ⟨0x800010, [], .latchLo, false, [⟨31, 0, .ro, 0⟩]⟩,
   ⟨0x800014, [], .latchHi, false, [⟨31, 0, .ro, 0⟩]⟩,
   ⟨0x800018, [], .latchLo, false, [⟨31, 0, .ro, 0⟩]⟩,
   ⟨0x80001c, [], .latchHi, false, [⟨31, 0, .ro, 0⟩]⟩,
   ⟨0x800020, [], .plain, false, [⟨12, 8, .ro, 0⟩, ⟨0, 0, .ro, 0⟩]⟩,
   ⟨0x800024, [], .plain, false, [⟨21, 0, .ro, 0⟩]⟩,
   ⟨0x800028, [], .plain, true, [⟨21, 0, .rw, 0⟩]⟩]

/-! ### CAP block, 0x810000 to 0x81ffff -/

/-- CAP_NR_CFG.LOG2SZ (Net ring n configuration). -/
def Reg.capNrCfgLog2sz (n : Nat) : Fld := ⟨0x810000 + min n 8 * 0x40, 8, 5⟩

/-- CAP_NR_CFG.EN (Net ring n configuration). -/
def Reg.capNrCfgEn (n : Nat) : Fld := ⟨0x810000 + min n 8 * 0x40, 0, 1⟩

/-- CAP_NR_PROD.PHASE (Net ring n producer). -/
def Reg.capNrProdPhase (n : Nat) : Fld := ⟨0x810004 + min n 8 * 0x40, 20, 1⟩

/-- CAP_NR_PROD.INDEX (Net ring n producer). -/
def Reg.capNrProdIndex (n : Nat) : Fld := ⟨0x810004 + min n 8 * 0x40, 0, 20⟩

/-- CAP_NR_CONS.INDEX (Net ring n consumer). -/
def Reg.capNrConsIndex (n : Nat) : Fld := ⟨0x810008 + min n 8 * 0x40, 0, 20⟩

/-- CAP_NR_DROP.COUNT (Net ring n discards). -/
def Reg.capNrDrop (n : Nat) : Fld := ⟨0x81000c + min n 8 * 0x40, 0, 32⟩

/-- The registers of the CAP block. -/
def regsCap : List RegDesc :=
  [⟨0x810000, [(0x40, 8)], .plain, false, [⟨12, 8, .ro, 0⟩, ⟨0, 0, .ro, 0⟩]⟩,
   ⟨0x810004, [(0x40, 8)], .plain, false, [⟨20, 20, .ro, 1⟩, ⟨19, 0, .ro, 0⟩]⟩,
   ⟨0x810008, [(0x40, 8)], .plain, false, [⟨19, 0, .ro, 0⟩]⟩,
   ⟨0x81000c, [(0x40, 8)], .plain, false, [⟨31, 0, .ro, 0⟩]⟩]

/-! ### CT block, 0x900000 to 0x9fffff -/

/-- CT_OVF.OVF (Overflow bits, w from 0 to 767). -/
def Reg.ctOvf (n : Nat) : Fld := ⟨0x930000 + min n 768 * 0x4, 0, 32⟩

/-- CT_BW_LONG.TICKS (Long window). -/
def Reg.ctBwLong : Fld := ⟨0x940000, 0, 32⟩

/-- CT_BW_SHORT.TICKS (Short window). -/
def Reg.ctBwShort : Fld := ⟨0x940004, 0, 32⟩

/-- CT_BW_BYTES: the 64-bit pair (Octets of the last long window). -/
def Reg.ctBwBytes (n : Nat) : Nat := 0x941000 + min n 96 * 0x20

/-- CT_BW_PEAK_AT: the 64-bit pair (Start of the peak short window). -/
def Reg.ctBwPeakAt (n : Nat) : Nat := 0x941010 + min n 96 * 0x20

/-- CT_BW_PEAK.VALUE (Octets of the peak short window). -/
def Reg.ctBwPeak (n : Nat) : Fld := ⟨0x941008 + min n 96 * 0x20, 0, 32⟩

/-- CT_BW_SEQ.VALUE (Long windows completed). -/
def Reg.ctBwSeq (n : Nat) : Fld := ⟨0x94100c + min n 96 * 0x20, 0, 32⟩

/-- CT_TH_CFG.SRC_KIND (Threshold unit u source). -/
def Reg.ctThCfgSrcKind (n : Nat) : Fld := ⟨0x950000 + min n 64 * 0x8, 16, 3⟩

/-- CT_TH_CFG.INDEX (Threshold unit u source). -/
def Reg.ctThCfgIndex (n : Nat) : Fld := ⟨0x950000 + min n 64 * 0x8, 0, 10⟩

/-- CT_TH_N.VALUE (Threshold unit u level). -/
def Reg.ctThN (n : Nat) : Fld := ⟨0x950004 + min n 64 * 0x8, 0, 32⟩

/-- CT_LS_CFG.EN (Sampler settings). -/
def Reg.ctLsCfgEn (n : Nat) : Fld := ⟨0x960000 + min n 8 * 0x40, 31, 1⟩

/-- CT_LS_CFG.DP (Sampler settings). -/
def Reg.ctLsCfgDp (n : Nat) : Fld := ⟨0x960000 + min n 8 * 0x40, 30, 1⟩

/-- CT_LS_CFG.EGRESS (Sampler settings). -/
def Reg.ctLsCfgEgress (n : Nat) : Fld := ⟨0x960000 + min n 8 * 0x40, 0, 6⟩

/-- CT_LS_N.VALUE (1-in-N). -/
def Reg.ctLsN (n : Nat) : Fld := ⟨0x960004 + min n 8 * 0x40, 0, 32⟩

/-- CT_LS_INVALID.VALUE (Frames not sampled for an invalid stamp). -/
def Reg.ctLsInvalid (n : Nat) : Fld := ⟨0x960008 + min n 8 * 0x40, 0, 32⟩

/-- CT_LS_IN0.VALUE (Ingress set, ports 0–31). -/
def Reg.ctLsIn0 (n : Nat) : Fld := ⟨0x960030 + min n 8 * 0x40, 0, 32⟩

/-- CT_LS_IN1.VALUE (Ingress set, ports 32–47). -/
def Reg.ctLsIn1 (n : Nat) : Fld := ⟨0x960034 + min n 8 * 0x40, 0, 32⟩

/-- CT_LS_COUNT: the 64-bit pair (Latency statistics (each _LO latches _HI)). -/
def Reg.ctLsCount (n : Nat) : Nat := 0x960010 + min n 8 * 0x40

/-- CT_LS_SUM: the 64-bit pair (Latency statistics (each _LO latches _HI)). -/
def Reg.ctLsSum (n : Nat) : Nat := 0x960018 + min n 8 * 0x40

/-- CT_LS_MIN: the 64-bit pair (Latency statistics (each _LO latches _HI)). -/
def Reg.ctLsMin (n : Nat) : Nat := 0x960020 + min n 8 * 0x40

/-- CT_LS_MAX: the 64-bit pair (Latency statistics (each _LO latches _HI)). -/
def Reg.ctLsMax (n : Nat) : Nat := 0x960028 + min n 8 * 0x40

/-- CT_LS_LAST: the 64-bit pair (Latency statistics (each _LO latches _HI)). -/
def Reg.ctLsLast (n : Nat) : Nat := 0x960038 + min n 8 * 0x40

/-- CT_WIN_MAP.EN (Window slot k). -/
def Reg.ctWinMapEn (n : Nat) : Fld := ⟨0x982000 + min n 1024 * 0x4, 31, 1⟩

/-- CT_WIN_MAP.INDEX (Window slot k). -/
def Reg.ctWinMapIndex (n : Nat) : Fld := ⟨0x982000 + min n 1024 * 0x4, 0, 15⟩

/-- The registers of the CT block. -/
def regsCt : List RegDesc :=
  [⟨0x930000, [(0x4, 768)], .plain, false, [⟨31, 0, .ro, 0⟩]⟩,
   ⟨0x940000, [], .plain, false, [⟨31, 0, .ro, 0xbebc2⟩]⟩,
   ⟨0x940004, [], .plain, false, [⟨31, 0, .ro, 625⟩]⟩,
   ⟨0x941000, [(0x20, 96)], .latchLo, false, [⟨31, 0, .ro, 0⟩]⟩,
   ⟨0x941004, [(0x20, 96)], .latchHi, false, [⟨31, 0, .ro, 0⟩]⟩,
   ⟨0x941010, [(0x20, 96)], .latchLo, false, [⟨31, 0, .ro, 0⟩]⟩,
   ⟨0x941014, [(0x20, 96)], .latchHi, false, [⟨31, 0, .ro, 0⟩]⟩,
   ⟨0x941008, [(0x20, 96)], .plain, false, [⟨31, 0, .ro, 0⟩]⟩,
   ⟨0x94100c, [(0x20, 96)], .plain, false, [⟨31, 0, .ro, 0⟩]⟩,
   ⟨0x950000, [(0x8, 64)], .plain, false, [⟨18, 16, .ro, 0⟩, ⟨9, 0, .ro, 0⟩]⟩,
   ⟨0x950004, [(0x8, 64)], .plain, false, [⟨31, 0, .ro, 0⟩]⟩,
   ⟨0x960000, [(0x40, 8)], .plain, false, [⟨31, 31, .ro, 0⟩, ⟨30, 30, .ro, 0⟩, ⟨5, 0, .ro, 0⟩]⟩,
   ⟨0x960004, [(0x40, 8)], .plain, false, [⟨31, 0, .ro, 0⟩]⟩,
   ⟨0x960008, [(0x40, 8)], .plain, false, [⟨31, 0, .ro, 0⟩]⟩,
   ⟨0x960030, [(0x40, 8)], .plain, false, [⟨31, 0, .ro, 0⟩]⟩,
   ⟨0x960034, [(0x40, 8)], .plain, false, [⟨31, 0, .ro, 0⟩]⟩,
   ⟨0x960010, [(0x40, 8)], .latchLo, false, [⟨31, 0, .ro, 0⟩]⟩,
   ⟨0x960014, [(0x40, 8)], .latchHi, false, [⟨31, 0, .ro, 0⟩]⟩,
   ⟨0x960018, [(0x40, 8)], .latchLo, false, [⟨31, 0, .ro, 0⟩]⟩,
   ⟨0x96001c, [(0x40, 8)], .latchHi, false, [⟨31, 0, .ro, 0⟩]⟩,
   ⟨0x960020, [(0x40, 8)], .latchLo, false, [⟨31, 0, .ro, 0xffffffff⟩]⟩,
   ⟨0x960024, [(0x40, 8)], .latchHi, false, [⟨31, 0, .ro, 0xffffffff⟩]⟩,
   ⟨0x960028, [(0x40, 8)], .latchLo, false, [⟨31, 0, .ro, 0⟩]⟩,
   ⟨0x96002c, [(0x40, 8)], .latchHi, false, [⟨31, 0, .ro, 0⟩]⟩,
   ⟨0x960038, [(0x40, 8)], .latchLo, false, [⟨31, 0, .ro, 0⟩]⟩,
   ⟨0x96003c, [(0x40, 8)], .latchHi, false, [⟨31, 0, .ro, 0⟩]⟩,
   ⟨0x982000, [(0x4, 1024)], .plain, false, [⟨31, 31, .ro, 0⟩, ⟨14, 0, .ro, 0⟩]⟩]

/-! ### MP block, 0xa00000 to 0xa0ffff -/

/-- MP_STATUS.STICKY (Protection status). -/
def Reg.mpStatusSticky : Fld := ⟨0xa00000, 24, 8⟩

/-- MP_STATUS.TRACK_OCC (Protection status). -/
def Reg.mpStatusTrackOcc : Fld := ⟨0xa00000, 8, 6⟩

/-- MP_STATUS.SCRUB_MEM (Protection status). -/
def Reg.mpStatusScrubMem : Fld := ⟨0xa00000, 4, 4⟩

/-- MP_STATUS.BIST_OK (Protection status). -/
def Reg.mpStatusBistOk : Fld := ⟨0xa00000, 1, 1⟩

/-- MP_STATUS.SCRUB (Protection status). -/
def Reg.mpStatusScrub : Fld := ⟨0xa00000, 0, 1⟩

/-- MP_PERIOD.PERIOD_S (Scrub period). -/
def Reg.mpPeriodPeriodS : Fld := ⟨0xa00004, 0, 17⟩

/-- MP_TRACK.OVF (Tracker replacements). -/
def Reg.mpTrack : Fld := ⟨0xa00008, 0, 32⟩

/-- MP_LAST_UE: the 64-bit pair (Last uncorrectable address). -/
def Reg.mpLastUe : Nat := 0xa00010

/-- The registers of the MP block. -/
def regsMp : List RegDesc :=
  [⟨0xa00000, [], .plain, false, [⟨31, 24, .ro, 0⟩, ⟨13, 8, .ro, 0⟩, ⟨7, 4, .ro, 0⟩, ⟨1, 1, .ro, 0⟩, ⟨0, 0, .ro, 0⟩]⟩,
   ⟨0xa00004, [], .plain, false, [⟨16, 0, .ro, 3600⟩]⟩,
   ⟨0xa00008, [], .plain, false, [⟨31, 0, .ro, 0⟩]⟩,
   ⟨0xa00010, [], .latchLo, false, [⟨31, 0, .ro, 0⟩]⟩,
   ⟨0xa00014, [], .latchHi, false, [⟨31, 0, .ro, 0⟩]⟩]

/-! ### TW block, 0xb00000 to 0xb0ffff -/

/-- TW_STATUS.STRAP_CONFLICT (Twin status). -/
def Reg.twStatusStrapConflict : Fld := ⟨0xb00000, 16, 1⟩

/-- TW_STATUS.REVERTIVE (Twin status). -/
def Reg.twStatusRevertive : Fld := ⟨0xb00000, 15, 1⟩

/-- TW_STATUS.WTR_RUN (Twin status). -/
def Reg.twStatusWtrRun : Fld := ⟨0xb00000, 14, 1⟩

/-- TW_STATUS.LINK_FAULT (Twin status). -/
def Reg.twStatusLinkFault : Fld := ⟨0xb00000, 13, 1⟩

/-- TW_STATUS.ALIGNED (Twin status). -/
def Reg.twStatusAligned : Fld := ⟨0xb00000, 12, 1⟩

/-- TW_STATUS.TWCLK_OK (Twin status). -/
def Reg.twStatusTwclkOk : Fld := ⟨0xb00000, 11, 1⟩

/-- TW_STATUS.LINK_UP (Twin status). -/
def Reg.twStatusLinkUp : Fld := ⟨0xb00000, 10, 1⟩

/-- TW_STATUS.PART_PREF (Twin status). -/
def Reg.twStatusPartPref : Fld := ⟨0xb00000, 9, 1⟩

/-- TW_STATUS.PREF (Twin status). -/
def Reg.twStatusPref : Fld := ⟨0xb00000, 8, 1⟩

/-- TW_STATUS.STATE (Twin status). -/
def Reg.twStatusState : Fld := ⟨0xb00000, 0, 3⟩

/-- TW_ALIGN: the 64-bit pair (e_tw). -/
def Reg.twAlign : Nat := 0xb00008

/-- TW_DTT_OFF: the 64-bit pair (DTT_OFFSET). -/
def Reg.twDttOff : Nat := 0xb00010

/-- TW_CLAIM.COUNT (Claim count). -/
def Reg.twClaim : Fld := ⟨0xb00018, 0, 32⟩

/-- TW_MIRROR_SEQ.COUNT (Mirror sequence). -/
def Reg.twMirrorSeq : Fld := ⟨0xb0001c, 0, 32⟩

/-- TW_CRC_ERR.COUNT (Control frames discarded). -/
def Reg.twCrcErr : Fld := ⟨0xb00028, 0, 32⟩

/-- TW_LAST_MIRROR.OPCODE (Last mirrored command). -/
def Reg.twLastMirrorOpcode : Fld := ⟨0xb00020, 16, 16⟩

/-- TW_LAST_MIRROR.TAG (Last mirrored command). -/
def Reg.twLastMirrorTag : Fld := ⟨0xb00020, 0, 16⟩

/-- TW_LAST_MIRROR_ST.TAKEN (Its outcome). -/
def Reg.twLastMirrorStTaken : Fld := ⟨0xb00024, 8, 1⟩

/-- TW_LAST_MIRROR_ST.STATUS (Its outcome). -/
def Reg.twLastMirrorStStatus : Fld := ⟨0xb00024, 0, 8⟩

/-- The registers of the TW block. -/
def regsTw : List RegDesc :=
  [⟨0xb00000, [], .plain, false, [⟨16, 16, .ro, 0⟩, ⟨15, 15, .ro, 0⟩, ⟨14, 14, .ro, 0⟩, ⟨13, 13, .ro, 0⟩, ⟨12, 12, .ro, 0⟩, ⟨11, 11, .ro, 0⟩, ⟨10, 10, .ro, 0⟩, ⟨9, 9, .ro, 0⟩, ⟨8, 8, .ro, Config.twinPref % 2⟩, ⟨2, 0, .ro, 0⟩]⟩,
   ⟨0xb00008, [], .latchLo, false, [⟨31, 0, .ro, 0⟩]⟩,
   ⟨0xb0000c, [], .latchHi, false, [⟨31, 0, .ro, 0⟩]⟩,
   ⟨0xb00010, [], .latchLo, false, [⟨31, 0, .ro, 0⟩]⟩,
   ⟨0xb00014, [], .latchHi, false, [⟨31, 0, .ro, 0⟩]⟩,
   ⟨0xb00018, [], .plain, false, [⟨31, 0, .ro, 0⟩]⟩,
   ⟨0xb0001c, [], .plain, false, [⟨31, 0, .ro, 0⟩]⟩,
   ⟨0xb00028, [], .plain, false, [⟨31, 0, .ro, 0⟩]⟩,
   ⟨0xb00020, [], .plain, false, [⟨31, 16, .ro, 0⟩, ⟨15, 0, .ro, 0⟩]⟩,
   ⟨0xb00024, [], .plain, false, [⟨8, 8, .ro, 0⟩, ⟨7, 0, .ro, 0⟩]⟩]

/-! ### AO block, 0xc00000 to 0xc0ffff -/

/-- AO_TAMPER.COUNT1 (Tamper flags). -/
def Reg.aoTamperCount1 : Fld := ⟨0xc00000, 24, 8⟩

/-- AO_TAMPER.COUNT0 (Tamper flags). -/
def Reg.aoTamperCount0 : Fld := ⟨0xc00000, 16, 8⟩

/-- AO_TAMPER.FLAG1 (Tamper flags). -/
def Reg.aoTamperFlag1 : Fld := ⟨0xc00000, 1, 1⟩

/-- AO_TAMPER.FLAG0 (Tamper flags). -/
def Reg.aoTamperFlag0 : Fld := ⟨0xc00000, 0, 1⟩

/-- AO_TAMPER_TIME: the 64-bit pair (First activation). -/
def Reg.aoTamperTime : Nat := 0xc00008

/-- AO_STATUS.CAUSE (Always-on status). -/
def Reg.aoStatusCause : Fld := ⟨0xc00010, 4, 4⟩

/-- AO_STATUS.AO_LOST (Always-on status). -/
def Reg.aoStatusAoLost : Fld := ⟨0xc00010, 2, 1⟩

/-- AO_STATUS.ANCHOR_VALID (Always-on status). -/
def Reg.aoStatusAnchorValid : Fld := ⟨0xc00010, 1, 1⟩

/-- AO_STATUS.XTAL_OK (Always-on status). -/
def Reg.aoStatusXtalOk : Fld := ⟨0xc00010, 0, 1⟩

/-- AO_TIME: the 64-bit pair (AO time). -/
def Reg.aoTime : Nat := 0xc00018

/-- AO_ANCHOR_TICK: the 64-bit pair (Anchor tick). -/
def Reg.aoAnchorTick : Nat := 0xc00020

/-- AO_ANCHOR_T0.WORD (Anchor FT96, words W0–W2 (R131)). -/
def Reg.aoAnchorT0 : Fld := ⟨0xc00028, 0, 32⟩

/-- AO_ANCHOR_T1.WORD (Anchor FT96, words W0–W2 (R131)). -/
def Reg.aoAnchorT1 : Fld := ⟨0xc0002c, 0, 32⟩

/-- AO_ANCHOR_T2.WORD (Anchor FT96, words W0–W2 (R131)). -/
def Reg.aoAnchorT2 : Fld := ⟨0xc00030, 0, 32⟩

/-- AO_ANCHOR_SEQ.SEQ (Anchor sequence). -/
def Reg.aoAnchorSeq : Fld := ⟨0xc00034, 0, 32⟩

/-- The registers of the AO block. -/
def regsAo : List RegDesc :=
  [⟨0xc00000, [], .plain, false, [⟨31, 24, .ro, 0⟩, ⟨23, 16, .ro, 0⟩, ⟨1, 1, .ro, 0⟩, ⟨0, 0, .ro, 0⟩]⟩,
   ⟨0xc00008, [], .latchLo, false, [⟨31, 0, .ro, 0⟩]⟩,
   ⟨0xc0000c, [], .latchHi, false, [⟨31, 0, .ro, 0⟩]⟩,
   ⟨0xc00010, [], .plain, false, [⟨7, 4, .ro, 1⟩, ⟨2, 2, .ro, 0⟩, ⟨1, 1, .ro, 0⟩, ⟨0, 0, .ro, 1⟩]⟩,
   ⟨0xc00018, [], .latchLo, false, [⟨31, 0, .ro, 0⟩]⟩,
   ⟨0xc0001c, [], .latchHi, false, [⟨31, 0, .ro, 0⟩]⟩,
   ⟨0xc00020, [], .latchLo, false, [⟨31, 0, .ro, 0⟩]⟩,
   ⟨0xc00024, [], .latchHi, false, [⟨31, 0, .ro, 0⟩]⟩,
   ⟨0xc00028, [], .plain, false, [⟨31, 0, .ro, 0⟩]⟩,
   ⟨0xc0002c, [], .plain, false, [⟨31, 0, .ro, 0⟩]⟩,
   ⟨0xc00030, [], .plain, false, [⟨31, 0, .ro, 0⟩]⟩,
   ⟨0xc00034, [], .plain, false, [⟨31, 0, .ro, 0⟩]⟩]

/-! ### CAL block, 0xd00000 to 0xd0ffff -/

/-- CAL_STATUS.INDEX (Calibration status). -/
def Reg.calStatusIndex : Fld := ⟨0xd00000, 24, 8⟩

/-- CAL_STATUS.KIND (Calibration status). -/
def Reg.calStatusKind : Fld := ⟨0xd00000, 22, 2⟩

/-- CAL_STATUS.RUNNING (Calibration status). -/
def Reg.calStatusRunning : Fld := ⟨0xd00000, 17, 1⟩

/-- CAL_STATUS.STARTUP_OK (Calibration status). -/
def Reg.calStatusStartupOk : Fld := ⟨0xd00000, 16, 1⟩

/-- CAL_STATUS.REJECTS (Calibration status). -/
def Reg.calStatusRejects : Fld := ⟨0xd00000, 0, 16⟩

/-- CAL_LANE_REC.TDC_OK (Lane n record state). -/
def Reg.calLaneRecTdcOk (n : Nat) : Fld := ⟨0xd00100 + min n 52 * 0x4, 31, 1⟩

/-- CAL_LANE_REC.THRESH_OK (Lane n record state). -/
def Reg.calLaneRecThreshOk (n : Nat) : Fld := ⟨0xd00100 + min n 52 * 0x4, 30, 1⟩

/-- CAL_LANE_REC.DELAY_OK (Lane n record state). -/
def Reg.calLaneRecDelayOk (n : Nat) : Fld := ⟨0xd00100 + min n 52 * 0x4, 29, 1⟩

/-- CAL_LANE_REC.SEQ (Lane n record state). -/
def Reg.calLaneRecSeq (n : Nat) : Fld := ⟨0xd00100 + min n 52 * 0x4, 16, 13⟩

/-- CAL_LANE_REC.TEMP (Lane n record state). -/
def Reg.calLaneRecTemp (n : Nat) : Fld := ⟨0xd00100 + min n 52 * 0x4, 0, 16⟩

/-- CAL_EVTIN_REC.TDC_OK (EVTINe record state). -/
def Reg.calEvtinRecTdcOk (n : Nat) : Fld := ⟨0xd00200 + min n 8 * 0x4, 31, 1⟩

/-- CAL_EVTIN_REC.THRESH_OK (EVTINe record state). -/
def Reg.calEvtinRecThreshOk (n : Nat) : Fld := ⟨0xd00200 + min n 8 * 0x4, 30, 1⟩

/-- CAL_EVTIN_REC.DELAY_OK (EVTINe record state). -/
def Reg.calEvtinRecDelayOk (n : Nat) : Fld := ⟨0xd00200 + min n 8 * 0x4, 29, 1⟩

/-- CAL_EVTIN_REC.SEQ (EVTINe record state). -/
def Reg.calEvtinRecSeq (n : Nat) : Fld := ⟨0xd00200 + min n 8 * 0x4, 16, 13⟩

/-- CAL_EVTIN_REC.TEMP (EVTINe record state). -/
def Reg.calEvtinRecTemp (n : Nat) : Fld := ⟨0xd00200 + min n 8 * 0x4, 0, 16⟩

/-- CAL_OUT_REC.TDC_OK (Output o record state). -/
def Reg.calOutRecTdcOk (n : Nat) : Fld := ⟨0xd00220 + min n 12 * 0x4, 31, 1⟩

/-- CAL_OUT_REC.THRESH_OK (Output o record state). -/
def Reg.calOutRecThreshOk (n : Nat) : Fld := ⟨0xd00220 + min n 12 * 0x4, 30, 1⟩

/-- CAL_OUT_REC.DELAY_OK (Output o record state). -/
def Reg.calOutRecDelayOk (n : Nat) : Fld := ⟨0xd00220 + min n 12 * 0x4, 29, 1⟩

/-- CAL_OUT_REC.SEQ (Output o record state). -/
def Reg.calOutRecSeq (n : Nat) : Fld := ⟨0xd00220 + min n 12 * 0x4, 16, 13⟩

/-- CAL_OUT_REC.TEMP (Output o record state). -/
def Reg.calOutRecTemp (n : Nat) : Fld := ⟨0xd00220 + min n 12 * 0x4, 0, 16⟩

/-- CAL_DEV_REC.TDC_OK (Device channel d record state). -/
def Reg.calDevRecTdcOk (n : Nat) : Fld := ⟨0xd00260 + min n 10 * 0x4, 31, 1⟩

/-- CAL_DEV_REC.THRESH_OK (Device channel d record state). -/
def Reg.calDevRecThreshOk (n : Nat) : Fld := ⟨0xd00260 + min n 10 * 0x4, 30, 1⟩

/-- CAL_DEV_REC.DELAY_OK (Device channel d record state). -/
def Reg.calDevRecDelayOk (n : Nat) : Fld := ⟨0xd00260 + min n 10 * 0x4, 29, 1⟩

/-- CAL_DEV_REC.SEQ (Device channel d record state). -/
def Reg.calDevRecSeq (n : Nat) : Fld := ⟨0xd00260 + min n 10 * 0x4, 16, 13⟩

/-- CAL_DEV_REC.TEMP (Device channel d record state). -/
def Reg.calDevRecTemp (n : Nat) : Fld := ⟨0xd00260 + min n 10 * 0x4, 0, 16⟩

/-- The registers of the CAL block. -/
def regsCal : List RegDesc :=
  [⟨0xd00000, [], .plain, false, [⟨31, 24, .ro, 0⟩, ⟨23, 22, .ro, 0⟩, ⟨17, 17, .ro, 0⟩, ⟨16, 16, .ro, 0⟩, ⟨15, 0, .ro, 0⟩]⟩,
   ⟨0xd00100, [(0x4, 52)], .plain, false, [⟨31, 31, .ro, 0⟩, ⟨30, 30, .ro, 0⟩, ⟨29, 29, .ro, 0⟩, ⟨28, 16, .ro, 0⟩, ⟨15, 0, .ro, 0⟩]⟩,
   ⟨0xd00200, [(0x4, 8)], .plain, false, [⟨31, 31, .ro, 0⟩, ⟨30, 30, .ro, 0⟩, ⟨29, 29, .ro, 0⟩, ⟨28, 16, .ro, 0⟩, ⟨15, 0, .ro, 0⟩]⟩,
   ⟨0xd00220, [(0x4, 12)], .plain, false, [⟨31, 31, .ro, 0⟩, ⟨30, 30, .ro, 0⟩, ⟨29, 29, .ro, 0⟩, ⟨28, 16, .ro, 0⟩, ⟨15, 0, .ro, 0⟩]⟩,
   ⟨0xd00260, [(0x4, 10)], .plain, false, [⟨31, 31, .ro, 0⟩, ⟨30, 30, .ro, 0⟩, ⟨29, 29, .ro, 0⟩, ⟨28, 16, .ro, 0⟩, ⟨15, 0, .ro, 0⟩]⟩]

/-! ### FW block, 0xe00000 to 0xe0ffff -/

/-- FW_STATE.HANDOVERS (Firmware state). -/
def Reg.fwStateHandovers : Fld := ⟨0xe00000, 24, 8⟩

/-- FW_STATE.PHASE (Firmware state). -/
def Reg.fwStatePhase : Fld := ⟨0xe00000, 12, 4⟩

/-- FW_STATE.EVD_SLOT (Firmware state). -/
def Reg.fwStateEvdSlot : Fld := ⟨0xe00000, 4, 3⟩

/-- FW_STATE.NEXT (Firmware state). -/
def Reg.fwStateNext : Fld := ⟨0xe00000, 2, 1⟩

/-- FW_STATE.RUN (Firmware state). -/
def Reg.fwStateRun : Fld := ⟨0xe00000, 0, 1⟩

/-- FW_SLOT_VER.VALUE (Version of slot s, 0 to 4). -/
def Reg.fwSlotVer (n : Nat) : Fld := ⟨0xe00010 + min n 5 * 0x8, 0, 32⟩

/-- FW_SLOT_ST.KIND (State of slot s). -/
def Reg.fwSlotStKind (n : Nat) : Fld := ⟨0xe00014 + min n 5 * 0x8, 16, 8⟩

/-- FW_SLOT_ST.FAILS (State of slot s). -/
def Reg.fwSlotStFails (n : Nat) : Fld := ⟨0xe00014 + min n 5 * 0x8, 8, 8⟩

/-- FW_SLOT_ST.STATE (State of slot s). -/
def Reg.fwSlotStState (n : Nat) : Fld := ⟨0xe00014 + min n 5 * 0x8, 0, 3⟩

/-- FW_HEALTH.TRIAL_REM (Trial health). -/
def Reg.fwHealthTrialRem : Fld := ⟨0xe00040, 16, 16⟩

/-- FW_HEALTH.MEM_OK (Trial health). -/
def Reg.fwHealthMemOk : Fld := ⟨0xe00040, 3, 1⟩

/-- FW_HEALTH.SEQ_OK (Trial health). -/
def Reg.fwHealthSeqOk : Fld := ⟨0xe00040, 2, 1⟩

/-- FW_HEALTH.CORE1_OK (Trial health). -/
def Reg.fwHealthCore1Ok : Fld := ⟨0xe00040, 1, 1⟩

/-- FW_HEALTH.CORE0_OK (Trial health). -/
def Reg.fwHealthCore0Ok : Fld := ⟨0xe00040, 0, 1⟩

/-- The registers of the FW block. -/
def regsFw : List RegDesc :=
  [⟨0xe00000, [], .plain, false, [⟨31, 24, .ro, 0⟩, ⟨15, 12, .ro, 0⟩, ⟨6, 4, .ro, 2⟩, ⟨2, 2, .ro, 0⟩, ⟨0, 0, .ro, 0⟩]⟩,
   ⟨0xe00010, [(0x8, 5)], .plain, false, [⟨31, 0, .ro, 0⟩]⟩,
   ⟨0xe00014, [(0x8, 5)], .plain, false, [⟨23, 16, .ro, 0⟩, ⟨15, 8, .ro, 0⟩, ⟨2, 0, .ro, 0⟩]⟩,
   ⟨0xe00040, [], .plain, false, [⟨31, 16, .ro, 0⟩, ⟨3, 3, .ro, 0⟩, ⟨2, 2, .ro, 0⟩, ⟨1, 1, .ro, 0⟩, ⟨0, 0, .ro, 0⟩]⟩]

/-- The registers of the block that holds BAR0 offset `off` (R45). -/
def regsAt (off : Nat) : List RegDesc :=
  if 0xe00000 ≤ off ∧ off < 0xe10000 then regsFw else
  if 0xd00000 ≤ off ∧ off < 0xd10000 then regsCal else
  if 0xc00000 ≤ off ∧ off < 0xc10000 then regsAo else
  if 0xb00000 ≤ off ∧ off < 0xb10000 then regsTw else
  if 0xa00000 ≤ off ∧ off < 0xa10000 then regsMp else
  if 0x900000 ≤ off ∧ off < 0xa00000 then regsCt else
  if 0x810000 ≤ off ∧ off < 0x820000 then regsCap else
  if 0x800000 ≤ off ∧ off < 0x810000 then regsEvd else
  if 0x710000 ≤ off ∧ off < 0x720000 then regsEr else
  if 0x700000 ≤ off ∧ off < 0x710000 then regsFm else
  if 0x600000 ≤ off ∧ off < 0x700000 then regsBf else
  if 0x500000 ≤ off ∧ off < 0x600000 then regsFt else
  if 0x400000 ≤ off ∧ off < 0x500000 then regsSw else
  if 0x300000 ≤ off ∧ off < 0x31a000 then regsSds else
  if 0x200000 ≤ off ∧ off < 0x20c000 then regsPts else
  if 0x150000 ≤ off ∧ off < 0x160000 then regsTt else
  if 0x140000 ≤ off ∧ off < 0x150000 then regsGn else
  if 0x130000 ≤ off ∧ off < 0x140000 then regsEm else
  if 0x120000 ≤ off ∧ off < 0x130000 then regsPl else
  if 0x110000 ≤ off ∧ off < 0x120000 then regsRs else
  if 0x100000 ≤ off ∧ off < 0x110000 then regsTb else
  if 0x20000 ≤ off ∧ off < 0x30000 then regsMbx else
  if 0x10000 ≤ off ∧ off < 0x20000 then regsGd else
  if 0x0 ≤ off ∧ off < 0x10000 then regsHst else
  []

/-- Whether offset `d` from a family's base is one of its registers. -/
def onStride : List (Nat × Nat) → Nat → Bool
  | [], d => d = 0
  | (st, n) :: r, d => decide (d / st < n) && onStride r (d % st)

/-- Offsets inside a regular family that the chapters leave unmapped: queues 1 to 7 of sources 49 and 51, and
the shapers of source 49 (the BF register tables). -/
def isHole (off : Nat) : Bool :=
  let q := (off - 0x601000) / 0x20
  (decide (0x601000 ≤ off ∧ off < 0x601000 + 416 * 0x20) && (q / 8 = 49 || q / 8 = 51) && q % 8 ≠ 0) ||
  (decide (0x608000 ≤ off ∧ off < 0x608000 + 459 * 0x10) && decide ((off - 0x608000) / 0x10 / 9 = 49))

/-- The register at BAR0 offset `off`, none where the offset is unmapped (R45). -/
def regAt (off : Nat) : Option RegDesc :=
  if isHole off then none
  else (regsAt off).find? (fun d => decide (d.base ≤ off) && onStride d.strides (off - d.base))

/-- Reset value of the field with key `k`; BF_Q_CFG.PCP_MASK resets to bit q (R476), TB_D_STATUS.SERVED
to 1 in the forewing's register. -/
def resetOf (k : Nat) : Nat :=
  if 0x601004 ≤ k / 32 ∧ k / 32 < 0x604400 ∧ k / 32 % 0x20 = 4 ∧ k % 32 = 16 then 2 ^ ((k / 32 - 0x601000) / 0x20 % 8)
  else if k = 0x100100 * 32 + 11 then 1
  else match regAt (k / 32) with
    | none => 0
    | some d => match d.fields.find? (fun f => f.lo = k % 32) with
      | none => 0
      | some f => f.reset

end Sys2Proof.Machine
end

