-- ==== Sys2Proof/Machine/State.lean ====
section
/-! DEFINITION. The state of the FK4825 as plain data: the register fields, host memory as the device has written it,
and, block by block, what the manual gives the machine beside its registers; the faults and refusals of the model;
and the state after reset. -/

set_option Elab.async false

namespace Sys2Proof.Machine

/-- Why a step of this block could stop.  No command of the FK4825 stops the device: every access and every event
of the manual has a next state, so there is no constructor. -/
inductive Fault where
  deriving DecidableEq, Repr

/-- Why the model would give a command no meaning. -/
inductive Refusal where
  /-- The command has no meaning in the model yet; raised by its arm of `exec` alone. Safe: nothing happens. -/
  | notModelled (mnemonic : String)
  deriving DecidableEq, Repr

/-- A device event on its way to the event ring (R70): what a record holds before SEQ, PHASE and LOSS are given. -/
structure EventRec where
  stamp : Nat
  src : Nat
  sev : Nat
  code : Nat
  qc : Nat
  invalid : Bool
  stepc : Nat
  payload : Bytes
  late : Bool
  seq : Nat
  deriving DecidableEq, Repr

/-- The event unit: records in the ordering hold (R76), the internal buffer of 512 records (R73), the next SEQ
(R75), the pending LOSS flag and the stamp of the newest record written (R77). -/
structure EventUnit where
  held : List EventRec
  buf : List EventRec
  nextSeq : Nat
  lossPending : Bool
  newest : Option Nat
  deriving DecidableEq, Repr

/-- What a ring that follows R71 to R78 keeps beside its registers: the DTT at which each unconsumed slot was
written, oldest first, and whether its interrupt condition has been signalled since CONS last advanced (R78). -/
structure RingDyn where
  times : List Nat
  signalled : Bool
  deriving DecidableEq, Repr

/-- An open keyed sequence (R63): offset of its _A word, requester path, value and the tick of the _A write. -/
structure KeySeq where
  off : Nat
  path : Path
  value : Nat
  opened : Nat
  deriving DecidableEq, Repr

/-- Bus state: latch shadows per path (R58), staged _LO words (R60), open keyed sequences (R63), the last value
written to each BAR4 doorbell (R47), the MSI-X table and pending bits (R47), vectors signalled, the SMBus offset and
last command (R80), and the answer given to the last read; the TAG of the SMBus command in progress and when it arrived (R83), whether the last
SMBus transaction was NACKed (R79, R83); W1C bits by field key with the tick after the one in which the device last set them (R66); the DTT
captured at the last PTM Request and at its Response (R42). -/
structure Bus where
  shadows : List (Nat × Nat)
  staging : List (Nat × Option Nat)
  keyed : List KeySeq
  doorbells : List (Nat × Nat)
  msixTable : List (Nat × Nat)
  pba : Nat
  msixSent : List (Nat × Nat)
  smbOffset : Nat
  smbBusy : Bool
  smbStatus : Nat
  smbCompletion : Bytes
  answer : Bytes
  smbTag : Nat
  smbAt : Nat
  smbNack : Bool
  raised : List (Nat × Nat)
  ptm : Nat × Nat
  deriving DecidableEq, Repr

/-- A doorbelled hamper (R90, R94): its tag, whether an end entry is wanted, its length, the slot of its first entry,
the tags of its entries not yet started, the first bad status with its slot, whether its last command completed
with ST_OK, the DTT its first command started, the order number of its doorbell (R106) and the DTT of that doorbell. -/
structure Hamper where
  htag : Nat
  hend : Bool
  count : Nat
  firstSlot : Nat
  waiting : List Nat
  bad : Option (Nat × Nat)
  lastOk : Bool
  tStart : Option Nat
  order : Nat
  rung : Nat
  deriving DecidableEq, Repr

/-- A completion entry before its PHASE is given (R99). -/
structure Cpl where
  tag : Nat
  opcode : Nat
  status : Nat
  cflags : Nat
  slot : Nat
  rused : Nat
  detail : Nat
  tStart : Nat
  tDone : Nat
  result : Bytes
  deriving DecidableEq, Repr

/-- One command queue beside its registers: doorbell tail, hampers in order, hamper-end entries of empty hampers that
wait for a slot (R90), slots named by pending cancellations (R113) and whether fetching has stopped (R117). -/
structure Queue where
  tail : Nat
  hampers : List Hamper
  endsWaiting : List Cpl
  cancels : List Nat
  fetchStopped : Bool
  deriving DecidableEq, Repr

/-- The step record of the stepped command in progress (R110): its entry and slot, its start, steps done and
expected, the DTT of its last progress entry, the units of work left, the result gathered, and the working values; whether it completes
with RESUMED (R119), whether its record in the step store is good (R120), whether its entries are to be discarded (R44), and its MIRROR_SEQ where it
was mirrored (R121). -/
structure LongOp where
  opcode : Nat
  cmd : Cmd
  slot : Nat
  tStart : Nat
  done : Nat
  estimate : Nat
  lastProgress : Nat
  work : List Nat
  acc : Bytes
  v : List Int
  resumed : Bool
  recordOk : Bool
  dropped : Bool
  mirror : Option Nat
  deriving DecidableEq, Repr

/-- A finished command whose completion waits for the standby (R122): its MIRROR_SEQ, and whether a reset of the host interface has discarded
its entry and its hamper (R44). -/
structure AckWait where
  src : Source
  cmd : Cmd
  entry : Cpl
  finished : Nat
  hasEntry : Bool
  seq : Nat
  dropped : Bool
  deriving DecidableEq, Repr

/-- A command that is not stepped and cannot complete yet: it waits for an island to wake (R35), for a switch instant
(R154) or for alignment (R542), and core 0 with it: its MIRROR_SEQ where it was mirrored; `dropped` where its completion entry is to be discarded
(R44); whether it completes with RESUMED (R119). -/
structure HeldCmd where
  opcode : Nat
  cmd : Cmd
  slot : Nat
  tStart : Nat
  mirror : Option Nat
  dropped : Bool
  resumed : Bool
  deriving DecidableEq, Repr

/-- A doorbelled entry that is no assigned command: its queue, submission slot, and its opcode with the entry, or none where the entry
cannot be read (R117). -/
structure OddEntry where
  q : Nat
  slot : Nat
  entry : Option (Nat × Cmd)
  deriving DecidableEq, Repr

/-- The mailbox: both queues, the step store, the DTT at which core 0 is free, commands executed so far (the
argument of `Config.procTime`), doorbells accepted so far, the command that waits for the standby, and the command
that is held until something it waits for has happened, and doorbelled entries that are no assigned command; whether the last command to end was a
GENERAL one (R109); the doorbell order up to which commands waited through a pause of command service, and whether the SMBus command did (R119); T_START of the command
last taken (R99). -/
structure Mbx where
  urgent : Queue
  general : Queue
  longOp : Option LongOp
  core0Free : Nat
  executed : Nat
  doorbells : Nat
  ackWait : Option AckWait
  held : Option HeldCmd
  odd : List OddEntry
  lastGeneral : Bool
  resumedUpTo : Nat
  smbResumed : Bool
  startedAt : Nat
  deriving DecidableEq, Repr

/-- One segment of a domain mapper (R124): anchor instant in 2⁻¹⁶ tick, domain time there in 2⁻¹⁶ ns, and RATE. -/
structure Segment where
  x : Nat
  t : Int
  rate : Int
  deriving DecidableEq, Repr

/-- A step of a domain that waits for its instant x_c (R144): amount in SNS64, x_c in ticks, whether the loop phase
setpoint moves with it (R144, R153), whether it is a TB_REALIGN, and the active's step counter that a commit takes after it (R587). -/
structure PendingStep where
  amount : Int
  xc : Nat
  moves : Bool
  realign : Bool
  counter : Option Nat
  deriving DecidableEq, Repr

/-- One time domain beside its registers: its 8 most recent segments, newest first (R128), the loop phase setpoint
(R144), the RATE its servo asks for without a slew, the total, the part that a returning reference gave (R302) and the rate of the slew in progress (R148, R149), the
steps that wait, a change of RATE that waits for its spacing (R128), whether a slew runs that has not raised TB_SLEW_DONE (R149), changes of the step
counter as (TK80 instant, before, after), newest first, eight at most (R161), the integral and proportional part of the loop filter in 2⁻⁸⁰ (R319), and
whether the guard slew bound holds the running slew back (R31, R676). -/
structure Domain where
  segs : List Segment
  setpoint : Int
  servoRate : Int
  slewTotal : Int
  slewBack : Int
  slewRate : Nat
  steps : List PendingStep
  rateWait : Option Int
  slewOn : Bool
  stepLog : List (Nat × Nat × Nat)
  integ : Int
  prop : Int
  slewClamped : Bool
  deriving DecidableEq, Repr

/-- A served-domain switch that waits for x_s (R154). -/
structure SwitchReq where
  domain : Nat
  realign : Bool
  deriving DecidableEq, Repr

/-- The latest base record of one compact-stamp stream (R138): continuous nanoseconds and the step counter, and
whether a step or switch since asks for a new one. -/
structure BaseRec where
  ns : Nat
  stepc : Nat
  due : Bool
  deriving DecidableEq, Repr

/-- The time base beside its registers: both domains, a switch that waits, an output re-phase in progress (the offset
it returns to and the whole second of output time at which it does, R145), whether a seamless switch's offset is being slewed out (R155), the DTT of the last servo
update, the base records of the compact-stamp streams by stream number, and the switches of the served domain as (TK80 instant, domain from then on),
newest first, eight at most (R160), and whether the guard slew bound holds the outputs' slew back (R31, R676). -/
structure TimeBase where
  domA : Domain
  domB : Domain
  switchReq : Option SwitchReq
  rephaseTo : Option Int
  rephaseAt : Int
  outSlewing : Bool
  lastServo : Nat
  bases : List (Nat × Option BaseRec)
  servedLog : List (Nat × Nat)
  outClamped : Bool
  deriving DecidableEq, Repr

/-- A value that changes at an instant (R180, R263, R501, R527): the value before, and (instant, value) of each change,
oldest first. -/
structure Timed where
  base : Int
  steps : List (Nat × Int)
  deriving DecidableEq, Repr

/-- One stamp FIFO (R189 to R195): its 16-byte entries, oldest first, whether the next carries LOSS, the stamps discarded
since the last PTS_FIFO_LOSS and when that was raised. -/
structure StampFifo where
  entries : List Bytes
  loss : Bool
  lostNew : Nat
  lossAt : Option Nat
  deriving DecidableEq, Repr

/-- FIR taps and CTLE settings of a lane in one mode (R211). -/
structure LaneEq where
  pre : Nat
  main : Nat
  post : Nat
  peak : Nat
  gain : Nat
  auto : Bool
  deriving DecidableEq, Repr

/-- One lane beside its SDS and PTS registers: settings by mode that differ from the defaults (R211); the event stamps of
the present transmitter start and link up (R230); the host trim in steps (R219); a transmitter restart that waits for
the frame in flight (R221) and whether new frames are held back (R229); whether a receiver lock waits for its sweep
(R214) and for its latency report (R176); the receiver's divider phase is in PTS_LAT_RX; the user pattern (R223); the
measured transmit block phase against the release grid without trim, in 2⁻²⁴ tick (R528); whether stamps wait for a
wake calibration (R642); the interpolator's motion, as the position it left and the tick since which it moves (R220); the last phase sample of the
transmit channel (R173); whether the partner sends remote fault (R208); whether the junction temperature stands beyond R200; whether frames arrive in
a relock of R213; and whether the single error of INJ 1 is still to be put into line code (R226). -/
structure Lane where
  eqs : List (Nat × Option LaneEq)
  txStart : Option Nat
  linkAt : Option Nat
  hostSteps : Nat
  restartDue : Bool
  held : Bool
  sweepDue : Bool
  reportDue : Bool
  userPat : Nat
  txPhase : Nat
  calWait : Bool
  piFrom : Nat
  piAt : Nat
  txSample : Option EdgeEntry
  remoteFault : Bool
  recalDue : Bool
  relocking : Bool
  injectDue : Bool
  deriving DecidableEq, Repr

/-- A lane right after reset. -/
def Lane.reset : Lane := ⟨[], none, none, 0, false, false, false, false, 0, 0, false, 0, 0, none, false, false, false, false⟩

/-- Measured values of one calibration target (R628): the TDC maps of its channels in 2⁻²⁴ tick, one after the other (none:
the factory map), its delays by record index (none: the factory value), and sampler trims, VSTEP and non-linearity. -/
structure CalVals where
  map : List Nat
  delays : List (Nat × Option Int)
  thresh : List Int
  deriving DecidableEq, Repr

/-- One calibration record (R628): SEQ, acceptance instants, the four temperatures, the values in force with the instant
since when, the values before that, and accepted values that wait for their x_a. -/
structure CalRec where
  seq : Nat
  xaTdc : Nat
  xaDelay : Nat
  temps : List Int
  vals : CalVals
  since : Nat
  older : CalVals
  waiting : Option (Nat × CalVals)
  deriving DecidableEq, Repr

/-- No values measured. -/
def CalVals.factory : CalVals := ⟨[], [], []⟩

/-- A record right after reset. -/
def CalRec.reset : CalRec := ⟨0, 0, 0, [0, 0, 0, 0], CalVals.factory, 0, CalVals.factory, none⟩

/-- A stamped event message a session keeps until its exchange completes: sequenceId, stamp (TK80), the session domain's step
counter, correctionField (2⁻¹⁶ ns), whether the stamp was invalid, the partner's timestamp where it has come (2⁻¹⁶ ns), and the served domain's QC
at the stamp. -/
structure EventMsg where
  seq : Nat
  x : Nat
  stepc : Nat
  corr : Int
  bad : Bool
  far : Option Int
  qc : Nat
  deriving DecidableEq, Repr

/-- One session of the engine beside its TT_S registers (R246): its descriptor; the next sequenceId of Sync, Delay_Req or
Pdelay_Req, and Announce; the Sync received; the last complete Sync set; the Delay_Req or Pdelay_Req last sent; the Pdelay_Resp
received; the latest meanLinkDelay; the logMessageInterval of the partner's Sync; the second of DTT with answers sent and events
accepted in it, messages discarded since the last TT_RATE_DROP and when that was raised; the last phase report's DTT, VALID
reports in a row, its LAT_SEQ and whether it said SYNTONIZED; Σ and D at entry to PHASE and their changes since (R267); the
last windows of ψ as (end TK80, mean), newest first; by kind of periodic message the tick of the last one sent (R245); event messages originated in the
second of DTT (R243); firmware's Announce template and the last Announce given to firmware (R248); and the millisecond of the last phase report sent
(R265). -/
structure Session where
  desc : Bytes
  seqSync : Nat
  seqDelay : Nat
  seqAnn : Nat
  syncRx : Option EventMsg
  syncSet : Option EventMsg
  delayTx : Option EventMsg
  respRx : Option EventMsg
  linkDelay : Option Int
  syncLog : Int
  sentIn : Nat × Nat
  gotIn : Nat × Nat
  dropNew : Nat
  dropAt : Option Nat
  lastReport : Nat
  validRun : Nat
  farLat : Nat
  farSynt : Bool
  entry : Option (Int × Int)
  dSigma : Int
  dD : Int
  windows : List (Nat × Int)
  lastTx : List (Nat × Option Nat)
  originated : Nat × Nat
  template : Bytes
  announced : Bytes
  reportMs : Option Nat
  deriving DecidableEq, Repr

/-- A cleared session. -/
def Session.reset : Session :=
  ⟨[], 0, 0, 0, none, none, none, none, none, 0, (0, 0), (0, 0), 0, none, 0, 0, 0, false, none, 0, 0, [], [], (0, 0), [], [], none⟩

/-- Servo n of line reference Ln (R260, R267): mode, lane, session, NAVG as log2 and bandwidth; raw offsets and raw delays, each with
the tracker's change at its exchange, newest first; θ̂ and d̄ of the last exchange and its raw offset; exchanges in a row beyond Pw/4; its state;
the DTT of the last exchange and of the last sample delivered. -/
structure Servo where
  mode : Nat
  lane : Nat
  session : Nat
  navg : Nat
  bw : Nat
  hist : List (Int × Int)
  dHist : List (Int × Int)
  theta : Int
  dbar : Int
  raw : Int
  slips : Nat
  state : Nat
  last : Nat
  lastSample : Nat
  deriving DecidableEq, Repr

/-- A servo right after reset: OFF, NAVG 6. -/
def Servo.reset : Servo := ⟨0, 0, 0, 6, 0, [], [], 0, 0, 0, 0, 0, 0, 0⟩

/-- A received PTP message that a session has claimed: session, the message from its PTP header on, its stamp and whether that is
invalid, and at the stamp both domains' step counters and the served domain's QC. -/
structure PtpRx where
  session : Nat
  msg : Bytes
  x : Nat
  bad : Bool
  stepA : Nat
  stepB : Nat
  qc : Nat
  deriving DecidableEq, Repr

/-- The continuous phase of a lane (R264), both in 2⁻²⁴ tick times the denominator of the word period: ψ and the last sample;
and of the 1 ms window that runs (R265) its number, sum (2⁻¹⁶ ns) and count. -/
structure Psi where
  psi : Int
  last : Int
  ms : Nat
  sum : Int
  count : Nat
  deriving DecidableEq, Repr

/-- Time transfer beside its registers: sessions and servos by number, claimed messages waiting for the engine, oldest first, the
continuous phase of each lane since its receiver lock, the asymmetry in force by port, the frames that the last transmission of
the engine put on a port, session records that wait for their ring with the number discarded since the last one written (R73,
R75), and the second of DTT that TX_RATE and RX_RATE count in, with its counts. -/
structure TimeXfer where
  sessions : List (Nat × Session)
  servos : List (Nat × Servo)
  inbox : List PtpRx
  psi : List (Nat × Option Psi)
  asym : List (Nat × Int)
  out : List (Nat × Bytes)
  recs : List Bytes
  recLost : Nat
  rateSec : Nat
  rateTx : Nat
  rateRx : Nat
  deriving DecidableEq, Repr
/-- One phase sample of a candidate: its TK80 instant, its phase against SYSXO, and its phase plus the loop setpoint less
the domain time for forewing and hindwing, all SNS64 (R276, R301). -/
structure RefSample where
  x : Nat
  sys : Int
  eA : Int
  eB : Int
  deriving DecidableEq, Repr

/-- One candidate beside its RS_CAND registers (R274 to R283): KIND as set, nominal frequency in mHz and the divider that
makes its comparison rate (R320), QL assigned and received, ACC_K as set and the accuracy the source supplies itself
(2⁻¹⁶ ns), limits in 10⁻¹⁵, timers in seconds; for a line reference its mode, its session's domain and the port lane it
recovers its clock from (R260); since when its signal has been present, when its qualification or recovery timer
started, when WTR clears, whether it was LOST or DISQUALIFIED since it was last QUALIFIED, whether it has ever been
QUALIFIED, its last loss, the phase samples of the last 10 s, the last 100 values of y', newest first, since when its
slope has stayed within its limit, whether RS_DRIFT_ONSET has been raised and not re-armed (R280), and its slope in 10⁻¹⁵ per 100 s. -/
structure Cand where
  timeKind : Bool
  nomFreq : Nat
  cmpDiv : Nat
  accK : Nat
  accOwn : Option Nat
  drift : Nat
  soft : Nat
  hard : Nat
  qualS : Nat
  wtrS : Nat
  lineMode : Nat
  lineDomain : Nat
  linePort : Nat
  present : Option Nat
  timer : Option Nat
  wtrUntil : Option Nat
  wasLost : Bool
  everQualified : Bool
  lastLoss : Nat
  samples : List RefSample
  y : Option Int
  ys : List Int
  within : Option Nat
  onset : Bool
  slope : Int
  deriving DecidableEq, Repr

/-- A switch transaction in progress (R288): its start, its target, e or the build-out at capture, and whether the loop has taken a sample of the target
since capture. -/
structure Txn where
  start : Nat
  target : Nat
  e : Int
  settled : Bool
  deriving DecidableEq, Repr

/-- One domain's selection and holdover beside its RS_D registers: settings of RS_SET_TIMERS, force, transaction, start of
the last one and how many there have been, build-out, bound (none: unknown), bound and instant at selection, B0 and
start of the holdover and its frequency (R299, R305), whether ACQUIRING was entered from HOLDOVER, steer (R306), the
loop samples (DTT, e_loop) of the last second, newest first, evaluations in a row within the limit of R321,
comparisons in a row beyond four windows (R323), and of the running larder minute: whether it is still VALID, its
drift-onset mark, the sum of the frequency offsets and how many were added; and whether the guard steer bound holds RS_STEER's offset back (R31, R676). -/
structure RsDom where
  qlMode : Bool
  hoLimit : Nat
  slewThr : Nat
  hoFreq : Nat
  hoAging : Nat
  force : Option Nat
  txn : Option Txn
  lastTxn : Option Nat
  switches : Nat
  buildout : Int
  bound : Option Nat
  boundAtSel : Option Nat
  selectedAt : Nat
  b0 : Option Nat
  hoStart : Nat
  hoValue : Int
  fromHoldover : Bool
  steer : Int
  loopE : List (Nat × Int)
  facq : Nat
  outCount : Nat
  minuteOk : Bool
  minuteOnset : Bool
  ffoSum : Int
  ffoCount : Nat
  steerClamped : Bool
  deriving DecidableEq, Repr

/-- One larder entry (R295): minute, and per domain FLAGS, selected candidate and mean frequency offset. -/
structure LarderEntry where
  minute : Nat
  flagsA : Nat
  flagsB : Nat
  selA : Nat
  selB : Nat
  ffoA : Int
  ffoB : Int
  deriving DecidableEq, Repr

/-- References: the candidates that differ from reset, by index; both domains; the larder, newest entry first, and the
minute that runs; DTT of the last evaluation and of the last RS_SYSXO_SUSPECT; and TSTAT[3:0] with the DTT since which
it has been shown and the value that waits (R309, R310). -/
structure Refs where
  cands : List (Nat × Cand)
  domA : RsDom
  domB : RsDom
  larder : List LarderEntry
  minute : Nat
  lastEval : Nat
  suspectAt : Option Nat
  tstat : Nat
  tstatSince : Nat
  tstatWait : Option Nat
  deriving DecidableEq, Repr

/-- A domain's selection right after reset, with the defaults of R299 to R302 and of RS_SET_TIMERS. -/
def RsDom.reset : RsDom :=
  { qlMode := false, hoLimit := 100, slewThr := 1000, hoFreq := 10000, hoAging := 100000, force := none, txn := none,
    lastTxn := none, switches := 0, buildout := 0, bound := none, boundAtSel := none, selectedAt := 0, b0 := none, hoStart := 0,
    hoValue := 0, fromHoldover := false, steer := 0, loopE := [], facq := 0, outCount := 0, minuteOk := false, minuteOnset := false,
    ffoSum := 0, ffoCount := 0, steerClamped := false }

/-- Candidate `i` right after reset (R275, R279, R282, R283): REFIN nominally 10 MHz and compared at 1 MHz, PPSIN and GNSS
compared at 1 Hz, line references OFF. -/
def Cand.reset (i : Nat) : Cand :=
  { timeKind := false, nomFreq := if i < 4 then 10000000000 else if i < 8 then 1000 else 1000000000,
    cmpDiv := if i < 4 then 10 else 1, accK := 31, accOwn := none, drift := 10000, soft := 2000000,
    hard := 10000000, qualS := 10, wtrS := 300, lineMode := 0, lineDomain := 0, linePort := 0, present := none, timer := none,
    wtrUntil := none, wasLost := false, everQualified := false, lastLoss := 0, samples := [], y := none, ys := [], within := none,
    onset := false, slope := 0 }

/-- Outer-loop settings of one domain (R319): bandwidth in mHz, damping in 0.01, windows in ps, counts. -/
structure LoopCfg where
  bw : Nat
  damp : Nat
  nFast : Nat
  nSlow : Nat
  winFast : Nat
  winSlow : Nat
  deriving DecidableEq, Repr

/-- An edge of an output that a change of phase or frequency has placed (R145, R334): the TK80 instant of the edge before it, its own, and whether it
rises. -/
structure OutEdge where
  last : Nat
  next : Nat
  rising : Bool
  deriving DecidableEq, Repr

/-- One output beside its registers, CLKOUT0-7 as 0 to 7 and PPSOUT0-3 as 8 to 11: HOLD, PHASE asked for and reached
(R335), whether it is squelched and since when the served state has been outside SQ_MASK (R336), whether a change of
OSYN or D waits for its restart (R339), a PPSOUT's RATE, PERIOD_S and WIDTH, and the edge that the last change of phase or frequency has placed. -/
structure OutDyn where
  hold : Bool
  phase : Int
  phaseNow : Int
  squelched : Bool
  clear : Option Nat
  retune : Bool
  rate : Nat
  periodS : Nat
  width : Nat
  edge : Option OutEdge
  deriving DecidableEq, Repr

/-- Timing DPLL and outputs beside their registers: both loops' settings; whether the inner loop has locked since reset
(R309, R316); the cause of a search (R341); whether PL_BAND_MARGIN has been raised; outputs by number; the latest message
on TOD_TX, the latest PPSIN0 edge and its label (R332, R333); the start of a held steer (R39, R40); and whether a search takes all bands (R316, R318). -/
structure Dpll where
  loopA : LoopCfg
  loopB : LoopCfg
  everLocked : Bool
  outs : List (Nat × OutDyn)
  todTx : Bytes
  ppsEdge : Option Nat
  todLabel : Option (Nat × Nat)
  holdStart : Option Nat
  searchAll : Bool
  deriving DecidableEq, Repr

/-- The defaults of R319. -/
def LoopCfg.reset : LoopCfg := ⟨1000, 500, 4096, 16, 2000, 20000⟩

/-- A navigation record held (R368 to R370): almanac (0) or ephemeris (1), system, PRN, format, its blocks, and whether it was
loaded by command. -/
structure NavRec where
  kind : Nat
  system : Nat
  prn : Nat
  format : Nat
  blocks : List Bytes
  loaded : Bool
  deriving DecidableEq, Repr

/-- One GNSS solution beside its GN_SOL registers (R352 to R366): settings of GN_ENABLE, a RATE that waits, the start it
acquires from (R350: 0 cold, 1 warm, 2 hot), whether GN_SET_POSITION makes its next epoch INVALID, end of the SPOOF hold with the
check that found it, epochs in a row off the held position, VALID epochs of the last 60 s (DTT, T_G less DTT), each system's
offsets of the last hour (system, DTT, 100 ps), the delay last applied, the offsets last solved, when it last had a satellite, the
survey (ticks, fixes, sums), the satellites used and excluded (place in the view, check), and the leap last announced. -/
structure GnSol where
  systems : Nat
  refSys : Nat
  flags : Nat
  rate : Nat
  rateNext : Option Nat
  elev : Nat
  cn0 : Nat
  aid : Nat
  holdS : Nat
  start : Nat
  command : Bool
  spoofUntil : Option Nat
  spoofCheck : Nat
  offPos : Nat
  valids : List (Nat × Int)
  isos : List (Nat × Nat × Int)
  delay : Int
  iso : List Int
  lastSat : Nat
  surveyed : Nat
  fixes : Nat
  sumX : Int
  sumY : Int
  sumZ : Int
  used : List Nat
  excluded : List (Nat × Nat)
  leap : Option (Int × Nat)
  deriving DecidableEq, Repr

/-- GNSS timing receiver (R343 to R374): both solutions, the shared baseband's settings (LO, SPS, spacing of each band), survey
duration, held position (cm), antenna delays (2⁻¹⁶ ns) and their uncertainty (ps), the satellites of the last epoch, and the
navigation records held. -/
structure Gnss where
  solA : GnSol
  solB : GnSol
  loA : Nat
  spsA : Nat
  loB : Nat
  spsB : Nat
  spacingA : Nat
  spacingB : Nat
  surveyS : Nat
  x : Int
  y : Int
  z : Int
  delayA : Nat
  delayB : Nat
  unc : Nat
  view : List GnSat
  nav : List NavRec
  deriving DecidableEq, Repr

/-- A solution right after reset: OFF, with the defaults of R364. -/
def GnSol.reset : GnSol :=
  { systems := 0, refSys := 0, flags := 0, rate := 1, rateNext := none, elev := 0, cn0 := 0, aid := 255, holdS := 300, start := 0,
    command := false, spoofUntil := none, spoofCheck := 0, offPos := 0, valids := [], isos := [], delay := 0, iso := [], lastSat := 0,
    surveyed := 0, fixes := 0, sumX := 0, sumY := 0, sumZ := 0, used := [], excluded := [], leap := none }

/-- A frequency gate of an input (R388, R389): the ticks at which it opens and closes, whether a cause of INVALID has come up, and
of the stamps so far, k and t counted from the first: N, that first pair, Σk, Σt, Σk², Σkt and Σt². -/
structure EmGate where
  opens : Nat
  closes : Nat
  bad : Bool
  n : Nat
  k0 : Nat
  t0 : Nat
  sk : Int
  st : Int
  skk : Int
  skt : Int
  stt : Int
  deriving DecidableEq, Repr

/-- One event input beside its EM registers (R377 to R385): standard, EDGE, PRE, STORE_N, ring THRESH and HOLDOFF, IN_CORR with the
tick since which it holds and the value before, qualified edges counted, the last stamped edge in 2⁻²⁴ tick, edges missed since it,
edges missed in the running second and that second, stamps since the last stored one, the FIFO's entries, whether the next entry
carries LOSS, stamps discarded since the last EM_FIFO_LOSS and its DTT, and the gate. -/
structure EventIn where
  std : Nat
  edge : Nat
  pre : Nat
  storeN : Nat
  thresh : Nat
  holdoff : Nat
  corr : Int
  corrFrom : Nat
  corrOld : Int
  edges : Nat
  last : Option Int
  missed : Nat
  missedNew : Nat
  missSec : Nat
  stored : Nat
  entries : List Bytes
  loss : Bool
  lostNew : Nat
  lossAt : Option Nat
  gate : Option EmGate
  deriving DecidableEq, Repr

/-- A stamp that a pair unit holds open: TK80, MISSED, INVALID. -/
structure OpenItem where
  stamp : Nat
  missed : Bool
  invalid : Bool
  deriving DecidableEq, Repr

/-- One pair unit (R386). -/
structure PairUnit where
  en : Bool
  start : Nat
  stop : Nat
  pairOnly : Bool
  win : Nat
  openStart : Option OpenItem
  openStop : Option OpenItem
  deriving DecidableEq, Repr

/-- Event and frequency measurement (R375 to R395): inputs and pair units that differ from reset, and the instant, in eighths of a
tick, up to which the moves from the FIFOs to the rings reach at 20 ns each (R385). -/
structure EventMeas where
  inputs : List (Nat × EventIn)
  units : List (Nat × PairUnit)
  movedTo : Nat
  deriving DecidableEq, Repr

/-- An input right after reset: rising edges, PRE 1. -/
def EventIn.reset : EventIn :=
  { std := 0, edge := 1, pre := 1, storeN := 0, thresh := 0, holdoff := 0, corr := 0, corrFrom := 0, corrOld := 0, edges := 0,
    last := none, missed := 0, missedNew := 0, missSec := 0, stored := 0, entries := [], loss := false, lostNew := 0, lossAt := none,
    gate := none }

/-- A pair unit right after reset. -/
def PairUnit.reset : PairUnit := ⟨false, 0, 0, false, 0, none, none⟩

/-- A frame the device holds: the source it entered by, its bytes from the destination address through the FCS as far as
they have arrived, whether all have arrived and whether they checked bad, its ingress stamp (TK80) and whether that is
invalid, with the domain served then, its step counter and QC, VID and PCP after assignment (R405) and whether its port takes TPID 0x88A8, what a rule gave it (capture tag, STAMP
mark, DSCP), whether it has recirculated, the TAG of a transmit descriptor that asks for a stamp, its memory cells, how many
of them it charges to the shared part, copies not yet finished, and whether a cell of it is poisoned (R493). -/
structure Frame where
  src : Nat
  data : Bytes
  whole : Bool
  bad : Bool
  tIn : Nat
  inBad : Bool
  domIn : Nat
  stepIn : Nat
  qcIn : Nat
  vid : Nat
  pcp : Nat
  sTag : Bool
  capTag : Nat
  mark : Bool
  dscp : Option Nat
  recirc : Bool
  hostTag : Option Nat
  cells : List Nat
  shared : Nat
  copies : Nat
  broken : Bool
  holdBad : Bool
  deriving DecidableEq, Repr

/-- The frame a source is receiving (R409): its bytes so far are the frame's; where the decision sent it (pool frame, merge
group or release group, by number), or that it was discarded; whether it is a direct-path start with the egress stamps
of its outputs as (lane, stamp, invalid); whether a PTP session has claimed it; whether its stamp point or line code is bad; and whether a slip fell into it
(R425). -/
structure RxFrame where
  frame : Frame
  pool : Option Nat
  merge : Option Nat
  release : Option Nat
  dp : Bool
  outs : List (Nat × Nat × Bool)
  claimed : Bool
  fecBad : Bool
  slipped : Bool
  deriving DecidableEq, Repr

/-- A copy of a pool frame in an egress queue: frame number, whether it goes by cut-through (R413), its VID, whether it is
routed with the DMAC of a next hop (none: kept, R412), whether it takes no VLAN edit (DIRECT, R417), its ECN mark
(R485), where it stands (0 on chip, 1 staging, 2 DDR5), its DDR5 cells, and for the host port its trap reason (8: none) and
net ring. -/
structure Copy where
  frame : Nat
  ct : Bool
  vid : Nat
  routed : Bool
  dmac : Option Nat
  direct : Bool
  ecn : Bool
  place : Nat
  ddr : List Nat
  reason : Nat
  ring : Nat
  deriving DecidableEq, Repr

/-- An egress queue beside its BF_Q registers: its copies, oldest first, and its DWRR deficit in bytes (R486). -/
structure QueueDyn where
  copies : List Copy
  deficit : Int
  deriving DecidableEq, Repr

/-- What an egress sends at present: a queued copy (`kind` 0) with its queue, a merged frame (1), a release copy (2) or a merge
base frame (3), with its group; a merged frame's bytes, sequence number and trailer, predicted egress stamp
(R182), whether the frame carries an operation of R184, the tick of its start, the bytes of a merged, release or base frame; and at the stamp whether it is
invalid and the served domain's QC. -/
structure TxFrame where
  kind : Nat
  copy : Copy
  queue : Nat
  group : Nat
  frame : Frame
  seq : Nat
  pred : Nat
  predMark : Bool
  start : Nat
  extra : Bytes
  inv : Bool
  qc : Nat
  deriving DecidableEq, Repr

/-- Forwarding settings of a source 0 to 48 that no register holds (SW_PORT_FORWARD): MAX_FRAME, default PCP, ingress
filtering, S_TAG, host interface MAC, IPv4 and IPv6 address. -/
structure SwPort where
  maxFrame : Nat
  pcp : Nat
  filter : Bool
  sTag : Bool
  mac : Nat
  ipv4 : Nat
  ipv6 : Nat
  deriving DecidableEq, Repr

/-- A VLAN (SW_SET_VLAN). -/
structure Vlan where
  flags : Nat
  members : Nat
  untagged : Nat
  rmac : Nat
  deriving DecidableEq, Repr

/-- A link aggregation group (SW_SET_LAG): hash selection, member ports and selection table. -/
structure Lag where
  hashSel : Nat
  members : Nat
  table : List Nat
  deriving DecidableEq, Repr

/-- A classification rule (SW_RULE_WRITE). -/
structure Rule where
  key : Bytes
  mask : Bytes
  act : Nat
  target : Nat
  queue : Nat
  dscp : Nat
  ring : Nat
  capTag : Nat
  deriving DecidableEq, Repr

/-- The forwarding pipeline beside its registers: sources, VLANs, groups and rules that differ from reset, frames in reception by
source, frames in transmission by egress, the bytes of the last frame that left each egress, FCS included, and the members of groups that are out of
service, as group × 64 + port (R408). -/
structure Switch where
  ports : List (Nat × SwPort)
  vlans : List (Nat × Vlan)
  lags : List (Nat × Option Lag)
  rules : List (Nat × Option Rule)
  rx : List (Nat × Option RxFrame)
  tx : List (Nat × Option TxFrame)
  sent : List (Nat × Bytes)
  lagOut : List Nat
  deriving DecidableEq, Repr

/-- An exact-match entry (R435): its key block (R437), EFLAGS (STATIC 1, LOCK 2, HIT 4) and destination. -/
structure FtEntry where
  key : Bytes
  eflags : Nat
  destType : Nat
  gen : Nat
  dest : Nat
  deriving DecidableEq, Repr

/-- A route (FT_ROUTE_WRITE): KIND, PLEN and PREFIX as payload bytes 0 to 19, then RTYPE, GEN and next hop; its first
unit in the route table; whether it is a poisoned placeholder (R469). -/
structure Route where
  key : Bytes
  rtype : Nat
  gen : Nat
  nh : Nat
  units : List Nat
  broken : Bool
  deriving DecidableEq, Repr

/-- A next hop (FT_ROUTE_WRITE): payload bytes 4 to 13 and its GEN and VALID, and whether it is poisoned (R469). -/
structure NextHop where
  dmac : Nat
  lag : Bool
  egress : Nat
  vid : Nat
  gen : Nat
  valid : Bool
  broken : Bool
  deriving DecidableEq, Repr

/-- An open walk (R455 to R460): filter, cursor as a place in the walk order (bank 0 buckets, bank 1 buckets, stash slots, tail
keys), the tail's key blocks, keys that found no place there, and the DTT of the last FT_WALK_NEXT. -/
structure Walk where
  filter : Bytes
  cursor : Nat
  tail : List Bytes
  lost : Nat
  last : Nat
  deriving DecidableEq, Repr

/-- Forwarding tables beside their registers: exact-match entries by LOC (R433); routes; next hops by index; the learn filter's
keys with the DTT they were accepted, oldest first (R448); tokens of the learn limiter in 10⁻¹¹ token and the DTT they
were counted; notifications discarded since the last learn record, and in the running second with that second (R470); the
open walk; and of the ager the location it visits next, the start of its scan and that scan's period (R451). -/
structure Tables where
  slots : List (Nat × Option FtEntry)
  routes : List Route
  nexthops : List (Nat × Option NextHop)
  filter : List (Nat × Nat)
  tokens : Nat
  tokensAt : Nat
  dropped : Nat
  lossNew : Nat
  lossSec : Nat
  walk : Option Walk
  ageNext : Nat
  ageStart : Nat
  agePeriod : Nat
  deriving DecidableEq, Repr

/-- A member of a replication group (BF_MCAST_GROUP). -/
structure Member where
  type : Nat
  index : Nat
  vid : Nat
  routed : Bool
  deriving DecidableEq, Repr

/-- Buffers beside their registers: frames in the pool by number, the number of the next, queues by source × 8 + queue, shaper
balances in 10⁻⁵ byte with the DTT they were counted by source × 9 + shaper (R487), the DWRR queue each source visits
(R486), replication groups, FREE_WARN and
whether BF_POOL_LOW is armed (R495), how many pool cells the spill staging part holds, and the spill
engine's moves of the last millisecond as (DTT, whether a read, cells); when the engine is free for its next move, in thirds of a
tick, and for its next read, in fifths (R482); and of the shaper on firmware's own transmission (R678) the
frames it holds as (egress, bytes), oldest first, its episodes since the last GD_VIOL and when that was raised. -/
structure Buffers where
  frames : List (Nat × Option Frame)
  next : Nat
  queues : List (Nat × QueueDyn)
  shapers : List (Nat × Option (Int × Nat))
  visits : List (Nat × Nat)
  groups : List (Nat × List Member)
  freeWarn : Nat
  lowArmed : Bool
  staged : Nat
  moved : List (Nat × Bool × Nat)
  engineFree : Nat
  readFree : Nat
  mgmtHeld : List (Nat × Bytes)
  mgmtEpisodes : Nat
  mgmtViolAt : Option Nat
  deriving DecidableEq, Repr

/-- A frame a merge group holds (R502): the frame, its key K and the trim applied, whether it is late (R507), and the order in
which it became whole (none: not whole). -/
structure HeldFrame where
  frame : Frame
  key : Int
  trim : Int
  late : Bool
  wholeAt : Option Nat
  deriving DecidableEq, Repr

/-- A happening counted over the last millisecond (R520, R543): when each fell, and when its event was last raised. -/
structure PerMs where
  times : List Nat
  raised : Option Nat
  deriving DecidableEq, Repr

/-- A merge group beside its registers: BASE_DMAC, held frames in the order they entered, the pair (K, source) of the last frame
that began transmission and was not late, the last key of each member (R501), frames that became whole so far, frames sent
SHORT in this episode and whether the first of it has been reported, holds of the last millisecond as (DTT, ns), and the
late and full counts. -/
structure MergeGroup where
  baseDmac : Nat
  held : List HeldFrame
  last : Option (Int × Nat)
  lastKeys : List (Nat × Int)
  wholes : Nat
  shortSent : Nat
  shortNew : Bool
  holds : List (Nat × Nat)
  late : PerMs
  full : PerMs
  deriving DecidableEq, Repr

/-- A merge group right after reset. -/
def MergeGroup.reset : MergeGroup := ⟨0, [], none, [], 0, 0, false, [], ⟨[], none⟩, ⟨[], none⟩⟩

/-- A scheduled release copy: its port, the instant of its stamp point (TK80), and whether it is late (R531), sending, or has
left or been discarded. -/
structure RelCopy where
  port : Nat
  start : Nat
  late : Bool
  sending : Bool
  done : Bool
  deriving DecidableEq, Repr

/-- A frame a release group holds: the frame, whether it has been decided, FSEQ, R_g (TK80), its copies, ports that sent on time, copies
counted ER_LATE, PARTIAL, and whether a stamp of it was invalid. -/
structure RelFrame where
  frame : Frame
  decided : Bool
  fseq : Nat
  rg : Nat
  copies : List RelCopy
  sent : Nat
  nLate : Nat
  partly : Bool
  invalid : Bool
  deriving DecidableEq, Repr

/-- A release group beside its registers: held frames and its counts of the last millisecond (R543). -/
structure RelGroup where
  held : List RelFrame
  aon : PerMs
  late : PerMs
  full : PerMs
  deriving DecidableEq, Repr

/-- A release group right after reset. -/
def RelGroup.reset : RelGroup := ⟨[], ⟨[], none⟩, ⟨[], none⟩, ⟨[], none⟩⟩

/-- An evidence record on its way to the module (R556): type, flags, source, stamp and its 48-byte body. -/
structure EvdRec where
  rtype : Nat
  rflags : Nat
  src : Nat
  stamp : Nat
  body : Bytes
  deriving DecidableEq, Repr

/-- A closed block whose header is kept (R568): epoch, number and its 256 bytes. -/
structure EvdHeader where
  epoch : Nat
  block : Nat
  bytes : Bytes
  deriving DecidableEq, Repr

/-- The evidence module beside its registers: the epoch counter of the always-on domain and the module's reserve
(R564, R565), records waiting to enter (R563), the open block (records in RSEQ order, discards, start, largest class,
states and bound of the interval, whether a step fell in it, BOOT, TWIN_ACTIVE reference XREF), the hash of the
previous block, a period that starts at the next boundary (R558), the headers of the last 256 blocks (R568), headers
that wait for their signature (R562), the evidence ring's addresses and threshold with the slots written since the
last write-back (R567), slots lost in the last millisecond (R568), whether EVD_LOSS has
been raised for the open block, whether blocks are open, and the arithmetic engine's island (R37). -/
structure Evidence where
  epoch : Nat
  reserve : Nat
  waiting : List EvdRec
  records : List Bytes
  dropped : Nat
  dttStart : Nat
  kMax : Nat
  states : Nat
  boundMax : Nat
  stepSeen : Bool
  boot : Bool
  xref : Bytes
  prev : Bytes
  nextPeriod : Option Nat
  store : List EvdHeader
  signing : List EvdHeader
  ringBase : Nat
  wbAddr : Nat
  ringThresh : Nat
  sinceWb : Nat
  ringLost : PerMs
  lossRaised : Bool
  isOpen : Bool
  engineAwake : Bool
  deriving DecidableEq, Repr

/-- One net ring beside its registers (R545 to R548): base, THRESH, HOLDOFF, whether it has been set, items written
since enable, whether the next head entry carries LOSS, and the items lost in the last millisecond. -/
structure NetRing where
  base : Nat
  thresh : Nat
  holdoff : Nat
  isSet : Bool
  items : Nat
  lossPending : Bool
  lost : PerMs
  deriving DecidableEq, Repr

/-- One capture selector (R550, R551): its settings as CAP_SELECT gives them, and the frames it has counted. -/
structure Selector where
  flags : Nat
  ring : Nat
  trunc : Nat
  n : Nat
  ports : Nat
  capTag : Nat
  count : Nat
  deriving DecidableEq, Repr

/-- A twin control frame (R575): TYPE, whether its sender's strap is preferred, per-type sequence number, the sender's event stamp,
the numbers of its body in the order of R575's table, and the bytes it carries (command entry and payload, or a block hash). -/
structure TwinFrame where
  type : Nat
  pref : Bool
  seq : Nat
  stamp : Nat
  fields : List Int
  data : Bytes
  deriving DecidableEq, Repr

/-- The partner's latest heartbeat (R575): when it came, state, QC of both domains, CLAIM, FAULT, strap and serial number. -/
structure Heartbeat where
  when : Nat
  state : Nat
  qcA : Nat
  qcB : Nat
  claim : Nat
  fault : Bool
  pref : Nat
  serial : Nat
  deriving DecidableEq, Repr

/-- A mirrored command the standby has received and not finished (R578): MIRROR_SEQ, opcode, TAG, the instant at which it applies
here, and whether that had passed on arrival. -/
structure MirrorIn where
  seq : Nat
  opcode : Nat
  tag : Nat
  instant : Option Nat
  late : Bool
  deriving DecidableEq, Repr

/-- Twin operation beside the TW registers (R572 to R587): the control frames last sent, newest first, eight at most; the next sequence number by
TYPE; the partner's latest heartbeat and since when it shows FAULT; when the state was entered; HB_MISS (µs), TW_BW, TWCLK_DELAY,
the outputs held while not active, WTR_S and the running timer's end; samples in a row within 50 ps and beyond 200 ps; whether
DTT_OFFSET is due; the mirrored commands received and not finished, oldest first; as the active, the commands forwarded and not completed by MIRROR_SEQ, with the standby's
status and DETAIL once it has acknowledged (R122); the active's latest block hash (epoch, block, BH); when a heartbeat and a TIME
frame last left. -/
structure Twin where
  sent : List TwinFrame
  seqs : List (Nat × Nat)
  hb : Option Heartbeat
  faultFrom : Option Nat
  entered : Nat
  hbMiss : Nat
  bw : Nat
  delay : Nat
  holdMask : Nat
  wtrS : Nat
  wtrUntil : Option Nat
  inRun : Nat
  outRun : Nat
  offDue : Bool
  mirrors : List MirrorIn
  forwarded : List (Nat × Option (Nat × Nat))
  bh : Option (Nat × Nat × Bytes)
  lastHb : Nat
  lastTime : Nat
  deriving DecidableEq, Repr

/-- A repeat-correction tracker entry (R615): word, 0 SEEN, 1 SEEN with its write-back on the way, 2 WRITTEN, and the DTT
of its first correction. -/
structure TrackEntry where
  word : Nat
  stage : Nat
  first : Nat
  deriving DecidableEq, Repr

/-- A merge buffer entry (R613): word, the bytes it covers, the DTT of its last write. -/
structure MergeEntry where
  word : Nat
  bytes : Nat
  last : Nat
  deriving DecidableEq, Repr

/-- What the summary of R621 holds of one memory: words read, corrections, write-backs, STUCK marks, uncorrectable words, acts,
and whether it was scrubbed completely or skipped. -/
structure MemSum where
  read : Nat
  corr : Nat
  wb : Nat
  stuck : Nat
  ue : Nat
  acted : Nat
  complete : Bool
  skipped : Bool
  deriving DecidableEq, Repr

/-- Memory protection beside its registers. A word is MEM × 2⁴⁰ + ADDR. Stored errors as the set of inverted bits (bytes of a parity
word, devices of a DDR5 burst); sticky injections; the tracker, oldest first; STUCK words; the merge buffer, oldest first;
cells in quarantine on chip, in DDR5 and in timed-hold memory; the summary since `began`: per memory, its list of (word, 1
uncorrectable or 2 STUCK) and whether the list overflowed; when MP_TRACK_OVF was last raised; whether Leinnar must restart for its memory (R619). -/
structure MemProt where
  errs : List (Nat × Nat)
  sticky : List (Nat × Nat)
  tracker : List TrackEntry
  stuck : List Nat
  merge : List MergeEntry
  quarChip : List Nat
  quarDdr : List Nat
  quarHold : List Nat
  began : Nat
  sums : List (Nat × MemSum)
  list : List (Nat × Nat)
  listOvf : Bool
  ovfAt : Option Nat
  restart : Bool
  deriving DecidableEq, Repr

/-- A calibration run in progress (R627, R637, R642): its target KIND × 64 + INDEX, the parts still to run (0 TDC, 1 THRESH or DELAY,
2 LATENCY), the part bits accepted, the part rejected with its check code, X_A of the last part accepted, the line-rate index that
LATENCY measures, whether a command, start-up, or the device itself runs it (0, 1, 2), and whether the inner loop has lost its lock
during the part (R629). -/
structure CalRun where
  target : Nat
  parts : List Nat
  accepted : Nat
  rejected : Option (Nat × Nat)
  xa : Nat
  rate : Nat
  origin : Nat
  lost : Bool
  deriving DecidableEq, Repr

/-- Self-calibration (R627 to R644): the runs in progress, oldest first; the parts that await their acceptance instant (target, part,
temperature, value tested); DTT and die temperature (1/16 °C) of the last run of the device channels. -/
structure Calib where
  runs : List CalRun
  accepting : List (Nat × Nat × Int × Int)
  deviceAt : Nat
  deviceTemp : Int
  deriving DecidableEq, Repr

/-- A slot of the flash directory (R646, R647): state, version, boot failures and the KIND that its last check found. -/
structure FwSlot where
  state : Nat
  version : Nat
  fails : Nat
  kind : Nat
  deriving DecidableEq, Repr

/-- Firmware beside its registers (R645 to R663). Kept in flash over a main reset: the bytes that are not erased (0xFF), by flash offset,
the directory with its sequence number, and the slot of the next start. Beside it the settings of the FW_ACTIVATE in force, the slot of
the handover or trial, the slot a trial falls back to, whether the old bank is resident, whether the freeze in progress goes back to it,
when the phase was entered, when the trial began, what FW_STATUS tells of the last freeze, hold and failure, and whether Leinnar restarts
at the next decision point or is starting now. -/
structure Firmware where
  flash : List (Nat × Nat)
  slots : List FwSlot
  dirSeq : Nat
  next : Nat
  auto : Bool
  healthS : Nat
  target : Nat
  prev : Nat
  resident : Bool
  back : Bool
  since : Nat
  trialAt : Nat
  lastFreeze : Nat
  lastHold : Nat
  lastFail : Nat
  restartDue : Bool
  starting : Bool
  deriving DecidableEq, Repr

/-- The owner lock: the SHA-384 hash of the owner's key (empty while clear), policy and tamper settings (R680, R681). -/
structure OwnerLock where
  hash : Bytes
  policy : Nat
  tamper : Nat
  deriving DecidableEq, Repr

/-- Security beside its registers (R668 to R688): the owner lock of the always-on domain and its copy in the evidence module's store;
the SVN floor and whether the module is zeroised, both kept in that store; the latest nonce with its DTT, until it is used; requests to
the DRBG and DTT of its last seed; tamper inputs whose action waits for the next start. -/
structure Security where
  owner : OwnerLock
  ownerNv : OwnerLock
  svn : Nat
  zeroised : Bool
  nonce : Option (Nat × Nat)
  drbgReqs : Nat
  drbgAt : Nat
  tamperDue : List Nat
  deriving DecidableEq, Repr

/-- One copy of the anchor (R705): AO tick, FT96 of the served domain there, and sequence number. -/
structure Anchor where
  tick : Nat
  ft : Nat
  seq : Nat
  deriving DecidableEq, Repr

/-- The always-on domain, which a main reset leaves as it is (R704): the latest AO tick known, whether its contents have been lost, the
crystal, both anchor copies with the one in force first and whether they are valid, tamper flags, counts and the time of the first
activation. -/
structure AlwaysOn where
  tick : Nat
  lost : Bool
  xtalOk : Bool
  anchor : Anchor
  anchorOld : Anchor
  anchorValid : Bool
  flags : Nat
  count0 : Nat
  count1 : Nat
  tamperTime : Nat
  deriving DecidableEq, Repr

/-- Board settings of the configuration record (R41, R79, R699, R700): subsystem vendor and device ID, the SMBus address, the DDR5 channels it
lists and whether it sets DDR_TEST. -/
structure Board where
  subVendor : Nat
  subDevice : Nat
  smbAddr : Nat
  ddrListed : Nat
  ddrTest : Bool
  deriving DecidableEq, Repr

/-- Without a configuration record: subsystem IDs 0, SMBus address 0x5A, no channel listed (R41, R79, R703). -/
def Board.reset : Board := ⟨0, 0, 0x5A, 0, false⟩

/-- A command that an FK2410 image's section becomes (R703): the section's number in the image, opcode and payload. -/
structure ImageCmd where
  part : Nat
  opcode : Nat
  payload : Bytes
  deriving DecidableEq, Repr

/-- Bring-up (R691 to R710): whether main reset holds, its lowest cause, the BOOT_SEL strap, whether the contents of the always-on domain
were found lost at this start, whether the configuration region holds an FK2410 image, whether the first segments have been opened,
channels of DDR5 that trained, and the tick at which an accepted HST_RESET takes effect; the board settings; of an FK2410 image (R703) the commands
still to execute, the number of its sections, those the table of R703 does not name, and the sections with a command that was refused. -/
structure Boot where
  inReset : Bool
  cause : Nat
  bootSel : Bool
  aoLost : Bool
  cfgImage : Bool
  opened : Bool
  ddr : Nat
  hstResetAt : Option Nat
  board : Board
  image : List ImageCmd
  sections : Nat
  skipped : Nat
  refused : List Nat
  deriving DecidableEq, Repr

/-- An erased slot. -/
def FwSlot.reset : FwSlot := ⟨0, 0, 0, 0⟩

/-- Firmware of a device whose flash is erased. -/
def Firmware.reset : Firmware :=
  { flash := [], slots := List.replicate 5 FwSlot.reset, dirSeq := 0, next := 0, auto := false, healthS := 0, target := 0, prev := 0,
    resident := false, back := false, since := 0, trialAt := 0, lastFreeze := 0, lastHold := 0, lastFail := 0, restartDue := false,
    starting := false }

/-- The state of the device. `pending` is the queue of commands that wait, first in, first out. -/
structure State where
  /-- Commands waiting, oldest first. -/
  pending : List Instr
  /-- Device tick time, 64 bits (R17, R18). -/
  dtt : Nat
  /-- Register fields that differ from their reset value, by `Fld.key` (Machine/Regs.lean). -/
  regs : List (Nat × Nat)
  /-- Host memory as the device has written it. -/
  hostMem : Memory
  /-- How many free values the model has drawn (the model's own field). -/
  freeCount : Nat
  /-- Event unit (R70 to R78). -/
  evu : EventUnit
  /-- What each ring keeps beside its registers, by ring number. -/
  rings : List (Nat × RingDyn)
  /-- Bus interfaces. -/
  bus : Bus
  /-- Mailbox (chapter Bluem command protocol). -/
  mbx : Mbx
  /-- Islands that are awake, in rising order (R35): ports 0 to 47, pipeline halves 48 and 49, DDR channels 50 and 51, GNSS baseband 52, event TDCs 53 to 60, twin link 61. -/
  islands : List Nat
  /-- The 24,576 counters of 64 bits (R590), by index. -/
  counters : List (Nat × Nat)
  /-- Time base (chapter Time base, domains and stamp formats). -/
  tb : TimeBase
  /-- Registers whose value changes at an instant x_c, by the address of their (low) word (R180, R263, R501, R527). -/
  timed : List (Nat × Timed)
  /-- Stamp FIFOs that are not empty and fresh: of port p, 2p for RX and 2p + 1 for TX (R189). -/
  fifos : List (Nat × StampFifo)
  /-- Lanes that differ from reset, by lane index (R203, R234). -/
  lanes : List (Nat × Lane)
  /-- Calibration records that differ from reset, by KIND × 64 + INDEX (R627, R628). -/
  calRecs : List (Nat × CalRec)
  /-- Time transfer over fibre. -/
  tt : TimeXfer
  /-- References, selection and holdover. -/
  refs : Refs
  /-- Timing DPLL and outputs. -/
  dpll : Dpll
  /-- GNSS timing receiver. -/
  gn : Gnss
  /-- Event and frequency measurement. -/
  em : EventMeas
  /-- Forwarding pipeline and direct path. -/
  sw : Switch
  /-- Forwarding tables and learning. -/
  ft : Tables
  /-- Buffers, queues and replication. -/
  bf : Buffers
  /-- Merge groups that differ from reset. -/
  merges : List (Nat × MergeGroup)
  /-- Release groups that differ from reset. -/
  releases : List (Nat × RelGroup)
  /-- Evidence module. -/
  evd : Evidence
  /-- Net rings NR0 to NR7 that have been set, by number. -/
  netRings : List (Nat × NetRing)
  /-- Capture selectors 0 to 15 that differ from disabled, by number. -/
  selectors : List (Nat × Selector)
  /-- Twin operation. -/
  tw : Twin
  /-- Frames that each latency sampler has counted since its configuration (R602). -/
  ctSeen : List (Nat × Nat)
  /-- Tick from which bandwidth windows count (R601). -/
  bwFrom : Nat
  /-- End of the last long window written, by port × 2 + direction (R600). -/
  bwEnds : List (Nat × Nat)
  /-- Memory protection and scrubbing. -/
  mp : MemProt
  /-- Self-calibration. -/
  cal : Calib
  /-- Firmware slots, handover and trial. -/
  fw : Firmware
  /-- Security, owner lock and the evidence module's store. -/
  sec : Security
  /-- Always-on domain. -/
  ao : AlwaysOn
  /-- Bring-up and main reset. -/
  boot : Boot
  deriving DecidableEq, Repr

/-- The device right after reset: registers at their reset values (`regs` lists none that differs), queues, rings and
tables empty, DTT 0 (R18), every island asleep. -/
def State.reset : State where
  pending := []
  dtt := 0
  regs := []
  hostMem := []
  freeCount := 0
  evu := ⟨[], [], 0, false, none⟩
  rings := []
  bus := ⟨[], [], [], [], [], 0, [], 0, false, 0, [], [], 0, 0, false, [], (0, 0)⟩
  mbx := ⟨⟨0, [], [], [], false⟩, ⟨0, [], [], [], false⟩, none, 0, 0, 0, none, none, [], false, 0, false, 0⟩
  islands := []
  counters := []
  tb := ⟨⟨[⟨0, 0, 0⟩], 0, 0, 0, 0, 20, [], none, false, [], 0, 0, false⟩, ⟨[⟨0, 0, 0⟩], 0, 0, 0, 0, 20, [], none, false, [], 0, 0, false⟩, none, none, 0, false, 0, [], [],
    false⟩
  timed := []
  fifos := []
  lanes := []
  calRecs := []
  tt := ⟨[], [], [], [], [], [], [], 0, 0, 0, 0⟩
  refs := ⟨[], RsDom.reset, RsDom.reset, [], 0, 0, none, 7, 0, none⟩
  dpll := ⟨LoopCfg.reset, LoopCfg.reset, false, [], [], none, none, none, false⟩
  gn := ⟨GnSol.reset, GnSol.reset, 0, 0, 0, 0, 0, 0, 600, 0, 0, 0, 0, 0, 0, [], []⟩
  em := ⟨[], [], 0⟩
  sw := ⟨[], [], [], [], [], [], [], []⟩
  ft := ⟨[], [], [], [], 102400000000000, 0, 0, 0, 0, none, 0, 0, 300⟩
  bf := ⟨[], 0, [], [], [], [], 0, true, 0, [], 0, 0, [], 0, none⟩
  merges := []
  releases := []
  evd := ⟨0, 0, [], [], 0, 0, 0, 0, 0, false, false, List.replicate 32 0, List.replicate 32 0, none, [], [], 0, 0, 0, 0, ⟨[], none⟩, false, false, false⟩
  netRings := []
  selectors := []
  tw := ⟨[], [], none, none, 0, 100, 100, 0, 0, 300, none, 0, 0, false, [], [], none, 0, 0⟩
  ctSeen := []
  bwFrom := 0
  bwEnds := []
  mp := ⟨[], [], [], [], [], [], [], [], 0, [], [], false, none, false⟩
  cal := ⟨[], [], 0, 0⟩
  fw := Firmware.reset
  sec := ⟨⟨[], 0, 0⟩, ⟨[], 0, 0⟩, 0, false, none, 0, 0, []⟩
  ao := ⟨0, false, true, ⟨0, 0, 0⟩, ⟨0, 0, 0⟩, false, 0, 0, 0, 0⟩
  boot := ⟨true, 1, false, false, false, false, 0, none, Board.reset, [], 0, 0, []⟩

end Sys2Proof.Machine
end

