-- ==== Sys2Proof/Machine/Ops.lean ====
section
/-! DEFINITION. The named operations every meaning is written with: register fields, host memory, MSI-X, event
records and the event ring (R70 to R78), rings of that kind, access faults and guard violations (R64, R70), and
values the manual leaves open. -/

set_option Elab.async false

namespace Sys2Proof.Machine

/-- The outcome of a command of this block. -/
abbrev Out := Host.Outcome State Fault Refusal

/-! ### Register fields -/

/-- The value of a register field. -/
def State.getF (s : State) (f : Fld) : Nat :=
  match s.regs.find? (fun e => e.1 = f.key) with
  | some e => e.2
  | none => resetOf f.key

/-- The state with a register field at `v`, narrowed to the field's width. -/
def State.setF (s : State) (f : Fld) (v : Nat) : State :=
  { s with regs := spSet (resetOf f.key) s.regs f.key (v % 2 ^ f.width) }

/-- Whether a one-bit field is 1. -/
def State.isF (s : State) (f : Fld) : Bool := s.getF f = 1

/-- The state with a one-bit field set from a truth value. -/
def State.setB (s : State) (f : Fld) (b : Bool) : State := s.setF f (b2n b)

/-- The device sets a W1C bit: it stands at 1, and the tick is kept (R66). -/
def State.raiseBit (s : State) (f : Fld) : State :=
  { (s.setB f true) with bus := { s.bus with raised := spSet 0 s.bus.raised f.key (s.dtt + 1) } }

/-- A write of 1 to a W1C bit clears it; a bit that the device has set in the same CCLK ends set (R66). -/
def State.clearBit (s : State) (f : Fld) : State :=
  if spGet 0 s.bus.raised f.key = s.dtt + 1 && Config.sameCclk s.dtt f.key then s else s.setF f 0

/-- A counting field advanced by `n`, holding at its largest value. -/
def State.addSat (s : State) (f : Fld) (n : Nat) : State := s.setF f (sat (2 ^ f.width - 1) (s.getF f + n))

/-- A counting field advanced by `n`, wrapping. -/
def State.addWrap (s : State) (f : Fld) (n : Nat) : State := s.setF f (s.getF f + n)

/-- A field that is a whole 32-bit word at offset `a`. -/
def word (a : Nat) : Fld := ⟨a, 0, 32⟩

/-- The 64-bit value of the pair whose _LO word is at offset `a` (R48). -/
def State.get64 (s : State) (a : Nat) : Nat := s.getF (word a) + 2 ^ 32 * s.getF (word (a + 4))

/-- The state with the pair at offset `a` holding `v`. -/
def State.set64 (s : State) (a v : Nat) : State := (s.setF (word a) v).setF (word (a + 4)) (v / 2 ^ 32)

/-- The signed 64-bit value of a pair. -/
def State.getI64 (s : State) (a : Nat) : Int := sext 64 (s.get64 a)

/-- The state with a pair holding a signed value. -/
def State.setI64 (s : State) (a : Nat) (v : Int) : State := s.set64 a (twos 64 v)

/-- The 96-bit value of words W0 to W2 from offset `a` on (R131). -/
def State.get96 (s : State) (a : Nat) : Nat := s.get64 a + 2 ^ 64 * s.getF (word (a + 8))

/-- The state with words W0 to W2 from offset `a` on holding `v` (R131). -/
def State.set96 (s : State) (a v : Nat) : State := (s.set64 a v).setF (word (a + 8)) (v / 2 ^ 64)

/-- The word at BAR0 offset `off` as its fields make it, 0 where no register stands there. -/
def State.regWord (s : State) (off : Nat) : Nat :=
  match regAt off with
  | none => 0
  | some d => (d.fields.map (fun f => s.getF ⟨off, f.lo, f.hi - f.lo + 1⟩ * 2 ^ f.lo)).sum

/-- The signed value of a field. -/
def State.getI (s : State) (f : Fld) : Int := sext f.width (s.getF f)

/-- The state with a field holding a signed value. -/
def State.setI (s : State) (f : Fld) (v : Int) : State := s.setF f (twos f.width v)

/-! ### Values the manual leaves open -/

/-- The next free value and the state that has drawn it. -/
def State.draw (s : State) : Nat × State := (Config.free s.freeCount, { s with freeCount := s.freeCount + 1 })

/-! ### Host memory and MSI-X -/

/-- The device writes `bs` to host memory from address `a` on. -/
def State.dma (s : State) (a : Nat) (bs : Bytes) : State := { s with hostMem := memWriteBytes s.hostMem a bs }

/-- Whether the MSI-X table entry of vector `v` is masked: vector control bit 0, which PCIe resets to 1 (R47, R69). -/
def msixMasked (b : Bus) (v : Nat) : Bool := bit (spGet 1 b.msixTable (v * 16 + 12)) 0

/-- Vector `v` is signalled: sent when its table entry is unmasked, otherwise its pending bit is set (R69). -/
def State.signalVector (s : State) (v : Nat) : State :=
  if msixMasked s.bus v then { s with bus := { s.bus with pba := maskOf (v :: members s.bus.pba 64) } }
  else { s with bus := { s.bus with msixSent := spSet 0 s.bus.msixSent v (spGet 0 s.bus.msixSent v + 1) } }

/-! ### Rings that follow R71 to R78 -/

/-- The registers of one ring: number, base pair, EN, LOG2SZ, CFG_ERR, PHASE, producer and consumer index, hold-off
in microseconds, threshold, the bytes of a slot, the valid sizes and the MSI-X vector. -/
structure RingRegs where
  id : Nat
  base : Nat
  en : Fld
  log : Fld
  err : Fld
  phase : Fld
  prod : Fld
  cons : Fld
  holdoff : Fld
  thresh : Fld
  slot : Nat
  minLog : Nat
  maxLog : Nat
  vector : Nat

/-- The event ring (R71). -/
def evrRing : RingRegs :=
  ⟨0, Reg.hstEvrBase, Reg.hstEvrCfgEn, Reg.hstEvrCfgLog2sz, Reg.hstEvrCfgCfgErr, Reg.hstEvrProdPhase, Reg.hstEvrProdIndex,
    Reg.hstEvrConsIndex, Reg.hstEvrIrqHoldoff, Reg.hstEvrIrqThresh, 32, 6, 16, 0⟩

/-- The session record ring (R271). -/
def ttRing : RingRegs :=
  ⟨3, Reg.ttRecBase, Reg.ttRecCfgEn, Reg.ttRecCfgLog2sz, Reg.ttRecCfgCfgErr, Reg.ttRecProdPhase, Reg.ttRecProdIndex,
    Reg.ttRecConsIndex, Reg.ttRecIrqHoldoff, Reg.ttRecIrqThresh, 32, 6, 16, 13⟩

/-- The learn ring (R450). -/
def learnRing : RingRegs :=
  ⟨4, Reg.ftLrnBase, Reg.ftLrnCfgEn, Reg.ftLrnCfgLog2sz, Reg.ftLrnCfgCfgErr, Reg.ftLrnProdPhase, Reg.ftLrnProdIndex,
    Reg.ftLrnConsIndex, Reg.ftLrnIrqHoldoff, Reg.ftLrnIrqThresh, 32, 6, 16, 12⟩

/-- What a ring keeps beside its registers. -/
def State.ringDyn (s : State) (r : Nat) : RingDyn := spGet ⟨[], false⟩ s.rings r

/-- The state with the ring's own record replaced. -/
def State.setRing (s : State) (r : Nat) (d : RingDyn) : State := { s with rings := spSet ⟨[], false⟩ s.rings r d }

/-- Whether the ring is in use: EN is 1 with a valid size (R71). -/
def ringUsable (R : RingRegs) (s : State) : Bool := s.isF R.en && !s.isF R.err

/-- Slots of the ring. -/
def ringSize (R : RingRegs) (s : State) : Nat := 2 ^ s.getF R.log

/-- The ring is full when advancing INDEX would make it equal to the consumer index (R73). -/
def ringFull (R : RingRegs) (s : State) : Bool := (s.getF R.prod + 1) % ringSize R s = s.getF R.cons

/-- Unconsumed slots of the ring. -/
def ringUsed (R : RingRegs) (s : State) : Nat := (s.getF R.prod + ringSize R s - s.getF R.cons) % ringSize R s

/-- The interrupt condition of a ring (R78): unconsumed slots reach THRESH (0 counts as 1), or HOLDOFF microseconds
(781.25 ticks each) have passed since the oldest unconsumed slot was written. -/
def ringCondition (R : RingRegs) (s : State) : Bool :=
  let ts := (s.ringDyn R.id).times
  decide (max 1 (s.getF R.thresh) ≤ ts.length) ||
  (match ts with
   | [] => false
   | t :: _ => decide (s.getF R.holdoff * 78125 ≤ (s.dtt - t) * 100))

/-- A ring whose condition is met and not yet signalled since CONS advanced signals its vector; the event ring also
sets HST_IRQ_STATUS.EVR (R78). -/
def ringSignal (R : RingRegs) (s : State) : State :=
  if ringCondition R s && !(s.ringDyn R.id).signalled then
    let s := s.setRing R.id { s.ringDyn R.id with signalled := true }
    let s := s.signalVector R.vector
    if R.id = 0 then s.raiseBit Reg.hstIrqStatusEvr else s
  else s

/-- One slot is written: `bs` (with the ring's PHASE) at INDEX, then INDEX advances and PHASE inverts at the wrap (R71). -/
def ringPut (R : RingRegs) (bs : Bool → Bytes) (s : State) : State :=
  let ix := s.getF R.prod
  let s := s.dma (s.get64 R.base + ix * R.slot) (bs (s.isF R.phase))
  let nx := (ix + 1) % ringSize R s
  let s := s.setF R.prod nx
  let s := if nx = 0 then s.setB R.phase (!s.isF R.phase) else s
  let d := s.ringDyn R.id
  ringSignal R (s.setRing R.id { d with times := d.times ++ [s.dtt] })

/-- Setting EN with a valid size: INDEX 0, PHASE 1, nothing unconsumed (R71). -/
def ringReset (R : RingRegs) (s : State) : State :=
  ((s.setF R.prod 0).setB R.phase true).setRing R.id ⟨[], false⟩

/-- A consumer index below the ring's size is taken (R74): the slots it passes are consumed and the condition can be
signalled again (R78). The answer is false where the index is out of range. -/
def ringConsume (R : RingRegs) (ix : Nat) (s : State) : Bool × State :=
  if ringSize R s ≤ ix then (false, s)
  else
    let n := (ix + ringSize R s - s.getF R.cons) % ringSize R s
    let d := s.ringDyn R.id
    (true, ringSignal R ((s.setF R.cons ix).setRing R.id ⟨d.times.drop n, if n = 0 then d.signalled else false⟩))

/-! ### Event records -/

/-- The served domain: 0 forewing, 1 hindwing (R26). -/
def State.served (s : State) : Nat := s.getF Reg.tbStateServed

/-- Quality code of a domain (R11). -/
def State.qc (s : State) (d : Nat) : Nat := s.getF (Reg.tbDStatusQc d)

/-- QC state of a domain, QC[7:5] (R11). -/
def State.qcState (s : State) (d : Nat) : Nat := s.qc d / 32

/-- Whether the inner stability loop is locked (R315). -/
def State.innerLocked (s : State) : Bool := s.isF Reg.plStatusInnerLock

/-- An event record as 32 bytes, with its PHASE and LOSS (R70). -/
def EventRec.encode (e : EventRec) (phase loss : Bool) : Bytes :=
  record 32
    [(0, le 8 e.stamp), (8, le 1 e.src), (9, le 1 e.sev), (10, le 2 e.code), (12, le 4 e.seq), (16, le 1 e.qc),
     (17, le 1 (b2n phase + 2 * b2n e.invalid + 4 * b2n loss + 8 * b2n e.late)), (18, le 2 e.stepc),
     (20, e.payload.take 12)]

/-- An event is raised at `stamp`: below MINSEV it is not produced (R75); otherwise it enters the ordering hold (R76).
An ALARM sets HST_STATUS.ALARM and HST_IRQ_STATUS.ALARM and signals vector 3. -/
def raiseAt (stamp src sev code : Nat) (payload : Bytes) (s : State) : State :=
  let s := if sev = 3 then
      ((s.raiseBit Reg.hstStatusAlarm).raiseBit Reg.hstIrqStatusAlarm).signalVector 3
    else s
  if sev < s.getF Reg.hstEvrCfgMinsev then s
  else
    let e : EventRec :=
      { stamp := stamp, src := src, sev := sev, code := code, qc := s.qc s.served, invalid := !s.innerLocked,
        stepc := s.getF (Reg.tbDStepc s.served) % 2 ^ 16, payload := payload, late := false, seq := 0 }
    { s with evu := { s.evu with held := s.evu.held ++ [e] } }

/-- An event is raised now. `fs` are (byte offset in the record, bytes) of its payload, bytes 20 to 31. -/
def raiseEv (src sev code : Nat) (fs : List (Nat × Bytes)) (s : State) : State :=
  raiseAt s.dtt src sev code (record 12 (fs.map (fun f => (f.1 - 20, f.2)))) s

/-! ### Counters without memory protection -/

/-- Counter index of the device block at offset `off` (R590). -/
def devCtr (off : Nat) : Nat := 23808 + off

/-- The value of counter `c` (R590). -/
def State.counter (s : State) (c : Nat) : Nat := spGet 0 s.counters c

/-- Counter `c` advances by `n`; passing 2^64 − 1 it wraps and sets its bit of CT_OVF (R593). -/
def countRaw (c n : Nat) (s : State) : State :=
  let v := s.counter c + n
  let s := { s with counters := spSet 0 s.counters c (v % 2 ^ 64) }
  if v < 2 ^ 64 then s
  else s.setF (Reg.ctOvf (c / 32)) (maskOf (c % 32 :: members (s.getF (Reg.ctOvf (c / 32))) 32))

/-! ### Memory protection: reads and writes of protected words (R608 to R619) -/

/-- A protected word: MEM and ADDR (R608). -/
def mpWord (mem addr : Nat) : Nat := mem * 2 ^ 40 + addr

/-- MEM of a protected word. -/
def mpMem (w : Nat) : Nat := w / 2 ^ 40

/-- ADDR of a protected word. -/
def mpAddr (w : Nat) : Nat := w % 2 ^ 40

/-- What a summary holds of memory `m` (R621). -/
def State.memSum (s : State) (m : Nat) : MemSum := spGet ⟨0, 0, 0, 0, 0, 0, false, false⟩ s.mp.sums m

/-- The state with a memory's summary replaced. -/
def State.setMemSum (s : State) (m : Nat) (x : MemSum) : State :=
  { s with mp := { s.mp with sums := spSet ⟨0, 0, 0, 0, 0, 0, false, false⟩ s.mp.sums m x } }

/-- An address found uncorrectable (1) or marked STUCK (2) joins the summary's list of 64 (R621). -/
def mpList (w kind : Nat) (s : State) : State :=
  if s.mp.list.length < 64 then { s with mp := { s.mp with list := s.mp.list ++ [(w, kind)] } }
  else { s with mp := { s.mp with listOvf := true } }

/-- A memory-protection event (R625). INJECTED is set from READY on: every error stored in the model comes from MP_INJECT, and what the
start-up tests find does not. -/
def mpEvent (sev code w : Nat) (scrub : Bool) (s : State) : State :=
  raiseEv 128 sev code [(20, le 1 (mpMem w)), (21, le 1 (b2n (s.isF Reg.hstStatusReady) + 2 * b2n scrub)), (24, le 8 (mpAddr w))] s

/-- MP_STATUS.TRACK_OCC follows the tracker. -/
def setTracker (t : List TrackEntry) (s : State) : State :=
  { (s.setF Reg.mpStatusTrackOcc t.length) with mp := { s.mp with tracker := t } }

/-- The tracker entry that a new address replaces when all 32 are held: the oldest SEEN, otherwise the oldest WRITTEN (R618). -/
def trackVictim (t : List TrackEntry) : Nat :=
  match t.findIdx? (fun e => e.stage ≠ 2) with | some i => i | none => 0

/-- A new address enters the tracker (R615, R618). -/
def trackNew (w : Nat) (s : State) : State :=
  let t := s.mp.tracker
  if t.length < 32 then setTracker (t ++ [⟨w, 0, s.dtt⟩]) s
  else
    let v := trackVictim t
    let old := (t.getD v ⟨0, 0, 0⟩).word
    let s := setTracker (t.eraseIdx v ++ [⟨w, 0, s.dtt⟩]) (s.addSat Reg.mpTrack 1)
    let quiet : Bool := match s.mp.ovfAt with | none => true | some x => decide (x + 781250000 ≤ s.dtt)
    if quiet then mpEvent 1 0x1004 old false { s with mp := { s.mp with ovfAt := some s.dtt } } else s

/-- BF_QUAR follows the quarantined cells (R493). -/
def showQuar (s : State) : State :=
  (s.setF Reg.bfQuarChip (sat 0xFFFF s.mp.quarChip.length)).setF Reg.bfQuarDdr (sat 0xFFFF s.mp.quarDdr.length)

/-- An on-chip cell is quarantined. -/
def quarChip (c : Nat) (s : State) : State :=
  if s.mp.quarChip.contains c then s else showQuar { s with mp := { s.mp with quarChip := s.mp.quarChip ++ [c] } }

/-- A timed-hold cell is quarantined. -/
def quarHold (c : Nat) (s : State) : State :=
  if s.mp.quarHold.contains c then s else { s with mp := { s.mp with quarHold := s.mp.quarHold ++ [c] } }

/-- A word becomes STUCK (R617): slots of MEM 4 count as occupied, cells of MEM 2 and 3 are quarantined, DDR5 cells retire. -/
def mpStick (w : Nat) (scrub : Bool) (s : State) : State :=
  let retired := s.mp.stuck.any (fun x => mpMem x = 12 && mpAddr x / 4 = mpAddr w / 4)
  let s := countRaw (devCtr 26) 1 { s with mp := { s.mp with stuck := s.mp.stuck.filter (· ≠ w) ++ [w] } }
  let m := mpMem w
  let x := s.memSum m
  let s := mpEvent 1 0x1002 w scrub (mpList w 2 (s.setMemSum m { x with stuck := x.stuck + 1 }))
  if m = 2 then quarHold (mpAddr w / 2) s
  else if m = 3 then quarChip (mpAddr w / 2) s
  else if m = 12 && !retired then
    let s := (s.addWrap Reg.bfRetired 1).set64 Reg.bfSpillCap (s.get64 Reg.bfSpillCap - 1)
    raiseEv 113 1 0x0B04 [(24, le 8 (mpAddr w / 4))] s
  else s

/-- A correction at a word (R612, R615). -/
def mpCorrection (w : Nat) (scrub : Bool) (s : State) : State :=
  let m := mpMem w
  let x := s.memSum m
  let s := countRaw (devCtr 24) 1 (s.setMemSum m { x with corr := x.corr + 1 })
  match s.mp.tracker.find? (fun e => e.word = w) with
  | none => trackNew w s
  | some e =>
    if e.stage = 2 then mpStick w scrub (setTracker (s.mp.tracker.filter (fun y => y.word ≠ w)) s)
    else if e.stage = 1 then s
    else setTracker (s.mp.tracker.map (fun y => if y.word = w then { y with stage := 1 } else y)) s

/-- A write of the whole word (R615, R623): its errors go, a sticky injection inverts its bits again, its tracker entry goes. -/
def mpWrite (w : Nat) (s : State) : State :=
  if s.mp.errs = [] ∧ s.mp.tracker = [] ∧ s.mp.sticky = [] then s
  else
    let s := { s with mp := { s.mp with errs := spSet 0 s.mp.errs w (spGet 0 s.mp.sticky w) } }
    if s.mp.tracker.any (fun e => e.word = w) then setTracker (s.mp.tracker.filter (fun e => e.word ≠ w)) s else s

/-- Frames of the pool that hold cell `c` are poisoned with it (R493). -/
def poisonChip (c : Nat) (s : State) : State :=
  let hit (f : Frame) : Bool := f.cells.contains c
  let s := { s with bf := { s.bf with frames := s.bf.frames.map (fun e =>
    (e.1, e.2.map (fun f => if hit f then { f with broken := true } else f))) } }
  raiseEv 113 2 0x0B03 [(20, le 1 0), (24, le 8 c)] (quarChip c s)

/-- Frames spilled to DDR5 cell `c` are poisoned with it (R493). -/
def poisonDdr (c : Nat) (s : State) : State :=
  let hit := (s.bf.queues.map (fun q => q.2.copies.filter (fun x => x.ddr.contains c))).flatten.map (·.frame)
  let s := { s with bf := { s.bf with frames := s.bf.frames.map (fun e =>
    (e.1, e.2.map (fun f => if hit.contains e.1 then { f with broken := true } else f))) } }
  let s := if s.mp.quarDdr.contains c then s
    else showQuar { s with mp := { s.mp with quarDdr := s.mp.quarDdr ++ [c] } }
  raiseEv 113 2 0x0B03 [(20, le 1 1), (24, le 8 c)] s

/-- The timed-hold cells of the frame that holds cell `c`, held or in transmission; `c` alone where none does. -/
def holdCells (c : Nat) (s : State) : List Nat :=
  let has (f : Frame) : Option (List Nat) := if f.cells.contains c then some f.cells else none
  let all := s.merges.findSome? (fun e => e.2.held.findSome? (fun h => has h.frame))
  let all := all.orElse (fun _ => s.releases.findSome? (fun e => e.2.held.findSome? (fun h => has h.frame)))
  let all := all.orElse (fun _ => s.sw.tx.findSome? (fun e => e.2.bind (fun t => if t.kind = 1 ∨ t.kind = 2 then has t.frame else none)))
  all.getD [c]

/-- The timed-hold frame that holds cell `c` is marked, held and in transmission, for its group to discard or its egress to end (R619): for its data
(MEM 1) with the cell quarantined, or for its descriptor (MEM 2, `desc`) with all its cells. -/
def poisonHold (desc : Bool) (c : Nat) (s : State) : State :=
  let mark (f : Frame) : Frame :=
    if f.cells.contains c then (if desc then { f with broken := true } else { f with holdBad := true }) else f
  (if desc then holdCells c s else [c]).foldl (fun s c => quarHold c s) { s with
    merges := s.merges.map (fun e => (e.1, { e.2 with held := e.2.held.map (fun h => { h with frame := mark h.frame }) })),
    releases := s.releases.map (fun e => (e.1, { e.2 with held := e.2.held.map (fun h => { h with frame := mark h.frame }) })),
    sw := { s.sw with tx := s.sw.tx.map (fun e => (e.1, e.2.map (fun t =>
      if t.kind = 0 then t else { t with frame := mark t.frame }))) } }

/-- Slots an entry of a TYPE occupies (R434). -/
def ftWidth (type : Nat) : Nat := if type = 7 then 4 else if type = 3 ∨ type = 5 ∨ type = 6 then 2 else 1

/-- TYPE of an entry: byte 0 of its key block (R437). -/
def FtEntry.type (e : FtEntry) : Nat := (e.key.getD 0 0).toNat

/-- A LOC from region, slot and bucket (R433). -/
def ftLoc (region slot bucket : Nat) : Nat := region * 2 ^ 19 + slot * 2 ^ 17 + bucket

/-- The slot number of a LOC as R608 counts slots: bank, bucket, slot; stash slots follow. -/
def slotNumber (loc : Nat) : Nat :=
  let r := loc / 2 ^ 19 % 4
  if r = 2 then 1048576 + loc % 2 ^ 17 else r * 524288 + loc % 2 ^ 17 * 4 + loc / 2 ^ 17 % 4

/-- The LOC of a slot number. -/
def slotLoc (n : Nat) : Nat :=
  if 1048576 ≤ n then ftLoc 2 0 (n - 1048576) else ftLoc (n / 524288) (n % 4) (n % 524288 / 4)

/-- The entry that occupies slot number `n`, with the LOC of its region: its region starts at most three slots before. -/
def ftHolder (n : Nat) (s : State) : Option (Nat × FtEntry) :=
  (List.range 4).findSome? (fun k =>
    if n < k ∨ (n < 1048576 ∧ n / 4 ≠ (n - k) / 4) then none
    else match spGet none s.ft.slots (slotLoc (n - k)) with
      | some e => if k < ftWidth e.type then some (slotLoc (n - k), e) else none
      | none => none)

/-- What becomes of an uncorrectable word by its memory (R619, R468, R469, R597); ACTED counts it. -/
def mpAct (w : Nat) (s : State) : State :=
  let m := mpMem w
  let a := mpAddr w
  let acted (s : State) : State := s.setMemSum m { s.memSum m with acted := (s.memSum m).acted + 1 }
  let ue (k loc sev : Nat) (s : State) : State :=
    countRaw (devCtr 3) 1 (raiseEv 112 sev 0x0A01 [(20, le 1 k), (24, le 4 loc)] s)
  if m = 0 then acted (poisonChip (a / 4) s)
  else if m = 1 then acted (poisonHold false (a / 4) s)
  else if m = 2 then acted (poisonHold true (a / 2) s)
  else if m = 3 then
    let f := s.bf.frames.findSome? (fun e => e.2.bind (fun f => if f.cells.contains (a / 2) then some f else none))
    acted ((f.elim [a / 2] (·.cells)).foldl (fun s c => poisonChip c s) s)
  else if m = 4 then
    match ftHolder (a / 2) s with
    | none => s
    | some (loc, e) =>
      let s := { s with ft := { s.ft with slots := spSet none s.ft.slots loc none } }
      let s := (List.range (2 * ftWidth e.type)).foldl (fun s k => mpWrite (mpWord 4 (2 * slotNumber loc + k)) s) s
      acted (ue 0 loc 2 s)
  else if m = 5 then
    if s.ft.routes.any (fun r => r.units.contains (a / 2)) then
      acted (ue 1 (a / 2) 2 { s with ft := { s.ft with routes := s.ft.routes.map (fun r =>
        if r.units.contains (a / 2) then { r with broken := true } else r) } })
    else s
  else if m = 6 then
    match spGet none s.ft.nexthops (a / 2) with
    | none => s
    | some n => acted (ue 2 (a / 2) 2 { s with ft := { s.ft with
        nexthops := spSet none s.ft.nexthops (a / 2) (some { n with broken := true }) } })
  else if m = 7 then
    match spGet none s.sw.rules (a / 11) with
    | none => s
    | some _ =>
      let s := (List.range 11).foldl (fun s k => mpWrite (mpWord 7 (a / 11 * 11 + k)) s) s
      acted (ue 3 (a / 11) 3 { s with sw := { s.sw with rules := spSet none s.sw.rules (a / 11) none } })
  else if m = 8 then
    let i := (s.getF Reg.rsLarderInfoNewest + 2880 - a / 3) % 2880
    if i < s.refs.larder.length then
      acted { s with refs := { s.refs with larder := s.refs.larder.modify i (fun e =>
        { e with flagsA := maskOf (3 :: members e.flagsA 8), flagsB := maskOf (3 :: members e.flagsB 8) }) } }
    else s
  else if m = 9 then
    let s := mpWrite w { s with counters := spSet 0 s.counters a 0 }
    let s := s.setF (Reg.ctOvf (a / 32)) (maskOf (a % 32 :: members (s.getF (Reg.ctOvf (a / 32))) 32))
    raiseEv 133 2 0x0F01 [(24, le 4 a)] s
  else if m = 10 then acted { s with mp := { s.mp with restart := true } }
  else if m = 11 then { s with mbx := { s.mbx with longOp := s.mbx.longOp.map (fun o => { o with recordOk := false }) } }
  else acted (poisonDdr (a / 4) s)

/-- A word found uncorrectable, whoever finds it (R619). -/
def mpLost (w : Nat) (scrub : Bool) (s : State) : State :=
  let m := mpMem w
  let x := s.memSum m
  let s := countRaw (devCtr 25) 1 (mpList w 1 (s.setMemSum m { x with ue := x.ue + 1 }))
  let s := s.set64 Reg.mpLastUe (m * 2 ^ 60 + mpAddr w)
  mpAct w (mpEvent (if m = 7 ∨ m = 10 then 3 else 2) 0x1003 w scrub s)

/-- How the code of a word takes its stored error (R609 to R611): 0 none seen, 1 corrected, 2 uncorrectable, 3 open (three or
more bits under SEC-DED). -/
def mpSeverity (w mask : Nat) : Nat :=
  let m := mpMem w
  if mask = 0 then 0
  else if m ≤ 1 then 2
  else if m = 12 then (if popCount mask 10 = 1 then 1 else 2)
  else if popCount mask 72 = 1 then 1
  else if popCount mask 72 = 2 then 2
  else 3

/-- A read of a protected word (R612, R619): 0 clean, 1 corrected, 2 uncorrectable, and what the read brings about. What three or
more wrong bits give is open (R610). -/
def mpRead (w : Nat) (scrub : Bool) (s : State) : Nat × State :=
  if s.mp.errs = [] then (0, s)
  else
    let k := mpSeverity w (spGet 0 s.mp.errs w)
    let ks := if k = 3 then (s.draw.1 % 3, s.draw.2) else (k, s)
    if ks.1 = 1 then (1, mpCorrection w scrub ks.2) else if ks.1 = 2 then (2, mpLost w scrub ks.2) else (0, ks.2)

/-- The oldest entry of the merge buffer, or the one named, is written (R613, R614): a word that is uncorrectable and not
wholly covered stays so. -/
def mergeFlush (e : MergeEntry) (s : State) : State :=
  let s := { s with mp := { s.mp with merge := s.mp.merge.filter (fun y => y.word ≠ e.word) } }
  if e.bytes ≠ 255 ∧ mpSeverity e.word (spGet 0 s.mp.errs e.word) = 2 then mpLost e.word false s
  else mpWrite e.word s

/-- A write of some bytes of a word of a SEC-DED memory enters the merge buffer (R613). -/
def mpPartial (w bytes : Nat) (s : State) : State :=
  let old := s.mp.merge.find? (fun e => e.word = w)
  let e : MergeEntry := ⟨w, maskOf (members bytes 8 ++ members ((old.map (·.bytes)).getD 0) 8), s.dtt⟩
  let rest := s.mp.merge.filter (fun y => y.word ≠ w)
  if e.bytes = 255 then mergeFlush e { s with mp := { s.mp with merge := rest } }
  else
    let s := if rest.length < 16 then s else mergeFlush (rest.headD e) s
    { s with mp := { s.mp with merge := s.mp.merge.filter (fun y => y.word ≠ w) ++ [e] } }

/-- Counter `c` advances by `n` (R593); its word is read and written under memory protection (R597). -/
def count (c n : Nat) (s : State) : State :=
  if s.mp.errs = [] then countRaw c n s
  else mpWrite (mpWord 9 c) (countRaw c n (mpRead (mpWord 9 c) false s).2)

/-! ### Counter numbers -/

/-- Counter `off` of source `n` (R590, R591). -/
def srcCtr (n off : Nat) : Nat := n * 128 + off

/-- Counter `off` of queue `q` of source `n`. -/
def queueCtr (n q off : Nat) : Nat := 6656 + (n * 8 + q) * 8 + off

/-- Counter `off` of merge group `g`. -/
def fmCtr (g off : Nat) : Nat := 22272 + g * 32 + off

/-- Counter `off` of release group `g`. -/
def erCtr (g off : Nat) : Nat := 22784 + g * 16 + off

/-- The order of records: by stamp, then by source number (R15, R76). -/
def evBefore (a b : EventRec) : Bool := decide (a.stamp < b.stamp) || (a.stamp = b.stamp && decide (a.src < b.src))

/-- The first held record in that order; among records equal in both the one that arrived first. -/
def firstHeld : List EventRec → Option EventRec
  | [] => none
  | e :: r => match firstHeld r with
    | none => some e
    | some f => if evBefore f e then some f else some e

/-- A record is written to the ring with LOSS when records have been discarded since the last one (R75). -/
def evrWrite (e : EventRec) (s : State) : State :=
  let loss := s.evu.lossPending
  let s := { s with evu := { s.evu with
    lossPending := false,
    newest := some (match s.evu.newest with | none => e.stamp | some n => max n e.stamp) } }
  count (devCtr 29) 1 (ringPut evrRing (fun ph => e.encode ph loss) s)

/-- Buffered records drain to the ring in order while it has room (R73); `n` bounds the records moved. -/
def evrDrain : Nat → State → State
  | 0, s => s
  | n + 1, s =>
    if ringUsable evrRing s && !ringFull evrRing s then
      match s.evu.buf with
      | [] => s
      | e :: r => evrDrain n (evrWrite e { s with evu := { s.evu with buf := r } })
    else s

/-- One record is discarded: counted, EVR_LOSS set, and the next record written carries LOSS (R75). -/
def evrLose (s : State) : State :=
  let s := count (devCtr 30) 1 (s.set64 Reg.hstEvrLost ((s.get64 Reg.hstEvrLost + 1) % 2 ^ 64))
  let s := s.raiseBit Reg.hstStatusEvrLoss
  { s with evu := { s.evu with lossPending := true } }

/-- The lowest severity in the internal buffer. -/
def lowestSev : List EventRec → Nat
  | [] => 4
  | e :: r => min e.sev (lowestSev r)

/-- The list without the newest record of severity `v`. -/
def dropNewest (v : Nat) (l : List EventRec) : List EventRec :=
  (l.reverse.eraseIdx (l.reverse.findIdx (fun e => e.sev = v))).reverse

/-- A record passes to the ring: it takes the next SEQ and is written, or waits in the buffer of 512 records; with the
buffer full it is discarded, except that an ALARM displaces the newest record of the lowest severity present (R73, R75). -/
def evrPass (e : EventRec) (s : State) : State :=
  let e := { e with seq := s.evu.nextSeq }
  let s := { s with evu := { s.evu with nextSeq := (s.evu.nextSeq + 1) % 2 ^ 32 } }
  let s := evrDrain 513 s
  if s.evu.buf = [] && ringUsable evrRing s && !ringFull evrRing s then evrWrite e s
  else if s.evu.buf.length < 512 then { s with evu := { s.evu with buf := s.evu.buf ++ [e] } }
  else if e.sev = 3 && decide (lowestSev s.evu.buf < 3) then
    evrLose { s with evu := { s.evu with buf := dropNewest (lowestSev s.evu.buf) s.evu.buf ++ [e] } }
  else evrLose s

/-! ### Evidence records -/

/-- A record is discarded by the module: counted in DROPPED of the open block, with EVD_LOSS once per block (R563), and
in EVD_DROPPED (R591). -/
def evdDrop (s : State) : State :=
  let s := count (devCtr 5) 1 { s with evd := { s.evd with dropped := s.evd.dropped + 1 } }
  if s.evd.lossRaised then s
  else raiseEv 116 1 0x0D01 [(24, le 4 s.evd.dropped), (28, le 4 (s.get64 Reg.evdBlock))]
    { s with evd := { s.evd with lossRaised := true } }

/-- A record sets out for the module: it waits there, or is discarded when the module is in ERROR or ZEROISED (R685,
R688) or its buffer of 16,384 records is full (R563). `fs` are (record byte offset, bytes) of its body. -/
def evdSend (rtype rflags src stamp : Nat) (fs : List (Nat × Bytes)) (s : State) : State :=
  if s.isF Reg.gdSecStatusZeroised || s.isF Reg.gdSecStatusEvdError then
    count (devCtr 5) 1 { s with evd := { s.evd with dropped := s.evd.dropped + 1 } }
  else if 16384 ≤ s.evd.waiting.length then evdDrop s
  else
    let e : EvdRec := ⟨rtype, rflags, src, stamp, record 48 (fs.map (fun f => (f.1 - 16, f.2)))⟩
    { s with evd := { s.evd with waiting := s.evd.waiting ++ [e] } }

/-! ### Access faults and guard violations -/

/-- A forbidden access: HST_STATUS.ACCESS_FAULT, HST_FAULT_ADDR and an ACCESS_FAULT record (R70). -/
def accessFault (a : Access) (write : Bool) (s : State) : State :=
  let s := count (devCtr 28) 1 (s.raiseBit Reg.hstStatusAccessFault)
  let s := s.setB Reg.hstFaultAddrWrite write
  let s := s.setF Reg.hstFaultAddrReq a.path.ctorIdx
  let s := s.setF Reg.hstFaultAddrBar (a.bar / 2)
  let s := s.setF Reg.hstFaultAddrOffset a.off
  raiseEv 131 1 1
    [(20, le 4 (a.off % 2 ^ 26 + 2 ^ 26 * (a.bar / 2))), (24, le 1 a.path.ctorIdx), (25, le 1 (b2n write + 16 * (a.be % 16))),
     (28, le 4 (if write then a.data else 0))] s

/-- Sources of a guard violation, as GD_STATUS.LAST_REASON codes them. -/
inductive GdReason where
  | locked | writeOnce | lkClear | keyFail | bound
  deriving DecidableEq, Repr

/-- The code of a reason in GD_STATUS.LAST_REASON. -/
def GdReason.code (r : GdReason) : Nat := r.ctorIdx + 1

/-- A guard violation sets GD_STATUS, GD_VIOL_ADDR and
HST_IRQ_STATUS.GD_VIOL, writes a GD_VIOL record (R64) and passes a GUARD record that covers `n` of them to the evidence
module (R679). -/
def guardViolations (n off : Nat) (req : Path) (reason : GdReason) (action : Nat) (requested applied : Int) (evWord : Nat)
    (s : State) : State :=
  let s := count (devCtr 27) 1 (s.addSat Reg.gdStatusViolCount 1)
  let s := s.setF Reg.gdStatusLastReq req.ctorIdx
  let s := s.setF Reg.gdStatusLastReason reason.code
  let s := s.raiseBit Reg.gdStatusGdViol
  let s := s.setF Reg.gdViolAddrOffset off
  let s := s.raiseBit Reg.hstIrqStatusGdViol
  let s := raiseEv 131 2 2 [(20, le 4 off), (24, le 1 req.ctorIdx), (25, le 1 reason.code), (28, le 4 evWord)] s
  evdSend 0x20 0 131 s.dtt
    [(16, le 4 off), (20, le 1 req.ctorIdx), (21, le 1 reason.code), (22, le 1 action), (24, leI 8 requested),
     (32, leI 8 applied), (40, le 4 n)] s

/-- One guard violation. -/
def guardViolation (off : Nat) (req : Path) (reason : GdReason) (action : Nat) (requested applied : Int) (evWord : Nat)
    (s : State) : State := guardViolations 1 off req reason action requested applied evWord s

end Sys2Proof.Machine
end

