-- ==== Sys2Proof/Machine/Parse.lean ====
section
/-! DEFINITION. The parser and the classification key (R402, R403), frame fields by offset, and the byte edits of a frame:
VLAN tags, IP headers and checksums, the PTP fields, the FCS (R184 to R188, R400, R412). -/

set_option Elab.async false

namespace Sys2Proof.Machine

/-- `n` bytes of a frame from offset `o` as a number in network byte order, 0 beyond its end. -/
def fb (d : Bytes) (o n : Nat) : Nat := ofBe (slice d o n)

/-- What the parser finds in the first 128 bytes of a frame (R402): number of tags, the outermost tag's TPID, VID and PCP, EtherType
after the tags, offset of what follows it, layer-3 type (1 IPv4, 2 IPv6), fragment, protocol, TOS, address bytes, offset of
the layer-4 header (0: none), ports, options or hop-by-hop header, TTL, total length of the IP packet, offset of the PTP
header (0: none) with its transport, and INCOMPLETE. -/
structure Parsed where
  tags : Nat
  tpid : Nat
  vid : Nat
  pcp : Nat
  etype : Nat
  body : Nat
  l3 : Nat
  frag : Bool
  proto : Nat
  tos : Nat
  sip : Bytes
  dip : Bytes
  l4 : Nat
  sport : Nat
  dport : Nat
  opts : Bool
  ttl : Nat
  ipLen : Nat
  ptp : Nat
  transport : Nat
  incomplete : Bool
  deriving DecidableEq, Repr

/-- Whether a TPID marks a VLAN tag. -/
def isTag (t : Nat) : Bool := t = 0x8100 || t = 0x88A8

/-- Nothing found beyond layer 2. -/
def Parsed.plain (tags tpid tci etype body : Nat) : Parsed :=
  { tags := tags, tpid := tpid, vid := tci % 4096, pcp := tci / 8192, etype := etype, body := body, l3 := 0, frag := false, proto := 0,
    tos := 0, sip := [], dip := [], l4 := 0, sport := 0, dport := 0, opts := false, ttl := 0, ipLen := 0, ptp := 0, transport := 0,
    incomplete := false }

/-- IPv6 extension headers of the types the parser knows: hop-by-hop, routing, fragment, destination options (R402). -/
def isExt (nh : Nat) : Bool := [0, 43, 44, 60].contains nh

/-- The walk over at most `n` IPv6 extension headers from next header `nh` at offset `o`: the final next header, its offset,
whether a fragment header was met and whether its offset is 0, and whether a header lay beyond byte 128. -/
def v6Walk (d : Bytes) : Nat → Nat → Nat → Bool → Bool → Nat × Nat × Bool × Bool × Bool
  | 0, nh, o, fr, first => (nh, o, fr, first, false)
  | n + 1, nh, o, fr, first =>
    if !isExt nh then (nh, o, fr, first, false)
    else if 128 < o + 8 then (nh, o, fr, first, true)
    else if nh = 44 then v6Walk d n (fb d o 1) (o + 8) true (fb d (o + 2) 2 / 8 = 0)
    else v6Walk d n (fb d o 1) (o + 8 * (fb d (o + 1) 1 + 1)) fr first

/-- Layer-4 ports and PTP over UDP, on a packet that is not a later fragment. -/
def parseL4 (d : Bytes) (o : Nat) (first : Bool) (p : Parsed) : Parsed :=
  if !(p.proto = 6 || p.proto = 17) || !first then p
  else if 128 < o + 4 then { p with incomplete := true }
  else
    let p := { p with l4 := o, sport := fb d o 2, dport := fb d (o + 2) 2 }
    if p.proto = 17 ∧ (p.dport = 319 ∨ p.dport = 320) then
      if 128 < o + 8 + 34 then { p with incomplete := true }
      else { p with ptp := o + 8, transport := p.l3 }
    else p

/-- The parser (R402). -/
def parse (d : Bytes) : Parsed :=
  let t1 := fb d 12 2
  let t2 := fb d 16 2
  let tags := if isTag t1 then (if isTag t2 then 2 else 1) else 0
  let b := 14 + 4 * tags
  let et := fb d (b - 2) 2
  let p := Parsed.plain tags (if tags = 0 then 0 else t1) (if tags = 0 then 0 else fb d 14 2) et b
  if et = 0x88F7 then { p with ptp := b, transport := 0 }
  else if et = 0x0800 then
    let hl := fb d b 1 % 16 * 4
    let fo := fb d (b + 6) 2
    let p := { p with
      l3 := 1, tos := fb d (b + 1) 1, proto := fb d (b + 9) 1, ttl := fb d (b + 8) 1, ipLen := fb d (b + 2) 2,
      sip := slice d (b + 12) 4, dip := slice d (b + 16) 4, opts := decide (20 < hl), frag := decide (fo % 0x4000 ≠ 0) }
    parseL4 d (b + hl) (fo % 0x2000 = 0) p
  else if et = 0x86DD then
    let w := v6Walk d 8 (fb d (b + 6) 1) (b + 40) false true
    let p := { p with
      l3 := 2, tos := fb d b 2 / 16 % 256, proto := w.1, ttl := fb d (b + 7) 1, ipLen := 40 + fb d (b + 4) 2,
      sip := slice d (b + 8) 16, dip := slice d (b + 24) 16, opts := fb d (b + 6) 1 = 0, frag := w.2.2.1, incomplete := w.2.2.2.2 }
    if w.2.2.2.2 then p else parseL4 d w.2.1 w.2.2.2.1 p
  else p

/-- Destination MAC. -/
def dmacOf (d : Bytes) : Nat := fb d 0 6

/-- Source MAC. -/
def smacOf (d : Bytes) : Nat := fb d 6 6

/-- The 40 bytes of the classification key (R403). -/
def classKey (d : Bytes) (p : Parsed) (src vid pcp : Nat) : Bytes :=
  let kf := p.l3 + 4 * b2n (decide (1 ≤ p.tags)) + 8 * b2n (p.tags = 2) + 16 * b2n p.frag + 32 * b2n (p.ptp ≠ 0) + 64 * b2n p.incomplete
  let eth := p.ptp ≠ 0 && p.transport = 0
  record 40
    [(0, le 1 kf), (1, le 1 src), (2, be 2 (vid + 4096 * pcp)), (4, be 2 p.etype), (6, slice d 0 6), (12, slice d 6 6),
     (18, le 1 p.proto), (19, le 1 p.tos),
     (20, if eth then [d.getD p.ptp 0] else be 2 p.sport), (22, if eth then [d.getD (p.ptp + 4) 0] else be 2 p.dport),
     (24, if p.l3 = 1 then p.sip ++ p.dip else if p.l3 = 2 then p.sip.take 8 ++ p.dip.take 8 else [])]

/-- Whether a rule's key matches where its mask is 1 (R404). -/
def keyMatches (k key mask : Bytes) : Bool :=
  ((ofLe (slice k 0 40) ^^^ ofLe (slice key 0 40)) &&& ofLe (slice mask 0 40)) = 0

/-! ### Edits -/

/-- The frame check sequence of frame bytes without FCS, as 4 bytes in sending order (R400). -/
def fcsOf (d : Bytes) : Bytes := le 4 (crc32 d)

/-- Whether a frame with its FCS checks good. -/
def fcsGood (d : Bytes) : Bool := d.drop (d.length - 4) = fcsOf (d.take (d.length - 4))

/-- The frame without its FCS. -/
def noFcs (d : Bytes) : Bytes := d.take (d.length - 4)

/-- One's-complement sum of 16-bit words folded into 16 bits. -/
def fold16 (v : Nat) : Nat :=
  let a := v % 65536 + v / 65536
  a % 65536 + a / 65536

/-- RFC 1624: a checksum after a 16-bit word goes from `old` to `new`. -/
def csumUpdate (sum old new : Nat) : Nat :=
  65535 - fold16 ((65535 - sum) + (65535 - old) + new)

/-- Sum of the 16-bit words of a byte string in network byte order. -/
def wordSum : Bytes → Nat
  | a :: b :: r => a.toNat * 256 + b.toNat + wordSum r
  | [a] => a.toNat * 256
  | [] => 0

/-- Bytes `v` at offset `o`. -/
def put (d : Bytes) (o : Nat) (v : Bytes) : Bytes := place d o v

/-- The frame without its outermost tag. -/
def popTag (d : Bytes) : Bytes := d.take 12 ++ d.drop 16

/-- The frame with a tag. -/
def pushTag (tpid vid pcp : Nat) (d : Bytes) : Bytes := d.take 12 ++ be 2 tpid ++ be 2 (vid + 8192 * pcp) ++ d.drop 12

/-- TTL or hop limit lower by one, with the IPv4 checksum (R412). -/
def decTtl (b l3 : Nat) (d : Bytes) : Bytes :=
  if l3 = 1 then
    let old := fb d (b + 8) 2
    let d' := put d (b + 8) (be 1 (old / 256 - 1))
    put d' (b + 10) (be 2 (csumUpdate (fb d (b + 10) 2) old (fb d' (b + 8) 2)))
  else put d (b + 7) (be 1 (fb d (b + 7) 1 - 1))

/-- TOS or traffic class set to `v`, with the IPv4 checksum (R412, R485). -/
def setTos (b l3 v : Nat) (d : Bytes) : Bytes :=
  if l3 = 1 then
    let old := fb d b 2
    let d' := put d (b + 1) (be 1 v)
    put d' (b + 10) (be 2 (csumUpdate (fb d (b + 10) 2) old (fb d' b 2)))
  else
    let w := fb d b 2
    put d b (be 2 (w / 4096 * 4096 + v * 16 + w % 16))

/-- The two octets of a 16-bit value exchanged. -/
def swap16 (v : Nat) : Nat := v % 256 * 256 + v / 256

/-- The checksum of the UDP datagram of frame bytes `d` over IPv6, with its pseudo-header. -/
def udpSum (p : Parsed) (d : Bytes) : Nat :=
  let u := p.ptp - 8
  let udp := fb d (u + 4) 2
  let v := (wordSum p.sip + wordSum p.dip + udp + 17 + wordSum (slice (put d (u + 6) [0, 0]) u udp)) % 65535
  65535 - v

/-- A UDP datagram after its PTP message changed from `old` to the frame's present bytes (R187): a checksum of 0 stays 0 on
IPv4; with a non-zero one and two octets after the message the last two take the change up, at their own byte position in the
one's-complement sum; otherwise the checksum field is rewritten, where it was 0 by the sum of the whole datagram (log entry 245). -/
def udpFix (p : Parsed) (old d : Bytes) : Bytes :=
  let u := p.ptp - 8
  let udp := fb d (u + 4) 2
  let msg := fb d (p.ptp + 2) 2
  let a := wordSum (slice old p.ptp msg)
  let b := wordSum (slice d p.ptp msg)
  if p.l3 = 1 ∧ fb d (u + 6) 2 = 0 then d
  else if fb d (u + 6) 2 = 0 then put d (u + 6) (be 2 (udpSum p d))
  else if msg + 10 ≤ udp then
    let o := u + udp - 2
    let odd := udp % 2 = 1
    let tail := fb d o 2
    let v := ((if odd then swap16 tail else tail) + a + (65535 * 65536 - b)) % 65535
    put d o (be 2 (if odd then swap16 v else v))
  else put d (u + 6) (be 2 (65535 - (65535 - fb d (u + 6) 2 + b + (65535 * 65536 - a)) % 65535))

/-- Whether R187 asks for a UDP-borne message to be stored whole. -/
def udpStored (p : Parsed) (d : Bytes) : Bool :=
  let u := p.ptp - 8
  p.ptp ≠ 0 && p.transport ≠ 0 && !(p.l3 = 1 && fb d (u + 6) 2 = 0) &&
    (fb d (u + 6) 2 = 0 || !decide (fb d (p.ptp + 2) 2 + 10 ≤ fb d (u + 4) 2))

/-- An amount in 2⁻¹⁶ ns added to the correctionField, with the UDP checksum following (R184 to R187). -/
def addCorrection (p : Parsed) (v : Int) (d : Bytes) : Bytes :=
  let o := p.ptp + 8
  let d' := put d o (be 8 (twos 64 (sext 64 (fb d o 8) + v)))
  if p.transport = 0 then d' else udpFix p d d'

end Sys2Proof.Machine
end

