-- ==== Sys2Proof/Machine/Operands.lean ====
section
/-! DEFINITION. The operand forms of Bluem commands: payload fields at their byte offsets (R95, the payload tables of
every chapter), the first invalid field (R116), and completion RESULT fields (R99). -/

set_option Elab.async false

namespace Sys2Proof

/-- CHAIN of the entry (R95). -/
def Cmd.chain (c : Cmd) : Bool := Machine.bit c.flags 0

/-- NO_COMPL of the entry (R95). -/
def Cmd.noCompl (c : Cmd) : Bool := Machine.bit c.flags 1

/-- EXT of the entry (R95). -/
def Cmd.ext (c : Cmd) : Bool := Machine.bit c.flags 2

/-- LOCAL of the entry (R95). -/
def Cmd.localOnly (c : Cmd) : Bool := Machine.bit c.flags 3

/-- FENCE of the entry (R95). -/
def Cmd.fence (c : Cmd) : Bool := Machine.bit c.flags 4

/-- PROG of the entry (R95). -/
def Cmd.prog (c : Cmd) : Bool := Machine.bit c.flags 5

/-- Bytes of the result buffer (R95). -/
def Cmd.bufSize (c : Cmd) : Nat := c.rlen4k * 4096

/-- The queue whose rules an entry follows: 0 for URGENT, 1 for GENERAL. -/
def Source.q : Source → Nat
  | .urgent => 0
  | _ => 1

end Sys2Proof

namespace Sys2Proof.Machine

/-- The payload field of `n` bytes at offset `o`, unsigned. -/
def cu (c : Cmd) (o n : Nat) : Nat := ofLe (slice c.payload o n)

/-- The payload field of `n` bytes at offset `o`, two's complement. -/
def ci (c : Cmd) (o n : Nat) : Int := sext (8 * n) (cu c o n)

/-- A bit of a payload byte. -/
def cbit (c : Cmd) (o n : Nat) : Bool := bit (cu c o 1) n

/-- The offset of the first field of a list of (payload offset, invalid) that is invalid, lowest offset first (R116). -/
def firstBad (l : List (Nat × Bool)) : Option Nat :=
  ((l.filter (·.2)).map (·.1)).foldl (fun m o => match m with | none => some o | some n => some (min n o)) none

/-- The reserved field of `n` payload bytes at offset `o`: invalid where one of them is not 0 (R116: DETAIL gives the field's offset). -/
def reserved (c : Cmd) (o n : Nat) : List (Nat × Bool) :=
  [(o, (List.range n).any (fun k => cu c (o + k) 1 ≠ 0))]

/-- Reserved bits of the byte at offset `o`: invalid where the byte has a bit at or above `n`. -/
def reservedAbove (c : Cmd) (o n : Nat) : Nat × Bool := (o, decide (2 ^ n ≤ cu c o 1))

/-- RESULT bytes 32 to 63 with fields (completion byte offset, bytes) placed (R99). -/
def resultOf (fs : List (Nat × Bytes)) : Bytes := record 32 (fs.map (fun f => (f.1 - 32, f.2)))

/-- What a command answers: status, DETAIL, RESULT and the bytes for its result buffer. -/
structure Reply where
  status : Nat
  detail : Nat
  result : Bytes
  buf : Bytes
  deriving DecidableEq, Repr

/-- Status codes (R115). -/
def stOk : Nat := 0x00
def stBusy : Nat := 0x01
def stBadOpcode : Nat := 0x02
def stBadLen : Nat := 0x03
def stBadArg : Nat := 0x04
def stRefused : Nat := 0x05
def stNotReady : Nat := 0x06
def stTableFull : Nat := 0x07
def stNotFound : Nat := 0x08
def stCancelled : Nat := 0x09
def stInProgress : Nat := 0x0A
def stWalkIncomplete : Nat := 0x0B
def stCalReject : Nat := 0x0C
def stIntegrity : Nat := 0x0D
def stLocked : Nat := 0x0E
def stDeferred : Nat := 0x0F
def stInternal : Nat := 0xFF

/-- ST_OK with RESULT fields. -/
def okWith (fs : List (Nat × Bytes)) : Reply := ⟨stOk, 0, resultOf fs, []⟩

/-- ST_OK alone. -/
def okReply : Reply := okWith []

/-- ST_OK with RESULT fields and bytes for the result buffer. -/
def okBuf (fs : List (Nat × Bytes)) (buf : Bytes) : Reply := ⟨stOk, 0, resultOf fs, buf⟩

/-- A status with its DETAIL and no result. -/
def failWith (status detail : Nat) : Reply := ⟨status, detail, resultOf [], []⟩

/-- ST_DEFERRED. -/
def deferred : Reply := failWith stDeferred 0

/-- The first of a list of (condition, status, DETAIL) whose condition holds (R734 order 12). -/
def firstStop : List (Bool × Nat × Nat) → Option (Nat × Nat)
  | [] => none
  | (b, st, d) :: r => if b then some (st, d) else firstStop r

end Sys2Proof.Machine
end

