-- ==== Sys2Proof/Machine/Bluem.lean ====
section
/-! DEFINITION. The Bluem command protocol: queues and hampers (R84 to R94), the start checks in the order of R734,
completion and hamper-end entries (R94, R99 to R103), stepped commands (R110, R111) and mirroring (R121, R122). -/

set_option Elab.async false

namespace Sys2Proof.Machine

/-! ### Queues -/

/-- Queue `q` of the mailbox. -/
def State.queue (s : State) (q : Nat) : Queue := if q = 0 then s.mbx.urgent else s.mbx.general

/-- The state with queue `q` replaced. -/
def State.setQueue (s : State) (q : Nat) (x : Queue) : State :=
  if q = 0 then { s with mbx := { s.mbx with urgent := x } } else { s with mbx := { s.mbx with general := x } }

/-- The completion ring of queue `q` as a ring (R100, R103). -/
def cqRing (q : Nat) : RingRegs :=
  ⟨1 + q, Reg.mbxCqBase q, Reg.mbxCfgEn q, Reg.mbxCfgCqLog2sz q, Reg.mbxCfgCfgErr q, Reg.mbxCqProdPhase q,
    Reg.mbxCqProdIndex q, Reg.mbxCqConsIndex q, Reg.mbxCqIrqHoldoff q, Reg.mbxCqIrqThresh q, 64, 4, 12, 1 + q⟩

/-- Entries of queue `q` doorbelled and not started. -/
def pendingOf (x : Queue) : Nat := (x.hampers.map (fun h => h.waiting.length)).sum

/-- MBX_STATUS.PENDING follows the queue. -/
def syncPending (q : Nat) (s : State) : State := s.setF (Reg.mbxStatusPending q) (pendingOf (s.queue q))

/-- Free slots of the completion ring. -/
def cqFree (q : Nat) (s : State) : Nat := ringSize (cqRing q) s - 1 - ringUsed (cqRing q) s

/-- Where queue `q`'s commands come from. -/
def queueSrc (q : Nat) : Source := if q = 0 then .urgent else .general

/-- Whether a command of queue `q` has started and its completion entry is still to come; one whose entry is to be discarded has none (R44). -/
def inService (q : Nat) (s : State) : Bool :=
  s.mbx.longOp.any (fun o => o.cmd.src = queueSrc q && !o.dropped) || s.mbx.held.any (fun h => h.cmd.src = queueSrc q && !h.dropped) ||
  s.mbx.ackWait.any (fun w => w.src = queueSrc q && !w.dropped)

/-- Slots a command in service holds in queue `q`'s completion ring: its final entry and, where it ends a hamper with
HEND, the hamper-end entry (R102). -/
def cqReserve (q : Nat) (s : State) : Nat :=
  if inService q s then
    match (s.queue q).hampers with
    | h :: _ => if h.hend && h.waiting = [] then 2 else 1
    | [] => 1
  else 0

/-- A completion entry as 64 bytes with its PHASE (R99). -/
def Cpl.encode (e : Cpl) (phase : Bool) : Bytes :=
  record 64
    [(0, le 2 e.tag), (2, le 2 e.opcode), (4, le 1 e.status), (5, le 1 (e.cflags + b2n phase)), (6, le 2 e.slot),
     (8, le 4 e.rused), (12, le 4 e.detail), (16, le 8 e.tStart), (24, le 8 e.tDone), (32, e.result.take 32)]

/-- An entry is written to queue `q`'s completion ring where that has a valid size: a command that had started when EN was cleared
still writes its own (R88, R101). -/
def cplPut (q : Nat) (e : Cpl) (s : State) : State :=
  if 4 ≤ s.getF (Reg.mbxCfgCqLog2sz q) ∧ s.isF (Reg.mbxCfgCfgErr q) = false then ringPut (cqRing q) (fun ph => e.encode ph) s else s

/-- The hamper-end entry of a hamper (R94). -/
def hamperEnd (h : Hamper) (now : Nat) : Cpl :=
  { tag := h.htag % 2 ^ 15, opcode := 0, status := (h.bad.map (·.1)).getD 0, cflags := 2, slot := h.firstSlot, rused := 0,
    detail := h.count, tStart := h.tStart.getD now, tDone := now,
    result := resultOf [(32, le 2 ((h.bad.map (·.2)).getD 0xFFFF))] }

/-- The hamper after one of its commands ended with `st` in slot `slot`. -/
def hamperNote (h : Hamper) (st slot : Nat) : Hamper :=
  { h with bad := (match h.bad with | some b => some b | none => if st = 0 then none else some (st, slot)), lastOk := st = 0 }

/-- The first hamper of queue `q` notes a finished command and, with none of its commands left, ends: its end entry
is written where HEND is 1 (R94). -/
def hamperFinish (q st slot now : Nat) (s : State) : State :=
  match (s.queue q).hampers with
  | [] => s
  | h :: r =>
    let h := hamperNote h st slot
    if h.waiting = [] then
      let s := s.setQueue q { s.queue q with hampers := r }
      if h.hend then cplPut q (hamperEnd h now) s else s
    else s.setQueue q { s.queue q with hampers := h :: r }

/-- Hampers of 0 commands at the front of the queue have ended at their doorbell already; waiting end entries are
written while the completion ring has a slot beyond the room R102 holds (R90). -/
def flushEnds : Nat → Nat → State → State
  | 0, _, s => s
  | n + 1, q, s =>
    match (s.queue q).endsWaiting with
    | [] => s
    | e :: r =>
      if cqReserve q s < cqFree q s then
        flushEnds n q (cplPut q { e with tStart := s.dtt, tDone := s.dtt } (s.setQueue q { s.queue q with endsWaiting := r }))
      else s

/-! ### What a command is -/

/-- What the opcode table and a chapter fix about one command: its opcode, whether URGENT accepts it, whether it is
stepped, whether it is never mirrored (R118), whether it only reports state (R83), its length rule (R96), which may rest on the payload
(`lenBy`), the first
invalid payload field (R734 order 10), the size of its result (R98; 0 for none), and its state and resource checks
(R734 order 12). -/
structure CmdSpec where
  opcode : Nat
  urgent : Bool := false
  stepped : Bool := false
  unmirrored : Bool := false
  reports : Bool := false
  lenOk : Nat → Bool
  lenBy : Cmd → Bool := fun _ => true
  args : Cmd → State → Option Nat := fun _ _ => none
  need : Cmd → State → Nat := fun _ _ => 0
  stops : Cmd → State → Option (Nat × Nat) := fun _ _ => none

/-- Opcode group (R118). -/
def groupOf (opcode : Nat) : Nat := opcode / 256

/-- Groups R118 names as never mirrored as a whole. -/
def neverMirrored (k : CmdSpec) : Bool :=
  k.unmirrored || [0x01, 0x0A, 0x0E, 0x0F, 0x10, 0x11, 0x12, 0x13].contains (groupOf k.opcode)

/-- Twin state (R572): 3 is STANDBY, 4 is ACTIVE. -/
def State.twinState (s : State) : Nat := s.getF Reg.twStatusState

/-- Whether the command goes to the standby: mirrorable, without LOCAL, on the active twin (R121). -/
def mirrors (k : CmdSpec) (c : Cmd) (s : State) : Bool :=
  !neverMirrored k && !c.localOnly && s.twinState = 4 && c.src ≠ .mirror

/-- Entry faults of R97: DETAIL of the first offending field. -/
def entryFault (c : Cmd) : Option Nat :=
  (firstBad
    [(6, decide (64 ≤ c.flags % 256) || (c.fence && c.src = .urgent)),
     (7, c.rlen4k ≠ 0 && c.raddr = 0),
     (8, (!c.ext && c.xaddr ≠ 0) || (c.ext && c.xaddr % 8 ≠ 0)),
     (16, c.raddr % 4096 ≠ 0 || (c.raddr ≠ 0 && c.rlen4k = 0))]).map (· + 0x80000000)

/-- The length rule of every command (R96). -/
def lengthOk (k : CmdSpec) (c : Cmd) : Bool :=
  k.lenOk c.len && (c.ext || decide (c.len ≤ 40)) && !(c.ext && c.len = 0)

/-- The submission slot of the entry core 0 would take next from the command's queue. -/
def headSlot (c : Cmd) (s : State) : Nat := s.getF (Reg.mbxSqHeadIndex c.src.q)

/-- Start checks of R734, orders 1 to 8: what stands before the payload is looked at. -/
def earlyCheck (k : CmdSpec) (c : Cmd) (s : State) : Option (Nat × Nat) :=
  if (c.src = .urgent || c.src = .general) && (s.queue c.src.q).cancels.contains (headSlot c s) then some (stCancelled, 0)
  else if (c.src = .urgent || c.src = .general) && c.chain &&
      (match (s.queue c.src.q).hampers with
       | h :: _ => decide (h.waiting.length < h.count) && !h.lastOk
       | [] => false) then some (stCancelled, 0)
  else match entryFault c with
    | some d => some (stBadArg, d)
    | none =>
      if c.src = .urgent && !k.urgent then some (stRefused, 1)
      else if c.src = .smbus && !(k.reports || k.opcode = 0x0103 || k.opcode = 0x0E02) then some (stRefused, 0)
      else if !s.isF Reg.hstStatusReady && c.src ≠ .image && !([0x01, 0x12, 0x13].contains (groupOf k.opcode)) then some (stNotReady, 0)
      else if s.twinState = 3 && c.src ≠ .mirror && !neverMirrored k && !c.localOnly then some (stRefused, 5)
      else if !lengthOk k c then some (stBadLen, 0)
      else none

/-- Start checks of R734, orders 9 to 12: the payload, its arguments, the result buffer, the state. -/
def lateCheck (k : CmdSpec) (c : Cmd) (s : State) : Option (Nat × Nat) :=
  if c.ext && !c.xReadable then some (stInternal, 1)
  else if !k.lenBy c then some (stBadLen, 0)
  else match k.args c s with
    | some d => some (stBadArg, d)
    | none => if c.bufSize < k.need c s then some (stBadLen, 0) else k.stops c s

/-- All start checks of R734: the first that applies, with its status and DETAIL. -/
def startCheck (k : CmdSpec) (c : Cmd) (s : State) : Option (Nat × Nat) :=
  match earlyCheck k c s with
  | some x => some x
  | none => lateCheck k c s

/-- Whether the command is forwarded to the standby: mirrorable, and its checks under R96 and R97 pass (R121). -/
def forwards (k : CmdSpec) (c : Cmd) (s : State) : Bool :=
  mirrors k c s && (earlyCheck k c s).isNone && ((c.ext && !c.xReadable) || k.lenBy c)

/-! ### The twin link's control frames -/

/-- A control frame leaves on the twin link (R575): its sequence number counts per TYPE; with the link down none leaves. -/
def twSend (type : Nat) (fields : List Int) (data : Bytes) (s : State) : State :=
  if s.isF Reg.twStatusLinkUp then
    let n := spGet 0 s.tw.seqs type
    let f : TwinFrame := ⟨type, Config.twinPref % 2 = 1, n, s.dtt, fields, data⟩
    { s with tw := { s.tw with sent := (f :: s.tw.sent).take 8, seqs := spSet 0 s.tw.seqs type ((n + 1) % 2 ^ 32) } }
  else s

/-- The 64-byte command entry of R95 that a command came in. -/
def entryBytes (c : Cmd) (opcode : Nat) : Bytes :=
  record 64 [(0, le 2 opcode), (2, le 2 c.tag), (4, le 2 c.len), (6, le 1 c.flags), (7, le 1 c.rlen4k), (8, le 8 c.xaddr), (16, le 8 c.raddr),
    (24, if c.ext then [] else c.payload.take 40)]

/-- Whether domain `d` is inside a reference switch transaction (R288). -/
def inTransaction (d : Nat) (s : State) : Bool := s.isF (Reg.rsDSelTxn d)

/-- The instant a mirrored command has fixed, 0 where it has fixed none: X_C of TB_STEP or TB_REALIGN, and X_S of TB_SET_SERVED where no
switch transaction delays it (R154, R575, R578). -/
def instantOf (opcode : Nat) (s : State) : Nat :=
  let x (d : Domain) : Nat := ((d.steps.getLast?).map (·.xc)).getD 0
  if opcode = 0x0202 ∨ opcode = 0x0205 then max (x s.tb.domA) (x s.tb.domB)
  else if opcode = 0x0206 && s.tb.switchReq.isSome && !inTransaction 0 s && !inTransaction 1 s then
    if s.tb.lastServo = s.dtt then s.dtt else s.tb.lastServo + 781250
  else 0

/-- The active forwards a mirrored command (R121, R575): its MIRROR_SEQ, entry, external payload and the instant it fixes; MIRROR_SEQ
increments (R578). -/
def mirrorOut (opcode : Nat) (c : Cmd) (mir : Bool) (s : State) : State :=
  if mir then
    let n := s.getF Reg.twMirrorSeq
    let s := { s with tw := { s.tw with forwarded := s.tw.forwarded ++ [(n, none)] } }
    (twSend 3 [(n : Int), instantOf opcode s] (entryBytes c opcode ++ (if c.ext then slice c.payload 0 c.len else [])) s).setF Reg.twMirrorSeq (n + 1)
  else s

/-- The mirrored command that the standby starts next: the oldest received that core 0 has not started (R121, R578). -/
def mirrorFront (s : State) : Option MirrorIn :=
  s.tw.mirrors.find? (fun m => decide (s.mbx.longOp.bind (·.mirror) ≠ some m.seq) && decide (s.mbx.held.bind (·.mirror) ≠ some m.seq))

/-- MIRROR_SEQ of a command that starts: that of the mirrored command it is on the standby; on the active, where it is forwarded (`fwd`), the one it
leaves with (R121, R578). -/
def mirrorSeq (c : Cmd) (fwd : Bool) (s : State) : Option Nat :=
  if c.src = .mirror then (mirrorFront s).map (·.seq)
  else if fwd then some (s.getF Reg.twMirrorSeq) else none

/-- The instant at which a command applies that the mirror has brought with one (R578). -/
def mirrorInstant (c : Cmd) (s : State) : Option Nat :=
  if c.src = .mirror then (mirrorFront s).bind (·.instant) else none

/-! ### Starting -/

/-- The queue can serve: enabled without CFG_ERR, fetching, firmware running, an entry doorbelled (R87 to R91, R117). -/
def queueServes (q : Nat) (s : State) : Bool :=
  s.isF (Reg.mbxCfgEn q) && !s.isF (Reg.mbxCfgCfgErr q) && s.isF Reg.hstStatusFwRun && !(s.queue q).fetchStopped &&
    decide (0 < pendingOf (s.queue q))

/-- Whether a stepped command of queue `q` is in progress: the next of that queue waits for it (R105). -/
def queueBusy (q : Nat) (s : State) : Bool :=
  match s.mbx.longOp with
  | some o => o.cmd.src = (if q = 0 then .urgent else .general)
  | none => false

/-- Room for the final entry and for the hamper-end entry that would follow it (R102), with no end entry waiting (R90). -/
def queueRoom (q : Nat) (s : State) : Bool :=
  (s.queue q).endsWaiting = [] &&
  (match ((s.queue q).hampers.filter (fun h => h.waiting ≠ [])) with
   | h :: _ => decide ((if h.hend && h.waiting.length = 1 then 2 else 1) ≤ cqFree q s)
   | [] => true)

/-- Doorbell order of the queue's oldest unstarted entry. -/
def headOrder (q : Nat) (s : State) : Nat :=
  match (s.queue q).hampers.filter (fun h => h.waiting ≠ []) with
  | h :: _ => h.order
  | [] => s.mbx.doorbells

/-- Whether a URGENT command doorbelled before order `n` has not completed (R106). -/
def urgentBefore (n : Nat) (s : State) : Bool :=
  (s.queue 0).hampers.any (fun h => decide (h.order < n)) ||
  (match s.mbx.longOp with | some o => o.cmd.src = .urgent | none => false)

/-- The TAG of queue `q`'s oldest unstarted entry. -/
def frontTag (q : Nat) (s : State) : Option Nat :=
  match (s.queue q).hampers.filter (fun h => h.waiting ≠ []) with
  | h :: _ => h.waiting.head?
  | [] => none

/-- What makes queue `q`'s next entry no assigned command, where it is none. -/
def frontOdd (q : Nat) (s : State) : Option OddEntry :=
  s.mbx.odd.find? (fun e => e.q = q && e.slot = s.getF (Reg.mbxSqHeadIndex q))

/-- Whether command service runs: it pauses from FREEZE until the new instar resumes it (R119), and Leinnar restarts at a decision
point before another command starts (R619, R660). -/
def serving (s : State) : Bool := s.isF Reg.hstStatusFwRun && s.getF Reg.fwStatePhase ≠ 3 && !s.fw.restartDue && !s.mp.restart

/-- Whether URGENT has an entry that can start: it goes before any other (R102, R104). -/
def urgentFirst (s : State) : Bool := queueServes 0 s && queueRoom 0 s

/-- Whether queue 1 has an entry that core 0 would take before an SMBus command: the decision point then is none that ends a GENERAL command,
and that entry is the older at its priority (R83, R109). -/
def generalFirst (s : State) : Bool :=
  !s.mbx.lastGeneral && queueServes 1 s && queueRoom 1 s && !(urgentBefore (headOrder 1 s) s)

/-- Whether core 0 takes the SMBus command at this decision point: at the priority of GENERAL, never between steps, and at a decision point that
ends a GENERAL command where GENERAL has one to end (R83, R109). -/
def smbTurn (s : State) : Bool := s.bus.smbBusy && s.mbx.longOp = none && !urgentFirst s && !generalFirst s

/-- Whether an image's next command is `c` of opcode `op` (R703). -/
def imageNext (op : Nat) (c : Cmd) (s : State) : Bool :=
  match s.boot.image with
  | [] => false
  | i :: _ => i.opcode = op && c.len = i.payload.length && c.payload = i.payload && c.flags = (if c.len ≤ 40 then 0 else 1) && c.raddr = 0 && c.rlen4k = 0 && c.xReadable

/-- Whether core 0 takes the entry at this decision point: URGENT before GENERAL, in ring order, one at a time, with
room (R102, R104 to R106); an SMBus command as R83 and R109 place it; on the standby the mirrored command that is next (R121). -/
def canStart (k : CmdSpec) (c : Cmd) (s : State) : Bool :=
  s.mbx.ackWait = none && s.mbx.held = none && serving s &&
  (match c.src with
   | .urgent => queueServes 0 s && !queueBusy 0 s && queueRoom 0 s && frontTag 0 s = some c.tag && (frontOdd 0 s).isNone
   | .general => queueServes 1 s && !queueBusy 1 s && queueRoom 1 s && frontTag 1 s = some c.tag && (frontOdd 1 s).isNone && s.mbx.longOp = none &&
       !urgentFirst s && !(c.fence && urgentBefore (headOrder 1 s) s)
   | .smbus => smbTurn s && c.tag = s.bus.smbTag && (s.mbx.odd.find? (fun e => e.q = 2)).isNone
   | .mirror => s.twinState = 3 && (mirrorFront s).any (fun m => m.tag = c.tag && m.opcode = k.opcode)
   | .image => s.boot.cfgImage && !s.isF Reg.hstStatusReady && s.mbx.longOp = none && imageNext k.opcode c s) &&
  !(k.stepped && s.mbx.longOp ≠ none)

/-- Whether the entry waits for room alone: CQ_STALL is set then (R102). -/
def stalls (c : Cmd) (s : State) : Bool :=
  (c.src = .urgent || c.src = .general) && queueServes c.src.q s && !queueRoom c.src.q s

/-- The entry is taken at T_START `now`: the head moves, its hamper counts it started, a cancellation of it is spent. -/
def takeEntry (c : Cmd) (now : Nat) (s : State) : State :=
  let s := { s with mbx := { s.mbx with startedAt := now } }
  if c.src = .urgent || c.src = .general then
    let q := c.src.q
    let x := s.queue q
    let slot := headSlot c s
    let hs := match x.hampers with
      | h :: r => { h with waiting := h.waiting.drop 1, tStart := (match h.tStart with | none => some now | t => t) } :: r
      | [] => []
    let s := s.setQueue q { x with hampers := hs, cancels := x.cancels.filter (· ≠ slot) }
    syncPending q (s.setF (Reg.mbxSqHeadIndex q) ((slot + 1) % 2 ^ s.getF (Reg.mbxCfgSqLog2sz q)))
  else s

/-- Processor time in ticks of the next command or step: open below the 50 µs of R107 and R110. -/
def procTicks (s : State) : Nat := Config.procTime s.mbx.executed % 39063

/-- The event stamp at which a command arrived: its hamper's doorbell, or the SMBus write (R89, R83). -/
def arrival (c : Cmd) (s : State) : Nat :=
  match c.src with
  | .urgent | .general => (match (s.queue c.src.q).hampers.filter (fun h => h.waiting ≠ []) with | h :: _ => h.rung | [] => s.dtt)
  | .smbus => s.bus.smbAt
  | _ => s.dtt

/-- T_START of a command whose row stands now, at the end of its processor time (or of its first step's): that time before now, and not before
core 0 was free and the command had arrived. Its effect and its entries stand at T_DONE, inside the interval of R108. -/
def startStamp (c : Cmd) (s : State) : Nat := max (s.dtt - procTicks s) (min s.dtt (max s.mbx.core0Free (arrival c s)))

/-- CFLAGS.RESUMED of a command that starts: it waited through a pause of command service (R119, R655). -/
def resumes (c : Cmd) (s : State) : Bool :=
  match c.src with
  | .urgent | .general => decide (headOrder c.src.q s < s.mbx.resumedUpTo)
  | .smbus => s.mbx.smbResumed
  | _ => false

/-! ### Completing -/

/-- The result buffer takes the reply's bytes up to its size; where it cannot be written the command ends with
ST_INTERNAL and DETAIL 2 (R98, R116). -/
def writeBuf (c : Cmd) (r : Reply) (s : State) : Reply × Nat × State :=
  let bs := r.buf.take c.bufSize
  if bs = [] then (r, 0, s)
  else if c.bufWritable then (r, bs.length, s.dma c.raddr bs)
  else (failWith stInternal 2, 0, s)

/-- A mirrored command has finished on the standby: its acknowledgement, TW_LAST_MIRROR and TW_LAST_MIRROR_ST, with TAKEN across a takeover
(R575, R578, R583). -/
def mirrorDone (seq : Option Nat) (e : Cpl) (s : State) : State :=
  match s.tw.mirrors.find? (fun m => seq = some m.seq) with
  | none => s
  | some m =>
    let s := (s.setF Reg.twLastMirrorOpcode m.opcode).setF Reg.twLastMirrorTag m.tag
    let s := (s.setF Reg.twLastMirrorStStatus e.status).setB Reg.twLastMirrorStTaken (s.twinState ≠ 3)
    twSend 4 [(m.seq : Int), e.status, if m.late then 0x0E10 else e.detail] []
      { s with tw := { s.tw with mirrors := s.tw.mirrors.filter (fun x => x.seq ≠ m.seq) } }

/-- An FK2410 image's command has ended: the next one follows; a status other than ST_OK counts its section as refused (R703). -/
def imageDone (e : Cpl) (s : State) : State :=
  match s.boot.image with
  | [] => s
  | i :: r => { s with boot := { s.boot with image := r
                                             refused := if e.status = 0 ∨ s.boot.refused.contains i.part = true then s.boot.refused
                                                        else s.boot.refused ++ [i.part] } }

/-- The completion entry of a command reaches its requester: the queue's ring with hamper accounting, or the SMBus completion (R80). A mirrored
command has none on the standby (R122), nor has an image's command. -/
def deliver (c : Cmd) (e : Cpl) (hasEntry : Bool) (s : State) : State :=
  match c.src with
  | .smbus => { s with bus := { s.bus with smbBusy := false, smbStatus := e.status, smbCompletion := e.encode true } }
  | .mirror => s
  | .image => s
  | _ =>
    let q := c.src.q
    let s := if hasEntry then cplPut q e s else s
    let s := hamperFinish q e.status e.slot e.tDone s
    flushEnds (s.queue q).endsWaiting.length q s

/-- Whether core 0 has ended a GENERAL command with this one (R109). -/
def endsGeneral (c : Cmd) : Bool := c.src = .general || c.src = .smbus

/-- The command that waits for the standby completes with entry `e` (R122); nothing is written where a reset of the host interface has discarded
its entry with its hamper (R44). -/
def ackEnds (w : AckWait) (e : Cpl) (s : State) : State :=
  let s := { s with mbx := { s.mbx with ackWait := none }, tw := { s.tw with forwarded := s.tw.forwarded.filter (fun x => x.1 ≠ w.seq) } }
  if w.dropped then s else deliver w.cmd e w.hasEntry s

/-- The standby has acknowledged the command that waits with `status`: MIRRORED, with TWIN_DIFF and MBX_TWIN_DIFF where that is not the active's own
(R122). -/
def ackTaken (w : AckWait) (status : Nat) (s : State) : State :=
  let diff : Bool := status ≠ w.entry.status
  let s := if diff then raiseEv 130 2 0x0012 [(20, le 1 w.cmd.src.q), (21, le 1 status), (22, le 2 w.cmd.tag), (24, le 2 w.entry.opcode)] s else s
  ackEnds w { w.entry with cflags := w.entry.cflags + 16 + 32 * b2n diff, tDone := max w.entry.tDone s.dtt } s

/-- A command that started at `t0` in slot `slot` ends now with reply `r`: buffer, completion entry, and the wait for the
standby where the command was mirrored (R99, R101, R122). `cf` holds CFLAGS bits beyond PHASE, `mir` its MIRROR_SEQ. -/
def finish (opcode : Nat) (c : Cmd) (slot t0 cf : Nat) (mir : Option Nat) (r : Reply) (s : State) : State :=
  let s := { s with mbx := { s.mbx with core0Free := s.dtt, executed := s.mbx.executed + 1, lastGeneral := endsGeneral c } }
  let w := writeBuf c r s
  let r := w.1
  let s := w.2.2
  let e : Cpl := { tag := c.tag, opcode := opcode, status := r.status, cflags := cf, slot := slot, rused := w.2.1,
                   detail := r.detail, tStart := t0, tDone := s.dtt, result := r.result }
  let hasEntry := !(c.noCompl && r.status = stOk)
  if c.src = .mirror then mirrorDone mir e s
  else if c.src = .image then imageDone e s
  else match (if s.twinState = 4 then mir else none) with
    | some n => { s with mbx := { s.mbx with ackWait := some ⟨c.src, c, e, s.dtt, hasEntry, n, false⟩ } }
    | none => deliver c e hasEntry s

/-- A command that a start check stops completes without effect; where its checks under R96 and R97 passed it has been forwarded. -/
def startFail (k : CmdSpec) (c : Cmd) (slot t0 st d : Nat) (s : State) : State :=
  let f := forwards k c s
  finish k.opcode c slot t0 (8 * b2n (resumes c s)) (mirrorSeq c f s) (failWith st d) (mirrorOut k.opcode c f (takeEntry c t0 s))

/-- One Bluem command that is not stepped: it waits where it cannot start; a start check that applies completes it
without effect; otherwise it has its effect and completes with its reply. -/
def runCmd (k : CmdSpec) (effect : Cmd → State → State × Reply) (c : Cmd) (s : State) : Out :=
  if canStart k c s then
    let t0 := startStamp c s
    let slot := headSlot c s
    match startCheck k c s with
    | some (st, d) => .next (startFail k c slot t0 st d s)
    | none =>
      let e := effect c (takeEntry c t0 s)
      .next (finish k.opcode c slot t0 (8 * b2n (resumes c s)) (mirrorSeq c (mirrors k c s) s) e.2 (mirrorOut k.opcode c (mirrors k c s) e.1))
  else if stalls c s then .next (s.raiseBit (Reg.mbxStatusCqStall c.src.q))
  else .next s

/-- A Bluem command whose effect may leave it waiting: with no reply yet it is held (R35, R154, R542). -/
def runHeld (k : CmdSpec) (effect : Cmd → State → State × Option Reply) (c : Cmd) (s : State) : Out :=
  if canStart k c s then
    let t0 := startStamp c s
    let slot := headSlot c s
    match startCheck k c s with
    | some (st, d) => .next (startFail k c slot t0 st d s)
    | none =>
      let e := effect c (takeEntry c t0 s)
      let e := (mirrorOut k.opcode c (mirrors k c s) e.1, e.2)
      let n := mirrorSeq c (mirrors k c s) s
      match e.2 with
      | some r => .next (finish k.opcode c slot t0 (8 * b2n (resumes c s)) n r e.1)
      | none => .next { e.1 with mbx := { e.1.mbx with held := some ⟨k.opcode, c, slot, t0, n, false, resumes c s⟩ } }
  else if stalls c s then .next (s.raiseBit (Reg.mbxStatusCqStall c.src.q))
  else .next s

/-- The held command completes with a reply. -/
def resumeHeld (r : Reply) (s : State) : State :=
  match s.mbx.held with
  | none => s
  | some h =>
    let s := { s with mbx := { s.mbx with held := none } }
    if h.dropped then s else finish h.opcode h.cmd h.slot h.tStart (8 * b2n h.resumed) h.mirror r s

/-- Whether the held command is one of opcode `op`. -/
def holds (op : Nat) (s : State) : Bool := (s.mbx.held.map (·.opcode)) = some op

/-! ### Stepped commands -/

/-- What a step leaves: the command goes on with this record, or it ends with a reply. -/
inductive StepEnd where
  | more (o : LongOp)
  | done (r : Reply)

/-- MBX_LONG_OP and MBX_LONG_STEP show the step store (R110). -/
def syncLong (s : State) : State :=
  match s.mbx.longOp with
  | none => (((s.setF Reg.mbxLongOpOpcode 0).setF Reg.mbxLongOpTag 0).setF Reg.mbxLongStepDone 0).setF Reg.mbxLongStepEstimate 0
  | some o =>
    (((s.setF Reg.mbxLongOpOpcode o.opcode).setF Reg.mbxLongOpTag o.cmd.tag).setF Reg.mbxLongStepDone (sat 0xFFFF o.done)).setF
      Reg.mbxLongStepEstimate (sat 0xFFFF o.estimate)

/-- A progress entry at a step boundary, at least 100 ms (78,125,000 ticks) after the start or the previous one, where
the ring has a slot beyond the reserve (R102, R111); none for a command whose entries are discarded (R44). The manual gives T_DONE and RUSED of a
progress entry no value: DESIGN CHOICE (log entry 229), the present event stamp and 0. -/
def progress (o : LongOp) (s : State) : LongOp × State :=
  if !o.dropped && o.cmd.prog && decide (78125000 ≤ s.dtt - o.lastProgress) && (o.cmd.src = .urgent || o.cmd.src = .general) then
    if cqReserve o.cmd.src.q s < cqFree o.cmd.src.q s then
      ({ o with lastProgress := s.dtt },
       cplPut o.cmd.src.q
         { tag := o.cmd.tag, opcode := o.opcode, status := stInProgress, cflags := 4 + 8 * b2n o.resumed, slot := o.slot,
           rused := 0, detail := 0, tStart := o.tStart, tDone := s.dtt,
           result := resultOf [(32, le 2 (sat 0xFFFF o.done)), (34, le 2 (sat 0xFFFF o.estimate))] } s)
    else (o, s)
  else (o, s)

/-- The step record is written to the MBX step store: the whole of memory 11, 128 words (R110, R608). -/
def storeStep (o : LongOp) (s : State) : State :=
  let s := (List.range 128).foldl (fun s k => mpWrite (mpWord 11 k) s) s
  { s with mbx := { s.mbx with longOp := some { o with recordOk := true } } }

/-- A step of the command in progress has been taken: the step record is written, or the command completes (R110). -/
def afterStep (k : CmdSpec) (o : LongOp) (e : State × StepEnd) : State :=
  let s := e.1
  match e.2 with
  | .more o' =>
    let o' := { o' with done := o.done + 1 }
    let s := { s with mbx := { s.mbx with core0Free := s.dtt, executed := s.mbx.executed + 1, lastGeneral := false } }
    let p := progress o' s
    syncLong (storeStep p.1 p.2)
  | .done r =>
    let s := syncLong { s with mbx := { s.mbx with longOp := none } }
    if o.dropped then s else finish k.opcode o.cmd o.slot o.tStart (8 * b2n o.resumed) o.mirror r s

/-- One stepped command: its checks, then its first step, which `first` takes from a fresh step record. -/
def runStepped (k : CmdSpec) (first : LongOp → State → State × StepEnd) (c : Cmd) (s : State) : Out :=
  if canStart k c s then
    let t0 := startStamp c s
    let slot := headSlot c s
    match startCheck k c s with
    | some (st, d) => .next (startFail k c slot t0 st d s)
    | none =>
      let o : LongOp := { opcode := k.opcode, cmd := c, slot := slot, tStart := t0, done := 0, estimate := 0,
                          lastProgress := t0, work := [], acc := [], v := [], resumed := resumes c s, recordOk := true, dropped := false,
                          mirror := mirrorSeq c (mirrors k c s) s }
      let s := mirrorOut k.opcode c (mirrors k c s) (takeEntry c t0 s)
      .next (afterStep k o (first o { s with mbx := { s.mbx with longOp := some o } }))
  else if stalls c s then .next (s.raiseBit (Reg.mbxStatusCqStall c.src.q))
  else .next s

/-- The length rule of a fixed payload size (R96). -/
def lenIs (n : Nat) (len : Nat) : Bool := len = n

end Sys2Proof.Machine
end

