-- ==== Sys2Proof/Machine/TimeBase.lean ====
section
/-! DEFINITION. Time base, domains and stamp formats: the mappers and their segments (R124 to R129), time formats (R6,
R131), compact stamps (R136 to R139), snapshots and PTM (R140 to R143), steps, slews and rate adjustment (R144 to
R153), and the switch of the served domain (R154 to R160). -/

set_option Elab.async false

namespace Sys2Proof.Machine

/-! ### Mappers and formats -/

/-- Domain `d` of the time base: 0 forewing, 1 hindwing. -/
def State.dom (s : State) (d : Nat) : Domain := if d = 0 then s.tb.domA else s.tb.domB

/-- The state with domain `d` replaced. -/
def State.setDom (s : State) (d : Nat) (x : Domain) : State :=
  if d = 0 then { s with tb := { s.tb with domA := x } } else { s with tb := { s.tb with domB := x } }

/-- The time of a segment at DTT instant `x` (2⁻¹⁶ tick), in 2⁻¹⁶ ns: T_anc + ⌊(x − X_anc) × 1.28 ns × (1 + RATE × 2⁻⁴⁸)⌋ (R124). -/
def segTime (g : Segment) (x : Nat) : Int :=
  g.t + ((x : Int) - (g.x : Int)) * 128 * (2 ^ 48 + g.rate) / (100 * 2 ^ 48)

/-- The segment in force at `x`: the newest whose anchor is not after `x`; the oldest where none is (R127). -/
def segAt : List Segment → Nat → Segment
  | [], _ => ⟨0, 0, 0⟩
  | [g], _ => g
  | g :: r, x => if g.x ≤ x then g else segAt r x

/-- Domain time at DTT instant `x`; an instant before the first anchor converts to that anchor's time (R707). -/
def State.timeAt (s : State) (d x : Nat) : Int :=
  let g := segAt (s.dom d).segs x
  if x < g.x then g.t else segTime g x

/-- The present DTT as a TK80 value (R6). -/
def State.now80 (s : State) : Nat := s.dtt * 2 ^ 16

/-- Present time of domain `d`. -/
def State.timeNow (s : State) (d : Nat) : Int := s.timeAt d s.now80

/-- FT96 of a time in 2⁻¹⁶ ns: seconds in [95:48], nanoseconds in [47:16], fraction in [15:0], nanoseconds below 10⁹ (R6, R7). -/
def ft96 (t : Int) : Nat :=
  let v := t.toNat
  let ns := v / 2 ^ 16
  ns / 10 ^ 9 % 2 ^ 48 * 2 ^ 48 + ns % 10 ^ 9 * 2 ^ 16 + v % 2 ^ 16

/-- CS48: the low 32 bits of the continuous nanoseconds, then the fraction (R6). -/
def cs48 (t : Int) : Nat := t.toNat % 2 ^ 48

/-- CS32 (R6). -/
def cs32 (t : Int) : Nat := t.toNat / 2 ^ 16 % 2 ^ 32

/-- The 12 bytes of an FT96 value (R131). -/
def ftBytes (t : Int) : Bytes := le 12 (ft96 t)

/-- The domain served at DTT instant `x` (2⁻¹⁶ tick): from its x_s on the one switched to, before the oldest switch kept the other (R160). -/
def State.servedAt (s : State) (x : Nat) : Nat :=
  match s.tb.servedLog.find? (fun e => decide (e.1 ≤ x)) with
  | some e => e.2
  | none => match s.tb.servedLog.getLast? with
    | some e => 1 - e.2
    | none => s.served

/-- Served-domain time at DTT instant `x` (R160). -/
def State.servedTime (s : State) (x : Nat) : Int := s.timeAt (s.servedAt x) x

/-- RATE held within ±2³² (R125). -/
def clampRate (r : Int) : Int := clampI (-(2 ^ 32)) (2 ^ 32) r

/-- A new segment of domain `d` from `x` on with time `t` and rate `r`; the registers show it and its sequence number
advances (R126, R128). -/
def openSegment (d x : Nat) (t r : Int) (s : State) : State :=
  let dm := s.dom d
  let s := s.setDom d { dm with segs := (⟨x, t, clampRate r⟩ :: dm.segs).take 8 }
  let s := s.setI64 (Reg.tbDRate d) (clampRate r)
  let s := s.set96 (Reg.tbDAncTk0 d).addr x
  let s := s.set96 (Reg.tbDAncT0 d).addr (ft96 t)
  s.addWrap (Reg.tbDAncSeq d) 1

/-- The newest segment of domain `d`. -/
def State.seg (s : State) (d : Nat) : Segment := (s.dom d).segs.headD ⟨0, 0, 0⟩

/-- Whether a change of domain `d`'s mapper now keeps 12,500 ticks from the newest segment and from every step that waits (R128). -/
def spacedNow (d : Nat) (s : State) : Bool :=
  decide ((s.seg d).x + 12500 * 2 ^ 16 ≤ s.now80) && (s.dom d).steps.all (fun p => decide (s.dtt + 12500 ≤ p.xc))

/-- A change of RATE of domain `d`: a segment with the same time (R126), now or as soon as the spacing of R128 allows. -/
def setRate (d : Nat) (r : Int) (s : State) : State :=
  if (s.seg d).rate = clampRate r then s.setDom d { s.dom d with rateWait := none }
  else if spacedNow d s then openSegment d s.now80 (s.timeNow d) r (s.setDom d { s.dom d with rateWait := none })
  else s.setDom d { s.dom d with rateWait := some (clampRate r) }

/-- A change of RATE that waits for its spacing takes effect at its first instant (R128). -/
def rateTick (d : Nat) (s : State) : State :=
  match (s.dom d).rateWait with
  | none => s
  | some r => setRate d r s

/-- Step counter of domain `d`. -/
def State.stepc (s : State) (d : Nat) : Nat := s.getF (Reg.tbDStepc d)

/-- Step counter of domain `d` at DTT instant `x` (2⁻¹⁶ tick). -/
def State.stepcAt (s : State) (d x : Nat) : Nat :=
  match (s.dom d).stepLog.find? (fun e => decide (e.1 ≤ x)) with
  | some e => e.2.2
  | none => match (s.dom d).stepLog.getLast? with
    | some e => e.2.1
    | none => s.stepc d

/-- Domain `d`'s step counter is `n` from DTT instant `x` on. -/
def setStepc (d x n : Nat) (s : State) : State :=
  let old := s.stepc d
  let s := s.setDom d { s.dom d with stepLog := ((x, old, n % 2 ^ 32) :: (s.dom d).stepLog).take 8 }
  s.setF (Reg.tbDStepc d) n

/-- The first instant a change of domain `d` may take effect for its spacing from the changes before it, a waiting change of RATE among them (R128). -/
def spacedFrom (d : Nat) (s : State) : Nat :=
  let last := match (s.dom d).steps.getLast? with
    | some p => max p.xc ((s.seg d).x / 2 ^ 16)
    | none => (s.seg d).x / 2 ^ 16
  last + (if (s.dom d).rateWait.isSome then 25000 else 12500)

/-- An instant x_c of a change that a command fixes: at least 64 ticks after the command's start, `spaced` or later, and
beyond that open within 50 µs (R107, R108). A mirrored command takes the active's instant `inst`, or the next tick
where that has passed (R578). -/
def fixXc (inst : Option Nat) (spaced : Nat) (s : State) : Nat × State :=
  match inst with
  | some x => (max x (s.dtt + 1), s)
  | none =>
    let f := s.draw
    (max (s.dtt + 64) spaced + f.1 % 38998, f.2)

/-! ### Outputs that carry the domain's phase -/

/-- An output right after reset. -/
def OutDyn.reset : OutDyn := ⟨false, 0, 0, false, none, false, 0, 0, 0, none⟩

/-- What output `n` keeps beside its registers: CLKOUT0-7 are 0 to 7, PPSOUT0-3 are 8 to 11. -/
def State.out (s : State) (n : Nat) : OutDyn := spGet OutDyn.reset s.dpll.outs n

/-- The state with output `n` replaced. -/
def State.setOut (s : State) (n : Nat) (o : OutDyn) : State :=
  { s with dpll := { s.dpll with outs := spSet OutDyn.reset s.dpll.outs n o } }

/-- Numerator and denominator of OSYN `k`'s F_vco / 781.25 MHz (R326). -/
def osynPlan (k : Nat) (s : State) : Nat × Nat :=
  let den := max 1 (s.getF (Reg.plOsynDenValue k))
  (s.getF (Reg.plOsynStatusInt k) * den + s.getF (Reg.plOsynNumValue k), den)

/-- The nominal cycle of an output (R327, R330), in 2⁻¹⁶ ns times `num`: its length, and its high time. -/
structure Wave where
  num : Nat
  cycle : Nat
  high : Nat

/-- The nominal cycle of output `n`: a CLKOUT has a 50 % duty cycle at F_vco / D, a PPSOUT is high for WIDTH (R327, R330, R331). -/
def waveOf (n : Nat) (s : State) : Wave :=
  if n < 8 then
    let p := osynPlan (s.getF (Reg.plOutStatusOsyn n)) s
    let num := max 1 (781250000 * p.1)
    let c := 10 ^ 9 * 2 ^ 16 * (p.2 * s.getF (Reg.plOutDiv n))
    ⟨num, c, c / 2⟩
  else
    let o := s.out n
    let num := max 1 o.rate
    ⟨num, if o.rate = 0 then o.periodS * 10 ^ 9 * 2 ^ 16 else 10 ^ 9 * 2 ^ 16, o.width * 2 ^ 16 * num⟩

/-- The shortest high time or low time of a cycle: 99.5 % of the nominal one, rounded up (R334). -/
def Wave.least (w : Wave) (high : Bool) : Nat := ((if high then w.high else w.cycle - w.high) * 995 + 999) / 1000

/-- The newest edge of the aligned grid at or before grid time `u`: where it stands, and whether it rises. -/
def Wave.lastEdge (w : Wave) (u : Int) : Int × Bool :=
  let k := u / w.cycle * w.cycle
  if u - k < w.high then (k, true) else (k + w.high, false)

/-- The earliest edge of the grid at or after `u` that rises, or that falls. -/
def Wave.edgeFrom (w : Wave) (rising : Bool) (u : Int) : Int :=
  let off : Int := if rising then 0 else w.high
  off - (off - u) / w.cycle * w.cycle

/-- TK80 duration as time in 2⁻¹⁶ ns, and back, rounded up. -/
def tk80Time (x : Int) : Int := x * 128 / 100

def timeTk80 (t : Int) : Nat := ((t * 100 + 127) / 128).toNat

/-- The edge that output `n` takes first when at TK80 instant `x` the time it is aligned to passes from `old` to `new`: the earliest aligned instant on
the new time that keeps the time since the edge before it at or above the minimum; earlier aligned instants are skipped (R145, R334). The second
component is its instant on the new time. -/
def movedEdge (n x : Nat) (old new : Int) (s : State) : OutEdge × Int :=
  let w := waveOf n s
  let o := s.out n
  let u0 := old * w.num
  let u1 := new * w.num
  let before : Int × Bool := match o.edge with
    | some e => if x < e.next then (tk80Time ((x : Int) - e.last) * w.num, !e.rising) else (u0 - (w.lastEdge u0).1, (w.lastEdge u0).2)
    | none => (u0 - (w.lastEdge u0).1, (w.lastEdge u0).2)
  let at_ := w.edgeFrom (!before.2) (u1 + max 0 ((w.least before.2 : Int) - before.1))
  let wait := (at_ - u1 + w.num - 1) / w.num
  (⟨x - timeTk80 (before.1 / w.num), x + timeTk80 wait, !before.2⟩, new + wait)

/-- Whether output `n` runs and carries the served domain's phase: a CLKOUT with ALIGN, a PPSOUT (R145). -/
def carriesPhase (n : Nat) (s : State) : Bool :=
  if n < 8 then s.getF (Reg.plOutStatusState n) = 1 && s.isF (Reg.plOutStatusAlign n) else s.getF (Reg.plPpsStatusState (n - 8)) = 1

/-- The first whole second at or after a time (2⁻¹⁶ ns). -/
def wholeSecond (t : Int) : Int := -((-t) / (10 ^ 9 * 2 ^ 16)) * (10 ^ 9 * 2 ^ 16)

/-- Every output that carries the domain's phase is re-phased at TK80 instant `x` from output time `old` to `new`: each takes its moved edge (a PPSOUT with
RATE 0 stands on the new time already), and the answer is the first whole second of the new output time by which all of them have taken it (R145). -/
def rephaseOuts (x : Nat) (old new : Int) (s : State) : Int × State :=
  let r := (List.range 12).foldl (fun r n =>
    if carriesPhase n r.2 && !(decide (8 ≤ n) && (r.2.out n).rate = 0) then
      let o := r.2.out n
      let e := movedEdge n x (old - o.phaseNow) (new - o.phaseNow) r.2
      (max r.1 (e.2 + o.phaseNow), r.2.setOut n { o with edge := some e.1 })
    else r) ((new, s) : Int × State)
  (wholeSecond r.1, r.2)

/-- Whether any output carries the served domain's phase: a running CLKOUT with ALIGN or a running PPSOUT (R145). -/
def anyAligned (s : State) : Bool :=
  (List.range 8).any (fun n => s.getF (Reg.plOutStatusState n) = 1 && s.isF (Reg.plOutStatusAlign n)) ||
  (List.range 4).any (fun m => s.getF (Reg.plPpsStatusState m) = 1)

/-! ### Compact stamps -/

/-- Every stream of a SIGNED consumer owes a new base record: after a step of the served domain and after a switch (R138). -/
def basesDue (s : State) : State :=
  { s with tb := { s.tb with bases := s.tb.bases.map (fun b => (b.1, b.2.map (fun r => { r with due := true }))) } }

/-- Whether consumer `n` is in SIGNED mode (R136). -/
def isSigned (n : Nat) (s : State) : Bool := bit (s.getF Reg.tbStateCompact) n

/-- Whether stream `k` of consumer `n` must post a base before a record whose stamps are of continuous nanoseconds `nss`: each is compared with the latest
base (R138, R139). -/
def needsBase (n k : Nat) (nss : List Nat) (s : State) : Bool :=
  isSigned n s &&
  (match spGet none s.tb.bases k with
   | none => true
   | some b => b.due || nss.any (fun ns => decide (2147483647 < ns - b.ns) || decide (2147483647 < b.ns - ns)))

/-- Stream `k` has posted a base at continuous nanoseconds `ns`. -/
def noteBase (k ns : Nat) (s : State) : State :=
  { s with tb := { s.tb with bases := spSet none s.tb.bases k (some ⟨ns, s.stepc s.served, false⟩) } }

/-! ### Evidence of the interval -/

/-- The open block notes a step, realign or switch (R560 DFLAGS bit 1). -/
def noteStep (s : State) : State := { s with evd := { s.evd with stepSeen := true } }

/-! ### Snapshots -/

/-- A capture at TK80 instant `x` from source code `src` (R140, R141): registers, SEQ, DONE, ARM, event TB_SNAP_DONE. Which domain's source number that event
carries R162 does not say: DESIGN CHOICE (log entry 235), the served domain's; so with TB_OUT_ALIGNED, and the new domain's with TB_SERVED_SWITCH. -/
def capture (src x : Nat) (s : State) : State :=
  let s := s.set96 Reg.tbSnapTk0.addr x
  let s := s.set96 Reg.tbSnapA0.addr (ft96 (s.timeAt 0 x))
  let s := s.set96 Reg.tbSnapB0.addr (ft96 (s.timeAt 1 x))
  let s := s.setF Reg.tbSnapInfoQcA (s.qc 0)
  let s := s.setF Reg.tbSnapInfoQcB (s.qc 1)
  let s := s.setF Reg.tbSnapInfoServed (s.servedAt x)
  let s := s.setF Reg.tbSnapStepcStepcA (s.stepcAt 0 x)
  let s := s.setF Reg.tbSnapStepcStepcB (s.stepcAt 1 x)
  let s := s.addWrap Reg.tbSnapCtrlSeq 1
  let s := s.raiseBit Reg.tbSnapCtrlDone
  let s := s.setB Reg.tbSnapCtrlArm false
  raiseEv (96 + s.served) 0 0x0206 [(20, le 1 src), (21, le 1 (s.getF Reg.tbSnapCtrlSeq))] s

/-- A source is armed: ARM with a source of 1 to 4; any other value of ARM_SRC arms nothing (R141). -/
def armSnap (src : Nat) (s : State) : State :=
  if 1 ≤ src ∧ src ≤ 4 then (s.setF Reg.tbSnapCtrlArmSrc src).setB Reg.tbSnapCtrlArm true
  else (s.setF Reg.tbSnapCtrlArmSrc src).setB Reg.tbSnapCtrlArm false

/-- The armed source's next event at TK80 instant `x`. -/
def armedCapture (src x : Nat) (s : State) : State :=
  if s.isF Reg.tbSnapCtrlArm && s.getF Reg.tbSnapCtrlArmSrc = src then capture src x s else s

/-! ### Steps -/

/-- Amount of a step in the GD_VIOL event's word: whole ns, rounded toward 0, saturated at 32 bits (R70). -/
def stepEventWord (a : Int) : Nat :=
  twos 32 (clampI (-(2 ^ 31)) (2 ^ 31 - 1) (if 0 ≤ a then a / 2 ^ 16 else -((-a) / 2 ^ 16)))

/-- What the steps of domain `d` that wait for their x_c will have added. -/
def stepsWaiting (d : Nat) (s : State) : Int := ((s.dom d).steps.map (·.amount)).sum

/-- Whether a step of `a` takes domain `d`'s time, with the steps that wait before it, out of its range at `x` (R147): below 0, or seconds of 2⁴⁸ or
more. -/
def stepOutOfRange (d x : Nat) (a : Int) (s : State) : Bool :=
  let t := s.timeAt d x + stepsWaiting d s + a
  decide (t < 0) || decide (2 ^ 48 * 10 ^ 9 * 2 ^ 16 ≤ t)

/-- Whether the magnitude of a step exceeds the guard step bound; all ones is no bound (R674). -/
def stepBeyondGuard (a : Int) (s : State) : Bool :=
  let b := s.getF Reg.gdStepMaxA
  b ≠ 0xFFFFFFFF && decide (b * 2 ^ 16 < a.natAbs)

/-- A step by `a` beyond the guard bound is discarded with a guard violation of reason BOUND (R31, R674, R679). -/
def stepDenied (a : Int) (s : State) : State := guardViolation Reg.gdStepMaxA.addr .core0 .bound 0 a 0 (stepEventWord a) s

/-- A step of domain `d` by `a` that a command asks for: range first, then the guard bound, then it waits for its x_c
(R144, R147). `realign` marks TB_REALIGN, `moves` whether the setpoint moves, `inst` the instant a mirrored command has brought. -/
def requestStep (inst : Option Nat) (d : Nat) (a : Int) (moves realign : Bool) (s : State) : State × Except Reply Nat :=
  let f := fixXc inst (spacedFrom d s) s
  let xc := f.1
  let s := f.2
  if stepOutOfRange d (xc * 2 ^ 16) a s then (s, .error (failWith stRefused 0x0206))
  else if stepBeyondGuard a s then
    (stepDenied a s, .error (failWith stLocked 0))
  else
    let dm := s.dom d
    (s.setDom d { dm with steps := dm.steps ++ [⟨a, xc, moves, realign, none⟩] }, .ok xc)

/-- The part of a step every one shares, at its instant: the segment, the step counter, TB_STEPPED, the STEP record (R144). -/
def stepNow (d : Nat) (p : PendingStep) (s : State) : State :=
  let x := p.xc * 2 ^ 16
  let s := openSegment d x (s.timeAt d x + p.amount) (s.seg d).rate s
  let s := setStepc d x (s.stepc d + 1) s
  let s := if p.moves then s.setDom d { s.dom d with setpoint := (s.dom d).setpoint + p.amount } else s
  let s := raiseAt p.xc (96 + d) 1 0x0201 (leI 8 p.amount ++ le 4 (s.stepc d)) s
  let s := evdSend 0x10 (d + 2 * b2n p.realign) (96 + d) p.xc [(16, leI 8 p.amount), (24, le 4 (s.stepc d))] s
  noteStep (basesDue s)

/-- A step of the served domain by `a` at TK80 instant `x` re-phases its outputs: TB_OUT_OFFSET becomes o − a until every output has re-phased, or
returns to o at once where none runs (R145). What o is while an earlier step still re-phases the manual does not say (TB_OUT_OFFSET then is not 0 for
another reason than R155): DESIGN CHOICE (log entry 236), the earlier o. -/
def rephase (x : Nat) (a : Int) (s : State) : State :=
  let off := s.getI64 Reg.tbOutOffset
  let o := match s.tb.rephaseTo with | some o => o | none => off
  if anyAligned s then
    let t := s.servedTime x
    let r := rephaseOuts x (t - a + off) (t + o) s
    { (r.2.setI64 Reg.tbOutOffset (off - a)) with tb := { r.2.tb with rephaseTo := some o, rephaseAt := r.1 } }
  else s

/-- The first waiting step of domain `d` applies when DTT has reached its x_c (R144, R145, R153). -/
def applyStep (d : Nat) (s : State) : State :=
  match (s.dom d).steps with
  | [] => s
  | p :: r =>
    if s.dtt < p.xc then s
    else
      let s := s.setDom d { s.dom d with steps := r }
      let s := stepNow d p s
      let s := match p.counter with | some n => setStepc d (p.xc * 2 ^ 16) n s | none => s
      let s := if d = s.served then rephase (p.xc * 2 ^ 16) p.amount s else s
      if p.realign then (s.setB (Reg.tbDStatusAlignNeeded d) false).setI64 (Reg.tbDAlignErr d) 0
      else if s.isF (Reg.tbDStatusAlignNeeded d) then
        s.setI64 (Reg.tbDAlignErr d) (s.getI64 (Reg.tbDAlignErr d) - p.amount)
      else s

/-! ### Slews -/

/-- The slew rate in force: 0 of TB_CFG counts as 1, clamped to the guard slew bound (TB_CFG, R674). -/
def cfgSlewRate (s : State) : Nat := min (max 1 (min 1000 (s.getF Reg.tbCfgRate))) (s.getF Reg.gdSlewMaxA)

/-- RATE that a slew of `rate` ns/s adds, in 2⁻⁴⁸ (R148). -/
def slewComponent (rem : Int) (rate : Nat) : Int :=
  if rem = 0 then 0 else (if 0 < rem then 1 else -1) * ((rate : Int) * 2 ^ 48 / 10 ^ 9)

/-- The remainder of domain `d`'s slew. -/
def State.slewRem (s : State) (d : Nat) : Int := s.getI64 (Reg.tbDSlewRem d)

/-- The state with domain `d`'s slew remainder, and SLEWING with it. -/
def setSlewRem (d : Nat) (r : Int) (s : State) : State :=
  (s.setI64 (Reg.tbDSlewRem d) r).setB (Reg.tbDStatusSlewing d) (r ≠ 0)

/-- A slew of domain `d` by `a` at `rate` starts, or merges with the one in progress (R148, R149). -/
def startSlew (d : Nat) (a : Int) (rate : Nat) (s : State) : State :=
  let dm := s.dom d
  let total := if dm.slewOn then dm.slewTotal + a else a
  let s := s.setDom d { dm with slewTotal := total, slewRate := rate, slewOn := dm.slewOn || decide (a ≠ 0) }
  let s := setSlewRem d (s.slewRem d + a) s
  if d = s.served then s else setRate d ((s.dom d).servoRate + slewComponent (s.slewRem d) rate) s

/-- What 1 ms of a slew at `rate` ns/s moves, in 2⁻¹⁶ ns. -/
def slewPerMs (rate : Nat) : Int := (rate : Int) * 2 ^ 16 / 1000

/-- An amount moved toward 0 by at most `m`. -/
def towardZero (v m : Int) : Int := if 0 ≤ v then (if v ≤ m then 0 else v - m) else (if -v ≤ m then 0 else v + m)

/-! ### The served-domain switch -/

/-- Δ plus the remaining TB_OUT_OFFSET for a switch to domain `d` at `x` (R154). -/
def switchTested (d x : Nat) (s : State) : Int := s.timeAt d x - s.timeAt s.served x + s.getI64 Reg.tbOutOffset

/-- Whether a tested value is beyond TB_CFG.SEAMLESS (R155, R156). -/
def beyondSeamless (t : Int) (s : State) : Bool := decide (s.getF Reg.tbCfgSeamless * 2 ^ 16 < t.natAbs)

/-- The outputs at a switch whose tested value is within the bound keep their phase: TB_OUT_OFFSET becomes minus that value, slewed to 0 (R155). A
re-phasing still in progress ends with it: DEDUCED (log entry 237), its rest is part of the tested value. -/
def switchSeamless (tested : Int) (s : State) : State :=
  { (s.setI64 Reg.tbOutOffset (-tested)) with tb := { s.tb with rephaseTo := none, outSlewing := true } }

/-- The outputs at a switch beyond the bound are re-phased to the new domain as at a step of it (R156); `old` is the output time before. -/
def switchRephase (tested old : Int) (s : State) : State :=
  if anyAligned s then
    let r := rephaseOuts s.now80 old (s.timeNow s.served) s
    { (r.2.setI64 Reg.tbOutOffset (-tested)) with tb := { r.2.tb with rephaseTo := some 0, rephaseAt := r.1, outSlewing := false } }
  else { (s.setI64 Reg.tbOutOffset 0) with tb := { s.tb with rephaseTo := none, outSlewing := false } }

/-- The switch at x_s (R154 to R160): the served domain and its marks, the step counter of R159, the outputs under R155
or R156, the rate transfer of R158, the event and the SERVED record; each loop filter goes on from the value its output has (log entry 90). -/
def switchServed (d : Nat) (realign : Bool) (s : State) : State :=
  let old := s.timeNow s.served + s.getI64 Reg.tbOutOffset
  let delta := s.timeNow d - s.timeNow s.served
  let tested := switchTested d s.now80 s
  let beyond := realign && beyondSeamless tested s
  let moved := beyond && anyAligned s
  let n := max (s.stepc 0) (s.stepc 1) + 1
  let s := s.setF Reg.tbStateServed d
  let s := s.setF Reg.hstStatusServed d
  let s := s.setB (Reg.tbDStatusServed d) true
  let s := s.setB (Reg.tbDStatusServed (1 - d)) false
  let s := { s with tb := { s.tb with servedLog := ((s.now80, d) :: s.tb.servedLog).take 8 } }
  let s := s.setDom d { s.dom d with integ := s.getI64 Reg.plNtw * 2 ^ 32, prop := 0 }
  let s := s.setDom (1 - d) { s.dom (1 - d) with servoRate := (s.seg (1 - d)).rate, integ := (s.seg (1 - d)).rate * 2 ^ 32, prop := 0 }
  let s := setStepc d s.now80 n s
  let s := if beyond then switchRephase tested old s else switchSeamless tested s
  let s := s.setB Reg.tbStateXfer ((s.seg d).rate ≠ 0)
  let s := raiseEv (96 + d) 0 0x0204 [(20, leI 8 delta), (28, le 4 (b2n moved))] s
  let s := evdSend 0x11 (d + 2 * b2n moved) (96 + d) s.dtt [(16, leI 8 delta), (24, le 4 n)] s
  noteStep (basesDue s)

/-! ### Commands -/

/-- DOMAIN in payload byte 0: 0 or 1. -/
def badDomain (c : Cmd) : Nat × Bool := (0, decide (1 < cu c 0 1))

def tbReadSpec : CmdSpec := { opcode := 0x0201, urgent := true, unmirrored := true, reports := true, lenOk := lenIs 0 }

/-- The effect of TB_READ: DTT and both domains' FT96 at one instant. -/
def tbReadEffect (_ : Cmd) (s : State) : State × Reply :=
  let t := s.dtt
  (s, okWith [(32, le 8 t), (40, ftBytes (s.timeAt 0 (t * 2 ^ 16))), (52, ftBytes (s.timeAt 1 (t * 2 ^ 16)))])

/-- TB_READ. -/
def execTbRead (c : Cmd) (s : State) : Out := runCmd tbReadSpec tbReadEffect c s

def tbStepSpec : CmdSpec :=
  { opcode := 0x0202, urgent := true, lenOk := lenIs 12, args := fun c _ => firstBad (badDomain c :: reserved c 1 3) }

/-- Whether ALIGN_NEEDED stands for domain `d` once the steps that wait have applied: a waiting TB_REALIGN clears it (R153). -/
def alignWanted (d : Nat) (s : State) : Bool := s.isF (Reg.tbDStatusAlignNeeded d) && !(s.dom d).steps.any (·.realign)

/-- TB_D_ALIGN_ERR of domain `d` once the steps that wait have applied (R153). -/
def alignError (d : Nat) (s : State) : Int := s.getI64 (Reg.tbDAlignErr d) - stepsWaiting d s

/-- The effect of TB_STEP (R144, R146, R147, R153). -/
def tbStepEffect (c : Cmd) (s : State) : State × Reply :=
  let d := cu c 0 1
  let a := ci c 4 8
  if a = 0 then
    let t := s.dtt
    (s, okWith [(32, le 8 t), (40, le 4 (s.stepc d)), (44, ftBytes (s.timeAt d (t * 2 ^ 16)))])
  else
    let t := s.timeAt d
    let sc := s.stepc d + (s.dom d).steps.length + 1
    let w := stepsWaiting d s
    match requestStep (mirrorInstant c s) d a (!alignWanted d s) false s with
    | (s, .error r) => (s, r)
    | (s, .ok xc) => (s, okWith [(32, le 8 xc), (40, le 4 sc), (44, ftBytes (t (xc * 2 ^ 16) + w + a))])

/-- TB_STEP. -/
def execTbStep (c : Cmd) (s : State) : Out := runCmd tbStepSpec tbStepEffect c s

def tbSlewSpec : CmdSpec :=
  { opcode := 0x0203, urgent := true, lenOk := lenIs 12,
    args := fun c _ => firstBad (badDomain c :: (2, decide (1000 < cu c 2 2)) ::
      (4, decide (10 ^ 6 * 2 ^ 16 < (ci c 4 8).natAbs)) :: reserved c 1 1) }

/-- The rate a slew uses: RATE or TB_CFG.RATE, clamped to the guard slew bound with a guard violation (R148, R674). -/
def slewRateUsed (rate : Nat) (s : State) : Nat × State :=
  let want := if rate = 0 then max 1 (min 1000 (s.getF Reg.tbCfgRate)) else rate
  let b := s.getF Reg.gdSlewMaxA
  if b < want then (b, guardViolation Reg.gdSlewMaxA.addr .core0 .bound 1 want b want s) else (want, s)

/-- The effect of TB_SLEW (R148, R149). -/
def tbSlewEffect (c : Cmd) (s : State) : State × Reply :=
  let d := cu c 0 1
  let r := slewRateUsed (cu c 2 2) s
  let s := startSlew d (ci c 4 8) r.1 r.2
  let rem := s.slewRem d
  let stop := s.dtt + (rem.natAbs * 781250000 + 2 ^ 16 * r.1 - 1) / (2 ^ 16 * r.1)
  (s, okWith [(32, leI 8 rem), (40, le 8 stop), (48, le 2 r.1)])

/-- TB_SLEW. -/
def execTbSlew (c : Cmd) (s : State) : Out := runCmd tbSlewSpec tbSlewEffect c s

/-- Whether domain `d` has a selected reference. -/
def hasSelection (d : Nat) (s : State) : Bool := s.isF (Reg.rsDSelSelValid d)

def tbAdjustSpec : CmdSpec :=
  { opcode := 0x0204, urgent := true, lenOk := lenIs 8,
    args := fun c _ => firstBad (badDomain c :: (2, decide (2 ^ 32 < (ci c 2 6).natAbs)) :: reserved c 1 1),
    stops := fun c s => firstStop
      [(cu c 0 1 = s.served, stRefused, 0x0204),
       (!s.isF (Reg.tbDStatusOpen (cu c 0 1)) && hasSelection (cu c 0 1) s, stRefused, 0x0205)] }

/-- The steer bound on a fractional offset: clamped with a guard violation; all ones is no bound (R674). -/
def steerClamp (v : Int) (s : State) : Int × State :=
  let b := s.getF Reg.gdSteerMaxA
  if b ≠ 0xFFFFFFFF && decide ((b : Int) < v.natAbs) then
    let u : Int := if 0 ≤ v then b else -b
    (u, guardViolation Reg.gdSteerMaxA.addr .core0 .bound 1 v u (twos 32 (clampI (-(2 ^ 31)) (2 ^ 31 - 1) v)) s)
  else (v, s)

/-- The effect of TB_ADJUST (R151): the RATE given, within the steer bound, takes effect at once, and a holdover keeps the
frequency it gives with the present NTW. -/
def tbAdjustEffect (c : Cmd) (s : State) : State × Reply :=
  let d := cu c 0 1
  let v := steerClamp (ci c 2 6) s
  let s := v.2
  let s := s.setDom d { s.dom d with servoRate := clampRate v.1 }
  let held := (2 ^ 48 + s.getI64 Reg.plNtw) * (2 ^ 48 + clampRate v.1) / 2 ^ 48 - 2 ^ 48
  let s := if d = 0 then { s with refs := { s.refs with domA := { s.refs.domA with hoValue := held } } }
    else { s with refs := { s.refs with domB := { s.refs.domB with hoValue := held } } }
  (setRate d (v.1 + slewComponent (s.slewRem d) (s.dom d).slewRate) s, okReply)

/-- TB_ADJUST. -/
def execTbAdjust (c : Cmd) (s : State) : Out := runCmd tbAdjustSpec tbAdjustEffect c s

def tbRealignSpec : CmdSpec :=
  { opcode := 0x0205, urgent := true, lenOk := lenIs 0,
    stops := fun _ s => firstStop [(!alignWanted s.served s, stRefused, 0x0203)] }

/-- The effect of TB_REALIGN (R153): a step of the served domain by TB_D_ALIGN_ERR that leaves the setpoint. -/
def tbRealignEffect (c : Cmd) (s : State) : State × Reply :=
  let d := s.served
  let a := alignError d s
  if a = 0 then
    (s.setB (Reg.tbDStatusAlignNeeded d) false, okWith [(32, leI 8 0), (40, le 8 s.dtt), (48, le 4 (s.stepc d))])
  else
    let sc := s.stepc d + (s.dom d).steps.length + 1
    match requestStep (mirrorInstant c s) d a false true s with
    | (s, .error r) => (s, r)
    | (s, .ok xc) => (s, okWith [(32, leI 8 a), (40, le 8 xc), (48, le 4 sc)])

/-- TB_REALIGN. -/
def execTbRealign (c : Cmd) (s : State) : Out := runCmd tbRealignSpec tbRealignEffect c s

def tbSetServedSpec : CmdSpec :=
  { opcode := 0x0206, urgent := true, lenOk := lenIs 4,
    args := fun c _ => firstBad (badDomain c :: reservedAbove c 1 1 :: reserved c 2 2) }

/-- The effect of TB_SET_SERVED (R154 to R157): nothing for the served domain; refused for a domain in ACQUIRING or FAULT;
otherwise SWITCHING is 1 and the command waits for x_s. What RESULT holds for the served domain R157 does not say: DESIGN CHOICE (log entry 238), DELTA 0,
X_S 0 and the present step counter. -/
def tbSetServedEffect (c : Cmd) (s : State) : State × Option Reply :=
  let d := cu c 0 1
  if d = s.served then (s, some (okWith [(32, leI 8 0), (40, le 8 0), (48, le 4 (s.stepc d))]))
  else if s.qcState d = 1 ∨ s.qcState d = 7 then (s, some (failWith stRefused 0x0202))
  else ({ (s.setB Reg.tbStateSwitching true) with tb := { s.tb with switchReq := some ⟨d, cbit c 1 0⟩ } }, none)

/-- TB_SET_SERVED. -/
def execTbSetServed (c : Cmd) (s : State) : Out := runHeld tbSetServedSpec tbSetServedEffect c s

def tbSetUtcSpec : CmdSpec :=
  { opcode := 0x0207, lenOk := lenIs 12,
    args := fun c s =>
      let l := ci c 1 1
      firstBad (badDomain c :: (1, !(l = -1 || l = 0 || l = 1)) ::
        (4, (l = 0 && cu c 4 6 ≠ 0) || (l ≠ 0 && decide ((cu c 4 6 : Int) ≤ s.timeNow (cu c 0 1) / (10 ^ 9 * 2 ^ 16)))) ::
        reserved c 10 2) }

/-- The effect of TB_SET_UTC (R133). -/
def tbSetUtcEffect (c : Cmd) (s : State) : State × Reply :=
  let d := cu c 0 1
  let s := s.setF (Reg.tbDUtcOffset d) (cu c 2 2)
  let s := s.setF (Reg.tbDStatusLeap d) (cu c 1 1)
  (s.set64 (Reg.tbDLeapAt d) (cu c 4 6), okReply)

/-- TB_SET_UTC. -/
def execTbSetUtc (c : Cmd) (s : State) : Out := runCmd tbSetUtcSpec tbSetUtcEffect c s

def tbSnapshotSpec : CmdSpec :=
  { opcode := 0x0208, urgent := true, unmirrored := true, lenOk := lenIs 4,
    args := fun c _ => firstBad ((0, decide (4 < cu c 0 1)) :: reserved c 1 3) }

/-- The effect of TB_SNAPSHOT (R140, R141). -/
def tbSnapshotEffect (c : Cmd) (s : State) : State × Reply :=
  if cu c 0 1 = 0 then
    let x := s.now80
    let d := s.served
    (capture 0 x s, okWith [(32, le 10 x), (42, le 1 d), (43, le 1 (s.qc d)), (44, ftBytes (s.timeAt d x)), (56, le 4 (s.stepc d))])
  else (armSnap (cu c 0 1) s, deferred)

/-- TB_SNAPSHOT. -/
def execTbSnapshot (c : Cmd) (s : State) : Out := runCmd tbSnapshotSpec tbSnapshotEffect c s

def tbSetCompactSpec : CmdSpec :=
  { opcode := 0x0209, lenOk := lenIs 4, args := fun c _ => firstBad (reservedAbove c 0 5 :: reserved c 1 3) }

/-- The effect of TB_SET_COMPACT (R136, R139): a consumer switched to SIGNED posts a base before its next record. -/
def tbSetCompactEffect (c : Cmd) (s : State) : State × Reply :=
  let old := s.getF Reg.tbStateCompact
  let s := s.setF Reg.tbStateCompact (cu c 0 1)
  let keep := s.tb.bases.filter (fun b => bit old (b.1 / 256))
  ({ s with tb := { s.tb with bases := keep } }, okReply)

/-- TB_SET_COMPACT. -/
def execTbSetCompact (c : Cmd) (s : State) : Out := runCmd tbSetCompactSpec tbSetCompactEffect c s

/-! ### Events of the time base -/

/-- STEP_APPLY: the first waiting step of domain `d` applies at its x_c. -/
def execStepApply (d : Nat) (s : State) : Out := .next (if d ≤ 1 then applyStep d s else s)

/-- SEGMENT_RENEWAL: a segment 2³⁸ ticks old is followed by one with unchanged values (R126). -/
def execSegmentRenewal (d : Nat) (s : State) : Out :=
  if d ≤ 1 ∧ (s.seg d).x + 2 ^ 38 * 2 ^ 16 ≤ s.now80 ∧ spacedNow d s = true then .next (openSegment d s.now80 (s.timeNow d) (s.seg d).rate s)
  else .next s

/-- OUT_REPHASE_DONE: at the first whole second of the new output time at which every output has re-phased, TB_OUT_OFFSET returns to o (R145). -/
def execOutRephaseDone (s : State) : Out :=
  match s.tb.rephaseTo with
  | none => .next s
  | some o =>
    if s.servedTime s.now80 + o < s.tb.rephaseAt then .next s
    else .next { (s.setI64 Reg.tbOutOffset o) with tb := { s.tb with rephaseTo := none } }

/-- TB_OUT_ALIGNED: the offset left by a seamless switch has been slewed to 0 (R155). -/
def execTbOutAligned (s : State) : Out :=
  let left := match s.tb.rephaseTo with | some o => o | none => s.getI64 Reg.tbOutOffset
  if s.tb.outSlewing && left = 0 then
    .next (raiseEv (96 + s.served) 0 0x0207 [] { s with tb := { s.tb with outSlewing := false } })
  else .next s

/-- TB_SLEW_DONE: the remainder has reached 0 (R149). -/
def execTbSlewDone (d : Nat) (s : State) : Out :=
  if d ≤ 1 ∧ (s.dom d).slewOn = true ∧ s.slewRem d = 0 then
    let total := (s.dom d).slewTotal
    let s := s.setDom d { s.dom d with slewTotal := 0, slewOn := false }
    let s := if d = s.served then s else setRate d (s.dom d).servoRate s
    .next (raiseEv (96 + d) 0 0x0202 [(20, leI 8 total)] s)
  else .next s

/-- TB_LEAP: domain time has reached second LEAP_AT: the offset changes by the leap, which clears (R133, R134). Whether the register LEAP_AT keeps its
value the manual does not say: DESIGN CHOICE (log entry 234), it reads 0. -/
def execTbLeap (d : Nat) (s : State) : Out :=
  let l := s.getI (Reg.tbDStatusLeap d)
  if d ≤ 1 ∧ l ≠ 0 ∧ (s.get64 (Reg.tbDLeapAt d) : Int) * 10 ^ 9 * 2 ^ 16 ≤ s.timeNow d then
    let o := s.getI (Reg.tbDUtcOffset d) + l
    let s := s.setI (Reg.tbDUtcOffset d) o
    let s := s.setF (Reg.tbDStatusLeap d) 0
    let s := s.set64 (Reg.tbDLeapAt d) 0
    let s := raiseEv (96 + d) 0 0x0205 [(20, leI 2 o)] s
    .next (evdSend 0x14 d (96 + d) s.dtt [(16, leI 2 o)] s)
  else .next s

/-- SNAP_ARMED_CAPTURE: the armed source `src` has its next event at TK80 instant `x` (R141). -/
def execSnapArmedCapture (src x : Nat) (s : State) : Out := .next (armedCapture src x s)

/-- The TK80 instant that PTM Master Time `T2` of a dialog stands for (R142): the capture at the Request, later by the propagation delay, which is half of the
time between both captures (R42) less the `turn` ns between `T2` and the Response's departure that the Response reports. -/
def ptmInstant (request response turn : Nat) : Nat :=
  let there : Int := ((response : Int) - request) * 2 ^ 16 - timeTk80 ((turn : Int) * 2 ^ 16)
  ((request * 2 ^ 16 : Nat) + there / 2 : Int).toNat

/-- PTM_DIALOG: a dialog is complete: its Response has arrived now. DTT has been captured at the Request and at the Response (R42); the PTM Master Time is
paired with the served-domain FT96 at the instant it stands for (R142), and the armed PTM snapshot captures there (R141). -/
def execPtmDialog (master turn request : Nat) (s : State) : Out :=
  if s.getF Reg.tbPtmCtrlPeriod = 0 ∨ s.dtt < request then .next s
  else
    let s := { s with bus := { s.bus with ptm := (request, s.dtt) } }
    let x := ptmInstant request s.dtt turn
    let s := s.set64 Reg.tbPtmHost master
    let s := s.set96 Reg.tbPtmT0.addr (ft96 (s.servedTime x))
    let s := s.setB Reg.tbPtmCtrlValid true
    let s := s.addWrap Reg.tbPtmCtrlSeq 1
    .next (armedCapture 4 x s)

end Sys2Proof.Machine
end

