-- ==== Sys2Proof/Machine/Stamps.lean ====
section
/-! DEFINITION. Stamps at the serializer (chapter Port timestamping): lane parameters (R168, R219), the calibration
values a stamp uses (R628, R630), ingress and egress stamps (R169 to R172), their validity (R202) and the stamp
FIFOs (R189 to R195). -/

set_option Elab.async false

namespace Sys2Proof.Machine

/-! ### Values that change at an instant -/

/-- The value in force at DTT tick `x`: that of the last change at or before it (R180, R501, R527). -/
def Timed.at (t : Timed) (x : Nat) : Int := ((t.steps.filter (fun p => decide (p.1 ≤ x))).map (·.2)).getLastD t.base

/-- The value of the register at `a` at tick `x`; `now` where no change has been recorded. -/
def State.timedAt (s : State) (a : Nat) (now : Int) (x : Nat) : Int :=
  match s.timed.find? (fun e => e.1 = a) with
  | some e => e.2.at x
  | none => now

/-- A change of the register at `a`, which holds `now`, to `v` from tick `x` on. -/
def timedAdd (a : Nat) (now v : Int) (x : Nat) (s : State) : State :=
  let t := (s.timed.find? (fun e => e.1 = a)).elim ⟨now, []⟩ (·.2)
  { s with timed := spSet ⟨0, []⟩ s.timed a { t with steps := t.steps ++ [(x, v)] } }

/-- The instant of the last recorded change of the register at `a`, 0 for none. -/
def timedLast (a : Nat) (s : State) : Nat :=
  (s.timed.find? (fun e => e.1 = a)).elim 0 (fun e => (e.2.steps.map (·.1)).foldl max 0)

/-- The changes of the register at `a` that have come into force by now: its value with them, and the record with all but
the latest of them folded into the base. -/
def timedApply (a : Nat) (now : Int) (s : State) : Int × State :=
  match s.timed.find? (fun e => e.1 = a) with
  | none => (now, s)
  | some e =>
    let due := e.2.steps.filter (fun p => decide (p.1 ≤ s.dtt))
    let later := e.2.steps.filter (fun p => !decide (p.1 ≤ s.dtt))
    let base := (due.dropLast.map (·.2)).getLastD e.2.base
    (e.2.at s.dtt, { s with timed := spSet ⟨0, []⟩ s.timed a ⟨base, due.drop (due.length - 1) ++ later⟩ })

/-! ### Lanes -/

/-- Lane `n`. -/
def State.lane (s : State) (n : Nat) : Lane := spGet Lane.reset s.lanes n

/-- The state with lane `n` replaced. -/
def State.setLane (s : State) (n : Nat) (l : Lane) : State := { s with lanes := spSet Lane.reset s.lanes n l }

/-- MODE of lane `n`: 0 disabled, 1 to 4 a port mode, 5 a twin lane (R203). -/
def State.mode (s : State) (n : Nat) : Nat := s.getF (Reg.sdsStatusMode n)

/-- FEC code of lane `n` (R203). -/
def State.fec (s : State) (n : Nat) : Nat := s.getF (Reg.sdsStatusFec n)

/-- Whether port `n`'s link is up (R208). -/
def State.linkUp (s : State) (n : Nat) : Bool := s.isF (Reg.sdsStatusLink n)

/-- Whether lane `n` is one of lanes 4k+1 to 4k+3 of a group that runs 100GBASE-R (R204). -/
def inGroup (n : Nat) (s : State) : Bool := decide (n < 48) && n % 4 ≠ 0 && s.mode (n / 4 * 4) = 4

/-- The lanes of port `n`: four at 100GBASE-R (R204). -/
def portLanes (n : Nat) (s : State) : List Nat := if s.mode n = 4 then [n, n + 1, n + 2, n + 3] else [n]

/-- The port a lane belongs to. -/
def portOf (n : Nat) (s : State) : Nat := if inGroup n s then n / 4 * 4 else n

/-- Unit interval of a mode in ticks, as numerator and denominator (R168). -/
def uiOf (mode : Nat) : Nat × Nat := if mode = 1 then (5, 8) else if mode = 2 then (5, 66) else (1, 33)

/-- Word width of a mode (R168). -/
def wordBits (mode : Nat) : Nat := if mode = 1 then 20 else 40

/-- Word period of a mode in ticks, as numerator and denominator (R168). -/
def wordTicks (mode : Nat) : Nat × Nat := if mode = 1 then (25, 2) else if mode = 2 then (100, 33) else (40, 33)

/-- Words from one measured edge of a mode's clock to the next (R168). -/
def measuredEvery (mode : Nat) : Nat := if mode = 1 then 1 else if mode = 2 then 2 else 4

/-- Words that the 64 measurements of a channel's ring span (R168). -/
def ringSpan (mode : Nat) : Nat := 64 * measuredEvery mode

/-- `n` times a rational number of ticks, in 2⁻²⁴ tick. R172 states the unit of a term and the rounding of the result, not how a term that is no whole
number of 2⁻²⁴ tick is rounded: DESIGN CHOICE (log entry 239), each term down. -/
def ticks24 (n : Int) (q : Nat × Nat) : Int := n * q.1 * 2 ^ 24 / q.2

/-- Index of a mode's line rate in a calibration record: 1.25, 10.3125, 25.78125 Gbit/s (R628). -/
def rateOf (mode : Nat) : Nat := if mode = 1 then 0 else if mode = 2 then 1 else 2

/-! ### Calibration values -/

/-- The calibration record of target KIND × 64 + INDEX. -/
def State.calRec (s : State) (k : Nat) : CalRec := spGet CalRec.reset s.calRecs k

/-- The state with a calibration record replaced. -/
def State.setCalRec (s : State) (k : Nat) (r : CalRec) : State := { s with calRecs := spSet CalRec.reset s.calRecs k r }

/-- The values of target `k` that a stamp with stamp point `x` uses (R628): new values from their x_a on. -/
def calAt (k x : Nat) (s : State) : CalVals :=
  let r := s.calRec k
  match r.waiting with
  | some w => if w.1 ≤ x then w.2 else if r.since ≤ x then r.vals else r.older
  | none => if r.since ≤ x then r.vals else r.older

/-- φ of a fine code on channel `ch` of target `k`, in 2⁻²⁴ tick (R630). -/
def phi (k ch code x : Nat) (s : State) : Nat :=
  match (calAt k x s).map with
  | [] => (Config.factoryPhi k ch code).val
  | m => m.getD (ch * 320 + code) 0

/-- The delay of target `k` at record index `i`, in 2⁻¹⁶ ns (R628). -/
def calDelay (k i x : Nat) (s : State) : Int :=
  match spGet none (calAt k x s).delays i with
  | some v => v
  | none => Config.factoryDelay k i

/-- A_RX of a lane: for its line rate and the PEAK in use (R215). -/
def aRx (n x : Nat) (s : State) : Int := calDelay n (rateOf (s.mode n) * 16 + s.getF (Reg.sdsCtlePeakUsed n)) x s

/-- A_TX of a lane: for its line rate (R634). -/
def aTx (n x : Nat) (s : State) : Int := calDelay n (48 + rateOf (s.mode n)) x s

/-- The CAL_LANE_REC, CAL_EVTIN_REC, CAL_OUT_REC or CAL_DEV_REC register of target `k`. -/
def recAddr (k : Nat) : Nat :=
  (if k / 64 = 0 then 0xD00100 else if k / 64 = 1 then 0xD00200 else if k / 64 = 2 then 0xD00220 else 0xD00260) + k % 64 * 4

/-- TEMP of a target's record register: the reference temperature of the current line rate or standard, of a device channel that of
its TDC map; a disabled lane has no current line rate, and its TEMP stays. -/
def showRecTemp (k : Nat) (s : State) : State :=
  if k / 64 = 0 ∧ s.mode k = 0 then s else
  let i :=
    if k / 64 = 0 then rateOf (s.mode k)
    else if k / 64 = 1 then (spGet EventIn.reset s.em.inputs (k % 64)).std
    else if k / 64 = 2 then (if k % 64 < 8 then s.getF (Reg.plOutStatusStd (k % 64)) - 1 else 0)
    else 3
  s.setI ⟨recAddr k, 0, 16⟩ ((s.calRec k).temps.getD i 0)

/-- PTS_A_RX and PTS_A_TX show the constants of the current mode (R215). -/
def showConstants (n : Nat) (s : State) : State :=
  let s := showRecTemp n s
  if 48 ≤ n ∨ s.mode n = 0 then s
  else (s.setI (Reg.ptsARx n) (aRx n s.dtt s)).setI (Reg.ptsATx n) (aTx n s.dtt s)

/-! ### Stamps -/

/-- One unit of 2⁻¹⁶ ns is exactly 200 units of 2⁻²⁴ tick. -/
def sns24 (v : Int) : Int := v * 200

/-- The measurements of a ring that a stamp may use: every Nth word back from the newest one, 64 at most (R168, R171). -/
def ringOf (m : EdgeMeas) (s : State) : List EdgeEntry :=
  let mode := s.mode m.lane
  match m.ring with
  | [] => []
  | n :: _ => (m.ring.filter (fun e => decide (n.word < e.word + ringSpan mode) && (n.word - e.word) % measuredEvery mode = 0)).take 64

/-- The ring's entry nearest to word `j` (R171). The manual does not say which of two as near: DESIGN CHOICE (log entry 240), the newer. -/
def nearestEntry (j : Nat) (r : List EdgeEntry) : EdgeEntry :=
  r.foldl (fun (a e : EdgeEntry) => if ((e.word : Int) - j).natAbs < ((a.word : Int) - j).natAbs then e else a) (r.headD ⟨j, 0, 0⟩)

/-- A measured word edge in 2⁻²⁴ tick: coarse tick and φ of the fine code (R171), by the code-density record of a stamp point at tick `x` (R628). -/
def edge24 (lane ch : Nat) (e : EdgeEntry) (x : Nat) (s : State) : Int := (e.tick * 2 ^ 24 + phi lane ch e.code x s : Nat)

/-- Sum of `f` over the entries of a ring. -/
def ringSum (f : EdgeEntry → Int) (r : List EdgeEntry) : Int := (r.map f).sum

/-- `n` times the receive word period, in 2⁻²⁴ tick: the slope of the least-squares line of edge against word over the 16 newest entries (R171), rounded
down; the nominal period where one entry alone stands in the ring. -/
def rxSpan (n : Int) (m : EdgeMeas) (x : Nat) (s : State) : Int :=
  let r := (ringOf m s).take 16
  let k : Int := r.length
  let w (e : EdgeEntry) : Int := e.word
  let t (e : EdgeEntry) : Int := edge24 m.lane 0 e x s
  let den := k * ringSum (fun e => w e * w e) r - ringSum w r * ringSum w r
  if den = 0 then ticks24 n (wordTicks (s.mode m.lane))
  else n * (k * ringSum (fun e => w e * t e) r - ringSum w r * ringSum t r) / den

/-- RX_CORR of a port in its current mode for a stamp point at tick `x` (R178, R180). -/
def rxCorr (p x : Nat) (s : State) : Int :=
  let a := Reg.ptsCorrRx p (s.mode p - 1)
  s.timedAt a (s.getI64 a) x

/-- TX_CORR of a port in its current mode for a stamp point at tick `x`. -/
def txCorr (p x : Nat) (s : State) : Int :=
  let a := Reg.ptsCorrTx p (s.mode p - 1)
  s.timedAt a (s.getI64 a) x

/-- t_RX without its correction, in 2⁻²⁴ tick: t_w(j) − L_RX + (b + 1) × UI (R169), with the calibration values of a stamp point at tick `x`. -/
def rxPoint (m : EdgeMeas) (x : Nat) (s : State) : Int :=
  let n := m.lane
  let ui := uiOf (s.mode n)
  let l := sns24 (aRx n x s) + ticks24 (s.getF (Reg.ptsLatRxSlip n)) ui + ticks24 (s.getF (Reg.ptsLatRxCdr n)) (ui.1, ui.2 * 64)
  let e := nearestEntry m.word (ringOf m s)
  edge24 n 0 e x s + rxSpan ((m.word : Int) - e.word) m x s - l + ticks24 (m.bit + 1) ui

/-- An ingress stamp in TK80 units (R169, R172); the stamp point itself decides which calibration values and which correction it takes (R180, R628). -/
def rxStamp (p : Nat) (m : EdgeMeas) (s : State) : Nat :=
  let x := rxPoint m (rxPoint m (nearestEntry m.word (ringOf m s)).tick s / 2 ^ 24).toNat s
  ((x - sns24 (rxCorr p (x / 2 ^ 24).toNat s)) / 2 ^ 8).toNat

/-- Position of a lane's phase interpolator at tick `x` (R220): from where it stood, one step per 64 words toward its target. -/
def piAt (n x : Nat) (s : State) : Nat :=
  let l := s.lane n
  let t := s.getF (Reg.sdsTrimPiTgt n)
  let w := wordTicks (s.mode n)
  let k := (x - l.piAt) * w.2 / (64 * w.1)
  if l.piFrom ≤ t then min t (l.piFrom + k) else max t (l.piFrom - k)

/-- t_TX without its correction, in 2⁻²⁴ tick: t_w(j) + L_TX + (b + 1) × UI (R170), extrapolated from ring entry `e` at the exact word period (R171). A
`predicted` one includes what the interpolator moves between the two words (R177, R182). -/
def txPoint (predicted : Bool) (m : EdgeMeas) (e : EdgeEntry) (x : Nat) (s : State) : Int :=
  let n := m.lane
  let ui := uiOf (s.mode n)
  let l := sns24 (aTx n x s) + ticks24 (s.getF (Reg.ptsLatTxSlip n)) ui
  let t := edge24 n 1 e x s + ticks24 ((m.word : Int) - e.word) (wordTicks (s.mode n))
  let move : Int := if predicted then (piAt n (t / 2 ^ 24).toNat s : Int) - piAt n e.tick s else 0
  t + ticks24 move (ui.1, ui.2 * 64) + l + ticks24 (m.bit + 1) ui

/-- An egress stamp in TK80 units from ring entry `e` (R170, R172). -/
def txStampFrom (predicted : Bool) (p : Nat) (m : EdgeMeas) (e : EdgeEntry) (s : State) : Nat :=
  let x := txPoint predicted m e (txPoint predicted m e e.tick s / 2 ^ 24).toNat s
  ((x + sns24 (txCorr p (x / 2 ^ 24).toNat s)) / 2 ^ 8).toNat

/-- The measured egress stamp: from the nearest measured word (R171, R183). -/
def txStamp (p : Nat) (m : EdgeMeas) (s : State) : Nat := txStampFrom false p m (nearestEntry m.word (ringOf m s)) s

/-- The predicted egress stamp: from the latest measured transmit edge (R182). -/
def txPredict (p : Nat) (m : EdgeMeas) (s : State) : Nat := txStampFrom true p m ((ringOf m s).headD ⟨m.word, 0, 0⟩) s

/-! ### Validity -/

/-- Whether a lane's calibration is current for its stamps: every part accepted, and no wake calibration due (R642). -/
def calCurrent (n : Nat) (s : State) : Bool :=
  s.isF (Reg.calLaneRecTdcOk n) && s.isF (Reg.calLaneRecThreshOk n) && s.isF (Reg.calLaneRecDelayOk n) && !(s.lane n).calWait

/-- Whether port `p` is the input of a direct-path connection in an FEC mode, whose decoder is a monitor there (R198). -/
def fecMonitor (p : Nat) (s : State) : Bool := s.isF (Reg.swPortStatusDpRx p) && s.fec p ≠ 0

/-- The cause that makes receive stamps of port `p` invalid, 0 for none: 3 inner loop, 1 calibration, 4 link, 5 the monitor of R198 not aligned, 2 latency
report, in the order of PTS_STATUS.CAUSE. In the FEC modes the receiver's lock is the alignment (R174), so a direct-path input that is not locked shows 5 and
not 4. -/
def rxCause (p : Nat) (s : State) : Nat :=
  let ls := portLanes p s
  let lock := ls.any (fun n => s.isF (Reg.sdsStatusRxLock n))
  if !s.innerLocked then 3
  else if !ls.all (fun n => calCurrent n s) then 1
  else if !s.linkUp p && !lock && !fecMonitor p s then 4
  else if !lock && fecMonitor p s then 5
  else if !ls.all (fun n => s.isF (Reg.ptsLatRxValid n)) then 2
  else 0

/-- The cause that makes transmit stamps of port `p` invalid, 0 for none; a transmitter that is not started counts as a
link that is down. -/
def txCause (p : Nat) (s : State) : Nat :=
  let ls := portLanes p s
  if !s.innerLocked then 3
  else if !ls.all (fun n => calCurrent n s) then 1
  else if !s.isF (Reg.sdsStatusTxOn p) then 4
  else if !ls.all (fun n => s.isF (Reg.ptsLatTxValid n)) then 2
  else 0

/-- The lane in the group that PTS_VALID_CHG names (R202): the first of port `p` that has the cause shown, lane 0 where the cause is none or no lane's alone. -/
def causeLane (p cause : Nat) (rx : Bool) (s : State) : Nat :=
  ((portLanes p s).find? (fun n =>
    if cause = 1 then !calCurrent n s
    else if cause = 2 then !s.isF (if rx then Reg.ptsLatRxValid n else Reg.ptsLatTxValid n)
    else if cause = 4 ∨ cause = 5 then !s.isF (if rx then Reg.sdsStatusRxLock n else Reg.sdsStatusTxOn n)
    else true)).elim 0 (fun n => n - p)

/-- PTS_STATUS of port `p` follows its causes; PTS_VALID_CHG at every change of RX_VALID or TX_VALID of a configured port
(R202). -/
def stampStatus (p : Nat) (s : State) : State :=
  let rc := if s.mode p = 0 then 4 else rxCause p s
  let tc := if s.mode p = 0 then 4 else txCause p s
  let rv := rc = 0
  let tv := tc = 0
  let cause := if rc = 0 then tc else rc
  let chg : Bool := s.isF (Reg.ptsStatusRxValid p) ≠ decide rv || s.isF (Reg.ptsStatusTxValid p) ≠ decide tv
  let s := ((s.setB (Reg.ptsStatusRxValid p) rv).setB (Reg.ptsStatusTxValid p) tv).setF (Reg.ptsStatusCause p) cause
  if chg && s.mode p ≠ 0 then
    raiseEv p 1 0x0886 [(20, le 1 (causeLane p cause (decide (rc ≠ 0)) s)), (21, le 1 (b2n (decide rv) + 2 * b2n (decide tv))), (22, le 1 cause)] s
  else s

/-- Every port's PTS_STATUS follows a change that touches them all: the inner loop's lock. -/
def stampStatusAll (s : State) : State :=
  (List.range 48).foldl (fun s p => if s.mode p = 0 || inGroup p s then s else stampStatus p s) s

/-! ### Stamp FIFOs -/

/-- The stamp FIFO `k`: 2p for RX of port p, 2p + 1 for TX. -/
def State.fifo (s : State) (k : Nat) : StampFifo := spGet ⟨[], false, 0, none⟩ s.fifos k

/-- The state with a stamp FIFO replaced, and its registers showing it: OCC and the head window (R194). -/
def setFifo (k : Nat) (f : StampFifo) (s : State) : State :=
  let p := k / 2
  let s := { s with fifos := spSet ⟨[], false, 0, none⟩ s.fifos k f }
  let h := f.entries.headD []
  let w (i : Nat) : Nat := ofLe (slice h (4 * i) 4)
  if k % 2 = 0 then
    ((((s.setF (Reg.ptsRxfCtrlOcc p) f.entries.length).setF (Reg.ptsRxfW0 p) (w 0)).setF (Reg.ptsRxfW1 p) (w 1)).setF
      (Reg.ptsRxfW2 p) (w 2)).setF (Reg.ptsRxfW3 p) (w 3)
  else
    ((((s.setF (Reg.ptsTxfCtrlOcc p) f.entries.length).setF (Reg.ptsTxfW0 p) (w 0)).setF (Reg.ptsTxfW1 p) (w 1)).setF
      (Reg.ptsTxfW2 p) (w 2)).setF (Reg.ptsTxfW3 p) (w 3)

/-- THRESH of a FIFO. -/
def fifoThresh (k : Nat) (s : State) : Nat :=
  if k % 2 = 0 then s.getF (Reg.ptsRxfCtrlThresh (k / 2)) else s.getF (Reg.ptsTxfCtrlThresh (k / 2))

/-- One entry is written, whose making `b` is told of a loss before it (R193); PTS_FIFO_THRESH when the occupancy rises to THRESH (R195). -/
def fifoWrite (k : Nat) (b : Bool → Bytes) (s : State) : State :=
  let f := s.fifo k
  let n := f.entries.length + 1
  let s := setFifo k { f with entries := f.entries ++ [b f.loss], loss := false } s
  if fifoThresh k s = n then raiseEv (k / 2) 0 0x0881 [(20, le 1 (k % 2)), (22, le 2 n)] s else s

/-- A stamp entry (R190): stamp, the served domain's QC at it, PTP identity, tag and flags; LOSS comes from the FIFO. -/
structure StampItem where
  stamp : Nat
  qc : Nat
  seqId : Nat
  msgType : Nat
  ptpDom : Nat
  tag : Nat
  invalid : Bool
  pred : Bool
  dp : Bool
  bad : Bool

/-- The 16 bytes of a stamp entry (R190): time, DOMAIN and STEPC are those of the stamp (R160). -/
def StampItem.encode (i : StampItem) (loss : Bool) (s : State) : Bytes :=
  let d := s.servedAt i.stamp
  record 16
    [(0, le 6 (cs48 (s.servedTime i.stamp))), (6, le 2 i.seqId), (8, le 1 i.msgType), (9, le 1 i.ptpDom), (10, le 2 i.tag),
     (12, le 2 (s.stepcAt d i.stamp)), (14, le 1 i.qc),
     (15, le 1 (b2n i.invalid + 4 * b2n loss + 8 * d + 16 * b2n i.pred + 32 * b2n i.dp + 64 * b2n i.bad))]

/-- The base record of a stamp FIFO before entry `i` (R191). -/
def fifoBase (i : StampItem) (loss : Bool) (s : State) : Bytes :=
  let d := s.servedAt i.stamp
  record 16 [(0, ftBytes (s.servedTime i.stamp)), (12, le 2 (s.stepcAt d i.stamp)), (14, le 1 i.qc), (15, le 1 (2 + 4 * b2n loss + 8 * d))]

/-- A stamp enters FIFO `k`: in SIGNED mode behind a base record where one is due (R138, R191); a stamp that finds no free
slot but the one kept for a base is discarded and counted, with PTS_FIFO_LOSS at most once a millisecond (R193). -/
def fifoPut (k : Nat) (i : StampItem) (s : State) : State :=
  let f := s.fifo k
  if f.entries.length < 255 then
    let ns := (s.servedTime i.stamp).toNat / 2 ^ 16
    let s := if needsBase 0 k [ns] s then noteBase k ns (fifoWrite k (fun l => fifoBase i l s) s) else s
    fifoWrite k (fun l => i.encode l s) s
  else
    let lost := f.lostNew + 1
    let s := if k % 2 = 0 then s.addSat (Reg.ptsLostRx (k / 2)) 1 else s.addSat (Reg.ptsLostTx (k / 2)) 1
    let quiet : Bool := match f.lossAt with | none => true | some t => decide (t + 781250 ≤ s.dtt)
    if quiet then
      raiseEv (k / 2) 1 0x0882 [(20, le 1 (k % 2)), (24, le 4 lost)]
        (setFifo k { f with loss := true, lostNew := 0, lossAt := some s.dtt } s)
    else setFifo k { f with loss := true, lostNew := lost } s

/-- A pop of `n` entries (R194). -/
def fifoPop (k n : Nat) (s : State) : State :=
  let f := s.fifo k
  setFifo k { f with entries := f.entries.drop n } s

/-! ### Errors injected into frames -/

/-- One line bit of frame bytes `d` is flipped: bit `k` counted over all of them. -/
def flipBit (d : Bytes) (k : Nat) : Bytes := d.modify (k / 8) (fun b => b ^^^ BitVec.ofNat 8 (2 ^ (k % 8)))

/-- Errors injected into live line code of egress `n` reach the frame it has sent (R226): INJ 1 its one bit, INJ 2 one bit in every 2^RATE. Which bit of a frame
falls on the interval the manual leaves open, and that it falls into a frame and not between two: a free value (log entry 248). -/
def injectSent (n : Nat) (s : State) : State :=
  if 48 ≤ n then s
  else
    (portLanes n s).foldl (fun s m =>
      if !s.isF (Reg.sdsPrbsCtrlTraffic m) || s.isF (Reg.sdsStatusPrbsTx m) then s
      else
        let d := spGet [] s.sw.sent n
        let f := s.draw
        let bits := 8 * d.length
        let flip (k : Nat) (s : State) : State := { s with sw := { s.sw with sent := spSet [] s.sw.sent n (flipBit d k) } }
        if (s.lane m).injectDue then flip (f.1 % max 1 bits) (f.2.setLane m { s.lane m with injectDue := false })
        else if s.getF (Reg.sdsPrbsCtrlInj m) = 2 then
          let k := f.1 % 2 ^ s.getF (Reg.sdsPrbsCtrlRate m)
          if k < bits then flip k f.2 else f.2
        else s) s

end Sys2Proof.Machine
end

