-- ==== Sys2Proof/Machine/Tables.lean ====
section
/-! DEFINITION. Forwarding tables and learning: the exact-match table with its lookups, insertion, relocation and deletion
(R433 to R446), learning and aging (R447 to R454), walks, flush and digest (R455 to R463), routes and next hops
(R465 to R469), and the commands of group 0x0A. -/

set_option Elab.async false

namespace Sys2Proof.Machine

/-! ### Entries and places -/

/-- The key block of a canonical entry: bytes 0 to 35 with byte 1 at 0 (R437). -/
def keyBlock (c : Bytes) : Bytes := (slice c 0 1) ++ [0] ++ slice c 2 34

/-- The 40-byte canonical form of an entry (R435). -/
def FtEntry.canon (e : FtEntry) : Bytes :=
  slice e.key 0 1 ++ le 1 e.eflags ++ slice e.key 2 34 ++ le 1 e.destType ++ le 1 e.gen ++ le 2 e.dest

/-- VID of an entry. -/
def FtEntry.vid (e : FtEntry) : Nat := ofLe (slice e.key 2 2)

/-- Whether STATIC, LOCK, HIT is set. -/
def FtEntry.isStatic (e : FtEntry) : Bool := bit e.eflags 0

/-- Bucket of bank `b` for a key block (R437). -/
def ftBucket (b : Nat) (key : Bytes) : Nat := (if b = 0 then crc32c key else crc32 key) % 2 ^ 17

/-- Whether slot number `n` counts as occupied: part of an entry, or STUCK (R446, R617). -/
def slotUsed (n : Nat) (s : State) : Bool :=
  (ftHolder n s).isSome || s.mp.stuck.contains (mpWord 4 (2 * n)) || s.mp.stuck.contains (mpWord 4 (2 * n + 1))

/-- Whether the region of width `w` at LOC `loc` is free. -/
def regionFree (w loc : Nat) (s : State) : Bool := (List.range w).all (fun k => !slotUsed (slotNumber loc + k) s)

/-- The lowest free aligned region of width `w` in bucket `b` of a bank (R442). -/
def bankFree (bank b w : Nat) (s : State) : Option Nat :=
  ((List.range (4 / w)).map (fun k => ftLoc bank (k * w) b)).find? (fun l => regionFree w l s)

/-- The lowest free aligned region of width `w` in the stash (R442). -/
def stashFree (w : Nat) (s : State) : Option Nat :=
  ((List.range (256 / w)).map (fun k => ftLoc 2 0 (k * w))).find? (fun l => regionFree w l s)

/-- Slots in use among the entries of a region number, with STUCK slots that hold none. -/
def regionOcc (r : Nat) (s : State) : Nat :=
  let used := ((s.ft.slots.filter (fun e => e.1 / 2 ^ 19 % 4 = r)).map (fun e => (e.2.map (fun x => ftWidth x.type)).getD 0)).sum
  let stuck := (s.mp.stuck.filter (fun w => mpMem w = 4)).map (fun w => mpAddr w / 2)
  used + (stuck.eraseDups.filter (fun n => slotLoc n / 2 ^ 19 = r && (ftHolder n s).isNone)).length

/-- FT_OCC_B0, FT_OCC_B1 and STASH_OCC follow the table. -/
def showOcc (s : State) : State :=
  ((s.setF Reg.ftOccB0 (regionOcc 0 s)).setF Reg.ftOccB1 (regionOcc 1 s)).setF Reg.ftStatusStashOcc (regionOcc 2 s)

/-- Every word of the region at `loc` is written (R444, R615). -/
def writeRegion (w loc : Nat) (s : State) : State :=
  (List.range (2 * w)).foldl (fun s k => mpWrite (mpWord 4 (2 * slotNumber loc + k)) s) s

/-- An entry is written at LOC `loc` in one arbiter slot (R444). -/
def ftPut (loc : Nat) (e : FtEntry) (s : State) : State :=
  showOcc (writeRegion (ftWidth e.type) loc { s with ft := { s.ft with slots := spSet none s.ft.slots loc (some e) } })

/-- The region of the entry at LOC `loc` is invalidated. -/
def ftDrop (loc : Nat) (s : State) : State :=
  match spGet none s.ft.slots loc with
  | none => s
  | some e => showOcc (writeRegion (ftWidth e.type) loc { s with ft := { s.ft with slots := spSet none s.ft.slots loc none } })

/-- The entry with a key block, with its LOC. -/
def ftFind (key : Bytes) (s : State) : Option (Nat × FtEntry) :=
  s.ft.slots.findSome? (fun e => e.2.bind (fun x => if x.key = key then some (e.1, x) else none))

/-- The slots a lookup of a key reads: both buckets and the whole stash (R438). -/
def readsSlot (key : Bytes) (n : Nat) : Bool :=
  if 1048576 ≤ n then true
  else if n < 524288 then n / 4 = ftBucket 0 key else (n - 524288) / 4 = ftBucket 1 key

/-- A lookup (R438, R439): words with a stored error are found on the way, and an uncorrectable entry is absent (R468). -/
def ftLookup (key : Bytes) (s : State) : Option (Nat × FtEntry) × State :=
  let bad := s.mp.errs.filter (fun e => mpMem e.1 = 4 && readsSlot key (mpAddr e.1 / 2))
  let s := if bad = [] then s else showOcc (bad.foldl (fun s e => (mpRead e.1 false s).2) s)
  (ftFind key s, s)

/-- HIT of the entry at LOC `loc` is set; a change is a partial write of its first word (R440, R613). -/
def setHit (loc : Nat) (s : State) : State :=
  match spGet none s.ft.slots loc with
  | none => s
  | some e =>
    if bit e.eflags 2 then s
    else mpPartial (mpWord 4 (2 * slotNumber loc)) 1
      { s with ft := { s.ft with slots := spSet none s.ft.slots loc (some { e with eflags := e.eflags + 4 }) } }

/-! ### Walk order -/

/-- The place of a LOC in the walk order: bank 0 buckets, bank 1 buckets, stash slots (R455). -/
def walkPlace (loc : Nat) : Nat :=
  let r := loc / 2 ^ 19 % 4
  if r = 2 then 262144 + loc % 2 ^ 17 else r * 131072 + loc % 2 ^ 17

/-- The first place of the walk tail. -/
def tailPlace : Nat := 262400

/-- A place as a LOC; in the tail, TAIL with the number of the key. -/
def placeLoc (p : Nat) : Nat :=
  if tailPlace ≤ p then 2 ^ 21 + (p - tailPlace)
  else if 262144 ≤ p then ftLoc 2 0 (p - 262144) else ftLoc (p / 131072) 0 (p % 131072)

/-- FT_STATUS.TAIL_OCC follows the walk. -/
def showTail (s : State) : State := s.setF Reg.ftStatusTailOcc ((s.ft.walk.map (fun w => w.tail.length)).getD 0)

/-- A move during an open walk from at or after the cursor to before it puts the key on the tail of 64 (R456, R458). -/
def noteMove (src dst : Nat) (key : Bytes) (s : State) : State :=
  match s.ft.walk with
  | none => s
  | some w =>
    if w.cursor ≤ walkPlace src ∧ walkPlace dst < w.cursor then
      let w' := if w.tail.length < 64 then { w with tail := w.tail ++ [key] } else { w with lost := w.lost + 1 }
      showTail { s with ft := { s.ft with walk := some w' } }
    else s

/-- One move, copy first (R443): HIT goes with the entry. -/
def ftMove (src dst : Nat) (s : State) : State :=
  match spGet none s.ft.slots src with
  | none => s
  | some e => noteMove src dst e.key (ftDrop src (ftPut dst e s))

/-! ### Insertion -/

/-- Regions of width `w` in a bucket that hold one entry of that width and no STUCK slot, lowest first: what a move may
vacate (R442). -/
def movable (bank b w : Nat) (s : State) : List Nat :=
  ((List.range (4 / w)).map (fun k => ftLoc bank (k * w) b)).filter (fun l =>
    (match spGet none s.ft.slots l with | some e => ftWidth e.type = w | none => false) &&
    (List.range w).all (fun k => !s.mp.stuck.contains (mpWord 4 (2 * (slotNumber l + k))) &&
      !s.mp.stuck.contains (mpWord 4 (2 * (slotNumber l + k) + 1))))

/-- The bucket of the other bank for the entry at LOC `l`. -/
def otherBucket (l : Nat) (s : State) : Nat × Nat :=
  let bank := 1 - l / 2 ^ 19 % 4
  (bank, ((spGet none s.ft.slots l).map (fun e => ftBucket bank e.key)).getD 0)

/-- The first node of a level whose entry has a free region in its other bucket, with that region. -/
def pathEnd (w : Nat) (nodes : List (List Nat)) (s : State) : Option (List Nat × Nat) :=
  nodes.findSome? (fun p =>
    match p with
    | [] => none
    | l :: _ =>
      let o := otherBucket l s
      (bankFree o.1 o.2 w s).map (fun d => (p, d)))

/-- The next level: from every node, the movable regions of its entry's other bucket that have not been seen. -/
def nextLevel (w : Nat) (nodes : List (List Nat)) (seen : List Nat) (s : State) : List (List Nat) × List Nat :=
  nodes.foldl (fun a p =>
    match p with
    | [] => a
    | l :: _ =>
      let o := otherBucket l s
      let new := (movable o.1 o.2 w s).filter (fun x => !a.2.contains x)
      (a.1 ++ new.map (fun x => x :: p), a.2 ++ new)) ([], seen)

/-- Breadth-first search for a path of at most `n` moves (R442 step 3): the regions to vacate, deepest first, and where the
deepest entry goes. -/
def ftPath (w : Nat) : Nat → List (List Nat) → List Nat → State → Option (List Nat × Nat)
  | 0, _, _, _ => none
  | n + 1, nodes, seen, s =>
    match pathEnd w nodes s with
    | some r => some r
    | none =>
      let x := nextLevel w nodes seen s
      if x.1 = [] then none else ftPath w n x.1 x.2 s

/-- The moves of a path, the deepest first; the answer is the region they leave free. -/
def ftMoves : List Nat → Nat → State → Nat × State
  | [], d, s => (d, s)
  | l :: r, d, s => ftMoves r l (ftMove l d s)

/-- Where a new entry of a key and width goes, with the moves made (R442); none when the table has no region. -/
def ftPlace (key : Bytes) (w : Nat) (s : State) : Option (Nat × Nat × State) :=
  let b0 := ftBucket 0 key
  let b1 := ftBucket 1 key
  match bankFree 0 b0 w s with
  | some l => some (l, 0, s)
  | none => match bankFree 1 b1 w s with
    | some l => some (l, 0, s)
    | none =>
      let roots := (movable 0 b0 w s ++ movable 1 b1 w s)
      match (if w ≤ 2 then ftPath w 16 (roots.map (fun l => [l])) roots s else none) with
      | some (p, d) => let r := ftMoves p d s; some (r.1, p.length, r.2)
      | none => (stashFree w s).map (fun l => (l, 0, s))

/-- After a removal, at most one stash entry moves back: the one in the lowest stash slot whose bucket has room (R445). -/
def stashReturn (s : State) : State :=
  let cand := (List.range 256).findSome? (fun k =>
    let l := ftLoc 2 0 k
    match spGet none s.ft.slots l with
    | none => none
    | some e =>
      let w := ftWidth e.type
      match bankFree 0 (ftBucket 0 e.key) w s with
      | some d => some (l, d)
      | none => (bankFree 1 (ftBucket 1 e.key) w s).map (fun d => (l, d)))
  match cand with
  | some (l, d) => ftMove l d s
  | none => s

/-! ### Next hops and routes -/

/-- Next hop `i`, where one has been written. -/
def State.nextHop (s : State) (i : Nat) : Option NextHop := spGet none s.ft.nexthops i

/-- Whether next hop `i` is VALID (R467). -/
def nhValid (i : Nat) (s : State) : Bool := ((s.nextHop i).map (·.valid)).getD false

/-- References to next hop `i` from routes and host entries (R467). -/
def nhRefs (i : Nat) (s : State) : Nat :=
  (s.ft.routes.filter (fun r => r.rtype = 0 && r.nh = i)).length +
  (s.ft.slots.filter (fun e => (e.2.map (fun x => decide (x.destType = 3 ∧ x.dest = i))).getD false)).length

/-- The `k`-th number below `n` that `used`, in rising order, does not hold, counted round; `n` where all are used. -/
def nthFree (k n : Nat) (used : List Nat) : Nat :=
  let free := n - used.length
  if free = 0 then n
  else used.foldl (fun c u => if u ≤ c then c + 1 else c) (k % free)

/-- Rising order. -/
def insertNat (x : Nat) : List Nat → List Nat
  | [] => [x]
  | y :: r => if x ≤ y then x :: y :: r else y :: insertNat x r

/-- A list in rising order. -/
def sortNat : List Nat → List Nat
  | [] => []
  | x :: r => insertNat x (sortNat r)

/-- `n` free places below `limit` beside those of `used` (in rising order); which ones the manual leaves open. -/
def allocate : Nat → Nat → List Nat → State → List Nat × State
  | 0, _, _, s => ([], s)
  | n + 1, limit, used, s =>
    let d := s.draw
    let c := nthFree d.1 limit used
    let r := allocate n limit (insertNat c used) d.2
    (c :: r.1, r.2)

/-- Whole words are written: `per` words of memory `mem` for each cell (R615). -/
def writeCells (mem per : Nat) (cells : List Nat) (s : State) : State :=
  if s.mp.errs = [] ∧ s.mp.tracker = [] ∧ s.mp.sticky = [] then s
  else cells.foldl (fun s c => (List.range per).foldl (fun s j => mpWrite (mpWord mem (per * c + j)) s) s) s

/-- FT_ROUTE_OCC and FT_NH_OCC follow their tables. -/
def showRoutes (s : State) : State :=
  (s.setF Reg.ftRouteOcc ((s.ft.routes.map (fun r => r.units.length)).sum)).setF Reg.ftNhOcc
    (s.ft.nexthops.filter (fun e => (e.2.map (·.valid)).getD false)).length

/-- Whether the first `n` bits of two addresses agree. -/
def bitsAgree (n : Nat) (a b : Bytes) : Bool :=
  let w := 8 * min a.length b.length
  ofBe (a.take (w / 8)) / 2 ^ (w - n) = ofBe (b.take (w / 8)) / 2 ^ (w - n)

/-- The valid prefix of family `kind` that is longest among those containing address `a` (R465). -/
def routeMatch (kind : Nat) (a : Bytes) (s : State) : Option Route :=
  (s.ft.routes.filter (fun r => (r.key.getD 0 0).toNat = kind && bitsAgree (r.key.getD 1 0).toNat a (slice r.key 4 (if kind = 0 then 4 else 16)))).foldl
    (fun m r => match m with
      | none => some r
      | some x => if (x.key.getD 1 0).toNat < (r.key.getD 1 0).toNat then some r else some x) none

/-- Words of a route or next hop with a stored error are found when the item is used (R469). -/
def readWords (mem : Nat) (addrs : List Nat) (s : State) : State :=
  if s.mp.errs = [] then s else addrs.foldl (fun s a => (mpRead (mpWord mem a) false s).2) s

/-! ### Learning -/

/-- Tokens of the learn limiter now, in 10⁻¹¹ token: RATE per second, at most 1,024 (R448). -/
def learnTokens (s : State) : Nat :=
  sat 102400000000000 (s.ft.tokens + (s.dtt - s.ft.tokensAt) * 128 * s.getF Reg.ftLrnStatusRate)

/-- FT_LRN_LOSS for the second that has ended, where notifications were discarded in it (R470). -/
def learnSecond (s : State) : State :=
  let sec := s.dtt / 781250000
  if s.ft.lossSec = sec then s
  else
    let n := s.ft.lossNew
    let s := { s with ft := { s.ft with lossSec := sec, lossNew := 0 } }
    if n = 0 then s else raiseEv 112 1 0x0A03 [(24, le 4 (sat 0xFFFFFFFF n))] s

/-- A notification is discarded and counted (R448, R470). -/
def learnDrop (s : State) : State :=
  let s := count (devCtr 1) 1 (s.set64 Reg.ftLrnDrop ((s.get64 Reg.ftLrnDrop + 1) % 2 ^ 64))
  let s := learnSecond s
  { s with ft := { s.ft with dropped := sat 0xFFFFFFFF (s.ft.dropped + 1), lossNew := s.ft.lossNew + 1 } }

/-- Whether the learn ring takes a record: enabled and not full (R450). -/
def learnRoom (s : State) : Bool := ringUsable learnRing s && !ringFull learnRing s

/-- One learn record (R450). -/
def learnRecord (mac vid kind src lag oldType gen oldDest : Nat) (s : State) : State :=
  let dropped := s.ft.dropped
  let s' := s
  let s := { s with ft := { s.ft with dropped := 0 } }
  ringPut learnRing (fun ph => record 32
    [(0, le 8 s'.dtt), (8, be 6 mac), (14, le 2 vid), (16, le 1 kind), (17, le 1 (b2n ph + 2 * b2n (dropped ≠ 0))), (18, le 1 src),
     (19, le 1 lag), (20, le 1 oldType), (21, le 1 gen), (22, le 2 oldDest), (24, le 4 dropped)]) s

/-- A learn notification (R447, R448): the filter, then the limiter and the ring. -/
def learnNotify (kind src lag vid mac : Nat) (old : Option FtEntry) (s : State) : State :=
  let us := s.getF Reg.ftLrnCoalCoalesceUs
  let k := vid * 2 ^ 48 + mac
  let held := us ≠ 0 && s.ft.filter.any (fun e => e.1 = k && decide ((s.dtt - e.2) * 100 < us * 78125))
  if s.getF Reg.ftLrnStatusRate = 0 || held then s
  else
    let t := learnTokens s
    let s := { s with ft := { s.ft with tokens := t, tokensAt := s.dtt } }
    if t < 100000000000 || !learnRoom s then learnDrop s
    else
      let f := s.ft.filter.filter (fun e => e.1 ≠ k)
      let f := if 4096 ≤ f.length then f.drop 1 else f
      let s := { s with ft := { s.ft with tokens := t - 100000000000, filter := if us = 0 then s.ft.filter else f ++ [(k, s.dtt)] } }
      count (devCtr 0) 1 (learnRecord mac vid kind src lag ((old.map (·.destType)).getD 0) 0 ((old.map (·.dest)).getD 0) s)

/-- Whether the source of a frame is included in an entry's destination: its port, or its link aggregation group. -/
def destIncludes (e : FtEntry) (src : Nat) (s : State) : Bool :=
  (e.destType = 0 && e.dest = src) ||
  (e.destType = 1 && (match spGet none s.sw.lags e.dest with | some l => bit l.members src | none => false))

/-! ### Aging -/

/-- Slots of the exact-match table. -/
def ftSlots : Nat := 1048832

/-- Whether the ager's visit of slot number `slot` is due: it is next in location order, and the scan has come to its part of the
period, over which the visits are spread evenly (R451). -/
def agerDue (slot : Nat) (s : State) : Bool :=
  s.isF Reg.ftAgeStatusEn && decide (slot < ftSlots) && slotLoc slot = s.ft.ageNext &&
    decide (s.ft.ageNext * s.ft.agePeriod * 781250000 ≤ (s.dtt - s.ft.ageStart) * ftSlots)

/-- The ager goes on to the next location; a new scan starts when the period ends, with the period then set (R451). -/
def agerOn (s : State) : State :=
  if s.ft.ageNext + 1 < ftSlots then { s with ft := { s.ft with ageNext := s.ft.ageNext + 1 } }
  else
    { s with ft := { s.ft with ageNext := 0, ageStart := s.ft.ageStart + s.ft.agePeriod * 781250000,
                               agePeriod := s.getF Reg.ftAgeStatusPeriodS } }

/-- AGER_VISIT: the ager visits slot number `slot` when its turn has come (R451, R454). An entry is visited where its region
starts. -/
def execAgerVisit (slot : Nat) (s : State) : Out :=
  if !agerDue slot s then .next s
  else
    let s := agerOn s
    let s := (mpRead (mpWord 4 (2 * slot + 1)) false (mpRead (mpWord 4 (2 * slot)) false s).2).2
    let loc := slotLoc slot
    match spGet none s.ft.slots loc with
    | none => .next s
    | some e =>
      if e.isStatic then .next s
      else if bit e.eflags 2 then
        .next (mpPartial (mpWord 4 (2 * slot)) 1
          { s with ft := { s.ft with slots := spSet none s.ft.slots loc (some { e with eflags := e.eflags - 4 }) } })
      else
        let s := count (devCtr 2) 1 (ftDrop loc s)
        if !s.isF Reg.ftAgeStatusNotify then .next s
        else if learnRoom s then
          .next (learnRecord (ofBe (slice e.key 4 6)) e.vid 4 0xFF 0xFF e.destType e.gen e.dest s)
        else .next (learnDrop s)

/-! ### Items, filter, partitions -/

/-- An item of the tables as a filter sees it (R461): type number, destination, VID, GEN, STATIC, and its partition key. -/
structure FtItem where
  type : Nat
  destType : Nat
  dest : Nat
  vid : Nat
  gen : Nat
  isStatic : Bool
  key : Bytes

/-- An entry as an item. -/
def FtEntry.item (e : FtEntry) : FtItem := ⟨e.type, e.destType, e.dest, e.vid, e.gen, e.isStatic, e.key⟩

/-- A route as an item: its RTYPE as the DEST_TYPE NEXTHOP, DROP or TRAP. -/
def Route.item (r : Route) : FtItem :=
  ⟨8 + (r.key.getD 0 0).toNat, 3 + r.rtype, r.nh, 0, r.gen, false, r.key⟩

/-- Next hop `i` as an item: its egress as the DEST_TYPE PORT or LAG. -/
def NextHop.item (n : NextHop) (i : Nat) : FtItem :=
  ⟨10, b2n n.lag, n.egress, n.vid, n.gen, false, [2, 0] ++ le 2 i⟩

/-- PART_BITS of a filter. -/
def partBits (f : Bytes) : Nat := (f.getD 9 0).toNat

/-- The partition of a key (R461). -/
def partition (pb : Nat) (key : Bytes) : Nat := crc32c key % 2 ^ 17 / 2 ^ (17 - pb)

/-- Whether an item passes a filter (R461); `allStatic` lets STATIC items pass whatever FFLAGS bit 2 says. -/
def passes (f : Bytes) (allStatic allParts : Bool) (i : FtItem) (s : State) : Bool :=
  let ff := (f.getD 2 0).toNat
  let dt := (f.getD 3 0).toNat
  let d := ofLe (slice f 4 2)
  let gm := ff / 8 % 4
  bit (ofLe (slice f 0 2)) i.type &&
  (!bit ff 0 || (i.destType = dt && i.dest = d) ||
    (dt = 0 && i.destType = 1 && (match spGet none s.sw.lags i.dest with | some l => bit l.members d | none => false))) &&
  (!bit ff 1 || i.vid = ofLe (slice f 6 2)) &&
  (gm = 0 || (gm = 1 && i.gen = (f.getD 8 0).toNat) || (gm = 2 && i.gen ≠ (f.getD 8 0).toNat)) &&
  (allStatic || !i.isStatic || bit ff 2) &&
  (allParts || partition (partBits f) i.key = ofLe (slice f 10 2))

/-- The entries whose walk place lies from `a` to below `b`, in walk order with their LOC. -/
def entriesIn (a b : Nat) (s : State) : List (Nat × FtEntry) :=
  let l := (s.ft.slots.filterMap (fun e => e.2.map (fun x => (e.1, x)))).filter
    (fun e => decide (a ≤ walkPlace e.1) && decide (walkPlace e.1 < b))
  let order := sortNat (l.map (fun e => walkPlace e.1 * 4 + e.1 / 2 ^ 17 % 4))
  order.filterMap (fun k => l.find? (fun e => walkPlace e.1 * 4 + e.1 / 2 ^ 17 % 4 = k))

/-- Stored errors in the slots of the walk places from `a` to below `b` are found on the way (R468). -/
def walkReads (a b : Nat) (s : State) : State :=
  let bad := s.mp.errs.filter (fun e => mpMem e.1 = 4 &&
    decide (a ≤ walkPlace (slotLoc (mpAddr e.1 / 2))) && decide (walkPlace (slotLoc (mpAddr e.1 / 2)) < b))
  if bad = [] then s else showOcc (bad.foldl (fun s e => (mpRead e.1 false s).2) s)

/-! ### Argument checks -/

/-- DEST range by DEST_TYPE (R436). -/
def destInRange (dt d : Nat) : Bool :=
  match dt with
  | 0 => decide (d ≤ 48)
  | 1 => decide (d ≤ 23)
  | 2 => decide (d ≤ 8191)
  | 3 => decide (d ≤ 16383)
  | 4 => d = 0
  | 5 => d = 0
  | 6 => decide (d ≤ 15)
  | 7 => decide (d ≤ 63)
  | _ => false

/-- DEST_TYPE allowed for TYPE (R434). -/
def destAllowed (type dt : Nat) : Bool :=
  if type = 1 then [0, 1, 2, 4, 6, 7].contains dt
  else if type ≤ 3 then [3, 4, 5].contains dt
  else [2, 4, 5, 7].contains dt

/-- What is invalid in the key of a canonical entry (R435). -/
def entryKeyBad (c : Cmd) : List (Nat × Bool) :=
  let t := cu c 0 1
  let z (o n : Nat) : Bool := cu c o n ≠ 0
  [(0, decide (t = 0 ∨ 7 < t)), (2, decide (4096 ≤ cu c 2 2) || ((t = 2 || t = 3) && cu c 2 2 ≠ 0)),
   (4, (t = 1 && (z 4 0 || z 10 10)) || ((t = 2 || t = 4 || t = 5) && z 8 12)),
   (20, (t ≠ 5 && t ≠ 7 && z 20 16) || (t = 5 && z 24 12))]

/-- What is invalid in a filter (R461); `digest` and `flush` name the command. -/
def filterBad (c : Cmd) (digest flush : Bool) : List (Nat × Bool) :=
  let ty := cu c 0 2
  let ff := cu c 2 1
  [(0, bit ty 0 || decide (2048 ≤ ty) || (!digest && decide (256 ≤ ty))),
   (2, decide (32 ≤ ff) || (!flush && bit ff 2) || ff / 8 % 4 = 3), (3, bit ff 0 && decide (7 < cu c 3 1)),
   (4, bit ff 0 && decide (cu c 3 1 ≤ 7) && !destInRange (cu c 3 1) (cu c 4 2)), (6, bit ff 1 && decide (4096 ≤ cu c 6 2)), (9, decide (8 < cu c 9 1)),
   (10, if digest then cu c 10 2 ≠ 0 else decide (2 ^ cu c 9 1 ≤ cu c 10 2))] ++ reserved c 12 4

/-- Whether the walker is held: by an open walk, a flush or a digest (R112). -/
def walkerHeld (s : State) : Bool := s.getF Reg.ftStatusWalker ≠ 0

/-! ### Insert, delete, search -/

def ftInsertSpec : CmdSpec :=
  { opcode := 0x0A01, unmirrored := true, lenOk := lenIs 40,
    args := fun c _ => firstBad (entryKeyBad c ++
      [(1, decide (16 ≤ cu c 1 1) || (bit (cu c 1 1) 1 && cu c 0 1 ≠ 1)), (36, !destAllowed (cu c 0 1) (cu c 36 1)),
       (38, !destInRange (cu c 36 1) (cu c 38 2))]),
    stops := fun c s => firstStop
      [(cu c 36 1 = 3 && !nhValid (cu c 38 2) s, stRefused, 0x0A04)] }

/-- The reply of FT_INSERT. -/
def insertReply (loc moves : Nat) (replaced : Bool) : Reply :=
  okWith [(32, le 4 loc), (36, le 1 moves), (37, le 1 (b2n replaced + 2 * b2n (loc / 2 ^ 19 % 4 = 2)))]

/-- The effect of FT_INSERT (R440 to R443): the key is looked up first, which finds an uncorrectable entry absent (R468). -/
def ftInsertEffect (c : Cmd) (s : State) : State × Reply :=
  let key := keyBlock c.payload
  let e : FtEntry := ⟨key, cu c 1 1 % 4, cu c 36 1, cu c 37 1, cu c 38 2⟩
  let r := ftLookup key s
  match r.1 with
  | some (loc, old) =>
    if cbit c 1 3 then (r.2, failWith stRefused 0x0A01)
    else (ftPut loc { e with eflags := e.eflags + 4 * b2n (bit old.eflags 2) } r.2, insertReply loc 0 true)
  | none => match ftPlace key (ftWidth e.type) r.2 with
    | some (loc, n, s) => (ftPut loc { e with eflags := e.eflags + 4 } s, insertReply loc n false)
    | none => (r.2, failWith stTableFull 0)

/-- FT_INSERT. -/
def execFtInsert (c : Cmd) (s : State) : Out := runCmd ftInsertSpec ftInsertEffect c s

/-- The reply of FT_DELETE and FT_SEARCH. -/
def entryReply (loc : Nat) (e : FtEntry) : Reply :=
  okBuf [(32, le 4 loc), (36, e.canon.drop 36), (40, e.canon.take 24)] e.canon

def ftDeleteSpec : CmdSpec :=
  { opcode := 0x0A02, unmirrored := true, lenOk := lenIs 40, args := fun c _ => firstBad (entryKeyBad c) }

/-- The effect of FT_DELETE (R445). -/
def ftDeleteEffect (c : Cmd) (s : State) : State × Reply :=
  let r := ftLookup (keyBlock c.payload) s
  match r.1 with
  | none => (r.2, failWith stNotFound 0)
  | some (loc, e) => (stashReturn (ftDrop loc r.2), entryReply loc e)

/-- FT_DELETE. -/
def execFtDelete (c : Cmd) (s : State) : Out := runCmd ftDeleteSpec ftDeleteEffect c s

def ftSearchSpec : CmdSpec :=
  { opcode := 0x0A03, unmirrored := true, reports := true, lenOk := lenIs 40, args := fun c _ => firstBad (entryKeyBad c) }

/-- The effect of FT_SEARCH (R439). -/
def ftSearchEffect (c : Cmd) (s : State) : State × Reply :=
  let r := ftLookup (keyBlock c.payload) s
  match r.1 with
  | none => (r.2, failWith stNotFound 0)
  | some (loc, e) => (r.2, entryReply loc e)

/-- FT_SEARCH. -/
def execFtSearch (c : Cmd) (s : State) : Out := runCmd ftSearchSpec ftSearchEffect c s

/-! ### Walks -/

def ftWalkOpenSpec : CmdSpec :=
  { opcode := 0x0A04, unmirrored := true, lenOk := lenIs 16, args := fun c _ => firstBad (filterBad c false false),
    stops := fun _ s => firstStop [(walkerHeld s, stBusy, 0)] }

/-- The effect of FT_WALK_OPEN (R455). -/
def ftWalkOpenEffect (c : Cmd) (s : State) : State × Reply :=
  (showTail ({ s with ft := { s.ft with walk := some ⟨slice c.payload 0 16, 0, [], 0, s.dtt⟩ } }.setF Reg.ftStatusWalker 1), okReply)

/-- FT_WALK_OPEN. -/
def execFtWalkOpen (c : Cmd) (s : State) : Out := runCmd ftWalkOpenSpec ftWalkOpenEffect c s

/-- The walk closes (R460). -/
def closeWalk (s : State) : State := showTail ({ s with ft := { s.ft with walk := none } }.setF Reg.ftStatusWalker 0)

/-- A walk record of 48 bytes (R459). -/
def walkRecord (loc : Nat) (e : FtEntry) : Bytes := le 4 loc ++ le 4 0 ++ e.canon

/-- Records of whole buckets from the entries of the walk order, while they fit in `room`: the records and the first place not
visited (R459). -/
def takeBuckets : List (Nat × FtEntry) → List (Nat × FtEntry) → Nat → List (Nat × FtEntry) × Option Nat
  | [], acc, _ => (acc, none)
  | e :: r, acc, room =>
    let p := walkPlace e.1
    let more := (r.filter (fun x => walkPlace x.1 = p)).length + 1
    let begun := acc.any (fun x => walkPlace x.1 = p)
    if begun || decide (acc.length + more ≤ room) then takeBuckets r (acc ++ [e]) room else (acc, some p)

/-- Tail keys from number `i` on, while they fit: the records and the number of the first key not visited (R456). -/
def takeTail (f : Bytes) : List Bytes → Nat → List Bytes → Nat → State → List Bytes × Nat
  | [], i, acc, _, _ => (acc, i)
  | k :: r, i, acc, room, s =>
    match ftFind k s with
    | none => takeTail f r (i + 1) acc room s
    | some (loc, e) =>
      if !passes f true false e.item s then takeTail f r (i + 1) acc room s
      else if acc.length < room then takeTail f r (i + 1) (acc ++ [walkRecord (loc + 2 ^ 21) e]) room s
      else (acc, i)

def ftWalkNextSpec : CmdSpec :=
  { opcode := 0x0A05, stepped := true, unmirrored := true, lenOk := lenIs 4,
    args := fun c _ => firstBad ((0, decide (0 < cu c 0 2) && decide (cu c 0 2 < 4)) :: reserved c 2 2),
    need := fun _ _ => 192,
    stops := fun _ s => firstStop [(s.ft.walk = none, stNotFound, 0)] }

/-- The one step of FT_WALK_NEXT (R457 to R460): records of whole buckets, then the tail; the walk closes after its last
record. -/
def walkNextStep (o : LongOp) (s : State) : State × StepEnd :=
  match s.ft.walk with
  | none => (s, .done (failWith stNotFound 0))
  | some w =>
    let mx := cu o.cmd 0 2
    if mx = 0 then
      ({ s with ft := { s.ft with walk := some { w with last := s.dtt } } },
       .done (okWith [(36, le 1 (2 * b2n (decide (tailPlace ≤ w.cursor)))), (40, le 4 (placeLoc w.cursor)), (44, le 4 w.lost)]))
    else
      let room := min mx (o.cmd.bufSize / 48)
      let s := walkReads w.cursor tailPlace s
      let es := (entriesIn w.cursor tailPlace s).filter (fun e => passes w.filter true false e.2.item s)
      let a := takeBuckets es [] room
      let recs := a.1.map (fun e => walkRecord e.1 e.2)
      let t := match a.2 with
        | some _ => (recs, 0)
        | none => takeTail w.filter (w.tail.drop (w.cursor - tailPlace)) (w.cursor - tailPlace) recs room s
      let cur := match a.2 with | some p => p | none => tailPlace + t.2
      let fin := a.2 = none && decide (w.tail.length ≤ t.2)
      let fs := [(32, le 4 t.1.length), (36, le 1 (b2n fin + 2 * b2n (decide (tailPlace ≤ cur)))), (40, le 4 (placeLoc cur)), (44, le 4 w.lost)]
      let s := if fin then closeWalk s else { s with ft := { s.ft with walk := some { w with cursor := cur, last := s.dtt } } }
      (s, .done ⟨if fin && decide (0 < w.lost) then stWalkIncomplete else stOk, 0, resultOf fs, t.1.flatten⟩)

/-- FT_WALK_NEXT. -/
def execFtWalkNext (c : Cmd) (s : State) : Out := runStepped ftWalkNextSpec walkNextStep c s

def ftWalkCloseSpec : CmdSpec :=
  { opcode := 0x0A06, unmirrored := true, lenOk := lenIs 0, stops := fun _ s => firstStop [(s.ft.walk = none, stNotFound, 0)] }

/-- The effect of FT_WALK_CLOSE (R460). -/
def ftWalkCloseEffect (_ : Cmd) (s : State) : State × Reply := (closeWalk s, okReply)

/-- FT_WALK_CLOSE. -/
def execFtWalkClose (c : Cmd) (s : State) : Out := runCmd ftWalkCloseSpec ftWalkCloseEffect c s

/-- FT_WALK_TIMEOUT: 10 s (7,812,500,000 ticks) without FT_WALK_NEXT close the walk (R460, R470). -/
def execFtWalkTimeout (s : State) : Out :=
  match s.ft.walk with
  | none => .next s
  | some w =>
    if w.last + 7812500000 ≤ s.dtt then .next (raiseEv 112 0 0x0A02 [(24, le 4 (placeLoc w.cursor))] (closeWalk s)) else .next s

/-! ### Flush and digest -/

/-- Walk places one step of a flush or digest takes. -/
def stepPlaces : Nat := 8192

/-- Steps over the whole walk order. -/
def walkSteps : Nat := (tailPlace + stepPlaces - 1) / stepPlaces

def ftFlushPortSpec : CmdSpec :=
  { opcode := 0x0A07, stepped := true, unmirrored := true, lenOk := lenIs 16, args := fun c _ => firstBad (filterBad c false true),
    stops := fun _ s => firstStop [(walkerHeld s, stBusy, 0)] }

/-- What a flush answers from its record: entries removed and the cursor (R462). -/
def flushReply (st : Nat) (o : LongOp) : Reply :=
  ⟨st, 0, resultOf [(32, le 4 (o.work.getD 1 0)), (36, le 4 (placeLoc (o.work.getD 0 0)))], []⟩

/-- One step of FT_FLUSH_PORT (R462); its record holds the cursor and the entries removed. -/
def flushStep (o : LongOp) (s : State) : State × StepEnd :=
  let a := o.work.getD 0 0
  let b := min tailPlace (a + stepPlaces)
  let s := walkReads a b (s.setF Reg.ftStatusWalker 2)
  let out := (entriesIn a b s).filter (fun e => passes (slice o.cmd.payload 0 16) false false e.2.item s)
  let s := out.foldl (fun s e => ftDrop e.1 s) s
  let o := { o with work := [b, o.work.getD 1 0 + out.length], estimate := walkSteps - o.done - 1 }
  if b = tailPlace then (s.setF Reg.ftStatusWalker 0, .done (flushReply stOk o)) else (s, .more o)

/-- FT_FLUSH_PORT. -/
def execFtFlushPort (c : Cmd) (s : State) : Out := runStepped ftFlushPortSpec flushStep c s

def ftDigestSpec : CmdSpec :=
  { opcode := 0x0A0C, stepped := true, unmirrored := true, lenOk := lenIs 16, args := fun c _ => firstBad (filterBad c true false),
    need := fun c _ => 16 * 2 ^ cu c 9 1,
    stops := fun _ s => firstStop [(walkerHeld s, stBusy, 0)] }

/-- The 24-byte FT_ROUTE_WRITE payload of a route. -/
def Route.payload (r : Route) : Bytes := slice r.key 0 20 ++ le 1 r.rtype ++ le 1 r.gen ++ le 2 r.nh

/-- The 24-byte FT_ROUTE_WRITE payload of next hop `i`. -/
def NextHop.payload (n : NextHop) (i : Nat) : Bytes :=
  [2, 0] ++ le 2 i ++ be 6 n.dmac ++ le 1 (b2n n.lag) ++ le 1 n.egress ++ le 2 n.vid ++ List.replicate 6 0 ++ le 1 n.gen ++
    le 1 (b2n n.valid) ++ [0, 0]

/-- An item joins the digest of its partition: the count, and the sum of its SHA-256's first 8 bytes (R463). `w` holds the
cursor, then a count and a sum per partition. -/
def digestAdd (pb : Nat) (key form : Bytes) (w : List Nat) : List Nat :=
  let p := partition pb key
  let v := ofLe ((sha256 form).take 8)
  (w.modify (1 + 2 * p) (· + 1)).modify (2 + 2 * p) (fun x => (x + v) % 2 ^ 64)

/-- One step of FT_DIGEST (R463); the last step adds routes and next hops. -/
def digestStep (o : LongOp) (s : State) : State × StepEnd :=
  let f := slice o.cmd.payload 0 16
  let pb := partBits f
  let w := if o.work = [] then 0 :: List.replicate (2 * 2 ^ pb) 0 else o.work
  let a := w.getD 0 0
  let b := min tailPlace (a + stepPlaces)
  let s := walkReads a b (s.setF Reg.ftStatusWalker 3)
  let es := (entriesIn a b s).filter (fun e => passes f true true e.2.item s)
  let w := es.foldl (fun w e => digestAdd pb e.2.key { e.2 with eflags := e.2.eflags % 4 }.canon w) (w.set 0 b)
  if b = tailPlace then
    let w := (s.ft.routes.filter (fun r => passes f true true r.item s)).foldl (fun w r => digestAdd pb r.key r.payload w) w
    let w := (s.ft.nexthops.filterMap (fun e => e.2.map (fun n => (e.1, n)))).foldl (fun w e =>
      if passes f true true (e.2.item e.1) s then digestAdd pb (e.2.item e.1).key (e.2.payload e.1) w else w) w
    let ps := List.range (2 ^ pb)
    let cnt := (ps.map (fun p => w.getD (1 + 2 * p) 0)).sum
    let sum := (ps.map (fun p => w.getD (2 + 2 * p) 0)).sum % 2 ^ 64
    (s.setF Reg.ftStatusWalker 0,
     .done (okBuf [(32, le 4 cnt), (40, le 8 sum)] (ps.map (fun p => le 8 (w.getD (1 + 2 * p) 0) ++ le 8 (w.getD (2 + 2 * p) 0))).flatten))
  else (s, .more { o with work := w, estimate := walkSteps - o.done - 1 })

/-- FT_DIGEST. -/
def execFtDigest (c : Cmd) (s : State) : Out := runStepped ftDigestSpec digestStep c s

/-! ### Aging, learning, routes -/

def ftSetAgingSpec : CmdSpec :=
  { opcode := 0x0A08, unmirrored := true, lenOk := lenIs 8,
    args := fun c _ => firstBad ((0, cu c 0 4 = 0 || decide (3600 < cu c 0 4)) :: reservedAbove c 4 2 :: reserved c 5 3) }

/-- The effect of FT_SET_AGING (R451, R454): the ager starts a scan where it was off; a running scan keeps its period. -/
def ftSetAgingEffect (c : Cmd) (s : State) : State × Reply :=
  let s := if cbit c 4 0 && !s.isF Reg.ftAgeStatusEn then
      { s with ft := { s.ft with ageNext := 0, ageStart := s.dtt, agePeriod := cu c 0 4 } } else s
  (((s.setF Reg.ftAgeStatusPeriodS (cu c 0 4)).setB Reg.ftAgeStatusEn (cbit c 4 0)).setB Reg.ftAgeStatusNotify (cbit c 4 1), okReply)

/-- FT_SET_AGING. -/
def execFtSetAging (c : Cmd) (s : State) : Out := runCmd ftSetAgingSpec ftSetAgingEffect c s

def ftLearnConfigSpec : CmdSpec :=
  { opcode := 0x0A0B, unmirrored := true, lenOk := lenIs 8,
    args := fun c _ => firstBad ((0, decide (8000000 < cu c 0 4)) :: reservedAbove c 6 2 :: reserved c 7 1) }

/-- The effect of FT_LEARN_CONFIG (R447, R448): tokens gathered so far were gathered at the old rate. -/
def ftLearnConfigEffect (c : Cmd) (s : State) : State × Reply :=
  let s := { s with ft := { s.ft with tokens := learnTokens s, tokensAt := s.dtt } }
  ((((s.setF Reg.ftLrnStatusRate (cu c 0 4)).setF Reg.ftLrnCoalCoalesceUs (cu c 4 2)).setB Reg.ftLrnStatusMove (cbit c 6 0)).setB
    Reg.ftLrnStatusStaticMove (cbit c 6 1), okReply)

/-- FT_LEARN_CONFIG. -/
def execFtLearnConfig (c : Cmd) (s : State) : Out := runCmd ftLearnConfigSpec ftLearnConfigEffect c s

/-- What is invalid in bytes 0 to 19 of a route or next-hop payload. -/
def routeKeyBad (c : Cmd) : List (Nat × Bool) :=
  let k := cu c 0 1
  let len := if k = 0 then 32 else 128
  let a := ofBe (slice c.payload 4 (len / 8))
  if k = 2 then
    [(1, cu c 1 1 ≠ 0), (2, decide (16383 < cu c 2 2))]
  else
    [(0, decide (2 < k)), (1, decide (len < cu c 1 1)), (2, cu c 2 2 ≠ 0),
     (4, decide (cu c 1 1 ≤ len) && a % 2 ^ (len - cu c 1 1) ≠ 0), (8, k = 0 && cu c 8 12 ≠ 0)]

def ftRouteWriteSpec : CmdSpec :=
  { opcode := 0x0A09, unmirrored := true, lenOk := lenIs 24,
    args := fun c _ => firstBad (routeKeyBad c ++
      (if cu c 0 1 = 2 then
        [(10, decide (1 < cu c 10 1)), (11, if cu c 10 1 = 0 then decide (47 < cu c 11 1) else decide (23 < cu c 11 1)),
         (12, decide (4096 ≤ cu c 12 2)), (14, cu c 14 6 ≠ 0), reservedAbove c 21 1, (22, cu c 22 2 ≠ 0)]
      else
        [(20, decide (2 < cu c 20 1)), (22, if cu c 20 1 = 0 then decide (16383 < cu c 22 2) else cu c 22 2 ≠ 0)])),
    stops := fun c s => firstStop
      [(cu c 0 1 ≠ 2 && cu c 20 1 = 0 && !nhValid (cu c 22 2) s, stRefused, 0x0A04),
       (cu c 0 1 ≠ 2 && !s.ft.routes.any (fun r => r.key = slice c.payload 0 20) &&
         decide (131072 < (s.ft.routes.map (fun r => r.units.length)).sum + (if cu c 0 1 = 0 then 1 else 4)), stTableFull, 0)] }

/-- Words of route units or of a next hop are written whole. -/
def writeUnits (mem : Nat) (us : List Nat) (s : State) : State :=
  us.foldl (fun s u => mpWrite (mpWord mem (2 * u + 1)) (mpWrite (mpWord mem (2 * u)) s)) s

/-- The effect of FT_ROUTE_WRITE (R466). -/
def ftRouteWriteEffect (c : Cmd) (s : State) : State × Reply :=
  if cu c 0 1 = 2 then
    let i := cu c 2 2
    let n : NextHop := ⟨ofBe (slice c.payload 4 6), cu c 10 1 = 1, cu c 11 1, cu c 12 2, cu c 20 1, cbit c 21 0, false⟩
    (showRoutes (writeUnits 6 [i] { s with ft := { s.ft with nexthops := spSet none s.ft.nexthops i (some n) } }), okReply)
  else
    let key := slice c.payload 0 20
    let old := s.ft.routes.find? (fun r => r.key = key)
    let used := sortNat ((s.ft.routes.map (·.units)).flatten)
    let a := match old with
      | some r => (r.units, s)
      | none => allocate (if cu c 0 1 = 0 then 1 else 4) 131072 used s
    let r : Route := ⟨key, cu c 20 1, cu c 21 1, cu c 22 2, a.1, false⟩
    let s := a.2
    (showRoutes (writeUnits 5 a.1 { s with ft := { s.ft with routes := s.ft.routes.filter (fun r => r.key ≠ key) ++ [r] } }), okReply)

/-- FT_ROUTE_WRITE. -/
def execFtRouteWrite (c : Cmd) (s : State) : Out := runCmd ftRouteWriteSpec ftRouteWriteEffect c s

def ftRouteDeleteSpec : CmdSpec :=
  { opcode := 0x0A0A, unmirrored := true, lenOk := lenIs 24, args := fun c _ => firstBad ((14, cu c 0 1 = 2 && cu c 14 6 ≠ 0) :: routeKeyBad c),
    stops := fun c s => firstStop
      [(if cu c 0 1 = 2 then (s.nextHop (cu c 2 2)).isNone else !s.ft.routes.any (fun r => r.key = slice c.payload 0 20), stNotFound, 0),
       (cu c 0 1 = 2 && decide (0 < nhRefs (cu c 2 2) s), stRefused, 0x0A03)] }

/-- The effect of FT_ROUTE_DELETE (R467). -/
def ftRouteDeleteEffect (c : Cmd) (s : State) : State × Reply :=
  if cu c 0 1 = 2 then
    let i := cu c 2 2
    (showRoutes (writeUnits 6 [i] { s with ft := { s.ft with nexthops := spSet none s.ft.nexthops i none } }), okReply)
  else
    let key := slice c.payload 0 20
    let us := ((s.ft.routes.find? (fun r => r.key = key)).map (·.units)).getD []
    (showRoutes (writeUnits 5 us { s with ft := { s.ft with routes := s.ft.routes.filter (fun r => r.key ≠ key) } }), okReply)

/-- FT_ROUTE_DELETE. -/
def execFtRouteDelete (c : Cmd) (s : State) : Out := runCmd ftRouteDeleteSpec ftRouteDeleteEffect c s

end Sys2Proof.Machine
end

