-- ==== Sys2Proof/Machine/Egress.lean ====
section
/-! DEFINITION. What every egress of the pipeline shares: release to forwarding (R36, R398), VLAN membership and link aggregation
(R406 to R408), the edits of a leaving frame (R184 to R188, R412), the cell pool with its admission (R472 to R485), shapers
(R487) and the ends of a copy. -/

set_option Elab.async false

namespace Sys2Proof.Machine

/-! ### Ports, VLANs, groups -/

/-- Forwarding settings of source `n`, with the defaults of R399 and SW_PORT_FORWARD. -/
def State.swPort (s : State) (n : Nat) : SwPort := spGet ⟨1522, 0, false, false, 0, 0, 0⟩ s.sw.ports n

/-- VLAN `v`; one that has not been set has no member. -/
def State.vlan (s : State) (v : Nat) : Vlan := spGet ⟨0, 0, 0, 0⟩ s.sw.vlans v

/-- Link aggregation group `g`, where enabled. -/
def State.lag (s : State) (g : Nat) : Option Lag := spGet none s.sw.lags g

/-- Whether an island is awake (R34 to R36). -/
def State.awake (s : State) (k : Nat) : Bool := s.islands.contains k

/-- The island of a port's pipeline half (R396). -/
def halfOf (p : Nat) : Nat := if p < 24 then 48 else 49

/-- Whether source `p` is released to forwarding as an egress (R36, R398): link up, L23_TX, and its half awake; the host port
by L23_TX alone, the twin port by its link. -/
def released (p : Nat) (s : State) : Bool :=
  if p < 48 then s.linkUp p && s.isF (Reg.swPortStatusL23Tx p) && s.awake (halfOf p)
  else if p = 48 then s.isF (Reg.swPortStatusL23Tx 48)
  else if p = 50 then s.isF Reg.twStatusLinkUp
  else true

/-- The enabled group that port `p` is a member of. -/
def lagOf (p : Nat) (s : State) : Option Nat :=
  s.sw.lags.findSome? (fun e => e.2.bind (fun l => if bit l.members p then some e.1 else none))

/-- The key bytes that HASH_SEL names, in key byte order (R407). -/
def hashBytes (sel : Nat) (k : Bytes) : Bytes :=
  let v4 := (k.getD 0 0).toNat % 4 = 1
  let pick (b o n : Nat) : Bytes := if bit sel b then slice k o n else []
  pick 9 1 1 ++ pick 2 2 2 ++ pick 3 4 2 ++ pick 0 6 6 ++ pick 1 12 6 ++ pick 6 18 1 ++ pick 7 20 2 ++ pick 8 22 2 ++
    (if v4 then pick 4 24 4 ++ pick 5 28 4 else pick 4 24 8 ++ pick 5 32 8)

/-- The member a group sends a frame to: the entry of its hash, or the next entry, ascending and wrapping, whose member's link
is up (R407, R408). -/
def lagMember (l : Lag) (key : Bytes) (s : State) : Option Nat :=
  let h := crc16 (hashBytes l.hashSel key) % 64
  ((List.range 64).map (fun k => l.table.getD ((h + k) % 64) 0)).find? (fun p => released p s)

/-! ### Edits -/

/-- TPID a source takes and sends (R405). -/
def tpidOf (n : Nat) (s : State) : Nat := if (s.swPort n).sTag then 0x88A8 else 0x8100

/-- Whether frame bytes are tagged for a source whose TPID is `t` (R405). -/
def taggedWith (t : Nat) (d : Bytes) : Bool := fb d 12 2 = t

/-- A frame's bytes without FCS after edit 1 of R412: the tag taken off, and the VLAN's tag put on unless the egress is untagged in
it. -/
def vlanEdit (f : Frame) (vid egress : Nat) (d : Bytes) (s : State) : Bytes :=
  let d := if taggedWith (if f.sTag then 0x88A8 else 0x8100) d then popTag d else d
  if bit (s.vlan vid).untagged egress then d else pushTag (tpidOf egress s) vid f.pcp d

/-- The residence of R185 in 2⁻¹⁶ ns, with the RATE at `e` of the domain served at `e`. -/
def residence (e i : Nat) (s : State) : Int :=
  let g := segAt (s.dom (s.servedAt e)).segs e
  (((e : Int) - i) * 128 * (2 ^ 48 + g.rate)) / (100 * 2 ^ 48)

/-- Whether the transparent clock takes a domainNumber (R256). -/
def tcDomain (n : Nat) (s : State) : Bool :=
  s.isF Reg.ttTcCfgAllDom ||
  (List.range 4).any (fun i => bit (s.getF Reg.ttTcCfgDomEn) i && s.getF Reg.ttTcDom / 256 ^ i % 256 = n)

/-- Whether TT_TC_CFG turns the transparent clock on: 1 E2E, 2 P2P (R256). -/
def tcMode (s : State) : Nat := if s.getF Reg.ttTcCfgMode = 3 then 0 else s.getF Reg.ttTcCfgMode

/-- The meanLinkDelay the enabled peer-delay session of a port has measured, in 2⁻¹⁶ ns (R258). -/
def portLinkDelay (p : Nat) (s : State) : Option Int :=
  s.tt.sessions.findSome? (fun e =>
    if s.getF (Reg.ttSStateState e.1) ≠ 0 ∧ (e.2.desc.getD 3 0).toNat = p then e.2.linkDelay else none)

/-- Asymmetry of a port at tick `x`, in 2⁻¹⁶ ns (R262, R263); it has no register, so its record stands under the key 2⁴⁰ + port. -/
def asymAt (p x : Nat) (s : State) : Int := s.timedAt (2 ^ 40 + p) 0 x

/-- Whether RESIDENCE is selected for a frame leaving an egress (R256), by its PTP header. -/
def residesOn (egress : Nat) (p : Parsed) (d : Bytes) (s : State) : Bool :=
  tcMode s ≠ 0 && p.ptp ≠ 0 && decide (egress < 48) && s.isF (Reg.ptsCfgUpdEn egress) && fb d p.ptp 1 % 16 < 4 &&
    tcDomain (fb d (p.ptp + 4) 1) s

/-- The PTP operations of a forwarded frame (R184, R256 to R258): RESIDENCE, and in P2P mode the ingress port's mean link delay and
asymmetry for a Sync. -/
def ptpEdit (f : Frame) (egress e : Nat) (d : Bytes) (s : State) : Bytes :=
  let p := parse d
  if residesOn egress p d s then
    let add := if tcMode s = 2 ∧ fb d p.ptp 1 % 16 = 0 then
        match portLinkDelay f.src s with
        | some m => m + asymAt f.src (f.tIn / 2 ^ 16) s
        | none => 0
      else 0
    addCorrection p (residence e f.tIn s + add) d
  else d

/-- The layer-3 edits of a routed copy (R412 item 2). -/
def routeEdit (c : Copy) (d : Bytes) (s : State) : Bytes :=
  if c.routed then
    let p := parse d
    let d := match c.dmac with | some m => put d 0 (be 6 m) | none => d
    decTtl p.body p.l3 (put d 6 (be 6 (s.vlan c.vid).rmac))
  else d

/-- DSCP rewrite and ECN marking (R412 items 3 and 4, R485). -/
def tosEdit (f : Frame) (c : Copy) (d : Bytes) : Bytes :=
  let p := parse d
  if p.l3 = 0 then d
  else
    let t := (match f.dscp with | some v => v * 4 + p.tos % 4 | none => p.tos)
    let t := if c.ecn then t / 4 * 4 + 3 else t
    if t = p.tos then d else setTos p.body p.l3 t d

/-- A copy's bytes without FCS after the edits of R412. `e` is the predicted egress stamp. A copy trapped to the host and an ESMC
frame for the management port are not forwarded and not edited. -/
def editedBytes (f : Frame) (c : Copy) (egress e : Nat) (s : State) : Bytes :=
  let d := noFcs f.data
  if c.reason < 8 || egress = 49 then d
  else ptpEdit f egress e (if c.direct then d else tosEdit f c (routeEdit c (vlanEdit f c.vid egress d s) s)) s

/-- The bytes of a copy as it leaves its egress, FCS included (R400): an unchanged frame keeps its FCS. -/
def copyBytes (f : Frame) (c : Copy) (egress e : Nat) (s : State) : Bytes :=
  let v := editedBytes f c egress e s
  if v = noFcs f.data then f.data else v ++ fcsOf v

/-- Whether a leaving copy carries a value of R184. -/
def carriesStamp (f : Frame) (c : Copy) (egress : Nat) (s : State) : Bool :=
  !(c.reason < 8) && residesOn egress (parse f.data) f.data s

/-- A frame's ending when it turned out bad after its head left (R415): `n` bytes in all with the bitwise inverse of the
correct FCS. -/
def stompBytes (d : Bytes) : Bytes := d ++ (fcsOf d).map (fun b => ~~~b)

/-! ### Line time -/

/-- TK80 units of one byte at a mode's line rate. -/
def byteUnits (mode : Nat) : Nat := if mode = 1 then 409600 else if mode = 2 then 40960 else if mode = 3 then 16384 else 4096

/-! ### The pool -/

/-- Cells of a frame of `n` bytes (R472). -/
def cellsOf (n : Nat) : Nat := (n + 255) / 256

/-- Pool frame `k`. -/
def State.poolFrame (s : State) (k : Nat) : Option Frame := spGet none s.bf.frames k

/-- The state with a pool frame replaced or removed. -/
def State.setPoolFrame (s : State) (k : Nat) (f : Option Frame) : State :=
  { s with bf := { s.bf with frames := spSet none s.bf.frames k f } }

/-- Queue `k`, source × 8 + queue. -/
def State.bq (s : State) (k : Nat) : QueueDyn := spGet ⟨[], 0⟩ s.bf.queues k

/-- The state with a queue replaced. -/
def State.setBq (s : State) (k : Nat) (q : QueueDyn) : State :=
  { s with bf := { s.bf with queues := spSet ⟨[], 0⟩ s.bf.queues k q } }

/-- The shared part S (R473). -/
def sharedSize (s : State) : Nat :=
  262144 - 2048 - s.getF Reg.bfPoolResMinSum - (if s.isF Reg.bfPoolResStage then 8192 else 0)

/-- The shared free count F: S less the cells frames charge to it and the quarantined cells (R474, R493). -/
def sharedFree (s : State) : Nat :=
  sharedSize s - ((s.bf.frames.map (fun e => (e.2.map (·.shared)).getD 0)).sum + s.mp.quarChip.length)

/-- BF_POOL_FREE shows F, with BF_POOL_LOW as R495 lays down. -/
def syncPool (s : State) : State :=
  let f := sharedFree s
  let s := s.setF Reg.bfPoolFreeF f
  if s.bf.freeWarn = 0 then s
  else if s.bf.lowArmed && decide (f < s.bf.freeWarn) then
    raiseEv 113 1 0x0B01 [(24, le 4 f)] { s with bf := { s.bf with lowArmed := false } }
  else if !s.bf.lowArmed && decide (s.bf.freeWarn + 4096 < f) then { s with bf := { s.bf with lowArmed := true } }
  else s

/-- Depth of queue `k` on chip and in DDR5. -/
def depth (k : Nat) (s : State) : Nat := s.getF (Reg.bfQStatusOcc k) + s.getF (Reg.bfQDocc k)

/-- BF_Q_STATUS.MARKING follows the depth. -/
def showMark (k : Nat) (s : State) : State :=
  s.setB (Reg.bfQStatusMarking k) (s.getF (Reg.bfQEcnEcnAt k) ≠ 0 && decide (s.getF (Reg.bfQEcnEcnAt k) ≤ depth k s))

/-- The on-chip occupancy of a queue changes. -/
def addOcc (k : Nat) (d : Int) (s : State) : State :=
  showMark k (s.setF (Reg.bfQStatusOcc k) ((s.getF (Reg.bfQStatusOcc k) : Int) + d).toNat)

/-- The DDR5 occupancy of a queue changes, and BF_SPILL_USED with it. -/
def addDocc (k : Nat) (d : Int) (s : State) : State :=
  showMark k ((s.setF (Reg.bfQDocc k) ((s.getF (Reg.bfQDocc k) : Int) + d).toNat).set64 Reg.bfSpillUsed
    ((s.get64 Reg.bfSpillUsed : Int) + d).toNat)

/-- On-chip cells that are not free: those of frames and those in quarantine. -/
def chipUsed (s : State) : List Nat :=
  sortNat ((s.bf.frames.map (fun e => (e.2.map (·.cells)).getD [])).flatten ++ s.mp.quarChip).eraseDups

/-- What R478 answers for one copy. -/
inductive Admission where
  | chip | spill | tailDrop | spillDrop | down
  deriving DecidableEq, Repr

/-- Whether a spill copy of `n` cells is admitted (R481): its limit, the free list with what staging will still ask of it, and
staging room. -/
def spillRoom (k n : Nat) (s : State) : Bool :=
  decide (s.getF (Reg.bfQDocc k) + n ≤ s.getF (Reg.bfQSpillSpillMax k) * 4096) &&
  decide (s.get64 Reg.bfSpillUsed + s.bf.staged + s.mp.quarDdr.length + n ≤ s.get64 Reg.bfSpillCap) && decide (s.bf.staged + n ≤ 8192)

/-- Whether spilling can start: a limit, a channel enabled, and no disable in progress (R478, R483). -/
def maySpill (k : Nat) (s : State) : Bool :=
  s.getF (Reg.bfQSpillSpillMax k) ≠ 0 && s.getF Reg.bfSpillStatusChEn ≠ 0 && !s.isF Reg.bfSpillStatusDraining

/-- The admission rule of R478 for a copy of `n` cells to queue `k`. -/
def admission (k n : Nat) (s : State) : Admission :=
  let occ := s.getF (Reg.bfQStatusOcc k)
  let mn := s.getF (Reg.bfQCfgMin k)
  let mx := s.getF (Reg.bfQLimMax k)
  let byspill := if spillRoom k n s then Admission.spill else Admission.spillDrop
  if !released (k / 8) s then .down
  else if s.isF (Reg.bfQStatusSpilling k) && !s.isF Reg.bfSpillStatusDraining then byspill
  else if occ < mn then .chip
  else if (mx = 0 ∨ occ < mx) ∧ occ * 128 < mn * 128 + 2 ^ s.getF (Reg.bfQCfgAlpha k) * s.getF Reg.bfPoolFreeF then .chip
  else if maySpill k s then byspill
  else .tailDrop

/-- The queue a copy takes at an egress (R476). -/
def queueOf (egress pcp : Nat) (s : State) : Nat :=
  if egress = 49 ∨ egress = 51 then 0
  else ((List.range 8).find? (fun q => bit (s.getF (Reg.bfQCfgPcpMask (egress * 8 + q))) pcp)).getD 0

/-- Cells of an admission on chip that go beyond MIN (R478). -/
def beyondMin (k n : Nat) (s : State) : Nat :=
  let occ := s.getF (Reg.bfQStatusOcc k)
  occ + n - max occ (s.getF (Reg.bfQCfgMin k))

/-- Whether a copy is marked at its admission (R485). -/
def marks (k : Nat) (f : Frame) (s : State) : Bool :=
  let p := parse f.data
  s.isF Reg.bfPoolResEcnEn && s.isF (Reg.bfQStatusMarking k) && p.l3 ≠ 0 && (p.tos % 4 = 1 || p.tos % 4 = 2)

/-- An admitted copy joins its queue: `before` is the state before the frame, in which its marking is judged; `n` its cells and
`len` its bytes. -/
def joinQueue (k n len : Nat) (c : Copy) (before : State) (s : State) : State :=
  match s.poolFrame c.frame with
  | none => s
  | some f =>
    let spilled : Bool := c.place = 1
    let m := marks k f before
    let f := { f with copies := f.copies + 1, shared := if spilled then f.shared else max f.shared (beyondMin k n before) }
    let q := s.bq k
    let s := (s.setPoolFrame c.frame (some f)).setBq k { q with copies := q.copies ++ [{ c with ecn := m }] }
    let s := count (queueCtr 0 k 1) len (count (queueCtr 0 k 0) 1 s)
    let s := if m then count (queueCtr 0 k 5) 1 s else s
    if spilled then
      let s := { s.setB (Reg.bfQStatusSpilling k) true with bf := { s.bf with staged := s.bf.staged + n } }
      s.setB Reg.bfSpillStatusStageFull (decide (8192 ≤ s.bf.staged))
    else addOcc k n s

/-- A copy ends: its cells return, and with the last copy the frame leaves the pool (R474). -/
def endCopy (k : Nat) (c : Copy) (s : State) : State :=
  match s.poolFrame c.frame with
  | none => s
  | some f =>
    let s :=
      if c.place = 0 then addOcc k (-(f.cells.length : Int)) s
      else if c.place = 1 then
        let s := { s with bf := { s.bf with staged := s.bf.staged - f.cells.length } }
        s.setB Reg.bfSpillStatusStageFull (decide (8192 ≤ s.bf.staged))
      else addDocc k (-(c.ddr.length : Int)) s
    if f.copies ≤ 1 then syncPool (s.setPoolFrame c.frame none)
    else s.setPoolFrame c.frame (some { f with copies := f.copies - 1 })

/-- A queued copy is taken out of queue `k`; a DWRR queue that becomes empty resets its deficit (R486). -/
def removeCopy (k : Nat) (c : Copy) (s : State) : State :=
  let q := s.bq k
  let r := q.copies.erase c
  let s := s.setBq k ⟨r, if r = [] then 0 else q.deficit⟩
  if r.any (fun x => x.place ≠ 0) then s else s.setB (Reg.bfQStatusSpilling k) false

/-- A queued copy is discarded, counted as `off` of its egress. -/
def discardCopy (k off : Nat) (c : Copy) (s : State) : State :=
  count (srcCtr (k / 8) off) 1 (endCopy k c (removeCopy k c s))

/-- Every copy queued for egress `n` is discarded and counted FLUSH_DROP; how many there were (R494). -/
def flushEgress (n : Nat) (s : State) : Nat × State :=
  (List.range 8).foldl (fun a q =>
    let k := n * 8 + q
    ((a.2.bq k).copies).foldl (fun a c => (a.1 + 1, discardCopy k 37 c a.2)) a) (0, s)

/-! ### Shapers -/

/-- Tokens of shaper `k` (source × 9 + shaper) now, in 10⁻⁵ byte: RATE Mbit/s is 16 × RATE of them in a tick (R487). -/
def tokens (k : Nat) (s : State) : Int :=
  let burst : Int := s.getF (Reg.bfShpBurst k) * 100000
  match spGet none s.bf.shapers k with
  | none => burst
  | some (v, t) => min burst (v + 16 * s.getF (Reg.bfShpRate k) * (s.dtt - t))

/-- Whether a shaper lets a frame start: unshaped, or tokens above 0. -/
def shaperOpen (k : Nat) (s : State) : Bool := s.getF (Reg.bfShpRate k) = 0 || decide (0 < tokens k s)

/-- A frame of `len` bytes that starts removes its length and 20 bytes. -/
def takeTokens (k len : Nat) (s : State) : State :=
  if s.getF (Reg.bfShpRate k) = 0 then s
  else { s with bf := { s.bf with shapers := spSet none s.bf.shapers k (some (tokens k s - (len + 20) * 100000, s.dtt)) } }

end Sys2Proof.Machine
end

