-- ==== Sys2Proof/Machine/Evidence.lean ====
section
/-! DEFINITION. Evidence and capture: net rings (R545 to R549), selectors and capture entries (R550 to R555), evidence
records and blocks (R556 to R563), boot and twin continuity (R564 to R566), the evidence ring and block retrieval
(R567, R568). -/

set_option Elab.async false

namespace Sys2Proof.Machine

/-! ### Events at most once a millisecond -/

/-- A happening counted now: how many fell in the last millisecond, and whether its event is due (R520, R548, R568). -/
def PerMs.note (r : PerMs) (now : Nat) : Nat × Bool × PerMs :=
  let ts := r.times.filter (fun t => decide (now < t + 781250)) ++ [now]
  let due := match r.raised with | none => true | some t => decide (t + 781250 ≤ now)
  (ts.length, due, ⟨ts, if due then some now else r.raised⟩)

/-! ### Net rings -/

/-- Net ring `n`. -/
def State.netRing (s : State) (n : Nat) : NetRing := spGet ⟨0, 1, 0, false, 0, false, ⟨[], none⟩⟩ s.netRings n

/-- The state with net ring `n` replaced. -/
def State.setNetRing (s : State) (n : Nat) (r : NetRing) : State :=
  { s with netRings := spSet ⟨0, 1, 0, false, 0, false, ⟨[], none⟩⟩ s.netRings n r }

/-- Entries of net ring `n`. -/
def nrSize (n : Nat) (s : State) : Nat := 2 ^ s.getF (Reg.capNrCfgLog2sz n)

/-- Free entries of net ring `n`. -/
def nrFree (n : Nat) (s : State) : Nat :=
  nrSize n s - 1 - (s.getF (Reg.capNrProdIndex n) + nrSize n s - s.getF (Reg.capNrConsIndex n)) % nrSize n s

/-- The interrupt condition of a net ring (R78, R548), signalled on vector 4 + n once until slots are returned. -/
def nrSignal (n : Nat) (s : State) : State :=
  let r := s.netRing n
  let d := s.ringDyn (16 + n)
  let met := decide (max 1 r.thresh ≤ d.times.length) ||
    (match d.times with | [] => false | t :: _ => decide (r.holdoff * 78125 ≤ (s.dtt - t) * 100))
  if met && !d.signalled then (s.setRing (16 + n) { d with signalled := true }).signalVector (4 + n) else s

/-- One 256-byte entry is written and the producer advances (R545, R547). -/
def nrPut (n : Nat) (e : Bool → Bytes) (s : State) : State :=
  let ix := s.getF (Reg.capNrProdIndex n)
  let s := s.dma ((s.netRing n).base + ix * 256) (e (s.isF (Reg.capNrProdPhase n)))
  let nx := (ix + 1) % nrSize n s
  let s := s.setF (Reg.capNrProdIndex n) nx
  if nx = 0 then s.setB (Reg.capNrProdPhase n) (!s.isF (Reg.capNrProdPhase n)) else s

/-- An item (its head entry, given PHASE, LOSS and SEQ, then its continuation entries) goes to net ring `n`: the
continuation entries are written first (R547); an item that does not fit is discarded whole and counted (R548); a
disabled ring takes nothing. -/
def nrItem (n : Nat) (head : Bool → Bool → Nat → Bytes) (conts : List Bytes) (s : State) : State :=
  if !s.isF (Reg.capNrCfgEn n) then s
  else if nrFree n s < conts.length + 1 then
    let s := count (devCtr (16 + n)) 1 (s.addSat (Reg.capNrDrop n) 1)
    let v := (s.netRing n).lost.note s.dtt
    let s := s.setNetRing n { s.netRing n with lossPending := true, lost := v.2.2 }
    if v.2.1 then raiseEv 117 1 0x0D11 [(20, le 1 n), (24, le 4 v.1)] s else s
  else
    -- the head entry stands first in the ring, and is handed over after its continuation entries
    let r := s.netRing n
    let hd := s.getF (Reg.capNrProdIndex n)
    let ph := s.isF (Reg.capNrProdPhase n)
    let s := nrPut n (fun _ => []) s
    let s := conts.foldl (fun s c => nrPut n (fun _ => c) s) s
    let s := s.dma (r.base + hd * 256) (head ph r.lossPending r.items)
    let s := s.setNetRing n { r with lossPending := false, items := r.items + 1 }
    let d := s.ringDyn (16 + n)
    let s := s.setRing (16 + n) { d with times := d.times ++ List.replicate (conts.length + 1) s.dtt }
    nrSignal n (count (devCtr (8 + n)) 1 s)

/-! ### Capture entries -/

/-- What a capture entry tells of a frame (R554): kind, marks, where and when it was taken, and its bytes; `nss` the continuous nanoseconds of the CS48 stamps
it carries (R138). -/
structure CapItem where
  kind : Nat
  invalid : Bool
  bad : Bool
  dp : Bool
  src : Nat
  sel : Nat
  len : Nat
  data : Bytes
  tIn : Nat
  tOut : Nat
  stepc : Nat
  qc : Nat
  capTag : Nat
  vlan : Nat
  queue : Nat
  egress : Nat
  stamp : Nat
  domain : Nat
  nss : List Nat

/-- The 256 bytes of a head entry (R554). `trunc` bounds the frame bytes; `ev` is the block and index of its record. -/
def CapItem.encode (i : CapItem) (trunc cont : Nat) (ev : Option (Nat × Nat)) (phase loss : Bool) (seq : Nat) : Bytes :=
  let d := i.data.take trunc
  record 256
    [(0, le 1 i.kind),
     (1, le 1 (b2n phase + 2 * b2n loss + 4 * b2n i.invalid + 8 * i.domain + 16 * b2n i.bad +
        32 * b2n (decide (trunc < i.len) && i.kind ≠ 4 && i.kind ≠ 5 && i.kind ≠ 3) + 64 * b2n i.dp + 128 * b2n ev.isSome)),
     (2, le 1 i.src), (3, le 1 i.sel), (4, le 2 i.len), (6, le 1 (if i.kind = 4 then 0 else d.length)), (7, le 1 cont),
     (8, le 6 i.tIn), (14, le 6 i.tOut), (20, le 2 i.stepc), (22, le 1 i.qc), (23, le 1 i.capTag), (24, le 2 i.vlan),
     (26, le 1 i.queue), (27, le 1 i.egress), (32, le 8 (match ev with | some p => p.1 | none => 2 ^ 64 - 1)),
     (40, le 4 (match ev with | some p => p.2 | none => 0)), (48, le 8 seq), (56, le 8 i.stamp), (64, d)]

/-- The base record of a net ring as a KIND 5 entry (R555). -/
def capBase (phase loss : Bool) (seq : Nat) (s : State) : Bytes :=
  let d := s.served
  record 256
    [(0, le 1 5), (1, le 1 (b2n phase + 2 * b2n loss + 8 * d)), (2, le 1 117), (3, le 1 0xFF), (8, ftBytes (s.timeNow d)),
     (20, le 2 (s.stepc d)), (22, le 1 (s.qc d)), (27, le 1 0xFF), (32, le 8 (2 ^ 64 - 1)), (48, le 8 seq), (56, le 8 s.dtt)]

/-- In SIGNED mode net ring `n` posts a base before an entry that needs one for any of its stamps (R138, R555); stream 256 + n. -/
def nrBase (n : Nat) (nss : List Nat) (s : State) : State :=
  if s.isF (Reg.capNrCfgEn n) && needsBase 1 (256 + n) nss s then
    let s' := s
    noteBase (256 + n) ((s.timeNow s.served).toNat / 2 ^ 16) (nrItem n (fun ph l q => capBase ph l q s') [] s)
  else s

/-- A capture item is written to net ring `n` with its base before it where one is due. -/
def capWrite (n trunc : Nat) (conts : List Bytes) (ev : Option (Nat × Nat)) (i : CapItem) (s : State) : State :=
  nrItem n (fun ph l q => i.encode trunc conts.length ev ph l q) conts (nrBase n i.nss s)

/-- The CAP_SELECT settings of selector `k`. -/
def State.selector (s : State) (k : Nat) : Selector := spGet ⟨0, 0, 0, 0, 0, 0, 0⟩ s.selectors k

/-- The state with selector `k` replaced. -/
def State.setSelector (s : State) (k : Nat) (x : Selector) : State :=
  { s with selectors := spSet ⟨0, 0, 0, 0, 0, 0, 0⟩ s.selectors k x }

/-- Whether a selector's conditions hold for a frame (R550): enabled, its port, its direction (RX bit 1, TX bit 2; DP bit 4
takes a direct-path start on its input and on its outputs), its capture tag, and GOOD_ONLY. -/
def selects (x : Selector) (i : CapItem) : Bool :=
  bit x.flags 0 && bit x.ports i.src && bit x.flags (if i.dp then 4 else if i.kind = 1 then 1 else 2) &&
    (x.capTag = 0 || x.capTag = i.capTag) && (!i.bad || !bit x.flags 5)

/-- Whether the selector takes the frame it counts as number `k`, from 1 (R551). -/
def takesNth (n k : Nat) : Bool := n ≠ 0 && (n = 1 || k % n = 1)

/-- The index a record passed now will have in the block that is open when it reaches the module: the records of the
open block and those that wait before it. -/
def nextEvd (s : State) : Nat × Nat := (s.get64 Reg.evdBlock, s.evd.records.length + s.evd.waiting.length)

/-- The FRAME record of a taken frame (R553, R556). -/
def frameRecord (k : Nat) (i : CapItem) (s : State) : State :=
  evdSend 0x01 (b2n (i.kind = 2) + 2 * b2n i.bad + 4 * b2n i.dp + 8 * i.domain + 16 * b2n i.invalid) i.src i.stamp
    [(16, le 6 (if i.kind = 2 then i.tOut else i.tIn)), (22, le 2 i.stepc), (24, le 1 i.qc), (25, le 1 k), (26, le 2 i.len),
     (28, le 1 i.capTag), (32, sha256 (i.data.take (min i.len 128)))] s

/-- One selector's part in a frame (R550 to R553). -/
def selectOne (i : CapItem) (k : Nat) (s : State) : State :=
  let x := s.selector k
  if !selects x i then s
  else
    let s := s.setSelector k { x with count := x.count + 1 }
    if !takesNth x.n (x.count + 1) then s
    else
      let ev := if bit x.flags 3 then some (nextEvd s) else none
      let s := if bit x.flags 3 then frameRecord k i s else s
      capWrite x.ring (if i.dp then 0 else x.trunc) [] ev { i with sel := k } s

/-- A frame at a capture point passes every selector (R550). -/
def captureFrame (i : CapItem) (s : State) : State := (List.range 16).foldl (fun s k => selectOne i k s) s

/-! ### The evidence ring -/

/-- Slots of the evidence ring. -/
def evdSize (s : State) : Nat := 2 ^ s.getF Reg.evdRCfgLog2sz

/-- The producer index is written back to WB_ADDR (R567). -/
def evdWriteBack (s : State) : State :=
  { (s.dma s.evd.wbAddr (le 8 (s.getF Reg.evdRProdIndex))) with evd := { s.evd with sinceWb := 0 } }

/-- One 64-byte slot: written, or counted lost when the ring is full (R567, R568). -/
def evdSlot (b : Bytes) (s : State) : State :=
  if !s.isF Reg.evdRCfgEn then s
  else if (s.getF Reg.evdRProdIndex + 1) % evdSize s = s.getF Reg.evdRConsIndex then
    let s := s.set64 Reg.evdRingLost ((s.get64 Reg.evdRingLost + 1) % 2 ^ 64)
    let v := s.evd.ringLost.note s.dtt
    let s := { s with evd := { s.evd with ringLost := v.2.2 } }
    if v.2.1 then raiseEv 116 1 0x0D02 [(24, le 4 v.1)] s else s
  else
    let ix := s.getF Reg.evdRProdIndex
    let s := (s.dma (s.evd.ringBase + ix * 64) b).setF Reg.evdRProdIndex ((ix + 1) % evdSize s)
    let s := { s with evd := { s.evd with sinceWb := s.evd.sinceWb + 1 } }
    if s.evd.ringThresh ≤ s.evd.sinceWb then evdWriteBack s else s

/-- A header takes 4 consecutive slots and never wraps: 1 to 3 filler slots of RTYPE 0xFF go before it; then the producer
index is written back and vector 23 signalled (R567). -/
def evdHeaderSlots (h : Bytes) (s : State) : State :=
  if !s.isF Reg.evdRCfgEn then s
  else
    let left := evdSize s - s.getF Reg.evdRProdIndex
    let fill := if left < 4 then left else 0
    let s := (List.range fill).foldl (fun s _ => evdSlot (record 64 [(0, [0xFF])]) s) s
    let s := (List.range 4).foldl (fun s k => evdSlot (slice h (k * 64) 64) s) s
    (evdWriteBack s).signalVector 23

/-! ### Blocks -/

/-- The estimated bound of the served domain as a block shows it: all ones for class 31 (R560). -/
def servedBound (s : State) : Nat :=
  if s.qc s.served % 32 = 31 then 2 ^ 64 - 1 else s.get64 (Reg.rsDBound s.served)

/-- The open block notes the served domain's quality: largest class, state held, largest bound (R560). -/
def noteQuality (s : State) : State :=
  let q := s.qc s.served
  { s with evd := { s.evd with
    kMax := max s.evd.kMax (q % 32),
    states := maskOf (q / 32 :: members s.evd.states 8),
    boundMax := max s.evd.boundMax (servedBound s) } }

/-- KEY_ID: bytes 0 to 3 of SHA-256 over the public key (R560). -/
def evdKeyId : Nat := ofLe ((sha256 Config.publicKey).take 4)

/-- The record digest of a block: lanes j mod 8, then the hash of the eight lane digests (R561). -/
def recordDigest (rs : List Bytes) : Bytes :=
  let lane (i : Nat) := (((List.range rs.length).filter (fun j => j % 8 = i)).map (fun j => rs.getD j [])).flatten
  sha256 ((List.range 8).map (fun i => sha256 (lane i))).flatten

/-- Whether a block is signed (R562). -/
def blockSigned (block : Nat) (isShort : Bool) (s : State) : Bool :=
  decide (1000 ≤ s.getF Reg.evdStatusPeriodUs) || block % 10 = 9 || isShort || s.evd.nextPeriod.isSome

/-- Header bytes 0 to 191 of the open block closing now, with the HFLAGS it closes with (R560). -/
def blockHeader (takeover isShort : Bool) (s : State) : Bytes :=
  let d := s.served
  let b := s.get64 Reg.evdBlock
  let e := s.evd
  record 192
    [(0, le 1 0), (1, le 1 1),
     (2, le 2 (b2n (blockSigned b isShort s) + 2 * b2n (e.dropped ≠ 0) + 4 * b2n e.boot + 8 * b2n takeover +
        16 * b2n (s.isF Reg.hstStatusActive) + 32 * b2n isShort)),
     (4, le 4 e.records.length), (8, le 8 Config.serial), (16, le 8 (s.get64 Reg.evdEpoch)), (24, le 8 b), (32, le 8 e.dttStart),
     (40, le 8 s.dtt), (48, ftBytes (s.timeNow d)), (60, le 1 (s.qc d)), (61, le 1 (max e.kMax (s.qc d % 32))), (62, le 1 e.states),
     (63, le 1 (d + 2 * b2n e.stepSeen)), (64, le 4 (s.stepc d)), (68, le 4 e.dropped), (72, le 8 e.boundMax),
     (80, le 4 (s.getF Reg.evdStatusPeriodUs)), (84, le 4 evdKeyId), (96, if e.boot then List.replicate 32 0 else e.prev),
     (128, recordDigest e.records), (160, e.xref)]

/-- The store keeps the headers of the last 256 blocks of the current epoch (R568). -/
def storeHeader (h : EvdHeader) (s : State) : State :=
  let kept := (s.evd.store.filter (fun x => x.epoch = h.epoch && x.block ≠ h.block)) ++ [h]
  { s with evd := { s.evd with store := kept.drop (kept.length - 256) } }

/-- A fresh block opens now (R558, R560). -/
def openBlock (xref : Bytes) (s : State) : State :=
  noteQuality { s with evd := { s.evd with
    records := [], dropped := 0, dttStart := s.dtt, kMax := 0, states := 0, boundMax := 0, stepSeen := false, boot := false,
    xref := xref, lossRaised := false, isOpen := true } }

/-- The active sends EPOCH, BLOCK and BH of a block it has closed (R575). -/
def sendBh (b : Nat) (bh : Bytes) (s : State) : State :=
  if s.twinState = 4 ∨ s.twinState = 5 then twSend 5 [(s.get64 Reg.evdEpoch : Int), b] bh s else s

/-- The oldest waiting record enters the open block with the next RSEQ, and the evidence ring (R556, R563, R567). -/
def admitRecord (s : State) : State :=
  match s.evd.waiting with
  | [] => s
  | e :: r =>
    let b := record 16 [(0, le 1 e.rtype), (1, le 1 e.rflags), (2, le 1 e.src), (4, le 4 s.evd.records.length), (8, le 8 e.stamp)] ++
      slice e.body 0 48
    evdSlot b (count (devCtr 4) 1 { s with evd := { s.evd with waiting := r, records := s.evd.records ++ [b] } })

/-- Every waiting record enters the open block, oldest first. -/
def admitAll (s : State) : State := s.evd.waiting.foldl (fun s _ => admitRecord s) s

/-- A record reaches the module within 10 µs of its STAMP (R557). -/
def admitOld (s : State) : State :=
  if !s.evd.isOpen then s
  else s.evd.waiting.foldl (fun s _ => match s.evd.waiting with
    | e :: _ => if e.stamp + 7812 ≤ s.dtt then admitRecord s else s
    | [] => s) s

/-- The open block closes now, with the records that have set out for it (log entry 256): its header goes to the ring and the store at once when unsigned, and waits for its signature
otherwise; the active tells its partner; the next block opens at the same instant (R558 to R562, R575). The answer also names the block
closed. -/
def closeBlock (takeover isShort : Bool) (xref : Bytes) (s : State) : Nat × State :=
  let b := s.get64 Reg.evdBlock
  let s := noteQuality (admitAll s)
  let h := blockHeader takeover isShort s
  let eh : EvdHeader := ⟨s.get64 Reg.evdEpoch, b, h ++ List.replicate 64 0⟩
  let sgn := blockSigned b isShort s
  let s := count (devCtr 6) 1 s
  let s := { s with evd := { s.evd with prev := sha256 h } }
  let s := if sgn then { s with evd := { s.evd with signing := s.evd.signing ++ [eh], engineAwake := true } }
    else storeHeader eh (evdHeaderSlots eh.bytes s)
  let s := (sendBh b (sha256 h) s).set64 Reg.evdBlock ((b + 1) % 2 ^ 64)
  (b, openBlock xref s)

/-- The instant at which the open block's period boundary falls: the next whole multiple of PERIOD_US × 781.25 ticks. -/
def onBoundary (s : State) : Bool := s.dtt * 100 % (s.getF Reg.evdStatusPeriodUs * 78125) < 100

/-- A changed period comes into force at a boundary and the new block records it (R558). -/
def takePeriod (s : State) : State :=
  match s.evd.nextPeriod with
  | none => s
  | some p =>
    evdSend 0x15 0 116 s.dtt [(16, le 4 p)]
      { (s.setF Reg.evdStatusPeriodUs p) with evd := { s.evd with nextPeriod := none } }

/-- EVD_BLOCK_CLOSE: the block closes at a period boundary; with the module in ERROR or ZEROISED none closes (R558, R685, R688). -/
def execEvdBlockClose (s : State) : Out :=
  if s.evd.isOpen && onBoundary s && decide (s.evd.dttStart < s.dtt) && !s.isF Reg.gdSecStatusZeroised && !s.isF Reg.gdSecStatusEvdError then
    .next (takePeriod (closeBlock false false (List.replicate 32 0) s).2)
  else .next s

/-- EVD_BLOCK_SIGNED: the oldest waiting header receives its signature, goes to the ring and the store; the engine sleeps
when none waits (R37, R561, R562). -/
def execEvdBlockSigned (s : State) : Out :=
  if s.isF Reg.gdSecStatusZeroised || s.isF Reg.gdSecStatusEvdError then .next s
  else match s.evd.signing with
  | [] => .next s
  | h :: r =>
    let sig := be 64 (Config.signature (ofBe (sha256 (h.bytes.take 192))))
    let h := { h with bytes := h.bytes.take 192 ++ sig }
    let s := { s with evd := { s.evd with signing := r, engineAwake := r ≠ [] } }
    .next (count (devCtr 7) 1 (storeHeader h (evdHeaderSlots h.bytes s)))

/-- EVD_RECORD: the oldest waiting record enters the open block (R556, R563, R567). -/
def execEvdRecord (s : State) : Out := .next (if s.evd.isOpen then admitRecord s else s)

/-- The TAKEOVER record and the early close of R566, after the records that wait: `takeback` for a revertive takeback; the former
active's serial number, epoch, last block and its hash come from its latest block hash. -/
def evdTakeover (takeback : Bool) (serial epoch block : Nat) (bh : Bytes) (s : State) : State :=
  let s := evdSend 0x31 (b2n takeback) 132 s.dtt [(16, le 8 serial), (24, le 8 epoch), (32, le 8 block)] s
  let c := closeBlock true true bh s
  raiseEv 116 0 0x0D03 [(20, le 1 (if takeback then 2 else 1)), (24, le 8 c.1)] c.2

/-! ### Commands -/

def evdConfigSpec : CmdSpec :=
  { opcode := 0x0D01, lenOk := lenIs 28,
    args := fun c _ =>
      let ring := cbit c 5 0
      firstBad ((0, decide (cu c 0 4 < 100) || decide (1000000 < cu c 0 4) || cu c 0 4 % 100 ≠ 0) ::
        (4, if ring then decide (cu c 4 1 < 8) || decide (22 < cu c 4 1) else cu c 4 1 ≠ 0) :: reservedAbove c 5 1 ::
        (8, cu c 8 8 % 4096 ≠ 0) :: (16, cu c 16 8 % 8 ≠ 0) ::
        (24, ring && (cu c 24 4 = 0 || decide (2 ^ cu c 4 1 < cu c 24 4))) :: reserved c 6 2),
    stops := fun c s => firstStop
      [(s.isF Reg.evdRCfgEn && cbit c 5 0 &&
        (s.getF Reg.evdRCfgLog2sz ≠ cu c 4 1 || s.evd.ringBase ≠ cu c 8 8 || s.evd.wbAddr ≠ cu c 16 8 || s.evd.ringThresh ≠ cu c 24 4),
        stRefused, 0x0D01)] }

/-- The effect of EVD_CONFIG (R558, R567). -/
def evdConfigEffect (c : Cmd) (s : State) : State × Reply :=
  let p := cu c 0 4
  let ring := cbit c 5 0
  let s := if p = s.getF Reg.evdStatusPeriodUs then { s with evd := { s.evd with nextPeriod := none } }
    else { s with evd := { s.evd with nextPeriod := some p } }
  let was := s.isF Reg.evdRCfgEn
  let s := s.setB Reg.evdRCfgEn ring
  let s := if ring && !was then
      let s := s.setF Reg.evdRCfgLog2sz (cu c 4 1)
      let s := s.setF Reg.evdRProdIndex 0
      { s with evd := { s.evd with ringBase := cu c 8 8, wbAddr := cu c 16 8, ringThresh := cu c 24 4, sinceWb := 0 } }
    else s
  (s, okReply)

/-- EVD_CONFIG. -/
def execEvdConfig (c : Cmd) (s : State) : Out := runCmd evdConfigSpec evdConfigEffect c s

/-- The 80 bytes EVD_GET_PUBKEY writes: public key, KEY_ID, SERIAL. -/
def pubkeyBytes : Bytes := record 80 [(0, Config.publicKey.take 65), (68, le 4 evdKeyId), (72, le 8 Config.serial)]

def evdGetPubkeySpec : CmdSpec :=
  { opcode := 0x0D02, unmirrored := true, reports := true, lenOk := lenIs 0, need := fun _ _ => 80 }

/-- The effect of EVD_GET_PUBKEY. -/
def evdGetPubkeyEffect (_ : Cmd) (s : State) : State × Reply :=
  (s, okBuf [(32, le 4 evdKeyId), (40, le 8 Config.serial)] pubkeyBytes)

/-- EVD_GET_PUBKEY. -/
def execEvdGetPubkey (c : Cmd) (s : State) : Out := runCmd evdGetPubkeySpec evdGetPubkeyEffect c s

/-- The block EVD_GET_BLOCK starts at: the one named, or the latest closed block kept. -/
def firstBlock (c : Cmd) (s : State) : Nat :=
  if cu c 0 8 = 2 ^ 64 - 1 then
    if s.evd.store = [] then 2 ^ 64 - 1 else (s.evd.store.map (·.block)).foldl max 0
  else cu c 0 8

/-- The kept header of block `b` of the current epoch. -/
def keptHeader (b : Nat) (s : State) : Option EvdHeader :=
  s.evd.store.find? (fun h => h.epoch = s.get64 Reg.evdEpoch && h.block = b)

def evdGetBlockSpec : CmdSpec :=
  { opcode := 0x0D03, unmirrored := true, reports := true, lenOk := lenIs 12,
    args := fun c _ => firstBad ((8, cu c 8 2 = 0 || decide (256 < cu c 8 2)) :: reserved c 10 2),
    need := fun c _ => cu c 8 2 * 256,
    stops := fun c s => firstStop
      [((List.range (cu c 8 2)).any (fun k => (keptHeader (firstBlock c s + k) s).isNone), stNotFound, 0)] }

/-- The effect of EVD_GET_BLOCK. -/
def evdGetBlockEffect (c : Cmd) (s : State) : State × Reply :=
  let b := firstBlock c s
  (s, okBuf [(32, le 8 b)] ((List.range (cu c 8 2)).map (fun k => ((keptHeader (b + k) s).map (·.bytes)).getD [])).flatten)

/-- EVD_GET_BLOCK. -/
def execEvdGetBlock (c : Cmd) (s : State) : Out := runCmd evdGetBlockSpec evdGetBlockEffect c s

def capRingSetSpec : CmdSpec :=
  { opcode := 0x0D11, unmirrored := true, lenOk := lenIs 20,
    args := fun c _ => firstBad ((0, decide (7 < cu c 0 1)) :: (1, decide (cu c 1 1 < 6) || decide (20 < cu c 1 1)) ::
      (4, cu c 4 8 % 4096 ≠ 0) :: (reserved c 2 2 ++ reserved c 16 4)),
    stops := fun c s => firstStop [(s.isF (Reg.capNrCfgEn (cu c 0 1)), stRefused, 0x0D11)] }

/-- The effect of CAP_RING_SET (R545). -/
def capRingSetEffect (c : Cmd) (s : State) : State × Reply :=
  let n := cu c 0 1
  let s := s.setF (Reg.capNrCfgLog2sz n) (cu c 1 1)
  (s.setNetRing n { s.netRing n with base := cu c 4 8, thresh := cu c 12 2, holdoff := cu c 14 2, isSet := true }, okReply)

/-- CAP_RING_SET. -/
def execCapRingSet (c : Cmd) (s : State) : Out := runCmd capRingSetSpec capRingSetEffect c s

def capRingEnableSpec : CmdSpec :=
  { opcode := 0x0D12, unmirrored := true, lenOk := lenIs 4,
    args := fun c _ => firstBad ((0, decide (7 < cu c 0 1)) :: (1, decide (1 < cu c 1 1)) :: reserved c 2 2),
    stops := fun c s => firstStop [(cu c 1 1 = 1 && !(s.netRing (cu c 0 1)).isSet, stRefused, 0x0D12)] }

/-- The effect of CAP_RING_ENABLE (R545): enabling resets the producer to 0 and PHASE to 1; disabling stops writing. -/
def capRingEnableEffect (c : Cmd) (s : State) : State × Reply :=
  let n := cu c 0 1
  if cu c 1 1 = 1 && !s.isF (Reg.capNrCfgEn n) then
    let s := s.setB (Reg.capNrCfgEn n) true
    let s := (s.setF (Reg.capNrProdIndex n) 0).setB (Reg.capNrProdPhase n) true
    let s := s.setF (Reg.capNrDrop n) 0
    let s := s.setRing (16 + n) ⟨[], false⟩
    let s := { s with tb := { s.tb with bases := spDel s.tb.bases (256 + n) } }
    (s.setNetRing n { s.netRing n with items := 0, lossPending := false, lost := ⟨[], none⟩ }, okReply)
  else (s.setB (Reg.capNrCfgEn n) (cu c 1 1 = 1), okReply)

/-- CAP_RING_ENABLE. -/
def execCapRingEnable (c : Cmd) (s : State) : Out := runCmd capRingEnableSpec capRingEnableEffect c s

def capSelectSpec : CmdSpec :=
  { opcode := 0x0D13, unmirrored := true, lenOk := lenIs 16,
    args := fun c _ => firstBad ((0, decide (15 < cu c 0 1)) ::
      (1, decide (64 ≤ cu c 1 1) || (cbit c 1 0 && !cbit c 1 1 && !cbit c 1 2 && !cbit c 1 4)) :: (2, decide (7 < cu c 2 1)) ::
      (3, decide (192 < cu c 3 1)) :: reserved c 15 1) }

/-- The effect of CAP_SELECT (R550, R551). -/
def capSelectEffect (c : Cmd) (s : State) : State × Reply :=
  (s.setSelector (cu c 0 1) ⟨cu c 1 1, cu c 2 1, cu c 3 1, cu c 4 4, cu c 8 6, cu c 14 1, 0⟩, okReply)

/-- CAP_SELECT. -/
def execCapSelect (c : Cmd) (s : State) : Out := runCmd capSelectSpec capSelectEffect c s

end Sys2Proof.Machine
end

