-- ==== Sys2Proof/Machine/Merge.lean ====
section
/-! DEFINITION. Fair merge: timed-hold memory (R503, R504), keys and entry (R500 to R502), the pick rule with shortening and
lateness (R505 to R509), discards (R510, R515, R517), sequence numbers, trailer and base frames (R511 to R514), and the
commands of group 0x0C that concern it. -/

set_option Elab.async false

namespace Sys2Proof.Machine

/-! ### Groups -/

/-- Merge group `g`. -/
def State.mg (s : State) (g : Nat) : MergeGroup := spGet MergeGroup.reset s.merges g

/-- The state with a merge group replaced. -/
def State.setMg (s : State) (g : Nat) (x : MergeGroup) : State := { s with merges := spSet MergeGroup.reset s.merges g x }

/-- STATE of a merge group: 0 DISABLED, 1 ENABLED, 2 DRAINING. -/
def fmState (g : Nat) (s : State) : Nat := s.getF (Reg.fmGStatusState g)

/-- Members of a merge group as a mask of ports. -/
def fmMembers (g : Nat) (s : State) : Nat := s.getF (Reg.fmGMemb0 g) + 2 ^ 32 * s.getF (Reg.fmGMemb1 g)

/-- Egress port of a merge group. -/
def fmEgress (g : Nat) (s : State) : Nat := s.getF (Reg.fmGCfgEgress g)

/-- Whether a group has been set: a group that has not been set has no member. -/
def fmSet (g : Nat) (s : State) : Bool := fmMembers g s ≠ 0

/-- W of a group in TK80 units: 51,200 a nanosecond. -/
def fmWindow (g : Nat) (s : State) : Int := s.getF (Reg.fmGCfgWindow g) * 51200

/-! ### Timed-hold memory -/

/-- Timed-hold cells that are not free: those of held frames, of frames on their way out, and those in quarantine. -/
def holdUsed (s : State) : List Nat :=
  sortNat ((s.merges.map (fun e => (e.2.held.map (·.frame.cells)).flatten)).flatten ++
    (s.releases.map (fun e => (e.2.held.map (·.frame.cells)).flatten)).flatten ++
    (s.sw.tx.map (fun e => (e.2.map (fun t => if t.kind = 1 then t.frame.cells else [])).getD [])).flatten ++ s.mp.quarHold).eraseDups

/-- Cells of a merge group's partition (R503). -/
def fmCapacity (g : Nat) (s : State) : Nat := s.getF (Reg.fmPartMgGranules g) * 256

/-- Cells in use of a merge group: its held frames and the frame it sends (R504). -/
def fmInUse (g : Nat) (s : State) : Nat :=
  (((s.mg g).held.map (·.frame.cells.length)).sum) +
  (s.sw.tx.map (fun e => (e.2.map (fun t => if t.kind = 1 ∧ t.group = g then t.frame.cells.length else 0)).getD 0)).sum

/-- Picoseconds in TK80 units: × 51.2, halves away from 0 (R501). -/
def psUnits (v : Int) : Int := if 0 ≤ v then (v * 512 + 5) / 10 else -((-v * 512 + 5) / 10)

/-! ### State of a group -/

/-- Shortening is in effect at or above the mark (R505). -/
def fmShortWanted (g : Nat) (s : State) : Bool :=
  fmState g s ≠ 0 && fmCapacity g s ≠ 0 && decide (fmCapacity g s * s.getF (Reg.fmGCfgShortPct g) ≤ fmInUse g s * 100)

/-- The start of an episode is reported with the hold of the first frame released in it (R520). -/
def fmShortStart (g hold : Nat) (s : State) : State :=
  let x := s.mg g
  if x.shortNew then
    raiseEv 114 1 0x0C02 [(20, le 1 g), (21, le 1 1), (24, le 4 (fmInUse g s)), (28, le 4 hold)] (s.setMg g { x with shortNew := false })
  else s

/-- Shortening begins and ends with the cells in use (R505). -/
def fmShorten (g : Nat) (s : State) : State :=
  let now := s.isF (Reg.fmGStatusShort g)
  let want := fmShortWanted g s
  if now = want then s
  else if want then (s.setB (Reg.fmGStatusShort g) true).setMg g { s.mg g with shortSent := 0, shortNew := true }
  else
    let s := fmShortStart g 0 (s.setB (Reg.fmGStatusShort g) false)
    raiseEv 114 1 0x0C02 [(20, le 1 g), (21, le 1 0), (24, le 4 (fmInUse g s)), (28, le 4 (s.mg g).shortSent)] s

/-- The registers of a group follow it: HELD, LATE_HELD, EG_DOWN, OCC, PEAK and shortening. -/
def showMerge (g : Nat) (s : State) : State :=
  let x := s.mg g
  let n := fmInUse g s
  let s := s.setF (Reg.fmGStatusHeld g) (sat 0xFFFF x.held.length)
  let s := s.setB (Reg.fmGStatusLateHeld g) (x.held.any (·.late))
  let s := s.setB (Reg.fmGStatusEgDown g) (fmSet g s && !released (fmEgress g s) s)
  let s := (s.setF (Reg.fmGOcc g) n).setF (Reg.fmGPeak g) (max n (s.getF (Reg.fmGPeak g)))
  fmShorten g s

/-- A group's STATE changes (R520). -/
def setFmState (g new : Nat) (s : State) : State :=
  let old := fmState g s
  if old = new then s
  else
    let s := s.setF (Reg.fmGStatusState g) new
    raiseEv 114 0 0x0C01 [(20, le 1 g), (21, le 1 old), (22, le 1 new), (24, le 4 (s.getF (Reg.fmGSeq g)))] s

/-! ### Trailer and records -/

/-- The 32-byte trailer (R512). `out` is the predicted egress stamp, where the frame begins transmission. -/
def fmTrailer (g : Nat) (h : HeldFrame) (seq : Nat) (out : Option (Nat × Bool)) (isShort : Bool) (blk : Nat) (s : State) : Bytes :=
  let f := h.frame
  let d := match out with | some o => s.servedAt o.1 | none => 0
  let inv := f.inBad || (match out with | some o => o.2 | none => false)
  record 32
    [(0, le 1 0xF5), (1, le 1 1), (2, le 1 g), (3, le 1 f.src), (4, le 4 seq), (8, le 6 (cs48 (s.timeAt f.domIn f.tIn))),
     (14, match out with | some o => le 6 (cs48 (s.timeAt d o.1)) | none => []), (20, leI 3 h.trim),
     (23, le 1 (b2n h.late + 2 * b2n isShort + 4 * f.domIn + 8 * (if out.isSome then d else 0) + 16 * b2n inv +
        64 * b2n (fmWindow g s = 0))),
     (24, le 2 f.stepIn), (26, match out with | some o => le 2 (s.stepcAt d o.1) | none => []), (28, le 1 f.qcIn), (29, le 3 blk)]

/-- Low 24 bits of the block that holds a record passed now; all ones without EVIDENCE. -/
def fmBlock (g : Nat) (s : State) : Nat := if s.isF (Reg.fmGCfgEvidence g) then (nextEvd s).1 % 2 ^ 24 else 0xFFFFFF

/-- A merge record where EVIDENCE is set (R514, R556). -/
def fmRecord (g kind : Nat) (trailer : Bytes) (s : State) : State :=
  if s.isF (Reg.fmGCfgEvidence g) then evdSend 0x02 kind 114 s.dtt [(16, trailer)] s else s

/-- A held frame leaves its group. -/
def fmRemove (g : Nat) (h : HeldFrame) (s : State) : State :=
  s.setMg g { s.mg g with held := (s.mg g).held.erase h }

/-- A held frame is discarded whole: 1 full, 2 bad, 3 oversize, 4 egress down, 5 flush (R504, R510, R515, R517, R556). -/
def fmDiscard (g kind : Nat) (h : HeldFrame) (s : State) : State :=
  let off := if kind = 1 then 4 else if kind = 2 then 5 else if kind = 3 then 6 else if kind = 4 then 7 else 8
  let s := count (fmCtr g off) 1 (fmRemove g h s)
  let s := if kind = 1 then
      let n := (s.mg g).full.note s.dtt
      let s := s.setMg g { s.mg g with full := n.2.2 }
      if n.2.1 then raiseEv 114 1 0x0C04 [(20, le 1 g), (24, le 4 n.1)] s else s
    else s
  showMerge g (fmRecord g kind (fmTrailer g h 0xFFFFFFFF none false (fmBlock g s) s) s)

/-! ### Entry and wholeness -/

/-- Cells for a held frame up to `n`, or none where the partition has too few free (R504). -/
def fmTake (g : Nat) (f : Frame) (n : Nat) (s : State) : Option (Frame × State) :=
  let more := n - f.cells.length
  if fmCapacity g s < fmInUse g s + more then none
  else
    let a := allocate more 65536 (holdUsed s) s
    some ({ f with cells := f.cells ++ a.1 }, writeCells 2 2 a.1 (writeCells 1 4 a.1 a.2))

/-- A frame enters group `g` at its head decision (R498, R500 to R502, R507), or is discarded; the answer says whether it is held. -/
def fmEnter (g : Nat) (f : Frame) (s : State) : Bool × State :=
  let p := f.src
  if !bit (fmMembers g s) p then (false, count (srcCtr p 16) 1 s)
  else if fmState g s ≠ 1 then (false, count (srcCtr p 17) 1 s)
  else
    let x := s.mg g
    let trim := s.timedAt (Reg.fmTrim p).addr (s.getI (Reg.fmTrim p)) (f.tIn / 2 ^ 16)
    let k0 := (f.tIn : Int) - psUnits trim
    let k := match x.lastKeys.find? (fun e => e.1 = p) with
      | some e => if k0 ≤ e.2 then e.2 + 1 else k0
      | none => k0
    let late := fmWindow g s ≠ 0 && (match x.last with
      | some l => decide (k < l.1) || (k = l.1 && decide (p < l.2))
      | none => false)
    let h : HeldFrame := ⟨f, k, trim, late, none⟩
    let s := s.setMg g { x with lastKeys := (x.lastKeys.filter (fun e => e.1 ≠ p)) ++ [(p, k)] }
    match fmTake g f 1 s with
    | none => (false, fmDiscard g 1 h s)
    | some (f', s) =>
      let s := s.setMg g { s.mg g with held := (s.mg g).held ++ [{ h with frame := f' }] }
      let s := if late then
          let n := (s.mg g).late.note s.dtt
          let s := count (fmCtr g 3) 1 (s.setMg g { s.mg g with late := n.2.2 })
          if n.2.1 then raiseEv 114 1 0x0C03 [(20, le 1 g), (21, le 1 p), (24, le 4 n.1)] s else s
        else s
      let s := showMerge g s
      -- with the egress down a late frame is discarded at once (R515)
      if late && !released (fmEgress g s) s then
        match (s.mg g).held.find? (·.late) with
        | some x => (false, fmDiscard g 4 x s)
        | none => (true, s)
      else (true, s)

/-- The end of a frame that group `g` holds (R504, R506, R510): `good` says that it checked good. -/
def fmWhole (g : Nat) (f : Frame) (good : Bool) (s : State) : State :=
  match (s.mg g).held.find? (fun h => h.frame.src = f.src && h.wholeAt.isNone) with
  | none => s
  | some h =>
    let len := f.data.length + (if s.isF (Reg.fmGCfgTrailer g) then 32 else 0)
    if !good then fmDiscard g 2 h s
    else if (s.swPort (fmEgress g s)).maxFrame < len then fmDiscard g 3 h s
    else
      match fmTake g h.frame (cellsOf f.data.length) s with
      | none => fmDiscard g 1 h s
      | some (f', s) =>
        let x := s.mg g
        let h' := { h with frame := { f' with data := f.data, whole := true }, wholeAt := some x.wholes }
        showMerge g (s.setMg g { x with held := x.held.map (fun y => if y = h then h' else y), wholes := x.wholes + 1 })

/-! ### The pick rule -/

/-- Whether held frame `a` stands before `b` in key order (R500). -/
def HeldFrame.before (a b : HeldFrame) : Bool :=
  decide (a.key < b.key) || (a.key = b.key && decide (a.frame.src < b.frame.src))

/-- The first of a list of held frames in key order. -/
def firstKey : List HeldFrame → Option HeldFrame
  | [] => none
  | h :: r => match firstKey r with
    | none => some h
    | some m => if m.before h then some m else some h

/-- Whether a held frame is due: DTT has reached K + W (R506). -/
def fmDue (g : Nat) (h : HeldFrame) (s : State) : Bool := decide (h.key + fmWindow g s ≤ (s.now80 : Int))

/-- The frame the merge output makes ready (R506, R507, R509). -/
def fmReady (g : Nat) (s : State) : Option HeldFrame :=
  let held := (s.mg g).held
  let whole (h : HeldFrame) : Bool := h.wholeAt.isSome
  if fmWindow g s = 0 then
    (held.filter whole).foldl (fun m h => match m with
      | none => some h
      | some x => if h.wholeAt.getD 0 < x.wholeAt.getD 0 then some h else some x) none
  else
    match firstKey (held.filter (fun h => h.late && whole h)) with
    | some h => some h
    | none => match firstKey (held.filter (fun h => !h.late)) with
      | none => none
      | some h => if whole h && (fmDue g h s || s.isF (Reg.fmGStatusShort g)) then some h else none

/-- The words of a timed-hold frame are read: data and descriptors of its cells (R619). -/
def holdRead (f : Frame) (s : State) : State :=
  if s.mp.errs = [] then s
  else f.cells.foldl (fun s c =>
    let s := (List.range 4).foldl (fun s j => (mpRead (mpWord 1 (4 * c + j)) false s).2) s
    (List.range 2).foldl (fun s j => (mpRead (mpWord 2 (2 * c + j)) false s).2) s) s

/-- The next ready frame, read at its dequeue: one whose data hold an uncorrectable word is discarded bad with its record, one whose descriptors do
is discarded and counted MP_POISON_DROP (R510, R514, R619). -/
def fmUnpoisoned : Nat → Nat → State → Option HeldFrame × State
  | 0, g, s => (fmReady g s, s)
  | n + 1, g, s =>
    match fmReady g s with
    | none => (none, s)
    | some h0 =>
      let s := holdRead h0.frame s
      match fmReady g s with
      | none => (none, s)
      | some h =>
        if h.frame.broken then fmUnpoisoned n g (count (srcCtr (fmEgress g s) 38) 1 (showMerge g (fmRemove g h s)))
        else if h.frame.holdBad then fmUnpoisoned n g (fmDiscard g 2 h s)
        else (some h, s)

/-- With the egress down, frames are discarded as they would be made ready, a late one at once (R515). -/
def fmDown : Nat → Nat → State → State
  | 0, _, s => s
  | n + 1, g, s =>
    match (s.mg g).held.find? (·.late) with
    | some h => fmDown n g (fmDiscard g 4 h s)
    | none => match fmReady g s with
      | some h => fmDown n g (fmDiscard g 4 h s)
      | none => s

/-- The merge group that an egress serves, while it is not DISABLED. -/
def mergeOf (p : Nat) (s : State) : Option Nat :=
  (List.range 16).find? (fun g => fmState g s ≠ 0 && fmEgress g s = p)

/-- HOLD_MIN: the smallest hold of the frames sent in the last millisecond (R506). -/
def showHoldMin (g : Nat) (s : State) : State :=
  let hs := (s.mg g).holds.filter (fun p => decide (s.dtt < p.1 + 781250))
  (s.setMg g { s.mg g with holds := hs }).setF (Reg.fmGHoldMin g) ((hs.map (·.2)).foldl min 0xFFFFFFFF)

/-- A base frame of group `g` (R513), without FCS. -/
def fmBaseFrame (g e : Nat) (s : State) : Bytes :=
  let d := s.servedAt e
  let t := record 32
    [(0, le 1 0xF5), (1, le 1 1), (2, le 1 g), (3, le 1 0xFF), (4, le 4 (s.getF (Reg.fmGSeq g))), (8, ftBytes (s.timeAt d e)),
     (23, le 1 (8 * d + 32)), (24, le 2 (s.stepcAt d e)), (29, le 3 0xFFFFFF)]
  be 6 (s.mg g).baseDmac ++ be 6 (s.swPort (fmEgress g s)).mac ++ be 2 0x88B5 ++ record 46 [(0, t)]

/-- Nothing queued. -/
def Copy.none : Copy := ⟨0, false, 0, false, Option.none, false, false, 0, [], 8, 0⟩

/-- What the merge output of group `g` begins to send with ready frame `h` (R511 to R514): the base frame that its trailer needs, or
the frame with its number and trailer. `pred` is the predicted egress stamp and whether it is invalid. -/
def fmBegin (g : Nat) (h : HeldFrame) (pred : Nat × Bool) (s : State) : TxFrame × State :=
  let e := fmEgress g s
  let ns := (s.servedTime pred.1).toNat / 2 ^ 16
  let nsIn := (s.timeAt h.frame.domIn h.frame.tIn).toNat / 2 ^ 16
  let qc := s.qc s.served
  if s.isF (Reg.fmGCfgTrailer g) && needsBase 2 (2 * 256 + g) [nsIn, ns] s then
    let b := fmBaseFrame g pred.1 s
    let f : Frame := { h.frame with data := b ++ fcsOf b, cells := [] }
    (⟨3, Copy.none, 0, g, f, 0, pred.1, false, s.dtt, [], pred.2, qc⟩, noteBase (2 * 256 + g) ns (count (fmCtr g 10) 1 s))
  else
    let isShort : Bool := fmWindow g s ≠ 0 && !fmDue g h s
    let seq := s.getF (Reg.fmGSeq g)
    let hold := (((s.now80 : Int) - h.key) / 51200).toNat
    let tr := fmTrailer g h seq (some pred) isShort (fmBlock g s) s
    let s := fmRecord g 0 tr s
    let s := s.addWrap (Reg.fmGSeq g) 1
    let s := if s.isF (Reg.fmGStatusShort g) then fmShortStart g hold s else s
    let s := fmRemove g h s
    let x := s.mg g
    let s := s.setMg g { x with
      last := if h.late then x.last else some (h.key, h.frame.src),
      holds := x.holds ++ [(s.dtt, sat 0xFFFFFFFF hold)],
      shortSent := x.shortSent + b2n (isShort && s.isF (Reg.fmGStatusShort g)) }
    let s := if isShort then count (fmCtr g 2) 1 s else s
    let s := if h.frame.inBad || pred.2 then count (fmCtr g 9) 1 s else s
    let d := vlanEdit h.frame h.frame.vid e (noFcs h.frame.data) s
    let d := if s.isF (Reg.fmGCfgTrailer g) then d ++ tr else d
    let out := if d = noFcs h.frame.data then h.frame.data else d ++ fcsOf d
    (⟨1, Copy.none, 0, g, h.frame, seq, pred.1, false, s.dtt, out, pred.2, qc⟩, showHoldMin g s)

/-- The merged frame has left (R504, R591). -/
def fmSent (g : Nat) (f : Frame) (s : State) : State :=
  let n := f.data.length + (if s.isF (Reg.fmGCfgTrailer g) then 32 else 0)
  showMerge g (count (fmCtr g 1) n (count (fmCtr g 0) 1 s))

/-! ### Rows -/

/-- FM_DRAIN_DONE: a DRAINING group whose partition is empty becomes DISABLED (R517). -/
def execFmDrainDone (g : Nat) (s : State) : Out :=
  if g < 16 ∧ fmState g s = 2 ∧ fmInUse g s = 0 ∧ (s.mg g).held = [] then .next (showMerge g (setFmState g 0 s)) else .next s

/-- FM_TRIM_APPLY: a port's lead trim in force now is shown (R501). -/
def execFmTrimApply (port : Nat) (s : State) : Out :=
  if port < 48 then
    let r := timedApply (Reg.fmTrim port).addr (s.getI (Reg.fmTrim port)) s
    .next (r.2.setI (Reg.fmTrim port) r.1)
  else .next s

/-! ### Commands -/

/-- Whether lane `p` is one of lanes 4k+1 to 4k+3 of a 100GBASE-R group, for a mask. -/
def anyInGroup (m : Nat) (s : State) : Bool := (members m 48).any (fun p => inGroup p s)

/-- Whether a port stands in a direct-path connection (R423). -/
def inDirect (p : Nat) (s : State) : Bool := s.isF (Reg.swPortStatusDpRx p) || s.isF (Reg.swPortStatusDpTx p)

def fmGroupSetSpec : CmdSpec :=
  { opcode := 0x0C01, lenOk := lenIs 24
    args := fun c s => firstBad
      ([(0, decide (15 < cu c 0 1)), (1, decide (47 < cu c 1 1) || inGroup (cu c 1 1) s), reservedAbove c 2 2,
        (3, decide (cu c 3 1 < 50 ∨ 100 < cu c 3 1)), (4, cu c 4 4 ≠ 0 && decide (cu c 4 4 < 20 ∨ 10000 < cu c 4 4)),
        (8, cu c 8 6 = 0 || bit (cu c 8 6) (cu c 1 1) || anyInGroup (cu c 8 6) s)] ++ reserved c 14 2 ++ reserved c 22 2)
    stops := fun c s =>
      let g := cu c 0 1
      let others := (List.range 16).filter (fun o => o ≠ g && fmSet o s)
      firstStop
        [(fmState g s ≠ 0, stRefused, 0x0C01),
         (others.any (fun o => decide ((fmMembers o s &&& cu c 8 6) ≠ 0)), stRefused, 0x0C02),
         (others.any (fun o => bit (fmMembers o s) (cu c 1 1) || fmEgress o s = cu c 1 1 || bit (cu c 8 6) (fmEgress o s)),
          stRefused, 0x0C03)] }

/-- FM_GROUP_SET: egress, flags, mark, window, members and base destination (R497, R505, R513). -/
def fmGroupSetEffect (c : Cmd) (s : State) : State × Reply :=
  let g := cu c 0 1
  let s := s.setF (Reg.fmGCfgEgress g) (cu c 1 1)
  let s := (s.setB (Reg.fmGCfgTrailer g) (cbit c 2 0)).setB (Reg.fmGCfgEvidence g) (cbit c 2 1)
  let s := (s.setF (Reg.fmGCfgShortPct g) (cu c 3 1)).setF (Reg.fmGCfgWindow g) (cu c 4 4)
  let s := (s.setF (Reg.fmGMemb0 g) (cu c 8 4)).setF (Reg.fmGMemb1 g) (cu c 12 2)
  (showMerge g (s.setMg g { s.mg g with baseDmac := ofBe (slice c.payload 16 6) }), okReply)

/-- FM_GROUP_SET (R497, R521). -/
def execFmGroupSet (c : Cmd) (s : State) : Out := runCmd fmGroupSetSpec fmGroupSetEffect c s

/-- The flag checks FM_GROUP_ENABLE and ER_GROUP_ENABLE share (R521, R544). -/
def groupEnableBad (last : Nat) (c : Cmd) : Option Nat :=
  firstBad ([(0, decide (last < cu c 0 1)), (1, decide (1 < cu c 1 1)),
    (2, decide (4 ≤ cu c 2 1) || (cbit c 2 0 && cu c 1 1 = 1) || (cbit c 2 1 && cu c 1 1 = 0)),
    (4, !cbit c 2 1 && cu c 4 4 ≠ 0)] ++ reserved c 3 1)

def fmGroupEnableSpec : CmdSpec :=
  { opcode := 0x0C02, lenOk := lenIs 8, args := fun c _ => groupEnableBad 15 c
    stops := fun c s =>
      let g := cu c 0 1
      let ms := members (fmMembers g s) 48
      let on : Bool := cu c 1 1 = 1 && fmState g s ≠ 1
      firstStop
        [(on && s.getF (Reg.fmPartMgGranules g) = 0, stRefused, 0x0C04),
         (on && (!ms.all (fun p => s.isF (Reg.swPortStatusL23Rx p)) || !s.isF (Reg.swPortStatusL23Tx (fmEgress g s)) ||
            (fmEgress g s :: ms).any (fun p => inDirect p s)), stRefused, 0x0C05),
         (on && fmState g s = 2, stRefused, 0x0C06)] }

/-- FM_GROUP_ENABLE: on, off with draining, or off with a flush (R511, R517). -/
def fmGroupEnableEffect (c : Cmd) (s : State) : State × Reply :=
  let g := cu c 0 1
  let on : Bool := cu c 1 1 = 1
  let res (st : Nat) (s : State) : Reply :=
    ⟨st, 0, resultOf [(32, le 4 (s.getF (Reg.fmGSeq g))), (36, le 4 (s.mg g).held.length)], []⟩
  if on && fmState g s = 0 then
    let s := if cbit c 2 1 then s.setF (Reg.fmGSeq g) (cu c 4 4) else s
    let s := showMerge g (setFmState g 1 (s.setF (Reg.fmGPeak g) 0))
    (s, res stOk s)
  else if !on && fmState g s ≠ 0 && cbit c 2 0 then
    let s := (s.mg g).held.foldl (fun s h => fmDiscard g 5 h s) s
    let s := showMerge g (setFmState g 0 s)
    (s, res stOk s)
  else if !on && fmState g s = 1 then
    let s := showMerge g (setFmState g 2 s)
    (s, res stDeferred s)
  else (s, res stOk s)

/-- FM_GROUP_ENABLE (R517, R521). -/
def execFmGroupEnable (c : Cmd) (s : State) : Out := runCmd fmGroupEnableSpec fmGroupEnableEffect c s

/-- The checks FM_SET_TRIM and ER_SET_TRIM share. -/
def leadTrimBad (c : Cmd) : Option Nat :=
  firstBad ([(0, decide (47 < cu c 0 1)), (4, decide (2000000 < (ci c 4 4).natAbs))] ++ reserved c 1 3)

def fmSetTrimSpec : CmdSpec :=
  { opcode := 0x0C03, unmirrored := true, lenOk := lenIs 8
    args := fun c s => if cu c 0 1 < 48 ∧ inGroup (cu c 0 1) s then some 0 else leadTrimBad c }

/-- FM_SET_TRIM: the trim changes at x_c (R501). -/
def fmSetTrimEffect (c : Cmd) (s : State) : State × Reply :=
  let r := Reg.fmTrim (cu c 0 1)
  let x := fixXc none (timedLast r.addr s) s
  (timedAdd r.addr (s.getI r) (ci c 4 4) x.1 x.2, okWith [(32, le 8 x.1)])

/-- FM_SET_TRIM (R501, R521). -/
def execFmSetTrim (c : Cmd) (s : State) : Out := runCmd fmSetTrimSpec fmSetTrimEffect c s

/-- The granules register of a group: KIND 0 merge, 1 release. -/
def granulesOf (kind g : Nat) : Fld := if kind = 0 then Reg.fmPartMgGranules g else Reg.fmPartRgGranules g

def fmPartitionSpec : CmdSpec :=
  { opcode := 0x0C04, lenOk := lenIs 4
    args := fun c _ => firstBad [(0, decide (1 < cu c 0 1)), (1, decide ((if cu c 0 1 = 0 then 15 else 63) < cu c 1 1)),
      (2, decide (256 < cu c 2 2))]
    stops := fun c s =>
      let st := if cu c 0 1 = 0 then fmState (cu c 1 1) s else s.getF (Reg.erGStatusState (cu c 1 1))
      firstStop
        [(st ≠ 0, stRefused, 0x0C01),
         (decide (s.getF Reg.fmPartFreeGranules + s.getF (granulesOf (cu c 0 1) (cu c 1 1)) < cu c 2 2), stTableFull, 0)] }

/-- FM_PARTITION: granules of a group (R503). -/
def fmPartitionEffect (c : Cmd) (s : State) : State × Reply :=
  let r := granulesOf (cu c 0 1) (cu c 1 1)
  let free := s.getF Reg.fmPartFreeGranules + s.getF r - cu c 2 2
  ((s.setF r (cu c 2 2)).setF Reg.fmPartFreeGranules free, okWith [(32, le 2 free)])

/-- FM_PARTITION (R503, R521). -/
def execFmPartition (c : Cmd) (s : State) : Out := runCmd fmPartitionSpec fmPartitionEffect c s

end Sys2Proof.Machine
end

