-- ==== Sys2Proof/Machine/Release.lean ====
section
/-! DEFINITION. Equal release: lane alignment with the trim steps of R219 (R528), storage (R523, R524), the release instant and
admission (R526, R530 to R533), copies on their egress (R534 to R536), release records (R537), and the commands of group 0x0C that
concern it. -/

set_option Elab.async false

namespace Sys2Proof.Machine

/-! ### Trim of a lane -/

/-- Trim steps of one word of a mode: 64W (R219). -/
def wordSteps (mode : Nat) : Nat := 64 * wordBits mode

/-- Steps of 1 ps in a mode, in 1/100 (R219). -/
def stepsPerPs (mode : Nat) : Nat := if mode = 1 then 8 else if mode = 2 then 66 else 165

/-- Steps of a trim of `ps` picoseconds: rounded, halves up (R219). -/
def trimSteps (mode ps : Nat) : Nat := (ps * stepsPerPs mode * 2 + 100) / 200

/-- Trim steps as 2⁻²⁴ tick: a step is UI/64. -/
def steps24 (mode n : Nat) : Int := ticks24 n ((uiOf mode).1, (uiOf mode).2 * 64)

/-- The interpolator of lane `n` takes its target: phase part of the host trim plus release part (R219). It goes on from where it stands (R220), from the first
word boundary 64 words ahead on (R177): DESIGN CHOICE (log entry 246), the manual gives 64 words as the least. -/
def retarget (n : Nat) (s : State) : State :=
  let tgt := (s.lane n).hostSteps % wordSteps (s.mode n) + s.getF (Reg.erPortAlignRelPart n)
  if tgt = s.getF (Reg.sdsTrimPiTgt n) then s
  else
    let pos := piAt n s.dtt s
    let w := wordTicks (s.mode n)
    let s := s.setLane n { s.lane n with piFrom := pos, piAt := s.dtt + (64 * w.1 + w.2 - 1) / w.2 }
    let s := (s.setF (Reg.sdsTrimPiPos n) pos).setF (Reg.sdsTrimPiTgt n) tgt
    s.setB (Reg.sdsStatusTrimBusy n) true

/-- SDS_TRIM shows the position of a lane's interpolator as it moves (R220). -/
def showPi (n : Nat) (s : State) : State :=
  if s.isF (Reg.sdsStatusTrimBusy n) then s.setF (Reg.sdsTrimPiPos n) (piAt n s.dtt s) else s

/-- The transmitter of lane `n` is to restart: no new frame starts (R221). -/
def requestRestart (n : Nat) (s : State) : State :=
  if s.isF (Reg.sdsStatusTxOn n) then s.setLane n { s.lane n with restartDue := true, held := true } else s

/-! ### Groups -/

/-- Release group `g`. -/
def State.rg (s : State) (g : Nat) : RelGroup := spGet RelGroup.reset s.releases g

/-- The state with a release group replaced. -/
def State.setRg (s : State) (g : Nat) (x : RelGroup) : State := { s with releases := spSet RelGroup.reset s.releases g x }

/-- STATE of a release group. -/
def erState (g : Nat) (s : State) : Nat := s.getF (Reg.erGStatusState g)

/-- Members of a release group as a mask. -/
def erMembers (g : Nat) (s : State) : Nat := s.getF (Reg.erGMemb0 g) + 2 ^ 32 * s.getF (Reg.erGMemb1 g)

/-- Inputs of a release group as a mask. -/
def erInputs (g : Nat) (s : State) : Nat := s.getF (Reg.erGIn0 g) + 2 ^ 32 * s.getF (Reg.erGIn1 g)

/-- Grid period B of a mode in half ticks (R526). -/
def gridHalf (mode : Nat) : Nat := if mode = 1 then 25 else if mode = 2 then 10 else 4

/-- Grid period in TK80 units. -/
def gridUnits (mode : Nat) : Nat := gridHalf mode * 32768

/-- Line time to the stamp point of a member mode in TK80 units (R526). -/
def lineUnits (mode : Nat) : Nat := (if mode = 1 then 50 else if mode = 2 then 5 else 2) * 65536

/-- T_LEAD of a member mode in TK80 units (R526). -/
def leadUnits (mode : Nat) : Nat := lineUnits mode + 32 * 65536

/-- Release lead trim of a port in force at tick `x`, in TK80 units (R527). -/
def erLead (p x : Nat) (s : State) : Int := psUnits (s.timedAt (Reg.erTrim p).addr (s.getI (Reg.erTrim p)) x)

/-- The ENABLED group's mode for which port `p` is to be aligned: that of the first such group it is a member of. -/
def alignMode (p : Nat) (s : State) : Option Nat :=
  ((List.range 64).find? (fun g => erState g s = 1 && bit (erMembers g s) p)).map (fun g => s.getF (Reg.erGStatusMode g))

/-! ### Alignment (R528) -/

/-- Steps by which the release part and the release word offset together delay port `p`'s blocks, so that they begin at the grid
less the latest commanded L_p: from the measured block phase net of the release part, with the host trim in it. -/
def alignSteps (p mode : Nat) (s : State) : Nat :=
  let b : Int := gridHalf mode * 2 ^ 23
  let ph : Int := (s.lane p).txPhase + steps24 mode (s.lane p).hostSteps
  let d := (-(erLead p (2 ^ 64) s * 256) - ph) % b
  let ui := uiOf mode
  ((2 * d * 64 * ui.2 + ui.1 * 2 ^ 24) / (2 * ui.1 * 2 ^ 24)).toNat

/-- Why a port is UNALIGNED, 0 for ALIGNED (R528): mode, transmitter, word limit, interpolator. -/
def alignCause (p mode : Nat) (s : State) : Nat :=
  if s.mode p ≠ mode then 2
  else if !s.isF (Reg.sdsStatusTxOn p) || (s.lane p).restartDue then 3
  else if 15 < s.getF (Reg.sdsTrimWords p) + s.getF (Reg.erPortAlignWordOff p) then 4
  else if s.isF (Reg.sdsStatusTrimBusy p) then 1
  else 0

/-- ER_PORT_ALIGN follows the port, with ER_ALIGN at a change (R528, R543). -/
def showAlign (p : Nat) (s : State) : State :=
  match alignMode p s with
  | none => s
  | some mode =>
    let c := alignCause p mode s
    let ok := decide (c = 0)
    let was := s.isF (Reg.erPortAlignAligned p)
    let s := (s.setB (Reg.erPortAlignAligned p) ok).setF (Reg.erPortAlignCause p) c
    if was = ok then s
    else raiseEv 115 0 0x0C15 [(20, le 1 p), (21, le 1 (b2n ok)), (22, le 1 c), (24, le 2 (s.getF (Reg.erPortAlignRelPart p))),
      (26, le 1 (s.getF (Reg.erPortAlignWordOff p)))] s

/-- The release part and word offset of a member port are computed anew, at a transmitter start, a change of L_p, or when its group
is enabled; a change of the word offset restarts the transmitter (R528). The answer says whether it changed. -/
def alignPort (p : Nat) (s : State) : Bool × State :=
  match alignMode p s with
  | none => (false, s)
  | some mode =>
    if s.mode p ≠ mode then (false, showAlign p s)
    else
      let n := alignSteps p mode s
      let off := n / wordSteps mode
      let changed := decide (off ≠ s.getF (Reg.erPortAlignWordOff p))
      let s := (s.setF (Reg.erPortAlignWordOff p) off).setF (Reg.erPortAlignRelPart p) (n % wordSteps mode)
      let s := retarget p s
      let s := if changed then requestRestart p s else s
      (changed, showAlign p s)

/-- Members for which ER_GROUP_ENABLE waits: up, and not ALIGNED for the interpolator or the transmitter (R542). -/
def alignWaits (g : Nat) (s : State) : Bool :=
  (members (erMembers g s) 48).any (fun p => s.linkUp p && !s.isF (Reg.erPortAlignAligned p) &&
    (s.getF (Reg.erPortAlignCause p) = 1 || s.getF (Reg.erPortAlignCause p) = 3))

/-! ### State of a group -/

/-- Cells in use of a release group (R524). -/
def erInUse (g : Nat) (s : State) : Nat := ((s.rg g).held.map (·.frame.cells.length)).sum

/-- HELD, OCC and PEAK follow the group. -/
def showRelease (g : Nat) (s : State) : State :=
  let n := erInUse g s
  ((s.setF (Reg.erGStatusHeld g) (sat 0xFFFF (s.rg g).held.length)).setF (Reg.erGOcc g) n).setF (Reg.erGPeak g)
    (max n (s.getF (Reg.erGPeak g)))

/-- A release group's STATE changes (R543). -/
def setErState (g new : Nat) (s : State) : State :=
  let old := erState g s
  if old = new then s
  else raiseEv 115 0 0x0C11 [(20, le 1 g), (21, le 1 old), (22, le 1 new), (24, le 4 (s.getF (Reg.erGFseq g)))]
    (s.setF (Reg.erGStatusState g) new)

/-! ### Records -/

/-- A release record reaches the evidence module and the net ring, where set (R537); `nss` the continuous nanoseconds of its stamps. -/
def erPut (g tIn : Nat) (body : Bytes) (nss : List Nat) (s : State) : State :=
  let s := if s.isF (Reg.erGCfgEvidence g) then evdSend 0x03 0 115 s.dtt [(16, body)] s else s
  if s.isF (Reg.erGCfgRec g) then
    let i : CapItem :=
      { kind := 4, invalid := bit (body.getD 3 0).toNat 4, bad := false, dp := false, src := 115, sel := 0xFF, len := 0, data := body,
        tIn := cs48 (s.servedTime tIn), tOut := 0, stepc := s.stepc s.served, qc := s.qc s.served, capTag := 0, vlan := 0, queue := 0,
        egress := 0xFF, stamp := s.dtt, domain := s.served, nss := nss }
    capWrite (s.getF (Reg.erGCfgRing g)) 32 [] none i s
  else s

/-- The release record of a frame that leaves its group: 1 released, 2 dropped AON, 3 full, 4 bad (R537), behind a base record where
SIGNED mode asks for one. -/
def erRecord (g kind : Nat) (x : RelFrame) (s : State) : State :=
  let f := x.frame
  let d := s.servedAt x.rg
  let dec := decide (kind ≤ 2)
  let body := record 32
    [(0, le 1 kind), (1, le 1 g), (2, le 1 f.src),
     (3, le 1 (b2n (decide (x.nLate ≠ 0)) + 2 * b2n x.partly + 4 * f.domIn + (if dec then 8 * d else 0) + 16 * b2n x.invalid +
        64 * b2n (s.isF (Reg.erGCfgAon g)))),
     (4, le 4 (if dec then x.fseq else 0xFFFFFFFF)), (8, le 6 (cs48 (s.timeAt f.domIn f.tIn))),
     (14, if dec then le 6 (cs48 (s.timeAt d x.rg)) else []), (20, le 6 x.sent), (26, le 2 f.stepIn),
     (28, if dec then le 2 (s.stepcAt d x.rg) else []), (30, le 1 f.qcIn), (31, le 1 (sat 0xFF x.nLate))]
  let nsIn := (s.timeAt f.domIn f.tIn).toNat / 2 ^ 16
  let nss := if dec then [nsIn, (s.timeAt d x.rg).toNat / 2 ^ 16] else [nsIn]
  let outs := s.isF (Reg.erGCfgEvidence g) || s.isF (Reg.erGCfgRec g)
  let s := if outs && needsBase 3 (3 * 256 + g) nss s then
      let base := record 32 [(0, le 1 5), (1, le 1 g), (2, le 1 0xFF), (3, le 1 (8 * f.domIn + 32)), (8, ftBytes (s.timeAt f.domIn f.tIn)),
        (28, le 2 f.stepIn)]
      noteBase (3 * 256 + g) nsIn (erPut g f.tIn base [nsIn] s)
    else s
  erPut g f.tIn body nss s

/-! ### Storage -/

/-- Cells for a stored frame up to `n`, or none where the partition has too few free (R524). -/
def erTake (g : Nat) (f : Frame) (n : Nat) (s : State) : Option (Frame × State) :=
  let more := n - f.cells.length
  if s.getF (Reg.fmPartRgGranules g) * 256 < erInUse g s + more then none
  else
    let a := allocate more 65536 (holdUsed s) s
    some ({ f with cells := f.cells ++ a.1 }, writeCells 2 2 a.1 (writeCells 1 4 a.1 a.2))

/-- A held frame goes, with its record (R537). -/
def erEnd (g kind : Nat) (x : RelFrame) (s : State) : State :=
  let s := s.setRg g { s.rg g with held := (s.rg g).held.erase x }
  showRelease g (erRecord g kind x s)

/-- A frame is discarded for a full partition or a bad end (R524). -/
def erDiscard (g kind : Nat) (x : RelFrame) (s : State) : State :=
  let s := count (erCtr g (if kind = 3 then 6 else 7)) 1 s
  let s := if kind = 3 then
      let n := (s.rg g).full.note s.dtt
      let s := s.setRg g { s.rg g with full := n.2.2 }
      if n.2.1 then raiseEv 115 1 0x0C14 [(20, le 1 g), (24, le 4 n.1)] s else s
    else s
  erEnd g kind x s

/-- A frame enters group `g` at its head decision (R523, R524), or is discarded; the answer says whether it is held. -/
def erEnter (g : Nat) (f : Frame) (s : State) : Bool × State :=
  if !bit (erInputs g s) f.src then (false, count (srcCtr f.src 18) 1 s)
  else if erState g s ≠ 1 then (false, count (srcCtr f.src 19) 1 s)
  else
    let x : RelFrame := ⟨f, false, 0, 0, [], 0, 0, false, f.inBad⟩
    match erTake g f 1 s with
    | none => (false, erDiscard g 3 x s)
    | some (f', s) => (true, showRelease g (s.setRg g { s.rg g with held := (s.rg g).held ++ [{ x with frame := f' }] }))

/-! ### Admission -/

/-- A copy's occupancy of its port, from its first bit to the end of its FCS and 12 octets, in TK80 units (R530). -/
def occupancy (mode start len : Nat) : Nat × Nat :=
  let a := start - lineUnits mode
  (a, a + (8 + len + 12) * byteUnits mode)

/-- Occupancies of the copies that port `p` still has to send or sends (R530, R534). -/
def scheduled (p : Nat) (s : State) : List (Nat × Nat) :=
  (s.releases.map (fun e => (e.2.held.map (fun x =>
    (x.copies.filter (fun c => c.port = p && !c.done)).map (fun c =>
      occupancy (s.mode p) c.start (vlanEdit x.frame x.frame.vid p (noFcs x.frame.data) s ++ [0, 0, 0, 0]).length))).flatten)).flatten

/-- Whether two occupancies overlap. -/
def overlaps (a b : Nat × Nat) : Bool := decide (a.1 < b.2) && decide (b.1 < a.2)

/-- Bytes of a release copy on a port, FCS included (R535). -/
def erBytes (f : Frame) (p : Nat) (s : State) : Bytes :=
  let d := noFcs f.data
  let v := vlanEdit f f.vid p d s
  if v = d then f.data else v ++ fcsOf v

/-- What the test of R530 finds for a target: 0 passes, 1 link or release, 2 alignment or size, 3 time or overlap. -/
def erTest (f : Frame) (rg p : Nat) (s : State) : Nat :=
  let mode := s.mode p
  let st := (rg : Int) - erLead p s.dtt s
  let len := (erBytes f p s).length
  if !released p s then 1
  else if !s.isF (Reg.erPortAlignAligned p) || (s.swPort p).maxFrame < len then 2
  else if st < (s.now80 + leadUnits mode : Nat) then 3
  else if (scheduled p s).any (fun o => overlaps o (occupancy mode st.toNat len)) then 3
  else 0

/-- The earliest start on the port's grid from `st` on that overlaps no scheduled copy; `n` bounds the copies passed. -/
def erEarliest (mode len p : Nat) : Nat → Nat → State → Nat
  | 0, st, _ => st
  | n + 1, st, s =>
    match (scheduled p s).find? (fun o => overlaps o (occupancy mode st len)) with
    | none => st
    | some o =>
      let b := gridUnits mode
      erEarliest mode len p n (st + (o.2 + lineUnits mode - st + b - 1) / b * b) s

/-- The start of a copy that LATE_SEND sends (R531). -/
def lateStart (f : Frame) (rg p : Nat) (s : State) : Nat :=
  let mode := s.mode p
  let st := (rg : Int) - erLead p s.dtt s
  let need : Int := (s.now80 + leadUnits mode : Nat)
  let b : Int := gridUnits mode
  let st := if need ≤ st then st else st + (need - st + b - 1) / b * b
  erEarliest mode (erBytes f p s).length p ((scheduled p s).length + 1) st.toNat s

/-- A happening counted for an event raised at most once a millisecond. -/
def erLateNote (g : Nat) (s : State) : State :=
  let n := (s.rg g).late.note s.dtt
  let s := s.setRg g { s.rg g with late := n.2.2 }
  if n.2.1 then raiseEv 115 1 0x0C13 [(20, le 1 g), (24, le 4 n.1)] s else s

/-- One target of an admitted frame (R530, R531): its copy, or its count. -/
def erTarget (g : Nat) (x : RelFrame × State) (p : Nat) : RelFrame × State :=
  let f := x.1.frame
  let s := x.2
  let t := erTest f x.1.rg p s
  if t = 0 then
    ({ x.1 with copies := x.1.copies ++ [⟨p, ((x.1.rg : Int) - erLead p s.dtt s).toNat, false, false, false⟩] }, s)
  else if t = 1 then (x.1, count (erCtr g 8) 1 s)
  else if t = 3 ∧ s.isF (Reg.erGCfgLateSend g) then
    ({ x.1 with copies := x.1.copies ++ [⟨p, lateStart f x.1.rg p s, true, false, false⟩], nLate := x.1.nLate + 1, partly := true },
     erLateNote g (count (erCtr g 2) 1 s))
  else ({ x.1 with partly := true }, erLateNote g (count (erCtr g 3) 1 s))

/-- A stored frame's fields replaced in its group. -/
def erReplace (g : Nat) (old new : RelFrame) (s : State) : State :=
  s.setRg g { s.rg g with held := (s.rg g).held.map (fun y => if y = old then new else y) }

/-- With every copy gone, the frame leaves its group (R524, R537). -/
def erFinish (g : Nat) (x : RelFrame) (s : State) : State :=
  if x.copies.all (·.done) then erEnd g 1 x s else showRelease g s

/-- The admission decision at Wh (R530 to R533). -/
def erDecide (g : Nat) (x : RelFrame) (s : State) : State :=
  let f := x.frame
  let b := gridUnits (s.getF (Reg.erGStatusMode g))
  let rg := (f.tIn + s.getF (Reg.erGCfgDelay g) * 51200 + b - 1) / b * b
  let ps := (members (erMembers g s) 48).filter (· ≠ f.src)
  let y := { x with decided := true, fseq := s.getF (Reg.erGFseq g), rg := rg }
  let s := erReplace g x y (s.addWrap (Reg.erGFseq g) 1)
  let downFails := s.isF (Reg.erGCfgDownFails g)
  let failing := ps.filter (fun p => let t := erTest f rg p s; t ≠ 0 && (t ≠ 1 || downFails))
  if s.isF (Reg.erGCfgAon g) && failing ≠ [] then
    let s := ps.foldl (fun s p => if !downFails && erTest f rg p s = 1 then count (erCtr g 8) 1 s else s) s
    let n := (s.rg g).aon.note s.dtt
    let s := count (erCtr g 5) 1 (s.setRg g { s.rg g with aon := n.2.2 })
    let s := if n.2.1 then
        raiseEv 115 1 0x0C12 [(20, le 1 g), (24, le 4 n.1), (28, le 2 (failing.headD 0))] s
      else s
    erEnd g 2 y s
  else
    let r := ps.foldl (erTarget g) (y, s)
    let s := count (erCtr g 0) 1 (erReplace g y r.1 r.2)
    let s := if r.1.partly then count (erCtr g 4) 1 s else s
    erFinish g r.1 s

/-- The end of a frame that group `g` stores (R524, R525, R542): `good` says that it checked good. -/
def erWhole (g : Nat) (f : Frame) (good : Bool) (s : State) : State :=
  match (s.rg g).held.find? (fun x => x.frame.src = f.src && !x.decided) with
  | none => s
  | some x =>
    if !good then erDiscard g 4 x s
    else
      match erTake g x.frame (cellsOf f.data.length) s with
      | none => erDiscard g 3 x s
      | some (f', s) =>
        let y := { x with frame := { f' with data := f.data, whole := true } }
        let s := erReplace g x y s
        if f'.broken then showRelease g (count (srcCtr f.src 38) 1 (s.setRg g { s.rg g with held := (s.rg g).held.erase y }))
        else if f'.holdBad then erDiscard g 4 y s
        else erDecide g y s

/-! ### Sending -/

/-- The scheduled copy that port `p` sends next for group `g`, with its frame. -/
def erNext (g p : Nat) (s : State) : Option (RelFrame × RelCopy) :=
  (s.rg g).held.foldl (fun m x => x.copies.foldl (fun m c =>
    if c.port = p && !c.done && !c.sending then
      match m with
      | none => some (x, c)
      | some y => if c.start < y.2.start then some (x, c) else some y
    else m) m) none

/-- A copy's fields replaced in its frame; the frame leaves with its last copy. -/
def erCopy (g : Nat) (x : RelFrame) (c c' : RelCopy) (more : RelFrame → RelFrame) (s : State) : State :=
  let y := more { x with copies := x.copies.map (fun k => if k = c then c' else k) }
  erFinish g y (erReplace g x y s)

/-- First bit of the next scheduled copy of port `p` (R534). -/
def nextRelease (p : Nat) (s : State) : Option Nat :=
  ((scheduled p s).map (·.1)).foldl (fun m a => match m with | none => some a | some b => some (min a b)) none

/-- Whether port `p` counts as transmitting for R413 (R534): T_GUARD before a copy's first bit until it ends. -/
def releaseGuard (p : Nat) (s : State) : Bool :=
  let g := ((s.swPort p).maxFrame + 20) * byteUnits (s.mode p)
  (scheduled p s).any (fun o => decide (o.1 ≤ s.now80 + g) && decide (s.now80 < o.2))

/-- A scheduled copy whose time has come begins, its frame read (R526, R534, R536): a frame with an uncorrectable data word and no copy begun is discarded
bad; a copy that its port cannot send, or of a frame lost while others leave, is discarded and counted (R619). -/
def erStart (g port : Nat) (s : State) : State :=
  match erNext g port s with
  | none => s
  | some (x, c) =>
    if x.frame.holdBad && x.copies.all (fun k => !k.sending && !k.done) then erDiscard g 4 x s
    else if !released port s || x.frame.broken || x.frame.holdBad || (s.lane port).held || (s.lane port).remoteFault then
      let off : Nat := if x.frame.broken then srcCtr port 38 else if x.frame.holdBad then erCtr g 7 else erCtr g 8
      erCopy g x c { c with done := true } id (count off 1 s)
    else if (spGet none s.sw.tx port).isSome then s
    else
      let s := erReplace g x { x with copies := x.copies.map (fun k => if k = c then { k with sending := true } else k) } s
      let t : TxFrame := ⟨2, Copy.none, 0, g, x.frame, x.fseq, c.start, false, s.dtt, erBytes x.frame port s, decide (txCause port s ≠ 0), s.qc s.served⟩
      takeTokens (port * 9 + 8) t.extra.length { s with sw := { s.sw with tx := spSet none s.sw.tx port (some t) } }

/-- RELEASE_COPY_START: a scheduled copy's first bit has come (R526, R534, R536). -/
def execReleaseCopyStart (g port : Nat) (s : State) : Out :=
  match erNext g port s with
  | none => .next s
  | some n =>
    if s.now80 + 65535 < n.2.start - lineUnits (s.mode port) then .next s else .next (erStart g port (holdRead n.1.frame s))

/-- The release copy that port `p` sends has ended: `ok` when it left whole (R537). -/
def erSent (g p fseq : Nat) (bad ok : Bool) (s : State) : State :=
  match (s.rg g).held.find? (fun x => x.fseq = fseq && x.copies.any (fun c => c.port = p && c.sending && !c.done)) with
  | none => s
  | some x =>
    match x.copies.find? (fun c => c.port = p && c.sending && !c.done) with
    | none => s
    | some c =>
      let s := count (erCtr g 1) (b2n ok) s
      erCopy g x c { c with sending := false, done := true }
        (fun y => { y with sent := if ok && !c.late then maskOf (p :: members y.sent 48) else y.sent, invalid := y.invalid || bad }) s

/-! ### Rows -/

/-- ER_DRAIN_DONE: a DRAINING group whose partition is empty becomes DISABLED (R542). -/
def execErDrainDone (g : Nat) (s : State) : Out :=
  if g < 64 ∧ erState g s = 2 ∧ (s.rg g).held = [] then .next (setErState g 0 s) else .next s

/-- ER_TRIM_APPLY: a port's release lead trim in force now is shown (R527). -/
def execErTrimApply (port : Nat) (s : State) : Out :=
  if port < 48 then
    let r := timedApply (Reg.erTrim port).addr (s.getI (Reg.erTrim port)) s
    .next (r.2.setI (Reg.erTrim port) r.1)
  else .next s

/-! ### Commands -/

def erGroupSetSpec : CmdSpec :=
  { opcode := 0x0C11, lenOk := lenIs 24
    args := fun c s => firstBad
      ([(0, decide (63 < cu c 0 1)), (1, decide (32 ≤ cu c 1 1) || (cbit c 1 0 && cbit c 1 2)),
        (2, decide (7 < cu c 2 1) || (!cbit c 1 4 && cu c 2 1 ≠ 0)), (4, decide (cu c 4 4 < 100 ∨ 50000 < cu c 4 4)),
        (8, cu c 8 6 = 0 || anyInGroup (cu c 8 6) s), (16, cu c 16 6 = 0 || anyInGroup (cu c 16 6) s)] ++
       reserved c 3 1 ++ reserved c 14 2 ++ reserved c 22 2)
    stops := fun c s => firstStop [(erState (cu c 0 1) s ≠ 0, stRefused, 0x0C11)] }

/-- ER_GROUP_SET: flags, ring, delay, inputs and members (R522). -/
def erGroupSetEffect (c : Cmd) (s : State) : State × Reply :=
  let g := cu c 0 1
  let s := ((s.setB (Reg.erGCfgAon g) (cbit c 1 0)).setB (Reg.erGCfgDownFails g) (cbit c 1 1)).setB (Reg.erGCfgLateSend g) (cbit c 1 2)
  let s := (s.setB (Reg.erGCfgEvidence g) (cbit c 1 3)).setB (Reg.erGCfgRec g) (cbit c 1 4)
  let s := (s.setF (Reg.erGCfgRing g) (cu c 2 1)).setF (Reg.erGCfgDelay g) (cu c 4 4)
  let s := (s.setF (Reg.erGIn0 g) (cu c 8 4)).setF (Reg.erGIn1 g) (cu c 12 2)
  ((s.setF (Reg.erGMemb0 g) (cu c 16 4)).setF (Reg.erGMemb1 g) (cu c 20 2), okReply)

/-- ER_GROUP_SET (R522, R544). -/
def execErGroupSet (c : Cmd) (s : State) : Out := runCmd erGroupSetSpec erGroupSetEffect c s

/-- The one mode of the configured members of a group, 0 where they differ, use FEC, run 100GBASE-R, or none is configured (R544). -/
def erMode (g : Nat) (s : State) : Nat :=
  let ps := (members (erMembers g s) 48).filter (fun p => s.mode p ≠ 0)
  match ps with
  | [] => 0
  | p :: r => if s.mode p ≤ 3 ∧ s.fec p = 0 ∧ r.all (fun q => s.mode q = s.mode p && s.fec q = 0) then s.mode p else 0

def erGroupEnableSpec : CmdSpec :=
  { opcode := 0x0C12, lenOk := lenIs 8, args := fun c _ => groupEnableBad 63 c
    stops := fun c s =>
      let g := cu c 0 1
      let ms := members (erMembers g s) 48
      let ins := members (erInputs g s) 48
      let on : Bool := cu c 1 1 = 1 && erState g s ≠ 1
      firstStop
        [(on && s.getF (Reg.fmPartRgGranules g) = 0, stRefused, 0x0C12),
         (on && (erMode g s = 0 || !ms.all (fun p => s.isF (Reg.swPortStatusL23Tx p)) || (ms ++ ins).any (fun p => inDirect p s) ||
            ms.any (fun p => (List.range 16).any (fun m => fmSet m s && fmEgress m s = p))), stRefused, 0x0C13),
         (on && !ins.all (fun p => s.isF (Reg.swPortStatusL23Rx p)), stRefused, 0x0C14),
         (on && erState g s = 2, stRefused, 0x0C15)] }

/-- RESULT of ER_GROUP_ENABLE: next FSEQ, frames held, members down. -/
def erEnableReply (g st : Nat) (s : State) : Reply :=
  ⟨st, 0, resultOf [(32, le 4 (s.getF (Reg.erGFseq g))), (36, le 4 (s.rg g).held.length),
    (40, le 6 (maskOf ((members (erMembers g s) 48).filter (fun p => !s.linkUp p))))], []⟩

/-- A frame of a group that is being disabled: one not yet whole is discarded; with a flush, so are its scheduled copies (R542). -/
def erStop (g : Nat) (flush : Bool) (s : State) (x : RelFrame) : State :=
  if !x.decided then
    showRelease g (count (srcCtr x.frame.src 19) 1 (s.setRg g { s.rg g with held := (s.rg g).held.erase x }))
  else if flush then
    let out := x.copies.filter (fun c => !c.done && !c.sending)
    let y := { x with copies := x.copies.map (fun c => if c.sending then c else { c with done := true }) }
    erFinish g y (erReplace g x y (count (erCtr g 9) out.length s))
  else s

/-- ER_GROUP_ENABLE: on, waiting for alignment; off with draining, or with a flush (R533, R542). -/
def erGroupEnableEffect (c : Cmd) (s : State) : State × Option Reply :=
  let g := cu c 0 1
  let on : Bool := cu c 1 1 = 1
  if on && erState g s = 0 then
    let s := if cbit c 2 1 then s.setF (Reg.erGFseq g) (cu c 4 4) else s
    let s := (s.setF (Reg.erGStatusMode g) (erMode g s)).setF (Reg.erGPeak g) 0
    let s := setErState g 1 s
    let s := (members (erMembers g s) 48).foldl (fun s p => (alignPort p s).2) s
    (s, if alignWaits g s then none else some (erEnableReply g stOk s))
  else if !on && erState g s ≠ 0 && cbit c 2 0 then
    let s := (s.rg g).held.foldl (erStop g true) s
    let s := setErState g 0 s
    (s, some (erEnableReply g stOk s))
  else if !on && erState g s = 1 then
    let s := (s.rg g).held.foldl (erStop g false) s
    let s := setErState g 2 s
    (s, some (erEnableReply g stDeferred s))
  else (s, some (erEnableReply g stOk s))

/-- ER_GROUP_ENABLE (R542, R544). -/
def execErGroupEnable (c : Cmd) (s : State) : Out := runHeld erGroupEnableSpec erGroupEnableEffect c s

/-- A waiting ER_GROUP_ENABLE completes once no member keeps it waiting (R542). -/
def erEnableCheck (s : State) : State :=
  match s.mbx.held with
  | none => s
  | some h =>
    let g := cu h.cmd 0 1
    if h.opcode = 0x0C12 && !alignWaits g s then resumeHeld (erEnableReply g stOk s) s else s

def erSetTrimSpec : CmdSpec :=
  { opcode := 0x0C13, unmirrored := true, lenOk := lenIs 8
    args := fun c s => if cu c 0 1 < 48 ∧ inGroup (cu c 0 1) s then some 0 else leadTrimBad c }

/-- ER_SET_TRIM: the trim changes at x_c, and the port is aligned anew (R527, R528). -/
def erSetTrimEffect (c : Cmd) (s : State) : State × Reply :=
  let p := cu c 0 1
  let r := Reg.erTrim p
  let x := fixXc none (timedLast r.addr s) s
  let s := timedAdd r.addr (s.getI r) (ci c 4 4) x.1 x.2
  let a := alignPort p s
  (a.2, okWith [(32, le 8 x.1), (40, le 1 (b2n a.1))])

/-- ER_SET_TRIM (R527, R544). -/
def execErSetTrim (c : Cmd) (s : State) : Out := runCmd erSetTrimSpec erSetTrimEffect c s

end Sys2Proof.Machine
end

