-- ==== Sys2Proof/Machine/Sessions.lean ====
section
/-! DEFINITION. Sessions as the pipeline sees them: descriptor fields (R246), and which session claims a received PTP message (R238 to
R240). -/

set_option Elab.async false

namespace Sys2Proof.Machine

/-- Session `n`. -/
def State.session (s : State) (n : Nat) : Session := spGet Session.reset s.tt.sessions n

/-- The state with session `n` replaced. -/
def State.setSession (s : State) (n : Nat) (x : Session) : State :=
  { s with tt := { s.tt with sessions := spSet Session.reset s.tt.sessions n x } }

/-- A field of a session's descriptor (R246): `n` bytes at offset `o`, little-endian. -/
def Session.field (x : Session) (o n : Nat) : Nat := ofLe (slice x.desc o n)

/-- A signed byte of a session's descriptor. -/
def Session.log (x : Session) (o : Nat) : Int := sext 8 (x.field o 1)

/-- ROLE (R238). -/
def Session.role (x : Session) : Nat := x.field 2 1

/-- PORT. -/
def Session.port (x : Session) : Nat := x.field 3 1

/-- A bit of FLAGS: 0 TWO_STEP, 1 P2P, 2 LINK_MODE, 3 UNICAST, 4 VLAN, 5 REC, 6 L1SYNC. -/
def Session.flag (x : Session) (b : Nat) : Bool := bit (x.field 5 1) b

/-- TIME_DOMAIN. -/
def Session.domain (x : Session) : Nat := x.field 7 1 % 2

/-- sourcePortIdentity as PTP messages carry it: clockIdentity, then portNumber, which the descriptor holds little-endian, big-endian (R246). -/
def Session.portId (x : Session) : Bytes := slice x.desc 40 8 ++ be 2 (x.field 48 2)

/-- Whether the session measures its link by peer delay (R238). -/
def Session.peers (x : Session) : Bool := x.role = 3 || ((x.role = 1 || x.role = 2) && x.flag 1)

/-- STATE of a session (R242): 0 DISABLED, 1 LINK_WAIT, 2 RUNNING, 3 PHASE. -/
def ttState (n : Nat) (s : State) : Nat := s.getF (Reg.ttSStateState n)

/-- Whether a session claims messages of a type on receive (R238): Sync 0, Delay_Req 1, Pdelay_Req 2, Pdelay_Resp 3, Follow_Up 8,
Delay_Resp 9, Pdelay_Resp_Follow_Up 10, Announce 11, Signaling 12 for phase reports (R265) and for the L1Sync exchange (R251). -/
def Session.claims (x : Session) (t : Nat) : Bool :=
  (x.role = 1 && !x.flag 1 && t = 1) ||
  (x.role = 2 && (t = 0 || t = 8 || t = 11 || (t = 9 && !x.flag 1))) ||
  (x.peers && (t = 2 || t = 3 || t = 10)) ||
  (x.role = 4 && decide (t < 4)) ||
  ((x.flag 2 || x.flag 6) && t = 12)

/-- Whether a session's claim conditions match a PTP message (R239). -/
def sessionMatches (x : Session) (src : Nat) (p : Parsed) (d : Bytes) : Bool :=
  let h := slice d p.ptp 34
  let b (o : Nat) : Nat := (h.getD o 0).toNat
  x.port = src && x.field 4 1 = p.transport && x.field 6 1 = b 4 && x.field 11 1 = b 0 / 16 && x.field 12 1 = b 5 &&
    x.claims (b 0 % 16) &&
    (!x.flag 3 || (if p.transport = 0 then slice x.desc 16 6 = slice d 6 6 else slice x.desc 24 p.sip.length = p.sip))

/-- The enabled session that claims a received PTP message (R239): there is at most one (R240). -/
def claimant (src : Nat) (p : Parsed) (d : Bytes) (s : State) : Option Nat :=
  if p.ptp = 0 then none
  else s.tt.sessions.findSome? (fun e => if ttState e.1 s ≠ 0 && sessionMatches e.2 src p d then some e.1 else none)

/-- Whether two sessions' claim conditions can match the same message (R240). -/
def claimConflict (x y : Session) : Bool :=
  x.port = y.port && x.field 4 1 = y.field 4 1 && x.field 6 1 = y.field 6 1 && x.field 11 1 = y.field 11 1 &&
    x.field 12 1 = y.field 12 1 && (List.range 16).any (fun t => x.claims t && y.claims t) &&
    !(x.flag 3 && y.flag 3 && (if x.field 4 1 = 0 then slice x.desc 16 6 ≠ slice y.desc 16 6 else slice x.desc 24 16 ≠ slice y.desc 24 16))

end Sys2Proof.Machine
end

