-- ==== Sys2Proof/Machine/Pipeline.lean ====
section
/-! DEFINITION. The forwarding pipeline and the direct path: VLAN assignment, classification and the decision (R402 to R411), admission
of a frame's copies (R413, R478, R491), reception and its end (R399, R409, R415, R416), the scheduler's pick and the end of
transmission (R486, R592), internal sources (R417 to R422), and the commands of group 0x09. -/

set_option Elab.async false

namespace Sys2Proof.Machine

/-! ### What a frame meets on its way in -/

/-- A frame of source `src` with ingress stamp `tIn`, before VLAN assignment. -/
def mkFrame (src : Nat) (data : Bytes) (tIn : Nat) (inBad : Bool) (s : State) : Frame :=
  { src := src, data := data, whole := false, bad := false, tIn := tIn, inBad := inBad, domIn := s.servedAt tIn,
    stepIn := s.stepcAt (s.servedAt tIn) tIn % 2 ^ 16, qcIn := s.qc s.served, vid := 0, pcp := 0, sTag := (s.swPort src).sTag, capTag := 0,
    mark := false, dscp := none, recirc := false, hostTag := none, cells := [], shared := 0, copies := 0, broken := false, holdBad := false }

/-- VLAN and PCP of a frame at source `n`, none where ACCEPT or ingress filtering refuses it (R405). A recirculated frame keeps those it
has. -/
def assignVlan (n : Nat) (f : Frame) (s : State) : Option (Nat × Nat) :=
  if f.recirc then some (f.vid, f.pcp)
  else
    let w := s.swPort n
    let acc := if n ≤ 48 then s.getF (Reg.swPortStatusAccept n) else 0
    let pv := if n ≤ 48 then s.getF (Reg.swPortStatusPvid n) else 1
    let tagged : Bool := taggedWith (tpidOf n s) f.data
    let tci := fb f.data 14 2
    let r : Option (Nat × Nat) :=
      if tagged && tci % 4096 ≠ 0 then (if acc = 2 then none else some (tci % 4096, tci / 8192))
      else if acc = 1 then none
      else some (pv, if tagged then tci / 8192 else w.pcp)
    match r with
    | some v => if w.filter && !bit (s.vlan v.1).members n then none else some v
    | none => none

/-- The acting rule for a classification key: the valid match with the lowest index (R404). Words with a stored error are found by
the lookup. -/
def classify (k : Bytes) (s : State) : Option Rule × State :=
  let bad := s.mp.errs.filter (fun e => mpMem e.1 = 7)
  let s := bad.foldl (fun s e => (mpRead e.1 false s).2) s
  (s.sw.rules.findSome? (fun e => e.2.bind (fun r => if keyMatches k r.key r.mask then some r else none)), s)

/-- The action of a rule, 0 PERMIT for none. -/
def ruleAct (r : Option Rule) : Nat := match r with | some x => x.act % 8 | none => 0

/-- A flag bit of a rule's ACT byte. -/
def ruleBit (r : Option Rule) (b : Nat) : Bool := match r with | some x => bit x.act b | none => false

/-- Whether an address is that of a host interface (R247). -/
def hostAddress (a : Bytes) (s : State) : Bool :=
  ofBe a ≠ 0 && s.sw.ports.any (fun e => decide (e.1 ≤ 48) && ((a.length = 4 && e.2.ipv4 = ofBe a) || (a.length = 16 && e.2.ipv6 = ofBe a)))

/-- Whether a frame asks for a host interface address: ARP, IPv6 neighbour discovery, or its destination (reason LOCAL, R411). -/
def forHost (d : Bytes) (p : Parsed) (s : State) : Bool :=
  (p.etype = 0x0806 && hostAddress (slice d (p.body + 24) 4) s) ||
  (p.l3 = 2 && p.proto = 58 && (fb d (p.body + 40) 1 = 135 || fb d (p.body + 40) 1 = 136) && hostAddress (slice d (p.body + 48) 16) s) ||
  (p.l3 ≠ 0 && hostAddress p.dip s)

/-- An ESMC frame (R411). -/
def isEsmc (d : Bytes) (p : Parsed) : Bool := p.etype = 0x8809 && dmacOf d = 0x0180C2000002 && fb d p.body 1 = 0x0A

/-- The trap reason that stands before routing, the lowest code where several hold (R411). -/
def trapReason (d : Bytes) (p : Parsed) (src act : Nat) (s : State) : Option Nat :=
  let ll := dmacOf d / 16 = 0x0180C200000
  let pd := p.ptp ≠ 0 && dmacOf d = 0x0180C200000E
  if ll && !isEsmc d p && !pd then some 0
  else if pd || (p.ptp ≠ 0 && decide (src ≤ 48) && s.isF (Reg.swPortStatusPtpTrap src)) then some 1
  else if forHost d p s then some 4
  else if act = 2 then some 7
  else none

/-- A copy with its egress and queue. -/
structure Leg where
  egress : Nat
  queue : Nat
  copy : Copy

/-- Where the decision sends a frame: its copies, or a merge or release group; the counter of a partial delivery, where copies were
replicated. -/
structure Plan where
  legs : List Leg
  merge : Option Nat
  release : Option Nat
  short : Option Nat

/-- Nowhere. -/
def Plan.nowhere : Plan := ⟨[], none, none, none⟩

/-- The queue of a copy: the rule's under SET_Q, otherwise as given (R476). -/
def legQueue (r : Option Rule) (q : Nat) : Nat := match r with | some x => if bit x.act 4 then x.queue else q | none => q

/-- The host copy of a trap reason: its ring from SW_TRAP_MAP or the rule; none where the reason is mapped to a discard (R411, R419). -/
def hostLeg (reason : Nat) (r : Option Rule) (vid : Nat) (s : State) : Option Leg :=
  let c := { Copy.none with vid := vid, reason := reason }
  if reason = 7 then
    match r with
    | some x => some ⟨48, x.queue, { c with ring := x.ring }⟩
    | none => none
  else
    let m := s.getF Reg.swTrapMapMap / 16 ^ reason % 16
    if m < 8 then none else some ⟨48, legQueue r (if reason = 1 then 7 else if reason = 0 then 6 else 0), { c with ring := m % 8 }⟩

/-- Whether a bridged copy to `egress` goes back to the ingress port or its group, or an internal source's own (R406). -/
def pruned (src egress : Nat) (s : State) : Bool :=
  src = egress || (match lagOf src s with | some g => lagOf egress s = some g | none => false)

/-- A copy to a source: member of its VLAN and, where bridged, not pruned (R406); to the host port without a trap reason it takes the
FWD ring, and is counted TRAP_DROP where FWD is off (R420). -/
def portLeg (src egress pcp : Nat) (r : Option Rule) (bridged : Bool) (c : Copy) (s : State) : List Leg × State :=
  if !bit (s.vlan c.vid).members egress || (bridged && pruned src egress s) then ([], s)
  else if egress = 48 then
    let m := s.getF Reg.swTrapMapFwd
    if m < 8 then ([], count (srcCtr src 12) 1 s) else ([⟨48, legQueue r 0, { c with ring := m % 8 }⟩], s)
  else ([⟨egress, legQueue r (queueOf egress pcp s), c⟩], s)

/-- A copy to a link aggregation group goes to the member its hash names; with no member up it is counted LAG_DOWN (R407, R408). A
bridged copy never goes to the ingress group. -/
def lagLeg (src g pcp : Nat) (key : Bytes) (r : Option Rule) (bridged : Bool) (c : Copy) (s : State) : List Leg × State :=
  match s.lag g with
  | none => ([], count (srcCtr src 15) 1 s)
  | some l =>
    if bridged && bit l.members src then ([], s)
    else match lagMember l key s with
      | none => ([], count (srcCtr src 15) 1 s)
      | some p => portLeg src p pcp r bridged c s

/-- Copies of a list of destinations, one after the other. -/
def legsOf {α : Type} (f : α → State → List Leg × State) (l : List α) (s : State) : List Leg × State :=
  l.foldl (fun a x => let r := f x a.2; (a.1 ++ r.1, r.2)) ([], s)

/-- Flooding in a VLAN: its members outside groups, and one copy for each group with a member there; never to the management port
(R406, R407, R421, R492). -/
def floodLegs (src pcp : Nat) (key : Bytes) (r : Option Rule) (vid : Nat) (s : State) : List Leg × State :=
  let c := { Copy.none with vid := vid }
  let ms := (members (s.vlan vid).members 51).filter (fun n => n ≠ 49)
  let single := ms.filter (fun n => (lagOf n s).isNone)
  let groups := (ms.filterMap (fun n => lagOf n s)).eraseDups
  let a := legsOf (fun n s => portLeg src n pcp r true c s) single s
  let b := legsOf (fun g s => lagLeg src g pcp key r true c s) groups a.2
  (a.1 ++ b.1, b.2)

/-- The copies of replication group `g` (R489): a ROUTED member is edited as routed and may return to its ingress port (R406). -/
def mcastLegs (src pcp : Nat) (key : Bytes) (r : Option Rule) (g : Nat) (s : State) : List Leg × State :=
  legsOf (fun (m : Member) s =>
    let c := { Copy.none with vid := m.vid, routed := m.routed }
    if m.type = 0 then portLeg src m.index pcp r (!m.routed) c s
    else if m.type = 1 then lagLeg src m.index pcp key r (!m.routed) c s
    else portLeg src (if m.type = 2 then 48 else 50) pcp r (!m.routed) c s) (spGet [] s.bf.groups g) s

/-- What a destination entry or a route gives (R436). -/
inductive Found where
  | entry (type dest : Nat)
  | missed

/-- Where a found destination sends a frame: its plan, or a discard or trap reason to follow. -/
inductive Step2 where
  | plan (p : Plan)
  | trap (reason : Nat)

/-- A destination entry's copies (R436, R490): DROP counts TABLE_DROP, an empty replication group MC_EMPTY. -/
def entryPlan (src : Nat) (f : Frame) (key : Bytes) (r : Option Rule) (type dest : Nat) (s : State) : Step2 × State :=
  let c := { Copy.none with vid := f.vid }
  if type = 0 then let l := portLeg src dest f.pcp r true c s; (.plan ⟨l.1, none, none, none⟩, l.2)
  else if type = 1 then let l := lagLeg src dest f.pcp key r true c s; (.plan ⟨l.1, none, none, none⟩, l.2)
  else if type = 2 then
    if spGet [] s.bf.groups dest = [] then (.plan Plan.nowhere, count (srcCtr src 20) 1 s)
    else let l := mcastLegs src f.pcp key r dest s; (.plan ⟨l.1, none, none, some (9984 + dest)⟩, l.2)
  else if type = 4 then (.plan Plan.nowhere, count (srcCtr src 11) 1 s)
  else if type = 5 then (.trap 4, s)
  else if type = 6 then (.plan ⟨[], some dest, none, none⟩, s)
  else if type = 7 then (.plan ⟨[], none, some dest, none⟩, s)
  else (.plan Plan.nowhere, s)

/-- The key block of a lookup (R435, R437, R438). -/
def lookupKey (type vid : Nat) (a g : Bytes) : Bytes := record 36 [(0, le 1 type), (2, le 2 vid), (4, a), (20, g)]

/-- A destination lookup: a match of TYPE 2 to 7 sets HIT (R440). -/
def destLookup (key : Bytes) (s : State) : Option FtEntry × State :=
  let r := ftLookup key s
  match r.1 with
  | some (loc, e) => (some e, if 2 ≤ e.type then setHit loc r.2 else r.2)
  | none => (none, r.2)

/-- The next hop a routed frame takes, or its trap or discard: host entry, otherwise the longest prefix (R409, R465, R469). -/
inductive Hop where
  | via (n : NextHop) (i : Nat)
  | dropped
  | here
  | missed

/-- Next hop `i`, read from its table. -/
def takeHop (i : Nat) (s : State) : Hop × State :=
  let s := readWords 6 [2 * i, 2 * i + 1] s
  match s.nextHop i with
  | some n => (if n.valid && !n.broken then .via n i else .missed, s)
  | none => (.missed, s)

/-- The routed lookup of a destination address. -/
def routeLookup (p : Parsed) (s : State) : Hop × State :=
  let r := destLookup (lookupKey (if p.l3 = 1 then 2 else 3) 0 p.dip []) s
  match r.1 with
  | some e => if e.destType = 3 then takeHop e.dest r.2 else if e.destType = 4 then (.dropped, r.2) else (.here, r.2)
  | none =>
    match routeMatch (p.l3 - 1) p.dip r.2 with
    | none => (.missed, r.2)
    | some x =>
      let s := readWords 5 ((x.units.map (fun u => [2 * u, 2 * u + 1])).flatten) r.2
      let x := (routeMatch (p.l3 - 1) p.dip s).getD x
      if x.broken then (.missed, s)
      else if x.rtype = 0 then takeHop x.nh s else if x.rtype = 1 then (.dropped, s) else (.here, s)

/-- Length of a routed frame on its egress, FCS included: IP packet, layer-2 header and the egress tag. -/
def routedLength (p : Parsed) (vid egress : Nat) (s : State) : Nat :=
  max 64 (p.ipLen + 14 + (if bit (s.vlan vid).untagged egress then 0 else 4) + 4)

/-- Routing of a frame addressed to its VLAN's router (R409, R411). -/
def routePlan (src : Nat) (f : Frame) (p : Parsed) (key : Bytes) (r : Option Rule) (s : State) : Step2 × State :=
  if p.ttl ≤ 1 then (.trap 2, s)
  else if p.opts then (.trap 6, s)
  else
    let h := routeLookup p s
    match h.1 with
    | .missed => (.trap 3, h.2)
    | .dropped => (.plan Plan.nowhere, count (srcCtr src 11) 1 h.2)
    | .here => (.trap 4, h.2)
    | .via n _ =>
      let c := { Copy.none with vid := n.vid, routed := true, dmac := some n.dmac }
      let l := if n.lag then lagLeg src n.egress f.pcp key r false c h.2 else portLeg src n.egress f.pcp r false c h.2
      if l.1.any (fun x => decide ((h.2.swPort x.egress).maxFrame < routedLength p n.vid x.egress h.2)) then (.trap 5, l.2)
      else (.plan ⟨l.1, none, none, none⟩, l.2)

/-- The entry a bridged frame finds (R409): unicast by (VID, DMAC), IP multicast by (S,G) then (*,G). -/
def bridgeFind (f : Frame) (p : Parsed) (s : State) : Option FtEntry × State :=
  let d := f.data
  if fb d 0 1 % 2 = 1 ∧ p.l3 ≠ 0 then
    let a := destLookup (lookupKey (if p.l3 = 1 then 5 else 7) f.vid p.dip p.sip) s
    match a.1 with
    | some e => (some e, a.2)
    | none => destLookup (lookupKey (if p.l3 = 1 then 4 else 6) f.vid p.dip []) a.2
  else destLookup (lookupKey 1 f.vid (slice d 0 6) []) s

/-- Bridging of a frame (R409): to what it finds, otherwise flooding where its VLAN has it. -/
def bridgePlan (src : Nat) (f : Frame) (p : Parsed) (key : Bytes) (r : Option Rule) (s : State) : Step2 × State :=
  let a := bridgeFind f p s
  match a.1 with
  | some e => entryPlan src f key r e.destType e.dest a.2
  | none =>
    if bit (s.vlan f.vid).flags (if fb f.data 0 1 % 2 = 1 then 3 else 2) then
      let l := floodLegs src f.pcp key r f.vid a.2
      (.plan ⟨l.1, none, none, some (18176 + f.vid)⟩, l.2)
    else (.plan Plan.nowhere, a.2)

/-- The lookups of a frame that a rule redirects: made as for any frame, with the trap they may end in; their destination is then
replaced and nothing of it is counted (R409, R410). -/
def redirectLookup (routed : Bool) (f : Frame) (p : Parsed) (s : State) : Option Nat × State :=
  if routed then
    if p.ttl ≤ 1 then (some 2, s)
    else if p.opts then (some 6, s)
    else
      let h := routeLookup p s
      match h.1 with
      | .missed => (some 3, h.2)
      | .here => (some 4, h.2)
      | .dropped => (none, h.2)
      | .via _ _ => (none, h.2)
  else
    let a := bridgeFind f p s
    match a.1 with
    | some e => (if e.destType = 5 then some 4 else none, a.2)
    | none => (none, a.2)

/-- A trapped frame: its host copy, or TRAP_DROP (R411). -/
def trapPlan (n reason : Nat) (r : Option Rule) (vid : Nat) (s : State) : Plan × State :=
  match hostLeg reason r vid s with
  | some l => (⟨[l], none, none, none⟩, s)
  | none => (Plan.nowhere, count (srcCtr n 12) 1 s)

/-- The source lookup (R409, R440, R447, R449): HIT, a learn notification, and whether a locked entry discards the frame. -/
def sourceLookup (f : Frame) (s : State) : Bool × State :=
  if !bit (s.vlan f.vid).flags 4 || f.recirc || !(decide (f.src < 48) || f.src = 50) then (false, s)
  else
    let lag := (lagOf f.src s).getD 0xFF
    let mac := smacOf f.data
    let r := ftLookup (lookupKey 1 f.vid (slice f.data 6 6) []) s
    match r.1 with
    | none => (false, learnNotify 1 f.src lag f.vid mac none r.2)
    | some (loc, e) =>
      let s := setHit loc r.2
      let away := (e.destType = 0 || e.destType = 1) && !destIncludes e f.src s
      let s := if away && (if e.isStatic then s.isF Reg.ftLrnStatusStaticMove else s.isF Reg.ftLrnStatusMove) then
          learnNotify (if e.isStatic then 3 else 2) f.src lag f.vid mac (some e) s
        else s
      if bit e.eflags 1 && !destIncludes e f.src s then (true, count (srcCtr f.src 13) 1 s) else (false, s)

/-- The decision of R409 for a frame that enters the pipeline at source `n`: the frame with what the rule gave it, and its plan. -/
def decision (n : Nat) (f : Frame) (s : State) : Frame × Plan × State :=
  match assignVlan n f s with
  | none => (f, Plan.nowhere, count (srcCtr n 9) 1 s)
  | some v =>
    let f := { f with vid := v.1, pcp := v.2 }
    let l := sourceLookup f s
    if l.1 then (f, Plan.nowhere, l.2)
    else
      let p := parse f.data
      let key := classKey f.data p n f.vid f.pcp
      let k := classify key l.2
      let r := k.1
      let s := k.2
      let act := ruleAct r
      let f := { f with
        mark := f.mark || ruleBit r 3
        capTag := if ruleBit r 6 then (r.map (·.capTag)).getD 0 else f.capTag
        dscp := if ruleBit r 5 then r.map (·.dscp) else f.dscp }
      if act = 1 then (f, Plan.nowhere, count (srcCtr n 10) 1 s)
      else
        match trapReason f.data p n act s with
        | some t => let x := trapPlan n t r f.vid s; (f, x.1, x.2)
        | none =>
          if isEsmc f.data p then (f, ⟨[⟨49, 0, { Copy.none with vid := f.vid }⟩], none, none, none⟩, s)
          else if p.ptp ≠ 0 && tcMode s = 2 && [2, 3, 10].contains (fb f.data p.ptp 1 % 16) then (f, Plan.nowhere, s)
          else if act = 5 then
            if f.recirc then (f, Plan.nowhere, count (srcCtr n 14) 1 s)
            else (f, ⟨[⟨51, 0, { Copy.none with vid := f.vid }⟩], none, none, none⟩, s)
          else
            let routed := bit (s.vlan f.vid).flags 1 && dmacOf f.data = (s.vlan f.vid).rmac && p.l3 ≠ 0 && decide (n ≤ 48) &&
              s.isF (Reg.swPortStatusL3 n)
            if act = 4 then
              let x := redirectLookup routed f p s
              match x.1 with
              | some t => let y := trapPlan n t r f.vid x.2; (f, y.1, y.2)
              | none =>
                let t := (r.map (·.target)).getD 0
                let c := { Copy.none with vid := f.vid }
                let y := if 64 ≤ t then lagLeg f.src (t - 64) f.pcp key r false c x.2 else portLeg f.src t f.pcp r false c x.2
                (f, ⟨y.1, none, none, none⟩, y.2)
            else
            let x := if routed then routePlan f.src f p key r s else bridgePlan f.src f p key r s
            match x.1 with
            | .trap t => let y := trapPlan n t r f.vid x.2; (f, y.1, y.2)
            | .plan pl =>
              if act = 3 && (pl.legs ≠ [] || pl.merge.isSome || pl.release.isSome) then
                (f, { pl with legs := pl.legs ++ (hostLeg 7 r f.vid x.2).toList }, x.2)
              else (f, pl, x.2)

/-! ### Admission of a frame's copies -/

/-- Line rate of a mode in Gbit/s (R203). -/
def lineRate (mode : Nat) : Nat := if mode = 1 then 1 else if mode = 2 then 10 else if mode = 3 then 25 else 100

/-- Whether a copy goes by cut-through (R413), judged in the state before the frame. -/
def cutsThrough (f : Frame) (l : Leg) (s : State) : Bool :=
  let e := l.egress
  decide (f.src < 48) && decide (e < 48) && !f.bad && !f.recirc && s.isF (Reg.swPortStatusCt f.src) && s.isF (Reg.swPortStatusCt e) &&
    decide (lineRate (s.mode e) ≤ lineRate (s.mode f.src)) && (List.range 8).all (fun q => (s.bq (e * 8 + q)).copies = []) &&
    (spGet none s.sw.tx e).isNone && !releaseGuard e s && !s.isF (Reg.bfQStatusSpilling (e * 8 + l.queue)) &&
    !(residesOn e (parse f.data) f.data s && udpStored (parse f.data) f.data)

/-- One copy under R478, judged in the state `before` the frame: it joins its queue, or is counted. The first component says whether it
was admitted, the second whether it was lost for room. -/
def admitLeg (k n len : Nat) (replicated : Bool) (f : Frame) (before : State) (l : Leg) (s : State) : Bool × Bool × State :=
  let q := l.egress * 8 + l.queue
  let c := { l.copy with frame := k, ct := cutsThrough f l before }
  let lost (off : Nat) (s : State) : State :=
    let s := count (queueCtr 0 q off) 1 s
    if replicated then count (queueCtr 0 q 6) 1 s else s
  match admission q n before with
  | .down => (false, false, count (srcCtr l.egress 36) 1 s)
  | .chip => (true, false, joinQueue q n len c before s)
  | .spill => (true, false, joinQueue q n len { c with place := 1, ct := false } before s)
  | .tailDrop => (false, true, lost 3 s)
  | .spillDrop => (false, true, lost 4 s)

/-- The copies of a frame of `len` bytes enter the pool (R474, R478, R491): the frame's number where one was admitted. -/
def admitFrame (f : Frame) (pl : Plan) (len : Nat) (s : State) : Option Nat × State :=
  if pl.legs = [] then (none, s)
  else
    let before := s
    let k := s.bf.next
    let n := cellsOf len
    let a := allocate n 262144 (chipUsed s) s
    let s := (writeCells 3 2 a.1 (writeCells 0 4 a.1 a.2)).setPoolFrame k (some { f with cells := a.1, copies := 0 })
    let s := { s with bf := { s.bf with next := k + 1 } }
    let r := pl.legs.foldl (fun (x : Bool × Bool × State) l =>
      let y := admitLeg k n len pl.short.isSome f before l x.2.2
      (x.1 || y.1, x.2.1 || y.2.1, y.2.2)) (false, false, s)
    let s := r.2.2
    let s := match pl.short with | some c => if r.2.1 then count c 1 s else s | none => s
    if r.1 then (some k, syncPool s) else (none, syncPool (s.setPoolFrame k none))

/-! ### Stamps, capture and latency of a frame -/

/-- Whether a frame is a PTP event message. -/
def isEvent (d : Bytes) (p : Parsed) : Bool := p.ptp ≠ 0 && decide (fb d p.ptp 1 % 16 < 4)

/-- Whether PTS_CFG selects a frame's stamp (R189): `sel` is RX_SEL or TX_SEL. -/
def selected (sel : Nat) (event mark asked : Bool) : Bool :=
  sel = 3 || ((sel = 1 || sel = 2) && (event || asked)) || (sel = 2 && mark)

/-- The stamp entry of a frame (R190), with the served domain's QC at its stamp. -/
def stampItem (stamp qc : Nat) (d : Bytes) (tag : Nat) (invalid pred dp bad : Bool) : StampItem :=
  let p := parse d
  if p.ptp = 0 then ⟨stamp, qc, 0, 0, 0, tag, invalid, pred, dp, bad⟩
  else ⟨stamp, qc, fb d (p.ptp + 30) 2, fb d p.ptp 1, fb d (p.ptp + 4) 1, tag, invalid, pred, dp, bad⟩

/-- The capture item of a frame at a capture point (R550, R554): `kind` 1 on receive, 2 on transmit. -/
def capItem (kind src : Nat) (f : Frame) (data : Bytes) (bad dp : Bool) (out : Nat) (invalid : Bool) (queue egress : Nat) (s : State) :
    CapItem :=
  { kind := kind, invalid := invalid, bad := bad, dp := dp, src := src, sel := 0xFF, len := data.length, data := data,
    tIn := cs48 (s.timeAt f.domIn f.tIn), tOut := if kind = 2 then cs48 (s.servedTime out) else 0, stepc := f.stepIn, qc := f.qcIn,
    capTag := f.capTag, vlan := f.vid + 4096 * f.pcp, queue := queue, egress := egress,
    stamp := (if kind = 2 then out else f.tIn) / 2 ^ 16, domain := if kind = 2 then s.servedAt out else f.domIn,
    nss := (s.timeAt f.domIn f.tIn).toNat / 2 ^ 16 :: (if kind = 2 then [(s.servedTime out).toNat / 2 ^ 16] else []) }

/-- The bin of a latency sample (R603): ⌊log₂⌋ of L in units of 64 ns (50 ticks), from 1 on, at most 15. -/
def latencyBin (l : Nat) : Nat := ((List.range 15).filter (fun b => decide (50 * 65536 * 2 ^ b ≤ l))).length

/-- One sampler's part in a frame that leaves `egress` (R602, R603). -/
def sampleOne (egress src e i : Nat) (dp invalid : Bool) (k : Nat) (s : State) : State :=
  let ins := s.getF (Reg.ctLsIn0 k) + 2 ^ 32 * s.getF (Reg.ctLsIn1 k)
  if !(s.isF (Reg.ctLsCfgEn k) && s.getF (Reg.ctLsCfgEgress k) = egress && s.isF (Reg.ctLsCfgDp k) = dp && decide (src < 48) &&
      bit ins src) then s
  else
    let c := spGet 0 s.ctSeen k
    let n := s.getF (Reg.ctLsN k)
    let s := { s with ctSeen := spSet 0 s.ctSeen k (c + 1) }
    if n = 0 ∨ c % n ≠ 0 then s
    else if invalid then s.addSat (Reg.ctLsInvalid k) 1
    else
      let l := e - i
      let s := s.set64 (Reg.ctLsCount k) ((s.get64 (Reg.ctLsCount k) + 1) % 2 ^ 64)
      let s := s.set64 (Reg.ctLsSum k) ((s.get64 (Reg.ctLsSum k) + l) % 2 ^ 64)
      let s := s.set64 (Reg.ctLsMin k) (min l (s.get64 (Reg.ctLsMin k)))
      let s := (s.set64 (Reg.ctLsMax k) (max l (s.get64 (Reg.ctLsMax k)))).set64 (Reg.ctLsLast k) l
      count (devCtr (128 + k * 16 + latencyBin l)) 1 s

/-- Every sampler's part in a frame. -/
def latencySample (egress src e i : Nat) (dp invalid : Bool) (s : State) : State :=
  (List.range 8).foldl (fun s k => sampleOne egress src e i dp invalid k s) s

/-! ### Reception -/

/-- The state with source `n`'s frame in reception replaced. -/
def State.setRx (s : State) (n : Nat) (r : Option RxFrame) : State := { s with sw := { s.sw with rx := spSet none s.sw.rx n r } }

/-- The state with egress `n`'s frame in transmission replaced. -/
def State.setTx (s : State) (n : Nat) (t : Option TxFrame) : State := { s with sw := { s.sw with tx := spSet none s.sw.tx n t } }

/-- Whether source `n` hands its frames to the pipeline (R36, R398). -/
def ingressOpen (n : Nat) (s : State) : Bool :=
  if n < 48 then s.isF (Reg.swPortStatusL23Rx n) && s.linkUp n && s.awake (halfOf n)
  else if n = 50 then s.isF Reg.twStatusLinkUp
  else true

/-- A frame goes where its plan sends it: to a group, and its copies to the pool (R409). `len` is its length. -/
def placeFrame (n : Nat) (f : Frame) (pl : Plan) (len : Nat) (s : State) : RxFrame × State :=
  let base : RxFrame := ⟨f, none, none, none, false, [], false, false, false⟩
  let m := match pl.merge with | some g => let r := fmEnter g f s; ((if r.1 then some g else none), r.2) | none => (none, s)
  let e := match pl.release with | some g => let r := erEnter g f m.2; ((if r.1 then some g else none), r.2) | none => (none, m.2)
  let p := admitFrame f pl len e.2
  ({ base with pool := p.1, merge := m.1, release := e.1 }, p.2)

/-- Outputs of connection `i`. -/
def dpOutputs (i : Nat) (s : State) : Nat := s.getF (Reg.swDpOut0 i) + 2 ^ 32 * s.getF (Reg.swDpOut1 i)

/-- Whether a transmit pattern is set on any lane of a port (R224). -/
def txPatterned (p : Nat) (s : State) : Bool := (portLanes p s).any (fun m => s.isF (Reg.sdsStatusPrbsTx m))

/-- Whether an output carries frames that the direct path starts: its transmitter runs, is not about to restart or stop (R221, R229) and sends no pattern
(R224). -/
def outCarries (p : Nat) (s : State) : Bool := s.isF (Reg.sdsStatusTxOn p) && !(s.lane p).held && !txPatterned p s

/-- The stamps of a direct-path frame start of input `src` on its outputs, by output port (R196): none where a measurement of an output is missing from
`outs`. -/
def directOuts (src : Nat) (outs : List EdgeMeas) (s : State) : Option (List (Nat × Nat × Bool)) :=
  ((members (dpOutputs src s) 48).filter (fun b => outCarries b s)).foldr (fun b r =>
    match r, outs.find? (fun e => decide (e.lane < 48) && portOf e.lane s = b) with
    | some l, some e => some ((b, txStamp b e s, decide (txCause b s ≠ 0)) :: l)
    | _, _ => none) (some [])

/-- Whether source `src` receives frames with measurement `m` of their stamp points: the twin port, or a port whose link is up. -/
def receives (src : Nat) (m : EdgeMeas) (s : State) : Bool :=
  src = 50 || (decide (src < 48) && s.mode src ≠ 0 && !inGroup src s && s.linkUp src && (portLanes src s).contains m.lane)

/-- FRAME_RX: the head of a frame of `len` bytes has been parsed (R409, R502): `head` its first 64 to 128 bytes, `bad` a fault of its
line code seen by now, `m` the measurement of its stamp point, `outs` those of the outputs of a direct-path connection. A frame that arrives in a relock is
lost and counted (R213); while the monitor of R198 is not aligned a direct-path frame start takes no stamp. -/
def execFrameRx (src len : Nat) (head : Bytes) (bad : Bool) (m : EdgeMeas) (outs : List EdgeMeas) (s : State) : Out :=
  let isPort := decide (src < 48)
  if (spGet none s.sw.rx src).isSome || head.length < 64 || len < head.length then .next s
  else if !receives src m s then
    .next (if isPort && (s.lane src).relocking && !s.linkUp src then count (srcCtr src 5) 1 s else s)
  else
    let x := if isPort then rxStamp src m s else s.now80
    let inv := if isPort then decide (rxCause src s ≠ 0) else !s.innerLocked
    let f := { mkFrame src head x inv s with bad := bad }
    if isPort && s.isF (Reg.swPortStatusDpRx src) then
      match directOuts src outs s with
      | none => .next s
      | some o => .next (s.setRx src (some ⟨{ f with inBad := inv || bad }, none, none, none, true, o, false, bad, false⟩))
    else
      let p := parse head
      if fb head (12 + 4 * p.tags) 2 = 0x8808 then .next (s.setRx src (some ⟨f, none, none, none, false, [], false, bad, false⟩))
      else if (claimant src p head s).isSome then .next (s.setRx src (some ⟨f, none, none, none, false, [], true, bad, false⟩))
      else if !ingressOpen src s then .next (s.setRx src (some ⟨f, none, none, none, false, [], false, bad, false⟩))
      else
        let d := decision src f s
        let r := placeFrame src d.1 d.2.1 len d.2.2
        .next (r.2.setRx src (some { r.1 with fecBad := bad }))

/-- Receive counts of a good frame (R591). -/
def countRx (n : Nat) (d : Bytes) (s : State) : State :=
  let s := count (srcCtr n 1) d.length (count (srcCtr n 0) 1 s)
  count (srcCtr n (if dmacOf d = 0xFFFFFFFFFFFF then 4 else if fb d 0 1 % 2 = 1 then 3 else 2)) 1 s

/-- Every stored copy of pool frame `k` that waits is discarded and counted TX_DISCARD_BAD (R414). -/
def discardStored (k : Nat) (s : State) : State :=
  s.bf.queues.foldl (fun s q => q.2.copies.foldl (fun s c => if c.frame = k then discardCopy q.1 35 c s else s) s) s

/-- The end of a pool frame: its bytes stand, its stored copies are discarded where it is bad, and its cut-through copies are to be
ended as R415 lays down. -/
def poolEnd (k : Nat) (data : Bytes) (good cutBad : Bool) (s : State) : State :=
  match s.poolFrame k with
  | none => s
  | some f =>
    let s := s.setPoolFrame k (some { f with data := data, whole := true, bad := !good || cutBad })
    if good then s else discardStored k s

/-- Whether a cut-through copy of pool frame `k` that has begun goes to an egress whose MAX_FRAME the frame exceeds (R415). -/
def cutOver (k len : Nat) (s : State) : Bool :=
  s.sw.tx.any (fun e => match e.2 with
    | some t => t.kind = 0 && t.copy.frame = k && t.copy.ct && decide ((s.swPort e.1).maxFrame < len)
    | none => false)

/-- Whether a cut-through copy of pool frame `k` has begun. -/
def cutBegun (k : Nat) (s : State) : Bool :=
  s.sw.tx.any (fun e => match e.2 with | some t => t.kind = 0 && t.copy.frame = k && t.copy.ct | none => false)

/-- `n` bytes that the manual leaves open. -/
def freeBytes (n : Nat) (s : State) : Bytes × State :=
  (List.range n).foldl (fun (a : Bytes × State) _ => let d := a.2.draw; (a.1 ++ [BitVec.ofNat 8 d.1], d.2)) ([], s)

/-- The direct path's part at the end of a frame start (R196, R198, R429): stamp entries where DP_FIFO asks for them, capture on the
input and on every output, latency samples; and what the outputs have sent: the bits of the input (R197), ended as R415 lays down where a `fault` cut the frame
short (R428), open where a slip fell into it (R425, log entry 247), and with the errors injected at each output (R226). -/
def directEnd (r : RxFrame) (fault : Bool) (s : State) : State :=
  let n := r.frame.src
  let data := r.frame.data
  let bad := r.fecBad || fault || !fcsGood data
  let sent := if fault then (stompBytes data, s) else if r.slipped then freeBytes data.length s else (data, s)
  let s := { sent.2 with sw := { sent.2.sw with sent := r.outs.foldl (fun l o => spSet [] l o.1 sent.1) sent.2.sw.sent } }
  let s := r.outs.foldl (fun s o => injectSent o.1 s) s
  let put (p k x : Nat) (inv b : Bool) (s : State) : State :=
    if s.isF (Reg.ptsCfgDpFifo p) then fifoPut k (stampItem x r.frame.qcIn data 0 inv false true b) s else s
  let s := put n (2 * n) r.frame.tIn r.frame.inBad bad s
  let s := captureFrame (capItem 1 n r.frame data bad true 0 r.frame.inBad 0 0xFF s) s
  r.outs.foldl (fun s o =>
    let s := put o.1 (2 * o.1 + 1) o.2.1 (o.2.2 || r.fecBad) (r.fecBad || fault) s
    let s := captureFrame (capItem 2 o.1 r.frame data bad true o.2.1 (o.2.2 || r.frame.inBad) 0 o.1 s) s
    latencySample o.1 n o.2.1 r.frame.tIn true (o.2.2 || r.frame.inBad) s) s

/-- A claimed PTP message joins the engine's inbox (R239, R252). -/
def claimEnd (r : RxFrame) (data : Bytes) (s : State) : State :=
  let p := parse data
  match claimant r.frame.src p data s with
  | none => s
  | some k =>
    let x : PtpRx := ⟨k, (noFcs data).drop p.ptp, r.frame.tIn, r.frame.inBad, s.stepcAt 0 r.frame.tIn, s.stepcAt 1 r.frame.tIn, r.frame.qcIn⟩
    { s with tt := { s.tt with inbox := s.tt.inbox ++ [x] } }

/-- The end of the frame that source `n` receives: `data` all of it, `fault` a line-code error or link loss (R209, R399, R414 to R416, R592). -/
def frameEnd (n : Nat) (r : RxFrame) (data : Bytes) (fault : Bool) (s : State) : State :=
  let s := s.setRx n none
  if r.dp then directEnd { r with frame := { r.frame with data := data } } fault s
  else
    let broken := fault || r.fecBad || !fcsGood data
    let tooLong := decide ((s.swPort n).maxFrame < data.length)
    let good := !broken && !tooLong
    let data' := if fault then data ++ [0, 0, 0, 0] else data
    let eover : Bool := good && (match r.pool with | some k => cutOver k data.length s | none => false)
    let begun : Bool := match r.pool with | some k => cutBegun k s | none => false
    let s := if tooLong then count (srcCtr n 7) 1 s else s
    let s := if (!good && (!tooLong || begun)) || eover then count (srcCtr n 5) 1 s else s
    let s := if good && !eover then countRx n data s else s
    let s := if good && fb data (12 + 4 * (parse data).tags) 2 = 0x8808 then count (srcCtr n 8) 1 s else s
    if r.claimed then
      captureFrame (capItem 1 n r.frame data (!good) false 0 r.frame.inBad 0 0xFF s) (if good then claimEnd r data s else s)
    else
      let f := r.frame
      let f := match r.pool with | some k => (s.poolFrame k).getD f | none => f
      let s := match r.pool with | some k => poolEnd k data' good eover s | none => s
      let s := match r.merge with | some g => fmWhole g { f with data := data } good s | none => s
      let s := match r.release with | some g => erWhole g { f with data := data } good s | none => s
      let s := if decide (n < 48) && selected (s.getF (Reg.ptsCfgRxSel n)) (isEvent data (parse data)) f.mark false then
          fifoPut (2 * n) (stampItem f.tIn f.qcIn data 0 f.inBad false false broken) s
        else s
      if ingressOpen n s then captureFrame (capItem 1 n f data (!good) false 0 f.inBad 0 0xFF s) s else s

/-- A frame shorter than 64 bytes: on a direct-path input a frame start like any other (R196); elsewhere it is discarded and counted (R399), and PTS_CFG may select
its stamp (R189). -/
def runtEnd (src : Nat) (data : Bytes) (fault : Bool) (m : EdgeMeas) (outs : List EdgeMeas) (s : State) : State :=
  let inv := decide (rxCause src s ≠ 0)
  let f := mkFrame src data (rxStamp src m s) inv s
  if s.isF (Reg.swPortStatusDpRx src) then
    match directOuts src outs s with
    | none => s
    | some o => directEnd ⟨f, none, none, none, true, o, false, false, false⟩ fault s
  else
    let s := count (srcCtr src 6) 1 s
    if selected (s.getF (Reg.ptsCfgRxSel src)) false false false then
      fifoPut (2 * src) (stampItem f.tIn f.qcIn data 0 inv false false (fault || !fcsGood data)) s
    else s

/-- FRAME_END: the rest of the frame that source `src` receives has come, whole or cut short by a `fault` (R416); with no frame in
reception it ends a frame shorter than 64 bytes (R399), with the measurements `m` and `outs` of its stamp points. -/
def execFrameEnd (src : Nat) (rest : Bytes) (fault : Bool) (m : EdgeMeas) (outs : List EdgeMeas) (s : State) : Out :=
  match spGet none s.sw.rx src with
  | some r => .next (frameEnd src r (r.frame.data ++ rest) fault s)
  | none =>
    if src < 48 ∧ receives src m s = true ∧ rest ≠ [] ∧ rest.length < 64 then .next (runtEnd src rest fault m outs s)
    else .next s

/-- A whole frame of an internal source enters the pipeline (R418, R422): whether anything of it was admitted. -/
def enterWhole (n : Nat) (f : Frame) (s : State) : Bool × State :=
  let s := countRx n f.data s
  let d := decision n { f with whole := true } s
  let r := placeFrame n d.1 d.2.1 f.data.length d.2.2
  let s := match r.1.pool with | some k => poolEnd k f.data true false r.2 | none => r.2
  (r.1.pool.isSome || r.1.merge.isSome || r.1.release.isSome, s)

/-! ### Transmission -/

/-- Whether the head copy of a queue can go: on chip, and stored whole or by cut-through (R414, R486). -/
def headReady (c : Copy) (s : State) : Bool :=
  c.place = 0 && (match s.poolFrame c.frame with | some f => f.whole || c.ct | none => false)

/-- Length that a copy's frame counts with at its egress. -/
def copyLength (c : Copy) (s : State) : Nat := ((s.poolFrame c.frame).map (fun f => f.data.length)).getD 0

/-- Whether a queued frame may start on a port before its next release copy (R534): it ends, with its gap, before that copy's first
bit. -/
def fitsBefore (p len : Nat) (s : State) : Bool :=
  match nextRelease p s with
  | none => true
  | some a => decide (s.now80 + (8 + len + 12) * byteUnits (s.mode p) ≤ a)

/-- Whether queue `q` of egress `n` is eligible (R486): its head can go, its shaper and the port's have tokens, and it ends before the
next release copy. -/
def eligibleQueue (n q : Nat) (s : State) : Bool :=
  let k := n * 8 + q
  match (s.bq k).copies with
  | [] => false
  | c :: _ => headReady c s && (n = 49 || n = 51 || (shaperOpen (n * 9 + q) s && shaperOpen (n * 9 + 8) s)) &&
      (!decide (n < 48) || fitsBefore n (copyLength c s) s)

/-- The DWRR round from queue `q` on (R486): `credited` says whether the queue was visited already; at most `fuel` visits. -/
def dwrrPick (n : Nat) : Nat → Nat → Bool → State → Option Nat × State
  | 0, _, _, s => (none, s)
  | fuel + 1, q, credited, s =>
    let k := n * 8 + q
    let next := (q + 1) % 8
    if s.getF (Reg.bfQLimMode k) = 1 && eligibleQueue n q s then
      let x := s.bq k
      let d := if credited then x.deficit else x.deficit + s.getF (Reg.bfQCfgWeight k) * 256
      let len : Int := match x.copies with | c :: _ => (copyLength c s : Int) | [] => 0
      if len ≤ d then
        (some q, { (s.setBq k { x with deficit := d - len }) with
          bf := { (s.setBq k { x with deficit := d - len }).bf with visits := spSet 0 s.bf.visits n (q + 1) } })
      else dwrrPick n fuel next false (s.setBq k { x with deficit := d })
    else dwrrPick n fuel next false s

/-- The queue the scheduler serves at egress `n` (R486): the highest eligible SP queue, otherwise the DWRR round, which stays with a
queue while its deficit covers the head frame. -/
def pickQueue (n : Nat) (s : State) : Option Nat × State :=
  match ([7, 6, 5, 4, 3, 2, 1, 0] : List Nat).find? (fun q => s.getF (Reg.bfQLimMode (n * 8 + q)) = 0 && eligibleQueue n q s) with
  | some q => (some q, s)
  | none =>
    if (List.range 8).any (fun q => s.getF (Reg.bfQLimMode (n * 8 + q)) = 1 && eligibleQueue n q s) then
      let v := spGet 0 s.bf.visits n
      dwrrPick n 400 (v - 1) (decide (v ≠ 0)) s
    else (none, s)

/-- The packet cells of a frame are read (R493, R619). -/
def poolRead (f : Frame) (s : State) : State :=
  if s.mp.errs = [] then s
  else f.cells.foldl (fun s x => (List.range 4).foldl (fun s j => (mpRead (mpWord 0 (4 * x + j)) false s).2) s) s

/-- The egress of a queued frame that begins (R486, R487, R592): it leaves its queue, counts, and takes tokens. `pred` is its predicted
stamp. A frame with a poisoned cell is discarded instead (R493); `fuel` bounds those. -/
def beginQueued (n : Nat) (pred : Nat × Bool) : Nat → State → State
  | 0, s => s
  | fuel + 1, s =>
    let pk := pickQueue n s
    match pk.1 with
    | none => pk.2
    | some q =>
      let k := n * 8 + q
      let s := pk.2
      match (s.bq k).copies with
      | [] => s
      | c :: _ =>
        match s.poolFrame c.frame with
        | none => beginQueued n pred fuel (removeCopy k c s)
        | some f =>
          let s := poolRead f s
          let f := (s.poolFrame c.frame).getD f
          if f.broken then beginQueued n pred fuel (discardCopy k 38 c s)
          else
            let t : TxFrame := ⟨0, c, q, 0, f, 0, pred.1, carriesStamp f c n s, s.dtt, [], pred.2, s.qc s.served⟩
            let s := count (queueCtr 0 k 2) 1 (removeCopy k c s)
            let s := takeTokens (n * 9 + 8) f.data.length (takeTokens (n * 9 + q) f.data.length s)
            s.setTx n (some t)

/-- A pick at egress `n` (R486, R499): nothing while a frame is in transmission, frames are held back or the partner sends remote fault (R208); the merge output
first. -/
def pick (n : Nat) (pred : Nat × Bool) (s : State) : State :=
  if (spGet none s.sw.tx n).isSome || !released n s || (decide (n < 48) && ((s.lane n).held || (s.lane n).remoteFault)) then s
  else
    match mergeOf n s with
    | none => beginQueued n pred 4096 s
    | some g =>
      let r := fmUnpoisoned 4096 g s
      match r.1 with
      | none => beginQueued n pred 4096 r.2
      | some h =>
        if !fitsBefore n (h.frame.data.length + 36) r.2 then r.2
        else
          let b := fmBegin g h pred r.2
          let len := if b.1.kind = 3 then b.1.frame.data.length else b.1.extra.length
          takeTokens (n * 9 + 8) len (showMerge g (b.2.setTx n (some b.1)))

/-- Whether measurement `m` is one of port `n`'s lanes; other egresses take none. -/
def measures (n : Nat) (m : EdgeMeas) (s : State) : Bool := decide (48 ≤ n) || (portLanes n s).contains m.lane

/-- The predicted stamp of a frame that begins at an egress with measurement `m`, and whether it is invalid (R182). -/
def predicted (n : Nat) (m : EdgeMeas) (s : State) : Nat × Bool :=
  if n < 48 then (txPredict n m s, decide (txCause n s ≠ 0)) else (s.now80, !s.innerLocked)

/-- The measured stamp of a frame that leaves an egress (R183). -/
def measured (n : Nat) (m : EdgeMeas) (s : State) : Nat := if n < 48 then txStamp n m s else s.now80

/-- EGRESS_PICK: the scheduler of an egress picks (R486); `m` is the measurement its predicted stamp rests on (R182). -/
def execEgressPick (egress : Nat) (m : EdgeMeas) (s : State) : Out :=
  if egress < 52 ∧ (48 ≤ egress ∨ s.mode egress ≠ 0) ∧ measures egress m s = true then .next (pick egress (predicted egress m s) s) else .next s

/-- MERGE_DUE: a held merge frame is due (R506): the merge output picks, or with its egress down discards what is ready (R515). -/
def execMergeDue (g : Nat) (m : EdgeMeas) (s : State) : Out :=
  if 16 ≤ g ∨ fmState g s = 0 then .next s
  else
    let e := fmEgress g s
    if released e s then .next (if measures e m s then pick e (predicted e m s) s else s)
    else .next (fmDown 65536 g s)

/-- The measured egress stamp against the predicted one: a difference above 16 ps counts and raises PTS_PRED_ERR, in 2⁻¹⁶ ns (R183, R202). -/
def predCheck (n e pred : Nat) (s : State) : State :=
  let d : Int := (e : Int) - pred
  if 8192 < d.natAbs * 10 then
    raiseEv n 1 0x0883 [(20, leI 8 (d * 128 / 100))] (s.addSat (Reg.ptsPredErr n) 1)
  else s

/-- Delivery of a frame to its net ring (R419, R420): head entry with metadata and 192 bytes, then 256 bytes an entry. -/
def deliverHost (f : Frame) (c : Copy) (queue : Nat) (data : Bytes) (s : State) : State :=
  let rest := data.drop 192
  let conts := (List.range ((rest.length + 255) / 256)).map (fun k => slice rest (256 * k) 256)
  let i := { capItem 1 f.src f data false false 0 f.inBad queue 0xFF s with kind := 3, sel := 0x10 + c.reason }
  capWrite c.ring 192 conts none i s

/-- A port's stamp, FIFO, capture and latency work at the end of a frame (R183, R189, R190, R550, R602). -/
def txRecords (n : Nat) (t : TxFrame) (f : Frame) (data : Bytes) (e : Nat) (inv stomped : Bool) (s : State) : State :=
  if 48 ≤ n then s
  else
    let s := predCheck n e t.pred s
    let ask := f.hostTag.isSome
    let s := if selected (s.getF (Reg.ptsCfgTxSel n)) (isEvent data (parse data)) f.mark ask then
        fifoPut (2 * n + 1) (stampItem e t.qc data (f.hostTag.getD 0) inv t.predMark false stomped) s
      else s
    let s := captureFrame (capItem 2 n f data stomped false e inv t.queue n s) s
    if stomped || t.kind = 3 then s else latencySample n f.src e f.tIn false (inv || f.inBad) s

/-- A frame in transmission in which a poisoned cell is found ends as in R415 (R493, R619). How many of its bytes have left by then the manual leaves open: those
before the first of its cells that is quarantined (log entry 261). -/
def poisonEnd (out : List Nat) (f : Frame) (d : Bytes) : Bytes := stompBytes (d.take (256 * f.cells.findIdx (fun c => out.contains c)))

/-- The bytes of a queued copy at its end, and whether it is stomped (R415, R493). -/
def queuedBytes (n : Nat) (t : TxFrame) (f : Frame) (s : State) : Bytes × Bool :=
  if f.broken then (poisonEnd s.mp.quarChip f (editedBytes f t.copy n t.pred s), true)
  else if t.copy.ct && f.bad then
    let mx := min (s.swPort f.src).maxFrame (s.swPort n).maxFrame
    let d := if mx < f.data.length then f.data.take mx else f.data
    (stompBytes (editedBytes { f with data := d } t.copy n t.pred s), true)
  else (copyBytes f t.copy n t.pred s, false)

/-- Transmit counts (R591, R592): a stomped frame counts TX_STOMPED alone. -/
def countTx (n len : Nat) (stomped : Bool) (s : State) : State :=
  if stomped then count (srcCtr n 34) 1 s else count (srcCtr n 33) len (count (srcCtr n 32) 1 s)

/-- FRAME_TX_DONE: the last bit of a frame leaves an egress (R592); `m` is the measurement of its egress stamp (R183), whose validity and QC are those at the
stamp, when the frame began (R19, R29, R190). -/
def execFrameTxDone (egress : Nat) (m : EdgeMeas) (s : State) : Out :=
  match spGet none s.sw.tx egress with
  | none => .next s
  | some t =>
    if !measures egress m s then .next s
    else
    let p := (measured egress m s, t.inv)
    if t.kind = 0 then
      match s.poolFrame t.copy.frame with
      | none => .next (s.setTx egress none)
      | some f =>
        if !f.whole then .next s
        else
          let k := egress * 8 + t.queue
          let s := poolRead f s
          let f := (s.poolFrame t.copy.frame).getD f
          let b := queuedBytes egress t f s
          let s := { s with sw := { s.sw with sent := spSet [] s.sw.sent egress b.1 } }
          let s := injectSent egress s
          let s := endCopy k t.copy (countTx egress b.1.length b.2 (s.setTx egress none))
          let s := txRecords egress t f b.1 p.1 p.2 b.2 s
          if egress = 48 then .next (deliverHost f t.copy t.queue b.1 s)
          else if egress = 51 then
            .next (enterWhole 51 { f with data := b.1, recirc := true, cells := [], shared := 0, copies := 0, bad := false } s).2
          else .next s
    else
      let s := holdRead t.frame s
      let t := (spGet none s.sw.tx egress).getD t
      let lost := t.frame.broken || t.frame.holdBad
      let d := if t.kind = 3 then t.frame.data else if lost then poisonEnd s.mp.quarHold t.frame (noFcs t.extra) else t.extra
      let s := injectSent egress { s with sw := { s.sw with sent := spSet [] s.sw.sent egress d } }
      let s := txRecords egress t t.frame d p.1 p.2 lost (countTx egress d.length lost (s.setTx egress none))
      if t.kind = 1 then .next (if lost then showMerge t.group s else fmSent t.group t.frame s)
      else if t.kind = 2 then .next (erSent t.group egress t.seq p.2 (!lost) s)
      else .next s

/-! ### The host transmit ring -/

/-- A descriptor is done: STATUS is written, the head moves, a failure raises SW_HTX_ERR (R417, R418, R431). -/
def htxDone (code : Nat) (s : State) : State :=
  let h := s.getF Reg.swHtxHeadIndex
  let s := s.dma (s.get64 Reg.swHtxBase + h * 16 + 15) (le 1 (1 + 2 * code))
  let s := s.setF Reg.swHtxHeadIndex ((h + 1) % 2 ^ s.getF Reg.swHtxCfgLog2sz)
  if code = 0 then s else raiseEv 48 1 0x0904 [(21, le 1 code), (22, le 2 h)] s

/-- HOST_TX_DESCRIPTOR: the descriptor at the head is taken (R417, R418): `desc` its 16 bytes, `data` the bytes at its address, where
they are `readable`. -/
def execHostTxDescriptor (desc data : Bytes) (readable : Bool) (s : State) : Out :=
  if !s.isF Reg.swHtxCfgEn || s.isF Reg.swHtxCfgCfgErr || s.getF Reg.swHtxHeadIndex = s.getF Reg.swHtxTailIndex then .next s
  else
    let len := ofLe (slice desc 8 2)
    let tag := ofLe (slice desc 10 2)
    let fl := ofLe (slice desc 12 1)
    let q := ofLe (slice desc 13 1)
    let eg := ofLe (slice desc 14 1)
    let direct := bit fl 1
    let mx := (s.swPort (if direct then eg else 48)).maxFrame
    if len = 0 then .next (htxDone 1 s)
    else if 4 ≤ fl ∨ 8 ≤ q ∨ ofLe (slice desc 15 1) ≠ 0 ∨ (direct = true ∧ (48 ≤ eg ∨ inGroup eg s = true)) ∨ (direct = false ∧ eg ≠ 0xFF) then
      .next (htxDone 5 s)
    else if mx - 4 < len then .next (htxDone 2 s)
    else if !readable then .next (htxDone 3 s)
    else
      let d := slice data 0 len ++ List.replicate (60 - len) 0
      let d := d ++ fcsOf d
      let f := { mkFrame 48 d s.now80 (!s.innerLocked) s with hostTag := if bit fl 0 then some tag else none, whole := true }
      if direct then
        let pl : Plan := ⟨[⟨eg, q, { Copy.none with direct := true }⟩], none, none, none⟩
        let a := admitFrame f pl d.length (countRx 48 d s)
        .next (htxDone (if a.1.isSome then 0 else 4) a.2)
      else if !s.isF (Reg.swPortStatusL23Rx 48) then .next (htxDone 4 s)
      else
        let a := enterWhole 48 f s
        .next (htxDone (if a.1 then 0 else 4) a.2)

/-! ### Direct path -/

/-- SW_DP_SLIP: the fill of a TRANSPARENT connection has reached 1 or 7 words and is restored by repeating or deleting 3 (R425). -/
def execSwDpSlip (lane : Nat) (repeated : Bool) (s : State) : Out :=
  if lane < 48 ∧ s.isF (Reg.swDpStatusConn lane) = true ∧ s.getF (Reg.swDpStatusMode lane) = 1 then
    let s := (s.addSat (Reg.swDpStatusSlips lane) 1).setF (Reg.swDpStatusFill lane) 4
    let s := match spGet none s.sw.rx lane with
      | some r => if r.dp then s.setRx lane (some { r with slipped := true }) else s
      | none => s
    .next (raiseEv lane 1 0x0901 [(20, le 1 lane), (21, leI 1 (if repeated then 3 else -3))] s)
  else .next s

/-! ### Commands -/

def swPortForwardSpec : CmdSpec :=
  { opcode := 0x0901, lenOk := lenIs 40
    args := fun c s => firstBad
      ([(0, decide (48 < cu c 0 1) || (decide (cu c 0 1 < 48) && inGroup (cu c 0 1) s)), reservedAbove c 1 6,
        (2, decide (cu c 2 2 < 64 ∨ 9216 < cu c 2 2)), (4, cu c 4 2 % 4096 = 0 || cu c 4 2 % 4096 = 4095 || bit (cu c 4 2) 15),
        (6, decide (2 < cu c 6 1)), reservedAbove c 7 2] ++ reserved c 14 2 ++ reserved c 36 4)
    stops := fun c s =>
      let p := cu c 0 1
      firstStop [(decide (p < 48) && ((cbit c 1 0 && s.isF (Reg.swPortStatusDpRx p)) || (cbit c 1 1 && s.isF (Reg.swPortStatusDpTx p))),
        stRefused, 0x0905)] }

/-- A group's table is served without port `p` while it is not released, with SW_LAG_FAILOVER at each change (R408); what it is served without is kept as
group × 64 + port. -/
def lagFollow (p : Nat) (s : State) : State :=
  match lagOf p s with
  | none => s
  | some g =>
    let k := g * 64 + p
    let was := s.sw.lagOut.contains k
    let out := !released p s
    if was = out then s
    else
      let s := { s with sw := { s.sw with lagOut := if out then k :: s.sw.lagOut else s.sw.lagOut.erase k } }
      raiseEv p 0 0x0902 [(20, le 1 g), (21, le 1 p), (22, le 1 (b2n out))] s

/-- Everything that follows the release of port `p` to forwarding: EG_DOWN of merge groups that leave by it (R515), and its link aggregation group (R408). -/
def egressFollow (p : Nat) (s : State) : State :=
  (List.range 16).foldl (fun s g => if fmSet g s && fmEgress g s = p then showMerge g s else s) (lagFollow p s)

/-- A pipeline half without a layer-2/3 port is clock-gated (R34). -/
def halfSleeps (h : Nat) (s : State) : State :=
  if (List.range 24).any (fun k => s.isF (Reg.swPortStatusL23Rx (k + 24 * (h - 48))) || s.isF (Reg.swPortStatusL23Tx (k + 24 * (h - 48)))) then s
  else { s with islands := s.islands.filter (fun k => k ≠ h) }

/-- SW_PORT_FORWARD once its pipeline half is awake (R36, R398, R405); a half left without a port sleeps (R34). -/
def swPortForwardDo (c : Cmd) (s : State) : State × Reply :=
  let p := cu c 0 1
  let s := ((s.setB (Reg.swPortStatusL23Rx p) (cbit c 1 0)).setB (Reg.swPortStatusL23Tx p) (cbit c 1 1)).setB (Reg.swPortStatusCt p) (cbit c 1 2)
  let s := (s.setB (Reg.swPortStatusPtpTrap p) (cbit c 1 3)).setB (Reg.swPortStatusL3 p) (cbit c 1 4)
  let s := (s.setF (Reg.swPortStatusPvid p) (cu c 4 2 % 4096)).setF (Reg.swPortStatusAccept p) (cu c 6 1)
  let w := s.swPort p
  let w := { w with maxFrame := cu c 2 2, pcp := cu c 4 2 / 4096 % 8, filter := cbit c 7 0, sTag := cbit c 7 1 }
  let w := if cbit c 1 5 then { w with mac := ofBe (slice c.payload 8 6), ipv4 := ofBe (slice c.payload 16 4), ipv6 := ofBe (slice c.payload 20 16) } else w
  let s := { s with sw := { s.sw with ports := spSet ⟨1522, 0, false, false, 0, 0, 0⟩ s.sw.ports p w } }
  (egressFollow p (if p < 48 then halfSleeps (halfOf p) s else s), okReply)

/-- SW_PORT_FORWARD: enabling the first port of a gated half waits for the half (R35, R36). -/
def swPortForwardEffect (c : Cmd) (s : State) : State × Option Reply :=
  let p := cu c 0 1
  if p < 48 ∧ cu c 1 1 % 4 ≠ 0 ∧ s.awake (halfOf p) = false then (s, none)
  else let r := swPortForwardDo c s; (r.1, some r.2)

/-- SW_PORT_FORWARD (R398, R432). -/
def execSwPortForward (c : Cmd) (s : State) : Out := runHeld swPortForwardSpec swPortForwardEffect c s

def swSetVlanSpec : CmdSpec :=
  let srcs : Nat := 2 ^ 49 - 1 + 2 ^ 50
  { opcode := 0x0902, lenOk := lenIs 28
    args := fun c _ =>
      let m := cu c 4 7
      let u := cu c 12 7
      firstBad ([(0, cu c 0 2 = 0 || decide (4094 < cu c 0 2)), reservedAbove c 2 5, (4, decide ((m &&& srcs) ≠ m)),
        (12, decide ((u &&& m) ≠ u)), (20, !cbit c 2 1 && cu c 20 6 ≠ 0)] ++
        reserved c 3 1 ++ reserved c 11 1 ++ reserved c 19 1 ++ reserved c 26 2) }

/-- SW_SET_VLAN: a VLAN's flags, members, untagged set and router MAC; one without VALID is as one never set (R405, R406). -/
def swSetVlanEffect (c : Cmd) (s : State) : State × Reply :=
  let v : Vlan := if cbit c 2 0 then ⟨cu c 2 1, cu c 4 7, cu c 12 7, ofBe (slice c.payload 20 6)⟩ else ⟨0, 0, 0, 0⟩
  ({ s with sw := { s.sw with vlans := spSet ⟨0, 0, 0, 0⟩ s.sw.vlans (cu c 0 2) v } }, okReply)

/-- SW_SET_VLAN (R405, R432). -/
def execSwSetVlan (c : Cmd) (s : State) : Out := runCmd swSetVlanSpec swSetVlanEffect c s

def swSetLagSpec : CmdSpec :=
  { opcode := 0x0903, lenOk := lenIs 80
    args := fun c s =>
      let m := cu c 4 6
      let on := cbit c 1 0
      firstBad ([(0, decide (23 < cu c 0 1)), reservedAbove c 1 1, (2, decide (1024 ≤ cu c 2 2)),
        (4, on && (m = 0 || decide (16 < popCount m 48) || anyInGroup m s))] ++ reserved c 10 6 ++
        (List.range 64).map (fun e => (16 + e, on && (decide (47 < cu c (16 + e) 1) || !bit m (cu c (16 + e) 1)))))
    stops := fun c s =>
      let ps := members (cu c 4 6) 48
      let g := cu c 0 1
      firstStop [(cbit c 1 0 && (ps.any (fun p => s.mode p ≠ s.mode (ps.headD 0) || inDirect p s) ||
        ps.any (fun p => match lagOf p s with | some o => o ≠ g | none => false)), stRefused, 0x0906)] }

/-- SW_SET_LAG: a group is made, changed or dissolved (R407). -/
def swSetLagEffect (c : Cmd) (s : State) : State × Reply :=
  let g := cu c 0 1
  let old := ((s.lag g).map (·.members)).getD 0
  let l : Option Lag := if cbit c 1 0 then some ⟨cu c 2 2, cu c 4 6, (List.range 64).map (fun e => cu c (16 + e) 1)⟩ else none
  let s := { s with sw := { s.sw with lags := spSet none s.sw.lags g l } }
  let outs := ((members ((l.map (·.members)).getD 0) 48).filter (fun p => !released p s)).map (· + g * 64)
  let s := { s with sw := { s.sw with lagOut := outs ++ s.sw.lagOut.filter (fun k => k / 64 ≠ g) } }
  let s := (members old 48).foldl (fun s p => s.setB (Reg.swPortStatusLag p) false) s
  let s := (members ((l.map (·.members)).getD 0) 48).foldl (fun s p => s.setB (Reg.swPortStatusLag p) true) s
  (s, okReply)

/-- SW_SET_LAG (R407, R432). -/
def execSwSetLag (c : Cmd) (s : State) : Out := runCmd swSetLagSpec swSetLagEffect c s

def swRuleWriteSpec : CmdSpec :=
  { opcode := 0x0904, lenOk := lenIs 96
    args := fun c s =>
      let a := cu c 88 1
      let redir : Bool := a % 8 = 4
      let t := cu c 89 1
      firstBad ([(0, decide (8191 < cu c 0 2)), reservedAbove c 2 1, (88, decide (5 < a % 8) || bit a 7),
        (89, if redir then !(decide (t < 48) || (decide (64 ≤ t) && (s.lag (t - 64)).isSome)) else decide (t ≠ 0)), reservedAbove c 90 3,
        reservedAbove c 91 6, reservedAbove c 92 3] ++ reserved c 3 5 ++ reserved c 94 2) }

/-- SW_RULE_WRITE: one rule, its words written whole (R404, R615). -/
def swRuleWriteEffect (c : Cmd) (s : State) : State × Reply :=
  let i := cu c 0 2
  let r : Option Rule := if cbit c 2 0 then
      some ⟨slice c.payload 8 40, slice c.payload 48 40, cu c 88 1, cu c 89 1, cu c 90 1, cu c 91 1, cu c 92 1, cu c 93 1⟩
    else none
  let s := { s with sw := { s.sw with rules := spSet none s.sw.rules i r } }
  ((List.range 11).foldl (fun s k => mpWrite (mpWord 7 (i * 11 + k)) s) s, okReply)

/-- SW_RULE_WRITE (R404, R432). -/
def execSwRuleWrite (c : Cmd) (s : State) : Out := runCmd swRuleWriteSpec swRuleWriteEffect c s

/-- Whether an enabled session stands on a port (R241, R423). -/
def sessionOn (p : Nat) (s : State) : Bool := s.tt.sessions.any (fun e => ttState e.1 s ≠ 0 && e.2.port = p)

/-- Whether GD_PORT_EN0 or GD_PORT_EN1 enables port `p` (R674). -/
def portEnabled (p : Nat) (s : State) : Bool :=
  if p < 32 then bit (s.getF Reg.gdPortEn0A) p else bit (s.getF Reg.gdPortEn1A) (p - 32)

/-- An enable beyond the port enable bound is discarded with a guard violation of reason BOUND that names the port, 48 for the twin link
(R31, R674, R679). -/
def portDenied (p : Nat) (s : State) : State :=
  guardViolation (if p < 32 then Reg.gdPortEn0A.addr else Reg.gdPortEn1A.addr) .core0 .bound 0 p 0 p s

def swDirectConnectSpec : CmdSpec :=
  { opcode := 0x0905, lenOk := lenIs 112
    args := fun c _ =>
      let o := cu c 4 6
      firstBad ([(0, decide (47 < cu c 0 1)), (1, decide (1 < cu c 1 1)), (4, o = 0)] ++ reserved c 2 2 ++ reserved c 10 6 ++
        (List.range 48).map (fun b => (16 + 2 * b, decide (20000 < cu c (16 + 2 * b) 2) || (!bit o b && cu c (16 + 2 * b) 2 ≠ 0))))
    stops := fun c s =>
      let i := cu c 0 1
      let os := members (cu c 4 6) 48
      let mode := s.mode i
      firstStop
        [(os.any (fun b => (List.range 48).any (fun k => k ≠ i && s.isF (Reg.swDpStatusConn k) && bit (dpOutputs k s) b)), stRefused, 0x0901),
         (s.isF (Reg.swPortStatusL23Rx i) || os.any (fun b => s.isF (Reg.swPortStatusL23Tx b)), stRefused, 0x0902),
         ((i :: os).any (fun p => sessionOn p s), stRefused, 0x0303),
         (mode = 0 || os.any (fun b => s.mode b ≠ mode || s.fec b ≠ s.fec i) || (i :: os).any (fun p => inGroup p s) ||
            (cu c 1 1 = 0 && (mode = 4 || (mode = 3 && s.fec i ≠ 0))), stRefused, 0x0904)] }

/-- The host trim of a lane is set to `n` steps; a word part that differs restarts the transmitter (R219 to R221, R426). -/
def setHostTrim (p n : Nat) (s : State) : Bool × State :=
  let w := n / wordSteps (s.mode p)
  let restart := decide (w ≠ s.getF (Reg.sdsTrimWords p)) && s.isF (Reg.sdsStatusTxOn p)
  let s := (s.setLane p { s.lane p with hostSteps := n }).setF (Reg.sdsTrimWords p) w
  let s := retarget p s
  (restart, showAlign p (if restart then requestRestart p s else s))

/-- Outputs that a connection loses (R427). -/
def dpRelease (outs : List Nat) (s : State) : State := outs.foldl (fun s b => s.setB (Reg.swPortStatusDpTx b) false) s

/-- SW_DIRECT_CONNECT: the connection is made or its outputs replaced; kept outputs are not touched but for their trim (R423 to R427).
The instant at which the last output begins to carry the input is open within the gap it waits for. -/
def directConnect (c : Cmd) (s : State) : State × Reply :=
  let i := cu c 0 1
  let o := cu c 4 6
  let was := s.isF (Reg.swDpStatusConn i)
  let s := dpRelease ((members (dpOutputs i s) 48).filter (fun b => !bit o b)) s
  let s := ((s.setB (Reg.swDpStatusConn i) true).setF (Reg.swDpStatusMode i) (cu c 1 1)).setB (Reg.swDpStatusInLock i)
    (s.isF (Reg.sdsStatusRxLock i))
  let s := if was then s else (s.setF (Reg.swDpStatusSlips i) 0).setF (Reg.swDpStatusFill i) (if cu c 1 1 = 1 then 4 else 1)
  let s := (s.setF (Reg.swDpOut0 i) o).setF (Reg.swDpOut1 i) (o / 2 ^ 32)
  let s := (members o 48).foldl (fun s b => (setHostTrim b (trimSteps (s.mode b) (cu c (16 + 2 * b) 2)) (s.setB (Reg.swPortStatusDpTx b) true)).2)
    (s.setB (Reg.swPortStatusDpRx i) true)
  let d := s.draw
  (d.2, okWith [(32, le 8 (s.dtt + d.1 % 39063))])

/-- The effect of SW_DIRECT_CONNECT: nothing is connected where the port enable bound stops an output (R432, R674). -/
def swDirectConnectEffect (c : Cmd) (s : State) : State × Reply :=
  match (members (cu c 4 6) 48).find? (fun b => !portEnabled b s) with
  | some b => (portDenied b s, failWith stLocked 0)
  | none => directConnect c s

/-- SW_DIRECT_CONNECT (R423, R432). -/
def execSwDirectConnect (c : Cmd) (s : State) : Out := runCmd swDirectConnectSpec swDirectConnectEffect c s

def swDirectDisconnectSpec : CmdSpec :=
  { opcode := 0x0906, lenOk := lenIs 4, args := fun c _ => firstBad ([(0, decide (47 < cu c 0 1))] ++ reserved c 1 3)
    stops := fun c s => firstStop [(!s.isF (Reg.swDpStatusConn (cu c 0 1)), stNotFound, 0)] }

/-- SW_DIRECT_DISCONNECT: the outputs go back to idle line code (R427). -/
def swDirectDisconnectEffect (c : Cmd) (s : State) : State × Reply :=
  let i := cu c 0 1
  let s := dpRelease (members (dpOutputs i s) 48) s
  let s := (s.setB (Reg.swDpStatusConn i) false).setB (Reg.swDpStatusInLock i) false
  let s := ((s.setF (Reg.swDpOut0 i) 0).setF (Reg.swDpOut1 i) 0).setF (Reg.swDpStatusFill i) 0
  (s.setB (Reg.swPortStatusDpRx i) false, okReply)

/-- SW_DIRECT_DISCONNECT (R427, R432). -/
def execSwDirectDisconnect (c : Cmd) (s : State) : Out := runCmd swDirectDisconnectSpec swDirectDisconnectEffect c s

end Sys2Proof.Machine
end

