-- ==== Sys2Proof/Machine/Buffers.lean ====
section
/-! DEFINITION. Buffers: the commands of group 0x0B (R480 to R496) and the spill engine (R481 to R483). -/

set_option Elab.async false

namespace Sys2Proof.Machine

/-! ### Pool, queues, shapers, replication -/

def bfSetPoolSpec : CmdSpec :=
  { opcode := 0x0B01, lenOk := lenIs 8
    args := fun c _ => firstBad ([(0, decide (262144 < cu c 0 4)), reservedAbove c 4 1] ++ reserved c 5 3) }

/-- BF_SET_POOL: FREE_WARN and ECN_EN; BF_POOL_LOW is armed again and raised where F lies below already (R495). -/
def bfSetPoolEffect (c : Cmd) (s : State) : State × Reply :=
  let s := s.setB Reg.bfPoolResEcnEn (cbit c 4 0)
  (syncPool { s with bf := { s.bf with freeWarn := cu c 0 4, lowArmed := true } }, okReply)

/-- BF_SET_POOL (R495, R496). -/
def execBfSetPool (c : Cmd) (s : State) : Out := runCmd bfSetPoolSpec bfSetPoolEffect c s

/-- Whether source `n` has the one queue Q0 (R475). -/
def singleQueue (n : Nat) : Bool := n = 49 || n = 51

/-- MIN_SUM with queue `k`'s minimum at `v`. -/
def minSumWith (k v : Nat) (s : State) : Nat := s.getF Reg.bfPoolResMinSum - s.getF (Reg.bfQCfgMin k) + v

def bfSetQueueSpec : CmdSpec :=
  { opcode := 0x0B02, lenOk := lenIs 20
    args := fun c _ =>
      let one := singleQueue (cu c 0 1)
      firstBad ([(0, decide (51 < cu c 0 1)), (1, decide (7 < cu c 1 1) || (one && cu c 1 1 ≠ 0)), (2, decide (1 < cu c 2 1)),
        (3, cu c 3 1 = 0), (4, decide (10 < cu c 4 1)), (5, one && cu c 5 1 ≠ 0), (6, decide (4095 < cu c 6 2)),
        (8, decide (262143 < cu c 8 4)), (12, decide (16777215 < cu c 12 4))] ++ reserved c 18 2)
    stops := fun c s => firstStop [(decide (65536 < minSumWith (cu c 0 1 * 8 + cu c 1 1) (cu c 6 2) s), stRefused, 0x0B01)] }

/-- A PCP that queue `k` takes leaves the other queues of its source (R476). -/
def takePcps (n q mask : Nat) (s : State) : State :=
  (List.range 8).foldl (fun s j =>
    if j = q then s.setF (Reg.bfQCfgPcpMask (n * 8 + j)) mask
    else s.setF (Reg.bfQCfgPcpMask (n * 8 + j))
      (maskOf ((members (s.getF (Reg.bfQCfgPcpMask (n * 8 + j))) 8).filter (fun b => !bit mask b)))) s

/-- BF_SET_QUEUE: a queue's mode, weight, PCP set and limits (R476, R480, R484, R488). -/
def bfSetQueueEffect (c : Cmd) (s : State) : State × Reply :=
  let n := cu c 0 1
  let q := cu c 1 1
  let k := n * 8 + q
  let s := s.setF Reg.bfPoolResMinSum (minSumWith k (cu c 6 2) s)
  let s := (((s.setF (Reg.bfQLimMode k) (cu c 2 1)).setF (Reg.bfQCfgWeight k) (cu c 3 1)).setF (Reg.bfQCfgAlpha k) (cu c 4 1)).setF
    (Reg.bfQCfgMin k) (cu c 6 2)
  let s := if singleQueue n then s else takePcps n q (cu c 5 1) s
  let s := ((s.setF (Reg.bfQLimMax k) (cu c 8 4)).setF (Reg.bfQEcnEcnAt k) (cu c 12 4)).setF (Reg.bfQSpillSpillMax k) (cu c 16 2)
  (syncPool (showMark k s), okReply)

/-- BF_SET_QUEUE (R480, R496). -/
def execBfSetQueue (c : Cmd) (s : State) : Out := runCmd bfSetQueueSpec bfSetQueueEffect c s

def bfSetShaperSpec : CmdSpec :=
  { opcode := 0x0B03, lenOk := lenIs 12
    args := fun c _ => firstBad ([(0, decide (50 < cu c 0 1) || cu c 0 1 = 49), (1, decide (8 < cu c 1 1)),
      (4, decide (100000 < cu c 4 4)), (8, (cu c 4 4 ≠ 0 && decide (cu c 8 4 < 1600)) || decide (16777215 < cu c 8 4))] ++ reserved c 2 2) }

/-- BF_SET_SHAPER: the new shaper starts with BURST tokens (R487, R488). -/
def bfSetShaperEffect (c : Cmd) (s : State) : State × Reply :=
  let k := cu c 0 1 * 9 + cu c 1 1
  let s := (s.setF (Reg.bfShpRate k) (cu c 4 4)).setF (Reg.bfShpBurst k) (cu c 8 4)
  ({ s with bf := { s.bf with
      shapers := spSet none s.bf.shapers k (if cu c 4 4 = 0 then none else some ((cu c 8 4 : Int) * 100000, s.dtt)) } }, okReply)

/-- BF_SET_SHAPER (R487, R496). -/
def execBfSetShaper (c : Cmd) (s : State) : Out := runCmd bfSetShaperSpec bfSetShaperEffect c s

/-- Member entries the replication groups hold (R489). -/
def memberEntries (s : State) : Nat := (s.bf.groups.map (fun e => e.2.length)).sum

/-- Whether a member's INDEX is not valid for its TYPE, at its payload offset (R496). -/
def badMember (c : Cmd) (m : Nat) (s : State) : List (Nat × Bool) :=
  let o := 8 + 4 * m
  let t := cu c o 1
  let i := cu c (o + 1) 1
  [(o, decide (3 < t)),
   (o + 1, (t = 0 && decide (47 < i)) || (t = 1 && (decide (23 < i) || (s.lag i).isNone)) || ((t = 2 || t = 3) && i ≠ 0)),
   (o + 2, bits (cu c (o + 2) 2) 14 12 ≠ 0)]

def bfMcastGroupSpec : CmdSpec :=
  { opcode := 0x0B05, lenOk := fun n => decide (8 ≤ n), lenBy := fun c => c.len = 8 + 4 * cu c 2 1
    args := fun c s => firstBad ([(0, decide (8191 < cu c 0 2)), (2, decide (64 < cu c 2 1))] ++ reserved c 3 5 ++
      ((List.range (cu c 2 1)).map (fun m => badMember c m s)).flatten)
    stops := fun c s => firstStop [(decide (65536 < memberEntries s - (spGet [] s.bf.groups (cu c 0 2)).length + cu c 2 1), stTableFull, 0)] }

/-- BF_MCAST_GROUP: a group's member list (R489). -/
def bfMcastGroupEffect (c : Cmd) (s : State) : State × Reply :=
  let l := (List.range (cu c 2 1)).map (fun m =>
    let v := cu c (10 + 4 * m) 2
    (⟨cu c (8 + 4 * m) 1, cu c (9 + 4 * m) 1, v % 4096, bit v 15⟩ : Member))
  let s := { s with bf := { s.bf with groups := spSet [] s.bf.groups (cu c 0 2) l } }
  (s, okWith [(32, le 4 (65536 - memberEntries s))])

/-- BF_MCAST_GROUP (R489, R496). -/
def execBfMcastGroup (c : Cmd) (s : State) : Out := runCmd bfMcastGroupSpec bfMcastGroupEffect c s

/-! ### Spill -/

/-- BF_SPILL_STATUS shows the rates of the last millisecond in Gbit/s: 2,048 bits a cell. -/
def showSpill (s : State) : State :=
  let l := s.bf.moved.filter (fun m => decide (s.dtt < m.1 + 781250))
  let s := { s with bf := { s.bf with moved := l } }
  let rate (rd : Bool) : Nat := sat 1023 (((l.filter (fun m => m.2.1 = rd)).map (·.2.2)).sum * 2048 / 1000000)
  (s.setF Reg.bfSpillStatusWr (rate false)).setF Reg.bfSpillStatusRd (rate true)

/-- Whether a frame is spilled: a copy waits in staging or in DDR5. -/
def anySpilled (s : State) : Bool := s.bf.queues.any (fun q => q.2.copies.any (fun c => c.place ≠ 0))

/-- BF_SPILL_STATE is raised. -/
def spillEvent (state : Nat) (s : State) : State :=
  raiseEv 113 0 0x0B02 [(20, le 1 (s.getF Reg.bfSpillStatusChEn)), (21, le 1 state)] s

/-- DDR5 cells of the channels of a set, less those retired. -/
def spillCells (chs : Nat) (s : State) : Nat :=
  popCount chs 2 * Config.ddrCells.val - s.getF Reg.bfRetired

/-- The spill engine runs on channels `chs` (R473, R483, R495). -/
def spillOn (chs : Nat) (s : State) : State :=
  if s.getF Reg.bfSpillStatusChEn = chs ∧ s.isF Reg.bfSpillStatusDraining = false then s
  else
    let s := (s.setF Reg.bfSpillStatusChEn chs).setB Reg.bfSpillStatusDraining false
    let s := { s with islands := s.islands.filter (fun k => !((k = 50 && !bit chs 0) || (k = 51 && !bit chs 1))) }
    let s := (s.setB Reg.bfPoolResStage true).set64 Reg.bfSpillCap (spillCells chs s)
    spillEvent 1 (syncPool s)

/-- The channels sleep and the staging part returns (R483). -/
def spillOff (s : State) : State :=
  if s.getF Reg.bfSpillStatusChEn = 0 then s
  else
    let s := (s.setF Reg.bfSpillStatusChEn 0).setB Reg.bfSpillStatusDraining false
    let s := { s with islands := s.islands.filter (fun k => k ≠ 50 ∧ k ≠ 51) }
    let s := ((s.setB Reg.bfPoolResStage false).setB Reg.bfSpillStatusStageFull false).set64 Reg.bfSpillCap 0
    spillEvent 0 (syncPool s)

/-- Every spilled copy is discarded and counted FLUSH_DROP; how many there were (R483). -/
def spillFlush (s : State) : Nat × State :=
  s.bf.queues.foldl (fun a q =>
    (q.2.copies.filter (fun c => c.place ≠ 0)).foldl (fun a c => (a.1 + 1, discardCopy q.1 37 c a.2)) a) (0, s)

/-- RESULT of BF_SPILL_ENABLE: the DDR5 cells available and the frames discarded. -/
def spillReply (flushed : Nat) (s : State) : Reply :=
  okWith [(32, le 8 (s.get64 Reg.bfSpillCap - s.get64 Reg.bfSpillUsed)), (40, le 4 flushed)]

/-- BF_SPILL_ENABLE's checks; a channel that the start did not offer answers ST_INTERNAL (R700). -/
def bfSpillEnableSpec : CmdSpec :=
  { opcode := 0x0B04, stepped := true, lenOk := lenIs 4
    args := fun c _ => firstBad ([reservedAbove c 0 2, reservedAbove c 1 1] ++ reserved c 2 2)
    stops := fun c s =>
      firstStop [(cu c 0 1 ≠ 0 && cu c 0 1 ≠ s.getF Reg.bfSpillStatusChEn && anySpilled s, stRefused, 0x0B02),
        ((s.mbx.longOp.map (·.opcode)) = some 0x0B04, stBusy, 0),
        ((members (cu c 0 1) 2).any (fun n => !bit s.boot.ddr n), stInternal, 0)] }

/-- One step of BF_SPILL_ENABLE: it waits for the channels to wake (R35), or for DDR5 to empty (R483). -/
def spillStep (o : LongOp) (s : State) : State × StepEnd :=
  let chs := cu o.cmd 0 1
  if chs ≠ 0 then
    if (bit chs 0 && !s.awake 50) || (bit chs 1 && !s.awake 51) then (s, .more o)
    else let s := spillOn chs s; (s, .done (spillReply 0 s))
  else if cbit o.cmd 1 0 then
    let r := spillFlush s
    let s := spillOff r.2
    (s, .done (spillReply r.1 s))
  else if !anySpilled s then let s := spillOff s; (s, .done (spillReply 0 s))
  else (if s.isF Reg.bfSpillStatusDraining then s else spillEvent 2 (s.setB Reg.bfSpillStatusDraining true), .more o)

/-- BF_SPILL_ENABLE (R483, R496). -/
def execBfSpillEnable (c : Cmd) (s : State) : Out := runStepped bfSpillEnableSpec spillStep c s

/-- The copy in queue `k` replaced by another. -/
def swapCopy (k : Nat) (a b : Copy) (s : State) : State :=
  s.setBq k { s.bq k with copies := (s.bq k).copies.map (fun x => if x = a then b else x) }

/-- Whether some waiting copy of pool frame `f` holds it on chip or in staging, or one is in transmission. -/
def heldOnChip (f : Nat) (s : State) : Bool :=
  s.bf.queues.any (fun q => q.2.copies.any (fun c => c.frame = f && decide (c.place < 2))) ||
  s.sw.tx.any (fun e => match e.2 with | some t => t.kind = 0 && t.copy.frame = f | none => false)

/-- Whether the spill engine can move now (R482): 300 Gbit/s a channel in all, and reads at most 250 Gbit/s a channel. -/
def engineReady (rd : Bool) (s : State) : Bool :=
  decide (s.bf.engineFree ≤ 3 * s.dtt) && (!rd || decide (s.bf.readFree ≤ 5 * s.dtt))

/-- A move of `n` cells at that rate: 2,048 bits a cell take 16/3 ticks on one channel, and 32/5 of the reads' share (R482). -/
def engineMoves (rd : Bool) (n : Nat) (s : State) : State :=
  let ch := max 1 (popCount (s.getF Reg.bfSpillStatusChEn) 2)
  { s with bf := { s.bf with
      moved := s.bf.moved ++ [(s.dtt, rd, n)], engineFree := max s.bf.engineFree (3 * s.dtt) + n * 16 / ch,
      readFree := if rd then max s.bf.readFree (5 * s.dtt) + n * 32 / ch else s.bf.readFree } }

/-- SPILL_WRITE: the spill engine moves a queue's oldest staged copy whole to DDR5 and frees its staging cells (R481). -/
def execSpillWrite (queue : Nat) (s : State) : Out :=
  match (s.bq queue).copies.find? (fun c => c.place = 1) with
  | none => .next s
  | some c =>
    match s.poolFrame c.frame with
    | none => .next s
    | some f =>
      if !f.whole || s.getF Reg.bfSpillStatusChEn = 0 || !engineReady false s then .next s
      else
        let n := f.cells.length
        let used := sortNat ((s.bf.queues.map (fun q => (q.2.copies.map (·.ddr)).flatten)).flatten ++ s.mp.quarDdr ++
          (s.mp.stuck.filter (fun w => mpMem w = 12)).map (fun w => mpAddr w / 4)).eraseDups
        let a := allocate n (popCount (s.getF Reg.bfSpillStatusChEn) 2 * Config.ddrCells.val) used s
        let s := writeCells 12 4 a.1 a.2
        let s := swapCopy queue c { c with place := 2, ddr := a.1 } s
        let s := engineMoves false n { s with bf := { s.bf with staged := s.bf.staged - n } }
        let s := s.setB Reg.bfSpillStatusStageFull (decide (8192 ≤ s.bf.staged))
        let s := count (queueCtr 0 queue 7) 1 (addDocc queue n s)
        let s := if heldOnChip c.frame s then s else syncPool (s.setPoolFrame c.frame (some { f with cells := [], shared := 0 }))
        .next (showSpill s)

/-- SPILL_READBACK: a queue's oldest spilled frame is read back into on-chip cells (R481, R482). -/
def execSpillReadback (queue : Nat) (s : State) : Out :=
  match (s.bq queue).copies.find? (fun c => c.place ≠ 0) with
  | none => .next s
  | some c =>
    if c.place ≠ 2 ∨ engineReady true s = false then .next s
    else
      let n := c.ddr.length
      let s := readWords 12 ((c.ddr.map (fun d => (List.range 4).map (fun j => 4 * d + j))).flatten) s
      match s.poolFrame c.frame with
      | none => .next s
      | some f =>
        let a := if f.cells = [] then allocate n 262144 (chipUsed s) s else (f.cells, s)
        let s := if f.cells = [] then writeCells 3 2 a.1 (writeCells 0 4 a.1 a.2) else a.2
        let shared := max f.shared (beyondMin queue n s)
        let s := s.setPoolFrame c.frame (some { f with cells := a.1, shared := shared })
        let s := swapCopy queue c { c with place := 0, ddr := [] } s
        let s := addOcc queue n (addDocc queue (-(n : Int)) s)
        let s := engineMoves true n s
        let s := if (s.bq queue).copies.any (fun x => x.place ≠ 0) then s else s.setB (Reg.bfQStatusSpilling queue) false
        .next (showSpill (syncPool s))

/-- SPILL_DRAIN_DONE: DDR5 holds no frame after spill was disabled; the channels sleep, and the command completes at its next step
(R483). -/
def execSpillDrainDone (s : State) : Out :=
  if s.isF Reg.bfSpillStatusDraining = true ∧ anySpilled s = false then .next (spillOff s) else .next s

/-- What HST_CANCEL does to BF_SPILL_ENABLE in progress: the channels enabled at that point stay enabled (R496). -/
def spillCancel (s : State) : State :=
  if s.isF Reg.bfSpillStatusDraining then spillEvent 1 (s.setB Reg.bfSpillStatusDraining false) else s

end Sys2Proof.Machine
end

