-- ==== Sys2Proof/Machine/Counters.lean ====
section
/-! DEFINITION. Counters and traffic measurement: the commands of group 0x0F (R593 to R607), threshold units (R598) and bandwidth
windows (R600, R601). -/

set_option Elab.async false

namespace Sys2Proof.Machine

/-- Whether a counter ever counts (R590, R591). -/
def counts (c : Nat) : Bool :=
  if c < 6656 then decide (c % 128 ≤ 20) || (decide (32 ≤ c % 128) && decide (c % 128 ≤ 38))
  else if c < 9984 then
    let k := (c - 6656) / 8
    !((k / 8 = 49 || k / 8 = 51) && k % 8 ≠ 0)
  else if c < 22272 then true
  else if c < 22784 then decide ((c - 22272) % 32 ≤ 10)
  else if c < 23808 then decide ((c - 22784) % 16 ≤ 9)
  else
    let o := c - 23808
    decide (o ≤ 30) || (decide (64 ≤ o) && decide (o ≤ 255))

/-- The clear instant of the command in service (R594): its effect is whole at T_DONE, where its row stands (R108, log entry 9). -/
def clearInstant (s : State) : Nat := s.dtt

/-- Overflow bits of counters `a` to `b - 1` go (R594). -/
def clearOvf (a b : Nat) (s : State) : State :=
  (List.range 768).foldl (fun s w =>
    if 32 * w + 32 ≤ a ∨ b ≤ 32 * w then s
    else
      let f := Reg.ctOvf w
      s.setF f (maskOf ((members (s.getF f) 32).filter (fun j => !(decide (a ≤ 32 * w + j) && decide (32 * w + j < b)))))) s

/-- Words of counters `a` to `b - 1` are read, and then written whole where `written` (R597, R612, R615). -/
def touchCounters (a b : Nat) (reads written : Bool) (s : State) : State :=
  if s.mp.errs = [] ∧ s.mp.tracker = [] ∧ s.mp.sticky = [] then s
  else
    (List.range (b - a)).foldl (fun s k =>
      let s := if reads then (mpRead (mpWord 9 (a + k)) false s).2 else s
      if written then mpWrite (mpWord 9 (a + k)) s else s) s

def ctClearSpec : CmdSpec :=
  { opcode := 0x0F01, lenOk := lenIs 12
    args := fun c _ =>
      firstBad ([(0, decide (24575 < cu c 0 4)), (4, decide (24576 < cu c 0 4 + cu c 4 4)),
        (8, decide (4 ≤ cu c 8 1) || cu c 8 1 = 3)] ++ reserved c 9 3)
    need := fun c _ => if cbit c 8 0 then 8 * cu c 4 4 else 0 }

/-- CT_CLEAR: counters take 0 in one clear instant, or their overflow bits alone go; READ returns what they held (R594, R595). -/
def ctClearEffect (c : Cmd) (s : State) : State × Reply :=
  let a := cu c 0 4
  let b := a + cu c 4 4
  let t := clearInstant s
  let ovfOnly := cbit c 8 1
  let s := touchCounters a b (cbit c 8 0) false s
  let buf := if cbit c 8 0 then ((List.range (b - a)).map (fun k => le 8 (s.counter (a + k)))).flatten else []
  let s := if ovfOnly then s
    else touchCounters a b false true { s with counters := s.counters.filter (fun e => decide (e.1 < a) || decide (b ≤ e.1)) }
  (clearOvf a b s, okBuf [(32, le 8 t)] buf)

/-- CT_CLEAR (R595, R607). -/
def execCtClear (c : Cmd) (s : State) : Out := runCmd ctClearSpec ctClearEffect c s

def ctPresetSpec : CmdSpec :=
  { opcode := 0x0F02, lenOk := lenIs 16
    args := fun c _ => firstBad ((0, decide (24575 < cu c 0 4) || !counts (cu c 0 4)) :: reserved c 4 4) }

/-- CT_PRESET: one counter takes a value in the clear instant (R594). -/
def ctPresetEffect (c : Cmd) (s : State) : State × Reply :=
  let k := cu c 0 4
  let t := clearInstant s
  let s := touchCounters k (k + 1) true false s
  let old := s.counter k
  let s := clearOvf k (k + 1) (touchCounters k (k + 1) false true { s with counters := spSet 0 s.counters k (cu c 8 8) })
  (s, okWith [(32, le 8 t), (40, le 8 old)])

/-- CT_PRESET (R594, R607). -/
def execCtPreset (c : Cmd) (s : State) : Out := runCmd ctPresetSpec ctPresetEffect c s

/-- Whether INDEX is valid for SRC_KIND (R598). -/
def thIndexOk (kind i : Nat) : Bool :=
  if kind = 0 ∨ kind = 3 then i = 0
  else if kind = 1 ∨ kind = 2 then decide (i < 416) && !(singleQueue (i / 8) && i % 8 ≠ 0)
  else if kind = 4 then decide (i < 16)
  else decide (i < 64)

def ctSetThresholdSpec : CmdSpec :=
  { opcode := 0x0F03, lenOk := lenIs 12
    args := fun c _ =>
      let th : Bool := cu c 0 1 = 0
      let x := cu c 4 4
      let y := cu c 8 4
      firstBad ([(0, decide (1 < cu c 0 1)), (1, if th then decide (63 < cu c 1 1) else cu c 1 1 ≠ 0),
        (2, if th then decide (5 < cu c 2 1) else cu c 2 1 ≠ 0),
        (4, if th then decide (cu c 2 1 ≤ 5) && !thIndexOk (cu c 2 1) x else decide (x < 625 ∨ 781250000 < x)),
        (8, if th then decide (16777215 < y) else decide (y < 64 ∨ 1048576 < y) || x % y ≠ 0)] ++ reserved c 3 1) }

/-- CT_SET_THRESHOLD: a threshold unit's source and level, or the bandwidth windows, whose windows in progress are discarded (R599,
R601). -/
def ctSetThresholdEffect (c : Cmd) (s : State) : State × Reply :=
  let x := cu c 4 4
  let y := cu c 8 4
  if cu c 0 1 = 0 then
    let u := cu c 1 1
    (((s.setF (Reg.ctThCfgSrcKind u) (cu c 2 1)).setF (Reg.ctThCfgIndex u) x).setF (Reg.ctThN u) y, okReply)
  else
    let t := clearInstant s
    let s := (s.setF Reg.ctBwLong x).setF Reg.ctBwShort y
    ({ s with bwFrom := (t + x - 1) / x * x }, okReply)

/-- CT_SET_THRESHOLD (R599, R601, R607). -/
def execCtSetThreshold (c : Cmd) (s : State) : Out := runCmd ctSetThresholdSpec ctSetThresholdEffect c s

def ctWindowMapSpec : CmdSpec :=
  { opcode := 0x0F04, lenOk := fun n => decide (4 ≤ n), lenBy := fun c => c.len = 4 + 4 * cu c 2 2
    args := fun c _ =>
      firstBad ([(0, decide (1023 < cu c 0 2)), (2, decide (1024 < cu c 0 2 + cu c 2 2))] ++
        (List.range (cu c 2 2)).map (fun m =>
          let v := cu c (4 + 4 * m) 4
          (4 + 4 * m, bits v 30 15 ≠ 0 || decide (24575 < v % 2 ^ 15)))) }

/-- CT_WINDOW_MAP: window slots take their counters in one CCLK (R605). -/
def ctWindowMapEffect (c : Cmd) (s : State) : State × Reply :=
  ((List.range (cu c 2 2)).foldl (fun s m =>
    let v := cu c (4 + 4 * m) 4
    let k := cu c 0 2 + m
    (s.setB (Reg.ctWinMapEn k) (bit v 31)).setF (Reg.ctWinMapIndex k) (v % 2 ^ 15)) s, okReply)

/-- CT_WINDOW_MAP (R605, R607). -/
def execCtWindowMap (c : Cmd) (s : State) : Out := runCmd ctWindowMapSpec ctWindowMapEffect c s

def ctLatencySampleSpec : CmdSpec :=
  { opcode := 0x0F05, lenOk := lenIs 16
    args := fun c _ => firstBad ([(0, decide (7 < cu c 0 1)), reservedAbove c 1 3, (2, decide (47 < cu c 2 1)),
      (8, cbit c 1 0 && cu c 8 6 = 0)] ++ reserved c 3 1 ++ reserved c 14 2) }

/-- CT_LATENCY_SAMPLE: a sampler is configured; RESET clears its statistics (R602, R604). -/
def ctLatencySampleEffect (c : Cmd) (s : State) : State × Reply :=
  let k := cu c 0 1
  let s := ((s.setB (Reg.ctLsCfgEn k) (cbit c 1 0)).setB (Reg.ctLsCfgDp k) (cbit c 1 1)).setF (Reg.ctLsCfgEgress k) (cu c 2 1)
  let s := ((s.setF (Reg.ctLsN k) (cu c 4 4)).setF (Reg.ctLsIn0 k) (cu c 8 4)).setF (Reg.ctLsIn1 k) (cu c 12 2)
  let s := { s with ctSeen := spSet 0 s.ctSeen k 0 }
  let s := if cbit c 1 2 then
      (((s.set64 (Reg.ctLsCount k) 0).set64 (Reg.ctLsSum k) 0).set64 (Reg.ctLsMin k) (2 ^ 64 - 1)).set64 (Reg.ctLsMax k) 0
    else s
  (if cbit c 1 2 then s.set64 (Reg.ctLsLast k) 0 else s, okReply)

/-- CT_LATENCY_SAMPLE (R602, R607). -/
def execCtLatencySample (c : Cmd) (s : State) : Out := runCmd ctLatencySampleSpec ctLatencySampleEffect c s

/-- BW_WINDOW_END: the last long window of a port's direction is written (R600): its octets, the largest short window's octets, and
which short window that was. -/
def execBwWindowEnd (port dir octets peak slot : Nat) (s : State) : Out :=
  let k := port * 2 + dir
  let long := s.getF Reg.ctBwLong
  let short := s.getF Reg.ctBwShort
  let fin := s.dtt / long * long
  if 48 ≤ port ∨ 2 ≤ dir ∨ octets < peak ∨ long / short ≤ slot ∨ fin < s.bwFrom + long ∨ fin ≤ spGet 0 s.bwEnds k then .next s
  else
    let s := (s.set64 (Reg.ctBwBytes k) octets).setF (Reg.ctBwPeak k) peak
    let s := s.set64 (Reg.ctBwPeakAt k) (fin - long + slot * short)
    .next { s.addWrap (Reg.ctBwSeq k) 1 with bwEnds := spSet 0 s.bwEnds k fin }

/-- The occupancy a threshold unit watches (R598). -/
def thOccupancy (u : Nat) (s : State) : Nat :=
  let i := s.getF (Reg.ctThCfgIndex u)
  match s.getF (Reg.ctThCfgSrcKind u) with
  | 1 => s.getF (Reg.bfQStatusOcc i)
  | 2 => depth i s
  | 3 => sharedSize s - sharedFree s
  | 4 => fmInUse i s
  | 5 => erInUse i s
  | _ => 0

/-- One tick of every threshold unit: two CCLKs, each counted where the occupancy reaches max(N, 1) (R598). -/
def thresholdTick (s : State) : State :=
  (List.range 64).foldl (fun s u =>
    if s.getF (Reg.ctThCfgSrcKind u) ≠ 0 ∧ max (s.getF (Reg.ctThN u)) 1 ≤ thOccupancy u s then count (devCtr (64 + u)) 2 s else s) s

end Sys2Proof.Machine
end

