-- ==== Sys2Proof/Machine/Outputs.lean ====
section
/-! DEFINITION. The outputs: the condition each output takes (R336), squelch and release, the edges at a stop and a restart (R334), PL_OUT_STATE (R341),
output phase slews (R335), and TSTAT with its hold (R309, R310). -/

set_option Elab.async false

namespace Sys2Proof.Machine

/-- SQ_MASK of output `n`. -/
def outMask (n : Nat) (s : State) : Nat :=
  if n < 8 then s.getF (Reg.plOutStatusSqMask n) else s.getF (Reg.plPpsStatusSqMask (n - 8))

/-- STATE of output `n`. -/
def outState (n : Nat) (s : State) : Nat :=
  if n < 8 then s.getF (Reg.plOutStatusState n) else s.getF (Reg.plPpsStatusState (n - 8))

/-- Whether an output is on: a CLKOUT with STD not 0, a PPSOUT with EN. -/
def outOn (n : Nat) (s : State) : Bool :=
  if n < 8 then s.getF (Reg.plOutStatusStd n) ≠ 0 else bit (s.getF (Reg.plPpsStatusFlags (n - 8))) 0

/-- SAFE of output `n`. -/
def outSafe (n : Nat) (s : State) : Bool :=
  if n < 8 then s.isF (Reg.plOutStatusSafe n) else bit (s.getF (Reg.plPpsStatusFlags (n - 8))) 3

/-- Whether output `n` waits for its OSYN (order 2 of R336): a retune pending, a plan not locked, or its own restart;
a PPSOUT does not depend on the plan or lock of its OSYN (R330). -/
def outRetuning (n : Nat) (s : State) : Bool :=
  decide (n < 8) && (s.isF (Reg.plOsynStatusRetune (s.getF (Reg.plOutStatusOsyn n))) ||
    !s.isF (Reg.plOsynStatusLock (s.getF (Reg.plOutStatusOsyn n))) || (s.out n).retune)

/-- Whether output `n` is held because its twin is not active (TW_ENABLE's OUT_MASK and PPS_MASK, R582). -/
def twinHold (n : Nat) (s : State) : Bool := bit s.tw.holdMask n && !s.isF Reg.hstStatusActive

/-- The state an output takes: the first condition of R336 that applies (0 off, 1 running, 2 held, 3 retuning, 4 squelched,
5 safe path). -/
def outCondition (n : Nat) (s : State) : Nat :=
  if !outOn n s then 0
  else if (s.out n).hold || twinHold n s then 2
  else if outRetuning n s then 3
  else if (s.out n).squelched then 4
  else if !s.innerLocked then (if outSafe n s && s.isF Reg.plStatusSysxoOk then 5 else 2)
  else 1

/-- The squelch of output `n` follows the served domain's QC state: it starts when the state is in SQ_MASK, and the
time outside it counts from the first instant outside (R336). -/
def outSquelch (n : Nat) (s : State) : State :=
  let o := s.out n
  if outOn n s && bit (outMask n s) (s.qcState s.served) then s.setOut n { o with squelched := true, clear := none }
  else if !outOn n s then s.setOut n { o with squelched := false, clear := none }
  else if o.squelched && o.clear.isNone then s.setOut n { o with clear := some s.dtt }
  else s

/-- The time that output `n` is aligned to at present: output time less the phase it has reached (R328, R330). -/
def outTime (n : Nat) (s : State) : Int := s.servedTime s.now80 + s.getI64 Reg.tbOutOffset - (s.out n).phaseNow

/-- Output `n` completes its cycle or pulse and is then low (R336): its last edge is the next falling one. -/
def stopEdge (n : Nat) (s : State) : State :=
  let w := waveOf n s
  let u := outTime n s * w.num
  let fall := s.now80 + timeTk80 ((w.edgeFrom false u - u + w.num - 1) / w.num)
  s.setOut n { s.out n with edge := some ⟨fall, fall, false⟩ }

/-- Output `n` runs again: its first rising edge is the next aligned instant that keeps the low time since the last falling edge at or above the minimum; that
of a CLKOUT without ALIGN, whose phase is not defined, the earliest such instant (R328, R334, R336, R337). -/
def restartEdge (n : Nat) (s : State) : State :=
  let w := waveOf n s
  let o := s.out n
  let fall : Nat := match o.edge with | some e => e.next | none => s.now80
  let rest : Int := max 0 ((w.least false : Int) - tk80Time ((s.now80 : Int) - fall) * w.num)
  let u := outTime n s * w.num
  let free : Bool := decide (n < 8) && !s.isF (Reg.plOutStatusAlign n)
  let u1 := if free then u + rest else w.edgeFrom true (u + rest)
  s.setOut n { o with edge := some ⟨fall, s.now80 + timeTk80 ((u1 - u + w.num - 1) / w.num), true⟩ }

/-- The edges of output `n` as it passes from state `old` to `v` (R336, R337): on the safe path its phase is unrelated. -/
def placeEdge (n old v : Nat) (s : State) : State :=
  let runs : Bool := old = 1 || old = 5
  if v = 5 then s.setOut n { s.out n with edge := none }
  else if v = 1 then restartEdge n s
  else if runs then stopEdge n s else s

/-- STATE of output `n` is written, with PL_OUT_STATE where it changes (R341). -/
def outSet (n v : Nat) (s : State) : State :=
  let old := outState n s
  if old = v then s
  else
    let s := placeEdge n old v s
    let s := if n < 8 then s.setF (Reg.plOutStatusState n) v else s.setF (Reg.plPpsStatusState (n - 8)) v
    raiseEv 99 0 0x0510 [(20, le 1 n), (21, le 1 old), (22, le 1 v)] s

/-- Output `n` takes its condition. -/
def outRefresh (n : Nat) (s : State) : State :=
  let s := outSquelch n s
  outSet n (outCondition n s) s

/-- Every output takes its condition. -/
def outsRefresh (s : State) : State := (List.range 12).foldl (fun s n => outRefresh n s) s

/-- The outputs that wait for a restart have it: the OSYN is locked and the inner loop locked (R338, R339). -/
def outsRestart (s : State) : State :=
  if s.innerLocked then
    outsRefresh ((List.range 8).foldl (fun s n =>
      if s.isF (Reg.plOsynStatusLock (s.getF (Reg.plOutStatusOsyn n))) then s.setOut n { s.out n with retune := false } else s) s)
  else outsRefresh s

/-- Output `n`'s phase is set: on a running output it moves at the output slew rate, or with STEP at once, its next edge placed by the cycle guard (R334,
R335). -/
def setPhaseOf (n : Nat) (phase : Int) (step running : Bool) (s : State) : State :=
  let o := s.out n
  if !running then s.setOut n { o with phase := phase, phaseNow := phase }
  else if !step then s.setOut n { o with phase := phase }
  else
    let t := outTime n s
    let e := movedEdge n s.now80 t (t + o.phaseNow - phase) s
    s.setOut n { o with phase := phase, phaseNow := phase, edge := some e.1 }

/-- What a rate of `r` ns/s moves between DTT `a` and `b`, in 2⁻¹⁶ ns, without drift: r × 65,536 × 1.28 ns × ticks × 10⁻⁹. -/
def slewMoved (r a b : Nat) : Int := ((r * b * 128 * 65536 / 10 ^ 11 : Nat) : Int) - (r * a * 128 * 65536 / 10 ^ 11 : Nat)

/-- A value moved by at most `m` toward another. -/
def approach (v target m : Int) : Int := target + towardZero (v - target) m

/-- One servo update of the outputs' phases: each moves toward its PHASE, and TB_OUT_OFFSET toward 0 while a switch is slewed
out, at TB_CFG.RATE (R155, R335). -/
def outPhases (m : Int) (s : State) : State :=
  let s := (List.range 12).foldl (fun s n =>
    let o := s.out n
    if o.phaseNow = o.phase then s else s.setOut n { o with phaseNow := approach o.phaseNow o.phase m }) s
  if s.tb.outSlewing then
    match s.tb.rephaseTo with
    | some o =>
      let o' := towardZero o m
      { (s.setI64 Reg.tbOutOffset (s.getI64 Reg.tbOutOffset + (o' - o))) with tb := { s.tb with rephaseTo := some o' } }
    | none => s.setI64 Reg.tbOutOffset (towardZero (s.getI64 Reg.tbOutOffset) m)
  else s

/-! ### TSTAT -/

/-- The value TSTAT[3:0] has to show: the served domain's QC state, 0b111 until the inner loop first locks, and TSTAT3 high
for an active twin or a device alone (R13, R309). -/
def tstatWanted (s : State) : Nat :=
  (if s.dpll.everLocked then s.qcState s.served else 7) + 8 * s.getF Reg.hstStatusActive

/-- TSTAT takes its value once the value shown has stood for 10 µs (7,812.5 ticks); otherwise the latest one waits (R310). -/
def tstatFollow (s : State) : State :=
  let v := tstatWanted s
  if v = s.refs.tstat then { s with refs := { s.refs with tstatWait := none } }
  else if s.refs.tstatSince * 2 + 15625 ≤ s.dtt * 2 then
    { s with refs := { s.refs with tstat := v, tstatSince := s.dtt, tstatWait := none } }
  else { s with refs := { s.refs with tstatWait := some v } }

/-- TSTAT_HOLD_EXPIRY: the hold of the value shown has ended and the latest waiting value is shown (R310). -/
def execTstatHoldExpiry (s : State) : Out :=
  match s.refs.tstatWait with
  | none => .next s
  | some v =>
    if s.refs.tstatSince * 2 + 15625 ≤ s.dtt * 2 then
      .next { s with refs := { s.refs with tstat := v, tstatSince := s.dtt, tstatWait := none } }
    else .next s

/-- SQUELCH_RELEASE: the served domain's state has stayed outside SQ_MASK for 1 s (781,250,000 ticks), and the output is
released (R336). -/
def execSquelchRelease (out : Nat) (s : State) : Out :=
  let o := s.out out
  match o.clear with
  | some t =>
    if out < 12 ∧ o.squelched ∧ t + 781250000 ≤ s.dtt then
      .next (outRefresh out (s.setOut out { o with squelched := false, clear := none }))
    else .next s
  | none => .next s

end Sys2Proof.Machine
end

