-- ==== Sys2Proof/Machine/References.lean ====
section
/-! DEFINITION. References, selection and holdover: candidates and their monitors (R274 to R283), selection (R284 to R287),
switch transactions (R288 to R291), domain states and the error bound (R292 to R294), larder and holdover (R295 to R300),
return of a reference (R301 to R304), the open loop (R305 to R307) and received quality levels (R308). -/

set_option Elab.async false

namespace Sys2Proof.Machine

/-! ### Access -/

/-- Candidate `i`. -/
def State.cand (s : State) (i : Nat) : Cand := spGet (Cand.reset i) s.refs.cands i

/-- The state with candidate `i` replaced. -/
def State.setCand (s : State) (i : Nat) (c : Cand) : State :=
  { s with refs := { s.refs with cands := spSet (Cand.reset i) s.refs.cands i c } }

/-- The references' part of domain `d`. -/
def State.rd (s : State) (d : Nat) : RsDom := if d = 0 then s.refs.domA else s.refs.domB

/-- The state with that part replaced. -/
def State.setRd (s : State) (d : Nat) (x : RsDom) : State :=
  if d = 0 then { s with refs := { s.refs with domA := x } } else { s with refs := { s.refs with domB := x } }

/-- STATE of candidate `i` (R281): 0 LOST, 1 QUALIFYING, 2 QUALIFIED, 3 DEGRADED, 4 DISQUALIFIED, 7 DISABLED. -/
def candState (i : Nat) (s : State) : Nat := s.getF (Reg.rsCandStatusState i)

/-- Priority of candidate `i` for domain `d`. -/
def prio (d i : Nat) (s : State) : Nat :=
  if d = 0 then s.getF (Reg.rsCandStatusPrioA i) else s.getF (Reg.rsCandStatusPrioB i)

/-- Whether candidate `i` is of kind TIME (R274). -/
def isTime (i : Nat) (s : State) : Bool :=
  if i < 4 then (s.cand i).timeKind else if i < 8 then true else decide (2 ≤ (s.cand i).lineMode)

/-- Comparison period of candidate `i` in 2⁻¹⁶ ns (R320). -/
def cmpPeriod (i : Nat) (s : State) : Nat := (s.cand i).cmpDiv * 10 ^ 12 * 2 ^ 16 / max 1 (s.cand i).nomFreq

/-- Whether candidate `i` is compared at 1 kHz or faster, and so uses the fast window and count (R320). -/
def isFast (i : Nat) (s : State) : Bool := decide (10 ^ 6 * (s.cand i).cmpDiv ≤ (s.cand i).nomFreq)

/-- The candidate selected for domain `d`. -/
def selOf (d : Nat) (s : State) : Option Nat :=
  if s.isF (Reg.rsDSelSelValid d) then some (s.getF (Reg.rsDSelSel d)) else none

/-- Outer-loop settings of domain `d`. -/
def State.loopCfg (s : State) (d : Nat) : LoopCfg := if d = 0 then s.dpll.loopA else s.dpll.loopB

/-- Lock window in 2⁻¹⁶ ns and lock count that candidate `i` uses in domain `d` (R319, R320). -/
def lockWindow (d i : Nat) (s : State) : Nat × Nat :=
  let l := s.loopCfg d
  if isFast i s then (l.winFast * 2 ^ 16 / 1000, l.nFast) else (l.winSlow * 2 ^ 16 / 1000, l.nSlow)

/-- A phase reduced to (−P/2, +P/2] (R288). -/
def reducePhase (v : Int) (p : Nat) : Int :=
  let m := v % p
  if (p : Int) < 2 * m then m - p else m

/-- Insertion into a rising list. -/
def insertUp (v : Int) : List Int → List Int
  | [] => [v]
  | a :: r => if v ≤ a then v :: a :: r else a :: insertUp v r

/-- A list in rising order. -/
def sortUp (l : List Int) : List Int := l.foldl (fun a v => insertUp v a) []

/-- The median: the middle value, or the mean of the two middle ones. -/
def median (l : List Int) : Int :=
  let a := sortUp l
  let n := a.length
  if n % 2 = 1 then a.getD (n / 2) 0 else divRound (a.getD (n / 2 - 1) 0 + a.getD (n / 2) 0) 2

/-- Least-squares slope of (x, y) points times `k / q`, rounded once; 0 where the points do not fix one. -/
def lsSlope (k q : Int) (pts : List (Int × Int)) : Int :=
  let n : Int := pts.length
  let sx := (pts.map (·.1)).sum
  let sy := (pts.map (·.2)).sum
  let sxx := (pts.map (fun p => p.1 * p.1)).sum
  let sxy := (pts.map (fun p => p.1 * p.2)).sum
  let den := n * sxx - sx * sx
  if den = 0 then 0 else divRound ((n * sxy - sx * sy) * k) (den * q)

/-- Whether |v| in 2⁻⁴⁸ is beyond `lim` in 10⁻¹⁵. -/
def beyond (v : Int) (lim : Nat) : Bool := decide (lim * 2 ^ 48 < v.natAbs * 10 ^ 15)

/-! ### Quality of a domain -/

/-- The bound of accuracy class `k` in 2⁻¹⁶ ns (R12); none for class 31. -/
def classBound (k : Nat) : Option Nat := if k ≤ 30 then some (65536 * 2 ^ k / 10) else none

/-- The smallest class whose bound covers an estimate in 2⁻¹⁶ ns, 31 where none does or the estimate is unknown (R12, R293). -/
def classOf : Option Nat → Nat
  | none => 31
  | some v => ((List.range 31).find? (fun k => decide (v * 10 ≤ 65536 * 2 ^ k))).getD 31

/-- The accuracy bound of candidate `i` in 2⁻¹⁶ ns (R293): its own for a GNSS solution and a HYBRID or PACKET line reference. -/
def accBound (i : Nat) (s : State) : Option Nat :=
  if i = 6 ∨ i = 7 ∨ 2 ≤ (s.cand i).lineMode then (s.cand i).accOwn else classBound (s.cand i).accK

/-- Mean |e_loop| of domain `d` over the last second; the latest value where no comparison fell into it (R293). -/
def meanLoopError (d : Nat) (s : State) : Nat :=
  let l := (s.rd d).loopE.filter (fun p => decide (s.dtt ≤ p.1 + 781250000))
  match l with
  | [] => (s.getI64 (Reg.plDPerr d)).natAbs
  | _ => ((l.map (fun p => p.2.natAbs)).sum + l.length - 1) / l.length

/-- The holdover estimate B(t) of domain `d` now (R299), none where B0 is unknown. -/
def holdoverBound (d : Nat) (s : State) : Option Nat :=
  let r := s.rd d
  let t := s.dtt - r.hoStart
  r.b0.map (fun b => b + (r.hoFreq * t * 128 * 65536 + 10 ^ 17 - 1) / 10 ^ 17 +
    (r.hoAging * t * t * 16384 * 65536 + 10 ^ 28 * 172800 - 1) / (10 ^ 28 * 172800))

/-- The estimate of R293 for domain `d` in state `st`. -/
def estimate (d st : Nat) (s : State) : Option Nat :=
  let r := s.rd d
  match selOf d s with
  | some i =>
    if st = 4 ∨ st = 5 then holdoverBound d s
    else if st = 1 then (if r.fromHoldover then holdoverBound d s else none)
    else if st = 0 ∨ st = 7 then none
    else if !isTime i s then
      r.boundAtSel.map (fun b => b + ((s.cand i).soft * (s.dtt - r.selectedAt) * 128 * 65536 + 10 ^ 17 - 1) / 10 ^ 17)
    else if st = 6 then
      let held := if s.isF (Reg.tbDStatusAlignNeeded d) then (s.getI64 (Reg.tbDAlignErr d)).natAbs else (s.slewRem d).natAbs
      (accBound i s).map (· + max (meanLoopError d s) held)
    else (accBound i s).map (· + meanLoopError d s)
  | none =>
    if st = 4 ∨ st = 5 then holdoverBound d s
    else if st = 1 ∧ r.fromHoldover then holdoverBound d s
    else none

/-- RS_D_BOUND and the class follow the estimate; where it is unknown the manual gives no value for RS_D_BOUND. -/
def showBound (d st : Nat) (s : State) : State :=
  let e := estimate d st s
  let s := s.setRd d { s.rd d with bound := e }
  let s := match e with
    | some v => s.set64 (Reg.rsDBound d) (sat (2 ^ 64 - 1) v)
    | none => let f := s.draw; f.2.set64 (Reg.rsDBound d) (f.1 % 2 ^ 64)
  let q := st * 32 + classOf e
  let s := s.setF (Reg.tbDStatusQc d) q
  let s := s.setF (Reg.rsDSelQc d) q
  if d = s.served then noteQuality s else s

/-- The conditions of a VALID larder minute hold for domain `d` now (R296); an aligned standby takes the active's, whose state its own
follows (R577). -/
def minuteHolds (d : Nat) (s : State) : Bool :=
  if s.twinState = 3 && s.isF Reg.twStatusAligned then s.qcState d = 2 && s.innerLocked
  else s.qcState d = 2 && (match selOf d s with | some i => candState i s = 2 | none => false) &&
    !s.isF (Reg.rsDSelTxn d) && !s.isF (Reg.rsDSelQueued d) && !s.isF (Reg.tbDStatusOpen d) && s.innerLocked

/-- A minute in which they did not hold throughout is not VALID (R296). -/
def checkMinute (d : Nat) (s : State) : State :=
  if minuteHolds d s then s else s.setRd d { s.rd d with minuteOk := false }

/-- Whether the states of both domains follow the active's: an aligned standby (R577). -/
def followsActive (s : State) : Bool := s.twinState = 3 && s.isF Reg.twStatusAligned

/-- Whether the served domain's QC state stands still: the steer is held for a firmware handover, for 20 ms at most (R39, R40). -/
def qcHeld (d : Nat) (s : State) : Bool :=
  decide (d = s.served) && s.getF Reg.fwStatePhase = 3 &&
    (match s.dpll.holdStart with | some t => decide (s.dtt ≤ t + 15625000) | none => false)

/-- Whether the domain's own selection, limits and bound move its QC state now. -/
def ownState (d : Nat) (s : State) : Bool := !followsActive s && !qcHeld d s

/-- Domain `d` enters QC state `st` for `cause` (R292 to R294): the class at once for the new state, RS_STATE, the QC record,
and for the served domain TSTAT, QC_CHG and the outputs. A cause of its own selection or bound (1 to 3) waits while the state stands still or follows the
active's (R39, R577). -/
def setQc (d st cause : Nat) (s : State) : State :=
  let old := s.qc d
  if old / 32 = st || (decide (cause ≤ 3) && !ownState d s) then checkMinute d s
  else
    let ho := if st = 1 then decide (old / 32 = 4 ∨ old / 32 = 5) else (s.rd d).fromHoldover
    let s := s.setRd d { s.rd d with fromHoldover := ho }
    let s := checkMinute d (showBound d st s)
    let s := raiseEv (96 + d) 1 0x0404 [(20, le 1 old), (21, le 1 (s.qc d)), (22, le 1 cause)] s
    let s := evdSend 0x12 d (96 + d) s.dtt [(16, le 1 old), (17, le 1 (s.qc d)), (18, le 1 cause)] s
    if d = s.served then tstatFollow (outsRefresh (s.raiseBit Reg.hstIrqStatusQcChg)) else s

/-! ### Frequency of a domain -/

/-- Frequency of domain `d` against SYSXO: NTW together with its RATE (R295), in 2⁻⁴⁸. -/
def domFreq (d : Nat) (s : State) : Int :=
  (2 ^ 48 + s.getI64 Reg.plNtw) * (2 ^ 48 + s.getI64 (Reg.tbDRate d)) / 2 ^ 48 - 2 ^ 48

/-- The RATE that together with the present NTW gives frequency `h` (R299). -/
def rateFor (h : Int) (s : State) : Int := (2 ^ 48 + h) * 2 ^ 48 / (2 ^ 48 + s.getI64 Reg.plNtw) - 2 ^ 48

/-- The NTW that together with the served domain's present RATE, which is 0 but in a rate transfer, gives frequency `h` (R158, R299). -/
def ntwFor (h : Int) (s : State) : Int := (2 ^ 48 + h) * 2 ^ 48 / (2 ^ 48 + (s.seg s.served).rate) - 2 ^ 48

/-- NTW is set to a requested value held within ±2³⁶; a value beyond raises PL_NTW_LIMIT (R313). -/
def setNtw (v : Int) (s : State) : State :=
  let w := clampI (-(2 ^ 36)) (2 ^ 36) v
  let s := if w = v then s else raiseEv 98 1 0x0504 [(24, leI 8 v)] s
  s.setI64 Reg.plNtw w

/-- The loop filter of domain `d` stands at output `v`: what it adds from then on it adds to that (log entry 90). -/
def rebaseLoop (d : Nat) (v : Int) (s : State) : State := s.setDom d { s.dom d with integ := v * 2 ^ 32, prop := 0 }

/-- Domain `d`, not served, has its RATE from its servo, with what its slew adds (R148). -/
def setServoRate (d : Nat) (r : Int) (s : State) : State :=
  let s := s.setDom d { s.dom d with servoRate := clampRate r }
  setRate d (clampRate r + slewComponent (s.slewRem d) (s.dom d).slewRate) s

/-- Domain `d` takes frequency `h`: the NTW of the served domain, the RATE of the other (R299). -/
def takeFreq (d : Nat) (h : Int) (s : State) : State :=
  if d = s.served then rebaseLoop d (ntwFor h s) (setNtw (ntwFor h s) s)
  else rebaseLoop d (rateFor h s) (setServoRate d (rateFor h s) s)

/-! ### Larder and holdover -/

/-- FLAGS, candidate and frequency of a larder entry for domain `d`. -/
def LarderEntry.flags (e : LarderEntry) (d : Nat) : Nat := if d = 0 then e.flagsA else e.flagsB
def LarderEntry.ffo (e : LarderEntry) (d : Nat) : Int := if d = 0 then e.ffoA else e.ffoB

/-- An entry with domain `d`'s FLAGS replaced. -/
def LarderEntry.setFlags (e : LarderEntry) (d v : Nat) : LarderEntry :=
  if d = 0 then { e with flagsA := v } else { e with flagsB := v }

/-- The place in memory of larder entry `k`, counted from the newest (R295). -/
def larderSlot (k : Nat) (s : State) : Nat := (s.getF Reg.rsLarderInfoNewest + 2880 - k % 2880) % 2880

/-- Ticks of one larder minute. -/
def minuteTicks : Nat := 46875000000

/-- The holdover window of a loss now (R298): the 60 newest entries that end 5 minutes before it or earlier and are not EXCL. -/
def holdoverWindow (d : Nat) (s : State) : List LarderEntry :=
  (s.refs.larder.filter (fun e => decide ((e.minute + 6) * minuteTicks ≤ s.dtt) && !bit (e.flags d) 1)).take 60

/-- Its VALID entries without an uncorrectable error (R296, R298). -/
def holdoverValid (d : Nat) (s : State) : List LarderEntry :=
  (holdoverWindow d s).filter (fun e => bit (e.flags d) 0 && !bit (e.flags d) 3)

/-- The holdover value of a loss now, where the window is valid: the mean of 30 entries or more (R298). -/
def holdoverMean (d : Nat) (s : State) : Option Int :=
  let v := holdoverValid d s
  if v.length < 30 then none else some (divRound ((v.map (·.ffo d)).sum) v.length)

/-- The words of larder entries `ks`, counted from the newest, are read under memory protection: one found uncorrectable carries UE from then on (R296,
R612). -/
def readLarder (ks : List Nat) (s : State) : State :=
  if s.mp.errs = [] then s
  else ks.foldl (fun s k => (List.range 3).foldl (fun s j => (mpRead (mpWord 8 (3 * larderSlot k s + j)) false s).2) s) s

/-- The window's words are read before they are averaged (R296, R298). -/
def readWindow (d : Nat) (s : State) : State :=
  readLarder ((List.range s.refs.larder.length).filter (fun k =>
    match s.refs.larder[k]? with
    | some e => (holdoverWindow d s).any (fun w => decide (w.minute = e.minute))
    | none => false)) s

/-- RS_D_SEL.HO_WINDOW and HO_ENTRIES and RS_D_HO_FFO show what a loss now would use. -/
def showWindow (d : Nat) (s : State) : State :=
  let s := readWindow d s
  let m := holdoverMean d s
  let s := s.setB (Reg.rsDSelHoWindow d) m.isSome
  let s := s.setF (Reg.rsDSelHoEntries d) (holdoverValid d s).length
  match m with
  | some v => s.setI64 (Reg.rsDHoFfo d) v
  | none => s

/-- Domain `d` has nothing to follow: HOLDOVER at the holdover value where the window is valid, otherwise FREERUN (R292, R298,
R299). -/
def enterHoldover (d cause : Nat) (s : State) : State :=
  if cause ≤ 3 && !ownState d s then s
  else
    let s := readWindow d s
    match holdoverMean d s with
    | some h =>
      let s := s.setRd d { s.rd d with b0 := (s.rd d).bound, hoStart := s.dtt, hoValue := h }
      setQc d 4 cause (takeFreq d h s)
    | none => setQc d 0 cause s

/-! ### Selection -/

/-- Whether candidate `i` belongs to the set of domain `d` (R275, R261). -/
def inSet (d i : Nat) (s : State) : Bool :=
  decide (1 ≤ prio d i s) && (decide (i < 8) || (s.cand i).lineMode = 1 ||
    (decide (2 ≤ (s.cand i).lineMode) && (s.cand i).lineDomain = d))

/-- R284 with the WTR flag disregarded. -/
def eligibleForced (d i : Nat) (s : State) : Bool :=
  inSet d i s && (candState i s = 2 || candState i s = 3) && !((s.rd d).qlMode && s.getF (Reg.rsCandStatusQl i) = 15)

/-- Whether candidate `i` is eligible for domain `d` (R284): with WTR only where no candidate without it is eligible. -/
def eligible (d i : Nat) (s : State) : Bool :=
  eligibleForced d i s && (!s.isF (Reg.rsCandStatusWtr i) ||
    !(List.range 16).any (fun j => eligibleForced d j s && !s.isF (Reg.rsCandStatusWtr j)))

/-- Rank of a quality level, best first (R285): QL-PRC, QL-SSU-A, QL-SSU-B, QL-eEEC, then every other code. -/
def qlRank (ql : Nat) : Nat := if ql = 2 then 0 else if ql = 4 then 1 else if ql = 8 then 2 else if ql = 11 then 3 else 4

/-- The rank key of R285 as one number, smaller first. -/
def rankKey (d i : Nat) (s : State) : Nat :=
  (b2n (candState i s = 3)) * 4096 + (if (s.rd d).qlMode then qlRank (s.getF (Reg.rsCandStatusQl i)) else 0) * 512 +
    prio d i s * 16 + i

/-- The first of the eligible candidates by rank. -/
def bestOf (d : Nat) (s : State) : Option Nat :=
  ((List.range 16).filter (fun i => eligible d i s)).foldl
    (fun b i => match b with | none => some i | some j => if rankKey d i s < rankKey d j s then some i else some j) none

/-- The selector's choice for domain `d` (R285, R287). -/
def choice (d : Nat) (s : State) : Option Nat :=
  match (s.rd d).force with
  | some f => if eligibleForced d f s then some f else none
  | none =>
    match selOf d s with
    | some i => if s.isF (Reg.rsCandStatusNonrev i) && eligible d i s && candState i s ≠ 3 then some i else bestOf d s
    | none => bestOf d s

/-- Selection registers of domain `d` name `sel`. -/
def showSel (d : Nat) (sel : Option Nat) (s : State) : State :=
  let f (i : Nat) : Fld := if d = 0 then Reg.rsCandStatusSelA i else Reg.rsCandStatusSelB i
  let s := (List.range 16).foldl (fun s i => s.setB (f i) (sel = some i)) s
  match sel with
  | some i => (s.setB (Reg.rsDSelSelValid d) true).setF (Reg.rsDSelSel d) i
  | none => s.setB (Reg.rsDSelSelValid d) false

/-- The DPLL's lock of domain `d` ends with PL_LOCK, and the count restarts (R323). -/
def dropLock (d : Nat) (s : State) : State :=
  let s := (s.setF (Reg.plDStatusCount d) 0).setRd d { s.rd d with outCount := 0 }
  if s.isF (Reg.plDStatusLock d) then
    raiseEv 98 0 0x0503 [(20, le 1 d), (21, le 1 0), (24, leI 8 (s.getI64 (Reg.plDPerr d)))] (s.setB (Reg.plDStatusLock d) false)
  else s

/-- LOCKED and LOCKED_DEGRADED follow the selected candidate (R292). -/
def gradeLock (d : Nat) (s : State) : State :=
  match selOf d s with
  | none => s
  | some i =>
    if s.qcState d = 2 && candState i s = 3 && !(List.range 16).any (fun j => eligible d j s && candState j s ≠ 3) then setQc d 3 2 s
    else if s.qcState d = 3 && candState i s = 2 then setQc d 2 1 s
    else checkMinute d s

/-- Phase of a candidate plus the setpoint less the domain time, of one sample. -/
def RefSample.e (p : RefSample) (d : Nat) : Int := if d = 0 then p.eA else p.eB

/-- e of R301: the mean over the last second of candidate `i`'s phase plus setpoint less the time of domain `d`; its latest
sample where none fell into that second. -/
def meanE (d i : Nat) (s : State) : Int :=
  let l := (s.cand i).samples
  let r := l.filter (fun p => decide (s.dtt * 2 ^ 16 ≤ p.x + 781250000 * 2 ^ 16))
  match r, l with
  | [], [] => 0
  | [], p :: _ => p.e d
  | r, _ => divRound ((r.map (·.e d)).sum) r.length

/-- What capture measures of candidate `i` (R288): e for a TIME candidate, the build-out for a FREQUENCY candidate. -/
def captured (d i : Nat) (s : State) : Int :=
  if isTime i s then meanE d i s
  else match (s.cand i).samples with
    | [] => 0
    | p :: _ => reducePhase (p.e d) (cmpPeriod i s)

/-- A domain that follows nothing passes to ACQUIRING when a candidate is selected and its loop is closed (R292, R305). -/
def startAcquiring (d : Nat) (s : State) : State :=
  let q := s.qcState d
  if (q = 0 ∨ q = 4 ∨ q = 5) ∧ !s.isF (Reg.tbDStatusOpen d) then setQc d 1 1 s else s

/-- A switch transaction to candidate `i` begins (R288): it becomes the selection, capture measures it. -/
def beginTxn (d i cause : Nat) (s : State) : State :=
  let old := (selOf d s).getD 0xFF
  let e := captured d i s
  let r := s.rd d
  let bnd := r.bound
  let s := showSel d (some i) s
  let s := (s.setB (Reg.rsDSelTxn d) true).setB (Reg.rsDSelQueued d) false
  let s := s.setRd d { r with txn := some ⟨s.dtt, i, e, false⟩, lastTxn := some s.dtt, switches := sat (2 ^ 32 - 1) (r.switches + 1),
                              buildout := if isTime i s then 0 else e, boundAtSel := bnd, selectedAt := s.dtt, loopE := [], facq := 0 }
  let s := dropLock d s
  let s := (s.setB (Reg.plDStatusFacq d) (s.isF (Reg.plDStatusFacq d) && (s.qcState d = 2 || s.qcState d = 3 || s.qcState d = 6))).setB
    (Reg.plDStatusSlow d) (!isFast i s)
  let s := raiseEv (96 + d) 0 0x0403 [(20, le 1 old), (21, le 1 i), (22, le 1 cause), (24, leI 8 e)] s
  checkMinute d (startAcquiring d s)

/-- The selection of domain `d` goes to none, at once and without a transaction (R288, R292). -/
def selectNone (d cause : Nat) (s : State) : State :=
  let old := (selOf d s).getD 0xFF
  let s := showSel d none (s.setB (Reg.rsDSelQueued d) false)
  let s := dropLock d s
  let s := s.setB (Reg.plDStatusFacq d) false
  let s := raiseEv (96 + d) 0 0x0403 [(20, le 1 old), (21, le 1 0xFF), (22, le 1 cause), (24, leI 8 0)] s
  let q := s.qcState d
  if (q = 1 ∨ q = 6 ∨ q = 2 ∨ q = 3) ∧ !s.isF (Reg.tbDStatusOpen d) then enterHoldover d 1 s else s

/-- The QC state of domain `d` where its selection stays as it is (R292): a state that follows with nothing selected ends, and a domain that follows nothing
with a selection and a closed loop acquires it, as after a held steer (R40); otherwise the candidate's grade. -/
def settleState (d : Nat) (s : State) : State :=
  let q := s.qcState d
  if s.isF (Reg.tbDStatusOpen d) then checkMinute d s
  else if (selOf d s).isNone then (if q = 1 ∨ q = 2 ∨ q = 3 ∨ q = 6 then enterHoldover d 1 s else checkMinute d s)
  else if (q = 0 ∨ q = 4 ∨ q = 5) ∧ s.dpll.holdStart.isNone then setQc d 1 1 s
  else gradeLock d s

/-- Cause of a change of selection for RS_SWITCH: loss, degraded, rank, force, queued (R311). -/
def switchCause (d : Nat) (s : State) : Nat :=
  if s.isF (Reg.rsDSelQueued d) then 5
  else if (s.rd d).force.isSome then 4
  else match selOf d s with
    | none => 3
    | some i => if !eligible d i s then 1 else if candState i s = 3 then 2 else 3

/-- The selector evaluates domain `d` (R285 to R290): nothing during a transaction but the mark of a selection that waits. -/
def evaluate (d : Nat) (s : State) : State :=
  let ch := choice d s
  if s.isF (Reg.rsDSelTxn d) then (if ch = selOf d s then s else s.setB (Reg.rsDSelQueued d) true)
  else if ch = selOf d s then settleState d (s.setB (Reg.rsDSelQueued d) false)
  else match ch with
    | none => selectNone d (switchCause d s) s
    | some i =>
      let spaced := match (s.rd d).lastTxn with | none => true | some t => decide (t + 78125000 ≤ s.dtt)
      if s.isF Reg.tbStateSwitching || !spaced then checkMinute d (s.setB (Reg.rsDSelQueued d) true)
      else beginTxn d i (switchCause d s) s

/-- The selector evaluates both domains, independently (R286). -/
def evaluateAll (s : State) : State := evaluate 1 (evaluate 0 s)

/-! ### Candidate states -/

/-- Candidate `i` passes to state `st` (R281): RS_CAND_STATE, the WTR flag of R283, and what a loss forgets. -/
def setCandState (i st cause : Nat) (s : State) : State :=
  let old := candState i s
  if old = st then s
  else
    let c := s.cand i
    let wtr := st = 2 && old = 1 && c.wasLost && c.everQualified && c.wtrS ≠ 0
    let c := if st = 0 ∨ st = 7 then
        { c with present := none, timer := none, wtrUntil := if st = 7 then none else c.wtrUntil, wasLost := true, lastLoss := s.dtt, samples := [], y := none, ys := [] }
      else if st = 1 then { c with timer := some s.dtt }
      else if st = 4 then { c with timer := none, wasLost := true }
      else if st = 2 then
        { c with timer := none, wasLost := false, everQualified := true, wtrUntil := if wtr then some (s.dtt + c.wtrS * 781250000) else if old = 1 then none else c.wtrUntil }
      else { c with timer := none }
    let s := s.setCand i c
    let s := s.setF (Reg.rsCandStatusState i) st
    let s := if st = 2 && old = 1 then s.setB (Reg.rsCandStatusWtr i) wtr
      else if st = 7 then s.setB (Reg.rsCandStatusWtr i) false else s
    raiseEv (64 + i) 1 0x0401 [(20, le 1 old), (21, le 1 st), (22, le 1 cause), (24, leI 8 (s.getI64 (Reg.rsCandFfo i)))] s

/-- Candidate `i` is lost now (R274, R281), and the selector evaluates (R286). -/
def loseCand (i cause : Nat) (s : State) : State :=
  if candState i s = 7 ∨ candState i s = 0 then
    (if candState i s = 0 then s.setCand i { s.cand i with present := none, samples := [] } else s)
  else evaluateAll (setCandState i 0 cause s)

/-- The limits of candidate `i` on y' (R279, R281): DISQUALIFIED, DEGRADED, or back. -/
def testLimits (i : Nat) (s : State) : State :=
  let c := s.cand i
  let v := s.getI64 (Reg.rsCandFfo i)
  let st := candState i s
  let known := c.y.isSome
  let within80 := !beyond (v * 10) (c.soft * 8)
  let ripe : Bool := match c.timer with | some t => decide (t + c.qualS * 781250000 ≤ s.dtt) | none => false
  if !known then s
  else if (st = 1 ∨ st = 2 ∨ st = 3) ∧ beyond v c.hard then setCandState i 4 5 s
  else if st = 1 ∧ ripe ∧ !beyond v c.soft then setCandState i 2 3 s
  else if st = 2 ∧ beyond v c.soft then setCandState i 3 4 s
  else if st = 3 then
    if !within80 then s.setCand i { c with timer := none }
    else if c.timer.isNone then s.setCand i { c with timer := some s.dtt }
    else if ripe then setCandState i 2 6 s else s
  else if st = 4 ∧ within80 then setCandState i 1 6 s
  else s

/-- Whether the slope of candidate `i` has stayed within its limit for 60 consecutive minutes (R280, R297). -/
def slopeCalm (i : Nat) (s : State) : Bool :=
  match (s.cand i).within with | some t => decide (t + 60 * minuteTicks ≤ s.dtt) | none => false

/-- Domain `d`'s larder entries from ten minutes before the running one on are EXCL (R297); the flag bytes are written in their words (R613). -/
def markExcl (d : Nat) (s : State) : State :=
  let hit (e : LarderEntry) : Bool := decide (s.refs.minute ≤ e.minute + 10) && !bit (e.flags d) 1
  let ks := (List.range s.refs.larder.length).filter (fun k => match s.refs.larder[k]? with | some e => hit e | none => false)
  let s := if s.mp.errs = [] then s else ks.foldl (fun s k => mpPartial (mpWord 8 (3 * larderSlot k s)) (16 * (1 + d)) s) s
  { s with refs := { s.refs with larder := s.refs.larder.map (fun e => if hit e then e.setFlags d (e.flags d + 2) else e) } }

/-- The slope of candidate `i` against its limit (R279, R280): the first excess raises RS_DRIFT_ONSET and marks the larder of
every domain that has selected it; an hour within the limit re-arms it. -/
def testSlope (i : Nat) (s : State) : State :=
  let c := s.cand i
  let due := decide (c.lastLoss + 78125000000 ≤ s.dtt) && c.y.isSome
  if !due then s.setCand i { c with within := none }
  else if c.drift < c.slope.natAbs then
    let s := s.setCand i { c with within := none, onset := true }
    if c.onset then s
    else
      let sel (d : Nat) := decide (selOf d s = some i)
      let s := raiseEv (64 + i) 1 0x0402 [(20, le 1 (b2n (sel 0) + 2 * b2n (sel 1))), (24, leI 8 c.slope)] s
      [0, 1].foldl (fun s d =>
        if sel d then markExcl d ((s.setRd d { s.rd d with minuteOnset := true }).setB (Reg.rsDSelOnset d) true)
        else s) s
  else
    let s := s.setCand i { c with within := (match c.within with | some t => some t | none => some s.dtt) }
    if slopeCalm i s then s.setCand i { s.cand i with onset := false } else s

/-- y_i of candidate `i`: the least-squares slope of its phase samples of the last 10 s, of a PPS input its last 10 edges, against SYSXO, in 2⁻⁴⁸
(R276). -/
def fitY (i : Nat) (s : State) : Option Int :=
  let l := (s.cand i).samples.filter (fun p => decide (s.dtt * 2 ^ 16 ≤ p.x + 7812500000 * 2 ^ 16))
  let l := if i = 4 ∨ i = 5 then l.take 10 else l
  match l with
  | p :: _ :: _ => some (lsSlope (2 ^ 48 * 100) 1 (l.map (fun q => (((q.x : Int) - p.x) * 128, q.sys))))
  | _ => none

/-- y'_i and the slope s_i of candidate `i` (R276, R277), with XCHK; the slope in 10⁻¹⁵ per 100 s over the last 100 values, which RS_CAND_SLOPE shows within
its 32 bits. -/
def crossCheck (i : Nat) (s : State) : State :=
  match (s.cand i).y with
  | none => s
  | some y =>
    let others := ((List.range 16).filter (fun j => j ≠ i && candState j s = 2 && (s.cand j).y.isSome)).map
      (fun j => ((s.cand j).y).getD 0)
    let x := decide (2 ≤ others.length)
    let v := if x then y - median others else y
    let ys := (v :: (s.cand i).ys).take 100
    let n := ys.length
    let slope := lsSlope (100 * 10 ^ 15) (2 ^ 48) ((List.range n).map (fun k : Nat => (-(k : Int), ys.getD k 0)))
    let s := s.setCand i { s.cand i with ys := ys, slope := slope }
    let s := s.setB (Reg.rsCandStatusXchk i) x
    let s := s.setI64 (Reg.rsCandFfo i) v
    let s := s.setI (Reg.rsCandSlope i) (clampI (-(2 ^ 31)) (2 ^ 31 - 1) slope)
    s.setI64 (Reg.rsCandPhase i) (if isTime i s then meanE s.served i s else 0)

/-- RS_SYSXO_SUSPECT, at most once an hour (R278). -/
def sysxoSuspect (s : State) : State :=
  let q := (List.range 16).filter (fun j => candState j s = 2 && (s.cand j).y.isSome)
  let m := median (q.map (fun j => ((s.cand j).y).getD 0))
  let quiet := match s.refs.suspectAt with | none => true | some t => decide (t + 60 * minuteTicks ≤ s.dtt)
  if decide (3 ≤ q.length) && quiet && q.any (fun j => beyond m (s.cand j).hard) then
    raiseEv 98 1 0x0405 [(24, leI 8 m)] { s with refs := { s.refs with suspectAt := some s.dtt } }
  else s

/-- One evaluation of R321 for a domain in ACQUIRING: the frequency error fitted through the loop samples of the last second,
or the last 8, within 10⁻⁹. -/
def evaluateFacq (d : Nat) (s : State) : State :=
  if s.qcState d ≠ 1 ∨ s.isF (Reg.rsDSelTxn d) then s.setRd d { s.rd d with facq := 0 }
  else if s.isF (Reg.rsDSelQueued d) then s
  else
    let l := (s.rd d).loopE
    let recent := l.filter (fun p => decide (s.dtt ≤ p.1 + 781250000))
    let use := if recent.length < 8 then l.take 8 else recent
    let f := match use with
      | p :: _ :: _ => some (lsSlope (2 ^ 48 * 100) 1 (use.map (fun q => (((q.1 : Int) - p.1) * 128 * 65536, q.2))))
      | _ => none
    match f with
    | some v => s.setRd d { s.rd d with facq := if beyond v 1000000 then 0 else (s.rd d).facq + 1 }
    | none => s

/-- MONITOR_EVALUATION (R276 to R281, R286): every enabled candidate's y, y' and slope, returned signals, limits and drift; the
suspect test; what a loss now would use; frequency acquisition; then both selectors. -/
def execMonitorEvaluation (s : State) : Out :=
  let on := (List.range 16).filter (fun i => candState i s ≠ 7)
  let s := on.foldl (fun s i => s.setCand i { s.cand i with y := fitY i s }) s
  let s := on.foldl (fun s i => crossCheck i s) s
  let s := on.foldl (fun s i =>
    if candState i s = 0 && (match (s.cand i).present with | some t => decide (t ≤ s.refs.lastEval) | none => false)
    then setCandState i 1 2 s else s) s
  let s := on.foldl (fun s i => testSlope i (testLimits i s)) s
  let s := sysxoSuspect s
  let s := [0, 1].foldl (fun s d =>
    let s := match selOf d s with
      | some i => if s.isF (Reg.rsDSelOnset d) && slopeCalm i s then s.setB (Reg.rsDSelOnset d) false else s
      | none => s
    evaluateFacq d (showWindow d s)) s
  .next (evaluateAll { s with refs := { s.refs with lastEval := s.dtt } })

/-- Whether the newest edge `p` of a PPS input lies more than 1 µs from the instant at which the line through the edges `old` before it expects it. -/
def offExpected (p : RefSample) (old : List RefSample) : Bool :=
  match old with
  | a :: _ :: _ =>
    let pts := old.map (fun q => ((((q.x : Int) - a.x) * 128), q.sys))
    let n : Int := pts.length
    let mx := divRound ((pts.map (·.1)).sum) n
    let my := divRound ((pts.map (·.2)).sum) n
    let slope := lsSlope (2 ^ 48) 1 pts
    decide (65536000 < (p.sys - my - divRound (slope * (((p.x : Int) - a.x) * 128 - mx)) (2 ^ 48)).natAbs)
  | _ => false

/-- Whether candidate `i` is lost now (R274). The instant an edge of a PPS input is expected at the manual does not lay down: DEDUCED (log entry 241), that on
the line through the edges before the three. -/
def lostNow (i : Nat) (s : State) : Bool :=
  let c := s.cand i
  let quiet (ticks16 : Nat) : Bool := match c.samples with | p :: _ => decide (p.x + ticks16 ≤ s.now80) | [] => true
  if i < 4 then quiet (if c.nomFreq = 1000 then 1171875000 * 2 ^ 16 else 4 * timeTk80 (cmpPeriod i s))
  else if i < 6 then
    quiet (1171875000 * 2 ^ 16) || (decide (3 ≤ c.samples.length) && (c.samples.take 3).all (fun p => offExpected p (c.samples.drop 3)))
  else if i < 8 then s.getF (Reg.gnSolStatusState (i - 6)) ≠ 3
  else !s.isF (Reg.sdsStatusRxLock c.linePort) || (decide (2 ≤ c.lineMode) && (spGet Servo.reset s.tt.servos (i - 8)).state = 3)

/-- CANDIDATE_LOST: candidate `cand` is found lost (R274), and its loss takes effect at that instant (R281). -/
def execCandidateLost (cand : Nat) (s : State) : Out := .next (if cand < 16 && lostNow cand s then loseCand cand 1 s else s)

/-- QUAL_TIMER_EXPIRY: a qualification timer has run out and the candidate's limits are tested (R281, R282). -/
def execQualTimerExpiry (cand : Nat) (s : State) : Out :=
  match (s.cand cand).timer with
  | some t =>
    if cand < 16 ∧ t + (s.cand cand).qualS * 781250000 ≤ s.dtt then .next (evaluateAll (testLimits cand s)) else .next s
  | none => .next s

/-- WTR_EXPIRY: the wait-to-restore time has passed, the flag clears and the selector evaluates (R283, R286). -/
def execWtrExpiry (cand : Nat) (s : State) : Out :=
  match (s.cand cand).wtrUntil with
  | some t =>
    if cand < 16 ∧ t ≤ s.dtt then
      .next (evaluateAll ((s.setCand cand { s.cand cand with wtrUntil := none }).setB (Reg.rsCandStatusWtr cand) false))
    else .next s
  | none => .next s

/-! ### Transactions and returns -/

/-- A returning reference with error `e` (R302, R303): slewed in at TB_CFG.RATE when within the slew threshold, otherwise held
under ALIGN_NEEDED with TB_ALIGN_NEEDED (R152). What is left of an earlier return's slew is part of `e` (R293, R322), which takes its place. -/
def returnWith (d : Nat) (e : Int) (s : State) : State :=
  let back := (s.dom d).slewBack
  if e.natAbs ≤ (s.rd d).slewThr * 2 ^ 16 then
    let r := slewRateUsed 0 s
    let s := startSlew d (e - back) r.1 r.2
    s.setDom d { s.dom d with slewBack := e }
  else
    let s := if back = 0 then s else startSlew d (-back) (s.dom d).slewRate s
    let s := s.setDom d { s.dom d with slewBack := 0 }
    let s := (s.setB (Reg.tbDStatusAlignNeeded d) true).setI64 (Reg.tbDAlignErr d) e
    raiseEv (96 + d) 1 0x0203 [(20, leI 8 e)] s

/-- SWITCH_TRANSACTION_START: a selection that waits for spacing or for a served-domain switch begins its transaction (R289,
R290). -/
def execSwitchTransactionStart (d : Nat) (s : State) : Out :=
  if d ≤ 1 ∧ s.isF (Reg.rsDSelQueued d) ∧ !s.isF (Reg.rsDSelTxn d) then .next (evaluate d s) else .next s

/-- SWITCH_TRANSACTION_END: within the lock window on a sample of the new candidate, or 10 ms (7,812,500 ticks) after the start (R288);
e of a TIME candidate is slewed in or held, the state follows R291, and the selector evaluates once (R289). While the served domain's state stands still the
transaction stays (R39). -/
def execSwitchTransactionEnd (d : Nat) (s : State) : Out :=
  match (s.rd d).txn with
  | none => .next s
  | some t =>
    if d ≤ 1 ∧ qcHeld d s = false ∧
        (t.start + 7812500 ≤ s.dtt ∨ (t.settled = true ∧ (s.getI64 (Reg.plDPerr d)).natAbs ≤ (lockWindow d t.target s).1)) then
      let s := (s.setRd d { s.rd d with txn := none }).setB (Reg.rsDSelTxn d) false
      let q := s.qcState d
      let s := if isTime t.target s && (q = 2 || q = 3 || q = 6) && !s.isF (Reg.tbDStatusOpen d) && !followsActive s then
          let s := returnWith d t.e s
          if decide ((lockWindow d t.target s).1 < t.e.natAbs) then setQc d 6 1 s else s
        else s
      .next (evaluate d (gradeLock d s))
    else .next s

/-- FREQUENCY_ACQUIRED: the third evaluation in a row within 10⁻⁹; the domain moves on as R292 lays down (R301 to R303, R321). -/
def execFrequencyAcquired (d : Nat) (s : State) : Out :=
  match selOf d s with
  | none => .next s
  | some i =>
    if d ≤ 1 ∧ s.qcState d = 1 ∧ 3 ≤ (s.rd d).facq ∧ !s.isF (Reg.rsDSelTxn d) ∧ !s.isF (Reg.rsDSelQueued d) ∧ ownState d s then
      let s := s.setB (Reg.plDStatusFacq d) true
      if isTime i s then .next (setQc d 6 1 (returnWith d (meanE d i s) s))
      else .next (gradeLock d (setQc d 2 1 s))
    else .next s

/-- QC_CLASS_UPDATE: the class of both domains is recomputed (R293). -/
def execQcClassUpdate (s : State) : Out := .next (showBound 1 (s.qcState 1) (showBound 0 (s.qcState 0) s))

/-- HOLDOVER_UPDATE: a domain in HOLDOVER whose bound is above the limit, or unknown, passes to HOLDOVER_EXPIRED (R299); while a due
switch waits its state stays (R290). -/
def execHoldoverUpdate (s : State) : Out :=
  .next ([0, 1].foldl (fun s d =>
    if s.qcState d = 4 then
      let passed := match holdoverBound d s with
        | none => true
        | some b => decide ((s.rd d).hoLimit * 2 ^ 16 < b)
      if passed && !s.isF (Reg.rsDSelQueued d) then setQc d 5 3 s else showBound d 4 s
    else s) s)

/-- FLAGS of the larder entry that the running minute gives domain `d` (R295 to R297). -/
def minuteFlags (d : Nat) (s : State) : Nat :=
  let r := s.rd d
  b2n r.minuteOk + 2 * b2n (s.isF (Reg.rsDSelOnset d) || r.minuteOnset) + 4 * b2n r.minuteOnset + 32 * s.qcState d

/-- Mean frequency offset of domain `d` over the running minute. -/
def minuteFfo (d : Nat) (s : State) : Int :=
  let r := s.rd d
  if r.ffoCount = 0 then domFreq d s else divRound r.ffoSum r.ffoCount

/-- A new minute begins for domain `d`. -/
def startMinute (d : Nat) (s : State) : State :=
  s.setRd d { s.rd d with minuteOk := minuteHolds d s, minuteOnset := false, ffoSum := 0, ffoCount := 0 }

/-- LARDER_ENTRY_WRITE: the minute has ended and its entry is written, over the oldest of 2,880 (R295 to R297). -/
def execLarderEntryWrite (s : State) : Out :=
  if (s.refs.minute + 1) * minuteTicks ≤ s.dtt then
    let e : LarderEntry :=
      { minute := s.refs.minute, flagsA := minuteFlags 0 s, flagsB := minuteFlags 1 s, selA := (selOf 0 s).getD 0xFF,
        selB := (selOf 1 s).getD 0xFF, ffoA := minuteFfo 0 s, ffoB := minuteFfo 1 s }
    let n := s.refs.larder.length
    let slot := if n = 0 then 0 else (s.getF Reg.rsLarderInfoNewest + 1) % 2880
    let s := { s with refs := { s.refs with larder := (e :: s.refs.larder).take 2880, minute := s.refs.minute + 1 } }
    let s := (List.range 3).foldl (fun s j => mpWrite (mpWord 8 (3 * slot + j)) s) s
    let s := (s.setF Reg.rsLarderInfoNewest slot).setF Reg.rsLarderInfoCount (min 2880 (n + 1))
    .next (showWindow 1 (showWindow 0 (startMinute 1 (startMinute 0 s))))
  else .next s

/-! ### Samples and lock -/

/-- Whether the served domain's loop takes the twin phase in place of its selection: JOINING or STANDBY with TWCLK present (R576, R577). -/
def twinPhase (d : Nat) (s : State) : Bool :=
  d = s.served && (s.twinState = 2 || s.twinState = 3) && s.isF Reg.twStatusTwclkOk

/-- Whether domain `d`'s loop takes no samples for a switch: during capture, the first 1 ms of a transaction (R25, R288), and while a due switch waits
(R290). That R25's "still inside a switch transaction" means capture is DEDUCED (log entry 242): the transaction ends on the loop's error on the new
candidate. -/
def capturing (d : Nat) (s : State) : Bool :=
  match (s.rd d).txn with
  | some t => decide (s.dtt < t.start + 781250)
  | none => s.isF (Reg.rsDSelQueued d)

/-- Whether the loop of domain `d` follows: the twin phase, or its selection: closed, selected, no capture, no wait for spacing,
in a state that follows (R25, R288, R290, R292). -/
def follows (d : Nat) (s : State) : Bool :=
  twinPhase d s ||
  !s.isF (Reg.tbDStatusOpen d) && hasSelection d s && !capturing d s && [1, 2, 3, 6].contains (s.qcState d)

/-- Comparison rate of candidate `i` in mHz (R320). -/
def cmpRate (i : Nat) (s : State) : Nat := (s.cand i).nomFreq / max 1 (s.cand i).cmpDiv

/-- The effective bandwidth of domain `d` on candidate `i` in mHz: the smaller of BW and f_cmp / 20, ten times that in ACQUIRING, capped at f_cmp / 20 (R320,
R321). -/
def loopBandwidth (d i : Nat) (s : State) : Nat :=
  let cap := cmpRate i s / 20
  let b := min (s.loopCfg d).bw cap
  if s.qcState d = 1 then min (10 * b) cap else b

/-- One phase-error sample `e` passes domain `d`'s proportional-integral filter at bandwidth `bw` and comparison rate `fcmp` (R319); while the servos do not run
it does not (R38). -/
def filterStep (d bw fcmp : Nat) (e : Int) (s : State) : State :=
  if s.dpll.holdStart.isSome || !s.isF Reg.hstStatusFwRun then s
  else
    let g := Config.loopGain bw (s.loopCfg d).damp fcmp
    s.setDom d { s.dom d with integ := (s.dom d).integ + g.2 * e, prop := g.1 * e }

/-- The output of domain `d`'s filter, in 2⁻⁴⁸. -/
def filterOut (d : Nat) (s : State) : Int := ((s.dom d).integ + (s.dom d).prop) / 2 ^ 32

/-- The part of e_loop that the loop does not act on: the phase held under ALIGN_NEEDED (R303), or what is left of a returning reference's slew, which moves at the
slew rate (R302). -/
def heldPhase (d : Nat) (s : State) : Int :=
  if s.isF (Reg.tbDStatusAlignNeeded d) then s.getI64 (Reg.tbDAlignErr d) else (s.dom d).slewBack

/-- A phase sample of the selected candidate reaches the loop of domain `d` (R25, R319, R322): e_loop, the lock count and the count
beyond four windows, and the loop filter. In capture, while a due switch waits and with an open loop the loop takes none. -/
def loopSample (d i : Nat) (x : Nat) (e0 : Int) (s : State) : State :=
  if selOf d s ≠ some i ∨ s.isF (Reg.tbDStatusOpen d) ∨ capturing d s = true then s
  else
    let r := s.rd d
    let e := if isTime i s then e0 else reducePhase (e0 - r.buildout) (cmpPeriod i s)
    let e := clampI (-(2 ^ 63)) (2 ^ 63 - 1) e
    let s := if twinPhase d s then s else s.setI64 (Reg.plDPerr d) e
    let w := (lockWindow d i s).1
    let s := if e.natAbs ≤ w then s.addSat (Reg.plDStatusCount d) 1 else s.setF (Reg.plDStatusCount d) 0
    let l := (x / 2 ^ 16, e) :: r.loopE
    let keep := (List.range l.length).filter (fun k => decide (k < 8) || decide (s.dtt ≤ (l.getD k (0, 0)).1 + 781250000))
    let s := s.setRd d { s.rd d with outCount := if 4 * w < e.natAbs then r.outCount + 1 else 0,
                                     txn := r.txn.map (fun t => { t with settled := true }),
                                     loopE := keep.map (fun k => l.getD k (0, 0)) }
    if follows d s && !twinPhase d s then filterStep d (loopBandwidth d i s) (cmpRate i s) (e - heldPhase d s) s else s

/-- The reference time of candidate `i` for domain `d` at TK80 instant `x`, in 2⁻¹⁶ ns: a mark of one second stands on a whole
second, which a TOD label of PPSIN0 names and the domain's own count gives otherwise (R333); every other candidate's is
measured as `t`. The domain's own count is taken less its setpoint, so that a step, which moves both, leaves the mark on its second (R144). -/
def refTime (i d x : Nat) (t : Int) (s : State) : Int :=
  let sec : Int := 10 ^ 9 * 2 ^ 16
  match (if i = 4 then s.dpll.todLabel else none) with
  | some l => (l.1 + divRound (((x : Int) - l.2) * 128) (10 ^ 11 * 2 ^ 16)) * sec
  | none => if i = 4 ∨ i = 5 ∨ (i < 4 ∧ isTime i s) then divRound (s.timeAt d x - (s.dom d).setpoint) sec * sec else t

/-- The phase error that a reference time `t` of candidate `i` at TK80 instant `x` gives domain `d`'s loop (R144, R301). -/
def errorOf (i d x : Nat) (t : Int) (s : State) : Int := refTime i d x t s + (s.dom d).setpoint - s.timeAt d x

/-- A phase sample of candidate `i` at TK80 instant `x` reaches its monitor (R276): `sys` is its phase against SYSXO, `t` its
reference time, both in 2⁻¹⁶ ns. -/
def monitorSample (i x : Nat) (sys t : Int) (s : State) : State :=
  let c := s.cand i
  let kept := ((⟨x, sys, errorOf i 0 x t s, errorOf i 1 x t s⟩ : RefSample) :: c.samples).filter (fun p => decide (x ≤ p.x + 7812500000 * 2 ^ 16))
  s.setCand i { c with present := (match c.present with | some t => some t | none => some s.dtt), samples := kept }

/-- A phase sample of candidate `i` reaches its monitor and the loops that follow it (R25, R276). -/
def refSample (i x : Nat) (sys t : Int) (s : State) : State :=
  if candState i s = 7 then s
  else
    let eA := errorOf i 0 x t s
    let eB := errorOf i 1 x t s
    let s := monitorSample i x sys t s
    let s := if i = 4 then { s with dpll := { s.dpll with ppsEdge := some x } } else s
    loopSample 1 i x eB (loopSample 0 i x eA s)

/-- REFERENCE_SAMPLE: a phase-error sample reaches its monitor and the loop (R25). -/
def execReferenceSample (cand x : Nat) (sys t : Int) (s : State) : Out := .next (if cand < 16 then refSample cand x sys t s else s)

/-- Whether domain `d`'s lock test holds: the count of comparisons within the window is complete, with no slew of a return and no held phase left and no due
switch waiting (R290, R303, R322). -/
def lockTest (d i : Nat) (s : State) : Bool :=
  decide ((lockWindow d i s).2 ≤ s.getF (Reg.plDStatusCount d)) && !s.isF (Reg.tbDStatusAlignNeeded d) && (s.dom d).slewBack = 0 &&
    !(s.isF (Reg.rsDSelQueued d) && !s.isF (Reg.rsDSelTxn d))

/-- DPLL_LOCK: the lock test holds (R322), and CONVERGING ends, also where the DPLL had declared lock before it began (R292). -/
def execDpllLock (d : Nat) (s : State) : Out :=
  match selOf d s with
  | none => .next s
  | some i =>
    if d ≤ 1 ∧ lockTest d i s = true then
      let s := if s.isF (Reg.plDStatusLock d) then s
        else raiseEv 98 0 0x0503 [(20, le 1 d), (21, le 1 1), (24, leI 8 (s.getI64 (Reg.plDPerr d)))] (s.setB (Reg.plDStatusLock d) true)
      .next (if s.qcState d = 6 then gradeLock d (setQc d 2 1 s) else s)
    else .next s

/-- DPLL_LOCK_LOSS: |e_loop| beyond four windows for a sixteenth of the count, rounded up; the QC state stays (R323). -/
def execDpllLockLoss (d : Nat) (s : State) : Out :=
  match selOf d s with
  | none => .next s
  | some i =>
    if d ≤ 1 ∧ s.isF (Reg.plDStatusLock d) ∧ ((lockWindow d i s).2 + 15) / 16 ≤ (s.rd d).outCount then .next (dropLock d s)
    else .next s

/-! ### Quality levels received -/

/-- ESMC_PDU_RX: an ESMC PDU on `port` passes its quality level to every line reference that uses the port (R261, R308). -/
def execEsmcPduRx (port ql : Nat) (s : State) : Out :=
  let ls := (List.range 16).filter (fun i => decide (8 ≤ i) && portOf (s.cand i).linePort s = portOf port s && (s.cand i).lineMode ≠ 0)
  if ls = [] then .next s
  else .next (evaluateAll (ls.foldl (fun s i =>
    s.setF (Reg.rsCandStatusQl i) ql) s))

/-- The quality level port `port` sends for the served domain (R308). -/
def qlSent (port : Nat) (s : State) : Nat :=
  let q := s.qcState s.served
  match selOf s.served s with
  | some i =>
    if 8 ≤ i ∧ ((s.cand i).lineMode = 1 ∨ (s.cand i).lineMode = 2) ∧ portOf (s.cand i).linePort s = portOf port s then 15
    else if q = 2 ∨ q = 6 then s.getF (Reg.rsCandStatusQl i)
    else if q = 1 ∨ q = 7 then 15 else 11
  | none => if q = 1 ∨ q = 7 then 15 else 11

/-! ### The served-domain switch -/

/-- The instant that the mirror has brought for the held command (R578). -/
def heldInstant (s : State) : Option Nat :=
  s.mbx.held.bind (fun h => if h.cmd.src = .mirror then h.mirror.bind (fun n => (s.tw.mirrors.find? (fun m => decide (m.seq = n))).bind (·.instant)) else none)

/-- Whether the waiting switch acts now: at the active's instant where a mirrored command carries one (R578), otherwise at a 1 ms servo
boundary with neither domain inside a transaction (R154). -/
def switchNow (s : State) : Bool :=
  match heldInstant s with
  | some x => decide (x ≤ s.dtt)
  | none => !inTransaction 0 s && !inTransaction 1 s && decide (s.tb.lastServo = s.dtt)

/-- SERVED_SWITCH: at its instant the waiting switch is tested and takes place, or is refused for the bound; its command completes (R154
to R156), and the selections it held back are queued. -/
def execServedSwitch (s : State) : Out :=
  match s.tb.switchReq with
  | none => .next s
  | some q =>
    if !switchNow s then .next s
    else
      let tested := switchTested q.domain s.now80 s
      let s := { (s.setB Reg.tbStateSwitching false) with tb := { s.tb with switchReq := none } }
      if beyondSeamless tested s && !q.realign then
        .next (resumeHeld ⟨stRefused, 0x0201, resultOf [(32, leI 8 tested)], []⟩ s)
      else
        let old := s.qcState s.served
        let s := switchServed q.domain q.realign s
        let s := if s.qcState s.served = old then s else s.raiseBit Reg.hstIrqStatusQcChg
        let s := tstatFollow (outsRefresh (noteQuality s))
        .next (resumeHeld (okWith [(32, leI 8 tested), (40, le 8 s.dtt), (48, le 4 (s.stepc q.domain))]) s)

/-! ### Commands -/

/-- CAND in payload byte 0: 0 to 15. -/
def badCand (c : Cmd) : Nat × Bool := (0, decide (15 < cu c 0 1))

/-- The nominal frequency RS_SET_PRIORITY leaves candidate CAND with, in mHz. -/
def newNom (c : Cmd) (s : State) : Nat := if cu c 8 8 = 0 then (s.cand (cu c 0 1)).nomFreq else cu c 8 8

def rsSetPrioritySpec : CmdSpec :=
  { opcode := 0x0401, urgent := true, lenOk := lenIs 16,
    args := fun c s =>
      let i := cu c 0 1
      let line := decide (8 ≤ i)
      let own := i = 6 || i = 7 || (line && decide (2 ≤ (s.cand i).lineMode))
      firstBad (badCand c :: (1, decide (15 < cu c 1 1)) :: (2, decide (15 < cu c 2 1)) ::
        (3, decide (3 < cu c 3 1) || (cbit c 3 0 && decide (3 < i))) :: (4, !line && decide (15 < cu c 4 1)) ::
        (5, !own && decide (31 < cu c 5 1)) ::
        (8, (decide (3 < i) && cu c 8 8 ≠ 0) ||
          (decide (i ≤ 3) && cu c 8 8 ≠ 0 && (decide (cu c 8 8 < 1000) || decide (800000000000 < cu c 8 8))) ||
          (cbit c 3 0 && newNom c s ≠ 1000)) :: reserved c 6 2),
    stops := fun c s =>
      let k := s.cand (cu c 0 1)
      firstStop [(decide (8 ≤ cu c 0 1) && decide (2 ≤ k.lineMode) && (cu c (2 - k.lineDomain) 1 ≠ 0), stRefused, 0x0403)] }

/-- Whether candidate `i` is enabled: a priority in a domain, and for a line reference a mode (R275). -/
def candEnabled (i : Nat) (s : State) : Bool :=
  (prio 0 i s ≠ 0 || prio 1 i s ≠ 0) && (decide (i < 8) || (s.cand i).lineMode ≠ 0)

/-- DISABLED and LOST follow priorities and the line reference's mode (R275, R281). -/
def candEnable (i : Nat) (s : State) : State :=
  if !candEnabled i s then setCandState i 7 7 s
  else if candState i s = 7 then
    setCandState i 0 7 (s.setCand i { s.cand i with wasLost := false })
  else s

/-- The effect of RS_SET_PRIORITY (R275, R283). -/
def rsSetPriorityEffect (c : Cmd) (s : State) : State × Reply :=
  let i := cu c 0 1
  let k := s.cand i
  let nom := newNom c s
  let changed := decide (i < 4) && (nom ≠ k.nomFreq || cbit c 3 0 ≠ k.timeKind)
  let s := (s.setF (Reg.rsCandStatusPrioA i) (cu c 1 1)).setF (Reg.rsCandStatusPrioB i) (cu c 2 1)
  let s := s.setB (Reg.rsCandStatusNonrev i) (cbit c 3 1)
  let k := { k with accK := cu c 5 1 % 32 }
  let k := if i < 4 then { k with timeKind := cbit c 3 0, nomFreq := nom, cmpDiv := max 1 ((nom + 10 ^ 9 - 1) / 10 ^ 9) } else k
  let s := s.setCand i k
  let s := if i < 8 then s.setF (Reg.rsCandStatusQl i) (cu c 4 1) else s
  let s := if i = 6 ∨ i = 7 ∨ 2 ≤ k.lineMode then s else s.setF (Reg.rsCandStatusAccK i) (cu c 5 1)
  let s := s.setB (Reg.rsCandStatusKind i) (isTime i s)
  let s := if changed && candState i s ≠ 7 then setCandState i 0 7 s else s
  (evaluateAll (candEnable i s), okReply)

/-- RS_SET_PRIORITY. -/
def execRsSetPriority (c : Cmd) (s : State) : Out := runCmd rsSetPrioritySpec rsSetPriorityEffect c s

def rsSetLimitsSpec : CmdSpec :=
  { opcode := 0x0402, lenOk := lenIs 20,
    args := fun c _ => firstBad (badCand c :: (4, cu c 4 4 = 0) :: (8, cu c 8 4 = 0 || decide (cu c 12 4 ≤ cu c 8 4)) ::
      (16, cu c 16 2 = 0 || decide (3600 < cu c 16 2)) :: (18, decide (3600 < cu c 18 2)) :: reserved c 1 3) }

/-- The effect of RS_SET_LIMITS (R279, R282, R283): in force from the next evaluation; a WTR flag that stands ends by the new time, at once where that is 0. -/
def rsSetLimitsEffect (c : Cmd) (s : State) : State × Reply :=
  let i := cu c 0 1
  let k := s.cand i
  let wtr := cu c 18 2
  let until_ := if wtr = 0 then none else k.wtrUntil.map (fun t => t - k.wtrS * 781250000 + wtr * 781250000)
  let s := s.setCand i { k with drift := cu c 4 4, soft := cu c 8 4, hard := cu c 12 4, qualS := cu c 16 2, wtrS := wtr, wtrUntil := until_ }
  (evaluateAll (if wtr = 0 then s.setB (Reg.rsCandStatusWtr i) false else s), okReply)

/-- RS_SET_LIMITS. -/
def execRsSetLimits (c : Cmd) (s : State) : Out := runCmd rsSetLimitsSpec rsSetLimitsEffect c s

def rsSetTimersSpec : CmdSpec :=
  { opcode := 0x0403, lenOk := lenIs 20,
    args := fun c _ => firstBad (badDomain c :: reservedAbove c 1 1 :: (4, cu c 4 4 = 0 || decide (1000000 < cu c 4 4)) ::
      (8, decide (1000000 < cu c 8 4)) :: reserved c 2 2) }

/-- The effect of RS_SET_TIMERS (R285, R299, R302). -/
def rsSetTimersEffect (c : Cmd) (s : State) : State × Reply :=
  let d := cu c 0 1
  (evaluateAll (s.setRd d { s.rd d with qlMode := cbit c 1 0, hoLimit := cu c 4 4, slewThr := cu c 8 4, hoFreq := cu c 12 4,
                                        hoAging := cu c 16 4 }), okReply)

/-- RS_SET_TIMERS. -/
def execRsSetTimers (c : Cmd) (s : State) : Out := runCmd rsSetTimersSpec rsSetTimersEffect c s

def rsForceSpec : CmdSpec :=
  { opcode := 0x0404, urgent := true, lenOk := lenIs 4,
    args := fun c _ => firstBad (badDomain c :: (1, decide (15 < cu c 1 1) && cu c 1 1 ≠ 0xFF) :: reserved c 2 2),
    stops := fun c s => firstStop [(cu c 1 1 ≠ 0xFF && !eligibleForced (cu c 0 1) (cu c 1 1) s, stRefused, 0x0401)] }

/-- The effect of RS_FORCE (R287). -/
def rsForceEffect (c : Cmd) (s : State) : State × Reply :=
  let d := cu c 0 1
  let f := if cu c 1 1 = 0xFF then none else some (cu c 1 1)
  let s := (s.setRd d { s.rd d with force := f }).setB (Reg.rsDSelForced d) f.isSome
  (evaluate d s, okReply)

/-- RS_FORCE. -/
def execRsForce (c : Cmd) (s : State) : Out := runCmd rsForceSpec rsForceEffect c s

def rsStatusSpec : CmdSpec :=
  { opcode := 0x0405, urgent := true, unmirrored := true, reports := true, lenOk := lenIs 4,
    args := fun c _ => firstBad (badDomain c :: reserved c 1 3) }

/-- The effect of RS_STATUS; SINCE before any switch has begun is a value the manual does not state. -/
def rsStatusEffect (c : Cmd) (s : State) : State × Reply :=
  let d := cu c 0 1
  let r := s.rd d
  let f := s.draw
  let since := match r.lastTxn with | some t => sat (2 ^ 32 - 1) ((s.dtt - t) / 781250) | none => f.1 % 2 ^ 32
  let flags := b2n (s.isF (Reg.rsDSelForced d)) + 2 * b2n (s.isF (Reg.rsDSelTxn d)) + 4 * b2n (s.isF (Reg.rsDSelQueued d)) +
    8 * b2n (s.isF (Reg.rsDSelHoWindow d)) + 16 * b2n (s.isF (Reg.rsDSelOnset d)) + 32 * b2n (s.isF (Reg.tbDStatusOpen d)) +
    64 * b2n (s.isF (Reg.tbDStatusAlignNeeded d))
  (if r.lastTxn.isSome then s else f.2,
    okWith [(32, le 1 (s.qc d)), (33, le 1 ((selOf d s).getD 0xFF)), (34, le 1 flags), (35, le 1 (s.getF (Reg.rsDSelHoEntries d))),
      (36, le 2 (maskOf ((List.range 16).filter (fun i => eligible d i s)))),
      (38, le 2 (maskOf ((List.range 16).filter (fun i => s.isF (Reg.rsCandStatusWtr i))))), (40, le 8 (s.get64 (Reg.rsDBound d))),
      (48, le 8 (s.get64 (Reg.rsDHoFfo d))), (56, le 4 since), (60, le 4 r.switches)])

/-- RS_STATUS. -/
def execRsStatus (c : Cmd) (s : State) : Out := runCmd rsStatusSpec rsStatusEffect c s

/-- The 24 bytes of a larder entry (R295). -/
def LarderEntry.encode (e : LarderEntry) : Bytes :=
  record 24 [(0, le 4 e.minute), (4, le 1 e.flagsA), (5, le 1 e.flagsB), (6, le 1 e.selA), (7, le 1 e.selB), (8, leI 8 e.ffoA),
    (16, leI 8 e.ffoB)]

def rsLarderReadSpec : CmdSpec :=
  { opcode := 0x0406, stepped := true, unmirrored := true, reports := true, lenOk := lenIs 4,
    args := fun c _ => firstBad [(2, decide (2880 < cu c 2 2))],
    stops := fun _ s => firstStop [((s.mbx.longOp.map (·.opcode)) = some 0x0406, stBusy, 0)] }

/-- One step of RS_LARDER_READ: up to 16 entries, newest first, until COUNT, the larder or the buffer ends (R98, R295). -/
def larderStep (o : LongOp) (s : State) : State × StepEnd :=
  let c := o.cmd
  let n := o.acc.length / 24
  let room := c.bufSize / 24 - n
  let k := min 16 (min room (cu c 2 2 - n))
  let s := readLarder ((List.range k).map (· + (cu c 0 2 + n))) s
  let es := ((s.refs.larder.drop (cu c 0 2 + n)).take k).map (·.encode)
  let acc := o.acc ++ es.flatten
  if es.length = 16 ∧ n + 16 < cu c 2 2 then (s, .more { o with acc := acc, estimate := (cu c 2 2 + 15) / 16 })
  else (s, .done (okBuf [] acc))

/-- RS_LARDER_READ. -/
def execRsLarderRead (c : Cmd) (s : State) : Out := runStepped rsLarderReadSpec larderStep c s

def rsOpenLoopSpec : CmdSpec :=
  { opcode := 0x0407, urgent := true, lenOk := lenIs 4,
    args := fun c _ => firstBad (badDomain c :: (1, decide (1 < cu c 1 1)) :: reserved c 2 2),
    stops := fun c s => firstStop [(s.qcState (cu c 0 1) = 7, stRefused, 0x0404)] }

/-- The effect of RS_OPEN_LOOP (R305, R307). -/
def rsOpenLoopEffect (c : Cmd) (s : State) : State × Reply :=
  let d := cu c 0 1
  if cu c 1 1 = 1 then
    if s.isF (Reg.tbDStatusOpen d) then (s, okReply)
    else
      let r := s.rd d
      let s := s.setRd d { r with b0 := r.bound, hoStart := s.dtt, hoValue := domFreq d s, steer := 0, loopE := [], facq := 0 }
      let s := dropLock d (s.setB (Reg.tbDStatusOpen d) true)
      let s := s.setB (Reg.plDStatusFacq d) false
      (if s.qcState d = 4 then checkMinute d (showBound d 4 s) else setQc d 4 4 s, okReply)
  else if s.isF (Reg.tbDStatusOpen d) then
    let r := s.rd d
    let s := (s.setRd d { r with steer := 0 }).setB (Reg.tbDStatusOpen d) false
    let s := takeFreq d r.hoValue s
    let s := if (selOf d s).isSome then setQc d 1 4 s else s
    (evaluate d s, okReply)
  else (s, okReply)

/-- RS_OPEN_LOOP. -/
def execRsOpenLoop (c : Cmd) (s : State) : Out := runCmd rsOpenLoopSpec rsOpenLoopEffect c s

def rsSteerSpec : CmdSpec :=
  { opcode := 0x0408, urgent := true, lenOk := lenIs 12,
    args := fun c _ => firstBad (badDomain c :: reserved c 1 3),
    stops := fun c s => firstStop
      [(cu c 0 1 ≠ s.served || !s.isF (Reg.tbDStatusOpen (cu c 0 1)), stRefused, 0x0402)] }

/-- The effect of RS_STEER (R306): the clamped offset applies at the next servo update. -/
def rsSteerEffect (c : Cmd) (s : State) : State × Reply :=
  let d := cu c 0 1
  let v := steerClamp (ci c 4 8) s
  (v.2.setRd d { v.2.rd d with steer := v.1 }, okWith [(32, leI 8 v.1)])

/-- RS_STEER. -/
def execRsSteer (c : Cmd) (s : State) : Out := runCmd rsSteerSpec rsSteerEffect c s

end Sys2Proof.Machine
end

