-- ==== Sys2Proof/Machine/TimeTransfer.lean ====
section
/-! DEFINITION. Time transfer over fibre: the session engine (R238 to R255), session records (R271), line references and servos
(R260 to R263, R267), phase-continuous link mode (R264 to R268), ESMC (R308), and the commands of group 0x03. -/

set_option Elab.async false

namespace Sys2Proof.Machine

/-! ### Sessions -/

/-- Source number of a session's events: its port, or port 4k at 100GBASE-R (R272). -/
def Session.source (x : Session) (s : State) : Nat := portOf x.port s

/-- Session `k` passes to state `st` for `cause` (R242): TT_SESSION_STATE, and TT_ENGINE_STATUS.ENABLED. -/
def setTtState (k st cause : Nat) (s : State) : State :=
  let old := ttState k s
  if old = st then s
  else
    let s := s.setF (Reg.ttSStateState k) st
    let n := (s.getF Reg.ttEngineStatusEnabled : Int) + (if old = 0 then 1 else 0) - (if st = 0 then 1 else 0)
    let s := s.setF Reg.ttEngineStatusEnabled n.toNat
    raiseEv ((s.session k).source s) 0 0x0301 [(20, le 2 k), (22, le 1 old), (23, le 1 st), (24, le 1 cause)] s

/-- Servo `n`. -/
def State.servo (s : State) (n : Nat) : Servo := spGet Servo.reset s.tt.servos n

/-- The state with servo `n` replaced. -/
def State.setServo (s : State) (n : Nat) (x : Servo) : State := { s with tt := { s.tt with servos := spSet Servo.reset s.tt.servos n x } }

/-- The tracker of session `k` resets: its changes are 0, and the raw offsets its servos keep count as they were measured (R267, R268). -/
def trackerReset (k : Nat) (s : State) : State :=
  let s := s.setSession k { s.session k with entry := none, dSigma := 0, dD := 0, validRun := 0 }
  (List.range 8).foldl (fun s n =>
    let v := s.servo n
    if 2 ≤ v.mode ∧ v.session = k then
      s.setServo n { v with hist := v.hist.map (fun h => (h.1, 0)), dHist := v.dHist.map (fun h => (h.1, 0)) }
    else s) s

/-- A session leaves PHASE for RUNNING (R242): the tracker's changes go, its history stays (R267). -/
def leavePhase (k cause : Nat) (s : State) : State :=
  if ttState k s = 3 then
    setTtState k 2 cause (trackerReset k s)
  else s

/-- The numbers of the sessions on a port. -/
def sessionsOn (p : Nat) (s : State) : List Nat := (s.tt.sessions.filter (fun e => e.2.port = p)).map (·.1)

/-- Sessions follow their port's link (R242). -/
def ttLink (p : Nat) (up : Bool) (s : State) : State :=
  (sessionsOn p s).foldl (fun s k =>
    if up then (if ttState k s = 1 then setTtState k 2 2 s else s)
    else if 2 ≤ ttState k s then setTtState k 1 2 (trackerReset k s)
    else s) s

/-- A new latency report of a port ends the PHASE of its sessions (R242). -/
def ttLatSeq (p : Nat) (s : State) : State := (sessionsOn p s).foldl (fun s k => leavePhase k 4 s) s

/-- The phase ψ of a lane restarts at its receiver lock (R264). -/
def psiRestart (lane : Nat) (s : State) : State := { s with tt := { s.tt with psi := spSet none s.tt.psi lane none } }

/-! ### Rates -/

/-- TX_RATE and RX_RATE take the counts of a whole second of DTT that has ended. -/
def rollRates (s : State) : State :=
  let sec := s.dtt / 781250000
  if sec = s.tt.rateSec then s
  else
    let last : Bool := sec = s.tt.rateSec + 1
    let s := s.setF Reg.ttEngineStatusTxRate (if last then sat 0xFFFF s.tt.rateTx else 0)
    let s := s.setF Reg.ttEngineLoadRxRate (if last then s.tt.rateRx else 0)
    { s with tt := { s.tt with rateSec := sec, rateTx := 0, rateRx := 0 } }

/-- Event messages that session `k` has sent in this second of DTT: those it originated and its answers (R243). -/
def sentNow (k : Nat) (s : State) : Nat :=
  let sec := s.dtt / 781250000
  let x := s.session k
  (if x.originated.1 = sec then x.originated.2 else 0) + (if x.sentIn.1 = sec then x.sentIn.2 else 0)

/-- Session `k` originates an event message: it counts in this second of DTT (R243). -/
def ttOriginate (k : Nat) (s : State) : State :=
  let sec := s.dtt / 781250000
  let x := s.session k
  s.setSession k { x with originated := (sec, (if x.originated.1 = sec then x.originated.2 else 0) + 1) }

/-- Session `k` has transmitted an event message. -/
def ttSentEvent (k : Nat) (s : State) : State :=
  let s := rollRates s
  { s.addWrap (Reg.ttSTxcnt k) 1 with tt := { (s.addWrap (Reg.ttSTxcnt k) 1).tt with rateTx := s.tt.rateTx + 1 } }

/-- A message of session `k` is discarded for R244: TT_S_DROP, and TT_RATE_DROP at most once a second. -/
def ttRateDrop (k : Nat) (s : State) : State :=
  let s := s.addWrap (Reg.ttSDrop k) 1
  let x := s.session k
  let n := x.dropNew + 1
  let quiet : Bool := match x.dropAt with | none => true | some t => decide (t + 781250000 ≤ s.dtt)
  if quiet then
    raiseEv (x.source s) 1 0x0302 [(20, le 2 k), (24, le 4 n)] (s.setSession k { x with dropNew := 0, dropAt := some s.dtt })
  else s.setSession k { x with dropNew := n }

/-- Whether session `k` accepts an event message now (R244), and the state that has counted it. -/
def ttAccept (k : Nat) (s : State) : Bool × State :=
  let sec := s.dtt / 781250000
  let x := s.session k
  let n := if x.gotIn.1 = sec then x.gotIn.2 else 0
  if 256 ≤ n then (false, ttRateDrop k s)
  else
    let s := rollRates (s.setSession k { x with gotIn := (sec, n + 1) })
    (true, { s.addWrap (Reg.ttSRxcnt k) 1 with tt := { (s.addWrap (Reg.ttSRxcnt k) 1).tt with rateRx := s.tt.rateRx + 1 } })

/-- A rate of 2^−log per second in 1/64. -/
def rate64 (l : Int) : Nat := if l ≤ 0 then 64 * 2 ^ l.natAbs else 64 / 2 ^ l.toNat

/-- The rate of event messages a session originates, in 1/64 per second (R243). -/
def originates (x : Session) : Nat :=
  (if x.role = 1 then rate64 (x.log 8) else 0) +
  (if (x.role = 2 && !x.flag 1) || x.peers then rate64 (x.log 9) else 0)

/-- Whether session `k` may answer one more Pdelay_Req in this second (R243), and the state that has counted it. -/
def ttAnswer (k : Nat) (s : State) : Bool × State :=
  let sec := s.dtt / 781250000
  let x := s.session k
  let n := if x.sentIn.1 = sec then x.sentIn.2 else 0
  if 8192 < (n + 1) * 64 + originates x ∨ 128 ≤ sentNow k s then (false, s.addWrap (Reg.ttSDrop k) 1)
  else (true, s.setSession k { x with sentIn := (sec, n + 1) })

/-! ### Messages -/

/-- A time in 2⁻¹⁶ ns as a PTP timestamp: seconds and whole nanoseconds. -/
def ptpStamp (v : Int) : Bytes :=
  let ns := v.toNat / 2 ^ 16
  be 6 (ns / 10 ^ 9) ++ be 4 (ns % 10 ^ 9)

/-- The fraction of a nanosecond that a PTP timestamp leaves. -/
def ptpFrac (v : Int) : Int := v % 2 ^ 16

/-- The time of a PTP timestamp at offset `o` of a message, in 2⁻¹⁶ ns. -/
def stampField (m : Bytes) (o : Nat) : Int := (fb m o 6 * 10 ^ 9 + fb m (o + 6) 4 : Nat) * 2 ^ 16

/-- correctionField of a message. -/
def corrField (m : Bytes) : Int := sext 64 (fb m 8 8)

/-- A PTP message of session `x` (IEEE 1588-2019): type, first flag octet, correctionField, sequenceId, logMessageInterval, body. -/
def ptpMessage (x : Session) (t flags0 : Nat) (corr : Int) (seq logI : Nat) (body : Bytes) : Bytes :=
  let ctl := if t = 0 then 0 else if t = 1 then 1 else if t = 8 then 2 else if t = 9 then 3 else 5
  record (34 + body.length)
    [(0, le 1 (t + 16 * x.field 11 1)), (1, le 1 0x12), (2, be 2 (34 + body.length)), (4, le 1 (x.field 6 1)), (5, le 1 (x.field 12 1)),
     (6, le 1 (flags0 + 4 * b2n (x.flag 3))), (8, be 8 (twos 64 corr)), (20, x.portId), (30, be 2 seq), (32, le 1 ctl), (33, le 1 logI),
     (34, body)]

/-- Sum of 16-bit words as an Internet checksum. -/
def inetSum (d : Bytes) : Nat := 65535 - fold16 (fold16 (wordSum d))

/-- A session's message in its transport, FCS included (R246, R247): Ethernet, UDP/IPv4 with no UDP checksum, or UDP/IPv6 with two
octets after the message. -/
def ptpFrame (x : Session) (m : Bytes) (s : State) : Bytes :=
  let w := s.swPort x.port
  let t := fb m 0 1 % 16
  let pd : Bool := t = 2 || t = 3 || t = 10
  let zero (o n : Nat) : Bool := x.field o n = 0
  let dmac := if zero 16 6 then (if pd then be 6 0x0180C200000E else be 6 0x011B19000000) else slice x.desc 16 6
  let udpPort := if t < 4 then 319 else 320
  let ttl := if pd then 1 else 64
  let tos := x.field 13 1 % 64 * 4
  let tr := x.field 4 1
  let etype := if tr = 0 then 0x88F7 else if tr = 1 then 0x0800 else 0x86DD
  let body :=
    if tr = 0 then m
    else if tr = 1 then
      let dst := if zero 24 16 then (if pd then be 4 0xE000006B else be 4 0xE0000181) else slice x.desc 24 4
      let h := [0x45] ++ le 1 tos ++ be 2 (28 + m.length) ++ be 4 0 ++ le 1 ttl ++ [17] ++ be 2 0 ++ be 4 w.ipv4 ++ dst
      put h 10 (be 2 (inetSum h)) ++ be 2 udpPort ++ be 2 udpPort ++ be 2 (8 + m.length) ++ be 2 0 ++ m
    else
      let dst := if zero 24 16 then (if pd then be 16 (0xFF02 * 2 ^ 112 + 0x6B) else be 16 (0xFF0E * 2 ^ 112 + 0x181)) else slice x.desc 24 16
      let n := 10 + m.length
      let u := be 2 udpPort ++ be 2 udpPort ++ be 2 n ++ be 2 0 ++ m ++ [0, 0]
      let c := inetSum (be 16 w.ipv6 ++ dst ++ be 4 n ++ be 4 17 ++ u)
      be 4 (6 * 2 ^ 28 + tos * 2 ^ 20) ++ be 2 n ++ [17] ++ le 1 ttl ++ be 16 w.ipv6 ++ dst ++ put u 6 (be 2 (if c = 0 then 65535 else c))
  let vt := x.field 14 2
  let tag := if x.flag 4 then be 2 0x8100 ++ be 2 vt else []
  let d := dmac ++ be 6 w.mac ++ tag ++ be 2 etype ++ body
  let d := d ++ List.replicate (60 - d.length) 0
  d ++ fcsOf d

/-- A frame the engine sends on a port: counted and captured as any frame that leaves, and kept as sent, with the errors injected into its line code (R226).
Its stamp goes to its session (R189). -/
def ttSend (port : Nat) (data : Bytes) (e : Nat) (inv : Bool) (s : State) : State :=
  let f := { mkFrame 49 data s.now80 (!s.innerLocked) s with whole := true }
  let s := { s with tt := { s.tt with out := s.tt.out ++ [(port, data)] }, sw := { s.sw with sent := spSet [] s.sw.sent port data } }
  captureFrame (capItem 2 port f data false false e inv 0 port s) (countTx port data.length false (injectSent port s))

/-- The step counter of domain `d` at a received message. -/
def PtpRx.stepc (r : PtpRx) (d : Nat) : Nat := if d = 0 then r.stepA else r.stepB

/-! ### Session records -/

/-- A record is written to its ring with PHASE and with LOSS where records have been discarded since the last one; TT_REC_LOSS then
says how many (R75, R271, R272). -/
def recWrite (b : Bytes) (s : State) : State :=
  let lost := s.tt.recLost
  let s := { s with tt := { s.tt with recLost := 0 } }
  let s := ringPut ttRing (fun ph => place b 3 (le 1 ((b.getD 3 0).toNat + b2n ph + 4 * b2n (lost ≠ 0)))) s
  if lost = 0 then s
  else raiseEv ((s.session (ofLe (slice b 0 2))).source s) 1 0x0305 [(20, slice b 0 2), (24, le 4 lost)] s

/-- Waiting records go to the ring in order while it has room (R73); `n` bounds them. -/
def recDrain : Nat → State → State
  | 0, s => s
  | n + 1, s =>
    if ringUsable ttRing s && !ringFull ttRing s then
      match s.tt.recs with
      | [] => s
      | b :: r => recDrain n (recWrite b { s with tt := { s.tt with recs := r } })
    else s

/-- A record passes to the ring, waits with at most 511 others, or is discarded (R73, R75). -/
def recPass (b : Bytes) (s : State) : State :=
  let s := recDrain 513 s
  if s.tt.recs = [] && ringUsable ttRing s && !ringFull ttRing s then recWrite b s
  else if s.tt.recs.length < 512 then { s with tt := { s.tt with recs := s.tt.recs ++ [b] } }
  else { s with tt := { s.tt with recLost := s.tt.recLost + 1 } }

/-- Session `k` writes a record of a completed set (R271): `ta` and `tb` its stamps as times, one or both, and `own` that of its own stamps which decides
the domain served, the step counter and with `qc` the QC of the record (R160). In SIGNED mode a base record goes ahead where one is due, each stamp compared
with the base (R138). -/
def ttRecord (k kind : Nat) (bad : Bool) (seq : Nat) (ta : Int) (tb : Option Int) (corr : Int) (own qc : Nat) (s : State) : State :=
  if !(s.session k).flag 5 then s
  else
    let d := s.servedAt own
    let fl := 8 * d + 16 * b2n (ttState k s = 3)
    let t := s.servedTime own
    let ns (v : Int) : Nat := v.toNat / 2 ^ 16
    let step := le 2 (s.stepcAt d own)
    let s := if needsBase 4 1024 (ns ta :: (tb.toList.map ns)) s then
        noteBase 1024 (ns t) (recPass (record 32 [(0, le 2 k), (2, le 1 4), (3, le 1 fl), (6, step), (8, ftBytes t), (28, le 1 qc)]) s)
      else s
    recPass (record 32
      [(0, le 2 k), (2, le 1 kind), (3, le 1 (fl + 2 * b2n bad)), (4, le 2 seq), (6, step), (8, le 6 (cs48 ta)), (14, le 6 ((tb.map cs48).getD 0)),
       (20, leI 8 (clampI (-(2 ^ 63)) (2 ^ 63 - 1) corr)), (28, le 1 qc)]) s

/-! ### Servos -/

/-- Servo `n` passes to state `st`: 0 OFF, 1 ACQUIRE, 2 TRACK, 3 HOLD; TT_SERVO_STATE (R272). -/
def setServoState (n st : Nat) (s : State) : State :=
  let old := (s.servo n).state
  if old = st then s
  else raiseEv (72 + n) 0 0x0310 [(20, le 1 n), (21, le 1 old), (22, le 1 st)] (s.setServo n { s.servo n with state := st })

/-- Asymmetry changes of port `p` that are due come into force: every servo of a SLAVE session there takes the change off its history
(R263). -/
def applyAsym (p : Nat) (s : State) : State :=
  let old := spGet 0 s.tt.asym p
  let a := timedApply (2 ^ 40 + p) old s
  let s := { a.2 with tt := { a.2.tt with asym := spSet 0 a.2.tt.asym p a.1 } }
  if a.1 = old then s
  else (List.range 8).foldl (fun s n =>
    let v := s.servo n
    if 2 ≤ v.mode ∧ (s.session v.session).port = p then
      s.setServo n { v with hist := v.hist.map (fun h => (h.1 - (a.1 - old), h.2)), theta := v.theta - (a.1 - old) }
    else s) s

/-- The mean of a list of values in 2⁻¹⁶ ns, 0 for none. -/
def meanOf (l : List Int) : Int := if l = [] then 0 else divRound l.sum l.length

/-- Whether a difference is beyond a quarter of a mode's word period (R267): both in 2⁻¹⁶ ns. -/
def beyondQuarter (v : Int) (mode : Nat) : Bool :=
  let w := wordTicks mode
  decide (w.1 * 8388608 < 400 * w.2 * v.natAbs)

/-- The offset estimate of servo `n` as a phase-error sample e = −θ̂ at TK80 instant `x` (R261), to the reference monitor and to the loop, with the
phase `sys` of the reference against SYSXO: its lane's in HYBRID mode, whose frequency is that of the recovered clock (R260). -/
def servoSample (n x : Nat) (sys : Int) (s : State) : State :=
  let v := s.servo n
  let d := (s.session v.session).domain
  let s := s.setServo n { v with lastSample := s.dtt }
  refSample (8 + n) x sys (s.timeAt d x - v.theta) s

/-- A completed exchange of the bound session reaches servo `n` (R267): raw offset and raw mean delay, its instant `x` (TK80). -/
def servoExchange (n k : Nat) (raw dbar : Int) (x : Nat) (sys : Int) (s : State) : State :=
  let v := s.servo n
  let y := s.session k
  let len := 2 ^ v.navg
  let hist := ((raw, y.dD) :: v.hist).take len
  let dh := ((dbar, y.dSigma) :: v.dHist).take len
  let theta := meanOf (hist.map (fun h => h.1 - h.2)) + y.dD
  let far := ttState k s = 3 && beyondQuarter (raw - theta) (s.mode y.port)
  let v := { v with hist := hist, dHist := dh, theta := theta, dbar := meanOf (dh.map (fun h => h.1 - h.2)) + y.dSigma, raw := raw,
                    slips := if far then v.slips + 1 else 0, last := s.dtt }
  let s := setServoState n (if hist.length = len then 2 else 1) (s.setServo n v)
  let a := s.draw
  let acc := a.1 % 32
  let s := (a.2.setCand (8 + n) { a.2.cand (8 + n) with accOwn := classBound acc }).setF (Reg.rsCandStatusAccK (8 + n)) acc
  servoSample n x sys s

/-- A completed exchange of session `k` reaches the servos bound to it; one that is INVALID, or whose stamps carry different step
counters, is discarded (R254, R255). -/
def ttExchange (k : Nat) (bad : Bool) (raw dbar : Int) (x : Nat) (sys : Int) (s : State) : State :=
  if bad then s
  else (List.range 8).foldl (fun s n =>
    if 2 ≤ (s.servo n).mode ∧ (s.servo n).session = k then servoExchange n k raw dbar x sys s else s) s

/-! ### Transmission -/

/-- Whether DTT stands at a transmit instant of session `k` for the interval 2^`l` s (R245), in TK80 units. -/
def atInstant (k : Nat) (l : Int) (dtt : Nat) : Bool :=
  let i := if 0 ≤ l then 51200000000000 * 2 ^ l.toNat else 51200000000000 / 2 ^ l.natAbs
  let rev := ((List.range 8).map (fun b => if bit k b then 2 ^ (7 - b) else 0)).sum
  let o := i * rev / 256
  decide ((dtt * 65536 + 65535 + i - o % i) % i ≤ 65535)

/-- Time of domain `d` at TK80 instant `x`, in 2⁻¹⁶ ns, as a session writes it into a message. -/
def sessionTime (y : Session) (x : Nat) (s : State) : Int := s.timeAt y.domain x

/-- Whether the egress of a session applies ORIGIN and TURNAROUND (PTS_CFG.UPD_EN). -/
def edits (y : Session) (s : State) : Bool := s.isF (Reg.ptsCfgUpdEn y.port)

/-- QC of the domain served at `x`, as it is now. -/
def qcAt (x : Nat) (s : State) : Nat := s.qc (s.servedAt x)

/-- An event message of session `k` leaves with predicted stamp `pe` and measured stamp `me` (R183, R244). -/
def ttSendEvent (k : Nat) (m : Bytes) (pe me : Nat) (bad : Bool) (s : State) : State :=
  let y := s.session k
  ttSentEvent k (predCheck y.port me pe (ttSend y.port (ptpFrame y m s) me bad s))

/-- A Sync, and in two-step mode its Follow_Up (R252 to R254): predicted stamp `pe`, measured stamp `me`. -/
def sendSync (k pe me : Nat) (bad : Bool) (s : State) : State :=
  let y := s.session k
  let li := y.field 8 1
  let two := y.flag 0
  let t := if !two && edits y s then sessionTime y pe s else sessionTime y s.now80 s
  let corr := if !two && edits y s then ptpFrac t else 0
  let m := ptpMessage y 0 (2 * b2n two) corr y.seqSync li (ptpStamp t)
  let s := ttOriginate k (ttSendEvent k m pe me bad s)
  let s := s.setSession k { s.session k with seqSync := (y.seqSync + 1) % 65536 }
  let t1 := sessionTime y me s
  let s := if two && !bad then ttSend y.port (ptpFrame y (ptpMessage y 8 0 (ptpFrac t1) y.seqSync li (ptpStamp t1)) s) s.now80 false s else s
  ttRecord k 5 bad y.seqSync (s.servedTime me) none 0 me (qcAt me s) s

/-- A Delay_Req (`t` 1) or Pdelay_Req (`t` 2), whose measured stamp the session keeps (R252, R253). -/
def sendRequest (k t pe me : Nat) (bad : Bool) (s : State) : State :=
  let y := s.session k
  let body := List.replicate (if t = 1 then 10 else 20) 0
  let m := ptpMessage y t 0 0 y.seqDelay 0x7F body
  let s := ttOriginate k (ttSendEvent k m pe me bad s)
  s.setSession k { s.session k with
    seqDelay := (y.seqDelay + 1) % 65536
    delayTx := some ⟨y.seqDelay, me, s.stepcAt y.domain me, 0, bad, none, qcAt me s⟩
    respRx := none }

/-- An Announce from firmware's template (R248): sequenceId, header flags and originTimestamp filled in. -/
def sendAnnounce (k : Nat) (s : State) : State :=
  let y := s.session k
  let d := y.domain
  let b := slice y.template 0 64
  let fl1 := b2n (decide (s.getF (Reg.tbDStatusLeap d) = 1)) + 2 * b2n (decide (s.getF (Reg.tbDStatusLeap d) = 3)) + 4 * ((b.getD 7 0).toNat / 4 % 2) + 8 +
    16 * b2n (s.qcState d = 2) + 32 * b2n (s.qcState d = 2)
  let m := put (put (put b 6 (le 1 (4 * b2n (y.flag 3)) ++ le 1 fl1)) 30 (be 2 y.seqAnn)) 34 (ptpStamp (sessionTime y s.now80 s))
  let s := ttSend y.port (ptpFrame y m s) s.now80 false s
  s.setSession k { s.session k with seqAnn := (y.seqAnn + 1) % 65536 }

/-- Whether session `k` takes its frequency from its port: a HYBRID line reference on one of its lanes is selected for the session's domain (R251,
R266). -/
def syntonized (y : Session) (s : State) : Bool :=
  (List.range 8).any (fun n => (s.servo n).mode = 2 && portOf (s.servo n).lane s = y.port && selOf y.domain s = some (8 + n))

/-- Whether a line reference whose recovered clock is that of the session's port is selected for its domain: isRxCoherent (R251). -/
def rxCoherent (y : Session) (s : State) : Bool :=
  (List.range 8).any (fun n => ((s.servo n).mode = 1 || (s.servo n).mode = 2) && portOf (s.servo n).lane s = y.port && selOf y.domain s = some (8 + n))

/-- A Signaling message with the L1Sync TLV of IEEE 1588-2019, which firmware sends (R251): isTxCoherent and isCongruent TRUE, isRxCoherent as the
references stand, and firmware's own demands `want` in the low bits of the first octet. The TLV's layout is that standard's: PRESUMED (log entry 252). -/
def sendL1Sync (k want : Nat) (s : State) : State :=
  let y := s.session k
  let tlv := be 2 0x8001 ++ be 2 2 ++ le 1 (want % 16) ++ le 1 (1 + 2 * b2n (rxCoherent y s) + 4)
  let m := ptpMessage y 12 0 0 y.seqAnn 0x7F (List.replicate 10 0xFF ++ tlv)
  let s := ttSend y.port (ptpFrame y m s) s.now80 false s
  s.setSession k { s.session k with seqAnn := (y.seqAnn + 1) % 65536 }

/-- Whether a periodic message of `kind` is due of session `y` now (R238, R245): at its DTT instant, and once. -/
def periodicDue (session kind : Nat) (y : Session) (s : State) : Bool :=
  spGet none y.lastTx kind ≠ some s.dtt &&
  (if kind = 0 then y.role = 1 && atInstant session (y.log 8) s.dtt
   else if kind = 1 then y.role = 2 && !y.flag 1 && atInstant session (y.log 9) s.dtt
   else if kind = 2 then y.peers && atInstant session (y.log 9) s.dtt
   else kind = 3 && y.role = 1 && y.field 10 1 ≠ 0x7F && atInstant session (y.log 10) s.dtt)

/-- TT_PERIODIC_TX: a periodic message of a session at its DTT instant (R245): `kind` 0 Sync, 1 Delay_Req, 2 Pdelay_Req, 3 Announce, with `body` the
template where firmware has written a new one (R248), 4 firmware's L1Sync TLV (R251), with `body` its demands; `p` and `m` are the measurements of the
predicted and the measured egress stamp. At most 128 event messages leave in a second (R243). -/
def execTtPeriodicTx (session kind : Nat) (body : Bytes) (p m : EdgeMeas) (s : State) : Out :=
  let y := s.session session
  let s := { s with tt := { s.tt with out := [] } }
  let bad := decide (txCause y.port s ≠ 0)
  if 256 ≤ session ∨ ttState session s < 2 then .next s
  else if kind = 4 then .next (if y.flag 6 && y.role ≠ 4 then sendL1Sync session (fb body 0 1) s else s)
  else if periodicDue session kind y s = false then .next s
  else
    let t := s.setSession session { y with lastTx := spSet none y.lastTx kind (some s.dtt), template := if kind = 3 ∧ body ≠ [] then body else y.template }
    if kind = 3 then .next (sendAnnounce session t)
    else if 128 ≤ sentNow session s ∨ !(measures y.port p s && measures y.port m s) then .next s
    else
      let pe := txPredict y.port p s
      let me := txStamp y.port m s
      .next (if kind = 0 then sendSync session pe me bad t else sendRequest session kind pe me bad t)

/-! ### Reception -/

/-- Asymmetry of a session's port for an exchange whose t2 is `x` (R263). -/
def asymOf (y : Session) (x : Nat) (s : State) : Int := asymAt y.port (x / 2 ^ 16) s

/-- A Sync set is complete (t1, t2): its record, and with the peer-delay mechanism an offset (R262, R271). -/
def syncComplete (k : Nat) (e : EventMsg) (sys : Int) (s : State) : State :=
  let y := s.session k
  let s := s.setSession k { y with syncRx := none, syncSet := some e }
  let t1 := e.far.getD 0
  let s := ttRecord k 1 e.bad e.seq t1 (some (s.servedTime e.x)) e.corr e.x e.qc s
  match y.linkDelay with
  | some d =>
    if y.role = 2 && y.flag 1 then
      let raw := sessionTime y e.x s - t1 - e.corr - d - asymOf y e.x s
      ttExchange k e.bad raw d e.x sys s
    else s
  | none => s

/-- A delay set is complete (t3, t4) (R262, R267): `e` the Delay_Req sent, with the partner's receiveTimestamp and correctionField. -/
def delayComplete (k : Nat) (e : EventMsg) (sys : Int) (s : State) : State :=
  let y := s.session k
  let s := s.setSession k { y with delayTx := none }
  let t3 := sessionTime y e.x s
  let t4 := e.far.getD 0
  let s := ttRecord k 2 e.bad e.seq (s.servedTime e.x) (some t4) e.corr e.x e.qc s
  match y.syncSet with
  | none => s
  | some a =>
    let d1 := sessionTime y a.x s - a.far.getD 0 - a.corr
    let d2 := t4 - t3 - e.corr
    let bad := a.bad || e.bad || a.stepc ≠ e.stepc
    ttExchange k bad (divRound (d1 - d2) 2 - asymOf y a.x s) (divRound (d1 + d2) 2) a.x sys s

/-- A peer-delay set is complete (t1, t4) (R258, R271): `turn` holds t3 − t2 and the corrections. -/
def peerComplete (k : Nat) (req resp : EventMsg) (turn : Int) (s : State) : State :=
  let y := s.session k
  let bad := req.bad || resp.bad
  let s := ttRecord k 3 bad req.seq (s.servedTime req.x) (some (s.servedTime resp.x)) turn resp.x resp.qc s
  let y := { y with delayTx := none, respRx := none }
  if bad || req.stepc ≠ resp.stepc then s.setSession k y
  else
    let d := divRound (sessionTime y resp.x s - sessionTime y req.x s - turn) 2
    (s.setSession k { y with linkDelay := some d }).setB (Reg.ttSStateP2pOk k) true

/-- A Sync is received. -/
def gotSync (k : Nat) (r : PtpRx) (e : EventMsg) (sys : Int) (s : State) : State :=
  let y := s.session k
  let two := bit (fb r.msg 6 1) 1
  let s := s.setSession k { y with syncLog := sext 8 (fb r.msg 33 1), syncRx := some e }
  if two then s else syncComplete k { e with far := some (stampField r.msg 34) } sys s

/-- A Follow_Up is received: it completes the Sync of its sequenceId. -/
def gotFollowUp (k : Nat) (m : Bytes) (sys : Int) (s : State) : State :=
  match (s.session k).syncRx with
  | none => s
  | some e =>
    if e.seq ≠ fb m 30 2 then s
    else syncComplete k { e with far := some (stampField m 34), corr := e.corr + corrField m } sys s

/-- A Delay_Resp is received: it completes the Delay_Req it names. -/
def gotDelayResp (k : Nat) (m : Bytes) (sys : Int) (s : State) : State :=
  let y := s.session k
  match y.delayTx with
  | none => s
  | some e =>
    if e.seq ≠ fb m 30 2 ∨ slice m 44 10 ≠ y.portId then s
    else delayComplete k { e with far := some (stampField m 34), corr := corrField m } sys s

/-- A Delay_Req is received: a Delay_Resp answers it, where its stamp is valid (R252, R254). -/
def gotDelayReq (k : Nat) (r : PtpRx) (s : State) : State :=
  let y := s.session k
  if r.bad then s
  else
    let t4 := sessionTime y r.x s
    let m := ptpMessage y 9 0 (corrField r.msg - ptpFrac t4) (fb r.msg 30 2) (if y.flag 3 then 0x7F else y.field 9 1)
      (ptpStamp t4 ++ slice r.msg 20 10)
    ttSend y.port (ptpFrame y m s) s.now80 false s

/-- A Pdelay_Req is received: a Pdelay_Resp, and in two-step mode its Follow_Up, answer it within R243 (R252 to R254). -/
def gotPdelayReq (k : Nat) (r : PtpRx) (pe me : Nat) (bad : Bool) (s : State) : State :=
  let y := s.session k
  let a := ttAnswer k s
  let two := y.flag 0
  if !a.1 then a.2
  else
    let s := a.2
    let t2 := sessionTime y r.x s
    let seq := fb r.msg 30 2
    let who := slice r.msg 20 10
    let corr := if two then corrField r.msg - ptpFrac t2
      else corrField r.msg + (if edits y s then residence pe r.x s else 0)
    let m := ptpMessage y 3 (2 * b2n two) corr seq 0x7F ((if two then ptpStamp t2 else List.replicate 10 0) ++ who)
    let s := ttSendEvent k m pe me bad s
    let t3 := sessionTime y me s
    if two && !bad && !r.bad then
      ttSend y.port (ptpFrame y (ptpMessage y 10 0 (ptpFrac t3) seq 0x7F (ptpStamp t3 ++ who)) s) s.now80 false s
    else s

/-- A Pdelay_Resp is received; one-step completes the set. -/
def gotPdelayResp (k : Nat) (r : PtpRx) (e : EventMsg) (s : State) : State :=
  let y := s.session k
  match y.delayTx with
  | none => s
  | some q =>
    if q.seq ≠ e.seq ∨ slice r.msg 44 10 ≠ y.portId then s
    else if bit (fb r.msg 6 1) 1 then s.setSession k { y with respRx := some { e with far := some (stampField r.msg 34) } }
    else peerComplete k q e e.corr s

/-- A Pdelay_Resp_Follow_Up is received: it completes the set. -/
def gotPdelayFollowUp (k : Nat) (m : Bytes) (s : State) : State :=
  let y := s.session k
  match y.delayTx, y.respRx with
  | some q, some e =>
    if q.seq ≠ fb m 30 2 ∨ slice m 44 10 ≠ y.portId then s
    else peerComplete k q e (stampField m 34 - e.far.getD 0 + e.corr + corrField m) s
  | _, _ => s

/-- A LISTEN session records an event message: its timestamp field and its stamp (R238, R271). -/
def gotListen (k t : Nat) (r : PtpRx) (e : EventMsg) (s : State) : State :=
  ttRecord k (if t = 0 then 1 else if t = 1 then 2 else 3) e.bad e.seq (stampField r.msg 34) (some (s.servedTime e.x)) e.corr e.x e.qc s

/-- Whether a claimed message is a Signaling message. -/
def isSignaling (r : PtpRx) : Bool := fb r.msg 0 1 % 16 = 12

/-- PTP_MESSAGE_RX: the engine takes the oldest claimed message (R239, R244, R252 to R255): `p` and `m` the measurements of the predicted
and measured stamp of an answer, `sys` the reference's phase against SYSXO where the message completes an exchange. -/
def execPtpMessageRx (p m : EdgeMeas) (sys : Int) (s : State) : Out :=
  match s.tt.inbox.find? (fun r => !isSignaling r) with
  | none => .next s
  | some r =>
    let s := { s with tt := { s.tt with inbox := s.tt.inbox.erase r, out := [] } }
    let k := r.session
    let y := s.session k
    let t := fb r.msg 0 1 % 16
    if ttState k s < 2 ∨ (t = 2 ∧ (measures y.port p s && measures y.port m s) = false) then .next s
    else
      let a := if t < 4 then ttAccept k s else (true, s)
      let s := a.2
      let e : EventMsg := ⟨fb r.msg 30 2, r.x, r.stepc y.domain, corrField r.msg, r.bad, none, r.qc⟩
      let pe := txPredict y.port p s
      let me := txStamp y.port m s
      let bad := decide (txCause y.port s ≠ 0)
      if !a.1 then .next s
      else if y.role = 4 then .next (gotListen k t r e s)
      else if t = 0 then .next (gotSync k r e sys s)
      else if t = 1 then .next (gotDelayReq k r s)
      else if t = 2 then .next (gotPdelayReq k r pe me bad s)
      else if t = 3 then .next (gotPdelayResp k r e s)
      else if t = 8 then .next (gotFollowUp k r.msg sys s)
      else if t = 9 then .next (gotDelayResp k r.msg sys s)
      else if t = 10 then .next (gotPdelayFollowUp k r.msg s)
      else if t = 11 then .next (s.setSession k { y with announced := r.msg })
      else .next s

/-! ### Phase-continuous link mode -/

/-- A phase sample of a lane's recovered word clock: ψ unwraps it (R264); a window of 1 ms that has ended is given to the port's
sessions (R265). -/
def psiSample (m : EdgeMeas) (e : EdgeEntry) (s : State) : State :=
  let w := wordTicks (s.mode (portOf m.lane s))
  let ph : Int := edge24 m.lane 0 e e.tick s * w.2
  let ms := e.tick / 781250
  match spGet none s.tt.psi m.lane with
  | none =>
    let d := s.draw
    { d.2 with tt := { d.2.tt with psi := spSet none d.2.tt.psi m.lane (some ⟨(d.1 : Int) * 200 * w.2, ph, ms, d.1, 1⟩) } }
  | some x =>
    let psi := x.psi + reducePhase (ph - x.last) (w.1 * 2 ^ 24)
    let v := divRound psi (200 * w.2)
    let s := if ms = x.ms then s
      else (sessionsOn (portOf m.lane s) s).foldl (fun s k =>
        let y := s.session k
        if y.flag 2 && m.lane = y.port then
          s.setSession k { y with windows := (((x.ms + 1) * 781250 * 65536, divRound x.sum x.count) :: y.windows).take 16 }
        else s) s
    let x' : Psi := if ms = x.ms then ⟨psi, ph, ms, x.sum + v, x.count + 1⟩ else ⟨psi, ph, ms, v, 1⟩
    { s with tt := { s.tt with psi := spSet none s.tt.psi m.lane (some x') } }

/-- The time that word `j` of a recovered clock stands for: `j` nominal word periods, in 2⁻¹⁶ ns (R168). -/
def wordTime (j mode : Nat) : Int := divRound (j * (wordTicks mode).1 * 128 * 65536) (100 * (wordTicks mode).2)

/-- PHASE_SAMPLE: the newest measurement of a lane's receive or transmit ring is the sample of one microsecond (R173). A receive sample reaches ψ and the line
references that recover their clock from the lane, with the phase `sys` of that clock against SYSXO; a transmit sample stands as the drift tracker's. -/
def execPhaseSample (m : EdgeMeas) (tx : Bool) (sys : Int) (s : State) : Out :=
  match m.ring with
  | [] => .next s
  | e :: _ =>
    let n := m.lane
    let mode := s.mode (portOf n s)
    if 48 ≤ n || mode = 0 || !s.isF (if tx then Reg.sdsStatusTxOn n else Reg.sdsStatusRxLock n) then .next s
    else if tx then .next (s.setLane n { s.lane n with txSample := some e })
    else
      let x := (edge24 n 0 e e.tick s / 2 ^ 8).toNat
      let s := psiSample m e s
      .next ((List.range 8).foldl (fun s k =>
        let v := s.servo k
        if v.lane ≠ n ∨ candState (8 + k) s = 7 then s
        else if v.mode = 1 then refSample (8 + k) x sys (wordTime e.word mode) s
        else if v.mode = 2 ∧ (v.state = 1 ∨ v.state = 2) then
          monitorSample (8 + k) x sys (s.timeAt (s.session v.session).domain x - v.theta) s
        else s) s)

/-- Whether a port's mode admits link mode (R266). -/
def linkModeMode (y : Session) (s : State) : Bool := decide (2 ≤ s.mode y.port) && decide (s.mode y.port ≤ 4)

/-- TT_PHASE_REPORT_TX: the phase report of one millisecond (R265, R266); a LISTEN session transmits nothing (R238). -/
def execTtPhaseReportTx (session : Nat) (s : State) : Out :=
  let y := s.session session
  let org := s.getF Reg.ttLinkCfgOrgId
  if 256 ≤ session ∨ ttState session s < 2 ∨ y.flag 2 = false ∨ y.role = 4 ∨ y.reportMs = some (s.dtt / 781250) then .next s
  else
    let w := y.windows.headD (0, 0)
    let valid := y.windows ≠ [] && s.isF (Reg.ptsStatusRxValid y.port)
    let fl := b2n valid + 2 * b2n (syntonized y s)
    let v := be 3 org ++ be 3 1 ++ be 10 w.1 ++ be 8 (twos 64 w.2) ++ be 2 (s.getF (Reg.ptsStatusLatSeq y.port)) ++ be 2 fl
    let m := ptpMessage y 12 0 0 y.seqAnn 0x7F (List.replicate 10 0xFF ++ be 2 3 ++ be 2 28 ++ v)
    let s := ttSend y.port (ptpFrame y m s) s.now80 false { s with tt := { s.tt with out := [] } }
    .next (s.setSession session { s.session session with seqAnn := (y.seqAnn + 1) % 65536, reportMs := some (s.dtt / 781250) })

/-- The own window whose end lies nearest to an instant. -/
def nearest (t : Int) : List (Nat × Int) → Option (Nat × Int)
  | [] => none
  | w :: r => match nearest t r with
    | none => some w
    | some b => if (w.1 - t : Int).natAbs ≤ (b.1 - t : Int).natAbs then some w else some b

/-- The tracker takes a report in PHASE (R267): Σ and D of the report and of its own nearest window, and their changes. -/
def trackReport (k : Nat) (stop : Nat) (far : Int) (s : State) : State :=
  let y := s.session k
  let th := ((List.range 8).find? (fun n => 2 ≤ (s.servo n).mode && (s.servo n).session = k)).elim (0 : Int) (fun n => (s.servo n).theta)
  match nearest ((stop : Int) + th * 100 / 128) y.windows with
  | none => s
  | some w =>
    let sg := divRound (w.2 + far) 2
    let d := divRound (w.2 - far) 2
    match y.entry with
    | none => s.setSession k { y with entry := some (sg, d), dSigma := 0, dD := 0 }
    | some b => s.setSession k { y with dSigma := sg - b.1, dD := d - b.2 }

/-- TT_PHASE_REPORT_RX: the oldest claimed phase report is taken (R242, R265 to R267). -/
def execTtPhaseReportRx (s : State) : Out :=
  match s.tt.inbox.find? isSignaling with
  | none => .next s
  | some r =>
    let s := { s with tt := { s.tt with inbox := s.tt.inbox.erase r } }
    let k := r.session
    let y := s.session k
    let v := r.msg.drop 48
    if ttState k s < 2 ∨ fb r.msg 44 2 ≠ 3 ∨ fb v 0 3 ≠ s.getF Reg.ttLinkCfgOrgId ∨ fb v 0 3 = 0 ∨ fb v 3 3 ≠ 1 then .next s
    else
      let fl := fb v 26 2
      let lat := fb v 24 2
      let moved := ttState k s = 3 && y.farLat ≠ lat
      let s := s.addWrap (Reg.ttSStateReports k) 1
      let s := s.setSession k { y with
        lastReport := s.dtt, validRun := if bit fl 0 then y.validRun + 1 else 0, farLat := lat, farSynt := bit fl 1 }
      if moved then .next (leavePhase k 4 s)
      else if ttState k s = 3 then .next (trackReport k (fb v 6 10) (sext 64 (fb v 16 8)) s)
      else .next s

/-- TT_PHASE_ENTRY: 16 VALID reports in a row, with the slave end syntonized, take a session to PHASE; the tracker resets (R242, R266,
R268). -/
def execTtPhaseEntry (session : Nat) (s : State) : Out :=
  let y := s.session session
  let slaveEnd := if y.role = 2 then syntonized y s else y.farSynt
  if 256 ≤ session ∨ ttState session s ≠ 2 ∨ y.flag 2 = false ∨ y.validRun < 16 ∨ s.getF Reg.ttLinkCfgOrgId = 0 ∨ linkModeMode y s = false ∨
      slaveEnd = false then .next s
  else .next (setTtState session 3 2 (s.setSession session { y with entry := none, dSigma := 0, dD := 0 }))

/-- TT_REPORT_TIMEOUT: no phase report for 100 ms (R242). -/
def execTtReportTimeout (session : Nat) (s : State) : Out :=
  if 256 ≤ session ∨ s.dtt < (s.session session).lastReport + 78125000 then .next s else .next (leavePhase session 3 s)

/-- TT_PHASE_SLIP: 16 exchanges in a row beyond a quarter of the word period (R267). -/
def execTtPhaseSlip (servo : Nat) (s : State) : Out :=
  let v := s.servo servo
  if 8 ≤ servo ∨ v.slips < 16 ∨ ttState v.session s ≠ 3 then .next s
  else
    let y := s.session v.session
    let s := raiseEv (y.source s) 1 0x0303 [(20, le 2 v.session), (24, leI 8 (v.raw - v.theta))] s
    .next (leavePhase v.session 5 (s.setServo servo { v with slips := 0 }))

/-- Ticks without an exchange that stop a servo (R261): 4 Sync intervals, and at least 2 s. -/
def servoPatience (y : Session) : Nat :=
  max 1562500000 (if 0 ≤ y.syncLog then 4 * 781250000 * 2 ^ y.syncLog.toNat else 4 * 781250000 / 2 ^ y.syncLog.natAbs)

/-- TT_SERVO_TIMEOUT: no valid exchange for that long; the servo stops its samples and the reference is lost (R261). -/
def execTtServoTimeout (servo : Nat) (s : State) : Out :=
  let v := s.servo servo
  if 8 ≤ servo ∨ v.mode < 2 ∨ v.state = 3 ∨ s.dtt < v.last + servoPatience (s.session v.session) then .next s
  else .next (loseCand (8 + servo) 1 (setServoState servo 3 s))

/-- A servo whose estimates come more slowly than one a second delivers its sample again each second (R261), to the monitor as well: with the phase against SYSXO
of the sample before, since no measurement comes with it (DESIGN CHOICE, log entry 253). -/
def servoTick (s : State) : State :=
  (List.range 8).foldl (fun s n =>
    let v := s.servo n
    if 2 ≤ v.mode ∧ (v.state = 1 ∨ v.state = 2) ∧ v.lastSample + 781250000 ≤ s.dtt then
      servoSample n s.now80 (((s.cand (8 + n)).samples.head?.map (·.sys)).getD 0) s
    else s) s

/-- ASYM_APPLY: an asymmetry change comes into force at its x_c (R263). -/
def execAsymApply (port : Nat) (s : State) : Out := .next (if port < 48 then applyAsym port s else s)

/-! ### ESMC -/

/-- Tokens of the shaper on firmware's transmission, in 10⁻⁵ byte (R674, R678). -/
def mgmtTokens (s : State) : Int :=
  let burst : Int := (9216 + Config.mgmtBurst) * 100000
  match spGet none s.bf.shapers (49 * 9 + 8) with
  | none => burst
  | some (v, t) => min burst (v + 16 * s.getF Reg.gdMgmtRateA * (s.dtt - t))

/-- A frame of firmware's leaves the management port for the queue of PCP 0 of an egress (R421). -/
def mgmtForward (egress : Nat) (d : Bytes) (s : State) : State :=
  let t := mgmtTokens s
  let s := { s with bf := { s.bf with shapers := spSet none s.bf.shapers (49 * 9 + 8) (some (t - (d.length + 20) * 100000, s.dtt)) } }
  let f := { mkFrame 49 d s.now80 (!s.innerLocked) s with whole := true }
  (admitFrame f ⟨[⟨egress, queueOf egress 0 s, { Copy.none with direct := true }⟩], none, none, none⟩ d.length (countRx 49 d s)).2

/-- Frames the shaper holds go while it has tokens (R678); `n` bounds them. -/
def mgmtDrain : Nat → State → State
  | 0, s => s
  | n + 1, s =>
    match s.bf.mgmtHeld with
    | [] => s
    | x :: r =>
      if mgmtTokens s ≤ 0 then s
      else mgmtDrain n (mgmtForward x.1 x.2 (addOcc (49 * 8) (-(cellsOf x.2.length : Int)) { s with bf := { s.bf with mgmtHeld := r } }))

/-- Shaping at the bound: GD_VIOL with reason BOUND at most once a second, whose record counts the episodes (R678, R679). -/
def mgmtShaped (s : State) : State :=
  let n := s.bf.mgmtEpisodes + 1
  let quiet : Bool := match s.bf.mgmtViolAt with | none => true | some t => decide (t + 781250000 ≤ s.dtt)
  if quiet then
    let d := s.draw
    let s := { d.2 with bf := { d.2.bf with mgmtEpisodes := 0, mgmtViolAt := some s.dtt } }
    guardViolations n Reg.gdMgmtRateA.addr .core0 .bound 1 d.1 (s.getF Reg.gdMgmtRateA) d.1 s
  else { s with bf := { s.bf with mgmtEpisodes := n } }

/-- Firmware sends a frame through the management port: at once, held by the shaper, or discarded where its queue is full (R678). -/
def mgmtSend (egress : Nat) (d : Bytes) (s : State) : State :=
  let s := mgmtDrain 65536 s
  if s.bf.mgmtHeld = [] ∧ 0 < mgmtTokens s then mgmtForward egress d s
  else
    let s := mgmtShaped s
    let n := cellsOf d.length
    if admission (49 * 8) n s = .chip then addOcc (49 * 8) n { s with bf := { s.bf with mgmtHeld := s.bf.mgmtHeld ++ [(egress, d)] } }
    else count (queueCtr 49 0 3) 1 s

/-- An ESMC PDU (ITU-T G.8264): `changed` marks an event PDU; the QL TLV, and the extended QL TLV with the enhanced code. -/
def esmcFrame (p : Nat) (changed : Bool) (clk : Bytes) (s : State) : Bytes :=
  let ql := qlSent p s
  let d := be 6 0x0180C2000002 ++ be 6 (s.swPort p).mac ++ be 2 0x8809 ++ [0x0A, 0x00, 0x19, 0xA7, 0x00, 0x01] ++
    le 1 (0x10 + 8 * b2n changed) ++ [0, 0, 0] ++ [1, 0, 4] ++ le 1 ql ++
    [2, 0, 0x14] ++ le 1 (if ql = 11 then 0x22 else 0xFF) ++ slice clk 0 8 ++ [0, 1, 0] ++ List.replicate 5 0
  let d := d ++ List.replicate (60 - d.length) 0
  d ++ fcsOf d

/-- ESMC_PDU_TX: firmware sends the ESMC PDU of the second, or of a changed quality level, on every enabled port (R308). -/
def execEsmcPduTx (changed : Bool) (s : State) : Out :=
  if !s.isF Reg.hstStatusFwRun then .next s
  else .next ((List.range 48).foldl (fun s p =>
    if s.mode p = 0 || inGroup p s || !s.linkUp p then s else mgmtSend p (esmcFrame p changed (be 8 Config.serial) s) s) s)

/-! ### Commands -/

/-- Whether a port named by a command is not 0 to 47, or one of lanes 4k+1 to 4k+3 at 100GBASE-R. -/
def badPort (p : Nat) (s : State) : Bool := decide (47 < p) || inGroup p s

/-- Whether a signed byte lies outside a range. -/
def outside (lo hi : Int) (v : Nat) : Bool := decide (sext 8 v < lo ∨ hi < sext 8 v)

def ttSessionSetSpec : CmdSpec :=
  { opcode := 0x0301, lenOk := lenIs 64
    args := fun c s =>
      let y : Session := { Session.reset with desc := c.payload }
      firstBad ([(0, decide (255 < cu c 0 2)), (2, decide (4 < cu c 2 1)), (3, badPort (cu c 3 1) s), (4, decide (2 < cu c 4 1)), reservedAbove c 5 7,
        (7, decide (1 < cu c 7 1)), (8, if cu c 2 1 = 1 then outside (-7) 4 (cu c 8 1) || decide (8192 < originates y) else cu c 8 1 ≠ 0),
        (9, outside (-7) 6 (cu c 9 1)), (10, cu c 10 1 ≠ 0x7F && outside (-3) 4 (cu c 10 1)), reservedAbove c 11 4, reservedAbove c 13 6,
        (14, bit (cu c 14 2) 12 || (!y.flag 4 && cu c 14 2 ≠ 0)), (24, cu c 4 1 = 1 && cu c 28 12 ≠ 0)] ++
        reserved c 22 2 ++ reserved c 50 14)
    stops := fun c s => firstStop [(ttState (cu c 0 2) s ≠ 0, stRefused, 0x0301)] }

/-- TT_SESSION_SET: the descriptor of a disabled session (R246); ROLE NONE clears it (R238). A line reference bound to it follows to its TIME_DOMAIN and port
(R261, R275). -/
def ttSessionSetEffect (c : Cmd) (s : State) : State × Reply :=
  let k := cu c 0 2
  let y : Session := if cu c 2 1 = 0 then Session.reset else { Session.reset with desc := slice c.payload 0 64 }
  let s := s.setSession k y
  let s := (List.range 8).foldl (fun s n =>
    if 2 ≤ (s.servo n).mode ∧ (s.servo n).session = k then
      s.setCand (8 + n) { s.cand (8 + n) with lineDomain := y.domain, linePort := if (s.servo n).mode = 3 then y.port else (s.cand (8 + n)).linePort }
    else s) s
  (evaluateAll s, okReply)

/-- TT_SESSION_SET (R246, R273). -/
def execTtSessionSet (c : Cmd) (s : State) : Out := runCmd ttSessionSetSpec ttSessionSetEffect c s

def ttSessionGetSpec : CmdSpec :=
  { opcode := 0x0302, unmirrored := true, reports := true, lenOk := lenIs 4
    args := fun c _ => firstBad ((0, decide (255 < cu c 0 2)) :: reserved c 2 2)
    need := fun _ _ => 80 }

/-- TT_SESSION_GET: descriptor, state and counts (R246). -/
def ttSessionGetEffect (c : Cmd) (s : State) : State × Reply :=
  let k := cu c 0 2
  let w (f : Fld) : Bytes := le 4 (s.regWord f.addr)
  (s, okBuf [] (slice (s.session k).desc 0 64 ++ w (Reg.ttSStateState k) ++ w (Reg.ttSTxcnt k) ++ w (Reg.ttSRxcnt k) ++ w (Reg.ttSDrop k)))

/-- TT_SESSION_GET (R246, R273). -/
def execTtSessionGet (c : Cmd) (s : State) : Out := runCmd ttSessionGetSpec ttSessionGetEffect c s

def ttSessionEnableSpec : CmdSpec :=
  { opcode := 0x0303, lenOk := lenIs 4
    args := fun c _ => firstBad ([(0, decide (255 < cu c 0 2)), (2, decide (1 < cu c 2 1))] ++ reserved c 3 1)
    stops := fun c s =>
      let k := cu c 0 2
      let y := s.session k
      let on := cu c 2 1 = 1 && ttState k s = 0
      firstStop
        [(on && s.tt.sessions.any (fun e => e.1 ≠ k && ttState e.1 s ≠ 0 && claimConflict y e.2), stRefused, 0x0302),
         (on && y.role ≠ 0 && (badPort y.port s || inDirect y.port s), stRefused, 0x0303),
         (on && y.role = 0, stRefused, 0x0304)] }

/-- TT_SESSION_ENABLE: a session starts from its descriptor alone, or ends with its exchanges discarded (R242). -/
def ttSessionEnableEffect (c : Cmd) (s : State) : State × Reply :=
  let k := cu c 0 2
  let y := s.session k
  if cu c 2 1 = 1 then
    if ttState k s ≠ 0 then (s, okReply)
    else
      let s := s.setSession k { Session.reset with desc := y.desc, template := y.template }
      let s := ((s.setF (Reg.ttSTxcnt k) 0).setF (Reg.ttSRxcnt k) 0).setF (Reg.ttSDrop k) 0
      let s := (s.setF (Reg.ttSStateReports k) 0).setB (Reg.ttSStateP2pOk k) false
      (setTtState k (if s.linkUp y.port then 2 else 1) 1 s, okReply)
  else
    let s := s.setSession k (if y.desc = [] then Session.reset else { Session.reset with desc := y.desc, template := y.template })
    (setTtState k 0 1 { s with tt := { s.tt with inbox := s.tt.inbox.filter (fun r => r.session ≠ k) } }, okReply)

/-- TT_SESSION_ENABLE (R240 to R242, R273). -/
def execTtSessionEnable (c : Cmd) (s : State) : Out := runCmd ttSessionEnableSpec ttSessionEnableEffect c s

def ttSetAsymmetrySpec : CmdSpec :=
  { opcode := 0x0304, unmirrored := true, lenOk := lenIs 12
    args := fun c s => firstBad ([(0, badPort (cu c 0 1) s), (4, decide (655360000 < (ci c 4 8).natAbs))] ++ reserved c 1 3) }

/-- TT_SET_ASYMMETRY: a port's asymmetry from x_c on (R262, R263). -/
def ttSetAsymmetryEffect (c : Cmd) (s : State) : State × Reply :=
  let p := cu c 0 1
  let v := ci c 4 8
  let k := 2 ^ 40 + p
  let f := fixXc none (timedLast k s) s
  let s := timedAdd k (spGet 0 f.2.tt.asym p) v f.1 f.2
  (raiseEv p 0 0x0304 [(20, le 1 p), (24, leI 8 v)] s, okWith [(32, le 8 f.1)])

/-- TT_SET_ASYMMETRY (R263, R273). -/
def execTtSetAsymmetry (c : Cmd) (s : State) : Out := runCmd ttSetAsymmetrySpec ttSetAsymmetryEffect c s

def ttServoSetSpec : CmdSpec :=
  { opcode := 0x0305, lenOk := lenIs 16
    args := fun c s =>
      let m := cu c 1 1
      firstBad ([(0, decide (7 < cu c 0 1)), (1, decide (3 < m)), (2, (m = 1 || m = 2) && decide (47 < cu c 2 1)),
        (4, (m = 2 || m = 3) && (decide (255 < cu c 4 2) || (s.session (cu c 4 2)).role ≠ 2)), (6, decide (8 < cu c 6 1)),
        (8, cu c 8 4 = 0 || decide (10000 < cu c 8 4))] ++ reserved c 3 1 ++ reserved c 7 1 ++ reserved c 12 4)
    stops := fun c s =>
      firstStop [(decide (2 ≤ cu c 1 1) && (List.range 8).any (fun n => n ≠ cu c 0 1 && decide (2 ≤ (s.servo n).mode) &&
        (s.servo n).session = cu c 4 2), stRefused, 0x0305)] }

/-- The rate of a session's offset estimates in mHz (R320). -/
def estimateRate (y : Session) : Nat := rate64 (if y.flag 1 then y.syncLog else y.log 9) * 1000 / 64

/-- TT_SERVO_SET: a line reference's mode, lane, session and servo settings (R260, R320). -/
def ttServoSetEffect (c : Cmd) (s : State) : State × Reply :=
  let n := cu c 0 1
  let m := cu c 1 1
  let v := s.servo n
  let keep : Bool := m = v.mode && cu c 2 1 = v.lane && cu c 4 2 = v.session
  let v' : Servo := { (if keep then v else Servo.reset) with
    mode := m, lane := cu c 2 1, session := cu c 4 2, navg := cu c 6 1, bw := cu c 8 4, state := v.state,
    last := if keep then v.last else s.dtt, hist := if keep then v.hist.take (2 ^ cu c 6 1) else [],
    dHist := if keep then v.dHist.take (2 ^ cu c 6 1) else [] }
  let s := setServoState n (if m < 2 then 0 else if keep then v.state else 1) (s.setServo n v')
  let y := s.session (cu c 4 2)
  let i := 8 + n
  let k := s.cand i
  let s := s.setCand i { k with
    lineMode := m, lineDomain := if 2 ≤ m then y.domain else 0, linePort := if m = 3 then y.port else portOf (cu c 2 1) s,
    nomFreq := if 2 ≤ m then max 1 (estimateRate y) else 1000000000, cmpDiv := 1,
    accOwn := if keep then k.accOwn else none, samples := if keep then k.samples else [], y := if keep then k.y else none,
    ys := if keep then k.ys else [] }
  let s := s.setB (Reg.rsCandStatusKind i) (isTime i s)
  (evaluateAll (candEnable i s), okReply)

/-- TT_SERVO_SET (R260, R273). -/
def execTtServoSet (c : Cmd) (s : State) : Out := runCmd ttServoSetSpec ttServoSetEffect c s

def ttServoStatusSpec : CmdSpec :=
  { opcode := 0x0306, urgent := true, unmirrored := true, reports := true, lenOk := lenIs 4
    args := fun c _ => firstBad ((0, decide (7 < cu c 0 1)) :: reserved c 1 3) }

/-- TT_SERVO_STATUS: a servo's estimates and states (R267). -/
def ttServoStatusEffect (c : Cmd) (s : State) : State × Reply :=
  let v := s.servo (cu c 0 1)
  let y := s.session v.session
  let bound := decide (2 ≤ v.mode)
  (s, okWith [(32, leI 8 v.theta), (40, leI 8 v.dbar), (48, leI 8 (if bound then y.dSigma else 0)),
    (56, le 1 (if bound then ttState v.session s else 0)), (57, le 1 v.state), (58, le 2 v.hist.length),
    (60, le 4 (sat 0xFFFFFFFF ((s.dtt - v.lastSample) / 781250)))])

/-- TT_SERVO_STATUS (R267, R273). -/
def execTtServoStatus (c : Cmd) (s : State) : Out := runCmd ttServoStatusSpec ttServoStatusEffect c s

end Sys2Proof.Machine
end

