-- ==== Sys2Proof/Machine/Gnss.lean ====
section
/-! DEFINITION. The GNSS timing receiver: sample ports (R343 to R347), channels (R348), solution epochs with their checks and
states (R352 to R366), position (R359, R360), antenna delays (R361, R362), navigation records (R368 to R371), and the commands of
group 0x06 (R374). -/

set_option Elab.async false

namespace Sys2Proof.Machine

/-! ### Access -/

/-- Solution `k`: 0 A, 1 B. -/
def State.gnSol (s : State) (k : Nat) : GnSol := if k = 0 then s.gn.solA else s.gn.solB

/-- The state with a solution replaced. -/
def State.setGnSol (s : State) (k : Nat) (x : GnSol) : State :=
  if k = 0 then { s with gn := { s.gn with solA := x } } else { s with gn := { s.gn with solB := x } }

/-- STATE of solution `k` (R366): 0 OFF, 1 ACQUIRING, 2 SURVEY, 3 VALID, 4 INVALID. -/
def gnState (k : Nat) (s : State) : Nat := s.getF (Reg.gnSolStatusState k)

/-- Whether the position is held (R359). -/
def gnHeld (s : State) : Bool := s.isF (Reg.gnSolStatusHold 0)

/-- Both solutions show whether the position is held. -/
def showHeld (b : Bool) (s : State) : State := (s.setB (Reg.gnSolStatusHold 0) b).setB (Reg.gnSolStatusHold 1) b

/-- Whether a sample port is configured and lost (R346). -/
def gnLost (port : Nat) (s : State) : Bool := (if port = 0 then s.gn.loA else s.gn.loB) ≠ 0 && !s.isF (Reg.gnPortOk port)

/-! ### Solution states -/

/-- Whether a domain's time aids the search, and to which start (R350, R351): 0 none, 1 within 2 s, 2 within 10 µs. -/
def aidTime (d : Nat) (s : State) : Nat :=
  let q := s.qcState d
  let k := s.qc d % 32
  if 1 < d ∨ !(q = 2 || q = 3 || q = 6 || q = 4) then 0 else if k ≤ 16 then 2 else if k ≤ 24 then 1 else 0

/-- The start a solution acquires from (R350): 0 cold, 1 warm, 2 hot. -/
def startKind (k : Nat) (s : State) : Nat :=
  let a := aidTime (s.gnSol k).aid s
  if a = 2 ∧ gnHeld s = true ∧ s.gn.nav.any (fun r => r.kind = 1) = true then 2
  else if 1 ≤ a ∧ gnHeld s = true ∧ s.gn.nav.any (fun r => r.kind = 0) = true then 1 else 0

/-- Solution `k` passes to state `st` for `cause` (R366): a solution that leaves VALID is a lost candidate (R365). -/
def setGnState (k st cause : Nat) (s : State) : State :=
  let old := gnState k s
  let s := s.setF (Reg.gnSolStatusCause k) cause
  if old = st then s
  else
    let s := s.setF (Reg.gnSolStatusState k) st
    let s := if st = 1 then s.setGnSol k { s.gnSol k with start := startKind k s, lastSat := s.dtt } else s
    let s := if st = 2 then s.setGnSol k { s.gnSol k with surveyed := 0, fixes := 0, sumX := 0, sumY := 0, sumZ := 0 } else s
    let s := raiseEv (70 + k) 1 0x0601 [(20, le 1 old), (21, le 1 st), (22, le 1 cause)] s
    if old = 3 ∨ st = 0 ∨ st = 4 then loseCand (6 + k) 1 s else s

/-! ### Antenna delay -/

/-- γ as a ratio, of GPS, Galileo and QZSS pairs and of BeiDou's (R354). -/
def gammaOf (sys : Nat) : Nat × Nat := if sys = 2 then (2328676, 1006176) else (23716, 10491)

/-- d_IF in 2⁻¹⁶ ns (R361). -/
def delayIf (sys : Nat) (s : State) : Int :=
  let g := gammaOf sys
  divRound (g.1 * s.gn.delayA - (g.1 - g.2 : Int) * s.gn.delayB) g.2

/-- The delay that applies to a solution: d_IF, or the band's own with SF (R355, R361). -/
def delayOf (k : Nat) (sf : Bool) (s : State) : Int :=
  if !sf then delayIf (s.gnSol k).refSys s
  else if s.gn.loA ≠ 0 ∧ gnLost 0 s = false then s.gn.delayA else s.gn.delayB

/-! ### Channels and satellites -/

/-- The bands of a satellite in use at the ports: bit 0 GNA, bit 1 GNB. -/
def satBands (t : GnSat) (s : State) : Nat :=
  b2n (decide (2 ≤ t.stateA) && s.gn.loA ≠ 0 && !gnLost 0 s) + 2 * b2n (decide (2 ≤ t.stateB) && s.gn.loB ≠ 0 && !gnLost 1 s)

/-- The mask that the channels share: the lower of the enabled solutions' (R348). -/
def channelMask (s : State) : Nat :=
  let on := [0, 1].filter (fun k => gnState k s ≠ 0)
  on.foldl (fun m k => min m (s.gnSol k).elev) 90

/-- The value of one component of a sample: its sign and magnitude bits (R344). -/
def sampleValue (sign mag : Bool) : Int := (if sign then -1 else 1) * (if mag then 3 else 1)

/-- The early to late spacing of a port's channels for a system, in sixteenths of a chip (R349): the setting, or the default. -/
def spacingOf (port sys : Nat) (s : State) : Nat :=
  let v := if port = 0 then s.gn.spacingA else s.gn.spacingB
  if v ≠ 0 then v else if port = 0 ∧ sys = 1 then 2 else 4

/-- Channels a satellite occupies: one for each band it is searched or tracked in. -/
def satChannels (t : GnSat) : Nat := b2n (t.stateA ≠ 0) + b2n (t.stateB ≠ 0)

/-- Insertion by falling elevation. -/
def insertElev (t : GnSat) : List GnSat → List GnSat
  | [] => [t]
  | u :: r => if u.elev < t.elev then t :: u :: r else u :: insertElev t r

/-- The satellites that the 96 channels hold (R348): above the mask, highest first. -/
def channelView (l : List GnSat) (s : State) : List GnSat :=
  let up := (l.filter (fun t => decide ((channelMask s : Int) ≤ t.elev))).foldl (fun a t => insertElev t a) []
  (up.foldl (fun a t => if a.2 + satChannels t ≤ 96 then (a.1 ++ [t], a.2 + satChannels t) else (a.1, 97)) (([] : List GnSat), 0)).1

/-- C/N0 of a satellite: of GNA where it is tracked there. -/
def satCn0 (t : GnSat) : Nat := if 2 ≤ t.stateA then t.cn0A else t.cn0B

/-- Whether solution `k` may use a satellite (R348, R355): system, masks, and both bands with DUAL unless the other port is lost and
SF_FALLBACK is set. -/
def satUsable (k : Nat) (t : GnSat) (s : State) : Bool :=
  let y := s.gnSol k
  let b := satBands t s
  bit y.systems t.system && decide ((y.elev : Int) ≤ t.elev) && b ≠ 0 && (!bit b 0 || decide (100 * y.cn0 ≤ t.cn0A)) &&
    (!bit b 1 || decide (100 * y.cn0 ≤ t.cn0B)) &&
    (!bit y.flags 0 || b = 3 || (bit y.flags 1 && (gnLost 0 s || gnLost 1 s)))

/-- Places in the view that solution `k` uses: a system beside REF_SYS with one satellite needs the broadcast offset (R356). -/
def usedSats (k : Nat) (l : List GnSat) (s : State) : List Nat :=
  let y := s.gnSol k
  let ok := (List.range l.length).filter (fun j => match l[j]? with | some t => satUsable k t s | none => false)
  let sysOf (j : Nat) := ((l[j]?).map (·.system)).getD 0
  let inSys (q : Nat) := (ok.filter (fun j => sysOf j = q)).length
  ok.filter (fun j => sysOf j = y.refSys || decide (2 ≤ inSys (sysOf j)) || ((l[j]?).map (·.offsetKnown)).getD false)

/-- Systems solved beside REF_SYS: those with two used satellites or more (R356). -/
def solvedSystems (k : Nat) (l : List GnSat) (us : List Nat) (s : State) : List Nat :=
  (List.range 4).filter (fun q => q ≠ (s.gnSol k).refSys ∧ 2 ≤ (us.filter (fun j => ((l[j]?).map (·.system)) = some q)).length)

/-- At least four satellites and one more for each system solved (R357). -/
def enough (k : Nat) (l : List GnSat) (us : List Nat) (s : State) : Bool :=
  decide (4 + (solvedSystems k l us s).length ≤ us.length)

/-! ### Integrity and spoofing checks -/

/-- What the checks carry from one to the next: the state, satellites used, exclusions made (place, check), the first check that
found SPOOF, and whether the residual check fails for good. -/
structure GnCheck where
  s : State
  used : List Nat
  out : List (Nat × Nat)
  spoof : Option Nat
  integrity : Bool

/-- A satellite of the view is excluded by check `c`, and GN_SAT_EXCLUDE is raised (R363). -/
def excludeSat (k : Nat) (l : List GnSat) (c j : Nat) (v : GnCheck) : GnCheck :=
  let t := l[j]?
  { v with
    s := raiseEv (70 + k) 0 0x0602 [(20, le 1 ((t.map (·.system)).getD 0)), (21, le 1 ((t.map (·.prn)).getD 0)), (22, le 1 c)] v.s
    used := v.used.filter (· ≠ j), out := v.out ++ [(j, c)] }

/-- The solution with `n` satellites excluded. -/
def fixAt (o : GnEpoch) (n : Nat) : Option GnFix := match o.fixes[n]? with | some f => some f | none => o.fixes.getLast?

/-- SPOOF is found by check `c`; the first check that finds it is kept. -/
def GnCheck.found (v : GnCheck) (c : Nat) : GnCheck := { v with spoof := match v.spoof with | some d => some d | none => some c }

/-- The residual check (R363). -/
def checkResidual (k : Nat) (l : List GnSat) (o : GnEpoch) (v : GnCheck) : GnCheck :=
  match fixAt o v.out.length with
  | none => v
  | some f =>
    if f.passes then v
    else
      let v := excludeSat k l 1 f.worst v
      let again := ((fixAt o v.out.length).map (·.passes)).getD false
      { v with integrity := !again || !enough k l v.used v.s }

/-- The ionosphere check: dual-frequency delays outside −3 to 100 ns (R363). -/
def checkIono (k : Nat) (l : List GnSat) (v : GnCheck) : GnCheck :=
  let bad := v.used.filter (fun j => match l[j]? with
    | some t => satBands t v.s = 3 && (decide (t.iono < -3000) || decide (100000 < t.iono))
    | none => false)
  let v := bad.foldl (fun v j => excludeSat k l 2 j v) v
  if 4 ≤ bad.length then v.found 4 else v

/-- The inter-system check: a solved offset more than 30 ns from its mean of the last hour (R363). -/
def checkSystems (k : Nat) (l : List GnSat) (o : GnEpoch) (v : GnCheck) : GnCheck :=
  let y := v.s.gnSol k
  match fixAt o v.out.length with
  | none => v
  | some f =>
    let bad := (solvedSystems k l v.used v.s).filter (fun q =>
      let h := (y.isos.filter (fun e => e.1 = q)).map (fun e => e.2.2)
      h ≠ [] && decide (300 * h.length < (h.sum - (h.length : Int) * f.iso.getD q 0).natAbs))
    let v := bad.foldl (fun v q =>
      (v.used.filter (fun j => ((l[j]?).map (·.system)) = some q)).foldl (fun v j => excludeSat k l 3 j v) v) v
    if 2 ≤ bad.length then v.found 5 else v

/-- The position check: more than 50 m from the held position for 10 epochs in a row (R363). -/
def checkPosition (k : Nat) (o : GnEpoch) (v : GnCheck) : GnCheck :=
  match fixAt o v.out.length with
  | none => v
  | some f =>
    let g := v.s.gn
    let r := (f.x - g.x) ^ 2 + (f.y - g.y) ^ 2 + (f.z - g.z) ^ 2
    let y := v.s.gnSol k
    let n := if gnHeld v.s = true ∧ 25000000 < r then y.offPos + 1 else 0
    let v := { v with s := v.s.setGnSol k { y with offPos := n } }
    if 10 ≤ n then v.found 6 else v

/-- The signal power check: at least 6 satellites tracked, mean above 45 dB-Hz, deviation below 1.0 dB (R363). -/
def checkPower (l : List GnSat) (v : GnCheck) : GnCheck :=
  let c := (l.filter (fun t => satBands t v.s ≠ 0)).map satCn0
  let n := c.length
  let q := (c.map (fun x => x * x)).sum
  if 6 ≤ n ∧ 4500 * n < c.sum ∧ q * n - c.sum * c.sum < 10000 * n * n then v.found 7 else v

/-- The linear fit of the VALID epochs of the last 60 s (DTT, time less DTT in 2⁻¹⁶ ns) at DTT `x`; none with fewer than two. -/
def fitEpochs (l : List (Nat × Int)) (x : Nat) : Option Int :=
  let n : Int := l.length
  let p := l.map (fun e => ((e.1 : Int) - x, e.2))
  let sx := (p.map (·.1)).sum
  let sy := (p.map (·.2)).sum
  let sxx := (p.map (fun e => e.1 * e.1)).sum
  let sxy := (p.map (fun e => e.1 * e.2)).sum
  let d := n * sxx - sx * sx
  if d ≤ 0 then none else some (divRound (sy * sxx - sx * sxy) d)

/-! ### Epochs -/

/-- T_G of a fix before the antenna delay (R353): the reference system's time and its nominal offset from TAI, or its broadcast
UTC and the broadcast TAI − UTC. -/
def fixTai (k : Nat) (o : GnEpoch) (f : GnFix) (s : State) : Int :=
  let y := s.gnSol k
  if bit y.flags 2 then f.utc + o.taiUtc * 65536000000000 else f.time + (if y.refSys = 2 then 33 else 19) * 65536000000000

/-- Accuracy class of a solution (R358). -/
def gnClass (sigma : Nat) (s : State) : Nat :=
  ((List.range 31).find? (fun k => decide (3 * sigma + s.gn.unc ≤ 100 * 2 ^ k))).getD 31

/-- Decoded ephemerides take the place of those held of the same or an older issue; one of a loaded issue that places its satellite
more than 10 m away raises GN_EPH_MISMATCH (R370). -/
def takeDecoded (d : GnDecoded) (s : State) : State :=
  let same (r : NavRec) : Bool := r.kind = 1 && r.system = d.system && r.prn = d.prn && r.format = d.format
  let new : NavRec := ⟨1, d.system, d.prn, d.format, d.blocks, false⟩
  let iss := Config.navIssue d.format d.blocks
  let put (s : State) : State := { s with gn := { s.gn with nav := s.gn.nav.filter (fun r => !same r) ++ [new] } }
  match s.gn.nav.find? same with
  | none => put s
  | some r =>
    let old := Config.navIssue r.format r.blocks
    if iss < old then s
    else if r.loaded && iss = old then
      if 1000 < d.diff then put (raiseEv 100 1 0x0606 [(20, le 1 d.system), (21, le 1 d.prn), (24, le 4 d.diff)] s) else put s
    else put s

/-- A broadcast change of TAI − UTC is announced once (R371). -/
def takeLeap (k : Nat) (o : GnEpoch) (s : State) : State :=
  match o.leap with
  | none => s
  | some p =>
    if (s.gnSol k).leap = some p then s
    else raiseEv (70 + k) 0 0x0607 [(20, leI 2 p.1), (24, le 6 p.2)] (s.setGnSol k { s.gnSol k with leap := some p })

/-- A VALID epoch: its class, its place in the histories, and the phase sample it delivers (R352, R358). -/
def validEpoch (k : Nat) (f : GnFix) (tg : Int) (s : State) : State :=
  let kc := gnClass f.sigma s
  let y := s.gnSol k
  let keep := y.valids.filter (fun e => decide (s.dtt < e.1 + 46875000000))
  let s := s.setGnSol k { y with valids := (s.dtt, tg - divRound ((s.dtt : Int) * 8388608) 100) :: keep }
  let s := s.setF (Reg.rsCandStatusAccK (6 + k)) kc
  let s := s.setCand (6 + k) { s.cand (6 + k) with accOwn := classBound kc }
  refSample (6 + k) s.now80 f.sys tg s

/-- The state that an epoch leaves a solution in (R357, R363, R366): `cause` 0 where every check passes. -/
def epochState (k cause : Nat) (ok : Bool) (s : State) : State :=
  match gnState k s with
  | 1 => if !ok then s else if !gnHeld s then setGnState k 2 0 s else if cause = 0 then setGnState k 3 0 s else s
  | 2 => s
  | 3 => if cause = 0 ∧ gnHeld s = true then s else setGnState k 4 cause s
  | _ => if cause = 0 ∧ gnHeld s = true then setGnState k 3 0 s else setGnState k 4 cause s

/-- A fix of VALID quality during a survey joins its mean (R359). -/
def surveyFix (k : Nat) (f : GnFix) (s : State) : State :=
  let y := s.gnSol k
  s.setGnSol k { y with surveyed := y.surveyed + 781250000 / max 1 y.rate, fixes := y.fixes + 1, sumX := y.sumX + f.x, sumY := y.sumY + f.y,
                        sumZ := y.sumZ + f.z }

/-- GNSS_EPOCH: one epoch of solution `sol` on its grid (R352): satellites, solution, checks in order, state, sample. -/
def execGnssEpoch (sol : Nat) (o : GnEpoch) (s : State) : Out :=
  let y := s.gnSol sol
  if 2 ≤ sol ∨ gnState sol s = 0 ∨ s.awake 52 = false ∨ s.dtt * y.rate % 781250000 ≠ 0 then .next s
  else
    let s := takeLeap sol o (o.decoded.foldl (fun s d => takeDecoded d s) s)
    let l := channelView o.sats s
    let s := { s with gn := { s.gn with view := l } }
    let s := s.setF Reg.gnStatusChannels ((l.map (fun t => b2n (decide (2 ≤ t.stateA)) + b2n (decide (2 ≤ t.stateB)))).sum)
    let s := if l.any (fun t => satBands t s ≠ 0) then s.setGnSol sol { s.gnSol sol with lastSat := s.dtt } else s
    let us := usedSats sol l s
    let ok0 := enough sol l us s
    let v := checkResidual sol l o ⟨s, us, [], none, false⟩
    let v := checkPower l (checkPosition sol o (checkSystems sol l o (checkIono sol l v)))
    let s := v.s
    let sf := v.used.any (fun j => match l[j]? with | some t => satBands t s ≠ 3 | none => false)
    let delay := delayOf sol sf s
    let ok := enough sol l v.used s
    let y := s.gnSol sol
    let spoof := (v.spoof.isSome || y.spoofUntil.isSome)
    let s := match v.spoof with
      | none => s
      | some c =>
        let s := if y.spoofUntil.isSome then s else raiseEv (70 + sol) 3 0x0603 [(20, le 1 1), (21, le 1 c)] s
        (s.setB (Reg.gnSolStatusSpoof sol) true).setGnSol sol
          { s.gnSol sol with spoofUntil := some (s.dtt + y.holdS * 781250000), spoofCheck := c }
    let portOut := (gnLost 0 s || gnLost 1 s) && (!bit y.flags 1 || ((s.gn.loA = 0 || gnLost 0 s) && (s.gn.loB = 0 || gnLost 1 s)))
    let f := fixAt o v.out.length
    let tg := match f with | some f => fixTai sol o f s - delay | none => 0
    -- a change of delay moves the epoch, and the jump check disregards that move (R362)
    let y : GnSol := { s.gnSol sol with valids := (s.gnSol sol).valids.map (fun e => (e.1, e.2 - (delay - y.delay))), delay := delay }
    let recent := y.valids.filter (fun e => decide (s.dtt < e.1 + 46875000000))
    let jump : Bool := match fitEpochs recent s.dtt with
      | some p => decide (3276800 < (tg - divRound ((s.dtt : Int) * 8388608) 100 - p).natAbs)
      | none => false
    let cause := if y.command then 5 else if portOut then 6 else if !ok0 || f.isNone then 1 else if v.integrity || !ok then 2
      else if spoof then 4 else if jump then 3 else 0
    let solved := solvedSystems sol l v.used s
    let iso := (List.range 4).map (fun q => if q = y.refSys then 0 else if solved.contains q then ((f.map (fun f => f.iso.getD q 0)).getD 0) else -(2 ^ 31))
    let isos := (solved.map (fun q => (q, s.dtt, iso.getD q 0))) ++ y.isos.filter (fun e => decide (s.dtt < e.2.1 + 2812500000000))
    let s := s.setGnSol sol { y with command := false, used := v.used, excluded := v.out, iso := iso, isos := isos }
    let s := (s.setF (Reg.gnSolStatusSats sol) v.used.length).setF (Reg.gnSolStatusSystems sol)
      (maskOf (v.used.map (fun j => ((l[j]?).map (·.system)).getD 0)))
    let s := s.setB (Reg.gnSolStatusSf sol) sf
    let s := match f with
      | some f => (s.setF (Reg.gnSolSigma sol) (sat (2 ^ 32 - 1) f.sigma)).setF (Reg.gnSolStatusAccK sol) (gnClass f.sigma s)
      | none => s
    let s := match f with
      | some f => if cause = 0 ∧ gnHeld s = false ∧ 2 ≤ gnState sol s then surveyFix sol f s else s
      | none => s
    let s := if gnState sol s = 1 ∧ y.command = true then setGnState sol 4 5 s
      else if gnState sol s = 2 ∧ y.command = true then setGnState sol 4 5 s else epochState sol cause ok s
    match f with
    | some f => if gnState sol s = 3 then .next (validEpoch sol f tg s) else .next s
    | none => .next s

/-- GN_RATE_CHANGE: a new RATE takes effect at a multiple of 781,250,000 ticks; where the solution is a domain's selected reference
the domain's lock count restarts (R352). -/
def execGnRateChange (sol : Nat) (s : State) : Out :=
  match (s.gnSol sol).rateNext with
  | some r =>
    if sol < 2 ∧ s.dtt % 781250000 = 0 then
      let s := s.setGnSol sol { s.gnSol sol with rate := r, rateNext := none }
      let s := s.setCand (6 + sol) { s.cand (6 + sol) with nomFreq := 1000 * r }
      .next ([0, 1].foldl (fun s d => if selOf d s = some (6 + sol) then
        (s.setF (Reg.plDStatusCount d) 0).setRd d { s.rd d with outCount := 0 } else s) s)
    else .next s
  | none => .next s

/-! ### Sample ports -/

/-- The port's OK bits (R346). -/
def setPortOk (port : Nat) (b : Bool) (s : State) : State :=
  (s.setB (Reg.gnPortOk port) b).setB (if port = 0 then Reg.gnStatusGnaOk else Reg.gnStatusGnbOk) b

/-- Whether a port is in use: configured, with the GNSS island awake. -/
def portUsed (port : Nat) (s : State) : Bool :=
  decide (port < 2) && (if port = 0 then s.gn.loA else s.gn.loB) ≠ 0 && s.awake 52

/-- GN_PORT_LOSS: a port's clock shows no edge for 1 µs or leaves its range (R346). -/
def execGnPortLoss (port : Nat) (clkOff : Int) (s : State) : Out :=
  if portUsed port s && s.isF (Reg.gnPortOk port) then
    .next (raiseEv 100 1 0x0604 [(20, le 1 port), (21, le 1 1)] (setPortOk port false (s.setI (Reg.gnPortClkOff port) clkOff)))
  else .next s

/-- GN_PORT_RETURN: the clock has been present and within ±100 × 10⁻⁶ for 100 ms (R346). -/
def execGnPortReturn (port : Nat) (clkOff : Int) (s : State) : Out :=
  if portUsed port s && !s.isF (Reg.gnPortOk port) && decide (clkOff.natAbs ≤ 10000) then
    .next (raiseEv 100 1 0x0604 [(20, le 1 port), (21, le 1 2)] (setPortOk port true (s.setI (Reg.gnPortClkOff port) clkOff)))
  else .next s

/-- GN_MAG_CHECK: of `total` components of 100 ms, `mag` had the magnitude bit set (R347). -/
def execGnMagCheck (port mag total : Nat) (s : State) : Out :=
  if portUsed port s && s.isF (Reg.gnPortOk port) && decide (0 < total ∧ mag ≤ total) then
    let s := s.setF (Reg.gnPortMagPct port) (100 * mag / total)
    if 100 * mag < 25 * total ∨ 40 * total < 100 * mag then .next (raiseEv 100 1 0x0604 [(20, le 1 port), (21, le 1 3)] s)
    else .next s
  else .next s

/-! ### Position and hold timers -/

/-- SURVEY_DONE: a survey of SURVEY_S seconds of fixes holds its mean (R359); the solution in SURVEY is VALID (R366). -/
def execSurveyDone (sol : Nat) (s : State) : Out :=
  let y := s.gnSol sol
  if 2 ≤ sol ∨ gnHeld s = true ∨ gnState sol s < 2 ∨ y.fixes = 0 ∨ y.surveyed < s.gn.surveyS * 781250000 then .next s
  else
    let m (v : Int) : Int := divRound v y.fixes
    let s := showHeld true { s with gn := { s.gn with x := m y.sumX, y := m y.sumY, z := m y.sumZ } }
    let s := raiseEv (70 + sol) 0 0x0605 [(20, leI 4 (m y.sumX)), (24, leI 4 (m y.sumY)), (28, leI 4 (m y.sumZ))] s
    .next ([0, 1].foldl (fun s k => if gnState k s = 2 then setGnState k 3 0 s else s) s)

/-- SPOOF_HOLD_EXPIRY: no check has found SPOOF for SPOOF_HOLD_S seconds (R364). -/
def execSpoofHoldExpiry (sol : Nat) (s : State) : Out :=
  match (s.gnSol sol).spoofUntil with
  | some t =>
    if sol < 2 ∧ t ≤ s.dtt then
      let c := (s.gnSol sol).spoofCheck
      let s := (s.setB (Reg.gnSolStatusSpoof sol) false).setGnSol sol { s.gnSol sol with spoofUntil := none }
      .next (raiseEv (70 + sol) 3 0x0603 [(20, le 1 0), (21, le 1 c)] s)
    else .next s
  | none => .next s

/-- GN_NO_SAT_TIMEOUT: no satellite tracked for 10 s (R366). -/
def execGnNoSatTimeout (sol : Nat) (s : State) : Out :=
  if sol < 2 ∧ 2 ≤ gnState sol s ∧ (s.gnSol sol).lastSat + 7812500000 ≤ s.dtt then .next (setGnState sol 1 1 s) else .next s

/-! ### Commands -/

/-- The signals of a system on a port: centre frequency and half main-lobe width in Hz (R343, R345, R354). -/
def signalOf (port sys : Nat) : Nat × Nat :=
  if port = 1 then (1176450000, 10230000)
  else if sys = 2 then (1561098000, 2046000) else if sys = 1 then (1575420000, 2046000) else (1575420000, 1023000)

/-- Whether a port's LO and SPS take every signal of SYSTEMS (R345). -/
def portTakes (port lo sps systems : Nat) : Bool :=
  (List.range 4).all (fun q => !bit systems q ||
    (let g := signalOf port q
     decide (20 * ((((g.1 : Int) - lo).natAbs) + g.2) ≤ 9 * sps)))

/-- The shared baseband settings in force: LO, SPS and spacing of both ports and the INV flags. -/
def sharedSettings (s : State) : List Nat :=
  [s.gn.loA, s.gn.spsA, s.gn.loB, s.gn.spsB, s.gn.spacingA, s.gn.spacingB, s.getF (Reg.gnPortInv 0), s.getF (Reg.gnPortInv 1)]

/-- The shared settings a GN_ENABLE carries. -/
def sharedOf (c : Cmd) : List Nat :=
  [cu c 12 4, cu c 16 4, cu c 20 4, cu c 24 4, cu c 28 1, cu c 29 1, b2n (cbit c 4 3), b2n (cbit c 4 4)]

/-- SPS is one of the two nominal rates. -/
def spsOk (v : Nat) : Bool := v = 40920000 || v = 81840000

def gnEnableSpec : CmdSpec :=
  { opcode := 0x0601, lenOk := lenIs 32
    args := fun c _ =>
      let sy := cu c 2 1
      firstBad ([(0, decide (1 < cu c 0 1)), (1, decide (1 < cu c 1 1)), reservedAbove c 2 4,
        (3, decide (2 < cu c 3 1) || !bit sy (cu c 3 1)), reservedAbove c 4 5, (5, !([1, 2, 5, 10].contains (cu c 5 1))),
        (6, decide (45 < cu c 6 1)), (7, decide (cu c 7 1 < 20 ∨ 45 < cu c 7 1)), (8, decide (1 < cu c 8 1) && cu c 8 1 ≠ 255),
        (10, decide (3600 < cu c 10 2)), (12, cu c 12 4 ≠ 0 && spsOk (cu c 16 4) && !portTakes 0 (cu c 12 4) (cu c 16 4) sy),
        (16, cu c 12 4 ≠ 0 && !spsOk (cu c 16 4)), (20, cu c 20 4 ≠ 0 && spsOk (cu c 24 4) && !portTakes 1 (cu c 20 4) (cu c 24 4) sy),
        (24, cu c 20 4 ≠ 0 && !spsOk (cu c 24 4)), (28, decide (16 < cu c 28 1)), (29, decide (16 < cu c 29 1))] ++
        reserved c 9 1 ++ reserved c 30 2)
    stops := fun c s =>
      firstStop [(gnState (1 - cu c 0 1) s ≠ 0 && sharedOf c ≠ sharedSettings s, stRefused, 0x0601),
        (cu c 1 1 = 1 && cu c 12 4 = 0 && cu c 20 4 = 0, stRefused, 0x0602)] }

/-- The GNSS island sleeps while both solutions are OFF (R367): its ports are lost with it. -/
def gnSleep (s : State) : State :=
  if gnState 0 s = 0 ∧ gnState 1 s = 0 then
    let s := setPortOk 1 false (setPortOk 0 false { s with islands := s.islands.filter (fun k => k ≠ 52) })
    (({ s with gn := { s.gn with view := [] } }).setB Reg.gnStatusAwake false).setF Reg.gnStatusChannels 0
  else s

/-- The settings of GN_ENABLE and its state change, with the GNSS island awake where ON (R352, R366, R367). -/
def gnEnableDo (c : Cmd) (s : State) : State × Reply :=
  let k := cu c 0 1
  let y := s.gnSol k
  let on := gnState k s ≠ 0
  let rate := cu c 5 1
  let y := { y with systems := cu c 2 1, refSys := cu c 3 1, flags := cu c 4 1 % 8, elev := cu c 6 1, cn0 := cu c 7 1, aid := cu c 8 1,
                    holdS := cu c 10 2 }
  let y := if on && cu c 1 1 = 1 then { y with rateNext := if y.rate = rate then none else some rate } else { y with rate := rate, rateNext := none }
  let s := s.setGnSol k y
  let s := s.setCand (6 + k) { s.cand (6 + k) with nomFreq := 1000 * y.rate }
  let s := { s with gn := { s.gn with loA := cu c 12 4, spsA := cu c 16 4, loB := cu c 20 4, spsB := cu c 24 4, spacingA := cu c 28 1,
                                      spacingB := cu c 29 1 } }
  let s := (s.setB (Reg.gnPortInv 0) (cbit c 4 3)).setB (Reg.gnPortInv 1) (cbit c 4 4)
  if cu c 1 1 = 1 then
    let s := s.setB Reg.gnStatusAwake true
    if on then (s, okReply)
    else
      let s := s.setGnSol k { s.gnSol k with command := false, spoofUntil := none, offPos := 0, valids := [], isos := [], iso := [], leap := none }
      (setGnState k 1 0 s, okReply)
  else
    let s := setGnState k 0 0 (s.setB (Reg.gnSolStatusSpoof k) false)
    let s := s.setGnSol k { s.gnSol k with spoofUntil := none, used := [], excluded := [] }
    (gnSleep ((s.setF (Reg.gnSolStatusSats k) 0).setF (Reg.gnSolStatusSystems k) 0), okReply)

/-- GN_ENABLE: with ON it waits for the GNSS island to wake (R35, R367). -/
def gnEnableEffect (c : Cmd) (s : State) : State × Option Reply :=
  if cu c 1 1 = 1 ∧ s.awake 52 = false then (s, none)
  else let r := gnEnableDo c s; (r.1, some r.2)

/-- GN_ENABLE (R366, R374). -/
def execGnEnable (c : Cmd) (s : State) : Out := runHeld gnEnableSpec gnEnableEffect c s

/-- The records of a load stream: offset of each and its NBLK; none where they do not exactly fill it (R369). -/
def loadRecords : Nat → Nat → Bytes → Option (List (Nat × Nat))
  | 0, _, _ => some []
  | n + 1, o, p =>
    if p.length ≤ o then (if p.length = o then some [] else none)
    else if p.length < o + 4 then none
    else
      let nb := ofLe (slice p (o + 3) 1)
      (loadRecords n (o + 4 + 40 * nb) p).map (fun l => (o, nb) :: l)

/-- The payload of a load as far as LEN goes. -/
def loadBytes (c : Cmd) : Bytes := slice c.payload 0 c.len

/-- Whether a FORMAT belongs to a SYSTEM (R368). -/
def formatFits (sys fmt : Nat) : Bool :=
  if sys = 0 ∨ sys = 3 then fmt = 1 || fmt = 2 else if sys = 1 then fmt = 3 || fmt = 4 else if sys = 2 then fmt = 5 || fmt = 6 || fmt = 7 else false

/-- The record of a load stream at an offset, as R368 lays it out. -/
def loadRecord (kind : Nat) (p : Bytes) (e : Nat × Nat) : NavRec :=
  ⟨kind, ofLe (slice p e.1 1), ofLe (slice p (e.1 + 1) 1), ofLe (slice p (e.1 + 2) 1),
    (List.range e.2).map (fun b => slice p (e.1 + 4 + 40 * b) 40), true⟩

/-- A record with blocks is accepted where its format fits and every block passes; it replaces one held of an older issue (R369). -/
def takeRecord (r : NavRec) (s : State) : Bool × State :=
  if !formatFits r.system r.format || r.blocks.any (fun b => decide (304 < ofLe (slice b 0 2)) || !Config.navBlockOk r.format b) then (false, s)
  else
    let same (x : NavRec) : Bool := x.kind = r.kind && x.system = r.system && x.prn = r.prn && x.format = r.format
    match s.gn.nav.find? same with
    | some x =>
      if Config.navIssue x.format x.blocks < Config.navIssue r.format r.blocks then
        (true, { s with gn := { s.gn with nav := s.gn.nav.filter (fun x => !same x) ++ [r] } })
      else (true, s)
    | none => (true, { s with gn := { s.gn with nav := s.gn.nav ++ [r] } })

/-- The result of a load: accepted, rejected, first rejected (R374). -/
def loadReply (o : LongOp) : Reply := okWith [(32, le 4 (o.work.getD 1 0)), (36, le 4 (o.work.getD 2 0)), (40, le 4 (o.work.getD 3 0xFFFFFFFF))]

/-- One step of a load: up to 16 records in order; `work` holds the records handled, accepted, rejected and the first rejected. -/
def loadStep (kind : Nat) (o : LongOp) (s : State) : State × StepEnd :=
  let p := loadBytes o.cmd
  let all := (loadRecords (o.cmd.len + 1) 0 p).getD []
  let v0 := if o.work = [] then [0, 0, 0, 0xFFFFFFFF] else o.work
  let r := ((all.drop (v0.getD 0 0)).take 16).foldl (fun a e =>
    let v := a.1
    let n := v.getD 0 0
    if e.2 = 0 then (v.set 0 (n + 1), a.2)
    else
      let t := takeRecord (loadRecord kind p e) a.2
      if t.1 then ((v.set 0 (n + 1)).set 1 (v.getD 1 0 + 1), t.2)
      else (((v.set 0 (n + 1)).set 2 (v.getD 2 0 + 1)).set 3 (min n (v.getD 3 0)), t.2)) (v0, s)
  let o := { o with work := r.1, estimate := (all.length + 15) / 16 }
  if r.1.getD 0 0 < all.length then (r.2.setB Reg.gnStatusLoad true, .more o)
  else (r.2.setB Reg.gnStatusLoad false, .done (loadReply o))

/-- What the two load commands share (R369, R374). -/
def loadSpec (op : Nat) : CmdSpec :=
  { opcode := op, stepped := true, lenOk := fun n => decide (4 ≤ n)
    lenBy := fun c => (loadRecords (c.len + 1) 0 (loadBytes c)).isSome
    stops := fun _ s => firstStop [((s.mbx.longOp.map (fun o => o.opcode = 0x0602 || o.opcode = 0x0603)) = some true, stBusy, 0)] }

/-- What HST_CANCEL does to a load in progress: the records already handled stay applied. -/
def loadCancel (s : State) : State := s.setB Reg.gnStatusLoad false

/-- GN_LOAD_ALMANAC (R369). -/
def execGnLoadAlmanac (c : Cmd) (s : State) : Out := runStepped (loadSpec 0x0602) (loadStep 0) c s

/-- GN_LOAD_EPHEMERIS (R369, R370). -/
def execGnLoadEphemeris (c : Cmd) (s : State) : Out := runStepped (loadSpec 0x0603) (loadStep 1) c s

def gnSetPositionSpec : CmdSpec :=
  { opcode := 0x0604, lenOk := lenIs 20
    args := fun c _ =>
      let sv : Bool := cu c 0 1 = 0
      let xyz (o : Nat) : Bool := if sv then cu c o 4 ≠ 0 else decide (700000000 < (ci c o 4).natAbs)
      firstBad ([(0, decide (1 < cu c 0 1)), (4, if sv then decide (cu c 4 4 < 60 ∨ 86400 < cu c 4 4) else cu c 4 4 ≠ 0), (8, xyz 8),
        (12, xyz 12), (16, xyz 16)] ++ reserved c 1 3) }

/-- GN_SET_POSITION: a survey of a new duration, or a held position; every enabled solution is INVALID for the next epoch (R359,
R360). -/
def gnSetPositionEffect (c : Cmd) (s : State) : State × Reply :=
  let s := if cu c 0 1 = 0 then showHeld false { s with gn := { s.gn with surveyS := cu c 4 4 } }
    else showHeld true { s with gn := { s.gn with x := ci c 8 4, y := ci c 12 4, z := ci c 16 4 } }
  ([0, 1].foldl (fun s k =>
    s.setGnSol k { s.gnSol k with command := gnState k s ≠ 0, offPos := 0, surveyed := 0, fixes := 0, sumX := 0, sumY := 0, sumZ := 0 }) s, okReply)

/-- GN_SET_POSITION (R360, R374). -/
def execGnSetPosition (c : Cmd) (s : State) : Out := runCmd gnSetPositionSpec gnSetPositionEffect c s

def gnSetAntennaDelaySpec : CmdSpec :=
  { opcode := 0x0605, unmirrored := true, lenOk := lenIs 20
    args := fun c _ =>
      let bad (o : Nat) : Bool := decide (655360000 < cu c o 8)
      firstBad ([(0, cu c 0 1 = 0 || decide (4 ≤ cu c 0 1)), (4, bad 4), (12, bad 12)] ++ reserved c 1 1) }

/-- GN_SET_ANTENNA_DELAY: the delays and their uncertainty, which every later epoch applies (R361, R362). -/
def gnSetAntennaDelayEffect (c : Cmd) (s : State) : State × Reply :=
  let s := if cbit c 0 0 then { s with gn := { s.gn with delayA := cu c 4 8 } } else s
  let s := if cbit c 0 1 then { s with gn := { s.gn with delayB := cu c 12 8 } } else s
  ({ s with gn := { s.gn with unc := cu c 2 2 } }, okReply)

/-- GN_SET_ANTENNA_DELAY (R362, R374). -/
def execGnSetAntennaDelay (c : Cmd) (s : State) : Out := runCmd gnSetAntennaDelaySpec gnSetAntennaDelayEffect c s

/-- SIGNAL of a satellite on a band (R374). -/
def signalCode (sys band : Nat) : Nat := 3 * band + (if sys = 1 then 1 else if sys = 2 then 2 else 0)

/-- The 16-byte record of the channel that tracks place `j` of the view on a band (R374). -/
def channelRecord (j band : Nat) (t : GnSat) (s : State) : Bytes :=
  let st := if band = 0 then t.stateA else t.stateB
  let out := (((s.gnSol 0).excluded ++ (s.gnSol 1).excluded).find? (fun e => e.1 = j)).map (·.2)
  let use := b2n ((s.gnSol 0).used.contains j) + 2 * b2n ((s.gnSol 1).used.contains j) + 4 * out.getD 0
  record 16 [(0, le 1 st), (1, le 1 t.system), (2, le 1 t.prn), (3, le 1 (signalCode t.system band)),
    (4, le 2 (if band = 0 then t.cn0A else t.cn0B)), (6, leI 1 t.elev), (7, le 1 t.az), (8, le 1 use), (12, leI 4 t.resid)]

/-- The records of all 96 channels, 1,536 bytes; idle ones are zero. -/
def channelRecords (s : State) : Bytes :=
  let l := s.gn.view
  slice ((List.range l.length).map (fun j => match l[j]? with
    | some t => (if t.stateA = 0 then [] else channelRecord j 0 t s) ++ (if t.stateB = 0 then [] else channelRecord j 1 t s)
    | none => [])).flatten 0 1536

def gnStatusSpec : CmdSpec :=
  { opcode := 0x0606, unmirrored := true, reports := true, lenOk := lenIs 4
    args := fun c _ => firstBad ((0, decide (1 < cu c 0 1)) :: reserved c 1 3)
    need := fun c _ => if c.bufSize = 0 then 0 else 1536 }

/-- GN_STATUS: a solution's status and, with a result buffer, the channel records. -/
def gnStatusEffect (c : Cmd) (s : State) : State × Reply :=
  let k := cu c 0 1
  let y := s.gnSol k
  let rem := match y.spoofUntil with | some t => sat 0xFFFF ((t - s.dtt + 781249999) / 781250000) | none => 0
  let iso := (List.range 4).map (fun q => leI 4 (y.iso.getD q (if q = y.refSys then 0 else -(2 ^ 31))))
  (s, okBuf [(32, le 4 (s.regWord (0x140100 + k * 0x100))), (36, le 2 rem), (40, iso.flatten), (56, le 4 (s.getF (Reg.gnSolSigma k))),
    (60, leI 4 (divRound (delayIf y.refSys s * 1000) 65536))] (if c.bufSize = 0 then [] else channelRecords s))

/-- GN_STATUS (R374). -/
def execGnStatus (c : Cmd) (s : State) : Out := runCmd gnStatusSpec gnStatusEffect c s

end Sys2Proof.Machine
end

