-- ==== Sys2Proof/Machine/EventInputs.lean ====
section
/-! DEFINITION. Event and frequency measurement: edges and stamps (R378 to R381), FIFOs and rings (R382 to R385), pair units (R386,
R387), frequency gates (R388 to R390), the self-audit (R391 to R393), and the commands of group 0x07 (R395). -/

set_option Elab.async false

namespace Sys2Proof.Machine

/-! ### Access -/

/-- Event input `e`. -/
def State.input (s : State) (e : Nat) : EventIn := spGet EventIn.reset s.em.inputs e

/-- The state with an input replaced. -/
def State.setInput (s : State) (e : Nat) (x : EventIn) : State :=
  { s with em := { s.em with inputs := spSet EventIn.reset s.em.inputs e x } }

/-- Pair unit `u`. -/
def State.pair (s : State) (u : Nat) : PairUnit := spGet PairUnit.reset s.em.units u

/-- The state with a pair unit replaced. -/
def State.setPair (s : State) (u : Nat) (x : PairUnit) : State :=
  { s with em := { s.em with units := spSet PairUnit.reset s.em.units u x } }

/-- Whether a calibration run holds the target KIND × 64 + INDEX (R639). -/
def calHolds (k : Nat) (s : State) : Bool := s.cal.runs.any (fun r => r.target = k)

/-- Whether input `e` can stamp: enabled, awake and in service (R377, R632). -/
def inputRuns (e : Nat) (s : State) : Bool := s.isF (Reg.emStatusEn e) && s.awake (53 + e) && !calHolds (64 + e) s

/-! ### FIFO and ring -/

/-- OCC and the head window follow the FIFO (R384). -/
def showEmFifo (e : Nat) (s : State) : State :=
  let x := s.input e
  let h := x.entries.headD []
  let w (i : Nat) : Nat := ofLe (slice h (4 * i) 4)
  ((((s.setF (Reg.emFCtrlOcc e) x.entries.length).setF (Reg.emFW0 e) (w 0)).setF (Reg.emFW1 e) (w 1)).setF (Reg.emFW2 e) (w 2)).setF
    (Reg.emFW3 e) (w 3)

/-- An entry with the FIFO's LOSS enters input `e`'s FIFO; a full FIFO discards it (R385). -/
def emPut (e : Nat) (mk : Bool → Bytes) (s : State) : State :=
  let x := s.input e
  if x.entries.length < 4096 then
    let s := showEmFifo e (s.setInput e { x with entries := x.entries ++ [mk x.loss], loss := false })
    if s.isF (Reg.emStatusRing e) = false ∧ s.getF (Reg.emFCtrlThresh e) = x.entries.length + 1 then s.signalVector (14 + e) else s
  else
    let s := s.addSat (Reg.emLost e) 1
    let quiet : Bool := match x.lossAt with | none => true | some t => decide (t + 781250 ≤ s.dtt)
    if quiet then
      raiseEv (80 + e) 1 0x0701 [(24, le 4 (x.lostNew + 1))] (s.setInput e { x with loss := true, lostNew := 0, lossAt := some s.dtt })
    else s.setInput e { x with loss := true, lostNew := x.lostNew + 1 }

/-- Slots of an input's ring (R384). -/
def emRingSize (e : Nat) (s : State) : Nat := 2 ^ s.getF (Reg.emRCfgLog2sz e)

/-- Whether the input's ring has room (R73). -/
def emRingRoom (e : Nat) (s : State) : Bool :=
  s.isF (Reg.emRCfgEn e) && !s.isF (Reg.emRCfgCfgErr e) && (s.getF (Reg.emRProdIndex e) + 1) % emRingSize e s ≠ s.getF (Reg.emRConsIndex e)

/-- The interrupt condition of R78 on vector 14 + e, with THRESH and HOLDOFF of EM_INPUT_CONFIG. -/
def emSignal (e : Nat) (s : State) : State :=
  let d := s.ringDyn (24 + e)
  let x := s.input e
  let due : Bool := decide (max 1 x.thresh ≤ d.times.length) ||
    (match d.times with | [] => false | t :: _ => decide (x.holdoff * 78125 ≤ (s.dtt - t) * 100))
  if due && !d.signalled then (s.setRing (24 + e) { d with signalled := true }).signalVector (14 + e) else s

/-- Entries move from the FIFO to the host ring in order while it has room, at most `n` of them (R384). -/
def emMove : Nat → Nat → State → State
  | 0, _, s => s
  | n + 1, e, s =>
    match (s.input e).entries with
    | [] => s
    | b :: r =>
      if emRingRoom e s then
        let ix := s.getF (Reg.emRProdIndex e)
        let ph := s.isF (Reg.emRProdPhase e)
        let s := s.dma (s.get64 (Reg.emRBase e) + ix * 16) b
        let nx := (ix + 1) % emRingSize e s
        let s := s.setF (Reg.emRProdIndex e) nx
        let s := if nx = 0 then s.setB (Reg.emRProdPhase e) (!ph) else s
        let d := s.ringDyn (24 + e)
        let s := s.setRing (24 + e) { d with times := d.times ++ [s.dtt] }
        emMove n e (emSignal e (showEmFifo e (s.setInput e { s.input e with entries := r })))
      else s

/-- EM_RING_MOVE: an input's FIFO entries move to its host ring (R384), at most one for every 20 ns since the last move of any of
them (R385: 50 M entries/s in total). -/
def execEmRingMove (input : Nat) (s : State) : Out :=
  let room := if 8 * s.dtt < s.em.movedTo then 0 else (8 * s.dtt - s.em.movedTo) / 125 + 1
  let n := min room (s.input input).entries.length
  if input < 8 ∧ s.isF (Reg.emStatusRing input) = true then
    let t := if n < room then (if n = 0 then s.em.movedTo else 8 * s.dtt + 125) else s.em.movedTo + 125 * n
    .next (emMove n input { s with em := { s.em with movedTo := t } })
  else .next s

/-- A consumer index below the ring's size returns slots (R74, R78); the answer is false where it is out of range. -/
def emConsume (e ix : Nat) (s : State) : Bool × State :=
  if emRingSize e s ≤ ix then (false, s)
  else
    let n := (ix + emRingSize e s - s.getF (Reg.emRConsIndex e)) % emRingSize e s
    let d := s.ringDyn (24 + e)
    (true, emSignal e ((s.setF (Reg.emRConsIndex e) ix).setRing (24 + e) ⟨d.times.drop n, if n = 0 then d.signalled else false⟩))

/-- A pop of `n` entries of an input's FIFO (R194, R384). -/
def emPop (e n : Nat) (s : State) : State :=
  showEmFifo e (s.setInput e { s.input e with entries := (s.input e).entries.drop n })

/-! ### Intervals -/

/-- An open item older than the window at stamp `x` is unpaired (R386). -/
def expireOpen (u x : Nat) (s : State) : State :=
  let y := s.pair u
  let old (o : Option OpenItem) : Bool := match o with | some i => decide (y.win * 51200 < x - i.stamp) | none => false
  let s := if old y.openStart then (s.addSat (Reg.emIuUnpaired u) 1).setPair u { s.pair u with openStart := none } else s
  if old y.openStop then (s.addSat (Reg.emIuUnpaired u) 1).setPair u { s.pair u with openStop := none } else s

/-- The interval between two stamps in 2⁻¹⁶ ns, at the rate of the domain served at the stop (R387). -/
def intervalOf (a b : Nat) (s : State) : Int :=
  let r := (segAt (s.dom (s.servedAt b)).segs b).rate
  ((b : Int) - a) * 128 * (2 ^ 48 + r) / (100 * 2 ^ 48)

/-- A pair unit emits the interval from `a` to `b` into its STOP input's FIFO (R383, R387). -/
def emitInterval (u : Nat) (a b : OpenItem) (s : State) : State :=
  let y := s.pair u
  let v := intervalOf a.stamp b.stamp s
  let coincident : Bool := decide (v.natAbs * 1000 < 262144)
  emPut y.stop (fun loss =>
    record 16 [(0, leI 8 v), (8, le 6 (a.stamp / 2 ^ 16)),
      (14, le 1 (b2n (a.missed || b.missed) + 2 * b2n (a.invalid || b.invalid) + 4 * b2n loss + 8 * b2n coincident +
        16 * b2n (decide (v < 0)))), (15, le 1 (1 + 16 * y.start))]) s

/-- A start stamp reaches a pair unit (R386). -/
def pairStart (u : Nat) (i : OpenItem) (s : State) : State :=
  let y := s.pair u
  match y.openStop with
  | some p => emitInterval u i p (s.setPair u { y with openStop := none })
  | none =>
    let s := if y.openStart.isSome then s.addSat (Reg.emIuUnpaired u) 1 else s
    s.setPair u { y with openStart := some i }

/-- A stop stamp reaches a pair unit (R386). -/
def pairStop (u : Nat) (i : OpenItem) (s : State) : State :=
  let y := s.pair u
  match y.openStart with
  | some a => emitInterval u a i (s.setPair u { y with openStart := none })
  | none =>
    let s := if y.openStop.isSome then s.addSat (Reg.emIuUnpaired u) 1 else s
    s.setPair u { y with openStop := some i }

/-- A stamp of input `e` reaches the pair units that use it (R386). With one input as START and STOP the stamp stops the period that
the one before it started, and starts the next. -/
def pairStamp (e : Nat) (i : OpenItem) (s : State) : State :=
  (List.range 4).foldl (fun s u =>
    let y := s.pair u
    if !y.en || (y.start ≠ e && y.stop ≠ e) then s
    else
      let s := expireOpen u i.stamp s
      if y.start = y.stop then
        let s := match (s.pair u).openStart with
          | some a => emitInterval u a i (s.setPair u { s.pair u with openStart := none })
          | none => s
        s.setPair u { s.pair u with openStart := some i }
      else if y.start = e then pairStart u i s else pairStop u i s) s

/-! ### Edges -/

/-- IN_CORR for an edge at tick `x`: a change applies to every edge after its command completes (R378). -/
def inCorr (e x : Nat) (s : State) : Int := let i := s.input e; if i.corrFrom < x then i.corr else i.corrOld

/-- The measured instant of an edge in 2⁻²⁴ tick (R378). -/
def edgeTime (e tick phase code : Nat) (s : State) : Int :=
  (tick * 2 ^ 24 + phi (64 + e) 0 (40 * phase + code) tick s : Nat)

/-- The stamp of an edge in TK80: its measured instant less A_IN plus IN_CORR, rounded down (R378). -/
def edgeStamp (e tick phase code : Nat) (s : State) : Nat :=
  ((edgeTime e tick phase code s - sns24 (calDelay (64 + e) (s.input e).std tick s) + sns24 (inCorr e tick s)) / 2 ^ 8).toNat

/-- A missed edge is counted (R381), and EM_MISSED tells of a second's missed edges once it has ended (R394). -/
def missEdge (e : Nat) (s : State) : State :=
  let s := s.set64 (Reg.emMissed e) ((s.get64 (Reg.emMissed e) + 1) % 2 ^ 64)
  let x := s.input e
  s.setInput e { x with missed := x.missed + 1, missedNew := x.missedNew + 1 }

/-- EM_MISSED for the second that has ended, where edges were missed in it. -/
def missSecond (e : Nat) (s : State) : State :=
  let x := s.input e
  let sec := s.dtt / 781250000
  if x.missSec = sec then s
  else
    let s := s.setInput e { x with missSec := sec, missedNew := 0 }
    if x.missedNew = 0 then s else raiseEv (80 + e) 0 0x0702 [(24, le 4 (sat (2 ^ 32 - 1) x.missedNew))] s

/-- The gate of an input takes a stamp: index and TK80 (R388). -/
def gateTake (k x : Nat) (bad : Bool) (g : EmGate) : EmGate :=
  if x / 2 ^ 16 < g.opens ∨ g.closes ≤ x / 2 ^ 16 then g
  else
    let k0 := if g.n = 0 then k else g.k0
    let t0 := if g.n = 0 then x else g.t0
    let dk : Int := (k : Int) - k0
    let dt : Int := (x : Int) - t0
    { g with n := g.n + 1, k0 := k0, t0 := t0, bad := g.bad || bad, sk := g.sk + dk, st := g.st + dt, skk := g.skk + dk * dk,
             skt := g.skt + dk * dt, stt := g.stt + dt * dt }

/-- A presented edge is stamped (R378, R381 to R383): FIFO, pair units and gate take the stamp. -/
def stampEdge (e k : Nat) (falling : Bool) (tick phase code : Nat) (s : State) : State :=
  let x := s.input e
  let t := edgeStamp e tick phase code s
  let invalid := !s.innerLocked || !s.isF (Reg.emStatusCalOk e)
  let was := decide (0 < x.missed)
  let n := x.stored + 1
  let store := x.storeN ≠ 0 && decide (x.storeN ≤ n)
  let only := (List.range 4).any (fun u => (s.pair u).en && (s.pair u).stop = e && (s.pair u).pairOnly)
  let s := s.setInput e { x with last := some (edgeTime e tick phase code s), missed := 0, stored := if store then 0 else n,
                                 gate := x.gate.map (gateTake k t invalid) }
  let s := if store && !only then
      emPut e (fun loss => record 16 [(0, le 10 t), (10, le 2 (sat 0xFFFF x.missed)),
        (14, le 1 (b2n was + 2 * b2n invalid + 4 * b2n loss + 32 * b2n falling)), (15, le 1 0)]) s
    else s
  pairStamp e ⟨t, was, invalid⟩ s

/-- EVTIN_EDGE: an edge on input `input` (R380, R381): qualified by EDGE, counted by the prescaler, presented every PRE-th time, and
then stamped, or missed within 5.12 ns of the last stamp or while a calibration run holds the input. -/
def execEvtinEdge (input : Nat) (falling : Bool) (tick phase code : Nat) (s : State) : Out :=
  if 8 ≤ input ∨ s.isF (Reg.emStatusEn input) = false ∨ s.awake (53 + input) = false ∨ 8 ≤ phase ∨ 40 ≤ code then .next s
  else
    let s := missSecond input s
    let x := s.input input
    if bit x.edge (b2n falling) = false then .next s
    else
      let n := x.edges + 1
      let s := s.setInput input { x with edges := n }
      if n % x.pre ≠ 0 then .next s
      else
        let t := edgeTime input tick phase code s
        let dead : Bool := match x.last with | some l => decide (t - l < 4 * 2 ^ 24) | none => false
        if dead || calHolds (64 + input) s then .next (missEdge input s)
        else .next (stampEdge input (n / x.pre) falling tick phase code s)

/-! ### Frequency -/

/-- The determinants of the regression: N Σk² − (Σk)², N Σkt − Σk Σt and N Σt² − (Σt)². -/
def EmGate.dets (g : EmGate) : Int × Int × Int :=
  (g.n * g.skk - g.sk * g.sk, g.n * g.skt - g.sk * g.st, g.n * g.stt - g.st * g.st)

/-- f of a gate in 2⁻³² Hz: PRE over the slope, converted with the served rate (R388); none where no slope exists. -/
def gateFreq (pre : Nat) (rate : Int) (g : EmGate) : Option Nat :=
  let d := g.dets
  if d.1 ≤ 0 ∨ d.2.1 ≤ 0 then none
  else some ((((pre : Int) * 2 ^ 96 * 10 ^ 11 * d.1) / (128 * d.2.1 * (2 ^ 48 + rate))).toNat)

/-- σ_y of a gate in 10⁻¹⁸, from the fit residuals with N − 2 degrees of freedom (R388); none where the residuals give none. -/
def gateSigma (g : EmGate) : Option Nat :=
  let d := g.dets
  if g.n < 3 ∨ d.1 ≤ 0 ∨ d.2.1 ≤ 0 then none
  else
    let v := (d.2.2 * d.1 - d.2.1 * d.2.1) * 10 ^ 36 / ((g.n - 2 : Int) * d.2.1 * d.2.1)
    some (sat (2 ^ 32 - 1) (isqrt (min v.toNat (2 ^ 64))))

/-- A gate closes with its result in the EM_FQ registers and EM_FREQ_DONE (R388, R389). Where the stamps give no period or no
deviation the manual states no value. -/
def gateClose (e : Nat) (g : EmGate) (s : State) : State :=
  let x := s.input e
  let s := (s.setInput e { x with gate := none }).setB (Reg.emStatusGate e) false
  let rate := (segAt (s.dom (s.servedAt (g.closes * 2 ^ 16))).segs (g.closes * 2 ^ 16)).rate
  let f := match gateFreq x.pre rate g with | some v => (v, s) | none => s.draw
  let q := match gateSigma g with | some v => (v, f.2) | none => f.2.draw
  let s := q.2
  let bad := g.bad || decide (g.n < 3)
  let s := (s.set64 (Reg.emFqFreq e) (f.1 % 2 ^ 64)).setF (Reg.emFqSigma e) q.1
  let s := (s.setB (Reg.emFqInfoInvalid e) bad).setF (Reg.emFqInfoN e) (sat (2 ^ 24 - 1) g.n)
  raiseEv (80 + e) 0 0x0703 [(20, le 8 (f.1 % 2 ^ 64)), (28, le 3 (sat (2 ^ 24 - 1) g.n)), (31, le 1 (b2n bad))] s

/-- EM_GATE_OPEN: a gate opens 64 ticks after its command (R388). -/
def execEmGateOpen (input : Nat) (s : State) : Out :=
  match (s.input input).gate with
  | some g => if input < 8 ∧ g.opens ≤ s.dtt then .next (s.setB (Reg.emStatusGate input) true) else .next s
  | none => .next s

/-- EM_GATE_CLOSE: a gate closes after GATE ms (R388). -/
def execEmGateClose (input : Nat) (s : State) : Out :=
  match (s.input input).gate with
  | some g =>
    if input < 8 ∧ g.closes ≤ s.dtt then
      .next (gateClose input { g with bad := g.bad || !s.innerLocked } s)
    else .next s
  | none => .next s

/-! ### Commands -/

/-- The stamp at which the command in service completes. -/
def cmdEnd (s : State) : Nat := s.dtt

def emInputConfigSpec : CmdSpec :=
  { opcode := 0x0701, lenOk := lenIs 32
    args := fun c _ =>
      let ring := cbit c 1 4
      firstBad ([(0, decide (7 < cu c 0 1)), (1, decide (32 ≤ cu c 1 1) || cu c 1 1 / 4 % 4 = 0), (2, cu c 2 2 = 0),
        (8, if ring then cu c 8 8 % 4096 ≠ 0 else cu c 8 8 ≠ 0),
        (16, if ring then decide (cu c 16 1 < 6 ∨ 16 < cu c 16 1) else cu c 16 1 ≠ 0), (24, decide (65536000 < (ci c 24 8).natAbs))] ++
        reserved c 17 1 ++ reserved c 22 2) }

/-- The settings of EM_INPUT_CONFIG, with the island awake where EN (R377, R384, R389). -/
def emInputConfigDo (c : Cmd) (s : State) : State × Reply :=
  let e := cu c 0 1
  let en := cbit c 1 0
  let x := s.input e
  let s := match x.gate with | some g => gateClose e { g with bad := true, closes := min s.dtt g.closes } s | none => s
  let x := s.input e
  let fin := cmdEnd s
  let s := s.setInput e { x with
    std := b2n (cbit c 1 1), edge := cu c 1 1 / 4 % 4, pre := cu c 2 2, storeN := cu c 4 4, thresh := cu c 18 2, holdoff := cu c 20 2,
    corr := ci c 24 8, corrOld := inCorr e s.dtt s, corrFrom := fin, edges := 0, last := none, missed := 0, stored := 0 }
  let s := showRecTemp (64 + e) s
  let ring := cbit c 1 4
  let s := (((s.set64 (Reg.emRBase e) (cu c 8 8)).setF (Reg.emRCfgLog2sz e) (cu c 16 1)).setB (Reg.emRCfgEn e) ring).setB (Reg.emStatusRing e) ring
  let s := if ring then (((s.setF (Reg.emRProdIndex e) 0).setB (Reg.emRProdPhase e) true).setF (Reg.emRConsIndex e) 0).setRing (24 + e) ⟨[], false⟩ else s
  let s := s.setB (Reg.emStatusEn e) en
  if en then (s, okReply)
  else
    let s := (s.setB (Reg.emStatusAwake e) false).setB (Reg.emStatusCalOk e) false
    ({ s with islands := s.islands.filter (fun k => k ≠ 53 + e), cal := { s.cal with runs := s.cal.runs.filter (fun r => r.target ≠ 64 + e) } }, okReply)

/-- EM_INPUT_CONFIG: with EN it waits for the input's island to wake (R35, R377). -/
def emInputConfigEffect (c : Cmd) (s : State) : State × Option Reply :=
  if cbit c 1 0 ∧ s.awake (53 + cu c 0 1) = false then (s, none)
  else let r := emInputConfigDo c s; (r.1, some r.2)

/-- EM_INPUT_CONFIG (R377, R395). -/
def execEmInputConfig (c : Cmd) (s : State) : Out := runHeld emInputConfigSpec emInputConfigEffect c s

def emIntervalSpec : CmdSpec :=
  { opcode := 0x0702, unmirrored := true, lenOk := lenIs 8
    args := fun c _ => firstBad [(0, decide (3 < cu c 0 1)), (1, decide (7 < cu c 1 1)), (2, decide (7 < cu c 2 1)), reservedAbove c 3 2,
      (4, decide (cu c 4 4 = 0 ∨ 1000000000 < cu c 4 4))]
    stops := fun c s => firstStop [(cbit c 3 0 && (List.range 4).any (fun u => u ≠ cu c 0 1 && (s.pair u).en && (s.pair u).stop = cu c 2 1),
      stRefused, 0x0701)] }

/-- EM_STATUS.STOP of every input follows the pair units. -/
def showStops (s : State) : State :=
  (List.range 8).foldl (fun s e => s.setB (Reg.emStatusStop e) ((List.range 4).any (fun u => (s.pair u).en && (s.pair u).stop = e))) s

/-- The effect of EM_INTERVAL (R386, R395). -/
def emIntervalEffect (c : Cmd) (s : State) : State × Reply :=
  (showStops (s.setPair (cu c 0 1) ⟨cbit c 3 0, cu c 1 1, cu c 2 1, cbit c 3 1, cu c 4 4, none, none⟩), okReply)

/-- EM_INTERVAL. -/
def execEmInterval (c : Cmd) (s : State) : Out := runCmd emIntervalSpec emIntervalEffect c s

def emFrequencySpec : CmdSpec :=
  { opcode := 0x0703, unmirrored := true, lenOk := lenIs 8
    args := fun c _ => firstBad ([(0, decide (7 < cu c 0 1)), (4, decide (cu c 4 4 = 0 ∨ 1000000 < cu c 4 4))] ++ reserved c 1 3)
    stops := fun c s => firstStop [((s.input (cu c 0 1)).gate.isSome, stBusy, 0), (!s.isF (Reg.emStatusEn (cu c 0 1)), stRefused, 0x0702)] }

/-- EM_FREQUENCY: a gate is armed at the first whole tick at least 64 ticks after the command starts (R388). -/
def emFrequencyEffect (c : Cmd) (s : State) : State × Reply :=
  let e := cu c 0 1
  let o := s.mbx.startedAt + 64
  let g : EmGate := ⟨o, o + cu c 4 4 * 781250, calHolds (64 + e) s, 0, 0, 0, 0, 0, 0, 0, 0⟩
  (s.setInput e { s.input e with gate := some g }, ⟨stDeferred, 0, resultOf [(32, le 8 o)], []⟩)

/-- EM_FREQUENCY (R388, R390). -/
def execEmFrequency (c : Cmd) (s : State) : Out := runCmd emFrequencySpec emFrequencyEffect c s

/-- Outputs a self-audit names. -/
def auditOuts (c : Cmd) : List Nat := members (cu c 0 2) 12

def emSelfAuditSpec : CmdSpec :=
  { opcode := 0x0704, stepped := true, unmirrored := true, lenOk := lenIs 8
    args := fun c _ => firstBad [(0, cu c 0 2 = 0 || decide (4096 ≤ cu c 0 2)),
      (2, (decide (7 < cu c 2 1) && cu c 2 1 ≠ 255) || (cu c 2 1 = 255 && cu c 3 1 ≠ 255)),
      (3, (decide (11 < cu c 3 1) && cu c 3 1 ≠ 255) || (cu c 3 1 = 255 && cu c 2 1 ≠ 255)), (4, decide (cu c 4 4 = 0 ∨ 3600 < cu c 4 4))]
    need := fun c _ => 32 * (auditOuts c).length
    stops := fun c s => firstStop [((s.mbx.longOp.map (·.opcode)) = some 0x0704, stBusy, 0),
      (cu c 2 1 ≠ 255 && !(s.isF (Reg.emStatusEn (cu c 2 1)) && (s.input (cu c 2 1)).edge = 1), stRefused, 0x0703)] }

/-- One output's 32-byte result (R391 to R393) from what its channel measured: whether it ran throughout, the edges measured, the sum of
their phase errors, of the squares and the largest magnitude (2⁻¹⁶ ns), FFO (10⁻¹⁵), and the sum and number of LOOP differences. -/
def auditRecord (c : Cmd) (out : Nat) (m : List Int) (s : State) : Bytes × Bool :=
  let running := m.getD 0 0 = 1 && outState out s ≠ 0
  let aligned := decide (8 ≤ out) || s.isF (Reg.plOutStatusAlign out)
  let n : Int := if aligned then m.getD 1 0 else 0
  let edges := m.getD 1 0
  let mean := if n = 0 then 0 else m.getD 2 0 / n
  let rms := if n = 0 then 0 else isqrt ((m.getD 3 0) / n).toNat
  let worst := if n = 0 then 0 else (m.getD 4 0).natAbs
  let ffo := m.getD 5 0
  let phase := running && decide (worst * 1000 ≤ (if out < 8 then 60 else 150) * 65536)
  let freq := running && decide (ffo.natAbs ≤ 1000)
  let loop := cu c 3 1 = out && m.getD 7 0 ≠ 0
  (record 32 [(0, le 1 out), (1, le 1 (b2n phase + 2 * b2n freq + 4 * b2n (!running) + 8 * b2n loop)), (4, leI 4 edges), (8, leI 8 mean),
    (16, le 4 (sat (2 ^ 32 - 1) rms)), (20, le 4 (sat (2 ^ 32 - 1) worst)), (24, leI 4 ffo),
    (28, leI 4 (if loop then m.getD 6 0 / m.getD 7 1 else 0))], phase && freq)

/-- One step of EM_SELF_AUDIT: it waits for DURATION to pass, and then judges one output a step, in ascending order (R391). -/
def auditStep (o : LongOp) (s : State) : State × StepEnd :=
  let c := o.cmd
  if s.dtt < o.tStart + cu c 4 4 * 781250000 then (s, .more { o with estimate := (auditOuts c).length })
  else
    let j := o.acc.length / 32
    match (auditOuts c)[j]? with
    | none => (s, .done okReply)
    | some out =>
      let r := auditRecord c out (c.meas.drop (8 * j) |>.take 8) s
      let o := { o with acc := o.acc ++ r.1, work := if r.2 then o.work ++ [out] else o.work }
      if j + 1 < (auditOuts c).length then (s, .more o)
      else
        let good := maskOf o.work
        let bad := maskOf ((auditOuts c).filter (fun n => !o.work.contains n))
        let s := raiseEv 99 (if bad = 0 then 0 else 1) 0x0704 [(20, le 2 good), (22, le 2 bad)] s
        (s, .done (okBuf [(32, le 2 good), (34, le 2 bad)] o.acc))

/-- EM_SELF_AUDIT (R391, R395). -/
def execEmSelfAudit (c : Cmd) (s : State) : Out := runStepped emSelfAuditSpec auditStep c s

/-- What the event inputs do as time passes: EM_MISSED at the end of a second, the hold-off of their rings, and open items that grow
older than their window (R386). -/
def inputsTick (s : State) : State :=
  let s := s.em.inputs.foldl (fun s e => emSignal e.1 (missSecond e.1 s)) s
  s.em.units.foldl (fun s u => expireOpen u.1 s.now80 s) s

end Sys2Proof.Machine
end

