-- ==== Sys2Proof/Machine/Links.lean ====
section
/-! DEFINITION. Serial lanes and link physics (R203 to R237): line modes, equalisation, receiver locks and latency reports, link up
and down, the transmit trim, patterns, the eye scan, port power-up, islands that wake (R35), stamp corrections (R178 to R181)
and the commands of group 0x08. -/

set_option Elab.async false

namespace Sys2Proof.Machine

/-! ### Equalisation -/

/-- The default FIR and CTLE settings of a mode (R211). -/
def eqDefault (mode : Nat) : LaneEq :=
  if mode = 1 then ⟨0, 63, 0, 0, 3, false⟩ else if mode = 2 then ⟨0, 55, 8, 6, 3, true⟩ else ⟨4, 49, 10, 10, 3, true⟩

/-- The settings of lane `n` in a mode (R211). -/
def eqOf (n mode : Nat) (s : State) : LaneEq := (spGet none (s.lane n).eqs mode).getD (eqDefault mode)

/-- The state with a lane's settings of a mode replaced. -/
def setEq (n mode : Nat) (e : LaneEq) (s : State) : State :=
  s.setLane n { s.lane n with eqs := spSet none (s.lane n).eqs mode (if e = eqDefault mode then none else some e) }

/-- SDS_FIR and SDS_CTLE show the current mode's settings; PEAK_USED is the commanded PEAK unless AUTO keeps the sweep's (R215). -/
def showEq (n : Nat) (s : State) : State :=
  if s.mode n = 0 then
    let s := ((s.setF (Reg.sdsFirPre n) 0).setF (Reg.sdsFirMain n) 0).setF (Reg.sdsFirPost n) 0
    (((s.setF (Reg.sdsCtlePeak n) 0).setF (Reg.sdsCtleGain n) 0).setB (Reg.sdsCtleAuto n) false).setF (Reg.sdsCtlePeakUsed n) 0
  else
    let e := eqOf n (s.mode n) s
    let s := ((s.setF (Reg.sdsFirPre n) e.pre).setF (Reg.sdsFirMain n) e.main).setF (Reg.sdsFirPost n) e.post
    let s := ((s.setF (Reg.sdsCtlePeak n) e.peak).setF (Reg.sdsCtleGain n) e.gain).setB (Reg.sdsCtleAuto n) e.auto
    showConstants n (if e.auto then s else s.setF (Reg.sdsCtlePeakUsed n) e.peak)

/-! ### Links -/

/-- Source number of a lane's events: its port's, or 50 for a twin lane (R236). -/
def laneSource (n : Nat) (s : State) : Nat := if n < 48 then portOf n s else 50

/-- The lanes that run with lane `n` as one port; a twin lane stands alone. -/
def laneGroup (n : Nat) (s : State) : List Nat := if n < 48 then portLanes (portOf n s) s else [n]

/-- The frame that source `p` receives is cut short: what has come of it is all of it (R209, R415). -/
def cutFrame (p : Nat) (rest : Bytes) (s : State) : State :=
  match spGet none s.sw.rx p with
  | some r => frameEnd p r (r.frame.data ++ rest) true s
  | none => s

/-- What follows a port's link or its release to forwarding: stamps, groups, sessions. -/
def linkFollow (p : Nat) (s : State) : State :=
  erEnableCheck (showAlign p (egressFollow p (stampStatus p s)))

/-- Port `p`'s link goes down for `cause` (R208, R209): the frame in reception ends bad, sessions follow. -/
def linkDown (p cause : Nat) (rest : Bytes) (s : State) : State :=
  let s := cutFrame p rest s
  if s.linkUp p then
    let s := (s.setB (Reg.sdsStatusLink p) false).setLane p { s.lane p with linkAt := none, remoteFault := false }
    let s := raiseEv p 1 0x0802 [(20, le 1 p), (21, le 1 cause)] s
    linkFollow p (ttLink p false s)
  else s

/-- A checker loses lock, with its event (R225, R236). -/
def prbsUnlock (n : Nat) (s : State) : State :=
  if s.isF (Reg.sdsStatusPrbsLock n) then
    raiseEv (laneSource n s) 0 0x0804 [(20, le 1 n), (21, le 1 0)] (s.setB (Reg.sdsStatusPrbsLock n) false)
  else s

/-- An eye scan of lane `n` loses its receiver: the point in progress is to be flagged, and its wait for lock runs from now (R228). -/
def scanLoses (n : Nat) (s : State) : State :=
  match s.mbx.longOp with
  | some o => if o.opcode = 0x0805 ∧ cu o.cmd 0 1 = n then { s with mbx := { s.mbx with longOp := some { o with work := [s.dtt, 0] } } } else s
  | none => s

/-- The receivers of lane `n`'s port are not locked any more: their reports lapse (R176), a line reference on them is lost (R274), and
a direct-path connection loses its input (R428). -/
def rxUnlock (n : Nat) (s : State) : State :=
  let was := (laneGroup n s).any (fun m => s.isF (Reg.sdsStatusRxLock m))
  let s := (laneGroup n s).foldl (fun s m =>
    let s := prbsUnlock m (if s.isF (Reg.sdsStatusRxLock m) then scanLoses m (s.setB (Reg.sdsStatusRxLock m) false) else s)
    let s := s.setLane m { s.lane m with sweepDue := false, reportDue := false }
    if m < 48 then s.setB (Reg.ptsLatRxValid m) false else s) s
  if !was || 48 ≤ n then s
  else
    let s := (List.range 8).foldl (fun s k =>
      if (s.cand (8 + k)).lineMode ≠ 0 ∧ portOf (s.cand (8 + k)).linePort s = portOf n s then loseCand (8 + k) 1 s else s) s
    let p := portOf n s
    let s := if s.isF (Reg.swDpStatusConn p) then
        raiseEv p 1 0x0903 [(20, le 1 p), (21, le 1 1)] (s.setB (Reg.swDpStatusInLock p) false)
      else s
    stampStatus p s

/-- A lane's receiver relocks: link down for `cause`, and no lock until the next one (R213, R224). -/
def relock (n cause : Nat) (s : State) : State :=
  rxUnlock n (if n < 48 then linkDown (portOf n s) cause [] s else s)

/-- Whether lane `n` has a receiver that runs: its port has a mode, or a twin lane whose island is awake for a pattern (R224, R234). It stays stopped until
step 3 of R229 where SDS_PORT_CONFIG has stopped it (R229, R230). -/
def rxRuns (n : Nat) (s : State) : Bool :=
  (s.mode n ≠ 0 || (decide (48 ≤ n) && s.awake 61 && s.isF (Reg.sdsStatusPrbsRx n))) &&
  !(s.mbx.longOp.any (fun o => o.opcode = 0x0801 && o.work = [1] && cu o.cmd 0 1 = portOf n s))

/-- Whether a calibration part keeps a lane's receiver from the balls (R634). -/
def rxDetached (n : Nat) (s : State) : Bool :=
  s.cal.runs.any (fun r => r.target = n && (r.parts.headD 0 = 1 || r.parts.headD 0 = 2))

/-- RX_LOCK: a lane's receiver locks, at 100GBASE-R the group's four together (R174): the CTLE sweeps where AUTO is set (R214), otherwise
the report follows (R176). -/
def execRxLock (lane : Nat) (s : State) : Out :=
  if 52 ≤ lane ∨ rxRuns lane s = false ∨ s.isF (Reg.sdsStatusRxLock lane) = true ∨ (laneGroup lane s).any (fun m => rxDetached m s) = true then .next s
  else
    let s := (laneGroup lane s).foldl (fun s m =>
      let s := (s.setB (Reg.sdsStatusRxLock m) true).addSat (Reg.sdsStatusRelocks m) 1
      let auto := s.isF (Reg.sdsCtleAuto m)
      let s := s.setLane m { s.lane m with sweepDue := auto, reportDue := true }
      psiRestart m (if m < 48 then s.setB (Reg.ptsLatRxValid m) false else s)) s
    if 48 ≤ lane then .next s
    else
      let p := portOf lane s
      let s := if s.isF (Reg.swDpStatusConn p) then
          raiseEv p 1 0x0903 [(20, le 1 p), (21, le 1 0)] (s.setB (Reg.swDpStatusInLock p) true)
        else s
      .next (stampStatus p s)

/-- The PEAK that a sweep keeps: the lowest of those with the widest opening (R214). -/
def widest (openings : List Nat) : Nat := openings.findIdx (fun w => decide (w = openings.foldl max 0))

/-- CTLE_SWEEP_DONE: the sweep of a receiver lock has measured the horizontal openings of PEAK 0 to 15 at zero offset, and keeps one (R214,
R215). -/
def execCtleSweepDone (lane : Nat) (openings : List Nat) (s : State) : Out :=
  if 52 ≤ lane ∨ (s.lane lane).sweepDue = false ∨ openings.length ≠ 16 then .next s
  else
    let peak := widest openings
    let s := (s.setLane lane { s.lane lane with sweepDue := false }).setF (Reg.sdsCtlePeakUsed lane) peak
    .next (raiseEv (laneSource lane s) 0 0x0805 [(20, le 1 lane), (21, le 1 peak)] (showConstants lane s))

/-- LATENCY_REPORT: a lane's receive report after its lock and sweep, or its transmit report after its start (R174 to R176). -/
def execLatencyReport (lane : Nat) (tx : Bool) (t : LatTerms) (s : State) : Out :=
  let due := if tx then s.isF (Reg.sdsStatusTxOn lane) && !s.isF (Reg.ptsLatTxValid lane)
    else (s.lane lane).reportDue && !(s.lane lane).sweepDue
  if 48 ≤ lane ∨ due = false ∨ wordBits (s.mode lane) ≤ t.slip ∨ 64 ≤ t.cdr ∨ 16 ≤ t.fill then .next s
  else
    let s := if tx then ((s.setB (Reg.ptsLatTxValid lane) true).setF (Reg.ptsLatTxFill lane) t.fill).setF (Reg.ptsLatTxSlip lane) t.slip
      else (((s.setB (Reg.ptsLatRxValid lane) true).setF (Reg.ptsLatRxFill lane) t.fill).setF (Reg.ptsLatRxCdr lane) t.cdr).setF
        (Reg.ptsLatRxSlip lane) t.slip
    let s := if tx then s else s.setLane lane { s.lane lane with reportDue := false }
    let p := portOf lane s
    let s := (s.set64 (Reg.ptsLatTime lane) s.dtt).addWrap (Reg.ptsStatusLatSeq p) 1
    let b (v : Nat) (on : Bool) : Bytes := le 1 (if on then v else 0)
    let s := raiseEv p 0 0x0880 [(20, le 1 (lane - p)), (21, b t.slip (!tx)), (22, b t.cdr (!tx)), (23, b t.fill (!tx)), (24, b t.slip tx),
      (25, b t.fill tx), (26, le 1 (if tx then 2 else 1))] s
    .next (stampStatus p (ttLatSeq p s))

/-- Whether a pattern is set on any lane of a port (R224). -/
def patterned (p : Nat) (s : State) : Bool :=
  (portLanes p s).any (fun m => s.isF (Reg.sdsStatusPrbsTx m) || s.isF (Reg.sdsStatusPrbsRx m))

/-- Whether a port's link can be up (R208, R224): receivers locked with their reports written and no pattern set; on a lane of a
direct-path connection the lock alone (R428). -/
def linkCan (p : Nat) (s : State) : Bool :=
  s.mode p ≠ 0 && !inGroup p s && !patterned p s &&
    (if inDirect p s then s.isF (Reg.sdsStatusRxLock p)
     else (portLanes p s).all (fun m => s.isF (Reg.sdsStatusRxLock m) && s.isF (Reg.ptsLatRxValid m)) && s.isF (Reg.sdsStatusTxOn p))

/-- Whether port `p` has a reconciliation sublayer that handles faults (R208): not at 1000BASE-X, and not in a direct-path connection (R428). -/
def handlesFault (p : Nat) (s : State) : Bool := decide (2 ≤ s.mode p) && !inDirect p s

/-- Whether port `p` answers a local fault with remote fault (R208): its transmitter runs, and its own link is down. -/
def sendsRemoteFault (p : Nat) (s : State) : Bool := handlesFault p s && s.isF (Reg.sdsStatusTxOn p) && !patterned p s && !s.linkUp p

/-- LINK_UP: a port's link comes up (R208); it is released to forwarding. `remote` says whether the partner sends remote fault: then the port
sends no frames (IEEE 802.3 Clauses 46 and 81, which R208 names), and the row at a link that is up brings a change of it. The twin port's link is
up with its four lanes locked and deskewed (R574), with no pattern on any of them (R224). -/
def execLinkUp (port : Nat) (remote : Bool) (s : State) : Out :=
  if port = 50 then
    .next (if s.twinState ≠ 0 ∧ [48, 49, 50, 51].all (fun n => s.isF (Reg.sdsStatusRxLock n) && !s.isF (Reg.sdsStatusPrbsTx n) && !s.isF (Reg.sdsStatusPrbsRx n)) = true
      then s.setB Reg.twStatusLinkUp true else s)
  else if 48 ≤ port then .next s
  else if s.linkUp port then .next (s.setLane port { s.lane port with remoteFault := remote && handlesFault port s })
  else if linkCan port s = false then .next s
  else
    let s := (s.setB (Reg.sdsStatusLink port) true).setLane port
      { s.lane port with linkAt := some s.dtt, relocking := false, remoteFault := remote && handlesFault port s }
    let s := raiseEv port 0 0x0801 [(20, le 1 port), (21, le 1 (s.mode port)), (22, le 1 (s.fec port))] s
    .next (linkFollow port (ttLink port true s))

/-- Whether `cause` takes port `p`'s link down in its mode (R206, R208): lock lost, FEC alignment lock included, in every mode; hi_ber without FEC;
local fault received but at 1000BASE-X; auto-negotiation restarted at 1000BASE-X. On a lane of a connection lock alone does (R428). -/
def downBy (p cause : Nat) (s : State) : Bool :=
  let m := s.mode p
  cause = 1 || (!inDirect p s &&
    ((cause = 2 && (m = 2 || (m = 3 && s.fec p = 0))) || (cause = 3 && decide (2 ≤ m)) || (cause = 4 && m = 1)))

/-- LINK_DOWN: a port's link goes down in the CCLK in which it is detected, with what it has received of a frame (R209); at cause 1 its
receivers have lost lock. -/
def execLinkDown (port cause : Nat) (data : Bytes) (s : State) : Out :=
  if 48 ≤ port ∨ inGroup port s = true ∨ downBy port cause s = false then .next s
  else
    let s := linkDown port cause data s
    .next (if cause = 1 then rxUnlock port s else s)

/-! ### Transmitters -/

/-- The transmitters of port `p`'s lanes start (R221, R229): their reports are due, and the release trim is computed anew from the
measured block phase (R528). -/
def startTx (p phase : Nat) (s : State) : State :=
  let s := (portLanes p s).foldl (fun s m =>
    let s := (s.setB (Reg.sdsStatusTxOn m) true).setB (Reg.ptsLatTxValid m) false
    s.setLane m { s.lane m with txStart := some s.dtt, txPhase := phase }) s
  let s := (alignPort p s).2
  let s := (portLanes p s).foldl (fun s m => s.setLane m { s.lane m with restartDue := false, held := false }) s
  stampStatus p (showAlign p s)

/-- The transmitters of port `p`'s lanes stop (R229, R230). -/
def stopTx (p : Nat) (s : State) : State :=
  let s := (portLanes p s).foldl (fun s m => s.setB (Reg.sdsStatusTxOn m) false) s
  stampStatus p (showAlign p s)

/-- Whether port `p` has a frame in flight, from a pipeline or from the direct path. -/
def sending (p : Nat) (s : State) : Bool :=
  (spGet none s.sw.tx p).isSome || s.sw.rx.any (fun e => match e.2 with | some r => r.dp && r.outs.any (fun o => o.1 = p) | none => false)

/-- TX_RESTART: the transmitter of a port whose word part changes stops at the end of the frame in flight and starts again, with the
block phase `phase` in 2⁻²⁴ tick (R221). -/
def execTxRestart (port phase : Nat) (s : State) : Out :=
  if 48 ≤ port ∨ (s.lane port).restartDue = false ∨ sending port s = true then .next s
  else .next (erEnableCheck (startTx port phase s))

/-- SDS_TRIM_DONE: the interpolator of a lane has reached its target (R220). -/
def execSdsTrimDone (lane : Nat) (s : State) : Out :=
  if 48 ≤ lane ∨ s.isF (Reg.sdsStatusTrimBusy lane) = false ∨ piAt lane s.dtt s ≠ s.getF (Reg.sdsTrimPiTgt lane) then .next s
  else
    let t := s.getF (Reg.sdsTrimPiTgt lane)
    let s := (s.setF (Reg.sdsTrimPiPos lane) t).setB (Reg.sdsStatusTrimBusy lane) false
    .next (erEnableCheck (showAlign lane (raiseEv (laneSource lane s) 0 0x0803 [(20, le 1 lane), (24, le 4 t)] s)))

/-- Checked bits and errors are added to a lane's counts, which wrap (R225). -/
def addChecked (lane bits errors : Nat) (s : State) : State :=
  (s.set64 (Reg.sdsPrbsBits lane) ((s.get64 (Reg.sdsPrbsBits lane) + bits) % 2 ^ 64)).set64 (Reg.sdsPrbsErr lane)
    ((s.get64 (Reg.sdsPrbsErr lane) + errors) % 2 ^ 64)

/-- Bits that a lane receives between ticks `x` and x + 1: 1.6, 13.2 or 33 a tick (R203). -/
def tickBits (n x : Nat) (s : State) : Nat :=
  let q : Nat × Nat := if 48 ≤ n then (33, 1) else if s.mode n = 1 then (8, 5) else if s.mode n = 2 then (66, 5) else (33, 1)
  (x + 1) * q.1 / q.2 - x * q.1 / q.2

/-- One tick of a checker: while locked it counts the tick's bits, and the errors among them, which come from the line and are a free value (R225). -/
def prbsTick (n : Nat) (s : State) : State :=
  if s.isF (Reg.sdsStatusPrbsLock n) then
    let b := tickBits n s.dtt s
    let d := s.draw
    addChecked n b (d.1 % (b + 1)) d.2
  else s

/-- PRBS_LOCK_CHANGE: a checker gains lock after `bits` consecutive bits without an error, 1,024 of them or more, or loses it with more than 256 `errors` in a
window of `bits` bits, 1,024 at the most (R225). -/
def execPrbsLockChange (lane : Nat) (locked : Bool) (bits errors : Nat) (s : State) : Out :=
  if 52 ≤ lane ∨ s.isF (Reg.sdsStatusPrbsRx lane) = false ∨ s.isF (Reg.sdsStatusPrbsLock lane) = locked ∨
      (if locked then decide (bits < 1024) || errors ≠ 0 else decide (1024 < bits) || decide (errors ≤ 256)) = true then .next s
  else
    .next (raiseEv (laneSource lane s) 0 0x0804 [(20, le 1 lane), (21, le 1 (b2n locked))] (s.setB (Reg.sdsStatusPrbsLock lane) locked))

/-- Reference temperature of lane `n` at its current line rate (R634), in 1/16 °C. -/
def refTemp (n : Nat) (s : State) : Int := (s.calRec n).temps.getD (rateOf (s.mode n)) 0

/-- PTS_STATUS.RECAL_DUE shows whether a lane of port `p` is due (R200). -/
def showRecal (p : Nat) (s : State) : State := s.setB (Reg.ptsStatusRecalDue p) ((portLanes p s).any (fun m => (s.lane m).recalDue))

/-- PTS_RECAL_DUE: a lane's junction temperature stands more than 15 °C from that of its last accepted calibration (R200): once for the lane, until
CAL_LANE clears it. -/
def execPtsRecalDue (lane : Nat) (temp : Int) (s : State) : Out :=
  let p := portOf lane s
  let d := temp - refTemp lane s
  if 48 ≤ lane ∨ s.mode lane = 0 ∨ (s.calRec lane).seq = 0 ∨ d.natAbs ≤ 240 ∨ (s.lane lane).recalDue = true then .next s
  else .next (raiseEv p 0 0x0885 [(20, le 1 (lane - p)), (22, leI 2 d)] (showRecal p (s.setLane lane { s.lane lane with recalDue := true })))

/-! ### Corrections -/

/-- STAMP_CORR_APPLY: a correction entry in force now is shown (R180). -/
def execStampCorrApply (port mode : Nat) (tx : Bool) (s : State) : Out :=
  if port < 48 ∧ 1 ≤ mode ∧ mode ≤ 4 then
    let a := if tx then Reg.ptsCorrTx port (mode - 1) else Reg.ptsCorrRx port (mode - 1)
    let r := timedApply a (s.getI64 a) s
    .next (r.2.setI64 a r.1)
  else .next s

def sdsSetStampCorrSpec : CmdSpec :=
  { opcode := 0x0808, unmirrored := true, lenOk := lenIs 20
    args := fun c _ =>
      let big (o : Nat) : Bool := decide (65536000 < (ci c o 8).natAbs)
      firstBad [(0, decide (47 < cu c 0 1)), (1, cu c 1 1 = 0 || decide (4 < cu c 1 1) || (cu c 1 1 = 4 && cu c 0 1 % 4 ≠ 0)),
        (2, cu c 2 1 = 0 || decide (4 ≤ cu c 2 1)), (3, cu c 3 1 ≠ 0), (4, cbit c 2 0 && big 4), (12, cbit c 2 1 && big 12)]
    stops := fun c s => firstStop [(inGroup (cu c 0 1) s, stRefused, 0x0801)] }

/-- One correction entry: from x_c on where its mode is current, otherwise held (R178, R180). -/
def setCorr (a x : Nat) (v : Int) (current : Bool) (s : State) : State :=
  if current then timedAdd a (s.getI64 a) v x s
  else { s with timed := s.timed.filter (fun e => e.1 ≠ a) }.setI64 a v

/-- SDS_SET_STAMP_CORR (R180, R181). -/
def sdsSetStampCorrEffect (c : Cmd) (s : State) : State × Reply :=
  let p := cu c 0 1
  let m := cu c 1 1
  let current : Bool := s.mode p = m
  let x := if current then fixXc none (max (timedLast (Reg.ptsCorrRx p (m - 1)) s) (timedLast (Reg.ptsCorrTx p (m - 1)) s)) s else (0, s)
  let s := if cbit c 2 0 then setCorr (Reg.ptsCorrRx p (m - 1)) x.1 (ci c 4 8) current x.2 else x.2
  let s := if cbit c 2 1 then setCorr (Reg.ptsCorrTx p (m - 1)) x.1 (ci c 12 8) current s else s
  (raiseEv p 0 0x0884 [(20, le 1 m), (21, le 1 (cu c 2 1)), (24, le 8 x.1)] s, okWith [(32, le 8 x.1)])

/-- SDS_SET_STAMP_CORR (R180). -/
def execSdsSetStampCorr (c : Cmd) (s : State) : Out := runCmd sdsSetStampCorrSpec sdsSetStampCorrEffect c s

/-! ### Port configuration -/

/-- The lanes a port takes in a mode (R204). -/
def lanesIn (p mode : Nat) : List Nat := if mode = 4 then [p, p + 1, p + 2, p + 3] else [p]

def sdsPortConfigSpec : CmdSpec :=
  { opcode := 0x0801, stepped := true, lenOk := lenIs 4
    args := fun c _ =>
      let m := cu c 1 1
      firstBad [(0, decide (47 < cu c 0 1)), (1, decide (4 < m) || (m = 4 && cu c 0 1 % 4 ≠ 0)),
        (2, if m = 3 then decide (2 < cu c 2 1) else if m = 4 then cu c 2 1 ≠ 3 else cu c 2 1 ≠ 0), reservedAbove c 3 1]
    stops := fun c s =>
      let p := cu c 0 1
      let m := cu c 1 1
      firstStop [(inGroup p s, stRefused, 0x0801),
        (m = 4 && s.mode p ≠ 4 && [p + 1, p + 2, p + 3].any (fun n => s.mode n ≠ 0 || inDirect n s), stRefused, 0x0802),
        (m ≠ s.mode p && inDirect p s, stRefused, 0x0803)] }

/-- RESULT of SDS_PORT_CONFIG: T_TXSTART and T_LINK (R230). -/
def portReply (p : Nat) (s : State) : Reply :=
  if s.mode p = 0 then okWith [(32, le 8 0), (40, le 8 0)]
  else okWith [(32, le 8 ((s.lane p).txStart.getD 0)), (40, le 8 ((s.lane p).linkAt.getD 0))]

/-- A speed change of lane `n`: the host trim goes to 0 (R222). The release part and word offset belong to the old mode's steps and words and go with it,
and the interpolator starts at 0: the manual gives neither; DESIGN CHOICE (log entry 249), the transmitter is stopped meanwhile. -/
def dropTrim (n : Nat) (s : State) : State :=
  let s := (((s.setF (Reg.sdsTrimWords n) 0).setF (Reg.sdsTrimPiPos n) 0).setF (Reg.sdsTrimPiTgt n) 0).setB (Reg.sdsStatusTrimBusy n) false
  let s := if n < 48 then (s.setF (Reg.erPortAlignRelPart n) 0).setF (Reg.erPortAlignWordOff n) 0 else s
  s.setLane n { s.lane n with hostSteps := 0, piFrom := 0, piAt := s.dtt, relocking := false }

/-- A lane takes MODE and FEC: its settings for the mode (R211). -/
def laneMode (n mode fec : Nat) (s : State) : State :=
  let s := if s.mode n = mode then s else dropTrim n s
  retarget n (showEq n ((s.setF (Reg.sdsStatusMode n) mode).setF (Reg.sdsStatusFec n) fec))

/-- Step 1 of R229: no new frame begins, and the receiver stops at once. -/
def portHold (p : Nat) (s : State) : State :=
  let s := relock p 5 s
  (portLanes p s).foldl (fun s m => s.setLane m { s.lane m with held := true }) s

/-- Lanes `ls` are powered down (R230). -/
def lanesSleep (ls : List Nat) (s : State) : State :=
  let s := ls.foldl (fun s m =>
    let s := ((laneMode m 0 0 s).setB (Reg.sdsStatusRxLock m) false).setB (Reg.sdsStatusLink m) false
    s.setLane m { s.lane m with txStart := none, linkAt := none, held := false, restartDue := false }) s
  { s with islands := s.islands.filter (fun k => !ls.contains k) }

/-- One step of SDS_PORT_CONFIG (R229, R230): `work` is empty at the start, 1 while the transmitter stops and the island wakes, 2 while
the transmit report is awaited. A transmitter that a guard bound has stopped starts anew (R677); one that the bound denies
is not started, and nothing changes (R237, R674). -/
def portStep (o : LongOp) (s : State) : State × StepEnd :=
  let c := o.cmd
  let p := cu c 0 1
  let m := cu c 1 1
  let fec := cu c 2 1
  match o.work with
  | [] =>
    if m ≠ 0 && !portEnabled p s then (portDenied p s, .done (failWith stLocked 0)) else
    let s := if cbit c 3 0 then (flushEgress p s).2 else s
    if s.mode p = m ∧ s.fec p = fec ∧ (m = 0 ∨ (portLanes p s).all (fun n => s.isF (Reg.sdsStatusTxOn n)) = true) then (s, .done (portReply p s))
    else (portHold p s, .more { o with work := [1], estimate := 3 })
  | 1 :: _ =>
    if sending p s then (s, .more o)
    else
      let old := portLanes p s
      let s := stopTx p s
      if m = 0 then
        let s := showRecal p ((lanesSleep old s).setF (Reg.ptsStatusMode p) 0)
        (stampStatus p s, .done (portReply p s))
      else if (lanesIn p m).any (fun n => !s.awake n || calHolds n s) then (s, .more o)
      else
        let s := lanesSleep (old.filter (fun n => !(lanesIn p m).contains n)) s
        let s := (lanesIn p m).foldl (fun s n => laneMode n m fec s) s
        let s := showRecal p (s.setF (Reg.ptsStatusMode p) m)
        (startTx p (c.meas.headD 0).toNat s, .more { o with work := [2] })
  | _ =>
    if (portLanes p s).all (fun n => s.isF (Reg.ptsLatTxValid n)) then (s, .done (portReply p s)) else (s, .more o)

/-- SDS_PORT_CONFIG (R229, R237). -/
def execSdsPortConfig (c : Cmd) (s : State) : Out := runStepped sdsPortConfigSpec portStep c s

/-! ### The other commands of group 0x08 -/

/-- The mode whose settings SDS_SET_FIR and SDS_SET_CTLE name: a twin lane has one (R211). -/
def eqMode (c : Cmd) : Nat := if cu c 0 1 < 48 then cu c 1 1 else 5

/-- LANE and MODE of SDS_SET_FIR and SDS_SET_CTLE. R237 lists MODE 4 on a port that is not a multiple of 4; these commands name a lane, and R204 and R211 give
lanes 4k+1 to 4k+3 settings of their own in MODE 4: DEDUCED (log entry 250), it is accepted there. -/
def eqBad (c : Cmd) : List (Nat × Bool) :=
  [(0, decide (51 < cu c 0 1)), (1, decide (cu c 0 1 < 48) && (cu c 1 1 = 0 || decide (4 < cu c 1 1)))]

def sdsSetFirSpec : CmdSpec :=
  { opcode := 0x0802, unmirrored := true, lenOk := lenIs 8
    args := fun c _ =>
      let a := cu c 2 1
      let b := cu c 3 1
      let d := cu c 4 1
      firstBad (eqBad c ++ [(2, decide (15 < a)), (3, decide (b < 16 ∨ 63 < b ∨ 63 < a + b + d ∨ b < a + d + 8)), (4, decide (31 < d))] ++ reserved c 5 3) }

/-- SDS_SET_FIR: the taps of a mode; the transmitter does not restart (R211, R212). -/
def sdsSetFirEffect (c : Cmd) (s : State) : State × Reply :=
  let n := cu c 0 1
  (showEq n (setEq n (eqMode c) { eqOf n (eqMode c) s with pre := cu c 2 1, main := cu c 3 1, post := cu c 4 1 } s), okReply)

/-- SDS_SET_FIR (R212, R237). -/
def execSdsSetFir (c : Cmd) (s : State) : Out := runCmd sdsSetFirSpec sdsSetFirEffect c s

def sdsSetCtleSpec : CmdSpec :=
  { opcode := 0x0803, unmirrored := true, lenOk := lenIs 8
    args := fun c _ => firstBad (eqBad c ++ [(2, decide (15 < cu c 2 1)), (3, decide (7 < cu c 3 1)), (4, decide (1 < cu c 4 1))] ++ reserved c 5 3) }

/-- SDS_SET_CTLE: a change on the current mode makes the receiver relock (R213). -/
def sdsSetCtleEffect (c : Cmd) (s : State) : State × Reply :=
  let n := cu c 0 1
  let m := eqMode c
  let old := eqOf n m s
  let new := { old with peak := cu c 2 1, gain := cu c 3 1, auto := cu c 4 1 = 1 }
  let s := showEq n (setEq n m new s)
  (if s.mode n = m ∧ new ≠ old then
     let s := relock n 1 s
     if n < 48 then s.setLane (portOf n s) { s.lane (portOf n s) with relocking := true } else s
   else s, okReply)

/-- SDS_SET_CTLE (R213, R237). -/
def execSdsSetCtle (c : Cmd) (s : State) : Out := runCmd sdsSetCtleSpec sdsSetCtleEffect c s

def sdsPrbsSpec : CmdSpec :=
  { opcode := 0x0804, unmirrored := true, lenOk := lenIs 12
    args := fun c _ => firstBad [(0, decide (51 < cu c 0 1)), (2, decide (16 ≤ cu c 2 1) || cu c 2 1 % 4 = 3),
      (3, if cu c 2 1 % 4 = 2 then decide (cu c 3 1 < 10 ∨ 40 < cu c 3 1) else cu c 3 1 ≠ 0)]
    stops := fun c s => firstStop [(decide (48 ≤ cu c 0 1) && s.twinState ≠ 0, stRefused, 0x0805)] }

/-- Register length and tap exponents of PRBS7, 9, 15, 23 and 31 (R223). -/
def prbsTaps (code : Nat) : Nat × Nat := [(0, 0), (7, 6), (9, 5), (15, 14), (23, 18), (31, 28)].getD code (0, 0)

/-- The first `k` bits of a linear-feedback sequence from a register of its last bits, newest first (R223). -/
def prbsRun (t : Nat × Nat) : Nat → List Bool → List Bool
  | 0, _ => []
  | k + 1, r =>
    let b := r.getD (t.1 - 1) false != r.getD (t.2 - 1) false
    b :: prbsRun t k (b :: r.take (t.1 - 1))

/-- The first `k` bits of pattern `code` with words of `w` bits, inverted or not (R223): a PRBS goes on from the seed, whose place in the sequence the manual
leaves open; square wave and USER start with a word. -/
def patternBits (code w user : Nat) (seed : List Bool) (inv : Bool) (k : Nat) : List Bool :=
  let l := if code = 6 then (List.range k).map (fun i => decide (i % w < w / 2))
    else if code = 7 then (List.range k).map (fun i => bit user (i % w))
    else prbsRun (prbsTaps code) k seed
  l.map (fun b => b != inv)

/-- The first `k` bits that lane `n` sends while a transmit pattern is set, without injected errors (R223). -/
def patternSent (n : Nat) (seed : List Bool) (k : Nat) (s : State) : List Bool :=
  patternBits (s.getF (Reg.sdsPrbsCtrlTxPat n)) (wordBits (s.mode n)) (s.lane n).userPat seed (s.isF (Reg.sdsPrbsCtrlTxInv n)) k

/-- The effect of SDS_PRBS: patterns and injection of a lane (R223 to R226), with the errors and bits counted up to now. -/
def sdsPrbsDo (c : Cmd) (s : State) : State × Reply :=
  let n := cu c 0 1
  let reply := okWith [(32, le 8 (s.get64 (Reg.sdsPrbsErr n))), (40, le 8 (s.get64 (Reg.sdsPrbsBits n)))]
  let s := if cbit c 2 3 then (s.set64 (Reg.sdsPrbsErr n) 0).set64 (Reg.sdsPrbsBits n) 0 else s
  let tx := cu c 1 1 % 8
  let rx := cu c 1 1 / 16 % 8
  let rxOld := s.getF (Reg.sdsPrbsCtrlRxPat n)
  let newRx : Bool := rx ≠ rxOld || s.isF (Reg.sdsPrbsCtrlRxInv n) ≠ cbit c 1 7
  let s := ((((s.setF (Reg.sdsPrbsCtrlTxPat n) tx).setF (Reg.sdsPrbsCtrlRxPat n) rx).setB (Reg.sdsPrbsCtrlTxInv n) (cbit c 1 3)).setB
    (Reg.sdsPrbsCtrlRxInv n) (cbit c 1 7)).setF (Reg.sdsPrbsCtrlRate n) (cu c 3 1)
  let s := (s.setF (Reg.sdsPrbsCtrlInj n) (cu c 2 1 % 4)).setB (Reg.sdsPrbsCtrlTraffic n) (cbit c 2 2)
  let s := (s.setB (Reg.sdsStatusPrbsTx n) (tx ≠ 0)).setB (Reg.sdsStatusPrbsRx n) (rx ≠ 0)
  let s := s.setLane n { s.lane n with userPat := cu c 4 8, injectDue := decide (cu c 2 1 % 4 = 1) && cbit c 2 2 }
  let s := if newRx then prbsUnlock n s else s
  let s := if tx ≠ 0 ∨ rx ≠ 0 then (if n < 48 then linkDown (portOf n s) 5 [] s else s) else s
  (if rxOld ≠ 0 ∧ rx = 0 then relock n 5 s else s, reply)

/-- SDS_PRBS: a pattern on a twin lane whose island sleeps waits until it is awake (R35). -/
def sdsPrbsEffect (c : Cmd) (s : State) : State × Option Reply :=
  if 48 ≤ cu c 0 1 ∧ cu c 1 1 ≠ 0 ∧ s.awake 61 = false then (s, none)
  else
    let r := sdsPrbsDo c s
    (r.1, some r.2)

/-- SDS_PRBS (R223, R234, R237). -/
def execSdsPrbs (c : Cmd) (s : State) : Out := runHeld sdsPrbsSpec sdsPrbsEffect c s

/-- NPH and NV of an eye scan (R227). -/
def scanSize (c : Cmd) : Nat × Nat :=
  (((ci c 2 1 - ci c 1 1) / max 1 (cu c 3 1 : Int)).toNat + 1, ((ci c 5 1 - ci c 4 1) / max 1 (cu c 6 1 : Int)).toNat + 1)

def sdsEyeScanSpec : CmdSpec :=
  { opcode := 0x0805, stepped := true, unmirrored := true, lenOk := lenIs 8
    args := fun c _ => firstBad [(0, decide (51 < cu c 0 1)), (1, decide (ci c 1 1 < -32 ∨ 31 < ci c 1 1)),
      (2, decide (ci c 2 1 < ci c 1 1 ∨ 31 < ci c 2 1)), (3, decide (cu c 3 1 = 0 ∨ 64 < cu c 3 1)), (4, decide (ci c 4 1 < -63 ∨ 63 < ci c 4 1)),
      (5, decide (ci c 5 1 < ci c 4 1 ∨ 63 < ci c 5 1)), (6, decide (cu c 6 1 = 0 ∨ 127 < cu c 6 1)), (7, decide (cu c 7 1 < 20 ∨ 40 < cu c 7 1))]
    need := fun c _ => (scanSize c).1 * (scanSize c).2 * 8
    stops := fun c s => firstStop [(!s.isF (Reg.sdsStatusRxLock (cu c 0 1)), stRefused, 0x0804),
      (s.isF (Reg.sdsStatusScan (cu c 0 1)) || calHolds (cu c 0 1) s, stBusy, 0)] }

/-- VSTEP of a lane in 0.01 mV as its THRESH part measured it (R633); the manual gives none before that. -/
def vstepOf (n : Nat) (s : State) : Nat × State :=
  match (calAt n s.dtt s).thresh[2]? with
  | some v => (v.toNat, s)
  | none => (s.draw.1 % 2 ^ 16, s.draw.2)

/-- One point of an eye scan as 8 bytes (R227): its mismatches, or RELOCK. -/
def scanPoint (c : Cmd) (j : Nat) (relocked : Bool) : Bytes :=
  let w := (scanSize c).1
  let e := (c.meas.getD j 0).toNat
  let ph := ci c 1 1 + (j % w : Nat) * cu c 3 1
  let v := ci c 4 1 + (j / w : Nat) * cu c 6 1
  record 8 [(0, leI 1 ph), (1, leI 1 v), (2, le 1 (if relocked then 2 else b2n (decide (2 ^ 32 ≤ e)))),
    (4, le 4 (if relocked then 2 ^ 32 - 1 else sat (2 ^ 32 - 1) e))]

/-- The end of an eye scan: sizes, VSTEP and the points written. -/
def scanReply (o : LongOp) (s : State) : State × Reply :=
  let z := scanSize o.cmd
  let v := vstepOf (cu o.cmd 0 1) s
  (v.2.setB (Reg.sdsStatusScan (cu o.cmd 0 1)) false,
   okBuf [(32, le 2 z.1), (34, le 2 z.2), (36, le 2 v.1), (38, le 4 (o.acc.length / 8))] o.acc)

/-- One step of SDS_EYE_SCAN: a point (R227). A relock since the step before flags the point in progress, however short it was; after 10 ms without lock
every remaining point is flagged (R228). `work` holds the tick of the loss and whether the point in progress has been flagged. -/
def scanStep (o : LongOp) (s : State) : State × StepEnd :=
  let c := o.cmd
  let n := cu c 0 1
  let total := (scanSize c).1 * (scanSize c).2
  let j := o.acc.length / 8
  let s := s.setB (Reg.sdsStatusScan n) true
  let locked := s.isF (Reg.sdsStatusRxLock n) && !(s.lane n).sweepDue
  let next (o : LongOp) : State × StepEnd :=
    if total ≤ o.acc.length / 8 then let r := scanReply o s; (r.1, .done r.2) else (s, .more { o with estimate := total })
  match o.work with
  | [] =>
    if locked then next { o with acc := o.acc ++ scanPoint c j false }
    else next { o with acc := o.acc ++ scanPoint c j true, work := [s.dtt, 1] }
  | [t, 0] => next { o with acc := o.acc ++ scanPoint c j true, work := if locked then [] else [t, 1] }
  | t :: _ =>
      if locked then next { o with acc := o.acc ++ scanPoint c j false, work := [] }
      else if t + 7812500 ≤ s.dtt then
        next { o with acc := o.acc ++ ((List.range (total - j)).map (fun k => scanPoint c (j + k) true)).flatten }
      else (s, .more o)

/-- SDS_EYE_SCAN (R227, R228, R237). -/
def execSdsEyeScan (c : Cmd) (s : State) : Out := runStepped sdsEyeScanSpec scanStep c s

def sdsSetTrimSpec : CmdSpec :=
  { opcode := 0x0806, unmirrored := true, lenOk := lenIs 8
    args := fun c s =>
      let n := cu c 0 1
      firstBad ([(0, decide (51 < n)), (4, decide (n < 48) && s.mode n ≠ 0 &&
        decide (15 < trimSteps (s.mode n) (cu c 4 4) / wordSteps (s.mode n)))] ++ reserved c 1 3)
    stops := fun c s =>
      let n := cu c 0 1
      firstStop [(decide (48 ≤ n), stRefused, 0x0805), (inGroup n s, stRefused, 0x0801), (s.mode n = 0, stRefused, 0x0804)] }

/-- SDS_SET_TRIM: the host part of a port's egress trim (R219 to R222). The trim table has no row for 100GBASE-R: DESIGN CHOICE (log entry 251), the command's
port is the group, and its four lanes take the same trim at the steps of 25GBASE-R, whose line rate they have. -/
def sdsSetTrimEffect (c : Cmd) (s : State) : State × Reply :=
  let p := cu c 0 1
  let n := trimSteps (s.mode p) (cu c 4 4)
  let r := (portLanes p s).foldl (fun a m => let t := setHostTrim m n a.2; (a.1 || t.1, t.2)) (false, s)
  (r.2, okWith [(32, le 4 n), (36, le 1 (n / wordSteps (s.mode p))), (37, le 1 (b2n r.1)),
    (40, le 8 (divRound (n * 65536) (10 * stepsPerPs (s.mode p))).toNat)])

/-- SDS_SET_TRIM (R219, R237). -/
def execSdsSetTrim (c : Cmd) (s : State) : Out := runCmd sdsSetTrimSpec sdsSetTrimEffect c s

def sdsLaneStatusSpec : CmdSpec :=
  { opcode := 0x0807, unmirrored := true, reports := true, lenOk := lenIs 4
    args := fun c _ => firstBad ((0, decide (51 < cu c 0 1)) :: reserved c 1 3) }

/-- SDS_LANE_STATUS: a lane's registers and checker counts. -/
def sdsLaneStatusEffect (c : Cmd) (s : State) : State × Reply :=
  let n := cu c 0 1
  let b := 0x300000 + n * 0x800
  (s, okWith [(32, le 4 (s.regWord b)), (36, le 4 (s.regWord (b + 4))), (40, le 4 (s.regWord (b + 8))), (44, le 4 (s.regWord (b + 0x10))),
    (48, le 8 (s.get64 (Reg.sdsPrbsErr n))), (56, le 8 (s.get64 (Reg.sdsPrbsBits n)))])

/-- SDS_LANE_STATUS (R237). -/
def execSdsLaneStatus (c : Cmd) (s : State) : Out := runCmd sdsLaneStatusSpec sdsLaneStatusEffect c s

end Sys2Proof.Machine
end

