-- ==== Sys2Proof/Machine/Twin.lean ====
section
/-! DEFINITION. Twin operation (R572 to R589): states, the control frames received and sent, following the active's time, mirrored
commands, failure and takeover, takeback, and the commands of group 0x0E. -/

set_option Elab.async false

namespace Sys2Proof.Machine

/-! ### States -/

/-- Whether the device counts as preferred (R580): by its strap, and with equal straps the one with the lower SERIAL. -/
def countsPref (s : State) : Bool :=
  match (if s.isF Reg.twStatusStrapConflict then s.tw.hb else none) with
  | some h => decide (Config.serial < h.serial)
  | none => s.isF Reg.twStatusPref

/-- Whether the partner lives: a heartbeat within HB_MISS (R572, R581). -/
def partnerAlive (s : State) : Bool :=
  match s.tw.hb with
  | some h => decide ((s.dtt - h.when) * 100 < s.tw.hbMiss * 78125)
  | none => false

/-- The wait-to-restore timer starts anew where it is to run: a preferred device in STANDBY with REVERTIVE set (R585). -/
def startWtr (s : State) : State :=
  if s.twinState = 3 ∧ s.isF Reg.twStatusRevertive = true ∧ countsPref s = true then
    { (s.setB Reg.twStatusWtrRun true) with tw := { s.tw with wtrUntil := some (s.dtt + s.tw.wtrS * 781250000) } }
  else { (s.setB Reg.twStatusWtrRun false) with tw := { s.tw with wtrUntil := none } }

/-- A loss of alignment or link restarts a timer that runs (R585). -/
def restartWtr (s : State) : State := if s.tw.wtrUntil.isSome then startWtr s else s

/-- The command that waits for the standby completes without its acknowledgement, with MBX_TWIN_NOACK (R122). -/
def ackDrop (s : State) : State :=
  match s.mbx.ackWait with
  | none => s
  | some w =>
    let s := raiseEv 130 1 0x0013 [(20, le 1 w.cmd.src.q), (22, le 2 w.cmd.tag), (24, le 2 w.entry.opcode)] s
    ackEnds w { w.entry with tDone := max w.entry.tDone s.dtt } s

/-- Whether a mirrored command is in progress: core 0 has started it and has not finished it. -/
def mirrorRuns (m : MirrorIn) (s : State) : Bool :=
  decide (s.mbx.longOp.bind (·.mirror) = some m.seq) || decide (s.mbx.held.bind (·.mirror) = some m.seq)

/-- A device that leaves STANDBY runs to its end what it has started of the mirrored commands and drops the others (R583); one that leaves ACTIVE
has no standby any more (R584). -/
def mirrorsLeave (old st : Nat) (s : State) : State :=
  if old = st then s
  else if old = 3 then { s with tw := { s.tw with mirrors := s.tw.mirrors.filter (fun m => mirrorRuns m s) } }
  else if old = 4 then { (ackDrop s) with tw := { (ackDrop s).tw with forwarded := [] } }
  else s

/-- Alignment is declared or lost, with TW_ALIGN (R576); lost in STANDBY, the twin phase is a lost reference (R577). -/
def setAligned (b : Bool) (e : Int) (s : State) : State :=
  if s.isF Reg.twStatusAligned = b then s
  else
    let s := raiseEv 132 1 0x0E03 [(20, le 1 (b2n b)), (24, leI 8 e)] (s.setB Reg.twStatusAligned b)
    let s := { s with tw := { s.tw with offDue := b && s.twinState = 3 } }
    if b then s
    else
      let s := restartWtr s
      if s.twinState = 3 then enterHoldover s.served 1 s else s

/-- The device is in twin state `st` (R572, R573): HST_STATUS.ACTIVE and TSTAT3 follow. A device that leaves ACTIVE for STANDBY
completes the command in progress (R584); alignment is judged in JOINING and STANDBY alone (R576). -/
def enterTwin (st : Nat) (s : State) : State :=
  let old := s.twinState
  let s := { (s.setF Reg.twStatusState st) with tw := { s.tw with entered := s.dtt, inRun := 0, outRun := 0 } }
  let s := s.setB Reg.hstStatusActive (st = 0 || st = 4 || st = 5)
  let s := mirrorsLeave old st s
  tstatFollow (startWtr (if st = 2 ∨ st = 3 then s else setAligned false (s.getI64 Reg.twAlign) s))

/-- TW_STATE and its vector (R572, R588). -/
def twinEvent (old cause : Nat) (s : State) : State :=
  (raiseEv 132 1 0x0E01 [(20, le 1 old), (21, le 1 s.twinState), (22, le 1 cause), (24, le 4 (s.getF Reg.twClaim))] s).signalVector 22

/-- The device passes to twin state `st` for `cause`; the outputs' standby hold follows (R572). -/
def setTwin (st cause : Nat) (s : State) : State :=
  let old := s.twinState
  if old = st then s else twinEvent old cause (outsRefresh (enterTwin st s))

/-- The served domain's loop leaves the twin phase (R582): a switch transaction to its own selection, or HOLDOVER where there is none. -/
def leaveTwinPhase (s : State) : State :=
  let d := s.served
  match selOf d s with
  | some i => beginTxn d i 1 s
  | none => enterHoldover d 1 s

/-- A takeover or takeback (R579, R582, R585): the new CLAIM count stands above both devices' and CLAIM is sent; then in order the state
with TSTAT3, the outer loop, the outputs, the evidence module (R566) and TW_STATE. -/
def takeOver (st cause kind : Nat) (s : State) : State :=
  let old := s.twinState
  let far := (s.tw.hb.map (·.claim)).getD 0
  let s := s.setF Reg.twClaim (max (s.getF Reg.twClaim) far + 1)
  let s := twSend 6 [(s.getF Reg.twClaim : Int), kind] [] s
  let serial := (s.tw.hb.map (·.serial)).getD 0
  let b := s.tw.bh.getD (0, 0, List.replicate 32 0)
  let s := outsRefresh (leaveTwinPhase (enterTwin st s))
  twinEvent old cause (evdTakeover (kind = 2) serial b.1 b.2.1 b.2.2 s)

/-! ### The link -/

/-- TWIN_LINK_DOWN: lock or deskew is lost on a twin lane (R574): the link goes down, a frame in reception ends, a running timer
restarts (R585). -/
def execTwinLinkDown (s : State) : Out :=
  if s.isF Reg.twStatusLinkUp = false then .next s
  else
    let s := cutFrame 50 [] (s.setB Reg.twStatusLinkUp false)
    let s := [48, 49, 50, 51].foldl (fun s n => s.setB (Reg.sdsStatusRxLock n) false) s
    .next (restartWtr s)

/-- A control frame whose CRC fails is discarded and counted (R575). -/
def crcBad (s : State) : State := s.addSat Reg.twCrcErr 1

/-- Whether a control frame can be received: twin operation on, link up. -/
def twHears (s : State) : Bool := s.twinState ≠ 0 && s.isF Reg.twStatusLinkUp

/-! ### Heartbeats -/

/-- TW_HEARTBEAT_TX: every 10 µs (7,812.5 ticks) by each device (R575). -/
def execTwHeartbeatTx (s : State) : Out :=
  if twHears s = false ∨ (s.dtt - s.tw.lastHb) * 2 < 15625 then .next s
  else
    let fault := !s.innerLocked || !s.isF Reg.hstStatusReady
    let s := twSend 1 [(s.twinState : Int), s.qc 0, s.qc 1, s.getF Reg.twClaim, b2n fault, Config.twinPref % 2, Config.serial] [] s
    .next { s with tw := { s.tw with lastHb := s.dtt } }

/-- The strap the partner's heartbeat shows (R580): TW_STRAP at a conflict found or cleared. -/
def strapCheck (pref serial : Nat) (s : State) : State :=
  let own := s.getF Reg.twStatusPref
  let s := s.setB Reg.twStatusPartPref (pref = 1)
  let conflict : Bool := pref = own
  if s.isF Reg.twStatusStrapConflict = conflict then s
  else raiseEv 132 3 0x0E04 [(20, le 1 own), (21, le 1 (b2n conflict)), (24, le 8 serial)] (s.setB Reg.twStatusStrapConflict conflict)

/-- The state of a domain follows the active's while the standby is aligned (R577). -/
def followQc (d q : Nat) (s : State) : State :=
  let s := if s.qcState d = q / 32 then s else setQc d (q / 32) 4 s
  (s.setF (Reg.tbDStatusQc d) q).setF (Reg.rsDSelQc d) q

/-- TW_HEARTBEAT_RX: the partner's heartbeat drives state, claim and strap (R572, R579 to R581). -/
def execTwHeartbeatRx (good : Bool) (state qcA qcB claim : Nat) (fault : Bool) (pref serial : Nat) (s : State) : Out :=
  if twHears s = false then .next s
  else if !good then .next (crcBad s)
  else
    let s := { s with tw := { s.tw with
      hb := some ⟨s.dtt, state, qcA, qcB, claim, fault, pref, serial⟩
      faultFrom := if fault then (match s.tw.faultFrom with | some t => some t | none => some s.dtt) else none } }
    let s := strapCheck pref serial s
    let s := if s.isF Reg.twStatusLinkFault then raiseEv 132 3 0x0E02 [(20, le 1 0)] (s.setB Reg.twStatusLinkFault false) else s
    let st := s.twinState
    let claims : Bool := state = 4 || state = 5
    if st = 1 then
      if claims then .next (setTwin 2 2 s)
      else if state = 1 then .next (if countsPref s then setTwin 5 2 s else setTwin 2 2 s)
      else .next s
    else if (st = 4 ∨ st = 5) ∧ claims = true then
      let own := s.getF Reg.twClaim
      if own < claim ∨ (own = claim ∧ countsPref s = false) then .next (setTwin 2 5 s) else .next s
    else if st = 5 ∧ state = 3 then .next (setTwin 4 7 s)
    else if st = 3 ∧ s.isF Reg.twStatusAligned = true then .next (followQc 1 qcB (followQc 0 qcA s))
    else .next s

/-- TW_LINK_TIMEOUT: no partner heartbeat for 10 s in LINKING (R572). -/
def execTwLinkTimeout (s : State) : Out :=
  if s.twinState = 1 ∧ s.tw.entered + 7812500000 ≤ s.dtt then .next (setTwin 5 3 s) else .next s

/-- TW_HB_MISS: no heartbeat for HB_MISS (R572, R581): the active stands alone; the standby takes over where TWCLK is lost too, and
otherwise raises TW_LINK_FAULT. -/
def execTwHbMiss (s : State) : Out :=
  if partnerAlive s = true then .next s
  else if s.twinState = 4 then .next (setTwin 5 3 s)
  else if s.twinState = 3 then
    if s.isF Reg.twStatusTwclkOk = false then .next (takeOver 5 3 1 s)
    else if s.isF Reg.twStatusLinkFault then .next s
    else .next (raiseEv 132 3 0x0E02 [(20, le 1 1)] (s.setB Reg.twStatusLinkFault true))
  else .next s

/-- TW_FAULT_TIMEOUT: the partner's heartbeats have shown FAULT for 1 ms (R581). -/
def execTwFaultTimeout (s : State) : Out :=
  match s.tw.faultFrom with
  | some t => if s.twinState = 3 ∧ t + 781250 ≤ s.dtt then .next (takeOver 5 4 1 s) else .next s
  | none => .next s

/-- TW_TWCLK_LOSS: TWCLK shows no edge for 1 µs (R576, R581). -/
def execTwTwclkLoss (s : State) : Out :=
  if s.isF Reg.twStatusTwclkOk = false then .next s
  else
    let s := setAligned false (s.getI64 Reg.twAlign) (s.setB Reg.twStatusTwclkOk false)
    let s := { s with tw := { s.tw with inRun := 0, outRun := 0 } }
    if s.twinState = 3 ∧ partnerAlive s = false then .next (takeOver 5 3 1 s) else .next s

/-! ### Following the active's time -/

/-- e_tw of a measured phase in 2⁻¹⁶ ns: less TWCLK_DELAY and the calibration constant of both TWCLK paths, reduced to half a TCLK
period, 0.64 ns, either way (R576). -/
def twError (raw : Int) (s : State) : Int :=
  let v := (raw - s.tw.delay - Config.factoryDelay 201 0) * 100
  let m := v % 8388608
  divRound (if 8388608 < 2 * m then m - 8388608 else m) 100

/-- TW_ALIGN: one phase sample of TWCLK, of which there is one a microsecond (R235, R576): the loop's error in JOINING and STANDBY, and
alignment after 4,096 samples within ±50 ps, lost after 16 beyond ±200 ps. -/
def execTwAlign (raw : Int) (s : State) : Out :=
  if s.twinState = 0 ∨ s.awake 61 = false then .next s
  else
    let e := twError raw s
    let s := (s.setB Reg.twStatusTwclkOk true).setI64 Reg.twAlign e
    if s.twinState ≠ 2 ∧ s.twinState ≠ 3 then .next s
    else
      let s := filterStep s.served (s.tw.bw * 1000) (10 ^ 9) e (s.setI64 (Reg.plDPerr s.served) e)
      let within := decide (e.natAbs * 1000 ≤ 50 * 65536)
      let outside := decide (200 * 65536 < e.natAbs * 1000)
      let i := if within then s.tw.inRun + 1 else 0
      let o := if outside then s.tw.outRun + 1 else 0
      let s := { s with tw := { s.tw with inRun := min i 4096, outRun := min o 16 } }
      .next (if 4096 ≤ i then setAligned true e s else if 16 ≤ o then setAligned false e s else s)

/-- TW_TIME_TX: every 1 ms (781,250 ticks) by the active (R575). -/
def execTwTimeTx (s : State) : Out :=
  if (s.twinState ≠ 4 ∧ s.twinState ≠ 5) ∨ s.dtt < s.tw.lastTime + 781250 then .next s
  else
    let s := twSend 2 [s.timeNow 0, s.stepc 0, (s.seg 0).rate, s.timeNow 1, s.stepc 1, (s.seg 1).rate, s.served] [] s
    .next { s with tw := { s.tw with lastTime := s.dtt } }

/-- The step of domain `d` by which it takes the active's time at a commit, under R144 and R145, and after it the active's step counter (R587). -/
def commitStep (d : Nat) (a : Int) (counter : Nat) (s : State) : State :=
  let f := fixXc none (spacedFrom d s) s
  f.2.setDom d { f.2.dom d with steps := (f.2.dom d).steps ++ [⟨a, f.1, true, false, some counter⟩] }

/-- Domain `d` takes the active's step counter (R578). -/
def takeStepc (d n : Nat) (s : State) : State := if s.stepc d = n then s else setStepc d s.now80 n s

/-- TW_TIME_RX: the active's TIME frame (R575): its DTT `stamp` stood for this device's tick `here`. A commit that waits takes the
offset, the domain times and the step counters (R587); the standby takes the step counters at every frame, and at a return of
alignment the offset and the active's time as a returning reference (R577, R578). -/
def execTwTimeRx (good : Bool) (stamp here : Nat) (timeA timeB : Int) (stepA stepB : Nat) (rateA rateB : Int) (served : Nat) (s : State) : Out :=
  if twHears s = false then .next s
  else if !good then .next (crcBad s)
  else
    let dA := timeA - s.timeAt 0 (here * 2 ^ 16)
    let dB := timeB - s.timeAt 1 (here * 2 ^ 16)
    let off : Int := (stamp : Int) - here
    if s.twinState = 2 ∧ holds 0x0E01 s = true then
      if stepBeyondGuard dA s = true then .next (resumeHeld (failWith stLocked 0) (stepDenied dA s))
      else if stepBeyondGuard dB s = true then .next (resumeHeld (failWith stLocked 0) (stepDenied dB s))
      else
        let s := commitStep 1 dB stepB (commitStep 0 dA stepA (s.setI64 Reg.twDttOff off))
        .next (resumeHeld okReply (setTwin 3 7 s))
    else if s.twinState = 3 then
      let s := takeStepc 1 stepB (takeStepc 0 stepA s)
      if s.tw.offDue then
        let s := { (s.setI64 Reg.twDttOff off) with tw := { s.tw with offDue := false } }
        let d := s.served
        .next (returnWith d (if d = 0 then dA else dB) s)
      else .next s
    else .next s

/-! ### Mirrored commands -/

/-- TW_MIRROR_RX: a mirrored command has come (R578). The command itself follows as one from the mirror; the instant the active fixed is
carried over by DTT_OFFSET. Commands wait in the order they came. -/
def execTwMirrorRx (good : Bool) (seq opcode tag instant : Nat) (s : State) : Out :=
  if twHears s = false then .next s
  else if !good then .next (crcBad s)
  else if s.twinState ≠ 3 then .next s
  else
    let x : Int := (instant : Int) - s.getI64 Reg.twDttOff
    let late := instant ≠ 0 && decide (x ≤ s.dtt)
    let s := s.setF Reg.twMirrorSeq (seq + 1)
    .next { s with tw := { s.tw with
      mirrors := s.tw.mirrors ++ [⟨seq, opcode, tag, if instant = 0 then none else some x.toNat, late⟩] } }

/-- The standby's acknowledgement of a command forwarded is kept until the active has finished it too (R122). -/
def ackNote (seq status detail : Nat) (s : State) : State :=
  { s with tw := { s.tw with forwarded := s.tw.forwarded.map (fun x => if x.1 = seq then (seq, some (status, detail)) else x) } }

/-- A command that waits for the standby and has been acknowledged completes (R122). -/
def ackMet (s : State) : State :=
  match s.mbx.ackWait with
  | none => s
  | some w =>
    match (s.tw.forwarded.find? (fun x => x.1 = w.seq)).bind (·.2) with
    | none => s
    | some a => ackTaken w a.1 s

/-- TW_ACK_RX: the standby has finished a mirrored command; the active writes its completion entry once it has finished it too (R122). -/
def execTwAckRx (good : Bool) (seq status detail : Nat) (s : State) : Out :=
  if twHears s = false then .next s
  else if !good then .next (crcBad s)
  else .next (ackMet (ackNote seq status detail s))

/-- MIRROR_ACK_TIMEOUT: no acknowledgement 1 ms (781,250 ticks) after the active's own finish (R122). -/
def execMirrorAckTimeout (s : State) : Out :=
  match s.mbx.ackWait with
  | none => .next s
  | some w => if s.dtt < w.finished + 781250 then .next s else .next (ackDrop s)

/-- TW_EVD_BH_RX: the hash of a block the active has closed is kept (R566). -/
def execTwEvdBhRx (good : Bool) (epoch block : Nat) (bh : Bytes) (s : State) : Out :=
  if twHears s = false then .next s
  else if !good then .next (crcBad s)
  else .next { s with tw := { s.tw with bh := some (epoch, block, bh) } }

/-- TW_CLAIM_RX: the partner takes over by command or takes back (R572, R579): ACTIVE passes to STANDBY. A device whose own heartbeats
show FAULT waits for the partner's next heartbeat instead (R581). -/
def execTwClaimRx (good : Bool) (claim kind : Nat) (s : State) : Out :=
  if twHears s = false then .next s
  else if !good then .next (crcBad s)
  else
    let s := { s with tw := { s.tw with hb := s.tw.hb.map (fun h => { h with claim := claim }) } }
    let fault := !s.innerLocked || !s.isF Reg.hstStatusReady
    if s.twinState = 4 ∧ s.getF Reg.twClaim < claim ∧ (kind = 2 ∨ fault = false) then .next (setTwin 3 (if kind = 2 then 6 else 1) s)
    else .next s

/-- TW_WTR_EXPIRY: the wait-to-restore timer has run out, and no mirrored command is in progress: takeback (R585). -/
def execTwWtrExpiry (s : State) : Out :=
  match s.tw.wtrUntil with
  | some t => if s.twinState = 3 ∧ t ≤ s.dtt ∧ s.tw.mirrors = [] then .next (takeOver 4 6 2 s) else .next s
  | none => .next s

/-! ### Commands -/

def twEnableSpec : CmdSpec :=
  { opcode := 0x0E01, lenOk := lenIs 24
    args := fun c _ =>
      firstBad ([(0, decide (1 < cu c 0 1)), (1, decide (4 ≤ cu c 1 1) || (cbit c 1 0 && cu c 0 1 = 0)),
        (2, decide (cu c 2 2 < 20 ∨ 10000 < cu c 2 2)), (4, decide (cu c 4 4 = 0 ∨ 1000 < cu c 4 4)), (8, decide (655360 < cu c 8 8)),
        (16, !cbit c 1 0 && cu c 16 4 ≠ 0), reservedAbove c 21 4] ++ reserved c 22 2)
    stops := fun c s =>
      let commit := cbit c 1 0
      let far := (s.tw.hb.map (·.state)).getD 0
      firstStop [(commit && (s.twinState ≠ 2 || !s.isF Reg.twStatusAligned || !(far = 4 || far = 5)), stRefused, 0x0E04),
        (commit && cu c 16 4 ≠ (c.meas.headD 0).toNat, stRefused, 0x0E03)] }

/-- The settings of TW_ENABLE. -/
def twSettings (c : Cmd) (s : State) : State :=
  { (s.setB Reg.twStatusRevertive (cbit c 1 1)) with tw := { s.tw with
    hbMiss := cu c 2 2, bw := cu c 4 4, delay := cu c 8 8, holdMask := cu c 20 1 + 256 * cu c 21 1 } }

/-- The twin lanes start, and the device looks for its partner (R234, R572). -/
def twOn (c : Cmd) (s : State) : State :=
  let s := [48, 49, 50, 51].foldl (fun s n =>
    let s := (laneMode n 5 0 s).setB (Reg.sdsStatusTxOn n) true
    s.setLane n { s.lane n with txStart := some s.dtt }) (twSettings c s)
  setTwin 1 1 { s with tw := { s.tw with hb := none, faultFrom := none, bh := none, mirrors := [], forwarded := [] } }

/-- Twin operation ends (R572): lanes and island sleep; a loop on the twin phase goes back to its own selection. -/
def twOff (s : State) : State :=
  let was := s.twinState
  let s := setTwin 0 1 s
  let s := if was = 2 ∨ was = 3 then leaveTwinPhase s else s
  let s := [48, 49, 50, 51].foldl (fun s n =>
    let s := ((laneMode n 0 0 s).setB (Reg.sdsStatusTxOn n) false).setB (Reg.sdsStatusRxLock n) false
    s.setLane n { s.lane n with txStart := none }) (cutFrame 50 [] s)
  let s := ((s.setB Reg.twStatusLinkUp false).setB Reg.twStatusTwclkOk false).setB Reg.twStatusLinkFault false
  { s with islands := s.islands.filter (fun k => k ≠ 61), tw := { s.tw with hb := none, faultFrom := none } }

/-- TW_ENABLE: ON from OFF waits for the twin island to wake (R35); COMMIT waits for the next TIME frame (R587); ON equal to the present
state without COMMIT has no effect (R589). -/
def twEnableEffect (c : Cmd) (s : State) : State × Option Reply :=
  if cbit c 1 0 then (twSettings c s, none)
  else if cu c 0 1 = 1 then
    if s.twinState ≠ 0 then (s, some okReply)
    else if portEnabled 48 s = false then (portDenied 48 s, some (failWith stLocked 0))
    else if s.awake 61 = false then (s, none)
    else (twOn c s, some okReply)
  else if s.twinState = 0 then (s, some okReply)
  else (twOff s, some okReply)

/-- TW_ENABLE (R587, R589). -/
def execTwEnable (c : Cmd) (s : State) : Out := runHeld twEnableSpec twEnableEffect c s

def twTakeoverSpec : CmdSpec :=
  { opcode := 0x0E02, urgent := true, lenOk := lenIs 0, stops := fun _ s => firstStop [(decide (s.twinState ≤ 2), stRefused, 0x0E01)] }

/-- The effect of TW_TAKEOVER: the standby becomes ACTIVE with its partner alive, otherwise ALONE (R572, R582). -/
def twTakeoverEffect (_ : Cmd) (s : State) : State × Reply :=
  (if s.twinState = 3 then takeOver (if partnerAlive s then 4 else 5) 1 1 s else s, okReply)

/-- TW_TAKEOVER. -/
def execTwTakeover (c : Cmd) (s : State) : Out := runCmd twTakeoverSpec twTakeoverEffect c s

def twTakebackSpec : CmdSpec :=
  { opcode := 0x0E03, urgent := true, lenOk := lenIs 0
    stops := fun _ s => firstStop [(!countsPref s || s.twinState ≠ 3, stRefused, 0x0E02)] }

/-- The effect of TW_TAKEBACK: as the timer's expiry, at once (R585). -/
def twTakebackEffect (_ : Cmd) (s : State) : State × Reply := (takeOver 4 6 2 s, okReply)

/-- TW_TAKEBACK. -/
def execTwTakeback (c : Cmd) (s : State) : Out := runCmd twTakebackSpec twTakebackEffect c s

def twStatusSpec : CmdSpec := { opcode := 0x0E04, urgent := true, reports := true, lenOk := lenIs 0 }

/-- The effect of TW_STATUS (R589). -/
def twStatusEffect (_ : Cmd) (s : State) : State × Reply :=
  (s, okWith [(32, le 4 (s.regWord 0xB00000)), (36, le 4 (s.getF Reg.twMirrorSeq)), (40, le 8 (s.get64 Reg.twAlign)),
    (48, le 8 (s.get64 Reg.twDttOff)), (56, le 4 (s.getF Reg.twClaim)),
    (60, le 2 (match s.tw.wtrUntil with | some t => (t - s.dtt + 781249999) / 781250000 | none => 0))])

/-- TW_STATUS. -/
def execTwStatus (c : Cmd) (s : State) : Out := runCmd twStatusSpec twStatusEffect c s

def twSetWtrSpec : CmdSpec :=
  { opcode := 0x0E05, lenOk := lenIs 4, args := fun c _ => firstBad ((0, decide (3600 < cu c 0 2)) :: reserved c 2 2) }

/-- The effect of TW_SET_WTR: a running timer restarts with the new value (R585). -/
def twSetWtrEffect (c : Cmd) (s : State) : State × Reply :=
  (restartWtr { s with tw := { s.tw with wtrS := cu c 0 2 } }, okReply)

/-- TW_SET_WTR. -/
def execTwSetWtr (c : Cmd) (s : State) : Out := runCmd twSetWtrSpec twSetWtrEffect c s

end Sys2Proof.Machine
end

