-- ==== Sys2Proof/Machine/Calibration.lean ====
section
/-! DEFINITION. Self-calibration (R627 to R644): the plausibility checks of a part, acceptance at x_a, runs that the device starts
itself, islands that wake (R35), and the commands of group 0x11. -/

set_option Elab.async false

namespace Sys2Proof.Machine

/-! ### Parts -/

/-- KIND of a target. -/
def calKind (k : Nat) : Nat := k / 64

/-- TDC channels of a target (R628). -/
def calChannels (k : Nat) : Nat := if calKind k = 0 then 2 else 1

/-- Standards of an input or output, in R635 order. -/
def calStandards (k : Nat) : Nat := if calKind k = 1 then 2 else if k % 64 < 8 then 2 else 1

/-- Whether a part is a lane's THRESH. -/
def isThresh (k part : Nat) : Bool := calKind k = 0 && part = 1

/-- φ of every code of one channel, in 2⁻²⁴ tick, from its hits (R630). -/
def phiOf : Nat → List Nat → List Nat
  | _, [] => []
  | below, h :: r => (4 * below + 2 * h) :: phiOf (below + h) r

/-- The map of a target from the hits of its channels, one after the other. -/
def mapOf (k : Nat) (hits : List Nat) : List Nat :=
  ((List.range (calChannels k)).map (fun ch => phiOf 0 ((hits.drop (320 * ch)).take 320))).flatten

/-- Whether a measurement has the form its part gives it: 2²² hits a channel (R630), two trims, A_RX of every PEAK and A_TX (R634), or
delays of standards the target has (R635). -/
def calShape (k part : Nat) (m : CalMeas) : Bool :=
  if part = 0 then
    m.hits.length = 320 * calChannels k &&
      (List.range (calChannels k)).all (fun ch => ((m.hits.drop (320 * ch)).take 320).sum = 2 ^ 22)
  else if isThresh k part then m.trims.length = 2
  else if calKind k = 0 then m.delays.length = 17
  else m.delays ≠ [] && decide (m.first + m.delays.length ≤ calStandards k) && (calKind k = 1 || m.delays.length = calStandards k)

/-- Record indices of the delays a part measures (R628). -/
def delayKeys (k rate : Nat) (m : CalMeas) : List Nat :=
  if calKind k = 0 then (List.range 16).map (rate * 16 + ·) ++ [48 + rate]
  else (List.range m.delays.length).map (m.first + ·)

/-- The first failing check of a TDC part after DLL, with the value tested in 2⁻¹⁶ ns (R636): WIDTH, PHASE, SHIFT. -/
def tdcFault (k : Nat) (old : List Nat) (m : CalMeas) : Option (Nat × Int) :=
  match m.hits.find? (fun h => decide (h * 2560 < 2 ^ 22) || decide (12 * 2 ^ 22 < h * 1280)) with
  | some h => some (4, h / 50)
  | none =>
    let groups := (List.range (8 * calChannels k)).map (fun g => ((m.hits.drop (40 * g)).take 40).sum)
    match groups.find? (fun n => decide (n * 1280 < 140 * 2 ^ 22) || decide (180 * 2 ^ 22 < n * 1280)) with
    | some n => some (5, n / 50)
    | none =>
      if old = [] then none
      else
        let moves := List.zipWith (fun (a b : Nat) => (a : Int) - b) (mapOf k m.hits) old
        (moves.find? (fun d => decide (262144 < d.natAbs))).map (fun d => (6, d / 200))

/-- The first failing check of a THRESH part, with the value tested in 0.01 mV (R636): OFFSET, VSTEP. -/
def threshFault (m : CalMeas) : Option (Nat × Int) :=
  match m.trims.find? (fun t => decide (2000 < t.natAbs)) with
  | some t => some (7, t)
  | none =>
    if m.vstep < 80 ∨ 160 < m.vstep then some (8, m.vstep)
    else if 32 < m.inl then some (8, (m.inl * m.vstep / 16 : Nat))
    else none

/-- The first failing check of a LATENCY or DELAY part, with the value tested in 2⁻¹⁶ ns (R636): SPREAD, FUSE. -/
def delayFault (k rate : Nat) (m : CalMeas) : Option (Nat × Int) :=
  if 3000 < m.spread then some (9, (m.spread * 65536 / 1000000 : Nat))
  else
    let lim := if calKind k = 0 then 50 else 100
    ((List.zip (delayKeys k rate m) m.delays).find? (fun e =>
      decide (lim * 65536 < (e.2 - Config.factoryDelay k e.1).natAbs * 1000))).map (fun e => (10, e.2))

/-- The first check that rejects a part (R636), in the order of its table; the first three test no value of the record. -/
def calFault (k part rate : Nat) (lost : Bool) (old : List Nat) (m : CalMeas) : Option (Nat × Option Int) :=
  let some' (o : Option (Nat × Int)) : Option (Nat × Option Int) := o.map (fun e => (e.1, some e.2))
  if lost then some (1, none)
  else if 32 ≤ m.moved.natAbs then some (2, none)
  else if part = 0 then (if m.dll then some' (tdcFault k old m) else some (3, none))
  else if isThresh k part then some' (threshFault m)
  else some' (delayFault k rate m)

/-- The newest values of a record, those that wait for their instant included. -/
def newest (r : CalRec) : CalVals := (r.waiting.map (·.2)).getD r.vals

/-- The values of a record with those of one part replaced (R628). -/
def calWrite (k part rate : Nat) (m : CalMeas) (v : CalVals) : CalVals :=
  if part = 0 then { v with map := mapOf k m.hits }
  else if isThresh k part then { v with thresh := m.trims ++ [(m.vstep : Int), m.inl] }
  else { v with delays := (List.zip (delayKeys k rate m) m.delays).foldl (fun d e => spSet none d e.1 (some e.2)) v.delays }

/-- The record's temperatures with those a part refers to (R628, R634): line rate or standard, and TDC last. -/
def calTemps (k part rate : Nat) (m : CalMeas) (t : List Int) : List Int :=
  if part = 0 then t.set 3 m.temp
  else if isThresh k part then t
  else if calKind k = 0 then t.set rate m.temp
  else (delayKeys k rate m).foldl (fun t i => t.set i m.temp) t

/-! ### Runs -/

/-- CAL_STATUS shows the oldest run in progress. -/
def showCal (s : State) : State :=
  match s.cal.runs.find? (fun r => r.parts ≠ []) with
  | none => ((s.setB Reg.calStatusRunning false).setF Reg.calStatusKind 0).setF Reg.calStatusIndex 0
  | some r => ((s.setB Reg.calStatusRunning true).setF Reg.calStatusKind (calKind r.target)).setF Reg.calStatusIndex (r.target % 64)

/-- The run of target `k`. -/
def State.calRun (s : State) (k : Nat) : Option CalRun := s.cal.runs.find? (fun r => r.target = k)

/-- The run of target `k` replaced. -/
def putRun (k : Nat) (r : CalRun) (s : State) : State :=
  showCal { s with cal := { s.cal with runs := s.cal.runs.map (fun x => if x.target = k then r else x) } }

/-- The run of target `k` is over. -/
def dropRun (k : Nat) (s : State) : State :=
  showCal { s with cal := { s.cal with runs := s.cal.runs.filter (fun r => r.target ≠ k) } }

/-- A part of a lane's run begins: THRESH and LATENCY take its receiver from the balls, and the link goes down (R634, R640). -/
def partBegins (k : Nat) (before : Nat) (r : CalRun) (s : State) : State :=
  if k < 52 ∧ before = 0 ∧ r.parts.headD 0 ≠ 0 ∧ s.mode k ≠ 0 then relock k 5 s else s

/-- A run of target `k` starts (R627): an input leaves service, and a gate open on it will close INVALID (R632). -/
def startRun (k : Nat) (parts : List Nat) (rate origin : Nat) (s : State) : State :=
  let r : CalRun := ⟨k, parts, 0, none, 0, rate, origin, !s.innerLocked⟩
  let s := showCal { s with cal := { s.cal with runs := s.cal.runs.filter (fun x => x.target ≠ k) ++ [r] } }
  if calKind k = 1 then
    s.setInput (k % 64) { s.input (k % 64) with gate := (s.input (k % 64)).gate.map (fun g => { g with bad := true }) }
  else partBegins k 0 r s

/-- Payload of a calibration event (R643). -/
def calEvent (code sev k part check : Nat) (value : Int) (s : State) : State :=
  raiseEv 129 sev code [(20, le 1 (calKind k)), (21, le 1 (k % 64)), (22, le 1 (2 ^ part)), (23, le 1 check), (24, le 4 (s.calRec k).seq),
    (28, leI 4 value)] s

/-- Whether every part of a run was accepted: those of a lane with TDC and LATENCY make its stamps current (R638, R642). -/
def runOk (r : CalRun) : Bool := r.rejected = none && r.parts = []

/-- STARTUP_OK once the last start-up run is over: no part has been rejected (R642). -/
def startupFollow (s : State) : State :=
  if s.cal.runs.any (fun r => r.origin = 1) then s else s.setB Reg.calStatusStartupOk (s.getF Reg.calStatusRejects = 0)

/-- A run ends (R637, R638, R642): its target is in service again; a command collects its own run. -/
def runEnds (k : Nat) (r : CalRun) (s : State) : State :=
  let full : Bool := runOk r && bit r.accepted 0 && bit r.accepted 2
  let s := if k < 48 ∧ full = true then
      showRecal (portOf k s) (s.setLane k { s.lane k with calWait := false, recalDue := false })
    else if k < 52 ∧ full = true then s.setLane k { s.lane k with calWait := false }
    else s
  let s := if calKind k = 1 ∧ runOk r = true ∧ r.accepted = 3 then s.setB (Reg.emStatusCalOk (k % 64)) true else s
  let s := if r.origin = 0 then putRun k r s else dropRun k s
  let s := if r.origin = 1 then startupFollow s else s
  if k < 48 then stampStatus (portOf k s) s else s

/-- CAL_PART_DONE: the part in progress of a target's run has been measured (R636): the first failing check rejects it and ends the run
(R637); otherwise its values wait for x_a, at least 64 ticks away (`later` ticks more; R628). -/
def execCalPartDone (target : Nat) (m : CalMeas) (later : Nat) (s : State) : Out :=
  match s.calRun target with
  | none => .next s
  | some r =>
    match r.parts with
    | [] => .next s
    | part :: rest =>
      let c := s.calRec target
      if c.waiting.isSome = true ∨ calShape target part m = false then .next s
      else match calFault target part r.rate (r.lost || !s.innerLocked) c.vals.map m with
        | some (code, value) =>
          let v : Int × State := match value with | some v => (v, s) | none => (s.draw.1, s.draw.2)
          let s := v.2.addSat Reg.calStatusRejects 1
          let s := calEvent 0x1102 (if r.origin = 1 then 2 else 1) target part code v.1 s
          .next (runEnds target { r with rejected := some (part, code), parts := rest } s)
        | none =>
          let xa := s.dtt + 64 + later
          let c := { c with seq := (c.seq + 1) % 2 ^ 32, temps := calTemps target part r.rate m c.temps,
                            waiting := some (xa, calWrite target part r.rate m c.vals) }
          let c := if part = 0 then { c with xaTdc := xa } else { c with xaDelay := xa }
          let s := s.setCalRec target c
          .next { s with cal := { s.cal with accepting := s.cal.accepting ++ [(target, part, m.temp, (s.draw.1 : Int))] }, freeCount := s.freeCount + 1 }

/-- The flag of a record register that a part sets: TDC_OK, THRESH_OK, DELAY_OK. -/
def okBit (k part : Nat) : Nat := if part = 0 then 31 else if isThresh k part then 30 else 29

/-- CAL_ACCEPT: the values of a target take effect (R628): CAL_DONE, the record register, and the next part of the run. -/
def execCalAccept (target : Nat) (s : State) : Out :=
  let c := s.calRec target
  match c.waiting, s.cal.accepting.find? (fun a => a.1 = target) with
  | some w, some a =>
    if s.dtt < w.1 then .next s
    else
      let part := a.2.1
      let s := s.setCalRec target { c with older := c.vals, vals := w.2, since := w.1, waiting := none }
      let s := { s with cal := { s.cal with accepting := s.cal.accepting.filter (fun x => x.1 ≠ target),
                                            deviceTemp := if calKind target = 3 then a.2.2.1 else s.cal.deviceTemp } }
      let r := (s.calRun target).getD ⟨target, [part], 0, none, 0, 0, 2, false⟩
      let rest := r.parts.drop 1
      let s := if rest.headD 3 = 2 ∧ part = 2 then s else s.setB ⟨recAddr target, okBit target part, 1⟩ true
      let s := showRecTemp target (s.setF ⟨recAddr target, 16, 13⟩ c.seq)
      let s := if target < 48 then showConstants target s else s
      let s := calEvent 0x1101 0 target part 0 a.2.2.2 s
      let r := { r with parts := rest, accepted := maskOf (part :: members r.accepted 3), xa := w.1, lost := !s.innerLocked,
                        rate := if rest.headD 3 = 2 ∧ part = 2 then r.rate + 1 else r.rate }
      .next (if rest = [] then runEnds target r s else
        let s := partBegins target part r (putRun target r s)
        if target < 48 then stampStatus (portOf target s) s else s)
  | _, _ => .next s

/-- Start-up calibration begins (R642): every device channel and output, and every lane at each of its line rates. -/
def calStartup (s : State) : State :=
  let s := (List.range 10).foldl (fun s d => startRun (192 + d) [0] 0 1 s) { s with cal := { s.cal with deviceAt := s.dtt } }
  let s := (List.range 12).foldl (fun s o => startRun (128 + o) [0, 1] 0 1 s) s
  (List.range 52).foldl (fun s n => startRun n [0, 1, 2, 2, 2] 0 1 s) s

/-- DEVICE_CAL_AUTO: the device channels are calibrated again, 10 minutes after they last were or with the highest sensor 5 °C away
(R627). -/
def execDeviceCalAuto (temp : Int) (s : State) : Out :=
  if s.isF Reg.hstStatusReady = false ∨ (s.dtt < s.cal.deviceAt + 468750000000 ∧ (temp - s.cal.deviceTemp).natAbs < 80) ∨
      s.cal.runs.any (fun r => calKind r.target = 3) = true then .next s
  else
    let s := { s with cal := { s.cal with deviceAt := s.dtt, deviceTemp := temp } }
    .next ((List.range 10).foldl (fun s d => startRun (192 + d) [0] 0 2 s) s)

/-- A restart or handover reloads the calibration sequencer: every part in progress begins again (R641). -/
def calReload (s : State) : State :=
  { s with cal := { s.cal with runs := s.cal.runs.map (fun r => { r with lost := !s.innerLocked }) } }

/-! ### Commands -/

/-- Parts of a mask, in order. -/
def partsOf (mask : Nat) : List Nat := members mask 3

/-- RESULT of CAL_LANE and CAL_EVTIN. -/
def calResult (k : Nat) (r : CalRun) (temp : Int) (s : State) : Bytes :=
  resultOf [(32, le 8 r.xa), (40, le 4 (s.calRec k).seq), (44, le 1 r.accepted), (45, le 1 ((r.rejected.map (·.2)).getD 0)), (46, leI 2 temp)]

/-- DETAIL of a rejection (R637). -/
def rejectDetail (r : CalRun) : Nat := (r.rejected.map (fun e => 2 ^ e.1 * 256 + e.2)).getD 0

/-- The target CAL_LANE or CAL_EVTIN names. -/
def calTarget (o : LongOp) : Nat := if o.opcode = 0x1102 then 64 + cu o.cmd 0 1 else cu o.cmd 0 1

/-- The junction temperature at the end of a run, as the sequencer reads it: an operand of the command. -/
def endTemp (c : Cmd) : Int := c.meas.headD 0

/-- One step of CAL_LANE or CAL_EVTIN: the first starts the run, the later ones wait for its end (R637); a twin lane whose island sleeps is woken first
(R35). -/
def calStep (o : LongOp) (s : State) : State × StepEnd :=
  let k := calTarget o
  match o.work with
  | [] =>
    if 48 ≤ k ∧ k < 52 ∧ s.awake 61 = false then (s, .more o) else
    let ps := partsOf (cu o.cmd 1 1)
    (startRun k ps (rateOf (s.mode k)) 0 s, .more { o with work := [1], estimate := ps.length + 1 })
  | _ =>
    match s.calRun k with
    | none => (s, .done okReply)
    | some r =>
      if r.rejected = none ∧ r.parts ≠ [] then (s, .more o)
      else
        let s := dropRun k s
        let st := if r.rejected = none then (stOk, 0) else (stCalReject, rejectDetail r)
        (s, .done ⟨st.1, st.2, calResult k r (endTemp o.cmd) s, []⟩)

/-- HST_CANCEL stops CAL_LANE or CAL_EVTIN: the part in progress is discarded, parts accepted before it stand (R644). -/
def calCancel (o : LongOp) (s : State) : State × Bytes :=
  let k := calTarget o
  match s.calRun k with
  | none => (s, resultOf [])
  | some r =>
    let s := dropRun k s
    let s := if k < 48 then stampStatus (portOf k s) s else s
    (s, calResult k r (endTemp o.cmd) s)

def calLaneSpec : CmdSpec :=
  { opcode := 0x1101, stepped := true, lenOk := lenIs 4
    args := fun c _ => firstBad ([(0, decide (51 < cu c 0 1)), (1, cu c 1 1 = 0 || decide (8 ≤ cu c 1 1))] ++ reserved c 2 2)
    stops := fun c s =>
      let n := cu c 0 1
      let more : Bool := decide (1 < cu c 1 1)
      firstStop [(calHolds n s || (cbit c 1 1 && s.isF (Reg.sdsStatusScan n)), stBusy, 0),
        (more && decide (n < 48) && inDirect (portOf n s) s, stRefused, 0x1101),
        (more && decide (48 ≤ n) && s.twinState ≠ 0, stRefused, 0x1102),
        ((decide (n < 48) && s.mode n = 0) || (more && inGroup n s), stRefused, 0x1103)] }

/-- CAL_LANE (R637, R640). That a lane is disabled is said of port lanes: R640 lets THRESH and LATENCY run on a twin lane in OFF alone (DEDUCED, log entry
254). -/
def execCalLane (c : Cmd) (s : State) : Out := runStepped calLaneSpec calStep c s

def calEvtinSpec : CmdSpec :=
  { opcode := 0x1102, stepped := true, lenOk := lenIs 4
    args := fun c _ => firstBad ([(0, decide (7 < cu c 0 1)), (1, cu c 1 1 = 0 || decide (4 ≤ cu c 1 1))] ++ reserved c 2 2)
    stops := fun c s => firstStop [(calHolds (64 + cu c 0 1) s, stBusy, 0), (!s.isF (Reg.emStatusEn (cu c 0 1)), stRefused, 0x1104)] }

/-- CAL_EVTIN (R632, R637). -/
def execCalEvtin (c : Cmd) (s : State) : Out := runStepped calEvtinSpec calStep c s

/-- RESULT of CAL_OUTPUT: the outputs accepted and rejected, and X_A; `v` holds accepted mask, rejected mask, X_A and DETAIL. -/
def outResult (v : List Int) : Bytes :=
  resultOf [(32, leI 2 (v.getD 0 0)), (34, leI 2 (v.getD 1 0)), (40, leI 8 (v.getD 2 0))]

/-- One step of CAL_OUTPUT: one output after the other, in ascending order (R635); `work` holds those left, the one in progress first. -/
def calOutStep (o : LongOp) (s : State) : State × StepEnd :=
  match o.work with
  | [] =>
    let outs := members (cu o.cmd 0 2) 12
    (startRun (128 + outs.headD 0) [0, 1] 0 0 s, .more { o with work := outs, v := [0, 0, 0, 0], estimate := outs.length + 1 })
  | out :: rest =>
    match s.calRun (128 + out) with
    | none => (s, .done okReply)
    | some r =>
      if r.rejected = none ∧ r.parts ≠ [] then (s, .more o)
      else
        let s := dropRun (128 + out) s
        let b : Int := 2 ^ out
        let v := if r.rejected = none then [o.v.getD 0 0 + b, o.v.getD 1 0, (r.xa : Int), o.v.getD 3 0]
          else [o.v.getD 0 0, o.v.getD 1 0 + b, o.v.getD 2 0, if o.v.getD 1 0 = 0 then (rejectDetail r : Int) else o.v.getD 3 0]
        match rest with
        | next :: _ => (startRun (128 + next) [0, 1] 0 0 s, .more { o with work := rest, v := v })
        | [] =>
          let d := (v.getD 3 0).toNat
          (s, .done ⟨if d = 0 then stOk else stCalReject, d, outResult v, []⟩)

/-- HST_CANCEL stops CAL_OUTPUT (R644). -/
def calOutCancel (o : LongOp) (s : State) : State × Bytes :=
  (dropRun (128 + o.work.headD 0) s, outResult o.v)

def calOutputSpec : CmdSpec :=
  { opcode := 0x1103, stepped := true, lenOk := lenIs 4
    args := fun c _ => firstBad ([(0, decide (cu c 0 2 = 0) || decide (4096 ≤ cu c 0 2))] ++ reserved c 2 2)
    stops := fun c s => firstStop [((members (cu c 0 2) 12).any (fun n => calHolds (128 + n) s), stBusy, 0)] }

/-- CAL_OUTPUT (R635). -/
def execCalOutput (c : Cmd) (s : State) : Out := runStepped calOutputSpec calOutStep c s

/-- Targets of a KIND (R627). -/
def calIndexes (kind : Nat) : Nat := if kind = 0 then 52 else if kind = 1 then 8 else if kind = 2 then 12 else 10

/-- The record of a target as bytes (R628): values not measured read as the factory record has them, THRESH as 0. -/
def recordBytes (k : Nat) (s : State) : Bytes :=
  let r := s.calRec k
  let n := calChannels k
  let delay (i : Nat) : Bytes := leI 4 (calDelay k i s.dtt s)
  let delays := if calKind k = 0 then ((List.range 51).map delay).flatten
    else if calKind k = 3 then [] else ((List.range (calStandards k)).map delay).flatten
  let v := calAt k s.dtt s
  let th (i w : Nat) : Bytes := leI w (v.thresh.getD i 0)
  record 64
    ([(0, le 1 (calKind k)), (1, le 1 (k % 64)),
      (2, le 1 (s.getF ⟨recAddr k, 29, 3⟩)), (4, le 4 r.seq), (8, le 8 r.xaTdc), (16, le 8 r.xaDelay)] ++
     ((List.range 4).map (fun i => (24 + 2 * i, leI 2 (r.temps.getD i 0))))) ++
  ((List.range (n * 320)).map (fun i => le 4 (phi k (i / 320) (i % 320) s.dtt s))).flatten ++
  (delays ++ List.replicate (256 - delays.length) 0) ++
  record 16 (if calKind k = 0 then [(0, th 0 2), (2, th 1 2), (4, th 2 2), (6, th 3 2)] else [])

def calReadRecordSpec : CmdSpec :=
  { opcode := 0x1104, reports := true, lenOk := lenIs 4
    args := fun c _ => firstBad ([(0, decide (3 < cu c 0 1)), (1, decide (calIndexes (cu c 0 1) ≤ cu c 1 1))] ++ reserved c 2 2)
    need := fun c _ => if cu c 0 1 = 0 then 2896 else 1616 }

/-- The effect of CAL_READ_RECORD (R628). -/
def calReadRecordEffect (c : Cmd) (s : State) : State × Reply :=
  let b := recordBytes (cu c 0 1 * 64 + cu c 1 1) s
  (s, okBuf [(32, le 4 b.length)] b)

/-- CAL_READ_RECORD. -/
def execCalReadRecord (c : Cmd) (s : State) : Out := runCmd calReadRecordSpec calReadRecordEffect c s

/-! ### Islands -/

/-- Islands that something waits for: those of the held command and of the stepped command in progress (R35). -/
def islandWanted (k : Nat) (s : State) : Bool :=
  let held := match s.mbx.held with
    | none => false
    | some h =>
      (h.opcode = 0x0E01 && k = 61) || (h.opcode = 0x0601 && k = 52) || (h.opcode = 0x0701 && k = 53 + cu h.cmd 0 1) ||
        (h.opcode = 0x0901 && k = halfOf (cu h.cmd 0 1)) || (h.opcode = 0x0804 && k = 61)
  let long := match s.mbx.longOp with
    | none => false
    | some o =>
      (o.opcode = 0x0801 && o.work = [1] && decide (cu o.cmd 1 1 ≠ 0) && (lanesIn (cu o.cmd 0 1) (cu o.cmd 1 1)).contains k) ||
        (o.opcode = 0x1101 && o.work = [] && decide (48 ≤ cu o.cmd 0 1) && k = 61) ||
        (o.opcode = 0x0B04 && ((k = 50 && cbit o.cmd 0 0) || (k = 51 && cbit o.cmd 0 1)))
  held || long

/-- The line rate a lane wakes for: that of the command that wakes it; a twin lane's is 25.78125 Gbit/s. -/
def wakeRate (n : Nat) (s : State) : Nat :=
  if 48 ≤ n then 2 else match s.mbx.longOp with | some o => rateOf (cu o.cmd 1 1) | none => rateOf (s.mode n)

/-- A lane has woken at junction temperature `temp`: more than 15 °C from the reference of its line rate it is calibrated before its
transmitter starts, and its stamps wait for that (R642). -/
def laneWoken (n : Nat) (temp : Int) (s : State) : State :=
  let c := s.calRec n
  let rate := wakeRate n s
  if c.xaDelay ≠ 0 ∧ 240 < (temp - c.temps.getD rate 0).natAbs then
    startRun n [0, 1, 2] rate 2 (s.setLane n { s.lane n with calWait := true })
  else s

/-- An input's island has woken: its calibration runs (R377, R627), and stamps are INVALID until it is accepted. -/
def inputWoken (e : Nat) (s : State) : State :=
  startRun (64 + e) [0, 1] 0 2 ((s.setB (Reg.emStatusAwake e) true).setB (Reg.emStatusCalOk e) false)

/-- The command that waited for island `k` goes on (R35). -/
def islandServes (k : Nat) (s : State) : State :=
  match s.mbx.held with
  | none => s
  | some h =>
    let c := h.cmd
    if h.opcode = 0x0E01 then resumeHeld okReply (twOn c s)
    else
      let r := if h.opcode = 0x0601 then gnEnableDo c s else if h.opcode = 0x0701 then emInputConfigDo c s
        else if h.opcode = 0x0804 then sdsPrbsDo c s else swPortForwardDo c s
      if h.opcode = 0x0601 ∨ h.opcode = 0x0701 ∨ h.opcode = 0x0804 ∨ h.opcode = 0x0901 then
        resumeHeld r.2 (if h.opcode = 0x0701 then inputWoken (cu c 0 1) r.1 else r.1)
      else s

/-- PORT_ISLAND_WAKE_DONE: an island that a command waits for is awake (R35); `temp` is its lane's junction temperature in 1/16 °C. -/
def execPortIslandWakeDone (island : Nat) (temp : Int) (s : State) : Out :=
  if islandWanted island s = false ∨ s.awake island = true then .next s
  else
    let s := { s with islands := insertNat island s.islands }
    let s := if island < 48 then laneWoken island temp s
      else if island = 61 then [48, 49, 50, 51].foldl (fun s n => laneWoken n temp s) s
      else s
    .next (if island < 48 ∨ island = 50 ∨ island = 51 then s else islandServes island s)

end Sys2Proof.Machine
end

