-- ==== Sys2Proof/Machine/MemoryProtection.lean ====
section
/-! DEFINITION. Memory protection and scrubbing (R608 to R626): the scrubber and its summary, injection, release from quarantine,
write-back, tracker entries that expire and merge buffer entries that are written. -/

set_option Elab.async false

namespace Sys2Proof.Machine

/-- Words of a memory (R608). -/
def mpWords (m : Nat) : Nat :=
  [1048576, 262144, 131072, 524288, 2097664, 262144, 32768, 90112, 8640, 24576, 524288, 128, 1073741824].getD m 0

/-- DDR5 words that hold data: those of the enabled channels' cells. -/
def ddrWords (s : State) : Nat := popCount (s.getF Reg.bfSpillStatusChEn) 2 * Config.ddrCells.val * 4

/-- Words of a memory that the scrubber can read: a DDR5 channel that is not enabled is skipped (R620). -/
def scrubWords (m : Nat) (s : State) : Nat := if m = 12 then min (ddrWords s) (mpWords 12) else mpWords m

/-! ### MP_SCRUB -/

/-- MP_STATUS shows the scrubber. -/
def showScrub (on : Bool) (m : Nat) (s : State) : State := (s.setB Reg.mpStatusScrub on).setF Reg.mpStatusScrubMem m

/-- The scrubber reads words `a` to `b - 1` of memory `m` (R620): only a word with a stored error does more than count. The answer adds
corrections and uncorrectable words. -/
def scrubRead (m a b : Nat) (s : State) : (Nat × Nat) × State :=
  let x := s.memSum m
  let s := s.setMemSum m { x with read := x.read + (b - a) }
  (s.mp.errs.filter (fun e => mpMem e.1 = m && decide (a ≤ mpAddr e.1) && decide (mpAddr e.1 < b))).foldl (fun r e =>
    let k := mpRead e.1 true r.2
    ((r.1.1 + b2n (k.1 = 1), r.1.2 + b2n (k.1 = 2)), k.2)) ((0, 0), s)

/-- One past the last word of memory `m` that the command reads. -/
def scrubEnd (c : Cmd) (m : Nat) (s : State) : Nat := min (scrubWords m s) (cu c 8 8 + cu c 16 8)

/-- A memory is finished: COMPLETE where every word of it has been scrubbed, SKIPPED where DDR5 channels were (R620, R621). -/
def scrubFinished (c : Cmd) (m : Nat) (s : State) : State :=
  let all : Bool := cu c 8 8 = 0 && scrubEnd c m s = scrubWords m s
  let skip : Bool := m = 12 && s.getF Reg.bfSpillStatusChEn ≠ 3
  let x := s.memSum m
  s.setMemSum m { x with complete := all && !skip, skipped := skip }

/-- RESULT of MP_SCRUB: words, corrections, uncorrectable words and NEXT. -/
def scrubResult (o : LongOp) : Bytes :=
  resultOf [(32, leI 8 (o.v.getD 1 0)), (40, leI 4 (o.v.getD 2 0)), (44, leI 4 (o.v.getD 3 0)),
    (48, le 8 (o.v.getD 4 0 * 2 ^ 56 + o.v.getD 0 0).toNat)]

/-- One step of MP_SCRUB: the scrubber has read up to `amount` words since the last one (R620). `work` holds the memories left, `v` the
next word, words read, corrections, uncorrectable words, and the memory of the next word. -/
def scrubStep (amount : Nat) (o : LongOp) (s : State) : State × StepEnd :=
  let c := o.cmd
  if o.v = [] then
    let ms := members (cu c 0 2) 13
    let s := if cu c 4 4 = 0 then s else s.setF Reg.mpPeriodPeriodS (cu c 4 4)
    let s := { s with mp := { s.mp with began := s.dtt, sums := [], list := [], listOvf := false } }
    (showScrub true (ms.headD 0) s,
     .more { o with work := ms, v := [(cu c 8 8 : Int), 0, 0, 0, (ms.headD 0 : Int)], estimate := ms.length + 1 })
  else
    match o.work with
    | [] => (s, .done ⟨stOk, 0, scrubResult o, []⟩)
    | m :: rest =>
      let a := (o.v.getD 0 0).toNat
      let e := scrubEnd c m s
      let b := max a (min e (a + amount))
      let r := scrubRead m a b s
      let s := r.2
      let v : List Int := [(b : Int), o.v.getD 1 0 + (b - a : Nat), o.v.getD 2 0 + r.1.1, o.v.getD 3 0 + r.1.2, (m : Int)]
      if b < e then (s, .more { o with v := v })
      else
        let s := scrubFinished c m s
        match rest with
        | next :: _ => (showScrub true next s, .more { o with work := rest, v := [0, v.getD 1 0, v.getD 2 0, v.getD 3 0, (next : Int)] })
        | [] =>
          let s := raiseEv 128 0 0x1005 [(20, le 1 m), (24, leI 8 (v.getD 1 0))] (showScrub false 0 s)
          (s, .done ⟨stOk, 0, scrubResult { o with v := v }, []⟩)

/-- HST_CANCEL stops MP_SCRUB: RESULT holds NEXT, and the summary keeps what was found (R626). -/
def scrubCancel (o : LongOp) (s : State) : State × Bytes := (showScrub false 0 s, scrubResult o)

def mpScrubSpec : CmdSpec :=
  { opcode := 0x1001, stepped := true, lenOk := lenIs 24
    args := fun c _ =>
      let ms := members (cu c 0 2) 13
      let many : Bool := decide (1 < ms.length)
      let allOnes : Bool := cu c 16 8 = 2 ^ 64 - 1
      firstBad ([(0, decide (cu c 0 2 = 0) || decide (8192 ≤ cu c 0 2)), (4, decide (86400 < cu c 4 4)),
        (8, if many then cu c 8 8 ≠ 0 else decide (mpWords (ms.headD 0) ≤ cu c 8 8)),
        (16, cu c 16 8 = 0 || (many && !allOnes))] ++ reserved c 2 2)
    stops := fun _ s => firstStop [(s.isF Reg.mpStatusScrub, stBusy, 0)] }

/-- MP_SCRUB (R620). -/
def execMpScrub (c : Cmd) (s : State) : Out := runStepped mpScrubSpec (scrubStep 0) c s

/-! ### MP_SCRUB_SUMMARY -/

/-- One record of the summary (R621). -/
def sumRecord (m : Nat) (s : State) : Bytes :=
  let x := s.memSum m
  record 32 [(0, le 1 m), (1, le 1 (b2n x.complete + 2 * b2n x.skipped)), (4, le 4 x.read), (8, le 4 x.corr), (12, le 4 x.wb),
    (16, le 4 x.stuck), (20, le 4 x.ue), (24, le 4 x.acted)]

/-- One entry of its list. -/
def sumEntry (e : Nat × Nat) : Bytes := record 16 [(0, le 1 (mpMem e.1)), (1, le 1 e.2), (8, le 8 (mpAddr e.1))]

def mpScrubSummarySpec : CmdSpec :=
  { opcode := 0x1002, reports := true, lenOk := lenIs 0
    need := fun c _ => if c.bufSize = 0 then 0 else 416 }

/-- MP_SCRUB_SUMMARY (R621). -/
def mpScrubSummaryEffect (_ : Cmd) (s : State) : State × Reply :=
  let total (f : MemSum → Nat) : Nat := ((List.range 13).map (fun m => f (s.memSum m))).sum
  (s, okBuf [(32, le 4 (total (·.corr))), (36, le 4 (total (·.ue))), (40, le 4 (total (·.stuck))), (44, le 4 (total (·.wb))),
      (48, le 8 s.mp.began), (56, le 4 s.mp.list.length), (60, le 4 (b2n (s.isF Reg.mpStatusScrub) + 2 * b2n s.mp.listOvf))]
    (((List.range 13).map (fun m => sumRecord m s)).flatten ++ (s.mp.list.map sumEntry).flatten))

/-- MP_SCRUB_SUMMARY (R621, R626). -/
def execMpScrubSummary (c : Cmd) (s : State) : Out := runCmd mpScrubSummarySpec mpScrubSummaryEffect c s

/-! ### MP_INJECT -/

/-- Whether a MODE fits a memory's code (R608). -/
def modeFits (mode m : Nat) : Bool :=
  if mode = 0 then true else if mode ≤ 2 then decide (2 ≤ m ∧ m ≤ 11) else if mode = 3 then decide (m ≤ 1) else mode ≤ 5 && m = 12

/-- Values POS takes in a MODE. -/
def posLimit (mode : Nat) : Nat := if mode = 3 then 64 else if mode = 4 then 10 else if mode = 5 then 9 else 72

/-- The stored bits a MODE inverts; two bits from the last one on are the last two. -/
def injectMask (mode pos : Nat) : Nat :=
  if mode = 2 then (if pos = 71 then maskOf [70, 71] else maskOf [pos, pos + 1])
  else if mode = 5 then maskOf [pos, pos + 1] else 2 ^ pos

/-- Whether the owner lock is set with bit `n` of its policy (R681). -/
def policyBit (n : Nat) (s : State) : Bool := s.sec.owner.hash ≠ [] && bit s.sec.owner.policy n

def mpInjectSpec : CmdSpec :=
  { opcode := 0x1003, lenOk := lenIs 16
    args := fun c _ =>
      let m := cu c 0 1
      let mode := cu c 1 1
      firstBad ([(0, decide (12 < m)), (1, decide (5 < mode) || !modeFits mode m), (2, mode ≠ 0 && decide (posLimit mode ≤ cu c 2 1)),
        (3, decide (2 ≤ cu c 3 1) || (mode = 0 && cbit c 3 0)), (8, decide (mpWords m ≤ cu c 8 8))] ++ reserved c 4 4)
    stops := fun c s =>
      let w := mpWord (cu c 0 1) (cu c 8 8)
      firstStop [(s.isF Reg.gdLockLock || policyBit 1 s, stLocked, 0), (cbit c 3 0 && decide (4 ≤ s.mp.sticky.length), stTableFull, 0),
        (cu c 1 1 = 0 && decide (spGet 0 s.mp.sticky w = 0), stNotFound, 0),
        (cu c 0 1 = 12 && decide (ddrWords s ≤ cu c 8 8), stRefused, 0x1001)] }

/-- MP_STATUS.STICKY follows the sticky injections. -/
def showSticky (s : State) : State := s.setF Reg.mpStatusSticky s.mp.sticky.length

/-- Bits of `a` and `b` that differ, of `n`. -/
def xorMask (n a b : Nat) : Nat := maskOf ((List.range n).filter (fun i => bit a i ≠ bit b i))

/-- MP_INJECT (R623). -/
def mpInjectEffect (c : Cmd) (s : State) : State × Reply :=
  let w := mpWord (cu c 0 1) (cu c 8 8)
  if cu c 1 1 = 0 then (showSticky { s with mp := { s.mp with sticky := spSet 0 s.mp.sticky w 0 } }, okReply)
  else
    let x := injectMask (cu c 1 1) (cu c 2 1)
    let s := { s with mp := { s.mp with errs := spSet 0 s.mp.errs w (xorMask 72 (spGet 0 s.mp.errs w) x) } }
    let s := if cbit c 3 0 then { s with mp := { s.mp with sticky := spSet 0 s.mp.sticky w (maskOf (members x 72 ++ members (spGet 0 s.mp.sticky w) 72)) } } else s
    (showSticky s, okReply)

/-- MP_INJECT (R623, R626). -/
def execMpInject (c : Cmd) (s : State) : Out := runCmd mpInjectSpec mpInjectEffect c s

/-! ### MP_RELEASE_QUARANTINE -/

/-- Locations of a KIND. -/
def locCount (kind : Nat) : Nat := if kind = 0 then 262144 else if kind = 1 then 268435456 else if kind = 2 then 1048832 else 65536

/-- Protected words of a location. -/
def locWords (kind n : Nat) : List Nat :=
  let four (m : Nat) : List Nat := (List.range 4).map (fun j => mpWord m (4 * n + j))
  let two (m : Nat) : List Nat := (List.range 2).map (fun j => mpWord m (2 * n + j))
  if kind = 0 then four 0 ++ two 3 else if kind = 1 then four 12 else if kind = 2 then two 4 else four 1 ++ two 2

/-- Locations of a KIND that are quarantined or STUCK. -/
def locsOut (kind : Nat) (s : State) : List Nat :=
  let stuck (m per : Nat) : List Nat := (s.mp.stuck.filter (fun w => mpMem w = m)).map (fun w => mpAddr w / per)
  (if kind = 0 then s.mp.quarChip ++ stuck 3 2
   else if kind = 1 then s.mp.quarDdr ++ stuck 12 4
   else if kind = 2 then stuck 4 2
   else s.mp.quarHold ++ stuck 2 2).eraseDups

/-- Whether a location passes the four patterns (R624): no sticky injection stands on its words. -/
def locPasses (kind n : Nat) (s : State) : Bool := (locWords kind n).all (fun w => spGet 0 s.mp.sticky w = 0)

/-- Whether a DDR5 cell is marked STUCK: it is never released. -/
def ddrStuck (kind n : Nat) (s : State) : Bool := kind = 1 && s.mp.stuck.any (fun w => mpMem w = 12 && mpAddr w / 4 = n)

/-- One location is tested and, passing, returns to use (R624); the answer says whether it did. -/
def locRelease (kind n : Nat) (s : State) : Bool × State :=
  if ddrStuck kind n s then (false, s)
  else
    let ok := locPasses kind n s
    let s := (locWords kind n).foldl (fun s w => mpWrite w s) s
    if ok then
      let keep (l : List Nat) : List Nat := l.filter (· ≠ n)
      let m := { s.mp with stuck := s.mp.stuck.filter (fun w => !(locWords kind n).contains w) }
      let m := if kind = 0 then { m with quarChip := keep m.quarChip } else if kind = 1 then { m with quarDdr := keep m.quarDdr }
        else if kind = 3 then { m with quarHold := keep m.quarHold } else m
      (true, syncPool (showQuar { s with mp := m }))
    else (false, s)

def mpReleaseQuarantineSpec : CmdSpec :=
  { opcode := 0x1004, lenOk := lenIs 16
    args := fun c _ => firstBad ([(0, decide (3 < cu c 0 1)), (8, cu c 8 8 ≠ 2 ^ 64 - 1 && decide (locCount (cu c 0 1) ≤ cu c 8 8))] ++ reserved c 1 7)
    stops := fun c s =>
      if cu c 8 8 = 2 ^ 64 - 1 then none
      else firstStop [(!(locsOut (cu c 0 1) s).contains (cu c 8 8), stNotFound, 0), (ddrStuck (cu c 0 1) (cu c 8 8) s, stRefused, 0x1002)] }

/-- MP_RELEASE_QUARANTINE (R624). -/
def mpReleaseEffect (c : Cmd) (s : State) : State × Reply :=
  let kind := cu c 0 1
  let counts (a b : Nat) : List (Nat × Bytes) := [(32, le 4 a), (36, le 4 b)]
  if cu c 8 8 = 2 ^ 64 - 1 then
    let r := (locsOut kind s).foldl (fun r n =>
      let x := locRelease kind n r.2
      (if x.1 then (r.1.1 + 1, r.1.2) else (r.1.1, r.1.2 + 1), x.2)) ((0, 0), s)
    (r.2, okWith (counts r.1.1 r.1.2))
  else
    let x := locRelease kind (cu c 8 8) s
    (x.2, if x.1 then okWith (counts 1 0) else ⟨stRefused, 0x1003, resultOf (counts 0 1), []⟩)

/-- MP_RELEASE_QUARANTINE (R624, R626). -/
def execMpReleaseQuarantine (c : Cmd) (s : State) : Out := runCmd mpReleaseQuarantineSpec mpReleaseEffect c s

/-! ### Write-back, expiry, merge buffer -/

/-- CORR_WRITEBACK: the automatic write-back of a corrected word reaches its memory (R615, R616); where the word has been written since,
its entry has gone and the newer data stands. -/
def execCorrWriteback (mem addr : Nat) (s : State) : Out :=
  let w := mpWord mem addr
  if s.mp.tracker.any (fun e => e.word = w && e.stage = 1) then
    let s := { s with mp := { s.mp with errs := spSet 0 s.mp.errs w (spGet 0 s.mp.sticky w) } }
    let s := setTracker (s.mp.tracker.map (fun e => if e.word = w then { e with stage := 2 } else e)) s
    let x := s.memSum mem
    .next (mpEvent 0 0x1001 w false (s.setMemSum mem { x with wb := x.wb + 1 }))
  else .next s

/-- TRACKER_EXPIRY: P_S has passed since the first correction of a tracker entry (R615). -/
def execTrackerExpiry (mem addr : Nat) (s : State) : Out :=
  .next (setTracker (s.mp.tracker.filter (fun e =>
    !(e.word = mpWord mem addr && decide (e.first + s.getF Reg.mpPeriodPeriodS * 781250000 ≤ s.dtt)))) s)

/-- MERGE_BUFFER_FLUSH: an entry that has seen no write for 64 CCLK (32 ticks) is written to memory (R613). -/
def execMergeBufferFlush (mem addr : Nat) (s : State) : Out :=
  match s.mp.merge.find? (fun e => e.word = mpWord mem addr) with
  | some e => .next (if e.last + 32 ≤ s.dtt then mergeFlush e s else s)
  | none => .next s

end Sys2Proof.Machine
end

