-- ==== Sys2Proof/Machine/Firmware.lean ====
section
/-! DEFINITION. Firmware instars and moults: the flash and its directory (R645 to R647), Kelain containers and their check (R648 to
R651), the commands of group 0x12, live handover (R655 to R658), trial, confirmation and fallback (R661 to R663), and the change of
the evidence module's instar (R664). -/

set_option Elab.async false

namespace Sys2Proof.Machine

/-! ### Flash and directory -/

/-- Flash offset of a slot (R645). -/
def slotBase (n : Nat) : Nat := [0x100000, 0x1100000, 0x2100000, 0x2300000, 0x2500000].getD n 0

/-- Bytes of a slot (R645). -/
def slotSize (n : Nat) : Nat := if n < 2 then 0x1000000 else if n < 4 then 0x200000 else 0x800000

/-- `n` bytes of flash from offset `a`: erased bytes read 0xFF. -/
def flashRead (a n : Nat) (s : State) : Bytes := (List.range n).map (fun k => BitVec.ofNat 8 (spGet 0xFF s.fw.flash (a + k)))

/-- Flash with `bs` written from offset `a` on. -/
def flashWrite (a : Nat) (bs : Bytes) (s : State) : State :=
  { s with fw := { s.fw with flash := ((List.range bs.length).foldl (fun f k => spSet 0xFF f (a + k) (bs.getD k 0).toNat) s.fw.flash) } }

/-- Bytes of an erase sector. -/
def sectorSize : Nat := 256 * 2 ^ Config.sectorLog.val

/-- The sectors that bytes `a` to `b - 1` touch are erased, as far as they lie in the slot from `lo` to `hi - 1` (R652). -/
def flashErase (lo hi a b : Nat) (s : State) : State :=
  let x := max lo (a / sectorSize * sectorSize)
  let y := min hi ((b + sectorSize - 1) / sectorSize * sectorSize)
  { s with fw := { s.fw with flash := s.fw.flash.filter (fun e => decide (e.1 < x) || decide (y ≤ e.1)) } }

/-- Slot `n` of the directory. -/
def State.slot (s : State) (n : Nat) : FwSlot := s.fw.slots.getD n FwSlot.reset

/-- FW_SLOT_VER and FW_SLOT_ST of slot `n`. -/
def showSlot (n : Nat) (s : State) : State :=
  let x := s.slot n
  (((s.setF (Reg.fwSlotVer n) x.version).setF (Reg.fwSlotStState n) x.state).setF (Reg.fwSlotStFails n) x.fails).setF
    (Reg.fwSlotStKind n) x.kind

/-- The directory is written with slot `n` replaced; its sequence number rises (R646). -/
def putSlot (n : Nat) (x : FwSlot) (s : State) : State :=
  showSlot n { s with fw := { s.fw with slots := s.fw.slots.set n x, dirSeq := s.fw.dirSeq + 1 } }

/-- A slot takes a state. -/
def slotState (n st : Nat) (s : State) : State := putSlot n { s.slot n with state := st } s

/-- The slot of the next start is recorded. -/
def setNext (n : Nat) (s : State) : State := { (s.setF Reg.fwStateNext n) with fw := { s.fw with next := n, dirSeq := s.fw.dirSeq + 1 } }

/-- The slot that runs. -/
def runSlot (s : State) : Nat := s.getF Reg.fwStateRun

/-! ### Kelain containers -/

/-- The little-endian header field of `n` bytes at offset `o` (R648). -/
def hdr (h : Bytes) (o n : Nat) : Nat := ofLe (slice h o n)

/-- The body of the container in slot `n`, as long as its header says. -/
def slotBody (n : Nat) (s : State) : Bytes := flashRead (slotBase n + 512) (hdr (flashRead (slotBase n) 512 s) 20 4) s

/-- Entries of an instar body's section directory (R649), up to the one of ID 0. -/
def sections (body : Bytes) : Nat → Nat → List (Nat × Nat × Nat × Nat)
  | 0, _ => []
  | n + 1, o =>
    let e := slice body o 16
    if hdr e 0 1 = 0 ∨ body.length < o + 16 then []
    else (hdr e 0 1, hdr e 4 4, hdr e 8 4, hdr e 12 4) :: sections body n (o + 16)

/-- Sections a Leinnar instar carries (R649). -/
def sectionIds : List Nat := [0x01, 0x02, 0x10, 0x11, 0x12, 0x13]

/-- Whether the sections `ids` of a body are within it with their CRC. -/
def sectionsOk (ids : List Nat) (body : Bytes) : Bool :=
  let l := sections body 64 0
  ids.all (fun i => match l.find? (fun e => e.1 = i) with
    | some e => decide (e.2.1 + e.2.2.1 ≤ body.length) && crc32c (slice body e.2.1 e.2.2.1) = e.2.2.2
    | none => false)

/-- Test 5 of R651: exactly the sections of R649, and those of the cores within one bank. -/
def instarOk (body : Bytes) : Bool :=
  let l := sections body 64 0
  let size (i : Nat) : Nat := ((l.find? (fun e => e.1 = i)).map (·.2.2.1)).getD 0
  l.length = sectionIds.length && sectionsOk sectionIds body && decide (size 1 + size 2 ≤ 2097152)

/-- Tests 1 to 6 of R651 on a container for slot `n`; 0 where all hold. -/
def kelainFault (n : Nat) (h body : Bytes) (s : State) : Nat :=
  let kind := hdr h 4 1
  let key := hdr h 128 4
  if slice h 0 4 ≠ [0x4B, 0x4C, 0x4E, 0x31] ∨ hdr h 5 1 ≠ 1 ∨ slice h 6 2 ≠ List.replicate 2 0 ∨ slice h 229 187 ≠ List.replicate 187 0 then 1
  else if kind ≠ (if n < 2 then 1 else if n < 4 then 3 else 2) then 2
  else if 4 ≤ key ∨ Config.keyRevoked key = true ∨ sha384 (slice h 132 97) ≠ Config.keyHash key ∨
      Config.p384Verifies (slice h 132 97) (sha384 (h.take 416)) (slice h 416 96) = false then 3
  else if slotSize n < 512 + hdr h 20 4 ∨ body.length ≠ hdr h 20 4 ∨ sha384 body ≠ slice h 24 48 then 4
  else if kind = 1 ∧ instarOk body = false then 5
  else if hdr h 16 4 < s.sec.svn then 6
  else 0

/-- Operation records of a moult applied to a base body (R650): none where they do not end properly or leave the base. -/
def moultOps (base : Bytes) : Nat → Bytes → Bytes → Option Bytes
  | 0, _, _ => none
  | n + 1, l, acc =>
    match l with
    | [] => none
    | op :: r =>
      if op = 0 then some acc
      else if op = 1 then
        let o := ofLe (slice r 0 4)
        let k := ofLe (slice r 4 4)
        if r.length < 8 ∨ base.length < o + k then none else moultOps base n (r.drop 8) (acc ++ slice base o k)
      else if op = 2 then
        let k := ofLe (slice r 0 4)
        if r.length < 4 + k then none else moultOps base n (r.drop (4 + k)) (acc ++ slice r 4 k)
      else none

/-- The header and body that the moult in slot 4 makes of the running instar (R650). -/
def moultResult (s : State) : Option (Bytes × Bytes) :=
  let body := slotBody 4 s
  (moultOps (slotBody (runSlot s) s) body.length (body.drop 512) []).map (fun b => (body.take 512, b))

/-- Whether a moult's BASE_HASH and BASE_VERSION match the running instar (R651 test 7). -/
def moultFits (s : State) : Bool :=
  let h := flashRead (slotBase 4) 512 s
  let r := flashRead (slotBase (runSlot s)) 512 s
  slice h 72 48 = slice r 24 48 && hdr h 12 4 = hdr r 8 4

/-- The check of R651 on slot `n` as it stands; 0 where it passes. -/
def slotFault (n : Nat) (s : State) : Nat :=
  let h := flashRead (slotBase n) 512 s
  let f := kelainFault n h (slotBody n s) s
  if f ≠ 0 then f
  else if n ≠ 4 then 0
  else
    let ok := moultFits s && (match moultResult s with
      | some (rh, rb) => kelainFault 0 rh rb s = 0
      | none => false)
    if ok then 0 else 7

/-- A slot has been checked: VALID with its version and KIND, or FAILED with FW_SLOT_BAD (R652, R666). -/
def slotChecked (n f : Nat) (s : State) : State :=
  let h := flashRead (slotBase n) 512 s
  if f = 0 then putSlot n ⟨2, hdr h 8 4, 0, hdr h 4 1⟩ s
  else
    let s := slotState n 5 { s with fw := { s.fw with lastFail := f } }
    raiseEv 130 1 0x1203 [(20, le 1 n), (21, le 1 f)] s

/-! ### Phases -/

/-- PHASE changes, with FW_STATE_CHG (R666); `held` is the held steer in µs. -/
def setPhase (p cause held : Nat) (s : State) : State :=
  let old := s.getF Reg.fwStatePhase
  if old = p then s
  else
    let s := { (s.setF Reg.fwStatePhase p) with fw := { s.fw with since := s.dtt } }
    raiseEv 130 0 0x1201 [(20, le 1 old), (21, le 1 p), (22, le 1 cause), (24, le 4 (s.slot (runSlot s)).version), (28, le 4 held)] s

/-- A trial begins (R662): health bits at 1, HEALTH_S to run. -/
def beginTrial (s : State) : State :=
  let s := (((s.setB Reg.fwHealthMemOk true).setB Reg.fwHealthSeqOk true).setB Reg.fwHealthCore1Ok true).setB Reg.fwHealthCore0Ok true
  { (s.setF Reg.fwHealthTrialRem s.fw.healthS) with fw := { s.fw with trialAt := s.dtt } }

/-- No trial runs any more. -/
def endTrial (s : State) : State := { (s.setF Reg.fwHealthTrialRem 0) with fw := { s.fw with resident := false } }

/-- FW_HEALTH.TRIAL_REM follows the time (in whole seconds still to go). -/
def showTrial (s : State) : State :=
  if s.getF Reg.fwStatePhase = 4 then
    s.setF Reg.fwHealthTrialRem (s.fw.healthS - (s.dtt - s.fw.trialAt) / 781250000)
  else s

/-- The instar on trial is confirmed (R662): its slot ACTIVE, the previous one VALID, the old bank released. -/
def confirmTrial (s : State) : State :=
  let s := setNext s.fw.target (slotState s.fw.target 3 s)
  let s := if s.fw.prev ≠ s.fw.target ∧ (s.slot s.fw.prev).state = 3 then slotState s.fw.prev 2 s else s
  setPhase 0 3 0 (endTrial s)

/-- FW_FALLBACK (R663, R666): the slot that failed becomes FAILED, and the start after is from `running`. -/
def fallbackEvent (failed running row : Nat) (s : State) : State :=
  let s := setNext running (slotState failed 5 s)
  let s := { s with fw := { s.fw with lastFail := 0x100 + row } }
  raiseEv 130 2 0x1202 [(20, le 1 failed), (21, le 1 running), (22, le 1 row), (24, le 4 (s.slot failed).version)] s

/-- Leinnar stops, to start from flash (R660): nothing steers the outer loop from now on. -/
def leinnarStop (s : State) : State :=
  let s := s.setB Reg.hstStatusFwRun false
  { s with fw := { s.fw with restartDue := false, starting := true }, mp := { s.mp with restart := false },
           dpll := { s.dpll with holdStart := (match s.dpll.holdStart with | none => some s.dtt | h => h) } }

/-- A trial ends in fallback for a condition of R663: with the old bank resident and the firmware still running by a live handover back,
otherwise by a restart from the previous slot. -/
def trialFails (row : Nat) (s : State) : State :=
  let back : Bool := s.fw.resident && decide (row ≤ 2)
  let s := fallbackEvent s.fw.target s.fw.prev (if row = 1 && !s.fw.resident then 2 else row) s
  let s := setPhase 5 5 0 s
  if back then { s with fw := { s.fw with back := true } }
  else leinnarStop (setPhase 0 5 0 (endTrial s))

/-! ### Handover events -/

/-- FW_LOAD_DONE: the sections of both cores stand in the idle bank and their CRCs are good (R655 step 1); otherwise the handover fails
as R657 lays down, for a cause that no row of R663 numbers. -/
def execFwLoadDone (s : State) : Out :=
  if s.getF Reg.fwStatePhase ≠ 1 then .next s
  else if sectionsOk [1, 2] (slotBody s.fw.target s) then .next (setPhase 2 2 0 s)
  else
    let s := fallbackEvent s.fw.target (runSlot s) (s.draw.1 % 256) s.draw.2
    .next (setPhase 0 5 0 s)

/-- Whether a loaded handover waits (R656): a switch transaction, a served-domain switch, or a twin commit in progress. -/
def handoverWaits (s : State) : Bool :=
  (s.rd 0).txn.isSome || (s.rd 1).txn.isSome || s.isF Reg.tbStateSwitching || holds 0x0E01 s

/-- Whether core 0 is at a decision point (R104): no command in service. -/
def decisionPoint (s : State) : Bool := s.mbx.held.isNone

/-- FW_FREEZE: at a decision point core 1 stops and the outer loop holds its steer (R655 step 3), for a handover that no longer waits or
for one that falls back. -/
def execFwFreeze (s : State) : Out :=
  let p := s.getF Reg.fwStatePhase
  if decisionPoint s = true ∧ ((p = 2 ∧ handoverWaits s = false) ∨ (p = 5 ∧ s.fw.back = true)) then
    let s := setPhase 3 2 0 { s with dpll := { s.dpll with holdStart := some s.dtt }, fw := { s.fw with lastFreeze := s.dtt } }
    .next (evdSend 0x13 1 98 s.dtt [] s)
  else .next s

/-- The steer is free again (R39): the end of the hold is recorded, and its length kept, in µs; a domain that a long hold took to HOLDOVER returns as its
references stand (R40). -/
def steerResumes (s : State) : State :=
  match s.dpll.holdStart with
  | none => s
  | some t =>
    let us := (s.dtt - t) * 100 / 78125
    let s := evdSend 0x13 0 98 s.dtt [] s
    evaluateAll { s with dpll := { s.dpll with holdStart := none }, fw := { s.fw with lastHold := us } }

/-- Commands in service across the change complete with RESUMED, and so do those that waited through the pause; calibration parts begin again
(R119, R641, R655). -/
def serviceResumes (s : State) : State :=
  calReload { s with mbx := { s.mbx with resumedUpTo := s.mbx.doorbells, smbResumed := s.bus.smbBusy,
                                         held := s.mbx.held.map (fun h => { h with resumed := true }),
                                         longOp := s.mbx.longOp.map (fun o => { o with resumed := true }),
                                         ackWait := s.mbx.ackWait.map (fun w => { w with entry := { w.entry with cflags := maskOf (3 :: members w.entry.cflags 8) } }) } }

/-- FW_FREEZE_TIMEOUT and a sequencer section that fails: hardware returns both cores to the bank they left (R657). -/
def freezeFails (s : State) : State :=
  let s := serviceResumes (steerResumes s)
  if s.fw.back then leinnarStop (setPhase 0 5 s.fw.lastHold (endTrial { s with fw := { s.fw with back := false } }))
  else
    let s := fallbackEvent s.fw.target (runSlot s) (s.draw.1 % 256) s.draw.2
    setPhase 0 5 s.fw.lastHold s

/-- FW_HANDOVER_DONE: the cores run in the other bank, its sequencers are loaded, the servos resume (R655 steps 4 to 6). -/
def execFwHandoverDone (s : State) : Out :=
  if s.getF Reg.fwStatePhase ≠ 3 ∨ s.fw.since + 15625000 < s.dtt then .next s
  else
    let dest := if s.fw.back then s.fw.prev else s.fw.target
    if sectionsOk [0x10, 0x11, 0x12, 0x13] (slotBody dest s) = false then .next (freezeFails s)
    else
      let s := serviceResumes (steerResumes s)
      let s := s.setF Reg.fwStateRun dest
      if s.fw.back then .next (setPhase 0 5 s.fw.lastHold (endTrial { s with fw := { s.fw with back := false } }))
      else
        let s := (slotState dest 4 s).addSat Reg.fwStateHandovers 1
        .next (beginTrial (setPhase 4 2 s.fw.lastHold { s with fw := { s.fw with resident := true } }))

/-- FW_WAIT_TIMEOUT: a handover that has waited 10 s is abandoned, its slot still VALID (R656). -/
def execFwWaitTimeout (s : State) : Out :=
  if s.getF Reg.fwStatePhase = 2 ∧ s.fw.since + 7812500000 ≤ s.dtt then .next (setPhase 0 4 0 s) else .next s

/-- FW_FREEZE_TIMEOUT: 20 ms of FREEZE have passed (R657). -/
def execFwFreezeTimeout (s : State) : Out :=
  if s.getF Reg.fwStatePhase = 3 ∧ s.fw.since + 15625000 ≤ s.dtt then .next (freezeFails s) else .next s

/-- HELD_STEER_EXPIRY: the steer has been held for more than 20 ms (R40): the served domain enters HOLDOVER. -/
def execHeldSteerExpiry (s : State) : Out :=
  match s.dpll.holdStart with
  | none => .next s
  | some t =>
    if s.dtt ≤ t + 15625000 ∨ s.qcState s.served = 4 ∨ s.qcState s.served = 5 ∨ s.qcState s.served = 7 ∨ s.qcState s.served = 0 then .next s
    else .next (enterHoldover s.served 5 s)

/-- Whether every health bit is 1. -/
def healthy (s : State) : Bool :=
  s.isF Reg.fwHealthMemOk && s.isF Reg.fwHealthSeqOk && s.isF Reg.fwHealthCore1Ok && s.isF Reg.fwHealthCore0Ok

/-- FW_TRIAL_EXPIRY: HEALTH_S has passed (R662, R663): with AUTO_CONFIRM and good health the instar is confirmed; without AUTO_CONFIRM it
falls back. -/
def execFwTrialExpiry (s : State) : Out :=
  if s.getF Reg.fwStatePhase ≠ 4 ∨ s.dtt < s.fw.trialAt + s.fw.healthS * 781250000 then .next s
  else if s.fw.auto = false then .next (trialFails 1 s)
  else .next (if healthy s then confirmTrial s else s)

/-- FW_HEALTH_FAIL: health bit `n` of the trial has been 0 for 1 s (R663). -/
def execFwHealthFail (n : Nat) (s : State) : Out :=
  if s.getF Reg.fwStatePhase ≠ 4 ∨ 4 ≤ n then .next s
  else .next (trialFails 1 (s.setB ⟨0xE00040, n, 1⟩ false))

/-- A start of Leinnar fails before FW_RUN (R663): the third in a row makes its slot FAILED, and the other slot is tried. -/
def startFails (s : State) : State :=
  let n := s.fw.next
  let x := s.slot n
  let s := putSlot n { x with fails := x.fails + 1 } s
  if x.fails + 1 < 3 then s
  else
    let other := 1 - n
    if (s.slot other).state = 2 ∨ (s.slot other).state = 3 then fallbackEvent n other 4 s
    else slotState n 5 { s with fw := { s.fw with lastFail := 0x104 } }

/-- WATCHDOG_EXPIRY: a core's watchdog or the servo updates lapse (R661): a trial falls back, a confirmed instar restarts, a start that
has not reached FW_RUN counts as failed. -/
def execWatchdogExpiry (s : State) : Out :=
  if s.isF Reg.hstStatusFwRun = false then .next (if s.fw.starting then startFails s else s)
  else if s.getF Reg.fwStatePhase = 4 then .next (trialFails 3 s)
  else .next (leinnarStop s)

/-! ### Commands -/

/-- The slots FW_WRITE_SLOT and FW_APPLY_MOULT must leave alone (R652): that of a running instar, and the one a trial would fall back to. -/
def slotProtected (n : Nat) (s : State) : Bool :=
  n = runSlot s || (decide (2 ≤ n) && n = s.getF Reg.fwStateEvdSlot) || (s.getF Reg.fwStatePhase = 4 && n = s.fw.prev)

/-- Whether the owner lock forbids a change of firmware (R681). -/
def fwFrozen (s : State) : Bool := policyBit 0 s

def fwWriteSlotSpec : CmdSpec :=
  { opcode := 0x1201, stepped := true, lenOk := lenIs 24
    args := fun c _ =>
      let z := slotSize (cu c 0 1)
      firstBad ([(0, decide (4 < cu c 0 1)), (1, decide (2 ≤ cu c 1 1)), (4, decide (cu c 4 4 % 256 ≠ 0 ∨ z ≤ cu c 4 4)),
        (8, decide (z < cu c 4 4 + cu c 8 4)), (16, decide (cu c 16 8 % 8 ≠ 0))] ++ reserved c 2 2 ++ reserved c 12 4)
    stops := fun c s => firstStop [(slotProtected (cu c 0 1) s, stRefused, 0x1201), (fwFrozen s, stLocked, 0)] }

/-- RESULT of FW_WRITE_SLOT. -/
def writeResult (n done f : Nat) (s : State) : Bytes :=
  resultOf [(32, le 4 done), (36, le 1 (s.slot n).state), (37, le 1 f), (40, le 4 (s.slot n).version)]

/-- FW_WRITE_SLOT has written its bytes: with FINAL the slot is checked (R652). -/
def writeEnds (o : LongOp) (s : State) : State × StepEnd :=
  let n := cu o.cmd 0 1
  if cbit o.cmd 1 0 then
    let f := slotFault n s
    let s := slotChecked n f s
    (s, .done ⟨if f = 0 then stOk else stIntegrity, f, writeResult n (cu o.cmd 8 4) f s, []⟩)
  else (s, .done ⟨stOk, 0, writeResult n (cu o.cmd 8 4) 0 s, []⟩)

/-- One step of FW_WRITE_SLOT: the first marks the slot and erases its sectors, the others write a page of 256 bytes each, read from
host memory at SRC (R652, R653). `v` holds the bytes done. -/
def writeStep (o : LongOp) (s : State) : State × StepEnd :=
  let c := o.cmd
  let n := cu c 0 1
  let len := cu c 8 4
  let a := slotBase n + cu c 4 4
  if o.v = [] then
    if len = 0 then writeEnds o s
    else
      let s := flashErase (slotBase n) (slotBase n + slotSize n) a (a + len) (slotState n 1 s)
      (s, .more { o with v := [0], estimate := (len + 255) / 256 + 1 })
  else
    let d := (o.v.headD 0).toNat
    let k := min 256 (len - d)
    if c.aux.length < d + k then (s, .done (failWith stInternal 1))
    else
      let s := flashWrite (a + d) (slice c.aux d k) s
      if d + k < len then (s, .more { o with v := [((d + k : Nat) : Int)] }) else writeEnds o s

/-- FW_WRITE_SLOT (R652). -/
def execFwWriteSlot (c : Cmd) (s : State) : Out := runStepped fwWriteSlotSpec writeStep c s

/-- The resume state of a cancelled FW_WRITE_SLOT or FW_APPLY_MOULT: the bytes done (R653). -/
def writeCancel (o : LongOp) (s : State) : State × Bytes := (s, resultOf [(32, leI 4 (o.v.headD 0))])

def fwApplyMoultSpec : CmdSpec :=
  { opcode := 0x1202, stepped := true, lenOk := lenIs 4
    args := fun c _ => firstBad ((0, decide (1 < cu c 0 1)) :: reserved c 1 3)
    stops := fun c s => firstStop [(slotProtected (cu c 0 1) s, stRefused, 0x1201), ((s.slot 4).state ≠ 2, stRefused, 0x1202),
      (fwFrozen s, stLocked, 0)] }

/-- One step of FW_APPLY_MOULT: a page of the resulting container goes into TARGET; the last one checks it (R653). -/
def moultStep (o : LongOp) (s : State) : State × StepEnd :=
  let n := cu o.cmd 0 1
  match (if moultFits s then moultResult s else none) with
  | none => (s, .done (failWith stIntegrity 7))
  | some (h, b) =>
    let all := h ++ b
    let len := min all.length (slotSize n)
    if o.v = [] then
      let s := flashErase (slotBase n) (slotBase n + slotSize n) (slotBase n) (slotBase n + len) (slotState n 1 s)
      (s, .more { o with v := [0], estimate := (len + 255) / 256 + 1 })
    else
      let d := (o.v.headD 0).toNat
      let k := min 256 (len - d)
      let s := flashWrite (slotBase n + d) (slice all d k) s
      if d + k < len then (s, .more { o with v := [((d + k : Nat) : Int)] })
      else
        let f := kelainFault n h b s
        let s := slotChecked n f s
        (s, .done ⟨if f = 0 then stOk else stIntegrity, f, resultOf [(32, le 4 len), (36, le 4 (hdr h 8 4))], []⟩)

/-- FW_APPLY_MOULT (R653). -/
def execFwApplyMoult (c : Cmd) (s : State) : Out := runStepped fwApplyMoultSpec moultStep c s

/-- Whether the state formats allow a live handover to slot `n` (R658). -/
def formatsFit (n : Nat) (s : State) : Bool :=
  let h := flashRead (slotBase n) 512 s
  let v := hdr (flashRead (slotBase (runSlot s)) 512 s) 120 4
  decide (hdr h 124 4 ≤ v) && decide (v ≤ hdr h 120 4)

def fwActivateSpec : CmdSpec :=
  { opcode := 0x1203, lenOk := lenIs 8
    args := fun c _ => firstBad ([(0, decide (1 < cu c 0 1)), (1, decide (1 < cu c 1 1)), (2, decide (2 ≤ cu c 2 1)),
      (4, decide (cu c 4 2 < 10 ∨ 3600 < cu c 4 2))] ++ reserved c 3 1 ++ reserved c 6 2)
    stops := fun c s =>
      let n := cu c 0 1
      if n = runSlot s then none
      else firstStop [((s.slot n).state ≠ 2 || (s.slot n).kind ≠ 1, stRefused, 0x1202), (s.getF Reg.fwStatePhase ≠ 0, stRefused, 0x1203),
        (cu c 1 1 = 0 && !formatsFit n s, stRefused, 0x1204), (cu c 1 1 = 0 && !s.isF Reg.hstStatusReady, stRefused, 0x1205),
        (fwFrozen s, stLocked, 0)] }

/-- FW_ACTIVATE (R654): the slot of the next start, or a live handover that begins with LOADING. -/
def fwActivateEffect (c : Cmd) (s : State) : State × Reply :=
  let n := cu c 0 1
  if n = runSlot s then (s, okReply)
  else
    let s := { s with fw := { s.fw with auto := cbit c 2 0, healthS := cu c 4 2, target := n, prev := runSlot s, back := false } }
    if cu c 1 1 = 1 then (setNext n s, deferred) else (setPhase 1 1 0 s, deferred)

/-- FW_ACTIVATE (R654, R665). -/
def execFwActivate (c : Cmd) (s : State) : Out := runCmd fwActivateSpec fwActivateEffect c s

def fwConfirmSpec : CmdSpec :=
  { opcode := 0x1204, lenOk := lenIs 0
    stops := fun _ s => firstStop [(s.getF Reg.fwStatePhase ≠ 4, stRefused, 0x1206)] }

/-- The effect of FW_CONFIRM (R662). -/
def fwConfirmEffect (_ : Cmd) (s : State) : State × Reply := (confirmTrial s, okReply)

/-- FW_CONFIRM. -/
def execFwConfirm (c : Cmd) (s : State) : Out := runCmd fwConfirmSpec fwConfirmEffect c s

def fwStatusSpec : CmdSpec := { opcode := 0x1205, urgent := true, reports := true, lenOk := lenIs 0 }

/-- FW_STATUS. -/
def fwStatusEffect (_ : Cmd) (s : State) : State × Reply :=
  (s, okWith [(32, le 4 (s.regWord 0xE00000)), (36, le 4 (s.slot (runSlot s)).version), (40, le 4 (s.slot (s.getF Reg.fwStateEvdSlot)).version),
    (44, le 4 (s.regWord 0xE00040)), (48, le 8 s.fw.lastFreeze), (56, le 4 s.fw.lastHold), (60, le 4 s.fw.lastFail)])

/-- FW_STATUS (R667). -/
def execFwStatus (c : Cmd) (s : State) : Out := runCmd fwStatusSpec fwStatusEffect c s

def fwUpdateEvdSpec : CmdSpec :=
  { opcode := 0x1206, stepped := true, lenOk := lenIs 4
    args := fun c _ => firstBad ((0, decide (cu c 0 1 < 2 ∨ 3 < cu c 0 1)) :: reserved c 1 3)
    stops := fun c s => firstStop [((s.slot (cu c 0 1)).state ≠ 2 || (s.slot (cu c 0 1)).kind ≠ 3, stRefused, 0x1202),
      (s.isF Reg.gdSecStatusZeroised, stRefused, 0x1207), (fwFrozen s, stLocked, 0)] }

/-- The CONFIG record with which the block after a change of instar begins: it goes before the records that wait (R664). -/
def evdRestart (s : State) : State :=
  let w := s.evd.waiting
  let s := admitRecord (evdSend 0x15 0 116 s.dtt [(16, le 4 (s.getF Reg.evdStatusPeriodUs))] { s with evd := { s.evd with waiting := [] } })
  { s with evd := { s.evd with waiting := w } }

/-- One step of FW_UPDATE_EVD (R664): the module checks the image, closes its block SHORT and begins the next; then it changes instar.
With no block to close, BLOCK reads all ones. `v` holds the block. -/
def evdUpdateStep (o : LongOp) (s : State) : State × StepEnd :=
  let n := cu o.cmd 0 1
  if o.v = [] then
    let f := slotFault n s
    if f ≠ 0 then (slotChecked n f s, .done (failWith stIntegrity f))
    else if s.evd.isOpen && !s.isF Reg.gdSecStatusEvdError then
      let r := closeBlock false true (List.replicate 32 0) s
      (evdRestart r.2, .more { o with v := [(r.1 : Int)], estimate := 2 })
    else (s, .more { o with v := [2 ^ 64 - 1], estimate := 2 })
  else
    let old := s.getF Reg.fwStateEvdSlot
    let s := if (s.slot old).state = 3 then slotState old 2 s else s
    let s := (slotState n 3 s).setF Reg.fwStateEvdSlot n
    let lost := s.evd.dropped
    let v := (s.slot n).version
    let s := raiseEv 130 0 0x1204 [(20, le 1 n), (24, le 4 v), (28, le 4 lost)] s
    (s, .done (okWith [(32, leI 8 (o.v.headD 0)), (40, le 4 v), (44, le 4 lost)]))

/-- FW_UPDATE_EVD (R664). -/
def execFwUpdateEvd (c : Cmd) (s : State) : Out := runStepped fwUpdateEvdSpec evdUpdateStep c s

end Sys2Proof.Machine
end

