-- ==== Sys2Proof/Machine/Security.lean ====
section
/-! DEFINITION. Security: the owner lock (R680 to R682), tamper inputs and zeroisation (R683 to R685), the evidence module's self-tests
(R687, R688), identity and random numbers (R672, R673), and the always-on domain's time, anchor and losses (R705, R706, R720). -/

set_option Elab.async false

namespace Sys2Proof.Machine

/-! ### What registers show -/

/-- GD_SEC_STATUS and GD_SVN_FLOOR show the owner lock, whether this start has restored it, and the floor. -/
def showSec (s : State) : State :=
  let s := ((s.setB Reg.gdSecStatusAoLost s.boot.aoLost).setF Reg.gdSecStatusTamperCfg s.sec.owner.tamper).setF Reg.gdSecStatusPolicy s.sec.owner.policy
  ((s.setB Reg.gdSecStatusOwnerLocked (s.sec.owner.hash ≠ [])).setB Reg.gdSecStatusZeroised s.sec.zeroised).setF Reg.gdSvnFloor s.sec.svn

/-- The AO registers show the always-on domain. -/
def showAo (s : State) : State :=
  let a := s.ao
  let s := (((s.setF Reg.aoTamperCount1 a.count1).setF Reg.aoTamperCount0 a.count0).setB Reg.aoTamperFlag1 (bit a.flags 1)).setB
    Reg.aoTamperFlag0 (bit a.flags 0)
  let s := s.set64 Reg.aoTamperTime (if a.flags = 0 then 0 else a.tamperTime)
  let s := ((s.setF Reg.aoStatusCause s.boot.cause).setB Reg.aoStatusAoLost s.boot.aoLost).setB Reg.aoStatusAnchorValid a.anchorValid
  let s := (s.setB Reg.aoStatusXtalOk a.xtalOk).set64 Reg.aoTime a.tick
  ((s.set64 Reg.aoAnchorTick a.anchor.tick).set96 0xC00028 a.anchor.ft).setF Reg.aoAnchorSeq a.anchor.seq

/-- The owner lock takes new contents, in both stores (R680). -/
def setOwner (o : OwnerLock) (s : State) : State := showSec { s with sec := { s.sec with owner := o, ownerNv := o } }

/-! ### The evidence module -/

/-- `n` random bytes (R673): one DRBG request. -/
def drbg : Nat → State → Bytes × State
  | 0, s => ([], s)
  | n + 1, s =>
    let r := drbg n s.draw.2
    (BitVec.ofNat 8 s.draw.1 :: r.1, r.2)

/-- A DRBG request is counted. -/
def drbgRequest (n : Nat) (s : State) : Bytes × State :=
  drbg n { s with sec := { s.sec with drbgReqs := s.sec.drbgReqs + 1 } }

/-- DRBG_RESEED: 2²⁰ requests or 24 h after the last seed (R673). -/
def execDrbgReseed (s : State) : Out :=
  if s.sec.drbgReqs < 2 ^ 20 ∧ s.dtt < s.sec.drbgAt + 67500000000000 then .next s
  else .next { s with sec := { s.sec with drbgReqs := 0, drbgAt := s.dtt } }

/-- The chain begins a new epoch (R564, R565): EPOCH increments, or is taken from the reserve where the always-on contents were lost, and
a BOOT block opens whose record 0 is the BOOT record. -/
def openEpoch (s : State) : State :=
  let lost := s.boot.aoLost && !s.evd.isOpen && s.get64 Reg.evdEpoch = 0
  let epoch := if lost then s.evd.reserve else s.evd.epoch + 1
  let reserve := if lost || decide (s.evd.reserve ≤ epoch) then epoch + 2 ^ 20 else s.evd.reserve
  let s := { s with evd := { s.evd with epoch := epoch, reserve := reserve, nextPeriod := none, signing := [], store := [] } }
  let s := (s.set64 Reg.evdEpoch epoch).set64 Reg.evdBlock 0
  let s := openBlock (List.replicate 32 0) s
  let b : EvdRec := ⟨0x30, b2n s.boot.aoLost, 131, s.dtt, record 48 [(0, le 8 epoch), (8, le 8 s.ao.tick), (16, le 1 s.boot.cause)]⟩
  { s with evd := { s.evd with boot := true, waiting := b :: s.evd.waiting } }

/-- The module enters ERROR (R688): records that wait for it are discarded and counted, and no block closes. -/
def evdFails (test : Nat) (s : State) : State :=
  if s.isF Reg.gdSecStatusZeroised then s
  else
    let n := s.evd.waiting.length
    let s := count (devCtr 5) n (s.setB Reg.gdSecStatusEvdError true)
    raiseEv 131 3 0x1303 [(20, le 1 test)] { s with evd := { s.evd with waiting := [] } }

/-- The module passes its tests (R687, R688): out of ERROR it begins a new epoch. -/
def evdPasses (s : State) : State :=
  let s := raiseEv 131 0 0x1303 [(20, le 1 0)] s
  if s.isF Reg.gdSecStatusEvdError then openEpoch (s.setB Reg.gdSecStatusEvdError false) else s

/-- SELFTEST_FAILURE: a continuous health test, RCT (7) or APT (8), fails (R687, R688). -/
def execSelftestFailure (test : Nat) (s : State) : Out :=
  if test = 7 ∨ test = 8 then .next (evdFails test s) else .next s

/-- Every header that waits is signed. -/
def signAll : Nat → State → State
  | 0, s => s
  | n + 1, s => if s.evd.signing = [] then s else match execEvdBlockSigned s with | .next t => signAll n t | _ => s

/-- A SEC_SELF_TEST in progress is stopped by zeroisation (R684). -/
def stopSelfTest (s : State) : State :=
  match s.mbx.longOp with
  | some o =>
    if o.opcode = 0x1304 then
      let s := syncLong { (s.setB Reg.gdSecStatusSelftestRun false) with mbx := { s.mbx with longOp := none } }
      if o.dropped then s else finish o.opcode o.cmd o.slot o.tStart (8 * b2n o.resumed) o.mirror (failWith stCancelled 0) s
    else s
  | none => s

/-- Zeroisation (R684): the open block closes SHORT and is signed, secrets go, the module enters ZEROISED. The answer is the block closed,
all ones for none. -/
def zeroise (cause : Nat) (s : State) : Nat × State :=
  let s := stopSelfTest s
  let r : Nat × State :=
    if s.evd.isOpen && !s.isF Reg.gdSecStatusEvdError then
      let c := closeBlock false true (List.replicate 32 0) s
      (c.1, signAll (c.2.evd.signing.length + 1) c.2)
    else (2 ^ 64 - 1, s)
  let s := r.2
  let n := s.evd.waiting.length
  let s := count (devCtr 5) n { s with evd := { s.evd with isOpen := false, waiting := [], records := [], engineAwake := false } }
  let s := showSec { s with sec := { s.sec with zeroised := true } }
  (r.1, raiseEv 131 3 0x1302 [(20, le 1 cause), (24, le 8 r.1)] s)

/-! ### Tamper and the always-on domain -/

/-- The action of tamper input `n`: 0 IGNORE, 1 FLAG, 2 ZEROISE (R683). -/
def tamperAction (n : Nat) (s : State) : Nat := s.sec.owner.tamper / 4 ^ n % 4

/-- A tamper input's action with main power present (R683). -/
def tamperActs (n : Nat) (s : State) : State :=
  let a := tamperAction n s
  if a = 0 then s
  else
    let s := raiseEv 131 3 0x1301 [(20, le 1 n), (21, le 1 a), (24, le 8 s.ao.tamperTime)] s
    if a = 2 ∧ s.sec.zeroised = false then (zeroise 2 s).2 else s

/-- TAMPER_ACTIVE: input `n` has been at its active level for 4 samples, at AO tick `tick` (R683): counted, with the sticky flag and time
of a first activation; the action follows at once, or at the next start. -/
def execTamperActive (n tick : Nat) (s : State) : Out :=
  if 2 ≤ n then .next s
  else
    let first : Bool := !bit s.ao.flags n
    let a := { s.ao with tick := max s.ao.tick tick, flags := maskOf (n :: members s.ao.flags 2),
                         tamperTime := if s.ao.flags = 0 then tick else s.ao.tamperTime }
    let a := if n = 0 then { a with count0 := sat 255 (a.count0 + 1) } else { a with count1 := sat 255 (a.count1 + 1) }
    let s := showAo { s with ao := a }
    .next (if first = false then s
      else if s.boot.inReset then { s with sec := { s.sec with tamperDue := s.sec.tamperDue ++ [n] } }
      else tamperActs n s)

/-- SEC_VBAT_LOW: VBAT, in mV, falls below 1.75 V with main power present (R686). -/
def execSecVbatLow (mv : Nat) (s : State) : Out :=
  if 1750 ≤ mv ∨ s.isF Reg.gdSecStatusVbatLow = true ∨ s.boot.inReset = true then .next s
  else .next (raiseEv 131 1 0x1305 [(22, le 2 mv)] (s.setB Reg.gdSecStatusVbatLow true))

/-- AO_CONTENTS_LOST: VBAT below 1.60 V without main power (R720): time, anchor, tamper flags and owner lock of the always-on domain go;
the next start handles it (R565, R680, R706). -/
def execAoContentsLost (s : State) : Out :=
  if s.boot.inReset = false then .next s
  else .next (showSec (showAo { s with ao := ⟨0, true, s.ao.xtalOk, ⟨0, 0, 0⟩, ⟨0, 0, 0⟩, false, 0, 0, 0, 0⟩,
                                       sec := { s.sec with owner := ⟨[], 0, 0⟩, tamperDue := [] } }))

/-- AO_XTAL_STOP: the AO crystal stops, and the anchor with it (R706). -/
def execAoXtalStop (s : State) : Out := .next (showAo { s with ao := { s.ao with xtalOk := false, anchorValid := false } })

/-- AO_ANCHOR_WRITE: the anchor pairs an AO tick with the served domain's time, at the tick nearest to its whole second (R705). The copy
that is not in force is written. -/
def execAoAnchorWrite (tick : Nat) (s : State) : Out :=
  let q := s.qcState s.served
  let t := s.timeNow s.served
  let ns := t % 65536000000000
  let near : Bool := decide (ns ≤ 1000000000) || decide (65534999000000 ≤ ns)
  if s.boot.inReset = true ∨ s.boot.opened = false ∨ s.ao.xtalOk = false ∨ !(q = 2 ∨ q = 3 ∨ q = 6 ∨ q = 4) ∨
      s.isF (Reg.tbDStatusAlignNeeded s.served) = true ∨ near = false ∨ tick < s.ao.tick then .next s
  else .next (showAo { s with ao := { s.ao with tick := tick, anchorValid := true, anchorOld := s.ao.anchor,
                                                anchor := ⟨tick, ft96 t, (s.ao.anchor.seq + 1) % 2 ^ 32⟩ } })

/-! ### Commands -/

/-- Whether payload bytes `o` to `o + n - 1` are all 0. -/
def zeroField (c : Cmd) (o n : Nat) : Bool := cu c o n = 0

def secOwnerLockSpec : CmdSpec :=
  { opcode := 0x1301, lenOk := lenIs 212
    args := fun c _ =>
      let op := cu c 0 1
      let signed : Bool := op = 1 || op = 2
      let keyed : Bool := signed || op = 0
      firstBad ([(0, decide (4 < op)), (1, decide (16 ≤ cu c 1 1) || (cbit c 1 3 && op ≠ 1)),
        (2, decide (64 ≤ cu c 2 1) || cu c 2 1 % 4 = 3 || cu c 2 1 / 4 % 4 = 3), (4, op ≠ 3 && !zeroField c 4 4),
        (8, !signed && !zeroField c 8 8), (16, if keyed then cu c 16 1 ≠ 4 else !zeroField c 16 97), (116, !signed && !zeroField c 116 96)] ++
        reserved c 3 1 ++ reserved c 113 3) }

/-- Whether a signed operation verifies (R682): key hash, fresh nonce, signature over payload bytes 0 to 115 and SERIAL. -/
def ownerVerifies (c : Cmd) (s : State) : Bool :=
  let key := slice c.payload 16 97
  sha384 key = s.sec.owner.hash &&
    (match s.sec.nonce with | some n => n.1 = cu c 8 8 && decide (s.dtt ≤ n.2 + 46875000000) | none => false) &&
    Config.p384Verifies key (sha384 (slice c.payload 0 116 ++ le 8 Config.serial)) (slice c.payload 116 96)

/-- SVNs of the running instars: the ACTIVE Leinnar instar's and the evidence module's (R671). -/
def runningSvns (s : State) : List Nat :=
  let svn (n : Nat) : Nat := hdr (flashRead (slotBase n) 512 s) 16 4
  ((List.range 2).filter (fun n => (s.slot n).state = 3)).map svn ++ [svn (s.getF Reg.fwStateEvdSlot)]

/-- Tamper flags are cleared (R683). -/
def clearTamper (s : State) : State := showAo { s with ao := { s.ao with flags := 0, tamperTime := 0 }, sec := { s.sec with tamperDue := [] } }

/-- A key operation wakes the evidence arithmetic engine, within the time that the command takes (R35); it sleeps again after the current block's signature
(R37). -/
def wakeEngine (s : State) : State := { s with evd := { s.evd with engineAwake := true } }

/-- SEC_OWNER_LOCK (R671, R680 to R683): the operation, and what it answers; a nonce it names is spent either way. -/
def secOwnerLockEffect (c : Cmd) (s : State) : State × Reply :=
  let op := cu c 0 1
  let isSet : Bool := s.sec.owner.hash ≠ []
  let ok := ownerVerifies c s
  let s := if op = 1 ∨ op = 2 then wakeEngine s else s
  let s := if (op = 1 ∨ op = 2) ∧ (s.sec.nonce.map (·.1)) = some (cu c 8 8) then { s with sec := { s.sec with nonce := none } } else s
  let floor := cu c 4 4
  let r : State × Reply :=
    if (op = 0 ∨ op = 4) ∧ isSet = true ∨ (op = 1 ∨ op = 2) ∧ isSet = false then (s, failWith stRefused 0x1301)
    else if op = 3 then
      if floor < s.sec.svn ∨ (runningSvns s).any (fun v => decide (v < floor)) = true then (s, failWith stRefused 0x1302)
      else (showSec { s with sec := { s.sec with svn := floor } }, okReply)
    else if op = 0 then (setOwner ⟨sha384 (slice c.payload 16 97), cu c 1 1 % 8, cu c 2 1⟩ s, okReply)
    else if op = 4 then (clearTamper s, okReply)
    else if ok = false then (s, failWith stIntegrity 0)
    else if op = 2 then (setOwner ⟨[], 0, 0⟩ s, okReply)
    else
      let s := setOwner { s.sec.owner with policy := cu c 1 1 % 8, tamper := cu c 2 1 } s
      (if cbit c 1 3 then clearTamper s else s, okReply)
  (raiseEv 131 1 0x1304 [(20, le 1 op), (21, le 1 r.1.sec.owner.policy), (22, le 1 r.2.status)] r.1, r.2)

/-- SEC_OWNER_LOCK (R680 to R682, R690). -/
def execSecOwnerLock (c : Cmd) (s : State) : Out := runCmd secOwnerLockSpec secOwnerLockEffect c s

def secGetIdentitySpec : CmdSpec :=
  { opcode := 0x1302, lenOk := lenIs 0, need := fun _ _ => 96 + Config.certificate.length }

/-- SEC_GET_IDENTITY: the identity, with a fresh nonce (R672, R682). -/
def secGetIdentityEffect (_ : Cmd) (s : State) : State × Reply :=
  let d := drbgRequest 8 s
  let nonce := ofLe d.1
  let n := Config.certificate.length
  let s := { d.2 with sec := { d.2.sec with nonce := some (nonce, d.2.dtt) } }
  (s, okBuf [(32, le 4 evdKeyId), (40, le 8 Config.serial), (48, le 8 nonce), (56, le 2 n)]
    (record 96 [(0, Config.publicKey.take 65), (68, le 4 evdKeyId), (72, le 8 Config.serial), (80, le 2 n)] ++ Config.certificate))

/-- SEC_GET_IDENTITY (R672, R690). -/
def execSecGetIdentity (c : Cmd) (s : State) : Out := runCmd secGetIdentitySpec secGetIdentityEffect c s

def secZeroiseSpec : CmdSpec :=
  { opcode := 0x1303, urgent := true, lenOk := lenIs 4
    args := fun c _ => firstBad [(0, decide (cu c 0 4 ≠ 0x5A45524F))]
    stops := fun _ s => firstStop [(s.isF Reg.gdSecStatusZeroised, stRefused, 0x1303)] }

/-- The effect of SEC_ZEROISE (R684, R690). -/
def secZeroiseEffect (_ : Cmd) (s : State) : State × Reply := let r := zeroise 1 s; (r.2, okWith [(32, le 8 r.1)])

/-- SEC_ZEROISE. -/
def execSecZeroise (c : Cmd) (s : State) : Out := runCmd secZeroiseSpec secZeroiseEffect c s

def secSelfTestSpec : CmdSpec :=
  { opcode := 0x1304, stepped := true, lenOk := lenIs 0
    stops := fun _ s => firstStop [(s.isF Reg.gdSecStatusZeroised, stRefused, 0x1303)] }

/-- One step of SEC_SELF_TEST (R687, R688): the tests run, and then answer; the failing test, 0 for none, is an operand of the command. -/
def selfTestStep (o : LongOp) (s : State) : State × StepEnd :=
  if o.v = [] then (wakeEngine (s.setB Reg.gdSecStatusSelftestRun true), .more { o with v := [1], estimate := 2 })
  else
    let t := (o.cmd.meas.headD 0).toNat % 7
    let s := s.setB Reg.gdSecStatusSelftestRun false
    if t = 0 then (evdPasses s, .done (okWith [(32, le 1 0)]))
    else (evdFails t s, .done ⟨stIntegrity, 0, resultOf [(32, le 1 t)], []⟩)

/-- HST_CANCEL stops SEC_SELF_TEST: the module keeps its prior state (R690). -/
def selfTestCancel (s : State) : State × Bytes := (s.setB Reg.gdSecStatusSelftestRun false, resultOf [])

/-- SEC_SELF_TEST (R687, R690). -/
def execSecSelfTest (c : Cmd) (s : State) : Out := runStepped secSelfTestSpec selfTestStep c s

def secDrbgReadSpec : CmdSpec :=
  { opcode := 0x1305, lenOk := lenIs 4
    args := fun c _ => firstBad ((0, decide (cu c 0 2 = 0 ∨ 4096 < cu c 0 2)) :: reserved c 2 2)
    need := fun c _ => if cu c 0 2 ≤ 32 then 0 else cu c 0 2
    stops := fun _ s => firstStop [(s.isF Reg.gdSecStatusEvdError || s.isF Reg.gdSecStatusZeroised, stRefused, 0x1304)] }

/-- SEC_DRBG_READ: random bytes, up to 32 of them in RESULT, more in the result buffer (R673, R690). -/
def secDrbgReadEffect (c : Cmd) (s : State) : State × Reply :=
  let d := drbgRequest (cu c 0 2) s
  if cu c 0 2 ≤ 32 then (d.2, okWith [(32, d.1)]) else (d.2, okBuf [] d.1)

/-- SEC_DRBG_READ (R673, R690). -/
def execSecDrbgRead (c : Cmd) (s : State) : Out := runCmd secDrbgReadSpec secDrbgReadEffect c s

end Sys2Proof.Machine
end

