-- ==== Sys2Proof/Machine/Mailbox.lean ====
section
/-! DEFINITION. The mailbox beside its commands: doorbells and hampers (R89 to R91), enabling and disabling a queue (R87, R88),
entries that are no assigned command (R117), the commands of group 0x01, and the steps of a stepped command (R110, R113). -/

set_option Elab.async false

namespace Sys2Proof.Machine

/-! ### Doorbells -/

/-- A doorbell value is discarded (R91, R123). -/
def doorbellBad (q value : Nat) (s : State) : State :=
  raiseEv 130 1 0x0010 [(20, le 1 q), (24, le 4 value)] (s.raiseBit (Reg.mbxStatusDbBad q))

/-- Hamper-end entries of empty hampers are written as far as the ring has room; while one waits, CQ_STALL is set (R90). They wait for
firmware to run (R91). -/
def emptyEnds (q : Nat) (s : State) : State :=
  if s.isF Reg.hstStatusFwRun then
    let s := flushEnds (s.queue q).endsWaiting.length q s
    if (s.queue q).endsWaiting = [] then s else s.raiseBit (Reg.mbxStatusCqStall q)
  else s

/-- The TAG of a fetched entry, 0 where it cannot be read. -/
def fetchedTag : Fetched → Nat
  | .command t => t
  | .unassigned _ c => c.tag
  | .unreadable => 0

/-- Entries of a hamper that are no assigned command, by submission slot (R117). -/
def oddOnes (q first size : Nat) (fs : List Fetched) : List OddEntry :=
  ((List.range fs.length).map (fun k => match fs.getD k .unreadable with
    | .command _ => []
    | .unassigned op c => [⟨q, (first + k) % size, some (op, { c with src := queueSrc q })⟩]
    | .unreadable => [⟨q, (first + k) % size, none⟩])).flatten

/-- An accepted doorbell moves the tail and forms a hamper of the entries up to INDEX − 1 (R89 to R91). `fs` tells, in ring order, what
core 0 will fetch. -/
def doorbell (q value : Nat) (fs : List Fetched) (s : State) : State :=
  let ix := value % 2 ^ 16
  let size := 2 ^ s.getF (Reg.mbxCfgSqLog2sz q)
  if s.isF (Reg.mbxCfgEn q) = false ∨ s.isF (Reg.mbxCfgCfgErr q) = true ∨ size ≤ ix then doorbellBad q value s
  else
    let x := s.queue q
    let htag := value / 2 ^ 16 % 2 ^ 15
    let n := (ix + size - x.tail) % size
    let s := s.setF (Reg.mbxDbShadow q) value
    if n = 0 then
      if bit value 31 then
        let e := hamperEnd ⟨htag, true, 0, ix, [], none, true, some s.dtt, 0, s.dtt⟩ s.dtt
        emptyEnds q (s.setQueue q { x with endsWaiting := x.endsWaiting ++ [e] })
      else s
    else
      let es := (List.range n).map (fun k => fs.getD k (.command 0))
      let h : Hamper := ⟨htag, bit value 31, n, x.tail, es.map fetchedTag, none, true, none, s.mbx.doorbells, s.dtt⟩
      let odd := s.mbx.odd ++ oddOnes q x.tail size es
      let s := s.setQueue q { x with tail := ix, hampers := x.hampers ++ [h] }
      syncPending q { s with mbx := { s.mbx with doorbells := s.mbx.doorbells + 1, odd := odd } }

/-! ### Enabling and disabling -/

/-- Whether MBX_CFG holds valid sizes (R87, CFG_ERR). -/
def mbxSizesOk (q : Nat) (s : State) : Bool :=
  let a := s.getF (Reg.mbxCfgSqLog2sz q)
  let b := s.getF (Reg.mbxCfgCqLog2sz q)
  decide (4 ≤ a) && decide (a ≤ 12) && decide (4 ≤ b) && decide (b ≤ 12) && decide (a ≤ b)

/-- EN is set with valid sizes: head, tail and completion producer start again, and fetching with them (R87, R117). -/
def queueEnable (q : Nat) (s : State) : State :=
  let s := ringReset (cqRing q) (s.setF (Reg.mbxSqHeadIndex q) 0)
  emptyEnds q (s.setQueue q { s.queue q with tail := 0, fetchStopped := false })

/-- EN is cleared: entries not started are discarded without completion; a command in service runs on (R88). A hamper that loses entries
so has no end. -/
def queueDisable (q : Nat) (s : State) : State :=
  let x := s.queue q
  let any : Bool := decide (0 < pendingOf x)
  let hs := if inService q s then (x.hampers.take 1).map (fun h => { h with hend := h.hend && h.waiting = [], waiting := [] }) else []
  let s := s.setQueue q { x with hampers := hs, cancels := [] }
  let s := { s with mbx := { s.mbx with odd := s.mbx.odd.filter (fun e => e.q ≠ q) } }
  syncPending q (if any then s.raiseBit (Reg.mbxStatusDiscard q) else s)

/-- MBX_CFG has been written: `was` and `bad` are EN and CFG_ERR before (R71, R87, R88). -/
def mbxCfgWritten (q : Nat) (was bad : Bool) (s : State) : State :=
  let en := s.isF (Reg.mbxCfgEn q)
  let s := s.setB (Reg.mbxCfgCfgErr q) (en && !mbxSizesOk q s)
  if en && mbxSizesOk q s && (!was || bad) then queueEnable q s
  else if was && !en then queueDisable q s
  else s

/-- MBX_CQ_CONS is written: slots return, and what waits for them follows (R74, R90). False where the index is out of range. -/
def cqConsume (q ix : Nat) (s : State) : Bool × State :=
  let r := ringConsume (cqRing q) ix s
  if r.1 then (true, emptyEnds q r.2) else r

/-! ### Entries that are no assigned command -/

/-- Whether core 0 comes to queue `q`'s next entry at this decision point (R104 to R106), as far as the entry itself and its room are not asked. -/
def queueTurn (q : Nat) (s : State) : Bool :=
  s.mbx.ackWait = none && s.mbx.held = none && serving s && queueServes q s && !queueBusy q s &&
  (q = 0 || (s.mbx.longOp = none && !urgentFirst s))

/-- The start checks of R734 that come before the opcode's own, orders 1 to 4, for an opcode that is not assigned. -/
def oddCheck (c : Cmd) (s : State) : Nat × Nat :=
  if (s.queue c.src.q).cancels.contains (headSlot c s) then (stCancelled, 0)
  else if c.chain && (match (s.queue c.src.q).hampers with
      | h :: _ => decide (h.waiting.length < h.count) && !h.lastOk
      | [] => false) then (stCancelled, 0)
  else match entryFault c with
    | some d => (stBadArg, d)
    | none => (stBadOpcode, 0)

/-- Queue `q`'s next entry cannot be read: fetching from the queue stops (R117). -/
def fetchFails (q slot : Nat) (s : State) : State :=
  let s := (s.setQueue q { s.queue q with fetchStopped := true }).raiseBit (Reg.mbxStatusFetchErr q)
  raiseEv 130 2 0x0011 [(20, le 1 q), (22, le 2 slot)] s

/-- Queue `q`'s next entry is served where it is no assigned command and its turn has come; where its ring has no room it waits, with CQ_STALL (R102). -/
def serveOdd (q : Nat) (s : State) : State :=
  if queueTurn q s = false then s
  else match frontOdd q s with
    | none => s
    | some e =>
      if queueRoom q s = false then s.raiseBit (Reg.mbxStatusCqStall q) else
      let s := { s with mbx := { s.mbx with odd := s.mbx.odd.filter (fun x => decide (x.q ≠ q) || decide (x.slot ≠ e.slot)) } }
      match e.entry with
      | none => fetchFails q e.slot s
      | some (op, c) =>
        if q = 1 ∧ c.fence = true ∧ urgentBefore (headOrder 1 s) s = true then { s with mbx := { s.mbx with odd := e :: s.mbx.odd } }
        else
          let t0 := startStamp c s
          let r := oddCheck c s
          finish op c e.slot t0 (8 * b2n (resumes c s)) none (failWith r.1 r.2) (takeEntry c t0 s)

/-! ### HST_NOP and HST_RESTART_MGMT -/

def hstNopSpec : CmdSpec := { opcode := 0x0101, urgent := true, lenOk := lenIs 0 }

/-- The effect of HST_NOP (R114). -/
def hstNopEffect (_ : Cmd) (s : State) : State × Reply := (s, okReply)

/-- HST_NOP. -/
def execHstNop (c : Cmd) (s : State) : Out := runCmd hstNopSpec hstNopEffect c s

def hstRestartMgmtSpec : CmdSpec := { opcode := 0x0103, urgent := true, lenOk := lenIs 0 }

/-- HST_RESTART_MGMT: ST_OK, and Leinnar restarts at the next decision point (R660). -/
def hstRestartMgmtEffect (_ : Cmd) (s : State) : State × Reply := ({ s with fw := { s.fw with restartDue := true } }, okReply)

/-- HST_RESTART_MGMT (R114, R660). -/
def execHstRestartMgmt (c : Cmd) (s : State) : Out := runCmd hstRestartMgmtSpec hstRestartMgmtEffect c s

/-! ### Stepped commands -/

/-- A stepped SDS_PORT_CONFIG that is stopped leaves its port disabled, with the transmitter stopped. -/
def portCancel (o : LongOp) (s : State) : State :=
  let p := cu o.cmd 0 1
  let ls := portLanes p s ++ (lanesIn p (cu o.cmd 1 1)).filter (fun n => !(portLanes p s).contains n)
  stampStatus p ((lanesSleep ls (stopTx p s)).setF (Reg.ptsStatusMode p) 0)

/-- A stepped command in progress stops where it is: the state it leaves, its RESULT, and what has gone into its result buffer, each as
the chapter that owns it gives its resume state (R113). -/
def longStop (o : LongOp) (s : State) : State × Bytes × Bytes :=
  match o.opcode with
  | 0x0406 => (s, resultOf [], o.acc)
  | 0x0602 => (loadCancel s, (loadReply o).result, [])
  | 0x0603 => (loadCancel s, (loadReply o).result, [])
  | 0x0704 =>
    let bad := maskOf (((auditOuts o.cmd).take (o.acc.length / 32)).filter (fun n => !o.work.contains n))
    (s, resultOf [(32, le 2 (maskOf o.work)), (34, le 2 bad)], o.acc)
  | 0x0801 => (portCancel o s, resultOf [], [])
  | 0x0805 => let r := scanReply o s; (r.1, r.2.result, r.2.buf)
  | 0x0A07 => (s.setF Reg.ftStatusWalker 0, (flushReply stCancelled o).result, [])
  | 0x0A0C => (s.setF Reg.ftStatusWalker 0, resultOf [(36, le 4 (placeLoc (o.work.headD 0)))], [])
  | 0x0B04 => (spillCancel s, resultOf [], [])
  | 0x1001 => let r := scrubCancel o s; (r.1, r.2, [])
  | 0x1101 => let r := calCancel o s; (r.1, r.2, [])
  | 0x1102 => let r := calCancel o s; (r.1, r.2, [])
  | 0x1103 => let r := calOutCancel o s; (r.1, r.2, [])
  | 0x1201 => let r := writeCancel o s; (r.1, r.2, [])
  | 0x1202 => let r := writeCancel o s; (r.1, r.2, [])
  | 0x1304 => let r := selfTestCancel s; (r.1, r.2, [])
  | _ => (s, resultOf [], [])

/-- The command in progress ends short of its end with a status and DETAIL. -/
def longEnds (st detail cf : Nat) (result : Bool) (o : LongOp) (s : State) : State :=
  let r := longStop o s
  let s := syncLong { r.1 with mbx := { r.1.mbx with longOp := none } }
  if o.dropped then s
  else finish o.opcode o.cmd o.slot o.tStart cf o.mirror (if result then ⟨st, detail, r.2.1, r.2.2⟩ else failWith st detail) s

/-- What a stepped opcode's next step is: its rules and its step; `amount` is how far a step that reads memory came. -/
def stepOf (amount opcode : Nat) : Option (CmdSpec × (LongOp → State → State × StepEnd)) :=
  match opcode with
  | 0x0406 => some (rsLarderReadSpec, larderStep)
  | 0x0602 => some (loadSpec 0x0602, loadStep 0)
  | 0x0603 => some (loadSpec 0x0603, loadStep 1)
  | 0x0704 => some (emSelfAuditSpec, auditStep)
  | 0x0801 => some (sdsPortConfigSpec, portStep)
  | 0x0805 => some (sdsEyeScanSpec, scanStep)
  | 0x0A05 => some (ftWalkNextSpec, walkNextStep)
  | 0x0A07 => some (ftFlushPortSpec, flushStep)
  | 0x0A0C => some (ftDigestSpec, digestStep)
  | 0x0B04 => some (bfSpillEnableSpec, spillStep)
  | 0x1001 => some (mpScrubSpec, scrubStep amount)
  | 0x1101 => some (calLaneSpec, calStep)
  | 0x1102 => some (calEvtinSpec, calStep)
  | 0x1103 => some (calOutputSpec, calOutStep)
  | 0x1201 => some (fwWriteSlotSpec, writeStep)
  | 0x1202 => some (fwApplyMoultSpec, moultStep)
  | 0x1206 => some (fwUpdateEvdSpec, evdUpdateStep)
  | 0x1304 => some (secSelfTestSpec, selfTestStep)
  | _ => none

/-- Whether core 0 takes the next step of the command in progress at this decision point: no URGENT command can start (R104). -/
def stepTurn (s : State) : Bool :=
  s.mbx.ackWait = none && s.mbx.held = none && serving s && !urgentFirst s

/-- STEPPED_COMMAND_STEP: the next step of the stepped command in progress, which ends with its step record or the command's end
(R104, R110). -/
def execSteppedCommandStep (amount : Nat) (s : State) : Out :=
  match s.mbx.longOp with
  | none => .next s
  | some o =>
    if stepTurn s then
      match stepOf amount o.opcode with
      | none => .next s
      | some (k, f) => .next (afterStep k o (f o s))
    else .next s

/-! ### HST_CANCEL -/

/-- Queue `q`'s unstarted entries as (slot, TAG), oldest first; those that cannot be read carry no TAG. -/
def unstarted (q : Nat) (s : State) : List (Nat × Nat) :=
  let l := ((s.queue q).hampers.map (·.waiting)).flatten
  let h := s.getF (Reg.mbxSqHeadIndex q)
  let n := 2 ^ s.getF (Reg.mbxCfgSqLog2sz q)
  ((List.range l.length).map (fun k => ((h + k) % n, l.getD k 0))).filter
    (fun e => !s.mbx.odd.any (fun x => x.q = q && x.slot = e.1 && x.entry.isNone))

/-- The oldest uncompleted command that an HST_CANCEL names (R113): the stepped command in progress, or an entry that has not started,
by slot. Its own entry is none of them. -/
def cancelTarget (c : Cmd) (s : State) : Option (LongOp ⊕ Nat) :=
  let q := cu c 2 1
  let t := cu c 0 2
  match s.mbx.longOp.filter (fun o => o.cmd.src = queueSrc q && o.cmd.tag = t) with
  | some o => some (.inl o)
  | none => ((unstarted q s).find? (fun e => e.2 = t && !(c.src = queueSrc q && e.1 = headSlot c s))).map (fun e => .inr e.1)

/-- Whether the command in progress is past the point at which it can be stopped: an evidence-module change already begun (R667). -/
def pastStopping (o : LongOp) : Bool := o.opcode = 0x1206 && o.v ≠ []

/-- Cancellations of unstarted commands that are pending, over both queues. -/
def cancelsPending (s : State) : Nat := s.mbx.urgent.cancels.length + s.mbx.general.cancels.length

def hstCancelSpec : CmdSpec :=
  { opcode := 0x0102, urgent := true, lenOk := lenIs 4
    args := fun c _ => firstBad ((2, decide (1 < cu c 2 1)) :: reserved c 3 1)
    stops := fun c s =>
      match cancelTarget c s with
      | none => some (stNotFound, 0)
      | some (.inl o) => firstStop [(pastStopping o, stRefused, 0)]
      | some (.inr n) => firstStop [(decide (16 ≤ cancelsPending s) && !(s.queue (cu c 2 1)).cancels.contains n, stBusy, 0)] }

/-- HST_CANCEL on the target that its checks have found, which the entry's own start leaves as it is (R113). -/
def hstCancelEffect (t : Option (LongOp ⊕ Nat)) (c : Cmd) (s : State) : State × Reply :=
  match t with
  | none => (s, okReply)
  | some (.inl o) => (longEnds stCancelled 0 (8 * b2n o.resumed) true o s, okWith [(32, le 1 1), (34, le 2 o.slot), (36, le 4 o.done)])
  | some (.inr n) =>
    let q := cu c 2 1
    let x := s.queue q
    (if x.cancels.contains n then s else s.setQueue q { x with cancels := x.cancels ++ [n] }, okWith [(32, le 1 0), (34, le 2 n), (36, le 4 0)])

/-- HST_CANCEL (R113, R114). -/
def execHstCancel (c : Cmd) (s : State) : Out := runCmd hstCancelSpec (hstCancelEffect (cancelTarget c s)) c s

end Sys2Proof.Machine
end

