-- ==== Sys2Proof/Machine/Bus.lean ====
section
/-! DEFINITION. Register accesses over the buses: reads and writes of BAR0, BAR2 and BAR4 with their access rules (R45 to R60), locks
and keyed pairs (R61 to R65, R675), what a written register brings about (R71, R74, R87, R141, R194, R546, R674, R677, R698), and the
SMBus target (R79 to R83). -/

set_option Elab.async false

namespace Sys2Proof.Machine

/-! ### Bytes of a word -/

/-- A 32-bit word with the bytes that `be` enables taken from `v` (R50, R51). -/
def mergeBytes (old v be : Nat) : Nat :=
  ((List.range 4).map (fun k => ((if bit be k then v else old) / 2 ^ (8 * k)) % 256 * 2 ^ (8 * k))).sum

/-- The bytes of a word that `be` enables, the others 0 (R50). -/
def maskBytes (v be : Nat) : Nat := mergeBytes 0 v be

/-! ### Reads -/

/-- The shadow of a requester path (R58). -/
def shadowOf (p : Path) (s : State) : Nat := spGet 0 s.bus.shadows p.ctorIdx

/-- The path's shadow takes a _HI word (R57). -/
def latch (p : Path) (hi : Nat) (s : State) : State :=
  { s with bus := { s.bus with shadows := spSet 0 s.bus.shadows p.ctorIdx hi } }

/-- A live 64-bit value is read by its word at `off`: _LO latches the high word, _HI answers the path's shadow (R57, R58). -/
def readPair (p : Path) (off v : Nat) (s : State) : Nat × State :=
  if off % 8 = 0 then (v % 2 ^ 32, latch p (v / 2 ^ 32) s) else (shadowOf p s, s)

/-- Counter `c` is read by its word at `off` (R590, R596), as a protected word (R597). -/
def readCounter (p : Path) (off c : Nat) (s : State) : Nat × State :=
  if off % 8 = 0 then
    let s := (mpRead (mpWord 9 c) false s).2
    readPair p off (s.counter c) s
  else readPair p off 0 s

/-- Whether the offset lies in the PTS block of a lane 4k+1 to 4k+3 of a 100GBASE-R group, outside its latency registers: it reads 0 there, and writes are
ignored (Port timestamping, Registers). -/
def ptsShut (off : Nat) (s : State) : Bool :=
  decide (0x200000 ≤ off) && decide (off < 0x20C000) && inGroup ((off - 0x200000) / 0x400) s && !(decide (0x10 ≤ off % 0x400) && decide (off % 0x400 < 0x28))

/-- A read of the BAR0 word at `off` by path `p`, none where the offset is unmapped (R45, R55 to R58). -/
def readBar0 (p : Path) (off : Nat) (s : State) : Option (Nat × State) :=
  if off % 4 ≠ 0 then none
  else if 0x900000 ≤ off ∧ off < 0x930000 then some (readCounter p off ((off - 0x900000) / 8) s)
  else if 0x980000 ≤ off ∧ off < 0x982000 then
    let k := (off - 0x980000) / 8
    if s.isF (Reg.ctWinMapEn k) then some (readCounter p off (s.getF (Reg.ctWinMapIndex k)) s)
    else some (readPair p off 0 s)
  else
    match regAt off with
    | none => none
    | some d =>
      if ptsShut off s then some (match d.kind with | .latchLo => readPair p off 0 s | .latchHi => (shadowOf p s, s) | _ => (0, s)) else
      match d.kind with
      | .latchLo =>
        if off = Reg.hstDtt then some (readPair p off s.dtt s)
        else if off = Reg.aoTime then
          let t := (s.ao.tick + s.draw.1) % 2 ^ 64
          let s := s.draw.2
          some (readPair p off t { s with ao := { s.ao with tick := t } })
        else some (readPair p off (s.get64 off) s)
      | .latchHi => some (shadowOf p s, s)
      | .keyB => some (2 ^ 32 - 1 - s.regWord (off - 4), s)
      | _ => some (s.regWord off, s)

/-- A read of a BAR4 word: a doorbell's last value, the MSI-X table (vector control resets to masked) or the pending bits (R47). -/
def readBar4 (off : Nat) (s : State) : Option Nat :=
  if off = 0 ∨ off = 0x40 ∨ (0x100 ≤ off ∧ off < 0x300 ∧ off % 0x40 = 0) then some (spGet 0 s.bus.doorbells off)
  else if 0x2000 ≤ off ∧ off < 0x2400 ∧ off % 4 = 0 then
    let k := off - 0x2000
    some (spGet (if k % 16 = 12 then 1 else 0) s.bus.msixTable k)
  else if off = 0x3000 then some (s.bus.pba % 2 ^ 32)
  else if off = 0x3004 then some (s.bus.pba / 2 ^ 32 % 2 ^ 32)
  else none

/-- Whether the owner lock shuts a JTAG access out: any but a read of HST_ID (R681). -/
def jtagShut (a : Access) (write : Bool) (s : State) : Bool :=
  a.path = .jtag && policyBit 2 s && (write || !(a.bar = 0 && a.off = 0))

/-- One 32-bit read: the bytes enabled of the word, or of all ones with ACCESS_FAULT where nothing is mapped (R46, R50, R55). -/
def readWord (a : Access) (s : State) : Nat × State :=
  if a.be % 16 = 0 then (0, s)
  else
    let r := if jtagShut a false s then none
      else if a.bar = 4 then (readBar4 a.off s).map (fun v => (v, s))
      else if a.bar = 2 then (if a.off < 0x100000 then readBar0 a.path (0x900000 + a.off) s else none)
      else readBar0 a.path a.off s
    match r with
    | some r => (maskBytes r.1 a.be, r.2)
    | none => (maskBytes (2 ^ 32 - 1) a.be, accessFault a false s)

/-- Further words of a read TLP, in ascending order (R53). -/
def readMore (a : Access) : List Nat → State → Bytes × State
  | [], s => ([], s)
  | be :: r, s =>
    let a := { a with off := a.off + 4, be := be }
    let w := readWord a s
    let t := readMore a r w.2
    (le 4 w.1 ++ t.1, t.2)

/-- A read TLP of one word or more; its answer stands in `bus.answer` (R49, R53). -/
def busRead (a : Access) (more : List Nat) (s : State) : State :=
  let w := readWord a s
  let t := readMore a more w.2
  { t.2 with bus := { t.2.bus with answer := le 4 w.1 ++ t.1 } }

/-! ### Guard bounds and keyed pairs -/

/-- Whether the offset lies in the GD block. -/
def inGd (off : Nat) : Bool := decide (0x10000 ≤ off) && decide (off < 0x20000)

/-- The offset of a keyed pair's _A word. -/
def keyOff (off : Nat) : Nat := off / 8 * 8

/-- A keyed value as it is stored: GD_SLEW_MAX and GD_MGMT_RATE within their ranges (R674), GD_PORT_EN1 without its reserved bits. -/
def keyStored (off v : Nat) : Nat :=
  if off = 0x10018 then max 1 (min 1000 v)
  else if off = 0x10038 then max 1 (min 10000 v)
  else if off = 0x10030 then v % 2 ^ 17
  else v

/-- Bit `p` of the port enable bound falls: the transmitter of the port stops (R677). -/
def stopBound (p : Nat) (s : State) : State :=
  if s.isF (Reg.sdsStatusTxOn p) ∧ inGroup p s = false then stopTx p s else s

/-- The twin's bit falls: TW0 to TW3 and TWCLK stop (R677). -/
def stopTwin (s : State) : State :=
  [48, 49, 50, 51].foldl (fun s n => s.setB (Reg.sdsStatusTxOn n) false) s

/-- Ports whose bit of a bound falls from `old` to `new` stop. -/
def portsFall (first n old new : Nat) (s : State) : State :=
  (List.range n).foldl (fun s k => if bit old k && !bit new k then stopBound (first + k) s else s) s

/-- A keyed value takes effect (R61, R674, R677, R698). -/
def keyCommit (off v : Nat) (s : State) : State :=
  let old := s.regWord off
  let v := keyStored off v
  let s := s.setF (word off) v
  if off = 0x10028 then portsFall 0 32 old v s
  else if off = 0x10030 then
    let s := portsFall 32 16 old v s
    if bit old 16 && !bit v 16 then stopTwin s else s
  else if off = 0x30 ∧ v = 1 then { s with boot := { s.boot with hstResetAt := some s.dtt } }
  else s

/-- Whether a sequence is the one of a keyed pair and path. -/
def KeySeq.isOf (k : KeySeq) (off : Nat) (p : Path) : Bool := k.off = off && k.path = p

/-- The pair's sequence of the path ends. -/
def keyEnd (off : Nat) (p : Path) (s : State) : State :=
  { s with bus := { s.bus with keyed := s.bus.keyed.filter (fun k => !k.isOf off p) } }

/-- The open sequence of a keyed pair and path. -/
def keySeq (off : Nat) (p : Path) (s : State) : Option KeySeq := s.bus.keyed.find? (fun k => k.isOf off p)

/-- A discarded write is a guard violation with its data (R64, R65). -/
def discarded (off : Nat) (p : Path) (r : GdReason) (v : Nat) (s : State) : State := guardViolation off p r 0 v 0 v s

/-- A sequence whose _B write has not come in 64 CCLK (32 ticks) has failed (R63). -/
def keyExpire (late : Nat) (off : Nat) (p : Path) (s : State) : State :=
  match keySeq off p s with
  | none => s
  | some k => if k.opened + late ≤ s.dtt then discarded off p .keyFail k.value (keyEnd off p s) else s

/-- A write of a keyed pair's _A word (R61, R63, R65). -/
def writeKeyA (off : Nat) (p : Path) (v : Nat) (s : State) : State :=
  let s := keyExpire 33 off p s
  if s.isF Reg.gdLockLock then discarded off p .locked v s
  else if (keySeq off p s).isSome then discarded off p .keyFail v (keyEnd off p s)
  else { s with bus := { s.bus with keyed := s.bus.keyed ++ [⟨off, p, v, s.dtt⟩] } }

/-- A write of a keyed pair's _B word: the value takes effect, or the sequence fails (R61, R63, R65). -/
def writeKeyB (off : Nat) (p : Path) (v : Nat) (s : State) : State :=
  let s := keyExpire 33 off p s
  if s.isF Reg.gdLockLock then discarded (off + 4) p .locked v (keyEnd off p s)
  else
    match keySeq off p s with
    | none => discarded (off + 4) p .keyFail v s
    | some k =>
      let s := keyEnd off p s
      if v = 2 ^ 32 - 1 - k.value then keyCommit off k.value s else discarded (off + 4) p .keyFail v s

/-! ### What a written register brings about -/

/-- A ring's CFG has been written (R71): `was` and `bad` are EN and CFG_ERR before. -/
def ringCfgWritten (R : RingRegs) (was bad : Bool) (s : State) : State :=
  let ok : Bool := decide (R.minLog ≤ s.getF R.log) && decide (s.getF R.log ≤ R.maxLog)
  let en := s.isF R.en
  let s := s.setB R.err (en && !ok)
  if en && ok && (!was || bad) then ringReset R s else s

/-- SW_HTX_CFG has been written: setting EN resets head and tail (R418). -/
def htxCfgWritten (was bad : Bool) (s : State) : State :=
  let ok : Bool := decide (4 ≤ s.getF Reg.swHtxCfgLog2sz) && decide (s.getF Reg.swHtxCfgLog2sz ≤ 12)
  let en := s.isF Reg.swHtxCfgEn
  let s := s.setB Reg.swHtxCfgCfgErr (en && !ok)
  if en && ok && (!was || bad) then (s.setF Reg.swHtxHeadIndex 0).setF Reg.swHtxTailIndex 0 else s

/-- TB_SNAP_CTRL is written with the bytes enabled of `v`: TRIG captures at once; ARM arms ARM_SRC or disarms (R141). -/
def snapWritten (v be : Nat) (s : State) : State :=
  let w := mergeBytes (s.regWord 0x100040) v be
  let s := if bit be 2 && bit v 16 then s.clearBit Reg.tbSnapCtrlDone else s
  let s := if bit be 0 && bit v 0 then capture 0 (s.dtt * 2 ^ 16) s else s
  let src := w / 16 % 8
  if bit be 1 && bit v 8 then armSnap src s
  else
    let s := s.setF Reg.tbSnapCtrlArmSrc src
    if bit be 1 then s.setB Reg.tbSnapCtrlArm false else s

/-- What follows a write of the register at `off`; `o` is the state before it. -/
def written (off : Nat) (o s : State) : State :=
  if off = 0x48 then evrDrain 513 (ringCfgWritten evrRing (o.isF evrRing.en) (o.isF evrRing.err) s)
  else if off = 0x54 then ringSignal evrRing s
  else if off = 0x150018 then recDrain 513 (ringCfgWritten ttRing (o.isF ttRing.en) (o.isF ttRing.err) s)
  else if off = 0x150024 then ringSignal ttRing s
  else if off = 0x500108 then ringCfgWritten learnRing (o.isF learnRing.en) (o.isF learnRing.err) s
  else if off = 0x500114 then ringSignal learnRing s
  else if off = 0x402008 then htxCfgWritten (o.isF Reg.swHtxCfgEn) (o.isF Reg.swHtxCfgCfgErr) s
  else if off = 0x20010 then mbxCfgWritten 0 (o.isF (Reg.mbxCfgEn 0)) (o.isF (Reg.mbxCfgCfgErr 0)) s
  else if off = 0x20110 then mbxCfgWritten 1 (o.isF (Reg.mbxCfgEn 1)) (o.isF (Reg.mbxCfgCfgErr 1)) s
  else if off = 0x20024 then ringSignal (cqRing 0) s
  else if off = 0x20124 then ringSignal (cqRing 1) s
  else if off = 0x100000 then s.setF Reg.tbCfgSeamless (min 1000000 (s.getF Reg.tbCfgSeamless))
  else s

/-- A consumer index, tail or pop count is written, where `off` is such a register: the answer is false where the value is discarded
(R74, R194, R418). -/
def writeIndex (off v : Nat) (s : State) : Option (Bool × State) :=
  if off = 0x50 then
    let r := ringConsume evrRing (v % 2 ^ 16) s
    some (r.1, if r.1 then evrDrain 513 r.2 else r.2)
  else if off = 0x20020 then some (cqConsume 0 (v % 2 ^ 16) s)
  else if off = 0x20120 then some (cqConsume 1 (v % 2 ^ 16) s)
  else if off = 0x150020 then
    let r := ringConsume ttRing (v % 2 ^ 16) s
    some (r.1, if r.1 then recDrain 513 r.2 else r.2)
  else if off = 0x500110 then some (ringConsume learnRing (v % 2 ^ 16) s)
  else if 0x130000 ≤ off ∧ off < 0x130800 ∧ off % 0x100 = 0x50 then some (emConsume ((off - 0x130000) / 0x100) (v % 2 ^ 16) s)
  else if 0x130000 ≤ off ∧ off < 0x130800 ∧ off % 0x100 = 0x30 then some (true, emPop ((off - 0x130000) / 0x100) (v % 2 ^ 13) s)
  else if off = 0x800028 then
    if evdSize s ≤ v % 2 ^ 22 then some (false, s) else some (true, s.setF Reg.evdRConsIndex v)
  else if off = 0x40200C then
    if 2 ^ s.getF Reg.swHtxCfgLog2sz ≤ v % 2 ^ 16 then some (false, s) else some (true, s.setF Reg.swHtxTailIndex v)
  else if 0x200000 ≤ off ∧ off < 0x20C000 ∧ off % 0x400 = 0x54 then some (true, fifoPop (2 * ((off - 0x200000) / 0x400)) (v % 2 ^ 9) s)
  else if 0x200000 ≤ off ∧ off < 0x20C000 ∧ off % 0x400 = 0x74 then some (true, fifoPop (2 * ((off - 0x200000) / 0x400) + 1) (v % 2 ^ 9) s)
  else none

/-! ### Writes -/

/-- A register none of whose fields a write can change (R56). -/
def readOnly (d : RegDesc) : Bool := d.fields.all (fun f => f.acc = .ro)

/-- The fields of a register under a write of the bytes enabled of `v`: RW fields take it, W1C bits go (R51, R56). -/
def writeFields (off v be : Nat) (d : RegDesc) (s : State) : State :=
  let w := mergeBytes (s.regWord off) v be
  d.fields.foldl (fun s f =>
    let g : Fld := ⟨off, f.lo, f.hi - f.lo + 1⟩
    match f.acc with
    | .rw => s.setF g (w / 2 ^ f.lo)
    | .w1c => if bit (maskBytes v be) f.lo then s.clearBit g else s
    | _ => s) s

/-- The staged _LO of an RW pair (R60). -/
def staged (off : Nat) (s : State) : Option Nat := spGet none s.bus.staging off

/-- The staging word of an RW pair is replaced. The manual says neither whether requester paths share it nor what fills the bytes that a partial
_LO write does not enable: DESIGN CHOICE (log entry 230), one staging word per pair for all paths, filled from the staged _LO, or the current one where
nothing is staged. -/
def stage (off : Nat) (v : Option Nat) (s : State) : State :=
  { s with bus := { s.bus with staging := spSet none s.bus.staging off v } }

/-- The pair at `off` (its _LO) takes its staged _LO, or keeps its own, and a written _HI (R60). Every RW pair is a ring base, whose low
12 bits read 0. -/
def pairCommit (off v be : Nat) (s : State) : State :=
  let lo := (staged off s).getD (s.regWord off)
  let hi := mergeBytes (s.regWord (off + 4)) v be
  stage off none ((s.setF (word off) (lo / 4096 * 4096)).setF (word (off + 4)) hi)

/-- Requesters whose writes to the GD block and HST_RESET are discarded (R675, R698). -/
def isCore (p : Path) : Bool := p = .core0 || p = .core1 || p = .sequencer

/-- One 32-bit write to BAR0 (R51, R52, R55, R56, R60 to R65, R74). -/
def writeBar0 (a : Access) (s : State) : State :=
  if a.off % 4 ≠ 0 then accessFault a true s
  else match regAt a.off with
  | none => accessFault a true s
  | some d =>
    if ptsShut a.off s then s
    else if d.w32 && a.be % 16 ≠ 15 then accessFault a true s
    else if isCore a.path && (inGd a.off || a.off = 0x30 || a.off = 0x34) then discarded a.off a.path .locked a.data s
    else if readOnly d then accessFault a true s
    else if a.off = 0x10000 then
      if bit a.data 0 then s.setB Reg.gdLockLock true
      else if s.isF Reg.gdLockLock then discarded a.off a.path .lkClear a.data s
      else s
    else if a.off = 0x100040 then snapWritten a.data a.be s
    else match d.kind with
      | .keyA => writeKeyA a.off a.path a.data s
      | .keyB => writeKeyB (keyOff a.off) a.path a.data s
      | .pairLo => stage a.off (some (mergeBytes ((staged a.off s).getD (s.regWord a.off)) a.data a.be)) s
      | .pairHi => pairCommit (a.off - 4) a.data a.be s
      | _ =>
        match writeIndex a.off a.data s with
        | some r => if r.1 then r.2 else accessFault a true s
        | none => written a.off s (writeFields a.off a.data a.be d s)

/-- A net-ring doorbell: a consumer index below the ring's size returns slots (R78, R546). -/
def nrDoorbell (n v : Nat) (s : State) : Bool × State :=
  if nrSize n s ≤ v then (false, s)
  else
    let k := (v + nrSize n s - s.getF (Reg.capNrConsIndex n)) % nrSize n s
    let d := s.ringDyn (16 + n)
    (true, nrSignal n ((s.setF (Reg.capNrConsIndex n) v).setRing (16 + n) ⟨d.times.drop k, if k = 0 then d.signalled else false⟩))

/-- One 32-bit write to BAR4 (R47, R52, R55); `fs` is what core 0 will fetch for a command doorbell. A vector unmasked with its pending
bit set is signalled, as PCIe requires (R69). -/
def writeBar4 (a : Access) (fs : List Fetched) (s : State) : State :=
  let off := a.off
  if off = 0 ∨ off = 0x40 ∨ (0x100 ≤ off ∧ off < 0x300 ∧ off % 0x40 = 0) then
    if a.be % 16 ≠ 15 then accessFault a true s
    else
      let s := { s with bus := { s.bus with doorbells := spSet 0 s.bus.doorbells off a.data } }
      if off < 0x100 then doorbell (off / 0x40) a.data fs s
      else
        let r := nrDoorbell ((off - 0x100) / 0x40) a.data s
        if r.1 then r.2 else accessFault a true s
  else if 0x2000 ≤ off ∧ off < 0x2400 ∧ off % 4 = 0 then
    let k := off - 0x2000
    let d := if k % 16 = 12 then 1 else 0
    let s := { s with bus := { s.bus with msixTable := spSet d s.bus.msixTable k (mergeBytes (spGet d s.bus.msixTable k) a.data a.be) } }
    let v := k / 16
    if bit s.bus.pba v && !msixMasked s.bus v then
      { s with bus := { s.bus with pba := maskOf ((members s.bus.pba 64).filter (· ≠ v)) } }.signalVector v
    else s
  else if off = 0x3000 ∨ off = 0x3004 then s
  else accessFault a true s

/-- One 32-bit write: nothing where no byte is enabled; BAR2 is read only (R46). -/
def writeWord (a : Access) (fs : List Fetched) (s : State) : State :=
  if a.be % 16 = 0 then s
  else if a.bar = 2 || jtagShut a true s then accessFault a true s
  else if a.bar = 4 then writeBar4 a fs s
  else writeBar0 a s

/-- Whether two words at `off` are an RW pair, which a 64-bit write takes at once (R60). -/
def isPair (a : Access) : Bool :=
  a.bar = 0 && (match regAt a.off with | some d => d.kind = .pairLo | none => false)

/-- Further words of a write TLP, in ascending order (R53). -/
def writeMore (a : Access) : List (Nat × Nat) → State → State
  | [], s => s
  | (be, v) :: r, s =>
    let a := { a with off := a.off + 4, be := be, data := v }
    writeMore a r (writeWord a [] s)

/-- A write TLP of one word or more (R49, R53, R54, R60, R62): one of two words to an aligned pair takes effect at once; one longer than 4
bytes into the doorbell area of BAR4 is discarded whole. The manual does not say which data and byte enables the ACCESS_FAULT record of such a write
carries: DESIGN CHOICE (log entry 231), those of its first word. -/
def busWrite (a : Access) (more : List (Nat × Nat)) (s : State) : State :=
  if a.bar = 4 && decide (a.off < 0x1000) && more ≠ [] then accessFault a true s
  else if jtagShut a true s then writeMore a more (writeWord a [] s)
  else match more with
    | [(be, v)] =>
      if isPair a && a.off % 8 = 0 then pairCommit a.off v be (stage a.off (some (mergeBytes (s.regWord a.off) a.data a.be)) s)
      else writeMore a more (writeWord a [] s)
    | _ => writeMore a more (writeWord a [] s)

/-- What the buses do while main reset holds: nothing (R692). -/
def whileUp (f : State → State) (s : State) : Out := .next (if s.boot.inReset then s else f s)

/-! ### Register rows -/

/-- REGISTER_WRITE (R51, R56). -/
def execRegisterWrite (a : Access) (more : List (Nat × Nat)) (s : State) : Out := whileUp (busWrite a more) s

/-- UNMAPPED_READ (R55). -/
def execUnmappedRead (a : Access) (s : State) : Out := whileUp (busRead a []) s

/-- UNMAPPED_WRITE (R55). -/
def execUnmappedWrite (a : Access) (s : State) : Out := whileUp (busWrite a []) s

/-- READ_ONLY_WRITE (R56). -/
def execReadOnlyWrite (a : Access) (s : State) : Out := whileUp (busWrite a []) s

/-- PARTIAL_W32_WRITE (R52). -/
def execPartialW32Write (a : Access) (s : State) : Out := whileUp (busWrite a []) s

/-- BAR2_WRITE (R46). -/
def execBar2Write (a : Access) (s : State) : Out := whileUp (busWrite { a with bar := 2 } []) s

/-- BAR4_LONG_WRITE (R54). -/
def execBar4LongWrite (a : Access) (more : List (Nat × Nat)) (s : State) : Out := whileUp (busWrite { a with bar := 4 } more) s

/-- LATCHING_LO_READ (R57); any other read is the same operation on another register (R50, R58). -/
def execLatchingLoRead (a : Access) (more : List Nat) (s : State) : Out := whileUp (busRead a more) s

/-- PAIR_LO_WRITE (R60). -/
def execPairLoWrite (a : Access) (s : State) : Out := whileUp (busWrite a []) s

/-- PAIR_HI_WRITE (R60). -/
def execPairHiWrite (a : Access) (s : State) : Out := whileUp (busWrite a []) s

/-- KEYED_A_WRITE (R63). -/
def execKeyedAWrite (a : Access) (s : State) : Out := whileUp (busWrite a []) s

/-- KEYED_B_WRITE (R61, R63). -/
def execKeyedBWrite (a : Access) (s : State) : Out := whileUp (busWrite a []) s

/-- KEYED_PAIR_WRITE64: _A and then _B in one CCLK (R62). -/
def execKeyedPairWrite64 (a : Access) (be data : Nat) (s : State) : Out := whileUp (busWrite a [(be, data)]) s

/-- KEYED_SEQUENCE_TIMEOUT: no _B write 64 CCLK after the _A write (R63). -/
def execKeyedSequenceTimeout (off : Nat) (path : Path) (s : State) : Out := whileUp (keyExpire 32 off path) s

/-- GD_LOCK_SET (R64, R65). -/
def execGdLockSet (a : Access) (s : State) : Out := whileUp (busWrite a []) s

/-- HST_RESET: a keyed write of its pair; the value 1 brings main reset 10 µs later (R698). -/
def execHstReset (a : Access) (be data : Nat) (s : State) : Out := whileUp (busWrite a [(be, data)]) s

/-- EVR_RING_ENABLE (R71). -/
def execEvrRingEnable (a : Access) (s : State) : Out := whileUp (busWrite a []) s

/-- EVR_CONS_WRITE (R74). -/
def execEvrConsWrite (a : Access) (s : State) : Out := whileUp (busWrite a []) s

/-- TT_REC_RING_ENABLE (R271). -/
def execTtRecRingEnable (a : Access) (s : State) : Out := whileUp (busWrite a []) s

/-- TT_REC_CONS_WRITE (R74). -/
def execTtRecConsWrite (a : Access) (s : State) : Out := whileUp (busWrite a []) s

/-- FT_LRN_RING_ENABLE (R450). -/
def execFtLrnRingEnable (a : Access) (s : State) : Out := whileUp (busWrite a []) s

/-- FT_LRN_CONS_WRITE (R74). -/
def execFtLrnConsWrite (a : Access) (s : State) : Out := whileUp (busWrite a []) s

/-- EM_R_CONS_WRITE (R384). -/
def execEmRConsWrite (a : Access) (s : State) : Out := whileUp (busWrite a []) s

/-- EVD_R_CONS_WRITE (R567). -/
def execEvdRConsWrite (a : Access) (s : State) : Out := whileUp (busWrite a []) s

/-- NR_DOORBELL (R546). -/
def execNrDoorbell (a : Access) (s : State) : Out := whileUp (busWrite { a with bar := 4 } []) s

/-- SNAP_TRIGGER (R141). -/
def execSnapTrigger (a : Access) (s : State) : Out := whileUp (busWrite a []) s

/-- SNAP_ARM (R141). -/
def execSnapArm (a : Access) (s : State) : Out := whileUp (busWrite a []) s

/-- STAMP_FIFO_POP (R194). -/
def execStampFifoPop (a : Access) (s : State) : Out := whileUp (busWrite a []) s

/-- EM_FIFO_POP (R194). -/
def execEmFifoPop (a : Access) (s : State) : Out := whileUp (busWrite a []) s

/-- HTX_RING_ENABLE (R418). -/
def execHtxRingEnable (a : Access) (s : State) : Out := whileUp (busWrite a []) s

/-- HTX_TAIL_WRITE (R418). -/
def execHtxTailWrite (a : Access) (s : State) : Out := whileUp (busWrite a []) s

/-! ### Mailbox rows -/

/-- MBX_DOORBELL: one W32 write to a queue's doorbell, with the entries core 0 will fetch (R89 to R91, R117). -/
def execMbxDoorbell (a : Access) (fs : List Fetched) (s : State) : Out := whileUp (writeWord { a with bar := 4 } fs) s

/-- MBX_QUEUE_ENABLE (R87). -/
def execMbxQueueEnable (a : Access) (s : State) : Out := whileUp (busWrite a []) s

/-- MBX_QUEUE_DISABLE (R88). -/
def execMbxQueueDisable (a : Access) (s : State) : Out := whileUp (busWrite a []) s

/-- CQ_CONS_WRITE (R74, R90). -/
def execCqConsWrite (a : Access) (s : State) : Out := whileUp (busWrite a []) s

/-! ### PCIe configuration -/

/-- What the PCIe endpoint function shows the host (R41, R42): IDs, class code, largest payload and read request in bytes, tag bits and outstanding
requests, link generation and width, MSI-X vectors, extended capabilities, and the Local Clock Granularity of PTM in ns. -/
structure PcieFunction where
  vendor : Nat
  device : Nat
  classCode : Nat
  subVendor : Nat
  subDevice : Nat
  maxPayload : Nat
  maxRead : Nat
  tagBits : Nat
  outstanding : Nat
  linkGen : Nat
  linkWidth : Nat
  vectors : Nat
  capabilities : List String
  serial : Nat
  ptmGranularity : Nat
  deriving DecidableEq, Repr

/-- The endpoint function of the device as it stands (R41, R42). -/
def pcieFunction (s : State) : PcieFunction where
  vendor := 0x1E5A
  device := 0x4825
  classCode := 0x028000
  subVendor := s.boot.board.subVendor
  subDevice := s.boot.board.subDevice
  maxPayload := 512
  maxRead := 4096
  tagBits := 10
  outstanding := 256
  linkGen := 5
  linkWidth := 4
  vectors := 64
  capabilities := ["AER", "PTM Requester", "ARI", "Device Serial Number"]
  serial := Config.serial
  ptmGranularity := 1

/-! ### SMBus -/

/-- The SMBus target answers a block read. -/
def smbAnswer (b : Bytes) (s : State) : State := { s with bus := { s.bus with answer := b } }

/-- The blocks SMBus command 0x11 reads (R81). -/
def smbBlock (off : Nat) : Bool :=
  decide (off < 0x20000) || (decide (0x110000 ≤ off) && decide (off < 0x130000)) || (decide (0x900000 ≤ off) && decide (off < 0xA10000)) ||
  (decide (0xB00000 ≤ off) && decide (off < 0xB10000)) || (decide (0xC00000 ≤ off) && decide (off < 0xC10000)) ||
  (decide (0xE00000 ≤ off) && decide (off < 0xE10000))

/-- Whether the target is the one addressed: by the address of the configuration record, or 0x5A without one (R79). -/
def smbMine (addr : Nat) (s : State) : Bool := addr = s.boot.board.smbAddr

/-- The target takes no part in a transaction, or NACKs it, without any other effect (R79, R83). -/
def smbNack (b : Bool) (s : State) : State := { s with bus := { s.bus with smbNack := b } }

/-- A block read addressed to the target, which acknowledges it; one addressed elsewhere goes unanswered. -/
def smbRead (addr : Nat) (f : State → State) (s : State) : Out :=
  whileUp (fun s => if smbMine addr s then f (smbNack false s) else smbNack true s) s

/-- A block write addressed to the target: with a wrong PEC it is NACKed and has no effect (R79). -/
def smbWrite (addr : Nat) (good : Bool) (f : State → State) (s : State) : Out :=
  whileUp (fun s => if smbMine addr s && good then f (smbNack false s) else smbNack true s) s

/-- SMBUS_IDENTITY_READ: HST_ID and the serial number (R80). -/
def execSmbusIdentityRead (addr : Nat) (s : State) : Out :=
  smbRead addr (fun s => smbAnswer (le 4 (s.regWord 0) ++ le 8 Config.serial) s) s

/-- SMBUS_STATUS_READ: HST_STATUS, both QCs, TSTAT and GD_STATUS (R80). -/
def execSmbusStatusRead (addr : Nat) (s : State) : Out :=
  smbRead addr (fun s => smbAnswer (le 4 (s.regWord 4) ++ le 1 (s.qc 0) ++ le 1 (s.qc 1) ++ le 1 s.refs.tstat ++ le 1 (s.regWord 0x10004 % 256)) s) s

/-- SMBUS_TEMPERATURE_READ: the highest and lowest junction temperature in 1/16 °C (R80). -/
def execSmbusTemperatureRead (addr : Nat) (high low : Int) (s : State) : Out := smbRead addr (smbAnswer (leI 2 high ++ leI 2 low)) s

/-- SMBUS_OFFSET_WRITE: the offset for command 0x11; a transaction with a wrong PEC has no effect (R79, R80). -/
def execSmbusOffsetWrite (addr : Nat) (good : Bool) (off : Nat) (s : State) : Out :=
  smbWrite addr good (fun s => { s with bus := { s.bus with smbOffset := off % 2 ^ 32 } }) s

/-- SMBUS_REGISTER_READ: the register at the offset set, in the blocks of R81; anywhere else all ones with ACCESS_FAULT. -/
def execSmbusRegisterRead (addr : Nat) (s : State) : Out :=
  smbRead addr (fun s =>
    let a : Access := ⟨.smbus, 0, s.bus.smbOffset, 15, 0⟩
    if smbBlock s.bus.smbOffset then busRead a [] s else smbAnswer (le 4 (2 ^ 32 - 1)) (accessFault a false s)) s

/-- One command entry is taken (R83); an opcode that is not assigned waits for its answer (R117). -/
def smbTake (e : Fetched) (s : State) : State :=
  let s := { s with bus := { s.bus with smbBusy := true, smbTag := fetchedTag e, smbAt := s.dtt }
                    mbx := { s.mbx with smbResumed := false } }
  match e with
  | .unassigned op c => { s with mbx := { s.mbx with odd := s.mbx.odd ++ [⟨2, 0, some (op, { c with src := .smbus })⟩] } }
  | _ => s

/-- SMBUS_COMMAND_WRITE: one command entry is taken; while one is in progress the write is NACKed (R83). Its meaning is its own row's, with SMBus
as its source. -/
def execSmbusCommandWrite (addr : Nat) (good : Bool) (e : Fetched) (s : State) : Out :=
  smbWrite addr good (fun s => if s.bus.smbBusy then smbNack true s else smbTake e s) s

/-- SMBUS_COMMAND_STATUS: status of the last command 0x20, 0xFFFF while in progress, and the first 32 bytes of its completion entry (R80). Before
any command 0x20 the manual gives no answer: DESIGN CHOICE (log entry 232), status 0 and 32 bytes of 0. -/
def execSmbusCommandStatus (addr : Nat) (s : State) : Out :=
  smbRead addr (fun s => smbAnswer (le 2 (if s.bus.smbBusy then 0xFFFF else s.bus.smbStatus) ++ record 32 [(0, s.bus.smbCompletion.take 32)]) s) s

/-- The SMBus command whose opcode is not assigned is answered at a decision point (R83, R109, R117). -/
def serveOddSmb (s : State) : State :=
  if s.mbx.ackWait = none && s.mbx.held = none && serving s && smbTurn s then
    match s.mbx.odd.find? (fun e => e.q = 2) with
    | some ⟨_, _, some (op, c)⟩ =>
      let s := { s with mbx := { s.mbx with odd := s.mbx.odd.filter (fun e => e.q ≠ 2) } }
      let r := match entryFault c with | some d => (stBadArg, d) | none => (stBadOpcode, 0)
      finish op c 0 (startStamp c s) (8 * b2n (resumes c s)) none (failWith r.1 r.2) s
    | _ => s
  else s

end Sys2Proof.Machine
end

