-- ==== Sys2Proof/Machine/Import.lean ====
section
/-! DEFINITION. The configuration record region of the flash at a start (R645, R703): the record's board settings (R41, R79, R699, R700), and the
translation of an FK2410 configuration image into commands (R2, R3, R703). -/

set_option Elab.async false

namespace Sys2Proof.Machine

/-- The bytes of the configuration record region that are not erased, by offset in it (R645). -/
def recordRegion (s : State) : List (Nat × Nat) :=
  (s.fw.flash.filter (fun e => decide (0x20000 ≤ e.1) && decide (e.1 < 0x30000))).map (fun e => (e.1 - 0x20000, e.2))

/-- Whether the region holds an FK2410 image: its first 4 bytes are 46 32 34 31 (R703). -/
def isImage (l : List (Nat × Nat)) : Bool :=
  [(0, 0x46), (1, 0x32), (2, 0x34), (3, 0x31)].all (fun e => spGet 0xFF l e.1 = e.2)

/-- The board settings that a region gives: none of them with an erased region or an image (R41, R79, R703). -/
def boardOf (l : List (Nat × Nat)) : Board :=
  if l = [] ∨ isImage l = true then Board.reset
  else ⟨(Config.recordIds l).1 % 65536, (Config.recordIds l).2 % 65536, Config.recordSmbAddr l % 128, Config.recordDdr l % 4, Config.recordDdrTest l⟩

/-- Ports 0 to 23 of the FK2410: port n becomes Pn (R2, R703). -/
def imagePorts (p : Nat) : Bool := decide (p < 24)

/-- Commands of one port of a port settings section: 10GBASE-R without FEC; forwarding for an enabled port, CT clear (R2, R703). -/
def portCommands (part p : Nat) (x : Config.ImagePort) : List ImageCmd :=
  [⟨part, 0x0801, [(p : Nat), 2, 0, 0].flatMap (le 1)⟩,
   ⟨part, 0x0901, record 40 [(0, le 1 p), (1, le 1 (if x.enabled then 3 else 0)), (2, le 2 x.maxFrame), (4, le 2 (x.pvid % 4096)), (6, le 1 x.accept)]⟩]

/-- Member ports of an image's mask, with the host member as source 48 (R703). -/
def memberMask (ports : Nat) (host : Bool) : Nat := ports % 2 ^ 24 + 2 ^ 48 * b2n host

/-- The command of a VLAN: VALID, FLOOD_UC, FLOOD_MC and LEARN set (R703). Of the untagged members R703 says nothing: DESIGN CHOICE (log entry 255), they are
taken over as the members are. -/
def vlanCommand (part : Nat) (v : Config.ImageVlan) : ImageCmd :=
  ⟨part, 0x0902, record 28 [(0, le 2 v.vid), (2, le 1 29), (4, le 7 (memberMask v.ports v.host)),
    (12, le 7 (memberMask (maskOf ((members v.untagged 24).filter (fun p => bit v.ports p))) (v.host && v.hostUntagged)))]⟩

/-- The command of a link aggregation group: HASH_SEL DMAC, SMAC and VLAN, the 64 table entries spread over the members in ascending port order (R703), one
after the other in turn (DESIGN CHOICE, log entry 255). -/
def lagCommand (part : Nat) (g : Nat × Nat) : ImageCmd :=
  let ms := members g.2 24
  ⟨part, 0x0903, record 80 [(0, le 1 g.1), (1, le 1 1), (2, le 2 7), (4, le 6 (g.2 % 2 ^ 24)),
    (16, (List.range 64).flatMap (fun e => le 1 (ms.getD (e % max 1 ms.length) 0)))]⟩

/-- The command of a static MAC entry: TYPE 1 with STATIC; a port destination becomes PORT, a group destination LAG (R703). GEN, which R464 leaves to the host,
is 0 (DESIGN CHOICE, log entry 255). -/
def macCommand (part : Nat) (m : Config.ImageMac) : ImageCmd :=
  ⟨part, 0x0A01, record 40 [(0, le 1 1), (1, le 1 1), (2, le 2 (m.vid % 4096)), (4, be 6 m.mac), (36, le 1 (b2n m.group)), (38, le 2 m.dest)]⟩

/-- Commands of a queue: mode, weight and shaper kept; PCP_MASK, MIN, α, MAX, ECN_AT and SPILL_MAX at their reset values (R703). -/
def queueCommands (part : Nat) (q : Config.ImageQueue) : List ImageCmd :=
  [⟨part, 0x0B02, record 20 [(0, le 1 q.port), (1, le 1 q.queue), (2, le 1 (b2n q.dwrr)), (3, le 1 q.weight), (4, le 1 7), (5, le 1 (2 ^ q.queue)), (6, le 2 16)]⟩,
   ⟨part, 0x0B03, record 12 [(0, le 1 q.port), (1, le 1 q.queue), (4, le 4 q.rate), (8, le 4 q.burst)]⟩]

/-- Commands of section `part` of an image (R703); those of ports and groups that an FK2410 has. -/
def sectionCommands (part : Nat) : Config.ImageSection → List ImageCmd
  | .ports l => ((List.range l.length).filter imagePorts).flatMap (fun p => portCommands part p (l.getD p ⟨false, 0, 0, 0⟩))
  | .vlans l => l.map (vlanCommand part)
  | .lags l => (l.filter (fun g => decide (g.1 < 12))).map (lagCommand part)
  | .macs l => l.map (macCommand part)
  | .queues l => (l.filter (fun q => imagePorts q.port && decide (q.queue < 8))).flatMap (queueCommands part)
  | .other => []

/-- The image's sections, numbered in the order they stand in it. -/
def imageSections (l : List (Nat × Nat)) : List (Nat × Config.ImageSection) :=
  let ss := Config.imageSections l
  List.zip (List.range ss.length) ss

/-- The region is looked at as a start begins (R703): the board settings, and of an FK2410 image the commands it becomes, its sections, and those the
table does not name. -/
def readRecord (s : State) : State :=
  let l := recordRegion s
  if isImage l then
    let ss := imageSections l
    { s with boot := { s.boot with board := boardOf l, cfgImage := true, image := ss.flatMap (fun e => sectionCommands e.1 e.2), sections := ss.length,
                                    skipped := (ss.filter (fun e => e.2 = .other)).length, refused := [] } }
  else { s with boot := { s.boot with board := boardOf l, cfgImage := false, image := [], sections := 0, skipped := 0, refused := [] } }

end Sys2Proof.Machine
end

