-- ==== Sys2Proof/Machine/Bringup.lean ====
section
/-! DEFINITION. Bring-up and reset: the ordering hold of event records (R76 to R78), the host interface's reset (R44, R696), a restart
of Leinnar (R120, R660, R663), main reset and the start-up timeline (R691 to R710), and what passes with a tick of DTT. -/

set_option Elab.async false

namespace Sys2Proof.Machine

/-! ### Event records -/

/-- Whether a record's STAMP is earlier than that of a record already written (R77). -/
def isLate (e : EventRec) (s : State) : Bool := match s.evu.newest with | some n => decide (e.stamp < n) | none => false

/-- EVENT_RECORD_WRITE: the first held record in order passes to the ring once DTT has passed its STAMP by 2,048 ticks
(R76), with LATE where a later one has been written already (R77). -/
def execEventRecordWrite (s : State) : Out :=
  match firstHeld s.evu.held with
  | none => .next s
  | some e =>
    if s.dtt < e.stamp + 2048 then .next s
    else .next (evrPass { e with late := isLate e s } { s with evu := { s.evu with held := s.evu.held.erase e } })

/-- EVENT_RECORD_LATE: a held record that is earlier than one already written passes at once, with LATE set (R77). -/
def execEventRecordLate (s : State) : Out :=
  match firstHeld s.evu.held with
  | none => .next s
  | some e =>
    if isLate e s = false then .next s
    else .next (evrPass { e with late := true } { s with evu := { s.evu with held := s.evu.held.erase e } })

/-- RING_HOLDOFF_EXPIRY: the hold-off of a ring has passed: its interrupt condition is looked at again (R78). Rings are numbered as in
`State.rings`. -/
def execRingHoldoffExpiry (ring : Nat) (s : State) : Out :=
  .next (if ring = 0 then ringSignal evrRing s
    else if ring = 1 ∨ ring = 2 then ringSignal (cqRing (ring - 1)) s
    else if ring = 3 then ringSignal ttRing s
    else if ring = 4 then ringSignal learnRing s
    else if 16 ≤ ring ∧ ring < 24 then nrSignal (ring - 16) s
    else if 24 ≤ ring ∧ ring < 32 then emSignal (ring - 24) s
    else s)

/-! ### The host interface alone -/

/-- Registers that a reset of the host interface returns to their reset values: the event ring's, both queues', the net rings' (R44). -/
def isHostIf (off : Nat) : Bool :=
  (decide (0x40 ≤ off) && decide (off < 0x58)) || (decide (0x20000 ≤ off) && decide (off < 0x20200)) ||
  (decide (0x810000 ≤ off) && decide (off < 0x820000))

/-- Rings that follow them: the event ring, both completion rings, the net rings. -/
def isHostRing (r : Nat) : Bool := decide (r ≤ 2) || (decide (16 ≤ r) && decide (r < 24))

/-- An empty command queue. -/
def emptyQueue : Queue := ⟨0, [], [], [], false⟩

/-- A command of a queue. -/
def fromQueue (c : Cmd) : Bool := c.src = .urgent || c.src = .general

/-- The host interface returns to its reset state: commands in progress run on, their completion entries are discarded; everything else
goes on (R44). The read shadow of the PCIe path (R58), its staged words and its open keyed sequences are not named in R44: DESIGN CHOICE (log entries 23
and 233), they go with the interface. -/
def hostIfReset (s : State) : State :=
  let b := s.bus
  let m := s.mbx
  { s with
    regs := s.regs.filter (fun e => !isHostIf (e.1 / 32))
    rings := s.rings.filter (fun e => !isHostRing e.1)
    netRings := []
    bus := { b with shadows := b.shadows.filter (fun x => decide (x.1 ≠ Path.pcie.ctorIdx)), staging := [], keyed := b.keyed.filter (fun k => k.path ≠ .pcie),
                    doorbells := [], msixTable := [], pba := 0 }
    mbx := { m with urgent := emptyQueue, general := emptyQueue, odd := m.odd.filter (fun e => decide (2 ≤ e.q)),
                    longOp := m.longOp.map (fun o => { o with dropped := o.dropped || fromQueue o.cmd }),
                    held := m.held.map (fun h => { h with dropped := h.dropped || fromQueue h.cmd }),
                    ackWait := m.ackWait.map (fun w => { w with dropped := w.dropped || fromQueue w.cmd }) } }

/-- HOST_IF_RESET: a Function Level Reset or the loss of the PCIe link (R44, R709). -/
def execHostIfReset (s : State) : Out := whileUp hostIfReset s

/-- PCIE_PERST: PCIE_PERSTn resets the host interface alone (R696, R709). -/
def execPciePerst (s : State) : Out := whileUp hostIfReset s

/-! ### Leinnar restarts from flash -/

/-- LEINNAR_RESTART: at the decision point after HST_RESTART_MGMT, or for an uncorrectable error in management memory; a trial that has
such an error falls back (R619, R660, R663). A handover in progress is given up. -/
def execLeinnarRestart (s : State) : Out :=
  if s.isF Reg.hstStatusFwRun = false ∨ !(s.mp.restart || (s.fw.restartDue && decisionPoint s)) then .next s
  else if s.mp.restart = true ∧ s.getF Reg.fwStatePhase = 4 then
    .next (trialFails 3 { s with fw := { s.fw with restartDue := false }, mp := { s.mp with restart := false } })
  else
    let s := leinnarStop (setPhase 0 5 0 (endTrial s))
    .next { s with fw := { s.fw with back := false } }

/-- Whether the slot of the next start is one Leinnar is loaded from: VALID, ACTIVE or on TRIAL, a Leinnar instar, and passing tests 1
to 6 of R651 (R669). -/
def startSlotOk (s : State) : Bool :=
  let n := s.fw.next
  let st := (s.slot n).state
  decide (n < 2) && (st = 2 || st = 3 || st = 4) && slotFault n s = 0

/-- Leinnar runs from slot `n`: ACTIVE, or on TRIAL where it has not been confirmed (R662); no other slot is on trial any more. -/
def runsFrom (n : Nat) (s : State) : State :=
  let other := 1 - n
  let s := if (s.slot other).state = 4 then slotState other 2 s else s
  let s := putSlot n { s.slot n with fails := 0 } s
  let s := (s.setF Reg.fwStateRun n).setB Reg.hstStatusFwRun true
  let s := { s with fw := { s.fw with starting := false, resident := false }, dpll := { s.dpll with holdStart := none } }
  if (s.slot n).state = 3 then s
  else
    let s := slotState n 4 { s with fw := { s.fw with target := n, prev := if s.fw.prev = n then other else s.fw.prev } }
    beginTrial (setPhase 4 2 0 s)

/-- The command that was executing when the restart began, where it was not stepped, completes with ST_INTERNAL and DETAIL 4 (R120). -/
def heldLost (s : State) : State := resumeHeld (failWith stInternal 4) s

/-- The step store, memory 11, is read: a stepped command goes on from a step record that passes its check, and completes with ST_INTERNAL and
DETAIL 3 otherwise (R120, R619). -/
def longAfterRestart (s : State) : State :=
  match s.mbx.longOp with
  | none => s
  | some o =>
    let s := (List.range 128).foldl (fun s k => (mpRead (mpWord 11 k) false s).2) s
    if o.recordOk && (s.mbx.longOp.map (·.recordOk)) = some true then { s with mbx := { s.mbx with longOp := some { o with resumed := true } } }
    else longEnds stInternal 3 0 false o s

/-- LEINNAR_RESTART_DONE: the slot of the next start has been checked; Leinnar runs from it with its sequencers loaded (R659, R660, R669),
and commands go on as R120 lays down; a start that fails is counted (R663). The first start is followed by start-up calibration. -/
def execLeinnarRestartDone (s : State) : Out :=
  if s.fw.starting = false ∨ s.boot.inReset = true ∨ s.boot.bootSel = true then .next s
  else if startSlotOk s = false then .next (startFails s)
  else
    let s := runsFrom s.fw.next s
    let s := if s.isF Reg.hstStatusReady then calReload s else if s.cal.runs = [] then calStartup s else calReload s
    .next (emptyEnds 1 (emptyEnds 0 (longAfterRestart (heldLost s))))

/-! ### Main reset -/

/-- The device under main reset (R692, R704): every part at its reset state but what is kept: the always-on domain, the evidence module's
store, the flash, and host memory. -/
def underReset (s : State) : State :=
  { State.reset with
    pending := s.pending, hostMem := s.hostMem, freeCount := s.freeCount
    evd := { State.reset.evd with epoch := s.evd.epoch, reserve := s.evd.reserve }
    fw := { Firmware.reset with flash := s.fw.flash, slots := s.fw.slots, dirSeq := s.fw.dirSeq, next := s.fw.next, auto := s.fw.auto,
                                healthS := s.fw.healthS, prev := s.fw.prev }
    sec := { State.reset.sec with owner := s.sec.owner, ownerNv := s.sec.ownerNv, svn := s.sec.svn, zeroised := s.sec.zeroised,
                                  tamperDue := s.sec.tamperDue }
    ao := s.ao
    boot := { State.reset.boot with cause := s.boot.cause } }

/-- Main reset is asserted for a cause; of several that hold at once the lowest is recorded (R697). -/
def mainReset (cause : Nat) (s : State) : State :=
  let c := if s.boot.inReset then min s.boot.cause cause else cause
  showAo (showSec (underReset { s with boot := { s.boot with cause := c } }))

/-- MAIN_RESET_ASSERT: PWRGD low (1), RSTn low (2), 10 µs (7,812.5 ticks) after an accepted HST_RESET (3), or a thermal reset (4) (R691,
R697, R698). -/
def execMainResetAssert (cause : Nat) (s : State) : Out :=
  let ok : Bool := match cause with
    | 1 => true
    | 2 => true
    | 3 => (match s.boot.hstResetAt with | some t => decide (t + 7813 ≤ s.dtt) | none => false)
    | 4 => true
    | _ => false
  .next (if ok then mainReset cause s else s)

/-- THERMAL_RESET: a sensor has read above 125 °C for 1 ms (R695). -/
def execThermalReset (s : State) : Out := .next (mainReset 4 s)

/-- The flash as it has been programmed from outside before the start. -/
def programFlash (b : BootIn) (s : State) : State :=
  if b.programmed then
    { s with fw := { s.fw with
      flash := b.flash.foldl (fun f e => spSet 0xFF f e.1 (e.2 % 256)) []
      slots := (List.range 5).map (fun n => let x := b.slots.getD n (0, 0, 0, 0); ⟨x.1 % 8, x.2.1 % 2 ^ 32, x.2.2.1 % 256, x.2.2.2 % 256⟩)
      next := b.next % 2 } }
  else s

/-- Straps and the always-on domain are read (R694, R699 step 1): contents found lost show as AO_LOST, and the owner lock comes back from
the evidence module's store (R680). -/
def readStraps (b : BootIn) (s : State) : State :=
  let lost := s.ao.lost
  let owner := if lost then s.sec.ownerNv else s.sec.owner
  let jtagOff : Bool := owner.hash ≠ [] && bit owner.policy 2
  { s with
    sec := { s.sec with owner := owner }
    ao := { s.ao with lost := false, tick := max s.ao.tick b.aoTick, xtalOk := b.xtal, anchorValid := s.ao.anchorValid && b.xtal }
    boot := { s.boot with inReset := false, aoLost := lost, bootSel := b.bootSel && !jtagOff } }

/-- MAIN_RESET_RELEASE: t0 of a start (R691, R694, R699 step 1): DTT is 0; the configuration region is looked at (R703); the inner loop searches every band
before its first lock (R316); Leinnar is about to be loaded unless BOOT_SEL stops it. -/
def execMainResetRelease (b : BootIn) (s : State) : Out :=
  if s.boot.inReset = false then .next s
  else
    let s := readRecord (readStraps b (programFlash b (underReset s)))
    let s := (List.range 5).foldl (fun s n => showSlot n s) (s.setF Reg.fwStateNext s.fw.next)
    let s := s.setB Reg.plStatusSearch true
    .next (showAo (showSec { s with dpll := { s.dpll with searchAll := true }, fw := { s.fw with starting := !s.boot.bootSel },
                                     refs := { s.refs with tstat := 15 } }))

/-! ### The start-up timeline -/

/-- A word that fails the patterns of R622 is marked STUCK, or its cell is quarantined (R617, R619). -/
def testFails (w : Nat × Nat) (s : State) : State :=
  if w.1 = 0 then quarChip (w.2 / 4) s
  else if w.1 = 1 then quarHold (w.2 / 4) s
  else mpStick (mpWord w.1 w.2) false s

/-- Memory and checker tests (R622): with a checker failing, or more than 64 failing words in an on-chip memory, MP_BIST_FAIL is raised
and READY never rises. Words of memory 12 are those that DDR_TEST found, where the record sets it (R700). -/
def memoryTests (t : StartTests) (s : State) : State :=
  let ws := t.words.filter (fun w => decide (w.1 < 13) && decide (w.2 < mpWords w.1) && (w.1 ≠ 12 || (s.boot.board.ddrTest && s.boot.board.ddrListed ≠ 0)))
  let worst := (List.range 12).find? (fun m => decide (64 < (ws.filter (fun w => w.1 = m)).length))
  let fails (m addr kind : Nat) : State := raiseEv 128 3 0x1006 [(20, le 1 m), (22, le 1 kind), (24, le 8 addr)] s
  match worst, t.checker with
  | some m, _ => fails m (((ws.filter (fun w => w.1 = m)).map (·.2)).headD 0) 1
  | none, some m => fails m 0 2
  | none, none => (ws.foldl (fun s w => testFails w s) s).setB Reg.mpStatusBistOk true

/-- The evidence module starts (R564, R683, R687): self-tests, actions of tamper inputs that wait, and the first block. -/
def moduleStarts (test : Nat) (s : State) : State :=
  let s := if s.sec.zeroised then s else if test % 7 = 0 then evdPasses s else evdFails (test % 7) s
  let due := s.sec.tamperDue
  let s := due.foldl (fun s n => tamperActs n s) { s with sec := { s.sec with tamperDue := [] } }
  if s.sec.zeroised ∨ s.isF Reg.gdSecStatusEvdError = true then s else openEpoch s

/-- The time of the first segments at AO tick `tick`, in 2⁻¹⁶ ns: the anchor's with the ticks since, of 30.517578125 µs each; 0 without a
valid anchor (R707). -/
def startTime (tick : Nat) (s : State) : Int :=
  if s.ao.anchorValid then
    let f := s.ao.anchor.ft
    let t0 : Int := ((f / 2 ^ 48 * 10 ^ 9 + f / 2 ^ 16 % 2 ^ 32) * 2 ^ 16 + f % 2 ^ 16 : Nat)
    max 0 (t0 + ((tick : Int) - (s.ao.anchor.tick : Int)) * 2000000000)
  else 0

/-- Domain `d` opens its first segment now. -/
def firstSegment (d : Nat) (t : Int) (s : State) : State := openSegment d s.now80 t 0 (s.setDom d { s.dom d with segs := [] })

/-- FIRST_SEGMENT_OPEN: at the first AO tick edge after the first inner-loop lock both domains' times begin (R707), and step 4 of R699
follows. -/
def execFirstSegmentOpen (tick : Nat) (t : StartTests) (s : State) : Out :=
  if s.boot.inReset = true ∨ s.boot.opened = true ∨ s.dpll.everLocked = false then .next s
  else
    let t0 := startTime tick s
    let s := { s with ao := { s.ao with tick := max s.ao.tick tick }, boot := { s.boot with opened := true } }
    let s := firstSegment 1 t0 (firstSegment 0 t0 s)
    .next (moduleStarts t.evdTest (memoryTests t (showAo s)))

/-- READY: the end of start-up (R699 step 11, R701): `ddr` names the DDR5 channels that trained, of those the configuration record lists. With an FK2410 image
every command that it became has ended; FW_CFG_IMPORT counts its sections (R666, R703). -/
def execReady (ddr : Nat) (s : State) : Out :=
  if s.boot.inReset = true ∨ s.isF Reg.hstStatusReady = true ∨ s.isF Reg.hstStatusFwRun = false ∨ s.boot.opened = false ∨
      s.isF Reg.mpStatusBistOk = false ∨ s.cal.runs.any (fun r => r.origin = 1) = true ∨ s.boot.image ≠ [] ∨ s.mbx.longOp.isSome = true ∨
      s.mbx.held.isSome = true then .next s
  else
    let b := s.boot
    let s := { s with boot := { b with ddr := maskOf ((members ddr 2).filter (fun k => bit b.board.ddrListed k)) } }
    let missed := b.skipped + b.refused.length
    let s := if b.cfgImage then raiseEv 130 (if missed = 0 then 0 else 1) 0x1205 [(24, le 4 (b.sections - missed)), (28, le 4 missed)] s else s
    .next ((s.setB Reg.hstStatusReady true).raiseBit Reg.hstIrqStatusReadyChg)

/-- TAP_RESET: TRST resets the TAP alone, and everything else continues (R709). -/
def execTapReset (s : State) : Out := .next s

/-! ### A tick of DTT -/

/-- What a tick brings beside the count: changes of RATE whose spacing has passed (R128), moving interpolators (R220), locked checkers (R225), threshold counters,
sums over the last millisecond or second, samples that repeat, frames the management shaper holds, the interrupt conditions of input rings, a trial's time. -/
def follow (s : State) : State :=
  let s := rateTick 1 (rateTick 0 s)
  let s := (List.range 52).foldl (fun s n => prbsTick n (showPi n s)) s
  let s := thresholdTick s
  let s := (List.range 16).foldl (fun s g => showHoldMin g s) s
  admitOld (learnSecond (inputsTick (mgmtDrain 64 (servoTick (rollRates (showSpill (showTrial s)))))))

/-- One tick: DTT advances by one (R17, R19); a mirrored command that both twins have finished completes (R122); core 0 serves entries that are no assigned command (R117). Nothing happens while main reset
holds. -/
def tick (s : State) : State :=
  if s.boot.inReset then s
  else serveOddSmb (serveOdd 1 (serveOdd 0 (ackMet (follow { s with dtt := s.dtt + 1 }))))

end Sys2Proof.Machine
end

