-- ==== Sys2Proof/Machine/Dpll.lean ====
section
/-! DEFINITION. Timing DPLL and outputs: the inner stability loop (R313 to R318), the 1 ms servo update (R130, R148, R158,
R299, R306), the output synthesizers, clock and pulse outputs (R326 to R339) and time of day (R332, R333). -/

set_option Elab.async false

namespace Sys2Proof.Machine

/-! ### Inner loop -/

/-- The fine code is shown; beyond 90 % of the band's range MARGIN is set, with PL_BAND_MARGIN once (R318). -/
def showFine (fine : Nat) (margin : Bool) (s : State) : State :=
  let s := s.setF Reg.plStatusFine fine
  if margin && !s.isF Reg.plStatusMargin then
    raiseEv 98 1 0x0502 [(22, le 1 (s.getF Reg.plStatusBand)), (24, le 2 (s.getF Reg.plStatusFine))] (s.setB Reg.plStatusMargin true)
  else s

/-- What runs under the inner loop's lock notes its loss: open frequency gates (R389) and calibration parts (R629). -/
def lockLost (s : State) : State :=
  { s with
    em := { s.em with inputs := s.em.inputs.map (fun e => (e.1, { e.2 with gate := e.2.gate.map (fun g => { g with bad := g.bad || decide (g.opens ≤ s.dtt) }) })) }
    cal := { s.cal with runs := s.cal.runs.map (fun r => { r with lost := true }) } }

/-- The inner loop has lost lock for `cause` (R315, R318, R341): the TDCO keeps its code, both domains pass to FAULT (R292) and
the outputs take their conditions (R336). -/
def loseInner (cause : Nat) (s : State) : State :=
  if !s.innerLocked then s
  else
    let s := (s.setB Reg.plStatusInnerLock false).setB Reg.plStatusSearch true
    let s := lockLost s
    let s := raiseEv 98 1 0x0501 [(20, le 1 0), (21, le 1 cause), (22, le 1 (s.getF Reg.plStatusBand))] s
    let s := [0, 1].foldl (fun s d => setQc d 7 5 ((dropLock d s).setB (Reg.plDStatusFacq d) false)) s
    outsRefresh (stampStatusAll s)

/-- A domain leaves FAULT when the inner loop locks (R292): ACQUIRING with a candidate eligible, otherwise HOLDOVER_EXPIRED with
k = 31 at the holdover value where the larder holds a valid window, otherwise FREERUN. -/
def leaveFault (d : Nat) (s : State) : State :=
  if s.qcState d ≠ 7 then s
  else if (List.range 16).any (fun i => eligible d i s) then setQc d 1 5 s
  else
    let s := readWindow d s
    match holdoverMean d s with
    | some h => setQc d 5 5 (takeFreq d h (s.setRd d { s.rd d with b0 := none, hoStart := s.dtt, hoValue := h }))
    | none => setQc d 0 5 s

/-- The outputs of a waiting PL_OUT_RETUNE have restarted, and it completes (R338). -/
def retuneDone (s : State) : State :=
  if holds 0x0503 s && (s.mbx.held.map (fun h => s.isF (Reg.plOsynStatusLock (cu h.cmd 0 1)))) = some true then
    resumeHeld (okWith [(32, le 8 s.dtt)]) s
  else s

/-- INNER_LOCK: 1,024 good comparisons with no search running (R315): DTT counts TCLK (R20), OSYNs that waited restart (R338),
outputs return from the safe path (R337) and both domains leave FAULT (R292). -/
def execInnerLock (fine : Nat) (margin : Bool) (s : State) : Out :=
  if s.innerLocked || s.isF Reg.plStatusSearch then .next s
  else
    let s := (s.setB Reg.plStatusInnerLock true).setB Reg.plStatusSysxoOk true
    let s := { s with dpll := { s.dpll with everLocked := true } }
    let s := raiseEv 98 1 0x0501 [(20, le 1 1), (21, le 1 0), (22, le 1 (s.getF Reg.plStatusBand))] s
    let s := showFine fine margin s
    let s := (List.range 4).foldl (fun s k =>
      if s.isF (Reg.plOsynStatusLock k) then s.setB (Reg.plOsynStatusRetune k) false else s) s
    let s := retuneDone (outsRestart s)
    .next (stampStatusAll (tstatFollow (evaluateAll (leaveFault 1 (leaveFault 0 s)))))

/-- INNER_LOCK_LOSS: the error beyond ±200 ps for 16 comparisons (R315). -/
def execInnerLockLoss (s : State) : Out := .next (loseInner 1 s)

/-- SYSXO_FAULT: SYSXO missing for 100 ns, or out of frequency (R315). -/
def execSysxoFault (missing : Bool) (s : State) : Out :=
  .next (outsRefresh (loseInner (if missing then 2 else 3) (s.setB Reg.plStatusSysxoOk false)))

/-- BAND_SEARCH_DONE: the search has chosen `band` (R316): any band in a search of all of them, otherwise the present one or one adjacent to it. Whether the target
lies outside ±70 × 10⁻⁶ of the present band's centre is not tested: the manual places no band's centre (log entry 243). -/
def execBandSearchDone (band : Nat) (s : State) : Out :=
  let now := s.getF Reg.plStatusBand
  if s.isF Reg.plStatusSearch && (s.dpll.searchAll || (decide (band ≤ now + 1) && decide (now ≤ band + 1))) then
    let s := { s with dpll := { s.dpll with searchAll := false } }
    .next (((s.setB Reg.plStatusSearch false).setF Reg.plStatusBand band).setB Reg.plStatusMargin false)
  else .next s

/-! ### Servo update -/

/-- A guard bound on a rate holds an action of core 1 back from an update on: one guard violation for as long as it does (R31, R676; log entry 244). -/
def clampNoted (was now : Bool) (off : Nat) (requested applied : Int) (s : State) : State :=
  if now && !was then
    guardViolation off .core1 .bound 1 requested applied (twos 32 (clampI (-(2 ^ 31)) (2 ^ 31 - 1) requested)) s
  else s

/-- A slew of domain `d` between two servo updates (R148, R149): the remainder moves toward 0; for the served domain the
part that a command asked for moves the loop's phase setpoint, and the part of a returning reference does not. -/
def slewUpdate (d t0 t1 : Nat) (s : State) : State :=
  let dm := s.dom d
  let b := s.getF Reg.gdSlewMaxA
  let r := s.slewRem d
  if r = 0 then s.setDom d { dm with slewClamped := false }
  else
    let clamped := decide (b < dm.slewRate)
    let s := clampNoted dm.slewClamped clamped Reg.gdSlewMaxA.addr dm.slewRate b s
    let r' := towardZero r (slewMoved (min dm.slewRate b) t0 t1)
    let moved := r - r'
    let back' := towardZero dm.slewBack moved.natAbs
    let dm := { dm with slewClamped := clamped, slewBack := back' }
    let s := s.setDom d (if d = s.served then { dm with setpoint := dm.setpoint + moved - ((s.dom d).slewBack - back') } else dm)
    setSlewRem d r' s

/-- What the rate transfer moves between DTT `a` and `b`: 10⁻⁹ per second, in 2⁻⁴⁸ (R158). -/
def xferMoved (a b : Nat) : Int := ((b * 128 * 2 ^ 48 / 10 ^ 20 : Nat) : Int) - (a * 128 * 2 ^ 48 / 10 ^ 20 : Nat)

/-- The rate transfer of R158: part of the served domain's RATE moves into the NTW, and the other domain's RATE takes the
opposite amount. -/
def xferUpdate (t0 t1 : Nat) (s : State) : State :=
  let d := s.served
  if !s.isF Reg.tbStateXfer then s
  else
    let r := (s.seg d).rate
    let r' := towardZero r (xferMoved t0 t1)
    let m := r - r'
    let s := setNtw (s.getI64 Reg.plNtw + m) s
    let s := setRate d r' (s.setDom d { s.dom d with integ := (s.dom d).integ + m * 2 ^ 32 })
    let o := 1 - d
    let s := s.setDom o { s.dom o with servoRate := (s.dom o).servoRate - m, integ := (s.dom o).integ - m * 2 ^ 32 }
    let s := setRate o ((s.seg o).rate - m) s
    s.setB Reg.tbStateXfer (r' ≠ 0)

/-- RS_STEER's offset within the guard steer bound as it stands now, with the violation where it holds it back (R676). -/
def steerNow (d : Nat) (s : State) : Int × State :=
  let b := s.getF Reg.gdSteerMaxA
  let r := s.rd d
  let v := if b = 0xFFFFFFFF then r.steer else clampI (-b) b r.steer
  let clamped := decide (v ≠ r.steer)
  (v, (clampNoted r.steerClamped clamped Reg.gdSteerMaxA.addr r.steer v s).setRd d { r with steerClamped := clamped })

/-- Whether domain `d` keeps a held frequency: an open loop, or HOLDOVER or HOLDOVER_EXPIRED (R299, R305). -/
def keepsFreq (d : Nat) (s : State) : Bool := s.isF (Reg.tbDStatusOpen d) || s.qcState d = 4 || s.qcState d = 5

/-- The served domain's NTW at a servo update (R299, R305, R306, R319): the filter's output, or the held frequency and the steer, or as it is. -/
def servedUpdate (s : State) : State :=
  let d := s.served
  if twinPhase d s then setNtw (filterOut d s) s
  else if keepsFreq d s then
    let v := if s.isF (Reg.tbDStatusOpen d) then steerNow d s else (0, s)
    let s := setNtw (ntwFor (s.rd d).hoValue v.2 + v.1) v.2
    rebaseLoop d (s.getI64 Reg.plNtw) s
  else if follows d s then setNtw (filterOut d s) s
  else rebaseLoop d (s.getI64 Reg.plNtw) s

/-- The other domain's RATE at a servo update (R148, R299, R305, R319). -/
def otherUpdate (s : State) : State :=
  let o := 1 - s.served
  if keepsFreq o s then rebaseLoop o (rateFor (s.rd o).hoValue s) (setServoRate o (rateFor (s.rd o).hoValue s) s)
  else if follows o s then setServoRate o (filterOut o s) s
  else rebaseLoop o (s.dom o).servoRate (setServoRate o (s.dom o).servoRate s)

/-- Whether any output's phase moves at the slew rate (R155, R335). -/
def outsMoving (s : State) : Bool :=
  (List.range 12).any (fun n => (s.out n).phaseNow ≠ (s.out n).phase) || (s.tb.outSlewing && s.getI64 Reg.tbOutOffset ≠ 0)

/-- The outputs' slew at a servo update, within the guard slew bound (R31, R335, R676). -/
def outsUpdate (t0 t1 : Nat) (s : State) : State :=
  let want := max 1 (min 1000 (s.getF Reg.tbCfgRate))
  let clamped := outsMoving s && decide (cfgSlewRate s < want)
  let s := clampNoted s.tb.outClamped clamped Reg.gdSlewMaxA.addr want (cfgSlewRate s) s
  outPhases (slewMoved (cfgSlewRate s) t0 t1) { s with tb := { s.tb with outClamped := clamped } }

/-- SERVO_UPDATE, at most once a millisecond (781,250 ticks) and not while the steer is held (R38, R130): slews; the served
domain's NTW and the other's RATE; rate transfer; output phases; larder sums. `fine` and `margin` are the TDCO's fine code and whether it lies beyond 90 % of its
band's range, which stay as they are while the inner loop is not locked (R315, R318). -/
def execServoUpdate (fine : Nat) (margin : Bool) (s : State) : Out :=
  if s.dtt < s.tb.lastServo + 781250 ∨ s.dpll.holdStart.isSome ∨ !s.isF Reg.hstStatusFwRun then .next s
  else
    let t0 := s.tb.lastServo
    let t1 := s.dtt
    let s := { s with tb := { s.tb with lastServo := t1 } }
    let s := slewUpdate (1 - s.served) t0 t1 (slewUpdate s.served t0 t1 s)
    let s := if s.innerLocked then showFine fine margin s else s
    let s := outsUpdate t0 t1 (xferUpdate t0 t1 (otherUpdate (servedUpdate s)))
    .next ([0, 1].foldl (fun s d =>
      s.setRd d { s.rd d with ffoSum := (s.rd d).ffoSum + domFreq d s, ffoCount := (s.rd d).ffoCount + 1 }) s)

/-! ### Commands -/

def plSetLoopSpec : CmdSpec :=
  { opcode := 0x0501, lenOk := lenIs 24,
    args := fun c _ => firstBad (badDomain c :: reservedAbove c 1 2 :: (2, decide (3 < cu c 2 1)) ::
      (4, cu c 4 4 = 0 || decide (100000 < cu c 4 4)) :: (8, decide (cu c 8 2 < 50) || decide (2000 < cu c 8 2)) ::
      (10, cu c 10 2 = 0) :: (12, cu c 12 2 = 0) :: (16, decide (cu c 16 4 < 100) || decide (10 ^ 9 < cu c 16 4)) ::
      (20, decide (cu c 20 4 < 100) || decide (10 ^ 9 < cu c 20 4)) :: (reserved c 3 1 ++ reserved c 14 2)),
    stops := fun c s => firstStop [(cbit c 1 0 && s.isF Reg.plStatusSearch, stRefused, 0x0501)] }

/-- The effect of PL_SET_LOOP (R314, R318, R319): a change of window or count restarts the lock count. -/
def plSetLoopEffect (c : Cmd) (s : State) : State × Reply :=
  let d := cu c 0 1
  let old := s.loopCfg d
  let l : LoopCfg := ⟨cu c 4 4, cu c 8 2, cu c 10 2, cu c 12 2, cu c 16 4, cu c 20 4⟩
  let s := if d = 0 then { s with dpll := { s.dpll with loopA := l } } else { s with dpll := { s.dpll with loopB := l } }
  let s := if l.nFast ≠ old.nFast ∨ l.nSlow ≠ old.nSlow ∨ l.winFast ≠ old.winFast ∨ l.winSlow ≠ old.winSlow then
      (s.setF (Reg.plDStatusCount d) 0).setRd d { s.rd d with outCount := 0 } else s
  let s := if cbit c 1 1 then s.setF Reg.plStatusInnerBw (cu c 2 1) else s
  (if cbit c 1 0 then
      let s := (loseInner 4 s).setB Reg.plStatusSearch true
      { s with dpll := { s.dpll with searchAll := true } }
    else s, okReply)

/-- PL_SET_LOOP. -/
def execPlSetLoop (c : Cmd) (s : State) : Out := runCmd plSetLoopSpec plSetLoopEffect c s

/-- Whether a plan `p` over divider `d` gives a frequency above 800 MHz (R327). -/
def tooFast (p : Nat × Nat) (d : Nat) : Bool := decide (800 * 100 * d * p.2 < 78125 * p.1)

/-- Whether it gives a whole number of hertz (R328). -/
def wholeHertz (p : Nat × Nat) (d : Nat) : Bool := decide (781250000 * p.1 % (p.2 * max 1 d) = 0)

def plOutConfigSpec : CmdSpec :=
  { opcode := 0x0502, lenOk := lenIs 24,
    args := fun c s =>
      let p := osynPlan (cu c 2 1 % 4) s
      firstBad ((0, decide (7 < cu c 0 1)) :: (1, decide (2 < cu c 1 1)) :: (2, decide (3 < cu c 2 1)) ::
        (3, decide (15 < cu c 3 1) || (cbit c 3 0 && !wholeHertz p (cu c 4 4))) ::
        (4, decide (cu c 4 4 < 3) || tooFast p (cu c 4 4)) :: reserved c 9 7) }

/-- The effect of PL_OUT_CONFIG (R327, R328, R335, R336, R339). -/
def plOutConfigEffect (c : Cmd) (s : State) : State × Reply :=
  let n := cu c 0 1
  let o := s.out n
  let running := s.getF (Reg.plOutStatusState n) = 1
  let moved := cu c 2 1 ≠ s.getF (Reg.plOutStatusOsyn n) || cu c 4 4 ≠ s.getF (Reg.plOutDiv n)
  let ph := if cbit c 3 0 then ci c 16 8 else 0
  let s := ((s.setF (Reg.plOutStatusStd n) (cu c 1 1)).setF (Reg.plOutStatusOsyn n) (cu c 2 1)).setB (Reg.plOutStatusAlign n) (cbit c 3 0)
  let s := showRecTemp (128 + n) s
  let s := ((s.setB (Reg.plOutStatusSafe n) (cbit c 3 1)).setF (Reg.plOutStatusSqMask n) (cu c 8 1)).setF (Reg.plOutDiv n) (cu c 4 4)
  let s := s.setOut n { o with hold := cbit c 3 3, retune := (running && moved) || o.retune }
  let s := if ph = o.phase then s else setPhaseOf n ph (cbit c 3 2) running s
  (outsRestart (outRefresh n s), okReply)

/-- PL_OUT_CONFIG. -/
def execPlOutConfig (c : Cmd) (s : State) : Out := runCmd plOutConfigSpec plOutConfigEffect c s

def plOutRetuneSpec : CmdSpec :=
  { opcode := 0x0503, urgent := true, lenOk := lenIs 12,
    args := fun c s =>
      let p := (cu c 1 1 * cu c 8 4 + cu c 4 4, cu c 8 4)
      let outs := (List.range 8).filter (fun n => outOn n s && !(s.out n).hold && s.getF (Reg.plOutStatusOsyn n) = cu c 0 1)
      firstBad ((0, decide (3 < cu c 0 1)) ::
        (1, (cu c 1 1 ≠ 3 && cu c 1 1 ≠ 4) ||
          (cu c 8 4 ≠ 0 && (decide (78125 * p.1 < 240000 * p.2) || decide (320000 * p.2 < 78125 * p.1) ||
            outs.any (fun n => tooFast p (s.getF (Reg.plOutDiv n)))))) ::
        (4, decide (2 ^ 24 ≤ cu c 4 4) || decide (cu c 8 4 ≤ cu c 4 4)) :: (8, cu c 8 4 = 0 || decide (2 ^ 24 ≤ cu c 8 4)) :: reserved c 2 2),
    stops := fun c s => firstStop [(s.isF (Reg.plOsynStatusRetune (cu c 0 1)), stBusy, 0)] }

/-- The effect of PL_OUT_RETUNE (R338): the plan is loaded, its outputs stop, and the command waits for their restart, or is
deferred while the inner loop is not locked. -/
def plOutRetuneEffect (c : Cmd) (s : State) : State × Option Reply :=
  let k := cu c 0 1
  let s := ((s.setF (Reg.plOsynStatusInt k) (cu c 1 1)).setF (Reg.plOsynNumValue k) (cu c 4 4)).setF (Reg.plOsynDenValue k) (cu c 8 4)
  let s := outsRefresh ((s.setB (Reg.plOsynStatusRetune k) true).setB (Reg.plOsynStatusLock k) false)
  if s.innerLocked then (s, none) else (s, some deferred)

/-- PL_OUT_RETUNE. -/
def execPlOutRetune (c : Cmd) (s : State) : Out := runHeld plOutRetuneSpec plOutRetuneEffect c s

/-- OSYN_LOCK: OSYN `k` declares lock on its new plan; with the inner loop locked its outputs restart and the waiting command
completes (R326, R338). -/
def execOsynLock (k : Nat) (s : State) : Out :=
  if 4 ≤ k ∨ s.isF (Reg.plOsynStatusLock k) ∨ s.getF (Reg.plOsynDenValue k) = 0 then .next s
  else
    let s := s.setB (Reg.plOsynStatusLock k) true
    if !s.innerLocked then .next s
    else
      .next (retuneDone (outsRestart (s.setB (Reg.plOsynStatusRetune k) false)))

/-- Nanoseconds of a PPSOUT's period (R330). -/
def ppsPeriod (rate periodS : Nat) : Nat := if rate = 0 then periodS * 10 ^ 9 else 10 ^ 9 / rate

def plPpsConfigSpec : CmdSpec :=
  { opcode := 0x0504, lenOk := lenIs 24,
    args := fun c _ =>
      let r := cu c 4 4
      let p := ppsPeriod r (cu c 8 2)
      firstBad ((0, decide (3 < cu c 0 1)) :: reservedAbove c 1 5 :: (3, decide (2 < cu c 3 1) || (cu c 3 1 ≠ 0 && cu c 0 1 ≠ 0)) ::
        (4, decide (1000000 < r) || (r ≠ 0 && 10 ^ 9 % r ≠ 0)) ::
        (8, if r = 0 then decide (cu c 8 2 < 2) || decide (3600 < cu c 8 2) else cu c 8 2 ≠ 0) ::
        (12, decide (cu c 12 4 < 10) || decide (p < cu c 12 4 + 10)) ::
        (16, decide (p * 2 ^ 16 ≤ (ci c 16 8).natAbs) || decide (10 ^ 9 * 2 ^ 16 < (ci c 16 8).natAbs)) :: reserved c 10 2) }

/-- The effect of PL_PPS_CONFIG (R330 to R332, R335). -/
def plPpsConfigEffect (c : Cmd) (s : State) : State × Reply :=
  let m := cu c 0 1
  let o := s.out (8 + m)
  let running := s.getF (Reg.plPpsStatusState m) = 1
  let ph := ci c 16 8
  let s := ((s.setF (Reg.plPpsStatusFlags m) (cu c 1 1)).setF (Reg.plPpsStatusSqMask m) (cu c 2 1)).setF (Reg.plPpsStatusTod m) (cu c 3 1)
  let s := s.setOut (8 + m) { o with rate := cu c 4 4, periodS := cu c 8 2, width := cu c 12 4 }
  let s := if ph = o.phase then s else setPhaseOf (8 + m) ph (cbit c 1 4) running s
  (outRefresh (8 + m) s, okReply)

/-- PL_PPS_CONFIG. -/
def execPlPpsConfig (c : Cmd) (s : State) : Out := runCmd plPpsConfigSpec plPpsConfigEffect c s

def plStatusSpec : CmdSpec := { opcode := 0x0505, urgent := true, unmirrored := true, reports := true, lenOk := lenIs 0 }

/-- RUN of PL_STATUS: OSYNs locked, CLKOUTs and PPSOUTs running. -/
def plRun (s : State) : Nat :=
  maskOf ((List.range 4).filter (fun k => s.isF (Reg.plOsynStatusLock k)) ++
    ((List.range 8).filter (fun n => outState n s = 1)).map (· + 8) ++ ((List.range 4).filter (fun m => outState (8 + m) s = 1)).map (· + 16))

/-- The effect of PL_STATUS. -/
def plStatusEffect (_ : Cmd) (s : State) : State × Reply :=
  (s, okWith [(32, le 4 (s.regWord 0x120000)), (36, le 4 (s.regWord 0x120100)), (40, le 4 (s.regWord 0x120200)),
    (44, le 8 (s.get64 Reg.plNtw)), (52, le 8 (s.get64 (Reg.plDPerr s.served))), (60, le 4 (plRun s))])

/-- PL_STATUS. -/
def execPlStatus (c : Cmd) (s : State) : Out := runCmd plStatusSpec plStatusEffect c s

/-! ### Time of day -/

/-- Year, month and day of a day count from 1970-01-01 in the proleptic Gregorian calendar. -/
def civil (days : Nat) : Nat × Nat × Nat :=
  let z := days + 719468
  let era := z / 146097
  let doe := z % 146097
  let yoe := (doe - doe / 1460 + doe / 36524 - doe / 146096) / 365
  let doy := doe - (365 * yoe + yoe / 4 - yoe / 100)
  let mp := (5 * doy + 2) / 153
  let d := doy - (153 * mp + 2) / 5 + 1
  let m := if mp < 10 then mp + 3 else mp - 9
  (yoe + era * 400 + (if m ≤ 2 then 1 else 0), m, d)

/-- `n` decimal digits of `v` as ASCII. -/
def digits : Nat → Nat → Bytes
  | 0, _ => []
  | n + 1, v => digits n (v / 10) ++ [BitVec.ofNat 8 (48 + v % 10)]

/-- One hexadecimal digit as upper-case ASCII. -/
def hexDigit (v : Nat) : Byte := BitVec.ofNat 8 (if v < 10 then 48 + v else 55 + v)

/-- An NMEA-0183 ZDA sentence for a UTC second (R332); `extra` is 1 in the second that a positive leap adds after that one, which appears as second 60
(R135). -/
def zdaSentence (utc extra : Nat) : Bytes :=
  let t := utc % 86400
  let c := civil (utc / 86400)
  let ascii (l : List Nat) : Bytes := l.map (BitVec.ofNat 8)
  let comma := ascii [44]
  let body := ascii [71, 80, 90, 68, 65] ++ comma ++ digits 2 (t / 3600) ++ digits 2 (t / 60 % 60) ++ digits 2 (t % 60 + extra) ++ ascii [46, 48, 48] ++
    comma ++ digits 2 c.2.2 ++ comma ++ digits 2 c.2.1 ++ comma ++ digits 4 c.1 ++ comma ++ digits 2 0 ++ comma ++ digits 2 0
  let sum := body.foldl (fun a b => a ^^^ b.toNat) 0
  ascii [36] ++ body ++ ascii [42] ++ [hexDigit (sum / 16), hexDigit (sum % 16)] ++ ascii [13, 10]

/-- Whether the pending leap of the served domain has passed by TAI second `sec` (R133). -/
def leapPassed (sec : Nat) (s : State) : Bool :=
  s.getI (Reg.tbDStatusLeap s.served) ≠ 0 && decide (s.get64 (Reg.tbDLeapAt s.served) ≤ sec)

/-- TAI − UTC of the served domain at TAI second `sec` (R133). -/
def utcOffsetAt (sec : Nat) (s : State) : Int :=
  s.getI (Reg.tbDUtcOffset s.served) + (if leapPassed sec s then s.getI (Reg.tbDStatusLeap s.served) else 0)

/-- The ZDA sentence of TAI second `sec`: the last second before a positive leap is second 60 of the minute before (R135, R332). -/
def zdaOf (sec : Nat) (s : State) : Bytes :=
  let utc := ((sec : Int) - utcOffsetAt sec s).toNat
  if s.getI (Reg.tbDStatusLeap s.served) = 1 ∧ s.get64 (Reg.tbDLeapAt s.served) = sec + 1 then zdaSentence (utc - 1) 1 else zdaSentence utc 0

/-- The 16-byte binary message for a TAI second (R332). -/
def todBinary (sec : Nat) (s : State) : Bytes :=
  let d := s.served
  let m := record 14 [(0, [0xFA]), (1, [0x01]), (2, le 6 sec), (8, leI 2 (utcOffsetAt sec s)), (10, le 1 (s.qc d)),
    (11, le 1 ((if leapPassed sec s then 0 else s.getF (Reg.tbDStatusLeap d)) + 4 * d)), (12, le 2 (s.stepc d))]
  m ++ le 2 (crc16 m)

/-- TOD_MESSAGE: 10 ms after the leading edge of a PPSOUT0 pulse at TK80 instant `edge`, TOD_TX sends the output time of that
edge, for pulses closer together than 20 ms only on whole seconds (R332). -/
def execTodMessage (edge : Nat) (s : State) : Out :=
  let tod := s.getF (Reg.plPpsStatusTod 0)
  let sec : Int := 10 ^ 9 * 2 ^ 16
  let t := s.servedTime edge + s.getI64 Reg.tbOutOffset - (s.out 8).phaseNow
  let n := (divRound t sec).toNat
  let period := ppsPeriod (s.out 8).rate (s.out 8).periodS
  let whole := decide ((t - n * sec).natAbs * 2 < period * 2 ^ 16)
  if tod = 0 ∨ (outState 8 s ≠ 1 ∧ outState 8 s ≠ 5) ∨ s.now80 < edge + 7812500 * 2 ^ 16 ∨ (period < 20000000 ∧ !whole) then .next s
  else
    .next { s with dpll := { s.dpll with todTx := if tod = 1 then zdaOf n s else todBinary n s } }

/-- TOD_RX_LABEL: a message received on TOD_RX within 900 ms (703,125,000 ticks) after a PPSIN0 edge labels that edge with its
second (R333). -/
def execTodRxLabel (second : Nat) (s : State) : Out :=
  match s.dpll.ppsEdge with
  | some x => if s.now80 ≤ x + 703125000 * 2 ^ 16 then .next { s with dpll := { s.dpll with todLabel := some (second, x) } } else .next s
  | none => .next s

end Sys2Proof.Machine
end

