-- ==== Sys2Proof/Machine/Dispatch.lean ====
section
/-! DEFINITION. The one dispatch of the block: every command goes to its own meaning. -/

namespace Sys2Proof.Machine

/-- The effect of a command on everything but the queue of waiting commands. -/
def exec (i : Instr) (s : State) : Host.Outcome State Fault Refusal :=
  match i with
  | .hstNop c => Sys2Proof.Machine.execHstNop c s
  | .hstCancel c => Sys2Proof.Machine.execHstCancel c s
  | .hstRestartMgmt c => Sys2Proof.Machine.execHstRestartMgmt c s
  | .tbRead c => Sys2Proof.Machine.execTbRead c s
  | .tbStep c => Sys2Proof.Machine.execTbStep c s
  | .tbSlew c => Sys2Proof.Machine.execTbSlew c s
  | .tbAdjust c => Sys2Proof.Machine.execTbAdjust c s
  | .tbRealign c => Sys2Proof.Machine.execTbRealign c s
  | .tbSetServed c => Sys2Proof.Machine.execTbSetServed c s
  | .tbSetUtc c => Sys2Proof.Machine.execTbSetUtc c s
  | .tbSnapshot c => Sys2Proof.Machine.execTbSnapshot c s
  | .tbSetCompact c => Sys2Proof.Machine.execTbSetCompact c s
  | .ttSessionSet c => Sys2Proof.Machine.execTtSessionSet c s
  | .ttSessionGet c => Sys2Proof.Machine.execTtSessionGet c s
  | .ttSessionEnable c => Sys2Proof.Machine.execTtSessionEnable c s
  | .ttSetAsymmetry c => Sys2Proof.Machine.execTtSetAsymmetry c s
  | .ttServoSet c => Sys2Proof.Machine.execTtServoSet c s
  | .ttServoStatus c => Sys2Proof.Machine.execTtServoStatus c s
  | .rsSetPriority c => Sys2Proof.Machine.execRsSetPriority c s
  | .rsSetLimits c => Sys2Proof.Machine.execRsSetLimits c s
  | .rsSetTimers c => Sys2Proof.Machine.execRsSetTimers c s
  | .rsForce c => Sys2Proof.Machine.execRsForce c s
  | .rsStatus c => Sys2Proof.Machine.execRsStatus c s
  | .rsLarderRead c => Sys2Proof.Machine.execRsLarderRead c s
  | .rsOpenLoop c => Sys2Proof.Machine.execRsOpenLoop c s
  | .rsSteer c => Sys2Proof.Machine.execRsSteer c s
  | .plSetLoop c => Sys2Proof.Machine.execPlSetLoop c s
  | .plOutConfig c => Sys2Proof.Machine.execPlOutConfig c s
  | .plOutRetune c => Sys2Proof.Machine.execPlOutRetune c s
  | .plPpsConfig c => Sys2Proof.Machine.execPlPpsConfig c s
  | .plStatus c => Sys2Proof.Machine.execPlStatus c s
  | .gnEnable c => Sys2Proof.Machine.execGnEnable c s
  | .gnLoadAlmanac c => Sys2Proof.Machine.execGnLoadAlmanac c s
  | .gnLoadEphemeris c => Sys2Proof.Machine.execGnLoadEphemeris c s
  | .gnSetPosition c => Sys2Proof.Machine.execGnSetPosition c s
  | .gnSetAntennaDelay c => Sys2Proof.Machine.execGnSetAntennaDelay c s
  | .gnStatus c => Sys2Proof.Machine.execGnStatus c s
  | .emInputConfig c => Sys2Proof.Machine.execEmInputConfig c s
  | .emInterval c => Sys2Proof.Machine.execEmInterval c s
  | .emFrequency c => Sys2Proof.Machine.execEmFrequency c s
  | .emSelfAudit c => Sys2Proof.Machine.execEmSelfAudit c s
  | .sdsPortConfig c => Sys2Proof.Machine.execSdsPortConfig c s
  | .sdsSetFir c => Sys2Proof.Machine.execSdsSetFir c s
  | .sdsSetCtle c => Sys2Proof.Machine.execSdsSetCtle c s
  | .sdsPrbs c => Sys2Proof.Machine.execSdsPrbs c s
  | .sdsEyeScan c => Sys2Proof.Machine.execSdsEyeScan c s
  | .sdsSetTrim c => Sys2Proof.Machine.execSdsSetTrim c s
  | .sdsLaneStatus c => Sys2Proof.Machine.execSdsLaneStatus c s
  | .sdsSetStampCorr c => Sys2Proof.Machine.execSdsSetStampCorr c s
  | .swPortForward c => Sys2Proof.Machine.execSwPortForward c s
  | .swSetVlan c => Sys2Proof.Machine.execSwSetVlan c s
  | .swSetLag c => Sys2Proof.Machine.execSwSetLag c s
  | .swRuleWrite c => Sys2Proof.Machine.execSwRuleWrite c s
  | .swDirectConnect c => Sys2Proof.Machine.execSwDirectConnect c s
  | .swDirectDisconnect c => Sys2Proof.Machine.execSwDirectDisconnect c s
  | .ftInsert c => Sys2Proof.Machine.execFtInsert c s
  | .ftDelete c => Sys2Proof.Machine.execFtDelete c s
  | .ftSearch c => Sys2Proof.Machine.execFtSearch c s
  | .ftWalkOpen c => Sys2Proof.Machine.execFtWalkOpen c s
  | .ftWalkNext c => Sys2Proof.Machine.execFtWalkNext c s
  | .ftWalkClose c => Sys2Proof.Machine.execFtWalkClose c s
  | .ftFlushPort c => Sys2Proof.Machine.execFtFlushPort c s
  | .ftSetAging c => Sys2Proof.Machine.execFtSetAging c s
  | .ftRouteWrite c => Sys2Proof.Machine.execFtRouteWrite c s
  | .ftRouteDelete c => Sys2Proof.Machine.execFtRouteDelete c s
  | .ftLearnConfig c => Sys2Proof.Machine.execFtLearnConfig c s
  | .ftDigest c => Sys2Proof.Machine.execFtDigest c s
  | .bfSetPool c => Sys2Proof.Machine.execBfSetPool c s
  | .bfSetQueue c => Sys2Proof.Machine.execBfSetQueue c s
  | .bfSetShaper c => Sys2Proof.Machine.execBfSetShaper c s
  | .bfSpillEnable c => Sys2Proof.Machine.execBfSpillEnable c s
  | .bfMcastGroup c => Sys2Proof.Machine.execBfMcastGroup c s
  | .fmGroupSet c => Sys2Proof.Machine.execFmGroupSet c s
  | .fmGroupEnable c => Sys2Proof.Machine.execFmGroupEnable c s
  | .fmSetTrim c => Sys2Proof.Machine.execFmSetTrim c s
  | .fmPartition c => Sys2Proof.Machine.execFmPartition c s
  | .erGroupSet c => Sys2Proof.Machine.execErGroupSet c s
  | .erGroupEnable c => Sys2Proof.Machine.execErGroupEnable c s
  | .erSetTrim c => Sys2Proof.Machine.execErSetTrim c s
  | .evdConfig c => Sys2Proof.Machine.execEvdConfig c s
  | .evdGetPubkey c => Sys2Proof.Machine.execEvdGetPubkey c s
  | .evdGetBlock c => Sys2Proof.Machine.execEvdGetBlock c s
  | .capRingSet c => Sys2Proof.Machine.execCapRingSet c s
  | .capRingEnable c => Sys2Proof.Machine.execCapRingEnable c s
  | .capSelect c => Sys2Proof.Machine.execCapSelect c s
  | .twEnable c => Sys2Proof.Machine.execTwEnable c s
  | .twTakeover c => Sys2Proof.Machine.execTwTakeover c s
  | .twTakeback c => Sys2Proof.Machine.execTwTakeback c s
  | .twStatus c => Sys2Proof.Machine.execTwStatus c s
  | .twSetWtr c => Sys2Proof.Machine.execTwSetWtr c s
  | .ctClear c => Sys2Proof.Machine.execCtClear c s
  | .ctPreset c => Sys2Proof.Machine.execCtPreset c s
  | .ctSetThreshold c => Sys2Proof.Machine.execCtSetThreshold c s
  | .ctWindowMap c => Sys2Proof.Machine.execCtWindowMap c s
  | .ctLatencySample c => Sys2Proof.Machine.execCtLatencySample c s
  | .mpScrub c => Sys2Proof.Machine.execMpScrub c s
  | .mpScrubSummary c => Sys2Proof.Machine.execMpScrubSummary c s
  | .mpInject c => Sys2Proof.Machine.execMpInject c s
  | .mpReleaseQuarantine c => Sys2Proof.Machine.execMpReleaseQuarantine c s
  | .calLane c => Sys2Proof.Machine.execCalLane c s
  | .calEvtin c => Sys2Proof.Machine.execCalEvtin c s
  | .calOutput c => Sys2Proof.Machine.execCalOutput c s
  | .calReadRecord c => Sys2Proof.Machine.execCalReadRecord c s
  | .fwWriteSlot c => Sys2Proof.Machine.execFwWriteSlot c s
  | .fwApplyMoult c => Sys2Proof.Machine.execFwApplyMoult c s
  | .fwActivate c => Sys2Proof.Machine.execFwActivate c s
  | .fwConfirm c => Sys2Proof.Machine.execFwConfirm c s
  | .fwStatus c => Sys2Proof.Machine.execFwStatus c s
  | .fwUpdateEvd c => Sys2Proof.Machine.execFwUpdateEvd c s
  | .secOwnerLock c => Sys2Proof.Machine.execSecOwnerLock c s
  | .secGetIdentity c => Sys2Proof.Machine.execSecGetIdentity c s
  | .secZeroise c => Sys2Proof.Machine.execSecZeroise c s
  | .secSelfTest c => Sys2Proof.Machine.execSecSelfTest c s
  | .secDrbgRead c => Sys2Proof.Machine.execSecDrbgRead c s
  | .steppedCommandStep amount => Sys2Proof.Machine.execSteppedCommandStep amount s
  | .mbxDoorbell a fs => Sys2Proof.Machine.execMbxDoorbell a fs s
  | .mbxQueueEnable a => Sys2Proof.Machine.execMbxQueueEnable a s
  | .mbxQueueDisable a => Sys2Proof.Machine.execMbxQueueDisable a s
  | .cqConsWrite a => Sys2Proof.Machine.execCqConsWrite a s
  | .smbusIdentityRead addr => Sys2Proof.Machine.execSmbusIdentityRead addr s
  | .smbusStatusRead addr => Sys2Proof.Machine.execSmbusStatusRead addr s
  | .smbusTemperatureRead addr high low => Sys2Proof.Machine.execSmbusTemperatureRead addr high low s
  | .smbusOffsetWrite addr good off => Sys2Proof.Machine.execSmbusOffsetWrite addr good off s
  | .smbusRegisterRead addr => Sys2Proof.Machine.execSmbusRegisterRead addr s
  | .smbusCommandWrite addr good e => Sys2Proof.Machine.execSmbusCommandWrite addr good e s
  | .smbusCommandStatus addr => Sys2Proof.Machine.execSmbusCommandStatus addr s
  | .registerWrite a more => Sys2Proof.Machine.execRegisterWrite a more s
  | .unmappedRead a => Sys2Proof.Machine.execUnmappedRead a s
  | .unmappedWrite a => Sys2Proof.Machine.execUnmappedWrite a s
  | .readOnlyWrite a => Sys2Proof.Machine.execReadOnlyWrite a s
  | .partialW32Write a => Sys2Proof.Machine.execPartialW32Write a s
  | .bar2Write a => Sys2Proof.Machine.execBar2Write a s
  | .bar4LongWrite a more => Sys2Proof.Machine.execBar4LongWrite a more s
  | .latchingLoRead a more => Sys2Proof.Machine.execLatchingLoRead a more s
  | .pairLoWrite a => Sys2Proof.Machine.execPairLoWrite a s
  | .pairHiWrite a => Sys2Proof.Machine.execPairHiWrite a s
  | .keyedAWrite a => Sys2Proof.Machine.execKeyedAWrite a s
  | .keyedBWrite a => Sys2Proof.Machine.execKeyedBWrite a s
  | .keyedPairWrite64 a be data => Sys2Proof.Machine.execKeyedPairWrite64 a be data s
  | .keyedSequenceTimeout off path => Sys2Proof.Machine.execKeyedSequenceTimeout off path s
  | .gdLockSet a => Sys2Proof.Machine.execGdLockSet a s
  | .hstReset a be data => Sys2Proof.Machine.execHstReset a be data s
  | .evrRingEnable a => Sys2Proof.Machine.execEvrRingEnable a s
  | .evrConsWrite a => Sys2Proof.Machine.execEvrConsWrite a s
  | .ttRecRingEnable a => Sys2Proof.Machine.execTtRecRingEnable a s
  | .ttRecConsWrite a => Sys2Proof.Machine.execTtRecConsWrite a s
  | .ftLrnRingEnable a => Sys2Proof.Machine.execFtLrnRingEnable a s
  | .ftLrnConsWrite a => Sys2Proof.Machine.execFtLrnConsWrite a s
  | .emRConsWrite a => Sys2Proof.Machine.execEmRConsWrite a s
  | .evdRConsWrite a => Sys2Proof.Machine.execEvdRConsWrite a s
  | .nrDoorbell a => Sys2Proof.Machine.execNrDoorbell a s
  | .snapTrigger a => Sys2Proof.Machine.execSnapTrigger a s
  | .snapArm a => Sys2Proof.Machine.execSnapArm a s
  | .snapArmedCapture src x => Sys2Proof.Machine.execSnapArmedCapture src x s
  | .ptmDialog master turn request => Sys2Proof.Machine.execPtmDialog master turn request s
  | .stampFifoPop a => Sys2Proof.Machine.execStampFifoPop a s
  | .emFifoPop a => Sys2Proof.Machine.execEmFifoPop a s
  | .htxRingEnable a => Sys2Proof.Machine.execHtxRingEnable a s
  | .htxTailWrite a => Sys2Proof.Machine.execHtxTailWrite a s
  | .hostTxDescriptor desc data readable => Sys2Proof.Machine.execHostTxDescriptor desc data readable s
  | .eventRecordWrite => Sys2Proof.Machine.execEventRecordWrite s
  | .eventRecordLate => Sys2Proof.Machine.execEventRecordLate s
  | .ringHoldoffExpiry ring => Sys2Proof.Machine.execRingHoldoffExpiry ring s
  | .mainResetAssert cause => Sys2Proof.Machine.execMainResetAssert cause s
  | .mainResetRelease b => Sys2Proof.Machine.execMainResetRelease b s
  | .thermalReset => Sys2Proof.Machine.execThermalReset s
  | .ready ddr => Sys2Proof.Machine.execReady ddr s
  | .pciePerst => Sys2Proof.Machine.execPciePerst s
  | .hostIfReset => Sys2Proof.Machine.execHostIfReset s
  | .innerLock fine margin => Sys2Proof.Machine.execInnerLock fine margin s
  | .innerLockLoss => Sys2Proof.Machine.execInnerLockLoss s
  | .sysxoFault missing => Sys2Proof.Machine.execSysxoFault missing s
  | .bandSearchDone band => Sys2Proof.Machine.execBandSearchDone band s
  | .referenceSample cand x sys t => Sys2Proof.Machine.execReferenceSample cand x sys t s
  | .dpllLock d => Sys2Proof.Machine.execDpllLock d s
  | .dpllLockLoss d => Sys2Proof.Machine.execDpllLockLoss d s
  | .frequencyAcquired d => Sys2Proof.Machine.execFrequencyAcquired d s
  | .servoUpdate fine margin => Sys2Proof.Machine.execServoUpdate fine margin s
  | .segmentRenewal d => Sys2Proof.Machine.execSegmentRenewal d s
  | .stepApply d => Sys2Proof.Machine.execStepApply d s
  | .outRephaseDone => Sys2Proof.Machine.execOutRephaseDone s
  | .servedSwitch => Sys2Proof.Machine.execServedSwitch s
  | .tbOutAligned => Sys2Proof.Machine.execTbOutAligned s
  | .tbSlewDone d => Sys2Proof.Machine.execTbSlewDone d s
  | .tbLeap d => Sys2Proof.Machine.execTbLeap d s
  | .monitorEvaluation => Sys2Proof.Machine.execMonitorEvaluation s
  | .candidateLost cand => Sys2Proof.Machine.execCandidateLost cand s
  | .qualTimerExpiry cand => Sys2Proof.Machine.execQualTimerExpiry cand s
  | .wtrExpiry cand => Sys2Proof.Machine.execWtrExpiry cand s
  | .switchTransactionStart d => Sys2Proof.Machine.execSwitchTransactionStart d s
  | .switchTransactionEnd d => Sys2Proof.Machine.execSwitchTransactionEnd d s
  | .qcClassUpdate => Sys2Proof.Machine.execQcClassUpdate s
  | .holdoverUpdate => Sys2Proof.Machine.execHoldoverUpdate s
  | .larderEntryWrite => Sys2Proof.Machine.execLarderEntryWrite s
  | .tstatHoldExpiry => Sys2Proof.Machine.execTstatHoldExpiry s
  | .osynLock k => Sys2Proof.Machine.execOsynLock k s
  | .squelchRelease out => Sys2Proof.Machine.execSquelchRelease out s
  | .todMessage edge => Sys2Proof.Machine.execTodMessage edge s
  | .todRxLabel second => Sys2Proof.Machine.execTodRxLabel second s
  | .portIslandWakeDone island temp => Sys2Proof.Machine.execPortIslandWakeDone island temp s
  | .rxLock lane => Sys2Proof.Machine.execRxLock lane s
  | .ctleSweepDone lane openings => Sys2Proof.Machine.execCtleSweepDone lane openings s
  | .latencyReport lane tx t => Sys2Proof.Machine.execLatencyReport lane tx t s
  | .linkUp port remote => Sys2Proof.Machine.execLinkUp port remote s
  | .linkDown port cause data => Sys2Proof.Machine.execLinkDown port cause data s
  | .txRestart port phase => Sys2Proof.Machine.execTxRestart port phase s
  | .sdsTrimDone lane => Sys2Proof.Machine.execSdsTrimDone lane s
  | .prbsLockChange lane locked bits errors => Sys2Proof.Machine.execPrbsLockChange lane locked bits errors s
  | .ptsRecalDue lane temp => Sys2Proof.Machine.execPtsRecalDue lane temp s
  | .phaseSample m tx sys => Sys2Proof.Machine.execPhaseSample m tx sys s
  | .frameRx src len head bad m outs => Sys2Proof.Machine.execFrameRx src len head bad m outs s
  | .frameEnd src rest fault m outs => Sys2Proof.Machine.execFrameEnd src rest fault m outs s
  | .egressPick egress m => Sys2Proof.Machine.execEgressPick egress m s
  | .frameTxDone egress m => Sys2Proof.Machine.execFrameTxDone egress m s
  | .swDpSlip lane repeated => Sys2Proof.Machine.execSwDpSlip lane repeated s
  | .agerVisit slot => Sys2Proof.Machine.execAgerVisit slot s
  | .ftWalkTimeout => Sys2Proof.Machine.execFtWalkTimeout s
  | .spillWrite queue => Sys2Proof.Machine.execSpillWrite queue s
  | .spillReadback queue => Sys2Proof.Machine.execSpillReadback queue s
  | .spillDrainDone => Sys2Proof.Machine.execSpillDrainDone s
  | .mergeDue g m => Sys2Proof.Machine.execMergeDue g m s
  | .fmDrainDone g => Sys2Proof.Machine.execFmDrainDone g s
  | .releaseCopyStart g port => Sys2Proof.Machine.execReleaseCopyStart g port s
  | .erDrainDone g => Sys2Proof.Machine.execErDrainDone g s
  | .evdRecord => Sys2Proof.Machine.execEvdRecord s
  | .evdBlockClose => Sys2Proof.Machine.execEvdBlockClose s
  | .evdBlockSigned => Sys2Proof.Machine.execEvdBlockSigned s
  | .ttPeriodicTx session kind body p m => Sys2Proof.Machine.execTtPeriodicTx session kind body p m s
  | .ptpMessageRx p m sys => Sys2Proof.Machine.execPtpMessageRx p m sys s
  | .ttPhaseReportTx session => Sys2Proof.Machine.execTtPhaseReportTx session s
  | .ttPhaseReportRx => Sys2Proof.Machine.execTtPhaseReportRx s
  | .ttPhaseEntry session => Sys2Proof.Machine.execTtPhaseEntry session s
  | .ttReportTimeout session => Sys2Proof.Machine.execTtReportTimeout session s
  | .ttPhaseSlip servo => Sys2Proof.Machine.execTtPhaseSlip servo s
  | .ttServoTimeout servo => Sys2Proof.Machine.execTtServoTimeout servo s
  | .esmcPduTx changed => Sys2Proof.Machine.execEsmcPduTx changed s
  | .esmcPduRx port ql => Sys2Proof.Machine.execEsmcPduRx port ql s
  | .gnssEpoch sol o => Sys2Proof.Machine.execGnssEpoch sol o s
  | .gnRateChange sol => Sys2Proof.Machine.execGnRateChange sol s
  | .gnPortLoss port clkOff => Sys2Proof.Machine.execGnPortLoss port clkOff s
  | .gnPortReturn port clkOff => Sys2Proof.Machine.execGnPortReturn port clkOff s
  | .gnMagCheck port mag total => Sys2Proof.Machine.execGnMagCheck port mag total s
  | .surveyDone sol => Sys2Proof.Machine.execSurveyDone sol s
  | .spoofHoldExpiry sol => Sys2Proof.Machine.execSpoofHoldExpiry sol s
  | .gnNoSatTimeout sol => Sys2Proof.Machine.execGnNoSatTimeout sol s
  | .evtinEdge input falling tick phase code => Sys2Proof.Machine.execEvtinEdge input falling tick phase code s
  | .emRingMove input => Sys2Proof.Machine.execEmRingMove input s
  | .emGateOpen input => Sys2Proof.Machine.execEmGateOpen input s
  | .emGateClose input => Sys2Proof.Machine.execEmGateClose input s
  | .twHeartbeatTx => Sys2Proof.Machine.execTwHeartbeatTx s
  | .twHeartbeatRx good state qcA qcB claim fault pref serial => Sys2Proof.Machine.execTwHeartbeatRx good state qcA qcB claim fault pref serial s
  | .twTimeTx => Sys2Proof.Machine.execTwTimeTx s
  | .twTimeRx good stamp here timeA timeB stepA stepB rateA rateB served => Sys2Proof.Machine.execTwTimeRx good stamp here timeA timeB stepA stepB rateA rateB served s
  | .twMirrorRx good seq opcode tag instant => Sys2Proof.Machine.execTwMirrorRx good seq opcode tag instant s
  | .twAckRx good seq status detail => Sys2Proof.Machine.execTwAckRx good seq status detail s
  | .mirrorAckTimeout => Sys2Proof.Machine.execMirrorAckTimeout s
  | .twEvdBhRx good epoch block bh => Sys2Proof.Machine.execTwEvdBhRx good epoch block bh s
  | .twClaimRx good claim kind => Sys2Proof.Machine.execTwClaimRx good claim kind s
  | .twLinkTimeout => Sys2Proof.Machine.execTwLinkTimeout s
  | .twHbMiss => Sys2Proof.Machine.execTwHbMiss s
  | .twFaultTimeout => Sys2Proof.Machine.execTwFaultTimeout s
  | .twTwclkLoss => Sys2Proof.Machine.execTwTwclkLoss s
  | .twAlign raw => Sys2Proof.Machine.execTwAlign raw s
  | .twWtrExpiry => Sys2Proof.Machine.execTwWtrExpiry s
  | .bwWindowEnd port dir octets peak slot => Sys2Proof.Machine.execBwWindowEnd port dir octets peak slot s
  | .corrWriteback mem addr => Sys2Proof.Machine.execCorrWriteback mem addr s
  | .trackerExpiry mem addr => Sys2Proof.Machine.execTrackerExpiry mem addr s
  | .mergeBufferFlush mem addr => Sys2Proof.Machine.execMergeBufferFlush mem addr s
  | .deviceCalAuto temp => Sys2Proof.Machine.execDeviceCalAuto temp s
  | .calPartDone target m later => Sys2Proof.Machine.execCalPartDone target m later s
  | .calAccept target => Sys2Proof.Machine.execCalAccept target s
  | .stampCorrApply port mode tx => Sys2Proof.Machine.execStampCorrApply port mode tx s
  | .asymApply port => Sys2Proof.Machine.execAsymApply port s
  | .fmTrimApply port => Sys2Proof.Machine.execFmTrimApply port s
  | .erTrimApply port => Sys2Proof.Machine.execErTrimApply port s
  | .fwLoadDone => Sys2Proof.Machine.execFwLoadDone s
  | .fwFreeze => Sys2Proof.Machine.execFwFreeze s
  | .fwHandoverDone => Sys2Proof.Machine.execFwHandoverDone s
  | .fwWaitTimeout => Sys2Proof.Machine.execFwWaitTimeout s
  | .fwFreezeTimeout => Sys2Proof.Machine.execFwFreezeTimeout s
  | .heldSteerExpiry => Sys2Proof.Machine.execHeldSteerExpiry s
  | .fwTrialExpiry => Sys2Proof.Machine.execFwTrialExpiry s
  | .fwHealthFail n => Sys2Proof.Machine.execFwHealthFail n s
  | .watchdogExpiry => Sys2Proof.Machine.execWatchdogExpiry s
  | .leinnarRestart => Sys2Proof.Machine.execLeinnarRestart s
  | .leinnarRestartDone => Sys2Proof.Machine.execLeinnarRestartDone s
  | .tamperActive n tick => Sys2Proof.Machine.execTamperActive n tick s
  | .selftestFailure test => Sys2Proof.Machine.execSelftestFailure test s
  | .drbgReseed => Sys2Proof.Machine.execDrbgReseed s
  | .secVbatLow mv => Sys2Proof.Machine.execSecVbatLow mv s
  | .aoContentsLost => Sys2Proof.Machine.execAoContentsLost s
  | .aoXtalStop => Sys2Proof.Machine.execAoXtalStop s
  | .aoAnchorWrite tick => Sys2Proof.Machine.execAoAnchorWrite tick s
  | .firstSegmentOpen tick t => Sys2Proof.Machine.execFirstSegmentOpen tick t s
  | .twinLinkDown => Sys2Proof.Machine.execTwinLinkDown s
  | .tapReset => Sys2Proof.Machine.execTapReset s

end Sys2Proof.Machine
end

