-- ==== Sys2Proof/Machine/Step.lean ====
section
/-! DEFINITION. One step of the block: the command at the front of the queue, or a tick of DTT where none waits. -/

set_option Elab.async false

namespace Sys2Proof.Machine

/-- One step. A command is taken from the front of the queue and executed with the queue's rest; on an empty queue time passes: one tick
of DTT (R17, R19). -/
def step (s : State) : Out :=
  match s.pending with
  | [] => .next (tick s)
  | c :: r => exec c { s with pending := r }

/-- The state with the command that a table word spells at the front of its queue; unchanged where the word spells none. -/
def State.withFetchWord (s : State) (nbits w : Nat) : State :=
  match decodeTableWord nbits w with
  | some c => { s with pending := c :: s.pending }
  | none => s

end Sys2Proof.Machine
end

