-- ==== Sys2Proof/Machine/Flags.lean ====
section
/-! DEFINITION. What the device's status pins and output balls show, computed from the state: INTn and ALARMn (R68, R692), TSTAT (R13,
R309, R692), the output drivers (R336, R692), and the transmitters that a guard bound or main reset keeps idle (R677, R692). -/

set_option Elab.async false

namespace Sys2Proof.Machine

/-- INTn is asserted: a bit of HST_IRQ_STATUS is 1 with its enable in HST_IRQ_MASK (R68); main reset releases it (R692). -/
def intAsserted (s : State) : Bool :=
  !s.boot.inReset && (List.range 5).any (fun n => bit (s.regWord 0x20) n && bit (s.getF Reg.hstIrqMaskEn) n)

/-- ALARMn is driven low: HST_STATUS.ALARM is 1; main reset releases it (R692). -/
def alarmAsserted (s : State) : Bool := !s.boot.inReset && s.isF Reg.hstStatusAlarm

/-- TSTAT[3:0]: 0b0111 under main reset (R692), otherwise the value shown (R309, R310). -/
def tstatPins (s : State) : Nat := if s.boot.inReset then 7 else s.refs.tstat

/-- What output `n` (CLKOUT0 to 7, then PPSOUT0 to 3) drives: 0 nothing, 1 its waveform, 2 a static level, 3 the safe path (R336, R337,
R692). -/
def outputDrive (n : Nat) (s : State) : Nat :=
  if s.boot.inReset then 0
  else
    let st := outState n s
    if st = 0 then 0 else if st = 1 then 1 else if st = 5 then 3 else 2

/-- Whether the transmitter of lane `n` runs: never under main reset (R692). -/
def laneDrives (n : Nat) (s : State) : Bool := !s.boot.inReset && s.isF (Reg.sdsStatusTxOn n)

/-- The interrupt status word as HST_IRQ_STATUS shows it. -/
def irqStatus (s : State) : Nat := s.regWord 0x20

end Sys2Proof.Machine
end

