-- ==== Sys2Proof/Safety.lean ====
section
/-! DEFINITION. What claims about runs are stated in: the form in which the state holds its sparse tables, the parts of the state and
what a command leaves as it was, and when a step is safe. -/

set_option Elab.async false

namespace Sys2Proof.Machine

/-- Register fields in canonical form: keys strictly rising, and none listed at its reset value. -/
def regsCanonical (l : List (Nat × Nat)) : Bool := spSorted l && l.all (fun e => decide (e.2 ≠ resetOf e.1))

/-- The state holds its register fields and host memory in canonical form, so that equal contents are equal data. -/
def State.canonical (s : State) : Bool := regsCanonical s.regs && Memory.wf s.hostMem

/-- The parts of the state: the registers of each block of R45 (and of no block), then the state's other fields. -/
inductive Part where
  | rHst | rGd | rMbx | rTb | rRs | rPl | rEm | rGn | rTt | rPts | rSds | rSw | rFt | rBf | rFm | rEr | rEvd | rCap | rCt | rMp | rTw | rAo | rCal | rFw | rOther
  | pending | dtt | hostMem | freeCount | evu | rings | bus | mbx | islands | counters | tb | timed | fifos | lanes | calRecs | tt | refs | dpll | gn | em | sw | ft | bf | merges | releases | evd | netRings | selectors | tw | ctSeen | bwFrom | bwEnds | mp | cal | fw | sec | ao | boot
  deriving DecidableEq, Repr

/-- The number of the register part that holds BAR0 offset `a` (R45). -/
def regPart (a : Nat) : Nat :=
  if a < 0x10000 then 0
  else if 0x10000 ≤ a ∧ a < 0x20000 then 1
  else if 0x20000 ≤ a ∧ a < 0x30000 then 2
  else if 0x100000 ≤ a ∧ a < 0x110000 then 3
  else if 0x110000 ≤ a ∧ a < 0x120000 then 4
  else if 0x120000 ≤ a ∧ a < 0x130000 then 5
  else if 0x130000 ≤ a ∧ a < 0x140000 then 6
  else if 0x140000 ≤ a ∧ a < 0x150000 then 7
  else if 0x150000 ≤ a ∧ a < 0x160000 then 8
  else if 0x200000 ≤ a ∧ a < 0x210000 then 9
  else if 0x300000 ≤ a ∧ a < 0x400000 then 10
  else if 0x400000 ≤ a ∧ a < 0x500000 then 11
  else if 0x500000 ≤ a ∧ a < 0x600000 then 12
  else if 0x600000 ≤ a ∧ a < 0x700000 then 13
  else if 0x700000 ≤ a ∧ a < 0x710000 then 14
  else if 0x710000 ≤ a ∧ a < 0x720000 then 15
  else if 0x800000 ≤ a ∧ a < 0x810000 then 16
  else if 0x810000 ≤ a ∧ a < 0x820000 then 17
  else if 0x900000 ≤ a ∧ a < 0xa00000 then 18
  else if 0xa00000 ≤ a ∧ a < 0xa10000 then 19
  else if 0xb00000 ≤ a ∧ a < 0xb10000 then 20
  else if 0xc00000 ≤ a ∧ a < 0xc10000 then 21
  else if 0xd00000 ≤ a ∧ a < 0xd10000 then 22
  else if 0xe00000 ≤ a ∧ a < 0xe10000 then 23
  else 24

/-- Two states agree on every register field of part `k`. -/
def sameRegs (k : Nat) (s t : State) : Prop := ∀ f : Fld, regPart f.addr = k → t.getF f = s.getF f

/-- Two states agree on a part. -/
def Part.same (p : Part) (s t : State) : Prop :=
  match p with
  | .rHst => sameRegs 0 s t
  | .rGd => sameRegs 1 s t
  | .rMbx => sameRegs 2 s t
  | .rTb => sameRegs 3 s t
  | .rRs => sameRegs 4 s t
  | .rPl => sameRegs 5 s t
  | .rEm => sameRegs 6 s t
  | .rGn => sameRegs 7 s t
  | .rTt => sameRegs 8 s t
  | .rPts => sameRegs 9 s t
  | .rSds => sameRegs 10 s t
  | .rSw => sameRegs 11 s t
  | .rFt => sameRegs 12 s t
  | .rBf => sameRegs 13 s t
  | .rFm => sameRegs 14 s t
  | .rEr => sameRegs 15 s t
  | .rEvd => sameRegs 16 s t
  | .rCap => sameRegs 17 s t
  | .rCt => sameRegs 18 s t
  | .rMp => sameRegs 19 s t
  | .rTw => sameRegs 20 s t
  | .rAo => sameRegs 21 s t
  | .rCal => sameRegs 22 s t
  | .rFw => sameRegs 23 s t
  | .rOther => sameRegs 24 s t
  | .pending => t.pending = s.pending
  | .dtt => t.dtt = s.dtt
  | .hostMem => t.hostMem = s.hostMem
  | .freeCount => t.freeCount = s.freeCount
  | .evu => t.evu = s.evu
  | .rings => t.rings = s.rings
  | .bus => t.bus = s.bus
  | .mbx => t.mbx = s.mbx
  | .islands => t.islands = s.islands
  | .counters => t.counters = s.counters
  | .tb => t.tb = s.tb
  | .timed => t.timed = s.timed
  | .fifos => t.fifos = s.fifos
  | .lanes => t.lanes = s.lanes
  | .calRecs => t.calRecs = s.calRecs
  | .tt => t.tt = s.tt
  | .refs => t.refs = s.refs
  | .dpll => t.dpll = s.dpll
  | .gn => t.gn = s.gn
  | .em => t.em = s.em
  | .sw => t.sw = s.sw
  | .ft => t.ft = s.ft
  | .bf => t.bf = s.bf
  | .merges => t.merges = s.merges
  | .releases => t.releases = s.releases
  | .evd => t.evd = s.evd
  | .netRings => t.netRings = s.netRings
  | .selectors => t.selectors = s.selectors
  | .tw => t.tw = s.tw
  | .ctSeen => t.ctSeen = s.ctSeen
  | .bwFrom => t.bwFrom = s.bwFrom
  | .bwEnds => t.bwEnds = s.bwEnds
  | .mp => t.mp = s.mp
  | .cal => t.cal = s.cal
  | .fw => t.fw = s.fw
  | .sec => t.sec = s.sec
  | .ao => t.ao = s.ao
  | .boot => t.boot = s.boot

/-- `t` differs from `s` in the parts named at most. -/
def FrameOf (changed : List Part) (s t : State) : Prop := ∀ p : Part, p ∉ changed → p.same s t

/-- A step is safe where it answers a next state: the manual gives every command of the block one. -/
def stepSafe (s : State) : Prop := ∃ t, step s = .next t

end Sys2Proof.Machine
end

