-- ==== Sys2Proof/Claims.lean ====
section
/-! DEFINITION. The words in which the statements speak of a Bluem command: that it starts, the state in which its effect begins, and the
states in which it ends or goes on. -/

set_option Elab.async false

namespace Sys2Proof.Machine

/-- Core 0 takes command `c` in state `s` and no start check stops it (R102, R104 to R106, R734). -/
def Starts (k : CmdSpec) (c : Cmd) (s : State) : Prop := canStart k c s = true ∧ startCheck k c s = none

/-- The state in which the effect of command `c` begins: its entry is taken (R92, R94). -/
def taken (c : Cmd) (s : State) : State := takeEntry c (startStamp c s) s

/-- What follows the effect `s1` of a command that started in `s` with reply `r`: the mirroring and the completion (R99, R119, R121). -/
def ended (k : CmdSpec) (c : Cmd) (s s1 : State) (r : Reply) : State :=
  finish k.opcode c (headSlot c s) (startStamp c s) (8 * b2n (resumes c s)) (mirrorSeq c (mirrors k c s) s) r (mirrorOut k.opcode c (mirrors k c s) s1)

/-- The parts of the state that taking an entry and completing a command can change beside the command's own effect: the mailbox and its rings, the
host's memory, the twin's control frames, and for a command of an FK2410 image what is left of that image (R703). -/
def mailboxParts : List Part := [.rMbx, .rTw, .hostMem, .rings, .bus, .mbx, .tw, .boot]

/-- The fresh step record of a stepped command that starts in `s` (R110). -/
def firstRecord (k : CmdSpec) (c : Cmd) (s : State) : LongOp :=
  { opcode := k.opcode, cmd := c, slot := headSlot c s, tStart := startStamp c s, done := 0, estimate := 0,
    lastProgress := startStamp c s, work := [], acc := [], v := [], resumed := resumes c s, recordOk := true, dropped := false,
    mirror := mirrorSeq c (mirrors k c s) s }

/-- The parts that a stepped command's first step can change beside its own effect: those of a completion, and the MBX step store with its memory
protection (R110). -/
def stepParts : List Part := .rMp :: .mp :: mailboxParts

/-- The state in which a stepped command takes its first step: its entry is taken, it is mirrored, and it is the command in progress. -/
def begun (k : CmdSpec) (c : Cmd) (s : State) : State :=
  let t := mirrorOut k.opcode c (mirrors k c s) (taken c s)
  { t with mbx := { t.mbx with longOp := some (firstRecord k c s) } }

/-- What follows the first step of a stepped command: the step record, or its completion (R110). -/
def stepped (k : CmdSpec) (c : Cmd) (s s1 : State) (e : StepEnd) : State := afterStep k (firstRecord k c s) (s1, e)

/-- The command waits with no reply yet: it is held, with what its completion will need. -/
def heldBack (k : CmdSpec) (c : Cmd) (s s1 : State) : State :=
  let t := mirrorOut k.opcode c (mirrors k c s) s1
  { t with mbx := { t.mbx with held := some ⟨k.opcode, c, headSlot c s, startStamp c s, mirrorSeq c (mirrors k c s) s, false, resumes c s⟩ } }

/-- Every register field but those listed reads in `t` as it read in `s`. -/
def FieldsOf (fs : List Fld) (s t : State) : Prop := ∀ f : Fld, f.key ∉ fs.map Fld.key → t.getF f = s.getF f

/-- The two words of the 64-bit pair at offset `a`. -/
def pair (a : Nat) : List Fld := [word a, word (a + 4)]

/-- The three words of the 96-bit value at offset `a`. -/
def triple (a : Nat) : List Fld := [word a, word (a + 4), word (a + 8)]

/-- The changes recorded for the timed value at `a`, which holds `now` where none is recorded (R180, R263, R501, R527). -/
def timedOf (a : Nat) (now : Int) (s : State) : Timed :=
  match s.timed.find? (fun e => e.1 = a) with
  | some e => e.2
  | none => ⟨now, []⟩

/-! ### Register accesses -/

/-- Nothing is mapped where an access goes (R45 to R47, R55). -/
def unmapped (a : Access) : Bool :=
  if a.bar = 4 then
    !(decide (a.off = 0 ∨ a.off = 0x40 ∨ (0x100 ≤ a.off ∧ a.off < 0x300 ∧ a.off % 0x40 = 0) ∨ (0x2000 ≤ a.off ∧ a.off < 0x2400 ∧ a.off % 4 = 0) ∨
      a.off = 0x3000 ∨ a.off = 0x3004))
  else
    let off := if a.bar = 2 then 0x900000 + a.off else a.off
    (decide (a.bar = 2) && decide (0x100000 ≤ a.off)) || decide (off % 4 ≠ 0) ||
    (!(decide (0x900000 ≤ off) && decide (off < 0x930000)) && !(decide (0x980000 ≤ off) && decide (off < 0x982000)) && (regAt off).isNone)

/-- Offsets of the keyed pairs' _A words: HST_RESET and the guard bounds (R61, R674). -/
def keyedPairs : List Nat := [0x30, 0x10010, 0x10018, 0x10020, 0x10028, 0x10030, 0x10038]

/-- Offsets of the RW pairs' _LO words: the ring bases (R60). -/
def rwPairs : List Nat := [0x40, 0x20000, 0x20008, 0x20100, 0x20108, 0x150010, 0x402000, 0x500100]

/-- The state with a read's answer. -/
def answered (bs : Bytes) (s : State) : State := { s with bus := { s.bus with answer := bs } }

/-- A write of all four bytes at BAR0 offset `off` that reaches the device: main reset does not hold and the owner lock does not shut its
path out (R681, R692). -/
def FullWrite (a : Access) (off : Nat) (s : State) : Prop :=
  s.boot.inReset = false ∧ jtagShut a true s = false ∧ a.bar = 0 ∧ a.off = off ∧ a.be % 16 = 15

/-- A write of some bytes at BAR0 offset `off` that reaches the device. -/
def SomeWrite (a : Access) (off : Nat) (s : State) : Prop :=
  s.boot.inReset = false ∧ jtagShut a true s = false ∧ a.bar = 0 ∧ a.off = off ∧ a.be % 16 ≠ 0

/-- A read of some bytes at BAR0 offset `off` that reaches the device. -/
def SomeRead (a : Access) (off : Nat) (s : State) : Prop :=
  s.boot.inReset = false ∧ jtagShut a false s = false ∧ a.bar = 0 ∧ a.off = off ∧ a.be % 16 ≠ 0

/-- The register's word with the bytes that a write enables replaced (R51). -/
def newWord (a : Access) (s : State) : Nat := mergeBytes (s.regWord a.off) a.data a.be

/-- The word a path's read of a latching register's _LO answers, and the path's shadow after it (R57, R58). -/
def latched (a : Access) (v : Nat) (s : State) : State :=
  answered (le 4 (maskBytes (v % 2 ^ 32) a.be)) { s with bus := { s.bus with shadows := spSet 0 s.bus.shadows a.path.ctorIdx (v / 2 ^ 32) } }

/-- What a write of a ring's CFG with word `w` and sizes from `lo` to `hi` leaves: EN set with a valid size, where EN was 0 or CFG_ERR 1, starts the
ring anew; with another size it sets CFG_ERR; every other write stores its fields and starts nothing (R71). `more` are the register's other fields. -/
def RingWritten (R : RingRegs) (lo hi w : Nat) (more : List Fld) (s u : State) : Prop :=
  u.getF R.en = w % 2 ∧ u.getF R.log = w / 256 % 32 ∧
  (if w % 2 = 1 ∧ ¬(lo ≤ w / 256 % 32 ∧ w / 256 % 32 ≤ hi) then
    u.getF R.err = 1 ∧ FieldsOf ([R.en, R.log, R.err] ++ more) s u ∧ u = { s with regs := u.regs }
  else if w % 2 = 1 ∧ (s.isF R.en = false ∨ s.isF R.err = true) then
    u.getF R.err = 0 ∧ u.getF R.prod = 0 ∧ u.getF R.phase = 1 ∧ u.ringDyn R.id = ⟨[], false⟩ ∧
    FieldsOf ([R.en, R.log, R.err, R.prod, R.phase] ++ more) s u ∧ u = { s with regs := u.regs, rings := u.rings }
  else u.getF R.err = 0 ∧ FieldsOf ([R.en, R.log, R.err] ++ more) s u ∧ u = { s with regs := u.regs })

/-- The state with doorbell `off` of BAR4 holding the value written (R47). -/
def rung (a : Access) (s : State) : State := { s with bus := { s.bus with doorbells := spSet 0 s.bus.doorbells a.off a.data } }

/-- A doorbell write of all four bytes at BAR4 offset `off` that reaches the device. -/
def FullBell (a : Access) (off : Nat) (s : State) : Prop :=
  s.boot.inReset = false ∧ jtagShut { a with bar := 4 } true s = false ∧ a.off = off ∧ a.be % 16 = 15

/-- A descriptor of the host transmit ring can be taken: the ring is enabled with a valid size, and its head has not reached its tail (R418). -/
def HtxReady (s : State) : Prop :=
  s.isF Reg.swHtxCfgEn = true ∧ s.isF Reg.swHtxCfgCfgErr = false ∧ s.getF Reg.swHtxHeadIndex ≠ s.getF Reg.swHtxTailIndex

/-- The frame of a host transmit descriptor: its bytes padded to 60, with FCS, and TAG where FLAGS asks for a transmit record (R417). -/
def htxFrame (desc data : Bytes) (s : State) : Frame :=
  let d := slice data 0 (ofLe (slice desc 8 2)) ++ List.replicate (60 - ofLe (slice desc 8 2)) 0
  { mkFrame 48 (d ++ fcsOf d) s.now80 (!s.innerLocked) s with hostTag := if bit (ofLe (slice desc 12 1)) 0 then some (ofLe (slice desc 10 2)) else none, whole := true }

/-- Whether a descriptor's FLAGS, QUEUE, EGRESS or reserved byte holds a value that R417 does not give. -/
def htxWrong (desc : Bytes) (s : State) : Prop :=
  4 ≤ ofLe (slice desc 12 1) ∨ 8 ≤ ofLe (slice desc 13 1) ∨ ofLe (slice desc 15 1) ≠ 0 ∨
  (bit (ofLe (slice desc 12 1)) 1 = true ∧ (48 ≤ ofLe (slice desc 14 1) ∨ inGroup (ofLe (slice desc 14 1)) s = true)) ∨
  (bit (ofLe (slice desc 12 1)) 1 = false ∧ ofLe (slice desc 14 1) ≠ 0xFF)

/-- The longest data of a descriptor: MAX_FRAME of the port it names, or of the host port, less the FCS (R417). -/
def htxMost (desc : Bytes) (s : State) : Nat :=
  (s.swPort (if bit (ofLe (slice desc 12 1)) 1 then ofLe (slice desc 14 1) else 48)).maxFrame - 4

/-! ### Sessions -/

/-- PTP message type of a claimed message. -/
def msgType (r : PtpRx) : Nat := fb r.msg 0 1 % 16

/-- Session `k` has accepted fewer than 256 event messages in this second of DTT (R244). -/
def WithinRate (k : Nat) (s : State) : Prop := (s.session k).gotIn.1 = s.dtt / 781250000 → (s.session k).gotIn.2 < 256

/-- The state in which the oldest claimed message `r` has left the inbox. -/
def msgTaken (r : PtpRx) (s : State) : State := { s with tt := { s.tt with inbox := s.tt.inbox.erase r, out := [] } }

/-- The state that has counted message `r` as accepted where it is an event message (R244). -/
def msgCounted (r : PtpRx) (s : State) : State := if msgType r < 4 then (ttAccept r.session (msgTaken r s)).2 else msgTaken r s

/-- What a session keeps of an event message it has received. -/
def msgEvent (r : PtpRx) (s : State) : EventMsg := ⟨fb r.msg 30 2, r.x, r.stepc (s.session r.session).domain, corrField r.msg, r.bad, none, r.qc⟩

/-- The session that claimed the message is RUNNING or in PHASE, and accepts it (R242, R244); `p` and `m` measure the egress of an answer to a
Pdelay_Req. -/
def MsgAccepted (r : PtpRx) (p m : EdgeMeas) (s : State) : Prop :=
  s.tt.inbox.find? (fun q => !isSignaling q) = some r ∧ 2 ≤ ttState r.session s ∧
  (msgType r = 2 → measures (s.session r.session).port p s = true ∧ measures (s.session r.session).port m s = true) ∧
  (msgType r < 4 → WithinRate r.session s)

/-- A periodic message of `kind` may leave session `k` now: it is RUNNING or in PHASE, its transmit instant for the interval 2^`l` s stands, this message
has not left at it, an event message is within 128 of this second, and `p` and `m` measure its port (R243, R245). -/
def PeriodicNow (k kind : Nat) (l : Int) (p m : EdgeMeas) (s : State) : Prop :=
  k < 256 ∧ 2 ≤ ttState k s ∧ spGet none (s.session k).lastTx kind ≠ some s.dtt ∧ atInstant k l s.dtt = true ∧
  (kind < 3 → sentNow k s < 128 ∧ measures (s.session k).port p s = true ∧ measures (s.session k).port m s = true)

/-! ### The pipeline -/

/-- No error is injected into the live line code of egress `n` (R226). -/
def NoInjection (n : Nat) (s : State) : Prop :=
  48 ≤ n ∨ ∀ k ∈ portLanes n s, s.isF (Reg.sdsPrbsCtrlTraffic k) = false ∨ s.isF (Reg.sdsStatusPrbsTx k) = true

/-- Egress `n` can begin a frame now: it exists, its transmitter is configured and `m` measures it, nothing is in transmission, it is released, and neither a
hold nor the partner's remote fault keeps frames back (R208, R229, R486). -/
def CanBegin (n : Nat) (m : EdgeMeas) (s : State) : Prop :=
  n < 52 ∧ (48 ≤ n ∨ (s.mode n ≠ 0 ∧ (s.lane n).held = false ∧ (s.lane n).remoteFault = false)) ∧ measures n m s = true ∧
  spGet none s.sw.tx n = none ∧ released n s = true

end Sys2Proof.Machine
end

