-- ==== Sys2Proof/Certificates/Slice0/Obligations.lean ====
section
/-! DEFINITION. The statements about the model: each is about one step or one operation, for every state and operands its hypotheses
admit; `FrameOf` names the parts of the state beside which nothing changes. -/

set_option Elab.async false

open Sys2Proof Sys2Proof.Machine

/-- A step takes the command at the front of the queue and runs it with the queue's rest. A step of a state whose queue begins with `c` is
`exec c` with the rest of the queue; the queue is the model's (log entry on the queue). -/
def Obligations.StepRunsTheFrontCommand : Prop :=
  ∀ (c : Instr) (s : State), step { s with pending := c :: s.pending } = exec c s

/-- A step on an empty queue is one tick of DTT, or nothing while main reset holds. On an empty queue time passes (DESIGN CHOICE: the log
entry on the tick). -/
def Obligations.EmptyQueueIsOneTick : Prop :=
  ∀ s : State, s.pending = [] → step s = .next (tick s) ∧ (s.boot.inReset = false → (tick s).dtt = s.dtt + 1) ∧ (s.boot.inReset = true → tick s = s)

/-- DTT moves by one tick at a time, and no command, register write or firmware action moves it. DTT increases by one at each tick, and no
command of the table but main reset, its release and a thermal reset changes it (R17). -/
def Obligations.DttMovesByTicksAlone : Prop :=
  (∀ s : State, s.boot.inReset = false → s.innerLocked = true → (tick s).dtt = s.dtt + 1) ∧
  (∀ (i : Instr) (s t : State), (∀ cause : Nat, i ≠ .mainResetAssert cause) → (∀ b : BootIn, i ≠ .mainResetRelease b) → i ≠ .thermalReset →
    exec i s = .next t → t.dtt = s.dtt)

/-- The state after reset is canonical, with an empty queue and the reset values the manual gives. What reset leaves: the canonical form and
reset values the manual gives. -/
def Obligations.ResetLeavesTheStatedValues : Prop :=
  State.reset.canonical = true ∧ State.reset.pending = [] ∧ State.reset.hostMem = [] ∧ State.reset.dtt = 0 ∧
  State.reset.isF Reg.hstStatusReady = false ∧ State.reset.isF Reg.hstStatusFwRun = false ∧ State.reset.served = 0 ∧
  State.reset.getF Reg.gdStepMaxA = 0xFFFFFFFF ∧ State.reset.getF Reg.gdSlewMaxA = 1000 ∧ State.reset.getF Reg.gdSteerMaxA = 0xFFFFFFFF ∧
  State.reset.getF Reg.gdMgmtRateA = 1000 ∧ State.reset.twinState = 0 ∧ (∀ g < 16, fmState g State.reset = 0) ∧ (∀ g < 64, erState g State.reset = 0)

/-- Every step of every state answers a next state. Every step answers a next state. -/
def Obligations.EveryStepAnswersANextState : Prop :=
  ∀ s : State, stepSafe s

/-- Every step keeps register fields and host memory in canonical form. The canonical form is an invariant of every step. -/
def Obligations.EveryStepKeepsTheCanonicalForm : Prop :=
  ∀ s t : State, s.canonical = true → step s = .next t → t.canonical = true

/-- TB_STEP of amount 0 completes with ST_OK and changes nothing. A step of amount 0 (R146). -/
def Obligations.AStepOfZeroChangesNothing : Prop :=
  (∀ (c : Cmd) (s : State), Starts tbStepSpec c s → ci c 4 8 = 0 → 
    exec (.tbStep c) s = .next (ended tbStepSpec c s (taken c s) (okWith [(32, le 8 (s.dtt)), (40, le 4 (s.stepc (cu c 0 1))),
      (44, ftBytes (s.timeAt (cu c 0 1) (s.dtt * 2 ^ 16)))])) ∧ FrameOf mailboxParts s (ended tbStepSpec c s (taken c s) (okWith [(32, le 8 (s.dtt)),
      (40, le 4 (s.stepc (cu c 0 1))), (44, ftBytes (s.timeAt (cu c 0 1) (s.dtt * 2 ^ 16)))])))

/-- TB_SET_SERVED to the served domain has no effect, and to one in ACQUIRING or FAULT is refused. Switches to the served domain and to a
domain in ACQUIRING or FAULT (R157). -/
def Obligations.SwitchesThatDoNotSwitch : Prop :=
  (∀ (c : Cmd) (s : State), Starts tbSetServedSpec c s → cu c 0 1 = s.served → 
    ∃ s1 r, exec (.tbSetServed c) s = .next (ended tbSetServedSpec c s s1 r) ∧ FrameOf [.rTb, .tb] (taken c s) s1 ∧
      r = okWith [(32, leI 8 0), (40, le 8 0), (48, le 4 (s.stepc s.served))] ∧ s1 = taken c s) ∧
  (∀ (c : Cmd) (s : State), Starts tbSetServedSpec c s → cu c 0 1 ≠ s.served → s.qcState (cu c 0 1) = 1 ∨ s.qcState (cu c 0 1) = 7 → 
    ∃ s1 r, exec (.tbSetServed c) s = .next (ended tbSetServedSpec c s s1 r) ∧ FrameOf [.rTb, .tb] (taken c s) s1 ∧
      r = failWith stRefused 0x0202 ∧ s1 = taken c s)

/-- Unmapped, read-only, partial W32, BAR2 and long BAR4 accesses are answered by ACCESS_FAULT and change nothing else. Accesses that end in
ACCESS_FAULT and nothing else (R46, R52, R54 to R56). -/
def Obligations.AccessesTheDeviceRefuses : Prop :=
  (∀ (a : Access) (s : State), s.boot.inReset = false → unmapped a = true → a.be % 16 ≠ 0 → 
    exec (.unmappedRead a) s = .next (answered (le 4 (maskBytes (2 ^ 32 - 1) a.be)) (accessFault a false s))) ∧
  (∀ (a : Access) (s : State), s.boot.inReset = false → unmapped a = true → a.be % 16 ≠ 0 → 
    exec (.unmappedWrite a) s = .next (accessFault a true s)) ∧
  (∀ (a : Access) (d : RegDesc) (s : State), s.boot.inReset = false → a.bar = 0 → isCore a.path = false → regAt a.off = some d → ptsShut a.off s = false → readOnly d = true → a.be % 16 ≠ 0 → 
    exec (.readOnlyWrite a) s = .next (accessFault a true s)) ∧
  (∀ (a : Access) (d : RegDesc) (s : State), s.boot.inReset = false → a.bar = 0 → regAt a.off = some d → ptsShut a.off s = false → d.w32 = true → a.be % 16 ≠ 15 → a.be % 16 ≠ 0 → 
    exec (.partialW32Write a) s = .next (accessFault a true s)) ∧
  (∀ (a : Access) (s : State), s.boot.inReset = false → a.be % 16 ≠ 0 → 
    exec (.bar2Write a) s = .next (accessFault { a with bar := 2 } true s)) ∧
  (∀ (a : Access) (more : List (Nat × Nat)) (s : State), s.boot.inReset = false → a.off < 0x1000 → more ≠ [] → 
    exec (.bar4LongWrite a more) s = .next (accessFault { a with bar := 4 } true s)) ∧
  (∀ (a : Access) (d : RegDesc) (s : State), s.boot.inReset = false → jtagShut a true s = false → a.bar = 0 → isCore a.path = true → regAt a.off = some d → ptsShut a.off s = false → (d.w32 = true → a.be % 16 = 15) → readOnly d = true → a.be % 16 ≠ 0 → 
    exec (.readOnlyWrite a) s = .next (if inGd a.off = true ∨ a.off = 0x30 ∨ a.off = 0x34 then discarded a.off a.path .locked a.data s else accessFault a true s))

/-- ACCESS_FAULT sets HST_STATUS.ACCESS_FAULT, HST_FAULT_ADDR and raises record 0x0001 of source 131. What an access fault writes (R55,
R70). -/
def Obligations.AccessFaultIsLogged : Prop :=
  ∀ (a : Access) (w : Bool) (s : State), s.mp.errs = [] →
    (accessFault a w s).getF Reg.hstStatusAccessFault = 1 ∧ (accessFault a w s).getF Reg.hstFaultAddrWrite = b2n w ∧
    (accessFault a w s).getF Reg.hstFaultAddrReq = a.path.ctorIdx ∧ (accessFault a w s).getF Reg.hstFaultAddrBar = a.bar / 2 % 4 ∧
    (accessFault a w s).getF Reg.hstFaultAddrOffset = a.off % 2 ^ 26 ∧
    (accessFault a w s).counter (devCtr 28) = (s.counter (devCtr 28) + 1) % 2 ^ 64 ∧
    (s.getF Reg.hstEvrCfgMinsev ≤ 1 → ∃ e : EventRec, (accessFault a w s).evu = { s.evu with held := s.evu.held ++ [e] } ∧
      e.stamp = s.dtt ∧ e.src = 131 ∧ e.sev = 1 ∧ e.code = 1 ∧ e.late = false) ∧
    FieldsOf [Reg.hstStatusAccessFault, Reg.hstFaultAddrWrite, Reg.hstFaultAddrReq, Reg.hstFaultAddrBar, Reg.hstFaultAddrOffset, Reg.ctOvf 744]
      s (accessFault a w s) ∧ FrameOf [.rHst, .rCt, .evu, .counters, .bus] s (accessFault a w s)

/-- Register writes and reads of one word and of several, latching pairs, RW pairs and keyed pairs. What an access of one word does, and that a longer one
is its words in ascending order, but for a 64-bit write to an RW pair (R51, R53, R56 to R65, R675, R698). -/
def Obligations.RegisterWritesAndPairs : Prop :=
  (∀ (a : Access) (d : RegDesc) (s : State), SomeWrite a a.off s → regAt a.off = some d → a.off % 4 = 0 → d.kind = .plain → readOnly d = false → (d.w32 = true → a.be % 16 = 15) → ptsShut a.off s = false → (isCore a.path = true → inGd a.off = false) → a.off ≠ 0x10000 → a.off ≠ 0x100040 → writeIndex a.off a.data s = none → 
    exec (.registerWrite a []) s = .next (written a.off s (writeFields a.off a.data a.be d s))) ∧
  (∀ (a : Access) (d : RegDesc) (s : State), FullWrite a a.off s → regAt a.off = some d → a.off % 4 = 0 → ptsShut a.off s = false → isCore a.path = true → inGd a.off = true ∨ a.off = 0x30 ∨ a.off = 0x34 → 
    exec (.registerWrite a []) s = .next (discarded a.off a.path .locked a.data s)) ∧
  (∀ (a : Access) (d : RegDesc) (s : State), SomeWrite a a.off s → regAt a.off = some d → a.off % 4 = 0 → ptsShut a.off s = true → 
    exec (.registerWrite a []) s = .next s) ∧
  (∀ (a : Access) (s : State), s.boot.inReset = true ∨ a.be % 16 = 0 → 
    exec (.registerWrite a []) s = .next s) ∧
  (∀ (a : Access) (s : State), s.boot.inReset = false → jtagShut a true s = true → a.be % 16 ≠ 0 → 
    exec (.registerWrite a []) s = .next (accessFault a true s)) ∧
  (∀ (a : Access) (be v : Nat) (rest : List (Nat × Nat)) (s : State), s.boot.inReset = false → ¬(a.bar = 4 ∧ a.off < 0x1000) → (rest = [] → isPair a = false ∨ a.off % 8 ≠ 0 ∨ jtagShut a true s = true) → 
    ∃ t, exec (.registerWrite a []) s = .next t ∧ exec (.registerWrite a ((be, v) :: rest)) s = .next (writeMore a ((be, v) :: rest) t)) ∧
  (∀ (a : Access) (v : Nat) (s : State), FullWrite a a.off s → a.off ∈ rwPairs → 
    ∃ t, exec (.registerWrite a [(15, v)]) s = .next t ∧ t.get64 a.off = a.data % 2 ^ 32 / 4096 * 4096 + 2 ^ 32 * (v % 2 ^ 32) ∧ staged a.off t = none ∧
      FieldsOf (pair a.off) s t ∧ t = { s with regs := t.regs, bus := { s.bus with staging := t.bus.staging } }) ∧
  (∀ (a : Access) (d : RegDesc) (s : State), SomeRead a a.off s → regAt a.off = some d → d.kind = .latchLo → a.off % 8 = 0 → ¬(0x900000 ≤ a.off ∧ a.off < 0x930000) → ¬(0x980000 ≤ a.off ∧ a.off < 0x982000) → a.off ≠ Reg.hstDtt → a.off ≠ Reg.aoTime → 
    exec (.latchingLoRead a []) s = .next (latched a (if ptsShut a.off s then 0 else s.get64 a.off) s)) ∧
  (∀ (a : Access) (s : State), SomeRead a Reg.hstDtt s → 
    exec (.latchingLoRead a []) s = .next (latched a s.dtt s)) ∧
  (∀ (a : Access) (s : State), SomeRead a Reg.aoTime s → 
    exec (.latchingLoRead a []) s = .next (latched a ((s.ao.tick + s.draw.1) % 2 ^ 64) { s.draw.2 with ao := { s.ao with tick := (s.ao.tick + s.draw.1) % 2 ^ 64 } })) ∧
  (∀ (a : Access) (c : Nat) (s : State), SomeRead a (0x900000 + 8 * c) s → c < 24576 → s.mp.errs = [] → 
    exec (.latchingLoRead a []) s = .next (latched a (s.counter c) s)) ∧
  (∀ (a : Access) (d : RegDesc) (s : State), SomeRead a a.off s → regAt a.off = some d → d.kind = .latchHi → a.off % 4 = 0 → ¬(0x900000 ≤ a.off ∧ a.off < 0x930000) → ¬(0x980000 ≤ a.off ∧ a.off < 0x982000) → 
    exec (.latchingLoRead a []) s = .next (answered (le 4 (maskBytes (shadowOf a.path s) a.be)) s)) ∧
  (∀ (a : Access) (be : Nat) (rest : List Nat) (s : State), s.boot.inReset = false → 
    exec (.latchingLoRead a (be :: rest)) s = .next (answered (le 4 (readWord a s).1 ++ (readMore a (be :: rest) (readWord a s).2).1) (readMore a (be :: rest) (readWord a s).2).2)) ∧
  (∀ (a : Access) (s : State), SomeWrite a a.off s → a.off ∈ rwPairs → 
    exec (.pairLoWrite a) s = .next ({ s with bus := { s.bus with staging := spSet none s.bus.staging a.off (some (mergeBytes ((staged a.off s).getD (s.regWord a.off)) a.data a.be)) } })) ∧
  (∀ (a : Access) (s : State), SomeWrite a a.off s → 4 ≤ a.off → a.off - 4 ∈ rwPairs → 
    ∃ t, exec (.pairHiWrite a) s = .next t ∧
      t.get64 (a.off - 4) = (staged (a.off - 4) s).getD (s.getF (word (a.off - 4))) % 2 ^ 32 / 4096 * 4096 + 2 ^ 32 * newWord a s ∧
      staged (a.off - 4) t = none ∧ FieldsOf (pair (a.off - 4)) s t ∧ t = { s with regs := t.regs, bus := { s.bus with staging := t.bus.staging } }) ∧
  (∀ (a : Access) (s : State), FullWrite a a.off s → a.off ∈ keyedPairs → isCore a.path = false → s.isF Reg.gdLockLock = false → (∀ k ∈ s.bus.keyed, ¬(k.off = a.off ∧ k.path = a.path)) → 
    exec (.keyedAWrite a) s = .next ({ s with bus := { s.bus with keyed := s.bus.keyed ++ [⟨a.off, a.path, a.data, s.dtt⟩] } })) ∧
  (∀ (a : Access) (k : KeySeq) (s : State), FullWrite a a.off s → a.off ∈ keyedPairs → isCore a.path = false → s.isF Reg.gdLockLock = false → keySeq a.off a.path s = some k → s.dtt < k.opened + 33 → 
    exec (.keyedAWrite a) s = .next (discarded a.off a.path .keyFail a.data (keyEnd a.off a.path s))) ∧
  (∀ (a : Access) (s : State), FullWrite a a.off s → a.off ∈ keyedPairs → isCore a.path = true ∨ s.isF Reg.gdLockLock = true ∧ (∀ k, keySeq a.off a.path s = some k → s.dtt < k.opened + 33) → 
    exec (.keyedAWrite a) s = .next (discarded a.off a.path .locked a.data s)) ∧
  (∀ (a : Access) (off : Nat) (k : KeySeq) (s : State), FullWrite a (off + 4) s → off ∈ keyedPairs → isCore a.path = false → s.isF Reg.gdLockLock = false → keySeq off a.path s = some k → s.dtt < k.opened + 33 → 
    exec (.keyedBWrite a) s = .next (if a.data = 2 ^ 32 - 1 - k.value then keyCommit off k.value (keyEnd off a.path s) else discarded (off + 4) a.path .keyFail a.data (keyEnd off a.path s))) ∧
  (∀ (a : Access) (off : Nat) (s : State), FullWrite a (off + 4) s → off ∈ keyedPairs → isCore a.path = false → s.isF Reg.gdLockLock = false → keySeq off a.path s = none → 
    exec (.keyedBWrite a) s = .next (discarded (off + 4) a.path .keyFail a.data s)) ∧
  (∀ (a : Access) (off : Nat) (s : State), FullWrite a (off + 4) s → off ∈ keyedPairs → isCore a.path = true → 
    exec (.keyedBWrite a) s = .next (discarded (off + 4) a.path .locked a.data s)) ∧
  (∀ (a : Access) (be data : Nat) (s : State), FullWrite a a.off s → a.off ∈ keyedPairs → isCore a.path = false → s.isF Reg.gdLockLock = false → (∀ k ∈ s.bus.keyed, ¬(k.off = a.off ∧ k.path = a.path)) → be % 16 = 15 → 
    exec (.keyedPairWrite64 a be data) s = .next (if data = 2 ^ 32 - 1 - a.data then keyCommit a.off a.data s else discarded (a.off + 4) a.path .keyFail data s)) ∧
  (∀ (a : Access) (be data : Nat) (s : State), FullWrite a a.off s → a.off ∈ keyedPairs → isCore a.path = true → be % 16 = 15 → 
    exec (.keyedPairWrite64 a be data) s = .next (discarded (a.off + 4) a.path .locked data (discarded a.off a.path .locked a.data s))) ∧
  (∀ (off : Nat) (p : Path) (k : KeySeq) (s : State), s.boot.inReset = false → keySeq off p s = some k → 
    exec (.keyedSequenceTimeout off p) s = .next (if k.opened + 32 ≤ s.dtt then discarded off p .keyFail k.value (keyEnd off p s) else s)) ∧
  (∀ (off : Nat) (p : Path) (s : State), s.boot.inReset = true ∨ keySeq off p s = none → 
    exec (.keyedSequenceTimeout off p) s = .next s) ∧
  (∀ (a : Access) (s : State), FullWrite a 0x10000 s → isCore a.path = false → 
    exec (.gdLockSet a) s = .next (if bit a.data 0 then s.setF Reg.gdLockLock 1 else if s.isF Reg.gdLockLock then discarded 0x10000 a.path .lkClear a.data s else s)) ∧
  (∀ (a : Access) (s : State), FullWrite a 0x10000 s → isCore a.path = true → 
    exec (.gdLockSet a) s = .next (discarded 0x10000 a.path .locked a.data s)) ∧
  (∀ (a : Access) (be data : Nat) (s : State), FullWrite a 0x30 s → isCore a.path = false → s.isF Reg.gdLockLock = false → (∀ k ∈ s.bus.keyed, ¬(k.off = a.off ∧ k.path = a.path)) → be % 16 = 15 → data = 2 ^ 32 - 1 - a.data → 
    exec (.hstReset a be data) s = .next (if a.data = 1 then { s.setF (word 0x30) 1 with boot := { s.boot with hstResetAt := some s.dtt } } else s.setF (word 0x30) a.data)) ∧
  (∀ (a : Access) (be data : Nat) (s : State), FullWrite a 0x30 s → isCore a.path = false → s.isF Reg.gdLockLock = false → (∀ k ∈ s.bus.keyed, ¬(k.off = a.off ∧ k.path = a.path)) → be % 16 = 15 → data ≠ 2 ^ 32 - 1 - a.data → 
    exec (.hstReset a be data) s = .next (discarded 0x34 a.path .keyFail data s)) ∧
  (∀ (a : Access) (be data : Nat) (s : State), FullWrite a 0x30 s → isCore a.path = true → be % 16 = 15 → 
    exec (.hstReset a be data) s = .next (discarded 0x34 a.path .locked data (discarded 0x30 a.path .locked a.data s)))

/-- A keyed value is stored within its range, and a falling bit of a port bound stops that port. What a keyed value that takes effect does
to the registers (R61, R674). -/
def Obligations.KeyedValueTakesEffect : Prop :=
  (∀ (off v : Nat) (s : State), off ∈ keyedPairs → off ≠ 0x10028 → off ≠ 0x10030 →
    (keyCommit off v s).getF (word off) = keyStored off v % 2 ^ 32 ∧ FieldsOf [word off] s (keyCommit off v s) ∧
    1 ≤ keyStored 0x10018 v ∧ keyStored 0x10018 v ≤ 1000 ∧ 1 ≤ keyStored 0x10038 v ∧ keyStored 0x10038 v ≤ 10000 ∧
    FrameOf [.rHst, .rGd, .boot] s (keyCommit off v s)) ∧
  (∀ (v p : Nat) (s : State), p < 32 → bit (s.regWord 0x10028) p = true → bit v p = false → inGroup p s = false → 
    (keyCommit 0x10028 v s).isF (Reg.sdsStatusTxOn p) = false ∧ (keyCommit 0x10028 v s).getF (word 0x10028) = v % 2 ^ 32) ∧
  (∀ (v p : Nat) (s : State), 32 ≤ p → p < 48 → bit (s.regWord 0x10030) (p - 32) = true → bit v (p - 32) = false → inGroup p s = false → 
    (keyCommit 0x10030 v s).isF (Reg.sdsStatusTxOn p) = false ∧ (keyCommit 0x10030 v s).getF (word 0x10030) = v % 2 ^ 17) ∧
  (∀ (v n : Nat) (s : State), 48 ≤ n → n < 52 → bit (s.regWord 0x10030) 16 = true → bit v 16 = false → 
    (keyCommit 0x10030 v s).isF (Reg.sdsStatusTxOn n) = false ∧ (keyCommit 0x10030 v s).getF (word 0x10030) = v % 2 ^ 17)

/-- RW fields take the enabled bytes, W1C bits go where 1 is written, other fields stay. What a write does to each field of a plain register
(R51, R56). -/
def Obligations.RegisterFieldsFollowTheirAccessCodes : Prop :=
  ∀ (off v be : Nat) (d : RegDesc) (s : State), (d.fields.map (·.lo)).Nodup → (∀ f ∈ d.fields, f.lo < 32 ∧ f.lo ≤ f.hi) →
    FieldsOf (d.fields.map (fun f => ⟨off, f.lo, f.hi - f.lo + 1⟩)) s (writeFields off v be d s) ∧
    (∀ f ∈ d.fields, (writeFields off v be d s).getF ⟨off, f.lo, f.hi - f.lo + 1⟩ =
      match f.acc with
      | .rw => mergeBytes (s.regWord off) v be / 2 ^ f.lo % 2 ^ (f.hi - f.lo + 1)
      | .w1c => if bit (maskBytes v be) f.lo = true ∧ ¬(spGet 0 s.bus.raised (Fld.key ⟨off, f.lo, f.hi - f.lo + 1⟩) = s.dtt + 1 ∧
          Config.sameCclk s.dtt (Fld.key ⟨off, f.lo, f.hi - f.lo + 1⟩) = true) then 0 else s.getF ⟨off, f.lo, f.hi - f.lo + 1⟩
      | _ => s.getF ⟨off, f.lo, f.hi - f.lo + 1⟩)

/-- Enabling a ring, returning its slots, and the head, tail and pop registers. Writing a ring's CFG with a valid or another size, and its indexes in and
out of range (R71, R74, R194, R271, R384, R418, R450, R546, R567). -/
def Obligations.RingsAreEnabledAndReturned : Prop :=
  (∀ (a : Access) (s : State), SomeWrite a 0x48 s → 
    ∃ u, exec (.evrRingEnable a) s = .next (evrDrain 513 u) ∧ RingWritten evrRing 6 16 (newWord a s) [Reg.hstEvrCfgMinsev] s u ∧ u.getF Reg.hstEvrCfgMinsev = newWord a s / 2 ^ 16 % 4) ∧
  (∀ (a : Access) (s : State), SomeWrite a 0x150018 s → 
    ∃ u, exec (.ttRecRingEnable a) s = .next (recDrain 513 u) ∧ RingWritten ttRing 6 16 (newWord a s) [] s u) ∧
  (∀ (a : Access) (s : State), SomeWrite a 0x500108 s → 
    ∃ u, exec (.ftLrnRingEnable a) s = .next (u) ∧ RingWritten learnRing 6 16 (newWord a s) [] s u) ∧
  (∀ (a : Access) (s : State), SomeWrite a 0x402008 s → 
    ∃ u, exec (.htxRingEnable a) s = .next u ∧ u.getF Reg.swHtxCfgEn = newWord a s % 2 ∧ u.getF Reg.swHtxCfgLog2sz = newWord a s / 256 % 32 ∧
      u.getF Reg.swHtxCfgCfgErr = (if newWord a s % 2 = 1 ∧ ¬(4 ≤ newWord a s / 256 % 32 ∧ newWord a s / 256 % 32 ≤ 12) then 1 else 0) ∧
      (if newWord a s % 2 = 1 ∧ 4 ≤ newWord a s / 256 % 32 ∧ newWord a s / 256 % 32 ≤ 12 ∧ (s.isF Reg.swHtxCfgEn = false ∨ s.isF Reg.swHtxCfgCfgErr = true) then
        u.getF Reg.swHtxHeadIndex = 0 ∧ u.getF Reg.swHtxTailIndex = 0
      else u.getF Reg.swHtxHeadIndex = s.getF Reg.swHtxHeadIndex ∧ u.getF Reg.swHtxTailIndex = s.getF Reg.swHtxTailIndex) ∧
      FieldsOf [Reg.swHtxCfgEn, Reg.swHtxCfgLog2sz, Reg.swHtxCfgCfgErr, Reg.swHtxHeadIndex, Reg.swHtxTailIndex] s u ∧ u = { s with regs := u.regs }) ∧
  (∀ (a : Access) (s : State), FullWrite a 0x50 s → 
    exec (.evrConsWrite a) s = .next (if a.data % 2 ^ 16 < ringSize evrRing s then evrDrain 513 (ringConsume evrRing (a.data % 2 ^ 16) s).2 else accessFault a true s)) ∧
  (∀ (a : Access) (s : State), FullWrite a 0x150020 s → 
    exec (.ttRecConsWrite a) s = .next (if a.data % 2 ^ 16 < ringSize ttRing s then recDrain 513 (ringConsume ttRing (a.data % 2 ^ 16) s).2 else accessFault a true s)) ∧
  (∀ (a : Access) (s : State), FullWrite a 0x500110 s → 
    exec (.ftLrnConsWrite a) s = .next (if a.data % 2 ^ 16 < ringSize learnRing s then (ringConsume learnRing (a.data % 2 ^ 16) s).2 else accessFault a true s)) ∧
  (∀ (a : Access) (e : Nat) (s : State), FullWrite a (0x130050 + 0x100 * e) s → e < 8 → 
    exec (.emRConsWrite a) s = .next (if a.data % 2 ^ 16 < emRingSize e s then (emConsume e (a.data % 2 ^ 16) s).2 else accessFault a true s)) ∧
  (∀ (a : Access) (e : Nat) (s : State), FullWrite a (0x130050 + 0x100 * e) s → e < 8 → a.data % 2 ^ 16 < emRingSize e s → 
    ∃ t, exec (.emRConsWrite a) s = .next t ∧ t.getF (Reg.emRConsIndex e) = a.data % 2 ^ 16 ∧ FieldsOf [Reg.emRConsIndex e] s t ∧ FrameOf [.rEm, .rings, .bus] s t) ∧
  (∀ (a : Access) (s : State), FullWrite a 0x800028 s → 
    exec (.evdRConsWrite a) s = .next (if a.data % 2 ^ 22 < evdSize s then s.setF Reg.evdRConsIndex a.data else accessFault a true s)) ∧
  (∀ (a : Access) (s : State), FullWrite a 0x40200C s → 
    exec (.htxTailWrite a) s = .next (if a.data % 2 ^ 16 < 2 ^ s.getF Reg.swHtxCfgLog2sz then s.setF Reg.swHtxTailIndex a.data else accessFault a true s)) ∧
  (∀ (a : Access) (q : Nat) (s : State), FullWrite a (0x20020 + 0x100 * q) s → q ≤ 1 → 
    exec (.cqConsWrite a) s = .next (if a.data % 2 ^ 16 < ringSize (cqRing q) s then emptyEnds q (ringConsume (cqRing q) (a.data % 2 ^ 16) s).2 else accessFault a true s)) ∧
  (∀ (a : Access) (q : Nat) (s : State), FullWrite a (0x20020 + 0x100 * q) s → q ≤ 1 → a.data % 2 ^ 16 < ringSize (cqRing q) s → (s.queue q).endsWaiting = [] → 
    ∃ t, exec (.cqConsWrite a) s = .next t ∧ t.getF (Reg.mbxCqConsIndex q) = a.data % 2 ^ 16 ∧ FieldsOf [Reg.mbxCqConsIndex q] s t ∧ FrameOf [.rMbx, .rings, .bus] s t) ∧
  (∀ (a : Access) (n : Nat) (s : State), FullBell a (0x100 + 0x40 * n) s → n < 8 → a.data < nrSize n s → 
    ∃ t, exec (.nrDoorbell a) s = .next t ∧ t = (nrDoorbell n a.data (rung a s)).2 ∧ t.getF (Reg.capNrConsIndex n) = a.data % 2 ^ 16 ∧
      FieldsOf [Reg.capNrConsIndex n] s t ∧ FrameOf [.rCap, .rings, .bus] s t) ∧
  (∀ (a : Access) (n : Nat) (s : State), FullBell a (0x100 + 0x40 * n) s → n < 8 → nrSize n s ≤ a.data → 
    exec (.nrDoorbell a) s = .next (accessFault { a with bar := 4 } true (rung a s))) ∧
  (∀ (a : Access) (p k : Nat) (s : State), FullWrite a (0x200054 + 0x400 * p + 0x20 * (k % 2)) s → p < 48 → k = 2 * p + k % 2 → 
    exec (.stampFifoPop a) s = .next (if inGroup p s then s else setFifo k { s.fifo k with entries := (s.fifo k).entries.drop (a.data % 2 ^ 9) } s)) ∧
  (∀ (a : Access) (e : Nat) (s : State), FullWrite a (0x130030 + 0x100 * e) s → e < 8 → 
    ∃ t, exec (.emFifoPop a) s = .next t ∧ t = emPop e (a.data % 2 ^ 13) s ∧ (t.input e).entries = (s.input e).entries.drop (a.data % 2 ^ 13)) ∧
  (∀ (a : Access) (s : State), SomeWrite a 0x100040 s → 
    exec (.snapTrigger a) s = .next (snapWritten a.data a.be s) ∧ exec (.snapArm a) s = .next (snapWritten a.data a.be s)) ∧
  (∀ (a : Access) (s : State), FullWrite a 0x100040 s → bit a.data 0 = true → bit a.data 8 = false → bit a.data 16 = false → 
    exec (.snapTrigger a) s = .next (((capture 0 (s.dtt * 2 ^ 16) s).setF Reg.tbSnapCtrlArmSrc (a.data / 16 % 8)).setB Reg.tbSnapCtrlArm false)) ∧
  (∀ (a : Access) (s : State), FullWrite a 0x100040 s → bit a.data 0 = false → bit a.data 8 = true → bit a.data 16 = false → 
    exec (.snapArm a) s = .next (armSnap (a.data / 16 % 8) s)) ∧
  (∀ (a : Access) (s : State), FullWrite a 0x100040 s → bit a.data 0 = false → bit a.data 8 = false → bit a.data 16 = false → 
    exec (.snapArm a) s = .next ((s.setF Reg.tbSnapCtrlArmSrc (a.data / 16 % 8)).setB Reg.tbSnapCtrlArm false)) ∧
  (∀ (a : Access) (i : Instr) (s : State), s.boot.inReset = false → a.bar = 0 → a.be % 16 ≠ 15 → a.be % 16 ≠ 0 → a.off ∈ [0x50, 0x20020, 0x20120, 0x150020, 0x500110, 0x800028, 0x40200C] →
    i ∈ [.evrConsWrite a, .ttRecConsWrite a, .ftLrnConsWrite a, .evdRConsWrite a, .htxTailWrite a, .cqConsWrite a] → 
    exec i s = .next (accessFault a true s))

/-- A slot is written at INDEX and PHASE inverts at the wrap; a returned slot frees its place; the condition signals once. The operations of
every ring that follows R71 to R78. -/
def Obligations.RingOperations : Prop :=
  ∀ R ∈ [evrRing, ttRing, learnRing, cqRing 0, cqRing 1], ∀ (bs : Bool → Bytes) (ix : Nat) (s : State), s.getF R.prod < ringSize R s →
    s.getF R.log ≤ 16 →
    (ringPut R bs s).getF R.prod = (s.getF R.prod + 1) % ringSize R s ∧
    (ringPut R bs s).isF R.phase = (if (s.getF R.prod + 1) % ringSize R s = 0 then !s.isF R.phase else s.isF R.phase) ∧
    (∀ k : Nat, s.get64 R.base + s.getF R.prod * R.slot + (bs (s.isF R.phase)).length ≤ 2 ^ 64 → k < (bs (s.isF R.phase)).length →
      memRead (ringPut R bs s).hostMem (s.get64 R.base + s.getF R.prod * R.slot + k) = (bs (s.isF R.phase))[k]?) ∧
    FrameOf [.rHst, .rMbx, .rTt, .rFt, .hostMem, .rings, .bus] s (ringPut R bs s) ∧
    (ringPut R bs s).getF R.cons = s.getF R.cons ∧
    (ix < ringSize R s → (ringConsume R ix s).1 = true ∧ (ringConsume R ix s).2.getF R.cons = ix ∧
      (ringConsume R ix s).2.getF R.prod = s.getF R.prod) ∧
    (ringSize R s ≤ ix → ringConsume R ix s = (false, s)) ∧
    ((s.ringDyn R.id).signalled = true → ringSignal R s = s)

/-- Records pass to the ring 2,048 ticks after their stamp, late ones at once; a ring's hold-off is looked at again. The ordering hold of
event records, and hold-offs (R70, R71, R73, R76 to R78). -/
def Obligations.EventRecordsPassInOrder : Prop :=
  (∀ (s : State), firstHeld s.evu.held = none → 
    exec .eventRecordWrite s = .next s ∧ exec .eventRecordLate s = .next s) ∧
  (∀ (e : EventRec) (s : State), firstHeld s.evu.held = some e → 
    exec .eventRecordWrite s = .next (if s.dtt < e.stamp + 2048 then s else evrPass { e with late := isLate e s } { s with evu := { s.evu with held := s.evu.held.erase e } })) ∧
  (∀ (e : EventRec) (s : State), firstHeld s.evu.held = some e → e.stamp + 2048 ≤ s.dtt → s.evu.buf = [] → s.mp.errs = [] → ringUsable evrRing s = true → ringFull evrRing s = false → 
    ∃ t, exec .eventRecordWrite s = .next t ∧
      t.getF Reg.hstEvrProdIndex = (s.getF Reg.hstEvrProdIndex + 1) % ringSize evrRing s ∧ t.evu.held = s.evu.held.erase e ∧ t.evu.buf = [] ∧
      t.evu.nextSeq = (s.evu.nextSeq + 1) % 2 ^ 32 ∧ t.evu.lossPending = false ∧
      t.hostMem = memWriteBytes s.hostMem (s.get64 Reg.hstEvrBase + s.getF Reg.hstEvrProdIndex * 32)
        ({ e with late := isLate e s, seq := s.evu.nextSeq }.encode (s.isF Reg.hstEvrProdPhase) s.evu.lossPending)) ∧
  (∀ (e : EventRec) (n : Nat) (s : State), s.evu.newest = some n → (isLate e s = true ↔ e.stamp < n)) ∧
  (∀ (e : EventRec) (s : State), firstHeld s.evu.held = some e → 
    exec .eventRecordLate s = .next (if isLate e s then evrPass { e with late := true } { s with evu := { s.evu with held := s.evu.held.erase e } } else s)) ∧
  (∀ R ∈ [evrRing, cqRing 0, cqRing 1, ttRing, learnRing], ∀ s : State, exec (.ringHoldoffExpiry R.id) s = .next (ringSignal R s)) ∧
  (∀ R ∈ [cqRing 0, cqRing 1, ttRing, learnRing], ∀ (x : Nat) (rest : List Nat) (s : State), (s.ringDyn R.id).signalled = false → (s.ringDyn R.id).times = x :: rest →
    s.getF R.holdoff * 78125 ≤ (s.dtt - x) * 100 → 
    exec (.ringHoldoffExpiry R.id) s = .next ((s.setRing R.id ⟨x :: rest, true⟩).signalVector R.vector)) ∧
  (∀ (x : Nat) (rest : List Nat) (s : State), (s.ringDyn 0).signalled = false → (s.ringDyn 0).times = x :: rest → s.getF Reg.hstEvrIrqHoldoff * 78125 ≤ (s.dtt - x) * 100 → 
    exec (.ringHoldoffExpiry 0) s = .next (((s.setRing 0 ⟨x :: rest, true⟩).signalVector 0).raiseBit Reg.hstIrqStatusEvr)) ∧
  (∀ (n : Nat) (s : State), n < 8 → 
    exec (.ringHoldoffExpiry (16 + n)) s = .next (nrSignal n s) ∧ exec (.ringHoldoffExpiry (24 + n)) s = .next (emSignal n s)) ∧
  (∀ (r : Nat) (s : State), 32 ≤ r ∨ (5 ≤ r ∧ r < 16) → 
    exec (.ringHoldoffExpiry r) s = .next s)

/-- A host transmit descriptor is taken at the head, and its STATUS names what became of it. Host transmit descriptors: the frame enters the host port's
pipeline or the egress it names, or the code of what stopped it is written (R417, R418, R431). -/
def Obligations.HostTransmitDescriptors : Prop :=
  (∀ (desc data : Bytes) (readable : Bool) (s : State), ¬HtxReady s → 
    exec (.hostTxDescriptor desc data readable) s = .next s) ∧
  (∀ (desc data : Bytes) (readable : Bool) (s : State), HtxReady s → ofLe (slice desc 8 2) = 0 → 
    ∃ t, exec (.hostTxDescriptor desc data readable) s = .next t ∧
      t = htxDone 1 s ∧ t.getF Reg.swHtxHeadIndex = (s.getF Reg.swHtxHeadIndex + 1) % 2 ^ s.getF Reg.swHtxCfgLog2sz % 2 ^ 16) ∧
  (∀ (desc data : Bytes) (readable : Bool) (s : State), HtxReady s → ofLe (slice desc 8 2) ≠ 0 → htxWrong desc s → 
    exec (.hostTxDescriptor desc data readable) s = .next (htxDone 5 s)) ∧
  (∀ (desc data : Bytes) (readable : Bool) (s : State), HtxReady s → ofLe (slice desc 8 2) ≠ 0 → ¬htxWrong desc s → htxMost desc s < ofLe (slice desc 8 2) → 
    exec (.hostTxDescriptor desc data readable) s = .next (htxDone 2 s)) ∧
  (∀ (desc data : Bytes) (s : State), HtxReady s → ofLe (slice desc 8 2) ≠ 0 → ¬htxWrong desc s → ofLe (slice desc 8 2) ≤ htxMost desc s → 
    exec (.hostTxDescriptor desc data false) s = .next (htxDone 3 s)) ∧
  (∀ (desc data : Bytes) (f : Frame) (s : State), HtxReady s → ofLe (slice desc 8 2) ≠ 0 → ¬htxWrong desc s → ofLe (slice desc 8 2) ≤ htxMost desc s → 
    bit (ofLe (slice desc 12 1)) 1 = false → s.isF (Reg.swPortStatusL23Rx 48) = true → f = htxFrame desc data s → 
    exec (.hostTxDescriptor desc data true) s = .next (htxDone (if (enterWhole 48 f s).1 then 0 else 4) (enterWhole 48 f s).2)) ∧
  (∀ (desc data : Bytes) (s : State), HtxReady s → ofLe (slice desc 8 2) ≠ 0 → ¬htxWrong desc s → ofLe (slice desc 8 2) ≤ htxMost desc s → 
    bit (ofLe (slice desc 12 1)) 1 = false → s.isF (Reg.swPortStatusL23Rx 48) = false → 
    exec (.hostTxDescriptor desc data true) s = .next (htxDone 4 s)) ∧
  (∀ (desc data : Bytes) (f : Frame) (r : Option Nat × State) (s : State), HtxReady s → ofLe (slice desc 8 2) ≠ 0 → ¬htxWrong desc s → ofLe (slice desc 8 2) ≤ htxMost desc s → 
    bit (ofLe (slice desc 12 1)) 1 = true → f = htxFrame desc data s → 
    r = admitFrame f ⟨[⟨ofLe (slice desc 14 1), ofLe (slice desc 13 1), { Copy.none with direct := true }⟩], none, none, none⟩ f.data.length (countRx 48 f.data s) → 
    exec (.hostTxDescriptor desc data true) s = .next (htxDone (if r.1.isSome then 0 else 4) r.2)) ∧
  (∀ (code : Nat) (s : State), (htxDone code s).getF Reg.swHtxHeadIndex = (s.getF Reg.swHtxHeadIndex + 1) % 2 ^ s.getF Reg.swHtxCfgLog2sz % 2 ^ 16 ∧
    FieldsOf [Reg.swHtxHeadIndex] s (htxDone 0 s) ∧
    (htxDone code s).hostMem = memWriteBytes s.hostMem (s.get64 Reg.swHtxBase + s.getF Reg.swHtxHeadIndex * 16 + 15) (le 1 (1 + 2 * code)))

/-- The SMBus target's commands: identity, status, temperatures, a register read and one command entry. The SMBus target (R79 to R83). -/
def Obligations.BoardManagementOverSmbus : Prop :=
  (∀ (addr : Nat) (s : State), s.boot.inReset = false → addr = s.boot.board.smbAddr → 
    exec (.smbusIdentityRead addr) s = .next (answered (le 4 (s.regWord 0) ++ le 8 Config.serial) (smbNack false s))) ∧
  (∀ (addr : Nat) (s : State), s.boot.inReset = false → addr = s.boot.board.smbAddr → 
    exec (.smbusStatusRead addr) s = .next (answered (le 4 (s.regWord 4) ++ le 1 (s.getF (Reg.tbDStatusQc 0)) ++ le 1 (s.getF (Reg.tbDStatusQc 1)) ++ le 1 s.refs.tstat ++ le 1 (s.regWord 0x10004 % 256)) (smbNack false s))) ∧
  (∀ (addr : Nat) (high low : Int) (s : State), s.boot.inReset = false → addr = s.boot.board.smbAddr → 
    exec (.smbusTemperatureRead addr high low) s = .next (answered (leI 2 high ++ leI 2 low) (smbNack false s))) ∧
  (∀ (addr off : Nat) (s : State), s.boot.inReset = false → addr = s.boot.board.smbAddr → 
    exec (.smbusOffsetWrite addr true off) s = .next { s with bus := { s.bus with smbNack := false, smbOffset := off % 2 ^ 32 } }) ∧
  (∀ (addr : Nat) (s : State), s.boot.inReset = false → addr = s.boot.board.smbAddr → smbBlock s.bus.smbOffset = false → 
    exec (.smbusRegisterRead addr) s = .next (answered (le 4 (2 ^ 32 - 1)) (accessFault ⟨.smbus, 0, s.bus.smbOffset, 15, 0⟩ false (smbNack false s)))) ∧
  (∀ (addr : Nat) (d : RegDesc) (s : State), s.boot.inReset = false → addr = s.boot.board.smbAddr → smbBlock s.bus.smbOffset = true → s.bus.smbOffset % 4 = 0 → regAt s.bus.smbOffset = some d → d.kind = .plain → ¬(0x900000 ≤ s.bus.smbOffset ∧ s.bus.smbOffset < 0xA00000) → 
    exec (.smbusRegisterRead addr) s = .next (answered (le 4 (s.regWord s.bus.smbOffset % 2 ^ 32)) (smbNack false s))) ∧
  (∀ (addr : Nat) (s : State), s.boot.inReset = false → addr = s.boot.board.smbAddr → smbBlock s.bus.smbOffset = true → 
    exec (.smbusRegisterRead addr) s = .next (busRead ⟨.smbus, 0, s.bus.smbOffset, 15, 0⟩ [] (smbNack false s))) ∧
  (∀ (addr n : Nat) (s : State), s.boot.inReset = false → addr = s.boot.board.smbAddr → s.bus.smbBusy = false → 
    exec (.smbusCommandWrite addr true (.command n)) s = .next { s with bus := { s.bus with smbNack := false, smbBusy := true, smbTag := n, smbAt := s.dtt }, mbx := { s.mbx with smbResumed := false } }) ∧
  (∀ (addr : Nat) (e : Fetched) (s : State), s.boot.inReset = false → addr = s.boot.board.smbAddr → s.bus.smbBusy = true → 
    exec (.smbusCommandWrite addr true e) s = .next (smbNack true s)) ∧
  (∀ (addr : Nat) (s : State), s.boot.inReset = false → addr = s.boot.board.smbAddr → 
    exec (.smbusCommandStatus addr) s = .next (answered (le 2 (if s.bus.smbBusy then 0xFFFF else s.bus.smbStatus) ++ record 32 [(0, s.bus.smbCompletion.take 32)]) (smbNack false s))) ∧
  (∀ (addr : Nat) (i : Instr) (high low : Int) (off : Nat) (good : Bool) (e : Fetched) (s : State), s.boot.inReset = false → addr ≠ s.boot.board.smbAddr → 
    i ∈ [.smbusIdentityRead addr, .smbusStatusRead addr, .smbusTemperatureRead addr high low, .smbusOffsetWrite addr good off, .smbusRegisterRead addr, .smbusCommandWrite addr good e,
      .smbusCommandStatus addr] → 
    exec i s = .next (smbNack true s)) ∧
  (∀ (addr off : Nat) (e : Fetched) (s : State), s.boot.inReset = false → 
    exec (.smbusOffsetWrite addr false off) s = .next (smbNack true s) ∧ exec (.smbusCommandWrite addr false e) s = .next (smbNack true s))

/-- A reset of the host interface returns its state to reset values and lets everything else go on. A reset of the host interface (R44,
R696, R709). -/
def Obligations.HostInterfaceResets : Prop :=
  (∀ (s : State), s.boot.inReset = false → 
    ∃ t, exec .hostIfReset s = .next t ∧
      t.mbx.urgent = ⟨0, [], [], [], false⟩ ∧ t.mbx.general = ⟨0, [], [], [], false⟩ ∧ t.bus.msixTable = [] ∧ t.bus.pba = 0 ∧ t.netRings = [] ∧
      t.isF (Reg.mbxCfgEn 0) = false ∧ t.isF (Reg.mbxCfgEn 1) = false ∧ t.isF Reg.hstEvrCfgEn = false ∧
      t.mbx.longOp = s.mbx.longOp.map (fun o => { o with dropped := o.dropped || fromQueue o.cmd }) ∧
      t.mbx.held = s.mbx.held.map (fun h => { h with dropped := h.dropped || fromQueue h.cmd }) ∧
      (∀ f : Fld, isHostIf f.addr = false → t.getF f = s.getF f) ∧ FrameOf [.rHst, .rMbx, .rCap, .rings, .netRings, .bus, .mbx] s t) ∧
  (∀ (s : State), s.boot.inReset = false → 
    ∃ t, exec .pciePerst s = .next t ∧
      t.mbx.urgent = ⟨0, [], [], [], false⟩ ∧ t.mbx.general = ⟨0, [], [], [], false⟩ ∧ t.bus.msixTable = [] ∧ t.bus.pba = 0 ∧ t.netRings = [] ∧
      t.isF (Reg.mbxCfgEn 0) = false ∧ t.isF (Reg.mbxCfgEn 1) = false ∧ t.isF Reg.hstEvrCfgEn = false ∧
      t.mbx.longOp = s.mbx.longOp.map (fun o => { o with dropped := o.dropped || fromQueue o.cmd }) ∧
      t.mbx.held = s.mbx.held.map (fun h => { h with dropped := h.dropped || fromQueue h.cmd }) ∧
      (∀ f : Fld, isHostIf f.addr = false → t.getF f = s.getF f) ∧ FrameOf [.rHst, .rMbx, .rCap, .rings, .netRings, .bus, .mbx] s t) ∧
  (∀ (s : State), s.boot.inReset = true → 
    exec .hostIfReset s = .next s ∧ exec .pciePerst s = .next s)

/-- A command starts and ends, is stopped by a start check without effect, stalls, or waits. Starting, stopping and waiting of every command
that is not stepped (R93, R102, R104, R105, R734). -/
def Obligations.CommandsStartStopOrWait : Prop :=
  ∀ (k : CmdSpec) (f : Cmd → State → State × Reply) (c : Cmd) (s : State),
    (Starts k c s → runCmd k f c s = .next (ended k c s (f c (taken c s)).1 (f c (taken c s)).2)) ∧
    (∀ st d : Nat, canStart k c s = true → startCheck k c s = some (st, d) → ∃ t, runCmd k f c s = .next t ∧ FrameOf mailboxParts s t ∧
      t = finish k.opcode c (headSlot c s) (startStamp c s) (8 * b2n (resumes c s)) (mirrorSeq c (forwards k c s) s) (failWith st d)
        (mirrorOut k.opcode c (forwards k c s) (taken c s))) ∧
    (canStart k c s = false → stalls c s = true → runCmd k f c s = .next (s.raiseBit (Reg.mbxStatusCqStall c.src.q))) ∧
    (canStart k c s = false → stalls c s = false → runCmd k f c s = .next s) ∧
    FrameOf [.rMbx, .mbx] s (taken c s) ∧ (∀ (s1 : State) (r : Reply), FrameOf mailboxParts s1 (ended k c s s1 r))

/-- The first start check of R734 that applies decides the status. The order of the start checks (R734) for an assigned opcode. -/
def Obligations.StartChecksInOrder : Prop :=
  ∀ (k : CmdSpec) (c : Cmd) (s : State), (c.src = .urgent ∨ c.src = .general) →
    ((s.queue c.src.q).cancels.contains (headSlot c s) = true → startCheck k c s = some (stCancelled, 0)) ∧
    ((s.queue c.src.q).cancels.contains (headSlot c s) = false →
      (∀ (h : Hamper) (r : List Hamper), (s.queue c.src.q).hampers = h :: r → c.chain = true → h.waiting.length < h.count → h.lastOk = false →
        startCheck k c s = some (stCancelled, 0)) ∧
      ((c.chain = true → ∀ (h : Hamper) (r : List Hamper), (s.queue c.src.q).hampers = h :: r → h.waiting.length < h.count → h.lastOk = true) →
        (∀ d : Nat, entryFault c = some d → startCheck k c s = some (stBadArg, d)) ∧
        (entryFault c = none →
          (c.src = .urgent → k.urgent = false → startCheck k c s = some (stRefused, 1)) ∧
          ((c.src = .urgent → k.urgent = true) →
            (s.isF Reg.hstStatusReady = false → [0x01, 0x12, 0x13].contains (groupOf k.opcode) = false → startCheck k c s = some (stNotReady, 0)) ∧
            (s.isF Reg.hstStatusReady = true ∨ [0x01, 0x12, 0x13].contains (groupOf k.opcode) = true →
              (s.twinState = 3 → neverMirrored k = false → c.localOnly = false → startCheck k c s = some (stRefused, 5)) ∧
              (s.twinState ≠ 3 ∨ neverMirrored k = true ∨ c.localOnly = true →
                (lengthOk k c = false → startCheck k c s = some (stBadLen, 0)) ∧
                (lengthOk k c = true →
                  (c.ext = true → c.xReadable = false → startCheck k c s = some (stInternal, 1)) ∧
                  ((c.ext = true → c.xReadable = true) →
                    (k.lenBy c = false → startCheck k c s = some (stBadLen, 0)) ∧
                    (k.lenBy c = true →
                      (∀ d : Nat, k.args c s = some d → startCheck k c s = some (stBadArg, d)) ∧
                      (k.args c s = none →
                        (c.bufSize < k.need c s → startCheck k c s = some (stBadLen, 0)) ∧
                        (k.need c s ≤ c.bufSize → startCheck k c s = k.stops c s)))))))))))

/-- A command that ends writes its 64-byte completion entry at CQ base + 64 times INDEX. The completion entry (R99) of a command that ends. -/
def Obligations.CompletionEntryIsWritten : Prop :=
  (∀ (e : Cpl) (ph : Bool), (e.encode ph).length = 64) ∧
  ∀ (k : CmdSpec) (c : Cmd) (s s1 : State) (r : Reply) (h : Hamper), c.src = .urgent ∨ c.src = .general → mirrors k c s = false → c.rlen4k = 0 →
    (c.noCompl = true → r.status ≠ stOk) → (s1.queue c.src.q).hampers = [h] → h.waiting = [] → h.hend = false → (s1.queue c.src.q).endsWaiting = [] →
    4 ≤ s1.getF (Reg.mbxCfgCqLog2sz c.src.q) → s1.isF (Reg.mbxCfgCfgErr c.src.q) = false →
      (ended k c s s1 r).hostMem = memWriteBytes s1.hostMem (s1.get64 (Reg.mbxCqBase c.src.q) + s1.getF (Reg.mbxCqProdIndex c.src.q) * 64)
        (Cpl.encode ⟨c.tag, k.opcode, r.status, 8 * b2n (resumes c s), headSlot c s, 0, r.detail, startStamp c s, s1.dtt, r.result⟩ (s1.isF (Reg.mbxCqProdPhase c.src.q))) ∧
      ((ended k c s s1 r).queue c.src.q).hampers = [] ∧
      (ended k c s s1 r).getF (Reg.mbxCqProdIndex c.src.q) =
        (s1.getF (Reg.mbxCqProdIndex c.src.q) + 1) % 2 ^ s1.getF (Reg.mbxCfgCqLog2sz c.src.q) % 2 ^ 16 ∧ startStamp c s ≤ s.dtt

/-- Doorbells form hampers, enabling and disabling a queue, HST_NOP, HST_CANCEL and HST_RESTART_MGMT. Doorbells, queues and the commands of
group 0x01 (R87 to R91, R113, R114). -/
def Obligations.QueuesFormHampers : Prop :=
  (∀ (a : Access) (q : Nat) (fs : List Fetched) (s : State), FullBell a (0x40 * q) s → q ≤ 1 → s.isF (Reg.mbxCfgEn q) = true → s.isF (Reg.mbxCfgCfgErr q) = false → a.data % 2 ^ 16 < 2 ^ s.getF (Reg.mbxCfgSqLog2sz q) → (s.queue q).tail < 2 ^ s.getF (Reg.mbxCfgSqLog2sz q) → a.data % 2 ^ 16 ≠ (s.queue q).tail → 
    ∃ t, exec (.mbxDoorbell a fs) s = .next t ∧
      (t.queue q).tail = a.data % 2 ^ 16 ∧
      (t.queue q).hampers = (s.queue q).hampers ++
        [⟨a.data / 2 ^ 16 % 2 ^ 15, bit a.data 31, (a.data % 2 ^ 16 + 2 ^ s.getF (Reg.mbxCfgSqLog2sz q) - (s.queue q).tail) % 2 ^ s.getF (Reg.mbxCfgSqLog2sz q), (s.queue q).tail,
          (List.range ((a.data % 2 ^ 16 + 2 ^ s.getF (Reg.mbxCfgSqLog2sz q) - (s.queue q).tail) % 2 ^ s.getF (Reg.mbxCfgSqLog2sz q))).map (fun k => fetchedTag (fs.getD k (.command 0))), none, true, none, s.mbx.doorbells, s.dtt⟩] ∧
      t.queue (1 - q) = s.queue (1 - q) ∧ t.getF (Reg.mbxDbShadow q) = a.data % 2 ^ 32 ∧ FieldsOf [Reg.mbxDbShadow q, Reg.mbxStatusPending q] s t ∧
      t = { s with regs := t.regs, mbx := t.mbx, bus := { s.bus with doorbells := spSet 0 s.bus.doorbells a.off a.data } }) ∧
  (∀ (a : Access) (q : Nat) (fs : List Fetched) (s : State), FullBell a (0x40 * q) s → q ≤ 1 → s.isF (Reg.mbxCfgEn q) = true → s.isF (Reg.mbxCfgCfgErr q) = false → a.data % 2 ^ 16 < 2 ^ s.getF (Reg.mbxCfgSqLog2sz q) → (s.queue q).tail < 2 ^ s.getF (Reg.mbxCfgSqLog2sz q) → a.data % 2 ^ 16 = (s.queue q).tail → bit a.data 31 = false → 
    exec (.mbxDoorbell a fs) s = .next ((rung a s).setF (Reg.mbxDbShadow q) a.data)) ∧
  (∀ (a : Access) (q : Nat) (fs : List Fetched) (s : State), FullBell a (0x40 * q) s → q ≤ 1 → s.isF (Reg.mbxCfgEn q) = true → s.isF (Reg.mbxCfgCfgErr q) = false → a.data % 2 ^ 16 < 2 ^ s.getF (Reg.mbxCfgSqLog2sz q) → (s.queue q).tail < 2 ^ s.getF (Reg.mbxCfgSqLog2sz q) → a.data % 2 ^ 16 = (s.queue q).tail → bit a.data 31 = true → 
    exec (.mbxDoorbell a fs) s = .next (emptyEnds q (((rung a s).setF (Reg.mbxDbShadow q) a.data).setQueue q { s.queue q with endsWaiting := (s.queue q).endsWaiting ++
      [hamperEnd ⟨a.data / 2 ^ 16 % 2 ^ 15, true, 0, a.data % 2 ^ 16, [], none, true, some s.dtt, 0, s.dtt⟩ s.dtt] }))) ∧
  (∀ (a : Access) (q : Nat) (fs : List Fetched) (s : State), FullBell a (0x40 * q) s → q ≤ 1 → s.isF (Reg.mbxCfgEn q) = false ∨ s.isF (Reg.mbxCfgCfgErr q) = true ∨ 2 ^ s.getF (Reg.mbxCfgSqLog2sz q) ≤ a.data % 2 ^ 16 → 
    exec (.mbxDoorbell a fs) s = .next (raiseEv 130 1 0x0010 [(20, le 1 q), (24, le 4 a.data)] ((rung a s).raiseBit (Reg.mbxStatusDbBad q)))) ∧
  (∀ (a : Access) (q : Nat) (s : State), SomeWrite a (0x20010 + 0x100 * q) s → q ≤ 1 → s.isF (Reg.mbxCfgEn q) = false ∨ s.isF (Reg.mbxCfgCfgErr q) = true → newWord a s % 2 = 1 →
    4 ≤ newWord a s / 256 % 32 → newWord a s / 256 % 32 ≤ newWord a s / 65536 % 32 → newWord a s / 65536 % 32 ≤ 12 → 
    ∃ u, exec (.mbxQueueEnable a) s = .next (emptyEnds q u) ∧
      u.getF (Reg.mbxCfgEn q) = 1 ∧ u.getF (Reg.mbxCfgCfgErr q) = 0 ∧ u.getF (Reg.mbxCfgSqLog2sz q) = newWord a s / 256 % 32 ∧
      u.getF (Reg.mbxCfgCqLog2sz q) = newWord a s / 65536 % 32 ∧ u.getF (Reg.mbxSqHeadIndex q) = 0 ∧ (u.queue q).tail = 0 ∧
      u.getF (Reg.mbxCqProdIndex q) = 0 ∧ u.getF (Reg.mbxCqProdPhase q) = 1 ∧ u.queue (1 - q) = s.queue (1 - q) ∧
      FieldsOf [Reg.mbxCfgEn q, Reg.mbxCfgCfgErr q, Reg.mbxCfgSqLog2sz q, Reg.mbxCfgCqLog2sz q, Reg.mbxSqHeadIndex q, Reg.mbxCqProdIndex q, Reg.mbxCqProdPhase q] s u ∧
      u = { s with regs := u.regs, rings := u.rings, mbx := u.mbx } ∧ ((s.queue q).endsWaiting = [] → emptyEnds q u = u)) ∧
  (∀ (a : Access) (q : Nat) (s : State), SomeWrite a (0x20010 + 0x100 * q) s → q ≤ 1 → newWord a s % 2 = 1 →
    ¬(4 ≤ newWord a s / 256 % 32 ∧ newWord a s / 256 % 32 ≤ newWord a s / 65536 % 32 ∧ newWord a s / 65536 % 32 ≤ 12) → 
    ∃ u, exec (.mbxQueueEnable a) s = .next u ∧ u.getF (Reg.mbxCfgEn q) = 1 ∧ u.getF (Reg.mbxCfgCfgErr q) = 1 ∧ u.getF (Reg.mbxCfgSqLog2sz q) = newWord a s / 256 % 32 ∧
      u.getF (Reg.mbxCfgCqLog2sz q) = newWord a s / 65536 % 32 ∧ FieldsOf [Reg.mbxCfgEn q, Reg.mbxCfgCfgErr q, Reg.mbxCfgSqLog2sz q, Reg.mbxCfgCqLog2sz q] s u ∧ u = { s with regs := u.regs }) ∧
  (∀ (a : Access) (q : Nat) (s : State), SomeWrite a (0x20010 + 0x100 * q) s → q ≤ 1 → s.isF (Reg.mbxCfgEn q) = true → newWord a s % 2 = 0 → 
    ∃ t, exec (.mbxQueueDisable a) s = .next t ∧
      t.getF (Reg.mbxCfgEn q) = 0 ∧ (t.queue q).cancels = [] ∧ pendingOf (t.queue q) = 0 ∧ t.getF (Reg.mbxStatusPending q) = 0 ∧
      (inService q s = false → (t.queue q).hampers = []) ∧
      t.getF (Reg.mbxStatusDiscard q) = (if 0 < pendingOf (s.queue q) then 1 else s.getF (Reg.mbxStatusDiscard q)) ∧ t.queue (1 - q) = s.queue (1 - q) ∧
      t = { s with regs := t.regs, mbx := t.mbx, bus := t.bus }) ∧
  (∀ (c : Cmd) (s : State), Starts hstNopSpec c s → 
    ∃ s1, exec (.hstNop c) s = .next (ended hstNopSpec c s s1 (okReply)) ∧ FrameOf [] (taken c s) s1 ∧
      s1 = taken c s) ∧
  (∀ (c : Cmd) (s : State), Starts hstRestartMgmtSpec c s → 
    ∃ s1, exec (.hstRestartMgmt c) s = .next (ended hstRestartMgmtSpec c s s1 (okReply)) ∧ FrameOf [.fw] (taken c s) s1 ∧
      s1 = { taken c s with fw := { s.fw with restartDue := true } }) ∧
  (∀ (c : Cmd) (s : State) (n : Nat), Starts hstCancelSpec c s → cancelTarget c s = some (.inr n) → 
    ∃ s1, exec (.hstCancel c) s = .next (ended hstCancelSpec c s s1 (okWith [(32, le 1 0), (34, le 2 n), (36, le 4 0)])) ∧ FrameOf [.mbx] (taken c s) s1 ∧
      s1 = (if ((taken c s).queue (cu c 2 1)).cancels.contains n then taken c s
        else (taken c s).setQueue (cu c 2 1) { (taken c s).queue (cu c 2 1) with cancels := ((taken c s).queue (cu c 2 1)).cancels ++ [n] })) ∧
  (∀ (c : Cmd) (s : State) (o : LongOp), Starts hstCancelSpec c s → cancelTarget c s = some (.inl o) → 
    ∃ s1, exec (.hstCancel c) s = .next (ended hstCancelSpec c s s1 (okWith [(32, le 1 1), (34, le 2 o.slot), (36, le 4 o.done)])) ∧
      s1 = longEnds stCancelled 0 (8 * b2n o.resumed) true o (taken c s) ∧
      FrameOf [.rHst, .rGd, .rMbx, .rGn, .rPts, .rSds, .rFt, .rBf, .rEr, .rMp, .rTw, .rCal, .hostMem, .freeCount, .evu, .rings, .bus, .mbx, .islands, .lanes, .tw, .cal, .boot] (taken c s) s1) ∧
  (∀ (amount : Nat) (o : LongOp) (k : CmdSpec) (f : LongOp → State → State × StepEnd) (s : State), s.mbx.longOp = some o → stepTurn s = true → stepOf amount o.opcode = some (k, f) → 
    exec (.steppedCommandStep amount) s = .next (afterStep k o (f o s))) ∧
  (∀ (amount : Nat) (s : State), s.mbx.longOp = none ∨ stepTurn s = false → 
    exec (.steppedCommandStep amount) s = .next s)

/-- A step that goes on leaves its step record and MBX_LONG_OP; a step that ends completes the command. The step record (R110). -/
def Obligations.SteppedCommandsKeepTheirRecord : Prop :=
  ∀ (k : CmdSpec) (o o' : LongOp) (s : State) (r : Reply),
    (o'.cmd.prog = false ∨ s.dtt - o'.lastProgress < 78125000 →
      (afterStep k o (s, .more o')).mbx.longOp = some { o' with done := o.done + 1, recordOk := true } ∧
      (afterStep k o (s, .more o')).getF Reg.mbxLongOpOpcode = o'.opcode % 2 ^ 16 ∧ (afterStep k o (s, .more o')).getF Reg.mbxLongOpTag = o'.cmd.tag % 2 ^ 16 ∧
      (afterStep k o (s, .more o')).getF Reg.mbxLongStepDone = sat 0xFFFF (o.done + 1) ∧
      FieldsOf [Reg.mbxLongOpOpcode, Reg.mbxLongOpTag, Reg.mbxLongStepDone, Reg.mbxLongStepEstimate, Reg.mpStatusTrackOcc] s (afterStep k o (s, .more o')) ∧
      FrameOf [.rMbx, .rMp, .mbx, .mp] s (afterStep k o (s, .more o'))) ∧
    (o.dropped = true → (afterStep k o (s, .done r)).mbx.longOp = none ∧ (afterStep k o (s, .done r)).getF Reg.mbxLongOpOpcode = 0 ∧
      FrameOf [.rMbx, .mbx] s (afterStep k o (s, .done r))) ∧
    (o.dropped = false → afterStep k o (s, .done r) =
      finish k.opcode o.cmd o.slot o.tStart (8 * b2n o.resumed) o.mirror r (syncLong { s with mbx := { s.mbx with longOp := none } }))

/-- The commands of the time base complete with the effects of their tables. The commands of the time base complete, with their replies,
effects and frames (R133, R136, R139 to R141, R146, R148, R149, R151, R153 and the command tables of the time base). -/
def Obligations.TimeBaseCommandsComplete : Prop :=
  (∀ (c : Cmd) (s : State), Starts tbReadSpec c s → 
    ∃ s1, exec (.tbRead c) s = .next (ended tbReadSpec c s s1 (okWith [(32, le 8 (s.dtt)), (40, ftBytes (s.timeAt 0 (s.dtt * 2 ^ 16))), (52, ftBytes (s.timeAt 1 (s.dtt * 2 ^ 16)))])) ∧ FrameOf [] (taken c s) s1 ∧
      s1 = taken c s) ∧
  (∀ (c : Cmd) (s : State), Starts tbSetUtcSpec c s → 
    ∃ s1, exec (.tbSetUtc c) s = .next (ended tbSetUtcSpec c s s1 (okReply)) ∧ FrameOf [.rTb] (taken c s) s1 ∧
      s1.getF (Reg.tbDUtcOffset (cu c 0 1)) = cu c 2 2 % 2 ^ 16 ∧ s1.getF (Reg.tbDStatusLeap (cu c 0 1)) = cu c 1 1 % 2 ^ 2 ∧
      s1.get64 (Reg.tbDLeapAt (cu c 0 1)) = cu c 4 6 % 2 ^ 64 ∧
      FieldsOf ([Reg.tbDUtcOffset (cu c 0 1), Reg.tbDStatusLeap (cu c 0 1)] ++ pair (Reg.tbDLeapAt (cu c 0 1))) (taken c s) s1) ∧
  (∀ (c : Cmd) (s : State), Starts tbSetCompactSpec c s → 
    ∃ s1, exec (.tbSetCompact c) s = .next (ended tbSetCompactSpec c s s1 (okReply)) ∧ FrameOf [.rTb, .tb] (taken c s) s1 ∧
      s1.getF Reg.tbStateCompact = cu c 0 1 % 2 ^ 5 ∧ FieldsOf [Reg.tbStateCompact] (taken c s) s1 ∧
      (∀ b ∈ s1.tb.bases, b ∈ s.tb.bases ∧ bit (s.getF Reg.tbStateCompact) (b.1 / 256) = true)) ∧
  (∀ (c : Cmd) (s : State), Starts tbSnapshotSpec c s → cu c 0 1 = 0 → 
    ∃ s1 r, exec (.tbSnapshot c) s = .next (ended tbSnapshotSpec c s s1 r) ∧ FrameOf [.rHst, .rTb, .evu, .bus] (taken c s) s1 ∧
      s1 = capture 0 (s.dtt * 2 ^ 16) (taken c s) ∧ r.status = stOk ∧ s1.getF Reg.tbSnapCtrlDone = 1 ∧ s1.getF Reg.tbSnapCtrlArm = 0) ∧
  (∀ (c : Cmd) (s : State), Starts tbSnapshotSpec c s → cu c 0 1 ≠ 0 → 
    ∃ s1 r, exec (.tbSnapshot c) s = .next (ended tbSnapshotSpec c s s1 r) ∧ FrameOf [.rHst, .rTb, .evu, .bus] (taken c s) s1 ∧
      r = deferred ∧ s1 = armSnap (cu c 0 1) (taken c s) ∧
      FieldsOf [Reg.tbSnapCtrlArm, Reg.tbSnapCtrlArmSrc] (taken c s) s1) ∧
  (∀ (c : Cmd) (s : State), Starts tbSlewSpec c s → 
    ∃ s1 r, exec (.tbSlew c) s = .next (ended tbSlewSpec c s s1 r) ∧ FrameOf [.rHst, .rGd, .rTb, .rBf, .rCt, .rMp, .freeCount, .evu, .bus, .mbx, .counters, .tb, .refs, .sw, .ft, .bf, .merges, .releases, .evd, .mp] (taken c s) s1 ∧
      s1 = startSlew (cu c 0 1) (ci c 4 8) (slewRateUsed (cu c 2 2) (taken c s)).1 (slewRateUsed (cu c 2 2) (taken c s)).2 ∧ r.status = stOk) ∧
  (∀ (c : Cmd) (s : State), Starts tbAdjustSpec c s → s.getF Reg.gdSteerMaxA = 0xFFFFFFFF → 
    ∃ s1 r, exec (.tbAdjust c) s = .next (ended tbAdjustSpec c s s1 r) ∧ FrameOf [.rHst, .rGd, .rTb, .rBf, .rCt, .rMp, .freeCount, .evu, .bus, .mbx, .counters, .tb, .refs, .sw, .ft, .bf, .merges, .releases, .evd, .mp] (taken c s) s1 ∧
      r = okReply ∧ (s1.dom (cu c 0 1)).servoRate = clampRate (ci c 2 6)) ∧
  (∀ (c : Cmd) (s : State), Starts tbStepSpec c s → ci c 4 8 = 0 → 
    ∃ s1 r, exec (.tbStep c) s = .next (ended tbStepSpec c s s1 r) ∧ FrameOf [.rHst, .rGd, .rBf, .rCt, .rMp, .freeCount, .evu, .bus, .mbx, .counters, .tb, .refs, .sw, .ft, .bf, .merges, .releases, .evd, .mp] (taken c s) s1 ∧
      s1 = taken c s ∧ r.status = stOk) ∧
  (∀ (c : Cmd) (s : State), Starts tbRealignSpec c s → alignError s.served s = 0 → 
    ∃ s1 r, exec (.tbRealign c) s = .next (ended tbRealignSpec c s s1 r) ∧ FrameOf [.rHst, .rGd, .rTb, .rBf, .rCt, .rMp, .freeCount, .evu, .bus, .mbx, .counters, .tb, .refs, .sw, .ft, .bf, .merges, .releases, .evd, .mp] (taken c s) s1 ∧
      r.status = stOk ∧ s1 = (taken c s).setB (Reg.tbDStatusAlignNeeded s.served) false) ∧
  (∀ (c : Cmd) (s : State), Starts tbSetServedSpec c s → cu c 0 1 ≠ s.served → s.qcState (cu c 0 1) ≠ 1 → s.qcState (cu c 0 1) ≠ 7 → 
    ∃ s1, exec (.tbSetServed c) s = .next (heldBack tbSetServedSpec c s s1) ∧ FrameOf [.rTb, .tb] (taken c s) s1 ∧
      s1.isF Reg.tbStateSwitching = true ∧ s1.tb.switchReq = some ⟨cu c 0 1, cbit c 1 0⟩ ∧ s1.served = s.served ∧ FieldsOf [Reg.tbStateSwitching] (taken c s) s1)

/-- TB_STEP and TB_REALIGN fix an instant at least 64 ticks after their start and 12,500 after earlier changes. A step waits for its instant
x_c (R128, R144, R147, R153). -/
def Obligations.StepsWaitForTheirInstant : Prop :=
  (∀ (c : Cmd) (s : State), Starts tbStepSpec c s → ci c 4 8 ≠ 0 → mirrorInstant c s = none → stepBeyondGuard (ci c 4 8) s = false → s.dtt < 2 ^ 40 → spacedFrom (cu c 0 1) s < 2 ^ 40 → (∀ x, x < 2 ^ 57 → stepOutOfRange (cu c 0 1) x (ci c 4 8) s = false) → 
    ∃ s1 r, exec (.tbStep c) s = .next (ended tbStepSpec c s s1 r) ∧ FrameOf [.rHst, .rGd, .rBf, .rCt, .rMp, .freeCount, .evu, .bus, .mbx, .counters, .tb, .refs, .sw, .ft, .bf, .merges, .releases, .evd, .mp] (taken c s) s1 ∧
      r.status = stOk ∧ ∃ xc, s.dtt + 64 ≤ xc ∧ spacedFrom (cu c 0 1) s ≤ xc ∧
      (s1.dom (cu c 0 1)).steps = (s.dom (cu c 0 1)).steps ++ [⟨ci c 4 8, xc, !alignWanted (cu c 0 1) s, false, none⟩]) ∧
  (∀ (c : Cmd) (s : State), Starts tbRealignSpec c s → alignError s.served s ≠ 0 → mirrorInstant c s = none → stepBeyondGuard (alignError s.served s) s = false → s.dtt < 2 ^ 40 → spacedFrom s.served s < 2 ^ 40 → (∀ x, x < 2 ^ 57 → stepOutOfRange s.served x (alignError s.served s) s = false) → 
    ∃ s1 r, exec (.tbRealign c) s = .next (ended tbRealignSpec c s s1 r) ∧ FrameOf [.rHst, .rGd, .rTb, .rBf, .rCt, .rMp, .freeCount, .evu, .bus, .mbx, .counters, .tb, .refs, .sw, .ft, .bf, .merges, .releases, .evd, .mp] (taken c s) s1 ∧
      r.status = stOk ∧ ∃ xc, s.dtt + 64 ≤ xc ∧ spacedFrom s.served s ≤ xc ∧
      (s1.dom s.served).steps = (s.dom s.served).steps ++ [⟨alignError s.served s, xc, false, true, none⟩]) ∧
  (∀ (c : Cmd) (s : State), Starts tbStepSpec c s → ci c 4 8 ≠ 0 → mirrorInstant c s = none → stepBeyondGuard (ci c 4 8) s = true → s.dtt < 2 ^ 40 → spacedFrom (cu c 0 1) s < 2 ^ 40 → (∀ x, x < 2 ^ 57 → stepOutOfRange (cu c 0 1) x (ci c 4 8) s = false) → 
    exec (.tbStep c) s = .next (ended tbStepSpec c s (stepDenied (ci c 4 8) (taken c s).draw.2) (failWith stLocked 0))) ∧
  (∀ (c : Cmd) (s : State), Starts tbStepSpec c s → ci c 4 8 ≠ 0 → mirrorInstant c s = none → s.dtt < 2 ^ 40 → spacedFrom (cu c 0 1) s < 2 ^ 40 → (∀ x, x < 2 ^ 57 → stepOutOfRange (cu c 0 1) x (ci c 4 8) s = true) → 
    exec (.tbStep c) s = .next (ended tbStepSpec c s (taken c s).draw.2 (failWith stRefused 0x0206))) ∧
  (∀ (a : Int) (s : State), stepBeyondGuard a s = true ↔ s.getF Reg.gdStepMaxA ≠ 0xFFFFFFFF ∧ s.getF Reg.gdStepMaxA * 2 ^ 16 < a.natAbs)

/-- What happens in the time base on its own: steps apply, segments renew, leaps, slews and switches end, snapshots and PTM. What happens in
the time base without a command (R126, R133, R134, R141, R142, R144, R145, R149, R155). -/
def Obligations.TimeBaseEventsHappen : Prop :=
  (∀ (d : Nat) (p : PendingStep) (rest : List PendingStep) (s : State), d ≤ 1 → (s.dom d).steps = p :: rest → p.xc ≤ s.dtt → 
    ∃ t, exec (.stepApply d) s = .next t ∧ FrameOf [.rHst, .rTb, .rBf, .rCt, .rMp, .freeCount, .evu, .bus, .mbx, .counters, .tb, .refs, .dpll, .sw, .ft, .bf, .merges, .releases, .evd, .mp] s t ∧
      (t.dom d).steps = rest ∧ t.stepc d = (match p.counter with | some k => k % 2 ^ 32 | none => (s.stepc d + 1) % 2 ^ 32) ∧ (t.seg d).x = p.xc * 2 ^ 16 ∧
      (t.seg d).t = s.timeAt d (p.xc * 2 ^ 16) + p.amount ∧
      (t.dom d).setpoint = (s.dom d).setpoint + (if p.moves then p.amount else 0)) ∧
  (∀ (d : Nat) (s : State), d ≤ 1 → (s.seg d).x + 2 ^ 38 * 2 ^ 16 ≤ s.now80 → spacedNow d s = true → 
    ∃ t, exec (.segmentRenewal d) s = .next t ∧ FrameOf [.rTb, .tb] s t ∧
      t = openSegment d s.now80 (s.timeNow d) (s.seg d).rate s) ∧
  (∀ (o : Int) (s : State), s.tb.rephaseTo = some o → s.tb.rephaseAt ≤ s.servedTime s.now80 + o → 
    ∃ t, exec .outRephaseDone s = .next t ∧ FrameOf [.rTb, .tb] s t ∧
      t = { (s.setI64 Reg.tbOutOffset o) with tb := { s.tb with rephaseTo := none } }) ∧
  (∀ (s : State), s.tb.outSlewing = true → (match s.tb.rephaseTo with | some o => o | none => s.getI64 Reg.tbOutOffset) = 0 → 
    ∃ t, exec .tbOutAligned s = .next t ∧ FrameOf [.rHst, .evu, .bus, .tb] s t ∧
      t = raiseEv (96 + s.served) 0 0x0207 [] { s with tb := { s.tb with outSlewing := false } }) ∧
  (∀ (d : Nat) (s : State), d ≤ 1 → (s.dom d).slewOn = true → s.slewRem d = 0 → 
    ∃ t, exec (.tbSlewDone d) s = .next t ∧ FrameOf [.rHst, .rTb, .evu, .bus, .tb] s t ∧
      t = raiseEv (96 + d) 0 0x0202 [(20, leI 8 (s.dom d).slewTotal)] (if d = s.served then s.setDom d { s.dom d with slewTotal := 0, slewOn := false }
        else setRate d (s.dom d).servoRate (s.setDom d { s.dom d with slewTotal := 0, slewOn := false }))) ∧
  (∀ (d : Nat) (s : State), d ≤ 1 → s.getI (Reg.tbDStatusLeap d) ≠ 0 → (s.get64 (Reg.tbDLeapAt d) : Int) * 10 ^ 9 * 2 ^ 16 ≤ s.timeNow d → 
    ∃ t, exec (.tbLeap d) s = .next t ∧ FrameOf [.rHst, .rTb, .rBf, .rCt, .rMp, .freeCount, .evu, .bus, .mbx, .counters, .refs, .sw, .ft, .bf, .merges, .releases, .evd, .mp] s t ∧
      t.getF (Reg.tbDUtcOffset d) = twos 16 (s.getI (Reg.tbDUtcOffset d) + s.getI (Reg.tbDStatusLeap d)) ∧ t.getF (Reg.tbDStatusLeap d) = 0 ∧ t.get64 (Reg.tbDLeapAt d) = 0 ∧
      t.dom d = s.dom d ∧ t.stepc d = s.stepc d) ∧
  (∀ (src x : Nat) (s : State), s.isF Reg.tbSnapCtrlArm = true → s.getF Reg.tbSnapCtrlArmSrc = src → 
    ∃ t, exec (.snapArmedCapture src x) s = .next t ∧ FrameOf [.rHst, .rTb, .evu, .bus] s t ∧
      t = capture src x s) ∧
  (∀ (master turn request : Nat) (s : State), s.getF Reg.tbPtmCtrlPeriod ≠ 0 → request ≤ s.dtt → 
    ∃ u, exec (.ptmDialog master turn request) s = .next (armedCapture 4 (ptmInstant request s.dtt turn) u) ∧ FrameOf [.rHst, .rTb, .evu, .bus] s (armedCapture 4 (ptmInstant request s.dtt turn) u) ∧
      u.get64 Reg.tbPtmHost = master % 2 ^ 64 ∧ u.get96 Reg.tbPtmT0.addr = ft96 (s.servedTime (ptmInstant request s.dtt turn)) % 2 ^ 96 ∧ u.getF Reg.tbPtmCtrlValid = 1 ∧
      u.getF Reg.tbPtmCtrlSeq = (s.getF Reg.tbPtmCtrlSeq + 1) % 2 ^ 8 ∧
      FieldsOf (pair Reg.tbPtmHost ++ triple Reg.tbPtmT0.addr ++ [Reg.tbPtmCtrlValid, Reg.tbPtmCtrlSeq]) s u ∧
      u = { s with regs := u.regs, bus := { s.bus with ptm := (request, s.dtt) } }) ∧
  (∀ (d : Nat) (s : State), 1 < d ∨ (s.dom d).steps = [] ∨ (∃ p rest, (s.dom d).steps = p :: rest ∧ s.dtt < p.xc) → 
    exec (.stepApply d) s = .next s) ∧
  (∀ (d : Nat) (s : State), 1 < d ∨ s.now80 < (s.seg d).x + 2 ^ 38 * 2 ^ 16 ∨ spacedNow d s = false → 
    exec (.segmentRenewal d) s = .next s) ∧
  (∀ (s : State), s.tb.rephaseTo = none ∨ (∃ o, s.tb.rephaseTo = some o ∧ s.servedTime s.now80 + o < s.tb.rephaseAt) → 
    exec .outRephaseDone s = .next s) ∧
  (∀ (s : State), s.tb.outSlewing = false ∨ (match s.tb.rephaseTo with | some o => o | none => s.getI64 Reg.tbOutOffset) ≠ 0 → 
    exec .tbOutAligned s = .next s) ∧
  (∀ (d : Nat) (s : State), 1 < d ∨ (s.dom d).slewOn = false ∨ s.slewRem d ≠ 0 → 
    exec (.tbSlewDone d) s = .next s) ∧
  (∀ (d : Nat) (s : State), 1 < d ∨ s.getI (Reg.tbDStatusLeap d) = 0 ∨ s.timeNow d < (s.get64 (Reg.tbDLeapAt d) : Int) * 10 ^ 9 * 2 ^ 16 → 
    exec (.tbLeap d) s = .next s) ∧
  (∀ (src x : Nat) (s : State), s.isF Reg.tbSnapCtrlArm = false ∨ s.getF Reg.tbSnapCtrlArmSrc ≠ src → 
    exec (.snapArmedCapture src x) s = .next s) ∧
  (∀ (master turn request : Nat) (s : State), s.getF Reg.tbPtmCtrlPeriod = 0 ∨ s.dtt < request → 
    exec (.ptmDialog master turn request) s = .next s)

/-- The commands of the serial lanes and stamp corrections complete with their effects. The commands of group 0x08 complete with their
effects and frames. -/
def Obligations.SerialLaneCommandsComplete : Prop :=
  (∀ (c : Cmd) (s : State), Starts sdsPortConfigSpec c s → s.mode (cu c 0 1) = cu c 1 1 → s.fec (cu c 0 1) = cu c 2 1 → cu c 1 1 ≠ 0 → portEnabled (cu c 0 1) s = true → (portLanes (cu c 0 1) s).all (fun n => s.isF (Reg.sdsStatusTxOn n)) = true → cbit c 3 0 = false → 
    ∃ s1 e, exec (.sdsPortConfig c) s = .next (stepped sdsPortConfigSpec c s s1 e) ∧ FrameOf [.rHst, .rGd, .rMbx, .rTb, .rRs, .rPl, .rTt, .rPts, .rSds, .rSw, .rBf, .rFm, .rEr, .rCap, .rCt, .rMp, .rTw, .rCal, .hostMem, .freeCount, .evu, .rings, .bus, .mbx, .islands, .counters, .tb, .fifos, .lanes, .tt, .refs, .dpll, .sw, .ft, .bf, .merges, .releases, .evd, .netRings, .selectors, .tw, .ctSeen, .mp, .boot] (begun sdsPortConfigSpec c s) s1 ∧
      s1 = begun sdsPortConfigSpec c s ∧ e = .done (portReply (cu c 0 1) s)) ∧
  (∀ (c : Cmd) (s : State), Starts sdsPortConfigSpec c s → cu c 1 1 ≠ 0 → portEnabled (cu c 0 1) s = false → 
    ∃ s1 e, exec (.sdsPortConfig c) s = .next (stepped sdsPortConfigSpec c s s1 e) ∧ FrameOf [.rHst, .rGd, .rMbx, .rTb, .rRs, .rPl, .rTt, .rPts, .rSds, .rSw, .rBf, .rFm, .rEr, .rCap, .rCt, .rMp, .rTw, .rCal, .hostMem, .freeCount, .evu, .rings, .bus, .mbx, .islands, .counters, .tb, .fifos, .lanes, .tt, .refs, .dpll, .sw, .ft, .bf, .merges, .releases, .evd, .netRings, .selectors, .tw, .ctSeen, .mp, .boot] (begun sdsPortConfigSpec c s) s1 ∧
      s1 = portDenied (cu c 0 1) (begun sdsPortConfigSpec c s) ∧ e = .done (failWith stLocked 0)) ∧
  (∀ (c : Cmd) (s : State), Starts sdsPortConfigSpec c s → s.mode (cu c 0 1) ≠ cu c 1 1 → cu c 1 1 = 0 ∨ portEnabled (cu c 0 1) s = true → cbit c 3 0 = false → 
    ∃ s1 e, exec (.sdsPortConfig c) s = .next (stepped sdsPortConfigSpec c s s1 e) ∧ FrameOf [.rHst, .rGd, .rMbx, .rTb, .rRs, .rPl, .rTt, .rPts, .rSds, .rSw, .rBf, .rFm, .rEr, .rCap, .rCt, .rMp, .rTw, .rCal, .hostMem, .freeCount, .evu, .rings, .bus, .mbx, .islands, .counters, .tb, .fifos, .lanes, .tt, .refs, .dpll, .sw, .ft, .bf, .merges, .releases, .evd, .netRings, .selectors, .tw, .ctSeen, .mp, .boot] (begun sdsPortConfigSpec c s) s1 ∧
      s1 = portHold (cu c 0 1) (begun sdsPortConfigSpec c s) ∧ e = .more { firstRecord sdsPortConfigSpec c s with work := [1], estimate := 3 } ∧
      s1.linkUp (cu c 0 1) = false) ∧
  (∀ (c : Cmd) (s : State), Starts sdsSetFirSpec c s → 
    ∃ s1, exec (.sdsSetFir c) s = .next (ended sdsSetFirSpec c s s1 (okReply)) ∧ FrameOf [.rPts, .rSds, .rCal, .lanes] (taken c s) s1 ∧
      eqOf (cu c 0 1) (eqMode c) s1 = { eqOf (cu c 0 1) (eqMode c) s with pre := cu c 2 1, main := cu c 3 1, post := cu c 4 1 }) ∧
  (∀ (c : Cmd) (s : State), Starts sdsSetCtleSpec c s → s.mode (cu c 0 1) ≠ eqMode c → 
    ∃ s1, exec (.sdsSetCtle c) s = .next (ended sdsSetCtleSpec c s s1 (okReply)) ∧ FrameOf [.rHst, .rMbx, .rTb, .rRs, .rPl, .rTt, .rPts, .rSds, .rSw, .rBf, .rFm, .rEr, .rCap, .rCt, .rMp, .rTw, .rCal, .hostMem, .freeCount, .evu, .rings, .bus, .mbx, .counters, .tb, .fifos, .lanes, .tt, .refs, .dpll, .sw, .ft, .bf, .merges, .releases, .evd, .netRings, .selectors, .tw, .ctSeen, .mp, .boot] (taken c s) s1 ∧
      eqOf (cu c 0 1) (eqMode c) s1 = { eqOf (cu c 0 1) (eqMode c) s with peak := cu c 2 1, gain := cu c 3 1, auto := cu c 4 1 = 1 }) ∧
  (∀ (c : Cmd) (s : State), Starts sdsSetCtleSpec c s → s.mode (cu c 0 1) = eqMode c → eqOf (cu c 0 1) (eqMode c) s ≠ { eqOf (cu c 0 1) (eqMode c) s with peak := cu c 2 1, gain := cu c 3 1, auto := cu c 4 1 = 1 } → 
    ∃ s1, exec (.sdsSetCtle c) s = .next (ended sdsSetCtleSpec c s s1 (okReply)) ∧ FrameOf [.rHst, .rMbx, .rTb, .rRs, .rPl, .rTt, .rPts, .rSds, .rSw, .rBf, .rFm, .rEr, .rCap, .rCt, .rMp, .rTw, .rCal, .hostMem, .freeCount, .evu, .rings, .bus, .mbx, .counters, .tb, .fifos, .lanes, .tt, .refs, .dpll, .sw, .ft, .bf, .merges, .releases, .evd, .netRings, .selectors, .tw, .ctSeen, .mp, .boot] (taken c s) s1 ∧
      s1.isF (Reg.sdsStatusRxLock (cu c 0 1)) = false) ∧
  (∀ (c : Cmd) (s : State), Starts sdsPrbsSpec c s → cu c 0 1 < 48 ∨ cu c 1 1 = 0 ∨ s.awake 61 = true → 
    ∃ s1, exec (.sdsPrbs c) s = .next (ended sdsPrbsSpec c s s1 (okWith [(32, le 8 (s.get64 (Reg.sdsPrbsErr (cu c 0 1)))), (40, le 8 (s.get64 (Reg.sdsPrbsBits (cu c 0 1))))])) ∧ FrameOf [.rHst, .rMbx, .rTb, .rRs, .rPl, .rTt, .rPts, .rSds, .rSw, .rBf, .rFm, .rEr, .rCap, .rCt, .rMp, .rTw, .hostMem, .freeCount, .evu, .rings, .bus, .mbx, .counters, .tb, .fifos, .lanes, .tt, .refs, .dpll, .sw, .ft, .bf, .merges, .releases, .evd, .netRings, .selectors, .tw, .ctSeen, .mp, .boot] (taken c s) s1 ∧
      s1.getF (Reg.sdsPrbsCtrlTxPat (cu c 0 1)) = cu c 1 1 % 8 ∧ s1.getF (Reg.sdsPrbsCtrlRxPat (cu c 0 1)) = cu c 1 1 / 16 % 8 ∧ s1.isF (Reg.sdsStatusPrbsTx (cu c 0 1)) = decide (cu c 1 1 % 8 ≠ 0)) ∧
  (∀ (c : Cmd) (s : State), Starts sdsEyeScanSpec c s → (s.lane (cu c 0 1)).sweepDue = false → 1 < (scanSize c).1 * (scanSize c).2 → 
    ∃ s1 e, exec (.sdsEyeScan c) s = .next (stepped sdsEyeScanSpec c s s1 e) ∧ FrameOf [.rSds, .freeCount] (begun sdsEyeScanSpec c s) s1 ∧
      s1 = (begun sdsEyeScanSpec c s).setF (Reg.sdsStatusScan (cu c 0 1)) 1 ∧ e = .more { firstRecord sdsEyeScanSpec c s with acc := scanPoint c 0 false, estimate := (scanSize c).1 * (scanSize c).2 }) ∧
  (∀ (c : Cmd) (s : State), Starts sdsSetTrimSpec c s → 
    ∃ s1 r, exec (.sdsSetTrim c) s = .next (ended sdsSetTrimSpec c s s1 r) ∧ FrameOf [.rHst, .rSds, .rEr, .evu, .bus, .lanes] (taken c s) s1 ∧
      r.status = stOk ∧ (s1.lane (cu c 0 1)).hostSteps = trimSteps (s.mode (cu c 0 1)) (cu c 4 4) ∧
      s1.getF (Reg.sdsTrimWords (cu c 0 1)) = trimSteps (s.mode (cu c 0 1)) (cu c 4 4) / wordSteps (s.mode (cu c 0 1)) % 2 ^ (Reg.sdsTrimWords (cu c 0 1)).width) ∧
  (∀ (c : Cmd) (s : State), Starts sdsLaneStatusSpec c s → 
    ∃ s1 r, exec (.sdsLaneStatus c) s = .next (ended sdsLaneStatusSpec c s s1 r) ∧ FrameOf [] (taken c s) s1 ∧
      s1 = taken c s ∧
      r = okWith [(32, le 4 (s.regWord (0x300000 + cu c 0 1 * 0x800))), (36, le 4 (s.regWord (0x300000 + cu c 0 1 * 0x800 + 4))),
        (40, le 4 (s.regWord (0x300000 + cu c 0 1 * 0x800 + 8))), (44, le 4 (s.regWord (0x300000 + cu c 0 1 * 0x800 + 0x10))),
        (48, le 8 (s.get64 (Reg.sdsPrbsErr (cu c 0 1)))), (56, le 8 (s.get64 (Reg.sdsPrbsBits (cu c 0 1))))]) ∧
  (∀ (c : Cmd) (s : State), Starts sdsSetStampCorrSpec c s → s.mode (cu c 0 1) ≠ cu c 1 1 → 
    ∃ s1, exec (.sdsSetStampCorr c) s = .next (ended sdsSetStampCorrSpec c s s1 (okWith [(32, le 8 0)])) ∧ FrameOf [.rHst, .rPts, .freeCount, .evu, .bus, .timed] (taken c s) s1 ∧
      (cbit c 2 0 = true → s1.getI64 (Reg.ptsCorrRx (cu c 0 1) (cu c 1 1 - 1)) = ci c 4 8) ∧
      (cbit c 2 1 = true → s1.getI64 (Reg.ptsCorrTx (cu c 0 1) (cu c 1 1 - 1)) = ci c 12 8) ∧
      (cbit c 2 0 = false → s1.getI64 (Reg.ptsCorrRx (cu c 0 1) (cu c 1 1 - 1)) = s.getI64 (Reg.ptsCorrRx (cu c 0 1) (cu c 1 1 - 1)))) ∧
  (∀ (c : Cmd) (s : State), Starts sdsPrbsSpec c s → 48 ≤ cu c 0 1 → cu c 1 1 ≠ 0 → s.awake 61 = false → 
    exec (.sdsPrbs c) s = .next (heldBack sdsPrbsSpec c s (taken c s)))

/-- Receivers lock, sweeps and latency reports end, links come up and go down, transmitters restart, trims arrive. What the lanes do on
their own (R174, R176, R180, R200, R208, R209, R213 to R215, R220, R221, R225). -/
def Obligations.LanesLockReportAndLink : Prop :=
  (∀ (lane : Nat) (s : State), lane < 52 → rxRuns lane s = true → s.isF (Reg.sdsStatusRxLock lane) = false → (∀ m ∈ laneGroup lane s, rxDetached m s = false) → 
    ∃ t, exec (.rxLock lane) s = .next t ∧ FrameOf [.rHst, .rPts, .rSds, .rSw, .evu, .bus, .lanes, .tt] s t ∧
      t.isF (Reg.sdsStatusRxLock lane) = true ∧ (t.lane lane).reportDue = true ∧ (t.lane lane).sweepDue = s.isF (Reg.sdsCtleAuto lane) ∧ (lane < 48 → t.isF (Reg.ptsLatRxValid lane) = false) ∧
      t.getF (Reg.sdsStatusRelocks lane) = sat (2 ^ (Reg.sdsStatusRelocks lane).width - 1) (s.getF (Reg.sdsStatusRelocks lane) + 1)) ∧
  (∀ (lane : Nat) (s : State), 52 ≤ lane ∨ rxRuns lane s = false ∨ s.isF (Reg.sdsStatusRxLock lane) = true ∨ (∃ m ∈ laneGroup lane s, rxDetached m s = true) → 
    exec (.rxLock lane) s = .next s) ∧
  (∀ (lane : Nat) (w : List Nat) (s : State), lane < 52 → (s.lane lane).sweepDue = true → w.length = 16 → 
    ∃ t, exec (.ctleSweepDone lane w) s = .next t ∧ FrameOf [.rHst, .rPts, .rSds, .rCal, .evu, .bus, .lanes] s t ∧
      t.getF (Reg.sdsCtlePeakUsed lane) = widest w ∧ (t.lane lane).sweepDue = false) ∧
  (∀ w : List Nat, w.length = 16 → widest w < 16 ∧ (∀ j : Nat, j < 16 → w.getD j 0 ≤ w.getD (widest w) 0) ∧ (∀ j : Nat, j < widest w → w.getD j 0 < w.getD (widest w) 0)) ∧
  (∀ (lane : Nat) (w : List Nat) (s : State), 52 ≤ lane ∨ (s.lane lane).sweepDue = false ∨ w.length ≠ 16 → 
    exec (.ctleSweepDone lane w) s = .next s) ∧
  (∀ (lane : Nat) (p : LatTerms) (s : State), lane < 48 → (s.lane lane).reportDue = true → (s.lane lane).sweepDue = false → p.slip < wordBits (s.mode lane) → p.cdr < 64 → p.fill < 16 → 
    ∃ t, exec (.latencyReport lane false p) s = .next t ∧ FrameOf [.rHst, .rTt, .rPts, .evu, .bus, .lanes, .tt] s t ∧
      t.isF (Reg.ptsLatRxValid lane) = true ∧ t.getF (Reg.ptsLatRxSlip lane) = p.slip ∧ t.getF (Reg.ptsLatRxCdr lane) = p.cdr ∧ t.getF (Reg.ptsLatRxFill lane) = p.fill ∧ (t.lane lane).reportDue = false ∧
      t.get64 (Reg.ptsLatTime lane) = s.dtt % 2 ^ 64) ∧
  (∀ (lane : Nat) (p : LatTerms) (s : State), lane < 48 → s.isF (Reg.sdsStatusTxOn lane) = true → s.isF (Reg.ptsLatTxValid lane) = false → p.slip < wordBits (s.mode lane) → p.cdr < 64 → p.fill < 16 → 
    ∃ t, exec (.latencyReport lane true p) s = .next t ∧ FrameOf [.rHst, .rTt, .rPts, .evu, .bus, .lanes, .tt] s t ∧
      t.isF (Reg.ptsLatTxValid lane) = true ∧ t.getF (Reg.ptsLatTxSlip lane) = p.slip ∧ t.getF (Reg.ptsLatTxFill lane) = p.fill ∧ t.get64 (Reg.ptsLatTime lane) = s.dtt % 2 ^ 64) ∧
  (∀ (lane : Nat) (tx : Bool) (p : LatTerms) (s : State), 48 ≤ lane ∨ wordBits (s.mode lane) ≤ p.slip ∨ 64 ≤ p.cdr ∨ 16 ≤ p.fill ∨
      (tx = true ∧ (s.isF (Reg.sdsStatusTxOn lane) = false ∨ s.isF (Reg.ptsLatTxValid lane) = true)) ∨ (tx = false ∧ ((s.lane lane).reportDue = false ∨ (s.lane lane).sweepDue = true)) → 
    exec (.latencyReport lane tx p) s = .next s) ∧
  (∀ (port : Nat) (remote : Bool) (s : State), port < 48 → s.linkUp port = false → linkCan port s = true → 
    ∃ t, exec (.linkUp port remote) s = .next t ∧ FrameOf [.rHst, .rMbx, .rTt, .rPts, .rSds, .rFm, .rEr, .rTw, .hostMem, .evu, .rings, .bus, .mbx, .lanes, .tt, .sw, .merges, .tw, .boot] s t ∧
      t.linkUp port = true ∧ (t.lane port).linkAt = some s.dtt ∧ (t.lane port).remoteFault = (remote && handlesFault port s)) ∧
  (∀ (port : Nat) (remote : Bool) (s : State), port < 48 → s.linkUp port = true → 
    exec (.linkUp port remote) s = .next (s.setLane port { s.lane port with remoteFault := remote && handlesFault port s })) ∧
  (∀ (remote : Bool) (s : State), s.twinState ≠ 0 → (∀ n, 48 ≤ n → n < 52 → s.isF (Reg.sdsStatusRxLock n) = true ∧ s.isF (Reg.sdsStatusPrbsTx n) = false ∧ s.isF (Reg.sdsStatusPrbsRx n) = false) → 
    exec (.linkUp 50 remote) s = .next (s.setF Reg.twStatusLinkUp 1)) ∧
  (∀ (port : Nat) (remote : Bool) (s : State), (port < 48 ∧ s.linkUp port = false ∧ linkCan port s = false) ∨ (48 ≤ port ∧ port ≠ 50) ∨
      (port = 50 ∧ (s.twinState = 0 ∨ ∃ n, 48 ≤ n ∧ n < 52 ∧ (s.isF (Reg.sdsStatusRxLock n) = false ∨ s.isF (Reg.sdsStatusPrbsTx n) = true ∨ s.isF (Reg.sdsStatusPrbsRx n) = true))) → 
    exec (.linkUp port remote) s = .next s) ∧
  (∀ (port cause : Nat) (data : Bytes) (s : State), port < 48 → inGroup port s = false → downBy port cause s = true → 
    ∃ t, exec (.linkDown port cause data) s = .next t ∧ FrameOf [.rHst, .rMbx, .rTb, .rRs, .rPl, .rTt, .rPts, .rSds, .rSw, .rBf, .rFm, .rEr, .rCap, .rCt, .rMp, .rTw, .hostMem, .freeCount, .evu, .rings, .bus, .mbx, .counters, .tb, .fifos, .lanes, .tt, .refs, .dpll, .sw, .ft, .bf, .merges, .releases, .evd, .netRings, .selectors, .tw, .ctSeen, .mp, .boot] s t ∧
      t.linkUp port = false ∧ (cause = 1 → t.isF (Reg.sdsStatusRxLock port) = false)) ∧
  (∀ (port cause : Nat) (data : Bytes) (s : State), 48 ≤ port ∨ inGroup port s = true ∨ downBy port cause s = false → 
    exec (.linkDown port cause data) s = .next s) ∧
  (∀ (port phase : Nat) (s : State), port < 48 → (s.lane port).restartDue = true → sending port s = false → 
    ∃ t, exec (.txRestart port phase) s = .next t ∧ FrameOf [.rHst, .rMbx, .rPts, .rSds, .rEr, .rTw, .hostMem, .evu, .rings, .bus, .mbx, .lanes, .tw, .boot] s t ∧
      t.isF (Reg.sdsStatusTxOn port) = true ∧ (t.lane port).restartDue = false ∧ (t.lane port).txStart = some s.dtt) ∧
  (∀ (port phase : Nat) (s : State), 48 ≤ port ∨ (s.lane port).restartDue = false ∨ sending port s = true → 
    exec (.txRestart port phase) s = .next s) ∧
  (∀ (lane : Nat) (s : State), lane < 48 → s.isF (Reg.sdsStatusTrimBusy lane) = true → piAt lane s.dtt s = s.getF (Reg.sdsTrimPiTgt lane) → 
    ∃ t, exec (.sdsTrimDone lane) s = .next t ∧ FrameOf [.rHst, .rMbx, .rSds, .rEr, .rTw, .hostMem, .evu, .rings, .bus, .mbx, .tw, .boot] s t ∧
      t.getF (Reg.sdsTrimPiPos lane) = s.getF (Reg.sdsTrimPiTgt lane) % 2 ^ (Reg.sdsTrimPiPos lane).width ∧ t.isF (Reg.sdsStatusTrimBusy lane) = false) ∧
  (∀ (lane : Nat) (s : State), 48 ≤ lane ∨ s.isF (Reg.sdsStatusTrimBusy lane) = false ∨ piAt lane s.dtt s ≠ s.getF (Reg.sdsTrimPiTgt lane) → 
    exec (.sdsTrimDone lane) s = .next s) ∧
  (∀ (lane bits : Nat) (s : State), lane < 52 → s.isF (Reg.sdsStatusPrbsRx lane) = true → s.isF (Reg.sdsStatusPrbsLock lane) = false → 1024 ≤ bits → 
    exec (.prbsLockChange lane true bits 0) s = .next (raiseEv (laneSource lane s) 0 0x0804 [(20, le 1 lane), (21, le 1 1)] (s.setF (Reg.sdsStatusPrbsLock lane) 1))) ∧
  (∀ (lane bits errors : Nat) (s : State), lane < 52 → s.isF (Reg.sdsStatusPrbsRx lane) = true → s.isF (Reg.sdsStatusPrbsLock lane) = true → bits ≤ 1024 → 256 < errors → 
    exec (.prbsLockChange lane false bits errors) s = .next (raiseEv (laneSource lane s) 0 0x0804 [(20, le 1 lane), (21, le 1 0)] (s.setF (Reg.sdsStatusPrbsLock lane) 0))) ∧
  (∀ (lane bits errors : Nat) (locked : Bool) (s : State), 52 ≤ lane ∨ s.isF (Reg.sdsStatusPrbsRx lane) = false ∨ s.isF (Reg.sdsStatusPrbsLock lane) = locked ∨
      (locked = true ∧ (bits < 1024 ∨ errors ≠ 0)) ∨ (locked = false ∧ (1024 < bits ∨ errors ≤ 256)) → 
    exec (.prbsLockChange lane locked bits errors) s = .next s) ∧
  (∀ (lane : Nat) (temp : Int) (s : State), lane < 48 → s.mode lane ≠ 0 → (s.calRec lane).seq ≠ 0 → 240 < (temp - refTemp lane s).natAbs → (s.lane lane).recalDue = false → 
    ∃ t, exec (.ptsRecalDue lane temp) s = .next t ∧ FrameOf [.rHst, .rPts, .evu, .bus, .lanes] s t ∧
      t.isF (Reg.ptsStatusRecalDue (portOf lane s)) = true ∧ (t.lane lane).recalDue = true ∧ FieldsOf [Reg.ptsStatusRecalDue (portOf lane s)] s t) ∧
  (∀ (lane : Nat) (temp : Int) (s : State), 48 ≤ lane ∨ s.mode lane = 0 ∨ (s.calRec lane).seq = 0 ∨ (temp - refTemp lane s).natAbs ≤ 240 ∨ (s.lane lane).recalDue = true → 
    exec (.ptsRecalDue lane temp) s = .next s) ∧
  (∀ (port mode x : Nat) (b v : Int) (s : State), port < 48 → 1 ≤ mode → mode ≤ 4 → s.timed.find? (fun e => e.1 = Reg.ptsCorrTx port (mode - 1)) = some (Reg.ptsCorrTx port (mode - 1), ⟨b, [(x, v)]⟩) → x ≤ s.dtt → -2 ^ 63 ≤ v → v < 2 ^ 63 → 
    ∃ t, exec (.stampCorrApply port mode true) s = .next t ∧ FrameOf [.rPts, .timed] s t ∧
      t.getI64 (Reg.ptsCorrTx port (mode - 1)) = v ∧ FieldsOf (pair (Reg.ptsCorrTx port (mode - 1))) s t) ∧
  (∀ (port mode : Nat) (tx : Bool) (a : Nat) (s : State), port < 48 → 1 ≤ mode → mode ≤ 4 → a = (if tx then Reg.ptsCorrTx port (mode - 1) else Reg.ptsCorrRx port (mode - 1)) → 
    exec (.stampCorrApply port mode tx) s = .next ((timedApply a (s.getI64 a) s).2.setI64 a (timedApply a (s.getI64 a) s).1)) ∧
  (∀ (port mode : Nat) (tx : Bool) (s : State), 48 ≤ port ∨ mode = 0 ∨ 4 < mode → 
    exec (.stampCorrApply port mode tx) s = .next s) ∧
  (∀ (m : EdgeMeas) (e : EdgeEntry) (rest : List EdgeEntry) (sys : Int) (s : State), m.ring = e :: rest → m.lane < 48 → s.mode (portOf m.lane s) ≠ 0 → s.isF (Reg.sdsStatusTxOn m.lane) = true → 
    exec (.phaseSample m true sys) s = .next (s.setLane m.lane { s.lane m.lane with txSample := some e })) ∧
  (∀ (m : EdgeMeas) (e : EdgeEntry) (rest : List EdgeEntry) (sys : Int) (s : State), m.ring = e :: rest → m.lane < 48 → s.mode (portOf m.lane s) ≠ 0 → s.isF (Reg.sdsStatusRxLock m.lane) = true → 
    ∃ t, exec (.phaseSample m false sys) s = .next t ∧ FrameOf [.rPl, .freeCount, .tb, .lanes, .tt, .refs, .dpll] s t ∧ ((∀ k, k < 8 → (s.servo k).lane ≠ m.lane) → t = psiSample m e s)) ∧
  (∀ (m : EdgeMeas) (e : EdgeEntry) (rest : List EdgeEntry) (sys : Int) (k : Nat) (s : State), m.ring = e :: rest → m.lane < 48 → s.mode (portOf m.lane s) ≠ 0 → s.isF (Reg.sdsStatusRxLock m.lane) = true → 
    k < 8 → (s.servo k).lane = m.lane → (s.servo k).mode = 1 → candState (8 + k) s ≠ 7 → (∀ j, j < 8 → j ≠ k → (s.servo j).lane ≠ m.lane) → 
    exec (.phaseSample m false sys) s = .next (refSample (8 + k) (edge24 m.lane 0 e e.tick s / 2 ^ 8).toNat sys (wordTime e.word (s.mode (portOf m.lane s))) (psiSample m e s))) ∧
  (∀ (m : EdgeMeas) (tx : Bool) (sys : Int) (s : State), m.ring = [] ∨ 48 ≤ m.lane ∨ s.mode (portOf m.lane s) = 0 ∨ s.isF (if tx then Reg.sdsStatusTxOn m.lane else Reg.sdsStatusRxLock m.lane) = false → 
    exec (.phaseSample m tx sys) s = .next s) ∧
  (∀ (island : Nat) (temp : Int) (s : State), islandWanted island s = true → s.awake island = false → 
    ∃ t, exec (.portIslandWakeDone island temp) s = .next t ∧ FrameOf [.rHst, .rMbx, .rTb, .rRs, .rPl, .rEm, .rGn, .rTt, .rPts, .rSds, .rSw, .rBf, .rFm, .rEr, .rCap, .rCt, .rMp, .rTw, .rCal, .hostMem, .freeCount, .evu, .rings, .bus, .mbx, .islands, .counters, .tb, .fifos, .lanes, .tt, .refs, .dpll, .gn, .em, .sw, .ft, .bf, .merges, .releases, .evd, .netRings, .selectors, .tw, .ctSeen, .mp, .cal, .boot] s t ∧
      (island < 48 → t = laneWoken island temp { s with islands := insertNat island s.islands } ∧ t.awake island = true) ∧
      (island = 50 ∨ island = 51 → t = { s with islands := insertNat island s.islands }) ∧
      (48 ≤ island → island ≠ 50 → island ≠ 51 → island ≠ 61 → t = islandServes island { s with islands := insertNat island s.islands }) ∧
      (island = 61 → t = islandServes 61 ([48, 49, 50, 51].foldl (fun u n => laneWoken n temp u) { s with islands := insertNat 61 s.islands }))) ∧
  (∀ (island : Nat) (temp : Int) (s : State), islandWanted island s = false ∨ s.awake island = true → 
    exec (.portIslandWakeDone island temp) s = .next s)

/-- The commands of group 0x03 complete with their effects. The commands of group 0x03 complete with their effects and frames. -/
def Obligations.TimeTransferCommandsComplete : Prop :=
  (∀ (c : Cmd) (s : State), Starts ttSessionSetSpec c s → 
    ∃ s1, exec (.ttSessionSet c) s = .next (ended ttSessionSetSpec c s s1 (okReply)) ∧ FrameOf [.rHst, .rTb, .rRs, .rPl, .rBf, .rCt, .rMp, .freeCount, .evu, .bus, .mbx, .counters, .tb, .tt, .refs, .dpll, .sw, .ft, .bf, .merges, .releases, .evd, .mp] (taken c s) s1 ∧
      s1.session (cu c 0 2) = (if cu c 2 1 = 0 then Session.reset else { Session.reset with desc := slice c.payload 0 64 }) ∧
      (∀ k, k ≠ cu c 0 2 → s1.session k = s.session k) ∧
      ∀ n, n < 8 → 2 ≤ (s.servo n).mode → (s.servo n).session = cu c 0 2 → (s1.cand (8 + n)).lineDomain = (s1.session (cu c 0 2)).domain) ∧
  (∀ (c : Cmd) (s : State), Starts ttSessionGetSpec c s → 
    ∃ s1 r, exec (.ttSessionGet c) s = .next (ended ttSessionGetSpec c s s1 r) ∧ FrameOf [] (taken c s) s1 ∧
      s1 = taken c s ∧
      r = okBuf [] (slice (s.session (cu c 0 2)).desc 0 64 ++ le 4 (s.regWord (Reg.ttSStateState (cu c 0 2)).addr) ++ le 4 (s.regWord (Reg.ttSTxcnt (cu c 0 2)).addr) ++
        le 4 (s.regWord (Reg.ttSRxcnt (cu c 0 2)).addr) ++ le 4 (s.regWord (Reg.ttSDrop (cu c 0 2)).addr))) ∧
  (∀ (c : Cmd) (s : State), Starts ttSessionEnableSpec c s → cu c 2 1 = 1 → ttState (cu c 0 2) s = 0 → 
    ∃ s1, exec (.ttSessionEnable c) s = .next (ended ttSessionEnableSpec c s s1 (okReply)) ∧ FrameOf [.rHst, .rTt, .evu, .bus, .tt] (taken c s) s1 ∧
      ttState (cu c 0 2) s1 = (if s.linkUp (s.session (cu c 0 2)).port then 2 else 1) ∧
      s1.session (cu c 0 2) = { Session.reset with desc := (s.session (cu c 0 2)).desc, template := (s.session (cu c 0 2)).template } ∧ s1.getF (Reg.ttSTxcnt (cu c 0 2)) = 0 ∧ s1.getF (Reg.ttSRxcnt (cu c 0 2)) = 0 ∧
      s1.getF (Reg.ttSDrop (cu c 0 2)) = 0) ∧
  (∀ (c : Cmd) (s : State), Starts ttSessionEnableSpec c s → cu c 2 1 = 1 → ttState (cu c 0 2) s ≠ 0 → 
    exec (.ttSessionEnable c) s = .next (ended ttSessionEnableSpec c s (taken c s) okReply)) ∧
  (∀ (c : Cmd) (s : State), Starts ttSessionEnableSpec c s → cu c 2 1 = 0 → 
    ∃ s1, exec (.ttSessionEnable c) s = .next (ended ttSessionEnableSpec c s s1 (okReply)) ∧ FrameOf [.rHst, .rTt, .evu, .bus, .tt] (taken c s) s1 ∧
      ttState (cu c 0 2) s1 = 0 ∧ (∀ m ∈ s1.tt.inbox, m ∈ s.tt.inbox ∧ m.session ≠ cu c 0 2)) ∧
  (∀ (c : Cmd) (s : State), Starts ttSetAsymmetrySpec c s → 
    ∃ s1 r, exec (.ttSetAsymmetry c) s = .next (ended ttSetAsymmetrySpec c s s1 r) ∧ FrameOf [.rHst, .freeCount, .evu, .bus, .timed] (taken c s) s1 ∧
      ∃ x, s.dtt + 64 ≤ x ∧ r = okWith [(32, le 8 x)] ∧ timedLast (2 ^ 40 + cu c 0 1) s ≤ x ∧
      s1.timed = spSet ⟨0, []⟩ s.timed (2 ^ 40 + cu c 0 1)
        { (timedOf (2 ^ 40 + cu c 0 1) (spGet 0 s.tt.asym (cu c 0 1)) s) with
          steps := (timedOf (2 ^ 40 + cu c 0 1) (spGet 0 s.tt.asym (cu c 0 1)) s).steps ++ [(x, ci c 4 8)] }) ∧
  (∀ (c : Cmd) (s : State), Starts ttServoSetSpec c s → 
    ∃ s1, exec (.ttServoSet c) s = .next (ended ttServoSetSpec c s s1 (okReply)) ∧ FrameOf [.rHst, .rTb, .rRs, .rPl, .rBf, .rCt, .rMp, .freeCount, .evu, .bus, .mbx, .counters, .tb, .tt, .refs, .dpll, .sw, .ft, .bf, .merges, .releases, .evd, .mp] (taken c s) s1 ∧
      (s1.servo (cu c 0 1)).mode = cu c 1 1 ∧ (s1.servo (cu c 0 1)).lane = cu c 2 1 ∧ (s1.servo (cu c 0 1)).session = cu c 4 2 ∧
      (s1.servo (cu c 0 1)).navg = cu c 6 1 ∧ (s1.servo (cu c 0 1)).bw = cu c 8 4 ∧ (s1.cand (8 + cu c 0 1)).lineMode = cu c 1 1) ∧
  (∀ (c : Cmd) (s : State), Starts ttServoStatusSpec c s → 
    ∃ s1 r, exec (.ttServoStatus c) s = .next (ended ttServoStatusSpec c s s1 r) ∧ FrameOf [] (taken c s) s1 ∧
      s1 = taken c s ∧
      r = okWith [(32, leI 8 (s.servo (cu c 0 1)).theta), (40, leI 8 (s.servo (cu c 0 1)).dbar),
        (48, leI 8 (if decide (2 ≤ (s.servo (cu c 0 1)).mode) then (s.session (s.servo (cu c 0 1)).session).dSigma else 0)),
        (56, le 1 (if decide (2 ≤ (s.servo (cu c 0 1)).mode) then ttState (s.servo (cu c 0 1)).session s else 0)), (57, le 1 (s.servo (cu c 0 1)).state),
        (58, le 2 (s.servo (cu c 0 1)).hist.length), (60, le 4 (sat 0xFFFFFFFF ((s.dtt - (s.servo (cu c 0 1)).lastSample) / 781250)))])

/-- Sessions send and take messages, enter and leave PHASE, and servos stop; ESMC PDUs leave every enabled port. What the session engine,
its servos and ESMC do on their own. -/
def Obligations.SessionsAndServosRun : Prop :=
  (∀ (k : Nat) (body : Bytes) (p m : EdgeMeas) (s : State), PeriodicNow k 0 ((s.session k).log 8) p m s → (s.session k).role = 1 → 
    ∃ t, exec (.ttPeriodicTx k 0 body p m) s = .next t ∧ FrameOf [.rHst, .rTt, .rPts, .rBf, .rCap, .rCt, .rMp, .hostMem, .freeCount, .evu, .rings, .bus, .mbx, .counters, .tb, .tt, .refs, .sw, .ft, .bf, .merges, .releases, .evd, .netRings, .selectors, .mp, .lanes] s t ∧
      (t.session k).seqSync = ((s.session k).seqSync + 1) % 65536 ∧ t.getF (Reg.ttSTxcnt k) = (s.getF (Reg.ttSTxcnt k) + 1) % 2 ^ 32 ∧
      spGet none (t.session k).lastTx 0 = some s.dtt ∧ t.tt.out.length = (if (s.session k).flag 0 = true ∧ txCause (s.session k).port s = 0 then 2 else 1)) ∧
  (∀ (k : Nat) (body : Bytes) (p m : EdgeMeas) (s : State), PeriodicNow k 1 ((s.session k).log 9) p m s → (s.session k).role = 2 → (s.session k).flag 1 = false → 
    ∃ t, exec (.ttPeriodicTx k 1 body p m) s = .next t ∧ FrameOf [.rHst, .rTt, .rPts, .rBf, .rCap, .rCt, .rMp, .hostMem, .freeCount, .evu, .rings, .bus, .mbx, .counters, .tb, .tt, .refs, .sw, .ft, .bf, .merges, .releases, .evd, .netRings, .selectors, .mp, .lanes] s t ∧
      (t.session k).seqDelay = ((s.session k).seqDelay + 1) % 65536 ∧ t.tt.out.length = 1 ∧ (t.session k).respRx = none ∧
      t.getF (Reg.ttSTxcnt k) = (s.getF (Reg.ttSTxcnt k) + 1) % 2 ^ 32) ∧
  (∀ (k : Nat) (body : Bytes) (p m : EdgeMeas) (s : State), PeriodicNow k 2 ((s.session k).log 9) p m s → (s.session k).peers = true → 
    ∃ t, exec (.ttPeriodicTx k 2 body p m) s = .next t ∧ FrameOf [.rHst, .rTt, .rPts, .rBf, .rCap, .rCt, .rMp, .hostMem, .freeCount, .evu, .rings, .bus, .mbx, .counters, .tb, .tt, .refs, .sw, .ft, .bf, .merges, .releases, .evd, .netRings, .selectors, .mp, .lanes] s t ∧
      (t.session k).seqDelay = ((s.session k).seqDelay + 1) % 65536 ∧ t.tt.out.length = 1 ∧ (t.session k).respRx = none ∧
      t.getF (Reg.ttSTxcnt k) = (s.getF (Reg.ttSTxcnt k) + 1) % 2 ^ 32) ∧
  (∀ (k : Nat) (body : Bytes) (p m : EdgeMeas) (s : State), PeriodicNow k 3 ((s.session k).log 10) p m s → (s.session k).role = 1 → (s.session k).field 10 1 ≠ 0x7F → 
    ∃ t, exec (.ttPeriodicTx k 3 body p m) s = .next t ∧ FrameOf [.rHst, .rTt, .rPts, .rBf, .rCap, .rCt, .rMp, .hostMem, .freeCount, .evu, .rings, .bus, .mbx, .counters, .tb, .tt, .refs, .sw, .ft, .bf, .merges, .releases, .evd, .netRings, .selectors, .mp, .lanes] s t ∧
      (t.session k).seqAnn = ((s.session k).seqAnn + 1) % 65536 ∧ t.tt.out.length = 1 ∧ (t.session k).template = (if body = [] then (s.session k).template else body)) ∧
  (∀ (k : Nat) (body : Bytes) (p m : EdgeMeas) (s : State), k < 256 → 2 ≤ ttState k s → (s.session k).flag 6 = true → (s.session k).role ≠ 4 → 
    ∃ t, exec (.ttPeriodicTx k 4 body p m) s = .next t ∧ FrameOf [.rHst, .rTt, .rPts, .rBf, .rCap, .rCt, .rMp, .hostMem, .freeCount, .evu, .rings, .bus, .mbx, .counters, .tb, .tt, .refs, .sw, .ft, .bf, .merges, .releases, .evd, .netRings, .selectors, .mp, .lanes] s t ∧
      (t.session k).seqAnn = ((s.session k).seqAnn + 1) % 65536 ∧ t.tt.out.length = 1) ∧
  (∀ (k kind : Nat) (body : Bytes) (p m : EdgeMeas) (s : State), 256 ≤ k ∨ ttState k s < 2 ∨ (kind = 4 ∧ ((s.session k).flag 6 = false ∨ (s.session k).role = 4)) ∨ (kind ≠ 4 ∧ periodicDue k kind (s.session k) s = false) ∨
      (kind < 3 ∧ (128 ≤ sentNow k s ∨ measures (s.session k).port p s = false ∨ measures (s.session k).port m s = false)) → 
    exec (.ttPeriodicTx k kind body p m) s = .next { s with tt := { s.tt with out := [] } }) ∧
  (∀ (p m : EdgeMeas) (sys : Int) (s : State), s.tt.inbox.find? (fun q => !isSignaling q) = none → 
    exec (.ptpMessageRx p m sys) s = .next s) ∧
  (∀ (p m : EdgeMeas) (sys : Int) (r : PtpRx) (s : State), s.tt.inbox.find? (fun q => !isSignaling q) = some r → ttState r.session s < 2 ∨ (msgType r = 2 ∧ (measures (s.session r.session).port p s = false ∨ measures (s.session r.session).port m s = false)) → 
    exec (.ptpMessageRx p m sys) s = .next (msgTaken r s)) ∧
  (∀ (p m : EdgeMeas) (sys : Int) (r : PtpRx) (s : State), s.tt.inbox.find? (fun q => !isSignaling q) = some r → 2 ≤ ttState r.session s → msgType r < 4 → (msgType r = 2 → measures (s.session r.session).port p s = true ∧ measures (s.session r.session).port m s = true) → ¬WithinRate r.session s → 
    ∃ t, exec (.ptpMessageRx p m sys) s = .next t ∧ FrameOf [.rHst, .rRs, .rPl, .rTt, .rPts, .rBf, .rCap, .rCt, .rMp, .hostMem, .freeCount, .evu, .rings, .bus, .mbx, .counters, .tb, .tt, .refs, .dpll, .sw, .ft, .bf, .merges, .releases, .evd, .netRings, .selectors, .mp, .lanes] s t ∧
      t.getF (Reg.ttSDrop r.session) = (s.getF (Reg.ttSDrop r.session) + 1) % 2 ^ 32 ∧ t.getF (Reg.ttSRxcnt r.session) = s.getF (Reg.ttSRxcnt r.session) ∧ t.tt.inbox = s.tt.inbox.erase r) ∧
  (∀ (p m : EdgeMeas) (sys : Int) (r : PtpRx) (s : State), MsgAccepted r p m s → (s.session r.session).role ≠ 4 → msgType r = 0 → bit (fb r.msg 6 1) 1 = true → 
    ∃ t, exec (.ptpMessageRx p m sys) s = .next t ∧ FrameOf [.rHst, .rRs, .rPl, .rTt, .rPts, .rBf, .rCap, .rCt, .rMp, .hostMem, .freeCount, .evu, .rings, .bus, .mbx, .counters, .tb, .tt, .refs, .dpll, .sw, .ft, .bf, .merges, .releases, .evd, .netRings, .selectors, .mp, .lanes] s t ∧
      (t.session r.session).syncRx = some (msgEvent r s) ∧ (t.session r.session).syncLog = sext 8 (fb r.msg 33 1) ∧ t.tt.inbox = s.tt.inbox.erase r ∧
      t.getF (Reg.ttSRxcnt r.session) = (s.getF (Reg.ttSRxcnt r.session) + 1) % 2 ^ 32) ∧
  (∀ (p m : EdgeMeas) (sys : Int) (r : PtpRx) (s : State), MsgAccepted r p m s → (s.session r.session).role ≠ 4 → msgType r = 0 → bit (fb r.msg 6 1) 1 = false → 
    ∃ t, exec (.ptpMessageRx p m sys) s = .next t ∧ FrameOf [.rHst, .rRs, .rPl, .rTt, .rPts, .rBf, .rCap, .rCt, .rMp, .hostMem, .freeCount, .evu, .rings, .bus, .mbx, .counters, .tb, .tt, .refs, .dpll, .sw, .ft, .bf, .merges, .releases, .evd, .netRings, .selectors, .mp, .lanes] s t ∧
      (t.session r.session).syncRx = none ∧ (t.session r.session).syncSet = some { msgEvent r s with far := some (stampField r.msg 34) } ∧
      t.tt.inbox = s.tt.inbox.erase r ∧ t.getF (Reg.ttSRxcnt r.session) = (s.getF (Reg.ttSRxcnt r.session) + 1) % 2 ^ 32) ∧
  (∀ (p m : EdgeMeas) (sys : Int) (r : PtpRx) (s : State), MsgAccepted r p m s → (s.session r.session).role ≠ 4 → msgType r = 1 → 
    ∃ t, exec (.ptpMessageRx p m sys) s = .next t ∧ FrameOf [.rHst, .rRs, .rPl, .rTt, .rPts, .rBf, .rCap, .rCt, .rMp, .hostMem, .freeCount, .evu, .rings, .bus, .mbx, .counters, .tb, .tt, .refs, .dpll, .sw, .ft, .bf, .merges, .releases, .evd, .netRings, .selectors, .mp, .lanes] s t ∧
      t.tt.out.length = (if r.bad = true then 0 else 1) ∧ t.tt.inbox = s.tt.inbox.erase r ∧ t.getF (Reg.ttSRxcnt r.session) = (s.getF (Reg.ttSRxcnt r.session) + 1) % 2 ^ 32) ∧
  (∀ (p m : EdgeMeas) (sys : Int) (r : PtpRx) (s : State), MsgAccepted r p m s → (s.session r.session).role ≠ 4 → msgType r = 2 → (ttAnswer r.session (msgCounted r s)).1 = true → 
    ∃ t, exec (.ptpMessageRx p m sys) s = .next t ∧ FrameOf [.rHst, .rRs, .rPl, .rTt, .rPts, .rBf, .rCap, .rCt, .rMp, .hostMem, .freeCount, .evu, .rings, .bus, .mbx, .counters, .tb, .tt, .refs, .dpll, .sw, .ft, .bf, .merges, .releases, .evd, .netRings, .selectors, .mp, .lanes] s t ∧
      t.tt.out.length = (if (s.session r.session).flag 0 = true ∧ r.bad = false ∧ txCause (s.session r.session).port s = 0 then 2 else 1) ∧
      t.getF (Reg.ttSTxcnt r.session) = (s.getF (Reg.ttSTxcnt r.session) + 1) % 2 ^ 32 ∧ t.getF (Reg.ttSRxcnt r.session) = (s.getF (Reg.ttSRxcnt r.session) + 1) % 2 ^ 32) ∧
  (∀ (p m : EdgeMeas) (sys : Int) (r : PtpRx) (s : State), MsgAccepted r p m s → (s.session r.session).role ≠ 4 → msgType r = 2 → (ttAnswer r.session (msgCounted r s)).1 = false → 
    ∃ t, exec (.ptpMessageRx p m sys) s = .next t ∧ FrameOf [.rHst, .rRs, .rPl, .rTt, .rPts, .rBf, .rCap, .rCt, .rMp, .hostMem, .freeCount, .evu, .rings, .bus, .mbx, .counters, .tb, .tt, .refs, .dpll, .sw, .ft, .bf, .merges, .releases, .evd, .netRings, .selectors, .mp, .lanes] s t ∧
      t.getF (Reg.ttSDrop r.session) = (s.getF (Reg.ttSDrop r.session) + 1) % 2 ^ 32 ∧ t.tt.out = [] ∧ t.getF (Reg.ttSRxcnt r.session) = (s.getF (Reg.ttSRxcnt r.session) + 1) % 2 ^ 32) ∧
  (∀ (p m : EdgeMeas) (sys : Int) (r : PtpRx) (q : EventMsg) (s : State), MsgAccepted r p m s → (s.session r.session).role ≠ 4 → msgType r = 3 → (s.session r.session).delayTx = some q → q.seq = fb r.msg 30 2 → slice r.msg 44 10 = (s.session r.session).portId → bit (fb r.msg 6 1) 1 = true → 
    ∃ t, exec (.ptpMessageRx p m sys) s = .next t ∧ FrameOf [.rHst, .rRs, .rPl, .rTt, .rPts, .rBf, .rCap, .rCt, .rMp, .hostMem, .freeCount, .evu, .rings, .bus, .mbx, .counters, .tb, .tt, .refs, .dpll, .sw, .ft, .bf, .merges, .releases, .evd, .netRings, .selectors, .mp, .lanes] s t ∧
      (t.session r.session).respRx = some { msgEvent r s with far := some (stampField r.msg 34) } ∧ (t.session r.session).delayTx = some q ∧ t.getF (Reg.ttSRxcnt r.session) = (s.getF (Reg.ttSRxcnt r.session) + 1) % 2 ^ 32) ∧
  (∀ (p m : EdgeMeas) (sys : Int) (r : PtpRx) (q : EventMsg) (s : State), MsgAccepted r p m s → (s.session r.session).role ≠ 4 → msgType r = 3 → (s.session r.session).delayTx = some q → q.seq = fb r.msg 30 2 → slice r.msg 44 10 = (s.session r.session).portId → bit (fb r.msg 6 1) 1 = false → 
    ∃ t, exec (.ptpMessageRx p m sys) s = .next t ∧ FrameOf [.rHst, .rRs, .rPl, .rTt, .rPts, .rBf, .rCap, .rCt, .rMp, .hostMem, .freeCount, .evu, .rings, .bus, .mbx, .counters, .tb, .tt, .refs, .dpll, .sw, .ft, .bf, .merges, .releases, .evd, .netRings, .selectors, .mp, .lanes] s t ∧
      (t.session r.session).respRx = none ∧ (t.session r.session).delayTx = none ∧ t.getF (Reg.ttSRxcnt r.session) = (s.getF (Reg.ttSRxcnt r.session) + 1) % 2 ^ 32) ∧
  (∀ (p m : EdgeMeas) (sys : Int) (r : PtpRx) (e : EventMsg) (s : State), MsgAccepted r p m s → (s.session r.session).role ≠ 4 → msgType r = 8 → (s.session r.session).syncRx = some e → e.seq = fb r.msg 30 2 → 
    ∃ t, exec (.ptpMessageRx p m sys) s = .next t ∧ FrameOf [.rHst, .rRs, .rPl, .rTt, .rPts, .rBf, .rCap, .rCt, .rMp, .hostMem, .freeCount, .evu, .rings, .bus, .mbx, .counters, .tb, .tt, .refs, .dpll, .sw, .ft, .bf, .merges, .releases, .evd, .netRings, .selectors, .mp, .lanes] s t ∧
      (t.session r.session).syncRx = none ∧ (t.session r.session).syncSet = some { e with far := some (stampField r.msg 34), corr := e.corr + corrField r.msg } ∧
      t.tt.inbox = s.tt.inbox.erase r) ∧
  (∀ (p m : EdgeMeas) (sys : Int) (r : PtpRx) (e : EventMsg) (s : State), MsgAccepted r p m s → (s.session r.session).role ≠ 4 → msgType r = 9 → (s.session r.session).delayTx = some e → e.seq = fb r.msg 30 2 → slice r.msg 44 10 = (s.session r.session).portId → 
    ∃ t, exec (.ptpMessageRx p m sys) s = .next t ∧ FrameOf [.rHst, .rRs, .rPl, .rTt, .rPts, .rBf, .rCap, .rCt, .rMp, .hostMem, .freeCount, .evu, .rings, .bus, .mbx, .counters, .tb, .tt, .refs, .dpll, .sw, .ft, .bf, .merges, .releases, .evd, .netRings, .selectors, .mp, .lanes] s t ∧
      (t.session r.session).delayTx = none ∧ (t.session r.session).syncSet = (s.session r.session).syncSet ∧ t.tt.inbox = s.tt.inbox.erase r) ∧
  (∀ (p m : EdgeMeas) (sys : Int) (r : PtpRx) (q e : EventMsg) (s : State), MsgAccepted r p m s → (s.session r.session).role ≠ 4 → msgType r = 10 → (s.session r.session).delayTx = some q → (s.session r.session).respRx = some e → q.seq = fb r.msg 30 2 → slice r.msg 44 10 = (s.session r.session).portId → 
    ∃ t, exec (.ptpMessageRx p m sys) s = .next t ∧ FrameOf [.rHst, .rRs, .rPl, .rTt, .rPts, .rBf, .rCap, .rCt, .rMp, .hostMem, .freeCount, .evu, .rings, .bus, .mbx, .counters, .tb, .tt, .refs, .dpll, .sw, .ft, .bf, .merges, .releases, .evd, .netRings, .selectors, .mp, .lanes] s t ∧
      (t.session r.session).delayTx = none ∧ (t.session r.session).respRx = none ∧ t.tt.inbox = s.tt.inbox.erase r ∧
      ((q.bad = true ∨ e.bad = true ∨ q.stepc ≠ e.stepc) → (t.session r.session).linkDelay = (s.session r.session).linkDelay)) ∧
  (∀ (p m : EdgeMeas) (sys : Int) (r : PtpRx) (s : State), MsgAccepted r p m s → (s.session r.session).role ≠ 4 → msgType r = 11 → 
    exec (.ptpMessageRx p m sys) s = .next ((msgTaken r s).setSession r.session { (s.session r.session) with announced := r.msg })) ∧
  (∀ (p m : EdgeMeas) (sys : Int) (r : PtpRx) (s : State), MsgAccepted r p m s → (s.session r.session).role ≠ 4 → (msgType r = 3 ∧ ∀ q, (s.session r.session).delayTx = some q → q.seq ≠ fb r.msg 30 2 ∨ slice r.msg 44 10 ≠ (s.session r.session).portId) ∨ (msgType r = 8 ∧ ∀ e, (s.session r.session).syncRx = some e → e.seq ≠ fb r.msg 30 2) ∨
      (msgType r = 9 ∧ ∀ e, (s.session r.session).delayTx = some e → e.seq ≠ fb r.msg 30 2 ∨ slice r.msg 44 10 ≠ (s.session r.session).portId) ∨
      (msgType r = 10 ∧ ∀ q e, (s.session r.session).delayTx = some q → (s.session r.session).respRx = some e → q.seq ≠ fb r.msg 30 2 ∨ slice r.msg 44 10 ≠ (s.session r.session).portId) ∨
      (4 ≤ msgType r ∧ msgType r < 8) ∨ 11 < msgType r → 
    exec (.ptpMessageRx p m sys) s = .next (msgCounted r s)) ∧
  (∀ (p m : EdgeMeas) (sys : Int) (r : PtpRx) (s : State), MsgAccepted r p m s → (s.session r.session).role = 4 → 
    ∃ t, exec (.ptpMessageRx p m sys) s = .next t ∧ FrameOf [.rHst, .rRs, .rPl, .rTt, .rPts, .rBf, .rCap, .rCt, .rMp, .hostMem, .freeCount, .evu, .rings, .bus, .mbx, .counters, .tb, .tt, .refs, .dpll, .sw, .ft, .bf, .merges, .releases, .evd, .netRings, .selectors, .mp, .lanes] s t ∧
      t = gotListen r.session (msgType r) r (msgEvent r s) (msgCounted r s) ∧ t.session r.session = (msgCounted r s).session r.session ∧ t.tt.inbox = s.tt.inbox.erase r) ∧
  (∀ (k : Nat) (s : State), k < 256 → 2 ≤ ttState k s → (s.session k).flag 2 = true → (s.session k).role ≠ 4 → (s.session k).reportMs ≠ some (s.dtt / 781250) → 
    ∃ t, exec (.ttPhaseReportTx k) s = .next t ∧ FrameOf [.rHst, .rBf, .rCap, .rCt, .rMp, .hostMem, .freeCount, .evu, .rings, .bus, .mbx, .counters, .tb, .tt, .refs, .sw, .ft, .bf, .merges, .releases, .evd, .netRings, .selectors, .mp, .lanes] s t ∧
      (t.session k).seqAnn = ((s.session k).seqAnn + 1) % 65536 ∧ (t.session k).reportMs = some (s.dtt / 781250) ∧ t.tt.out.length = 1) ∧
  (∀ (k : Nat) (s : State), 256 ≤ k ∨ ttState k s < 2 ∨ (s.session k).flag 2 = false ∨ (s.session k).role = 4 ∨ (s.session k).reportMs = some (s.dtt / 781250) → 
    exec (.ttPhaseReportTx k) s = .next s) ∧
  (∀ (r : PtpRx) (s : State), s.tt.inbox.find? isSignaling = some r → ttState r.session s = 2 → fb r.msg 44 2 = 3 → fb (r.msg.drop 48) 0 3 = s.getF Reg.ttLinkCfgOrgId → s.getF Reg.ttLinkCfgOrgId ≠ 0 → fb (r.msg.drop 48) 3 3 = 1 → 
    ∃ t, exec .ttPhaseReportRx s = .next t ∧ FrameOf [.rHst, .rTt, .evu, .bus, .tt] s t ∧
      (t.session r.session).lastReport = s.dtt ∧ (t.session r.session).validRun = (if bit (fb (r.msg.drop 48) 26 2) 0 then (s.session r.session).validRun + 1 else 0) ∧
      (t.session r.session).farLat = fb (r.msg.drop 48) 24 2 ∧ (t.session r.session).farSynt = bit (fb (r.msg.drop 48) 26 2) 1 ∧ t.tt.inbox = s.tt.inbox.erase r ∧ ttState r.session t = 2) ∧
  (∀ (r : PtpRx) (s : State), s.tt.inbox.find? isSignaling = some r → ttState r.session s = 3 → (s.session r.session).farLat = fb (r.msg.drop 48) 24 2 → fb r.msg 44 2 = 3 → fb (r.msg.drop 48) 0 3 = s.getF Reg.ttLinkCfgOrgId → s.getF Reg.ttLinkCfgOrgId ≠ 0 → fb (r.msg.drop 48) 3 3 = 1 → 
    ∃ t, exec .ttPhaseReportRx s = .next t ∧ FrameOf [.rHst, .rTt, .evu, .bus, .tt] s t ∧
      (t.session r.session).lastReport = s.dtt ∧ (t.session r.session).validRun = (if bit (fb (r.msg.drop 48) 26 2) 0 then (s.session r.session).validRun + 1 else 0) ∧ t.tt.inbox = s.tt.inbox.erase r ∧ ttState r.session t = 3) ∧
  (∀ (r : PtpRx) (s : State), s.tt.inbox.find? isSignaling = some r → ttState r.session s = 3 → (s.session r.session).farLat ≠ fb (r.msg.drop 48) 24 2 → fb r.msg 44 2 = 3 → fb (r.msg.drop 48) 0 3 = s.getF Reg.ttLinkCfgOrgId → s.getF Reg.ttLinkCfgOrgId ≠ 0 → fb (r.msg.drop 48) 3 3 = 1 → 
    ∃ t, exec .ttPhaseReportRx s = .next t ∧ FrameOf [.rHst, .rTt, .evu, .bus, .tt] s t ∧
      (t.session r.session).validRun = 0 ∧ (t.session r.session).entry = none ∧ t.tt.inbox = s.tt.inbox.erase r ∧ ttState r.session t = 2) ∧
  (∀ (r : PtpRx) (s : State), s.tt.inbox.find? isSignaling = some r → ttState r.session s < 2 ∨ fb r.msg 44 2 ≠ 3 ∨ fb (r.msg.drop 48) 0 3 ≠ s.getF Reg.ttLinkCfgOrgId ∨ fb (r.msg.drop 48) 0 3 = 0 ∨ fb (r.msg.drop 48) 3 3 ≠ 1 → 
    exec .ttPhaseReportRx s = .next { s with tt := { s.tt with inbox := s.tt.inbox.erase r } }) ∧
  (∀ (s : State), s.tt.inbox.find? isSignaling = none → 
    exec .ttPhaseReportRx s = .next s) ∧
  (∀ (k : Nat) (s : State), k < 256 → ttState k s = 2 → (s.session k).flag 2 = true → 16 ≤ (s.session k).validRun → s.getF Reg.ttLinkCfgOrgId ≠ 0 → linkModeMode (s.session k) s = true → (if (s.session k).role = 2 then syntonized (s.session k) s else (s.session k).farSynt) = true → 
    ∃ t, exec (.ttPhaseEntry k) s = .next t ∧ FrameOf [.rHst, .rTt, .evu, .bus, .tt] s t ∧
      ttState k t = 3 ∧ (t.session k).dSigma = 0 ∧ (t.session k).dD = 0 ∧ (t.session k).entry = none) ∧
  (∀ (k : Nat) (s : State), 256 ≤ k ∨ ttState k s ≠ 2 ∨ (s.session k).flag 2 = false ∨ (s.session k).validRun < 16 ∨ s.getF Reg.ttLinkCfgOrgId = 0 ∨ linkModeMode (s.session k) s = false ∨
      (if (s.session k).role = 2 then syntonized (s.session k) s else (s.session k).farSynt) = false → 
    exec (.ttPhaseEntry k) s = .next s) ∧
  (∀ (k : Nat) (s : State), k < 256 → ttState k s = 3 → (s.session k).lastReport + 78125000 ≤ s.dtt → 
    ∃ t, exec (.ttReportTimeout k) s = .next t ∧ FrameOf [.rHst, .rTt, .evu, .bus, .tt] s t ∧
      ttState k t = 2 ∧ (t.session k).validRun = 0) ∧
  (∀ (k : Nat) (s : State), 256 ≤ k ∨ ttState k s ≠ 3 ∨ s.dtt < (s.session k).lastReport + 78125000 → 
    exec (.ttReportTimeout k) s = .next s) ∧
  (∀ (n : Nat) (s : State), n < 8 → 16 ≤ (s.servo n).slips → ttState (s.servo n).session s = 3 → 
    ∃ t, exec (.ttPhaseSlip n) s = .next t ∧ FrameOf [.rHst, .rTt, .evu, .bus, .tt] s t ∧
      ttState (s.servo n).session t = 2 ∧ (t.servo n).slips = 0) ∧
  (∀ (n : Nat) (s : State), 8 ≤ n ∨ (s.servo n).slips < 16 ∨ ttState (s.servo n).session s ≠ 3 → 
    exec (.ttPhaseSlip n) s = .next s) ∧
  (∀ (n : Nat) (s : State), n < 8 → 2 ≤ (s.servo n).mode → (s.servo n).state ≠ 3 → (s.servo n).last + servoPatience (s.session (s.servo n).session) ≤ s.dtt → 
    ∃ t, exec (.ttServoTimeout n) s = .next t ∧ FrameOf [.rHst, .rTb, .rRs, .rPl, .rBf, .rCt, .rMp, .freeCount, .evu, .bus, .mbx, .counters, .tb, .tt, .refs, .dpll, .sw, .ft, .bf, .merges, .releases, .evd, .mp] s t ∧
      (t.servo n).state = 3) ∧
  (∀ (n : Nat) (s : State), 8 ≤ n ∨ (s.servo n).mode < 2 ∨ (s.servo n).state = 3 ∨ s.dtt < (s.servo n).last + servoPatience (s.session (s.servo n).session) → 
    exec (.ttServoTimeout n) s = .next s) ∧
  (∀ (port x : Nat) (b v : Int) (s : State), port < 48 → s.timed.find? (fun e => e.1 = 2 ^ 40 + port) = some (2 ^ 40 + port, ⟨b, [(x, v)]⟩) → x ≤ s.dtt → 
    ∃ t, exec (.asymApply port) s = .next t ∧ FrameOf [.timed, .tt] s t ∧
      spGet 0 t.tt.asym port = v) ∧
  (∀ (port : Nat) (s : State), port < 48 → 
    ∃ t, exec (.asymApply port) s = .next t ∧ FrameOf [.timed, .tt] s t ∧
      spGet 0 t.tt.asym port = (timedApply (2 ^ 40 + port) (spGet 0 s.tt.asym port) s).1 ∧ t.timed = (timedApply (2 ^ 40 + port) (spGet 0 s.tt.asym port) s).2.timed) ∧
  (∀ (port : Nat) (s : State), 48 ≤ port → 
    exec (.asymApply port) s = .next s) ∧
  (∀ (changed : Bool) (s : State), s.isF Reg.hstStatusFwRun = true → 
    ∃ t, exec (.esmcPduTx changed) s = .next t ∧ FrameOf [.rHst, .rGd, .rBf, .rCt, .rMp, .freeCount, .evu, .bus, .mbx, .counters, .refs, .sw, .ft, .bf, .merges, .releases, .evd, .mp] s t ∧
      t = ((List.range 48).filter (fun p => s.mode p ≠ 0 && !inGroup p s && s.linkUp p)).foldl (fun u p => mgmtSend p (esmcFrame p changed (be 8 Config.serial) u) u) s) ∧
  (∀ (changed : Bool) (s : State), s.isF Reg.hstStatusFwRun = false → 
    exec (.esmcPduTx changed) s = .next s)

/-- The commands of group 0x04 complete with their effects. The commands of group 0x04 complete with their effects and frames. -/
def Obligations.ReferenceCommandsComplete : Prop :=
  (∀ (c : Cmd) (s : State), Starts rsSetPrioritySpec c s → 
    ∃ s1, exec (.rsSetPriority c) s = .next (ended rsSetPrioritySpec c s s1 (okReply)) ∧ FrameOf [.rHst, .rTb, .rRs, .rPl, .rBf, .rCt, .rMp, .freeCount, .evu, .bus, .mbx, .counters, .tb, .refs, .dpll, .sw, .ft, .bf, .merges, .releases, .evd, .mp] (taken c s) s1 ∧
      s1.getF (Reg.rsCandStatusPrioA (cu c 0 1)) = cu c 1 1 ∧ s1.getF (Reg.rsCandStatusPrioB (cu c 0 1)) = cu c 2 1 ∧ s1.isF (Reg.rsCandStatusNonrev (cu c 0 1)) = cbit c 3 1 ∧
      (cu c 1 1 = 0 → cu c 2 1 = 0 → candState (cu c 0 1) s1 = 7)) ∧
  (∀ (c : Cmd) (s : State), Starts rsSetLimitsSpec c s → 
    ∃ s1, exec (.rsSetLimits c) s = .next (ended rsSetLimitsSpec c s s1 (okReply)) ∧ FrameOf [.rHst, .rTb, .rRs, .rPl, .rBf, .rCt, .rMp, .freeCount, .evu, .bus, .mbx, .counters, .tb, .refs, .dpll, .sw, .ft, .bf, .merges, .releases, .evd, .mp] (taken c s) s1 ∧
      s1.cand (cu c 0 1) = { s.cand (cu c 0 1) with drift := cu c 4 4, soft := cu c 8 4, hard := cu c 12 4, qualS := cu c 16 2, wtrS := cu c 18 2, wtrUntil := if cu c 18 2 = 0 then none else (s.cand (cu c 0 1)).wtrUntil.map (fun t => t - (s.cand (cu c 0 1)).wtrS * 781250000 + cu c 18 2 * 781250000) } ∧
      (cu c 18 2 = 0 → s1.isF (Reg.rsCandStatusWtr (cu c 0 1)) = false) ∧
      ∀ k, k ≠ (cu c 0 1) → s1.cand k = s.cand k) ∧
  (∀ (c : Cmd) (s : State), Starts rsSetTimersSpec c s → 
    ∃ s1, exec (.rsSetTimers c) s = .next (ended rsSetTimersSpec c s s1 (okReply)) ∧ FrameOf [.rHst, .rTb, .rRs, .rPl, .rBf, .rCt, .rMp, .freeCount, .evu, .bus, .mbx, .counters, .tb, .refs, .dpll, .sw, .ft, .bf, .merges, .releases, .evd, .mp] (taken c s) s1 ∧
      (s1.rd (cu c 0 1)).qlMode = cbit c 1 0 ∧ (s1.rd (cu c 0 1)).hoLimit = cu c 4 4 ∧ (s1.rd (cu c 0 1)).slewThr = cu c 8 4 ∧ (s1.rd (cu c 0 1)).hoFreq = cu c 12 4 ∧
      (s1.rd (cu c 0 1)).hoAging = cu c 16 4) ∧
  (∀ (c : Cmd) (s : State), Starts rsForceSpec c s → 
    ∃ s1, exec (.rsForce c) s = .next (ended rsForceSpec c s s1 (okReply)) ∧ FrameOf [.rHst, .rTb, .rRs, .rPl, .rBf, .rCt, .rMp, .freeCount, .evu, .bus, .mbx, .counters, .tb, .refs, .dpll, .sw, .ft, .bf, .merges, .releases, .evd, .mp] (taken c s) s1 ∧
      (s1.rd (cu c 0 1)).force = (if cu c 1 1 = 0xFF then none else some (cu c 1 1)) ∧ s1.isF (Reg.rsDSelForced (cu c 0 1)) = decide (cu c 1 1 ≠ 0xFF) ∧
      (cu c 1 1 ≠ 0xFF → s.isF (Reg.rsDSelTxn (cu c 0 1)) = false → s.isF Reg.tbStateSwitching = false → (s.rd (cu c 0 1)).lastTxn = none → selOf (cu c 0 1) s1 = some (cu c 1 1))) ∧
  (∀ (c : Cmd) (s : State), Starts rsStatusSpec c s → 
    ∃ s1 r, exec (.rsStatus c) s = .next (ended rsStatusSpec c s s1 r) ∧ FrameOf [.freeCount] (taken c s) s1 ∧
      ∃ x, r = okWith [(32, le 1 (s.qc (cu c 0 1))), (33, le 1 ((selOf (cu c 0 1) s).getD 0xFF)),
        (34, le 1 (b2n (s.isF (Reg.rsDSelForced (cu c 0 1))) + 2 * b2n (s.isF (Reg.rsDSelTxn (cu c 0 1))) + 4 * b2n (s.isF (Reg.rsDSelQueued (cu c 0 1))) +
          8 * b2n (s.isF (Reg.rsDSelHoWindow (cu c 0 1))) + 16 * b2n (s.isF (Reg.rsDSelOnset (cu c 0 1))) + 32 * b2n (s.isF (Reg.tbDStatusOpen (cu c 0 1))) +
          64 * b2n (s.isF (Reg.tbDStatusAlignNeeded (cu c 0 1))))), (35, le 1 (s.getF (Reg.rsDSelHoEntries (cu c 0 1)))),
        (36, le 2 (maskOf ((List.range 16).filter (fun i => eligible (cu c 0 1) i s)))),
        (38, le 2 (maskOf ((List.range 16).filter (fun i => s.isF (Reg.rsCandStatusWtr i))))), (40, le 8 (s.get64 (Reg.rsDBound (cu c 0 1)))),
        (48, le 8 (s.get64 (Reg.rsDHoFfo (cu c 0 1)))), (56, le 4 x), (60, le 4 (s.rd (cu c 0 1)).switches)] ∧
      ∀ t0, (s.rd (cu c 0 1)).lastTxn = some t0 → s1 = taken c s ∧ x = sat (2 ^ 32 - 1) ((s.dtt - t0) / 781250)) ∧
  (∀ (c : Cmd) (s : State), Starts rsLarderReadSpec c s → min (min (c.bufSize / 24) (cu c 2 2)) (s.refs.larder.length - cu c 0 2) < 16 ∨ cu c 2 2 ≤ 16 → 
    ∃ s1 e, exec (.rsLarderRead c) s = .next (stepped rsLarderReadSpec c s s1 e) ∧ FrameOf [.rHst, .rBf, .rCt, .rMp, .freeCount, .evu, .bus, .mbx, .counters, .refs, .sw, .ft, .bf, .merges, .releases, .mp] (begun rsLarderReadSpec c s) s1 ∧
      s1 = readLarder ((List.range (min 16 (min (c.bufSize / 24) (cu c 2 2)))).map (· + cu c 0 2)) (begun rsLarderReadSpec c s) ∧ (s.mp.errs = [] → s1 = begun rsLarderReadSpec c s) ∧
      e = .done (okBuf [] (((s1.refs.larder.drop (cu c 0 2)).take (min 16 (min (c.bufSize / 24) (cu c 2 2)))).map (·.encode)).flatten)) ∧
  (∀ (c : Cmd) (s : State), Starts rsLarderReadSpec c s → 16 ≤ c.bufSize / 24 → 16 < cu c 2 2 → cu c 0 2 + 16 ≤ s.refs.larder.length → 
    ∃ s1 e, exec (.rsLarderRead c) s = .next (stepped rsLarderReadSpec c s s1 e) ∧ FrameOf [.rHst, .rBf, .rCt, .rMp, .freeCount, .evu, .bus, .mbx, .counters, .refs, .sw, .ft, .bf, .merges, .releases, .mp] (begun rsLarderReadSpec c s) s1 ∧
      s1 = readLarder ((List.range 16).map (· + cu c 0 2)) (begun rsLarderReadSpec c s) ∧
      e = .more { firstRecord rsLarderReadSpec c s with acc := (((s1.refs.larder.drop (cu c 0 2)).take 16).map (·.encode)).flatten, estimate := (cu c 2 2 + 15) / 16 }) ∧
  (∀ (c : Cmd) (s : State), Starts rsOpenLoopSpec c s → cu c 1 1 = 1 → 
    ∃ s1, exec (.rsOpenLoop c) s = .next (ended rsOpenLoopSpec c s s1 (okReply)) ∧ FrameOf [.rHst, .rTb, .rRs, .rPl, .rBf, .rCt, .rMp, .freeCount, .evu, .bus, .mbx, .counters, .tb, .refs, .dpll, .sw, .ft, .bf, .merges, .releases, .evd, .mp] (taken c s) s1 ∧
      s1.isF (Reg.tbDStatusOpen (cu c 0 1)) = true ∧ (s.isF (Reg.tbDStatusOpen (cu c 0 1)) = true → s1 = taken c s) ∧
      (s.isF (Reg.tbDStatusOpen (cu c 0 1)) = false → s1.qcState (cu c 0 1) = 4 ∧ s1.isF (Reg.plDStatusLock (cu c 0 1)) = false ∧ (s1.rd (cu c 0 1)).hoValue = domFreq (cu c 0 1) s ∧ (s1.rd (cu c 0 1)).steer = 0)) ∧
  (∀ (c : Cmd) (s : State), Starts rsOpenLoopSpec c s → cu c 1 1 = 0 → 
    ∃ s1, exec (.rsOpenLoop c) s = .next (ended rsOpenLoopSpec c s s1 (okReply)) ∧ FrameOf [.rHst, .rTb, .rRs, .rPl, .rBf, .rCt, .rMp, .freeCount, .evu, .bus, .mbx, .counters, .tb, .refs, .dpll, .sw, .ft, .bf, .merges, .releases, .evd, .mp] (taken c s) s1 ∧
      s1.isF (Reg.tbDStatusOpen (cu c 0 1)) = false ∧ (s.isF (Reg.tbDStatusOpen (cu c 0 1)) = true → (s1.rd (cu c 0 1)).steer = 0) ∧
      (s.isF (Reg.tbDStatusOpen (cu c 0 1)) = false → s1 = taken c s)) ∧
  (∀ (c : Cmd) (s : State), Starts rsSteerSpec c s → 
    ∃ s1, exec (.rsSteer c) s = .next (ended rsSteerSpec c s s1 (okWith [(32, leI 8 (steerClamp (ci c 4 8) s).1)])) ∧ FrameOf [.rHst, .rGd, .rBf, .rCt, .rMp, .freeCount, .evu, .bus, .mbx, .counters, .refs, .sw, .ft, .bf, .merges, .releases, .evd, .mp] (taken c s) s1 ∧
      (s1.rd (cu c 0 1)).steer = (steerClamp (ci c 4 8) s).1 ∧
      (s.getF Reg.gdSteerMaxA ≠ 0xFFFFFFFF → (s1.rd (cu c 0 1)).steer.natAbs ≤ s.getF Reg.gdSteerMaxA))

/-- Samples, monitors, the selector, transactions and holdover act as the rules say. What references, selection, holdover and lock do at
their events. -/
def Obligations.ReferencesAreMonitoredAndSelected : Prop :=
  (∀ (cand x : Nat) (sys rt : Int) (s : State), cand < 16 → candState cand s ≠ 7 → 
    ∃ t, exec (.referenceSample cand x sys rt) s = .next t ∧ FrameOf [.rPl, .tb, .refs, .dpll] s t ∧
      (t.cand cand).present.isSome = true ∧ (t.cand cand).samples.head? = some ⟨x, sys, errorOf cand 0 x rt s, errorOf cand 1 x rt s⟩ ∧
      (selOf 0 s = some cand → s.isF (Reg.tbDStatusOpen 0) = false → isTime cand s = true → capturing 0 s = false → twinPhase 0 s = false →
        t.getI64 (Reg.plDPerr 0) = clampI (-(2 ^ 63)) (2 ^ 63 - 1) (errorOf cand 0 x rt s))) ∧
  (∀ (cand x : Nat) (sys rt : Int) (s : State), 16 ≤ cand ∨ candState cand s = 7 → 
    exec (.referenceSample cand x sys rt) s = .next s) ∧
  (∀ (s : State), 
    ∃ t, exec .monitorEvaluation s = .next t ∧ FrameOf [.rHst, .rTb, .rRs, .rPl, .rBf, .rCt, .rMp, .freeCount, .evu, .bus, .mbx, .counters, .tb, .refs, .dpll, .sw, .ft, .bf, .merges, .releases, .evd, .mp] s t ∧
      t.refs.lastEval = s.dtt ∧ ∀ i, candState i s = 7 → t.cand i = s.cand i) ∧
  (∀ (cand : Nat) (s : State), cand < 16 → lostNow cand s = true → candState cand s ≠ 7 → 
    ∃ t, exec (.candidateLost cand) s = .next t ∧ FrameOf [.rHst, .rTb, .rRs, .rPl, .rBf, .rCt, .rMp, .freeCount, .evu, .bus, .mbx, .counters, .tb, .refs, .dpll, .sw, .ft, .bf, .merges, .releases, .evd, .mp] s t ∧
      candState cand t = 0 ∧ (t.cand cand).samples = [] ∧ (t.cand cand).present = none) ∧
  (∀ (cand : Nat) (s : State), 16 ≤ cand ∨ lostNow cand s = false ∨ candState cand s = 7 → 
    exec (.candidateLost cand) s = .next s) ∧
  (∀ (cand x : Nat) (s : State), cand < 16 → (s.cand cand).timer = some x → x + (s.cand cand).qualS * 781250000 ≤ s.dtt → candState cand s = 1 → (s.cand cand).y.isSome = true → beyond (s.getI64 (Reg.rsCandFfo cand)) (s.cand cand).soft = false → beyond (s.getI64 (Reg.rsCandFfo cand)) (s.cand cand).hard = false → 
    ∃ t, exec (.qualTimerExpiry cand) s = .next t ∧ FrameOf [.rHst, .rTb, .rRs, .rPl, .rBf, .rCt, .rMp, .freeCount, .evu, .bus, .mbx, .counters, .tb, .refs, .dpll, .sw, .ft, .bf, .merges, .releases, .evd, .mp] s t ∧
      candState cand t = 2 ∧ (t.cand cand).timer = none ∧ (t.cand cand).everQualified = true) ∧
  (∀ (cand x : Nat) (s : State), cand < 16 → (s.cand cand).timer = some x → x + (s.cand cand).qualS * 781250000 ≤ s.dtt → 
    exec (.qualTimerExpiry cand) s = .next (evaluateAll (testLimits cand s))) ∧
  (∀ (cand : Nat) (s : State), 16 ≤ cand ∨ (∀ x, (s.cand cand).timer = some x → s.dtt < x + (s.cand cand).qualS * 781250000) → 
    exec (.qualTimerExpiry cand) s = .next s) ∧
  (∀ (cand x : Nat) (s : State), cand < 16 → (s.cand cand).wtrUntil = some x → x ≤ s.dtt → 
    ∃ t, exec (.wtrExpiry cand) s = .next t ∧ FrameOf [.rHst, .rTb, .rRs, .rPl, .rBf, .rCt, .rMp, .freeCount, .evu, .bus, .mbx, .counters, .tb, .refs, .dpll, .sw, .ft, .bf, .merges, .releases, .evd, .mp] s t ∧
      t.isF (Reg.rsCandStatusWtr cand) = false ∧ (t.cand cand).wtrUntil = none) ∧
  (∀ (cand : Nat) (s : State), 16 ≤ cand ∨ (∀ x, (s.cand cand).wtrUntil = some x → s.dtt < x) → 
    exec (.wtrExpiry cand) s = .next s) ∧
  (∀ (d i : Nat) (s : State), d ≤ 1 → s.isF (Reg.rsDSelQueued d) = true → s.isF (Reg.rsDSelTxn d) = false → choice d s = some i → i < 16 → selOf d s ≠ some i → s.isF Reg.tbStateSwitching = false → (s.rd d).lastTxn.all (fun x => decide (x + 78125000 ≤ s.dtt)) = true → 
    ∃ t, exec (.switchTransactionStart d) s = .next t ∧ FrameOf [.rHst, .rTb, .rRs, .rPl, .rBf, .rCt, .rMp, .freeCount, .evu, .bus, .mbx, .counters, .tb, .refs, .dpll, .sw, .ft, .bf, .merges, .releases, .evd, .mp] s t ∧
      selOf d t = some i ∧ t.isF (Reg.rsDSelTxn d) = true ∧ t.isF (Reg.rsDSelQueued d) = false ∧ (t.rd d).txn = some ⟨s.dtt, i, captured d i s, false⟩ ∧ (t.rd d).lastTxn = some s.dtt ∧
      t.isF (Reg.plDStatusLock d) = false) ∧
  (∀ (d i : Nat) (s : State), d ≤ 1 → s.isF (Reg.rsDSelQueued d) = true → s.isF (Reg.rsDSelTxn d) = false → choice d s = some i → selOf d s ≠ some i → s.isF Reg.tbStateSwitching = true ∨ (s.rd d).lastTxn.all (fun x => decide (x + 78125000 ≤ s.dtt)) = false → 
    ∃ t, exec (.switchTransactionStart d) s = .next t ∧ FrameOf [.rRs, .refs] s t ∧
      t.isF (Reg.rsDSelQueued d) = true ∧ t.isF (Reg.rsDSelTxn d) = false ∧ selOf d t = selOf d s ∧ t.qcState d = s.qcState d) ∧
  (∀ (d : Nat) (s : State), d ≤ 1 → s.isF (Reg.rsDSelQueued d) = true → s.isF (Reg.rsDSelTxn d) = false → choice d s = selOf d s → 
    ∃ t, exec (.switchTransactionStart d) s = .next t ∧ FrameOf [.rHst, .rTb, .rRs, .rPl, .rBf, .rCt, .rMp, .freeCount, .evu, .bus, .mbx, .counters, .tb, .refs, .dpll, .sw, .ft, .bf, .merges, .releases, .evd, .mp] s t ∧
      t.isF (Reg.rsDSelQueued d) = false ∧ t.isF (Reg.rsDSelTxn d) = false ∧ selOf d t = selOf d s) ∧
  (∀ (d : Nat) (s : State), d ≤ 1 → s.isF (Reg.rsDSelQueued d) = true → s.isF (Reg.rsDSelTxn d) = false → choice d s = none → selOf d s ≠ none → 
    ∃ t, exec (.switchTransactionStart d) s = .next t ∧ FrameOf [.rHst, .rTb, .rRs, .rPl, .rBf, .rCt, .rMp, .freeCount, .evu, .bus, .mbx, .counters, .tb, .refs, .dpll, .sw, .ft, .bf, .merges, .releases, .evd, .mp] s t ∧
      t.isF (Reg.rsDSelQueued d) = false ∧ t.isF (Reg.rsDSelTxn d) = false ∧ selOf d t = none ∧ t.isF (Reg.plDStatusLock d) = false ∧ t.isF (Reg.plDStatusFacq d) = false) ∧
  (∀ (d : Nat) (s : State), 1 < d ∨ s.isF (Reg.rsDSelQueued d) = false ∨ s.isF (Reg.rsDSelTxn d) = true → 
    exec (.switchTransactionStart d) s = .next s) ∧
  (∀ (d : Nat) (x : Txn) (s : State), d ≤ 1 → (s.rd d).txn = some x → qcHeld d s = false → x.start + 7812500 ≤ s.dtt ∨ (x.settled = true ∧ (s.getI64 (Reg.plDPerr d)).natAbs ≤ (lockWindow d x.target s).1) → choice d s = selOf d s → 
    ∃ t, exec (.switchTransactionEnd d) s = .next t ∧ FrameOf [.rHst, .rGd, .rTb, .rRs, .rPl, .rBf, .rCt, .rMp, .freeCount, .evu, .bus, .mbx, .counters, .tb, .refs, .dpll, .sw, .ft, .bf, .merges, .releases, .evd, .mp] s t ∧
      (t.rd d).txn = none ∧ t.isF (Reg.rsDSelTxn d) = false ∧ t.isF (Reg.rsDSelQueued d) = false ∧ selOf d t = selOf d s) ∧
  (∀ (d i : Nat) (x : Txn) (s : State), d ≤ 1 → (s.rd d).txn = some x → qcHeld d s = false → x.start + 7812500 ≤ s.dtt ∨ (x.settled = true ∧ (s.getI64 (Reg.plDPerr d)).natAbs ≤ (lockWindow d x.target s).1) → choice d s = some i → selOf d s ≠ some i → s.isF Reg.tbStateSwitching = true ∨ (s.rd d).lastTxn.all (fun x => decide (x + 78125000 ≤ s.dtt)) = false → 
    ∃ t, exec (.switchTransactionEnd d) s = .next t ∧ FrameOf [.rHst, .rGd, .rTb, .rRs, .rPl, .rBf, .rCt, .rMp, .freeCount, .evu, .bus, .mbx, .counters, .tb, .refs, .dpll, .sw, .ft, .bf, .merges, .releases, .evd, .mp] s t ∧
      (t.rd d).txn = none ∧ t.isF (Reg.rsDSelTxn d) = false ∧ t.isF (Reg.rsDSelQueued d) = true ∧ selOf d t = selOf d s) ∧
  (∀ (d : Nat) (s : State), 1 < d ∨ qcHeld d s = true ∨ (∀ x, (s.rd d).txn = some x → s.dtt < x.start + 7812500 ∧ (x.settled = false ∨ (lockWindow d x.target s).1 < (s.getI64 (Reg.plDPerr d)).natAbs)) → 
    exec (.switchTransactionEnd d) s = .next s) ∧
  (∀ (s : State), 
    ∃ t, exec .qcClassUpdate s = .next t ∧ FrameOf [.rTb, .rRs, .freeCount, .refs, .evd] s t ∧
      ∀ d, d ≤ 1 → (t.rd d).bound = estimate d (s.qcState d) s ∧ t.qc d = s.qcState d * 32 + classOf (estimate d (s.qcState d) s)) ∧
  (∀ (d : Nat) (s : State), d ≤ 1 → s.qcState d = 4 → s.isF (Reg.rsDSelQueued d) = false → ownState d s = true → (holdoverBound d s).all (fun b => decide ((s.rd d).hoLimit * 2 ^ 16 < b)) = true → 
    ∃ t, exec .holdoverUpdate s = .next t ∧ FrameOf [.rHst, .rTb, .rRs, .rPl, .rBf, .rCt, .rMp, .freeCount, .evu, .bus, .mbx, .counters, .refs, .dpll, .sw, .ft, .bf, .merges, .releases, .evd, .mp] s t ∧
      t.qcState d = 5) ∧
  (∀ (d : Nat) (s : State), d ≤ 1 → s.qcState d = 4 → s.isF (Reg.rsDSelQueued d) = true ∨ ownState d s = false ∨ (holdoverBound d s).any (fun b => decide (b ≤ (s.rd d).hoLimit * 2 ^ 16)) = true → 
    ∃ t, exec .holdoverUpdate s = .next t ∧ FrameOf [.rHst, .rTb, .rRs, .rPl, .rBf, .rCt, .rMp, .freeCount, .evu, .bus, .mbx, .counters, .refs, .dpll, .sw, .ft, .bf, .merges, .releases, .evd, .mp] s t ∧
      t.qcState d = 4) ∧
  (∀ (s : State), s.qcState 0 ≠ 4 → s.qcState 1 ≠ 4 → 
    exec .holdoverUpdate s = .next s) ∧
  (∀ (s : State), (s.refs.minute + 1) * minuteTicks ≤ s.dtt → 
    ∃ t, exec .larderEntryWrite s = .next t ∧ FrameOf [.rHst, .rRs, .rBf, .rCt, .rMp, .freeCount, .evu, .bus, .mbx, .counters, .refs, .sw, .ft, .bf, .merges, .releases, .mp] s t ∧
      t.refs.minute = s.refs.minute + 1 ∧ t.refs.larder.map (·.minute) = (s.refs.minute :: s.refs.larder.map (·.minute)).take 2880 ∧
      (s.mp.errs = [] → s.mp.sticky = [] →
        t.refs.larder = (({ minute := s.refs.minute, flagsA := minuteFlags 0 s, flagsB := minuteFlags 1 s, selA := (selOf 0 s).getD 0xFF, selB := (selOf 1 s).getD 0xFF, ffoA := minuteFfo 0 s, ffoB := minuteFfo 1 s } : LarderEntry) :: s.refs.larder).take 2880) ∧
      t.getF Reg.rsLarderInfoCount = min 2880 (s.refs.larder.length + 1) ∧
      t.getF Reg.rsLarderInfoNewest = (if s.refs.larder.length = 0 then 0 else (s.getF Reg.rsLarderInfoNewest + 1) % 2880)) ∧
  (∀ (s : State), s.dtt < (s.refs.minute + 1) * minuteTicks → 
    exec .larderEntryWrite s = .next s) ∧
  (∀ (v : Nat) (s : State), s.refs.tstatWait = some v → s.refs.tstatSince * 2 + 15625 ≤ s.dtt * 2 → 
    exec .tstatHoldExpiry s = .next { s with refs := { s.refs with tstat := v, tstatSince := s.dtt, tstatWait := none } }) ∧
  (∀ (s : State), s.refs.tstatWait = none ∨ s.dtt * 2 < s.refs.tstatSince * 2 + 15625 → 
    exec .tstatHoldExpiry s = .next s) ∧
  (∀ (port ql i : Nat) (s : State), 8 ≤ i → i < 16 → portOf (s.cand i).linePort s = portOf port s → (s.cand i).lineMode ≠ 0 → 
    ∃ t, exec (.esmcPduRx port ql) s = .next t ∧ FrameOf [.rHst, .rTb, .rRs, .rPl, .rBf, .rCt, .rMp, .freeCount, .evu, .bus, .mbx, .counters, .tb, .refs, .dpll, .sw, .ft, .bf, .merges, .releases, .evd, .mp] s t ∧
      t.getF (Reg.rsCandStatusQl i) = ql % 16 ∧ ∀ j, j < 16 → j < 8 ∨ portOf (s.cand j).linePort s ≠ portOf port s ∨ (s.cand j).lineMode = 0 → t.getF (Reg.rsCandStatusQl j) = s.getF (Reg.rsCandStatusQl j)) ∧
  (∀ (port ql : Nat) (s : State), (∀ i, 8 ≤ i → i < 16 → portOf (s.cand i).linePort s ≠ portOf port s ∨ (s.cand i).lineMode = 0) → 
    exec (.esmcPduRx port ql) s = .next s) ∧
  (∀ (q : SwitchReq) (s : State), s.tb.switchReq = some q → switchNow s = true → q.domain ≤ 1 → 
    ∃ t, exec .servedSwitch s = .next t ∧ FrameOf [.rHst, .rMbx, .rTb, .rPl, .rBf, .rCt, .rMp, .rTw, .hostMem, .freeCount, .evu, .rings, .bus, .mbx, .counters, .tb, .refs, .dpll, .sw, .ft, .bf, .merges, .releases, .evd, .tw, .mp, .boot] s t ∧
      t.tb.switchReq = none ∧ t.isF Reg.tbStateSwitching = false ∧
      t.served = (if beyondSeamless (switchTested q.domain s.now80 s) s && !q.realign then s.served else q.domain)) ∧
  (∀ (s : State), s.tb.switchReq = none ∨ switchNow s = false → 
    exec .servedSwitch s = .next s) ∧
  (∀ (d i : Nat) (s : State), d ≤ 1 → selOf d s = some i → s.qcState d = 1 → 3 ≤ (s.rd d).facq → s.isF (Reg.rsDSelTxn d) = false → s.isF (Reg.rsDSelQueued d) = false → ownState d s = true → 
    ∃ t, exec (.frequencyAcquired d) s = .next t ∧ FrameOf [.rHst, .rGd, .rTb, .rRs, .rPl, .rBf, .rCt, .rMp, .freeCount, .evu, .bus, .mbx, .counters, .tb, .refs, .dpll, .sw, .ft, .bf, .merges, .releases, .evd, .mp] s t ∧
      t.isF (Reg.plDStatusFacq d) = true ∧ (isTime i s = true → t.qcState d = 6) ∧ (isTime i s = false → candState i s = 2 → t.qcState d = 2)) ∧
  (∀ (d : Nat) (s : State), 1 < d ∨ selOf d s = none ∨ s.qcState d ≠ 1 ∨ (s.rd d).facq < 3 ∨ s.isF (Reg.rsDSelTxn d) = true ∨ s.isF (Reg.rsDSelQueued d) = true ∨ ownState d s = false → 
    exec (.frequencyAcquired d) s = .next s) ∧
  (∀ (d i : Nat) (s : State), d ≤ 1 → selOf d s = some i → lockTest d i s = true → 
    ∃ t, exec (.dpllLock d) s = .next t ∧ FrameOf [.rHst, .rTb, .rRs, .rPl, .rBf, .rCt, .rMp, .freeCount, .evu, .bus, .mbx, .counters, .refs, .dpll, .sw, .ft, .bf, .merges, .releases, .evd, .mp] s t ∧
      t.isF (Reg.plDStatusLock d) = true ∧ (s.qcState d = 6 → candState i s = 2 → ownState d s = true → t.qcState d = 2)) ∧
  (∀ (d : Nat) (s : State), 1 < d ∨ (∀ i, selOf d s = some i → lockTest d i s = false) → 
    exec (.dpllLock d) s = .next s) ∧
  (∀ (d i : Nat) (s : State), d ≤ 1 → selOf d s = some i → s.isF (Reg.plDStatusLock d) = true → ((lockWindow d i s).2 + 15) / 16 ≤ (s.rd d).outCount → 
    ∃ t, exec (.dpllLockLoss d) s = .next t ∧ FrameOf [.rHst, .rPl, .evu, .bus, .refs] s t ∧
      t.isF (Reg.plDStatusLock d) = false ∧ t.getF (Reg.plDStatusCount d) = 0 ∧ (t.rd d).outCount = 0 ∧ t.qcState d = s.qcState d) ∧
  (∀ (d : Nat) (s : State), 1 < d ∨ s.isF (Reg.plDStatusLock d) = false ∨ (∀ i, selOf d s = some i → (s.rd d).outCount < ((lockWindow d i s).2 + 15) / 16) → 
    exec (.dpllLockLoss d) s = .next s)

/-- The commands of group 0x05 complete with their effects. The commands of group 0x05 complete with their effects and frames. -/
def Obligations.DpllAndOutputCommandsComplete : Prop :=
  (∀ (c : Cmd) (s : State), Starts plSetLoopSpec c s → 
    ∃ s1, exec (.plSetLoop c) s = .next (ended plSetLoopSpec c s s1 (okReply)) ∧ FrameOf [.rHst, .rTb, .rRs, .rPl, .rPts, .rBf, .rCt, .rMp, .freeCount, .evu, .bus, .mbx, .counters, .refs, .dpll, .em, .sw, .ft, .bf, .merges, .releases, .evd, .mp, .cal] (taken c s) s1 ∧
      s1.loopCfg (cu c 0 1) = ⟨cu c 4 4, cu c 8 2, cu c 10 2, cu c 12 2, cu c 16 4, cu c 20 4⟩ ∧ (cbit c 1 1 = true → s1.getF Reg.plStatusInnerBw = cu c 2 1) ∧
      (cbit c 1 0 = true → s1.innerLocked = false ∧ s1.isF Reg.plStatusSearch = true ∧ s1.dpll.searchAll = true) ∧
      (cbit c 1 0 = false → s1.innerLocked = s.innerLocked ∧ s1.isF Reg.plStatusSearch = s.isF Reg.plStatusSearch)) ∧
  (∀ (c : Cmd) (s : State), Starts plOutConfigSpec c s → 
    ∃ s1, exec (.plOutConfig c) s = .next (ended plOutConfigSpec c s s1 (okReply)) ∧ FrameOf [.rHst, .rPl, .rCal, .evu, .bus, .dpll] (taken c s) s1 ∧
      s1.getF (Reg.plOutStatusStd (cu c 0 1)) = cu c 1 1 ∧ s1.getF (Reg.plOutStatusOsyn (cu c 0 1)) = cu c 2 1 ∧ s1.isF (Reg.plOutStatusAlign (cu c 0 1)) = cbit c 3 0 ∧
      s1.isF (Reg.plOutStatusSafe (cu c 0 1)) = cbit c 3 1 ∧ s1.getF (Reg.plOutStatusSqMask (cu c 0 1)) = cu c 8 1 ∧ s1.getF (Reg.plOutDiv (cu c 0 1)) = cu c 4 4 ∧ (s1.out (cu c 0 1)).hold = cbit c 3 3 ∧
      (s1.out (cu c 0 1)).phase = (if cbit c 3 0 then ci c 16 8 else 0)) ∧
  (∀ (c : Cmd) (s : State), Starts plOutRetuneSpec c s → s.innerLocked = true → 
    ∃ s1, exec (.plOutRetune c) s = .next (heldBack plOutRetuneSpec c s s1) ∧ FrameOf [.rHst, .rPl, .evu, .bus, .dpll] (taken c s) s1 ∧
      s1.getF (Reg.plOsynStatusInt (cu c 0 1)) = cu c 1 1 ∧ s1.getF (Reg.plOsynNumValue (cu c 0 1)) = cu c 4 4 ∧ s1.getF (Reg.plOsynDenValue (cu c 0 1)) = cu c 8 4 ∧
      s1.isF (Reg.plOsynStatusRetune (cu c 0 1)) = true ∧ s1.isF (Reg.plOsynStatusLock (cu c 0 1)) = false) ∧
  (∀ (c : Cmd) (s : State), Starts plOutRetuneSpec c s → s.innerLocked = false → 
    ∃ s1 r, exec (.plOutRetune c) s = .next (ended plOutRetuneSpec c s s1 r) ∧ FrameOf [.rHst, .rPl, .evu, .bus, .dpll] (taken c s) s1 ∧
      r = deferred ∧ s1.isF (Reg.plOsynStatusRetune (cu c 0 1)) = true ∧ s1.isF (Reg.plOsynStatusLock (cu c 0 1)) = false) ∧
  (∀ (c : Cmd) (s : State), Starts plPpsConfigSpec c s → 
    ∃ s1, exec (.plPpsConfig c) s = .next (ended plPpsConfigSpec c s s1 (okReply)) ∧ FrameOf [.rHst, .rPl, .evu, .bus, .dpll] (taken c s) s1 ∧
      s1.getF (Reg.plPpsStatusFlags (cu c 0 1)) = cu c 1 1 ∧ s1.getF (Reg.plPpsStatusSqMask (cu c 0 1)) = cu c 2 1 ∧ s1.getF (Reg.plPpsStatusTod (cu c 0 1)) = cu c 3 1 ∧
      (s1.out (8 + (cu c 0 1))).phase = ci c 16 8 ∧ (s1.out (8 + (cu c 0 1))).rate = cu c 4 4 ∧ (s1.out (8 + (cu c 0 1))).periodS = cu c 8 2 ∧ (s1.out (8 + (cu c 0 1))).width = cu c 12 4) ∧
  (∀ (c : Cmd) (s : State), Starts plStatusSpec c s → 
    ∃ s1, exec (.plStatus c) s = .next (ended plStatusSpec c s s1 (okWith [(32, le 4 (s.regWord 0x120000)), (36, le 4 (s.regWord 0x120100)), (40, le 4 (s.regWord 0x120200)),
    (44, le 8 (s.get64 Reg.plNtw)), (52, le 8 (s.get64 (Reg.plDPerr s.served))), (60, le 4 (plRun s))])) ∧ FrameOf [] (taken c s) s1 ∧
      s1 = taken c s)

/-- The inner loop, the servo, the OSYNs and the outputs act as the rules say. What the inner loop, the servo, the OSYNs and the outputs do
at their events. -/
def Obligations.LoopsAndOutputsRun : Prop :=
  (∀ (fine : Nat) (margin : Bool) (s : State), s.innerLocked = false → s.isF Reg.plStatusSearch = false → 
    ∃ t, exec (.innerLock fine margin) s = .next t ∧ FrameOf [.rHst, .rMbx, .rTb, .rRs, .rPl, .rPts, .rBf, .rCt, .rMp, .rTw, .hostMem, .freeCount, .evu, .rings, .bus, .mbx, .counters, .tb, .refs, .dpll, .sw, .ft, .bf, .merges, .releases, .evd, .tw, .mp, .boot] s t ∧
      t.innerLocked = true ∧ t.isF Reg.plStatusSysxoOk = true ∧ t.dpll.everLocked = true ∧ t.qcState 0 ≠ 7 ∧ t.qcState 1 ≠ 7) ∧
  (∀ (fine : Nat) (margin : Bool) (s : State), s.innerLocked = true ∨ s.isF Reg.plStatusSearch = true → 
    exec (.innerLock fine margin) s = .next s) ∧
  (∀ (s : State), s.innerLocked = true → 
    ∃ t, exec .innerLockLoss s = .next t ∧ FrameOf [.rHst, .rTb, .rRs, .rPl, .rPts, .rBf, .rCt, .rMp, .freeCount, .evu, .bus, .mbx, .counters, .refs, .dpll, .em, .sw, .ft, .bf, .merges, .releases, .evd, .mp, .cal] s t ∧
      t.innerLocked = false ∧ t.isF Reg.plStatusSearch = true ∧ t.qcState 0 = 7 ∧ t.qcState 1 = 7 ∧ t.isF (Reg.plDStatusLock 0) = false ∧
      t.isF (Reg.plDStatusLock 1) = false ∧ t.getI64 Reg.plNtw = s.getI64 Reg.plNtw) ∧
  (∀ (s : State), s.innerLocked = false → 
    exec .innerLockLoss s = .next s) ∧
  (∀ (missing : Bool) (s : State), 
    ∃ t, exec (.sysxoFault missing) s = .next t ∧ FrameOf [.rHst, .rTb, .rRs, .rPl, .rPts, .rBf, .rCt, .rMp, .freeCount, .evu, .bus, .mbx, .counters, .refs, .dpll, .em, .sw, .ft, .bf, .merges, .releases, .evd, .mp, .cal] s t ∧
      t.isF Reg.plStatusSysxoOk = false ∧ t.innerLocked = false ∧ (s.innerLocked = true → t.qcState 0 = 7 ∧ t.qcState 1 = 7)) ∧
  (∀ (band : Nat) (s : State), s.isF Reg.plStatusSearch = true → s.dpll.searchAll = true ∨ (band ≤ s.getF Reg.plStatusBand + 1 ∧ s.getF Reg.plStatusBand ≤ band + 1) → 
    ∃ t, exec (.bandSearchDone band) s = .next t ∧ FrameOf [.rPl, .dpll] s t ∧
      t.isF Reg.plStatusSearch = false ∧ t.getF Reg.plStatusBand = band % 2 ^ 8 ∧ t.isF Reg.plStatusMargin = false ∧ t.dpll.searchAll = false ∧ FieldsOf [Reg.plStatusSearch, Reg.plStatusBand, Reg.plStatusMargin] s t) ∧
  (∀ (band : Nat) (s : State), s.isF Reg.plStatusSearch = false ∨ (s.dpll.searchAll = false ∧ (s.getF Reg.plStatusBand + 1 < band ∨ band + 1 < s.getF Reg.plStatusBand)) → 
    exec (.bandSearchDone band) s = .next s) ∧
  (∀ (fine : Nat) (margin : Bool) (s : State), s.tb.lastServo + 781250 ≤ s.dtt → s.dpll.holdStart = none → s.isF Reg.hstStatusFwRun = true → 
    ∃ t, exec (.servoUpdate fine margin) s = .next t ∧ FrameOf [.rHst, .rGd, .rTb, .rPl, .rBf, .rCt, .rMp, .freeCount, .evu, .bus, .mbx, .counters, .tb, .refs, .dpll, .sw, .ft, .bf, .merges, .releases, .evd, .mp] s t ∧
      t.tb.lastServo = s.dtt ∧ t.getF Reg.plStatusFine = (if s.innerLocked then fine % 2 ^ Reg.plStatusFine.width else s.getF Reg.plStatusFine) ∧
      (∀ d, d ≤ 1 → (t.rd d).ffoCount = (s.rd d).ffoCount + 1)) ∧
  (∀ (fine : Nat) (margin : Bool) (s : State), s.tb.lastServo + 781250 ≤ s.dtt → s.dpll.holdStart = none → s.isF Reg.hstStatusFwRun = true → s.isF Reg.tbStateXfer = false → 
    ∃ t, exec (.servoUpdate fine margin) s = .next t ∧ FrameOf [.rHst, .rGd, .rTb, .rPl, .rBf, .rCt, .rMp, .freeCount, .evu, .bus, .mbx, .counters, .tb, .refs, .dpll, .sw, .ft, .bf, .merges, .releases, .evd, .mp] s t ∧
      t.getI64 Reg.plNtw = (if twinPhase s.served s then clampI (-(2 ^ 36)) (2 ^ 36) (filterOut s.served s)
        else if keepsFreq s.served s then
          clampI (-(2 ^ 36)) (2 ^ 36) (ntwFor (s.rd s.served).hoValue s + if s.isF (Reg.tbDStatusOpen s.served) then (steerNow s.served s).1 else 0)
        else if follows s.served s then clampI (-(2 ^ 36)) (2 ^ 36) (filterOut s.served s) else s.getI64 Reg.plNtw) ∧
      t.isF Reg.tbStateXfer = false) ∧
  (∀ (fine : Nat) (margin : Bool) (s : State), s.tb.lastServo + 781250 ≤ s.dtt → s.dpll.holdStart = none → s.isF Reg.hstStatusFwRun = true → s.isF Reg.tbStateXfer = true → 
    ∃ t, exec (.servoUpdate fine margin) s = .next t ∧ FrameOf [.rHst, .rGd, .rTb, .rPl, .rBf, .rCt, .rMp, .freeCount, .evu, .bus, .mbx, .counters, .tb, .refs, .dpll, .sw, .ft, .bf, .merges, .releases, .evd, .mp] s t ∧
      t.isF Reg.tbStateXfer = decide (towardZero (s.seg s.served).rate (xferMoved s.tb.lastServo s.dtt) ≠ 0)) ∧
  (∀ (fine : Nat) (margin : Bool) (s : State), s.dtt < s.tb.lastServo + 781250 ∨ s.dpll.holdStart ≠ none ∨ s.isF Reg.hstStatusFwRun = false → 
    exec (.servoUpdate fine margin) s = .next s) ∧
  (∀ (k : Nat) (s : State), k < 4 → s.isF (Reg.plOsynStatusLock k) = false → s.getF (Reg.plOsynDenValue k) ≠ 0 → 
    ∃ t, exec (.osynLock k) s = .next t ∧ FrameOf [.rHst, .rMbx, .rPl, .rTw, .hostMem, .evu, .rings, .bus, .mbx, .dpll, .tw, .boot] s t ∧
      t.isF (Reg.plOsynStatusLock k) = true ∧ (s.innerLocked = true → t.isF (Reg.plOsynStatusRetune k) = false)) ∧
  (∀ (k : Nat) (s : State), k < 4 → s.isF (Reg.plOsynStatusLock k) = false → s.getF (Reg.plOsynDenValue k) ≠ 0 → s.innerLocked = false → 
    exec (.osynLock k) s = .next (s.setF (Reg.plOsynStatusLock k) 1)) ∧
  (∀ (k : Nat) (s : State), 4 ≤ k ∨ s.isF (Reg.plOsynStatusLock k) = true ∨ s.getF (Reg.plOsynDenValue k) = 0 → 
    exec (.osynLock k) s = .next s) ∧
  (∀ (out x : Nat) (s : State), out < 12 → (s.out out).squelched = true → (s.out out).clear = some x → x + 781250000 ≤ s.dtt → bit (outMask out s) (s.qcState s.served) = false → 
    ∃ t, exec (.squelchRelease out) s = .next t ∧ FrameOf [.rHst, .rPl, .evu, .bus, .dpll] s t ∧
      (t.out out).squelched = false ∧ outState out t ≠ 4) ∧
  (∀ (out x : Nat) (s : State), out < 12 → (s.out out).squelched = true → (s.out out).clear = some x → x + 781250000 ≤ s.dtt → 
    exec (.squelchRelease out) s = .next (outRefresh out (s.setOut out { s.out out with squelched := false, clear := none }))) ∧
  (∀ (out : Nat) (s : State), 12 ≤ out ∨ (s.out out).squelched = false ∨ (∀ x, (s.out out).clear = some x → s.dtt < x + 781250000) → 
    exec (.squelchRelease out) s = .next s) ∧
  (∀ (edge n : Nat) (s : State), n = (divRound (s.servedTime edge + s.getI64 Reg.tbOutOffset - (s.out 8).phaseNow) (10 ^ 9 * 2 ^ 16)).toNat → s.getF (Reg.plPpsStatusTod 0) ≠ 0 → outState 8 s = 1 ∨ outState 8 s = 5 → edge + 7812500 * 2 ^ 16 ≤ s.now80 → 20000000 ≤ ppsPeriod (s.out 8).rate (s.out 8).periodS ∨ (((s.servedTime edge + s.getI64 Reg.tbOutOffset - (s.out 8).phaseNow) - n * (10 ^ 9 * 2 ^ 16)).natAbs * 2 < ppsPeriod (s.out 8).rate (s.out 8).periodS * 2 ^ 16) → 
    exec (.todMessage edge) s = .next { s with dpll := { s.dpll with todTx := if s.getF (Reg.plPpsStatusTod 0) = 1 then zdaOf n s else todBinary n s } }) ∧
  (∀ (edge n : Nat) (s : State), n = (divRound (s.servedTime edge + s.getI64 Reg.tbOutOffset - (s.out 8).phaseNow) (10 ^ 9 * 2 ^ 16)).toNat → s.getF (Reg.plPpsStatusTod 0) = 0 ∨ (outState 8 s ≠ 1 ∧ outState 8 s ≠ 5) ∨ s.now80 < edge + 7812500 * 2 ^ 16 ∨
      (ppsPeriod (s.out 8).rate (s.out 8).periodS < 20000000 ∧ ¬(((s.servedTime edge + s.getI64 Reg.tbOutOffset - (s.out 8).phaseNow) - n * (10 ^ 9 * 2 ^ 16)).natAbs * 2 < ppsPeriod (s.out 8).rate (s.out 8).periodS * 2 ^ 16)) → 
    exec (.todMessage edge) s = .next s) ∧
  (∀ (second x : Nat) (s : State), s.dpll.ppsEdge = some x → s.now80 ≤ x + 703125000 * 2 ^ 16 → 
    exec (.todRxLabel second) s = .next ({ s with dpll := { s.dpll with todLabel := some (second, x) } })) ∧
  (∀ (second : Nat) (s : State), (∀ x, s.dpll.ppsEdge = some x → x + 703125000 * 2 ^ 16 < s.now80) → 
    exec (.todRxLabel second) s = .next s)

/-- The commands of group 0x06 complete with their effects. The commands of group 0x06 complete with their effects and frames. -/
def Obligations.GnssCommandsComplete : Prop :=
  (∀ (c : Cmd) (s : State), Starts gnEnableSpec c s → cu c 1 1 = 1 → s.awake 52 = false → 
    ∃ s1, exec (.gnEnable c) s = .next (heldBack gnEnableSpec c s s1) ∧ FrameOf [.rHst, .rTb, .rRs, .rPl, .rGn, .rBf, .rCt, .rMp, .freeCount, .evu, .bus, .mbx, .islands, .counters, .tb, .refs, .dpll, .gn, .sw, .ft, .bf, .merges, .releases, .evd, .mp] (taken c s) s1 ∧
      s1 = taken c s) ∧
  (∀ (c : Cmd) (s : State), Starts gnEnableSpec c s → cu c 1 1 = 1 → s.awake 52 = true → 
    ∃ s1 r, exec (.gnEnable c) s = .next (ended gnEnableSpec c s s1 r) ∧ FrameOf [.rHst, .rTb, .rRs, .rPl, .rGn, .rBf, .rCt, .rMp, .freeCount, .evu, .bus, .mbx, .islands, .counters, .tb, .refs, .dpll, .gn, .sw, .ft, .bf, .merges, .releases, .evd, .mp] (taken c s) s1 ∧
      r = okReply ∧ (s1.gnSol (cu c 0 1)).systems = cu c 2 1 ∧ (s1.gnSol (cu c 0 1)).refSys = cu c 3 1 ∧ (s1.gnSol (cu c 0 1)).flags = cu c 4 1 % 8 ∧ (s1.gnSol (cu c 0 1)).elev = cu c 6 1 ∧
      (s1.gnSol (cu c 0 1)).cn0 = cu c 7 1 ∧ (s1.gnSol (cu c 0 1)).aid = cu c 8 1 ∧ (s1.gnSol (cu c 0 1)).holdS = cu c 10 2 ∧ s1.gn.loA = cu c 12 4 ∧ s1.gn.spsA = cu c 16 4 ∧ s1.gn.loB = cu c 20 4 ∧
      s1.gn.spsB = cu c 24 4 ∧ s1.isF Reg.gnStatusAwake = true ∧
      (gnState (cu c 0 1) s = 0 → gnState (cu c 0 1) s1 = 1) ∧ (gnState (cu c 0 1) s ≠ 0 → gnState (cu c 0 1) s1 = gnState (cu c 0 1) s)) ∧
  (∀ (c : Cmd) (s : State), Starts gnEnableSpec c s → cu c 1 1 = 0 → 
    ∃ s1 r, exec (.gnEnable c) s = .next (ended gnEnableSpec c s s1 r) ∧ FrameOf [.rHst, .rTb, .rRs, .rPl, .rGn, .rBf, .rCt, .rMp, .freeCount, .evu, .bus, .mbx, .islands, .counters, .tb, .refs, .dpll, .gn, .sw, .ft, .bf, .merges, .releases, .evd, .mp] (taken c s) s1 ∧
      r = okReply ∧ (s1.gnSol (cu c 0 1)).systems = cu c 2 1 ∧ (s1.gnSol (cu c 0 1)).refSys = cu c 3 1 ∧ (s1.gnSol (cu c 0 1)).flags = cu c 4 1 % 8 ∧ (s1.gnSol (cu c 0 1)).elev = cu c 6 1 ∧
      (s1.gnSol (cu c 0 1)).cn0 = cu c 7 1 ∧ (s1.gnSol (cu c 0 1)).aid = cu c 8 1 ∧ (s1.gnSol (cu c 0 1)).holdS = cu c 10 2 ∧ s1.gn.loA = cu c 12 4 ∧ s1.gn.spsA = cu c 16 4 ∧ s1.gn.loB = cu c 20 4 ∧
      s1.gn.spsB = cu c 24 4 ∧ gnState (cu c 0 1) s1 = 0 ∧ s1.isF (Reg.gnSolStatusSpoof (cu c 0 1)) = false ∧
      (gnState (1 - (cu c 0 1)) s = 0 → s1.awake 52 = false ∧ s1.isF Reg.gnStatusAwake = false)) ∧
  (∀ (c : Cmd) (s : State), Starts (loadSpec 0x0602) c s → 
    ∃ s1 e, exec (.gnLoadAlmanac c) s = .next (stepped (loadSpec 0x0602) c s s1 e) ∧ FrameOf [.rGn, .gn] (begun (loadSpec 0x0602) c s) s1 ∧
      s1.isF Reg.gnStatusLoad = decide (16 < ((loadRecords (c.len + 1) 0 (loadBytes c)).getD []).length) ∧
      (16 < ((loadRecords (c.len + 1) 0 (loadBytes c)).getD []).length → ∃ o, e = .more o ∧ o.work.length = 4 ∧ o.work.getD 0 0 = 16) ∧
      (((loadRecords (c.len + 1) 0 (loadBytes c)).getD []).length ≤ 16 → ∃ r, e = .done r ∧ r.status = stOk)) ∧
  (∀ (c : Cmd) (s : State), Starts (loadSpec 0x0603) c s → 
    ∃ s1 e, exec (.gnLoadEphemeris c) s = .next (stepped (loadSpec 0x0603) c s s1 e) ∧ FrameOf [.rGn, .gn] (begun (loadSpec 0x0603) c s) s1 ∧
      s1.isF Reg.gnStatusLoad = decide (16 < ((loadRecords (c.len + 1) 0 (loadBytes c)).getD []).length) ∧
      (16 < ((loadRecords (c.len + 1) 0 (loadBytes c)).getD []).length → ∃ o, e = .more o ∧ o.work.length = 4 ∧ o.work.getD 0 0 = 16) ∧
      (((loadRecords (c.len + 1) 0 (loadBytes c)).getD []).length ≤ 16 → ∃ r, e = .done r ∧ r.status = stOk)) ∧
  (∀ (c : Cmd) (s : State), Starts gnSetPositionSpec c s → 
    ∃ s1, exec (.gnSetPosition c) s = .next (ended gnSetPositionSpec c s s1 (okReply)) ∧ FrameOf [.rGn, .gn] (taken c s) s1 ∧
      gnHeld s1 = decide (cu c 0 1 = 1) ∧ (cu c 0 1 = 0 → s1.gn.surveyS = cu c 4 4) ∧
      (cu c 0 1 = 1 → s1.gn.x = ci c 8 4 ∧ s1.gn.y = ci c 12 4 ∧ s1.gn.z = ci c 16 4) ∧
      (∀ k, k ≤ 1 → (s1.gnSol k).command = decide (gnState k s ≠ 0) ∧ (s1.gnSol k).fixes = 0 ∧ (s1.gnSol k).surveyed = 0)) ∧
  (∀ (c : Cmd) (s : State), Starts gnSetAntennaDelaySpec c s → 
    ∃ s1, exec (.gnSetAntennaDelay c) s = .next (ended gnSetAntennaDelaySpec c s s1 (okReply)) ∧ FrameOf [.gn] (taken c s) s1 ∧
      s1.gn = { s.gn with delayA := (if cbit c 0 0 then cu c 4 8 else s.gn.delayA), delayB := (if cbit c 0 1 then cu c 12 8 else s.gn.delayB), unc := cu c 2 2 } ∧
      s1.regs = (taken c s).regs) ∧
  (∀ (c : Cmd) (s : State), Starts gnStatusSpec c s → 
    ∃ s1, exec (.gnStatus c) s = .next (ended gnStatusSpec c s s1 (okBuf [(32, le 4 (s.regWord (0x140100 + (cu c 0 1) * 0x100))),
        (36, le 2 (match (s.gnSol (cu c 0 1)).spoofUntil with | some t => sat 0xFFFF ((t - s.dtt + 781249999) / 781250000) | none => 0)),
        (40, ((List.range 4).map (fun q => leI 4 ((s.gnSol (cu c 0 1)).iso.getD q (if q = (s.gnSol (cu c 0 1)).refSys then 0 else -(2 ^ 31))))).flatten),
        (56, le 4 (s.getF (Reg.gnSolSigma (cu c 0 1)))), (60, leI 4 (divRound (delayIf (s.gnSol (cu c 0 1)).refSys s * 1000) 65536))] (if c.bufSize = 0 then [] else channelRecords s))) ∧ FrameOf [] (taken c s) s1 ∧
      s1 = taken c s)

/-- Epochs, sample ports, surveys and their timers act as the rules say. What the GNSS receiver does at its events. -/
def Obligations.GnssReceiverRuns : Prop :=
  (∀ (sol : Nat) (o : GnEpoch) (s : State), sol < 2 → gnState sol s ≠ 0 → s.awake 52 = true → s.dtt * (s.gnSol sol).rate % 781250000 = 0 → 
    ∃ t, exec (.gnssEpoch sol o) s = .next t ∧ FrameOf [.rHst, .rTb, .rRs, .rPl, .rGn, .rBf, .rCt, .rMp, .freeCount, .evu, .bus, .mbx, .counters, .tb, .refs, .dpll, .gn, .sw, .ft, .bf, .merges, .releases, .evd, .mp] s t ∧
      t.gn.view = channelView o.sats s ∧ (t.gnSol sol).command = false ∧ (gnState sol t = 3 → gnHeld t = true) ∧ (o.fixes = [] → gnState sol t ≠ 3) ∧
      ((s.gnSol sol).command = true → gnState sol t = 4)) ∧
  (∀ (sol : Nat) (o : GnEpoch) (s : State), 2 ≤ sol ∨ gnState sol s = 0 ∨ s.awake 52 = false ∨ s.dtt * (s.gnSol sol).rate % 781250000 ≠ 0 → 
    exec (.gnssEpoch sol o) s = .next s) ∧
  (∀ (sol n : Nat) (s : State), sol < 2 → (s.gnSol sol).rateNext = some n → s.dtt % 781250000 = 0 → 
    ∃ t, exec (.gnRateChange sol) s = .next t ∧ FrameOf [.rPl, .refs, .gn] s t ∧
      (t.gnSol sol).rate = n ∧ (t.gnSol sol).rateNext = none ∧ (t.cand (6 + sol)).nomFreq = 1000 * n) ∧
  (∀ (sol : Nat) (s : State), 2 ≤ sol ∨ (s.gnSol sol).rateNext = none ∨ s.dtt % 781250000 ≠ 0 → 
    exec (.gnRateChange sol) s = .next s) ∧
  (∀ (port : Nat) (off : Int) (s : State), portUsed port s = true → s.isF (Reg.gnPortOk port) = true → 
    ∃ t, exec (.gnPortLoss port off) s = .next t ∧ FrameOf [.rHst, .rGn, .evu, .bus] s t ∧
      t.isF (Reg.gnPortOk port) = false ∧ t.getI (Reg.gnPortClkOff port) = sext 16 (twos 16 off) ∧ gnLost port t = true) ∧
  (∀ (port : Nat) (off : Int) (s : State), portUsed port s = false ∨ s.isF (Reg.gnPortOk port) = false → 
    exec (.gnPortLoss port off) s = .next s) ∧
  (∀ (port : Nat) (off : Int) (s : State), portUsed port s = true → s.isF (Reg.gnPortOk port) = false → off.natAbs ≤ 10000 → 
    ∃ t, exec (.gnPortReturn port off) s = .next t ∧ FrameOf [.rHst, .rGn, .evu, .bus] s t ∧
      t.isF (Reg.gnPortOk port) = true ∧ t.getI (Reg.gnPortClkOff port) = off ∧ gnLost port t = false) ∧
  (∀ (port : Nat) (off : Int) (s : State), portUsed port s = false ∨ s.isF (Reg.gnPortOk port) = true ∨ 10000 < off.natAbs → 
    exec (.gnPortReturn port off) s = .next s) ∧
  (∀ (port mag total : Nat) (s : State), portUsed port s = true → s.isF (Reg.gnPortOk port) = true → 0 < total → mag ≤ total → 
    ∃ t, exec (.gnMagCheck port mag total) s = .next t ∧ FrameOf [.rHst, .rGn, .evu, .bus] s t ∧
      t.getF (Reg.gnPortMagPct port) = 100 * mag / total ∧ t.isF (Reg.gnPortOk port) = true ∧
      (25 * total ≤ 100 * mag → 100 * mag ≤ 40 * total → t = s.setF (Reg.gnPortMagPct port) (100 * mag / total))) ∧
  (∀ (port mag total : Nat) (s : State), portUsed port s = false ∨ s.isF (Reg.gnPortOk port) = false ∨ total = 0 ∨ total < mag → 
    exec (.gnMagCheck port mag total) s = .next s) ∧
  (∀ (sol : Nat) (s : State), sol < 2 → gnHeld s = false → 2 ≤ gnState sol s → 0 < (s.gnSol sol).fixes → s.gn.surveyS * 781250000 ≤ (s.gnSol sol).surveyed → 
    ∃ t, exec (.surveyDone sol) s = .next t ∧ FrameOf [.rHst, .rTb, .rRs, .rPl, .rGn, .rBf, .rCt, .rMp, .freeCount, .evu, .bus, .mbx, .counters, .tb, .refs, .dpll, .gn, .sw, .ft, .bf, .merges, .releases, .evd, .mp] s t ∧
      gnHeld t = true ∧ (∀ k, k ≤ 1 → gnState k t = (if gnState k s = 2 then 3 else gnState k s)) ∧ t.gn.x = divRound (s.gnSol sol).sumX (s.gnSol sol).fixes ∧ t.gn.y = divRound (s.gnSol sol).sumY (s.gnSol sol).fixes ∧
      t.gn.z = divRound (s.gnSol sol).sumZ (s.gnSol sol).fixes) ∧
  (∀ (sol : Nat) (s : State), 2 ≤ sol ∨ gnHeld s = true ∨ gnState sol s < 2 ∨ (s.gnSol sol).fixes = 0 ∨ (s.gnSol sol).surveyed < s.gn.surveyS * 781250000 → 
    exec (.surveyDone sol) s = .next s) ∧
  (∀ (sol x : Nat) (s : State), sol < 2 → (s.gnSol sol).spoofUntil = some x → x ≤ s.dtt → 
    ∃ t, exec (.spoofHoldExpiry sol) s = .next t ∧ FrameOf [.rHst, .rGn, .evu, .bus, .gn] s t ∧
      t.isF (Reg.gnSolStatusSpoof sol) = false ∧ (t.gnSol sol).spoofUntil = none) ∧
  (∀ (sol : Nat) (s : State), 2 ≤ sol ∨ (∀ x, (s.gnSol sol).spoofUntil = some x → s.dtt < x) → 
    exec (.spoofHoldExpiry sol) s = .next s) ∧
  (∀ (sol : Nat) (s : State), sol < 2 → 2 ≤ gnState sol s → (s.gnSol sol).lastSat + 7812500000 ≤ s.dtt → 
    ∃ t, exec (.gnNoSatTimeout sol) s = .next t ∧ FrameOf [.rHst, .rTb, .rRs, .rPl, .rGn, .rBf, .rCt, .rMp, .freeCount, .evu, .bus, .mbx, .counters, .tb, .refs, .dpll, .gn, .sw, .ft, .bf, .merges, .releases, .evd, .mp] s t ∧
      gnState sol t = 1 ∧ t.getF (Reg.gnSolStatusCause sol) = 1 ∧ (gnState sol s = 3 → candState (6 + sol) s ≠ 7 → candState (6 + sol) t = 0)) ∧
  (∀ (sol : Nat) (s : State), 2 ≤ sol ∨ gnState sol s < 2 ∨ s.dtt < (s.gnSol sol).lastSat + 7812500000 → 
    exec (.gnNoSatTimeout sol) s = .next s)

/-- EM_INPUT_CONFIG, EM_INTERVAL, EM_FREQUENCY and EM_SELF_AUDIT complete with their effects. The commands of group 0x07 complete with their
effects and frames. -/
def Obligations.EventInputCommandsComplete : Prop :=
  (∀ (c : Cmd) (s : State), Starts emInputConfigSpec c s → (cbit c 1 0 = true → s.awake (53 + cu c 0 1) = true) → 
    ∃ s1 r, exec (.emInputConfig c) s = .next (ended emInputConfigSpec c s s1 r) ∧ FrameOf [.rHst, .rEm, .rCal, .freeCount, .evu, .rings, .bus, .islands, .em, .cal] (taken c s) s1 ∧
      r = okReply ∧ (s1.input (cu c 0 1)).pre = cu c 2 2 ∧ (s1.input (cu c 0 1)).edge = cu c 1 1 / 4 % 4 ∧ (s1.input (cu c 0 1)).storeN = cu c 4 4 ∧
      (s1.input (cu c 0 1)).corr = ci c 24 8 ∧ (s1.input (cu c 0 1)).edges = 0 ∧ (s1.input (cu c 0 1)).missed = 0 ∧ (s1.input (cu c 0 1)).gate = none ∧
      s1.isF (Reg.emStatusEn (cu c 0 1)) = cbit c 1 0) ∧
  (∀ (c : Cmd) (s : State), Starts emInputConfigSpec c s → cbit c 1 0 = true → s.awake (53 + cu c 0 1) = false → 
    ∃ s1, exec (.emInputConfig c) s = .next (heldBack emInputConfigSpec c s s1) ∧ FrameOf [.rHst, .rEm, .rCal, .freeCount, .evu, .rings, .bus, .islands, .em, .cal] (taken c s) s1 ∧
      s1 = taken c s) ∧
  (∀ (c : Cmd) (s : State), Starts emIntervalSpec c s → 
    ∃ s1, exec (.emInterval c) s = .next (ended emIntervalSpec c s s1 (okReply)) ∧ FrameOf [.rEm, .em] (taken c s) s1 ∧
      s1.pair (cu c 0 1) = ⟨cbit c 3 0, cu c 1 1, cu c 2 1, cbit c 3 1, cu c 4 4, none, none⟩ ∧ (cbit c 3 0 = true → s1.isF (Reg.emStatusStop (cu c 2 1)) = true)) ∧
  (∀ (c : Cmd) (s : State), Starts emFrequencySpec c s → 
    ∃ s1 r, exec (.emFrequency c) s = .next (ended emFrequencySpec c s s1 r) ∧ FrameOf [.em] (taken c s) s1 ∧
      s1 = (taken c s).setInput (cu c 0 1) { s.input (cu c 0 1) with gate := some ⟨startStamp c s + 64, startStamp c s + 64 + cu c 4 4 * 781250, calHolds (64 + cu c 0 1) s, 0, 0, 0, 0, 0, 0, 0, 0⟩ } ∧
      r = ⟨stDeferred, 0, resultOf [(32, le 8 (startStamp c s + 64))], []⟩) ∧
  (∀ (c : Cmd) (s : State), Starts emSelfAuditSpec c s → 
    ∃ s1 e, exec (.emSelfAudit c) s = .next (stepped emSelfAuditSpec c s s1 e) ∧ FrameOf [.rHst, .evu, .bus] (begun emSelfAuditSpec c s) s1 ∧
      s1 = begun emSelfAuditSpec c s ∧ e = .more { firstRecord emSelfAuditSpec c s with estimate := (auditOuts c).length })

/-- Edges on an event input are counted, stamped or missed, rings take entries, gates open and close. Edges, rings and gates of the event
inputs (R378, R380 to R384, R388). -/
def Obligations.EdgesAreStamped : Prop :=
  (∀ (input : Nat) (falling : Bool) (tick phase code : Nat) (s : State), 8 ≤ input ∨ s.isF (Reg.emStatusEn input) = false ∨ s.awake (53 + input) = false ∨ 8 ≤ phase ∨ 40 ≤ code → 
    exec (.evtinEdge input falling tick phase code) s = .next s) ∧
  (∀ (input : Nat) (falling : Bool) (tick phase code : Nat) (s : State), input < 8 → s.isF (Reg.emStatusEn input) = true → s.awake (53 + input) = true → phase < 8 → code < 40 → bit (s.input input).edge (b2n falling) = false → 
    exec (.evtinEdge input falling tick phase code) s = .next (missSecond input s)) ∧
  (∀ (input : Nat) (falling : Bool) (tick phase code : Nat) (s : State), input < 8 → s.isF (Reg.emStatusEn input) = true → s.awake (53 + input) = true → phase < 8 → code < 40 → bit (s.input input).edge (b2n falling) = true → ((s.input input).edges + 1) % (s.input input).pre ≠ 0 → 
    exec (.evtinEdge input falling tick phase code) s = .next ((missSecond input s).setInput input { (missSecond input s).input input with edges := (s.input input).edges + 1 })) ∧
  (∀ (input : Nat) (falling : Bool) (tick phase code : Nat) (s : State), input < 8 → s.isF (Reg.emStatusEn input) = true → s.awake (53 + input) = true → phase < 8 → code < 40 → bit (s.input input).edge (b2n falling) = true → ((s.input input).edges + 1) % (s.input input).pre = 0 → (s.input input).last.all (fun l => decide (4 * 2 ^ 24 ≤ edgeTime input tick phase code s - l)) = true → calHolds (64 + input) s = false → 
    ∃ t, exec (.evtinEdge input falling tick phase code) s = .next t ∧ FrameOf [.rHst, .rEm, .evu, .bus, .em] s t ∧
      (t.input input).edges = (s.input input).edges + 1 ∧ (t.input input).last = some (edgeTime input tick phase code s) ∧ (t.input input).missed = 0 ∧
      (t.input input).stored = (if (s.input input).storeN ≠ 0 ∧ (s.input input).storeN ≤ (s.input input).stored + 1 then 0 else (s.input input).stored + 1) ∧
      t.get64 (Reg.emMissed input) = s.get64 (Reg.emMissed input)) ∧
  (∀ (input : Nat) (falling : Bool) (tick phase code : Nat) (s : State), input < 8 → s.isF (Reg.emStatusEn input) = true → s.awake (53 + input) = true → phase < 8 → code < 40 → bit (s.input input).edge (b2n falling) = true → ((s.input input).edges + 1) % (s.input input).pre = 0 → (s.input input).last.all (fun l => decide (4 * 2 ^ 24 ≤ edgeTime input tick phase code s - l)) = false ∨ calHolds (64 + input) s = true → 
    ∃ t, exec (.evtinEdge input falling tick phase code) s = .next t ∧ FrameOf [.rHst, .rEm, .evu, .bus, .em] s t ∧
      t.get64 (Reg.emMissed input) = (s.get64 (Reg.emMissed input) + 1) % 2 ^ 64 ∧ (t.input input).missed = (s.input input).missed + 1 ∧
      (t.input input).last = (s.input input).last ∧ (t.input input).edges = (s.input input).edges + 1 ∧ (t.input input).entries = (s.input input).entries ∧
      ((s.input input).missSec = s.dtt / 781250000 → FieldsOf (pair (Reg.emMissed input)) s t)) ∧
  (∀ (input : Nat) (s : State), 8 ≤ input ∨ s.isF (Reg.emStatusRing input) = false ∨ (s.input input).entries = [] ∨ 8 * s.dtt < s.em.movedTo → 
    exec (.emRingMove input) s = .next s) ∧
  (∀ (input : Nat) (s : State), input < 8 → s.isF (Reg.emStatusRing input) = true → 
    ∃ t, exec (.emRingMove input) s = .next t ∧ FrameOf [.rEm, .hostMem, .rings, .bus, .em] s t ∧
      ∃ j, j ≤ (8 * s.dtt - s.em.movedTo) / 125 + 1 ∧ (t.input input).entries = (s.input input).entries.drop j) ∧
  (∀ (input : Nat) (b : Bytes) (s : State), input < 8 → s.isF (Reg.emStatusRing input) = true → (s.input input).entries = [b] → emRingRoom input s = true → s.em.movedTo ≤ 8 * s.dtt → 
    ∃ t, exec (.emRingMove input) s = .next t ∧ FrameOf [.rEm, .hostMem, .rings, .bus, .em] s t ∧
      (t.input input).entries = [] ∧ t.getF (Reg.emRProdIndex input) = (s.getF (Reg.emRProdIndex input) + 1) % emRingSize input s % 2 ^ 16) ∧
  (∀ (input : Nat) (s : State), input < 8 → s.isF (Reg.emStatusRing input) = true → emRingRoom input s = false → 
    ∃ t, exec (.emRingMove input) s = .next t ∧ FrameOf [.rEm, .hostMem, .rings, .bus, .em] s t ∧
      t = { s with em := { s.em with movedTo := t.em.movedTo } }) ∧
  (∀ (input : Nat) (g : EmGate) (s : State), input < 8 → (s.input input).gate = some g → g.opens ≤ s.dtt → 
    ∃ t, exec (.emGateOpen input) s = .next t ∧ FrameOf [.rEm] s t ∧
      t = s.setF (Reg.emStatusGate input) 1) ∧
  (∀ (input : Nat) (s : State), 8 ≤ input ∨ (∀ g, (s.input input).gate = some g → s.dtt < g.opens) → 
    exec (.emGateOpen input) s = .next s) ∧
  (∀ (input : Nat) (g : EmGate) (s : State), input < 8 → (s.input input).gate = some g → g.closes ≤ s.dtt → 
    ∃ t, exec (.emGateClose input) s = .next t ∧ FrameOf [.rHst, .rEm, .freeCount, .evu, .bus, .em] s t ∧
      (t.input input).gate = none ∧ t.getF (Reg.emStatusGate input) = 0 ∧ t.getF (Reg.emFqInfoN input) = sat (2 ^ 24 - 1) g.n ∧ t.isF (Reg.emFqInfoInvalid input) = (g.bad || !s.innerLocked || decide (g.n < 3))) ∧
  (∀ (input : Nat) (s : State), 8 ≤ input ∨ (∀ g, (s.input input).gate = some g → s.dtt < g.closes) → 
    exec (.emGateClose input) s = .next s)

/-- The commands of group 0x09 complete with their effects. The commands of group 0x09 complete with their effects and frames. -/
def Obligations.SwitchCommandsComplete : Prop :=
  (∀ (c : Cmd) (s : State), Starts swPortForwardSpec c s → ¬ ((cu c 0 1) < 48 ∧ cu c 1 1 % 4 ≠ 0 ∧ s.awake (halfOf (cu c 0 1)) = false) → 
    ∃ s1 r, exec (.swPortForward c) s = .next (ended swPortForwardSpec c s s1 r) ∧ FrameOf [.rHst, .rSw, .rFm, .evu, .bus, .islands, .sw, .merges] (taken c s) s1 ∧
      r = okReply ∧ s1.isF (Reg.swPortStatusL23Rx (cu c 0 1)) = cbit c 1 0 ∧ s1.isF (Reg.swPortStatusL23Tx (cu c 0 1)) = cbit c 1 1 ∧ s1.isF (Reg.swPortStatusCt (cu c 0 1)) = cbit c 1 2 ∧
      s1.isF (Reg.swPortStatusPtpTrap (cu c 0 1)) = cbit c 1 3 ∧ s1.isF (Reg.swPortStatusL3 (cu c 0 1)) = cbit c 1 4 ∧ s1.getF (Reg.swPortStatusPvid (cu c 0 1)) = cu c 4 2 % 4096 ∧
      s1.getF (Reg.swPortStatusAccept (cu c 0 1)) = cu c 6 1 ∧ (s1.swPort (cu c 0 1)).maxFrame = cu c 2 2 ∧ (s1.swPort (cu c 0 1)).pcp = cu c 4 2 / 4096 % 8 ∧
      (s1.swPort (cu c 0 1)).filter = cbit c 7 0 ∧ (s1.swPort (cu c 0 1)).sTag = cbit c 7 1) ∧
  (∀ (c : Cmd) (s : State), Starts swPortForwardSpec c s → (cu c 0 1) < 48 → cu c 1 1 % 4 ≠ 0 → s.awake (halfOf (cu c 0 1)) = false → 
    ∃ s1, exec (.swPortForward c) s = .next (heldBack swPortForwardSpec c s s1) ∧ FrameOf [.rHst, .rSw, .rFm, .evu, .bus, .islands, .sw, .merges] (taken c s) s1 ∧
      s1 = taken c s) ∧
  (∀ (c : Cmd) (s : State), Starts swSetVlanSpec c s → 
    ∃ s1, exec (.swSetVlan c) s = .next (ended swSetVlanSpec c s s1 (okReply)) ∧ FrameOf [.sw] (taken c s) s1 ∧
      s1.vlan (cu c 0 2) = (if cbit c 2 0 then ⟨cu c 2 1, cu c 4 7, cu c 12 7, ofBe (slice c.payload 20 6)⟩ else ⟨0, 0, 0, 0⟩) ∧
      s1.regs = (taken c s).regs ∧ ∀ v, v ≠ cu c 0 2 → s1.vlan v = s.vlan v) ∧
  (∀ (c : Cmd) (s : State), Starts swSetLagSpec c s → 
    ∃ s1, exec (.swSetLag c) s = .next (ended swSetLagSpec c s s1 (okReply)) ∧ FrameOf [.rSw, .sw] (taken c s) s1 ∧
      s1.lag (cu c 0 1) = (if cbit c 1 0 then some ⟨cu c 2 2, cu c 4 6, (List.range 64).map (fun e => cu c (16 + e) 1)⟩ else none) ∧
      (∀ k, k ≠ (cu c 0 1) → s1.lag k = s.lag k) ∧ (cbit c 1 0 = true → ∀ k, k < 48 → bit (cu c 4 6) k = true → s1.isF (Reg.swPortStatusLag k) = true)) ∧
  (∀ (c : Cmd) (s : State), Starts swRuleWriteSpec c s → 
    ∃ s1, exec (.swRuleWrite c) s = .next (ended swRuleWriteSpec c s s1 (okReply)) ∧ FrameOf [.rMp, .sw, .mp] (taken c s) s1 ∧
      spGet none s1.sw.rules (cu c 0 2) =
        (if cbit c 2 0 then some ⟨slice c.payload 8 40, slice c.payload 48 40, cu c 88 1, cu c 89 1, cu c 90 1, cu c 91 1, cu c 92 1, cu c 93 1⟩ else none) ∧
      ∀ k, k ≠ cu c 0 2 → spGet none s1.sw.rules k = spGet none s.sw.rules k) ∧
  (∀ (c : Cmd) (s : State), Starts swDirectConnectSpec c s → (members (cu c 4 6) 48).all (fun b => portEnabled b s) = true → 
    ∃ s1 r, exec (.swDirectConnect c) s = .next (ended swDirectConnectSpec c s s1 r) ∧ FrameOf [.rHst, .rGd, .rSds, .rSw, .rBf, .rEr, .rCt, .rMp, .freeCount, .evu, .bus, .mbx, .counters, .lanes, .refs, .sw, .ft, .bf, .merges, .releases, .evd, .mp] (taken c s) s1 ∧
      s1.isF (Reg.swDpStatusConn (cu c 0 1)) = true ∧ s1.getF (Reg.swDpStatusMode (cu c 0 1)) = cu c 1 1 ∧ dpOutputs (cu c 0 1) s1 = cu c 4 6 ∧ s1.isF (Reg.swPortStatusDpRx (cu c 0 1)) = true ∧
      (∃ x, x < 39063 ∧ r = okWith [(32, le 8 (s.dtt + x))]) ∧ (∀ b, b < 48 → bit (cu c 4 6) b = true → s1.isF (Reg.swPortStatusDpTx b) = true)) ∧
  (∀ (c : Cmd) (s : State), Starts swDirectConnectSpec c s → (members (cu c 4 6) 48).any (fun b => !portEnabled b s) = true → 
    ∃ s1 r, exec (.swDirectConnect c) s = .next (ended swDirectConnectSpec c s s1 r) ∧ FrameOf [.rHst, .rGd, .rSds, .rSw, .rBf, .rEr, .rCt, .rMp, .freeCount, .evu, .bus, .mbx, .counters, .lanes, .refs, .sw, .ft, .bf, .merges, .releases, .evd, .mp] (taken c s) s1 ∧
      r = failWith stLocked 0 ∧ (∃ b, portEnabled b s = false ∧ bit (cu c 4 6) b = true ∧ s1 = portDenied b (taken c s))) ∧
  (∀ (c : Cmd) (s : State), Starts swDirectDisconnectSpec c s → 
    ∃ s1, exec (.swDirectDisconnect c) s = .next (ended swDirectDisconnectSpec c s s1 (okReply)) ∧ FrameOf [.rSw] (taken c s) s1 ∧
      s1.isF (Reg.swDpStatusConn (cu c 0 1)) = false ∧ s1.isF (Reg.swPortStatusDpRx (cu c 0 1)) = false ∧ dpOutputs (cu c 0 1) s1 = 0 ∧ s1.isF (Reg.swDpStatusInLock (cu c 0 1)) = false ∧
      (∀ b, b < 48 → bit (dpOutputs (cu c 0 1) s) b = true → s1.isF (Reg.swPortStatusDpTx b) = false))

/-- Frames are received, picked and sent, and a direct-path slip is counted. What the pipeline and the direct path do with a frame. -/
def Obligations.FramesPassThePipeline : Prop :=
  (∀ (src len : Nat) (head : Bytes) (bad : Bool) (m : EdgeMeas) (outs : List EdgeMeas) (s : State), spGet none s.sw.rx src = none → 64 ≤ head.length → head.length ≤ len → receives src m s = true → ¬(src < 48 ∧ s.isF (Reg.swPortStatusDpRx src) = true) ∨ (directOuts src outs s).isSome = true → 
    ∃ t, exec (.frameRx src len head bad m outs) s = .next t ∧ FrameOf [.rHst, .rFt, .rBf, .rFm, .rEr, .rCap, .rCt, .rMp, .hostMem, .freeCount, .evu, .rings, .bus, .mbx, .counters, .tb, .refs, .sw, .ft, .bf, .merges, .releases, .evd, .netRings, .mp] s t ∧
      ∃ x, spGet none t.sw.rx src = some x ∧ x.dp = (decide (src < 48) && s.isF (Reg.swPortStatusDpRx src)) ∧ x.fecBad = bad ∧ x.slipped = false ∧ x.frame.src = src ∧
      x.frame.tIn = (if src < 48 then rxStamp src m s else s.now80) ∧ (x.dp = true → x.pool = none ∧ x.merge = none ∧ x.release = none ∧ directOuts src outs s = some x.outs)) ∧
  (∀ (src len : Nat) (head : Bytes) (bad : Bool) (m : EdgeMeas) (outs : List EdgeMeas) (s : State), spGet none s.sw.rx src = none → 64 ≤ head.length → head.length ≤ len → receives src m s = true → (src < 48 ∧ s.isF (Reg.swPortStatusDpRx src) = true) → directOuts src outs s = none → 
    exec (.frameRx src len head bad m outs) s = .next s) ∧
  (∀ (src len : Nat) (head : Bytes) (bad : Bool) (m : EdgeMeas) (outs : List EdgeMeas) (s : State), spGet none s.sw.rx src = none → 64 ≤ head.length → head.length ≤ len → receives src m s = false → src < 48 ∧ (s.lane src).relocking = true ∧ s.linkUp src = false → 
    exec (.frameRx src len head bad m outs) s = .next (count (srcCtr src 5) 1 s)) ∧
  (∀ (src len : Nat) (head : Bytes) (bad : Bool) (m : EdgeMeas) (outs : List EdgeMeas) (s : State), (spGet none s.sw.rx src).isSome = true ∨ head.length < 64 ∨ len < head.length ∨ (receives src m s = false ∧ ¬(src < 48 ∧ (s.lane src).relocking = true ∧ s.linkUp src = false)) → 
    exec (.frameRx src len head bad m outs) s = .next s) ∧
  (∀ (src : Nat) (rest : Bytes) (fault : Bool) (m : EdgeMeas) (outs : List EdgeMeas) (x : RxFrame) (s : State), spGet none s.sw.rx src = some x → 
    ∃ t, exec (.frameEnd src rest fault m outs) s = .next t ∧ FrameOf [.rHst, .rPts, .rBf, .rFm, .rEr, .rCap, .rCt, .rMp, .hostMem, .freeCount, .evu, .rings, .bus, .mbx, .counters, .tb, .fifos, .tt, .refs, .sw, .ft, .bf, .merges, .releases, .evd, .netRings, .selectors, .ctSeen, .mp, .lanes] s t ∧
      spGet none t.sw.rx src = none) ∧
  (∀ (src k : Nat) (rest : Bytes) (fault : Bool) (m : EdgeMeas) (outs : List EdgeMeas) (x : RxFrame) (f : Frame) (s : State), spGet none s.sw.rx src = some x → x.dp = false → x.claimed = false → x.pool = some k → s.poolFrame k = some f → x.fecBad = false → fault = false → fcsGood (x.frame.data ++ rest) = true → (x.frame.data ++ rest).length ≤ (s.swPort src).maxFrame → 
    ∃ t, exec (.frameEnd src rest fault m outs) s = .next t ∧ FrameOf [.rHst, .rPts, .rBf, .rFm, .rEr, .rCap, .rCt, .rMp, .hostMem, .freeCount, .evu, .rings, .bus, .mbx, .counters, .tb, .fifos, .tt, .refs, .sw, .ft, .bf, .merges, .releases, .evd, .netRings, .selectors, .ctSeen, .mp, .lanes] s t ∧
      spGet none t.sw.rx src = none ∧ ∃ y, t.poolFrame k = some y ∧ y.whole = true ∧ y.data = x.frame.data ++ rest) ∧
  (∀ (src : Nat) (rest : Bytes) (fault : Bool) (m : EdgeMeas) (outs : List EdgeMeas) (x : RxFrame) (s : State), spGet none s.sw.rx src = some x → x.dp = false → x.claimed = true → x.fecBad = false → fault = false → fcsGood (x.frame.data ++ rest) = true → (x.frame.data ++ rest).length ≤ (s.swPort src).maxFrame → 
    ∃ t, exec (.frameEnd src rest fault m outs) s = .next t ∧ FrameOf [.rHst, .rPts, .rBf, .rFm, .rEr, .rCap, .rCt, .rMp, .hostMem, .freeCount, .evu, .rings, .bus, .mbx, .counters, .tb, .fifos, .tt, .refs, .sw, .ft, .bf, .merges, .releases, .evd, .netRings, .selectors, .ctSeen, .mp, .lanes] s t ∧
      spGet none t.sw.rx src = none ∧ t.tt.inbox = (claimEnd x (x.frame.data ++ rest) s).tt.inbox) ∧
  (∀ (src : Nat) (rest : Bytes) (fault : Bool) (m : EdgeMeas) (outs : List EdgeMeas) (x : RxFrame) (s : State), spGet none s.sw.rx src = some x → x.dp = false → x.claimed = true → x.fecBad = true ∨ fault = true ∨ fcsGood (x.frame.data ++ rest) = false ∨ (s.swPort src).maxFrame < (x.frame.data ++ rest).length → 
    ∃ t, exec (.frameEnd src rest fault m outs) s = .next t ∧ FrameOf [.rHst, .rPts, .rBf, .rFm, .rEr, .rCap, .rCt, .rMp, .hostMem, .freeCount, .evu, .rings, .bus, .mbx, .counters, .tb, .fifos, .tt, .refs, .sw, .ft, .bf, .merges, .releases, .evd, .netRings, .selectors, .ctSeen, .mp, .lanes] s t ∧
      spGet none t.sw.rx src = none ∧ t.tt.inbox = s.tt.inbox) ∧
  (∀ (src : Nat) (rest : Bytes) (fault : Bool) (m : EdgeMeas) (outs : List EdgeMeas) (x : RxFrame) (s : State), spGet none s.sw.rx src = some x → x.dp = true → x.slipped = false → 
    ∃ t, exec (.frameEnd src rest fault m outs) s = .next t ∧ FrameOf [.rHst, .rPts, .rBf, .rFm, .rEr, .rCap, .rCt, .rMp, .hostMem, .freeCount, .evu, .rings, .bus, .mbx, .counters, .tb, .fifos, .tt, .refs, .sw, .ft, .bf, .merges, .releases, .evd, .netRings, .selectors, .ctSeen, .mp, .lanes] s t ∧
      spGet none t.sw.rx src = none ∧ ((∀ o ∈ x.outs, NoInjection o.1 s) → ∀ o ∈ x.outs, spGet [] t.sw.sent o.1 = (if fault then stompBytes (x.frame.data ++ rest) else x.frame.data ++ rest))) ∧
  (∀ (src : Nat) (rest : Bytes) (fault : Bool) (m : EdgeMeas) (outs : List EdgeMeas) (s : State), spGet none s.sw.rx src = none → src < 48 → receives src m s = true → rest ≠ [] → rest.length < 64 → s.isF (Reg.swPortStatusDpRx src) = false → s.getF (Reg.ptsCfgRxSel src) ≠ 3 → 
    exec (.frameEnd src rest fault m outs) s = .next (count (srcCtr src 6) 1 s)) ∧
  (∀ (src : Nat) (rest : Bytes) (fault : Bool) (m : EdgeMeas) (outs : List EdgeMeas) (s : State), spGet none s.sw.rx src = none → src < 48 → receives src m s = true → rest ≠ [] → rest.length < 64 → s.isF (Reg.swPortStatusDpRx src) = false → s.getF (Reg.ptsCfgRxSel src) = 3 → 
    ∃ t, exec (.frameEnd src rest fault m outs) s = .next t ∧ FrameOf [.rHst, .rPts, .rBf, .rFm, .rEr, .rCap, .rCt, .rMp, .hostMem, .freeCount, .evu, .rings, .bus, .mbx, .counters, .tb, .fifos, .tt, .refs, .sw, .ft, .bf, .merges, .releases, .evd, .netRings, .selectors, .ctSeen, .mp, .lanes] s t ∧
      t = runtEnd src rest fault m outs s ∧ t.sw.rx = s.sw.rx) ∧
  (∀ (src : Nat) (rest : Bytes) (fault : Bool) (m : EdgeMeas) (outs : List EdgeMeas) (s : State), spGet none s.sw.rx src = none → src < 48 → receives src m s = true → rest ≠ [] → rest.length < 64 → s.isF (Reg.swPortStatusDpRx src) = true → 
    exec (.frameEnd src rest fault m outs) s = .next (runtEnd src rest fault m outs s)) ∧
  (∀ (src : Nat) (rest : Bytes) (fault : Bool) (m : EdgeMeas) (outs : List EdgeMeas) (s : State), spGet none s.sw.rx src = none → 48 ≤ src ∨ receives src m s = false ∨ rest = [] ∨ 64 ≤ rest.length → 
    exec (.frameEnd src rest fault m outs) s = .next s) ∧
  (∀ (egress q : Nat) (m : EdgeMeas) (c : Copy) (l : List Copy) (f : Frame) (s : State), CanBegin egress m s → mergeOf egress s = none → (pickQueue egress s).1 = some q → ((pickQueue egress s).2.bq (egress * 8 + q)).copies = c :: l → (pickQueue egress s).2.poolFrame c.frame = some f → f.broken = false → s.mp.errs = [] → 
    ∃ t, exec (.egressPick egress m) s = .next t ∧ FrameOf [.rHst, .rBf, .rFm, .rCt, .rMp, .freeCount, .evu, .bus, .mbx, .counters, .tb, .refs, .sw, .ft, .bf, .merges, .releases, .evd, .mp] s t ∧
      ∃ x, spGet none t.sw.tx egress = some x ∧ x.kind = 0 ∧ x.copy = c ∧ x.queue = q ∧ x.frame = f ∧ x.start = s.dtt ∧ x.pred = (predicted egress m s).1 ∧ x.inv = (predicted egress m s).2 ∧ x.qc = s.qc s.served) ∧
  (∀ (egress : Nat) (m : EdgeMeas) (s : State), CanBegin egress m s → mergeOf egress s = none → (pickQueue egress s).1 = none → 
    exec (.egressPick egress m) s = .next (pickQueue egress s).2) ∧
  (∀ (egress g : Nat) (m : EdgeMeas) (h : HeldFrame) (s : State), CanBegin egress m s → mergeOf egress s = some g → (fmUnpoisoned 4096 g s).1 = some h → fitsBefore egress (h.frame.data.length + 36) (fmUnpoisoned 4096 g s).2 = true → 
    ∃ t, exec (.egressPick egress m) s = .next t ∧ FrameOf [.rHst, .rBf, .rFm, .rCt, .rMp, .freeCount, .evu, .bus, .mbx, .counters, .tb, .refs, .sw, .ft, .bf, .merges, .releases, .evd, .mp] s t ∧
      spGet none t.sw.tx egress = some (fmBegin g h (predicted egress m s) (fmUnpoisoned 4096 g s).2).1) ∧
  (∀ (egress g : Nat) (m : EdgeMeas) (h : HeldFrame) (s : State), CanBegin egress m s → mergeOf egress s = some g → (fmUnpoisoned 4096 g s).1 = some h → fitsBefore egress (h.frame.data.length + 36) (fmUnpoisoned 4096 g s).2 = false → 
    exec (.egressPick egress m) s = .next (fmUnpoisoned 4096 g s).2) ∧
  (∀ (egress : Nat) (m : EdgeMeas) (s : State), CanBegin egress m s → 
    ∃ t, exec (.egressPick egress m) s = .next t ∧ FrameOf [.rHst, .rBf, .rFm, .rCt, .rMp, .freeCount, .evu, .bus, .mbx, .counters, .tb, .refs, .sw, .ft, .bf, .merges, .releases, .evd, .mp] s t ∧
      t = pick egress (predicted egress m s) s) ∧
  (∀ (egress : Nat) (m : EdgeMeas) (s : State), 52 ≤ egress ∨ (egress < 48 ∧ (s.mode egress = 0 ∨ (s.lane egress).held = true ∨ (s.lane egress).remoteFault = true)) ∨ measures egress m s = false ∨ spGet none s.sw.tx egress ≠ none ∨ released egress s = false → 
    exec (.egressPick egress m) s = .next s) ∧
  (∀ (egress : Nat) (m : EdgeMeas) (x : TxFrame) (f : Frame) (s : State), spGet none s.sw.tx egress = some x → measures egress m s = true → x.kind = 0 → s.poolFrame x.copy.frame = some f → f.whole = true → 
    ∃ t, exec (.frameTxDone egress m) s = .next t ∧ FrameOf [.rHst, .rPts, .rFt, .rBf, .rFm, .rEr, .rCap, .rCt, .rMp, .hostMem, .freeCount, .evu, .rings, .bus, .mbx, .counters, .tb, .fifos, .lanes, .refs, .sw, .ft, .bf, .merges, .releases, .evd, .netRings, .selectors, .ctSeen, .mp] s t ∧
      spGet none t.sw.tx egress = none ∧ (s.mp.errs = [] → NoInjection egress s → spGet [] t.sw.sent egress = (queuedBytes egress x f s).1)) ∧
  (∀ (egress : Nat) (m : EdgeMeas) (x : TxFrame) (s : State), spGet none s.sw.tx egress = some x → measures egress m s = true → x.kind ≠ 0 → 
    ∃ t, exec (.frameTxDone egress m) s = .next t ∧ FrameOf [.rHst, .rPts, .rFt, .rBf, .rFm, .rEr, .rCap, .rCt, .rMp, .hostMem, .freeCount, .evu, .rings, .bus, .mbx, .counters, .tb, .fifos, .lanes, .refs, .sw, .ft, .bf, .merges, .releases, .evd, .netRings, .selectors, .ctSeen, .mp] s t ∧
      spGet none t.sw.tx egress = none ∧
      (s.mp.errs = [] → NoInjection egress s → spGet [] t.sw.sent egress = (if x.kind = 3 then x.frame.data
        else if x.frame.broken || x.frame.holdBad then poisonEnd s.mp.quarHold x.frame (noFcs x.extra) else x.extra))) ∧
  (∀ (egress : Nat) (m : EdgeMeas) (x : TxFrame) (s : State), spGet none s.sw.tx egress = some x → measures egress m s = true → x.kind = 0 → s.poolFrame x.copy.frame = none → 
    exec (.frameTxDone egress m) s = .next (s.setTx egress none)) ∧
  (∀ (egress : Nat) (m : EdgeMeas) (s : State), spGet none s.sw.tx egress = none ∨ measures egress m s = false ∨
      (∃ x f, spGet none s.sw.tx egress = some x ∧ x.kind = 0 ∧ s.poolFrame x.copy.frame = some f ∧ f.whole = false) → 
    exec (.frameTxDone egress m) s = .next s) ∧
  (∀ (lane : Nat) (up : Bool) (s : State), lane < 48 → s.isF (Reg.swDpStatusConn lane) = true → s.getF (Reg.swDpStatusMode lane) = 1 → 
    ∃ t, exec (.swDpSlip lane up) s = .next t ∧ FrameOf [.rHst, .rSw, .evu, .bus, .sw] s t ∧
      t.getF (Reg.swDpStatusSlips lane) = min 255 (s.getF (Reg.swDpStatusSlips lane) + 1) ∧ t.getF (Reg.swDpStatusFill lane) = 4) ∧
  (∀ (lane : Nat) (up : Bool) (s : State), 48 ≤ lane ∨ s.isF (Reg.swDpStatusConn lane) = false ∨ s.getF (Reg.swDpStatusMode lane) ≠ 1 → 
    exec (.swDpSlip lane up) s = .next s)

/-- The commands of group 0x0A complete with their effects. The commands of group 0x0A complete with their effects and frames. -/
def Obligations.TableCommandsComplete : Prop :=
  (∀ (c : Cmd) (s : State), Starts ftInsertSpec c s → 
    ∃ s1 r, exec (.ftInsert c) s = .next (ended ftInsertSpec c s s1 r) ∧ FrameOf [.rHst, .rFt, .rBf, .rCt, .rMp, .freeCount, .evu, .bus, .mbx, .counters, .refs, .sw, .ft, .bf, .merges, .releases, .mp] (taken c s) s1 ∧
      (r.status = stOk → ∃ loc x, spGet none s1.ft.slots loc = some x ∧ x.key = (keyBlock c.payload) ∧ x.eflags % 4 = cu c 1 1 % 4 ∧ x.destType = cu c 36 1 ∧ x.gen = cu c 37 1 ∧
        x.dest = cu c 38 2 ∧ slice r.result 0 4 = le 4 loc) ∧
      ((ftLookup (keyBlock c.payload) (taken c s)).1.isSome = true → cbit c 1 3 = false → r.status = stOk) ∧
      (r.status ≠ stOk → r = (if (ftLookup (keyBlock c.payload) (taken c s)).1.isSome then failWith stRefused 0x0A01 else failWith stTableFull 0) ∧
        s1 = (ftLookup (keyBlock c.payload) (taken c s)).2)) ∧
  (∀ (c : Cmd) (s : State), Starts ftDeleteSpec c s → 
    ∃ s1 r, exec (.ftDelete c) s = .next (ended ftDeleteSpec c s s1 r) ∧ FrameOf [.rHst, .rFt, .rBf, .rCt, .rMp, .freeCount, .evu, .bus, .mbx, .counters, .refs, .sw, .ft, .bf, .merges, .releases, .mp] (taken c s) s1 ∧
      r = (match (ftLookup (keyBlock c.payload) (taken c s)).1 with | none => failWith stNotFound 0 | some (loc, x) => entryReply loc x) ∧
      s1 = (match (ftLookup (keyBlock c.payload) (taken c s)).1 with | none => (ftLookup (keyBlock c.payload) (taken c s)).2 | some (loc, _) => stashReturn (ftDrop loc (ftLookup (keyBlock c.payload) (taken c s)).2))) ∧
  (∀ (c : Cmd) (s : State), Starts ftSearchSpec c s → 
    ∃ s1 r, exec (.ftSearch c) s = .next (ended ftSearchSpec c s s1 r) ∧ FrameOf [.rHst, .rFt, .rBf, .rCt, .rMp, .freeCount, .evu, .bus, .mbx, .counters, .refs, .sw, .ft, .bf, .merges, .releases, .mp] (taken c s) s1 ∧
      r = (match (ftLookup (keyBlock c.payload) (taken c s)).1 with | none => failWith stNotFound 0 | some (loc, x) => entryReply loc x) ∧ s1 = (ftLookup (keyBlock c.payload) (taken c s)).2 ∧
      (s.mp.errs = [] → s1 = taken c s ∧ (ftLookup (keyBlock c.payload) (taken c s)).1 = ftFind (keyBlock c.payload) s)) ∧
  (∀ (c : Cmd) (s : State), Starts ftWalkOpenSpec c s → 
    ∃ s1, exec (.ftWalkOpen c) s = .next (ended ftWalkOpenSpec c s s1 (okReply)) ∧ FrameOf [.rFt, .ft] (taken c s) s1 ∧
      s1.ft.walk = some ⟨slice c.payload 0 16, 0, [], 0, s.dtt⟩ ∧ s1.getF Reg.ftStatusWalker = 1 ∧ s1.getF Reg.ftStatusTailOcc = 0 ∧ s1.ft.slots = s.ft.slots) ∧
  (∀ (c : Cmd) (s : State), Starts ftWalkNextSpec c s → 
    ∃ s1 e, exec (.ftWalkNext c) s = .next (stepped ftWalkNextSpec c s s1 e) ∧ FrameOf [.rHst, .rFt, .rBf, .rCt, .rMp, .freeCount, .evu, .bus, .mbx, .counters, .refs, .sw, .ft, .bf, .merges, .releases, .mp] (begun ftWalkNextSpec c s) s1 ∧
      (∃ x, e = .done x) ∧ (s1.ft.walk.all (fun k => decide (k.last = s.dtt))) = true ∧
      (cu c 0 2 = 0 → s1.ft = { s.ft with walk := s.ft.walk.map (fun k => { k with last := s.dtt }) })) ∧
  (∀ (c : Cmd) (s : State), Starts ftWalkCloseSpec c s → 
    ∃ s1, exec (.ftWalkClose c) s = .next (ended ftWalkCloseSpec c s s1 (okReply)) ∧ FrameOf [.rFt, .ft] (taken c s) s1 ∧
      s1.ft = { s.ft with walk := none } ∧ s1.getF Reg.ftStatusWalker = 0 ∧ s1.getF Reg.ftStatusTailOcc = 0) ∧
  (∀ (c : Cmd) (s : State), Starts ftFlushPortSpec c s → 
    ∃ s1 e, exec (.ftFlushPort c) s = .next (stepped ftFlushPortSpec c s s1 e) ∧ FrameOf [.rHst, .rFt, .rBf, .rCt, .rMp, .freeCount, .evu, .bus, .mbx, .counters, .refs, .sw, .ft, .bf, .merges, .releases, .mp] (begun ftFlushPortSpec c s) s1 ∧
      s1.getF Reg.ftStatusWalker = 2 ∧ ∃ o, e = .more o ∧ o.work.getD 0 0 = stepPlaces) ∧
  (∀ (c : Cmd) (s : State), Starts ftDigestSpec c s → 
    ∃ s1 e, exec (.ftDigest c) s = .next (stepped ftDigestSpec c s s1 e) ∧ FrameOf [.rHst, .rFt, .rBf, .rCt, .rMp, .freeCount, .evu, .bus, .mbx, .counters, .refs, .sw, .ft, .bf, .merges, .releases, .mp] (begun ftDigestSpec c s) s1 ∧
      s1.getF Reg.ftStatusWalker = 3 ∧ ∃ o, e = .more o ∧ o.work.getD 0 0 = stepPlaces) ∧
  (∀ (c : Cmd) (s : State), Starts ftSetAgingSpec c s → 
    ∃ s1, exec (.ftSetAging c) s = .next (ended ftSetAgingSpec c s s1 (okReply)) ∧ FrameOf [.rFt, .ft] (taken c s) s1 ∧
      s1.getF Reg.ftAgeStatusPeriodS = cu c 0 4 ∧ s1.isF Reg.ftAgeStatusEn = cbit c 4 0 ∧ s1.isF Reg.ftAgeStatusNotify = cbit c 4 1 ∧
      FieldsOf [Reg.ftAgeStatusPeriodS, Reg.ftAgeStatusEn, Reg.ftAgeStatusNotify] (taken c s) s1 ∧
      s1.ft = (if cbit c 4 0 = true ∧ s.isF Reg.ftAgeStatusEn = false then { s.ft with ageNext := 0, ageStart := s.dtt, agePeriod := cu c 0 4 } else s.ft)) ∧
  (∀ (c : Cmd) (s : State), Starts ftLearnConfigSpec c s → 
    ∃ s1, exec (.ftLearnConfig c) s = .next (ended ftLearnConfigSpec c s s1 (okReply)) ∧ FrameOf [.rFt, .ft] (taken c s) s1 ∧
      s1.getF Reg.ftLrnStatusRate = cu c 0 4 ∧ s1.getF Reg.ftLrnCoalCoalesceUs = cu c 4 2 ∧ s1.isF Reg.ftLrnStatusMove = cbit c 6 0 ∧
      s1.isF Reg.ftLrnStatusStaticMove = cbit c 6 1 ∧ s1.ft = { s.ft with tokens := learnTokens s, tokensAt := s.dtt }) ∧
  (∀ (c : Cmd) (s : State), Starts ftRouteWriteSpec c s → cu c 0 1 = 2 → 
    ∃ s1, exec (.ftRouteWrite c) s = .next (ended ftRouteWriteSpec c s s1 (okReply)) ∧ FrameOf [.rFt, .rMp, .freeCount, .ft, .mp] (taken c s) s1 ∧
      s1.nextHop (cu c 2 2) = some ⟨ofBe (slice c.payload 4 6), decide (cu c 10 1 = 1), cu c 11 1, cu c 12 2, cu c 20 1, cbit c 21 0, false⟩ ∧ s1.ft.routes = s.ft.routes ∧
      ∀ k, k ≠ cu c 2 2 → s1.nextHop k = s.nextHop k) ∧
  (∀ (c : Cmd) (s : State), Starts ftRouteWriteSpec c s → cu c 0 1 ≠ 2 → 
    ∃ s1, exec (.ftRouteWrite c) s = .next (ended ftRouteWriteSpec c s s1 (okReply)) ∧ FrameOf [.rFt, .rMp, .freeCount, .ft, .mp] (taken c s) s1 ∧
      s1.ft.nexthops = s.ft.nexthops ∧ ∃ x, s1.ft.routes = s.ft.routes.filter (fun y => y.key ≠ slice c.payload 0 20) ++ [x] ∧ x.key = slice c.payload 0 20 ∧
      x.rtype = cu c 20 1 ∧ x.gen = cu c 21 1 ∧ x.nh = cu c 22 2 ∧ x.broken = false) ∧
  (∀ (c : Cmd) (s : State), Starts ftRouteDeleteSpec c s → cu c 0 1 = 2 → 
    ∃ s1, exec (.ftRouteDelete c) s = .next (ended ftRouteDeleteSpec c s s1 (okReply)) ∧ FrameOf [.rFt, .rMp, .ft, .mp] (taken c s) s1 ∧
      s1.nextHop (cu c 2 2) = none ∧ s1.ft.routes = s.ft.routes ∧ ∀ k, k ≠ cu c 2 2 → s1.nextHop k = s.nextHop k) ∧
  (∀ (c : Cmd) (s : State), Starts ftRouteDeleteSpec c s → cu c 0 1 ≠ 2 → 
    ∃ s1, exec (.ftRouteDelete c) s = .next (ended ftRouteDeleteSpec c s s1 (okReply)) ∧ FrameOf [.rFt, .rMp, .ft, .mp] (taken c s) s1 ∧
      s1.ft.nexthops = s.ft.nexthops ∧ s1.ft.routes = s.ft.routes.filter (fun y => y.key ≠ slice c.payload 0 20))

/-- The ager clears HIT or removes an entry, and a walk left alone for 10 s closes. What the ager and the walk timer do. -/
def Obligations.TheAgerAndTheWalkTimerAct : Prop :=
  (∀ (slot : Nat) (s : State), agerDue slot s = true → 
    ∃ t, exec (.agerVisit slot) s = .next t ∧ FrameOf [.rHst, .rFt, .rBf, .rCt, .rMp, .hostMem, .freeCount, .evu, .rings, .bus, .mbx, .counters, .refs, .sw, .ft, .bf, .merges, .releases, .mp] s t ∧
      t.ft.ageNext = (agerOn s).ft.ageNext ∧ t.ft.ageStart = (agerOn s).ft.ageStart ∧ t.ft.agePeriod = (agerOn s).ft.agePeriod) ∧
  (∀ (slot : Nat) (x : FtEntry) (s : State), agerDue slot s = true → s.mp.errs = [] → spGet none s.ft.slots (slotLoc slot) = some x → bit x.eflags 0 = false → 
    ∃ t, exec (.agerVisit slot) s = .next t ∧ FrameOf [.rHst, .rFt, .rBf, .rCt, .rMp, .hostMem, .freeCount, .evu, .rings, .bus, .mbx, .counters, .refs, .sw, .ft, .bf, .merges, .releases, .mp] s t ∧
      spGet none t.ft.slots (slotLoc slot) = (if bit x.eflags 2 then some { x with eflags := x.eflags - 4 } else none) ∧
      ∀ k, k ≠ slotLoc slot → spGet none t.ft.slots k = spGet none s.ft.slots k) ∧
  (∀ (slot : Nat) (x : FtEntry) (s : State), agerDue slot s = true → s.mp.errs = [] → spGet none s.ft.slots (slotLoc slot) = some x → bit x.eflags 0 = true → 
    exec (.agerVisit slot) s = .next (agerOn s)) ∧
  (∀ (slot : Nat) (s : State), agerDue slot s = true → s.mp.errs = [] → spGet none s.ft.slots (slotLoc slot) = none → 
    exec (.agerVisit slot) s = .next (agerOn s)) ∧
  (∀ (slot : Nat) (s : State), agerDue slot s = false → 
    exec (.agerVisit slot) s = .next s) ∧
  (∀ (k : Walk) (s : State), s.ft.walk = some k → k.last + 7812500000 ≤ s.dtt → 
    ∃ t, exec .ftWalkTimeout s = .next t ∧ FrameOf [.rHst, .rFt, .evu, .bus, .ft] s t ∧
      t.ft.walk = none ∧ t.getF Reg.ftStatusWalker = 0) ∧
  (∀ (s : State), (∀ k, s.ft.walk = some k → s.dtt < k.last + 7812500000) → 
    exec .ftWalkTimeout s = .next s)

/-- The commands of group 0x0B complete with their effects. The commands of group 0x0B complete with their effects and frames. -/
def Obligations.BufferCommandsComplete : Prop :=
  (∀ (c : Cmd) (s : State), Starts bfSetPoolSpec c s → 
    ∃ s1, exec (.bfSetPool c) s = .next (ended bfSetPoolSpec c s s1 (okReply)) ∧ FrameOf [.rHst, .rBf, .evu, .bus, .bf] (taken c s) s1 ∧
      s1.isF Reg.bfPoolResEcnEn = cbit c 4 0 ∧ s1.bf.freeWarn = cu c 0 4 ∧ s1.getF Reg.bfPoolFreeF = sharedFree s ∧ s1.bf.lowArmed = (decide (cu c 0 4 = 0) || decide (cu c 0 4 ≤ sharedFree s))) ∧
  (∀ (c : Cmd) (s : State), Starts bfSetQueueSpec c s → 
    ∃ s1, exec (.bfSetQueue c) s = .next (ended bfSetQueueSpec c s s1 (okReply)) ∧ FrameOf [.rHst, .rBf, .evu, .bus, .bf] (taken c s) s1 ∧
      s1.getF (Reg.bfQLimMode (cu c 0 1 * 8 + cu c 1 1)) = cu c 2 1 ∧ s1.getF (Reg.bfQCfgWeight (cu c 0 1 * 8 + cu c 1 1)) = cu c 3 1 ∧ s1.getF (Reg.bfQCfgAlpha (cu c 0 1 * 8 + cu c 1 1)) = cu c 4 1 ∧
      s1.getF (Reg.bfQCfgMin (cu c 0 1 * 8 + cu c 1 1)) = cu c 6 2 ∧ s1.getF (Reg.bfQLimMax (cu c 0 1 * 8 + cu c 1 1)) = cu c 8 4 ∧ s1.getF (Reg.bfQEcnEcnAt (cu c 0 1 * 8 + cu c 1 1)) = cu c 12 4 ∧
      s1.getF (Reg.bfQSpillSpillMax (cu c 0 1 * 8 + cu c 1 1)) = cu c 16 2 ∧ s1.getF Reg.bfPoolResMinSum = minSumWith (cu c 0 1 * 8 + cu c 1 1) (cu c 6 2) s ∧
      (singleQueue (cu c 0 1) = false → s1.getF (Reg.bfQCfgPcpMask (cu c 0 1 * 8 + cu c 1 1)) = cu c 5 1 ∧
        ∀ j b, j < 8 → j ≠ cu c 1 1 → b < 8 → bit (cu c 5 1) b = true → bit (s1.getF (Reg.bfQCfgPcpMask (cu c 0 1 * 8 + j))) b = false)) ∧
  (∀ (c : Cmd) (s : State), Starts bfSetShaperSpec c s → 
    ∃ s1, exec (.bfSetShaper c) s = .next (ended bfSetShaperSpec c s s1 (okReply)) ∧ FrameOf [.rBf, .bf] (taken c s) s1 ∧
      s1.getF (Reg.bfShpRate (cu c 0 1 * 9 + cu c 1 1)) = cu c 4 4 ∧ s1.getF (Reg.bfShpBurst (cu c 0 1 * 9 + cu c 1 1)) = cu c 8 4 ∧
      spGet none s1.bf.shapers (cu c 0 1 * 9 + cu c 1 1) = (if cu c 4 4 = 0 then none else some ((cu c 8 4 : Int) * 100000, s.dtt)) ∧ FieldsOf [Reg.bfShpRate (cu c 0 1 * 9 + cu c 1 1), Reg.bfShpBurst (cu c 0 1 * 9 + cu c 1 1)] (taken c s) s1) ∧
  (∀ (c : Cmd) (s : State), Starts bfMcastGroupSpec c s → 
    ∃ s1 r, exec (.bfMcastGroup c) s = .next (ended bfMcastGroupSpec c s s1 r) ∧ FrameOf [.bf] (taken c s) s1 ∧
      spGet [] s1.bf.groups (cu c 0 2) =
        ((List.range (cu c 2 1)).map (fun m => (⟨cu c (8 + 4 * m) 1, cu c (9 + 4 * m) 1, cu c (10 + 4 * m) 2 % 4096, bit (cu c (10 + 4 * m) 2) 15⟩ : Member))) ∧
      r = okWith [(32, le 4 (65536 - memberEntries s1))] ∧ (∀ g, g ≠ cu c 0 2 → spGet [] s1.bf.groups g = spGet [] s.bf.groups g)) ∧
  (∀ (c : Cmd) (s : State), Starts bfSpillEnableSpec c s → cu c 0 1 ≠ 0 → (bit (cu c 0 1) 0 && !s.awake 50) || (bit (cu c 0 1) 1 && !s.awake 51) → 
    ∃ s1 e, exec (.bfSpillEnable c) s = .next (stepped bfSpillEnableSpec c s s1 e) ∧ FrameOf [.rHst, .rBf, .rCt, .rMp, .freeCount, .evu, .bus, .mbx, .islands, .counters, .refs, .sw, .ft, .bf, .merges, .releases, .mp] (begun bfSpillEnableSpec c s) s1 ∧
      s1 = begun bfSpillEnableSpec c s ∧ ∃ o, e = .more o) ∧
  (∀ (c : Cmd) (s : State), Starts bfSpillEnableSpec c s → cu c 0 1 ≠ 0 → ((bit (cu c 0 1) 0 && !s.awake 50) || (bit (cu c 0 1) 1 && !s.awake 51)) = false → 
    ∃ s1 e, exec (.bfSpillEnable c) s = .next (stepped bfSpillEnableSpec c s s1 e) ∧ FrameOf [.rHst, .rBf, .rCt, .rMp, .freeCount, .evu, .bus, .mbx, .islands, .counters, .refs, .sw, .ft, .bf, .merges, .releases, .mp] (begun bfSpillEnableSpec c s) s1 ∧
      e = .done (spillReply 0 s1) ∧ s1.getF Reg.bfSpillStatusChEn = cu c 0 1 ∧ s1.isF Reg.bfSpillStatusDraining = false) ∧
  (∀ (c : Cmd) (s : State), Starts bfSpillEnableSpec c s → cu c 0 1 = 0 → cbit c 1 0 = true ∨ anySpilled s = false → 
    ∃ s1 e, exec (.bfSpillEnable c) s = .next (stepped bfSpillEnableSpec c s s1 e) ∧ FrameOf [.rHst, .rBf, .rCt, .rMp, .freeCount, .evu, .bus, .mbx, .islands, .counters, .refs, .sw, .ft, .bf, .merges, .releases, .mp] (begun bfSpillEnableSpec c s) s1 ∧
      s1.getF Reg.bfSpillStatusChEn = 0 ∧ ∃ x, e = .done x) ∧
  (∀ (c : Cmd) (s : State), Starts bfSpillEnableSpec c s → cu c 0 1 = 0 → cbit c 1 0 = false → anySpilled s = true → 
    ∃ s1 e, exec (.bfSpillEnable c) s = .next (stepped bfSpillEnableSpec c s s1 e) ∧ FrameOf [.rHst, .rBf, .rCt, .rMp, .freeCount, .evu, .bus, .mbx, .islands, .counters, .refs, .sw, .ft, .bf, .merges, .releases, .mp] (begun bfSpillEnableSpec c s) s1 ∧
      s1.isF Reg.bfSpillStatusDraining = true ∧ s1.getF Reg.bfSpillStatusChEn = s.getF Reg.bfSpillStatusChEn ∧ ∃ o, e = .more o)

/-- Spilled copies move whole to DDR5 and back in order, and spill ends when DDR5 is empty. What the spill engine does. -/
def Obligations.TheSpillEngineMovesFrames : Prop :=
  (∀ (queue : Nat) (c : Copy) (f : Frame) (s : State), (s.bq queue).copies.find? (fun x => x.place = 1) = some c → s.poolFrame c.frame = some f → f.whole = true → s.getF Reg.bfSpillStatusChEn ≠ 0 → engineReady false s = true → 
    ∃ t, exec (.spillWrite queue) s = .next t ∧ FrameOf [.rHst, .rBf, .rCt, .rMp, .freeCount, .evu, .bus, .mbx, .counters, .refs, .sw, .ft, .bf, .merges, .releases, .mp] s t ∧
      t.bf.staged = s.bf.staged - f.cells.length ∧
      ∃ l : List Nat, l.length = f.cells.length ∧ (t.bq queue).copies = (s.bq queue).copies.map (fun x => if x = c then { c with place := 2, ddr := l } else x)) ∧
  (∀ (queue : Nat) (s : State), (s.bq queue).copies.find? (fun x => x.place = 1) = none ∨ s.getF Reg.bfSpillStatusChEn = 0 ∨ engineReady false s = false ∨
      (∀ c f, (s.bq queue).copies.find? (fun x => x.place = 1) = some c → s.poolFrame c.frame = some f → f.whole = false) → 
    exec (.spillWrite queue) s = .next s) ∧
  (∀ (queue : Nat) (c : Copy) (s : State), (s.bq queue).copies.find? (fun x => x.place ≠ 0) = some c → c.place = 2 → engineReady true s = true → (s.poolFrame c.frame).isSome = true → 
    ∃ t, exec (.spillReadback queue) s = .next t ∧ FrameOf [.rHst, .rBf, .rCt, .rMp, .freeCount, .evu, .bus, .mbx, .counters, .refs, .sw, .ft, .bf, .merges, .releases, .mp] s t ∧
      (t.bq queue).copies = (s.bq queue).copies.map (fun x => if x = c then { c with place := 0, ddr := [] } else x) ∧ (t.poolFrame c.frame).isSome = true) ∧
  (∀ (queue : Nat) (c : Copy) (s : State), (s.bq queue).copies.find? (fun x => x.place ≠ 0) = some c → c.place = 2 → engineReady true s = true → s.poolFrame c.frame = none → 
    ∃ t, exec (.spillReadback queue) s = .next t ∧ FrameOf [.rHst, .rBf, .rCt, .rMp, .freeCount, .evu, .bus, .mbx, .counters, .refs, .sw, .ft, .bf, .merges, .releases, .mp] s t ∧
      (t.bq queue).copies = (s.bq queue).copies ∧ (s.mp.errs = [] → t = s)) ∧
  (∀ (queue : Nat) (s : State), engineReady true s = false ∨ (∀ c, (s.bq queue).copies.find? (fun x => x.place ≠ 0) = some c → c.place ≠ 2) → 
    exec (.spillReadback queue) s = .next s) ∧
  (∀ (s : State), s.isF Reg.bfSpillStatusDraining = true → anySpilled s = false → 
    ∃ t, exec .spillDrainDone s = .next t ∧ FrameOf [.rHst, .rBf, .evu, .bus, .islands, .bf] s t ∧
      t.getF Reg.bfSpillStatusChEn = 0 ∧ (s.getF Reg.bfSpillStatusChEn ≠ 0 → t.isF Reg.bfSpillStatusDraining = false ∧ t.isF Reg.bfPoolResStage = false ∧ t.get64 Reg.bfSpillCap = 0)) ∧
  (∀ (s : State), s.isF Reg.bfSpillStatusDraining = false ∨ anySpilled s = true → 
    exec .spillDrainDone s = .next s)

/-- The merge commands of group 0x0C complete with their effects. The merge commands of group 0x0C complete with their effects and frames. -/
def Obligations.MergeCommandsComplete : Prop :=
  (∀ (c : Cmd) (s : State), Starts fmGroupSetSpec c s → 
    ∃ s1, exec (.fmGroupSet c) s = .next (ended fmGroupSetSpec c s s1 (okReply)) ∧ FrameOf [.rHst, .rFm, .evu, .bus, .merges] (taken c s) s1 ∧
      fmEgress (cu c 0 1) s1 = cu c 1 1 ∧ s1.isF (Reg.fmGCfgTrailer (cu c 0 1)) = cbit c 2 0 ∧ s1.isF (Reg.fmGCfgEvidence (cu c 0 1)) = cbit c 2 1 ∧
      s1.getF (Reg.fmGCfgShortPct (cu c 0 1)) = cu c 3 1 ∧ s1.getF (Reg.fmGCfgWindow (cu c 0 1)) = cu c 4 4 ∧ fmMembers (cu c 0 1) s1 = cu c 8 6 ∧
      (s1.mg (cu c 0 1)).baseDmac = ofBe (slice c.payload 16 6) ∧ (s1.mg (cu c 0 1)).held = (s.mg (cu c 0 1)).held) ∧
  (∀ (c : Cmd) (s : State), Starts fmGroupEnableSpec c s → cu c 1 1 = 1 → 
    ∃ s1 r, exec (.fmGroupEnable c) s = .next (ended fmGroupEnableSpec c s s1 r) ∧ FrameOf [.rHst, .rBf, .rFm, .rCt, .rMp, .freeCount, .evu, .bus, .mbx, .counters, .refs, .sw, .ft, .bf, .merges, .releases, .evd, .mp] (taken c s) s1 ∧
      (fmState (cu c 0 1) s = 0 → fmState (cu c 0 1) s1 = 1) ∧ r = ⟨stOk, 0, resultOf [(32, le 4 (s1.getF (Reg.fmGSeq (cu c 0 1)))), (36, le 4 (s.mg (cu c 0 1)).held.length)], []⟩ ∧
      s1.getF (Reg.fmGSeq (cu c 0 1)) = (if cbit c 2 1 && decide (fmState (cu c 0 1) s = 0) then cu c 4 4 else s.getF (Reg.fmGSeq (cu c 0 1))) ∧ (fmState (cu c 0 1) s ≠ 0 → s1 = taken c s)) ∧
  (∀ (c : Cmd) (s : State), Starts fmGroupEnableSpec c s → cu c 1 1 = 0 → cbit c 2 0 = true → 
    ∃ s1 r, exec (.fmGroupEnable c) s = .next (ended fmGroupEnableSpec c s s1 r) ∧ FrameOf [.rHst, .rBf, .rFm, .rCt, .rMp, .freeCount, .evu, .bus, .mbx, .counters, .refs, .sw, .ft, .bf, .merges, .releases, .evd, .mp] (taken c s) s1 ∧
      fmState (cu c 0 1) s1 = 0 ∧ r = ⟨stOk, 0, resultOf [(32, le 4 (s.getF (Reg.fmGSeq (cu c 0 1)))), (36, le 4 (s1.mg (cu c 0 1)).held.length)], []⟩ ∧
      (fmState (cu c 0 1) s = 0 → s1 = taken c s) ∧ (fmState (cu c 0 1) s ≠ 0 → s.mp.errs = [] → (s1.mg (cu c 0 1)).held = [])) ∧
  (∀ (c : Cmd) (s : State), Starts fmGroupEnableSpec c s → cu c 1 1 = 0 → cbit c 2 0 = false → 
    ∃ s1 r, exec (.fmGroupEnable c) s = .next (ended fmGroupEnableSpec c s s1 r) ∧ FrameOf [.rHst, .rBf, .rFm, .rCt, .rMp, .freeCount, .evu, .bus, .mbx, .counters, .refs, .sw, .ft, .bf, .merges, .releases, .evd, .mp] (taken c s) s1 ∧
      (fmState (cu c 0 1) s = 1 → fmState (cu c 0 1) s1 = 2 ∧ r.status = stDeferred) ∧ (fmState (cu c 0 1) s ≠ 1 → s1 = taken c s ∧ r.status = stOk) ∧
      r.result = resultOf [(32, le 4 (s.getF (Reg.fmGSeq (cu c 0 1)))), (36, le 4 (s.mg (cu c 0 1)).held.length)] ∧ (s1.mg (cu c 0 1)).held = (s.mg (cu c 0 1)).held) ∧
  (∀ (c : Cmd) (s : State), Starts fmSetTrimSpec c s → 
    ∃ s1 r, exec (.fmSetTrim c) s = .next (ended fmSetTrimSpec c s s1 r) ∧ FrameOf [.freeCount, .timed] (taken c s) s1 ∧
      ∃ x, r = okWith [(32, le 8 x)] ∧ s.dtt + 64 ≤ x ∧ timedLast (Reg.fmTrim (cu c 0 1)).addr s ≤ x ∧
      s1.timed = spSet ⟨0, []⟩ s.timed (Reg.fmTrim (cu c 0 1)).addr
        { (timedOf (Reg.fmTrim (cu c 0 1)).addr (s.getI (Reg.fmTrim (cu c 0 1))) s) with steps := (timedOf (Reg.fmTrim (cu c 0 1)).addr (s.getI (Reg.fmTrim (cu c 0 1))) s).steps ++ [(x, ci c 4 4)] }) ∧
  (∀ (c : Cmd) (s : State), Starts fmPartitionSpec c s → 
    ∃ s1 r, exec (.fmPartition c) s = .next (ended fmPartitionSpec c s s1 r) ∧ FrameOf [.rFm] (taken c s) s1 ∧
      s1.getF (granulesOf (cu c 0 1) (cu c 1 1)) = cu c 2 2 ∧
      s1.getF Reg.fmPartFreeGranules = (s.getF Reg.fmPartFreeGranules + s.getF (granulesOf (cu c 0 1) (cu c 1 1)) - cu c 2 2) % 2 ^ 9 ∧
      r = okWith [(32, le 2 (s.getF Reg.fmPartFreeGranules + s.getF (granulesOf (cu c 0 1) (cu c 1 1)) - cu c 2 2))] ∧
      FieldsOf [granulesOf (cu c 0 1) (cu c 1 1), Reg.fmPartFreeGranules] (taken c s) s1)

/-- A due merge frame is sent in key order, draining ends, and a lead trim comes into force. What a merge output does. -/
def Obligations.MergedFramesLeaveInKeyOrder : Prop :=
  (∀ (g : Nat) (h : HeldFrame) (s : State), fmWindow g s ≠ 0 → fmReady g s = some h → 
    h ∈ (s.mg g).held ∧ h.wholeAt.isSome = true ∧
    (h.late = false → (fmDue g h s = true ∨ s.isF (Reg.fmGStatusShort g) = true) ∧
      ∀ k ∈ (s.mg g).held, (k.late = false → k.before h = false) ∧ (k.late = true → k.wholeAt = none)) ∧
    (h.late = true → ∀ k ∈ (s.mg g).held, k.late = true → k.wholeAt.isSome = true → k.before h = false)) ∧
  (∀ (g : Nat) (h : HeldFrame) (s : State), fmWindow g s = 0 → fmReady g s = some h → 
    h ∈ (s.mg g).held ∧ h.wholeAt.isSome = true ∧ ∀ k ∈ (s.mg g).held, k.wholeAt.isSome = true → h.wholeAt.getD 0 ≤ k.wholeAt.getD 0) ∧
  (∀ (g : Nat) (m : EdgeMeas) (h : HeldFrame) (s : State), g < 16 → fmState g s ≠ 0 → CanBegin (fmEgress g s) m s → mergeOf (fmEgress g s) s = some g → s.mp.errs = [] → fmReady g s = some h → h.frame.broken = false → h.frame.holdBad = false → fitsBefore (fmEgress g s) (h.frame.data.length + 36) s = true → (s.isF (Reg.fmGCfgTrailer g) && needsBase 2 (2 * 256 + g) [(s.timeAt h.frame.domIn h.frame.tIn).toNat / 2 ^ 16,
      (s.servedTime (predicted (fmEgress g s) m s).1).toNat / 2 ^ 16] s) = false → 
    ∃ t, exec (.mergeDue g m) s = .next t ∧ FrameOf [.rHst, .rBf, .rFm, .rCt, .rMp, .freeCount, .evu, .bus, .mbx, .counters, .tb, .refs, .sw, .ft, .bf, .merges, .releases, .evd, .mp] s t ∧
      ∃ x, spGet none t.sw.tx (fmEgress g s) = some x ∧ x.kind = 1 ∧ x.group = g ∧ x.frame = h.frame ∧ x.seq = s.getF (Reg.fmGSeq g) ∧
      x.pred = (predicted (fmEgress g s) m s).1 ∧ x.inv = (predicted (fmEgress g s) m s).2 ∧ t.getF (Reg.fmGSeq g) = (s.getF (Reg.fmGSeq g) + 1) % 2 ^ 32 ∧ (t.mg g).held = (s.mg g).held.erase h) ∧
  (∀ (g : Nat) (m : EdgeMeas) (h : HeldFrame) (s : State), g < 16 → fmState g s ≠ 0 → CanBegin (fmEgress g s) m s → mergeOf (fmEgress g s) s = some g → s.mp.errs = [] → fmReady g s = some h → h.frame.broken = false → h.frame.holdBad = false → fitsBefore (fmEgress g s) (h.frame.data.length + 36) s = true → (s.isF (Reg.fmGCfgTrailer g) && needsBase 2 (2 * 256 + g) [(s.timeAt h.frame.domIn h.frame.tIn).toNat / 2 ^ 16,
      (s.servedTime (predicted (fmEgress g s) m s).1).toNat / 2 ^ 16] s) = true → 
    ∃ t, exec (.mergeDue g m) s = .next t ∧ FrameOf [.rHst, .rBf, .rFm, .rCt, .rMp, .freeCount, .evu, .bus, .mbx, .counters, .tb, .refs, .sw, .ft, .bf, .merges, .releases, .evd, .mp] s t ∧
      ∃ x, spGet none t.sw.tx (fmEgress g s) = some x ∧ x.kind = 3 ∧ x.group = g ∧ x.frame.data = fmBaseFrame g (predicted (fmEgress g s) m s).1 s ++ fcsOf (fmBaseFrame g (predicted (fmEgress g s) m s).1 s) ∧
      x.pred = (predicted (fmEgress g s) m s).1 ∧ t.getF (Reg.fmGSeq g) = s.getF (Reg.fmGSeq g) ∧ (t.mg g).held = (s.mg g).held) ∧
  (∀ (g : Nat) (m : EdgeMeas) (s : State), g < 16 → fmState g s ≠ 0 → released (fmEgress g s) s = true → measures (fmEgress g s) m s = true → 
    ∃ t, exec (.mergeDue g m) s = .next t ∧ FrameOf [.rHst, .rBf, .rFm, .rCt, .rMp, .freeCount, .evu, .bus, .mbx, .counters, .tb, .refs, .sw, .ft, .bf, .merges, .releases, .evd, .mp] s t ∧
      t = pick (fmEgress g s) (predicted (fmEgress g s) m s) s) ∧
  (∀ (g : Nat) (m : EdgeMeas) (s : State), g < 16 → fmState g s ≠ 0 → released (fmEgress g s) s = false → 
    ∃ t, exec (.mergeDue g m) s = .next t ∧ FrameOf [.rHst, .rBf, .rFm, .rCt, .rMp, .freeCount, .evu, .bus, .mbx, .counters, .tb, .refs, .sw, .ft, .bf, .merges, .releases, .evd, .mp] s t ∧
      t = fmDown 65536 g s ∧ (s.mp.errs = [] → (s.mg g).held.length ≤ 65536 → (∀ k ∈ (t.mg g).held, k ∈ (s.mg g).held ∧ k.late = false) ∧ fmReady g t = none)) ∧
  (∀ (g : Nat) (m : EdgeMeas) (s : State), 16 ≤ g ∨ fmState g s = 0 ∨ (released (fmEgress g s) s = true ∧ measures (fmEgress g s) m s = false) → 
    exec (.mergeDue g m) s = .next s) ∧
  (∀ (g : Nat) (s : State), g < 16 → fmState g s = 2 → (s.mg g).held = [] → fmInUse g s = 0 → 
    ∃ t, exec (.fmDrainDone g) s = .next t ∧ FrameOf [.rHst, .rFm, .evu, .bus, .merges] s t ∧
      fmState g t = 0) ∧
  (∀ (g : Nat) (s : State), 16 ≤ g ∨ fmState g s ≠ 2 ∨ (s.mg g).held ≠ [] ∨ fmInUse g s ≠ 0 → 
    exec (.fmDrainDone g) s = .next s) ∧
  (∀ (port : Nat) (s : State), port < 48 → 
    ∃ t, exec (.fmTrimApply port) s = .next t ∧ FrameOf [.rFm, .timed] s t ∧
      (s.timed.find? (fun e => e.1 = (Reg.fmTrim port).addr) = none → t.getI (Reg.fmTrim port) = s.getI (Reg.fmTrim port) ∧ t.timed = s.timed) ∧
      (∀ e, s.timed.find? (fun e => e.1 = (Reg.fmTrim port).addr) = some e → -2000000 ≤ e.2.at s.dtt → e.2.at s.dtt ≤ 2000000 → t.getI (Reg.fmTrim port) = e.2.at s.dtt) ∧
      (∀ e, s.timed.find? (fun e => e.1 = (Reg.fmTrim port).addr) = some e → e.2.steps.Pairwise (fun p q => p.1 ≤ q.1) →
        ∀ v x, s.dtt ≤ x → t.timedAt (Reg.fmTrim port).addr (t.getI (Reg.fmTrim port)) x = s.timedAt (Reg.fmTrim port).addr v x) ∧ FieldsOf [Reg.fmTrim port] s t) ∧
  (∀ (port : Nat) (s : State), 48 ≤ port → 
    exec (.fmTrimApply port) s = .next s)

/-- The release commands of group 0x0C complete with their effects. The release commands of group 0x0C complete with their effects and
frames. -/
def Obligations.ReleaseCommandsComplete : Prop :=
  (∀ (c : Cmd) (s : State), Starts erGroupSetSpec c s → 
    ∃ s1, exec (.erGroupSet c) s = .next (ended erGroupSetSpec c s s1 (okReply)) ∧ FrameOf [.rEr] (taken c s) s1 ∧
      s1.isF (Reg.erGCfgAon (cu c 0 1)) = cbit c 1 0 ∧ s1.isF (Reg.erGCfgDownFails (cu c 0 1)) = cbit c 1 1 ∧ s1.isF (Reg.erGCfgLateSend (cu c 0 1)) = cbit c 1 2 ∧
      s1.isF (Reg.erGCfgEvidence (cu c 0 1)) = cbit c 1 3 ∧ s1.isF (Reg.erGCfgRec (cu c 0 1)) = cbit c 1 4 ∧ s1.getF (Reg.erGCfgRing (cu c 0 1)) = cu c 2 1 ∧
      s1.getF (Reg.erGCfgDelay (cu c 0 1)) = cu c 4 4 ∧ erInputs (cu c 0 1) s1 = cu c 8 6 ∧ erMembers (cu c 0 1) s1 = cu c 16 6) ∧
  (∀ (c : Cmd) (s : State), Starts erGroupEnableSpec c s → cu c 1 1 = 1 → erState (cu c 0 1) s = 0 → alignWaits (cu c 0 1) (erGroupEnableEffect c (taken c s)).1 = false → 
    ∃ s1 r, exec (.erGroupEnable c) s = .next (ended erGroupEnableSpec c s s1 r) ∧ FrameOf [.rHst, .rSds, .rBf, .rEr, .rCap, .rCt, .rMp, .hostMem, .freeCount, .evu, .rings, .bus, .mbx, .counters, .tb, .lanes, .refs, .sw, .ft, .bf, .merges, .releases, .evd, .netRings, .mp] (taken c s) s1 ∧
      r = erEnableReply (cu c 0 1) stOk s1 ∧ erState (cu c 0 1) s1 = 1 ∧ s1.getF (Reg.erGStatusMode (cu c 0 1)) = erMode (cu c 0 1) s ∧
      s1.getF (Reg.erGFseq (cu c 0 1)) = (if cbit c 2 1 then cu c 4 4 else s.getF (Reg.erGFseq (cu c 0 1)))) ∧
  (∀ (c : Cmd) (s : State), Starts erGroupEnableSpec c s → cu c 1 1 = 1 → erState (cu c 0 1) s = 0 → alignWaits (cu c 0 1) (erGroupEnableEffect c (taken c s)).1 = true → 
    ∃ s1, exec (.erGroupEnable c) s = .next (heldBack erGroupEnableSpec c s s1) ∧ FrameOf [.rHst, .rSds, .rBf, .rEr, .rCap, .rCt, .rMp, .hostMem, .freeCount, .evu, .rings, .bus, .mbx, .counters, .tb, .lanes, .refs, .sw, .ft, .bf, .merges, .releases, .evd, .netRings, .mp] (taken c s) s1 ∧
      erState (cu c 0 1) s1 = 1 ∧ s1.getF (Reg.erGStatusMode (cu c 0 1)) = erMode (cu c 0 1) s ∧
      s1.getF (Reg.erGFseq (cu c 0 1)) = (if cbit c 2 1 then cu c 4 4 else s.getF (Reg.erGFseq (cu c 0 1)))) ∧
  (∀ (c : Cmd) (s : State), Starts erGroupEnableSpec c s → cu c 1 1 = 0 → cbit c 2 0 = true → 
    ∃ s1 r, exec (.erGroupEnable c) s = .next (ended erGroupEnableSpec c s s1 r) ∧ FrameOf [.rHst, .rSds, .rBf, .rEr, .rCap, .rCt, .rMp, .hostMem, .freeCount, .evu, .rings, .bus, .mbx, .counters, .tb, .lanes, .refs, .sw, .ft, .bf, .merges, .releases, .evd, .netRings, .mp] (taken c s) s1 ∧
      r = erEnableReply (cu c 0 1) stOk s1 ∧ erState (cu c 0 1) s1 = 0 ∧
      (erState (cu c 0 1) s ≠ 0 → s.mp.errs = [] → ∀ x ∈ (s1.rg (cu c 0 1)).held, x.decided = true) ∧ (erState (cu c 0 1) s = 0 → s1 = taken c s)) ∧
  (∀ (c : Cmd) (s : State), Starts erGroupEnableSpec c s → cu c 1 1 = 0 → cbit c 2 0 = false → erState (cu c 0 1) s = 1 → 
    ∃ s1 r, exec (.erGroupEnable c) s = .next (ended erGroupEnableSpec c s s1 r) ∧ FrameOf [.rHst, .rSds, .rBf, .rEr, .rCap, .rCt, .rMp, .hostMem, .freeCount, .evu, .rings, .bus, .mbx, .counters, .tb, .lanes, .refs, .sw, .ft, .bf, .merges, .releases, .evd, .netRings, .mp] (taken c s) s1 ∧
      r = erEnableReply (cu c 0 1) stDeferred s1 ∧ erState (cu c 0 1) s1 = 2 ∧ (s.mp.errs = [] → ∀ x ∈ (s1.rg (cu c 0 1)).held, x.decided = true)) ∧
  (∀ (c : Cmd) (s : State), Starts erGroupEnableSpec c s → (cu c 1 1 = 1 ∧ erState (cu c 0 1) s ≠ 0) ∨ (cu c 1 1 = 0 ∧ cbit c 2 0 = false ∧ erState (cu c 0 1) s ≠ 1) → 
    ∃ s1 r, exec (.erGroupEnable c) s = .next (ended erGroupEnableSpec c s s1 r) ∧ FrameOf [.rHst, .rSds, .rBf, .rEr, .rCap, .rCt, .rMp, .hostMem, .freeCount, .evu, .rings, .bus, .mbx, .counters, .tb, .lanes, .refs, .sw, .ft, .bf, .merges, .releases, .evd, .netRings, .mp] (taken c s) s1 ∧
      r = erEnableReply (cu c 0 1) stOk s ∧ s1 = taken c s) ∧
  (∀ (c : Cmd) (s : State), Starts erSetTrimSpec c s → 
    ∃ s1 r, exec (.erSetTrim c) s = .next (ended erSetTrimSpec c s s1 r) ∧ FrameOf [.rHst, .rSds, .rEr, .freeCount, .evu, .bus, .timed, .lanes] (taken c s) s1 ∧
      ∃ x b, r = okWith [(32, le 8 x), (40, le 1 b)] ∧ b ≤ 1 ∧ s.dtt + 64 ≤ x ∧ timedLast (Reg.erTrim (cu c 0 1)).addr s ≤ x ∧
      s1.timed = spSet ⟨0, []⟩ s.timed (Reg.erTrim (cu c 0 1)).addr
        { (timedOf (Reg.erTrim (cu c 0 1)).addr (s.getI (Reg.erTrim (cu c 0 1))) s) with steps := (timedOf (Reg.erTrim (cu c 0 1)).addr (s.getI (Reg.erTrim (cu c 0 1))) s).steps ++ [(x, ci c 4 4)] })

/-- A scheduled copy begins at its first bit, draining ends, and a release trim comes into force. What a release group does on its egress. -/
def Obligations.ReleaseCopiesStartAtTheirInstant : Prop :=
  (∀ (g port : Nat) (x : RelFrame) (k : RelCopy) (s : State), erNext g port s = some (x, k) → k.start - lineUnits (s.mode port) ≤ s.now80 + 65535 → s.mp.errs = [] → released port s = true → (s.lane port).held = false → (s.lane port).remoteFault = false → x.frame.broken = false → x.frame.holdBad = false → spGet none s.sw.tx port = none → 
    ∃ t, exec (.releaseCopyStart g port) s = .next t ∧ FrameOf [.rHst, .rBf, .rEr, .rCap, .rCt, .rMp, .hostMem, .freeCount, .evu, .rings, .bus, .mbx, .counters, .tb, .refs, .sw, .ft, .bf, .merges, .releases, .evd, .netRings, .mp] s t ∧
      (∃ y, spGet none t.sw.tx port = some y ∧ y.kind = 2 ∧ y.group = g ∧ y.seq = x.fseq ∧ y.frame = x.frame ∧ y.pred = k.start ∧ y.extra = erBytes x.frame port s ∧ y.start = s.dtt) ∧
      (t.rg g).held = (s.rg g).held.map (fun y => if y = x then { x with copies := x.copies.map (fun c => if c = k then { k with sending := true } else c) } else y)) ∧
  (∀ (g port : Nat) (x : RelFrame) (k : RelCopy) (s : State), erNext g port s = some (x, k) → k.start - lineUnits (s.mode port) ≤ s.now80 + 65535 → s.mp.errs = [] → released port s = true → (s.lane port).held = false → (s.lane port).remoteFault = false → x.frame.broken = false → x.frame.holdBad = false → (spGet none s.sw.tx port).isSome = true → 
    exec (.releaseCopyStart g port) s = .next s) ∧
  (∀ (g port : Nat) (x : RelFrame) (k : RelCopy) (s : State), erNext g port s = some (x, k) → k.start - lineUnits (s.mode port) ≤ s.now80 + 65535 → s.mp.errs = [] → x.frame.holdBad = true → (∀ c ∈ x.copies, c.sending = false ∧ c.done = false) → 
    ∃ t, exec (.releaseCopyStart g port) s = .next t ∧ FrameOf [.rHst, .rBf, .rEr, .rCap, .rCt, .rMp, .hostMem, .freeCount, .evu, .rings, .bus, .mbx, .counters, .tb, .refs, .sw, .ft, .bf, .merges, .releases, .evd, .netRings, .mp] s t ∧
      t = erDiscard g 4 x s ∧ t.sw.tx = s.sw.tx) ∧
  (∀ (g port : Nat) (x : RelFrame) (k : RelCopy) (s : State), erNext g port s = some (x, k) → k.start - lineUnits (s.mode port) ≤ s.now80 + 65535 → s.mp.errs = [] → x.frame.broken = true → x.frame.holdBad = false ∨ (∃ c ∈ x.copies, c.sending = true ∨ c.done = true) → 
    ∃ t, exec (.releaseCopyStart g port) s = .next t ∧ FrameOf [.rHst, .rBf, .rEr, .rCap, .rCt, .rMp, .hostMem, .freeCount, .evu, .rings, .bus, .mbx, .counters, .tb, .refs, .sw, .ft, .bf, .merges, .releases, .evd, .netRings, .mp] s t ∧
      t = erCopy g x k { k with done := true } id (count (srcCtr port 38) 1 s) ∧ t.sw.tx = s.sw.tx) ∧
  (∀ (g port : Nat) (x : RelFrame) (k : RelCopy) (s : State), erNext g port s = some (x, k) → k.start - lineUnits (s.mode port) ≤ s.now80 + 65535 → s.mp.errs = [] → x.frame.broken = false → x.frame.holdBad = true → (∃ c ∈ x.copies, c.sending = true ∨ c.done = true) → 
    ∃ t, exec (.releaseCopyStart g port) s = .next t ∧ FrameOf [.rHst, .rBf, .rEr, .rCap, .rCt, .rMp, .hostMem, .freeCount, .evu, .rings, .bus, .mbx, .counters, .tb, .refs, .sw, .ft, .bf, .merges, .releases, .evd, .netRings, .mp] s t ∧
      t = erCopy g x k { k with done := true } id (count (erCtr g 7) 1 s) ∧ t.sw.tx = s.sw.tx) ∧
  (∀ (g port : Nat) (x : RelFrame) (k : RelCopy) (s : State), erNext g port s = some (x, k) → k.start - lineUnits (s.mode port) ≤ s.now80 + 65535 → s.mp.errs = [] → x.frame.broken = false → x.frame.holdBad = false → released port s = false ∨ (s.lane port).held = true ∨ (s.lane port).remoteFault = true → 
    ∃ t, exec (.releaseCopyStart g port) s = .next t ∧ FrameOf [.rHst, .rBf, .rEr, .rCap, .rCt, .rMp, .hostMem, .freeCount, .evu, .rings, .bus, .mbx, .counters, .tb, .refs, .sw, .ft, .bf, .merges, .releases, .evd, .netRings, .mp] s t ∧
      t = erCopy g x k { k with done := true } id (count (erCtr g 8) 1 s) ∧ t.sw.tx = s.sw.tx) ∧
  (∀ (g port : Nat) (x : RelFrame) (k : RelCopy) (s : State), erNext g port s = some (x, k) → k.start - lineUnits (s.mode port) ≤ s.now80 + 65535 → 
    ∃ t, exec (.releaseCopyStart g port) s = .next t ∧ FrameOf [.rHst, .rBf, .rEr, .rCap, .rCt, .rMp, .hostMem, .freeCount, .evu, .rings, .bus, .mbx, .counters, .tb, .refs, .sw, .ft, .bf, .merges, .releases, .evd, .netRings, .mp] s t ∧
      t = erStart g port (holdRead x.frame s)) ∧
  (∀ (g port : Nat) (s : State), (∀ x k, erNext g port s = some (x, k) → s.now80 + 65535 < k.start - lineUnits (s.mode port)) → 
    exec (.releaseCopyStart g port) s = .next s) ∧
  (∀ (g : Nat) (s : State), g < 64 → erState g s = 2 → (s.rg g).held = [] → 
    ∃ t, exec (.erDrainDone g) s = .next t ∧ FrameOf [.rHst, .rEr, .evu, .bus] s t ∧
      erState g t = 0) ∧
  (∀ (g : Nat) (s : State), 64 ≤ g ∨ erState g s ≠ 2 ∨ (s.rg g).held ≠ [] → 
    exec (.erDrainDone g) s = .next s) ∧
  (∀ (port : Nat) (s : State), port < 48 → 
    ∃ t, exec (.erTrimApply port) s = .next t ∧ FrameOf [.rEr, .timed] s t ∧
      (s.timed.find? (fun e => e.1 = (Reg.erTrim port).addr) = none → t.getI (Reg.erTrim port) = s.getI (Reg.erTrim port) ∧ t.timed = s.timed) ∧
      (∀ e, s.timed.find? (fun e => e.1 = (Reg.erTrim port).addr) = some e → -2000000 ≤ e.2.at s.dtt → e.2.at s.dtt ≤ 2000000 → t.getI (Reg.erTrim port) = e.2.at s.dtt) ∧
      (∀ e, s.timed.find? (fun e => e.1 = (Reg.erTrim port).addr) = some e → e.2.steps.Pairwise (fun p q => p.1 ≤ q.1) →
        ∀ v x, s.dtt ≤ x → t.timedAt (Reg.erTrim port).addr (t.getI (Reg.erTrim port)) x = s.timedAt (Reg.erTrim port).addr v x) ∧ FieldsOf [Reg.erTrim port] s t) ∧
  (∀ (port : Nat) (s : State), 48 ≤ port → 
    exec (.erTrimApply port) s = .next s)

/-- Evidence and capture commands complete; blocks close, are signed and take records in order. The commands and events of evidence and
capture. -/
def Obligations.EvidenceCommandsAndBlocksRun : Prop :=
  (∀ (c : Cmd) (s : State), Starts evdConfigSpec c s → 
    ∃ s1, exec (.evdConfig c) s = .next (ended evdConfigSpec c s s1 (okReply)) ∧ FrameOf [.rEvd, .evd] (taken c s) s1 ∧
      s1.isF Reg.evdRCfgEn = cbit c 5 0 ∧ s1.getF Reg.evdStatusPeriodUs = s.getF Reg.evdStatusPeriodUs ∧
      s1.evd.nextPeriod = (if cu c 0 4 = s.getF Reg.evdStatusPeriodUs then none else some (cu c 0 4)) ∧ s1.evd.records = s.evd.records ∧
      (cbit c 5 0 = true → s.isF Reg.evdRCfgEn = false → s1.getF Reg.evdRCfgLog2sz = cu c 4 1 % 32 ∧ s1.getF Reg.evdRProdIndex = 0 ∧
        s1.evd.ringBase = cu c 8 8 ∧ s1.evd.wbAddr = cu c 16 8 ∧ s1.evd.ringThresh = cu c 24 4 ∧ FieldsOf [Reg.evdRCfgEn, Reg.evdRCfgLog2sz, Reg.evdRProdIndex] (taken c s) s1) ∧
      (cbit c 5 0 = false ∨ s.isF Reg.evdRCfgEn = true → FieldsOf [Reg.evdRCfgEn] (taken c s) s1 ∧ s1.evd = { s.evd with nextPeriod := s1.evd.nextPeriod })) ∧
  (∀ (c : Cmd) (s : State), Starts evdGetPubkeySpec c s → 
    ∃ s1, exec (.evdGetPubkey c) s = .next (ended evdGetPubkeySpec c s s1 (okBuf [(32, le 4 evdKeyId), (40, le 8 Config.serial)] pubkeyBytes)) ∧ FrameOf [] (taken c s) s1 ∧
      s1 = taken c s) ∧
  (∀ (c : Cmd) (s : State), Starts evdGetBlockSpec c s → 
    ∃ s1, exec (.evdGetBlock c) s = .next (ended evdGetBlockSpec c s s1 (okBuf [(32, le 8 (firstBlock c s))] ((List.range (cu c 8 2)).map (fun k => ((keptHeader (firstBlock c s + k) s).map (·.bytes)).getD [])).flatten)) ∧ FrameOf [] (taken c s) s1 ∧
      s1 = taken c s) ∧
  (∀ (c : Cmd) (s : State), Starts capRingSetSpec c s → 
    ∃ s1, exec (.capRingSet c) s = .next (ended capRingSetSpec c s s1 (okReply)) ∧ FrameOf [.rCap, .netRings] (taken c s) s1 ∧
      (s1.netRing (cu c 0 1)).base = cu c 4 8 ∧ (s1.netRing (cu c 0 1)).thresh = cu c 12 2 ∧ (s1.netRing (cu c 0 1)).holdoff = cu c 14 2 ∧ (s1.netRing (cu c 0 1)).isSet = true ∧
      s1.getF (Reg.capNrCfgLog2sz (cu c 0 1)) = cu c 1 1 ∧ FieldsOf [Reg.capNrCfgLog2sz (cu c 0 1)] (taken c s) s1) ∧
  (∀ (c : Cmd) (s : State), Starts capRingEnableSpec c s → cu c 1 1 = 1 → s.isF (Reg.capNrCfgEn (cu c 0 1)) = false → 
    ∃ s1, exec (.capRingEnable c) s = .next (ended capRingEnableSpec c s s1 (okReply)) ∧ FrameOf [.rCap, .rings, .tb, .netRings] (taken c s) s1 ∧
      s1.isF (Reg.capNrCfgEn (cu c 0 1)) = true ∧ s1.getF (Reg.capNrProdIndex (cu c 0 1)) = 0 ∧
      s1.isF (Reg.capNrProdPhase (cu c 0 1)) = true ∧ s1.getF (Reg.capNrDrop (cu c 0 1)) = 0 ∧ s1.netRing (cu c 0 1) = { s.netRing (cu c 0 1) with items := 0, lossPending := false, lost := ⟨[], none⟩ } ∧ s1.ringDyn (16 + cu c 0 1) = ⟨[], false⟩ ∧
      FieldsOf [Reg.capNrCfgEn (cu c 0 1), Reg.capNrProdIndex (cu c 0 1), Reg.capNrProdPhase (cu c 0 1), Reg.capNrDrop (cu c 0 1)] (taken c s) s1) ∧
  (∀ (c : Cmd) (s : State), Starts capRingEnableSpec c s → cu c 1 1 = 0 ∨ s.isF (Reg.capNrCfgEn (cu c 0 1)) = true → 
    ∃ s1, exec (.capRingEnable c) s = .next (ended capRingEnableSpec c s s1 (okReply)) ∧ FrameOf [.rCap, .rings, .tb, .netRings] (taken c s) s1 ∧
      s1 = (taken c s).setB (Reg.capNrCfgEn (cu c 0 1)) (cu c 1 1 = 1)) ∧
  (∀ (c : Cmd) (s : State), Starts capSelectSpec c s → 
    ∃ s1, exec (.capSelect c) s = .next (ended capSelectSpec c s s1 (okReply)) ∧ FrameOf [.selectors] (taken c s) s1 ∧
      s1 = (taken c s).setSelector (cu c 0 1) ⟨cu c 1 1, cu c 2 1, cu c 3 1, cu c 4 4, cu c 8 6, cu c 14 1, 0⟩) ∧
  (∀ (s : State), s.evd.isOpen = true → onBoundary s = true → s.evd.dttStart < s.dtt → s.isF Reg.gdSecStatusZeroised = false → s.isF Reg.gdSecStatusEvdError = false → s.evd.nextPeriod = none → blockSigned (s.get64 Reg.evdBlock) false s = true → 
    ∃ t, exec .evdBlockClose s = .next t ∧ FrameOf [.rHst, .rBf, .rEvd, .rCt, .rMp, .hostMem, .freeCount, .evu, .bus, .mbx, .counters, .refs, .sw, .ft, .bf, .merges, .releases, .evd, .tw, .mp] s t ∧
      t.get64 Reg.evdBlock = (s.get64 Reg.evdBlock + 1) % 2 ^ 64 ∧ t.evd.records = [] ∧ t.evd.dttStart = s.dtt ∧ t.evd.dropped = 0 ∧
      t.evd.prev = sha256 (blockHeader false false (noteQuality (admitAll s))) ∧ t.evd.signing = s.evd.signing ++ [⟨s.get64 Reg.evdEpoch, s.get64 Reg.evdBlock, blockHeader false false (noteQuality (admitAll s)) ++ List.replicate 64 0⟩] ∧ t.evd.store = s.evd.store ∧ t.evd.engineAwake = true) ∧
  (∀ (s : State), s.evd.isOpen = true → onBoundary s = true → s.evd.dttStart < s.dtt → s.isF Reg.gdSecStatusZeroised = false → s.isF Reg.gdSecStatusEvdError = false → s.evd.nextPeriod = none → blockSigned (s.get64 Reg.evdBlock) false s = false → 
    ∃ t, exec .evdBlockClose s = .next t ∧ FrameOf [.rHst, .rBf, .rEvd, .rCt, .rMp, .hostMem, .freeCount, .evu, .bus, .mbx, .counters, .refs, .sw, .ft, .bf, .merges, .releases, .evd, .tw, .mp] s t ∧
      t.get64 Reg.evdBlock = (s.get64 Reg.evdBlock + 1) % 2 ^ 64 ∧ t.evd.records = [] ∧ t.evd.dttStart = s.dtt ∧ t.evd.dropped = 0 ∧
      t.evd.prev = sha256 (blockHeader false false (noteQuality (admitAll s))) ∧ t.evd.store.getLast? = some ⟨s.get64 Reg.evdEpoch, s.get64 Reg.evdBlock, blockHeader false false (noteQuality (admitAll s)) ++ List.replicate 64 0⟩ ∧ t.evd.signing = s.evd.signing) ∧
  (∀ (p : Nat) (s : State), s.evd.isOpen = true → onBoundary s = true → s.evd.dttStart < s.dtt → s.isF Reg.gdSecStatusZeroised = false → s.isF Reg.gdSecStatusEvdError = false → s.evd.nextPeriod = some p → 
    ∃ t, exec .evdBlockClose s = .next t ∧ FrameOf [.rHst, .rBf, .rEvd, .rCt, .rMp, .hostMem, .freeCount, .evu, .bus, .mbx, .counters, .refs, .sw, .ft, .bf, .merges, .releases, .evd, .tw, .mp] s t ∧
      t.get64 Reg.evdBlock = (s.get64 Reg.evdBlock + 1) % 2 ^ 64 ∧ t.evd.records = [] ∧ t.evd.dttStart = s.dtt ∧ t.evd.dropped = 0 ∧
      t.evd.prev = sha256 (blockHeader false false (noteQuality (admitAll s))) ∧ t.evd.signing = s.evd.signing ++ [⟨s.get64 Reg.evdEpoch, s.get64 Reg.evdBlock, blockHeader false false (noteQuality (admitAll s)) ++ List.replicate 64 0⟩] ∧ (p ≤ 1000000 → t.getF Reg.evdStatusPeriodUs = p) ∧ t.evd.nextPeriod = none) ∧
  (∀ (s : State), s.evd.isOpen = false ∨ onBoundary s = false ∨ s.dtt ≤ s.evd.dttStart ∨ s.isF Reg.gdSecStatusZeroised = true ∨ s.isF Reg.gdSecStatusEvdError = true → 
    exec .evdBlockClose s = .next s) ∧
  (∀ (h : EvdHeader) (l : List EvdHeader) (s : State), s.isF Reg.gdSecStatusZeroised = false → s.isF Reg.gdSecStatusEvdError = false → s.evd.signing = h :: l → 
    ∃ t, exec .evdBlockSigned s = .next t ∧ FrameOf [.rHst, .rBf, .rEvd, .rCt, .rMp, .hostMem, .freeCount, .evu, .bus, .mbx, .counters, .refs, .sw, .ft, .bf, .merges, .releases, .evd, .mp] s t ∧
      t.evd.signing = l ∧ t.evd.engineAwake = decide (l ≠ []) ∧ t.evd.store.getLast? = some { h with bytes := h.bytes.take 192 ++ be 64 (Config.signature (ofBe (sha256 (h.bytes.take 192)))) }) ∧
  (∀ (s : State), s.isF Reg.gdSecStatusZeroised = true ∨ s.isF Reg.gdSecStatusEvdError = true ∨ s.evd.signing = [] → 
    exec .evdBlockSigned s = .next s) ∧
  (∀ (x : EvdRec) (l : List EvdRec) (s : State), s.evd.isOpen = true → s.evd.waiting = x :: l → 
    ∃ t, exec .evdRecord s = .next t ∧ FrameOf [.rHst, .rBf, .rEvd, .rCt, .rMp, .hostMem, .freeCount, .evu, .bus, .mbx, .counters, .refs, .sw, .ft, .bf, .merges, .releases, .evd, .mp] s t ∧
      t.evd.waiting = l ∧ t.evd.records = s.evd.records ++ [record 16 [(0, le 1 x.rtype), (1, le 1 x.rflags), (2, le 1 x.src), (4, le 4 s.evd.records.length),
        (8, le 8 x.stamp)] ++ slice x.body 0 48]) ∧
  (∀ (s : State), s.evd.isOpen = false ∨ s.evd.waiting = [] → 
    exec .evdRecord s = .next s)

/-- The commands of group 0x0E complete with their effects. The twin commands of group 0x0E complete with their effects and frames. -/
def Obligations.TwinCommandsComplete : Prop :=
  (∀ (c : Cmd) (s : State), Starts twEnableSpec c s → cbit c 1 0 = true → 
    ∃ s1, exec (.twEnable c) s = .next (heldBack twEnableSpec c s s1) ∧ FrameOf [.rHst, .rGd, .rMbx, .rTb, .rRs, .rPl, .rPts, .rSds, .rBf, .rFm, .rEr, .rCap, .rCt, .rMp, .rTw, .rCal, .hostMem, .freeCount, .evu, .rings, .bus, .mbx, .islands, .counters, .tb, .fifos, .lanes, .tt, .refs, .dpll, .sw, .ft, .bf, .merges, .releases, .evd, .netRings, .selectors, .tw, .ctSeen, .mp] (taken c s) s1 ∧
      s1 = twSettings c (taken c s) ∧ s1.tw.hbMiss = cu c 2 2 ∧ s1.tw.bw = cu c 4 4 ∧ s1.tw.delay = cu c 8 8 ∧ s1.tw.holdMask = cu c 20 1 + 256 * cu c 21 1 ∧ s1.isF Reg.twStatusRevertive = cbit c 1 1) ∧
  (∀ (c : Cmd) (s : State), Starts twEnableSpec c s → cbit c 1 0 = false → cu c 0 1 = 1 → s.twinState = 0 → portEnabled 48 s = true → s.awake 61 = false → 
    ∃ s1, exec (.twEnable c) s = .next (heldBack twEnableSpec c s s1) ∧ FrameOf [.rHst, .rGd, .rMbx, .rTb, .rRs, .rPl, .rPts, .rSds, .rBf, .rFm, .rEr, .rCap, .rCt, .rMp, .rTw, .rCal, .hostMem, .freeCount, .evu, .rings, .bus, .mbx, .islands, .counters, .tb, .fifos, .lanes, .tt, .refs, .dpll, .sw, .ft, .bf, .merges, .releases, .evd, .netRings, .selectors, .tw, .ctSeen, .mp] (taken c s) s1 ∧
      s1 = taken c s) ∧
  (∀ (c : Cmd) (s : State), Starts twEnableSpec c s → cbit c 1 0 = false → cu c 0 1 = 1 → s.twinState = 0 → portEnabled 48 s = true → s.awake 61 = true → 
    ∃ s1 r, exec (.twEnable c) s = .next (ended twEnableSpec c s s1 r) ∧ FrameOf [.rHst, .rGd, .rMbx, .rTb, .rRs, .rPl, .rPts, .rSds, .rBf, .rFm, .rEr, .rCap, .rCt, .rMp, .rTw, .rCal, .hostMem, .freeCount, .evu, .rings, .bus, .mbx, .islands, .counters, .tb, .fifos, .lanes, .tt, .refs, .dpll, .sw, .ft, .bf, .merges, .releases, .evd, .netRings, .selectors, .tw, .ctSeen, .mp] (taken c s) s1 ∧
      r = okReply ∧ s1.twinState = 1 ∧ s1.isF Reg.hstStatusActive = false ∧ s1.tw.hb = none ∧ s1.tw.mirrors = [] ∧ s1.tw.forwarded = [] ∧ s1.tw.hbMiss = cu c 2 2 ∧ s1.tw.bw = cu c 4 4 ∧ s1.tw.delay = cu c 8 8 ∧ s1.tw.holdMask = cu c 20 1 + 256 * cu c 21 1 ∧ s1.isF Reg.twStatusRevertive = cbit c 1 1) ∧
  (∀ (c : Cmd) (s : State), Starts twEnableSpec c s → cbit c 1 0 = false → cu c 0 1 = 1 → s.twinState = 0 → portEnabled 48 s = false → 
    ∃ s1 r, exec (.twEnable c) s = .next (ended twEnableSpec c s s1 r) ∧ FrameOf [.rHst, .rGd, .rMbx, .rTb, .rRs, .rPl, .rPts, .rSds, .rBf, .rFm, .rEr, .rCap, .rCt, .rMp, .rTw, .rCal, .hostMem, .freeCount, .evu, .rings, .bus, .mbx, .islands, .counters, .tb, .fifos, .lanes, .tt, .refs, .dpll, .sw, .ft, .bf, .merges, .releases, .evd, .netRings, .selectors, .tw, .ctSeen, .mp] (taken c s) s1 ∧
      r = failWith stLocked 0 ∧ s1 = portDenied 48 (taken c s)) ∧
  (∀ (c : Cmd) (s : State), Starts twEnableSpec c s → cbit c 1 0 = false → (cu c 0 1 = 1 ∧ s.twinState ≠ 0) ∨ (cu c 0 1 = 0 ∧ s.twinState = 0) → 
    ∃ s1 r, exec (.twEnable c) s = .next (ended twEnableSpec c s s1 r) ∧ FrameOf [.rHst, .rGd, .rMbx, .rTb, .rRs, .rPl, .rPts, .rSds, .rBf, .rFm, .rEr, .rCap, .rCt, .rMp, .rTw, .rCal, .hostMem, .freeCount, .evu, .rings, .bus, .mbx, .islands, .counters, .tb, .fifos, .lanes, .tt, .refs, .dpll, .sw, .ft, .bf, .merges, .releases, .evd, .netRings, .selectors, .tw, .ctSeen, .mp] (taken c s) s1 ∧
      r = okReply ∧ s1 = taken c s) ∧
  (∀ (c : Cmd) (s : State), Starts twEnableSpec c s → cbit c 1 0 = false → cu c 0 1 = 0 → s.twinState ≠ 0 → 
    ∃ s1 r, exec (.twEnable c) s = .next (ended twEnableSpec c s s1 r) ∧ FrameOf [.rHst, .rGd, .rMbx, .rTb, .rRs, .rPl, .rPts, .rSds, .rBf, .rFm, .rEr, .rCap, .rCt, .rMp, .rTw, .rCal, .hostMem, .freeCount, .evu, .rings, .bus, .mbx, .islands, .counters, .tb, .fifos, .lanes, .tt, .refs, .dpll, .sw, .ft, .bf, .merges, .releases, .evd, .netRings, .selectors, .tw, .ctSeen, .mp] (taken c s) s1 ∧
      r = okReply ∧ s1.twinState = 0 ∧ s1.isF Reg.hstStatusActive = true ∧ s1.isF Reg.twStatusLinkUp = false ∧ s1.awake 61 = false ∧ s1.tw.hb = none ∧
      (s.twinState = 3 → s1.tw.mirrors = (taken c s).tw.mirrors.filter (fun m => mirrorRuns m (taken c s)))) ∧
  (∀ (c : Cmd) (s : State), Starts twTakeoverSpec c s → s.twinState = 3 → 
    ∃ s1, exec (.twTakeover c) s = .next (ended twTakeoverSpec c s s1 (okReply)) ∧ FrameOf [.rHst, .rMbx, .rTb, .rRs, .rPl, .rBf, .rEvd, .rCt, .rMp, .rTw, .hostMem, .freeCount, .evu, .rings, .bus, .mbx, .counters, .tb, .refs, .dpll, .sw, .ft, .bf, .merges, .releases, .evd, .tw, .mp] (taken c s) s1 ∧
      s1.twinState = (if partnerAlive s = true then 4 else 5) ∧ s1.isF Reg.hstStatusActive = true ∧ s1.getF Reg.twClaim = (max (s.getF Reg.twClaim) ((s.tw.hb.map (·.claim)).getD 0) + 1) % 2 ^ 32) ∧
  (∀ (c : Cmd) (s : State), Starts twTakeoverSpec c s → s.twinState ≠ 3 → 
    ∃ s1, exec (.twTakeover c) s = .next (ended twTakeoverSpec c s s1 (okReply)) ∧ FrameOf [.rHst, .rMbx, .rTb, .rRs, .rPl, .rBf, .rEvd, .rCt, .rMp, .rTw, .hostMem, .freeCount, .evu, .rings, .bus, .mbx, .counters, .tb, .refs, .dpll, .sw, .ft, .bf, .merges, .releases, .evd, .tw, .mp] (taken c s) s1 ∧
      s1 = taken c s) ∧
  (∀ (c : Cmd) (s : State), Starts twTakebackSpec c s → 
    ∃ s1, exec (.twTakeback c) s = .next (ended twTakebackSpec c s s1 (okReply)) ∧ FrameOf [.rHst, .rMbx, .rTb, .rRs, .rPl, .rBf, .rEvd, .rCt, .rMp, .rTw, .hostMem, .freeCount, .evu, .rings, .bus, .mbx, .counters, .tb, .refs, .dpll, .sw, .ft, .bf, .merges, .releases, .evd, .tw, .mp] (taken c s) s1 ∧
      s1.twinState = 4 ∧ s1.isF Reg.hstStatusActive = true ∧ s1.getF Reg.twClaim = (max (s.getF Reg.twClaim) ((s.tw.hb.map (·.claim)).getD 0) + 1) % 2 ^ 32) ∧
  (∀ (c : Cmd) (s : State), Starts twStatusSpec c s → 
    ∃ s1 r, exec (.twStatus c) s = .next (ended twStatusSpec c s s1 r) ∧ FrameOf [] (taken c s) s1 ∧
      s1 = taken c s ∧ r = okWith [(32, le 4 (s.regWord 0xB00000)), (36, le 4 (s.getF Reg.twMirrorSeq)), (40, le 8 (s.get64 Reg.twAlign)),
        (48, le 8 (s.get64 Reg.twDttOff)), (56, le 4 (s.getF Reg.twClaim)),
        (60, le 2 (match s.tw.wtrUntil with | some t => (t - s.dtt + 781249999) / 781250000 | none => 0))]) ∧
  (∀ (c : Cmd) (s : State), Starts twSetWtrSpec c s → 
    ∃ s1, exec (.twSetWtr c) s = .next (ended twSetWtrSpec c s s1 (okReply)) ∧ FrameOf [.rTw, .tw] (taken c s) s1 ∧
      s1.tw.wtrS = cu c 0 2 ∧ (s.tw.wtrUntil = none → s1 = { taken c s with tw := { (taken c s).tw with wtrS := cu c 0 2 } }) ∧
      (s.tw.wtrUntil.isSome = true → s.twinState = 3 → s.isF Reg.twStatusRevertive = true → countsPref s = true → s1.tw.wtrUntil = some (s.dtt + cu c 0 2 * 781250000)) ∧
      (s.tw.wtrUntil.isSome = true → s.twinState ≠ 3 ∨ s.isF Reg.twStatusRevertive = false ∨ countsPref s = false → s1.tw.wtrUntil = none) ∧ FieldsOf [Reg.twStatusWtrRun] (taken c s) s1)

/-- Heartbeats, time, mirrored commands, alignment, takeover and takeback of the twin run. What the twin link does to the machine. -/
def Obligations.TwinLinkAndTakeoverRun : Prop :=
  (∀ (s : State), twHears s = true → 15625 ≤ (s.dtt - s.tw.lastHb) * 2 → 
    ∃ t, exec .twHeartbeatTx s = .next t ∧ FrameOf [.tw] s t ∧
      t.tw.lastHb = s.dtt ∧ t.tw.sent.head? = some ⟨1, Config.twinPref % 2 = 1, spGet 0 s.tw.seqs 1, s.dtt, [(s.twinState : Int), s.qc 0, s.qc 1, s.getF Reg.twClaim, b2n (!s.innerLocked || !s.isF Reg.hstStatusReady), Config.twinPref % 2, Config.serial], []⟩) ∧
  (∀ (s : State), twHears s = false ∨ (s.dtt - s.tw.lastHb) * 2 < 15625 → 
    exec .twHeartbeatTx s = .next s) ∧
  (∀ (good : Bool) (state qcA qcB claim : Nat) (fault : Bool) (pref serial : Nat) (s : State), twHears s = false → 
    exec (.twHeartbeatRx good state qcA qcB claim fault pref serial) s = .next s) ∧
  (∀ (state qcA qcB claim : Nat) (fault : Bool) (pref serial : Nat) (s : State), twHears s = true → 
    exec (.twHeartbeatRx false state qcA qcB claim fault pref serial) s = .next (s.addSat Reg.twCrcErr 1)) ∧
  (∀ (state qcA qcB claim : Nat) (fault : Bool) (pref serial : Nat) (s : State), twHears s = true → 
    ∃ t, exec (.twHeartbeatRx true state qcA qcB claim fault pref serial) s = .next t ∧ FrameOf [.rHst, .rMbx, .rTb, .rRs, .rPl, .rBf, .rCt, .rMp, .rTw, .hostMem, .freeCount, .evu, .rings, .bus, .mbx, .counters, .tb, .refs, .dpll, .sw, .ft, .bf, .merges, .releases, .evd, .tw, .mp] s t ∧
      t.tw.hb = some ⟨s.dtt, state, qcA, qcB, claim, fault, pref, serial⟩ ∧ t.tw.faultFrom = (if fault then some (s.tw.faultFrom.getD s.dtt) else none) ∧
      t.isF Reg.twStatusPartPref = decide (pref = 1) ∧ t.isF Reg.twStatusStrapConflict = decide (pref = s.getF Reg.twStatusPref) ∧ t.isF Reg.twStatusLinkFault = false ∧
      t.getF Reg.twClaim = s.getF Reg.twClaim) ∧
  (∀ (state qcA qcB claim : Nat) (fault : Bool) (pref serial : Nat) (s : State), twHears s = true → s.twinState = 1 → 
    ∃ t, exec (.twHeartbeatRx true state qcA qcB claim fault pref serial) s = .next t ∧ FrameOf [.rHst, .rMbx, .rTb, .rRs, .rPl, .rBf, .rCt, .rMp, .rTw, .hostMem, .freeCount, .evu, .rings, .bus, .mbx, .counters, .tb, .refs, .dpll, .sw, .ft, .bf, .merges, .releases, .evd, .tw, .mp] s t ∧
      t.twinState = (if state = 4 ∨ state = 5 then 2 else if state = 1 then (if (if pref = s.getF Reg.twStatusPref then Config.serial < serial else s.isF Reg.twStatusPref = true) then 5 else 2) else 1)) ∧
  (∀ (state qcA qcB claim : Nat) (fault : Bool) (pref serial : Nat) (s : State), twHears s = true → s.twinState = 4 ∨ s.twinState = 5 → state = 4 ∨ state = 5 → 
    ∃ t, exec (.twHeartbeatRx true state qcA qcB claim fault pref serial) s = .next t ∧ FrameOf [.rHst, .rMbx, .rTb, .rRs, .rPl, .rBf, .rCt, .rMp, .rTw, .hostMem, .freeCount, .evu, .rings, .bus, .mbx, .counters, .tb, .refs, .dpll, .sw, .ft, .bf, .merges, .releases, .evd, .tw, .mp] s t ∧
      t.twinState = (if s.getF Reg.twClaim < claim ∨ (s.getF Reg.twClaim = claim ∧ ¬(if pref = s.getF Reg.twStatusPref then Config.serial < serial else s.isF Reg.twStatusPref = true)) then 2 else s.twinState)) ∧
  (∀ (state qcA qcB claim : Nat) (fault : Bool) (pref serial : Nat) (s : State), twHears s = true → s.twinState = 5 → state = 3 → 
    ∃ t, exec (.twHeartbeatRx true state qcA qcB claim fault pref serial) s = .next t ∧ FrameOf [.rHst, .rMbx, .rTb, .rRs, .rPl, .rBf, .rCt, .rMp, .rTw, .hostMem, .freeCount, .evu, .rings, .bus, .mbx, .counters, .tb, .refs, .dpll, .sw, .ft, .bf, .merges, .releases, .evd, .tw, .mp] s t ∧
      t.twinState = 4) ∧
  (∀ (state qcA qcB claim : Nat) (fault : Bool) (pref serial : Nat) (s : State), twHears s = true → s.twinState = 3 → s.isF Reg.twStatusAligned = true → 
    ∃ t, exec (.twHeartbeatRx true state qcA qcB claim fault pref serial) s = .next t ∧ FrameOf [.rHst, .rMbx, .rTb, .rRs, .rPl, .rBf, .rCt, .rMp, .rTw, .hostMem, .freeCount, .evu, .rings, .bus, .mbx, .counters, .tb, .refs, .dpll, .sw, .ft, .bf, .merges, .releases, .evd, .tw, .mp] s t ∧
      t.twinState = 3 ∧ (qcA < 256 → t.getF (Reg.tbDStatusQc 0) = qcA) ∧ (qcB < 256 → t.getF (Reg.tbDStatusQc 1) = qcB)) ∧
  (∀ (state qcA qcB claim : Nat) (fault : Bool) (pref serial : Nat) (s : State), twHears s = true → s.twinState ≠ 1 → ¬((s.twinState = 4 ∨ s.twinState = 5) ∧ (state = 4 ∨ state = 5)) → ¬(s.twinState = 5 ∧ state = 3) → 
    ∃ t, exec (.twHeartbeatRx true state qcA qcB claim fault pref serial) s = .next t ∧ FrameOf [.rHst, .rMbx, .rTb, .rRs, .rPl, .rBf, .rCt, .rMp, .rTw, .hostMem, .freeCount, .evu, .rings, .bus, .mbx, .counters, .tb, .refs, .dpll, .sw, .ft, .bf, .merges, .releases, .evd, .tw, .mp] s t ∧
      t.twinState = s.twinState) ∧
  (∀ (s : State), s.twinState = 4 ∨ s.twinState = 5 → s.tw.lastTime + 781250 ≤ s.dtt → 
    ∃ t, exec .twTimeTx s = .next t ∧ FrameOf [.tw] s t ∧
      t.tw.lastTime = s.dtt ∧
      t.tw.sent = (if s.isF Reg.twStatusLinkUp = true then (⟨2, Config.twinPref % 2 = 1, spGet 0 s.tw.seqs 2, s.dtt,
        [s.timeNow 0, s.stepc 0, (s.seg 0).rate, s.timeNow 1, s.stepc 1, (s.seg 1).rate, s.served], []⟩ :: s.tw.sent).take 8 else s.tw.sent)) ∧
  (∀ (s : State), (s.twinState ≠ 4 ∧ s.twinState ≠ 5) ∨ s.dtt < s.tw.lastTime + 781250 → 
    exec .twTimeTx s = .next s) ∧
  (∀ (good : Bool) (stamp here : Nat) (timeA timeB : Int) (stepA stepB : Nat) (rateA rateB : Int) (served : Nat) (s : State), twHears s = false → 
    exec (.twTimeRx good stamp here timeA timeB stepA stepB rateA rateB served) s = .next s) ∧
  (∀ (stamp here : Nat) (timeA timeB : Int) (stepA stepB : Nat) (rateA rateB : Int) (served : Nat) (s : State), twHears s = true → 
    exec (.twTimeRx false stamp here timeA timeB stepA stepB rateA rateB served) s = .next (s.addSat Reg.twCrcErr 1)) ∧
  (∀ (stamp here : Nat) (timeA timeB : Int) (stepA stepB : Nat) (rateA rateB : Int) (served : Nat) (s : State), twHears s = true → s.twinState = 2 → holds 0x0E01 s = true → stepBeyondGuard (timeA - s.timeAt 0 (here * 2 ^ 16)) s = false → stepBeyondGuard (timeB - s.timeAt 1 (here * 2 ^ 16)) s = false → 
    ∃ t, exec (.twTimeRx true stamp here timeA timeB stepA stepB rateA rateB served) s = .next t ∧ FrameOf [.rHst, .rGd, .rMbx, .rTb, .rRs, .rPl, .rBf, .rCt, .rMp, .rTw, .hostMem, .freeCount, .evu, .rings, .bus, .mbx, .counters, .tb, .refs, .dpll, .sw, .ft, .bf, .merges, .releases, .evd, .tw, .mp, .boot] s t ∧
      t.twinState = 3 ∧ (stamp < 2 ^ 62 → here < 2 ^ 62 → t.getI64 Reg.twDttOff = (stamp : Int) - here) ∧ t.mbx.held = none ∧
      (∃ x, s.dtt + 64 ≤ x ∧ spacedFrom 0 s ≤ x ∧ (t.dom 0).steps = (s.dom 0).steps ++ [⟨timeA - s.timeAt 0 (here * 2 ^ 16), x, true, false, some stepA⟩]) ∧
      (∃ x, s.dtt + 64 ≤ x ∧ spacedFrom 1 s ≤ x ∧ (t.dom 1).steps = (s.dom 1).steps ++ [⟨timeB - s.timeAt 1 (here * 2 ^ 16), x, true, false, some stepB⟩])) ∧
  (∀ (stamp here : Nat) (timeA timeB : Int) (stepA stepB : Nat) (rateA rateB : Int) (served : Nat) (s : State), twHears s = true → s.twinState = 2 → holds 0x0E01 s = true → stepBeyondGuard (timeA - s.timeAt 0 (here * 2 ^ 16)) s = true → 
    ∃ t, exec (.twTimeRx true stamp here timeA timeB stepA stepB rateA rateB served) s = .next t ∧ FrameOf [.rHst, .rGd, .rMbx, .rTb, .rRs, .rPl, .rBf, .rCt, .rMp, .rTw, .hostMem, .freeCount, .evu, .rings, .bus, .mbx, .counters, .tb, .refs, .dpll, .sw, .ft, .bf, .merges, .releases, .evd, .tw, .mp, .boot] s t ∧
      t = resumeHeld (failWith stLocked 0) (stepDenied (timeA - s.timeAt 0 (here * 2 ^ 16)) s) ∧ t.mbx.held = none ∧ t.twinState = 2) ∧
  (∀ (stamp here : Nat) (timeA timeB : Int) (stepA stepB : Nat) (rateA rateB : Int) (served : Nat) (s : State), twHears s = true → s.twinState = 2 → holds 0x0E01 s = true → stepBeyondGuard (timeA - s.timeAt 0 (here * 2 ^ 16)) s = false → stepBeyondGuard (timeB - s.timeAt 1 (here * 2 ^ 16)) s = true → 
    ∃ t, exec (.twTimeRx true stamp here timeA timeB stepA stepB rateA rateB served) s = .next t ∧ FrameOf [.rHst, .rGd, .rMbx, .rTb, .rRs, .rPl, .rBf, .rCt, .rMp, .rTw, .hostMem, .freeCount, .evu, .rings, .bus, .mbx, .counters, .tb, .refs, .dpll, .sw, .ft, .bf, .merges, .releases, .evd, .tw, .mp, .boot] s t ∧
      t = resumeHeld (failWith stLocked 0) (stepDenied (timeB - s.timeAt 1 (here * 2 ^ 16)) s) ∧ t.mbx.held = none ∧ t.twinState = 2) ∧
  (∀ (stamp here : Nat) (timeA timeB : Int) (stepA stepB : Nat) (rateA rateB : Int) (served : Nat) (s : State), twHears s = true → s.twinState = 3 → s.tw.offDue = false → 
    ∃ t, exec (.twTimeRx true stamp here timeA timeB stepA stepB rateA rateB served) s = .next t ∧ FrameOf [.rHst, .rGd, .rMbx, .rTb, .rRs, .rPl, .rBf, .rCt, .rMp, .rTw, .hostMem, .freeCount, .evu, .rings, .bus, .mbx, .counters, .tb, .refs, .dpll, .sw, .ft, .bf, .merges, .releases, .evd, .tw, .mp, .boot] s t ∧
      (stepA < 2 ^ 32 → t.getF (Reg.tbDStepc 0) = stepA) ∧ (stepB < 2 ^ 32 → t.getF (Reg.tbDStepc 1) = stepB) ∧ FieldsOf [Reg.tbDStepc 0, Reg.tbDStepc 1] s t ∧ t.tw = s.tw) ∧
  (∀ (stamp here : Nat) (timeA timeB : Int) (stepA stepB : Nat) (rateA rateB : Int) (served : Nat) (s : State), twHears s = true → s.twinState = 3 → s.tw.offDue = true → 
    ∃ t, exec (.twTimeRx true stamp here timeA timeB stepA stepB rateA rateB served) s = .next t ∧ FrameOf [.rHst, .rGd, .rMbx, .rTb, .rRs, .rPl, .rBf, .rCt, .rMp, .rTw, .hostMem, .freeCount, .evu, .rings, .bus, .mbx, .counters, .tb, .refs, .dpll, .sw, .ft, .bf, .merges, .releases, .evd, .tw, .mp, .boot] s t ∧
      (stepA < 2 ^ 32 → t.getF (Reg.tbDStepc 0) = stepA) ∧ (stepB < 2 ^ 32 → t.getF (Reg.tbDStepc 1) = stepB) ∧ (stamp < 2 ^ 62 → here < 2 ^ 62 → t.getI64 Reg.twDttOff = (stamp : Int) - here) ∧ t.tw = { s.tw with offDue := false }) ∧
  (∀ (stamp here : Nat) (timeA timeB : Int) (stepA stepB : Nat) (rateA rateB : Int) (served : Nat) (s : State), twHears s = true → s.twinState ≠ 3 → s.twinState ≠ 2 ∨ holds 0x0E01 s = false → 
    exec (.twTimeRx true stamp here timeA timeB stepA stepB rateA rateB served) s = .next s) ∧
  (∀ (good : Bool) (seq opcode tag instant : Nat) (s : State), twHears s = false → 
    exec (.twMirrorRx good seq opcode tag instant) s = .next s) ∧
  (∀ (seq opcode tag instant : Nat) (s : State), twHears s = true → 
    exec (.twMirrorRx false seq opcode tag instant) s = .next (s.addSat Reg.twCrcErr 1)) ∧
  (∀ (seq opcode tag instant : Nat) (s : State), twHears s = true → s.twinState = 3 → 
    ∃ t, exec (.twMirrorRx true seq opcode tag instant) s = .next t ∧ FrameOf [.rTw, .tw] s t ∧
      t.getF Reg.twMirrorSeq = (seq + 1) % 2 ^ 32 ∧ FieldsOf [Reg.twMirrorSeq] s t ∧
      t.tw = { s.tw with mirrors := s.tw.mirrors ++ [⟨seq, opcode, tag, if instant = 0 then none else some ((instant : Int) - s.getI64 Reg.twDttOff).toNat,
        decide (instant ≠ 0) && decide ((instant : Int) - s.getI64 Reg.twDttOff ≤ s.dtt)⟩] }) ∧
  (∀ (seq opcode tag instant : Nat) (s : State), twHears s = true → s.twinState ≠ 3 → 
    exec (.twMirrorRx true seq opcode tag instant) s = .next s) ∧
  (∀ (good : Bool) (seq status detail : Nat) (s : State), twHears s = false → 
    exec (.twAckRx good seq status detail) s = .next s) ∧
  (∀ (seq status detail : Nat) (s : State), twHears s = true → 
    exec (.twAckRx false seq status detail) s = .next (s.addSat Reg.twCrcErr 1)) ∧
  (∀ (seq status detail : Nat) (x : AckWait) (s : State), twHears s = true → s.mbx.ackWait = some x → x.seq = seq → (∃ a, (seq, a) ∈ s.tw.forwarded) → 
    ∃ t, exec (.twAckRx true seq status detail) s = .next t ∧ FrameOf [.rHst, .rMbx, .rTw, .hostMem, .evu, .rings, .bus, .mbx, .tw] s t ∧
      t = ackTaken x status (ackNote seq status detail s) ∧ t.mbx.ackWait = none ∧ ∀ y ∈ t.tw.forwarded, y.1 ≠ seq) ∧
  (∀ (seq status detail : Nat) (s : State), twHears s = true → (∀ x, s.mbx.ackWait = some x → ∀ y, s.tw.forwarded.find? (fun z => z.1 = x.seq) = some y → y.2 = none ∧ x.seq ≠ seq) → 
    exec (.twAckRx true seq status detail) s = .next (ackNote seq status detail s)) ∧
  (∀ (seq status detail : Nat) (x : AckWait) (y : Nat × Option (Nat × Nat)) (a : Nat × Nat) (s : State), twHears s = true → s.mbx.ackWait = some x → x.seq ≠ seq → s.tw.forwarded.find? (fun z => z.1 = x.seq) = some y → y.2 = some a → 
    exec (.twAckRx true seq status detail) s = .next (ackTaken x a.1 (ackNote seq status detail s))) ∧
  (∀ (x : AckWait) (s : State), s.mbx.ackWait = some x → x.finished + 781250 ≤ s.dtt → 
    ∃ t, exec .mirrorAckTimeout s = .next t ∧ FrameOf [.rHst, .rMbx, .hostMem, .evu, .rings, .bus, .mbx, .tw] s t ∧
      t.mbx.ackWait = none) ∧
  (∀ (s : State), (∀ x, s.mbx.ackWait = some x → s.dtt < x.finished + 781250) → 
    exec .mirrorAckTimeout s = .next s) ∧
  (∀ (good : Bool) (epoch block : Nat) (hash : Bytes) (s : State), twHears s = false → 
    exec (.twEvdBhRx good epoch block hash) s = .next s) ∧
  (∀ (epoch block : Nat) (hash : Bytes) (s : State), twHears s = true → 
    exec (.twEvdBhRx false epoch block hash) s = .next (s.addSat Reg.twCrcErr 1)) ∧
  (∀ (epoch block : Nat) (hash : Bytes) (s : State), twHears s = true → 
    ∃ t, exec (.twEvdBhRx true epoch block hash) s = .next t ∧ FrameOf [.rTw, .tw] s t ∧
      t = { s with tw := { s.tw with bh := some (epoch, block, hash) } }) ∧
  (∀ (good : Bool) (claim kind : Nat) (s : State), twHears s = false → 
    exec (.twClaimRx good claim kind) s = .next s) ∧
  (∀ (claim kind : Nat) (s : State), twHears s = true → 
    exec (.twClaimRx false claim kind) s = .next (s.addSat Reg.twCrcErr 1)) ∧
  (∀ (claim kind : Nat) (s : State), twHears s = true → s.twinState = 4 → s.getF Reg.twClaim < claim → kind = 2 ∨ (s.innerLocked = true ∧ s.isF Reg.hstStatusReady = true) → 
    ∃ t, exec (.twClaimRx true claim kind) s = .next t ∧ FrameOf [.rHst, .rMbx, .rTb, .rRs, .rPl, .rBf, .rCt, .rMp, .rTw, .hostMem, .freeCount, .evu, .rings, .bus, .mbx, .counters, .tb, .refs, .dpll, .sw, .ft, .bf, .merges, .releases, .evd, .tw, .mp] s t ∧
      t.twinState = 3 ∧ t.isF Reg.hstStatusActive = false ∧ t.tw.hb = s.tw.hb.map (fun h => { h with claim := claim }) ∧ t.tw.forwarded = [] ∧ t.mbx.ackWait = none) ∧
  (∀ (claim kind : Nat) (s : State), twHears s = true → s.twinState ≠ 4 ∨ claim ≤ s.getF Reg.twClaim ∨ (kind ≠ 2 ∧ (s.innerLocked = false ∨ s.isF Reg.hstStatusReady = false)) → 
    exec (.twClaimRx true claim kind) s = .next { s with tw := { s.tw with hb := s.tw.hb.map (fun h => { h with claim := claim }) } }) ∧
  (∀ (s : State), s.twinState = 1 → s.tw.entered + 7812500000 ≤ s.dtt → 
    ∃ t, exec .twLinkTimeout s = .next t ∧ FrameOf [.rHst, .rMbx, .rTb, .rRs, .rPl, .rBf, .rCt, .rMp, .rTw, .hostMem, .freeCount, .evu, .rings, .bus, .mbx, .counters, .tb, .refs, .dpll, .sw, .ft, .bf, .merges, .releases, .evd, .tw, .mp] s t ∧
      t.twinState = 5 ∧ t.isF Reg.hstStatusActive = true) ∧
  (∀ (s : State), s.twinState ≠ 1 ∨ s.dtt < s.tw.entered + 7812500000 → 
    exec .twLinkTimeout s = .next s) ∧
  (∀ (s : State), partnerAlive s = false → s.twinState = 4 → 
    ∃ t, exec .twHbMiss s = .next t ∧ FrameOf [.rHst, .rMbx, .rTb, .rRs, .rPl, .rBf, .rEvd, .rCt, .rMp, .rTw, .hostMem, .freeCount, .evu, .rings, .bus, .mbx, .counters, .tb, .refs, .dpll, .sw, .ft, .bf, .merges, .releases, .evd, .tw, .mp] s t ∧
      t.twinState = 5 ∧ t.mbx.ackWait = none ∧ t.tw.forwarded = []) ∧
  (∀ (s : State), partnerAlive s = false → s.twinState = 3 → s.isF Reg.twStatusTwclkOk = false → 
    ∃ t, exec .twHbMiss s = .next t ∧ FrameOf [.rHst, .rMbx, .rTb, .rRs, .rPl, .rBf, .rEvd, .rCt, .rMp, .rTw, .hostMem, .freeCount, .evu, .rings, .bus, .mbx, .counters, .tb, .refs, .dpll, .sw, .ft, .bf, .merges, .releases, .evd, .tw, .mp] s t ∧
      t.twinState = 5 ∧ t.getF Reg.twClaim = (max (s.getF Reg.twClaim) ((s.tw.hb.map (·.claim)).getD 0) + 1) % 2 ^ 32) ∧
  (∀ (s : State), partnerAlive s = false → s.twinState = 3 → s.isF Reg.twStatusTwclkOk = true → 
    ∃ t, exec .twHbMiss s = .next t ∧ FrameOf [.rHst, .rMbx, .rTb, .rRs, .rPl, .rBf, .rEvd, .rCt, .rMp, .rTw, .hostMem, .freeCount, .evu, .rings, .bus, .mbx, .counters, .tb, .refs, .dpll, .sw, .ft, .bf, .merges, .releases, .evd, .tw, .mp] s t ∧
      t.twinState = 3 ∧ t.isF Reg.twStatusLinkFault = true) ∧
  (∀ (s : State), partnerAlive s = true ∨ (s.twinState ≠ 3 ∧ s.twinState ≠ 4) ∨ (s.twinState = 3 ∧ s.isF Reg.twStatusTwclkOk = true ∧ s.isF Reg.twStatusLinkFault = true) → 
    exec .twHbMiss s = .next s) ∧
  (∀ (f : Nat) (s : State), s.tw.faultFrom = some f → s.twinState = 3 → f + 781250 ≤ s.dtt → 
    ∃ t, exec .twFaultTimeout s = .next t ∧ FrameOf [.rHst, .rMbx, .rTb, .rRs, .rPl, .rBf, .rEvd, .rCt, .rMp, .rTw, .hostMem, .freeCount, .evu, .rings, .bus, .mbx, .counters, .tb, .refs, .dpll, .sw, .ft, .bf, .merges, .releases, .evd, .tw, .mp] s t ∧
      t.twinState = 5 ∧ t.getF Reg.twClaim = (max (s.getF Reg.twClaim) ((s.tw.hb.map (·.claim)).getD 0) + 1) % 2 ^ 32) ∧
  (∀ (s : State), s.twinState ≠ 3 ∨ (∀ f, s.tw.faultFrom = some f → s.dtt < f + 781250) → 
    exec .twFaultTimeout s = .next s) ∧
  (∀ (s : State), s.isF Reg.twStatusTwclkOk = true → 
    ∃ t, exec .twTwclkLoss s = .next t ∧ FrameOf [.rHst, .rMbx, .rTb, .rRs, .rPl, .rBf, .rEvd, .rCt, .rMp, .rTw, .hostMem, .freeCount, .evu, .rings, .bus, .mbx, .counters, .tb, .refs, .dpll, .sw, .ft, .bf, .merges, .releases, .evd, .tw, .mp] s t ∧
      t.isF Reg.twStatusTwclkOk = false ∧ t.isF Reg.twStatusAligned = false ∧ t.twinState = (if s.twinState = 3 ∧ partnerAlive s = false then 5 else s.twinState)) ∧
  (∀ (s : State), s.isF Reg.twStatusTwclkOk = false → 
    exec .twTwclkLoss s = .next s) ∧
  (∀ (raw : Int) (s : State), s.awake 61 = true → s.twinState = 2 ∨ s.twinState = 3 → 
    ∃ t, exec (.twAlign raw) s = .next t ∧ FrameOf [.rHst, .rTb, .rRs, .rPl, .rBf, .rCt, .rMp, .rTw, .freeCount, .evu, .bus, .mbx, .counters, .tb, .refs, .dpll, .sw, .ft, .bf, .merges, .releases, .evd, .tw, .mp] s t ∧
      t.getI64 Reg.twAlign = twError raw s ∧ t.isF Reg.twStatusTwclkOk = true ∧ t.isF Reg.twStatusAligned =
      (if (twError raw s).natAbs * 1000 ≤ 50 * 65536 ∧ 4095 ≤ s.tw.inRun then true
       else if 200 * 65536 < (twError raw s).natAbs * 1000 ∧ 15 ≤ s.tw.outRun then false else s.isF Reg.twStatusAligned)) ∧
  (∀ (raw : Int) (s : State), s.awake 61 = true → s.twinState ≠ 0 → s.twinState ≠ 2 → s.twinState ≠ 3 → 
    exec (.twAlign raw) s = .next ((s.setB Reg.twStatusTwclkOk true).setI64 Reg.twAlign (twError raw s))) ∧
  (∀ (raw : Int) (s : State), s.twinState = 0 ∨ s.awake 61 = false → 
    exec (.twAlign raw) s = .next s) ∧
  (∀ (u : Nat) (s : State), s.tw.wtrUntil = some u → s.twinState = 3 → u ≤ s.dtt → s.tw.mirrors = [] → 
    ∃ t, exec .twWtrExpiry s = .next t ∧ FrameOf [.rHst, .rMbx, .rTb, .rRs, .rPl, .rBf, .rEvd, .rCt, .rMp, .rTw, .hostMem, .freeCount, .evu, .rings, .bus, .mbx, .counters, .tb, .refs, .dpll, .sw, .ft, .bf, .merges, .releases, .evd, .tw, .mp] s t ∧
      t.twinState = 4 ∧ t.getF Reg.twClaim = (max (s.getF Reg.twClaim) ((s.tw.hb.map (·.claim)).getD 0) + 1) % 2 ^ 32) ∧
  (∀ (s : State), s.tw.wtrUntil = none ∨ s.twinState ≠ 3 ∨ (∀ u, s.tw.wtrUntil = some u → s.dtt < u) ∨ s.tw.mirrors ≠ [] → 
    exec .twWtrExpiry s = .next s) ∧
  (∀ (s : State), s.isF Reg.twStatusLinkUp = true → 
    ∃ t, exec .twinLinkDown s = .next t ∧ FrameOf [.rHst, .rPts, .rSds, .rBf, .rFm, .rEr, .rCap, .rCt, .rMp, .rTw, .hostMem, .freeCount, .evu, .rings, .bus, .mbx, .counters, .tb, .fifos, .tt, .refs, .sw, .ft, .bf, .merges, .releases, .evd, .netRings, .selectors, .tw, .ctSeen, .mp, .lanes] s t ∧
      t.isF Reg.twStatusLinkUp = false ∧ t.isF (Reg.sdsStatusRxLock 48) = false ∧ t.twinState = s.twinState) ∧
  (∀ (s : State), s.isF Reg.twStatusLinkUp = false → 
    exec .twinLinkDown s = .next s)

/-- The counter commands of group 0x0F complete with their effects, and bandwidth windows end. The commands of group 0x0F and the end of a
bandwidth window. -/
def Obligations.CounterCommandsComplete : Prop :=
  (∀ (c : Cmd) (s : State), Starts ctClearSpec c s → 
    ∃ s1 r, exec (.ctClear c) s = .next (ended ctClearSpec c s s1 r) ∧ FrameOf [.rHst, .rBf, .rCt, .rMp, .freeCount, .evu, .bus, .mbx, .counters, .refs, .sw, .ft, .bf, .merges, .releases, .mp] (taken c s) s1 ∧
      r.status = stOk ∧ r.result = resultOf [(32, le 8 s.dtt)] ∧ (s.mp.errs = [] → s.mp.tracker = [] → s.mp.sticky = [] →
        r = okBuf [(32, le 8 s.dtt)] (if cbit c 8 0 = true then ((List.range (cu c 4 4)).map (fun k => le 8 (s.counter (cu c 0 4 + k)))).flatten else []) ∧
        (∀ k, s1.counter k = if cbit c 8 1 = false ∧ cu c 0 4 ≤ k ∧ k < cu c 0 4 + cu c 4 4 then 0 else s.counter k) ∧
        (∀ n j, n < 768 → j < 32 → bit (s1.getF (Reg.ctOvf n)) j =
          (bit (s.getF (Reg.ctOvf n)) j && !(decide (cu c 0 4 ≤ 32 * n + j) && decide (32 * n + j < cu c 0 4 + cu c 4 4)))))) ∧
  (∀ (c : Cmd) (s : State), Starts ctPresetSpec c s → 
    ∃ s1 r, exec (.ctPreset c) s = .next (ended ctPresetSpec c s s1 r) ∧ FrameOf [.rHst, .rBf, .rCt, .rMp, .freeCount, .evu, .bus, .mbx, .counters, .refs, .sw, .ft, .bf, .merges, .releases, .mp] (taken c s) s1 ∧
      r.status = stOk ∧ (s.mp.errs = [] → s.mp.tracker = [] → s.mp.sticky = [] → r = okWith [(32, le 8 s.dtt), (40, le 8 (s.counter (cu c 0 4)))] ∧
        (∀ k, s1.counter k = if k = cu c 0 4 then cu c 8 8 else s.counter k) ∧ bit (s1.getF (Reg.ctOvf (cu c 0 4 / 32))) (cu c 0 4 % 32) = false)) ∧
  (∀ (c : Cmd) (s : State), Starts ctSetThresholdSpec c s → cu c 0 1 = 0 → 
    ∃ s1, exec (.ctSetThreshold c) s = .next (ended ctSetThresholdSpec c s s1 (okReply)) ∧ FrameOf [.rCt, .bwFrom] (taken c s) s1 ∧
      s1 = (((taken c s).setF (Reg.ctThCfgSrcKind (cu c 1 1)) (cu c 2 1)).setF (Reg.ctThCfgIndex (cu c 1 1)) (cu c 4 4)).setF (Reg.ctThN (cu c 1 1)) (cu c 8 4)) ∧
  (∀ (c : Cmd) (s : State), Starts ctSetThresholdSpec c s → cu c 0 1 ≠ 0 → 
    ∃ s1, exec (.ctSetThreshold c) s = .next (ended ctSetThresholdSpec c s s1 (okReply)) ∧ FrameOf [.rCt, .bwFrom] (taken c s) s1 ∧
      s1.getF Reg.ctBwLong = cu c 4 4 ∧ s1.getF Reg.ctBwShort = cu c 8 4 ∧ s1.bwFrom % cu c 4 4 = 0 ∧ s.dtt ≤ s1.bwFrom ∧ s1.bwFrom < s.dtt + cu c 4 4 ∧
      FieldsOf [Reg.ctBwLong, Reg.ctBwShort] (taken c s) s1) ∧
  (∀ (c : Cmd) (s : State), Starts ctWindowMapSpec c s → 
    ∃ s1, exec (.ctWindowMap c) s = .next (ended ctWindowMapSpec c s s1 (okReply)) ∧ FrameOf [.rCt] (taken c s) s1 ∧
      (∀ m < cu c 2 2, s1.getF (Reg.ctWinMapIndex (cu c 0 2 + m)) = cu c (4 + 4 * m) 4 % 2 ^ 15 ∧
        s1.isF (Reg.ctWinMapEn (cu c 0 2 + m)) = bit (cu c (4 + 4 * m) 4) 31) ∧
      FieldsOf ((List.range (cu c 2 2)).map (fun m => Reg.ctWinMapIndex (cu c 0 2 + m)) ++ (List.range (cu c 2 2)).map (fun m => Reg.ctWinMapEn (cu c 0 2 + m))) (taken c s) s1) ∧
  (∀ (c : Cmd) (s : State), Starts ctLatencySampleSpec c s → 
    ∃ s1, exec (.ctLatencySample c) s = .next (ended ctLatencySampleSpec c s s1 (okReply)) ∧ FrameOf [.rCt, .ctSeen] (taken c s) s1 ∧
      s1.isF (Reg.ctLsCfgEn (cu c 0 1)) = cbit c 1 0 ∧ s1.isF (Reg.ctLsCfgDp (cu c 0 1)) = cbit c 1 1 ∧ s1.getF (Reg.ctLsCfgEgress (cu c 0 1)) = cu c 2 1 ∧
      s1.getF (Reg.ctLsN (cu c 0 1)) = cu c 4 4 ∧ s1.getF (Reg.ctLsIn0 (cu c 0 1)) = cu c 8 4 ∧ s1.getF (Reg.ctLsIn1 (cu c 0 1)) = cu c 12 2 ∧ spGet 0 s1.ctSeen (cu c 0 1) = 0 ∧
      s1.get64 (Reg.ctLsCount (cu c 0 1)) = (if cbit c 1 2 = true then 0 else s.get64 (Reg.ctLsCount (cu c 0 1))) ∧
      s1.get64 (Reg.ctLsSum (cu c 0 1)) = (if cbit c 1 2 = true then 0 else s.get64 (Reg.ctLsSum (cu c 0 1))) ∧
      s1.get64 (Reg.ctLsLast (cu c 0 1)) = (if cbit c 1 2 = true then 0 else s.get64 (Reg.ctLsLast (cu c 0 1))) ∧
      s1.get64 (Reg.ctLsMin (cu c 0 1)) = (if cbit c 1 2 = true then 2 ^ 64 - 1 else s.get64 (Reg.ctLsMin (cu c 0 1))) ∧
      s1.get64 (Reg.ctLsMax (cu c 0 1)) = (if cbit c 1 2 = true then 0 else s.get64 (Reg.ctLsMax (cu c 0 1))) ∧ s1.counters = s.counters) ∧
  (∀ (port dir octets peak slot : Nat) (s : State), port < 48 → dir < 2 → peak ≤ octets → slot < s.getF Reg.ctBwLong / s.getF Reg.ctBwShort → s.bwFrom + s.getF Reg.ctBwLong ≤ s.dtt / s.getF Reg.ctBwLong * s.getF Reg.ctBwLong → spGet 0 s.bwEnds (port * 2 + dir) < s.dtt / s.getF Reg.ctBwLong * s.getF Reg.ctBwLong → 
    ∃ t, exec (.bwWindowEnd port dir octets peak slot) s = .next t ∧ FrameOf [.rCt, .bwEnds] s t ∧
      t.get64 (Reg.ctBwBytes (port * 2 + dir)) = octets % 2 ^ 64 ∧ t.getF (Reg.ctBwPeak (port * 2 + dir)) = peak % 2 ^ 32 ∧
      t.get64 (Reg.ctBwPeakAt (port * 2 + dir)) = (s.dtt / s.getF Reg.ctBwLong * s.getF Reg.ctBwLong - s.getF Reg.ctBwLong + slot * s.getF Reg.ctBwShort) % 2 ^ 64 ∧
      t.getF (Reg.ctBwSeq (port * 2 + dir)) = (s.getF (Reg.ctBwSeq (port * 2 + dir)) + 1) % 2 ^ 32 ∧
      FieldsOf (pair (Reg.ctBwBytes (port * 2 + dir)) ++ pair (Reg.ctBwPeakAt (port * 2 + dir)) ++ [Reg.ctBwPeak (port * 2 + dir), Reg.ctBwSeq (port * 2 + dir)]) s t) ∧
  (∀ (port dir octets peak slot : Nat) (s : State), 48 ≤ port ∨ 2 ≤ dir ∨ octets < peak ∨ s.getF Reg.ctBwLong / s.getF Reg.ctBwShort ≤ slot ∨ s.dtt / s.getF Reg.ctBwLong * s.getF Reg.ctBwLong < s.bwFrom + s.getF Reg.ctBwLong ∨
      s.dtt / s.getF Reg.ctBwLong * s.getF Reg.ctBwLong ≤ spGet 0 s.bwEnds (port * 2 + dir) → 
    exec (.bwWindowEnd port dir octets peak slot) s = .next s)

/-- The memory-protection commands complete with their effects; write-back, expiry and merge buffer act. The commands and events of memory
protection. -/
def Obligations.MemoryProtectionCommandsComplete : Prop :=
  (∀ (c : Cmd) (s : State), Starts mpScrubSpec c s → 
    ∃ s1 e, exec (.mpScrub c) s = .next (stepped mpScrubSpec c s s1 e) ∧ FrameOf [.rHst, .rBf, .rCt, .rMp, .freeCount, .evu, .bus, .mbx, .counters, .refs, .sw, .ft, .bf, .merges, .releases, .mp] (begun mpScrubSpec c s) s1 ∧
      s1.isF Reg.mpStatusScrub = true ∧ s1.getF Reg.mpStatusScrubMem = (members (cu c 0 2) 13).headD 0 ∧ s1.mp.sums = [] ∧ s1.mp.list = [] ∧ s1.mp.listOvf = false ∧
      s1.mp.began = s.dtt ∧ s1.mp.errs = s.mp.errs ∧ s1.getF Reg.mpPeriodPeriodS = (if cu c 4 4 = 0 then s.getF Reg.mpPeriodPeriodS else cu c 4 4) ∧
      e = .more { firstRecord mpScrubSpec c s with work := members (cu c 0 2) 13, v := [(cu c 8 8 : Int), 0, 0, 0, ((members (cu c 0 2) 13).headD 0 : Int)], estimate := (members (cu c 0 2) 13).length + 1 }) ∧
  (∀ (c : Cmd) (s : State), Starts mpScrubSummarySpec c s → 
    ∃ s1 r, exec (.mpScrubSummary c) s = .next (ended mpScrubSummarySpec c s s1 r) ∧ FrameOf [] (taken c s) s1 ∧
      s1 = taken c s ∧ r = okBuf [(32, le 4 ((List.range 13).map (fun m => (s.memSum m).corr)).sum), (36, le 4 ((List.range 13).map (fun m => (s.memSum m).ue)).sum),
        (40, le 4 ((List.range 13).map (fun m => (s.memSum m).stuck)).sum), (44, le 4 ((List.range 13).map (fun m => (s.memSum m).wb)).sum),
        (48, le 8 s.mp.began), (56, le 4 s.mp.list.length), (60, le 4 (b2n (s.isF Reg.mpStatusScrub) + 2 * b2n s.mp.listOvf))]
      (((List.range 13).map (fun m => sumRecord m s)).flatten ++ (s.mp.list.map sumEntry).flatten)) ∧
  (∀ (c : Cmd) (s : State), Starts mpInjectSpec c s → cu c 1 1 = 0 → 
    ∃ s1, exec (.mpInject c) s = .next (ended mpInjectSpec c s s1 (okReply)) ∧ FrameOf [.rMp, .mp] (taken c s) s1 ∧
      s1.mp.sticky = spSet 0 s.mp.sticky (mpWord (cu c 0 1) (cu c 8 8)) 0 ∧ s1.mp.errs = s.mp.errs ∧ s1.getF Reg.mpStatusSticky = s1.mp.sticky.length % 256 ∧ FieldsOf [Reg.mpStatusSticky] (taken c s) s1) ∧
  (∀ (c : Cmd) (s : State), Starts mpInjectSpec c s → cu c 1 1 ≠ 0 → 
    ∃ s1, exec (.mpInject c) s = .next (ended mpInjectSpec c s s1 (okReply)) ∧ FrameOf [.rMp, .mp] (taken c s) s1 ∧
      s1.mp.errs = spSet 0 s.mp.errs (mpWord (cu c 0 1) (cu c 8 8)) (xorMask 72 (spGet 0 s.mp.errs (mpWord (cu c 0 1) (cu c 8 8))) (injectMask (cu c 1 1) (cu c 2 1))) ∧
      s1.mp.sticky = (if cbit c 3 0 = true then spSet 0 s.mp.sticky (mpWord (cu c 0 1) (cu c 8 8)) (maskOf (members (injectMask (cu c 1 1) (cu c 2 1)) 72 ++ members (spGet 0 s.mp.sticky (mpWord (cu c 0 1) (cu c 8 8))) 72)) else s.mp.sticky) ∧
      s1.getF Reg.mpStatusSticky = s1.mp.sticky.length % 256 ∧ FieldsOf [Reg.mpStatusSticky] (taken c s) s1) ∧
  (∀ (c : Cmd) (s : State), Starts mpReleaseQuarantineSpec c s → cu c 8 8 ≠ 2 ^ 64 - 1 → 
    ∃ s1 r, exec (.mpReleaseQuarantine c) s = .next (ended mpReleaseQuarantineSpec c s s1 r) ∧ FrameOf [.rHst, .rBf, .rMp, .evu, .bus, .bf, .mp] (taken c s) s1 ∧
      r = (if (locPasses (cu c 0 1) (cu c 8 8) s) = true then okWith [(32, le 4 1), (36, le 4 0)] else ⟨stRefused, 0x1003, resultOf [(32, le 4 0), (36, le 4 1)], []⟩) ∧
      (locsOut (cu c 0 1) s1).contains (cu c 8 8) = !(locPasses (cu c 0 1) (cu c 8 8) s)) ∧
  (∀ (c : Cmd) (s : State), Starts mpReleaseQuarantineSpec c s → cu c 8 8 = 2 ^ 64 - 1 → 
    ∃ s1 r, exec (.mpReleaseQuarantine c) s = .next (ended mpReleaseQuarantineSpec c s s1 r) ∧ FrameOf [.rHst, .rBf, .rMp, .evu, .bus, .bf, .mp] (taken c s) s1 ∧
      ∃ a b, r = okWith [(32, le 4 a), (36, le 4 b)] ∧ a + b = (locsOut (cu c 0 1) s).length ∧
        a = ((locsOut (cu c 0 1) s).filter (fun n => locPasses (cu c 0 1) n s && !ddrStuck (cu c 0 1) n s)).length) ∧
  (∀ (mem addr : Nat) (s : State), s.mp.tracker.any (fun e => e.word = (mpWord mem addr) && e.stage = 1) = true → 
    ∃ t, exec (.corrWriteback mem addr) s = .next t ∧ FrameOf [.rHst, .rMp, .evu, .bus, .mp] s t ∧
      spGet 0 t.mp.errs (mpWord mem addr) = spGet 0 s.mp.sticky (mpWord mem addr) ∧ (t.memSum mem).wb = (s.memSum mem).wb + 1 ∧
      t.mp.tracker = s.mp.tracker.map (fun e => if e.word = (mpWord mem addr) then { e with stage := 2 } else e)) ∧
  (∀ (mem addr : Nat) (s : State), s.mp.tracker.any (fun e => e.word = (mpWord mem addr) && e.stage = 1) = false → 
    exec (.corrWriteback mem addr) s = .next s) ∧
  (∀ (mem addr : Nat) (s : State), 
    ∃ t, exec (.trackerExpiry mem addr) s = .next t ∧ FrameOf [.rMp, .mp] s t ∧
      t.mp.tracker = s.mp.tracker.filter (fun e => !(e.word = (mpWord mem addr) && decide (e.first + s.getF Reg.mpPeriodPeriodS * 781250000 ≤ s.dtt))) ∧
      t.getF Reg.mpStatusTrackOcc = t.mp.tracker.length % 64 ∧ FieldsOf [Reg.mpStatusTrackOcc] s t) ∧
  (∀ (mem addr : Nat) (x : MergeEntry) (s : State), s.mp.merge.find? (fun e => e.word = (mpWord mem addr)) = some x → x.last + 32 ≤ s.dtt → x.bytes = 255 ∨ mpSeverity x.word (spGet 0 s.mp.errs x.word) ≠ 2 → 
    ∃ t, exec (.mergeBufferFlush mem addr) s = .next t ∧ FrameOf [.rHst, .rBf, .rCt, .rMp, .evu, .bus, .mbx, .counters, .refs, .sw, .ft, .bf, .merges, .releases, .mp] s t ∧
      t = mpWrite x.word { s with mp := { s.mp with merge := s.mp.merge.filter (fun y => y.word ≠ x.word) } } ∧ t.mp.merge = s.mp.merge.filter (fun y => y.word ≠ x.word)) ∧
  (∀ (mem addr : Nat) (x : MergeEntry) (s : State), s.mp.merge.find? (fun e => e.word = (mpWord mem addr)) = some x → x.last + 32 ≤ s.dtt → x.bytes ≠ 255 → mpSeverity x.word (spGet 0 s.mp.errs x.word) = 2 → 
    ∃ t, exec (.mergeBufferFlush mem addr) s = .next t ∧ FrameOf [.rHst, .rBf, .rCt, .rMp, .evu, .bus, .mbx, .counters, .refs, .sw, .ft, .bf, .merges, .releases, .mp] s t ∧
      t = mpLost x.word false { s with mp := { s.mp with merge := s.mp.merge.filter (fun y => y.word ≠ x.word) } }) ∧
  (∀ (mem addr : Nat) (s : State), (∀ x, s.mp.merge.find? (fun e => e.word = (mpWord mem addr)) = some x → s.dtt < x.last + 32) → 
    exec (.mergeBufferFlush mem addr) s = .next s)

/-- Calibration commands start their runs; parts are accepted at x_a or rejected leaving the record. The calibration commands of group 0x11
and what their runs do. -/
def Obligations.CalibrationRunsComplete : Prop :=
  (∀ (c : Cmd) (s : State), Starts calLaneSpec c s → cu c 0 1 < 48 ∨ s.awake 61 = true → 
    ∃ s1 e, exec (.calLane c) s = .next (stepped calLaneSpec c s s1 e) ∧ FrameOf [.rHst, .rMbx, .rTb, .rRs, .rPl, .rTt, .rPts, .rSds, .rSw, .rBf, .rFm, .rEr, .rCap, .rCt, .rMp, .rTw, .rCal, .hostMem, .freeCount, .evu, .rings, .bus, .mbx, .counters, .tb, .fifos, .lanes, .tt, .refs, .dpll, .em, .sw, .ft, .bf, .merges, .releases, .evd, .netRings, .selectors, .tw, .ctSeen, .mp, .cal, .boot] (begun calLaneSpec c s) s1 ∧
      s1.calRun (cu c 0 1) = some ⟨(cu c 0 1), (members (cu c 1 1) 3), 0, none, 0, (rateOf (s.mode (cu c 0 1))), 0, !s.innerLocked⟩ ∧ s1.isF Reg.calStatusRunning = true ∧
      e = .more { firstRecord calLaneSpec c s with work := [1], estimate := (members (cu c 1 1) 3).length + 1 }) ∧
  (∀ (c : Cmd) (s : State), Starts calLaneSpec c s → 48 ≤ cu c 0 1 → s.awake 61 = false → 
    ∃ s1 e, exec (.calLane c) s = .next (stepped calLaneSpec c s s1 e) ∧ FrameOf [.rHst, .rMbx, .rTb, .rRs, .rPl, .rTt, .rPts, .rSds, .rSw, .rBf, .rFm, .rEr, .rCap, .rCt, .rMp, .rTw, .rCal, .hostMem, .freeCount, .evu, .rings, .bus, .mbx, .counters, .tb, .fifos, .lanes, .tt, .refs, .dpll, .em, .sw, .ft, .bf, .merges, .releases, .evd, .netRings, .selectors, .tw, .ctSeen, .mp, .cal, .boot] (begun calLaneSpec c s) s1 ∧
      s1 = begun calLaneSpec c s ∧ e = .more (firstRecord calLaneSpec c s)) ∧
  (∀ (c : Cmd) (s : State), Starts calEvtinSpec c s → 
    ∃ s1 e, exec (.calEvtin c) s = .next (stepped calEvtinSpec c s s1 e) ∧ FrameOf [.rHst, .rMbx, .rTb, .rRs, .rPl, .rTt, .rPts, .rSds, .rSw, .rBf, .rFm, .rEr, .rCap, .rCt, .rMp, .rTw, .rCal, .hostMem, .freeCount, .evu, .rings, .bus, .mbx, .counters, .tb, .fifos, .lanes, .tt, .refs, .dpll, .em, .sw, .ft, .bf, .merges, .releases, .evd, .netRings, .selectors, .tw, .ctSeen, .mp, .cal, .boot] (begun calEvtinSpec c s) s1 ∧
      s1.calRun (64 + cu c 0 1) = some ⟨(64 + cu c 0 1), (members (cu c 1 1) 3), 0, none, 0, (rateOf (s.mode (64 + cu c 0 1))), 0, !s.innerLocked⟩ ∧ s1.isF Reg.calStatusRunning = true ∧
      e = .more { firstRecord calEvtinSpec c s with work := [1], estimate := (members (cu c 1 1) 3).length + 1 }) ∧
  (∀ (c : Cmd) (s : State), Starts calOutputSpec c s → 
    ∃ s1 e, exec (.calOutput c) s = .next (stepped calOutputSpec c s s1 e) ∧ FrameOf [.rHst, .rMbx, .rTb, .rRs, .rPl, .rTt, .rPts, .rSds, .rSw, .rBf, .rFm, .rEr, .rCap, .rCt, .rMp, .rTw, .rCal, .hostMem, .freeCount, .evu, .rings, .bus, .mbx, .counters, .tb, .fifos, .lanes, .tt, .refs, .dpll, .em, .sw, .ft, .bf, .merges, .releases, .evd, .netRings, .selectors, .tw, .ctSeen, .mp, .cal, .boot] (begun calOutputSpec c s) s1 ∧
      s1.calRun (128 + (members (cu c 0 2) 12).headD 0) = some ⟨(128 + (members (cu c 0 2) 12).headD 0), [0, 1], 0, none, 0, 0, 0, !s.innerLocked⟩ ∧ s1.isF Reg.calStatusRunning = true ∧
      e = .more { firstRecord calOutputSpec c s with work := members (cu c 0 2) 12, v := [0, 0, 0, 0], estimate := (members (cu c 0 2) 12).length + 1 }) ∧
  (∀ (c : Cmd) (s : State), Starts calReadRecordSpec c s → 
    ∃ s1 r, exec (.calReadRecord c) s = .next (ended calReadRecordSpec c s s1 r) ∧ FrameOf [] (taken c s) s1 ∧
      s1 = taken c s ∧ r = okBuf [(32, le 4 (recordBytes (cu c 0 1 * 64 + cu c 1 1) s).length)] (recordBytes (cu c 0 1 * 64 + cu c 1 1) s)) ∧
  (∀ (target later : Nat) (m : CalMeas) (r : CalRun) (part : Nat) (rest : List Nat) (code : Nat × Option Int) (s : State), s.calRun target = some r → r.parts = part :: rest → (s.calRec target).waiting = none → calShape target part m = true → calFault target part r.rate (r.lost || !s.innerLocked) (s.calRec target).vals.map m = some code → 
    ∃ t, exec (.calPartDone target m later) s = .next t ∧ FrameOf [.rHst, .rEm, .rPts, .rCal, .freeCount, .evu, .bus, .lanes, .calRecs, .cal] s t ∧
      t.calRec target = s.calRec target ∧ t.getF Reg.calStatusRejects = min (s.getF Reg.calStatusRejects + 1) (2 ^ 16 - 1) ∧
      (r.origin ≠ 0 → t.calRun target = none) ∧ (r.origin = 0 → (t.calRun target).map (·.rejected) = some (some (part, code.1)))) ∧
  (∀ (target later : Nat) (m : CalMeas) (r : CalRun) (part : Nat) (rest : List Nat) (s : State), s.calRun target = some r → r.parts = part :: rest → (s.calRec target).waiting = none → calShape target part m = true → calFault target part r.rate (r.lost || !s.innerLocked) (s.calRec target).vals.map m = none → 
    ∃ t, exec (.calPartDone target m later) s = .next t ∧ FrameOf [.rHst, .rEm, .rPts, .rCal, .freeCount, .evu, .bus, .lanes, .calRecs, .cal] s t ∧
      (t.calRec target).seq = ((s.calRec target).seq + 1) % 2 ^ 32 ∧ (t.calRec target).vals = (s.calRec target).vals ∧
      (t.calRec target).waiting = some (s.dtt + 64 + later, calWrite target part r.rate m (s.calRec target).vals)) ∧
  (∀ (target later : Nat) (m : CalMeas) (s : State), (s.calRec target).waiting.isSome = true ∨ s.calRun target = none ∨ (∃ r, s.calRun target = some r ∧ (r.parts = [] ∨ calShape target (r.parts.headD 0) m = false)) → 
    exec (.calPartDone target m later) s = .next s) ∧
  (∀ (target x : Nat) (v : CalVals) (y : Nat × Nat × Int × Int) (s : State), (s.calRec target).waiting = some (x, v) → s.cal.accepting.find? (fun q => q.1 = target) = some y → x ≤ s.dtt → 
    ∃ t, exec (.calAccept target) s = .next t ∧ FrameOf [.rHst, .rMbx, .rTb, .rRs, .rPl, .rEm, .rTt, .rPts, .rSds, .rSw, .rBf, .rFm, .rEr, .rCap, .rCt, .rMp, .rTw, .rCal, .hostMem, .freeCount, .evu, .rings, .bus, .mbx, .counters, .tb, .fifos, .lanes, .calRecs, .tt, .refs, .dpll, .sw, .ft, .bf, .merges, .releases, .evd, .netRings, .selectors, .tw, .ctSeen, .mp, .cal, .boot] s t ∧
      (t.calRec target).vals = v ∧ (t.calRec target).since = x ∧ (t.calRec target).waiting = none ∧ (t.calRec target).older = (s.calRec target).vals ∧
      t.cal.accepting = s.cal.accepting.filter (fun b => b.1 ≠ target)) ∧
  (∀ (target : Nat) (s : State), (s.calRec target).waiting = none ∨ s.cal.accepting.find? (fun q => q.1 = target) = none ∨ (∃ x v, (s.calRec target).waiting = some (x, v) ∧ s.dtt < x) → 
    exec (.calAccept target) s = .next s) ∧
  (∀ (temp : Int) (s : State), s.isF Reg.hstStatusReady = true → s.cal.deviceAt + 468750000000 ≤ s.dtt ∨ 80 ≤ (temp - s.cal.deviceTemp).natAbs → s.cal.runs.any (fun r => calKind r.target = 3) = false → 
    ∃ t, exec (.deviceCalAuto temp) s = .next t ∧ FrameOf [.rHst, .rMbx, .rTb, .rRs, .rPl, .rTt, .rPts, .rSds, .rSw, .rBf, .rFm, .rEr, .rCap, .rCt, .rMp, .rTw, .rCal, .hostMem, .freeCount, .evu, .rings, .bus, .mbx, .counters, .tb, .fifos, .lanes, .tt, .refs, .dpll, .em, .sw, .ft, .bf, .merges, .releases, .evd, .netRings, .selectors, .tw, .ctSeen, .mp, .cal, .boot] s t ∧
      t.cal.deviceAt = s.dtt ∧ t.cal.deviceTemp = temp ∧ ∀ d < 10, t.calRun (192 + d) = some ⟨192 + d, [0], 0, none, 0, 0, 2, !s.innerLocked⟩) ∧
  (∀ (temp : Int) (s : State), s.isF Reg.hstStatusReady = false ∨ (s.dtt < s.cal.deviceAt + 468750000000 ∧ (temp - s.cal.deviceTemp).natAbs < 80) ∨ s.cal.runs.any (fun r => calKind r.target = 3) = true → 
    exec (.deviceCalAuto temp) s = .next s)

/-- The firmware commands of group 0x12 complete with their effects. The firmware commands complete with their effects and frames. -/
def Obligations.FirmwareCommandsComplete : Prop :=
  (∀ (c : Cmd) (s : State), Starts fwWriteSlotSpec c s → cu c 8 4 ≠ 0 → 
    ∃ s1 e, exec (.fwWriteSlot c) s = .next (stepped fwWriteSlotSpec c s s1 e) ∧ FrameOf [.rHst, .rFw, .evu, .bus, .fw] (begun fwWriteSlotSpec c s) s1 ∧
      s1.fw.slots = s.fw.slots.set (cu c 0 1) { s.slot (cu c 0 1) with state := 1 } ∧ s1.getF (Reg.fwSlotStState (cu c 0 1)) = (s1.slot (cu c 0 1)).state % 8 ∧
      s1.fw.flash = (flashErase (slotBase (cu c 0 1)) (slotBase (cu c 0 1) + slotSize (cu c 0 1)) (slotBase (cu c 0 1) + cu c 4 4) (slotBase (cu c 0 1) + cu c 4 4 + cu c 8 4) s).fw.flash ∧
      e = .more { firstRecord fwWriteSlotSpec c s with v := [0], estimate := (cu c 8 4 + 255) / 256 + 1 }) ∧
  (∀ (c : Cmd) (s : State), Starts fwWriteSlotSpec c s → cu c 8 4 = 0 → cbit c 1 0 = false → 
    ∃ s1 e, exec (.fwWriteSlot c) s = .next (stepped fwWriteSlotSpec c s s1 e) ∧ FrameOf [.rHst, .rFw, .evu, .bus, .fw] (begun fwWriteSlotSpec c s) s1 ∧
      s1 = begun fwWriteSlotSpec c s ∧ e = .done ⟨stOk, 0, writeResult (cu c 0 1) 0 0 s, []⟩) ∧
  (∀ (c : Cmd) (s : State), Starts fwWriteSlotSpec c s → cu c 8 4 = 0 → cbit c 1 0 = true → 
    ∃ s1 e, exec (.fwWriteSlot c) s = .next (stepped fwWriteSlotSpec c s s1 e) ∧ FrameOf [.rHst, .rFw, .evu, .bus, .fw] (begun fwWriteSlotSpec c s) s1 ∧
      (slotFault (cu c 0 1) s = 0 → s1.fw.slots = s.fw.slots.set (cu c 0 1) ⟨2, hdr (flashRead (slotBase (cu c 0 1)) 512 s) 8 4, 0, hdr (flashRead (slotBase (cu c 0 1)) 512 s) 4 1⟩) ∧
      (slotFault (cu c 0 1) s ≠ 0 → s1.fw.slots = s.fw.slots.set (cu c 0 1) { s.slot (cu c 0 1) with state := 5 } ∧ s1.fw.lastFail = slotFault (cu c 0 1) s) ∧ s1.fw.flash = s.fw.flash ∧
      e = .done ⟨if slotFault (cu c 0 1) s = 0 then stOk else stIntegrity, slotFault (cu c 0 1) s, writeResult (cu c 0 1) 0 (slotFault (cu c 0 1) s) s1, []⟩) ∧
  (∀ (c : Cmd) (s : State), Starts fwApplyMoultSpec c s → moultFits s = false ∨ moultResult s = none → 
    ∃ s1 e, exec (.fwApplyMoult c) s = .next (stepped fwApplyMoultSpec c s s1 e) ∧ FrameOf [.rHst, .rFw, .evu, .bus, .fw] (begun fwApplyMoultSpec c s) s1 ∧
      s1 = begun fwApplyMoultSpec c s ∧ e = .done (failWith stIntegrity 7)) ∧
  (∀ (c : Cmd) (s : State), Starts fwApplyMoultSpec c s → moultFits s = true → (moultResult s).isSome = true → 
    ∃ s1 e, exec (.fwApplyMoult c) s = .next (stepped fwApplyMoultSpec c s s1 e) ∧ FrameOf [.rHst, .rFw, .evu, .bus, .fw] (begun fwApplyMoultSpec c s) s1 ∧
      s1.fw.slots = s.fw.slots.set (cu c 0 1) { s.slot (cu c 0 1) with state := 1 } ∧ s1.fw.flash = (flashErase (slotBase (cu c 0 1)) (slotBase (cu c 0 1) + slotSize (cu c 0 1)) (slotBase (cu c 0 1)) (slotBase (cu c 0 1) + min (((moultResult s).getD ([], [])).1 ++ ((moultResult s).getD ([], [])).2).length (slotSize (cu c 0 1))) s).fw.flash ∧
      e = .more { firstRecord fwApplyMoultSpec c s with v := [0], estimate := (min (((moultResult s).getD ([], [])).1 ++ ((moultResult s).getD ([], [])).2).length (slotSize (cu c 0 1)) + 255) / 256 + 1 }) ∧
  (∀ (c : Cmd) (s : State), Starts fwActivateSpec c s → (cu c 0 1) = runSlot s → 
    ∃ s1 r, exec (.fwActivate c) s = .next (ended fwActivateSpec c s s1 r) ∧ FrameOf [.rHst, .rFw, .evu, .bus, .fw] (taken c s) s1 ∧
      s1 = taken c s ∧ r = okReply) ∧
  (∀ (c : Cmd) (s : State), Starts fwActivateSpec c s → (cu c 0 1) ≠ runSlot s → 
    ∃ s1, exec (.fwActivate c) s = .next (ended fwActivateSpec c s s1 (deferred)) ∧ FrameOf [.rHst, .rFw, .evu, .bus, .fw] (taken c s) s1 ∧
      s1.fw.target = (cu c 0 1) ∧ s1.fw.prev = runSlot s ∧ s1.fw.auto = cbit c 2 0 ∧ s1.fw.healthS = cu c 4 2 ∧ s1.getF Reg.fwStateRun = s.getF Reg.fwStateRun ∧
      s1.getF Reg.fwStatePhase = (if cu c 1 1 = 1 then s.getF Reg.fwStatePhase else 1) ∧ s1.fw.next = (if cu c 1 1 = 1 then (cu c 0 1) else s.fw.next)) ∧
  (∀ (c : Cmd) (s : State), Starts fwConfirmSpec c s → 
    ∃ s1, exec (.fwConfirm c) s = .next (ended fwConfirmSpec c s s1 (okReply)) ∧ FrameOf [.rHst, .rFw, .evu, .bus, .fw] (taken c s) s1 ∧
      s1.getF Reg.fwStatePhase = 0 ∧ s1.getF Reg.fwHealthTrialRem = 0 ∧ s1.fw.next = s.fw.target ∧ s1.fw.resident = false ∧ s1.getF Reg.fwStateRun = s.getF Reg.fwStateRun ∧
      (s.fw.target < 2 → s.fw.prev < 2 → s.fw.slots.length = 5 → (s1.slot s.fw.target).state = 3 ∧
        (s.fw.prev ≠ s.fw.target → (s.slot s.fw.prev).state = 3 → (s1.slot s.fw.prev).state = 2))) ∧
  (∀ (c : Cmd) (s : State), Starts fwStatusSpec c s → 
    ∃ s1 r, exec (.fwStatus c) s = .next (ended fwStatusSpec c s s1 r) ∧ FrameOf [] (taken c s) s1 ∧
      s1 = taken c s ∧ r = okWith [(32, le 4 (s.regWord 0xE00000)), (36, le 4 (s.slot (runSlot s)).version), (40, le 4 (s.slot (s.getF Reg.fwStateEvdSlot)).version),
    (44, le 4 (s.regWord 0xE00040)), (48, le 8 s.fw.lastFreeze), (56, le 4 s.fw.lastHold), (60, le 4 s.fw.lastFail)]) ∧
  (∀ (c : Cmd) (s : State), Starts fwUpdateEvdSpec c s → 
    ∃ s1 e, exec (.fwUpdateEvd c) s = .next (stepped fwUpdateEvdSpec c s s1 e) ∧ FrameOf [.rHst, .rBf, .rEvd, .rCt, .rMp, .rFw, .hostMem, .freeCount, .evu, .bus, .mbx, .counters, .refs, .sw, .ft, .bf, .merges, .releases, .evd, .tw, .mp, .fw] (begun fwUpdateEvdSpec c s) s1 ∧
      ∀ f, slotFault (cu c 0 1) s = f →
        (f ≠ 0 → s1.fw.slots = s.fw.slots.set (cu c 0 1) { s.slot (cu c 0 1) with state := 5 } ∧ e = .done (failWith stIntegrity f)) ∧
        (f = 0 → s.evd.isOpen = true → s.isF Reg.gdSecStatusEvdError = false → s1.get64 Reg.evdBlock = (s.get64 Reg.evdBlock + 1) % 2 ^ 64 ∧ s1.evd.records.length = 1 ∧
          e = .more { firstRecord fwUpdateEvdSpec c s with v := [(s.get64 Reg.evdBlock : Int)], estimate := 2 }) ∧
        (f = 0 → s.evd.isOpen = false ∨ s.isF Reg.gdSecStatusEvdError = true → s1 = begun fwUpdateEvdSpec c s ∧ e = .more { firstRecord fwUpdateEvdSpec c s with v := [2 ^ 64 - 1], estimate := 2 }))

/-- Live handover, its trial, fallback, and the restart of Leinnar follow their phases. The phases of firmware changes. -/
def Obligations.HandoversTrialsAndRestartsRun : Prop :=
  (∀ (s : State), s.getF Reg.fwStatePhase = 1 → sectionsOk [1, 2] (slotBody s.fw.target s) = true → 
    ∃ t, exec .fwLoadDone s = .next t ∧ FrameOf [.rHst, .rFw, .freeCount, .evu, .bus, .fw] s t ∧
      t.getF Reg.fwStatePhase = 2 ∧ t.getF Reg.fwStateRun = s.getF Reg.fwStateRun ∧ t.fw.slots = s.fw.slots) ∧
  (∀ (s : State), s.getF Reg.fwStatePhase = 1 → sectionsOk [1, 2] (slotBody s.fw.target s) = false → 
    ∃ t, exec .fwLoadDone s = .next t ∧ FrameOf [.rHst, .rFw, .freeCount, .evu, .bus, .fw] s t ∧
      t.getF Reg.fwStatePhase = 0 ∧ t.getF Reg.fwStateRun = s.getF Reg.fwStateRun ∧ t.fw.slots = s.fw.slots.set s.fw.target { s.slot s.fw.target with state := 5 }) ∧
  (∀ (s : State), s.getF Reg.fwStatePhase ≠ 1 → 
    exec .fwLoadDone s = .next s) ∧
  (∀ (s : State), decisionPoint s = true → (s.getF Reg.fwStatePhase = 2 ∧ handoverWaits s = false) ∨ (s.getF Reg.fwStatePhase = 5 ∧ s.fw.back = true) → 
    ∃ t, exec .fwFreeze s = .next t ∧ FrameOf [.rHst, .rBf, .rCt, .rMp, .rFw, .freeCount, .evu, .bus, .mbx, .counters, .refs, .dpll, .sw, .ft, .bf, .merges, .releases, .evd, .mp, .fw] s t ∧
      t.getF Reg.fwStatePhase = 3 ∧ t.dpll.holdStart = some s.dtt ∧ t.fw.since = s.dtt ∧ t.fw.lastFreeze = s.dtt) ∧
  (∀ (s : State), decisionPoint s = false ∨ (s.getF Reg.fwStatePhase ≠ 2 ∧ s.getF Reg.fwStatePhase ≠ 5) ∨ (s.getF Reg.fwStatePhase = 2 ∧ handoverWaits s = true) ∨ (s.getF Reg.fwStatePhase = 5 ∧ s.fw.back = false) → 
    exec .fwFreeze s = .next s) ∧
  (∀ (s : State), s.getF Reg.fwStatePhase = 3 → s.dtt ≤ s.fw.since + 15625000 → s.fw.back = false → sectionsOk [0x10, 0x11, 0x12, 0x13] (slotBody s.fw.target s) = true → 
    ∃ t, exec .fwHandoverDone s = .next t ∧ FrameOf [.rHst, .rTb, .rRs, .rPl, .rBf, .rCt, .rMp, .rFw, .freeCount, .evu, .bus, .mbx, .counters, .tb, .refs, .dpll, .sw, .ft, .bf, .merges, .releases, .evd, .mp, .cal, .fw] s t ∧
      t.getF Reg.fwStateRun = s.fw.target % 2 ∧ t.getF Reg.fwStatePhase = 4 ∧ t.dpll.holdStart = none ∧ t.fw.resident = true ∧ t.fw.trialAt = s.dtt ∧
      t.getF Reg.fwHealthTrialRem = s.fw.healthS % 2 ^ 16 ∧ healthy t = true ∧ t.fw.slots = s.fw.slots.set s.fw.target { s.slot s.fw.target with state := 4 } ∧
      (s.mp.errs = [] → t.mbx.longOp = s.mbx.longOp.map (fun o => { o with resumed := true }))) ∧
  (∀ (s : State), s.getF Reg.fwStatePhase = 3 → s.dtt ≤ s.fw.since + 15625000 → s.fw.back = true → sectionsOk [0x10, 0x11, 0x12, 0x13] (slotBody s.fw.prev s) = true → 
    ∃ t, exec .fwHandoverDone s = .next t ∧ FrameOf [.rHst, .rTb, .rRs, .rPl, .rBf, .rCt, .rMp, .rFw, .freeCount, .evu, .bus, .mbx, .counters, .tb, .refs, .dpll, .sw, .ft, .bf, .merges, .releases, .evd, .mp, .cal, .fw] s t ∧
      t.getF Reg.fwStateRun = s.fw.prev % 2 ∧ t.getF Reg.fwStatePhase = 0 ∧ t.dpll.holdStart = none ∧ t.fw.resident = false ∧ t.fw.back = false) ∧
  (∀ (s : State), s.getF Reg.fwStatePhase = 3 → s.dtt ≤ s.fw.since + 15625000 → sectionsOk [0x10, 0x11, 0x12, 0x13] (slotBody (if s.fw.back then s.fw.prev else s.fw.target) s) = false → 
    ∃ t, exec .fwHandoverDone s = .next t ∧ FrameOf [.rHst, .rTb, .rRs, .rPl, .rBf, .rCt, .rMp, .rFw, .freeCount, .evu, .bus, .mbx, .counters, .tb, .refs, .dpll, .sw, .ft, .bf, .merges, .releases, .evd, .mp, .cal, .fw] s t ∧
      t = freezeFails s) ∧
  (∀ (s : State), s.getF Reg.fwStatePhase ≠ 3 ∨ s.fw.since + 15625000 < s.dtt → 
    exec .fwHandoverDone s = .next s) ∧
  (∀ (s : State), s.getF Reg.fwStatePhase = 2 → s.fw.since + 7812500000 ≤ s.dtt → 
    ∃ t, exec .fwWaitTimeout s = .next t ∧ FrameOf [.rHst, .rFw, .evu, .bus, .fw] s t ∧
      t.getF Reg.fwStatePhase = 0 ∧ t.getF Reg.fwStateRun = s.getF Reg.fwStateRun ∧ t.fw.slots = s.fw.slots) ∧
  (∀ (s : State), s.getF Reg.fwStatePhase ≠ 2 ∨ s.dtt < s.fw.since + 7812500000 → 
    exec .fwWaitTimeout s = .next s) ∧
  (∀ (s : State), s.getF Reg.fwStatePhase = 3 → s.fw.since + 15625000 ≤ s.dtt → s.fw.back = false → 
    ∃ t, exec .fwFreezeTimeout s = .next t ∧ FrameOf [.rHst, .rTb, .rRs, .rPl, .rBf, .rCt, .rMp, .rFw, .freeCount, .evu, .bus, .mbx, .counters, .tb, .refs, .dpll, .sw, .ft, .bf, .merges, .releases, .evd, .mp, .cal, .fw] s t ∧
      t = freezeFails s ∧ t.getF Reg.fwStatePhase = 0 ∧ t.getF Reg.fwStateRun = s.getF Reg.fwStateRun ∧ t.fw.slots = s.fw.slots.set s.fw.target { s.slot s.fw.target with state := 5 } ∧ t.dpll.holdStart = none ∧ t.isF Reg.hstStatusFwRun = s.isF Reg.hstStatusFwRun) ∧
  (∀ (s : State), s.getF Reg.fwStatePhase = 3 → s.fw.since + 15625000 ≤ s.dtt → s.fw.back = true → 
    ∃ t, exec .fwFreezeTimeout s = .next t ∧ FrameOf [.rHst, .rTb, .rRs, .rPl, .rBf, .rCt, .rMp, .rFw, .freeCount, .evu, .bus, .mbx, .counters, .tb, .refs, .dpll, .sw, .ft, .bf, .merges, .releases, .evd, .mp, .cal, .fw] s t ∧
      t = freezeFails s ∧ t.getF Reg.fwStatePhase = 0 ∧ t.isF Reg.hstStatusFwRun = false ∧ t.fw.starting = true ∧ t.fw.back = false) ∧
  (∀ (s : State), s.getF Reg.fwStatePhase ≠ 3 ∨ s.dtt < s.fw.since + 15625000 → 
    exec .fwFreezeTimeout s = .next s) ∧
  (∀ (x : Nat) (s : State), s.dpll.holdStart = some x → x + 15625000 < s.dtt → s.qcState s.served = 1 ∨ s.qcState s.served = 2 ∨ s.qcState s.served = 3 ∨ s.qcState s.served = 6 → 
    ∃ t, exec .heldSteerExpiry s = .next t ∧ FrameOf [.rHst, .rTb, .rRs, .rPl, .rBf, .rCt, .rMp, .freeCount, .evu, .bus, .mbx, .counters, .tb, .refs, .dpll, .sw, .ft, .bf, .merges, .releases, .evd, .mp] s t ∧
      t = enterHoldover s.served 5 s ∧ (s.served ≤ 1 → s.mp.errs = [] → t.qcState s.served = (if (holdoverMean s.served s).isSome = true then 4 else 0) ∧ t.served = s.served)) ∧
  (∀ (s : State), (∀ x, s.dpll.holdStart = some x → s.dtt ≤ x + 15625000) ∨ ¬(s.qcState s.served = 1 ∨ s.qcState s.served = 2 ∨ s.qcState s.served = 3 ∨ s.qcState s.served = 6) → 
    exec .heldSteerExpiry s = .next s) ∧
  (∀ (s : State), s.getF Reg.fwStatePhase = 4 → s.fw.trialAt + s.fw.healthS * 781250000 ≤ s.dtt → s.fw.auto = true → healthy s = true → 
    ∃ t, exec .fwTrialExpiry s = .next t ∧ FrameOf [.rHst, .rFw, .evu, .bus, .dpll, .mp, .fw] s t ∧
      t.getF Reg.fwStatePhase = 0 ∧ t.fw.next = s.fw.target ∧ t.fw.resident = false ∧ t.getF Reg.fwStateRun = s.getF Reg.fwStateRun) ∧
  (∀ (s : State), s.getF Reg.fwStatePhase = 4 → s.fw.trialAt + s.fw.healthS * 781250000 ≤ s.dtt → s.fw.auto = true → healthy s = false → 
    exec .fwTrialExpiry s = .next s) ∧
  (∀ (s : State), s.getF Reg.fwStatePhase = 4 → s.fw.trialAt + s.fw.healthS * 781250000 ≤ s.dtt → s.fw.auto = false → s.fw.resident = true → 
    ∃ t, exec .fwTrialExpiry s = .next t ∧ FrameOf [.rHst, .rFw, .evu, .bus, .dpll, .mp, .fw] s t ∧
      t.getF Reg.fwStatePhase = 5 ∧ t.fw.back = true ∧ t.fw.next = s.fw.prev ∧ t.fw.slots = s.fw.slots.set s.fw.target { s.slot s.fw.target with state := 5 } ∧ t.isF Reg.hstStatusFwRun = s.isF Reg.hstStatusFwRun) ∧
  (∀ (s : State), s.getF Reg.fwStatePhase = 4 → s.fw.trialAt + s.fw.healthS * 781250000 ≤ s.dtt → s.fw.auto = false → s.fw.resident = false → 
    ∃ t, exec .fwTrialExpiry s = .next t ∧ FrameOf [.rHst, .rFw, .evu, .bus, .dpll, .mp, .fw] s t ∧
      t.getF Reg.fwStatePhase = 0 ∧ t.isF Reg.hstStatusFwRun = false ∧ t.fw.starting = true ∧ t.fw.next = s.fw.prev ∧ t.fw.slots = s.fw.slots.set s.fw.target { s.slot s.fw.target with state := 5 }) ∧
  (∀ (s : State), s.getF Reg.fwStatePhase ≠ 4 ∨ s.dtt < s.fw.trialAt + s.fw.healthS * 781250000 → 
    exec .fwTrialExpiry s = .next s) ∧
  (∀ (n : Nat) (s : State), s.getF Reg.fwStatePhase = 4 → n < 4 → s.fw.resident = false → 
    ∃ t, exec (.fwHealthFail n) s = .next t ∧ FrameOf [.rHst, .rFw, .evu, .bus, .dpll, .mp, .fw] s t ∧
      t.getF Reg.fwStatePhase = 0 ∧ t.isF Reg.hstStatusFwRun = false ∧ t.fw.starting = true ∧ t.fw.next = s.fw.prev ∧ t.fw.slots = s.fw.slots.set s.fw.target { s.slot s.fw.target with state := 5 } ∧ t.isF ⟨0xE00040, n, 1⟩ = false) ∧
  (∀ (n : Nat) (s : State), s.getF Reg.fwStatePhase = 4 → n < 4 → s.fw.resident = true → 
    ∃ t, exec (.fwHealthFail n) s = .next t ∧ FrameOf [.rHst, .rFw, .evu, .bus, .dpll, .mp, .fw] s t ∧
      t.getF Reg.fwStatePhase = 5 ∧ t.fw.back = true ∧ t.fw.next = s.fw.prev ∧ t.fw.slots = s.fw.slots.set s.fw.target { s.slot s.fw.target with state := 5 } ∧ t.isF Reg.hstStatusFwRun = s.isF Reg.hstStatusFwRun ∧ t.isF ⟨0xE00040, n, 1⟩ = false) ∧
  (∀ (n : Nat) (s : State), s.getF Reg.fwStatePhase ≠ 4 ∨ 4 ≤ n → 
    exec (.fwHealthFail n) s = .next s) ∧
  (∀ (s : State), s.isF Reg.hstStatusFwRun = true → s.getF Reg.fwStatePhase = 4 → 
    ∃ t, exec .watchdogExpiry s = .next t ∧ FrameOf [.rHst, .rFw, .evu, .bus, .dpll, .mp, .fw] s t ∧
      t.getF Reg.fwStatePhase = 0 ∧ t.isF Reg.hstStatusFwRun = false ∧ t.fw.starting = true ∧ t.fw.next = s.fw.prev ∧ t.fw.slots = s.fw.slots.set s.fw.target { s.slot s.fw.target with state := 5 }) ∧
  (∀ (s : State), s.isF Reg.hstStatusFwRun = true → s.getF Reg.fwStatePhase ≠ 4 → 
    ∃ t, exec .watchdogExpiry s = .next t ∧ FrameOf [.rHst, .rFw, .evu, .bus, .dpll, .mp, .fw] s t ∧
      t = leinnarStop s ∧ t.isF Reg.hstStatusFwRun = false ∧ t.fw.starting = true ∧ t.dpll.holdStart.isSome = true) ∧
  (∀ (s : State), s.isF Reg.hstStatusFwRun = false → s.fw.starting = true → (s.slot s.fw.next).fails < 2 → 
    ∃ t, exec .watchdogExpiry s = .next t ∧ FrameOf [.rHst, .rFw, .evu, .bus, .dpll, .mp, .fw] s t ∧
      t.fw.slots = s.fw.slots.set s.fw.next { s.slot s.fw.next with fails := (s.slot s.fw.next).fails + 1 } ∧ t.fw.next = s.fw.next) ∧
  (∀ (s : State), s.isF Reg.hstStatusFwRun = false → s.fw.starting = true → 2 ≤ (s.slot s.fw.next).fails → 
    ∃ t, exec .watchdogExpiry s = .next t ∧ FrameOf [.rHst, .rFw, .evu, .bus, .dpll, .mp, .fw] s t ∧
      t.fw.lastFail = 0x104 ∧ t.fw.next = (if (s.slot (1 - s.fw.next)).state = 2 ∨ (s.slot (1 - s.fw.next)).state = 3 then 1 - s.fw.next else s.fw.next) ∧
      (s.fw.next < s.fw.slots.length → t.fw.slots = s.fw.slots.set s.fw.next { s.slot s.fw.next with state := 5, fails := (s.slot s.fw.next).fails + 1 }) ∧ t.fw.starting = true) ∧
  (∀ (s : State), s.isF Reg.hstStatusFwRun = false → s.fw.starting = false → 
    exec .watchdogExpiry s = .next s) ∧
  (∀ (s : State), s.isF Reg.hstStatusFwRun = true → (s.mp.restart = false ∧ s.fw.restartDue = true ∧ decisionPoint s = true) ∨ (s.mp.restart = true ∧ s.getF Reg.fwStatePhase ≠ 4) → 
    ∃ t, exec .leinnarRestart s = .next t ∧ FrameOf [.rHst, .rFw, .evu, .bus, .dpll, .mp, .fw] s t ∧
      t.isF Reg.hstStatusFwRun = false ∧ t.fw.starting = true ∧ t.getF Reg.fwStatePhase = 0 ∧ t.fw.restartDue = false ∧ t.mp.restart = false ∧ t.fw.back = false ∧ t.fw.resident = false ∧ t.dpll.holdStart.isSome = true ∧ t.fw.next = s.fw.next) ∧
  (∀ (s : State), s.isF Reg.hstStatusFwRun = true → s.mp.restart = true → s.getF Reg.fwStatePhase = 4 → 
    ∃ t, exec .leinnarRestart s = .next t ∧ FrameOf [.rHst, .rFw, .evu, .bus, .dpll, .mp, .fw] s t ∧
      t.getF Reg.fwStatePhase = 0 ∧ t.isF Reg.hstStatusFwRun = false ∧ t.fw.starting = true ∧ t.fw.next = s.fw.prev ∧ t.fw.slots = s.fw.slots.set s.fw.target { s.slot s.fw.target with state := 5 } ∧ t.fw.restartDue = false ∧ t.mp.restart = false) ∧
  (∀ (s : State), s.isF Reg.hstStatusFwRun = false ∨ (s.mp.restart = false ∧ (s.fw.restartDue = false ∨ decisionPoint s = false)) → 
    exec .leinnarRestart s = .next s) ∧
  (∀ (s : State), s.fw.starting = true → s.boot.inReset = false → s.boot.bootSel = false → 
    ∃ t, exec .leinnarRestartDone s = .next t ∧ FrameOf [.rHst, .rGd, .rMbx, .rTb, .rRs, .rPl, .rGn, .rTt, .rPts, .rSds, .rSw, .rFt, .rBf, .rFm, .rEr, .rCap, .rCt, .rMp, .rTw, .rCal, .rFw, .hostMem, .freeCount, .evu, .rings, .bus, .mbx, .islands, .counters, .tb, .fifos, .lanes, .tt, .refs, .dpll, .em, .sw, .ft, .bf, .merges, .releases, .evd, .netRings, .selectors, .tw, .ctSeen, .mp, .cal, .fw, .boot] s t ∧
      (startSlotOk s = true → t.isF Reg.hstStatusFwRun = true ∧ t.getF Reg.fwStateRun = s.fw.next % 2 ∧ t.fw.starting = false ∧ t.mbx.held = none ∧ t.dpll.holdStart = none ∧
        ((s.slot s.fw.next).state ≠ 3 → t.getF Reg.fwStatePhase = 4 ∧ t.fw.trialAt = s.dtt)) ∧
      (startSlotOk s = false → (s.slot s.fw.next).fails < 2 → t.fw.slots = s.fw.slots.set s.fw.next { s.slot s.fw.next with fails := (s.slot s.fw.next).fails + 1 } ∧
        t.isF Reg.hstStatusFwRun = s.isF Reg.hstStatusFwRun) ∧
      (startSlotOk s = false → 2 ≤ (s.slot s.fw.next).fails → t.fw.lastFail = 0x104 ∧ t.fw.next = (if (s.slot (1 - s.fw.next)).state = 2 ∨ (s.slot (1 - s.fw.next)).state = 3 then 1 - s.fw.next else s.fw.next) ∧
        (s.fw.next < s.fw.slots.length → t.fw.slots = s.fw.slots.set s.fw.next { s.slot s.fw.next with state := 5, fails := (s.slot s.fw.next).fails + 1 }) ∧ t.fw.starting = true)) ∧
  (∀ (s : State), s.fw.starting = false ∨ s.boot.inReset = true ∨ s.boot.bootSel = true → 
    exec .leinnarRestartDone s = .next s)

/-- The security commands of group 0x13 complete with their effects. The security commands complete with their effects and frames. -/
def Obligations.SecurityCommandsComplete : Prop :=
  (∀ (c : Cmd) (s : State), Starts secOwnerLockSpec c s → cu c 0 1 = 0 → s.sec.owner.hash = [] → 
    ∃ s1, exec (.secOwnerLock c) s = .next (ended secOwnerLockSpec c s s1 (okReply)) ∧ FrameOf [.rHst, .rGd, .rAo, .evu, .bus, .evd, .sec, .ao] (taken c s) s1 ∧
      s1.sec.owner = ⟨sha384 (slice c.payload 16 97), cu c 1 1 % 8, cu c 2 1⟩ ∧ s1.sec.ownerNv = s1.sec.owner ∧ s1.sec.svn = s.sec.svn ∧ s1.isF Reg.gdSecStatusOwnerLocked = true ∧ s1.ao = s.ao) ∧
  (∀ (c : Cmd) (s : State), Starts secOwnerLockSpec c s → cu c 0 1 = 4 → s.sec.owner.hash = [] → 
    ∃ s1, exec (.secOwnerLock c) s = .next (ended secOwnerLockSpec c s s1 (okReply)) ∧ FrameOf [.rHst, .rGd, .rAo, .evu, .bus, .evd, .sec, .ao] (taken c s) s1 ∧
      s1.ao.flags = 0 ∧ s1.ao.tamperTime = 0 ∧ s1.sec.tamperDue = [] ∧ s1.sec.owner = s.sec.owner) ∧
  (∀ (c : Cmd) (s : State), Starts secOwnerLockSpec c s → cu c 0 1 = 3 → 
    ∃ s1 r, exec (.secOwnerLock c) s = .next (ended secOwnerLockSpec c s s1 r) ∧ FrameOf [.rHst, .rGd, .rAo, .evu, .bus, .evd, .sec, .ao] (taken c s) s1 ∧
      s1.sec.owner = s.sec.owner ∧ (if cu c 4 4 < s.sec.svn ∨ (runningSvns s).any (fun v => decide (v < cu c 4 4)) = true then r = failWith stRefused 0x1302 ∧ s1.sec.svn = s.sec.svn
        else r = okReply ∧ s1.sec.svn = cu c 4 4 ∧ s1.getF Reg.gdSvnFloor = cu c 4 4)) ∧
  (∀ (c : Cmd) (s : State), Starts secOwnerLockSpec c s → cu c 0 1 = 1 ∨ cu c 0 1 = 2 → s.sec.owner.hash ≠ [] → 
    ∃ s1 r, exec (.secOwnerLock c) s = .next (ended secOwnerLockSpec c s s1 r) ∧ FrameOf [.rHst, .rGd, .rAo, .evu, .bus, .evd, .sec, .ao] (taken c s) s1 ∧
      s1.sec.nonce = (if (s.sec.nonce.map (·.1)) = some (cu c 8 8) then none else s.sec.nonce) ∧ (if ownerVerifies c s = false then r = failWith stIntegrity 0 ∧ s1.sec.owner = s.sec.owner
        else r = okReply ∧ s1.sec.ownerNv = s1.sec.owner ∧ s1.sec.owner = (if cu c 0 1 = 2 then ⟨[], 0, 0⟩ else { s.sec.owner with policy := cu c 1 1 % 8, tamper := cu c 2 1 }) ∧
          (cu c 0 1 = 1 → cbit c 1 3 = true → s1.ao.flags = 0 ∧ s1.ao.tamperTime = 0 ∧ s1.sec.tamperDue = [])) ∧ s1.evd = { s.evd with engineAwake := true }) ∧
  (∀ (c : Cmd) (s : State), Starts secOwnerLockSpec c s → ((cu c 0 1 = 0 ∨ cu c 0 1 = 4) ∧ s.sec.owner.hash ≠ []) ∨ ((cu c 0 1 = 1 ∨ cu c 0 1 = 2) ∧ s.sec.owner.hash = []) → 
    ∃ s1, exec (.secOwnerLock c) s = .next (ended secOwnerLockSpec c s s1 (failWith stRefused 0x1301)) ∧ FrameOf [.rHst, .rGd, .rAo, .evu, .bus, .evd, .sec, .ao] (taken c s) s1 ∧
      s1.sec.owner = s.sec.owner ∧ s1.sec.ownerNv = s.sec.ownerNv ∧ s1.sec.svn = s.sec.svn ∧ s1.ao = s.ao) ∧
  (∀ (c : Cmd) (s : State), Starts secGetIdentitySpec c s → 
    ∃ s1 r, exec (.secGetIdentity c) s = .next (ended secGetIdentitySpec c s s1 r) ∧ FrameOf [.freeCount, .sec] (taken c s) s1 ∧
      ∃ x, s1.sec.nonce = some (x, s.dtt) ∧ x < 2 ^ 64 ∧ s1.sec.drbgReqs = s.sec.drbgReqs + 1 ∧
      r = okBuf [(32, le 4 evdKeyId), (40, le 8 Config.serial), (48, le 8 x), (56, le 2 Config.certificate.length)]
        (record 96 [(0, Config.publicKey.take 65), (68, le 4 evdKeyId), (72, le 8 Config.serial), (80, le 2 Config.certificate.length)] ++ Config.certificate)) ∧
  (∀ (c : Cmd) (s : State), Starts secZeroiseSpec c s → 
    ∃ s1, exec (.secZeroise c) s = .next (ended secZeroiseSpec c s s1 (okWith [(32, le 8 (if s.evd.isOpen = true ∧ s.isF Reg.gdSecStatusEvdError = false then s.get64 Reg.evdBlock else 2 ^ 64 - 1))])) ∧ FrameOf [.rHst, .rGd, .rMbx, .rBf, .rEvd, .rCt, .rMp, .rTw, .hostMem, .freeCount, .evu, .rings, .bus, .mbx, .counters, .refs, .sw, .ft, .bf, .merges, .releases, .evd, .tw, .mp, .sec, .boot] (taken c s) s1 ∧
      s1.sec.zeroised = true ∧ s1.isF Reg.gdSecStatusZeroised = true ∧ s1.evd.isOpen = false ∧ s1.evd.waiting = [] ∧ s1.evd.signing = (if s.evd.isOpen = true ∧ s.isF Reg.gdSecStatusEvdError = false then [] else s.evd.signing) ∧
      s1.sec.owner = s.sec.owner ∧ s1.sec.svn = s.sec.svn ∧ s1.evd.epoch = s.evd.epoch) ∧
  (∀ (c : Cmd) (s : State), Starts secSelfTestSpec c s → 
    ∃ s1 e, exec (.secSelfTest c) s = .next (stepped secSelfTestSpec c s s1 e) ∧ FrameOf [.rHst, .rGd, .rBf, .rEvd, .rCt, .rMp, .freeCount, .evu, .bus, .mbx, .counters, .refs, .sw, .ft, .bf, .merges, .releases, .evd, .mp] (begun secSelfTestSpec c s) s1 ∧
      s1 = wakeEngine ((begun secSelfTestSpec c s).setB Reg.gdSecStatusSelftestRun true) ∧ e = .more { firstRecord secSelfTestSpec c s with v := [1], estimate := 2 }) ∧
  (∀ (c : Cmd) (s : State), Starts secDrbgReadSpec c s → 
    ∃ s1 r, exec (.secDrbgRead c) s = .next (ended secDrbgReadSpec c s s1 r) ∧ FrameOf [.freeCount, .sec] (taken c s) s1 ∧
      ∃ bs : Bytes, bs.length = cu c 0 2 ∧ r = (if cu c 0 2 ≤ 32 then okWith [(32, bs)] else okBuf [] bs) ∧ s1.sec.drbgReqs = s.sec.drbgReqs + 1)

/-- Tamper inputs, self-test failures, reseeding, a low battery, and the always-on domain's anchor act. The security and always-on events. -/
def Obligations.TamperSelfTestsAndAnchorAct : Prop :=
  (∀ (n tick : Nat) (s : State), n < 2 → bit s.ao.flags n = true → 
    ∃ t, exec (.tamperActive n tick) s = .next t ∧ FrameOf [.rHst, .rGd, .rMbx, .rBf, .rEvd, .rCt, .rMp, .rTw, .rAo, .hostMem, .freeCount, .evu, .rings, .bus, .mbx, .counters, .refs, .sw, .ft, .bf, .merges, .releases, .evd, .tw, .mp, .sec, .ao, .boot] s t ∧
      (if n = 0 then t.ao.count0 = min 255 (s.ao.count0 + 1) ∧ t.ao.count1 = s.ao.count1 else t.ao.count1 = min 255 (s.ao.count1 + 1) ∧ t.ao.count0 = s.ao.count0) ∧ bit t.ao.flags n = true ∧ bit t.ao.flags (1 - n) = bit s.ao.flags (1 - n) ∧ t.sec = s.sec) ∧
  (∀ (n tick : Nat) (s : State), n < 2 → bit s.ao.flags n = false → s.boot.inReset = true → 
    ∃ t, exec (.tamperActive n tick) s = .next t ∧ FrameOf [.rHst, .rGd, .rMbx, .rBf, .rEvd, .rCt, .rMp, .rTw, .rAo, .hostMem, .freeCount, .evu, .rings, .bus, .mbx, .counters, .refs, .sw, .ft, .bf, .merges, .releases, .evd, .tw, .mp, .sec, .ao, .boot] s t ∧
      (if n = 0 then t.ao.count0 = min 255 (s.ao.count0 + 1) ∧ t.ao.count1 = s.ao.count1 else t.ao.count1 = min 255 (s.ao.count1 + 1) ∧ t.ao.count0 = s.ao.count0) ∧ bit t.ao.flags n = true ∧ bit t.ao.flags (1 - n) = bit s.ao.flags (1 - n) ∧ t.sec.tamperDue = s.sec.tamperDue ++ [n] ∧ t.sec.zeroised = s.sec.zeroised ∧ (s.ao.flags = 0 → t.ao.tamperTime = tick)) ∧
  (∀ (n tick : Nat) (s : State), n < 2 → bit s.ao.flags n = false → s.boot.inReset = false → 
    ∃ t, exec (.tamperActive n tick) s = .next t ∧ FrameOf [.rHst, .rGd, .rMbx, .rBf, .rEvd, .rCt, .rMp, .rTw, .rAo, .hostMem, .freeCount, .evu, .rings, .bus, .mbx, .counters, .refs, .sw, .ft, .bf, .merges, .releases, .evd, .tw, .mp, .sec, .ao, .boot] s t ∧
      (if n = 0 then t.ao.count0 = min 255 (s.ao.count0 + 1) ∧ t.ao.count1 = s.ao.count1 else t.ao.count1 = min 255 (s.ao.count1 + 1) ∧ t.ao.count0 = s.ao.count0) ∧ bit t.ao.flags n = true ∧ bit t.ao.flags (1 - n) = bit s.ao.flags (1 - n) ∧ t.sec.zeroised = (s.sec.zeroised || decide (tamperAction n s = 2)) ∧ (s.ao.flags = 0 → t.ao.tamperTime = tick)) ∧
  (∀ (n tick : Nat) (s : State), 2 ≤ n → 
    exec (.tamperActive n tick) s = .next s) ∧
  (∀ (test : Nat) (s : State), test = 7 ∨ test = 8 → s.isF Reg.gdSecStatusZeroised = false → 
    ∃ t, exec (.selftestFailure test) s = .next t ∧ FrameOf [.rHst, .rGd, .rBf, .rCt, .rMp, .freeCount, .evu, .bus, .mbx, .counters, .refs, .sw, .ft, .bf, .merges, .releases, .evd, .mp] s t ∧
      t.isF Reg.gdSecStatusEvdError = true ∧ t.evd.waiting = [] ∧ t.evd.records = s.evd.records) ∧
  (∀ (test : Nat) (s : State), (test ≠ 7 ∧ test ≠ 8) ∨ s.isF Reg.gdSecStatusZeroised = true → 
    exec (.selftestFailure test) s = .next s) ∧
  (∀ (s : State), 2 ^ 20 ≤ s.sec.drbgReqs ∨ s.sec.drbgAt + 67500000000000 ≤ s.dtt → 
    ∃ t, exec .drbgReseed s = .next t ∧ FrameOf [.sec] s t ∧
      t = { s with sec := { s.sec with drbgReqs := 0, drbgAt := s.dtt } }) ∧
  (∀ (s : State), s.sec.drbgReqs < 2 ^ 20 → s.dtt < s.sec.drbgAt + 67500000000000 → 
    exec .drbgReseed s = .next s) ∧
  (∀ (mv : Nat) (s : State), mv < 1750 → s.isF Reg.gdSecStatusVbatLow = false → s.boot.inReset = false → 
    ∃ t, exec (.secVbatLow mv) s = .next t ∧ FrameOf [.rHst, .rGd, .evu, .bus] s t ∧
      t.isF Reg.gdSecStatusVbatLow = true) ∧
  (∀ (mv : Nat) (s : State), 1750 ≤ mv ∨ s.isF Reg.gdSecStatusVbatLow = true ∨ s.boot.inReset = true → 
    exec (.secVbatLow mv) s = .next s) ∧
  (∀ (s : State), s.boot.inReset = true → 
    ∃ t, exec .aoContentsLost s = .next t ∧ FrameOf [.rGd, .rAo, .sec, .ao] s t ∧
      t.ao.lost = true ∧ t.ao.anchorValid = false ∧ t.ao.flags = 0 ∧ t.ao.tick = 0 ∧ t.sec.owner = ⟨[], 0, 0⟩ ∧ t.sec.ownerNv = s.sec.ownerNv ∧ t.sec.tamperDue = []) ∧
  (∀ (s : State), s.boot.inReset = false → 
    exec .aoContentsLost s = .next s) ∧
  (∀ (s : State), 
    ∃ t, exec .aoXtalStop s = .next t ∧ FrameOf [.rAo, .ao] s t ∧
      t.ao = { s.ao with xtalOk := false, anchorValid := false } ∧ t.isF Reg.aoStatusXtalOk = false ∧ t.isF Reg.aoStatusAnchorValid = false) ∧
  (∀ (tick : Nat) (s : State), s.boot.inReset = false → s.boot.opened = true → s.ao.xtalOk = true → s.qcState s.served = 2 ∨ s.qcState s.served = 3 ∨ s.qcState s.served = 6 ∨ s.qcState s.served = 4 → s.isF (Reg.tbDStatusAlignNeeded s.served) = false → s.timeNow s.served % 65536000000000 ≤ 1000000000 ∨ 65534999000000 ≤ s.timeNow s.served % 65536000000000 → s.ao.tick ≤ tick → 
    ∃ t, exec (.aoAnchorWrite tick) s = .next t ∧ FrameOf [.rAo, .ao] s t ∧
      t.ao.anchor = ⟨tick, ft96 (s.timeNow s.served), (s.ao.anchor.seq + 1) % 2 ^ 32⟩ ∧ t.ao.anchorOld = s.ao.anchor ∧ t.ao.anchorValid = true ∧ t.isF Reg.aoStatusAnchorValid = true) ∧
  (∀ (tick : Nat) (s : State), s.boot.inReset = true ∨ s.boot.opened = false ∨ s.ao.xtalOk = false ∨ ¬(s.qcState s.served = 2 ∨ s.qcState s.served = 3 ∨ s.qcState s.served = 6 ∨ s.qcState s.served = 4) ∨
      s.isF (Reg.tbDStatusAlignNeeded s.served) = true ∨ (1000000000 < s.timeNow s.served % 65536000000000 ∧ s.timeNow s.served % 65536000000000 < 65534999000000) ∨ tick < s.ao.tick → 
    exec (.aoAnchorWrite tick) s = .next s)

/-- Main reset returns the device to its reset state but for what is kept, and start-up follows its steps. Main reset, its release, the
first segments, READY and the TAP reset. -/
def Obligations.ResetAndStartUpFollowTheirOrder : Prop :=
  (∀ (cause : Nat) (s : State), cause = 1 ∨ cause = 2 ∨ cause = 4 → 
    ∃ t, exec (.mainResetAssert cause) s = .next t ∧
      t.boot.cause = (if s.boot.inReset = true then min s.boot.cause (cause) else cause) ∧ t.boot.inReset = true ∧ t.dtt = 0 ∧ t.pending = s.pending ∧ t.hostMem = s.hostMem ∧ t.mbx = State.reset.mbx ∧ t.counters = [] ∧ t.tb = State.reset.tb ∧ t.fw.flash = s.fw.flash ∧
      t.fw.slots = s.fw.slots ∧ t.fw.next = s.fw.next ∧ t.evd.epoch = s.evd.epoch ∧ t.evd.store = [] ∧ t.sec.owner = s.sec.owner ∧ t.sec.svn = s.sec.svn ∧ t.sec.zeroised = s.sec.zeroised ∧ t.ao = s.ao ∧
      ∀ f, regPart f.addr ≠ 1 → regPart f.addr ≠ 21 → t.getF f = State.reset.getF f) ∧
  (∀ (x : Nat) (s : State), s.boot.hstResetAt = some x → x + 7813 ≤ s.dtt → 
    ∃ t, exec (.mainResetAssert 3) s = .next t ∧
      t.boot.cause = (if s.boot.inReset = true then min s.boot.cause (3) else 3) ∧ t.boot.inReset = true ∧ t.dtt = 0 ∧ t.pending = s.pending ∧ t.hostMem = s.hostMem ∧ t.mbx = State.reset.mbx ∧ t.counters = [] ∧ t.tb = State.reset.tb ∧ t.fw.flash = s.fw.flash ∧
      t.fw.slots = s.fw.slots ∧ t.fw.next = s.fw.next ∧ t.evd.epoch = s.evd.epoch ∧ t.evd.store = [] ∧ t.sec.owner = s.sec.owner ∧ t.sec.svn = s.sec.svn ∧ t.sec.zeroised = s.sec.zeroised ∧ t.ao = s.ao ∧
      ∀ f, regPart f.addr ≠ 1 → regPart f.addr ≠ 21 → t.getF f = State.reset.getF f) ∧
  (∀ (cause : Nat) (s : State), cause ≠ 1 → cause ≠ 2 → cause ≠ 4 → cause ≠ 3 ∨ (∀ x, s.boot.hstResetAt = some x → s.dtt < x + 7813) → 
    exec (.mainResetAssert cause) s = .next s) ∧
  (∀ (s : State), 
    ∃ t, exec .thermalReset s = .next t ∧
      t.boot.cause = (if s.boot.inReset = true then min s.boot.cause (4) else 4) ∧ t.boot.inReset = true ∧ t.dtt = 0 ∧ t.pending = s.pending ∧ t.hostMem = s.hostMem ∧ t.mbx = State.reset.mbx ∧ t.counters = [] ∧ t.tb = State.reset.tb ∧ t.fw.flash = s.fw.flash ∧
      t.fw.slots = s.fw.slots ∧ t.fw.next = s.fw.next ∧ t.evd.epoch = s.evd.epoch ∧ t.evd.store = [] ∧ t.sec.owner = s.sec.owner ∧ t.sec.svn = s.sec.svn ∧ t.sec.zeroised = s.sec.zeroised ∧ t.ao = s.ao ∧
      ∀ f, regPart f.addr ≠ 1 → regPart f.addr ≠ 21 → t.getF f = State.reset.getF f) ∧
  (∀ (b : BootIn) (s : State), s.boot.inReset = true → 
    ∃ t, exec (.mainResetRelease b) s = .next t ∧
      t.boot.inReset = false ∧ t.dtt = 0 ∧ t.boot.aoLost = s.ao.lost ∧ t.ao.lost = false ∧ t.sec.owner = (if s.ao.lost = true then s.sec.ownerNv else s.sec.owner) ∧
      t.fw.starting = !t.boot.bootSel ∧ (b.programmed = false → t.fw.flash = s.fw.flash ∧ t.fw.slots = s.fw.slots) ∧ t.isF Reg.hstStatusReady = false ∧ t.isF Reg.hstStatusFwRun = false ∧
      t.pending = s.pending ∧ t.hostMem = s.hostMem ∧ t.mbx = State.reset.mbx ∧ t.tb = State.reset.tb ∧ t.counters = [] ∧ t.evd.epoch = s.evd.epoch ∧ t.sec.svn = s.sec.svn ∧
      t.dpll.searchAll = true ∧ t.isF Reg.plStatusSearch = true ∧ t.boot.board = boardOf (recordRegion t) ∧ t.boot.cfgImage = isImage (recordRegion t) ∧
      t.boot.image = (if isImage (recordRegion t) then (imageSections (recordRegion t)).flatMap (fun e => sectionCommands e.1 e.2) else []) ∧
      t.getF Reg.aoStatusCause = s.boot.cause % 8 ∧ t.isF Reg.aoStatusAoLost = s.ao.lost) ∧
  (∀ (b : BootIn) (s : State), s.boot.inReset = false → 
    exec (.mainResetRelease b) s = .next s) ∧
  (∀ (tick : Nat) (test : StartTests) (s : State), s.boot.inReset = false → s.boot.opened = false → s.dpll.everLocked = true → 
    ∃ t, exec (.firstSegmentOpen tick test) s = .next t ∧ FrameOf [.rHst, .rGd, .rMbx, .rTb, .rBf, .rEvd, .rCt, .rMp, .rTw, .rAo, .hostMem, .freeCount, .evu, .rings, .bus, .mbx, .counters, .tb, .refs, .sw, .ft, .bf, .merges, .releases, .evd, .tw, .mp, .sec, .ao, .boot] s t ∧
      t.boot.opened = true ∧ (t.seg 0).x = s.now80 ∧ (t.seg 1).x = s.now80 ∧ (t.seg 0).t = startTime tick s ∧ (t.seg 1).t = startTime tick s ∧ (t.seg 0).rate = 0 ∧
      (test.words = [] → test.checker = none → t.isF Reg.mpStatusBistOk = true) ∧
      (s.sec.zeroised = false → s.isF Reg.gdSecStatusZeroised = false → s.isF Reg.gdSecStatusEvdError = false → test.evdTest % 7 = 0 → s.sec.tamperDue = [] → s.boot.aoLost = false →
        t.evd.isOpen = true ∧ t.evd.epoch = s.evd.epoch + 1 ∧ t.get64 Reg.evdBlock = 0 ∧ t.evd.boot = true)) ∧
  (∀ (tick : Nat) (test : StartTests) (s : State), s.boot.inReset = true ∨ s.boot.opened = true ∨ s.dpll.everLocked = false → 
    exec (.firstSegmentOpen tick test) s = .next s) ∧
  (∀ (ddr : Nat) (s : State), s.boot.inReset = false → s.isF Reg.hstStatusReady = false → s.isF Reg.hstStatusFwRun = true → s.boot.opened = true → s.isF Reg.mpStatusBistOk = true → s.cal.runs.any (fun r => r.origin = 1) = false → s.boot.image = [] → s.mbx.longOp = none → s.mbx.held = none → 
    ∃ t, exec (.ready ddr) s = .next t ∧ FrameOf [.rHst, .evu, .bus, .boot] s t ∧
      t.isF Reg.hstStatusReady = true ∧ t.isF Reg.hstIrqStatusReadyChg = true ∧ t.boot = { s.boot with ddr := maskOf ((members ddr 2).filter (fun k => bit s.boot.board.ddrListed k)) }) ∧
  (∀ (ddr : Nat) (s : State), s.boot.inReset = true ∨ s.isF Reg.hstStatusReady = true ∨ s.isF Reg.hstStatusFwRun = false ∨ s.boot.opened = false ∨ s.isF Reg.mpStatusBistOk = false ∨
      s.cal.runs.any (fun r => r.origin = 1) = true ∨ s.boot.image ≠ [] ∨ s.mbx.longOp.isSome = true ∨ s.mbx.held.isSome = true → 
    exec (.ready ddr) s = .next s) ∧
  (∀ (s : State), 
    exec .tapReset s = .next (s))
end

