-- ==== Sys2Proof/Laws/Sparse.lean ====
section
/-! SUPPORT. Laws of the sparse tables and of host memory: a read after a write, and the canonical form that every operation keeps. -/

set_option Elab.async false

namespace Sys2Proof.Machine

variable {α : Type}

/-! ### Reading what was written -/

theorem spGet_spDel_same (d : α) (m : List (Nat × α)) (k : Nat) : spGet d (spDel m k) k = d := by
  induction m with
  | nil => rfl
  | cons e r ih =>
    obtain ⟨j, v⟩ := e
    by_cases h : j = k
    · simp [spDel, h, ih]
    · simp [spDel, h, spGet, ih]

theorem spGet_spDel_ne (d : α) (m : List (Nat × α)) {k j : Nat} (h : j ≠ k) : spGet d (spDel m k) j = spGet d m j := by
  induction m with
  | nil => rfl
  | cons e r ih =>
    obtain ⟨i, v⟩ := e
    by_cases hi : i = k
    · subst hi
      simp [spDel, spGet, ih, Ne.symm h]
    · simp only [spDel, hi, if_false, spGet, ih]

theorem spGet_spIns_same (d : α) (m : List (Nat × α)) (k : Nat) (v : α) (h : spGet d (spDel m k) k = d) :
    spGet d (spIns (spDel m k) k v) k = v := by
  have key : ∀ l : List (Nat × α), (∀ e ∈ l, e.1 ≠ k) → spGet d (spIns l k v) k = v := by
    intro l hl
    induction l with
    | nil => simp [spIns, spGet]
    | cons e r ih =>
      obtain ⟨j, w⟩ := e
      have hj : j ≠ k := hl (j, w) (by simp)
      have hr := ih (fun e he => hl e (by simp [he]))
      by_cases hk : k < j
      · simp [spIns, hk, spGet]
      · simp [spIns, hk, spGet, hj, hr]
  refine key _ ?_
  clear h
  induction m with
  | nil => simp [spDel]
  | cons e r ih =>
    obtain ⟨j, w⟩ := e
    by_cases hj : j = k
    · simpa [spDel, hj] using ih
    · intro e he
      simp only [spDel, hj, if_false, List.mem_cons] at he
      rcases he with rfl | he
      · exact hj
      · exact ih e he

theorem spGet_spIns_ne (d : α) (m : List (Nat × α)) {k j : Nat} (v : α) (h : j ≠ k) : spGet d (spIns m k v) j = spGet d m j := by
  induction m with
  | nil => simp [spIns, spGet, Ne.symm h]
  | cons e r ih =>
    obtain ⟨i, w⟩ := e
    by_cases hk : k < i
    · simp [spIns, hk, spGet, Ne.symm h]
    · simp only [spIns, hk, if_false, spGet, ih]

/-- A key reads what was written to it. -/
@[simp] theorem spGet_spSet_same [DecidableEq α] (d : α) (m : List (Nat × α)) (k : Nat) (v : α) : spGet d (spSet d m k v) k = v := by
  unfold spSet
  split
  · rename_i h; rw [h]; exact spGet_spDel_same d m k
  · exact spGet_spIns_same d m k v (spGet_spDel_same d m k)

/-- A write leaves every other key alone, whatever the default it is read with. -/
theorem spGet_spSet_other [DecidableEq α] (c d : α) (m : List (Nat × α)) {k j : Nat} (v : α) (h : j ≠ k) :
    spGet c (spSet d m k v) j = spGet c m j := by
  unfold spSet
  split
  · exact spGet_spDel_ne c m h
  · rw [spGet_spIns_ne c _ v h, spGet_spDel_ne c m h]

/-- A write leaves every other key alone. -/
theorem spGet_spSet_ne [DecidableEq α] (d : α) (m : List (Nat × α)) {k j : Nat} (v : α) (h : j ≠ k) :
    spGet d (spSet d m k v) j = spGet d m j := spGet_spSet_other d d m v h

/-! ### Canonical form -/

/-- Every key of a table is above `k`. -/
def spAbove (k : Nat) (m : List (Nat × α)) : Prop := ∀ e ∈ m, k < e.1

theorem spSorted_cons {k : Nat} {v : α} {m : List (Nat × α)} : spSorted ((k, v) :: m) = true ↔ spAbove k m ∧ spSorted m = true := by
  induction m generalizing k v with
  | nil => simp [spSorted, spAbove]
  | cons e r ih =>
    obtain ⟨j, w⟩ := e
    simp only [spSorted, Bool.and_eq_true, decide_eq_true_eq]
    constructor
    · rintro ⟨hk, hs⟩
      refine ⟨?_, hs⟩
      have ha := (ih.1 hs).1
      intro e he
      rcases List.mem_cons.1 he with rfl | he
      · exact hk
      · exact Nat.lt_trans hk (ha e he)
    · rintro ⟨ha, hs⟩
      exact ⟨ha (j, w) (by simp), hs⟩

theorem spDel_mem {m : List (Nat × α)} {k : Nat} {e : Nat × α} (h : e ∈ spDel m k) : e ∈ m := by
  induction m with
  | nil => simp [spDel] at h
  | cons a r ih =>
    obtain ⟨j, w⟩ := a
    by_cases hj : j = k
    · simp only [spDel, hj, if_true] at h
      exact List.mem_cons_of_mem _ (ih h)
    · simp only [spDel, hj, if_false, List.mem_cons] at h
      rcases h with rfl | h
      · simp
      · exact List.mem_cons_of_mem _ (ih h)

theorem spDel_ne {m : List (Nat × α)} {k : Nat} {e : Nat × α} (h : e ∈ spDel m k) : e.1 ≠ k := by
  induction m with
  | nil => simp [spDel] at h
  | cons a r ih =>
    obtain ⟨j, w⟩ := a
    by_cases hj : j = k
    · simp only [spDel, hj, if_true] at h
      exact ih h
    · simp only [spDel, hj, if_false, List.mem_cons] at h
      rcases h with rfl | h
      · exact hj
      · exact ih h

theorem spDel_sorted {m : List (Nat × α)} {k : Nat} (h : spSorted m = true) : spSorted (spDel m k) = true := by
  induction m with
  | nil => exact h
  | cons a r ih =>
    obtain ⟨j, w⟩ := a
    obtain ⟨ha, hs⟩ := spSorted_cons.1 h
    by_cases hj : j = k
    · simpa [spDel, hj] using ih hs
    · simp only [spDel, hj, if_false]
      exact spSorted_cons.2 ⟨fun e he => ha e (spDel_mem he), ih hs⟩

theorem spIns_mem {m : List (Nat × α)} {k : Nat} {v : α} {e : Nat × α} (h : e ∈ spIns m k v) : e = (k, v) ∨ e ∈ m := by
  induction m with
  | nil => simpa [spIns] using h
  | cons a r ih =>
    obtain ⟨j, w⟩ := a
    by_cases hk : k < j
    · simp only [spIns, hk, if_true, List.mem_cons] at h
      simpa using h
    · simp only [spIns, hk, if_false, List.mem_cons] at h
      rcases h with rfl | h
      · simp
      · rcases ih h with h | h
        · exact Or.inl h
        · exact Or.inr (List.mem_cons_of_mem _ h)

theorem spIns_sorted {m : List (Nat × α)} {k : Nat} {v : α} (h : spSorted m = true) (hk : ∀ e ∈ m, e.1 ≠ k) :
    spSorted (spIns m k v) = true := by
  induction m with
  | nil => rfl
  | cons a r ih =>
    obtain ⟨j, w⟩ := a
    obtain ⟨ha, hs⟩ := spSorted_cons.1 h
    have hj : j ≠ k := hk (j, w) (by simp)
    by_cases hlt : k < j
    · simp only [spIns, hlt, if_true]
      refine spSorted_cons.2 ⟨?_, h⟩
      intro e he
      rcases List.mem_cons.1 he with rfl | he
      · exact hlt
      · exact Nat.lt_trans hlt (ha e he)
    · simp only [spIns, hlt, if_false]
      refine spSorted_cons.2 ⟨?_, ih hs (fun e he => hk e (List.mem_cons_of_mem _ he))⟩
      intro e he
      rcases spIns_mem he with rfl | he
      · exact Nat.lt_of_le_of_ne (Nat.le_of_not_lt hlt) hj
      · exact ha e he

theorem spSet_sorted [DecidableEq α] {d : α} {m : List (Nat × α)} {k : Nat} {v : α} (h : spSorted m = true) :
    spSorted (spSet d m k v) = true := by
  unfold spSet
  split
  · exact spDel_sorted h
  · exact spIns_sorted (spDel_sorted h) (fun e he => spDel_ne he)

theorem spSorted_filter {m : List (Nat × α)} (q : Nat × α → Bool) (h : spSorted m = true) : spSorted (m.filter q) = true := by
  induction m with
  | nil => rfl
  | cons a r ih =>
    obtain ⟨j, w⟩ := a
    obtain ⟨ha, hs⟩ := spSorted_cons.1 h
    by_cases hq : q (j, w) = true
    · rw [List.filter_cons_of_pos hq]
      exact spSorted_cons.2 ⟨fun e he => ha e (List.mem_filter.1 he).1, ih hs⟩
    · rw [List.filter_cons_of_neg hq]
      exact ih hs

/-- A write keeps a table canonical. -/
theorem spSet_canon [DecidableEq α] {d : α} {m : List (Nat × α)} {k : Nat} {v : α} (h : spCanon d m = true) :
    spCanon d (spSet d m k v) = true := by
  unfold spCanon at *
  rw [Bool.and_eq_true, List.all_eq_true] at *
  refine ⟨spSet_sorted h.1, ?_⟩
  intro e he
  unfold spSet at he
  split at he
  · exact h.2 e (spDel_mem he)
  · rename_i hv
    rcases spIns_mem he with rfl | he
    · simpa using hv
    · exact h.2 e (spDel_mem he)

/-! ### Host memory -/

theorem memWrite_wf {m : Memory} {a : Nat} {b : Byte} (h : Memory.wf m = true) : Memory.wf (memWrite m a b) = true :=
  spIns_sorted (spDel_sorted h) (fun _ he => spDel_ne he)

/-- Every write of the device keeps host memory in canonical form. -/
theorem memWriteBytes_wf {m : Memory} {a : Nat} {bs : Bytes} (h : Memory.wf m = true) : Memory.wf (memWriteBytes m a bs) = true := by
  induction bs generalizing m a with
  | nil => exact h
  | cons b r ih => exact ih (memWrite_wf h)

theorem memRead_eq (m : Memory) (a : Nat) : memRead m a = (spGet none (m.map (fun c => (c.1, some c.2))) a) := by
  unfold memRead
  induction m with
  | nil => rfl
  | cons e r ih =>
    obtain ⟨j, w⟩ := e
    by_cases h : j = a
    · simp [spGet, h]
    · simp only [List.map_cons, spGet, h, if_false]
      rw [List.find?_cons_of_neg (by simpa using h)]
      exact ih

end Sys2Proof.Machine
end

