-- ==== Sys2Proof/Laws/Keeps.lean ====
section
/-! SUPPORT. What every operation of the model keeps. A predicate over states that the elementary updates of some parts keep is kept by
every operation that makes no other updates; the lemma of an operation names, as a mask over `Part.ctorIdx`, the parts it can touch. So
an invariant of every step, and the frame of every command, are proved once. -/

set_option Elab.async false

namespace Sys2Proof.Machine

/-- The mask `m` of parts is within the mask `A`. -/
def Sub (m A : Nat) : Prop := m &&& A = m

theorem sub {m n A : Nat} (h : m &&& n = m) (hA : Sub n A) : Sub m A := by
  unfold Sub at *
  rw [← h, Nat.and_assoc, hA]

theorem Sub.left {m n A : Nat} (h : Sub (m ||| n) A) : Sub m A := by
  refine Nat.eq_of_testBit_eq fun k => ?_
  have hk := congrArg (fun x => Nat.testBit x k) h
  simp only [Nat.testBit_and, Nat.testBit_or] at hk ⊢
  revert hk
  cases m.testBit k <;> cases n.testBit k <;> cases A.testBit k <;> simp

theorem Sub.right {m n A : Nat} (h : Sub (m ||| n) A) : Sub n A := Sub.left (Nat.lor_comm m n ▸ h)

theorem lorSub {k m n : Nat} (h : m &&& n = m) : Sub (k ||| m) (k ||| n) := by
  refine Nat.eq_of_testBit_eq fun j => ?_
  have hj := congrArg (fun x => Nat.testBit x j) h
  simp only [Nat.testBit_and, Nat.testBit_or] at hj ⊢
  revert hj
  cases m.testBit j <;> cases n.testBit j <;> cases k.testBit j <;> simp

theorem Sub.bit {m A k : Nat} (h : Sub m A) (hk : m.testBit k = true) : A.testBit k = true := by
  unfold Sub at h
  rw [← h, Nat.testBit_and, Bool.and_eq_true] at hk
  exact hk.2

/-- Whether a part holds registers. -/
def Part.isReg (p : Part) : Bool := decide (p.ctorIdx < 25)

/-- `P` is kept by the elementary updates of the parts in the mask `A`: register fields, host memory, and the other fields. Bit 100 of the
mask stands for a main reset, which starts the state again. -/
structure Keeps (P : State → Prop) (A : Nat) : Prop where
  setF : ∀ (s : State) (f : Fld) (v : Nat), A.testBit (regPart f.addr) = true → P s → P (s.setF f v)
  drop : ∀ (s : State) (q : Nat × Nat → Bool), (∀ e, q e = false → A.testBit (regPart (e.1 / 32)) = true) → P s →
    P { s with regs := s.regs.filter q }
  dma : ∀ (s : State) (a : Nat) (bs : Bytes), A.testBit Part.hostMem.ctorIdx = true → P s → P (s.dma a bs)
  rest : ∀ s t : State, t.regs = s.regs → t.hostMem = s.hostMem →
    (∀ p : Part, A.testBit p.ctorIdx = false → p.isReg = false → p.same s t) → P s → P t
  again : ∀ s : State, A.testBit 100 = true → P s → P (underReset s)

/-- `P` of the state an outcome answers, where it answers one. -/
def Nx (P : State → Prop) (o : Out) : Prop := ∀ t, o = .next t → P t

/-- `Q` of the value an option holds, where it holds one. -/
def Ox {α : Type} (Q : α → Prop) (o : Option α) : Prop := ∀ r, o = some r → Q r

theorem keep_of {α : Type} {Q : α → Prop} {a b : α} (h : a = b) (ha : Q a) : Q b := h ▸ ha

theorem none_k {α : Type} {Q : α → Prop} : Ox Q none := by
  intro r hr
  cases hr

theorem some_k {α : Type} {Q : α → Prop} {a : α} (h : Q a) : Ox Q (some a) := by
  intro r hr
  cases hr
  exact h

theorem map_k {α β : Type} {Q : β → Prop} {f : α → β} {o : Option α} (h : ∀ a, Q (f a)) : Ox Q (o.map f) := by
  cases o with
  | none => exact none_k
  | some a => exact some_k (h a)

theorem mapC_k {α β : Type} {Q : α → Prop} {R : β → Prop} {f : α → β} {o : Option α} (ho : Ox Q o) (h : ∀ a, Q a → R (f a)) :
    Ox R (o.map f) := by
  cases o with
  | none => exact none_k
  | some a => exact some_k (h a (ho a rfl))

variable {P : State → Prop} {A : Nat}

/-! ### Shapes of terms -/

theorem next_k {s : State} (h : P s) : Nx P (.next s) := by
  intro t ht
  cases ht
  exact h

theorem mk1_k {α : Type} {s : State} {a : α} (h : P s) : P (Prod.mk s a).1 := h

theorem mk2_k {α : Type} {s : State} {a : α} (h : P s) : P (Prod.mk a s).2 := h

theorem mk1_g {α β : Type} {Q : α → Prop} {a : α} {b : β} (h : Q a) : Q (Prod.mk a b).1 := h

theorem mk2_g {α β : Type} {Q : β → Prop} {a : α} {b : β} (h : Q b) : Q (Prod.mk a b).2 := h

theorem ite_k {c : Prop} [Decidable c] {a b : State} (ha : P a) (hb : P b) : P (if c then a else b) := by
  split <;> assumption

theorem iteN_k {c : Prop} [Decidable c] {a b : Out} (ha : Nx P a) (hb : Nx P b) : Nx P (if c then a else b) := by
  split <;> assumption

theorem ite1_k {α : Type} {c : Prop} [Decidable c] {a b : State × α} (ha : P a.1) (hb : P b.1) : P (if c then a else b).1 := by
  split <;> assumption

theorem ite2_k {α : Type} {c : Prop} [Decidable c] {a b : α × State} (ha : P a.2) (hb : P b.2) : P (if c then a else b).2 := by
  split <;> assumption

theorem ite22_k {α β : Type} {c : Prop} [Decidable c] {a b : α × β × State} (ha : P a.2.2) (hb : P b.2.2) :
    P (if c then a else b).2.2 := by
  split <;> assumption

theorem foldl_k {α : Type} {f : State → α → State} {s : State} {l : List α} (hs : P s) (hf : ∀ s a, P s → P (f s a)) :
    P (l.foldl f s) := by
  induction l generalizing s with
  | nil => exact hs
  | cons a r ih => exact ih (hf s a hs)

theorem foldl_g {α β : Type} {Q : β → Prop} {f : β → α → β} {x : β} {l : List α} (hs : Q x) (hf : ∀ x a, Q x → Q (f x a)) :
    Q (l.foldl f x) := by
  induction l generalizing x with
  | nil => exact hs
  | cons a r ih => exact ih (hf x a hs)

theorem ite_g {α : Type} {Q : α → Prop} {c : Prop} [Decidable c] {a b : α} (ha : Q a) (hb : Q b) : Q (if c then a else b) := by
  split <;> assumption

theorem mk_gn_k {s : State} {u : List Nat} {o : List (Nat × Nat)} {d : Option Nat} {i : Bool} (h : P s) : P (GnCheck.mk s u o d i).s := h

/-! ### Registers -/

theorem setF_k (K : Keeps P A) (b : Nat) {s : State} {f : Fld} {v : Nat} (hb : regPart f.addr = b) (hA : Sub (2 ^ b) A) (h : P s) :
    P (s.setF f v) := K.setF s f v (by rw [hb]; exact hA.bit (Nat.testBit_two_pow_self)) h

theorem setB_k (K : Keeps P A) (b : Nat) {s : State} {f : Fld} {v : Bool} (hb : regPart f.addr = b) (hA : Sub (2 ^ b) A) (h : P s) :
    P (s.setB f v) := setF_k K b hb hA h

theorem addSat_k (K : Keeps P A) (b : Nat) {s : State} {f : Fld} {v : Nat} (hb : regPart f.addr = b) (hA : Sub (2 ^ b) A) (h : P s) :
    P (s.addSat f v) := setF_k K b hb hA h

theorem addWrap_k (K : Keeps P A) (b : Nat) {s : State} {f : Fld} {v : Nat} (hb : regPart f.addr = b) (hA : Sub (2 ^ b) A) (h : P s) :
    P (s.addWrap f v) := setF_k K b hb hA h

theorem setI_k (K : Keeps P A) (b : Nat) {s : State} {f : Fld} {v : Int} (hb : regPart f.addr = b) (hA : Sub (2 ^ b) A) (h : P s) :
    P (s.setI f v) := setF_k K b hb hA h

theorem set64_k (K : Keeps P A) (b : Nat) {s : State} {a v : Nat} (hb : regPart a = b ∧ regPart (a + 4) = b) (hA : Sub (2 ^ b) A)
    (h : P s) : P (s.set64 a v) := setF_k K b hb.2 hA (setF_k K b hb.1 hA h)

theorem setI64_k (K : Keeps P A) (b : Nat) {s : State} {a : Nat} {v : Int} (hb : regPart a = b ∧ regPart (a + 4) = b)
    (hA : Sub (2 ^ b) A) (h : P s) : P (s.setI64 a v) := set64_k K b hb hA h

theorem set96_k (K : Keeps P A) (b : Nat) {s : State} {a v : Nat} (hb : regPart a = b ∧ regPart (a + 4) = b ∧ regPart (a + 8) = b)
    (hA : Sub (2 ^ b) A) (h : P s) : P (s.set96 a v) := setF_k K b hb.2.2 hA (set64_k K b ⟨hb.1, hb.2.1⟩ hA h)

theorem ite_lt {c : Prop} [Decidable c] {a b n : Nat} (ha : a < n) (hb : b < n) : (if c then a else b) < n := by
  split <;> assumption

theorem regPart_lt (a : Nat) : regPart a < 25 := by
  unfold regPart
  repeat refine ite_lt (by decide) ?_
  decide

theorem setF_any (K : Keeps P A) {s : State} {f : Fld} {v : Nat} (hA : Sub 33554431 A) (h : P s) : P (s.setF f v) := by
  refine K.setF s f v (hA.bit ?_) h
  have hlt := regPart_lt f.addr
  generalize regPart f.addr = k at hlt
  rw [show (33554431 : Nat) = 2 ^ 25 - 1 from rfl, Nat.testBit_two_pow_sub_one]
  exact decide_eq_true hlt

theorem setB_any (K : Keeps P A) {s : State} {f : Fld} {v : Bool} (hA : Sub 33554431 A) (h : P s) : P (s.setB f v) :=
  setF_any K hA h

theorem setI64_any (K : Keeps P A) {s : State} {a : Nat} {v : Int} (hA : Sub 33554431 A) (h : P s) : P (s.setI64 a v) :=
  setF_any K hA (setF_any K hA h)

theorem State.dma_keeps (K : Keeps P A) (hA : Sub 134217728 A) {s : State} {a : Nat} {bs : Bytes} (h : P s) : P (s.dma a bs) :=
  K.dma s a bs (hA.bit (by decide)) h

/-! ### Rings -/

/-- The registers of a ring lie in part `b`; only the event ring also shows in HST_IRQ_STATUS. -/
structure RingIn (b : Nat) (R : RingRegs) : Prop where
  prod : regPart R.prod.addr = b
  cons : regPart R.cons.addr = b
  phase : regPart R.phase.addr = b
  err : regPart R.err.addr = b
  irq : R.id = 0 → b = 0

theorem ring_evr : RingIn 0 evrRing := ⟨rfl, rfl, rfl, rfl, fun _ => rfl⟩

theorem ring_tt : RingIn 8 ttRing := ⟨rfl, rfl, rfl, rfl, fun h => absurd h (by decide)⟩

theorem ring_learn : RingIn 12 learnRing := ⟨rfl, rfl, rfl, rfl, fun h => absurd h (by decide)⟩

end Sys2Proof.Machine
end

