-- ==== Sys2Proof/Laws/Parts.lean ====
section
/-! SUPPORT. The block of R45 in which each register field that an operation writes lies. -/

set_option Elab.async false

namespace Sys2Proof.Machine

variable {P : State → Prop} {A : Nat}

theorem regPart_0 {a : Nat} (h : 0x0 ≤ a) (h' : a < 0x10000) : regPart a = 0 :=
  if_pos h'

theorem regPart_1 {a : Nat} (h : 0x10000 ≤ a) (h' : a < 0x20000) : regPart a = 1 :=
  (if_neg (by omega)).trans (if_pos (by omega))

theorem regPart_2 {a : Nat} (h : 0x20000 ≤ a) (h' : a < 0x30000) : regPart a = 2 :=
  (if_neg (by omega)).trans ((if_neg (by omega)).trans (if_pos (by omega)))

theorem regPart_3 {a : Nat} (h : 0x100000 ≤ a) (h' : a < 0x110000) : regPart a = 3 :=
  (if_neg (by omega)).trans ((if_neg (by omega)).trans ((if_neg (by omega)).trans (if_pos (by omega))))

theorem regPart_4 {a : Nat} (h : 0x110000 ≤ a) (h' : a < 0x120000) : regPart a = 4 :=
  (if_neg (by omega)).trans ((if_neg (by omega)).trans ((if_neg (by omega)).trans ((if_neg (by omega)).trans (if_pos (by omega)))))

theorem regPart_5 {a : Nat} (h : 0x120000 ≤ a) (h' : a < 0x130000) : regPart a = 5 :=
  (if_neg (by omega)).trans ((if_neg (by omega)).trans ((if_neg (by omega)).trans ((if_neg (by omega)).trans ((if_neg (by omega)).trans (if_pos (by omega))))))

theorem regPart_6 {a : Nat} (h : 0x130000 ≤ a) (h' : a < 0x140000) : regPart a = 6 :=
  (if_neg (by omega)).trans ((if_neg (by omega)).trans ((if_neg (by omega)).trans ((if_neg (by omega)).trans ((if_neg (by omega)).trans ((if_neg (by omega)).trans (if_pos (by omega)))))))

theorem regPart_7 {a : Nat} (h : 0x140000 ≤ a) (h' : a < 0x150000) : regPart a = 7 :=
  (if_neg (by omega)).trans ((if_neg (by omega)).trans ((if_neg (by omega)).trans ((if_neg (by omega)).trans ((if_neg (by omega)).trans ((if_neg (by omega)).trans ((if_neg (by omega)).trans (if_pos (by omega))))))))

theorem regPart_8 {a : Nat} (h : 0x150000 ≤ a) (h' : a < 0x160000) : regPart a = 8 :=
  (if_neg (by omega)).trans ((if_neg (by omega)).trans ((if_neg (by omega)).trans ((if_neg (by omega)).trans ((if_neg (by omega)).trans ((if_neg (by omega)).trans ((if_neg (by omega)).trans ((if_neg (by omega)).trans (if_pos (by omega)))))))))

theorem regPart_9 {a : Nat} (h : 0x200000 ≤ a) (h' : a < 0x210000) : regPart a = 9 :=
  (if_neg (by omega)).trans ((if_neg (by omega)).trans ((if_neg (by omega)).trans ((if_neg (by omega)).trans ((if_neg (by omega)).trans ((if_neg (by omega)).trans ((if_neg (by omega)).trans ((if_neg (by omega)).trans ((if_neg (by omega)).trans (if_pos (by omega))))))))))

theorem regPart_10 {a : Nat} (h : 0x300000 ≤ a) (h' : a < 0x400000) : regPart a = 10 :=
  (if_neg (by omega)).trans ((if_neg (by omega)).trans ((if_neg (by omega)).trans ((if_neg (by omega)).trans ((if_neg (by omega)).trans ((if_neg (by omega)).trans ((if_neg (by omega)).trans ((if_neg (by omega)).trans ((if_neg (by omega)).trans ((if_neg (by omega)).trans (if_pos (by omega)))))))))))

theorem regPart_11 {a : Nat} (h : 0x400000 ≤ a) (h' : a < 0x500000) : regPart a = 11 :=
  (if_neg (by omega)).trans ((if_neg (by omega)).trans ((if_neg (by omega)).trans ((if_neg (by omega)).trans ((if_neg (by omega)).trans ((if_neg (by omega)).trans ((if_neg (by omega)).trans ((if_neg (by omega)).trans ((if_neg (by omega)).trans ((if_neg (by omega)).trans ((if_neg (by omega)).trans (if_pos (by omega))))))))))))

theorem regPart_12 {a : Nat} (h : 0x500000 ≤ a) (h' : a < 0x600000) : regPart a = 12 :=
  (if_neg (by omega)).trans ((if_neg (by omega)).trans ((if_neg (by omega)).trans ((if_neg (by omega)).trans ((if_neg (by omega)).trans ((if_neg (by omega)).trans ((if_neg (by omega)).trans ((if_neg (by omega)).trans ((if_neg (by omega)).trans ((if_neg (by omega)).trans ((if_neg (by omega)).trans ((if_neg (by omega)).trans (if_pos (by omega)))))))))))))

theorem regPart_13 {a : Nat} (h : 0x600000 ≤ a) (h' : a < 0x700000) : regPart a = 13 :=
  (if_neg (by omega)).trans ((if_neg (by omega)).trans ((if_neg (by omega)).trans ((if_neg (by omega)).trans ((if_neg (by omega)).trans ((if_neg (by omega)).trans ((if_neg (by omega)).trans ((if_neg (by omega)).trans ((if_neg (by omega)).trans ((if_neg (by omega)).trans ((if_neg (by omega)).trans ((if_neg (by omega)).trans ((if_neg (by omega)).trans (if_pos (by omega))))))))))))))

theorem regPart_14 {a : Nat} (h : 0x700000 ≤ a) (h' : a < 0x710000) : regPart a = 14 :=
  (if_neg (by omega)).trans ((if_neg (by omega)).trans ((if_neg (by omega)).trans ((if_neg (by omega)).trans ((if_neg (by omega)).trans ((if_neg (by omega)).trans ((if_neg (by omega)).trans ((if_neg (by omega)).trans ((if_neg (by omega)).trans ((if_neg (by omega)).trans ((if_neg (by omega)).trans ((if_neg (by omega)).trans ((if_neg (by omega)).trans ((if_neg (by omega)).trans (if_pos (by omega)))))))))))))))

theorem regPart_15 {a : Nat} (h : 0x710000 ≤ a) (h' : a < 0x720000) : regPart a = 15 :=
  (if_neg (by omega)).trans ((if_neg (by omega)).trans ((if_neg (by omega)).trans ((if_neg (by omega)).trans ((if_neg (by omega)).trans ((if_neg (by omega)).trans ((if_neg (by omega)).trans ((if_neg (by omega)).trans ((if_neg (by omega)).trans ((if_neg (by omega)).trans ((if_neg (by omega)).trans ((if_neg (by omega)).trans ((if_neg (by omega)).trans ((if_neg (by omega)).trans ((if_neg (by omega)).trans (if_pos (by omega))))))))))))))))

theorem regPart_16 {a : Nat} (h : 0x800000 ≤ a) (h' : a < 0x810000) : regPart a = 16 :=
  (if_neg (by omega)).trans ((if_neg (by omega)).trans ((if_neg (by omega)).trans ((if_neg (by omega)).trans ((if_neg (by omega)).trans ((if_neg (by omega)).trans ((if_neg (by omega)).trans ((if_neg (by omega)).trans ((if_neg (by omega)).trans ((if_neg (by omega)).trans ((if_neg (by omega)).trans ((if_neg (by omega)).trans ((if_neg (by omega)).trans ((if_neg (by omega)).trans ((if_neg (by omega)).trans ((if_neg (by omega)).trans (if_pos (by omega)))))))))))))))))

theorem regPart_17 {a : Nat} (h : 0x810000 ≤ a) (h' : a < 0x820000) : regPart a = 17 :=
  (if_neg (by omega)).trans ((if_neg (by omega)).trans ((if_neg (by omega)).trans ((if_neg (by omega)).trans ((if_neg (by omega)).trans ((if_neg (by omega)).trans ((if_neg (by omega)).trans ((if_neg (by omega)).trans ((if_neg (by omega)).trans ((if_neg (by omega)).trans ((if_neg (by omega)).trans ((if_neg (by omega)).trans ((if_neg (by omega)).trans ((if_neg (by omega)).trans ((if_neg (by omega)).trans ((if_neg (by omega)).trans ((if_neg (by omega)).trans (if_pos (by omega))))))))))))))))))

theorem regPart_18 {a : Nat} (h : 0x900000 ≤ a) (h' : a < 0xa00000) : regPart a = 18 :=
  (if_neg (by omega)).trans ((if_neg (by omega)).trans ((if_neg (by omega)).trans ((if_neg (by omega)).trans ((if_neg (by omega)).trans ((if_neg (by omega)).trans ((if_neg (by omega)).trans ((if_neg (by omega)).trans ((if_neg (by omega)).trans ((if_neg (by omega)).trans ((if_neg (by omega)).trans ((if_neg (by omega)).trans ((if_neg (by omega)).trans ((if_neg (by omega)).trans ((if_neg (by omega)).trans ((if_neg (by omega)).trans ((if_neg (by omega)).trans ((if_neg (by omega)).trans (if_pos (by omega)))))))))))))))))))

theorem regPart_19 {a : Nat} (h : 0xa00000 ≤ a) (h' : a < 0xa10000) : regPart a = 19 :=
  (if_neg (by omega)).trans ((if_neg (by omega)).trans ((if_neg (by omega)).trans ((if_neg (by omega)).trans ((if_neg (by omega)).trans ((if_neg (by omega)).trans ((if_neg (by omega)).trans ((if_neg (by omega)).trans ((if_neg (by omega)).trans ((if_neg (by omega)).trans ((if_neg (by omega)).trans ((if_neg (by omega)).trans ((if_neg (by omega)).trans ((if_neg (by omega)).trans ((if_neg (by omega)).trans ((if_neg (by omega)).trans ((if_neg (by omega)).trans ((if_neg (by omega)).trans ((if_neg (by omega)).trans (if_pos (by omega))))))))))))))))))))

theorem regPart_20 {a : Nat} (h : 0xb00000 ≤ a) (h' : a < 0xb10000) : regPart a = 20 :=
  (if_neg (by omega)).trans ((if_neg (by omega)).trans ((if_neg (by omega)).trans ((if_neg (by omega)).trans ((if_neg (by omega)).trans ((if_neg (by omega)).trans ((if_neg (by omega)).trans ((if_neg (by omega)).trans ((if_neg (by omega)).trans ((if_neg (by omega)).trans ((if_neg (by omega)).trans ((if_neg (by omega)).trans ((if_neg (by omega)).trans ((if_neg (by omega)).trans ((if_neg (by omega)).trans ((if_neg (by omega)).trans ((if_neg (by omega)).trans ((if_neg (by omega)).trans ((if_neg (by omega)).trans ((if_neg (by omega)).trans (if_pos (by omega)))))))))))))))))))))

theorem regPart_21 {a : Nat} (h : 0xc00000 ≤ a) (h' : a < 0xc10000) : regPart a = 21 :=
  (if_neg (by omega)).trans ((if_neg (by omega)).trans ((if_neg (by omega)).trans ((if_neg (by omega)).trans ((if_neg (by omega)).trans ((if_neg (by omega)).trans ((if_neg (by omega)).trans ((if_neg (by omega)).trans ((if_neg (by omega)).trans ((if_neg (by omega)).trans ((if_neg (by omega)).trans ((if_neg (by omega)).trans ((if_neg (by omega)).trans ((if_neg (by omega)).trans ((if_neg (by omega)).trans ((if_neg (by omega)).trans ((if_neg (by omega)).trans ((if_neg (by omega)).trans ((if_neg (by omega)).trans ((if_neg (by omega)).trans ((if_neg (by omega)).trans (if_pos (by omega))))))))))))))))))))))

theorem regPart_22 {a : Nat} (h : 0xd00000 ≤ a) (h' : a < 0xd10000) : regPart a = 22 :=
  (if_neg (by omega)).trans ((if_neg (by omega)).trans ((if_neg (by omega)).trans ((if_neg (by omega)).trans ((if_neg (by omega)).trans ((if_neg (by omega)).trans ((if_neg (by omega)).trans ((if_neg (by omega)).trans ((if_neg (by omega)).trans ((if_neg (by omega)).trans ((if_neg (by omega)).trans ((if_neg (by omega)).trans ((if_neg (by omega)).trans ((if_neg (by omega)).trans ((if_neg (by omega)).trans ((if_neg (by omega)).trans ((if_neg (by omega)).trans ((if_neg (by omega)).trans ((if_neg (by omega)).trans ((if_neg (by omega)).trans ((if_neg (by omega)).trans ((if_neg (by omega)).trans (if_pos (by omega)))))))))))))))))))))))

theorem regPart_23 {a : Nat} (h : 0xe00000 ≤ a) (h' : a < 0xe10000) : regPart a = 23 :=
  (if_neg (by omega)).trans ((if_neg (by omega)).trans ((if_neg (by omega)).trans ((if_neg (by omega)).trans ((if_neg (by omega)).trans ((if_neg (by omega)).trans ((if_neg (by omega)).trans ((if_neg (by omega)).trans ((if_neg (by omega)).trans ((if_neg (by omega)).trans ((if_neg (by omega)).trans ((if_neg (by omega)).trans ((if_neg (by omega)).trans ((if_neg (by omega)).trans ((if_neg (by omega)).trans ((if_neg (by omega)).trans ((if_neg (by omega)).trans ((if_neg (by omega)).trans ((if_neg (by omega)).trans ((if_neg (by omega)).trans ((if_neg (by omega)).trans ((if_neg (by omega)).trans ((if_neg (by omega)).trans (if_pos (by omega))))))))))))))))))))))))

theorem part_aoAnchorSeq : regPart Reg.aoAnchorSeq.addr = 21 :=
  rfl

theorem part_aoAnchorTick_2 : regPart Reg.aoAnchorTick = 21 ∧ regPart (Reg.aoAnchorTick + 4) = 21 :=
  ⟨rfl, rfl⟩

theorem part_aoStatusAnchorValid : regPart Reg.aoStatusAnchorValid.addr = 21 :=
  rfl

theorem part_aoStatusAoLost : regPart Reg.aoStatusAoLost.addr = 21 :=
  rfl

theorem part_aoStatusCause : regPart Reg.aoStatusCause.addr = 21 :=
  rfl

theorem part_aoStatusXtalOk : regPart Reg.aoStatusXtalOk.addr = 21 :=
  rfl

theorem part_aoTamperCount0 : regPart Reg.aoTamperCount0.addr = 21 :=
  rfl

theorem part_aoTamperCount1 : regPart Reg.aoTamperCount1.addr = 21 :=
  rfl

theorem part_aoTamperFlag0 : regPart Reg.aoTamperFlag0.addr = 21 :=
  rfl

theorem part_aoTamperFlag1 : regPart Reg.aoTamperFlag1.addr = 21 :=
  rfl

theorem part_aoTamperTime_2 : regPart Reg.aoTamperTime = 21 ∧ regPart (Reg.aoTamperTime + 4) = 21 :=
  ⟨rfl, rfl⟩

theorem part_aoTime_2 : regPart Reg.aoTime = 21 ∧ regPart (Reg.aoTime + 4) = 21 :=
  ⟨rfl, rfl⟩

theorem part_bfPoolFreeF : regPart Reg.bfPoolFreeF.addr = 13 :=
  rfl

theorem part_bfPoolResEcnEn : regPart Reg.bfPoolResEcnEn.addr = 13 :=
  rfl

theorem part_bfPoolResMinSum : regPart Reg.bfPoolResMinSum.addr = 13 :=
  rfl

theorem part_bfPoolResStage : regPart Reg.bfPoolResStage.addr = 13 :=
  rfl

theorem part_bfQCfgAlpha {n : Nat} : regPart (Reg.bfQCfgAlpha n).addr = 13 :=
  regPart_13 (by simp only [Reg.bfQCfgAlpha]; omega) (by simp only [Reg.bfQCfgAlpha]; omega)

theorem part_bfQCfgMin {n : Nat} : regPart (Reg.bfQCfgMin n).addr = 13 :=
  regPart_13 (by simp only [Reg.bfQCfgMin]; omega) (by simp only [Reg.bfQCfgMin]; omega)

theorem part_bfQCfgPcpMask {n : Nat} : regPart (Reg.bfQCfgPcpMask n).addr = 13 :=
  regPart_13 (by simp only [Reg.bfQCfgPcpMask]; omega) (by simp only [Reg.bfQCfgPcpMask]; omega)

theorem part_bfQCfgWeight {n : Nat} : regPart (Reg.bfQCfgWeight n).addr = 13 :=
  regPart_13 (by simp only [Reg.bfQCfgWeight]; omega) (by simp only [Reg.bfQCfgWeight]; omega)

theorem part_bfQDocc {n : Nat} : regPart (Reg.bfQDocc n).addr = 13 :=
  regPart_13 (by simp only [Reg.bfQDocc]; omega) (by simp only [Reg.bfQDocc]; omega)

theorem part_bfQEcnEcnAt {n : Nat} : regPart (Reg.bfQEcnEcnAt n).addr = 13 :=
  regPart_13 (by simp only [Reg.bfQEcnEcnAt]; omega) (by simp only [Reg.bfQEcnEcnAt]; omega)

theorem part_bfQLimMax {n : Nat} : regPart (Reg.bfQLimMax n).addr = 13 :=
  regPart_13 (by simp only [Reg.bfQLimMax]; omega) (by simp only [Reg.bfQLimMax]; omega)

theorem part_bfQLimMode {n : Nat} : regPart (Reg.bfQLimMode n).addr = 13 :=
  regPart_13 (by simp only [Reg.bfQLimMode]; omega) (by simp only [Reg.bfQLimMode]; omega)

theorem part_bfQSpillSpillMax {n : Nat} : regPart (Reg.bfQSpillSpillMax n).addr = 13 :=
  regPart_13 (by simp only [Reg.bfQSpillSpillMax]; omega) (by simp only [Reg.bfQSpillSpillMax]; omega)

theorem part_bfQStatusMarking {n : Nat} : regPart (Reg.bfQStatusMarking n).addr = 13 :=
  regPart_13 (by simp only [Reg.bfQStatusMarking]; omega) (by simp only [Reg.bfQStatusMarking]; omega)

theorem part_bfQStatusOcc {n : Nat} : regPart (Reg.bfQStatusOcc n).addr = 13 :=
  regPart_13 (by simp only [Reg.bfQStatusOcc]; omega) (by simp only [Reg.bfQStatusOcc]; omega)

theorem part_bfQStatusSpilling {n : Nat} : regPart (Reg.bfQStatusSpilling n).addr = 13 :=
  regPart_13 (by simp only [Reg.bfQStatusSpilling]; omega) (by simp only [Reg.bfQStatusSpilling]; omega)

theorem part_bfQuarChip : regPart Reg.bfQuarChip.addr = 13 :=
  rfl

theorem part_bfQuarDdr : regPart Reg.bfQuarDdr.addr = 13 :=
  rfl

theorem part_bfRetired : regPart Reg.bfRetired.addr = 13 :=
  rfl

theorem part_bfShpBurst {k : Nat} : regPart (Reg.bfShpBurst k).addr = 13 :=
  regPart_13 (by simp only [Reg.bfShpBurst]; omega) (by simp only [Reg.bfShpBurst]; omega)

theorem part_bfShpRate {k : Nat} : regPart (Reg.bfShpRate k).addr = 13 :=
  regPart_13 (by simp only [Reg.bfShpRate]; omega) (by simp only [Reg.bfShpRate]; omega)

theorem part_bfSpillCap_2 : regPart Reg.bfSpillCap = 13 ∧ regPart (Reg.bfSpillCap + 4) = 13 :=
  ⟨rfl, rfl⟩

theorem part_bfSpillStatusChEn : regPart Reg.bfSpillStatusChEn.addr = 13 :=
  rfl

theorem part_bfSpillStatusDraining : regPart Reg.bfSpillStatusDraining.addr = 13 :=
  rfl

theorem part_bfSpillStatusRd : regPart Reg.bfSpillStatusRd.addr = 13 :=
  rfl

theorem part_bfSpillStatusStageFull : regPart Reg.bfSpillStatusStageFull.addr = 13 :=
  rfl

theorem part_bfSpillStatusWr : regPart Reg.bfSpillStatusWr.addr = 13 :=
  rfl

theorem part_bfSpillUsed_2 : regPart Reg.bfSpillUsed = 13 ∧ regPart (Reg.bfSpillUsed + 4) = 13 :=
  ⟨rfl, rfl⟩

theorem part_calStatusIndex : regPart Reg.calStatusIndex.addr = 22 :=
  rfl

theorem part_calStatusKind : regPart Reg.calStatusKind.addr = 22 :=
  rfl

theorem part_calStatusRejects : regPart Reg.calStatusRejects.addr = 22 :=
  rfl

theorem part_calStatusRunning : regPart Reg.calStatusRunning.addr = 22 :=
  rfl

theorem part_calStatusStartupOk : regPart Reg.calStatusStartupOk.addr = 22 :=
  rfl

theorem part_capNrCfgEn {n : Nat} : regPart (Reg.capNrCfgEn n).addr = 17 :=
  regPart_17 (by simp only [Reg.capNrCfgEn]; omega) (by simp only [Reg.capNrCfgEn]; omega)

theorem part_capNrCfgLog2sz {n : Nat} : regPart (Reg.capNrCfgLog2sz n).addr = 17 :=
  regPart_17 (by simp only [Reg.capNrCfgLog2sz]; omega) (by simp only [Reg.capNrCfgLog2sz]; omega)

theorem part_capNrConsIndex {n : Nat} : regPart (Reg.capNrConsIndex n).addr = 17 :=
  regPart_17 (by simp only [Reg.capNrConsIndex]; omega) (by simp only [Reg.capNrConsIndex]; omega)

theorem part_capNrDrop {n : Nat} : regPart (Reg.capNrDrop n).addr = 17 :=
  regPart_17 (by simp only [Reg.capNrDrop]; omega) (by simp only [Reg.capNrDrop]; omega)

theorem part_capNrProdIndex {n : Nat} : regPart (Reg.capNrProdIndex n).addr = 17 :=
  regPart_17 (by simp only [Reg.capNrProdIndex]; omega) (by simp only [Reg.capNrProdIndex]; omega)

theorem part_capNrProdPhase {n : Nat} : regPart (Reg.capNrProdPhase n).addr = 17 :=
  regPart_17 (by simp only [Reg.capNrProdPhase]; omega) (by simp only [Reg.capNrProdPhase]; omega)

theorem part_ctBwBytes_2 {n : Nat} : regPart (Reg.ctBwBytes n) = 18 ∧ regPart ((Reg.ctBwBytes n) + 4) = 18 :=
  ⟨regPart_18 (by simp only [Reg.ctBwBytes]; omega) (by simp only [Reg.ctBwBytes]; omega), regPart_18 (by simp only [Reg.ctBwBytes]; omega) (by simp only [Reg.ctBwBytes]; omega)⟩

theorem part_ctBwLong : regPart Reg.ctBwLong.addr = 18 :=
  rfl

theorem part_ctBwPeak {n : Nat} : regPart (Reg.ctBwPeak n).addr = 18 :=
  regPart_18 (by simp only [Reg.ctBwPeak]; omega) (by simp only [Reg.ctBwPeak]; omega)

theorem part_ctBwPeakAt_2 {n : Nat} : regPart (Reg.ctBwPeakAt n) = 18 ∧ regPart ((Reg.ctBwPeakAt n) + 4) = 18 :=
  ⟨regPart_18 (by simp only [Reg.ctBwPeakAt]; omega) (by simp only [Reg.ctBwPeakAt]; omega), regPart_18 (by simp only [Reg.ctBwPeakAt]; omega) (by simp only [Reg.ctBwPeakAt]; omega)⟩

theorem part_ctBwSeq {n : Nat} : regPart (Reg.ctBwSeq n).addr = 18 :=
  regPart_18 (by simp only [Reg.ctBwSeq]; omega) (by simp only [Reg.ctBwSeq]; omega)

theorem part_ctBwShort : regPart Reg.ctBwShort.addr = 18 :=
  rfl

theorem part_ctLsCfgDp {n : Nat} : regPart (Reg.ctLsCfgDp n).addr = 18 :=
  regPart_18 (by simp only [Reg.ctLsCfgDp]; omega) (by simp only [Reg.ctLsCfgDp]; omega)

theorem part_ctLsCfgEgress {n : Nat} : regPart (Reg.ctLsCfgEgress n).addr = 18 :=
  regPart_18 (by simp only [Reg.ctLsCfgEgress]; omega) (by simp only [Reg.ctLsCfgEgress]; omega)

theorem part_ctLsCfgEn {n : Nat} : regPart (Reg.ctLsCfgEn n).addr = 18 :=
  regPart_18 (by simp only [Reg.ctLsCfgEn]; omega) (by simp only [Reg.ctLsCfgEn]; omega)

theorem part_ctLsCount_2 {n : Nat} : regPart (Reg.ctLsCount n) = 18 ∧ regPart ((Reg.ctLsCount n) + 4) = 18 :=
  ⟨regPart_18 (by simp only [Reg.ctLsCount]; omega) (by simp only [Reg.ctLsCount]; omega), regPart_18 (by simp only [Reg.ctLsCount]; omega) (by simp only [Reg.ctLsCount]; omega)⟩

theorem part_ctLsIn0 {n : Nat} : regPart (Reg.ctLsIn0 n).addr = 18 :=
  regPart_18 (by simp only [Reg.ctLsIn0]; omega) (by simp only [Reg.ctLsIn0]; omega)

theorem part_ctLsIn1 {n : Nat} : regPart (Reg.ctLsIn1 n).addr = 18 :=
  regPart_18 (by simp only [Reg.ctLsIn1]; omega) (by simp only [Reg.ctLsIn1]; omega)

theorem part_ctLsInvalid {n : Nat} : regPart (Reg.ctLsInvalid n).addr = 18 :=
  regPart_18 (by simp only [Reg.ctLsInvalid]; omega) (by simp only [Reg.ctLsInvalid]; omega)

theorem part_ctLsLast_2 {n : Nat} : regPart (Reg.ctLsLast n) = 18 ∧ regPart ((Reg.ctLsLast n) + 4) = 18 :=
  ⟨regPart_18 (by simp only [Reg.ctLsLast]; omega) (by simp only [Reg.ctLsLast]; omega), regPart_18 (by simp only [Reg.ctLsLast]; omega) (by simp only [Reg.ctLsLast]; omega)⟩

theorem part_ctLsMax_2 {n : Nat} : regPart (Reg.ctLsMax n) = 18 ∧ regPart ((Reg.ctLsMax n) + 4) = 18 :=
  ⟨regPart_18 (by simp only [Reg.ctLsMax]; omega) (by simp only [Reg.ctLsMax]; omega), regPart_18 (by simp only [Reg.ctLsMax]; omega) (by simp only [Reg.ctLsMax]; omega)⟩

theorem part_ctLsMin_2 {n : Nat} : regPart (Reg.ctLsMin n) = 18 ∧ regPart ((Reg.ctLsMin n) + 4) = 18 :=
  ⟨regPart_18 (by simp only [Reg.ctLsMin]; omega) (by simp only [Reg.ctLsMin]; omega), regPart_18 (by simp only [Reg.ctLsMin]; omega) (by simp only [Reg.ctLsMin]; omega)⟩

theorem part_ctLsN {n : Nat} : regPart (Reg.ctLsN n).addr = 18 :=
  regPart_18 (by simp only [Reg.ctLsN]; omega) (by simp only [Reg.ctLsN]; omega)

theorem part_ctLsSum_2 {n : Nat} : regPart (Reg.ctLsSum n) = 18 ∧ regPart ((Reg.ctLsSum n) + 4) = 18 :=
  ⟨regPart_18 (by simp only [Reg.ctLsSum]; omega) (by simp only [Reg.ctLsSum]; omega), regPart_18 (by simp only [Reg.ctLsSum]; omega) (by simp only [Reg.ctLsSum]; omega)⟩

theorem part_ctOvf {n : Nat} : regPart (Reg.ctOvf n).addr = 18 :=
  regPart_18 (by simp only [Reg.ctOvf]; omega) (by simp only [Reg.ctOvf]; omega)

theorem part_ctThCfgIndex {n : Nat} : regPart (Reg.ctThCfgIndex n).addr = 18 :=
  regPart_18 (by simp only [Reg.ctThCfgIndex]; omega) (by simp only [Reg.ctThCfgIndex]; omega)

theorem part_ctThCfgSrcKind {n : Nat} : regPart (Reg.ctThCfgSrcKind n).addr = 18 :=
  regPart_18 (by simp only [Reg.ctThCfgSrcKind]; omega) (by simp only [Reg.ctThCfgSrcKind]; omega)

theorem part_ctThN {n : Nat} : regPart (Reg.ctThN n).addr = 18 :=
  regPart_18 (by simp only [Reg.ctThN]; omega) (by simp only [Reg.ctThN]; omega)

theorem part_ctWinMapEn {n : Nat} : regPart (Reg.ctWinMapEn n).addr = 18 :=
  regPart_18 (by simp only [Reg.ctWinMapEn]; omega) (by simp only [Reg.ctWinMapEn]; omega)

theorem part_ctWinMapIndex {n : Nat} : regPart (Reg.ctWinMapIndex n).addr = 18 :=
  regPart_18 (by simp only [Reg.ctWinMapIndex]; omega) (by simp only [Reg.ctWinMapIndex]; omega)

theorem part_emFCtrlOcc {n : Nat} : regPart (Reg.emFCtrlOcc n).addr = 6 :=
  regPart_6 (by simp only [Reg.emFCtrlOcc]; omega) (by simp only [Reg.emFCtrlOcc]; omega)

theorem part_emFW0 {n : Nat} : regPart (Reg.emFW0 n).addr = 6 :=
  regPart_6 (by simp only [Reg.emFW0]; omega) (by simp only [Reg.emFW0]; omega)

theorem part_emFW1 {n : Nat} : regPart (Reg.emFW1 n).addr = 6 :=
  regPart_6 (by simp only [Reg.emFW1]; omega) (by simp only [Reg.emFW1]; omega)

theorem part_emFW2 {n : Nat} : regPart (Reg.emFW2 n).addr = 6 :=
  regPart_6 (by simp only [Reg.emFW2]; omega) (by simp only [Reg.emFW2]; omega)

theorem part_emFW3 {n : Nat} : regPart (Reg.emFW3 n).addr = 6 :=
  regPart_6 (by simp only [Reg.emFW3]; omega) (by simp only [Reg.emFW3]; omega)

theorem part_emFqFreq_2 {n : Nat} : regPart (Reg.emFqFreq n) = 6 ∧ regPart ((Reg.emFqFreq n) + 4) = 6 :=
  ⟨regPart_6 (by simp only [Reg.emFqFreq]; omega) (by simp only [Reg.emFqFreq]; omega), regPart_6 (by simp only [Reg.emFqFreq]; omega) (by simp only [Reg.emFqFreq]; omega)⟩

theorem part_emFqInfoInvalid {n : Nat} : regPart (Reg.emFqInfoInvalid n).addr = 6 :=
  regPart_6 (by simp only [Reg.emFqInfoInvalid]; omega) (by simp only [Reg.emFqInfoInvalid]; omega)

theorem part_emFqInfoN {n : Nat} : regPart (Reg.emFqInfoN n).addr = 6 :=
  regPart_6 (by simp only [Reg.emFqInfoN]; omega) (by simp only [Reg.emFqInfoN]; omega)

theorem part_emFqSigma {n : Nat} : regPart (Reg.emFqSigma n).addr = 6 :=
  regPart_6 (by simp only [Reg.emFqSigma]; omega) (by simp only [Reg.emFqSigma]; omega)

theorem part_emIuUnpaired {n : Nat} : regPart (Reg.emIuUnpaired n).addr = 6 :=
  regPart_6 (by simp only [Reg.emIuUnpaired]; omega) (by simp only [Reg.emIuUnpaired]; omega)

theorem part_emLost {n : Nat} : regPart (Reg.emLost n).addr = 6 :=
  regPart_6 (by simp only [Reg.emLost]; omega) (by simp only [Reg.emLost]; omega)

theorem part_emMissed_2 {n : Nat} : regPart (Reg.emMissed n) = 6 ∧ regPart ((Reg.emMissed n) + 4) = 6 :=
  ⟨regPart_6 (by simp only [Reg.emMissed]; omega) (by simp only [Reg.emMissed]; omega), regPart_6 (by simp only [Reg.emMissed]; omega) (by simp only [Reg.emMissed]; omega)⟩

theorem part_emRBase_2 {n : Nat} : regPart (Reg.emRBase n) = 6 ∧ regPart ((Reg.emRBase n) + 4) = 6 :=
  ⟨regPart_6 (by simp only [Reg.emRBase]; omega) (by simp only [Reg.emRBase]; omega), regPart_6 (by simp only [Reg.emRBase]; omega) (by simp only [Reg.emRBase]; omega)⟩

theorem part_emRCfgEn {n : Nat} : regPart (Reg.emRCfgEn n).addr = 6 :=
  regPart_6 (by simp only [Reg.emRCfgEn]; omega) (by simp only [Reg.emRCfgEn]; omega)

theorem part_emRCfgLog2sz {n : Nat} : regPart (Reg.emRCfgLog2sz n).addr = 6 :=
  regPart_6 (by simp only [Reg.emRCfgLog2sz]; omega) (by simp only [Reg.emRCfgLog2sz]; omega)

theorem part_emRConsIndex {n : Nat} : regPart (Reg.emRConsIndex n).addr = 6 :=
  regPart_6 (by simp only [Reg.emRConsIndex]; omega) (by simp only [Reg.emRConsIndex]; omega)

theorem part_emRProdIndex {n : Nat} : regPart (Reg.emRProdIndex n).addr = 6 :=
  regPart_6 (by simp only [Reg.emRProdIndex]; omega) (by simp only [Reg.emRProdIndex]; omega)

theorem part_emRProdPhase {n : Nat} : regPart (Reg.emRProdPhase n).addr = 6 :=
  regPart_6 (by simp only [Reg.emRProdPhase]; omega) (by simp only [Reg.emRProdPhase]; omega)

theorem part_emStatusAwake {n : Nat} : regPart (Reg.emStatusAwake n).addr = 6 :=
  regPart_6 (by simp only [Reg.emStatusAwake]; omega) (by simp only [Reg.emStatusAwake]; omega)

theorem part_emStatusCalOk {n : Nat} : regPart (Reg.emStatusCalOk n).addr = 6 :=
  regPart_6 (by simp only [Reg.emStatusCalOk]; omega) (by simp only [Reg.emStatusCalOk]; omega)

theorem part_emStatusEn {n : Nat} : regPart (Reg.emStatusEn n).addr = 6 :=
  regPart_6 (by simp only [Reg.emStatusEn]; omega) (by simp only [Reg.emStatusEn]; omega)

theorem part_emStatusGate {n : Nat} : regPart (Reg.emStatusGate n).addr = 6 :=
  regPart_6 (by simp only [Reg.emStatusGate]; omega) (by simp only [Reg.emStatusGate]; omega)

theorem part_emStatusRing {n : Nat} : regPart (Reg.emStatusRing n).addr = 6 :=
  regPart_6 (by simp only [Reg.emStatusRing]; omega) (by simp only [Reg.emStatusRing]; omega)

theorem part_emStatusStop {n : Nat} : regPart (Reg.emStatusStop n).addr = 6 :=
  regPart_6 (by simp only [Reg.emStatusStop]; omega) (by simp only [Reg.emStatusStop]; omega)

theorem part_erGCfgAon {n : Nat} : regPart (Reg.erGCfgAon n).addr = 15 :=
  regPart_15 (by simp only [Reg.erGCfgAon]; omega) (by simp only [Reg.erGCfgAon]; omega)

theorem part_erGCfgDelay {n : Nat} : regPart (Reg.erGCfgDelay n).addr = 15 :=
  regPart_15 (by simp only [Reg.erGCfgDelay]; omega) (by simp only [Reg.erGCfgDelay]; omega)

theorem part_erGCfgDownFails {n : Nat} : regPart (Reg.erGCfgDownFails n).addr = 15 :=
  regPart_15 (by simp only [Reg.erGCfgDownFails]; omega) (by simp only [Reg.erGCfgDownFails]; omega)

theorem part_erGCfgEvidence {n : Nat} : regPart (Reg.erGCfgEvidence n).addr = 15 :=
  regPart_15 (by simp only [Reg.erGCfgEvidence]; omega) (by simp only [Reg.erGCfgEvidence]; omega)

theorem part_erGCfgLateSend {n : Nat} : regPart (Reg.erGCfgLateSend n).addr = 15 :=
  regPart_15 (by simp only [Reg.erGCfgLateSend]; omega) (by simp only [Reg.erGCfgLateSend]; omega)

theorem part_erGCfgRec {n : Nat} : regPart (Reg.erGCfgRec n).addr = 15 :=
  regPart_15 (by simp only [Reg.erGCfgRec]; omega) (by simp only [Reg.erGCfgRec]; omega)

theorem part_erGCfgRing {n : Nat} : regPart (Reg.erGCfgRing n).addr = 15 :=
  regPart_15 (by simp only [Reg.erGCfgRing]; omega) (by simp only [Reg.erGCfgRing]; omega)

theorem part_erGFseq {n : Nat} : regPart (Reg.erGFseq n).addr = 15 :=
  regPart_15 (by simp only [Reg.erGFseq]; omega) (by simp only [Reg.erGFseq]; omega)

theorem part_erGIn0 {n : Nat} : regPart (Reg.erGIn0 n).addr = 15 :=
  regPart_15 (by simp only [Reg.erGIn0]; omega) (by simp only [Reg.erGIn0]; omega)

theorem part_erGIn1 {n : Nat} : regPart (Reg.erGIn1 n).addr = 15 :=
  regPart_15 (by simp only [Reg.erGIn1]; omega) (by simp only [Reg.erGIn1]; omega)

theorem part_erGMemb0 {n : Nat} : regPart (Reg.erGMemb0 n).addr = 15 :=
  regPart_15 (by simp only [Reg.erGMemb0]; omega) (by simp only [Reg.erGMemb0]; omega)

theorem part_erGMemb1 {n : Nat} : regPart (Reg.erGMemb1 n).addr = 15 :=
  regPart_15 (by simp only [Reg.erGMemb1]; omega) (by simp only [Reg.erGMemb1]; omega)

theorem part_erGOcc {n : Nat} : regPart (Reg.erGOcc n).addr = 15 :=
  regPart_15 (by simp only [Reg.erGOcc]; omega) (by simp only [Reg.erGOcc]; omega)

theorem part_erGPeak {n : Nat} : regPart (Reg.erGPeak n).addr = 15 :=
  regPart_15 (by simp only [Reg.erGPeak]; omega) (by simp only [Reg.erGPeak]; omega)

theorem part_erGStatusHeld {n : Nat} : regPart (Reg.erGStatusHeld n).addr = 15 :=
  regPart_15 (by simp only [Reg.erGStatusHeld]; omega) (by simp only [Reg.erGStatusHeld]; omega)

theorem part_erGStatusMode {n : Nat} : regPart (Reg.erGStatusMode n).addr = 15 :=
  regPart_15 (by simp only [Reg.erGStatusMode]; omega) (by simp only [Reg.erGStatusMode]; omega)

theorem part_erGStatusState {n : Nat} : regPart (Reg.erGStatusState n).addr = 15 :=
  regPart_15 (by simp only [Reg.erGStatusState]; omega) (by simp only [Reg.erGStatusState]; omega)

theorem part_erPortAlignAligned {n : Nat} : regPart (Reg.erPortAlignAligned n).addr = 15 :=
  regPart_15 (by simp only [Reg.erPortAlignAligned]; omega) (by simp only [Reg.erPortAlignAligned]; omega)

theorem part_erPortAlignCause {n : Nat} : regPart (Reg.erPortAlignCause n).addr = 15 :=
  regPart_15 (by simp only [Reg.erPortAlignCause]; omega) (by simp only [Reg.erPortAlignCause]; omega)

theorem part_erPortAlignRelPart {n : Nat} : regPart (Reg.erPortAlignRelPart n).addr = 15 :=
  regPart_15 (by simp only [Reg.erPortAlignRelPart]; omega) (by simp only [Reg.erPortAlignRelPart]; omega)

theorem part_erPortAlignWordOff {n : Nat} : regPart (Reg.erPortAlignWordOff n).addr = 15 :=
  regPart_15 (by simp only [Reg.erPortAlignWordOff]; omega) (by simp only [Reg.erPortAlignWordOff]; omega)

theorem part_erTrim {n : Nat} : regPart (Reg.erTrim n).addr = 15 :=
  regPart_15 (by simp only [Reg.erTrim]; omega) (by simp only [Reg.erTrim]; omega)

theorem part_evdBlock_2 : regPart Reg.evdBlock = 16 ∧ regPart (Reg.evdBlock + 4) = 16 :=
  ⟨rfl, rfl⟩

theorem part_evdEpoch_2 : regPart Reg.evdEpoch = 16 ∧ regPart (Reg.evdEpoch + 4) = 16 :=
  ⟨rfl, rfl⟩

theorem part_evdRCfgEn : regPart Reg.evdRCfgEn.addr = 16 :=
  rfl

theorem part_evdRCfgLog2sz : regPart Reg.evdRCfgLog2sz.addr = 16 :=
  rfl

theorem part_evdRConsIndex : regPart Reg.evdRConsIndex.addr = 16 :=
  rfl

theorem part_evdRProdIndex : regPart Reg.evdRProdIndex.addr = 16 :=
  rfl

theorem part_evdRingLost_2 : regPart Reg.evdRingLost = 16 ∧ regPart (Reg.evdRingLost + 4) = 16 :=
  ⟨rfl, rfl⟩

theorem part_evdStatusPeriodUs : regPart Reg.evdStatusPeriodUs.addr = 16 :=
  rfl

theorem part_fmGCfgEgress {n : Nat} : regPart (Reg.fmGCfgEgress n).addr = 14 :=
  regPart_14 (by simp only [Reg.fmGCfgEgress]; omega) (by simp only [Reg.fmGCfgEgress]; omega)

theorem part_fmGCfgEvidence {n : Nat} : regPart (Reg.fmGCfgEvidence n).addr = 14 :=
  regPart_14 (by simp only [Reg.fmGCfgEvidence]; omega) (by simp only [Reg.fmGCfgEvidence]; omega)

theorem part_fmGCfgShortPct {n : Nat} : regPart (Reg.fmGCfgShortPct n).addr = 14 :=
  regPart_14 (by simp only [Reg.fmGCfgShortPct]; omega) (by simp only [Reg.fmGCfgShortPct]; omega)

theorem part_fmGCfgTrailer {n : Nat} : regPart (Reg.fmGCfgTrailer n).addr = 14 :=
  regPart_14 (by simp only [Reg.fmGCfgTrailer]; omega) (by simp only [Reg.fmGCfgTrailer]; omega)

theorem part_fmGCfgWindow {n : Nat} : regPart (Reg.fmGCfgWindow n).addr = 14 :=
  regPart_14 (by simp only [Reg.fmGCfgWindow]; omega) (by simp only [Reg.fmGCfgWindow]; omega)

theorem part_fmGHoldMin {n : Nat} : regPart (Reg.fmGHoldMin n).addr = 14 :=
  regPart_14 (by simp only [Reg.fmGHoldMin]; omega) (by simp only [Reg.fmGHoldMin]; omega)

theorem part_fmGMemb0 {n : Nat} : regPart (Reg.fmGMemb0 n).addr = 14 :=
  regPart_14 (by simp only [Reg.fmGMemb0]; omega) (by simp only [Reg.fmGMemb0]; omega)

theorem part_fmGMemb1 {n : Nat} : regPart (Reg.fmGMemb1 n).addr = 14 :=
  regPart_14 (by simp only [Reg.fmGMemb1]; omega) (by simp only [Reg.fmGMemb1]; omega)

theorem part_fmGOcc {n : Nat} : regPart (Reg.fmGOcc n).addr = 14 :=
  regPart_14 (by simp only [Reg.fmGOcc]; omega) (by simp only [Reg.fmGOcc]; omega)

theorem part_fmGPeak {n : Nat} : regPart (Reg.fmGPeak n).addr = 14 :=
  regPart_14 (by simp only [Reg.fmGPeak]; omega) (by simp only [Reg.fmGPeak]; omega)

theorem part_fmGSeq {n : Nat} : regPart (Reg.fmGSeq n).addr = 14 :=
  regPart_14 (by simp only [Reg.fmGSeq]; omega) (by simp only [Reg.fmGSeq]; omega)

theorem part_fmGStatusEgDown {n : Nat} : regPart (Reg.fmGStatusEgDown n).addr = 14 :=
  regPart_14 (by simp only [Reg.fmGStatusEgDown]; omega) (by simp only [Reg.fmGStatusEgDown]; omega)

theorem part_fmGStatusHeld {n : Nat} : regPart (Reg.fmGStatusHeld n).addr = 14 :=
  regPart_14 (by simp only [Reg.fmGStatusHeld]; omega) (by simp only [Reg.fmGStatusHeld]; omega)

theorem part_fmGStatusLateHeld {n : Nat} : regPart (Reg.fmGStatusLateHeld n).addr = 14 :=
  regPart_14 (by simp only [Reg.fmGStatusLateHeld]; omega) (by simp only [Reg.fmGStatusLateHeld]; omega)

theorem part_fmGStatusShort {n : Nat} : regPart (Reg.fmGStatusShort n).addr = 14 :=
  regPart_14 (by simp only [Reg.fmGStatusShort]; omega) (by simp only [Reg.fmGStatusShort]; omega)

theorem part_fmGStatusState {n : Nat} : regPart (Reg.fmGStatusState n).addr = 14 :=
  regPart_14 (by simp only [Reg.fmGStatusState]; omega) (by simp only [Reg.fmGStatusState]; omega)

theorem part_fmPartFreeGranules : regPart Reg.fmPartFreeGranules.addr = 14 :=
  rfl

theorem part_fmPartMgGranules {n : Nat} : regPart (Reg.fmPartMgGranules n).addr = 14 :=
  regPart_14 (by simp only [Reg.fmPartMgGranules]; omega) (by simp only [Reg.fmPartMgGranules]; omega)

theorem part_fmPartRgGranules {n : Nat} : regPart (Reg.fmPartRgGranules n).addr = 14 :=
  regPart_14 (by simp only [Reg.fmPartRgGranules]; omega) (by simp only [Reg.fmPartRgGranules]; omega)

theorem part_fmTrim {n : Nat} : regPart (Reg.fmTrim n).addr = 14 :=
  regPart_14 (by simp only [Reg.fmTrim]; omega) (by simp only [Reg.fmTrim]; omega)

theorem part_ftAgeStatusEn : regPart Reg.ftAgeStatusEn.addr = 12 :=
  rfl

theorem part_ftAgeStatusNotify : regPart Reg.ftAgeStatusNotify.addr = 12 :=
  rfl

theorem part_ftAgeStatusPeriodS : regPart Reg.ftAgeStatusPeriodS.addr = 12 :=
  rfl

theorem part_ftLrnCoalCoalesceUs : regPart Reg.ftLrnCoalCoalesceUs.addr = 12 :=
  rfl

theorem part_ftLrnDrop_2 : regPart Reg.ftLrnDrop = 12 ∧ regPart (Reg.ftLrnDrop + 4) = 12 :=
  ⟨rfl, rfl⟩

theorem part_ftLrnStatusMove : regPart Reg.ftLrnStatusMove.addr = 12 :=
  rfl

theorem part_ftLrnStatusRate : regPart Reg.ftLrnStatusRate.addr = 12 :=
  rfl

theorem part_ftLrnStatusStaticMove : regPart Reg.ftLrnStatusStaticMove.addr = 12 :=
  rfl

theorem part_ftNhOcc : regPart Reg.ftNhOcc.addr = 12 :=
  rfl

theorem part_ftOccB0 : regPart Reg.ftOccB0.addr = 12 :=
  rfl

theorem part_ftOccB1 : regPart Reg.ftOccB1.addr = 12 :=
  rfl

theorem part_ftRouteOcc : regPart Reg.ftRouteOcc.addr = 12 :=
  rfl

theorem part_ftStatusStashOcc : regPart Reg.ftStatusStashOcc.addr = 12 :=
  rfl

theorem part_ftStatusTailOcc : regPart Reg.ftStatusTailOcc.addr = 12 :=
  rfl

theorem part_ftStatusWalker : regPart Reg.ftStatusWalker.addr = 12 :=
  rfl

theorem part_fwHealthCore0Ok : regPart Reg.fwHealthCore0Ok.addr = 23 :=
  rfl

theorem part_fwHealthCore1Ok : regPart Reg.fwHealthCore1Ok.addr = 23 :=
  rfl

theorem part_fwHealthMemOk : regPart Reg.fwHealthMemOk.addr = 23 :=
  rfl

theorem part_fwHealthSeqOk : regPart Reg.fwHealthSeqOk.addr = 23 :=
  rfl

theorem part_fwHealthTrialRem : regPart Reg.fwHealthTrialRem.addr = 23 :=
  rfl

theorem part_fwSlotStFails {n : Nat} : regPart (Reg.fwSlotStFails n).addr = 23 :=
  regPart_23 (by simp only [Reg.fwSlotStFails]; omega) (by simp only [Reg.fwSlotStFails]; omega)

theorem part_fwSlotStKind {n : Nat} : regPart (Reg.fwSlotStKind n).addr = 23 :=
  regPart_23 (by simp only [Reg.fwSlotStKind]; omega) (by simp only [Reg.fwSlotStKind]; omega)

theorem part_fwSlotStState {n : Nat} : regPart (Reg.fwSlotStState n).addr = 23 :=
  regPart_23 (by simp only [Reg.fwSlotStState]; omega) (by simp only [Reg.fwSlotStState]; omega)

theorem part_fwSlotVer {n : Nat} : regPart (Reg.fwSlotVer n).addr = 23 :=
  regPart_23 (by simp only [Reg.fwSlotVer]; omega) (by simp only [Reg.fwSlotVer]; omega)

theorem part_fwStateEvdSlot : regPart Reg.fwStateEvdSlot.addr = 23 :=
  rfl

theorem part_fwStateHandovers : regPart Reg.fwStateHandovers.addr = 23 :=
  rfl

theorem part_fwStateNext : regPart Reg.fwStateNext.addr = 23 :=
  rfl

theorem part_fwStatePhase : regPart Reg.fwStatePhase.addr = 23 :=
  rfl

theorem part_fwStateRun : regPart Reg.fwStateRun.addr = 23 :=
  rfl

theorem part_gdLockLock : regPart Reg.gdLockLock.addr = 1 :=
  rfl

theorem part_gdSecStatusAoLost : regPart Reg.gdSecStatusAoLost.addr = 1 :=
  rfl

theorem part_gdSecStatusEvdError : regPart Reg.gdSecStatusEvdError.addr = 1 :=
  rfl

theorem part_gdSecStatusOwnerLocked : regPart Reg.gdSecStatusOwnerLocked.addr = 1 :=
  rfl

theorem part_gdSecStatusPolicy : regPart Reg.gdSecStatusPolicy.addr = 1 :=
  rfl

theorem part_gdSecStatusSelftestRun : regPart Reg.gdSecStatusSelftestRun.addr = 1 :=
  rfl

theorem part_gdSecStatusTamperCfg : regPart Reg.gdSecStatusTamperCfg.addr = 1 :=
  rfl

theorem part_gdSecStatusVbatLow : regPart Reg.gdSecStatusVbatLow.addr = 1 :=
  rfl

theorem part_gdSecStatusZeroised : regPart Reg.gdSecStatusZeroised.addr = 1 :=
  rfl

theorem part_gdStatusGdViol : regPart Reg.gdStatusGdViol.addr = 1 :=
  rfl

theorem part_gdStatusLastReason : regPart Reg.gdStatusLastReason.addr = 1 :=
  rfl

theorem part_gdStatusLastReq : regPart Reg.gdStatusLastReq.addr = 1 :=
  rfl

theorem part_gdStatusViolCount : regPart Reg.gdStatusViolCount.addr = 1 :=
  rfl

theorem part_gdSvnFloor : regPart Reg.gdSvnFloor.addr = 1 :=
  rfl

theorem part_gdViolAddrOffset : regPart Reg.gdViolAddrOffset.addr = 1 :=
  rfl

theorem part_gnPortClkOff {n : Nat} : regPart (Reg.gnPortClkOff n).addr = 7 :=
  regPart_7 (by simp only [Reg.gnPortClkOff]; omega) (by simp only [Reg.gnPortClkOff]; omega)

theorem part_gnPortInv {n : Nat} : regPart (Reg.gnPortInv n).addr = 7 :=
  regPart_7 (by simp only [Reg.gnPortInv]; omega) (by simp only [Reg.gnPortInv]; omega)

theorem part_gnPortMagPct {n : Nat} : regPart (Reg.gnPortMagPct n).addr = 7 :=
  regPart_7 (by simp only [Reg.gnPortMagPct]; omega) (by simp only [Reg.gnPortMagPct]; omega)

theorem part_gnPortOk {n : Nat} : regPart (Reg.gnPortOk n).addr = 7 :=
  regPart_7 (by simp only [Reg.gnPortOk]; omega) (by simp only [Reg.gnPortOk]; omega)

theorem part_gnSolSigma {n : Nat} : regPart (Reg.gnSolSigma n).addr = 7 :=
  regPart_7 (by simp only [Reg.gnSolSigma]; omega) (by simp only [Reg.gnSolSigma]; omega)

theorem part_gnSolStatusAccK {n : Nat} : regPart (Reg.gnSolStatusAccK n).addr = 7 :=
  regPart_7 (by simp only [Reg.gnSolStatusAccK]; omega) (by simp only [Reg.gnSolStatusAccK]; omega)

theorem part_gnSolStatusCause {n : Nat} : regPart (Reg.gnSolStatusCause n).addr = 7 :=
  regPart_7 (by simp only [Reg.gnSolStatusCause]; omega) (by simp only [Reg.gnSolStatusCause]; omega)

theorem part_gnSolStatusHold {n : Nat} : regPart (Reg.gnSolStatusHold n).addr = 7 :=
  regPart_7 (by simp only [Reg.gnSolStatusHold]; omega) (by simp only [Reg.gnSolStatusHold]; omega)

theorem part_gnSolStatusSats {n : Nat} : regPart (Reg.gnSolStatusSats n).addr = 7 :=
  regPart_7 (by simp only [Reg.gnSolStatusSats]; omega) (by simp only [Reg.gnSolStatusSats]; omega)

theorem part_gnSolStatusSf {n : Nat} : regPart (Reg.gnSolStatusSf n).addr = 7 :=
  regPart_7 (by simp only [Reg.gnSolStatusSf]; omega) (by simp only [Reg.gnSolStatusSf]; omega)

theorem part_gnSolStatusSpoof {n : Nat} : regPart (Reg.gnSolStatusSpoof n).addr = 7 :=
  regPart_7 (by simp only [Reg.gnSolStatusSpoof]; omega) (by simp only [Reg.gnSolStatusSpoof]; omega)

theorem part_gnSolStatusState {n : Nat} : regPart (Reg.gnSolStatusState n).addr = 7 :=
  regPart_7 (by simp only [Reg.gnSolStatusState]; omega) (by simp only [Reg.gnSolStatusState]; omega)

theorem part_gnSolStatusSystems {n : Nat} : regPart (Reg.gnSolStatusSystems n).addr = 7 :=
  regPart_7 (by simp only [Reg.gnSolStatusSystems]; omega) (by simp only [Reg.gnSolStatusSystems]; omega)

theorem part_gnStatusAwake : regPart Reg.gnStatusAwake.addr = 7 :=
  rfl

theorem part_gnStatusChannels : regPart Reg.gnStatusChannels.addr = 7 :=
  rfl

theorem part_gnStatusGnaOk : regPart Reg.gnStatusGnaOk.addr = 7 :=
  rfl

theorem part_gnStatusGnbOk : regPart Reg.gnStatusGnbOk.addr = 7 :=
  rfl

theorem part_gnStatusLoad : regPart Reg.gnStatusLoad.addr = 7 :=
  rfl

theorem part_hstEvrLost_2 : regPart Reg.hstEvrLost = 0 ∧ regPart (Reg.hstEvrLost + 4) = 0 :=
  ⟨rfl, rfl⟩

theorem part_hstFaultAddrBar : regPart Reg.hstFaultAddrBar.addr = 0 :=
  rfl

theorem part_hstFaultAddrOffset : regPart Reg.hstFaultAddrOffset.addr = 0 :=
  rfl

theorem part_hstFaultAddrReq : regPart Reg.hstFaultAddrReq.addr = 0 :=
  rfl

theorem part_hstFaultAddrWrite : regPart Reg.hstFaultAddrWrite.addr = 0 :=
  rfl

theorem part_hstIrqStatusAlarm : regPart Reg.hstIrqStatusAlarm.addr = 0 :=
  rfl

theorem part_hstIrqStatusEvr : regPart Reg.hstIrqStatusEvr.addr = 0 :=
  rfl

theorem part_hstIrqStatusGdViol : regPart Reg.hstIrqStatusGdViol.addr = 0 :=
  rfl

theorem part_hstIrqStatusQcChg : regPart Reg.hstIrqStatusQcChg.addr = 0 :=
  rfl

theorem part_hstIrqStatusReadyChg : regPart Reg.hstIrqStatusReadyChg.addr = 0 :=
  rfl

theorem part_hstStatusAccessFault : regPart Reg.hstStatusAccessFault.addr = 0 :=
  rfl

theorem part_hstStatusActive : regPart Reg.hstStatusActive.addr = 0 :=
  rfl

theorem part_hstStatusAlarm : regPart Reg.hstStatusAlarm.addr = 0 :=
  rfl

theorem part_hstStatusEvrLoss : regPart Reg.hstStatusEvrLoss.addr = 0 :=
  rfl

theorem part_hstStatusFwRun : regPart Reg.hstStatusFwRun.addr = 0 :=
  rfl

theorem part_hstStatusReady : regPart Reg.hstStatusReady.addr = 0 :=
  rfl

theorem part_hstStatusServed : regPart Reg.hstStatusServed.addr = 0 :=
  rfl

theorem part_mbxCfgCfgErr {n : Nat} : regPart (Reg.mbxCfgCfgErr n).addr = 2 :=
  regPart_2 (by simp only [Reg.mbxCfgCfgErr]; omega) (by simp only [Reg.mbxCfgCfgErr]; omega)

theorem part_mbxCqConsIndex {n : Nat} : regPart (Reg.mbxCqConsIndex n).addr = 2 :=
  regPart_2 (by simp only [Reg.mbxCqConsIndex]; omega) (by simp only [Reg.mbxCqConsIndex]; omega)

theorem part_mbxCqProdIndex {n : Nat} : regPart (Reg.mbxCqProdIndex n).addr = 2 :=
  regPart_2 (by simp only [Reg.mbxCqProdIndex]; omega) (by simp only [Reg.mbxCqProdIndex]; omega)

theorem part_mbxCqProdPhase {n : Nat} : regPart (Reg.mbxCqProdPhase n).addr = 2 :=
  regPart_2 (by simp only [Reg.mbxCqProdPhase]; omega) (by simp only [Reg.mbxCqProdPhase]; omega)

theorem part_mbxDbShadow {n : Nat} : regPart (Reg.mbxDbShadow n).addr = 2 :=
  regPart_2 (by simp only [Reg.mbxDbShadow]; omega) (by simp only [Reg.mbxDbShadow]; omega)

theorem part_mbxLongOpOpcode : regPart Reg.mbxLongOpOpcode.addr = 2 :=
  rfl

theorem part_mbxLongOpTag : regPart Reg.mbxLongOpTag.addr = 2 :=
  rfl

theorem part_mbxLongStepDone : regPart Reg.mbxLongStepDone.addr = 2 :=
  rfl

theorem part_mbxLongStepEstimate : regPart Reg.mbxLongStepEstimate.addr = 2 :=
  rfl

theorem part_mbxSqHeadIndex {n : Nat} : regPart (Reg.mbxSqHeadIndex n).addr = 2 :=
  regPart_2 (by simp only [Reg.mbxSqHeadIndex]; omega) (by simp only [Reg.mbxSqHeadIndex]; omega)

theorem part_mbxStatusCqStall {n : Nat} : regPart (Reg.mbxStatusCqStall n).addr = 2 :=
  regPart_2 (by simp only [Reg.mbxStatusCqStall]; omega) (by simp only [Reg.mbxStatusCqStall]; omega)

theorem part_mbxStatusDbBad {n : Nat} : regPart (Reg.mbxStatusDbBad n).addr = 2 :=
  regPart_2 (by simp only [Reg.mbxStatusDbBad]; omega) (by simp only [Reg.mbxStatusDbBad]; omega)

theorem part_mbxStatusDiscard {n : Nat} : regPart (Reg.mbxStatusDiscard n).addr = 2 :=
  regPart_2 (by simp only [Reg.mbxStatusDiscard]; omega) (by simp only [Reg.mbxStatusDiscard]; omega)

theorem part_mbxStatusFetchErr {n : Nat} : regPart (Reg.mbxStatusFetchErr n).addr = 2 :=
  regPart_2 (by simp only [Reg.mbxStatusFetchErr]; omega) (by simp only [Reg.mbxStatusFetchErr]; omega)

theorem part_mbxStatusPending {n : Nat} : regPart (Reg.mbxStatusPending n).addr = 2 :=
  regPart_2 (by simp only [Reg.mbxStatusPending]; omega) (by simp only [Reg.mbxStatusPending]; omega)

theorem part_mpLastUe_2 : regPart Reg.mpLastUe = 19 ∧ regPart (Reg.mpLastUe + 4) = 19 :=
  ⟨rfl, rfl⟩

theorem part_mpPeriodPeriodS : regPart Reg.mpPeriodPeriodS.addr = 19 :=
  rfl

theorem part_mpStatusBistOk : regPart Reg.mpStatusBistOk.addr = 19 :=
  rfl

theorem part_mpStatusScrub : regPart Reg.mpStatusScrub.addr = 19 :=
  rfl

theorem part_mpStatusScrubMem : regPart Reg.mpStatusScrubMem.addr = 19 :=
  rfl

theorem part_mpStatusSticky : regPart Reg.mpStatusSticky.addr = 19 :=
  rfl

theorem part_mpStatusTrackOcc : regPart Reg.mpStatusTrackOcc.addr = 19 :=
  rfl

theorem part_mpTrack : regPart Reg.mpTrack.addr = 19 :=
  rfl

theorem part_plDPerr_2 {n : Nat} : regPart (Reg.plDPerr n) = 5 ∧ regPart ((Reg.plDPerr n) + 4) = 5 :=
  ⟨regPart_5 (by simp only [Reg.plDPerr]; omega) (by simp only [Reg.plDPerr]; omega), regPart_5 (by simp only [Reg.plDPerr]; omega) (by simp only [Reg.plDPerr]; omega)⟩

theorem part_plDStatusCount {n : Nat} : regPart (Reg.plDStatusCount n).addr = 5 :=
  regPart_5 (by simp only [Reg.plDStatusCount]; omega) (by simp only [Reg.plDStatusCount]; omega)

theorem part_plDStatusFacq {n : Nat} : regPart (Reg.plDStatusFacq n).addr = 5 :=
  regPart_5 (by simp only [Reg.plDStatusFacq]; omega) (by simp only [Reg.plDStatusFacq]; omega)

theorem part_plDStatusLock {n : Nat} : regPart (Reg.plDStatusLock n).addr = 5 :=
  regPart_5 (by simp only [Reg.plDStatusLock]; omega) (by simp only [Reg.plDStatusLock]; omega)

theorem part_plDStatusSlow {n : Nat} : regPart (Reg.plDStatusSlow n).addr = 5 :=
  regPart_5 (by simp only [Reg.plDStatusSlow]; omega) (by simp only [Reg.plDStatusSlow]; omega)

theorem part_plNtw_2 : regPart Reg.plNtw = 5 ∧ regPart (Reg.plNtw + 4) = 5 :=
  ⟨rfl, rfl⟩

theorem part_plOsynDenValue {n : Nat} : regPart (Reg.plOsynDenValue n).addr = 5 :=
  regPart_5 (by simp only [Reg.plOsynDenValue]; omega) (by simp only [Reg.plOsynDenValue]; omega)

theorem part_plOsynNumValue {n : Nat} : regPart (Reg.plOsynNumValue n).addr = 5 :=
  regPart_5 (by simp only [Reg.plOsynNumValue]; omega) (by simp only [Reg.plOsynNumValue]; omega)

theorem part_plOsynStatusInt {n : Nat} : regPart (Reg.plOsynStatusInt n).addr = 5 :=
  regPart_5 (by simp only [Reg.plOsynStatusInt]; omega) (by simp only [Reg.plOsynStatusInt]; omega)

theorem part_plOsynStatusLock {n : Nat} : regPart (Reg.plOsynStatusLock n).addr = 5 :=
  regPart_5 (by simp only [Reg.plOsynStatusLock]; omega) (by simp only [Reg.plOsynStatusLock]; omega)

theorem part_plOsynStatusRetune {n : Nat} : regPart (Reg.plOsynStatusRetune n).addr = 5 :=
  regPart_5 (by simp only [Reg.plOsynStatusRetune]; omega) (by simp only [Reg.plOsynStatusRetune]; omega)

theorem part_plOutDiv {n : Nat} : regPart (Reg.plOutDiv n).addr = 5 :=
  regPart_5 (by simp only [Reg.plOutDiv]; omega) (by simp only [Reg.plOutDiv]; omega)

theorem part_plOutStatusAlign {n : Nat} : regPart (Reg.plOutStatusAlign n).addr = 5 :=
  regPart_5 (by simp only [Reg.plOutStatusAlign]; omega) (by simp only [Reg.plOutStatusAlign]; omega)

theorem part_plOutStatusOsyn {n : Nat} : regPart (Reg.plOutStatusOsyn n).addr = 5 :=
  regPart_5 (by simp only [Reg.plOutStatusOsyn]; omega) (by simp only [Reg.plOutStatusOsyn]; omega)

theorem part_plOutStatusSafe {n : Nat} : regPart (Reg.plOutStatusSafe n).addr = 5 :=
  regPart_5 (by simp only [Reg.plOutStatusSafe]; omega) (by simp only [Reg.plOutStatusSafe]; omega)

theorem part_plOutStatusSqMask {n : Nat} : regPart (Reg.plOutStatusSqMask n).addr = 5 :=
  regPart_5 (by simp only [Reg.plOutStatusSqMask]; omega) (by simp only [Reg.plOutStatusSqMask]; omega)

theorem part_plOutStatusState {n : Nat} : regPart (Reg.plOutStatusState n).addr = 5 :=
  regPart_5 (by simp only [Reg.plOutStatusState]; omega) (by simp only [Reg.plOutStatusState]; omega)

theorem part_plOutStatusStd {n : Nat} : regPart (Reg.plOutStatusStd n).addr = 5 :=
  regPart_5 (by simp only [Reg.plOutStatusStd]; omega) (by simp only [Reg.plOutStatusStd]; omega)

theorem part_plPpsStatusFlags {n : Nat} : regPart (Reg.plPpsStatusFlags n).addr = 5 :=
  regPart_5 (by simp only [Reg.plPpsStatusFlags]; omega) (by simp only [Reg.plPpsStatusFlags]; omega)

theorem part_plPpsStatusSqMask {n : Nat} : regPart (Reg.plPpsStatusSqMask n).addr = 5 :=
  regPart_5 (by simp only [Reg.plPpsStatusSqMask]; omega) (by simp only [Reg.plPpsStatusSqMask]; omega)

theorem part_plPpsStatusState {n : Nat} : regPart (Reg.plPpsStatusState n).addr = 5 :=
  regPart_5 (by simp only [Reg.plPpsStatusState]; omega) (by simp only [Reg.plPpsStatusState]; omega)

theorem part_plPpsStatusTod {n : Nat} : regPart (Reg.plPpsStatusTod n).addr = 5 :=
  regPart_5 (by simp only [Reg.plPpsStatusTod]; omega) (by simp only [Reg.plPpsStatusTod]; omega)

theorem part_plStatusBand : regPart Reg.plStatusBand.addr = 5 :=
  rfl

theorem part_plStatusFine : regPart Reg.plStatusFine.addr = 5 :=
  rfl

theorem part_plStatusInnerBw : regPart Reg.plStatusInnerBw.addr = 5 :=
  rfl

theorem part_plStatusInnerLock : regPart Reg.plStatusInnerLock.addr = 5 :=
  rfl

theorem part_plStatusMargin : regPart Reg.plStatusMargin.addr = 5 :=
  rfl

theorem part_plStatusSearch : regPart Reg.plStatusSearch.addr = 5 :=
  rfl

theorem part_plStatusSysxoOk : regPart Reg.plStatusSysxoOk.addr = 5 :=
  rfl

theorem part_ptsARx {n : Nat} : regPart (Reg.ptsARx n).addr = 9 :=
  regPart_9 (by simp only [Reg.ptsARx]; omega) (by simp only [Reg.ptsARx]; omega)

theorem part_ptsATx {n : Nat} : regPart (Reg.ptsATx n).addr = 9 :=
  regPart_9 (by simp only [Reg.ptsATx]; omega) (by simp only [Reg.ptsATx]; omega)

theorem part_ptsCorrRx_2 {n : Nat} {m : Nat} : regPart (Reg.ptsCorrRx n m) = 9 ∧ regPart ((Reg.ptsCorrRx n m) + 4) = 9 :=
  ⟨regPart_9 (by simp only [Reg.ptsCorrRx]; omega) (by simp only [Reg.ptsCorrRx]; omega), regPart_9 (by simp only [Reg.ptsCorrRx]; omega) (by simp only [Reg.ptsCorrRx]; omega)⟩

theorem part_ptsCorrTx_2 {n : Nat} {m : Nat} : regPart (Reg.ptsCorrTx n m) = 9 ∧ regPart ((Reg.ptsCorrTx n m) + 4) = 9 :=
  ⟨regPart_9 (by simp only [Reg.ptsCorrTx]; omega) (by simp only [Reg.ptsCorrTx]; omega), regPart_9 (by simp only [Reg.ptsCorrTx]; omega) (by simp only [Reg.ptsCorrTx]; omega)⟩

theorem part_ptsLatRxCdr {n : Nat} : regPart (Reg.ptsLatRxCdr n).addr = 9 :=
  regPart_9 (by simp only [Reg.ptsLatRxCdr]; omega) (by simp only [Reg.ptsLatRxCdr]; omega)

theorem part_ptsLatRxFill {n : Nat} : regPart (Reg.ptsLatRxFill n).addr = 9 :=
  regPart_9 (by simp only [Reg.ptsLatRxFill]; omega) (by simp only [Reg.ptsLatRxFill]; omega)

theorem part_ptsLatRxSlip {n : Nat} : regPart (Reg.ptsLatRxSlip n).addr = 9 :=
  regPart_9 (by simp only [Reg.ptsLatRxSlip]; omega) (by simp only [Reg.ptsLatRxSlip]; omega)

theorem part_ptsLatRxValid {n : Nat} : regPart (Reg.ptsLatRxValid n).addr = 9 :=
  regPart_9 (by simp only [Reg.ptsLatRxValid]; omega) (by simp only [Reg.ptsLatRxValid]; omega)

theorem part_ptsLatTime_2 {n : Nat} : regPart (Reg.ptsLatTime n) = 9 ∧ regPart ((Reg.ptsLatTime n) + 4) = 9 :=
  ⟨regPart_9 (by simp only [Reg.ptsLatTime]; omega) (by simp only [Reg.ptsLatTime]; omega), regPart_9 (by simp only [Reg.ptsLatTime]; omega) (by simp only [Reg.ptsLatTime]; omega)⟩

theorem part_ptsLatTxFill {n : Nat} : regPart (Reg.ptsLatTxFill n).addr = 9 :=
  regPart_9 (by simp only [Reg.ptsLatTxFill]; omega) (by simp only [Reg.ptsLatTxFill]; omega)

theorem part_ptsLatTxSlip {n : Nat} : regPart (Reg.ptsLatTxSlip n).addr = 9 :=
  regPart_9 (by simp only [Reg.ptsLatTxSlip]; omega) (by simp only [Reg.ptsLatTxSlip]; omega)

theorem part_ptsLatTxValid {n : Nat} : regPart (Reg.ptsLatTxValid n).addr = 9 :=
  regPart_9 (by simp only [Reg.ptsLatTxValid]; omega) (by simp only [Reg.ptsLatTxValid]; omega)

theorem part_ptsLostRx {n : Nat} : regPart (Reg.ptsLostRx n).addr = 9 :=
  regPart_9 (by simp only [Reg.ptsLostRx]; omega) (by simp only [Reg.ptsLostRx]; omega)

theorem part_ptsLostTx {n : Nat} : regPart (Reg.ptsLostTx n).addr = 9 :=
  regPart_9 (by simp only [Reg.ptsLostTx]; omega) (by simp only [Reg.ptsLostTx]; omega)

theorem part_ptsPredErr {n : Nat} : regPart (Reg.ptsPredErr n).addr = 9 :=
  regPart_9 (by simp only [Reg.ptsPredErr]; omega) (by simp only [Reg.ptsPredErr]; omega)

theorem part_ptsRxfCtrlOcc {n : Nat} : regPart (Reg.ptsRxfCtrlOcc n).addr = 9 :=
  regPart_9 (by simp only [Reg.ptsRxfCtrlOcc]; omega) (by simp only [Reg.ptsRxfCtrlOcc]; omega)

theorem part_ptsRxfW0 {n : Nat} : regPart (Reg.ptsRxfW0 n).addr = 9 :=
  regPart_9 (by simp only [Reg.ptsRxfW0]; omega) (by simp only [Reg.ptsRxfW0]; omega)

theorem part_ptsRxfW1 {n : Nat} : regPart (Reg.ptsRxfW1 n).addr = 9 :=
  regPart_9 (by simp only [Reg.ptsRxfW1]; omega) (by simp only [Reg.ptsRxfW1]; omega)

theorem part_ptsRxfW2 {n : Nat} : regPart (Reg.ptsRxfW2 n).addr = 9 :=
  regPart_9 (by simp only [Reg.ptsRxfW2]; omega) (by simp only [Reg.ptsRxfW2]; omega)

theorem part_ptsRxfW3 {n : Nat} : regPart (Reg.ptsRxfW3 n).addr = 9 :=
  regPart_9 (by simp only [Reg.ptsRxfW3]; omega) (by simp only [Reg.ptsRxfW3]; omega)

theorem part_ptsStatusCause {n : Nat} : regPart (Reg.ptsStatusCause n).addr = 9 :=
  regPart_9 (by simp only [Reg.ptsStatusCause]; omega) (by simp only [Reg.ptsStatusCause]; omega)

theorem part_ptsStatusLatSeq {n : Nat} : regPart (Reg.ptsStatusLatSeq n).addr = 9 :=
  regPart_9 (by simp only [Reg.ptsStatusLatSeq]; omega) (by simp only [Reg.ptsStatusLatSeq]; omega)

theorem part_ptsStatusMode {n : Nat} : regPart (Reg.ptsStatusMode n).addr = 9 :=
  regPart_9 (by simp only [Reg.ptsStatusMode]; omega) (by simp only [Reg.ptsStatusMode]; omega)

theorem part_ptsStatusRecalDue {n : Nat} : regPart (Reg.ptsStatusRecalDue n).addr = 9 :=
  regPart_9 (by simp only [Reg.ptsStatusRecalDue]; omega) (by simp only [Reg.ptsStatusRecalDue]; omega)

theorem part_ptsStatusRxValid {n : Nat} : regPart (Reg.ptsStatusRxValid n).addr = 9 :=
  regPart_9 (by simp only [Reg.ptsStatusRxValid]; omega) (by simp only [Reg.ptsStatusRxValid]; omega)

theorem part_ptsStatusTxValid {n : Nat} : regPart (Reg.ptsStatusTxValid n).addr = 9 :=
  regPart_9 (by simp only [Reg.ptsStatusTxValid]; omega) (by simp only [Reg.ptsStatusTxValid]; omega)

theorem part_ptsTxfCtrlOcc {n : Nat} : regPart (Reg.ptsTxfCtrlOcc n).addr = 9 :=
  regPart_9 (by simp only [Reg.ptsTxfCtrlOcc]; omega) (by simp only [Reg.ptsTxfCtrlOcc]; omega)

theorem part_ptsTxfW0 {n : Nat} : regPart (Reg.ptsTxfW0 n).addr = 9 :=
  regPart_9 (by simp only [Reg.ptsTxfW0]; omega) (by simp only [Reg.ptsTxfW0]; omega)

theorem part_ptsTxfW1 {n : Nat} : regPart (Reg.ptsTxfW1 n).addr = 9 :=
  regPart_9 (by simp only [Reg.ptsTxfW1]; omega) (by simp only [Reg.ptsTxfW1]; omega)

theorem part_ptsTxfW2 {n : Nat} : regPart (Reg.ptsTxfW2 n).addr = 9 :=
  regPart_9 (by simp only [Reg.ptsTxfW2]; omega) (by simp only [Reg.ptsTxfW2]; omega)

theorem part_ptsTxfW3 {n : Nat} : regPart (Reg.ptsTxfW3 n).addr = 9 :=
  regPart_9 (by simp only [Reg.ptsTxfW3]; omega) (by simp only [Reg.ptsTxfW3]; omega)

theorem part_rsCandFfo_2 {n : Nat} : regPart (Reg.rsCandFfo n) = 4 ∧ regPart ((Reg.rsCandFfo n) + 4) = 4 :=
  ⟨regPart_4 (by simp only [Reg.rsCandFfo]; omega) (by simp only [Reg.rsCandFfo]; omega), regPart_4 (by simp only [Reg.rsCandFfo]; omega) (by simp only [Reg.rsCandFfo]; omega)⟩

theorem part_rsCandPhase_2 {n : Nat} : regPart (Reg.rsCandPhase n) = 4 ∧ regPart ((Reg.rsCandPhase n) + 4) = 4 :=
  ⟨regPart_4 (by simp only [Reg.rsCandPhase]; omega) (by simp only [Reg.rsCandPhase]; omega), regPart_4 (by simp only [Reg.rsCandPhase]; omega) (by simp only [Reg.rsCandPhase]; omega)⟩

theorem part_rsCandSlope {n : Nat} : regPart (Reg.rsCandSlope n).addr = 4 :=
  regPart_4 (by simp only [Reg.rsCandSlope]; omega) (by simp only [Reg.rsCandSlope]; omega)

theorem part_rsCandStatusAccK {n : Nat} : regPart (Reg.rsCandStatusAccK n).addr = 4 :=
  regPart_4 (by simp only [Reg.rsCandStatusAccK]; omega) (by simp only [Reg.rsCandStatusAccK]; omega)

theorem part_rsCandStatusKind {n : Nat} : regPart (Reg.rsCandStatusKind n).addr = 4 :=
  regPart_4 (by simp only [Reg.rsCandStatusKind]; omega) (by simp only [Reg.rsCandStatusKind]; omega)

theorem part_rsCandStatusNonrev {n : Nat} : regPart (Reg.rsCandStatusNonrev n).addr = 4 :=
  regPart_4 (by simp only [Reg.rsCandStatusNonrev]; omega) (by simp only [Reg.rsCandStatusNonrev]; omega)

theorem part_rsCandStatusPrioA {n : Nat} : regPart (Reg.rsCandStatusPrioA n).addr = 4 :=
  regPart_4 (by simp only [Reg.rsCandStatusPrioA]; omega) (by simp only [Reg.rsCandStatusPrioA]; omega)

theorem part_rsCandStatusPrioB {n : Nat} : regPart (Reg.rsCandStatusPrioB n).addr = 4 :=
  regPart_4 (by simp only [Reg.rsCandStatusPrioB]; omega) (by simp only [Reg.rsCandStatusPrioB]; omega)

theorem part_rsCandStatusQl {n : Nat} : regPart (Reg.rsCandStatusQl n).addr = 4 :=
  regPart_4 (by simp only [Reg.rsCandStatusQl]; omega) (by simp only [Reg.rsCandStatusQl]; omega)

theorem part_rsCandStatusSelA {n : Nat} : regPart (Reg.rsCandStatusSelA n).addr = 4 :=
  regPart_4 (by simp only [Reg.rsCandStatusSelA]; omega) (by simp only [Reg.rsCandStatusSelA]; omega)

theorem part_rsCandStatusSelB {n : Nat} : regPart (Reg.rsCandStatusSelB n).addr = 4 :=
  regPart_4 (by simp only [Reg.rsCandStatusSelB]; omega) (by simp only [Reg.rsCandStatusSelB]; omega)

theorem part_rsCandStatusState {n : Nat} : regPart (Reg.rsCandStatusState n).addr = 4 :=
  regPart_4 (by simp only [Reg.rsCandStatusState]; omega) (by simp only [Reg.rsCandStatusState]; omega)

theorem part_rsCandStatusWtr {n : Nat} : regPart (Reg.rsCandStatusWtr n).addr = 4 :=
  regPart_4 (by simp only [Reg.rsCandStatusWtr]; omega) (by simp only [Reg.rsCandStatusWtr]; omega)

theorem part_rsCandStatusXchk {n : Nat} : regPart (Reg.rsCandStatusXchk n).addr = 4 :=
  regPart_4 (by simp only [Reg.rsCandStatusXchk]; omega) (by simp only [Reg.rsCandStatusXchk]; omega)

theorem part_rsDBound_2 {n : Nat} : regPart (Reg.rsDBound n) = 4 ∧ regPart ((Reg.rsDBound n) + 4) = 4 :=
  ⟨regPart_4 (by simp only [Reg.rsDBound]; omega) (by simp only [Reg.rsDBound]; omega), regPart_4 (by simp only [Reg.rsDBound]; omega) (by simp only [Reg.rsDBound]; omega)⟩

theorem part_rsDHoFfo_2 {n : Nat} : regPart (Reg.rsDHoFfo n) = 4 ∧ regPart ((Reg.rsDHoFfo n) + 4) = 4 :=
  ⟨regPart_4 (by simp only [Reg.rsDHoFfo]; omega) (by simp only [Reg.rsDHoFfo]; omega), regPart_4 (by simp only [Reg.rsDHoFfo]; omega) (by simp only [Reg.rsDHoFfo]; omega)⟩

theorem part_rsDSelForced {n : Nat} : regPart (Reg.rsDSelForced n).addr = 4 :=
  regPart_4 (by simp only [Reg.rsDSelForced]; omega) (by simp only [Reg.rsDSelForced]; omega)

theorem part_rsDSelHoEntries {n : Nat} : regPart (Reg.rsDSelHoEntries n).addr = 4 :=
  regPart_4 (by simp only [Reg.rsDSelHoEntries]; omega) (by simp only [Reg.rsDSelHoEntries]; omega)

theorem part_rsDSelHoWindow {n : Nat} : regPart (Reg.rsDSelHoWindow n).addr = 4 :=
  regPart_4 (by simp only [Reg.rsDSelHoWindow]; omega) (by simp only [Reg.rsDSelHoWindow]; omega)

theorem part_rsDSelOnset {n : Nat} : regPart (Reg.rsDSelOnset n).addr = 4 :=
  regPart_4 (by simp only [Reg.rsDSelOnset]; omega) (by simp only [Reg.rsDSelOnset]; omega)

theorem part_rsDSelQc {n : Nat} : regPart (Reg.rsDSelQc n).addr = 4 :=
  regPart_4 (by simp only [Reg.rsDSelQc]; omega) (by simp only [Reg.rsDSelQc]; omega)

theorem part_rsDSelQueued {n : Nat} : regPart (Reg.rsDSelQueued n).addr = 4 :=
  regPart_4 (by simp only [Reg.rsDSelQueued]; omega) (by simp only [Reg.rsDSelQueued]; omega)

theorem part_rsDSelSel {n : Nat} : regPart (Reg.rsDSelSel n).addr = 4 :=
  regPart_4 (by simp only [Reg.rsDSelSel]; omega) (by simp only [Reg.rsDSelSel]; omega)

theorem part_rsDSelSelValid {n : Nat} : regPart (Reg.rsDSelSelValid n).addr = 4 :=
  regPart_4 (by simp only [Reg.rsDSelSelValid]; omega) (by simp only [Reg.rsDSelSelValid]; omega)

theorem part_rsDSelTxn {n : Nat} : regPart (Reg.rsDSelTxn n).addr = 4 :=
  regPart_4 (by simp only [Reg.rsDSelTxn]; omega) (by simp only [Reg.rsDSelTxn]; omega)

theorem part_rsLarderInfoCount : regPart Reg.rsLarderInfoCount.addr = 4 :=
  rfl

theorem part_rsLarderInfoNewest : regPart Reg.rsLarderInfoNewest.addr = 4 :=
  rfl

theorem part_sdsCtleAuto {n : Nat} : regPart (Reg.sdsCtleAuto n).addr = 10 :=
  regPart_10 (by simp only [Reg.sdsCtleAuto]; omega) (by simp only [Reg.sdsCtleAuto]; omega)

theorem part_sdsCtleGain {n : Nat} : regPart (Reg.sdsCtleGain n).addr = 10 :=
  regPart_10 (by simp only [Reg.sdsCtleGain]; omega) (by simp only [Reg.sdsCtleGain]; omega)

theorem part_sdsCtlePeak {n : Nat} : regPart (Reg.sdsCtlePeak n).addr = 10 :=
  regPart_10 (by simp only [Reg.sdsCtlePeak]; omega) (by simp only [Reg.sdsCtlePeak]; omega)

theorem part_sdsCtlePeakUsed {n : Nat} : regPart (Reg.sdsCtlePeakUsed n).addr = 10 :=
  regPart_10 (by simp only [Reg.sdsCtlePeakUsed]; omega) (by simp only [Reg.sdsCtlePeakUsed]; omega)

theorem part_sdsFirMain {n : Nat} : regPart (Reg.sdsFirMain n).addr = 10 :=
  regPart_10 (by simp only [Reg.sdsFirMain]; omega) (by simp only [Reg.sdsFirMain]; omega)

theorem part_sdsFirPost {n : Nat} : regPart (Reg.sdsFirPost n).addr = 10 :=
  regPart_10 (by simp only [Reg.sdsFirPost]; omega) (by simp only [Reg.sdsFirPost]; omega)

theorem part_sdsFirPre {n : Nat} : regPart (Reg.sdsFirPre n).addr = 10 :=
  regPart_10 (by simp only [Reg.sdsFirPre]; omega) (by simp only [Reg.sdsFirPre]; omega)

theorem part_sdsPrbsBits_2 {n : Nat} : regPart (Reg.sdsPrbsBits n) = 10 ∧ regPart ((Reg.sdsPrbsBits n) + 4) = 10 :=
  ⟨regPart_10 (by simp only [Reg.sdsPrbsBits]; omega) (by simp only [Reg.sdsPrbsBits]; omega), regPart_10 (by simp only [Reg.sdsPrbsBits]; omega) (by simp only [Reg.sdsPrbsBits]; omega)⟩

theorem part_sdsPrbsCtrlInj {n : Nat} : regPart (Reg.sdsPrbsCtrlInj n).addr = 10 :=
  regPart_10 (by simp only [Reg.sdsPrbsCtrlInj]; omega) (by simp only [Reg.sdsPrbsCtrlInj]; omega)

theorem part_sdsPrbsCtrlRate {n : Nat} : regPart (Reg.sdsPrbsCtrlRate n).addr = 10 :=
  regPart_10 (by simp only [Reg.sdsPrbsCtrlRate]; omega) (by simp only [Reg.sdsPrbsCtrlRate]; omega)

theorem part_sdsPrbsCtrlRxInv {n : Nat} : regPart (Reg.sdsPrbsCtrlRxInv n).addr = 10 :=
  regPart_10 (by simp only [Reg.sdsPrbsCtrlRxInv]; omega) (by simp only [Reg.sdsPrbsCtrlRxInv]; omega)

theorem part_sdsPrbsCtrlRxPat {n : Nat} : regPart (Reg.sdsPrbsCtrlRxPat n).addr = 10 :=
  regPart_10 (by simp only [Reg.sdsPrbsCtrlRxPat]; omega) (by simp only [Reg.sdsPrbsCtrlRxPat]; omega)

theorem part_sdsPrbsCtrlTraffic {n : Nat} : regPart (Reg.sdsPrbsCtrlTraffic n).addr = 10 :=
  regPart_10 (by simp only [Reg.sdsPrbsCtrlTraffic]; omega) (by simp only [Reg.sdsPrbsCtrlTraffic]; omega)

theorem part_sdsPrbsCtrlTxInv {n : Nat} : regPart (Reg.sdsPrbsCtrlTxInv n).addr = 10 :=
  regPart_10 (by simp only [Reg.sdsPrbsCtrlTxInv]; omega) (by simp only [Reg.sdsPrbsCtrlTxInv]; omega)

theorem part_sdsPrbsCtrlTxPat {n : Nat} : regPart (Reg.sdsPrbsCtrlTxPat n).addr = 10 :=
  regPart_10 (by simp only [Reg.sdsPrbsCtrlTxPat]; omega) (by simp only [Reg.sdsPrbsCtrlTxPat]; omega)

theorem part_sdsPrbsErr_2 {n : Nat} : regPart (Reg.sdsPrbsErr n) = 10 ∧ regPart ((Reg.sdsPrbsErr n) + 4) = 10 :=
  ⟨regPart_10 (by simp only [Reg.sdsPrbsErr]; omega) (by simp only [Reg.sdsPrbsErr]; omega), regPart_10 (by simp only [Reg.sdsPrbsErr]; omega) (by simp only [Reg.sdsPrbsErr]; omega)⟩

theorem part_sdsStatusFec {n : Nat} : regPart (Reg.sdsStatusFec n).addr = 10 :=
  regPart_10 (by simp only [Reg.sdsStatusFec]; omega) (by simp only [Reg.sdsStatusFec]; omega)

theorem part_sdsStatusLink {n : Nat} : regPart (Reg.sdsStatusLink n).addr = 10 :=
  regPart_10 (by simp only [Reg.sdsStatusLink]; omega) (by simp only [Reg.sdsStatusLink]; omega)

theorem part_sdsStatusMode {n : Nat} : regPart (Reg.sdsStatusMode n).addr = 10 :=
  regPart_10 (by simp only [Reg.sdsStatusMode]; omega) (by simp only [Reg.sdsStatusMode]; omega)

theorem part_sdsStatusPrbsLock {n : Nat} : regPart (Reg.sdsStatusPrbsLock n).addr = 10 :=
  regPart_10 (by simp only [Reg.sdsStatusPrbsLock]; omega) (by simp only [Reg.sdsStatusPrbsLock]; omega)

theorem part_sdsStatusPrbsRx {n : Nat} : regPart (Reg.sdsStatusPrbsRx n).addr = 10 :=
  regPart_10 (by simp only [Reg.sdsStatusPrbsRx]; omega) (by simp only [Reg.sdsStatusPrbsRx]; omega)

theorem part_sdsStatusPrbsTx {n : Nat} : regPart (Reg.sdsStatusPrbsTx n).addr = 10 :=
  regPart_10 (by simp only [Reg.sdsStatusPrbsTx]; omega) (by simp only [Reg.sdsStatusPrbsTx]; omega)

theorem part_sdsStatusRelocks {n : Nat} : regPart (Reg.sdsStatusRelocks n).addr = 10 :=
  regPart_10 (by simp only [Reg.sdsStatusRelocks]; omega) (by simp only [Reg.sdsStatusRelocks]; omega)

theorem part_sdsStatusRxLock {n : Nat} : regPart (Reg.sdsStatusRxLock n).addr = 10 :=
  regPart_10 (by simp only [Reg.sdsStatusRxLock]; omega) (by simp only [Reg.sdsStatusRxLock]; omega)

theorem part_sdsStatusScan {n : Nat} : regPart (Reg.sdsStatusScan n).addr = 10 :=
  regPart_10 (by simp only [Reg.sdsStatusScan]; omega) (by simp only [Reg.sdsStatusScan]; omega)

theorem part_sdsStatusTrimBusy {n : Nat} : regPart (Reg.sdsStatusTrimBusy n).addr = 10 :=
  regPart_10 (by simp only [Reg.sdsStatusTrimBusy]; omega) (by simp only [Reg.sdsStatusTrimBusy]; omega)

theorem part_sdsStatusTxOn {n : Nat} : regPart (Reg.sdsStatusTxOn n).addr = 10 :=
  regPart_10 (by simp only [Reg.sdsStatusTxOn]; omega) (by simp only [Reg.sdsStatusTxOn]; omega)

theorem part_sdsTrimPiPos {n : Nat} : regPart (Reg.sdsTrimPiPos n).addr = 10 :=
  regPart_10 (by simp only [Reg.sdsTrimPiPos]; omega) (by simp only [Reg.sdsTrimPiPos]; omega)

theorem part_sdsTrimPiTgt {n : Nat} : regPart (Reg.sdsTrimPiTgt n).addr = 10 :=
  regPart_10 (by simp only [Reg.sdsTrimPiTgt]; omega) (by simp only [Reg.sdsTrimPiTgt]; omega)

theorem part_sdsTrimWords {n : Nat} : regPart (Reg.sdsTrimWords n).addr = 10 :=
  regPart_10 (by simp only [Reg.sdsTrimWords]; omega) (by simp only [Reg.sdsTrimWords]; omega)

theorem part_swDpOut0 {n : Nat} : regPart (Reg.swDpOut0 n).addr = 11 :=
  regPart_11 (by simp only [Reg.swDpOut0]; omega) (by simp only [Reg.swDpOut0]; omega)

theorem part_swDpOut1 {n : Nat} : regPart (Reg.swDpOut1 n).addr = 11 :=
  regPart_11 (by simp only [Reg.swDpOut1]; omega) (by simp only [Reg.swDpOut1]; omega)

theorem part_swDpStatusConn {n : Nat} : regPart (Reg.swDpStatusConn n).addr = 11 :=
  regPart_11 (by simp only [Reg.swDpStatusConn]; omega) (by simp only [Reg.swDpStatusConn]; omega)

theorem part_swDpStatusFill {n : Nat} : regPart (Reg.swDpStatusFill n).addr = 11 :=
  regPart_11 (by simp only [Reg.swDpStatusFill]; omega) (by simp only [Reg.swDpStatusFill]; omega)

theorem part_swDpStatusInLock {n : Nat} : regPart (Reg.swDpStatusInLock n).addr = 11 :=
  regPart_11 (by simp only [Reg.swDpStatusInLock]; omega) (by simp only [Reg.swDpStatusInLock]; omega)

theorem part_swDpStatusMode {n : Nat} : regPart (Reg.swDpStatusMode n).addr = 11 :=
  regPart_11 (by simp only [Reg.swDpStatusMode]; omega) (by simp only [Reg.swDpStatusMode]; omega)

theorem part_swDpStatusSlips {n : Nat} : regPart (Reg.swDpStatusSlips n).addr = 11 :=
  regPart_11 (by simp only [Reg.swDpStatusSlips]; omega) (by simp only [Reg.swDpStatusSlips]; omega)

theorem part_swHtxCfgCfgErr : regPart Reg.swHtxCfgCfgErr.addr = 11 :=
  rfl

theorem part_swHtxHeadIndex : regPart Reg.swHtxHeadIndex.addr = 11 :=
  rfl

theorem part_swHtxTailIndex : regPart Reg.swHtxTailIndex.addr = 11 :=
  rfl

theorem part_swPortStatusAccept {n : Nat} : regPart (Reg.swPortStatusAccept n).addr = 11 :=
  regPart_11 (by simp only [Reg.swPortStatusAccept]; omega) (by simp only [Reg.swPortStatusAccept]; omega)

theorem part_swPortStatusCt {n : Nat} : regPart (Reg.swPortStatusCt n).addr = 11 :=
  regPart_11 (by simp only [Reg.swPortStatusCt]; omega) (by simp only [Reg.swPortStatusCt]; omega)

theorem part_swPortStatusDpRx {n : Nat} : regPart (Reg.swPortStatusDpRx n).addr = 11 :=
  regPart_11 (by simp only [Reg.swPortStatusDpRx]; omega) (by simp only [Reg.swPortStatusDpRx]; omega)

theorem part_swPortStatusDpTx {n : Nat} : regPart (Reg.swPortStatusDpTx n).addr = 11 :=
  regPart_11 (by simp only [Reg.swPortStatusDpTx]; omega) (by simp only [Reg.swPortStatusDpTx]; omega)

theorem part_swPortStatusL23Rx {n : Nat} : regPart (Reg.swPortStatusL23Rx n).addr = 11 :=
  regPart_11 (by simp only [Reg.swPortStatusL23Rx]; omega) (by simp only [Reg.swPortStatusL23Rx]; omega)

theorem part_swPortStatusL23Tx {n : Nat} : regPart (Reg.swPortStatusL23Tx n).addr = 11 :=
  regPart_11 (by simp only [Reg.swPortStatusL23Tx]; omega) (by simp only [Reg.swPortStatusL23Tx]; omega)

theorem part_swPortStatusL3 {n : Nat} : regPart (Reg.swPortStatusL3 n).addr = 11 :=
  regPart_11 (by simp only [Reg.swPortStatusL3]; omega) (by simp only [Reg.swPortStatusL3]; omega)

theorem part_swPortStatusLag {n : Nat} : regPart (Reg.swPortStatusLag n).addr = 11 :=
  regPart_11 (by simp only [Reg.swPortStatusLag]; omega) (by simp only [Reg.swPortStatusLag]; omega)

theorem part_swPortStatusPtpTrap {n : Nat} : regPart (Reg.swPortStatusPtpTrap n).addr = 11 :=
  regPart_11 (by simp only [Reg.swPortStatusPtpTrap]; omega) (by simp only [Reg.swPortStatusPtpTrap]; omega)

theorem part_swPortStatusPvid {n : Nat} : regPart (Reg.swPortStatusPvid n).addr = 11 :=
  regPart_11 (by simp only [Reg.swPortStatusPvid]; omega) (by simp only [Reg.swPortStatusPvid]; omega)

theorem part_tbCfgSeamless : regPart Reg.tbCfgSeamless.addr = 3 :=
  rfl

theorem part_tbDAlignErr_2 {n : Nat} : regPart (Reg.tbDAlignErr n) = 3 ∧ regPart ((Reg.tbDAlignErr n) + 4) = 3 :=
  ⟨regPart_3 (by simp only [Reg.tbDAlignErr]; omega) (by simp only [Reg.tbDAlignErr]; omega), regPart_3 (by simp only [Reg.tbDAlignErr]; omega) (by simp only [Reg.tbDAlignErr]; omega)⟩

theorem part_tbDAncSeq {n : Nat} : regPart (Reg.tbDAncSeq n).addr = 3 :=
  regPart_3 (by simp only [Reg.tbDAncSeq]; omega) (by simp only [Reg.tbDAncSeq]; omega)

theorem part_tbDAncT0_3 {n : Nat} : regPart (Reg.tbDAncT0 n).addr = 3 ∧ regPart ((Reg.tbDAncT0 n).addr + 4) = 3 ∧ regPart ((Reg.tbDAncT0 n).addr + 8) = 3 :=
  ⟨regPart_3 (by simp only [Reg.tbDAncT0]; omega) (by simp only [Reg.tbDAncT0]; omega), regPart_3 (by simp only [Reg.tbDAncT0]; omega) (by simp only [Reg.tbDAncT0]; omega), regPart_3 (by simp only [Reg.tbDAncT0]; omega) (by simp only [Reg.tbDAncT0]; omega)⟩

theorem part_tbDAncTk0_3 {n : Nat} : regPart (Reg.tbDAncTk0 n).addr = 3 ∧ regPart ((Reg.tbDAncTk0 n).addr + 4) = 3 ∧ regPart ((Reg.tbDAncTk0 n).addr + 8) = 3 :=
  ⟨regPart_3 (by simp only [Reg.tbDAncTk0]; omega) (by simp only [Reg.tbDAncTk0]; omega), regPart_3 (by simp only [Reg.tbDAncTk0]; omega) (by simp only [Reg.tbDAncTk0]; omega), regPart_3 (by simp only [Reg.tbDAncTk0]; omega) (by simp only [Reg.tbDAncTk0]; omega)⟩

theorem part_tbDLeapAt_2 {n : Nat} : regPart (Reg.tbDLeapAt n) = 3 ∧ regPart ((Reg.tbDLeapAt n) + 4) = 3 :=
  ⟨regPart_3 (by simp only [Reg.tbDLeapAt]; omega) (by simp only [Reg.tbDLeapAt]; omega), regPart_3 (by simp only [Reg.tbDLeapAt]; omega) (by simp only [Reg.tbDLeapAt]; omega)⟩

theorem part_tbDRate_2 {n : Nat} : regPart (Reg.tbDRate n) = 3 ∧ regPart ((Reg.tbDRate n) + 4) = 3 :=
  ⟨regPart_3 (by simp only [Reg.tbDRate]; omega) (by simp only [Reg.tbDRate]; omega), regPart_3 (by simp only [Reg.tbDRate]; omega) (by simp only [Reg.tbDRate]; omega)⟩

theorem part_tbDSlewRem_2 {n : Nat} : regPart (Reg.tbDSlewRem n) = 3 ∧ regPart ((Reg.tbDSlewRem n) + 4) = 3 :=
  ⟨regPart_3 (by simp only [Reg.tbDSlewRem]; omega) (by simp only [Reg.tbDSlewRem]; omega), regPart_3 (by simp only [Reg.tbDSlewRem]; omega) (by simp only [Reg.tbDSlewRem]; omega)⟩

theorem part_tbDStatusAlignNeeded {n : Nat} : regPart (Reg.tbDStatusAlignNeeded n).addr = 3 :=
  regPart_3 (by simp only [Reg.tbDStatusAlignNeeded]; omega) (by simp only [Reg.tbDStatusAlignNeeded]; omega)

theorem part_tbDStatusLeap {n : Nat} : regPart (Reg.tbDStatusLeap n).addr = 3 :=
  regPart_3 (by simp only [Reg.tbDStatusLeap]; omega) (by simp only [Reg.tbDStatusLeap]; omega)

theorem part_tbDStatusOpen {n : Nat} : regPart (Reg.tbDStatusOpen n).addr = 3 :=
  regPart_3 (by simp only [Reg.tbDStatusOpen]; omega) (by simp only [Reg.tbDStatusOpen]; omega)

theorem part_tbDStatusQc {n : Nat} : regPart (Reg.tbDStatusQc n).addr = 3 :=
  regPart_3 (by simp only [Reg.tbDStatusQc]; omega) (by simp only [Reg.tbDStatusQc]; omega)

theorem part_tbDStatusServed {n : Nat} : regPart (Reg.tbDStatusServed n).addr = 3 :=
  regPart_3 (by simp only [Reg.tbDStatusServed]; omega) (by simp only [Reg.tbDStatusServed]; omega)

theorem part_tbDStatusSlewing {n : Nat} : regPart (Reg.tbDStatusSlewing n).addr = 3 :=
  regPart_3 (by simp only [Reg.tbDStatusSlewing]; omega) (by simp only [Reg.tbDStatusSlewing]; omega)

theorem part_tbDStepc {n : Nat} : regPart (Reg.tbDStepc n).addr = 3 :=
  regPart_3 (by simp only [Reg.tbDStepc]; omega) (by simp only [Reg.tbDStepc]; omega)

theorem part_tbDUtcOffset {n : Nat} : regPart (Reg.tbDUtcOffset n).addr = 3 :=
  regPart_3 (by simp only [Reg.tbDUtcOffset]; omega) (by simp only [Reg.tbDUtcOffset]; omega)

theorem part_tbOutOffset_2 : regPart Reg.tbOutOffset = 3 ∧ regPart (Reg.tbOutOffset + 4) = 3 :=
  ⟨rfl, rfl⟩

theorem part_tbPtmCtrlSeq : regPart Reg.tbPtmCtrlSeq.addr = 3 :=
  rfl

theorem part_tbPtmCtrlValid : regPart Reg.tbPtmCtrlValid.addr = 3 :=
  rfl

theorem part_tbPtmHost_2 : regPart Reg.tbPtmHost = 3 ∧ regPart (Reg.tbPtmHost + 4) = 3 :=
  ⟨rfl, rfl⟩

theorem part_tbPtmT0_3 : regPart Reg.tbPtmT0.addr = 3 ∧ regPart (Reg.tbPtmT0.addr + 4) = 3 ∧ regPart (Reg.tbPtmT0.addr + 8) = 3 :=
  ⟨rfl, rfl, rfl⟩

theorem part_tbSnapA0_3 : regPart Reg.tbSnapA0.addr = 3 ∧ regPart (Reg.tbSnapA0.addr + 4) = 3 ∧ regPart (Reg.tbSnapA0.addr + 8) = 3 :=
  ⟨rfl, rfl, rfl⟩

theorem part_tbSnapB0_3 : regPart Reg.tbSnapB0.addr = 3 ∧ regPart (Reg.tbSnapB0.addr + 4) = 3 ∧ regPart (Reg.tbSnapB0.addr + 8) = 3 :=
  ⟨rfl, rfl, rfl⟩

theorem part_tbSnapCtrlArm : regPart Reg.tbSnapCtrlArm.addr = 3 :=
  rfl

theorem part_tbSnapCtrlArmSrc : regPart Reg.tbSnapCtrlArmSrc.addr = 3 :=
  rfl

theorem part_tbSnapCtrlDone : regPart Reg.tbSnapCtrlDone.addr = 3 :=
  rfl

theorem part_tbSnapCtrlSeq : regPart Reg.tbSnapCtrlSeq.addr = 3 :=
  rfl

theorem part_tbSnapInfoQcA : regPart Reg.tbSnapInfoQcA.addr = 3 :=
  rfl

theorem part_tbSnapInfoQcB : regPart Reg.tbSnapInfoQcB.addr = 3 :=
  rfl

theorem part_tbSnapInfoServed : regPart Reg.tbSnapInfoServed.addr = 3 :=
  rfl

theorem part_tbSnapStepcStepcA : regPart Reg.tbSnapStepcStepcA.addr = 3 :=
  rfl

theorem part_tbSnapStepcStepcB : regPart Reg.tbSnapStepcStepcB.addr = 3 :=
  rfl

theorem part_tbSnapTk0_3 : regPart Reg.tbSnapTk0.addr = 3 ∧ regPart (Reg.tbSnapTk0.addr + 4) = 3 ∧ regPart (Reg.tbSnapTk0.addr + 8) = 3 :=
  ⟨rfl, rfl, rfl⟩

theorem part_tbStateCompact : regPart Reg.tbStateCompact.addr = 3 :=
  rfl

theorem part_tbStateServed : regPart Reg.tbStateServed.addr = 3 :=
  rfl

theorem part_tbStateSwitching : regPart Reg.tbStateSwitching.addr = 3 :=
  rfl

theorem part_tbStateXfer : regPart Reg.tbStateXfer.addr = 3 :=
  rfl

theorem part_ttEngineLoadRxRate : regPart Reg.ttEngineLoadRxRate.addr = 8 :=
  rfl

theorem part_ttEngineStatusEnabled : regPart Reg.ttEngineStatusEnabled.addr = 8 :=
  rfl

theorem part_ttEngineStatusTxRate : regPart Reg.ttEngineStatusTxRate.addr = 8 :=
  rfl

theorem part_ttSDrop {n : Nat} : regPart (Reg.ttSDrop n).addr = 8 :=
  regPart_8 (by simp only [Reg.ttSDrop]; omega) (by simp only [Reg.ttSDrop]; omega)

theorem part_ttSRxcnt {n : Nat} : regPart (Reg.ttSRxcnt n).addr = 8 :=
  regPart_8 (by simp only [Reg.ttSRxcnt]; omega) (by simp only [Reg.ttSRxcnt]; omega)

theorem part_ttSStateP2pOk {n : Nat} : regPart (Reg.ttSStateP2pOk n).addr = 8 :=
  regPart_8 (by simp only [Reg.ttSStateP2pOk]; omega) (by simp only [Reg.ttSStateP2pOk]; omega)

theorem part_ttSStateReports {n : Nat} : regPart (Reg.ttSStateReports n).addr = 8 :=
  regPart_8 (by simp only [Reg.ttSStateReports]; omega) (by simp only [Reg.ttSStateReports]; omega)

theorem part_ttSStateState {n : Nat} : regPart (Reg.ttSStateState n).addr = 8 :=
  regPart_8 (by simp only [Reg.ttSStateState]; omega) (by simp only [Reg.ttSStateState]; omega)

theorem part_ttSTxcnt {n : Nat} : regPart (Reg.ttSTxcnt n).addr = 8 :=
  regPart_8 (by simp only [Reg.ttSTxcnt]; omega) (by simp only [Reg.ttSTxcnt]; omega)

theorem part_twAlign_2 : regPart Reg.twAlign = 20 ∧ regPart (Reg.twAlign + 4) = 20 :=
  ⟨rfl, rfl⟩

theorem part_twClaim : regPart Reg.twClaim.addr = 20 :=
  rfl

theorem part_twCrcErr : regPart Reg.twCrcErr.addr = 20 :=
  rfl

theorem part_twDttOff_2 : regPart Reg.twDttOff = 20 ∧ regPart (Reg.twDttOff + 4) = 20 :=
  ⟨rfl, rfl⟩

theorem part_twLastMirrorOpcode : regPart Reg.twLastMirrorOpcode.addr = 20 :=
  rfl

theorem part_twLastMirrorStStatus : regPart Reg.twLastMirrorStStatus.addr = 20 :=
  rfl

theorem part_twLastMirrorStTaken : regPart Reg.twLastMirrorStTaken.addr = 20 :=
  rfl

theorem part_twLastMirrorTag : regPart Reg.twLastMirrorTag.addr = 20 :=
  rfl

theorem part_twMirrorSeq : regPart Reg.twMirrorSeq.addr = 20 :=
  rfl

theorem part_twStatusAligned : regPart Reg.twStatusAligned.addr = 20 :=
  rfl

theorem part_twStatusLinkFault : regPart Reg.twStatusLinkFault.addr = 20 :=
  rfl

theorem part_twStatusLinkUp : regPart Reg.twStatusLinkUp.addr = 20 :=
  rfl

theorem part_twStatusPartPref : regPart Reg.twStatusPartPref.addr = 20 :=
  rfl

theorem part_twStatusRevertive : regPart Reg.twStatusRevertive.addr = 20 :=
  rfl

theorem part_twStatusState : regPart Reg.twStatusState.addr = 20 :=
  rfl

theorem part_twStatusStrapConflict : regPart Reg.twStatusStrapConflict.addr = 20 :=
  rfl

theorem part_twStatusTwclkOk : regPart Reg.twStatusTwclkOk.addr = 20 :=
  rfl

theorem part_twStatusWtrRun : regPart Reg.twStatusWtrRun.addr = 20 :=
  rfl

/-! ### Updates of fields -/

theorem upd_ao (K : Keeps P A) (hA : Sub 2305843009213693952 A) {s : State} {x37} (h : P s) : P { s with ao := x37 } := by
  have b37 := hA.bit (k := 61) rfl
  refine K.rest s _ rfl rfl ?_ h
  intro p hp hr
  cases p <;> first | rfl | (rw [show Part.ctorIdx .ao = 61 from rfl, b37] at hp; cases hp) | (cases hr)

theorem upd_ao_boot (K : Keeps P A) (hA : Sub 6917529027641081856 A) {s : State} {x37 x38} (h : P s) : P { s with ao := x37, boot := x38 } := by
  have b37 := hA.bit (k := 61) rfl
  have b38 := hA.bit (k := 62) rfl
  refine K.rest s _ rfl rfl ?_ h
  intro p hp hr
  cases p <;> first | rfl | (rw [show Part.ctorIdx .ao = 61 from rfl, b37] at hp; cases hp) | (rw [show Part.ctorIdx .boot = 62 from rfl, b38] at hp; cases hp) | (cases hr)

theorem upd_bf (K : Keeps P A) (hA : Sub 140737488355328 A) {s : State} {x23} (h : P s) : P { s with bf := x23 } := by
  have b23 := hA.bit (k := 47) rfl
  refine K.rest s _ rfl rfl ?_ h
  intro p hp hr
  cases p <;> first | rfl | (rw [show Part.ctorIdx .bf = 47 from rfl, b23] at hp; cases hp) | (cases hr)

theorem upd_boot (K : Keeps P A) (hA : Sub 4611686018427387904 A) {s : State} {x38} (h : P s) : P { s with boot := x38 } := by
  have b38 := hA.bit (k := 62) rfl
  refine K.rest s _ rfl rfl ?_ h
  intro p hp hr
  cases p <;> first | rfl | (rw [show Part.ctorIdx .boot = 62 from rfl, b38] at hp; cases hp) | (cases hr)

theorem upd_bus (K : Keeps P A) (hA : Sub 2147483648 A) {s : State} {x7} (h : P s) : P { s with bus := x7 } := by
  have b7 := hA.bit (k := 31) rfl
  refine K.rest s _ rfl rfl ?_ h
  intro p hp hr
  cases p <;> first | rfl | (rw [show Part.ctorIdx .bus = 31 from rfl, b7] at hp; cases hp) | (cases hr)

theorem upd_bwEnds (K : Keeps P A) (hA : Sub 72057594037927936 A) {s : State} {x32} (h : P s) : P { s with bwEnds := x32 } := by
  have b32 := hA.bit (k := 56) rfl
  refine K.rest s _ rfl rfl ?_ h
  intro p hp hr
  cases p <;> first | rfl | (rw [show Part.ctorIdx .bwEnds = 56 from rfl, b32] at hp; cases hp) | (cases hr)

theorem upd_bwFrom (K : Keeps P A) (hA : Sub 36028797018963968 A) {s : State} {x31} (h : P s) : P { s with bwFrom := x31 } := by
  have b31 := hA.bit (k := 55) rfl
  refine K.rest s _ rfl rfl ?_ h
  intro p hp hr
  cases p <;> first | rfl | (rw [show Part.ctorIdx .bwFrom = 55 from rfl, b31] at hp; cases hp) | (cases hr)

theorem upd_cal (K : Keeps P A) (hA : Sub 288230376151711744 A) {s : State} {x34} (h : P s) : P { s with cal := x34 } := by
  have b34 := hA.bit (k := 58) rfl
  refine K.rest s _ rfl rfl ?_ h
  intro p hp hr
  cases p <;> first | rfl | (rw [show Part.ctorIdx .cal = 58 from rfl, b34] at hp; cases hp) | (cases hr)

theorem upd_calRecs (K : Keeps P A) (hA : Sub 549755813888 A) {s : State} {x15} (h : P s) : P { s with calRecs := x15 } := by
  have b15 := hA.bit (k := 39) rfl
  refine K.rest s _ rfl rfl ?_ h
  intro p hp hr
  cases p <;> first | rfl | (rw [show Part.ctorIdx .calRecs = 39 from rfl, b15] at hp; cases hp) | (cases hr)

theorem upd_counters (K : Keeps P A) (hA : Sub 17179869184 A) {s : State} {x10} (h : P s) : P { s with counters := x10 } := by
  have b10 := hA.bit (k := 34) rfl
  refine K.rest s _ rfl rfl ?_ h
  intro p hp hr
  cases p <;> first | rfl | (rw [show Part.ctorIdx .counters = 34 from rfl, b10] at hp; cases hp) | (cases hr)

theorem upd_ctSeen (K : Keeps P A) (hA : Sub 18014398509481984 A) {s : State} {x30} (h : P s) : P { s with ctSeen := x30 } := by
  have b30 := hA.bit (k := 54) rfl
  refine K.rest s _ rfl rfl ?_ h
  intro p hp hr
  cases p <;> first | rfl | (rw [show Part.ctorIdx .ctSeen = 54 from rfl, b30] at hp; cases hp) | (cases hr)

theorem upd_dpll (K : Keeps P A) (hA : Sub 4398046511104 A) {s : State} {x18} (h : P s) : P { s with dpll := x18 } := by
  have b18 := hA.bit (k := 42) rfl
  refine K.rest s _ rfl rfl ?_ h
  intro p hp hr
  cases p <;> first | rfl | (rw [show Part.ctorIdx .dpll = 42 from rfl, b18] at hp; cases hp) | (cases hr)

theorem upd_dpll_fw (K : Keeps P A) (hA : Sub 576465150349934592 A) {s : State} {x18 x35} (h : P s) : P { s with dpll := x18, fw := x35 } := by
  have b18 := hA.bit (k := 42) rfl
  have b35 := hA.bit (k := 59) rfl
  refine K.rest s _ rfl rfl ?_ h
  intro p hp hr
  cases p <;> first | rfl | (rw [show Part.ctorIdx .dpll = 42 from rfl, b18] at hp; cases hp) | (rw [show Part.ctorIdx .fw = 59 from rfl, b35] at hp; cases hp) | (cases hr)

theorem upd_dpll_mp_fw (K : Keeps P A) (hA : Sub 720580338425790464 A) {s : State} {x18 x33 x35} (h : P s) : P { s with dpll := x18, mp := x33, fw := x35 } := by
  have b18 := hA.bit (k := 42) rfl
  have b33 := hA.bit (k := 57) rfl
  have b35 := hA.bit (k := 59) rfl
  refine K.rest s _ rfl rfl ?_ h
  intro p hp hr
  cases p <;> first | rfl | (rw [show Part.ctorIdx .dpll = 42 from rfl, b18] at hp; cases hp) | (rw [show Part.ctorIdx .mp = 57 from rfl, b33] at hp; cases hp) | (rw [show Part.ctorIdx .fw = 59 from rfl, b35] at hp; cases hp) | (cases hr)

theorem upd_dtt (K : Keeps P A) (hA : Sub 67108864 A) {s : State} {x1} (h : P s) : P { s with dtt := x1 } := by
  have b1 := hA.bit (k := 26) rfl
  refine K.rest s _ rfl rfl ?_ h
  intro p hp hr
  cases p <;> first | rfl | (rw [show Part.ctorIdx .dtt = 26 from rfl, b1] at hp; cases hp) | (cases hr)

theorem upd_em (K : Keeps P A) (hA : Sub 17592186044416 A) {s : State} {x20} (h : P s) : P { s with em := x20 } := by
  have b20 := hA.bit (k := 44) rfl
  refine K.rest s _ rfl rfl ?_ h
  intro p hp hr
  cases p <;> first | rfl | (rw [show Part.ctorIdx .em = 44 from rfl, b20] at hp; cases hp) | (cases hr)

theorem upd_em_cal (K : Keeps P A) (hA : Sub 288247968337756160 A) {s : State} {x20 x34} (h : P s) : P { s with em := x20, cal := x34 } := by
  have b20 := hA.bit (k := 44) rfl
  have b34 := hA.bit (k := 58) rfl
  refine K.rest s _ rfl rfl ?_ h
  intro p hp hr
  cases p <;> first | rfl | (rw [show Part.ctorIdx .em = 44 from rfl, b20] at hp; cases hp) | (rw [show Part.ctorIdx .cal = 58 from rfl, b34] at hp; cases hp) | (cases hr)

theorem upd_evd (K : Keeps P A) (hA : Sub 1125899906842624 A) {s : State} {x26} (h : P s) : P { s with evd := x26 } := by
  have b26 := hA.bit (k := 50) rfl
  refine K.rest s _ rfl rfl ?_ h
  intro p hp hr
  cases p <;> first | rfl | (rw [show Part.ctorIdx .evd = 50 from rfl, b26] at hp; cases hp) | (cases hr)

theorem upd_evu (K : Keeps P A) (hA : Sub 536870912 A) {s : State} {x5} (h : P s) : P { s with evu := x5 } := by
  have b5 := hA.bit (k := 29) rfl
  refine K.rest s _ rfl rfl ?_ h
  intro p hp hr
  cases p <;> first | rfl | (rw [show Part.ctorIdx .evu = 29 from rfl, b5] at hp; cases hp) | (cases hr)

theorem upd_fifos (K : Keeps P A) (hA : Sub 137438953472 A) {s : State} {x13} (h : P s) : P { s with fifos := x13 } := by
  have b13 := hA.bit (k := 37) rfl
  refine K.rest s _ rfl rfl ?_ h
  intro p hp hr
  cases p <;> first | rfl | (rw [show Part.ctorIdx .fifos = 37 from rfl, b13] at hp; cases hp) | (cases hr)

theorem upd_freeCount (K : Keeps P A) (hA : Sub 268435456 A) {s : State} {x4} (h : P s) : P { s with freeCount := x4 } := by
  have b4 := hA.bit (k := 28) rfl
  refine K.rest s _ rfl rfl ?_ h
  intro p hp hr
  cases p <;> first | rfl | (rw [show Part.ctorIdx .freeCount = 28 from rfl, b4] at hp; cases hp) | (cases hr)

theorem upd_freeCount_cal (K : Keeps P A) (hA : Sub 288230376420147200 A) {s : State} {x4 x34} (h : P s) : P { s with freeCount := x4, cal := x34 } := by
  have b4 := hA.bit (k := 28) rfl
  have b34 := hA.bit (k := 58) rfl
  refine K.rest s _ rfl rfl ?_ h
  intro p hp hr
  cases p <;> first | rfl | (rw [show Part.ctorIdx .freeCount = 28 from rfl, b4] at hp; cases hp) | (rw [show Part.ctorIdx .cal = 58 from rfl, b34] at hp; cases hp) | (cases hr)

theorem upd_ft (K : Keeps P A) (hA : Sub 70368744177664 A) {s : State} {x22} (h : P s) : P { s with ft := x22 } := by
  have b22 := hA.bit (k := 46) rfl
  refine K.rest s _ rfl rfl ?_ h
  intro p hp hr
  cases p <;> first | rfl | (rw [show Part.ctorIdx .ft = 46 from rfl, b22] at hp; cases hp) | (cases hr)

theorem upd_fw (K : Keeps P A) (hA : Sub 576460752303423488 A) {s : State} {x35} (h : P s) : P { s with fw := x35 } := by
  have b35 := hA.bit (k := 59) rfl
  refine K.rest s _ rfl rfl ?_ h
  intro p hp hr
  cases p <;> first | rfl | (rw [show Part.ctorIdx .fw = 59 from rfl, b35] at hp; cases hp) | (cases hr)

theorem upd_gn (K : Keeps P A) (hA : Sub 8796093022208 A) {s : State} {x19} (h : P s) : P { s with gn := x19 } := by
  have b19 := hA.bit (k := 43) rfl
  refine K.rest s _ rfl rfl ?_ h
  intro p hp hr
  cases p <;> first | rfl | (rw [show Part.ctorIdx .gn = 43 from rfl, b19] at hp; cases hp) | (cases hr)

theorem upd_islands (K : Keeps P A) (hA : Sub 8589934592 A) {s : State} {x9} (h : P s) : P { s with islands := x9 } := by
  have b9 := hA.bit (k := 33) rfl
  refine K.rest s _ rfl rfl ?_ h
  intro p hp hr
  cases p <;> first | rfl | (rw [show Part.ctorIdx .islands = 33 from rfl, b9] at hp; cases hp) | (cases hr)

theorem upd_islands_cal (K : Keeps P A) (hA : Sub 288230384741646336 A) {s : State} {x9 x34} (h : P s) : P { s with islands := x9, cal := x34 } := by
  have b9 := hA.bit (k := 33) rfl
  have b34 := hA.bit (k := 58) rfl
  refine K.rest s _ rfl rfl ?_ h
  intro p hp hr
  cases p <;> first | rfl | (rw [show Part.ctorIdx .islands = 33 from rfl, b9] at hp; cases hp) | (rw [show Part.ctorIdx .cal = 58 from rfl, b34] at hp; cases hp) | (cases hr)

theorem upd_islands_tw (K : Keeps P A) (hA : Sub 9007207844675584 A) {s : State} {x9 x29} (h : P s) : P { s with islands := x9, tw := x29 } := by
  have b9 := hA.bit (k := 33) rfl
  have b29 := hA.bit (k := 53) rfl
  refine K.rest s _ rfl rfl ?_ h
  intro p hp hr
  cases p <;> first | rfl | (rw [show Part.ctorIdx .islands = 33 from rfl, b9] at hp; cases hp) | (rw [show Part.ctorIdx .tw = 53 from rfl, b29] at hp; cases hp) | (cases hr)

theorem upd_lanes (K : Keeps P A) (hA : Sub 274877906944 A) {s : State} {x14} (h : P s) : P { s with lanes := x14 } := by
  have b14 := hA.bit (k := 38) rfl
  refine K.rest s _ rfl rfl ?_ h
  intro p hp hr
  cases p <;> first | rfl | (rw [show Part.ctorIdx .lanes = 38 from rfl, b14] at hp; cases hp) | (cases hr)

theorem upd_mbx (K : Keeps P A) (hA : Sub 4294967296 A) {s : State} {x8} (h : P s) : P { s with mbx := x8 } := by
  have b8 := hA.bit (k := 32) rfl
  refine K.rest s _ rfl rfl ?_ h
  intro p hp hr
  cases p <;> first | rfl | (rw [show Part.ctorIdx .mbx = 32 from rfl, b8] at hp; cases hp) | (cases hr)

theorem upd_merges (K : Keeps P A) (hA : Sub 281474976710656 A) {s : State} {x24} (h : P s) : P { s with merges := x24 } := by
  have b24 := hA.bit (k := 48) rfl
  refine K.rest s _ rfl rfl ?_ h
  intro p hp hr
  cases p <;> first | rfl | (rw [show Part.ctorIdx .merges = 48 from rfl, b24] at hp; cases hp) | (cases hr)

theorem upd_mp (K : Keeps P A) (hA : Sub 144115188075855872 A) {s : State} {x33} (h : P s) : P { s with mp := x33 } := by
  have b33 := hA.bit (k := 57) rfl
  refine K.rest s _ rfl rfl ?_ h
  intro p hp hr
  cases p <;> first | rfl | (rw [show Part.ctorIdx .mp = 57 from rfl, b33] at hp; cases hp) | (cases hr)

theorem upd_mp_fw (K : Keeps P A) (hA : Sub 720575940379279360 A) {s : State} {x33 x35} (h : P s) : P { s with mp := x33, fw := x35 } := by
  have b33 := hA.bit (k := 57) rfl
  have b35 := hA.bit (k := 59) rfl
  refine K.rest s _ rfl rfl ?_ h
  intro p hp hr
  cases p <;> first | rfl | (rw [show Part.ctorIdx .mp = 57 from rfl, b33] at hp; cases hp) | (rw [show Part.ctorIdx .fw = 59 from rfl, b35] at hp; cases hp) | (cases hr)

theorem upd_netRings (K : Keeps P A) (hA : Sub 2251799813685248 A) {s : State} {x27} (h : P s) : P { s with netRings := x27 } := by
  have b27 := hA.bit (k := 51) rfl
  refine K.rest s _ rfl rfl ?_ h
  intro p hp hr
  cases p <;> first | rfl | (rw [show Part.ctorIdx .netRings = 51 from rfl, b27] at hp; cases hp) | (cases hr)

theorem upd_refs (K : Keeps P A) (hA : Sub 2199023255552 A) {s : State} {x17} (h : P s) : P { s with refs := x17 } := by
  have b17 := hA.bit (k := 41) rfl
  refine K.rest s _ rfl rfl ?_ h
  intro p hp hr
  cases p <;> first | rfl | (rw [show Part.ctorIdx .refs = 41 from rfl, b17] at hp; cases hp) | (cases hr)

theorem upd_refs_fw_boot (K : Keeps P A) (hA : Sub 5188148969754066944 A) {s : State} {x17 x35 x38} (h : P s) : P { s with refs := x17, fw := x35, boot := x38 } := by
  have b17 := hA.bit (k := 41) rfl
  have b35 := hA.bit (k := 59) rfl
  have b38 := hA.bit (k := 62) rfl
  refine K.rest s _ rfl rfl ?_ h
  intro p hp hr
  cases p <;> first | rfl | (rw [show Part.ctorIdx .refs = 41 from rfl, b17] at hp; cases hp) | (rw [show Part.ctorIdx .fw = 59 from rfl, b35] at hp; cases hp) | (rw [show Part.ctorIdx .boot = 62 from rfl, b38] at hp; cases hp) | (cases hr)

theorem upd_releases (K : Keeps P A) (hA : Sub 562949953421312 A) {s : State} {x25} (h : P s) : P { s with releases := x25 } := by
  have b25 := hA.bit (k := 49) rfl
  refine K.rest s _ rfl rfl ?_ h
  intro p hp hr
  cases p <;> first | rfl | (rw [show Part.ctorIdx .releases = 49 from rfl, b25] at hp; cases hp) | (cases hr)

theorem upd_rings (K : Keeps P A) (hA : Sub 1073741824 A) {s : State} {x6} (h : P s) : P { s with rings := x6 } := by
  have b6 := hA.bit (k := 30) rfl
  refine K.rest s _ rfl rfl ?_ h
  intro p hp hr
  cases p <;> first | rfl | (rw [show Part.ctorIdx .rings = 30 from rfl, b6] at hp; cases hp) | (cases hr)

theorem upd_rings_bus_mbx_netRings (K : Keeps P A) (hA : Sub 2251807329878016 A) {s : State} {x6 x7 x8 x27} (h : P s) : P { s with rings := x6, bus := x7, mbx := x8, netRings := x27 } := by
  have b6 := hA.bit (k := 30) rfl
  have b7 := hA.bit (k := 31) rfl
  have b8 := hA.bit (k := 32) rfl
  have b27 := hA.bit (k := 51) rfl
  refine K.rest s _ rfl rfl ?_ h
  intro p hp hr
  cases p <;> first | rfl | (rw [show Part.ctorIdx .rings = 30 from rfl, b6] at hp; cases hp) | (rw [show Part.ctorIdx .bus = 31 from rfl, b7] at hp; cases hp) | (rw [show Part.ctorIdx .mbx = 32 from rfl, b8] at hp; cases hp) | (rw [show Part.ctorIdx .netRings = 51 from rfl, b27] at hp; cases hp) | (cases hr)

theorem upd_sec (K : Keeps P A) (hA : Sub 1152921504606846976 A) {s : State} {x36} (h : P s) : P { s with sec := x36 } := by
  have b36 := hA.bit (k := 60) rfl
  refine K.rest s _ rfl rfl ?_ h
  intro p hp hr
  cases p <;> first | rfl | (rw [show Part.ctorIdx .sec = 60 from rfl, b36] at hp; cases hp) | (cases hr)

theorem upd_sec_ao (K : Keeps P A) (hA : Sub 3458764513820540928 A) {s : State} {x36 x37} (h : P s) : P { s with sec := x36, ao := x37 } := by
  have b36 := hA.bit (k := 60) rfl
  have b37 := hA.bit (k := 61) rfl
  refine K.rest s _ rfl rfl ?_ h
  intro p hp hr
  cases p <;> first | rfl | (rw [show Part.ctorIdx .sec = 60 from rfl, b36] at hp; cases hp) | (rw [show Part.ctorIdx .ao = 61 from rfl, b37] at hp; cases hp) | (cases hr)

theorem upd_sec_ao_boot (K : Keeps P A) (hA : Sub 8070450532247928832 A) {s : State} {x36 x37 x38} (h : P s) : P { s with sec := x36, ao := x37, boot := x38 } := by
  have b36 := hA.bit (k := 60) rfl
  have b37 := hA.bit (k := 61) rfl
  have b38 := hA.bit (k := 62) rfl
  refine K.rest s _ rfl rfl ?_ h
  intro p hp hr
  cases p <;> first | rfl | (rw [show Part.ctorIdx .sec = 60 from rfl, b36] at hp; cases hp) | (rw [show Part.ctorIdx .ao = 61 from rfl, b37] at hp; cases hp) | (rw [show Part.ctorIdx .boot = 62 from rfl, b38] at hp; cases hp) | (cases hr)

theorem upd_selectors (K : Keeps P A) (hA : Sub 4503599627370496 A) {s : State} {x28} (h : P s) : P { s with selectors := x28 } := by
  have b28 := hA.bit (k := 52) rfl
  refine K.rest s _ rfl rfl ?_ h
  intro p hp hr
  cases p <;> first | rfl | (rw [show Part.ctorIdx .selectors = 52 from rfl, b28] at hp; cases hp) | (cases hr)

theorem upd_sw (K : Keeps P A) (hA : Sub 35184372088832 A) {s : State} {x21} (h : P s) : P { s with sw := x21 } := by
  have b21 := hA.bit (k := 45) rfl
  refine K.rest s _ rfl rfl ?_ h
  intro p hp hr
  cases p <;> first | rfl | (rw [show Part.ctorIdx .sw = 45 from rfl, b21] at hp; cases hp) | (cases hr)

theorem upd_sw_merges_releases (K : Keeps P A) (hA : Sub 879609302220800 A) {s : State} {x21 x24 x25} (h : P s) : P { s with sw := x21, merges := x24, releases := x25 } := by
  have b21 := hA.bit (k := 45) rfl
  have b24 := hA.bit (k := 48) rfl
  have b25 := hA.bit (k := 49) rfl
  refine K.rest s _ rfl rfl ?_ h
  intro p hp hr
  cases p <;> first | rfl | (rw [show Part.ctorIdx .sw = 45 from rfl, b21] at hp; cases hp) | (rw [show Part.ctorIdx .merges = 48 from rfl, b24] at hp; cases hp) | (rw [show Part.ctorIdx .releases = 49 from rfl, b25] at hp; cases hp) | (cases hr)

theorem upd_tb (K : Keeps P A) (hA : Sub 34359738368 A) {s : State} {x11} (h : P s) : P { s with tb := x11 } := by
  have b11 := hA.bit (k := 35) rfl
  refine K.rest s _ rfl rfl ?_ h
  intro p hp hr
  cases p <;> first | rfl | (rw [show Part.ctorIdx .tb = 35 from rfl, b11] at hp; cases hp) | (cases hr)

theorem upd_timed (K : Keeps P A) (hA : Sub 68719476736 A) {s : State} {x12} (h : P s) : P { s with timed := x12 } := by
  have b12 := hA.bit (k := 36) rfl
  refine K.rest s _ rfl rfl ?_ h
  intro p hp hr
  cases p <;> first | rfl | (rw [show Part.ctorIdx .timed = 36 from rfl, b12] at hp; cases hp) | (cases hr)

theorem upd_tt (K : Keeps P A) (hA : Sub 1099511627776 A) {s : State} {x16} (h : P s) : P { s with tt := x16 } := by
  have b16 := hA.bit (k := 40) rfl
  refine K.rest s _ rfl rfl ?_ h
  intro p hp hr
  cases p <;> first | rfl | (rw [show Part.ctorIdx .tt = 40 from rfl, b16] at hp; cases hp) | (cases hr)

theorem upd_tt_sw (K : Keeps P A) (hA : Sub 36283883716608 A) {s : State} {x16 x21} (h : P s) : P { s with tt := x16, sw := x21 } := by
  have b16 := hA.bit (k := 40) rfl
  have b21 := hA.bit (k := 45) rfl
  refine K.rest s _ rfl rfl ?_ h
  intro p hp hr
  cases p <;> first | rfl | (rw [show Part.ctorIdx .tt = 40 from rfl, b16] at hp; cases hp) | (rw [show Part.ctorIdx .sw = 45 from rfl, b21] at hp; cases hp) | (cases hr)

theorem upd_tw (K : Keeps P A) (hA : Sub 9007199254740992 A) {s : State} {x29} (h : P s) : P { s with tw := x29 } := by
  have b29 := hA.bit (k := 53) rfl
  refine K.rest s _ rfl rfl ?_ h
  intro p hp hr
  cases p <;> first | rfl | (rw [show Part.ctorIdx .tw = 53 from rfl, b29] at hp; cases hp) | (cases hr)

theorem upd_mbx_tw (K : Keeps P A) (hA : Sub 9007203549708288 A) {s : State} {x8 x29} (h : P s) : P { s with mbx := x8, tw := x29 } := by
  have b8 := hA.bit (k := 32) rfl
  have b29 := hA.bit (k := 53) rfl
  refine K.rest s _ rfl rfl ?_ h
  intro p hp hr
  cases p <;> first | rfl | (rw [show Part.ctorIdx .mbx = 32 from rfl, b8] at hp; cases hp) | (rw [show Part.ctorIdx .tw = 53 from rfl, b29] at hp; cases hp) | (cases hr)

theorem upd_refs_dpll_fw (K : Keeps P A) (hA : Sub 576467349373190144 A) {s : State} {x17 x18 x35} (h : P s) : P { s with refs := x17, dpll := x18, fw := x35 } := by
  have b17 := hA.bit (k := 41) rfl
  have b18 := hA.bit (k := 42) rfl
  have b35 := hA.bit (k := 59) rfl
  refine K.rest s _ rfl rfl ?_ h
  intro p hp hr
  cases p <;> first | rfl | (rw [show Part.ctorIdx .refs = 41 from rfl, b17] at hp; cases hp) | (rw [show Part.ctorIdx .dpll = 42 from rfl, b18] at hp; cases hp) | (rw [show Part.ctorIdx .fw = 59 from rfl, b35] at hp; cases hp) | (cases hr)

theorem upd_bus_mbx (K : Keeps P A) (hA : Sub 6442450944 A) {s : State} {x7 x8} (h : P s) : P { s with bus := x7, mbx := x8 } := by
  have b7 := hA.bit (k := 31) rfl
  have b8 := hA.bit (k := 32) rfl
  refine K.rest s _ rfl rfl ?_ h
  intro p hp hr
  cases p <;> first | rfl | (rw [show Part.ctorIdx .bus = 31 from rfl, b7] at hp; cases hp) | (rw [show Part.ctorIdx .mbx = 32 from rfl, b8] at hp; cases hp) | (cases hr)

end Sys2Proof.Machine
end

