-- ==== Sys2Proof/Laws/KeepOps.lean ====
section
/-! SUPPORT. What the operations of Sys2Proof/Machine/Ops.lean keep (Sys2Proof/Laws/Keeps.lean): the mask in each lemma names the parts
of the state that the operation can touch. -/

set_option Elab.async false

namespace Sys2Proof.Machine

variable {P : State → Prop} {A : Nat}

theorem State.draw_keeps (K : Keeps P A) (hA : Sub 268435456 A) {s} (h_s : P s) :
    P (State.draw s).2 := by
  unfold State.draw
  refine mk2_k ?_
  refine upd_freeCount K (sub rfl hA) ?_
  assumption

theorem raiseBit_k (K : Keeps P A) (b : Nat) {s : State} {f : Fld} (hb : regPart f.addr = b) (hA : Sub (2 ^ b ||| 2147483648) A)
    (h : P s) : P (s.raiseBit f) :=
  upd_bus K hA.right (setB_k K b hb hA.left h)

theorem clearBit_k (K : Keeps P A) (b : Nat) {s : State} {f : Fld} (hb : regPart f.addr = b) (hA : Sub (2 ^ b ||| 2147483648) A)
    (h : P s) : P (s.clearBit f) :=
  ite_k h (setF_k K b hb hA.left h)

theorem State.signalVector_keeps (K : Keeps P A) (hA : Sub 2147483648 A) {s v} (h_s : P s) :
    P (State.signalVector s v) := by
  unfold State.signalVector
  refine ite_k ?_ ?_
  · refine upd_bus K (sub rfl hA) ?_
    assumption
  · refine upd_bus K (sub rfl hA) ?_
    assumption

theorem State.setRing_keeps (K : Keeps P A) (hA : Sub 1073741824 A) {s r d} (h_s : P s) :
    P (State.setRing s r d) := by
  unfold State.setRing
  refine upd_rings K (sub rfl hA) ?_
  assumption

theorem ringSignal_k (K : Keeps P A) (b : Nat) {R : RingRegs} (hR : RingIn b R) {s : State} (hA : Sub (2 ^ b ||| 3221225472) A)
    (h : P s) : P (ringSignal R s) := by
  unfold ringSignal
  refine ite_k ?_ h
  extract_lets +onlyGivenNames -merge x s1 s2
  have h2 : P s2 := State.signalVector_keeps K (sub rfl hA.right) (State.setRing_keeps K (sub rfl hA.right) h)
  split
  · rename_i h0
    have hb := hR.irq h0
    subst hb
    exact raiseBit_k K 0 part_hstIrqStatusEvr (sub rfl hA) h2
  · exact h2

theorem ringPut_k (K : Keeps P A) (b : Nat) {R : RingRegs} (hR : RingIn b R) {f : Bool → Bytes} {s : State}
    (hA : Sub (2 ^ b ||| 3355443200) A) (h : P s) : P (ringPut R f s) := by
  unfold ringPut
  extract_lets +onlyGivenNames -merge ix s1 nx s2 s3 d
  have h1 : P s1 := State.dma_keeps K (sub rfl hA.right) h
  have h2 : P s2 := setF_k K b hR.prod hA.left h1
  have h3 : P s3 := ite_k (setB_k K b hR.phase hA.left h2) h2
  refine ringSignal_k K b hR ?_ (State.setRing_keeps K (sub rfl hA.right) h3)
  exact sub (n := 2 ^ b ||| 3355443200) (lorSub rfl) hA

theorem ringReset_k (K : Keeps P A) (b : Nat) {R : RingRegs} (hR : RingIn b R) {s : State} (hA : Sub (2 ^ b ||| 1073741824) A)
    (h : P s) : P (ringReset R s) :=
  State.setRing_keeps K hA.right (setB_k K b hR.phase hA.left (setF_k K b hR.prod hA.left h))

theorem ringConsume_k (K : Keeps P A) (b : Nat) {R : RingRegs} (hR : RingIn b R) {ix : Nat} {s : State}
    (hA : Sub (2 ^ b ||| 3221225472) A) (h : P s) : P (ringConsume R ix s).2 := by
  unfold ringConsume
  refine ite2_k h ?_
  exact ringSignal_k K b hR hA (State.setRing_keeps K (sub rfl hA.right) (setF_k K b hR.cons hA.left h))

theorem ringCfgWritten_k (K : Keeps P A) (b : Nat) {R : RingRegs} (hR : RingIn b R) {was bad : Bool} {s : State}
    (hA : Sub (2 ^ b ||| 1073741824) A) (h : P s) : P (ringCfgWritten R was bad s) := by
  unfold ringCfgWritten
  extract_lets +onlyGivenNames -merge ok en s1
  have h1 : P s1 := setB_k K b hR.err hA.left h
  exact ite_k (ringReset_k K b hR hA h1) h1

theorem raiseAt_keeps (K : Keeps P A) (hA : Sub 2684354561 A) {stamp src sev code payload s} (h_s : P s) :
    P (raiseAt stamp src sev code payload s) := by
  unfold raiseAt
  extract_lets +onlyGivenNames -merge -underBinder s1
  have hs1 : P s1 := by
    refine ite_k ?_ ?_
    · refine State.signalVector_keeps K (sub rfl hA) ?_
      refine raiseBit_k K 0 part_hstIrqStatusAlarm (sub rfl hA) ?_
      refine raiseBit_k K 0 part_hstStatusAlarm (sub rfl hA) ?_
      assumption
    · assumption
  try clear_value s1
  refine ite_k ?_ ?_
  · assumption
  · extract_lets +onlyGivenNames -merge -underBinder e2
    try clear_value e2
    refine upd_evu K (sub rfl hA) ?_
    assumption

theorem raiseEv_keeps (K : Keeps P A) (hA : Sub 2684354561 A) {src sev code fs s} (h_s : P s) :
    P (raiseEv src sev code fs s) := by
  unfold raiseEv
  refine raiseAt_keeps K (sub rfl hA) ?_
  · assumption

theorem countRaw_keeps (K : Keeps P A) (hA : Sub 17180131328 A) {c n s} (h_s : P s) :
    P (countRaw c n s) := by
  unfold countRaw
  extract_lets +onlyGivenNames -merge -underBinder v1 s2
  try clear_value v1
  have hs2 : P s2 := by
    refine upd_counters K (sub rfl hA) ?_
    assumption
  try clear_value s2
  refine ite_k ?_ ?_
  · assumption
  · refine setF_k K 18 part_ctOvf (sub rfl hA) ?_
    assumption

theorem State.setMemSum_keeps (K : Keeps P A) (hA : Sub 144115188075855872 A) {s m x} (h_s : P s) :
    P (State.setMemSum s m x) := by
  unfold State.setMemSum
  refine upd_mp K (sub rfl hA) ?_
  assumption

theorem mpList_keeps (K : Keeps P A) (hA : Sub 144115188075855872 A) {w kind s} (h_s : P s) :
    P (mpList w kind s) := by
  unfold mpList
  refine ite_k ?_ ?_
  · refine upd_mp K (sub rfl hA) ?_
    assumption
  · refine upd_mp K (sub rfl hA) ?_
    assumption

theorem mpEvent_keeps (K : Keeps P A) (hA : Sub 2684354561 A) {sev code w scrub s} (h_s : P s) :
    P (mpEvent sev code w scrub s) := by
  unfold mpEvent
  refine raiseEv_keeps K (sub rfl hA) ?_
  · assumption

theorem setTracker_keeps (K : Keeps P A) (hA : Sub 144115188076380160 A) {t s} (h_s : P s) :
    P (setTracker t s) := by
  unfold setTracker
  extract_lets +onlyGivenNames -merge -underBinder src1
  have hsrc1 : P src1 := by
    refine setF_k K 19 part_mpStatusTrackOcc (sub rfl hA) ?_
    assumption
  try clear_value src1
  refine upd_mp K (sub rfl hA) ?_
  assumption

theorem trackNew_keeps (K : Keeps P A) (hA : Sub 144115190760734721 A) {w s} (h_s : P s) :
    P (trackNew w s) := by
  unfold trackNew
  extract_lets +onlyGivenNames -merge -underBinder t1
  try clear_value t1
  refine ite_k ?_ ?_
  · refine setTracker_keeps K (sub rfl hA) ?_
    · assumption
  · extract_lets +onlyGivenNames -merge -underBinder v2 old3 s4 quiet5
    try clear_value v2
    try clear_value old3
    have hs4 : P s4 := by
      refine setTracker_keeps K (sub rfl hA) ?_
      · refine addSat_k K 19 part_mpTrack (sub rfl hA) ?_
        assumption
    try clear_value s4
    try clear_value quiet5
    refine ite_k ?_ ?_
    · refine mpEvent_keeps K (sub rfl hA) ?_
      · refine upd_mp K (sub rfl hA) ?_
        assumption
    · assumption

theorem showQuar_keeps (K : Keeps P A) (hA : Sub 8192 A) {s} (h_s : P s) :
    P (showQuar s) := by
  unfold showQuar
  refine setF_k K 13 part_bfQuarDdr (sub rfl hA) ?_
  refine setF_k K 13 part_bfQuarChip (sub rfl hA) ?_
  assumption

theorem quarChip_keeps (K : Keeps P A) (hA : Sub 144115188075864064 A) {c s} (h_s : P s) :
    P (quarChip c s) := by
  unfold quarChip
  refine ite_k ?_ ?_
  · assumption
  · refine showQuar_keeps K (sub rfl hA) ?_
    · refine upd_mp K (sub rfl hA) ?_
      assumption

theorem quarHold_keeps (K : Keeps P A) (hA : Sub 144115188075855872 A) {c s} (h_s : P s) :
    P (quarHold c s) := by
  unfold quarHold
  refine ite_k ?_ ?_
  · assumption
  · refine upd_mp K (sub rfl hA) ?_
    assumption

theorem mpStick_keeps (K : Keeps P A) (hA : Sub 144115207940349953 A) {w scrub s} (h_s : P s) :
    P (mpStick w scrub s) := by
  unfold mpStick
  extract_lets +onlyGivenNames -merge -underBinder retired1 src2 s3 m4 x5 s6
  try clear_value retired1
  try clear_value src2
  have hs3 : P s3 := by
    refine countRaw_keeps K (sub rfl hA) ?_
    · refine upd_mp K (sub rfl hA) ?_
      assumption
  try clear_value s3
  try clear_value m4
  try clear_value x5
  have hs6 : P s6 := by
    refine mpEvent_keeps K (sub rfl hA) ?_
    · refine mpList_keeps K (sub rfl hA) ?_
      · refine State.setMemSum_keeps K (sub rfl hA) ?_
        · assumption
  try clear_value s6
  refine ite_k ?_ ?_
  · refine quarHold_keeps K (sub rfl hA) ?_
    · assumption
  · refine ite_k ?_ ?_
    · refine quarChip_keeps K (sub rfl hA) ?_
      · assumption
    · refine ite_k ?_ ?_
      · extract_lets +onlyGivenNames -merge -underBinder s7
        have hs7 : P s7 := by
          refine set64_k K 13 part_bfSpillCap_2 (sub rfl hA) ?_
          refine addWrap_k K 13 part_bfRetired (sub rfl hA) ?_
          assumption
        try clear_value s7
        refine raiseEv_keeps K (sub rfl hA) ?_
        · assumption
      · assumption

theorem mpCorrection_keeps (K : Keeps P A) (hA : Sub 144115207940874241 A) {w scrub s} (h_s : P s) :
    P (mpCorrection w scrub s) := by
  unfold mpCorrection
  extract_lets +onlyGivenNames -merge -underBinder m1 x2 s3
  try clear_value m1
  try clear_value x2
  have hs3 : P s3 := by
    refine countRaw_keeps K (sub rfl hA) ?_
    · refine State.setMemSum_keeps K (sub rfl hA) ?_
      · assumption
  try clear_value s3
  split
  · refine trackNew_keeps K (sub rfl hA) ?_
    · assumption
  · refine ite_k ?_ ?_
    · refine mpStick_keeps K (sub rfl hA) ?_
      · refine setTracker_keeps K (sub rfl hA) ?_
        · assumption
    · refine ite_k ?_ ?_
      · assumption
      · refine setTracker_keeps K (sub rfl hA) ?_
        · assumption

theorem mpWrite_keeps (K : Keeps P A) (hA : Sub 144115188076380160 A) {w s} (h_s : P s) :
    P (mpWrite w s) := by
  unfold mpWrite
  refine ite_k ?_ ?_
  · assumption
  · extract_lets +onlyGivenNames -merge -underBinder src1 s2
    try clear_value src1
    have hs2 : P s2 := by
      refine upd_mp K (sub rfl hA) ?_
      assumption
    try clear_value s2
    refine ite_k ?_ ?_
    · refine setTracker_keeps K (sub rfl hA) ?_
      · assumption
    · assumption

theorem poisonChip_keeps (K : Keeps P A) (hA : Sub 144255928248573953 A) {c s} (h_s : P s) :
    P (poisonChip c s) := by
  unfold poisonChip
  extract_lets +onlyGivenNames -merge -underBinder hit1 src2 s3
  try clear_value hit1
  try clear_value src2
  have hs3 : P s3 := by
    refine upd_bf K (sub rfl hA) ?_
    assumption
  try clear_value s3
  refine raiseEv_keeps K (sub rfl hA) ?_
  · refine quarChip_keeps K (sub rfl hA) ?_
    · assumption

theorem poisonDdr_keeps (K : Keeps P A) (hA : Sub 144255928248573953 A) {c s} (h_s : P s) :
    P (poisonDdr c s) := by
  unfold poisonDdr
  extract_lets +onlyGivenNames -merge -underBinder hit1 src2 s3 src4 s5
  try clear_value hit1
  try clear_value src2
  have hs3 : P s3 := by
    refine upd_bf K (sub rfl hA) ?_
    assumption
  try clear_value s3
  try clear_value src4
  have hs5 : P s5 := by
    refine ite_k ?_ ?_
    · assumption
    · refine showQuar_keeps K (sub rfl hA) ?_
      · refine upd_mp K (sub rfl hA) ?_
        assumption
  try clear_value s5
  refine raiseEv_keeps K (sub rfl hA) ?_
  · assumption

theorem poisonHold_keeps (K : Keeps P A) (hA : Sub 144994797378076672 A) {desc c s} (h_s : P s) :
    P (poisonHold desc c s) := by
  unfold poisonHold
  extract_lets +onlyGivenNames -merge -underBinder mark1
  try clear_value mark1
  refine foldl_k ?_ (fun s0 k0 hs0 => ?_)
  · refine upd_sw_merges_releases K (sub rfl hA) ?_
    assumption
  · refine quarHold_keeps K (sub rfl hA) ?_
    assumption

theorem mpAct_keeps (K : Keeps P A) (hA : Sub 145208126793850881 A) {w s} (h_s : P s) :
    P (mpAct w s) := by
  unfold mpAct
  extract_lets +onlyGivenNames -merge -underBinder m1 a2 acted3 ue4
  try clear_value m1
  try clear_value a2
  refine ite_k ?_ ?_
  · try dsimp only [acted3]
    try (conv => zeta)
    refine State.setMemSum_keeps K (sub rfl hA) ?_
    · refine poisonChip_keeps K (sub rfl hA) ?_
      · assumption
  · refine ite_k ?_ ?_
    · try dsimp only [acted3]
      try (conv => zeta)
      refine State.setMemSum_keeps K (sub rfl hA) ?_
      · refine poisonHold_keeps K (sub rfl hA) ?_
        · assumption
    · refine ite_k ?_ ?_
      · try dsimp only [acted3]
        try (conv => zeta)
        refine State.setMemSum_keeps K (sub rfl hA) ?_
        · refine poisonHold_keeps K (sub rfl hA) ?_
          · assumption
      · refine ite_k ?_ ?_
        · extract_lets +onlyGivenNames -merge -underBinder f5
          try clear_value f5
          try dsimp only [acted3]
          try (conv => zeta)
          refine State.setMemSum_keeps K (sub rfl hA) ?_
          · refine foldl_k ?_ (fun s0 k0 hs0 => ?_)
            · assumption
            · refine poisonChip_keeps K (sub rfl hA) ?_
              · assumption
        · refine ite_k ?_ ?_
          · split
            · assumption
            · extract_lets +onlyGivenNames -merge -underBinder src6 s7 s8
              try clear_value src6
              have hs7 : P s7 := by
                refine upd_ft K (sub rfl hA) ?_
                assumption
              try clear_value s7
              have hs8 : P s8 := by
                refine foldl_k ?_ (fun s0 k0 hs0 => ?_)
                · assumption
                · refine mpWrite_keeps K (sub rfl hA) ?_
                  · assumption
              try clear_value s8
              try dsimp only [acted3]
              try (conv => zeta)
              refine State.setMemSum_keeps K (sub rfl hA) ?_
              · try dsimp only [ue4]
                try (conv => zeta)
                refine countRaw_keeps K (sub rfl hA) ?_
                · refine raiseEv_keeps K (sub rfl hA) ?_
                  · assumption
          · refine ite_k ?_ ?_
            · refine ite_k ?_ ?_
              · try dsimp only [acted3]
                try (conv => zeta)
                refine State.setMemSum_keeps K (sub rfl hA) ?_
                · try dsimp only [ue4]
                  try (conv => zeta)
                  refine countRaw_keeps K (sub rfl hA) ?_
                  · refine raiseEv_keeps K (sub rfl hA) ?_
                    · refine upd_ft K (sub rfl hA) ?_
                      assumption
              · assumption
            · refine ite_k ?_ ?_
              · split
                · assumption
                · try dsimp only [acted3]
                  try (conv => zeta)
                  refine State.setMemSum_keeps K (sub rfl hA) ?_
                  · try dsimp only [ue4]
                    try (conv => zeta)
                    refine countRaw_keeps K (sub rfl hA) ?_
                    · refine raiseEv_keeps K (sub rfl hA) ?_
                      · refine upd_ft K (sub rfl hA) ?_
                        assumption
              · refine ite_k ?_ ?_
                · split
                  · assumption
                  · extract_lets +onlyGivenNames -merge -underBinder s9
                    have hs9 : P s9 := by
                      refine foldl_k ?_ (fun s0 k0 hs0 => ?_)
                      · assumption
                      · refine mpWrite_keeps K (sub rfl hA) ?_
                        · assumption
                    try clear_value s9
                    try dsimp only [acted3]
                    try (conv => zeta)
                    refine State.setMemSum_keeps K (sub rfl hA) ?_
                    · try dsimp only [ue4]
                      try (conv => zeta)
                      refine countRaw_keeps K (sub rfl hA) ?_
                      · refine raiseEv_keeps K (sub rfl hA) ?_
                        · refine upd_sw K (sub rfl hA) ?_
                          assumption
                · refine ite_k ?_ ?_
                  · extract_lets +onlyGivenNames -merge -underBinder i10
                    try clear_value i10
                    refine ite_k ?_ ?_
                    · try dsimp only [acted3]
                      try (conv => zeta)
                      refine State.setMemSum_keeps K (sub rfl hA) ?_
                      · refine upd_refs K (sub rfl hA) ?_
                        assumption
                    · assumption
                  · refine ite_k ?_ ?_
                    · extract_lets +onlyGivenNames -merge -underBinder s11 s12
                      have hs11 : P s11 := by
                        refine mpWrite_keeps K (sub rfl hA) ?_
                        · refine upd_counters K (sub rfl hA) ?_
                          assumption
                      try clear_value s11
                      have hs12 : P s12 := by
                        refine setF_k K 18 part_ctOvf (sub rfl hA) ?_
                        assumption
                      try clear_value s12
                      refine raiseEv_keeps K (sub rfl hA) ?_
                      · assumption
                    · refine ite_k ?_ ?_
                      · try dsimp only [acted3]
                        try (conv => zeta)
                        refine State.setMemSum_keeps K (sub rfl hA) ?_
                        · refine upd_mp K (sub rfl hA) ?_
                          assumption
                      · refine ite_k ?_ ?_
                        · refine upd_mbx K (sub rfl hA) ?_
                          assumption
                        · try dsimp only [acted3]
                          try (conv => zeta)
                          refine State.setMemSum_keeps K (sub rfl hA) ?_
                          · refine poisonDdr_keeps K (sub rfl hA) ?_
                            · assumption

theorem mpLost_keeps (K : Keeps P A) (hA : Sub 145208126793850881 A) {w scrub s} (h_s : P s) :
    P (mpLost w scrub s) := by
  unfold mpLost
  extract_lets +onlyGivenNames -merge -underBinder m1 x2 s3 s4
  try clear_value m1
  try clear_value x2
  have hs3 : P s3 := by
    refine countRaw_keeps K (sub rfl hA) ?_
    · refine mpList_keeps K (sub rfl hA) ?_
      · refine State.setMemSum_keeps K (sub rfl hA) ?_
        · assumption
  try clear_value s3
  have hs4 : P s4 := by
    refine set64_k K 19 part_mpLastUe_2 (sub rfl hA) ?_
    assumption
  try clear_value s4
  refine mpAct_keeps K (sub rfl hA) ?_
  · refine mpEvent_keeps K (sub rfl hA) ?_
    · assumption

theorem mpRead_keeps (K : Keeps P A) (hA : Sub 145208127062286337 A) {w scrub s} (h_s : P s) :
    P (mpRead w scrub s).2 := by
  unfold mpRead
  refine ite2_k ?_ ?_
  · refine mk2_k ?_
    assumption
  · extract_lets +onlyGivenNames -merge -underBinder k1 ks2
    try clear_value k1
    have hks2 : P ks2.2 := by
      refine ite2_k ?_ ?_
      · refine mk2_k ?_
        refine State.draw_keeps K (sub rfl hA) ?_
        · assumption
      · refine mk2_k ?_
        assumption
    try clear_value ks2
    refine ite2_k ?_ ?_
    · refine mk2_k ?_
      refine mpCorrection_keeps K (sub rfl hA) ?_
      · assumption
    · refine ite2_k ?_ ?_
      · refine mk2_k ?_
        refine mpLost_keeps K (sub rfl hA) ?_
        · assumption
      · refine mk2_k ?_
        assumption

theorem mergeFlush_keeps (K : Keeps P A) (hA : Sub 145208126793850881 A) {e s} (h_s : P s) :
    P (mergeFlush e s) := by
  unfold mergeFlush
  extract_lets +onlyGivenNames -merge -underBinder src1 s2
  try clear_value src1
  have hs2 : P s2 := by
    refine upd_mp K (sub rfl hA) ?_
    assumption
  try clear_value s2
  refine ite_k ?_ ?_
  · refine mpLost_keeps K (sub rfl hA) ?_
    · assumption
  · refine mpWrite_keeps K (sub rfl hA) ?_
    · assumption

theorem mpPartial_keeps (K : Keeps P A) (hA : Sub 145208126793850881 A) {w bytes s} (h_s : P s) :
    P (mpPartial w bytes s) := by
  unfold mpPartial
  extract_lets +onlyGivenNames -merge -underBinder old1 e2 rest3
  try clear_value old1
  try clear_value e2
  try clear_value rest3
  refine ite_k ?_ ?_
  · refine mergeFlush_keeps K (sub rfl hA) ?_
    · refine upd_mp K (sub rfl hA) ?_
      assumption
  · extract_lets +onlyGivenNames -merge -underBinder s4
    have hs4 : P s4 := by
      refine ite_k ?_ ?_
      · assumption
      · refine mergeFlush_keeps K (sub rfl hA) ?_
        · assumption
    try clear_value s4
    refine upd_mp K (sub rfl hA) ?_
    assumption

theorem count_keeps (K : Keeps P A) (hA : Sub 145208127062286337 A) {c n s} (h_s : P s) :
    P (count c n s) := by
  unfold count
  refine ite_k ?_ ?_
  · refine countRaw_keeps K (sub rfl hA) ?_
    · assumption
  · refine mpWrite_keeps K (sub rfl hA) ?_
    · refine countRaw_keeps K (sub rfl hA) ?_
      · refine mpRead_keeps K (sub rfl hA) ?_
        · assumption

theorem evrWrite_keeps (K : Keeps P A) (hA : Sub 145208128270245889 A) {e s} (h_s : P s) :
    P (evrWrite e s) := by
  unfold evrWrite
  extract_lets +onlyGivenNames -merge -underBinder loss1 src2 s3
  try clear_value loss1
  try clear_value src2
  have hs3 : P s3 := by
    refine upd_evu K (sub rfl hA) ?_
    assumption
  try clear_value s3
  refine count_keeps K (sub rfl hA) ?_
  · refine ringPut_k K 0 ring_evr (sub rfl hA) ?_
    assumption

theorem evrDrain_keeps (K : Keeps P A) (hA : Sub 145208128270245889 A) {a aa1} (h_aa1 : P aa1) :
    P (evrDrain a aa1) := by
  induction a generalizing aa1 with
  | zero =>
    rw [evrDrain]
    try (conv => zeta)
    assumption
  | succ k ih =>
    rw [evrDrain]
    try (conv => zeta)
    refine ite_k ?_ ?_
    · split
      · assumption
      · refine ih ?_
        refine evrWrite_keeps K (sub rfl hA) ?_
        · refine upd_evu K (sub rfl hA) ?_
          assumption
    · assumption

theorem evrLose_keeps (K : Keeps P A) (hA : Sub 145208127062286337 A) {s} (h_s : P s) :
    P (evrLose s) := by
  unfold evrLose
  extract_lets +onlyGivenNames -merge -underBinder s1 s2
  have hs1 : P s1 := by
    refine count_keeps K (sub rfl hA) ?_
    refine set64_k K 0 part_hstEvrLost_2 (sub rfl hA) ?_
    assumption
  try clear_value s1
  have hs2 : P s2 := by
    refine raiseBit_k K 0 part_hstStatusEvrLoss (sub rfl hA) ?_
    assumption
  try clear_value s2
  refine upd_evu K (sub rfl hA) ?_
  assumption

theorem evrPass_keeps (K : Keeps P A) (hA : Sub 145208128270245889 A) {e s} (h_s : P s) :
    P (evrPass e s) := by
  unfold evrPass
  extract_lets +onlyGivenNames -merge -underBinder e1 src2 s3 s4
  try clear_value e1
  try clear_value src2
  have hs3 : P s3 := by
    refine upd_evu K (sub rfl hA) ?_
    assumption
  try clear_value s3
  have hs4 : P s4 := by
    refine evrDrain_keeps K (sub rfl hA) ?_
    · assumption
  try clear_value s4
  refine ite_k ?_ ?_
  · refine evrWrite_keeps K (sub rfl hA) ?_
    · assumption
  · refine ite_k ?_ ?_
    · refine upd_evu K (sub rfl hA) ?_
      assumption
    · refine ite_k ?_ ?_
      · refine evrLose_keeps K (sub rfl hA) ?_
        · refine upd_evu K (sub rfl hA) ?_
          assumption
      · refine evrLose_keeps K (sub rfl hA) ?_
        · assumption

theorem evdDrop_keeps (K : Keeps P A) (hA : Sub 146334026969128961 A) {s} (h_s : P s) :
    P (evdDrop s) := by
  unfold evdDrop
  extract_lets +onlyGivenNames -merge -underBinder src1 s2
  try clear_value src1
  have hs2 : P s2 := by
    refine count_keeps K (sub rfl hA) ?_
    · refine upd_evd K (sub rfl hA) ?_
      assumption
  try clear_value s2
  refine ite_k ?_ ?_
  · assumption
  · refine raiseEv_keeps K (sub rfl hA) ?_
    · refine upd_evd K (sub rfl hA) ?_
      assumption

theorem evdSend_keeps (K : Keeps P A) (hA : Sub 146334026969128961 A) {rtype rflags src stamp fs s} (h_s : P s) :
    P (evdSend rtype rflags src stamp fs s) := by
  unfold evdSend
  refine ite_k ?_ ?_
  · refine count_keeps K (sub rfl hA) ?_
    · refine upd_evd K (sub rfl hA) ?_
      assumption
  · refine ite_k ?_ ?_
    · refine evdDrop_keeps K (sub rfl hA) ?_
      · assumption
    · extract_lets +onlyGivenNames -merge -underBinder e1
      try clear_value e1
      refine upd_evd K (sub rfl hA) ?_
      assumption

theorem accessFault_keeps (K : Keeps P A) (hA : Sub 145208127062286337 A) {a write s} (h_s : P s) :
    P (accessFault a write s) := by
  unfold accessFault
  extract_lets +onlyGivenNames -merge -underBinder s1 s2 s3 s4 s5
  have hs1 : P s1 := by
    refine count_keeps K (sub rfl hA) ?_
    refine raiseBit_k K 0 part_hstStatusAccessFault (sub rfl hA) ?_
    assumption
  try clear_value s1
  have hs2 : P s2 := by
    refine setB_k K 0 part_hstFaultAddrWrite (sub rfl hA) ?_
    assumption
  try clear_value s2
  have hs3 : P s3 := by
    refine setF_k K 0 part_hstFaultAddrReq (sub rfl hA) ?_
    assumption
  try clear_value s3
  have hs4 : P s4 := by
    refine setF_k K 0 part_hstFaultAddrBar (sub rfl hA) ?_
    assumption
  try clear_value s4
  have hs5 : P s5 := by
    refine setF_k K 0 part_hstFaultAddrOffset (sub rfl hA) ?_
    assumption
  try clear_value s5
  refine raiseEv_keeps K (sub rfl hA) ?_
  assumption

theorem guardViolations_keeps (K : Keeps P A) (hA : Sub 146334026969128963 A) {n off req reason action requested applied evWord s} (h_s : P s) :
    P (guardViolations n off req reason action requested applied evWord s) := by
  unfold guardViolations
  extract_lets +onlyGivenNames -merge -underBinder s1 s2 s3 s4 s5 s6 s7
  have hs1 : P s1 := by
    refine count_keeps K (sub rfl hA) ?_
    refine addSat_k K 1 part_gdStatusViolCount (sub rfl hA) ?_
    assumption
  try clear_value s1
  have hs2 : P s2 := by
    refine setF_k K 1 part_gdStatusLastReq (sub rfl hA) ?_
    assumption
  try clear_value s2
  have hs3 : P s3 := by
    refine setF_k K 1 part_gdStatusLastReason (sub rfl hA) ?_
    assumption
  try clear_value s3
  have hs4 : P s4 := by
    refine raiseBit_k K 1 part_gdStatusGdViol (sub rfl hA) ?_
    assumption
  try clear_value s4
  have hs5 : P s5 := by
    refine setF_k K 1 part_gdViolAddrOffset (sub rfl hA) ?_
    assumption
  try clear_value s5
  have hs6 : P s6 := by
    refine raiseBit_k K 0 part_hstIrqStatusGdViol (sub rfl hA) ?_
    assumption
  try clear_value s6
  have hs7 : P s7 := by
    refine raiseEv_keeps K (sub rfl hA) ?_
    assumption
  try clear_value s7
  refine evdSend_keeps K (sub rfl hA) ?_
  assumption

theorem guardViolation_keeps (K : Keeps P A) (hA : Sub 146334026969128963 A) {off req reason action requested applied evWord s} (h_s : P s) :
    P (guardViolation off req reason action requested applied evWord s) := by
  unfold guardViolation
  refine guardViolations_keeps K (sub rfl hA) ?_
  · assumption

end Sys2Proof.Machine
end

