-- ==== Sys2Proof/Laws/KeepBluem.lean ====
section
/-! SUPPORT. What the operations of Sys2Proof/Machine/Bluem.lean keep (Sys2Proof/Laws/Keeps.lean): the mask in each lemma names the parts
of the state that the operation can touch. -/

set_option Elab.async false

namespace Sys2Proof.Machine

variable {P : State → Prop} {A : Nat}

theorem ring_cq {q : Nat} : RingIn 2 (cqRing q) :=
  ⟨part_mbxCqProdIndex, part_mbxCqConsIndex, part_mbxCqProdPhase, part_mbxCfgCfgErr, fun h => absurd h (by simp only [cqRing]; omega)⟩

theorem State.setQueue_keeps (K : Keeps P A) (hA : Sub 4294967296 A) {s q x} (h_s : P s) :
    P (State.setQueue s q x) := by
  unfold State.setQueue
  refine ite_k ?_ ?_
  · refine upd_mbx K (sub rfl hA) ?_
    assumption
  · refine upd_mbx K (sub rfl hA) ?_
    assumption

theorem syncPending_keeps (K : Keeps P A) (hA : Sub 4 A) {q s} (h_s : P s) :
    P (syncPending q s) := by
  unfold syncPending
  refine setF_k K 2 part_mbxStatusPending (sub rfl hA) ?_
  assumption

theorem cplPut_keeps (K : Keeps P A) (hA : Sub 3355443204 A) {q e s} (h_s : P s) :
    P (cplPut q e s) := by
  unfold cplPut
  refine ite_k ?_ ?_
  · refine ringPut_k K 2 ring_cq (sub rfl hA) ?_
    assumption
  · assumption

theorem hamperFinish_keeps (K : Keeps P A) (hA : Sub 7650410500 A) {q st slot now s} (h_s : P s) :
    P (hamperFinish q st slot now s) := by
  unfold hamperFinish
  split
  · assumption
  · extract_lets +onlyGivenNames -merge -underBinder h1
    try clear_value h1
    refine ite_k ?_ ?_
    · extract_lets +onlyGivenNames -merge -underBinder src2 s3
      try clear_value src2
      have hs3 : P s3 := by
        refine State.setQueue_keeps K (sub rfl hA) ?_
        · assumption
      try clear_value s3
      refine ite_k ?_ ?_
      · refine cplPut_keeps K (sub rfl hA) ?_
        · assumption
      · assumption
    · refine State.setQueue_keeps K (sub rfl hA) ?_
      · assumption

theorem flushEnds_keeps (K : Keeps P A) (hA : Sub 7650410500 A) {a aa1 aa2} (h_aa2 : P aa2) :
    P (flushEnds a aa1 aa2) := by
  induction a generalizing aa1 aa2 with
  | zero =>
    rw [flushEnds]
    try (conv => zeta)
    assumption
  | succ k ih =>
    rw [flushEnds]
    try (conv => zeta)
    split
    · assumption
    · refine ite_k ?_ ?_
      · refine ih ?_
        refine cplPut_keeps K (sub rfl hA) ?_
        · refine State.setQueue_keeps K (sub rfl hA) ?_
          · assumption
      · assumption

theorem twSend_keeps (K : Keeps P A) (hA : Sub 9007199254740992 A) {type fields data s} (h_s : P s) :
    P (twSend type fields data s) := by
  unfold twSend
  refine ite_k ?_ ?_
  · extract_lets +onlyGivenNames -merge -underBinder n1 f2
    try clear_value n1
    try clear_value f2
    refine upd_tw K (sub rfl hA) ?_
    assumption
  · assumption

theorem mirrorOut_keeps (K : Keeps P A) (hA : Sub 9007199255789568 A) {opcode c mir s} (h_s : P s) :
    P (mirrorOut opcode c mir s) := by
  unfold mirrorOut
  refine ite_k ?_ ?_
  · extract_lets +onlyGivenNames -merge -underBinder n1 s2
    try clear_value n1
    try clear_value s2
    extract_lets +onlyGivenNames -merge -underBinder s3
    have hs3 : P s3 := by
      refine upd_tw K (sub rfl hA) ?_
      assumption
    try clear_value s3
    refine setF_k K 20 part_twMirrorSeq (sub rfl hA) ?_
    refine twSend_keeps K (sub rfl hA) ?_
    assumption
  · assumption

theorem takeEntry_keeps (K : Keeps P A) (hA : Sub 4294967300 A) {c now s} (h_s : P s) :
    P (takeEntry c now s) := by
  unfold takeEntry
  extract_lets +onlyGivenNames -merge -underBinder s1
  try clear_value s1
  extract_lets +onlyGivenNames -merge -underBinder s2
  have hs2 : P s2 := by
    refine upd_mbx K (sub rfl hA) ?_
    assumption
  try clear_value s2
  refine ite_k ?_ ?_
  · extract_lets +onlyGivenNames -merge -underBinder q3 x4 slot5 hs6 s7
    try clear_value q3
    try clear_value x4
    try clear_value slot5
    try clear_value hs6
    have hs7 : P s7 := by
      refine State.setQueue_keeps K (sub rfl hA) ?_
      assumption
    try clear_value s7
    refine syncPending_keeps K (sub rfl hA) ?_
    refine setF_k K 2 part_mbxSqHeadIndex (sub rfl hA) ?_
    assumption
  · assumption

theorem writeBuf_keeps (K : Keeps P A) (hA : Sub 134217728 A) {c r s} (h_s : P s) :
    P (writeBuf c r s).2.2 := by
  unfold writeBuf
  extract_lets +onlyGivenNames -merge -underBinder bs1
  try clear_value bs1
  refine ite22_k ?_ ?_
  · refine mk2_g (Q := fun r : _ × State => P r.2) ?_
    refine mk2_k ?_
    assumption
  · refine ite22_k ?_ ?_
    · refine mk2_g (Q := fun r : _ × State => P r.2) ?_
      refine mk2_k ?_
      refine State.dma_keeps K (sub rfl hA) ?_
      · assumption
    · refine mk2_g (Q := fun r : _ × State => P r.2) ?_
      refine mk2_k ?_
      assumption

theorem mirrorDone_keeps (K : Keeps P A) (hA : Sub 9007199255789568 A) {seq e s} (h_s : P s) :
    P (mirrorDone seq e s) := by
  unfold mirrorDone
  split
  · assumption
  · extract_lets +onlyGivenNames -merge -underBinder s1 s2
    have hs1 : P s1 := by
      refine setF_k K 20 part_twLastMirrorTag (sub rfl hA) ?_
      refine setF_k K 20 part_twLastMirrorOpcode (sub rfl hA) ?_
      assumption
    try clear_value s1
    have hs2 : P s2 := by
      refine setB_k K 20 part_twLastMirrorStTaken (sub rfl hA) ?_
      refine setF_k K 20 part_twLastMirrorStStatus (sub rfl hA) ?_
      assumption
    try clear_value s2
    refine twSend_keeps K (sub rfl hA) ?_
    refine upd_tw K (sub rfl hA) ?_
    assumption

theorem imageDone_keeps (K : Keeps P A) (hA : Sub 4611686018427387904 A) {e s} (h_s : P s) :
    P (imageDone e s) := by
  unfold imageDone
  split
  · assumption
  · refine upd_boot K (sub rfl hA) ?_
    assumption

theorem deliver_keeps (K : Keeps P A) (hA : Sub 7650410500 A) {c e hasEntry s} (h_s : P s) :
    P (deliver c e hasEntry s) := by
  unfold deliver
  split
  · refine upd_bus K (sub rfl hA) ?_
    assumption
  · assumption
  · assumption
  · extract_lets +onlyGivenNames -merge -underBinder q1 s2 s3
    try clear_value q1
    have hs2 : P s2 := by
      refine ite_k ?_ ?_
      · refine cplPut_keeps K (sub rfl hA) ?_
        assumption
      · assumption
    try clear_value s2
    have hs3 : P s3 := by
      refine hamperFinish_keeps K (sub rfl hA) ?_
      assumption
    try clear_value s3
    refine flushEnds_keeps K (sub rfl hA) ?_
    assumption

theorem ackEnds_keeps (K : Keeps P A) (hA : Sub 9007206905151492 A) {w e s} (h_s : P s) :
    P (ackEnds w e s) := by
  unfold ackEnds
  extract_lets +onlyGivenNames -merge -underBinder s1
  try clear_value s1
  extract_lets +onlyGivenNames -merge -underBinder s2
  try clear_value s2
  extract_lets +onlyGivenNames -merge -underBinder s3
  have hs3 : P s3 := by
    refine upd_mbx_tw K (sub rfl hA) ?_
    assumption
  try clear_value s3
  refine ite_k ?_ ?_
  · assumption
  · refine deliver_keeps K (sub rfl hA) ?_
    assumption

theorem ackTaken_keeps (K : Keeps P A) (hA : Sub 9007207442022405 A) {w status s} (h_s : P s) :
    P (ackTaken w status s) := by
  unfold ackTaken
  extract_lets +onlyGivenNames -merge -underBinder diff1 s2
  try clear_value diff1
  have hs2 : P s2 := by
    refine ite_k ?_ ?_
    · refine raiseEv_keeps K (sub rfl hA) ?_
      assumption
    · assumption
  try clear_value s2
  refine ackEnds_keeps K (sub rfl hA) ?_
  assumption

theorem finish_keeps (K : Keeps P A) (hA : Sub 4620693225333587972 A) {opcode c slot t0 cf mir r s} (h_s : P s) :
    P (finish opcode c slot t0 cf mir r s) := by
  unfold finish
  extract_lets +onlyGivenNames -merge -underBinder s1 w2 r3 s4 e5 hasEntry6
  try clear_value s1
  have hw2 : P w2 := by
    refine upd_mbx K (sub rfl hA) ?_
    assumption
  try clear_value w2
  have hr3 : P r3.2.2 := by
    refine writeBuf_keeps K (sub rfl hA) ?_
    assumption
  try clear_value r3
  try clear_value s4
  have he5 : P e5 := by
    assumption
  try clear_value e5
  try clear_value hasEntry6
  extract_lets +onlyGivenNames -merge -underBinder hasEntry7
  try clear_value hasEntry7
  refine ite_k ?_ ?_
  · refine mirrorDone_keeps K (sub rfl hA) ?_
    assumption
  · refine ite_k ?_ ?_
    · refine imageDone_keeps K (sub rfl hA) ?_
      assumption
    · split
      · refine upd_mbx K (sub rfl hA) ?_
        assumption
      · refine deliver_keeps K (sub rfl hA) ?_
        assumption

theorem startFail_keeps (K : Keeps P A) (hA : Sub 4620693225333587972 A) {k c slot t0 st d s} (h_s : P s) :
    P (startFail k c slot t0 st d s) := by
  unfold startFail
  extract_lets +onlyGivenNames -merge -underBinder f1
  try clear_value f1
  refine finish_keeps K (sub rfl hA) ?_
  refine mirrorOut_keeps K (sub rfl hA) ?_
  refine takeEntry_keeps K (sub rfl hA) ?_
  assumption

theorem runCmd_keeps (K : Keeps P A) (hA : Sub 4620693225333587972 A) {k effect c s} (h_effect : ∀ y0 y1, P y1 → P (effect y0 y1).1) (h_s : P s) :
    Nx P (runCmd k effect c s) := by
  unfold runCmd
  refine iteN_k ?_ ?_
  · extract_lets +onlyGivenNames -merge -underBinder t01 slot2
    try clear_value t01
    try clear_value slot2
    split
    · refine next_k ?_
      refine startFail_keeps K (sub rfl hA) ?_
      assumption
    · extract_lets +onlyGivenNames -merge -underBinder e3
      have he3 : P e3.1 := by
        unfold e3
        refine h_effect _ _ ?_
        refine takeEntry_keeps K (sub rfl hA) ?_
        assumption
      try clear_value e3
      refine next_k ?_
      refine finish_keeps K (sub rfl hA) ?_
      refine mirrorOut_keeps K (sub rfl hA) ?_
      assumption
  · refine iteN_k ?_ ?_
    · refine next_k ?_
      refine raiseBit_k K 2 part_mbxStatusCqStall (sub rfl hA) ?_
      assumption
    · refine next_k ?_
      assumption

theorem runHeld_keeps (K : Keeps P A) (hA : Sub 4620693225333587972 A) {k effect c s} (h_effect : ∀ y0 y1, P y1 → P (effect y0 y1).1) (h_s : P s) :
    Nx P (runHeld k effect c s) := by
  unfold runHeld
  refine iteN_k ?_ ?_
  · extract_lets +onlyGivenNames -merge -underBinder t01 slot2
    try clear_value t01
    try clear_value slot2
    split
    · refine next_k ?_
      refine startFail_keeps K (sub rfl hA) ?_
      assumption
    · extract_lets +onlyGivenNames -merge -underBinder e3 e4 n5
      have he3 : P e3.1 := by
        unfold e3
        refine h_effect _ _ ?_
        refine takeEntry_keeps K (sub rfl hA) ?_
        assumption
      try clear_value e3
      have he4 : P e4.1 := by
        refine mk1_k ?_
        refine mirrorOut_keeps K (sub rfl hA) ?_
        assumption
      try clear_value e4
      try clear_value n5
      split
      · refine next_k ?_
        refine finish_keeps K (sub rfl hA) ?_
        assumption
      · refine next_k ?_
        extract_lets +onlyGivenNames -merge -underBinder __src6
        have h__src6 : P __src6 := by
          assumption
        try clear_value __src6
        refine upd_mbx K (sub rfl hA) ?_
        assumption
  · refine iteN_k ?_ ?_
    · refine next_k ?_
      refine raiseBit_k K 2 part_mbxStatusCqStall (sub rfl hA) ?_
      assumption
    · refine next_k ?_
      assumption

theorem resumeHeld_keeps (K : Keeps P A) (hA : Sub 4620693225333587972 A) {r s} (h_s : P s) :
    P (resumeHeld r s) := by
  unfold resumeHeld
  split
  · assumption
  · extract_lets +onlyGivenNames -merge -underBinder s1
    try clear_value s1
    extract_lets +onlyGivenNames -merge -underBinder s2
    have hs2 : P s2 := by
      refine upd_mbx K (sub rfl hA) ?_
      assumption
    try clear_value s2
    refine ite_k ?_ ?_
    · assumption
    · refine finish_keeps K (sub rfl hA) ?_
      assumption

theorem syncLong_keeps (K : Keeps P A) (hA : Sub 4 A) {s} (h_s : P s) :
    P (syncLong s) := by
  unfold syncLong
  split
  · refine setF_k K 2 part_mbxLongStepEstimate (sub rfl hA) ?_
    refine setF_k K 2 part_mbxLongStepDone (sub rfl hA) ?_
    refine setF_k K 2 part_mbxLongOpTag (sub rfl hA) ?_
    refine setF_k K 2 part_mbxLongOpOpcode (sub rfl hA) ?_
    assumption
  · refine setF_k K 2 part_mbxLongStepEstimate (sub rfl hA) ?_
    refine setF_k K 2 part_mbxLongStepDone (sub rfl hA) ?_
    refine setF_k K 2 part_mbxLongOpTag (sub rfl hA) ?_
    refine setF_k K 2 part_mbxLongOpOpcode (sub rfl hA) ?_
    assumption

theorem progress_keeps (K : Keeps P A) (hA : Sub 3355443204 A) {o s} (h_s : P s) :
    P (progress o s).2 := by
  unfold progress
  refine ite2_k ?_ ?_
  · refine ite2_k ?_ ?_
    · refine mk2_k ?_
      refine cplPut_keeps K (sub rfl hA) ?_
      · assumption
    · refine mk2_k ?_
      assumption
  · refine mk2_k ?_
    assumption

theorem storeStep_keeps (K : Keeps P A) (hA : Sub 144115192371347456 A) {o s} (h_s : P s) :
    P (storeStep o s) := by
  unfold storeStep
  extract_lets +onlyGivenNames -merge -underBinder s1
  have hs1 : P s1 := by
    refine foldl_k ?_ (fun s0 k0 hs0 => ?_)
    · assumption
    · refine mpWrite_keeps K (sub rfl hA) ?_
      assumption
  try clear_value s1
  refine upd_mbx K (sub rfl hA) ?_
  assumption

theorem afterStep_keeps (K : Keeps P A) (hA : Sub 4764808413409968132 A) {k o e} (h_e : P e.1) :
    P (afterStep k o e) := by
  unfold afterStep
  extract_lets +onlyGivenNames -merge -underBinder s1
  have hs1 : P s1 := by
    assumption
  try clear_value s1
  split
  · extract_lets +onlyGivenNames -merge -underBinder o'2 s3 p4
    try clear_value o'2
    try clear_value s3
    have hp4 : P p4 := by
      refine upd_mbx K (sub rfl hA) ?_
      assumption
    try clear_value p4
    extract_lets +onlyGivenNames -merge -underBinder p5
    have hp5 : P p5.2 := by
      refine progress_keeps K (sub rfl hA) ?_
      assumption
    try clear_value p5
    refine syncLong_keeps K (sub rfl hA) ?_
    refine storeStep_keeps K (sub rfl hA) ?_
    assumption
  · extract_lets +onlyGivenNames -merge -underBinder s6
    try clear_value s6
    extract_lets +onlyGivenNames -merge -underBinder s7
    have hs7 : P s7 := by
      refine syncLong_keeps K (sub rfl hA) ?_
      refine upd_mbx K (sub rfl hA) ?_
      assumption
    try clear_value s7
    refine ite_k ?_ ?_
    · assumption
    · refine finish_keeps K (sub rfl hA) ?_
      assumption

theorem runStepped_keeps (K : Keeps P A) (hA : Sub 4764808413409968132 A) {k first c s} (h_first : ∀ y0 y1, P y1 → P (first y0 y1).1) (h_s : P s) :
    Nx P (runStepped k first c s) := by
  unfold runStepped
  refine iteN_k ?_ ?_
  · extract_lets +onlyGivenNames -merge -underBinder t01 slot2
    try clear_value t01
    try clear_value slot2
    split
    · refine next_k ?_
      refine startFail_keeps K (sub rfl hA) ?_
      assumption
    · extract_lets +onlyGivenNames -merge -underBinder o3 s4
      try clear_value o3
      have hs4 : P s4 := by
        refine mirrorOut_keeps K (sub rfl hA) ?_
        refine takeEntry_keeps K (sub rfl hA) ?_
        assumption
      try clear_value s4
      refine next_k ?_
      refine afterStep_keeps K (sub rfl hA) ?_
      refine h_first _ _ ?_
      refine upd_mbx K (sub rfl hA) ?_
      assumption
  · refine iteN_k ?_ ?_
    · refine next_k ?_
      refine raiseBit_k K 2 part_mbxStatusCqStall (sub rfl hA) ?_
      assumption
    · refine next_k ?_
      assumption

end Sys2Proof.Machine
end

