-- ==== Sys2Proof/Laws/KeepTimeBase.lean ====
section
/-! SUPPORT. What the operations of Sys2Proof/Machine/TimeBase.lean keep (Sys2Proof/Laws/Keeps.lean): the mask in each lemma names the parts
of the state that the operation can touch. -/

set_option Elab.async false

namespace Sys2Proof.Machine

variable {P : State → Prop} {A : Nat}

theorem State.setDom_keeps (K : Keeps P A) (hA : Sub 34359738368 A) {s d x} (h_s : P s) :
    P (State.setDom s d x) := by
  unfold State.setDom
  refine ite_k ?_ ?_
  · refine upd_tb K (sub rfl hA) ?_
    assumption
  · refine upd_tb K (sub rfl hA) ?_
    assumption

theorem openSegment_keeps (K : Keeps P A) (hA : Sub 34359738376 A) {d x t r s} (h_s : P s) :
    P (openSegment d x t r s) := by
  unfold openSegment
  extract_lets +onlyGivenNames -merge -underBinder dm1 s2 s3 s4 s5
  try clear_value dm1
  have hs2 : P s2 := by
    refine State.setDom_keeps K (sub rfl hA) ?_
    · assumption
  try clear_value s2
  have hs3 : P s3 := by
    refine setI64_k K 3 part_tbDRate_2 (sub rfl hA) ?_
    assumption
  try clear_value s3
  have hs4 : P s4 := by
    refine set96_k K 3 part_tbDAncTk0_3 (sub rfl hA) ?_
    assumption
  try clear_value s4
  have hs5 : P s5 := by
    refine set96_k K 3 part_tbDAncT0_3 (sub rfl hA) ?_
    assumption
  try clear_value s5
  refine addWrap_k K 3 part_tbDAncSeq (sub rfl hA) ?_
  assumption

theorem setRate_keeps (K : Keeps P A) (hA : Sub 34359738376 A) {d r s} (h_s : P s) :
    P (setRate d r s) := by
  unfold setRate
  refine ite_k ?_ ?_
  · refine State.setDom_keeps K (sub rfl hA) ?_
    assumption
  · refine ite_k ?_ ?_
    · refine openSegment_keeps K (sub rfl hA) ?_
      refine State.setDom_keeps K (sub rfl hA) ?_
      assumption
    · refine State.setDom_keeps K (sub rfl hA) ?_
      assumption

theorem rateTick_keeps (K : Keeps P A) (hA : Sub 34359738376 A) {d s} (h_s : P s) :
    P (rateTick d s) := by
  unfold rateTick
  split
  · assumption
  · refine setRate_keeps K (sub rfl hA) ?_
    assumption

theorem setStepc_keeps (K : Keeps P A) (hA : Sub 34359738376 A) {d x n s} (h_s : P s) :
    P (setStepc d x n s) := by
  unfold setStepc
  extract_lets +onlyGivenNames -merge -underBinder old1 s2
  try clear_value old1
  try clear_value s2
  extract_lets +onlyGivenNames -merge -underBinder s3
  have hs3 : P s3 := by
    refine State.setDom_keeps K (sub rfl hA) ?_
    assumption
  try clear_value s3
  refine setF_k K 3 part_tbDStepc (sub rfl hA) ?_
  assumption

theorem fixXc_keeps (K : Keeps P A) (hA : Sub 268435456 A) {start spaced s} (h_s : P s) :
    P (fixXc start spaced s).2 := by
  unfold fixXc
  split
  · refine mk2_k ?_
    assumption
  · extract_lets +onlyGivenNames -merge -underBinder f1
    have hf1 : P f1.2 := by
      refine State.draw_keeps K (sub rfl hA) ?_
      · assumption
    try clear_value f1
    refine mk2_k ?_
    assumption

theorem State.setOut_keeps (K : Keeps P A) (hA : Sub 4398046511104 A) {s n o} (h_s : P s) :
    P (State.setOut s n o) := by
  unfold State.setOut
  refine upd_dpll K (sub rfl hA) ?_
  assumption

theorem rephaseOuts_keeps (K : Keeps P A) (hA : Sub 4398046511104 A) {x old new s} (h_s : P s) :
    P (rephaseOuts x old new s).2 := by
  unfold rephaseOuts
  extract_lets +onlyGivenNames -merge -underBinder r1
  have hr1 : P r1.2 := by
    refine foldl_g (Q := fun r : _ × State => P r.2) ?_ (fun s0 k0 hs0 => ?_)
    · refine mk2_k ?_
      assumption
    · refine ite2_k ?_ ?_
      · extract_lets +onlyGivenNames -merge -underBinder o2 e3
        try clear_value o2
        try clear_value e3
        refine mk2_k ?_
        refine State.setOut_keeps K (sub rfl hA) ?_
        assumption
      · assumption
  try clear_value r1
  refine mk2_k ?_
  assumption

theorem basesDue_keeps (K : Keeps P A) (hA : Sub 34359738368 A) {s} (h_s : P s) :
    P (basesDue s) := by
  unfold basesDue
  refine upd_tb K (sub rfl hA) ?_
  assumption

theorem noteBase_keeps (K : Keeps P A) (hA : Sub 34359738368 A) {k ns s} (h_s : P s) :
    P (noteBase k ns s) := by
  unfold noteBase
  refine upd_tb K (sub rfl hA) ?_
  assumption

theorem noteStep_keeps (K : Keeps P A) (hA : Sub 1125899906842624 A) {s} (h_s : P s) :
    P (noteStep s) := by
  unfold noteStep
  refine upd_evd K (sub rfl hA) ?_
  assumption

theorem capture_keeps (K : Keeps P A) (hA : Sub 2684354569 A) {src x s} (h_s : P s) :
    P (capture src x s) := by
  unfold capture
  extract_lets +onlyGivenNames -merge -underBinder s1 s2 s3 s4 s5 s6 s7 s8 s9 s10 s11
  have hs1 : P s1 := by
    refine set96_k K 3 part_tbSnapTk0_3 (sub rfl hA) ?_
    assumption
  try clear_value s1
  have hs2 : P s2 := by
    refine set96_k K 3 part_tbSnapA0_3 (sub rfl hA) ?_
    assumption
  try clear_value s2
  have hs3 : P s3 := by
    refine set96_k K 3 part_tbSnapB0_3 (sub rfl hA) ?_
    assumption
  try clear_value s3
  have hs4 : P s4 := by
    refine setF_k K 3 part_tbSnapInfoQcA (sub rfl hA) ?_
    assumption
  try clear_value s4
  have hs5 : P s5 := by
    refine setF_k K 3 part_tbSnapInfoQcB (sub rfl hA) ?_
    assumption
  try clear_value s5
  have hs6 : P s6 := by
    refine setF_k K 3 part_tbSnapInfoServed (sub rfl hA) ?_
    assumption
  try clear_value s6
  have hs7 : P s7 := by
    refine setF_k K 3 part_tbSnapStepcStepcA (sub rfl hA) ?_
    assumption
  try clear_value s7
  have hs8 : P s8 := by
    refine setF_k K 3 part_tbSnapStepcStepcB (sub rfl hA) ?_
    assumption
  try clear_value s8
  have hs9 : P s9 := by
    refine addWrap_k K 3 part_tbSnapCtrlSeq (sub rfl hA) ?_
    assumption
  try clear_value s9
  have hs10 : P s10 := by
    refine raiseBit_k K 3 part_tbSnapCtrlDone (sub rfl hA) ?_
    assumption
  try clear_value s10
  have hs11 : P s11 := by
    refine setB_k K 3 part_tbSnapCtrlArm (sub rfl hA) ?_
    assumption
  try clear_value s11
  refine raiseEv_keeps K (sub rfl hA) ?_
  assumption

theorem armSnap_keeps (K : Keeps P A) (hA : Sub 8 A) {src s} (h_s : P s) :
    P (armSnap src s) := by
  unfold armSnap
  refine ite_k ?_ ?_
  · refine setB_k K 3 part_tbSnapCtrlArm (sub rfl hA) ?_
    refine setF_k K 3 part_tbSnapCtrlArmSrc (sub rfl hA) ?_
    assumption
  · refine setB_k K 3 part_tbSnapCtrlArm (sub rfl hA) ?_
    refine setF_k K 3 part_tbSnapCtrlArmSrc (sub rfl hA) ?_
    assumption

theorem armedCapture_keeps (K : Keeps P A) (hA : Sub 2684354569 A) {src x s} (h_s : P s) :
    P (armedCapture src x s) := by
  unfold armedCapture
  refine ite_k ?_ ?_
  · refine capture_keeps K (sub rfl hA) ?_
    · assumption
  · assumption

theorem stepDenied_keeps (K : Keeps P A) (hA : Sub 146334026969128963 A) {a s} (h_s : P s) :
    P (stepDenied a s) := by
  unfold stepDenied
  refine guardViolation_keeps K (sub rfl hA) ?_
  · assumption

theorem requestStep_keeps (K : Keeps P A) (hA : Sub 146334061328867331 A) {inst d a moves realign s} (h_s : P s) :
    P (requestStep inst d a moves realign s).1 := by
  unfold requestStep
  extract_lets +onlyGivenNames -merge -underBinder f1 xc2 s3
  have hf1 : P f1.2 := by
    refine fixXc_keeps K (sub rfl hA) ?_
    assumption
  try clear_value f1
  try clear_value xc2
  have hs3 : P s3 := by
    assumption
  try clear_value s3
  refine ite1_k ?_ ?_
  · refine mk1_k ?_
    assumption
  · refine ite1_k ?_ ?_
    · refine mk1_k ?_
      refine stepDenied_keeps K (sub rfl hA) ?_
      assumption
    · extract_lets +onlyGivenNames -merge -underBinder dm4
      try clear_value dm4
      refine mk1_k ?_
      refine State.setDom_keeps K (sub rfl hA) ?_
      assumption

theorem stepNow_keeps (K : Keeps P A) (hA : Sub 146334061328867337 A) {d p s} (h_s : P s) :
    P (stepNow d p s) := by
  unfold stepNow
  extract_lets +onlyGivenNames -merge -underBinder x1 s2 s3 s4 s5 s6
  try clear_value x1
  have hs2 : P s2 := by
    refine openSegment_keeps K (sub rfl hA) ?_
    assumption
  try clear_value s2
  have hs3 : P s3 := by
    refine setStepc_keeps K (sub rfl hA) ?_
    assumption
  try clear_value s3
  try clear_value s4
  have hs5 : P s5 := by
    refine ite_k ?_ ?_
    · refine State.setDom_keeps K (sub rfl hA) ?_
      assumption
    · assumption
  try clear_value s5
  have hs6 : P s6 := by
    refine raiseAt_keeps K (sub rfl hA) ?_
    assumption
  try clear_value s6
  extract_lets +onlyGivenNames -merge -underBinder s7
  have hs7 : P s7 := by
    refine evdSend_keeps K (sub rfl hA) ?_
    assumption
  try clear_value s7
  refine noteStep_keeps K (sub rfl hA) ?_
  refine basesDue_keeps K (sub rfl hA) ?_
  assumption

theorem rephase_keeps (K : Keeps P A) (hA : Sub 4432406249480 A) {x a s} (h_s : P s) :
    P (rephase x a s) := by
  unfold rephase
  extract_lets +onlyGivenNames -merge -underBinder off1 o2
  try clear_value off1
  try clear_value o2
  refine ite_k ?_ ?_
  · extract_lets +onlyGivenNames -merge -underBinder t3 r4 __src5
    try clear_value t3
    have hr4 : P r4.2 := by
      refine rephaseOuts_keeps K (sub rfl hA) ?_
      assumption
    try clear_value r4
    have h__src5 : P __src5 := by
      refine setI64_k K 3 part_tbOutOffset_2 (sub rfl hA) ?_
      assumption
    try clear_value __src5
    refine upd_tb K (sub rfl hA) ?_
    assumption
  · assumption

theorem applyStep_keeps (K : Keeps P A) (hA : Sub 146338459375378441 A) {d s} (h_s : P s) :
    P (applyStep d s) := by
  unfold applyStep
  split
  · assumption
  · refine ite_k ?_ ?_
    · assumption
    · extract_lets +onlyGivenNames -merge -underBinder s1 s2 s3 s4
      try clear_value s1
      have hs2 : P s2 := by
        refine State.setDom_keeps K (sub rfl hA) ?_
        assumption
      try clear_value s2
      have hs3 : P s3 := by
        refine stepNow_keeps K (sub rfl hA) ?_
        assumption
      try clear_value s3
      have hs4 : P s4 := by
        unfold s4
        split
        · refine setStepc_keeps K (sub rfl hA) ?_
          assumption
        · assumption
      try clear_value s4
      extract_lets +onlyGivenNames -merge -underBinder s5
      have hs5 : P s5 := by
        refine ite_k ?_ ?_
        · refine rephase_keeps K (sub rfl hA) ?_
          assumption
        · assumption
      try clear_value s5
      refine ite_k ?_ ?_
      · refine setI64_k K 3 part_tbDAlignErr_2 (sub rfl hA) ?_
        refine setB_k K 3 part_tbDStatusAlignNeeded (sub rfl hA) ?_
        assumption
      · refine ite_k ?_ ?_
        · refine setI64_k K 3 part_tbDAlignErr_2 (sub rfl hA) ?_
          assumption
        · assumption

theorem setSlewRem_keeps (K : Keeps P A) (hA : Sub 8 A) {d r s} (h_s : P s) :
    P (setSlewRem d r s) := by
  unfold setSlewRem
  refine setB_k K 3 part_tbDStatusSlewing (sub rfl hA) ?_
  refine setI64_k K 3 part_tbDSlewRem_2 (sub rfl hA) ?_
  assumption

theorem startSlew_keeps (K : Keeps P A) (hA : Sub 34359738376 A) {d a rate s} (h_s : P s) :
    P (startSlew d a rate s) := by
  unfold startSlew
  extract_lets +onlyGivenNames -merge -underBinder dm1 total2 s3 s4
  try clear_value dm1
  try clear_value total2
  have hs3 : P s3 := by
    refine State.setDom_keeps K (sub rfl hA) ?_
    · assumption
  try clear_value s3
  have hs4 : P s4 := by
    refine setSlewRem_keeps K (sub rfl hA) ?_
    · assumption
  try clear_value s4
  refine ite_k ?_ ?_
  · assumption
  · refine setRate_keeps K (sub rfl hA) ?_
    · assumption

theorem switchSeamless_keeps (K : Keeps P A) (hA : Sub 34359738376 A) {tested s} (h_s : P s) :
    P (switchSeamless tested s) := by
  unfold switchSeamless
  extract_lets +onlyGivenNames -merge -underBinder __src1
  have h__src1 : P __src1 := by
    refine setI64_k K 3 part_tbOutOffset_2 (sub rfl hA) ?_
    assumption
  try clear_value __src1
  refine upd_tb K (sub rfl hA) ?_
  assumption

theorem switchRephase_keeps (K : Keeps P A) (hA : Sub 4432406249480 A) {tested old s} (h_s : P s) :
    P (switchRephase tested old s) := by
  unfold switchRephase
  refine ite_k ?_ ?_
  · extract_lets +onlyGivenNames -merge -underBinder r1 __src2
    have hr1 : P r1.2 := by
      refine rephaseOuts_keeps K (sub rfl hA) ?_
      assumption
    try clear_value r1
    have h__src2 : P __src2 := by
      refine setI64_k K 3 part_tbOutOffset_2 (sub rfl hA) ?_
      assumption
    try clear_value __src2
    refine upd_tb K (sub rfl hA) ?_
    assumption
  · extract_lets +onlyGivenNames -merge -underBinder __src3
    have h__src3 : P __src3 := by
      refine setI64_k K 3 part_tbOutOffset_2 (sub rfl hA) ?_
      assumption
    try clear_value __src3
    refine upd_tb K (sub rfl hA) ?_
    assumption

theorem switchServed_keeps (K : Keeps P A) (hA : Sub 146338459375378441 A) {d realign s} (h_s : P s) :
    P (switchServed d realign s) := by
  unfold switchServed
  extract_lets +onlyGivenNames -merge -underBinder old1 delta2 tested3 beyond4 moved5 n6 s7 s8 s9 s10 s11 s12 s13 s14 s15 s16 s17 s18
  try clear_value old1
  try clear_value delta2
  try clear_value tested3
  try clear_value beyond4
  try clear_value moved5
  try clear_value n6
  have hs7 : P s7 := by
    refine setF_k K 3 part_tbStateServed (sub rfl hA) ?_
    assumption
  try clear_value s7
  have hs8 : P s8 := by
    refine setF_k K 0 part_hstStatusServed (sub rfl hA) ?_
    assumption
  try clear_value s8
  have hs9 : P s9 := by
    refine setB_k K 3 part_tbDStatusServed (sub rfl hA) ?_
    assumption
  try clear_value s9
  have hs10 : P s10 := by
    refine setB_k K 3 part_tbDStatusServed (sub rfl hA) ?_
    assumption
  try clear_value s10
  try clear_value s11
  have hs12 : P s12 := by
    refine upd_tb K (sub rfl hA) ?_
    assumption
  try clear_value s12
  try clear_value s13
  have hs14 : P s14 := by
    refine State.setDom_keeps K (sub rfl hA) ?_
    assumption
  try clear_value s14
  try clear_value s15
  have hs16 : P s16 := by
    refine State.setDom_keeps K (sub rfl hA) ?_
    assumption
  try clear_value s16
  have hs17 : P s17 := by
    refine setStepc_keeps K (sub rfl hA) ?_
    assumption
  try clear_value s17
  have hs18 : P s18 := by
    refine ite_k ?_ ?_
    · refine switchRephase_keeps K (sub rfl hA) ?_
      assumption
    · refine switchSeamless_keeps K (sub rfl hA) ?_
      assumption
  try clear_value s18
  extract_lets +onlyGivenNames -merge -underBinder s19 s20 s21
  have hs19 : P s19 := by
    refine setB_k K 3 part_tbStateXfer (sub rfl hA) ?_
    assumption
  try clear_value s19
  have hs20 : P s20 := by
    refine raiseEv_keeps K (sub rfl hA) ?_
    assumption
  try clear_value s20
  have hs21 : P s21 := by
    refine evdSend_keeps K (sub rfl hA) ?_
    assumption
  try clear_value s21
  refine noteStep_keeps K (sub rfl hA) ?_
  refine basesDue_keeps K (sub rfl hA) ?_
  assumption

theorem tbReadEffect_keeps (K : Keeps P A) (hA : Sub 0 A) {x s} (h_s : P s) :
    P (tbReadEffect x s).1 := by
  unfold tbReadEffect
  extract_lets +onlyGivenNames -merge -underBinder t1
  try clear_value t1
  refine mk1_k ?_
  assumption

theorem execTbRead_keeps (K : Keeps P A) (hA : Sub 4620693225333587972 A) {c s} (h_s : P s) :
    Nx P (execTbRead c s) := by
  unfold execTbRead
  refine runCmd_keeps K (sub rfl hA) ?_ ?_
  · intro _ _ hh
    refine tbReadEffect_keeps K (sub rfl hA) ?_
    assumption
  · assumption

theorem tbStepEffect_keeps (K : Keeps P A) (hA : Sub 146334061328867331 A) {c s} (h_s : P s) :
    P (tbStepEffect c s).1 := by
  unfold tbStepEffect
  extract_lets +onlyGivenNames -merge -underBinder d1 a2
  try clear_value d1
  try clear_value a2
  refine ite1_k ?_ ?_
  · extract_lets +onlyGivenNames -merge -underBinder t3
    try clear_value t3
    refine mk1_k ?_
    assumption
  · extract_lets +onlyGivenNames -merge -underBinder t4 sc5 w6
    try clear_value t4
    try clear_value sc5
    try clear_value w6
    split
    · try
        rename_i hq
        have hd7 := keep_of (Q := fun r : State × _ => P r.1) hq (by
            refine requestStep_keeps K (sub rfl hA) ?_
            · assumption
            )
      try (have hd7x := hd7 _ rfl)
      refine mk1_k ?_
      assumption
    · try
        rename_i hq
        have hd7 := keep_of (Q := fun r : State × _ => P r.1) hq (by
            refine requestStep_keeps K (sub rfl hA) ?_
            · assumption
            )
      try (have hd7x := hd7 _ rfl)
      refine mk1_k ?_
      assumption

theorem execTbStep_keeps (K : Keeps P A) (hA : Sub 4767027280220004359 A) {c s} (h_s : P s) :
    Nx P (execTbStep c s) := by
  unfold execTbStep
  refine runCmd_keeps K (sub rfl hA) ?_ ?_
  · intro _ _ hh
    refine tbStepEffect_keeps K (sub rfl hA) ?_
    assumption
  · assumption

theorem slewRateUsed_keeps (K : Keeps P A) (hA : Sub 146334026969128963 A) {rate s} (h_s : P s) :
    P (slewRateUsed rate s).2 := by
  unfold slewRateUsed
  extract_lets +onlyGivenNames -merge -underBinder want1 b2
  try clear_value want1
  try clear_value b2
  refine ite2_k ?_ ?_
  · refine mk2_k ?_
    refine guardViolation_keeps K (sub rfl hA) ?_
    · assumption
  · refine mk2_k ?_
    assumption

theorem tbSlewEffect_keeps (K : Keeps P A) (hA : Sub 146334061328867339 A) {c s} (h_s : P s) :
    P (tbSlewEffect c s).1 := by
  unfold tbSlewEffect
  extract_lets +onlyGivenNames -merge -underBinder d1 r2 s3 rem4 stop5
  try clear_value d1
  have hr2 : P r2.2 := by
    refine slewRateUsed_keeps K (sub rfl hA) ?_
    · assumption
  try clear_value r2
  have hs3 : P s3 := by
    refine startSlew_keeps K (sub rfl hA) ?_
    · assumption
  try clear_value s3
  try clear_value rem4
  try clear_value stop5
  refine mk1_k ?_
  assumption

theorem execTbSlew_keeps (K : Keeps P A) (hA : Sub 4767027280220004367 A) {c s} (h_s : P s) :
    Nx P (execTbSlew c s) := by
  unfold execTbSlew
  refine runCmd_keeps K (sub rfl hA) ?_ ?_
  · intro _ _ hh
    refine tbSlewEffect_keeps K (sub rfl hA) ?_
    assumption
  · assumption

theorem steerClamp_keeps (K : Keeps P A) (hA : Sub 146334026969128963 A) {v s} (h_s : P s) :
    P (steerClamp v s).2 := by
  unfold steerClamp
  extract_lets +onlyGivenNames -merge -underBinder b1
  try clear_value b1
  refine ite2_k ?_ ?_
  · extract_lets +onlyGivenNames -merge -underBinder u2
    try clear_value u2
    refine mk2_k ?_
    refine guardViolation_keeps K (sub rfl hA) ?_
    · assumption
  · refine mk2_k ?_
    assumption

theorem tbAdjustEffect_keeps (K : Keeps P A) (hA : Sub 146334061328867339 A) {c s} (h_s : P s) :
    P (tbAdjustEffect c s).1 := by
  unfold tbAdjustEffect
  extract_lets +onlyGivenNames -merge -underBinder d1 v2 s3 src4 s5 held6 src7 src8 src9 src10 s11
  try clear_value d1
  have hv2 : P v2.2 := by
    refine steerClamp_keeps K (sub rfl hA) ?_
    · assumption
  try clear_value v2
  have hs3 : P s3 := by
    assumption
  try clear_value s3
  try clear_value src4
  have hs5 : P s5 := by
    refine State.setDom_keeps K (sub rfl hA) ?_
    · assumption
  try clear_value s5
  try clear_value held6
  try clear_value src7
  try clear_value src8
  try clear_value src9
  try clear_value src10
  have hs11 : P s11 := by
    refine ite_k ?_ ?_
    · refine upd_refs K (sub rfl hA) ?_
      assumption
    · refine upd_refs K (sub rfl hA) ?_
      assumption
  try clear_value s11
  refine mk1_k ?_
  refine setRate_keeps K (sub rfl hA) ?_
  · assumption

theorem execTbAdjust_keeps (K : Keeps P A) (hA : Sub 4767027280220004367 A) {c s} (h_s : P s) :
    Nx P (execTbAdjust c s) := by
  unfold execTbAdjust
  refine runCmd_keeps K (sub rfl hA) ?_ ?_
  · intro _ _ hh
    refine tbAdjustEffect_keeps K (sub rfl hA) ?_
    assumption
  · assumption

theorem tbRealignEffect_keeps (K : Keeps P A) (hA : Sub 146334061328867339 A) {x s} (h_s : P s) :
    P (tbRealignEffect x s).1 := by
  unfold tbRealignEffect
  extract_lets +onlyGivenNames -merge -underBinder d1 a2
  try clear_value d1
  try clear_value a2
  refine ite1_k ?_ ?_
  · refine mk1_k ?_
    refine setB_k K 3 part_tbDStatusAlignNeeded (sub rfl hA) ?_
    assumption
  · extract_lets +onlyGivenNames -merge -underBinder sc3
    try clear_value sc3
    split
    · try
        rename_i hq
        have hd4 := keep_of (Q := fun r : State × _ => P r.1) hq (by
            refine requestStep_keeps K (sub rfl hA) ?_
            · assumption
            )
      try (have hd4x := hd4 _ rfl)
      refine mk1_k ?_
      assumption
    · try
        rename_i hq
        have hd4 := keep_of (Q := fun r : State × _ => P r.1) hq (by
            refine requestStep_keeps K (sub rfl hA) ?_
            · assumption
            )
      try (have hd4x := hd4 _ rfl)
      refine mk1_k ?_
      assumption

theorem execTbRealign_keeps (K : Keeps P A) (hA : Sub 4767027280220004367 A) {c s} (h_s : P s) :
    Nx P (execTbRealign c s) := by
  unfold execTbRealign
  refine runCmd_keeps K (sub rfl hA) ?_ ?_
  · intro _ _ hh
    refine tbRealignEffect_keeps K (sub rfl hA) ?_
    assumption
  · assumption

theorem tbSetServedEffect_keeps (K : Keeps P A) (hA : Sub 34359738376 A) {c s} (h_s : P s) :
    P (tbSetServedEffect c s).1 := by
  unfold tbSetServedEffect
  extract_lets +onlyGivenNames -merge -underBinder d1
  try clear_value d1
  refine ite1_k ?_ ?_
  · refine mk1_k ?_
    assumption
  · refine ite1_k ?_ ?_
    · refine mk1_k ?_
      assumption
    · refine mk1_k ?_
      extract_lets +onlyGivenNames -merge -underBinder src2
      have hsrc2 : P src2 := by
        refine setB_k K 3 part_tbStateSwitching (sub rfl hA) ?_
        assumption
      try clear_value src2
      refine upd_tb K (sub rfl hA) ?_
      assumption

theorem execTbSetServed_keeps (K : Keeps P A) (hA : Sub 4620693259693326348 A) {c s} (h_s : P s) :
    Nx P (execTbSetServed c s) := by
  unfold execTbSetServed
  refine runHeld_keeps K (sub rfl hA) ?_ ?_
  · intro _ _ hh
    refine tbSetServedEffect_keeps K (sub rfl hA) ?_
    assumption
  · assumption

theorem tbSetUtcEffect_keeps (K : Keeps P A) (hA : Sub 8 A) {c s} (h_s : P s) :
    P (tbSetUtcEffect c s).1 := by
  unfold tbSetUtcEffect
  extract_lets +onlyGivenNames -merge -underBinder d1 s2 s3
  try clear_value d1
  have hs2 : P s2 := by
    refine setF_k K 3 part_tbDUtcOffset (sub rfl hA) ?_
    assumption
  try clear_value s2
  have hs3 : P s3 := by
    refine setF_k K 3 part_tbDStatusLeap (sub rfl hA) ?_
    assumption
  try clear_value s3
  refine mk1_k ?_
  refine set64_k K 3 part_tbDLeapAt_2 (sub rfl hA) ?_
  assumption

theorem execTbSetUtc_keeps (K : Keeps P A) (hA : Sub 4620693225333587980 A) {c s} (h_s : P s) :
    Nx P (execTbSetUtc c s) := by
  unfold execTbSetUtc
  refine runCmd_keeps K (sub rfl hA) ?_ ?_
  · intro _ _ hh
    refine tbSetUtcEffect_keeps K (sub rfl hA) ?_
    assumption
  · assumption

theorem tbSnapshotEffect_keeps (K : Keeps P A) (hA : Sub 2684354569 A) {c s} (h_s : P s) :
    P (tbSnapshotEffect c s).1 := by
  unfold tbSnapshotEffect
  refine ite1_k ?_ ?_
  · extract_lets +onlyGivenNames -merge -underBinder x1 d2
    try clear_value x1
    try clear_value d2
    refine mk1_k ?_
    refine capture_keeps K (sub rfl hA) ?_
    · assumption
  · refine mk1_k ?_
    refine armSnap_keeps K (sub rfl hA) ?_
    · assumption

theorem execTbSnapshot_keeps (K : Keeps P A) (hA : Sub 4620693225870458893 A) {c s} (h_s : P s) :
    Nx P (execTbSnapshot c s) := by
  unfold execTbSnapshot
  refine runCmd_keeps K (sub rfl hA) ?_ ?_
  · intro _ _ hh
    refine tbSnapshotEffect_keeps K (sub rfl hA) ?_
    assumption
  · assumption

theorem tbSetCompactEffect_keeps (K : Keeps P A) (hA : Sub 34359738376 A) {c s} (h_s : P s) :
    P (tbSetCompactEffect c s).1 := by
  unfold tbSetCompactEffect
  extract_lets +onlyGivenNames -merge -underBinder old1 s2 keep3
  try clear_value old1
  have hs2 : P s2 := by
    refine setF_k K 3 part_tbStateCompact (sub rfl hA) ?_
    assumption
  try clear_value s2
  try clear_value keep3
  refine mk1_k ?_
  refine upd_tb K (sub rfl hA) ?_
  assumption

theorem execTbSetCompact_keeps (K : Keeps P A) (hA : Sub 4620693259693326348 A) {c s} (h_s : P s) :
    Nx P (execTbSetCompact c s) := by
  unfold execTbSetCompact
  refine runCmd_keeps K (sub rfl hA) ?_ ?_
  · intro _ _ hh
    refine tbSetCompactEffect_keeps K (sub rfl hA) ?_
    assumption
  · assumption

theorem execStepApply_keeps (K : Keeps P A) (hA : Sub 146338459375378441 A) {d s} (h_s : P s) :
    Nx P (execStepApply d s) := by
  unfold execStepApply
  refine next_k ?_
  refine ite_k ?_ ?_
  · refine applyStep_keeps K (sub rfl hA) ?_
    assumption
  · assumption

theorem execSegmentRenewal_keeps (K : Keeps P A) (hA : Sub 34359738376 A) {d s} (h_s : P s) :
    Nx P (execSegmentRenewal d s) := by
  unfold execSegmentRenewal
  refine iteN_k ?_ ?_
  · refine next_k ?_
    refine openSegment_keeps K (sub rfl hA) ?_
    · assumption
  · refine next_k ?_
    assumption

theorem execOutRephaseDone_keeps (K : Keeps P A) (hA : Sub 34359738376 A) {s} (h_s : P s) :
    Nx P (execOutRephaseDone s) := by
  unfold execOutRephaseDone
  split
  · refine next_k ?_
    assumption
  · refine iteN_k ?_ ?_
    · refine next_k ?_
      assumption
    · refine next_k ?_
      extract_lets +onlyGivenNames -merge -underBinder __src1
      have h__src1 : P __src1 := by
        refine setI64_k K 3 part_tbOutOffset_2 (sub rfl hA) ?_
        assumption
      try clear_value __src1
      refine upd_tb K (sub rfl hA) ?_
      assumption

theorem execTbOutAligned_keeps (K : Keeps P A) (hA : Sub 37044092929 A) {s} (h_s : P s) :
    Nx P (execTbOutAligned s) := by
  unfold execTbOutAligned
  extract_lets +onlyGivenNames -merge -underBinder left1
  try clear_value left1
  refine iteN_k ?_ ?_
  · refine next_k ?_
    refine raiseEv_keeps K (sub rfl hA) ?_
    · refine upd_tb K (sub rfl hA) ?_
      assumption
  · refine next_k ?_
    assumption

theorem execTbSlewDone_keeps (K : Keeps P A) (hA : Sub 37044092937 A) {d s} (h_s : P s) :
    Nx P (execTbSlewDone d s) := by
  unfold execTbSlewDone
  refine iteN_k ?_ ?_
  · extract_lets +onlyGivenNames -merge -underBinder total1 src2 s3 s4
    try clear_value total1
    try clear_value src2
    have hs3 : P s3 := by
      refine State.setDom_keeps K (sub rfl hA) ?_
      · assumption
    try clear_value s3
    have hs4 : P s4 := by
      refine ite_k ?_ ?_
      · assumption
      · refine setRate_keeps K (sub rfl hA) ?_
        · assumption
    try clear_value s4
    refine next_k ?_
    refine raiseEv_keeps K (sub rfl hA) ?_
    · assumption
  · refine next_k ?_
    assumption

theorem execTbLeap_keeps (K : Keeps P A) (hA : Sub 146334026969128969 A) {d s} (h_s : P s) :
    Nx P (execTbLeap d s) := by
  unfold execTbLeap
  extract_lets +onlyGivenNames -merge -underBinder l1
  try clear_value l1
  refine iteN_k ?_ ?_
  · extract_lets +onlyGivenNames -merge -underBinder o2 s3 s4 s5 s6
    try clear_value o2
    have hs3 : P s3 := by
      refine setI_k K 3 part_tbDUtcOffset (sub rfl hA) ?_
      assumption
    try clear_value s3
    have hs4 : P s4 := by
      refine setF_k K 3 part_tbDStatusLeap (sub rfl hA) ?_
      assumption
    try clear_value s4
    have hs5 : P s5 := by
      refine set64_k K 3 part_tbDLeapAt_2 (sub rfl hA) ?_
      assumption
    try clear_value s5
    have hs6 : P s6 := by
      refine raiseEv_keeps K (sub rfl hA) ?_
      · assumption
    try clear_value s6
    refine next_k ?_
    refine evdSend_keeps K (sub rfl hA) ?_
    · assumption
  · refine next_k ?_
    assumption

theorem execSnapArmedCapture_keeps (K : Keeps P A) (hA : Sub 2684354569 A) {src x s} (h_s : P s) :
    Nx P (execSnapArmedCapture src x s) := by
  unfold execSnapArmedCapture
  refine next_k ?_
  refine armedCapture_keeps K (sub rfl hA) ?_
  · assumption

theorem execPtmDialog_keeps (K : Keeps P A) (hA : Sub 2684354569 A) {master turn request s} (h_s : P s) :
    Nx P (execPtmDialog master turn request s) := by
  unfold execPtmDialog
  refine iteN_k ?_ ?_
  · refine next_k ?_
    assumption
  · extract_lets +onlyGivenNames -merge -underBinder s1 x2 s3 s4 s5 s6
    try clear_value s1
    have hx2 : P x2 := by
      refine upd_bus K (sub rfl hA) ?_
      assumption
    try clear_value x2
    try clear_value s3
    have hs4 : P s4 := by
      refine set64_k K 3 part_tbPtmHost_2 (sub rfl hA) ?_
      assumption
    try clear_value s4
    have hs5 : P s5 := by
      refine set96_k K 3 part_tbPtmT0_3 (sub rfl hA) ?_
      assumption
    try clear_value s5
    have hs6 : P s6 := by
      refine setB_k K 3 part_tbPtmCtrlValid (sub rfl hA) ?_
      assumption
    try clear_value s6
    extract_lets +onlyGivenNames -merge -underBinder s7
    have hs7 : P s7 := by
      refine addWrap_k K 3 part_tbPtmCtrlSeq (sub rfl hA) ?_
      assumption
    try clear_value s7
    refine next_k ?_
    refine armedCapture_keeps K (sub rfl hA) ?_
    assumption

end Sys2Proof.Machine
end

