-- ==== Sys2Proof/Laws/KeepStamps.lean ====
section
/-! SUPPORT. What the operations of Sys2Proof/Machine/Stamps.lean keep (Sys2Proof/Laws/Keeps.lean): the mask in each lemma names the parts
of the state that the operation can touch. -/

set_option Elab.async false

namespace Sys2Proof.Machine

variable {P : State → Prop} {A : Nat}

theorem part_recAddr {k : Nat} : regPart (recAddr k) = 22 := by
  unfold recAddr
  split_ifs <;> exact regPart_22 (by omega) (by omega)

theorem timedAdd_keeps (K : Keeps P A) (hA : Sub 68719476736 A) {a now v x s} (h_s : P s) :
    P (timedAdd a now v x s) := by
  unfold timedAdd
  extract_lets +onlyGivenNames -merge -underBinder t1
  try clear_value t1
  refine upd_timed K (sub rfl hA) ?_
  assumption

theorem timedApply_keeps (K : Keeps P A) (hA : Sub 68719476736 A) {a now s} (h_s : P s) :
    P (timedApply a now s).2 := by
  unfold timedApply
  split
  · refine mk2_k ?_
    assumption
  · extract_lets +onlyGivenNames -merge -underBinder due1 later2 base3
    try clear_value due1
    try clear_value later2
    try clear_value base3
    refine mk2_k ?_
    refine upd_timed K (sub rfl hA) ?_
    assumption

theorem State.setLane_keeps (K : Keeps P A) (hA : Sub 274877906944 A) {s n l} (h_s : P s) :
    P (State.setLane s n l) := by
  unfold State.setLane
  refine upd_lanes K (sub rfl hA) ?_
  assumption

theorem State.setCalRec_keeps (K : Keeps P A) (hA : Sub 549755813888 A) {s k r} (h_s : P s) :
    P (State.setCalRec s k r) := by
  unfold State.setCalRec
  refine upd_calRecs K (sub rfl hA) ?_
  assumption

theorem showRecTemp_keeps (K : Keeps P A) (hA : Sub 4194304 A) {k s} (h_s : P s) :
    P (showRecTemp k s) := by
  unfold showRecTemp
  refine ite_k ?_ ?_
  · assumption
  · extract_lets +onlyGivenNames -merge -underBinder i1
    try clear_value i1
    refine setI_k K 22 part_recAddr (sub rfl hA) ?_
    assumption

theorem showConstants_keeps (K : Keeps P A) (hA : Sub 4194816 A) {n s} (h_s : P s) :
    P (showConstants n s) := by
  unfold showConstants
  extract_lets +onlyGivenNames -merge -underBinder s1
  have hs1 : P s1 := by
    refine showRecTemp_keeps K (sub rfl hA) ?_
    · assumption
  try clear_value s1
  refine ite_k ?_ ?_
  · assumption
  · refine setI_k K 9 part_ptsATx (sub rfl hA) ?_
    refine setI_k K 9 part_ptsARx (sub rfl hA) ?_
    assumption

theorem stampStatus_keeps (K : Keeps P A) (hA : Sub 2684355073 A) {p s} (h_s : P s) :
    P (stampStatus p s) := by
  unfold stampStatus
  extract_lets +onlyGivenNames -merge -underBinder rc1 tc2 rv3 tv4 cause5 chg6 s7
  try clear_value rc1
  try clear_value tc2
  try clear_value rv3
  try clear_value tv4
  try clear_value cause5
  try clear_value chg6
  have hs7 : P s7 := by
    refine setF_k K 9 part_ptsStatusCause (sub rfl hA) ?_
    refine setB_k K 9 part_ptsStatusTxValid (sub rfl hA) ?_
    refine setB_k K 9 part_ptsStatusRxValid (sub rfl hA) ?_
    assumption
  try clear_value s7
  refine ite_k ?_ ?_
  · refine raiseEv_keeps K (sub rfl hA) ?_
    · assumption
  · assumption

theorem stampStatusAll_keeps (K : Keeps P A) (hA : Sub 2684355073 A) {s} (h_s : P s) :
    P (stampStatusAll s) := by
  unfold stampStatusAll
  refine foldl_k ?_ (fun s0 k0 hs0 => ?_)
  · assumption
  · refine ite_k ?_ ?_
    · assumption
    · refine stampStatus_keeps K (sub rfl hA) ?_
      · assumption

theorem setFifo_keeps (K : Keeps P A) (hA : Sub 137438953984 A) {k f s} (h_s : P s) :
    P (setFifo k f s) := by
  unfold setFifo
  extract_lets +onlyGivenNames -merge -underBinder p1 s2 h3 w4
  try clear_value p1
  have hs2 : P s2 := by
    refine upd_fifos K (sub rfl hA) ?_
    assumption
  try clear_value s2
  try clear_value h3
  try clear_value w4
  refine ite_k ?_ ?_
  · refine setF_k K 9 part_ptsRxfW3 (sub rfl hA) ?_
    refine setF_k K 9 part_ptsRxfW2 (sub rfl hA) ?_
    refine setF_k K 9 part_ptsRxfW1 (sub rfl hA) ?_
    refine setF_k K 9 part_ptsRxfW0 (sub rfl hA) ?_
    refine setF_k K 9 part_ptsRxfCtrlOcc (sub rfl hA) ?_
    assumption
  · refine setF_k K 9 part_ptsTxfW3 (sub rfl hA) ?_
    refine setF_k K 9 part_ptsTxfW2 (sub rfl hA) ?_
    refine setF_k K 9 part_ptsTxfW1 (sub rfl hA) ?_
    refine setF_k K 9 part_ptsTxfW0 (sub rfl hA) ?_
    refine setF_k K 9 part_ptsTxfCtrlOcc (sub rfl hA) ?_
    assumption

theorem fifoWrite_keeps (K : Keeps P A) (hA : Sub 140123308545 A) {k b s} (h_s : P s) :
    P (fifoWrite k b s) := by
  unfold fifoWrite
  extract_lets +onlyGivenNames -merge -underBinder f1 n2 s3
  try clear_value f1
  try clear_value n2
  have hs3 : P s3 := by
    refine setFifo_keeps K (sub rfl hA) ?_
    · assumption
  try clear_value s3
  refine ite_k ?_ ?_
  · refine raiseEv_keeps K (sub rfl hA) ?_
    · assumption
  · assumption

theorem fifoPut_keeps (K : Keeps P A) (hA : Sub 174483046913 A) {k i s} (h_s : P s) :
    P (fifoPut k i s) := by
  unfold fifoPut
  extract_lets +onlyGivenNames -merge -underBinder f1
  try clear_value f1
  refine ite_k ?_ ?_
  · extract_lets +onlyGivenNames -merge -underBinder ns2 s3
    try clear_value ns2
    have hs3 : P s3 := by
      refine ite_k ?_ ?_
      · refine noteBase_keeps K (sub rfl hA) ?_
        · refine fifoWrite_keeps K (sub rfl hA) ?_
          · assumption
      · assumption
    try clear_value s3
    refine fifoWrite_keeps K (sub rfl hA) ?_
    · assumption
  · extract_lets +onlyGivenNames -merge -underBinder lost4 s5 quiet6
    try clear_value lost4
    have hs5 : P s5 := by
      refine ite_k ?_ ?_
      · refine addSat_k K 9 part_ptsLostRx (sub rfl hA) ?_
        assumption
      · refine addSat_k K 9 part_ptsLostTx (sub rfl hA) ?_
        assumption
    try clear_value s5
    try clear_value quiet6
    refine ite_k ?_ ?_
    · refine raiseEv_keeps K (sub rfl hA) ?_
      · refine setFifo_keeps K (sub rfl hA) ?_
        · assumption
    · refine setFifo_keeps K (sub rfl hA) ?_
      · assumption

theorem fifoPop_keeps (K : Keeps P A) (hA : Sub 137438953984 A) {k n s} (h_s : P s) :
    P (fifoPop k n s) := by
  unfold fifoPop
  extract_lets +onlyGivenNames -merge -underBinder f1
  try clear_value f1
  refine setFifo_keeps K (sub rfl hA) ?_
  · assumption

theorem injectSent_keeps (K : Keeps P A) (hA : Sub 35459518431232 A) {n s} (h_s : P s) :
    P (injectSent n s) := by
  unfold injectSent
  refine ite_k ?_ ?_
  · assumption
  · refine foldl_k ?_ (fun s0 k0 hs0 => ?_)
    · assumption
    · refine ite_k ?_ ?_
      · assumption
      · extract_lets +onlyGivenNames -merge -underBinder d1 f2 bits3 flip4
        try clear_value d1
        have hf2 : P f2.2 := by
          refine State.draw_keeps K (sub rfl hA) ?_
          assumption
        try clear_value f2
        try clear_value bits3
        refine ite_k ?_ ?_
        · dsimp only [flip4]
          refine upd_sw K (sub rfl hA) ?_
          refine State.setLane_keeps K (sub rfl hA) ?_
          assumption
        · refine ite_k ?_ ?_
          · extract_lets +onlyGivenNames -merge -underBinder k5
            try clear_value k5
            refine ite_k ?_ ?_
            · dsimp only [flip4]
              refine upd_sw K (sub rfl hA) ?_
              assumption
            · assumption
          · assumption

end Sys2Proof.Machine
end

