-- ==== Sys2Proof/Laws/KeepTables.lean ====
section
/-! SUPPORT. What the operations of Sys2Proof/Machine/Tables.lean keep (Sys2Proof/Laws/Keeps.lean): the mask in each lemma names the parts
of the state that the operation can touch. -/

set_option Elab.async false

namespace Sys2Proof.Machine

variable {P : State → Prop} {A : Nat}

theorem showOcc_keeps (K : Keeps P A) (hA : Sub 4096 A) {s} (h_s : P s) :
    P (showOcc s) := by
  unfold showOcc
  refine setF_k K 12 part_ftStatusStashOcc (sub rfl hA) ?_
  refine setF_k K 12 part_ftOccB1 (sub rfl hA) ?_
  refine setF_k K 12 part_ftOccB0 (sub rfl hA) ?_
  assumption

theorem writeRegion_keeps (K : Keeps P A) (hA : Sub 144115188076380160 A) {w loc s} (h_s : P s) :
    P (writeRegion w loc s) := by
  unfold writeRegion
  refine foldl_k ?_ (fun s0 k0 hs0 => ?_)
  · assumption
  · refine mpWrite_keeps K (sub rfl hA) ?_
    · assumption

theorem ftPut_keeps (K : Keeps P A) (hA : Sub 144185556820561920 A) {loc e s} (h_s : P s) :
    P (ftPut loc e s) := by
  unfold ftPut
  refine showOcc_keeps K (sub rfl hA) ?_
  · refine writeRegion_keeps K (sub rfl hA) ?_
    · refine upd_ft K (sub rfl hA) ?_
      assumption

theorem ftDrop_keeps (K : Keeps P A) (hA : Sub 144185556820561920 A) {loc s} (h_s : P s) :
    P (ftDrop loc s) := by
  unfold ftDrop
  split
  · assumption
  · refine showOcc_keeps K (sub rfl hA) ?_
    · refine writeRegion_keeps K (sub rfl hA) ?_
      · refine upd_ft K (sub rfl hA) ?_
        assumption

theorem ftLookup_keeps (K : Keeps P A) (hA : Sub 145208127062290433 A) {key s} (h_s : P s) :
    P (ftLookup key s).2 := by
  unfold ftLookup
  extract_lets +onlyGivenNames -merge -underBinder bad1 s2
  try clear_value bad1
  have hs2 : P s2 := by
    refine ite_k ?_ ?_
    · assumption
    · refine showOcc_keeps K (sub rfl hA) ?_
      · refine foldl_k ?_ (fun s0 k0 hs0 => ?_)
        · assumption
        · refine mpRead_keeps K (sub rfl hA) ?_
          · assumption
  try clear_value s2
  refine mk2_k ?_
  assumption

theorem setHit_keeps (K : Keeps P A) (hA : Sub 145208126793850881 A) {loc s} (h_s : P s) :
    P (setHit loc s) := by
  unfold setHit
  split
  · assumption
  · refine ite_k ?_ ?_
    · assumption
    · refine mpPartial_keeps K (sub rfl hA) ?_
      · refine upd_ft K (sub rfl hA) ?_
        assumption

theorem showTail_keeps (K : Keeps P A) (hA : Sub 4096 A) {s} (h_s : P s) :
    P (showTail s) := by
  unfold showTail
  refine setF_k K 12 part_ftStatusTailOcc (sub rfl hA) ?_
  assumption

theorem noteMove_keeps (K : Keeps P A) (hA : Sub 70368744181760 A) {src dst key s} (h_s : P s) :
    P (noteMove src dst key s) := by
  unfold noteMove
  split
  · assumption
  · refine ite_k ?_ ?_
    · extract_lets +onlyGivenNames -merge -underBinder w'1
      try clear_value w'1
      refine showTail_keeps K (sub rfl hA) ?_
      · refine upd_ft K (sub rfl hA) ?_
        assumption
    · assumption

theorem ftMove_keeps (K : Keeps P A) (hA : Sub 144185556820561920 A) {src dst s} (h_s : P s) :
    P (ftMove src dst s) := by
  unfold ftMove
  split
  · assumption
  · refine noteMove_keeps K (sub rfl hA) ?_
    · refine ftDrop_keeps K (sub rfl hA) ?_
      · refine ftPut_keeps K (sub rfl hA) ?_
        · assumption

theorem ftMoves_keeps (K : Keeps P A) (hA : Sub 144185556820561920 A) {a aa1 aa2} (h_aa2 : P aa2) :
    P (ftMoves a aa1 aa2).2 := by
  induction a generalizing aa1 aa2 with
  | nil =>
    rw [ftMoves]
    try (conv => zeta)
    refine mk2_k ?_
    assumption
  | cons e l ih =>
    rw [ftMoves]
    try (conv => zeta)
    refine ih ?_
    refine ftMove_keeps K (sub rfl hA) ?_
    · assumption

theorem ftPlace_keeps (K : Keeps P A) (hA : Sub 144185556820561920 A) {key w s} (h_s : P s) :
    Ox (fun r : _ × (_ × State) => P r.2.2) (ftPlace key w s) := by
  unfold ftPlace
  extract_lets +onlyGivenNames -merge -underBinder b01 b12
  try clear_value b01
  try clear_value b12
  split
  · refine some_k ?_
    refine mk2_g (Q := fun r : _ × State => P r.2) ?_
    refine mk2_k ?_
    assumption
  · split
    · refine some_k ?_
      refine mk2_g (Q := fun r : _ × State => P r.2) ?_
      refine mk2_k ?_
      assumption
    · extract_lets +onlyGivenNames -merge -underBinder roots3
      try clear_value roots3
      split
      · extract_lets +onlyGivenNames -merge -underBinder r4
        have hr4 : P r4.2 := by
          refine ftMoves_keeps K (sub rfl hA) ?_
          · assumption
        try clear_value r4
        refine some_k ?_
        refine mk2_g (Q := fun r : _ × State => P r.2) ?_
        refine mk2_k ?_
        assumption
      · refine map_k (fun l0 => ?_)
        refine mk2_g (Q := fun r : _ × State => P r.2) ?_
        refine mk2_k ?_
        assumption

theorem stashReturn_keeps (K : Keeps P A) (hA : Sub 144185556820561920 A) {s} (h_s : P s) :
    P (stashReturn s) := by
  unfold stashReturn
  extract_lets +onlyGivenNames -merge -underBinder cand1
  try clear_value cand1
  split
  · refine ftMove_keeps K (sub rfl hA) ?_
    · assumption
  · assumption

theorem allocate_keeps (K : Keeps P A) (hA : Sub 268435456 A) {a aa1 aa2 aa3} (h_aa3 : P aa3) :
    P (allocate a aa1 aa2 aa3).2 := by
  induction a generalizing aa1 aa2 aa3 with
  | zero =>
    rw [allocate]
    try (conv => zeta)
    refine mk2_k ?_
    assumption
  | succ k ih =>
    rw [allocate]
    try (conv => zeta)
    refine mk2_k ?_
    refine ih ?_
    refine State.draw_keeps K (sub rfl hA) ?_
    · assumption

theorem writeCells_keeps (K : Keeps P A) (hA : Sub 144115188076380160 A) {mem per cells s} (h_s : P s) :
    P (writeCells mem per cells s) := by
  unfold writeCells
  refine ite_k ?_ ?_
  · assumption
  · refine foldl_k ?_ (fun s0 k0 hs0 => ?_)
    · assumption
    · refine foldl_k ?_ (fun s0 k0 hs0 => ?_)
      · assumption
      · refine mpWrite_keeps K (sub rfl hA) ?_
        · assumption

theorem showRoutes_keeps (K : Keeps P A) (hA : Sub 4096 A) {s} (h_s : P s) :
    P (showRoutes s) := by
  unfold showRoutes
  refine setF_k K 12 part_ftNhOcc (sub rfl hA) ?_
  refine setF_k K 12 part_ftRouteOcc (sub rfl hA) ?_
  assumption

theorem readWords_keeps (K : Keeps P A) (hA : Sub 145208127062286337 A) {mem addrs s} (h_s : P s) :
    P (readWords mem addrs s) := by
  unfold readWords
  refine ite_k ?_ ?_
  · assumption
  · refine foldl_k ?_ (fun s0 k0 hs0 => ?_)
    · assumption
    · refine mpRead_keeps K (sub rfl hA) ?_
      · assumption

theorem learnSecond_keeps (K : Keeps P A) (hA : Sub 70371428532225 A) {s} (h_s : P s) :
    P (learnSecond s) := by
  unfold learnSecond
  extract_lets +onlyGivenNames -merge -underBinder sec1
  try clear_value sec1
  refine ite_k ?_ ?_
  · assumption
  · extract_lets +onlyGivenNames -merge -underBinder n2 s3
    try clear_value n2
    try clear_value s3
    extract_lets +onlyGivenNames -merge -underBinder s4
    have hs4 : P s4 := by
      refine upd_ft K (sub rfl hA) ?_
      assumption
    try clear_value s4
    refine ite_k ?_ ?_
    · assumption
    · refine raiseEv_keeps K (sub rfl hA) ?_
      assumption

theorem learnDrop_keeps (K : Keeps P A) (hA : Sub 145208127062290433 A) {s} (h_s : P s) :
    P (learnDrop s) := by
  unfold learnDrop
  extract_lets +onlyGivenNames -merge -underBinder s1 s2
  have hs1 : P s1 := by
    refine count_keeps K (sub rfl hA) ?_
    refine set64_k K 12 part_ftLrnDrop_2 (sub rfl hA) ?_
    assumption
  try clear_value s1
  have hs2 : P s2 := by
    refine learnSecond_keeps K (sub rfl hA) ?_
    assumption
  try clear_value s2
  refine upd_ft K (sub rfl hA) ?_
  assumption

theorem learnRecord_keeps (K : Keeps P A) (hA : Sub 70372099624960 A) {mac vid kind src lag oldType gen oldDest s} (h_s : P s) :
    P (learnRecord mac vid kind src lag oldType gen oldDest s) := by
  unfold learnRecord
  extract_lets +onlyGivenNames -merge -underBinder dropped1 s'2 src3 s4
  try clear_value dropped1
  have hs'2 : P s'2 := by
    assumption
  try clear_value s'2
  try clear_value src3
  have hs4 : P s4 := by
    refine upd_ft K (sub rfl hA) ?_
    assumption
  try clear_value s4
  refine ringPut_k K 12 ring_learn (sub rfl hA) ?_
  assumption

theorem learnNotify_keeps (K : Keeps P A) (hA : Sub 145208128270249985 A) {kind src lag vid mac old s} (h_s : P s) :
    P (learnNotify kind src lag vid mac old s) := by
  unfold learnNotify
  extract_lets +onlyGivenNames -merge -underBinder us1 k2 held3
  try clear_value us1
  try clear_value k2
  try clear_value held3
  refine ite_k ?_ ?_
  · assumption
  · extract_lets +onlyGivenNames -merge -underBinder t4 src5 s6
    try clear_value t4
    try clear_value src5
    have hs6 : P s6 := by
      refine upd_ft K (sub rfl hA) ?_
      assumption
    try clear_value s6
    refine ite_k ?_ ?_
    · refine learnDrop_keeps K (sub rfl hA) ?_
      · assumption
    · extract_lets +onlyGivenNames -merge -underBinder f7 f8 src9 s10
      try clear_value f7
      try clear_value f8
      try clear_value src9
      have hs10 : P s10 := by
        refine upd_ft K (sub rfl hA) ?_
        assumption
      try clear_value s10
      refine count_keeps K (sub rfl hA) ?_
      · refine learnRecord_keeps K (sub rfl hA) ?_
        · assumption

theorem agerOn_keeps (K : Keeps P A) (hA : Sub 70368744177664 A) {s} (h_s : P s) :
    P (agerOn s) := by
  unfold agerOn
  refine ite_k ?_ ?_
  · refine upd_ft K (sub rfl hA) ?_
    assumption
  · refine upd_ft K (sub rfl hA) ?_
    assumption

theorem execAgerVisit_keeps (K : Keeps P A) (hA : Sub 145208128270249985 A) {slot s} (h_s : P s) :
    Nx P (execAgerVisit slot s) := by
  unfold execAgerVisit
  refine iteN_k ?_ ?_
  · refine next_k ?_
    assumption
  · extract_lets +onlyGivenNames -merge -underBinder s1 s2 loc3
    have hs1 : P s1 := by
      refine agerOn_keeps K (sub rfl hA) ?_
      assumption
    try clear_value s1
    have hs2 : P s2 := by
      refine mpRead_keeps K (sub rfl hA) ?_
      refine mpRead_keeps K (sub rfl hA) ?_
      assumption
    try clear_value s2
    try clear_value loc3
    split
    · refine next_k ?_
      assumption
    · refine iteN_k ?_ ?_
      · refine next_k ?_
        assumption
      · refine iteN_k ?_ ?_
        · refine next_k ?_
          refine mpPartial_keeps K (sub rfl hA) ?_
          refine upd_ft K (sub rfl hA) ?_
          assumption
        · extract_lets +onlyGivenNames -merge -underBinder s4
          have hs4 : P s4 := by
            refine count_keeps K (sub rfl hA) ?_
            refine ftDrop_keeps K (sub rfl hA) ?_
            assumption
          try clear_value s4
          refine iteN_k ?_ ?_
          · refine next_k ?_
            assumption
          · refine iteN_k ?_ ?_
            · refine next_k ?_
              refine learnRecord_keeps K (sub rfl hA) ?_
              assumption
            · refine next_k ?_
              refine learnDrop_keeps K (sub rfl hA) ?_
              assumption

theorem walkReads_keeps (K : Keeps P A) (hA : Sub 145208127062290433 A) {a b s} (h_s : P s) :
    P (walkReads a b s) := by
  unfold walkReads
  extract_lets +onlyGivenNames -merge -underBinder bad1
  try clear_value bad1
  refine ite_k ?_ ?_
  · assumption
  · refine showOcc_keeps K (sub rfl hA) ?_
    · refine foldl_k ?_ (fun s0 k0 hs0 => ?_)
      · assumption
      · refine mpRead_keeps K (sub rfl hA) ?_
        · assumption

theorem ftInsertEffect_keeps (K : Keeps P A) (hA : Sub 145208127062290433 A) {c s} (h_s : P s) :
    P (ftInsertEffect c s).1 := by
  unfold ftInsertEffect
  extract_lets +onlyGivenNames -merge -underBinder key1 e2 r3
  try clear_value key1
  try clear_value e2
  have hr3 : P r3.2 := by
    refine ftLookup_keeps K (sub rfl hA) ?_
    assumption
  try clear_value r3
  split
  · refine ite1_k ?_ ?_
    · refine mk1_k ?_
      assumption
    · refine mk1_k ?_
      refine ftPut_keeps K (sub rfl hA) ?_
      assumption
  · split
    · rename_i hq
      have hd4 := keep_of (Q := fun r : Option _ => Ox (fun r : _ × (_ × State) => P r.2.2) r) hq (by
          refine ftPlace_keeps K (sub rfl hA) ?_
          assumption)
      try (have hd4x := hd4 _ rfl)
      refine mk1_k ?_
      refine ftPut_keeps K (sub rfl hA) ?_
      assumption
    · rename_i hq
      have hd5 := keep_of (Q := fun r : Option _ => Ox (fun r : _ × (_ × State) => P r.2.2) r) hq (by
          refine ftPlace_keeps K (sub rfl hA) ?_
          assumption)
      try (have hd5x := hd5 _ rfl)
      refine mk1_k ?_
      assumption

theorem execFtInsert_keeps (K : Keeps P A) (hA : Sub 4765901345953427461 A) {c s} (h_s : P s) :
    Nx P (execFtInsert c s) := by
  unfold execFtInsert
  refine runCmd_keeps K (sub rfl hA) ?_ ?_
  · intro _ _ hh
    refine ftInsertEffect_keeps K (sub rfl hA) ?_
    assumption
  · assumption

theorem ftDeleteEffect_keeps (K : Keeps P A) (hA : Sub 145208127062290433 A) {c s} (h_s : P s) :
    P (ftDeleteEffect c s).1 := by
  unfold ftDeleteEffect
  extract_lets +onlyGivenNames -merge -underBinder r1
  have hr1 : P r1.2 := by
    refine ftLookup_keeps K (sub rfl hA) ?_
    · assumption
  try clear_value r1
  split
  · refine mk1_k ?_
    assumption
  · refine mk1_k ?_
    refine stashReturn_keeps K (sub rfl hA) ?_
    · refine ftDrop_keeps K (sub rfl hA) ?_
      · assumption

theorem execFtDelete_keeps (K : Keeps P A) (hA : Sub 4765901345953427461 A) {c s} (h_s : P s) :
    Nx P (execFtDelete c s) := by
  unfold execFtDelete
  refine runCmd_keeps K (sub rfl hA) ?_ ?_
  · intro _ _ hh
    refine ftDeleteEffect_keeps K (sub rfl hA) ?_
    assumption
  · assumption

theorem ftSearchEffect_keeps (K : Keeps P A) (hA : Sub 145208127062290433 A) {c s} (h_s : P s) :
    P (ftSearchEffect c s).1 := by
  unfold ftSearchEffect
  extract_lets +onlyGivenNames -merge -underBinder r1
  have hr1 : P r1.2 := by
    refine ftLookup_keeps K (sub rfl hA) ?_
    · assumption
  try clear_value r1
  split
  · refine mk1_k ?_
    assumption
  · refine mk1_k ?_
    assumption

theorem execFtSearch_keeps (K : Keeps P A) (hA : Sub 4765901345953427461 A) {c s} (h_s : P s) :
    Nx P (execFtSearch c s) := by
  unfold execFtSearch
  refine runCmd_keeps K (sub rfl hA) ?_ ?_
  · intro _ _ hh
    refine ftSearchEffect_keeps K (sub rfl hA) ?_
    assumption
  · assumption

theorem ftWalkOpenEffect_keeps (K : Keeps P A) (hA : Sub 70368744181760 A) {c s} (h_s : P s) :
    P (ftWalkOpenEffect c s).1 := by
  unfold ftWalkOpenEffect
  refine mk1_k ?_
  refine showTail_keeps K (sub rfl hA) ?_
  · refine setF_k K 12 part_ftStatusWalker (sub rfl hA) ?_
    refine upd_ft K (sub rfl hA) ?_
    assumption

theorem execFtWalkOpen_keeps (K : Keeps P A) (hA : Sub 4620763594077769732 A) {c s} (h_s : P s) :
    Nx P (execFtWalkOpen c s) := by
  unfold execFtWalkOpen
  refine runCmd_keeps K (sub rfl hA) ?_ ?_
  · intro _ _ hh
    refine ftWalkOpenEffect_keeps K (sub rfl hA) ?_
    assumption
  · assumption

theorem closeWalk_keeps (K : Keeps P A) (hA : Sub 70368744181760 A) {s} (h_s : P s) :
    P (closeWalk s) := by
  unfold closeWalk
  refine showTail_keeps K (sub rfl hA) ?_
  · refine setF_k K 12 part_ftStatusWalker (sub rfl hA) ?_
    refine upd_ft K (sub rfl hA) ?_
    assumption

theorem walkNextStep_keeps (K : Keeps P A) (hA : Sub 145208127062290433 A) {o s} (h_s : P s) :
    P (walkNextStep o s).1 := by
  unfold walkNextStep
  split
  · refine mk1_k ?_
    assumption
  · extract_lets +onlyGivenNames -merge -underBinder mx1
    try clear_value mx1
    refine ite1_k ?_ ?_
    · refine mk1_k ?_
      refine upd_ft K (sub rfl hA) ?_
      assumption
    · extract_lets +onlyGivenNames -merge -underBinder room2 s3 es4 a5 recs6 t7 cur8 fin9 fs10 src11 s12
      try clear_value room2
      have hs3 : P s3 := by
        refine walkReads_keeps K (sub rfl hA) ?_
        · assumption
      try clear_value s3
      try clear_value es4
      try clear_value a5
      try clear_value recs6
      try clear_value t7
      try clear_value cur8
      try clear_value fin9
      try clear_value fs10
      try clear_value src11
      have hs12 : P s12 := by
        refine ite_k ?_ ?_
        · refine closeWalk_keeps K (sub rfl hA) ?_
          · assumption
        · refine upd_ft K (sub rfl hA) ?_
          assumption
      try clear_value s12
      refine mk1_k ?_
      assumption

theorem execFtWalkNext_keeps (K : Keeps P A) (hA : Sub 4765901345953427461 A) {c s} (h_s : P s) :
    Nx P (execFtWalkNext c s) := by
  unfold execFtWalkNext
  refine runStepped_keeps K (sub rfl hA) ?_ ?_
  · intro _ _ hh
    refine walkNextStep_keeps K (sub rfl hA) ?_
    assumption
  · assumption

theorem ftWalkCloseEffect_keeps (K : Keeps P A) (hA : Sub 70368744181760 A) {x s} (h_s : P s) :
    P (ftWalkCloseEffect x s).1 := by
  unfold ftWalkCloseEffect
  refine mk1_k ?_
  refine closeWalk_keeps K (sub rfl hA) ?_
  · assumption

theorem execFtWalkClose_keeps (K : Keeps P A) (hA : Sub 4620763594077769732 A) {c s} (h_s : P s) :
    Nx P (execFtWalkClose c s) := by
  unfold execFtWalkClose
  refine runCmd_keeps K (sub rfl hA) ?_ ?_
  · intro _ _ hh
    refine ftWalkCloseEffect_keeps K (sub rfl hA) ?_
    assumption
  · assumption

theorem execFtWalkTimeout_keeps (K : Keeps P A) (hA : Sub 70371428536321 A) {s} (h_s : P s) :
    Nx P (execFtWalkTimeout s) := by
  unfold execFtWalkTimeout
  split
  · refine next_k ?_
    assumption
  · refine iteN_k ?_ ?_
    · refine next_k ?_
      refine raiseEv_keeps K (sub rfl hA) ?_
      · refine closeWalk_keeps K (sub rfl hA) ?_
        · assumption
    · refine next_k ?_
      assumption

theorem flushStep_keeps (K : Keeps P A) (hA : Sub 145208127062290433 A) {o s} (h_s : P s) :
    P (flushStep o s).1 := by
  unfold flushStep
  extract_lets +onlyGivenNames -merge -underBinder a1 b2 s3 out4 s5 o6
  try clear_value a1
  try clear_value b2
  have hs3 : P s3 := by
    refine walkReads_keeps K (sub rfl hA) ?_
    · refine setF_k K 12 part_ftStatusWalker (sub rfl hA) ?_
      assumption
  try clear_value s3
  try clear_value out4
  have hs5 : P s5 := by
    refine foldl_k ?_ (fun s0 k0 hs0 => ?_)
    · assumption
    · refine ftDrop_keeps K (sub rfl hA) ?_
      · assumption
  try clear_value s5
  try clear_value o6
  refine ite1_k ?_ ?_
  · refine mk1_k ?_
    refine setF_k K 12 part_ftStatusWalker (sub rfl hA) ?_
    assumption
  · refine mk1_k ?_
    assumption

theorem execFtFlushPort_keeps (K : Keeps P A) (hA : Sub 4765901345953427461 A) {c s} (h_s : P s) :
    Nx P (execFtFlushPort c s) := by
  unfold execFtFlushPort
  refine runStepped_keeps K (sub rfl hA) ?_ ?_
  · intro _ _ hh
    refine flushStep_keeps K (sub rfl hA) ?_
    assumption
  · assumption

theorem digestStep_keeps (K : Keeps P A) (hA : Sub 145208127062290433 A) {o s} (h_s : P s) :
    P (digestStep o s).1 := by
  unfold digestStep
  extract_lets +onlyGivenNames -merge -underBinder f1 pb2 w3 a4 b5 s6 es7 w8
  try clear_value f1
  try clear_value pb2
  try clear_value w3
  try clear_value a4
  try clear_value b5
  have hs6 : P s6 := by
    refine walkReads_keeps K (sub rfl hA) ?_
    · refine setF_k K 12 part_ftStatusWalker (sub rfl hA) ?_
      assumption
  try clear_value s6
  try clear_value es7
  try clear_value w8
  refine ite1_k ?_ ?_
  · extract_lets +onlyGivenNames -merge -underBinder w9 w10 ps11 cnt12 sum13
    try clear_value w9
    try clear_value w10
    try clear_value ps11
    try clear_value cnt12
    try clear_value sum13
    refine mk1_k ?_
    refine setF_k K 12 part_ftStatusWalker (sub rfl hA) ?_
    assumption
  · refine mk1_k ?_
    assumption

theorem execFtDigest_keeps (K : Keeps P A) (hA : Sub 4765901345953427461 A) {c s} (h_s : P s) :
    Nx P (execFtDigest c s) := by
  unfold execFtDigest
  refine runStepped_keeps K (sub rfl hA) ?_ ?_
  · intro _ _ hh
    refine digestStep_keeps K (sub rfl hA) ?_
    assumption
  · assumption

theorem ftSetAgingEffect_keeps (K : Keeps P A) (hA : Sub 70368744181760 A) {c s} (h_s : P s) :
    P (ftSetAgingEffect c s).1 := by
  unfold ftSetAgingEffect
  extract_lets +onlyGivenNames -merge -underBinder s1
  try clear_value s1
  extract_lets +onlyGivenNames -merge -underBinder s2
  have hs2 : P s2 := by
    refine ite_k ?_ ?_
    · refine upd_ft K (sub rfl hA) ?_
      assumption
    · assumption
  try clear_value s2
  refine mk1_k ?_
  refine setB_k K 12 part_ftAgeStatusNotify (sub rfl hA) ?_
  refine setB_k K 12 part_ftAgeStatusEn (sub rfl hA) ?_
  refine setF_k K 12 part_ftAgeStatusPeriodS (sub rfl hA) ?_
  assumption

theorem execFtSetAging_keeps (K : Keeps P A) (hA : Sub 4620763594077769732 A) {c s} (h_s : P s) :
    Nx P (execFtSetAging c s) := by
  unfold execFtSetAging
  refine runCmd_keeps K (sub rfl hA) ?_ ?_
  · intro _ _ hh
    refine ftSetAgingEffect_keeps K (sub rfl hA) ?_
    assumption
  · assumption

theorem ftLearnConfigEffect_keeps (K : Keeps P A) (hA : Sub 70368744181760 A) {c s} (h_s : P s) :
    P (ftLearnConfigEffect c s).1 := by
  unfold ftLearnConfigEffect
  extract_lets +onlyGivenNames -merge -underBinder src1 s2
  try clear_value src1
  have hs2 : P s2 := by
    refine upd_ft K (sub rfl hA) ?_
    assumption
  try clear_value s2
  refine mk1_k ?_
  refine setB_k K 12 part_ftLrnStatusStaticMove (sub rfl hA) ?_
  refine setB_k K 12 part_ftLrnStatusMove (sub rfl hA) ?_
  refine setF_k K 12 part_ftLrnCoalCoalesceUs (sub rfl hA) ?_
  refine setF_k K 12 part_ftLrnStatusRate (sub rfl hA) ?_
  assumption

theorem execFtLearnConfig_keeps (K : Keeps P A) (hA : Sub 4620763594077769732 A) {c s} (h_s : P s) :
    Nx P (execFtLearnConfig c s) := by
  unfold execFtLearnConfig
  refine runCmd_keeps K (sub rfl hA) ?_ ?_
  · intro _ _ hh
    refine ftLearnConfigEffect_keeps K (sub rfl hA) ?_
    assumption
  · assumption

theorem writeUnits_keeps (K : Keeps P A) (hA : Sub 144115188076380160 A) {mem us s} (h_s : P s) :
    P (writeUnits mem us s) := by
  unfold writeUnits
  refine foldl_k ?_ (fun s0 k0 hs0 => ?_)
  · assumption
  · refine mpWrite_keeps K (sub rfl hA) ?_
    · refine mpWrite_keeps K (sub rfl hA) ?_
      · assumption

theorem ftRouteWriteEffect_keeps (K : Keeps P A) (hA : Sub 144185557088997376 A) {c s} (h_s : P s) :
    P (ftRouteWriteEffect c s).1 := by
  unfold ftRouteWriteEffect
  refine ite1_k ?_ ?_
  · extract_lets +onlyGivenNames -merge -underBinder i1 n2
    try clear_value i1
    try clear_value n2
    refine mk1_k ?_
    refine showRoutes_keeps K (sub rfl hA) ?_
    · refine writeUnits_keeps K (sub rfl hA) ?_
      · refine upd_ft K (sub rfl hA) ?_
        assumption
  · extract_lets +onlyGivenNames -merge -underBinder key3 old4 used5 a6 r7 s8
    try clear_value key3
    try clear_value old4
    try clear_value used5
    have ha6 : P a6.2 := by
      try unfold a6
      split
      · refine mk2_k ?_
        assumption
      · refine allocate_keeps K (sub rfl hA) ?_
        · assumption
    try clear_value a6
    try clear_value r7
    have hs8 : P s8 := by
      assumption
    try clear_value s8
    refine mk1_k ?_
    refine showRoutes_keeps K (sub rfl hA) ?_
    · refine writeUnits_keeps K (sub rfl hA) ?_
      · refine upd_ft K (sub rfl hA) ?_
        assumption

theorem execFtRouteWrite_keeps (K : Keeps P A) (hA : Sub 4764878782422585348 A) {c s} (h_s : P s) :
    Nx P (execFtRouteWrite c s) := by
  unfold execFtRouteWrite
  refine runCmd_keeps K (sub rfl hA) ?_ ?_
  · intro _ _ hh
    refine ftRouteWriteEffect_keeps K (sub rfl hA) ?_
    assumption
  · assumption

theorem ftRouteDeleteEffect_keeps (K : Keeps P A) (hA : Sub 144185556820561920 A) {c s} (h_s : P s) :
    P (ftRouteDeleteEffect c s).1 := by
  unfold ftRouteDeleteEffect
  refine ite1_k ?_ ?_
  · extract_lets +onlyGivenNames -merge -underBinder i1
    try clear_value i1
    refine mk1_k ?_
    refine showRoutes_keeps K (sub rfl hA) ?_
    · refine writeUnits_keeps K (sub rfl hA) ?_
      · refine upd_ft K (sub rfl hA) ?_
        assumption
  · extract_lets +onlyGivenNames -merge -underBinder key2 us3
    try clear_value key2
    try clear_value us3
    refine mk1_k ?_
    refine showRoutes_keeps K (sub rfl hA) ?_
    · refine writeUnits_keeps K (sub rfl hA) ?_
      · refine upd_ft K (sub rfl hA) ?_
        assumption

theorem execFtRouteDelete_keeps (K : Keeps P A) (hA : Sub 4764878782154149892 A) {c s} (h_s : P s) :
    Nx P (execFtRouteDelete c s) := by
  unfold execFtRouteDelete
  refine runCmd_keeps K (sub rfl hA) ?_ ?_
  · intro _ _ hh
    refine ftRouteDeleteEffect_keeps K (sub rfl hA) ?_
    assumption
  · assumption

end Sys2Proof.Machine
end

