-- ==== Sys2Proof/Laws/KeepEgress.lean ====
section
/-! SUPPORT. What the operations of Sys2Proof/Machine/Egress.lean keep (Sys2Proof/Laws/Keeps.lean): the mask in each lemma names the parts
of the state that the operation can touch. -/

set_option Elab.async false

namespace Sys2Proof.Machine

variable {P : State → Prop} {A : Nat}

theorem State.setPoolFrame_keeps (K : Keeps P A) (hA : Sub 140737488355328 A) {s k f} (h_s : P s) :
    P (State.setPoolFrame s k f) := by
  unfold State.setPoolFrame
  refine upd_bf K (sub rfl hA) ?_
  assumption

theorem State.setBq_keeps (K : Keeps P A) (hA : Sub 140737488355328 A) {s k q} (h_s : P s) :
    P (State.setBq s k q) := by
  unfold State.setBq
  refine upd_bf K (sub rfl hA) ?_
  assumption

theorem syncPool_keeps (K : Keeps P A) (hA : Sub 140740172718081 A) {s} (h_s : P s) :
    P (syncPool s) := by
  unfold syncPool
  extract_lets +onlyGivenNames -merge -underBinder f1 s2
  try clear_value f1
  have hs2 : P s2 := by
    refine setF_k K 13 part_bfPoolFreeF (sub rfl hA) ?_
    assumption
  try clear_value s2
  refine ite_k ?_ ?_
  · assumption
  · refine ite_k ?_ ?_
    · refine raiseEv_keeps K (sub rfl hA) ?_
      · refine upd_bf K (sub rfl hA) ?_
        assumption
    · refine ite_k ?_ ?_
      · refine upd_bf K (sub rfl hA) ?_
        assumption
      · assumption

theorem showMark_keeps (K : Keeps P A) (hA : Sub 8192 A) {k s} (h_s : P s) :
    P (showMark k s) := by
  unfold showMark
  refine setB_k K 13 part_bfQStatusMarking (sub rfl hA) ?_
  assumption

theorem addOcc_keeps (K : Keeps P A) (hA : Sub 8192 A) {k d s} (h_s : P s) :
    P (addOcc k d s) := by
  unfold addOcc
  refine showMark_keeps K (sub rfl hA) ?_
  · refine setF_k K 13 part_bfQStatusOcc (sub rfl hA) ?_
    assumption

theorem addDocc_keeps (K : Keeps P A) (hA : Sub 8192 A) {k d s} (h_s : P s) :
    P (addDocc k d s) := by
  unfold addDocc
  refine showMark_keeps K (sub rfl hA) ?_
  · refine set64_k K 13 part_bfSpillUsed_2 (sub rfl hA) ?_
    refine setF_k K 13 part_bfQDocc (sub rfl hA) ?_
    assumption

theorem joinQueue_keeps (K : Keeps P A) (hA : Sub 145208127062286337 A) {k n len c before s} (h_before : P before) (h_s : P s) :
    P (joinQueue k n len c before s) := by
  unfold joinQueue
  split
  · assumption
  · extract_lets +onlyGivenNames -merge -underBinder spilled1 m2 f3 q4 s5 s6 s7
    try clear_value spilled1
    try clear_value m2
    try clear_value f3
    try clear_value q4
    have hs5 : P s5 := by
      refine State.setBq_keeps K (sub rfl hA) ?_
      · refine State.setPoolFrame_keeps K (sub rfl hA) ?_
        · assumption
    try clear_value s5
    have hs6 : P s6 := by
      refine count_keeps K (sub rfl hA) ?_
      · refine count_keeps K (sub rfl hA) ?_
        · assumption
    try clear_value s6
    have hs7 : P s7 := by
      refine ite_k ?_ ?_
      · refine count_keeps K (sub rfl hA) ?_
        · assumption
      · assumption
    try clear_value s7
    refine ite_k ?_ ?_
    · extract_lets +onlyGivenNames -merge -underBinder src8 src9 s10
      have hsrc8 : P src8 := by
        refine setB_k K 13 part_bfQStatusSpilling (sub rfl hA) ?_
        assumption
      try clear_value src8
      try clear_value src9
      have hs10 : P s10 := by
        refine upd_bf K (sub rfl hA) ?_
        assumption
      try clear_value s10
      refine setB_k K 13 part_bfSpillStatusStageFull (sub rfl hA) ?_
      assumption
    · refine addOcc_keeps K (sub rfl hA) ?_
      · assumption

theorem endCopy_keeps (K : Keeps P A) (hA : Sub 140740172718081 A) {k c s} (h_s : P s) :
    P (endCopy k c s) := by
  unfold endCopy
  split
  · assumption
  · extract_lets +onlyGivenNames -merge -underBinder src1 s2 s3
    try clear_value src1
    have hs2 : P s2 := by
      refine upd_bf K (sub rfl hA) ?_
      assumption
    try clear_value s2
    have hs3 : P s3 := by
      refine ite_k ?_ ?_
      · refine addOcc_keeps K (sub rfl hA) ?_
        · assumption
      · refine ite_k ?_ ?_
        · refine setB_k K 13 part_bfSpillStatusStageFull (sub rfl hA) ?_
          assumption
        · refine addDocc_keeps K (sub rfl hA) ?_
          · assumption
    try clear_value s3
    refine ite_k ?_ ?_
    · refine syncPool_keeps K (sub rfl hA) ?_
      · refine State.setPoolFrame_keeps K (sub rfl hA) ?_
        · assumption
    · refine State.setPoolFrame_keeps K (sub rfl hA) ?_
      · assumption

theorem removeCopy_keeps (K : Keeps P A) (hA : Sub 140737488363520 A) {k c s} (h_s : P s) :
    P (removeCopy k c s) := by
  unfold removeCopy
  extract_lets +onlyGivenNames -merge -underBinder q1 r2 s3
  try clear_value q1
  try clear_value r2
  have hs3 : P s3 := by
    refine State.setBq_keeps K (sub rfl hA) ?_
    · assumption
  try clear_value s3
  refine ite_k ?_ ?_
  · assumption
  · refine setB_k K 13 part_bfQStatusSpilling (sub rfl hA) ?_
    assumption

theorem discardCopy_keeps (K : Keeps P A) (hA : Sub 145208127062286337 A) {k off c s} (h_s : P s) :
    P (discardCopy k off c s) := by
  unfold discardCopy
  refine count_keeps K (sub rfl hA) ?_
  · refine endCopy_keeps K (sub rfl hA) ?_
    · refine removeCopy_keeps K (sub rfl hA) ?_
      · assumption

theorem flushEgress_keeps (K : Keeps P A) (hA : Sub 145208127062286337 A) {n s} (h_s : P s) :
    P (flushEgress n s).2 := by
  unfold flushEgress
  refine foldl_g (Q := fun r : _ × State => P r.2) ?_ (fun s0 k0 hs0 => ?_)
  · refine mk2_k ?_
    assumption
  · extract_lets +onlyGivenNames -merge -underBinder k1
    try clear_value k1
    refine foldl_g (Q := fun r : _ × State => P r.2) ?_ (fun s0 k0 hs0 => ?_)
    · assumption
    · refine mk2_k ?_
      refine discardCopy_keeps K (sub rfl hA) ?_
      · assumption

theorem takeTokens_keeps (K : Keeps P A) (hA : Sub 140737488355328 A) {k len s} (h_s : P s) :
    P (takeTokens k len s) := by
  unfold takeTokens
  refine ite_k ?_ ?_
  · assumption
  · refine upd_bf K (sub rfl hA) ?_
    assumption

end Sys2Proof.Machine
end

