-- ==== Sys2Proof/Laws/KeepEvidence.lean ====
section
/-! SUPPORT. What the operations of Sys2Proof/Machine/Evidence.lean keep (Sys2Proof/Laws/Keeps.lean): the mask in each lemma names the parts
of the state that the operation can touch. -/

set_option Elab.async false

namespace Sys2Proof.Machine

variable {P : State → Prop} {A : Nat}

theorem State.setNetRing_keeps (K : Keeps P A) (hA : Sub 2251799813685248 A) {s n r} (h_s : P s) :
    P (State.setNetRing s n r) := by
  unfold State.setNetRing
  refine upd_netRings K (sub rfl hA) ?_
  assumption

theorem nrSignal_keeps (K : Keeps P A) (hA : Sub 3221225472 A) {n s} (h_s : P s) :
    P (nrSignal n s) := by
  unfold nrSignal
  extract_lets +onlyGivenNames -merge -underBinder r1 d2 met3
  try clear_value r1
  try clear_value d2
  try clear_value met3
  refine ite_k ?_ ?_
  · refine State.signalVector_keeps K (sub rfl hA) ?_
    · refine State.setRing_keeps K (sub rfl hA) ?_
      · assumption
  · assumption

theorem nrPut_keeps (K : Keeps P A) (hA : Sub 134348800 A) {n e s} (h_s : P s) :
    P (nrPut n e s) := by
  unfold nrPut
  extract_lets +onlyGivenNames -merge -underBinder ix1 s2 nx3 s4
  try clear_value ix1
  have hs2 : P s2 := by
    refine State.dma_keeps K (sub rfl hA) ?_
    · assumption
  try clear_value s2
  try clear_value nx3
  have hs4 : P s4 := by
    refine setF_k K 17 part_capNrProdIndex (sub rfl hA) ?_
    assumption
  try clear_value s4
  refine ite_k ?_ ?_
  · refine setB_k K 17 part_capNrProdPhase (sub rfl hA) ?_
    assumption
  · assumption

theorem nrItem_keeps (K : Keeps P A) (hA : Sub 147459928084062209 A) {n head conts s} (h_s : P s) :
    P (nrItem n head conts s) := by
  unfold nrItem
  refine ite_k ?_ ?_
  · assumption
  · refine ite_k ?_ ?_
    · extract_lets +onlyGivenNames -merge -underBinder s1 v2 s3
      have hs1 : P s1 := by
        refine count_keeps K (sub rfl hA) ?_
        refine addSat_k K 17 part_capNrDrop (sub rfl hA) ?_
        assumption
      try clear_value s1
      try clear_value v2
      try clear_value s3
      extract_lets +onlyGivenNames -merge -underBinder s4
      have hs4 : P s4 := by
        refine State.setNetRing_keeps K (sub rfl hA) ?_
        assumption
      try clear_value s4
      refine ite_k ?_ ?_
      · refine raiseEv_keeps K (sub rfl hA) ?_
        assumption
      · assumption
    · extract_lets +onlyGivenNames -merge -underBinder r5 hd6 ph7 s8 s9 s10 s11 d12 s13
      try clear_value r5
      try clear_value hd6
      try clear_value ph7
      have hs8 : P s8 := by
        refine nrPut_keeps K (sub rfl hA) ?_
        assumption
      try clear_value s8
      have hs9 : P s9 := by
        refine foldl_k ?_ (fun s0 k0 hs0 => ?_)
        · assumption
        · refine nrPut_keeps K (sub rfl hA) ?_
          assumption
      try clear_value s9
      have hs10 : P s10 := by
        refine State.dma_keeps K (sub rfl hA) ?_
        assumption
      try clear_value s10
      have hs11 : P s11 := by
        refine State.setNetRing_keeps K (sub rfl hA) ?_
        assumption
      try clear_value s11
      try clear_value d12
      have hs13 : P s13 := by
        refine State.setRing_keeps K (sub rfl hA) ?_
        assumption
      try clear_value s13
      refine nrSignal_keeps K (sub rfl hA) ?_
      refine count_keeps K (sub rfl hA) ?_
      assumption

theorem nrBase_keeps (K : Keeps P A) (hA : Sub 147459962443800577 A) {n ns s} (h_s : P s) :
    P (nrBase n ns s) := by
  unfold nrBase
  refine ite_k ?_ ?_
  · extract_lets +onlyGivenNames -merge -underBinder s'1
    have hs'1 : P s'1 := by
      assumption
    try clear_value s'1
    refine noteBase_keeps K (sub rfl hA) ?_
    · refine nrItem_keeps K (sub rfl hA) ?_
      · assumption
  · assumption

theorem capWrite_keeps (K : Keeps P A) (hA : Sub 147459962443800577 A) {n trunc conts ev i s} (h_s : P s) :
    P (capWrite n trunc conts ev i s) := by
  unfold capWrite
  refine nrItem_keeps K (sub rfl hA) ?_
  · refine nrBase_keeps K (sub rfl hA) ?_
    · assumption

theorem State.setSelector_keeps (K : Keeps P A) (hA : Sub 4503599627370496 A) {s k x} (h_s : P s) :
    P (State.setSelector s k x) := by
  unfold State.setSelector
  refine upd_selectors K (sub rfl hA) ?_
  assumption

theorem frameRecord_keeps (K : Keeps P A) (hA : Sub 146334026969128961 A) {k i s} (h_s : P s) :
    P (frameRecord k i s) := by
  unfold frameRecord
  refine evdSend_keeps K (sub rfl hA) ?_
  · assumption

theorem selectOne_keeps (K : Keeps P A) (hA : Sub 153089461978013697 A) {i k s} (h_s : P s) :
    P (selectOne i k s) := by
  unfold selectOne
  extract_lets +onlyGivenNames -merge -underBinder x1
  try clear_value x1
  refine ite_k ?_ ?_
  · assumption
  · extract_lets +onlyGivenNames -merge -underBinder s2
    have hs2 : P s2 := by
      refine State.setSelector_keeps K (sub rfl hA) ?_
      · assumption
    try clear_value s2
    refine ite_k ?_ ?_
    · assumption
    · extract_lets +onlyGivenNames -merge -underBinder ev3 s4
      try clear_value ev3
      have hs4 : P s4 := by
        refine ite_k ?_ ?_
        · refine frameRecord_keeps K (sub rfl hA) ?_
          · assumption
        · assumption
      try clear_value s4
      refine capWrite_keeps K (sub rfl hA) ?_
      · assumption

theorem captureFrame_keeps (K : Keeps P A) (hA : Sub 153089461978013697 A) {i s} (h_s : P s) :
    P (captureFrame i s) := by
  unfold captureFrame
  refine foldl_k ?_ (fun s0 k0 hs0 => ?_)
  · assumption
  · refine selectOne_keeps K (sub rfl hA) ?_
    · assumption

theorem evdWriteBack_keeps (K : Keeps P A) (hA : Sub 1125900041060352 A) {s} (h_s : P s) :
    P (evdWriteBack s) := by
  unfold evdWriteBack
  extract_lets +onlyGivenNames -merge -underBinder src1
  have hsrc1 : P src1 := by
    refine State.dma_keeps K (sub rfl hA) ?_
    · assumption
  try clear_value src1
  refine upd_evd K (sub rfl hA) ?_
  assumption

theorem evdSlot_keeps (K : Keeps P A) (hA : Sub 1125902725480449 A) {b s} (h_s : P s) :
    P (evdSlot b s) := by
  unfold evdSlot
  refine ite_k ?_ ?_
  · assumption
  · refine ite_k ?_ ?_
    · extract_lets +onlyGivenNames -merge -underBinder s1 v2 s3
      have hs1 : P s1 := by
        refine set64_k K 16 part_evdRingLost_2 (sub rfl hA) ?_
        assumption
      try clear_value s1
      try clear_value v2
      try clear_value s3
      extract_lets +onlyGivenNames -merge -underBinder s4
      have hs4 : P s4 := by
        refine upd_evd K (sub rfl hA) ?_
        assumption
      try clear_value s4
      refine ite_k ?_ ?_
      · refine raiseEv_keeps K (sub rfl hA) ?_
        assumption
      · assumption
    · extract_lets +onlyGivenNames -merge -underBinder ix5 s6 s7
      try clear_value ix5
      have hs6 : P s6 := by
        refine setF_k K 16 part_evdRProdIndex (sub rfl hA) ?_
        refine State.dma_keeps K (sub rfl hA) ?_
        assumption
      try clear_value s6
      try clear_value s7
      extract_lets +onlyGivenNames -merge -underBinder s8
      have hs8 : P s8 := by
        refine upd_evd K (sub rfl hA) ?_
        assumption
      try clear_value s8
      refine ite_k ?_ ?_
      · refine evdWriteBack_keeps K (sub rfl hA) ?_
        assumption
      · assumption

theorem evdHeaderSlots_keeps (K : Keeps P A) (hA : Sub 1125902725480449 A) {h s} (h_s : P s) :
    P (evdHeaderSlots h s) := by
  unfold evdHeaderSlots
  refine ite_k ?_ ?_
  · assumption
  · extract_lets +onlyGivenNames -merge -underBinder left1 fill2 s3 s4
    try clear_value left1
    try clear_value fill2
    have hs3 : P s3 := by
      refine foldl_k ?_ (fun s0 k0 hs0 => ?_)
      · assumption
      · refine evdSlot_keeps K (sub rfl hA) ?_
        · assumption
    try clear_value s3
    have hs4 : P s4 := by
      refine foldl_k ?_ (fun s0 k0 hs0 => ?_)
      · assumption
      · refine evdSlot_keeps K (sub rfl hA) ?_
        · assumption
    try clear_value s4
    refine State.signalVector_keeps K (sub rfl hA) ?_
    · refine evdWriteBack_keeps K (sub rfl hA) ?_
      · assumption

theorem noteQuality_keeps (K : Keeps P A) (hA : Sub 1125899906842624 A) {s} (h_s : P s) :
    P (noteQuality s) := by
  unfold noteQuality
  extract_lets +onlyGivenNames -merge -underBinder q1
  try clear_value q1
  refine upd_evd K (sub rfl hA) ?_
  assumption

theorem storeHeader_keeps (K : Keeps P A) (hA : Sub 1125899906842624 A) {h s} (h_s : P s) :
    P (storeHeader h s) := by
  unfold storeHeader
  extract_lets +onlyGivenNames -merge -underBinder kept1
  try clear_value kept1
  refine upd_evd K (sub rfl hA) ?_
  assumption

theorem openBlock_keeps (K : Keeps P A) (hA : Sub 1125899906842624 A) {xref s} (h_s : P s) :
    P (openBlock xref s) := by
  unfold openBlock
  refine noteQuality_keeps K (sub rfl hA) ?_
  · refine upd_evd K (sub rfl hA) ?_
    assumption

theorem sendBh_keeps (K : Keeps P A) (hA : Sub 9007199254740992 A) {b bh s} (h_s : P s) :
    P (sendBh b bh s) := by
  unfold sendBh
  refine ite_k ?_ ?_
  · refine twSend_keeps K (sub rfl hA) ?_
    · assumption
  · assumption

theorem admitRecord_keeps (K : Keeps P A) (hA : Sub 146334027103412225 A) {s} (h_s : P s) :
    P (admitRecord s) := by
  unfold admitRecord
  split
  · assumption
  · extract_lets +onlyGivenNames -merge -underBinder b1
    try clear_value b1
    refine evdSlot_keeps K (sub rfl hA) ?_
    · refine count_keeps K (sub rfl hA) ?_
      · refine upd_evd K (sub rfl hA) ?_
        assumption

theorem admitAll_keeps (K : Keeps P A) (hA : Sub 146334027103412225 A) {s} (h_s : P s) :
    P (admitAll s) := by
  unfold admitAll
  refine foldl_k ?_ (fun s0 k0 hs0 => ?_)
  · assumption
  · refine admitRecord_keeps K (sub rfl hA) ?_
    assumption

theorem admitOld_keeps (K : Keeps P A) (hA : Sub 146334027103412225 A) {s} (h_s : P s) :
    P (admitOld s) := by
  unfold admitOld
  refine ite_k ?_ ?_
  · assumption
  · refine foldl_k ?_ (fun s0 k0 hs0 => ?_)
    · assumption
    · split
      · refine ite_k ?_ ?_
        · refine admitRecord_keeps K (sub rfl hA) ?_
          assumption
        · assumption
      · assumption

theorem closeBlock_keeps (K : Keeps P A) (hA : Sub 155341226358153217 A) {takeover isShort xref s} (h_s : P s) :
    P (closeBlock takeover isShort xref s).2 := by
  unfold closeBlock
  extract_lets +onlyGivenNames -merge -underBinder b1 s2 h3 eh4 sgn5 s6 s7 s8 s9
  try clear_value b1
  have hs2 : P s2 := by
    refine noteQuality_keeps K (sub rfl hA) ?_
    refine admitAll_keeps K (sub rfl hA) ?_
    assumption
  try clear_value s2
  try clear_value h3
  try clear_value eh4
  try clear_value sgn5
  have hs6 : P s6 := by
    refine count_keeps K (sub rfl hA) ?_
    assumption
  try clear_value s6
  try clear_value s7
  have hs8 : P s8 := by
    refine upd_evd K (sub rfl hA) ?_
    assumption
  try clear_value s8
  try clear_value s9
  extract_lets +onlyGivenNames -merge -underBinder s10 s11
  have hs10 : P s10 := by
    refine ite_k ?_ ?_
    · refine upd_evd K (sub rfl hA) ?_
      assumption
    · refine storeHeader_keeps K (sub rfl hA) ?_
      refine evdHeaderSlots_keeps K (sub rfl hA) ?_
      assumption
  try clear_value s10
  have hs11 : P s11 := by
    refine set64_k K 16 part_evdBlock_2 (sub rfl hA) ?_
    refine sendBh_keeps K (sub rfl hA) ?_
    assumption
  try clear_value s11
  refine mk2_k ?_
  refine openBlock_keeps K (sub rfl hA) ?_
  assumption

theorem takePeriod_keeps (K : Keeps P A) (hA : Sub 146334026969194497 A) {s} (h_s : P s) :
    P (takePeriod s) := by
  unfold takePeriod
  split
  · assumption
  · refine evdSend_keeps K (sub rfl hA) ?_
    · extract_lets +onlyGivenNames -merge -underBinder src1
      have hsrc1 : P src1 := by
        refine setF_k K 16 part_evdStatusPeriodUs (sub rfl hA) ?_
        assumption
      try clear_value src1
      refine upd_evd K (sub rfl hA) ?_
      assumption

theorem execEvdBlockClose_keeps (K : Keeps P A) (hA : Sub 155341226358153217 A) {s} (h_s : P s) :
    Nx P (execEvdBlockClose s) := by
  unfold execEvdBlockClose
  refine iteN_k ?_ ?_
  · refine next_k ?_
    refine takePeriod_keeps K (sub rfl hA) ?_
    · refine closeBlock_keeps K (sub rfl hA) ?_
      · assumption
  · refine next_k ?_
    assumption

theorem execEvdBlockSigned_keeps (K : Keeps P A) (hA : Sub 146334027103412225 A) {s} (h_s : P s) :
    Nx P (execEvdBlockSigned s) := by
  unfold execEvdBlockSigned
  refine iteN_k ?_ ?_
  · refine next_k ?_
    assumption
  · split
    · refine next_k ?_
      assumption
    · extract_lets +onlyGivenNames -merge -underBinder sig1 h2 src3 s4
      try clear_value sig1
      try clear_value h2
      try clear_value src3
      have hs4 : P s4 := by
        refine upd_evd K (sub rfl hA) ?_
        assumption
      try clear_value s4
      refine next_k ?_
      refine count_keeps K (sub rfl hA) ?_
      · refine storeHeader_keeps K (sub rfl hA) ?_
        · refine evdHeaderSlots_keeps K (sub rfl hA) ?_
          · assumption

theorem execEvdRecord_keeps (K : Keeps P A) (hA : Sub 146334027103412225 A) {s} (h_s : P s) :
    Nx P (execEvdRecord s) := by
  unfold execEvdRecord
  refine next_k ?_
  refine ite_k ?_ ?_
  · refine admitRecord_keeps K (sub rfl hA) ?_
    · assumption
  · assumption

theorem evdTakeover_keeps (K : Keeps P A) (hA : Sub 155341226358153217 A) {takeback serial epoch block bh s} (h_s : P s) :
    P (evdTakeover takeback serial epoch block bh s) := by
  unfold evdTakeover
  extract_lets +onlyGivenNames -merge -underBinder s1 c2
  have hs1 : P s1 := by
    refine evdSend_keeps K (sub rfl hA) ?_
    assumption
  try clear_value s1
  have hc2 : P c2.2 := by
    refine closeBlock_keeps K (sub rfl hA) ?_
    assumption
  try clear_value c2
  refine raiseEv_keeps K (sub rfl hA) ?_
  assumption

theorem evdConfigEffect_keeps (K : Keeps P A) (hA : Sub 1125899906908160 A) {c s} (h_s : P s) :
    P (evdConfigEffect c s).1 := by
  unfold evdConfigEffect
  extract_lets +onlyGivenNames -merge -underBinder p1 ring2 src3 src4 s5 was6 s7 s8 s9 src10 s11
  try clear_value p1
  try clear_value ring2
  try clear_value src3
  try clear_value src4
  have hs5 : P s5 := by
    refine ite_k ?_ ?_
    · refine upd_evd K (sub rfl hA) ?_
      assumption
    · refine upd_evd K (sub rfl hA) ?_
      assumption
  try clear_value s5
  try clear_value was6
  have hs7 : P s7 := by
    refine setB_k K 16 part_evdRCfgEn (sub rfl hA) ?_
    assumption
  try clear_value s7
  have hs8 : P s8 := by
    refine setF_k K 16 part_evdRCfgLog2sz (sub rfl hA) ?_
    assumption
  try clear_value s8
  have hs9 : P s9 := by
    refine setF_k K 16 part_evdRProdIndex (sub rfl hA) ?_
    assumption
  try clear_value s9
  try clear_value src10
  have hs11 : P s11 := by
    refine ite_k ?_ ?_
    · refine upd_evd K (sub rfl hA) ?_
      assumption
    · assumption
  try clear_value s11
  refine mk1_k ?_
  assumption

theorem execEvdConfig_keeps (K : Keeps P A) (hA : Sub 4621819125240496132 A) {c s} (h_s : P s) :
    Nx P (execEvdConfig c s) := by
  unfold execEvdConfig
  refine runCmd_keeps K (sub rfl hA) ?_ ?_
  · intro _ _ hh
    refine evdConfigEffect_keeps K (sub rfl hA) ?_
    assumption
  · assumption

theorem evdGetPubkeyEffect_keeps (K : Keeps P A) (hA : Sub 0 A) {x s} (h_s : P s) :
    P (evdGetPubkeyEffect x s).1 := by
  unfold evdGetPubkeyEffect
  refine mk1_k ?_
  assumption

theorem execEvdGetPubkey_keeps (K : Keeps P A) (hA : Sub 4620693225333587972 A) {c s} (h_s : P s) :
    Nx P (execEvdGetPubkey c s) := by
  unfold execEvdGetPubkey
  refine runCmd_keeps K (sub rfl hA) ?_ ?_
  · intro _ _ hh
    refine evdGetPubkeyEffect_keeps K (sub rfl hA) ?_
    assumption
  · assumption

theorem evdGetBlockEffect_keeps (K : Keeps P A) (hA : Sub 0 A) {c s} (h_s : P s) :
    P (evdGetBlockEffect c s).1 := by
  unfold evdGetBlockEffect
  extract_lets +onlyGivenNames -merge -underBinder b1
  try clear_value b1
  refine mk1_k ?_
  assumption

theorem execEvdGetBlock_keeps (K : Keeps P A) (hA : Sub 4620693225333587972 A) {c s} (h_s : P s) :
    Nx P (execEvdGetBlock c s) := by
  unfold execEvdGetBlock
  refine runCmd_keeps K (sub rfl hA) ?_ ?_
  · intro _ _ hh
    refine evdGetBlockEffect_keeps K (sub rfl hA) ?_
    assumption
  · assumption

theorem capRingSetEffect_keeps (K : Keeps P A) (hA : Sub 2251799813816320 A) {c s} (h_s : P s) :
    P (capRingSetEffect c s).1 := by
  unfold capRingSetEffect
  extract_lets +onlyGivenNames -merge -underBinder n1 s2
  try clear_value n1
  have hs2 : P s2 := by
    refine setF_k K 17 part_capNrCfgLog2sz (sub rfl hA) ?_
    assumption
  try clear_value s2
  refine mk1_k ?_
  refine State.setNetRing_keeps K (sub rfl hA) ?_
  · assumption

theorem execCapRingSet_keeps (K : Keeps P A) (hA : Sub 4622945025147404292 A) {c s} (h_s : P s) :
    Nx P (execCapRingSet c s) := by
  unfold execCapRingSet
  refine runCmd_keeps K (sub rfl hA) ?_ ?_
  · intro _ _ hh
    refine capRingSetEffect_keeps K (sub rfl hA) ?_
    assumption
  · assumption

theorem capRingEnableEffect_keeps (K : Keeps P A) (hA : Sub 2251835247296512 A) {c s} (h_s : P s) :
    P (capRingEnableEffect c s).1 := by
  unfold capRingEnableEffect
  extract_lets +onlyGivenNames -merge -underBinder n1
  try clear_value n1
  refine ite1_k ?_ ?_
  · extract_lets +onlyGivenNames -merge -underBinder s2 s3 s4 s5 src6 s7
    have hs2 : P s2 := by
      refine setB_k K 17 part_capNrCfgEn (sub rfl hA) ?_
      assumption
    try clear_value s2
    have hs3 : P s3 := by
      refine setB_k K 17 part_capNrProdPhase (sub rfl hA) ?_
      refine setF_k K 17 part_capNrProdIndex (sub rfl hA) ?_
      assumption
    try clear_value s3
    have hs4 : P s4 := by
      refine setF_k K 17 part_capNrDrop (sub rfl hA) ?_
      assumption
    try clear_value s4
    have hs5 : P s5 := by
      refine State.setRing_keeps K (sub rfl hA) ?_
      · assumption
    try clear_value s5
    try clear_value src6
    have hs7 : P s7 := by
      refine upd_tb K (sub rfl hA) ?_
      assumption
    try clear_value s7
    refine mk1_k ?_
    refine State.setNetRing_keeps K (sub rfl hA) ?_
    · assumption
  · refine mk1_k ?_
    refine setB_k K 17 part_capNrCfgEn (sub rfl hA) ?_
    assumption

theorem execCapRingEnable_keeps (K : Keeps P A) (hA : Sub 4622945059507142660 A) {c s} (h_s : P s) :
    Nx P (execCapRingEnable c s) := by
  unfold execCapRingEnable
  refine runCmd_keeps K (sub rfl hA) ?_ ?_
  · intro _ _ hh
    refine capRingEnableEffect_keeps K (sub rfl hA) ?_
    assumption
  · assumption

theorem capSelectEffect_keeps (K : Keeps P A) (hA : Sub 4503599627370496 A) {c s} (h_s : P s) :
    P (capSelectEffect c s).1 := by
  unfold capSelectEffect
  refine mk1_k ?_
  refine State.setSelector_keeps K (sub rfl hA) ?_
  · assumption

theorem execCapSelect_keeps (K : Keeps P A) (hA : Sub 4625196824960958468 A) {c s} (h_s : P s) :
    Nx P (execCapSelect c s) := by
  unfold execCapSelect
  refine runCmd_keeps K (sub rfl hA) ?_ ?_
  · intro _ _ hh
    refine capSelectEffect_keeps K (sub rfl hA) ?_
    assumption
  · assumption

end Sys2Proof.Machine
end

