-- ==== Sys2Proof/Laws/KeepMerge.lean ====
section
/-! SUPPORT. What the operations of Sys2Proof/Machine/Merge.lean keep (Sys2Proof/Laws/Keeps.lean): the mask in each lemma names the parts
of the state that the operation can touch. -/

set_option Elab.async false

namespace Sys2Proof.Machine

variable {P : State → Prop} {A : Nat}

theorem part_granulesOf {kind g : Nat} : regPart (granulesOf kind g).addr = 14 := by
  unfold granulesOf
  split_ifs
  · exact part_fmPartMgGranules
  · exact part_fmPartRgGranules

theorem State.setMg_keeps (K : Keeps P A) (hA : Sub 281474976710656 A) {s g x} (h_s : P s) :
    P (State.setMg s g x) := by
  unfold State.setMg
  refine upd_merges K (sub rfl hA) ?_
  assumption

theorem fmShortStart_keeps (K : Keeps P A) (hA : Sub 281477661065217 A) {g hold s} (h_s : P s) :
    P (fmShortStart g hold s) := by
  unfold fmShortStart
  extract_lets +onlyGivenNames -merge -underBinder x1
  try clear_value x1
  refine ite_k ?_ ?_
  · refine raiseEv_keeps K (sub rfl hA) ?_
    · refine State.setMg_keeps K (sub rfl hA) ?_
      · assumption
  · assumption

theorem fmShorten_keeps (K : Keeps P A) (hA : Sub 281477661081601 A) {g s} (h_s : P s) :
    P (fmShorten g s) := by
  unfold fmShorten
  extract_lets +onlyGivenNames -merge -underBinder now1 want2
  try clear_value now1
  try clear_value want2
  refine ite_k ?_ ?_
  · assumption
  · refine ite_k ?_ ?_
    · refine State.setMg_keeps K (sub rfl hA) ?_
      · refine setB_k K 14 part_fmGStatusShort (sub rfl hA) ?_
        assumption
    · extract_lets +onlyGivenNames -merge -underBinder s3
      have hs3 : P s3 := by
        refine fmShortStart_keeps K (sub rfl hA) ?_
        · refine setB_k K 14 part_fmGStatusShort (sub rfl hA) ?_
          assumption
      try clear_value s3
      refine raiseEv_keeps K (sub rfl hA) ?_
      · assumption

theorem showMerge_keeps (K : Keeps P A) (hA : Sub 281477661081601 A) {g s} (h_s : P s) :
    P (showMerge g s) := by
  unfold showMerge
  extract_lets +onlyGivenNames -merge -underBinder x1 n2 s3 s4 s5 s6
  try clear_value x1
  try clear_value n2
  have hs3 : P s3 := by
    refine setF_k K 14 part_fmGStatusHeld (sub rfl hA) ?_
    assumption
  try clear_value s3
  have hs4 : P s4 := by
    refine setB_k K 14 part_fmGStatusLateHeld (sub rfl hA) ?_
    assumption
  try clear_value s4
  have hs5 : P s5 := by
    refine setB_k K 14 part_fmGStatusEgDown (sub rfl hA) ?_
    assumption
  try clear_value s5
  have hs6 : P s6 := by
    refine setF_k K 14 part_fmGPeak (sub rfl hA) ?_
    refine setF_k K 14 part_fmGOcc (sub rfl hA) ?_
    assumption
  try clear_value s6
  refine fmShorten_keeps K (sub rfl hA) ?_
  · assumption

theorem setFmState_keeps (K : Keeps P A) (hA : Sub 2684370945 A) {g new s} (h_s : P s) :
    P (setFmState g new s) := by
  unfold setFmState
  extract_lets +onlyGivenNames -merge -underBinder old1
  try clear_value old1
  refine ite_k ?_ ?_
  · assumption
  · extract_lets +onlyGivenNames -merge -underBinder s2
    have hs2 : P s2 := by
      refine setF_k K 14 part_fmGStatusState (sub rfl hA) ?_
      assumption
    try clear_value s2
    refine raiseEv_keeps K (sub rfl hA) ?_
    · assumption

theorem fmRecord_keeps (K : Keeps P A) (hA : Sub 146334026969128961 A) {g kind trailer s} (h_s : P s) :
    P (fmRecord g kind trailer s) := by
  unfold fmRecord
  refine ite_k ?_ ?_
  · refine evdSend_keeps K (sub rfl hA) ?_
    · assumption
  · assumption

theorem fmRemove_keeps (K : Keeps P A) (hA : Sub 281474976710656 A) {g h s} (h_s : P s) :
    P (fmRemove g h s) := by
  unfold fmRemove
  refine State.setMg_keeps K (sub rfl hA) ?_
  · assumption

theorem fmDiscard_keeps (K : Keeps P A) (hA : Sub 146334026969145345 A) {g kind h s} (h_s : P s) :
    P (fmDiscard g kind h s) := by
  unfold fmDiscard
  extract_lets +onlyGivenNames -merge -underBinder off1 s2 n3 src4 s5 s6
  try clear_value off1
  have hs2 : P s2 := by
    refine count_keeps K (sub rfl hA) ?_
    · refine fmRemove_keeps K (sub rfl hA) ?_
      · assumption
  try clear_value s2
  try clear_value n3
  try clear_value src4
  have hs5 : P s5 := by
    refine State.setMg_keeps K (sub rfl hA) ?_
    · assumption
  try clear_value s5
  have hs6 : P s6 := by
    refine ite_k ?_ ?_
    · refine ite_k ?_ ?_
      · refine raiseEv_keeps K (sub rfl hA) ?_
        · assumption
      · assumption
    · assumption
  try clear_value s6
  refine showMerge_keeps K (sub rfl hA) ?_
  · refine fmRecord_keeps K (sub rfl hA) ?_
    · assumption

theorem fmTake_keeps (K : Keeps P A) (hA : Sub 144115188344815616 A) {g f n s} (h_s : P s) :
    Ox (fun r : _ × State => P r.2) (fmTake g f n s) := by
  unfold fmTake
  extract_lets +onlyGivenNames -merge -underBinder more1
  try clear_value more1
  refine ite_g (Q := fun r : Option (_ × State) => Ox (fun r : _ × State => P r.2) r) ?_ ?_
  · exact none_k
  · extract_lets +onlyGivenNames -merge -underBinder a2
    have ha2 : P a2.2 := by
      refine allocate_keeps K (sub rfl hA) ?_
      · assumption
    try clear_value a2
    refine some_k ?_
    refine mk2_k ?_
    refine writeCells_keeps K (sub rfl hA) ?_
    · refine writeCells_keeps K (sub rfl hA) ?_
      · assumption

theorem fmEnter_keeps (K : Keeps P A) (hA : Sub 146334026969145345 A) {g f s} (h_s : P s) :
    P (fmEnter g f s).2 := by
  unfold fmEnter
  extract_lets +onlyGivenNames -merge -underBinder p1
  try clear_value p1
  refine ite2_k ?_ ?_
  · refine mk2_k ?_
    refine count_keeps K (sub rfl hA) ?_
    assumption
  · refine ite2_k ?_ ?_
    · refine mk2_k ?_
      refine count_keeps K (sub rfl hA) ?_
      assumption
    · extract_lets +onlyGivenNames -merge -underBinder x2 trim3 k04 k5 late6 h7 s8
      try clear_value x2
      try clear_value trim3
      try clear_value k04
      try clear_value k5
      try clear_value late6
      try clear_value h7
      have hs8 : P s8 := by
        refine State.setMg_keeps K (sub rfl hA) ?_
        assumption
      try clear_value s8
      split
      · rename_i hq
        have hd9 := keep_of (Q := fun r : Option _ => Ox (fun r : _ × State => P r.2) r) hq (by
            refine fmTake_keeps K (sub rfl hA) ?_
            assumption)
        try (have hd9x := hd9 _ rfl)
        refine mk2_k ?_
        refine fmDiscard_keeps K (sub rfl hA) ?_
        assumption
      · rename_i hq
        have hd10 := keep_of (Q := fun r : Option _ => Ox (fun r : _ × State => P r.2) r) hq (by
            refine fmTake_keeps K (sub rfl hA) ?_
            assumption)
        try (have hd10x := hd10 _ rfl)
        extract_lets +onlyGivenNames -merge -underBinder s11 s12 s13
        try clear_value s11
        have hs12 : P s12 := by
          refine State.setMg_keeps K (sub rfl hA) ?_
          assumption
        try clear_value s12
        try clear_value s13
        extract_lets +onlyGivenNames -merge -underBinder s14 s15
        try clear_value s14
        have hs15 : P s15 := by
          refine count_keeps K (sub rfl hA) ?_
          refine State.setMg_keeps K (sub rfl hA) ?_
          assumption
        try clear_value s15
        extract_lets +onlyGivenNames -merge -underBinder s16 s17
        have hs16 : P s16 := by
          refine ite_k ?_ ?_
          · refine ite_k ?_ ?_
            · refine raiseEv_keeps K (sub rfl hA) ?_
              assumption
            · assumption
          · assumption
        try clear_value s16
        have hs17 : P s17 := by
          refine showMerge_keeps K (sub rfl hA) ?_
          assumption
        try clear_value s17
        refine ite2_k ?_ ?_
        · split
          · refine mk2_k ?_
            refine fmDiscard_keeps K (sub rfl hA) ?_
            assumption
          · refine mk2_k ?_
            assumption
        · refine mk2_k ?_
          assumption

theorem fmWhole_keeps (K : Keeps P A) (hA : Sub 146334026969145345 A) {g f good s} (h_s : P s) :
    P (fmWhole g f good s) := by
  unfold fmWhole
  split
  · assumption
  · extract_lets +onlyGivenNames -merge -underBinder len1
    try clear_value len1
    refine ite_k ?_ ?_
    · refine fmDiscard_keeps K (sub rfl hA) ?_
      · assumption
    · refine ite_k ?_ ?_
      · refine fmDiscard_keeps K (sub rfl hA) ?_
        · assumption
      · split
        · try
            rename_i hq
            have hd2 := keep_of (Q := fun r : Option (_ × State) => Ox (fun r : _ × State => P r.2) r) hq (by
                refine fmTake_keeps K (sub rfl hA) ?_
                · assumption
                )
          try (have hd2x := hd2 _ rfl)
          refine fmDiscard_keeps K (sub rfl hA) ?_
          · assumption
        · try
            rename_i hq
            have hd2 := keep_of (Q := fun r : Option (_ × State) => Ox (fun r : _ × State => P r.2) r) hq (by
                refine fmTake_keeps K (sub rfl hA) ?_
                · assumption
                )
          try (have hd2x := hd2 _ rfl)
          extract_lets +onlyGivenNames -merge -underBinder x3 h'4
          try clear_value x3
          try clear_value h'4
          refine showMerge_keeps K (sub rfl hA) ?_
          · refine State.setMg_keeps K (sub rfl hA) ?_
            · assumption

theorem holdRead_keeps (K : Keeps P A) (hA : Sub 145208127062286337 A) {f s} (h_s : P s) :
    P (holdRead f s) := by
  unfold holdRead
  refine ite_k ?_ ?_
  · assumption
  · refine foldl_k ?_ (fun s0 k0 hs0 => ?_)
    · assumption
    · extract_lets +onlyGivenNames -merge -underBinder s1
      have hs1 : P s1 := by
        refine foldl_k ?_ (fun s0 k0 hs0 => ?_)
        · assumption
        · refine mpRead_keeps K (sub rfl hA) ?_
          assumption
      try clear_value s1
      refine foldl_k ?_ (fun s0 k0 hs0 => ?_)
      · assumption
      · refine mpRead_keeps K (sub rfl hA) ?_
        assumption

theorem fmUnpoisoned_keeps (K : Keeps P A) (hA : Sub 146334026969145345 A) {a a1 a2} (h_a2 : P a2) :
    P (fmUnpoisoned a a1 a2).2 := by
  induction a generalizing a1 a2 with
  | zero =>
    rw [fmUnpoisoned]
    refine mk2_k ?_
    assumption
  | succ k ih =>
    rw [fmUnpoisoned]
    split
    · refine mk2_k ?_
      assumption
    · extract_lets +onlyGivenNames -merge -underBinder s1
      have hs1 : P s1 := by
        refine holdRead_keeps K (sub rfl hA) ?_
        assumption
      try clear_value s1
      split
      · refine mk2_k ?_
        assumption
      · refine ite2_k ?_ ?_
        · refine ih ?_
          refine count_keeps K (sub rfl hA) ?_
          refine showMerge_keeps K (sub rfl hA) ?_
          refine fmRemove_keeps K (sub rfl hA) ?_
          assumption
        · refine ite2_k ?_ ?_
          · refine ih ?_
            refine fmDiscard_keeps K (sub rfl hA) ?_
            assumption
          · refine mk2_k ?_
            assumption

theorem fmDown_keeps (K : Keeps P A) (hA : Sub 146334026969145345 A) {a aa1 aa2} (h_aa2 : P aa2) :
    P (fmDown a aa1 aa2) := by
  induction a generalizing aa1 aa2 with
  | zero =>
    rw [fmDown]
    try (conv => zeta)
    assumption
  | succ k ih =>
    rw [fmDown]
    try (conv => zeta)
    split
    · refine ih ?_
      refine fmDiscard_keeps K (sub rfl hA) ?_
      · assumption
    · split
      · refine ih ?_
        refine fmDiscard_keeps K (sub rfl hA) ?_
        · assumption
      · assumption

theorem showHoldMin_keeps (K : Keeps P A) (hA : Sub 281474976727040 A) {g s} (h_s : P s) :
    P (showHoldMin g s) := by
  unfold showHoldMin
  extract_lets +onlyGivenNames -merge -underBinder hs1
  try clear_value hs1
  refine setF_k K 14 part_fmGHoldMin (sub rfl hA) ?_
  refine State.setMg_keeps K (sub rfl hA) ?_
  · assumption

theorem fmBegin_keeps (K : Keeps P A) (hA : Sub 146334061328883713 A) {g h pred s} (h_s : P s) :
    P (fmBegin g h pred s).2 := by
  unfold fmBegin
  extract_lets +onlyGivenNames -merge -underBinder e1 ns2 nsIn3 qc4
  try clear_value e1
  try clear_value ns2
  try clear_value nsIn3
  try clear_value qc4
  refine ite2_k ?_ ?_
  · extract_lets +onlyGivenNames -merge -underBinder b5 f6
    try clear_value b5
    try clear_value f6
    extract_lets +onlyGivenNames -merge -underBinder f7
    try clear_value f7
    refine mk2_k ?_
    refine noteBase_keeps K (sub rfl hA) ?_
    refine count_keeps K (sub rfl hA) ?_
    assumption
  · extract_lets +onlyGivenNames -merge -underBinder isShort8 seq9 hold10 tr11 s12 s13 s14 s15 x16 s17 s18 s19 d20 d21 out22
    try clear_value isShort8
    try clear_value seq9
    try clear_value hold10
    try clear_value tr11
    have hs12 : P s12 := by
      refine fmRecord_keeps K (sub rfl hA) ?_
      assumption
    try clear_value s12
    have hs13 : P s13 := by
      refine addWrap_k K 14 part_fmGSeq (sub rfl hA) ?_
      assumption
    try clear_value s13
    have hs14 : P s14 := by
      refine ite_k ?_ ?_
      · refine fmShortStart_keeps K (sub rfl hA) ?_
        assumption
      · assumption
    try clear_value s14
    have hs15 : P s15 := by
      refine fmRemove_keeps K (sub rfl hA) ?_
      assumption
    try clear_value s15
    try clear_value x16
    have hs17 : P s17 := by
      refine State.setMg_keeps K (sub rfl hA) ?_
      assumption
    try clear_value s17
    have hs18 : P s18 := by
      refine ite_k ?_ ?_
      · refine count_keeps K (sub rfl hA) ?_
        assumption
      · assumption
    try clear_value s18
    have hs19 : P s19 := by
      refine ite_k ?_ ?_
      · refine count_keeps K (sub rfl hA) ?_
        assumption
      · assumption
    try clear_value s19
    try clear_value d20
    try clear_value d21
    try clear_value out22
    refine mk2_k ?_
    refine showHoldMin_keeps K (sub rfl hA) ?_
    assumption

theorem fmSent_keeps (K : Keeps P A) (hA : Sub 145208127062302721 A) {g f s} (h_s : P s) :
    P (fmSent g f s) := by
  unfold fmSent
  extract_lets +onlyGivenNames -merge -underBinder n1
  try clear_value n1
  refine showMerge_keeps K (sub rfl hA) ?_
  · refine count_keeps K (sub rfl hA) ?_
    · refine count_keeps K (sub rfl hA) ?_
      · assumption

theorem execFmDrainDone_keeps (K : Keeps P A) (hA : Sub 281477661081601 A) {g s} (h_s : P s) :
    Nx P (execFmDrainDone g s) := by
  unfold execFmDrainDone
  refine iteN_k ?_ ?_
  · refine next_k ?_
    refine showMerge_keeps K (sub rfl hA) ?_
    · refine setFmState_keeps K (sub rfl hA) ?_
      · assumption
  · refine next_k ?_
    assumption

theorem execFmTrimApply_keeps (K : Keeps P A) (hA : Sub 68719493120 A) {port s} (h_s : P s) :
    Nx P (execFmTrimApply port s) := by
  unfold execFmTrimApply
  refine iteN_k ?_ ?_
  · extract_lets +onlyGivenNames -merge -underBinder r1
    have hr1 : P r1.2 := by
      refine timedApply_keeps K (sub rfl hA) ?_
      · assumption
    try clear_value r1
    refine next_k ?_
    refine setI_k K 14 part_fmTrim (sub rfl hA) ?_
    assumption
  · refine next_k ?_
    assumption

theorem fmGroupSetEffect_keeps (K : Keeps P A) (hA : Sub 281477661081601 A) {c s} (h_s : P s) :
    P (fmGroupSetEffect c s).1 := by
  unfold fmGroupSetEffect
  extract_lets +onlyGivenNames -merge -underBinder g1 s2 s3 s4 s5
  try clear_value g1
  have hs2 : P s2 := by
    refine setF_k K 14 part_fmGCfgEgress (sub rfl hA) ?_
    assumption
  try clear_value s2
  have hs3 : P s3 := by
    refine setB_k K 14 part_fmGCfgEvidence (sub rfl hA) ?_
    refine setB_k K 14 part_fmGCfgTrailer (sub rfl hA) ?_
    assumption
  try clear_value s3
  have hs4 : P s4 := by
    refine setF_k K 14 part_fmGCfgWindow (sub rfl hA) ?_
    refine setF_k K 14 part_fmGCfgShortPct (sub rfl hA) ?_
    assumption
  try clear_value s4
  have hs5 : P s5 := by
    refine setF_k K 14 part_fmGMemb1 (sub rfl hA) ?_
    refine setF_k K 14 part_fmGMemb0 (sub rfl hA) ?_
    assumption
  try clear_value s5
  refine mk1_k ?_
  refine showMerge_keeps K (sub rfl hA) ?_
  · refine State.setMg_keeps K (sub rfl hA) ?_
    · assumption

theorem execFmGroupSet_keeps (K : Keeps P A) (hA : Sub 4620974700847185925 A) {c s} (h_s : P s) :
    Nx P (execFmGroupSet c s) := by
  unfold execFmGroupSet
  refine runCmd_keeps K (sub rfl hA) ?_ ?_
  · intro _ _ hh
    refine fmGroupSetEffect_keeps K (sub rfl hA) ?_
    assumption
  · assumption

theorem fmGroupEnableEffect_keeps (K : Keeps P A) (hA : Sub 146334026969145345 A) {c s} (h_s : P s) :
    P (fmGroupEnableEffect c s).1 := by
  unfold fmGroupEnableEffect
  extract_lets +onlyGivenNames -merge -underBinder g1 on2 res3
  try clear_value g1
  try clear_value on2
  refine ite1_k ?_ ?_
  · extract_lets +onlyGivenNames -merge -underBinder s4 s5
    have hs4 : P s4 := by
      refine ite_k ?_ ?_
      · refine setF_k K 14 part_fmGSeq (sub rfl hA) ?_
        assumption
      · assumption
    try clear_value s4
    have hs5 : P s5 := by
      refine showMerge_keeps K (sub rfl hA) ?_
      · refine setFmState_keeps K (sub rfl hA) ?_
        · refine setF_k K 14 part_fmGPeak (sub rfl hA) ?_
          assumption
    try clear_value s5
    refine mk1_k ?_
    assumption
  · refine ite1_k ?_ ?_
    · extract_lets +onlyGivenNames -merge -underBinder s6 s7
      have hs6 : P s6 := by
        refine foldl_k ?_ (fun s0 k0 hs0 => ?_)
        · assumption
        · refine fmDiscard_keeps K (sub rfl hA) ?_
          · assumption
      try clear_value s6
      have hs7 : P s7 := by
        refine showMerge_keeps K (sub rfl hA) ?_
        · refine setFmState_keeps K (sub rfl hA) ?_
          · assumption
      try clear_value s7
      refine mk1_k ?_
      assumption
    · refine ite1_k ?_ ?_
      · extract_lets +onlyGivenNames -merge -underBinder s8
        have hs8 : P s8 := by
          refine showMerge_keeps K (sub rfl hA) ?_
          · refine setFmState_keeps K (sub rfl hA) ?_
            · assumption
        try clear_value s8
        refine mk1_k ?_
        assumption
      · refine mk1_k ?_
        assumption

theorem execFmGroupEnable_keeps (K : Keeps P A) (hA : Sub 4767027245860282373 A) {c s} (h_s : P s) :
    Nx P (execFmGroupEnable c s) := by
  unfold execFmGroupEnable
  refine runCmd_keeps K (sub rfl hA) ?_ ?_
  · intro _ _ hh
    refine fmGroupEnableEffect_keeps K (sub rfl hA) ?_
    assumption
  · assumption

theorem fmSetTrimEffect_keeps (K : Keeps P A) (hA : Sub 68987912192 A) {c s} (h_s : P s) :
    P (fmSetTrimEffect c s).1 := by
  unfold fmSetTrimEffect
  extract_lets +onlyGivenNames -merge -underBinder r1 x2
  have hx2 : P x2.2 := by
    refine fixXc_keeps K (sub rfl hA) ?_
    · assumption
  try clear_value x2
  refine mk1_k ?_
  refine timedAdd_keeps K (sub rfl hA) ?_
  · assumption

theorem execFmSetTrim_keeps (K : Keeps P A) (hA : Sub 4620693294321500164 A) {c s} (h_s : P s) :
    Nx P (execFmSetTrim c s) := by
  unfold execFmSetTrim
  refine runCmd_keeps K (sub rfl hA) ?_ ?_
  · intro _ _ hh
    refine fmSetTrimEffect_keeps K (sub rfl hA) ?_
    assumption
  · assumption

theorem fmPartitionEffect_keeps (K : Keeps P A) (hA : Sub 16384 A) {c s} (h_s : P s) :
    P (fmPartitionEffect c s).1 := by
  unfold fmPartitionEffect
  extract_lets +onlyGivenNames -merge -underBinder r1 free2
  try clear_value free2
  refine mk1_k ?_
  refine setF_k K 14 part_fmPartFreeGranules (sub rfl hA) ?_
  refine setF_k K 14 part_granulesOf (sub rfl hA) ?_
  assumption

theorem execFmPartition_keeps (K : Keeps P A) (hA : Sub 4620693225333604356 A) {c s} (h_s : P s) :
    Nx P (execFmPartition c s) := by
  unfold execFmPartition
  refine runCmd_keeps K (sub rfl hA) ?_ ?_
  · intro _ _ hh
    refine fmPartitionEffect_keeps K (sub rfl hA) ?_
    assumption
  · assumption

end Sys2Proof.Machine
end

