-- ==== Sys2Proof/Laws/KeepRelease.lean ====
section
/-! SUPPORT. What the operations of Sys2Proof/Machine/Release.lean keep (Sys2Proof/Laws/Keeps.lean): the mask in each lemma names the parts
of the state that the operation can touch. -/

set_option Elab.async false

namespace Sys2Proof.Machine

variable {P : State → Prop} {A : Nat}

theorem retarget_keeps (K : Keeps P A) (hA : Sub 274877907968 A) {n s} (h_s : P s) :
    P (retarget n s) := by
  unfold retarget
  extract_lets +onlyGivenNames -merge -underBinder tgt1
  try clear_value tgt1
  refine ite_k ?_ ?_
  · assumption
  · extract_lets +onlyGivenNames -merge -underBinder pos2 w3 s4 s5
    try clear_value pos2
    try clear_value w3
    try clear_value s4
    have hs5 : P s5 := by
      refine State.setLane_keeps K (sub rfl hA) ?_
      assumption
    try clear_value s5
    extract_lets +onlyGivenNames -merge -underBinder s6
    have hs6 : P s6 := by
      refine setF_k K 10 part_sdsTrimPiTgt (sub rfl hA) ?_
      refine setF_k K 10 part_sdsTrimPiPos (sub rfl hA) ?_
      assumption
    try clear_value s6
    refine setB_k K 10 part_sdsStatusTrimBusy (sub rfl hA) ?_
    assumption

theorem showPi_keeps (K : Keeps P A) (hA : Sub 1024 A) {n s} (h_s : P s) :
    P (showPi n s) := by
  unfold showPi
  refine ite_k ?_ ?_
  · refine setF_k K 10 part_sdsTrimPiPos (sub rfl hA) ?_
    assumption
  · assumption

theorem requestRestart_keeps (K : Keeps P A) (hA : Sub 274877906944 A) {n s} (h_s : P s) :
    P (requestRestart n s) := by
  unfold requestRestart
  refine ite_k ?_ ?_
  · refine State.setLane_keeps K (sub rfl hA) ?_
    · assumption
  · assumption

theorem State.setRg_keeps (K : Keeps P A) (hA : Sub 562949953421312 A) {s g x} (h_s : P s) :
    P (State.setRg s g x) := by
  unfold State.setRg
  refine upd_releases K (sub rfl hA) ?_
  assumption

theorem showAlign_keeps (K : Keeps P A) (hA : Sub 2684387329 A) {p s} (h_s : P s) :
    P (showAlign p s) := by
  unfold showAlign
  split
  · assumption
  · extract_lets +onlyGivenNames -merge -underBinder c1 ok2 was3 s4
    try clear_value c1
    try clear_value ok2
    try clear_value was3
    have hs4 : P s4 := by
      refine setF_k K 15 part_erPortAlignCause (sub rfl hA) ?_
      refine setB_k K 15 part_erPortAlignAligned (sub rfl hA) ?_
      assumption
    try clear_value s4
    refine ite_k ?_ ?_
    · assumption
    · refine raiseEv_keeps K (sub rfl hA) ?_
      · assumption

theorem alignPort_keeps (K : Keeps P A) (hA : Sub 277562295297 A) {p s} (h_s : P s) :
    P (alignPort p s).2 := by
  unfold alignPort
  split
  · refine mk2_k ?_
    assumption
  · refine ite2_k ?_ ?_
    · refine mk2_k ?_
      refine showAlign_keeps K (sub rfl hA) ?_
      · assumption
    · extract_lets +onlyGivenNames -merge -underBinder n1 off2 changed3 s4 s5 s6
      try clear_value n1
      try clear_value off2
      try clear_value changed3
      have hs4 : P s4 := by
        refine setF_k K 15 part_erPortAlignRelPart (sub rfl hA) ?_
        refine setF_k K 15 part_erPortAlignWordOff (sub rfl hA) ?_
        assumption
      try clear_value s4
      have hs5 : P s5 := by
        refine retarget_keeps K (sub rfl hA) ?_
        · assumption
      try clear_value s5
      have hs6 : P s6 := by
        refine ite_k ?_ ?_
        · refine requestRestart_keeps K (sub rfl hA) ?_
          · assumption
        · assumption
      try clear_value s6
      refine mk2_k ?_
      refine showAlign_keeps K (sub rfl hA) ?_
      · assumption

theorem showRelease_keeps (K : Keeps P A) (hA : Sub 32768 A) {g s} (h_s : P s) :
    P (showRelease g s) := by
  unfold showRelease
  extract_lets +onlyGivenNames -merge -underBinder n1
  try clear_value n1
  refine setF_k K 15 part_erGPeak (sub rfl hA) ?_
  refine setF_k K 15 part_erGOcc (sub rfl hA) ?_
  refine setF_k K 15 part_erGStatusHeld (sub rfl hA) ?_
  assumption

theorem setErState_keeps (K : Keeps P A) (hA : Sub 2684387329 A) {g new s} (h_s : P s) :
    P (setErState g new s) := by
  unfold setErState
  extract_lets +onlyGivenNames -merge -underBinder old1
  try clear_value old1
  refine ite_k ?_ ?_
  · assumption
  · refine raiseEv_keeps K (sub rfl hA) ?_
    · refine setF_k K 15 part_erGStatusState (sub rfl hA) ?_
      assumption

theorem erPut_keeps (K : Keeps P A) (hA : Sub 148585862350643201 A) {g tIn body nss s} (h_s : P s) :
    P (erPut g tIn body nss s) := by
  unfold erPut
  extract_lets +onlyGivenNames -merge -underBinder s1
  have hs1 : P s1 := by
    refine ite_k ?_ ?_
    · refine evdSend_keeps K (sub rfl hA) ?_
      assumption
    · assumption
  try clear_value s1
  refine ite_k ?_ ?_
  · extract_lets +onlyGivenNames -merge -underBinder i2
    try clear_value i2
    refine capWrite_keeps K (sub rfl hA) ?_
    assumption
  · assumption

theorem erRecord_keeps (K : Keeps P A) (hA : Sub 148585862350643201 A) {g kind x s} (h_s : P s) :
    P (erRecord g kind x s) := by
  unfold erRecord
  extract_lets +onlyGivenNames -merge -underBinder f1 d2 dec3 body4 nsIn5 nss6 outs7 s8
  try clear_value f1
  try clear_value d2
  try clear_value dec3
  try clear_value body4
  try clear_value nsIn5
  try clear_value nss6
  try clear_value outs7
  try clear_value s8
  extract_lets +onlyGivenNames -merge -underBinder s9
  have hs9 : P s9 := by
    refine ite_k ?_ ?_
    · refine noteBase_keeps K (sub rfl hA) ?_
      refine erPut_keeps K (sub rfl hA) ?_
      assumption
    · assumption
  try clear_value s9
  refine erPut_keeps K (sub rfl hA) ?_
  assumption

theorem erTake_keeps (K : Keeps P A) (hA : Sub 144115188344815616 A) {g f n s} (h_s : P s) :
    Ox (fun r : _ × State => P r.2) (erTake g f n s) := by
  unfold erTake
  extract_lets +onlyGivenNames -merge -underBinder more1
  try clear_value more1
  refine ite_g (Q := fun r : Option (_ × State) => Ox (fun r : _ × State => P r.2) r) ?_ ?_
  · exact none_k
  · extract_lets +onlyGivenNames -merge -underBinder a2
    have ha2 : P a2.2 := by
      refine allocate_keeps K (sub rfl hA) ?_
      · assumption
    try clear_value a2
    refine some_k ?_
    refine mk2_k ?_
    refine writeCells_keeps K (sub rfl hA) ?_
    · refine writeCells_keeps K (sub rfl hA) ?_
      · assumption

theorem erEnd_keeps (K : Keeps P A) (hA : Sub 148585862350675969 A) {g kind x s} (h_s : P s) :
    P (erEnd g kind x s) := by
  unfold erEnd
  extract_lets +onlyGivenNames -merge -underBinder src1 s2
  try clear_value src1
  have hs2 : P s2 := by
    refine State.setRg_keeps K (sub rfl hA) ?_
    · assumption
  try clear_value s2
  refine showRelease_keeps K (sub rfl hA) ?_
  · refine erRecord_keeps K (sub rfl hA) ?_
    · assumption

theorem erDiscard_keeps (K : Keeps P A) (hA : Sub 148585862350675969 A) {g kind x s} (h_s : P s) :
    P (erDiscard g kind x s) := by
  unfold erDiscard
  extract_lets +onlyGivenNames -merge -underBinder s1 n2 src3 s4 s5
  have hs1 : P s1 := by
    refine count_keeps K (sub rfl hA) ?_
    · assumption
  try clear_value s1
  try clear_value n2
  try clear_value src3
  have hs4 : P s4 := by
    refine State.setRg_keeps K (sub rfl hA) ?_
    · assumption
  try clear_value s4
  have hs5 : P s5 := by
    refine ite_k ?_ ?_
    · refine ite_k ?_ ?_
      · refine raiseEv_keeps K (sub rfl hA) ?_
        · assumption
      · assumption
    · assumption
  try clear_value s5
  refine erEnd_keeps K (sub rfl hA) ?_
  · assumption

theorem erEnter_keeps (K : Keeps P A) (hA : Sub 148585862350675969 A) {g f s} (h_s : P s) :
    P (erEnter g f s).2 := by
  unfold erEnter
  refine ite2_k ?_ ?_
  · refine mk2_k ?_
    refine count_keeps K (sub rfl hA) ?_
    · assumption
  · refine ite2_k ?_ ?_
    · refine mk2_k ?_
      refine count_keeps K (sub rfl hA) ?_
      · assumption
    · extract_lets +onlyGivenNames -merge -underBinder x1
      try clear_value x1
      split
      · try
          rename_i hq
          have hd2 := keep_of (Q := fun r : Option (_ × State) => Ox (fun r : _ × State => P r.2) r) hq (by
              refine erTake_keeps K (sub rfl hA) ?_
              · assumption
              )
        try (have hd2x := hd2 _ rfl)
        refine mk2_k ?_
        refine erDiscard_keeps K (sub rfl hA) ?_
        · assumption
      · try
          rename_i hq
          have hd2 := keep_of (Q := fun r : Option (_ × State) => Ox (fun r : _ × State => P r.2) r) hq (by
              refine erTake_keeps K (sub rfl hA) ?_
              · assumption
              )
        try (have hd2x := hd2 _ rfl)
        refine mk2_k ?_
        refine showRelease_keeps K (sub rfl hA) ?_
        · refine State.setRg_keeps K (sub rfl hA) ?_
          · assumption

theorem erLateNote_keeps (K : Keeps P A) (hA : Sub 562952637775873 A) {g s} (h_s : P s) :
    P (erLateNote g s) := by
  unfold erLateNote
  extract_lets +onlyGivenNames -merge -underBinder n1 src2 s3
  try clear_value n1
  try clear_value src2
  have hs3 : P s3 := by
    refine State.setRg_keeps K (sub rfl hA) ?_
    · assumption
  try clear_value s3
  refine ite_k ?_ ?_
  · refine raiseEv_keeps K (sub rfl hA) ?_
    · assumption
  · assumption

theorem erTarget_keeps (K : Keeps P A) (hA : Sub 145208127062286337 A) {g x p} (h_x : P x.2) :
    P (erTarget g x p).2 := by
  unfold erTarget
  extract_lets +onlyGivenNames -merge -underBinder f1 s2 t3
  try clear_value f1
  have hs2 : P s2 := by
    assumption
  try clear_value s2
  try clear_value t3
  refine ite2_k ?_ ?_
  · refine mk2_k ?_
    assumption
  · refine ite2_k ?_ ?_
    · refine mk2_k ?_
      refine count_keeps K (sub rfl hA) ?_
      · assumption
    · refine ite2_k ?_ ?_
      · refine mk2_k ?_
        refine erLateNote_keeps K (sub rfl hA) ?_
        · refine count_keeps K (sub rfl hA) ?_
          · assumption
      · refine mk2_k ?_
        refine erLateNote_keeps K (sub rfl hA) ?_
        · refine count_keeps K (sub rfl hA) ?_
          · assumption

theorem erReplace_keeps (K : Keeps P A) (hA : Sub 562949953421312 A) {g old new s} (h_s : P s) :
    P (erReplace g old new s) := by
  unfold erReplace
  refine State.setRg_keeps K (sub rfl hA) ?_
  · assumption

theorem erFinish_keeps (K : Keeps P A) (hA : Sub 148585862350675969 A) {g x s} (h_s : P s) :
    P (erFinish g x s) := by
  unfold erFinish
  refine ite_k ?_ ?_
  · refine erEnd_keeps K (sub rfl hA) ?_
    · assumption
  · refine showRelease_keeps K (sub rfl hA) ?_
    · assumption

theorem erDecide_keeps (K : Keeps P A) (hA : Sub 148585862350675969 A) {g x s} (h_s : P s) :
    P (erDecide g x s) := by
  unfold erDecide
  extract_lets +onlyGivenNames -merge -underBinder f1 b2 rg3 ps4 y5 s6 downFails7 failing8
  try clear_value f1
  try clear_value b2
  try clear_value rg3
  try clear_value ps4
  try clear_value y5
  have hs6 : P s6 := by
    refine erReplace_keeps K (sub rfl hA) ?_
    · refine addWrap_k K 15 part_erGFseq (sub rfl hA) ?_
      assumption
  try clear_value s6
  try clear_value downFails7
  try clear_value failing8
  refine ite_k ?_ ?_
  · extract_lets +onlyGivenNames -merge -underBinder s9 n10 src11 s12 s13
    have hs9 : P s9 := by
      refine foldl_k ?_ (fun s0 k0 hs0 => ?_)
      · assumption
      · refine ite_k ?_ ?_
        · refine count_keeps K (sub rfl hA) ?_
          · assumption
        · assumption
    try clear_value s9
    try clear_value n10
    try clear_value src11
    have hs12 : P s12 := by
      refine count_keeps K (sub rfl hA) ?_
      · refine State.setRg_keeps K (sub rfl hA) ?_
        · assumption
    try clear_value s12
    have hs13 : P s13 := by
      refine ite_k ?_ ?_
      · refine raiseEv_keeps K (sub rfl hA) ?_
        · assumption
      · assumption
    try clear_value s13
    refine erEnd_keeps K (sub rfl hA) ?_
    · assumption
  · extract_lets +onlyGivenNames -merge -underBinder r14 s15 s16
    have hr14 : P r14.2 := by
      refine foldl_g (Q := fun r : _ × State => P r.2) ?_ (fun s0 k0 hs0 => ?_)
      · refine mk2_k ?_
        assumption
      · refine erTarget_keeps K (sub rfl hA) ?_
        · assumption
    try clear_value r14
    have hs15 : P s15 := by
      refine count_keeps K (sub rfl hA) ?_
      · refine erReplace_keeps K (sub rfl hA) ?_
        · assumption
    try clear_value s15
    have hs16 : P s16 := by
      refine ite_k ?_ ?_
      · refine count_keeps K (sub rfl hA) ?_
        · assumption
      · assumption
    try clear_value s16
    refine erFinish_keeps K (sub rfl hA) ?_
    · assumption

theorem erWhole_keeps (K : Keeps P A) (hA : Sub 148585862350675969 A) {g f good s} (h_s : P s) :
    P (erWhole g f good s) := by
  unfold erWhole
  split
  · assumption
  · refine ite_k ?_ ?_
    · refine erDiscard_keeps K (sub rfl hA) ?_
      assumption
    · split
      · rename_i hq
        have hd1 := keep_of (Q := fun r : Option _ => Ox (fun r : _ × State => P r.2) r) hq (by
            refine erTake_keeps K (sub rfl hA) ?_
            assumption)
        try (have hd1x := hd1 _ rfl)
        refine erDiscard_keeps K (sub rfl hA) ?_
        assumption
      · rename_i hq
        have hd2 := keep_of (Q := fun r : Option _ => Ox (fun r : _ × State => P r.2) r) hq (by
            refine erTake_keeps K (sub rfl hA) ?_
            assumption)
        try (have hd2x := hd2 _ rfl)
        extract_lets +onlyGivenNames -merge -underBinder y3 s4
        try clear_value y3
        have hs4 : P s4 := by
          refine erReplace_keeps K (sub rfl hA) ?_
          assumption
        try clear_value s4
        refine ite_k ?_ ?_
        · refine showRelease_keeps K (sub rfl hA) ?_
          refine count_keeps K (sub rfl hA) ?_
          refine State.setRg_keeps K (sub rfl hA) ?_
          assumption
        · refine ite_k ?_ ?_
          · refine erDiscard_keeps K (sub rfl hA) ?_
            assumption
          · refine erDecide_keeps K (sub rfl hA) ?_
            assumption

theorem erCopy_keeps (K : Keeps P A) (hA : Sub 148585862350675969 A) {g x c c' more s} (h_s : P s) :
    P (erCopy g x c c' more s) := by
  unfold erCopy
  extract_lets +onlyGivenNames -merge -underBinder y1
  try clear_value y1
  refine erFinish_keeps K (sub rfl hA) ?_
  · refine erReplace_keeps K (sub rfl hA) ?_
    · assumption

theorem erStart_keeps (K : Keeps P A) (hA : Sub 148585862350675969 A) {g port s} (h_s : P s) :
    P (erStart g port s) := by
  unfold erStart
  split
  · assumption
  · refine ite_k ?_ ?_
    · refine erDiscard_keeps K (sub rfl hA) ?_
      assumption
    · refine ite_k ?_ ?_
      · extract_lets +onlyGivenNames -merge -underBinder off1
        try clear_value off1
        refine erCopy_keeps K (sub rfl hA) ?_
        refine count_keeps K (sub rfl hA) ?_
        assumption
      · refine ite_k ?_ ?_
        · assumption
        · extract_lets +onlyGivenNames -merge -underBinder s2 t3
          have hs2 : P s2 := by
            refine erReplace_keeps K (sub rfl hA) ?_
            assumption
          try clear_value s2
          try clear_value t3
          refine takeTokens_keeps K (sub rfl hA) ?_
          refine upd_sw K (sub rfl hA) ?_
          assumption

theorem execReleaseCopyStart_keeps (K : Keeps P A) (hA : Sub 148585862350675969 A) {g port s} (h_s : P s) :
    Nx P (execReleaseCopyStart g port s) := by
  unfold execReleaseCopyStart
  split
  · refine next_k ?_
    assumption
  · refine iteN_k ?_ ?_
    · refine next_k ?_
      assumption
    · refine next_k ?_
      refine erStart_keeps K (sub rfl hA) ?_
      refine holdRead_keeps K (sub rfl hA) ?_
      assumption

theorem erSent_keeps (K : Keeps P A) (hA : Sub 148585862350675969 A) {g p fseq bad ok s} (h_s : P s) :
    P (erSent g p fseq bad ok s) := by
  unfold erSent
  split
  · assumption
  · split
    · assumption
    · extract_lets +onlyGivenNames -merge -underBinder s1
      have hs1 : P s1 := by
        refine count_keeps K (sub rfl hA) ?_
        · assumption
      try clear_value s1
      refine erCopy_keeps K (sub rfl hA) ?_
      · assumption

theorem execErDrainDone_keeps (K : Keeps P A) (hA : Sub 2684387329 A) {g s} (h_s : P s) :
    Nx P (execErDrainDone g s) := by
  unfold execErDrainDone
  refine iteN_k ?_ ?_
  · refine next_k ?_
    refine setErState_keeps K (sub rfl hA) ?_
    · assumption
  · refine next_k ?_
    assumption

theorem execErTrimApply_keeps (K : Keeps P A) (hA : Sub 68719509504 A) {port s} (h_s : P s) :
    Nx P (execErTrimApply port s) := by
  unfold execErTrimApply
  refine iteN_k ?_ ?_
  · extract_lets +onlyGivenNames -merge -underBinder r1
    have hr1 : P r1.2 := by
      refine timedApply_keeps K (sub rfl hA) ?_
      · assumption
    try clear_value r1
    refine next_k ?_
    refine setI_k K 15 part_erTrim (sub rfl hA) ?_
    assumption
  · refine next_k ?_
    assumption

theorem erGroupSetEffect_keeps (K : Keeps P A) (hA : Sub 32768 A) {c s} (h_s : P s) :
    P (erGroupSetEffect c s).1 := by
  unfold erGroupSetEffect
  extract_lets +onlyGivenNames -merge -underBinder g1 s2 s3 s4 s5
  try clear_value g1
  have hs2 : P s2 := by
    refine setB_k K 15 part_erGCfgLateSend (sub rfl hA) ?_
    refine setB_k K 15 part_erGCfgDownFails (sub rfl hA) ?_
    refine setB_k K 15 part_erGCfgAon (sub rfl hA) ?_
    assumption
  try clear_value s2
  have hs3 : P s3 := by
    refine setB_k K 15 part_erGCfgRec (sub rfl hA) ?_
    refine setB_k K 15 part_erGCfgEvidence (sub rfl hA) ?_
    assumption
  try clear_value s3
  have hs4 : P s4 := by
    refine setF_k K 15 part_erGCfgDelay (sub rfl hA) ?_
    refine setF_k K 15 part_erGCfgRing (sub rfl hA) ?_
    assumption
  try clear_value s4
  have hs5 : P s5 := by
    refine setF_k K 15 part_erGIn1 (sub rfl hA) ?_
    refine setF_k K 15 part_erGIn0 (sub rfl hA) ?_
    assumption
  try clear_value s5
  refine mk1_k ?_
  refine setF_k K 15 part_erGMemb1 (sub rfl hA) ?_
  refine setF_k K 15 part_erGMemb0 (sub rfl hA) ?_
  assumption

theorem execErGroupSet_keeps (K : Keeps P A) (hA : Sub 4620693225333620740 A) {c s} (h_s : P s) :
    Nx P (execErGroupSet c s) := by
  unfold execErGroupSet
  refine runCmd_keeps K (sub rfl hA) ?_ ?_
  · intro _ _ hh
    refine erGroupSetEffect_keeps K (sub rfl hA) ?_
    assumption
  · assumption

theorem erStop_keeps (K : Keeps P A) (hA : Sub 148585862350675969 A) {g flush s x} (h_s : P s) :
    P (erStop g flush s x) := by
  unfold erStop
  refine ite_k ?_ ?_
  · refine showRelease_keeps K (sub rfl hA) ?_
    · refine count_keeps K (sub rfl hA) ?_
      · refine State.setRg_keeps K (sub rfl hA) ?_
        · assumption
  · refine ite_k ?_ ?_
    · extract_lets +onlyGivenNames -merge -underBinder out1 y2
      try clear_value out1
      try clear_value y2
      refine erFinish_keeps K (sub rfl hA) ?_
      · refine erReplace_keeps K (sub rfl hA) ?_
        · refine count_keeps K (sub rfl hA) ?_
          · assumption
    · assumption

theorem erGroupEnableEffect_keeps (K : Keeps P A) (hA : Sub 148586137228583937 A) {c s} (h_s : P s) :
    P (erGroupEnableEffect c s).1 := by
  unfold erGroupEnableEffect
  extract_lets +onlyGivenNames -merge -underBinder g1 on2
  try clear_value g1
  try clear_value on2
  refine ite1_k ?_ ?_
  · extract_lets +onlyGivenNames -merge -underBinder s3 s4 s5 s6
    have hs3 : P s3 := by
      refine ite_k ?_ ?_
      · refine setF_k K 15 part_erGFseq (sub rfl hA) ?_
        assumption
      · assumption
    try clear_value s3
    have hs4 : P s4 := by
      refine setF_k K 15 part_erGPeak (sub rfl hA) ?_
      refine setF_k K 15 part_erGStatusMode (sub rfl hA) ?_
      assumption
    try clear_value s4
    have hs5 : P s5 := by
      refine setErState_keeps K (sub rfl hA) ?_
      · assumption
    try clear_value s5
    have hs6 : P s6 := by
      refine foldl_k ?_ (fun s0 k0 hs0 => ?_)
      · assumption
      · refine alignPort_keeps K (sub rfl hA) ?_
        · assumption
    try clear_value s6
    refine mk1_k ?_
    assumption
  · refine ite1_k ?_ ?_
    · extract_lets +onlyGivenNames -merge -underBinder s7 s8
      have hs7 : P s7 := by
        refine foldl_k ?_ (fun s0 k0 hs0 => ?_)
        · assumption
        · refine erStop_keeps K (sub rfl hA) ?_
          · assumption
      try clear_value s7
      have hs8 : P s8 := by
        refine setErState_keeps K (sub rfl hA) ?_
        · assumption
      try clear_value s8
      refine mk1_k ?_
      assumption
    · refine ite1_k ?_ ?_
      · extract_lets +onlyGivenNames -merge -underBinder s9 s10
        have hs9 : P s9 := by
          refine foldl_k ?_ (fun s0 k0 hs0 => ?_)
          · assumption
          · refine erStop_keeps K (sub rfl hA) ?_
            · assumption
        try clear_value s9
        have hs10 : P s10 := by
          refine setErState_keeps K (sub rfl hA) ?_
          · assumption
        try clear_value s10
        refine mk1_k ?_
        assumption
      · refine mk1_k ?_
        assumption

theorem execErGroupEnable_keeps (K : Keeps P A) (hA : Sub 4769279354911761413 A) {c s} (h_s : P s) :
    Nx P (execErGroupEnable c s) := by
  unfold execErGroupEnable
  refine runHeld_keeps K (sub rfl hA) ?_ ?_
  · intro _ _ hh
    refine erGroupEnableEffect_keeps K (sub rfl hA) ?_
    assumption
  · assumption

theorem erEnableCheck_keeps (K : Keeps P A) (hA : Sub 4620693225333587972 A) {s} (h_s : P s) :
    P (erEnableCheck s) := by
  unfold erEnableCheck
  split
  · assumption
  · extract_lets +onlyGivenNames -merge -underBinder g1
    try clear_value g1
    refine ite_k ?_ ?_
    · refine resumeHeld_keeps K (sub rfl hA) ?_
      assumption
    · assumption

theorem erSetTrimEffect_keeps (K : Keeps P A) (hA : Sub 346550207489 A) {c s} (h_s : P s) :
    P (erSetTrimEffect c s).1 := by
  unfold erSetTrimEffect
  extract_lets +onlyGivenNames -merge -underBinder p1 r2 x3 s4 a5
  try clear_value p1
  have hx3 : P x3.2 := by
    refine fixXc_keeps K (sub rfl hA) ?_
    · assumption
  try clear_value x3
  have hs4 : P s4 := by
    refine timedAdd_keeps K (sub rfl hA) ?_
    · assumption
  try clear_value s4
  have ha5 : P a5.2 := by
    refine alignPort_keeps K (sub rfl hA) ?_
    · assumption
  try clear_value a5
  refine mk1_k ?_
  assumption

theorem execErSetTrim_keeps (K : Keeps P A) (hA : Sub 4620693569736311813 A) {c s} (h_s : P s) :
    Nx P (execErSetTrim c s) := by
  unfold execErSetTrim
  refine runCmd_keeps K (sub rfl hA) ?_ ?_
  · intro _ _ hh
    refine erSetTrimEffect_keeps K (sub rfl hA) ?_
    assumption
  · assumption

end Sys2Proof.Machine
end

