-- ==== Sys2Proof/Laws/KeepSessions.lean ====
section
/-! SUPPORT. What the operations of Sys2Proof/Machine/Sessions.lean keep (Sys2Proof/Laws/Keeps.lean): the mask in each lemma names the parts
of the state that the operation can touch. -/

set_option Elab.async false

namespace Sys2Proof.Machine

variable {P : State → Prop} {A : Nat}

theorem State.setSession_keeps (K : Keeps P A) (hA : Sub 1099511627776 A) {s n x} (h_s : P s) :
    P (State.setSession s n x) := by
  unfold State.setSession
  refine upd_tt K (sub rfl hA) ?_
  assumption

end Sys2Proof.Machine
end

