-- ==== Sys2Proof/Laws/KeepPipeline.lean ====
section
/-! SUPPORT. What the operations of Sys2Proof/Machine/Pipeline.lean keep (Sys2Proof/Laws/Keeps.lean): the mask in each lemma names the parts
of the state that the operation can touch. -/

set_option Elab.async false

namespace Sys2Proof.Machine

variable {P : State → Prop} {A : Nat}

theorem classify_keeps (K : Keeps P A) (hA : Sub 145208127062286337 A) {k s} (h_s : P s) :
    P (classify k s).2 := by
  unfold classify
  extract_lets +onlyGivenNames -merge -underBinder bad1 s2
  try clear_value bad1
  have hs2 : P s2 := by
    refine foldl_k ?_ (fun s0 k0 hs0 => ?_)
    · assumption
    · refine mpRead_keeps K (sub rfl hA) ?_
      · assumption
  try clear_value s2
  refine mk2_k ?_
  assumption

theorem portLeg_keeps (K : Keeps P A) (hA : Sub 145208127062286337 A) {src egress pcp r bridged c s} (h_s : P s) :
    P (portLeg src egress pcp r bridged c s).2 := by
  unfold portLeg
  refine ite2_k ?_ ?_
  · refine mk2_k ?_
    assumption
  · refine ite2_k ?_ ?_
    · extract_lets +onlyGivenNames -merge -underBinder m1
      try clear_value m1
      refine ite2_k ?_ ?_
      · refine mk2_k ?_
        refine count_keeps K (sub rfl hA) ?_
        · assumption
      · refine mk2_k ?_
        assumption
    · refine mk2_k ?_
      assumption

theorem lagLeg_keeps (K : Keeps P A) (hA : Sub 145208127062286337 A) {src g pcp key r bridged c s} (h_s : P s) :
    P (lagLeg src g pcp key r bridged c s).2 := by
  unfold lagLeg
  split
  · refine mk2_k ?_
    refine count_keeps K (sub rfl hA) ?_
    · assumption
  · refine ite2_k ?_ ?_
    · refine mk2_k ?_
      assumption
    · split
      · refine mk2_k ?_
        refine count_keeps K (sub rfl hA) ?_
        · assumption
      · refine portLeg_keeps K (sub rfl hA) ?_
        · assumption

theorem legsOf_keeps (K : Keeps P A) (hA : Sub 0 A) {α : Type} {f : α → State → List Leg × State} {l : List α} {s : State}
    (h_f : ∀ y0 y1, P y1 → P (f y0 y1).2) (h_s : P s) : P (legsOf f l s).2 := by
  unfold legsOf
  refine foldl_g (Q := fun r : _ × State => P r.2) h_s (fun s0 k0 hs0 => ?_)
  exact h_f _ _ hs0

theorem floodLegs_keeps (K : Keeps P A) (hA : Sub 145208127062286337 A) {src pcp key r vid s} (h_s : P s) :
    P (floodLegs src pcp key r vid s).2 := by
  unfold floodLegs
  extract_lets +onlyGivenNames -merge -underBinder src1 c2 ms3 single4 groups5 a6 b7
  try clear_value src1
  try clear_value c2
  try clear_value ms3
  try clear_value single4
  try clear_value groups5
  have ha6 : P a6.2 := by
    refine legsOf_keeps K (sub rfl hA) ?_ ?_
    · intro _ _ hh
      refine portLeg_keeps K (sub rfl hA) ?_
      · assumption
    · assumption
  try clear_value a6
  have hb7 : P b7.2 := by
    refine legsOf_keeps K (sub rfl hA) ?_ ?_
    · intro _ _ hh
      refine lagLeg_keeps K (sub rfl hA) ?_
      · assumption
    · assumption
  try clear_value b7
  refine mk2_k ?_
  assumption

theorem mcastLegs_keeps (K : Keeps P A) (hA : Sub 145208127062286337 A) {src pcp key r g s} (h_s : P s) :
    P (mcastLegs src pcp key r g s).2 := by
  unfold mcastLegs
  refine legsOf_keeps K (sub rfl hA) ?_ ?_
  · intro _ _ hh
    extract_lets +onlyGivenNames -merge -underBinder src1 c2
    try clear_value src1
    try clear_value c2
    refine ite2_k ?_ ?_
    · refine portLeg_keeps K (sub rfl hA) ?_
      · assumption
    · refine ite2_k ?_ ?_
      · refine lagLeg_keeps K (sub rfl hA) ?_
        · assumption
      · refine portLeg_keeps K (sub rfl hA) ?_
        · assumption
  · assumption

theorem entryPlan_keeps (K : Keeps P A) (hA : Sub 145208127062286337 A) {src f key r type dest s} (h_s : P s) :
    P (entryPlan src f key r type dest s).2 := by
  unfold entryPlan
  extract_lets +onlyGivenNames -merge -underBinder src1 c2
  try clear_value src1
  try clear_value c2
  refine ite2_k ?_ ?_
  · extract_lets +onlyGivenNames -merge -underBinder l3
    have hl3 : P l3.2 := by
      refine portLeg_keeps K (sub rfl hA) ?_
      · assumption
    try clear_value l3
    refine mk2_k ?_
    assumption
  · refine ite2_k ?_ ?_
    · extract_lets +onlyGivenNames -merge -underBinder l4
      have hl4 : P l4.2 := by
        refine lagLeg_keeps K (sub rfl hA) ?_
        · assumption
      try clear_value l4
      refine mk2_k ?_
      assumption
    · refine ite2_k ?_ ?_
      · refine ite2_k ?_ ?_
        · refine mk2_k ?_
          refine count_keeps K (sub rfl hA) ?_
          · assumption
        · extract_lets +onlyGivenNames -merge -underBinder l5
          have hl5 : P l5.2 := by
            refine mcastLegs_keeps K (sub rfl hA) ?_
            · assumption
          try clear_value l5
          refine mk2_k ?_
          assumption
      · refine ite2_k ?_ ?_
        · refine mk2_k ?_
          refine count_keeps K (sub rfl hA) ?_
          · assumption
        · refine ite2_k ?_ ?_
          · refine mk2_k ?_
            assumption
          · refine ite2_k ?_ ?_
            · refine mk2_k ?_
              assumption
            · refine ite2_k ?_ ?_
              · refine mk2_k ?_
                assumption
              · refine mk2_k ?_
                assumption

theorem destLookup_keeps (K : Keeps P A) (hA : Sub 145208127062290433 A) {key s} (h_s : P s) :
    P (destLookup key s).2 := by
  unfold destLookup
  extract_lets +onlyGivenNames -merge -underBinder r1
  have hr1 : P r1.2 := by
    refine ftLookup_keeps K (sub rfl hA) ?_
    · assumption
  try clear_value r1
  split
  · refine mk2_k ?_
    refine ite_k ?_ ?_
    · refine setHit_keeps K (sub rfl hA) ?_
      · assumption
    · assumption
  · refine mk2_k ?_
    assumption

theorem takeHop_keeps (K : Keeps P A) (hA : Sub 145208127062286337 A) {i s} (h_s : P s) :
    P (takeHop i s).2 := by
  unfold takeHop
  extract_lets +onlyGivenNames -merge -underBinder s1
  have hs1 : P s1 := by
    refine readWords_keeps K (sub rfl hA) ?_
    · assumption
  try clear_value s1
  split
  · refine mk2_k ?_
    assumption
  · refine mk2_k ?_
    assumption

theorem routeLookup_keeps (K : Keeps P A) (hA : Sub 145208127062290433 A) {p s} (h_s : P s) :
    P (routeLookup p s).2 := by
  unfold routeLookup
  extract_lets +onlyGivenNames -merge -underBinder r1
  have hr1 : P r1.2 := by
    refine destLookup_keeps K (sub rfl hA) ?_
    · assumption
  try clear_value r1
  split
  · refine ite2_k ?_ ?_
    · refine takeHop_keeps K (sub rfl hA) ?_
      · assumption
    · refine ite2_k ?_ ?_
      · refine mk2_k ?_
        assumption
      · refine mk2_k ?_
        assumption
  · split
    · refine mk2_k ?_
      assumption
    · extract_lets +onlyGivenNames -merge -underBinder s2 x3
      have hs2 : P s2 := by
        refine readWords_keeps K (sub rfl hA) ?_
        · assumption
      try clear_value s2
      try clear_value x3
      refine ite2_k ?_ ?_
      · refine mk2_k ?_
        assumption
      · refine ite2_k ?_ ?_
        · refine takeHop_keeps K (sub rfl hA) ?_
          · assumption
        · refine ite2_k ?_ ?_
          · refine mk2_k ?_
            assumption
          · refine mk2_k ?_
            assumption

theorem routePlan_keeps (K : Keeps P A) (hA : Sub 145208127062290433 A) {src f p key r s} (h_s : P s) :
    P (routePlan src f p key r s).2 := by
  unfold routePlan
  refine ite2_k ?_ ?_
  · refine mk2_k ?_
    assumption
  · refine ite2_k ?_ ?_
    · refine mk2_k ?_
      assumption
    · extract_lets +onlyGivenNames -merge -underBinder h1
      have hh1 : P h1.2 := by
        refine routeLookup_keeps K (sub rfl hA) ?_
        · assumption
      try clear_value h1
      split
      · refine mk2_k ?_
        assumption
      · refine mk2_k ?_
        refine count_keeps K (sub rfl hA) ?_
        · assumption
      · refine mk2_k ?_
        assumption
      · extract_lets +onlyGivenNames -merge -underBinder src2 c3 l4
        try clear_value src2
        try clear_value c3
        have hl4 : P l4.2 := by
          refine ite2_k ?_ ?_
          · refine lagLeg_keeps K (sub rfl hA) ?_
            · assumption
          · refine portLeg_keeps K (sub rfl hA) ?_
            · assumption
        try clear_value l4
        refine ite2_k ?_ ?_
        · refine mk2_k ?_
          assumption
        · refine mk2_k ?_
          assumption

theorem bridgeFind_keeps (K : Keeps P A) (hA : Sub 145208127062290433 A) {f p s} (h_s : P s) :
    P (bridgeFind f p s).2 := by
  unfold bridgeFind
  extract_lets +onlyGivenNames -merge -underBinder d1
  try clear_value d1
  refine ite2_k ?_ ?_
  · extract_lets +onlyGivenNames -merge -underBinder a2
    have ha2 : P a2.2 := by
      refine destLookup_keeps K (sub rfl hA) ?_
      · assumption
    try clear_value a2
    split
    · refine mk2_k ?_
      assumption
    · refine destLookup_keeps K (sub rfl hA) ?_
      · assumption
  · refine destLookup_keeps K (sub rfl hA) ?_
    · assumption

theorem bridgePlan_keeps (K : Keeps P A) (hA : Sub 145208127062290433 A) {src f p key r s} (h_s : P s) :
    P (bridgePlan src f p key r s).2 := by
  unfold bridgePlan
  extract_lets +onlyGivenNames -merge -underBinder a1
  have ha1 : P a1.2 := by
    refine bridgeFind_keeps K (sub rfl hA) ?_
    · assumption
  try clear_value a1
  split
  · refine entryPlan_keeps K (sub rfl hA) ?_
    · assumption
  · refine ite2_k ?_ ?_
    · extract_lets +onlyGivenNames -merge -underBinder l2
      have hl2 : P l2.2 := by
        refine floodLegs_keeps K (sub rfl hA) ?_
        · assumption
      try clear_value l2
      refine mk2_k ?_
      assumption
    · refine mk2_k ?_
      assumption

theorem redirectLookup_keeps (K : Keeps P A) (hA : Sub 145208127062290433 A) {routed f p s} (h_s : P s) :
    P (redirectLookup routed f p s).2 := by
  unfold redirectLookup
  refine ite2_k ?_ ?_
  · refine ite2_k ?_ ?_
    · refine mk2_k ?_
      assumption
    · refine ite2_k ?_ ?_
      · refine mk2_k ?_
        assumption
      · extract_lets +onlyGivenNames -merge -underBinder h1
        have hh1 : P h1.2 := by
          refine routeLookup_keeps K (sub rfl hA) ?_
          · assumption
        try clear_value h1
        split
        · refine mk2_k ?_
          assumption
        · refine mk2_k ?_
          assumption
        · refine mk2_k ?_
          assumption
        · refine mk2_k ?_
          assumption
  · extract_lets +onlyGivenNames -merge -underBinder a2
    have ha2 : P a2.2 := by
      refine bridgeFind_keeps K (sub rfl hA) ?_
      · assumption
    try clear_value a2
    split
    · refine mk2_k ?_
      assumption
    · refine mk2_k ?_
      assumption

theorem trapPlan_keeps (K : Keeps P A) (hA : Sub 145208127062286337 A) {n reason r vid s} (h_s : P s) :
    P (trapPlan n reason r vid s).2 := by
  unfold trapPlan
  split
  · refine mk2_k ?_
    assumption
  · refine mk2_k ?_
    refine count_keeps K (sub rfl hA) ?_
    · assumption

theorem sourceLookup_keeps (K : Keeps P A) (hA : Sub 145208128270249985 A) {f s} (h_s : P s) :
    P (sourceLookup f s).2 := by
  unfold sourceLookup
  refine ite2_k ?_ ?_
  · refine mk2_k ?_
    assumption
  · extract_lets +onlyGivenNames -merge -underBinder lag1 mac2 r3
    try clear_value lag1
    try clear_value mac2
    have hr3 : P r3.2 := by
      refine ftLookup_keeps K (sub rfl hA) ?_
      · assumption
    try clear_value r3
    split
    · refine mk2_k ?_
      refine learnNotify_keeps K (sub rfl hA) ?_
      · assumption
    · extract_lets +onlyGivenNames -merge -underBinder s4 away5 s6
      have hs4 : P s4 := by
        refine setHit_keeps K (sub rfl hA) ?_
        · assumption
      try clear_value s4
      try clear_value away5
      have hs6 : P s6 := by
        refine ite_k ?_ ?_
        · refine learnNotify_keeps K (sub rfl hA) ?_
          · assumption
        · assumption
      try clear_value s6
      refine ite2_k ?_ ?_
      · refine mk2_k ?_
        refine count_keeps K (sub rfl hA) ?_
        · assumption
      · refine mk2_k ?_
        assumption

theorem decision_keeps (K : Keeps P A) (hA : Sub 145208128270249985 A) {n f s} (h_s : P s) :
    P (decision n f s).2.2 := by
  unfold decision
  split
  · refine mk2_g (Q := fun r : _ × State => P r.2) ?_
    refine mk2_k ?_
    refine count_keeps K (sub rfl hA) ?_
    · assumption
  · extract_lets +onlyGivenNames -merge -underBinder f1 l2
    try clear_value f1
    have hl2 : P l2.2 := by
      refine sourceLookup_keeps K (sub rfl hA) ?_
      · assumption
    try clear_value l2
    refine ite22_k ?_ ?_
    · refine mk2_g (Q := fun r : _ × State => P r.2) ?_
      refine mk2_k ?_
      assumption
    · extract_lets +onlyGivenNames -merge -underBinder p3 key4 k5 r6 s7 act8 f9
      try clear_value p3
      try clear_value key4
      have hk5 : P k5.2 := by
        refine classify_keeps K (sub rfl hA) ?_
        · assumption
      try clear_value k5
      try clear_value r6
      have hs7 : P s7 := by
        assumption
      try clear_value s7
      try clear_value act8
      try clear_value f9
      refine ite22_k ?_ ?_
      · refine mk2_g (Q := fun r : _ × State => P r.2) ?_
        refine mk2_k ?_
        refine count_keeps K (sub rfl hA) ?_
        · assumption
      · split
        · extract_lets +onlyGivenNames -merge -underBinder x10
          have hx10 : P x10.2 := by
            refine trapPlan_keeps K (sub rfl hA) ?_
            · assumption
          try clear_value x10
          refine mk2_g (Q := fun r : _ × State => P r.2) ?_
          refine mk2_k ?_
          assumption
        · refine ite22_k ?_ ?_
          · refine mk2_g (Q := fun r : _ × State => P r.2) ?_
            refine mk2_k ?_
            assumption
          · refine ite22_k ?_ ?_
            · refine mk2_g (Q := fun r : _ × State => P r.2) ?_
              refine mk2_k ?_
              assumption
            · refine ite22_k ?_ ?_
              · refine ite22_k ?_ ?_
                · refine mk2_g (Q := fun r : _ × State => P r.2) ?_
                  refine mk2_k ?_
                  refine count_keeps K (sub rfl hA) ?_
                  · assumption
                · refine mk2_g (Q := fun r : _ × State => P r.2) ?_
                  refine mk2_k ?_
                  assumption
              · extract_lets +onlyGivenNames -merge -underBinder routed11
                try clear_value routed11
                refine ite22_k ?_ ?_
                · extract_lets +onlyGivenNames -merge -underBinder x12
                  have hx12 : P x12.2 := by
                    refine redirectLookup_keeps K (sub rfl hA) ?_
                    · assumption
                  try clear_value x12
                  split
                  · extract_lets +onlyGivenNames -merge -underBinder y13
                    have hy13 : P y13.2 := by
                      refine trapPlan_keeps K (sub rfl hA) ?_
                      · assumption
                    try clear_value y13
                    refine mk2_g (Q := fun r : _ × State => P r.2) ?_
                    refine mk2_k ?_
                    assumption
                  · extract_lets +onlyGivenNames -merge -underBinder t14 src15 c16 y17
                    try clear_value t14
                    try clear_value src15
                    try clear_value c16
                    have hy17 : P y17.2 := by
                      refine ite2_k ?_ ?_
                      · refine lagLeg_keeps K (sub rfl hA) ?_
                        · assumption
                      · refine portLeg_keeps K (sub rfl hA) ?_
                        · assumption
                    try clear_value y17
                    refine mk2_g (Q := fun r : _ × State => P r.2) ?_
                    refine mk2_k ?_
                    assumption
                · extract_lets +onlyGivenNames -merge -underBinder x18
                  have hx18 : P x18.2 := by
                    refine ite2_k ?_ ?_
                    · refine routePlan_keeps K (sub rfl hA) ?_
                      · assumption
                    · refine bridgePlan_keeps K (sub rfl hA) ?_
                      · assumption
                  try clear_value x18
                  split
                  · extract_lets +onlyGivenNames -merge -underBinder y19
                    have hy19 : P y19.2 := by
                      refine trapPlan_keeps K (sub rfl hA) ?_
                      · assumption
                    try clear_value y19
                    refine mk2_g (Q := fun r : _ × State => P r.2) ?_
                    refine mk2_k ?_
                    assumption
                  · refine ite22_k ?_ ?_
                    · refine mk2_g (Q := fun r : _ × State => P r.2) ?_
                      refine mk2_k ?_
                      assumption
                    · refine mk2_g (Q := fun r : _ × State => P r.2) ?_
                      refine mk2_k ?_
                      assumption

theorem admitLeg_keeps (K : Keeps P A) (hA : Sub 145208127062286337 A) {k n len replicated f before l s} (h_before : P before) (h_s : P s) :
    P (admitLeg k n len replicated f before l s).2.2 := by
  unfold admitLeg
  extract_lets +onlyGivenNames -merge -underBinder q1 src2 c3 lost4
  try clear_value q1
  try clear_value src2
  try clear_value c3
  split
  · refine mk2_g (Q := fun r : _ × State => P r.2) ?_
    refine mk2_k ?_
    refine count_keeps K (sub rfl hA) ?_
    · assumption
  · refine mk2_g (Q := fun r : _ × State => P r.2) ?_
    refine mk2_k ?_
    refine joinQueue_keeps K (sub rfl hA) ?_ ?_
    · assumption
    · assumption
  · refine mk2_g (Q := fun r : _ × State => P r.2) ?_
    refine mk2_k ?_
    refine joinQueue_keeps K (sub rfl hA) ?_ ?_
    · assumption
    · assumption
  · refine mk2_g (Q := fun r : _ × State => P r.2) ?_
    refine mk2_k ?_
    try dsimp only [lost4]
    try (conv => zeta)
    refine ite_k ?_ ?_
    · refine count_keeps K (sub rfl hA) ?_
      · refine count_keeps K (sub rfl hA) ?_
        · assumption
    · refine count_keeps K (sub rfl hA) ?_
      · assumption
  · refine mk2_g (Q := fun r : _ × State => P r.2) ?_
    refine mk2_k ?_
    try dsimp only [lost4]
    try (conv => zeta)
    refine ite_k ?_ ?_
    · refine count_keeps K (sub rfl hA) ?_
      · refine count_keeps K (sub rfl hA) ?_
        · assumption
    · refine count_keeps K (sub rfl hA) ?_
      · assumption

theorem admitFrame_keeps (K : Keeps P A) (hA : Sub 145208127062286337 A) {f pl len s} (h_s : P s) :
    P (admitFrame f pl len s).2 := by
  unfold admitFrame
  refine ite2_k ?_ ?_
  · refine mk2_k ?_
    assumption
  · extract_lets +onlyGivenNames -merge -underBinder before1 k2 n3 a4 s5 src6 s7 r8 s10 s11
    have hbefore1 : P before1 := by
      assumption
    try clear_value before1
    try clear_value k2
    try clear_value n3
    have ha4 : P a4.2 := by
      refine allocate_keeps K (sub rfl hA) ?_
      · assumption
    try clear_value a4
    have hs5 : P s5 := by
      refine State.setPoolFrame_keeps K (sub rfl hA) ?_
      · refine writeCells_keeps K (sub rfl hA) ?_
        · refine writeCells_keeps K (sub rfl hA) ?_
          · assumption
    try clear_value s5
    try clear_value src6
    have hs7 : P s7 := by
      refine upd_bf K (sub rfl hA) ?_
      assumption
    try clear_value s7
    have hr8 : P r8.2.2 := by
      refine foldl_g (Q := fun r : _ × (_ × State) => P r.2.2) ?_ (fun s0 k0 hs0 => ?_)
      · refine mk2_g (Q := fun r : _ × State => P r.2) ?_
        refine mk2_k ?_
        assumption
      · extract_lets +onlyGivenNames -merge -underBinder y9
        have hy9 : P y9.2.2 := by
          refine admitLeg_keeps K (sub rfl hA) ?_ ?_
          · assumption
          · assumption
        try clear_value y9
        refine mk2_g (Q := fun r : _ × State => P r.2) ?_
        refine mk2_k ?_
        assumption
    try clear_value r8
    have hs10 : P s10 := by
      assumption
    try clear_value s10
    have hs11 : P s11 := by
      try unfold s11
      split
      · refine ite_k ?_ ?_
        · refine count_keeps K (sub rfl hA) ?_
          · assumption
        · assumption
      · assumption
    try clear_value s11
    refine ite2_k ?_ ?_
    · refine mk2_k ?_
      refine syncPool_keeps K (sub rfl hA) ?_
      · assumption
    · refine mk2_k ?_
      refine syncPool_keeps K (sub rfl hA) ?_
      · refine State.setPoolFrame_keeps K (sub rfl hA) ?_
        · assumption

theorem sampleOne_keeps (K : Keeps P A) (hA : Sub 163222525571768321 A) {egress src e i dp invalid k s} (h_s : P s) :
    P (sampleOne egress src e i dp invalid k s) := by
  unfold sampleOne
  extract_lets +onlyGivenNames -merge -underBinder ins1
  try clear_value ins1
  refine ite_k ?_ ?_
  · assumption
  · extract_lets +onlyGivenNames -merge -underBinder c2 n3 s4
    try clear_value c2
    try clear_value n3
    have hs4 : P s4 := by
      refine upd_ctSeen K (sub rfl hA) ?_
      assumption
    try clear_value s4
    refine ite_k ?_ ?_
    · assumption
    · refine ite_k ?_ ?_
      · refine addSat_k K 18 part_ctLsInvalid (sub rfl hA) ?_
        assumption
      · extract_lets +onlyGivenNames -merge -underBinder l5 s6 s7 s8 s9
        try clear_value l5
        have hs6 : P s6 := by
          refine set64_k K 18 part_ctLsCount_2 (sub rfl hA) ?_
          assumption
        try clear_value s6
        have hs7 : P s7 := by
          refine set64_k K 18 part_ctLsSum_2 (sub rfl hA) ?_
          assumption
        try clear_value s7
        have hs8 : P s8 := by
          refine set64_k K 18 part_ctLsMin_2 (sub rfl hA) ?_
          assumption
        try clear_value s8
        have hs9 : P s9 := by
          refine set64_k K 18 part_ctLsLast_2 (sub rfl hA) ?_
          refine set64_k K 18 part_ctLsMax_2 (sub rfl hA) ?_
          assumption
        try clear_value s9
        refine count_keeps K (sub rfl hA) ?_
        · assumption

theorem latencySample_keeps (K : Keeps P A) (hA : Sub 163222525571768321 A) {egress src e i dp invalid s} (h_s : P s) :
    P (latencySample egress src e i dp invalid s) := by
  unfold latencySample
  refine foldl_k ?_ (fun s0 k0 hs0 => ?_)
  · assumption
  · refine sampleOne_keeps K (sub rfl hA) ?_
    · assumption

theorem State.setRx_keeps (K : Keeps P A) (hA : Sub 35184372088832 A) {s n r} (h_s : P s) :
    P (State.setRx s n r) := by
  unfold State.setRx
  refine upd_sw K (sub rfl hA) ?_
  assumption

theorem State.setTx_keeps (K : Keeps P A) (hA : Sub 35184372088832 A) {s n t} (h_s : P s) :
    P (State.setTx s n t) := by
  unfold State.setTx
  refine upd_sw K (sub rfl hA) ?_
  assumption

theorem placeFrame_keeps (K : Keeps P A) (hA : Sub 148585862350692353 A) {n f pl len s} (h_s : P s) :
    P (placeFrame n f pl len s).2 := by
  unfold placeFrame
  extract_lets +onlyGivenNames -merge -underBinder base1 m2 e4 p6
  try clear_value base1
  have hm2 : P m2.2 := by
    try unfold m2
    split
    · extract_lets +onlyGivenNames -merge -underBinder r3
      have hr3 : P r3.2 := by
        refine fmEnter_keeps K (sub rfl hA) ?_
        · assumption
      try clear_value r3
      refine mk2_k ?_
      assumption
    · refine mk2_k ?_
      assumption
  try clear_value m2
  have he4 : P e4.2 := by
    try unfold e4
    split
    · extract_lets +onlyGivenNames -merge -underBinder r5
      have hr5 : P r5.2 := by
        refine erEnter_keeps K (sub rfl hA) ?_
        · assumption
      try clear_value r5
      refine mk2_k ?_
      assumption
    · refine mk2_k ?_
      assumption
  try clear_value e4
  have hp6 : P p6.2 := by
    refine admitFrame_keeps K (sub rfl hA) ?_
    · assumption
  try clear_value p6
  refine mk2_k ?_
  assumption

theorem execFrameRx_keeps (K : Keeps P A) (hA : Sub 148585862350696449 A) {src len head bad m outs s} (h_s : P s) :
    Nx P (execFrameRx src len head bad m outs s) := by
  unfold execFrameRx
  extract_lets +onlyGivenNames -merge -underBinder isPort1
  try clear_value isPort1
  refine iteN_k ?_ ?_
  · refine next_k ?_
    assumption
  · refine iteN_k ?_ ?_
    · refine next_k ?_
      refine ite_k ?_ ?_
      · refine count_keeps K (sub rfl hA) ?_
        assumption
      · assumption
    · extract_lets +onlyGivenNames -merge -underBinder x2 inv3 f4
      try clear_value x2
      try clear_value inv3
      try clear_value f4
      extract_lets +onlyGivenNames -merge -underBinder f5
      try clear_value f5
      refine iteN_k ?_ ?_
      · split
        · refine next_k ?_
          assumption
        · refine next_k ?_
          refine State.setRx_keeps K (sub rfl hA) ?_
          assumption
      · extract_lets +onlyGivenNames -merge -underBinder p6
        try clear_value p6
        refine iteN_k ?_ ?_
        · refine next_k ?_
          refine State.setRx_keeps K (sub rfl hA) ?_
          assumption
        · refine iteN_k ?_ ?_
          · refine next_k ?_
            refine State.setRx_keeps K (sub rfl hA) ?_
            assumption
          · refine iteN_k ?_ ?_
            · refine next_k ?_
              refine State.setRx_keeps K (sub rfl hA) ?_
              assumption
            · extract_lets +onlyGivenNames -merge -underBinder d7 r8
              have hd7 : P d7.2.2 := by
                refine decision_keeps K (sub rfl hA) ?_
                assumption
              try clear_value d7
              have hr8 : P r8.2 := by
                refine placeFrame_keeps K (sub rfl hA) ?_
                assumption
              try clear_value r8
              refine next_k ?_
              refine State.setRx_keeps K (sub rfl hA) ?_
              assumption

theorem countRx_keeps (K : Keeps P A) (hA : Sub 145208127062286337 A) {n d s} (h_s : P s) :
    P (countRx n d s) := by
  unfold countRx
  extract_lets +onlyGivenNames -merge -underBinder s1
  have hs1 : P s1 := by
    refine count_keeps K (sub rfl hA) ?_
    · refine count_keeps K (sub rfl hA) ?_
      · assumption
  try clear_value s1
  refine count_keeps K (sub rfl hA) ?_
  · assumption

theorem discardStored_keeps (K : Keeps P A) (hA : Sub 145208127062286337 A) {k s} (h_s : P s) :
    P (discardStored k s) := by
  unfold discardStored
  refine foldl_k ?_ (fun s0 k0 hs0 => ?_)
  · assumption
  · refine foldl_k ?_ (fun s0 k0 hs0 => ?_)
    · assumption
    · refine ite_k ?_ ?_
      · refine discardCopy_keeps K (sub rfl hA) ?_
        · assumption
      · assumption

theorem poolEnd_keeps (K : Keeps P A) (hA : Sub 145208127062286337 A) {k data good cutBad s} (h_s : P s) :
    P (poolEnd k data good cutBad s) := by
  unfold poolEnd
  split
  · assumption
  · extract_lets +onlyGivenNames -merge -underBinder s1
    have hs1 : P s1 := by
      refine State.setPoolFrame_keeps K (sub rfl hA) ?_
      · assumption
    try clear_value s1
    refine ite_k ?_ ?_
    · assumption
    · refine discardStored_keeps K (sub rfl hA) ?_
      · assumption

theorem freeBytes_keeps (K : Keeps P A) (hA : Sub 268435456 A) {n s} (h_s : P s) :
    P (freeBytes n s).2 := by
  unfold freeBytes
  refine foldl_g (Q := fun r : _ × State => P r.2) ?_ (fun s0 k0 hs0 => ?_)
  · refine mk2_k ?_
    assumption
  · extract_lets +onlyGivenNames -merge -underBinder d1
    have hd1 : P d1.2 := by
      refine State.draw_keeps K (sub rfl hA) ?_
      assumption
    try clear_value d1
    refine mk2_k ?_
    assumption

theorem directEnd_keeps (K : Keeps P A) (hA : Sub 171104272804356609 A) {r fault s} (h_s : P s) :
    P (directEnd r fault s) := by
  unfold directEnd
  extract_lets +onlyGivenNames -merge -underBinder n1 data2 bad3 sent4 s5 s6 put7 s8 s9
  try clear_value n1
  try clear_value data2
  try clear_value bad3
  have hsent4 : P sent4.2 := by
    refine ite2_k ?_ ?_
    · refine mk2_k ?_
      assumption
    · refine ite2_k ?_ ?_
      · refine freeBytes_keeps K (sub rfl hA) ?_
        assumption
      · refine mk2_k ?_
        assumption
  try clear_value sent4
  have hs5 : P s5 := by
    assumption
  try clear_value s5
  try clear_value s6
  have hput7 : P put7 := by
    refine upd_sw K (sub rfl hA) ?_
    assumption
  try clear_value put7
  have hs8 : P s8 := by
    refine foldl_k ?_ (fun s0 k0 hs0 => ?_)
    · assumption
    · refine injectSent_keeps K (sub rfl hA) ?_
      assumption
  try clear_value s8
  extract_lets +onlyGivenNames -merge -underBinder s10 s11
  have hs10 : P s10 := by
    unfold s10
    dsimp only [s9]
    refine ite_k ?_ ?_
    · refine fifoPut_keeps K (sub rfl hA) ?_
      assumption
    · assumption
  try clear_value s10
  have hs11 : P s11 := by
    refine captureFrame_keeps K (sub rfl hA) ?_
    assumption
  try clear_value s11
  refine foldl_k ?_ (fun s0 k0 hs0 => ?_)
  · assumption
  · extract_lets +onlyGivenNames -merge -underBinder s12 s13
    have hs12 : P s12 := by
      unfold s12
      dsimp only [s9]
      refine ite_k ?_ ?_
      · refine fifoPut_keeps K (sub rfl hA) ?_
        assumption
      · assumption
    try clear_value s12
    have hs13 : P s13 := by
      refine captureFrame_keeps K (sub rfl hA) ?_
      assumption
    try clear_value s13
    refine latencySample_keeps K (sub rfl hA) ?_
    assumption

theorem claimEnd_keeps (K : Keeps P A) (hA : Sub 1099511627776 A) {r data s} (h_s : P s) :
    P (claimEnd r data s) := by
  unfold claimEnd
  extract_lets +onlyGivenNames -merge -underBinder p1
  try clear_value p1
  split
  · assumption
  · extract_lets +onlyGivenNames -merge -underBinder x2
    try clear_value x2
    refine upd_tt K (sub rfl hA) ?_
    assumption

theorem frameEnd_keeps (K : Keeps P A) (hA : Sub 171105372316033537 A) {n r data fault s} (h_s : P s) :
    P (frameEnd n r data fault s) := by
  unfold frameEnd
  extract_lets +onlyGivenNames -merge -underBinder s1
  have hs1 : P s1 := by
    refine State.setRx_keeps K (sub rfl hA) ?_
    assumption
  try clear_value s1
  refine ite_k ?_ ?_
  · refine directEnd_keeps K (sub rfl hA) ?_
    assumption
  · extract_lets +onlyGivenNames -merge -underBinder broken2 tooLong3 good4 data'5 eover6 begun7 s8 s9 s10 s11
    try clear_value broken2
    try clear_value tooLong3
    try clear_value good4
    try clear_value data'5
    try clear_value eover6
    try clear_value begun7
    have hs8 : P s8 := by
      refine ite_k ?_ ?_
      · refine count_keeps K (sub rfl hA) ?_
        assumption
      · assumption
    try clear_value s8
    have hs9 : P s9 := by
      refine ite_k ?_ ?_
      · refine count_keeps K (sub rfl hA) ?_
        assumption
      · assumption
    try clear_value s9
    have hs10 : P s10 := by
      refine ite_k ?_ ?_
      · refine countRx_keeps K (sub rfl hA) ?_
        assumption
      · assumption
    try clear_value s10
    have hs11 : P s11 := by
      refine ite_k ?_ ?_
      · refine count_keeps K (sub rfl hA) ?_
        assumption
      · assumption
    try clear_value s11
    refine ite_k ?_ ?_
    · refine captureFrame_keeps K (sub rfl hA) ?_
      refine ite_k ?_ ?_
      · refine claimEnd_keeps K (sub rfl hA) ?_
        assumption
      · assumption
    · extract_lets +onlyGivenNames -merge -underBinder f12 f13 s14 s15 s16 s17
      try clear_value f12
      try clear_value f13
      have hs14 : P s14 := by
        unfold s14
        split
        · refine poolEnd_keeps K (sub rfl hA) ?_
          assumption
        · assumption
      try clear_value s14
      have hs15 : P s15 := by
        unfold s15
        split
        · refine fmWhole_keeps K (sub rfl hA) ?_
          assumption
        · assumption
      try clear_value s15
      have hs16 : P s16 := by
        unfold s16
        split
        · refine erWhole_keeps K (sub rfl hA) ?_
          assumption
        · assumption
      try clear_value s16
      have hs17 : P s17 := by
        refine ite_k ?_ ?_
        · refine fifoPut_keeps K (sub rfl hA) ?_
          assumption
        · assumption
      try clear_value s17
      refine ite_k ?_ ?_
      · refine captureFrame_keeps K (sub rfl hA) ?_
        assumption
      · assumption

theorem runtEnd_keeps (K : Keeps P A) (hA : Sub 171104272804356609 A) {src data fault m outs s} (h_s : P s) :
    P (runtEnd src data fault m outs s) := by
  unfold runtEnd
  extract_lets +onlyGivenNames -merge -underBinder inv1 f2
  try clear_value inv1
  try clear_value f2
  refine ite_k ?_ ?_
  · split
    · assumption
    · refine directEnd_keeps K (sub rfl hA) ?_
      assumption
  · extract_lets +onlyGivenNames -merge -underBinder s3
    have hs3 : P s3 := by
      refine count_keeps K (sub rfl hA) ?_
      assumption
    try clear_value s3
    refine ite_k ?_ ?_
    · refine fifoPut_keeps K (sub rfl hA) ?_
      assumption
    · assumption

theorem execFrameEnd_keeps (K : Keeps P A) (hA : Sub 171105372316033537 A) {src rest fault m outs s} (h_s : P s) :
    Nx P (execFrameEnd src rest fault m outs s) := by
  unfold execFrameEnd
  split
  · refine next_k ?_
    refine frameEnd_keeps K (sub rfl hA) ?_
    assumption
  · refine iteN_k ?_ ?_
    · refine next_k ?_
      refine runtEnd_keeps K (sub rfl hA) ?_
      assumption
    · refine next_k ?_
      assumption

theorem enterWhole_keeps (K : Keeps P A) (hA : Sub 148585862350696449 A) {n f s} (h_s : P s) :
    P (enterWhole n f s).2 := by
  unfold enterWhole
  extract_lets +onlyGivenNames -merge -underBinder s1 d2 r3 s4
  have hs1 : P s1 := by
    refine countRx_keeps K (sub rfl hA) ?_
    · assumption
  try clear_value s1
  have hd2 : P d2.2.2 := by
    refine decision_keeps K (sub rfl hA) ?_
    · assumption
  try clear_value d2
  have hr3 : P r3.2 := by
    refine placeFrame_keeps K (sub rfl hA) ?_
    · assumption
  try clear_value r3
  have hs4 : P s4 := by
    try unfold s4
    split
    · refine poolEnd_keeps K (sub rfl hA) ?_
      · assumption
    · assumption
  try clear_value s4
  refine mk2_k ?_
  assumption

theorem dwrrPick_keeps (K : Keeps P A) (hA : Sub 140737488355328 A) {n a aa2 aa3 aa4} (h_aa4 : P aa4) :
    P (dwrrPick n a aa2 aa3 aa4).2 := by
  induction a generalizing n aa2 aa3 aa4 with
  | zero =>
    rw [dwrrPick]
    try (conv => zeta)
    refine mk2_k ?_
    assumption
  | succ k ih =>
    rw [dwrrPick]
    try (conv => zeta)
    refine ite2_k ?_ ?_
    · refine ite2_k ?_ ?_
      · refine mk2_k ?_
        refine upd_bf K (sub rfl hA) ?_
        refine State.setBq_keeps K (sub rfl hA) ?_
        · assumption
      · refine ih ?_
        refine State.setBq_keeps K (sub rfl hA) ?_
        · assumption
    · refine ih ?_
      assumption

theorem pickQueue_keeps (K : Keeps P A) (hA : Sub 140737488355328 A) {n s} (h_s : P s) :
    P (pickQueue n s).2 := by
  unfold pickQueue
  split
  · refine mk2_k ?_
    assumption
  · refine ite2_k ?_ ?_
    · extract_lets +onlyGivenNames -merge -underBinder v1
      try clear_value v1
      refine dwrrPick_keeps K (sub rfl hA) ?_
      · assumption
    · refine mk2_k ?_
      assumption

theorem poolRead_keeps (K : Keeps P A) (hA : Sub 145208127062286337 A) {f s} (h_s : P s) :
    P (poolRead f s) := by
  unfold poolRead
  refine ite_k ?_ ?_
  · assumption
  · refine foldl_k ?_ (fun s0 k0 hs0 => ?_)
    · assumption
    · refine foldl_k ?_ (fun s0 k0 hs0 => ?_)
      · assumption
      · refine mpRead_keeps K (sub rfl hA) ?_
        assumption

theorem beginQueued_keeps (K : Keeps P A) (hA : Sub 145208127062286337 A) {n pred a a3} (h_a3 : P a3) :
    P (beginQueued n pred a a3) := by
  induction a generalizing n pred a3 with
  | zero =>
    rw [beginQueued]
    assumption
  | succ k ih =>
    rw [beginQueued]
    split
    · refine pickQueue_keeps K (sub rfl hA) ?_
      assumption
    · extract_lets +onlyGivenNames -merge -underBinder k1 s2
      try clear_value k1
      have hs2 : P s2 := by
        refine pickQueue_keeps K (sub rfl hA) ?_
        assumption
      try clear_value s2
      split
      · assumption
      · split
        · refine ih ?_
          refine removeCopy_keeps K (sub rfl hA) ?_
          assumption
        · extract_lets +onlyGivenNames -merge -underBinder s3 f4
          have hs3 : P s3 := by
            refine poolRead_keeps K (sub rfl hA) ?_
            assumption
          try clear_value s3
          try clear_value f4
          refine ite_k ?_ ?_
          · refine ih ?_
            refine discardCopy_keeps K (sub rfl hA) ?_
            assumption
          · extract_lets +onlyGivenNames -merge -underBinder t5 s6 s7
            try clear_value t5
            have hs6 : P s6 := by
              refine count_keeps K (sub rfl hA) ?_
              refine removeCopy_keeps K (sub rfl hA) ?_
              assumption
            try clear_value s6
            have hs7 : P s7 := by
              refine takeTokens_keeps K (sub rfl hA) ?_
              refine takeTokens_keeps K (sub rfl hA) ?_
              assumption
            try clear_value s7
            refine State.setTx_keeps K (sub rfl hA) ?_
            assumption

theorem pick_keeps (K : Keeps P A) (hA : Sub 146334061328883713 A) {n pred s} (h_s : P s) :
    P (pick n pred s) := by
  unfold pick
  refine ite_k ?_ ?_
  · assumption
  · split
    · refine beginQueued_keeps K (sub rfl hA) ?_
      · assumption
    · extract_lets +onlyGivenNames -merge -underBinder r1
      have hr1 : P r1.2 := by
        refine fmUnpoisoned_keeps K (sub rfl hA) ?_
        · assumption
      try clear_value r1
      split
      · refine beginQueued_keeps K (sub rfl hA) ?_
        · assumption
      · refine ite_k ?_ ?_
        · assumption
        · extract_lets +onlyGivenNames -merge -underBinder b2 len3
          have hb2 : P b2.2 := by
            refine fmBegin_keeps K (sub rfl hA) ?_
            · assumption
          try clear_value b2
          try clear_value len3
          refine takeTokens_keeps K (sub rfl hA) ?_
          · refine showMerge_keeps K (sub rfl hA) ?_
            · refine State.setTx_keeps K (sub rfl hA) ?_
              · assumption

theorem execEgressPick_keeps (K : Keeps P A) (hA : Sub 146334061328883713 A) {egress m s} (h_s : P s) :
    Nx P (execEgressPick egress m s) := by
  unfold execEgressPick
  refine iteN_k ?_ ?_
  · refine next_k ?_
    refine pick_keeps K (sub rfl hA) ?_
    · assumption
  · refine next_k ?_
    assumption

theorem execMergeDue_keeps (K : Keeps P A) (hA : Sub 146334061328883713 A) {g m s} (h_s : P s) :
    Nx P (execMergeDue g m s) := by
  unfold execMergeDue
  refine iteN_k ?_ ?_
  · refine next_k ?_
    assumption
  · extract_lets +onlyGivenNames -merge -underBinder e1
    try clear_value e1
    refine iteN_k ?_ ?_
    · refine next_k ?_
      refine ite_k ?_ ?_
      · refine pick_keeps K (sub rfl hA) ?_
        assumption
      · assumption
    · refine next_k ?_
      refine fmDown_keeps K (sub rfl hA) ?_
      assumption

theorem predCheck_keeps (K : Keeps P A) (hA : Sub 2684355073 A) {n e pred s} (h_s : P s) :
    P (predCheck n e pred s) := by
  unfold predCheck
  extract_lets +onlyGivenNames -merge -underBinder d1
  try clear_value d1
  refine ite_k ?_ ?_
  · refine raiseEv_keeps K (sub rfl hA) ?_
    · refine addSat_k K 9 part_ptsPredErr (sub rfl hA) ?_
      assumption
  · assumption

theorem deliverHost_keeps (K : Keeps P A) (hA : Sub 147459962443800577 A) {f c queue data s} (h_s : P s) :
    P (deliverHost f c queue data s) := by
  unfold deliverHost
  extract_lets +onlyGivenNames -merge -underBinder rest1 conts2 src3 i4
  try clear_value rest1
  try clear_value conts2
  try clear_value src3
  try clear_value i4
  refine capWrite_keeps K (sub rfl hA) ?_
  · assumption

theorem txRecords_keeps (K : Keeps P A) (hA : Sub 171103997926449665 A) {n t f data e inv stomped s} (h_s : P s) :
    P (txRecords n t f data e inv stomped s) := by
  unfold txRecords
  refine ite_k ?_ ?_
  · assumption
  · extract_lets +onlyGivenNames -merge -underBinder s1 ask2 s3 s4
    have hs1 : P s1 := by
      refine predCheck_keeps K (sub rfl hA) ?_
      assumption
    try clear_value s1
    try clear_value ask2
    have hs3 : P s3 := by
      refine ite_k ?_ ?_
      · refine fifoPut_keeps K (sub rfl hA) ?_
        assumption
      · assumption
    try clear_value s3
    have hs4 : P s4 := by
      refine captureFrame_keeps K (sub rfl hA) ?_
      assumption
    try clear_value s4
    refine ite_k ?_ ?_
    · assumption
    · refine latencySample_keeps K (sub rfl hA) ?_
      assumption

theorem countTx_keeps (K : Keeps P A) (hA : Sub 145208127062286337 A) {n len stomped s} (h_s : P s) :
    P (countTx n len stomped s) := by
  unfold countTx
  refine ite_k ?_ ?_
  · refine count_keeps K (sub rfl hA) ?_
    · assumption
  · refine count_keeps K (sub rfl hA) ?_
    · refine count_keeps K (sub rfl hA) ?_
      · assumption

theorem execFrameTxDone_keeps (K : Keeps P A) (hA : Sub 171104272804409857 A) {egress m s} (h_s : P s) :
    Nx P (execFrameTxDone egress m s) := by
  unfold execFrameTxDone
  split
  · refine next_k ?_
    assumption
  · refine iteN_k ?_ ?_
    · refine next_k ?_
      assumption
    · extract_lets +onlyGivenNames -merge -underBinder p1
      try clear_value p1
      refine iteN_k ?_ ?_
      · split
        · refine next_k ?_
          refine State.setTx_keeps K (sub rfl hA) ?_
          assumption
        · refine iteN_k ?_ ?_
          · refine next_k ?_
            assumption
          · extract_lets +onlyGivenNames -merge -underBinder k2 s3 f4 b5 s6 s7 s8 s9
            try clear_value k2
            have hs3 : P s3 := by
              refine poolRead_keeps K (sub rfl hA) ?_
              assumption
            try clear_value s3
            try clear_value f4
            try clear_value b5
            try clear_value s6
            have hs7 : P s7 := by
              refine upd_sw K (sub rfl hA) ?_
              assumption
            try clear_value s7
            have hs8 : P s8 := by
              refine injectSent_keeps K (sub rfl hA) ?_
              assumption
            try clear_value s8
            have hs9 : P s9 := by
              refine endCopy_keeps K (sub rfl hA) ?_
              refine countTx_keeps K (sub rfl hA) ?_
              refine State.setTx_keeps K (sub rfl hA) ?_
              assumption
            try clear_value s9
            extract_lets +onlyGivenNames -merge -underBinder s10
            have hs10 : P s10 := by
              refine txRecords_keeps K (sub rfl hA) ?_
              assumption
            try clear_value s10
            refine iteN_k ?_ ?_
            · refine next_k ?_
              refine deliverHost_keeps K (sub rfl hA) ?_
              assumption
            · refine iteN_k ?_ ?_
              · refine next_k ?_
                refine enterWhole_keeps K (sub rfl hA) ?_
                assumption
              · refine next_k ?_
                assumption
      · extract_lets +onlyGivenNames -merge -underBinder s11 t12 lost13 d14 s15 s16
        have hs11 : P s11 := by
          refine holdRead_keeps K (sub rfl hA) ?_
          assumption
        try clear_value s11
        try clear_value t12
        try clear_value lost13
        try clear_value d14
        try clear_value s15
        have hs16 : P s16 := by
          refine injectSent_keeps K (sub rfl hA) ?_
          refine upd_sw K (sub rfl hA) ?_
          assumption
        try clear_value s16
        extract_lets +onlyGivenNames -merge -underBinder s17
        have hs17 : P s17 := by
          refine txRecords_keeps K (sub rfl hA) ?_
          refine countTx_keeps K (sub rfl hA) ?_
          refine State.setTx_keeps K (sub rfl hA) ?_
          assumption
        try clear_value s17
        refine iteN_k ?_ ?_
        · refine next_k ?_
          refine ite_k ?_ ?_
          · refine showMerge_keeps K (sub rfl hA) ?_
            assumption
          · refine fmSent_keeps K (sub rfl hA) ?_
            assumption
        · refine iteN_k ?_ ?_
          · refine next_k ?_
            refine erSent_keeps K (sub rfl hA) ?_
            assumption
          · refine next_k ?_
            assumption

theorem htxDone_keeps (K : Keeps P A) (hA : Sub 2818574337 A) {code s} (h_s : P s) :
    P (htxDone code s) := by
  unfold htxDone
  extract_lets +onlyGivenNames -merge -underBinder h1 s2 s3
  try clear_value h1
  have hs2 : P s2 := by
    refine State.dma_keeps K (sub rfl hA) ?_
    · assumption
  try clear_value s2
  have hs3 : P s3 := by
    refine setF_k K 11 part_swHtxHeadIndex (sub rfl hA) ?_
    assumption
  try clear_value s3
  refine ite_k ?_ ?_
  · assumption
  · refine raiseEv_keeps K (sub rfl hA) ?_
    · assumption

theorem execHostTxDescriptor_keeps (K : Keeps P A) (hA : Sub 148585862350698497 A) {desc data readable s} (h_s : P s) :
    Nx P (execHostTxDescriptor desc data readable s) := by
  unfold execHostTxDescriptor
  refine iteN_k ?_ ?_
  · refine next_k ?_
    assumption
  · extract_lets +onlyGivenNames -merge -underBinder len1 tag2 fl3 q4 eg5 direct6 mx7
    try clear_value len1
    try clear_value tag2
    try clear_value fl3
    try clear_value q4
    try clear_value eg5
    try clear_value direct6
    try clear_value mx7
    refine iteN_k ?_ ?_
    · refine next_k ?_
      refine htxDone_keeps K (sub rfl hA) ?_
      · assumption
    · refine iteN_k ?_ ?_
      · refine next_k ?_
        refine htxDone_keeps K (sub rfl hA) ?_
        · assumption
      · refine iteN_k ?_ ?_
        · refine next_k ?_
          refine htxDone_keeps K (sub rfl hA) ?_
          · assumption
        · refine iteN_k ?_ ?_
          · refine next_k ?_
            refine htxDone_keeps K (sub rfl hA) ?_
            · assumption
          · extract_lets +onlyGivenNames -merge -underBinder d8 d9 src10 f11
            try clear_value d8
            try clear_value d9
            try clear_value src10
            try clear_value f11
            refine iteN_k ?_ ?_
            · extract_lets +onlyGivenNames -merge -underBinder src12 pl13 a14
              try clear_value src12
              try clear_value pl13
              have ha14 : P a14.2 := by
                refine admitFrame_keeps K (sub rfl hA) ?_
                · refine countRx_keeps K (sub rfl hA) ?_
                  · assumption
              try clear_value a14
              refine next_k ?_
              refine htxDone_keeps K (sub rfl hA) ?_
              · assumption
            · refine iteN_k ?_ ?_
              · refine next_k ?_
                refine htxDone_keeps K (sub rfl hA) ?_
                · assumption
              · extract_lets +onlyGivenNames -merge -underBinder a15
                have ha15 : P a15.2 := by
                  refine enterWhole_keeps K (sub rfl hA) ?_
                  · assumption
                try clear_value a15
                refine next_k ?_
                refine htxDone_keeps K (sub rfl hA) ?_
                · assumption

theorem execSwDpSlip_keeps (K : Keeps P A) (hA : Sub 35187056445441 A) {lane repeated s} (h_s : P s) :
    Nx P (execSwDpSlip lane repeated s) := by
  unfold execSwDpSlip
  refine iteN_k ?_ ?_
  · extract_lets +onlyGivenNames -merge -underBinder s1 s2
    have hs1 : P s1 := by
      refine setF_k K 11 part_swDpStatusFill (sub rfl hA) ?_
      refine addSat_k K 11 part_swDpStatusSlips (sub rfl hA) ?_
      assumption
    try clear_value s1
    have hs2 : P s2 := by
      unfold s2
      split
      · refine ite_k ?_ ?_
        · refine State.setRx_keeps K (sub rfl hA) ?_
          assumption
        · assumption
      · assumption
    try clear_value s2
    refine next_k ?_
    refine raiseEv_keeps K (sub rfl hA) ?_
    assumption
  · refine next_k ?_
    assumption

theorem lagFollow_keeps (K : Keeps P A) (hA : Sub 35187056443393 A) {p s} (h_s : P s) :
    P (lagFollow p s) := by
  unfold lagFollow
  split
  · assumption
  · extract_lets +onlyGivenNames -merge -underBinder k1 was2 out3
    try clear_value k1
    try clear_value was2
    try clear_value out3
    refine ite_k ?_ ?_
    · assumption
    · extract_lets +onlyGivenNames -merge -underBinder s4
      try clear_value s4
      extract_lets +onlyGivenNames -merge -underBinder s5
      have hs5 : P s5 := by
        refine upd_sw K (sub rfl hA) ?_
        assumption
      try clear_value s5
      refine raiseEv_keeps K (sub rfl hA) ?_
      assumption

theorem egressFollow_keeps (K : Keeps P A) (hA : Sub 316662033170433 A) {p s} (h_s : P s) :
    P (egressFollow p s) := by
  unfold egressFollow
  refine foldl_k ?_ (fun s0 k0 hs0 => ?_)
  · refine lagFollow_keeps K (sub rfl hA) ?_
    assumption
  · refine ite_k ?_ ?_
    · refine showMerge_keeps K (sub rfl hA) ?_
      assumption
    · assumption

theorem halfSleeps_keeps (K : Keeps P A) (hA : Sub 8589934592 A) {h s} (h_s : P s) :
    P (halfSleeps h s) := by
  unfold halfSleeps
  refine ite_k ?_ ?_
  · assumption
  · refine upd_islands K (sub rfl hA) ?_
    assumption

theorem swPortForwardDo_keeps (K : Keeps P A) (hA : Sub 316670623107073 A) {c s} (h_s : P s) :
    P (swPortForwardDo c s).1 := by
  unfold swPortForwardDo
  extract_lets +onlyGivenNames -merge -underBinder p1 s2 s3 s4 w5 w6 w7 s8
  try clear_value p1
  have hs2 : P s2 := by
    refine setB_k K 11 part_swPortStatusCt (sub rfl hA) ?_
    refine setB_k K 11 part_swPortStatusL23Tx (sub rfl hA) ?_
    refine setB_k K 11 part_swPortStatusL23Rx (sub rfl hA) ?_
    assumption
  try clear_value s2
  have hs3 : P s3 := by
    refine setB_k K 11 part_swPortStatusL3 (sub rfl hA) ?_
    refine setB_k K 11 part_swPortStatusPtpTrap (sub rfl hA) ?_
    assumption
  try clear_value s3
  have hs4 : P s4 := by
    refine setF_k K 11 part_swPortStatusAccept (sub rfl hA) ?_
    refine setF_k K 11 part_swPortStatusPvid (sub rfl hA) ?_
    assumption
  try clear_value s4
  try clear_value w5
  try clear_value w6
  try clear_value w7
  try clear_value s8
  extract_lets +onlyGivenNames -merge -underBinder s9
  have hs9 : P s9 := by
    refine upd_sw K (sub rfl hA) ?_
    assumption
  try clear_value s9
  refine mk1_k ?_
  refine egressFollow_keeps K (sub rfl hA) ?_
  refine ite_k ?_ ?_
  · refine halfSleeps_keeps K (sub rfl hA) ?_
    assumption
  · assumption

theorem swPortForwardEffect_keeps (K : Keeps P A) (hA : Sub 316670623107073 A) {c s} (h_s : P s) :
    P (swPortForwardEffect c s).1 := by
  unfold swPortForwardEffect
  extract_lets +onlyGivenNames -merge -underBinder p1
  try clear_value p1
  refine ite1_k ?_ ?_
  · refine mk1_k ?_
    assumption
  · extract_lets +onlyGivenNames -merge -underBinder r2
    have hr2 : P r2.1 := by
      refine swPortForwardDo_keeps K (sub rfl hA) ?_
      assumption
    try clear_value r2
    refine mk1_k ?_
    assumption

theorem execSwPortForward_keeps (K : Keeps P A) (hA : Sub 4621009893809211397 A) {c s} (h_s : P s) :
    Nx P (execSwPortForward c s) := by
  unfold execSwPortForward
  refine runHeld_keeps K (sub rfl hA) ?_ ?_
  · intro _ _ hh
    refine swPortForwardEffect_keeps K (sub rfl hA) ?_
    assumption
  · assumption

theorem swSetVlanEffect_keeps (K : Keeps P A) (hA : Sub 35184372088832 A) {c s} (h_s : P s) :
    P (swSetVlanEffect c s).1 := by
  unfold swSetVlanEffect
  extract_lets +onlyGivenNames -merge -underBinder v1
  try clear_value v1
  refine mk1_k ?_
  refine upd_sw K (sub rfl hA) ?_
  assumption

theorem execSwSetVlan_keeps (K : Keeps P A) (hA : Sub 4620728409705676804 A) {c s} (h_s : P s) :
    Nx P (execSwSetVlan c s) := by
  unfold execSwSetVlan
  refine runCmd_keeps K (sub rfl hA) ?_ ?_
  · intro _ _ hh
    refine swSetVlanEffect_keeps K (sub rfl hA) ?_
    assumption
  · assumption

theorem swSetLagEffect_keeps (K : Keeps P A) (hA : Sub 35184372090880 A) {c s} (h_s : P s) :
    P (swSetLagEffect c s).1 := by
  unfold swSetLagEffect
  extract_lets +onlyGivenNames -merge -underBinder g1 old2 l3 s4 outs5 s6 s7 s8
  try clear_value g1
  try clear_value old2
  try clear_value l3
  try clear_value s4
  have houts5 : P outs5 := by
    refine upd_sw K (sub rfl hA) ?_
    assumption
  try clear_value outs5
  try clear_value s6
  try clear_value s7
  have hs8 : P s8 := by
    refine upd_sw K (sub rfl hA) ?_
    assumption
  try clear_value s8
  extract_lets +onlyGivenNames -merge -underBinder s9 s10
  have hs9 : P s9 := by
    refine foldl_k ?_ (fun s0 k0 hs0 => ?_)
    · assumption
    · refine setB_k K 11 part_swPortStatusLag (sub rfl hA) ?_
      assumption
  try clear_value s9
  have hs10 : P s10 := by
    refine foldl_k ?_ (fun s0 k0 hs0 => ?_)
    · assumption
    · refine setB_k K 11 part_swPortStatusLag (sub rfl hA) ?_
      assumption
  try clear_value s10
  refine mk1_k ?_
  assumption

theorem execSwSetLag_keeps (K : Keeps P A) (hA : Sub 4620728409705678852 A) {c s} (h_s : P s) :
    Nx P (execSwSetLag c s) := by
  unfold execSwSetLag
  refine runCmd_keeps K (sub rfl hA) ?_ ?_
  · intro _ _ hh
    refine swSetLagEffect_keeps K (sub rfl hA) ?_
    assumption
  · assumption

theorem swRuleWriteEffect_keeps (K : Keeps P A) (hA : Sub 144150372448468992 A) {c s} (h_s : P s) :
    P (swRuleWriteEffect c s).1 := by
  unfold swRuleWriteEffect
  extract_lets +onlyGivenNames -merge -underBinder i1 r2 src3 s4
  try clear_value i1
  try clear_value r2
  try clear_value src3
  have hs4 : P s4 := by
    refine upd_sw K (sub rfl hA) ?_
    assumption
  try clear_value s4
  refine mk1_k ?_
  refine foldl_k ?_ (fun s0 k0 hs0 => ?_)
  · assumption
  · refine mpWrite_keeps K (sub rfl hA) ?_
    · assumption

theorem execSwRuleWrite_keeps (K : Keeps P A) (hA : Sub 4764843597782056964 A) {c s} (h_s : P s) :
    Nx P (execSwRuleWrite c s) := by
  unfold execSwRuleWrite
  refine runCmd_keeps K (sub rfl hA) ?_ ?_
  · intro _ _ hh
    refine swRuleWriteEffect_keeps K (sub rfl hA) ?_
    assumption
  · assumption

theorem portDenied_keeps (K : Keeps P A) (hA : Sub 146334026969128963 A) {p s} (h_s : P s) :
    P (portDenied p s) := by
  unfold portDenied
  refine guardViolation_keeps K (sub rfl hA) ?_
  · assumption

theorem setHostTrim_keeps (K : Keeps P A) (hA : Sub 277562295297 A) {p n s} (h_s : P s) :
    P (setHostTrim p n s).2 := by
  unfold setHostTrim
  extract_lets +onlyGivenNames -merge -underBinder w1 restart2 src3 s4 s5
  try clear_value w1
  try clear_value restart2
  try clear_value src3
  have hs4 : P s4 := by
    refine setF_k K 10 part_sdsTrimWords (sub rfl hA) ?_
    refine State.setLane_keeps K (sub rfl hA) ?_
    · assumption
  try clear_value s4
  have hs5 : P s5 := by
    refine retarget_keeps K (sub rfl hA) ?_
    · assumption
  try clear_value s5
  refine mk2_k ?_
  refine showAlign_keeps K (sub rfl hA) ?_
  · refine ite_k ?_ ?_
    · refine requestRestart_keeps K (sub rfl hA) ?_
      · assumption
    · assumption

theorem dpRelease_keeps (K : Keeps P A) (hA : Sub 2048 A) {outs s} (h_s : P s) :
    P (dpRelease outs s) := by
  unfold dpRelease
  refine foldl_k ?_ (fun s0 k0 hs0 => ?_)
  · assumption
  · refine setB_k K 11 part_swPortStatusDpTx (sub rfl hA) ?_
    assumption

theorem directConnect_keeps (K : Keeps P A) (hA : Sub 277830732801 A) {c s} (h_s : P s) :
    P (directConnect c s).1 := by
  unfold directConnect
  extract_lets +onlyGivenNames -merge -underBinder i1 o2 was3 s4 s5 s6 s7 s8 d9
  try clear_value i1
  try clear_value o2
  try clear_value was3
  have hs4 : P s4 := by
    refine dpRelease_keeps K (sub rfl hA) ?_
    · assumption
  try clear_value s4
  have hs5 : P s5 := by
    refine setB_k K 11 part_swDpStatusInLock (sub rfl hA) ?_
    refine setF_k K 11 part_swDpStatusMode (sub rfl hA) ?_
    refine setB_k K 11 part_swDpStatusConn (sub rfl hA) ?_
    assumption
  try clear_value s5
  have hs6 : P s6 := by
    refine ite_k ?_ ?_
    · assumption
    · refine setF_k K 11 part_swDpStatusFill (sub rfl hA) ?_
      refine setF_k K 11 part_swDpStatusSlips (sub rfl hA) ?_
      assumption
  try clear_value s6
  have hs7 : P s7 := by
    refine setF_k K 11 part_swDpOut1 (sub rfl hA) ?_
    refine setF_k K 11 part_swDpOut0 (sub rfl hA) ?_
    assumption
  try clear_value s7
  have hs8 : P s8 := by
    refine foldl_k ?_ (fun s0 k0 hs0 => ?_)
    · refine setB_k K 11 part_swPortStatusDpRx (sub rfl hA) ?_
      assumption
    · refine setHostTrim_keeps K (sub rfl hA) ?_
      · refine setB_k K 11 part_swPortStatusDpTx (sub rfl hA) ?_
        assumption
  try clear_value s8
  have hd9 : P d9.2 := by
    refine State.draw_keeps K (sub rfl hA) ?_
    · assumption
  try clear_value d9
  refine mk1_k ?_
  assumption

theorem swDirectConnectEffect_keeps (K : Keeps P A) (hA : Sub 146334301847071747 A) {c s} (h_s : P s) :
    P (swDirectConnectEffect c s).1 := by
  unfold swDirectConnectEffect
  split
  · refine mk1_k ?_
    refine portDenied_keeps K (sub rfl hA) ?_
    · assumption
  · refine directConnect_keeps K (sub rfl hA) ?_
    · assumption

theorem execSwDirectConnect_keeps (K : Keeps P A) (hA : Sub 4767027520738208775 A) {c s} (h_s : P s) :
    Nx P (execSwDirectConnect c s) := by
  unfold execSwDirectConnect
  refine runCmd_keeps K (sub rfl hA) ?_ ?_
  · intro _ _ hh
    refine swDirectConnectEffect_keeps K (sub rfl hA) ?_
    assumption
  · assumption

theorem swDirectDisconnectEffect_keeps (K : Keeps P A) (hA : Sub 2048 A) {c s} (h_s : P s) :
    P (swDirectDisconnectEffect c s).1 := by
  unfold swDirectDisconnectEffect
  extract_lets +onlyGivenNames -merge -underBinder i1 s2 s3 s4
  try clear_value i1
  have hs2 : P s2 := by
    refine dpRelease_keeps K (sub rfl hA) ?_
    · assumption
  try clear_value s2
  have hs3 : P s3 := by
    refine setB_k K 11 part_swDpStatusInLock (sub rfl hA) ?_
    refine setB_k K 11 part_swDpStatusConn (sub rfl hA) ?_
    assumption
  try clear_value s3
  have hs4 : P s4 := by
    refine setF_k K 11 part_swDpStatusFill (sub rfl hA) ?_
    refine setF_k K 11 part_swDpOut1 (sub rfl hA) ?_
    refine setF_k K 11 part_swDpOut0 (sub rfl hA) ?_
    assumption
  try clear_value s4
  refine mk1_k ?_
  refine setB_k K 11 part_swPortStatusDpRx (sub rfl hA) ?_
  assumption

theorem execSwDirectDisconnect_keeps (K : Keeps P A) (hA : Sub 4620693225333590020 A) {c s} (h_s : P s) :
    Nx P (execSwDirectDisconnect c s) := by
  unfold execSwDirectDisconnect
  refine runCmd_keeps K (sub rfl hA) ?_ ?_
  · intro _ _ hh
    refine swDirectDisconnectEffect_keeps K (sub rfl hA) ?_
    assumption
  · assumption

end Sys2Proof.Machine
end

