-- ==== Sys2Proof/Laws/KeepBuffers.lean ====
section
/-! SUPPORT. What the operations of Sys2Proof/Machine/Buffers.lean keep (Sys2Proof/Laws/Keeps.lean): the mask in each lemma names the parts
of the state that the operation can touch. -/

set_option Elab.async false

namespace Sys2Proof.Machine

variable {P : State → Prop} {A : Nat}

theorem bfSetPoolEffect_keeps (K : Keeps P A) (hA : Sub 140740172718081 A) {c s} (h_s : P s) :
    P (bfSetPoolEffect c s).1 := by
  unfold bfSetPoolEffect
  extract_lets +onlyGivenNames -merge -underBinder s1
  have hs1 : P s1 := by
    refine setB_k K 13 part_bfPoolResEcnEn (sub rfl hA) ?_
    assumption
  try clear_value s1
  refine mk1_k ?_
  refine syncPool_keeps K (sub rfl hA) ?_
  · refine upd_bf K (sub rfl hA) ?_
    assumption

theorem execBfSetPool_keeps (K : Keeps P A) (hA : Sub 4620833963358822405 A) {c s} (h_s : P s) :
    Nx P (execBfSetPool c s) := by
  unfold execBfSetPool
  refine runCmd_keeps K (sub rfl hA) ?_ ?_
  · intro _ _ hh
    refine bfSetPoolEffect_keeps K (sub rfl hA) ?_
    assumption
  · assumption

theorem takePcps_keeps (K : Keeps P A) (hA : Sub 8192 A) {n q mask s} (h_s : P s) :
    P (takePcps n q mask s) := by
  unfold takePcps
  refine foldl_k ?_ (fun s0 k0 hs0 => ?_)
  · assumption
  · refine ite_k ?_ ?_
    · refine setF_k K 13 part_bfQCfgPcpMask (sub rfl hA) ?_
      assumption
    · refine setF_k K 13 part_bfQCfgPcpMask (sub rfl hA) ?_
      assumption

theorem bfSetQueueEffect_keeps (K : Keeps P A) (hA : Sub 140740172718081 A) {c s} (h_s : P s) :
    P (bfSetQueueEffect c s).1 := by
  unfold bfSetQueueEffect
  extract_lets +onlyGivenNames -merge -underBinder n1 q2 k3 s4 s5 s6 s7
  try clear_value n1
  try clear_value q2
  try clear_value k3
  have hs4 : P s4 := by
    refine setF_k K 13 part_bfPoolResMinSum (sub rfl hA) ?_
    assumption
  try clear_value s4
  have hs5 : P s5 := by
    refine setF_k K 13 part_bfQCfgMin (sub rfl hA) ?_
    refine setF_k K 13 part_bfQCfgAlpha (sub rfl hA) ?_
    refine setF_k K 13 part_bfQCfgWeight (sub rfl hA) ?_
    refine setF_k K 13 part_bfQLimMode (sub rfl hA) ?_
    assumption
  try clear_value s5
  have hs6 : P s6 := by
    refine ite_k ?_ ?_
    · assumption
    · refine takePcps_keeps K (sub rfl hA) ?_
      · assumption
  try clear_value s6
  have hs7 : P s7 := by
    refine setF_k K 13 part_bfQSpillSpillMax (sub rfl hA) ?_
    refine setF_k K 13 part_bfQEcnEcnAt (sub rfl hA) ?_
    refine setF_k K 13 part_bfQLimMax (sub rfl hA) ?_
    assumption
  try clear_value s7
  refine mk1_k ?_
  refine syncPool_keeps K (sub rfl hA) ?_
  · refine showMark_keeps K (sub rfl hA) ?_
    · assumption

theorem execBfSetQueue_keeps (K : Keeps P A) (hA : Sub 4620833963358822405 A) {c s} (h_s : P s) :
    Nx P (execBfSetQueue c s) := by
  unfold execBfSetQueue
  refine runCmd_keeps K (sub rfl hA) ?_ ?_
  · intro _ _ hh
    refine bfSetQueueEffect_keeps K (sub rfl hA) ?_
    assumption
  · assumption

theorem bfSetShaperEffect_keeps (K : Keeps P A) (hA : Sub 140737488363520 A) {c s} (h_s : P s) :
    P (bfSetShaperEffect c s).1 := by
  unfold bfSetShaperEffect
  extract_lets +onlyGivenNames -merge -underBinder k1 s2
  try clear_value k1
  have hs2 : P s2 := by
    refine setF_k K 13 part_bfShpBurst (sub rfl hA) ?_
    refine setF_k K 13 part_bfShpRate (sub rfl hA) ?_
    assumption
  try clear_value s2
  refine mk1_k ?_
  refine upd_bf K (sub rfl hA) ?_
  assumption

theorem execBfSetShaper_keeps (K : Keeps P A) (hA : Sub 4620833962821951492 A) {c s} (h_s : P s) :
    Nx P (execBfSetShaper c s) := by
  unfold execBfSetShaper
  refine runCmd_keeps K (sub rfl hA) ?_ ?_
  · intro _ _ hh
    refine bfSetShaperEffect_keeps K (sub rfl hA) ?_
    assumption
  · assumption

theorem bfMcastGroupEffect_keeps (K : Keeps P A) (hA : Sub 140737488355328 A) {c s} (h_s : P s) :
    P (bfMcastGroupEffect c s).1 := by
  unfold bfMcastGroupEffect
  extract_lets +onlyGivenNames -merge -underBinder l1 src2 s3
  try clear_value l1
  try clear_value src2
  have hs3 : P s3 := by
    refine upd_bf K (sub rfl hA) ?_
    assumption
  try clear_value s3
  refine mk1_k ?_
  assumption

theorem execBfMcastGroup_keeps (K : Keeps P A) (hA : Sub 4620833962821943300 A) {c s} (h_s : P s) :
    Nx P (execBfMcastGroup c s) := by
  unfold execBfMcastGroup
  refine runCmd_keeps K (sub rfl hA) ?_ ?_
  · intro _ _ hh
    refine bfMcastGroupEffect_keeps K (sub rfl hA) ?_
    assumption
  · assumption

theorem showSpill_keeps (K : Keeps P A) (hA : Sub 140737488363520 A) {s} (h_s : P s) :
    P (showSpill s) := by
  unfold showSpill
  extract_lets +onlyGivenNames -merge -underBinder l1 src2 s3 rate4
  try clear_value l1
  try clear_value src2
  have hs3 : P s3 := by
    refine upd_bf K (sub rfl hA) ?_
    assumption
  try clear_value s3
  try clear_value rate4
  refine setF_k K 13 part_bfSpillStatusRd (sub rfl hA) ?_
  refine setF_k K 13 part_bfSpillStatusWr (sub rfl hA) ?_
  assumption

theorem spillEvent_keeps (K : Keeps P A) (hA : Sub 2684354561 A) {state s} (h_s : P s) :
    P (spillEvent state s) := by
  unfold spillEvent
  refine raiseEv_keeps K (sub rfl hA) ?_
  · assumption

theorem spillOn_keeps (K : Keeps P A) (hA : Sub 140748762652673 A) {chs s} (h_s : P s) :
    P (spillOn chs s) := by
  unfold spillOn
  refine ite_k ?_ ?_
  · assumption
  · extract_lets +onlyGivenNames -merge -underBinder s1 s2 s3
    have hs1 : P s1 := by
      refine setB_k K 13 part_bfSpillStatusDraining (sub rfl hA) ?_
      refine setF_k K 13 part_bfSpillStatusChEn (sub rfl hA) ?_
      assumption
    try clear_value s1
    have hs2 : P s2 := by
      refine upd_islands K (sub rfl hA) ?_
      assumption
    try clear_value s2
    have hs3 : P s3 := by
      refine set64_k K 13 part_bfSpillCap_2 (sub rfl hA) ?_
      refine setB_k K 13 part_bfPoolResStage (sub rfl hA) ?_
      assumption
    try clear_value s3
    refine spillEvent_keeps K (sub rfl hA) ?_
    · refine syncPool_keeps K (sub rfl hA) ?_
      · assumption

theorem spillOff_keeps (K : Keeps P A) (hA : Sub 140748762652673 A) {s} (h_s : P s) :
    P (spillOff s) := by
  unfold spillOff
  refine ite_k ?_ ?_
  · assumption
  · extract_lets +onlyGivenNames -merge -underBinder s1 s2 s3
    have hs1 : P s1 := by
      refine setB_k K 13 part_bfSpillStatusDraining (sub rfl hA) ?_
      refine setF_k K 13 part_bfSpillStatusChEn (sub rfl hA) ?_
      assumption
    try clear_value s1
    have hs2 : P s2 := by
      refine upd_islands K (sub rfl hA) ?_
      assumption
    try clear_value s2
    have hs3 : P s3 := by
      refine set64_k K 13 part_bfSpillCap_2 (sub rfl hA) ?_
      refine setB_k K 13 part_bfSpillStatusStageFull (sub rfl hA) ?_
      refine setB_k K 13 part_bfPoolResStage (sub rfl hA) ?_
      assumption
    try clear_value s3
    refine spillEvent_keeps K (sub rfl hA) ?_
    · refine syncPool_keeps K (sub rfl hA) ?_
      · assumption

theorem spillFlush_keeps (K : Keeps P A) (hA : Sub 145208127062286337 A) {s} (h_s : P s) :
    P (spillFlush s).2 := by
  unfold spillFlush
  refine foldl_g (Q := fun r : _ × State => P r.2) ?_ (fun s0 k0 hs0 => ?_)
  · refine mk2_k ?_
    assumption
  · refine foldl_g (Q := fun r : _ × State => P r.2) ?_ (fun s0 k0 hs0 => ?_)
    · assumption
    · refine mk2_k ?_
      refine discardCopy_keeps K (sub rfl hA) ?_
      · assumption

theorem spillStep_keeps (K : Keeps P A) (hA : Sub 145208135652220929 A) {o s} (h_s : P s) :
    P (spillStep o s).1 := by
  unfold spillStep
  extract_lets +onlyGivenNames -merge -underBinder chs1
  try clear_value chs1
  refine ite1_k ?_ ?_
  · refine ite1_k ?_ ?_
    · refine mk1_k ?_
      assumption
    · extract_lets +onlyGivenNames -merge -underBinder s2
      have hs2 : P s2 := by
        refine spillOn_keeps K (sub rfl hA) ?_
        · assumption
      try clear_value s2
      refine mk1_k ?_
      assumption
  · refine ite1_k ?_ ?_
    · extract_lets +onlyGivenNames -merge -underBinder r3 s4
      have hr3 : P r3.2 := by
        refine spillFlush_keeps K (sub rfl hA) ?_
        · assumption
      try clear_value r3
      have hs4 : P s4 := by
        refine spillOff_keeps K (sub rfl hA) ?_
        · assumption
      try clear_value s4
      refine mk1_k ?_
      assumption
    · refine ite1_k ?_ ?_
      · extract_lets +onlyGivenNames -merge -underBinder s5
        have hs5 : P s5 := by
          refine spillOff_keeps K (sub rfl hA) ?_
          · assumption
        try clear_value s5
        refine mk1_k ?_
        assumption
      · refine mk1_k ?_
        refine ite_k ?_ ?_
        · assumption
        · refine spillEvent_keeps K (sub rfl hA) ?_
          · refine setB_k K 13 part_bfSpillStatusDraining (sub rfl hA) ?_
            assumption

theorem execBfSpillEnable_keeps (K : Keeps P A) (hA : Sub 4765901354543357957 A) {c s} (h_s : P s) :
    Nx P (execBfSpillEnable c s) := by
  unfold execBfSpillEnable
  refine runStepped_keeps K (sub rfl hA) ?_ ?_
  · intro _ _ hh
    refine spillStep_keeps K (sub rfl hA) ?_
    assumption
  · assumption

theorem swapCopy_keeps (K : Keeps P A) (hA : Sub 140737488355328 A) {k a b s} (h_s : P s) :
    P (swapCopy k a b s) := by
  unfold swapCopy
  refine State.setBq_keeps K (sub rfl hA) ?_
  · assumption

theorem engineMoves_keeps (K : Keeps P A) (hA : Sub 140737488355328 A) {rd n s} (h_s : P s) :
    P (engineMoves rd n s) := by
  unfold engineMoves
  extract_lets +onlyGivenNames -merge -underBinder ch1
  try clear_value ch1
  refine upd_bf K (sub rfl hA) ?_
  assumption

theorem execSpillWrite_keeps (K : Keeps P A) (hA : Sub 145208127062286337 A) {queue s} (h_s : P s) :
    Nx P (execSpillWrite queue s) := by
  unfold execSpillWrite
  split
  · refine next_k ?_
    assumption
  · split
    · refine next_k ?_
      assumption
    · refine iteN_k ?_ ?_
      · refine next_k ?_
        assumption
      · extract_lets +onlyGivenNames -merge -underBinder n1 used2 a3 s4 s5 s6 s7 s8 s9
        try clear_value n1
        try clear_value used2
        have ha3 : P a3.2 := by
          refine allocate_keeps K (sub rfl hA) ?_
          assumption
        try clear_value a3
        have hs4 : P s4 := by
          refine writeCells_keeps K (sub rfl hA) ?_
          assumption
        try clear_value s4
        have hs5 : P s5 := by
          refine swapCopy_keeps K (sub rfl hA) ?_
          assumption
        try clear_value s5
        try clear_value s6
        have hs7 : P s7 := by
          refine engineMoves_keeps K (sub rfl hA) ?_
          refine upd_bf K (sub rfl hA) ?_
          assumption
        try clear_value s7
        have hs8 : P s8 := by
          refine setB_k K 13 part_bfSpillStatusStageFull (sub rfl hA) ?_
          assumption
        try clear_value s8
        have hs9 : P s9 := by
          refine count_keeps K (sub rfl hA) ?_
          refine addDocc_keeps K (sub rfl hA) ?_
          assumption
        try clear_value s9
        extract_lets +onlyGivenNames -merge -underBinder s10
        have hs10 : P s10 := by
          refine ite_k ?_ ?_
          · assumption
          · refine syncPool_keeps K (sub rfl hA) ?_
            refine State.setPoolFrame_keeps K (sub rfl hA) ?_
            assumption
        try clear_value s10
        refine next_k ?_
        refine showSpill_keeps K (sub rfl hA) ?_
        assumption

theorem execSpillReadback_keeps (K : Keeps P A) (hA : Sub 145208127062286337 A) {queue s} (h_s : P s) :
    Nx P (execSpillReadback queue s) := by
  unfold execSpillReadback
  split
  · refine next_k ?_
    assumption
  · refine iteN_k ?_ ?_
    · refine next_k ?_
      assumption
    · extract_lets +onlyGivenNames -merge -underBinder n1 s2
      try clear_value n1
      have hs2 : P s2 := by
        refine readWords_keeps K (sub rfl hA) ?_
        assumption
      try clear_value s2
      split
      · refine next_k ?_
        assumption
      · extract_lets +onlyGivenNames -merge -underBinder a3 s4 shared5 s6 s7 s8 s9 s10
        have ha3 : P a3.2 := by
          refine ite2_k ?_ ?_
          · refine allocate_keeps K (sub rfl hA) ?_
            assumption
          · refine mk2_k ?_
            assumption
        try clear_value a3
        have hs4 : P s4 := by
          refine ite_k ?_ ?_
          · refine writeCells_keeps K (sub rfl hA) ?_
            refine writeCells_keeps K (sub rfl hA) ?_
            assumption
          · assumption
        try clear_value s4
        try clear_value shared5
        have hs6 : P s6 := by
          refine State.setPoolFrame_keeps K (sub rfl hA) ?_
          assumption
        try clear_value s6
        have hs7 : P s7 := by
          refine swapCopy_keeps K (sub rfl hA) ?_
          assumption
        try clear_value s7
        have hs8 : P s8 := by
          refine addOcc_keeps K (sub rfl hA) ?_
          refine addDocc_keeps K (sub rfl hA) ?_
          assumption
        try clear_value s8
        have hs9 : P s9 := by
          refine engineMoves_keeps K (sub rfl hA) ?_
          assumption
        try clear_value s9
        have hs10 : P s10 := by
          refine ite_k ?_ ?_
          · assumption
          · refine setB_k K 13 part_bfQStatusSpilling (sub rfl hA) ?_
            assumption
        try clear_value s10
        refine next_k ?_
        refine showSpill_keeps K (sub rfl hA) ?_
        refine syncPool_keeps K (sub rfl hA) ?_
        assumption

theorem execSpillDrainDone_keeps (K : Keeps P A) (hA : Sub 140748762652673 A) {s} (h_s : P s) :
    Nx P (execSpillDrainDone s) := by
  unfold execSpillDrainDone
  refine iteN_k ?_ ?_
  · refine next_k ?_
    refine spillOff_keeps K (sub rfl hA) ?_
    · assumption
  · refine next_k ?_
    assumption

theorem spillCancel_keeps (K : Keeps P A) (hA : Sub 2684362753 A) {s} (h_s : P s) :
    P (spillCancel s) := by
  unfold spillCancel
  refine ite_k ?_ ?_
  · refine spillEvent_keeps K (sub rfl hA) ?_
    · refine setB_k K 13 part_bfSpillStatusDraining (sub rfl hA) ?_
      assumption
  · assumption

end Sys2Proof.Machine
end

