-- ==== Sys2Proof/Laws/KeepCounters.lean ====
section
/-! SUPPORT. What the operations of Sys2Proof/Machine/Counters.lean keep (Sys2Proof/Laws/Keeps.lean): the mask in each lemma names the parts
of the state that the operation can touch. -/

set_option Elab.async false

namespace Sys2Proof.Machine

variable {P : State → Prop} {A : Nat}

theorem clearOvf_keeps (K : Keeps P A) (hA : Sub 262144 A) {a b s} (h_s : P s) :
    P (clearOvf a b s) := by
  unfold clearOvf
  refine foldl_k ?_ (fun s0 k0 hs0 => ?_)
  · assumption
  · refine ite_k ?_ ?_
    · assumption
    · extract_lets +onlyGivenNames -merge -underBinder f1
      refine setF_k K 18 part_ctOvf (sub rfl hA) ?_
      assumption

theorem touchCounters_keeps (K : Keeps P A) (hA : Sub 145208127062286337 A) {a b reads written s} (h_s : P s) :
    P (touchCounters a b reads written s) := by
  unfold touchCounters
  refine ite_k ?_ ?_
  · assumption
  · refine foldl_k ?_ (fun s0 k0 hs0 => ?_)
    · assumption
    · extract_lets +onlyGivenNames -merge -underBinder s1
      have hs1 : P s1 := by
        refine ite_k ?_ ?_
        · refine mpRead_keeps K (sub rfl hA) ?_
          · assumption
        · assumption
      try clear_value s1
      refine ite_k ?_ ?_
      · refine mpWrite_keeps K (sub rfl hA) ?_
        · assumption
      · assumption

theorem ctClearEffect_keeps (K : Keeps P A) (hA : Sub 145208127062286337 A) {c s} (h_s : P s) :
    P (ctClearEffect c s).1 := by
  unfold ctClearEffect
  extract_lets +onlyGivenNames -merge -underBinder a1 b2 t3 ovfOnly4 s5 buf6 s7
  try clear_value a1
  try clear_value b2
  try clear_value t3
  try clear_value ovfOnly4
  have hs5 : P s5 := by
    refine touchCounters_keeps K (sub rfl hA) ?_
    assumption
  try clear_value s5
  try clear_value buf6
  have hs7 : P s7 := by
    refine ite_k ?_ ?_
    · assumption
    · refine touchCounters_keeps K (sub rfl hA) ?_
      refine upd_counters K (sub rfl hA) ?_
      assumption
  try clear_value s7
  refine mk1_k ?_
  refine clearOvf_keeps K (sub rfl hA) ?_
  assumption

theorem execCtClear_keeps (K : Keeps P A) (hA : Sub 4765901345953423365 A) {c s} (h_s : P s) :
    Nx P (execCtClear c s) := by
  unfold execCtClear
  refine runCmd_keeps K (sub rfl hA) ?_ ?_
  · intro _ _ hh
    refine ctClearEffect_keeps K (sub rfl hA) ?_
    assumption
  · assumption

theorem ctPresetEffect_keeps (K : Keeps P A) (hA : Sub 145208127062286337 A) {c s} (h_s : P s) :
    P (ctPresetEffect c s).1 := by
  unfold ctPresetEffect
  extract_lets +onlyGivenNames -merge -underBinder k1 t2 s3 old4 s5
  try clear_value k1
  try clear_value t2
  have hs3 : P s3 := by
    refine touchCounters_keeps K (sub rfl hA) ?_
    assumption
  try clear_value s3
  try clear_value old4
  have hs5 : P s5 := by
    refine clearOvf_keeps K (sub rfl hA) ?_
    refine touchCounters_keeps K (sub rfl hA) ?_
    refine upd_counters K (sub rfl hA) ?_
    assumption
  try clear_value s5
  refine mk1_k ?_
  assumption

theorem execCtPreset_keeps (K : Keeps P A) (hA : Sub 4765901345953423365 A) {c s} (h_s : P s) :
    Nx P (execCtPreset c s) := by
  unfold execCtPreset
  refine runCmd_keeps K (sub rfl hA) ?_ ?_
  · intro _ _ hh
    refine ctPresetEffect_keeps K (sub rfl hA) ?_
    assumption
  · assumption

theorem ctSetThresholdEffect_keeps (K : Keeps P A) (hA : Sub 36028797019226112 A) {c s} (h_s : P s) :
    P (ctSetThresholdEffect c s).1 := by
  unfold ctSetThresholdEffect
  extract_lets +onlyGivenNames -merge -underBinder x1 y2
  try clear_value x1
  try clear_value y2
  refine ite1_k ?_ ?_
  · extract_lets +onlyGivenNames -merge -underBinder u3
    try clear_value u3
    refine mk1_k ?_
    refine setF_k K 18 part_ctThN (sub rfl hA) ?_
    refine setF_k K 18 part_ctThCfgIndex (sub rfl hA) ?_
    refine setF_k K 18 part_ctThCfgSrcKind (sub rfl hA) ?_
    assumption
  · extract_lets +onlyGivenNames -merge -underBinder t4 s5
    try clear_value t4
    have hs5 : P s5 := by
      refine setF_k K 18 part_ctBwShort (sub rfl hA) ?_
      refine setF_k K 18 part_ctBwLong (sub rfl hA) ?_
      assumption
    try clear_value s5
    refine mk1_k ?_
    refine upd_bwFrom K (sub rfl hA) ?_
    assumption

theorem execCtSetThreshold_keeps (K : Keeps P A) (hA : Sub 4656722022352814084 A) {c s} (h_s : P s) :
    Nx P (execCtSetThreshold c s) := by
  unfold execCtSetThreshold
  refine runCmd_keeps K (sub rfl hA) ?_ ?_
  · intro _ _ hh
    refine ctSetThresholdEffect_keeps K (sub rfl hA) ?_
    assumption
  · assumption

theorem ctWindowMapEffect_keeps (K : Keeps P A) (hA : Sub 262144 A) {c s} (h_s : P s) :
    P (ctWindowMapEffect c s).1 := by
  unfold ctWindowMapEffect
  refine mk1_k ?_
  refine foldl_k ?_ (fun s0 k0 hs0 => ?_)
  · assumption
  · extract_lets +onlyGivenNames -merge -underBinder v1 k2
    try clear_value v1
    try clear_value k2
    refine setF_k K 18 part_ctWinMapIndex (sub rfl hA) ?_
    refine setB_k K 18 part_ctWinMapEn (sub rfl hA) ?_
    assumption

theorem execCtWindowMap_keeps (K : Keeps P A) (hA : Sub 4620693225333850116 A) {c s} (h_s : P s) :
    Nx P (execCtWindowMap c s) := by
  unfold execCtWindowMap
  refine runCmd_keeps K (sub rfl hA) ?_ ?_
  · intro _ _ hh
    refine ctWindowMapEffect_keeps K (sub rfl hA) ?_
    assumption
  · assumption

theorem ctLatencySampleEffect_keeps (K : Keeps P A) (hA : Sub 18014398509744128 A) {c s} (h_s : P s) :
    P (ctLatencySampleEffect c s).1 := by
  unfold ctLatencySampleEffect
  extract_lets +onlyGivenNames -merge -underBinder k1 s2 s3 s4 s5
  try clear_value k1
  have hs2 : P s2 := by
    refine setF_k K 18 part_ctLsCfgEgress (sub rfl hA) ?_
    refine setB_k K 18 part_ctLsCfgDp (sub rfl hA) ?_
    refine setB_k K 18 part_ctLsCfgEn (sub rfl hA) ?_
    assumption
  try clear_value s2
  have hs3 : P s3 := by
    refine setF_k K 18 part_ctLsIn1 (sub rfl hA) ?_
    refine setF_k K 18 part_ctLsIn0 (sub rfl hA) ?_
    refine setF_k K 18 part_ctLsN (sub rfl hA) ?_
    assumption
  try clear_value s3
  have hs4 : P s4 := by
    refine upd_ctSeen K (sub rfl hA) ?_
    assumption
  try clear_value s4
  have hs5 : P s5 := by
    refine ite_k ?_ ?_
    · refine set64_k K 18 part_ctLsMax_2 (sub rfl hA) ?_
      refine set64_k K 18 part_ctLsMin_2 (sub rfl hA) ?_
      refine set64_k K 18 part_ctLsSum_2 (sub rfl hA) ?_
      refine set64_k K 18 part_ctLsCount_2 (sub rfl hA) ?_
      assumption
    · assumption
  try clear_value s5
  refine mk1_k ?_
  refine ite_k ?_ ?_
  · refine set64_k K 18 part_ctLsLast_2 (sub rfl hA) ?_
    assumption
  · assumption

theorem execCtLatencySample_keeps (K : Keeps P A) (hA : Sub 4638707623843332100 A) {c s} (h_s : P s) :
    Nx P (execCtLatencySample c s) := by
  unfold execCtLatencySample
  refine runCmd_keeps K (sub rfl hA) ?_ ?_
  · intro _ _ hh
    refine ctLatencySampleEffect_keeps K (sub rfl hA) ?_
    assumption
  · assumption

theorem execBwWindowEnd_keeps (K : Keeps P A) (hA : Sub 72057594038190080 A) {port dir octets peak slot s} (h_s : P s) :
    Nx P (execBwWindowEnd port dir octets peak slot s) := by
  unfold execBwWindowEnd
  extract_lets +onlyGivenNames -merge -underBinder k1 long2 short3 fin4
  try clear_value k1
  try clear_value long2
  try clear_value short3
  try clear_value fin4
  refine iteN_k ?_ ?_
  · refine next_k ?_
    assumption
  · extract_lets +onlyGivenNames -merge -underBinder s5 s6
    have hs5 : P s5 := by
      refine setF_k K 18 part_ctBwPeak (sub rfl hA) ?_
      refine set64_k K 18 part_ctBwBytes_2 (sub rfl hA) ?_
      assumption
    try clear_value s5
    have hs6 : P s6 := by
      refine set64_k K 18 part_ctBwPeakAt_2 (sub rfl hA) ?_
      assumption
    try clear_value s6
    refine next_k ?_
    extract_lets +onlyGivenNames -merge -underBinder src7
    have hsrc7 : P src7 := by
      refine addWrap_k K 18 part_ctBwSeq (sub rfl hA) ?_
      assumption
    try clear_value src7
    refine upd_bwEnds K (sub rfl hA) ?_
    assumption

theorem thresholdTick_keeps (K : Keeps P A) (hA : Sub 145208127062286337 A) {s} (h_s : P s) :
    P (thresholdTick s) := by
  unfold thresholdTick
  refine foldl_k ?_ (fun s0 k0 hs0 => ?_)
  · assumption
  · refine ite_k ?_ ?_
    · refine count_keeps K (sub rfl hA) ?_
      · assumption
    · assumption

end Sys2Proof.Machine
end

