-- ==== Sys2Proof/Laws/KeepOutputs.lean ====
section
/-! SUPPORT. What the operations of Sys2Proof/Machine/Outputs.lean keep (Sys2Proof/Laws/Keeps.lean): the mask in each lemma names the parts
of the state that the operation can touch. -/

set_option Elab.async false

namespace Sys2Proof.Machine

variable {P : State → Prop} {A : Nat}

theorem outSquelch_keeps (K : Keeps P A) (hA : Sub 4398046511104 A) {n s} (h_s : P s) :
    P (outSquelch n s) := by
  unfold outSquelch
  extract_lets +onlyGivenNames -merge -underBinder o1
  try clear_value o1
  refine ite_k ?_ ?_
  · refine State.setOut_keeps K (sub rfl hA) ?_
    · assumption
  · refine ite_k ?_ ?_
    · refine State.setOut_keeps K (sub rfl hA) ?_
      · assumption
    · refine ite_k ?_ ?_
      · refine State.setOut_keeps K (sub rfl hA) ?_
        · assumption
      · assumption

theorem stopEdge_keeps (K : Keeps P A) (hA : Sub 4398046511104 A) {n s} (h_s : P s) :
    P (stopEdge n s) := by
  unfold stopEdge
  extract_lets +onlyGivenNames -merge -underBinder w1 u2 fall3
  try clear_value w1
  try clear_value u2
  try clear_value fall3
  refine State.setOut_keeps K (sub rfl hA) ?_
  assumption

theorem restartEdge_keeps (K : Keeps P A) (hA : Sub 4398046511104 A) {n s} (h_s : P s) :
    P (restartEdge n s) := by
  unfold restartEdge
  extract_lets +onlyGivenNames -merge -underBinder w1 o2 fall3 rest4 u5 free6 u17
  try clear_value w1
  try clear_value o2
  try clear_value fall3
  try clear_value rest4
  try clear_value u5
  try clear_value free6
  try clear_value u17
  refine State.setOut_keeps K (sub rfl hA) ?_
  assumption

theorem placeEdge_keeps (K : Keeps P A) (hA : Sub 4398046511104 A) {n old v s} (h_s : P s) :
    P (placeEdge n old v s) := by
  unfold placeEdge
  extract_lets +onlyGivenNames -merge -underBinder runs1
  try clear_value runs1
  refine ite_k ?_ ?_
  · refine State.setOut_keeps K (sub rfl hA) ?_
    assumption
  · refine ite_k ?_ ?_
    · refine restartEdge_keeps K (sub rfl hA) ?_
      assumption
    · refine ite_k ?_ ?_
      · refine stopEdge_keeps K (sub rfl hA) ?_
        assumption
      · assumption

theorem outSet_keeps (K : Keeps P A) (hA : Sub 4400730865697 A) {n v s} (h_s : P s) :
    P (outSet n v s) := by
  unfold outSet
  extract_lets +onlyGivenNames -merge -underBinder old1
  try clear_value old1
  refine ite_k ?_ ?_
  · assumption
  · extract_lets +onlyGivenNames -merge -underBinder s2 s3
    have hs2 : P s2 := by
      refine placeEdge_keeps K (sub rfl hA) ?_
      assumption
    try clear_value s2
    have hs3 : P s3 := by
      refine ite_k ?_ ?_
      · refine setF_k K 5 part_plOutStatusState (sub rfl hA) ?_
        assumption
      · refine setF_k K 5 part_plPpsStatusState (sub rfl hA) ?_
        assumption
    try clear_value s3
    refine raiseEv_keeps K (sub rfl hA) ?_
    assumption

theorem outRefresh_keeps (K : Keeps P A) (hA : Sub 4400730865697 A) {n s} (h_s : P s) :
    P (outRefresh n s) := by
  unfold outRefresh
  extract_lets +onlyGivenNames -merge -underBinder s1
  have hs1 : P s1 := by
    refine outSquelch_keeps K (sub rfl hA) ?_
    · assumption
  try clear_value s1
  refine outSet_keeps K (sub rfl hA) ?_
  · assumption

theorem outsRefresh_keeps (K : Keeps P A) (hA : Sub 4400730865697 A) {s} (h_s : P s) :
    P (outsRefresh s) := by
  unfold outsRefresh
  refine foldl_k ?_ (fun s0 k0 hs0 => ?_)
  · assumption
  · refine outRefresh_keeps K (sub rfl hA) ?_
    · assumption

theorem outsRestart_keeps (K : Keeps P A) (hA : Sub 4400730865697 A) {s} (h_s : P s) :
    P (outsRestart s) := by
  unfold outsRestart
  refine ite_k ?_ ?_
  · refine outsRefresh_keeps K (sub rfl hA) ?_
    · refine foldl_k ?_ (fun s0 k0 hs0 => ?_)
      · assumption
      · refine ite_k ?_ ?_
        · refine State.setOut_keeps K (sub rfl hA) ?_
          · assumption
        · assumption
  · refine outsRefresh_keeps K (sub rfl hA) ?_
    · assumption

theorem setPhaseOf_keeps (K : Keeps P A) (hA : Sub 4398046511104 A) {n phase step running s} (h_s : P s) :
    P (setPhaseOf n phase step running s) := by
  unfold setPhaseOf
  extract_lets +onlyGivenNames -merge -underBinder o1
  try clear_value o1
  refine ite_k ?_ ?_
  · refine State.setOut_keeps K (sub rfl hA) ?_
    assumption
  · refine ite_k ?_ ?_
    · refine State.setOut_keeps K (sub rfl hA) ?_
      assumption
    · extract_lets +onlyGivenNames -merge -underBinder t2 e3
      try clear_value t2
      try clear_value e3
      refine State.setOut_keeps K (sub rfl hA) ?_
      assumption

theorem outPhases_keeps (K : Keeps P A) (hA : Sub 4432406249480 A) {m s} (h_s : P s) :
    P (outPhases m s) := by
  unfold outPhases
  extract_lets +onlyGivenNames -merge -underBinder s1
  have hs1 : P s1 := by
    refine foldl_k ?_ (fun s0 k0 hs0 => ?_)
    · assumption
    · extract_lets +onlyGivenNames -merge -underBinder o2
      try clear_value o2
      refine ite_k ?_ ?_
      · assumption
      · refine State.setOut_keeps K (sub rfl hA) ?_
        · assumption
  try clear_value s1
  refine ite_k ?_ ?_
  · split
    · extract_lets +onlyGivenNames -merge -underBinder o'3 src4
      try clear_value o'3
      have hsrc4 : P src4 := by
        refine setI64_k K 3 part_tbOutOffset_2 (sub rfl hA) ?_
        assumption
      try clear_value src4
      refine upd_tb K (sub rfl hA) ?_
      assumption
    · refine setI64_k K 3 part_tbOutOffset_2 (sub rfl hA) ?_
      assumption
  · assumption

theorem tstatFollow_keeps (K : Keeps P A) (hA : Sub 2199023255552 A) {s} (h_s : P s) :
    P (tstatFollow s) := by
  unfold tstatFollow
  extract_lets +onlyGivenNames -merge -underBinder v1
  try clear_value v1
  refine ite_k ?_ ?_
  · refine upd_refs K (sub rfl hA) ?_
    assumption
  · refine ite_k ?_ ?_
    · refine upd_refs K (sub rfl hA) ?_
      assumption
    · refine upd_refs K (sub rfl hA) ?_
      assumption

theorem execTstatHoldExpiry_keeps (K : Keeps P A) (hA : Sub 2199023255552 A) {s} (h_s : P s) :
    Nx P (execTstatHoldExpiry s) := by
  unfold execTstatHoldExpiry
  split
  · refine next_k ?_
    assumption
  · refine iteN_k ?_ ?_
    · refine next_k ?_
      refine upd_refs K (sub rfl hA) ?_
      assumption
    · refine next_k ?_
      assumption

theorem execSquelchRelease_keeps (K : Keeps P A) (hA : Sub 4400730865697 A) {out s} (h_s : P s) :
    Nx P (execSquelchRelease out s) := by
  unfold execSquelchRelease
  extract_lets +onlyGivenNames -merge -underBinder o1
  try clear_value o1
  split
  · refine iteN_k ?_ ?_
    · refine next_k ?_
      refine outRefresh_keeps K (sub rfl hA) ?_
      · refine State.setOut_keeps K (sub rfl hA) ?_
        · assumption
    · refine next_k ?_
      assumption
  · refine next_k ?_
    assumption

end Sys2Proof.Machine
end

