-- ==== Sys2Proof/Laws/KeepReferences.lean ====
section
/-! SUPPORT. What the operations of Sys2Proof/Machine/References.lean keep (Sys2Proof/Laws/Keeps.lean): the mask in each lemma names the parts
of the state that the operation can touch. -/

set_option Elab.async false

namespace Sys2Proof.Machine

variable {P : State → Prop} {A : Nat}

theorem State.setCand_keeps (K : Keeps P A) (hA : Sub 2199023255552 A) {s i c} (h_s : P s) :
    P (State.setCand s i c) := by
  unfold State.setCand
  refine upd_refs K (sub rfl hA) ?_
  assumption

theorem State.setRd_keeps (K : Keeps P A) (hA : Sub 2199023255552 A) {s d x} (h_s : P s) :
    P (State.setRd s d x) := by
  unfold State.setRd
  refine ite_k ?_ ?_
  · refine upd_refs K (sub rfl hA) ?_
    assumption
  · refine upd_refs K (sub rfl hA) ?_
    assumption

theorem showBound_keeps (K : Keeps P A) (hA : Sub 1128099198533656 A) {d st s} (h_s : P s) :
    P (showBound d st s) := by
  unfold showBound
  extract_lets +onlyGivenNames -merge -underBinder e1 src2 s3 s4 q6 s7 s8
  try clear_value e1
  try clear_value src2
  have hs3 : P s3 := by
    refine State.setRd_keeps K (sub rfl hA) ?_
    · assumption
  try clear_value s3
  have hs4 : P s4 := by
    try unfold s4
    split
    · refine set64_k K 4 part_rsDBound_2 (sub rfl hA) ?_
      assumption
    · extract_lets +onlyGivenNames -merge -underBinder f5
      have hf5 : P f5.2 := by
        refine State.draw_keeps K (sub rfl hA) ?_
        · assumption
      try clear_value f5
      refine set64_k K 4 part_rsDBound_2 (sub rfl hA) ?_
      assumption
  try clear_value s4
  try clear_value q6
  have hs7 : P s7 := by
    refine setF_k K 3 part_tbDStatusQc (sub rfl hA) ?_
    assumption
  try clear_value s7
  have hs8 : P s8 := by
    refine setF_k K 4 part_rsDSelQc (sub rfl hA) ?_
    assumption
  try clear_value s8
  refine ite_k ?_ ?_
  · refine noteQuality_keeps K (sub rfl hA) ?_
    · assumption
  · assumption

theorem checkMinute_keeps (K : Keeps P A) (hA : Sub 2199023255552 A) {d s} (h_s : P s) :
    P (checkMinute d s) := by
  unfold checkMinute
  refine ite_k ?_ ?_
  · assumption
  · refine State.setRd_keeps K (sub rfl hA) ?_
    · assumption

theorem setQc_keeps (K : Keeps P A) (hA : Sub 146338425015640121 A) {d st cause s} (h_s : P s) :
    P (setQc d st cause s) := by
  unfold setQc
  extract_lets +onlyGivenNames -merge -underBinder old1
  try clear_value old1
  refine ite_k ?_ ?_
  · refine checkMinute_keeps K (sub rfl hA) ?_
    assumption
  · extract_lets +onlyGivenNames -merge -underBinder ho2 s3 s4 s5 s6
    try clear_value ho2
    try clear_value s3
    have hs4 : P s4 := by
      refine State.setRd_keeps K (sub rfl hA) ?_
      assumption
    try clear_value s4
    have hs5 : P s5 := by
      refine checkMinute_keeps K (sub rfl hA) ?_
      refine showBound_keeps K (sub rfl hA) ?_
      assumption
    try clear_value s5
    have hs6 : P s6 := by
      refine raiseEv_keeps K (sub rfl hA) ?_
      assumption
    try clear_value s6
    extract_lets +onlyGivenNames -merge -underBinder s7
    have hs7 : P s7 := by
      refine evdSend_keeps K (sub rfl hA) ?_
      assumption
    try clear_value s7
    refine ite_k ?_ ?_
    · refine tstatFollow_keeps K (sub rfl hA) ?_
      refine outsRefresh_keeps K (sub rfl hA) ?_
      refine raiseBit_k K 0 part_hstIrqStatusQcChg (sub rfl hA) ?_
      assumption
    · assumption

theorem setNtw_keeps (K : Keeps P A) (hA : Sub 2684354593 A) {v s} (h_s : P s) :
    P (setNtw v s) := by
  unfold setNtw
  extract_lets +onlyGivenNames -merge -underBinder w1 s2
  try clear_value w1
  have hs2 : P s2 := by
    refine ite_k ?_ ?_
    · assumption
    · refine raiseEv_keeps K (sub rfl hA) ?_
      · assumption
  try clear_value s2
  refine setI64_k K 5 part_plNtw_2 (sub rfl hA) ?_
  assumption

theorem rebaseLoop_keeps (K : Keeps P A) (hA : Sub 34359738368 A) {d v s} (h_s : P s) :
    P (rebaseLoop d v s) := by
  unfold rebaseLoop
  refine State.setDom_keeps K (sub rfl hA) ?_
  assumption

theorem setServoRate_keeps (K : Keeps P A) (hA : Sub 34359738376 A) {d r s} (h_s : P s) :
    P (setServoRate d r s) := by
  unfold setServoRate
  extract_lets +onlyGivenNames -merge -underBinder s1
  try clear_value s1
  extract_lets +onlyGivenNames -merge -underBinder s2
  have hs2 : P s2 := by
    refine State.setDom_keeps K (sub rfl hA) ?_
    assumption
  try clear_value s2
  refine setRate_keeps K (sub rfl hA) ?_
  assumption

theorem takeFreq_keeps (K : Keeps P A) (hA : Sub 37044092969 A) {d h s} (h_s : P s) :
    P (takeFreq d h s) := by
  unfold takeFreq
  refine ite_k ?_ ?_
  · refine rebaseLoop_keeps K (sub rfl hA) ?_
    refine setNtw_keeps K (sub rfl hA) ?_
    assumption
  · refine rebaseLoop_keeps K (sub rfl hA) ?_
    refine setServoRate_keeps K (sub rfl hA) ?_
    assumption

theorem readLarder_keeps (K : Keeps P A) (hA : Sub 145208127062286337 A) {ks s} (h_s : P s) :
    P (readLarder ks s) := by
  unfold readLarder
  refine ite_k ?_ ?_
  · assumption
  · refine foldl_k ?_ (fun s0 k0 hs0 => ?_)
    · assumption
    · refine foldl_k ?_ (fun s0 k0 hs0 => ?_)
      · assumption
      · refine mpRead_keeps K (sub rfl hA) ?_
        assumption

theorem readWindow_keeps (K : Keeps P A) (hA : Sub 145208127062286337 A) {d s} (h_s : P s) :
    P (readWindow d s) := by
  unfold readWindow
  refine readLarder_keeps K (sub rfl hA) ?_
  assumption

theorem showWindow_keeps (K : Keeps P A) (hA : Sub 145208127062286353 A) {d s} (h_s : P s) :
    P (showWindow d s) := by
  unfold showWindow
  extract_lets +onlyGivenNames -merge -underBinder s1 m2 s3 s4
  have hs1 : P s1 := by
    refine readWindow_keeps K (sub rfl hA) ?_
    assumption
  try clear_value s1
  try clear_value m2
  have hs3 : P s3 := by
    refine setB_k K 4 part_rsDSelHoWindow (sub rfl hA) ?_
    assumption
  try clear_value s3
  have hs4 : P s4 := by
    refine setF_k K 4 part_rsDSelHoEntries (sub rfl hA) ?_
    assumption
  try clear_value s4
  split
  · refine setI64_k K 4 part_rsDHoFfo_2 (sub rfl hA) ?_
    assumption
  · assumption

theorem enterHoldover_keeps (K : Keeps P A) (hA : Sub 146338459375378489 A) {d cause s} (h_s : P s) :
    P (enterHoldover d cause s) := by
  unfold enterHoldover
  refine ite_k ?_ ?_
  · assumption
  · extract_lets +onlyGivenNames -merge -underBinder s1
    have hs1 : P s1 := by
      refine readWindow_keeps K (sub rfl hA) ?_
      assumption
    try clear_value s1
    split
    · extract_lets +onlyGivenNames -merge -underBinder s2
      try clear_value s2
      extract_lets +onlyGivenNames -merge -underBinder s3
      have hs3 : P s3 := by
        refine State.setRd_keeps K (sub rfl hA) ?_
        assumption
      try clear_value s3
      refine setQc_keeps K (sub rfl hA) ?_
      refine takeFreq_keeps K (sub rfl hA) ?_
      assumption
    · refine setQc_keeps K (sub rfl hA) ?_
      assumption

theorem showSel_keeps (K : Keeps P A) (hA : Sub 16 A) {d sel s} (h_s : P s) :
    P (showSel d sel s) := by
  unfold showSel
  extract_lets +onlyGivenNames -merge -underBinder f1 s2
  have hs2 : P s2 := by
    refine foldl_k ?_ (fun s0 k0 hs0 => ?_)
    · assumption
    · refine setB_k K 4 (by try dsimp only [f1]; split_ifs <;> first | exact part_rsCandStatusSelA | exact part_rsCandStatusSelB) (sub rfl hA) ?_
      assumption
  try clear_value s2
  split
  · refine setF_k K 4 part_rsDSelSel (sub rfl hA) ?_
    refine setB_k K 4 part_rsDSelSelValid (sub rfl hA) ?_
    assumption
  · refine setB_k K 4 part_rsDSelSelValid (sub rfl hA) ?_
    assumption

theorem dropLock_keeps (K : Keeps P A) (hA : Sub 2201707610145 A) {d s} (h_s : P s) :
    P (dropLock d s) := by
  unfold dropLock
  extract_lets +onlyGivenNames -merge -underBinder src1 s2
  try clear_value src1
  have hs2 : P s2 := by
    refine State.setRd_keeps K (sub rfl hA) ?_
    · refine setF_k K 5 part_plDStatusCount (sub rfl hA) ?_
      assumption
  try clear_value s2
  refine ite_k ?_ ?_
  · refine raiseEv_keeps K (sub rfl hA) ?_
    · refine setB_k K 5 part_plDStatusLock (sub rfl hA) ?_
      assumption
  · assumption

theorem gradeLock_keeps (K : Keeps P A) (hA : Sub 146338425015640121 A) {d s} (h_s : P s) :
    P (gradeLock d s) := by
  unfold gradeLock
  split
  · assumption
  · refine ite_k ?_ ?_
    · refine setQc_keeps K (sub rfl hA) ?_
      · assumption
    · refine ite_k ?_ ?_
      · refine setQc_keeps K (sub rfl hA) ?_
        · assumption
      · refine checkMinute_keeps K (sub rfl hA) ?_
        · assumption

theorem startAcquiring_keeps (K : Keeps P A) (hA : Sub 146338425015640121 A) {d s} (h_s : P s) :
    P (startAcquiring d s) := by
  unfold startAcquiring
  extract_lets +onlyGivenNames -merge -underBinder q1
  try clear_value q1
  refine ite_k ?_ ?_
  · refine setQc_keeps K (sub rfl hA) ?_
    · assumption
  · assumption

theorem beginTxn_keeps (K : Keeps P A) (hA : Sub 146338425015640121 A) {d i cause s} (h_s : P s) :
    P (beginTxn d i cause s) := by
  unfold beginTxn
  extract_lets +onlyGivenNames -merge -underBinder old1 e2 r3 bnd4 s5 s6 s7 s8 s9 s10
  try clear_value old1
  try clear_value e2
  try clear_value r3
  try clear_value bnd4
  have hs5 : P s5 := by
    refine showSel_keeps K (sub rfl hA) ?_
    · assumption
  try clear_value s5
  have hs6 : P s6 := by
    refine setB_k K 4 part_rsDSelQueued (sub rfl hA) ?_
    refine setB_k K 4 part_rsDSelTxn (sub rfl hA) ?_
    assumption
  try clear_value s6
  have hs7 : P s7 := by
    refine State.setRd_keeps K (sub rfl hA) ?_
    · assumption
  try clear_value s7
  have hs8 : P s8 := by
    refine dropLock_keeps K (sub rfl hA) ?_
    · assumption
  try clear_value s8
  have hs9 : P s9 := by
    refine setB_k K 5 part_plDStatusSlow (sub rfl hA) ?_
    refine setB_k K 5 part_plDStatusFacq (sub rfl hA) ?_
    assumption
  try clear_value s9
  have hs10 : P s10 := by
    refine raiseEv_keeps K (sub rfl hA) ?_
    · assumption
  try clear_value s10
  refine checkMinute_keeps K (sub rfl hA) ?_
  · refine startAcquiring_keeps K (sub rfl hA) ?_
    · assumption

theorem selectNone_keeps (K : Keeps P A) (hA : Sub 146338459375378489 A) {d cause s} (h_s : P s) :
    P (selectNone d cause s) := by
  unfold selectNone
  extract_lets +onlyGivenNames -merge -underBinder old1 s2 s3 s4 s5 q6
  try clear_value old1
  have hs2 : P s2 := by
    refine showSel_keeps K (sub rfl hA) ?_
    · refine setB_k K 4 part_rsDSelQueued (sub rfl hA) ?_
      assumption
  try clear_value s2
  have hs3 : P s3 := by
    refine dropLock_keeps K (sub rfl hA) ?_
    · assumption
  try clear_value s3
  have hs4 : P s4 := by
    refine setB_k K 5 part_plDStatusFacq (sub rfl hA) ?_
    assumption
  try clear_value s4
  have hs5 : P s5 := by
    refine raiseEv_keeps K (sub rfl hA) ?_
    · assumption
  try clear_value s5
  try clear_value q6
  refine ite_k ?_ ?_
  · refine enterHoldover_keeps K (sub rfl hA) ?_
    · assumption
  · assumption

theorem settleState_keeps (K : Keeps P A) (hA : Sub 146338459375378489 A) {d s} (h_s : P s) :
    P (settleState d s) := by
  unfold settleState
  extract_lets +onlyGivenNames -merge -underBinder q1
  try clear_value q1
  refine ite_k ?_ ?_
  · refine checkMinute_keeps K (sub rfl hA) ?_
    assumption
  · refine ite_k ?_ ?_
    · refine ite_k ?_ ?_
      · refine enterHoldover_keeps K (sub rfl hA) ?_
        assumption
      · refine checkMinute_keeps K (sub rfl hA) ?_
        assumption
    · refine ite_k ?_ ?_
      · refine setQc_keeps K (sub rfl hA) ?_
        assumption
      · refine gradeLock_keeps K (sub rfl hA) ?_
        assumption

theorem evaluate_keeps (K : Keeps P A) (hA : Sub 146338459375378489 A) {d s} (h_s : P s) :
    P (evaluate d s) := by
  unfold evaluate
  extract_lets +onlyGivenNames -merge -underBinder ch1
  try clear_value ch1
  refine ite_k ?_ ?_
  · refine ite_k ?_ ?_
    · assumption
    · refine setB_k K 4 part_rsDSelQueued (sub rfl hA) ?_
      assumption
  · refine ite_k ?_ ?_
    · refine settleState_keeps K (sub rfl hA) ?_
      refine setB_k K 4 part_rsDSelQueued (sub rfl hA) ?_
      assumption
    · split
      · refine selectNone_keeps K (sub rfl hA) ?_
        assumption
      · extract_lets +onlyGivenNames -merge -underBinder spaced2
        try clear_value spaced2
        refine ite_k ?_ ?_
        · refine checkMinute_keeps K (sub rfl hA) ?_
          refine setB_k K 4 part_rsDSelQueued (sub rfl hA) ?_
          assumption
        · refine beginTxn_keeps K (sub rfl hA) ?_
          assumption

theorem evaluateAll_keeps (K : Keeps P A) (hA : Sub 146338459375378489 A) {s} (h_s : P s) :
    P (evaluateAll s) := by
  unfold evaluateAll
  refine evaluate_keeps K (sub rfl hA) ?_
  · refine evaluate_keeps K (sub rfl hA) ?_
    · assumption

theorem setCandState_keeps (K : Keeps P A) (hA : Sub 2201707610129 A) {i st cause s} (h_s : P s) :
    P (setCandState i st cause s) := by
  unfold setCandState
  extract_lets +onlyGivenNames -merge -underBinder old1
  try clear_value old1
  refine ite_k ?_ ?_
  · assumption
  · extract_lets +onlyGivenNames -merge -underBinder c2 wtr3 c4 s5 s6 s7
    try clear_value c2
    try clear_value wtr3
    try clear_value c4
    have hs5 : P s5 := by
      refine State.setCand_keeps K (sub rfl hA) ?_
      · assumption
    try clear_value s5
    have hs6 : P s6 := by
      refine setF_k K 4 part_rsCandStatusState (sub rfl hA) ?_
      assumption
    try clear_value s6
    have hs7 : P s7 := by
      refine ite_k ?_ ?_
      · refine setB_k K 4 part_rsCandStatusWtr (sub rfl hA) ?_
        assumption
      · refine ite_k ?_ ?_
        · refine setB_k K 4 part_rsCandStatusWtr (sub rfl hA) ?_
          assumption
        · assumption
    try clear_value s7
    refine raiseEv_keeps K (sub rfl hA) ?_
    · assumption

theorem loseCand_keeps (K : Keeps P A) (hA : Sub 146338459375378489 A) {i cause s} (h_s : P s) :
    P (loseCand i cause s) := by
  unfold loseCand
  refine ite_k ?_ ?_
  · refine ite_k ?_ ?_
    · refine State.setCand_keeps K (sub rfl hA) ?_
      · assumption
    · assumption
  · refine evaluateAll_keeps K (sub rfl hA) ?_
    · refine setCandState_keeps K (sub rfl hA) ?_
      · assumption

theorem testLimits_keeps (K : Keeps P A) (hA : Sub 2201707610129 A) {i s} (h_s : P s) :
    P (testLimits i s) := by
  unfold testLimits
  extract_lets +onlyGivenNames -merge -underBinder c1 v2 st3 known4 within805 ripe6
  try clear_value c1
  try clear_value v2
  try clear_value st3
  try clear_value known4
  try clear_value within805
  try clear_value ripe6
  refine ite_k ?_ ?_
  · assumption
  · refine ite_k ?_ ?_
    · refine setCandState_keeps K (sub rfl hA) ?_
      · assumption
    · refine ite_k ?_ ?_
      · refine setCandState_keeps K (sub rfl hA) ?_
        · assumption
      · refine ite_k ?_ ?_
        · refine setCandState_keeps K (sub rfl hA) ?_
          · assumption
        · refine ite_k ?_ ?_
          · refine ite_k ?_ ?_
            · refine State.setCand_keeps K (sub rfl hA) ?_
              · assumption
            · refine ite_k ?_ ?_
              · refine State.setCand_keeps K (sub rfl hA) ?_
                · assumption
              · refine ite_k ?_ ?_
                · refine setCandState_keeps K (sub rfl hA) ?_
                  · assumption
                · assumption
          · refine ite_k ?_ ?_
            · refine setCandState_keeps K (sub rfl hA) ?_
              · assumption
            · assumption

theorem markExcl_keeps (K : Keeps P A) (hA : Sub 145208126793850881 A) {d s} (h_s : P s) :
    P (markExcl d s) := by
  unfold markExcl
  extract_lets +onlyGivenNames -merge -underBinder hit1 ks2 s3
  try clear_value hit1
  try clear_value ks2
  have hs3 : P s3 := by
    refine ite_k ?_ ?_
    · assumption
    · refine foldl_k ?_ (fun s0 k0 hs0 => ?_)
      · assumption
      · refine mpPartial_keeps K (sub rfl hA) ?_
        assumption
  try clear_value s3
  refine upd_refs K (sub rfl hA) ?_
  assumption

theorem testSlope_keeps (K : Keeps P A) (hA : Sub 145208126793850897 A) {i s} (h_s : P s) :
    P (testSlope i s) := by
  unfold testSlope
  extract_lets +onlyGivenNames -merge -underBinder c1 due2
  try clear_value c1
  try clear_value due2
  refine ite_k ?_ ?_
  · refine State.setCand_keeps K (sub rfl hA) ?_
    assumption
  · refine ite_k ?_ ?_
    · extract_lets +onlyGivenNames -merge -underBinder s3
      have hs3 : P s3 := by
        refine State.setCand_keeps K (sub rfl hA) ?_
        assumption
      try clear_value s3
      refine ite_k ?_ ?_
      · assumption
      · extract_lets +onlyGivenNames -merge -underBinder sel4 s5
        try clear_value sel4
        have hs5 : P s5 := by
          refine raiseEv_keeps K (sub rfl hA) ?_
          assumption
        try clear_value s5
        refine foldl_k ?_ (fun s0 k0 hs0 => ?_)
        · assumption
        · refine ite_k ?_ ?_
          · refine markExcl_keeps K (sub rfl hA) ?_
            refine setB_k K 4 part_rsDSelOnset (sub rfl hA) ?_
            refine State.setRd_keeps K (sub rfl hA) ?_
            assumption
          · assumption
    · extract_lets +onlyGivenNames -merge -underBinder s6
      have hs6 : P s6 := by
        refine State.setCand_keeps K (sub rfl hA) ?_
        assumption
      try clear_value s6
      refine ite_k ?_ ?_
      · refine State.setCand_keeps K (sub rfl hA) ?_
        assumption
      · assumption

theorem crossCheck_keeps (K : Keeps P A) (hA : Sub 2199023255568 A) {i s} (h_s : P s) :
    P (crossCheck i s) := by
  unfold crossCheck
  split
  · assumption
  · extract_lets +onlyGivenNames -merge -underBinder others1 x2 v3 ys4 n5 per1006 src7 s8 s9 s10 s11
    try clear_value others1
    try clear_value x2
    try clear_value v3
    try clear_value ys4
    try clear_value n5
    try clear_value per1006
    try clear_value src7
    have hs8 : P s8 := by
      refine State.setCand_keeps K (sub rfl hA) ?_
      · assumption
    try clear_value s8
    have hs9 : P s9 := by
      refine setB_k K 4 part_rsCandStatusXchk (sub rfl hA) ?_
      assumption
    try clear_value s9
    have hs10 : P s10 := by
      refine setI64_k K 4 part_rsCandFfo_2 (sub rfl hA) ?_
      assumption
    try clear_value s10
    have hs11 : P s11 := by
      refine setI_k K 4 part_rsCandSlope (sub rfl hA) ?_
      assumption
    try clear_value s11
    refine setI64_k K 4 part_rsCandPhase_2 (sub rfl hA) ?_
    assumption

theorem sysxoSuspect_keeps (K : Keeps P A) (hA : Sub 2201707610113 A) {s} (h_s : P s) :
    P (sysxoSuspect s) := by
  unfold sysxoSuspect
  extract_lets +onlyGivenNames -merge -underBinder q1 m2 quiet3
  try clear_value q1
  try clear_value m2
  try clear_value quiet3
  refine ite_k ?_ ?_
  · refine raiseEv_keeps K (sub rfl hA) ?_
    · refine upd_refs K (sub rfl hA) ?_
      assumption
  · assumption

theorem evaluateFacq_keeps (K : Keeps P A) (hA : Sub 2199023255552 A) {d s} (h_s : P s) :
    P (evaluateFacq d s) := by
  unfold evaluateFacq
  refine ite_k ?_ ?_
  · refine State.setRd_keeps K (sub rfl hA) ?_
    assumption
  · refine ite_k ?_ ?_
    · assumption
    · extract_lets +onlyGivenNames -merge -underBinder l1 recent2 use3 f4
      try clear_value l1
      try clear_value recent2
      try clear_value use3
      try clear_value f4
      split
      · refine State.setRd_keeps K (sub rfl hA) ?_
        assumption
      · assumption

theorem execMonitorEvaluation_keeps (K : Keeps P A) (hA : Sub 146338459375378489 A) {s} (h_s : P s) :
    Nx P (execMonitorEvaluation s) := by
  unfold execMonitorEvaluation
  extract_lets +onlyGivenNames -merge -underBinder on1 s2 s3 s4 s5 s6 s7
  try clear_value on1
  have hs2 : P s2 := by
    refine foldl_k ?_ (fun s0 k0 hs0 => ?_)
    · assumption
    · refine State.setCand_keeps K (sub rfl hA) ?_
      · assumption
  try clear_value s2
  have hs3 : P s3 := by
    refine foldl_k ?_ (fun s0 k0 hs0 => ?_)
    · assumption
    · refine crossCheck_keeps K (sub rfl hA) ?_
      · assumption
  try clear_value s3
  have hs4 : P s4 := by
    refine foldl_k ?_ (fun s0 k0 hs0 => ?_)
    · assumption
    · refine ite_k ?_ ?_
      · refine setCandState_keeps K (sub rfl hA) ?_
        · assumption
      · assumption
  try clear_value s4
  have hs5 : P s5 := by
    refine foldl_k ?_ (fun s0 k0 hs0 => ?_)
    · assumption
    · refine testSlope_keeps K (sub rfl hA) ?_
      · refine testLimits_keeps K (sub rfl hA) ?_
        · assumption
  try clear_value s5
  have hs6 : P s6 := by
    refine sysxoSuspect_keeps K (sub rfl hA) ?_
    · assumption
  try clear_value s6
  have hs7 : P s7 := by
    refine foldl_k ?_ (fun s0 k0 hs0 => ?_)
    · assumption
    · extract_lets +onlyGivenNames -merge -underBinder s8
      have hs8 : P s8 := by
        try unfold s8
        split
        · refine ite_k ?_ ?_
          · refine setB_k K 4 part_rsDSelOnset (sub rfl hA) ?_
            assumption
          · assumption
        · assumption
      try clear_value s8
      refine evaluateFacq_keeps K (sub rfl hA) ?_
      · refine showWindow_keeps K (sub rfl hA) ?_
        · assumption
  try clear_value s7
  refine next_k ?_
  refine evaluateAll_keeps K (sub rfl hA) ?_
  · refine upd_refs K (sub rfl hA) ?_
    assumption

theorem execCandidateLost_keeps (K : Keeps P A) (hA : Sub 146338459375378489 A) {cand s} (h_s : P s) :
    Nx P (execCandidateLost cand s) := by
  unfold execCandidateLost
  refine next_k ?_
  refine ite_k ?_ ?_
  · refine loseCand_keeps K (sub rfl hA) ?_
    · assumption
  · assumption

theorem execQualTimerExpiry_keeps (K : Keeps P A) (hA : Sub 146338459375378489 A) {cand s} (h_s : P s) :
    Nx P (execQualTimerExpiry cand s) := by
  unfold execQualTimerExpiry
  split
  · refine iteN_k ?_ ?_
    · refine next_k ?_
      refine evaluateAll_keeps K (sub rfl hA) ?_
      · refine testLimits_keeps K (sub rfl hA) ?_
        · assumption
    · refine next_k ?_
      assumption
  · refine next_k ?_
    assumption

theorem execWtrExpiry_keeps (K : Keeps P A) (hA : Sub 146338459375378489 A) {cand s} (h_s : P s) :
    Nx P (execWtrExpiry cand s) := by
  unfold execWtrExpiry
  split
  · refine iteN_k ?_ ?_
    · refine next_k ?_
      refine evaluateAll_keeps K (sub rfl hA) ?_
      · refine setB_k K 4 part_rsCandStatusWtr (sub rfl hA) ?_
        refine State.setCand_keeps K (sub rfl hA) ?_
        · assumption
    · refine next_k ?_
      assumption
  · refine next_k ?_
    assumption

theorem returnWith_keeps (K : Keeps P A) (hA : Sub 146334061328867339 A) {d e s} (h_s : P s) :
    P (returnWith d e s) := by
  unfold returnWith
  extract_lets +onlyGivenNames -merge -underBinder back1
  try clear_value back1
  refine ite_k ?_ ?_
  · extract_lets +onlyGivenNames -merge -underBinder r2 s3
    have hr2 : P r2.2 := by
      refine slewRateUsed_keeps K (sub rfl hA) ?_
      assumption
    try clear_value r2
    have hs3 : P s3 := by
      refine startSlew_keeps K (sub rfl hA) ?_
      assumption
    try clear_value s3
    refine State.setDom_keeps K (sub rfl hA) ?_
    assumption
  · extract_lets +onlyGivenNames -merge -underBinder s4 s5 s6
    have hs4 : P s4 := by
      refine ite_k ?_ ?_
      · assumption
      · refine startSlew_keeps K (sub rfl hA) ?_
        assumption
    try clear_value s4
    try clear_value s5
    have hs6 : P s6 := by
      refine State.setDom_keeps K (sub rfl hA) ?_
      assumption
    try clear_value s6
    extract_lets +onlyGivenNames -merge -underBinder s7
    have hs7 : P s7 := by
      refine setI64_k K 3 part_tbDAlignErr_2 (sub rfl hA) ?_
      refine setB_k K 3 part_tbDStatusAlignNeeded (sub rfl hA) ?_
      assumption
    try clear_value s7
    refine raiseEv_keeps K (sub rfl hA) ?_
    assumption

theorem execSwitchTransactionStart_keeps (K : Keeps P A) (hA : Sub 146338459375378489 A) {d s} (h_s : P s) :
    Nx P (execSwitchTransactionStart d s) := by
  unfold execSwitchTransactionStart
  refine iteN_k ?_ ?_
  · refine next_k ?_
    refine evaluate_keeps K (sub rfl hA) ?_
    · assumption
  · refine next_k ?_
    assumption

theorem execSwitchTransactionEnd_keeps (K : Keeps P A) (hA : Sub 146338459375378491 A) {d s} (h_s : P s) :
    Nx P (execSwitchTransactionEnd d s) := by
  unfold execSwitchTransactionEnd
  split
  · refine next_k ?_
    assumption
  · refine iteN_k ?_ ?_
    · extract_lets +onlyGivenNames -merge -underBinder src1 s2 q3 s4 s5
      try clear_value src1
      have hs2 : P s2 := by
        refine setB_k K 4 part_rsDSelTxn (sub rfl hA) ?_
        refine State.setRd_keeps K (sub rfl hA) ?_
        · assumption
      try clear_value s2
      try clear_value q3
      have hs4 : P s4 := by
        refine returnWith_keeps K (sub rfl hA) ?_
        · assumption
      try clear_value s4
      have hs5 : P s5 := by
        refine ite_k ?_ ?_
        · refine ite_k ?_ ?_
          · refine setQc_keeps K (sub rfl hA) ?_
            · assumption
          · assumption
        · assumption
      try clear_value s5
      refine next_k ?_
      refine evaluate_keeps K (sub rfl hA) ?_
      · refine gradeLock_keeps K (sub rfl hA) ?_
        · assumption
    · refine next_k ?_
      assumption

theorem execFrequencyAcquired_keeps (K : Keeps P A) (hA : Sub 146338459375378491 A) {d s} (h_s : P s) :
    Nx P (execFrequencyAcquired d s) := by
  unfold execFrequencyAcquired
  split
  · refine next_k ?_
    assumption
  · refine iteN_k ?_ ?_
    · extract_lets +onlyGivenNames -merge -underBinder s1
      have hs1 : P s1 := by
        refine setB_k K 5 part_plDStatusFacq (sub rfl hA) ?_
        assumption
      try clear_value s1
      refine iteN_k ?_ ?_
      · refine next_k ?_
        refine setQc_keeps K (sub rfl hA) ?_
        · refine returnWith_keeps K (sub rfl hA) ?_
          · assumption
      · refine next_k ?_
        refine gradeLock_keeps K (sub rfl hA) ?_
        · refine setQc_keeps K (sub rfl hA) ?_
          · assumption
    · refine next_k ?_
      assumption

theorem execQcClassUpdate_keeps (K : Keeps P A) (hA : Sub 1128099198533656 A) {s} (h_s : P s) :
    Nx P (execQcClassUpdate s) := by
  unfold execQcClassUpdate
  refine next_k ?_
  refine showBound_keeps K (sub rfl hA) ?_
  · refine showBound_keeps K (sub rfl hA) ?_
    · assumption

theorem execHoldoverUpdate_keeps (K : Keeps P A) (hA : Sub 146338425015640121 A) {s} (h_s : P s) :
    Nx P (execHoldoverUpdate s) := by
  unfold execHoldoverUpdate
  refine next_k ?_
  refine foldl_k ?_ (fun s0 k0 hs0 => ?_)
  · assumption
  · refine ite_k ?_ ?_
    · extract_lets +onlyGivenNames -merge -underBinder passed1
      try clear_value passed1
      refine ite_k ?_ ?_
      · refine setQc_keeps K (sub rfl hA) ?_
        · assumption
      · refine showBound_keeps K (sub rfl hA) ?_
        · assumption
    · assumption

theorem startMinute_keeps (K : Keeps P A) (hA : Sub 2199023255552 A) {d s} (h_s : P s) :
    P (startMinute d s) := by
  unfold startMinute
  refine State.setRd_keeps K (sub rfl hA) ?_
  · assumption

theorem execLarderEntryWrite_keeps (K : Keeps P A) (hA : Sub 145208127062286353 A) {s} (h_s : P s) :
    Nx P (execLarderEntryWrite s) := by
  unfold execLarderEntryWrite
  refine iteN_k ?_ ?_
  · extract_lets +onlyGivenNames -merge -underBinder e1 n2 slot3 s4 s5 s6
    try clear_value e1
    try clear_value n2
    try clear_value slot3
    try clear_value s4
    have hs5 : P s5 := by
      refine upd_refs K (sub rfl hA) ?_
      assumption
    try clear_value s5
    have hs6 : P s6 := by
      refine foldl_k ?_ (fun s0 k0 hs0 => ?_)
      · assumption
      · refine mpWrite_keeps K (sub rfl hA) ?_
        assumption
    try clear_value s6
    extract_lets +onlyGivenNames -merge -underBinder s7
    have hs7 : P s7 := by
      refine setF_k K 4 part_rsLarderInfoCount (sub rfl hA) ?_
      refine setF_k K 4 part_rsLarderInfoNewest (sub rfl hA) ?_
      assumption
    try clear_value s7
    refine next_k ?_
    refine showWindow_keeps K (sub rfl hA) ?_
    refine showWindow_keeps K (sub rfl hA) ?_
    refine startMinute_keeps K (sub rfl hA) ?_
    refine startMinute_keeps K (sub rfl hA) ?_
    assumption
  · refine next_k ?_
    assumption

theorem filterStep_keeps (K : Keeps P A) (hA : Sub 34359738368 A) {d bw fcmp e s} (h_s : P s) :
    P (filterStep d bw fcmp e s) := by
  unfold filterStep
  refine ite_k ?_ ?_
  · assumption
  · extract_lets +onlyGivenNames -merge -underBinder g1
    try clear_value g1
    refine State.setDom_keeps K (sub rfl hA) ?_
    assumption

theorem loopSample_keeps (K : Keeps P A) (hA : Sub 2233382993952 A) {d i x e0 s} (h_s : P s) :
    P (loopSample d i x e0 s) := by
  unfold loopSample
  refine ite_k ?_ ?_
  · assumption
  · extract_lets +onlyGivenNames -merge -underBinder r1 e2 e3 s4 w5 s6 l7 keep8 s9
    try clear_value r1
    try clear_value e2
    try clear_value e3
    have hs4 : P s4 := by
      refine ite_k ?_ ?_
      · assumption
      · refine setI64_k K 5 part_plDPerr_2 (sub rfl hA) ?_
        assumption
    try clear_value s4
    try clear_value w5
    have hs6 : P s6 := by
      refine ite_k ?_ ?_
      · refine addSat_k K 5 part_plDStatusCount (sub rfl hA) ?_
        assumption
      · refine setF_k K 5 part_plDStatusCount (sub rfl hA) ?_
        assumption
    try clear_value s6
    try clear_value l7
    try clear_value keep8
    try clear_value s9
    extract_lets +onlyGivenNames -merge -underBinder s10
    have hs10 : P s10 := by
      refine State.setRd_keeps K (sub rfl hA) ?_
      assumption
    try clear_value s10
    refine ite_k ?_ ?_
    · refine filterStep_keeps K (sub rfl hA) ?_
      assumption
    · assumption

theorem monitorSample_keeps (K : Keeps P A) (hA : Sub 2199023255552 A) {i x sys t s} (h_s : P s) :
    P (monitorSample i x sys t s) := by
  unfold monitorSample
  extract_lets +onlyGivenNames -merge -underBinder c1 kept2
  try clear_value c1
  try clear_value kept2
  refine State.setCand_keeps K (sub rfl hA) ?_
  · assumption

theorem refSample_keeps (K : Keeps P A) (hA : Sub 6631429505056 A) {i x sys t s} (h_s : P s) :
    P (refSample i x sys t s) := by
  unfold refSample
  refine ite_k ?_ ?_
  · assumption
  · extract_lets +onlyGivenNames -merge -underBinder eA1 eB2 s3 s4
    try clear_value eA1
    try clear_value eB2
    have hs3 : P s3 := by
      refine monitorSample_keeps K (sub rfl hA) ?_
      assumption
    try clear_value s3
    try clear_value s4
    extract_lets +onlyGivenNames -merge -underBinder s5
    have hs5 : P s5 := by
      refine ite_k ?_ ?_
      · refine upd_dpll K (sub rfl hA) ?_
        assumption
      · assumption
    try clear_value s5
    refine loopSample_keeps K (sub rfl hA) ?_
    refine loopSample_keeps K (sub rfl hA) ?_
    assumption

theorem execReferenceSample_keeps (K : Keeps P A) (hA : Sub 6631429505056 A) {cand x sys t s} (h_s : P s) :
    Nx P (execReferenceSample cand x sys t s) := by
  unfold execReferenceSample
  refine next_k ?_
  refine ite_k ?_ ?_
  · refine refSample_keeps K (sub rfl hA) ?_
    assumption
  · assumption

theorem execDpllLock_keeps (K : Keeps P A) (hA : Sub 146338425015640121 A) {d s} (h_s : P s) :
    Nx P (execDpllLock d s) := by
  unfold execDpllLock
  split
  · refine next_k ?_
    assumption
  · refine iteN_k ?_ ?_
    · extract_lets +onlyGivenNames -merge -underBinder s1
      have hs1 : P s1 := by
        refine ite_k ?_ ?_
        · assumption
        · refine raiseEv_keeps K (sub rfl hA) ?_
          refine setB_k K 5 part_plDStatusLock (sub rfl hA) ?_
          assumption
      try clear_value s1
      refine next_k ?_
      refine ite_k ?_ ?_
      · refine gradeLock_keeps K (sub rfl hA) ?_
        refine setQc_keeps K (sub rfl hA) ?_
        assumption
      · assumption
    · refine next_k ?_
      assumption

theorem execDpllLockLoss_keeps (K : Keeps P A) (hA : Sub 2201707610145 A) {d s} (h_s : P s) :
    Nx P (execDpllLockLoss d s) := by
  unfold execDpllLockLoss
  split
  · refine next_k ?_
    assumption
  · refine iteN_k ?_ ?_
    · refine next_k ?_
      refine dropLock_keeps K (sub rfl hA) ?_
      · assumption
    · refine next_k ?_
      assumption

theorem execEsmcPduRx_keeps (K : Keeps P A) (hA : Sub 146338459375378489 A) {port ql s} (h_s : P s) :
    Nx P (execEsmcPduRx port ql s) := by
  unfold execEsmcPduRx
  extract_lets +onlyGivenNames -merge -underBinder ls1
  try clear_value ls1
  refine iteN_k ?_ ?_
  · refine next_k ?_
    assumption
  · refine next_k ?_
    refine evaluateAll_keeps K (sub rfl hA) ?_
    · refine foldl_k ?_ (fun s0 k0 hs0 => ?_)
      · assumption
      · refine setF_k K 4 part_rsCandStatusQl (sub rfl hA) ?_
        assumption

theorem execServedSwitch_keeps (K : Keeps P A) (hA : Sub 4767031678266515501 A) {s} (h_s : P s) :
    Nx P (execServedSwitch s) := by
  unfold execServedSwitch
  split
  · refine next_k ?_
    assumption
  · refine iteN_k ?_ ?_
    · refine next_k ?_
      assumption
    · extract_lets +onlyGivenNames -merge -underBinder tested1 s2
      try clear_value tested1
      have hs2 : P s2 := by
        refine setB_k K 3 part_tbStateSwitching (sub rfl hA) ?_
        assumption
      try clear_value s2
      extract_lets +onlyGivenNames -merge -underBinder s3
      try clear_value s3
      extract_lets +onlyGivenNames -merge -underBinder s4
      have hs4 : P s4 := by
        refine upd_tb K (sub rfl hA) ?_
        assumption
      try clear_value s4
      refine iteN_k ?_ ?_
      · refine next_k ?_
        refine resumeHeld_keeps K (sub rfl hA) ?_
        assumption
      · extract_lets +onlyGivenNames -merge -underBinder old5 s6 s7 s8
        try clear_value old5
        have hs6 : P s6 := by
          refine switchServed_keeps K (sub rfl hA) ?_
          assumption
        try clear_value s6
        have hs7 : P s7 := by
          refine ite_k ?_ ?_
          · assumption
          · refine raiseBit_k K 0 part_hstIrqStatusQcChg (sub rfl hA) ?_
            assumption
        try clear_value s7
        have hs8 : P s8 := by
          refine tstatFollow_keeps K (sub rfl hA) ?_
          refine outsRefresh_keeps K (sub rfl hA) ?_
          refine noteQuality_keeps K (sub rfl hA) ?_
          assumption
        try clear_value s8
        refine next_k ?_
        refine resumeHeld_keeps K (sub rfl hA) ?_
        assumption

theorem candEnable_keeps (K : Keeps P A) (hA : Sub 2201707610129 A) {i s} (h_s : P s) :
    P (candEnable i s) := by
  unfold candEnable
  refine ite_k ?_ ?_
  · refine setCandState_keeps K (sub rfl hA) ?_
    · assumption
  · refine ite_k ?_ ?_
    · refine setCandState_keeps K (sub rfl hA) ?_
      · refine State.setCand_keeps K (sub rfl hA) ?_
        · assumption
    · assumption

theorem rsSetPriorityEffect_keeps (K : Keeps P A) (hA : Sub 146338459375378489 A) {c s} (h_s : P s) :
    P (rsSetPriorityEffect c s).1 := by
  unfold rsSetPriorityEffect
  extract_lets +onlyGivenNames -merge -underBinder i1 k2 nom3 changed4 s5 s6 k7 k8 s9 s10 s11 s12 s13
  try clear_value i1
  try clear_value k2
  try clear_value nom3
  try clear_value changed4
  have hs5 : P s5 := by
    refine setF_k K 4 part_rsCandStatusPrioB (sub rfl hA) ?_
    refine setF_k K 4 part_rsCandStatusPrioA (sub rfl hA) ?_
    assumption
  try clear_value s5
  have hs6 : P s6 := by
    refine setB_k K 4 part_rsCandStatusNonrev (sub rfl hA) ?_
    assumption
  try clear_value s6
  try clear_value k7
  try clear_value k8
  have hs9 : P s9 := by
    refine State.setCand_keeps K (sub rfl hA) ?_
    · assumption
  try clear_value s9
  have hs10 : P s10 := by
    refine ite_k ?_ ?_
    · refine setF_k K 4 part_rsCandStatusQl (sub rfl hA) ?_
      assumption
    · assumption
  try clear_value s10
  have hs11 : P s11 := by
    refine ite_k ?_ ?_
    · assumption
    · refine setF_k K 4 part_rsCandStatusAccK (sub rfl hA) ?_
      assumption
  try clear_value s11
  have hs12 : P s12 := by
    refine setB_k K 4 part_rsCandStatusKind (sub rfl hA) ?_
    assumption
  try clear_value s12
  have hs13 : P s13 := by
    refine ite_k ?_ ?_
    · refine setCandState_keeps K (sub rfl hA) ?_
      · assumption
    · assumption
  try clear_value s13
  refine mk1_k ?_
  refine evaluateAll_keeps K (sub rfl hA) ?_
  · refine candEnable_keeps K (sub rfl hA) ?_
    · assumption

theorem execRsSetPriority_keeps (K : Keeps P A) (hA : Sub 4767031678266515517 A) {c s} (h_s : P s) :
    Nx P (execRsSetPriority c s) := by
  unfold execRsSetPriority
  refine runCmd_keeps K (sub rfl hA) ?_ ?_
  · intro _ _ hh
    refine rsSetPriorityEffect_keeps K (sub rfl hA) ?_
    assumption
  · assumption

theorem rsSetLimitsEffect_keeps (K : Keeps P A) (hA : Sub 146338459375378489 A) {c s} (h_s : P s) :
    P (rsSetLimitsEffect c s).1 := by
  unfold rsSetLimitsEffect
  extract_lets +onlyGivenNames -merge -underBinder i1 k2 wtr3 until_4 s5
  try clear_value i1
  try clear_value k2
  try clear_value wtr3
  try clear_value until_4
  have hs5 : P s5 := by
    refine State.setCand_keeps K (sub rfl hA) ?_
    assumption
  try clear_value s5
  refine mk1_k ?_
  refine evaluateAll_keeps K (sub rfl hA) ?_
  refine ite_k ?_ ?_
  · refine setB_k K 4 part_rsCandStatusWtr (sub rfl hA) ?_
    assumption
  · assumption

theorem execRsSetLimits_keeps (K : Keeps P A) (hA : Sub 4767031678266515517 A) {c s} (h_s : P s) :
    Nx P (execRsSetLimits c s) := by
  unfold execRsSetLimits
  refine runCmd_keeps K (sub rfl hA) ?_ ?_
  · intro _ _ hh
    refine rsSetLimitsEffect_keeps K (sub rfl hA) ?_
    assumption
  · assumption

theorem rsSetTimersEffect_keeps (K : Keeps P A) (hA : Sub 146338459375378489 A) {c s} (h_s : P s) :
    P (rsSetTimersEffect c s).1 := by
  unfold rsSetTimersEffect
  extract_lets +onlyGivenNames -merge -underBinder d1
  try clear_value d1
  refine mk1_k ?_
  refine evaluateAll_keeps K (sub rfl hA) ?_
  · refine State.setRd_keeps K (sub rfl hA) ?_
    · assumption

theorem execRsSetTimers_keeps (K : Keeps P A) (hA : Sub 4767031678266515517 A) {c s} (h_s : P s) :
    Nx P (execRsSetTimers c s) := by
  unfold execRsSetTimers
  refine runCmd_keeps K (sub rfl hA) ?_ ?_
  · intro _ _ hh
    refine rsSetTimersEffect_keeps K (sub rfl hA) ?_
    assumption
  · assumption

theorem rsForceEffect_keeps (K : Keeps P A) (hA : Sub 146338459375378489 A) {c s} (h_s : P s) :
    P (rsForceEffect c s).1 := by
  unfold rsForceEffect
  extract_lets +onlyGivenNames -merge -underBinder d1 f2 src3 s4
  try clear_value d1
  try clear_value f2
  try clear_value src3
  have hs4 : P s4 := by
    refine setB_k K 4 part_rsDSelForced (sub rfl hA) ?_
    refine State.setRd_keeps K (sub rfl hA) ?_
    · assumption
  try clear_value s4
  refine mk1_k ?_
  refine evaluate_keeps K (sub rfl hA) ?_
  · assumption

theorem execRsForce_keeps (K : Keeps P A) (hA : Sub 4767031678266515517 A) {c s} (h_s : P s) :
    Nx P (execRsForce c s) := by
  unfold execRsForce
  refine runCmd_keeps K (sub rfl hA) ?_ ?_
  · intro _ _ hh
    refine rsForceEffect_keeps K (sub rfl hA) ?_
    assumption
  · assumption

theorem rsStatusEffect_keeps (K : Keeps P A) (hA : Sub 268435456 A) {c s} (h_s : P s) :
    P (rsStatusEffect c s).1 := by
  unfold rsStatusEffect
  extract_lets +onlyGivenNames -merge -underBinder d1 r2 f3 since4 flags5
  try clear_value d1
  try clear_value r2
  have hf3 : P f3.2 := by
    refine State.draw_keeps K (sub rfl hA) ?_
    · assumption
  try clear_value f3
  try clear_value since4
  try clear_value flags5
  refine mk1_k ?_
  refine ite_k ?_ ?_
  · assumption
  · assumption

theorem execRsStatus_keeps (K : Keeps P A) (hA : Sub 4620693225602023428 A) {c s} (h_s : P s) :
    Nx P (execRsStatus c s) := by
  unfold execRsStatus
  refine runCmd_keeps K (sub rfl hA) ?_ ?_
  · intro _ _ hh
    refine rsStatusEffect_keeps K (sub rfl hA) ?_
    assumption
  · assumption

theorem larderStep_keeps (K : Keeps P A) (hA : Sub 145208127062286337 A) {o s} (h_s : P s) :
    P (larderStep o s).1 := by
  unfold larderStep
  extract_lets +onlyGivenNames -merge -underBinder c1 n2 room3 k4 s5 es6 acc7
  try clear_value c1
  try clear_value n2
  try clear_value room3
  try clear_value k4
  have hs5 : P s5 := by
    refine readLarder_keeps K (sub rfl hA) ?_
    assumption
  try clear_value s5
  try clear_value es6
  try clear_value acc7
  refine ite1_k ?_ ?_
  · refine mk1_k ?_
    assumption
  · refine mk1_k ?_
    assumption

theorem execRsLarderRead_keeps (K : Keeps P A) (hA : Sub 4765901345953423365 A) {c s} (h_s : P s) :
    Nx P (execRsLarderRead c s) := by
  unfold execRsLarderRead
  refine runStepped_keeps K (sub rfl hA) ?_ ?_
  · intro _ _ hh
    refine larderStep_keeps K (sub rfl hA) ?_
    assumption
  · assumption

theorem rsOpenLoopEffect_keeps (K : Keeps P A) (hA : Sub 146338459375378489 A) {c s} (h_s : P s) :
    P (rsOpenLoopEffect c s).1 := by
  unfold rsOpenLoopEffect
  extract_lets +onlyGivenNames -merge -underBinder d1
  try clear_value d1
  refine ite1_k ?_ ?_
  · refine ite1_k ?_ ?_
    · refine mk1_k ?_
      assumption
    · extract_lets +onlyGivenNames -merge -underBinder r2 s3 s4 s5
      try clear_value r2
      have hs3 : P s3 := by
        refine State.setRd_keeps K (sub rfl hA) ?_
        · assumption
      try clear_value s3
      have hs4 : P s4 := by
        refine dropLock_keeps K (sub rfl hA) ?_
        · refine setB_k K 3 part_tbDStatusOpen (sub rfl hA) ?_
          assumption
      try clear_value s4
      have hs5 : P s5 := by
        refine setB_k K 5 part_plDStatusFacq (sub rfl hA) ?_
        assumption
      try clear_value s5
      refine mk1_k ?_
      refine ite_k ?_ ?_
      · refine checkMinute_keeps K (sub rfl hA) ?_
        · refine showBound_keeps K (sub rfl hA) ?_
          · assumption
      · refine setQc_keeps K (sub rfl hA) ?_
        · assumption
  · refine ite1_k ?_ ?_
    · extract_lets +onlyGivenNames -merge -underBinder r6 s7 s8 s9
      try clear_value r6
      have hs7 : P s7 := by
        refine setB_k K 3 part_tbDStatusOpen (sub rfl hA) ?_
        refine State.setRd_keeps K (sub rfl hA) ?_
        · assumption
      try clear_value s7
      have hs8 : P s8 := by
        refine takeFreq_keeps K (sub rfl hA) ?_
        · assumption
      try clear_value s8
      have hs9 : P s9 := by
        refine ite_k ?_ ?_
        · refine setQc_keeps K (sub rfl hA) ?_
          · assumption
        · assumption
      try clear_value s9
      refine mk1_k ?_
      refine evaluate_keeps K (sub rfl hA) ?_
      · assumption
    · refine mk1_k ?_
      assumption

theorem execRsOpenLoop_keeps (K : Keeps P A) (hA : Sub 4767031678266515517 A) {c s} (h_s : P s) :
    Nx P (execRsOpenLoop c s) := by
  unfold execRsOpenLoop
  refine runCmd_keeps K (sub rfl hA) ?_ ?_
  · intro _ _ hh
    refine rsOpenLoopEffect_keeps K (sub rfl hA) ?_
    assumption
  · assumption

theorem rsSteerEffect_keeps (K : Keeps P A) (hA : Sub 146334026969128963 A) {c s} (h_s : P s) :
    P (rsSteerEffect c s).1 := by
  unfold rsSteerEffect
  extract_lets +onlyGivenNames -merge -underBinder d1 v2
  try clear_value d1
  have hv2 : P v2.2 := by
    refine steerClamp_keeps K (sub rfl hA) ?_
    · assumption
  try clear_value v2
  refine mk1_k ?_
  refine State.setRd_keeps K (sub rfl hA) ?_
  · assumption

theorem execRsSteer_keeps (K : Keeps P A) (hA : Sub 4767027245860265991 A) {c s} (h_s : P s) :
    Nx P (execRsSteer c s) := by
  unfold execRsSteer
  refine runCmd_keeps K (sub rfl hA) ?_ ?_
  · intro _ _ hh
    refine rsSteerEffect_keeps K (sub rfl hA) ?_
    assumption
  · assumption

end Sys2Proof.Machine
end

