-- ==== Sys2Proof/Laws/KeepTimeTransfer.lean ====
section
/-! SUPPORT. What the operations of Sys2Proof/Machine/TimeTransfer.lean keep (Sys2Proof/Laws/Keeps.lean): the mask in each lemma names the parts
of the state that the operation can touch. -/

set_option Elab.async false

namespace Sys2Proof.Machine

variable {P : State → Prop} {A : Nat}

theorem setTtState_keeps (K : Keeps P A) (hA : Sub 2684354817 A) {k st cause s} (h_s : P s) :
    P (setTtState k st cause s) := by
  unfold setTtState
  extract_lets +onlyGivenNames -merge -underBinder old1
  try clear_value old1
  refine ite_k ?_ ?_
  · assumption
  · extract_lets +onlyGivenNames -merge -underBinder s2 n3 s4
    have hs2 : P s2 := by
      refine setF_k K 8 part_ttSStateState (sub rfl hA) ?_
      assumption
    try clear_value s2
    try clear_value n3
    have hs4 : P s4 := by
      refine setF_k K 8 part_ttEngineStatusEnabled (sub rfl hA) ?_
      assumption
    try clear_value s4
    refine raiseEv_keeps K (sub rfl hA) ?_
    · assumption

theorem State.setServo_keeps (K : Keeps P A) (hA : Sub 1099511627776 A) {s n x} (h_s : P s) :
    P (State.setServo s n x) := by
  unfold State.setServo
  refine upd_tt K (sub rfl hA) ?_
  assumption

theorem trackerReset_keeps (K : Keeps P A) (hA : Sub 1099511627776 A) {k s} (h_s : P s) :
    P (trackerReset k s) := by
  unfold trackerReset
  extract_lets +onlyGivenNames -merge -underBinder src1 s2
  try clear_value src1
  have hs2 : P s2 := by
    refine State.setSession_keeps K (sub rfl hA) ?_
    · assumption
  try clear_value s2
  refine foldl_k ?_ (fun s0 k0 hs0 => ?_)
  · assumption
  · extract_lets +onlyGivenNames -merge -underBinder v3
    try clear_value v3
    refine ite_k ?_ ?_
    · refine State.setServo_keeps K (sub rfl hA) ?_
      · assumption
    · assumption

theorem leavePhase_keeps (K : Keeps P A) (hA : Sub 1102195982593 A) {k cause s} (h_s : P s) :
    P (leavePhase k cause s) := by
  unfold leavePhase
  refine ite_k ?_ ?_
  · refine setTtState_keeps K (sub rfl hA) ?_
    · refine trackerReset_keeps K (sub rfl hA) ?_
      · assumption
  · assumption

theorem ttLink_keeps (K : Keeps P A) (hA : Sub 1102195982593 A) {p up s} (h_s : P s) :
    P (ttLink p up s) := by
  unfold ttLink
  refine foldl_k ?_ (fun s0 k0 hs0 => ?_)
  · assumption
  · refine ite_k ?_ ?_
    · refine ite_k ?_ ?_
      · refine setTtState_keeps K (sub rfl hA) ?_
        · assumption
      · assumption
    · refine ite_k ?_ ?_
      · refine setTtState_keeps K (sub rfl hA) ?_
        · refine trackerReset_keeps K (sub rfl hA) ?_
          · assumption
      · assumption

theorem ttLatSeq_keeps (K : Keeps P A) (hA : Sub 1102195982593 A) {p s} (h_s : P s) :
    P (ttLatSeq p s) := by
  unfold ttLatSeq
  refine foldl_k ?_ (fun s0 k0 hs0 => ?_)
  · assumption
  · refine leavePhase_keeps K (sub rfl hA) ?_
    · assumption

theorem psiRestart_keeps (K : Keeps P A) (hA : Sub 1099511627776 A) {lane s} (h_s : P s) :
    P (psiRestart lane s) := by
  unfold psiRestart
  refine upd_tt K (sub rfl hA) ?_
  assumption

theorem rollRates_keeps (K : Keeps P A) (hA : Sub 1099511628032 A) {s} (h_s : P s) :
    P (rollRates s) := by
  unfold rollRates
  extract_lets +onlyGivenNames -merge -underBinder sec1
  try clear_value sec1
  refine ite_k ?_ ?_
  · assumption
  · extract_lets +onlyGivenNames -merge -underBinder last2 s3 s4
    try clear_value last2
    have hs3 : P s3 := by
      refine setF_k K 8 part_ttEngineStatusTxRate (sub rfl hA) ?_
      assumption
    try clear_value s3
    have hs4 : P s4 := by
      refine setF_k K 8 part_ttEngineLoadRxRate (sub rfl hA) ?_
      assumption
    try clear_value s4
    refine upd_tt K (sub rfl hA) ?_
    assumption

theorem ttOriginate_keeps (K : Keeps P A) (hA : Sub 1099511627776 A) {k s} (h_s : P s) :
    P (ttOriginate k s) := by
  unfold ttOriginate
  extract_lets +onlyGivenNames -merge -underBinder sec1 x2
  try clear_value sec1
  try clear_value x2
  refine State.setSession_keeps K (sub rfl hA) ?_
  assumption

theorem ttSentEvent_keeps (K : Keeps P A) (hA : Sub 1099511628032 A) {k s} (h_s : P s) :
    P (ttSentEvent k s) := by
  unfold ttSentEvent
  extract_lets +onlyGivenNames -merge -underBinder s1 src2
  have hs1 : P s1 := by
    refine rollRates_keeps K (sub rfl hA) ?_
    · assumption
  try clear_value s1
  have hsrc2 : P src2 := by
    refine addWrap_k K 8 part_ttSTxcnt (sub rfl hA) ?_
    assumption
  try clear_value src2
  refine upd_tt K (sub rfl hA) ?_
  assumption

theorem ttRateDrop_keeps (K : Keeps P A) (hA : Sub 1102195982593 A) {k s} (h_s : P s) :
    P (ttRateDrop k s) := by
  unfold ttRateDrop
  extract_lets +onlyGivenNames -merge -underBinder s1 x2 n3 quiet4
  have hs1 : P s1 := by
    refine addWrap_k K 8 part_ttSDrop (sub rfl hA) ?_
    assumption
  try clear_value s1
  try clear_value x2
  try clear_value n3
  try clear_value quiet4
  refine ite_k ?_ ?_
  · refine raiseEv_keeps K (sub rfl hA) ?_
    · refine State.setSession_keeps K (sub rfl hA) ?_
      · assumption
  · refine State.setSession_keeps K (sub rfl hA) ?_
    · assumption

theorem ttAccept_keeps (K : Keeps P A) (hA : Sub 1102195982593 A) {k s} (h_s : P s) :
    P (ttAccept k s).2 := by
  unfold ttAccept
  extract_lets +onlyGivenNames -merge -underBinder sec1 x2 n3
  try clear_value sec1
  try clear_value x2
  try clear_value n3
  refine ite2_k ?_ ?_
  · refine mk2_k ?_
    refine ttRateDrop_keeps K (sub rfl hA) ?_
    · assumption
  · extract_lets +onlyGivenNames -merge -underBinder s4
    have hs4 : P s4 := by
      refine rollRates_keeps K (sub rfl hA) ?_
      · refine State.setSession_keeps K (sub rfl hA) ?_
        · assumption
    try clear_value s4
    refine mk2_k ?_
    extract_lets +onlyGivenNames -merge -underBinder src5
    have hsrc5 : P src5 := by
      refine addWrap_k K 8 part_ttSRxcnt (sub rfl hA) ?_
      assumption
    try clear_value src5
    refine upd_tt K (sub rfl hA) ?_
    assumption

theorem ttAnswer_keeps (K : Keeps P A) (hA : Sub 1099511628032 A) {k s} (h_s : P s) :
    P (ttAnswer k s).2 := by
  unfold ttAnswer
  extract_lets +onlyGivenNames -merge -underBinder sec1 x2 n3
  try clear_value sec1
  try clear_value x2
  try clear_value n3
  refine ite2_k ?_ ?_
  · refine mk2_k ?_
    refine addWrap_k K 8 part_ttSDrop (sub rfl hA) ?_
    assumption
  · refine mk2_k ?_
    refine State.setSession_keeps K (sub rfl hA) ?_
    · assumption

theorem ttSend_keeps (K : Keeps P A) (hA : Sub 153090836367548417 A) {port data e inv s} (h_s : P s) :
    P (ttSend port data e inv s) := by
  unfold ttSend
  extract_lets +onlyGivenNames -merge -underBinder f1 s2
  try clear_value f1
  try clear_value s2
  extract_lets +onlyGivenNames -merge -underBinder s3
  try clear_value s3
  extract_lets +onlyGivenNames -merge -underBinder s4
  try clear_value s4
  extract_lets +onlyGivenNames -merge -underBinder s5
  have hs5 : P s5 := by
    refine upd_tt_sw K (sub rfl hA) ?_
    assumption
  try clear_value s5
  refine captureFrame_keeps K (sub rfl hA) ?_
  refine countTx_keeps K (sub rfl hA) ?_
  refine injectSent_keeps K (sub rfl hA) ?_
  assumption

theorem recWrite_keeps (K : Keeps P A) (hA : Sub 1103403942145 A) {b s} (h_s : P s) :
    P (recWrite b s) := by
  unfold recWrite
  extract_lets +onlyGivenNames -merge -underBinder lost1 src2 s3 s4
  try clear_value lost1
  try clear_value src2
  have hs3 : P s3 := by
    refine upd_tt K (sub rfl hA) ?_
    assumption
  try clear_value s3
  have hs4 : P s4 := by
    refine ringPut_k K 8 ring_tt (sub rfl hA) ?_
    assumption
  try clear_value s4
  refine ite_k ?_ ?_
  · assumption
  · refine raiseEv_keeps K (sub rfl hA) ?_
    · assumption

theorem recDrain_keeps (K : Keeps P A) (hA : Sub 1103403942145 A) {a aa1} (h_aa1 : P aa1) :
    P (recDrain a aa1) := by
  induction a generalizing aa1 with
  | zero =>
    rw [recDrain]
    try (conv => zeta)
    assumption
  | succ k ih =>
    rw [recDrain]
    try (conv => zeta)
    refine ite_k ?_ ?_
    · split
      · assumption
      · refine ih ?_
        refine recWrite_keeps K (sub rfl hA) ?_
        · refine upd_tt K (sub rfl hA) ?_
          assumption
    · assumption

theorem recPass_keeps (K : Keeps P A) (hA : Sub 1103403942145 A) {b s} (h_s : P s) :
    P (recPass b s) := by
  unfold recPass
  extract_lets +onlyGivenNames -merge -underBinder s1
  have hs1 : P s1 := by
    refine recDrain_keeps K (sub rfl hA) ?_
    · assumption
  try clear_value s1
  refine ite_k ?_ ?_
  · refine recWrite_keeps K (sub rfl hA) ?_
    · assumption
  · refine ite_k ?_ ?_
    · refine upd_tt K (sub rfl hA) ?_
      assumption
    · refine upd_tt K (sub rfl hA) ?_
      assumption

theorem ttRecord_keeps (K : Keeps P A) (hA : Sub 1137763680513 A) {k kind bad seq ta tb corr own qc s} (h_s : P s) :
    P (ttRecord k kind bad seq ta tb corr own qc s) := by
  unfold ttRecord
  refine ite_k ?_ ?_
  · assumption
  · extract_lets +onlyGivenNames -merge -underBinder d1 fl2 t3 ns4 step5 s6
    try clear_value d1
    try clear_value fl2
    try clear_value t3
    try clear_value ns4
    try clear_value step5
    have hs6 : P s6 := by
      refine ite_k ?_ ?_
      · refine noteBase_keeps K (sub rfl hA) ?_
        refine recPass_keeps K (sub rfl hA) ?_
        assumption
      · assumption
    try clear_value s6
    refine recPass_keeps K (sub rfl hA) ?_
    assumption

theorem setServoState_keeps (K : Keeps P A) (hA : Sub 1102195982337 A) {n st s} (h_s : P s) :
    P (setServoState n st s) := by
  unfold setServoState
  extract_lets +onlyGivenNames -merge -underBinder old1
  try clear_value old1
  refine ite_k ?_ ?_
  · assumption
  · refine raiseEv_keeps K (sub rfl hA) ?_
    · refine State.setServo_keeps K (sub rfl hA) ?_
      · assumption

theorem applyAsym_keeps (K : Keeps P A) (hA : Sub 1168231104512 A) {p s} (h_s : P s) :
    P (applyAsym p s) := by
  unfold applyAsym
  extract_lets +onlyGivenNames -merge -underBinder old1 a2 src3 src4 s5
  try clear_value old1
  have ha2 : P a2.2 := by
    refine timedApply_keeps K (sub rfl hA) ?_
    · assumption
  try clear_value a2
  have hsrc3 : P src3 := by
    assumption
  try clear_value src3
  try clear_value src4
  have hs5 : P s5 := by
    refine upd_tt K (sub rfl hA) ?_
    assumption
  try clear_value s5
  refine ite_k ?_ ?_
  · assumption
  · refine foldl_k ?_ (fun s0 k0 hs0 => ?_)
    · assumption
    · extract_lets +onlyGivenNames -merge -underBinder v6
      try clear_value v6
      refine ite_k ?_ ?_
      · refine State.setServo_keeps K (sub rfl hA) ?_
        · assumption
      · assumption

theorem servoSample_keeps (K : Keeps P A) (hA : Sub 7730941132832 A) {n x sys s} (h_s : P s) :
    P (servoSample n x sys s) := by
  unfold servoSample
  extract_lets +onlyGivenNames -merge -underBinder v1 d2 s3
  try clear_value v1
  try clear_value d2
  have hs3 : P s3 := by
    refine State.setServo_keeps K (sub rfl hA) ?_
    assumption
  try clear_value s3
  refine refSample_keeps K (sub rfl hA) ?_
  assumption

theorem servoExchange_keeps (K : Keeps P A) (hA : Sub 7733893922865 A) {n k raw dbar x sys s} (h_s : P s) :
    P (servoExchange n k raw dbar x sys s) := by
  unfold servoExchange
  extract_lets +onlyGivenNames -merge -underBinder v1 y2 len3 hist4 dh5 theta6 far7 v8 s9 a10 acc11 s12
  try clear_value v1
  try clear_value y2
  try clear_value len3
  try clear_value hist4
  try clear_value dh5
  try clear_value theta6
  try clear_value far7
  try clear_value v8
  have hs9 : P s9 := by
    refine setServoState_keeps K (sub rfl hA) ?_
    refine State.setServo_keeps K (sub rfl hA) ?_
    assumption
  try clear_value s9
  have ha10 : P a10.2 := by
    refine State.draw_keeps K (sub rfl hA) ?_
    assumption
  try clear_value a10
  try clear_value acc11
  try clear_value s12
  extract_lets +onlyGivenNames -merge -underBinder s13
  have hs13 : P s13 := by
    refine setF_k K 4 part_rsCandStatusAccK (sub rfl hA) ?_
    refine State.setCand_keeps K (sub rfl hA) ?_
    assumption
  try clear_value s13
  refine servoSample_keeps K (sub rfl hA) ?_
  assumption

theorem ttExchange_keeps (K : Keeps P A) (hA : Sub 7733893922865 A) {k bad raw dbar x sys s} (h_s : P s) :
    P (ttExchange k bad raw dbar x sys s) := by
  unfold ttExchange
  refine ite_k ?_ ?_
  · assumption
  · refine foldl_k ?_ (fun s0 k0 hs0 => ?_)
    · assumption
    · refine ite_k ?_ ?_
      · refine servoExchange_keeps K (sub rfl hA) ?_
        assumption
      · assumption

theorem ttSendEvent_keeps (K : Keeps P A) (hA : Sub 153090836367549185 A) {k m pe me bad s} (h_s : P s) :
    P (ttSendEvent k m pe me bad s) := by
  unfold ttSendEvent
  extract_lets +onlyGivenNames -merge -underBinder y1
  try clear_value y1
  refine ttSentEvent_keeps K (sub rfl hA) ?_
  refine predCheck_keeps K (sub rfl hA) ?_
  refine ttSend_keeps K (sub rfl hA) ?_
  assumption

theorem sendSync_keeps (K : Keeps P A) (hA : Sub 153090836367549185 A) {k pe me bad s} (h_s : P s) :
    P (sendSync k pe me bad s) := by
  unfold sendSync
  extract_lets +onlyGivenNames -merge -underBinder y1 li2 two3 t4 corr5 m6 s7 s8 t19 s10
  try clear_value y1
  try clear_value li2
  try clear_value two3
  try clear_value t4
  try clear_value corr5
  try clear_value m6
  have hs7 : P s7 := by
    refine ttOriginate_keeps K (sub rfl hA) ?_
    refine ttSendEvent_keeps K (sub rfl hA) ?_
    assumption
  try clear_value s7
  try clear_value s8
  have ht19 : P t19 := by
    refine State.setSession_keeps K (sub rfl hA) ?_
    assumption
  try clear_value t19
  try clear_value s10
  extract_lets +onlyGivenNames -merge -underBinder s11
  have hs11 : P s11 := by
    refine ite_k ?_ ?_
    · refine ttSend_keeps K (sub rfl hA) ?_
      assumption
    · assumption
  try clear_value s11
  refine ttRecord_keeps K (sub rfl hA) ?_
  assumption

theorem sendRequest_keeps (K : Keeps P A) (hA : Sub 153090836367549185 A) {k t pe me bad s} (h_s : P s) :
    P (sendRequest k t pe me bad s) := by
  unfold sendRequest
  extract_lets +onlyGivenNames -merge -underBinder y1 body2 m3 s4
  try clear_value y1
  try clear_value body2
  try clear_value m3
  have hs4 : P s4 := by
    refine ttOriginate_keeps K (sub rfl hA) ?_
    refine ttSendEvent_keeps K (sub rfl hA) ?_
    assumption
  try clear_value s4
  refine State.setSession_keeps K (sub rfl hA) ?_
  assumption

theorem sendAnnounce_keeps (K : Keeps P A) (hA : Sub 153090836367548417 A) {k s} (h_s : P s) :
    P (sendAnnounce k s) := by
  unfold sendAnnounce
  extract_lets +onlyGivenNames -merge -underBinder y1 d2 b3 fl14 m5 s6
  try clear_value y1
  try clear_value d2
  try clear_value b3
  try clear_value fl14
  try clear_value m5
  have hs6 : P s6 := by
    refine ttSend_keeps K (sub rfl hA) ?_
    assumption
  try clear_value s6
  refine State.setSession_keeps K (sub rfl hA) ?_
  assumption

theorem sendL1Sync_keeps (K : Keeps P A) (hA : Sub 153090836367548417 A) {k want s} (h_s : P s) :
    P (sendL1Sync k want s) := by
  unfold sendL1Sync
  extract_lets +onlyGivenNames -merge -underBinder y1 tlv2 m3 s4
  try clear_value y1
  try clear_value tlv2
  try clear_value m3
  have hs4 : P s4 := by
    refine ttSend_keeps K (sub rfl hA) ?_
    assumption
  try clear_value s4
  refine State.setSession_keeps K (sub rfl hA) ?_
  assumption

theorem execTtPeriodicTx_keeps (K : Keeps P A) (hA : Sub 153090836367549185 A) {session kind body p m s} (h_s : P s) :
    Nx P (execTtPeriodicTx session kind body p m s) := by
  unfold execTtPeriodicTx
  extract_lets +onlyGivenNames -merge -underBinder y1 s2 bad3
  try clear_value y1
  try clear_value s2
  have hbad3 : P bad3 := by
    refine upd_tt K (sub rfl hA) ?_
    assumption
  try clear_value bad3
  extract_lets +onlyGivenNames -merge -underBinder bad4
  try clear_value bad4
  refine iteN_k ?_ ?_
  · refine next_k ?_
    assumption
  · refine iteN_k ?_ ?_
    · refine next_k ?_
      refine ite_k ?_ ?_
      · refine sendL1Sync_keeps K (sub rfl hA) ?_
        assumption
      · assumption
    · refine iteN_k ?_ ?_
      · refine next_k ?_
        assumption
      · extract_lets +onlyGivenNames -merge -underBinder t5
        have ht5 : P t5 := by
          refine State.setSession_keeps K (sub rfl hA) ?_
          assumption
        try clear_value t5
        refine iteN_k ?_ ?_
        · refine next_k ?_
          refine sendAnnounce_keeps K (sub rfl hA) ?_
          assumption
        · refine iteN_k ?_ ?_
          · refine next_k ?_
            assumption
          · extract_lets +onlyGivenNames -merge -underBinder pe6 me7
            try clear_value pe6
            try clear_value me7
            refine next_k ?_
            refine ite_k ?_ ?_
            · refine sendSync_keeps K (sub rfl hA) ?_
              assumption
            · refine sendRequest_keeps K (sub rfl hA) ?_
              assumption

theorem syncComplete_keeps (K : Keeps P A) (hA : Sub 7735101882673 A) {k e sys s} (h_s : P s) :
    P (syncComplete k e sys s) := by
  unfold syncComplete
  extract_lets +onlyGivenNames -merge -underBinder y1 s2 t13 s4
  try clear_value y1
  have hs2 : P s2 := by
    refine State.setSession_keeps K (sub rfl hA) ?_
    assumption
  try clear_value s2
  try clear_value t13
  have hs4 : P s4 := by
    refine ttRecord_keeps K (sub rfl hA) ?_
    assumption
  try clear_value s4
  split
  · refine ite_k ?_ ?_
    · extract_lets +onlyGivenNames -merge -underBinder raw5
      try clear_value raw5
      refine ttExchange_keeps K (sub rfl hA) ?_
      assumption
    · assumption
  · assumption

theorem delayComplete_keeps (K : Keeps P A) (hA : Sub 7735101882673 A) {k e sys s} (h_s : P s) :
    P (delayComplete k e sys s) := by
  unfold delayComplete
  extract_lets +onlyGivenNames -merge -underBinder y1 s2 t33 t44 s5
  try clear_value y1
  have hs2 : P s2 := by
    refine State.setSession_keeps K (sub rfl hA) ?_
    assumption
  try clear_value s2
  try clear_value t33
  try clear_value t44
  have hs5 : P s5 := by
    refine ttRecord_keeps K (sub rfl hA) ?_
    assumption
  try clear_value s5
  split
  · assumption
  · extract_lets +onlyGivenNames -merge -underBinder d16 d27 bad8
    try clear_value d16
    try clear_value d27
    try clear_value bad8
    refine ttExchange_keeps K (sub rfl hA) ?_
    assumption

theorem peerComplete_keeps (K : Keeps P A) (hA : Sub 1137763680513 A) {k req resp turn s} (h_s : P s) :
    P (peerComplete k req resp turn s) := by
  unfold peerComplete
  extract_lets +onlyGivenNames -merge -underBinder y1 bad2 s3 y4
  try clear_value y1
  try clear_value bad2
  have hs3 : P s3 := by
    refine ttRecord_keeps K (sub rfl hA) ?_
    · assumption
  try clear_value s3
  try clear_value y4
  refine ite_k ?_ ?_
  · refine State.setSession_keeps K (sub rfl hA) ?_
    · assumption
  · extract_lets +onlyGivenNames -merge -underBinder d5
    try clear_value d5
    refine setB_k K 8 part_ttSStateP2pOk (sub rfl hA) ?_
    refine State.setSession_keeps K (sub rfl hA) ?_
    · assumption

theorem gotSync_keeps (K : Keeps P A) (hA : Sub 7735101882673 A) {k r e sys s} (h_s : P s) :
    P (gotSync k r e sys s) := by
  unfold gotSync
  extract_lets +onlyGivenNames -merge -underBinder y1 two2 s3
  try clear_value y1
  try clear_value two2
  have hs3 : P s3 := by
    refine State.setSession_keeps K (sub rfl hA) ?_
    assumption
  try clear_value s3
  refine ite_k ?_ ?_
  · assumption
  · refine syncComplete_keeps K (sub rfl hA) ?_
    assumption

theorem gotFollowUp_keeps (K : Keeps P A) (hA : Sub 7735101882673 A) {k m sys s} (h_s : P s) :
    P (gotFollowUp k m sys s) := by
  unfold gotFollowUp
  split
  · assumption
  · refine ite_k ?_ ?_
    · assumption
    · refine syncComplete_keeps K (sub rfl hA) ?_
      assumption

theorem gotDelayResp_keeps (K : Keeps P A) (hA : Sub 7735101882673 A) {k m sys s} (h_s : P s) :
    P (gotDelayResp k m sys s) := by
  unfold gotDelayResp
  extract_lets +onlyGivenNames -merge -underBinder y1
  try clear_value y1
  split
  · assumption
  · refine ite_k ?_ ?_
    · assumption
    · refine delayComplete_keeps K (sub rfl hA) ?_
      assumption

theorem gotDelayReq_keeps (K : Keeps P A) (hA : Sub 153090836367548417 A) {k r s} (h_s : P s) :
    P (gotDelayReq k r s) := by
  unfold gotDelayReq
  extract_lets +onlyGivenNames -merge -underBinder y1
  try clear_value y1
  refine ite_k ?_ ?_
  · assumption
  · extract_lets +onlyGivenNames -merge -underBinder t42 m3
    try clear_value t42
    try clear_value m3
    refine ttSend_keeps K (sub rfl hA) ?_
    assumption

theorem gotPdelayReq_keeps (K : Keeps P A) (hA : Sub 153090836367549185 A) {k r pe me bad s} (h_s : P s) :
    P (gotPdelayReq k r pe me bad s) := by
  unfold gotPdelayReq
  extract_lets +onlyGivenNames -merge -underBinder y1 a2 two3
  try clear_value y1
  have ha2 : P a2.2 := by
    refine ttAnswer_keeps K (sub rfl hA) ?_
    assumption
  try clear_value a2
  try clear_value two3
  refine ite_k ?_ ?_
  · assumption
  · extract_lets +onlyGivenNames -merge -underBinder s4 t25 seq6 who7 corr8 m9 s10 t311
    have hs4 : P s4 := by
      assumption
    try clear_value s4
    try clear_value t25
    try clear_value seq6
    try clear_value who7
    try clear_value corr8
    try clear_value m9
    have hs10 : P s10 := by
      refine ttSendEvent_keeps K (sub rfl hA) ?_
      assumption
    try clear_value s10
    try clear_value t311
    refine ite_k ?_ ?_
    · refine ttSend_keeps K (sub rfl hA) ?_
      assumption
    · assumption

theorem gotPdelayResp_keeps (K : Keeps P A) (hA : Sub 1137763680513 A) {k r e s} (h_s : P s) :
    P (gotPdelayResp k r e s) := by
  unfold gotPdelayResp
  extract_lets +onlyGivenNames -merge -underBinder y1
  try clear_value y1
  split
  · assumption
  · refine ite_k ?_ ?_
    · assumption
    · refine ite_k ?_ ?_
      · refine State.setSession_keeps K (sub rfl hA) ?_
        · assumption
      · refine peerComplete_keeps K (sub rfl hA) ?_
        · assumption

theorem gotPdelayFollowUp_keeps (K : Keeps P A) (hA : Sub 1137763680513 A) {k m s} (h_s : P s) :
    P (gotPdelayFollowUp k m s) := by
  unfold gotPdelayFollowUp
  extract_lets +onlyGivenNames -merge -underBinder y1
  try clear_value y1
  split
  · refine ite_k ?_ ?_
    · assumption
    · refine peerComplete_keeps K (sub rfl hA) ?_
      · assumption
  · assumption

theorem gotListen_keeps (K : Keeps P A) (hA : Sub 1137763680513 A) {k t r e s} (h_s : P s) :
    P (gotListen k t r e s) := by
  unfold gotListen
  refine ttRecord_keeps K (sub rfl hA) ?_
  · assumption

theorem execPtpMessageRx_keeps (K : Keeps P A) (hA : Sub 153095234414060337 A) {p m sys s} (h_s : P s) :
    Nx P (execPtpMessageRx p m sys s) := by
  unfold execPtpMessageRx
  split
  · refine next_k ?_
    assumption
  · extract_lets +onlyGivenNames -merge -underBinder s1 k2 y3 t4
    try clear_value s1
    have hk2 : P k2 := by
      refine upd_tt K (sub rfl hA) ?_
      assumption
    try clear_value k2
    try clear_value y3
    try clear_value t4
    extract_lets +onlyGivenNames -merge -underBinder t5
    try clear_value t5
    refine iteN_k ?_ ?_
    · refine next_k ?_
      assumption
    · extract_lets +onlyGivenNames -merge -underBinder a6 s7 e8 pe9 me10 bad11
      have ha6 : P a6.2 := by
        refine ite2_k ?_ ?_
        · refine ttAccept_keeps K (sub rfl hA) ?_
          assumption
        · refine mk2_k ?_
          assumption
      try clear_value a6
      have hs7 : P s7 := by
        assumption
      try clear_value s7
      try clear_value e8
      try clear_value pe9
      try clear_value me10
      try clear_value bad11
      refine iteN_k ?_ ?_
      · refine next_k ?_
        assumption
      · refine iteN_k ?_ ?_
        · refine next_k ?_
          refine gotListen_keeps K (sub rfl hA) ?_
          assumption
        · refine iteN_k ?_ ?_
          · refine next_k ?_
            refine gotSync_keeps K (sub rfl hA) ?_
            assumption
          · refine iteN_k ?_ ?_
            · refine next_k ?_
              refine gotDelayReq_keeps K (sub rfl hA) ?_
              assumption
            · refine iteN_k ?_ ?_
              · refine next_k ?_
                refine gotPdelayReq_keeps K (sub rfl hA) ?_
                assumption
              · refine iteN_k ?_ ?_
                · refine next_k ?_
                  refine gotPdelayResp_keeps K (sub rfl hA) ?_
                  assumption
                · refine iteN_k ?_ ?_
                  · refine next_k ?_
                    refine gotFollowUp_keeps K (sub rfl hA) ?_
                    assumption
                  · refine iteN_k ?_ ?_
                    · refine next_k ?_
                      refine gotDelayResp_keeps K (sub rfl hA) ?_
                      assumption
                    · refine iteN_k ?_ ?_
                      · refine next_k ?_
                        refine gotPdelayFollowUp_keeps K (sub rfl hA) ?_
                        assumption
                      · refine iteN_k ?_ ?_
                        · refine next_k ?_
                          refine State.setSession_keeps K (sub rfl hA) ?_
                          assumption
                        · refine next_k ?_
                          assumption

theorem psiSample_keeps (K : Keeps P A) (hA : Sub 1099780063232 A) {m e s} (h_s : P s) :
    P (psiSample m e s) := by
  unfold psiSample
  extract_lets +onlyGivenNames -merge -underBinder w1 ph2 ms3
  try clear_value w1
  try clear_value ph2
  try clear_value ms3
  split
  · extract_lets +onlyGivenNames -merge -underBinder d4 __src5
    have hd4 : P d4.2 := by
      refine State.draw_keeps K (sub rfl hA) ?_
      assumption
    try clear_value d4
    have h__src5 : P __src5 := by
      assumption
    try clear_value __src5
    refine upd_tt K (sub rfl hA) ?_
    assumption
  · extract_lets +onlyGivenNames -merge -underBinder psi6 v7 s8 x'9
    try clear_value psi6
    try clear_value v7
    have hs8 : P s8 := by
      refine ite_k ?_ ?_
      · assumption
      · refine foldl_k ?_ (fun s0 k0 hs0 => ?_)
        · assumption
        · extract_lets +onlyGivenNames -merge -underBinder y10
          try clear_value y10
          refine ite_k ?_ ?_
          · refine State.setSession_keeps K (sub rfl hA) ?_
            assumption
          · assumption
    try clear_value s8
    try clear_value x'9
    refine upd_tt K (sub rfl hA) ?_
    assumption

theorem execPhaseSample_keeps (K : Keeps P A) (hA : Sub 8006087475232 A) {m tx sys s} (h_s : P s) :
    Nx P (execPhaseSample m tx sys s) := by
  unfold execPhaseSample
  split
  · refine next_k ?_
    assumption
  · extract_lets +onlyGivenNames -merge -underBinder n1 mode2
    try clear_value n1
    try clear_value mode2
    refine iteN_k ?_ ?_
    · refine next_k ?_
      assumption
    · refine iteN_k ?_ ?_
      · refine next_k ?_
        refine State.setLane_keeps K (sub rfl hA) ?_
        assumption
      · extract_lets +onlyGivenNames -merge -underBinder x3 s4
        try clear_value x3
        have hs4 : P s4 := by
          refine psiSample_keeps K (sub rfl hA) ?_
          assumption
        try clear_value s4
        refine next_k ?_
        refine foldl_k ?_ (fun s0 k0 hs0 => ?_)
        · assumption
        · extract_lets +onlyGivenNames -merge -underBinder v5
          try clear_value v5
          refine ite_k ?_ ?_
          · assumption
          · refine ite_k ?_ ?_
            · refine refSample_keeps K (sub rfl hA) ?_
              assumption
            · refine ite_k ?_ ?_
              · refine monitorSample_keeps K (sub rfl hA) ?_
                assumption
              · assumption

theorem execTtPhaseReportTx_keeps (K : Keeps P A) (hA : Sub 153090836367548417 A) {session s} (h_s : P s) :
    Nx P (execTtPhaseReportTx session s) := by
  unfold execTtPhaseReportTx
  extract_lets +onlyGivenNames -merge -underBinder y1 org2
  try clear_value y1
  try clear_value org2
  refine iteN_k ?_ ?_
  · refine next_k ?_
    assumption
  · extract_lets +onlyGivenNames -merge -underBinder w3 valid4 fl5 v6 m7 s8
    try clear_value w3
    try clear_value valid4
    try clear_value fl5
    try clear_value v6
    try clear_value m7
    try clear_value s8
    extract_lets +onlyGivenNames -merge -underBinder s9
    have hs9 : P s9 := by
      refine ttSend_keeps K (sub rfl hA) ?_
      refine upd_tt K (sub rfl hA) ?_
      assumption
    try clear_value s9
    refine next_k ?_
    refine State.setSession_keeps K (sub rfl hA) ?_
    assumption

theorem trackReport_keeps (K : Keeps P A) (hA : Sub 1099511627776 A) {k stop far s} (h_s : P s) :
    P (trackReport k stop far s) := by
  unfold trackReport
  extract_lets +onlyGivenNames -merge -underBinder y1 th2
  try clear_value y1
  try clear_value th2
  split
  · assumption
  · extract_lets +onlyGivenNames -merge -underBinder sg3 d4
    try clear_value sg3
    try clear_value d4
    split
    · refine State.setSession_keeps K (sub rfl hA) ?_
      · assumption
    · refine State.setSession_keeps K (sub rfl hA) ?_
      · assumption

theorem execTtPhaseReportRx_keeps (K : Keeps P A) (hA : Sub 1102195982593 A) {s} (h_s : P s) :
    Nx P (execTtPhaseReportRx s) := by
  unfold execTtPhaseReportRx
  split
  · refine next_k ?_
    assumption
  · extract_lets +onlyGivenNames -merge -underBinder src1 s2 k3 y4 v5
    try clear_value src1
    have hs2 : P s2 := by
      refine upd_tt K (sub rfl hA) ?_
      assumption
    try clear_value s2
    try clear_value k3
    try clear_value y4
    try clear_value v5
    refine iteN_k ?_ ?_
    · refine next_k ?_
      assumption
    · extract_lets +onlyGivenNames -merge -underBinder fl6 lat7 moved8 s9 s10
      try clear_value fl6
      try clear_value lat7
      try clear_value moved8
      have hs9 : P s9 := by
        refine addWrap_k K 8 part_ttSStateReports (sub rfl hA) ?_
        assumption
      try clear_value s9
      have hs10 : P s10 := by
        refine State.setSession_keeps K (sub rfl hA) ?_
        · assumption
      try clear_value s10
      refine iteN_k ?_ ?_
      · refine next_k ?_
        refine leavePhase_keeps K (sub rfl hA) ?_
        · assumption
      · refine iteN_k ?_ ?_
        · refine next_k ?_
          refine trackReport_keeps K (sub rfl hA) ?_
          · assumption
        · refine next_k ?_
          assumption

theorem execTtPhaseEntry_keeps (K : Keeps P A) (hA : Sub 1102195982593 A) {session s} (h_s : P s) :
    Nx P (execTtPhaseEntry session s) := by
  unfold execTtPhaseEntry
  extract_lets +onlyGivenNames -merge -underBinder y1 slaveEnd2
  try clear_value y1
  try clear_value slaveEnd2
  refine iteN_k ?_ ?_
  · refine next_k ?_
    assumption
  · refine next_k ?_
    refine setTtState_keeps K (sub rfl hA) ?_
    · refine State.setSession_keeps K (sub rfl hA) ?_
      · assumption

theorem execTtReportTimeout_keeps (K : Keeps P A) (hA : Sub 1102195982593 A) {session s} (h_s : P s) :
    Nx P (execTtReportTimeout session s) := by
  unfold execTtReportTimeout
  refine iteN_k ?_ ?_
  · refine next_k ?_
    assumption
  · refine next_k ?_
    refine leavePhase_keeps K (sub rfl hA) ?_
    · assumption

theorem execTtPhaseSlip_keeps (K : Keeps P A) (hA : Sub 1102195982593 A) {servo s} (h_s : P s) :
    Nx P (execTtPhaseSlip servo s) := by
  unfold execTtPhaseSlip
  extract_lets +onlyGivenNames -merge -underBinder v1
  try clear_value v1
  refine iteN_k ?_ ?_
  · refine next_k ?_
    assumption
  · extract_lets +onlyGivenNames -merge -underBinder y2 s3
    try clear_value y2
    have hs3 : P s3 := by
      refine raiseEv_keeps K (sub rfl hA) ?_
      · assumption
    try clear_value s3
    refine next_k ?_
    refine leavePhase_keeps K (sub rfl hA) ?_
    · refine State.setServo_keeps K (sub rfl hA) ?_
      · assumption

theorem execTtServoTimeout_keeps (K : Keeps P A) (hA : Sub 146339558887006265 A) {servo s} (h_s : P s) :
    Nx P (execTtServoTimeout servo s) := by
  unfold execTtServoTimeout
  extract_lets +onlyGivenNames -merge -underBinder v1
  try clear_value v1
  refine iteN_k ?_ ?_
  · refine next_k ?_
    assumption
  · refine next_k ?_
    refine loseCand_keeps K (sub rfl hA) ?_
    · refine setServoState_keeps K (sub rfl hA) ?_
      · assumption

theorem servoTick_keeps (K : Keeps P A) (hA : Sub 7730941132832 A) {s} (h_s : P s) :
    P (servoTick s) := by
  unfold servoTick
  refine foldl_k ?_ (fun s0 k0 hs0 => ?_)
  · assumption
  · extract_lets +onlyGivenNames -merge -underBinder v1
    try clear_value v1
    refine ite_k ?_ ?_
    · refine servoSample_keeps K (sub rfl hA) ?_
      assumption
    · assumption

theorem execAsymApply_keeps (K : Keeps P A) (hA : Sub 1168231104512 A) {port s} (h_s : P s) :
    Nx P (execAsymApply port s) := by
  unfold execAsymApply
  refine next_k ?_
  refine ite_k ?_ ?_
  · refine applyAsym_keeps K (sub rfl hA) ?_
    · assumption
  · assumption

theorem mgmtForward_keeps (K : Keeps P A) (hA : Sub 145208127062286337 A) {egress d s} (h_s : P s) :
    P (mgmtForward egress d s) := by
  unfold mgmtForward
  extract_lets +onlyGivenNames -merge -underBinder t1 src2 s3 src4 f5
  try clear_value t1
  try clear_value src2
  have hs3 : P s3 := by
    refine upd_bf K (sub rfl hA) ?_
    assumption
  try clear_value s3
  try clear_value src4
  try clear_value f5
  refine admitFrame_keeps K (sub rfl hA) ?_
  · refine countRx_keeps K (sub rfl hA) ?_
    · assumption

theorem mgmtDrain_keeps (K : Keeps P A) (hA : Sub 145208127062286337 A) {a aa1} (h_aa1 : P aa1) :
    P (mgmtDrain a aa1) := by
  induction a generalizing aa1 with
  | zero =>
    rw [mgmtDrain]
    try (conv => zeta)
    assumption
  | succ k ih =>
    rw [mgmtDrain]
    try (conv => zeta)
    split
    · assumption
    · refine ite_k ?_ ?_
      · assumption
      · refine ih ?_
        refine mgmtForward_keeps K (sub rfl hA) ?_
        · refine addOcc_keeps K (sub rfl hA) ?_
          · refine upd_bf K (sub rfl hA) ?_
            assumption

theorem mgmtShaped_keeps (K : Keeps P A) (hA : Sub 146334026969128963 A) {s} (h_s : P s) :
    P (mgmtShaped s) := by
  unfold mgmtShaped
  extract_lets +onlyGivenNames -merge -underBinder n1 quiet2
  try clear_value n1
  try clear_value quiet2
  refine ite_k ?_ ?_
  · extract_lets +onlyGivenNames -merge -underBinder d3 src4 src5 s6
    have hd3 : P d3.2 := by
      refine State.draw_keeps K (sub rfl hA) ?_
      · assumption
    try clear_value d3
    have hsrc4 : P src4 := by
      assumption
    try clear_value src4
    try clear_value src5
    have hs6 : P s6 := by
      refine upd_bf K (sub rfl hA) ?_
      assumption
    try clear_value s6
    refine guardViolations_keeps K (sub rfl hA) ?_
    · assumption
  · refine upd_bf K (sub rfl hA) ?_
    assumption

theorem mgmtSend_keeps (K : Keeps P A) (hA : Sub 146334026969128963 A) {egress d s} (h_s : P s) :
    P (mgmtSend egress d s) := by
  unfold mgmtSend
  extract_lets +onlyGivenNames -merge -underBinder s1
  have hs1 : P s1 := by
    refine mgmtDrain_keeps K (sub rfl hA) ?_
    · assumption
  try clear_value s1
  refine ite_k ?_ ?_
  · refine mgmtForward_keeps K (sub rfl hA) ?_
    · assumption
  · extract_lets +onlyGivenNames -merge -underBinder s2 n3
    have hs2 : P s2 := by
      refine mgmtShaped_keeps K (sub rfl hA) ?_
      · assumption
    try clear_value s2
    try clear_value n3
    refine ite_k ?_ ?_
    · refine addOcc_keeps K (sub rfl hA) ?_
      · refine upd_bf K (sub rfl hA) ?_
        assumption
    · refine count_keeps K (sub rfl hA) ?_
      · assumption

theorem execEsmcPduTx_keeps (K : Keeps P A) (hA : Sub 146334026969128963 A) {changed s} (h_s : P s) :
    Nx P (execEsmcPduTx changed s) := by
  unfold execEsmcPduTx
  refine iteN_k ?_ ?_
  · refine next_k ?_
    assumption
  · refine next_k ?_
    refine foldl_k ?_ (fun s0 k0 hs0 => ?_)
    · assumption
    · refine ite_k ?_ ?_
      · assumption
      · refine mgmtSend_keeps K (sub rfl hA) ?_
        · assumption

theorem ttSessionSetEffect_keeps (K : Keeps P A) (hA : Sub 146339558887006265 A) {c s} (h_s : P s) :
    P (ttSessionSetEffect c s).1 := by
  unfold ttSessionSetEffect
  extract_lets +onlyGivenNames -merge -underBinder k1 y2 s3 s4
  try clear_value k1
  try clear_value y2
  try clear_value s3
  have hs4 : P s4 := by
    refine State.setSession_keeps K (sub rfl hA) ?_
    assumption
  try clear_value s4
  extract_lets +onlyGivenNames -merge -underBinder s5
  have hs5 : P s5 := by
    refine foldl_k ?_ (fun s0 k0 hs0 => ?_)
    · assumption
    · refine ite_k ?_ ?_
      · refine State.setCand_keeps K (sub rfl hA) ?_
        assumption
      · assumption
  try clear_value s5
  refine mk1_k ?_
  refine evaluateAll_keeps K (sub rfl hA) ?_
  assumption

theorem execTtSessionSet_keeps (K : Keeps P A) (hA : Sub 4767032777778143293 A) {c s} (h_s : P s) :
    Nx P (execTtSessionSet c s) := by
  unfold execTtSessionSet
  refine runCmd_keeps K (sub rfl hA) ?_ ?_
  · intro _ _ hh
    refine ttSessionSetEffect_keeps K (sub rfl hA) ?_
    assumption
  · assumption

theorem ttSessionGetEffect_keeps (K : Keeps P A) (hA : Sub 0 A) {c s} (h_s : P s) :
    P (ttSessionGetEffect c s).1 := by
  unfold ttSessionGetEffect
  extract_lets +onlyGivenNames -merge -underBinder k1 w2
  try clear_value k1
  try clear_value w2
  refine mk1_k ?_
  assumption

theorem execTtSessionGet_keeps (K : Keeps P A) (hA : Sub 4620693225333587972 A) {c s} (h_s : P s) :
    Nx P (execTtSessionGet c s) := by
  unfold execTtSessionGet
  refine runCmd_keeps K (sub rfl hA) ?_ ?_
  · intro _ _ hh
    refine ttSessionGetEffect_keeps K (sub rfl hA) ?_
    assumption
  · assumption

theorem ttSessionEnableEffect_keeps (K : Keeps P A) (hA : Sub 1102195982593 A) {c s} (h_s : P s) :
    P (ttSessionEnableEffect c s).1 := by
  unfold ttSessionEnableEffect
  extract_lets +onlyGivenNames -merge -underBinder k1 y2
  try clear_value k1
  try clear_value y2
  refine ite1_k ?_ ?_
  · refine ite1_k ?_ ?_
    · refine mk1_k ?_
      assumption
    · extract_lets +onlyGivenNames -merge -underBinder src3 s4 s5 s6
      try clear_value src3
      have hs4 : P s4 := by
        refine State.setSession_keeps K (sub rfl hA) ?_
        · assumption
      try clear_value s4
      have hs5 : P s5 := by
        refine setF_k K 8 part_ttSDrop (sub rfl hA) ?_
        refine setF_k K 8 part_ttSRxcnt (sub rfl hA) ?_
        refine setF_k K 8 part_ttSTxcnt (sub rfl hA) ?_
        assumption
      try clear_value s5
      have hs6 : P s6 := by
        refine setB_k K 8 part_ttSStateP2pOk (sub rfl hA) ?_
        refine setF_k K 8 part_ttSStateReports (sub rfl hA) ?_
        assumption
      try clear_value s6
      refine mk1_k ?_
      refine setTtState_keeps K (sub rfl hA) ?_
      · assumption
  · extract_lets +onlyGivenNames -merge -underBinder src7 s8
    try clear_value src7
    have hs8 : P s8 := by
      refine State.setSession_keeps K (sub rfl hA) ?_
      · assumption
    try clear_value s8
    refine mk1_k ?_
    refine setTtState_keeps K (sub rfl hA) ?_
    · refine upd_tt K (sub rfl hA) ?_
      assumption

theorem execTtSessionEnable_keeps (K : Keeps P A) (hA : Sub 4620694325382086917 A) {c s} (h_s : P s) :
    Nx P (execTtSessionEnable c s) := by
  unfold execTtSessionEnable
  refine runCmd_keeps K (sub rfl hA) ?_ ?_
  · intro _ _ hh
    refine ttSessionEnableEffect_keeps K (sub rfl hA) ?_
    assumption
  · assumption

theorem ttSetAsymmetryEffect_keeps (K : Keeps P A) (hA : Sub 71672266753 A) {c s} (h_s : P s) :
    P (ttSetAsymmetryEffect c s).1 := by
  unfold ttSetAsymmetryEffect
  extract_lets +onlyGivenNames -merge -underBinder p1 v2 k3 f4 s5
  try clear_value p1
  try clear_value v2
  try clear_value k3
  have hf4 : P f4.2 := by
    refine fixXc_keeps K (sub rfl hA) ?_
    · assumption
  try clear_value f4
  have hs5 : P s5 := by
    refine timedAdd_keeps K (sub rfl hA) ?_
    · assumption
  try clear_value s5
  refine mk1_k ?_
  refine raiseEv_keeps K (sub rfl hA) ?_
  · assumption

theorem execTtSetAsymmetry_keeps (K : Keeps P A) (hA : Sub 4620693294858371077 A) {c s} (h_s : P s) :
    Nx P (execTtSetAsymmetry c s) := by
  unfold execTtSetAsymmetry
  refine runCmd_keeps K (sub rfl hA) ?_ ?_
  · intro _ _ hh
    refine ttSetAsymmetryEffect_keeps K (sub rfl hA) ?_
    assumption
  · assumption

theorem ttServoSetEffect_keeps (K : Keeps P A) (hA : Sub 146339558887006265 A) {c s} (h_s : P s) :
    P (ttServoSetEffect c s).1 := by
  unfold ttServoSetEffect
  extract_lets +onlyGivenNames -merge -underBinder n1 m2 v3 keep4 v'5 s6 y7 i8 k9 s10 s11
  try clear_value n1
  try clear_value m2
  try clear_value v3
  try clear_value keep4
  try clear_value v'5
  try clear_value s6
  have hy7 : P y7 := by
    refine setServoState_keeps K (sub rfl hA) ?_
    refine State.setServo_keeps K (sub rfl hA) ?_
    assumption
  try clear_value y7
  try clear_value i8
  try clear_value k9
  try clear_value s10
  have hs11 : P s11 := by
    refine State.setCand_keeps K (sub rfl hA) ?_
    assumption
  try clear_value s11
  extract_lets +onlyGivenNames -merge -underBinder s12
  have hs12 : P s12 := by
    refine setB_k K 4 part_rsCandStatusKind (sub rfl hA) ?_
    assumption
  try clear_value s12
  refine mk1_k ?_
  refine evaluateAll_keeps K (sub rfl hA) ?_
  refine candEnable_keeps K (sub rfl hA) ?_
  assumption

theorem execTtServoSet_keeps (K : Keeps P A) (hA : Sub 4767032777778143293 A) {c s} (h_s : P s) :
    Nx P (execTtServoSet c s) := by
  unfold execTtServoSet
  refine runCmd_keeps K (sub rfl hA) ?_ ?_
  · intro _ _ hh
    refine ttServoSetEffect_keeps K (sub rfl hA) ?_
    assumption
  · assumption

theorem ttServoStatusEffect_keeps (K : Keeps P A) (hA : Sub 0 A) {c s} (h_s : P s) :
    P (ttServoStatusEffect c s).1 := by
  unfold ttServoStatusEffect
  extract_lets +onlyGivenNames -merge -underBinder v1 y2 bound3
  try clear_value v1
  try clear_value y2
  try clear_value bound3
  refine mk1_k ?_
  assumption

theorem execTtServoStatus_keeps (K : Keeps P A) (hA : Sub 4620693225333587972 A) {c s} (h_s : P s) :
    Nx P (execTtServoStatus c s) := by
  unfold execTtServoStatus
  refine runCmd_keeps K (sub rfl hA) ?_ ?_
  · intro _ _ hh
    refine ttServoStatusEffect_keeps K (sub rfl hA) ?_
    assumption
  · assumption

end Sys2Proof.Machine
end

