-- ==== Sys2Proof/Laws/KeepGnss.lean ====
section
/-! SUPPORT. What the operations of Sys2Proof/Machine/Gnss.lean keep (Sys2Proof/Laws/Keeps.lean): the mask in each lemma names the parts
of the state that the operation can touch. -/

set_option Elab.async false

namespace Sys2Proof.Machine

variable {P : State → Prop} {A : Nat}

theorem State.setGnSol_keeps (K : Keeps P A) (hA : Sub 8796093022208 A) {s k x} (h_s : P s) :
    P (State.setGnSol s k x) := by
  unfold State.setGnSol
  refine ite_k ?_ ?_
  · refine upd_gn K (sub rfl hA) ?_
    assumption
  · refine upd_gn K (sub rfl hA) ?_
    assumption

theorem showHeld_keeps (K : Keeps P A) (hA : Sub 128 A) {b s} (h_s : P s) :
    P (showHeld b s) := by
  unfold showHeld
  refine setB_k K 7 part_gnSolStatusHold (sub rfl hA) ?_
  refine setB_k K 7 part_gnSolStatusHold (sub rfl hA) ?_
  assumption

theorem setGnState_keeps (K : Keeps P A) (hA : Sub 146347255468400825 A) {k st cause s} (h_s : P s) :
    P (setGnState k st cause s) := by
  unfold setGnState
  extract_lets +onlyGivenNames -merge -underBinder old1 s2
  try clear_value old1
  have hs2 : P s2 := by
    refine setF_k K 7 part_gnSolStatusCause (sub rfl hA) ?_
    assumption
  try clear_value s2
  refine ite_k ?_ ?_
  · assumption
  · extract_lets +onlyGivenNames -merge -underBinder s3 src4 s5 src6 s7 s8
    have hs3 : P s3 := by
      refine setF_k K 7 part_gnSolStatusState (sub rfl hA) ?_
      assumption
    try clear_value s3
    try clear_value src4
    have hs5 : P s5 := by
      refine ite_k ?_ ?_
      · refine State.setGnSol_keeps K (sub rfl hA) ?_
        · assumption
      · assumption
    try clear_value s5
    try clear_value src6
    have hs7 : P s7 := by
      refine ite_k ?_ ?_
      · refine State.setGnSol_keeps K (sub rfl hA) ?_
        · assumption
      · assumption
    try clear_value s7
    have hs8 : P s8 := by
      refine raiseEv_keeps K (sub rfl hA) ?_
      · assumption
    try clear_value s8
    refine ite_k ?_ ?_
    · refine loseCand_keeps K (sub rfl hA) ?_
      · assumption
    · assumption

theorem GnCheck.s_keeps (K : Keeps P A) (hA : Sub 0 A) {self} (h_self : P self.s) :
    P (GnCheck.s self) := by
  unfold GnCheck.s
  assumption

theorem excludeSat_keeps (K : Keeps P A) (hA : Sub 2684354561 A) {k l c j v} (h_v : P v.s) :
    P (excludeSat k l c j v).s := by
  unfold excludeSat
  extract_lets +onlyGivenNames -merge -underBinder t1
  try clear_value t1
  refine mk_gn_k ?_
  refine raiseEv_keeps K (sub rfl hA) ?_
  · assumption

theorem GnCheck.found_keeps (K : Keeps P A) (hA : Sub 0 A) {v c} (h_v : P v.s) :
    P (GnCheck.found v c).s := by
  unfold GnCheck.found
  refine mk_gn_k ?_
  assumption

theorem checkResidual_keeps (K : Keeps P A) (hA : Sub 2684354561 A) {k l o v} (h_v : P v.s) :
    P (checkResidual k l o v).s := by
  unfold checkResidual
  split
  · assumption
  · refine ite_g (Q := fun r : GnCheck => P r.s) ?_ ?_
    · assumption
    · extract_lets +onlyGivenNames -merge -underBinder v1 again2
      have hv1 : P v1.s := by
        refine excludeSat_keeps K (sub rfl hA) ?_
        · assumption
      try clear_value v1
      try clear_value again2
      refine mk_gn_k ?_
      assumption

theorem checkIono_keeps (K : Keeps P A) (hA : Sub 2684354561 A) {k l v} (h_v : P v.s) :
    P (checkIono k l v).s := by
  unfold checkIono
  extract_lets +onlyGivenNames -merge -underBinder bad1 v2
  try clear_value bad1
  have hv2 : P v2.s := by
    refine foldl_g (Q := fun r : GnCheck => P r.s) ?_ (fun s0 k0 hs0 => ?_)
    · assumption
    · refine excludeSat_keeps K (sub rfl hA) ?_
      · assumption
  try clear_value v2
  refine ite_g (Q := fun r : GnCheck => P r.s) ?_ ?_
  · refine GnCheck.found_keeps K (sub rfl hA) ?_
    · assumption
  · assumption

theorem checkSystems_keeps (K : Keeps P A) (hA : Sub 2684354561 A) {k l o v} (h_v : P v.s) :
    P (checkSystems k l o v).s := by
  unfold checkSystems
  extract_lets +onlyGivenNames -merge -underBinder y1
  try clear_value y1
  split
  · assumption
  · extract_lets +onlyGivenNames -merge -underBinder bad2 v3
    try clear_value bad2
    have hv3 : P v3.s := by
      refine foldl_g (Q := fun r : GnCheck => P r.s) ?_ (fun s0 k0 hs0 => ?_)
      · assumption
      · refine foldl_g (Q := fun r : GnCheck => P r.s) ?_ (fun s0 k0 hs0 => ?_)
        · assumption
        · refine excludeSat_keeps K (sub rfl hA) ?_
          · assumption
    try clear_value v3
    refine ite_g (Q := fun r : GnCheck => P r.s) ?_ ?_
    · refine GnCheck.found_keeps K (sub rfl hA) ?_
      · assumption
    · assumption

theorem checkPosition_keeps (K : Keeps P A) (hA : Sub 8796093022208 A) {k o v} (h_v : P v.s) :
    P (checkPosition k o v).s := by
  unfold checkPosition
  split
  · assumption
  · extract_lets +onlyGivenNames -merge -underBinder g1 r2 y3 n4 v5
    try clear_value g1
    try clear_value r2
    try clear_value y3
    try clear_value n4
    have hv5 : P v5.s := by
      refine mk_gn_k ?_
      refine State.setGnSol_keeps K (sub rfl hA) ?_
      · assumption
    try clear_value v5
    refine ite_g (Q := fun r : GnCheck => P r.s) ?_ ?_
    · refine GnCheck.found_keeps K (sub rfl hA) ?_
      · assumption
    · assumption

theorem checkPower_keeps (K : Keeps P A) (hA : Sub 0 A) {l v} (h_v : P v.s) :
    P (checkPower l v).s := by
  unfold checkPower
  extract_lets +onlyGivenNames -merge -underBinder c1 n2 q3
  try clear_value c1
  try clear_value n2
  try clear_value q3
  refine ite_g (Q := fun r : GnCheck => P r.s) ?_ ?_
  · refine GnCheck.found_keeps K (sub rfl hA) ?_
    · assumption
  · assumption

theorem takeDecoded_keeps (K : Keeps P A) (hA : Sub 8798777376769 A) {d s} (h_s : P s) :
    P (takeDecoded d s) := by
  unfold takeDecoded
  extract_lets +onlyGivenNames -merge -underBinder same1 new2 iss3 put4
  try clear_value same1
  try clear_value new2
  try clear_value iss3
  split
  · try dsimp only [put4]
    try (conv => zeta)
    refine upd_gn K (sub rfl hA) ?_
    assumption
  · extract_lets +onlyGivenNames -merge -underBinder old5
    try clear_value old5
    refine ite_k ?_ ?_
    · assumption
    · refine ite_k ?_ ?_
      · refine ite_k ?_ ?_
        · try dsimp only [put4]
          try (conv => zeta)
          refine upd_gn K (sub rfl hA) ?_
          refine raiseEv_keeps K (sub rfl hA) ?_
          · assumption
        · try dsimp only [put4]
          try (conv => zeta)
          refine upd_gn K (sub rfl hA) ?_
          assumption
      · try dsimp only [put4]
        try (conv => zeta)
        refine upd_gn K (sub rfl hA) ?_
        assumption

theorem takeLeap_keeps (K : Keeps P A) (hA : Sub 8798777376769 A) {k o s} (h_s : P s) :
    P (takeLeap k o s) := by
  unfold takeLeap
  split
  · assumption
  · refine ite_k ?_ ?_
    · assumption
    · refine raiseEv_keeps K (sub rfl hA) ?_
      · refine State.setGnSol_keeps K (sub rfl hA) ?_
        · assumption

theorem validEpoch_keeps (K : Keeps P A) (hA : Sub 15427522527280 A) {k f tg s} (h_s : P s) :
    P (validEpoch k f tg s) := by
  unfold validEpoch
  extract_lets +onlyGivenNames -merge -underBinder kc1 y2 keep3 s4 s5 s6
  try clear_value kc1
  try clear_value y2
  try clear_value keep3
  have hs4 : P s4 := by
    refine State.setGnSol_keeps K (sub rfl hA) ?_
    assumption
  try clear_value s4
  have hs5 : P s5 := by
    refine setF_k K 4 part_rsCandStatusAccK (sub rfl hA) ?_
    assumption
  try clear_value s5
  try clear_value s6
  extract_lets +onlyGivenNames -merge -underBinder s7
  have hs7 : P s7 := by
    refine State.setCand_keeps K (sub rfl hA) ?_
    assumption
  try clear_value s7
  refine refSample_keeps K (sub rfl hA) ?_
  assumption

theorem epochState_keeps (K : Keeps P A) (hA : Sub 146347255468400825 A) {k cause ok s} (h_s : P s) :
    P (epochState k cause ok s) := by
  unfold epochState
  split
  · refine ite_k ?_ ?_
    · assumption
    · refine ite_k ?_ ?_
      · refine setGnState_keeps K (sub rfl hA) ?_
        · assumption
      · refine ite_k ?_ ?_
        · refine setGnState_keeps K (sub rfl hA) ?_
          · assumption
        · assumption
  · assumption
  · refine ite_k ?_ ?_
    · assumption
    · refine setGnState_keeps K (sub rfl hA) ?_
      · assumption
  · refine ite_k ?_ ?_
    · refine setGnState_keeps K (sub rfl hA) ?_
      · assumption
    · refine setGnState_keeps K (sub rfl hA) ?_
      · assumption

theorem surveyFix_keeps (K : Keeps P A) (hA : Sub 8796093022208 A) {k f s} (h_s : P s) :
    P (surveyFix k f s) := by
  unfold surveyFix
  extract_lets +onlyGivenNames -merge -underBinder y1
  try clear_value y1
  refine State.setGnSol_keeps K (sub rfl hA) ?_
  · assumption

theorem execGnssEpoch_keeps (K : Keeps P A) (hA : Sub 146347255468400825 A) {sol o s} (h_s : P s) :
    Nx P (execGnssEpoch sol o s) := by
  unfold execGnssEpoch
  extract_lets +onlyGivenNames -merge -underBinder y1
  try clear_value y1
  refine iteN_k ?_ ?_
  · refine next_k ?_
    assumption
  · extract_lets +onlyGivenNames -merge -underBinder s2 l3 src4 s5 s6 src7 s8 us9 ok010 v11 v12 s13 sf14 delay15 ok16 y17 spoof18 s19 portOut21 f22 tg23 src24 y25 recent26 jump27 cause28 solved29 iso30 isos31 s32 s33 s34 s35 s36 s37
    have hs2 : P s2 := by
      refine takeLeap_keeps K (sub rfl hA) ?_
      · refine foldl_k ?_ (fun s0 k0 hs0 => ?_)
        · assumption
        · refine takeDecoded_keeps K (sub rfl hA) ?_
          · assumption
    try clear_value s2
    try clear_value l3
    try clear_value src4
    have hs5 : P s5 := by
      refine upd_gn K (sub rfl hA) ?_
      assumption
    try clear_value s5
    have hs6 : P s6 := by
      refine setF_k K 7 part_gnStatusChannels (sub rfl hA) ?_
      assumption
    try clear_value s6
    try clear_value src7
    have hs8 : P s8 := by
      refine ite_k ?_ ?_
      · refine State.setGnSol_keeps K (sub rfl hA) ?_
        · assumption
      · assumption
    try clear_value s8
    try clear_value us9
    try clear_value ok010
    have hv11 : P v11.s := by
      refine checkResidual_keeps K (sub rfl hA) ?_
      · refine mk_gn_k ?_
        assumption
    try clear_value v11
    have hv12 : P v12.s := by
      refine checkPower_keeps K (sub rfl hA) ?_
      · refine checkPosition_keeps K (sub rfl hA) ?_
        · refine checkSystems_keeps K (sub rfl hA) ?_
          · refine checkIono_keeps K (sub rfl hA) ?_
            · assumption
    try clear_value v12
    have hs13 : P s13 := by
      assumption
    try clear_value s13
    try clear_value sf14
    try clear_value delay15
    try clear_value ok16
    try clear_value y17
    try clear_value spoof18
    have hs19 : P s19 := by
      try unfold s19
      split
      · assumption
      · extract_lets +onlyGivenNames -merge -underBinder s20
        have hs20 : P s20 := by
          refine ite_k ?_ ?_
          · assumption
          · refine raiseEv_keeps K (sub rfl hA) ?_
            · assumption
        try clear_value s20
        refine State.setGnSol_keeps K (sub rfl hA) ?_
        · refine setB_k K 7 part_gnSolStatusSpoof (sub rfl hA) ?_
          assumption
    try clear_value s19
    try clear_value portOut21
    try clear_value f22
    try clear_value tg23
    try clear_value src24
    try clear_value y25
    try clear_value recent26
    try clear_value jump27
    try clear_value cause28
    try clear_value solved29
    try clear_value iso30
    try clear_value isos31
    have hs32 : P s32 := by
      refine State.setGnSol_keeps K (sub rfl hA) ?_
      · assumption
    try clear_value s32
    have hs33 : P s33 := by
      refine setF_k K 7 part_gnSolStatusSystems (sub rfl hA) ?_
      refine setF_k K 7 part_gnSolStatusSats (sub rfl hA) ?_
      assumption
    try clear_value s33
    have hs34 : P s34 := by
      refine setB_k K 7 part_gnSolStatusSf (sub rfl hA) ?_
      assumption
    try clear_value s34
    have hs35 : P s35 := by
      try unfold s35
      split
      · refine setF_k K 7 part_gnSolStatusAccK (sub rfl hA) ?_
        refine setF_k K 7 part_gnSolSigma (sub rfl hA) ?_
        assumption
      · assumption
    try clear_value s35
    have hs36 : P s36 := by
      try unfold s36
      split
      · refine ite_k ?_ ?_
        · refine surveyFix_keeps K (sub rfl hA) ?_
          · assumption
        · assumption
      · assumption
    try clear_value s36
    have hs37 : P s37 := by
      refine ite_k ?_ ?_
      · refine setGnState_keeps K (sub rfl hA) ?_
        · assumption
      · refine ite_k ?_ ?_
        · refine setGnState_keeps K (sub rfl hA) ?_
          · assumption
        · refine epochState_keeps K (sub rfl hA) ?_
          · assumption
    try clear_value s37
    split
    · refine iteN_k ?_ ?_
      · refine next_k ?_
        refine validEpoch_keeps K (sub rfl hA) ?_
        · assumption
      · refine next_k ?_
        assumption
    · refine next_k ?_
      assumption

theorem execGnRateChange_keeps (K : Keeps P A) (hA : Sub 10995116277792 A) {sol s} (h_s : P s) :
    Nx P (execGnRateChange sol s) := by
  unfold execGnRateChange
  split
  · refine iteN_k ?_ ?_
    · extract_lets +onlyGivenNames -merge -underBinder src1 s2 src3 s4
      try clear_value src1
      have hs2 : P s2 := by
        refine State.setGnSol_keeps K (sub rfl hA) ?_
        · assumption
      try clear_value s2
      try clear_value src3
      have hs4 : P s4 := by
        refine State.setCand_keeps K (sub rfl hA) ?_
        · assumption
      try clear_value s4
      refine next_k ?_
      refine foldl_k ?_ (fun s0 k0 hs0 => ?_)
      · assumption
      · refine ite_k ?_ ?_
        · refine State.setRd_keeps K (sub rfl hA) ?_
          · refine setF_k K 5 part_plDStatusCount (sub rfl hA) ?_
            assumption
        · assumption
    · refine next_k ?_
      assumption
  · refine next_k ?_
    assumption

theorem setPortOk_keeps (K : Keeps P A) (hA : Sub 128 A) {port b s} (h_s : P s) :
    P (setPortOk port b s) := by
  unfold setPortOk
  refine setB_k K 7 (by split_ifs <;> first | exact part_gnStatusGnaOk | exact part_gnStatusGnbOk) (sub rfl hA) ?_
  refine setB_k K 7 part_gnPortOk (sub rfl hA) ?_
  assumption

theorem execGnPortLoss_keeps (K : Keeps P A) (hA : Sub 2684354689 A) {port clkOff s} (h_s : P s) :
    Nx P (execGnPortLoss port clkOff s) := by
  unfold execGnPortLoss
  refine iteN_k ?_ ?_
  · refine next_k ?_
    refine raiseEv_keeps K (sub rfl hA) ?_
    · refine setPortOk_keeps K (sub rfl hA) ?_
      · refine setI_k K 7 part_gnPortClkOff (sub rfl hA) ?_
        assumption
  · refine next_k ?_
    assumption

theorem execGnPortReturn_keeps (K : Keeps P A) (hA : Sub 2684354689 A) {port clkOff s} (h_s : P s) :
    Nx P (execGnPortReturn port clkOff s) := by
  unfold execGnPortReturn
  refine iteN_k ?_ ?_
  · refine next_k ?_
    refine raiseEv_keeps K (sub rfl hA) ?_
    · refine setPortOk_keeps K (sub rfl hA) ?_
      · refine setI_k K 7 part_gnPortClkOff (sub rfl hA) ?_
        assumption
  · refine next_k ?_
    assumption

theorem execGnMagCheck_keeps (K : Keeps P A) (hA : Sub 2684354689 A) {port mag total s} (h_s : P s) :
    Nx P (execGnMagCheck port mag total s) := by
  unfold execGnMagCheck
  refine iteN_k ?_ ?_
  · extract_lets +onlyGivenNames -merge -underBinder s1
    have hs1 : P s1 := by
      refine setF_k K 7 part_gnPortMagPct (sub rfl hA) ?_
      assumption
    try clear_value s1
    refine iteN_k ?_ ?_
    · refine next_k ?_
      refine raiseEv_keeps K (sub rfl hA) ?_
      · assumption
    · refine next_k ?_
      assumption
  · refine next_k ?_
    assumption

theorem execSurveyDone_keeps (K : Keeps P A) (hA : Sub 146347255468400825 A) {sol s} (h_s : P s) :
    Nx P (execSurveyDone sol s) := by
  unfold execSurveyDone
  extract_lets +onlyGivenNames -merge -underBinder y1
  try clear_value y1
  refine iteN_k ?_ ?_
  · refine next_k ?_
    assumption
  · extract_lets +onlyGivenNames -merge -underBinder m2 src3 s4 s5
    try clear_value m2
    try clear_value src3
    have hs4 : P s4 := by
      refine showHeld_keeps K (sub rfl hA) ?_
      · refine upd_gn K (sub rfl hA) ?_
        assumption
    try clear_value s4
    have hs5 : P s5 := by
      refine raiseEv_keeps K (sub rfl hA) ?_
      · assumption
    try clear_value s5
    refine next_k ?_
    refine foldl_k ?_ (fun s0 k0 hs0 => ?_)
    · assumption
    · refine ite_k ?_ ?_
      · refine setGnState_keeps K (sub rfl hA) ?_
        · assumption
      · assumption

theorem execSpoofHoldExpiry_keeps (K : Keeps P A) (hA : Sub 8798777376897 A) {sol s} (h_s : P s) :
    Nx P (execSpoofHoldExpiry sol s) := by
  unfold execSpoofHoldExpiry
  split
  · refine iteN_k ?_ ?_
    · extract_lets +onlyGivenNames -merge -underBinder c1 src2 s3
      try clear_value c1
      try clear_value src2
      have hs3 : P s3 := by
        refine State.setGnSol_keeps K (sub rfl hA) ?_
        · refine setB_k K 7 part_gnSolStatusSpoof (sub rfl hA) ?_
          assumption
      try clear_value s3
      refine next_k ?_
      refine raiseEv_keeps K (sub rfl hA) ?_
      · assumption
    · refine next_k ?_
      assumption
  · refine next_k ?_
    assumption

theorem execGnNoSatTimeout_keeps (K : Keeps P A) (hA : Sub 146347255468400825 A) {sol s} (h_s : P s) :
    Nx P (execGnNoSatTimeout sol s) := by
  unfold execGnNoSatTimeout
  refine iteN_k ?_ ?_
  · refine next_k ?_
    refine setGnState_keeps K (sub rfl hA) ?_
    · assumption
  · refine next_k ?_
    assumption

theorem gnSleep_keeps (K : Keeps P A) (hA : Sub 8804682956928 A) {s} (h_s : P s) :
    P (gnSleep s) := by
  unfold gnSleep
  refine ite_k ?_ ?_
  · extract_lets +onlyGivenNames -merge -underBinder s1
    have hs1 : P s1 := by
      refine setPortOk_keeps K (sub rfl hA) ?_
      refine setPortOk_keeps K (sub rfl hA) ?_
      refine upd_islands K (sub rfl hA) ?_
      assumption
    try clear_value s1
    refine setF_k K 7 part_gnStatusChannels (sub rfl hA) ?_
    refine setB_k K 7 part_gnStatusAwake (sub rfl hA) ?_
    refine upd_gn K (sub rfl hA) ?_
    assumption
  · assumption

theorem gnEnableDo_keeps (K : Keeps P A) (hA : Sub 146347264058335417 A) {c s} (h_s : P s) :
    P (gnEnableDo c s).1 := by
  unfold gnEnableDo
  extract_lets +onlyGivenNames -merge -underBinder k1 y2 on3 rate4 y5 y6 s7 src8 s9 src10 s11 s12
  try clear_value k1
  try clear_value y2
  try clear_value on3
  try clear_value rate4
  try clear_value y5
  try clear_value y6
  have hs7 : P s7 := by
    refine State.setGnSol_keeps K (sub rfl hA) ?_
    · assumption
  try clear_value s7
  try clear_value src8
  have hs9 : P s9 := by
    refine State.setCand_keeps K (sub rfl hA) ?_
    · assumption
  try clear_value s9
  try clear_value src10
  have hs11 : P s11 := by
    refine upd_gn K (sub rfl hA) ?_
    assumption
  try clear_value s11
  have hs12 : P s12 := by
    refine setB_k K 7 part_gnPortInv (sub rfl hA) ?_
    refine setB_k K 7 part_gnPortInv (sub rfl hA) ?_
    assumption
  try clear_value s12
  refine ite1_k ?_ ?_
  · extract_lets +onlyGivenNames -merge -underBinder s13
    have hs13 : P s13 := by
      refine setB_k K 7 part_gnStatusAwake (sub rfl hA) ?_
      assumption
    try clear_value s13
    refine ite1_k ?_ ?_
    · refine mk1_k ?_
      assumption
    · extract_lets +onlyGivenNames -merge -underBinder src14 s15
      try clear_value src14
      have hs15 : P s15 := by
        refine State.setGnSol_keeps K (sub rfl hA) ?_
        · assumption
      try clear_value s15
      refine mk1_k ?_
      refine setGnState_keeps K (sub rfl hA) ?_
      · assumption
  · extract_lets +onlyGivenNames -merge -underBinder s16 src17 s18
    have hs16 : P s16 := by
      refine setGnState_keeps K (sub rfl hA) ?_
      · refine setB_k K 7 part_gnSolStatusSpoof (sub rfl hA) ?_
        assumption
    try clear_value s16
    try clear_value src17
    have hs18 : P s18 := by
      refine State.setGnSol_keeps K (sub rfl hA) ?_
      · assumption
    try clear_value s18
    refine mk1_k ?_
    refine gnSleep_keeps K (sub rfl hA) ?_
    · refine setF_k K 7 part_gnSolStatusSystems (sub rfl hA) ?_
      refine setF_k K 7 part_gnSolStatusSats (sub rfl hA) ?_
      assumption

theorem gnEnableEffect_keeps (K : Keeps P A) (hA : Sub 146347264058335417 A) {c s} (h_s : P s) :
    P (gnEnableEffect c s).1 := by
  unfold gnEnableEffect
  refine ite1_k ?_ ?_
  · refine mk1_k ?_
    assumption
  · extract_lets +onlyGivenNames -merge -underBinder r1
    have hr1 : P r1.1 := by
      refine gnEnableDo_keeps K (sub rfl hA) ?_
      · assumption
    try clear_value r1
    refine mk1_k ?_
    assumption

theorem execGnEnable_keeps (K : Keeps P A) (hA : Sub 4767040482949472445 A) {c s} (h_s : P s) :
    Nx P (execGnEnable c s) := by
  unfold execGnEnable
  refine runHeld_keeps K (sub rfl hA) ?_ ?_
  · intro _ _ hh
    refine gnEnableEffect_keeps K (sub rfl hA) ?_
    assumption
  · assumption

theorem takeRecord_keeps (K : Keeps P A) (hA : Sub 8796093022208 A) {r s} (h_s : P s) :
    P (takeRecord r s).2 := by
  unfold takeRecord
  refine ite2_k ?_ ?_
  · refine mk2_k ?_
    assumption
  · extract_lets +onlyGivenNames -merge -underBinder same1
    try clear_value same1
    split
    · refine ite2_k ?_ ?_
      · refine mk2_k ?_
        refine upd_gn K (sub rfl hA) ?_
        assumption
      · refine mk2_k ?_
        assumption
    · refine mk2_k ?_
      refine upd_gn K (sub rfl hA) ?_
      assumption

theorem loadStep_keeps (K : Keeps P A) (hA : Sub 8796093022336 A) {kind o s} (h_s : P s) :
    P (loadStep kind o s).1 := by
  unfold loadStep
  extract_lets +onlyGivenNames -merge -underBinder p1 all2 v03 r4 o8
  try clear_value p1
  try clear_value all2
  try clear_value v03
  have hr4 : P r4.2 := by
    refine foldl_g (Q := fun r : _ × State => P r.2) ?_ (fun s0 k0 hs0 => ?_)
    · refine mk2_k ?_
      assumption
    · extract_lets +onlyGivenNames -merge -underBinder v5 n6
      try clear_value v5
      try clear_value n6
      refine ite2_k ?_ ?_
      · refine mk2_k ?_
        assumption
      · extract_lets +onlyGivenNames -merge -underBinder t7
        have ht7 : P t7.2 := by
          refine takeRecord_keeps K (sub rfl hA) ?_
          · assumption
        try clear_value t7
        refine ite2_k ?_ ?_
        · refine mk2_k ?_
          assumption
        · refine mk2_k ?_
          assumption
  try clear_value r4
  try clear_value o8
  refine ite1_k ?_ ?_
  · refine mk1_k ?_
    refine setB_k K 7 part_gnStatusLoad (sub rfl hA) ?_
    assumption
  · refine mk1_k ?_
    refine setB_k K 7 part_gnStatusLoad (sub rfl hA) ?_
    assumption

theorem loadCancel_keeps (K : Keeps P A) (hA : Sub 128 A) {s} (h_s : P s) :
    P (loadCancel s) := by
  unfold loadCancel
  refine setB_k K 7 part_gnStatusLoad (sub rfl hA) ?_
  assumption

theorem execGnLoadAlmanac_keeps (K : Keeps P A) (hA : Sub 4764817209502990468 A) {c s} (h_s : P s) :
    Nx P (execGnLoadAlmanac c s) := by
  unfold execGnLoadAlmanac
  refine runStepped_keeps K (sub rfl hA) ?_ ?_
  · intro _ _ hh
    refine loadStep_keeps K (sub rfl hA) ?_
    assumption
  · assumption

theorem execGnLoadEphemeris_keeps (K : Keeps P A) (hA : Sub 4764817209502990468 A) {c s} (h_s : P s) :
    Nx P (execGnLoadEphemeris c s) := by
  unfold execGnLoadEphemeris
  refine runStepped_keeps K (sub rfl hA) ?_ ?_
  · intro _ _ hh
    refine loadStep_keeps K (sub rfl hA) ?_
    assumption
  · assumption

theorem gnSetPositionEffect_keeps (K : Keeps P A) (hA : Sub 8796093022336 A) {c s} (h_s : P s) :
    P (gnSetPositionEffect c s).1 := by
  unfold gnSetPositionEffect
  extract_lets +onlyGivenNames -merge -underBinder src1 src2 s3
  try clear_value src1
  try clear_value src2
  have hs3 : P s3 := by
    refine ite_k ?_ ?_
    · refine showHeld_keeps K (sub rfl hA) ?_
      · refine upd_gn K (sub rfl hA) ?_
        assumption
    · refine showHeld_keeps K (sub rfl hA) ?_
      · refine upd_gn K (sub rfl hA) ?_
        assumption
  try clear_value s3
  refine mk1_k ?_
  refine foldl_k ?_ (fun s0 k0 hs0 => ?_)
  · assumption
  · refine State.setGnSol_keeps K (sub rfl hA) ?_
    · assumption

theorem execGnSetPosition_keeps (K : Keeps P A) (hA : Sub 4620702021426610308 A) {c s} (h_s : P s) :
    Nx P (execGnSetPosition c s) := by
  unfold execGnSetPosition
  refine runCmd_keeps K (sub rfl hA) ?_ ?_
  · intro _ _ hh
    refine gnSetPositionEffect_keeps K (sub rfl hA) ?_
    assumption
  · assumption

theorem gnSetAntennaDelayEffect_keeps (K : Keeps P A) (hA : Sub 8796093022208 A) {c s} (h_s : P s) :
    P (gnSetAntennaDelayEffect c s).1 := by
  unfold gnSetAntennaDelayEffect
  extract_lets +onlyGivenNames -merge -underBinder src1 s2 src3 s4
  try clear_value src1
  have hs2 : P s2 := by
    refine ite_k ?_ ?_
    · refine upd_gn K (sub rfl hA) ?_
      assumption
    · assumption
  try clear_value s2
  try clear_value src3
  have hs4 : P s4 := by
    refine ite_k ?_ ?_
    · refine upd_gn K (sub rfl hA) ?_
      assumption
    · assumption
  try clear_value s4
  refine mk1_k ?_
  refine upd_gn K (sub rfl hA) ?_
  assumption

theorem execGnSetAntennaDelay_keeps (K : Keeps P A) (hA : Sub 4620702021426610180 A) {c s} (h_s : P s) :
    Nx P (execGnSetAntennaDelay c s) := by
  unfold execGnSetAntennaDelay
  refine runCmd_keeps K (sub rfl hA) ?_ ?_
  · intro _ _ hh
    refine gnSetAntennaDelayEffect_keeps K (sub rfl hA) ?_
    assumption
  · assumption

theorem gnStatusEffect_keeps (K : Keeps P A) (hA : Sub 0 A) {c s} (h_s : P s) :
    P (gnStatusEffect c s).1 := by
  unfold gnStatusEffect
  extract_lets +onlyGivenNames -merge -underBinder k1 y2 rem3 iso4
  try clear_value k1
  try clear_value y2
  try clear_value rem3
  try clear_value iso4
  refine mk1_k ?_
  assumption

theorem execGnStatus_keeps (K : Keeps P A) (hA : Sub 4620693225333587972 A) {c s} (h_s : P s) :
    Nx P (execGnStatus c s) := by
  unfold execGnStatus
  refine runCmd_keeps K (sub rfl hA) ?_ ?_
  · intro _ _ hh
    refine gnStatusEffect_keeps K (sub rfl hA) ?_
    assumption
  · assumption

end Sys2Proof.Machine
end

