-- ==== Sys2Proof/Laws/KeepEventInputs.lean ====
section
/-! SUPPORT. What the operations of Sys2Proof/Machine/EventInputs.lean keep (Sys2Proof/Laws/Keeps.lean): the mask in each lemma names the parts
of the state that the operation can touch. -/

set_option Elab.async false

namespace Sys2Proof.Machine

variable {P : State → Prop} {A : Nat}

theorem State.setInput_keeps (K : Keeps P A) (hA : Sub 17592186044416 A) {s e x} (h_s : P s) :
    P (State.setInput s e x) := by
  unfold State.setInput
  refine upd_em K (sub rfl hA) ?_
  assumption

theorem State.setPair_keeps (K : Keeps P A) (hA : Sub 17592186044416 A) {s u x} (h_s : P s) :
    P (State.setPair s u x) := by
  unfold State.setPair
  refine upd_em K (sub rfl hA) ?_
  assumption

theorem showEmFifo_keeps (K : Keeps P A) (hA : Sub 64 A) {e s} (h_s : P s) :
    P (showEmFifo e s) := by
  unfold showEmFifo
  extract_lets +onlyGivenNames -merge -underBinder x1 h2 w3
  try clear_value x1
  try clear_value h2
  try clear_value w3
  refine setF_k K 6 part_emFW3 (sub rfl hA) ?_
  refine setF_k K 6 part_emFW2 (sub rfl hA) ?_
  refine setF_k K 6 part_emFW1 (sub rfl hA) ?_
  refine setF_k K 6 part_emFW0 (sub rfl hA) ?_
  refine setF_k K 6 part_emFCtrlOcc (sub rfl hA) ?_
  assumption

theorem emPut_keeps (K : Keeps P A) (hA : Sub 17594870399041 A) {e mk s} (h_s : P s) :
    P (emPut e mk s) := by
  unfold emPut
  extract_lets +onlyGivenNames -merge -underBinder x1
  try clear_value x1
  refine ite_k ?_ ?_
  · extract_lets +onlyGivenNames -merge -underBinder s2
    have hs2 : P s2 := by
      refine showEmFifo_keeps K (sub rfl hA) ?_
      · refine State.setInput_keeps K (sub rfl hA) ?_
        · assumption
    try clear_value s2
    refine ite_k ?_ ?_
    · refine State.signalVector_keeps K (sub rfl hA) ?_
      · assumption
    · assumption
  · extract_lets +onlyGivenNames -merge -underBinder s3 quiet4
    have hs3 : P s3 := by
      refine addSat_k K 6 part_emLost (sub rfl hA) ?_
      assumption
    try clear_value s3
    try clear_value quiet4
    refine ite_k ?_ ?_
    · refine raiseEv_keeps K (sub rfl hA) ?_
      · refine State.setInput_keeps K (sub rfl hA) ?_
        · assumption
    · refine State.setInput_keeps K (sub rfl hA) ?_
      · assumption

theorem emSignal_keeps (K : Keeps P A) (hA : Sub 3221225472 A) {e s} (h_s : P s) :
    P (emSignal e s) := by
  unfold emSignal
  extract_lets +onlyGivenNames -merge -underBinder d1 x2 due3
  try clear_value d1
  try clear_value x2
  try clear_value due3
  refine ite_k ?_ ?_
  · refine State.signalVector_keeps K (sub rfl hA) ?_
    · refine State.setRing_keeps K (sub rfl hA) ?_
      · assumption
  · assumption

theorem emMove_keeps (K : Keeps P A) (hA : Sub 17595541487680 A) {a aa1 aa2} (h_aa2 : P aa2) :
    P (emMove a aa1 aa2) := by
  induction a generalizing aa1 aa2 with
  | zero =>
    rw [emMove]
    try (conv => zeta)
    assumption
  | succ k ih =>
    rw [emMove]
    try (conv => zeta)
    split
    · assumption
    · refine ite_k ?_ ?_
      · refine ih ?_
        refine emSignal_keeps K (sub rfl hA) ?_
        · refine showEmFifo_keeps K (sub rfl hA) ?_
          · refine State.setInput_keeps K (sub rfl hA) ?_
            · refine State.setRing_keeps K (sub rfl hA) ?_
              · refine ite_k ?_ ?_
                · refine setB_k K 6 part_emRProdPhase (sub rfl hA) ?_
                  refine setF_k K 6 part_emRProdIndex (sub rfl hA) ?_
                  refine State.dma_keeps K (sub rfl hA) ?_
                  · assumption
                · refine setF_k K 6 part_emRProdIndex (sub rfl hA) ?_
                  refine State.dma_keeps K (sub rfl hA) ?_
                  · assumption
      · assumption

theorem execEmRingMove_keeps (K : Keeps P A) (hA : Sub 17595541487680 A) {input s} (h_s : P s) :
    Nx P (execEmRingMove input s) := by
  unfold execEmRingMove
  extract_lets +onlyGivenNames -merge -underBinder room1 n2
  try clear_value room1
  try clear_value n2
  refine iteN_k ?_ ?_
  · extract_lets +onlyGivenNames -merge -underBinder t3
    try clear_value t3
    refine next_k ?_
    refine emMove_keeps K (sub rfl hA) ?_
    refine upd_em K (sub rfl hA) ?_
    assumption
  · refine next_k ?_
    assumption

theorem emConsume_keeps (K : Keeps P A) (hA : Sub 3221225536 A) {e ix s} (h_s : P s) :
    P (emConsume e ix s).2 := by
  unfold emConsume
  refine ite2_k ?_ ?_
  · refine mk2_k ?_
    assumption
  · extract_lets +onlyGivenNames -merge -underBinder n1 d2
    try clear_value n1
    try clear_value d2
    refine mk2_k ?_
    refine emSignal_keeps K (sub rfl hA) ?_
    · refine State.setRing_keeps K (sub rfl hA) ?_
      · refine setF_k K 6 part_emRConsIndex (sub rfl hA) ?_
        assumption

theorem emPop_keeps (K : Keeps P A) (hA : Sub 17592186044480 A) {e n s} (h_s : P s) :
    P (emPop e n s) := by
  unfold emPop
  refine showEmFifo_keeps K (sub rfl hA) ?_
  · refine State.setInput_keeps K (sub rfl hA) ?_
    · assumption

theorem expireOpen_keeps (K : Keeps P A) (hA : Sub 17592186044480 A) {u x s} (h_s : P s) :
    P (expireOpen u x s) := by
  unfold expireOpen
  extract_lets +onlyGivenNames -merge -underBinder y1 old2 src3 s4
  try clear_value y1
  try clear_value old2
  try clear_value src3
  have hs4 : P s4 := by
    refine ite_k ?_ ?_
    · refine State.setPair_keeps K (sub rfl hA) ?_
      · refine addSat_k K 6 part_emIuUnpaired (sub rfl hA) ?_
        assumption
    · assumption
  try clear_value s4
  refine ite_k ?_ ?_
  · refine State.setPair_keeps K (sub rfl hA) ?_
    · refine addSat_k K 6 part_emIuUnpaired (sub rfl hA) ?_
      assumption
  · assumption

theorem emitInterval_keeps (K : Keeps P A) (hA : Sub 17594870399041 A) {u a b s} (h_s : P s) :
    P (emitInterval u a b s) := by
  unfold emitInterval
  extract_lets +onlyGivenNames -merge -underBinder y1 v2 coincident3
  try clear_value y1
  try clear_value v2
  try clear_value coincident3
  refine emPut_keeps K (sub rfl hA) ?_
  · assumption

theorem pairStart_keeps (K : Keeps P A) (hA : Sub 17594870399041 A) {u i s} (h_s : P s) :
    P (pairStart u i s) := by
  unfold pairStart
  extract_lets +onlyGivenNames -merge -underBinder y1
  try clear_value y1
  split
  · refine emitInterval_keeps K (sub rfl hA) ?_
    · refine State.setPair_keeps K (sub rfl hA) ?_
      · assumption
  · extract_lets +onlyGivenNames -merge -underBinder s2
    have hs2 : P s2 := by
      refine ite_k ?_ ?_
      · refine addSat_k K 6 part_emIuUnpaired (sub rfl hA) ?_
        assumption
      · assumption
    try clear_value s2
    refine State.setPair_keeps K (sub rfl hA) ?_
    · assumption

theorem pairStop_keeps (K : Keeps P A) (hA : Sub 17594870399041 A) {u i s} (h_s : P s) :
    P (pairStop u i s) := by
  unfold pairStop
  extract_lets +onlyGivenNames -merge -underBinder y1
  try clear_value y1
  split
  · refine emitInterval_keeps K (sub rfl hA) ?_
    · refine State.setPair_keeps K (sub rfl hA) ?_
      · assumption
  · extract_lets +onlyGivenNames -merge -underBinder s2
    have hs2 : P s2 := by
      refine ite_k ?_ ?_
      · refine addSat_k K 6 part_emIuUnpaired (sub rfl hA) ?_
        assumption
      · assumption
    try clear_value s2
    refine State.setPair_keeps K (sub rfl hA) ?_
    · assumption

theorem pairStamp_keeps (K : Keeps P A) (hA : Sub 17594870399041 A) {e i s} (h_s : P s) :
    P (pairStamp e i s) := by
  unfold pairStamp
  refine foldl_k ?_ (fun s0 k0 hs0 => ?_)
  · assumption
  · extract_lets +onlyGivenNames -merge -underBinder y1
    try clear_value y1
    refine ite_k ?_ ?_
    · assumption
    · extract_lets +onlyGivenNames -merge -underBinder s2
      have hs2 : P s2 := by
        refine expireOpen_keeps K (sub rfl hA) ?_
        · assumption
      try clear_value s2
      refine ite_k ?_ ?_
      · extract_lets +onlyGivenNames -merge -underBinder s3
        have hs3 : P s3 := by
          try unfold s3
          split
          · refine emitInterval_keeps K (sub rfl hA) ?_
            · refine State.setPair_keeps K (sub rfl hA) ?_
              · assumption
          · assumption
        try clear_value s3
        refine State.setPair_keeps K (sub rfl hA) ?_
        · assumption
      · refine ite_k ?_ ?_
        · refine pairStart_keeps K (sub rfl hA) ?_
          · assumption
        · refine pairStop_keeps K (sub rfl hA) ?_
          · assumption

theorem missEdge_keeps (K : Keeps P A) (hA : Sub 17592186044480 A) {e s} (h_s : P s) :
    P (missEdge e s) := by
  unfold missEdge
  extract_lets +onlyGivenNames -merge -underBinder s1 x2
  have hs1 : P s1 := by
    refine set64_k K 6 part_emMissed_2 (sub rfl hA) ?_
    assumption
  try clear_value s1
  try clear_value x2
  refine State.setInput_keeps K (sub rfl hA) ?_
  · assumption

theorem missSecond_keeps (K : Keeps P A) (hA : Sub 17594870398977 A) {e s} (h_s : P s) :
    P (missSecond e s) := by
  unfold missSecond
  extract_lets +onlyGivenNames -merge -underBinder x1 sec2
  try clear_value x1
  try clear_value sec2
  refine ite_k ?_ ?_
  · assumption
  · extract_lets +onlyGivenNames -merge -underBinder s3
    have hs3 : P s3 := by
      refine State.setInput_keeps K (sub rfl hA) ?_
      · assumption
    try clear_value s3
    refine ite_k ?_ ?_
    · assumption
    · refine raiseEv_keeps K (sub rfl hA) ?_
      · assumption

theorem stampEdge_keeps (K : Keeps P A) (hA : Sub 17594870399041 A) {e k falling tick phase code s} (h_s : P s) :
    P (stampEdge e k falling tick phase code s) := by
  unfold stampEdge
  extract_lets +onlyGivenNames -merge -underBinder x1 t2 invalid3 was4 n5 store6 only7 s8 s9
  try clear_value x1
  try clear_value t2
  try clear_value invalid3
  try clear_value was4
  try clear_value n5
  try clear_value store6
  try clear_value only7
  have hs8 : P s8 := by
    refine State.setInput_keeps K (sub rfl hA) ?_
    · assumption
  try clear_value s8
  have hs9 : P s9 := by
    refine ite_k ?_ ?_
    · refine emPut_keeps K (sub rfl hA) ?_
      · assumption
    · assumption
  try clear_value s9
  refine pairStamp_keeps K (sub rfl hA) ?_
  · assumption

theorem execEvtinEdge_keeps (K : Keeps P A) (hA : Sub 17594870399041 A) {input falling tick phase code s} (h_s : P s) :
    Nx P (execEvtinEdge input falling tick phase code s) := by
  unfold execEvtinEdge
  refine iteN_k ?_ ?_
  · refine next_k ?_
    assumption
  · extract_lets +onlyGivenNames -merge -underBinder s1 x2
    have hs1 : P s1 := by
      refine missSecond_keeps K (sub rfl hA) ?_
      · assumption
    try clear_value s1
    try clear_value x2
    refine iteN_k ?_ ?_
    · refine next_k ?_
      assumption
    · extract_lets +onlyGivenNames -merge -underBinder n3 s4
      try clear_value n3
      have hs4 : P s4 := by
        refine State.setInput_keeps K (sub rfl hA) ?_
        · assumption
      try clear_value s4
      refine iteN_k ?_ ?_
      · refine next_k ?_
        assumption
      · extract_lets +onlyGivenNames -merge -underBinder t5 dead6
        try clear_value t5
        try clear_value dead6
        refine iteN_k ?_ ?_
        · refine next_k ?_
          refine missEdge_keeps K (sub rfl hA) ?_
          · assumption
        · refine next_k ?_
          refine stampEdge_keeps K (sub rfl hA) ?_
          · assumption

theorem gateClose_keeps (K : Keeps P A) (hA : Sub 17595138834497 A) {e g s} (h_s : P s) :
    P (gateClose e g s) := by
  unfold gateClose
  extract_lets +onlyGivenNames -merge -underBinder x1 s2 rate3 f4 q5 s6 bad7 s8 s9
  try clear_value x1
  have hs2 : P s2 := by
    refine setB_k K 6 part_emStatusGate (sub rfl hA) ?_
    refine State.setInput_keeps K (sub rfl hA) ?_
    · assumption
  try clear_value s2
  try clear_value rate3
  have hf4 : P f4.2 := by
    try unfold f4
    split
    · refine mk2_k ?_
      assumption
    · refine State.draw_keeps K (sub rfl hA) ?_
      · assumption
  try clear_value f4
  have hq5 : P q5.2 := by
    try unfold q5
    split
    · refine mk2_k ?_
      assumption
    · refine State.draw_keeps K (sub rfl hA) ?_
      · assumption
  try clear_value q5
  have hs6 : P s6 := by
    assumption
  try clear_value s6
  try clear_value bad7
  have hs8 : P s8 := by
    refine setF_k K 6 part_emFqSigma (sub rfl hA) ?_
    refine set64_k K 6 part_emFqFreq_2 (sub rfl hA) ?_
    assumption
  try clear_value s8
  have hs9 : P s9 := by
    refine setF_k K 6 part_emFqInfoN (sub rfl hA) ?_
    refine setB_k K 6 part_emFqInfoInvalid (sub rfl hA) ?_
    assumption
  try clear_value s9
  refine raiseEv_keeps K (sub rfl hA) ?_
  · assumption

theorem execEmGateOpen_keeps (K : Keeps P A) (hA : Sub 64 A) {input s} (h_s : P s) :
    Nx P (execEmGateOpen input s) := by
  unfold execEmGateOpen
  split
  · refine iteN_k ?_ ?_
    · refine next_k ?_
      refine setB_k K 6 part_emStatusGate (sub rfl hA) ?_
      assumption
    · refine next_k ?_
      assumption
  · refine next_k ?_
    assumption

theorem execEmGateClose_keeps (K : Keeps P A) (hA : Sub 17595138834497 A) {input s} (h_s : P s) :
    Nx P (execEmGateClose input s) := by
  unfold execEmGateClose
  split
  · refine iteN_k ?_ ?_
    · refine next_k ?_
      refine gateClose_keeps K (sub rfl hA) ?_
      · assumption
    · refine next_k ?_
      assumption
  · refine next_k ?_
    assumption

theorem emInputConfigDo_keeps (K : Keeps P A) (hA : Sub 288247980958416961 A) {c s} (h_s : P s) :
    P (emInputConfigDo c s).1 := by
  unfold emInputConfigDo
  extract_lets +onlyGivenNames -merge -underBinder e1 en2 x3 s4 x5 fin6 s7 s8 ring9 s10 s11 s12
  try clear_value e1
  try clear_value en2
  try clear_value x3
  have hs4 : P s4 := by
    try unfold s4
    split
    · refine gateClose_keeps K (sub rfl hA) ?_
      · assumption
    · assumption
  try clear_value s4
  try clear_value x5
  try clear_value fin6
  have hs7 : P s7 := by
    refine State.setInput_keeps K (sub rfl hA) ?_
    · assumption
  try clear_value s7
  have hs8 : P s8 := by
    refine showRecTemp_keeps K (sub rfl hA) ?_
    · assumption
  try clear_value s8
  try clear_value ring9
  have hs10 : P s10 := by
    refine setB_k K 6 part_emStatusRing (sub rfl hA) ?_
    refine setB_k K 6 part_emRCfgEn (sub rfl hA) ?_
    refine setF_k K 6 part_emRCfgLog2sz (sub rfl hA) ?_
    refine set64_k K 6 part_emRBase_2 (sub rfl hA) ?_
    assumption
  try clear_value s10
  have hs11 : P s11 := by
    refine ite_k ?_ ?_
    · refine State.setRing_keeps K (sub rfl hA) ?_
      · refine setF_k K 6 part_emRConsIndex (sub rfl hA) ?_
        refine setB_k K 6 part_emRProdPhase (sub rfl hA) ?_
        refine setF_k K 6 part_emRProdIndex (sub rfl hA) ?_
        assumption
    · assumption
  try clear_value s11
  have hs12 : P s12 := by
    refine setB_k K 6 part_emStatusEn (sub rfl hA) ?_
    assumption
  try clear_value s12
  refine ite1_k ?_ ?_
  · refine mk1_k ?_
    assumption
  · extract_lets +onlyGivenNames -merge -underBinder s13
    have hs13 : P s13 := by
      refine setB_k K 6 part_emStatusCalOk (sub rfl hA) ?_
      refine setB_k K 6 part_emStatusAwake (sub rfl hA) ?_
      assumption
    try clear_value s13
    refine mk1_k ?_
    refine upd_islands_cal K (sub rfl hA) ?_
    assumption

theorem emInputConfigEffect_keeps (K : Keeps P A) (hA : Sub 288247980958416961 A) {c s} (h_s : P s) :
    P (emInputConfigEffect c s).1 := by
  unfold emInputConfigEffect
  refine ite1_k ?_ ?_
  · refine mk1_k ?_
    assumption
  · extract_lets +onlyGivenNames -merge -underBinder r1
    have hr1 : P r1.1 := by
      refine emInputConfigDo_keeps K (sub rfl hA) ?_
      · assumption
    try clear_value r1
    refine mk1_k ?_
    assumption

theorem execEmInputConfig_keeps (K : Keeps P A) (hA : Sub 4908941203070779461 A) {c s} (h_s : P s) :
    Nx P (execEmInputConfig c s) := by
  unfold execEmInputConfig
  refine runHeld_keeps K (sub rfl hA) ?_ ?_
  · intro _ _ hh
    refine emInputConfigEffect_keeps K (sub rfl hA) ?_
    assumption
  · assumption

theorem showStops_keeps (K : Keeps P A) (hA : Sub 64 A) {s} (h_s : P s) :
    P (showStops s) := by
  unfold showStops
  refine foldl_k ?_ (fun s0 k0 hs0 => ?_)
  · assumption
  · refine setB_k K 6 part_emStatusStop (sub rfl hA) ?_
    assumption

theorem emIntervalEffect_keeps (K : Keeps P A) (hA : Sub 17592186044480 A) {c s} (h_s : P s) :
    P (emIntervalEffect c s).1 := by
  unfold emIntervalEffect
  refine mk1_k ?_
  refine showStops_keeps K (sub rfl hA) ?_
  · refine State.setPair_keeps K (sub rfl hA) ?_
    · assumption

theorem execEmInterval_keeps (K : Keeps P A) (hA : Sub 4620710817519632452 A) {c s} (h_s : P s) :
    Nx P (execEmInterval c s) := by
  unfold execEmInterval
  refine runCmd_keeps K (sub rfl hA) ?_ ?_
  · intro _ _ hh
    refine emIntervalEffect_keeps K (sub rfl hA) ?_
    assumption
  · assumption

theorem emFrequencyEffect_keeps (K : Keeps P A) (hA : Sub 17592186044416 A) {c s} (h_s : P s) :
    P (emFrequencyEffect c s).1 := by
  unfold emFrequencyEffect
  extract_lets +onlyGivenNames -merge -underBinder e1 o2 g3
  try clear_value e1
  try clear_value o2
  try clear_value g3
  refine mk1_k ?_
  refine State.setInput_keeps K (sub rfl hA) ?_
  · assumption

theorem execEmFrequency_keeps (K : Keeps P A) (hA : Sub 4620710817519632388 A) {c s} (h_s : P s) :
    Nx P (execEmFrequency c s) := by
  unfold execEmFrequency
  refine runCmd_keeps K (sub rfl hA) ?_ ?_
  · intro _ _ hh
    refine emFrequencyEffect_keeps K (sub rfl hA) ?_
    assumption
  · assumption

theorem auditStep_keeps (K : Keeps P A) (hA : Sub 2684354561 A) {o s} (h_s : P s) :
    P (auditStep o s).1 := by
  unfold auditStep
  extract_lets +onlyGivenNames -merge -underBinder c1
  try clear_value c1
  refine ite1_k ?_ ?_
  · refine mk1_k ?_
    assumption
  · extract_lets +onlyGivenNames -merge -underBinder j2
    try clear_value j2
    split
    · refine mk1_k ?_
      assumption
    · extract_lets +onlyGivenNames -merge -underBinder r3 o4
      try clear_value r3
      try clear_value o4
      refine ite1_k ?_ ?_
      · refine mk1_k ?_
        assumption
      · extract_lets +onlyGivenNames -merge -underBinder good5 bad6 s7
        try clear_value good5
        try clear_value bad6
        have hs7 : P s7 := by
          refine raiseEv_keeps K (sub rfl hA) ?_
          · assumption
        try clear_value s7
        refine mk1_k ?_
        assumption

theorem execEmSelfAudit_keeps (K : Keeps P A) (hA : Sub 4764808413946839045 A) {c s} (h_s : P s) :
    Nx P (execEmSelfAudit c s) := by
  unfold execEmSelfAudit
  refine runStepped_keeps K (sub rfl hA) ?_ ?_
  · intro _ _ hh
    refine auditStep_keeps K (sub rfl hA) ?_
    assumption
  · assumption

theorem inputsTick_keeps (K : Keeps P A) (hA : Sub 17595944140865 A) {s} (h_s : P s) :
    P (inputsTick s) := by
  unfold inputsTick
  extract_lets +onlyGivenNames -merge -underBinder s1
  have hs1 : P s1 := by
    refine foldl_k ?_ (fun s0 k0 hs0 => ?_)
    · assumption
    · refine emSignal_keeps K (sub rfl hA) ?_
      refine missSecond_keeps K (sub rfl hA) ?_
      assumption
  try clear_value s1
  refine foldl_k ?_ (fun s0 k0 hs0 => ?_)
  · assumption
  · refine expireOpen_keeps K (sub rfl hA) ?_
    assumption

end Sys2Proof.Machine
end

