-- ==== Sys2Proof/Laws/KeepLinks.lean ====
section
/-! SUPPORT. What the operations of Sys2Proof/Machine/Links.lean keep (Sys2Proof/Laws/Keeps.lean): the mask in each lemma names the parts
of the state that the operation can touch. -/

set_option Elab.async false

namespace Sys2Proof.Machine

variable {P : State → Prop} {A : Nat}

theorem setEq_keeps (K : Keeps P A) (hA : Sub 274877906944 A) {n mode e s} (h_s : P s) :
    P (setEq n mode e s) := by
  unfold setEq
  refine State.setLane_keeps K (sub rfl hA) ?_
  · assumption

theorem showEq_keeps (K : Keeps P A) (hA : Sub 4195840 A) {n s} (h_s : P s) :
    P (showEq n s) := by
  unfold showEq
  refine ite_k ?_ ?_
  · extract_lets +onlyGivenNames -merge -underBinder s1
    have hs1 : P s1 := by
      refine setF_k K 10 part_sdsFirPost (sub rfl hA) ?_
      refine setF_k K 10 part_sdsFirMain (sub rfl hA) ?_
      refine setF_k K 10 part_sdsFirPre (sub rfl hA) ?_
      assumption
    try clear_value s1
    refine setF_k K 10 part_sdsCtlePeakUsed (sub rfl hA) ?_
    refine setB_k K 10 part_sdsCtleAuto (sub rfl hA) ?_
    refine setF_k K 10 part_sdsCtleGain (sub rfl hA) ?_
    refine setF_k K 10 part_sdsCtlePeak (sub rfl hA) ?_
    assumption
  · extract_lets +onlyGivenNames -merge -underBinder e2 s3 s4
    try clear_value e2
    have hs3 : P s3 := by
      refine setF_k K 10 part_sdsFirPost (sub rfl hA) ?_
      refine setF_k K 10 part_sdsFirMain (sub rfl hA) ?_
      refine setF_k K 10 part_sdsFirPre (sub rfl hA) ?_
      assumption
    try clear_value s3
    have hs4 : P s4 := by
      refine setB_k K 10 part_sdsCtleAuto (sub rfl hA) ?_
      refine setF_k K 10 part_sdsCtleGain (sub rfl hA) ?_
      refine setF_k K 10 part_sdsCtlePeak (sub rfl hA) ?_
      assumption
    try clear_value s4
    refine showConstants_keeps K (sub rfl hA) ?_
    · refine ite_k ?_ ?_
      · assumption
      · refine setF_k K 10 part_sdsCtlePeakUsed (sub rfl hA) ?_
        assumption

theorem cutFrame_keeps (K : Keeps P A) (hA : Sub 171105372316033537 A) {p rest s} (h_s : P s) :
    P (cutFrame p rest s) := by
  unfold cutFrame
  split
  · refine frameEnd_keeps K (sub rfl hA) ?_
    assumption
  · assumption

theorem linkFollow_keeps (K : Keeps P A) (hA : Sub 4621009885219308037 A) {p s} (h_s : P s) :
    P (linkFollow p s) := by
  unfold linkFollow
  refine erEnableCheck_keeps K (sub rfl hA) ?_
  refine showAlign_keeps K (sub rfl hA) ?_
  refine egressFollow_keeps K (sub rfl hA) ?_
  refine stampStatus_keeps K (sub rfl hA) ?_
  assumption

theorem linkDown_keeps (K : Keeps P A) (hA : Sub 4791798589999212293 A) {p cause rest s} (h_s : P s) :
    P (linkDown p cause rest s) := by
  unfold linkDown
  extract_lets +onlyGivenNames -merge -underBinder s1
  have hs1 : P s1 := by
    refine cutFrame_keeps K (sub rfl hA) ?_
    assumption
  try clear_value s1
  refine ite_k ?_ ?_
  · extract_lets +onlyGivenNames -merge -underBinder s2 s3
    try clear_value s2
    have hs3 : P s3 := by
      refine State.setLane_keeps K (sub rfl hA) ?_
      refine setB_k K 10 part_sdsStatusLink (sub rfl hA) ?_
      assumption
    try clear_value s3
    extract_lets +onlyGivenNames -merge -underBinder s4
    have hs4 : P s4 := by
      refine raiseEv_keeps K (sub rfl hA) ?_
      assumption
    try clear_value s4
    refine linkFollow_keeps K (sub rfl hA) ?_
    refine ttLink_keeps K (sub rfl hA) ?_
    assumption
  · assumption

theorem prbsUnlock_keeps (K : Keeps P A) (hA : Sub 2684355585 A) {n s} (h_s : P s) :
    P (prbsUnlock n s) := by
  unfold prbsUnlock
  refine ite_k ?_ ?_
  · refine raiseEv_keeps K (sub rfl hA) ?_
    refine setB_k K 10 part_sdsStatusPrbsLock (sub rfl hA) ?_
    assumption
  · assumption

theorem scanLoses_keeps (K : Keeps P A) (hA : Sub 4294967296 A) {n s} (h_s : P s) :
    P (scanLoses n s) := by
  unfold scanLoses
  split
  · refine ite_k ?_ ?_
    · refine upd_mbx K (sub rfl hA) ?_
      assumption
    · assumption
  · assumption

theorem rxUnlock_keeps (K : Keeps P A) (hA : Sub 146338734253289017 A) {n s} (h_s : P s) :
    P (rxUnlock n s) := by
  unfold rxUnlock
  extract_lets +onlyGivenNames -merge -underBinder was1 s2
  try clear_value was1
  have hs2 : P s2 := by
    refine foldl_k ?_ (fun s0 k0 hs0 => ?_)
    · assumption
    · extract_lets +onlyGivenNames -merge -underBinder s3 s4
      have hs3 : P s3 := by
        refine prbsUnlock_keeps K (sub rfl hA) ?_
        refine ite_k ?_ ?_
        · refine scanLoses_keeps K (sub rfl hA) ?_
          refine setB_k K 10 part_sdsStatusRxLock (sub rfl hA) ?_
          assumption
        · assumption
      try clear_value s3
      try clear_value s4
      extract_lets +onlyGivenNames -merge -underBinder s5
      have hs5 : P s5 := by
        refine State.setLane_keeps K (sub rfl hA) ?_
        assumption
      try clear_value s5
      refine ite_k ?_ ?_
      · refine setB_k K 9 part_ptsLatRxValid (sub rfl hA) ?_
        assumption
      · assumption
  try clear_value s2
  refine ite_k ?_ ?_
  · assumption
  · extract_lets +onlyGivenNames -merge -underBinder s6 p7 s8
    have hs6 : P s6 := by
      refine foldl_k ?_ (fun s0 k0 hs0 => ?_)
      · assumption
      · refine ite_k ?_ ?_
        · refine loseCand_keeps K (sub rfl hA) ?_
          assumption
        · assumption
    try clear_value s6
    try clear_value p7
    have hs8 : P s8 := by
      refine ite_k ?_ ?_
      · refine raiseEv_keeps K (sub rfl hA) ?_
        refine setB_k K 11 part_swDpStatusInLock (sub rfl hA) ?_
        assumption
      · assumption
    try clear_value s8
    refine stampStatus_keeps K (sub rfl hA) ?_
    assumption

theorem relock_keeps (K : Keeps P A) (hA : Sub 4791802988045725501 A) {n cause s} (h_s : P s) :
    P (relock n cause s) := by
  unfold relock
  refine rxUnlock_keeps K (sub rfl hA) ?_
  refine ite_k ?_ ?_
  · refine linkDown_keeps K (sub rfl hA) ?_
    assumption
  · assumption

theorem execRxLock_keeps (K : Keeps P A) (hA : Sub 1377073892865 A) {lane s} (h_s : P s) :
    Nx P (execRxLock lane s) := by
  unfold execRxLock
  refine iteN_k ?_ ?_
  · refine next_k ?_
    assumption
  · extract_lets +onlyGivenNames -merge -underBinder s1
    have hs1 : P s1 := by
      refine foldl_k ?_ (fun s0 k0 hs0 => ?_)
      · assumption
      · extract_lets +onlyGivenNames -merge -underBinder s2 auto3 src4 s5
        have hs2 : P s2 := by
          refine addSat_k K 10 part_sdsStatusRelocks (sub rfl hA) ?_
          refine setB_k K 10 part_sdsStatusRxLock (sub rfl hA) ?_
          assumption
        try clear_value s2
        try clear_value auto3
        try clear_value src4
        have hs5 : P s5 := by
          refine State.setLane_keeps K (sub rfl hA) ?_
          · assumption
        try clear_value s5
        refine psiRestart_keeps K (sub rfl hA) ?_
        · refine ite_k ?_ ?_
          · refine setB_k K 9 part_ptsLatRxValid (sub rfl hA) ?_
            assumption
          · assumption
    try clear_value s1
    refine iteN_k ?_ ?_
    · refine next_k ?_
      assumption
    · extract_lets +onlyGivenNames -merge -underBinder p6 s7
      try clear_value p6
      have hs7 : P s7 := by
        refine ite_k ?_ ?_
        · refine raiseEv_keeps K (sub rfl hA) ?_
          · refine setB_k K 11 part_swDpStatusInLock (sub rfl hA) ?_
            assumption
        · assumption
      try clear_value s7
      refine next_k ?_
      refine stampStatus_keeps K (sub rfl hA) ?_
      · assumption

theorem execCtleSweepDone_keeps (K : Keeps P A) (hA : Sub 277566457345 A) {lane openings s} (h_s : P s) :
    Nx P (execCtleSweepDone lane openings s) := by
  unfold execCtleSweepDone
  refine iteN_k ?_ ?_
  · refine next_k ?_
    assumption
  · extract_lets +onlyGivenNames -merge -underBinder peak1 s2
    try clear_value peak1
    try clear_value s2
    extract_lets +onlyGivenNames -merge -underBinder s3
    have hs3 : P s3 := by
      refine setF_k K 10 part_sdsCtlePeakUsed (sub rfl hA) ?_
      refine State.setLane_keeps K (sub rfl hA) ?_
      assumption
    try clear_value s3
    refine next_k ?_
    refine raiseEv_keeps K (sub rfl hA) ?_
    refine showConstants_keeps K (sub rfl hA) ?_
    assumption

theorem execLatencyReport_keeps (K : Keeps P A) (hA : Sub 1377073890049 A) {lane tx t s} (h_s : P s) :
    Nx P (execLatencyReport lane tx t s) := by
  unfold execLatencyReport
  extract_lets +onlyGivenNames -merge -underBinder due1
  try clear_value due1
  refine iteN_k ?_ ?_
  · refine next_k ?_
    assumption
  · extract_lets +onlyGivenNames -merge -underBinder s2 src3 s4 p5 s6 b7 s8
    have hs2 : P s2 := by
      refine ite_k ?_ ?_
      · refine setF_k K 9 part_ptsLatTxSlip (sub rfl hA) ?_
        refine setF_k K 9 part_ptsLatTxFill (sub rfl hA) ?_
        refine setB_k K 9 part_ptsLatTxValid (sub rfl hA) ?_
        assumption
      · refine setF_k K 9 part_ptsLatRxSlip (sub rfl hA) ?_
        refine setF_k K 9 part_ptsLatRxCdr (sub rfl hA) ?_
        refine setF_k K 9 part_ptsLatRxFill (sub rfl hA) ?_
        refine setB_k K 9 part_ptsLatRxValid (sub rfl hA) ?_
        assumption
    try clear_value s2
    try clear_value src3
    have hs4 : P s4 := by
      refine ite_k ?_ ?_
      · assumption
      · refine State.setLane_keeps K (sub rfl hA) ?_
        · assumption
    try clear_value s4
    try clear_value p5
    have hs6 : P s6 := by
      refine addWrap_k K 9 part_ptsStatusLatSeq (sub rfl hA) ?_
      refine set64_k K 9 part_ptsLatTime_2 (sub rfl hA) ?_
      assumption
    try clear_value s6
    try clear_value b7
    have hs8 : P s8 := by
      refine raiseEv_keeps K (sub rfl hA) ?_
      · assumption
    try clear_value s8
    refine next_k ?_
    refine stampStatus_keeps K (sub rfl hA) ?_
    · refine ttLatSeq_keeps K (sub rfl hA) ?_
      · assumption

theorem execLinkUp_keeps (K : Keeps P A) (hA : Sub 4621011259608844037 A) {port remote s} (h_s : P s) :
    Nx P (execLinkUp port remote s) := by
  unfold execLinkUp
  refine iteN_k ?_ ?_
  · refine next_k ?_
    refine ite_k ?_ ?_
    · refine setB_k K 20 part_twStatusLinkUp (sub rfl hA) ?_
      assumption
    · assumption
  · refine iteN_k ?_ ?_
    · refine next_k ?_
      assumption
    · refine iteN_k ?_ ?_
      · refine next_k ?_
        refine State.setLane_keeps K (sub rfl hA) ?_
        assumption
      · refine iteN_k ?_ ?_
        · refine next_k ?_
          assumption
        · extract_lets +onlyGivenNames -merge -underBinder s1 s2
          try clear_value s1
          have hs2 : P s2 := by
            refine State.setLane_keeps K (sub rfl hA) ?_
            refine setB_k K 10 part_sdsStatusLink (sub rfl hA) ?_
            assumption
          try clear_value s2
          extract_lets +onlyGivenNames -merge -underBinder s3
          have hs3 : P s3 := by
            refine raiseEv_keeps K (sub rfl hA) ?_
            assumption
          try clear_value s3
          refine next_k ?_
          refine linkFollow_keeps K (sub rfl hA) ?_
          refine ttLink_keeps K (sub rfl hA) ?_
          assumption

theorem execLinkDown_keeps (K : Keeps P A) (hA : Sub 4791802988045725501 A) {port cause data s} (h_s : P s) :
    Nx P (execLinkDown port cause data s) := by
  unfold execLinkDown
  refine iteN_k ?_ ?_
  · refine next_k ?_
    assumption
  · extract_lets +onlyGivenNames -merge -underBinder s1
    have hs1 : P s1 := by
      refine linkDown_keeps K (sub rfl hA) ?_
      assumption
    try clear_value s1
    refine next_k ?_
    refine ite_k ?_ ?_
    · refine rxUnlock_keeps K (sub rfl hA) ?_
      assumption
    · assumption

theorem startTx_keeps (K : Keeps P A) (hA : Sub 277562295809 A) {p phase s} (h_s : P s) :
    P (startTx p phase s) := by
  unfold startTx
  extract_lets +onlyGivenNames -merge -underBinder s1 s3 s4
  have hs1 : P s1 := by
    refine foldl_k ?_ (fun s0 k0 hs0 => ?_)
    · assumption
    · extract_lets +onlyGivenNames -merge -underBinder s2
      have hs2 : P s2 := by
        refine setB_k K 9 part_ptsLatTxValid (sub rfl hA) ?_
        refine setB_k K 10 part_sdsStatusTxOn (sub rfl hA) ?_
        assumption
      try clear_value s2
      refine State.setLane_keeps K (sub rfl hA) ?_
      · assumption
  try clear_value s1
  have hs3 : P s3 := by
    refine alignPort_keeps K (sub rfl hA) ?_
    · assumption
  try clear_value s3
  have hs4 : P s4 := by
    refine foldl_k ?_ (fun s0 k0 hs0 => ?_)
    · assumption
    · refine State.setLane_keeps K (sub rfl hA) ?_
      · assumption
  try clear_value s4
  refine stampStatus_keeps K (sub rfl hA) ?_
  · refine showAlign_keeps K (sub rfl hA) ?_
    · assumption

theorem stopTx_keeps (K : Keeps P A) (hA : Sub 2684388865 A) {p s} (h_s : P s) :
    P (stopTx p s) := by
  unfold stopTx
  extract_lets +onlyGivenNames -merge -underBinder s1
  have hs1 : P s1 := by
    refine foldl_k ?_ (fun s0 k0 hs0 => ?_)
    · assumption
    · refine setB_k K 10 part_sdsStatusTxOn (sub rfl hA) ?_
      assumption
  try clear_value s1
  refine stampStatus_keeps K (sub rfl hA) ?_
  · refine showAlign_keeps K (sub rfl hA) ?_
    · assumption

theorem execTxRestart_keeps (K : Keeps P A) (hA : Sub 4620693500748400133 A) {port phase s} (h_s : P s) :
    Nx P (execTxRestart port phase s) := by
  unfold execTxRestart
  refine iteN_k ?_ ?_
  · refine next_k ?_
    assumption
  · refine next_k ?_
    refine erEnableCheck_keeps K (sub rfl hA) ?_
    refine startTx_keeps K (sub rfl hA) ?_
    assumption

theorem execSdsTrimDone_keeps (K : Keeps P A) (hA : Sub 4620693225870492677 A) {lane s} (h_s : P s) :
    Nx P (execSdsTrimDone lane s) := by
  unfold execSdsTrimDone
  refine iteN_k ?_ ?_
  · refine next_k ?_
    assumption
  · extract_lets +onlyGivenNames -merge -underBinder t1 s2
    try clear_value t1
    have hs2 : P s2 := by
      refine setB_k K 10 part_sdsStatusTrimBusy (sub rfl hA) ?_
      refine setF_k K 10 part_sdsTrimPiPos (sub rfl hA) ?_
      assumption
    try clear_value s2
    refine next_k ?_
    refine erEnableCheck_keeps K (sub rfl hA) ?_
    refine showAlign_keeps K (sub rfl hA) ?_
    refine raiseEv_keeps K (sub rfl hA) ?_
    assumption

theorem addChecked_keeps (K : Keeps P A) (hA : Sub 1024 A) {lane bits errors s} (h_s : P s) :
    P (addChecked lane bits errors s) := by
  unfold addChecked
  refine set64_k K 10 part_sdsPrbsErr_2 (sub rfl hA) ?_
  refine set64_k K 10 part_sdsPrbsBits_2 (sub rfl hA) ?_
  assumption

theorem prbsTick_keeps (K : Keeps P A) (hA : Sub 268436480 A) {n s} (h_s : P s) :
    P (prbsTick n s) := by
  unfold prbsTick
  refine ite_k ?_ ?_
  · extract_lets +onlyGivenNames -merge -underBinder b1 d2
    try clear_value b1
    have hd2 : P d2.2 := by
      refine State.draw_keeps K (sub rfl hA) ?_
      assumption
    try clear_value d2
    refine addChecked_keeps K (sub rfl hA) ?_
    assumption
  · assumption

theorem execPrbsLockChange_keeps (K : Keeps P A) (hA : Sub 2684355585 A) {lane locked bits errors s} (h_s : P s) :
    Nx P (execPrbsLockChange lane locked bits errors s) := by
  unfold execPrbsLockChange
  refine iteN_k ?_ ?_
  · refine next_k ?_
    assumption
  · refine next_k ?_
    refine raiseEv_keeps K (sub rfl hA) ?_
    refine setB_k K 10 part_sdsStatusPrbsLock (sub rfl hA) ?_
    assumption

theorem showRecal_keeps (K : Keeps P A) (hA : Sub 512 A) {p s} (h_s : P s) :
    P (showRecal p s) := by
  unfold showRecal
  refine setB_k K 9 part_ptsStatusRecalDue (sub rfl hA) ?_
  assumption

theorem execPtsRecalDue_keeps (K : Keeps P A) (hA : Sub 277562262017 A) {lane temp s} (h_s : P s) :
    Nx P (execPtsRecalDue lane temp s) := by
  unfold execPtsRecalDue
  extract_lets +onlyGivenNames -merge -underBinder p1 d2
  try clear_value p1
  try clear_value d2
  refine iteN_k ?_ ?_
  · refine next_k ?_
    assumption
  · refine next_k ?_
    refine raiseEv_keeps K (sub rfl hA) ?_
    refine showRecal_keeps K (sub rfl hA) ?_
    refine State.setLane_keeps K (sub rfl hA) ?_
    assumption

theorem execStampCorrApply_keeps (K : Keeps P A) (hA : Sub 68719477248 A) {port mode tx s} (h_s : P s) :
    Nx P (execStampCorrApply port mode tx s) := by
  unfold execStampCorrApply
  refine iteN_k ?_ ?_
  · extract_lets +onlyGivenNames -merge -underBinder a1 r2
    have hr2 : P r2.2 := by
      refine timedApply_keeps K (sub rfl hA) ?_
      · assumption
    try clear_value r2
    refine next_k ?_
    refine setI64_k K 9 (by try dsimp only [a1]; split_ifs <;> first | exact part_ptsCorrTx_2 | exact part_ptsCorrRx_2) (sub rfl hA) ?_
    assumption
  · refine next_k ?_
    assumption

theorem setCorr_keeps (K : Keeps P A) (hA : Sub 68719477248 A) {a x v current s} (h_s : P s)
    (ha : regPart a = 9 ∧ regPart (a + 4) = 9 := by first | exact part_ptsCorrRx_2 | exact part_ptsCorrTx_2) :
    P (setCorr a x v current s) := by
  unfold setCorr
  refine ite_k ?_ ?_
  · exact timedAdd_keeps K (sub rfl hA) h_s
  · exact setI64_k K 9 ha (sub rfl hA) (upd_timed K (sub rfl hA) h_s)

theorem sdsSetStampCorrEffect_keeps (K : Keeps P A) (hA : Sub 71672267265 A) {c s} (h_s : P s) :
    P (sdsSetStampCorrEffect c s).1 := by
  unfold sdsSetStampCorrEffect
  extract_lets +onlyGivenNames -merge -underBinder p1 m2 current3 x4 s5 s6
  try clear_value p1
  try clear_value m2
  try clear_value current3
  have hx4 : P x4.2 := by
    refine ite2_k ?_ ?_
    · refine fixXc_keeps K (sub rfl hA) ?_
      · assumption
    · refine mk2_k ?_
      assumption
  try clear_value x4
  have hs5 : P s5 := by
    refine ite_k ?_ ?_
    · refine setCorr_keeps K (sub rfl hA) ?_
      · assumption
    · assumption
  try clear_value s5
  have hs6 : P s6 := by
    refine ite_k ?_ ?_
    · refine setCorr_keeps K (sub rfl hA) ?_
      · assumption
    · assumption
  try clear_value s6
  refine mk1_k ?_
  refine raiseEv_keeps K (sub rfl hA) ?_
  · assumption

theorem execSdsSetStampCorr_keeps (K : Keeps P A) (hA : Sub 4620693294858371589 A) {c s} (h_s : P s) :
    Nx P (execSdsSetStampCorr c s) := by
  unfold execSdsSetStampCorr
  refine runCmd_keeps K (sub rfl hA) ?_ ?_
  · intro _ _ hh
    refine sdsSetStampCorrEffect_keeps K (sub rfl hA) ?_
    assumption
  · assumption

theorem dropTrim_keeps (K : Keeps P A) (hA : Sub 274877940736 A) {n s} (h_s : P s) :
    P (dropTrim n s) := by
  unfold dropTrim
  extract_lets +onlyGivenNames -merge -underBinder s1 s2
  have hs1 : P s1 := by
    refine setB_k K 10 part_sdsStatusTrimBusy (sub rfl hA) ?_
    refine setF_k K 10 part_sdsTrimPiTgt (sub rfl hA) ?_
    refine setF_k K 10 part_sdsTrimPiPos (sub rfl hA) ?_
    refine setF_k K 10 part_sdsTrimWords (sub rfl hA) ?_
    assumption
  try clear_value s1
  have hs2 : P s2 := by
    refine ite_k ?_ ?_
    · refine setF_k K 15 part_erPortAlignWordOff (sub rfl hA) ?_
      refine setF_k K 15 part_erPortAlignRelPart (sub rfl hA) ?_
      assumption
    · assumption
  try clear_value s2
  refine State.setLane_keeps K (sub rfl hA) ?_
  assumption

theorem laneMode_keeps (K : Keeps P A) (hA : Sub 274882135552 A) {n mode fec s} (h_s : P s) :
    P (laneMode n mode fec s) := by
  unfold laneMode
  extract_lets +onlyGivenNames -merge -underBinder s1
  have hs1 : P s1 := by
    refine ite_k ?_ ?_
    · assumption
    · refine dropTrim_keeps K (sub rfl hA) ?_
      assumption
  try clear_value s1
  refine retarget_keeps K (sub rfl hA) ?_
  refine showEq_keeps K (sub rfl hA) ?_
  refine setF_k K 10 part_sdsStatusFec (sub rfl hA) ?_
  refine setF_k K 10 part_sdsStatusMode (sub rfl hA) ?_
  assumption

theorem portHold_keeps (K : Keeps P A) (hA : Sub 4791802988045725501 A) {p s} (h_s : P s) :
    P (portHold p s) := by
  unfold portHold
  extract_lets +onlyGivenNames -merge -underBinder s1
  have hs1 : P s1 := by
    refine relock_keeps K (sub rfl hA) ?_
    assumption
  try clear_value s1
  refine foldl_k ?_ (fun s0 k0 hs0 => ?_)
  · assumption
  · refine State.setLane_keeps K (sub rfl hA) ?_
    assumption

theorem lanesSleep_keeps (K : Keeps P A) (hA : Sub 283472070144 A) {ls s} (h_s : P s) :
    P (lanesSleep ls s) := by
  unfold lanesSleep
  extract_lets +onlyGivenNames -merge -underBinder s1
  have hs1 : P s1 := by
    refine foldl_k ?_ (fun s0 k0 hs0 => ?_)
    · assumption
    · extract_lets +onlyGivenNames -merge -underBinder s2
      have hs2 : P s2 := by
        refine setB_k K 10 part_sdsStatusLink (sub rfl hA) ?_
        refine setB_k K 10 part_sdsStatusRxLock (sub rfl hA) ?_
        refine laneMode_keeps K (sub rfl hA) ?_
        assumption
      try clear_value s2
      refine State.setLane_keeps K (sub rfl hA) ?_
      assumption
  try clear_value s1
  refine upd_islands K (sub rfl hA) ?_
  assumption

theorem portStep_keeps (K : Keeps P A) (hA : Sub 4791802996639854399 A) {o s} (h_s : P s) :
    P (portStep o s).1 := by
  unfold portStep
  extract_lets +onlyGivenNames -merge -underBinder c1 p2 m3 fec4
  try clear_value c1
  try clear_value p2
  try clear_value m3
  try clear_value fec4
  split
  · refine ite1_k ?_ ?_
    · refine mk1_k ?_
      refine portDenied_keeps K (sub rfl hA) ?_
      assumption
    · extract_lets +onlyGivenNames -merge -underBinder s5
      have hs5 : P s5 := by
        refine ite_k ?_ ?_
        · refine flushEgress_keeps K (sub rfl hA) ?_
          assumption
        · assumption
      try clear_value s5
      refine ite1_k ?_ ?_
      · refine mk1_k ?_
        assumption
      · refine mk1_k ?_
        refine portHold_keeps K (sub rfl hA) ?_
        assumption
  · refine ite1_k ?_ ?_
    · refine mk1_k ?_
      assumption
    · extract_lets +onlyGivenNames -merge -underBinder old6 s7
      try clear_value old6
      have hs7 : P s7 := by
        refine stopTx_keeps K (sub rfl hA) ?_
        assumption
      try clear_value s7
      refine ite1_k ?_ ?_
      · extract_lets +onlyGivenNames -merge -underBinder s8
        have hs8 : P s8 := by
          refine showRecal_keeps K (sub rfl hA) ?_
          refine setF_k K 9 part_ptsStatusMode (sub rfl hA) ?_
          refine lanesSleep_keeps K (sub rfl hA) ?_
          assumption
        try clear_value s8
        refine mk1_k ?_
        refine stampStatus_keeps K (sub rfl hA) ?_
        assumption
      · refine ite1_k ?_ ?_
        · refine mk1_k ?_
          assumption
        · extract_lets +onlyGivenNames -merge -underBinder s9 s10 s11
          have hs9 : P s9 := by
            refine lanesSleep_keeps K (sub rfl hA) ?_
            assumption
          try clear_value s9
          have hs10 : P s10 := by
            refine foldl_k ?_ (fun s0 k0 hs0 => ?_)
            · assumption
            · refine laneMode_keeps K (sub rfl hA) ?_
              assumption
          try clear_value s10
          have hs11 : P s11 := by
            refine showRecal_keeps K (sub rfl hA) ?_
            refine setF_k K 9 part_ptsStatusMode (sub rfl hA) ?_
            assumption
          try clear_value s11
          refine mk1_k ?_
          refine startTx_keeps K (sub rfl hA) ?_
          assumption
  · refine ite1_k ?_ ?_
    · refine mk1_k ?_
      assumption
    · refine mk1_k ?_
      assumption

theorem execSdsPortConfig_keeps (K : Keeps P A) (hA : Sub 4791802996639854399 A) {c s} (h_s : P s) :
    Nx P (execSdsPortConfig c s) := by
  unfold execSdsPortConfig
  refine runStepped_keeps K (sub rfl hA) ?_ ?_
  · intro _ _ hh
    refine portStep_keeps K (sub rfl hA) ?_
    assumption
  · assumption

theorem sdsSetFirEffect_keeps (K : Keeps P A) (hA : Sub 274882102784 A) {c s} (h_s : P s) :
    P (sdsSetFirEffect c s).1 := by
  unfold sdsSetFirEffect
  extract_lets +onlyGivenNames -merge -underBinder n1
  try clear_value n1
  refine mk1_k ?_
  refine showEq_keeps K (sub rfl hA) ?_
  · refine setEq_keeps K (sub rfl hA) ?_
    · assumption

theorem execSdsSetFir_keeps (K : Keeps P A) (hA : Sub 4620693500215690756 A) {c s} (h_s : P s) :
    Nx P (execSdsSetFir c s) := by
  unfold execSdsSetFir
  refine runCmd_keeps K (sub rfl hA) ?_ ?_
  · intro _ _ hh
    refine sdsSetFirEffect_keeps K (sub rfl hA) ?_
    assumption
  · assumption

theorem sdsSetCtleEffect_keeps (K : Keeps P A) (hA : Sub 4791802988049919805 A) {c s} (h_s : P s) :
    P (sdsSetCtleEffect c s).1 := by
  unfold sdsSetCtleEffect
  extract_lets +onlyGivenNames -merge -underBinder n1 m2 old3 new4 s5
  try clear_value n1
  try clear_value m2
  try clear_value old3
  try clear_value new4
  have hs5 : P s5 := by
    refine showEq_keeps K (sub rfl hA) ?_
    refine setEq_keeps K (sub rfl hA) ?_
    assumption
  try clear_value s5
  refine mk1_k ?_
  refine ite_k ?_ ?_
  · extract_lets +onlyGivenNames -merge -underBinder s6
    have hs6 : P s6 := by
      refine relock_keeps K (sub rfl hA) ?_
      assumption
    try clear_value s6
    refine ite_k ?_ ?_
    · refine State.setLane_keeps K (sub rfl hA) ?_
      assumption
    · assumption
  · assumption

theorem execSdsSetCtle_keeps (K : Keeps P A) (hA : Sub 4791802988049919805 A) {c s} (h_s : P s) :
    Nx P (execSdsSetCtle c s) := by
  unfold execSdsSetCtle
  refine runCmd_keeps K (sub rfl hA) ?_ ?_
  · intro _ _ hh
    refine sdsSetCtleEffect_keeps K (sub rfl hA) ?_
    assumption
  · assumption

theorem sdsPrbsDo_keeps (K : Keeps P A) (hA : Sub 4791802988045725501 A) {c s} (h_s : P s) :
    P (sdsPrbsDo c s).1 := by
  unfold sdsPrbsDo
  extract_lets +onlyGivenNames -merge -underBinder n1 reply2 s3 tx4 rx5 rxOld6 newRx7 s8 s9 s10 s11 s12 s13
  try clear_value n1
  try clear_value reply2
  have hs3 : P s3 := by
    refine ite_k ?_ ?_
    · refine set64_k K 10 part_sdsPrbsBits_2 (sub rfl hA) ?_
      refine set64_k K 10 part_sdsPrbsErr_2 (sub rfl hA) ?_
      assumption
    · assumption
  try clear_value s3
  try clear_value tx4
  try clear_value rx5
  try clear_value rxOld6
  try clear_value newRx7
  have hs8 : P s8 := by
    refine setF_k K 10 part_sdsPrbsCtrlRate (sub rfl hA) ?_
    refine setB_k K 10 part_sdsPrbsCtrlRxInv (sub rfl hA) ?_
    refine setB_k K 10 part_sdsPrbsCtrlTxInv (sub rfl hA) ?_
    refine setF_k K 10 part_sdsPrbsCtrlRxPat (sub rfl hA) ?_
    refine setF_k K 10 part_sdsPrbsCtrlTxPat (sub rfl hA) ?_
    assumption
  try clear_value s8
  have hs9 : P s9 := by
    refine setB_k K 10 part_sdsPrbsCtrlTraffic (sub rfl hA) ?_
    refine setF_k K 10 part_sdsPrbsCtrlInj (sub rfl hA) ?_
    assumption
  try clear_value s9
  have hs10 : P s10 := by
    refine setB_k K 10 part_sdsStatusPrbsRx (sub rfl hA) ?_
    refine setB_k K 10 part_sdsStatusPrbsTx (sub rfl hA) ?_
    assumption
  try clear_value s10
  try clear_value s11
  have hs12 : P s12 := by
    refine State.setLane_keeps K (sub rfl hA) ?_
    assumption
  try clear_value s12
  have hs13 : P s13 := by
    refine ite_k ?_ ?_
    · refine prbsUnlock_keeps K (sub rfl hA) ?_
      assumption
    · assumption
  try clear_value s13
  extract_lets +onlyGivenNames -merge -underBinder s14
  have hs14 : P s14 := by
    refine ite_k ?_ ?_
    · refine ite_k ?_ ?_
      · refine linkDown_keeps K (sub rfl hA) ?_
        assumption
      · assumption
    · assumption
  try clear_value s14
  refine mk1_k ?_
  refine ite_k ?_ ?_
  · refine relock_keeps K (sub rfl hA) ?_
    assumption
  · assumption

theorem sdsPrbsEffect_keeps (K : Keeps P A) (hA : Sub 4791802988045725501 A) {c s} (h_s : P s) :
    P (sdsPrbsEffect c s).1 := by
  unfold sdsPrbsEffect
  refine ite1_k ?_ ?_
  · refine mk1_k ?_
    assumption
  · extract_lets +onlyGivenNames -merge -underBinder r1
    have hr1 : P r1.1 := by
      refine sdsPrbsDo_keeps K (sub rfl hA) ?_
      assumption
    try clear_value r1
    refine mk1_k ?_
    assumption

theorem execSdsPrbs_keeps (K : Keeps P A) (hA : Sub 4791802988045725501 A) {c s} (h_s : P s) :
    Nx P (execSdsPrbs c s) := by
  unfold execSdsPrbs
  refine runHeld_keeps K (sub rfl hA) ?_ ?_
  · intro _ _ hh
    refine sdsPrbsEffect_keeps K (sub rfl hA) ?_
    assumption
  · assumption

theorem vstepOf_keeps (K : Keeps P A) (hA : Sub 268435456 A) {n s} (h_s : P s) :
    P (vstepOf n s).2 := by
  unfold vstepOf
  split
  · refine mk2_k ?_
    assumption
  · refine mk2_k ?_
    refine State.draw_keeps K (sub rfl hA) ?_
    · assumption

theorem scanReply_keeps (K : Keeps P A) (hA : Sub 268436480 A) {o s} (h_s : P s) :
    P (scanReply o s).1 := by
  unfold scanReply
  extract_lets +onlyGivenNames -merge -underBinder z1 v2
  try clear_value z1
  have hv2 : P v2.2 := by
    refine vstepOf_keeps K (sub rfl hA) ?_
    · assumption
  try clear_value v2
  refine mk1_k ?_
  refine setB_k K 10 part_sdsStatusScan (sub rfl hA) ?_
  assumption

theorem scanStep_keeps (K : Keeps P A) (hA : Sub 268436480 A) {o s} (h_s : P s) :
    P (scanStep o s).1 := by
  unfold scanStep
  extract_lets +onlyGivenNames -merge -underBinder c1 n2 total3 j4 s5 locked6 next7
  try clear_value c1
  try clear_value n2
  try clear_value total3
  try clear_value j4
  have hs5 : P s5 := by
    refine setB_k K 10 part_sdsStatusScan (sub rfl hA) ?_
    assumption
  try clear_value s5
  try clear_value locked6
  split
  · refine ite1_k ?_ ?_
    · dsimp only [next7]
      refine ite1_k ?_ ?_
      · refine mk1_k ?_
        refine scanReply_keeps K (sub rfl hA) ?_
        assumption
      · refine mk1_k ?_
        assumption
    · dsimp only [next7]
      refine ite1_k ?_ ?_
      · refine mk1_k ?_
        refine scanReply_keeps K (sub rfl hA) ?_
        assumption
      · refine mk1_k ?_
        assumption
  · dsimp only [next7]
    refine ite1_k ?_ ?_
    · refine mk1_k ?_
      refine scanReply_keeps K (sub rfl hA) ?_
      assumption
    · refine mk1_k ?_
      assumption
  · refine ite1_k ?_ ?_
    · dsimp only [next7]
      refine ite1_k ?_ ?_
      · refine mk1_k ?_
        refine scanReply_keeps K (sub rfl hA) ?_
        assumption
      · refine mk1_k ?_
        assumption
    · refine ite1_k ?_ ?_
      · dsimp only [next7]
        refine ite1_k ?_ ?_
        · refine mk1_k ?_
          refine scanReply_keeps K (sub rfl hA) ?_
          assumption
        · refine mk1_k ?_
          assumption
      · refine mk1_k ?_
        assumption

theorem execSdsEyeScan_keeps (K : Keeps P A) (hA : Sub 4764808413678404612 A) {c s} (h_s : P s) :
    Nx P (execSdsEyeScan c s) := by
  unfold execSdsEyeScan
  refine runStepped_keeps K (sub rfl hA) ?_ ?_
  · intro _ _ hh
    refine scanStep_keeps K (sub rfl hA) ?_
    assumption
  · assumption

theorem sdsSetTrimEffect_keeps (K : Keeps P A) (hA : Sub 277562295297 A) {c s} (h_s : P s) :
    P (sdsSetTrimEffect c s).1 := by
  unfold sdsSetTrimEffect
  extract_lets +onlyGivenNames -merge -underBinder p1 n2 r3
  try clear_value p1
  try clear_value n2
  have hr3 : P r3.2 := by
    refine foldl_g (Q := fun r : _ × State => P r.2) ?_ (fun s0 k0 hs0 => ?_)
    · refine mk2_k ?_
      assumption
    · extract_lets +onlyGivenNames -merge -underBinder t4
      have ht4 : P t4.2 := by
        refine setHostTrim_keeps K (sub rfl hA) ?_
        · assumption
      try clear_value t4
      refine mk2_k ?_
      assumption
  try clear_value r3
  refine mk1_k ?_
  assumption

theorem execSdsSetTrim_keeps (K : Keeps P A) (hA : Sub 4620693500748399621 A) {c s} (h_s : P s) :
    Nx P (execSdsSetTrim c s) := by
  unfold execSdsSetTrim
  refine runCmd_keeps K (sub rfl hA) ?_ ?_
  · intro _ _ hh
    refine sdsSetTrimEffect_keeps K (sub rfl hA) ?_
    assumption
  · assumption

theorem sdsLaneStatusEffect_keeps (K : Keeps P A) (hA : Sub 0 A) {c s} (h_s : P s) :
    P (sdsLaneStatusEffect c s).1 := by
  unfold sdsLaneStatusEffect
  extract_lets +onlyGivenNames -merge -underBinder n1 b2
  try clear_value n1
  try clear_value b2
  refine mk1_k ?_
  assumption

theorem execSdsLaneStatus_keeps (K : Keeps P A) (hA : Sub 4620693225333587972 A) {c s} (h_s : P s) :
    Nx P (execSdsLaneStatus c s) := by
  unfold execSdsLaneStatus
  refine runCmd_keeps K (sub rfl hA) ?_ ?_
  · intro _ _ hh
    refine sdsLaneStatusEffect_keeps K (sub rfl hA) ?_
    assumption
  · assumption

end Sys2Proof.Machine
end

