-- ==== Sys2Proof/Laws/KeepTwin.lean ====
section
/-! SUPPORT. What the operations of Sys2Proof/Machine/Twin.lean keep (Sys2Proof/Laws/Keeps.lean): the mask in each lemma names the parts
of the state that the operation can touch. -/

set_option Elab.async false

namespace Sys2Proof.Machine

variable {P : State → Prop} {A : Nat}

theorem startWtr_keeps (K : Keeps P A) (hA : Sub 9007199255789568 A) {s} (h_s : P s) :
    P (startWtr s) := by
  unfold startWtr
  refine ite_k ?_ ?_
  · extract_lets +onlyGivenNames -merge -underBinder src1
    have hsrc1 : P src1 := by
      refine setB_k K 20 part_twStatusWtrRun (sub rfl hA) ?_
      assumption
    try clear_value src1
    refine upd_tw K (sub rfl hA) ?_
    assumption
  · extract_lets +onlyGivenNames -merge -underBinder src2
    have hsrc2 : P src2 := by
      refine setB_k K 20 part_twStatusWtrRun (sub rfl hA) ?_
      assumption
    try clear_value src2
    refine upd_tw K (sub rfl hA) ?_
    assumption

theorem restartWtr_keeps (K : Keeps P A) (hA : Sub 9007199255789568 A) {s} (h_s : P s) :
    P (restartWtr s) := by
  unfold restartWtr
  refine ite_k ?_ ?_
  · refine startWtr_keeps K (sub rfl hA) ?_
    · assumption
  · assumption

theorem ackDrop_keeps (K : Keeps P A) (hA : Sub 9007207442022405 A) {s} (h_s : P s) :
    P (ackDrop s) := by
  unfold ackDrop
  split
  · assumption
  · extract_lets +onlyGivenNames -merge -underBinder s1
    have hs1 : P s1 := by
      refine raiseEv_keeps K (sub rfl hA) ?_
      assumption
    try clear_value s1
    refine ackEnds_keeps K (sub rfl hA) ?_
    assumption

theorem mirrorsLeave_keeps (K : Keeps P A) (hA : Sub 9007207442022405 A) {old st s} (h_s : P s) :
    P (mirrorsLeave old st s) := by
  unfold mirrorsLeave
  refine ite_k ?_ ?_
  · assumption
  · refine ite_k ?_ ?_
    · refine upd_tw K (sub rfl hA) ?_
      assumption
    · refine ite_k ?_ ?_
      · extract_lets +onlyGivenNames -merge -underBinder __src1
        have h__src1 : P __src1 := by
          refine ackDrop_keeps K (sub rfl hA) ?_
          assumption
        try clear_value __src1
        refine upd_tw K (sub rfl hA) ?_
        assumption
      · assumption

theorem setAligned_keeps (K : Keeps P A) (hA : Sub 155345658631168057 A) {b e s} (h_s : P s) :
    P (setAligned b e s) := by
  unfold setAligned
  refine ite_k ?_ ?_
  · assumption
  · extract_lets +onlyGivenNames -merge -underBinder s1 src2 s3
    have hs1 : P s1 := by
      refine raiseEv_keeps K (sub rfl hA) ?_
      · refine setB_k K 20 part_twStatusAligned (sub rfl hA) ?_
        assumption
    try clear_value s1
    try clear_value src2
    have hs3 : P s3 := by
      refine upd_tw K (sub rfl hA) ?_
      assumption
    try clear_value s3
    refine ite_k ?_ ?_
    · assumption
    · extract_lets +onlyGivenNames -merge -underBinder s4
      have hs4 : P s4 := by
        refine restartWtr_keeps K (sub rfl hA) ?_
        · assumption
      try clear_value s4
      refine ite_k ?_ ?_
      · refine enterHoldover_keeps K (sub rfl hA) ?_
        · assumption
      · assumption

theorem enterTwin_keeps (K : Keeps P A) (hA : Sub 155345659839127613 A) {st s} (h_s : P s) :
    P (enterTwin st s) := by
  unfold enterTwin
  extract_lets +onlyGivenNames -merge -underBinder old1 s2 s3 s4
  try clear_value old1
  have hs2 : P s2 := by
    refine setF_k K 20 part_twStatusState (sub rfl hA) ?_
    assumption
  try clear_value s2
  try clear_value s3
  have hs4 : P s4 := by
    refine upd_tw K (sub rfl hA) ?_
    assumption
  try clear_value s4
  extract_lets +onlyGivenNames -merge -underBinder s5 s6
  have hs5 : P s5 := by
    refine setB_k K 0 part_hstStatusActive (sub rfl hA) ?_
    assumption
  try clear_value s5
  have hs6 : P s6 := by
    refine mirrorsLeave_keeps K (sub rfl hA) ?_
    assumption
  try clear_value s6
  refine tstatFollow_keeps K (sub rfl hA) ?_
  refine startWtr_keeps K (sub rfl hA) ?_
  refine ite_k ?_ ?_
  · assumption
  · refine setAligned_keeps K (sub rfl hA) ?_
    assumption

theorem twinEvent_keeps (K : Keeps P A) (hA : Sub 2684354561 A) {old cause s} (h_s : P s) :
    P (twinEvent old cause s) := by
  unfold twinEvent
  refine State.signalVector_keeps K (sub rfl hA) ?_
  · refine raiseEv_keeps K (sub rfl hA) ?_
    · assumption

theorem setTwin_keeps (K : Keeps P A) (hA : Sub 155345659839127613 A) {st cause s} (h_s : P s) :
    P (setTwin st cause s) := by
  unfold setTwin
  extract_lets +onlyGivenNames -merge -underBinder old1
  try clear_value old1
  refine ite_k ?_ ?_
  · assumption
  · refine twinEvent_keeps K (sub rfl hA) ?_
    · refine outsRefresh_keeps K (sub rfl hA) ?_
      · refine enterTwin_keeps K (sub rfl hA) ?_
        · assumption

theorem leaveTwinPhase_keeps (K : Keeps P A) (hA : Sub 146338459375378489 A) {s} (h_s : P s) :
    P (leaveTwinPhase s) := by
  unfold leaveTwinPhase
  extract_lets +onlyGivenNames -merge -underBinder d1
  try clear_value d1
  split
  · refine beginTxn_keeps K (sub rfl hA) ?_
    · assumption
  · refine enterHoldover_keeps K (sub rfl hA) ?_
    · assumption

theorem takeOver_keeps (K : Keeps P A) (hA : Sub 155345659839193149 A) {st cause kind s} (h_s : P s) :
    P (takeOver st cause kind s) := by
  unfold takeOver
  extract_lets +onlyGivenNames -merge -underBinder old1 far2 s3 s4 serial5 b6 s7
  try clear_value old1
  try clear_value far2
  have hs3 : P s3 := by
    refine setF_k K 20 part_twClaim (sub rfl hA) ?_
    assumption
  try clear_value s3
  have hs4 : P s4 := by
    refine twSend_keeps K (sub rfl hA) ?_
    · assumption
  try clear_value s4
  try clear_value serial5
  try clear_value b6
  have hs7 : P s7 := by
    refine outsRefresh_keeps K (sub rfl hA) ?_
    · refine leaveTwinPhase_keeps K (sub rfl hA) ?_
      · refine enterTwin_keeps K (sub rfl hA) ?_
        · assumption
  try clear_value s7
  refine twinEvent_keeps K (sub rfl hA) ?_
  · refine evdTakeover_keeps K (sub rfl hA) ?_
    · assumption

theorem execTwinLinkDown_keeps (K : Keeps P A) (hA : Sub 180112571571824129 A) {s} (h_s : P s) :
    Nx P (execTwinLinkDown s) := by
  unfold execTwinLinkDown
  refine iteN_k ?_ ?_
  · refine next_k ?_
    assumption
  · extract_lets +onlyGivenNames -merge -underBinder s1 s2
    have hs1 : P s1 := by
      refine cutFrame_keeps K (sub rfl hA) ?_
      refine setB_k K 20 part_twStatusLinkUp (sub rfl hA) ?_
      assumption
    try clear_value s1
    have hs2 : P s2 := by
      refine foldl_k ?_ (fun s0 k0 hs0 => ?_)
      · assumption
      · refine setB_k K 10 part_sdsStatusRxLock (sub rfl hA) ?_
        assumption
    try clear_value s2
    refine next_k ?_
    refine restartWtr_keeps K (sub rfl hA) ?_
    assumption

theorem crcBad_keeps (K : Keeps P A) (hA : Sub 1048576 A) {s} (h_s : P s) :
    P (crcBad s) := by
  unfold crcBad
  refine addSat_k K 20 part_twCrcErr (sub rfl hA) ?_
  assumption

theorem execTwHeartbeatTx_keeps (K : Keeps P A) (hA : Sub 9007199254740992 A) {s} (h_s : P s) :
    Nx P (execTwHeartbeatTx s) := by
  unfold execTwHeartbeatTx
  refine iteN_k ?_ ?_
  · refine next_k ?_
    assumption
  · extract_lets +onlyGivenNames -merge -underBinder fault1 s2
    try clear_value fault1
    have hs2 : P s2 := by
      refine twSend_keeps K (sub rfl hA) ?_
      · assumption
    try clear_value s2
    refine next_k ?_
    refine upd_tw K (sub rfl hA) ?_
    assumption

theorem strapCheck_keeps (K : Keeps P A) (hA : Sub 2685403137 A) {pref serial s} (h_s : P s) :
    P (strapCheck pref serial s) := by
  unfold strapCheck
  extract_lets +onlyGivenNames -merge -underBinder own1 s2 conflict3
  try clear_value own1
  have hs2 : P s2 := by
    refine setB_k K 20 part_twStatusPartPref (sub rfl hA) ?_
    assumption
  try clear_value s2
  try clear_value conflict3
  refine ite_k ?_ ?_
  · assumption
  · refine raiseEv_keeps K (sub rfl hA) ?_
    · refine setB_k K 20 part_twStatusStrapConflict (sub rfl hA) ?_
      assumption

theorem followQc_keeps (K : Keeps P A) (hA : Sub 146338425015640121 A) {d q s} (h_s : P s) :
    P (followQc d q s) := by
  unfold followQc
  extract_lets +onlyGivenNames -merge -underBinder s1
  have hs1 : P s1 := by
    refine ite_k ?_ ?_
    · assumption
    · refine setQc_keeps K (sub rfl hA) ?_
      · assumption
  try clear_value s1
  refine setF_k K 4 part_rsDSelQc (sub rfl hA) ?_
  refine setF_k K 3 part_tbDStatusQc (sub rfl hA) ?_
  assumption

theorem execTwHeartbeatRx_keeps (K : Keeps P A) (hA : Sub 155345659839127613 A) {good state qcA qcB claim fault pref serial s} (h_s : P s) :
    Nx P (execTwHeartbeatRx good state qcA qcB claim fault pref serial s) := by
  unfold execTwHeartbeatRx
  refine iteN_k ?_ ?_
  · refine next_k ?_
    assumption
  · refine iteN_k ?_ ?_
    · refine next_k ?_
      refine crcBad_keeps K (sub rfl hA) ?_
      · assumption
    · extract_lets +onlyGivenNames -merge -underBinder src1 s2 s3 s4 st5 claims6
      try clear_value src1
      have hs2 : P s2 := by
        refine upd_tw K (sub rfl hA) ?_
        assumption
      try clear_value s2
      have hs3 : P s3 := by
        refine strapCheck_keeps K (sub rfl hA) ?_
        · assumption
      try clear_value s3
      have hs4 : P s4 := by
        refine ite_k ?_ ?_
        · refine raiseEv_keeps K (sub rfl hA) ?_
          · refine setB_k K 20 part_twStatusLinkFault (sub rfl hA) ?_
            assumption
        · assumption
      try clear_value s4
      try clear_value st5
      try clear_value claims6
      refine iteN_k ?_ ?_
      · refine iteN_k ?_ ?_
        · refine next_k ?_
          refine setTwin_keeps K (sub rfl hA) ?_
          · assumption
        · refine iteN_k ?_ ?_
          · refine next_k ?_
            refine ite_k ?_ ?_
            · refine setTwin_keeps K (sub rfl hA) ?_
              · assumption
            · refine setTwin_keeps K (sub rfl hA) ?_
              · assumption
          · refine next_k ?_
            assumption
      · refine iteN_k ?_ ?_
        · extract_lets +onlyGivenNames -merge -underBinder own7
          try clear_value own7
          refine iteN_k ?_ ?_
          · refine next_k ?_
            refine setTwin_keeps K (sub rfl hA) ?_
            · assumption
          · refine next_k ?_
            assumption
        · refine iteN_k ?_ ?_
          · refine next_k ?_
            refine setTwin_keeps K (sub rfl hA) ?_
            · assumption
          · refine iteN_k ?_ ?_
            · refine next_k ?_
              refine followQc_keeps K (sub rfl hA) ?_
              · refine followQc_keeps K (sub rfl hA) ?_
                · assumption
            · refine next_k ?_
              assumption

theorem execTwLinkTimeout_keeps (K : Keeps P A) (hA : Sub 155345659839127613 A) {s} (h_s : P s) :
    Nx P (execTwLinkTimeout s) := by
  unfold execTwLinkTimeout
  refine iteN_k ?_ ?_
  · refine next_k ?_
    refine setTwin_keeps K (sub rfl hA) ?_
    · assumption
  · refine next_k ?_
    assumption

theorem execTwHbMiss_keeps (K : Keeps P A) (hA : Sub 155345659839193149 A) {s} (h_s : P s) :
    Nx P (execTwHbMiss s) := by
  unfold execTwHbMiss
  refine iteN_k ?_ ?_
  · refine next_k ?_
    assumption
  · refine iteN_k ?_ ?_
    · refine next_k ?_
      refine setTwin_keeps K (sub rfl hA) ?_
      · assumption
    · refine iteN_k ?_ ?_
      · refine iteN_k ?_ ?_
        · refine next_k ?_
          refine takeOver_keeps K (sub rfl hA) ?_
          · assumption
        · refine iteN_k ?_ ?_
          · refine next_k ?_
            assumption
          · refine next_k ?_
            refine raiseEv_keeps K (sub rfl hA) ?_
            · refine setB_k K 20 part_twStatusLinkFault (sub rfl hA) ?_
              assumption
      · refine next_k ?_
        assumption

theorem execTwFaultTimeout_keeps (K : Keeps P A) (hA : Sub 155345659839193149 A) {s} (h_s : P s) :
    Nx P (execTwFaultTimeout s) := by
  unfold execTwFaultTimeout
  split
  · refine iteN_k ?_ ?_
    · refine next_k ?_
      refine takeOver_keeps K (sub rfl hA) ?_
      · assumption
    · refine next_k ?_
      assumption
  · refine next_k ?_
    assumption

theorem execTwTwclkLoss_keeps (K : Keeps P A) (hA : Sub 155345659839193149 A) {s} (h_s : P s) :
    Nx P (execTwTwclkLoss s) := by
  unfold execTwTwclkLoss
  refine iteN_k ?_ ?_
  · refine next_k ?_
    assumption
  · extract_lets +onlyGivenNames -merge -underBinder s1 src2 s3
    have hs1 : P s1 := by
      refine setAligned_keeps K (sub rfl hA) ?_
      · refine setB_k K 20 part_twStatusTwclkOk (sub rfl hA) ?_
        assumption
    try clear_value s1
    try clear_value src2
    have hs3 : P s3 := by
      refine upd_tw K (sub rfl hA) ?_
      assumption
    try clear_value s3
    refine iteN_k ?_ ?_
    · refine next_k ?_
      refine takeOver_keeps K (sub rfl hA) ?_
      · assumption
    · refine next_k ?_
      assumption

theorem execTwAlign_keeps (K : Keeps P A) (hA : Sub 155345658631168057 A) {raw s} (h_s : P s) :
    Nx P (execTwAlign raw s) := by
  unfold execTwAlign
  refine iteN_k ?_ ?_
  · refine next_k ?_
    assumption
  · extract_lets +onlyGivenNames -merge -underBinder e1 s2
    try clear_value e1
    have hs2 : P s2 := by
      refine setI64_k K 20 part_twAlign_2 (sub rfl hA) ?_
      refine setB_k K 20 part_twStatusTwclkOk (sub rfl hA) ?_
      assumption
    try clear_value s2
    refine iteN_k ?_ ?_
    · refine next_k ?_
      assumption
    · extract_lets +onlyGivenNames -merge -underBinder s3 within4 outside5 i6 o7 s8
      have hs3 : P s3 := by
        refine filterStep_keeps K (sub rfl hA) ?_
        refine setI64_k K 5 part_plDPerr_2 (sub rfl hA) ?_
        assumption
      try clear_value s3
      try clear_value within4
      try clear_value outside5
      try clear_value i6
      try clear_value o7
      try clear_value s8
      extract_lets +onlyGivenNames -merge -underBinder s9
      have hs9 : P s9 := by
        refine upd_tw K (sub rfl hA) ?_
        assumption
      try clear_value s9
      refine next_k ?_
      refine ite_k ?_ ?_
      · refine setAligned_keeps K (sub rfl hA) ?_
        assumption
      · refine ite_k ?_ ?_
        · refine setAligned_keeps K (sub rfl hA) ?_
          assumption
        · assumption

theorem execTwTimeTx_keeps (K : Keeps P A) (hA : Sub 9007199254740992 A) {s} (h_s : P s) :
    Nx P (execTwTimeTx s) := by
  unfold execTwTimeTx
  refine iteN_k ?_ ?_
  · refine next_k ?_
    assumption
  · extract_lets +onlyGivenNames -merge -underBinder s1
    have hs1 : P s1 := by
      refine twSend_keeps K (sub rfl hA) ?_
      · assumption
    try clear_value s1
    refine next_k ?_
    refine upd_tw K (sub rfl hA) ?_
    assumption

theorem commitStep_keeps (K : Keeps P A) (hA : Sub 34628173824 A) {d a counter s} (h_s : P s) :
    P (commitStep d a counter s) := by
  unfold commitStep
  extract_lets +onlyGivenNames -merge -underBinder f1
  have hf1 : P f1.2 := by
    refine fixXc_keeps K (sub rfl hA) ?_
    assumption
  try clear_value f1
  refine State.setDom_keeps K (sub rfl hA) ?_
  assumption

theorem takeStepc_keeps (K : Keeps P A) (hA : Sub 34359738376 A) {d n s} (h_s : P s) :
    P (takeStepc d n s) := by
  unfold takeStepc
  refine ite_k ?_ ?_
  · assumption
  · refine setStepc_keeps K (sub rfl hA) ?_
    assumption

theorem execTwTimeRx_keeps (K : Keeps P A) (hA : Sub 4767031678266515519 A) {good stamp here timeA timeB stepA stepB rateA rateB served s} (h_s : P s) :
    Nx P (execTwTimeRx good stamp here timeA timeB stepA stepB rateA rateB served s) := by
  unfold execTwTimeRx
  refine iteN_k ?_ ?_
  · refine next_k ?_
    assumption
  · refine iteN_k ?_ ?_
    · refine next_k ?_
      refine crcBad_keeps K (sub rfl hA) ?_
      assumption
    · extract_lets +onlyGivenNames -merge -underBinder dA1 dB2 off3
      try clear_value dA1
      try clear_value dB2
      try clear_value off3
      refine iteN_k ?_ ?_
      · refine iteN_k ?_ ?_
        · refine next_k ?_
          refine resumeHeld_keeps K (sub rfl hA) ?_
          refine stepDenied_keeps K (sub rfl hA) ?_
          assumption
        · refine iteN_k ?_ ?_
          · refine next_k ?_
            refine resumeHeld_keeps K (sub rfl hA) ?_
            refine stepDenied_keeps K (sub rfl hA) ?_
            assumption
          · extract_lets +onlyGivenNames -merge -underBinder s4
            have hs4 : P s4 := by
              refine commitStep_keeps K (sub rfl hA) ?_
              refine commitStep_keeps K (sub rfl hA) ?_
              refine setI64_k K 20 part_twDttOff_2 (sub rfl hA) ?_
              assumption
            try clear_value s4
            refine next_k ?_
            refine resumeHeld_keeps K (sub rfl hA) ?_
            refine setTwin_keeps K (sub rfl hA) ?_
            assumption
      · refine iteN_k ?_ ?_
        · extract_lets +onlyGivenNames -merge -underBinder s5
          have hs5 : P s5 := by
            refine takeStepc_keeps K (sub rfl hA) ?_
            refine takeStepc_keeps K (sub rfl hA) ?_
            assumption
          try clear_value s5
          refine iteN_k ?_ ?_
          · extract_lets +onlyGivenNames -merge -underBinder s6 d7
            have hs6 : P s6 := by
              refine setI64_k K 20 part_twDttOff_2 (sub rfl hA) ?_
              assumption
            try clear_value s6
            try clear_value d7
            extract_lets +onlyGivenNames -merge -underBinder s8 d9
            have hs8 : P s8 := by
              refine upd_tw K (sub rfl hA) ?_
              assumption
            try clear_value s8
            try clear_value d9
            refine next_k ?_
            refine returnWith_keeps K (sub rfl hA) ?_
            assumption
          · refine next_k ?_
            assumption
        · refine next_k ?_
          assumption

theorem execTwMirrorRx_keeps (K : Keeps P A) (hA : Sub 9007199255789568 A) {good seq opcode tag instant s} (h_s : P s) :
    Nx P (execTwMirrorRx good seq opcode tag instant s) := by
  unfold execTwMirrorRx
  refine iteN_k ?_ ?_
  · refine next_k ?_
    assumption
  · refine iteN_k ?_ ?_
    · refine next_k ?_
      refine crcBad_keeps K (sub rfl hA) ?_
      assumption
    · refine iteN_k ?_ ?_
      · refine next_k ?_
        assumption
      · extract_lets +onlyGivenNames -merge -underBinder x1 late2 s3
        try clear_value x1
        try clear_value late2
        have hs3 : P s3 := by
          refine setF_k K 20 part_twMirrorSeq (sub rfl hA) ?_
          assumption
        try clear_value s3
        refine next_k ?_
        refine upd_tw K (sub rfl hA) ?_
        assumption

theorem ackNote_keeps (K : Keeps P A) (hA : Sub 9007199254740992 A) {seq status detail s} (h_s : P s) :
    P (ackNote seq status detail s) := by
  unfold ackNote
  refine upd_tw K (sub rfl hA) ?_
  assumption

theorem ackMet_keeps (K : Keeps P A) (hA : Sub 9007207442022405 A) {s} (h_s : P s) :
    P (ackMet s) := by
  unfold ackMet
  split
  · assumption
  · split
    · assumption
    · refine ackTaken_keeps K (sub rfl hA) ?_
      assumption

theorem execTwAckRx_keeps (K : Keeps P A) (hA : Sub 9007207443070981 A) {good seq status detail s} (h_s : P s) :
    Nx P (execTwAckRx good seq status detail s) := by
  unfold execTwAckRx
  refine iteN_k ?_ ?_
  · refine next_k ?_
    assumption
  · refine iteN_k ?_ ?_
    · refine next_k ?_
      refine crcBad_keeps K (sub rfl hA) ?_
      assumption
    · refine next_k ?_
      refine ackMet_keeps K (sub rfl hA) ?_
      refine ackNote_keeps K (sub rfl hA) ?_
      assumption

theorem execMirrorAckTimeout_keeps (K : Keeps P A) (hA : Sub 9007207442022405 A) {s} (h_s : P s) :
    Nx P (execMirrorAckTimeout s) := by
  unfold execMirrorAckTimeout
  split
  · refine next_k ?_
    assumption
  · refine iteN_k ?_ ?_
    · refine next_k ?_
      assumption
    · refine next_k ?_
      refine ackDrop_keeps K (sub rfl hA) ?_
      assumption

theorem execTwEvdBhRx_keeps (K : Keeps P A) (hA : Sub 9007199255789568 A) {good epoch block bh s} (h_s : P s) :
    Nx P (execTwEvdBhRx good epoch block bh s) := by
  unfold execTwEvdBhRx
  refine iteN_k ?_ ?_
  · refine next_k ?_
    assumption
  · refine iteN_k ?_ ?_
    · refine next_k ?_
      refine crcBad_keeps K (sub rfl hA) ?_
      · assumption
    · refine next_k ?_
      refine upd_tw K (sub rfl hA) ?_
      assumption

theorem execTwClaimRx_keeps (K : Keeps P A) (hA : Sub 155345659839127613 A) {good claim kind s} (h_s : P s) :
    Nx P (execTwClaimRx good claim kind s) := by
  unfold execTwClaimRx
  refine iteN_k ?_ ?_
  · refine next_k ?_
    assumption
  · refine iteN_k ?_ ?_
    · refine next_k ?_
      refine crcBad_keeps K (sub rfl hA) ?_
      · assumption
    · extract_lets +onlyGivenNames -merge -underBinder src1 s2 fault3
      try clear_value src1
      have hs2 : P s2 := by
        refine upd_tw K (sub rfl hA) ?_
        assumption
      try clear_value s2
      try clear_value fault3
      refine iteN_k ?_ ?_
      · refine next_k ?_
        refine setTwin_keeps K (sub rfl hA) ?_
        · assumption
      · refine next_k ?_
        assumption

theorem execTwWtrExpiry_keeps (K : Keeps P A) (hA : Sub 155345659839193149 A) {s} (h_s : P s) :
    Nx P (execTwWtrExpiry s) := by
  unfold execTwWtrExpiry
  split
  · refine iteN_k ?_ ?_
    · refine next_k ?_
      refine takeOver_keeps K (sub rfl hA) ?_
      · assumption
    · refine next_k ?_
      assumption
  · refine next_k ?_
    assumption

theorem twSettings_keeps (K : Keeps P A) (hA : Sub 9007199255789568 A) {c s} (h_s : P s) :
    P (twSettings c s) := by
  unfold twSettings
  extract_lets +onlyGivenNames -merge -underBinder src1
  have hsrc1 : P src1 := by
    refine setB_k K 20 part_twStatusRevertive (sub rfl hA) ?_
    assumption
  try clear_value src1
  refine upd_tw K (sub rfl hA) ?_
  assumption

theorem twOn_keeps (K : Keeps P A) (hA : Sub 155345934721263165 A) {c s} (h_s : P s) :
    P (twOn c s) := by
  unfold twOn
  extract_lets +onlyGivenNames -merge -underBinder s1
  have hs1 : P s1 := by
    refine foldl_k ?_ (fun s0 k0 hs0 => ?_)
    · refine twSettings_keeps K (sub rfl hA) ?_
      assumption
    · extract_lets +onlyGivenNames -merge -underBinder s2
      have hs2 : P s2 := by
        refine setB_k K 10 part_sdsStatusTxOn (sub rfl hA) ?_
        refine laneMode_keeps K (sub rfl hA) ?_
        assumption
      try clear_value s2
      refine State.setLane_keeps K (sub rfl hA) ?_
      assumption
  try clear_value s1
  refine setTwin_keeps K (sub rfl hA) ?_
  refine upd_tw K (sub rfl hA) ?_
  assumption

theorem twOff_keeps (K : Keeps P A) (hA : Sub 180116978212464189 A) {s} (h_s : P s) :
    P (twOff s) := by
  unfold twOff
  extract_lets +onlyGivenNames -merge -underBinder was1 s2 s3 s4 s6
  try clear_value was1
  have hs2 : P s2 := by
    refine setTwin_keeps K (sub rfl hA) ?_
    · assumption
  try clear_value s2
  have hs3 : P s3 := by
    refine ite_k ?_ ?_
    · refine leaveTwinPhase_keeps K (sub rfl hA) ?_
      · assumption
    · assumption
  try clear_value s3
  have hs4 : P s4 := by
    refine foldl_k ?_ (fun s0 k0 hs0 => ?_)
    · refine cutFrame_keeps K (sub rfl hA) ?_
      · assumption
    · extract_lets +onlyGivenNames -merge -underBinder s5
      have hs5 : P s5 := by
        refine setB_k K 10 part_sdsStatusRxLock (sub rfl hA) ?_
        refine setB_k K 10 part_sdsStatusTxOn (sub rfl hA) ?_
        refine laneMode_keeps K (sub rfl hA) ?_
        · assumption
      try clear_value s5
      refine State.setLane_keeps K (sub rfl hA) ?_
      · assumption
  try clear_value s4
  have hs6 : P s6 := by
    refine setB_k K 20 part_twStatusLinkFault (sub rfl hA) ?_
    refine setB_k K 20 part_twStatusTwclkOk (sub rfl hA) ?_
    refine setB_k K 20 part_twStatusLinkUp (sub rfl hA) ?_
    assumption
  try clear_value s6
  refine upd_islands_tw K (sub rfl hA) ?_
  assumption

theorem twEnableEffect_keeps (K : Keeps P A) (hA : Sub 180116978212464191 A) {c s} (h_s : P s) :
    P (twEnableEffect c s).1 := by
  unfold twEnableEffect
  refine ite1_k ?_ ?_
  · refine mk1_k ?_
    refine twSettings_keeps K (sub rfl hA) ?_
    · assumption
  · refine ite1_k ?_ ?_
    · refine ite1_k ?_ ?_
      · refine mk1_k ?_
        assumption
      · refine ite1_k ?_ ?_
        · refine mk1_k ?_
          refine portDenied_keeps K (sub rfl hA) ?_
          · assumption
        · refine ite1_k ?_ ?_
          · refine mk1_k ?_
            assumption
          · refine mk1_k ?_
            refine twOn_keeps K (sub rfl hA) ?_
            · assumption
    · refine ite1_k ?_ ?_
      · refine mk1_k ?_
        assumption
      · refine mk1_k ?_
        refine twOff_keeps K (sub rfl hA) ?_
        · assumption

theorem execTwEnable_keeps (K : Keeps P A) (hA : Sub 4791802996639852095 A) {c s} (h_s : P s) :
    Nx P (execTwEnable c s) := by
  unfold execTwEnable
  refine runHeld_keeps K (sub rfl hA) ?_ ?_
  · intro _ _ hh
    refine twEnableEffect_keeps K (sub rfl hA) ?_
    assumption
  · assumption

theorem twTakeoverEffect_keeps (K : Keeps P A) (hA : Sub 155345659839193149 A) {x s} (h_s : P s) :
    P (twTakeoverEffect x s).1 := by
  unfold twTakeoverEffect
  refine mk1_k ?_
  refine ite_k ?_ ?_
  · refine takeOver_keeps K (sub rfl hA) ?_
    · assumption
  · assumption

theorem execTwTakeover_keeps (K : Keeps P A) (hA : Sub 4767031678266581053 A) {c s} (h_s : P s) :
    Nx P (execTwTakeover c s) := by
  unfold execTwTakeover
  refine runCmd_keeps K (sub rfl hA) ?_ ?_
  · intro _ _ hh
    refine twTakeoverEffect_keeps K (sub rfl hA) ?_
    assumption
  · assumption

theorem twTakebackEffect_keeps (K : Keeps P A) (hA : Sub 155345659839193149 A) {x s} (h_s : P s) :
    P (twTakebackEffect x s).1 := by
  unfold twTakebackEffect
  refine mk1_k ?_
  refine takeOver_keeps K (sub rfl hA) ?_
  · assumption

theorem execTwTakeback_keeps (K : Keeps P A) (hA : Sub 4767031678266581053 A) {c s} (h_s : P s) :
    Nx P (execTwTakeback c s) := by
  unfold execTwTakeback
  refine runCmd_keeps K (sub rfl hA) ?_ ?_
  · intro _ _ hh
    refine twTakebackEffect_keeps K (sub rfl hA) ?_
    assumption
  · assumption

theorem twStatusEffect_keeps (K : Keeps P A) (hA : Sub 0 A) {x s} (h_s : P s) :
    P (twStatusEffect x s).1 := by
  unfold twStatusEffect
  refine mk1_k ?_
  assumption

theorem execTwStatus_keeps (K : Keeps P A) (hA : Sub 4620693225333587972 A) {c s} (h_s : P s) :
    Nx P (execTwStatus c s) := by
  unfold execTwStatus
  refine runCmd_keeps K (sub rfl hA) ?_ ?_
  · intro _ _ hh
    refine twStatusEffect_keeps K (sub rfl hA) ?_
    assumption
  · assumption

theorem twSetWtrEffect_keeps (K : Keeps P A) (hA : Sub 9007199255789568 A) {c s} (h_s : P s) :
    P (twSetWtrEffect c s).1 := by
  unfold twSetWtrEffect
  refine mk1_k ?_
  refine restartWtr_keeps K (sub rfl hA) ?_
  · refine upd_tw K (sub rfl hA) ?_
    assumption

theorem execTwSetWtr_keeps (K : Keeps P A) (hA : Sub 4620693225333587972 A) {c s} (h_s : P s) :
    Nx P (execTwSetWtr c s) := by
  unfold execTwSetWtr
  refine runCmd_keeps K (sub rfl hA) ?_ ?_
  · intro _ _ hh
    refine twSetWtrEffect_keeps K (sub rfl hA) ?_
    assumption
  · assumption

end Sys2Proof.Machine
end

