-- ==== Sys2Proof/Laws/KeepCalibration.lean ====
section
/-! SUPPORT. What the operations of Sys2Proof/Machine/Calibration.lean keep (Sys2Proof/Laws/Keeps.lean): the mask in each lemma names the parts
of the state that the operation can touch. -/

set_option Elab.async false

namespace Sys2Proof.Machine

variable {P : State → Prop} {A : Nat}

theorem showCal_keeps (K : Keeps P A) (hA : Sub 4194304 A) {s} (h_s : P s) :
    P (showCal s) := by
  unfold showCal
  split
  · refine setF_k K 22 part_calStatusIndex (sub rfl hA) ?_
    refine setF_k K 22 part_calStatusKind (sub rfl hA) ?_
    refine setB_k K 22 part_calStatusRunning (sub rfl hA) ?_
    assumption
  · refine setF_k K 22 part_calStatusIndex (sub rfl hA) ?_
    refine setF_k K 22 part_calStatusKind (sub rfl hA) ?_
    refine setB_k K 22 part_calStatusRunning (sub rfl hA) ?_
    assumption

theorem putRun_keeps (K : Keeps P A) (hA : Sub 288230376155906048 A) {k r s} (h_s : P s) :
    P (putRun k r s) := by
  unfold putRun
  refine showCal_keeps K (sub rfl hA) ?_
  · refine upd_cal K (sub rfl hA) ?_
    assumption

theorem dropRun_keeps (K : Keeps P A) (hA : Sub 288230376155906048 A) {k s} (h_s : P s) :
    P (dropRun k s) := by
  unfold dropRun
  refine showCal_keeps K (sub rfl hA) ?_
  · refine upd_cal K (sub rfl hA) ?_
    assumption

theorem partBegins_keeps (K : Keeps P A) (hA : Sub 4791802988045725501 A) {k before r s} (h_s : P s) :
    P (partBegins k before r s) := by
  unfold partBegins
  refine ite_k ?_ ?_
  · refine relock_keeps K (sub rfl hA) ?_
    assumption
  · assumption

theorem startRun_keeps (K : Keeps P A) (hA : Sub 5080050956387675965 A) {k parts rate origin s} (h_s : P s) :
    P (startRun k parts rate origin s) := by
  unfold startRun
  extract_lets +onlyGivenNames -merge -underBinder r1 s2
  try clear_value r1
  try clear_value s2
  extract_lets +onlyGivenNames -merge -underBinder s3
  have hs3 : P s3 := by
    refine showCal_keeps K (sub rfl hA) ?_
    refine upd_cal K (sub rfl hA) ?_
    assumption
  try clear_value s3
  refine ite_k ?_ ?_
  · refine State.setInput_keeps K (sub rfl hA) ?_
    assumption
  · refine partBegins_keeps K (sub rfl hA) ?_
    assumption

theorem calEvent_keeps (K : Keeps P A) (hA : Sub 2684354561 A) {code sev k part check value s} (h_s : P s) :
    P (calEvent code sev k part check value s) := by
  unfold calEvent
  refine raiseEv_keeps K (sub rfl hA) ?_
  · assumption

theorem startupFollow_keeps (K : Keeps P A) (hA : Sub 4194304 A) {s} (h_s : P s) :
    P (startupFollow s) := by
  unfold startupFollow
  refine ite_k ?_ ?_
  · assumption
  · refine setB_k K 22 part_calStatusStartupOk (sub rfl hA) ?_
    assumption

theorem runEnds_keeps (K : Keeps P A) (hA : Sub 288230653718168129 A) {k r s} (h_s : P s) :
    P (runEnds k r s) := by
  unfold runEnds
  extract_lets +onlyGivenNames -merge -underBinder full1 src2 src3 s4 s5 s6 s7
  try clear_value full1
  try clear_value src2
  try clear_value src3
  have hs4 : P s4 := by
    refine ite_k ?_ ?_
    · refine setB_k K 9 part_ptsStatusRecalDue (sub rfl hA) ?_
      refine State.setLane_keeps K (sub rfl hA) ?_
      · assumption
    · refine ite_k ?_ ?_
      · refine State.setLane_keeps K (sub rfl hA) ?_
        · assumption
      · assumption
  try clear_value s4
  have hs5 : P s5 := by
    refine ite_k ?_ ?_
    · refine setB_k K 6 part_emStatusCalOk (sub rfl hA) ?_
      assumption
    · assumption
  try clear_value s5
  have hs6 : P s6 := by
    refine ite_k ?_ ?_
    · refine putRun_keeps K (sub rfl hA) ?_
      · assumption
    · refine dropRun_keeps K (sub rfl hA) ?_
      · assumption
  try clear_value s6
  have hs7 : P s7 := by
    refine ite_k ?_ ?_
    · refine startupFollow_keeps K (sub rfl hA) ?_
      · assumption
    · assumption
  try clear_value s7
  refine ite_k ?_ ?_
  · refine stampStatus_keeps K (sub rfl hA) ?_
    · assumption
  · assumption

theorem execCalPartDone_keeps (K : Keeps P A) (hA : Sub 288231203742417473 A) {target m later s} (h_s : P s) :
    Nx P (execCalPartDone target m later s) := by
  unfold execCalPartDone
  split
  · refine next_k ?_
    assumption
  · split
    · refine next_k ?_
      assumption
    · extract_lets +onlyGivenNames -merge -underBinder c1
      try clear_value c1
      refine iteN_k ?_ ?_
      · refine next_k ?_
        assumption
      · split
        · extract_lets +onlyGivenNames -merge -underBinder v2 s3 s4
          have hv2 : P v2.2 := by
            try unfold v2
            split
            · refine mk2_k ?_
              assumption
            · refine mk2_k ?_
              refine State.draw_keeps K (sub rfl hA) ?_
              · assumption
          try clear_value v2
          have hs3 : P s3 := by
            refine addSat_k K 22 part_calStatusRejects (sub rfl hA) ?_
            assumption
          try clear_value s3
          have hs4 : P s4 := by
            refine calEvent_keeps K (sub rfl hA) ?_
            · assumption
          try clear_value s4
          refine next_k ?_
          refine runEnds_keeps K (sub rfl hA) ?_
          · assumption
        · extract_lets +onlyGivenNames -merge -underBinder xa5 c6 c7 s8
          try clear_value xa5
          try clear_value c6
          try clear_value c7
          have hs8 : P s8 := by
            refine State.setCalRec_keeps K (sub rfl hA) ?_
            · assumption
          try clear_value s8
          refine next_k ?_
          refine upd_freeCount_cal K (sub rfl hA) ?_
          assumption

theorem execCalAccept_keeps (K : Keeps P A) (hA : Sub 5080033913957445501 A) {target s} (h_s : P s) :
    Nx P (execCalAccept target s) := by
  unfold execCalAccept
  extract_lets +onlyGivenNames -merge -underBinder c1
  try clear_value c1
  split
  · refine iteN_k ?_ ?_
    · refine next_k ?_
      assumption
    · extract_lets +onlyGivenNames -merge -underBinder part2 s3 s4 r5 rest6 s7 s8 s9 s10 r11
      try clear_value part2
      have hs3 : P s3 := by
        refine State.setCalRec_keeps K (sub rfl hA) ?_
        assumption
      try clear_value s3
      try clear_value s4
      have hr5 : P r5 := by
        refine upd_cal K (sub rfl hA) ?_
        assumption
      try clear_value r5
      try clear_value rest6
      try clear_value s7
      have hs8 : P s8 := by
        refine ite_k ?_ ?_
        · assumption
        · refine setB_k K 22 part_recAddr (sub rfl hA) ?_
          assumption
      try clear_value s8
      have hs9 : P s9 := by
        refine showRecTemp_keeps K (sub rfl hA) ?_
        refine setF_k K 22 part_recAddr (sub rfl hA) ?_
        assumption
      try clear_value s9
      have hs10 : P s10 := by
        refine ite_k ?_ ?_
        · refine showConstants_keeps K (sub rfl hA) ?_
          assumption
        · assumption
      try clear_value s10
      have hr11 : P r11 := by
        refine calEvent_keeps K (sub rfl hA) ?_
        assumption
      try clear_value r11
      extract_lets +onlyGivenNames -merge -underBinder r12
      try clear_value r12
      refine next_k ?_
      refine ite_k ?_ ?_
      · refine runEnds_keeps K (sub rfl hA) ?_
        assumption
      · extract_lets +onlyGivenNames -merge -underBinder s13
        have hs13 : P s13 := by
          refine partBegins_keeps K (sub rfl hA) ?_
          refine putRun_keeps K (sub rfl hA) ?_
          assumption
        try clear_value s13
        refine ite_k ?_ ?_
        · refine stampStatus_keeps K (sub rfl hA) ?_
          assumption
        · assumption
  · refine next_k ?_
    assumption

theorem calStartup_keeps (K : Keeps P A) (hA : Sub 5080050956387675965 A) {s} (h_s : P s) :
    P (calStartup s) := by
  unfold calStartup
  extract_lets +onlyGivenNames -merge -underBinder s1 s2
  try clear_value s1
  have hs2 : P s2 := by
    refine foldl_k ?_ (fun s0 k0 hs0 => ?_)
    · refine upd_cal K (sub rfl hA) ?_
      assumption
    · refine startRun_keeps K (sub rfl hA) ?_
      assumption
  try clear_value s2
  extract_lets +onlyGivenNames -merge -underBinder s3
  have hs3 : P s3 := by
    refine foldl_k ?_ (fun s0 k0 hs0 => ?_)
    · assumption
    · refine startRun_keeps K (sub rfl hA) ?_
      assumption
  try clear_value s3
  refine foldl_k ?_ (fun s0 k0 hs0 => ?_)
  · assumption
  · refine startRun_keeps K (sub rfl hA) ?_
    assumption

theorem execDeviceCalAuto_keeps (K : Keeps P A) (hA : Sub 5080050956387675965 A) {temp s} (h_s : P s) :
    Nx P (execDeviceCalAuto temp s) := by
  unfold execDeviceCalAuto
  refine iteN_k ?_ ?_
  · refine next_k ?_
    assumption
  · extract_lets +onlyGivenNames -merge -underBinder s1
    try clear_value s1
    extract_lets +onlyGivenNames -merge -underBinder s2
    have hs2 : P s2 := by
      refine upd_cal K (sub rfl hA) ?_
      assumption
    try clear_value s2
    refine next_k ?_
    refine foldl_k ?_ (fun s0 k0 hs0 => ?_)
    · assumption
    · refine startRun_keeps K (sub rfl hA) ?_
      assumption

theorem calReload_keeps (K : Keeps P A) (hA : Sub 288230376151711744 A) {s} (h_s : P s) :
    P (calReload s) := by
  unfold calReload
  refine upd_cal K (sub rfl hA) ?_
  assumption

theorem calStep_keeps (K : Keeps P A) (hA : Sub 5080050956387675965 A) {o s} (h_s : P s) :
    P (calStep o s).1 := by
  unfold calStep
  extract_lets +onlyGivenNames -merge -underBinder k1
  try clear_value k1
  split
  · refine ite1_k ?_ ?_
    · refine mk1_k ?_
      assumption
    · extract_lets +onlyGivenNames -merge -underBinder ps2
      try clear_value ps2
      refine mk1_k ?_
      refine startRun_keeps K (sub rfl hA) ?_
      assumption
  · split
    · refine mk1_k ?_
      assumption
    · refine ite1_k ?_ ?_
      · refine mk1_k ?_
        assumption
      · extract_lets +onlyGivenNames -merge -underBinder s3 st4
        have hs3 : P s3 := by
          refine dropRun_keeps K (sub rfl hA) ?_
          assumption
        try clear_value s3
        try clear_value st4
        refine mk1_k ?_
        assumption

theorem calCancel_keeps (K : Keeps P A) (hA : Sub 288230378840261121 A) {o s} (h_s : P s) :
    P (calCancel o s).1 := by
  unfold calCancel
  extract_lets +onlyGivenNames -merge -underBinder k1
  try clear_value k1
  split
  · refine mk1_k ?_
    assumption
  · extract_lets +onlyGivenNames -merge -underBinder s2 s3
    have hs2 : P s2 := by
      refine dropRun_keeps K (sub rfl hA) ?_
      · assumption
    try clear_value s2
    have hs3 : P s3 := by
      refine ite_k ?_ ?_
      · refine stampStatus_keeps K (sub rfl hA) ?_
        · assumption
      · assumption
    try clear_value s3
    refine mk1_k ?_
    assumption

theorem execCalLane_keeps (K : Keeps P A) (hA : Sub 5080050956387675965 A) {c s} (h_s : P s) :
    Nx P (execCalLane c s) := by
  unfold execCalLane
  refine runStepped_keeps K (sub rfl hA) ?_ ?_
  · intro _ _ hh
    refine calStep_keeps K (sub rfl hA) ?_
    assumption
  · assumption

theorem execCalEvtin_keeps (K : Keeps P A) (hA : Sub 5080050956387675965 A) {c s} (h_s : P s) :
    Nx P (execCalEvtin c s) := by
  unfold execCalEvtin
  refine runStepped_keeps K (sub rfl hA) ?_ ?_
  · intro _ _ hh
    refine calStep_keeps K (sub rfl hA) ?_
    assumption
  · assumption

theorem calOutStep_keeps (K : Keeps P A) (hA : Sub 5080050956387675965 A) {o s} (h_s : P s) :
    P (calOutStep o s).1 := by
  unfold calOutStep
  split
  · extract_lets +onlyGivenNames -merge -underBinder outs1
    try clear_value outs1
    refine mk1_k ?_
    refine startRun_keeps K (sub rfl hA) ?_
    assumption
  · split
    · refine mk1_k ?_
      assumption
    · refine ite1_k ?_ ?_
      · refine mk1_k ?_
        assumption
      · extract_lets +onlyGivenNames -merge -underBinder s2 b3 v4
        have hs2 : P s2 := by
          refine dropRun_keeps K (sub rfl hA) ?_
          assumption
        try clear_value s2
        try clear_value b3
        try clear_value v4
        split
        · refine mk1_k ?_
          refine startRun_keeps K (sub rfl hA) ?_
          assumption
        · extract_lets +onlyGivenNames -merge -underBinder d5
          try clear_value d5
          refine mk1_k ?_
          assumption

theorem calOutCancel_keeps (K : Keeps P A) (hA : Sub 288230376155906048 A) {o s} (h_s : P s) :
    P (calOutCancel o s).1 := by
  unfold calOutCancel
  refine mk1_k ?_
  refine dropRun_keeps K (sub rfl hA) ?_
  · assumption

theorem execCalOutput_keeps (K : Keeps P A) (hA : Sub 5080050956387675965 A) {c s} (h_s : P s) :
    Nx P (execCalOutput c s) := by
  unfold execCalOutput
  refine runStepped_keeps K (sub rfl hA) ?_ ?_
  · intro _ _ hh
    refine calOutStep_keeps K (sub rfl hA) ?_
    assumption
  · assumption

theorem calReadRecordEffect_keeps (K : Keeps P A) (hA : Sub 0 A) {c s} (h_s : P s) :
    P (calReadRecordEffect c s).1 := by
  unfold calReadRecordEffect
  extract_lets +onlyGivenNames -merge -underBinder b1
  try clear_value b1
  refine mk1_k ?_
  assumption

theorem execCalReadRecord_keeps (K : Keeps P A) (hA : Sub 4620693225333587972 A) {c s} (h_s : P s) :
    Nx P (execCalReadRecord c s) := by
  unfold execCalReadRecord
  refine runCmd_keeps K (sub rfl hA) ?_ ?_
  · intro _ _ hh
    refine calReadRecordEffect_keeps K (sub rfl hA) ?_
    assumption
  · assumption

theorem laneWoken_keeps (K : Keeps P A) (hA : Sub 5080050956387675965 A) {n temp s} (h_s : P s) :
    P (laneWoken n temp s) := by
  unfold laneWoken
  extract_lets +onlyGivenNames -merge -underBinder c1 rate2
  try clear_value c1
  try clear_value rate2
  refine ite_k ?_ ?_
  · refine startRun_keeps K (sub rfl hA) ?_
    refine State.setLane_keeps K (sub rfl hA) ?_
    assumption
  · assumption

theorem inputWoken_keeps (K : Keeps P A) (hA : Sub 5080050956387676029 A) {e s} (h_s : P s) :
    P (inputWoken e s) := by
  unfold inputWoken
  refine startRun_keeps K (sub rfl hA) ?_
  refine setB_k K 6 part_emStatusCalOk (sub rfl hA) ?_
  refine setB_k K 6 part_emStatusAwake (sub rfl hA) ?_
  assumption

theorem islandServes_keeps (K : Keeps P A) (hA : Sub 5080059761070632957 A) {k s} (h_s : P s) :
    P (islandServes k s) := by
  unfold islandServes
  split
  · assumption
  · extract_lets +onlyGivenNames -merge -underBinder c1
    try clear_value c1
    refine ite_k ?_ ?_
    · refine resumeHeld_keeps K (sub rfl hA) ?_
      refine twOn_keeps K (sub rfl hA) ?_
      assumption
    · extract_lets +onlyGivenNames -merge -underBinder r2
      have hr2 : P r2.1 := by
        refine ite1_k ?_ ?_
        · refine gnEnableDo_keeps K (sub rfl hA) ?_
          assumption
        · refine ite1_k ?_ ?_
          · refine emInputConfigDo_keeps K (sub rfl hA) ?_
            assumption
          · refine ite1_k ?_ ?_
            · refine sdsPrbsDo_keeps K (sub rfl hA) ?_
              assumption
            · refine swPortForwardDo_keeps K (sub rfl hA) ?_
              assumption
      try clear_value r2
      refine ite_k ?_ ?_
      · refine resumeHeld_keeps K (sub rfl hA) ?_
        refine ite_k ?_ ?_
        · refine inputWoken_keeps K (sub rfl hA) ?_
          assumption
        · assumption
      · assumption

theorem execPortIslandWakeDone_keeps (K : Keeps P A) (hA : Sub 5080059761070632957 A) {island temp s} (h_s : P s) :
    Nx P (execPortIslandWakeDone island temp s) := by
  unfold execPortIslandWakeDone
  refine iteN_k ?_ ?_
  · refine next_k ?_
    assumption
  · extract_lets +onlyGivenNames -merge -underBinder s1 s2
    have hs1 : P s1 := by
      refine upd_islands K (sub rfl hA) ?_
      assumption
    try clear_value s1
    have hs2 : P s2 := by
      refine ite_k ?_ ?_
      · refine laneWoken_keeps K (sub rfl hA) ?_
        assumption
      · refine ite_k ?_ ?_
        · refine foldl_k ?_ (fun s0 k0 hs0 => ?_)
          · assumption
          · refine laneWoken_keeps K (sub rfl hA) ?_
            assumption
        · assumption
    try clear_value s2
    refine next_k ?_
    refine ite_k ?_ ?_
    · assumption
    · refine islandServes_keeps K (sub rfl hA) ?_
      assumption

end Sys2Proof.Machine
end

