-- ==== Sys2Proof/Laws/KeepMemoryProtection.lean ====
section
/-! SUPPORT. What the operations of Sys2Proof/Machine/MemoryProtection.lean keep (Sys2Proof/Laws/Keeps.lean): the mask in each lemma names the parts
of the state that the operation can touch. -/

set_option Elab.async false

namespace Sys2Proof.Machine

variable {P : State → Prop} {A : Nat}

theorem showScrub_keeps (K : Keeps P A) (hA : Sub 524288 A) {on m s} (h_s : P s) :
    P (showScrub on m s) := by
  unfold showScrub
  refine setF_k K 19 part_mpStatusScrubMem (sub rfl hA) ?_
  refine setB_k K 19 part_mpStatusScrub (sub rfl hA) ?_
  assumption

theorem scrubRead_keeps (K : Keeps P A) (hA : Sub 145208127062286337 A) {m a b s} (h_s : P s) :
    P (scrubRead m a b s).2 := by
  unfold scrubRead
  extract_lets +onlyGivenNames -merge -underBinder x1 s2
  try clear_value x1
  have hs2 : P s2 := by
    refine State.setMemSum_keeps K (sub rfl hA) ?_
    · assumption
  try clear_value s2
  refine foldl_g (Q := fun r : _ × State => P r.2) ?_ (fun s0 k0 hs0 => ?_)
  · refine mk2_k ?_
    assumption
  · extract_lets +onlyGivenNames -merge -underBinder k3
    have hk3 : P k3.2 := by
      refine mpRead_keeps K (sub rfl hA) ?_
      · assumption
    try clear_value k3
    refine mk2_k ?_
    assumption

theorem scrubFinished_keeps (K : Keeps P A) (hA : Sub 144115188075855872 A) {c m s} (h_s : P s) :
    P (scrubFinished c m s) := by
  unfold scrubFinished
  extract_lets +onlyGivenNames -merge -underBinder all1 skip2 x3
  try clear_value all1
  try clear_value skip2
  try clear_value x3
  refine State.setMemSum_keeps K (sub rfl hA) ?_
  · assumption

theorem scrubStep_keeps (K : Keeps P A) (hA : Sub 145208127062286337 A) {amount o s} (h_s : P s) :
    P (scrubStep amount o s).1 := by
  unfold scrubStep
  extract_lets +onlyGivenNames -merge -underBinder c1
  try clear_value c1
  refine ite1_k ?_ ?_
  · extract_lets +onlyGivenNames -merge -underBinder ms2 s3 src4 s5
    try clear_value ms2
    have hs3 : P s3 := by
      refine ite_k ?_ ?_
      · assumption
      · refine setF_k K 19 part_mpPeriodPeriodS (sub rfl hA) ?_
        assumption
    try clear_value s3
    try clear_value src4
    have hs5 : P s5 := by
      refine upd_mp K (sub rfl hA) ?_
      assumption
    try clear_value s5
    refine mk1_k ?_
    refine showScrub_keeps K (sub rfl hA) ?_
    · assumption
  · split
    · refine mk1_k ?_
      assumption
    · extract_lets +onlyGivenNames -merge -underBinder a6 e7 b8 r9 s10 v11
      try clear_value a6
      try clear_value e7
      try clear_value b8
      have hr9 : P r9.2 := by
        refine scrubRead_keeps K (sub rfl hA) ?_
        · assumption
      try clear_value r9
      have hs10 : P s10 := by
        assumption
      try clear_value s10
      try clear_value v11
      refine ite1_k ?_ ?_
      · refine mk1_k ?_
        assumption
      · extract_lets +onlyGivenNames -merge -underBinder s12
        have hs12 : P s12 := by
          refine scrubFinished_keeps K (sub rfl hA) ?_
          · assumption
        try clear_value s12
        split
        · refine mk1_k ?_
          refine showScrub_keeps K (sub rfl hA) ?_
          · assumption
        · extract_lets +onlyGivenNames -merge -underBinder s13
          have hs13 : P s13 := by
            refine raiseEv_keeps K (sub rfl hA) ?_
            · refine showScrub_keeps K (sub rfl hA) ?_
              · assumption
          try clear_value s13
          refine mk1_k ?_
          assumption

theorem scrubCancel_keeps (K : Keeps P A) (hA : Sub 524288 A) {o s} (h_s : P s) :
    P (scrubCancel o s).1 := by
  unfold scrubCancel
  refine mk1_k ?_
  refine showScrub_keeps K (sub rfl hA) ?_
  · assumption

theorem execMpScrub_keeps (K : Keeps P A) (hA : Sub 4765901345953423365 A) {c s} (h_s : P s) :
    Nx P (execMpScrub c s) := by
  unfold execMpScrub
  refine runStepped_keeps K (sub rfl hA) ?_ ?_
  · intro _ _ hh
    refine scrubStep_keeps K (sub rfl hA) ?_
    assumption
  · assumption

theorem mpScrubSummaryEffect_keeps (K : Keeps P A) (hA : Sub 0 A) {x s} (h_s : P s) :
    P (mpScrubSummaryEffect x s).1 := by
  unfold mpScrubSummaryEffect
  extract_lets +onlyGivenNames -merge -underBinder total1
  try clear_value total1
  refine mk1_k ?_
  assumption

theorem execMpScrubSummary_keeps (K : Keeps P A) (hA : Sub 4620693225333587972 A) {c s} (h_s : P s) :
    Nx P (execMpScrubSummary c s) := by
  unfold execMpScrubSummary
  refine runCmd_keeps K (sub rfl hA) ?_ ?_
  · intro _ _ hh
    refine mpScrubSummaryEffect_keeps K (sub rfl hA) ?_
    assumption
  · assumption

theorem showSticky_keeps (K : Keeps P A) (hA : Sub 524288 A) {s} (h_s : P s) :
    P (showSticky s) := by
  unfold showSticky
  refine setF_k K 19 part_mpStatusSticky (sub rfl hA) ?_
  assumption

theorem mpInjectEffect_keeps (K : Keeps P A) (hA : Sub 144115188076380160 A) {c s} (h_s : P s) :
    P (mpInjectEffect c s).1 := by
  unfold mpInjectEffect
  extract_lets +onlyGivenNames -merge -underBinder w1
  try clear_value w1
  refine ite1_k ?_ ?_
  · refine mk1_k ?_
    refine showSticky_keeps K (sub rfl hA) ?_
    · refine upd_mp K (sub rfl hA) ?_
      assumption
  · extract_lets +onlyGivenNames -merge -underBinder x2 src3 s4 src5 s6
    try clear_value x2
    try clear_value src3
    have hs4 : P s4 := by
      refine upd_mp K (sub rfl hA) ?_
      assumption
    try clear_value s4
    try clear_value src5
    have hs6 : P s6 := by
      refine ite_k ?_ ?_
      · refine upd_mp K (sub rfl hA) ?_
        assumption
      · assumption
    try clear_value s6
    refine mk1_k ?_
    refine showSticky_keeps K (sub rfl hA) ?_
    · assumption

theorem execMpInject_keeps (K : Keeps P A) (hA : Sub 4764808413409968132 A) {c s} (h_s : P s) :
    Nx P (execMpInject c s) := by
  unfold execMpInject
  refine runCmd_keeps K (sub rfl hA) ?_ ?_
  · intro _ _ hh
    refine mpInjectEffect_keeps K (sub rfl hA) ?_
    assumption
  · assumption

theorem locRelease_keeps (K : Keeps P A) (hA : Sub 144255928249098241 A) {kind n s} (h_s : P s) :
    P (locRelease kind n s).2 := by
  unfold locRelease
  refine ite2_k ?_ ?_
  · refine mk2_k ?_
    assumption
  · extract_lets +onlyGivenNames -merge -underBinder ok1 s2
    try clear_value ok1
    have hs2 : P s2 := by
      refine foldl_k ?_ (fun s0 k0 hs0 => ?_)
      · assumption
      · refine mpWrite_keeps K (sub rfl hA) ?_
        · assumption
    try clear_value s2
    refine ite2_k ?_ ?_
    · extract_lets +onlyGivenNames -merge -underBinder keep3 src4 m5 m6
      try clear_value keep3
      try clear_value src4
      try clear_value m5
      try clear_value m6
      refine mk2_k ?_
      refine syncPool_keeps K (sub rfl hA) ?_
      · refine showQuar_keeps K (sub rfl hA) ?_
        · refine upd_mp K (sub rfl hA) ?_
          assumption
    · refine mk2_k ?_
      assumption

theorem mpReleaseEffect_keeps (K : Keeps P A) (hA : Sub 144255928249098241 A) {c s} (h_s : P s) :
    P (mpReleaseEffect c s).1 := by
  unfold mpReleaseEffect
  extract_lets +onlyGivenNames -merge -underBinder kind1 counts2
  try clear_value kind1
  try clear_value counts2
  refine ite1_k ?_ ?_
  · extract_lets +onlyGivenNames -merge -underBinder r3
    have hr3 : P r3.2 := by
      refine foldl_g (Q := fun r : _ × State => P r.2) ?_ (fun s0 k0 hs0 => ?_)
      · refine mk2_k ?_
        assumption
      · extract_lets +onlyGivenNames -merge -underBinder x4
        have hx4 : P x4.2 := by
          refine locRelease_keeps K (sub rfl hA) ?_
          · assumption
        try clear_value x4
        refine mk2_k ?_
        assumption
    try clear_value r3
    refine mk1_k ?_
    assumption
  · extract_lets +onlyGivenNames -merge -underBinder x5
    have hx5 : P x5.2 := by
      refine locRelease_keeps K (sub rfl hA) ?_
      · assumption
    try clear_value x5
    refine mk1_k ?_
    assumption

theorem execMpReleaseQuarantine_keeps (K : Keeps P A) (hA : Sub 4764949151435202565 A) {c s} (h_s : P s) :
    Nx P (execMpReleaseQuarantine c s) := by
  unfold execMpReleaseQuarantine
  refine runCmd_keeps K (sub rfl hA) ?_ ?_
  · intro _ _ hh
    refine mpReleaseEffect_keeps K (sub rfl hA) ?_
    assumption
  · assumption

theorem execCorrWriteback_keeps (K : Keeps P A) (hA : Sub 144115190760734721 A) {mem addr s} (h_s : P s) :
    Nx P (execCorrWriteback mem addr s) := by
  unfold execCorrWriteback
  extract_lets +onlyGivenNames -merge -underBinder w1
  try clear_value w1
  refine iteN_k ?_ ?_
  · extract_lets +onlyGivenNames -merge -underBinder src2 s3 s4 x5
    try clear_value src2
    have hs3 : P s3 := by
      refine upd_mp K (sub rfl hA) ?_
      assumption
    try clear_value s3
    have hs4 : P s4 := by
      refine setTracker_keeps K (sub rfl hA) ?_
      · assumption
    try clear_value s4
    try clear_value x5
    refine next_k ?_
    refine mpEvent_keeps K (sub rfl hA) ?_
    · refine State.setMemSum_keeps K (sub rfl hA) ?_
      · assumption
  · refine next_k ?_
    assumption

theorem execTrackerExpiry_keeps (K : Keeps P A) (hA : Sub 144115188076380160 A) {mem addr s} (h_s : P s) :
    Nx P (execTrackerExpiry mem addr s) := by
  unfold execTrackerExpiry
  refine next_k ?_
  refine setTracker_keeps K (sub rfl hA) ?_
  · assumption

theorem execMergeBufferFlush_keeps (K : Keeps P A) (hA : Sub 145208126793850881 A) {mem addr s} (h_s : P s) :
    Nx P (execMergeBufferFlush mem addr s) := by
  unfold execMergeBufferFlush
  split
  · refine next_k ?_
    refine ite_k ?_ ?_
    · refine mergeFlush_keeps K (sub rfl hA) ?_
      · assumption
    · assumption
  · refine next_k ?_
    assumption

end Sys2Proof.Machine
end

