-- ==== Sys2Proof/Laws/KeepFirmware.lean ====
section
/-! SUPPORT. What the operations of Sys2Proof/Machine/Firmware.lean keep (Sys2Proof/Laws/Keeps.lean): the mask in each lemma names the parts
of the state that the operation can touch. -/

set_option Elab.async false

namespace Sys2Proof.Machine

variable {P : State → Prop} {A : Nat}

theorem flashWrite_keeps (K : Keeps P A) (hA : Sub 576460752303423488 A) {a bs s} (h_s : P s) :
    P (flashWrite a bs s) := by
  unfold flashWrite
  refine upd_fw K (sub rfl hA) ?_
  assumption

theorem flashErase_keeps (K : Keeps P A) (hA : Sub 576460752303423488 A) {lo hi a b s} (h_s : P s) :
    P (flashErase lo hi a b s) := by
  unfold flashErase
  extract_lets +onlyGivenNames -merge -underBinder x1 y2
  try clear_value x1
  try clear_value y2
  refine upd_fw K (sub rfl hA) ?_
  assumption

theorem showSlot_keeps (K : Keeps P A) (hA : Sub 8388608 A) {n s} (h_s : P s) :
    P (showSlot n s) := by
  unfold showSlot
  extract_lets +onlyGivenNames -merge -underBinder x1
  try clear_value x1
  refine setF_k K 23 part_fwSlotStKind (sub rfl hA) ?_
  refine setF_k K 23 part_fwSlotStFails (sub rfl hA) ?_
  refine setF_k K 23 part_fwSlotStState (sub rfl hA) ?_
  refine setF_k K 23 part_fwSlotVer (sub rfl hA) ?_
  assumption

theorem putSlot_keeps (K : Keeps P A) (hA : Sub 576460752311812096 A) {n x s} (h_s : P s) :
    P (putSlot n x s) := by
  unfold putSlot
  refine showSlot_keeps K (sub rfl hA) ?_
  · refine upd_fw K (sub rfl hA) ?_
    assumption

theorem slotState_keeps (K : Keeps P A) (hA : Sub 576460752311812096 A) {n st s} (h_s : P s) :
    P (slotState n st s) := by
  unfold slotState
  refine putSlot_keeps K (sub rfl hA) ?_
  · assumption

theorem setNext_keeps (K : Keeps P A) (hA : Sub 576460752311812096 A) {n s} (h_s : P s) :
    P (setNext n s) := by
  unfold setNext
  extract_lets +onlyGivenNames -merge -underBinder src1
  have hsrc1 : P src1 := by
    refine setF_k K 23 part_fwStateNext (sub rfl hA) ?_
    assumption
  try clear_value src1
  refine upd_fw K (sub rfl hA) ?_
  assumption

theorem slotChecked_keeps (K : Keeps P A) (hA : Sub 576460754996166657 A) {n f s} (h_s : P s) :
    P (slotChecked n f s) := by
  unfold slotChecked
  extract_lets +onlyGivenNames -merge -underBinder h1
  try clear_value h1
  refine ite_k ?_ ?_
  · refine putSlot_keeps K (sub rfl hA) ?_
    · assumption
  · extract_lets +onlyGivenNames -merge -underBinder src2 s3
    try clear_value src2
    have hs3 : P s3 := by
      refine slotState_keeps K (sub rfl hA) ?_
      · refine upd_fw K (sub rfl hA) ?_
        assumption
    try clear_value s3
    refine raiseEv_keeps K (sub rfl hA) ?_
    · assumption

theorem setPhase_keeps (K : Keeps P A) (hA : Sub 576460754996166657 A) {p cause held s} (h_s : P s) :
    P (setPhase p cause held s) := by
  unfold setPhase
  extract_lets +onlyGivenNames -merge -underBinder old1
  try clear_value old1
  refine ite_k ?_ ?_
  · assumption
  · extract_lets +onlyGivenNames -merge -underBinder src2 src3 s4
    have hsrc2 : P src2 := by
      refine setF_k K 23 part_fwStatePhase (sub rfl hA) ?_
      assumption
    try clear_value src2
    try clear_value src3
    have hs4 : P s4 := by
      refine upd_fw K (sub rfl hA) ?_
      assumption
    try clear_value s4
    refine raiseEv_keeps K (sub rfl hA) ?_
    · assumption

theorem beginTrial_keeps (K : Keeps P A) (hA : Sub 576460752311812096 A) {s} (h_s : P s) :
    P (beginTrial s) := by
  unfold beginTrial
  extract_lets +onlyGivenNames -merge -underBinder s1 src2
  have hs1 : P s1 := by
    refine setB_k K 23 part_fwHealthCore0Ok (sub rfl hA) ?_
    refine setB_k K 23 part_fwHealthCore1Ok (sub rfl hA) ?_
    refine setB_k K 23 part_fwHealthSeqOk (sub rfl hA) ?_
    refine setB_k K 23 part_fwHealthMemOk (sub rfl hA) ?_
    assumption
  try clear_value s1
  have hsrc2 : P src2 := by
    refine setF_k K 23 part_fwHealthTrialRem (sub rfl hA) ?_
    assumption
  try clear_value src2
  refine upd_fw K (sub rfl hA) ?_
  assumption

theorem endTrial_keeps (K : Keeps P A) (hA : Sub 576460752311812096 A) {s} (h_s : P s) :
    P (endTrial s) := by
  unfold endTrial
  extract_lets +onlyGivenNames -merge -underBinder src1
  have hsrc1 : P src1 := by
    refine setF_k K 23 part_fwHealthTrialRem (sub rfl hA) ?_
    assumption
  try clear_value src1
  refine upd_fw K (sub rfl hA) ?_
  assumption

theorem showTrial_keeps (K : Keeps P A) (hA : Sub 8388608 A) {s} (h_s : P s) :
    P (showTrial s) := by
  unfold showTrial
  refine ite_k ?_ ?_
  · refine setF_k K 23 part_fwHealthTrialRem (sub rfl hA) ?_
    assumption
  · assumption

theorem confirmTrial_keeps (K : Keeps P A) (hA : Sub 576460754996166657 A) {s} (h_s : P s) :
    P (confirmTrial s) := by
  unfold confirmTrial
  extract_lets +onlyGivenNames -merge -underBinder s1 s2
  have hs1 : P s1 := by
    refine setNext_keeps K (sub rfl hA) ?_
    · refine slotState_keeps K (sub rfl hA) ?_
      · assumption
  try clear_value s1
  have hs2 : P s2 := by
    refine ite_k ?_ ?_
    · refine slotState_keeps K (sub rfl hA) ?_
      · assumption
    · assumption
  try clear_value s2
  refine setPhase_keeps K (sub rfl hA) ?_
  · refine endTrial_keeps K (sub rfl hA) ?_
    · assumption

theorem fallbackEvent_keeps (K : Keeps P A) (hA : Sub 576460754996166657 A) {failed running row s} (h_s : P s) :
    P (fallbackEvent failed running row s) := by
  unfold fallbackEvent
  extract_lets +onlyGivenNames -merge -underBinder s1 src2 s3
  have hs1 : P s1 := by
    refine setNext_keeps K (sub rfl hA) ?_
    · refine slotState_keeps K (sub rfl hA) ?_
      · assumption
  try clear_value s1
  try clear_value src2
  have hs3 : P s3 := by
    refine upd_fw K (sub rfl hA) ?_
    assumption
  try clear_value s3
  refine raiseEv_keeps K (sub rfl hA) ?_
  · assumption

theorem leinnarStop_keeps (K : Keeps P A) (hA : Sub 720580338425790465 A) {s} (h_s : P s) :
    P (leinnarStop s) := by
  unfold leinnarStop
  extract_lets +onlyGivenNames -merge -underBinder s1
  have hs1 : P s1 := by
    refine setB_k K 0 part_hstStatusFwRun (sub rfl hA) ?_
    assumption
  try clear_value s1
  refine upd_dpll_mp_fw K (sub rfl hA) ?_
  assumption

theorem trialFails_keeps (K : Keeps P A) (hA : Sub 720580341118533633 A) {row s} (h_s : P s) :
    P (trialFails row s) := by
  unfold trialFails
  extract_lets +onlyGivenNames -merge -underBinder back1 s2 s3
  try clear_value back1
  have hs2 : P s2 := by
    refine fallbackEvent_keeps K (sub rfl hA) ?_
    · assumption
  try clear_value s2
  have hs3 : P s3 := by
    refine setPhase_keeps K (sub rfl hA) ?_
    · assumption
  try clear_value s3
  refine ite_k ?_ ?_
  · refine upd_fw K (sub rfl hA) ?_
    assumption
  · refine leinnarStop_keeps K (sub rfl hA) ?_
    · refine setPhase_keeps K (sub rfl hA) ?_
      · refine endTrial_keeps K (sub rfl hA) ?_
        · assumption

theorem execFwLoadDone_keeps (K : Keeps P A) (hA : Sub 576460755264602113 A) {s} (h_s : P s) :
    Nx P (execFwLoadDone s) := by
  unfold execFwLoadDone
  refine iteN_k ?_ ?_
  · refine next_k ?_
    assumption
  · refine iteN_k ?_ ?_
    · refine next_k ?_
      refine setPhase_keeps K (sub rfl hA) ?_
      · assumption
    · extract_lets +onlyGivenNames -merge -underBinder s1
      have hs1 : P s1 := by
        refine fallbackEvent_keeps K (sub rfl hA) ?_
        · refine State.draw_keeps K (sub rfl hA) ?_
          · assumption
      try clear_value s1
      refine next_k ?_
      refine setPhase_keeps K (sub rfl hA) ?_
      · assumption

theorem execFwFreeze_keeps (K : Keeps P A) (hA : Sub 722799177327452161 A) {s} (h_s : P s) :
    Nx P (execFwFreeze s) := by
  unfold execFwFreeze
  extract_lets +onlyGivenNames -merge -underBinder p1
  try clear_value p1
  refine iteN_k ?_ ?_
  · extract_lets +onlyGivenNames -merge -underBinder src2 src3 s4
    try clear_value src2
    try clear_value src3
    have hs4 : P s4 := by
      refine setPhase_keeps K (sub rfl hA) ?_
      · refine upd_dpll_fw K (sub rfl hA) ?_
        assumption
    try clear_value s4
    refine next_k ?_
    refine evdSend_keeps K (sub rfl hA) ?_
    · assumption
  · refine next_k ?_
    assumption

theorem steerResumes_keeps (K : Keeps P A) (hA : Sub 722799211678801977 A) {s} (h_s : P s) :
    P (steerResumes s) := by
  unfold steerResumes
  split
  · assumption
  · extract_lets +onlyGivenNames -merge -underBinder us1 s2
    try clear_value us1
    have hs2 : P s2 := by
      refine evdSend_keeps K (sub rfl hA) ?_
      assumption
    try clear_value s2
    refine evaluateAll_keeps K (sub rfl hA) ?_
    refine upd_dpll_fw K (sub rfl hA) ?_
    assumption

theorem serviceResumes_keeps (K : Keeps P A) (hA : Sub 288230380446679040 A) {s} (h_s : P s) :
    P (serviceResumes s) := by
  unfold serviceResumes
  refine calReload_keeps K (sub rfl hA) ?_
  · refine upd_mbx K (sub rfl hA) ?_
    assumption

theorem freezeFails_keeps (K : Keeps P A) (hA : Sub 1011029587838902329 A) {s} (h_s : P s) :
    P (freezeFails s) := by
  unfold freezeFails
  extract_lets +onlyGivenNames -merge -underBinder s1
  have hs1 : P s1 := by
    refine serviceResumes_keeps K (sub rfl hA) ?_
    refine steerResumes_keeps K (sub rfl hA) ?_
    assumption
  try clear_value s1
  refine ite_k ?_ ?_
  · refine leinnarStop_keeps K (sub rfl hA) ?_
    refine setPhase_keeps K (sub rfl hA) ?_
    refine endTrial_keeps K (sub rfl hA) ?_
    refine upd_fw K (sub rfl hA) ?_
    assumption
  · extract_lets +onlyGivenNames -merge -underBinder s2
    have hs2 : P s2 := by
      refine fallbackEvent_keeps K (sub rfl hA) ?_
      refine State.draw_keeps K (sub rfl hA) ?_
      assumption
    try clear_value s2
    refine setPhase_keeps K (sub rfl hA) ?_
    assumption

theorem execFwHandoverDone_keeps (K : Keeps P A) (hA : Sub 1011029587838902329 A) {s} (h_s : P s) :
    Nx P (execFwHandoverDone s) := by
  unfold execFwHandoverDone
  refine iteN_k ?_ ?_
  · refine next_k ?_
    assumption
  · extract_lets +onlyGivenNames -merge -underBinder dest1
    try clear_value dest1
    refine iteN_k ?_ ?_
    · refine next_k ?_
      refine freezeFails_keeps K (sub rfl hA) ?_
      assumption
    · extract_lets +onlyGivenNames -merge -underBinder s2 s3
      have hs2 : P s2 := by
        refine serviceResumes_keeps K (sub rfl hA) ?_
        refine steerResumes_keeps K (sub rfl hA) ?_
        assumption
      try clear_value s2
      have hs3 : P s3 := by
        refine setF_k K 23 part_fwStateRun (sub rfl hA) ?_
        assumption
      try clear_value s3
      refine iteN_k ?_ ?_
      · refine next_k ?_
        refine setPhase_keeps K (sub rfl hA) ?_
        refine endTrial_keeps K (sub rfl hA) ?_
        refine upd_fw K (sub rfl hA) ?_
        assumption
      · extract_lets +onlyGivenNames -merge -underBinder s4
        have hs4 : P s4 := by
          refine addSat_k K 23 part_fwStateHandovers (sub rfl hA) ?_
          refine slotState_keeps K (sub rfl hA) ?_
          assumption
        try clear_value s4
        refine next_k ?_
        refine beginTrial_keeps K (sub rfl hA) ?_
        refine setPhase_keeps K (sub rfl hA) ?_
        refine upd_fw K (sub rfl hA) ?_
        assumption

theorem execFwWaitTimeout_keeps (K : Keeps P A) (hA : Sub 576460754996166657 A) {s} (h_s : P s) :
    Nx P (execFwWaitTimeout s) := by
  unfold execFwWaitTimeout
  refine iteN_k ?_ ?_
  · refine next_k ?_
    refine setPhase_keeps K (sub rfl hA) ?_
    · assumption
  · refine next_k ?_
    assumption

theorem execFwFreezeTimeout_keeps (K : Keeps P A) (hA : Sub 1011029587838902329 A) {s} (h_s : P s) :
    Nx P (execFwFreezeTimeout s) := by
  unfold execFwFreezeTimeout
  refine iteN_k ?_ ?_
  · refine next_k ?_
    refine freezeFails_keeps K (sub rfl hA) ?_
    assumption
  · refine next_k ?_
    assumption

theorem execHeldSteerExpiry_keeps (K : Keeps P A) (hA : Sub 146338459375378489 A) {s} (h_s : P s) :
    Nx P (execHeldSteerExpiry s) := by
  unfold execHeldSteerExpiry
  split
  · refine next_k ?_
    assumption
  · refine iteN_k ?_ ?_
    · refine next_k ?_
      assumption
    · refine next_k ?_
      refine enterHoldover_keeps K (sub rfl hA) ?_
      · assumption

theorem execFwTrialExpiry_keeps (K : Keeps P A) (hA : Sub 720580341118533633 A) {s} (h_s : P s) :
    Nx P (execFwTrialExpiry s) := by
  unfold execFwTrialExpiry
  refine iteN_k ?_ ?_
  · refine next_k ?_
    assumption
  · refine iteN_k ?_ ?_
    · refine next_k ?_
      refine trialFails_keeps K (sub rfl hA) ?_
      · assumption
    · refine next_k ?_
      refine ite_k ?_ ?_
      · refine confirmTrial_keeps K (sub rfl hA) ?_
        · assumption
      · assumption

theorem execFwHealthFail_keeps (K : Keeps P A) (hA : Sub 720580341118533633 A) {n s} (h_s : P s) :
    Nx P (execFwHealthFail n s) := by
  unfold execFwHealthFail
  refine iteN_k ?_ ?_
  · refine next_k ?_
    assumption
  · refine next_k ?_
    refine trialFails_keeps K (sub rfl hA) ?_
    · refine setB_k K 23 (by first | rfl | decide) (sub rfl hA) ?_
      assumption

theorem startFails_keeps (K : Keeps P A) (hA : Sub 576460754996166657 A) {s} (h_s : P s) :
    P (startFails s) := by
  unfold startFails
  extract_lets +onlyGivenNames -merge -underBinder n1 x2 s3
  try clear_value n1
  try clear_value x2
  have hs3 : P s3 := by
    refine putSlot_keeps K (sub rfl hA) ?_
    · assumption
  try clear_value s3
  refine ite_k ?_ ?_
  · assumption
  · extract_lets +onlyGivenNames -merge -underBinder other4
    try clear_value other4
    refine ite_k ?_ ?_
    · refine fallbackEvent_keeps K (sub rfl hA) ?_
      · assumption
    · refine slotState_keeps K (sub rfl hA) ?_
      · refine upd_fw K (sub rfl hA) ?_
        assumption

theorem execWatchdogExpiry_keeps (K : Keeps P A) (hA : Sub 720580341118533633 A) {s} (h_s : P s) :
    Nx P (execWatchdogExpiry s) := by
  unfold execWatchdogExpiry
  refine iteN_k ?_ ?_
  · refine next_k ?_
    refine ite_k ?_ ?_
    · refine startFails_keeps K (sub rfl hA) ?_
      · assumption
    · assumption
  · refine iteN_k ?_ ?_
    · refine next_k ?_
      refine trialFails_keeps K (sub rfl hA) ?_
      · assumption
    · refine next_k ?_
      refine leinnarStop_keeps K (sub rfl hA) ?_
      · assumption

theorem writeEnds_keeps (K : Keeps P A) (hA : Sub 576460754996166657 A) {o s} (h_s : P s) :
    P (writeEnds o s).1 := by
  unfold writeEnds
  extract_lets +onlyGivenNames -merge -underBinder n1
  try clear_value n1
  refine ite1_k ?_ ?_
  · extract_lets +onlyGivenNames -merge -underBinder f2 s3
    try clear_value f2
    have hs3 : P s3 := by
      refine slotChecked_keeps K (sub rfl hA) ?_
      · assumption
    try clear_value s3
    refine mk1_k ?_
    assumption
  · refine mk1_k ?_
    assumption

theorem writeStep_keeps (K : Keeps P A) (hA : Sub 576460754996166657 A) {o s} (h_s : P s) :
    P (writeStep o s).1 := by
  unfold writeStep
  extract_lets +onlyGivenNames -merge -underBinder c1 n2 len3 a4
  try clear_value c1
  try clear_value n2
  try clear_value len3
  try clear_value a4
  refine ite1_k ?_ ?_
  · refine ite1_k ?_ ?_
    · refine writeEnds_keeps K (sub rfl hA) ?_
      · assumption
    · extract_lets +onlyGivenNames -merge -underBinder s5
      have hs5 : P s5 := by
        refine flashErase_keeps K (sub rfl hA) ?_
        · refine slotState_keeps K (sub rfl hA) ?_
          · assumption
      try clear_value s5
      refine mk1_k ?_
      assumption
  · extract_lets +onlyGivenNames -merge -underBinder d6 k7
    try clear_value d6
    try clear_value k7
    refine ite1_k ?_ ?_
    · refine mk1_k ?_
      assumption
    · extract_lets +onlyGivenNames -merge -underBinder s8
      have hs8 : P s8 := by
        refine flashWrite_keeps K (sub rfl hA) ?_
        · assumption
      try clear_value s8
      refine ite1_k ?_ ?_
      · refine mk1_k ?_
        assumption
      · refine writeEnds_keeps K (sub rfl hA) ?_
        · assumption

theorem execFwWriteSlot_keeps (K : Keeps P A) (hA : Sub 5341269166258651141 A) {c s} (h_s : P s) :
    Nx P (execFwWriteSlot c s) := by
  unfold execFwWriteSlot
  refine runStepped_keeps K (sub rfl hA) ?_ ?_
  · intro _ _ hh
    refine writeStep_keeps K (sub rfl hA) ?_
    assumption
  · assumption

theorem writeCancel_keeps (K : Keeps P A) (hA : Sub 0 A) {o s} (h_s : P s) :
    P (writeCancel o s).1 := by
  unfold writeCancel
  refine mk1_k ?_
  assumption

theorem moultStep_keeps (K : Keeps P A) (hA : Sub 576460754996166657 A) {o s} (h_s : P s) :
    P (moultStep o s).1 := by
  unfold moultStep
  extract_lets +onlyGivenNames -merge -underBinder n1
  try clear_value n1
  split
  · refine mk1_k ?_
    assumption
  · extract_lets +onlyGivenNames -merge -underBinder all2 len3
    try clear_value all2
    try clear_value len3
    refine ite1_k ?_ ?_
    · extract_lets +onlyGivenNames -merge -underBinder s4
      have hs4 : P s4 := by
        refine flashErase_keeps K (sub rfl hA) ?_
        · refine slotState_keeps K (sub rfl hA) ?_
          · assumption
      try clear_value s4
      refine mk1_k ?_
      assumption
    · extract_lets +onlyGivenNames -merge -underBinder d5 k6 s7
      try clear_value d5
      try clear_value k6
      have hs7 : P s7 := by
        refine flashWrite_keeps K (sub rfl hA) ?_
        · assumption
      try clear_value s7
      refine ite1_k ?_ ?_
      · refine mk1_k ?_
        assumption
      · extract_lets +onlyGivenNames -merge -underBinder f8 s9
        try clear_value f8
        have hs9 : P s9 := by
          refine slotChecked_keeps K (sub rfl hA) ?_
          · assumption
        try clear_value s9
        refine mk1_k ?_
        assumption

theorem execFwApplyMoult_keeps (K : Keeps P A) (hA : Sub 5341269166258651141 A) {c s} (h_s : P s) :
    Nx P (execFwApplyMoult c s) := by
  unfold execFwApplyMoult
  refine runStepped_keeps K (sub rfl hA) ?_ ?_
  · intro _ _ hh
    refine moultStep_keeps K (sub rfl hA) ?_
    assumption
  · assumption

theorem fwActivateEffect_keeps (K : Keeps P A) (hA : Sub 576460754996166657 A) {c s} (h_s : P s) :
    P (fwActivateEffect c s).1 := by
  unfold fwActivateEffect
  extract_lets +onlyGivenNames -merge -underBinder n1
  try clear_value n1
  refine ite1_k ?_ ?_
  · refine mk1_k ?_
    assumption
  · extract_lets +onlyGivenNames -merge -underBinder src2 s3
    try clear_value src2
    have hs3 : P s3 := by
      refine upd_fw K (sub rfl hA) ?_
      assumption
    try clear_value s3
    refine ite1_k ?_ ?_
    · refine mk1_k ?_
      refine setNext_keeps K (sub rfl hA) ?_
      · assumption
    · refine mk1_k ?_
      refine setPhase_keeps K (sub rfl hA) ?_
      · assumption

theorem execFwActivate_keeps (K : Keeps P A) (hA : Sub 5197153978182270981 A) {c s} (h_s : P s) :
    Nx P (execFwActivate c s) := by
  unfold execFwActivate
  refine runCmd_keeps K (sub rfl hA) ?_ ?_
  · intro _ _ hh
    refine fwActivateEffect_keeps K (sub rfl hA) ?_
    assumption
  · assumption

theorem fwConfirmEffect_keeps (K : Keeps P A) (hA : Sub 576460754996166657 A) {x s} (h_s : P s) :
    P (fwConfirmEffect x s).1 := by
  unfold fwConfirmEffect
  refine mk1_k ?_
  refine confirmTrial_keeps K (sub rfl hA) ?_
  · assumption

theorem execFwConfirm_keeps (K : Keeps P A) (hA : Sub 5197153978182270981 A) {c s} (h_s : P s) :
    Nx P (execFwConfirm c s) := by
  unfold execFwConfirm
  refine runCmd_keeps K (sub rfl hA) ?_ ?_
  · intro _ _ hh
    refine fwConfirmEffect_keeps K (sub rfl hA) ?_
    assumption
  · assumption

theorem fwStatusEffect_keeps (K : Keeps P A) (hA : Sub 0 A) {x s} (h_s : P s) :
    P (fwStatusEffect x s).1 := by
  unfold fwStatusEffect
  refine mk1_k ?_
  assumption

theorem execFwStatus_keeps (K : Keeps P A) (hA : Sub 4620693225333587972 A) {c s} (h_s : P s) :
    Nx P (execFwStatus c s) := by
  unfold execFwStatus
  refine runCmd_keeps K (sub rfl hA) ?_ ?_
  · intro _ _ hh
    refine fwStatusEffect_keeps K (sub rfl hA) ?_
    assumption
  · assumption

theorem evdRestart_keeps (K : Keeps P A) (hA : Sub 146334027103412225 A) {s} (h_s : P s) :
    P (evdRestart s) := by
  unfold evdRestart
  extract_lets +onlyGivenNames -merge -underBinder w1 src2 s3
  try clear_value w1
  try clear_value src2
  have hs3 : P s3 := by
    refine admitRecord_keeps K (sub rfl hA) ?_
    · refine evdSend_keeps K (sub rfl hA) ?_
      · refine upd_evd K (sub rfl hA) ?_
        assumption
  try clear_value s3
  refine upd_evd K (sub rfl hA) ?_
  assumption

theorem evdUpdateStep_keeps (K : Keeps P A) (hA : Sub 731801978669965313 A) {o s} (h_s : P s) :
    P (evdUpdateStep o s).1 := by
  unfold evdUpdateStep
  extract_lets +onlyGivenNames -merge -underBinder n1
  try clear_value n1
  refine ite1_k ?_ ?_
  · extract_lets +onlyGivenNames -merge -underBinder f2
    try clear_value f2
    refine ite1_k ?_ ?_
    · refine mk1_k ?_
      refine slotChecked_keeps K (sub rfl hA) ?_
      · assumption
    · refine ite1_k ?_ ?_
      · extract_lets +onlyGivenNames -merge -underBinder r3
        have hr3 : P r3.2 := by
          refine closeBlock_keeps K (sub rfl hA) ?_
          · assumption
        try clear_value r3
        refine mk1_k ?_
        refine evdRestart_keeps K (sub rfl hA) ?_
        · assumption
      · refine mk1_k ?_
        assumption
  · extract_lets +onlyGivenNames -merge -underBinder old4 s5 s6 lost7 v8 s9
    try clear_value old4
    have hs5 : P s5 := by
      refine ite_k ?_ ?_
      · refine slotState_keeps K (sub rfl hA) ?_
        · assumption
      · assumption
    try clear_value s5
    have hs6 : P s6 := by
      refine setF_k K 23 part_fwStateEvdSlot (sub rfl hA) ?_
      refine slotState_keeps K (sub rfl hA) ?_
      · assumption
    try clear_value s6
    try clear_value lost7
    try clear_value v8
    have hs9 : P s9 := by
      refine raiseEv_keeps K (sub rfl hA) ?_
      · assumption
    try clear_value s9
    refine mk1_k ?_
    assumption

theorem execFwUpdateEvd_keeps (K : Keeps P A) (hA : Sub 5343487998172143621 A) {c s} (h_s : P s) :
    Nx P (execFwUpdateEvd c s) := by
  unfold execFwUpdateEvd
  refine runStepped_keeps K (sub rfl hA) ?_ ?_
  · intro _ _ hh
    refine evdUpdateStep_keeps K (sub rfl hA) ?_
    assumption
  · assumption

end Sys2Proof.Machine
end

