-- ==== Sys2Proof/Laws/KeepSecurity.lean ====
section
/-! SUPPORT. What the operations of Sys2Proof/Machine/Security.lean keep (Sys2Proof/Laws/Keeps.lean): the mask in each lemma names the parts
of the state that the operation can touch. -/

set_option Elab.async false

namespace Sys2Proof.Machine

variable {P : State → Prop} {A : Nat}

theorem showSec_keeps (K : Keeps P A) (hA : Sub 2 A) {s} (h_s : P s) :
    P (showSec s) := by
  unfold showSec
  extract_lets +onlyGivenNames -merge -underBinder s1
  have hs1 : P s1 := by
    refine setF_k K 1 part_gdSecStatusPolicy (sub rfl hA) ?_
    refine setF_k K 1 part_gdSecStatusTamperCfg (sub rfl hA) ?_
    refine setB_k K 1 part_gdSecStatusAoLost (sub rfl hA) ?_
    assumption
  try clear_value s1
  refine setF_k K 1 part_gdSvnFloor (sub rfl hA) ?_
  refine setB_k K 1 part_gdSecStatusZeroised (sub rfl hA) ?_
  refine setB_k K 1 part_gdSecStatusOwnerLocked (sub rfl hA) ?_
  assumption

theorem showAo_keeps (K : Keeps P A) (hA : Sub 2097152 A) {s} (h_s : P s) :
    P (showAo s) := by
  unfold showAo
  extract_lets +onlyGivenNames -merge -underBinder a1 s2 s3 s4 s5
  try clear_value a1
  have hs2 : P s2 := by
    refine setB_k K 21 part_aoTamperFlag0 (sub rfl hA) ?_
    refine setB_k K 21 part_aoTamperFlag1 (sub rfl hA) ?_
    refine setF_k K 21 part_aoTamperCount0 (sub rfl hA) ?_
    refine setF_k K 21 part_aoTamperCount1 (sub rfl hA) ?_
    assumption
  try clear_value s2
  have hs3 : P s3 := by
    refine set64_k K 21 part_aoTamperTime_2 (sub rfl hA) ?_
    assumption
  try clear_value s3
  have hs4 : P s4 := by
    refine setB_k K 21 part_aoStatusAnchorValid (sub rfl hA) ?_
    refine setB_k K 21 part_aoStatusAoLost (sub rfl hA) ?_
    refine setF_k K 21 part_aoStatusCause (sub rfl hA) ?_
    assumption
  try clear_value s4
  have hs5 : P s5 := by
    refine set64_k K 21 part_aoTime_2 (sub rfl hA) ?_
    refine setB_k K 21 part_aoStatusXtalOk (sub rfl hA) ?_
    assumption
  try clear_value s5
  refine setF_k K 21 part_aoAnchorSeq (sub rfl hA) ?_
  refine set96_k K 21 (by first | rfl | decide) (sub rfl hA) ?_
  refine set64_k K 21 part_aoAnchorTick_2 (sub rfl hA) ?_
  assumption

theorem setOwner_keeps (K : Keeps P A) (hA : Sub 1152921504606846978 A) {o s} (h_s : P s) :
    P (setOwner o s) := by
  unfold setOwner
  refine showSec_keeps K (sub rfl hA) ?_
  · refine upd_sec K (sub rfl hA) ?_
    assumption

theorem drbg_keeps (K : Keeps P A) (hA : Sub 268435456 A) {a aa1} (h_aa1 : P aa1) :
    P (drbg a aa1).2 := by
  induction a generalizing aa1 with
  | zero =>
    rw [drbg]
    try (conv => zeta)
    refine mk2_k ?_
    assumption
  | succ k ih =>
    rw [drbg]
    try (conv => zeta)
    refine mk2_k ?_
    refine ih ?_
    refine State.draw_keeps K (sub rfl hA) ?_
    · assumption

theorem drbgRequest_keeps (K : Keeps P A) (hA : Sub 1152921504875282432 A) {n s} (h_s : P s) :
    P (drbgRequest n s).2 := by
  unfold drbgRequest
  refine drbg_keeps K (sub rfl hA) ?_
  · refine upd_sec K (sub rfl hA) ?_
    assumption

theorem execDrbgReseed_keeps (K : Keeps P A) (hA : Sub 1152921504606846976 A) {s} (h_s : P s) :
    Nx P (execDrbgReseed s) := by
  unfold execDrbgReseed
  refine iteN_k ?_ ?_
  · refine next_k ?_
    assumption
  · refine next_k ?_
    refine upd_sec K (sub rfl hA) ?_
    assumption

theorem openEpoch_keeps (K : Keeps P A) (hA : Sub 1125899906908160 A) {s} (h_s : P s) :
    P (openEpoch s) := by
  unfold openEpoch
  extract_lets +onlyGivenNames -merge -underBinder lost1 epoch2 reserve3 src4 s5 s6 s7 b8
  try clear_value lost1
  try clear_value epoch2
  try clear_value reserve3
  try clear_value src4
  have hs5 : P s5 := by
    refine upd_evd K (sub rfl hA) ?_
    assumption
  try clear_value s5
  have hs6 : P s6 := by
    refine set64_k K 16 part_evdBlock_2 (sub rfl hA) ?_
    refine set64_k K 16 part_evdEpoch_2 (sub rfl hA) ?_
    assumption
  try clear_value s6
  have hs7 : P s7 := by
    refine openBlock_keeps K (sub rfl hA) ?_
    · assumption
  try clear_value s7
  try clear_value b8
  refine upd_evd K (sub rfl hA) ?_
  assumption

theorem evdFails_keeps (K : Keeps P A) (hA : Sub 146334026969128963 A) {test s} (h_s : P s) :
    P (evdFails test s) := by
  unfold evdFails
  refine ite_k ?_ ?_
  · assumption
  · extract_lets +onlyGivenNames -merge -underBinder n1 s2
    try clear_value n1
    have hs2 : P s2 := by
      refine count_keeps K (sub rfl hA) ?_
      · refine setB_k K 1 part_gdSecStatusEvdError (sub rfl hA) ?_
        assumption
    try clear_value s2
    refine raiseEv_keeps K (sub rfl hA) ?_
    · refine upd_evd K (sub rfl hA) ?_
      assumption

theorem evdPasses_keeps (K : Keeps P A) (hA : Sub 1125902591262723 A) {s} (h_s : P s) :
    P (evdPasses s) := by
  unfold evdPasses
  extract_lets +onlyGivenNames -merge -underBinder s1
  have hs1 : P s1 := by
    refine raiseEv_keeps K (sub rfl hA) ?_
    · assumption
  try clear_value s1
  refine ite_k ?_ ?_
  · refine openEpoch_keeps K (sub rfl hA) ?_
    · refine setB_k K 1 part_gdSecStatusEvdError (sub rfl hA) ?_
      assumption
  · assumption

theorem execSelftestFailure_keeps (K : Keeps P A) (hA : Sub 146334026969128963 A) {test s} (h_s : P s) :
    Nx P (execSelftestFailure test s) := by
  unfold execSelftestFailure
  refine iteN_k ?_ ?_
  · refine next_k ?_
    refine evdFails_keeps K (sub rfl hA) ?_
    · assumption
  · refine next_k ?_
    assumption

theorem signAll_keeps (K : Keeps P A) (hA : Sub 146334027103412225 A) {a aa1} (h_aa1 : P aa1) :
    P (signAll a aa1) := by
  induction a generalizing aa1 with
  | zero =>
    rw [signAll]
    try (conv => zeta)
    assumption
  | succ k ih =>
    rw [signAll]
    try (conv => zeta)
    refine ite_k ?_ ?_
    · assumption
    · split
      · try
          rename_i hq
          have hd1 := keep_of (Q := fun r => Nx P r) hq (by
              refine execEvdBlockSigned_keeps K (sub rfl hA) ?_
              · assumption
              )
        try (have hd1x := hd1 _ rfl)
        refine ih ?_
        assumption
      · try
          rename_i hq
          have hd1 := keep_of (Q := fun r => Nx P r) hq (by
              refine execEvdBlockSigned_keeps K (sub rfl hA) ?_
              · assumption
              )
        try (have hd1x := hd1 _ rfl)
        assumption

theorem stopSelfTest_keeps (K : Keeps P A) (hA : Sub 4620693225333587974 A) {s} (h_s : P s) :
    P (stopSelfTest s) := by
  unfold stopSelfTest
  split
  · refine ite_k ?_ ?_
    · extract_lets +onlyGivenNames -merge -underBinder s1
      have hs1 : P s1 := by
        refine setB_k K 1 part_gdSecStatusSelftestRun (sub rfl hA) ?_
        assumption
      try clear_value s1
      extract_lets +onlyGivenNames -merge -underBinder s2
      try clear_value s2
      extract_lets +onlyGivenNames -merge -underBinder s3
      have hs3 : P s3 := by
        refine syncLong_keeps K (sub rfl hA) ?_
        refine upd_mbx K (sub rfl hA) ?_
        assumption
      try clear_value s3
      refine ite_k ?_ ?_
      · assumption
      · refine finish_keeps K (sub rfl hA) ?_
        assumption
    · assumption
  · assumption

theorem zeroise_keeps (K : Keeps P A) (hA : Sub 5919948750467178503 A) {cause s} (h_s : P s) :
    P (zeroise cause s).2 := by
  unfold zeroise
  extract_lets +onlyGivenNames -merge -underBinder s1 r2 s3 n4 s5 s6
  have hs1 : P s1 := by
    refine stopSelfTest_keeps K (sub rfl hA) ?_
    assumption
  try clear_value s1
  have hr2 : P r2.2 := by
    refine closeBlock_keeps K (sub rfl hA) ?_
    assumption
  try clear_value r2
  have hs3 : P s3.2 := by
    refine ite2_k ?_ ?_
    · refine mk2_k ?_
      refine signAll_keeps K (sub rfl hA) ?_
      assumption
    · refine mk2_k ?_
      assumption
  try clear_value s3
  have hn4 : P n4 := by
    assumption
  try clear_value n4
  try clear_value s5
  try clear_value s6
  extract_lets +onlyGivenNames -merge -underBinder s7 s8
  have hs7 : P s7 := by
    refine count_keeps K (sub rfl hA) ?_
    refine upd_evd K (sub rfl hA) ?_
    assumption
  try clear_value s7
  try clear_value s8
  extract_lets +onlyGivenNames -merge -underBinder s9
  have hs9 : P s9 := by
    refine showSec_keeps K (sub rfl hA) ?_
    refine upd_sec K (sub rfl hA) ?_
    assumption
  try clear_value s9
  refine mk2_k ?_
  refine raiseEv_keeps K (sub rfl hA) ?_
  assumption

theorem tamperActs_keeps (K : Keeps P A) (hA : Sub 5919948750467178503 A) {n s} (h_s : P s) :
    P (tamperActs n s) := by
  unfold tamperActs
  extract_lets +onlyGivenNames -merge -underBinder a1
  try clear_value a1
  refine ite_k ?_ ?_
  · assumption
  · extract_lets +onlyGivenNames -merge -underBinder s2
    have hs2 : P s2 := by
      refine raiseEv_keeps K (sub rfl hA) ?_
      assumption
    try clear_value s2
    refine ite_k ?_ ?_
    · refine zeroise_keeps K (sub rfl hA) ?_
      assumption
    · assumption

theorem execTamperActive_keeps (K : Keeps P A) (hA : Sub 8225791759682969607 A) {n tick s} (h_s : P s) :
    Nx P (execTamperActive n tick s) := by
  unfold execTamperActive
  refine iteN_k ?_ ?_
  · refine next_k ?_
    assumption
  · extract_lets +onlyGivenNames -merge -underBinder first1 a2 a3 s4
    try clear_value first1
    try clear_value a2
    try clear_value a3
    try clear_value s4
    extract_lets +onlyGivenNames -merge -underBinder s5
    have hs5 : P s5 := by
      refine showAo_keeps K (sub rfl hA) ?_
      refine upd_ao K (sub rfl hA) ?_
      assumption
    try clear_value s5
    refine next_k ?_
    refine ite_k ?_ ?_
    · assumption
    · refine ite_k ?_ ?_
      · refine upd_sec K (sub rfl hA) ?_
        assumption
      · refine tamperActs_keeps K (sub rfl hA) ?_
        assumption

theorem execSecVbatLow_keeps (K : Keeps P A) (hA : Sub 2684354563 A) {mv s} (h_s : P s) :
    Nx P (execSecVbatLow mv s) := by
  unfold execSecVbatLow
  refine iteN_k ?_ ?_
  · refine next_k ?_
    assumption
  · refine next_k ?_
    refine raiseEv_keeps K (sub rfl hA) ?_
    · refine setB_k K 1 part_gdSecStatusVbatLow (sub rfl hA) ?_
      assumption

theorem execAoContentsLost_keeps (K : Keeps P A) (hA : Sub 3458764513822638082 A) {s} (h_s : P s) :
    Nx P (execAoContentsLost s) := by
  unfold execAoContentsLost
  refine iteN_k ?_ ?_
  · refine next_k ?_
    assumption
  · refine next_k ?_
    refine showSec_keeps K (sub rfl hA) ?_
    · refine showAo_keeps K (sub rfl hA) ?_
      · refine upd_sec_ao K (sub rfl hA) ?_
        assumption

theorem execAoXtalStop_keeps (K : Keeps P A) (hA : Sub 2305843009215791104 A) {s} (h_s : P s) :
    Nx P (execAoXtalStop s) := by
  unfold execAoXtalStop
  refine next_k ?_
  refine showAo_keeps K (sub rfl hA) ?_
  · refine upd_ao K (sub rfl hA) ?_
    assumption

theorem execAoAnchorWrite_keeps (K : Keeps P A) (hA : Sub 2305843009215791104 A) {tick s} (h_s : P s) :
    Nx P (execAoAnchorWrite tick s) := by
  unfold execAoAnchorWrite
  extract_lets +onlyGivenNames -merge -underBinder q1 t2 ns3 near4
  try clear_value q1
  try clear_value t2
  try clear_value ns3
  try clear_value near4
  refine iteN_k ?_ ?_
  · refine next_k ?_
    assumption
  · refine next_k ?_
    refine showAo_keeps K (sub rfl hA) ?_
    · refine upd_ao K (sub rfl hA) ?_
      assumption

theorem clearTamper_keeps (K : Keeps P A) (hA : Sub 3458764513822638080 A) {s} (h_s : P s) :
    P (clearTamper s) := by
  unfold clearTamper
  refine showAo_keeps K (sub rfl hA) ?_
  · refine upd_sec_ao K (sub rfl hA) ?_
    assumption

theorem wakeEngine_keeps (K : Keeps P A) (hA : Sub 1125899906842624 A) {s} (h_s : P s) :
    P (wakeEngine s) := by
  unfold wakeEngine
  refine upd_evd K (sub rfl hA) ?_
  assumption

theorem secOwnerLockEffect_keeps (K : Keeps P A) (hA : Sub 3459890416413835267 A) {c s} (h_s : P s) :
    P (secOwnerLockEffect c s).1 := by
  unfold secOwnerLockEffect
  extract_lets +onlyGivenNames -merge -underBinder op1 isSet2 ok3 s4 s5 floor6 r7
  try clear_value op1
  try clear_value isSet2
  try clear_value ok3
  have hs4 : P s4 := by
    refine ite_k ?_ ?_
    · refine wakeEngine_keeps K (sub rfl hA) ?_
      assumption
    · assumption
  try clear_value s4
  try clear_value s5
  have hfloor6 : P floor6 := by
    refine ite_k ?_ ?_
    · refine upd_sec K (sub rfl hA) ?_
      assumption
    · assumption
  try clear_value floor6
  try clear_value r7
  extract_lets +onlyGivenNames -merge -underBinder r8
  try clear_value r8
  extract_lets +onlyGivenNames -merge -underBinder r9
  try clear_value r9
  extract_lets +onlyGivenNames -merge -underBinder r10
  have hr10 : P r10 := by
    refine setOwner_keeps K (sub rfl hA) ?_
    assumption
  try clear_value r10
  extract_lets +onlyGivenNames -merge -underBinder r11
  have hr11 : P r11.1 := by
    refine ite1_k ?_ ?_
    · refine mk1_k ?_
      assumption
    · refine ite1_k ?_ ?_
      · refine ite1_k ?_ ?_
        · refine mk1_k ?_
          assumption
        · refine mk1_k ?_
          refine showSec_keeps K (sub rfl hA) ?_
          refine upd_sec K (sub rfl hA) ?_
          assumption
      · refine ite1_k ?_ ?_
        · refine mk1_k ?_
          refine setOwner_keeps K (sub rfl hA) ?_
          assumption
        · refine ite1_k ?_ ?_
          · refine mk1_k ?_
            refine clearTamper_keeps K (sub rfl hA) ?_
            assumption
          · refine ite1_k ?_ ?_
            · refine mk1_k ?_
              assumption
            · refine ite1_k ?_ ?_
              · refine mk1_k ?_
                refine setOwner_keeps K (sub rfl hA) ?_
                assumption
              · refine mk1_k ?_
                refine ite_k ?_ ?_
                · refine clearTamper_keeps K (sub rfl hA) ?_
                  assumption
                · assumption
  try clear_value r11
  refine mk1_k ?_
  refine raiseEv_keeps K (sub rfl hA) ?_
  assumption

theorem execSecOwnerLock_keeps (K : Keeps P A) (hA : Sub 8080583639599939591 A) {c s} (h_s : P s) :
    Nx P (execSecOwnerLock c s) := by
  unfold execSecOwnerLock
  refine runCmd_keeps K (sub rfl hA) ?_ ?_
  · intro _ _ hh
    refine secOwnerLockEffect_keeps K (sub rfl hA) ?_
    assumption
  · assumption

theorem secGetIdentityEffect_keeps (K : Keeps P A) (hA : Sub 1152921504875282432 A) {x s} (h_s : P s) :
    P (secGetIdentityEffect x s).1 := by
  unfold secGetIdentityEffect
  extract_lets +onlyGivenNames -merge -underBinder d1 nonce2 n3 src4 src5 s6
  have hd1 : P d1.2 := by
    refine drbgRequest_keeps K (sub rfl hA) ?_
    · assumption
  try clear_value d1
  try clear_value nonce2
  try clear_value n3
  have hsrc4 : P src4 := by
    assumption
  try clear_value src4
  try clear_value src5
  have hs6 : P s6 := by
    refine upd_sec K (sub rfl hA) ?_
    assumption
  try clear_value s6
  refine mk1_k ?_
  assumption

theorem execSecGetIdentity_keeps (K : Keeps P A) (hA : Sub 5773614730208870404 A) {c s} (h_s : P s) :
    Nx P (execSecGetIdentity c s) := by
  unfold execSecGetIdentity
  refine runCmd_keeps K (sub rfl hA) ?_ ?_
  · intro _ _ hh
    refine secGetIdentityEffect_keeps K (sub rfl hA) ?_
    assumption
  · assumption

theorem secZeroiseEffect_keeps (K : Keeps P A) (hA : Sub 5919948750467178503 A) {x s} (h_s : P s) :
    P (secZeroiseEffect x s).1 := by
  unfold secZeroiseEffect
  extract_lets +onlyGivenNames -merge -underBinder r1
  have hr1 : P r1.2 := by
    refine zeroise_keeps K (sub rfl hA) ?_
    assumption
  try clear_value r1
  refine mk1_k ?_
  assumption

theorem execSecZeroise_keeps (K : Keeps P A) (hA : Sub 5919948750467178503 A) {c s} (h_s : P s) :
    Nx P (execSecZeroise c s) := by
  unfold execSecZeroise
  refine runCmd_keeps K (sub rfl hA) ?_ ?_
  · intro _ _ hh
    refine secZeroiseEffect_keeps K (sub rfl hA) ?_
    assumption
  · assumption

theorem selfTestStep_keeps (K : Keeps P A) (hA : Sub 146334026969194499 A) {o s} (h_s : P s) :
    P (selfTestStep o s).1 := by
  unfold selfTestStep
  refine ite1_k ?_ ?_
  · refine mk1_k ?_
    refine wakeEngine_keeps K (sub rfl hA) ?_
    refine setB_k K 1 part_gdSecStatusSelftestRun (sub rfl hA) ?_
    assumption
  · extract_lets +onlyGivenNames -merge -underBinder t1 s2
    try clear_value t1
    have hs2 : P s2 := by
      refine setB_k K 1 part_gdSecStatusSelftestRun (sub rfl hA) ?_
      assumption
    try clear_value s2
    refine ite1_k ?_ ?_
    · refine mk1_k ?_
      refine evdPasses_keeps K (sub rfl hA) ?_
      assumption
    · refine mk1_k ?_
      refine evdFails_keeps K (sub rfl hA) ?_
      assumption

theorem selfTestCancel_keeps (K : Keeps P A) (hA : Sub 2 A) {s} (h_s : P s) :
    P (selfTestCancel s).1 := by
  unfold selfTestCancel
  refine mk1_k ?_
  refine setB_k K 1 part_gdSecStatusSelftestRun (sub rfl hA) ?_
  assumption

theorem execSecSelfTest_keeps (K : Keeps P A) (hA : Sub 4767027245860331527 A) {c s} (h_s : P s) :
    Nx P (execSecSelfTest c s) := by
  unfold execSecSelfTest
  refine runStepped_keeps K (sub rfl hA) ?_ ?_
  · intro _ _ hh
    refine selfTestStep_keeps K (sub rfl hA) ?_
    assumption
  · assumption

theorem secDrbgReadEffect_keeps (K : Keeps P A) (hA : Sub 1152921504875282432 A) {c s} (h_s : P s) :
    P (secDrbgReadEffect c s).1 := by
  unfold secDrbgReadEffect
  extract_lets +onlyGivenNames -merge -underBinder d1
  have hd1 : P d1.2 := by
    refine drbgRequest_keeps K (sub rfl hA) ?_
    · assumption
  try clear_value d1
  refine ite1_k ?_ ?_
  · refine mk1_k ?_
    assumption
  · refine mk1_k ?_
    assumption

theorem execSecDrbgRead_keeps (K : Keeps P A) (hA : Sub 5773614730208870404 A) {c s} (h_s : P s) :
    Nx P (execSecDrbgRead c s) := by
  unfold execSecDrbgRead
  refine runCmd_keeps K (sub rfl hA) ?_ ?_
  · intro _ _ hh
    refine secDrbgReadEffect_keeps K (sub rfl hA) ?_
    assumption
  · assumption

end Sys2Proof.Machine
end

