-- ==== Sys2Proof/Laws/KeepMailbox.lean ====
section
/-! SUPPORT. What the operations of Sys2Proof/Machine/Mailbox.lean keep (Sys2Proof/Laws/Keeps.lean): the mask in each lemma names the parts
of the state that the operation can touch. -/

set_option Elab.async false

namespace Sys2Proof.Machine

variable {P : State → Prop} {A : Nat}

theorem doorbellBad_keeps (K : Keeps P A) (hA : Sub 2684354565 A) {q value s} (h_s : P s) :
    P (doorbellBad q value s) := by
  unfold doorbellBad
  refine raiseEv_keeps K (sub rfl hA) ?_
  refine raiseBit_k K 2 part_mbxStatusDbBad (sub rfl hA) ?_
  assumption

theorem emptyEnds_keeps (K : Keeps P A) (hA : Sub 7650410500 A) {q s} (h_s : P s) :
    P (emptyEnds q s) := by
  unfold emptyEnds
  refine ite_k ?_ ?_
  · extract_lets +onlyGivenNames -merge -underBinder s1
    have hs1 : P s1 := by
      refine flushEnds_keeps K (sub rfl hA) ?_
      assumption
    try clear_value s1
    refine ite_k ?_ ?_
    · assumption
    · refine raiseBit_k K 2 part_mbxStatusCqStall (sub rfl hA) ?_
      assumption
  · assumption

theorem doorbell_keeps (K : Keeps P A) (hA : Sub 8187281413 A) {q value fs s} (h_s : P s) :
    P (doorbell q value fs s) := by
  unfold doorbell
  extract_lets +onlyGivenNames -merge -underBinder ix1 size2
  try clear_value ix1
  try clear_value size2
  refine ite_k ?_ ?_
  · refine doorbellBad_keeps K (sub rfl hA) ?_
    · assumption
  · extract_lets +onlyGivenNames -merge -underBinder x3 htag4 n5 s6
    try clear_value x3
    try clear_value htag4
    try clear_value n5
    have hs6 : P s6 := by
      refine setF_k K 2 part_mbxDbShadow (sub rfl hA) ?_
      assumption
    try clear_value s6
    refine ite_k ?_ ?_
    · refine ite_k ?_ ?_
      · extract_lets +onlyGivenNames -merge -underBinder e7
        try clear_value e7
        refine emptyEnds_keeps K (sub rfl hA) ?_
        · refine State.setQueue_keeps K (sub rfl hA) ?_
          · assumption
      · assumption
    · extract_lets +onlyGivenNames -merge -underBinder es8 h9 odd10 s11
      try clear_value es8
      try clear_value h9
      try clear_value odd10
      have hs11 : P s11 := by
        refine State.setQueue_keeps K (sub rfl hA) ?_
        · assumption
      try clear_value s11
      refine syncPending_keeps K (sub rfl hA) ?_
      · refine upd_mbx K (sub rfl hA) ?_
        assumption

theorem queueEnable_keeps (K : Keeps P A) (hA : Sub 7650410500 A) {q s} (h_s : P s) :
    P (queueEnable q s) := by
  unfold queueEnable
  extract_lets +onlyGivenNames -merge -underBinder s1
  have hs1 : P s1 := by
    refine ringReset_k K 2 ring_cq (sub rfl hA) ?_
    refine setF_k K 2 part_mbxSqHeadIndex (sub rfl hA) ?_
    assumption
  try clear_value s1
  refine emptyEnds_keeps K (sub rfl hA) ?_
  · refine State.setQueue_keeps K (sub rfl hA) ?_
    · assumption

theorem queueDisable_keeps (K : Keeps P A) (hA : Sub 6442450948 A) {q s} (h_s : P s) :
    P (queueDisable q s) := by
  unfold queueDisable
  extract_lets +onlyGivenNames -merge -underBinder x1 any2 hs3 s4 s5
  try clear_value x1
  try clear_value any2
  try clear_value hs3
  have hs4 : P s4 := by
    refine State.setQueue_keeps K (sub rfl hA) ?_
    assumption
  try clear_value s4
  try clear_value s5
  extract_lets +onlyGivenNames -merge -underBinder s6
  have hs6 : P s6 := by
    refine upd_mbx K (sub rfl hA) ?_
    assumption
  try clear_value s6
  refine syncPending_keeps K (sub rfl hA) ?_
  refine ite_k ?_ ?_
  · refine raiseBit_k K 2 part_mbxStatusDiscard (sub rfl hA) ?_
    assumption
  · assumption

theorem mbxCfgWritten_keeps (K : Keeps P A) (hA : Sub 7650410500 A) {q was bad s} (h_s : P s) :
    P (mbxCfgWritten q was bad s) := by
  unfold mbxCfgWritten
  extract_lets +onlyGivenNames -merge -underBinder en1 s2
  try clear_value en1
  have hs2 : P s2 := by
    refine setB_k K 2 part_mbxCfgCfgErr (sub rfl hA) ?_
    assumption
  try clear_value s2
  refine ite_k ?_ ?_
  · refine queueEnable_keeps K (sub rfl hA) ?_
    · assumption
  · refine ite_k ?_ ?_
    · refine queueDisable_keeps K (sub rfl hA) ?_
      · assumption
    · assumption

theorem cqConsume_keeps (K : Keeps P A) (hA : Sub 7650410500 A) {q ix s} (h_s : P s) :
    P (cqConsume q ix s).2 := by
  unfold cqConsume
  extract_lets +onlyGivenNames -merge -underBinder r1
  have hr1 : P r1.2 := by
    refine ringConsume_k K 2 ring_cq (sub rfl hA) ?_
    assumption
  try clear_value r1
  refine ite2_k ?_ ?_
  · refine mk2_k ?_
    refine emptyEnds_keeps K (sub rfl hA) ?_
    · assumption
  · assumption

theorem fetchFails_keeps (K : Keeps P A) (hA : Sub 6979321861 A) {q slot s} (h_s : P s) :
    P (fetchFails q slot s) := by
  unfold fetchFails
  extract_lets +onlyGivenNames -merge -underBinder s1
  try clear_value s1
  extract_lets +onlyGivenNames -merge -underBinder s2
  have hs2 : P s2 := by
    refine raiseBit_k K 2 part_mbxStatusFetchErr (sub rfl hA) ?_
    refine State.setQueue_keeps K (sub rfl hA) ?_
    assumption
  try clear_value s2
  refine raiseEv_keeps K (sub rfl hA) ?_
  assumption

theorem serveOdd_keeps (K : Keeps P A) (hA : Sub 4620693225870458885 A) {q s} (h_s : P s) :
    P (serveOdd q s) := by
  unfold serveOdd
  refine ite_k ?_ ?_
  · assumption
  · split
    · assumption
    · refine ite_k ?_ ?_
      · refine raiseBit_k K 2 part_mbxStatusCqStall (sub rfl hA) ?_
        assumption
      · extract_lets +onlyGivenNames -merge -underBinder s1
        try clear_value s1
        extract_lets +onlyGivenNames -merge -underBinder s2
        have hs2 : P s2 := by
          refine upd_mbx K (sub rfl hA) ?_
          assumption
        try clear_value s2
        split
        · refine fetchFails_keeps K (sub rfl hA) ?_
          assumption
        · refine ite_k ?_ ?_
          · refine upd_mbx K (sub rfl hA) ?_
            assumption
          · extract_lets +onlyGivenNames -merge -underBinder t03 r4
            try clear_value t03
            try clear_value r4
            refine finish_keeps K (sub rfl hA) ?_
            refine takeEntry_keeps K (sub rfl hA) ?_
            assumption

theorem hstNopEffect_keeps (K : Keeps P A) (hA : Sub 0 A) {x s} (h_s : P s) :
    P (hstNopEffect x s).1 := by
  unfold hstNopEffect
  refine mk1_k ?_
  assumption

theorem execHstNop_keeps (K : Keeps P A) (hA : Sub 4620693225333587972 A) {c s} (h_s : P s) :
    Nx P (execHstNop c s) := by
  unfold execHstNop
  refine runCmd_keeps K (sub rfl hA) ?_ ?_
  · intro _ _ hh
    refine hstNopEffect_keeps K (sub rfl hA) ?_
    assumption
  · assumption

theorem hstRestartMgmtEffect_keeps (K : Keeps P A) (hA : Sub 576460752303423488 A) {x s} (h_s : P s) :
    P (hstRestartMgmtEffect x s).1 := by
  unfold hstRestartMgmtEffect
  refine mk1_k ?_
  refine upd_fw K (sub rfl hA) ?_
  assumption

theorem execHstRestartMgmt_keeps (K : Keeps P A) (hA : Sub 5197153977637011460 A) {c s} (h_s : P s) :
    Nx P (execHstRestartMgmt c s) := by
  unfold execHstRestartMgmt
  refine runCmd_keeps K (sub rfl hA) ?_ ?_
  · intro _ _ hh
    refine hstRestartMgmtEffect_keeps K (sub rfl hA) ?_
    assumption
  · assumption

theorem portCancel_keeps (K : Keeps P A) (hA : Sub 286156424705 A) {o s} (h_s : P s) :
    P (portCancel o s) := by
  unfold portCancel
  extract_lets +onlyGivenNames -merge -underBinder p1 ls2
  try clear_value p1
  try clear_value ls2
  refine stampStatus_keeps K (sub rfl hA) ?_
  · refine setF_k K 9 part_ptsStatusMode (sub rfl hA) ?_
    refine lanesSleep_keeps K (sub rfl hA) ?_
    · refine stopTx_keeps K (sub rfl hA) ?_
      · assumption

theorem longStop_keeps (K : Keeps P A) (hA : Sub 288230662577108611 A) {o s} (h_s : P s) :
    P (longStop o s).1 := by
  unfold longStop
  split
  · refine mk1_k ?_
    assumption
  · refine mk1_k ?_
    refine loadCancel_keeps K (sub rfl hA) ?_
    · assumption
  · refine mk1_k ?_
    refine loadCancel_keeps K (sub rfl hA) ?_
    · assumption
  · extract_lets +onlyGivenNames -merge -underBinder bad1
    try clear_value bad1
    refine mk1_k ?_
    assumption
  · refine mk1_k ?_
    refine portCancel_keeps K (sub rfl hA) ?_
    · assumption
  · extract_lets +onlyGivenNames -merge -underBinder r2
    have hr2 : P r2.1 := by
      refine scanReply_keeps K (sub rfl hA) ?_
      · assumption
    try clear_value r2
    refine mk1_k ?_
    assumption
  · refine mk1_k ?_
    refine setF_k K 12 part_ftStatusWalker (sub rfl hA) ?_
    assumption
  · refine mk1_k ?_
    refine setF_k K 12 part_ftStatusWalker (sub rfl hA) ?_
    assumption
  · refine mk1_k ?_
    refine spillCancel_keeps K (sub rfl hA) ?_
    · assumption
  · extract_lets +onlyGivenNames -merge -underBinder r3
    have hr3 : P r3.1 := by
      refine scrubCancel_keeps K (sub rfl hA) ?_
      · assumption
    try clear_value r3
    refine mk1_k ?_
    assumption
  · extract_lets +onlyGivenNames -merge -underBinder r4
    have hr4 : P r4.1 := by
      refine calCancel_keeps K (sub rfl hA) ?_
      · assumption
    try clear_value r4
    refine mk1_k ?_
    assumption
  · extract_lets +onlyGivenNames -merge -underBinder r5
    have hr5 : P r5.1 := by
      refine calCancel_keeps K (sub rfl hA) ?_
      · assumption
    try clear_value r5
    refine mk1_k ?_
    assumption
  · extract_lets +onlyGivenNames -merge -underBinder r6
    have hr6 : P r6.1 := by
      refine calOutCancel_keeps K (sub rfl hA) ?_
      · assumption
    try clear_value r6
    refine mk1_k ?_
    assumption
  · extract_lets +onlyGivenNames -merge -underBinder r7
    have hr7 : P r7.1 := by
      refine writeCancel_keeps K (sub rfl hA) ?_
      · assumption
    try clear_value r7
    refine mk1_k ?_
    assumption
  · extract_lets +onlyGivenNames -merge -underBinder r8
    have hr8 : P r8.1 := by
      refine writeCancel_keeps K (sub rfl hA) ?_
      · assumption
    try clear_value r8
    refine mk1_k ?_
    assumption
  · extract_lets +onlyGivenNames -merge -underBinder r9
    have hr9 : P r9.1 := by
      refine selfTestCancel_keeps K (sub rfl hA) ?_
      · assumption
    try clear_value r9
    refine mk1_k ?_
    assumption
  · refine mk1_k ?_
    assumption

theorem longEnds_keeps (K : Keeps P A) (hA : Sub 4908923885763212935 A) {st detail cf result o s} (h_s : P s) :
    P (longEnds st detail cf result o s) := by
  unfold longEnds
  extract_lets +onlyGivenNames -merge -underBinder r1 s2
  have hr1 : P r1.1 := by
    refine longStop_keeps K (sub rfl hA) ?_
    assumption
  try clear_value r1
  have hs2 : P s2 := by
    assumption
  try clear_value s2
  extract_lets +onlyGivenNames -merge -underBinder s3
  try clear_value s3
  extract_lets +onlyGivenNames -merge -underBinder s4
  have hs4 : P s4 := by
    refine syncLong_keeps K (sub rfl hA) ?_
    refine upd_mbx K (sub rfl hA) ?_
    assumption
  try clear_value s4
  refine ite_k ?_ ?_
  · assumption
  · refine finish_keeps K (sub rfl hA) ?_
    assumption

theorem execSteppedCommandStep_keeps (K : Keeps P A) (hA : Sub 5656520513382514623 A) {amount s} (h : P s) : Nx P (execSteppedCommandStep amount s) := by
  unfold execSteppedCommandStep
  split
  · exact next_k h
  · refine iteN_k ?_ (next_k h)
    split
    · exact next_k h
    · rename_i o _ _ k f hf
      refine next_k (afterStep_keeps K (sub rfl hA) ?_)
      revert hf
      unfold stepOf
      split <;> intro hf <;> cases hf
      · exact larderStep_keeps K (sub rfl hA) h
      · exact loadStep_keeps K (sub rfl hA) h
      · exact loadStep_keeps K (sub rfl hA) h
      · exact auditStep_keeps K (sub rfl hA) h
      · exact portStep_keeps K (sub rfl hA) h
      · exact scanStep_keeps K (sub rfl hA) h
      · exact walkNextStep_keeps K (sub rfl hA) h
      · exact flushStep_keeps K (sub rfl hA) h
      · exact digestStep_keeps K (sub rfl hA) h
      · exact spillStep_keeps K (sub rfl hA) h
      · exact scrubStep_keeps K (sub rfl hA) h
      · exact calStep_keeps K (sub rfl hA) h
      · exact calStep_keeps K (sub rfl hA) h
      · exact calOutStep_keeps K (sub rfl hA) h
      · exact writeStep_keeps K (sub rfl hA) h
      · exact moultStep_keeps K (sub rfl hA) h
      · exact evdUpdateStep_keeps K (sub rfl hA) h
      · exact selfTestStep_keeps K (sub rfl hA) h

theorem hstCancelEffect_keeps (K : Keeps P A) (hA : Sub 4908923885763212935 A) {t c s} (h_s : P s) :
    P (hstCancelEffect t c s).1 := by
  unfold hstCancelEffect
  split
  · refine mk1_k ?_
    assumption
  · refine mk1_k ?_
    refine longEnds_keeps K (sub rfl hA) ?_
    assumption
  · extract_lets +onlyGivenNames -merge -underBinder q1 x2
    try clear_value q1
    try clear_value x2
    refine mk1_k ?_
    refine ite_k ?_ ?_
    · assumption
    · refine State.setQueue_keeps K (sub rfl hA) ?_
      assumption

theorem execHstCancel_keeps (K : Keeps P A) (hA : Sub 4908923885763212935 A) {c s} (h_s : P s) :
    Nx P (execHstCancel c s) := by
  unfold execHstCancel
  refine runCmd_keeps K (sub rfl hA) ?_ ?_
  · intro _ _ hh
    refine hstCancelEffect_keeps K (sub rfl hA) ?_
    assumption
  · assumption

end Sys2Proof.Machine
end

