-- ==== Sys2Proof/Laws/KeepBus.lean ====
section
/-! SUPPORT. What the operations of Sys2Proof/Machine/Bus.lean keep (Sys2Proof/Laws/Keeps.lean): the mask in each lemma names the parts
of the state that the operation can touch. -/

set_option Elab.async false

namespace Sys2Proof.Machine

variable {P : State → Prop} {A : Nat}

theorem latch_keeps (K : Keeps P A) (hA : Sub 2147483648 A) {p hi s} (h_s : P s) :
    P (latch p hi s) := by
  unfold latch
  refine upd_bus K (sub rfl hA) ?_
  assumption

theorem readPair_keeps (K : Keeps P A) (hA : Sub 2147483648 A) {p off v s} (h_s : P s) :
    P (readPair p off v s).2 := by
  unfold readPair
  refine ite2_k ?_ ?_
  · refine mk2_k ?_
    refine latch_keeps K (sub rfl hA) ?_
    · assumption
  · refine mk2_k ?_
    assumption

theorem readCounter_keeps (K : Keeps P A) (hA : Sub 145208127062286337 A) {p off c s} (h_s : P s) :
    P (readCounter p off c s).2 := by
  unfold readCounter
  refine ite2_k ?_ ?_
  · extract_lets +onlyGivenNames -merge -underBinder s1
    have hs1 : P s1 := by
      refine mpRead_keeps K (sub rfl hA) ?_
      · assumption
    try clear_value s1
    refine readPair_keeps K (sub rfl hA) ?_
    · assumption
  · refine readPair_keeps K (sub rfl hA) ?_
    · assumption

theorem readBar0_keeps (K : Keeps P A) (hA : Sub 2451051136275980289 A) {p off s} (h_s : P s) :
    Ox (fun r : _ × State => P r.2) (readBar0 p off s) := by
  unfold readBar0
  refine ite_g (Q := fun r : Option _ => Ox (fun r : _ × State => P r.2) r) ?_ ?_
  · exact none_k
  · refine ite_g (Q := fun r : Option _ => Ox (fun r : _ × State => P r.2) r) ?_ ?_
    · refine some_k ?_
      refine readCounter_keeps K (sub rfl hA) ?_
      assumption
    · refine ite_g (Q := fun r : Option _ => Ox (fun r : _ × State => P r.2) r) ?_ ?_
      · extract_lets +onlyGivenNames -merge -underBinder k1
        try clear_value k1
        refine ite_g (Q := fun r : Option _ => Ox (fun r : _ × State => P r.2) r) ?_ ?_
        · refine some_k ?_
          refine readCounter_keeps K (sub rfl hA) ?_
          assumption
        · refine some_k ?_
          refine readPair_keeps K (sub rfl hA) ?_
          assumption
      · split
        · exact none_k
        · refine ite_g (Q := fun r : Option _ => Ox (fun r : _ × State => P r.2) r) ?_ ?_
          · refine some_k ?_
            split
            · refine readPair_keeps K (sub rfl hA) ?_
              assumption
            · refine mk2_k ?_
              assumption
            · refine mk2_k ?_
              assumption
          · split
            · refine ite_g (Q := fun r : Option _ => Ox (fun r : _ × State => P r.2) r) ?_ ?_
              · refine some_k ?_
                refine readPair_keeps K (sub rfl hA) ?_
                assumption
              · refine ite_g (Q := fun r : Option _ => Ox (fun r : _ × State => P r.2) r) ?_ ?_
                · extract_lets +onlyGivenNames -merge -underBinder t2 s3
                  try clear_value t2
                  have hs3 : P s3 := by
                    refine State.draw_keeps K (sub rfl hA) ?_
                    assumption
                  try clear_value s3
                  refine some_k ?_
                  refine readPair_keeps K (sub rfl hA) ?_
                  refine upd_ao K (sub rfl hA) ?_
                  assumption
                · refine some_k ?_
                  refine readPair_keeps K (sub rfl hA) ?_
                  assumption
            · refine some_k ?_
              refine mk2_k ?_
              assumption
            · refine some_k ?_
              refine mk2_k ?_
              assumption
            · refine some_k ?_
              refine mk2_k ?_
              assumption

theorem readWord_keeps (K : Keeps P A) (hA : Sub 2451051136275980289 A) {a s} (h_s : P s) :
    P (readWord a s).2 := by
  unfold readWord
  refine ite2_k ?_ ?_
  · refine mk2_k ?_
    assumption
  · extract_lets +onlyGivenNames -merge -underBinder r1
    have hr1 : Ox (fun r : _ × State => P r.2) r1 := by
      refine ite_g (Q := fun r : Option (_ × State) => Ox (fun r : _ × State => P r.2) r) ?_ ?_
      · exact none_k
      · refine ite_g (Q := fun r : Option (_ × State) => Ox (fun r : _ × State => P r.2) r) ?_ ?_
        · refine map_k (fun l0 => ?_)
          refine mk2_k ?_
          assumption
        · refine ite_g (Q := fun r : Option (_ × State) => Ox (fun r : _ × State => P r.2) r) ?_ ?_
          · refine ite_g (Q := fun r : Option (_ × State) => Ox (fun r : _ × State => P r.2) r) ?_ ?_
            · refine readBar0_keeps K (sub rfl hA) ?_
              · assumption
            · exact none_k
          · refine readBar0_keeps K (sub rfl hA) ?_
            · assumption
    try clear_value r1
    have hd2 := hr1
    revert hd2
    split
    · intro hd2
      try (have hd2x := hd2 _ rfl)
      refine mk2_k ?_
      assumption
    · intro hd2
      try (have hd2x := hd2 _ rfl)
      refine mk2_k ?_
      refine accessFault_keeps K (sub rfl hA) ?_
      · assumption

theorem readMore_keeps (K : Keeps P A) (hA : Sub 2451051136275980289 A) {a aa1 aa2} (h_aa2 : P aa2) :
    P (readMore a aa1 aa2).2 := by
  induction aa1 generalizing a aa2 with
  | nil =>
    rw [readMore]
    try (conv => zeta)
    refine mk2_k ?_
    assumption
  | cons e l ih =>
    rw [readMore]
    try (conv => zeta)
    refine mk2_k ?_
    refine ih ?_
    refine readWord_keeps K (sub rfl hA) ?_
    · assumption

theorem busRead_keeps (K : Keeps P A) (hA : Sub 2451051136275980289 A) {a more s} (h_s : P s) :
    P (busRead a more s) := by
  unfold busRead
  extract_lets +onlyGivenNames -merge -underBinder w1 t2 src3
  have hw1 : P w1.2 := by
    refine readWord_keeps K (sub rfl hA) ?_
    · assumption
  try clear_value w1
  have ht2 : P t2.2 := by
    refine readMore_keeps K (sub rfl hA) ?_
    · assumption
  try clear_value t2
  have hsrc3 : P src3 := by
    assumption
  try clear_value src3
  refine upd_bus K (sub rfl hA) ?_
  assumption

theorem stopBound_keeps (K : Keeps P A) (hA : Sub 2684388865 A) {p s} (h_s : P s) :
    P (stopBound p s) := by
  unfold stopBound
  refine ite_k ?_ ?_
  · refine stopTx_keeps K (sub rfl hA) ?_
    · assumption
  · assumption

theorem stopTwin_keeps (K : Keeps P A) (hA : Sub 1024 A) {s} (h_s : P s) :
    P (stopTwin s) := by
  unfold stopTwin
  refine foldl_k ?_ (fun s0 k0 hs0 => ?_)
  · assumption
  · refine setB_k K 10 part_sdsStatusTxOn (sub rfl hA) ?_
    assumption

theorem portsFall_keeps (K : Keeps P A) (hA : Sub 2684388865 A) {first n old new s} (h_s : P s) :
    P (portsFall first n old new s) := by
  unfold portsFall
  refine foldl_k ?_ (fun s0 k0 hs0 => ?_)
  · assumption
  · refine ite_k ?_ ?_
    · refine stopBound_keeps K (sub rfl hA) ?_
      · assumption
    · assumption

theorem keyCommit_keeps (K : Keeps P A) (hA : Sub 4611686021145296895 A) {off v s} (h_s : P s) :
    P (keyCommit off v s) := by
  unfold keyCommit
  extract_lets +onlyGivenNames -merge -underBinder old1 v2 s3
  try clear_value old1
  try clear_value v2
  have hs3 : P s3 := by
    refine setF_any K (sub rfl hA) ?_
    assumption
  try clear_value s3
  refine ite_k ?_ ?_
  · refine portsFall_keeps K (sub rfl hA) ?_
    · assumption
  · refine ite_k ?_ ?_
    · extract_lets +onlyGivenNames -merge -underBinder s4
      have hs4 : P s4 := by
        refine portsFall_keeps K (sub rfl hA) ?_
        · assumption
      try clear_value s4
      refine ite_k ?_ ?_
      · refine stopTwin_keeps K (sub rfl hA) ?_
        · assumption
      · assumption
    · refine ite_k ?_ ?_
      · refine upd_boot K (sub rfl hA) ?_
        assumption
      · assumption

theorem keyEnd_keeps (K : Keeps P A) (hA : Sub 2147483648 A) {off p s} (h_s : P s) :
    P (keyEnd off p s) := by
  unfold keyEnd
  refine upd_bus K (sub rfl hA) ?_
  assumption

theorem discarded_keeps (K : Keeps P A) (hA : Sub 146334026969128963 A) {off p r v s} (h_s : P s) :
    P (discarded off p r v s) := by
  unfold discarded
  refine guardViolation_keeps K (sub rfl hA) ?_
  · assumption

theorem keyExpire_keeps (K : Keeps P A) (hA : Sub 146334026969128963 A) {late off p s} (h_s : P s) :
    P (keyExpire late off p s) := by
  unfold keyExpire
  split
  · assumption
  · refine ite_k ?_ ?_
    · refine discarded_keeps K (sub rfl hA) ?_
      · refine keyEnd_keeps K (sub rfl hA) ?_
        · assumption
    · assumption

theorem writeKeyA_keeps (K : Keeps P A) (hA : Sub 146334026969128963 A) {off p v s} (h_s : P s) :
    P (writeKeyA off p v s) := by
  unfold writeKeyA
  extract_lets +onlyGivenNames -merge -underBinder s1
  have hs1 : P s1 := by
    refine keyExpire_keeps K (sub rfl hA) ?_
    · assumption
  try clear_value s1
  refine ite_k ?_ ?_
  · refine discarded_keeps K (sub rfl hA) ?_
    · assumption
  · refine ite_k ?_ ?_
    · refine discarded_keeps K (sub rfl hA) ?_
      · refine keyEnd_keeps K (sub rfl hA) ?_
        · assumption
    · refine upd_bus K (sub rfl hA) ?_
      assumption

theorem writeKeyB_keeps (K : Keeps P A) (hA : Sub 4758020045429276671 A) {off p v s} (h_s : P s) :
    P (writeKeyB off p v s) := by
  unfold writeKeyB
  extract_lets +onlyGivenNames -merge -underBinder s1
  have hs1 : P s1 := by
    refine keyExpire_keeps K (sub rfl hA) ?_
    · assumption
  try clear_value s1
  refine ite_k ?_ ?_
  · refine discarded_keeps K (sub rfl hA) ?_
    · refine keyEnd_keeps K (sub rfl hA) ?_
      · assumption
  · split
    · refine discarded_keeps K (sub rfl hA) ?_
      · assumption
    · extract_lets +onlyGivenNames -merge -underBinder s2
      have hs2 : P s2 := by
        refine keyEnd_keeps K (sub rfl hA) ?_
        · assumption
      try clear_value s2
      refine ite_k ?_ ?_
      · refine keyCommit_keeps K (sub rfl hA) ?_
        · assumption
      · refine discarded_keeps K (sub rfl hA) ?_
        · assumption

theorem htxCfgWritten_keeps (K : Keeps P A) (hA : Sub 2048 A) {was bad s} (h_s : P s) :
    P (htxCfgWritten was bad s) := by
  unfold htxCfgWritten
  extract_lets +onlyGivenNames -merge -underBinder ok1 en2 s3
  try clear_value ok1
  try clear_value en2
  have hs3 : P s3 := by
    refine setB_k K 11 part_swHtxCfgCfgErr (sub rfl hA) ?_
    assumption
  try clear_value s3
  refine ite_k ?_ ?_
  · refine setF_k K 11 part_swHtxTailIndex (sub rfl hA) ?_
    refine setF_k K 11 part_swHtxHeadIndex (sub rfl hA) ?_
    assumption
  · assumption

theorem snapWritten_keeps (K : Keeps P A) (hA : Sub 2684354569 A) {v be s} (h_s : P s) :
    P (snapWritten v be s) := by
  unfold snapWritten
  extract_lets +onlyGivenNames -merge -underBinder w1 s2 s3 src4
  try clear_value w1
  have hs2 : P s2 := by
    refine ite_k ?_ ?_
    · refine clearBit_k K 3 part_tbSnapCtrlDone (sub rfl hA) ?_
      assumption
    · assumption
  try clear_value s2
  have hs3 : P s3 := by
    refine ite_k ?_ ?_
    · refine capture_keeps K (sub rfl hA) ?_
      assumption
    · assumption
  try clear_value s3
  try clear_value src4
  refine ite_k ?_ ?_
  · refine armSnap_keeps K (sub rfl hA) ?_
    assumption
  · extract_lets +onlyGivenNames -merge -underBinder s5
    have hs5 : P s5 := by
      refine setF_k K 3 part_tbSnapCtrlArmSrc (sub rfl hA) ?_
      assumption
    try clear_value s5
    refine ite_k ?_ ?_
    · refine setB_k K 3 part_tbSnapCtrlArm (sub rfl hA) ?_
      assumption
    · assumption

theorem written_keeps (K : Keeps P A) (hA : Sub 145209227781880077 A) {off o s} (h_o : P o) (h_s : P s) :
    P (written off o s) := by
  unfold written
  refine ite_k ?_ ?_
  · refine evrDrain_keeps K (sub rfl hA) ?_
    · refine ringCfgWritten_k K 0 ring_evr (sub rfl hA) ?_
      assumption
  · refine ite_k ?_ ?_
    · refine ringSignal_k K 0 ring_evr (sub rfl hA) ?_
      assumption
    · refine ite_k ?_ ?_
      · refine recDrain_keeps K (sub rfl hA) ?_
        · refine ringCfgWritten_k K 8 ring_tt (sub rfl hA) ?_
          assumption
      · refine ite_k ?_ ?_
        · refine ringSignal_k K 8 ring_tt (sub rfl hA) ?_
          assumption
        · refine ite_k ?_ ?_
          · refine ringCfgWritten_k K 12 ring_learn (sub rfl hA) ?_
            assumption
          · refine ite_k ?_ ?_
            · refine ringSignal_k K 12 ring_learn (sub rfl hA) ?_
              assumption
            · refine ite_k ?_ ?_
              · refine htxCfgWritten_keeps K (sub rfl hA) ?_
                · assumption
              · refine ite_k ?_ ?_
                · refine mbxCfgWritten_keeps K (sub rfl hA) ?_
                  · assumption
                · refine ite_k ?_ ?_
                  · refine mbxCfgWritten_keeps K (sub rfl hA) ?_
                    · assumption
                  · refine ite_k ?_ ?_
                    · refine ringSignal_k K 2 ring_cq (sub rfl hA) ?_
                      assumption
                    · refine ite_k ?_ ?_
                      · refine ringSignal_k K 2 ring_cq (sub rfl hA) ?_
                        assumption
                      · refine ite_k ?_ ?_
                        · refine setF_k K 3 part_tbCfgSeamless (sub rfl hA) ?_
                          assumption
                        · assumption

theorem writeIndex_keeps (K : Keeps P A) (hA : Sub 145226957406944069 A) {off v s} (h_s : P s) :
    Ox (fun r : _ × State => P r.2) (writeIndex off v s) := by
  unfold writeIndex
  refine ite_g (Q := fun r : Option (_ × State) => Ox (fun r : _ × State => P r.2) r) ?_ ?_
  · extract_lets +onlyGivenNames -merge -underBinder r1
    have hr1 : P r1.2 := by
      refine ringConsume_k K 0 ring_evr (sub rfl hA) ?_
      assumption
    try clear_value r1
    refine some_k ?_
    refine mk2_k ?_
    refine ite_k ?_ ?_
    · refine evrDrain_keeps K (sub rfl hA) ?_
      · assumption
    · assumption
  · refine ite_g (Q := fun r : Option (_ × State) => Ox (fun r : _ × State => P r.2) r) ?_ ?_
    · refine some_k ?_
      refine cqConsume_keeps K (sub rfl hA) ?_
      · assumption
    · refine ite_g (Q := fun r : Option (_ × State) => Ox (fun r : _ × State => P r.2) r) ?_ ?_
      · refine some_k ?_
        refine cqConsume_keeps K (sub rfl hA) ?_
        · assumption
      · refine ite_g (Q := fun r : Option (_ × State) => Ox (fun r : _ × State => P r.2) r) ?_ ?_
        · extract_lets +onlyGivenNames -merge -underBinder r2
          have hr2 : P r2.2 := by
            refine ringConsume_k K 8 ring_tt (sub rfl hA) ?_
            assumption
          try clear_value r2
          refine some_k ?_
          refine mk2_k ?_
          refine ite_k ?_ ?_
          · refine recDrain_keeps K (sub rfl hA) ?_
            · assumption
          · assumption
        · refine ite_g (Q := fun r : Option (_ × State) => Ox (fun r : _ × State => P r.2) r) ?_ ?_
          · refine some_k ?_
            refine ringConsume_k K 12 ring_learn (sub rfl hA) ?_
            assumption
          · refine ite_g (Q := fun r : Option (_ × State) => Ox (fun r : _ × State => P r.2) r) ?_ ?_
            · refine some_k ?_
              refine emConsume_keeps K (sub rfl hA) ?_
              · assumption
            · refine ite_g (Q := fun r : Option (_ × State) => Ox (fun r : _ × State => P r.2) r) ?_ ?_
              · refine some_k ?_
                refine mk2_k ?_
                refine emPop_keeps K (sub rfl hA) ?_
                · assumption
              · refine ite_g (Q := fun r : Option (_ × State) => Ox (fun r : _ × State => P r.2) r) ?_ ?_
                · refine ite_g (Q := fun r : Option (_ × State) => Ox (fun r : _ × State => P r.2) r) ?_ ?_
                  · refine some_k ?_
                    refine mk2_k ?_
                    assumption
                  · refine some_k ?_
                    refine mk2_k ?_
                    refine setF_k K 16 part_evdRConsIndex (sub rfl hA) ?_
                    assumption
                · refine ite_g (Q := fun r : Option (_ × State) => Ox (fun r : _ × State => P r.2) r) ?_ ?_
                  · refine ite_g (Q := fun r : Option (_ × State) => Ox (fun r : _ × State => P r.2) r) ?_ ?_
                    · refine some_k ?_
                      refine mk2_k ?_
                      assumption
                    · refine some_k ?_
                      refine mk2_k ?_
                      refine setF_k K 11 part_swHtxTailIndex (sub rfl hA) ?_
                      assumption
                  · refine ite_g (Q := fun r : Option (_ × State) => Ox (fun r : _ × State => P r.2) r) ?_ ?_
                    · refine some_k ?_
                      refine mk2_k ?_
                      refine fifoPop_keeps K (sub rfl hA) ?_
                      · assumption
                    · refine ite_g (Q := fun r : Option (_ × State) => Ox (fun r : _ × State => P r.2) r) ?_ ?_
                      · refine some_k ?_
                        refine mk2_k ?_
                        refine fifoPop_keeps K (sub rfl hA) ?_
                        · assumption
                      · exact none_k

theorem writeFields_keeps (K : Keeps P A) (hA : Sub 2181038079 A) {off v be d s} (h_s : P s) :
    P (writeFields off v be d s) := by
  unfold writeFields
  extract_lets +onlyGivenNames -merge -underBinder w1
  try clear_value w1
  refine foldl_k ?_ (fun s0 k0 hs0 => ?_)
  · assumption
  · extract_lets +onlyGivenNames -merge -underBinder g2
    try clear_value g2
    split
    · refine setF_any K (sub rfl hA) ?_
      assumption
    · refine ite_k ?_ ?_
      · exact ite_k hs0 (setF_any K (sub rfl hA) hs0)
      · assumption
    · assumption

theorem stage_keeps (K : Keeps P A) (hA : Sub 2147483648 A) {off v s} (h_s : P s) :
    P (stage off v s) := by
  unfold stage
  refine upd_bus K (sub rfl hA) ?_
  assumption

theorem pairCommit_keeps (K : Keeps P A) (hA : Sub 2181038079 A) {off v be s} (h_s : P s) :
    P (pairCommit off v be s) := by
  unfold pairCommit
  extract_lets +onlyGivenNames -merge -underBinder lo1 hi2
  try clear_value lo1
  try clear_value hi2
  refine stage_keeps K (sub rfl hA) ?_
  · refine setF_any K (sub rfl hA) ?_
    refine setF_any K (sub rfl hA) ?_
    assumption

theorem writeBar0_keeps (K : Keeps P A) (hA : Sub 4758038875773861887 A) {a s} (h_s : P s) :
    P (writeBar0 a s) := by
  unfold writeBar0
  refine ite_k ?_ ?_
  · refine accessFault_keeps K (sub rfl hA) ?_
    assumption
  · split
    · refine accessFault_keeps K (sub rfl hA) ?_
      assumption
    · refine ite_k ?_ ?_
      · assumption
      · refine ite_k ?_ ?_
        · refine accessFault_keeps K (sub rfl hA) ?_
          assumption
        · refine ite_k ?_ ?_
          · refine discarded_keeps K (sub rfl hA) ?_
            assumption
          · refine ite_k ?_ ?_
            · refine accessFault_keeps K (sub rfl hA) ?_
              assumption
            · refine ite_k ?_ ?_
              · refine ite_k ?_ ?_
                · refine setB_k K 1 part_gdLockLock (sub rfl hA) ?_
                  assumption
                · refine ite_k ?_ ?_
                  · refine discarded_keeps K (sub rfl hA) ?_
                    assumption
                  · assumption
              · refine ite_k ?_ ?_
                · refine snapWritten_keeps K (sub rfl hA) ?_
                  assumption
                · split
                  · refine writeKeyA_keeps K (sub rfl hA) ?_
                    assumption
                  · refine writeKeyB_keeps K (sub rfl hA) ?_
                    assumption
                  · refine stage_keeps K (sub rfl hA) ?_
                    assumption
                  · refine pairCommit_keeps K (sub rfl hA) ?_
                    assumption
                  · split
                    · rename_i hq
                      have hd1 := keep_of (Q := fun r : Option _ => Ox (fun r : _ × State => P r.2) r) hq (by
                          refine writeIndex_keeps K (sub rfl hA) ?_
                          assumption)
                      try (have hd1x := hd1 _ rfl)
                      refine ite_k ?_ ?_
                      · assumption
                      · refine accessFault_keeps K (sub rfl hA) ?_
                        assumption
                    · rename_i hq
                      have hd2 := keep_of (Q := fun r : Option _ => Ox (fun r : _ × State => P r.2) r) hq (by
                          refine writeIndex_keeps K (sub rfl hA) ?_
                          assumption)
                      try (have hd2x := hd2 _ rfl)
                      refine written_keeps K (sub rfl hA) ?_ ?_
                      · assumption
                      · refine writeFields_keeps K (sub rfl hA) ?_
                        assumption

theorem nrDoorbell_keeps (K : Keeps P A) (hA : Sub 3221356544 A) {n v s} (h_s : P s) :
    P (nrDoorbell n v s).2 := by
  unfold nrDoorbell
  refine ite2_k ?_ ?_
  · refine mk2_k ?_
    assumption
  · extract_lets +onlyGivenNames -merge -underBinder k1 d2
    try clear_value k1
    try clear_value d2
    refine mk2_k ?_
    refine nrSignal_keeps K (sub rfl hA) ?_
    · refine State.setRing_keeps K (sub rfl hA) ?_
      · refine setF_k K 17 part_capNrConsIndex (sub rfl hA) ?_
        assumption

theorem writeBar4_keeps (K : Keeps P A) (hA : Sub 145208128270376965 A) {a fs s} (h_s : P s) :
    P (writeBar4 a fs s) := by
  unfold writeBar4
  extract_lets +onlyGivenNames -merge -underBinder off1
  try clear_value off1
  refine ite_k ?_ ?_
  · refine ite_k ?_ ?_
    · refine accessFault_keeps K (sub rfl hA) ?_
      · assumption
    · extract_lets +onlyGivenNames -merge -underBinder src2 s3
      try clear_value src2
      have hs3 : P s3 := by
        refine upd_bus K (sub rfl hA) ?_
        assumption
      try clear_value s3
      refine ite_k ?_ ?_
      · refine doorbell_keeps K (sub rfl hA) ?_
        · assumption
      · extract_lets +onlyGivenNames -merge -underBinder r4
        have hr4 : P r4.2 := by
          refine nrDoorbell_keeps K (sub rfl hA) ?_
          · assumption
        try clear_value r4
        refine ite_k ?_ ?_
        · assumption
        · refine accessFault_keeps K (sub rfl hA) ?_
          · assumption
  · refine ite_k ?_ ?_
    · extract_lets +onlyGivenNames -merge -underBinder k5 d6 src7 s8 v9
      try clear_value k5
      try clear_value d6
      try clear_value src7
      have hs8 : P s8 := by
        refine upd_bus K (sub rfl hA) ?_
        assumption
      try clear_value s8
      try clear_value v9
      refine ite_k ?_ ?_
      · refine State.signalVector_keeps K (sub rfl hA) ?_
        · refine upd_bus K (sub rfl hA) ?_
          assumption
      · assumption
    · refine ite_k ?_ ?_
      · assumption
      · refine accessFault_keeps K (sub rfl hA) ?_
        · assumption

theorem writeWord_keeps (K : Keeps P A) (hA : Sub 4758038875773861887 A) {a fs s} (h_s : P s) :
    P (writeWord a fs s) := by
  unfold writeWord
  refine ite_k ?_ ?_
  · assumption
  · refine ite_k ?_ ?_
    · refine accessFault_keeps K (sub rfl hA) ?_
      · assumption
    · refine ite_k ?_ ?_
      · refine writeBar4_keeps K (sub rfl hA) ?_
        · assumption
      · refine writeBar0_keeps K (sub rfl hA) ?_
        · assumption

theorem writeMore_keeps (K : Keeps P A) (hA : Sub 4758038875773861887 A) {a aa1 aa2} (h_aa2 : P aa2) :
    P (writeMore a aa1 aa2) := by
  induction aa1 generalizing a aa2 with
  | nil =>
    rw [writeMore]
    try (conv => zeta)
    assumption
  | cons e l ih =>
    rw [writeMore]
    try (conv => zeta)
    refine ih ?_
    refine writeWord_keeps K (sub rfl hA) ?_
    · assumption

theorem busWrite_keeps (K : Keeps P A) (hA : Sub 4758038875773861887 A) {a more s} (h_s : P s) :
    P (busWrite a more s) := by
  unfold busWrite
  refine ite_k ?_ ?_
  · refine accessFault_keeps K (sub rfl hA) ?_
    · assumption
  · refine ite_k ?_ ?_
    · refine writeMore_keeps K (sub rfl hA) ?_
      · refine writeWord_keeps K (sub rfl hA) ?_
        · assumption
    · split
      · refine ite_k ?_ ?_
        · refine pairCommit_keeps K (sub rfl hA) ?_
          · refine stage_keeps K (sub rfl hA) ?_
            · assumption
        · refine writeMore_keeps K (sub rfl hA) ?_
          · refine writeWord_keeps K (sub rfl hA) ?_
            · assumption
      · refine writeMore_keeps K (sub rfl hA) ?_
        · refine writeWord_keeps K (sub rfl hA) ?_
          · assumption

theorem whileUp_keeps (K : Keeps P A) (hA : Sub 0 A) {f s} (h_f : ∀ y0, P y0 → P (f y0)) (h_s : P s) :
    Nx P (whileUp f s) := by
  unfold whileUp
  refine next_k ?_
  refine ite_k ?_ ?_
  · assumption
  · refine h_f _ ?_
    · assumption

theorem execRegisterWrite_keeps (K : Keeps P A) (hA : Sub 4758038875773861887 A) {a more s} (h_s : P s) :
    Nx P (execRegisterWrite a more s) := by
  unfold execRegisterWrite
  refine whileUp_keeps K (sub rfl hA) ?_ ?_
  · intro _ hh
    refine busWrite_keeps K (sub rfl hA) ?_
    · assumption
  · assumption

theorem execUnmappedRead_keeps (K : Keeps P A) (hA : Sub 2451051136275980289 A) {a s} (h_s : P s) :
    Nx P (execUnmappedRead a s) := by
  unfold execUnmappedRead
  refine whileUp_keeps K (sub rfl hA) ?_ ?_
  · intro _ hh
    refine busRead_keeps K (sub rfl hA) ?_
    · assumption
  · assumption

theorem execUnmappedWrite_keeps (K : Keeps P A) (hA : Sub 4758038875773861887 A) {a s} (h_s : P s) :
    Nx P (execUnmappedWrite a s) := by
  unfold execUnmappedWrite
  refine whileUp_keeps K (sub rfl hA) ?_ ?_
  · intro _ hh
    refine busWrite_keeps K (sub rfl hA) ?_
    · assumption
  · assumption

theorem execReadOnlyWrite_keeps (K : Keeps P A) (hA : Sub 4758038875773861887 A) {a s} (h_s : P s) :
    Nx P (execReadOnlyWrite a s) := by
  unfold execReadOnlyWrite
  refine whileUp_keeps K (sub rfl hA) ?_ ?_
  · intro _ hh
    refine busWrite_keeps K (sub rfl hA) ?_
    · assumption
  · assumption

theorem execPartialW32Write_keeps (K : Keeps P A) (hA : Sub 4758038875773861887 A) {a s} (h_s : P s) :
    Nx P (execPartialW32Write a s) := by
  unfold execPartialW32Write
  refine whileUp_keeps K (sub rfl hA) ?_ ?_
  · intro _ hh
    refine busWrite_keeps K (sub rfl hA) ?_
    · assumption
  · assumption

theorem execBar2Write_keeps (K : Keeps P A) (hA : Sub 4758038875773861887 A) {a s} (h_s : P s) :
    Nx P (execBar2Write a s) := by
  unfold execBar2Write
  refine whileUp_keeps K (sub rfl hA) ?_ ?_
  · intro _ hh
    refine busWrite_keeps K (sub rfl hA) ?_
    · assumption
  · assumption

theorem execBar4LongWrite_keeps (K : Keeps P A) (hA : Sub 4758038875773861887 A) {a more s} (h_s : P s) :
    Nx P (execBar4LongWrite a more s) := by
  unfold execBar4LongWrite
  refine whileUp_keeps K (sub rfl hA) ?_ ?_
  · intro _ hh
    refine busWrite_keeps K (sub rfl hA) ?_
    · assumption
  · assumption

theorem execLatchingLoRead_keeps (K : Keeps P A) (hA : Sub 2451051136275980289 A) {a more s} (h_s : P s) :
    Nx P (execLatchingLoRead a more s) := by
  unfold execLatchingLoRead
  refine whileUp_keeps K (sub rfl hA) ?_ ?_
  · intro _ hh
    refine busRead_keeps K (sub rfl hA) ?_
    · assumption
  · assumption

theorem execPairLoWrite_keeps (K : Keeps P A) (hA : Sub 4758038875773861887 A) {a s} (h_s : P s) :
    Nx P (execPairLoWrite a s) := by
  unfold execPairLoWrite
  refine whileUp_keeps K (sub rfl hA) ?_ ?_
  · intro _ hh
    refine busWrite_keeps K (sub rfl hA) ?_
    · assumption
  · assumption

theorem execPairHiWrite_keeps (K : Keeps P A) (hA : Sub 4758038875773861887 A) {a s} (h_s : P s) :
    Nx P (execPairHiWrite a s) := by
  unfold execPairHiWrite
  refine whileUp_keeps K (sub rfl hA) ?_ ?_
  · intro _ hh
    refine busWrite_keeps K (sub rfl hA) ?_
    · assumption
  · assumption

theorem execKeyedAWrite_keeps (K : Keeps P A) (hA : Sub 4758038875773861887 A) {a s} (h_s : P s) :
    Nx P (execKeyedAWrite a s) := by
  unfold execKeyedAWrite
  refine whileUp_keeps K (sub rfl hA) ?_ ?_
  · intro _ hh
    refine busWrite_keeps K (sub rfl hA) ?_
    · assumption
  · assumption

theorem execKeyedBWrite_keeps (K : Keeps P A) (hA : Sub 4758038875773861887 A) {a s} (h_s : P s) :
    Nx P (execKeyedBWrite a s) := by
  unfold execKeyedBWrite
  refine whileUp_keeps K (sub rfl hA) ?_ ?_
  · intro _ hh
    refine busWrite_keeps K (sub rfl hA) ?_
    · assumption
  · assumption

theorem execKeyedPairWrite64_keeps (K : Keeps P A) (hA : Sub 4758038875773861887 A) {a be data s} (h_s : P s) :
    Nx P (execKeyedPairWrite64 a be data s) := by
  unfold execKeyedPairWrite64
  refine whileUp_keeps K (sub rfl hA) ?_ ?_
  · intro _ hh
    refine busWrite_keeps K (sub rfl hA) ?_
    · assumption
  · assumption

theorem execKeyedSequenceTimeout_keeps (K : Keeps P A) (hA : Sub 146334026969128963 A) {off path s} (h_s : P s) :
    Nx P (execKeyedSequenceTimeout off path s) := by
  unfold execKeyedSequenceTimeout
  refine whileUp_keeps K (sub rfl hA) ?_ ?_
  · intro _ hh
    refine keyExpire_keeps K (sub rfl hA) ?_
    · assumption
  · assumption

theorem execGdLockSet_keeps (K : Keeps P A) (hA : Sub 4758038875773861887 A) {a s} (h_s : P s) :
    Nx P (execGdLockSet a s) := by
  unfold execGdLockSet
  refine whileUp_keeps K (sub rfl hA) ?_ ?_
  · intro _ hh
    refine busWrite_keeps K (sub rfl hA) ?_
    · assumption
  · assumption

theorem execHstReset_keeps (K : Keeps P A) (hA : Sub 4758038875773861887 A) {a be data s} (h_s : P s) :
    Nx P (execHstReset a be data s) := by
  unfold execHstReset
  refine whileUp_keeps K (sub rfl hA) ?_ ?_
  · intro _ hh
    refine busWrite_keeps K (sub rfl hA) ?_
    · assumption
  · assumption

theorem execEvrRingEnable_keeps (K : Keeps P A) (hA : Sub 4758038875773861887 A) {a s} (h_s : P s) :
    Nx P (execEvrRingEnable a s) := by
  unfold execEvrRingEnable
  refine whileUp_keeps K (sub rfl hA) ?_ ?_
  · intro _ hh
    refine busWrite_keeps K (sub rfl hA) ?_
    · assumption
  · assumption

theorem execEvrConsWrite_keeps (K : Keeps P A) (hA : Sub 4758038875773861887 A) {a s} (h_s : P s) :
    Nx P (execEvrConsWrite a s) := by
  unfold execEvrConsWrite
  refine whileUp_keeps K (sub rfl hA) ?_ ?_
  · intro _ hh
    refine busWrite_keeps K (sub rfl hA) ?_
    · assumption
  · assumption

theorem execTtRecRingEnable_keeps (K : Keeps P A) (hA : Sub 4758038875773861887 A) {a s} (h_s : P s) :
    Nx P (execTtRecRingEnable a s) := by
  unfold execTtRecRingEnable
  refine whileUp_keeps K (sub rfl hA) ?_ ?_
  · intro _ hh
    refine busWrite_keeps K (sub rfl hA) ?_
    · assumption
  · assumption

theorem execTtRecConsWrite_keeps (K : Keeps P A) (hA : Sub 4758038875773861887 A) {a s} (h_s : P s) :
    Nx P (execTtRecConsWrite a s) := by
  unfold execTtRecConsWrite
  refine whileUp_keeps K (sub rfl hA) ?_ ?_
  · intro _ hh
    refine busWrite_keeps K (sub rfl hA) ?_
    · assumption
  · assumption

theorem execFtLrnRingEnable_keeps (K : Keeps P A) (hA : Sub 4758038875773861887 A) {a s} (h_s : P s) :
    Nx P (execFtLrnRingEnable a s) := by
  unfold execFtLrnRingEnable
  refine whileUp_keeps K (sub rfl hA) ?_ ?_
  · intro _ hh
    refine busWrite_keeps K (sub rfl hA) ?_
    · assumption
  · assumption

theorem execFtLrnConsWrite_keeps (K : Keeps P A) (hA : Sub 4758038875773861887 A) {a s} (h_s : P s) :
    Nx P (execFtLrnConsWrite a s) := by
  unfold execFtLrnConsWrite
  refine whileUp_keeps K (sub rfl hA) ?_ ?_
  · intro _ hh
    refine busWrite_keeps K (sub rfl hA) ?_
    · assumption
  · assumption

theorem execEmRConsWrite_keeps (K : Keeps P A) (hA : Sub 4758038875773861887 A) {a s} (h_s : P s) :
    Nx P (execEmRConsWrite a s) := by
  unfold execEmRConsWrite
  refine whileUp_keeps K (sub rfl hA) ?_ ?_
  · intro _ hh
    refine busWrite_keeps K (sub rfl hA) ?_
    · assumption
  · assumption

theorem execEvdRConsWrite_keeps (K : Keeps P A) (hA : Sub 4758038875773861887 A) {a s} (h_s : P s) :
    Nx P (execEvdRConsWrite a s) := by
  unfold execEvdRConsWrite
  refine whileUp_keeps K (sub rfl hA) ?_ ?_
  · intro _ hh
    refine busWrite_keeps K (sub rfl hA) ?_
    · assumption
  · assumption

theorem execNrDoorbell_keeps (K : Keeps P A) (hA : Sub 4758038875773861887 A) {a s} (h_s : P s) :
    Nx P (execNrDoorbell a s) := by
  unfold execNrDoorbell
  refine whileUp_keeps K (sub rfl hA) ?_ ?_
  · intro _ hh
    refine busWrite_keeps K (sub rfl hA) ?_
    · assumption
  · assumption

theorem execSnapTrigger_keeps (K : Keeps P A) (hA : Sub 4758038875773861887 A) {a s} (h_s : P s) :
    Nx P (execSnapTrigger a s) := by
  unfold execSnapTrigger
  refine whileUp_keeps K (sub rfl hA) ?_ ?_
  · intro _ hh
    refine busWrite_keeps K (sub rfl hA) ?_
    · assumption
  · assumption

theorem execSnapArm_keeps (K : Keeps P A) (hA : Sub 4758038875773861887 A) {a s} (h_s : P s) :
    Nx P (execSnapArm a s) := by
  unfold execSnapArm
  refine whileUp_keeps K (sub rfl hA) ?_ ?_
  · intro _ hh
    refine busWrite_keeps K (sub rfl hA) ?_
    · assumption
  · assumption

theorem execStampFifoPop_keeps (K : Keeps P A) (hA : Sub 4758038875773861887 A) {a s} (h_s : P s) :
    Nx P (execStampFifoPop a s) := by
  unfold execStampFifoPop
  refine whileUp_keeps K (sub rfl hA) ?_ ?_
  · intro _ hh
    refine busWrite_keeps K (sub rfl hA) ?_
    · assumption
  · assumption

theorem execEmFifoPop_keeps (K : Keeps P A) (hA : Sub 4758038875773861887 A) {a s} (h_s : P s) :
    Nx P (execEmFifoPop a s) := by
  unfold execEmFifoPop
  refine whileUp_keeps K (sub rfl hA) ?_ ?_
  · intro _ hh
    refine busWrite_keeps K (sub rfl hA) ?_
    · assumption
  · assumption

theorem execHtxRingEnable_keeps (K : Keeps P A) (hA : Sub 4758038875773861887 A) {a s} (h_s : P s) :
    Nx P (execHtxRingEnable a s) := by
  unfold execHtxRingEnable
  refine whileUp_keeps K (sub rfl hA) ?_ ?_
  · intro _ hh
    refine busWrite_keeps K (sub rfl hA) ?_
    · assumption
  · assumption

theorem execHtxTailWrite_keeps (K : Keeps P A) (hA : Sub 4758038875773861887 A) {a s} (h_s : P s) :
    Nx P (execHtxTailWrite a s) := by
  unfold execHtxTailWrite
  refine whileUp_keeps K (sub rfl hA) ?_ ?_
  · intro _ hh
    refine busWrite_keeps K (sub rfl hA) ?_
    · assumption
  · assumption

theorem execMbxDoorbell_keeps (K : Keeps P A) (hA : Sub 4758038875773861887 A) {a fs s} (h_s : P s) :
    Nx P (execMbxDoorbell a fs s) := by
  unfold execMbxDoorbell
  refine whileUp_keeps K (sub rfl hA) ?_ ?_
  · intro _ hh
    refine writeWord_keeps K (sub rfl hA) ?_
    · assumption
  · assumption

theorem execMbxQueueEnable_keeps (K : Keeps P A) (hA : Sub 4758038875773861887 A) {a s} (h_s : P s) :
    Nx P (execMbxQueueEnable a s) := by
  unfold execMbxQueueEnable
  refine whileUp_keeps K (sub rfl hA) ?_ ?_
  · intro _ hh
    refine busWrite_keeps K (sub rfl hA) ?_
    · assumption
  · assumption

theorem execMbxQueueDisable_keeps (K : Keeps P A) (hA : Sub 4758038875773861887 A) {a s} (h_s : P s) :
    Nx P (execMbxQueueDisable a s) := by
  unfold execMbxQueueDisable
  refine whileUp_keeps K (sub rfl hA) ?_ ?_
  · intro _ hh
    refine busWrite_keeps K (sub rfl hA) ?_
    · assumption
  · assumption

theorem execCqConsWrite_keeps (K : Keeps P A) (hA : Sub 4758038875773861887 A) {a s} (h_s : P s) :
    Nx P (execCqConsWrite a s) := by
  unfold execCqConsWrite
  refine whileUp_keeps K (sub rfl hA) ?_ ?_
  · intro _ hh
    refine busWrite_keeps K (sub rfl hA) ?_
    · assumption
  · assumption

theorem smbAnswer_keeps (K : Keeps P A) (hA : Sub 2147483648 A) {b s} (h_s : P s) :
    P (smbAnswer b s) := by
  unfold smbAnswer
  refine upd_bus K (sub rfl hA) ?_
  assumption

theorem smbNack_keeps (K : Keeps P A) (hA : Sub 2147483648 A) {b s} (h_s : P s) :
    P (smbNack b s) := by
  unfold smbNack
  refine upd_bus K (sub rfl hA) ?_
  assumption

theorem smbRead_keeps (K : Keeps P A) (hA : Sub 2147483648 A) {addr f s} (h_f : ∀ y0, P y0 → P (f y0)) (h_s : P s) :
    Nx P (smbRead addr f s) := by
  unfold smbRead
  refine whileUp_keeps K (sub rfl hA) ?_ ?_
  · intro _ hh
    refine ite_k ?_ ?_
    · refine h_f _ ?_
      refine smbNack_keeps K (sub rfl hA) ?_
      assumption
    · refine smbNack_keeps K (sub rfl hA) ?_
      assumption
  · assumption

theorem smbWrite_keeps (K : Keeps P A) (hA : Sub 2147483648 A) {addr good f s} (h_f : ∀ y0, P y0 → P (f y0)) (h_s : P s) :
    Nx P (smbWrite addr good f s) := by
  unfold smbWrite
  refine whileUp_keeps K (sub rfl hA) ?_ ?_
  · intro _ hh
    refine ite_k ?_ ?_
    · refine h_f _ ?_
      refine smbNack_keeps K (sub rfl hA) ?_
      assumption
    · refine smbNack_keeps K (sub rfl hA) ?_
      assumption
  · assumption

theorem execSmbusIdentityRead_keeps (K : Keeps P A) (hA : Sub 2147483648 A) {addr s} (h_s : P s) :
    Nx P (execSmbusIdentityRead addr s) := by
  unfold execSmbusIdentityRead
  refine smbRead_keeps K (sub rfl hA) ?_ ?_
  · intro _ hh
    refine smbAnswer_keeps K (sub rfl hA) ?_
    assumption
  · assumption

theorem execSmbusStatusRead_keeps (K : Keeps P A) (hA : Sub 2147483648 A) {addr s} (h_s : P s) :
    Nx P (execSmbusStatusRead addr s) := by
  unfold execSmbusStatusRead
  refine smbRead_keeps K (sub rfl hA) ?_ ?_
  · intro _ hh
    refine smbAnswer_keeps K (sub rfl hA) ?_
    assumption
  · assumption

theorem execSmbusTemperatureRead_keeps (K : Keeps P A) (hA : Sub 2147483648 A) {addr high low s} (h_s : P s) :
    Nx P (execSmbusTemperatureRead addr high low s) := by
  unfold execSmbusTemperatureRead
  refine smbRead_keeps K (sub rfl hA) ?_ ?_
  · intro _ hh
    refine smbAnswer_keeps K (sub rfl hA) ?_
    assumption
  · assumption

theorem execSmbusOffsetWrite_keeps (K : Keeps P A) (hA : Sub 2147483648 A) {addr good off s} (h_s : P s) :
    Nx P (execSmbusOffsetWrite addr good off s) := by
  unfold execSmbusOffsetWrite
  refine smbWrite_keeps K (sub rfl hA) ?_ ?_
  · intro _ hh
    refine upd_bus K (sub rfl hA) ?_
    assumption
  · assumption

theorem execSmbusRegisterRead_keeps (K : Keeps P A) (hA : Sub 2451051136275980289 A) {addr s} (h_s : P s) :
    Nx P (execSmbusRegisterRead addr s) := by
  unfold execSmbusRegisterRead
  refine smbRead_keeps K (sub rfl hA) ?_ ?_
  · intro _ hh
    extract_lets +onlyGivenNames -merge -underBinder a1
    try clear_value a1
    refine ite_k ?_ ?_
    · refine busRead_keeps K (sub rfl hA) ?_
      assumption
    · refine smbAnswer_keeps K (sub rfl hA) ?_
      refine accessFault_keeps K (sub rfl hA) ?_
      assumption
  · assumption

theorem smbTake_keeps (K : Keeps P A) (hA : Sub 6442450944 A) {e s} (h_s : P s) :
    P (smbTake e s) := by
  unfold smbTake
  extract_lets +onlyGivenNames -merge -underBinder s1
  try clear_value s1
  extract_lets +onlyGivenNames -merge -underBinder s2
  try clear_value s2
  extract_lets +onlyGivenNames -merge -underBinder s3
  have hs3 : P s3 := by
    refine upd_bus_mbx K (sub rfl hA) ?_
    assumption
  try clear_value s3
  split
  · refine upd_mbx K (sub rfl hA) ?_
    assumption
  · assumption

theorem execSmbusCommandWrite_keeps (K : Keeps P A) (hA : Sub 6442450944 A) {addr good e s} (h_s : P s) :
    Nx P (execSmbusCommandWrite addr good e s) := by
  unfold execSmbusCommandWrite
  refine smbWrite_keeps K (sub rfl hA) ?_ ?_
  · intro _ hh
    refine ite_k ?_ ?_
    · refine smbNack_keeps K (sub rfl hA) ?_
      assumption
    · refine smbTake_keeps K (sub rfl hA) ?_
      assumption
  · assumption

theorem execSmbusCommandStatus_keeps (K : Keeps P A) (hA : Sub 2147483648 A) {addr s} (h_s : P s) :
    Nx P (execSmbusCommandStatus addr s) := by
  unfold execSmbusCommandStatus
  refine smbRead_keeps K (sub rfl hA) ?_ ?_
  · intro _ hh
    refine smbAnswer_keeps K (sub rfl hA) ?_
    assumption
  · assumption

theorem serveOddSmb_keeps (K : Keeps P A) (hA : Sub 4620693225333587972 A) {s} (h_s : P s) :
    P (serveOddSmb s) := by
  unfold serveOddSmb
  refine ite_k ?_ ?_
  · split
    · extract_lets +onlyGivenNames -merge -underBinder s1 r2
      try clear_value s1
      have hr2 : P r2 := by
        refine upd_mbx K (sub rfl hA) ?_
        assumption
      try clear_value r2
      extract_lets +onlyGivenNames -merge -underBinder r3
      try clear_value r3
      refine finish_keeps K (sub rfl hA) ?_
      assumption
    · assumption
  · assumption

end Sys2Proof.Machine
end

