-- ==== Sys2Proof/Laws/KeepImport.lean ====
section
/-! SUPPORT. What the operations of Sys2Proof/Machine/Import.lean keep (Sys2Proof/Laws/Keeps.lean): the mask in each lemma names the parts
of the state that the operation can touch. -/

set_option Elab.async false

namespace Sys2Proof.Machine

variable {P : State → Prop} {A : Nat}

theorem readRecord_keeps (K : Keeps P A) (hA : Sub 4611686018427387904 A) {s} (h_s : P s) :
    P (readRecord s) := by
  unfold readRecord
  extract_lets +onlyGivenNames -merge -underBinder l1
  try clear_value l1
  refine ite_k ?_ ?_
  · extract_lets +onlyGivenNames -merge -underBinder ss2
    try clear_value ss2
    refine upd_boot K (sub rfl hA) ?_
    assumption
  · refine upd_boot K (sub rfl hA) ?_
    assumption

end Sys2Proof.Machine
end

