-- ==== Sys2Proof/Laws/KeepBringup.lean ====
section
/-! SUPPORT. What the operations of Sys2Proof/Machine/Bringup.lean keep (Sys2Proof/Laws/Keeps.lean): the mask in each lemma names the parts
of the state that the operation can touch. -/

set_option Elab.async false

namespace Sys2Proof.Machine

variable {P : State → Prop} {A : Nat}

theorem execEventRecordWrite_keeps (K : Keeps P A) (hA : Sub 145208128270245889 A) {s} (h_s : P s) :
    Nx P (execEventRecordWrite s) := by
  unfold execEventRecordWrite
  split
  · refine next_k ?_
    assumption
  · refine iteN_k ?_ ?_
    · refine next_k ?_
      assumption
    · refine next_k ?_
      refine evrPass_keeps K (sub rfl hA) ?_
      · refine upd_evu K (sub rfl hA) ?_
        assumption

theorem execEventRecordLate_keeps (K : Keeps P A) (hA : Sub 145208128270245889 A) {s} (h_s : P s) :
    Nx P (execEventRecordLate s) := by
  unfold execEventRecordLate
  split
  · refine next_k ?_
    assumption
  · refine iteN_k ?_ ?_
    · refine next_k ?_
      assumption
    · refine next_k ?_
      refine evrPass_keeps K (sub rfl hA) ?_
      · refine upd_evu K (sub rfl hA) ?_
        assumption

theorem execRingHoldoffExpiry_keeps (K : Keeps P A) (hA : Sub 3221229829 A) {ring s} (h_s : P s) :
    Nx P (execRingHoldoffExpiry ring s) := by
  unfold execRingHoldoffExpiry
  refine next_k ?_
  refine ite_k ?_ ?_
  · refine ringSignal_k K 0 ring_evr (sub rfl hA) ?_
    assumption
  · refine ite_k ?_ ?_
    · refine ringSignal_k K 2 ring_cq (sub rfl hA) ?_
      assumption
    · refine ite_k ?_ ?_
      · refine ringSignal_k K 8 ring_tt (sub rfl hA) ?_
        assumption
      · refine ite_k ?_ ?_
        · refine ringSignal_k K 12 ring_learn (sub rfl hA) ?_
          assumption
        · refine ite_k ?_ ?_
          · refine nrSignal_keeps K (sub rfl hA) ?_
            · assumption
          · refine ite_k ?_ ?_
            · refine emSignal_keeps K (sub rfl hA) ?_
              · assumption
            · assumption

theorem hostIfReset_keeps (K : Keeps P A) (hA : Sub 2251807330009093 A) {s} (h_s : P s) : P (hostIfReset s) := by
  unfold hostIfReset
  refine upd_rings_bus_mbx_netRings K (sub rfl hA) (K.drop s _ ?_ h_s)
  intro e he
  have he' : isHostIf (e.1 / 32) = true := by simpa using he
  generalize e.1 / 32 = a at he'
  simp only [isHostIf, Bool.or_eq_true, Bool.and_eq_true, decide_eq_true_eq] at he'
  rcases he' with (he' | he') | he'
  · rw [regPart_0 (Nat.zero_le a) (by omega)]
    exact hA.bit rfl
  · rw [regPart_2 (by omega) (by omega)]
    exact hA.bit rfl
  · rw [regPart_17 (by omega) (by omega)]
    exact hA.bit rfl

theorem execHostIfReset_keeps (K : Keeps P A) (hA : Sub 2251807330009093 A) {s} (h_s : P s) :
    Nx P (execHostIfReset s) := by
  unfold execHostIfReset
  refine whileUp_keeps K (sub rfl hA) ?_ ?_
  · intro _ hh
    refine hostIfReset_keeps K (sub rfl hA) ?_
    · assumption
  · assumption

theorem execPciePerst_keeps (K : Keeps P A) (hA : Sub 2251807330009093 A) {s} (h_s : P s) :
    Nx P (execPciePerst s) := by
  unfold execPciePerst
  refine whileUp_keeps K (sub rfl hA) ?_ ?_
  · intro _ hh
    refine hostIfReset_keeps K (sub rfl hA) ?_
    · assumption
  · assumption

theorem execLeinnarRestart_keeps (K : Keeps P A) (hA : Sub 720580341118533633 A) {s} (h_s : P s) :
    Nx P (execLeinnarRestart s) := by
  unfold execLeinnarRestart
  refine iteN_k ?_ ?_
  · refine next_k ?_
    assumption
  · refine iteN_k ?_ ?_
    · refine next_k ?_
      refine trialFails_keeps K (sub rfl hA) ?_
      · refine upd_mp_fw K (sub rfl hA) ?_
        assumption
    · extract_lets +onlyGivenNames -merge -underBinder s1
      have hs1 : P s1 := by
        refine leinnarStop_keeps K (sub rfl hA) ?_
        · refine setPhase_keeps K (sub rfl hA) ?_
          · refine endTrial_keeps K (sub rfl hA) ?_
            · assumption
      try clear_value s1
      refine next_k ?_
      refine upd_fw K (sub rfl hA) ?_
      assumption

theorem runsFrom_keeps (K : Keeps P A) (hA : Sub 576465153042677761 A) {n s} (h_s : P s) :
    P (runsFrom n s) := by
  unfold runsFrom
  extract_lets +onlyGivenNames -merge -underBinder other1 s2 src3 s4 s5 src6 src7 s8
  try clear_value other1
  have hs2 : P s2 := by
    refine ite_k ?_ ?_
    · refine slotState_keeps K (sub rfl hA) ?_
      · assumption
    · assumption
  try clear_value s2
  try clear_value src3
  have hs4 : P s4 := by
    refine putSlot_keeps K (sub rfl hA) ?_
    · assumption
  try clear_value s4
  have hs5 : P s5 := by
    refine setB_k K 0 part_hstStatusFwRun (sub rfl hA) ?_
    refine setF_k K 23 part_fwStateRun (sub rfl hA) ?_
    assumption
  try clear_value s5
  try clear_value src6
  try clear_value src7
  have hs8 : P s8 := by
    refine upd_dpll_fw K (sub rfl hA) ?_
    assumption
  try clear_value s8
  refine ite_k ?_ ?_
  · assumption
  · extract_lets +onlyGivenNames -merge -underBinder src9 s10
    try clear_value src9
    have hs10 : P s10 := by
      refine slotState_keeps K (sub rfl hA) ?_
      · refine upd_fw K (sub rfl hA) ?_
        assumption
    try clear_value s10
    refine beginTrial_keeps K (sub rfl hA) ?_
    · refine setPhase_keeps K (sub rfl hA) ?_
      · assumption

theorem heldLost_keeps (K : Keeps P A) (hA : Sub 4620693225333587972 A) {s} (h_s : P s) :
    P (heldLost s) := by
  unfold heldLost
  refine resumeHeld_keeps K (sub rfl hA) ?_
  assumption

theorem longAfterRestart_keeps (K : Keeps P A) (hA : Sub 5054132005577209479 A) {s} (h_s : P s) :
    P (longAfterRestart s) := by
  unfold longAfterRestart
  split
  · assumption
  · extract_lets +onlyGivenNames -merge -underBinder s1
    have hs1 : P s1 := by
      refine foldl_k ?_ (fun s0 k0 hs0 => ?_)
      · assumption
      · refine mpRead_keeps K (sub rfl hA) ?_
        assumption
    try clear_value s1
    refine ite_k ?_ ?_
    · refine upd_mbx K (sub rfl hA) ?_
      assumption
    · refine longEnds_keeps K (sub rfl hA) ?_
      assumption

theorem execLeinnarRestartDone_keeps (K : Keeps P A) (hA : Sub 5656511717289426879 A) {s} (h_s : P s) :
    Nx P (execLeinnarRestartDone s) := by
  unfold execLeinnarRestartDone
  refine iteN_k ?_ ?_
  · refine next_k ?_
    assumption
  · refine iteN_k ?_ ?_
    · refine next_k ?_
      refine startFails_keeps K (sub rfl hA) ?_
      assumption
    · extract_lets +onlyGivenNames -merge -underBinder s1 s2
      have hs1 : P s1 := by
        refine runsFrom_keeps K (sub rfl hA) ?_
        assumption
      try clear_value s1
      have hs2 : P s2 := by
        refine ite_k ?_ ?_
        · refine calReload_keeps K (sub rfl hA) ?_
          assumption
        · refine ite_k ?_ ?_
          · refine calStartup_keeps K (sub rfl hA) ?_
            assumption
          · refine calReload_keeps K (sub rfl hA) ?_
            assumption
      try clear_value s2
      refine next_k ?_
      refine emptyEnds_keeps K (sub rfl hA) ?_
      refine emptyEnds_keeps K (sub rfl hA) ?_
      refine longAfterRestart_keeps K (sub rfl hA) ?_
      refine heldLost_keeps K (sub rfl hA) ?_
      assumption

theorem underReset_keeps (K : Keeps P A) (hA : Sub 1267650600228229401496703205376 A) {s} (h_s : P s) : P (underReset s) :=
  K.again s (hA.bit (Nat.testBit_two_pow_self (n := 100))) h_s

theorem mainReset_keeps (K : Keeps P A) (hA : Sub 1267650600232841087515132690434 A) {cause s} (h_s : P s) :
    P (mainReset cause s) := by
  unfold mainReset
  extract_lets +onlyGivenNames -merge -underBinder c1
  try clear_value c1
  refine showAo_keeps K (sub rfl hA) ?_
  · refine showSec_keeps K (sub rfl hA) ?_
    · refine underReset_keeps K (sub rfl hA) ?_
      · refine upd_boot K (sub rfl hA) ?_
        assumption

theorem execMainResetAssert_keeps (K : Keeps P A) (hA : Sub 1267650600232841087515132690434 A) {cause s} (h_s : P s) :
    Nx P (execMainResetAssert cause s) := by
  unfold execMainResetAssert
  extract_lets +onlyGivenNames -merge -underBinder ok1
  try clear_value ok1
  refine next_k ?_
  refine ite_k ?_ ?_
  · refine mainReset_keeps K (sub rfl hA) ?_
    · assumption
  · assumption

theorem execThermalReset_keeps (K : Keeps P A) (hA : Sub 1267650600232841087515132690434 A) {s} (h_s : P s) :
    Nx P (execThermalReset s) := by
  unfold execThermalReset
  refine next_k ?_
  refine mainReset_keeps K (sub rfl hA) ?_
  · assumption

theorem programFlash_keeps (K : Keeps P A) (hA : Sub 576460752303423488 A) {b s} (h_s : P s) :
    P (programFlash b s) := by
  unfold programFlash
  refine ite_k ?_ ?_
  · refine upd_fw K (sub rfl hA) ?_
    assumption
  · assumption

theorem readStraps_keeps (K : Keeps P A) (hA : Sub 8070450532247928832 A) {b s} (h_s : P s) :
    P (readStraps b s) := by
  unfold readStraps
  extract_lets +onlyGivenNames -merge -underBinder lost1 owner2 jtagOff3
  try clear_value lost1
  try clear_value owner2
  try clear_value jtagOff3
  refine upd_sec_ao_boot K (sub rfl hA) ?_
  assumption

theorem execMainResetRelease_keeps (K : Keeps P A) (hA : Sub 1267650600236876319378334810146 A) {b s} (h_s : P s) :
    Nx P (execMainResetRelease b s) := by
  unfold execMainResetRelease
  refine iteN_k ?_ ?_
  · refine next_k ?_
    assumption
  · extract_lets +onlyGivenNames -merge -underBinder s1 s2 s3
    have hs1 : P s1 := by
      refine readRecord_keeps K (sub rfl hA) ?_
      refine readStraps_keeps K (sub rfl hA) ?_
      refine programFlash_keeps K (sub rfl hA) ?_
      refine underReset_keeps K (sub rfl hA) ?_
      assumption
    try clear_value s1
    have hs2 : P s2 := by
      refine foldl_k ?_ (fun s0 k0 hs0 => ?_)
      · refine setF_k K 23 part_fwStateNext (sub rfl hA) ?_
        assumption
      · refine showSlot_keeps K (sub rfl hA) ?_
        assumption
    try clear_value s2
    have hs3 : P s3 := by
      refine setB_k K 5 part_plStatusSearch (sub rfl hA) ?_
      assumption
    try clear_value s3
    refine next_k ?_
    refine showAo_keeps K (sub rfl hA) ?_
    refine showSec_keeps K (sub rfl hA) ?_
    refine upd_refs_dpll_fw K (sub rfl hA) ?_
    assumption

theorem testFails_keeps (K : Keeps P A) (hA : Sub 144115207940349953 A) {w s} (h_s : P s) :
    P (testFails w s) := by
  unfold testFails
  refine ite_k ?_ ?_
  · refine quarChip_keeps K (sub rfl hA) ?_
    · assumption
  · refine ite_k ?_ ?_
    · refine quarHold_keeps K (sub rfl hA) ?_
      · assumption
    · refine mpStick_keeps K (sub rfl hA) ?_
      · assumption

theorem memoryTests_keeps (K : Keeps P A) (hA : Sub 144115207940874241 A) {t s} (h_s : P s) :
    P (memoryTests t s) := by
  unfold memoryTests
  extract_lets +onlyGivenNames -merge -underBinder ws1 worst2 fails3
  try clear_value ws1
  try clear_value worst2
  split
  · try dsimp only [fails3]
    try (conv => zeta)
    refine raiseEv_keeps K (sub rfl hA) ?_
    · assumption
  · try dsimp only [fails3]
    try (conv => zeta)
    refine raiseEv_keeps K (sub rfl hA) ?_
    · assumption
  · refine setB_k K 19 part_mpStatusBistOk (sub rfl hA) ?_
    refine foldl_k ?_ (fun s0 k0 hs0 => ?_)
    · assumption
    · refine testFails_keeps K (sub rfl hA) ?_
      · assumption

theorem moduleStarts_keeps (K : Keeps P A) (hA : Sub 5919948750467178503 A) {test s} (h_s : P s) :
    P (moduleStarts test s) := by
  unfold moduleStarts
  extract_lets +onlyGivenNames -merge -underBinder s1 due2 s3
  have hs1 : P s1 := by
    refine ite_k ?_ ?_
    · assumption
    · refine ite_k ?_ ?_
      · refine evdPasses_keeps K (sub rfl hA) ?_
        assumption
      · refine evdFails_keeps K (sub rfl hA) ?_
        assumption
  try clear_value s1
  try clear_value due2
  try clear_value s3
  extract_lets +onlyGivenNames -merge -underBinder s4
  have hs4 : P s4 := by
    refine foldl_k ?_ (fun s0 k0 hs0 => ?_)
    · refine upd_sec K (sub rfl hA) ?_
      assumption
    · refine tamperActs_keeps K (sub rfl hA) ?_
      assumption
  try clear_value s4
  refine ite_k ?_ ?_
  · assumption
  · refine openEpoch_keeps K (sub rfl hA) ?_
    assumption

theorem firstSegment_keeps (K : Keeps P A) (hA : Sub 34359738376 A) {d t s} (h_s : P s) :
    P (firstSegment d t s) := by
  unfold firstSegment
  refine openSegment_keeps K (sub rfl hA) ?_
  · refine State.setDom_keeps K (sub rfl hA) ?_
    · assumption

theorem execFirstSegmentOpen_keeps (K : Keeps P A) (hA : Sub 8225791794042707983 A) {tick t s} (h_s : P s) :
    Nx P (execFirstSegmentOpen tick t s) := by
  unfold execFirstSegmentOpen
  refine iteN_k ?_ ?_
  · refine next_k ?_
    assumption
  · extract_lets +onlyGivenNames -merge -underBinder t01 src2 src3 s4 s5
    try clear_value t01
    try clear_value src2
    try clear_value src3
    have hs4 : P s4 := by
      refine upd_ao_boot K (sub rfl hA) ?_
      assumption
    try clear_value s4
    have hs5 : P s5 := by
      refine firstSegment_keeps K (sub rfl hA) ?_
      · refine firstSegment_keeps K (sub rfl hA) ?_
        · assumption
    try clear_value s5
    refine next_k ?_
    refine moduleStarts_keeps K (sub rfl hA) ?_
    · refine memoryTests_keeps K (sub rfl hA) ?_
      · refine showAo_keeps K (sub rfl hA) ?_
        · assumption

theorem execReady_keeps (K : Keeps P A) (hA : Sub 4611686021111742465 A) {ddr s} (h_s : P s) :
    Nx P (execReady ddr s) := by
  unfold execReady
  refine iteN_k ?_ ?_
  · refine next_k ?_
    assumption
  · extract_lets +onlyGivenNames -merge -underBinder b1 s2 missed3 s4
    try clear_value b1
    have hs2 : P s2 := by
      refine upd_boot K (sub rfl hA) ?_
      assumption
    try clear_value s2
    try clear_value missed3
    have hs4 : P s4 := by
      refine ite_k ?_ ?_
      · refine raiseEv_keeps K (sub rfl hA) ?_
        assumption
      · assumption
    try clear_value s4
    refine next_k ?_
    refine raiseBit_k K 0 part_hstIrqStatusReadyChg (sub rfl hA) ?_
    refine setB_k K 0 part_hstStatusReady (sub rfl hA) ?_
    assumption

theorem execTapReset_keeps (K : Keeps P A) (hA : Sub 0 A) {s} (h_s : P s) :
    Nx P (execTapReset s) := by
  unfold execTapReset
  refine next_k ?_
  assumption

theorem follow_keeps (K : Keeps P A) (hA : Sub 146357152289482089 A) {s} (h_s : P s) :
    P (follow s) := by
  unfold follow
  extract_lets +onlyGivenNames -merge -underBinder s1 s2 s3 s4
  have hs1 : P s1 := by
    refine rateTick_keeps K (sub rfl hA) ?_
    refine rateTick_keeps K (sub rfl hA) ?_
    assumption
  try clear_value s1
  have hs2 : P s2 := by
    refine foldl_k ?_ (fun s0 k0 hs0 => ?_)
    · assumption
    · refine prbsTick_keeps K (sub rfl hA) ?_
      refine showPi_keeps K (sub rfl hA) ?_
      assumption
  try clear_value s2
  have hs3 : P s3 := by
    refine thresholdTick_keeps K (sub rfl hA) ?_
    assumption
  try clear_value s3
  have hs4 : P s4 := by
    refine foldl_k ?_ (fun s0 k0 hs0 => ?_)
    · assumption
    · refine showHoldMin_keeps K (sub rfl hA) ?_
      assumption
  try clear_value s4
  refine admitOld_keeps K (sub rfl hA) ?_
  refine learnSecond_keeps K (sub rfl hA) ?_
  refine inputsTick_keeps K (sub rfl hA) ?_
  refine mgmtDrain_keeps K (sub rfl hA) ?_
  refine servoTick_keeps K (sub rfl hA) ?_
  refine rollRates_keeps K (sub rfl hA) ?_
  refine showSpill_keeps K (sub rfl hA) ?_
  refine showTrial_keeps K (sub rfl hA) ?_
  assumption

theorem tick_keeps (K : Keeps P A) (hA : Sub 4767050370039768429 A) {s} (h_s : P s) :
    P (tick s) := by
  unfold tick
  refine ite_k ?_ ?_
  · assumption
  · refine serveOddSmb_keeps K (sub rfl hA) ?_
    refine serveOdd_keeps K (sub rfl hA) ?_
    refine serveOdd_keeps K (sub rfl hA) ?_
    refine ackMet_keeps K (sub rfl hA) ?_
    refine follow_keeps K (sub rfl hA) ?_
    refine upd_dtt K (sub rfl hA) ?_
    assumption

end Sys2Proof.Machine
end

