-- ==== Sys2Proof/Laws/KeepDpll.lean ====
section
/-! SUPPORT. What the operations of Sys2Proof/Machine/Dpll.lean keep (Sys2Proof/Laws/Keeps.lean): the mask in each lemma names the parts
of the state that the operation can touch. -/

set_option Elab.async false

namespace Sys2Proof.Machine

variable {P : State → Prop} {A : Nat}

theorem showFine_keeps (K : Keeps P A) (hA : Sub 2684354593 A) {fine margin s} (h_s : P s) :
    P (showFine fine margin s) := by
  unfold showFine
  extract_lets +onlyGivenNames -merge -underBinder s1
  have hs1 : P s1 := by
    refine setF_k K 5 part_plStatusFine (sub rfl hA) ?_
    assumption
  try clear_value s1
  refine ite_k ?_ ?_
  · refine raiseEv_keeps K (sub rfl hA) ?_
    · refine setB_k K 5 part_plStatusMargin (sub rfl hA) ?_
      assumption
  · assumption

theorem lockLost_keeps (K : Keeps P A) (hA : Sub 288247968337756160 A) {s} (h_s : P s) :
    P (lockLost s) := by
  unfold lockLost
  refine upd_em_cal K (sub rfl hA) ?_
  assumption

theorem loseInner_keeps (K : Keeps P A) (hA : Sub 434586393353396793 A) {cause s} (h_s : P s) :
    P (loseInner cause s) := by
  unfold loseInner
  refine ite_k ?_ ?_
  · assumption
  · extract_lets +onlyGivenNames -merge -underBinder s1 s2 s3 s4
    have hs1 : P s1 := by
      refine setB_k K 5 part_plStatusSearch (sub rfl hA) ?_
      refine setB_k K 5 part_plStatusInnerLock (sub rfl hA) ?_
      assumption
    try clear_value s1
    have hs2 : P s2 := by
      refine lockLost_keeps K (sub rfl hA) ?_
      · assumption
    try clear_value s2
    have hs3 : P s3 := by
      refine raiseEv_keeps K (sub rfl hA) ?_
      · assumption
    try clear_value s3
    have hs4 : P s4 := by
      refine foldl_k ?_ (fun s0 k0 hs0 => ?_)
      · assumption
      · refine setQc_keeps K (sub rfl hA) ?_
        · refine setB_k K 5 part_plDStatusFacq (sub rfl hA) ?_
          refine dropLock_keeps K (sub rfl hA) ?_
          · assumption
    try clear_value s4
    refine outsRefresh_keeps K (sub rfl hA) ?_
    · refine stampStatusAll_keeps K (sub rfl hA) ?_
      · assumption

theorem leaveFault_keeps (K : Keeps P A) (hA : Sub 146338459375378489 A) {d s} (h_s : P s) :
    P (leaveFault d s) := by
  unfold leaveFault
  refine ite_k ?_ ?_
  · assumption
  · refine ite_k ?_ ?_
    · refine setQc_keeps K (sub rfl hA) ?_
      assumption
    · extract_lets +onlyGivenNames -merge -underBinder s1
      have hs1 : P s1 := by
        refine readWindow_keeps K (sub rfl hA) ?_
        assumption
      try clear_value s1
      split
      · refine setQc_keeps K (sub rfl hA) ?_
        refine takeFreq_keeps K (sub rfl hA) ?_
        refine State.setRd_keeps K (sub rfl hA) ?_
        assumption
      · refine setQc_keeps K (sub rfl hA) ?_
        assumption

theorem retuneDone_keeps (K : Keeps P A) (hA : Sub 4620693225333587972 A) {s} (h_s : P s) :
    P (retuneDone s) := by
  unfold retuneDone
  refine ite_k ?_ ?_
  · refine resumeHeld_keeps K (sub rfl hA) ?_
    assumption
  · assumption

theorem execInnerLock_keeps (K : Keeps P A) (hA : Sub 4767031678266516029 A) {fine margin s} (h_s : P s) :
    Nx P (execInnerLock fine margin s) := by
  unfold execInnerLock
  refine iteN_k ?_ ?_
  · refine next_k ?_
    assumption
  · extract_lets +onlyGivenNames -merge -underBinder s1 s2 s3 s4 s5 s6
    have hs1 : P s1 := by
      refine setB_k K 5 part_plStatusSysxoOk (sub rfl hA) ?_
      refine setB_k K 5 part_plStatusInnerLock (sub rfl hA) ?_
      assumption
    try clear_value s1
    try clear_value s2
    have hs3 : P s3 := by
      refine upd_dpll K (sub rfl hA) ?_
      assumption
    try clear_value s3
    have hs4 : P s4 := by
      refine raiseEv_keeps K (sub rfl hA) ?_
      assumption
    try clear_value s4
    have hs5 : P s5 := by
      refine showFine_keeps K (sub rfl hA) ?_
      assumption
    try clear_value s5
    have hs6 : P s6 := by
      refine foldl_k ?_ (fun s0 k0 hs0 => ?_)
      · assumption
      · refine ite_k ?_ ?_
        · refine setB_k K 5 part_plOsynStatusRetune (sub rfl hA) ?_
          assumption
        · assumption
    try clear_value s6
    extract_lets +onlyGivenNames -merge -underBinder s7
    have hs7 : P s7 := by
      refine retuneDone_keeps K (sub rfl hA) ?_
      refine outsRestart_keeps K (sub rfl hA) ?_
      assumption
    try clear_value s7
    refine next_k ?_
    refine stampStatusAll_keeps K (sub rfl hA) ?_
    refine tstatFollow_keeps K (sub rfl hA) ?_
    refine evaluateAll_keeps K (sub rfl hA) ?_
    refine leaveFault_keeps K (sub rfl hA) ?_
    refine leaveFault_keeps K (sub rfl hA) ?_
    assumption

theorem execInnerLockLoss_keeps (K : Keeps P A) (hA : Sub 434586393353396793 A) {s} (h_s : P s) :
    Nx P (execInnerLockLoss s) := by
  unfold execInnerLockLoss
  refine next_k ?_
  refine loseInner_keeps K (sub rfl hA) ?_
  · assumption

theorem execSysxoFault_keeps (K : Keeps P A) (hA : Sub 434586393353396793 A) {missing s} (h_s : P s) :
    Nx P (execSysxoFault missing s) := by
  unfold execSysxoFault
  refine next_k ?_
  refine outsRefresh_keeps K (sub rfl hA) ?_
  · refine loseInner_keeps K (sub rfl hA) ?_
    · refine setB_k K 5 part_plStatusSysxoOk (sub rfl hA) ?_
      assumption

theorem execBandSearchDone_keeps (K : Keeps P A) (hA : Sub 4398046511136 A) {band s} (h_s : P s) :
    Nx P (execBandSearchDone band s) := by
  unfold execBandSearchDone
  extract_lets +onlyGivenNames -merge -underBinder now1
  try clear_value now1
  refine iteN_k ?_ ?_
  · extract_lets +onlyGivenNames -merge -underBinder s2
    try clear_value s2
    extract_lets +onlyGivenNames -merge -underBinder s3
    have hs3 : P s3 := by
      refine upd_dpll K (sub rfl hA) ?_
      assumption
    try clear_value s3
    refine next_k ?_
    refine setB_k K 5 part_plStatusMargin (sub rfl hA) ?_
    refine setF_k K 5 part_plStatusBand (sub rfl hA) ?_
    refine setB_k K 5 part_plStatusSearch (sub rfl hA) ?_
    assumption
  · refine next_k ?_
    assumption

theorem clampNoted_keeps (K : Keeps P A) (hA : Sub 146334026969128963 A) {was now off requested applied s} (h_s : P s) :
    P (clampNoted was now off requested applied s) := by
  unfold clampNoted
  refine ite_k ?_ ?_
  · refine guardViolation_keeps K (sub rfl hA) ?_
    assumption
  · assumption

theorem slewUpdate_keeps (K : Keeps P A) (hA : Sub 146334061328867339 A) {d t0 t1 s} (h_s : P s) :
    P (slewUpdate d t0 t1 s) := by
  unfold slewUpdate
  extract_lets +onlyGivenNames -merge -underBinder dm1 b2 r3
  try clear_value dm1
  try clear_value b2
  try clear_value r3
  refine ite_k ?_ ?_
  · refine State.setDom_keeps K (sub rfl hA) ?_
    assumption
  · extract_lets +onlyGivenNames -merge -underBinder clamped4 s5 r'6 moved7 back'8 dm9 s10
    try clear_value clamped4
    have hs5 : P s5 := by
      refine clampNoted_keeps K (sub rfl hA) ?_
      assumption
    try clear_value s5
    try clear_value r'6
    try clear_value moved7
    try clear_value back'8
    try clear_value dm9
    have hs10 : P s10 := by
      refine State.setDom_keeps K (sub rfl hA) ?_
      assumption
    try clear_value s10
    refine setSlewRem_keeps K (sub rfl hA) ?_
    assumption

theorem xferUpdate_keeps (K : Keeps P A) (hA : Sub 37044092969 A) {t0 t1 s} (h_s : P s) :
    P (xferUpdate t0 t1 s) := by
  unfold xferUpdate
  extract_lets +onlyGivenNames -merge -underBinder d1
  try clear_value d1
  refine ite_k ?_ ?_
  · assumption
  · extract_lets +onlyGivenNames -merge -underBinder r2 r'3 m4 s5 s6 o7 s8 s9
    try clear_value r2
    try clear_value r'3
    try clear_value m4
    have hs5 : P s5 := by
      refine setNtw_keeps K (sub rfl hA) ?_
      assumption
    try clear_value s5
    try clear_value s6
    have ho7 : P o7 := by
      refine setRate_keeps K (sub rfl hA) ?_
      refine State.setDom_keeps K (sub rfl hA) ?_
      assumption
    try clear_value o7
    try clear_value s8
    try clear_value s9
    extract_lets +onlyGivenNames -merge -underBinder s10 s11
    have hs10 : P s10 := by
      refine State.setDom_keeps K (sub rfl hA) ?_
      assumption
    try clear_value s10
    have hs11 : P s11 := by
      refine setRate_keeps K (sub rfl hA) ?_
      assumption
    try clear_value s11
    refine setB_k K 3 part_tbStateXfer (sub rfl hA) ?_
    assumption

theorem steerNow_keeps (K : Keeps P A) (hA : Sub 146334026969128963 A) {d s} (h_s : P s) :
    P (steerNow d s).2 := by
  unfold steerNow
  extract_lets +onlyGivenNames -merge -underBinder b1 r2 v3 clamped4
  try clear_value b1
  try clear_value r2
  try clear_value v3
  try clear_value clamped4
  refine mk2_k ?_
  refine State.setRd_keeps K (sub rfl hA) ?_
  refine clampNoted_keeps K (sub rfl hA) ?_
  assumption

theorem servedUpdate_keeps (K : Keeps P A) (hA : Sub 146334061328867363 A) {s} (h_s : P s) :
    P (servedUpdate s) := by
  unfold servedUpdate
  extract_lets +onlyGivenNames -merge -underBinder d1
  try clear_value d1
  refine ite_k ?_ ?_
  · refine setNtw_keeps K (sub rfl hA) ?_
    assumption
  · refine ite_k ?_ ?_
    · extract_lets +onlyGivenNames -merge -underBinder v2 s3
      have hv2 : P v2.2 := by
        refine ite2_k ?_ ?_
        · refine steerNow_keeps K (sub rfl hA) ?_
          assumption
        · refine mk2_k ?_
          assumption
      try clear_value v2
      have hs3 : P s3 := by
        refine setNtw_keeps K (sub rfl hA) ?_
        assumption
      try clear_value s3
      refine rebaseLoop_keeps K (sub rfl hA) ?_
      assumption
    · refine ite_k ?_ ?_
      · refine setNtw_keeps K (sub rfl hA) ?_
        assumption
      · refine rebaseLoop_keeps K (sub rfl hA) ?_
        assumption

theorem otherUpdate_keeps (K : Keeps P A) (hA : Sub 34359738376 A) {s} (h_s : P s) :
    P (otherUpdate s) := by
  unfold otherUpdate
  extract_lets +onlyGivenNames -merge -underBinder o1
  try clear_value o1
  refine ite_k ?_ ?_
  · refine rebaseLoop_keeps K (sub rfl hA) ?_
    refine setServoRate_keeps K (sub rfl hA) ?_
    assumption
  · refine ite_k ?_ ?_
    · refine setServoRate_keeps K (sub rfl hA) ?_
      assumption
    · refine rebaseLoop_keeps K (sub rfl hA) ?_
      refine setServoRate_keeps K (sub rfl hA) ?_
      assumption

theorem outsUpdate_keeps (K : Keeps P A) (hA : Sub 146338459375378443 A) {t0 t1 s} (h_s : P s) :
    P (outsUpdate t0 t1 s) := by
  unfold outsUpdate
  extract_lets +onlyGivenNames -merge -underBinder want1 clamped2 s3
  try clear_value want1
  try clear_value clamped2
  have hs3 : P s3 := by
    refine clampNoted_keeps K (sub rfl hA) ?_
    assumption
  try clear_value s3
  refine outPhases_keeps K (sub rfl hA) ?_
  refine upd_tb K (sub rfl hA) ?_
  assumption

theorem execServoUpdate_keeps (K : Keeps P A) (hA : Sub 146338459375378475 A) {fine margin s} (h_s : P s) :
    Nx P (execServoUpdate fine margin s) := by
  unfold execServoUpdate
  refine iteN_k ?_ ?_
  · refine next_k ?_
    assumption
  · extract_lets +onlyGivenNames -merge -underBinder t01 t12 s3 s4 s5 s6
    try clear_value t01
    try clear_value t12
    try clear_value s3
    have hs4 : P s4 := by
      refine upd_tb K (sub rfl hA) ?_
      assumption
    try clear_value s4
    have hs5 : P s5 := by
      refine slewUpdate_keeps K (sub rfl hA) ?_
      refine slewUpdate_keeps K (sub rfl hA) ?_
      assumption
    try clear_value s5
    have hs6 : P s6 := by
      refine ite_k ?_ ?_
      · refine showFine_keeps K (sub rfl hA) ?_
        assumption
      · assumption
    try clear_value s6
    extract_lets +onlyGivenNames -merge -underBinder s7
    have hs7 : P s7 := by
      refine outsUpdate_keeps K (sub rfl hA) ?_
      refine xferUpdate_keeps K (sub rfl hA) ?_
      refine otherUpdate_keeps K (sub rfl hA) ?_
      refine servedUpdate_keeps K (sub rfl hA) ?_
      assumption
    try clear_value s7
    refine next_k ?_
    refine foldl_k ?_ (fun s0 k0 hs0 => ?_)
    · assumption
    · refine State.setRd_keeps K (sub rfl hA) ?_
      assumption

theorem plSetLoopEffect_keeps (K : Keeps P A) (hA : Sub 434586393353396793 A) {c s} (h_s : P s) :
    P (plSetLoopEffect c s).1 := by
  unfold plSetLoopEffect
  extract_lets +onlyGivenNames -merge -underBinder d1 old2 l3 s4 s5 s6
  try clear_value d1
  try clear_value old2
  try clear_value l3
  try clear_value s4
  try clear_value s5
  have hs6 : P s6 := by
    refine ite_k ?_ ?_
    · refine upd_dpll K (sub rfl hA) ?_
      assumption
    · refine upd_dpll K (sub rfl hA) ?_
      assumption
  try clear_value s6
  extract_lets +onlyGivenNames -merge -underBinder s7 s8
  try clear_value s7
  have hs8 : P s8 := by
    refine ite_k ?_ ?_
    · refine State.setRd_keeps K (sub rfl hA) ?_
      refine setF_k K 5 part_plDStatusCount (sub rfl hA) ?_
      assumption
    · assumption
  try clear_value s8
  extract_lets +onlyGivenNames -merge -underBinder s9
  have hs9 : P s9 := by
    refine ite_k ?_ ?_
    · refine setF_k K 5 part_plStatusInnerBw (sub rfl hA) ?_
      assumption
    · assumption
  try clear_value s9
  refine mk1_k ?_
  refine ite_k ?_ ?_
  · extract_lets +onlyGivenNames -merge -underBinder s10
    have hs10 : P s10 := by
      refine setB_k K 5 part_plStatusSearch (sub rfl hA) ?_
      refine loseInner_keeps K (sub rfl hA) ?_
      assumption
    try clear_value s10
    refine upd_dpll K (sub rfl hA) ?_
    assumption
  · assumption

theorem execPlSetLoop_keeps (K : Keeps P A) (hA : Sub 5055279612244533821 A) {c s} (h_s : P s) :
    Nx P (execPlSetLoop c s) := by
  unfold execPlSetLoop
  refine runCmd_keeps K (sub rfl hA) ?_ ?_
  · intro _ _ hh
    refine plSetLoopEffect_keeps K (sub rfl hA) ?_
    assumption
  · assumption

theorem plOutConfigEffect_keeps (K : Keeps P A) (hA : Sub 4400735060001 A) {c s} (h_s : P s) :
    P (plOutConfigEffect c s).1 := by
  unfold plOutConfigEffect
  extract_lets +onlyGivenNames -merge -underBinder n1 o2 running3 moved4 ph5 s6 s7 s8 s9 s10
  try clear_value n1
  try clear_value o2
  try clear_value running3
  try clear_value moved4
  try clear_value ph5
  have hs6 : P s6 := by
    refine setB_k K 5 part_plOutStatusAlign (sub rfl hA) ?_
    refine setF_k K 5 part_plOutStatusOsyn (sub rfl hA) ?_
    refine setF_k K 5 part_plOutStatusStd (sub rfl hA) ?_
    assumption
  try clear_value s6
  have hs7 : P s7 := by
    refine showRecTemp_keeps K (sub rfl hA) ?_
    assumption
  try clear_value s7
  have hs8 : P s8 := by
    refine setF_k K 5 part_plOutDiv (sub rfl hA) ?_
    refine setF_k K 5 part_plOutStatusSqMask (sub rfl hA) ?_
    refine setB_k K 5 part_plOutStatusSafe (sub rfl hA) ?_
    assumption
  try clear_value s8
  have hs9 : P s9 := by
    refine State.setOut_keeps K (sub rfl hA) ?_
    assumption
  try clear_value s9
  have hs10 : P s10 := by
    refine ite_k ?_ ?_
    · assumption
    · refine setPhaseOf_keeps K (sub rfl hA) ?_
      assumption
  try clear_value s10
  refine mk1_k ?_
  refine outsRestart_keeps K (sub rfl hA) ?_
  refine outRefresh_keeps K (sub rfl hA) ?_
  assumption

theorem execPlOutConfig_keeps (K : Keeps P A) (hA : Sub 4620697623921164325 A) {c s} (h_s : P s) :
    Nx P (execPlOutConfig c s) := by
  unfold execPlOutConfig
  refine runCmd_keeps K (sub rfl hA) ?_ ?_
  · intro _ _ hh
    refine plOutConfigEffect_keeps K (sub rfl hA) ?_
    assumption
  · assumption

theorem plOutRetuneEffect_keeps (K : Keeps P A) (hA : Sub 4400730865697 A) {c s} (h_s : P s) :
    P (plOutRetuneEffect c s).1 := by
  unfold plOutRetuneEffect
  extract_lets +onlyGivenNames -merge -underBinder k1 s2 s3
  try clear_value k1
  have hs2 : P s2 := by
    refine setF_k K 5 part_plOsynDenValue (sub rfl hA) ?_
    refine setF_k K 5 part_plOsynNumValue (sub rfl hA) ?_
    refine setF_k K 5 part_plOsynStatusInt (sub rfl hA) ?_
    assumption
  try clear_value s2
  have hs3 : P s3 := by
    refine outsRefresh_keeps K (sub rfl hA) ?_
    · refine setB_k K 5 part_plOsynStatusLock (sub rfl hA) ?_
      refine setB_k K 5 part_plOsynStatusRetune (sub rfl hA) ?_
      assumption
  try clear_value s3
  refine ite1_k ?_ ?_
  · refine mk1_k ?_
    assumption
  · refine mk1_k ?_
    assumption

theorem execPlOutRetune_keeps (K : Keeps P A) (hA : Sub 4620697623916970021 A) {c s} (h_s : P s) :
    Nx P (execPlOutRetune c s) := by
  unfold execPlOutRetune
  refine runHeld_keeps K (sub rfl hA) ?_ ?_
  · intro _ _ hh
    refine plOutRetuneEffect_keeps K (sub rfl hA) ?_
    assumption
  · assumption

theorem execOsynLock_keeps (K : Keeps P A) (hA : Sub 4620697623916970021 A) {k s} (h_s : P s) :
    Nx P (execOsynLock k s) := by
  unfold execOsynLock
  refine iteN_k ?_ ?_
  · refine next_k ?_
    assumption
  · extract_lets +onlyGivenNames -merge -underBinder s1
    have hs1 : P s1 := by
      refine setB_k K 5 part_plOsynStatusLock (sub rfl hA) ?_
      assumption
    try clear_value s1
    refine iteN_k ?_ ?_
    · refine next_k ?_
      assumption
    · refine next_k ?_
      refine retuneDone_keeps K (sub rfl hA) ?_
      refine outsRestart_keeps K (sub rfl hA) ?_
      refine setB_k K 5 part_plOsynStatusRetune (sub rfl hA) ?_
      assumption

theorem plPpsConfigEffect_keeps (K : Keeps P A) (hA : Sub 4400730865697 A) {c s} (h_s : P s) :
    P (plPpsConfigEffect c s).1 := by
  unfold plPpsConfigEffect
  extract_lets +onlyGivenNames -merge -underBinder m1 o2 running3 ph4 s5 s6 s7
  try clear_value m1
  try clear_value o2
  try clear_value running3
  try clear_value ph4
  have hs5 : P s5 := by
    refine setF_k K 5 part_plPpsStatusTod (sub rfl hA) ?_
    refine setF_k K 5 part_plPpsStatusSqMask (sub rfl hA) ?_
    refine setF_k K 5 part_plPpsStatusFlags (sub rfl hA) ?_
    assumption
  try clear_value s5
  have hs6 : P s6 := by
    refine State.setOut_keeps K (sub rfl hA) ?_
    assumption
  try clear_value s6
  have hs7 : P s7 := by
    refine ite_k ?_ ?_
    · assumption
    · refine setPhaseOf_keeps K (sub rfl hA) ?_
      assumption
  try clear_value s7
  refine mk1_k ?_
  refine outRefresh_keeps K (sub rfl hA) ?_
  assumption

theorem execPlPpsConfig_keeps (K : Keeps P A) (hA : Sub 4620697623916970021 A) {c s} (h_s : P s) :
    Nx P (execPlPpsConfig c s) := by
  unfold execPlPpsConfig
  refine runCmd_keeps K (sub rfl hA) ?_ ?_
  · intro _ _ hh
    refine plPpsConfigEffect_keeps K (sub rfl hA) ?_
    assumption
  · assumption

theorem plStatusEffect_keeps (K : Keeps P A) (hA : Sub 0 A) {x s} (h_s : P s) :
    P (plStatusEffect x s).1 := by
  unfold plStatusEffect
  refine mk1_k ?_
  assumption

theorem execPlStatus_keeps (K : Keeps P A) (hA : Sub 4620693225333587972 A) {c s} (h_s : P s) :
    Nx P (execPlStatus c s) := by
  unfold execPlStatus
  refine runCmd_keeps K (sub rfl hA) ?_ ?_
  · intro _ _ hh
    refine plStatusEffect_keeps K (sub rfl hA) ?_
    assumption
  · assumption

theorem execTodMessage_keeps (K : Keeps P A) (hA : Sub 4398046511104 A) {edge s} (h_s : P s) :
    Nx P (execTodMessage edge s) := by
  unfold execTodMessage
  extract_lets +onlyGivenNames -merge -underBinder tod1 sec2 t3 n4 period5 whole6
  try clear_value tod1
  try clear_value sec2
  try clear_value t3
  try clear_value n4
  try clear_value period5
  try clear_value whole6
  refine iteN_k ?_ ?_
  · refine next_k ?_
    assumption
  · extract_lets +onlyGivenNames -merge -underBinder utc7
    try clear_value utc7
    refine next_k ?_
    refine upd_dpll K (sub rfl hA) ?_
    assumption

theorem execTodRxLabel_keeps (K : Keeps P A) (hA : Sub 4398046511104 A) {second s} (h_s : P s) :
    Nx P (execTodRxLabel second s) := by
  unfold execTodRxLabel
  split
  · refine iteN_k ?_ ?_
    · refine next_k ?_
      refine upd_dpll K (sub rfl hA) ?_
      assumption
    · refine next_k ?_
      assumption
  · refine next_k ?_
    assumption

end Sys2Proof.Machine
end

