-- ==== Sys2Proof/Laws/KeepDispatch.lean ====
section
/-! SUPPORT. What the operations of Sys2Proof/Machine/Dispatch.lean keep (Sys2Proof/Laws/Keeps.lean): the mask in each lemma names the parts
of the state that the operation can touch. -/

namespace Sys2Proof.Machine

variable {P : State → Prop} {A : Nat}

theorem exec_keeps (K : Keeps P A) (hA : Sub 1267650600237452773533457317887 A) {i s} (h_s : P s) :
    Nx P (exec i s) := by
  unfold exec
  split
  · refine execHstNop_keeps K (sub rfl hA) ?_
    · assumption
  · refine execHstCancel_keeps K (sub rfl hA) ?_
    · assumption
  · refine execHstRestartMgmt_keeps K (sub rfl hA) ?_
    · assumption
  · refine execTbRead_keeps K (sub rfl hA) ?_
    · assumption
  · refine execTbStep_keeps K (sub rfl hA) ?_
    · assumption
  · refine execTbSlew_keeps K (sub rfl hA) ?_
    · assumption
  · refine execTbAdjust_keeps K (sub rfl hA) ?_
    · assumption
  · refine execTbRealign_keeps K (sub rfl hA) ?_
    · assumption
  · refine execTbSetServed_keeps K (sub rfl hA) ?_
    · assumption
  · refine execTbSetUtc_keeps K (sub rfl hA) ?_
    · assumption
  · refine execTbSnapshot_keeps K (sub rfl hA) ?_
    · assumption
  · refine execTbSetCompact_keeps K (sub rfl hA) ?_
    · assumption
  · refine execTtSessionSet_keeps K (sub rfl hA) ?_
    · assumption
  · refine execTtSessionGet_keeps K (sub rfl hA) ?_
    · assumption
  · refine execTtSessionEnable_keeps K (sub rfl hA) ?_
    · assumption
  · refine execTtSetAsymmetry_keeps K (sub rfl hA) ?_
    · assumption
  · refine execTtServoSet_keeps K (sub rfl hA) ?_
    · assumption
  · refine execTtServoStatus_keeps K (sub rfl hA) ?_
    · assumption
  · refine execRsSetPriority_keeps K (sub rfl hA) ?_
    · assumption
  · refine execRsSetLimits_keeps K (sub rfl hA) ?_
    · assumption
  · refine execRsSetTimers_keeps K (sub rfl hA) ?_
    · assumption
  · refine execRsForce_keeps K (sub rfl hA) ?_
    · assumption
  · refine execRsStatus_keeps K (sub rfl hA) ?_
    · assumption
  · refine execRsLarderRead_keeps K (sub rfl hA) ?_
    · assumption
  · refine execRsOpenLoop_keeps K (sub rfl hA) ?_
    · assumption
  · refine execRsSteer_keeps K (sub rfl hA) ?_
    · assumption
  · refine execPlSetLoop_keeps K (sub rfl hA) ?_
    · assumption
  · refine execPlOutConfig_keeps K (sub rfl hA) ?_
    · assumption
  · refine execPlOutRetune_keeps K (sub rfl hA) ?_
    · assumption
  · refine execPlPpsConfig_keeps K (sub rfl hA) ?_
    · assumption
  · refine execPlStatus_keeps K (sub rfl hA) ?_
    · assumption
  · refine execGnEnable_keeps K (sub rfl hA) ?_
    · assumption
  · refine execGnLoadAlmanac_keeps K (sub rfl hA) ?_
    · assumption
  · refine execGnLoadEphemeris_keeps K (sub rfl hA) ?_
    · assumption
  · refine execGnSetPosition_keeps K (sub rfl hA) ?_
    · assumption
  · refine execGnSetAntennaDelay_keeps K (sub rfl hA) ?_
    · assumption
  · refine execGnStatus_keeps K (sub rfl hA) ?_
    · assumption
  · refine execEmInputConfig_keeps K (sub rfl hA) ?_
    · assumption
  · refine execEmInterval_keeps K (sub rfl hA) ?_
    · assumption
  · refine execEmFrequency_keeps K (sub rfl hA) ?_
    · assumption
  · refine execEmSelfAudit_keeps K (sub rfl hA) ?_
    · assumption
  · refine execSdsPortConfig_keeps K (sub rfl hA) ?_
    · assumption
  · refine execSdsSetFir_keeps K (sub rfl hA) ?_
    · assumption
  · refine execSdsSetCtle_keeps K (sub rfl hA) ?_
    · assumption
  · refine execSdsPrbs_keeps K (sub rfl hA) ?_
    · assumption
  · refine execSdsEyeScan_keeps K (sub rfl hA) ?_
    · assumption
  · refine execSdsSetTrim_keeps K (sub rfl hA) ?_
    · assumption
  · refine execSdsLaneStatus_keeps K (sub rfl hA) ?_
    · assumption
  · refine execSdsSetStampCorr_keeps K (sub rfl hA) ?_
    · assumption
  · refine execSwPortForward_keeps K (sub rfl hA) ?_
    · assumption
  · refine execSwSetVlan_keeps K (sub rfl hA) ?_
    · assumption
  · refine execSwSetLag_keeps K (sub rfl hA) ?_
    · assumption
  · refine execSwRuleWrite_keeps K (sub rfl hA) ?_
    · assumption
  · refine execSwDirectConnect_keeps K (sub rfl hA) ?_
    · assumption
  · refine execSwDirectDisconnect_keeps K (sub rfl hA) ?_
    · assumption
  · refine execFtInsert_keeps K (sub rfl hA) ?_
    · assumption
  · refine execFtDelete_keeps K (sub rfl hA) ?_
    · assumption
  · refine execFtSearch_keeps K (sub rfl hA) ?_
    · assumption
  · refine execFtWalkOpen_keeps K (sub rfl hA) ?_
    · assumption
  · refine execFtWalkNext_keeps K (sub rfl hA) ?_
    · assumption
  · refine execFtWalkClose_keeps K (sub rfl hA) ?_
    · assumption
  · refine execFtFlushPort_keeps K (sub rfl hA) ?_
    · assumption
  · refine execFtSetAging_keeps K (sub rfl hA) ?_
    · assumption
  · refine execFtRouteWrite_keeps K (sub rfl hA) ?_
    · assumption
  · refine execFtRouteDelete_keeps K (sub rfl hA) ?_
    · assumption
  · refine execFtLearnConfig_keeps K (sub rfl hA) ?_
    · assumption
  · refine execFtDigest_keeps K (sub rfl hA) ?_
    · assumption
  · refine execBfSetPool_keeps K (sub rfl hA) ?_
    · assumption
  · refine execBfSetQueue_keeps K (sub rfl hA) ?_
    · assumption
  · refine execBfSetShaper_keeps K (sub rfl hA) ?_
    · assumption
  · refine execBfSpillEnable_keeps K (sub rfl hA) ?_
    · assumption
  · refine execBfMcastGroup_keeps K (sub rfl hA) ?_
    · assumption
  · refine execFmGroupSet_keeps K (sub rfl hA) ?_
    · assumption
  · refine execFmGroupEnable_keeps K (sub rfl hA) ?_
    · assumption
  · refine execFmSetTrim_keeps K (sub rfl hA) ?_
    · assumption
  · refine execFmPartition_keeps K (sub rfl hA) ?_
    · assumption
  · refine execErGroupSet_keeps K (sub rfl hA) ?_
    · assumption
  · refine execErGroupEnable_keeps K (sub rfl hA) ?_
    · assumption
  · refine execErSetTrim_keeps K (sub rfl hA) ?_
    · assumption
  · refine execEvdConfig_keeps K (sub rfl hA) ?_
    · assumption
  · refine execEvdGetPubkey_keeps K (sub rfl hA) ?_
    · assumption
  · refine execEvdGetBlock_keeps K (sub rfl hA) ?_
    · assumption
  · refine execCapRingSet_keeps K (sub rfl hA) ?_
    · assumption
  · refine execCapRingEnable_keeps K (sub rfl hA) ?_
    · assumption
  · refine execCapSelect_keeps K (sub rfl hA) ?_
    · assumption
  · refine execTwEnable_keeps K (sub rfl hA) ?_
    · assumption
  · refine execTwTakeover_keeps K (sub rfl hA) ?_
    · assumption
  · refine execTwTakeback_keeps K (sub rfl hA) ?_
    · assumption
  · refine execTwStatus_keeps K (sub rfl hA) ?_
    · assumption
  · refine execTwSetWtr_keeps K (sub rfl hA) ?_
    · assumption
  · refine execCtClear_keeps K (sub rfl hA) ?_
    · assumption
  · refine execCtPreset_keeps K (sub rfl hA) ?_
    · assumption
  · refine execCtSetThreshold_keeps K (sub rfl hA) ?_
    · assumption
  · refine execCtWindowMap_keeps K (sub rfl hA) ?_
    · assumption
  · refine execCtLatencySample_keeps K (sub rfl hA) ?_
    · assumption
  · refine execMpScrub_keeps K (sub rfl hA) ?_
    · assumption
  · refine execMpScrubSummary_keeps K (sub rfl hA) ?_
    · assumption
  · refine execMpInject_keeps K (sub rfl hA) ?_
    · assumption
  · refine execMpReleaseQuarantine_keeps K (sub rfl hA) ?_
    · assumption
  · refine execCalLane_keeps K (sub rfl hA) ?_
    · assumption
  · refine execCalEvtin_keeps K (sub rfl hA) ?_
    · assumption
  · refine execCalOutput_keeps K (sub rfl hA) ?_
    · assumption
  · refine execCalReadRecord_keeps K (sub rfl hA) ?_
    · assumption
  · refine execFwWriteSlot_keeps K (sub rfl hA) ?_
    · assumption
  · refine execFwApplyMoult_keeps K (sub rfl hA) ?_
    · assumption
  · refine execFwActivate_keeps K (sub rfl hA) ?_
    · assumption
  · refine execFwConfirm_keeps K (sub rfl hA) ?_
    · assumption
  · refine execFwStatus_keeps K (sub rfl hA) ?_
    · assumption
  · refine execFwUpdateEvd_keeps K (sub rfl hA) ?_
    · assumption
  · refine execSecOwnerLock_keeps K (sub rfl hA) ?_
    · assumption
  · refine execSecGetIdentity_keeps K (sub rfl hA) ?_
    · assumption
  · refine execSecZeroise_keeps K (sub rfl hA) ?_
    · assumption
  · refine execSecSelfTest_keeps K (sub rfl hA) ?_
    · assumption
  · refine execSecDrbgRead_keeps K (sub rfl hA) ?_
    · assumption
  · refine execSteppedCommandStep_keeps K (sub rfl hA) ?_
    · assumption
  · refine execMbxDoorbell_keeps K (sub rfl hA) ?_
    · assumption
  · refine execMbxQueueEnable_keeps K (sub rfl hA) ?_
    · assumption
  · refine execMbxQueueDisable_keeps K (sub rfl hA) ?_
    · assumption
  · refine execCqConsWrite_keeps K (sub rfl hA) ?_
    · assumption
  · refine execSmbusIdentityRead_keeps K (sub rfl hA) ?_
    · assumption
  · refine execSmbusStatusRead_keeps K (sub rfl hA) ?_
    · assumption
  · refine execSmbusTemperatureRead_keeps K (sub rfl hA) ?_
    · assumption
  · refine execSmbusOffsetWrite_keeps K (sub rfl hA) ?_
    · assumption
  · refine execSmbusRegisterRead_keeps K (sub rfl hA) ?_
    · assumption
  · refine execSmbusCommandWrite_keeps K (sub rfl hA) ?_
    · assumption
  · refine execSmbusCommandStatus_keeps K (sub rfl hA) ?_
    · assumption
  · refine execRegisterWrite_keeps K (sub rfl hA) ?_
    · assumption
  · refine execUnmappedRead_keeps K (sub rfl hA) ?_
    · assumption
  · refine execUnmappedWrite_keeps K (sub rfl hA) ?_
    · assumption
  · refine execReadOnlyWrite_keeps K (sub rfl hA) ?_
    · assumption
  · refine execPartialW32Write_keeps K (sub rfl hA) ?_
    · assumption
  · refine execBar2Write_keeps K (sub rfl hA) ?_
    · assumption
  · refine execBar4LongWrite_keeps K (sub rfl hA) ?_
    · assumption
  · refine execLatchingLoRead_keeps K (sub rfl hA) ?_
    · assumption
  · refine execPairLoWrite_keeps K (sub rfl hA) ?_
    · assumption
  · refine execPairHiWrite_keeps K (sub rfl hA) ?_
    · assumption
  · refine execKeyedAWrite_keeps K (sub rfl hA) ?_
    · assumption
  · refine execKeyedBWrite_keeps K (sub rfl hA) ?_
    · assumption
  · refine execKeyedPairWrite64_keeps K (sub rfl hA) ?_
    · assumption
  · refine execKeyedSequenceTimeout_keeps K (sub rfl hA) ?_
    · assumption
  · refine execGdLockSet_keeps K (sub rfl hA) ?_
    · assumption
  · refine execHstReset_keeps K (sub rfl hA) ?_
    · assumption
  · refine execEvrRingEnable_keeps K (sub rfl hA) ?_
    · assumption
  · refine execEvrConsWrite_keeps K (sub rfl hA) ?_
    · assumption
  · refine execTtRecRingEnable_keeps K (sub rfl hA) ?_
    · assumption
  · refine execTtRecConsWrite_keeps K (sub rfl hA) ?_
    · assumption
  · refine execFtLrnRingEnable_keeps K (sub rfl hA) ?_
    · assumption
  · refine execFtLrnConsWrite_keeps K (sub rfl hA) ?_
    · assumption
  · refine execEmRConsWrite_keeps K (sub rfl hA) ?_
    · assumption
  · refine execEvdRConsWrite_keeps K (sub rfl hA) ?_
    · assumption
  · refine execNrDoorbell_keeps K (sub rfl hA) ?_
    · assumption
  · refine execSnapTrigger_keeps K (sub rfl hA) ?_
    · assumption
  · refine execSnapArm_keeps K (sub rfl hA) ?_
    · assumption
  · refine execSnapArmedCapture_keeps K (sub rfl hA) ?_
    · assumption
  · refine execPtmDialog_keeps K (sub rfl hA) ?_
    · assumption
  · refine execStampFifoPop_keeps K (sub rfl hA) ?_
    · assumption
  · refine execEmFifoPop_keeps K (sub rfl hA) ?_
    · assumption
  · refine execHtxRingEnable_keeps K (sub rfl hA) ?_
    · assumption
  · refine execHtxTailWrite_keeps K (sub rfl hA) ?_
    · assumption
  · refine execHostTxDescriptor_keeps K (sub rfl hA) ?_
    · assumption
  · refine execEventRecordWrite_keeps K (sub rfl hA) ?_
    · assumption
  · refine execEventRecordLate_keeps K (sub rfl hA) ?_
    · assumption
  · refine execRingHoldoffExpiry_keeps K (sub rfl hA) ?_
    · assumption
  · refine execMainResetAssert_keeps K (sub rfl hA) ?_
    · assumption
  · refine execMainResetRelease_keeps K (sub rfl hA) ?_
    · assumption
  · refine execThermalReset_keeps K (sub rfl hA) ?_
    · assumption
  · refine execReady_keeps K (sub rfl hA) ?_
    · assumption
  · refine execPciePerst_keeps K (sub rfl hA) ?_
    · assumption
  · refine execHostIfReset_keeps K (sub rfl hA) ?_
    · assumption
  · refine execInnerLock_keeps K (sub rfl hA) ?_
    · assumption
  · refine execInnerLockLoss_keeps K (sub rfl hA) ?_
    · assumption
  · refine execSysxoFault_keeps K (sub rfl hA) ?_
    · assumption
  · refine execBandSearchDone_keeps K (sub rfl hA) ?_
    · assumption
  · refine execReferenceSample_keeps K (sub rfl hA) ?_
    · assumption
  · refine execDpllLock_keeps K (sub rfl hA) ?_
    · assumption
  · refine execDpllLockLoss_keeps K (sub rfl hA) ?_
    · assumption
  · refine execFrequencyAcquired_keeps K (sub rfl hA) ?_
    · assumption
  · refine execServoUpdate_keeps K (sub rfl hA) ?_
    · assumption
  · refine execSegmentRenewal_keeps K (sub rfl hA) ?_
    · assumption
  · refine execStepApply_keeps K (sub rfl hA) ?_
    · assumption
  · refine execOutRephaseDone_keeps K (sub rfl hA) ?_
    · assumption
  · refine execServedSwitch_keeps K (sub rfl hA) ?_
    · assumption
  · refine execTbOutAligned_keeps K (sub rfl hA) ?_
    · assumption
  · refine execTbSlewDone_keeps K (sub rfl hA) ?_
    · assumption
  · refine execTbLeap_keeps K (sub rfl hA) ?_
    · assumption
  · refine execMonitorEvaluation_keeps K (sub rfl hA) ?_
    · assumption
  · refine execCandidateLost_keeps K (sub rfl hA) ?_
    · assumption
  · refine execQualTimerExpiry_keeps K (sub rfl hA) ?_
    · assumption
  · refine execWtrExpiry_keeps K (sub rfl hA) ?_
    · assumption
  · refine execSwitchTransactionStart_keeps K (sub rfl hA) ?_
    · assumption
  · refine execSwitchTransactionEnd_keeps K (sub rfl hA) ?_
    · assumption
  · refine execQcClassUpdate_keeps K (sub rfl hA) ?_
    · assumption
  · refine execHoldoverUpdate_keeps K (sub rfl hA) ?_
    · assumption
  · refine execLarderEntryWrite_keeps K (sub rfl hA) ?_
    · assumption
  · refine execTstatHoldExpiry_keeps K (sub rfl hA) ?_
    · assumption
  · refine execOsynLock_keeps K (sub rfl hA) ?_
    · assumption
  · refine execSquelchRelease_keeps K (sub rfl hA) ?_
    · assumption
  · refine execTodMessage_keeps K (sub rfl hA) ?_
    · assumption
  · refine execTodRxLabel_keeps K (sub rfl hA) ?_
    · assumption
  · refine execPortIslandWakeDone_keeps K (sub rfl hA) ?_
    · assumption
  · refine execRxLock_keeps K (sub rfl hA) ?_
    · assumption
  · refine execCtleSweepDone_keeps K (sub rfl hA) ?_
    · assumption
  · refine execLatencyReport_keeps K (sub rfl hA) ?_
    · assumption
  · refine execLinkUp_keeps K (sub rfl hA) ?_
    · assumption
  · refine execLinkDown_keeps K (sub rfl hA) ?_
    · assumption
  · refine execTxRestart_keeps K (sub rfl hA) ?_
    · assumption
  · refine execSdsTrimDone_keeps K (sub rfl hA) ?_
    · assumption
  · refine execPrbsLockChange_keeps K (sub rfl hA) ?_
    · assumption
  · refine execPtsRecalDue_keeps K (sub rfl hA) ?_
    · assumption
  · refine execPhaseSample_keeps K (sub rfl hA) ?_
    · assumption
  · refine execFrameRx_keeps K (sub rfl hA) ?_
    · assumption
  · refine execFrameEnd_keeps K (sub rfl hA) ?_
    · assumption
  · refine execEgressPick_keeps K (sub rfl hA) ?_
    · assumption
  · refine execFrameTxDone_keeps K (sub rfl hA) ?_
    · assumption
  · refine execSwDpSlip_keeps K (sub rfl hA) ?_
    · assumption
  · refine execAgerVisit_keeps K (sub rfl hA) ?_
    · assumption
  · refine execFtWalkTimeout_keeps K (sub rfl hA) ?_
    · assumption
  · refine execSpillWrite_keeps K (sub rfl hA) ?_
    · assumption
  · refine execSpillReadback_keeps K (sub rfl hA) ?_
    · assumption
  · refine execSpillDrainDone_keeps K (sub rfl hA) ?_
    · assumption
  · refine execMergeDue_keeps K (sub rfl hA) ?_
    · assumption
  · refine execFmDrainDone_keeps K (sub rfl hA) ?_
    · assumption
  · refine execReleaseCopyStart_keeps K (sub rfl hA) ?_
    · assumption
  · refine execErDrainDone_keeps K (sub rfl hA) ?_
    · assumption
  · refine execEvdRecord_keeps K (sub rfl hA) ?_
    · assumption
  · refine execEvdBlockClose_keeps K (sub rfl hA) ?_
    · assumption
  · refine execEvdBlockSigned_keeps K (sub rfl hA) ?_
    · assumption
  · refine execTtPeriodicTx_keeps K (sub rfl hA) ?_
    · assumption
  · refine execPtpMessageRx_keeps K (sub rfl hA) ?_
    · assumption
  · refine execTtPhaseReportTx_keeps K (sub rfl hA) ?_
    · assumption
  · refine execTtPhaseReportRx_keeps K (sub rfl hA) ?_
    · assumption
  · refine execTtPhaseEntry_keeps K (sub rfl hA) ?_
    · assumption
  · refine execTtReportTimeout_keeps K (sub rfl hA) ?_
    · assumption
  · refine execTtPhaseSlip_keeps K (sub rfl hA) ?_
    · assumption
  · refine execTtServoTimeout_keeps K (sub rfl hA) ?_
    · assumption
  · refine execEsmcPduTx_keeps K (sub rfl hA) ?_
    · assumption
  · refine execEsmcPduRx_keeps K (sub rfl hA) ?_
    · assumption
  · refine execGnssEpoch_keeps K (sub rfl hA) ?_
    · assumption
  · refine execGnRateChange_keeps K (sub rfl hA) ?_
    · assumption
  · refine execGnPortLoss_keeps K (sub rfl hA) ?_
    · assumption
  · refine execGnPortReturn_keeps K (sub rfl hA) ?_
    · assumption
  · refine execGnMagCheck_keeps K (sub rfl hA) ?_
    · assumption
  · refine execSurveyDone_keeps K (sub rfl hA) ?_
    · assumption
  · refine execSpoofHoldExpiry_keeps K (sub rfl hA) ?_
    · assumption
  · refine execGnNoSatTimeout_keeps K (sub rfl hA) ?_
    · assumption
  · refine execEvtinEdge_keeps K (sub rfl hA) ?_
    · assumption
  · refine execEmRingMove_keeps K (sub rfl hA) ?_
    · assumption
  · refine execEmGateOpen_keeps K (sub rfl hA) ?_
    · assumption
  · refine execEmGateClose_keeps K (sub rfl hA) ?_
    · assumption
  · refine execTwHeartbeatTx_keeps K (sub rfl hA) ?_
    · assumption
  · refine execTwHeartbeatRx_keeps K (sub rfl hA) ?_
    · assumption
  · refine execTwTimeTx_keeps K (sub rfl hA) ?_
    · assumption
  · refine execTwTimeRx_keeps K (sub rfl hA) ?_
    · assumption
  · refine execTwMirrorRx_keeps K (sub rfl hA) ?_
    · assumption
  · refine execTwAckRx_keeps K (sub rfl hA) ?_
    · assumption
  · refine execMirrorAckTimeout_keeps K (sub rfl hA) ?_
    · assumption
  · refine execTwEvdBhRx_keeps K (sub rfl hA) ?_
    · assumption
  · refine execTwClaimRx_keeps K (sub rfl hA) ?_
    · assumption
  · refine execTwLinkTimeout_keeps K (sub rfl hA) ?_
    · assumption
  · refine execTwHbMiss_keeps K (sub rfl hA) ?_
    · assumption
  · refine execTwFaultTimeout_keeps K (sub rfl hA) ?_
    · assumption
  · refine execTwTwclkLoss_keeps K (sub rfl hA) ?_
    · assumption
  · refine execTwAlign_keeps K (sub rfl hA) ?_
    · assumption
  · refine execTwWtrExpiry_keeps K (sub rfl hA) ?_
    · assumption
  · refine execBwWindowEnd_keeps K (sub rfl hA) ?_
    · assumption
  · refine execCorrWriteback_keeps K (sub rfl hA) ?_
    · assumption
  · refine execTrackerExpiry_keeps K (sub rfl hA) ?_
    · assumption
  · refine execMergeBufferFlush_keeps K (sub rfl hA) ?_
    · assumption
  · refine execDeviceCalAuto_keeps K (sub rfl hA) ?_
    · assumption
  · refine execCalPartDone_keeps K (sub rfl hA) ?_
    · assumption
  · refine execCalAccept_keeps K (sub rfl hA) ?_
    · assumption
  · refine execStampCorrApply_keeps K (sub rfl hA) ?_
    · assumption
  · refine execAsymApply_keeps K (sub rfl hA) ?_
    · assumption
  · refine execFmTrimApply_keeps K (sub rfl hA) ?_
    · assumption
  · refine execErTrimApply_keeps K (sub rfl hA) ?_
    · assumption
  · refine execFwLoadDone_keeps K (sub rfl hA) ?_
    · assumption
  · refine execFwFreeze_keeps K (sub rfl hA) ?_
    · assumption
  · refine execFwHandoverDone_keeps K (sub rfl hA) ?_
    · assumption
  · refine execFwWaitTimeout_keeps K (sub rfl hA) ?_
    · assumption
  · refine execFwFreezeTimeout_keeps K (sub rfl hA) ?_
    · assumption
  · refine execHeldSteerExpiry_keeps K (sub rfl hA) ?_
    · assumption
  · refine execFwTrialExpiry_keeps K (sub rfl hA) ?_
    · assumption
  · refine execFwHealthFail_keeps K (sub rfl hA) ?_
    · assumption
  · refine execWatchdogExpiry_keeps K (sub rfl hA) ?_
    · assumption
  · refine execLeinnarRestart_keeps K (sub rfl hA) ?_
    · assumption
  · refine execLeinnarRestartDone_keeps K (sub rfl hA) ?_
    · assumption
  · refine execTamperActive_keeps K (sub rfl hA) ?_
    · assumption
  · refine execSelftestFailure_keeps K (sub rfl hA) ?_
    · assumption
  · refine execDrbgReseed_keeps K (sub rfl hA) ?_
    · assumption
  · refine execSecVbatLow_keeps K (sub rfl hA) ?_
    · assumption
  · refine execAoContentsLost_keeps K (sub rfl hA) ?_
    · assumption
  · refine execAoXtalStop_keeps K (sub rfl hA) ?_
    · assumption
  · refine execAoAnchorWrite_keeps K (sub rfl hA) ?_
    · assumption
  · refine execFirstSegmentOpen_keeps K (sub rfl hA) ?_
    · assumption
  · refine execTwinLinkDown_keeps K (sub rfl hA) ?_
    · assumption
  · refine execTapReset_keeps K (sub rfl hA) ?_
    · assumption

end Sys2Proof.Machine
end

