-- ==== Sys2Proof/Laws/Frames.lean ====
section
/-! SUPPORT. The two predicates that the lemmas of Sys2Proof/Laws/Keep*.lean are used with: the canonical form of the state, and that
a state differs from another in named parts at most. With them the frame of any command, and the invariant of every step, follow from
one lemma each. -/

set_option Elab.async false

namespace Sys2Proof.Machine

/-- The mask of a list of parts. -/
def partMask : List Part → Nat
  | [] => 0
  | p :: r => 2 ^ p.ctorIdx ||| partMask r

theorem partMask_bit (ps : List Part) (k : Nat) : (partMask ps).testBit k = true ↔ ∃ p ∈ ps, p.ctorIdx = k := by
  induction ps with
  | nil => simp [partMask]
  | cons p r ih =>
    rw [partMask, Nat.testBit_or, Bool.or_eq_true, ih, Nat.testBit_two_pow]
    simp

theorem Part.ctorIdx_lt (p : Part) : p.ctorIdx < 100 := by cases p <;> decide

theorem Part.ctorIdx_inj {p q : Part} (h : p.ctorIdx = q.ctorIdx) : p = q := by
  have key : ∀ r : Part, Part.ofNat r.ctorIdx = r := by intro r; cases r <;> rfl
  rw [← key p, ← key q, h]

theorem key_div (f : Fld) : f.key / 32 = f.addr := by
  unfold Fld.key
  omega

theorem State.getF_eq (s : State) (f : Fld) : s.getF f = spGet (resetOf f.key) s.regs f.key := by
  unfold State.getF
  generalize resetOf f.key = d
  generalize f.key = k
  generalize s.regs = l
  induction l with
  | nil => rfl
  | cons e r ih =>
    obtain ⟨j, v⟩ := e
    by_cases h : j = k
    · simp [List.find?, spGet, h]
    · simpa [List.find?, spGet, h] using ih

/-- A register field reads what was written to it, narrowed to its width. -/
@[simp] theorem getF_setF_same (s : State) (f : Fld) (v : Nat) : (s.setF f v).getF f = v % 2 ^ f.width := by
  rw [State.getF_eq]
  exact spGet_spSet_same _ _ _ _

/-- A write of a register field leaves every field with another key alone. -/
theorem getF_setF_ne (s : State) {f g : Fld} (v : Nat) (h : g.key ≠ f.key) : (s.setF f v).getF g = s.getF g := by
  rw [State.getF_eq, State.getF_eq]
  unfold State.setF
  exact spGet_spSet_other (resetOf g.key) (resetOf f.key) s.regs _ h

theorem sameRegs_setF (s : State) (f : Fld) (v k : Nat) (h : regPart f.addr ≠ k) : sameRegs k s (s.setF f v) := by
  intro g hg
  refine getF_setF_ne s v ?_
  intro hk
  have ha : g.addr = f.addr := by rw [← key_div, ← key_div, hk]
  exact h (ha ▸ hg)

theorem spGet_filter {α : Type} (d : α) (l : List (Nat × α)) (q : Nat × α → Bool) (k : Nat) (h : ∀ e, e.1 = k → q e = true) :
    spGet d (l.filter q) k = spGet d l k := by
  induction l with
  | nil => rfl
  | cons e r ih =>
    by_cases hq : q e = true
    · rw [List.filter_cons_of_pos hq]
      simp only [spGet, ih]
    · rw [List.filter_cons_of_neg hq, ih]
      have hne : e.1 ≠ k := fun he => hq (h e he)
      simp [spGet, hne]

theorem sameRegs_of (k : Nat) {s t : State} (h : t.regs = s.regs) : sameRegs k s t := by
  intro f _
  unfold State.getF
  rw [h]

theorem sameRegs_trans {k : Nat} {s t u : State} (h : sameRegs k s t) (h' : sameRegs k t u) : sameRegs k s u :=
  fun f hf => (h' f hf).trans (h f hf)

theorem Part.same_refl (p : Part) (s : State) : p.same s s := by
  cases p <;> first | exact rfl | exact fun _ _ => rfl

theorem Part.same_trans {p : Part} {s t u : State} (h : p.same s t) (h' : p.same t u) : p.same s u := by
  cases p <;> first | exact sameRegs_trans h h' | exact Eq.trans h' h

theorem FrameOf.refl (ps : List Part) (s : State) : FrameOf ps s s := fun p _ => p.same_refl s

/-- A part that a change of one register field leaves alone. -/
theorem Part.same_setF (p : Part) (s : State) (f : Fld) (v : Nat) (h : regPart f.addr ≠ p.ctorIdx) : p.same s (s.setF f v) := by
  cases p <;> first | exact rfl | exact sameRegs_setF s f v _ h

theorem Part.same_drop (p : Part) (s : State) (q : Nat × Nat → Bool) (h : ∀ e, q e = false → regPart (e.1 / 32) ≠ p.ctorIdx) :
    p.same s { s with regs := s.regs.filter q } := by
  have key : ∀ k, k = p.ctorIdx → sameRegs k s { s with regs := s.regs.filter q } := by
    intro k hk f hf
    rw [State.getF_eq, State.getF_eq]
    refine spGet_filter _ _ q _ ?_
    intro e he
    by_contra hq
    refine h e (by simpa using hq) ?_
    rw [he, key_div, hf, hk]
  cases p <;> first | exact rfl | exact key _ rfl

theorem Part.same_rest (p : Part) {s t : State} (hr : t.regs = s.regs) (hm : t.hostMem = s.hostMem)
    (h : p.isReg = false → p.same s t) : p.same s t := by
  cases p <;> first | exact sameRegs_of _ hr | exact hm | exact h rfl

/-- Every operation whose mask lies within the mask of `ps` keeps what lies outside `ps` as it was in `s0`. -/
theorem frame_keeps (ps : List Part) (s0 : State) : Keeps (fun t => FrameOf ps s0 t) (partMask ps) where
  setF := by
    intro s f v hb h p hp
    refine Part.same_trans (h p hp) (Part.same_setF p s f v ?_)
    intro hk
    obtain ⟨q, hq, hqk⟩ := (partMask_bit ps _).1 hb
    exact hp (Part.ctorIdx_inj (hqk.trans hk) ▸ hq)
  drop := by
    intro s q hb h p hp
    refine Part.same_trans (h p hp) (Part.same_drop p s q ?_)
    intro e he hk
    obtain ⟨r, hr, hrk⟩ := (partMask_bit ps _).1 (hb e he)
    exact hp (Part.ctorIdx_inj (hrk.trans hk) ▸ hr)
  dma := by
    intro s a bs hb h p hp
    refine Part.same_trans (h p hp) ?_
    obtain ⟨r, hr, hrk⟩ := (partMask_bit ps _).1 hb
    have hne : p ≠ .hostMem := fun he => hp (he ▸ (Part.ctorIdx_inj hrk ▸ hr))
    cases p <;> first | exact rfl | exact sameRegs_of _ rfl | exact absurd rfl hne
  rest := by
    intro s t hr hm hb h p hp
    refine Part.same_trans (h p hp) (Part.same_rest p hr hm (hb p ?_))
    by_contra hk
    obtain ⟨q, hq, hqk⟩ := (partMask_bit ps _).1 (by simpa using hk)
    exact hp (Part.ctorIdx_inj hqk ▸ hq)
  again := by
    intro s hb
    obtain ⟨q, _, hqk⟩ := (partMask_bit ps _).1 hb
    exact absurd hqk (Nat.ne_of_lt q.ctorIdx_lt)

theorem regsCanonical_set {l : List (Nat × Nat)} {k v : Nat} (h : regsCanonical l = true) :
    regsCanonical (spSet (resetOf k) l k v) = true := by
  unfold regsCanonical at *
  rw [Bool.and_eq_true, List.all_eq_true] at *
  refine ⟨spSet_sorted h.1, ?_⟩
  intro e he
  unfold spSet at he
  split at he
  · exact h.2 e (spDel_mem he)
  · rename_i hv
    rcases spIns_mem he with rfl | he
    · simpa using hv
    · exact h.2 e (spDel_mem he)

theorem regsCanonical_filter {l : List (Nat × Nat)} {q : Nat × Nat → Bool} (h : regsCanonical l = true) :
    regsCanonical (l.filter q) = true := by
  unfold regsCanonical at *
  rw [Bool.and_eq_true, List.all_eq_true] at *
  exact ⟨spSorted_filter q h.1, fun e he => h.2 e (List.mem_filter.1 he).1⟩

theorem canonical_iff (s : State) : s.canonical = true ↔ regsCanonical s.regs = true ∧ Memory.wf s.hostMem = true := by
  unfold State.canonical
  rw [Bool.and_eq_true]

/-- Every operation keeps the canonical form. -/
theorem canonical_keeps (A : Nat) : Keeps (fun t => t.canonical = true) A where
  setF := by
    intro s f v _ h
    rw [canonical_iff] at *
    exact ⟨regsCanonical_set h.1, h.2⟩
  drop := by
    intro s q _ h
    rw [canonical_iff] at *
    exact ⟨regsCanonical_filter h.1, h.2⟩
  dma := by
    intro s a bs _ h
    rw [canonical_iff] at *
    exact ⟨h.1, memWriteBytes_wf h.2⟩
  rest := by
    intro s t hr hm _ h
    rw [canonical_iff] at *
    rw [hr, hm]
    exact h
  again := by
    intro s _ h
    rw [canonical_iff] at *
    exact ⟨rfl, h.2⟩

end Sys2Proof.Machine
end

