-- ==== Sys2Proof/Laws/Commands.lean ====
section
/-! SUPPORT. What the shared operations of Bluem do, said once: a command that starts, one that a start check stops, and one that waits;
what taking an entry, mirroring and completing can touch. -/

set_option Elab.async false

namespace Sys2Proof.Machine

/-- A command that starts has its effect on the state with its entry taken, and ends with the effect's reply. -/
theorem runCmd_starts {k : CmdSpec} {f : Cmd → State → State × Reply} {c : Cmd} {s : State} (h : Starts k c s) :
    runCmd k f c s = .next (ended k c s (f c (taken c s)).1 (f c (taken c s)).2) := by
  simp only [runCmd, h.1, if_true, h.2]
  rfl

/-- A command that a start check stops ends with that check's status and DETAIL, without effect. -/
theorem runCmd_stopped {k : CmdSpec} {f : Cmd → State → State × Reply} {c : Cmd} {s : State} {st d : Nat} (h : canStart k c s = true)
    (h' : startCheck k c s = some (st, d)) : runCmd k f c s = .next (startFail k c (headSlot c s) (startStamp c s) st d s) := by
  simp only [runCmd, h, if_true, h']

/-- A command that cannot start and is not kept back by its ring's room leaves the state as it is. -/
theorem runCmd_waits {k : CmdSpec} {f : Cmd → State → State × Reply} {c : Cmd} {s : State} (h : canStart k c s = false)
    (h' : stalls c s = false) : runCmd k f c s = .next s := by
  simp [runCmd, h, h']

/-- A command that may wait and answers at once. -/
theorem runHeld_ends {k : CmdSpec} {f : Cmd → State → State × Option Reply} {c : Cmd} {s : State} {r : Reply} (h : Starts k c s)
    (h' : (f c (taken c s)).2 = some r) : runHeld k f c s = .next (ended k c s (f c (taken c s)).1 r) := by
  simp only [runHeld, h.1, if_true, h.2]
  unfold taken at h'
  rw [h']
  rfl

/-- A command that may wait and waits. -/
theorem runHeld_waits {k : CmdSpec} {f : Cmd → State → State × Option Reply} {c : Cmd} {s : State} (h : Starts k c s)
    (h' : (f c (taken c s)).2 = none) : runHeld k f c s = .next (heldBack k c s (f c (taken c s)).1) := by
  simp only [runHeld, h.1, if_true, h.2]
  unfold taken at h'
  rw [h']
  rfl

/-- A stepped command that starts takes its first step. -/
theorem runStepped_starts {k : CmdSpec} {f : LongOp → State → State × StepEnd} {c : Cmd} {s : State} (h : Starts k c s) :
    runStepped k f c s =
      .next (stepped k c s (f (firstRecord k c s) (begun k c s)).1 (f (firstRecord k c s) (begun k c s)).2) := by
  simp only [runStepped, h.1, if_true, h.2]
  rfl

theorem sub_of {m A : Nat} (h : m &&& A = m) : Sub m A := h

/-- Taking an entry touches the mailbox alone. -/
theorem taken_frame (c : Cmd) (s : State) : FrameOf [.rMbx, .mbx] s (taken c s) :=
  takeEntry_keeps (frame_keeps [.rMbx, .mbx] s) (sub_of rfl) (FrameOf.refl _ s)

/-- Mirroring and completing touch the mailbox, its rings, the host's memory, the twin's control frames and an image's list of commands. -/
theorem ended_frame (k : CmdSpec) (c : Cmd) (s s1 : State) (r : Reply) : FrameOf mailboxParts s1 (ended k c s s1 r) :=
  finish_keeps (frame_keeps mailboxParts s1) (sub_of rfl)
    (mirrorOut_keeps (frame_keeps mailboxParts s1) (sub_of rfl) (FrameOf.refl _ s1))

/-- A row that answers a next state has what its lemma says and what that state has. -/
theorem next_and {P Q : State → Prop} {o : Out} (h : Nx P o) {t : State} (ho : o = .next t) (hq : Q t) :
    ∃ t, o = .next t ∧ P t ∧ Q t := ⟨t, ho, h t ho, hq⟩

/-- A row that answers a next state has what its lemma says. -/
theorem next_only {P : State → Prop} {o : Out} (h : Nx P o) {t : State} (ho : o = .next t) : ∃ t, o = .next t ∧ P t := ⟨t, ho, h t ho⟩

/-! ### Fields -/

/-- A register field outside the parts of a frame reads as before. -/
theorem FrameOf.getF {ps : List Part} {s t : State} (h : FrameOf ps s t) (f : Fld)
    (hp : ps.all (fun p => decide (p.ctorIdx ≠ regPart f.addr)) = true) : t.getF f = s.getF f := by
  have key : ∀ p : Part, p.ctorIdx = regPart f.addr → p.same s t := by
    intro p hk
    refine h p (fun hm => ?_)
    exact absurd hk (of_decide_eq_true (List.all_eq_true.1 hp p hm))
  have hlt := regPart_lt f.addr
  have hof : ∀ n, n < 25 → (Part.ofNat n).ctorIdx = n := by decide
  have hs := key (Part.ofNat (regPart f.addr)) (hof _ hlt)
  have hreg : ∀ n, n < 25 → (Part.ofNat n).same s t → sameRegs n s t := by
    intro n hn
    interval_cases n <;> exact id
  exact hreg _ hlt hs f rfl

/-- Reading a register field after a write of one. -/
theorem getF_setF (s : State) (f g : Fld) (v : Nat) :
    (s.setF f v).getF g = if g.key = f.key then v % 2 ^ f.width else s.getF g := by
  split
  · rename_i h
    rw [State.getF_eq]
    show spGet (resetOf g.key) (spSet (resetOf f.key) s.regs f.key (v % 2 ^ f.width)) g.key = _
    rw [h]
    exact spGet_spSet_same _ _ _ _
  · rename_i h
    exact getF_setF_ne s v h

theorem FieldsOf.refl (fs : List Fld) (s : State) : FieldsOf fs s s := fun _ _ => rfl

/-- A field listed may be written. -/
theorem FieldsOf.setF {fs : List Fld} {s t : State} (h : FieldsOf fs s t) {f : Fld} (hf : f.key ∈ fs.map Fld.key) (v : Nat) :
    FieldsOf fs s (t.setF f v) := by
  intro g hg
  exact (getF_setF_ne t v (f := f) (g := g) (fun hk => hg (by rw [hk]; exact hf))).trans (h g hg)

/-- A state with the same registers differs in no field. -/
theorem FieldsOf.regs {fs : List Fld} {s t u : State} (h : FieldsOf fs s t) (hr : u.regs = t.regs) : FieldsOf fs s u := by
  intro f hf
  rw [← h f hf]
  unfold State.getF
  rw [hr]

/-- A pair reads what was written to it, narrowed to 64 bits. -/
theorem get64_set64 (s : State) (a v : Nat) : (s.set64 a v).get64 a = v % 2 ^ 64 := by
  unfold State.get64 State.set64
  have hne : (word a).key ≠ (word (a + 4)).key := by
    simp only [Fld.key, word]
    omega
  rw [getF_setF_same, getF_setF_ne _ _ hne, getF_setF_same]
  simp only [word]
  omega

end Sys2Proof.Machine
end

