-- ==== Sys2Proof/Laws/State.lean ====
section
/-! SUPPORT. Every named write to the state leaves each of the other fields as it was: one lemma a field and a write. -/

set_option Elab.async false

namespace Sys2Proof.Machine

variable (s : State)

@[simp] theorem State.setF_pending (f : Fld) (v : Nat) : (s.setF f v).pending = s.pending := rfl
@[simp] theorem State.setF_dtt (f : Fld) (v : Nat) : (s.setF f v).dtt = s.dtt := rfl
@[simp] theorem State.setF_hostMem (f : Fld) (v : Nat) : (s.setF f v).hostMem = s.hostMem := rfl
@[simp] theorem State.setF_freeCount (f : Fld) (v : Nat) : (s.setF f v).freeCount = s.freeCount := rfl
@[simp] theorem State.setF_evu (f : Fld) (v : Nat) : (s.setF f v).evu = s.evu := rfl
@[simp] theorem State.setF_rings (f : Fld) (v : Nat) : (s.setF f v).rings = s.rings := rfl
@[simp] theorem State.setF_bus (f : Fld) (v : Nat) : (s.setF f v).bus = s.bus := rfl
@[simp] theorem State.setF_mbx (f : Fld) (v : Nat) : (s.setF f v).mbx = s.mbx := rfl
@[simp] theorem State.setF_islands (f : Fld) (v : Nat) : (s.setF f v).islands = s.islands := rfl
@[simp] theorem State.setF_counters (f : Fld) (v : Nat) : (s.setF f v).counters = s.counters := rfl
@[simp] theorem State.setF_tb (f : Fld) (v : Nat) : (s.setF f v).tb = s.tb := rfl
@[simp] theorem State.setF_timed (f : Fld) (v : Nat) : (s.setF f v).timed = s.timed := rfl
@[simp] theorem State.setF_fifos (f : Fld) (v : Nat) : (s.setF f v).fifos = s.fifos := rfl
@[simp] theorem State.setF_lanes (f : Fld) (v : Nat) : (s.setF f v).lanes = s.lanes := rfl
@[simp] theorem State.setF_calRecs (f : Fld) (v : Nat) : (s.setF f v).calRecs = s.calRecs := rfl
@[simp] theorem State.setF_tt (f : Fld) (v : Nat) : (s.setF f v).tt = s.tt := rfl
@[simp] theorem State.setF_refs (f : Fld) (v : Nat) : (s.setF f v).refs = s.refs := rfl
@[simp] theorem State.setF_dpll (f : Fld) (v : Nat) : (s.setF f v).dpll = s.dpll := rfl
@[simp] theorem State.setF_gn (f : Fld) (v : Nat) : (s.setF f v).gn = s.gn := rfl
@[simp] theorem State.setF_em (f : Fld) (v : Nat) : (s.setF f v).em = s.em := rfl
@[simp] theorem State.setF_sw (f : Fld) (v : Nat) : (s.setF f v).sw = s.sw := rfl
@[simp] theorem State.setF_ft (f : Fld) (v : Nat) : (s.setF f v).ft = s.ft := rfl
@[simp] theorem State.setF_bf (f : Fld) (v : Nat) : (s.setF f v).bf = s.bf := rfl
@[simp] theorem State.setF_merges (f : Fld) (v : Nat) : (s.setF f v).merges = s.merges := rfl
@[simp] theorem State.setF_releases (f : Fld) (v : Nat) : (s.setF f v).releases = s.releases := rfl
@[simp] theorem State.setF_evd (f : Fld) (v : Nat) : (s.setF f v).evd = s.evd := rfl
@[simp] theorem State.setF_netRings (f : Fld) (v : Nat) : (s.setF f v).netRings = s.netRings := rfl
@[simp] theorem State.setF_selectors (f : Fld) (v : Nat) : (s.setF f v).selectors = s.selectors := rfl
@[simp] theorem State.setF_tw (f : Fld) (v : Nat) : (s.setF f v).tw = s.tw := rfl
@[simp] theorem State.setF_ctSeen (f : Fld) (v : Nat) : (s.setF f v).ctSeen = s.ctSeen := rfl
@[simp] theorem State.setF_bwFrom (f : Fld) (v : Nat) : (s.setF f v).bwFrom = s.bwFrom := rfl
@[simp] theorem State.setF_bwEnds (f : Fld) (v : Nat) : (s.setF f v).bwEnds = s.bwEnds := rfl
@[simp] theorem State.setF_mp (f : Fld) (v : Nat) : (s.setF f v).mp = s.mp := rfl
@[simp] theorem State.setF_cal (f : Fld) (v : Nat) : (s.setF f v).cal = s.cal := rfl
@[simp] theorem State.setF_fw (f : Fld) (v : Nat) : (s.setF f v).fw = s.fw := rfl
@[simp] theorem State.setF_sec (f : Fld) (v : Nat) : (s.setF f v).sec = s.sec := rfl
@[simp] theorem State.setF_ao (f : Fld) (v : Nat) : (s.setF f v).ao = s.ao := rfl
@[simp] theorem State.setF_boot (f : Fld) (v : Nat) : (s.setF f v).boot = s.boot := rfl

@[simp] theorem State.setB_pending (f : Fld) (b : Bool) : (s.setB f b).pending = s.pending := rfl
@[simp] theorem State.setB_dtt (f : Fld) (b : Bool) : (s.setB f b).dtt = s.dtt := rfl
@[simp] theorem State.setB_hostMem (f : Fld) (b : Bool) : (s.setB f b).hostMem = s.hostMem := rfl
@[simp] theorem State.setB_freeCount (f : Fld) (b : Bool) : (s.setB f b).freeCount = s.freeCount := rfl
@[simp] theorem State.setB_evu (f : Fld) (b : Bool) : (s.setB f b).evu = s.evu := rfl
@[simp] theorem State.setB_rings (f : Fld) (b : Bool) : (s.setB f b).rings = s.rings := rfl
@[simp] theorem State.setB_bus (f : Fld) (b : Bool) : (s.setB f b).bus = s.bus := rfl
@[simp] theorem State.setB_mbx (f : Fld) (b : Bool) : (s.setB f b).mbx = s.mbx := rfl
@[simp] theorem State.setB_islands (f : Fld) (b : Bool) : (s.setB f b).islands = s.islands := rfl
@[simp] theorem State.setB_counters (f : Fld) (b : Bool) : (s.setB f b).counters = s.counters := rfl
@[simp] theorem State.setB_tb (f : Fld) (b : Bool) : (s.setB f b).tb = s.tb := rfl
@[simp] theorem State.setB_timed (f : Fld) (b : Bool) : (s.setB f b).timed = s.timed := rfl
@[simp] theorem State.setB_fifos (f : Fld) (b : Bool) : (s.setB f b).fifos = s.fifos := rfl
@[simp] theorem State.setB_lanes (f : Fld) (b : Bool) : (s.setB f b).lanes = s.lanes := rfl
@[simp] theorem State.setB_calRecs (f : Fld) (b : Bool) : (s.setB f b).calRecs = s.calRecs := rfl
@[simp] theorem State.setB_tt (f : Fld) (b : Bool) : (s.setB f b).tt = s.tt := rfl
@[simp] theorem State.setB_refs (f : Fld) (b : Bool) : (s.setB f b).refs = s.refs := rfl
@[simp] theorem State.setB_dpll (f : Fld) (b : Bool) : (s.setB f b).dpll = s.dpll := rfl
@[simp] theorem State.setB_gn (f : Fld) (b : Bool) : (s.setB f b).gn = s.gn := rfl
@[simp] theorem State.setB_em (f : Fld) (b : Bool) : (s.setB f b).em = s.em := rfl
@[simp] theorem State.setB_sw (f : Fld) (b : Bool) : (s.setB f b).sw = s.sw := rfl
@[simp] theorem State.setB_ft (f : Fld) (b : Bool) : (s.setB f b).ft = s.ft := rfl
@[simp] theorem State.setB_bf (f : Fld) (b : Bool) : (s.setB f b).bf = s.bf := rfl
@[simp] theorem State.setB_merges (f : Fld) (b : Bool) : (s.setB f b).merges = s.merges := rfl
@[simp] theorem State.setB_releases (f : Fld) (b : Bool) : (s.setB f b).releases = s.releases := rfl
@[simp] theorem State.setB_evd (f : Fld) (b : Bool) : (s.setB f b).evd = s.evd := rfl
@[simp] theorem State.setB_netRings (f : Fld) (b : Bool) : (s.setB f b).netRings = s.netRings := rfl
@[simp] theorem State.setB_selectors (f : Fld) (b : Bool) : (s.setB f b).selectors = s.selectors := rfl
@[simp] theorem State.setB_tw (f : Fld) (b : Bool) : (s.setB f b).tw = s.tw := rfl
@[simp] theorem State.setB_ctSeen (f : Fld) (b : Bool) : (s.setB f b).ctSeen = s.ctSeen := rfl
@[simp] theorem State.setB_bwFrom (f : Fld) (b : Bool) : (s.setB f b).bwFrom = s.bwFrom := rfl
@[simp] theorem State.setB_bwEnds (f : Fld) (b : Bool) : (s.setB f b).bwEnds = s.bwEnds := rfl
@[simp] theorem State.setB_mp (f : Fld) (b : Bool) : (s.setB f b).mp = s.mp := rfl
@[simp] theorem State.setB_cal (f : Fld) (b : Bool) : (s.setB f b).cal = s.cal := rfl
@[simp] theorem State.setB_fw (f : Fld) (b : Bool) : (s.setB f b).fw = s.fw := rfl
@[simp] theorem State.setB_sec (f : Fld) (b : Bool) : (s.setB f b).sec = s.sec := rfl
@[simp] theorem State.setB_ao (f : Fld) (b : Bool) : (s.setB f b).ao = s.ao := rfl
@[simp] theorem State.setB_boot (f : Fld) (b : Bool) : (s.setB f b).boot = s.boot := rfl

@[simp] theorem State.setI_pending (f : Fld) (v : Int) : (s.setI f v).pending = s.pending := rfl
@[simp] theorem State.setI_dtt (f : Fld) (v : Int) : (s.setI f v).dtt = s.dtt := rfl
@[simp] theorem State.setI_hostMem (f : Fld) (v : Int) : (s.setI f v).hostMem = s.hostMem := rfl
@[simp] theorem State.setI_freeCount (f : Fld) (v : Int) : (s.setI f v).freeCount = s.freeCount := rfl
@[simp] theorem State.setI_evu (f : Fld) (v : Int) : (s.setI f v).evu = s.evu := rfl
@[simp] theorem State.setI_rings (f : Fld) (v : Int) : (s.setI f v).rings = s.rings := rfl
@[simp] theorem State.setI_bus (f : Fld) (v : Int) : (s.setI f v).bus = s.bus := rfl
@[simp] theorem State.setI_mbx (f : Fld) (v : Int) : (s.setI f v).mbx = s.mbx := rfl
@[simp] theorem State.setI_islands (f : Fld) (v : Int) : (s.setI f v).islands = s.islands := rfl
@[simp] theorem State.setI_counters (f : Fld) (v : Int) : (s.setI f v).counters = s.counters := rfl
@[simp] theorem State.setI_tb (f : Fld) (v : Int) : (s.setI f v).tb = s.tb := rfl
@[simp] theorem State.setI_timed (f : Fld) (v : Int) : (s.setI f v).timed = s.timed := rfl
@[simp] theorem State.setI_fifos (f : Fld) (v : Int) : (s.setI f v).fifos = s.fifos := rfl
@[simp] theorem State.setI_lanes (f : Fld) (v : Int) : (s.setI f v).lanes = s.lanes := rfl
@[simp] theorem State.setI_calRecs (f : Fld) (v : Int) : (s.setI f v).calRecs = s.calRecs := rfl
@[simp] theorem State.setI_tt (f : Fld) (v : Int) : (s.setI f v).tt = s.tt := rfl
@[simp] theorem State.setI_refs (f : Fld) (v : Int) : (s.setI f v).refs = s.refs := rfl
@[simp] theorem State.setI_dpll (f : Fld) (v : Int) : (s.setI f v).dpll = s.dpll := rfl
@[simp] theorem State.setI_gn (f : Fld) (v : Int) : (s.setI f v).gn = s.gn := rfl
@[simp] theorem State.setI_em (f : Fld) (v : Int) : (s.setI f v).em = s.em := rfl
@[simp] theorem State.setI_sw (f : Fld) (v : Int) : (s.setI f v).sw = s.sw := rfl
@[simp] theorem State.setI_ft (f : Fld) (v : Int) : (s.setI f v).ft = s.ft := rfl
@[simp] theorem State.setI_bf (f : Fld) (v : Int) : (s.setI f v).bf = s.bf := rfl
@[simp] theorem State.setI_merges (f : Fld) (v : Int) : (s.setI f v).merges = s.merges := rfl
@[simp] theorem State.setI_releases (f : Fld) (v : Int) : (s.setI f v).releases = s.releases := rfl
@[simp] theorem State.setI_evd (f : Fld) (v : Int) : (s.setI f v).evd = s.evd := rfl
@[simp] theorem State.setI_netRings (f : Fld) (v : Int) : (s.setI f v).netRings = s.netRings := rfl
@[simp] theorem State.setI_selectors (f : Fld) (v : Int) : (s.setI f v).selectors = s.selectors := rfl
@[simp] theorem State.setI_tw (f : Fld) (v : Int) : (s.setI f v).tw = s.tw := rfl
@[simp] theorem State.setI_ctSeen (f : Fld) (v : Int) : (s.setI f v).ctSeen = s.ctSeen := rfl
@[simp] theorem State.setI_bwFrom (f : Fld) (v : Int) : (s.setI f v).bwFrom = s.bwFrom := rfl
@[simp] theorem State.setI_bwEnds (f : Fld) (v : Int) : (s.setI f v).bwEnds = s.bwEnds := rfl
@[simp] theorem State.setI_mp (f : Fld) (v : Int) : (s.setI f v).mp = s.mp := rfl
@[simp] theorem State.setI_cal (f : Fld) (v : Int) : (s.setI f v).cal = s.cal := rfl
@[simp] theorem State.setI_fw (f : Fld) (v : Int) : (s.setI f v).fw = s.fw := rfl
@[simp] theorem State.setI_sec (f : Fld) (v : Int) : (s.setI f v).sec = s.sec := rfl
@[simp] theorem State.setI_ao (f : Fld) (v : Int) : (s.setI f v).ao = s.ao := rfl
@[simp] theorem State.setI_boot (f : Fld) (v : Int) : (s.setI f v).boot = s.boot := rfl

@[simp] theorem State.addSat_pending (f : Fld) (n : Nat) : (s.addSat f n).pending = s.pending := rfl
@[simp] theorem State.addSat_dtt (f : Fld) (n : Nat) : (s.addSat f n).dtt = s.dtt := rfl
@[simp] theorem State.addSat_hostMem (f : Fld) (n : Nat) : (s.addSat f n).hostMem = s.hostMem := rfl
@[simp] theorem State.addSat_freeCount (f : Fld) (n : Nat) : (s.addSat f n).freeCount = s.freeCount := rfl
@[simp] theorem State.addSat_evu (f : Fld) (n : Nat) : (s.addSat f n).evu = s.evu := rfl
@[simp] theorem State.addSat_rings (f : Fld) (n : Nat) : (s.addSat f n).rings = s.rings := rfl
@[simp] theorem State.addSat_bus (f : Fld) (n : Nat) : (s.addSat f n).bus = s.bus := rfl
@[simp] theorem State.addSat_mbx (f : Fld) (n : Nat) : (s.addSat f n).mbx = s.mbx := rfl
@[simp] theorem State.addSat_islands (f : Fld) (n : Nat) : (s.addSat f n).islands = s.islands := rfl
@[simp] theorem State.addSat_counters (f : Fld) (n : Nat) : (s.addSat f n).counters = s.counters := rfl
@[simp] theorem State.addSat_tb (f : Fld) (n : Nat) : (s.addSat f n).tb = s.tb := rfl
@[simp] theorem State.addSat_timed (f : Fld) (n : Nat) : (s.addSat f n).timed = s.timed := rfl
@[simp] theorem State.addSat_fifos (f : Fld) (n : Nat) : (s.addSat f n).fifos = s.fifos := rfl
@[simp] theorem State.addSat_lanes (f : Fld) (n : Nat) : (s.addSat f n).lanes = s.lanes := rfl
@[simp] theorem State.addSat_calRecs (f : Fld) (n : Nat) : (s.addSat f n).calRecs = s.calRecs := rfl
@[simp] theorem State.addSat_tt (f : Fld) (n : Nat) : (s.addSat f n).tt = s.tt := rfl
@[simp] theorem State.addSat_refs (f : Fld) (n : Nat) : (s.addSat f n).refs = s.refs := rfl
@[simp] theorem State.addSat_dpll (f : Fld) (n : Nat) : (s.addSat f n).dpll = s.dpll := rfl
@[simp] theorem State.addSat_gn (f : Fld) (n : Nat) : (s.addSat f n).gn = s.gn := rfl
@[simp] theorem State.addSat_em (f : Fld) (n : Nat) : (s.addSat f n).em = s.em := rfl
@[simp] theorem State.addSat_sw (f : Fld) (n : Nat) : (s.addSat f n).sw = s.sw := rfl
@[simp] theorem State.addSat_ft (f : Fld) (n : Nat) : (s.addSat f n).ft = s.ft := rfl
@[simp] theorem State.addSat_bf (f : Fld) (n : Nat) : (s.addSat f n).bf = s.bf := rfl
@[simp] theorem State.addSat_merges (f : Fld) (n : Nat) : (s.addSat f n).merges = s.merges := rfl
@[simp] theorem State.addSat_releases (f : Fld) (n : Nat) : (s.addSat f n).releases = s.releases := rfl
@[simp] theorem State.addSat_evd (f : Fld) (n : Nat) : (s.addSat f n).evd = s.evd := rfl
@[simp] theorem State.addSat_netRings (f : Fld) (n : Nat) : (s.addSat f n).netRings = s.netRings := rfl
@[simp] theorem State.addSat_selectors (f : Fld) (n : Nat) : (s.addSat f n).selectors = s.selectors := rfl
@[simp] theorem State.addSat_tw (f : Fld) (n : Nat) : (s.addSat f n).tw = s.tw := rfl
@[simp] theorem State.addSat_ctSeen (f : Fld) (n : Nat) : (s.addSat f n).ctSeen = s.ctSeen := rfl
@[simp] theorem State.addSat_bwFrom (f : Fld) (n : Nat) : (s.addSat f n).bwFrom = s.bwFrom := rfl
@[simp] theorem State.addSat_bwEnds (f : Fld) (n : Nat) : (s.addSat f n).bwEnds = s.bwEnds := rfl
@[simp] theorem State.addSat_mp (f : Fld) (n : Nat) : (s.addSat f n).mp = s.mp := rfl
@[simp] theorem State.addSat_cal (f : Fld) (n : Nat) : (s.addSat f n).cal = s.cal := rfl
@[simp] theorem State.addSat_fw (f : Fld) (n : Nat) : (s.addSat f n).fw = s.fw := rfl
@[simp] theorem State.addSat_sec (f : Fld) (n : Nat) : (s.addSat f n).sec = s.sec := rfl
@[simp] theorem State.addSat_ao (f : Fld) (n : Nat) : (s.addSat f n).ao = s.ao := rfl
@[simp] theorem State.addSat_boot (f : Fld) (n : Nat) : (s.addSat f n).boot = s.boot := rfl

@[simp] theorem State.addWrap_pending (f : Fld) (n : Nat) : (s.addWrap f n).pending = s.pending := rfl
@[simp] theorem State.addWrap_dtt (f : Fld) (n : Nat) : (s.addWrap f n).dtt = s.dtt := rfl
@[simp] theorem State.addWrap_hostMem (f : Fld) (n : Nat) : (s.addWrap f n).hostMem = s.hostMem := rfl
@[simp] theorem State.addWrap_freeCount (f : Fld) (n : Nat) : (s.addWrap f n).freeCount = s.freeCount := rfl
@[simp] theorem State.addWrap_evu (f : Fld) (n : Nat) : (s.addWrap f n).evu = s.evu := rfl
@[simp] theorem State.addWrap_rings (f : Fld) (n : Nat) : (s.addWrap f n).rings = s.rings := rfl
@[simp] theorem State.addWrap_bus (f : Fld) (n : Nat) : (s.addWrap f n).bus = s.bus := rfl
@[simp] theorem State.addWrap_mbx (f : Fld) (n : Nat) : (s.addWrap f n).mbx = s.mbx := rfl
@[simp] theorem State.addWrap_islands (f : Fld) (n : Nat) : (s.addWrap f n).islands = s.islands := rfl
@[simp] theorem State.addWrap_counters (f : Fld) (n : Nat) : (s.addWrap f n).counters = s.counters := rfl
@[simp] theorem State.addWrap_tb (f : Fld) (n : Nat) : (s.addWrap f n).tb = s.tb := rfl
@[simp] theorem State.addWrap_timed (f : Fld) (n : Nat) : (s.addWrap f n).timed = s.timed := rfl
@[simp] theorem State.addWrap_fifos (f : Fld) (n : Nat) : (s.addWrap f n).fifos = s.fifos := rfl
@[simp] theorem State.addWrap_lanes (f : Fld) (n : Nat) : (s.addWrap f n).lanes = s.lanes := rfl
@[simp] theorem State.addWrap_calRecs (f : Fld) (n : Nat) : (s.addWrap f n).calRecs = s.calRecs := rfl
@[simp] theorem State.addWrap_tt (f : Fld) (n : Nat) : (s.addWrap f n).tt = s.tt := rfl
@[simp] theorem State.addWrap_refs (f : Fld) (n : Nat) : (s.addWrap f n).refs = s.refs := rfl
@[simp] theorem State.addWrap_dpll (f : Fld) (n : Nat) : (s.addWrap f n).dpll = s.dpll := rfl
@[simp] theorem State.addWrap_gn (f : Fld) (n : Nat) : (s.addWrap f n).gn = s.gn := rfl
@[simp] theorem State.addWrap_em (f : Fld) (n : Nat) : (s.addWrap f n).em = s.em := rfl
@[simp] theorem State.addWrap_sw (f : Fld) (n : Nat) : (s.addWrap f n).sw = s.sw := rfl
@[simp] theorem State.addWrap_ft (f : Fld) (n : Nat) : (s.addWrap f n).ft = s.ft := rfl
@[simp] theorem State.addWrap_bf (f : Fld) (n : Nat) : (s.addWrap f n).bf = s.bf := rfl
@[simp] theorem State.addWrap_merges (f : Fld) (n : Nat) : (s.addWrap f n).merges = s.merges := rfl
@[simp] theorem State.addWrap_releases (f : Fld) (n : Nat) : (s.addWrap f n).releases = s.releases := rfl
@[simp] theorem State.addWrap_evd (f : Fld) (n : Nat) : (s.addWrap f n).evd = s.evd := rfl
@[simp] theorem State.addWrap_netRings (f : Fld) (n : Nat) : (s.addWrap f n).netRings = s.netRings := rfl
@[simp] theorem State.addWrap_selectors (f : Fld) (n : Nat) : (s.addWrap f n).selectors = s.selectors := rfl
@[simp] theorem State.addWrap_tw (f : Fld) (n : Nat) : (s.addWrap f n).tw = s.tw := rfl
@[simp] theorem State.addWrap_ctSeen (f : Fld) (n : Nat) : (s.addWrap f n).ctSeen = s.ctSeen := rfl
@[simp] theorem State.addWrap_bwFrom (f : Fld) (n : Nat) : (s.addWrap f n).bwFrom = s.bwFrom := rfl
@[simp] theorem State.addWrap_bwEnds (f : Fld) (n : Nat) : (s.addWrap f n).bwEnds = s.bwEnds := rfl
@[simp] theorem State.addWrap_mp (f : Fld) (n : Nat) : (s.addWrap f n).mp = s.mp := rfl
@[simp] theorem State.addWrap_cal (f : Fld) (n : Nat) : (s.addWrap f n).cal = s.cal := rfl
@[simp] theorem State.addWrap_fw (f : Fld) (n : Nat) : (s.addWrap f n).fw = s.fw := rfl
@[simp] theorem State.addWrap_sec (f : Fld) (n : Nat) : (s.addWrap f n).sec = s.sec := rfl
@[simp] theorem State.addWrap_ao (f : Fld) (n : Nat) : (s.addWrap f n).ao = s.ao := rfl
@[simp] theorem State.addWrap_boot (f : Fld) (n : Nat) : (s.addWrap f n).boot = s.boot := rfl

@[simp] theorem State.set64_pending (a v : Nat) : (s.set64 a v).pending = s.pending := rfl
@[simp] theorem State.set64_dtt (a v : Nat) : (s.set64 a v).dtt = s.dtt := rfl
@[simp] theorem State.set64_hostMem (a v : Nat) : (s.set64 a v).hostMem = s.hostMem := rfl
@[simp] theorem State.set64_freeCount (a v : Nat) : (s.set64 a v).freeCount = s.freeCount := rfl
@[simp] theorem State.set64_evu (a v : Nat) : (s.set64 a v).evu = s.evu := rfl
@[simp] theorem State.set64_rings (a v : Nat) : (s.set64 a v).rings = s.rings := rfl
@[simp] theorem State.set64_bus (a v : Nat) : (s.set64 a v).bus = s.bus := rfl
@[simp] theorem State.set64_mbx (a v : Nat) : (s.set64 a v).mbx = s.mbx := rfl
@[simp] theorem State.set64_islands (a v : Nat) : (s.set64 a v).islands = s.islands := rfl
@[simp] theorem State.set64_counters (a v : Nat) : (s.set64 a v).counters = s.counters := rfl
@[simp] theorem State.set64_tb (a v : Nat) : (s.set64 a v).tb = s.tb := rfl
@[simp] theorem State.set64_timed (a v : Nat) : (s.set64 a v).timed = s.timed := rfl
@[simp] theorem State.set64_fifos (a v : Nat) : (s.set64 a v).fifos = s.fifos := rfl
@[simp] theorem State.set64_lanes (a v : Nat) : (s.set64 a v).lanes = s.lanes := rfl
@[simp] theorem State.set64_calRecs (a v : Nat) : (s.set64 a v).calRecs = s.calRecs := rfl
@[simp] theorem State.set64_tt (a v : Nat) : (s.set64 a v).tt = s.tt := rfl
@[simp] theorem State.set64_refs (a v : Nat) : (s.set64 a v).refs = s.refs := rfl
@[simp] theorem State.set64_dpll (a v : Nat) : (s.set64 a v).dpll = s.dpll := rfl
@[simp] theorem State.set64_gn (a v : Nat) : (s.set64 a v).gn = s.gn := rfl
@[simp] theorem State.set64_em (a v : Nat) : (s.set64 a v).em = s.em := rfl
@[simp] theorem State.set64_sw (a v : Nat) : (s.set64 a v).sw = s.sw := rfl
@[simp] theorem State.set64_ft (a v : Nat) : (s.set64 a v).ft = s.ft := rfl
@[simp] theorem State.set64_bf (a v : Nat) : (s.set64 a v).bf = s.bf := rfl
@[simp] theorem State.set64_merges (a v : Nat) : (s.set64 a v).merges = s.merges := rfl
@[simp] theorem State.set64_releases (a v : Nat) : (s.set64 a v).releases = s.releases := rfl
@[simp] theorem State.set64_evd (a v : Nat) : (s.set64 a v).evd = s.evd := rfl
@[simp] theorem State.set64_netRings (a v : Nat) : (s.set64 a v).netRings = s.netRings := rfl
@[simp] theorem State.set64_selectors (a v : Nat) : (s.set64 a v).selectors = s.selectors := rfl
@[simp] theorem State.set64_tw (a v : Nat) : (s.set64 a v).tw = s.tw := rfl
@[simp] theorem State.set64_ctSeen (a v : Nat) : (s.set64 a v).ctSeen = s.ctSeen := rfl
@[simp] theorem State.set64_bwFrom (a v : Nat) : (s.set64 a v).bwFrom = s.bwFrom := rfl
@[simp] theorem State.set64_bwEnds (a v : Nat) : (s.set64 a v).bwEnds = s.bwEnds := rfl
@[simp] theorem State.set64_mp (a v : Nat) : (s.set64 a v).mp = s.mp := rfl
@[simp] theorem State.set64_cal (a v : Nat) : (s.set64 a v).cal = s.cal := rfl
@[simp] theorem State.set64_fw (a v : Nat) : (s.set64 a v).fw = s.fw := rfl
@[simp] theorem State.set64_sec (a v : Nat) : (s.set64 a v).sec = s.sec := rfl
@[simp] theorem State.set64_ao (a v : Nat) : (s.set64 a v).ao = s.ao := rfl
@[simp] theorem State.set64_boot (a v : Nat) : (s.set64 a v).boot = s.boot := rfl

@[simp] theorem State.setI64_pending (a : Nat) (v : Int) : (s.setI64 a v).pending = s.pending := rfl
@[simp] theorem State.setI64_dtt (a : Nat) (v : Int) : (s.setI64 a v).dtt = s.dtt := rfl
@[simp] theorem State.setI64_hostMem (a : Nat) (v : Int) : (s.setI64 a v).hostMem = s.hostMem := rfl
@[simp] theorem State.setI64_freeCount (a : Nat) (v : Int) : (s.setI64 a v).freeCount = s.freeCount := rfl
@[simp] theorem State.setI64_evu (a : Nat) (v : Int) : (s.setI64 a v).evu = s.evu := rfl
@[simp] theorem State.setI64_rings (a : Nat) (v : Int) : (s.setI64 a v).rings = s.rings := rfl
@[simp] theorem State.setI64_bus (a : Nat) (v : Int) : (s.setI64 a v).bus = s.bus := rfl
@[simp] theorem State.setI64_mbx (a : Nat) (v : Int) : (s.setI64 a v).mbx = s.mbx := rfl
@[simp] theorem State.setI64_islands (a : Nat) (v : Int) : (s.setI64 a v).islands = s.islands := rfl
@[simp] theorem State.setI64_counters (a : Nat) (v : Int) : (s.setI64 a v).counters = s.counters := rfl
@[simp] theorem State.setI64_tb (a : Nat) (v : Int) : (s.setI64 a v).tb = s.tb := rfl
@[simp] theorem State.setI64_timed (a : Nat) (v : Int) : (s.setI64 a v).timed = s.timed := rfl
@[simp] theorem State.setI64_fifos (a : Nat) (v : Int) : (s.setI64 a v).fifos = s.fifos := rfl
@[simp] theorem State.setI64_lanes (a : Nat) (v : Int) : (s.setI64 a v).lanes = s.lanes := rfl
@[simp] theorem State.setI64_calRecs (a : Nat) (v : Int) : (s.setI64 a v).calRecs = s.calRecs := rfl
@[simp] theorem State.setI64_tt (a : Nat) (v : Int) : (s.setI64 a v).tt = s.tt := rfl
@[simp] theorem State.setI64_refs (a : Nat) (v : Int) : (s.setI64 a v).refs = s.refs := rfl
@[simp] theorem State.setI64_dpll (a : Nat) (v : Int) : (s.setI64 a v).dpll = s.dpll := rfl
@[simp] theorem State.setI64_gn (a : Nat) (v : Int) : (s.setI64 a v).gn = s.gn := rfl
@[simp] theorem State.setI64_em (a : Nat) (v : Int) : (s.setI64 a v).em = s.em := rfl
@[simp] theorem State.setI64_sw (a : Nat) (v : Int) : (s.setI64 a v).sw = s.sw := rfl
@[simp] theorem State.setI64_ft (a : Nat) (v : Int) : (s.setI64 a v).ft = s.ft := rfl
@[simp] theorem State.setI64_bf (a : Nat) (v : Int) : (s.setI64 a v).bf = s.bf := rfl
@[simp] theorem State.setI64_merges (a : Nat) (v : Int) : (s.setI64 a v).merges = s.merges := rfl
@[simp] theorem State.setI64_releases (a : Nat) (v : Int) : (s.setI64 a v).releases = s.releases := rfl
@[simp] theorem State.setI64_evd (a : Nat) (v : Int) : (s.setI64 a v).evd = s.evd := rfl
@[simp] theorem State.setI64_netRings (a : Nat) (v : Int) : (s.setI64 a v).netRings = s.netRings := rfl
@[simp] theorem State.setI64_selectors (a : Nat) (v : Int) : (s.setI64 a v).selectors = s.selectors := rfl
@[simp] theorem State.setI64_tw (a : Nat) (v : Int) : (s.setI64 a v).tw = s.tw := rfl
@[simp] theorem State.setI64_ctSeen (a : Nat) (v : Int) : (s.setI64 a v).ctSeen = s.ctSeen := rfl
@[simp] theorem State.setI64_bwFrom (a : Nat) (v : Int) : (s.setI64 a v).bwFrom = s.bwFrom := rfl
@[simp] theorem State.setI64_bwEnds (a : Nat) (v : Int) : (s.setI64 a v).bwEnds = s.bwEnds := rfl
@[simp] theorem State.setI64_mp (a : Nat) (v : Int) : (s.setI64 a v).mp = s.mp := rfl
@[simp] theorem State.setI64_cal (a : Nat) (v : Int) : (s.setI64 a v).cal = s.cal := rfl
@[simp] theorem State.setI64_fw (a : Nat) (v : Int) : (s.setI64 a v).fw = s.fw := rfl
@[simp] theorem State.setI64_sec (a : Nat) (v : Int) : (s.setI64 a v).sec = s.sec := rfl
@[simp] theorem State.setI64_ao (a : Nat) (v : Int) : (s.setI64 a v).ao = s.ao := rfl
@[simp] theorem State.setI64_boot (a : Nat) (v : Int) : (s.setI64 a v).boot = s.boot := rfl

@[simp] theorem State.set96_pending (a v : Nat) : (s.set96 a v).pending = s.pending := rfl
@[simp] theorem State.set96_dtt (a v : Nat) : (s.set96 a v).dtt = s.dtt := rfl
@[simp] theorem State.set96_hostMem (a v : Nat) : (s.set96 a v).hostMem = s.hostMem := rfl
@[simp] theorem State.set96_freeCount (a v : Nat) : (s.set96 a v).freeCount = s.freeCount := rfl
@[simp] theorem State.set96_evu (a v : Nat) : (s.set96 a v).evu = s.evu := rfl
@[simp] theorem State.set96_rings (a v : Nat) : (s.set96 a v).rings = s.rings := rfl
@[simp] theorem State.set96_bus (a v : Nat) : (s.set96 a v).bus = s.bus := rfl
@[simp] theorem State.set96_mbx (a v : Nat) : (s.set96 a v).mbx = s.mbx := rfl
@[simp] theorem State.set96_islands (a v : Nat) : (s.set96 a v).islands = s.islands := rfl
@[simp] theorem State.set96_counters (a v : Nat) : (s.set96 a v).counters = s.counters := rfl
@[simp] theorem State.set96_tb (a v : Nat) : (s.set96 a v).tb = s.tb := rfl
@[simp] theorem State.set96_timed (a v : Nat) : (s.set96 a v).timed = s.timed := rfl
@[simp] theorem State.set96_fifos (a v : Nat) : (s.set96 a v).fifos = s.fifos := rfl
@[simp] theorem State.set96_lanes (a v : Nat) : (s.set96 a v).lanes = s.lanes := rfl
@[simp] theorem State.set96_calRecs (a v : Nat) : (s.set96 a v).calRecs = s.calRecs := rfl
@[simp] theorem State.set96_tt (a v : Nat) : (s.set96 a v).tt = s.tt := rfl
@[simp] theorem State.set96_refs (a v : Nat) : (s.set96 a v).refs = s.refs := rfl
@[simp] theorem State.set96_dpll (a v : Nat) : (s.set96 a v).dpll = s.dpll := rfl
@[simp] theorem State.set96_gn (a v : Nat) : (s.set96 a v).gn = s.gn := rfl
@[simp] theorem State.set96_em (a v : Nat) : (s.set96 a v).em = s.em := rfl
@[simp] theorem State.set96_sw (a v : Nat) : (s.set96 a v).sw = s.sw := rfl
@[simp] theorem State.set96_ft (a v : Nat) : (s.set96 a v).ft = s.ft := rfl
@[simp] theorem State.set96_bf (a v : Nat) : (s.set96 a v).bf = s.bf := rfl
@[simp] theorem State.set96_merges (a v : Nat) : (s.set96 a v).merges = s.merges := rfl
@[simp] theorem State.set96_releases (a v : Nat) : (s.set96 a v).releases = s.releases := rfl
@[simp] theorem State.set96_evd (a v : Nat) : (s.set96 a v).evd = s.evd := rfl
@[simp] theorem State.set96_netRings (a v : Nat) : (s.set96 a v).netRings = s.netRings := rfl
@[simp] theorem State.set96_selectors (a v : Nat) : (s.set96 a v).selectors = s.selectors := rfl
@[simp] theorem State.set96_tw (a v : Nat) : (s.set96 a v).tw = s.tw := rfl
@[simp] theorem State.set96_ctSeen (a v : Nat) : (s.set96 a v).ctSeen = s.ctSeen := rfl
@[simp] theorem State.set96_bwFrom (a v : Nat) : (s.set96 a v).bwFrom = s.bwFrom := rfl
@[simp] theorem State.set96_bwEnds (a v : Nat) : (s.set96 a v).bwEnds = s.bwEnds := rfl
@[simp] theorem State.set96_mp (a v : Nat) : (s.set96 a v).mp = s.mp := rfl
@[simp] theorem State.set96_cal (a v : Nat) : (s.set96 a v).cal = s.cal := rfl
@[simp] theorem State.set96_fw (a v : Nat) : (s.set96 a v).fw = s.fw := rfl
@[simp] theorem State.set96_sec (a v : Nat) : (s.set96 a v).sec = s.sec := rfl
@[simp] theorem State.set96_ao (a v : Nat) : (s.set96 a v).ao = s.ao := rfl
@[simp] theorem State.set96_boot (a v : Nat) : (s.set96 a v).boot = s.boot := rfl

@[simp] theorem State.dma_pending (a : Nat) (bs : Bytes) : (s.dma a bs).pending = s.pending := rfl
@[simp] theorem State.dma_dtt (a : Nat) (bs : Bytes) : (s.dma a bs).dtt = s.dtt := rfl
@[simp] theorem State.dma_regs (a : Nat) (bs : Bytes) : (s.dma a bs).regs = s.regs := rfl
@[simp] theorem State.dma_freeCount (a : Nat) (bs : Bytes) : (s.dma a bs).freeCount = s.freeCount := rfl
@[simp] theorem State.dma_evu (a : Nat) (bs : Bytes) : (s.dma a bs).evu = s.evu := rfl
@[simp] theorem State.dma_rings (a : Nat) (bs : Bytes) : (s.dma a bs).rings = s.rings := rfl
@[simp] theorem State.dma_bus (a : Nat) (bs : Bytes) : (s.dma a bs).bus = s.bus := rfl
@[simp] theorem State.dma_mbx (a : Nat) (bs : Bytes) : (s.dma a bs).mbx = s.mbx := rfl
@[simp] theorem State.dma_islands (a : Nat) (bs : Bytes) : (s.dma a bs).islands = s.islands := rfl
@[simp] theorem State.dma_counters (a : Nat) (bs : Bytes) : (s.dma a bs).counters = s.counters := rfl
@[simp] theorem State.dma_tb (a : Nat) (bs : Bytes) : (s.dma a bs).tb = s.tb := rfl
@[simp] theorem State.dma_timed (a : Nat) (bs : Bytes) : (s.dma a bs).timed = s.timed := rfl
@[simp] theorem State.dma_fifos (a : Nat) (bs : Bytes) : (s.dma a bs).fifos = s.fifos := rfl
@[simp] theorem State.dma_lanes (a : Nat) (bs : Bytes) : (s.dma a bs).lanes = s.lanes := rfl
@[simp] theorem State.dma_calRecs (a : Nat) (bs : Bytes) : (s.dma a bs).calRecs = s.calRecs := rfl
@[simp] theorem State.dma_tt (a : Nat) (bs : Bytes) : (s.dma a bs).tt = s.tt := rfl
@[simp] theorem State.dma_refs (a : Nat) (bs : Bytes) : (s.dma a bs).refs = s.refs := rfl
@[simp] theorem State.dma_dpll (a : Nat) (bs : Bytes) : (s.dma a bs).dpll = s.dpll := rfl
@[simp] theorem State.dma_gn (a : Nat) (bs : Bytes) : (s.dma a bs).gn = s.gn := rfl
@[simp] theorem State.dma_em (a : Nat) (bs : Bytes) : (s.dma a bs).em = s.em := rfl
@[simp] theorem State.dma_sw (a : Nat) (bs : Bytes) : (s.dma a bs).sw = s.sw := rfl
@[simp] theorem State.dma_ft (a : Nat) (bs : Bytes) : (s.dma a bs).ft = s.ft := rfl
@[simp] theorem State.dma_bf (a : Nat) (bs : Bytes) : (s.dma a bs).bf = s.bf := rfl
@[simp] theorem State.dma_merges (a : Nat) (bs : Bytes) : (s.dma a bs).merges = s.merges := rfl
@[simp] theorem State.dma_releases (a : Nat) (bs : Bytes) : (s.dma a bs).releases = s.releases := rfl
@[simp] theorem State.dma_evd (a : Nat) (bs : Bytes) : (s.dma a bs).evd = s.evd := rfl
@[simp] theorem State.dma_netRings (a : Nat) (bs : Bytes) : (s.dma a bs).netRings = s.netRings := rfl
@[simp] theorem State.dma_selectors (a : Nat) (bs : Bytes) : (s.dma a bs).selectors = s.selectors := rfl
@[simp] theorem State.dma_tw (a : Nat) (bs : Bytes) : (s.dma a bs).tw = s.tw := rfl
@[simp] theorem State.dma_ctSeen (a : Nat) (bs : Bytes) : (s.dma a bs).ctSeen = s.ctSeen := rfl
@[simp] theorem State.dma_bwFrom (a : Nat) (bs : Bytes) : (s.dma a bs).bwFrom = s.bwFrom := rfl
@[simp] theorem State.dma_bwEnds (a : Nat) (bs : Bytes) : (s.dma a bs).bwEnds = s.bwEnds := rfl
@[simp] theorem State.dma_mp (a : Nat) (bs : Bytes) : (s.dma a bs).mp = s.mp := rfl
@[simp] theorem State.dma_cal (a : Nat) (bs : Bytes) : (s.dma a bs).cal = s.cal := rfl
@[simp] theorem State.dma_fw (a : Nat) (bs : Bytes) : (s.dma a bs).fw = s.fw := rfl
@[simp] theorem State.dma_sec (a : Nat) (bs : Bytes) : (s.dma a bs).sec = s.sec := rfl
@[simp] theorem State.dma_ao (a : Nat) (bs : Bytes) : (s.dma a bs).ao = s.ao := rfl
@[simp] theorem State.dma_boot (a : Nat) (bs : Bytes) : (s.dma a bs).boot = s.boot := rfl

@[simp] theorem State.setRing_pending (r : Nat) (d : RingDyn) : (s.setRing r d).pending = s.pending := rfl
@[simp] theorem State.setRing_dtt (r : Nat) (d : RingDyn) : (s.setRing r d).dtt = s.dtt := rfl
@[simp] theorem State.setRing_regs (r : Nat) (d : RingDyn) : (s.setRing r d).regs = s.regs := rfl
@[simp] theorem State.setRing_hostMem (r : Nat) (d : RingDyn) : (s.setRing r d).hostMem = s.hostMem := rfl
@[simp] theorem State.setRing_freeCount (r : Nat) (d : RingDyn) : (s.setRing r d).freeCount = s.freeCount := rfl
@[simp] theorem State.setRing_evu (r : Nat) (d : RingDyn) : (s.setRing r d).evu = s.evu := rfl
@[simp] theorem State.setRing_bus (r : Nat) (d : RingDyn) : (s.setRing r d).bus = s.bus := rfl
@[simp] theorem State.setRing_mbx (r : Nat) (d : RingDyn) : (s.setRing r d).mbx = s.mbx := rfl
@[simp] theorem State.setRing_islands (r : Nat) (d : RingDyn) : (s.setRing r d).islands = s.islands := rfl
@[simp] theorem State.setRing_counters (r : Nat) (d : RingDyn) : (s.setRing r d).counters = s.counters := rfl
@[simp] theorem State.setRing_tb (r : Nat) (d : RingDyn) : (s.setRing r d).tb = s.tb := rfl
@[simp] theorem State.setRing_timed (r : Nat) (d : RingDyn) : (s.setRing r d).timed = s.timed := rfl
@[simp] theorem State.setRing_fifos (r : Nat) (d : RingDyn) : (s.setRing r d).fifos = s.fifos := rfl
@[simp] theorem State.setRing_lanes (r : Nat) (d : RingDyn) : (s.setRing r d).lanes = s.lanes := rfl
@[simp] theorem State.setRing_calRecs (r : Nat) (d : RingDyn) : (s.setRing r d).calRecs = s.calRecs := rfl
@[simp] theorem State.setRing_tt (r : Nat) (d : RingDyn) : (s.setRing r d).tt = s.tt := rfl
@[simp] theorem State.setRing_refs (r : Nat) (d : RingDyn) : (s.setRing r d).refs = s.refs := rfl
@[simp] theorem State.setRing_dpll (r : Nat) (d : RingDyn) : (s.setRing r d).dpll = s.dpll := rfl
@[simp] theorem State.setRing_gn (r : Nat) (d : RingDyn) : (s.setRing r d).gn = s.gn := rfl
@[simp] theorem State.setRing_em (r : Nat) (d : RingDyn) : (s.setRing r d).em = s.em := rfl
@[simp] theorem State.setRing_sw (r : Nat) (d : RingDyn) : (s.setRing r d).sw = s.sw := rfl
@[simp] theorem State.setRing_ft (r : Nat) (d : RingDyn) : (s.setRing r d).ft = s.ft := rfl
@[simp] theorem State.setRing_bf (r : Nat) (d : RingDyn) : (s.setRing r d).bf = s.bf := rfl
@[simp] theorem State.setRing_merges (r : Nat) (d : RingDyn) : (s.setRing r d).merges = s.merges := rfl
@[simp] theorem State.setRing_releases (r : Nat) (d : RingDyn) : (s.setRing r d).releases = s.releases := rfl
@[simp] theorem State.setRing_evd (r : Nat) (d : RingDyn) : (s.setRing r d).evd = s.evd := rfl
@[simp] theorem State.setRing_netRings (r : Nat) (d : RingDyn) : (s.setRing r d).netRings = s.netRings := rfl
@[simp] theorem State.setRing_selectors (r : Nat) (d : RingDyn) : (s.setRing r d).selectors = s.selectors := rfl
@[simp] theorem State.setRing_tw (r : Nat) (d : RingDyn) : (s.setRing r d).tw = s.tw := rfl
@[simp] theorem State.setRing_ctSeen (r : Nat) (d : RingDyn) : (s.setRing r d).ctSeen = s.ctSeen := rfl
@[simp] theorem State.setRing_bwFrom (r : Nat) (d : RingDyn) : (s.setRing r d).bwFrom = s.bwFrom := rfl
@[simp] theorem State.setRing_bwEnds (r : Nat) (d : RingDyn) : (s.setRing r d).bwEnds = s.bwEnds := rfl
@[simp] theorem State.setRing_mp (r : Nat) (d : RingDyn) : (s.setRing r d).mp = s.mp := rfl
@[simp] theorem State.setRing_cal (r : Nat) (d : RingDyn) : (s.setRing r d).cal = s.cal := rfl
@[simp] theorem State.setRing_fw (r : Nat) (d : RingDyn) : (s.setRing r d).fw = s.fw := rfl
@[simp] theorem State.setRing_sec (r : Nat) (d : RingDyn) : (s.setRing r d).sec = s.sec := rfl
@[simp] theorem State.setRing_ao (r : Nat) (d : RingDyn) : (s.setRing r d).ao = s.ao := rfl
@[simp] theorem State.setRing_boot (r : Nat) (d : RingDyn) : (s.setRing r d).boot = s.boot := rfl

@[simp] theorem State.setQueue_pending (q : Nat) (x : Queue) : (s.setQueue q x).pending = s.pending := by unfold State.setQueue; split <;> rfl
@[simp] theorem State.setQueue_dtt (q : Nat) (x : Queue) : (s.setQueue q x).dtt = s.dtt := by unfold State.setQueue; split <;> rfl
@[simp] theorem State.setQueue_regs (q : Nat) (x : Queue) : (s.setQueue q x).regs = s.regs := by unfold State.setQueue; split <;> rfl
@[simp] theorem State.setQueue_hostMem (q : Nat) (x : Queue) : (s.setQueue q x).hostMem = s.hostMem := by unfold State.setQueue; split <;> rfl
@[simp] theorem State.setQueue_freeCount (q : Nat) (x : Queue) : (s.setQueue q x).freeCount = s.freeCount := by unfold State.setQueue; split <;> rfl
@[simp] theorem State.setQueue_evu (q : Nat) (x : Queue) : (s.setQueue q x).evu = s.evu := by unfold State.setQueue; split <;> rfl
@[simp] theorem State.setQueue_rings (q : Nat) (x : Queue) : (s.setQueue q x).rings = s.rings := by unfold State.setQueue; split <;> rfl
@[simp] theorem State.setQueue_bus (q : Nat) (x : Queue) : (s.setQueue q x).bus = s.bus := by unfold State.setQueue; split <;> rfl
@[simp] theorem State.setQueue_islands (q : Nat) (x : Queue) : (s.setQueue q x).islands = s.islands := by unfold State.setQueue; split <;> rfl
@[simp] theorem State.setQueue_counters (q : Nat) (x : Queue) : (s.setQueue q x).counters = s.counters := by unfold State.setQueue; split <;> rfl
@[simp] theorem State.setQueue_tb (q : Nat) (x : Queue) : (s.setQueue q x).tb = s.tb := by unfold State.setQueue; split <;> rfl
@[simp] theorem State.setQueue_timed (q : Nat) (x : Queue) : (s.setQueue q x).timed = s.timed := by unfold State.setQueue; split <;> rfl
@[simp] theorem State.setQueue_fifos (q : Nat) (x : Queue) : (s.setQueue q x).fifos = s.fifos := by unfold State.setQueue; split <;> rfl
@[simp] theorem State.setQueue_lanes (q : Nat) (x : Queue) : (s.setQueue q x).lanes = s.lanes := by unfold State.setQueue; split <;> rfl
@[simp] theorem State.setQueue_calRecs (q : Nat) (x : Queue) : (s.setQueue q x).calRecs = s.calRecs := by unfold State.setQueue; split <;> rfl
@[simp] theorem State.setQueue_tt (q : Nat) (x : Queue) : (s.setQueue q x).tt = s.tt := by unfold State.setQueue; split <;> rfl
@[simp] theorem State.setQueue_refs (q : Nat) (x : Queue) : (s.setQueue q x).refs = s.refs := by unfold State.setQueue; split <;> rfl
@[simp] theorem State.setQueue_dpll (q : Nat) (x : Queue) : (s.setQueue q x).dpll = s.dpll := by unfold State.setQueue; split <;> rfl
@[simp] theorem State.setQueue_gn (q : Nat) (x : Queue) : (s.setQueue q x).gn = s.gn := by unfold State.setQueue; split <;> rfl
@[simp] theorem State.setQueue_em (q : Nat) (x : Queue) : (s.setQueue q x).em = s.em := by unfold State.setQueue; split <;> rfl
@[simp] theorem State.setQueue_sw (q : Nat) (x : Queue) : (s.setQueue q x).sw = s.sw := by unfold State.setQueue; split <;> rfl
@[simp] theorem State.setQueue_ft (q : Nat) (x : Queue) : (s.setQueue q x).ft = s.ft := by unfold State.setQueue; split <;> rfl
@[simp] theorem State.setQueue_bf (q : Nat) (x : Queue) : (s.setQueue q x).bf = s.bf := by unfold State.setQueue; split <;> rfl
@[simp] theorem State.setQueue_merges (q : Nat) (x : Queue) : (s.setQueue q x).merges = s.merges := by unfold State.setQueue; split <;> rfl
@[simp] theorem State.setQueue_releases (q : Nat) (x : Queue) : (s.setQueue q x).releases = s.releases := by unfold State.setQueue; split <;> rfl
@[simp] theorem State.setQueue_evd (q : Nat) (x : Queue) : (s.setQueue q x).evd = s.evd := by unfold State.setQueue; split <;> rfl
@[simp] theorem State.setQueue_netRings (q : Nat) (x : Queue) : (s.setQueue q x).netRings = s.netRings := by unfold State.setQueue; split <;> rfl
@[simp] theorem State.setQueue_selectors (q : Nat) (x : Queue) : (s.setQueue q x).selectors = s.selectors := by unfold State.setQueue; split <;> rfl
@[simp] theorem State.setQueue_tw (q : Nat) (x : Queue) : (s.setQueue q x).tw = s.tw := by unfold State.setQueue; split <;> rfl
@[simp] theorem State.setQueue_ctSeen (q : Nat) (x : Queue) : (s.setQueue q x).ctSeen = s.ctSeen := by unfold State.setQueue; split <;> rfl
@[simp] theorem State.setQueue_bwFrom (q : Nat) (x : Queue) : (s.setQueue q x).bwFrom = s.bwFrom := by unfold State.setQueue; split <;> rfl
@[simp] theorem State.setQueue_bwEnds (q : Nat) (x : Queue) : (s.setQueue q x).bwEnds = s.bwEnds := by unfold State.setQueue; split <;> rfl
@[simp] theorem State.setQueue_mp (q : Nat) (x : Queue) : (s.setQueue q x).mp = s.mp := by unfold State.setQueue; split <;> rfl
@[simp] theorem State.setQueue_cal (q : Nat) (x : Queue) : (s.setQueue q x).cal = s.cal := by unfold State.setQueue; split <;> rfl
@[simp] theorem State.setQueue_fw (q : Nat) (x : Queue) : (s.setQueue q x).fw = s.fw := by unfold State.setQueue; split <;> rfl
@[simp] theorem State.setQueue_sec (q : Nat) (x : Queue) : (s.setQueue q x).sec = s.sec := by unfold State.setQueue; split <;> rfl
@[simp] theorem State.setQueue_ao (q : Nat) (x : Queue) : (s.setQueue q x).ao = s.ao := by unfold State.setQueue; split <;> rfl
@[simp] theorem State.setQueue_boot (q : Nat) (x : Queue) : (s.setQueue q x).boot = s.boot := by unfold State.setQueue; split <;> rfl

@[simp] theorem State.setDom_pending (d : Nat) (x : Domain) : (s.setDom d x).pending = s.pending := by unfold State.setDom; split <;> rfl
@[simp] theorem State.setDom_dtt (d : Nat) (x : Domain) : (s.setDom d x).dtt = s.dtt := by unfold State.setDom; split <;> rfl
@[simp] theorem State.setDom_regs (d : Nat) (x : Domain) : (s.setDom d x).regs = s.regs := by unfold State.setDom; split <;> rfl
@[simp] theorem State.setDom_hostMem (d : Nat) (x : Domain) : (s.setDom d x).hostMem = s.hostMem := by unfold State.setDom; split <;> rfl
@[simp] theorem State.setDom_freeCount (d : Nat) (x : Domain) : (s.setDom d x).freeCount = s.freeCount := by unfold State.setDom; split <;> rfl
@[simp] theorem State.setDom_evu (d : Nat) (x : Domain) : (s.setDom d x).evu = s.evu := by unfold State.setDom; split <;> rfl
@[simp] theorem State.setDom_rings (d : Nat) (x : Domain) : (s.setDom d x).rings = s.rings := by unfold State.setDom; split <;> rfl
@[simp] theorem State.setDom_bus (d : Nat) (x : Domain) : (s.setDom d x).bus = s.bus := by unfold State.setDom; split <;> rfl
@[simp] theorem State.setDom_mbx (d : Nat) (x : Domain) : (s.setDom d x).mbx = s.mbx := by unfold State.setDom; split <;> rfl
@[simp] theorem State.setDom_islands (d : Nat) (x : Domain) : (s.setDom d x).islands = s.islands := by unfold State.setDom; split <;> rfl
@[simp] theorem State.setDom_counters (d : Nat) (x : Domain) : (s.setDom d x).counters = s.counters := by unfold State.setDom; split <;> rfl
@[simp] theorem State.setDom_timed (d : Nat) (x : Domain) : (s.setDom d x).timed = s.timed := by unfold State.setDom; split <;> rfl
@[simp] theorem State.setDom_fifos (d : Nat) (x : Domain) : (s.setDom d x).fifos = s.fifos := by unfold State.setDom; split <;> rfl
@[simp] theorem State.setDom_lanes (d : Nat) (x : Domain) : (s.setDom d x).lanes = s.lanes := by unfold State.setDom; split <;> rfl
@[simp] theorem State.setDom_calRecs (d : Nat) (x : Domain) : (s.setDom d x).calRecs = s.calRecs := by unfold State.setDom; split <;> rfl
@[simp] theorem State.setDom_tt (d : Nat) (x : Domain) : (s.setDom d x).tt = s.tt := by unfold State.setDom; split <;> rfl
@[simp] theorem State.setDom_refs (d : Nat) (x : Domain) : (s.setDom d x).refs = s.refs := by unfold State.setDom; split <;> rfl
@[simp] theorem State.setDom_dpll (d : Nat) (x : Domain) : (s.setDom d x).dpll = s.dpll := by unfold State.setDom; split <;> rfl
@[simp] theorem State.setDom_gn (d : Nat) (x : Domain) : (s.setDom d x).gn = s.gn := by unfold State.setDom; split <;> rfl
@[simp] theorem State.setDom_em (d : Nat) (x : Domain) : (s.setDom d x).em = s.em := by unfold State.setDom; split <;> rfl
@[simp] theorem State.setDom_sw (d : Nat) (x : Domain) : (s.setDom d x).sw = s.sw := by unfold State.setDom; split <;> rfl
@[simp] theorem State.setDom_ft (d : Nat) (x : Domain) : (s.setDom d x).ft = s.ft := by unfold State.setDom; split <;> rfl
@[simp] theorem State.setDom_bf (d : Nat) (x : Domain) : (s.setDom d x).bf = s.bf := by unfold State.setDom; split <;> rfl
@[simp] theorem State.setDom_merges (d : Nat) (x : Domain) : (s.setDom d x).merges = s.merges := by unfold State.setDom; split <;> rfl
@[simp] theorem State.setDom_releases (d : Nat) (x : Domain) : (s.setDom d x).releases = s.releases := by unfold State.setDom; split <;> rfl
@[simp] theorem State.setDom_evd (d : Nat) (x : Domain) : (s.setDom d x).evd = s.evd := by unfold State.setDom; split <;> rfl
@[simp] theorem State.setDom_netRings (d : Nat) (x : Domain) : (s.setDom d x).netRings = s.netRings := by unfold State.setDom; split <;> rfl
@[simp] theorem State.setDom_selectors (d : Nat) (x : Domain) : (s.setDom d x).selectors = s.selectors := by unfold State.setDom; split <;> rfl
@[simp] theorem State.setDom_tw (d : Nat) (x : Domain) : (s.setDom d x).tw = s.tw := by unfold State.setDom; split <;> rfl
@[simp] theorem State.setDom_ctSeen (d : Nat) (x : Domain) : (s.setDom d x).ctSeen = s.ctSeen := by unfold State.setDom; split <;> rfl
@[simp] theorem State.setDom_bwFrom (d : Nat) (x : Domain) : (s.setDom d x).bwFrom = s.bwFrom := by unfold State.setDom; split <;> rfl
@[simp] theorem State.setDom_bwEnds (d : Nat) (x : Domain) : (s.setDom d x).bwEnds = s.bwEnds := by unfold State.setDom; split <;> rfl
@[simp] theorem State.setDom_mp (d : Nat) (x : Domain) : (s.setDom d x).mp = s.mp := by unfold State.setDom; split <;> rfl
@[simp] theorem State.setDom_cal (d : Nat) (x : Domain) : (s.setDom d x).cal = s.cal := by unfold State.setDom; split <;> rfl
@[simp] theorem State.setDom_fw (d : Nat) (x : Domain) : (s.setDom d x).fw = s.fw := by unfold State.setDom; split <;> rfl
@[simp] theorem State.setDom_sec (d : Nat) (x : Domain) : (s.setDom d x).sec = s.sec := by unfold State.setDom; split <;> rfl
@[simp] theorem State.setDom_ao (d : Nat) (x : Domain) : (s.setDom d x).ao = s.ao := by unfold State.setDom; split <;> rfl
@[simp] theorem State.setDom_boot (d : Nat) (x : Domain) : (s.setDom d x).boot = s.boot := by unfold State.setDom; split <;> rfl

@[simp] theorem State.setLane_pending (n : Nat) (l : Lane) : (s.setLane n l).pending = s.pending := rfl
@[simp] theorem State.setLane_dtt (n : Nat) (l : Lane) : (s.setLane n l).dtt = s.dtt := rfl
@[simp] theorem State.setLane_regs (n : Nat) (l : Lane) : (s.setLane n l).regs = s.regs := rfl
@[simp] theorem State.setLane_hostMem (n : Nat) (l : Lane) : (s.setLane n l).hostMem = s.hostMem := rfl
@[simp] theorem State.setLane_freeCount (n : Nat) (l : Lane) : (s.setLane n l).freeCount = s.freeCount := rfl
@[simp] theorem State.setLane_evu (n : Nat) (l : Lane) : (s.setLane n l).evu = s.evu := rfl
@[simp] theorem State.setLane_rings (n : Nat) (l : Lane) : (s.setLane n l).rings = s.rings := rfl
@[simp] theorem State.setLane_bus (n : Nat) (l : Lane) : (s.setLane n l).bus = s.bus := rfl
@[simp] theorem State.setLane_mbx (n : Nat) (l : Lane) : (s.setLane n l).mbx = s.mbx := rfl
@[simp] theorem State.setLane_islands (n : Nat) (l : Lane) : (s.setLane n l).islands = s.islands := rfl
@[simp] theorem State.setLane_counters (n : Nat) (l : Lane) : (s.setLane n l).counters = s.counters := rfl
@[simp] theorem State.setLane_tb (n : Nat) (l : Lane) : (s.setLane n l).tb = s.tb := rfl
@[simp] theorem State.setLane_timed (n : Nat) (l : Lane) : (s.setLane n l).timed = s.timed := rfl
@[simp] theorem State.setLane_fifos (n : Nat) (l : Lane) : (s.setLane n l).fifos = s.fifos := rfl
@[simp] theorem State.setLane_calRecs (n : Nat) (l : Lane) : (s.setLane n l).calRecs = s.calRecs := rfl
@[simp] theorem State.setLane_tt (n : Nat) (l : Lane) : (s.setLane n l).tt = s.tt := rfl
@[simp] theorem State.setLane_refs (n : Nat) (l : Lane) : (s.setLane n l).refs = s.refs := rfl
@[simp] theorem State.setLane_dpll (n : Nat) (l : Lane) : (s.setLane n l).dpll = s.dpll := rfl
@[simp] theorem State.setLane_gn (n : Nat) (l : Lane) : (s.setLane n l).gn = s.gn := rfl
@[simp] theorem State.setLane_em (n : Nat) (l : Lane) : (s.setLane n l).em = s.em := rfl
@[simp] theorem State.setLane_sw (n : Nat) (l : Lane) : (s.setLane n l).sw = s.sw := rfl
@[simp] theorem State.setLane_ft (n : Nat) (l : Lane) : (s.setLane n l).ft = s.ft := rfl
@[simp] theorem State.setLane_bf (n : Nat) (l : Lane) : (s.setLane n l).bf = s.bf := rfl
@[simp] theorem State.setLane_merges (n : Nat) (l : Lane) : (s.setLane n l).merges = s.merges := rfl
@[simp] theorem State.setLane_releases (n : Nat) (l : Lane) : (s.setLane n l).releases = s.releases := rfl
@[simp] theorem State.setLane_evd (n : Nat) (l : Lane) : (s.setLane n l).evd = s.evd := rfl
@[simp] theorem State.setLane_netRings (n : Nat) (l : Lane) : (s.setLane n l).netRings = s.netRings := rfl
@[simp] theorem State.setLane_selectors (n : Nat) (l : Lane) : (s.setLane n l).selectors = s.selectors := rfl
@[simp] theorem State.setLane_tw (n : Nat) (l : Lane) : (s.setLane n l).tw = s.tw := rfl
@[simp] theorem State.setLane_ctSeen (n : Nat) (l : Lane) : (s.setLane n l).ctSeen = s.ctSeen := rfl
@[simp] theorem State.setLane_bwFrom (n : Nat) (l : Lane) : (s.setLane n l).bwFrom = s.bwFrom := rfl
@[simp] theorem State.setLane_bwEnds (n : Nat) (l : Lane) : (s.setLane n l).bwEnds = s.bwEnds := rfl
@[simp] theorem State.setLane_mp (n : Nat) (l : Lane) : (s.setLane n l).mp = s.mp := rfl
@[simp] theorem State.setLane_cal (n : Nat) (l : Lane) : (s.setLane n l).cal = s.cal := rfl
@[simp] theorem State.setLane_fw (n : Nat) (l : Lane) : (s.setLane n l).fw = s.fw := rfl
@[simp] theorem State.setLane_sec (n : Nat) (l : Lane) : (s.setLane n l).sec = s.sec := rfl
@[simp] theorem State.setLane_ao (n : Nat) (l : Lane) : (s.setLane n l).ao = s.ao := rfl
@[simp] theorem State.setLane_boot (n : Nat) (l : Lane) : (s.setLane n l).boot = s.boot := rfl

@[simp] theorem State.setCalRec_pending (k : Nat) (r : CalRec) : (s.setCalRec k r).pending = s.pending := rfl
@[simp] theorem State.setCalRec_dtt (k : Nat) (r : CalRec) : (s.setCalRec k r).dtt = s.dtt := rfl
@[simp] theorem State.setCalRec_regs (k : Nat) (r : CalRec) : (s.setCalRec k r).regs = s.regs := rfl
@[simp] theorem State.setCalRec_hostMem (k : Nat) (r : CalRec) : (s.setCalRec k r).hostMem = s.hostMem := rfl
@[simp] theorem State.setCalRec_freeCount (k : Nat) (r : CalRec) : (s.setCalRec k r).freeCount = s.freeCount := rfl
@[simp] theorem State.setCalRec_evu (k : Nat) (r : CalRec) : (s.setCalRec k r).evu = s.evu := rfl
@[simp] theorem State.setCalRec_rings (k : Nat) (r : CalRec) : (s.setCalRec k r).rings = s.rings := rfl
@[simp] theorem State.setCalRec_bus (k : Nat) (r : CalRec) : (s.setCalRec k r).bus = s.bus := rfl
@[simp] theorem State.setCalRec_mbx (k : Nat) (r : CalRec) : (s.setCalRec k r).mbx = s.mbx := rfl
@[simp] theorem State.setCalRec_islands (k : Nat) (r : CalRec) : (s.setCalRec k r).islands = s.islands := rfl
@[simp] theorem State.setCalRec_counters (k : Nat) (r : CalRec) : (s.setCalRec k r).counters = s.counters := rfl
@[simp] theorem State.setCalRec_tb (k : Nat) (r : CalRec) : (s.setCalRec k r).tb = s.tb := rfl
@[simp] theorem State.setCalRec_timed (k : Nat) (r : CalRec) : (s.setCalRec k r).timed = s.timed := rfl
@[simp] theorem State.setCalRec_fifos (k : Nat) (r : CalRec) : (s.setCalRec k r).fifos = s.fifos := rfl
@[simp] theorem State.setCalRec_lanes (k : Nat) (r : CalRec) : (s.setCalRec k r).lanes = s.lanes := rfl
@[simp] theorem State.setCalRec_tt (k : Nat) (r : CalRec) : (s.setCalRec k r).tt = s.tt := rfl
@[simp] theorem State.setCalRec_refs (k : Nat) (r : CalRec) : (s.setCalRec k r).refs = s.refs := rfl
@[simp] theorem State.setCalRec_dpll (k : Nat) (r : CalRec) : (s.setCalRec k r).dpll = s.dpll := rfl
@[simp] theorem State.setCalRec_gn (k : Nat) (r : CalRec) : (s.setCalRec k r).gn = s.gn := rfl
@[simp] theorem State.setCalRec_em (k : Nat) (r : CalRec) : (s.setCalRec k r).em = s.em := rfl
@[simp] theorem State.setCalRec_sw (k : Nat) (r : CalRec) : (s.setCalRec k r).sw = s.sw := rfl
@[simp] theorem State.setCalRec_ft (k : Nat) (r : CalRec) : (s.setCalRec k r).ft = s.ft := rfl
@[simp] theorem State.setCalRec_bf (k : Nat) (r : CalRec) : (s.setCalRec k r).bf = s.bf := rfl
@[simp] theorem State.setCalRec_merges (k : Nat) (r : CalRec) : (s.setCalRec k r).merges = s.merges := rfl
@[simp] theorem State.setCalRec_releases (k : Nat) (r : CalRec) : (s.setCalRec k r).releases = s.releases := rfl
@[simp] theorem State.setCalRec_evd (k : Nat) (r : CalRec) : (s.setCalRec k r).evd = s.evd := rfl
@[simp] theorem State.setCalRec_netRings (k : Nat) (r : CalRec) : (s.setCalRec k r).netRings = s.netRings := rfl
@[simp] theorem State.setCalRec_selectors (k : Nat) (r : CalRec) : (s.setCalRec k r).selectors = s.selectors := rfl
@[simp] theorem State.setCalRec_tw (k : Nat) (r : CalRec) : (s.setCalRec k r).tw = s.tw := rfl
@[simp] theorem State.setCalRec_ctSeen (k : Nat) (r : CalRec) : (s.setCalRec k r).ctSeen = s.ctSeen := rfl
@[simp] theorem State.setCalRec_bwFrom (k : Nat) (r : CalRec) : (s.setCalRec k r).bwFrom = s.bwFrom := rfl
@[simp] theorem State.setCalRec_bwEnds (k : Nat) (r : CalRec) : (s.setCalRec k r).bwEnds = s.bwEnds := rfl
@[simp] theorem State.setCalRec_mp (k : Nat) (r : CalRec) : (s.setCalRec k r).mp = s.mp := rfl
@[simp] theorem State.setCalRec_cal (k : Nat) (r : CalRec) : (s.setCalRec k r).cal = s.cal := rfl
@[simp] theorem State.setCalRec_fw (k : Nat) (r : CalRec) : (s.setCalRec k r).fw = s.fw := rfl
@[simp] theorem State.setCalRec_sec (k : Nat) (r : CalRec) : (s.setCalRec k r).sec = s.sec := rfl
@[simp] theorem State.setCalRec_ao (k : Nat) (r : CalRec) : (s.setCalRec k r).ao = s.ao := rfl
@[simp] theorem State.setCalRec_boot (k : Nat) (r : CalRec) : (s.setCalRec k r).boot = s.boot := rfl

@[simp] theorem State.setSession_pending (n : Nat) (x : Session) : (s.setSession n x).pending = s.pending := rfl
@[simp] theorem State.setSession_dtt (n : Nat) (x : Session) : (s.setSession n x).dtt = s.dtt := rfl
@[simp] theorem State.setSession_regs (n : Nat) (x : Session) : (s.setSession n x).regs = s.regs := rfl
@[simp] theorem State.setSession_hostMem (n : Nat) (x : Session) : (s.setSession n x).hostMem = s.hostMem := rfl
@[simp] theorem State.setSession_freeCount (n : Nat) (x : Session) : (s.setSession n x).freeCount = s.freeCount := rfl
@[simp] theorem State.setSession_evu (n : Nat) (x : Session) : (s.setSession n x).evu = s.evu := rfl
@[simp] theorem State.setSession_rings (n : Nat) (x : Session) : (s.setSession n x).rings = s.rings := rfl
@[simp] theorem State.setSession_bus (n : Nat) (x : Session) : (s.setSession n x).bus = s.bus := rfl
@[simp] theorem State.setSession_mbx (n : Nat) (x : Session) : (s.setSession n x).mbx = s.mbx := rfl
@[simp] theorem State.setSession_islands (n : Nat) (x : Session) : (s.setSession n x).islands = s.islands := rfl
@[simp] theorem State.setSession_counters (n : Nat) (x : Session) : (s.setSession n x).counters = s.counters := rfl
@[simp] theorem State.setSession_tb (n : Nat) (x : Session) : (s.setSession n x).tb = s.tb := rfl
@[simp] theorem State.setSession_timed (n : Nat) (x : Session) : (s.setSession n x).timed = s.timed := rfl
@[simp] theorem State.setSession_fifos (n : Nat) (x : Session) : (s.setSession n x).fifos = s.fifos := rfl
@[simp] theorem State.setSession_lanes (n : Nat) (x : Session) : (s.setSession n x).lanes = s.lanes := rfl
@[simp] theorem State.setSession_calRecs (n : Nat) (x : Session) : (s.setSession n x).calRecs = s.calRecs := rfl
@[simp] theorem State.setSession_refs (n : Nat) (x : Session) : (s.setSession n x).refs = s.refs := rfl
@[simp] theorem State.setSession_dpll (n : Nat) (x : Session) : (s.setSession n x).dpll = s.dpll := rfl
@[simp] theorem State.setSession_gn (n : Nat) (x : Session) : (s.setSession n x).gn = s.gn := rfl
@[simp] theorem State.setSession_em (n : Nat) (x : Session) : (s.setSession n x).em = s.em := rfl
@[simp] theorem State.setSession_sw (n : Nat) (x : Session) : (s.setSession n x).sw = s.sw := rfl
@[simp] theorem State.setSession_ft (n : Nat) (x : Session) : (s.setSession n x).ft = s.ft := rfl
@[simp] theorem State.setSession_bf (n : Nat) (x : Session) : (s.setSession n x).bf = s.bf := rfl
@[simp] theorem State.setSession_merges (n : Nat) (x : Session) : (s.setSession n x).merges = s.merges := rfl
@[simp] theorem State.setSession_releases (n : Nat) (x : Session) : (s.setSession n x).releases = s.releases := rfl
@[simp] theorem State.setSession_evd (n : Nat) (x : Session) : (s.setSession n x).evd = s.evd := rfl
@[simp] theorem State.setSession_netRings (n : Nat) (x : Session) : (s.setSession n x).netRings = s.netRings := rfl
@[simp] theorem State.setSession_selectors (n : Nat) (x : Session) : (s.setSession n x).selectors = s.selectors := rfl
@[simp] theorem State.setSession_tw (n : Nat) (x : Session) : (s.setSession n x).tw = s.tw := rfl
@[simp] theorem State.setSession_ctSeen (n : Nat) (x : Session) : (s.setSession n x).ctSeen = s.ctSeen := rfl
@[simp] theorem State.setSession_bwFrom (n : Nat) (x : Session) : (s.setSession n x).bwFrom = s.bwFrom := rfl
@[simp] theorem State.setSession_bwEnds (n : Nat) (x : Session) : (s.setSession n x).bwEnds = s.bwEnds := rfl
@[simp] theorem State.setSession_mp (n : Nat) (x : Session) : (s.setSession n x).mp = s.mp := rfl
@[simp] theorem State.setSession_cal (n : Nat) (x : Session) : (s.setSession n x).cal = s.cal := rfl
@[simp] theorem State.setSession_fw (n : Nat) (x : Session) : (s.setSession n x).fw = s.fw := rfl
@[simp] theorem State.setSession_sec (n : Nat) (x : Session) : (s.setSession n x).sec = s.sec := rfl
@[simp] theorem State.setSession_ao (n : Nat) (x : Session) : (s.setSession n x).ao = s.ao := rfl
@[simp] theorem State.setSession_boot (n : Nat) (x : Session) : (s.setSession n x).boot = s.boot := rfl

@[simp] theorem State.setServo_pending (n : Nat) (x : Servo) : (s.setServo n x).pending = s.pending := rfl
@[simp] theorem State.setServo_dtt (n : Nat) (x : Servo) : (s.setServo n x).dtt = s.dtt := rfl
@[simp] theorem State.setServo_regs (n : Nat) (x : Servo) : (s.setServo n x).regs = s.regs := rfl
@[simp] theorem State.setServo_hostMem (n : Nat) (x : Servo) : (s.setServo n x).hostMem = s.hostMem := rfl
@[simp] theorem State.setServo_freeCount (n : Nat) (x : Servo) : (s.setServo n x).freeCount = s.freeCount := rfl
@[simp] theorem State.setServo_evu (n : Nat) (x : Servo) : (s.setServo n x).evu = s.evu := rfl
@[simp] theorem State.setServo_rings (n : Nat) (x : Servo) : (s.setServo n x).rings = s.rings := rfl
@[simp] theorem State.setServo_bus (n : Nat) (x : Servo) : (s.setServo n x).bus = s.bus := rfl
@[simp] theorem State.setServo_mbx (n : Nat) (x : Servo) : (s.setServo n x).mbx = s.mbx := rfl
@[simp] theorem State.setServo_islands (n : Nat) (x : Servo) : (s.setServo n x).islands = s.islands := rfl
@[simp] theorem State.setServo_counters (n : Nat) (x : Servo) : (s.setServo n x).counters = s.counters := rfl
@[simp] theorem State.setServo_tb (n : Nat) (x : Servo) : (s.setServo n x).tb = s.tb := rfl
@[simp] theorem State.setServo_timed (n : Nat) (x : Servo) : (s.setServo n x).timed = s.timed := rfl
@[simp] theorem State.setServo_fifos (n : Nat) (x : Servo) : (s.setServo n x).fifos = s.fifos := rfl
@[simp] theorem State.setServo_lanes (n : Nat) (x : Servo) : (s.setServo n x).lanes = s.lanes := rfl
@[simp] theorem State.setServo_calRecs (n : Nat) (x : Servo) : (s.setServo n x).calRecs = s.calRecs := rfl
@[simp] theorem State.setServo_refs (n : Nat) (x : Servo) : (s.setServo n x).refs = s.refs := rfl
@[simp] theorem State.setServo_dpll (n : Nat) (x : Servo) : (s.setServo n x).dpll = s.dpll := rfl
@[simp] theorem State.setServo_gn (n : Nat) (x : Servo) : (s.setServo n x).gn = s.gn := rfl
@[simp] theorem State.setServo_em (n : Nat) (x : Servo) : (s.setServo n x).em = s.em := rfl
@[simp] theorem State.setServo_sw (n : Nat) (x : Servo) : (s.setServo n x).sw = s.sw := rfl
@[simp] theorem State.setServo_ft (n : Nat) (x : Servo) : (s.setServo n x).ft = s.ft := rfl
@[simp] theorem State.setServo_bf (n : Nat) (x : Servo) : (s.setServo n x).bf = s.bf := rfl
@[simp] theorem State.setServo_merges (n : Nat) (x : Servo) : (s.setServo n x).merges = s.merges := rfl
@[simp] theorem State.setServo_releases (n : Nat) (x : Servo) : (s.setServo n x).releases = s.releases := rfl
@[simp] theorem State.setServo_evd (n : Nat) (x : Servo) : (s.setServo n x).evd = s.evd := rfl
@[simp] theorem State.setServo_netRings (n : Nat) (x : Servo) : (s.setServo n x).netRings = s.netRings := rfl
@[simp] theorem State.setServo_selectors (n : Nat) (x : Servo) : (s.setServo n x).selectors = s.selectors := rfl
@[simp] theorem State.setServo_tw (n : Nat) (x : Servo) : (s.setServo n x).tw = s.tw := rfl
@[simp] theorem State.setServo_ctSeen (n : Nat) (x : Servo) : (s.setServo n x).ctSeen = s.ctSeen := rfl
@[simp] theorem State.setServo_bwFrom (n : Nat) (x : Servo) : (s.setServo n x).bwFrom = s.bwFrom := rfl
@[simp] theorem State.setServo_bwEnds (n : Nat) (x : Servo) : (s.setServo n x).bwEnds = s.bwEnds := rfl
@[simp] theorem State.setServo_mp (n : Nat) (x : Servo) : (s.setServo n x).mp = s.mp := rfl
@[simp] theorem State.setServo_cal (n : Nat) (x : Servo) : (s.setServo n x).cal = s.cal := rfl
@[simp] theorem State.setServo_fw (n : Nat) (x : Servo) : (s.setServo n x).fw = s.fw := rfl
@[simp] theorem State.setServo_sec (n : Nat) (x : Servo) : (s.setServo n x).sec = s.sec := rfl
@[simp] theorem State.setServo_ao (n : Nat) (x : Servo) : (s.setServo n x).ao = s.ao := rfl
@[simp] theorem State.setServo_boot (n : Nat) (x : Servo) : (s.setServo n x).boot = s.boot := rfl

@[simp] theorem State.setCand_pending (i : Nat) (c : Cand) : (s.setCand i c).pending = s.pending := rfl
@[simp] theorem State.setCand_dtt (i : Nat) (c : Cand) : (s.setCand i c).dtt = s.dtt := rfl
@[simp] theorem State.setCand_regs (i : Nat) (c : Cand) : (s.setCand i c).regs = s.regs := rfl
@[simp] theorem State.setCand_hostMem (i : Nat) (c : Cand) : (s.setCand i c).hostMem = s.hostMem := rfl
@[simp] theorem State.setCand_freeCount (i : Nat) (c : Cand) : (s.setCand i c).freeCount = s.freeCount := rfl
@[simp] theorem State.setCand_evu (i : Nat) (c : Cand) : (s.setCand i c).evu = s.evu := rfl
@[simp] theorem State.setCand_rings (i : Nat) (c : Cand) : (s.setCand i c).rings = s.rings := rfl
@[simp] theorem State.setCand_bus (i : Nat) (c : Cand) : (s.setCand i c).bus = s.bus := rfl
@[simp] theorem State.setCand_mbx (i : Nat) (c : Cand) : (s.setCand i c).mbx = s.mbx := rfl
@[simp] theorem State.setCand_islands (i : Nat) (c : Cand) : (s.setCand i c).islands = s.islands := rfl
@[simp] theorem State.setCand_counters (i : Nat) (c : Cand) : (s.setCand i c).counters = s.counters := rfl
@[simp] theorem State.setCand_tb (i : Nat) (c : Cand) : (s.setCand i c).tb = s.tb := rfl
@[simp] theorem State.setCand_timed (i : Nat) (c : Cand) : (s.setCand i c).timed = s.timed := rfl
@[simp] theorem State.setCand_fifos (i : Nat) (c : Cand) : (s.setCand i c).fifos = s.fifos := rfl
@[simp] theorem State.setCand_lanes (i : Nat) (c : Cand) : (s.setCand i c).lanes = s.lanes := rfl
@[simp] theorem State.setCand_calRecs (i : Nat) (c : Cand) : (s.setCand i c).calRecs = s.calRecs := rfl
@[simp] theorem State.setCand_tt (i : Nat) (c : Cand) : (s.setCand i c).tt = s.tt := rfl
@[simp] theorem State.setCand_dpll (i : Nat) (c : Cand) : (s.setCand i c).dpll = s.dpll := rfl
@[simp] theorem State.setCand_gn (i : Nat) (c : Cand) : (s.setCand i c).gn = s.gn := rfl
@[simp] theorem State.setCand_em (i : Nat) (c : Cand) : (s.setCand i c).em = s.em := rfl
@[simp] theorem State.setCand_sw (i : Nat) (c : Cand) : (s.setCand i c).sw = s.sw := rfl
@[simp] theorem State.setCand_ft (i : Nat) (c : Cand) : (s.setCand i c).ft = s.ft := rfl
@[simp] theorem State.setCand_bf (i : Nat) (c : Cand) : (s.setCand i c).bf = s.bf := rfl
@[simp] theorem State.setCand_merges (i : Nat) (c : Cand) : (s.setCand i c).merges = s.merges := rfl
@[simp] theorem State.setCand_releases (i : Nat) (c : Cand) : (s.setCand i c).releases = s.releases := rfl
@[simp] theorem State.setCand_evd (i : Nat) (c : Cand) : (s.setCand i c).evd = s.evd := rfl
@[simp] theorem State.setCand_netRings (i : Nat) (c : Cand) : (s.setCand i c).netRings = s.netRings := rfl
@[simp] theorem State.setCand_selectors (i : Nat) (c : Cand) : (s.setCand i c).selectors = s.selectors := rfl
@[simp] theorem State.setCand_tw (i : Nat) (c : Cand) : (s.setCand i c).tw = s.tw := rfl
@[simp] theorem State.setCand_ctSeen (i : Nat) (c : Cand) : (s.setCand i c).ctSeen = s.ctSeen := rfl
@[simp] theorem State.setCand_bwFrom (i : Nat) (c : Cand) : (s.setCand i c).bwFrom = s.bwFrom := rfl
@[simp] theorem State.setCand_bwEnds (i : Nat) (c : Cand) : (s.setCand i c).bwEnds = s.bwEnds := rfl
@[simp] theorem State.setCand_mp (i : Nat) (c : Cand) : (s.setCand i c).mp = s.mp := rfl
@[simp] theorem State.setCand_cal (i : Nat) (c : Cand) : (s.setCand i c).cal = s.cal := rfl
@[simp] theorem State.setCand_fw (i : Nat) (c : Cand) : (s.setCand i c).fw = s.fw := rfl
@[simp] theorem State.setCand_sec (i : Nat) (c : Cand) : (s.setCand i c).sec = s.sec := rfl
@[simp] theorem State.setCand_ao (i : Nat) (c : Cand) : (s.setCand i c).ao = s.ao := rfl
@[simp] theorem State.setCand_boot (i : Nat) (c : Cand) : (s.setCand i c).boot = s.boot := rfl

@[simp] theorem State.setRd_pending (d : Nat) (x : RsDom) : (s.setRd d x).pending = s.pending := by unfold State.setRd; split <;> rfl
@[simp] theorem State.setRd_dtt (d : Nat) (x : RsDom) : (s.setRd d x).dtt = s.dtt := by unfold State.setRd; split <;> rfl
@[simp] theorem State.setRd_regs (d : Nat) (x : RsDom) : (s.setRd d x).regs = s.regs := by unfold State.setRd; split <;> rfl
@[simp] theorem State.setRd_hostMem (d : Nat) (x : RsDom) : (s.setRd d x).hostMem = s.hostMem := by unfold State.setRd; split <;> rfl
@[simp] theorem State.setRd_freeCount (d : Nat) (x : RsDom) : (s.setRd d x).freeCount = s.freeCount := by unfold State.setRd; split <;> rfl
@[simp] theorem State.setRd_evu (d : Nat) (x : RsDom) : (s.setRd d x).evu = s.evu := by unfold State.setRd; split <;> rfl
@[simp] theorem State.setRd_rings (d : Nat) (x : RsDom) : (s.setRd d x).rings = s.rings := by unfold State.setRd; split <;> rfl
@[simp] theorem State.setRd_bus (d : Nat) (x : RsDom) : (s.setRd d x).bus = s.bus := by unfold State.setRd; split <;> rfl
@[simp] theorem State.setRd_mbx (d : Nat) (x : RsDom) : (s.setRd d x).mbx = s.mbx := by unfold State.setRd; split <;> rfl
@[simp] theorem State.setRd_islands (d : Nat) (x : RsDom) : (s.setRd d x).islands = s.islands := by unfold State.setRd; split <;> rfl
@[simp] theorem State.setRd_counters (d : Nat) (x : RsDom) : (s.setRd d x).counters = s.counters := by unfold State.setRd; split <;> rfl
@[simp] theorem State.setRd_tb (d : Nat) (x : RsDom) : (s.setRd d x).tb = s.tb := by unfold State.setRd; split <;> rfl
@[simp] theorem State.setRd_timed (d : Nat) (x : RsDom) : (s.setRd d x).timed = s.timed := by unfold State.setRd; split <;> rfl
@[simp] theorem State.setRd_fifos (d : Nat) (x : RsDom) : (s.setRd d x).fifos = s.fifos := by unfold State.setRd; split <;> rfl
@[simp] theorem State.setRd_lanes (d : Nat) (x : RsDom) : (s.setRd d x).lanes = s.lanes := by unfold State.setRd; split <;> rfl
@[simp] theorem State.setRd_calRecs (d : Nat) (x : RsDom) : (s.setRd d x).calRecs = s.calRecs := by unfold State.setRd; split <;> rfl
@[simp] theorem State.setRd_tt (d : Nat) (x : RsDom) : (s.setRd d x).tt = s.tt := by unfold State.setRd; split <;> rfl
@[simp] theorem State.setRd_dpll (d : Nat) (x : RsDom) : (s.setRd d x).dpll = s.dpll := by unfold State.setRd; split <;> rfl
@[simp] theorem State.setRd_gn (d : Nat) (x : RsDom) : (s.setRd d x).gn = s.gn := by unfold State.setRd; split <;> rfl
@[simp] theorem State.setRd_em (d : Nat) (x : RsDom) : (s.setRd d x).em = s.em := by unfold State.setRd; split <;> rfl
@[simp] theorem State.setRd_sw (d : Nat) (x : RsDom) : (s.setRd d x).sw = s.sw := by unfold State.setRd; split <;> rfl
@[simp] theorem State.setRd_ft (d : Nat) (x : RsDom) : (s.setRd d x).ft = s.ft := by unfold State.setRd; split <;> rfl
@[simp] theorem State.setRd_bf (d : Nat) (x : RsDom) : (s.setRd d x).bf = s.bf := by unfold State.setRd; split <;> rfl
@[simp] theorem State.setRd_merges (d : Nat) (x : RsDom) : (s.setRd d x).merges = s.merges := by unfold State.setRd; split <;> rfl
@[simp] theorem State.setRd_releases (d : Nat) (x : RsDom) : (s.setRd d x).releases = s.releases := by unfold State.setRd; split <;> rfl
@[simp] theorem State.setRd_evd (d : Nat) (x : RsDom) : (s.setRd d x).evd = s.evd := by unfold State.setRd; split <;> rfl
@[simp] theorem State.setRd_netRings (d : Nat) (x : RsDom) : (s.setRd d x).netRings = s.netRings := by unfold State.setRd; split <;> rfl
@[simp] theorem State.setRd_selectors (d : Nat) (x : RsDom) : (s.setRd d x).selectors = s.selectors := by unfold State.setRd; split <;> rfl
@[simp] theorem State.setRd_tw (d : Nat) (x : RsDom) : (s.setRd d x).tw = s.tw := by unfold State.setRd; split <;> rfl
@[simp] theorem State.setRd_ctSeen (d : Nat) (x : RsDom) : (s.setRd d x).ctSeen = s.ctSeen := by unfold State.setRd; split <;> rfl
@[simp] theorem State.setRd_bwFrom (d : Nat) (x : RsDom) : (s.setRd d x).bwFrom = s.bwFrom := by unfold State.setRd; split <;> rfl
@[simp] theorem State.setRd_bwEnds (d : Nat) (x : RsDom) : (s.setRd d x).bwEnds = s.bwEnds := by unfold State.setRd; split <;> rfl
@[simp] theorem State.setRd_mp (d : Nat) (x : RsDom) : (s.setRd d x).mp = s.mp := by unfold State.setRd; split <;> rfl
@[simp] theorem State.setRd_cal (d : Nat) (x : RsDom) : (s.setRd d x).cal = s.cal := by unfold State.setRd; split <;> rfl
@[simp] theorem State.setRd_fw (d : Nat) (x : RsDom) : (s.setRd d x).fw = s.fw := by unfold State.setRd; split <;> rfl
@[simp] theorem State.setRd_sec (d : Nat) (x : RsDom) : (s.setRd d x).sec = s.sec := by unfold State.setRd; split <;> rfl
@[simp] theorem State.setRd_ao (d : Nat) (x : RsDom) : (s.setRd d x).ao = s.ao := by unfold State.setRd; split <;> rfl
@[simp] theorem State.setRd_boot (d : Nat) (x : RsDom) : (s.setRd d x).boot = s.boot := by unfold State.setRd; split <;> rfl

@[simp] theorem State.setOut_pending (n : Nat) (o : OutDyn) : (s.setOut n o).pending = s.pending := rfl
@[simp] theorem State.setOut_dtt (n : Nat) (o : OutDyn) : (s.setOut n o).dtt = s.dtt := rfl
@[simp] theorem State.setOut_regs (n : Nat) (o : OutDyn) : (s.setOut n o).regs = s.regs := rfl
@[simp] theorem State.setOut_hostMem (n : Nat) (o : OutDyn) : (s.setOut n o).hostMem = s.hostMem := rfl
@[simp] theorem State.setOut_freeCount (n : Nat) (o : OutDyn) : (s.setOut n o).freeCount = s.freeCount := rfl
@[simp] theorem State.setOut_evu (n : Nat) (o : OutDyn) : (s.setOut n o).evu = s.evu := rfl
@[simp] theorem State.setOut_rings (n : Nat) (o : OutDyn) : (s.setOut n o).rings = s.rings := rfl
@[simp] theorem State.setOut_bus (n : Nat) (o : OutDyn) : (s.setOut n o).bus = s.bus := rfl
@[simp] theorem State.setOut_mbx (n : Nat) (o : OutDyn) : (s.setOut n o).mbx = s.mbx := rfl
@[simp] theorem State.setOut_islands (n : Nat) (o : OutDyn) : (s.setOut n o).islands = s.islands := rfl
@[simp] theorem State.setOut_counters (n : Nat) (o : OutDyn) : (s.setOut n o).counters = s.counters := rfl
@[simp] theorem State.setOut_tb (n : Nat) (o : OutDyn) : (s.setOut n o).tb = s.tb := rfl
@[simp] theorem State.setOut_timed (n : Nat) (o : OutDyn) : (s.setOut n o).timed = s.timed := rfl
@[simp] theorem State.setOut_fifos (n : Nat) (o : OutDyn) : (s.setOut n o).fifos = s.fifos := rfl
@[simp] theorem State.setOut_lanes (n : Nat) (o : OutDyn) : (s.setOut n o).lanes = s.lanes := rfl
@[simp] theorem State.setOut_calRecs (n : Nat) (o : OutDyn) : (s.setOut n o).calRecs = s.calRecs := rfl
@[simp] theorem State.setOut_tt (n : Nat) (o : OutDyn) : (s.setOut n o).tt = s.tt := rfl
@[simp] theorem State.setOut_refs (n : Nat) (o : OutDyn) : (s.setOut n o).refs = s.refs := rfl
@[simp] theorem State.setOut_gn (n : Nat) (o : OutDyn) : (s.setOut n o).gn = s.gn := rfl
@[simp] theorem State.setOut_em (n : Nat) (o : OutDyn) : (s.setOut n o).em = s.em := rfl
@[simp] theorem State.setOut_sw (n : Nat) (o : OutDyn) : (s.setOut n o).sw = s.sw := rfl
@[simp] theorem State.setOut_ft (n : Nat) (o : OutDyn) : (s.setOut n o).ft = s.ft := rfl
@[simp] theorem State.setOut_bf (n : Nat) (o : OutDyn) : (s.setOut n o).bf = s.bf := rfl
@[simp] theorem State.setOut_merges (n : Nat) (o : OutDyn) : (s.setOut n o).merges = s.merges := rfl
@[simp] theorem State.setOut_releases (n : Nat) (o : OutDyn) : (s.setOut n o).releases = s.releases := rfl
@[simp] theorem State.setOut_evd (n : Nat) (o : OutDyn) : (s.setOut n o).evd = s.evd := rfl
@[simp] theorem State.setOut_netRings (n : Nat) (o : OutDyn) : (s.setOut n o).netRings = s.netRings := rfl
@[simp] theorem State.setOut_selectors (n : Nat) (o : OutDyn) : (s.setOut n o).selectors = s.selectors := rfl
@[simp] theorem State.setOut_tw (n : Nat) (o : OutDyn) : (s.setOut n o).tw = s.tw := rfl
@[simp] theorem State.setOut_ctSeen (n : Nat) (o : OutDyn) : (s.setOut n o).ctSeen = s.ctSeen := rfl
@[simp] theorem State.setOut_bwFrom (n : Nat) (o : OutDyn) : (s.setOut n o).bwFrom = s.bwFrom := rfl
@[simp] theorem State.setOut_bwEnds (n : Nat) (o : OutDyn) : (s.setOut n o).bwEnds = s.bwEnds := rfl
@[simp] theorem State.setOut_mp (n : Nat) (o : OutDyn) : (s.setOut n o).mp = s.mp := rfl
@[simp] theorem State.setOut_cal (n : Nat) (o : OutDyn) : (s.setOut n o).cal = s.cal := rfl
@[simp] theorem State.setOut_fw (n : Nat) (o : OutDyn) : (s.setOut n o).fw = s.fw := rfl
@[simp] theorem State.setOut_sec (n : Nat) (o : OutDyn) : (s.setOut n o).sec = s.sec := rfl
@[simp] theorem State.setOut_ao (n : Nat) (o : OutDyn) : (s.setOut n o).ao = s.ao := rfl
@[simp] theorem State.setOut_boot (n : Nat) (o : OutDyn) : (s.setOut n o).boot = s.boot := rfl

@[simp] theorem State.setGnSol_pending (k : Nat) (x : GnSol) : (s.setGnSol k x).pending = s.pending := by unfold State.setGnSol; split <;> rfl
@[simp] theorem State.setGnSol_dtt (k : Nat) (x : GnSol) : (s.setGnSol k x).dtt = s.dtt := by unfold State.setGnSol; split <;> rfl
@[simp] theorem State.setGnSol_regs (k : Nat) (x : GnSol) : (s.setGnSol k x).regs = s.regs := by unfold State.setGnSol; split <;> rfl
@[simp] theorem State.setGnSol_hostMem (k : Nat) (x : GnSol) : (s.setGnSol k x).hostMem = s.hostMem := by unfold State.setGnSol; split <;> rfl
@[simp] theorem State.setGnSol_freeCount (k : Nat) (x : GnSol) : (s.setGnSol k x).freeCount = s.freeCount := by unfold State.setGnSol; split <;> rfl
@[simp] theorem State.setGnSol_evu (k : Nat) (x : GnSol) : (s.setGnSol k x).evu = s.evu := by unfold State.setGnSol; split <;> rfl
@[simp] theorem State.setGnSol_rings (k : Nat) (x : GnSol) : (s.setGnSol k x).rings = s.rings := by unfold State.setGnSol; split <;> rfl
@[simp] theorem State.setGnSol_bus (k : Nat) (x : GnSol) : (s.setGnSol k x).bus = s.bus := by unfold State.setGnSol; split <;> rfl
@[simp] theorem State.setGnSol_mbx (k : Nat) (x : GnSol) : (s.setGnSol k x).mbx = s.mbx := by unfold State.setGnSol; split <;> rfl
@[simp] theorem State.setGnSol_islands (k : Nat) (x : GnSol) : (s.setGnSol k x).islands = s.islands := by unfold State.setGnSol; split <;> rfl
@[simp] theorem State.setGnSol_counters (k : Nat) (x : GnSol) : (s.setGnSol k x).counters = s.counters := by unfold State.setGnSol; split <;> rfl
@[simp] theorem State.setGnSol_tb (k : Nat) (x : GnSol) : (s.setGnSol k x).tb = s.tb := by unfold State.setGnSol; split <;> rfl
@[simp] theorem State.setGnSol_timed (k : Nat) (x : GnSol) : (s.setGnSol k x).timed = s.timed := by unfold State.setGnSol; split <;> rfl
@[simp] theorem State.setGnSol_fifos (k : Nat) (x : GnSol) : (s.setGnSol k x).fifos = s.fifos := by unfold State.setGnSol; split <;> rfl
@[simp] theorem State.setGnSol_lanes (k : Nat) (x : GnSol) : (s.setGnSol k x).lanes = s.lanes := by unfold State.setGnSol; split <;> rfl
@[simp] theorem State.setGnSol_calRecs (k : Nat) (x : GnSol) : (s.setGnSol k x).calRecs = s.calRecs := by unfold State.setGnSol; split <;> rfl
@[simp] theorem State.setGnSol_tt (k : Nat) (x : GnSol) : (s.setGnSol k x).tt = s.tt := by unfold State.setGnSol; split <;> rfl
@[simp] theorem State.setGnSol_refs (k : Nat) (x : GnSol) : (s.setGnSol k x).refs = s.refs := by unfold State.setGnSol; split <;> rfl
@[simp] theorem State.setGnSol_dpll (k : Nat) (x : GnSol) : (s.setGnSol k x).dpll = s.dpll := by unfold State.setGnSol; split <;> rfl
@[simp] theorem State.setGnSol_em (k : Nat) (x : GnSol) : (s.setGnSol k x).em = s.em := by unfold State.setGnSol; split <;> rfl
@[simp] theorem State.setGnSol_sw (k : Nat) (x : GnSol) : (s.setGnSol k x).sw = s.sw := by unfold State.setGnSol; split <;> rfl
@[simp] theorem State.setGnSol_ft (k : Nat) (x : GnSol) : (s.setGnSol k x).ft = s.ft := by unfold State.setGnSol; split <;> rfl
@[simp] theorem State.setGnSol_bf (k : Nat) (x : GnSol) : (s.setGnSol k x).bf = s.bf := by unfold State.setGnSol; split <;> rfl
@[simp] theorem State.setGnSol_merges (k : Nat) (x : GnSol) : (s.setGnSol k x).merges = s.merges := by unfold State.setGnSol; split <;> rfl
@[simp] theorem State.setGnSol_releases (k : Nat) (x : GnSol) : (s.setGnSol k x).releases = s.releases := by unfold State.setGnSol; split <;> rfl
@[simp] theorem State.setGnSol_evd (k : Nat) (x : GnSol) : (s.setGnSol k x).evd = s.evd := by unfold State.setGnSol; split <;> rfl
@[simp] theorem State.setGnSol_netRings (k : Nat) (x : GnSol) : (s.setGnSol k x).netRings = s.netRings := by unfold State.setGnSol; split <;> rfl
@[simp] theorem State.setGnSol_selectors (k : Nat) (x : GnSol) : (s.setGnSol k x).selectors = s.selectors := by unfold State.setGnSol; split <;> rfl
@[simp] theorem State.setGnSol_tw (k : Nat) (x : GnSol) : (s.setGnSol k x).tw = s.tw := by unfold State.setGnSol; split <;> rfl
@[simp] theorem State.setGnSol_ctSeen (k : Nat) (x : GnSol) : (s.setGnSol k x).ctSeen = s.ctSeen := by unfold State.setGnSol; split <;> rfl
@[simp] theorem State.setGnSol_bwFrom (k : Nat) (x : GnSol) : (s.setGnSol k x).bwFrom = s.bwFrom := by unfold State.setGnSol; split <;> rfl
@[simp] theorem State.setGnSol_bwEnds (k : Nat) (x : GnSol) : (s.setGnSol k x).bwEnds = s.bwEnds := by unfold State.setGnSol; split <;> rfl
@[simp] theorem State.setGnSol_mp (k : Nat) (x : GnSol) : (s.setGnSol k x).mp = s.mp := by unfold State.setGnSol; split <;> rfl
@[simp] theorem State.setGnSol_cal (k : Nat) (x : GnSol) : (s.setGnSol k x).cal = s.cal := by unfold State.setGnSol; split <;> rfl
@[simp] theorem State.setGnSol_fw (k : Nat) (x : GnSol) : (s.setGnSol k x).fw = s.fw := by unfold State.setGnSol; split <;> rfl
@[simp] theorem State.setGnSol_sec (k : Nat) (x : GnSol) : (s.setGnSol k x).sec = s.sec := by unfold State.setGnSol; split <;> rfl
@[simp] theorem State.setGnSol_ao (k : Nat) (x : GnSol) : (s.setGnSol k x).ao = s.ao := by unfold State.setGnSol; split <;> rfl
@[simp] theorem State.setGnSol_boot (k : Nat) (x : GnSol) : (s.setGnSol k x).boot = s.boot := by unfold State.setGnSol; split <;> rfl

@[simp] theorem State.setInput_pending (e : Nat) (x : EventIn) : (s.setInput e x).pending = s.pending := rfl
@[simp] theorem State.setInput_dtt (e : Nat) (x : EventIn) : (s.setInput e x).dtt = s.dtt := rfl
@[simp] theorem State.setInput_regs (e : Nat) (x : EventIn) : (s.setInput e x).regs = s.regs := rfl
@[simp] theorem State.setInput_hostMem (e : Nat) (x : EventIn) : (s.setInput e x).hostMem = s.hostMem := rfl
@[simp] theorem State.setInput_freeCount (e : Nat) (x : EventIn) : (s.setInput e x).freeCount = s.freeCount := rfl
@[simp] theorem State.setInput_evu (e : Nat) (x : EventIn) : (s.setInput e x).evu = s.evu := rfl
@[simp] theorem State.setInput_rings (e : Nat) (x : EventIn) : (s.setInput e x).rings = s.rings := rfl
@[simp] theorem State.setInput_bus (e : Nat) (x : EventIn) : (s.setInput e x).bus = s.bus := rfl
@[simp] theorem State.setInput_mbx (e : Nat) (x : EventIn) : (s.setInput e x).mbx = s.mbx := rfl
@[simp] theorem State.setInput_islands (e : Nat) (x : EventIn) : (s.setInput e x).islands = s.islands := rfl
@[simp] theorem State.setInput_counters (e : Nat) (x : EventIn) : (s.setInput e x).counters = s.counters := rfl
@[simp] theorem State.setInput_tb (e : Nat) (x : EventIn) : (s.setInput e x).tb = s.tb := rfl
@[simp] theorem State.setInput_timed (e : Nat) (x : EventIn) : (s.setInput e x).timed = s.timed := rfl
@[simp] theorem State.setInput_fifos (e : Nat) (x : EventIn) : (s.setInput e x).fifos = s.fifos := rfl
@[simp] theorem State.setInput_lanes (e : Nat) (x : EventIn) : (s.setInput e x).lanes = s.lanes := rfl
@[simp] theorem State.setInput_calRecs (e : Nat) (x : EventIn) : (s.setInput e x).calRecs = s.calRecs := rfl
@[simp] theorem State.setInput_tt (e : Nat) (x : EventIn) : (s.setInput e x).tt = s.tt := rfl
@[simp] theorem State.setInput_refs (e : Nat) (x : EventIn) : (s.setInput e x).refs = s.refs := rfl
@[simp] theorem State.setInput_dpll (e : Nat) (x : EventIn) : (s.setInput e x).dpll = s.dpll := rfl
@[simp] theorem State.setInput_gn (e : Nat) (x : EventIn) : (s.setInput e x).gn = s.gn := rfl
@[simp] theorem State.setInput_sw (e : Nat) (x : EventIn) : (s.setInput e x).sw = s.sw := rfl
@[simp] theorem State.setInput_ft (e : Nat) (x : EventIn) : (s.setInput e x).ft = s.ft := rfl
@[simp] theorem State.setInput_bf (e : Nat) (x : EventIn) : (s.setInput e x).bf = s.bf := rfl
@[simp] theorem State.setInput_merges (e : Nat) (x : EventIn) : (s.setInput e x).merges = s.merges := rfl
@[simp] theorem State.setInput_releases (e : Nat) (x : EventIn) : (s.setInput e x).releases = s.releases := rfl
@[simp] theorem State.setInput_evd (e : Nat) (x : EventIn) : (s.setInput e x).evd = s.evd := rfl
@[simp] theorem State.setInput_netRings (e : Nat) (x : EventIn) : (s.setInput e x).netRings = s.netRings := rfl
@[simp] theorem State.setInput_selectors (e : Nat) (x : EventIn) : (s.setInput e x).selectors = s.selectors := rfl
@[simp] theorem State.setInput_tw (e : Nat) (x : EventIn) : (s.setInput e x).tw = s.tw := rfl
@[simp] theorem State.setInput_ctSeen (e : Nat) (x : EventIn) : (s.setInput e x).ctSeen = s.ctSeen := rfl
@[simp] theorem State.setInput_bwFrom (e : Nat) (x : EventIn) : (s.setInput e x).bwFrom = s.bwFrom := rfl
@[simp] theorem State.setInput_bwEnds (e : Nat) (x : EventIn) : (s.setInput e x).bwEnds = s.bwEnds := rfl
@[simp] theorem State.setInput_mp (e : Nat) (x : EventIn) : (s.setInput e x).mp = s.mp := rfl
@[simp] theorem State.setInput_cal (e : Nat) (x : EventIn) : (s.setInput e x).cal = s.cal := rfl
@[simp] theorem State.setInput_fw (e : Nat) (x : EventIn) : (s.setInput e x).fw = s.fw := rfl
@[simp] theorem State.setInput_sec (e : Nat) (x : EventIn) : (s.setInput e x).sec = s.sec := rfl
@[simp] theorem State.setInput_ao (e : Nat) (x : EventIn) : (s.setInput e x).ao = s.ao := rfl
@[simp] theorem State.setInput_boot (e : Nat) (x : EventIn) : (s.setInput e x).boot = s.boot := rfl

@[simp] theorem State.setPair_pending (u : Nat) (x : PairUnit) : (s.setPair u x).pending = s.pending := rfl
@[simp] theorem State.setPair_dtt (u : Nat) (x : PairUnit) : (s.setPair u x).dtt = s.dtt := rfl
@[simp] theorem State.setPair_regs (u : Nat) (x : PairUnit) : (s.setPair u x).regs = s.regs := rfl
@[simp] theorem State.setPair_hostMem (u : Nat) (x : PairUnit) : (s.setPair u x).hostMem = s.hostMem := rfl
@[simp] theorem State.setPair_freeCount (u : Nat) (x : PairUnit) : (s.setPair u x).freeCount = s.freeCount := rfl
@[simp] theorem State.setPair_evu (u : Nat) (x : PairUnit) : (s.setPair u x).evu = s.evu := rfl
@[simp] theorem State.setPair_rings (u : Nat) (x : PairUnit) : (s.setPair u x).rings = s.rings := rfl
@[simp] theorem State.setPair_bus (u : Nat) (x : PairUnit) : (s.setPair u x).bus = s.bus := rfl
@[simp] theorem State.setPair_mbx (u : Nat) (x : PairUnit) : (s.setPair u x).mbx = s.mbx := rfl
@[simp] theorem State.setPair_islands (u : Nat) (x : PairUnit) : (s.setPair u x).islands = s.islands := rfl
@[simp] theorem State.setPair_counters (u : Nat) (x : PairUnit) : (s.setPair u x).counters = s.counters := rfl
@[simp] theorem State.setPair_tb (u : Nat) (x : PairUnit) : (s.setPair u x).tb = s.tb := rfl
@[simp] theorem State.setPair_timed (u : Nat) (x : PairUnit) : (s.setPair u x).timed = s.timed := rfl
@[simp] theorem State.setPair_fifos (u : Nat) (x : PairUnit) : (s.setPair u x).fifos = s.fifos := rfl
@[simp] theorem State.setPair_lanes (u : Nat) (x : PairUnit) : (s.setPair u x).lanes = s.lanes := rfl
@[simp] theorem State.setPair_calRecs (u : Nat) (x : PairUnit) : (s.setPair u x).calRecs = s.calRecs := rfl
@[simp] theorem State.setPair_tt (u : Nat) (x : PairUnit) : (s.setPair u x).tt = s.tt := rfl
@[simp] theorem State.setPair_refs (u : Nat) (x : PairUnit) : (s.setPair u x).refs = s.refs := rfl
@[simp] theorem State.setPair_dpll (u : Nat) (x : PairUnit) : (s.setPair u x).dpll = s.dpll := rfl
@[simp] theorem State.setPair_gn (u : Nat) (x : PairUnit) : (s.setPair u x).gn = s.gn := rfl
@[simp] theorem State.setPair_sw (u : Nat) (x : PairUnit) : (s.setPair u x).sw = s.sw := rfl
@[simp] theorem State.setPair_ft (u : Nat) (x : PairUnit) : (s.setPair u x).ft = s.ft := rfl
@[simp] theorem State.setPair_bf (u : Nat) (x : PairUnit) : (s.setPair u x).bf = s.bf := rfl
@[simp] theorem State.setPair_merges (u : Nat) (x : PairUnit) : (s.setPair u x).merges = s.merges := rfl
@[simp] theorem State.setPair_releases (u : Nat) (x : PairUnit) : (s.setPair u x).releases = s.releases := rfl
@[simp] theorem State.setPair_evd (u : Nat) (x : PairUnit) : (s.setPair u x).evd = s.evd := rfl
@[simp] theorem State.setPair_netRings (u : Nat) (x : PairUnit) : (s.setPair u x).netRings = s.netRings := rfl
@[simp] theorem State.setPair_selectors (u : Nat) (x : PairUnit) : (s.setPair u x).selectors = s.selectors := rfl
@[simp] theorem State.setPair_tw (u : Nat) (x : PairUnit) : (s.setPair u x).tw = s.tw := rfl
@[simp] theorem State.setPair_ctSeen (u : Nat) (x : PairUnit) : (s.setPair u x).ctSeen = s.ctSeen := rfl
@[simp] theorem State.setPair_bwFrom (u : Nat) (x : PairUnit) : (s.setPair u x).bwFrom = s.bwFrom := rfl
@[simp] theorem State.setPair_bwEnds (u : Nat) (x : PairUnit) : (s.setPair u x).bwEnds = s.bwEnds := rfl
@[simp] theorem State.setPair_mp (u : Nat) (x : PairUnit) : (s.setPair u x).mp = s.mp := rfl
@[simp] theorem State.setPair_cal (u : Nat) (x : PairUnit) : (s.setPair u x).cal = s.cal := rfl
@[simp] theorem State.setPair_fw (u : Nat) (x : PairUnit) : (s.setPair u x).fw = s.fw := rfl
@[simp] theorem State.setPair_sec (u : Nat) (x : PairUnit) : (s.setPair u x).sec = s.sec := rfl
@[simp] theorem State.setPair_ao (u : Nat) (x : PairUnit) : (s.setPair u x).ao = s.ao := rfl
@[simp] theorem State.setPair_boot (u : Nat) (x : PairUnit) : (s.setPair u x).boot = s.boot := rfl

@[simp] theorem State.setRx_pending (n : Nat) (r : Option RxFrame) : (s.setRx n r).pending = s.pending := rfl
@[simp] theorem State.setRx_dtt (n : Nat) (r : Option RxFrame) : (s.setRx n r).dtt = s.dtt := rfl
@[simp] theorem State.setRx_regs (n : Nat) (r : Option RxFrame) : (s.setRx n r).regs = s.regs := rfl
@[simp] theorem State.setRx_hostMem (n : Nat) (r : Option RxFrame) : (s.setRx n r).hostMem = s.hostMem := rfl
@[simp] theorem State.setRx_freeCount (n : Nat) (r : Option RxFrame) : (s.setRx n r).freeCount = s.freeCount := rfl
@[simp] theorem State.setRx_evu (n : Nat) (r : Option RxFrame) : (s.setRx n r).evu = s.evu := rfl
@[simp] theorem State.setRx_rings (n : Nat) (r : Option RxFrame) : (s.setRx n r).rings = s.rings := rfl
@[simp] theorem State.setRx_bus (n : Nat) (r : Option RxFrame) : (s.setRx n r).bus = s.bus := rfl
@[simp] theorem State.setRx_mbx (n : Nat) (r : Option RxFrame) : (s.setRx n r).mbx = s.mbx := rfl
@[simp] theorem State.setRx_islands (n : Nat) (r : Option RxFrame) : (s.setRx n r).islands = s.islands := rfl
@[simp] theorem State.setRx_counters (n : Nat) (r : Option RxFrame) : (s.setRx n r).counters = s.counters := rfl
@[simp] theorem State.setRx_tb (n : Nat) (r : Option RxFrame) : (s.setRx n r).tb = s.tb := rfl
@[simp] theorem State.setRx_timed (n : Nat) (r : Option RxFrame) : (s.setRx n r).timed = s.timed := rfl
@[simp] theorem State.setRx_fifos (n : Nat) (r : Option RxFrame) : (s.setRx n r).fifos = s.fifos := rfl
@[simp] theorem State.setRx_lanes (n : Nat) (r : Option RxFrame) : (s.setRx n r).lanes = s.lanes := rfl
@[simp] theorem State.setRx_calRecs (n : Nat) (r : Option RxFrame) : (s.setRx n r).calRecs = s.calRecs := rfl
@[simp] theorem State.setRx_tt (n : Nat) (r : Option RxFrame) : (s.setRx n r).tt = s.tt := rfl
@[simp] theorem State.setRx_refs (n : Nat) (r : Option RxFrame) : (s.setRx n r).refs = s.refs := rfl
@[simp] theorem State.setRx_dpll (n : Nat) (r : Option RxFrame) : (s.setRx n r).dpll = s.dpll := rfl
@[simp] theorem State.setRx_gn (n : Nat) (r : Option RxFrame) : (s.setRx n r).gn = s.gn := rfl
@[simp] theorem State.setRx_em (n : Nat) (r : Option RxFrame) : (s.setRx n r).em = s.em := rfl
@[simp] theorem State.setRx_ft (n : Nat) (r : Option RxFrame) : (s.setRx n r).ft = s.ft := rfl
@[simp] theorem State.setRx_bf (n : Nat) (r : Option RxFrame) : (s.setRx n r).bf = s.bf := rfl
@[simp] theorem State.setRx_merges (n : Nat) (r : Option RxFrame) : (s.setRx n r).merges = s.merges := rfl
@[simp] theorem State.setRx_releases (n : Nat) (r : Option RxFrame) : (s.setRx n r).releases = s.releases := rfl
@[simp] theorem State.setRx_evd (n : Nat) (r : Option RxFrame) : (s.setRx n r).evd = s.evd := rfl
@[simp] theorem State.setRx_netRings (n : Nat) (r : Option RxFrame) : (s.setRx n r).netRings = s.netRings := rfl
@[simp] theorem State.setRx_selectors (n : Nat) (r : Option RxFrame) : (s.setRx n r).selectors = s.selectors := rfl
@[simp] theorem State.setRx_tw (n : Nat) (r : Option RxFrame) : (s.setRx n r).tw = s.tw := rfl
@[simp] theorem State.setRx_ctSeen (n : Nat) (r : Option RxFrame) : (s.setRx n r).ctSeen = s.ctSeen := rfl
@[simp] theorem State.setRx_bwFrom (n : Nat) (r : Option RxFrame) : (s.setRx n r).bwFrom = s.bwFrom := rfl
@[simp] theorem State.setRx_bwEnds (n : Nat) (r : Option RxFrame) : (s.setRx n r).bwEnds = s.bwEnds := rfl
@[simp] theorem State.setRx_mp (n : Nat) (r : Option RxFrame) : (s.setRx n r).mp = s.mp := rfl
@[simp] theorem State.setRx_cal (n : Nat) (r : Option RxFrame) : (s.setRx n r).cal = s.cal := rfl
@[simp] theorem State.setRx_fw (n : Nat) (r : Option RxFrame) : (s.setRx n r).fw = s.fw := rfl
@[simp] theorem State.setRx_sec (n : Nat) (r : Option RxFrame) : (s.setRx n r).sec = s.sec := rfl
@[simp] theorem State.setRx_ao (n : Nat) (r : Option RxFrame) : (s.setRx n r).ao = s.ao := rfl
@[simp] theorem State.setRx_boot (n : Nat) (r : Option RxFrame) : (s.setRx n r).boot = s.boot := rfl

@[simp] theorem State.setTx_pending (n : Nat) (t : Option TxFrame) : (s.setTx n t).pending = s.pending := rfl
@[simp] theorem State.setTx_dtt (n : Nat) (t : Option TxFrame) : (s.setTx n t).dtt = s.dtt := rfl
@[simp] theorem State.setTx_regs (n : Nat) (t : Option TxFrame) : (s.setTx n t).regs = s.regs := rfl
@[simp] theorem State.setTx_hostMem (n : Nat) (t : Option TxFrame) : (s.setTx n t).hostMem = s.hostMem := rfl
@[simp] theorem State.setTx_freeCount (n : Nat) (t : Option TxFrame) : (s.setTx n t).freeCount = s.freeCount := rfl
@[simp] theorem State.setTx_evu (n : Nat) (t : Option TxFrame) : (s.setTx n t).evu = s.evu := rfl
@[simp] theorem State.setTx_rings (n : Nat) (t : Option TxFrame) : (s.setTx n t).rings = s.rings := rfl
@[simp] theorem State.setTx_bus (n : Nat) (t : Option TxFrame) : (s.setTx n t).bus = s.bus := rfl
@[simp] theorem State.setTx_mbx (n : Nat) (t : Option TxFrame) : (s.setTx n t).mbx = s.mbx := rfl
@[simp] theorem State.setTx_islands (n : Nat) (t : Option TxFrame) : (s.setTx n t).islands = s.islands := rfl
@[simp] theorem State.setTx_counters (n : Nat) (t : Option TxFrame) : (s.setTx n t).counters = s.counters := rfl
@[simp] theorem State.setTx_tb (n : Nat) (t : Option TxFrame) : (s.setTx n t).tb = s.tb := rfl
@[simp] theorem State.setTx_timed (n : Nat) (t : Option TxFrame) : (s.setTx n t).timed = s.timed := rfl
@[simp] theorem State.setTx_fifos (n : Nat) (t : Option TxFrame) : (s.setTx n t).fifos = s.fifos := rfl
@[simp] theorem State.setTx_lanes (n : Nat) (t : Option TxFrame) : (s.setTx n t).lanes = s.lanes := rfl
@[simp] theorem State.setTx_calRecs (n : Nat) (t : Option TxFrame) : (s.setTx n t).calRecs = s.calRecs := rfl
@[simp] theorem State.setTx_tt (n : Nat) (t : Option TxFrame) : (s.setTx n t).tt = s.tt := rfl
@[simp] theorem State.setTx_refs (n : Nat) (t : Option TxFrame) : (s.setTx n t).refs = s.refs := rfl
@[simp] theorem State.setTx_dpll (n : Nat) (t : Option TxFrame) : (s.setTx n t).dpll = s.dpll := rfl
@[simp] theorem State.setTx_gn (n : Nat) (t : Option TxFrame) : (s.setTx n t).gn = s.gn := rfl
@[simp] theorem State.setTx_em (n : Nat) (t : Option TxFrame) : (s.setTx n t).em = s.em := rfl
@[simp] theorem State.setTx_ft (n : Nat) (t : Option TxFrame) : (s.setTx n t).ft = s.ft := rfl
@[simp] theorem State.setTx_bf (n : Nat) (t : Option TxFrame) : (s.setTx n t).bf = s.bf := rfl
@[simp] theorem State.setTx_merges (n : Nat) (t : Option TxFrame) : (s.setTx n t).merges = s.merges := rfl
@[simp] theorem State.setTx_releases (n : Nat) (t : Option TxFrame) : (s.setTx n t).releases = s.releases := rfl
@[simp] theorem State.setTx_evd (n : Nat) (t : Option TxFrame) : (s.setTx n t).evd = s.evd := rfl
@[simp] theorem State.setTx_netRings (n : Nat) (t : Option TxFrame) : (s.setTx n t).netRings = s.netRings := rfl
@[simp] theorem State.setTx_selectors (n : Nat) (t : Option TxFrame) : (s.setTx n t).selectors = s.selectors := rfl
@[simp] theorem State.setTx_tw (n : Nat) (t : Option TxFrame) : (s.setTx n t).tw = s.tw := rfl
@[simp] theorem State.setTx_ctSeen (n : Nat) (t : Option TxFrame) : (s.setTx n t).ctSeen = s.ctSeen := rfl
@[simp] theorem State.setTx_bwFrom (n : Nat) (t : Option TxFrame) : (s.setTx n t).bwFrom = s.bwFrom := rfl
@[simp] theorem State.setTx_bwEnds (n : Nat) (t : Option TxFrame) : (s.setTx n t).bwEnds = s.bwEnds := rfl
@[simp] theorem State.setTx_mp (n : Nat) (t : Option TxFrame) : (s.setTx n t).mp = s.mp := rfl
@[simp] theorem State.setTx_cal (n : Nat) (t : Option TxFrame) : (s.setTx n t).cal = s.cal := rfl
@[simp] theorem State.setTx_fw (n : Nat) (t : Option TxFrame) : (s.setTx n t).fw = s.fw := rfl
@[simp] theorem State.setTx_sec (n : Nat) (t : Option TxFrame) : (s.setTx n t).sec = s.sec := rfl
@[simp] theorem State.setTx_ao (n : Nat) (t : Option TxFrame) : (s.setTx n t).ao = s.ao := rfl
@[simp] theorem State.setTx_boot (n : Nat) (t : Option TxFrame) : (s.setTx n t).boot = s.boot := rfl

@[simp] theorem State.setPoolFrame_pending (k : Nat) (f : Option Frame) : (s.setPoolFrame k f).pending = s.pending := rfl
@[simp] theorem State.setPoolFrame_dtt (k : Nat) (f : Option Frame) : (s.setPoolFrame k f).dtt = s.dtt := rfl
@[simp] theorem State.setPoolFrame_regs (k : Nat) (f : Option Frame) : (s.setPoolFrame k f).regs = s.regs := rfl
@[simp] theorem State.setPoolFrame_hostMem (k : Nat) (f : Option Frame) : (s.setPoolFrame k f).hostMem = s.hostMem := rfl
@[simp] theorem State.setPoolFrame_freeCount (k : Nat) (f : Option Frame) : (s.setPoolFrame k f).freeCount = s.freeCount := rfl
@[simp] theorem State.setPoolFrame_evu (k : Nat) (f : Option Frame) : (s.setPoolFrame k f).evu = s.evu := rfl
@[simp] theorem State.setPoolFrame_rings (k : Nat) (f : Option Frame) : (s.setPoolFrame k f).rings = s.rings := rfl
@[simp] theorem State.setPoolFrame_bus (k : Nat) (f : Option Frame) : (s.setPoolFrame k f).bus = s.bus := rfl
@[simp] theorem State.setPoolFrame_mbx (k : Nat) (f : Option Frame) : (s.setPoolFrame k f).mbx = s.mbx := rfl
@[simp] theorem State.setPoolFrame_islands (k : Nat) (f : Option Frame) : (s.setPoolFrame k f).islands = s.islands := rfl
@[simp] theorem State.setPoolFrame_counters (k : Nat) (f : Option Frame) : (s.setPoolFrame k f).counters = s.counters := rfl
@[simp] theorem State.setPoolFrame_tb (k : Nat) (f : Option Frame) : (s.setPoolFrame k f).tb = s.tb := rfl
@[simp] theorem State.setPoolFrame_timed (k : Nat) (f : Option Frame) : (s.setPoolFrame k f).timed = s.timed := rfl
@[simp] theorem State.setPoolFrame_fifos (k : Nat) (f : Option Frame) : (s.setPoolFrame k f).fifos = s.fifos := rfl
@[simp] theorem State.setPoolFrame_lanes (k : Nat) (f : Option Frame) : (s.setPoolFrame k f).lanes = s.lanes := rfl
@[simp] theorem State.setPoolFrame_calRecs (k : Nat) (f : Option Frame) : (s.setPoolFrame k f).calRecs = s.calRecs := rfl
@[simp] theorem State.setPoolFrame_tt (k : Nat) (f : Option Frame) : (s.setPoolFrame k f).tt = s.tt := rfl
@[simp] theorem State.setPoolFrame_refs (k : Nat) (f : Option Frame) : (s.setPoolFrame k f).refs = s.refs := rfl
@[simp] theorem State.setPoolFrame_dpll (k : Nat) (f : Option Frame) : (s.setPoolFrame k f).dpll = s.dpll := rfl
@[simp] theorem State.setPoolFrame_gn (k : Nat) (f : Option Frame) : (s.setPoolFrame k f).gn = s.gn := rfl
@[simp] theorem State.setPoolFrame_em (k : Nat) (f : Option Frame) : (s.setPoolFrame k f).em = s.em := rfl
@[simp] theorem State.setPoolFrame_sw (k : Nat) (f : Option Frame) : (s.setPoolFrame k f).sw = s.sw := rfl
@[simp] theorem State.setPoolFrame_ft (k : Nat) (f : Option Frame) : (s.setPoolFrame k f).ft = s.ft := rfl
@[simp] theorem State.setPoolFrame_merges (k : Nat) (f : Option Frame) : (s.setPoolFrame k f).merges = s.merges := rfl
@[simp] theorem State.setPoolFrame_releases (k : Nat) (f : Option Frame) : (s.setPoolFrame k f).releases = s.releases := rfl
@[simp] theorem State.setPoolFrame_evd (k : Nat) (f : Option Frame) : (s.setPoolFrame k f).evd = s.evd := rfl
@[simp] theorem State.setPoolFrame_netRings (k : Nat) (f : Option Frame) : (s.setPoolFrame k f).netRings = s.netRings := rfl
@[simp] theorem State.setPoolFrame_selectors (k : Nat) (f : Option Frame) : (s.setPoolFrame k f).selectors = s.selectors := rfl
@[simp] theorem State.setPoolFrame_tw (k : Nat) (f : Option Frame) : (s.setPoolFrame k f).tw = s.tw := rfl
@[simp] theorem State.setPoolFrame_ctSeen (k : Nat) (f : Option Frame) : (s.setPoolFrame k f).ctSeen = s.ctSeen := rfl
@[simp] theorem State.setPoolFrame_bwFrom (k : Nat) (f : Option Frame) : (s.setPoolFrame k f).bwFrom = s.bwFrom := rfl
@[simp] theorem State.setPoolFrame_bwEnds (k : Nat) (f : Option Frame) : (s.setPoolFrame k f).bwEnds = s.bwEnds := rfl
@[simp] theorem State.setPoolFrame_mp (k : Nat) (f : Option Frame) : (s.setPoolFrame k f).mp = s.mp := rfl
@[simp] theorem State.setPoolFrame_cal (k : Nat) (f : Option Frame) : (s.setPoolFrame k f).cal = s.cal := rfl
@[simp] theorem State.setPoolFrame_fw (k : Nat) (f : Option Frame) : (s.setPoolFrame k f).fw = s.fw := rfl
@[simp] theorem State.setPoolFrame_sec (k : Nat) (f : Option Frame) : (s.setPoolFrame k f).sec = s.sec := rfl
@[simp] theorem State.setPoolFrame_ao (k : Nat) (f : Option Frame) : (s.setPoolFrame k f).ao = s.ao := rfl
@[simp] theorem State.setPoolFrame_boot (k : Nat) (f : Option Frame) : (s.setPoolFrame k f).boot = s.boot := rfl

@[simp] theorem State.setBq_pending (k : Nat) (q : QueueDyn) : (s.setBq k q).pending = s.pending := rfl
@[simp] theorem State.setBq_dtt (k : Nat) (q : QueueDyn) : (s.setBq k q).dtt = s.dtt := rfl
@[simp] theorem State.setBq_regs (k : Nat) (q : QueueDyn) : (s.setBq k q).regs = s.regs := rfl
@[simp] theorem State.setBq_hostMem (k : Nat) (q : QueueDyn) : (s.setBq k q).hostMem = s.hostMem := rfl
@[simp] theorem State.setBq_freeCount (k : Nat) (q : QueueDyn) : (s.setBq k q).freeCount = s.freeCount := rfl
@[simp] theorem State.setBq_evu (k : Nat) (q : QueueDyn) : (s.setBq k q).evu = s.evu := rfl
@[simp] theorem State.setBq_rings (k : Nat) (q : QueueDyn) : (s.setBq k q).rings = s.rings := rfl
@[simp] theorem State.setBq_bus (k : Nat) (q : QueueDyn) : (s.setBq k q).bus = s.bus := rfl
@[simp] theorem State.setBq_mbx (k : Nat) (q : QueueDyn) : (s.setBq k q).mbx = s.mbx := rfl
@[simp] theorem State.setBq_islands (k : Nat) (q : QueueDyn) : (s.setBq k q).islands = s.islands := rfl
@[simp] theorem State.setBq_counters (k : Nat) (q : QueueDyn) : (s.setBq k q).counters = s.counters := rfl
@[simp] theorem State.setBq_tb (k : Nat) (q : QueueDyn) : (s.setBq k q).tb = s.tb := rfl
@[simp] theorem State.setBq_timed (k : Nat) (q : QueueDyn) : (s.setBq k q).timed = s.timed := rfl
@[simp] theorem State.setBq_fifos (k : Nat) (q : QueueDyn) : (s.setBq k q).fifos = s.fifos := rfl
@[simp] theorem State.setBq_lanes (k : Nat) (q : QueueDyn) : (s.setBq k q).lanes = s.lanes := rfl
@[simp] theorem State.setBq_calRecs (k : Nat) (q : QueueDyn) : (s.setBq k q).calRecs = s.calRecs := rfl
@[simp] theorem State.setBq_tt (k : Nat) (q : QueueDyn) : (s.setBq k q).tt = s.tt := rfl
@[simp] theorem State.setBq_refs (k : Nat) (q : QueueDyn) : (s.setBq k q).refs = s.refs := rfl
@[simp] theorem State.setBq_dpll (k : Nat) (q : QueueDyn) : (s.setBq k q).dpll = s.dpll := rfl
@[simp] theorem State.setBq_gn (k : Nat) (q : QueueDyn) : (s.setBq k q).gn = s.gn := rfl
@[simp] theorem State.setBq_em (k : Nat) (q : QueueDyn) : (s.setBq k q).em = s.em := rfl
@[simp] theorem State.setBq_sw (k : Nat) (q : QueueDyn) : (s.setBq k q).sw = s.sw := rfl
@[simp] theorem State.setBq_ft (k : Nat) (q : QueueDyn) : (s.setBq k q).ft = s.ft := rfl
@[simp] theorem State.setBq_merges (k : Nat) (q : QueueDyn) : (s.setBq k q).merges = s.merges := rfl
@[simp] theorem State.setBq_releases (k : Nat) (q : QueueDyn) : (s.setBq k q).releases = s.releases := rfl
@[simp] theorem State.setBq_evd (k : Nat) (q : QueueDyn) : (s.setBq k q).evd = s.evd := rfl
@[simp] theorem State.setBq_netRings (k : Nat) (q : QueueDyn) : (s.setBq k q).netRings = s.netRings := rfl
@[simp] theorem State.setBq_selectors (k : Nat) (q : QueueDyn) : (s.setBq k q).selectors = s.selectors := rfl
@[simp] theorem State.setBq_tw (k : Nat) (q : QueueDyn) : (s.setBq k q).tw = s.tw := rfl
@[simp] theorem State.setBq_ctSeen (k : Nat) (q : QueueDyn) : (s.setBq k q).ctSeen = s.ctSeen := rfl
@[simp] theorem State.setBq_bwFrom (k : Nat) (q : QueueDyn) : (s.setBq k q).bwFrom = s.bwFrom := rfl
@[simp] theorem State.setBq_bwEnds (k : Nat) (q : QueueDyn) : (s.setBq k q).bwEnds = s.bwEnds := rfl
@[simp] theorem State.setBq_mp (k : Nat) (q : QueueDyn) : (s.setBq k q).mp = s.mp := rfl
@[simp] theorem State.setBq_cal (k : Nat) (q : QueueDyn) : (s.setBq k q).cal = s.cal := rfl
@[simp] theorem State.setBq_fw (k : Nat) (q : QueueDyn) : (s.setBq k q).fw = s.fw := rfl
@[simp] theorem State.setBq_sec (k : Nat) (q : QueueDyn) : (s.setBq k q).sec = s.sec := rfl
@[simp] theorem State.setBq_ao (k : Nat) (q : QueueDyn) : (s.setBq k q).ao = s.ao := rfl
@[simp] theorem State.setBq_boot (k : Nat) (q : QueueDyn) : (s.setBq k q).boot = s.boot := rfl

@[simp] theorem State.setMg_pending (g : Nat) (x : MergeGroup) : (s.setMg g x).pending = s.pending := rfl
@[simp] theorem State.setMg_dtt (g : Nat) (x : MergeGroup) : (s.setMg g x).dtt = s.dtt := rfl
@[simp] theorem State.setMg_regs (g : Nat) (x : MergeGroup) : (s.setMg g x).regs = s.regs := rfl
@[simp] theorem State.setMg_hostMem (g : Nat) (x : MergeGroup) : (s.setMg g x).hostMem = s.hostMem := rfl
@[simp] theorem State.setMg_freeCount (g : Nat) (x : MergeGroup) : (s.setMg g x).freeCount = s.freeCount := rfl
@[simp] theorem State.setMg_evu (g : Nat) (x : MergeGroup) : (s.setMg g x).evu = s.evu := rfl
@[simp] theorem State.setMg_rings (g : Nat) (x : MergeGroup) : (s.setMg g x).rings = s.rings := rfl
@[simp] theorem State.setMg_bus (g : Nat) (x : MergeGroup) : (s.setMg g x).bus = s.bus := rfl
@[simp] theorem State.setMg_mbx (g : Nat) (x : MergeGroup) : (s.setMg g x).mbx = s.mbx := rfl
@[simp] theorem State.setMg_islands (g : Nat) (x : MergeGroup) : (s.setMg g x).islands = s.islands := rfl
@[simp] theorem State.setMg_counters (g : Nat) (x : MergeGroup) : (s.setMg g x).counters = s.counters := rfl
@[simp] theorem State.setMg_tb (g : Nat) (x : MergeGroup) : (s.setMg g x).tb = s.tb := rfl
@[simp] theorem State.setMg_timed (g : Nat) (x : MergeGroup) : (s.setMg g x).timed = s.timed := rfl
@[simp] theorem State.setMg_fifos (g : Nat) (x : MergeGroup) : (s.setMg g x).fifos = s.fifos := rfl
@[simp] theorem State.setMg_lanes (g : Nat) (x : MergeGroup) : (s.setMg g x).lanes = s.lanes := rfl
@[simp] theorem State.setMg_calRecs (g : Nat) (x : MergeGroup) : (s.setMg g x).calRecs = s.calRecs := rfl
@[simp] theorem State.setMg_tt (g : Nat) (x : MergeGroup) : (s.setMg g x).tt = s.tt := rfl
@[simp] theorem State.setMg_refs (g : Nat) (x : MergeGroup) : (s.setMg g x).refs = s.refs := rfl
@[simp] theorem State.setMg_dpll (g : Nat) (x : MergeGroup) : (s.setMg g x).dpll = s.dpll := rfl
@[simp] theorem State.setMg_gn (g : Nat) (x : MergeGroup) : (s.setMg g x).gn = s.gn := rfl
@[simp] theorem State.setMg_em (g : Nat) (x : MergeGroup) : (s.setMg g x).em = s.em := rfl
@[simp] theorem State.setMg_sw (g : Nat) (x : MergeGroup) : (s.setMg g x).sw = s.sw := rfl
@[simp] theorem State.setMg_ft (g : Nat) (x : MergeGroup) : (s.setMg g x).ft = s.ft := rfl
@[simp] theorem State.setMg_bf (g : Nat) (x : MergeGroup) : (s.setMg g x).bf = s.bf := rfl
@[simp] theorem State.setMg_releases (g : Nat) (x : MergeGroup) : (s.setMg g x).releases = s.releases := rfl
@[simp] theorem State.setMg_evd (g : Nat) (x : MergeGroup) : (s.setMg g x).evd = s.evd := rfl
@[simp] theorem State.setMg_netRings (g : Nat) (x : MergeGroup) : (s.setMg g x).netRings = s.netRings := rfl
@[simp] theorem State.setMg_selectors (g : Nat) (x : MergeGroup) : (s.setMg g x).selectors = s.selectors := rfl
@[simp] theorem State.setMg_tw (g : Nat) (x : MergeGroup) : (s.setMg g x).tw = s.tw := rfl
@[simp] theorem State.setMg_ctSeen (g : Nat) (x : MergeGroup) : (s.setMg g x).ctSeen = s.ctSeen := rfl
@[simp] theorem State.setMg_bwFrom (g : Nat) (x : MergeGroup) : (s.setMg g x).bwFrom = s.bwFrom := rfl
@[simp] theorem State.setMg_bwEnds (g : Nat) (x : MergeGroup) : (s.setMg g x).bwEnds = s.bwEnds := rfl
@[simp] theorem State.setMg_mp (g : Nat) (x : MergeGroup) : (s.setMg g x).mp = s.mp := rfl
@[simp] theorem State.setMg_cal (g : Nat) (x : MergeGroup) : (s.setMg g x).cal = s.cal := rfl
@[simp] theorem State.setMg_fw (g : Nat) (x : MergeGroup) : (s.setMg g x).fw = s.fw := rfl
@[simp] theorem State.setMg_sec (g : Nat) (x : MergeGroup) : (s.setMg g x).sec = s.sec := rfl
@[simp] theorem State.setMg_ao (g : Nat) (x : MergeGroup) : (s.setMg g x).ao = s.ao := rfl
@[simp] theorem State.setMg_boot (g : Nat) (x : MergeGroup) : (s.setMg g x).boot = s.boot := rfl

@[simp] theorem State.setRg_pending (g : Nat) (x : RelGroup) : (s.setRg g x).pending = s.pending := rfl
@[simp] theorem State.setRg_dtt (g : Nat) (x : RelGroup) : (s.setRg g x).dtt = s.dtt := rfl
@[simp] theorem State.setRg_regs (g : Nat) (x : RelGroup) : (s.setRg g x).regs = s.regs := rfl
@[simp] theorem State.setRg_hostMem (g : Nat) (x : RelGroup) : (s.setRg g x).hostMem = s.hostMem := rfl
@[simp] theorem State.setRg_freeCount (g : Nat) (x : RelGroup) : (s.setRg g x).freeCount = s.freeCount := rfl
@[simp] theorem State.setRg_evu (g : Nat) (x : RelGroup) : (s.setRg g x).evu = s.evu := rfl
@[simp] theorem State.setRg_rings (g : Nat) (x : RelGroup) : (s.setRg g x).rings = s.rings := rfl
@[simp] theorem State.setRg_bus (g : Nat) (x : RelGroup) : (s.setRg g x).bus = s.bus := rfl
@[simp] theorem State.setRg_mbx (g : Nat) (x : RelGroup) : (s.setRg g x).mbx = s.mbx := rfl
@[simp] theorem State.setRg_islands (g : Nat) (x : RelGroup) : (s.setRg g x).islands = s.islands := rfl
@[simp] theorem State.setRg_counters (g : Nat) (x : RelGroup) : (s.setRg g x).counters = s.counters := rfl
@[simp] theorem State.setRg_tb (g : Nat) (x : RelGroup) : (s.setRg g x).tb = s.tb := rfl
@[simp] theorem State.setRg_timed (g : Nat) (x : RelGroup) : (s.setRg g x).timed = s.timed := rfl
@[simp] theorem State.setRg_fifos (g : Nat) (x : RelGroup) : (s.setRg g x).fifos = s.fifos := rfl
@[simp] theorem State.setRg_lanes (g : Nat) (x : RelGroup) : (s.setRg g x).lanes = s.lanes := rfl
@[simp] theorem State.setRg_calRecs (g : Nat) (x : RelGroup) : (s.setRg g x).calRecs = s.calRecs := rfl
@[simp] theorem State.setRg_tt (g : Nat) (x : RelGroup) : (s.setRg g x).tt = s.tt := rfl
@[simp] theorem State.setRg_refs (g : Nat) (x : RelGroup) : (s.setRg g x).refs = s.refs := rfl
@[simp] theorem State.setRg_dpll (g : Nat) (x : RelGroup) : (s.setRg g x).dpll = s.dpll := rfl
@[simp] theorem State.setRg_gn (g : Nat) (x : RelGroup) : (s.setRg g x).gn = s.gn := rfl
@[simp] theorem State.setRg_em (g : Nat) (x : RelGroup) : (s.setRg g x).em = s.em := rfl
@[simp] theorem State.setRg_sw (g : Nat) (x : RelGroup) : (s.setRg g x).sw = s.sw := rfl
@[simp] theorem State.setRg_ft (g : Nat) (x : RelGroup) : (s.setRg g x).ft = s.ft := rfl
@[simp] theorem State.setRg_bf (g : Nat) (x : RelGroup) : (s.setRg g x).bf = s.bf := rfl
@[simp] theorem State.setRg_merges (g : Nat) (x : RelGroup) : (s.setRg g x).merges = s.merges := rfl
@[simp] theorem State.setRg_evd (g : Nat) (x : RelGroup) : (s.setRg g x).evd = s.evd := rfl
@[simp] theorem State.setRg_netRings (g : Nat) (x : RelGroup) : (s.setRg g x).netRings = s.netRings := rfl
@[simp] theorem State.setRg_selectors (g : Nat) (x : RelGroup) : (s.setRg g x).selectors = s.selectors := rfl
@[simp] theorem State.setRg_tw (g : Nat) (x : RelGroup) : (s.setRg g x).tw = s.tw := rfl
@[simp] theorem State.setRg_ctSeen (g : Nat) (x : RelGroup) : (s.setRg g x).ctSeen = s.ctSeen := rfl
@[simp] theorem State.setRg_bwFrom (g : Nat) (x : RelGroup) : (s.setRg g x).bwFrom = s.bwFrom := rfl
@[simp] theorem State.setRg_bwEnds (g : Nat) (x : RelGroup) : (s.setRg g x).bwEnds = s.bwEnds := rfl
@[simp] theorem State.setRg_mp (g : Nat) (x : RelGroup) : (s.setRg g x).mp = s.mp := rfl
@[simp] theorem State.setRg_cal (g : Nat) (x : RelGroup) : (s.setRg g x).cal = s.cal := rfl
@[simp] theorem State.setRg_fw (g : Nat) (x : RelGroup) : (s.setRg g x).fw = s.fw := rfl
@[simp] theorem State.setRg_sec (g : Nat) (x : RelGroup) : (s.setRg g x).sec = s.sec := rfl
@[simp] theorem State.setRg_ao (g : Nat) (x : RelGroup) : (s.setRg g x).ao = s.ao := rfl
@[simp] theorem State.setRg_boot (g : Nat) (x : RelGroup) : (s.setRg g x).boot = s.boot := rfl

@[simp] theorem State.setNetRing_pending (n : Nat) (r : NetRing) : (s.setNetRing n r).pending = s.pending := rfl
@[simp] theorem State.setNetRing_dtt (n : Nat) (r : NetRing) : (s.setNetRing n r).dtt = s.dtt := rfl
@[simp] theorem State.setNetRing_regs (n : Nat) (r : NetRing) : (s.setNetRing n r).regs = s.regs := rfl
@[simp] theorem State.setNetRing_hostMem (n : Nat) (r : NetRing) : (s.setNetRing n r).hostMem = s.hostMem := rfl
@[simp] theorem State.setNetRing_freeCount (n : Nat) (r : NetRing) : (s.setNetRing n r).freeCount = s.freeCount := rfl
@[simp] theorem State.setNetRing_evu (n : Nat) (r : NetRing) : (s.setNetRing n r).evu = s.evu := rfl
@[simp] theorem State.setNetRing_rings (n : Nat) (r : NetRing) : (s.setNetRing n r).rings = s.rings := rfl
@[simp] theorem State.setNetRing_bus (n : Nat) (r : NetRing) : (s.setNetRing n r).bus = s.bus := rfl
@[simp] theorem State.setNetRing_mbx (n : Nat) (r : NetRing) : (s.setNetRing n r).mbx = s.mbx := rfl
@[simp] theorem State.setNetRing_islands (n : Nat) (r : NetRing) : (s.setNetRing n r).islands = s.islands := rfl
@[simp] theorem State.setNetRing_counters (n : Nat) (r : NetRing) : (s.setNetRing n r).counters = s.counters := rfl
@[simp] theorem State.setNetRing_tb (n : Nat) (r : NetRing) : (s.setNetRing n r).tb = s.tb := rfl
@[simp] theorem State.setNetRing_timed (n : Nat) (r : NetRing) : (s.setNetRing n r).timed = s.timed := rfl
@[simp] theorem State.setNetRing_fifos (n : Nat) (r : NetRing) : (s.setNetRing n r).fifos = s.fifos := rfl
@[simp] theorem State.setNetRing_lanes (n : Nat) (r : NetRing) : (s.setNetRing n r).lanes = s.lanes := rfl
@[simp] theorem State.setNetRing_calRecs (n : Nat) (r : NetRing) : (s.setNetRing n r).calRecs = s.calRecs := rfl
@[simp] theorem State.setNetRing_tt (n : Nat) (r : NetRing) : (s.setNetRing n r).tt = s.tt := rfl
@[simp] theorem State.setNetRing_refs (n : Nat) (r : NetRing) : (s.setNetRing n r).refs = s.refs := rfl
@[simp] theorem State.setNetRing_dpll (n : Nat) (r : NetRing) : (s.setNetRing n r).dpll = s.dpll := rfl
@[simp] theorem State.setNetRing_gn (n : Nat) (r : NetRing) : (s.setNetRing n r).gn = s.gn := rfl
@[simp] theorem State.setNetRing_em (n : Nat) (r : NetRing) : (s.setNetRing n r).em = s.em := rfl
@[simp] theorem State.setNetRing_sw (n : Nat) (r : NetRing) : (s.setNetRing n r).sw = s.sw := rfl
@[simp] theorem State.setNetRing_ft (n : Nat) (r : NetRing) : (s.setNetRing n r).ft = s.ft := rfl
@[simp] theorem State.setNetRing_bf (n : Nat) (r : NetRing) : (s.setNetRing n r).bf = s.bf := rfl
@[simp] theorem State.setNetRing_merges (n : Nat) (r : NetRing) : (s.setNetRing n r).merges = s.merges := rfl
@[simp] theorem State.setNetRing_releases (n : Nat) (r : NetRing) : (s.setNetRing n r).releases = s.releases := rfl
@[simp] theorem State.setNetRing_evd (n : Nat) (r : NetRing) : (s.setNetRing n r).evd = s.evd := rfl
@[simp] theorem State.setNetRing_selectors (n : Nat) (r : NetRing) : (s.setNetRing n r).selectors = s.selectors := rfl
@[simp] theorem State.setNetRing_tw (n : Nat) (r : NetRing) : (s.setNetRing n r).tw = s.tw := rfl
@[simp] theorem State.setNetRing_ctSeen (n : Nat) (r : NetRing) : (s.setNetRing n r).ctSeen = s.ctSeen := rfl
@[simp] theorem State.setNetRing_bwFrom (n : Nat) (r : NetRing) : (s.setNetRing n r).bwFrom = s.bwFrom := rfl
@[simp] theorem State.setNetRing_bwEnds (n : Nat) (r : NetRing) : (s.setNetRing n r).bwEnds = s.bwEnds := rfl
@[simp] theorem State.setNetRing_mp (n : Nat) (r : NetRing) : (s.setNetRing n r).mp = s.mp := rfl
@[simp] theorem State.setNetRing_cal (n : Nat) (r : NetRing) : (s.setNetRing n r).cal = s.cal := rfl
@[simp] theorem State.setNetRing_fw (n : Nat) (r : NetRing) : (s.setNetRing n r).fw = s.fw := rfl
@[simp] theorem State.setNetRing_sec (n : Nat) (r : NetRing) : (s.setNetRing n r).sec = s.sec := rfl
@[simp] theorem State.setNetRing_ao (n : Nat) (r : NetRing) : (s.setNetRing n r).ao = s.ao := rfl
@[simp] theorem State.setNetRing_boot (n : Nat) (r : NetRing) : (s.setNetRing n r).boot = s.boot := rfl

@[simp] theorem State.setSelector_pending (k : Nat) (x : Selector) : (s.setSelector k x).pending = s.pending := rfl
@[simp] theorem State.setSelector_dtt (k : Nat) (x : Selector) : (s.setSelector k x).dtt = s.dtt := rfl
@[simp] theorem State.setSelector_regs (k : Nat) (x : Selector) : (s.setSelector k x).regs = s.regs := rfl
@[simp] theorem State.setSelector_hostMem (k : Nat) (x : Selector) : (s.setSelector k x).hostMem = s.hostMem := rfl
@[simp] theorem State.setSelector_freeCount (k : Nat) (x : Selector) : (s.setSelector k x).freeCount = s.freeCount := rfl
@[simp] theorem State.setSelector_evu (k : Nat) (x : Selector) : (s.setSelector k x).evu = s.evu := rfl
@[simp] theorem State.setSelector_rings (k : Nat) (x : Selector) : (s.setSelector k x).rings = s.rings := rfl
@[simp] theorem State.setSelector_bus (k : Nat) (x : Selector) : (s.setSelector k x).bus = s.bus := rfl
@[simp] theorem State.setSelector_mbx (k : Nat) (x : Selector) : (s.setSelector k x).mbx = s.mbx := rfl
@[simp] theorem State.setSelector_islands (k : Nat) (x : Selector) : (s.setSelector k x).islands = s.islands := rfl
@[simp] theorem State.setSelector_counters (k : Nat) (x : Selector) : (s.setSelector k x).counters = s.counters := rfl
@[simp] theorem State.setSelector_tb (k : Nat) (x : Selector) : (s.setSelector k x).tb = s.tb := rfl
@[simp] theorem State.setSelector_timed (k : Nat) (x : Selector) : (s.setSelector k x).timed = s.timed := rfl
@[simp] theorem State.setSelector_fifos (k : Nat) (x : Selector) : (s.setSelector k x).fifos = s.fifos := rfl
@[simp] theorem State.setSelector_lanes (k : Nat) (x : Selector) : (s.setSelector k x).lanes = s.lanes := rfl
@[simp] theorem State.setSelector_calRecs (k : Nat) (x : Selector) : (s.setSelector k x).calRecs = s.calRecs := rfl
@[simp] theorem State.setSelector_tt (k : Nat) (x : Selector) : (s.setSelector k x).tt = s.tt := rfl
@[simp] theorem State.setSelector_refs (k : Nat) (x : Selector) : (s.setSelector k x).refs = s.refs := rfl
@[simp] theorem State.setSelector_dpll (k : Nat) (x : Selector) : (s.setSelector k x).dpll = s.dpll := rfl
@[simp] theorem State.setSelector_gn (k : Nat) (x : Selector) : (s.setSelector k x).gn = s.gn := rfl
@[simp] theorem State.setSelector_em (k : Nat) (x : Selector) : (s.setSelector k x).em = s.em := rfl
@[simp] theorem State.setSelector_sw (k : Nat) (x : Selector) : (s.setSelector k x).sw = s.sw := rfl
@[simp] theorem State.setSelector_ft (k : Nat) (x : Selector) : (s.setSelector k x).ft = s.ft := rfl
@[simp] theorem State.setSelector_bf (k : Nat) (x : Selector) : (s.setSelector k x).bf = s.bf := rfl
@[simp] theorem State.setSelector_merges (k : Nat) (x : Selector) : (s.setSelector k x).merges = s.merges := rfl
@[simp] theorem State.setSelector_releases (k : Nat) (x : Selector) : (s.setSelector k x).releases = s.releases := rfl
@[simp] theorem State.setSelector_evd (k : Nat) (x : Selector) : (s.setSelector k x).evd = s.evd := rfl
@[simp] theorem State.setSelector_netRings (k : Nat) (x : Selector) : (s.setSelector k x).netRings = s.netRings := rfl
@[simp] theorem State.setSelector_tw (k : Nat) (x : Selector) : (s.setSelector k x).tw = s.tw := rfl
@[simp] theorem State.setSelector_ctSeen (k : Nat) (x : Selector) : (s.setSelector k x).ctSeen = s.ctSeen := rfl
@[simp] theorem State.setSelector_bwFrom (k : Nat) (x : Selector) : (s.setSelector k x).bwFrom = s.bwFrom := rfl
@[simp] theorem State.setSelector_bwEnds (k : Nat) (x : Selector) : (s.setSelector k x).bwEnds = s.bwEnds := rfl
@[simp] theorem State.setSelector_mp (k : Nat) (x : Selector) : (s.setSelector k x).mp = s.mp := rfl
@[simp] theorem State.setSelector_cal (k : Nat) (x : Selector) : (s.setSelector k x).cal = s.cal := rfl
@[simp] theorem State.setSelector_fw (k : Nat) (x : Selector) : (s.setSelector k x).fw = s.fw := rfl
@[simp] theorem State.setSelector_sec (k : Nat) (x : Selector) : (s.setSelector k x).sec = s.sec := rfl
@[simp] theorem State.setSelector_ao (k : Nat) (x : Selector) : (s.setSelector k x).ao = s.ao := rfl
@[simp] theorem State.setSelector_boot (k : Nat) (x : Selector) : (s.setSelector k x).boot = s.boot := rfl

@[simp] theorem State.setMemSum_pending (m : Nat) (x : MemSum) : (s.setMemSum m x).pending = s.pending := rfl
@[simp] theorem State.setMemSum_dtt (m : Nat) (x : MemSum) : (s.setMemSum m x).dtt = s.dtt := rfl
@[simp] theorem State.setMemSum_regs (m : Nat) (x : MemSum) : (s.setMemSum m x).regs = s.regs := rfl
@[simp] theorem State.setMemSum_hostMem (m : Nat) (x : MemSum) : (s.setMemSum m x).hostMem = s.hostMem := rfl
@[simp] theorem State.setMemSum_freeCount (m : Nat) (x : MemSum) : (s.setMemSum m x).freeCount = s.freeCount := rfl
@[simp] theorem State.setMemSum_evu (m : Nat) (x : MemSum) : (s.setMemSum m x).evu = s.evu := rfl
@[simp] theorem State.setMemSum_rings (m : Nat) (x : MemSum) : (s.setMemSum m x).rings = s.rings := rfl
@[simp] theorem State.setMemSum_bus (m : Nat) (x : MemSum) : (s.setMemSum m x).bus = s.bus := rfl
@[simp] theorem State.setMemSum_mbx (m : Nat) (x : MemSum) : (s.setMemSum m x).mbx = s.mbx := rfl
@[simp] theorem State.setMemSum_islands (m : Nat) (x : MemSum) : (s.setMemSum m x).islands = s.islands := rfl
@[simp] theorem State.setMemSum_counters (m : Nat) (x : MemSum) : (s.setMemSum m x).counters = s.counters := rfl
@[simp] theorem State.setMemSum_tb (m : Nat) (x : MemSum) : (s.setMemSum m x).tb = s.tb := rfl
@[simp] theorem State.setMemSum_timed (m : Nat) (x : MemSum) : (s.setMemSum m x).timed = s.timed := rfl
@[simp] theorem State.setMemSum_fifos (m : Nat) (x : MemSum) : (s.setMemSum m x).fifos = s.fifos := rfl
@[simp] theorem State.setMemSum_lanes (m : Nat) (x : MemSum) : (s.setMemSum m x).lanes = s.lanes := rfl
@[simp] theorem State.setMemSum_calRecs (m : Nat) (x : MemSum) : (s.setMemSum m x).calRecs = s.calRecs := rfl
@[simp] theorem State.setMemSum_tt (m : Nat) (x : MemSum) : (s.setMemSum m x).tt = s.tt := rfl
@[simp] theorem State.setMemSum_refs (m : Nat) (x : MemSum) : (s.setMemSum m x).refs = s.refs := rfl
@[simp] theorem State.setMemSum_dpll (m : Nat) (x : MemSum) : (s.setMemSum m x).dpll = s.dpll := rfl
@[simp] theorem State.setMemSum_gn (m : Nat) (x : MemSum) : (s.setMemSum m x).gn = s.gn := rfl
@[simp] theorem State.setMemSum_em (m : Nat) (x : MemSum) : (s.setMemSum m x).em = s.em := rfl
@[simp] theorem State.setMemSum_sw (m : Nat) (x : MemSum) : (s.setMemSum m x).sw = s.sw := rfl
@[simp] theorem State.setMemSum_ft (m : Nat) (x : MemSum) : (s.setMemSum m x).ft = s.ft := rfl
@[simp] theorem State.setMemSum_bf (m : Nat) (x : MemSum) : (s.setMemSum m x).bf = s.bf := rfl
@[simp] theorem State.setMemSum_merges (m : Nat) (x : MemSum) : (s.setMemSum m x).merges = s.merges := rfl
@[simp] theorem State.setMemSum_releases (m : Nat) (x : MemSum) : (s.setMemSum m x).releases = s.releases := rfl
@[simp] theorem State.setMemSum_evd (m : Nat) (x : MemSum) : (s.setMemSum m x).evd = s.evd := rfl
@[simp] theorem State.setMemSum_netRings (m : Nat) (x : MemSum) : (s.setMemSum m x).netRings = s.netRings := rfl
@[simp] theorem State.setMemSum_selectors (m : Nat) (x : MemSum) : (s.setMemSum m x).selectors = s.selectors := rfl
@[simp] theorem State.setMemSum_tw (m : Nat) (x : MemSum) : (s.setMemSum m x).tw = s.tw := rfl
@[simp] theorem State.setMemSum_ctSeen (m : Nat) (x : MemSum) : (s.setMemSum m x).ctSeen = s.ctSeen := rfl
@[simp] theorem State.setMemSum_bwFrom (m : Nat) (x : MemSum) : (s.setMemSum m x).bwFrom = s.bwFrom := rfl
@[simp] theorem State.setMemSum_bwEnds (m : Nat) (x : MemSum) : (s.setMemSum m x).bwEnds = s.bwEnds := rfl
@[simp] theorem State.setMemSum_cal (m : Nat) (x : MemSum) : (s.setMemSum m x).cal = s.cal := rfl
@[simp] theorem State.setMemSum_fw (m : Nat) (x : MemSum) : (s.setMemSum m x).fw = s.fw := rfl
@[simp] theorem State.setMemSum_sec (m : Nat) (x : MemSum) : (s.setMemSum m x).sec = s.sec := rfl
@[simp] theorem State.setMemSum_ao (m : Nat) (x : MemSum) : (s.setMemSum m x).ao = s.ao := rfl
@[simp] theorem State.setMemSum_boot (m : Nat) (x : MemSum) : (s.setMemSum m x).boot = s.boot := rfl

end Sys2Proof.Machine
end

