-- ==== Sys2Proof/WellFormed.lean ====
section
/-! DEFINITION. Which terms of `Instr` stand for a command that can reach the device: fields within their widths, unit numbers within
the units the manual gives. The meanings are total: one outside its range leaves the device as it is. -/

set_option Elab.async false

namespace Sys2Proof

/-- A 32-bit access: one of the three BARs, a word-aligned offset, four byte enables, 32 bits of data (R45 to R52). -/
def Access.wf (a : Access) : Bool :=
  (a.bar = 0 || a.bar = 2 || a.bar = 4) && decide (a.off < 2 ^ 26) && a.off % 4 = 0 && decide (a.be < 16) && decide (a.data < 2 ^ 32)

/-- An entry's fields within their widths, and the payload as long as LEN says, inline bytes up to 40 (R95). -/
def Cmd.wf (c : Cmd) : Bool :=
  decide (c.tag < 2 ^ 16) && decide (c.len < 2 ^ 16) && decide (c.flags < 256) && decide (c.rlen4k < 256) &&
  decide (c.xaddr < 2 ^ 64) && decide (c.raddr < 2 ^ 64) && decide (c.payload.length ≤ max 40 c.len)

/-- A fetched entry within its widths (R95, R117). -/
def Fetched.wf : Fetched → Bool
  | .command t => decide (t < 2 ^ 16)
  | .unassigned op c => decide (op < 2 ^ 16) && c.wf
  | .unreadable => true

/-- Flash bytes within the flash of 64 MiB at most, and the five slots of its directory (R645). -/
def BootIn.wf (b : BootIn) : Bool :=
  decide (b.aoTick < 2 ^ 64) && b.flash.all (fun e => decide (e.1 < 2 ^ 26) && decide (e.2 < 256)) &&
  (!b.programmed || b.slots.length = 5) && decide (b.next < 2)

/-- Failing words of on-chip memories (R608) and a self-test of R689's numbering. -/
def StartTests.wf (t : StartTests) : Bool :=
  t.words.all (fun w => decide (w.1 < 13) && decide (w.2 < 2 ^ 40)) && (t.checker.all (fun m => decide (m < 12))) && decide (t.evdTest < 7)

/-- Ring entries from the newest word back, each tick within DTT and each fine code of the TDC's 320 (R168, R171). -/
def ringWf : List EdgeEntry → Bool
  | [] => true
  | [e] => decide (e.tick < 2 ^ 64) && decide (e.code < 320)
  | e :: f :: r => decide (e.tick < 2 ^ 64) && decide (e.code < 320) && decide (f.word < e.word) && ringWf (f :: r)

/-- A lane, a ring of 1 to 64 entries and a bit of a word of at most 40 bits (R168). -/
def EdgeMeas.wf (m : EdgeMeas) : Bool :=
  decide (m.lane < 52) && m.ring ≠ [] && decide (m.ring.length ≤ 64) && ringWf m.ring && decide (m.bit < 40)

/-- Terms of a latency report within PTS_LAT_RX's fields (R175). -/
def LatTerms.wf (t : LatTerms) : Bool := decide (t.slip < 64) && decide (t.cdr < 64) && decide (t.fill < 16)

/-- Delays within the 64 places of a record, hits of at most two channels of 320 codes (R628, R642). -/
def CalMeas.wf (m : CalMeas) : Bool := decide (m.first + m.delays.length ≤ 64) && decide (m.hits.length ≤ 640)

/-- An epoch of at most 96 satellites (R348), of systems 0 to 3. -/
def GnEpoch.wf (o : GnEpoch) : Bool := decide (o.sats.length ≤ 96) && o.sats.all (fun x => decide (x.system < 4) && decide (x.prn < 256))

/-- Whether a command is well formed. -/
def Instr.wf : Instr → Bool
  | .hstNop c => c.wf
  | .hstCancel c => c.wf
  | .hstRestartMgmt c => c.wf
  | .tbRead c => c.wf
  | .tbStep c => c.wf
  | .tbSlew c => c.wf
  | .tbAdjust c => c.wf
  | .tbRealign c => c.wf
  | .tbSetServed c => c.wf
  | .tbSetUtc c => c.wf
  | .tbSnapshot c => c.wf
  | .tbSetCompact c => c.wf
  | .ttSessionSet c => c.wf
  | .ttSessionGet c => c.wf
  | .ttSessionEnable c => c.wf
  | .ttSetAsymmetry c => c.wf
  | .ttServoSet c => c.wf
  | .ttServoStatus c => c.wf
  | .rsSetPriority c => c.wf
  | .rsSetLimits c => c.wf
  | .rsSetTimers c => c.wf
  | .rsForce c => c.wf
  | .rsStatus c => c.wf
  | .rsLarderRead c => c.wf
  | .rsOpenLoop c => c.wf
  | .rsSteer c => c.wf
  | .plSetLoop c => c.wf
  | .plOutConfig c => c.wf
  | .plOutRetune c => c.wf
  | .plPpsConfig c => c.wf
  | .plStatus c => c.wf
  | .gnEnable c => c.wf
  | .gnLoadAlmanac c => c.wf
  | .gnLoadEphemeris c => c.wf
  | .gnSetPosition c => c.wf
  | .gnSetAntennaDelay c => c.wf
  | .gnStatus c => c.wf
  | .emInputConfig c => c.wf
  | .emInterval c => c.wf
  | .emFrequency c => c.wf
  | .emSelfAudit c => c.wf
  | .sdsPortConfig c => c.wf
  | .sdsSetFir c => c.wf
  | .sdsSetCtle c => c.wf
  | .sdsPrbs c => c.wf
  | .sdsEyeScan c => c.wf
  | .sdsSetTrim c => c.wf
  | .sdsLaneStatus c => c.wf
  | .sdsSetStampCorr c => c.wf
  | .swPortForward c => c.wf
  | .swSetVlan c => c.wf
  | .swSetLag c => c.wf
  | .swRuleWrite c => c.wf
  | .swDirectConnect c => c.wf
  | .swDirectDisconnect c => c.wf
  | .ftInsert c => c.wf
  | .ftDelete c => c.wf
  | .ftSearch c => c.wf
  | .ftWalkOpen c => c.wf
  | .ftWalkNext c => c.wf
  | .ftWalkClose c => c.wf
  | .ftFlushPort c => c.wf
  | .ftSetAging c => c.wf
  | .ftRouteWrite c => c.wf
  | .ftRouteDelete c => c.wf
  | .ftLearnConfig c => c.wf
  | .ftDigest c => c.wf
  | .bfSetPool c => c.wf
  | .bfSetQueue c => c.wf
  | .bfSetShaper c => c.wf
  | .bfSpillEnable c => c.wf
  | .bfMcastGroup c => c.wf
  | .fmGroupSet c => c.wf
  | .fmGroupEnable c => c.wf
  | .fmSetTrim c => c.wf
  | .fmPartition c => c.wf
  | .erGroupSet c => c.wf
  | .erGroupEnable c => c.wf
  | .erSetTrim c => c.wf
  | .evdConfig c => c.wf
  | .evdGetPubkey c => c.wf
  | .evdGetBlock c => c.wf
  | .capRingSet c => c.wf
  | .capRingEnable c => c.wf
  | .capSelect c => c.wf
  | .twEnable c => c.wf
  | .twTakeover c => c.wf
  | .twTakeback c => c.wf
  | .twStatus c => c.wf
  | .twSetWtr c => c.wf
  | .ctClear c => c.wf
  | .ctPreset c => c.wf
  | .ctSetThreshold c => c.wf
  | .ctWindowMap c => c.wf
  | .ctLatencySample c => c.wf
  | .mpScrub c => c.wf
  | .mpScrubSummary c => c.wf
  | .mpInject c => c.wf
  | .mpReleaseQuarantine c => c.wf
  | .calLane c => c.wf
  | .calEvtin c => c.wf
  | .calOutput c => c.wf
  | .calReadRecord c => c.wf
  | .fwWriteSlot c => c.wf
  | .fwApplyMoult c => c.wf
  | .fwActivate c => c.wf
  | .fwConfirm c => c.wf
  | .fwStatus c => c.wf
  | .fwUpdateEvd c => c.wf
  | .secOwnerLock c => c.wf
  | .secGetIdentity c => c.wf
  | .secZeroise c => c.wf
  | .secSelfTest c => c.wf
  | .secDrbgRead c => c.wf
  | .steppedCommandStep _ => true
  | .mbxDoorbell a fs => a.wf && fs.all Fetched.wf
  | .mbxQueueEnable a => a.wf
  | .mbxQueueDisable a => a.wf
  | .cqConsWrite a => a.wf
  | .smbusIdentityRead addr => decide (addr < 128)
  | .smbusStatusRead addr => decide (addr < 128)
  | .smbusTemperatureRead addr _ _ => decide (addr < 128)
  | .smbusOffsetWrite addr _ off => decide (addr < 128) && decide (off < 2 ^ 26)
  | .smbusRegisterRead addr => decide (addr < 128)
  | .smbusCommandWrite addr _ e => decide (addr < 128) && e.wf
  | .smbusCommandStatus addr => decide (addr < 128)
  | .registerWrite a more => a.wf && more.all (fun w => decide (w.1 < 16) && decide (w.2 < 2 ^ 32))
  | .unmappedRead a => a.wf
  | .unmappedWrite a => a.wf
  | .readOnlyWrite a => a.wf
  | .partialW32Write a => a.wf
  | .bar2Write a => a.wf
  | .bar4LongWrite a more => a.wf && more.all (fun w => decide (w.1 < 16) && decide (w.2 < 2 ^ 32))
  | .latchingLoRead a more => a.wf && more.all (fun b => decide (b < 16))
  | .pairLoWrite a => a.wf
  | .pairHiWrite a => a.wf
  | .keyedAWrite a => a.wf
  | .keyedBWrite a => a.wf
  | .keyedPairWrite64 a be data => a.wf && decide (be < 16) && decide (data < 2 ^ 32)
  | .keyedSequenceTimeout off _ => decide (off < 2 ^ 26)
  | .gdLockSet a => a.wf
  | .hstReset a be data => a.wf && decide (be < 16) && decide (data < 2 ^ 32)
  | .evrRingEnable a => a.wf
  | .evrConsWrite a => a.wf
  | .ttRecRingEnable a => a.wf
  | .ttRecConsWrite a => a.wf
  | .ftLrnRingEnable a => a.wf
  | .ftLrnConsWrite a => a.wf
  | .emRConsWrite a => a.wf
  | .evdRConsWrite a => a.wf
  | .nrDoorbell a => a.wf
  | .snapTrigger a => a.wf
  | .snapArm a => a.wf
  | .snapArmedCapture src x => decide (src < 8) && decide (x < 2 ^ 80)
  | .ptmDialog master turn request => decide (master < 2 ^ 64) && decide (turn < 2 ^ 32) && decide (request < 2 ^ 64)
  | .stampFifoPop a => a.wf
  | .emFifoPop a => a.wf
  | .htxRingEnable a => a.wf
  | .htxTailWrite a => a.wf
  | .hostTxDescriptor _ _ _ => true
  | .eventRecordWrite => true
  | .eventRecordLate => true
  | .ringHoldoffExpiry ring => decide (ring < 32)
  | .mainResetAssert cause => decide (0 < cause) && decide (cause < 5)
  | .mainResetRelease b => b.wf
  | .thermalReset => true
  | .ready ddr => decide (ddr < 4)
  | .pciePerst => true
  | .hostIfReset => true
  | .innerLock fine _ => decide (fine < 65536)
  | .innerLockLoss => true
  | .sysxoFault _ => true
  | .bandSearchDone band => decide (band < 256)
  | .referenceSample cand x _ _ => decide (cand < 16) && decide (x < 2 ^ 80)
  | .dpllLock d => decide (d < 2)
  | .dpllLockLoss d => decide (d < 2)
  | .frequencyAcquired d => decide (d < 2)
  | .servoUpdate fine _ => decide (fine < 65536)
  | .segmentRenewal d => decide (d < 2)
  | .stepApply d => decide (d < 2)
  | .outRephaseDone => true
  | .servedSwitch => true
  | .tbOutAligned => true
  | .tbSlewDone d => decide (d < 2)
  | .tbLeap d => decide (d < 2)
  | .monitorEvaluation => true
  | .candidateLost cand => decide (cand < 16)
  | .qualTimerExpiry cand => decide (cand < 16)
  | .wtrExpiry cand => decide (cand < 16)
  | .switchTransactionStart d => decide (d < 2)
  | .switchTransactionEnd d => decide (d < 2)
  | .qcClassUpdate => true
  | .holdoverUpdate => true
  | .larderEntryWrite => true
  | .tstatHoldExpiry => true
  | .osynLock k => decide (k < 4)
  | .squelchRelease out => decide (out < 12)
  | .todMessage edge => decide (edge < 2 ^ 64)
  | .todRxLabel second => decide (second < 2 ^ 48)
  | .portIslandWakeDone island _ => decide (island < 62)
  | .rxLock lane => decide (lane < 52)
  | .ctleSweepDone lane openings => decide (lane < 52) && decide (openings.length = 16)
  | .latencyReport lane _ t => decide (lane < 52) && t.wf
  | .linkUp port _ => decide (port < 51)
  | .linkDown port cause _ => decide (port < 48) && decide (cause < 256)
  | .txRestart port _ => decide (port < 48)
  | .sdsTrimDone lane => decide (lane < 52)
  | .prbsLockChange lane _ _ _ => decide (lane < 52)
  | .ptsRecalDue lane _ => decide (lane < 52)
  | .phaseSample m _ _ => m.wf
  | .frameRx src len _ _ m outs => decide (src < 52) && decide (len < 65536) && m.wf && outs.all EdgeMeas.wf
  | .frameEnd src _ _ m outs => decide (src < 52) && m.wf && outs.all EdgeMeas.wf
  | .egressPick egress m => decide (egress < 52) && m.wf
  | .frameTxDone egress m => decide (egress < 52) && m.wf
  | .swDpSlip lane _ => decide (lane < 52)
  | .agerVisit slot => decide (slot < 2 ^ 21)
  | .ftWalkTimeout => true
  | .spillWrite queue => decide (queue < 416)
  | .spillReadback queue => decide (queue < 416)
  | .spillDrainDone => true
  | .mergeDue g m => decide (g < 16) && m.wf
  | .fmDrainDone g => decide (g < 16)
  | .releaseCopyStart g port => decide (g < 64) && decide (port < 48)
  | .erDrainDone g => decide (g < 64)
  | .evdRecord => true
  | .evdBlockClose => true
  | .evdBlockSigned => true
  | .ttPeriodicTx session kind _ p m => decide (session < 256) && decide (kind < 256) && p.wf && m.wf
  | .ptpMessageRx p m _ => p.wf && m.wf
  | .ttPhaseReportTx session => decide (session < 256)
  | .ttPhaseReportRx => true
  | .ttPhaseEntry session => decide (session < 256)
  | .ttReportTimeout session => decide (session < 256)
  | .ttPhaseSlip servo => decide (servo < 8)
  | .ttServoTimeout servo => decide (servo < 8)
  | .esmcPduTx _ => true
  | .esmcPduRx port ql => decide (port < 48) && decide (ql < 16)
  | .gnssEpoch sol o => decide (sol < 2) && o.wf
  | .gnRateChange sol => decide (sol < 2)
  | .gnPortLoss port _ => decide (port < 2)
  | .gnPortReturn port _ => decide (port < 2)
  | .gnMagCheck port _ _ => decide (port < 2)
  | .surveyDone sol => decide (sol < 2)
  | .spoofHoldExpiry sol => decide (sol < 2)
  | .gnNoSatTimeout sol => decide (sol < 2)
  | .evtinEdge input _ tick phase code => decide (input < 8) && decide (tick < 2 ^ 64) && decide (phase < 8) && decide (code < 40)
  | .emRingMove input => decide (input < 8)
  | .emGateOpen input => decide (input < 8)
  | .emGateClose input => decide (input < 8)
  | .twHeartbeatTx => true
  | .twHeartbeatRx _ state qcA qcB claim _ pref serial => decide (state < 8) && decide (qcA < 256) && decide (qcB < 256) && decide (claim < 2 ^ 32) && decide (pref < 2) && decide (serial < 2 ^ 64)
  | .twTimeTx => true
  | .twTimeRx _ stamp here _ _ stepA stepB _ _ served => decide (stamp < 2 ^ 64) && decide (here < 2 ^ 64) && decide (stepA < 2 ^ 32) && decide (stepB < 2 ^ 32) && decide (served < 2)
  | .twMirrorRx _ seq opcode tag instant => decide (seq < 2 ^ 32) && decide (opcode < 65536) && decide (tag < 65536) && decide (instant < 2 ^ 64)
  | .twAckRx _ seq status detail => decide (seq < 2 ^ 32) && decide (status < 256) && decide (detail < 2 ^ 32)
  | .mirrorAckTimeout => true
  | .twEvdBhRx _ epoch block _ => decide (epoch < 2 ^ 64) && decide (block < 2 ^ 64)
  | .twClaimRx _ claim kind => decide (claim < 2 ^ 32) && decide (kind < 3)
  | .twLinkTimeout => true
  | .twHbMiss => true
  | .twFaultTimeout => true
  | .twTwclkLoss => true
  | .twAlign _ => true
  | .twWtrExpiry => true
  | .bwWindowEnd port dir octets peak slot => decide (port < 48) && decide (dir < 2) && decide (octets < 2 ^ 64) && decide (peak < 2 ^ 32) && decide (slot < 2 ^ 21)
  | .corrWriteback mem addr => decide (mem < 13) && decide (addr < 2 ^ 40)
  | .trackerExpiry mem addr => decide (mem < 13) && decide (addr < 2 ^ 40)
  | .mergeBufferFlush mem addr => decide (mem < 13) && decide (addr < 2 ^ 40)
  | .deviceCalAuto _ => true
  | .calPartDone target m _ => decide (target < 256) && m.wf
  | .calAccept target => decide (target < 256)
  | .stampCorrApply port mode _ => decide (port < 48) && decide (mode < 8)
  | .asymApply port => decide (port < 48)
  | .fmTrimApply port => decide (port < 48)
  | .erTrimApply port => decide (port < 48)
  | .fwLoadDone => true
  | .fwFreeze => true
  | .fwHandoverDone => true
  | .fwWaitTimeout => true
  | .fwFreezeTimeout => true
  | .heldSteerExpiry => true
  | .fwTrialExpiry => true
  | .fwHealthFail n => decide (n < 4)
  | .watchdogExpiry => true
  | .leinnarRestart => true
  | .leinnarRestartDone => true
  | .tamperActive n tick => decide (n < 2) && decide (tick < 2 ^ 64)
  | .selftestFailure test => decide (test < 9)
  | .drbgReseed => true
  | .secVbatLow mv => decide (mv < 65536)
  | .aoContentsLost => true
  | .aoXtalStop => true
  | .aoAnchorWrite tick => decide (tick < 2 ^ 64)
  | .firstSegmentOpen tick t => decide (tick < 2 ^ 64) && t.wf
  | .twinLinkDown => true
  | .tapReset => true

end Sys2Proof
end

