-- ==== Sys2Proof/Tests/Slice0.lean ====
section
/-! SUPPORT. Tests: ill-formed terms that the checks refuse, worked values, and for every clause of every statement with hypotheses a state
and operands that meet them together. -/

set_option Elab.async false

namespace Sys2Proof.Tests

open Sys2Proof.Machine

/-! ### Well-formedness -/

/-- Operands within their ranges. -/
def okAccess : Access := ⟨.pcie, 0, 0, 15, 0⟩

/-- An entry within its widths. -/
def okCmd : Cmd := ⟨.general, 0, 0, 0, 0, 0, 0, [], true, true, [], []⟩

/-- A stamp measurement within its ranges. -/
def okEdge : EdgeMeas := ⟨0, [⟨1, 0, 0⟩], 1, 0⟩

/-- A board found at start-up. -/
def okBoot : BootIn := ⟨false, true, 0, false, [], [], 0⟩

/-- Start-up tests that pass. -/
def okTests : StartTests := ⟨[], none, 0⟩

/-- A calibration part's measurement. -/
def okCal : CalMeas := ⟨0, 0, true, [], [], 0, 0, 0, [], 0⟩

/-- A satellite within its ranges. -/
def okSat : GnSat := ⟨0, 1, 0, 0, 0, 0, 0, 0, 0, 0, true⟩

/-- An epoch within its ranges, and one with a system that is none. -/
def okEpoch : GnEpoch := ⟨[okSat], [], [], 37, none⟩

/-- An epoch with a satellite of no system. -/
def badEpoch : GnEpoch := ⟨[{ okSat with system := 4 }], [], [], 37, none⟩

theorem test_ill_formed_operands_1 : okAccess.wf = true ∧ Access.wf { okAccess with off := 2 ^ 26 } = false ∧ Access.wf { okAccess with off := 2 } = false ∧ Access.wf { okAccess with be := 16 } = false ∧
    Access.wf { okAccess with data := 2 ^ 32 } = false := by decide +kernel

theorem test_ill_formed_operands_2 : okCmd.wf = true ∧ Cmd.wf { okCmd with len := 65536 } = false ∧ Cmd.wf { okCmd with flags := 256 } = false ∧ Cmd.wf { okCmd with rlen4k := 256 } = false ∧
    Cmd.wf { okCmd with xaddr := 2 ^ 64 } = false ∧ Cmd.wf { okCmd with raddr := 2 ^ 64 } = false ∧ Cmd.wf { okCmd with payload := List.replicate 41 0 } = false := by decide +kernel

theorem test_ill_formed_operands_3 : okEdge.wf = true ∧ EdgeMeas.wf { okEdge with ring := [⟨1, 2 ^ 64, 0⟩] } = false ∧ EdgeMeas.wf { okEdge with ring := [⟨1, 0, 320⟩] } = false ∧ EdgeMeas.wf { okEdge with ring := [] } = false ∧
    EdgeMeas.wf { okEdge with ring := [⟨1, 0, 0⟩, ⟨1, 0, 0⟩] } = false ∧ EdgeMeas.wf { okEdge with bit := 40 } = false ∧
    LatTerms.wf ⟨0, 64, 0⟩ = false ∧ LatTerms.wf ⟨0, 0, 16⟩ = false := by decide +kernel

theorem test_ill_formed_operands_4 : okBoot.wf = true ∧ BootIn.wf { okBoot with aoTick := 2 ^ 64 } = false ∧ BootIn.wf { okBoot with flash := [(2 ^ 26, 0)] } = false ∧
    BootIn.wf { okBoot with flash := [(0, 256)] } = false ∧ BootIn.wf { okBoot with programmed := true } = false := by decide +kernel

theorem test_ill_formed_operands_5 : okTests.wf = true ∧ StartTests.wf { okTests with words := [(13, 0)] } = false ∧ StartTests.wf { okTests with words := [(0, 2 ^ 40)] } = false ∧
    StartTests.wf { okTests with checker := some 12 } = false ∧ Fetched.wf (.unassigned 65536 okCmd) = false ∧ Fetched.wf (.unassigned 1 { okCmd with tag := 65536 }) = false := by decide +kernel

theorem test_ill_formed_operands_6 : okCal.wf = true ∧ CalMeas.wf { okCal with hits := List.replicate 641 0 } = false ∧ badEpoch.wf = false ∧ GnEpoch.wf { okEpoch with sats := List.replicate 97 okSat } = false ∧
    GnEpoch.wf { okEpoch with sats := [{ okSat with prn := 256 }] } = false := by decide +kernel

theorem test_ill_formed_1 : ([
    .hstNop { okCmd with tag := 65536 },
    .hstCancel { okCmd with tag := 65536 },
    .hstRestartMgmt { okCmd with tag := 65536 },
    .tbRead { okCmd with tag := 65536 },
    .tbStep { okCmd with tag := 65536 },
    .tbSlew { okCmd with tag := 65536 },
    .tbAdjust { okCmd with tag := 65536 },
    .tbRealign { okCmd with tag := 65536 },
    .tbSetServed { okCmd with tag := 65536 },
    .tbSetUtc { okCmd with tag := 65536 },
    .tbSnapshot { okCmd with tag := 65536 },
    .tbSetCompact { okCmd with tag := 65536 },
    .ttSessionSet { okCmd with tag := 65536 },
    .ttSessionGet { okCmd with tag := 65536 },
    .ttSessionEnable { okCmd with tag := 65536 },
    .ttSetAsymmetry { okCmd with tag := 65536 },
    .ttServoSet { okCmd with tag := 65536 },
    .ttServoStatus { okCmd with tag := 65536 },
    .rsSetPriority { okCmd with tag := 65536 },
    .rsSetLimits { okCmd with tag := 65536 },
    .rsSetTimers { okCmd with tag := 65536 },
    .rsForce { okCmd with tag := 65536 },
    .rsStatus { okCmd with tag := 65536 },
    .rsLarderRead { okCmd with tag := 65536 },
    .rsOpenLoop { okCmd with tag := 65536 },
    .rsSteer { okCmd with tag := 65536 },
    .plSetLoop { okCmd with tag := 65536 },
    .plOutConfig { okCmd with tag := 65536 },
    .plOutRetune { okCmd with tag := 65536 },
    .plPpsConfig { okCmd with tag := 65536 },
    .plStatus { okCmd with tag := 65536 },
    .gnEnable { okCmd with tag := 65536 },
    .gnLoadAlmanac { okCmd with tag := 65536 },
    .gnLoadEphemeris { okCmd with tag := 65536 },
    .gnSetPosition { okCmd with tag := 65536 },
    .gnSetAntennaDelay { okCmd with tag := 65536 },
    .gnStatus { okCmd with tag := 65536 },
    .emInputConfig { okCmd with tag := 65536 },
    .emInterval { okCmd with tag := 65536 },
    .emFrequency { okCmd with tag := 65536 }] : List Instr).all (fun i => !i.wf) = true := by decide +kernel

theorem test_ill_formed_2 : ([
    .emSelfAudit { okCmd with tag := 65536 },
    .sdsPortConfig { okCmd with tag := 65536 },
    .sdsSetFir { okCmd with tag := 65536 },
    .sdsSetCtle { okCmd with tag := 65536 },
    .sdsPrbs { okCmd with tag := 65536 },
    .sdsEyeScan { okCmd with tag := 65536 },
    .sdsSetTrim { okCmd with tag := 65536 },
    .sdsLaneStatus { okCmd with tag := 65536 },
    .sdsSetStampCorr { okCmd with tag := 65536 },
    .swPortForward { okCmd with tag := 65536 },
    .swSetVlan { okCmd with tag := 65536 },
    .swSetLag { okCmd with tag := 65536 },
    .swRuleWrite { okCmd with tag := 65536 },
    .swDirectConnect { okCmd with tag := 65536 },
    .swDirectDisconnect { okCmd with tag := 65536 },
    .ftInsert { okCmd with tag := 65536 },
    .ftDelete { okCmd with tag := 65536 },
    .ftSearch { okCmd with tag := 65536 },
    .ftWalkOpen { okCmd with tag := 65536 },
    .ftWalkNext { okCmd with tag := 65536 },
    .ftWalkClose { okCmd with tag := 65536 },
    .ftFlushPort { okCmd with tag := 65536 },
    .ftSetAging { okCmd with tag := 65536 },
    .ftRouteWrite { okCmd with tag := 65536 },
    .ftRouteDelete { okCmd with tag := 65536 },
    .ftLearnConfig { okCmd with tag := 65536 },
    .ftDigest { okCmd with tag := 65536 },
    .bfSetPool { okCmd with tag := 65536 },
    .bfSetQueue { okCmd with tag := 65536 },
    .bfSetShaper { okCmd with tag := 65536 },
    .bfSpillEnable { okCmd with tag := 65536 },
    .bfMcastGroup { okCmd with tag := 65536 },
    .fmGroupSet { okCmd with tag := 65536 },
    .fmGroupEnable { okCmd with tag := 65536 },
    .fmSetTrim { okCmd with tag := 65536 },
    .fmPartition { okCmd with tag := 65536 },
    .erGroupSet { okCmd with tag := 65536 },
    .erGroupEnable { okCmd with tag := 65536 },
    .erSetTrim { okCmd with tag := 65536 },
    .evdConfig { okCmd with tag := 65536 }] : List Instr).all (fun i => !i.wf) = true := by decide +kernel

theorem test_ill_formed_3 : ([
    .evdGetPubkey { okCmd with tag := 65536 },
    .evdGetBlock { okCmd with tag := 65536 },
    .capRingSet { okCmd with tag := 65536 },
    .capRingEnable { okCmd with tag := 65536 },
    .capSelect { okCmd with tag := 65536 },
    .twEnable { okCmd with tag := 65536 },
    .twTakeover { okCmd with tag := 65536 },
    .twTakeback { okCmd with tag := 65536 },
    .twStatus { okCmd with tag := 65536 },
    .twSetWtr { okCmd with tag := 65536 },
    .ctClear { okCmd with tag := 65536 },
    .ctPreset { okCmd with tag := 65536 },
    .ctSetThreshold { okCmd with tag := 65536 },
    .ctWindowMap { okCmd with tag := 65536 },
    .ctLatencySample { okCmd with tag := 65536 },
    .mpScrub { okCmd with tag := 65536 },
    .mpScrubSummary { okCmd with tag := 65536 },
    .mpInject { okCmd with tag := 65536 },
    .mpReleaseQuarantine { okCmd with tag := 65536 },
    .calLane { okCmd with tag := 65536 },
    .calEvtin { okCmd with tag := 65536 },
    .calOutput { okCmd with tag := 65536 },
    .calReadRecord { okCmd with tag := 65536 },
    .fwWriteSlot { okCmd with tag := 65536 },
    .fwApplyMoult { okCmd with tag := 65536 },
    .fwActivate { okCmd with tag := 65536 },
    .fwConfirm { okCmd with tag := 65536 },
    .fwStatus { okCmd with tag := 65536 },
    .fwUpdateEvd { okCmd with tag := 65536 },
    .secOwnerLock { okCmd with tag := 65536 },
    .secGetIdentity { okCmd with tag := 65536 },
    .secZeroise { okCmd with tag := 65536 },
    .secSelfTest { okCmd with tag := 65536 },
    .secDrbgRead { okCmd with tag := 65536 },
    .mbxDoorbell { okAccess with bar := 1 } [],
    .mbxDoorbell okAccess [.command 65536],
    .mbxQueueEnable { okAccess with bar := 1 },
    .mbxQueueDisable { okAccess with bar := 1 },
    .cqConsWrite { okAccess with bar := 1 },
    .smbusIdentityRead 128,
    .smbusStatusRead 128,
    .smbusTemperatureRead 128 0 0,
    .smbusOffsetWrite 128 true 0,
    .smbusOffsetWrite 0x5A true (2 ^ 26),
    .smbusRegisterRead 128,
    .smbusCommandStatus 128] : List Instr).all (fun i => !i.wf) = true := by decide +kernel

theorem test_ill_formed_4 : ([
    .smbusCommandWrite 128 true .unreadable,
    .smbusCommandWrite 0x5A true (.command 65536),
    .registerWrite { okAccess with bar := 1 } [],
    .registerWrite okAccess [(16, 0)],
    .unmappedRead { okAccess with bar := 1 },
    .unmappedWrite { okAccess with bar := 1 },
    .readOnlyWrite { okAccess with bar := 1 },
    .partialW32Write { okAccess with bar := 1 },
    .bar2Write { okAccess with bar := 1 },
    .bar4LongWrite { okAccess with bar := 1 } [],
    .bar4LongWrite okAccess [(16, 0)],
    .latchingLoRead { okAccess with bar := 1 } [],
    .latchingLoRead okAccess [16],
    .pairLoWrite { okAccess with bar := 1 },
    .pairHiWrite { okAccess with bar := 1 },
    .keyedAWrite { okAccess with bar := 1 },
    .keyedBWrite { okAccess with bar := 1 },
    .keyedPairWrite64 { okAccess with bar := 1 } 0 0,
    .keyedPairWrite64 okAccess 16 0,
    .keyedPairWrite64 okAccess 0 (2 ^ 32),
    .keyedSequenceTimeout (2 ^ 26) .pcie,
    .gdLockSet { okAccess with bar := 1 },
    .hstReset { okAccess with bar := 1 } 0 0,
    .hstReset okAccess 16 0,
    .hstReset okAccess 0 (2 ^ 32),
    .evrRingEnable { okAccess with bar := 1 },
    .evrConsWrite { okAccess with bar := 1 },
    .ttRecRingEnable { okAccess with bar := 1 },
    .ttRecConsWrite { okAccess with bar := 1 },
    .ftLrnRingEnable { okAccess with bar := 1 },
    .ftLrnConsWrite { okAccess with bar := 1 },
    .emRConsWrite { okAccess with bar := 1 },
    .evdRConsWrite { okAccess with bar := 1 },
    .nrDoorbell { okAccess with bar := 1 },
    .snapTrigger { okAccess with bar := 1 },
    .snapArm { okAccess with bar := 1 },
    .snapArmedCapture 8 0,
    .snapArmedCapture 0 (2 ^ 80),
    .ptmDialog (2 ^ 64) 0 0,
    .ptmDialog 0 (2 ^ 32) 0,
    .ptmDialog 0 0 (2 ^ 64),
    .stampFifoPop { okAccess with bar := 1 }] : List Instr).all (fun i => !i.wf) = true := by decide +kernel

theorem test_ill_formed_5 : ([
    .emFifoPop { okAccess with bar := 1 },
    .htxRingEnable { okAccess with bar := 1 },
    .htxTailWrite { okAccess with bar := 1 },
    .ringHoldoffExpiry 32,
    .mainResetAssert 5,
    .mainResetAssert 0,
    .mainResetRelease { okBoot with next := 2 },
    .ready 4,
    .innerLock 65536 true,
    .bandSearchDone 256,
    .referenceSample 16 0 0 0,
    .referenceSample 0 (2 ^ 80) 0 0,
    .dpllLock 2,
    .dpllLockLoss 2,
    .frequencyAcquired 2,
    .servoUpdate 65536 true,
    .segmentRenewal 2,
    .stepApply 2,
    .tbSlewDone 2,
    .tbLeap 2,
    .candidateLost 16,
    .qualTimerExpiry 16,
    .wtrExpiry 16,
    .switchTransactionStart 2,
    .switchTransactionEnd 2,
    .osynLock 4,
    .squelchRelease 12,
    .todMessage (2 ^ 64),
    .todRxLabel (2 ^ 48),
    .portIslandWakeDone 62 0,
    .rxLock 52,
    .ctleSweepDone 52 (List.replicate 16 0),
    .ctleSweepDone 0 [],
    .latencyReport 52 true ⟨0, 0, 0⟩,
    .latencyReport 0 true ⟨64, 0, 0⟩,
    .linkUp 51 false,
    .linkDown 48 0 [],
    .linkDown 0 256 []] : List Instr).all (fun i => !i.wf) = true := by decide +kernel

theorem test_ill_formed_6 : ([
    .txRestart 48 0,
    .sdsTrimDone 52,
    .prbsLockChange 52 true 0 0,
    .ptsRecalDue 52 0,
    .phaseSample { okEdge with lane := 52 } true 0,
    .frameRx 52 0 [] true okEdge [],
    .frameRx 0 65536 [] true okEdge [],
    .frameRx 0 0 [] true { okEdge with lane := 52 } [],
    .frameRx 0 0 [] true okEdge [{ okEdge with ring := [] }],
    .frameEnd 52 [] true okEdge [],
    .frameEnd 0 [] true { okEdge with lane := 52 } [],
    .frameEnd 0 [] true okEdge [{ okEdge with lane := 52 }],
    .egressPick 52 okEdge,
    .egressPick 0 { okEdge with lane := 52 },
    .frameTxDone 52 okEdge,
    .frameTxDone 0 { okEdge with lane := 52 },
    .swDpSlip 52 true,
    .agerVisit (2 ^ 21),
    .spillWrite 416,
    .spillReadback 416,
    .mergeDue 16 okEdge,
    .mergeDue 0 { okEdge with lane := 52 },
    .fmDrainDone 16,
    .releaseCopyStart 64 0,
    .releaseCopyStart 0 48,
    .erDrainDone 64,
    .ttPeriodicTx 256 0 [] okEdge okEdge,
    .ttPeriodicTx 0 256 [] okEdge okEdge,
    .ttPeriodicTx 0 0 [] { okEdge with lane := 52 } okEdge,
    .ttPeriodicTx 0 0 [] okEdge { okEdge with lane := 52 },
    .ptpMessageRx { okEdge with lane := 52 } okEdge 0,
    .ptpMessageRx okEdge { okEdge with lane := 52 } 0,
    .ttPhaseReportTx 256,
    .ttPhaseEntry 256,
    .ttReportTimeout 256,
    .ttPhaseSlip 8,
    .ttServoTimeout 8,
    .esmcPduRx 48 0,
    .esmcPduRx 0 16,
    .gnssEpoch 2 okEpoch,
    .gnssEpoch 0 badEpoch,
    .gnRateChange 2] : List Instr).all (fun i => !i.wf) = true := by decide +kernel

theorem test_ill_formed_7 : ([
    .gnPortLoss 2 0,
    .gnPortReturn 2 0,
    .gnMagCheck 2 0 0,
    .surveyDone 2,
    .spoofHoldExpiry 2,
    .gnNoSatTimeout 2,
    .evtinEdge 8 true 0 0 0,
    .evtinEdge 0 true (2 ^ 64) 0 0,
    .evtinEdge 0 true 0 8 0,
    .evtinEdge 0 true 0 0 40,
    .emRingMove 8,
    .emGateOpen 8,
    .emGateClose 8,
    .twHeartbeatRx true 8 0 0 0 true 0 0,
    .twHeartbeatRx true 0 256 0 0 true 0 0,
    .twHeartbeatRx true 0 0 256 0 true 0 0,
    .twHeartbeatRx true 0 0 0 (2 ^ 32) true 0 0,
    .twHeartbeatRx true 0 0 0 0 true 2 0,
    .twHeartbeatRx true 0 0 0 0 true 0 (2 ^ 64),
    .twTimeRx true (2 ^ 64) 0 0 0 0 0 0 0 0,
    .twTimeRx true 0 (2 ^ 64) 0 0 0 0 0 0 0,
    .twTimeRx true 0 0 0 0 (2 ^ 32) 0 0 0 0,
    .twTimeRx true 0 0 0 0 0 (2 ^ 32) 0 0 0,
    .twTimeRx true 0 0 0 0 0 0 0 0 2,
    .twMirrorRx true (2 ^ 32) 0 0 0,
    .twMirrorRx true 0 65536 0 0,
    .twMirrorRx true 0 0 65536 0,
    .twMirrorRx true 0 0 0 (2 ^ 64),
    .twAckRx true (2 ^ 32) 0 0,
    .twAckRx true 0 256 0,
    .twAckRx true 0 0 (2 ^ 32),
    .twEvdBhRx true (2 ^ 64) 0 [],
    .twEvdBhRx true 0 (2 ^ 64) [],
    .twClaimRx true (2 ^ 32) 0,
    .twClaimRx true 0 3,
    .bwWindowEnd 48 0 0 0 0,
    .bwWindowEnd 0 2 0 0 0,
    .bwWindowEnd 0 0 (2 ^ 64) 0 0,
    .bwWindowEnd 0 0 0 (2 ^ 32) 0,
    .bwWindowEnd 0 0 0 0 (2 ^ 21)] : List Instr).all (fun i => !i.wf) = true := by decide +kernel

theorem test_ill_formed_8 : ([
    .corrWriteback 13 0,
    .corrWriteback 0 (2 ^ 40),
    .trackerExpiry 13 0,
    .trackerExpiry 0 (2 ^ 40),
    .mergeBufferFlush 13 0,
    .mergeBufferFlush 0 (2 ^ 40),
    .calPartDone 256 okCal 0,
    .calPartDone 0 { okCal with first := 65 } 0,
    .calAccept 256,
    .stampCorrApply 48 0 true,
    .stampCorrApply 0 8 true,
    .asymApply 48,
    .fmTrimApply 48,
    .erTrimApply 48,
    .fwHealthFail 4,
    .tamperActive 2 0,
    .tamperActive 0 (2 ^ 64),
    .selftestFailure 9,
    .secVbatLow 65536,
    .aoAnchorWrite (2 ^ 64),
    .firstSegmentOpen (2 ^ 64) okTests,
    .firstSegmentOpen 0 { okTests with evdTest := 7 }] : List Instr).all (fun i => !i.wf) = true := by decide +kernel

theorem test_well_formed_1 : ([
    .hstNop okCmd, .hstCancel okCmd, .hstRestartMgmt okCmd, .tbRead okCmd, .tbStep okCmd, .tbSlew okCmd,
    .tbAdjust okCmd, .tbRealign okCmd, .tbSetServed okCmd, .tbSetUtc okCmd, .tbSnapshot okCmd, .tbSetCompact okCmd,
    .ttSessionSet okCmd, .ttSessionGet okCmd, .ttSessionEnable okCmd, .ttSetAsymmetry okCmd, .ttServoSet okCmd, .ttServoStatus okCmd,
    .rsSetPriority okCmd, .rsSetLimits okCmd, .rsSetTimers okCmd, .rsForce okCmd, .rsStatus okCmd, .rsLarderRead okCmd,
    .rsOpenLoop okCmd, .rsSteer okCmd, .plSetLoop okCmd, .plOutConfig okCmd, .plOutRetune okCmd, .plPpsConfig okCmd,
    .plStatus okCmd, .gnEnable okCmd, .gnLoadAlmanac okCmd, .gnLoadEphemeris okCmd, .gnSetPosition okCmd, .gnSetAntennaDelay okCmd,
    .gnStatus okCmd, .emInputConfig okCmd, .emInterval okCmd, .emFrequency okCmd, .emSelfAudit okCmd, .sdsPortConfig okCmd,
    .sdsSetFir okCmd, .sdsSetCtle okCmd, .sdsPrbs okCmd, .sdsEyeScan okCmd, .sdsSetTrim okCmd, .sdsLaneStatus okCmd,
    .sdsSetStampCorr okCmd, .swPortForward okCmd, .swSetVlan okCmd, .swSetLag okCmd, .swRuleWrite okCmd, .swDirectConnect okCmd,
    .swDirectDisconnect okCmd, .ftInsert okCmd, .ftDelete okCmd, .ftSearch okCmd, .ftWalkOpen okCmd, .ftWalkNext okCmd,
    .ftWalkClose okCmd, .ftFlushPort okCmd, .ftSetAging okCmd, .ftRouteWrite okCmd, .ftRouteDelete okCmd, .ftLearnConfig okCmd,
    .ftDigest okCmd, .bfSetPool okCmd, .bfSetQueue okCmd, .bfSetShaper okCmd, .bfSpillEnable okCmd, .bfMcastGroup okCmd,
    .fmGroupSet okCmd, .fmGroupEnable okCmd, .fmSetTrim okCmd] : List Instr).all Instr.wf = true := by decide +kernel

theorem test_well_formed_2 : ([
    .fmPartition okCmd, .erGroupSet okCmd, .erGroupEnable okCmd, .erSetTrim okCmd, .evdConfig okCmd, .evdGetPubkey okCmd,
    .evdGetBlock okCmd, .capRingSet okCmd, .capRingEnable okCmd, .capSelect okCmd, .twEnable okCmd, .twTakeover okCmd,
    .twTakeback okCmd, .twStatus okCmd, .twSetWtr okCmd, .ctClear okCmd, .ctPreset okCmd, .ctSetThreshold okCmd,
    .ctWindowMap okCmd, .ctLatencySample okCmd, .mpScrub okCmd, .mpScrubSummary okCmd, .mpInject okCmd, .mpReleaseQuarantine okCmd,
    .calLane okCmd, .calEvtin okCmd, .calOutput okCmd, .calReadRecord okCmd, .fwWriteSlot okCmd, .fwApplyMoult okCmd,
    .fwActivate okCmd, .fwConfirm okCmd, .fwStatus okCmd, .fwUpdateEvd okCmd, .secOwnerLock okCmd, .secGetIdentity okCmd,
    .secZeroise okCmd, .secSelfTest okCmd, .secDrbgRead okCmd, .steppedCommandStep 0, .mbxDoorbell okAccess [], .mbxQueueEnable okAccess,
    .mbxQueueDisable okAccess, .cqConsWrite okAccess, .smbusIdentityRead 0, .smbusStatusRead 0, .smbusTemperatureRead 0 0 0, .smbusOffsetWrite 0 true 0,
    .smbusRegisterRead 0, .smbusCommandWrite 0 true .unreadable, .smbusCommandStatus 0, .registerWrite okAccess [], .unmappedRead okAccess, .unmappedWrite okAccess,
    .readOnlyWrite okAccess, .partialW32Write okAccess, .bar2Write okAccess, .bar4LongWrite okAccess [], .latchingLoRead okAccess [], .pairLoWrite okAccess,
    .pairHiWrite okAccess, .keyedAWrite okAccess, .keyedBWrite okAccess, .keyedPairWrite64 okAccess 0 0, .keyedSequenceTimeout 0 .pcie, .gdLockSet okAccess,
    .hstReset okAccess 0 0, .evrRingEnable okAccess, .evrConsWrite okAccess, .ttRecRingEnable okAccess, .ttRecConsWrite okAccess, .ftLrnRingEnable okAccess,
    .ftLrnConsWrite okAccess, .emRConsWrite okAccess, .evdRConsWrite okAccess] : List Instr).all Instr.wf = true := by decide +kernel

theorem test_well_formed_3 : ([
    .nrDoorbell okAccess, .snapTrigger okAccess, .snapArm okAccess, .snapArmedCapture 0 0, .ptmDialog 0 0 0, .stampFifoPop okAccess,
    .emFifoPop okAccess, .htxRingEnable okAccess, .htxTailWrite okAccess, .hostTxDescriptor [] [] true, .eventRecordWrite, .eventRecordLate,
    .ringHoldoffExpiry 0, .mainResetAssert 1, .mainResetRelease okBoot, .thermalReset, .ready 0, .pciePerst,
    .hostIfReset, .innerLock 0 true, .innerLockLoss, .sysxoFault true, .bandSearchDone 0, .referenceSample 0 0 0 0,
    .dpllLock 0, .dpllLockLoss 0, .frequencyAcquired 0, .servoUpdate 0 true, .segmentRenewal 0, .stepApply 0,
    .outRephaseDone, .servedSwitch, .tbOutAligned, .tbSlewDone 0, .tbLeap 0, .monitorEvaluation,
    .candidateLost 0, .qualTimerExpiry 0, .wtrExpiry 0, .switchTransactionStart 0, .switchTransactionEnd 0, .qcClassUpdate,
    .holdoverUpdate, .larderEntryWrite, .tstatHoldExpiry, .osynLock 0, .squelchRelease 0, .todMessage 0,
    .todRxLabel 0, .portIslandWakeDone 0 0, .rxLock 0, .ctleSweepDone 0 (List.replicate 16 0), .latencyReport 0 true ⟨0, 0, 0⟩, .linkUp 0 false,
    .linkDown 0 0 [], .txRestart 0 0, .sdsTrimDone 0, .prbsLockChange 0 true 0 0, .ptsRecalDue 0 0, .phaseSample okEdge true 0,
    .frameRx 0 0 [] true okEdge [], .frameEnd 0 [] true okEdge [], .egressPick 0 okEdge, .frameTxDone 0 okEdge, .swDpSlip 0 true, .agerVisit 0,
    .ftWalkTimeout, .spillWrite 0, .spillReadback 0, .spillDrainDone, .mergeDue 0 okEdge, .fmDrainDone 0,
    .releaseCopyStart 0 0, .erDrainDone 0, .evdRecord] : List Instr).all Instr.wf = true := by decide +kernel

theorem test_well_formed_4 : ([
    .evdBlockClose, .evdBlockSigned, .ttPeriodicTx 0 0 [] okEdge okEdge, .ptpMessageRx okEdge okEdge 0, .ttPhaseReportTx 0, .ttPhaseReportRx,
    .ttPhaseEntry 0, .ttReportTimeout 0, .ttPhaseSlip 0, .ttServoTimeout 0, .esmcPduTx true, .esmcPduRx 0 0,
    .gnssEpoch 0 okEpoch, .gnRateChange 0, .gnPortLoss 0 0, .gnPortReturn 0 0, .gnMagCheck 0 0 0, .surveyDone 0,
    .spoofHoldExpiry 0, .gnNoSatTimeout 0, .evtinEdge 0 true 0 0 0, .emRingMove 0, .emGateOpen 0, .emGateClose 0,
    .twHeartbeatTx, .twHeartbeatRx true 0 0 0 0 true 0 0, .twTimeTx, .twTimeRx true 0 0 0 0 0 0 0 0 0, .twMirrorRx true 0 0 0 0, .twAckRx true 0 0 0,
    .mirrorAckTimeout, .twEvdBhRx true 0 0 [], .twClaimRx true 0 0, .twLinkTimeout, .twHbMiss, .twFaultTimeout,
    .twTwclkLoss, .twAlign 0, .twWtrExpiry, .bwWindowEnd 0 0 0 0 0, .corrWriteback 0 0, .trackerExpiry 0 0,
    .mergeBufferFlush 0 0, .deviceCalAuto 0, .calPartDone 0 okCal 0, .calAccept 0, .stampCorrApply 0 0 true, .asymApply 0,
    .fmTrimApply 0, .erTrimApply 0, .fwLoadDone, .fwFreeze, .fwHandoverDone, .fwWaitTimeout,
    .fwFreezeTimeout, .heldSteerExpiry, .fwTrialExpiry, .fwHealthFail 0, .watchdogExpiry, .leinnarRestart,
    .leinnarRestartDone, .tamperActive 0 0, .selftestFailure 0, .drbgReseed, .secVbatLow 0, .aoContentsLost,
    .aoXtalStop, .aoAnchorWrite 0, .firstSegmentOpen 0 okTests, .twinLinkDown, .tapReset] : List Instr).all Instr.wf = true := by decide +kernel

/-! ### Worked values -/

/-- The bytes of a text of ASCII characters. -/
def ascii (l : List Nat) : Bytes := l.map (BitVec.ofNat 8)

/-- The check value of CRC-32C for the digits 1 to 9 (RFC 3720). -/
theorem test_crc32c : crc32c (ascii [49, 50, 51, 52, 53, 54, 55, 56, 57]) = 0xE3069283 := by decide +kernel

/-- SHA-256 of the bytes abc (FIPS 180-4, example). -/
theorem test_sha256 : ofBe (sha256 (ascii [97, 98, 99])) = 0xba7816bf8f01cfea414140de5dae2223b00361a396177a9cb410ff61f20015ad := by decide +kernel

/-- SHA-384 of the bytes abc (FIPS 180-4, example). -/
theorem test_sha384 : ofBe (sha384 (ascii [97, 98, 99])) =
    0xcb00753f45a35e8bb5a03d699ac65007272c32ab0eded1631a8b605a43ff5bed8086072ba1e7cc2358baeca134c825a7 := by decide +kernel

/-- One second of domain time is 781,250,000 ticks of 1.28 ns while RATE is 0. -/
theorem test_second : segTime ⟨0, 0, 0⟩ (781250000 * 2 ^ 16) = 10 ^ 9 * 2 ^ 16 := by decide

/-- FT96 carries into its seconds field at 10⁹ nanoseconds (R7). -/
theorem test_ft96_carry : ft96 (1500000000 * 2 ^ 16 + 5) = 1 * 2 ^ 48 + 500000000 * 2 ^ 16 + 5 := by decide

/-! ### States and operands that meet the hypotheses of the statements -/

/-- A device that runs: READY, both queues enabled, one GENERAL command doorbelled. -/
def ready : State :=
  let s := (State.reset.setB Reg.hstStatusReady true).setB Reg.hstStatusFwRun true
  let s := ((s.setB (Reg.mbxCfgEn 1) true).setF (Reg.mbxCfgSqLog2sz 1) 4).setF (Reg.mbxCfgCqLog2sz 1) 4
  let s := s.setQueue 1 { s.queue 1 with tail := 1, hampers := [⟨0, false, 1, 0, [7], none, true, none, 0, 0⟩] }
  { s with boot := { s.boot with inReset := false }, dtt := 1000000 }

/-- An entry of the GENERAL queue with `len` bytes of payload. -/
def entry (len : Nat) (p : List Nat) : Cmd := ⟨.general, 7, len, 0, 0, 0, 0, p.map (BitVec.ofNat 8), true, true, [], []⟩

/-- A whole frame of 64 zero bytes from port 0, with nothing of it in the pool. -/
def frame : Frame := { mkFrame 0 (List.replicate 64 0) 0 false ready with whole := true, vid := 1 }

/-- Lane 5 at 10GBASE-R: transmitting, locked, with both latency reports. -/
def lane5 : State :=
  ((((ready.setF (Reg.sdsStatusMode 5) 2).setB (Reg.sdsStatusTxOn 5) true).setB (Reg.sdsStatusRxLock 5) true).setB (Reg.ptsLatRxValid 5) true).setB (Reg.ptsLatTxValid 5) true

/-- A measurement of lane 5. -/
def edge5 : EdgeMeas := ⟨5, [⟨0, 1000000, 0⟩], 0, 0⟩

/-- An URGENT entry with `len` bytes of payload, and a device that has it in front. -/
def urgent (len : Nat) (p : List Nat) : Cmd := { entry len p with src := .urgent }

def readyU : State :=
  let s := ((ready.setB (Reg.mbxCfgEn 0) true).setF (Reg.mbxCfgSqLog2sz 0) 4).setF (Reg.mbxCfgCqLog2sz 0) 4
  s.setQueue 0 { s.queue 0 with tail := 1, hampers := [⟨0, false, 1, 0, [7], none, true, none, 0, 0⟩] }

/-- A session of a role with FLAGS, on port 5. -/
def session (role flags : Nat) : Session := { Session.reset with desc := ([0, 0, role, 5, 0, flags, 0, 0, 0, 0, 0] ++ List.replicate 53 0).map (BitVec.ofNat 8) }

/-- Session 0 in RUNNING one second after DTT 0. -/
def running (x : Session) : State := ({ lane5 with dtt := 781250000 }.setSession 0 x).setF (Reg.ttSStateState 0) 2

/-- A message of a type and flags that session 0 claimed. -/
def message (type flags : Nat) (tail : Bytes) : PtpRx := ⟨0, ([type, 0x12, 0, 76, 0, 0, flags] ++ List.replicate 37 0).map (BitVec.ofNat 8) ++ tail, 0, false, 0, 0, 0⟩

/-- Session 0 with a claimed message. -/
def told (x : Session) (r : PtpRx) : State := let s := running x; { s with tt := { s.tt with inbox := [r] } }

/-- An event message of sequenceId 0. -/
def event0 : EventMsg := ⟨0, 0, 0, 0, false, none, 0⟩

/-- Lane 5 with its link up. -/
def linked : State := lane5.setB (Reg.sdsStatusLink 5) true

/-- A frame of 64 bytes with its FCS, and the frame that port 5 receives of it, its bytes still to come. -/
def goodBytes : Bytes := List.replicate 60 0 ++ fcsOf (List.replicate 60 0)

def arriving (pool : Option Nat) (claimed : Bool) : RxFrame := ⟨{ frame with data := [] }, pool, none, none, false, [], claimed, false, false⟩

/-- Port 5 while it receives a frame, the pool holding frame 7. -/
def receiving (x : RxFrame) : State := { linked with bf := { linked.bf with frames := [(7, some { frame with copies := 1 })] } }.setRx 5 (some x)

/-- The host port with frame 7 in its queue 0. -/
def queued : State :=
  ((({ ready with bf := { ready.bf with frames := [(7, some { frame with copies := 1 })] } }).setBq 384 ⟨[{ Copy.none with frame := 7 }], 0⟩).setF
    (Reg.bfQLimMode 384) 0).setB (Reg.swPortStatusL23Tx 48) true

/-- A frame in transmission from a source of `kind`. -/
def leaving (kind : Nat) : TxFrame := ⟨kind, { Copy.none with frame := 7 }, 0, 0, frame, 0, 0, false, 0, [], false, 0⟩

/-- Port 9 up as the egress of merge group 2, which holds one whole frame. -/
def held : HeldFrame := ⟨frame, 0, 0, false, some 0⟩

def merging : State :=
  let s := (({ ready with islands := [48] }.setF (Reg.sdsStatusMode 9) 2).setB (Reg.sdsStatusLink 9) true).setB (Reg.swPortStatusL23Tx 9) true
  ((s.setF (Reg.fmGStatusState 2) 1).setF (Reg.fmGCfgEgress 2) 9).setMg 2 { MergeGroup.reset with held := [held] }

def edge9 : EdgeMeas := ⟨9, [⟨0, 1000000, 0⟩], 0, 0⟩

/-- Port 5 with a release copy of group 2 at DTT 1,000,001. -/
def releasing (at5 : Nat) : State :=
  let s := (({ lane5 with islands := [48] }.setB (Reg.sdsStatusLink 5) true).setB (Reg.swPortStatusL23Tx 5) true)
  s.setRg 2 { RelGroup.reset with held := [⟨frame, true, 9, 0, [⟨5, at5, false, false, false⟩], 0, 0, false, false⟩] }

/-! `EmptyQueueIsOneTick` -/

theorem test_empty_queue : ready.pending = [] ∧ ready.boot.inReset = false ∧ State.reset.pending = [] ∧ State.reset.boot.inReset = true := by decide +kernel

theorem test_empty_queue_is_one_tick : (fun (s : State) => s.pending = []) (ready.setB Reg.plStatusInnerLock true) := by decide +kernel

/-! `DttMovesByTicksAlone` -/

theorem test_dtt_other : (∀ cause : Nat, Instr.tapReset ≠ .mainResetAssert cause) ∧ (∀ b : BootIn, Instr.tapReset ≠ .mainResetRelease b) ∧
    Instr.tapReset ≠ .thermalReset ∧ exec .tapReset ready = .next ready := by
  exact ⟨fun _ h => (by cases h), fun _ h => (by cases h), fun h => (by cases h), rfl⟩

theorem test_dtt_moves_by_ticks_alone : (fun (s : State) => s.boot.inReset = false ∧ s.innerLocked = true) (ready.setB Reg.plStatusInnerLock true) := by decide +kernel

/-! `EveryStepKeepsTheCanonicalForm` -/

theorem test_canonical : State.reset.canonical = true ∧ step State.reset = .next (tick State.reset) := by
  refine ⟨by decide, rfl⟩

/-! `AStepOfZeroChangesNothing` -/

theorem test_tb_step : (fun (c : Cmd) (s : State) => Starts tbStepSpec c s ∧ ci c 4 8 = 0) (entry 12 [1, 0, 0, 0, 0, 0, 0, 0, 0, 0, 0, 0]) ready := by unfold Starts; decide +kernel

/-! `SwitchesThatDoNotSwitch` -/

theorem test_tb_set_served : (fun (c : Cmd) (s : State) => Starts tbSetServedSpec c s ∧ cu c 0 1 = s.served) (entry 4 [0, 0, 0, 0]) ready := by unfold Starts; decide +kernel

theorem test_tb_set_served_2 : (fun (c : Cmd) (s : State) => Starts tbSetServedSpec c s ∧ cu c 0 1 ≠ s.served ∧ (s.qcState (cu c 0 1) = 1 ∨ s.qcState (cu c 0 1) = 7)) (entry 4 [1, 0, 0, 0]) ready := by unfold Starts; decide +kernel

/-! `AccessesTheDeviceRefuses` -/

theorem test_unmapped_read : (fun (a : Access) (s : State) => s.boot.inReset = false ∧ unmapped a = true ∧ a.be % 16 ≠ 0) ((⟨.pcie, 0, 0xF00000, 15, 0⟩ : Access)) ready := by decide +kernel

theorem test_read_only_write : (fun (a : Access) (d : RegDesc) (s : State) => s.boot.inReset = false ∧ a.bar = 0 ∧ isCore a.path = false ∧ regAt a.off = some d ∧ ptsShut a.off s = false ∧ readOnly d = true ∧ a.be % 16 ≠ 0) ((⟨.pcie, 0, 0x8, 15, 5⟩ : Access)) ((⟨0x8, [], .plain, false, [⟨31, 31, .ro, 0⟩, ⟨30, 28, .ro, 0⟩, ⟨27, 26, .ro, 0⟩, ⟨25, 0, .ro, 0⟩]⟩ : RegDesc)) ready := by decide +kernel

theorem test_partial_w32_write : (fun (a : Access) (d : RegDesc) (s : State) => s.boot.inReset = false ∧ a.bar = 0 ∧ regAt a.off = some d ∧ ptsShut a.off s = false ∧ d.w32 = true ∧ a.be % 16 ≠ 15 ∧ a.be % 16 ≠ 0) ((⟨.pcie, 0, 0x10000, 3, 5⟩ : Access)) ((⟨0x10000, [], .plain, true, [⟨0, 0, .lk, 0⟩]⟩ : RegDesc)) ready := by decide +kernel

theorem test_bar2_write : (fun (a : Access) (s : State) => s.boot.inReset = false ∧ a.be % 16 ≠ 0) ⟨.pcie, 2, 0x10, 15, 5⟩ ready := by decide +kernel

theorem test_bar4_long_write : (fun (a : Access) (more : List (Nat × Nat)) (s : State) => s.boot.inReset = false ∧ a.off < 0x1000 ∧ more ≠ []) ((⟨.pcie, 4, 0x40, 15, 5⟩ : Access)) ([(15, 7)]) ready := by decide +kernel

theorem test_read_only_write_2 : (fun (a : Access) (d : RegDesc) (s : State) => s.boot.inReset = false ∧ jtagShut a true s = false ∧ a.bar = 0 ∧ isCore a.path = true ∧ regAt a.off = some d ∧ ptsShut a.off s = false ∧ (d.w32 = true → a.be % 16 = 15) ∧ readOnly d = true ∧ a.be % 16 ≠ 0) ⟨.core1, 0, 0x8, 15, 5⟩ ((regAt 0x8).getD ⟨0, [], .plain, false, []⟩) ready := by decide +kernel

/-! `AccessFaultIsLogged` -/

theorem test_access_fault_log : ready.getF Reg.hstEvrCfgMinsev ≤ 1 ∧ ready.mp.errs = [] := by decide +kernel

theorem test_access_fault_is_logged : (fun (s : State) => s.mp.errs = []) (ready.setB Reg.plStatusInnerLock true) := by decide +kernel

/-! `RegisterWritesAndPairs` -/

theorem test_register_write : (fun (a : Access) (d : RegDesc) (s : State) => SomeWrite a a.off s ∧ regAt a.off = some d ∧ a.off % 4 = 0 ∧ d.kind = .plain ∧ readOnly d = false ∧ (d.w32 = true → a.be % 16 = 15) ∧ ptsShut a.off s = false ∧ (isCore a.path = true → inGd a.off = false) ∧ a.off ≠ 0x10000 ∧ a.off ≠ 0x100040 ∧ writeIndex a.off a.data s = none) ((⟨.pcie, 0, 0x24, 15, 5⟩ : Access)) ((⟨0x24, [], .plain, false, [⟨4, 0, .rw, 4⟩]⟩ : RegDesc)) ready := by unfold SomeWrite; decide +kernel

theorem test_register_write_2 : (fun (a : Access) (d : RegDesc) (s : State) => FullWrite a a.off s ∧ regAt a.off = some d ∧ a.off % 4 = 0 ∧ ptsShut a.off s = false ∧ isCore a.path = true ∧ (inGd a.off = true ∨ a.off = 0x30 ∨ a.off = 0x34)) ⟨.core1, 0, 0x10004, 15, 5⟩ ((regAt 0x10004).getD ⟨0, [], .plain, false, []⟩) ready := by unfold FullWrite; decide +kernel

theorem test_register_write_3 : (fun (a : Access) (d : RegDesc) (s : State) => SomeWrite a a.off s ∧ regAt a.off = some d ∧ a.off % 4 = 0 ∧ ptsShut a.off s = true) ⟨.pcie, 0, 0x200440, 15, 5⟩ ((regAt 0x200440).getD ⟨0, [], .plain, false, []⟩) (ready.setF (Reg.sdsStatusMode 0) 4) := by unfold SomeWrite; decide +kernel

theorem test_register_write_4 : (fun (a : Access) (s : State) => (s.boot.inReset = true ∨ a.be % 16 = 0)) ⟨.pcie, 0, 0x24, 16, 5⟩ ready := by decide +kernel

theorem test_register_write_5 : (fun (a : Access) (s : State) => s.boot.inReset = false ∧ jtagShut a true s = true ∧ a.be % 16 ≠ 0) ⟨.jtag, 0, 0x24, 15, 5⟩ { ready with sec := { ready.sec with owner := ⟨[1], 4, 0⟩ } } := by decide +kernel

theorem test_register_write_6 : (fun (a : Access) (rest : List (Nat × Nat)) (s : State) => s.boot.inReset = false ∧ (¬(a.bar = 4 ∧ a.off < 0x1000)) ∧ (rest = [] → isPair a = false ∨ a.off % 8 ≠ 0 ∨ jtagShut a true s = true)) ⟨.pcie, 0, 0x20, 15, 5⟩ [] ready := by decide +kernel

theorem test_register_write_7 : (fun (a : Access) (s : State) => FullWrite a a.off s ∧ a.off ∈ rwPairs) ⟨.pcie, 0, 0x40, 15, 0x12345000⟩ ready := by unfold FullWrite; decide +kernel

theorem test_latching_lo_read : (fun (a : Access) (d : RegDesc) (s : State) => SomeRead a a.off s ∧ regAt a.off = some d ∧ d.kind = .latchLo ∧ a.off % 8 = 0 ∧ (¬(0x900000 ≤ a.off ∧ a.off < 0x930000)) ∧ (¬(0x980000 ≤ a.off ∧ a.off < 0x982000)) ∧ a.off ≠ Reg.hstDtt ∧ a.off ≠ Reg.aoTime) ((⟨.pcie, 0, 0x58, 15, 0⟩ : Access)) ((⟨0x58, [], .latchLo, false, [⟨31, 0, .ro, 0⟩]⟩ : RegDesc)) ready := by unfold SomeRead; decide +kernel

theorem test_latching_lo_read_2 : (fun (a : Access) (s : State) => SomeRead a Reg.hstDtt s) ((⟨.pcie, 0, 0x10, 15, 0⟩ : Access)) ready := by unfold SomeRead; decide +kernel

theorem test_latching_lo_read_3 : (fun (a : Access) (s : State) => SomeRead a Reg.aoTime s) ⟨.smbus, 0, Reg.aoTime, 15, 0⟩ ready := by unfold SomeRead; decide +kernel

theorem test_latching_lo_read_4 : (fun (a : Access) (c : Nat) (s : State) => SomeRead a (0x900000 + 8 * c) s ∧ c < 24576 ∧ s.mp.errs = []) ⟨.smbus, 0, 0x900000 + 8 * 24575, 15, 0⟩ 24575 ready := by unfold SomeRead; decide +kernel

theorem test_latching_lo_read_5 : (fun (a : Access) (d : RegDesc) (s : State) => SomeRead a a.off s ∧ regAt a.off = some d ∧ d.kind = .latchHi ∧ a.off % 4 = 0 ∧ (¬(0x900000 ≤ a.off ∧ a.off < 0x930000)) ∧ (¬(0x980000 ≤ a.off ∧ a.off < 0x982000))) ⟨.pcie, 0, 0x5C, 15, 0⟩ ((regAt 0x5C).getD ⟨0, [], .plain, false, []⟩) ready := by unfold SomeRead; decide +kernel

theorem test_latching_lo_read_6 : (fun (s : State) => s.boot.inReset = false) ready := by decide +kernel

theorem test_pair_lo_write : (fun (a : Access) (s : State) => SomeWrite a a.off s ∧ a.off ∈ rwPairs) ((⟨.pcie, 0, 0x40, 15, 0x12345000⟩ : Access)) ready := by unfold SomeWrite; decide +kernel

theorem test_pair_hi_write : (fun (a : Access) (s : State) => SomeWrite a a.off s ∧ 4 ≤ a.off ∧ a.off - 4 ∈ rwPairs) ((⟨.pcie, 0, 0x44, 15, 9⟩ : Access)) (({ ready with bus := { ready.bus with staging := [(0x40, some 0x12345000)] } })) := by unfold SomeWrite; decide +kernel

theorem test_keyed_a_write : (fun (a : Access) (s : State) => FullWrite a a.off s ∧ a.off ∈ keyedPairs ∧ isCore a.path = false ∧ s.isF Reg.gdLockLock = false ∧ (∀ k ∈ s.bus.keyed, ¬(k.off = a.off ∧ k.path = a.path))) ((⟨.pcie, 0, 0x10018, 15, 7⟩ : Access)) ready := by unfold FullWrite; decide +kernel

theorem test_keyed_a_write_2 : (fun (a : Access) (k : KeySeq) (s : State) => FullWrite a a.off s ∧ a.off ∈ keyedPairs ∧ isCore a.path = false ∧ s.isF Reg.gdLockLock = false ∧ keySeq a.off a.path s = some k ∧ s.dtt < k.opened + 33) ⟨.pcie, 0, 0x10018, 15, 7⟩ ⟨0x10018, .pcie, 7, 999968⟩ { ready with bus := { ready.bus with keyed := [⟨0x10018, .pcie, 7, 999968⟩] } } := by unfold FullWrite; decide +kernel

theorem test_keyed_a_write_3 : (fun (a : Access) (s : State) => FullWrite a a.off s ∧ a.off ∈ keyedPairs ∧ (isCore a.path = true ∨ s.isF Reg.gdLockLock = true ∧ (∀ k, keySeq a.off a.path s = some k → s.dtt < k.opened + 33))) ⟨.core0, 0, 0x10018, 15, 7⟩ ready := ⟨⟨by decide, by decide, by decide, by decide, by decide⟩, by decide, Or.inl (by decide)⟩

theorem test_keyed_b_write : (fun (a : Access) (off : Nat) (k : KeySeq) (s : State) => FullWrite a (off + 4) s ∧ off ∈ keyedPairs ∧ isCore a.path = false ∧ s.isF Reg.gdLockLock = false ∧ keySeq off a.path s = some k ∧ s.dtt < k.opened + 33) ((⟨.pcie, 0, 0x1001C, 15, 4294967288⟩ : Access)) 0x10018 ((⟨0x10018, .pcie, 7, 999990⟩ : KeySeq)) (({ ready with bus := { ready.bus with keyed := [⟨0x10018, .pcie, 7, 999990⟩] } })) := by unfold FullWrite; decide +kernel

theorem test_keyed_b_write_2 : (fun (a : Access) (off : Nat) (s : State) => FullWrite a (off + 4) s ∧ off ∈ keyedPairs ∧ isCore a.path = false ∧ s.isF Reg.gdLockLock = false ∧ keySeq off a.path s = none) ⟨.pcie, 0, 0x1001C, 15, 4294967288⟩ 0x10018 ready := by unfold FullWrite; decide +kernel

theorem test_keyed_b_write_3 : (fun (a : Access) (off : Nat) (s : State) => FullWrite a (off + 4) s ∧ off ∈ keyedPairs ∧ isCore a.path = true) ⟨.core1, 0, 0x1001C, 15, 4294967288⟩ 0x10018 ready := by unfold FullWrite; decide +kernel

theorem test_keyed_pair_write64 : (fun (a : Access) (be : Nat) (s : State) => FullWrite a a.off s ∧ a.off ∈ keyedPairs ∧ isCore a.path = false ∧ s.isF Reg.gdLockLock = false ∧ (∀ k ∈ s.bus.keyed, ¬(k.off = a.off ∧ k.path = a.path)) ∧ be % 16 = 15) ((⟨.pcie, 0, 0x10018, 15, 7⟩ : Access)) 15 ready := by unfold FullWrite; decide +kernel

theorem test_keyed_pair_write64_2 : (fun (a : Access) (be : Nat) (s : State) => FullWrite a a.off s ∧ a.off ∈ keyedPairs ∧ isCore a.path = true ∧ be % 16 = 15) ⟨.core1, 0, 0x10018, 15, 7⟩ 15 ready := by unfold FullWrite; decide +kernel

theorem test_keyed_sequence_timeout : (fun (off : Nat) (p : Path) (k : KeySeq) (s : State) => s.boot.inReset = false ∧ keySeq off p s = some k) 0x10018 .pcie ⟨0x10018, .pcie, 7, 999990⟩ { ready with bus := { ready.bus with keyed := [⟨0x10018, .pcie, 7, 999990⟩] } } := by decide +kernel

theorem test_keyed_sequence_timeout_2 : (fun (off : Nat) (p : Path) (s : State) => (s.boot.inReset = true ∨ keySeq off p s = none)) 0x10018 .pcie ready := by decide +kernel

theorem test_gd_lock_set : (fun (a : Access) (s : State) => FullWrite a 0x10000 s ∧ isCore a.path = false) ((⟨.pcie, 0, 0x10000, 15, 1⟩ : Access)) ready := by unfold FullWrite; decide +kernel

theorem test_gd_lock_set_2 : (fun (a : Access) (s : State) => FullWrite a 0x10000 s ∧ isCore a.path = true) ⟨.core0, 0, 0x10000, 15, 1⟩ ready := by unfold FullWrite; decide +kernel

theorem test_hst_reset : (fun (a : Access) (be : Nat) (data : Nat) (s : State) => FullWrite a 0x30 s ∧ isCore a.path = false ∧ s.isF Reg.gdLockLock = false ∧ (∀ k ∈ s.bus.keyed, ¬(k.off = a.off ∧ k.path = a.path)) ∧ be % 16 = 15 ∧ data = 2 ^ 32 - 1 - a.data) ((⟨.pcie, 0, 0x30, 15, 1⟩ : Access)) 15 4294967294 ready := by unfold FullWrite; decide +kernel

theorem test_hst_reset_2 : (fun (a : Access) (be : Nat) (data : Nat) (s : State) => FullWrite a 0x30 s ∧ isCore a.path = false ∧ s.isF Reg.gdLockLock = false ∧ (∀ k ∈ s.bus.keyed, ¬(k.off = a.off ∧ k.path = a.path)) ∧ be % 16 = 15 ∧ data ≠ 2 ^ 32 - 1 - a.data) ⟨.pcie, 0, 0x30, 15, 1⟩ 15 1 ready := by unfold FullWrite; decide +kernel

theorem test_hst_reset_3 : (fun (a : Access) (be : Nat) (s : State) => FullWrite a 0x30 s ∧ isCore a.path = true ∧ be % 16 = 15) ⟨.core1, 0, 0x30, 15, 1⟩ 15 ready := by unfold FullWrite; decide +kernel

/-! `KeyedValueTakesEffect` -/

theorem test_keyed_value_takes_effect : (fun (off : Nat) => off ∈ keyedPairs ∧ off ≠ 0x10028 ∧ off ≠ 0x10030) 0x10018 := by decide +kernel

theorem test_keyed_value_takes_effect_2 : (fun (v : Nat) (p : Nat) (s : State) => p < 32 ∧ bit (s.regWord 0x10028) p = true ∧ bit v p = false ∧ inGroup p s = false) 0x7FFFFFFF 31 (ready.setF Reg.gdPortEn0A 4294967295) := by decide +kernel

theorem test_keyed_value_takes_effect_3 : (fun (v : Nat) (p : Nat) (s : State) => 32 ≤ p ∧ p < 48 ∧ bit (s.regWord 0x10030) (p - 32) = true ∧ bit v (p - 32) = false ∧ inGroup p s = false) 0x17FFF 47 (ready.setF Reg.gdPortEn1A 0x1FFFF) := by decide +kernel

theorem test_keyed_value_takes_effect_4 : (fun (v : Nat) (n : Nat) (s : State) => 48 ≤ n ∧ n < 52 ∧ bit (s.regWord 0x10030) 16 = true ∧ bit v 16 = false) 0xFFFF 51 (ready.setF Reg.gdPortEn1A 0x1FFFF) := by decide +kernel

/-! `RegisterFieldsFollowTheirAccessCodes` -/

theorem test_register_fields_follow_their_access_codes : (fun (d : RegDesc) => (d.fields.map (·.lo)).Nodup ∧ (∀ f ∈ d.fields, f.lo < 32 ∧ f.lo ≤ f.hi)) ((regAt 0x4).getD ⟨0, [], .plain, false, []⟩) := by decide +kernel

/-! `RingsAreEnabledAndReturned` -/

theorem test_evr_ring_enable : (fun (a : Access) (s : State) => SomeWrite a 0x48 s) ((⟨.pcie, 0, 0x48, 15, 2049⟩ : Access)) ready := by unfold SomeWrite; decide +kernel

theorem test_tt_rec_ring_enable : (fun (a : Access) (s : State) => SomeWrite a 0x150018 s) ((⟨.pcie, 0, 0x150018, 15, 2049⟩ : Access)) ready := by unfold SomeWrite; decide +kernel

theorem test_ft_lrn_ring_enable : (fun (a : Access) (s : State) => SomeWrite a 0x500108 s) ((⟨.pcie, 0, 0x500108, 15, 2049⟩ : Access)) ready := by unfold SomeWrite; decide +kernel

theorem test_htx_ring_enable : (fun (a : Access) (s : State) => SomeWrite a 0x402008 s) ((⟨.pcie, 0, 0x402008, 15, 2049⟩ : Access)) ready := by unfold SomeWrite; decide +kernel

theorem test_evr_cons_write : (fun (a : Access) (s : State) => FullWrite a 0x50 s) ((⟨.pcie, 0, 0x50, 15, 0⟩ : Access)) ready := by unfold FullWrite; decide +kernel

theorem test_tt_rec_cons_write : (fun (a : Access) (s : State) => FullWrite a 0x150020 s) ((⟨.pcie, 0, 0x150020, 15, 0⟩ : Access)) ready := by unfold FullWrite; decide +kernel

theorem test_ft_lrn_cons_write : (fun (a : Access) (s : State) => FullWrite a 0x500110 s) ((⟨.pcie, 0, 0x500110, 15, 0⟩ : Access)) ready := by unfold FullWrite; decide +kernel

theorem test_em_r_cons_write : (fun (a : Access) (e : Nat) (s : State) => FullWrite a (0x130050 + 0x100 * e) s ∧ e < 8) ((⟨.pcie, 0, 0x130150, 15, 0⟩ : Access)) 1 ready := by unfold FullWrite; decide +kernel

theorem test_em_r_cons_write_2 : (fun (a : Access) (e : Nat) (s : State) => FullWrite a (0x130050 + 0x100 * e) s ∧ e < 8 ∧ a.data % 2 ^ 16 < emRingSize e s) ((⟨.pcie, 0, 0x130150, 15, 0⟩ : Access)) 1 ready := by unfold FullWrite; decide +kernel

theorem test_evd_r_cons_write : (fun (a : Access) (s : State) => FullWrite a 0x800028 s) ((⟨.pcie, 0, 0x800028, 15, 0⟩ : Access)) ready := by unfold FullWrite; decide +kernel

theorem test_htx_tail_write : (fun (a : Access) (s : State) => FullWrite a 0x40200C s) ((⟨.pcie, 0, 0x40200C, 15, 0⟩ : Access)) ready := by unfold FullWrite; decide +kernel

theorem test_cq_cons_write : (fun (a : Access) (q : Nat) (s : State) => FullWrite a (0x20020 + 0x100 * q) s ∧ q ≤ 1) ((⟨.pcie, 0, 0x20120, 15, 0⟩ : Access)) 1 ready := by unfold FullWrite; decide +kernel

theorem test_cq_cons_write_2 : (fun (a : Access) (q : Nat) (s : State) => FullWrite a (0x20020 + 0x100 * q) s ∧ q ≤ 1 ∧ a.data % 2 ^ 16 < ringSize (cqRing q) s ∧ (s.queue q).endsWaiting = []) ((⟨.pcie, 0, 0x20120, 15, 0⟩ : Access)) 1 ready := by unfold FullWrite; decide +kernel

theorem test_nr_doorbell : (fun (a : Access) (n : Nat) (s : State) => FullBell a (0x100 + 0x40 * n) s ∧ n < 8 ∧ a.data < nrSize n s) ((⟨.pcie, 4, 0x180, 15, 0⟩ : Access)) 2 ready := by unfold FullBell; decide +kernel

theorem test_nr_doorbell_2 : (fun (a : Access) (n : Nat) (s : State) => FullBell a (0x100 + 0x40 * n) s ∧ n < 8 ∧ nrSize n s ≤ a.data) ⟨.pcie, 4, 0x180, 15, 65535⟩ 2 ready := by unfold FullBell; decide +kernel

theorem test_stamp_fifo_pop : (fun (a : Access) (p : Nat) (k : Nat) (s : State) => FullWrite a (0x200054 + 0x400 * p + 0x20 * (k % 2)) s ∧ p < 48 ∧ k = 2 * p + k % 2) ((⟨.pcie, 0, 0x200474, 15, 1⟩ : Access)) 1 3 ready := by unfold FullWrite; decide +kernel

theorem test_em_fifo_pop : (fun (a : Access) (e : Nat) (s : State) => FullWrite a (0x130030 + 0x100 * e) s ∧ e < 8) ((⟨.pcie, 0, 0x130130, 15, 1⟩ : Access)) 1 ready := by unfold FullWrite; decide +kernel

theorem test_snap_trigger : (fun (a : Access) (s : State) => SomeWrite a 0x100040 s) ((⟨.pcie, 0, 0x100040, 15, 1⟩ : Access)) ready := by unfold SomeWrite; decide +kernel

theorem test_snap_trigger_2 : (fun (a : Access) (s : State) => FullWrite a 0x100040 s ∧ bit a.data 0 = true ∧ bit a.data 8 = false ∧ bit a.data 16 = false) ((⟨.pcie, 0, 0x100040, 15, 1⟩ : Access)) ready := by unfold FullWrite; decide +kernel

theorem test_snap_arm : (fun (a : Access) (s : State) => FullWrite a 0x100040 s ∧ bit a.data 0 = false ∧ bit a.data 8 = true ∧ bit a.data 16 = false) ((⟨.pcie, 0, 0x100040, 15, 0x130⟩ : Access)) ready := by unfold FullWrite; decide +kernel

theorem test_snap_arm_2 : (fun (a : Access) (s : State) => FullWrite a 0x100040 s ∧ bit a.data 0 = false ∧ bit a.data 8 = false ∧ bit a.data 16 = false) ⟨.pcie, 0, 0x100040, 15, 0x30⟩ ready := by unfold FullWrite; decide +kernel

theorem test_rings_are_enabled_and_returned : (fun (a : Access) (i : Instr) (s : State) => s.boot.inReset = false ∧ a.bar = 0 ∧ a.be % 16 ≠ 15 ∧ a.be % 16 ≠ 0 ∧ a.off ∈ [0x50, 0x20020, 0x20120, 0x150020, 0x500110, 0x800028, 0x40200C] ∧ i ∈ [.evrConsWrite a, .ttRecConsWrite a, .ftLrnConsWrite a, .evdRConsWrite a, .htxTailWrite a, .cqConsWrite a]) ⟨.pcie, 0, 0x20120, 3, 0⟩ (.cqConsWrite ⟨.pcie, 0, 0x20120, 3, 0⟩) ready := by decide +kernel

/-! `RingOperations` -/

theorem test_ring_consume : 15 < ringSize (cqRing 1) ready ∧ ringSize (cqRing 1) ready ≤ 16 ∧ ((ready.setRing 2 ⟨[], true⟩).ringDyn (cqRing 1).id).signalled = true := by decide +kernel

theorem test_ring_operations : evrRing ∈ [evrRing, ttRing, learnRing, cqRing 0, cqRing 1] ∧ ready.getF evrRing.prod < ringSize evrRing ready ∧ ready.getF evrRing.log ≤ 16 := by
  refine ⟨by simp, ?_⟩; decide +kernel

theorem test_ring_operations_2 : ready.get64 evrRing.base + ready.getF evrRing.prod * evrRing.slot + (List.replicate 64 (0 : Byte)).length ≤ 2 ^ 64 ∧ 63 < (List.replicate 64 (0 : Byte)).length := by decide +kernel

/-! `EventRecordsPassInOrder` -/

theorem test_event_record_write : (fun (s : State) => firstHeld s.evu.held = none) ready := by decide +kernel

theorem test_event_record_write_2 : (fun (e : EventRec) (s : State) => firstHeld s.evu.held = some e) ((⟨9, 131, 1, 1, 0, false, 0, [], false, 0⟩ : EventRec)) (({ (ready.setB Reg.hstEvrCfgEn true).setF Reg.hstEvrCfgLog2sz 8 with evu := { ready.evu with held := [⟨9, 131, 1, 1, 0, false, 0, [], false, 0⟩] } })) := by decide +kernel

theorem test_event_record_write_3 : (fun (e : EventRec) (s : State) => firstHeld s.evu.held = some e ∧ e.stamp + 2048 ≤ s.dtt ∧ s.evu.buf = [] ∧ s.mp.errs = [] ∧ ringUsable evrRing s = true ∧ ringFull evrRing s = false) ((⟨9, 131, 1, 1, 0, false, 0, [], false, 0⟩ : EventRec)) (({ (ready.setB Reg.hstEvrCfgEn true).setF Reg.hstEvrCfgLog2sz 8 with evu := { ready.evu with held := [⟨9, 131, 1, 1, 0, false, 0, [], false, 0⟩] } })) := by decide +kernel

theorem test_event_records_pass_in_order : (fun (n : Nat) (s : State) => s.evu.newest = some n) 10 { ready with evu := { ready.evu with newest := some 10 } } := by decide +kernel

theorem test_event_record_late : (fun (e : EventRec) (s : State) => firstHeld s.evu.held = some e) ((⟨9, 131, 1, 1, 0, false, 0, [], false, 0⟩ : EventRec)) (({ ready with evu := { ready.evu with held := [⟨9, 131, 1, 1, 0, false, 0, [], false, 0⟩], newest := some 10 } })) := by decide +kernel

theorem test_ring_holdoff_expiry : evrRing ∈ [evrRing, ttRing, learnRing, cqRing 0, cqRing 1] ∧ ((ready.setRing 0 ⟨[0], false⟩).ringDyn evrRing.id).signalled = false ∧ ((ready.setRing 0 ⟨[0], false⟩).ringDyn evrRing.id).times = 0 :: [] ∧
    (ready.setRing 0 ⟨[0], false⟩).getF evrRing.holdoff * 78125 ≤ ((ready.setRing 0 ⟨[0], false⟩).dtt - 0) * 100 := by
  refine ⟨by simp, ?_⟩; decide +kernel

theorem test_ring_holdoff_expiry_2 : (fun (x : Nat) (rest : List Nat) (s : State) => (s.ringDyn 0).signalled = false ∧ (s.ringDyn 0).times = x :: rest ∧ s.getF Reg.hstEvrIrqHoldoff * 78125 ≤ (s.dtt - x) * 100) 0 [] (ready.setRing 0 ⟨[0], false⟩) := by decide +kernel

theorem test_ring_holdoff_expiry_3 : (fun (n : Nat) => n < 8) 7 := by decide +kernel

theorem test_ring_holdoff_expiry_4 : (fun (r : Nat) => (32 ≤ r ∨ (5 ≤ r ∧ r < 16))) 15 := by decide +kernel

/-! `HostTransmitDescriptors` -/

theorem test_host_tx_descriptor : (fun (s : State) => ¬HtxReady s) ready := by unfold HtxReady; decide +kernel

theorem test_host_tx_descriptor_2 : (fun (desc : Bytes) (s : State) => HtxReady s ∧ ofLe (slice desc 8 2) = 0) (([] : Bytes)) ((((ready.setB Reg.swHtxCfgEn true).setF Reg.swHtxCfgLog2sz 4).setF Reg.swHtxTailIndex 1)) := by unfold HtxReady; decide +kernel

theorem test_host_tx_descriptor_3 : (fun (desc : Bytes) (s : State) => HtxReady s ∧ ofLe (slice desc 8 2) ≠ 0 ∧ htxWrong desc s) [0, 0, 0, 0, 0, 0, 0, 0, 60, 0, 0, 0, 0, 0, 254, 0] (((ready.setB Reg.swHtxCfgEn true).setF Reg.swHtxCfgLog2sz 4).setF Reg.swHtxTailIndex 1) := by unfold HtxReady htxWrong; decide +kernel

theorem test_host_tx_descriptor_4 : (fun (desc : Bytes) (s : State) => HtxReady s ∧ ofLe (slice desc 8 2) ≠ 0 ∧ ¬htxWrong desc s ∧ htxMost desc s < ofLe (slice desc 8 2)) [0, 0, 0, 0, 0, 0, 0, 0, 255, 255, 0, 0, 0, 0, 255, 0] (((ready.setB Reg.swHtxCfgEn true).setF Reg.swHtxCfgLog2sz 4).setF Reg.swHtxTailIndex 1) := by unfold HtxReady htxWrong; decide +kernel

theorem test_host_tx_descriptor_5 : (fun (desc : Bytes) (s : State) => HtxReady s ∧ ofLe (slice desc 8 2) ≠ 0 ∧ ¬htxWrong desc s ∧ ofLe (slice desc 8 2) ≤ htxMost desc s) [0, 0, 0, 0, 0, 0, 0, 0, 60, 0, 0, 0, 0, 7, 255, 0] (((ready.setB Reg.swHtxCfgEn true).setF Reg.swHtxCfgLog2sz 4).setF Reg.swHtxTailIndex 1) := by unfold HtxReady htxWrong; decide +kernel

theorem test_host_tx_descriptor_6 : (fun (desc : Bytes) (data : Bytes) (f : Frame) (s : State) => HtxReady s ∧ ofLe (slice desc 8 2) ≠ 0 ∧ ¬htxWrong desc s ∧ ofLe (slice desc 8 2) ≤ htxMost desc s ∧ bit (ofLe (slice desc 12 1)) 1 = false ∧ s.isF (Reg.swPortStatusL23Rx 48) = true ∧ f = htxFrame desc data s) [0, 0, 0, 0, 0, 0, 0, 0, 60, 0, 0, 0, 0, 7, 255, 0] (List.replicate 60 0) (htxFrame [0, 0, 0, 0, 0, 0, 0, 0, 60, 0, 0, 0, 0, 7, 255, 0] (List.replicate 60 0) ((((ready.setB Reg.swHtxCfgEn true).setF Reg.swHtxCfgLog2sz 4).setF Reg.swHtxTailIndex 1).setB (Reg.swPortStatusL23Rx 48) true)) ((((ready.setB Reg.swHtxCfgEn true).setF Reg.swHtxCfgLog2sz 4).setF Reg.swHtxTailIndex 1).setB (Reg.swPortStatusL23Rx 48) true) := by unfold HtxReady htxWrong; decide +kernel

theorem test_host_tx_descriptor_7 : (fun (desc : Bytes) (s : State) => HtxReady s ∧ ofLe (slice desc 8 2) ≠ 0 ∧ ¬htxWrong desc s ∧ ofLe (slice desc 8 2) ≤ htxMost desc s ∧ bit (ofLe (slice desc 12 1)) 1 = false ∧ s.isF (Reg.swPortStatusL23Rx 48) = false) [0, 0, 0, 0, 0, 0, 0, 0, 60, 0, 0, 0, 0, 7, 255, 0] ((((ready.setB Reg.swHtxCfgEn true).setF Reg.swHtxCfgLog2sz 4).setF Reg.swHtxTailIndex 1).setB (Reg.swPortStatusL23Rx 48) false) := by unfold HtxReady htxWrong; decide +kernel

theorem test_host_tx_descriptor_8 : (fun (desc : Bytes) (data : Bytes) (f : Frame) (r : Option Nat × State) (s : State) => HtxReady s ∧ ofLe (slice desc 8 2) ≠ 0 ∧ ¬htxWrong desc s ∧ ofLe (slice desc 8 2) ≤ htxMost desc s ∧ bit (ofLe (slice desc 12 1)) 1 = true ∧ f = htxFrame desc data s ∧ r = admitFrame f ⟨[⟨ofLe (slice desc 14 1), ofLe (slice desc 13 1), { Copy.none with direct := true }⟩], none, none, none⟩ f.data.length (countRx 48 f.data s)) [0, 0, 0, 0, 0, 0, 0, 0, 60, 0, 0, 0, 2, 7, 47, 0] (List.replicate 60 0) (htxFrame [0, 0, 0, 0, 0, 0, 0, 0, 60, 0, 0, 0, 2, 7, 47, 0] (List.replicate 60 0) (((ready.setB Reg.swHtxCfgEn true).setF Reg.swHtxCfgLog2sz 4).setF Reg.swHtxTailIndex 1)) (admitFrame (htxFrame [0, 0, 0, 0, 0, 0, 0, 0, 60, 0, 0, 0, 2, 7, 47, 0] (List.replicate 60 0) (((ready.setB Reg.swHtxCfgEn true).setF Reg.swHtxCfgLog2sz 4).setF Reg.swHtxTailIndex 1)) ⟨[⟨ofLe (slice [0, 0, 0, 0, 0, 0, 0, 0, 60, 0, 0, 0, 2, 7, 47, 0] 14 1), ofLe (slice [0, 0, 0, 0, 0, 0, 0, 0, 60, 0, 0, 0, 2, 7, 47, 0] 13 1), { Copy.none with direct := true }⟩], none, none, none⟩ (htxFrame [0, 0, 0, 0, 0, 0, 0, 0, 60, 0, 0, 0, 2, 7, 47, 0] (List.replicate 60 0) (((ready.setB Reg.swHtxCfgEn true).setF Reg.swHtxCfgLog2sz 4).setF Reg.swHtxTailIndex 1)).data.length (countRx 48 (htxFrame [0, 0, 0, 0, 0, 0, 0, 0, 60, 0, 0, 0, 2, 7, 47, 0] (List.replicate 60 0) (((ready.setB Reg.swHtxCfgEn true).setF Reg.swHtxCfgLog2sz 4).setF Reg.swHtxTailIndex 1)).data (((ready.setB Reg.swHtxCfgEn true).setF Reg.swHtxCfgLog2sz 4).setF Reg.swHtxTailIndex 1))) (((ready.setB Reg.swHtxCfgEn true).setF Reg.swHtxCfgLog2sz 4).setF Reg.swHtxTailIndex 1) := by
  unfold HtxReady htxWrong; refine ⟨?_, ?_, ?_, ?_, ?_, rfl, rfl⟩ <;> decide +kernel

/-! `BoardManagementOverSmbus` -/

theorem test_smbus_identity_read : (fun (addr : Nat) (s : State) => s.boot.inReset = false ∧ addr = s.boot.board.smbAddr) ready.boot.board.smbAddr ready := by decide +kernel

theorem test_smbus_register_read : (fun (addr : Nat) (s : State) => s.boot.inReset = false ∧ addr = s.boot.board.smbAddr ∧ smbBlock s.bus.smbOffset = false) ready.boot.board.smbAddr { ready with bus := { ready.bus with smbOffset := 0x200000 } } := by decide +kernel

theorem test_smbus_register_read_2 : (fun (addr : Nat) (d : RegDesc) (s : State) => s.boot.inReset = false ∧ addr = s.boot.board.smbAddr ∧ smbBlock s.bus.smbOffset = true ∧ s.bus.smbOffset % 4 = 0 ∧ regAt s.bus.smbOffset = some d ∧ d.kind = .plain ∧ (¬(0x900000 ≤ s.bus.smbOffset ∧ s.bus.smbOffset < 0xA00000))) ready.boot.board.smbAddr ((regAt 0x24).getD ⟨0, [], .plain, false, []⟩) { ready with bus := { ready.bus with smbOffset := 0x24 } } := by decide +kernel

theorem test_smbus_register_read_3 : (fun (addr : Nat) (s : State) => s.boot.inReset = false ∧ addr = s.boot.board.smbAddr ∧ smbBlock s.bus.smbOffset = true) ready.boot.board.smbAddr { ready with bus := { ready.bus with smbOffset := 0x24 } } := by decide +kernel

theorem test_smbus_command_write : (fun (addr : Nat) (s : State) => s.boot.inReset = false ∧ addr = s.boot.board.smbAddr ∧ s.bus.smbBusy = false) ready.boot.board.smbAddr ready := by decide +kernel

theorem test_smbus_command_write_2 : (fun (addr : Nat) (s : State) => s.boot.inReset = false ∧ addr = s.boot.board.smbAddr ∧ s.bus.smbBusy = true) ready.boot.board.smbAddr { ready with bus := { ready.bus with smbBusy := true } } := by decide +kernel

theorem test_board_management_over_smbus : (fun (addr : Nat) (i : Instr) (high : Int) (low : Int) (off : Nat) (good : Bool) (e : Fetched) (s : State) => s.boot.inReset = false ∧ addr ≠ s.boot.board.smbAddr ∧ i ∈ [.smbusIdentityRead addr, .smbusStatusRead addr, .smbusTemperatureRead addr high low, .smbusOffsetWrite addr good off, .smbusRegisterRead addr, .smbusCommandWrite addr good e,
      .smbusCommandStatus addr]) (ready.boot.board.smbAddr + 1) (.smbusStatusRead (ready.boot.board.smbAddr + 1)) 0 0 0 true .unreadable ready := by decide +kernel

/-! `HostInterfaceResets` -/

theorem test_host_if_reset : (fun (s : State) => s.boot.inReset = true) { ready with boot := { ready.boot with inReset := true } } := by decide +kernel

/-! `CommandsStartStopOrWait` -/

theorem test_command_starts : Starts hstNopSpec (entry 0 []) ready := by unfold Starts; decide +kernel

theorem test_command_stopped : canStart hstNopSpec (entry 4 [0, 0, 0, 0]) ready = true ∧ startCheck hstNopSpec (entry 4 [0, 0, 0, 0]) ready = some (stBadLen, 0) := by
  decide +kernel

theorem test_command_stalls : (fun (c : Cmd) (s : State) => canStart hstNopSpec c s = false ∧ stalls c s = true) (entry 0 []) ((ready.setF (Reg.mbxCqProdIndex 1) 15).setF (Reg.mbxCqConsIndex 1) 0) := by
  decide +kernel

theorem test_command_waits : canStart hstNopSpec (entry 0 []) State.reset = false ∧ stalls (entry 0 []) State.reset = false := by decide +kernel

/-! `StartChecksInOrder` -/

theorem test_start_checks_pass : (fun (c : Cmd) (s : State) => c.src = .general ∧ (s.queue 1).cancels.contains (headSlot c s) = false ∧ c.chain = false ∧ entryFault c = none ∧
    s.isF Reg.hstStatusReady = true ∧ s.twinState ≠ 3 ∧ lengthOk hstNopSpec c = true ∧ hstNopSpec.args c s = none ∧ hstNopSpec.need c s ≤ c.bufSize) (entry 0 []) ready := by
  decide +kernel

theorem test_start_check_cancelled : (fun (c : Cmd) (s : State) => c.src = .general ∧ (s.queue 1).cancels.contains (headSlot c s) = true)
    (entry 0 []) (ready.setQueue 1 { ready.queue 1 with cancels := [0] }) := by decide +kernel

theorem test_start_check_chain : (fun (c : Cmd) (h : Hamper) (s : State) => (s.queue 1).hampers = h :: [] ∧ c.chain = true ∧ h.waiting.length < h.count ∧ h.lastOk = false)
    { entry 0 [] with flags := 1 } ⟨0, false, 2, 0, [7], none, false, none, 0, 0⟩ (ready.setQueue 1 { ready.queue 1 with hampers := [⟨0, false, 2, 0, [7], none, false, none, 0, 0⟩] }) := by
  decide +kernel

theorem test_start_check_entry : entryFault { entry 0 [] with flags := 64 } = some (0x80000000 + 6) := by decide +kernel

theorem test_start_check_urgent : (fun (c : Cmd) => entryFault c = none ∧ c.src = .urgent ∧ secSelfTestSpec.urgent = false) (urgent 0 []) := by decide +kernel

theorem test_start_check_ready : (fun (c : Cmd) (s : State) => entryFault c = none ∧ s.isF Reg.hstStatusReady = false ∧ [0x01, 0x12, 0x13].contains (groupOf tbReadSpec.opcode) = false)
    (entry 0 []) (ready.setB Reg.hstStatusReady false) := by decide +kernel

theorem test_start_check_standby : (fun (c : Cmd) (s : State) => s.isF Reg.hstStatusReady = true ∧ s.twinState = 3 ∧ neverMirrored tbStepSpec = false ∧ c.localOnly = false)
    (entry 0 []) (ready.setF Reg.twStatusState 3) := by decide +kernel

theorem test_start_check_length : lengthOk tbReadSpec (entry 1 [0]) = false ∧ (fun (c : Cmd) => lengthOk swRuleWriteSpec c = true ∧ c.ext = true ∧ c.xReadable = false)
    { entry 96 [] with flags := 4, xReadable := false } := by decide +kernel

theorem test_start_check_operand : (fun (c : Cmd) (s : State) => lengthOk tbSetServedSpec c = true ∧ tbSetServedSpec.lenBy c = true ∧ tbSetServedSpec.args c s = some 0) (entry 4 [2, 0, 0, 0]) ready := by
  decide +kernel

theorem test_start_check_buffer : (fun (c : Cmd) (s : State) => evdGetPubkeySpec.args c s = none ∧ c.bufSize < evdGetPubkeySpec.need c s) (entry 0 []) ready := by decide +kernel

/-! `CompletionEntryIsWritten` -/

theorem test_completion_entry : (fun (c : Cmd) (s s1 : State) (h : Hamper) => c.src = .general ∧ mirrors hstNopSpec c s = false ∧ c.rlen4k = 0 ∧ c.noCompl = false ∧
    (s1.queue 1).hampers = [h] ∧ h.waiting = [] ∧ h.hend = false ∧ (s1.queue 1).endsWaiting = [] ∧ 4 ≤ s1.getF (Reg.mbxCfgCqLog2sz 1) ∧ s1.isF (Reg.mbxCfgCfgErr 1) = false)
    (entry 0 []) ready (taken (entry 0 []) ready) ⟨0, false, 1, 0, [], none, true, some (startStamp (entry 0 []) ready), 0, 0⟩ := by
  refine ⟨by decide +kernel, by decide +kernel, by decide +kernel, by decide +kernel, rfl, rfl, rfl, rfl, ?_, ?_⟩ <;> decide +kernel

/-! `QueuesFormHampers` -/

theorem test_mbx_doorbell : (fun (a : Access) (q : Nat) (s : State) => FullBell a (0x40 * q) s ∧ q ≤ 1 ∧ s.isF (Reg.mbxCfgEn q) = true ∧ s.isF (Reg.mbxCfgCfgErr q) = false ∧ a.data % 2 ^ 16 < 2 ^ s.getF (Reg.mbxCfgSqLog2sz q) ∧ (s.queue q).tail < 2 ^ s.getF (Reg.mbxCfgSqLog2sz q) ∧ a.data % 2 ^ 16 ≠ (s.queue q).tail) ((⟨.pcie, 4, 0x40, 15, 0x80030003⟩ : Access)) 1 ready := by unfold FullBell; decide +kernel

theorem test_mbx_doorbell_2 : (fun (a : Access) (q : Nat) (s : State) => FullBell a (0x40 * q) s ∧ q ≤ 1 ∧ s.isF (Reg.mbxCfgEn q) = true ∧ s.isF (Reg.mbxCfgCfgErr q) = false ∧ a.data % 2 ^ 16 < 2 ^ s.getF (Reg.mbxCfgSqLog2sz q) ∧ (s.queue q).tail < 2 ^ s.getF (Reg.mbxCfgSqLog2sz q) ∧ a.data % 2 ^ 16 = (s.queue q).tail ∧ bit a.data 31 = false) ((⟨.pcie, 4, 0x40, 15, 0x00030001⟩ : Access)) 1 ready := by unfold FullBell; decide +kernel

theorem test_mbx_doorbell_3 : (fun (a : Access) (q : Nat) (s : State) => FullBell a (0x40 * q) s ∧ q ≤ 1 ∧ s.isF (Reg.mbxCfgEn q) = true ∧ s.isF (Reg.mbxCfgCfgErr q) = false ∧ a.data % 2 ^ 16 < 2 ^ s.getF (Reg.mbxCfgSqLog2sz q) ∧ (s.queue q).tail < 2 ^ s.getF (Reg.mbxCfgSqLog2sz q) ∧ a.data % 2 ^ 16 = (s.queue q).tail ∧ bit a.data 31 = true) ⟨.pcie, 4, 0x40, 15, 0x80020001⟩ 1 ready := by unfold FullBell; decide +kernel

theorem test_mbx_doorbell_4 : (fun (a : Access) (q : Nat) (s : State) => FullBell a (0x40 * q) s ∧ q ≤ 1 ∧ (s.isF (Reg.mbxCfgEn q) = false ∨ s.isF (Reg.mbxCfgCfgErr q) = true ∨ 2 ^ s.getF (Reg.mbxCfgSqLog2sz q) ≤ a.data % 2 ^ 16)) ((⟨.pcie, 4, 0x40, 15, 0x00030010⟩ : Access)) 1 ready := by unfold FullBell; decide +kernel

theorem test_mbx_queue_enable : (fun (a : Access) (q : Nat) (s : State) => SomeWrite a (0x20010 + 0x100 * q) s ∧ q ≤ 1 ∧ (s.isF (Reg.mbxCfgEn q) = false ∨ s.isF (Reg.mbxCfgCfgErr q) = true) ∧ newWord a s % 2 = 1 ∧ 4 ≤ newWord a s / 256 % 32 ∧ newWord a s / 256 % 32 ≤ newWord a s / 65536 % 32 ∧ newWord a s / 65536 % 32 ≤ 12) ((⟨.pcie, 0, 0x20010, 15, 263169⟩ : Access)) 0 ready := by unfold SomeWrite; decide +kernel

theorem test_mbx_queue_enable_2 : (fun (a : Access) (q : Nat) (s : State) => SomeWrite a (0x20010 + 0x100 * q) s ∧ q ≤ 1 ∧ newWord a s % 2 = 1 ∧ (¬(4 ≤ newWord a s / 256 % 32 ∧ newWord a s / 256 % 32 ≤ newWord a s / 65536 % 32 ∧ newWord a s / 65536 % 32 ≤ 12))) ⟨.pcie, 0, 0x20010, 1, 1⟩ 0 ready := by unfold SomeWrite; decide +kernel

theorem test_mbx_queue_disable : (fun (a : Access) (q : Nat) (s : State) => SomeWrite a (0x20010 + 0x100 * q) s ∧ q ≤ 1 ∧ s.isF (Reg.mbxCfgEn q) = true ∧ newWord a s % 2 = 0) ((⟨.pcie, 0, 0x20110, 15, 263168⟩ : Access)) 1 ready := by unfold SomeWrite; decide +kernel

theorem test_hst_nop : (fun (c : Cmd) (s : State) => Starts hstNopSpec c s) (entry 0 []) ready := by unfold Starts; decide +kernel

theorem test_hst_restart_mgmt : (fun (c : Cmd) (s : State) => Starts hstRestartMgmtSpec c s) (entry 0 []) ready := by unfold Starts; decide +kernel

theorem test_hst_cancel : (fun (c : Cmd) (s : State) (n : Nat) => Starts hstCancelSpec c s ∧ cancelTarget c s = some (.inr n)) (entry 4 [9, 0, 1, 0]) (({ ready with mbx := { ready.mbx with general := { ready.mbx.general with tail := 2, hampers := [⟨0, false, 2, 0, [7, 9], none, true, none, 0, 0⟩] } } })) 1 := by unfold Starts; decide +kernel

theorem test_hst_cancel_2 : (fun (c : Cmd) (s : State) (o : LongOp) => Starts hstCancelSpec c s ∧ cancelTarget c s = some (.inl o)) (urgent 4 [7, 0, 1, 0]) { readyU with mbx := { readyU.mbx with longOp := some (firstRecord secSelfTestSpec (entry 4 [1, 0, 0, 0]) ready) } } (firstRecord secSelfTestSpec (entry 4 [1, 0, 0, 0]) ready) := by unfold Starts; exact ⟨by decide +kernel, rfl⟩

theorem test_stepped_command_step : (fun (amount : Nat) (o : LongOp) (k : CmdSpec) (f : LongOp → State → State × StepEnd) (s : State) => s.mbx.longOp = some o ∧ stepTurn s = true ∧ stepOf amount o.opcode = some (k, f)) 1 (firstRecord secSelfTestSpec (entry 4 [1, 0, 0, 0]) ready) secSelfTestSpec selfTestStep { ready with mbx := { ready.mbx with longOp := some (firstRecord secSelfTestSpec (entry 4 [1, 0, 0, 0]) ready) } } := ⟨rfl, by decide +kernel, rfl⟩

theorem test_stepped_command_step_2 : (fun (s : State) => (s.mbx.longOp = none ∨ stepTurn s = false)) ready := by decide +kernel

/-! `SteppedCommandsKeepTheirRecord` -/

theorem test_step_record : (fun (o : LongOp) => o.cmd.prog = false ∧ o.dropped = false ∧ { o with dropped := true }.dropped = true) (firstRecord secSelfTestSpec (entry 4 [1, 0, 0, 0]) ready) := by
  decide +kernel

/-! `TimeBaseCommandsComplete` -/

theorem test_tb_read : (fun (c : Cmd) (s : State) => Starts tbReadSpec c s) (entry 0 []) ready := by unfold Starts; decide +kernel

theorem test_tb_set_utc : (fun (c : Cmd) (s : State) => Starts tbSetUtcSpec c s) (entry 12 [1, 1, 37, 0, 1, 0, 0, 0, 0, 0, 0, 0]) ready := by unfold Starts; decide +kernel

theorem test_tb_set_compact : (fun (c : Cmd) (s : State) => Starts tbSetCompactSpec c s) (entry 4 [31, 0, 0, 0]) ready := by unfold Starts; decide +kernel

theorem test_tb_snapshot : (fun (c : Cmd) (s : State) => Starts tbSnapshotSpec c s ∧ cu c 0 1 = 0) (entry 4 [0, 0, 0, 0]) ready := by unfold Starts; decide +kernel

theorem test_tb_snapshot_2 : (fun (c : Cmd) (s : State) => Starts tbSnapshotSpec c s ∧ cu c 0 1 ≠ 0) (entry 4 [4, 0, 0, 0]) ready := by unfold Starts; decide +kernel

theorem test_tb_slew : (fun (c : Cmd) (s : State) => Starts tbSlewSpec c s) (entry 12 [1, 0, 100, 0, 0, 0, 1, 0, 0, 0, 0, 0]) ready := by unfold Starts; decide +kernel

theorem test_tb_adjust : (fun (c : Cmd) (s : State) => Starts tbAdjustSpec c s ∧ s.getF Reg.gdSteerMaxA = 0xFFFFFFFF) (entry 8 [1, 0, 1, 0, 0, 0, 0, 0]) ready := by unfold Starts; decide +kernel

theorem test_tb_realign : (fun (c : Cmd) (s : State) => Starts tbRealignSpec c s ∧ alignError s.served s = 0) (entry 0 []) ((ready.setB (Reg.tbDStatusAlignNeeded 0) true)) := by unfold Starts; decide +kernel

theorem test_tb_set_served_3 : (fun (c : Cmd) (s : State) => Starts tbSetServedSpec c s ∧ cu c 0 1 ≠ s.served ∧ s.qcState (cu c 0 1) ≠ 1 ∧ s.qcState (cu c 0 1) ≠ 7) (entry 4 [1, 1, 0, 0]) ((ready.setF (Reg.tbDStatusQc 1) 64)) := by unfold Starts; decide +kernel

/-! `StepsWaitForTheirInstant` -/

theorem test_tb_step_2 : (fun (c : Cmd) (s : State) => Starts tbStepSpec c s ∧ ci c 4 8 ≠ 0 ∧ mirrorInstant c s = none ∧ stepBeyondGuard (ci c 4 8) s = false ∧ s.dtt < 2 ^ 40 ∧ spacedFrom (cu c 0 1) s < 2 ^ 40 ∧ (∀ x, x < 2 ^ 57 → stepOutOfRange (cu c 0 1) x (ci c 4 8) s = false)) (entry 12 [1, 0, 0, 0, 0, 0, 1, 0, 0, 0, 0, 0]) ready := by
  unfold Starts; refine ⟨by decide +kernel, by decide +kernel, by decide +kernel, by decide +kernel, by decide +kernel, by decide +kernel, fun x hx => ?_⟩
  have hs : (ready).timeAt (cu (entry 12 [1, 0, 0, 0, 0, 0, 1, 0, 0, 0, 0, 0]) 0 1) x = (x : Int) * 128 * 2 ^ 48 / (100 * 2 ^ 48) := by
    show (if x < (0 : Nat) then (0 : Int) else segTime ⟨0, 0, 0⟩ x) = _
    simp [segTime]
  have hw : stepsWaiting (cu (entry 12 [1, 0, 0, 0, 0, 0, 1, 0, 0, 0, 0, 0]) 0 1) (ready) = 0 := by decide +kernel
  have ha : ci (entry 12 [1, 0, 0, 0, 0, 0, 1, 0, 0, 0, 0, 0]) 4 8 = 65536 := by decide +kernel
  simp only [stepOutOfRange, hs, hw, ha, Bool.or_eq_false_iff, decide_eq_false_iff_not]
  omega

theorem test_tb_realign_2 : (fun (c : Cmd) (s : State) => Starts tbRealignSpec c s ∧ alignError s.served s ≠ 0 ∧ mirrorInstant c s = none ∧ stepBeyondGuard (alignError s.served s) s = false ∧ s.dtt < 2 ^ 40 ∧ spacedFrom s.served s < 2 ^ 40 ∧ (∀ x, x < 2 ^ 57 → stepOutOfRange s.served x (alignError s.served s) s = false)) (entry 0 []) ((ready.setB (Reg.tbDStatusAlignNeeded 0) true).setI64 (Reg.tbDAlignErr 0) 65536) := by
  unfold Starts; refine ⟨by decide +kernel, by decide +kernel, by decide +kernel, by decide +kernel, by decide +kernel, by decide +kernel, fun x hx => ?_⟩
  have hs : ((ready.setB (Reg.tbDStatusAlignNeeded 0) true).setI64 (Reg.tbDAlignErr 0) 65536).timeAt ((ready.setB (Reg.tbDStatusAlignNeeded 0) true).setI64 (Reg.tbDAlignErr 0) 65536).served x = (x : Int) * 128 * 2 ^ 48 / (100 * 2 ^ 48) := by
    show (if x < (0 : Nat) then (0 : Int) else segTime ⟨0, 0, 0⟩ x) = _
    simp [segTime]
  have hw : stepsWaiting ((ready.setB (Reg.tbDStatusAlignNeeded 0) true).setI64 (Reg.tbDAlignErr 0) 65536).served ((ready.setB (Reg.tbDStatusAlignNeeded 0) true).setI64 (Reg.tbDAlignErr 0) 65536) = 0 := by decide +kernel
  have ha : alignError ((ready.setB (Reg.tbDStatusAlignNeeded 0) true).setI64 (Reg.tbDAlignErr 0) 65536).served ((ready.setB (Reg.tbDStatusAlignNeeded 0) true).setI64 (Reg.tbDAlignErr 0) 65536) = 65536 := by decide +kernel
  simp only [stepOutOfRange, hs, hw, ha, Bool.or_eq_false_iff, decide_eq_false_iff_not]
  omega

theorem test_tb_step_3 : (fun (c : Cmd) (s : State) => Starts tbStepSpec c s ∧ ci c 4 8 ≠ 0 ∧ mirrorInstant c s = none ∧ stepBeyondGuard (ci c 4 8) s = true ∧ s.dtt < 2 ^ 40 ∧ spacedFrom (cu c 0 1) s < 2 ^ 40 ∧ (∀ x, x < 2 ^ 57 → stepOutOfRange (cu c 0 1) x (ci c 4 8) s = false)) (entry 12 [1, 0, 0, 0, 0, 0, 2, 0, 0, 0, 0, 0]) (ready.setF Reg.gdStepMaxA 1) := by
  unfold Starts; refine ⟨by decide +kernel, by decide +kernel, by decide +kernel, by decide +kernel, by decide +kernel, by decide +kernel, fun x hx => ?_⟩
  have hs : (ready.setF Reg.gdStepMaxA 1).timeAt (cu (entry 12 [1, 0, 0, 0, 0, 0, 2, 0, 0, 0, 0, 0]) 0 1) x = (x : Int) * 128 * 2 ^ 48 / (100 * 2 ^ 48) := by
    show (if x < (0 : Nat) then (0 : Int) else segTime ⟨0, 0, 0⟩ x) = _
    simp [segTime]
  have hw : stepsWaiting (cu (entry 12 [1, 0, 0, 0, 0, 0, 2, 0, 0, 0, 0, 0]) 0 1) (ready.setF Reg.gdStepMaxA 1) = 0 := by decide +kernel
  have ha : ci (entry 12 [1, 0, 0, 0, 0, 0, 2, 0, 0, 0, 0, 0]) 4 8 = 131072 := by decide +kernel
  simp only [stepOutOfRange, hs, hw, ha, Bool.or_eq_false_iff, decide_eq_false_iff_not]
  omega

theorem test_tb_step_4 : (fun (c : Cmd) (s : State) => Starts tbStepSpec c s ∧ ci c 4 8 ≠ 0 ∧ mirrorInstant c s = none ∧ s.dtt < 2 ^ 40 ∧ spacedFrom (cu c 0 1) s < 2 ^ 40 ∧ (∀ x, x < 2 ^ 57 → stepOutOfRange (cu c 0 1) x (ci c 4 8) s = true)) (entry 12 [1, 0, 0, 0, 1, 0, 0, 0, 0, 0, 0, 0]) (ready.setDom 1 { ready.dom 1 with segs := [⟨0, 2 ^ 48 * 10 ^ 9 * 2 ^ 16 - 1, 0⟩] }) := by
  unfold Starts; refine ⟨by decide +kernel, by decide +kernel, by decide +kernel, by decide +kernel, by decide +kernel, fun x _ => ?_⟩
  have hs : (ready.setDom 1 { ready.dom 1 with segs := [⟨0, 2 ^ 48 * 10 ^ 9 * 2 ^ 16 - 1, 0⟩] }).timeAt (cu (entry 12 [1, 0, 0, 0, 1, 0, 0, 0, 0, 0, 0, 0]) 0 1) x = 2 ^ 48 * 10 ^ 9 * 2 ^ 16 - 1 + (x : Int) * 128 * 2 ^ 48 / (100 * 2 ^ 48) := by
    show (if x < (0 : Nat) then (0 : Int) else segTime ⟨0, 2 ^ 48 * 10 ^ 9 * 2 ^ 16 - 1, 0⟩ x) = _
    simp [segTime]
  have hw : stepsWaiting (cu (entry 12 [1, 0, 0, 0, 1, 0, 0, 0, 0, 0, 0, 0]) 0 1) (ready.setDom 1 { ready.dom 1 with segs := [⟨0, 2 ^ 48 * 10 ^ 9 * 2 ^ 16 - 1, 0⟩] }) = 0 := by decide +kernel
  have ha : ci (entry 12 [1, 0, 0, 0, 1, 0, 0, 0, 0, 0, 0, 0]) 4 8 = 1 := by decide +kernel
  simp only [stepOutOfRange, hs, hw, ha, Bool.or_eq_true, decide_eq_true_eq]
  omega

/-! `TimeBaseEventsHappen` -/

theorem test_step_apply : (fun (d : Nat) (p : PendingStep) (rest : List PendingStep) (s : State) => d ≤ 1 ∧ (s.dom d).steps = p :: rest ∧ p.xc ≤ s.dtt) 1 ((⟨5, 900000, true, false, none⟩ : PendingStep)) ([]) ((ready.setDom 1 { ready.dom 1 with steps := [⟨5, 900000, true, false, none⟩] })) := by decide +kernel

theorem test_segment_renewal : (fun (d : Nat) (s : State) => d ≤ 1 ∧ (s.seg d).x + 2 ^ 38 * 2 ^ 16 ≤ s.now80 ∧ spacedNow d s = true) 0 (({ ready with dtt := 2 ^ 38 })) := by decide +kernel

theorem test_out_rephase_done : (fun (o : Int) (s : State) => s.tb.rephaseTo = some o ∧ s.tb.rephaseAt ≤ s.servedTime s.now80 + o) 7 { ready with tb := { ready.tb with rephaseTo := some 7, rephaseAt := 0 } } := by decide +kernel

theorem test_tb_out_aligned : (fun (s : State) => s.tb.outSlewing = true ∧ (match s.tb.rephaseTo with | some o => o | none => s.getI64 Reg.tbOutOffset) = 0) (({ ready with tb := { ready.tb with outSlewing := true } })) := by decide +kernel

theorem test_tb_slew_done : (fun (d : Nat) (s : State) => d ≤ 1 ∧ (s.dom d).slewOn = true ∧ s.slewRem d = 0) 1 (ready.setDom 1 { ready.dom 1 with slewOn := true }) := by decide +kernel

theorem test_tb_leap : (fun (d : Nat) (s : State) => d ≤ 1 ∧ s.getI (Reg.tbDStatusLeap d) ≠ 0 ∧ (s.get64 (Reg.tbDLeapAt d) : Int) * 10 ^ 9 * 2 ^ 16 ≤ s.timeNow d) 0 ((ready.setF (Reg.tbDStatusLeap 0) 1)) := by decide +kernel

theorem test_snap_armed_capture : (fun (src : Nat) (s : State) => s.isF Reg.tbSnapCtrlArm = true ∧ s.getF Reg.tbSnapCtrlArmSrc = src) 2 (((ready.setB Reg.tbSnapCtrlArm true).setF Reg.tbSnapCtrlArmSrc 2)) := by decide +kernel

theorem test_ptm_dialog : (fun (request : Nat) (s : State) => s.getF Reg.tbPtmCtrlPeriod ≠ 0 ∧ request ≤ s.dtt) 1000000 (ready.setF Reg.tbPtmCtrlPeriod 1) := by decide +kernel

theorem test_step_apply_2 : (fun (d : Nat) (s : State) => (1 < d ∨ (s.dom d).steps = [] ∨ (∃ p rest, (s.dom d).steps = p :: rest ∧ s.dtt < p.xc))) 1 ready := Or.inr (Or.inl (by decide +kernel))

theorem test_segment_renewal_2 : (fun (d : Nat) (s : State) => (1 < d ∨ s.now80 < (s.seg d).x + 2 ^ 38 * 2 ^ 16 ∨ spacedNow d s = false)) 0 ready := by decide +kernel

theorem test_out_rephase_done_2 : (fun (s : State) => (s.tb.rephaseTo = none ∨ (∃ o, s.tb.rephaseTo = some o ∧ s.servedTime s.now80 + o < s.tb.rephaseAt))) ready := Or.inl (by decide +kernel)

theorem test_tb_out_aligned_2 : (fun (s : State) => (s.tb.outSlewing = false ∨ (match s.tb.rephaseTo with | some o => o | none => s.getI64 Reg.tbOutOffset) ≠ 0)) ready := by decide +kernel

theorem test_tb_slew_done_2 : (fun (d : Nat) (s : State) => (1 < d ∨ (s.dom d).slewOn = false ∨ s.slewRem d ≠ 0)) 0 ((ready.setDom 0 { ready.dom 0 with slewTotal := 65536 })) := by decide +kernel

theorem test_tb_leap_2 : (fun (d : Nat) (s : State) => (1 < d ∨ s.getI (Reg.tbDStatusLeap d) = 0 ∨ s.timeNow d < (s.get64 (Reg.tbDLeapAt d) : Int) * 10 ^ 9 * 2 ^ 16)) 0 ready := by decide +kernel

theorem test_snap_armed_capture_2 : (fun (src : Nat) (s : State) => (s.isF Reg.tbSnapCtrlArm = false ∨ s.getF Reg.tbSnapCtrlArmSrc ≠ src)) 2 ready := by decide +kernel

theorem test_ptm_dialog_2 : (fun (request : Nat) (s : State) => (s.getF Reg.tbPtmCtrlPeriod = 0 ∨ s.dtt < request)) 0 ready := by decide +kernel

/-! `SerialLaneCommandsComplete` -/

theorem test_sds_port_config : (fun (c : Cmd) (s : State) => Starts sdsPortConfigSpec c s ∧ s.mode (cu c 0 1) = cu c 1 1 ∧ s.fec (cu c 0 1) = cu c 2 1 ∧ cu c 1 1 ≠ 0 ∧ portEnabled (cu c 0 1) s = true ∧ (portLanes (cu c 0 1) s).all (fun n => s.isF (Reg.sdsStatusTxOn n)) = true ∧ cbit c 3 0 = false) (entry 4 [5, 2, 0, 0]) ((((ready.setF (Reg.sdsStatusMode 5) 2).setB (Reg.sdsStatusTxOn 5) true).setF Reg.gdPortEn0A 4294967295)) := by unfold Starts; decide +kernel

theorem test_sds_port_config_2 : (fun (c : Cmd) (s : State) => Starts sdsPortConfigSpec c s ∧ cu c 1 1 ≠ 0 ∧ portEnabled (cu c 0 1) s = false) (entry 4 [5, 2, 0, 0]) ((((ready.setF (Reg.sdsStatusMode 5) 2).setB (Reg.sdsStatusTxOn 5) true).setF Reg.gdPortEn0A 0)) := by unfold Starts; decide +kernel

theorem test_sds_port_config_3 : (fun (c : Cmd) (s : State) => Starts sdsPortConfigSpec c s ∧ s.mode (cu c 0 1) ≠ cu c 1 1 ∧ (cu c 1 1 = 0 ∨ portEnabled (cu c 0 1) s = true) ∧ cbit c 3 0 = false) (entry 4 [5, 1, 0, 0]) ((((((((ready.setF (Reg.sdsStatusMode 5) 2).setB (Reg.sdsStatusTxOn 5) true).setB (Reg.sdsStatusRxLock 5) true).setB (Reg.ptsLatRxValid 5) true).setB (Reg.ptsLatTxValid 5) true).setB (Reg.sdsStatusLink 5) true).setF Reg.gdPortEn0A 4294967295)) := by unfold Starts; decide +kernel

theorem test_sds_set_fir : (fun (c : Cmd) (s : State) => Starts sdsSetFirSpec c s) (entry 8 [5, 2, 3, 40, 4, 0, 0, 0]) ((ready.setF (Reg.sdsStatusMode 5) 2).setB (Reg.sdsStatusTxOn 5) true) := by unfold Starts; decide +kernel

theorem test_sds_set_ctle : (fun (c : Cmd) (s : State) => Starts sdsSetCtleSpec c s ∧ s.mode (cu c 0 1) ≠ eqMode c) (entry 8 [5, 1, 3, 4, 1, 0, 0, 0]) ((((((ready.setF (Reg.sdsStatusMode 5) 2).setB (Reg.sdsStatusTxOn 5) true).setB (Reg.sdsStatusRxLock 5) true).setB (Reg.ptsLatRxValid 5) true).setB (Reg.ptsLatTxValid 5) true)) := by unfold Starts; decide +kernel

theorem test_sds_set_ctle_2 : (fun (c : Cmd) (s : State) => Starts sdsSetCtleSpec c s ∧ s.mode (cu c 0 1) = eqMode c ∧ eqOf (cu c 0 1) (eqMode c) s ≠ { eqOf (cu c 0 1) (eqMode c) s with peak := cu c 2 1, gain := cu c 3 1, auto := cu c 4 1 = 1 }) (entry 8 [5, 2, 3, 4, 1, 0, 0, 0]) (((((((ready.setF (Reg.sdsStatusMode 5) 2).setB (Reg.sdsStatusTxOn 5) true).setB (Reg.sdsStatusRxLock 5) true).setB (Reg.ptsLatRxValid 5) true).setB (Reg.ptsLatTxValid 5) true).setB (Reg.sdsStatusLink 5) true)) := by unfold Starts; decide +kernel

theorem test_sds_prbs : (fun (c : Cmd) (s : State) => Starts sdsPrbsSpec c s ∧ (cu c 0 1 < 48 ∨ cu c 1 1 = 0 ∨ s.awake 61 = true)) (entry 12 [5, 0x12, 0, 0, 0, 0, 0, 0, 0, 0, 0, 0]) (((((((ready.setF (Reg.sdsStatusMode 5) 2).setB (Reg.sdsStatusTxOn 5) true).setB (Reg.sdsStatusRxLock 5) true).setB (Reg.ptsLatRxValid 5) true).setB (Reg.ptsLatTxValid 5) true).setB (Reg.sdsStatusLink 5) true)) := by unfold Starts; decide +kernel

theorem test_sds_eye_scan : (fun (c : Cmd) (s : State) => Starts sdsEyeScanSpec c s ∧ (s.lane (cu c 0 1)).sweepDue = false ∧ 1 < (scanSize c).1 * (scanSize c).2) ({ entry 8 [5, 0, 1, 1, 0, 1, 1, 20] with rlen4k := 1, raddr := 4096 }) ((((((ready.setF (Reg.sdsStatusMode 5) 2).setB (Reg.sdsStatusTxOn 5) true).setB (Reg.sdsStatusRxLock 5) true).setB (Reg.ptsLatRxValid 5) true).setB (Reg.ptsLatTxValid 5) true)) := by unfold Starts; decide +kernel

theorem test_sds_set_trim : (fun (c : Cmd) (s : State) => Starts sdsSetTrimSpec c s) (entry 8 [5, 0, 0, 0, 100, 1, 0, 0]) lane5 := by unfold Starts; decide +kernel

theorem test_sds_lane_status : (fun (c : Cmd) (s : State) => Starts sdsLaneStatusSpec c s) (entry 4 [5, 0, 0, 0]) ((((((ready.setF (Reg.sdsStatusMode 5) 2).setB (Reg.sdsStatusTxOn 5) true).setB (Reg.sdsStatusRxLock 5) true).setB (Reg.ptsLatRxValid 5) true).setB (Reg.ptsLatTxValid 5) true)) := by unfold Starts; decide +kernel

theorem test_sds_set_stamp_corr : (fun (c : Cmd) (s : State) => Starts sdsSetStampCorrSpec c s ∧ s.mode (cu c 0 1) ≠ cu c 1 1) (entry 20 [5, 1, 3, 0, 156, 255, 255, 255, 255, 255, 255, 255, 7, 0, 0, 0, 0, 0, 0, 0]) ((((((ready.setF (Reg.sdsStatusMode 5) 2).setB (Reg.sdsStatusTxOn 5) true).setB (Reg.sdsStatusRxLock 5) true).setB (Reg.ptsLatRxValid 5) true).setB (Reg.ptsLatTxValid 5) true)) := by unfold Starts; decide +kernel

theorem test_sds_prbs_2 : (fun (c : Cmd) (s : State) => Starts sdsPrbsSpec c s ∧ 48 ≤ cu c 0 1 ∧ cu c 1 1 ≠ 0 ∧ s.awake 61 = false) (entry 12 [51, 0x12, 0, 0, 0, 0, 0, 0, 0, 0, 0, 0]) ready := by unfold Starts; decide +kernel

/-! `LanesLockReportAndLink` -/

theorem test_rx_lock : (fun (lane : Nat) (s : State) => lane < 52 ∧ rxRuns lane s = true ∧ s.isF (Reg.sdsStatusRxLock lane) = false ∧ (∀ m ∈ laneGroup lane s, rxDetached m s = false)) 5 (((ready.setF (Reg.sdsStatusMode 5) 2).setB (Reg.sdsStatusTxOn 5) true)) := by decide +kernel

theorem test_rx_lock_2 : (fun (lane : Nat) (s : State) => (52 ≤ lane ∨ rxRuns lane s = false ∨ s.isF (Reg.sdsStatusRxLock lane) = true ∨ (∃ m ∈ laneGroup lane s, rxDetached m s = true))) 5 lane5 := Or.inr (Or.inr (Or.inl (by decide +kernel)))

theorem test_ctle_sweep_done : (fun (lane : Nat) (w : List Nat) (s : State) => lane < 52 ∧ (s.lane lane).sweepDue = true ∧ w.length = 16) 51 (List.replicate 16 0) (ready.setLane 51 { Lane.reset with sweepDue := true }) := by decide +kernel

theorem test_lanes_lock_report_and_link : (fun (w : List Nat) => w.length = 16) (List.replicate 16 0) := by decide +kernel

theorem test_ctle_sweep_done_2 : (fun (lane : Nat) (w : List Nat) (s : State) => (52 ≤ lane ∨ (s.lane lane).sweepDue = false ∨ w.length ≠ 16)) 5 [] lane5 := by decide +kernel

theorem test_latency_report : (fun (lane : Nat) (p : LatTerms) (s : State) => lane < 48 ∧ (s.lane lane).reportDue = true ∧ (s.lane lane).sweepDue = false ∧ p.slip < wordBits (s.mode lane) ∧ p.cdr < 64 ∧ p.fill < 16) 5 ((⟨3, 4, 5⟩ : LatTerms)) ((((ready.setF (Reg.sdsStatusMode 5) 2).setB (Reg.sdsStatusTxOn 5) true).setLane 5 { Lane.reset with reportDue := true })) := by decide +kernel

theorem test_latency_report_2 : (fun (lane : Nat) (p : LatTerms) (s : State) => lane < 48 ∧ s.isF (Reg.sdsStatusTxOn lane) = true ∧ s.isF (Reg.ptsLatTxValid lane) = false ∧ p.slip < wordBits (s.mode lane) ∧ p.cdr < 64 ∧ p.fill < 16) 5 ((⟨3, 4, 5⟩ : LatTerms)) ((((ready.setF (Reg.sdsStatusMode 5) 2).setB (Reg.sdsStatusTxOn 5) true).setLane 5 { Lane.reset with reportDue := true })) := by decide +kernel

theorem test_latency_report_3 : (fun (lane : Nat) (tx : Bool) (p : LatTerms) (s : State) => (48 ≤ lane ∨ wordBits (s.mode lane) ≤ p.slip ∨ 64 ≤ p.cdr ∨ 16 ≤ p.fill ∨
      (tx = true ∧ (s.isF (Reg.sdsStatusTxOn lane) = false ∨ s.isF (Reg.ptsLatTxValid lane) = true)) ∨ (tx = false ∧ ((s.lane lane).reportDue = false ∨ (s.lane lane).sweepDue = true)))) 5 true ⟨0, 0, 0⟩ lane5 := by decide +kernel

theorem test_link_up : (fun (port : Nat) (s : State) => port < 48 ∧ s.linkUp port = false ∧ linkCan port s = true) 5 ((((((ready.setF (Reg.sdsStatusMode 5) 2).setB (Reg.sdsStatusTxOn 5) true).setB (Reg.sdsStatusRxLock 5) true).setB (Reg.ptsLatRxValid 5) true).setB (Reg.ptsLatTxValid 5) true)) := by decide +kernel

theorem test_link_up_2 : (fun (port : Nat) (s : State) => port < 48 ∧ s.linkUp port = true) 5 (lane5.setB (Reg.sdsStatusLink 5) true) := by decide +kernel

theorem test_link_up_3 : (fun (s : State) => s.twinState ≠ 0 ∧ (∀ n, 48 ≤ n → n < 52 → s.isF (Reg.sdsStatusRxLock n) = true ∧ s.isF (Reg.sdsStatusPrbsTx n) = false ∧ s.isF (Reg.sdsStatusPrbsRx n) = false)) ([48, 49, 50, 51].foldl (fun s n => s.setB (Reg.sdsStatusRxLock n) true) (ready.setF Reg.twStatusState 1)) := by
  refine ⟨by decide +kernel, fun n h1 h2 => ?_⟩
  obtain rfl | rfl | rfl | rfl : n = 48 ∨ n = 49 ∨ n = 50 ∨ n = 51 := by omega
  all_goals decide +kernel

theorem test_link_up_4 : (fun (port : Nat) (s : State) => ((port < 48 ∧ s.linkUp port = false ∧ linkCan port s = false) ∨ (48 ≤ port ∧ port ≠ 50) ∨
      (port = 50 ∧ (s.twinState = 0 ∨ ∃ n, 48 ≤ n ∧ n < 52 ∧ (s.isF (Reg.sdsStatusRxLock n) = false ∨ s.isF (Reg.sdsStatusPrbsTx n) = true ∨ s.isF (Reg.sdsStatusPrbsRx n) = true))))) 5 ready := Or.inl (by decide +kernel)

theorem test_link_down : (fun (port : Nat) (cause : Nat) (s : State) => port < 48 ∧ inGroup port s = false ∧ downBy port cause s = true) 5 1 (((((((ready.setF (Reg.sdsStatusMode 5) 2).setB (Reg.sdsStatusTxOn 5) true).setB (Reg.sdsStatusRxLock 5) true).setB (Reg.ptsLatRxValid 5) true).setB (Reg.ptsLatTxValid 5) true).setB (Reg.sdsStatusLink 5) true)) := by decide +kernel

theorem test_link_down_2 : (fun (port : Nat) (cause : Nat) (s : State) => (48 ≤ port ∨ inGroup port s = true ∨ downBy port cause s = false)) 5 4 lane5 := by decide +kernel

theorem test_tx_restart : (fun (port : Nat) (s : State) => port < 48 ∧ (s.lane port).restartDue = true ∧ sending port s = false) 5 (((((((ready.setF (Reg.sdsStatusMode 5) 2).setB (Reg.sdsStatusTxOn 5) true).setB (Reg.sdsStatusRxLock 5) true).setB (Reg.ptsLatRxValid 5) true).setB (Reg.ptsLatTxValid 5) true).setLane 5 { Lane.reset with restartDue := true, held := true })) := by decide +kernel

theorem test_tx_restart_2 : (fun (port : Nat) (s : State) => (48 ≤ port ∨ (s.lane port).restartDue = false ∨ sending port s = true)) 5 lane5 := by decide +kernel

theorem test_sds_trim_done : (fun (lane : Nat) (s : State) => lane < 48 ∧ s.isF (Reg.sdsStatusTrimBusy lane) = true ∧ piAt lane s.dtt s = s.getF (Reg.sdsTrimPiTgt lane)) 5 ((((((((ready.setF (Reg.sdsStatusMode 5) 2).setB (Reg.sdsStatusTxOn 5) true).setB (Reg.sdsStatusRxLock 5) true).setB (Reg.ptsLatRxValid 5) true).setB (Reg.ptsLatTxValid 5) true).setB (Reg.sdsStatusTrimBusy 5) true).setF (Reg.sdsTrimPiTgt 5) 77)) := by decide +kernel

theorem test_sds_trim_done_2 : (fun (lane : Nat) (s : State) => (48 ≤ lane ∨ s.isF (Reg.sdsStatusTrimBusy lane) = false ∨ piAt lane s.dtt s ≠ s.getF (Reg.sdsTrimPiTgt lane))) 5 lane5 := by decide +kernel

theorem test_prbs_lock_change : (fun (lane : Nat) (bits : Nat) (s : State) => lane < 52 ∧ s.isF (Reg.sdsStatusPrbsRx lane) = true ∧ s.isF (Reg.sdsStatusPrbsLock lane) = false ∧ 1024 ≤ bits) 51 1024 (ready.setB (Reg.sdsStatusPrbsRx 51) true) := by decide +kernel

theorem test_prbs_lock_change_2 : (fun (lane : Nat) (bits : Nat) (errors : Nat) (s : State) => lane < 52 ∧ s.isF (Reg.sdsStatusPrbsRx lane) = true ∧ s.isF (Reg.sdsStatusPrbsLock lane) = true ∧ bits ≤ 1024 ∧ 256 < errors) 51 1024 257 ((ready.setB (Reg.sdsStatusPrbsRx 51) true).setB (Reg.sdsStatusPrbsLock 51) true) := by decide +kernel

theorem test_prbs_lock_change_3 : (fun (lane : Nat) (bits : Nat) (errors : Nat) (locked : Bool) (s : State) => (52 ≤ lane ∨ s.isF (Reg.sdsStatusPrbsRx lane) = false ∨ s.isF (Reg.sdsStatusPrbsLock lane) = locked ∨
      (locked = true ∧ (bits < 1024 ∨ errors ≠ 0)) ∨ (locked = false ∧ (1024 < bits ∨ errors ≤ 256)))) 51 1025 257 false ((ready.setB (Reg.sdsStatusPrbsRx 51) true).setB (Reg.sdsStatusPrbsLock 51) true) := by decide +kernel

theorem test_pts_recal_due : (fun (lane : Nat) (temp : Int) (s : State) => lane < 48 ∧ s.mode lane ≠ 0 ∧ (s.calRec lane).seq ≠ 0 ∧ 240 < (temp - refTemp lane s).natAbs ∧ (s.lane lane).recalDue = false) 5 241 (lane5.setCalRec 5 { lane5.calRec 5 with seq := 1 }) := by decide +kernel

theorem test_pts_recal_due_2 : (fun (lane : Nat) (temp : Int) (s : State) => (48 ≤ lane ∨ s.mode lane = 0 ∨ (s.calRec lane).seq = 0 ∨ (temp - refTemp lane s).natAbs ≤ 240 ∨ (s.lane lane).recalDue = true)) 5 ((-9000)) ((((((ready.setF (Reg.sdsStatusMode 5) 2).setB (Reg.sdsStatusTxOn 5) true).setB (Reg.sdsStatusRxLock 5) true).setB (Reg.ptsLatRxValid 5) true).setB (Reg.ptsLatTxValid 5) true)) := by decide +kernel

theorem test_stamp_corr_apply : (fun (port : Nat) (mode : Nat) (x : Nat) (b : Int) (v : Int) (s : State) => port < 48 ∧ 1 ≤ mode ∧ mode ≤ 4 ∧ s.timed.find? (fun e => e.1 = Reg.ptsCorrTx port (mode - 1)) = some (Reg.ptsCorrTx port (mode - 1), ⟨b, [(x, v)]⟩) ∧ x ≤ s.dtt ∧ -2 ^ 63 ≤ v ∧ v < 2 ^ 63) 5 2 7 0 ((-100)) (({ (((((ready.setF (Reg.sdsStatusMode 5) 2).setB (Reg.sdsStatusTxOn 5) true).setB (Reg.sdsStatusRxLock 5) true).setB (Reg.ptsLatRxValid 5) true).setB (Reg.ptsLatTxValid 5) true) with timed := [(Reg.ptsCorrTx 5 1, ⟨0, [(7, -100)]⟩)] })) := by decide +kernel

theorem test_stamp_corr_apply_2 : (fun (port : Nat) (mode : Nat) (tx : Bool) (a : Nat) => port < 48 ∧ 1 ≤ mode ∧ mode ≤ 4 ∧ a = (if tx then Reg.ptsCorrTx port (mode - 1) else Reg.ptsCorrRx port (mode - 1))) 47 4 true (Reg.ptsCorrTx 47 3) := by decide +kernel

theorem test_stamp_corr_apply_3 : (fun (port : Nat) (mode : Nat) => (48 ≤ port ∨ mode = 0 ∨ 4 < mode)) 5 5 := by decide +kernel

theorem test_phase_sample : (fun (m : EdgeMeas) (e : EdgeEntry) (rest : List EdgeEntry) (s : State) => m.ring = e :: rest ∧ m.lane < 48 ∧ s.mode (portOf m.lane s) ≠ 0 ∧ s.isF (Reg.sdsStatusTxOn m.lane) = true) edge5 ⟨0, 1000000, 0⟩ [] lane5 := by decide +kernel

theorem test_phase_sample_2 : (fun (m : EdgeMeas) (e : EdgeEntry) (rest : List EdgeEntry) (s : State) => m.ring = e :: rest ∧ m.lane < 48 ∧ s.mode (portOf m.lane s) ≠ 0 ∧ s.isF (Reg.sdsStatusRxLock m.lane) = true) edge5 ⟨0, 1000000, 0⟩ [] lane5 := by decide +kernel

theorem test_phase_sample_3 : (fun (m : EdgeMeas) (e : EdgeEntry) (rest : List EdgeEntry) (k : Nat) (s : State) => m.ring = e :: rest ∧ m.lane < 48 ∧ s.mode (portOf m.lane s) ≠ 0 ∧ s.isF (Reg.sdsStatusRxLock m.lane) = true ∧ k < 8 ∧ (s.servo k).lane = m.lane ∧ (s.servo k).mode = 1 ∧ candState (8 + k) s ≠ 7 ∧ (∀ j, j < 8 → j ≠ k → (s.servo j).lane ≠ m.lane)) edge5 ⟨0, 1000000, 0⟩ [] 7 ((lane5.setF (Reg.rsCandStatusState 15) 2).setServo 7 { Servo.reset with mode := 1, lane := 5 }) := by
  refine ⟨by decide +kernel, by decide +kernel, by decide +kernel, by decide +kernel, by decide +kernel, by decide +kernel, by decide +kernel, by decide +kernel, fun j hj hn => ?_⟩
  obtain rfl | rfl | rfl | rfl | rfl | rfl | rfl : j = 0 ∨ j = 1 ∨ j = 2 ∨ j = 3 ∨ j = 4 ∨ j = 5 ∨ j = 6 := by omega
  all_goals decide +kernel

theorem test_phase_sample_4 : (fun (m : EdgeMeas) (tx : Bool) (s : State) => (m.ring = [] ∨ 48 ≤ m.lane ∨ s.mode (portOf m.lane s) = 0 ∨ s.isF (if tx then Reg.sdsStatusTxOn m.lane else Reg.sdsStatusRxLock m.lane) = false)) edge5 true ready := by decide +kernel

theorem test_port_island_wake_done : (fun (island : Nat) (s : State) => islandWanted island s = true ∧ s.awake island = false) 50 (({ ready with mbx := { ready.mbx with longOp := some (firstRecord bfSpillEnableSpec (entry 4 [1, 0, 0, 0]) ready) } })) := by decide +kernel

theorem test_port_island_wake_done_2 : (fun (island : Nat) (s : State) => (islandWanted island s = false ∨ s.awake island = true)) 50 { ready with islands := [50] } := by decide +kernel

/-! `TimeTransferCommandsComplete` -/

theorem test_tt_session_set : (fun (c : Cmd) (s : State) => Starts ttSessionSetSpec c s) (({ entry 64 ([0, 0, 1, 5, 0, 1, 0, 0, 0, 0, 127] ++ List.replicate 53 0) with flags := 4 } : Cmd)) ready := by unfold Starts; decide +kernel

theorem test_tt_session_get : (fun (c : Cmd) (s : State) => Starts ttSessionGetSpec c s) { entry 4 [0, 0, 0, 0] with rlen4k := 1, raddr := 4096 } ((ready.setSession 0 { Session.reset with desc := ([0, 0, 1, 5, 0, 1, 0, 0, 0, 0, 0] ++ List.replicate 53 0 : Bytes) }).setF (Reg.ttSStateState 0) 2) := by unfold Starts; decide +kernel

theorem test_tt_session_enable : (fun (c : Cmd) (s : State) => Starts ttSessionEnableSpec c s ∧ cu c 2 1 = 1 ∧ ttState (cu c 0 2) s = 0) (entry 4 [0, 0, 1, 0]) (((ready.setSession 0 { Session.reset with desc := ([0, 0, 1, 5, 0, 1, 0, 0, 0, 0, 0] ++ List.replicate 53 0 : Bytes) }).setF (Reg.ttSStateState 0) 0)) := by unfold Starts; decide +kernel

theorem test_tt_session_enable_2 : (fun (c : Cmd) (s : State) => Starts ttSessionEnableSpec c s ∧ cu c 2 1 = 1 ∧ ttState (cu c 0 2) s ≠ 0) (entry 4 [0, 0, 1, 0]) ((ready.setSession 0 { Session.reset with desc := ([0, 0, 1, 5, 0, 1, 0, 0, 0, 0, 0] ++ List.replicate 53 0 : Bytes) }).setF (Reg.ttSStateState 0) 2) := by unfold Starts; decide +kernel

theorem test_tt_session_enable_3 : (fun (c : Cmd) (s : State) => Starts ttSessionEnableSpec c s ∧ cu c 2 1 = 0) (entry 4 [0, 0, 0, 0]) ((ready.setSession 0 { Session.reset with desc := ([0, 0, 1, 5, 0, 1, 0, 0, 0, 0, 0] ++ List.replicate 53 0 : Bytes) }).setF (Reg.ttSStateState 0) 2) := by unfold Starts; decide +kernel

theorem test_tt_set_asymmetry : (fun (c : Cmd) (s : State) => Starts ttSetAsymmetrySpec c s) (entry 12 [5, 0, 0, 0, 100, 0, 0, 0, 0, 0, 0, 0]) ready := by unfold Starts; decide +kernel

theorem test_tt_servo_set : (fun (c : Cmd) (s : State) => Starts ttServoSetSpec c s) (entry 16 [1, 3, 0, 0, 0, 0, 4, 0, 100, 0, 0, 0, 0, 0, 0, 0]) (((ready.setSession 0 { Session.reset with desc := ([0, 0, 2, 5, 0, 5, 0, 0, 0, 0, 127] ++ List.replicate 53 0 : Bytes) }).setF (Reg.ttSStateState 0) 2)) := by unfold Starts; decide +kernel

theorem test_tt_servo_status : (fun (c : Cmd) (s : State) => Starts ttServoStatusSpec c s) (entry 4 [1, 0, 0, 0]) ready := by unfold Starts; decide +kernel

/-! `SessionsAndServosRun` -/

theorem test_tt_periodic_tx : (fun (k : Nat) (p : EdgeMeas) (m : EdgeMeas) (s : State) => PeriodicNow k 0 ((s.session k).log 8) p m s ∧ (s.session k).role = 1) 0 edge5 edge5 (running (session 1 0)) := by unfold PeriodicNow; decide +kernel

theorem test_tt_periodic_tx_2 : (fun (k : Nat) (p : EdgeMeas) (m : EdgeMeas) (s : State) => PeriodicNow k 1 ((s.session k).log 9) p m s ∧ (s.session k).role = 2 ∧ (s.session k).flag 1 = false) 0 edge5 edge5 (running (session 2 0)) := by unfold PeriodicNow; decide +kernel

theorem test_tt_periodic_tx_3 : (fun (k : Nat) (p : EdgeMeas) (m : EdgeMeas) (s : State) => PeriodicNow k 2 ((s.session k).log 9) p m s ∧ (s.session k).peers = true) 0 edge5 edge5 (running (session 3 0)) := by unfold PeriodicNow; decide +kernel

theorem test_tt_periodic_tx_4 : (fun (k : Nat) (p : EdgeMeas) (m : EdgeMeas) (s : State) => PeriodicNow k 3 ((s.session k).log 10) p m s ∧ (s.session k).role = 1 ∧ (s.session k).field 10 1 ≠ 0x7F) 0 edge5 edge5 (running (session 1 0)) := by unfold PeriodicNow; decide +kernel

theorem test_tt_periodic_tx_5 : (fun (k : Nat) (s : State) => k < 256 ∧ 2 ≤ ttState k s ∧ (s.session k).flag 6 = true ∧ (s.session k).role ≠ 4) 0 (running (session 1 64)) := by decide +kernel

theorem test_tt_periodic_tx_6 : (fun (k : Nat) (kind : Nat) (p : EdgeMeas) (m : EdgeMeas) (s : State) => (256 ≤ k ∨ ttState k s < 2 ∨ (kind = 4 ∧ ((s.session k).flag 6 = false ∨ (s.session k).role = 4)) ∨ (kind ≠ 4 ∧ periodicDue k kind (s.session k) s = false) ∨
      (kind < 3 ∧ (128 ≤ sentNow k s ∨ measures (s.session k).port p s = false ∨ measures (s.session k).port m s = false)))) 0 4 edge5 edge5 (running (session 1 0)) := by decide +kernel

theorem test_ptp_message_rx : (fun (s : State) => s.tt.inbox.find? (fun q => !isSignaling q) = none) ready := by decide +kernel

theorem test_ptp_message_rx_2 : (fun (p : EdgeMeas) (m : EdgeMeas) (r : PtpRx) (s : State) => s.tt.inbox.find? (fun q => !isSignaling q) = some r ∧ (ttState r.session s < 2 ∨ (msgType r = 2 ∧ (measures (s.session r.session).port p s = false ∨ measures (s.session r.session).port m s = false)))) { edge5 with lane := 6 } edge5 (message 2 0 []) (told (session 1 0) (message 2 0 [])) := by decide +kernel

theorem test_ptp_message_rx_3 : (fun (p : EdgeMeas) (m : EdgeMeas) (r : PtpRx) (s : State) => s.tt.inbox.find? (fun q => !isSignaling q) = some r ∧ 2 ≤ ttState r.session s ∧ msgType r < 4 ∧ (msgType r = 2 → measures (s.session r.session).port p s = true ∧ measures (s.session r.session).port m s = true) ∧ ¬WithinRate r.session s) edge5 edge5 (message 1 0 []) (told ({ session 1 0 with gotIn := (1, 256) }) (message 1 0 [])) := by unfold WithinRate; decide +kernel

theorem test_ptp_message_rx_4 : (fun (p : EdgeMeas) (m : EdgeMeas) (r : PtpRx) (s : State) => MsgAccepted r p m s ∧ (s.session r.session).role ≠ 4 ∧ msgType r = 0 ∧ bit (fb r.msg 6 1) 1 = true) edge5 edge5 (message 0 2 []) (told (session 2 0) (message 0 2 [])) := by unfold MsgAccepted WithinRate; decide +kernel

theorem test_ptp_message_rx_5 : (fun (p : EdgeMeas) (m : EdgeMeas) (r : PtpRx) (s : State) => MsgAccepted r p m s ∧ (s.session r.session).role ≠ 4 ∧ msgType r = 0 ∧ bit (fb r.msg 6 1) 1 = false) edge5 edge5 (message 0 0 []) (told (session 2 0) (message 0 0 [])) := by unfold MsgAccepted WithinRate; decide +kernel

theorem test_ptp_message_rx_6 : (fun (p : EdgeMeas) (m : EdgeMeas) (r : PtpRx) (s : State) => MsgAccepted r p m s ∧ (s.session r.session).role ≠ 4 ∧ msgType r = 1) edge5 edge5 (message 1 0 []) (told (session 1 0) (message 1 0 [])) := by unfold MsgAccepted WithinRate; decide +kernel

theorem test_ptp_message_rx_7 : (fun (p : EdgeMeas) (m : EdgeMeas) (r : PtpRx) (s : State) => MsgAccepted r p m s ∧ (s.session r.session).role ≠ 4 ∧ msgType r = 2 ∧ (ttAnswer r.session (msgCounted r s)).1 = true) edge5 edge5 (message 2 0 []) (told (session 3 0) (message 2 0 [])) := by unfold MsgAccepted WithinRate; decide +kernel

theorem test_ptp_message_rx_8 : (fun (p : EdgeMeas) (m : EdgeMeas) (r : PtpRx) (s : State) => MsgAccepted r p m s ∧ (s.session r.session).role ≠ 4 ∧ msgType r = 2 ∧ (ttAnswer r.session (msgCounted r s)).1 = false) edge5 edge5 (message 2 0 []) (told ({ session 3 0 with sentIn := (1, 128) }) (message 2 0 [])) := by unfold MsgAccepted WithinRate; decide +kernel

theorem test_ptp_message_rx_9 : (fun (p : EdgeMeas) (m : EdgeMeas) (r : PtpRx) (q : EventMsg) (s : State) => MsgAccepted r p m s ∧ (s.session r.session).role ≠ 4 ∧ msgType r = 3 ∧ (s.session r.session).delayTx = some q ∧ q.seq = fb r.msg 30 2 ∧ slice r.msg 44 10 = (s.session r.session).portId ∧ bit (fb r.msg 6 1) 1 = true) edge5 edge5 (message 3 2 (List.replicate 10 0)) event0 (told ({ session 3 0 with delayTx := some event0 }) (message 3 2 (List.replicate 10 0))) := by unfold MsgAccepted WithinRate; decide +kernel

theorem test_ptp_message_rx_10 : (fun (p : EdgeMeas) (m : EdgeMeas) (r : PtpRx) (q : EventMsg) (s : State) => MsgAccepted r p m s ∧ (s.session r.session).role ≠ 4 ∧ msgType r = 3 ∧ (s.session r.session).delayTx = some q ∧ q.seq = fb r.msg 30 2 ∧ slice r.msg 44 10 = (s.session r.session).portId ∧ bit (fb r.msg 6 1) 1 = false) edge5 edge5 (message 3 0 (List.replicate 10 0)) event0 (told ({ session 3 0 with delayTx := some event0 }) (message 3 0 (List.replicate 10 0))) := by unfold MsgAccepted WithinRate; decide +kernel

theorem test_ptp_message_rx_11 : (fun (p : EdgeMeas) (m : EdgeMeas) (r : PtpRx) (e : EventMsg) (s : State) => MsgAccepted r p m s ∧ (s.session r.session).role ≠ 4 ∧ msgType r = 8 ∧ (s.session r.session).syncRx = some e ∧ e.seq = fb r.msg 30 2) edge5 edge5 (message 8 0 []) event0 (told ({ session 2 0 with syncRx := some event0 }) (message 8 0 [])) := by unfold MsgAccepted WithinRate; decide +kernel

theorem test_ptp_message_rx_12 : (fun (p : EdgeMeas) (m : EdgeMeas) (r : PtpRx) (e : EventMsg) (s : State) => MsgAccepted r p m s ∧ (s.session r.session).role ≠ 4 ∧ msgType r = 9 ∧ (s.session r.session).delayTx = some e ∧ e.seq = fb r.msg 30 2 ∧ slice r.msg 44 10 = (s.session r.session).portId) edge5 edge5 (message 9 0 (List.replicate 10 0)) event0 (told ({ session 2 0 with delayTx := some event0 }) (message 9 0 (List.replicate 10 0))) := by unfold MsgAccepted WithinRate; decide +kernel

theorem test_ptp_message_rx_13 : (fun (p : EdgeMeas) (m : EdgeMeas) (r : PtpRx) (q : EventMsg) (e : EventMsg) (s : State) => MsgAccepted r p m s ∧ (s.session r.session).role ≠ 4 ∧ msgType r = 10 ∧ (s.session r.session).delayTx = some q ∧ (s.session r.session).respRx = some e ∧ q.seq = fb r.msg 30 2 ∧ slice r.msg 44 10 = (s.session r.session).portId) edge5 edge5 (message 10 0 (List.replicate 10 0)) event0 event0 (told ({ session 3 0 with delayTx := some event0, respRx := some event0 }) (message 10 0 (List.replicate 10 0))) := by unfold MsgAccepted WithinRate; decide +kernel

theorem test_ptp_message_rx_14 : (fun (p : EdgeMeas) (m : EdgeMeas) (r : PtpRx) (s : State) => MsgAccepted r p m s ∧ (s.session r.session).role ≠ 4 ∧ msgType r = 11) edge5 edge5 (message 11 0 []) (told (session 2 0) (message 11 0 [])) := by unfold MsgAccepted WithinRate; decide +kernel

theorem test_ptp_message_rx_15 : (fun (p : EdgeMeas) (m : EdgeMeas) (r : PtpRx) (s : State) => MsgAccepted r p m s ∧ (s.session r.session).role ≠ 4 ∧ ((msgType r = 3 ∧ ∀ q, (s.session r.session).delayTx = some q → q.seq ≠ fb r.msg 30 2 ∨ slice r.msg 44 10 ≠ (s.session r.session).portId) ∨ (msgType r = 8 ∧ ∀ e, (s.session r.session).syncRx = some e → e.seq ≠ fb r.msg 30 2) ∨
      (msgType r = 9 ∧ ∀ e, (s.session r.session).delayTx = some e → e.seq ≠ fb r.msg 30 2 ∨ slice r.msg 44 10 ≠ (s.session r.session).portId) ∨
      (msgType r = 10 ∧ ∀ q e, (s.session r.session).delayTx = some q → (s.session r.session).respRx = some e → q.seq ≠ fb r.msg 30 2 ∨ slice r.msg 44 10 ≠ (s.session r.session).portId) ∨
      (4 ≤ msgType r ∧ msgType r < 8) ∨ 11 < msgType r)) edge5 edge5 (message 8 0 []) (told (session 2 0) (message 8 0 [])) := by
  unfold MsgAccepted WithinRate; exact ⟨by decide +kernel, by decide +kernel, Or.inr (Or.inl ⟨by decide +kernel, fun _ h => nomatch h⟩)⟩

theorem test_ptp_message_rx_16 : (fun (p : EdgeMeas) (m : EdgeMeas) (r : PtpRx) (s : State) => MsgAccepted r p m s ∧ (s.session r.session).role = 4) edge5 edge5 (message 0 0 []) (told (session 4 0) (message 0 0 [])) := by unfold MsgAccepted WithinRate; decide +kernel

theorem test_tt_phase_report_tx : (fun (k : Nat) (s : State) => k < 256 ∧ 2 ≤ ttState k s ∧ (s.session k).flag 2 = true ∧ (s.session k).role ≠ 4 ∧ (s.session k).reportMs ≠ some (s.dtt / 781250)) 0 (((((ready.setF (Reg.sdsStatusMode 5) 2).setF Reg.ttLinkCfgOrgId 7).setSession 0 { Session.reset with desc := ([0, 0, 1, 5, 0, 4, 0, 0, 0, 0, 127] ++ List.replicate 53 0 : Bytes) }).setF (Reg.ttSStateState 0) 2)) := by decide +kernel

theorem test_tt_phase_report_tx_2 : (fun (k : Nat) (s : State) => (256 ≤ k ∨ ttState k s < 2 ∨ (s.session k).flag 2 = false ∨ (s.session k).role = 4 ∨ (s.session k).reportMs = some (s.dtt / 781250))) 0 ready := by decide +kernel

theorem test_tt_phase_report_rx : (fun (r : PtpRx) (s : State) => s.tt.inbox.find? isSignaling = some r ∧ ttState r.session s = 2 ∧ fb r.msg 44 2 = 3 ∧ fb (r.msg.drop 48) 0 3 = s.getF Reg.ttLinkCfgOrgId ∧ s.getF Reg.ttLinkCfgOrgId ≠ 0 ∧ fb (r.msg.drop 48) 3 3 = 1) (message 12 0 ([0, 3, 0, 28, 0, 0, 7, 0, 0, 1] ++ List.replicate 18 0 ++ [5, 0, 1])) ((told (session 1 4) (message 12 0 ([0, 3, 0, 28, 0, 0, 7, 0, 0, 1] ++ List.replicate 18 0 ++ [5, 0, 1]))).setF Reg.ttLinkCfgOrgId 7) := by decide +kernel

theorem test_tt_phase_report_rx_2 : (fun (r : PtpRx) (s : State) => s.tt.inbox.find? isSignaling = some r ∧ ttState r.session s = 3 ∧ (s.session r.session).farLat = fb (r.msg.drop 48) 24 2 ∧ fb r.msg 44 2 = 3 ∧ fb (r.msg.drop 48) 0 3 = s.getF Reg.ttLinkCfgOrgId ∧ s.getF Reg.ttLinkCfgOrgId ≠ 0 ∧ fb (r.msg.drop 48) 3 3 = 1) (message 12 0 ([0, 3, 0, 28, 0, 0, 7, 0, 0, 1] ++ List.replicate 21 0)) (((told (session 1 4) (message 12 0 ([0, 3, 0, 28, 0, 0, 7, 0, 0, 1] ++ List.replicate 21 0))).setF Reg.ttLinkCfgOrgId 7).setF (Reg.ttSStateState 0) 3) := by decide +kernel

theorem test_tt_phase_report_rx_3 : (fun (r : PtpRx) (s : State) => s.tt.inbox.find? isSignaling = some r ∧ ttState r.session s = 3 ∧ (s.session r.session).farLat ≠ fb (r.msg.drop 48) 24 2 ∧ fb r.msg 44 2 = 3 ∧ fb (r.msg.drop 48) 0 3 = s.getF Reg.ttLinkCfgOrgId ∧ s.getF Reg.ttLinkCfgOrgId ≠ 0 ∧ fb (r.msg.drop 48) 3 3 = 1) (message 12 0 ([0, 3, 0, 28, 0, 0, 7, 0, 0, 1] ++ List.replicate 18 0 ++ [5, 0, 1])) (((told (session 1 4) (message 12 0 ([0, 3, 0, 28, 0, 0, 7, 0, 0, 1] ++ List.replicate 18 0 ++ [5, 0, 1]))).setF Reg.ttLinkCfgOrgId 7).setF (Reg.ttSStateState 0) 3) := by decide +kernel

theorem test_tt_phase_report_rx_4 : (fun (r : PtpRx) (s : State) => s.tt.inbox.find? isSignaling = some r ∧ (ttState r.session s < 2 ∨ fb r.msg 44 2 ≠ 3 ∨ fb (r.msg.drop 48) 0 3 ≠ s.getF Reg.ttLinkCfgOrgId ∨ fb (r.msg.drop 48) 0 3 = 0 ∨ fb (r.msg.drop 48) 3 3 ≠ 1)) (message 12 0 []) (told (session 1 4) (message 12 0 [])) := by decide +kernel

theorem test_tt_phase_report_rx_5 : (fun (s : State) => s.tt.inbox.find? isSignaling = none) ready := by decide +kernel

theorem test_tt_phase_entry : (fun (k : Nat) (s : State) => k < 256 ∧ ttState k s = 2 ∧ (s.session k).flag 2 = true ∧ 16 ≤ (s.session k).validRun ∧ s.getF Reg.ttLinkCfgOrgId ≠ 0 ∧ linkModeMode (s.session k) s = true ∧ (if (s.session k).role = 2 then syntonized (s.session k) s else (s.session k).farSynt) = true) 0 (((((ready.setF (Reg.sdsStatusMode 5) 2).setF Reg.ttLinkCfgOrgId 7).setSession 0 { Session.reset with desc := ([0, 0, 1, 5, 0, 4, 0, 0, 0, 0, 127] ++ List.replicate 53 0 : Bytes), validRun := 16, farSynt := true }).setF (Reg.ttSStateState 0) 2)) := by decide +kernel

theorem test_tt_phase_entry_2 : (fun (k : Nat) (s : State) => (256 ≤ k ∨ ttState k s ≠ 2 ∨ (s.session k).flag 2 = false ∨ (s.session k).validRun < 16 ∨ s.getF Reg.ttLinkCfgOrgId = 0 ∨ linkModeMode (s.session k) s = false ∨
      (if (s.session k).role = 2 then syntonized (s.session k) s else (s.session k).farSynt) = false)) 0 ready := by decide +kernel

theorem test_tt_report_timeout : (fun (k : Nat) (s : State) => k < 256 ∧ ttState k s = 3 ∧ (s.session k).lastReport + 78125000 ≤ s.dtt) 0 (((({ ready with dtt := 781250000 }).setSession 0 { Session.reset with desc := ([0, 0, 1, 5, 0, 4, 0, 0, 0, 0, 127] ++ List.replicate 53 0 : Bytes) }).setF (Reg.ttSStateState 0) 3)) := by decide +kernel

theorem test_tt_report_timeout_2 : (fun (k : Nat) (s : State) => (256 ≤ k ∨ ttState k s ≠ 3 ∨ s.dtt < (s.session k).lastReport + 78125000)) 0 ready := by decide +kernel

theorem test_tt_phase_slip : (fun (n : Nat) (s : State) => n < 8 ∧ 16 ≤ (s.servo n).slips ∧ ttState (s.servo n).session s = 3) 1 ((((((ready.setF (Reg.sdsStatusMode 5) 2).setF Reg.ttLinkCfgOrgId 7).setSession 0 { Session.reset with desc := ([0, 0, 2, 5, 0, 5, 0, 0, 0, 0, 127] ++ List.replicate 53 0 : Bytes) }).setF (Reg.ttSStateState 0) 3).setServo 1 { Servo.reset with slips := 16 })) := by decide +kernel

theorem test_tt_phase_slip_2 : (fun (n : Nat) (s : State) => (8 ≤ n ∨ (s.servo n).slips < 16 ∨ ttState (s.servo n).session s ≠ 3)) 1 ready := by decide +kernel

theorem test_tt_servo_timeout : (fun (n : Nat) (s : State) => n < 8 ∧ 2 ≤ (s.servo n).mode ∧ (s.servo n).state ≠ 3 ∧ (s.servo n).last + servoPatience (s.session (s.servo n).session) ≤ s.dtt) 1 (({ ((((ready.setF (Reg.sdsStatusMode 5) 2).setF Reg.ttLinkCfgOrgId 7).setSession 0 { Session.reset with desc := ([0, 0, 2, 5, 0, 5, 0, 0, 0, 0, 127] ++ List.replicate 53 0 : Bytes) }).setF (Reg.ttSStateState 0) 2) with dtt := 10 ^ 10 }.setServo 1 { Servo.reset with mode := 3, state := 2 })) := by decide +kernel

theorem test_tt_servo_timeout_2 : (fun (n : Nat) (s : State) => (8 ≤ n ∨ (s.servo n).mode < 2 ∨ (s.servo n).state = 3 ∨ s.dtt < (s.servo n).last + servoPatience (s.session (s.servo n).session))) 1 ready := by decide +kernel

theorem test_asym_apply : (fun (port : Nat) (x : Nat) (b : Int) (v : Int) (s : State) => port < 48 ∧ s.timed.find? (fun e => e.1 = 2 ^ 40 + port) = some (2 ^ 40 + port, ⟨b, [(x, v)]⟩) ∧ x ≤ s.dtt) 5 7 0 ((-100)) (({ ready with timed := [(2 ^ 40 + 5, ⟨0, [(7, -100)]⟩)] })) := by decide +kernel

theorem test_asym_apply_2 : (fun (port : Nat) => port < 48) 5 := by decide +kernel

theorem test_asym_apply_3 : (fun (port : Nat) => 48 ≤ port) 48 := by decide +kernel

theorem test_esmc_pdu_tx : (fun (s : State) => s.isF Reg.hstStatusFwRun = true) ready := by decide +kernel

theorem test_esmc_pdu_tx_2 : (fun (s : State) => s.isF Reg.hstStatusFwRun = false) (ready.setB Reg.hstStatusFwRun false) := by decide +kernel

/-! `ReferenceCommandsComplete` -/

theorem test_rs_set_priority : (fun (c : Cmd) (s : State) => Starts rsSetPrioritySpec c s) (entry 16 [0, 3, 4, 2, 2, 5, 0, 0, 0, 0, 0, 0, 0, 0, 0, 0]) ready := by unfold Starts; decide +kernel

theorem test_rs_set_limits : (fun (c : Cmd) (s : State) => Starts rsSetLimitsSpec c s) (entry 20 [1, 0, 0, 0, 5, 0, 0, 0, 6, 0, 0, 0, 7, 0, 0, 0, 8, 0, 9, 0]) ready := by unfold Starts; decide +kernel

theorem test_rs_set_timers : (fun (c : Cmd) (s : State) => Starts rsSetTimersSpec c s) (entry 20 [1, 1, 0, 0, 5, 0, 0, 0, 6, 0, 0, 0, 7, 0, 0, 0, 8, 0, 9, 0]) ready := by unfold Starts; decide +kernel

theorem test_rs_force : (fun (c : Cmd) (s : State) => Starts rsForceSpec c s) (entry 4 [1, 2, 0, 0]) ((ready.setF (Reg.rsCandStatusPrioB 2) 3).setF (Reg.rsCandStatusState 2) 2) := by unfold Starts; decide +kernel

theorem test_rs_status : (fun (c : Cmd) (s : State) => Starts rsStatusSpec c s) (entry 4 [1, 0, 0, 0]) ready := by unfold Starts; decide +kernel

theorem test_rs_larder_read : (fun (c : Cmd) (s : State) => Starts rsLarderReadSpec c s ∧ (min (min (c.bufSize / 24) (cu c 2 2)) (s.refs.larder.length - cu c 0 2) < 16 ∨ cu c 2 2 ≤ 16)) ({ entry 4 [0, 0, 3, 0] with rlen4k := 1, raddr := 4096 }) ready := by unfold Starts; decide +kernel

theorem test_rs_larder_read_2 : (fun (c : Cmd) (s : State) => Starts rsLarderReadSpec c s ∧ 16 ≤ c.bufSize / 24 ∧ 16 < cu c 2 2 ∧ cu c 0 2 + 16 ≤ s.refs.larder.length) { entry 4 [0, 0, 17, 0] with rlen4k := 1, raddr := 4096 } { ready with refs := { ready.refs with larder := List.replicate 16 ⟨1, 0, 0, 255, 255, 5, 6⟩ } } := by unfold Starts; decide +kernel

theorem test_rs_open_loop : (fun (c : Cmd) (s : State) => Starts rsOpenLoopSpec c s ∧ cu c 1 1 = 1) (entry 4 [1, 1, 0, 0]) ((ready.setF (Reg.tbDStatusQc 1) 0)) := by unfold Starts; decide +kernel

theorem test_rs_open_loop_2 : (fun (c : Cmd) (s : State) => Starts rsOpenLoopSpec c s ∧ cu c 1 1 = 0) (entry 4 [1, 0, 0, 0]) ((ready.setF (Reg.tbDStatusQc 1) 0).setB (Reg.tbDStatusOpen 1) true) := by unfold Starts; decide +kernel

theorem test_rs_steer : (fun (c : Cmd) (s : State) => Starts rsSteerSpec c s) (entry 12 [0, 0, 0, 0, 9, 0, 0, 0, 0, 0, 0, 0]) ((ready.setB (Reg.tbDStatusOpen 0) true)) := by unfold Starts; decide +kernel

/-! `ReferencesAreMonitoredAndSelected` -/

theorem test_reference_sample : (fun (cand : Nat) (s : State) => cand < 16 ∧ candState cand s ≠ 7) 5 ((((ready.setF (Reg.rsCandStatusState 5) 2).setB (Reg.rsDSelSelValid 0) true).setF (Reg.rsDSelSel 0) 5)) := by decide +kernel

theorem test_reference_sample_2 : (fun (cand : Nat) (s : State) => (16 ≤ cand ∨ candState cand s = 7)) 5 (ready.setF (Reg.rsCandStatusState 5) 7) := by decide +kernel

theorem test_candidate_lost : (fun (cand : Nat) (s : State) => cand < 16 ∧ lostNow cand s = true ∧ candState cand s ≠ 7) 5 ((((ready.setF (Reg.rsCandStatusState 5) 2).setB (Reg.rsDSelSelValid 0) true).setF (Reg.rsDSelSel 0) 5)) := by decide +kernel

theorem test_candidate_lost_2 : (fun (cand : Nat) (s : State) => (16 ≤ cand ∨ lostNow cand s = false ∨ candState cand s = 7)) 5 (ready.setF (Reg.rsCandStatusState 5) 7) := by decide +kernel

theorem test_qual_timer_expiry : (fun (cand : Nat) (x : Nat) (s : State) => cand < 16 ∧ (s.cand cand).timer = some x ∧ x + (s.cand cand).qualS * 781250000 ≤ s.dtt ∧ candState cand s = 1 ∧ (s.cand cand).y.isSome = true ∧ beyond (s.getI64 (Reg.rsCandFfo cand)) (s.cand cand).soft = false ∧ beyond (s.getI64 (Reg.rsCandFfo cand)) (s.cand cand).hard = false) 2 0 (({ ((ready.setF (Reg.rsCandStatusState 2) 1).setCand 2 { Cand.reset 2 with timer := some 0, y := some 0 }) with dtt := 10 ^ 10 })) := by decide +kernel

theorem test_qual_timer_expiry_2 : (fun (cand : Nat) (x : Nat) (s : State) => cand < 16 ∧ (s.cand cand).timer = some x ∧ x + (s.cand cand).qualS * 781250000 ≤ s.dtt) 2 0 (({ ((ready.setF (Reg.rsCandStatusState 2) 1).setCand 2 { Cand.reset 2 with timer := some 0, y := some 0 }) with dtt := 10 ^ 10 })) := by decide +kernel

theorem test_qual_timer_expiry_3 : (fun (cand : Nat) (s : State) => (16 ≤ cand ∨ (∀ x, (s.cand cand).timer = some x → s.dtt < x + (s.cand cand).qualS * 781250000))) 2 ready := Or.inr (fun _ h => nomatch h)

theorem test_wtr_expiry : (fun (cand : Nat) (x : Nat) (s : State) => cand < 16 ∧ (s.cand cand).wtrUntil = some x ∧ x ≤ s.dtt) 2 5 ((((ready.setF (Reg.rsCandStatusState 2) 2).setF (Reg.rsCandStatusPrioA 2) 3).setCand 2 { Cand.reset 2 with wtrUntil := some 5 })) := by decide +kernel

theorem test_wtr_expiry_2 : (fun (cand : Nat) (s : State) => (16 ≤ cand ∨ (∀ x, (s.cand cand).wtrUntil = some x → s.dtt < x))) 2 ready := Or.inr (fun _ h => nomatch h)

theorem test_switch_transaction_start : (fun (d : Nat) (i : Nat) (s : State) => d ≤ 1 ∧ s.isF (Reg.rsDSelQueued d) = true ∧ s.isF (Reg.rsDSelTxn d) = false ∧ choice d s = some i ∧ i < 16 ∧ selOf d s ≠ some i ∧ s.isF Reg.tbStateSwitching = false ∧ (s.rd d).lastTxn.all (fun x => decide (x + 78125000 ≤ s.dtt)) = true) 0 2 ((((ready.setF (Reg.rsCandStatusState 2) 2).setF (Reg.rsCandStatusPrioA 2) 3).setB (Reg.rsDSelQueued 0) true)) := by decide +kernel

theorem test_switch_transaction_start_2 : (fun (d : Nat) (i : Nat) (s : State) => d ≤ 1 ∧ s.isF (Reg.rsDSelQueued d) = true ∧ s.isF (Reg.rsDSelTxn d) = false ∧ choice d s = some i ∧ selOf d s ≠ some i ∧ (s.isF Reg.tbStateSwitching = true ∨ (s.rd d).lastTxn.all (fun x => decide (x + 78125000 ≤ s.dtt)) = false)) 0 2 ((((ready.setF (Reg.rsCandStatusState 2) 2).setF (Reg.rsCandStatusPrioA 2) 3).setB (Reg.rsDSelQueued 0) true).setB Reg.tbStateSwitching true) := by decide +kernel

theorem test_switch_transaction_start_3 : (fun (d : Nat) (s : State) => d ≤ 1 ∧ s.isF (Reg.rsDSelQueued d) = true ∧ s.isF (Reg.rsDSelTxn d) = false ∧ choice d s = selOf d s) 0 (((((ready.setF (Reg.rsCandStatusState 2) 2).setF (Reg.rsCandStatusPrioA 2) 3).setB (Reg.rsDSelQueued 0) true).setB (Reg.rsDSelSelValid 0) true).setF (Reg.rsDSelSel 0) 2) := by decide +kernel

theorem test_switch_transaction_start_4 : (fun (d : Nat) (s : State) => d ≤ 1 ∧ s.isF (Reg.rsDSelQueued d) = true ∧ s.isF (Reg.rsDSelTxn d) = false ∧ choice d s = none ∧ selOf d s ≠ none) 0 (((ready.setB (Reg.rsDSelQueued 0) true).setB (Reg.rsDSelSelValid 0) true).setF (Reg.rsDSelSel 0) 2) := by decide +kernel

theorem test_switch_transaction_start_5 : (fun (d : Nat) (s : State) => (1 < d ∨ s.isF (Reg.rsDSelQueued d) = false ∨ s.isF (Reg.rsDSelTxn d) = true)) 0 ready := by decide +kernel

theorem test_switch_transaction_end : (fun (d : Nat) (x : Txn) (s : State) => d ≤ 1 ∧ (s.rd d).txn = some x ∧ qcHeld d s = false ∧ (x.start + 7812500 ≤ s.dtt ∨ (x.settled = true ∧ (s.getI64 (Reg.plDPerr d)).natAbs ≤ (lockWindow d x.target s).1)) ∧ choice d s = selOf d s) 0 ⟨0, 2, 0, false⟩ { (((((ready.setF (Reg.rsCandStatusState 2) 2).setF (Reg.rsCandStatusPrioA 2) 3).setB (Reg.rsDSelSelValid 0) true).setF (Reg.rsDSelSel 0) 2)).setRd 0 { ready.rd 0 with txn := some ⟨0, 2, 0, false⟩ } with dtt := 10 ^ 8 } := by decide +kernel

theorem test_switch_transaction_end_2 : (fun (d : Nat) (i : Nat) (x : Txn) (s : State) => d ≤ 1 ∧ (s.rd d).txn = some x ∧ qcHeld d s = false ∧ (x.start + 7812500 ≤ s.dtt ∨ (x.settled = true ∧ (s.getI64 (Reg.plDPerr d)).natAbs ≤ (lockWindow d x.target s).1)) ∧ choice d s = some i ∧ selOf d s ≠ some i ∧ (s.isF Reg.tbStateSwitching = true ∨ (s.rd d).lastTxn.all (fun x => decide (x + 78125000 ≤ s.dtt)) = false)) 0 2 ⟨0, 3, 0, false⟩ { (((ready.setF (Reg.rsCandStatusState 2) 2).setF (Reg.rsCandStatusPrioA 2) 3).setB Reg.tbStateSwitching true).setRd 0 { ready.rd 0 with txn := some ⟨0, 3, 0, false⟩ } with dtt := 10 ^ 8 } := by decide +kernel

theorem test_switch_transaction_end_3 : (fun (d : Nat) (s : State) => (1 < d ∨ qcHeld d s = true ∨ (∀ x, (s.rd d).txn = some x → s.dtt < x.start + 7812500 ∧ (x.settled = false ∨ (lockWindow d x.target s).1 < (s.getI64 (Reg.plDPerr d)).natAbs)))) 0 ready := Or.inr (Or.inr (fun _ h => nomatch h))

theorem test_holdover_update : (fun (d : Nat) (s : State) => d ≤ 1 ∧ s.qcState d = 4 ∧ s.isF (Reg.rsDSelQueued d) = false ∧ ownState d s = true ∧ (holdoverBound d s).all (fun b => decide ((s.rd d).hoLimit * 2 ^ 16 < b)) = true) 1 ((ready.setF (Reg.tbDStatusQc 1) 128)) := by decide +kernel

theorem test_holdover_update_2 : (fun (d : Nat) (s : State) => d ≤ 1 ∧ s.qcState d = 4 ∧ (s.isF (Reg.rsDSelQueued d) = true ∨ ownState d s = false ∨ (holdoverBound d s).any (fun b => decide (b ≤ (s.rd d).hoLimit * 2 ^ 16)) = true)) 1 ((ready.setF (Reg.tbDStatusQc 1) 128).setB (Reg.rsDSelQueued 1) true) := by decide +kernel

theorem test_holdover_update_3 : (fun (s : State) => s.qcState 0 ≠ 4 ∧ s.qcState 1 ≠ 4) ready := by decide +kernel

theorem test_larder_entry_write : (fun (s : State) => (s.refs.minute + 1) * minuteTicks ≤ s.dtt) (({ ready with dtt := 46875000000 })) := by decide +kernel

theorem test_larder_entry_write_2 : (fun (s : State) => s.dtt < (s.refs.minute + 1) * minuteTicks) ready := by decide +kernel

theorem test_tstat_hold_expiry : (fun (v : Nat) (s : State) => s.refs.tstatWait = some v ∧ s.refs.tstatSince * 2 + 15625 ≤ s.dtt * 2) 9 (({ ready with refs := { ready.refs with tstatWait := some 9 } })) := by decide +kernel

theorem test_tstat_hold_expiry_2 : (fun (s : State) => (s.refs.tstatWait = none ∨ s.dtt * 2 < s.refs.tstatSince * 2 + 15625)) ready := by decide +kernel

theorem test_esmc_pdu_rx : (fun (port : Nat) (i : Nat) (s : State) => 8 ≤ i ∧ i < 16 ∧ portOf (s.cand i).linePort s = portOf port s ∧ (s.cand i).lineMode ≠ 0) 7 9 ((ready.setCand 9 { Cand.reset 9 with lineMode := 1, linePort := 7 })) := by decide +kernel

theorem test_esmc_pdu_rx_2 : (fun (port : Nat) (s : State) => (∀ i, 8 ≤ i → i < 16 → portOf (s.cand i).linePort s ≠ portOf port s ∨ (s.cand i).lineMode = 0)) 7 ready := by
  intro i h1 h2; right
  obtain rfl | rfl | rfl | rfl | rfl | rfl | rfl | rfl : i = 8 ∨ i = 9 ∨ i = 10 ∨ i = 11 ∨ i = 12 ∨ i = 13 ∨ i = 14 ∨ i = 15 := by omega
  all_goals decide +kernel

theorem test_served_switch : (fun (q : SwitchReq) (s : State) => s.tb.switchReq = some q ∧ switchNow s = true ∧ q.domain ≤ 1) ((⟨1, false⟩ : SwitchReq)) (({ ready with tb := { ready.tb with switchReq := some ⟨1, false⟩, lastServo := 1000000 } })) := by decide +kernel

theorem test_served_switch_2 : (fun (s : State) => (s.tb.switchReq = none ∨ switchNow s = false)) ready := Or.inl (by decide +kernel)

theorem test_frequency_acquired : (fun (d : Nat) (i : Nat) (s : State) => d ≤ 1 ∧ selOf d s = some i ∧ s.qcState d = 1 ∧ 3 ≤ (s.rd d).facq ∧ s.isF (Reg.rsDSelTxn d) = false ∧ s.isF (Reg.rsDSelQueued d) = false ∧ ownState d s = true) 0 2 (((((ready.setB (Reg.rsDSelSelValid 0) true).setF (Reg.rsDSelSel 0) 2).setF (Reg.tbDStatusQc 0) 32).setRd 0 { ready.rd 0 with facq := 3 })) := by decide +kernel

theorem test_frequency_acquired_2 : (fun (d : Nat) (s : State) => (1 < d ∨ selOf d s = none ∨ s.qcState d ≠ 1 ∨ (s.rd d).facq < 3 ∨ s.isF (Reg.rsDSelTxn d) = true ∨ s.isF (Reg.rsDSelQueued d) = true ∨ ownState d s = false)) 0 ready := by decide +kernel

theorem test_dpll_lock : (fun (d : Nat) (i : Nat) (s : State) => d ≤ 1 ∧ selOf d s = some i ∧ lockTest d i s = true) 0 2 (((((ready.setB (Reg.rsDSelSelValid 0) true).setF (Reg.rsDSelSel 0) 2).setF (Reg.tbDStatusQc 0) 192).setF (Reg.plDStatusCount 0) 65535)) := by decide +kernel

theorem test_dpll_lock_2 : (fun (d : Nat) (s : State) => (1 < d ∨ (∀ i, selOf d s = some i → lockTest d i s = false))) 0 ready := Or.inr (fun _ h => nomatch h)

theorem test_dpll_lock_loss : (fun (d : Nat) (i : Nat) (s : State) => d ≤ 1 ∧ selOf d s = some i ∧ s.isF (Reg.plDStatusLock d) = true ∧ ((lockWindow d i s).2 + 15) / 16 ≤ (s.rd d).outCount) 0 2 (((((ready.setB (Reg.rsDSelSelValid 0) true).setF (Reg.rsDSelSel 0) 2).setB (Reg.plDStatusLock 0) true).setRd 0 { ready.rd 0 with outCount := 9999 })) := by decide +kernel

theorem test_dpll_lock_loss_2 : (fun (d : Nat) (s : State) => (1 < d ∨ s.isF (Reg.plDStatusLock d) = false ∨ (∀ i, selOf d s = some i → (s.rd d).outCount < ((lockWindow d i s).2 + 15) / 16))) 0 ready := Or.inr (Or.inl (by decide +kernel))

/-! `DpllAndOutputCommandsComplete` -/

theorem test_pl_set_loop : (fun (c : Cmd) (s : State) => Starts plSetLoopSpec c s) (entry 24 [1, 3, 2, 0, 100, 0, 0, 0, 100, 0, 7, 0, 8, 0, 0, 0, 100, 0, 0, 0, 100, 0, 0, 0]) (((ready.setB Reg.plStatusInnerLock true).setB Reg.plStatusSearch false)) := by unfold Starts; decide +kernel

theorem test_pl_out_config : (fun (c : Cmd) (s : State) => Starts plOutConfigSpec c s) (entry 24 [1, 1, 2, 2, 125, 0, 0, 0, 16, 0, 0, 0, 0, 0, 0, 0, 0, 0, 0, 0, 0, 0, 0, 0]) ready := by unfold Starts; decide +kernel

theorem test_pl_out_retune : (fun (c : Cmd) (s : State) => Starts plOutRetuneSpec c s ∧ s.innerLocked = true) (entry 12 [1, 4, 0, 0, 0, 0, 0, 0, 1, 0, 0, 0]) ((ready.setB Reg.plStatusInnerLock true)) := by unfold Starts; decide +kernel

theorem test_pl_out_retune_2 : (fun (c : Cmd) (s : State) => Starts plOutRetuneSpec c s ∧ s.innerLocked = false) (entry 12 [1, 4, 0, 0, 0, 0, 0, 0, 1, 0, 0, 0]) ((ready.setB Reg.plStatusInnerLock false)) := by unfold Starts; decide +kernel

theorem test_pl_pps_config : (fun (c : Cmd) (s : State) => Starts plPpsConfigSpec c s) (entry 24 [0, 31, 255, 2, 1, 0, 0, 0, 0, 0, 0, 0, 100, 0, 0, 0, 5, 0, 0, 0, 0, 0, 0, 0]) ready := by unfold Starts; decide +kernel

theorem test_pl_status : (fun (c : Cmd) (s : State) => Starts plStatusSpec c s) (entry 0 []) ready := by unfold Starts; decide +kernel

/-! `LoopsAndOutputsRun` -/

theorem test_inner_lock : (fun (s : State) => s.innerLocked = false ∧ s.isF Reg.plStatusSearch = false) (((ready.setB Reg.plStatusInnerLock false).setB Reg.plStatusSearch false)) := by decide +kernel

theorem test_inner_lock_2 : (fun (s : State) => (s.innerLocked = true ∨ s.isF Reg.plStatusSearch = true)) (ready.setB Reg.plStatusInnerLock true) := by decide +kernel

theorem test_inner_lock_loss : (fun (s : State) => s.innerLocked = true) (ready.setB Reg.plStatusInnerLock true) := by decide +kernel

theorem test_inner_lock_loss_2 : (fun (s : State) => s.innerLocked = false) (ready.setB Reg.plStatusInnerLock false) := by decide +kernel

theorem test_band_search_done : (fun (band : Nat) (s : State) => s.isF Reg.plStatusSearch = true ∧ (s.dpll.searchAll = true ∨ (band ≤ s.getF Reg.plStatusBand + 1 ∧ s.getF Reg.plStatusBand ≤ band + 1))) 1 (ready.setB Reg.plStatusSearch true) := by decide +kernel

theorem test_band_search_done_2 : (fun (band : Nat) (s : State) => (s.isF Reg.plStatusSearch = false ∨ (s.dpll.searchAll = false ∧ (s.getF Reg.plStatusBand + 1 < band ∨ band + 1 < s.getF Reg.plStatusBand)))) 0 (ready.setB Reg.plStatusSearch false) := by decide +kernel

theorem test_servo_update : (fun (s : State) => s.tb.lastServo + 781250 ≤ s.dtt ∧ s.dpll.holdStart = none ∧ s.isF Reg.hstStatusFwRun = true) ((({ ready with tb := { ready.tb with lastServo := 0 } }).setB (Reg.tbDStatusOpen 0) true)) := by decide +kernel

theorem test_servo_update_2 : (fun (s : State) => s.tb.lastServo + 781250 ≤ s.dtt ∧ s.dpll.holdStart = none ∧ s.isF Reg.hstStatusFwRun = true ∧ s.isF Reg.tbStateXfer = false) ((({ ready with tb := { ready.tb with lastServo := 0 } }).setB (Reg.tbDStatusOpen 0) true)) := by decide +kernel

theorem test_servo_update_3 : (fun (s : State) => s.tb.lastServo + 781250 ≤ s.dtt ∧ s.dpll.holdStart = none ∧ s.isF Reg.hstStatusFwRun = true ∧ s.isF Reg.tbStateXfer = true) (ready.setB Reg.tbStateXfer true) := by decide +kernel

theorem test_servo_update_4 : (fun (s : State) => (s.dtt < s.tb.lastServo + 781250 ∨ s.dpll.holdStart ≠ none ∨ s.isF Reg.hstStatusFwRun = false)) (ready.setB Reg.hstStatusFwRun false) := by decide +kernel

theorem test_osyn_lock : (fun (k : Nat) (s : State) => k < 4 ∧ s.isF (Reg.plOsynStatusLock k) = false ∧ s.getF (Reg.plOsynDenValue k) ≠ 0) 1 (((((ready.setB Reg.plStatusInnerLock true).setB (Reg.plOsynStatusRetune 1) true).setB (Reg.plOsynStatusLock 1) false).setF (Reg.plOsynDenValue 1) 1)) := by decide +kernel

theorem test_osyn_lock_2 : (fun (k : Nat) (s : State) => k < 4 ∧ s.isF (Reg.plOsynStatusLock k) = false ∧ s.getF (Reg.plOsynDenValue k) ≠ 0 ∧ s.innerLocked = false) 3 (((ready.setB Reg.plStatusInnerLock false).setB (Reg.plOsynStatusLock 3) false).setF (Reg.plOsynDenValue 3) 1) := by decide +kernel

theorem test_osyn_lock_3 : (fun (k : Nat) (s : State) => (4 ≤ k ∨ s.isF (Reg.plOsynStatusLock k) = true ∨ s.getF (Reg.plOsynDenValue k) = 0)) 4 ready := by decide +kernel

theorem test_squelch_release : (fun (out : Nat) (x : Nat) (s : State) => out < 12 ∧ (s.out out).squelched = true ∧ (s.out out).clear = some x ∧ x + 781250000 ≤ s.dtt ∧ bit (outMask out s) (s.qcState s.served) = false) 1 5 ((({ ready with dtt := 10 ^ 9 }).setOut 1 { ready.out 1 with squelched := true, clear := some 5 })) := by decide +kernel

theorem test_squelch_release_2 : (fun (out : Nat) (x : Nat) (s : State) => out < 12 ∧ (s.out out).squelched = true ∧ (s.out out).clear = some x ∧ x + 781250000 ≤ s.dtt) 1 5 ((({ ready with dtt := 10 ^ 9 }).setOut 1 { ready.out 1 with squelched := true, clear := some 5 })) := by decide +kernel

theorem test_squelch_release_3 : (fun (out : Nat) (s : State) => (12 ≤ out ∨ (s.out out).squelched = false ∨ (∀ x, (s.out out).clear = some x → s.dtt < x + 781250000))) 12 ready := Or.inl (by decide +kernel)

theorem test_tod_message : (fun (edge : Nat) (n : Nat) (s : State) => n = (divRound (s.servedTime edge + s.getI64 Reg.tbOutOffset - (s.out 8).phaseNow) (10 ^ 9 * 2 ^ 16)).toNat ∧ s.getF (Reg.plPpsStatusTod 0) ≠ 0 ∧ (outState 8 s = 1 ∨ outState 8 s = 5) ∧ edge + 7812500 * 2 ^ 16 ≤ s.now80 ∧ (20000000 ≤ ppsPeriod (s.out 8).rate (s.out 8).periodS ∨ (((s.servedTime edge + s.getI64 Reg.tbOutOffset - (s.out 8).phaseNow) - n * (10 ^ 9 * 2 ^ 16)).natAbs * 2 < ppsPeriod (s.out 8).rate (s.out 8).periodS * 2 ^ 16))) 5 0 ((({ ready with dtt := 7812505 }.setF (Reg.plPpsStatusTod 0) 1).setF (Reg.plPpsStatusState 0) 1).setOut 8 { ready.out 8 with rate := 1 }) := by decide +kernel

theorem test_tod_message_2 : (fun (edge : Nat) (n : Nat) (s : State) => n = (divRound (s.servedTime edge + s.getI64 Reg.tbOutOffset - (s.out 8).phaseNow) (10 ^ 9 * 2 ^ 16)).toNat ∧ (s.getF (Reg.plPpsStatusTod 0) = 0 ∨ (outState 8 s ≠ 1 ∧ outState 8 s ≠ 5) ∨ s.now80 < edge + 7812500 * 2 ^ 16 ∨
      (ppsPeriod (s.out 8).rate (s.out 8).periodS < 20000000 ∧ ¬(((s.servedTime edge + s.getI64 Reg.tbOutOffset - (s.out 8).phaseNow) - n * (10 ^ 9 * 2 ^ 16)).natAbs * 2 < ppsPeriod (s.out 8).rate (s.out 8).periodS * 2 ^ 16)))) 5 0 ready := by decide +kernel

theorem test_tod_rx_label : (fun (x : Nat) (s : State) => s.dpll.ppsEdge = some x ∧ s.now80 ≤ x + 703125000 * 2 ^ 16) 5 (({ ready with dpll := { ready.dpll with ppsEdge := some 5 } })) := by decide +kernel

theorem test_tod_rx_label_2 : (fun (s : State) => (∀ x, s.dpll.ppsEdge = some x → x + 703125000 * 2 ^ 16 < s.now80)) ready := fun _ h => nomatch h

/-! `GnssCommandsComplete` -/

theorem test_gn_enable : (fun (c : Cmd) (s : State) => Starts gnEnableSpec c s ∧ cu c 1 1 = 1 ∧ s.awake 52 = false) (entry 32 [0, 1, 1, 0, 0, 1, 10, 30, 0, 0, 44, 1, 96, 0, 231, 93, 192, 99, 112, 2, 0, 0, 0, 0, 0, 0, 0, 0, 4, 4, 0, 0]) (({ ready with islands := [] })) := by unfold Starts; decide +kernel

theorem test_gn_enable_2 : (fun (c : Cmd) (s : State) => Starts gnEnableSpec c s ∧ cu c 1 1 = 1 ∧ s.awake 52 = true) (entry 32 [0, 1, 1, 0, 0, 1, 10, 30, 0, 0, 44, 1, 96, 0, 231, 93, 192, 99, 112, 2, 0, 0, 0, 0, 0, 0, 0, 0, 4, 4, 0, 0]) { ready with islands := [52] } := by unfold Starts; decide +kernel

theorem test_gn_enable_3 : (fun (c : Cmd) (s : State) => Starts gnEnableSpec c s ∧ cu c 1 1 = 0) (entry 32 [0, 0, 1, 0, 0, 1, 10, 30, 0, 0, 44, 1, 96, 0, 231, 93, 192, 99, 112, 2, 0, 0, 0, 0, 0, 0, 0, 0, 4, 4, 0, 0]) ({ ready with islands := [52] }.setF (Reg.gnSolStatusState 0) 3) := by unfold Starts; decide +kernel

theorem test_gn_load_almanac : (fun (c : Cmd) (s : State) => Starts (loadSpec 0x0602) c s) (entry 4 [0, 1, 1, 0]) ready := by unfold Starts; decide +kernel

theorem test_gn_load_ephemeris : (fun (c : Cmd) (s : State) => Starts (loadSpec 0x0603) c s) (entry 4 [0, 1, 1, 0]) ready := by unfold Starts; decide +kernel

theorem test_gn_set_position : (fun (c : Cmd) (s : State) => Starts gnSetPositionSpec c s) (entry 20 [1, 0, 0, 0, 0, 0, 0, 0, 1, 0, 0, 0, 2, 0, 0, 0, 255, 255, 255, 255]) ready := by unfold Starts; decide +kernel

theorem test_gn_set_antenna_delay : (fun (c : Cmd) (s : State) => Starts gnSetAntennaDelaySpec c s) (entry 20 [2, 0, 5, 0, 0, 0, 0, 0, 0, 0, 0, 0, 9, 0, 0, 0, 0, 0, 0, 0]) ready := by unfold Starts; decide +kernel

theorem test_gn_status : (fun (c : Cmd) (s : State) => Starts gnStatusSpec c s) (entry 4 [1, 0, 0, 0]) ready := by unfold Starts; decide +kernel

/-! `GnssReceiverRuns` -/

theorem test_gnss_epoch : (fun (sol : Nat) (s : State) => sol < 2 ∧ gnState sol s ≠ 0 ∧ s.awake 52 = true ∧ s.dtt * (s.gnSol sol).rate % 781250000 = 0) 1 (({ ((({ ready with islands := [52] }.setF (Reg.gnSolStatusState 1) 3).setGnSol 1 { ready.gnSol 1 with rate := 1 }).setB (Reg.gnSolStatusHold 0) true) with dtt := 781250000 })) := by decide +kernel

theorem test_gnss_epoch_2 : (fun (sol : Nat) (s : State) => (2 ≤ sol ∨ gnState sol s = 0 ∨ s.awake 52 = false ∨ s.dtt * (s.gnSol sol).rate % 781250000 ≠ 0)) 1 ready := by decide +kernel

theorem test_gn_rate_change : (fun (sol : Nat) (n : Nat) (s : State) => sol < 2 ∧ (s.gnSol sol).rateNext = some n ∧ s.dtt % 781250000 = 0) 1 5 (({ ready.setGnSol 1 { ready.gnSol 1 with rateNext := some 5 } with dtt := 781250000 })) := by decide +kernel

theorem test_gn_rate_change_2 : (fun (sol : Nat) (s : State) => (2 ≤ sol ∨ (s.gnSol sol).rateNext = none ∨ s.dtt % 781250000 ≠ 0)) 1 ready := by decide +kernel

theorem test_gn_port_loss : (fun (port : Nat) (s : State) => portUsed port s = true ∧ s.isF (Reg.gnPortOk port) = true) 0 ((({ ready with islands := [52], gn := { ready.gn with loA := 1575420000 } }).setB (Reg.gnPortOk 0) true)) := by decide +kernel

theorem test_gn_port_loss_2 : (fun (port : Nat) (s : State) => (portUsed port s = false ∨ s.isF (Reg.gnPortOk port) = false)) 0 ready := by decide +kernel

theorem test_gn_port_return : (fun (port : Nat) (off : Int) (s : State) => portUsed port s = true ∧ s.isF (Reg.gnPortOk port) = false ∧ off.natAbs ≤ 10000) 0 ((-5)) (({ ready with islands := [52], gn := { ready.gn with loA := 1575420000 } })) := by decide +kernel

theorem test_gn_port_return_2 : (fun (port : Nat) (off : Int) (s : State) => (portUsed port s = false ∨ s.isF (Reg.gnPortOk port) = true ∨ 10000 < off.natAbs)) 0 0 ready := by decide +kernel

theorem test_gn_mag_check : (fun (port : Nat) (mag : Nat) (total : Nat) (s : State) => portUsed port s = true ∧ s.isF (Reg.gnPortOk port) = true ∧ 0 < total ∧ mag ≤ total) 0 10 10 ((({ ready with islands := [52], gn := { ready.gn with loA := 1575420000 } }).setB (Reg.gnPortOk 0) true)) := by decide +kernel

theorem test_gn_mag_check_2 : (fun (port : Nat) (mag : Nat) (total : Nat) (s : State) => (portUsed port s = false ∨ s.isF (Reg.gnPortOk port) = false ∨ total = 0 ∨ total < mag)) 0 0 0 ready := by decide +kernel

theorem test_survey_done : (fun (sol : Nat) (s : State) => sol < 2 ∧ gnHeld s = false ∧ 2 ≤ gnState sol s ∧ 0 < (s.gnSol sol).fixes ∧ s.gn.surveyS * 781250000 ≤ (s.gnSol sol).surveyed) 1 (((ready.setF (Reg.gnSolStatusState 1) 2).setGnSol 1 { ready.gnSol 1 with fixes := 2, surveyed := 10 ^ 15, sumX := 7 })) := by decide +kernel

theorem test_survey_done_2 : (fun (sol : Nat) (s : State) => (2 ≤ sol ∨ gnHeld s = true ∨ gnState sol s < 2 ∨ (s.gnSol sol).fixes = 0 ∨ (s.gnSol sol).surveyed < s.gn.surveyS * 781250000)) 1 ready := by decide +kernel

theorem test_spoof_hold_expiry : (fun (sol : Nat) (x : Nat) (s : State) => sol < 2 ∧ (s.gnSol sol).spoofUntil = some x ∧ x ≤ s.dtt) 1 7 (((ready.setB (Reg.gnSolStatusSpoof 1) true).setGnSol 1 { ready.gnSol 1 with spoofUntil := some 7 })) := by decide +kernel

theorem test_spoof_hold_expiry_2 : (fun (sol : Nat) (s : State) => (2 ≤ sol ∨ (∀ x, (s.gnSol sol).spoofUntil = some x → s.dtt < x))) 2 ready := Or.inl (by decide +kernel)

theorem test_gn_no_sat_timeout : (fun (sol : Nat) (s : State) => sol < 2 ∧ 2 ≤ gnState sol s ∧ (s.gnSol sol).lastSat + 7812500000 ≤ s.dtt) 1 (({ (ready.setF (Reg.gnSolStatusState 1) 3).setF (Reg.rsCandStatusState 7) 2 with dtt := 10 ^ 10 })) := by decide +kernel

theorem test_gn_no_sat_timeout_2 : (fun (sol : Nat) (s : State) => (2 ≤ sol ∨ gnState sol s < 2 ∨ s.dtt < (s.gnSol sol).lastSat + 7812500000)) 1 ready := by decide +kernel

/-! `EventInputCommandsComplete` -/

theorem test_em_input_config : (fun (c : Cmd) (s : State) => Starts emInputConfigSpec c s ∧ (cbit c 1 0 = true → s.awake (53 + cu c 0 1) = true)) (entry 32 [2, 7, 3, 0, 1, 0, 0, 0, 0, 0, 0, 0, 0, 0, 0, 0, 0, 0, 0, 0, 0, 0, 0, 0, 9, 0, 0, 0, 0, 0, 0, 0]) (({ (((ready.setB (Reg.emStatusEn 2) true).setInput 2 { EventIn.reset with edge := 1, pre := 3, storeN := 1, edges := 2 })) with islands := [55] })) := by unfold Starts; decide +kernel

theorem test_em_input_config_2 : (fun (c : Cmd) (s : State) => Starts emInputConfigSpec c s ∧ cbit c 1 0 = true ∧ s.awake (53 + cu c 0 1) = false) (entry 32 [2, 7, 3, 0, 1, 0, 0, 0, 0, 0, 0, 0, 0, 0, 0, 0, 0, 0, 0, 0, 0, 0, 0, 0, 9, 0, 0, 0, 0, 0, 0, 0]) ready := by unfold Starts; decide +kernel

theorem test_em_interval : (fun (c : Cmd) (s : State) => Starts emIntervalSpec c s) (entry 8 [1, 2, 3, 3, 100, 0, 0, 0]) ready := by unfold Starts; decide +kernel

theorem test_em_frequency : (fun (c : Cmd) (s : State) => Starts emFrequencySpec c s) (entry 8 [2, 0, 0, 0, 10, 0, 0, 0]) ((((ready.setB (Reg.emStatusEn 2) true).setInput 2 { EventIn.reset with edge := 1, pre := 3, storeN := 1, edges := 2 }))) := by unfold Starts; decide +kernel

theorem test_em_self_audit : (fun (c : Cmd) (s : State) => Starts emSelfAuditSpec c s) ({ entry 8 [3, 0, 255, 255, 1, 0, 0, 0] with rlen4k := 1, raddr := 4096 }) ready := by unfold Starts; decide +kernel

/-! `EdgesAreStamped` -/

theorem test_evtin_edge : (fun (input : Nat) (phase : Nat) (code : Nat) (s : State) => (8 ≤ input ∨ s.isF (Reg.emStatusEn input) = false ∨ s.awake (53 + input) = false ∨ 8 ≤ phase ∨ 40 ≤ code)) 7 7 40 ready := by decide +kernel

theorem test_evtin_edge_2 : (fun (input : Nat) (falling : Bool) (phase : Nat) (code : Nat) (s : State) => input < 8 ∧ s.isF (Reg.emStatusEn input) = true ∧ s.awake (53 + input) = true ∧ phase < 8 ∧ code < 40 ∧ bit (s.input input).edge (b2n falling) = false) 2 true 7 39 { ((ready.setB (Reg.emStatusEn 2) true).setInput 2 { EventIn.reset with edge := 1, pre := 3, storeN := 1, edges := 1, missSec := 0 }) with islands := [55] } := by decide +kernel

theorem test_evtin_edge_3 : (fun (input : Nat) (falling : Bool) (phase : Nat) (code : Nat) (s : State) => input < 8 ∧ s.isF (Reg.emStatusEn input) = true ∧ s.awake (53 + input) = true ∧ phase < 8 ∧ code < 40 ∧ bit (s.input input).edge (b2n falling) = true ∧ ((s.input input).edges + 1) % (s.input input).pre ≠ 0) 2 false 1 3 (({ (((ready.setB (Reg.emStatusEn 2) true).setInput 2 { EventIn.reset with edge := 1, pre := 3, storeN := 1, edges := 1, missSec := 0 })) with islands := [55] })) := by decide +kernel

theorem test_evtin_edge_4 : (fun (input : Nat) (falling : Bool) (tick : Nat) (phase : Nat) (code : Nat) (s : State) => input < 8 ∧ s.isF (Reg.emStatusEn input) = true ∧ s.awake (53 + input) = true ∧ phase < 8 ∧ code < 40 ∧ bit (s.input input).edge (b2n falling) = true ∧ ((s.input input).edges + 1) % (s.input input).pre = 0 ∧ (s.input input).last.all (fun l => decide (4 * 2 ^ 24 ≤ edgeTime input tick phase code s - l)) = true ∧ calHolds (64 + input) s = false) 2 false 1000 7 39 { ((ready.setB (Reg.emStatusEn 2) true).setInput 2 { EventIn.reset with edge := 1, pre := 3, storeN := 1, edges := 2, missSec := 0 }) with islands := [55] } := by decide +kernel

theorem test_evtin_edge_5 : (fun (input : Nat) (falling : Bool) (tick : Nat) (phase : Nat) (code : Nat) (s : State) => input < 8 ∧ s.isF (Reg.emStatusEn input) = true ∧ s.awake (53 + input) = true ∧ phase < 8 ∧ code < 40 ∧ bit (s.input input).edge (b2n falling) = true ∧ ((s.input input).edges + 1) % (s.input input).pre = 0 ∧ ((s.input input).last.all (fun l => decide (4 * 2 ^ 24 ≤ edgeTime input tick phase code s - l)) = false ∨ calHolds (64 + input) s = true)) 2 false 1000 7 39 { ({ ((ready.setB (Reg.emStatusEn 2) true).setInput 2 { EventIn.reset with edge := 1, pre := 3, storeN := 1, edges := 2, missSec := 0 }) with islands := [55] }) with cal := { ready.cal with runs := [⟨66, [], 0, none, 0, 0, 0, false⟩] } } := by decide +kernel

theorem test_em_ring_move : (fun (input : Nat) (s : State) => (8 ≤ input ∨ s.isF (Reg.emStatusRing input) = false ∨ (s.input input).entries = [] ∨ 8 * s.dtt < s.em.movedTo)) 2 ((ready.setB (Reg.emStatusRing 2) true)) := by decide +kernel

theorem test_em_ring_move_2 : (fun (input : Nat) (s : State) => input < 8 ∧ s.isF (Reg.emStatusRing input) = true) 2 ((ready.setB (Reg.emStatusRing 2) true)) := by decide +kernel

theorem test_em_ring_move_3 : (fun (input : Nat) (b : Bytes) (s : State) => input < 8 ∧ s.isF (Reg.emStatusRing input) = true ∧ (s.input input).entries = [b] ∧ emRingRoom input s = true ∧ s.em.movedTo ≤ 8 * s.dtt) 2 (([1, 2, 3] : Bytes)) (((((ready.setB (Reg.emStatusRing 2) true).setB (Reg.emRCfgEn 2) true).setF (Reg.emRCfgLog2sz 2) 6).setInput 2 { EventIn.reset with entries := [[1, 2, 3]] })) := by decide +kernel

theorem test_em_ring_move_4 : (fun (input : Nat) (s : State) => input < 8 ∧ s.isF (Reg.emStatusRing input) = true ∧ emRingRoom input s = false) 2 ((ready.setB (Reg.emStatusRing 2) true)) := by decide +kernel

theorem test_em_gate_open : (fun (input : Nat) (g : EmGate) (s : State) => input < 8 ∧ (s.input input).gate = some g ∧ g.opens ≤ s.dtt) 2 ((⟨1000, 2000, false, 0, 0, 0, 0, 0, 0, 0, 0⟩ : EmGate)) ((ready.setInput 2 { EventIn.reset with gate := some ⟨1000, 2000, false, 0, 0, 0, 0, 0, 0, 0, 0⟩ })) := by decide +kernel

theorem test_em_gate_open_2 : (fun (input : Nat) (s : State) => (8 ≤ input ∨ (∀ g, (s.input input).gate = some g → s.dtt < g.opens))) 8 ready := Or.inl (by decide +kernel)

theorem test_em_gate_close : (fun (input : Nat) (g : EmGate) (s : State) => input < 8 ∧ (s.input input).gate = some g ∧ g.closes ≤ s.dtt) 2 ((⟨1000, 2000, false, 0, 0, 0, 0, 0, 0, 0, 0⟩ : EmGate)) ((ready.setInput 2 { EventIn.reset with gate := some ⟨1000, 2000, false, 0, 0, 0, 0, 0, 0, 0, 0⟩ })) := by decide +kernel

theorem test_em_gate_close_2 : (fun (input : Nat) (s : State) => (8 ≤ input ∨ (∀ g, (s.input input).gate = some g → s.dtt < g.closes))) 8 ready := Or.inl (by decide +kernel)

/-! `SwitchCommandsComplete` -/

theorem test_sw_port_forward : (fun (c : Cmd) (s : State) => Starts swPortForwardSpec c s ∧ (¬ ((cu c 0 1) < 48 ∧ cu c 1 1 % 4 ≠ 0 ∧ s.awake (halfOf (cu c 0 1)) = false))) (entry 40 ([3, 63, 242, 5, 1, 96, 2, 3] ++ List.replicate 32 0)) (({ ready with islands := [48] })) := by unfold Starts; decide +kernel

theorem test_sw_port_forward_2 : (fun (c : Cmd) (s : State) => Starts swPortForwardSpec c s ∧ (cu c 0 1) < 48 ∧ cu c 1 1 % 4 ≠ 0 ∧ s.awake (halfOf (cu c 0 1)) = false) (entry 40 ([3, 63, 242, 5, 1, 96, 2, 3] ++ List.replicate 32 0)) (({ ready with islands := [] })) := by unfold Starts; decide +kernel

theorem test_sw_set_vlan : (fun (c : Cmd) (s : State) => Starts swSetVlanSpec c s) (entry 28 ([5, 0, 31, 0, 255] ++ List.replicate 7 0 ++ [15] ++ List.replicate 15 0)) ready := by unfold Starts; decide +kernel

theorem test_sw_set_lag : (fun (c : Cmd) (s : State) => Starts swSetLagSpec c s) (({ entry 80 ([1, 1, 255, 3, 6, 0, 0, 0, 0, 0, 0, 0, 0, 0, 0, 0] ++ List.replicate 64 1) with flags := 4 } : Cmd)) ready := by unfold Starts; decide +kernel

theorem test_sw_rule_write : (fun (c : Cmd) (s : State) => Starts swRuleWriteSpec c s) (({ entry 96 ([5, 0, 1] ++ List.replicate 85 0 ++ [1] ++ List.replicate 7 0) with flags := 4 } : Cmd)) ready := by unfold Starts; decide +kernel

theorem test_sw_direct_connect : (fun (c : Cmd) (s : State) => Starts swDirectConnectSpec c s ∧ (members (cu c 4 6) 48).all (fun b => portEnabled b s) = true) (({ entry 112 ([3, 1, 0, 0, 32] ++ List.replicate 107 0) with flags := 4 } : Cmd)) ((((ready.setF (Reg.sdsStatusMode 3) 2).setF (Reg.sdsStatusMode 5) 2).setF Reg.gdPortEn0A 4294967295)) := by unfold Starts; decide +kernel

theorem test_sw_direct_connect_2 : (fun (c : Cmd) (s : State) => Starts swDirectConnectSpec c s ∧ (members (cu c 4 6) 48).any (fun b => !portEnabled b s) = true) (({ entry 112 ([3, 1, 0, 0, 32] ++ List.replicate 107 0) with flags := 4 } : Cmd)) ((((ready.setF (Reg.sdsStatusMode 3) 2).setF (Reg.sdsStatusMode 5) 2).setF Reg.gdPortEn0A 0)) := by unfold Starts; decide +kernel

theorem test_sw_direct_disconnect : (fun (c : Cmd) (s : State) => Starts swDirectDisconnectSpec c s) (entry 4 [3, 0, 0, 0]) (((ready.setB (Reg.swDpStatusConn 3) true).setF (Reg.swDpOut0 3) 32)) := by unfold Starts; decide +kernel

/-! `FramesPassThePipeline` -/

theorem test_frame_rx : (fun (src : Nat) (len : Nat) (head : Bytes) (m : EdgeMeas) (outs : List EdgeMeas) (s : State) => spGet none s.sw.rx src = none ∧ 64 ≤ head.length ∧ head.length ≤ len ∧ receives src m s = true ∧ (¬(src < 48 ∧ s.isF (Reg.swPortStatusDpRx src) = true) ∨ (directOuts src outs s).isSome = true)) 5 64 (List.replicate 64 0) edge5 [] linked := by decide +kernel

theorem test_frame_rx_2 : (fun (src : Nat) (len : Nat) (head : Bytes) (m : EdgeMeas) (outs : List EdgeMeas) (s : State) => spGet none s.sw.rx src = none ∧ 64 ≤ head.length ∧ head.length ≤ len ∧ receives src m s = true ∧ (src < 48 ∧ s.isF (Reg.swPortStatusDpRx src) = true) ∧ directOuts src outs s = none) 5 64 (List.replicate 64 0) edge5 [] (((linked.setB (Reg.swPortStatusDpRx 5) true).setF (Reg.swDpOut0 5) 8).setB (Reg.sdsStatusTxOn 3) true) := by decide +kernel

theorem test_frame_rx_3 : (fun (src : Nat) (len : Nat) (head : Bytes) (m : EdgeMeas) (s : State) => spGet none s.sw.rx src = none ∧ 64 ≤ head.length ∧ head.length ≤ len ∧ receives src m s = false ∧ (src < 48 ∧ (s.lane src).relocking = true ∧ s.linkUp src = false)) 5 64 (List.replicate 64 0) edge5 (lane5.setLane 5 { Lane.reset with relocking := true }) := by decide +kernel

theorem test_frame_rx_4 : (fun (src : Nat) (len : Nat) (head : Bytes) (m : EdgeMeas) (s : State) => ((spGet none s.sw.rx src).isSome = true ∨ head.length < 64 ∨ len < head.length ∨ (receives src m s = false ∧ ¬(src < 48 ∧ (s.lane src).relocking = true ∧ s.linkUp src = false)))) 5 64 (List.replicate 64 0) edge5 ready := by decide +kernel

theorem test_frame_end : (fun (src : Nat) (x : RxFrame) (s : State) => spGet none s.sw.rx src = some x) 5 (arriving none false) (ready.setRx 5 (some (arriving none false))) := by decide +kernel

theorem test_frame_end_2 : (fun (src : Nat) (k : Nat) (rest : Bytes) (fault : Bool) (x : RxFrame) (f : Frame) (s : State) => spGet none s.sw.rx src = some x ∧ x.dp = false ∧ x.claimed = false ∧ x.pool = some k ∧ s.poolFrame k = some f ∧ x.fecBad = false ∧ fault = false ∧ fcsGood (x.frame.data ++ rest) = true ∧ (x.frame.data ++ rest).length ≤ (s.swPort src).maxFrame) 5 7 goodBytes false (arriving (some 7) false) { frame with copies := 1 } (receiving (arriving (some 7) false)) := by decide +kernel

theorem test_frame_end_3 : (fun (src : Nat) (rest : Bytes) (fault : Bool) (x : RxFrame) (s : State) => spGet none s.sw.rx src = some x ∧ x.dp = false ∧ x.claimed = true ∧ x.fecBad = false ∧ fault = false ∧ fcsGood (x.frame.data ++ rest) = true ∧ (x.frame.data ++ rest).length ≤ (s.swPort src).maxFrame) 5 goodBytes false (arriving none true) (receiving (arriving none true)) := by decide +kernel

theorem test_frame_end_4 : (fun (src : Nat) (rest : Bytes) (fault : Bool) (x : RxFrame) (s : State) => spGet none s.sw.rx src = some x ∧ x.dp = false ∧ x.claimed = true ∧ (x.fecBad = true ∨ fault = true ∨ fcsGood (x.frame.data ++ rest) = false ∨ (s.swPort src).maxFrame < (x.frame.data ++ rest).length)) 5 goodBytes true (arriving none true) (receiving (arriving none true)) := by decide +kernel

theorem test_frame_end_5 : (fun (src : Nat) (x : RxFrame) (s : State) => spGet none s.sw.rx src = some x ∧ x.dp = true ∧ x.slipped = false) 5 { arriving none false with dp := true } (ready.setRx 5 (some { arriving none false with dp := true })) := by decide +kernel

theorem test_frame_end_6 : (fun (src : Nat) (rest : Bytes) (m : EdgeMeas) (s : State) => spGet none s.sw.rx src = none ∧ src < 48 ∧ receives src m s = true ∧ rest ≠ [] ∧ rest.length < 64 ∧ s.isF (Reg.swPortStatusDpRx src) = false ∧ s.getF (Reg.ptsCfgRxSel src) ≠ 3) 5 [1, 2] edge5 linked := by decide +kernel

theorem test_frame_end_7 : (fun (src : Nat) (rest : Bytes) (m : EdgeMeas) (s : State) => spGet none s.sw.rx src = none ∧ src < 48 ∧ receives src m s = true ∧ rest ≠ [] ∧ rest.length < 64 ∧ s.isF (Reg.swPortStatusDpRx src) = false ∧ s.getF (Reg.ptsCfgRxSel src) = 3) 5 [1, 2] edge5 (linked.setF (Reg.ptsCfgRxSel 5) 3) := by decide +kernel

theorem test_frame_end_8 : (fun (src : Nat) (rest : Bytes) (m : EdgeMeas) (s : State) => spGet none s.sw.rx src = none ∧ src < 48 ∧ receives src m s = true ∧ rest ≠ [] ∧ rest.length < 64 ∧ s.isF (Reg.swPortStatusDpRx src) = true) 5 [1, 2] edge5 (linked.setB (Reg.swPortStatusDpRx 5) true) := by decide +kernel

theorem test_frame_end_9 : (fun (src : Nat) (rest : Bytes) (m : EdgeMeas) (s : State) => spGet none s.sw.rx src = none ∧ (48 ≤ src ∨ receives src m s = false ∨ rest = [] ∨ 64 ≤ rest.length)) 5 [] edge5 linked := by decide +kernel

theorem test_egress_pick : (fun (egress : Nat) (q : Nat) (m : EdgeMeas) (c : Copy) (l : List Copy) (f : Frame) (s : State) => CanBegin egress m s ∧ mergeOf egress s = none ∧ (pickQueue egress s).1 = some q ∧ ((pickQueue egress s).2.bq (egress * 8 + q)).copies = c :: l ∧ (pickQueue egress s).2.poolFrame c.frame = some f ∧ f.broken = false ∧ s.mp.errs = []) 48 0 edge5 { Copy.none with frame := 7 } [] { frame with copies := 1 } queued := by unfold CanBegin; decide +kernel

theorem test_egress_pick_2 : (fun (egress : Nat) (m : EdgeMeas) (s : State) => CanBegin egress m s ∧ mergeOf egress s = none ∧ (pickQueue egress s).1 = none) 48 edge5 (queued.setBq 384 ⟨[], 0⟩) := by unfold CanBegin; decide +kernel

theorem test_egress_pick_3 : (fun (egress : Nat) (g : Nat) (m : EdgeMeas) (h : HeldFrame) (s : State) => CanBegin egress m s ∧ mergeOf egress s = some g ∧ (fmUnpoisoned 4096 g s).1 = some h ∧ fitsBefore egress (h.frame.data.length + 36) (fmUnpoisoned 4096 g s).2 = true) 9 2 edge9 held merging := by unfold CanBegin; decide +kernel

theorem test_egress_pick_4 : (fun (egress : Nat) (g : Nat) (m : EdgeMeas) (h : HeldFrame) (s : State) => CanBegin egress m s ∧ mergeOf egress s = some g ∧ (fmUnpoisoned 4096 g s).1 = some h ∧ fitsBefore egress (h.frame.data.length + 36) (fmUnpoisoned 4096 g s).2 = false) 9 2 edge9 held (merging.setRg 3 { RelGroup.reset with held := [⟨frame, true, 9, 0, [⟨9, 65537000000, false, false, false⟩], 0, 0, false, false⟩] }) := by unfold CanBegin; decide +kernel

theorem test_egress_pick_5 : (fun (egress : Nat) (m : EdgeMeas) (s : State) => CanBegin egress m s) 51 edge5 ready := by unfold CanBegin; decide +kernel

theorem test_egress_pick_6 : (fun (egress : Nat) (m : EdgeMeas) (s : State) => (52 ≤ egress ∨ (egress < 48 ∧ (s.mode egress = 0 ∨ (s.lane egress).held = true ∨ (s.lane egress).remoteFault = true)) ∨ measures egress m s = false ∨ spGet none s.sw.tx egress ≠ none ∨ released egress s = false)) 5 edge5 ready := by decide +kernel

theorem test_frame_tx_done : (fun (egress : Nat) (m : EdgeMeas) (x : TxFrame) (f : Frame) (s : State) => spGet none s.sw.tx egress = some x ∧ measures egress m s = true ∧ x.kind = 0 ∧ s.poolFrame x.copy.frame = some f ∧ f.whole = true) 48 edge5 (leaving 0) { frame with copies := 1 } (queued.setTx 48 (some (leaving 0))) := by decide +kernel

theorem test_frame_tx_done_2 : (fun (egress : Nat) (m : EdgeMeas) (x : TxFrame) (s : State) => spGet none s.sw.tx egress = some x ∧ measures egress m s = true ∧ x.kind ≠ 0) 5 edge5 (leaving 2) (linked.setTx 5 (some (leaving 2))) := by decide +kernel

theorem test_frame_tx_done_3 : (fun (egress : Nat) (m : EdgeMeas) (x : TxFrame) (s : State) => spGet none s.sw.tx egress = some x ∧ measures egress m s = true ∧ x.kind = 0 ∧ s.poolFrame x.copy.frame = none) 48 edge5 (leaving 0) (ready.setTx 48 (some (leaving 0))) := by decide +kernel

theorem test_frame_tx_done_4 : (fun (egress : Nat) (m : EdgeMeas) (s : State) => (spGet none s.sw.tx egress = none ∨ measures egress m s = false ∨
      (∃ x f, spGet none s.sw.tx egress = some x ∧ x.kind = 0 ∧ s.poolFrame x.copy.frame = some f ∧ f.whole = false))) 48 edge5 ready := Or.inl (by decide +kernel)

theorem test_sw_dp_slip : (fun (lane : Nat) (s : State) => lane < 48 ∧ s.isF (Reg.swDpStatusConn lane) = true ∧ s.getF (Reg.swDpStatusMode lane) = 1) 3 (((ready.setB (Reg.swDpStatusConn 3) true).setF (Reg.swDpStatusMode 3) 1)) := by decide +kernel

theorem test_sw_dp_slip_2 : (fun (lane : Nat) (s : State) => (48 ≤ lane ∨ s.isF (Reg.swDpStatusConn lane) = false ∨ s.getF (Reg.swDpStatusMode lane) ≠ 1)) 3 ready := by decide +kernel

/-! `TableCommandsComplete` -/

theorem test_ft_insert : (fun (c : Cmd) (s : State) => Starts ftInsertSpec c s) (entry 40 ([1, 0, 1, 0, 2, 0, 0, 0, 0, 9] ++ List.replicate 26 0 ++ [0, 7, 5, 0])) ready := by unfold Starts; decide +kernel

theorem test_ft_delete : (fun (c : Cmd) (s : State) => Starts ftDeleteSpec c s) (entry 40 ([1, 0, 1, 0, 2, 0, 0, 0, 0, 9] ++ List.replicate 26 0 ++ [0, 7, 5, 0])) (({ ready with ft := { ready.ft with slots := [(0, some (⟨[1, 0, 1, 0, 2, 0, 0, 0, 0, 9] ++ List.replicate 26 0, 4, 0, 7, 5⟩ : FtEntry))] } })) := by unfold Starts; decide +kernel

theorem test_ft_search : (fun (c : Cmd) (s : State) => Starts ftSearchSpec c s) (entry 40 ([1, 0, 1, 0, 2, 0, 0, 0, 0, 9] ++ List.replicate 26 0 ++ [0, 7, 5, 0])) (({ ready with ft := { ready.ft with slots := [(0, some (⟨[1, 0, 1, 0, 2, 0, 0, 0, 0, 9] ++ List.replicate 26 0, 4, 0, 7, 5⟩ : FtEntry))] } })) := by unfold Starts; decide +kernel

theorem test_ft_walk_open : (fun (c : Cmd) (s : State) => Starts ftWalkOpenSpec c s) (entry 16 [2, 0, 0, 0, 0, 0, 0, 0, 0, 0, 0, 0, 0, 0, 0, 0]) ready := by unfold Starts; decide +kernel

theorem test_ft_walk_next : (fun (c : Cmd) (s : State) => Starts ftWalkNextSpec c s) ({ entry 4 [4, 0, 0, 0] with rlen4k := 1, raddr := 4096 }) (({ ready with ft := { ready.ft with walk := some ⟨[], 0, [], 0, 5⟩ } })) := by unfold Starts; decide +kernel

theorem test_ft_walk_close : (fun (c : Cmd) (s : State) => Starts ftWalkCloseSpec c s) (entry 0 []) (({ ready with ft := { ready.ft with walk := some ⟨[], 0, [], 0, 5⟩ } })) := by unfold Starts; decide +kernel

theorem test_ft_flush_port : (fun (c : Cmd) (s : State) => Starts ftFlushPortSpec c s) (entry 16 [2, 0, 0, 0, 0, 0, 0, 0, 0, 0, 0, 0, 0, 0, 0, 0]) ready := by unfold Starts; decide +kernel

theorem test_ft_digest : (fun (c : Cmd) (s : State) => Starts ftDigestSpec c s) ({ entry 16 [2, 0, 0, 0, 0, 0, 0, 0, 0, 0, 0, 0, 0, 0, 0, 0] with rlen4k := 1, raddr := 4096 }) ready := by unfold Starts; decide +kernel

theorem test_ft_set_aging : (fun (c : Cmd) (s : State) => Starts ftSetAgingSpec c s) (entry 8 [44, 1, 0, 0, 3, 0, 0, 0]) ready := by unfold Starts; decide +kernel

theorem test_ft_learn_config : (fun (c : Cmd) (s : State) => Starts ftLearnConfigSpec c s) (entry 8 [44, 1, 0, 0, 3, 0, 3, 0]) ready := by unfold Starts; decide +kernel

theorem test_ft_route_write : (fun (c : Cmd) (s : State) => Starts ftRouteWriteSpec c s ∧ cu c 0 1 = 2) (entry 24 ([2, 0, 5, 0, 2, 0, 0, 0, 0, 1, 0, 7, 1, 0] ++ List.replicate 6 0 ++ [3, 1, 0, 0])) ready := by unfold Starts; decide +kernel

theorem test_ft_route_write_2 : (fun (c : Cmd) (s : State) => Starts ftRouteWriteSpec c s ∧ cu c 0 1 ≠ 2) (entry 24 ([0, 8, 0, 0, 10] ++ List.replicate 15 0 ++ [1, 3, 0, 0])) ready := by unfold Starts; decide +kernel

theorem test_ft_route_delete : (fun (c : Cmd) (s : State) => Starts ftRouteDeleteSpec c s ∧ cu c 0 1 = 2) (entry 24 ([2, 0, 5, 0] ++ List.replicate 20 0)) (({ ready with ft := { ready.ft with nexthops := [(5, some (⟨1, false, 7, 1, 3, true, false⟩ : NextHop))] } })) := by unfold Starts; decide +kernel

theorem test_ft_route_delete_2 : (fun (c : Cmd) (s : State) => Starts ftRouteDeleteSpec c s ∧ cu c 0 1 ≠ 2) (entry 24 (List.replicate 24 0)) { ready with ft := { ready.ft with routes := [⟨List.replicate 20 0, 0, 0, 0, [1], false⟩] } } := by unfold Starts; decide +kernel

/-! `TheAgerAndTheWalkTimerAct` -/

theorem test_ager_visit : (fun (slot : Nat) (s : State) => agerDue slot s = true) 0 ((({ ready with ft := { ready.ft with slots := [(0, some (⟨[1, 0, 1, 0, 2, 0, 0, 0, 0, 9] ++ List.replicate 26 0, 4, 0, 7, 5⟩ : FtEntry))] } }).setB Reg.ftAgeStatusEn true)) := by decide +kernel

theorem test_ager_visit_2 : (fun (slot : Nat) (x : FtEntry) (s : State) => agerDue slot s = true ∧ s.mp.errs = [] ∧ spGet none s.ft.slots (slotLoc slot) = some x ∧ bit x.eflags 0 = false) 0 ((⟨[1, 0, 1, 0, 2, 0, 0, 0, 0, 9] ++ List.replicate 26 0, 4, 0, 7, 5⟩ : FtEntry)) ((({ ready with ft := { ready.ft with slots := [(0, some (⟨[1, 0, 1, 0, 2, 0, 0, 0, 0, 9] ++ List.replicate 26 0, 4, 0, 7, 5⟩ : FtEntry))] } }).setB Reg.ftAgeStatusEn true)) := by decide +kernel

theorem test_ager_visit_3 : (fun (slot : Nat) (x : FtEntry) (s : State) => agerDue slot s = true ∧ s.mp.errs = [] ∧ spGet none s.ft.slots (slotLoc slot) = some x ∧ bit x.eflags 0 = true) 0 (({ (⟨[1, 0, 1, 0, 2, 0, 0, 0, 0, 9] ++ List.replicate 26 0, 4, 0, 7, 5⟩ : FtEntry) with eflags := 1 } : FtEntry)) ((({ ready with ft := { ready.ft with slots := [(0, some { (⟨[1, 0, 1, 0, 2, 0, 0, 0, 0, 9] ++ List.replicate 26 0, 4, 0, 7, 5⟩ : FtEntry) with eflags := 1 })] } }).setB Reg.ftAgeStatusEn true)) := by decide +kernel

theorem test_ager_visit_4 : (fun (slot : Nat) (s : State) => agerDue slot s = true ∧ s.mp.errs = [] ∧ spGet none s.ft.slots (slotLoc slot) = none) 0 (ready.setB Reg.ftAgeStatusEn true) := by decide +kernel

theorem test_ager_visit_5 : (fun (slot : Nat) (s : State) => agerDue slot s = false) 0 ready := by decide +kernel

theorem test_ft_walk_timeout : (fun (k : Walk) (s : State) => s.ft.walk = some k ∧ k.last + 7812500000 ≤ s.dtt) ((⟨[], 0, [], 0, 5⟩ : Walk)) (({ ({ ready with ft := { ready.ft with walk := some ⟨[], 0, [], 0, 5⟩ } }) with dtt := 10 ^ 10 })) := by decide +kernel

theorem test_ft_walk_timeout_2 : (fun (s : State) => (∀ k, s.ft.walk = some k → s.dtt < k.last + 7812500000)) ready := fun _ h => nomatch h

/-! `BufferCommandsComplete` -/

theorem test_bf_set_pool : (fun (c : Cmd) (s : State) => Starts bfSetPoolSpec c s) (entry 8 [5, 0, 0, 0, 1, 0, 0, 0]) ready := by unfold Starts; decide +kernel

theorem test_bf_set_queue : (fun (c : Cmd) (s : State) => Starts bfSetQueueSpec c s) (entry 20 [3, 2, 1, 9, 10, 15, 7, 0, 8, 0, 0, 0, 9, 0, 0, 0, 1, 0, 0, 0]) ready := by unfold Starts; decide +kernel

theorem test_bf_set_shaper : (fun (c : Cmd) (s : State) => Starts bfSetShaperSpec c s) (entry 12 [3, 8, 0, 0, 100, 0, 0, 0, 64, 6, 0, 0]) ready := by unfold Starts; decide +kernel

theorem test_bf_mcast_group : (fun (c : Cmd) (s : State) => Starts bfMcastGroupSpec c s) (entry 16 [5, 0, 2, 0, 0, 0, 0, 0, 0, 7, 1, 128, 2, 0, 5, 0]) ready := by unfold Starts; decide +kernel

theorem test_bf_spill_enable : (fun (c : Cmd) (s : State) => Starts bfSpillEnableSpec c s ∧ cu c 0 1 ≠ 0 ∧ ((bit (cu c 0 1) 0 && !s.awake 50) || (bit (cu c 0 1) 1 && !s.awake 51))) (entry 4 [1, 0, 0, 0]) { ready with islands := [], boot := { ready.boot with ddr := 3 } } := by unfold Starts; decide +kernel

theorem test_bf_spill_enable_2 : (fun (c : Cmd) (s : State) => Starts bfSpillEnableSpec c s ∧ cu c 0 1 ≠ 0 ∧ (((bit (cu c 0 1) 0 && !s.awake 50) || (bit (cu c 0 1) 1 && !s.awake 51)) = false)) (entry 4 [3, 0, 0, 0]) (({ (ready.setF Reg.bfSpillStatusChEn 0) with islands := [50, 51], boot := { ready.boot with ddr := 3 } })) := by unfold Starts; decide +kernel

theorem test_bf_spill_enable_3 : (fun (c : Cmd) (s : State) => Starts bfSpillEnableSpec c s ∧ cu c 0 1 = 0 ∧ (cbit c 1 0 = true ∨ anySpilled s = false)) (entry 4 [0, 1, 0, 0]) (((ready.setBq 3 ⟨[{ Copy.none with frame := 7, place := 2, ddr := [1] }], 0⟩).setF Reg.bfSpillStatusChEn 3)) := by unfold Starts; decide +kernel

theorem test_bf_spill_enable_4 : (fun (c : Cmd) (s : State) => Starts bfSpillEnableSpec c s ∧ cu c 0 1 = 0 ∧ cbit c 1 0 = false ∧ anySpilled s = true) (entry 4 [0, 0, 0, 0]) ((ready.setBq 3 ⟨[{ Copy.none with frame := 7, place := 2, ddr := [1] }], 0⟩)) := by unfold Starts; decide +kernel

/-! `TheSpillEngineMovesFrames` -/

theorem test_spill_write : (fun (queue : Nat) (c : Copy) (f : Frame) (s : State) => (s.bq queue).copies.find? (fun x => x.place = 1) = some c ∧ s.poolFrame c.frame = some f ∧ f.whole = true ∧ s.getF Reg.bfSpillStatusChEn ≠ 0 ∧ engineReady false s = true) 3 (({ Copy.none with frame := 7, place := 1 } : Copy)) (({ frame with copies := 1, cells := [5] } : Frame)) (((({ ready with bf := { ready.bf with frames := [(7, some { frame with copies := 1, cells := [5] })], staged := 1 } }).setF Reg.bfSpillStatusChEn 3).setBq 3 ⟨[{ Copy.none with frame := 7, place := 1 }], 0⟩)) := by decide +kernel

theorem test_spill_write_2 : (fun (queue : Nat) (s : State) => ((s.bq queue).copies.find? (fun x => x.place = 1) = none ∨ s.getF Reg.bfSpillStatusChEn = 0 ∨ engineReady false s = false ∨
      (∀ c f, (s.bq queue).copies.find? (fun x => x.place = 1) = some c → s.poolFrame c.frame = some f → f.whole = false))) 3 ready := Or.inl (by decide +kernel)

theorem test_spill_readback : (fun (queue : Nat) (c : Copy) (s : State) => (s.bq queue).copies.find? (fun x => x.place ≠ 0) = some c ∧ c.place = 2 ∧ engineReady true s = true ∧ (s.poolFrame c.frame).isSome = true) 3 (({ Copy.none with frame := 7, place := 2, ddr := [9] } : Copy)) (((({ ready with bf := { ready.bf with frames := [(7, some { frame with copies := 1, cells := [5] })], staged := 1 } }).setF Reg.bfSpillStatusChEn 3).setBq 3 ⟨[{ Copy.none with frame := 7, place := 2, ddr := [9] }], 0⟩)) := by decide +kernel

theorem test_spill_readback_2 : (fun (queue : Nat) (c : Copy) (s : State) => (s.bq queue).copies.find? (fun x => x.place ≠ 0) = some c ∧ c.place = 2 ∧ engineReady true s = true ∧ s.poolFrame c.frame = none) 3 { Copy.none with frame := 7, place := 2, ddr := [9] } ((({ ready with bf := { ready.bf with staged := 1 } }).setF Reg.bfSpillStatusChEn 3).setBq 3 ⟨[{ Copy.none with frame := 7, place := 2, ddr := [9] }], 0⟩) := by decide +kernel

theorem test_spill_readback_3 : (fun (queue : Nat) (s : State) => (engineReady true s = false ∨ (∀ c, (s.bq queue).copies.find? (fun x => x.place ≠ 0) = some c → c.place ≠ 2))) 3 { ready with bf := { ready.bf with engineFree := 10 ^ 9 } } := Or.inl (by decide +kernel)

theorem test_spill_drain_done : (fun (s : State) => s.isF Reg.bfSpillStatusDraining = true ∧ anySpilled s = false) (((ready.setB Reg.bfSpillStatusDraining true).setF Reg.bfSpillStatusChEn 3)) := by decide +kernel

theorem test_spill_drain_done_2 : (fun (s : State) => (s.isF Reg.bfSpillStatusDraining = false ∨ anySpilled s = true)) ready := by decide +kernel

/-! `MergeCommandsComplete` -/

theorem test_fm_group_set : (fun (c : Cmd) (s : State) => Starts fmGroupSetSpec c s) (entry 24 ([2, 9, 3, 75, 100, 0, 0, 0, 6] ++ List.replicate 15 0)) ready := by unfold Starts; decide +kernel

theorem test_fm_group_enable : (fun (c : Cmd) (s : State) => Starts fmGroupEnableSpec c s ∧ cu c 1 1 = 1) (entry 8 [2, 1, 2, 0, 9, 0, 0, 0]) (((ready.setF (Reg.fmPartMgGranules 2) 1).setB (Reg.swPortStatusL23Tx 0) true)) := by unfold Starts; decide +kernel

theorem test_fm_group_enable_2 : (fun (c : Cmd) (s : State) => Starts fmGroupEnableSpec c s ∧ cu c 1 1 = 0 ∧ cbit c 2 0 = true) (entry 8 [2, 0, 1, 0, 0, 0, 0, 0]) ((ready.setF (Reg.fmPartMgGranules 2) 1).setF (Reg.fmGStatusState 2) 1) := by unfold Starts; decide +kernel

theorem test_fm_group_enable_3 : (fun (c : Cmd) (s : State) => Starts fmGroupEnableSpec c s ∧ cu c 1 1 = 0 ∧ cbit c 2 0 = false) (entry 8 [2, 0, 0, 0, 0, 0, 0, 0]) ((ready.setF (Reg.fmPartMgGranules 2) 1).setF (Reg.fmGStatusState 2) 1) := by unfold Starts; decide +kernel

theorem test_fm_set_trim : (fun (c : Cmd) (s : State) => Starts fmSetTrimSpec c s) (entry 8 [5, 0, 0, 0, 100, 0, 0, 0]) ready := by unfold Starts; decide +kernel

theorem test_fm_partition : (fun (c : Cmd) (s : State) => Starts fmPartitionSpec c s) (entry 4 [1, 5, 7, 0]) ((ready.setF Reg.fmPartFreeGranules 256)) := by unfold Starts; decide +kernel

/-! `MergedFramesLeaveInKeyOrder` -/

theorem test_merged_frames_leave_in_key_order : (fun (g : Nat) (h : HeldFrame) (s : State) => fmWindow g s ≠ 0 ∧ fmReady g s = some h) 2 held (merging.setF (Reg.fmGCfgWindow 2) 1) := by decide +kernel

theorem test_merged_frames_leave_in_key_order_2 : (fun (g : Nat) (h : HeldFrame) (s : State) => fmWindow g s = 0 ∧ fmReady g s = some h) 2 held (merging.setF (Reg.fmGCfgWindow 2) 0) := by decide +kernel

theorem test_merge_due : (fun (g : Nat) (m : EdgeMeas) (h : HeldFrame) (s : State) => g < 16 ∧ fmState g s ≠ 0 ∧ CanBegin (fmEgress g s) m s ∧ mergeOf (fmEgress g s) s = some g ∧ s.mp.errs = [] ∧ fmReady g s = some h ∧ h.frame.broken = false ∧ h.frame.holdBad = false ∧ fitsBefore (fmEgress g s) (h.frame.data.length + 36) s = true ∧ ((s.isF (Reg.fmGCfgTrailer g) && needsBase 2 (2 * 256 + g) [(s.timeAt h.frame.domIn h.frame.tIn).toNat / 2 ^ 16,
      (s.servedTime (predicted (fmEgress g s) m s).1).toNat / 2 ^ 16] s) = false)) 2 edge9 held merging := by unfold CanBegin; decide +kernel

theorem test_merge_due_2 : (fun (g : Nat) (m : EdgeMeas) (h : HeldFrame) (s : State) => g < 16 ∧ fmState g s ≠ 0 ∧ CanBegin (fmEgress g s) m s ∧ mergeOf (fmEgress g s) s = some g ∧ s.mp.errs = [] ∧ fmReady g s = some h ∧ h.frame.broken = false ∧ h.frame.holdBad = false ∧ fitsBefore (fmEgress g s) (h.frame.data.length + 36) s = true ∧ ((s.isF (Reg.fmGCfgTrailer g) && needsBase 2 (2 * 256 + g) [(s.timeAt h.frame.domIn h.frame.tIn).toNat / 2 ^ 16,
      (s.servedTime (predicted (fmEgress g s) m s).1).toNat / 2 ^ 16] s) = true)) 2 edge9 held ((merging.setB (Reg.fmGCfgTrailer 2) true).setF Reg.tbStateCompact 4) := by unfold CanBegin; decide +kernel

theorem test_merge_due_3 : (fun (g : Nat) (m : EdgeMeas) (s : State) => g < 16 ∧ fmState g s ≠ 0 ∧ released (fmEgress g s) s = true ∧ measures (fmEgress g s) m s = true) 2 edge9 merging := by decide +kernel

theorem test_merge_due_4 : (fun (g : Nat) (s : State) => g < 16 ∧ fmState g s ≠ 0 ∧ released (fmEgress g s) s = false) 2 (((((((({ ready with islands := [48] }.setF (Reg.sdsStatusMode 9) 2).setB (Reg.sdsStatusLink 9) true).setB (Reg.swPortStatusL23Tx 9) true).setF (Reg.fmGStatusState 2) 1).setF (Reg.fmGCfgEgress 2) 9).setMg 2 { MergeGroup.reset with held := [⟨frame, 0, 0, false, some 0⟩] }).setB (Reg.sdsStatusLink 9) false)) := by decide +kernel

theorem test_merge_due_5 : (fun (g : Nat) (m : EdgeMeas) (s : State) => (16 ≤ g ∨ fmState g s = 0 ∨ (released (fmEgress g s) s = true ∧ measures (fmEgress g s) m s = false))) 16 edge9 ready := by decide +kernel

theorem test_fm_drain_done : (fun (g : Nat) (s : State) => g < 16 ∧ fmState g s = 2 ∧ (s.mg g).held = [] ∧ fmInUse g s = 0) 2 ((ready.setF (Reg.fmGStatusState 2) 2)) := by decide +kernel

theorem test_fm_drain_done_2 : (fun (g : Nat) (s : State) => (16 ≤ g ∨ fmState g s ≠ 2 ∨ (s.mg g).held ≠ [] ∨ fmInUse g s ≠ 0)) 2 ready := by decide +kernel

/-! `ReleaseCommandsComplete` -/

theorem test_er_group_set : (fun (c : Cmd) (s : State) => Starts erGroupSetSpec c s) (entry 24 ([2, 24, 3, 0, 100, 0, 0, 0, 6] ++ List.replicate 7 0 ++ [1, 1] ++ List.replicate 6 0)) ready := by unfold Starts; decide +kernel

theorem test_er_group_enable : (fun (c : Cmd) (s : State) => Starts erGroupEnableSpec c s ∧ cu c 1 1 = 1 ∧ erState (cu c 0 1) s = 0 ∧ alignWaits (cu c 0 1) (erGroupEnableEffect c (taken c s)).1 = false) (entry 8 [2, 1, 2, 0, 9, 0, 0, 0]) (((((ready.setF (Reg.fmPartRgGranules 2) 1).setF (Reg.erGMemb0 2) 32).setF (Reg.sdsStatusMode 5) 2).setB (Reg.swPortStatusL23Tx 5) true)) := by unfold Starts; decide +kernel

theorem test_er_group_enable_2 : (fun (c : Cmd) (s : State) => Starts erGroupEnableSpec c s ∧ cu c 1 1 = 1 ∧ erState (cu c 0 1) s = 0 ∧ alignWaits (cu c 0 1) (erGroupEnableEffect c (taken c s)).1 = true) (entry 8 [2, 1, 2, 0, 9, 0, 0, 0]) (((((((ready.setF (Reg.fmPartRgGranules 2) 1).setF (Reg.erGMemb0 2) 32).setF (Reg.sdsStatusMode 5) 2).setB (Reg.swPortStatusL23Tx 5) true).setB (Reg.sdsStatusLink 5) true).setB (Reg.sdsStatusTxOn 5) false)) := by unfold Starts; decide +kernel

theorem test_er_group_enable_3 : (fun (c : Cmd) (s : State) => Starts erGroupEnableSpec c s ∧ cu c 1 1 = 0 ∧ cbit c 2 0 = true) (entry 8 [2, 0, 1, 0, 0, 0, 0, 0]) ((ready.setF (Reg.erGStatusState 2) 1)) := by unfold Starts; decide +kernel

theorem test_er_group_enable_4 : (fun (c : Cmd) (s : State) => Starts erGroupEnableSpec c s ∧ cu c 1 1 = 0 ∧ cbit c 2 0 = false ∧ erState (cu c 0 1) s = 1) (entry 8 [2, 0, 0, 0, 0, 0, 0, 0]) ((ready.setF (Reg.erGStatusState 2) 1)) := by unfold Starts; decide +kernel

theorem test_er_group_enable_5 : (fun (c : Cmd) (s : State) => Starts erGroupEnableSpec c s ∧ ((cu c 1 1 = 1 ∧ erState (cu c 0 1) s ≠ 0) ∨ (cu c 1 1 = 0 ∧ cbit c 2 0 = false ∧ erState (cu c 0 1) s ≠ 1))) (entry 8 [2, 0, 0, 0, 0, 0, 0, 0]) (ready.setF (Reg.erGStatusState 2) 2) := by unfold Starts; decide +kernel

theorem test_er_set_trim : (fun (c : Cmd) (s : State) => Starts erSetTrimSpec c s) (entry 8 [5, 0, 0, 0, 100, 0, 0, 0]) ready := by unfold Starts; decide +kernel

/-! `ReleaseCopiesStartAtTheirInstant` -/

theorem test_release_copy_start : (fun (g : Nat) (port : Nat) (x : RelFrame) (k : RelCopy) (s : State) => erNext g port s = some (x, k) ∧ k.start - lineUnits (s.mode port) ≤ s.now80 + 65535 ∧ s.mp.errs = [] ∧ released port s = true ∧ (s.lane port).held = false ∧ (s.lane port).remoteFault = false ∧ x.frame.broken = false ∧ x.frame.holdBad = false ∧ spGet none s.sw.tx port = none) 2 5 ((⟨frame, true, 9, 0, [⟨5, 51200000000, false, false, false⟩], 0, 0, false, false⟩ : RelFrame)) ((⟨5, 51200000000, false, false, false⟩ : RelCopy)) ((((({ ready with islands := [48] }.setF (Reg.sdsStatusMode 5) 2).setB (Reg.sdsStatusLink 5) true).setB (Reg.swPortStatusL23Tx 5) true).setRg 2 { RelGroup.reset with held := [⟨frame, true, 9, 0, [⟨5, 51200000000, false, false, false⟩], 0, 0, false, false⟩] })) := by decide +kernel

theorem test_release_copy_start_2 : (fun (g : Nat) (port : Nat) (x : RelFrame) (k : RelCopy) (s : State) => erNext g port s = some (x, k) ∧ k.start - lineUnits (s.mode port) ≤ s.now80 + 65535 ∧ s.mp.errs = [] ∧ released port s = true ∧ (s.lane port).held = false ∧ (s.lane port).remoteFault = false ∧ x.frame.broken = false ∧ x.frame.holdBad = false ∧ (spGet none s.sw.tx port).isSome = true) 2 5 ⟨frame, true, 9, 0, [⟨5, 65536000000, false, false, false⟩], 0, 0, false, false⟩ ⟨5, 65536000000, false, false, false⟩ ((releasing 65536000000).setTx 5 (some (leaving 2))) := by decide +kernel

theorem test_release_copy_start_3 : (fun (g : Nat) (port : Nat) (x : RelFrame) (k : RelCopy) (s : State) => erNext g port s = some (x, k) ∧ k.start - lineUnits (s.mode port) ≤ s.now80 + 65535 ∧ s.mp.errs = [] ∧ x.frame.holdBad = true ∧ (∀ c ∈ x.copies, c.sending = false ∧ c.done = false)) 2 5 ⟨{ frame with holdBad := true }, true, 9, 0, [⟨5, 65536000000, false, false, false⟩], 0, 0, false, false⟩ ⟨5, 65536000000, false, false, false⟩ (releasing 65536000000 |>.setRg 2 { RelGroup.reset with held := [⟨{ frame with holdBad := true }, true, 9, 0, [⟨5, 65536000000, false, false, false⟩], 0, 0, false, false⟩] }) := by decide +kernel

theorem test_release_copy_start_4 : (fun (g : Nat) (port : Nat) (x : RelFrame) (k : RelCopy) (s : State) => erNext g port s = some (x, k) ∧ k.start - lineUnits (s.mode port) ≤ s.now80 + 65535 ∧ s.mp.errs = [] ∧ x.frame.broken = true ∧ (x.frame.holdBad = false ∨ (∃ c ∈ x.copies, c.sending = true ∨ c.done = true))) 2 5 ⟨{ frame with broken := true }, true, 9, 0, [⟨5, 65536000000, false, false, false⟩], 0, 0, false, false⟩ ⟨5, 65536000000, false, false, false⟩ (releasing 65536000000 |>.setRg 2 { RelGroup.reset with held := [⟨{ frame with broken := true }, true, 9, 0, [⟨5, 65536000000, false, false, false⟩], 0, 0, false, false⟩] }) := ⟨by decide +kernel, by decide +kernel, by decide +kernel, by decide +kernel, Or.inl (by decide +kernel)⟩

theorem test_release_copy_start_5 : (fun (g : Nat) (port : Nat) (x : RelFrame) (k : RelCopy) (s : State) => erNext g port s = some (x, k) ∧ k.start - lineUnits (s.mode port) ≤ s.now80 + 65535 ∧ s.mp.errs = [] ∧ x.frame.broken = false ∧ x.frame.holdBad = true ∧ (∃ c ∈ x.copies, c.sending = true ∨ c.done = true)) 2 5 ⟨{ frame with holdBad := true }, true, 9, 0, [⟨5, 65536000000, false, false, false⟩, ⟨7, 65536000000, true, true, true⟩], 0, 0, false, false⟩ ⟨5, 65536000000, false, false, false⟩ (releasing 65536000000 |>.setRg 2 { RelGroup.reset with held := [⟨{ frame with holdBad := true }, true, 9, 0, [⟨5, 65536000000, false, false, false⟩, ⟨7, 65536000000, true, true, true⟩], 0, 0, false, false⟩] }) := by decide +kernel

theorem test_release_copy_start_6 : (fun (g : Nat) (port : Nat) (x : RelFrame) (k : RelCopy) (s : State) => erNext g port s = some (x, k) ∧ k.start - lineUnits (s.mode port) ≤ s.now80 + 65535 ∧ s.mp.errs = [] ∧ x.frame.broken = false ∧ x.frame.holdBad = false ∧ (released port s = false ∨ (s.lane port).held = true ∨ (s.lane port).remoteFault = true)) 2 5 ((⟨frame, true, 9, 0, [⟨5, 51200000000, false, false, false⟩], 0, 0, false, false⟩ : RelFrame)) ((⟨5, 51200000000, false, false, false⟩ : RelCopy)) (((((({ ready with islands := [48] }.setF (Reg.sdsStatusMode 5) 2).setB (Reg.sdsStatusLink 5) true).setB (Reg.swPortStatusL23Tx 5) true).setRg 2 { RelGroup.reset with held := [⟨frame, true, 9, 0, [⟨5, 51200000000, false, false, false⟩], 0, 0, false, false⟩] }).setB (Reg.sdsStatusLink 5) false)) := by decide +kernel

theorem test_release_copy_start_7 : (fun (g : Nat) (port : Nat) (x : RelFrame) (k : RelCopy) (s : State) => erNext g port s = some (x, k) ∧ k.start - lineUnits (s.mode port) ≤ s.now80 + 65535) 2 5 ((⟨frame, true, 9, 0, [⟨5, 51200000000, false, false, false⟩], 0, 0, false, false⟩ : RelFrame)) ((⟨5, 51200000000, false, false, false⟩ : RelCopy)) ((((({ ready with islands := [48] }.setF (Reg.sdsStatusMode 5) 2).setB (Reg.sdsStatusLink 5) true).setB (Reg.swPortStatusL23Tx 5) true).setRg 2 { RelGroup.reset with held := [⟨frame, true, 9, 0, [⟨5, 51200000000, false, false, false⟩], 0, 0, false, false⟩] })) := by decide +kernel

theorem test_release_copy_start_8 : erNext 2 5 (releasing 65546000000) = some (⟨frame, true, 9, 0, [⟨5, 65546000000, false, false, false⟩], 0, 0, false, false⟩, ⟨5, 65546000000, false, false, false⟩) ∧
    (releasing 65546000000).now80 + 65535 < 65546000000 - lineUnits ((releasing 65546000000).mode 5) := by decide +kernel

theorem test_er_drain_done : (fun (g : Nat) (s : State) => g < 64 ∧ erState g s = 2 ∧ (s.rg g).held = []) 2 ((ready.setF (Reg.erGStatusState 2) 2)) := by decide +kernel

theorem test_er_drain_done_2 : (fun (g : Nat) (s : State) => (64 ≤ g ∨ erState g s ≠ 2 ∨ (s.rg g).held ≠ [])) 2 ready := by decide +kernel

/-! `EvidenceCommandsAndBlocksRun` -/

theorem test_evd_config : (fun (c : Cmd) (s : State) => Starts evdConfigSpec c s) (entry 28 ([232, 3, 0, 0, 8, 1, 0, 0, 0, 16] ++ List.replicate 14 0 ++ [4, 0, 0, 0])) ready := by unfold Starts; decide +kernel

theorem test_evd_get_pubkey : (fun (c : Cmd) (s : State) => Starts evdGetPubkeySpec c s) ({ entry 0 [] with rlen4k := 1, raddr := 4096 }) ready := by unfold Starts; decide +kernel

theorem test_evd_get_block : (fun (c : Cmd) (s : State) => Starts evdGetBlockSpec c s) ({ entry 12 [5, 0, 0, 0, 0, 0, 0, 0, 1, 0, 0, 0] with rlen4k := 1, raddr := 4096 }) ({ ready with evd := { ready.evd with store := [⟨0, 5, [1, 2, 3]⟩] } }) := by unfold Starts; decide +kernel

theorem test_cap_ring_set : (fun (c : Cmd) (s : State) => Starts capRingSetSpec c s) (entry 20 ([3, 8, 0, 0, 0, 16] ++ List.replicate 6 0 ++ [4, 0, 9, 0, 0, 0, 0, 0])) ready := by unfold Starts; decide +kernel

theorem test_cap_ring_enable : (fun (c : Cmd) (s : State) => Starts capRingEnableSpec c s ∧ cu c 1 1 = 1 ∧ s.isF (Reg.capNrCfgEn (cu c 0 1)) = false) (entry 4 [3, 1, 0, 0]) (ready.setNetRing 3 ⟨4096, 1, 0, true, 0, false, ⟨[], none⟩⟩) := by unfold Starts; decide +kernel

theorem test_cap_ring_enable_2 : (fun (c : Cmd) (s : State) => Starts capRingEnableSpec c s ∧ (cu c 1 1 = 0 ∨ s.isF (Reg.capNrCfgEn (cu c 0 1)) = true)) (entry 4 [3, 0, 0, 0]) ((ready.setB (Reg.capNrCfgEn 3) true)) := by unfold Starts; decide +kernel

theorem test_cap_select : (fun (c : Cmd) (s : State) => Starts capSelectSpec c s) (entry 16 ([2, 3, 3, 64, 1, 0, 0, 0, 7] ++ List.replicate 7 0)) ready := by unfold Starts; decide +kernel

theorem test_evd_block_close : (fun (s : State) => s.evd.isOpen = true ∧ onBoundary s = true ∧ s.evd.dttStart < s.dtt ∧ s.isF Reg.gdSecStatusZeroised = false ∧ s.isF Reg.gdSecStatusEvdError = false ∧ s.evd.nextPeriod = none ∧ blockSigned (s.get64 Reg.evdBlock) false s = true) ((({ ready with dtt := 2343750, evd := { ready.evd with isOpen := true, dttStart := 1562500 } }).setF Reg.evdStatusPeriodUs 1000)) := by decide +kernel

theorem test_evd_block_close_2 : (fun (s : State) => s.evd.isOpen = true ∧ onBoundary s = true ∧ s.evd.dttStart < s.dtt ∧ s.isF Reg.gdSecStatusZeroised = false ∧ s.isF Reg.gdSecStatusEvdError = false ∧ s.evd.nextPeriod = none ∧ blockSigned (s.get64 Reg.evdBlock) false s = false) ((({ ready with dtt := 2343750, evd := { ready.evd with isOpen := true, dttStart := 1562500 } }).setF Reg.evdStatusPeriodUs 500)) := by decide +kernel

theorem test_evd_block_close_3 : (fun (p : Nat) (s : State) => s.evd.isOpen = true ∧ onBoundary s = true ∧ s.evd.dttStart < s.dtt ∧ s.isF Reg.gdSecStatusZeroised = false ∧ s.isF Reg.gdSecStatusEvdError = false ∧ s.evd.nextPeriod = some p) 100 ((({ ready with dtt := 2343750, evd := { ready.evd with isOpen := true, dttStart := 1562500, nextPeriod := some 100 } }).setF Reg.evdStatusPeriodUs 500)) := by decide +kernel

theorem test_evd_block_close_4 : (fun (s : State) => (s.evd.isOpen = false ∨ onBoundary s = false ∨ s.dtt ≤ s.evd.dttStart ∨ s.isF Reg.gdSecStatusZeroised = true ∨ s.isF Reg.gdSecStatusEvdError = true)) ready := by decide +kernel

theorem test_evd_block_signed : (fun (h : EvdHeader) (l : List EvdHeader) (s : State) => s.isF Reg.gdSecStatusZeroised = false ∧ s.isF Reg.gdSecStatusEvdError = false ∧ s.evd.signing = h :: l) ((⟨0, 5, []⟩ : EvdHeader)) (([] : List EvdHeader)) ({ ready with evd := { ready.evd with signing := [⟨0, 5, []⟩] } }) := by decide +kernel

theorem test_evd_block_signed_2 : (fun (s : State) => (s.isF Reg.gdSecStatusZeroised = true ∨ s.isF Reg.gdSecStatusEvdError = true ∨ s.evd.signing = [])) ready := by decide +kernel

theorem test_evd_record : (fun (x : EvdRec) (l : List EvdRec) (s : State) => s.evd.isOpen = true ∧ s.evd.waiting = x :: l) ((⟨0x10, 1, 97, 5, []⟩ : EvdRec)) (([] : List EvdRec)) ({ ready with evd := { ready.evd with isOpen := true, waiting := [⟨0x10, 1, 97, 5, []⟩] } }) := by decide +kernel

theorem test_evd_record_2 : (fun (s : State) => (s.evd.isOpen = false ∨ s.evd.waiting = [])) ready := by decide +kernel

/-! `TwinCommandsComplete` -/

theorem test_tw_enable : (fun (c : Cmd) (s : State) => Starts twEnableSpec c s ∧ cbit c 1 0 = true) ({ entry 24 [1, 1, 100, 0, 100, 0, 0, 0, 0, 0, 0, 0, 0, 0, 0, 0, 0, 0, 0, 0, 255, 7, 0, 0] with meas := [0] }) (({ ((ready.setF Reg.twStatusState 2).setB Reg.twStatusLinkUp true).setB Reg.twStatusAligned true with tw := { ready.tw with hb := some ⟨999000, 4, 64, 64, 0, false, 1, 9⟩ } } : State)) := by unfold Starts; decide +kernel

theorem test_tw_enable_2 : (fun (c : Cmd) (s : State) => Starts twEnableSpec c s ∧ cbit c 1 0 = false ∧ cu c 0 1 = 1 ∧ s.twinState = 0 ∧ portEnabled 48 s = true ∧ s.awake 61 = false) (entry 24 [1, 2, 100, 0, 100, 0, 0, 0, 0, 0, 0, 0, 0, 0, 0, 0, 0, 0, 0, 0, 255, 7, 0, 0]) ((ready.setF Reg.gdPortEn1A 65536)) := by unfold Starts; decide +kernel

theorem test_tw_enable_3 : (fun (c : Cmd) (s : State) => Starts twEnableSpec c s ∧ cbit c 1 0 = false ∧ cu c 0 1 = 1 ∧ s.twinState = 0 ∧ portEnabled 48 s = true ∧ s.awake 61 = true) (entry 24 [1, 2, 100, 0, 100, 0, 0, 0, 0, 0, 0, 0, 0, 0, 0, 0, 0, 0, 0, 0, 255, 7, 0, 0]) ({ ready with islands := [61] }.setF Reg.gdPortEn1A 65536) := by unfold Starts; decide +kernel

theorem test_tw_enable_4 : (fun (c : Cmd) (s : State) => Starts twEnableSpec c s ∧ cbit c 1 0 = false ∧ cu c 0 1 = 1 ∧ s.twinState = 0 ∧ portEnabled 48 s = false) (entry 24 [1, 2, 100, 0, 100, 0, 0, 0, 0, 0, 0, 0, 0, 0, 0, 0, 0, 0, 0, 0, 255, 7, 0, 0]) (ready.setF Reg.gdPortEn1A 0) := by unfold Starts; decide +kernel

theorem test_tw_enable_5 : (fun (c : Cmd) (s : State) => Starts twEnableSpec c s ∧ cbit c 1 0 = false ∧ ((cu c 0 1 = 1 ∧ s.twinState ≠ 0) ∨ (cu c 0 1 = 0 ∧ s.twinState = 0))) (entry 24 [1, 2, 100, 0, 100, 0, 0, 0, 0, 0, 0, 0, 0, 0, 0, 0, 0, 0, 0, 0, 255, 7, 0, 0]) ((ready.setF Reg.twStatusState 1).setB Reg.twStatusLinkUp true) := by unfold Starts; decide +kernel

theorem test_tw_enable_6 : (fun (c : Cmd) (s : State) => Starts twEnableSpec c s ∧ cbit c 1 0 = false ∧ cu c 0 1 = 0 ∧ s.twinState ≠ 0) (entry 24 [0, 2, 100, 0, 100, 0, 0, 0, 0, 0, 0, 0, 0, 0, 0, 0, 0, 0, 0, 0, 255, 7, 0, 0]) ((ready.setF Reg.twStatusState 1).setB Reg.twStatusLinkUp true) := by unfold Starts; decide +kernel

theorem test_tw_takeover : (fun (c : Cmd) (s : State) => Starts twTakeoverSpec c s ∧ s.twinState = 3) (entry 0 []) (((ready.setF Reg.twStatusState 3).setB Reg.twStatusLinkUp true)) := by unfold Starts; decide +kernel

theorem test_tw_takeover_2 : (fun (c : Cmd) (s : State) => Starts twTakeoverSpec c s ∧ s.twinState ≠ 3) (entry 0 []) (((ready.setF Reg.twStatusState 4).setB Reg.twStatusLinkUp true)) := by unfold Starts; decide +kernel

theorem test_tw_takeback : (fun (c : Cmd) (s : State) => Starts twTakebackSpec c s) (entry 0 []) (({ ((ready.setF Reg.twStatusState 3).setB Reg.twStatusLinkUp true) with regs := spIns ((ready.setF Reg.twStatusState 3).setB Reg.twStatusLinkUp true).regs Reg.twStatusPref.key 1 } : State)) := by unfold Starts; decide +kernel

theorem test_tw_status : (fun (c : Cmd) (s : State) => Starts twStatusSpec c s) (entry 0 []) ready := by unfold Starts; decide +kernel

theorem test_tw_set_wtr : (fun (c : Cmd) (s : State) => Starts twSetWtrSpec c s) (entry 4 [44, 1, 0, 0]) ready := by unfold Starts; decide +kernel

/-! `TwinLinkAndTakeoverRun` -/

theorem test_tw_heartbeat_tx : (fun (s : State) => twHears s = true ∧ 15625 ≤ (s.dtt - s.tw.lastHb) * 2) (((ready.setF Reg.twStatusState 4).setB Reg.twStatusLinkUp true)) := by decide +kernel

theorem test_tw_heartbeat_tx_2 : (fun (s : State) => (twHears s = false ∨ (s.dtt - s.tw.lastHb) * 2 < 15625)) ready := by decide +kernel

theorem test_tw_heartbeat_rx : (fun (s : State) => twHears s = false) ready := by decide +kernel

theorem test_tw_heartbeat_rx_2 : (fun (s : State) => twHears s = true) (((ready.setF Reg.twStatusState 3).setB Reg.twStatusLinkUp true)) := by decide +kernel

theorem test_tw_heartbeat_rx_3 : (fun (s : State) => twHears s = true ∧ s.twinState = 1) ((ready.setF Reg.twStatusState 1).setB Reg.twStatusLinkUp true) := by decide +kernel

theorem test_tw_heartbeat_rx_4 : (fun (state : Nat) (s : State) => twHears s = true ∧ (s.twinState = 4 ∨ s.twinState = 5) ∧ (state = 4 ∨ state = 5)) 4 (((ready.setF Reg.twStatusState 4).setB Reg.twStatusLinkUp true)) := by decide +kernel

theorem test_tw_heartbeat_rx_5 : (fun (state : Nat) (s : State) => twHears s = true ∧ s.twinState = 5 ∧ state = 3) 3 (((ready.setF Reg.twStatusState 5).setB Reg.twStatusLinkUp true)) := by decide +kernel

theorem test_tw_heartbeat_rx_6 : (fun (s : State) => twHears s = true ∧ s.twinState = 3 ∧ s.isF Reg.twStatusAligned = true) ((((ready.setF Reg.twStatusState 3).setB Reg.twStatusLinkUp true).setB Reg.twStatusAligned true)) := by decide +kernel

theorem test_tw_heartbeat_rx_7 : (fun (state : Nat) (s : State) => twHears s = true ∧ s.twinState ≠ 1 ∧ (¬((s.twinState = 4 ∨ s.twinState = 5) ∧ (state = 4 ∨ state = 5))) ∧ (¬(s.twinState = 5 ∧ state = 3))) 0 ((ready.setF Reg.twStatusState 2).setB Reg.twStatusLinkUp true) := by decide +kernel

theorem test_tw_time_tx : (fun (s : State) => (s.twinState = 4 ∨ s.twinState = 5) ∧ s.tw.lastTime + 781250 ≤ s.dtt) (((ready.setF Reg.twStatusState 4).setB Reg.twStatusLinkUp true)) := by decide +kernel

theorem test_tw_time_tx_2 : (fun (s : State) => ((s.twinState ≠ 4 ∧ s.twinState ≠ 5) ∨ s.dtt < s.tw.lastTime + 781250)) ready := by decide +kernel

theorem test_tw_time_rx : (fun (here : Nat) (timeA : Int) (timeB : Int) (s : State) => twHears s = true ∧ s.twinState = 2 ∧ holds 0x0E01 s = true ∧ stepBeyondGuard (timeA - s.timeAt 0 (here * 2 ^ 16)) s = false ∧ stepBeyondGuard (timeB - s.timeAt 1 (here * 2 ^ 16)) s = false) 1000000 83886080000 83886080000 { (ready.setF Reg.twStatusState 2).setB Reg.twStatusLinkUp true with mbx := { ready.mbx with held := some ⟨0x0E01, entry 0 [], 0, 1000000, none, false, false⟩ } } := by decide +kernel

theorem test_tw_time_rx_2 : (fun (here : Nat) (timeA : Int) (s : State) => twHears s = true ∧ s.twinState = 2 ∧ holds 0x0E01 s = true ∧ stepBeyondGuard (timeA - s.timeAt 0 (here * 2 ^ 16)) s = true) 1000000 0 { ((ready.setF Reg.twStatusState 2).setF Reg.gdStepMaxA 10).setB Reg.twStatusLinkUp true with mbx := { ready.mbx with held := some ⟨0x0E01, entry 0 [], 0, 1000000, none, false, false⟩ } } := by decide +kernel

theorem test_tw_time_rx_3 : (fun (here : Nat) (timeA : Int) (timeB : Int) (s : State) => twHears s = true ∧ s.twinState = 2 ∧ holds 0x0E01 s = true ∧ stepBeyondGuard (timeA - s.timeAt 0 (here * 2 ^ 16)) s = false ∧ stepBeyondGuard (timeB - s.timeAt 1 (here * 2 ^ 16)) s = true) 1000000 (ready.timeAt 0 (1000000 * 2 ^ 16)) 0 { ((ready.setF Reg.twStatusState 2).setF Reg.gdStepMaxA 10).setB Reg.twStatusLinkUp true with mbx := { ready.mbx with held := some ⟨0x0E01, entry 0 [], 0, 1000000, none, false, false⟩ } } := by decide +kernel

theorem test_tw_time_rx_4 : (fun (s : State) => twHears s = true ∧ s.twinState = 3 ∧ s.tw.offDue = false) (((ready.setF Reg.twStatusState 3).setB Reg.twStatusLinkUp true)) := by decide +kernel

theorem test_tw_time_rx_5 : (fun (s : State) => twHears s = true ∧ s.twinState = 3 ∧ s.tw.offDue = true) { (ready.setF Reg.twStatusState 3).setB Reg.twStatusLinkUp true with tw := { ready.tw with offDue := true } } := by decide +kernel

theorem test_tw_time_rx_6 : (fun (s : State) => twHears s = true ∧ s.twinState ≠ 3 ∧ (s.twinState ≠ 2 ∨ holds 0x0E01 s = false)) ((ready.setF Reg.twStatusState 2).setB Reg.twStatusLinkUp true) := by decide +kernel

theorem test_tw_mirror_rx : (fun (s : State) => twHears s = true ∧ s.twinState = 3) (((ready.setF Reg.twStatusState 3).setB Reg.twStatusLinkUp true)) := by decide +kernel

theorem test_tw_mirror_rx_2 : (fun (s : State) => twHears s = true ∧ s.twinState ≠ 3) ((ready.setF Reg.twStatusState 4).setB Reg.twStatusLinkUp true) := by decide +kernel

theorem test_tw_ack_rx : (fun (s : State) => twHears s = true) ((ready.setF Reg.twStatusState 4).setB Reg.twStatusLinkUp true) := by decide +kernel

theorem test_tw_ack_rx_2 : (fun (seq : Nat) (x : AckWait) (s : State) => twHears s = true ∧ s.mbx.ackWait = some x ∧ x.seq = seq ∧ (∃ a, (seq, a) ∈ s.tw.forwarded)) 4 ⟨.general, entry 0 [], ⟨7, 0x0202, 0, 0, 0, 0, 0, 0, 0, []⟩, 200000, true, 4, false⟩ { (ready.setF Reg.twStatusState 4).setB Reg.twStatusLinkUp true with mbx := { ready.mbx with ackWait := some ⟨.general, entry 0 [], ⟨7, 0x0202, 0, 0, 0, 0, 0, 0, 0, []⟩, 200000, true, 4, false⟩ }, tw := { ready.tw with forwarded := [(4, none)] } } := ⟨by decide +kernel, by decide +kernel, by decide, none, by decide +kernel⟩

theorem test_tw_ack_rx_3 : (fun (x : AckWait) (y : Nat × Option (Nat × Nat)) (s : State) => twHears s = true ∧ s.mbx.ackWait = some x ∧ s.tw.forwarded.find? (fun z => z.1 = x.seq) = some y ∧ y.2 = none ∧ x.seq ≠ 4)
    (⟨.general, entry 0 [], ⟨7, 0x0202, 0, 0, 0, 0, 0, 0, 0, []⟩, 200000, true, 5, false⟩) (5, none) ({ (ready.setF Reg.twStatusState 4).setB Reg.twStatusLinkUp true with mbx := { ready.mbx with ackWait := some ⟨.general, entry 0 [], ⟨7, 0x0202, 0, 0, 0, 0, 0, 0, 0, []⟩, 200000, true, 5, false⟩ }, tw := { ready.tw with forwarded := [(5, none)] } }) := by decide +kernel

theorem test_tw_ack_rx_4 : (fun (seq : Nat) (x : AckWait) (y : Nat × Option (Nat × Nat)) (a : Nat × Nat) (s : State) => twHears s = true ∧ s.mbx.ackWait = some x ∧ x.seq ≠ seq ∧ s.tw.forwarded.find? (fun z => z.1 = x.seq) = some y ∧ y.2 = some a) 4 ⟨.general, entry 0 [], ⟨7, 0x0202, 0, 0, 0, 0, 0, 0, 0, []⟩, 200000, true, 5, false⟩ (5, some (0, 0)) (0, 0) { (ready.setF Reg.twStatusState 4).setB Reg.twStatusLinkUp true with mbx := { ready.mbx with ackWait := some ⟨.general, entry 0 [], ⟨7, 0x0202, 0, 0, 0, 0, 0, 0, 0, []⟩, 200000, true, 5, false⟩ }, tw := { ready.tw with forwarded := [(5, some (0, 0))] } } := by decide +kernel

theorem test_mirror_ack_timeout : (fun (x : AckWait) (s : State) => s.mbx.ackWait = some x ∧ x.finished + 781250 ≤ s.dtt) ⟨.general, entry 0 [], ⟨7, 0x0202, 0, 0, 0, 0, 0, 0, 0, []⟩, 200000, true, 5, false⟩ { (ready.setF Reg.twStatusState 4).setB Reg.twStatusLinkUp true with mbx := { ready.mbx with ackWait := some ⟨.general, entry 0 [], ⟨7, 0x0202, 0, 0, 0, 0, 0, 0, 0, []⟩, 200000, true, 5, false⟩ }, tw := { ready.tw with forwarded := [(5, none)] } } := by decide +kernel

theorem test_mirror_ack_timeout_2 : (fun (x : AckWait) (s : State) => s.mbx.ackWait = some x ∧ s.dtt < x.finished + 781250)
    (⟨.general, entry 0 [], ⟨7, 0x0202, 0, 0, 0, 0, 0, 0, 0, []⟩, 200000, true, 5, false⟩) ({ { (ready.setF Reg.twStatusState 4).setB Reg.twStatusLinkUp true with mbx := { ready.mbx with ackWait := some ⟨.general, entry 0 [], ⟨7, 0x0202, 0, 0, 0, 0, 0, 0, 0, []⟩, 200000, true, 5, false⟩ }, tw := { ready.tw with forwarded := [(5, none)] } } with dtt := 200000 }) := by decide +kernel

theorem test_tw_claim_rx : (fun (s : State) => twHears s = true) (((ready.setF Reg.twStatusState 4).setB Reg.twStatusLinkUp true)) := by decide +kernel

theorem test_tw_claim_rx_2 : (fun (claim : Nat) (kind : Nat) (s : State) => twHears s = true ∧ s.twinState = 4 ∧ s.getF Reg.twClaim < claim ∧ (kind = 2 ∨ (s.innerLocked = true ∧ s.isF Reg.hstStatusReady = true))) 3 2 (((ready.setF Reg.twStatusState 4).setB Reg.twStatusLinkUp true)) := by decide +kernel

theorem test_tw_claim_rx_3 : (fun (claim : Nat) (kind : Nat) (s : State) => twHears s = true ∧ (s.twinState ≠ 4 ∨ claim ≤ s.getF Reg.twClaim ∨ (kind ≠ 2 ∧ (s.innerLocked = false ∨ s.isF Reg.hstStatusReady = false)))) 0 0 ((ready.setF Reg.twStatusState 1).setB Reg.twStatusLinkUp true) := by decide +kernel

theorem test_tw_link_timeout : (fun (s : State) => s.twinState = 1 ∧ s.tw.entered + 7812500000 ≤ s.dtt) (({ ((ready.setF Reg.twStatusState 1).setB Reg.twStatusLinkUp true) with dtt := 7812500000 } : State)) := by decide +kernel

theorem test_tw_link_timeout_2 : (fun (s : State) => (s.twinState ≠ 1 ∨ s.dtt < s.tw.entered + 7812500000)) ready := by decide +kernel

theorem test_tw_hb_miss : (fun (s : State) => partnerAlive s = false ∧ s.twinState = 4) (((ready.setF Reg.twStatusState 4).setB Reg.twStatusLinkUp true)) := by decide +kernel

theorem test_tw_hb_miss_2 : (fun (s : State) => partnerAlive s = false ∧ s.twinState = 3 ∧ s.isF Reg.twStatusTwclkOk = false) (((ready.setF Reg.twStatusState 3).setB Reg.twStatusLinkUp true)) := by decide +kernel

theorem test_tw_hb_miss_3 : (fun (s : State) => partnerAlive s = false ∧ s.twinState = 3 ∧ s.isF Reg.twStatusTwclkOk = true) ((((ready.setF Reg.twStatusState 3).setB Reg.twStatusLinkUp true).setB Reg.twStatusTwclkOk true)) := by decide +kernel

theorem test_tw_hb_miss_4 : (fun (s : State) => (partnerAlive s = true ∨ (s.twinState ≠ 3 ∧ s.twinState ≠ 4) ∨ (s.twinState = 3 ∧ s.isF Reg.twStatusTwclkOk = true ∧ s.isF Reg.twStatusLinkFault = true))) ready := by decide +kernel

theorem test_tw_fault_timeout : (fun (f : Nat) (s : State) => s.tw.faultFrom = some f ∧ s.twinState = 3 ∧ f + 781250 ≤ s.dtt) 200000 (({ ((ready.setF Reg.twStatusState 3).setB Reg.twStatusLinkUp true) with tw := { ready.tw with faultFrom := some 200000 } } : State)) := by decide +kernel

theorem test_tw_fault_timeout_2 : (fun (s : State) => (s.twinState ≠ 3 ∨ (∀ f, s.tw.faultFrom = some f → s.dtt < f + 781250))) ready := Or.inl (by decide +kernel)

theorem test_tw_twclk_loss : (fun (s : State) => s.isF Reg.twStatusTwclkOk = true) (ready.setB Reg.twStatusTwclkOk true) := by decide +kernel

theorem test_tw_twclk_loss_2 : (fun (s : State) => s.isF Reg.twStatusTwclkOk = false) ready := by decide +kernel

theorem test_tw_align : (fun (s : State) => s.awake 61 = true ∧ (s.twinState = 2 ∨ s.twinState = 3)) (({ ((ready.setF Reg.twStatusState 3).setB Reg.twStatusLinkUp true) with islands := [61] } : State)) := by decide +kernel

theorem test_tw_align_2 : (fun (s : State) => s.awake 61 = true ∧ s.twinState ≠ 0 ∧ s.twinState ≠ 2 ∧ s.twinState ≠ 3) { (ready.setF Reg.twStatusState 4).setB Reg.twStatusLinkUp true with islands := [61] } := by decide +kernel

theorem test_tw_align_3 : (fun (s : State) => (s.twinState = 0 ∨ s.awake 61 = false)) ready := by decide +kernel

theorem test_tw_wtr_expiry : (fun (u : Nat) (s : State) => s.tw.wtrUntil = some u ∧ s.twinState = 3 ∧ u ≤ s.dtt ∧ s.tw.mirrors = []) 200000 (({ ((ready.setF Reg.twStatusState 3).setB Reg.twStatusLinkUp true) with tw := { ready.tw with wtrUntil := some 200000 } } : State)) := by decide +kernel

theorem test_tw_wtr_expiry_2 : (fun (s : State) => (s.tw.wtrUntil = none ∨ s.twinState ≠ 3 ∨ (∀ u, s.tw.wtrUntil = some u → s.dtt < u) ∨ s.tw.mirrors ≠ [])) ready := Or.inl (by decide +kernel)

theorem test_twin_link_down : (fun (s : State) => s.isF Reg.twStatusLinkUp = true) ((ready.setF Reg.twStatusState 3).setB Reg.twStatusLinkUp true) := by decide +kernel

theorem test_twin_link_down_2 : (fun (s : State) => s.isF Reg.twStatusLinkUp = false) ready := by decide +kernel

/-! `CounterCommandsComplete` -/

theorem test_ct_clear : (fun (c : Cmd) (s : State) => Starts ctClearSpec c s) ({ entry 12 [5, 0, 0, 0, 2, 0, 0, 0, 1, 0, 0, 0] with rlen4k := 1, raddr := 4096 }) ready := by unfold Starts; decide +kernel

theorem test_ct_preset : (fun (c : Cmd) (s : State) => Starts ctPresetSpec c s) (entry 16 [5, 0, 0, 0, 0, 0, 0, 0, 9, 0, 0, 0, 0, 0, 0, 0]) ready := by unfold Starts; decide +kernel

theorem test_ct_set_threshold : (fun (c : Cmd) (s : State) => Starts ctSetThresholdSpec c s ∧ cu c 0 1 = 0) (entry 12 [0, 9, 2, 0, 17, 0, 0, 0, 100, 0, 0, 0]) ready := by unfold Starts; decide +kernel

theorem test_ct_set_threshold_2 : (fun (c : Cmd) (s : State) => Starts ctSetThresholdSpec c s ∧ cu c 0 1 ≠ 0) (entry 12 [1, 0, 0, 0, 128, 2, 0, 0, 64, 0, 0, 0]) ready := by unfold Starts; decide +kernel

theorem test_ct_window_map : (fun (c : Cmd) (s : State) => Starts ctWindowMapSpec c s) (entry 8 [5, 0, 1, 0, 7, 0, 0, 128]) ready := by unfold Starts; decide +kernel

theorem test_ct_latency_sample : (fun (c : Cmd) (s : State) => Starts ctLatencySampleSpec c s) (entry 16 [3, 5, 7, 0, 2, 0, 0, 0, 255, 0, 0, 0, 1, 0, 0, 0]) ready := by unfold Starts; decide +kernel

theorem test_bw_window_end : (fun (port : Nat) (dir : Nat) (octets : Nat) (peak : Nat) (slot : Nat) (s : State) => port < 48 ∧ dir < 2 ∧ peak ≤ octets ∧ slot < s.getF Reg.ctBwLong / s.getF Reg.ctBwShort ∧ s.bwFrom + s.getF Reg.ctBwLong ≤ s.dtt / s.getF Reg.ctBwLong * s.getF Reg.ctBwLong ∧ spGet 0 s.bwEnds (port * 2 + dir) < s.dtt / s.getF Reg.ctBwLong * s.getF Reg.ctBwLong) 5 1 1000 64 2 ready := by decide +kernel

theorem test_bw_window_end_2 : (fun (port : Nat) (dir : Nat) (octets : Nat) (peak : Nat) (slot : Nat) (s : State) => (48 ≤ port ∨ 2 ≤ dir ∨ octets < peak ∨ s.getF Reg.ctBwLong / s.getF Reg.ctBwShort ≤ slot ∨ s.dtt / s.getF Reg.ctBwLong * s.getF Reg.ctBwLong < s.bwFrom + s.getF Reg.ctBwLong ∨
      s.dtt / s.getF Reg.ctBwLong * s.getF Reg.ctBwLong ≤ spGet 0 s.bwEnds (port * 2 + dir))) 48 0 0 0 0 ready := by decide +kernel

/-! `MemoryProtectionCommandsComplete` -/

theorem test_mp_scrub : (fun (c : Cmd) (s : State) => Starts mpScrubSpec c s) (({ entry 24 ([8, 0, 0, 0, 60, 0, 0, 0] ++ List.replicate 8 0 ++ List.replicate 8 255) with rlen4k := 1, raddr := 4096 } : Cmd)) ready := by unfold Starts; decide +kernel

theorem test_mp_scrub_summary : (fun (c : Cmd) (s : State) => Starts mpScrubSummarySpec c s) ({ entry 0 [] with rlen4k := 1, raddr := 4096 }) ready := by unfold Starts; decide +kernel

theorem test_mp_inject : (fun (c : Cmd) (s : State) => Starts mpInjectSpec c s ∧ cu c 1 1 = 0) (entry 16 ([4, 0, 0, 0, 0, 0, 0, 0, 9] ++ List.replicate 7 0)) (({ ready with mp := { ready.mp with sticky := [(mpWord 4 9, 3)] } } : State)) := by unfold Starts; decide +kernel

theorem test_mp_inject_2 : (fun (c : Cmd) (s : State) => Starts mpInjectSpec c s ∧ cu c 1 1 ≠ 0) (entry 16 ([4, 1, 5, 1, 0, 0, 0, 0, 9] ++ List.replicate 7 0)) ready := by unfold Starts; decide +kernel

theorem test_mp_release_quarantine : (fun (c : Cmd) (s : State) => Starts mpReleaseQuarantineSpec c s ∧ cu c 8 8 ≠ 2 ^ 64 - 1) (entry 16 ([0, 0, 0, 0, 0, 0, 0, 0, 9] ++ List.replicate 7 0)) ({ ready with mp := { ready.mp with quarChip := [9] } }) := by unfold Starts; decide +kernel

theorem test_mp_release_quarantine_2 : (fun (c : Cmd) (s : State) => Starts mpReleaseQuarantineSpec c s ∧ cu c 8 8 = 2 ^ 64 - 1) (entry 16 ([0, 0, 0, 0, 0, 0, 0, 0] ++ List.replicate 8 255)) ready := by unfold Starts; decide +kernel

theorem test_corr_writeback : (fun (mem : Nat) (addr : Nat) (s : State) => (s.mp.tracker.any (fun e => e.word = (mpWord mem addr) && e.stage = 1) = true)) 4 9 ({ ready with mp := { ready.mp with tracker := [⟨mpWord 4 9, 1, 200000⟩], errs := [(mpWord 4 9, 1)] } } : State) := by decide +kernel

theorem test_corr_writeback_2 : (fun (mem : Nat) (addr : Nat) (s : State) => (s.mp.tracker.any (fun e => e.word = (mpWord mem addr) && e.stage = 1) = false)) 4 9 ready := by decide +kernel

theorem test_merge_buffer_flush : (fun (mem : Nat) (addr : Nat) (x : MergeEntry) (s : State) => s.mp.merge.find? (fun e => e.word = (mpWord mem addr)) = some x ∧ x.last + 32 ≤ s.dtt ∧ (x.bytes = 255 ∨ mpSeverity x.word (spGet 0 s.mp.errs x.word) ≠ 2)) 4 9 ((⟨mpWord 4 9, 255, 200000⟩ : MergeEntry)) ({ ready with mp := { ready.mp with merge := [⟨mpWord 4 9, 255, 200000⟩] } }) := by decide +kernel

theorem test_merge_buffer_flush_2 : (fun (mem : Nat) (addr : Nat) (x : MergeEntry) (s : State) => s.mp.merge.find? (fun e => e.word = (mpWord mem addr)) = some x ∧ x.last + 32 ≤ s.dtt ∧ x.bytes ≠ 255 ∧ mpSeverity x.word (spGet 0 s.mp.errs x.word) = 2) 4 9 ⟨mpWord 4 9, 15, 200000⟩ { ready with mp := { ready.mp with merge := [⟨mpWord 4 9, 15, 200000⟩], errs := [(mpWord 4 9, 3)] } } := by decide +kernel

theorem test_merge_buffer_flush_3 : (fun (x : MergeEntry) (s : State) => s.mp.merge.find? (fun e => e.word = mpWord 3 0) = some x ∧ s.dtt < x.last + 32)
    ⟨mpWord 3 0, 1, 1000000⟩ { ready with mp := { ready.mp with merge := [⟨mpWord 3 0, 1, 1000000⟩] } } := by decide +kernel

/-! `CalibrationRunsComplete` -/

theorem test_cal_lane : (fun (c : Cmd) (s : State) => Starts calLaneSpec c s ∧ (cu c 0 1 < 48 ∨ s.awake 61 = true)) (entry 4 [5, 7, 0, 0]) ((ready.setF (Reg.sdsStatusMode 5) 2)) := by unfold Starts; decide +kernel

theorem test_cal_lane_2 : (fun (c : Cmd) (s : State) => Starts calLaneSpec c s ∧ 48 ≤ cu c 0 1 ∧ s.awake 61 = false) (entry 4 [51, 7, 0, 0]) (ready.setF (Reg.sdsStatusMode 51) 2) := by unfold Starts; decide +kernel

theorem test_cal_evtin : (fun (c : Cmd) (s : State) => Starts calEvtinSpec c s) (entry 4 [2, 3, 0, 0]) ((ready.setB (Reg.emStatusEn 2) true)) := by unfold Starts; decide +kernel

theorem test_cal_output : (fun (c : Cmd) (s : State) => Starts calOutputSpec c s) (entry 4 [6, 0, 0, 0]) ready := by unfold Starts; decide +kernel

theorem test_cal_read_record : (fun (c : Cmd) (s : State) => Starts calReadRecordSpec c s) ({ entry 4 [2, 1, 0, 0] with rlen4k := 1, raddr := 4096 }) ready := by unfold Starts; decide +kernel

theorem test_cal_part_done : (fun (target : Nat) (m : CalMeas) (r : CalRun) (part : Nat) (rest : List Nat) (code : Nat × Option Int) (s : State) => s.calRun target = some r ∧ r.parts = part :: rest ∧ (s.calRec target).waiting = none ∧ calShape target part m = true ∧ (calFault target part r.rate (r.lost || !s.innerLocked) (s.calRec target).vals.map m = some code)) 5 ((⟨0, 500, true, [], [3000, 5], 100, 1, 0, [], 0⟩ : CalMeas)) ((⟨5, [1, 2], 1, none, 0, 1, 0, false⟩ : CalRun)) 1 ([2]) (((7, some 3000) : Nat × Option Int)) (({ (ready.setB Reg.plStatusInnerLock true) with cal := { (ready.setB Reg.plStatusInnerLock true).cal with runs := [⟨5, [1, 2], 1, none, 0, 1, 0, false⟩], accepting := [] } } : State)) := by decide +kernel

theorem test_cal_part_done_2 : (fun (target : Nat) (m : CalMeas) (r : CalRun) (part : Nat) (rest : List Nat) (s : State) => s.calRun target = some r ∧ r.parts = part :: rest ∧ (s.calRec target).waiting = none ∧ calShape target part m = true ∧ (calFault target part r.rate (r.lost || !s.innerLocked) (s.calRec target).vals.map m = none)) 5 ⟨0, 500, true, [], [10, 5], 100, 1, 0, [], 0⟩ ⟨5, [1, 2], 1, none, 0, 1, 0, false⟩ 1 [2] { ready.setB Reg.plStatusInnerLock true with cal := { ready.cal with runs := [⟨5, [1, 2], 1, none, 0, 1, 0, false⟩], accepting := [] } } := by decide +kernel

theorem test_cal_part_done_3 : (fun (target : Nat) (m : CalMeas) (s : State) => ((s.calRec target).waiting.isSome = true ∨ s.calRun target = none ∨ (∃ r, s.calRun target = some r ∧ (r.parts = [] ∨ calShape target (r.parts.headD 0) m = false)))) 5 ⟨0, 500, true, [], [], 100, 1, 0, [], 0⟩ ready := Or.inr (Or.inl (by decide +kernel))

theorem test_cal_accept : (fun (target : Nat) (x : Nat) (v : CalVals) (y : Nat × Nat × Int × Int) (s : State) => (s.calRec target).waiting = some (x, v) ∧ s.cal.accepting.find? (fun q => q.1 = target) = some y ∧ x ≤ s.dtt) 5 7 ((⟨[], [], [10, 5, 100, 1]⟩ : CalVals)) (((5, 1, 500, 0) : Nat × Nat × Int × Int)) ((({ (ready.setB Reg.plStatusInnerLock true) with cal := { (ready.setB Reg.plStatusInnerLock true).cal with runs := [⟨5, [1, 2], 1, none, 0, 1, 0, false⟩], accepting := [(5, 1, 500, 0)] } } : State).setCalRec 5 { CalRec.reset with waiting := some (7, ⟨[], [], [10, 5, 100, 1]⟩) })) := by decide +kernel

theorem test_cal_accept_2 : (fun (target : Nat) (s : State) => ((s.calRec target).waiting = none ∨ s.cal.accepting.find? (fun q => q.1 = target) = none ∨ (∃ x v, (s.calRec target).waiting = some (x, v) ∧ s.dtt < x))) 5 ready := Or.inl (by decide +kernel)

theorem test_device_cal_auto : (fun (temp : Int) (s : State) => s.isF Reg.hstStatusReady = true ∧ (s.cal.deviceAt + 468750000000 ≤ s.dtt ∨ 80 ≤ (temp - s.cal.deviceTemp).natAbs) ∧ s.cal.runs.any (fun r => calKind r.target = 3) = false) 500 ready := by decide +kernel

theorem test_device_cal_auto_2 : (fun (temp : Int) (s : State) => (s.isF Reg.hstStatusReady = false ∨ (s.dtt < s.cal.deviceAt + 468750000000 ∧ (temp - s.cal.deviceTemp).natAbs < 80) ∨ s.cal.runs.any (fun r => calKind r.target = 3) = true)) 0 (ready.setB Reg.hstStatusReady false) := by decide +kernel

/-! `FirmwareCommandsComplete` -/

theorem test_fw_write_slot : (fun (c : Cmd) (s : State) => Starts fwWriteSlotSpec c s ∧ cu c 8 4 ≠ 0) (entry 24 ([1, 0, 0, 0, 0, 1, 0, 0, 0, 1] ++ List.replicate 14 0)) ready := by unfold Starts; decide +kernel

theorem test_fw_write_slot_2 : (fun (c : Cmd) (s : State) => Starts fwWriteSlotSpec c s ∧ cu c 8 4 = 0 ∧ cbit c 1 0 = false) (entry 24 ([1, 0, 0, 0, 0, 1, 0, 0] ++ List.replicate 16 0)) ready := by unfold Starts; decide +kernel

theorem test_fw_write_slot_3 : (fun (c : Cmd) (s : State) => Starts fwWriteSlotSpec c s ∧ cu c 8 4 = 0 ∧ cbit c 1 0 = true) (entry 24 ([1, 1, 0, 0, 0, 1, 0, 0] ++ List.replicate 16 0)) ready := by unfold Starts; decide +kernel

theorem test_fw_apply_moult : (fun (c : Cmd) (s : State) => Starts fwApplyMoultSpec c s ∧ (moultFits s = false ∨ moultResult s = none)) (entry 4 [1, 0, 0, 0]) (({ ready with fw := { ready.fw with slots := [⟨3, 0, 0, 1⟩, ⟨2, 0, 0, 1⟩, ⟨0, 0, 0, 3⟩, ⟨0, 0, 0, 3⟩, ⟨2, 0, 0, 2⟩], flash := [(0x2500014, 0), (0x2500015, 0), (0x2500016, 0), (0x2500017, 0), (0x2500048, 0)] } } : State)) := by unfold Starts; decide +kernel

theorem test_fw_apply_moult_2 : (fun (c : Cmd) (s : State) => Starts fwApplyMoultSpec c s ∧ moultFits s = true ∧ (moultResult s).isSome = true) (entry 4 [1, 0, 0, 0]) (({ ready with fw := { ready.fw with slots := [⟨3, 0, 0, 1⟩, ⟨2, 0, 0, 1⟩, ⟨0, 0, 0, 3⟩, ⟨0, 0, 0, 3⟩, ⟨2, 0, 0, 2⟩], flash := [(1048596, 0), (1048597, 0), (1048598, 0), (1048599, 0)] ++ [(0x2500014, 1), (0x2500015, 2), (0x2500016, 0), (0x2500017, 0), (0x2500400, 0)] } } : State)) := by unfold Starts; decide +kernel

theorem test_fw_activate : (fun (c : Cmd) (s : State) => Starts fwActivateSpec c s ∧ (cu c 0 1) = runSlot s) (entry 8 [0, 1, 1, 0, 100, 0, 0, 0]) ready := by unfold Starts; decide +kernel

theorem test_fw_activate_2 : (fun (c : Cmd) (s : State) => Starts fwActivateSpec c s ∧ (cu c 0 1) ≠ runSlot s) (entry 8 [1, 0, 1, 0, 100, 0, 0, 0]) ({ ready with fw := { ready.fw with slots := [⟨3, 0, 0, 1⟩, ⟨2, 0, 0, 1⟩, ⟨0, 0, 0, 3⟩, ⟨0, 0, 0, 3⟩, ⟨2, 0, 0, 2⟩] } }) := by unfold Starts; decide +kernel

theorem test_fw_confirm : (fun (c : Cmd) (s : State) => Starts fwConfirmSpec c s) (entry 0 []) (({ (ready.setF Reg.fwStatePhase 4) with fw := { (ready.setF Reg.fwStatePhase 4).fw with slots := [⟨3, 0, 0, 1⟩, ⟨4, 0, 0, 1⟩, ⟨0, 0, 0, 3⟩, ⟨0, 0, 0, 3⟩, ⟨2, 0, 0, 2⟩], target := 1, prev := 0 } } : State)) := by unfold Starts; decide +kernel

theorem test_fw_status : (fun (c : Cmd) (s : State) => Starts fwStatusSpec c s) (entry 0 []) ready := by unfold Starts; decide +kernel

theorem test_fw_update_evd : (fun (c : Cmd) (s : State) => Starts fwUpdateEvdSpec c s) (entry 4 [2, 0, 0, 0]) (({ ready with fw := { ready.fw with slots := [⟨3, 0, 0, 1⟩, ⟨2, 0, 0, 1⟩, ⟨2, 0, 0, 3⟩, ⟨0, 0, 0, 3⟩, ⟨2, 0, 0, 2⟩], flash := [(34603028, 0), (34603029, 0), (34603030, 0), (34603031, 0)] } } : State)) := by unfold Starts; decide +kernel

/-! `HandoversTrialsAndRestartsRun` -/

theorem test_fw_load_done : (fun (s : State) => s.getF Reg.fwStatePhase = 1 ∧ sectionsOk [1, 2] (slotBody s.fw.target s) = true) ((flashWrite (17825792 + 20) [48, 0, 0, 0] (flashWrite (17825792 + 512) ([1, 0, 0, 0, 48, 0, 0, 0, 0, 0, 0, 0, 0, 0, 0, 0, 2, 0, 0, 0, 48, 0, 0, 0] ++ List.replicate 24 0) ({ (ready.setF Reg.fwStatePhase 1) with fw := { (ready.setF Reg.fwStatePhase 1).fw with target := 1 } } : State)))) := by decide +kernel

theorem test_fw_load_done_2 : (fun (s : State) => s.getF Reg.fwStatePhase = 1 ∧ sectionsOk [1, 2] (slotBody s.fw.target s) = false) (({ (ready.setF Reg.fwStatePhase 1) with fw := { (ready.setF Reg.fwStatePhase 1).fw with target := 1, flash := [(17825812, 0), (17825813, 0), (17825814, 0), (17825815, 0)] } } : State)) := by decide +kernel

theorem test_fw_load_done_3 : (fun (s : State) => s.getF Reg.fwStatePhase ≠ 1) ready := by decide +kernel

theorem test_fw_freeze : (fun (s : State) => decisionPoint s = true ∧ ((s.getF Reg.fwStatePhase = 2 ∧ handoverWaits s = false) ∨ (s.getF Reg.fwStatePhase = 5 ∧ s.fw.back = true))) ((ready.setF Reg.fwStatePhase 2)) := by decide +kernel

theorem test_fw_freeze_2 : (fun (s : State) => (decisionPoint s = false ∨ (s.getF Reg.fwStatePhase ≠ 2 ∧ s.getF Reg.fwStatePhase ≠ 5) ∨ (s.getF Reg.fwStatePhase = 2 ∧ handoverWaits s = true) ∨ (s.getF Reg.fwStatePhase = 5 ∧ s.fw.back = false))) ready := by decide +kernel

theorem test_fw_handover_done : (fun (s : State) => s.getF Reg.fwStatePhase = 3 ∧ s.dtt ≤ s.fw.since + 15625000 ∧ s.fw.back = false ∧ sectionsOk [0x10, 0x11, 0x12, 0x13] (slotBody s.fw.target s) = true) ((flashWrite (17825792 + 20) [80, 0, 0, 0] (flashWrite (17825792 + 512) ([16, 0, 0, 0, 80, 0, 0, 0, 0, 0, 0, 0, 0, 0, 0, 0] ++ [17, 0, 0, 0, 80, 0, 0, 0, 0, 0, 0, 0, 0, 0, 0, 0] ++ [18, 0, 0, 0, 80, 0, 0, 0, 0, 0, 0, 0, 0, 0, 0, 0] ++ [19, 0, 0, 0, 80, 0, 0, 0, 0, 0, 0, 0, 0, 0, 0, 0] ++ List.replicate 16 0) ({ (ready.setF Reg.fwStatePhase 3) with fw := { (ready.setF Reg.fwStatePhase 3).fw with target := 1 } } : State)))) := by decide +kernel

theorem test_fw_handover_done_2 : (fun (s : State) => s.getF Reg.fwStatePhase = 3 ∧ s.dtt ≤ s.fw.since + 15625000 ∧ s.fw.back = true ∧ sectionsOk [0x10, 0x11, 0x12, 0x13] (slotBody s.fw.prev s) = true) ((flashWrite (1048576 + 20) [80, 0, 0, 0] (flashWrite (1048576 + 512) ([16, 0, 0, 0, 80, 0, 0, 0, 0, 0, 0, 0, 0, 0, 0, 0] ++ [17, 0, 0, 0, 80, 0, 0, 0, 0, 0, 0, 0, 0, 0, 0, 0] ++ [18, 0, 0, 0, 80, 0, 0, 0, 0, 0, 0, 0, 0, 0, 0, 0] ++ [19, 0, 0, 0, 80, 0, 0, 0, 0, 0, 0, 0, 0, 0, 0, 0] ++ List.replicate 16 0) ({ (ready.setF Reg.fwStatePhase 3) with fw := { (ready.setF Reg.fwStatePhase 3).fw with target := 1, prev := 0, back := true } } : State)))) := by decide +kernel

theorem test_fw_handover_done_3 : (fun (s : State) => s.getF Reg.fwStatePhase = 3 ∧ s.dtt ≤ s.fw.since + 15625000 ∧ sectionsOk [0x10, 0x11, 0x12, 0x13] (slotBody (if s.fw.back then s.fw.prev else s.fw.target) s) = false) ({ (ready.setF Reg.fwStatePhase 3) with fw := { (ready.setF Reg.fwStatePhase 3).fw with target := 1, flash := [(17825812, 0), (17825813, 0), (17825814, 0), (17825815, 0)] } } : State) := by decide +kernel

theorem test_fw_handover_done_4 : (fun (s : State) => (s.getF Reg.fwStatePhase ≠ 3 ∨ s.fw.since + 15625000 < s.dtt)) ready := by decide +kernel

theorem test_fw_wait_timeout : (fun (s : State) => s.getF Reg.fwStatePhase = 2 ∧ s.fw.since + 7812500000 ≤ s.dtt) (({ (ready.setF Reg.fwStatePhase 2) with dtt := 7812500000 } : State)) := by decide +kernel

theorem test_fw_wait_timeout_2 : (fun (s : State) => (s.getF Reg.fwStatePhase ≠ 2 ∨ s.dtt < s.fw.since + 7812500000)) ready := by decide +kernel

theorem test_fw_freeze_timeout : (fun (s : State) => s.getF Reg.fwStatePhase = 3 ∧ s.fw.since + 15625000 ≤ s.dtt ∧ s.fw.back = false) (({ (ready.setF Reg.fwStatePhase 3) with dtt := 7812500000 } : State)) := by decide +kernel

theorem test_fw_freeze_timeout_2 : (fun (s : State) => s.getF Reg.fwStatePhase = 3 ∧ s.fw.since + 15625000 ≤ s.dtt ∧ s.fw.back = true) (({ (ready.setF Reg.fwStatePhase 3) with dtt := 7812500000, fw := { ready.fw with back := true } } : State)) := by decide +kernel

theorem test_fw_freeze_timeout_3 : (fun (s : State) => (s.getF Reg.fwStatePhase ≠ 3 ∨ s.dtt < s.fw.since + 15625000)) ready := by decide +kernel

theorem test_held_steer_expiry : (fun (x : Nat) (s : State) => s.dpll.holdStart = some x ∧ x + 15625000 < s.dtt ∧ (s.qcState s.served = 1 ∨ s.qcState s.served = 2 ∨ s.qcState s.served = 3 ∨ s.qcState s.served = 6)) 1000 (({ ready.setF (Reg.tbDStatusQc 0) 64 with dtt := 7812500000, dpll := { ready.dpll with holdStart := some 1000 } } : State)) := by decide +kernel

theorem test_held_steer_expiry_2 : (fun (s : State) => ((∀ x, s.dpll.holdStart = some x → s.dtt ≤ x + 15625000) ∨ ¬(s.qcState s.served = 1 ∨ s.qcState s.served = 2 ∨ s.qcState s.served = 3 ∨ s.qcState s.served = 6))) ready := Or.inl (fun _ h => nomatch h)

theorem test_fw_trial_expiry : (fun (s : State) => s.getF Reg.fwStatePhase = 4 ∧ s.fw.trialAt + s.fw.healthS * 781250000 ≤ s.dtt ∧ s.fw.auto = true ∧ healthy s = true) (({ (((((ready.setF Reg.fwStatePhase 4).setB Reg.fwHealthMemOk true).setB Reg.fwHealthSeqOk true).setB Reg.fwHealthCore1Ok true).setB Reg.fwHealthCore0Ok true) with dtt := 78125000000, fw := { ready.fw with auto := true, target := 1, healthS := 10 } } : State)) := by decide +kernel

theorem test_fw_trial_expiry_2 : (fun (s : State) => s.getF Reg.fwStatePhase = 4 ∧ s.fw.trialAt + s.fw.healthS * 781250000 ≤ s.dtt ∧ s.fw.auto = true ∧ healthy s = false) { ready.setF Reg.fwStatePhase 4 with dtt := 78125000000, fw := { ready.fw with auto := true, healthS := 10 } } := by decide +kernel

theorem test_fw_trial_expiry_3 : (fun (s : State) => s.getF Reg.fwStatePhase = 4 ∧ s.fw.trialAt + s.fw.healthS * 781250000 ≤ s.dtt ∧ s.fw.auto = false ∧ s.fw.resident = true) (({ (ready.setF Reg.fwStatePhase 4) with dtt := 78125000000, fw := { ready.fw with target := 1, healthS := 10, resident := true } } : State)) := by decide +kernel

theorem test_fw_trial_expiry_4 : (fun (s : State) => s.getF Reg.fwStatePhase = 4 ∧ s.fw.trialAt + s.fw.healthS * 781250000 ≤ s.dtt ∧ s.fw.auto = false ∧ s.fw.resident = false) { ready.setF Reg.fwStatePhase 4 with dtt := 78125000000, fw := { ready.fw with auto := false, healthS := 10, resident := false } } := by decide +kernel

theorem test_fw_trial_expiry_5 : (fun (s : State) => (s.getF Reg.fwStatePhase ≠ 4 ∨ s.dtt < s.fw.trialAt + s.fw.healthS * 781250000)) ready := by decide +kernel

theorem test_fw_health_fail : (fun (n : Nat) (s : State) => s.getF Reg.fwStatePhase = 4 ∧ n < 4 ∧ s.fw.resident = false) 2 (({ (ready.setF Reg.fwStatePhase 4) with fw := { (ready.setF Reg.fwStatePhase 4).fw with target := 1 } } : State)) := by decide +kernel

theorem test_fw_health_fail_2 : (fun (n : Nat) (s : State) => s.getF Reg.fwStatePhase = 4 ∧ n < 4 ∧ s.fw.resident = true) 3 { ready.setF Reg.fwStatePhase 4 with dtt := 78125000000, fw := { ready.fw with resident := true } } := by decide +kernel

theorem test_fw_health_fail_3 : (fun (n : Nat) (s : State) => (s.getF Reg.fwStatePhase ≠ 4 ∨ 4 ≤ n)) 4 ready := by decide +kernel

theorem test_watchdog_expiry : (fun (s : State) => s.isF Reg.hstStatusFwRun = true ∧ s.getF Reg.fwStatePhase = 4) (({ (ready.setF Reg.fwStatePhase 4) with fw := { (ready.setF Reg.fwStatePhase 4).fw with target := 1 } } : State)) := by decide +kernel

theorem test_watchdog_expiry_2 : (fun (s : State) => s.isF Reg.hstStatusFwRun = true ∧ s.getF Reg.fwStatePhase ≠ 4) ready := by decide +kernel

theorem test_watchdog_expiry_3 : (fun (s : State) => s.isF Reg.hstStatusFwRun = false ∧ s.fw.starting = true ∧ (s.slot s.fw.next).fails < 2) { ready.setB Reg.hstStatusFwRun false with fw := { ready.fw with starting := true } } := by decide +kernel

theorem test_watchdog_expiry_4 : (fun (s : State) => s.isF Reg.hstStatusFwRun = false ∧ s.fw.starting = true ∧ 2 ≤ (s.slot s.fw.next).fails) { ready.setB Reg.hstStatusFwRun false with fw := { ready.fw with starting := true, slots := ready.fw.slots.map (fun x => { x with fails := 2 }) } } := by decide +kernel

theorem test_watchdog_expiry_5 : (fun (s : State) => s.isF Reg.hstStatusFwRun = false ∧ s.fw.starting = false) { ready.setB Reg.hstStatusFwRun false with fw := { ready.fw with starting := false } } := by decide +kernel

theorem test_leinnar_restart : (fun (s : State) => s.isF Reg.hstStatusFwRun = true ∧ ((s.mp.restart = false ∧ s.fw.restartDue = true ∧ decisionPoint s = true) ∨ (s.mp.restart = true ∧ s.getF Reg.fwStatePhase ≠ 4))) ({ ready with fw := { ready.fw with restartDue := true } }) := by decide +kernel

theorem test_leinnar_restart_2 : (fun (s : State) => s.isF Reg.hstStatusFwRun = true ∧ s.mp.restart = true ∧ s.getF Reg.fwStatePhase = 4) { ready.setF Reg.fwStatePhase 4 with mp := { ready.mp with restart := true } } := by decide +kernel

theorem test_leinnar_restart_3 : (fun (s : State) => (s.isF Reg.hstStatusFwRun = false ∨ (s.mp.restart = false ∧ (s.fw.restartDue = false ∨ decisionPoint s = false)))) ready := by decide +kernel

theorem test_leinnar_restart_done : (fun (s : State) => s.fw.starting = true ∧ s.boot.inReset = false ∧ s.boot.bootSel = false) (({ (ready.setB Reg.hstStatusFwRun false) with fw := { (ready.setB Reg.hstStatusFwRun false).fw with starting := true } } : State)) := by decide +kernel

theorem test_leinnar_restart_done_2 : (fun (s : State) => (s.fw.starting = false ∨ s.boot.inReset = true ∨ s.boot.bootSel = true)) ready := by decide +kernel

/-! `SecurityCommandsComplete` -/

theorem test_sec_owner_lock : (fun (c : Cmd) (s : State) => Starts secOwnerLockSpec c s ∧ cu c 0 1 = 0 ∧ s.sec.owner.hash = []) (({ entry 212 ([0, 2, 5, 0] ++ List.replicate 12 0 ++ [4] ++ List.replicate 195 0) with flags := 4 } : Cmd)) ready := by unfold Starts; decide +kernel

theorem test_sec_owner_lock_2 : (fun (c : Cmd) (s : State) => Starts secOwnerLockSpec c s ∧ cu c 0 1 = 4 ∧ s.sec.owner.hash = []) (({ entry 212 ([4, 0, 0, 0, 0] ++ List.replicate 207 0) with flags := 4 } : Cmd)) ready := by unfold Starts; decide +kernel

theorem test_sec_owner_lock_3 : (fun (c : Cmd) (s : State) => Starts secOwnerLockSpec c s ∧ cu c 0 1 = 3) (({ entry 212 ([3, 0, 0, 0, 5] ++ List.replicate 207 0) with flags := 4 } : Cmd)) ready := by unfold Starts; decide +kernel

theorem test_sec_owner_lock_4 : (fun (c : Cmd) (s : State) => Starts secOwnerLockSpec c s ∧ (cu c 0 1 = 1 ∨ cu c 0 1 = 2) ∧ s.sec.owner.hash ≠ []) (({ entry 212 ([1, 2, 5, 0] ++ List.replicate 12 0 ++ [4] ++ List.replicate 195 0) with flags := 4 } : Cmd)) (({ ready with sec := { ready.sec with owner := ⟨[1], 1, 5⟩, nonce := some (0, 1000) } } : State)) := by unfold Starts; decide +kernel

theorem test_sec_owner_lock_5 : (fun (c : Cmd) (s : State) => Starts secOwnerLockSpec c s ∧ (((cu c 0 1 = 0 ∨ cu c 0 1 = 4) ∧ s.sec.owner.hash ≠ []) ∨ ((cu c 0 1 = 1 ∨ cu c 0 1 = 2) ∧ s.sec.owner.hash = []))) (({ entry 212 ([0, 2, 5, 0] ++ List.replicate 12 0 ++ [4] ++ List.replicate 195 0) with flags := 4 } : Cmd)) ({ ready with sec := { ready.sec with owner := ⟨[1], 1, 5⟩ } }) := by unfold Starts; decide +kernel

theorem test_sec_get_identity : (fun (c : Cmd) (s : State) => Starts secGetIdentitySpec c s) { entry 0 [] with rlen4k := 1, raddr := 4096 } ready := by
  have h : Config.certificate.length ≤ 2048 := List.length_take_le _ _
  have e : earlyCheck secGetIdentitySpec { entry 0 [] with rlen4k := 1, raddr := 4096 } ready = none := by decide +kernel
  refine ⟨by decide +kernel, ?_⟩
  unfold startCheck
  rw [e]
  show (if 4096 < 96 + Config.certificate.length then some (stBadLen, 0) else none) = none
  rw [if_neg (by omega)]

theorem test_sec_zeroise : (fun (c : Cmd) (s : State) => Starts secZeroiseSpec c s) (entry 4 [0x4F, 0x52, 0x45, 0x5A]) ready := by unfold Starts; decide +kernel

theorem test_sec_self_test : (fun (c : Cmd) (s : State) => Starts secSelfTestSpec c s) (entry 0 []) ready := by unfold Starts; decide +kernel

theorem test_sec_drbg_read : (fun (c : Cmd) (s : State) => Starts secDrbgReadSpec c s) (entry 4 [16, 0, 0, 0]) ready := by unfold Starts; decide +kernel

/-! `TamperSelfTestsAndAnchorAct` -/

theorem test_tamper_active : (fun (n : Nat) (s : State) => n < 2 ∧ bit s.ao.flags n = true) 1 ({ ready with ao := { ready.ao with flags := 2 } }) := by decide +kernel

theorem test_tamper_active_2 : (fun (n : Nat) (s : State) => n < 2 ∧ bit s.ao.flags n = false ∧ s.boot.inReset = true) 1 ({ ready with boot := { ready.boot with inReset := true } }) := by decide +kernel

theorem test_tamper_active_3 : (fun (n : Nat) (s : State) => n < 2 ∧ bit s.ao.flags n = false ∧ s.boot.inReset = false) 1 ({ ready with sec := { ready.sec with owner := ⟨[1], 0, 8⟩ } }) := by decide +kernel

theorem test_tamper_active_4 : (fun (n : Nat) => 2 ≤ n) 2 := by decide +kernel

theorem test_selftest_failure : (fun (test : Nat) (s : State) => (test = 7 ∨ test = 8) ∧ s.isF Reg.gdSecStatusZeroised = false) 7 ready := by decide +kernel

theorem test_selftest_failure_2 : (fun (test : Nat) (s : State) => ((test ≠ 7 ∧ test ≠ 8) ∨ s.isF Reg.gdSecStatusZeroised = true)) 6 ready := by decide +kernel

theorem test_drbg_reseed : (fun (s : State) => (2 ^ 20 ≤ s.sec.drbgReqs ∨ s.sec.drbgAt + 67500000000000 ≤ s.dtt)) ({ ready with sec := { ready.sec with drbgReqs := 1048576 } }) := by decide +kernel

theorem test_drbg_reseed_2 : (fun (s : State) => s.sec.drbgReqs < 2 ^ 20 ∧ s.dtt < s.sec.drbgAt + 67500000000000) ready := by decide +kernel

theorem test_sec_vbat_low : (fun (mv : Nat) (s : State) => mv < 1750 ∧ s.isF Reg.gdSecStatusVbatLow = false ∧ s.boot.inReset = false) 1700 ready := by decide +kernel

theorem test_sec_vbat_low_2 : (fun (mv : Nat) (s : State) => (1750 ≤ mv ∨ s.isF Reg.gdSecStatusVbatLow = true ∨ s.boot.inReset = true)) 1750 ready := by decide +kernel

theorem test_ao_anchor_write : (fun (tick : Nat) (s : State) => s.boot.inReset = false ∧ s.boot.opened = true ∧ s.ao.xtalOk = true ∧ (s.qcState s.served = 2 ∨ s.qcState s.served = 3 ∨ s.qcState s.served = 6 ∨ s.qcState s.served = 4) ∧ s.isF (Reg.tbDStatusAlignNeeded s.served) = false ∧ (s.timeNow s.served % 65536000000000 ≤ 1000000000 ∨ 65534999000000 ≤ s.timeNow s.served % 65536000000000) ∧ s.ao.tick ≤ tick) 9 (({ (ready.setF (Reg.tbDStatusQc 0) 64) with boot := { ready.boot with opened := true }, ao := { ready.ao with xtalOk := true }, dtt := 0 } : State)) := by decide +kernel

theorem test_ao_anchor_write_2 : (fun (tick : Nat) (s : State) => (s.boot.inReset = true ∨ s.boot.opened = false ∨ s.ao.xtalOk = false ∨ ¬(s.qcState s.served = 2 ∨ s.qcState s.served = 3 ∨ s.qcState s.served = 6 ∨ s.qcState s.served = 4) ∨
      s.isF (Reg.tbDStatusAlignNeeded s.served) = true ∨ (1000000000 < s.timeNow s.served % 65536000000000 ∧ s.timeNow s.served % 65536000000000 < 65534999000000) ∨ tick < s.ao.tick)) 0 ready := by decide +kernel

/-! `ResetAndStartUpFollowTheirOrder` -/

theorem test_main_reset_assert : (fun (cause : Nat) => (cause = 1 ∨ cause = 2 ∨ cause = 4)) 2 := by decide +kernel

theorem test_main_reset_assert_2 : (fun (x : Nat) (s : State) => s.boot.hstResetAt = some x ∧ x + 7813 ≤ s.dtt) 1000 ({ ready with boot := { ready.boot with hstResetAt := some 1000 } }) := by decide +kernel

theorem test_main_reset_assert_3 : (fun (cause : Nat) (s : State) => cause ≠ 1 ∧ cause ≠ 2 ∧ cause ≠ 4 ∧ (cause ≠ 3 ∨ (∀ x, s.boot.hstResetAt = some x → s.dtt < x + 7813))) 3 ready := by
  refine ⟨by decide, by decide, by decide, Or.inr ?_⟩
  intro x h
  cases h

theorem test_main_reset_release : (fun (s : State) => s.boot.inReset = true) ({ ready with boot := { ready.boot with inReset := true } } : State) := by decide +kernel

theorem test_first_segment_open : (fun (s : State) => s.boot.inReset = false ∧ s.boot.opened = false ∧ s.dpll.everLocked = true) ({ ready with dpll := { ready.dpll with everLocked := true } }) := by decide +kernel

theorem test_first_segment_open_2 : (fun (s : State) => (s.boot.inReset = true ∨ s.boot.opened = true ∨ s.dpll.everLocked = false)) { ready with boot := { ready.boot with inReset := true } } := by decide +kernel

theorem test_ready : (fun (s : State) => s.boot.inReset = false ∧ s.isF Reg.hstStatusReady = false ∧ s.isF Reg.hstStatusFwRun = true ∧ s.boot.opened = true ∧ s.isF Reg.mpStatusBistOk = true ∧ s.cal.runs.any (fun r => r.origin = 1) = false ∧ s.boot.image = [] ∧ s.mbx.longOp = none ∧ s.mbx.held = none) (({ ((ready.setB Reg.hstStatusReady false).setB Reg.mpStatusBistOk true) with boot := { ((ready.setB Reg.hstStatusReady false).setB Reg.mpStatusBistOk true).boot with opened := true } } : State)) := by decide +kernel

theorem test_ready_2 : (fun (s : State) => (s.boot.inReset = true ∨ s.isF Reg.hstStatusReady = true ∨ s.isF Reg.hstStatusFwRun = false ∨ s.boot.opened = false ∨ s.isF Reg.mpStatusBistOk = false ∨
      s.cal.runs.any (fun r => r.origin = 1) = true ∨ s.boot.image ≠ [] ∨ s.mbx.longOp.isSome = true ∨ s.mbx.held.isSome = true)) ready := by decide +kernel

end Sys2Proof.Tests
end

/-! SUPPORT. The start cause that AO_STATUS shows after a release of main reset (R691, R697): the 4-bit field holds the recorded cause modulo 16. -/

namespace Sys2Proof.Machine

/-! ### The recorded cause through a release -/

theorem showSlot_boot (n : Nat) (s : State) : (showSlot n s).boot = s.boot := rfl

theorem showSec_boot (s : State) : (showSec s).boot = s.boot := rfl

theorem underReset_cause (s : State) : (underReset s).boot.cause = s.boot.cause := rfl

theorem programFlash_boot (b : BootIn) (s : State) : (programFlash b s).boot = s.boot := by
  unfold programFlash
  split
  · rfl
  · rfl

theorem readStraps_cause (b : BootIn) (s : State) : (readStraps b s).boot.cause = s.boot.cause := rfl

theorem readRecord_cause (s : State) : (readRecord s).boot.cause = s.boot.cause := by
  unfold readRecord
  dsimp only
  split
  · rfl
  · rfl

theorem showSlots_boot (l : List Nat) (s : State) : (l.foldl (fun s n => showSlot n s) s).boot = s.boot :=
  foldl_k (P := fun t => t.boot = s.boot) rfl (fun t n h => (showSlot_boot n t).trans h)

/-! ### What AO_STATUS shows -/

/-- AO_STATUS.CAUSE is bits 7:4 of its word, so it shows the cause modulo 16. -/
theorem showAo_cause (s : State) : (showAo s).getF Reg.aoStatusCause = s.boot.cause % 16 := by
  simp [showAo, State.set64, State.set96, State.setB, getF_setF, Fld.key, word, Reg.aoStatusCause, Reg.aoStatusAoLost,
    Reg.aoStatusAnchorValid, Reg.aoStatusXtalOk, Reg.aoTime, Reg.aoAnchorTick, Reg.aoAnchorSeq]

/-- A release of main reset leaves the recorded cause standing and shows it in AO_STATUS. -/
theorem mainResetRelease_cause (b : BootIn) {s t : State} (h : s.boot.inReset = true) (ht : exec (.mainResetRelease b) s = .next t) :
    t.getF Reg.aoStatusCause = s.boot.cause % 16 := by
  have hr : execMainResetRelease b s = .next t := ht
  simp only [execMainResetRelease, h, Bool.true_eq_false, if_false, Host.Outcome.next.injEq] at hr
  rw [← hr, showAo_cause, showSec_boot]
  dsimp only [State.setB_boot]
  rw [showSlots_boot, State.setF_boot, readRecord_cause, readStraps_cause, programFlash_boot, underReset_cause]

/-! ### The statement fails at cause 8 -/

/-- The device under main reset with 8 recorded as its cause: a value of the 4-bit field, but above the causes 1 to 4 of R697. -/
def resetWithCause8 : State := { State.reset with boot := { State.reset.boot with cause := 8 } }

/-- A start without strap, from an empty flash that nothing has programmed. -/
def plainStart : BootIn := ⟨false, true, 0, false, [], [], 0⟩

/-- Refutes O60: its release clause narrows the cause to 3 bits, where AO_STATUS.CAUSE has 4. From a main reset with cause 8 recorded, the
release shows 8 and not 8 % 8 = 0. -/
theorem not_resetAndStartUpFollowTheirOrder : ¬ Obligations.ResetAndStartUpFollowTheirOrder := by
  unfold Obligations.ResetAndStartUpFollowTheirOrder
  intro h
  obtain ⟨-, -, -, -, release, -⟩ := h
  obtain ⟨t, ht, claims⟩ := release plainStart resetWithCause8 rfl
  obtain ⟨-, -, -, -, -, -, -, -, -, -, -, -, -, -, -, -, -, -, -, -, -, shows3, -⟩ := claims
  have shows4 : t.getF Reg.aoStatusCause = 8 % 16 := mainResetRelease_cause plainStart rfl ht
  have clash : 8 % 16 = 8 % 8 := shows4.symm.trans shows3
  exact absurd clash (by decide)

end Sys2Proof.Machine

/-! SUPPORT. DTT (R17): ticks alone move it, since no operation but the tick writes it and only a main reset starts the state again. -/

namespace Sys2Proof.Machine

variable {P : State → Prop} {A : Nat}

/-- A command that is not a main reset never starts the state again: it keeps what elementary updates keep, without the reset of `Keeps.again`. -/
theorem exec_keeps_outside_reset (K : Keeps P A) (hA : Sub 9223372036754112511 A) {i : Instr} {s : State}
    (hassert : ∀ cause : Nat, i ≠ .mainResetAssert cause) (hrelease : ∀ b : BootIn, i ≠ .mainResetRelease b) (hthermal : i ≠ .thermalReset)
    (h : P s) : Nx P (exec i s) := by
  cases i with
  | mainResetAssert cause => exact absurd rfl (hassert cause)
  | mainResetRelease b => exact absurd rfl (hrelease b)
  | thermalReset => exact absurd rfl hthermal
  | hstNop _ => exact execHstNop_keeps K (sub rfl hA) h
  | hstCancel _ => exact execHstCancel_keeps K (sub rfl hA) h
  | hstRestartMgmt _ => exact execHstRestartMgmt_keeps K (sub rfl hA) h
  | tbRead _ => exact execTbRead_keeps K (sub rfl hA) h
  | tbStep _ => exact execTbStep_keeps K (sub rfl hA) h
  | tbSlew _ => exact execTbSlew_keeps K (sub rfl hA) h
  | tbAdjust _ => exact execTbAdjust_keeps K (sub rfl hA) h
  | tbRealign _ => exact execTbRealign_keeps K (sub rfl hA) h
  | tbSetServed _ => exact execTbSetServed_keeps K (sub rfl hA) h
  | tbSetUtc _ => exact execTbSetUtc_keeps K (sub rfl hA) h
  | tbSnapshot _ => exact execTbSnapshot_keeps K (sub rfl hA) h
  | tbSetCompact _ => exact execTbSetCompact_keeps K (sub rfl hA) h
  | ttSessionSet _ => exact execTtSessionSet_keeps K (sub rfl hA) h
  | ttSessionGet _ => exact execTtSessionGet_keeps K (sub rfl hA) h
  | ttSessionEnable _ => exact execTtSessionEnable_keeps K (sub rfl hA) h
  | ttSetAsymmetry _ => exact execTtSetAsymmetry_keeps K (sub rfl hA) h
  | ttServoSet _ => exact execTtServoSet_keeps K (sub rfl hA) h
  | ttServoStatus _ => exact execTtServoStatus_keeps K (sub rfl hA) h
  | rsSetPriority _ => exact execRsSetPriority_keeps K (sub rfl hA) h
  | rsSetLimits _ => exact execRsSetLimits_keeps K (sub rfl hA) h
  | rsSetTimers _ => exact execRsSetTimers_keeps K (sub rfl hA) h
  | rsForce _ => exact execRsForce_keeps K (sub rfl hA) h
  | rsStatus _ => exact execRsStatus_keeps K (sub rfl hA) h
  | rsLarderRead _ => exact execRsLarderRead_keeps K (sub rfl hA) h
  | rsOpenLoop _ => exact execRsOpenLoop_keeps K (sub rfl hA) h
  | rsSteer _ => exact execRsSteer_keeps K (sub rfl hA) h
  | plSetLoop _ => exact execPlSetLoop_keeps K (sub rfl hA) h
  | plOutConfig _ => exact execPlOutConfig_keeps K (sub rfl hA) h
  | plOutRetune _ => exact execPlOutRetune_keeps K (sub rfl hA) h
  | plPpsConfig _ => exact execPlPpsConfig_keeps K (sub rfl hA) h
  | plStatus _ => exact execPlStatus_keeps K (sub rfl hA) h
  | gnEnable _ => exact execGnEnable_keeps K (sub rfl hA) h
  | gnLoadAlmanac _ => exact execGnLoadAlmanac_keeps K (sub rfl hA) h
  | gnLoadEphemeris _ => exact execGnLoadEphemeris_keeps K (sub rfl hA) h
  | gnSetPosition _ => exact execGnSetPosition_keeps K (sub rfl hA) h
  | gnSetAntennaDelay _ => exact execGnSetAntennaDelay_keeps K (sub rfl hA) h
  | gnStatus _ => exact execGnStatus_keeps K (sub rfl hA) h
  | emInputConfig _ => exact execEmInputConfig_keeps K (sub rfl hA) h
  | emInterval _ => exact execEmInterval_keeps K (sub rfl hA) h
  | emFrequency _ => exact execEmFrequency_keeps K (sub rfl hA) h
  | emSelfAudit _ => exact execEmSelfAudit_keeps K (sub rfl hA) h
  | sdsPortConfig _ => exact execSdsPortConfig_keeps K (sub rfl hA) h
  | sdsSetFir _ => exact execSdsSetFir_keeps K (sub rfl hA) h
  | sdsSetCtle _ => exact execSdsSetCtle_keeps K (sub rfl hA) h
  | sdsPrbs _ => exact execSdsPrbs_keeps K (sub rfl hA) h
  | sdsEyeScan _ => exact execSdsEyeScan_keeps K (sub rfl hA) h
  | sdsSetTrim _ => exact execSdsSetTrim_keeps K (sub rfl hA) h
  | sdsLaneStatus _ => exact execSdsLaneStatus_keeps K (sub rfl hA) h
  | sdsSetStampCorr _ => exact execSdsSetStampCorr_keeps K (sub rfl hA) h
  | swPortForward _ => exact execSwPortForward_keeps K (sub rfl hA) h
  | swSetVlan _ => exact execSwSetVlan_keeps K (sub rfl hA) h
  | swSetLag _ => exact execSwSetLag_keeps K (sub rfl hA) h
  | swRuleWrite _ => exact execSwRuleWrite_keeps K (sub rfl hA) h
  | swDirectConnect _ => exact execSwDirectConnect_keeps K (sub rfl hA) h
  | swDirectDisconnect _ => exact execSwDirectDisconnect_keeps K (sub rfl hA) h
  | ftInsert _ => exact execFtInsert_keeps K (sub rfl hA) h
  | ftDelete _ => exact execFtDelete_keeps K (sub rfl hA) h
  | ftSearch _ => exact execFtSearch_keeps K (sub rfl hA) h
  | ftWalkOpen _ => exact execFtWalkOpen_keeps K (sub rfl hA) h
  | ftWalkNext _ => exact execFtWalkNext_keeps K (sub rfl hA) h
  | ftWalkClose _ => exact execFtWalkClose_keeps K (sub rfl hA) h
  | ftFlushPort _ => exact execFtFlushPort_keeps K (sub rfl hA) h
  | ftSetAging _ => exact execFtSetAging_keeps K (sub rfl hA) h
  | ftRouteWrite _ => exact execFtRouteWrite_keeps K (sub rfl hA) h
  | ftRouteDelete _ => exact execFtRouteDelete_keeps K (sub rfl hA) h
  | ftLearnConfig _ => exact execFtLearnConfig_keeps K (sub rfl hA) h
  | ftDigest _ => exact execFtDigest_keeps K (sub rfl hA) h
  | bfSetPool _ => exact execBfSetPool_keeps K (sub rfl hA) h
  | bfSetQueue _ => exact execBfSetQueue_keeps K (sub rfl hA) h
  | bfSetShaper _ => exact execBfSetShaper_keeps K (sub rfl hA) h
  | bfSpillEnable _ => exact execBfSpillEnable_keeps K (sub rfl hA) h
  | bfMcastGroup _ => exact execBfMcastGroup_keeps K (sub rfl hA) h
  | fmGroupSet _ => exact execFmGroupSet_keeps K (sub rfl hA) h
  | fmGroupEnable _ => exact execFmGroupEnable_keeps K (sub rfl hA) h
  | fmSetTrim _ => exact execFmSetTrim_keeps K (sub rfl hA) h
  | fmPartition _ => exact execFmPartition_keeps K (sub rfl hA) h
  | erGroupSet _ => exact execErGroupSet_keeps K (sub rfl hA) h
  | erGroupEnable _ => exact execErGroupEnable_keeps K (sub rfl hA) h
  | erSetTrim _ => exact execErSetTrim_keeps K (sub rfl hA) h
  | evdConfig _ => exact execEvdConfig_keeps K (sub rfl hA) h
  | evdGetPubkey _ => exact execEvdGetPubkey_keeps K (sub rfl hA) h
  | evdGetBlock _ => exact execEvdGetBlock_keeps K (sub rfl hA) h
  | capRingSet _ => exact execCapRingSet_keeps K (sub rfl hA) h
  | capRingEnable _ => exact execCapRingEnable_keeps K (sub rfl hA) h
  | capSelect _ => exact execCapSelect_keeps K (sub rfl hA) h
  | twEnable _ => exact execTwEnable_keeps K (sub rfl hA) h
  | twTakeover _ => exact execTwTakeover_keeps K (sub rfl hA) h
  | twTakeback _ => exact execTwTakeback_keeps K (sub rfl hA) h
  | twStatus _ => exact execTwStatus_keeps K (sub rfl hA) h
  | twSetWtr _ => exact execTwSetWtr_keeps K (sub rfl hA) h
  | ctClear _ => exact execCtClear_keeps K (sub rfl hA) h
  | ctPreset _ => exact execCtPreset_keeps K (sub rfl hA) h
  | ctSetThreshold _ => exact execCtSetThreshold_keeps K (sub rfl hA) h
  | ctWindowMap _ => exact execCtWindowMap_keeps K (sub rfl hA) h
  | ctLatencySample _ => exact execCtLatencySample_keeps K (sub rfl hA) h
  | mpScrub _ => exact execMpScrub_keeps K (sub rfl hA) h
  | mpScrubSummary _ => exact execMpScrubSummary_keeps K (sub rfl hA) h
  | mpInject _ => exact execMpInject_keeps K (sub rfl hA) h
  | mpReleaseQuarantine _ => exact execMpReleaseQuarantine_keeps K (sub rfl hA) h
  | calLane _ => exact execCalLane_keeps K (sub rfl hA) h
  | calEvtin _ => exact execCalEvtin_keeps K (sub rfl hA) h
  | calOutput _ => exact execCalOutput_keeps K (sub rfl hA) h
  | calReadRecord _ => exact execCalReadRecord_keeps K (sub rfl hA) h
  | fwWriteSlot _ => exact execFwWriteSlot_keeps K (sub rfl hA) h
  | fwApplyMoult _ => exact execFwApplyMoult_keeps K (sub rfl hA) h
  | fwActivate _ => exact execFwActivate_keeps K (sub rfl hA) h
  | fwConfirm _ => exact execFwConfirm_keeps K (sub rfl hA) h
  | fwStatus _ => exact execFwStatus_keeps K (sub rfl hA) h
  | fwUpdateEvd _ => exact execFwUpdateEvd_keeps K (sub rfl hA) h
  | secOwnerLock _ => exact execSecOwnerLock_keeps K (sub rfl hA) h
  | secGetIdentity _ => exact execSecGetIdentity_keeps K (sub rfl hA) h
  | secZeroise _ => exact execSecZeroise_keeps K (sub rfl hA) h
  | secSelfTest _ => exact execSecSelfTest_keeps K (sub rfl hA) h
  | secDrbgRead _ => exact execSecDrbgRead_keeps K (sub rfl hA) h
  | steppedCommandStep _ => exact execSteppedCommandStep_keeps K (sub rfl hA) h
  | mbxDoorbell _ _ => exact execMbxDoorbell_keeps K (sub rfl hA) h
  | mbxQueueEnable _ => exact execMbxQueueEnable_keeps K (sub rfl hA) h
  | mbxQueueDisable _ => exact execMbxQueueDisable_keeps K (sub rfl hA) h
  | cqConsWrite _ => exact execCqConsWrite_keeps K (sub rfl hA) h
  | smbusIdentityRead _ => exact execSmbusIdentityRead_keeps K (sub rfl hA) h
  | smbusStatusRead _ => exact execSmbusStatusRead_keeps K (sub rfl hA) h
  | smbusTemperatureRead _ _ _ => exact execSmbusTemperatureRead_keeps K (sub rfl hA) h
  | smbusOffsetWrite _ _ _ => exact execSmbusOffsetWrite_keeps K (sub rfl hA) h
  | smbusRegisterRead _ => exact execSmbusRegisterRead_keeps K (sub rfl hA) h
  | smbusCommandWrite _ _ _ => exact execSmbusCommandWrite_keeps K (sub rfl hA) h
  | smbusCommandStatus _ => exact execSmbusCommandStatus_keeps K (sub rfl hA) h
  | registerWrite _ _ => exact execRegisterWrite_keeps K (sub rfl hA) h
  | unmappedRead _ => exact execUnmappedRead_keeps K (sub rfl hA) h
  | unmappedWrite _ => exact execUnmappedWrite_keeps K (sub rfl hA) h
  | readOnlyWrite _ => exact execReadOnlyWrite_keeps K (sub rfl hA) h
  | partialW32Write _ => exact execPartialW32Write_keeps K (sub rfl hA) h
  | bar2Write _ => exact execBar2Write_keeps K (sub rfl hA) h
  | bar4LongWrite _ _ => exact execBar4LongWrite_keeps K (sub rfl hA) h
  | latchingLoRead _ _ => exact execLatchingLoRead_keeps K (sub rfl hA) h
  | pairLoWrite _ => exact execPairLoWrite_keeps K (sub rfl hA) h
  | pairHiWrite _ => exact execPairHiWrite_keeps K (sub rfl hA) h
  | keyedAWrite _ => exact execKeyedAWrite_keeps K (sub rfl hA) h
  | keyedBWrite _ => exact execKeyedBWrite_keeps K (sub rfl hA) h
  | keyedPairWrite64 _ _ _ => exact execKeyedPairWrite64_keeps K (sub rfl hA) h
  | keyedSequenceTimeout _ _ => exact execKeyedSequenceTimeout_keeps K (sub rfl hA) h
  | gdLockSet _ => exact execGdLockSet_keeps K (sub rfl hA) h
  | hstReset _ _ _ => exact execHstReset_keeps K (sub rfl hA) h
  | evrRingEnable _ => exact execEvrRingEnable_keeps K (sub rfl hA) h
  | evrConsWrite _ => exact execEvrConsWrite_keeps K (sub rfl hA) h
  | ttRecRingEnable _ => exact execTtRecRingEnable_keeps K (sub rfl hA) h
  | ttRecConsWrite _ => exact execTtRecConsWrite_keeps K (sub rfl hA) h
  | ftLrnRingEnable _ => exact execFtLrnRingEnable_keeps K (sub rfl hA) h
  | ftLrnConsWrite _ => exact execFtLrnConsWrite_keeps K (sub rfl hA) h
  | emRConsWrite _ => exact execEmRConsWrite_keeps K (sub rfl hA) h
  | evdRConsWrite _ => exact execEvdRConsWrite_keeps K (sub rfl hA) h
  | nrDoorbell _ => exact execNrDoorbell_keeps K (sub rfl hA) h
  | snapTrigger _ => exact execSnapTrigger_keeps K (sub rfl hA) h
  | snapArm _ => exact execSnapArm_keeps K (sub rfl hA) h
  | snapArmedCapture _ _ => exact execSnapArmedCapture_keeps K (sub rfl hA) h
  | ptmDialog _ _ _ => exact execPtmDialog_keeps K (sub rfl hA) h
  | stampFifoPop _ => exact execStampFifoPop_keeps K (sub rfl hA) h
  | emFifoPop _ => exact execEmFifoPop_keeps K (sub rfl hA) h
  | htxRingEnable _ => exact execHtxRingEnable_keeps K (sub rfl hA) h
  | htxTailWrite _ => exact execHtxTailWrite_keeps K (sub rfl hA) h
  | hostTxDescriptor _ _ _ => exact execHostTxDescriptor_keeps K (sub rfl hA) h
  | eventRecordWrite => exact execEventRecordWrite_keeps K (sub rfl hA) h
  | eventRecordLate => exact execEventRecordLate_keeps K (sub rfl hA) h
  | ringHoldoffExpiry _ => exact execRingHoldoffExpiry_keeps K (sub rfl hA) h
  | ready _ => exact execReady_keeps K (sub rfl hA) h
  | pciePerst => exact execPciePerst_keeps K (sub rfl hA) h
  | hostIfReset => exact execHostIfReset_keeps K (sub rfl hA) h
  | innerLock _ _ => exact execInnerLock_keeps K (sub rfl hA) h
  | innerLockLoss => exact execInnerLockLoss_keeps K (sub rfl hA) h
  | sysxoFault _ => exact execSysxoFault_keeps K (sub rfl hA) h
  | bandSearchDone _ => exact execBandSearchDone_keeps K (sub rfl hA) h
  | referenceSample _ _ _ _ => exact execReferenceSample_keeps K (sub rfl hA) h
  | dpllLock _ => exact execDpllLock_keeps K (sub rfl hA) h
  | dpllLockLoss _ => exact execDpllLockLoss_keeps K (sub rfl hA) h
  | frequencyAcquired _ => exact execFrequencyAcquired_keeps K (sub rfl hA) h
  | servoUpdate _ _ => exact execServoUpdate_keeps K (sub rfl hA) h
  | segmentRenewal _ => exact execSegmentRenewal_keeps K (sub rfl hA) h
  | stepApply _ => exact execStepApply_keeps K (sub rfl hA) h
  | outRephaseDone => exact execOutRephaseDone_keeps K (sub rfl hA) h
  | servedSwitch => exact execServedSwitch_keeps K (sub rfl hA) h
  | tbOutAligned => exact execTbOutAligned_keeps K (sub rfl hA) h
  | tbSlewDone _ => exact execTbSlewDone_keeps K (sub rfl hA) h
  | tbLeap _ => exact execTbLeap_keeps K (sub rfl hA) h
  | monitorEvaluation => exact execMonitorEvaluation_keeps K (sub rfl hA) h
  | candidateLost _ => exact execCandidateLost_keeps K (sub rfl hA) h
  | qualTimerExpiry _ => exact execQualTimerExpiry_keeps K (sub rfl hA) h
  | wtrExpiry _ => exact execWtrExpiry_keeps K (sub rfl hA) h
  | switchTransactionStart _ => exact execSwitchTransactionStart_keeps K (sub rfl hA) h
  | switchTransactionEnd _ => exact execSwitchTransactionEnd_keeps K (sub rfl hA) h
  | qcClassUpdate => exact execQcClassUpdate_keeps K (sub rfl hA) h
  | holdoverUpdate => exact execHoldoverUpdate_keeps K (sub rfl hA) h
  | larderEntryWrite => exact execLarderEntryWrite_keeps K (sub rfl hA) h
  | tstatHoldExpiry => exact execTstatHoldExpiry_keeps K (sub rfl hA) h
  | osynLock _ => exact execOsynLock_keeps K (sub rfl hA) h
  | squelchRelease _ => exact execSquelchRelease_keeps K (sub rfl hA) h
  | todMessage _ => exact execTodMessage_keeps K (sub rfl hA) h
  | todRxLabel _ => exact execTodRxLabel_keeps K (sub rfl hA) h
  | portIslandWakeDone _ _ => exact execPortIslandWakeDone_keeps K (sub rfl hA) h
  | rxLock _ => exact execRxLock_keeps K (sub rfl hA) h
  | ctleSweepDone _ _ => exact execCtleSweepDone_keeps K (sub rfl hA) h
  | latencyReport _ _ _ => exact execLatencyReport_keeps K (sub rfl hA) h
  | linkUp _ _ => exact execLinkUp_keeps K (sub rfl hA) h
  | linkDown _ _ _ => exact execLinkDown_keeps K (sub rfl hA) h
  | txRestart _ _ => exact execTxRestart_keeps K (sub rfl hA) h
  | sdsTrimDone _ => exact execSdsTrimDone_keeps K (sub rfl hA) h
  | prbsLockChange _ _ _ _ => exact execPrbsLockChange_keeps K (sub rfl hA) h
  | ptsRecalDue _ _ => exact execPtsRecalDue_keeps K (sub rfl hA) h
  | phaseSample _ _ _ => exact execPhaseSample_keeps K (sub rfl hA) h
  | frameRx _ _ _ _ _ _ => exact execFrameRx_keeps K (sub rfl hA) h
  | frameEnd _ _ _ _ _ => exact execFrameEnd_keeps K (sub rfl hA) h
  | egressPick _ _ => exact execEgressPick_keeps K (sub rfl hA) h
  | frameTxDone _ _ => exact execFrameTxDone_keeps K (sub rfl hA) h
  | swDpSlip _ _ => exact execSwDpSlip_keeps K (sub rfl hA) h
  | agerVisit _ => exact execAgerVisit_keeps K (sub rfl hA) h
  | ftWalkTimeout => exact execFtWalkTimeout_keeps K (sub rfl hA) h
  | spillWrite _ => exact execSpillWrite_keeps K (sub rfl hA) h
  | spillReadback _ => exact execSpillReadback_keeps K (sub rfl hA) h
  | spillDrainDone => exact execSpillDrainDone_keeps K (sub rfl hA) h
  | mergeDue _ _ => exact execMergeDue_keeps K (sub rfl hA) h
  | fmDrainDone _ => exact execFmDrainDone_keeps K (sub rfl hA) h
  | releaseCopyStart _ _ => exact execReleaseCopyStart_keeps K (sub rfl hA) h
  | erDrainDone _ => exact execErDrainDone_keeps K (sub rfl hA) h
  | evdRecord => exact execEvdRecord_keeps K (sub rfl hA) h
  | evdBlockClose => exact execEvdBlockClose_keeps K (sub rfl hA) h
  | evdBlockSigned => exact execEvdBlockSigned_keeps K (sub rfl hA) h
  | ttPeriodicTx _ _ _ _ _ => exact execTtPeriodicTx_keeps K (sub rfl hA) h
  | ptpMessageRx _ _ _ => exact execPtpMessageRx_keeps K (sub rfl hA) h
  | ttPhaseReportTx _ => exact execTtPhaseReportTx_keeps K (sub rfl hA) h
  | ttPhaseReportRx => exact execTtPhaseReportRx_keeps K (sub rfl hA) h
  | ttPhaseEntry _ => exact execTtPhaseEntry_keeps K (sub rfl hA) h
  | ttReportTimeout _ => exact execTtReportTimeout_keeps K (sub rfl hA) h
  | ttPhaseSlip _ => exact execTtPhaseSlip_keeps K (sub rfl hA) h
  | ttServoTimeout _ => exact execTtServoTimeout_keeps K (sub rfl hA) h
  | esmcPduTx _ => exact execEsmcPduTx_keeps K (sub rfl hA) h
  | esmcPduRx _ _ => exact execEsmcPduRx_keeps K (sub rfl hA) h
  | gnssEpoch _ _ => exact execGnssEpoch_keeps K (sub rfl hA) h
  | gnRateChange _ => exact execGnRateChange_keeps K (sub rfl hA) h
  | gnPortLoss _ _ => exact execGnPortLoss_keeps K (sub rfl hA) h
  | gnPortReturn _ _ => exact execGnPortReturn_keeps K (sub rfl hA) h
  | gnMagCheck _ _ _ => exact execGnMagCheck_keeps K (sub rfl hA) h
  | surveyDone _ => exact execSurveyDone_keeps K (sub rfl hA) h
  | spoofHoldExpiry _ => exact execSpoofHoldExpiry_keeps K (sub rfl hA) h
  | gnNoSatTimeout _ => exact execGnNoSatTimeout_keeps K (sub rfl hA) h
  | evtinEdge _ _ _ _ _ => exact execEvtinEdge_keeps K (sub rfl hA) h
  | emRingMove _ => exact execEmRingMove_keeps K (sub rfl hA) h
  | emGateOpen _ => exact execEmGateOpen_keeps K (sub rfl hA) h
  | emGateClose _ => exact execEmGateClose_keeps K (sub rfl hA) h
  | twHeartbeatTx => exact execTwHeartbeatTx_keeps K (sub rfl hA) h
  | twHeartbeatRx _ _ _ _ _ _ _ _ => exact execTwHeartbeatRx_keeps K (sub rfl hA) h
  | twTimeTx => exact execTwTimeTx_keeps K (sub rfl hA) h
  | twTimeRx good stamp here timeA timeB stepA stepB rateA rateB served =>
    show Nx P (execTwTimeRx good stamp here timeA timeB stepA stepB rateA rateB served s)
    exact execTwTimeRx_keeps K (sub rfl hA) h
  | twMirrorRx _ _ _ _ _ => exact execTwMirrorRx_keeps K (sub rfl hA) h
  | twAckRx _ _ _ _ => exact execTwAckRx_keeps K (sub rfl hA) h
  | mirrorAckTimeout => exact execMirrorAckTimeout_keeps K (sub rfl hA) h
  | twEvdBhRx _ _ _ _ => exact execTwEvdBhRx_keeps K (sub rfl hA) h
  | twClaimRx _ _ _ => exact execTwClaimRx_keeps K (sub rfl hA) h
  | twLinkTimeout => exact execTwLinkTimeout_keeps K (sub rfl hA) h
  | twHbMiss => exact execTwHbMiss_keeps K (sub rfl hA) h
  | twFaultTimeout => exact execTwFaultTimeout_keeps K (sub rfl hA) h
  | twTwclkLoss => exact execTwTwclkLoss_keeps K (sub rfl hA) h
  | twAlign _ => exact execTwAlign_keeps K (sub rfl hA) h
  | twWtrExpiry => exact execTwWtrExpiry_keeps K (sub rfl hA) h
  | bwWindowEnd _ _ _ _ _ => exact execBwWindowEnd_keeps K (sub rfl hA) h
  | corrWriteback _ _ => exact execCorrWriteback_keeps K (sub rfl hA) h
  | trackerExpiry _ _ => exact execTrackerExpiry_keeps K (sub rfl hA) h
  | mergeBufferFlush _ _ => exact execMergeBufferFlush_keeps K (sub rfl hA) h
  | deviceCalAuto _ => exact execDeviceCalAuto_keeps K (sub rfl hA) h
  | calPartDone _ _ _ => exact execCalPartDone_keeps K (sub rfl hA) h
  | calAccept _ => exact execCalAccept_keeps K (sub rfl hA) h
  | stampCorrApply _ _ _ => exact execStampCorrApply_keeps K (sub rfl hA) h
  | asymApply _ => exact execAsymApply_keeps K (sub rfl hA) h
  | fmTrimApply _ => exact execFmTrimApply_keeps K (sub rfl hA) h
  | erTrimApply _ => exact execErTrimApply_keeps K (sub rfl hA) h
  | fwLoadDone => exact execFwLoadDone_keeps K (sub rfl hA) h
  | fwFreeze => exact execFwFreeze_keeps K (sub rfl hA) h
  | fwHandoverDone => exact execFwHandoverDone_keeps K (sub rfl hA) h
  | fwWaitTimeout => exact execFwWaitTimeout_keeps K (sub rfl hA) h
  | fwFreezeTimeout => exact execFwFreezeTimeout_keeps K (sub rfl hA) h
  | heldSteerExpiry => exact execHeldSteerExpiry_keeps K (sub rfl hA) h
  | fwTrialExpiry => exact execFwTrialExpiry_keeps K (sub rfl hA) h
  | fwHealthFail _ => exact execFwHealthFail_keeps K (sub rfl hA) h
  | watchdogExpiry => exact execWatchdogExpiry_keeps K (sub rfl hA) h
  | leinnarRestart => exact execLeinnarRestart_keeps K (sub rfl hA) h
  | leinnarRestartDone => exact execLeinnarRestartDone_keeps K (sub rfl hA) h
  | tamperActive _ _ => exact execTamperActive_keeps K (sub rfl hA) h
  | selftestFailure _ => exact execSelftestFailure_keeps K (sub rfl hA) h
  | drbgReseed => exact execDrbgReseed_keeps K (sub rfl hA) h
  | secVbatLow _ => exact execSecVbatLow_keeps K (sub rfl hA) h
  | aoContentsLost => exact execAoContentsLost_keeps K (sub rfl hA) h
  | aoXtalStop => exact execAoXtalStop_keeps K (sub rfl hA) h
  | aoAnchorWrite _ => exact execAoAnchorWrite_keeps K (sub rfl hA) h
  | firstSegmentOpen _ _ => exact execFirstSegmentOpen_keeps K (sub rfl hA) h
  | twinLinkDown => exact execTwinLinkDown_keeps K (sub rfl hA) h
  | tapReset => exact execTapReset_keeps K (sub rfl hA) h

/-- The value of DTT is kept by every elementary update but one of DTT itself. -/
theorem dtt_keeps (M d : Nat) (hM : M.testBit Part.dtt.ctorIdx = false) (hR : M.testBit 100 = false) : Keeps (fun t => t.dtt = d) M where
  setF := fun _ _ _ _ h => h
  drop := fun _ _ _ h => h
  dma := fun _ _ _ _ h => h
  rest := fun _ _ _ _ hp h => (hp .dtt hM rfl).trans h
  again := fun _ hb _ => absurd hb (by simp [hR])

/-- Outside main reset a tick makes DTT one higher; what the tick brings about beside it leaves DTT as it is. -/
theorem tick_dtt {s : State} (h : s.boot.inReset = false) : (tick s).dtt = s.dtt + 1 := by
  have K := dtt_keeps 9223372036754112511 (s.dtt + 1) (by decide) (by decide)
  have hf : (follow { s with dtt := s.dtt + 1 }).dtt = s.dtt + 1 := follow_keeps K (sub_of rfl) rfl
  simp only [tick, h, Bool.false_eq_true, if_false]
  exact serveOddSmb_keeps K (sub_of rfl) (serveOdd_keeps K (sub_of rfl) (serveOdd_keeps K (sub_of rfl) (ackMet_keeps K (sub_of rfl) hf)))

/-- Under main reset a tick changes nothing (R691). -/
theorem tick_inReset {s : State} (h : s.boot.inReset = true) : tick s = s := by
  simp only [tick, h, if_true]

/-- Settles O2: the tick's own lemmas say it for every state. -/
theorem emptyQueueIsOneTick : Obligations.EmptyQueueIsOneTick := by
  intro s hq
  refine ⟨?_, tick_dtt, tick_inReset⟩
  simp only [step, hq]

/-- Settles O3: DTT is kept by every elementary update, and only the commands of main reset start the state again. -/
theorem dttMovesByTicksAlone : Obligations.DttMovesByTicksAlone := by
  refine ⟨fun s hr _ => tick_dtt hr, ?_⟩
  intro i s t hassert hrelease hthermal ht
  exact exec_keeps_outside_reset (dtt_keeps 9223372036754112511 s.dtt (by decide) (by decide)) (sub_of rfl) hassert hrelease hthermal rfl t ht

end Sys2Proof.Machine

/-! SUPPORT. What a command finds and leaves: the arguments and states its start checks have let pass, the state its effect begins in, and
reading one part of the state past an operation that cannot touch it. -/

namespace Sys2Proof.Machine

/-! ### What the start checks have let pass -/

/-- Where no field of a payload is reported, none is invalid (R116). -/
theorem firstBad_none {l : List (Nat × Bool)} (h : firstBad l = none) : ∀ e ∈ l, e.2 = false := by
  have grows : ∀ (q : List Nat) (n : Nat), q.foldl (fun m o => match m with | none => some o | some n => some (min n o)) (some n) ≠ none := by
    intro q
    induction q with
    | nil => simp
    | cons o r ih => intro n; exact ih (min n o)
  intro e he
  by_contra hb
  have hmem : e.1 ∈ (l.filter (·.2)).map (·.1) := List.mem_map.2 ⟨e, List.mem_filter.2 ⟨he, by simpa using hb⟩, rfl⟩
  unfold firstBad at h
  generalize (l.filter (·.2)).map (·.1) = q at h hmem
  cases q with
  | nil => simp at hmem
  | cons o r => exact grows r o h

section Started

variable {k : CmdSpec} {c : Cmd} {s : State}

/-- A command that starts has passed the checks of its payload and of the state. -/
theorem Starts.lateCheck_none (h : Starts k c s) : lateCheck k c s = none := by
  have hs := h.2
  unfold startCheck at hs
  split at hs
  · cases hs
  · exact hs

/-- A command that starts has no invalid argument. -/
theorem Starts.args_none (h : Starts k c s) : k.args c s = none := by
  have hl := h.lateCheck_none
  unfold lateCheck at hl
  split at hl
  · cases hl
  split at hl
  · cases hl
  split at hl
  · cases hl
  · assumption

end Started

/-! ### One part past an operation -/

/-- The mask of every part but `p`. -/
def without (p : Part) : Nat := 2 ^ 64 - 1 - 2 ^ p.ctorIdx

theorem without_bit (p : Part) (k : Nat) (h : (without p).testBit k = true) : k ≠ p.ctorIdx ∧ k < 64 := by
  have hp : p.ctorIdx < 64 := by cases p <;> decide
  have key : ∀ n, n < 64 → (2 ^ 64 - 1 - 2 ^ n).testBit n = false := by decide
  refine ⟨fun hk => ?_, ?_⟩
  · subst hk
    exact absurd h (by rw [without, key _ hp]; decide)
  · by_contra hk
    have hlt : without p < 2 ^ k :=
      calc without p ≤ 2 ^ 64 - 1 := Nat.sub_le _ _
        _ < 2 ^ 64 := by decide
        _ ≤ 2 ^ k := Nat.pow_le_pow_right (by decide) (by omega)
    rw [Nat.testBit_lt_two_pow hlt] at h
    cases h

/-- A part is kept as it was by every operation whose mask leaves it out. -/
theorem same_keeps (p : Part) (s0 : State) : Keeps (fun t => p.same s0 t) (without p) where
  setF := fun s f v hb h => Part.same_trans h (Part.same_setF p s f v (without_bit p _ hb).1)
  drop := fun s q hb h => Part.same_trans h (Part.same_drop p s q (fun e he => (without_bit p _ (hb e he)).1))
  dma := by
    intro s a bs hb h
    refine Part.same_trans h ?_
    have hne : p ≠ .hostMem := fun hp => (without_bit p _ hb).1 (by rw [hp])
    cases p <;> first | exact rfl | exact sameRegs_of _ rfl | exact absurd rfl hne
  rest := by
    intro s t hr hm hb h
    refine Part.same_trans h (Part.same_rest p hr hm (hb p ?_))
    by_contra hk
    exact (without_bit p _ (by simpa using hk)).1 rfl
  again := fun s hb _ => absurd (without_bit p _ hb).2 (by decide)

end Sys2Proof.Machine

/-! SUPPORT. Reading the state in which a command's effect begins: taking its entry changes the mailbox alone, and mirroring it the twin's frames. -/

namespace Sys2Proof.Machine

/-- A register field outside the parts of a frame reads as before, where its part is known. -/
theorem FrameOf.getF_of_part {ps : List Part} {s t : State} (h : FrameOf ps s t) {f : Fld} {b : Nat} (hb : regPart f.addr = b)
    (hp : ps.all (fun p => decide (p.ctorIdx ≠ b)) = true) : t.getF f = s.getF f := h.getF f (by rw [hb]; exact hp)

/-- A word of registers outside the parts of a frame reads as before. -/
theorem FrameOf.regWord {ps : List Part} {s t : State} (h : FrameOf ps s t) {a b : Nat} (hb : regPart a = b)
    (hp : ps.all (fun p => decide (p.ctorIdx ≠ b)) = true) : t.regWord a = s.regWord a := by
  unfold State.regWord
  split
  · rfl
  · congr 1
    exact List.map_congr_left fun f _ => by rw [h.getF_of_part (f := ⟨a, f.lo, f.hi - f.lo + 1⟩) hb hp]

/-! ### Fields -/

theorem getF_of_regs {s t : State} (h : t.regs = s.regs) (f : Fld) : t.getF f = s.getF f := by
  unfold State.getF
  rw [h]

theorem isF_of_getF {s t : State} {f : Fld} (h : t.getF f = s.getF f) : t.isF f = s.isF f := by
  unfold State.isF
  rw [h]

theorem isF_of_regs {s t : State} (h : t.regs = s.regs) (f : Fld) : t.isF f = s.isF f := by
  unfold State.isF
  rw [getF_of_regs h]

/-- A one-bit field set from a truth value reads as that value. -/
@[simp] theorem isF_setB_same (s : State) (f : Fld) (b : Bool) (hw : f.width = 1) : (s.setB f b).isF f = b := by
  unfold State.isF State.setB
  rw [getF_setF_same, hw]
  cases b <;> rfl

theorem isF_setF_ne (s : State) {f g : Fld} (v : Nat) (h : g.key ≠ f.key) : (s.setF f v).isF g = s.isF g := by
  unfold State.isF
  rw [getF_setF_ne s v h]

/-- A field reads past a write of another one. -/
theorem read_setF {s : State} {f g : Fld} {v w : Nat} (h : f.key ≠ g.key) (hs : s.getF f = w) : (s.setF g v).getF f = w :=
  (getF_setF_ne s v h).trans hs

theorem read_setB {s : State} {f g : Fld} {b : Bool} {w : Nat} (h : f.key ≠ g.key) (hs : s.getF f = w) : (s.setB g b).getF f = w :=
  read_setF h hs

/-- A field reads past every update that leaves the registers alone. -/
theorem read_with {s t : State} {f : Fld} {w : Nat} (h : t.regs = s.regs) (hs : s.getF f = w) : t.getF f = w := (getF_of_regs h f).trans hs

section Taken

variable (c : Cmd) (s : State)

@[simp] theorem taken_dtt : (taken c s).dtt = s.dtt := taken_frame c s .dtt (by decide)
@[simp] theorem taken_islands : (taken c s).islands = s.islands := taken_frame c s .islands (by decide)
@[simp] theorem taken_gn : (taken c s).gn = s.gn := taken_frame c s .gn (by decide)
@[simp] theorem taken_em : (taken c s).em = s.em := taken_frame c s .em (by decide)
@[simp] theorem taken_sw : (taken c s).sw = s.sw := taken_frame c s .sw (by decide)
@[simp] theorem taken_tw : (taken c s).tw = s.tw := taken_frame c s .tw (by decide)
@[simp] theorem taken_cal : (taken c s).cal = s.cal := taken_frame c s .cal (by decide)
@[simp] theorem taken_calRecs : (taken c s).calRecs = s.calRecs := taken_frame c s .calRecs (by decide)
@[simp] theorem taken_awake (k : Nat) : (taken c s).awake k = s.awake k := by unfold State.awake; rw [taken_islands]

/-- A register field outside the mailbox reads as before the entry was taken. -/
theorem taken_getF {f : Fld} {b : Nat} (hb : regPart f.addr = b) (hne : decide (2 ≠ b ∧ 32 ≠ b) = true) : (taken c s).getF f = s.getF f := by
  refine (taken_frame c s).getF_of_part hb ?_
  obtain ⟨h, h'⟩ := of_decide_eq_true hne
  simp [Part.ctorIdx, h, h']

theorem taken_isF {f : Fld} {b : Nat} (hb : regPart f.addr = b) (hne : decide (2 ≠ b ∧ 32 ≠ b) = true) : (taken c s).isF f = s.isF f := by
  unfold State.isF
  rw [taken_getF c s hb hne]

/-- The command in service has its start stamp. -/
@[simp] theorem taken_startedAt : (taken c s).mbx.startedAt = startStamp c s := by
  unfold taken takeEntry
  dsimp only
  split
  · unfold syncPending State.setQueue
    split <;> rfl
  · rfl

/-- The first step of a stepped command begins with the mailbox and the twin's frames changed alone. -/
theorem begun_frame (k : CmdSpec) : FrameOf [.rMbx, .rTw, .mbx, .tw] s (begun k c s) := by
  have K := frame_keeps [.rMbx, .rTw, .mbx, .tw] s
  have h : FrameOf [.rMbx, .rTw, .mbx, .tw] s (mirrorOut k.opcode c (mirrors k c s) (taken c s)) :=
    mirrorOut_keeps K (sub_of rfl) (takeEntry_keeps K (sub_of rfl) (FrameOf.refl _ s))
  exact upd_mbx K (sub_of rfl) h

variable (k : CmdSpec)

@[simp] theorem begun_dtt : (begun k c s).dtt = s.dtt := begun_frame c s k .dtt (by decide)
@[simp] theorem begun_islands : (begun k c s).islands = s.islands := begun_frame c s k .islands (by decide)
@[simp] theorem begun_awake (n : Nat) : (begun k c s).awake n = s.awake n := by unfold State.awake; rw [begun_islands]

/-- A register field outside the mailbox and the twin block reads as before. -/
theorem begun_getF {f : Fld} {b : Nat} (hb : regPart f.addr = b) (hne : decide (2 ≠ b ∧ 20 ≠ b) = true) : (begun k c s).getF f = s.getF f := by
  have hlt : b < 25 := hb ▸ regPart_lt f.addr
  refine (begun_frame c s k).getF_of_part hb ?_
  obtain ⟨h, h'⟩ := of_decide_eq_true hne
  have h32 : ¬ 32 = b := by omega
  have h52 : ¬ 53 = b := by omega
  simp [Part.ctorIdx, h, h', h32, h52]

end Taken

end Sys2Proof.Machine

/-! SUPPORT. The commands of group 0x06 (R352, R359 to R362, R366, R367, R369). -/

namespace Sys2Proof.Machine

/-! ### Solutions -/

@[simp] theorem gnSol_setGnSol_same (k : Nat) (x : GnSol) (s : State) : (s.setGnSol k x).gnSol k = x := by
  unfold State.setGnSol State.gnSol
  split <;> rfl

theorem gnSol_of_sols {s t : State} (hA : t.gn.solA = s.gn.solA) (hB : t.gn.solB = s.gn.solB) (k : Nat) : t.gnSol k = s.gnSol k := by
  unfold State.gnSol
  rw [hA, hB]

theorem gnSol_of_gn {s t : State} (h : t.gn = s.gn) (k : Nat) : t.gnSol k = s.gnSol k := gnSol_of_sols (by rw [h]) (by rw [h]) k

theorem setGnSol_gn_congr {s t : State} (h : t.gn = s.gn) (k : Nat) (x : GnSol) : (t.setGnSol k x).gn = (s.setGnSol k x).gn := by
  unfold State.setGnSol
  rw [h]
  split <;> rfl

/-- Replacing a solution leaves every register as it was. -/
@[simp] theorem setGnSol_regs (k : Nat) (x : GnSol) (s : State) : (s.setGnSol k x).regs = s.regs := by
  unfold State.setGnSol
  split <;> rfl

@[simp] theorem setGnSol_getF (k : Nat) (x : GnSol) (s : State) (f : Fld) : (s.setGnSol k x).getF f = s.getF f :=
  getF_of_regs (setGnSol_regs k x s) f

/-- A candidate lost leaves the receiver and its registers alone. -/
theorem loseCand_gn (i cause : Nat) (s : State) : (loseCand i cause s).gn = s.gn := loseCand_keeps (same_keeps .gn s) (sub_of rfl) rfl

theorem loseCand_gnField (i cause : Nat) (s : State) {f : Fld} (h : regPart f.addr = 7) : (loseCand i cause s).getF f = s.getF f :=
  loseCand_keeps (same_keeps .rGn s) (sub_of rfl) (Part.same_refl .rGn s) f h

theorem raiseEv_gn (src sev code : Nat) (fs : List (Nat × Bytes)) (s : State) : (raiseEv src sev code fs s).gn = s.gn :=
  raiseEv_keeps (same_keeps .gn s) (sub_of rfl) rfl

theorem raiseEv_gnField (src sev code : Nat) (fs : List (Nat × Bytes)) (s : State) {f : Fld} (h : regPart f.addr = 7) :
    (raiseEv src sev code fs s).getF f = s.getF f :=
  raiseEv_keeps (same_keeps .rGn s) (sub_of rfl) (Part.same_refl .rGn s) f h

/-- STATE of a solution after it has passed to a state (R366). -/
theorem gnState_setGnState (k st cause : Nat) (s : State) (h : st < 8) : gnState k (setGnState k st cause s) = st := by
  have hne : (Reg.gnSolStatusState k).key ≠ (Reg.gnSolStatusCause k).key := by simp [Fld.key, Reg.gnSolStatusState, Reg.gnSolStatusCause]
  unfold setGnState gnState
  dsimp only
  split
  case isTrue hold => rw [getF_setF_ne _ _ hne, hold]
  case isFalse hold =>
    have hset : ((s.setF (Reg.gnSolStatusCause k) cause).setF (Reg.gnSolStatusState k) st).getF (Reg.gnSolStatusState k) = st :=
      (getF_setF_same _ _ _).trans (Nat.mod_eq_of_lt h)
    simp [apply_ite (fun t : State => t.getF (Reg.gnSolStatusState k)), loseCand_gnField, raiseEv_gnField, part_gnSolStatusState, hset]

/-- Beside CAUSE and STATE of its own word a change of state leaves the receiver's registers alone. -/
theorem setGnState_getF (k st cause : Nat) (s : State) {f : Fld} (h : regPart f.addr = 7) (hc : f.key ≠ (Reg.gnSolStatusCause k).key)
    (hs : f.key ≠ (Reg.gnSolStatusState k).key) : (setGnState k st cause s).getF f = s.getF f := by
  unfold setGnState
  dsimp only
  simp [apply_ite (fun t : State => t.getF f), loseCand_gnField, raiseEv_gnField, h, getF_setF_ne, hc, hs]

/-- A solution that goes to OFF keeps its settings. -/
theorem setGnState_off_gn (k cause : Nat) (s : State) : (setGnState k 0 cause s).gn = s.gn := by
  unfold setGnState
  simp [apply_ite State.gn, loseCand_gn, raiseEv_gn]

/-- A solution that leaves OFF to acquire notes the start it acquires from and when (R350, R366). -/
theorem setGnState_acquire_gn (k cause : Nat) (s : State) (h : gnState k s = 0) :
    ∃ start, (setGnState k 1 cause s).gn = (s.setGnSol k { s.gnSol k with start := start, lastSat := s.dtt }).gn := by
  unfold setGnState
  simp only [h]
  simp only [raiseEv_gn, Nat.reduceEqDiff, if_false, if_true, or_self]
  exact ⟨_, setGnSol_gn_congr (s := s) (t := (s.setF (Reg.gnSolStatusCause k) cause).setF (Reg.gnSolStatusState k) 1) rfl k _⟩

/-- Beside its solution, replacing one leaves the receiver's settings alone. -/
theorem setGnSol_settings (k : Nat) (x : GnSol) (s : State) : (s.setGnSol k x).gn.loA = s.gn.loA ∧ (s.setGnSol k x).gn.spsA = s.gn.spsA ∧
    (s.setGnSol k x).gn.loB = s.gn.loB ∧ (s.setGnSol k x).gn.spsB = s.gn.spsB := by
  unfold State.setGnSol
  split <;> exact ⟨rfl, rfl, rfl, rfl⟩

/-! ### GN_ENABLE -/

/-- The state has the settings of a GN_ENABLE (R352, R374). -/
def HasGnSettings (c : Cmd) (t : State) : Prop :=
  (t.gnSol (cu c 0 1)).systems = cu c 2 1 ∧ (t.gnSol (cu c 0 1)).refSys = cu c 3 1 ∧ (t.gnSol (cu c 0 1)).flags = cu c 4 1 % 8 ∧
  (t.gnSol (cu c 0 1)).elev = cu c 6 1 ∧ (t.gnSol (cu c 0 1)).cn0 = cu c 7 1 ∧ (t.gnSol (cu c 0 1)).aid = cu c 8 1 ∧
  (t.gnSol (cu c 0 1)).holdS = cu c 10 2 ∧ t.gn.loA = cu c 12 4 ∧ t.gn.spsA = cu c 16 4 ∧ t.gn.loB = cu c 20 4 ∧ t.gn.spsB = cu c 24 4

theorem HasGnSettings.of_gn {c : Cmd} {s t : State} (h : HasGnSettings c s) (hgn : t.gn = s.gn) : HasGnSettings c t := by
  unfold HasGnSettings
  rw [gnSol_of_gn hgn, hgn]
  exact h

/-- A solution replaced by one with the same settings keeps them. -/
theorem HasGnSettings.setGnSol {c : Cmd} {s : State} (h : HasGnSettings c s) {x : GnSol} (hx : x.systems = (s.gnSol (cu c 0 1)).systems ∧
    x.refSys = (s.gnSol (cu c 0 1)).refSys ∧ x.flags = (s.gnSol (cu c 0 1)).flags ∧ x.elev = (s.gnSol (cu c 0 1)).elev ∧
    x.cn0 = (s.gnSol (cu c 0 1)).cn0 ∧ x.aid = (s.gnSol (cu c 0 1)).aid ∧ x.holdS = (s.gnSol (cu c 0 1)).holdS) :
    HasGnSettings c (s.setGnSol (cu c 0 1) x) := by
  obtain ⟨hsys, href, hfl, hel, hcn, haid, hh⟩ := hx
  obtain ⟨hloA, hspsA, hloB, hspsB⟩ := setGnSol_settings (cu c 0 1) x s
  unfold HasGnSettings
  rw [gnSol_setGnSol_same, hsys, href, hfl, hel, hcn, haid, hh, hloA, hspsA, hloB, hspsB]
  exact h

/-- The solution that GN_ENABLE names with its settings taken (R352). -/
def gnSettledSol (c : Cmd) (s : State) : GnSol :=
  let y := { s.gnSol (cu c 0 1) with systems := cu c 2 1, refSys := cu c 3 1, flags := cu c 4 1 % 8, elev := cu c 6 1, cn0 := cu c 7 1, aid := cu c 8 1,
                                     holdS := cu c 10 2 }
  if gnState (cu c 0 1) s ≠ 0 ∧ cu c 1 1 = 1 then { y with rateNext := if y.rate = cu c 5 1 then none else some (cu c 5 1) }
  else { y with rate := cu c 5 1, rateNext := none }

/-- The state with the settings of GN_ENABLE taken, before its state change. -/
def gnSettled (c : Cmd) (s : State) : State :=
  let k := cu c 0 1
  let s := s.setGnSol k (gnSettledSol c s)
  let s := s.setCand (6 + k) { s.cand (6 + k) with nomFreq := 1000 * (s.gnSol k).rate }
  let s := { s with gn := { s.gn with loA := cu c 12 4, spsA := cu c 16 4, loB := cu c 20 4, spsB := cu c 24 4, spacingA := cu c 28 1,
                                      spacingB := cu c 29 1 } }
  (s.setB (Reg.gnPortInv 0) (cbit c 4 3)).setB (Reg.gnPortInv 1) (cbit c 4 4)

/-- GN_ENABLE with ON: the settings, the island's flag, and ACQUIRING for a solution that was OFF (R366). -/
theorem gnEnableDo_on {c : Cmd} (s : State) (h : cu c 1 1 = 1) :
    gnEnableDo c s = (if gnState (cu c 0 1) s ≠ 0 then (gnSettled c s).setB Reg.gnStatusAwake true
      else setGnState (cu c 0 1) 1 0 (((gnSettled c s).setB Reg.gnStatusAwake true).setGnSol (cu c 0 1)
        { ((gnSettled c s).setB Reg.gnStatusAwake true).gnSol (cu c 0 1) with
          command := false, spoofUntil := none, offPos := 0, valids := [], isos := [], iso := [], leap := none }), okReply) := by
  unfold gnEnableDo gnSettled gnSettledSol
  by_cases hk : gnState (cu c 0 1) s = 0 <;> simp [h, hk]

/-- GN_ENABLE without ON: the settings, then OFF, with the island asleep where the other solution is OFF too (R366, R367). -/
theorem gnEnableDo_off {c : Cmd} (s : State) (h : cu c 1 1 = 0) :
    ∃ u, u = setGnState (cu c 0 1) 0 0 ((gnSettled c s).setB (Reg.gnSolStatusSpoof (cu c 0 1)) false) ∧
      gnEnableDo c s = (gnSleep (((u.setGnSol (cu c 0 1) { u.gnSol (cu c 0 1) with spoofUntil := none, used := [], excluded := [] }).setF
        (Reg.gnSolStatusSats (cu c 0 1)) 0).setF (Reg.gnSolStatusSystems (cu c 0 1)) 0), okReply) := by
  refine ⟨_, rfl, ?_⟩
  unfold gnEnableDo gnSettled gnSettledSol
  simp [h]

theorem gnSettled_settings (c : Cmd) (s : State) : HasGnSettings c (gnSettled c s) := by
  have hsol : (gnSettled c s).gnSol (cu c 0 1) = gnSettledSol c s :=
    (gnSol_of_sols (s := s.setGnSol (cu c 0 1) (gnSettledSol c s)) rfl rfl _).trans (gnSol_setGnSol_same _ _ _)
  unfold HasGnSettings
  rw [hsol]
  unfold gnSettledSol
  split <;> exact ⟨rfl, rfl, rfl, rfl, rfl, rfl, rfl, rfl, rfl, rfl, rfl⟩

/-- The settings change no STATE. -/
theorem gnSettled_gnState (c : Cmd) (k : Nat) (s : State) : gnState k (gnSettled c s) = gnState k s := by
  have hne : ∀ n, (Reg.gnSolStatusState k).key ≠ (Reg.gnPortInv n).key := by
    intro n
    simp only [Fld.key, Reg.gnSolStatusState, Reg.gnPortInv]
    omega
  unfold gnState gnSettled
  dsimp only
  rw [State.setB, getF_setF_ne _ _ (hne 1), State.setB, getF_setF_ne _ _ (hne 0)]
  exact getF_of_regs (setGnSol_regs _ _ s) _

/-- The island's sleep empties the channels' view and leaves the rest of the receiver's settings. -/
theorem gnSleep_gn (s : State) : ∃ v, (gnSleep s).gn = { s.gn with view := v } := by
  unfold gnSleep
  split
  · exact ⟨[], rfl⟩
  · exact ⟨s.gn.view, rfl⟩

theorem HasGnSettings.gnSleep {c : Cmd} {s : State} (h : HasGnSettings c s) : HasGnSettings c (gnSleep s) := by
  obtain ⟨v, hv⟩ := gnSleep_gn s
  unfold HasGnSettings at *
  rw [gnSol_of_sols (s := s) (by rw [hv]) (by rw [hv]), hv]
  exact h

/-- A field of the solutions' words is no field of the receiver's first words. -/
theorem key_ne_below {f g : Fld} (hf : 0x140100 ≤ f.addr) (hg : g.addr < 0x140100) : f.key ≠ g.key := by
  simp only [Fld.key]
  omega

theorem setPortOk_getF (port : Nat) (b : Bool) (s : State) {f : Fld} (hf : 0x140100 ≤ f.addr) : (setPortOk port b s).getF f = s.getF f := by
  have hport : (Reg.gnPortOk port).addr < 0x140100 := by
    simp only [Reg.gnPortOk]
    omega
  unfold setPortOk
  refine read_setB (key_ne_below hf ?_) (read_setB (key_ne_below hf hport) rfl)
  split <;> decide

/-- The words of the solutions' status stay as the island sleeps. -/
theorem gnSleep_getF {s : State} {f : Fld} (hf : 0x140100 ≤ f.addr) : (gnSleep s).getF f = s.getF f := by
  unfold gnSleep
  split
  · refine read_setF (key_ne_below hf (by decide)) (read_setB (key_ne_below hf (by decide)) (read_with rfl ?_))
    exact (setPortOk_getF 1 false _ hf).trans ((setPortOk_getF 0 false _ hf).trans (read_with rfl rfl))
  · rfl

/-- With both solutions OFF the island sleeps, and GN_STATUS.AWAKE is 0 (R367). -/
theorem gnSleep_asleep {s : State} (h0 : gnState 0 s = 0) (h1 : gnState 1 s = 0) :
    (gnSleep s).awake 52 = false ∧ (gnSleep s).isF Reg.gnStatusAwake = false := by
  unfold gnSleep
  rw [if_pos ⟨h0, h1⟩]
  constructor
  · have hisl : ∀ t : State, t.islands = s.islands.filter (fun k => k ≠ 52) → t.awake 52 = false := by
      intro t ht
      simp [State.awake, ht]
    exact hisl _ rfl
  · rw [isF_setF_ne _ _ (by decide)]
    exact isF_setB_same _ _ _ rfl

/-- What GN_ENABLE with ON leaves (R366, R374). -/
theorem gnEnableDo_on_leaves {c : Cmd} (s : State) (h : cu c 1 1 = 1) :
    HasGnSettings c (gnEnableDo c s).1 ∧ (gnEnableDo c s).1.isF Reg.gnStatusAwake = true ∧
    (gnState (cu c 0 1) s = 0 → gnState (cu c 0 1) (gnEnableDo c s).1 = 1) ∧
    (gnState (cu c 0 1) s ≠ 0 → gnState (cu c 0 1) (gnEnableDo c s).1 = gnState (cu c 0 1) s) := by
  have hset : HasGnSettings c ((gnSettled c s).setB Reg.gnStatusAwake true) := (gnSettled_settings c s).of_gn rfl
  have hawake : ((gnSettled c s).setB Reg.gnStatusAwake true).getF Reg.gnStatusAwake = 1 := getF_setF_same _ _ _
  have hstate : gnState (cu c 0 1) ((gnSettled c s).setB Reg.gnStatusAwake true) = gnState (cu c 0 1) s :=
    read_setB (key_ne_below (by simp only [Reg.gnSolStatusState]; omega) (by decide)) (gnSettled_gnState c _ s)
  rw [gnEnableDo_on s h]
  dsimp only
  split
  case isTrue hon => exact ⟨hset, by rw [State.isF, hawake]; rfl, fun h0 => absurd h0 hon, fun _ => hstate⟩
  case isFalse hoff =>
    generalize (gnSettled c s).setB Reg.gnStatusAwake true = t at hset hawake hstate
    have hcold := HasGnSettings.setGnSol (x := { t.gnSol (cu c 0 1) with
      command := false, spoofUntil := none, offPos := 0, valids := [], isos := [], iso := [], leap := none }) hset ⟨rfl, rfl, rfl, rfl, rfl, rfl, rfl⟩
    have hc0 := setGnSol_getF (cu c 0 1) { t.gnSol (cu c 0 1) with
      command := false, spoofUntil := none, offPos := 0, valids := [], isos := [], iso := [], leap := none } t
    generalize t.setGnSol (cu c 0 1) _ = u at hcold hc0
    have hu : gnState (cu c 0 1) u = 0 := (hc0 _).trans (hstate.trans (not_not.1 hoff))
    obtain ⟨start, hgn⟩ := setGnState_acquire_gn (cu c 0 1) 0 u hu
    have hstart := hcold.setGnSol (x := { u.gnSol (cu c 0 1) with start := start, lastSat := u.dtt }) ⟨rfl, rfl, rfl, rfl, rfl, rfl, rfl⟩
    refine ⟨hstart.of_gn hgn, ?_, fun _ => gnState_setGnState _ 1 0 u (by decide),
      fun h1 => absurd h1 hoff⟩
    have hne : ∀ f : Fld, 0x140100 ≤ f.addr → Reg.gnStatusAwake.key ≠ f.key := fun f hf => (key_ne_below hf (by decide)).symm
    rw [State.isF, setGnState_getF _ 1 0 u (f := Reg.gnStatusAwake) rfl (hne _ (by simp only [Reg.gnSolStatusCause]; omega))
      (hne _ (by simp only [Reg.gnSolStatusState]; omega)), hc0, hawake]
    rfl

/-- What GN_ENABLE without ON leaves (R366, R367). -/
theorem gnEnableDo_off_leaves {c : Cmd} (s : State) (h : cu c 1 1 = 0) (hk : cu c 0 1 ≤ 1) :
    HasGnSettings c (gnEnableDo c s).1 ∧ gnState (cu c 0 1) (gnEnableDo c s).1 = 0 ∧
    (gnEnableDo c s).1.isF (Reg.gnSolStatusSpoof (cu c 0 1)) = false ∧
    (gnState (1 - cu c 0 1) s = 0 → (gnEnableDo c s).1.awake 52 = false ∧ (gnEnableDo c s).1.isF Reg.gnStatusAwake = false) := by
  obtain ⟨u, hu, hdo⟩ := gnEnableDo_off s h
  have hset : HasGnSettings c u := (gnSettled_settings c s).of_gn (hu ▸ setGnState_off_gn _ 0 _)
  have hstate : gnState (cu c 0 1) u = 0 := hu ▸ gnState_setGnState _ 0 0 _ (by decide)
  have hspoof : u.isF (Reg.gnSolStatusSpoof (cu c 0 1)) = false := by
    rw [hu, State.isF, setGnState_getF (cu c 0 1) 0 0 _ (f := Reg.gnSolStatusSpoof (cu c 0 1)) part_gnSolStatusSpoof
      (by simp [Fld.key, Reg.gnSolStatusSpoof, Reg.gnSolStatusCause]) (by simp [Fld.key, Reg.gnSolStatusSpoof, Reg.gnSolStatusState])]
    exact isF_setB_same _ _ _ rfl
  have hother : gnState (1 - cu c 0 1) u = gnState (1 - cu c 0 1) s := by
    rw [hu, gnState, setGnState_getF (cu c 0 1) 0 0 _ (f := Reg.gnSolStatusState (1 - cu c 0 1)) part_gnSolStatusState
      (by simp only [Fld.key, Reg.gnSolStatusState, Reg.gnSolStatusCause]; omega) (by simp only [Fld.key, Reg.gnSolStatusState]; omega)]
    exact read_setB (by simp only [Fld.key, Reg.gnSolStatusState, Reg.gnSolStatusSpoof]; omega) (gnSettled_gnState c _ s)
  have hfree := hset.setGnSol (x := { u.gnSol (cu c 0 1) with spoofUntil := none, used := [], excluded := [] }) ⟨rfl, rfl, rfl, rfl, rfl, rfl, rfl⟩
  have hread : ∀ f : Fld, f.key ≠ (Reg.gnSolStatusSats (cu c 0 1)).key → f.key ≠ (Reg.gnSolStatusSystems (cu c 0 1)).key →
      (((u.setGnSol (cu c 0 1) { u.gnSol (cu c 0 1) with spoofUntil := none, used := [], excluded := [] }).setF
        (Reg.gnSolStatusSats (cu c 0 1)) 0).setF (Reg.gnSolStatusSystems (cu c 0 1)) 0).getF f = u.getF f :=
    fun f hsat hsys => read_setF hsys (read_setF hsat (setGnSol_getF _ _ _ _))
  rw [hdo]
  dsimp only
  have hset' : HasGnSettings c (((u.setGnSol (cu c 0 1) { u.gnSol (cu c 0 1) with spoofUntil := none, used := [], excluded := [] }).setF
      (Reg.gnSolStatusSats (cu c 0 1)) 0).setF (Reg.gnSolStatusSystems (cu c 0 1)) 0) := hfree.of_gn rfl
  generalize ((u.setGnSol (cu c 0 1) { u.gnSol (cu c 0 1) with spoofUntil := none, used := [], excluded := [] }).setF
      (Reg.gnSolStatusSats (cu c 0 1)) 0).setF (Reg.gnSolStatusSystems (cu c 0 1)) 0 = v at hset' hread
  have hv : ∀ j, j ≤ 1 → gnState j v = gnState j u := fun j hj => hread _
    (by simp only [Fld.key, Reg.gnSolStatusState, Reg.gnSolStatusSats]; omega) (by simp only [Fld.key, Reg.gnSolStatusState, Reg.gnSolStatusSystems]; omega)
  have hsolField : 0x140100 ≤ (Reg.gnSolStatusState (cu c 0 1)).addr := by simp only [Reg.gnSolStatusState]; omega
  refine ⟨hset'.gnSleep, ?_, ?_, fun h1 => ?_⟩
  · exact (gnSleep_getF hsolField).trans ((hv _ hk).trans hstate)
  · rw [State.isF, gnSleep_getF (by simp only [Reg.gnSolStatusSpoof]; omega), hread]
    · exact hspoof
    · simp [Fld.key, Reg.gnSolStatusSpoof, Reg.gnSolStatusSats]
    · simp [Fld.key, Reg.gnSolStatusSpoof, Reg.gnSolStatusSystems]
  · have hk0 : gnState (cu c 0 1) v = 0 := (hv _ hk).trans hstate
    have hk1 : gnState (1 - cu c 0 1) v = 0 := (hv _ (by omega)).trans (hother.trans h1)
    rcases Nat.le_one_iff_eq_zero_or_eq_one.1 hk with hz | ho
    · rw [hz] at hk0 hk1
      exact gnSleep_asleep hk0 hk1
    · rw [ho] at hk0 hk1
      exact gnSleep_asleep hk1 hk0

/-! ### Loads -/

/-- One record of a load taken: the counts of the work and the records the receiver holds (R369). -/
def takeOne (kind : Nat) (p : Bytes) (a : List Nat × State) (e : Nat × Nat) : List Nat × State :=
  let v := a.1
  let n := v.getD 0 0
  if e.2 = 0 then (v.set 0 (n + 1), a.2)
  else
    let t := takeRecord (loadRecord kind p e) a.2
    if t.1 then ((v.set 0 (n + 1)).set 1 (v.getD 1 0 + 1), t.2)
    else (((v.set 0 (n + 1)).set 2 (v.getD 2 0 + 1)).set 3 (min n (v.getD 3 0)), t.2)

/-- The first step of a load takes its first 16 records, and then shows whether more remain. -/
theorem loadStep_first (kind : Nat) (o : LongOp) (s : State) (ho : o.work = []) :
    ∃ r o', r = (((loadRecords (o.cmd.len + 1) 0 (loadBytes o.cmd)).getD []).take 16).foldl (takeOne kind (loadBytes o.cmd)) ([0, 0, 0, 0xFFFFFFFF], s) ∧
      o'.work = r.1 ∧
      loadStep kind o s = if r.1.getD 0 0 < ((loadRecords (o.cmd.len + 1) 0 (loadBytes o.cmd)).getD []).length
        then (r.2.setB Reg.gnStatusLoad true, .more o') else (r.2.setB Reg.gnStatusLoad false, .done (loadReply o')) := by
  let all := (loadRecords (o.cmd.len + 1) 0 (loadBytes o.cmd)).getD []
  let r := (all.take 16).foldl (takeOne kind (loadBytes o.cmd)) ([0, 0, 0, 0xFFFFFFFF], s)
  refine ⟨r, { o with work := r.1, estimate := (all.length + 15) / 16 }, rfl, rfl, ?_⟩
  unfold loadStep
  dsimp only
  rw [ho, if_pos rfl]
  rfl

/-- The count of records handled after the first place of a work of four is set. -/
theorem set_handled {v : List Nat} (h : v.length = 4) (n : Nat) : (v.set 0 n).length = 4 ∧ (v.set 0 n).getD 0 0 = n := by
  obtain ⟨w, x, y, z, rfl⟩ := List.length_eq_four.1 h
  exact ⟨rfl, rfl⟩

/-- Another place set leaves the count of records handled. -/
theorem set_other {v : List Nat} {n : Nat} (h : v.length = 4 ∧ v.getD 0 0 = n) (i x : Nat) : (v.set (i + 1) x).length = 4 ∧ (v.set (i + 1) x).getD 0 0 = n := by
  obtain ⟨hlen, rfl⟩ := h
  obtain ⟨a, b, c, d, rfl⟩ := List.length_eq_four.1 hlen
  exact ⟨by rw [List.length_set]; rfl, rfl⟩

/-- A record taken counts as handled. -/
theorem takeOne_handled (kind : Nat) (p : Bytes) (a : List Nat × State) (e : Nat × Nat) (h : a.1.length = 4) :
    (takeOne kind p a e).1.length = 4 ∧ (takeOne kind p a e).1.getD 0 0 = a.1.getD 0 0 + 1 := by
  have hn := set_handled h (a.1.getD 0 0 + 1)
  unfold takeOne
  dsimp only
  split
  · exact hn
  split
  · exact set_other hn 0 _
  · exact set_other (set_other hn 1 _) 2 _

theorem takeOnes_handled (kind : Nat) (p : Bytes) : ∀ (l : List (Nat × Nat)) (a : List Nat × State), a.1.length = 4 →
    (l.foldl (takeOne kind p) a).1.length = 4 ∧ (l.foldl (takeOne kind p) a).1.getD 0 0 = a.1.getD 0 0 + l.length := by
  intro l
  induction l with
  | nil => exact fun a h => ⟨h, rfl⟩
  | cons e l ih =>
    intro a h
    obtain ⟨hlen, hn⟩ := takeOne_handled kind p a e h
    obtain ⟨hlen', hn'⟩ := ih (takeOne kind p a e) hlen
    refine ⟨hlen', hn'.trans ?_⟩
    rw [hn, List.length_cons]
    omega

/-- A load starts with up to 16 records and shows GN_STATUS.LOAD while more remain (R369). -/
theorem load_starts (kind op : Nat) {c : Cmd} {s : State} {o : Out} (h : Starts (loadSpec op) c s)
    (ho : o = runStepped (loadSpec op) (loadStep kind) c s) :
    ∃ s1 e, o = .next (stepped (loadSpec op) c s s1 e) ∧ FrameOf [.rGn, .gn] (begun (loadSpec op) c s) s1 ∧
      s1.isF Reg.gnStatusLoad = decide (16 < ((loadRecords (c.len + 1) 0 (loadBytes c)).getD []).length) ∧
      (16 < ((loadRecords (c.len + 1) 0 (loadBytes c)).getD []).length → ∃ o, e = .more o ∧ o.work.length = 4 ∧ o.work.getD 0 0 = 16) ∧
      (((loadRecords (c.len + 1) 0 (loadBytes c)).getD []).length ≤ 16 → ∃ r, e = .done r ∧ r.status = stOk) := by
  have hframe : FrameOf [.rGn, .gn] (begun (loadSpec op) c s) (loadStep kind (firstRecord (loadSpec op) c s) (begun (loadSpec op) c s)).1 :=
    loadStep_keeps (frame_keeps [.rGn, .gn] _) (sub_of rfl) (FrameOf.refl _ _)
  refine ⟨_, _, ho.trans (runStepped_starts h), hframe, ?_⟩
  obtain ⟨r, o', hr, hwork, hstep⟩ := loadStep_first kind (firstRecord (loadSpec op) c s) (begun (loadSpec op) c s) rfl
  obtain ⟨hlen, hn⟩ := takeOnes_handled kind (loadBytes c) (((loadRecords (c.len + 1) 0 (loadBytes c)).getD []).take 16)
    ([0, 0, 0, 0xFFFFFFFF], begun (loadSpec op) c s) rfl
  change r = (((loadRecords (c.len + 1) 0 (loadBytes c)).getD []).take 16).foldl (takeOne kind (loadBytes c)) _ at hr
  change loadStep kind _ _ = if r.1.getD 0 0 < ((loadRecords (c.len + 1) 0 (loadBytes c)).getD []).length then _ else _ at hstep
  rw [← hr] at hlen hn
  rw [hstep]
  generalize (loadRecords (c.len + 1) 0 (loadBytes c)).getD [] = all at hn ⊢
  have hcount : r.1.getD 0 0 = min 16 all.length := by rw [hn, List.length_take]; exact Nat.zero_add _
  by_cases hmore : 16 < all.length
  · have hlt : r.1.getD 0 0 < all.length := by omega
    rw [if_pos hlt]
    refine ⟨(isF_setB_same _ _ _ rfl).trans (decide_eq_true hmore).symm, fun _ => ⟨o', rfl, ?_, ?_⟩, fun hle => absurd hmore (by omega)⟩
    · rw [hwork]; exact hlen
    · rw [hwork]; omega
  · have hge : ¬ r.1.getD 0 0 < all.length := by omega
    rw [if_neg hge]
    exact ⟨(isF_setB_same _ _ _ rfl).trans (decide_eq_false hmore).symm, fun hlt => absurd hlt hmore, fun _ => ⟨_, rfl, rfl⟩⟩

/-! ### GN_SET_POSITION -/

/-- Every enabled solution is commanded INVALID for the next epoch and starts its survey anew (R359, R360). -/
def gnRestart (s : State) : State :=
  [0, 1].foldl (fun s k =>
    s.setGnSol k { s.gnSol k with command := gnState k s ≠ 0, offPos := 0, surveyed := 0, fixes := 0, sumX := 0, sumY := 0, sumZ := 0 }) s

theorem gnRestart_regs (s : State) : (gnRestart s).regs = s.regs := by
  unfold gnRestart
  simp

theorem gnRestart_position (s : State) : (gnRestart s).gn.surveyS = s.gn.surveyS ∧ (gnRestart s).gn.x = s.gn.x ∧ (gnRestart s).gn.y = s.gn.y ∧
    (gnRestart s).gn.z = s.gn.z := by
  unfold gnRestart
  exact ⟨rfl, rfl, rfl, rfl⟩

theorem gnRestart_sol (s : State) {k : Nat} (hk : k ≤ 1) : ((gnRestart s).gnSol k).command = decide (gnState k s ≠ 0) ∧
    ((gnRestart s).gnSol k).fixes = 0 ∧ ((gnRestart s).gnSol k).surveyed = 0 := by
  rcases Nat.le_one_iff_eq_zero_or_eq_one.1 hk with rfl | rfl
  · exact ⟨rfl, rfl, rfl⟩
  · exact ⟨rfl, rfl, rfl⟩

/-- Writing HOLD of both solutions changes no STATE. -/
theorem showHeld_gnState (b : Bool) (k : Nat) (s : State) : gnState k (showHeld b s) = gnState k s := by
  unfold gnState showHeld
  refine read_setB ?_ (read_setB ?_ rfl)
  all_goals
    simp only [Fld.key, Reg.gnSolStatusState, Reg.gnSolStatusHold]
    omega

theorem showHeld_held (b : Bool) (s : State) : gnHeld (showHeld b s) = b := by
  unfold gnHeld showHeld State.setB
  rw [isF_setF_ne _ _ (by decide)]
  exact isF_setB_same _ _ _ rfl

/-- What GN_SET_POSITION leaves (R359, R360). -/
theorem gnSetPosition_leaves {c : Cmd} (s : State) (hm : cu c 0 1 ≤ 1) :
    gnHeld (gnSetPositionEffect c s).1 = decide (cu c 0 1 = 1) ∧ (cu c 0 1 = 0 → (gnSetPositionEffect c s).1.gn.surveyS = cu c 4 4) ∧
    (cu c 0 1 = 1 → (gnSetPositionEffect c s).1.gn.x = ci c 8 4 ∧ (gnSetPositionEffect c s).1.gn.y = ci c 12 4 ∧
      (gnSetPositionEffect c s).1.gn.z = ci c 16 4) ∧
    (∀ k, k ≤ 1 → ((gnSetPositionEffect c s).1.gnSol k).command = decide (gnState k s ≠ 0) ∧ ((gnSetPositionEffect c s).1.gnSol k).fixes = 0 ∧
      ((gnSetPositionEffect c s).1.gnSol k).surveyed = 0) := by
  have heff : (gnSetPositionEffect c s).1 = gnRestart (if cu c 0 1 = 0 then showHeld false { s with gn := { s.gn with surveyS := cu c 4 4 } }
      else showHeld true { s with gn := { s.gn with x := ci c 8 4, y := ci c 12 4, z := ci c 16 4 } }) := rfl
  have hheld : ∀ t : State, gnHeld (gnRestart t) = gnHeld t := fun t => isF_of_regs (gnRestart_regs t) _
  have hsol : ∀ (b : Bool) (t : State), (∀ k, gnState k t = gnState k s) → ∀ k, k ≤ 1 →
      ((gnRestart (showHeld b t)).gnSol k).command = decide (gnState k s ≠ 0) ∧ ((gnRestart (showHeld b t)).gnSol k).fixes = 0 ∧
        ((gnRestart (showHeld b t)).gnSol k).surveyed = 0 := by
    intro b t ht k hk
    rw [← ht k, ← showHeld_gnState b k t]
    exact gnRestart_sol _ hk
  rw [heff]
  rcases Nat.le_one_iff_eq_zero_or_eq_one.1 hm with h0 | h1
  · rw [if_pos h0, h0, hheld, showHeld_held]
    exact ⟨rfl, fun _ => (gnRestart_position _).1, fun h => absurd h (by decide), hsol false _ (fun k => rfl)⟩
  · rw [if_neg (by omega), h1, hheld, showHeld_held]
    exact ⟨rfl, fun h => absurd h (by decide), fun _ => (gnRestart_position _).2, hsol true _ (fun k => rfl)⟩

/-! ### GN_ENABLE, GN_SET_ANTENNA_DELAY and GN_STATUS -/

theorem gnEnableEffect_asleep {c : Cmd} {s : State} (hon : cu c 1 1 = 1) (hsleep : s.awake 52 = false) : gnEnableEffect c s = (s, none) := by
  unfold gnEnableEffect
  rw [if_pos ⟨hon, hsleep⟩]

theorem gnEnableEffect_runs {c : Cmd} {s : State} (h : cu c 1 1 = 0 ∨ s.awake 52 = true) :
    gnEnableEffect c s = ((gnEnableDo c s).1, some (gnEnableDo c s).2) := by
  unfold gnEnableEffect
  have hrun : ¬ (cu c 1 1 = 1 ∧ s.awake 52 = false) := by
    rintro ⟨hon, hsleep⟩
    rcases h with h | h
    · omega
    · rw [h] at hsleep
      cases hsleep
  rw [if_neg hrun]

theorem gnEnableDo_ok (c : Cmd) (s : State) : (gnEnableDo c s).2 = okReply := by
  unfold gnEnableDo
  dsimp only
  split
  · split <;> rfl
  · rfl

/-- GN_ENABLE names one of the two solutions. -/
theorem gnEnable_solution {c : Cmd} {s : State} (h : Starts gnEnableSpec c s) : cu c 0 1 ≤ 1 := by
  have hbad := firstBad_none h.args_none (0, decide (1 < cu c 0 1)) (by simp)
  simpa using hbad

theorem gnSetPosition_mode {c : Cmd} {s : State} (h : Starts gnSetPositionSpec c s) : cu c 0 1 ≤ 1 := by
  have hbad := firstBad_none h.args_none (0, decide (1 < cu c 0 1)) (by simp)
  simpa using hbad

/-- What GN_SET_ANTENNA_DELAY leaves: the delays and their uncertainty alone (R361, R362). -/
theorem gnSetAntennaDelay_leaves (c : Cmd) (s : State) :
    (gnSetAntennaDelayEffect c s).1 = { s with gn := { s.gn with delayA := (if cbit c 0 0 then cu c 4 8 else s.gn.delayA),
                                                                   delayB := (if cbit c 0 1 then cu c 12 8 else s.gn.delayB), unc := cu c 2 2 } } := by
  unfold gnSetAntennaDelayEffect
  by_cases h0 : cbit c 0 0 = true <;> by_cases h1 : cbit c 0 1 = true <;> simp [h0, h1]

theorem gnStatus_solution {c : Cmd} {s : State} (h : Starts gnStatusSpec c s) : cu c 0 1 ≤ 1 := by
  have hbad := firstBad_none h.args_none (0, decide (1 < cu c 0 1)) (by simp)
  simpa using hbad

/-- What GN_STATUS reports is what the state before its entry was taken holds. -/
theorem gnStatus_reply_taken {c : Cmd} (s : State) (hk : cu c 0 1 ≤ 1) : (gnStatusEffect c (taken c s)).2 = (gnStatusEffect c s).2 := by
  have hsol : ∀ k, (taken c s).gnSol k = s.gnSol k := gnSol_of_gn (taken_gn c s)
  have hword : (taken c s).regWord (0x140100 + cu c 0 1 * 0x100) = s.regWord (0x140100 + cu c 0 1 * 0x100) :=
    (taken_frame c s).regWord (regPart_7 (by omega) (by omega)) (by decide)
  have hsigma : (taken c s).getF (Reg.gnSolSigma (cu c 0 1)) = s.getF (Reg.gnSolSigma (cu c 0 1)) := taken_getF c s part_gnSolSigma (by decide)
  unfold gnStatusEffect channelRecords channelRecord delayIf
  simp only [hsol, hword, hsigma, taken_dtt, taken_gn]

/-- The parts that GN_ENABLE can touch. -/
theorem gnEnableDo_frame (c : Cmd) (s : State) :
    FrameOf [.rHst, .rTb, .rRs, .rPl, .rGn, .rBf, .rCt, .rMp, .freeCount, .evu, .bus, .mbx, .islands, .counters, .tb, .refs, .dpll, .gn, .sw, .ft, .bf,
      .merges, .releases, .evd, .mp] s (gnEnableDo c s).1 := gnEnableDo_keeps (frame_keeps _ s) (sub_of rfl) (FrameOf.refl _ s)

/-- GN_ENABLE that need not wait ends with its effect on the state with its entry taken. -/
theorem gnEnable_ends {c : Cmd} {s : State} (h : Starts gnEnableSpec c s) (hrun : cu c 1 1 = 0 ∨ s.awake 52 = true) :
    exec (.gnEnable c) s = .next (ended gnEnableSpec c s (gnEnableDo c (taken c s)).1 okReply) := by
  have heff := gnEnableEffect_runs (c := c) (s := taken c s) (by rw [taken_awake]; exact hrun)
  rw [gnEnableDo_ok] at heff
  have hends := runHeld_ends (f := gnEnableEffect) (r := okReply) h (by rw [heff])
  rw [heff] at hends
  exact hends

/-- GN_ENABLE with ON waits for the island (R35, R367). -/
theorem gnEnable_waits {c : Cmd} {s : State} (h : Starts gnEnableSpec c s) (hon : cu c 1 1 = 1) (hsleep : s.awake 52 = false) :
    exec (.gnEnable c) s = .next (heldBack gnEnableSpec c s (taken c s)) := by
  have heff := gnEnableEffect_asleep hon ((taken_awake c s 52).trans hsleep)
  have hwaits := runHeld_waits (f := gnEnableEffect) h (by rw [heff])
  rw [heff] at hwaits
  exact hwaits

/-- Settles O36: each command's run is the effect on the state with its entry taken, of which the lemmas above say what it leaves. -/
theorem gnssCommandsComplete : Obligations.GnssCommandsComplete := by
  unfold Obligations.GnssCommandsComplete
  have hgn : ∀ (c : Cmd) (s : State) k, gnState k (taken c s) = gnState k s := fun c s k => taken_getF c s part_gnSolStatusState (by decide)
  refine ⟨fun c s h hon hsleep => ?_, fun c s h hon hawake => ?_, fun c s h hoff => ?_, fun c s h => load_starts 0 0x0602 h rfl,
    fun c s h => load_starts 1 0x0603 h rfl, fun c s h => ?_, fun c s h => ?_, fun c s h => ?_⟩
  · exact ⟨taken c s, gnEnable_waits h hon hsleep, FrameOf.refl _ _, rfl⟩
  · obtain ⟨⟨hsys, href, hfl, hel, hcn, haid, hh, hloA, hspsA, hloB, hspsB⟩, hshown, hstart, hstay⟩ := gnEnableDo_on_leaves (taken c s) hon
    rw [hgn] at hstart hstay
    exact ⟨_, okReply, gnEnable_ends h (Or.inr hawake), gnEnableDo_frame c _, rfl, hsys, href, hfl, hel, hcn, haid, hh, hloA, hspsA, hloB, hspsB,
      hshown, hstart, hstay⟩
  · obtain ⟨⟨hsys, href, hfl, hel, hcn, haid, hh, hloA, hspsA, hloB, hspsB⟩, hstate, hspoof, hsleeps⟩ :=
      gnEnableDo_off_leaves (taken c s) hoff (gnEnable_solution h)
    rw [hgn] at hsleeps
    exact ⟨_, okReply, gnEnable_ends h (Or.inl hoff), gnEnableDo_frame c _, rfl, hsys, href, hfl, hel, hcn, haid, hh, hloA, hspsA, hloB, hspsB,
      hstate, hspoof, hsleeps⟩
  · obtain ⟨hheld, hsurvey, hpos, hsols⟩ := gnSetPosition_leaves (taken c s) (gnSetPosition_mode h)
    simp only [hgn] at hsols
    exact ⟨_, runCmd_starts h, gnSetPositionEffect_keeps (frame_keeps [.rGn, .gn] _) (sub_of rfl) (FrameOf.refl _ _), hheld, hsurvey, hpos, hsols⟩
  · have hleaves := gnSetAntennaDelay_leaves c (taken c s)
    rw [taken_gn] at hleaves
    exact ⟨_, runCmd_starts h, gnSetAntennaDelayEffect_keeps (frame_keeps [.gn] _) (sub_of rfl) (FrameOf.refl _ _), by rw [hleaves], by rw [hleaves]⟩
  · have hrun : exec (.gnStatus c) s = .next (ended gnStatusSpec c s (taken c s) (gnStatusEffect c (taken c s)).2) := runCmd_starts h
    rw [gnStatus_reply_taken s (gnStatus_solution h)] at hrun
    exact ⟨_, hrun, FrameOf.refl _ _, rfl⟩

end Sys2Proof.Machine

/-! SUPPORT. The commands of group 0x07 (R377, R386, R388, R390, R391, R395). -/

namespace Sys2Proof.Machine

/-! ### EM_INPUT_CONFIG -/

@[simp] theorem input_setInput_same (s : State) (e : Nat) (x : EventIn) : (s.setInput e x).input e = x := spGet_spSet_same _ _ _ _

theorem input_of_em {s t : State} (h : t.em = s.em) (e : Nat) : t.input e = s.input e := by
  unfold State.input
  rw [h]

/-- A gate that closes leaves its input without a gate, and otherwise as it was. -/
theorem gateClose_em (e : Nat) (g : EmGate) (s : State) : (gateClose e g s).em = (s.setInput e { s.input e with gate := none }).em := by
  unfold gateClose
  extract_lets x s1 rate f q s2 bad s3 s4
  have hraise : ∀ t : State, (raiseEv (80 + e) 0 0x0703 [(20, le 8 (f.1 % 2 ^ 64)), (28, le 3 (sat (2 ^ 24 - 1) g.n)), (31, le 1 (b2n bad))] t).em = t.em :=
    fun t => raiseEv_keeps (same_keeps .em t) (sub_of rfl) rfl
  have hf : f.2.em = s1.em := by
    simp only [f]
    split <;> rfl
  have hq : q.2.em = f.2.em := by
    simp only [q]
    split <;> rfl
  exact (hraise s4).trans (hq.trans hf)

/-- The state with the settings of EM_INPUT_CONFIG taken, a gate in progress closed (R377, R389). -/
def emSettled (c : Cmd) (s : State) : State :=
  let e := cu c 0 1
  let s := match (s.input e).gate with | some g => gateClose e { g with bad := true, closes := min s.dtt g.closes } s | none => s
  s.setInput e { s.input e with
    std := b2n (cbit c 1 1), edge := cu c 1 1 / 4 % 4, pre := cu c 2 2, storeN := cu c 4 4, thresh := cu c 18 2, holdoff := cu c 20 2,
    corr := ci c 24 8, corrOld := inCorr e s.dtt s, corrFrom := cmdEnd s, edges := 0, last := none, missed := 0, stored := 0 }

/-- The registers and the ring of an input show its settings (R384). -/
def emShown (c : Cmd) (s : State) : State :=
  let e := cu c 0 1
  let ring := cbit c 1 4
  let s := showRecTemp (64 + e) s
  let s := (((s.set64 (Reg.emRBase e) (cu c 8 8)).setF (Reg.emRCfgLog2sz e) (cu c 16 1)).setB (Reg.emRCfgEn e) ring).setB (Reg.emStatusRing e) ring
  let s := if ring then (((s.setF (Reg.emRProdIndex e) 0).setB (Reg.emRProdPhase e) true).setF (Reg.emRConsIndex e) 0).setRing (24 + e) ⟨[], false⟩ else s
  s.setB (Reg.emStatusEn e) (cbit c 1 0)

/-- An input without EN sleeps, and its calibration ends. -/
def emSleeps (e : Nat) (s : State) : State :=
  let s := (s.setB (Reg.emStatusAwake e) false).setB (Reg.emStatusCalOk e) false
  { s with islands := s.islands.filter (fun k => k ≠ 53 + e), cal := { s.cal with runs := s.cal.runs.filter (fun r => r.target ≠ 64 + e) } }

theorem emInputConfigDo_eq (c : Cmd) (s : State) : emInputConfigDo c s =
    (if cbit c 1 0 then emShown c (emSettled c s) else emSleeps (cu c 0 1) (emShown c (emSettled c s)), okReply) := by
  have hdo : emInputConfigDo c s = if cbit c 1 0 then (emShown c (emSettled c s), okReply) else (emSleeps (cu c 0 1) (emShown c (emSettled c s)), okReply) := rfl
  rw [hdo]
  split <;> rfl

theorem emShown_em (c : Cmd) (s : State) : (emShown c s).em = s.em := by
  have htemp : (showRecTemp (64 + cu c 0 1) s).em = s.em := showRecTemp_keeps (same_keeps .em s) (sub_of rfl) rfl
  unfold emShown
  simp [apply_ite State.em, htemp]

theorem emShown_en (c : Cmd) (s : State) : (emShown c s).isF (Reg.emStatusEn (cu c 0 1)) = cbit c 1 0 := isF_setB_same _ _ _ rfl

theorem emSleeps_en (e : Nat) (s : State) : (emSleeps e s).isF (Reg.emStatusEn e) = s.isF (Reg.emStatusEn e) := by
  have hcal : (Reg.emStatusEn e).key ≠ (Reg.emStatusCalOk e).key := by simp [Fld.key, Reg.emStatusEn, Reg.emStatusCalOk]
  have hawake : (Reg.emStatusEn e).key ≠ (Reg.emStatusAwake e).key := by simp [Fld.key, Reg.emStatusEn, Reg.emStatusAwake]
  exact isF_of_getF (read_with rfl (read_setB hcal (read_setB hawake rfl)))

/-- The settings of EM_INPUT_CONFIG in an input's state (R377, R389). -/
def emSettledInput (c : Cmd) (s : State) : EventIn :=
  { s.input (cu c 0 1) with
    std := b2n (cbit c 1 1), edge := cu c 1 1 / 4 % 4, pre := cu c 2 2, storeN := cu c 4 4, thresh := cu c 18 2, holdoff := cu c 20 2,
    corr := ci c 24 8, corrOld := inCorr (cu c 0 1) s.dtt s, corrFrom := cmdEnd s, edges := 0, last := none, missed := 0, stored := 0 }

/-- The input has the settings, and no gate is left open. -/
theorem emSettled_input (c : Cmd) (s : State) : ∃ t, (emSettled c s).input (cu c 0 1) = emSettledInput c t ∧ (t.input (cu c 0 1)).gate = none := by
  unfold emSettled
  dsimp only
  rw [input_setInput_same]
  refine ⟨_, rfl, ?_⟩
  split
  case h_1 g hg => rw [input_of_em (gateClose_em _ _ s), input_setInput_same]
  case h_2 hg => exact hg

/-- What EM_INPUT_CONFIG leaves: the settings, the counts at 0, no gate, and EN (R377, R389). -/
theorem emInputConfigDo_leaves (c : Cmd) (s : State) :
    (emInputConfigDo c s).1.em = (emSettled c s).em ∧ (emInputConfigDo c s).1.isF (Reg.emStatusEn (cu c 0 1)) = cbit c 1 0 := by
  rw [emInputConfigDo_eq]
  dsimp only
  split
  · exact ⟨emShown_em c _, emShown_en c _⟩
  · exact ⟨emShown_em c _, (emSleeps_en _ _).trans (emShown_en c _)⟩

theorem emInputConfigEffect_asleep {c : Cmd} {s : State} (hen : cbit c 1 0 = true) (hsleep : s.awake (53 + cu c 0 1) = false) :
    emInputConfigEffect c s = (s, none) := by
  unfold emInputConfigEffect
  rw [if_pos ⟨hen, hsleep⟩]

theorem emInputConfigEffect_runs {c : Cmd} {s : State} (h : cbit c 1 0 = true → s.awake (53 + cu c 0 1) = true) :
    emInputConfigEffect c s = ((emInputConfigDo c s).1, some okReply) := by
  have hok : (emInputConfigDo c s).2 = okReply := by rw [emInputConfigDo_eq]
  have hrun : ¬ (cbit c 1 0 = true ∧ s.awake (53 + cu c 0 1) = false) := by
    rintro ⟨hen, hsleep⟩
    rw [h hen] at hsleep
    cases hsleep
  unfold emInputConfigEffect
  rw [if_neg hrun]
  dsimp only
  rw [hok]

/-- EM_INPUT_CONFIG with EN waits for the input's island (R35, R377). -/
theorem emInputConfig_waits {c : Cmd} {s : State} (h : Starts emInputConfigSpec c s) (hen : cbit c 1 0 = true)
    (hsleep : s.awake (53 + cu c 0 1) = false) : exec (.emInputConfig c) s = .next (heldBack emInputConfigSpec c s (taken c s)) := by
  have heff := emInputConfigEffect_asleep hen ((taken_awake c s _).trans hsleep)
  have hwaits := runHeld_waits (f := emInputConfigEffect) h (by rw [heff])
  rw [heff] at hwaits
  exact hwaits

/-- EM_INPUT_CONFIG that need not wait ends with its effect on the state with its entry taken. -/
theorem emInputConfig_ends {c : Cmd} {s : State} (h : Starts emInputConfigSpec c s) (hrun : cbit c 1 0 = true → s.awake (53 + cu c 0 1) = true) :
    exec (.emInputConfig c) s = .next (ended emInputConfigSpec c s (emInputConfigDo c (taken c s)).1 okReply) := by
  have heff := emInputConfigEffect_runs (c := c) (s := taken c s) (by rw [taken_awake]; exact hrun)
  have hends := runHeld_ends (f := emInputConfigEffect) (r := okReply) h (by rw [heff])
  rw [heff] at hends
  exact hends

/-! ### EM_INTERVAL -/

/-- Whether a pair unit in use stops at an input. -/
def stopsAt (s : State) (e : Nat) : Bool := (List.range 4).any (fun u => (s.pair u).en && (s.pair u).stop = e)

/-- EM_STATUS.STOP of one input follows the pair units. -/
def showStop (s : State) (e : Nat) : State := s.setB (Reg.emStatusStop e) (stopsAt s e)

/-- Showing STOP leaves the pair units as they are. -/
theorem stopsShown_em (l : List Nat) (s : State) : (l.foldl showStop s).em = s.em :=
  foldl_k (P := fun t => t.em = s.em) rfl (fun _ _ h => h)

theorem stopsAt_of_em {s t : State} (h : t.em = s.em) (e : Nat) : stopsAt t e = stopsAt s e := by
  unfold stopsAt State.pair
  rw [h]

theorem emStatusStop_key_ne {e a : Nat} (he : e < 8) (ha : a < 8) (h : e ≠ a) : (Reg.emStatusStop e).key ≠ (Reg.emStatusStop a).key := by
  simp only [Fld.key, Reg.emStatusStop]
  omega

/-- STOP of an input that is not among those shown stays. -/
theorem stopsShown_other {l : List Nat} (hl : ∀ a ∈ l, a < 8) {e : Nat} (he : e < 8) (hm : e ∉ l) (s : State) :
    (l.foldl showStop s).isF (Reg.emStatusStop e) = s.isF (Reg.emStatusStop e) := by
  induction l generalizing s with
  | nil => rfl
  | cons a l ih =>
    have hne := emStatusStop_key_ne he (hl a List.mem_cons_self) (fun h => hm (h ▸ List.mem_cons_self))
    exact (ih (fun b hb => hl b (List.mem_cons_of_mem a hb)) (fun h => hm (List.mem_cons_of_mem a h)) _).trans (isF_setF_ne s _ hne)

/-- STOP of each input shown follows the pair units. -/
theorem stopsShown_isF {l : List Nat} (hl : ∀ a ∈ l, a < 8) (hnd : l.Nodup) (s : State) :
    ∀ e ∈ l, (l.foldl showStop s).isF (Reg.emStatusStop e) = stopsAt s e := by
  induction l generalizing s with
  | nil => simp
  | cons a l ih =>
    obtain ⟨hna, hndl⟩ := List.nodup_cons.1 hnd
    have hl' : ∀ b ∈ l, b < 8 := fun b hb => hl b (List.mem_cons_of_mem a hb)
    intro e he
    rcases List.mem_cons.1 he with rfl | hmem
    · exact (stopsShown_other hl' (hl e List.mem_cons_self) hna _).trans (isF_setB_same _ _ _ rfl)
    · exact (ih hl' hndl (showStop s a) e hmem).trans (stopsAt_of_em rfl e)

@[simp] theorem pair_setPair_same (s : State) (u : Nat) (x : PairUnit) : (s.setPair u x).pair u = x := spGet_spSet_same _ _ _ _

/-- EM_INTERVAL names a pair unit and a stop input that exist. -/
theorem emInterval_bounds {c : Cmd} {s : State} (h : Starts emIntervalSpec c s) : cu c 0 1 < 4 ∧ cu c 2 1 < 8 := by
  have hunit := firstBad_none h.args_none (0, decide (3 < cu c 0 1)) (by simp)
  have hstop := firstBad_none h.args_none (2, decide (7 < cu c 2 1)) (by simp)
  simp only [decide_eq_false_iff_not] at hunit hstop
  omega

/-- What EM_INTERVAL leaves: the pair unit with nothing open, and STOP of its stop input where it is in use (R386). -/
theorem emIntervalEffect_leaves {c : Cmd} (s : State) (hu : cu c 0 1 < 4) (he : cu c 2 1 < 8) :
    (emIntervalEffect c s).1.pair (cu c 0 1) = ⟨cbit c 3 0, cu c 1 1, cu c 2 1, cbit c 3 1, cu c 4 4, none, none⟩ ∧
    (cbit c 3 0 = true → (emIntervalEffect c s).1.isF (Reg.emStatusStop (cu c 2 1)) = true) := by
  have heff : (emIntervalEffect c s).1 = (List.range 8).foldl showStop (s.setPair (cu c 0 1) ⟨cbit c 3 0, cu c 1 1, cu c 2 1, cbit c 3 1, cu c 4 4, none, none⟩) := rfl
  rw [heff]
  constructor
  · unfold State.pair
    rw [stopsShown_em]
    exact pair_setPair_same _ _ _
  · intro hen
    rw [stopsShown_isF (fun a ha => List.mem_range.1 ha) List.nodup_range _ _ (List.mem_range.2 he)]
    refine List.any_eq_true.2 ⟨cu c 0 1, List.mem_range.2 hu, ?_⟩
    simp [hen]

/-! ### EM_FREQUENCY and EM_SELF_AUDIT -/

theorem calHolds_taken (k : Nat) (c : Cmd) (s : State) : calHolds k (taken c s) = calHolds k s := by
  unfold calHolds
  rw [taken_cal]

/-- EM_FREQUENCY arms its gate 64 ticks after its start (R388). -/
theorem emFrequencyEffect_taken (c : Cmd) (s : State) : emFrequencyEffect c (taken c s) =
    ((taken c s).setInput (cu c 0 1) { s.input (cu c 0 1) with
        gate := some ⟨startStamp c s + 64, startStamp c s + 64 + cu c 4 4 * 781250, calHolds (64 + cu c 0 1) s, 0, 0, 0, 0, 0, 0, 0, 0⟩ },
      ⟨stDeferred, 0, resultOf [(32, le 8 (startStamp c s + 64))], []⟩) := by
  unfold emFrequencyEffect
  dsimp only
  rw [taken_startedAt, calHolds_taken, input_of_em (taken_em c s)]

/-- The start of a command whose row stands now lies at most the 50 µs of R107 and R110 before now. -/
theorem dtt_le_startStamp (c : Cmd) (s : State) : s.dtt < startStamp c s + 39063 := by
  have hproc : procTicks s < 39063 := Nat.mod_lt _ (by decide)
  unfold startStamp
  omega

/-- A self-audit whose DURATION has not passed goes on, with the number of its outputs as its estimate (R391). -/
theorem auditStep_waits {o : LongOp} {s : State} (h : s.dtt < o.tStart + cu o.cmd 4 4 * 781250000) :
    auditStep o s = (s, .more { o with estimate := (auditOuts o.cmd).length }) := by
  unfold auditStep
  rw [if_pos h]

theorem emSelfAudit_duration {c : Cmd} {s : State} (h : Starts emSelfAuditSpec c s) : 1 ≤ cu c 4 4 := by
  have hbad := firstBad_none h.args_none (4, decide (cu c 4 4 = 0 ∨ 3600 < cu c 4 4)) (by simp)
  simp only [decide_eq_false_iff_not] at hbad
  omega

/-- A self-audit that starts takes its first step without a change. -/
theorem auditStep_first {c : Cmd} {s : State} (h : Starts emSelfAuditSpec c s) :
    auditStep (firstRecord emSelfAuditSpec c s) (begun emSelfAuditSpec c s) =
      (begun emSelfAuditSpec c s, .more { firstRecord emSelfAuditSpec c s with estimate := (auditOuts c).length }) := by
  refine auditStep_waits ?_
  have hdur := emSelfAudit_duration h
  have hstart := dtt_le_startStamp c s
  show (begun emSelfAuditSpec c s).dtt < startStamp c s + cu c 4 4 * 781250000
  rw [begun_dtt]
  omega

/-- Settles O38: each command's run is the effect on the state with its entry taken, of which the lemmas above say what it leaves. -/
theorem eventInputCommandsComplete : Obligations.EventInputCommandsComplete := by
  unfold Obligations.EventInputCommandsComplete
  refine ⟨fun c s h hrun => ?_, fun c s h hen hsleep => ?_, fun c s h => ?_, fun c s h => ?_, fun c s h => ?_⟩
  · obtain ⟨hem, hshown⟩ := emInputConfigDo_leaves c (taken c s)
    obtain ⟨u, hu, hgate⟩ := emSettled_input c (taken c s)
    have hinput := (input_of_em hem (cu c 0 1)).trans hu
    refine ⟨_, okReply, emInputConfig_ends h hrun, emInputConfigDo_keeps (frame_keeps _ _) (sub_of rfl) (FrameOf.refl _ _), rfl, ?_⟩
    simp only [hinput, emSettledInput, hgate, hshown, and_self]
  · exact ⟨_, emInputConfig_waits h hen hsleep, FrameOf.refl _ _, rfl⟩
  · obtain ⟨hunit, hstop⟩ := emInterval_bounds h
    exact ⟨_, runCmd_starts h, emIntervalEffect_keeps (frame_keeps _ _) (sub_of rfl) (FrameOf.refl _ _), emIntervalEffect_leaves _ hunit hstop⟩
  · have heff := emFrequencyEffect_taken c s
    exact ⟨_, _, runCmd_starts h, emFrequencyEffect_keeps (frame_keeps _ _) (sub_of rfl) (FrameOf.refl _ _), congrArg Prod.fst heff, congrArg Prod.snd heff⟩
  · have hfirst := auditStep_first h
    exact ⟨_, _, runStepped_starts h, auditStep_keeps (frame_keeps _ _) (sub_of rfl) (FrameOf.refl _ _), congrArg Prod.fst hfirst, congrArg Prod.snd hfirst⟩

end Sys2Proof.Machine

/-! SUPPORT. The commands of group 0x09 (R36, R398, R404 to R407, R423, R427). -/

namespace Sys2Proof.Machine

/-! ### Sets of ports -/

/-- The members of a set below a limit. -/
theorem mem_members {m limit n : Nat} : n ∈ members m limit ↔ n < limit ∧ bit m n = true := by
  simp [members]

theorem ofLe_lt : ∀ l : Bytes, ofLe l < 256 ^ l.length
  | [] => by decide
  | b :: r => by
    have hb : b.toNat < 256 := b.isLt
    have hr := ofLe_lt r
    rw [ofLe, List.length_cons, Nat.pow_succ]
    omega

/-- A payload field of `n` bytes lies below 256 to the power of `n`. -/
theorem cu_lt (c : Cmd) (o n : Nat) : cu c o n < 256 ^ n := by
  have h := ofLe_lt (slice c.payload o n)
  rwa [slice, List.length_map, List.length_range] at h

/-! ### A flag written for every port of a list -/

section Flags

variable {g : Nat → Fld} {b : Bool}

/-- A flag that has the value written keeps it. -/
theorem setAll_keeps (hw : ∀ n, (g n).width = 1) (l : List Nat) {s : State} {f : Fld} (h : s.isF f = b) :
    (l.foldl (fun s e => s.setB (g e) b) s).isF f = b :=
  foldl_k (P := fun t => t.isF f = b) h (fun t e ht => by
    unfold State.isF State.setB at *
    rw [getF_setF, hw]
    split
    · cases b <;> rfl
    · exact ht)

/-- The flag of every port of the list has the value written. -/
theorem setAll_mem (hw : ∀ n, (g n).width = 1) {l : List Nat} {e : Nat} (he : e ∈ l) (s : State) :
    (l.foldl (fun s e => s.setB (g e) b) s).isF (g e) = b := by
  induction l generalizing s with
  | nil => cases he
  | cons a l ih =>
    rcases List.mem_cons.1 he with rfl | hmem
    · exact setAll_keeps hw l (isF_setB_same s (g e) b (hw e))
    · exact ih hmem _

theorem setAll_sw (l : List Nat) (s : State) : (l.foldl (fun s e => s.setB (g e) b) s).sw = s.sw :=
  foldl_k (P := fun t => t.sw = s.sw) rfl (fun _ _ ht => ht)

end Flags

/-! ### SW_PORT_FORWARD -/

/-- The flags, PVID and ACCEPT of a port as SW_PORT_FORWARD sets them (R398, R405). -/
def swPortShown (c : Cmd) (s : State) : State :=
  let p := cu c 0 1
  let s := ((s.setB (Reg.swPortStatusL23Rx p) (cbit c 1 0)).setB (Reg.swPortStatusL23Tx p) (cbit c 1 1)).setB (Reg.swPortStatusCt p) (cbit c 1 2)
  let s := (s.setB (Reg.swPortStatusPtpTrap p) (cbit c 1 3)).setB (Reg.swPortStatusL3 p) (cbit c 1 4)
  (s.setF (Reg.swPortStatusPvid p) (cu c 4 2 % 4096)).setF (Reg.swPortStatusAccept p) (cu c 6 1)

/-- The settings of a port without a register of their own as SW_PORT_FORWARD sets them. -/
def swPortSettled (c : Cmd) (w : SwPort) : SwPort :=
  let w := { w with maxFrame := cu c 2 2, pcp := cu c 4 2 / 4096 % 8, filter := cbit c 7 0, sTag := cbit c 7 1 }
  if cbit c 1 5 then { w with mac := ofBe (slice c.payload 8 6), ipv4 := ofBe (slice c.payload 16 4), ipv6 := ofBe (slice c.payload 20 16) } else w

/-- The state with a port's settings replaced. -/
def setSwPort (p : Nat) (w : SwPort) (s : State) : State := { s with sw := { s.sw with ports := spSet ⟨1522, 0, false, false, 0, 0, 0⟩ s.sw.ports p w } }

@[simp] theorem swPort_setSwPort_same (p : Nat) (w : SwPort) (s : State) : (setSwPort p w s).swPort p = w := spGet_spSet_same _ _ _ _

theorem setSwPort_getF (p : Nat) (w : SwPort) (s : State) (f : Fld) : (setSwPort p w s).getF f = s.getF f := rfl

/-- The state with the port's flags and settings, before what follows them. -/
def swPortSet (c : Cmd) (s : State) : State := setSwPort (cu c 0 1) (swPortSettled c ((swPortShown c s).swPort (cu c 0 1))) (swPortShown c s)

/-- The state that SW_PORT_FORWARD leaves: the port's flags and settings, and what follows its release. -/
theorem swPortForwardDo_state (c : Cmd) (s : State) : (swPortForwardDo c s).1 =
    egressFollow (cu c 0 1) (if cu c 0 1 < 48 then halfSleeps (halfOf (cu c 0 1)) (swPortSet c s) else swPortSet c s) := by
  unfold swPortForwardDo
  extract_lets p s1 s2 s3 w w1 w2 sw s4
  have h3 : s3 = swPortShown c s := rfl
  have hw : w2 = swPortSettled c ((swPortShown c s).swPort (cu c 0 1)) := rfl
  have h4 : s4 = swPortSet c s := rfl
  rw [h4]

/-- What follows a port's release leaves the ports' settings as they are. -/
theorem egressFollow_ports (p : Nat) (s : State) : (egressFollow p s).sw.ports = s.sw.ports := by
  have hraise : ∀ (g : Nat) (out : Bool) (t : State), (raiseEv p 0 0x0902 [(20, le 1 g), (21, le 1 p), (22, le 1 (b2n out))] t).sw = t.sw :=
    fun g out t => raiseEv_keeps (same_keeps .sw t) (sub_of rfl) rfl
  have hlag : (lagFollow p s).sw.ports = s.sw.ports := by
    unfold lagFollow
    split
    · rfl
    dsimp only
    split
    · rfl
    · rw [hraise]
  unfold egressFollow
  refine foldl_k (P := fun t => t.sw.ports = s.sw.ports) hlag (fun t g ht => ?_)
  have hmerge : (showMerge g t).sw = t.sw := showMerge_keeps (same_keeps .sw t) (sub_of rfl) rfl
  split
  · rw [hmerge]
    exact ht
  · exact ht

/-- What follows a port's release touches no register of the switch. -/
theorem egressFollow_getF (p : Nat) (s : State) {f : Fld} (h : regPart f.addr = 11) : (egressFollow p s).getF f = s.getF f :=
  egressFollow_keeps (same_keeps .rSw s) (sub_of rfl) (Part.same_refl .rSw s) f h

theorem halfSleeps_regs (h : Nat) (s : State) : (halfSleeps h s).regs = s.regs := by
  unfold halfSleeps
  split <;> rfl

theorem halfSleeps_sw (h : Nat) (s : State) : (halfSleeps h s).sw = s.sw := by
  unfold halfSleeps
  split <;> rfl

/-- A register of the switch after SW_PORT_FORWARD is as its flags are shown. -/
theorem swPortForwardDo_getF (c : Cmd) (s : State) {f : Fld} (h : regPart f.addr = 11) : (swPortForwardDo c s).1.getF f = (swPortShown c s).getF f := by
  rw [swPortForwardDo_state]
  refine (egressFollow_getF (cu c 0 1) _ h).trans ?_
  split
  · exact (getF_of_regs (halfSleeps_regs _ _) f).trans (setSwPort_getF _ _ _ f)
  · exact setSwPort_getF _ _ _ f

theorem swPortForwardDo_isF (c : Cmd) (s : State) {f : Fld} (h : regPart f.addr = 11) : (swPortForwardDo c s).1.isF f = (swPortShown c s).isF f :=
  isF_of_getF (swPortForwardDo_getF c s h)

/-- The port's settings after SW_PORT_FORWARD. -/
theorem swPortForwardDo_port (c : Cmd) (s : State) : (swPortForwardDo c s).1.swPort (cu c 0 1) = swPortSettled c ((swPortShown c s).swPort (cu c 0 1)) := by
  rw [swPortForwardDo_state]
  refine Eq.trans ?_ (swPort_setSwPort_same (cu c 0 1) (swPortSettled c ((swPortShown c s).swPort (cu c 0 1))) (swPortShown c s))
  unfold State.swPort
  rw [egressFollow_ports]
  split
  · rw [halfSleeps_sw, swPortSet]
    rfl
  · rfl

theorem swPortSettled_fields (c : Cmd) (w : SwPort) : (swPortSettled c w).maxFrame = cu c 2 2 ∧ (swPortSettled c w).pcp = cu c 4 2 / 4096 % 8 ∧
    (swPortSettled c w).filter = cbit c 7 0 ∧ (swPortSettled c w).sTag = cbit c 7 1 := by
  unfold swPortSettled
  dsimp only
  split <;> exact ⟨rfl, rfl, rfl, rfl⟩

/-- The flags, PVID and ACCEPT read as SW_PORT_FORWARD writes them. -/
theorem swPortShown_reads (c : Cmd) (s : State) (hacc : cu c 6 1 ≤ 2) :
    (swPortShown c s).isF (Reg.swPortStatusL23Rx (cu c 0 1)) = cbit c 1 0 ∧ (swPortShown c s).isF (Reg.swPortStatusL23Tx (cu c 0 1)) = cbit c 1 1 ∧
    (swPortShown c s).isF (Reg.swPortStatusCt (cu c 0 1)) = cbit c 1 2 ∧ (swPortShown c s).isF (Reg.swPortStatusPtpTrap (cu c 0 1)) = cbit c 1 3 ∧
    (swPortShown c s).isF (Reg.swPortStatusL3 (cu c 0 1)) = cbit c 1 4 ∧ (swPortShown c s).getF (Reg.swPortStatusPvid (cu c 0 1)) = cu c 4 2 % 4096 ∧
    (swPortShown c s).getF (Reg.swPortStatusAccept (cu c 0 1)) = cu c 6 1 := by
  have hbit : ∀ b : Bool, decide (b2n b % 2 = 1) = b := by decide
  have hpvid : cu c 4 2 % 4096 % 2 ^ 12 = cu c 4 2 % 4096 := Nat.mod_mod _ _
  have haccept : cu c 6 1 % 2 ^ 2 = cu c 6 1 := Nat.mod_eq_of_lt (by omega)
  unfold swPortShown
  simp [-Nat.reducePow, hbit, hpvid, haccept, State.isF, State.setB, getF_setF, Fld.key, Reg.swPortStatusL23Rx, Reg.swPortStatusL23Tx, Reg.swPortStatusCt, Reg.swPortStatusPtpTrap,
    Reg.swPortStatusL3, Reg.swPortStatusPvid, Reg.swPortStatusAccept]

theorem swPortForward_accept {c : Cmd} {s : State} (h : Starts swPortForwardSpec c s) : cu c 6 1 ≤ 2 := by
  have hbad := firstBad_none h.args_none (6, decide (2 < cu c 6 1)) (by simp)
  simpa using hbad

theorem swPortForwardEffect_waits {c : Cmd} {s : State} (h : cu c 0 1 < 48 ∧ cu c 1 1 % 4 ≠ 0 ∧ s.awake (halfOf (cu c 0 1)) = false) :
    swPortForwardEffect c s = (s, none) := by
  unfold swPortForwardEffect
  dsimp only
  rw [if_pos h]

theorem swPortForwardEffect_runs {c : Cmd} {s : State} (h : ¬ (cu c 0 1 < 48 ∧ cu c 1 1 % 4 ≠ 0 ∧ s.awake (halfOf (cu c 0 1)) = false)) :
    swPortForwardEffect c s = ((swPortForwardDo c s).1, some okReply) := by
  unfold swPortForwardEffect
  dsimp only
  rw [if_neg h]
  rfl

/-- SW_PORT_FORWARD of the first port of a gated half waits for the half (R35, R36). -/
theorem swPortForward_waits {c : Cmd} {s : State} (h : Starts swPortForwardSpec c s)
    (hw : cu c 0 1 < 48 ∧ cu c 1 1 % 4 ≠ 0 ∧ s.awake (halfOf (cu c 0 1)) = false) :
    exec (.swPortForward c) s = .next (heldBack swPortForwardSpec c s (taken c s)) := by
  have heff := swPortForwardEffect_waits (c := c) (s := taken c s) (by rw [taken_awake]; exact hw)
  have hwaits := runHeld_waits (f := swPortForwardEffect) h (by rw [heff])
  rw [heff] at hwaits
  exact hwaits

/-- SW_PORT_FORWARD that need not wait ends with its effect on the state with its entry taken. -/
theorem swPortForward_ends {c : Cmd} {s : State} (h : Starts swPortForwardSpec c s)
    (hw : ¬ (cu c 0 1 < 48 ∧ cu c 1 1 % 4 ≠ 0 ∧ s.awake (halfOf (cu c 0 1)) = false)) :
    exec (.swPortForward c) s = .next (ended swPortForwardSpec c s (swPortForwardDo c (taken c s)).1 okReply) := by
  have heff := swPortForwardEffect_runs (c := c) (s := taken c s) (by rw [taken_awake]; exact hw)
  have hstate : (swPortForwardEffect c (taken c s)).1 = (swPortForwardDo c (taken c s)).1 := by simp only [heff]
  rw [← hstate]
  exact runHeld_ends h (by rw [heff])

/-- What SW_PORT_FORWARD leaves (R398, R405). -/
theorem swPortForwardDo_leaves (c : Cmd) (s : State) (hacc : cu c 6 1 ≤ 2) :
    (swPortForwardDo c s).1.isF (Reg.swPortStatusL23Rx (cu c 0 1)) = cbit c 1 0 ∧
    (swPortForwardDo c s).1.isF (Reg.swPortStatusL23Tx (cu c 0 1)) = cbit c 1 1 ∧
    (swPortForwardDo c s).1.isF (Reg.swPortStatusCt (cu c 0 1)) = cbit c 1 2 ∧
    (swPortForwardDo c s).1.isF (Reg.swPortStatusPtpTrap (cu c 0 1)) = cbit c 1 3 ∧
    (swPortForwardDo c s).1.isF (Reg.swPortStatusL3 (cu c 0 1)) = cbit c 1 4 ∧
    (swPortForwardDo c s).1.getF (Reg.swPortStatusPvid (cu c 0 1)) = cu c 4 2 % 4096 ∧
    (swPortForwardDo c s).1.getF (Reg.swPortStatusAccept (cu c 0 1)) = cu c 6 1 ∧
    ((swPortForwardDo c s).1.swPort (cu c 0 1)).maxFrame = cu c 2 2 ∧ ((swPortForwardDo c s).1.swPort (cu c 0 1)).pcp = cu c 4 2 / 4096 % 8 ∧
    ((swPortForwardDo c s).1.swPort (cu c 0 1)).filter = cbit c 7 0 ∧ ((swPortForwardDo c s).1.swPort (cu c 0 1)).sTag = cbit c 7 1 := by
  obtain ⟨hrx, htx, hct, htrap, hl3, hpvid, haccept⟩ := swPortShown_reads c s hacc
  obtain ⟨hmax, hpcp, hfilter, htag⟩ := swPortSettled_fields c ((swPortShown c s).swPort (cu c 0 1))
  rw [← swPortForwardDo_port] at hmax hpcp hfilter htag
  have hshown : ∀ {f : Fld}, regPart f.addr = 11 → (swPortForwardDo c s).1.isF f = (swPortShown c s).isF f := swPortForwardDo_isF c s
  exact ⟨(hshown part_swPortStatusL23Rx).trans hrx, (hshown part_swPortStatusL23Tx).trans htx, (hshown part_swPortStatusCt).trans hct,
    (hshown part_swPortStatusPtpTrap).trans htrap, (hshown part_swPortStatusL3).trans hl3,
    (swPortForwardDo_getF c s part_swPortStatusPvid).trans hpvid, (swPortForwardDo_getF c s part_swPortStatusAccept).trans haccept,
    hmax, hpcp, hfilter, htag⟩

/-! ### SW_SET_VLAN, SW_SET_LAG and SW_RULE_WRITE -/

/-- The VLAN that SW_SET_VLAN writes (R405, R406). -/
def vlanOf (c : Cmd) : Vlan := if cbit c 2 0 then ⟨cu c 2 1, cu c 4 7, cu c 12 7, ofBe (slice c.payload 20 6)⟩ else ⟨0, 0, 0, 0⟩

/-- What SW_SET_VLAN leaves: one VLAN replaced and no register. -/
theorem swSetVlanEffect_leaves (c : Cmd) (s : State) : (swSetVlanEffect c s).1.vlan (cu c 0 2) = vlanOf c ∧ (swSetVlanEffect c s).1.regs = s.regs ∧
    ∀ v, v ≠ cu c 0 2 → (swSetVlanEffect c s).1.vlan v = s.vlan v :=
  ⟨spGet_spSet_same _ _ _ _, rfl, fun _ hv => spGet_spSet_ne _ _ _ hv⟩

/-- The group that SW_SET_LAG writes (R407). -/
def lagWritten (c : Cmd) : Option Lag := if cbit c 1 0 then some ⟨cu c 2 2, cu c 4 6, (List.range 64).map (fun e => cu c (16 + e) 1)⟩ else none

/-- SW_SET_LAG shows the group's members after its old ones are unmarked. -/
theorem swSetLagEffect_state (c : Cmd) (s : State) : ∃ u old, u.sw.lags = spSet none s.sw.lags (cu c 0 1) (lagWritten c) ∧ (swSetLagEffect c s).1 =
    (members (((lagWritten c).map (·.members)).getD 0) 48).foldl (fun s p => s.setB (Reg.swPortStatusLag p) true)
      ((members old 48).foldl (fun s p => s.setB (Reg.swPortStatusLag p) false) u) := ⟨_, _, rfl, rfl⟩

/-- What SW_SET_LAG leaves: one group replaced, and LAG of its members (R407). -/
theorem swSetLagEffect_leaves (c : Cmd) (s : State) : (swSetLagEffect c s).1.lag (cu c 0 1) = lagWritten c ∧
    (∀ k, k ≠ cu c 0 1 → (swSetLagEffect c s).1.lag k = s.lag k) ∧
    (cbit c 1 0 = true → ∀ k, k < 48 → bit (cu c 4 6) k = true → (swSetLagEffect c s).1.isF (Reg.swPortStatusLag k) = true) := by
  obtain ⟨u, old, hu, hstate⟩ := swSetLagEffect_state c s
  have hlags : (swSetLagEffect c s).1.sw.lags = spSet none s.sw.lags (cu c 0 1) (lagWritten c) := by
    rw [hstate, setAll_sw, setAll_sw, hu]
  unfold State.lag
  rw [hlags]
  refine ⟨spGet_spSet_same _ _ _ _, fun k hk => spGet_spSet_ne _ _ _ hk, fun hon k hk hb => ?_⟩
  rw [hstate]
  refine setAll_mem (fun _ => rfl) (mem_members.2 ⟨hk, ?_⟩) _
  rw [lagWritten, if_pos hon]
  exact hb

/-- The rule that SW_RULE_WRITE writes (R404). -/
def ruleWritten (c : Cmd) : Option Rule :=
  if cbit c 2 0 then some ⟨slice c.payload 8 40, slice c.payload 48 40, cu c 88 1, cu c 89 1, cu c 90 1, cu c 91 1, cu c 92 1, cu c 93 1⟩ else none

/-- What SW_RULE_WRITE leaves: one rule replaced and no other (R404). -/
theorem swRuleWriteEffect_rules (c : Cmd) (s : State) : (swRuleWriteEffect c s).1.sw.rules = spSet none s.sw.rules (cu c 0 2) (ruleWritten c) := by
  unfold swRuleWriteEffect
  refine foldl_k (P := fun t => t.sw.rules = spSet none s.sw.rules (cu c 0 2) (ruleWritten c)) rfl (fun t k ht => ?_)
  have hwrite : (mpWrite (mpWord 7 (cu c 0 2 * 11 + k)) t).sw = t.sw := mpWrite_keeps (same_keeps .sw t) (sub_of rfl) rfl
  rw [hwrite]
  exact ht

theorem swRuleWriteEffect_leaves (c : Cmd) (s : State) : spGet none (swRuleWriteEffect c s).1.sw.rules (cu c 0 2) = ruleWritten c ∧
    ∀ k, k ≠ cu c 0 2 → spGet none (swRuleWriteEffect c s).1.sw.rules k = spGet none s.sw.rules k := by
  rw [swRuleWriteEffect_rules]
  exact ⟨spGet_spSet_same _ _ _ _, fun k hk => spGet_spSet_ne _ _ _ hk⟩

/-! ### SW_DIRECT_CONNECT -/

/-- One output of a connection: DP_TX and its trim (R425, R426). -/
def dpCarry (c : Cmd) (s : State) (b : Nat) : State :=
  (setHostTrim b (trimSteps (s.mode b) (cu c (16 + 2 * b) 2)) (s.setB (Reg.swPortStatusDpTx b) true)).2

theorem dpCarry_getF (c : Cmd) (s : State) (b : Nat) {f : Fld} (h : regPart f.addr = 11) :
    (dpCarry c s b).getF f = (s.setB (Reg.swPortStatusDpTx b) true).getF f :=
  setHostTrim_keeps (same_keeps .rSw _) (sub_of rfl) (Part.same_refl .rSw _) f h

/-- An output that carries keeps carrying as others begin to. -/
theorem dpCarries_keep (c : Cmd) (l : List Nat) {s : State} {e : Nat} (h : s.isF (Reg.swPortStatusDpTx e) = true) :
    (l.foldl (dpCarry c) s).isF (Reg.swPortStatusDpTx e) = true :=
  foldl_k (P := fun t => t.isF (Reg.swPortStatusDpTx e) = true) h (fun t b ht =>
    (isF_of_getF (dpCarry_getF c t b part_swPortStatusDpTx)).trans
      (setAll_keeps (g := Reg.swPortStatusDpTx) (fun _ => rfl) [b] ht))

/-- Every output of the connection carries. -/
theorem dpCarries_mem (c : Cmd) {l : List Nat} {e : Nat} (he : e ∈ l) (s : State) : (l.foldl (dpCarry c) s).isF (Reg.swPortStatusDpTx e) = true := by
  induction l generalizing s with
  | nil => cases he
  | cons a l ih =>
    rcases List.mem_cons.1 he with rfl | hmem
    · refine dpCarries_keep c l ((isF_of_getF (dpCarry_getF c s e part_swPortStatusDpTx)).trans ?_)
      exact isF_setB_same _ _ _ rfl
    · exact ih hmem _

/-- A register of the switch that is no DP_TX stays as outputs begin to carry. -/
theorem dpCarries_getF (c : Cmd) (l : List Nat) (s : State) {f : Fld} (h : regPart f.addr = 11) (hne : ∀ n, f.key ≠ (Reg.swPortStatusDpTx n).key) :
    (l.foldl (dpCarry c) s).getF f = s.getF f :=
  foldl_k (P := fun t => t.getF f = s.getF f) rfl (fun t b ht =>
    (dpCarry_getF c t b h).trans ((getF_setF_ne t _ (hne b)).trans ht))

/-- The registers of a connection before its outputs carry (R424 to R427). -/
def dpShown (c : Cmd) (s : State) : State :=
  let i := cu c 0 1
  let o := cu c 4 6
  let was := s.isF (Reg.swDpStatusConn i)
  let s := dpRelease ((members (dpOutputs i s) 48).filter (fun b => !bit o b)) s
  let s := ((s.setB (Reg.swDpStatusConn i) true).setF (Reg.swDpStatusMode i) (cu c 1 1)).setB (Reg.swDpStatusInLock i)
    (s.isF (Reg.sdsStatusRxLock i))
  let s := if was then s else (s.setF (Reg.swDpStatusSlips i) 0).setF (Reg.swDpStatusFill i) (if cu c 1 1 = 1 then 4 else 1)
  let s := (s.setF (Reg.swDpOut0 i) o).setF (Reg.swDpOut1 i) (o / 2 ^ 32)
  s.setB (Reg.swPortStatusDpRx i) true

/-- A connection made: its registers, then its outputs one by one, and an instant that is open within the gap it waits for. -/
theorem directConnect_eq (c : Cmd) (s : State) : directConnect c s =
    (((members (cu c 4 6) 48).foldl (dpCarry c) (dpShown c s)).draw.2,
      okWith [(32, le 8 (((members (cu c 4 6) 48).foldl (dpCarry c) (dpShown c s)).dtt +
        ((members (cu c 4 6) 48).foldl (dpCarry c) (dpShown c s)).draw.1 % 39063))]) := by
  unfold directConnect
  rfl

/-- CONN, MODE, the outputs and DP_RX of a connection read as they are written. -/
theorem dpShown_reads (c : Cmd) (s : State) (hmode : cu c 1 1 ≤ 1) :
    (dpShown c s).isF (Reg.swDpStatusConn (cu c 0 1)) = true ∧ (dpShown c s).getF (Reg.swDpStatusMode (cu c 0 1)) = cu c 1 1 ∧
    (dpShown c s).getF (Reg.swDpOut0 (cu c 0 1)) = cu c 4 6 % 2 ^ 32 ∧ (dpShown c s).getF (Reg.swDpOut1 (cu c 0 1)) = cu c 4 6 / 2 ^ 32 % 2 ^ 32 ∧
    (dpShown c s).isF (Reg.swPortStatusDpRx (cu c 0 1)) = true := by
  unfold dpShown
  extract_lets i o was s1 s2 s3 s4
  rw [show cu c 0 1 = i from rfl]
  have hkept : ∀ f : Fld, f.addr = 0x401000 + min i 48 * 0x10 → f.key ≠ (Reg.swDpStatusSlips i).key → f.key ≠ (Reg.swDpStatusFill i).key →
      s4.getF f = s2.getF f := by
    intro f hf hslips hfill
    refine read_setF (by simp only [Fld.key, Reg.swDpOut1]; omega) (read_setF (by simp only [Fld.key, Reg.swDpOut0]; omega) ?_)
    simp only [s3]
    split
    · rfl
    · exact read_setF hfill (read_setF hslips rfl)
  have hrx : ∀ f : Fld, 0x401000 ≤ f.addr → (s4.setB (Reg.swPortStatusDpRx i) true).getF f = s4.getF f := fun f hf =>
    read_setB (by simp only [Fld.key, Reg.swPortStatusDpRx]; omega) rfl
  have hconn : s2.getF (Reg.swDpStatusConn i) = 1 :=
    read_setB (by simp [Fld.key, Reg.swDpStatusConn, Reg.swDpStatusInLock])
      (read_setF (by simp [Fld.key, Reg.swDpStatusConn, Reg.swDpStatusMode]) (getF_setF_same _ _ _))
  have hm : s2.getF (Reg.swDpStatusMode i) = cu c 1 1 :=
    read_setB (by simp [Fld.key, Reg.swDpStatusMode, Reg.swDpStatusInLock])
      ((getF_setF_same _ _ _).trans (Nat.mod_eq_of_lt (Nat.lt_succ_of_le hmode)))
  refine ⟨?_, ?_, ?_, ?_, isF_setB_same _ _ _ rfl⟩
  · rw [State.isF, hrx _ (by simp only [Reg.swDpStatusConn]; omega), hkept _ rfl (by simp [Fld.key, Reg.swDpStatusConn, Reg.swDpStatusSlips])
      (by simp [Fld.key, Reg.swDpStatusConn, Reg.swDpStatusFill]), hconn]
    rfl
  · rw [hrx _ (by simp only [Reg.swDpStatusMode]; omega), hkept _ rfl (by simp [Fld.key, Reg.swDpStatusMode, Reg.swDpStatusSlips])
      (by simp [Fld.key, Reg.swDpStatusMode, Reg.swDpStatusFill]), hm]
  · rw [hrx _ (by simp only [Reg.swDpOut0]; omega)]
    exact read_setF (by simp [Fld.key, Reg.swDpOut0, Reg.swDpOut1]) (getF_setF_same _ _ _)
  · rw [hrx _ (by simp only [Reg.swDpOut1]; omega)]
    exact getF_setF_same _ _ _

/-- A set of ports of 48 bits as its two words give it. -/
theorem two_words {o : Nat} (h : o < 2 ^ 48) : o % 2 ^ 32 + 2 ^ 32 * (o / 2 ^ 32 % 2 ^ 32) = o := by omega

theorem swDirectConnect_mode {c : Cmd} {s : State} (h : Starts swDirectConnectSpec c s) : cu c 1 1 ≤ 1 := by
  have hbad := firstBad_none h.args_none (1, decide (1 < cu c 1 1)) (by simp)
  simpa using hbad

/-- What a connection made leaves (R424 to R427, R432). -/
theorem directConnect_leaves (c : Cmd) (s : State) (hmode : cu c 1 1 ≤ 1) :
    (directConnect c s).1.isF (Reg.swDpStatusConn (cu c 0 1)) = true ∧ (directConnect c s).1.getF (Reg.swDpStatusMode (cu c 0 1)) = cu c 1 1 ∧
    dpOutputs (cu c 0 1) (directConnect c s).1 = cu c 4 6 ∧ (directConnect c s).1.isF (Reg.swPortStatusDpRx (cu c 0 1)) = true ∧
    (∃ x, x < 39063 ∧ (directConnect c s).2 = okWith [(32, le 8 (s.dtt + x))]) ∧
    (∀ b, b < 48 → bit (cu c 4 6) b = true → (directConnect c s).1.isF (Reg.swPortStatusDpTx b) = true) := by
  obtain ⟨hconn, hm, hout0, hout1, hrx⟩ := dpShown_reads c s hmode
  have hdtt : (directConnect c s).1.dtt = s.dtt := directConnect_keeps (same_keeps .dtt s) (sub_of rfl) rfl
  rw [directConnect_eq] at hdtt ⊢
  generalize hu : (members (cu c 4 6) 48).foldl (dpCarry c) (dpShown c s) = u at hdtt ⊢
  have hread : ∀ {f : Fld}, regPart f.addr = 11 → (∀ n, f.key ≠ (Reg.swPortStatusDpTx n).key) → u.draw.2.getF f = (dpShown c s).getF f :=
    fun h hne => hu ▸ dpCarries_getF c _ _ h hne
  have hword : ∀ n, (0x401000 + min (cu c 0 1) 48 * 0x10) * 32 > (0x400000 + min n 49 * 0x10) * 32 + 3 := by omega
  refine ⟨(isF_of_getF (hread part_swDpStatusConn fun n => ?_)).trans hconn, (hread part_swDpStatusMode fun n => ?_).trans hm, ?_,
    (isF_of_getF (hread part_swPortStatusDpRx fun n => ?_)).trans hrx, ⟨u.draw.1 % 39063, Nat.mod_lt _ (by decide), ?_⟩, fun b hb hbit => ?_⟩
  · simp only [Fld.key, Reg.swDpStatusConn, Reg.swPortStatusDpTx]
    omega
  · simp only [Fld.key, Reg.swDpStatusMode, Reg.swPortStatusDpTx]
    omega
  · unfold dpOutputs
    rw [hread part_swDpOut0 (fun n => by simp only [Fld.key, Reg.swDpOut0, Reg.swPortStatusDpTx]; omega), hout0,
      hread part_swDpOut1 (fun n => by simp only [Fld.key, Reg.swDpOut1, Reg.swPortStatusDpTx]; omega), hout1]
    exact two_words (cu_lt c 4 6)
  · simp only [Fld.key, Reg.swPortStatusDpRx, Reg.swPortStatusDpTx]
    omega
  · rw [show u.dtt = s.dtt from hdtt]
  · exact hu ▸ dpCarries_mem c (mem_members.2 ⟨hb, hbit⟩) _

/-! ### SW_DIRECT_DISCONNECT -/

/-- What SW_DIRECT_DISCONNECT leaves: no connection and no output (R427). -/
theorem swDirectDisconnectEffect_leaves (c : Cmd) (s : State) :
    (swDirectDisconnectEffect c s).1.isF (Reg.swDpStatusConn (cu c 0 1)) = false ∧
    (swDirectDisconnectEffect c s).1.isF (Reg.swPortStatusDpRx (cu c 0 1)) = false ∧ dpOutputs (cu c 0 1) (swDirectDisconnectEffect c s).1 = 0 ∧
    (swDirectDisconnectEffect c s).1.isF (Reg.swDpStatusInLock (cu c 0 1)) = false ∧
    (∀ b, b < 48 → bit (dpOutputs (cu c 0 1) s) b = true → (swDirectDisconnectEffect c s).1.isF (Reg.swPortStatusDpTx b) = false) := by
  unfold swDirectDisconnectEffect
  extract_lets i s1 s2 s3
  dsimp only
  have hzero : ∀ (t : State) (f : Fld), (t.setF f 0).getF f = 0 := fun t f => (getF_setF_same _ _ _).trans (Nat.zero_mod _)
  have hoff : ∀ {t : State} {f : Fld}, t.getF f = 0 → t.isF f = false := fun h => by rw [State.isF, h]; rfl
  rw [show cu c 0 1 = i from rfl]
  clear_value i
  have hrx : ∀ {f : Fld}, 0x401000 ≤ f.addr → (s3.setB (Reg.swPortStatusDpRx i) false).getF f = s3.getF f := fun hf =>
    read_setB (by simp only [Fld.key, Reg.swPortStatusDpRx]; omega) rfl
  have houts : ∀ {f : Fld}, f.addr = 0x401000 + min i 48 * 0x10 → f.key ≠ (Reg.swDpStatusFill i).key → s3.getF f = s2.getF f := fun hf hfill =>
    read_setF hfill (read_setF (by simp only [Fld.key, Reg.swDpOut1]; omega) (read_setF (by simp only [Fld.key, Reg.swDpOut0]; omega) rfl))
  have hconn : s2.getF (Reg.swDpStatusConn i) = 0 := read_setB (by simp [Fld.key, Reg.swDpStatusConn, Reg.swDpStatusInLock]) (hzero s1 _)
  have hout0 : s3.getF (Reg.swDpOut0 i) = 0 :=
    read_setF (by simp only [Fld.key, Reg.swDpOut0, Reg.swDpStatusFill]; omega) (read_setF (by simp only [Fld.key, Reg.swDpOut0, Reg.swDpOut1]; omega) (hzero _ _))
  have hout1 : s3.getF (Reg.swDpOut1 i) = 0 := read_setF (by simp only [Fld.key, Reg.swDpOut1, Reg.swDpStatusFill]; omega) (hzero _ _)
  refine ⟨hoff ?_, isF_setB_same _ _ _ rfl, ?_, hoff ?_, fun b hb hbit => ?_⟩
  · rw [hrx (by simp only [Reg.swDpStatusConn]; omega), houts rfl (by simp [Fld.key, Reg.swDpStatusConn, Reg.swDpStatusFill]), hconn]
  · unfold dpOutputs
    rw [hrx (by simp only [Reg.swDpOut0]; omega), hrx (by simp only [Reg.swDpOut1]; omega), hout0, hout1, Nat.mul_zero]
  · rw [hrx (by simp only [Reg.swDpStatusInLock]; omega), houts rfl (by simp [Fld.key, Reg.swDpStatusInLock, Reg.swDpStatusFill])]
    exact hzero _ _
  · have hreleased : s1.isF (Reg.swPortStatusDpTx b) = false := setAll_mem (fun _ => rfl) (mem_members.2 ⟨hb, hbit⟩) s
    refine (isF_of_getF ?_).trans hreleased
    refine read_setB (by simp only [Fld.key, Reg.swPortStatusDpTx, Reg.swPortStatusDpRx]; omega) (read_setF ?_ (read_setF ?_ (read_setF ?_
      (read_setB ?_ (read_setB ?_ rfl)))))
    all_goals
      simp only [Fld.key, Reg.swPortStatusDpTx, Reg.swDpStatusFill, Reg.swDpOut0, Reg.swDpOut1, Reg.swDpStatusInLock, Reg.swDpStatusConn]
      omega

/-- The port enable bound reads as before the entry was taken. -/
theorem portEnabled_taken (c : Cmd) (b : Nat) (s : State) : portEnabled b (taken c s) = portEnabled b s := by
  unfold portEnabled
  rw [taken_getF c s (f := Reg.gdPortEn0A) (b := 1) rfl (by decide), taken_getF c s (f := Reg.gdPortEn1A) (b := 1) rfl (by decide)]

/-- SW_DIRECT_CONNECT connects where every output is enabled. -/
theorem swDirectConnectEffect_enabled {c : Cmd} {s : State} (h : (members (cu c 4 6) 48).all (fun b => portEnabled b s) = true) :
    swDirectConnectEffect c (taken c s) = directConnect c (taken c s) := by
  have hnone : (members (cu c 4 6) 48).find? (fun b => !portEnabled b (taken c s)) = none :=
    List.find?_eq_none.2 fun b hb => by simp [portEnabled_taken, List.all_eq_true.1 h b hb]
  unfold swDirectConnectEffect
  rw [hnone]

/-- SW_DIRECT_CONNECT connects nothing where the port enable bound denies an output (R674). -/
theorem swDirectConnectEffect_denied {c : Cmd} {s : State} (h : (members (cu c 4 6) 48).any (fun b => !portEnabled b s) = true) :
    ∃ b, portEnabled b s = false ∧ bit (cu c 4 6) b = true ∧ swDirectConnectEffect c (taken c s) = (portDenied b (taken c s), failWith stLocked 0) := by
  obtain ⟨a, ha, hdenied⟩ := List.any_eq_true.1 h
  obtain ⟨b, hb⟩ : ∃ b, (members (cu c 4 6) 48).find? (fun b => !portEnabled b (taken c s)) = some b :=
    Option.isSome_iff_exists.1 (List.find?_isSome.2 ⟨a, ha, by rw [portEnabled_taken]; exact hdenied⟩)
  have hprop := List.find?_some hb
  rw [portEnabled_taken] at hprop
  refine ⟨b, by simpa using hprop, (mem_members.1 (List.mem_of_find?_eq_some hb)).2, ?_⟩
  unfold swDirectConnectEffect
  rw [hb]

/-- Settles O40: each command's run is the effect on the state with its entry taken, of which the lemmas above say what it leaves. -/
theorem switchCommandsComplete : Obligations.SwitchCommandsComplete := by
  unfold Obligations.SwitchCommandsComplete
  have hsw : ∀ (c : Cmd) (s : State), (taken c s).sw = s.sw := taken_sw
  refine ⟨fun c s h hrun => ?_, fun c s h hp hon hsleep => ?_, fun c s h => ?_, fun c s h => ?_, fun c s h => ?_, fun c s h hall => ?_,
    fun c s h hany => ?_, fun c s h => ?_⟩
  · exact ⟨_, okReply, swPortForward_ends h hrun, swPortForwardDo_keeps (frame_keeps _ _) (sub_of rfl) (FrameOf.refl _ _), rfl,
      swPortForwardDo_leaves c _ (swPortForward_accept h)⟩
  · exact ⟨_, swPortForward_waits h ⟨hp, hon, hsleep⟩, FrameOf.refl _ _, rfl⟩
  · obtain ⟨hset, hregs, hothers⟩ := swSetVlanEffect_leaves c (taken c s)
    refine ⟨_, runCmd_starts h, swSetVlanEffect_keeps (frame_keeps _ _) (sub_of rfl) (FrameOf.refl _ _), hset, hregs, fun v hv => (hothers v hv).trans ?_⟩
    rw [State.vlan, hsw, State.vlan]
  · obtain ⟨hset, hothers, hmarked⟩ := swSetLagEffect_leaves c (taken c s)
    refine ⟨_, runCmd_starts h, swSetLagEffect_keeps (frame_keeps _ _) (sub_of rfl) (FrameOf.refl _ _), hset, fun k hk => (hothers k hk).trans ?_, hmarked⟩
    rw [State.lag, hsw, State.lag]
  · obtain ⟨hset, hothers⟩ := swRuleWriteEffect_leaves c (taken c s)
    refine ⟨_, runCmd_starts h, swRuleWriteEffect_keeps (frame_keeps _ _) (sub_of rfl) (FrameOf.refl _ _), hset, fun k hk => (hothers k hk).trans ?_⟩
    rw [hsw]
  · obtain ⟨hconn, hm, houts, hrx, hreply, htx⟩ := directConnect_leaves c (taken c s) (swDirectConnect_mode h)
    rw [← swDirectConnectEffect_enabled hall] at hconn hm houts hrx hreply htx
    rw [taken_dtt] at hreply
    exact ⟨_, _, runCmd_starts h, swDirectConnectEffect_keeps (frame_keeps _ _) (sub_of rfl) (FrameOf.refl _ _), hconn, hm, houts, hrx, hreply, htx⟩
  · obtain ⟨b, hdenied, hbit, heff⟩ := swDirectConnectEffect_denied hany
    exact ⟨_, _, runCmd_starts h, swDirectConnectEffect_keeps (frame_keeps _ _) (sub_of rfl) (FrameOf.refl _ _), by rw [heff], b, hdenied, hbit,
      by rw [heff]⟩
  · obtain ⟨hconn, hrx, houts, hlock, htx⟩ := swDirectDisconnectEffect_leaves c (taken c s)
    have hsame : dpOutputs (cu c 0 1) (taken c s) = dpOutputs (cu c 0 1) s := by
      unfold dpOutputs
      rw [taken_getF c s part_swDpOut0 (by decide), taken_getF c s part_swDpOut1 (by decide)]
    rw [hsame] at htx
    exact ⟨_, runCmd_starts h, swDirectDisconnectEffect_keeps (frame_keeps _ _) (sub_of rfl) (FrameOf.refl _ _), hconn, hrx, houts, hlock, htx⟩

end Sys2Proof.Machine

/-! SUPPORT. Calibration runs (R627, R628, R636, R637, R642, R644). -/

namespace Sys2Proof.Machine

/-! ### Runs -/

theorem calRun_of_runs {s t : State} (h : t.cal.runs = s.cal.runs) (k : Nat) : t.calRun k = s.calRun k := by
  unfold State.calRun
  rw [h]

theorem calRun_of_cal {s t : State} (h : t.cal = s.cal) (k : Nat) : t.calRun k = s.calRun k := calRun_of_runs (by rw [h]) k

theorem calRec_of_recs {s t : State} (h : t.calRecs = s.calRecs) (k : Nat) : t.calRec k = s.calRec k := by
  unfold State.calRec
  rw [h]

@[simp] theorem calRec_setCalRec_same (s : State) (k : Nat) (r : CalRec) : (s.setCalRec k r).calRec k = r := spGet_spSet_same _ _ _ _

/-- The run found for a target is that target's. -/
theorem calRun_target {s : State} {k : Nat} {r : CalRun} (h : s.calRun k = some r) : r.target = k := by
  have hprop := List.find?_some h
  simpa using hprop

/-- CAL_STATUS shows the runs and changes none. -/
@[simp] theorem showCal_cal (s : State) : (showCal s).cal = s.cal := showCal_keeps (same_keeps .cal s) (sub_of rfl) rfl

/-- CAL_STATUS.RUNNING is 1 while a run has parts left. -/
theorem showCal_running {s : State} {r : CalRun} (hr : r ∈ s.cal.runs) (hp : r.parts ≠ []) : (showCal s).isF Reg.calStatusRunning = true := by
  unfold showCal
  split
  case h_1 hnone => exact absurd (decide_eq_true hp) (List.find?_eq_none.1 hnone r hr)
  case h_2 x hx =>
    rw [isF_setF_ne _ _ (by decide), isF_setF_ne _ _ (by decide)]
    exact isF_setB_same _ _ _ rfl

/-- Showing the runs leaves the count of rejections. -/
theorem showCal_rejects (s : State) : (showCal s).getF Reg.calStatusRejects = s.getF Reg.calStatusRejects := by
  unfold showCal
  split <;> exact read_setF (by decide) (read_setF (by decide) (read_setB (by decide) rfl))

/-- The run that CAL_LANE, CAL_EVTIN, CAL_OUTPUT and the device's own calibration start (R627). -/
def newRun (k : Nat) (parts : List Nat) (rate origin : Nat) (s : State) : CalRun := ⟨k, parts, 0, none, 0, rate, origin, !s.innerLocked⟩

/-- The state with the run of a target started anew. -/
def runAdded (k : Nat) (r : CalRun) (s : State) : State :=
  showCal { s with cal := { s.cal with runs := s.cal.runs.filter (fun x => x.target ≠ k) ++ [r] } }

theorem runAdded_calRun (k : Nat) {r : CalRun} (hr : r.target = k) (s : State) : (runAdded k r s).calRun k = some r := by
  refine (calRun_of_cal (showCal_cal _) k).trans ?_
  have hnone : (s.cal.runs.filter (fun x => x.target ≠ k)).find? (fun x => x.target = k) = none := List.find?_eq_none.2 fun x hx => by
    have hne := (List.mem_filter.1 hx).2
    simpa using hne
  unfold State.calRun
  rw [List.find?_append, hnone, Option.none_or]
  simp [hr]

/-- A run added leaves those of other targets. -/
theorem runAdded_other {k j : Nat} (hj : j ≠ k) {r : CalRun} (hr : r.target = k) (s : State) : (runAdded k r s).calRun j = s.calRun j := by
  refine (calRun_of_cal (showCal_cal _) j).trans ?_
  have hsame : ∀ x : CalRun, decide (decide (x.target ≠ k) = true ∧ decide (x.target = j) = true) = decide (x.target = j) := by
    intro x
    by_cases hx : x.target = j
    · simp [hx, hj]
    · simp [hx]
  unfold State.calRun
  rw [List.find?_append, List.find?_filter]
  simp only [hsame]
  simp [hr, hj.symm]

theorem runAdded_running (k : Nat) {r : CalRun} (hp : r.parts ≠ []) (s : State) : (runAdded k r s).isF Reg.calStatusRunning = true :=
  showCal_running (List.mem_append_right _ (List.mem_singleton.2 rfl)) hp

theorem startRun_eq (k : Nat) (parts : List Nat) (rate origin : Nat) (s : State) : startRun k parts rate origin s =
    (if calKind k = 1 then (runAdded k (newRun k parts rate origin s) s).setInput (k % 64)
        { (runAdded k (newRun k parts rate origin s) s).input (k % 64) with
          gate := ((runAdded k (newRun k parts rate origin s) s).input (k % 64)).gate.map (fun g => { g with bad := true }) }
      else partBegins k 0 (newRun k parts rate origin s) (runAdded k (newRun k parts rate origin s) s)) := rfl

/-- The start of a run leaves its run in place, and CAL_STATUS.RUNNING at 1 where it has parts. -/
theorem startRun_leaves (k : Nat) {parts : List Nat} (hp : parts ≠ []) (rate origin : Nat) (s : State) :
    (startRun k parts rate origin s).calRun k = some (newRun k parts rate origin s) ∧ (startRun k parts rate origin s).isF Reg.calStatusRunning = true := by
  have hrun := runAdded_calRun k (r := newRun k parts rate origin s) rfl s
  have hshown := runAdded_running k (r := newRun k parts rate origin s) hp s
  rw [startRun_eq]
  generalize runAdded k (newRun k parts rate origin s) s = u at hrun hshown
  split
  · exact ⟨hrun, hshown⟩
  · have hcal : (partBegins k 0 (newRun k parts rate origin s) u).cal = u.cal := partBegins_keeps (same_keeps .cal u) (sub_of rfl) rfl
    have hreg : (partBegins k 0 (newRun k parts rate origin s) u).getF Reg.calStatusRunning = u.getF Reg.calStatusRunning :=
      partBegins_keeps (same_keeps .rCal u) (sub_of rfl) (Part.same_refl .rCal u) _ rfl
    exact ⟨(calRun_of_cal hcal k).trans hrun, (isF_of_getF hreg).trans hshown⟩

/-- A run of a target without a receiver, or that begins with TDC, only adds the run. -/
theorem startRun_plain {k : Nat} {parts : List Nat} (hk : calKind k ≠ 1) (hp : 52 ≤ k ∨ parts.headD 0 = 0) (rate origin : Nat) (s : State) :
    startRun k parts rate origin s = runAdded k (newRun k parts rate origin s) s := by
  have hnone : ∀ u : State, ¬ (k < 52 ∧ 0 = 0 ∧ (newRun k parts rate origin s).parts.headD 0 ≠ 0 ∧ u.mode k ≠ 0) := by
    rintro u ⟨hlane, -, hfirst, -⟩
    rcases hp with h | h
    · omega
    · exact hfirst h
  rw [startRun_eq, if_neg hk, partBegins, if_neg (hnone _)]

/-! ### The commands -/

theorem innerLocked_begun (k : CmdSpec) (c : Cmd) (s : State) : (begun k c s).innerLocked = s.innerLocked := by
  unfold State.innerLocked State.isF
  rw [begun_getF c s k (f := Reg.plStatusInnerLock) (b := 5) rfl (by decide)]

theorem mode_begun (k : CmdSpec) (c : Cmd) (n : Nat) (s : State) : (begun k c s).mode n = s.mode n :=
  begun_getF c s k part_sdsStatusMode (by decide)

/-- A set of parts, lanes or outputs that is not empty has members. -/
theorem members_ne_nil {m limit : Nat} (h0 : m ≠ 0) (h : m < 2 ^ limit) : members m limit ≠ [] := by
  obtain ⟨n, hn⟩ : ∃ n, m.testBit n = true := Nat.exists_testBit_of_ne_zero h0
  have hlt : n < limit := by
    by_contra hge
    rw [Nat.testBit_lt_two_pow (lt_of_lt_of_le h (Nat.pow_le_pow_right (by decide) (by omega)))] at hn
    cases hn
  refine List.ne_nil_of_mem (mem_members.2 ⟨hlt, ?_⟩)
  rwa [bit, ← Nat.testBit_eq_decide_div_mod_eq]

/-- What CAL_LANE and CAL_EVTIN name. -/
theorem calLane_args {c : Cmd} {s : State} (h : Starts calLaneSpec c s) : cu c 0 1 ≤ 51 ∧ cu c 1 1 ≠ 0 ∧ cu c 1 1 < 8 := by
  have hlane := firstBad_none h.args_none (0, decide (51 < cu c 0 1)) (by simp)
  have hparts := firstBad_none h.args_none (1, cu c 1 1 = 0 || decide (8 ≤ cu c 1 1)) (by simp)
  simp only [decide_eq_false_iff_not, Bool.or_eq_false_iff] at hlane hparts
  omega

theorem calEvtin_args {c : Cmd} {s : State} (h : Starts calEvtinSpec c s) : cu c 1 1 ≠ 0 ∧ cu c 1 1 < 4 := by
  have hparts := firstBad_none h.args_none (1, cu c 1 1 = 0 || decide (4 ≤ cu c 1 1)) (by simp)
  simp only [decide_eq_false_iff_not, Bool.or_eq_false_iff] at hparts
  omega

/-- The first step of CAL_LANE or CAL_EVTIN starts the run of its target, where no island has to wake (R637). -/
theorem calStep_first (o : LongOp) (s : State) (ho : o.work = []) (hw : ¬ (48 ≤ calTarget o ∧ calTarget o < 52 ∧ s.awake 61 = false)) :
    calStep o s = (startRun (calTarget o) (members (cu o.cmd 1 1) 3) (rateOf (s.mode (calTarget o))) 0 s,
      .more { o with work := [1], estimate := (members (cu o.cmd 1 1) 3).length + 1 }) := by
  unfold calStep
  dsimp only
  rw [ho]
  dsimp only
  rw [if_neg hw]
  rfl

/-- A twin lane whose island sleeps waits (R35). -/
theorem calStep_waits (o : LongOp) (s : State) (ho : o.work = []) (hw : 48 ≤ calTarget o ∧ calTarget o < 52 ∧ s.awake 61 = false) :
    calStep o s = (s, .more o) := by
  unfold calStep
  dsimp only
  rw [ho]
  dsimp only
  rw [if_pos hw]

/-- CAL_LANE and CAL_EVTIN with nothing to wait for: the run of their target is in place and CAL_STATUS shows a run. -/
theorem calStep_starts {k : CmdSpec} {c : Cmd} {s : State} {n : Nat} (hn : calTarget (firstRecord k c s) = n)
    (hw : ¬ (48 ≤ n ∧ n < 52 ∧ s.awake 61 = false)) (hp : members (cu c 1 1) 3 ≠ []) :
    (calStep (firstRecord k c s) (begun k c s)).1.calRun n = some ⟨n, members (cu c 1 1) 3, 0, none, 0, rateOf (s.mode n), 0, !s.innerLocked⟩ ∧
    (calStep (firstRecord k c s) (begun k c s)).1.isF Reg.calStatusRunning = true ∧
    (calStep (firstRecord k c s) (begun k c s)).2 = .more { firstRecord k c s with work := [1], estimate := (members (cu c 1 1) 3).length + 1 } := by
  have hstep := calStep_first (firstRecord k c s) (begun k c s) rfl (by rw [hn, begun_awake]; exact hw)
  rw [hn, mode_begun] at hstep
  obtain ⟨hrun, hshown⟩ := startRun_leaves n hp (rateOf (s.mode n)) 0 (begun k c s)
  rw [newRun, innerLocked_begun] at hrun
  rw [hstep]
  exact ⟨hrun, hshown, rfl⟩

theorem calOutStep_first (o : LongOp) (s : State) (ho : o.work = []) :
    calOutStep o s = (startRun (128 + (members (cu o.cmd 0 2) 12).headD 0) [0, 1] 0 0 s,
      .more { o with work := members (cu o.cmd 0 2) 12, v := [0, 0, 0, 0], estimate := (members (cu o.cmd 0 2) 12).length + 1 }) := by
  unfold calOutStep
  rw [ho]

/-- CAL_OUTPUT starts the run of its first output (R635). -/
theorem calOutStep_starts (c : Cmd) (s : State) :
    (calOutStep (firstRecord calOutputSpec c s) (begun calOutputSpec c s)).1.calRun (128 + (members (cu c 0 2) 12).headD 0) =
      some ⟨128 + (members (cu c 0 2) 12).headD 0, [0, 1], 0, none, 0, 0, 0, !s.innerLocked⟩ ∧
    (calOutStep (firstRecord calOutputSpec c s) (begun calOutputSpec c s)).1.isF Reg.calStatusRunning = true ∧
    (calOutStep (firstRecord calOutputSpec c s) (begun calOutputSpec c s)).2 =
      .more { firstRecord calOutputSpec c s with work := members (cu c 0 2) 12, v := [0, 0, 0, 0], estimate := (members (cu c 0 2) 12).length + 1 } := by
  have hstep := calOutStep_first (firstRecord calOutputSpec c s) (begun calOutputSpec c s) rfl
  obtain ⟨hrun, hshown⟩ := startRun_leaves (128 + (members (cu c 0 2) 12).headD 0) (parts := [0, 1]) (by decide) 0 0 (begun calOutputSpec c s)
  rw [newRun, innerLocked_begun] at hrun
  rw [hstep]
  exact ⟨hrun, hshown, rfl⟩

/-! ### CAL_READ_RECORD -/

/-- A record's bytes read as before the entry was taken. -/
theorem recordBytes_taken (k : Nat) (c : Cmd) (s : State) : recordBytes k (taken c s) = recordBytes k s := by
  have hrec : ∀ j, (taken c s).calRec j = s.calRec j := calRec_of_recs (taken_calRecs c s)
  have hat : ∀ j x, calAt j x (taken c s) = calAt j x s := by
    intro j x
    unfold calAt
    rw [hrec]
  have hok : (taken c s).getF ⟨recAddr k, 29, 3⟩ = s.getF ⟨recAddr k, 29, 3⟩ := taken_getF c s part_recAddr (by decide)
  unfold recordBytes calDelay phi
  simp only [hrec, hat, hok, taken_dtt]

/-! ### The end of a run -/

/-- The runs with that of a target replaced, or dropped, as its origin says. -/
def runsAfter (k : Nat) (r : CalRun) (l : List CalRun) : List CalRun :=
  if r.origin = 0 then l.map (fun x => if x.target = k then r else x) else l.filter (fun x => x.target ≠ k)

theorem putRun_cal (k : Nat) (r : CalRun) (s : State) :
    (putRun k r s).cal = { s.cal with runs := s.cal.runs.map (fun x => if x.target = k then r else x) } := by
  unfold putRun
  rw [showCal_cal]

theorem dropRun_cal (k : Nat) (s : State) : (dropRun k s).cal = { s.cal with runs := s.cal.runs.filter (fun x => x.target ≠ k) } := by
  unfold dropRun
  rw [showCal_cal]

theorem stampStatus_cal (p : Nat) (s : State) : (stampStatus p s).cal = s.cal := stampStatus_keeps (same_keeps .cal s) (sub_of rfl) rfl

theorem stampStatus_calField (p : Nat) (s : State) {f : Fld} (h : regPart f.addr = 22) : (stampStatus p s).getF f = s.getF f :=
  stampStatus_keeps (same_keeps .rCal s) (sub_of rfl) (Part.same_refl .rCal s) f h

theorem startupFollow_cal (s : State) : (startupFollow s).cal = s.cal := by
  unfold startupFollow
  split <;> rfl

theorem startupFollow_rejects (s : State) : (startupFollow s).getF Reg.calStatusRejects = s.getF Reg.calStatusRejects := by
  unfold startupFollow
  split
  · rfl
  · exact getF_setF_ne _ _ (by decide)

/-- The part of a run's end that is about its target: a lane's stamps and an input in service again. -/
def targetServes (k : Nat) (r : CalRun) (s : State) : State :=
  let full : Bool := runOk r && bit r.accepted 0 && bit r.accepted 2
  let s := if k < 48 ∧ full = true then
      showRecal (portOf k s) (s.setLane k { s.lane k with calWait := false, recalDue := false })
    else if k < 52 ∧ full = true then s.setLane k { s.lane k with calWait := false }
    else s
  if calKind k = 1 ∧ runOk r = true ∧ r.accepted = 3 then s.setB (Reg.emStatusCalOk (k % 64)) true else s

theorem targetServes_cal (k : Nat) (r : CalRun) (s : State) : (targetServes k r s).cal = s.cal := by
  unfold targetServes
  simp [apply_ite State.cal, showRecal, State.setLane]

theorem targetServes_rejects (k : Nat) (r : CalRun) (s : State) : (targetServes k r s).getF Reg.calStatusRejects = s.getF Reg.calStatusRejects := by
  have hin : Reg.calStatusRejects.key ≠ (Reg.emStatusCalOk (k % 64)).key := by
    simp only [Fld.key, Reg.calStatusRejects, Reg.emStatusCalOk]
    omega
  have hshow : ∀ p (t : State), (showRecal p t).getF Reg.calStatusRejects = t.getF Reg.calStatusRejects := fun p t =>
    showRecal_keeps (same_keeps .rCal t) (sub_of rfl) (Part.same_refl .rCal t) _ rfl
  have hlane : ∀ n x (t : State), (t.setLane n x).getF Reg.calStatusRejects = t.getF Reg.calStatusRejects := fun _ _ _ => rfl
  have hset : ∀ b (t : State), (t.setB (Reg.emStatusCalOk (k % 64)) b).getF Reg.calStatusRejects = t.getF Reg.calStatusRejects :=
    fun b t => read_setB hin rfl
  unfold targetServes
  simp only [apply_ite (fun t : State => t.getF Reg.calStatusRejects), hshow, hlane, hset, ite_self]

/-- The runs follow the end of one, and STARTUP_OK the last start-up run (R642). -/
def runOver (k : Nat) (r : CalRun) (s : State) : State :=
  let s := if r.origin = 0 then putRun k r s else dropRun k s
  if r.origin = 1 then startupFollow s else s

theorem runEnds_eq (k : Nat) (r : CalRun) (s : State) : runEnds k r s =
    if k < 48 then stampStatus (portOf k (runOver k r (targetServes k r s))) (runOver k r (targetServes k r s)) else runOver k r (targetServes k r s) := rfl

theorem runOver_cal (k : Nat) (r : CalRun) (s : State) : (runOver k r s).cal = { s.cal with runs := runsAfter k r s.cal.runs } := by
  unfold runOver runsAfter
  by_cases h0 : r.origin = 0
  · simp only [h0, if_true, if_false, Nat.zero_ne_one, putRun_cal]
  · simp only [h0, if_false]
    split
    · rw [startupFollow_cal, dropRun_cal]
    · rw [dropRun_cal]

theorem runOver_rejects (k : Nat) (r : CalRun) (s : State) : (runOver k r s).getF Reg.calStatusRejects = s.getF Reg.calStatusRejects := by
  have hput : (putRun k r s).getF Reg.calStatusRejects = s.getF Reg.calStatusRejects := showCal_rejects _
  have hdrop : (dropRun k s).getF Reg.calStatusRejects = s.getF Reg.calStatusRejects := showCal_rejects _
  unfold runOver
  extract_lets u
  have hu : u.getF Reg.calStatusRejects = s.getF Reg.calStatusRejects := by
    simp only [u]
    split
    · exact hput
    · exact hdrop
  split
  · exact (startupFollow_rejects u).trans hu
  · exact hu

/-- The runs after a run's end. -/
theorem runEnds_cal (k : Nat) (r : CalRun) (s : State) : (runEnds k r s).cal = { s.cal with runs := runsAfter k r s.cal.runs } := by
  rw [runEnds_eq, ← targetServes_cal k r s]
  split
  · rw [stampStatus_cal, runOver_cal]
  · exact runOver_cal k r _

/-- A run's end counts no rejection. -/
theorem runEnds_rejects (k : Nat) (r : CalRun) (s : State) : (runEnds k r s).getF Reg.calStatusRejects = s.getF Reg.calStatusRejects := by
  rw [runEnds_eq, ← targetServes_rejects k r s]
  split
  · rw [stampStatus_calField _ _ rfl, runOver_rejects]
  · exact runOver_rejects k r _

theorem runEnds_calRec (k j : Nat) (r : CalRun) (s : State) : (runEnds k r s).calRec j = s.calRec j :=
  calRec_of_recs (runEnds_keeps (same_keeps .calRecs s) (sub_of rfl) rfl) j

/-- A run that is not a command's is gone at its end. -/
theorem runEnds_dropped {k : Nat} {r : CalRun} (h : r.origin ≠ 0) (s : State) : (runEnds k r s).calRun k = none := by
  unfold State.calRun
  rw [runEnds_cal, runsAfter, if_neg h]
  exact List.find?_eq_none.2 fun x hx => by
    have hne := (List.mem_filter.1 hx).2
    simpa using hne

/-- A command's run stays at its end, for the command to collect. -/
theorem runEnds_put {k : Nat} {r : CalRun} (h : r.origin = 0) (hr : r.target = k) {s : State} {x : CalRun} (hx : s.calRun k = some x) :
    (runEnds k r s).calRun k = some r := by
  unfold State.calRun at *
  rw [runEnds_cal, runsAfter, if_pos h]
  have hpred : ((fun y : CalRun => decide (y.target = k)) ∘ fun y => if y.target = k then r else y) = fun y => decide (y.target = k) := by
    funext y
    by_cases hy : y.target = k
    · simp [hy, hr]
    · simp [hy]
  have hkx := List.find?_some hx
  simp only [List.find?_map, hpred, hx, Option.map_some]
  rw [if_pos (of_decide_eq_true hkx)]

/-! ### CAL_PART_DONE -/

/-- The state in which a rejected part's run ends: the count of rejections and CAL_REJECT (R637). -/
def partRejected (k part : Nat) (r : CalRun) (code : Nat × Option Int) (s : State) : State :=
  let v : Int × State := match code.2 with | some v => (v, s) | none => (s.draw.1, s.draw.2)
  calEvent 0x1102 (if r.origin = 1 then 2 else 1) k part code.1 v.1 (v.2.addSat Reg.calStatusRejects 1)

theorem partRejected_keeps_cal (k part : Nat) (r : CalRun) (code : Nat × Option Int) (s : State) :
    (partRejected k part r code s).cal = s.cal ∧ (partRejected k part r code s).calRecs = s.calRecs := by
  have hevent : ∀ sev value (t : State), (calEvent 0x1102 sev k part code.1 value t).cal = t.cal ∧ (calEvent 0x1102 sev k part code.1 value t).calRecs = t.calRecs :=
    fun sev value t => ⟨calEvent_keeps (same_keeps .cal t) (sub_of rfl) rfl, calEvent_keeps (same_keeps .calRecs t) (sub_of rfl) rfl⟩
  unfold partRejected
  dsimp only
  rw [(hevent _ _ _).1, (hevent _ _ _).2]
  split <;> exact ⟨rfl, rfl⟩

theorem partRejected_rejects (k part : Nat) (r : CalRun) (code : Nat × Option Int) (s : State) :
    (partRejected k part r code s).getF Reg.calStatusRejects = min (s.getF Reg.calStatusRejects + 1) (2 ^ 16 - 1) := by
  have hevent : ∀ sev value (t : State), (calEvent 0x1102 sev k part code.1 value t).getF Reg.calStatusRejects = t.getF Reg.calStatusRejects :=
    fun sev value t => calEvent_keeps (same_keeps .rCal t) (sub_of rfl) (Part.same_refl .rCal t) _ rfl
  have hadd : ∀ t : State, t.getF Reg.calStatusRejects = s.getF Reg.calStatusRejects →
      (t.addSat Reg.calStatusRejects 1).getF Reg.calStatusRejects = min (s.getF Reg.calStatusRejects + 1) (2 ^ 16 - 1) := by
    intro t ht
    have hsat : sat (2 ^ 16 - 1) (s.getF Reg.calStatusRejects + 1) = min (s.getF Reg.calStatusRejects + 1) (2 ^ 16 - 1) := by
      unfold sat
      split <;> omega
    show (t.setF Reg.calStatusRejects (sat (2 ^ 16 - 1) (t.getF Reg.calStatusRejects + 1))).getF Reg.calStatusRejects = _
    rw [getF_setF_same, ht, hsat]
    exact Nat.mod_eq_of_lt (lt_of_le_of_lt (Nat.min_le_right _ _) (by decide))
  unfold partRejected
  dsimp only
  rw [hevent]
  refine hadd _ ?_
  split <;> rfl

/-- A part that fails a check is rejected and ends its run (R636, R637). -/
theorem calPartDone_rejects {target later part : Nat} {m : CalMeas} {r : CalRun} {rest : List Nat} {code : Nat × Option Int} {s : State}
    (hrun : s.calRun target = some r) (hparts : r.parts = part :: rest) (hwait : (s.calRec target).waiting = none)
    (hshape : calShape target part m = true)
    (hfault : calFault target part r.rate (r.lost || !s.innerLocked) (s.calRec target).vals.map m = some code) :
    exec (.calPartDone target m later) s =
      .next (runEnds target { r with rejected := some (part, code.1), parts := rest } (partRejected target part r code s)) := by
  show execCalPartDone target m later s = _
  unfold execCalPartDone
  rw [hrun]
  dsimp only
  rw [hparts]
  dsimp only
  rw [hwait, hshape, if_neg (by decide), hfault]
  rfl

/-- The record of a part that passes its checks: its values wait for x_a (R628). -/
def recWaiting (target part later : Nat) (m : CalMeas) (r : CalRun) (s : State) : CalRec :=
  let xa := s.dtt + 64 + later
  let c := { s.calRec target with
    seq := ((s.calRec target).seq + 1) % 2 ^ 32, temps := calTemps target part r.rate m (s.calRec target).temps,
    waiting := some (xa, calWrite target part r.rate m (s.calRec target).vals) }
  if part = 0 then { c with xaTdc := xa } else { c with xaDelay := xa }

theorem recWaiting_fields (target part later : Nat) (m : CalMeas) (r : CalRun) (s : State) :
    (recWaiting target part later m r s).seq = ((s.calRec target).seq + 1) % 2 ^ 32 ∧ (recWaiting target part later m r s).vals = (s.calRec target).vals ∧
    (recWaiting target part later m r s).waiting = some (s.dtt + 64 + later, calWrite target part r.rate m (s.calRec target).vals) := by
  unfold recWaiting
  dsimp only
  split <;> exact ⟨rfl, rfl, rfl⟩

/-- A part that passes its checks leaves its values waiting in the record. -/
theorem calPartDone_passes {target later part : Nat} {m : CalMeas} {r : CalRun} {rest : List Nat} {s : State}
    (hrun : s.calRun target = some r) (hparts : r.parts = part :: rest) (hwait : (s.calRec target).waiting = none)
    (hshape : calShape target part m = true)
    (hfault : calFault target part r.rate (r.lost || !s.innerLocked) (s.calRec target).vals.map m = none) :
    ∃ t, exec (.calPartDone target m later) s = .next t ∧ t.calRec target = recWaiting target part later m r s := by
  have hexec : execCalPartDone target m later s = .next { s.setCalRec target (recWaiting target part later m r s) with
      cal := { s.cal with accepting := s.cal.accepting ++ [(target, part, m.temp, (s.draw.1 : Int))] }, freeCount := s.freeCount + 1 } := by
    unfold execCalPartDone
    rw [hrun]
    dsimp only
    rw [hparts]
    dsimp only
    rw [hwait, hshape, if_neg (by decide), hfault]
    rfl
  exact ⟨_, hexec, calRec_setCalRec_same s target _⟩

/-- CAL_PART_DONE with no part in progress, or no measurement of its form, changes nothing. -/
theorem calPartDone_keeps_state {target later : Nat} {m : CalMeas} {s : State} (h : (s.calRec target).waiting.isSome = true ∨ s.calRun target = none ∨
    (∃ r, s.calRun target = some r ∧ (r.parts = [] ∨ calShape target (r.parts.headD 0) m = false))) : exec (.calPartDone target m later) s = .next s := by
  show execCalPartDone target m later s = _
  unfold execCalPartDone
  split
  case h_1 => rfl
  case h_2 r hr =>
    split
    case h_1 => rfl
    case h_2 part rest hparts =>
      dsimp only
      rw [if_pos]
      rcases h with hw | hnone | ⟨x, hx, hshape⟩
      · exact Or.inl hw
      · rw [hr] at hnone
        cases hnone
      · rw [hr] at hx
        obtain rfl := Option.some.inj hx
        rcases hshape with hnil | hshape
        · rw [hparts] at hnil
          cases hnil
        · rw [hparts] at hshape
          exact Or.inr hshape

/-! ### CAL_ACCEPT -/

/-- The record of a target as its waiting values take effect (R628). -/
def recAccepted (target x : Nat) (v : CalVals) (s : State) : CalRec :=
  { s.calRec target with older := (s.calRec target).vals, vals := v, since := x, waiting := none }

/-- The state with a target's values in effect and its acceptance done. -/
def valuesAccepted (target x : Nat) (v : CalVals) (y : Nat × Nat × Int × Int) (s : State) : State :=
  let s := s.setCalRec target (recAccepted target x v s)
  { s with cal := { s.cal with accepting := s.cal.accepting.filter (fun q => q.1 ≠ target),
                               deviceTemp := if calKind target = 3 then y.2.2.1 else s.cal.deviceTemp } }

theorem valuesAccepted_leaves (target x : Nat) (v : CalVals) (y : Nat × Nat × Int × Int) (s : State) :
    (valuesAccepted target x v y s).calRec target = recAccepted target x v s ∧
    (valuesAccepted target x v y s).cal.accepting = s.cal.accepting.filter (fun q => q.1 ≠ target) := by
  unfold valuesAccepted
  exact ⟨calRec_setCalRec_same s target _, rfl⟩

/-- The record register and CAL_DONE of a part accepted (R643). -/
def acceptShown (target part seq : Nat) (rest : List Nat) (value : Int) (s : State) : State :=
  let s := if rest.headD 3 = 2 ∧ part = 2 then s else s.setB ⟨recAddr target, okBit target part, 1⟩ true
  let s := showRecTemp target (s.setF ⟨recAddr target, 16, 13⟩ seq)
  let s := if target < 48 then showConstants target s else s
  calEvent 0x1101 0 target part 0 value s

theorem acceptShown_calRecs (target part seq : Nat) (rest : List Nat) (value : Int) (s : State) : (acceptShown target part seq rest value s).calRecs = s.calRecs := by
  have hevent : ∀ t : State, (calEvent 0x1101 0 target part 0 value t).calRecs = t.calRecs := fun t => calEvent_keeps (same_keeps .calRecs t) (sub_of rfl) rfl
  have hconst : ∀ t : State, (showConstants target t).calRecs = t.calRecs := fun t => showConstants_keeps (same_keeps .calRecs t) (sub_of rfl) rfl
  have htemp : ∀ t : State, (showRecTemp target t).calRecs = t.calRecs := fun t => showRecTemp_keeps (same_keeps .calRecs t) (sub_of rfl) rfl
  unfold acceptShown
  simp [hevent, hconst, htemp, apply_ite State.calRecs]

theorem acceptShown_cal (target part seq : Nat) (rest : List Nat) (value : Int) (s : State) : (acceptShown target part seq rest value s).cal = s.cal := by
  have hevent : ∀ t : State, (calEvent 0x1101 0 target part 0 value t).cal = t.cal := fun t => calEvent_keeps (same_keeps .cal t) (sub_of rfl) rfl
  have hconst : ∀ t : State, (showConstants target t).cal = t.cal := fun t => showConstants_keeps (same_keeps .cal t) (sub_of rfl) rfl
  have htemp : ∀ t : State, (showRecTemp target t).cal = t.cal := fun t => showRecTemp_keeps (same_keeps .cal t) (sub_of rfl) rfl
  unfold acceptShown
  simp [hevent, hconst, htemp, apply_ite State.cal]

/-- The run goes on with its next part, or ends (R634, R637). -/
def runGoesOn (target part : Nat) (r : CalRun) (s : State) : State :=
  if r.parts = [] then runEnds target r s
  else
    let s := partBegins target part r (putRun target r s)
    if target < 48 then stampStatus (portOf target s) s else s

theorem runGoesOn_calRecs (target part : Nat) (r : CalRun) (s : State) : (runGoesOn target part r s).calRecs = s.calRecs := by
  have hbegins : (partBegins target part r (putRun target r s)).calRecs = s.calRecs :=
    (partBegins_keeps (same_keeps .calRecs _) (sub_of rfl) rfl).trans (putRun_keeps (same_keeps .calRecs s) (sub_of rfl) rfl)
  unfold runGoesOn
  split
  · exact runEnds_keeps (same_keeps .calRecs s) (sub_of rfl) rfl
  dsimp only
  split
  · exact (stampStatus_keeps (same_keeps .calRecs _) (sub_of rfl) rfl).trans hbegins
  · exact hbegins

/-- What a run does next leaves the parts that await their acceptance. -/
theorem runGoesOn_accepting (target part : Nat) (r : CalRun) (s : State) : (runGoesOn target part r s).cal.accepting = s.cal.accepting := by
  have hbegins : (partBegins target part r (putRun target r s)).cal = (putRun target r s).cal := partBegins_keeps (same_keeps .cal _) (sub_of rfl) rfl
  unfold runGoesOn
  split
  · rw [runEnds_cal]
  dsimp only
  split
  · rw [stampStatus_cal, hbegins, putRun_cal]
  · rw [hbegins, putRun_cal]

/-- CAL_ACCEPT at its instant: the values take effect, the registers and CAL_DONE show them, and the run goes on. -/
theorem calAccept_accepts {target x : Nat} {v : CalVals} {y : Nat × Nat × Int × Int} {s : State} (hwait : (s.calRec target).waiting = some (x, v))
    (hfind : s.cal.accepting.find? (fun q => q.1 = target) = some y) (hx : x ≤ s.dtt) :
    ∃ part seq rest value r, exec (.calAccept target) s =
      .next (runGoesOn target part r (acceptShown target part seq rest value (valuesAccepted target x v y s))) := by
  show ∃ part seq rest value r, execCalAccept target s = _
  unfold execCalAccept
  extract_lets c
  split
  case h_1 w a hw ha =>
    obtain rfl : (x, v) = w := Option.some.inj (hwait.symm.trans hw)
    obtain rfl : y = a := Option.some.inj (hfind.symm.trans ha)
    rw [if_neg (by exact Nat.not_lt.2 hx)]
    extract_lets part s1 cal s2 r rest s3 s4 s5 s6 r'
    exact ⟨part, c.seq, rest, y.2.2.2, r', rfl⟩
  case h_2 hno => exact absurd hfind (hno _ _ hwait)

/-- CAL_ACCEPT with no value that waits, or before its instant, changes nothing. -/
theorem calAccept_keeps_state {target : Nat} {s : State} (h : (s.calRec target).waiting = none ∨ s.cal.accepting.find? (fun q => q.1 = target) = none ∨
    (∃ x v, (s.calRec target).waiting = some (x, v) ∧ s.dtt < x)) : exec (.calAccept target) s = .next s := by
  show execCalAccept target s = _
  unfold execCalAccept
  extract_lets c
  split
  case h_1 w a hw ha =>
    rw [if_pos]
    rcases h with hnone | hnone | ⟨x, v, hx, hlt⟩
    · cases hnone.symm.trans hw
    · cases hnone.symm.trans ha
    · obtain rfl : (x, v) = w := Option.some.inj (hx.symm.trans hw)
      exact hlt
  case h_2 => rfl

/-! ### Device channels -/

/-- The device channels up to one are calibrated again (R627). -/
theorem deviceRuns (n : Nat) (hn : n ≤ 10) (s : State) :
    ((List.range n).foldl (fun s d => startRun (192 + d) [0] 0 2 s) s).innerLocked = s.innerLocked ∧
    ((List.range n).foldl (fun s d => startRun (192 + d) [0] 0 2 s) s).cal.deviceAt = s.cal.deviceAt ∧
    ((List.range n).foldl (fun s d => startRun (192 + d) [0] 0 2 s) s).cal.deviceTemp = s.cal.deviceTemp ∧
    ∀ d < n, ((List.range n).foldl (fun s d => startRun (192 + d) [0] 0 2 s) s).calRun (192 + d) = some ⟨192 + d, [0], 0, none, 0, 0, 2, !s.innerLocked⟩ := by
  induction n with
  | zero => simp
  | succ n ih =>
    obtain ⟨hlock, hat, htemp, hruns⟩ := ih (by omega)
    rw [List.range_succ, List.foldl_append, List.foldl_cons, List.foldl_nil]
    generalize (List.range n).foldl (fun s d => startRun (192 + d) [0] 0 2 s) s = u at hlock hat htemp hruns
    have hkind : calKind (192 + n) ≠ 1 := by
      unfold calKind
      omega
    rw [startRun_plain hkind (Or.inl (by omega))]
    have hcal : (runAdded (192 + n) (newRun (192 + n) [0] 0 2 u) u).cal.deviceAt = u.cal.deviceAt ∧
        (runAdded (192 + n) (newRun (192 + n) [0] 0 2 u) u).cal.deviceTemp = u.cal.deviceTemp := by
      unfold runAdded
      rw [showCal_cal]
      exact ⟨rfl, rfl⟩
    refine ⟨?_, hcal.1.trans hat, hcal.2.trans htemp, fun d hd => ?_⟩
    · have hpl : (runAdded (192 + n) (newRun (192 + n) [0] 0 2 u) u).isF Reg.plStatusInnerLock = u.isF Reg.plStatusInnerLock := by
        refine isF_of_getF ?_
        exact showCal_keeps (same_keeps .rPl _) (sub_of rfl) (Part.same_refl .rPl _) _ rfl
      exact hpl.trans hlock
    · rcases Nat.lt_succ_iff_lt_or_eq.1 hd with hlt | rfl
      · exact (runAdded_other (k := 192 + n) (r := newRun (192 + n) [0] 0 2 u) (by omega) rfl u).trans (hruns d hlt)
      · rw [runAdded_calRun (192 + d) (r := newRun (192 + d) [0] 0 2 u) rfl, newRun, hlock]

/-- DEVICE_CAL_AUTO when the device channels are due. -/
theorem deviceCalAuto_due {temp : Int} {s : State} (hready : s.isF Reg.hstStatusReady = true)
    (hdue : s.cal.deviceAt + 468750000000 ≤ s.dtt ∨ 80 ≤ (temp - s.cal.deviceTemp).natAbs)
    (hidle : s.cal.runs.any (fun r => calKind r.target = 3) = false) :
    ∃ u : State, u.cal.deviceAt = s.dtt ∧ u.cal.deviceTemp = temp ∧ u.innerLocked = s.innerLocked ∧
      exec (.deviceCalAuto temp) s = .next ((List.range 10).foldl (fun s d => startRun (192 + d) [0] 0 2 s) u) := by
  refine ⟨{ s with cal := { s.cal with deviceAt := s.dtt, deviceTemp := temp } }, rfl, rfl, rfl, ?_⟩
  show execDeviceCalAuto temp s = _
  unfold execDeviceCalAuto
  rw [if_neg]
  rintro (h | ⟨h, h'⟩ | h)
  · rw [hready] at h
    cases h
  · omega
  · rw [hidle] at h
    cases h

/-- Settles O55: the lemmas above say what a run's start, its parts and its end leave. -/
theorem calibrationRunsComplete : Obligations.CalibrationRunsComplete := by
  unfold Obligations.CalibrationRunsComplete
  refine ⟨fun c s h hw => ?_, fun c s h hn hsleep => ?_, fun c s h => ?_, fun c s h => ?_, fun c s h => ?_,
    fun target later m r part rest code s hrun hparts hwait hshape hfault => ?_,
    fun target later m r part rest s hrun hparts hwait hshape hfault => ?_, fun target later m s h => calPartDone_keeps_state h,
    fun target x v y s hwait hfind hx => ?_, fun target s h => ?_, fun temp s hready hdue hidle => ?_, fun temp s h => ?_⟩
  · obtain ⟨-, hp0, hp⟩ := calLane_args h
    have hawake : ¬ (48 ≤ cu c 0 1 ∧ cu c 0 1 < 52 ∧ s.awake 61 = false) := by
      rintro ⟨hn, -, hsleep⟩
      rcases hw with hw | hw
      · omega
      · rw [hw] at hsleep
        cases hsleep
    exact ⟨_, _, runStepped_starts h, calStep_keeps (frame_keeps _ _) (sub_of rfl) (FrameOf.refl _ _),
      calStep_starts (k := calLaneSpec) rfl hawake (members_ne_nil hp0 hp)⟩
  · obtain ⟨hlane, -, -⟩ := calLane_args h
    have hstep := calStep_waits (firstRecord calLaneSpec c s) (begun calLaneSpec c s) rfl ⟨hn, Nat.lt_succ_of_le hlane, by rw [begun_awake]; exact hsleep⟩
    exact ⟨_, _, runStepped_starts h, calStep_keeps (frame_keeps _ _) (sub_of rfl) (FrameOf.refl _ _), by rw [hstep], by rw [hstep]⟩
  · obtain ⟨hp0, hp⟩ := calEvtin_args h
    exact ⟨_, _, runStepped_starts h, calStep_keeps (frame_keeps _ _) (sub_of rfl) (FrameOf.refl _ _),
      calStep_starts (k := calEvtinSpec) rfl (by omega) (members_ne_nil hp0 (by omega))⟩
  · exact ⟨_, _, runStepped_starts h, calOutStep_keeps (frame_keeps _ _) (sub_of rfl) (FrameOf.refl _ _), calOutStep_starts c s⟩
  · refine ⟨_, _, runCmd_starts h, FrameOf.refl _ _, rfl, ?_⟩
    unfold calReadRecordEffect
    rw [recordBytes_taken]
  · have hexec := calPartDone_rejects (later := later) hrun hparts hwait hshape hfault
    have htarget := calRun_target hrun
    obtain ⟨hcal, hrecs⟩ := partRejected_keeps_cal target part r code s
    refine ⟨_, hexec, execCalPartDone_keeps (frame_keeps _ s) (sub_of rfl) (FrameOf.refl _ s) _ hexec, (runEnds_calRec _ _ _ _).trans (calRec_of_recs hrecs _),
      (runEnds_rejects _ _ _).trans (partRejected_rejects _ _ _ _ _), fun horigin => ?_, fun horigin => ?_⟩
    · exact runEnds_dropped (r := { r with rejected := some (part, code.1), parts := rest }) horigin _
    · rw [runEnds_put (r := { r with rejected := some (part, code.1), parts := rest }) horigin htarget
        ((calRun_of_cal hcal target).trans hrun)]
      rfl
  · obtain ⟨t, hexec, hrec⟩ := calPartDone_passes (later := later) hrun hparts hwait hshape hfault
    refine ⟨t, hexec, execCalPartDone_keeps (frame_keeps _ s) (sub_of rfl) (FrameOf.refl _ s) _ hexec, ?_⟩
    rw [hrec]
    exact recWaiting_fields target part later m r s
  · obtain ⟨part, seq, rest, value, r, hexec⟩ := calAccept_accepts hwait hfind hx
    refine ⟨_, hexec, execCalAccept_keeps (frame_keeps _ s) (sub_of rfl) (FrameOf.refl _ s) _ hexec, ?_⟩
    obtain ⟨hrec, hacc⟩ := valuesAccepted_leaves target x v y s
    rw [calRec_of_recs ((runGoesOn_calRecs _ _ _ _).trans (acceptShown_calRecs _ _ _ _ _ _)), hrec, runGoesOn_accepting, acceptShown_cal, hacc]
    exact ⟨rfl, rfl, rfl, rfl, rfl⟩
  · exact calAccept_keeps_state h
  · obtain ⟨u, hat, htemp, hlock, hexec⟩ := deviceCalAuto_due hready hdue hidle
    obtain ⟨-, hat', htemp', hruns⟩ := deviceRuns 10 (le_refl 10) u
    rw [hlock] at hruns
    exact ⟨_, hexec, execDeviceCalAuto_keeps (frame_keeps _ s) (sub_of rfl) (FrameOf.refl _ s) _ hexec, hat'.trans hat, htemp'.trans htemp, hruns⟩
  · show execDeviceCalAuto temp s = _
    unfold execDeviceCalAuto
    rw [if_pos h]

end Sys2Proof.Machine

/-! SUPPORT. What events, counts and records leave alone: the registers of the host block beside the event bits. -/

namespace Sys2Proof.Machine

/-- The event bits of the host block: ALARM, its interrupt and that of a quality change. -/
def eventBits : List Nat := [Reg.hstStatusAlarm.key, Reg.hstIrqStatusAlarm.key, Reg.hstIrqStatusQcChg.key]

/-- `t` differs from `s0` in no register of the host block but the event bits. -/
def Calm (s0 t : State) : Prop := ∀ f : Fld, regPart f.addr = 0 → f.key ∉ eventBits → t.getF f = s0.getF f

theorem Calm.refl (s : State) : Calm s s := fun _ _ _ => rfl

theorem Calm.isF {s0 t : State} (h : Calm s0 t) {f : Fld} (hf : regPart f.addr = 0) (hne : f.key ∉ eventBits) : t.isF f = s0.isF f :=
  isF_of_getF (h f hf hne)

/-! Operation by operation, in the order of the frame lemmas: each raises event bits at most. -/

section

variable {s0 : State}

/-- An operation on other parts is calm. -/
theorem calm_keeps : Keeps (Calm s0) (without .rHst) where
  setF := fun s f v hb h g hg hne => (Part.same_setF .rHst s f v (without_bit _ _ hb).1 g hg).trans (h g hg hne)
  drop := fun s q hb h g hg hne => (Part.same_drop .rHst s q (fun e he => (without_bit _ _ (hb e he)).1) g hg).trans (h g hg hne)
  dma := fun s a bs hb h => h
  rest := fun s t hr hm hb h f hf hne => (getF_of_regs hr f).trans (h f hf hne)
  again := fun s hb _ => absurd (without_bit _ _ hb).2 (by decide)

/-- An event bit may be raised. -/
theorem calm_signal {s : State} {f : Fld} (hf : f.key ∈ eventBits) (h : Calm s0 s) : Calm s0 (s.raiseBit f) :=
  fun g hg hne => (getF_setF_ne s (f := f) (g := g) 1 (fun hk => hne (hk ▸ hf))).trans (h g hg hne)

theorem raiseAt_calm {stamp src sev code payload s} (h_s : Calm s0 s) : Calm s0 (raiseAt stamp src sev code payload s) := by
  unfold raiseAt
  extract_lets +onlyGivenNames -merge -underBinder s1
  have hs1 : Calm s0 s1 := ite_k (State.signalVector_keeps calm_keeps (sub_of rfl) (calm_signal (by decide) (calm_signal (by decide) ‹_›))) ‹_›
  refine ite_k ‹_› ?_
  extract_lets +onlyGivenNames -merge -underBinder e2
  exact upd_evu calm_keeps (sub_of rfl) ‹_›

theorem raiseEv_calm {src sev code fs s} (h_s : Calm s0 s) : Calm s0 (raiseEv src sev code fs s) := by
  unfold raiseEv
  exact raiseAt_calm ‹_›

theorem mpEvent_calm {sev code w scrub s} (h_s : Calm s0 s) : Calm s0 (mpEvent sev code w scrub s) := by
  unfold mpEvent
  exact raiseEv_calm ‹_›

theorem trackNew_calm {w s} (h_s : Calm s0 s) : Calm s0 (trackNew w s) := by
  unfold trackNew
  extract_lets +onlyGivenNames -merge -underBinder t1
  refine ite_k (setTracker_keeps calm_keeps (sub_of rfl) ‹_›) ?_
  extract_lets +onlyGivenNames -merge -underBinder v2 old3 s4 quiet5
  have hs4 : Calm s0 s4 := setTracker_keeps calm_keeps (sub_of rfl) (addSat_k calm_keeps 19 part_mpTrack (sub_of rfl) ‹_›)
  exact ite_k (mpEvent_calm (upd_mp calm_keeps (sub_of rfl) ‹_›)) ‹_›

theorem mpStick_calm {w scrub s} (h_s : Calm s0 s) : Calm s0 (mpStick w scrub s) := by
  unfold mpStick
  extract_lets +onlyGivenNames -merge -underBinder retired1 src2 s3 m4 x5 s6
  have hs3 : Calm s0 s3 := countRaw_keeps calm_keeps (sub_of rfl) (upd_mp calm_keeps (sub_of rfl) ‹_›)
  have hs6 : Calm s0 s6 := mpEvent_calm (mpList_keeps calm_keeps (sub_of rfl) (State.setMemSum_keeps calm_keeps (sub_of rfl) ‹_›))
  refine ite_k (quarHold_keeps calm_keeps (sub_of rfl) ‹_›) ?_
  refine ite_k (quarChip_keeps calm_keeps (sub_of rfl) ‹_›) ?_
  refine ite_k ?_ ‹_›
  extract_lets +onlyGivenNames -merge -underBinder s7
  have hs7 : Calm s0 s7 := set64_k calm_keeps 13 part_bfSpillCap_2 (sub_of rfl) (addWrap_k calm_keeps 13 part_bfRetired (sub_of rfl) ‹_›)
  exact raiseEv_calm ‹_›

theorem mpCorrection_calm {w scrub s} (h_s : Calm s0 s) : Calm s0 (mpCorrection w scrub s) := by
  unfold mpCorrection
  extract_lets +onlyGivenNames -merge -underBinder m1 x2 s3
  have hs3 : Calm s0 s3 := countRaw_keeps calm_keeps (sub_of rfl) (State.setMemSum_keeps calm_keeps (sub_of rfl) ‹_›)
  split
  · exact trackNew_calm ‹_›
  · exact ite_k (mpStick_calm (setTracker_keeps calm_keeps (sub_of rfl) ‹_›)) (ite_k ‹_› (setTracker_keeps calm_keeps (sub_of rfl) ‹_›))

theorem poisonChip_calm {c s} (h_s : Calm s0 s) : Calm s0 (poisonChip c s) := by
  unfold poisonChip
  extract_lets +onlyGivenNames -merge -underBinder hit1 src2 s3
  have hs3 : Calm s0 s3 := upd_bf calm_keeps (sub_of rfl) ‹_›
  exact raiseEv_calm (quarChip_keeps calm_keeps (sub_of rfl) ‹_›)

theorem poisonDdr_calm {c s} (h_s : Calm s0 s) : Calm s0 (poisonDdr c s) := by
  unfold poisonDdr
  extract_lets +onlyGivenNames -merge -underBinder hit1 src2 s3 src4 s5
  have hs3 : Calm s0 s3 := upd_bf calm_keeps (sub_of rfl) ‹_›
  have hs5 : Calm s0 s5 := ite_k ‹_› (showQuar_keeps calm_keeps (sub_of rfl) (upd_mp calm_keeps (sub_of rfl) ‹_›))
  exact raiseEv_calm ‹_›

theorem mpAct_calm {w s} (h_s : Calm s0 s) : Calm s0 (mpAct w s) := by
  unfold mpAct
  extract_lets +onlyGivenNames -merge -underBinder m a acted ue
  have hacted : ∀ {t}, Calm s0 t → Calm s0 (acted t) := fun h => State.setMemSum_keeps calm_keeps (sub_of rfl) h
  have hue : ∀ {k loc sev t}, Calm s0 t → Calm s0 (ue k loc sev t) := fun h => countRaw_keeps calm_keeps (sub_of rfl) (raiseEv_calm h)
  clear_value m a acted ue
  refine ite_k (hacted (poisonChip_calm ‹_›)) ?_
  refine ite_k (hacted (poisonHold_keeps calm_keeps (sub_of rfl) ‹_›)) ?_
  refine ite_k (hacted (poisonHold_keeps calm_keeps (sub_of rfl) ‹_›)) ?_
  refine ite_k (hacted (foldl_k ‹_› (fun _ _ _ => poisonChip_calm ‹_›))) ?_
  refine ite_k ?slots ?_
  case slots =>
    split
    · assumption
    · exact hacted (hue (foldl_k (upd_ft calm_keeps (sub_of rfl) ‹_›) (fun _ _ _ => mpWrite_keeps calm_keeps (sub_of rfl) ‹_›)))
  refine ite_k (ite_k (hacted (hue (upd_ft calm_keeps (sub_of rfl) ‹_›))) ‹_›) ?_
  refine ite_k ?nexthops ?_
  case nexthops =>
    split
    · assumption
    · exact hacted (hue (upd_ft calm_keeps (sub_of rfl) ‹_›))
  refine ite_k ?rules ?_
  case rules =>
    split
    · assumption
    · extract_lets +onlyGivenNames -merge -underBinder s1
      have hs1 : Calm s0 s1 := foldl_k ‹_› (fun _ _ _ => mpWrite_keeps calm_keeps (sub_of rfl) ‹_›)
      exact hacted (hue (upd_sw calm_keeps (sub_of rfl) hs1))
  refine ite_k (ite_k (hacted (upd_refs calm_keeps (sub_of rfl) ‹_›)) ‹_›) ?_
  refine ite_k ?counters ?_
  case counters =>
    extract_lets +onlyGivenNames -merge -underBinder s1 s2
    have hs1 : Calm s0 s1 := mpWrite_keeps calm_keeps (sub_of rfl) (upd_counters calm_keeps (sub_of rfl) ‹_›)
    have hs2 : Calm s0 s2 := setF_k calm_keeps 18 part_ctOvf (sub_of rfl) hs1
    exact raiseEv_calm hs2
  refine ite_k (hacted (upd_mp calm_keeps (sub_of rfl) ‹_›)) ?_
  exact ite_k (upd_mbx calm_keeps (sub_of rfl) ‹_›) (hacted (poisonDdr_calm ‹_›))

theorem mpLost_calm {w scrub s} (h_s : Calm s0 s) : Calm s0 (mpLost w scrub s) := by
  unfold mpLost
  extract_lets +onlyGivenNames -merge -underBinder m1 x2 s3 s4
  have hs3 : Calm s0 s3 := countRaw_keeps calm_keeps (sub_of rfl) (mpList_keeps calm_keeps (sub_of rfl) (State.setMemSum_keeps calm_keeps (sub_of rfl) ‹_›))
  have hs4 : Calm s0 s4 := set64_k calm_keeps 19 part_mpLastUe_2 (sub_of rfl) ‹_›
  exact mpAct_calm (mpEvent_calm ‹_›)

theorem mpRead_calm {w scrub s} (h_s : Calm s0 s) : Calm s0 (mpRead w scrub s).2 := by
  unfold mpRead
  refine ite2_k (mk2_k ‹_›) ?_
  extract_lets +onlyGivenNames -merge -underBinder k1 ks2
  have hks2 : Calm s0 ks2.2 := ite2_k (mk2_k (State.draw_keeps calm_keeps (sub_of rfl) ‹_›)) (mk2_k ‹_›)
  exact ite2_k (mk2_k (mpCorrection_calm ‹_›)) (ite2_k (mk2_k (mpLost_calm ‹_›)) (mk2_k ‹_›))

theorem count_calm {c n s} (h_s : Calm s0 s) : Calm s0 (count c n s) := by
  unfold count
  exact ite_k (countRaw_keeps calm_keeps (sub_of rfl) ‹_›) (mpWrite_keeps calm_keeps (sub_of rfl) (countRaw_keeps calm_keeps (sub_of rfl) (mpRead_calm ‹_›)))

theorem evdDrop_calm {s} (h_s : Calm s0 s) : Calm s0 (evdDrop s) := by
  unfold evdDrop
  extract_lets +onlyGivenNames -merge -underBinder src1 s2
  have hs2 : Calm s0 s2 := count_calm (upd_evd calm_keeps (sub_of rfl) ‹_›)
  exact ite_k ‹_› (raiseEv_calm (upd_evd calm_keeps (sub_of rfl) ‹_›))

theorem evdSend_calm {rtype rflags src stamp fs s} (h_s : Calm s0 s) : Calm s0 (evdSend rtype rflags src stamp fs s) := by
  unfold evdSend
  refine ite_k (count_calm (upd_evd calm_keeps (sub_of rfl) ‹_›)) ?_
  refine ite_k (evdDrop_calm ‹_›) ?_
  extract_lets +onlyGivenNames -merge -underBinder e1
  exact upd_evd calm_keeps (sub_of rfl) ‹_›

theorem fifoWrite_calm {k b s} (h_s : Calm s0 s) : Calm s0 (fifoWrite k b s) := by
  unfold fifoWrite
  extract_lets +onlyGivenNames -merge -underBinder f1 n2 s3
  have hs3 : Calm s0 s3 := setFifo_keeps calm_keeps (sub_of rfl) ‹_›
  exact ite_k (raiseEv_calm ‹_›) ‹_›

theorem fifoPut_calm {k i s} (h_s : Calm s0 s) : Calm s0 (fifoPut k i s) := by
  unfold fifoPut
  extract_lets +onlyGivenNames -merge -underBinder f1
  refine ite_k ?_ ?_
  · extract_lets +onlyGivenNames -merge -underBinder ns2 s3
    have hs3 : Calm s0 s3 := ite_k (noteBase_keeps calm_keeps (sub_of rfl) (fifoWrite_calm ‹_›)) ‹_›
    exact fifoWrite_calm ‹_›
  · extract_lets +onlyGivenNames -merge -underBinder lost4 s5 quiet6
    have hs5 : Calm s0 s5 := ite_k (addSat_k calm_keeps 9 part_ptsLostRx (sub_of rfl) ‹_›) (addSat_k calm_keeps 9 part_ptsLostTx (sub_of rfl) ‹_›)
    exact ite_k (raiseEv_calm (setFifo_keeps calm_keeps (sub_of rfl) ‹_›)) (setFifo_keeps calm_keeps (sub_of rfl) ‹_›)

theorem syncPool_calm {s} (h_s : Calm s0 s) : Calm s0 (syncPool s) := by
  unfold syncPool
  extract_lets +onlyGivenNames -merge -underBinder f1 s2
  have hs2 : Calm s0 s2 := setF_k calm_keeps 13 part_bfPoolFreeF (sub_of rfl) ‹_›
  exact ite_k ‹_› (ite_k (raiseEv_calm (upd_bf calm_keeps (sub_of rfl) ‹_›)) (ite_k (upd_bf calm_keeps (sub_of rfl) ‹_›) ‹_›))

theorem endCopy_calm {k c s} (h_s : Calm s0 s) : Calm s0 (endCopy k c s) := by
  unfold endCopy
  split
  · assumption
  · extract_lets +onlyGivenNames -merge -underBinder src1 s2 s3
    have hs2 : Calm s0 s2 := upd_bf calm_keeps (sub_of rfl) ‹_›
    have hs3 : Calm s0 s3 := ite_k (addOcc_keeps calm_keeps (sub_of rfl) ‹_›) (ite_k (setB_k calm_keeps 13 part_bfSpillStatusStageFull (sub_of rfl) ‹_›) (addDocc_keeps calm_keeps (sub_of rfl) ‹_›))
    exact ite_k (syncPool_calm (State.setPoolFrame_keeps calm_keeps (sub_of rfl) ‹_›)) (State.setPoolFrame_keeps calm_keeps (sub_of rfl) ‹_›)

theorem discardCopy_calm {k off c s} (h_s : Calm s0 s) : Calm s0 (discardCopy k off c s) := by
  unfold discardCopy
  exact count_calm (endCopy_calm (removeCopy_keeps calm_keeps (sub_of rfl) ‹_›))

theorem nrItem_calm {n head conts s} (h_s : Calm s0 s) : Calm s0 (nrItem n head conts s) := by
  unfold nrItem
  refine ite_k ‹_› ?_
  refine ite_k ?_ ?_
  · extract_lets +onlyGivenNames -merge -underBinder s1 v2 s3
    have hs1 : Calm s0 s1 := count_calm (addSat_k calm_keeps 17 part_capNrDrop (sub_of rfl) ‹_›)
    extract_lets +onlyGivenNames -merge -underBinder s4
    have hs4 : Calm s0 s4 := State.setNetRing_keeps calm_keeps (sub_of rfl) ‹_›
    exact ite_k (raiseEv_calm ‹_›) ‹_›
  · extract_lets +onlyGivenNames -merge -underBinder r5 hd6 ph7 s8 s9 s10 s11 d12 s13
    have hs8 : Calm s0 s8 := nrPut_keeps calm_keeps (sub_of rfl) ‹_›
    have hs9 : Calm s0 s9 := foldl_k ‹_› (fun _ _ _ => nrPut_keeps calm_keeps (sub_of rfl) ‹_›)
    have hs10 : Calm s0 s10 := State.dma_keeps calm_keeps (sub_of rfl) ‹_›
    have hs11 : Calm s0 s11 := State.setNetRing_keeps calm_keeps (sub_of rfl) ‹_›
    have hs13 : Calm s0 s13 := State.setRing_keeps calm_keeps (sub_of rfl) ‹_›
    exact nrSignal_keeps calm_keeps (sub_of rfl) (count_calm ‹_›)

theorem nrBase_calm {n ns s} (h_s : Calm s0 s) : Calm s0 (nrBase n ns s) := by
  unfold nrBase
  refine ite_k ?_ ‹_›
  extract_lets +onlyGivenNames -merge -underBinder s'1
  have hs'1 : Calm s0 s'1 := ‹_›
  exact noteBase_keeps calm_keeps (sub_of rfl) (nrItem_calm ‹_›)

theorem capWrite_calm {n trunc conts ev i s} (h_s : Calm s0 s) : Calm s0 (capWrite n trunc conts ev i s) := by
  unfold capWrite
  exact nrItem_calm (nrBase_calm ‹_›)

theorem frameRecord_calm {k i s} (h_s : Calm s0 s) : Calm s0 (frameRecord k i s) := by
  unfold frameRecord
  exact evdSend_calm ‹_›

theorem selectOne_calm {i k s} (h_s : Calm s0 s) : Calm s0 (selectOne i k s) := by
  unfold selectOne
  extract_lets +onlyGivenNames -merge -underBinder x1
  refine ite_k ‹_› ?_
  extract_lets +onlyGivenNames -merge -underBinder s2
  have hs2 : Calm s0 s2 := State.setSelector_keeps calm_keeps (sub_of rfl) ‹_›
  refine ite_k ‹_› ?_
  extract_lets +onlyGivenNames -merge -underBinder ev3 s4
  have hs4 : Calm s0 s4 := ite_k (frameRecord_calm ‹_›) ‹_›
  exact capWrite_calm ‹_›

theorem captureFrame_calm {i s} (h_s : Calm s0 s) : Calm s0 (captureFrame i s) := by
  unfold captureFrame
  exact foldl_k ‹_› (fun _ _ _ => selectOne_calm ‹_›)

theorem evdSlot_calm {b s} (h_s : Calm s0 s) : Calm s0 (evdSlot b s) := by
  unfold evdSlot
  refine ite_k ‹_› ?_
  refine ite_k ?_ ?_
  · extract_lets +onlyGivenNames -merge -underBinder s1 v2 s3
    have hs1 : Calm s0 s1 := set64_k calm_keeps 16 part_evdRingLost_2 (sub_of rfl) ‹_›
    extract_lets +onlyGivenNames -merge -underBinder s4
    have hs4 : Calm s0 s4 := upd_evd calm_keeps (sub_of rfl) ‹_›
    exact ite_k (raiseEv_calm ‹_›) ‹_›
  · extract_lets +onlyGivenNames -merge -underBinder ix5 s6 s7
    have hs6 : Calm s0 s6 := setF_k calm_keeps 16 part_evdRProdIndex (sub_of rfl) (State.dma_keeps calm_keeps (sub_of rfl) ‹_›)
    extract_lets +onlyGivenNames -merge -underBinder s8
    have hs8 : Calm s0 s8 := upd_evd calm_keeps (sub_of rfl) ‹_›
    exact ite_k (evdWriteBack_keeps calm_keeps (sub_of rfl) ‹_›) ‹_›

theorem evdHeaderSlots_calm {h s} (h_s : Calm s0 s) : Calm s0 (evdHeaderSlots h s) := by
  unfold evdHeaderSlots
  refine ite_k ‹_› ?_
  extract_lets +onlyGivenNames -merge -underBinder left1 fill2 s3 s4
  have hs3 : Calm s0 s3 := foldl_k ‹_› (fun _ _ _ => evdSlot_calm ‹_›)
  have hs4 : Calm s0 s4 := foldl_k ‹_› (fun _ _ _ => evdSlot_calm ‹_›)
  exact State.signalVector_keeps calm_keeps (sub_of rfl) (evdWriteBack_keeps calm_keeps (sub_of rfl) ‹_›)

theorem admitRecord_calm {s} (h_s : Calm s0 s) : Calm s0 (admitRecord s) := by
  unfold admitRecord
  split
  · assumption
  · extract_lets +onlyGivenNames -merge -underBinder b1
    exact evdSlot_calm (count_calm (upd_evd calm_keeps (sub_of rfl) ‹_›))

theorem admitAll_calm {s} (h_s : Calm s0 s) : Calm s0 (admitAll s) := by
  unfold admitAll
  exact foldl_k ‹_› (fun _ _ _ => admitRecord_calm ‹_›)

theorem closeBlock_calm {takeover isShort xref s} (h_s : Calm s0 s) : Calm s0 (closeBlock takeover isShort xref s).2 := by
  unfold closeBlock
  extract_lets +onlyGivenNames -merge -underBinder b1 s2 h3 eh4 sgn5 s6 s7 s8 s9
  have hs2 : Calm s0 s2 := noteQuality_keeps calm_keeps (sub_of rfl) (admitAll_calm ‹_›)
  have hs6 : Calm s0 s6 := count_calm ‹_›
  have hs8 : Calm s0 s8 := upd_evd calm_keeps (sub_of rfl) ‹_›
  extract_lets +onlyGivenNames -merge -underBinder s10 s11
  have hs10 : Calm s0 s10 := ite_k (upd_evd calm_keeps (sub_of rfl) ‹_›) (storeHeader_keeps calm_keeps (sub_of rfl) (evdHeaderSlots_calm ‹_›))
  have hs11 : Calm s0 s11 := set64_k calm_keeps 16 part_evdBlock_2 (sub_of rfl) (sendBh_keeps calm_keeps (sub_of rfl) ‹_›)
  exact mk2_k (openBlock_keeps calm_keeps (sub_of rfl) ‹_›)

theorem evdTakeover_calm {takeback serial epoch block bh s} (h_s : Calm s0 s) : Calm s0 (evdTakeover takeback serial epoch block bh s) := by
  unfold evdTakeover
  extract_lets +onlyGivenNames -merge -underBinder s1 c2
  have hs1 : Calm s0 s1 := evdSend_calm ‹_›
  have hc2 : Calm s0 c2.2 := closeBlock_calm ‹_›
  exact raiseEv_calm ‹_›

theorem fmShortStart_calm {g hold s} (h_s : Calm s0 s) : Calm s0 (fmShortStart g hold s) := by
  unfold fmShortStart
  extract_lets +onlyGivenNames -merge -underBinder x1
  exact ite_k (raiseEv_calm (State.setMg_keeps calm_keeps (sub_of rfl) ‹_›)) ‹_›

theorem fmShorten_calm {g s} (h_s : Calm s0 s) : Calm s0 (fmShorten g s) := by
  unfold fmShorten
  extract_lets +onlyGivenNames -merge -underBinder now1 want2
  refine ite_k ‹_› ?_
  refine ite_k (State.setMg_keeps calm_keeps (sub_of rfl) (setB_k calm_keeps 14 part_fmGStatusShort (sub_of rfl) ‹_›)) ?_
  extract_lets +onlyGivenNames -merge -underBinder s3
  have hs3 : Calm s0 s3 := fmShortStart_calm (setB_k calm_keeps 14 part_fmGStatusShort (sub_of rfl) ‹_›)
  exact raiseEv_calm ‹_›

theorem showMerge_calm {g s} (h_s : Calm s0 s) : Calm s0 (showMerge g s) := by
  unfold showMerge
  extract_lets +onlyGivenNames -merge -underBinder x1 n2 s3 s4 s5 s6
  have hs3 : Calm s0 s3 := setF_k calm_keeps 14 part_fmGStatusHeld (sub_of rfl) ‹_›
  have hs4 : Calm s0 s4 := setB_k calm_keeps 14 part_fmGStatusLateHeld (sub_of rfl) ‹_›
  have hs5 : Calm s0 s5 := setB_k calm_keeps 14 part_fmGStatusEgDown (sub_of rfl) ‹_›
  have hs6 : Calm s0 s6 := setF_k calm_keeps 14 part_fmGPeak (sub_of rfl) (setF_k calm_keeps 14 part_fmGOcc (sub_of rfl) ‹_›)
  exact fmShorten_calm ‹_›

theorem fmRecord_calm {g kind trailer s} (h_s : Calm s0 s) : Calm s0 (fmRecord g kind trailer s) := by
  unfold fmRecord
  exact ite_k (evdSend_calm ‹_›) ‹_›

theorem fmDiscard_calm {g kind h s} (h_s : Calm s0 s) : Calm s0 (fmDiscard g kind h s) := by
  unfold fmDiscard
  extract_lets +onlyGivenNames -merge -underBinder off1 s2 n3 src4 s5 s6
  have hs2 : Calm s0 s2 := count_calm (fmRemove_keeps calm_keeps (sub_of rfl) ‹_›)
  have hs5 : Calm s0 s5 := State.setMg_keeps calm_keeps (sub_of rfl) ‹_›
  have hs6 : Calm s0 s6 := ite_k (ite_k (raiseEv_calm ‹_›) ‹_›) ‹_›
  exact showMerge_calm (fmRecord_calm ‹_›)

theorem fmWhole_calm {g f good s} (h_s : Calm s0 s) : Calm s0 (fmWhole g f good s) := by
  unfold fmWhole
  split
  · assumption
  · extract_lets +onlyGivenNames -merge -underBinder len1
    refine ite_k (fmDiscard_calm ‹_›) ?_
    refine ite_k (fmDiscard_calm ‹_›) ?_
    split
    · rename_i hq
      have hd2 := keep_of (Q := fun r : Option (_ × State) => Ox (fun r : _ × State => Calm s0 r.2) r) hq (fmTake_keeps calm_keeps (sub_of rfl) ‹_›)
      try (have hd2x := hd2 _ rfl)
      exact fmDiscard_calm ‹_›
    · rename_i hq
      have hd2 := keep_of (Q := fun r : Option (_ × State) => Ox (fun r : _ × State => Calm s0 r.2) r) hq (fmTake_keeps calm_keeps (sub_of rfl) ‹_›)
      try (have hd2x := hd2 _ rfl)
      extract_lets +onlyGivenNames -merge -underBinder x3 h'4
      exact showMerge_calm (State.setMg_keeps calm_keeps (sub_of rfl) ‹_›)

theorem erPut_calm {g tIn body nss s} (h_s : Calm s0 s) : Calm s0 (erPut g tIn body nss s) := by
  unfold erPut
  extract_lets +onlyGivenNames -merge -underBinder s1
  have hs1 : Calm s0 s1 := ite_k (evdSend_calm ‹_›) ‹_›
  refine ite_k ?_ ‹_›
  extract_lets +onlyGivenNames -merge -underBinder i2
  exact capWrite_calm ‹_›

theorem erRecord_calm {g kind x s} (h_s : Calm s0 s) : Calm s0 (erRecord g kind x s) := by
  unfold erRecord
  extract_lets +onlyGivenNames -merge -underBinder f1 d2 dec3 body4 nsIn5 nss6 outs7 s8
  extract_lets +onlyGivenNames -merge -underBinder s9
  have hs9 : Calm s0 s9 := ite_k (noteBase_keeps calm_keeps (sub_of rfl) (erPut_calm ‹_›)) ‹_›
  exact erPut_calm ‹_›

theorem erEnd_calm {g kind x s} (h_s : Calm s0 s) : Calm s0 (erEnd g kind x s) := by
  unfold erEnd
  extract_lets +onlyGivenNames -merge -underBinder src1 s2
  have hs2 : Calm s0 s2 := State.setRg_keeps calm_keeps (sub_of rfl) ‹_›
  exact showRelease_keeps calm_keeps (sub_of rfl) (erRecord_calm ‹_›)

theorem erDiscard_calm {g kind x s} (h_s : Calm s0 s) : Calm s0 (erDiscard g kind x s) := by
  unfold erDiscard
  extract_lets +onlyGivenNames -merge -underBinder s1 n2 src3 s4 s5
  have hs1 : Calm s0 s1 := count_calm ‹_›
  have hs4 : Calm s0 s4 := State.setRg_keeps calm_keeps (sub_of rfl) ‹_›
  have hs5 : Calm s0 s5 := ite_k (ite_k (raiseEv_calm ‹_›) ‹_›) ‹_›
  exact erEnd_calm ‹_›

theorem erLateNote_calm {g s} (h_s : Calm s0 s) : Calm s0 (erLateNote g s) := by
  unfold erLateNote
  extract_lets +onlyGivenNames -merge -underBinder n1 src2 s3
  have hs3 : Calm s0 s3 := State.setRg_keeps calm_keeps (sub_of rfl) ‹_›
  exact ite_k (raiseEv_calm ‹_›) ‹_›

theorem erTarget_calm {g x p} (h_x : Calm s0 x.2) : Calm s0 (erTarget g x p).2 := by
  unfold erTarget
  extract_lets +onlyGivenNames -merge -underBinder f1 s2 t3
  have hs2 : Calm s0 s2 := ‹_›
  exact ite2_k (mk2_k ‹_›) (ite2_k (mk2_k (count_calm ‹_›)) (ite2_k (mk2_k (erLateNote_calm (count_calm ‹_›))) (mk2_k (erLateNote_calm (count_calm ‹_›)))))

theorem erFinish_calm {g x s} (h_s : Calm s0 s) : Calm s0 (erFinish g x s) := by
  unfold erFinish
  exact ite_k (erEnd_calm ‹_›) (showRelease_keeps calm_keeps (sub_of rfl) ‹_›)

theorem erDecide_calm {g x s} (h_s : Calm s0 s) : Calm s0 (erDecide g x s) := by
  unfold erDecide
  extract_lets +onlyGivenNames -merge -underBinder f1 b2 rg3 ps4 y5 s6 downFails7 failing8
  have hs6 : Calm s0 s6 := erReplace_keeps calm_keeps (sub_of rfl) (addWrap_k calm_keeps 15 part_erGFseq (sub_of rfl) ‹_›)
  refine ite_k ?_ ?_
  · extract_lets +onlyGivenNames -merge -underBinder s9 n10 src11 s12 s13
    have hs9 : Calm s0 s9 := foldl_k ‹_› (fun _ _ _ => ite_k (count_calm ‹_›) ‹_›)
    have hs12 : Calm s0 s12 := count_calm (State.setRg_keeps calm_keeps (sub_of rfl) ‹_›)
    have hs13 : Calm s0 s13 := ite_k (raiseEv_calm ‹_›) ‹_›
    exact erEnd_calm ‹_›
  · extract_lets +onlyGivenNames -merge -underBinder r14 s15 s16
    have hr14 : Calm s0 r14.2 := foldl_g (Q := fun r : _ × State => Calm s0 r.2) (mk2_k ‹_›) (fun _ _ _ => erTarget_calm ‹_›)
    have hs15 : Calm s0 s15 := count_calm (erReplace_keeps calm_keeps (sub_of rfl) ‹_›)
    have hs16 : Calm s0 s16 := ite_k (count_calm ‹_›) ‹_›
    exact erFinish_calm ‹_›

theorem erWhole_calm {g f good s} (h_s : Calm s0 s) : Calm s0 (erWhole g f good s) := by
  unfold erWhole
  split
  · assumption
  · refine ite_k (erDiscard_calm ‹_›) ?_
    split
    · rename_i hq
      have hd1 := keep_of (Q := fun r : Option _ => Ox (fun r : _ × State => Calm s0 r.2) r) hq (erTake_keeps calm_keeps (sub_of rfl) ‹_›)
      try (have hd1x := hd1 _ rfl)
      exact erDiscard_calm ‹_›
    · rename_i hq
      have hd2 := keep_of (Q := fun r : Option _ => Ox (fun r : _ × State => Calm s0 r.2) r) hq (erTake_keeps calm_keeps (sub_of rfl) ‹_›)
      try (have hd2x := hd2 _ rfl)
      extract_lets +onlyGivenNames -merge -underBinder y3 s4
      have hs4 : Calm s0 s4 := erReplace_keeps calm_keeps (sub_of rfl) ‹_›
      exact ite_k (showRelease_keeps calm_keeps (sub_of rfl) (count_calm (State.setRg_keeps calm_keeps (sub_of rfl) ‹_›))) (ite_k (erDiscard_calm ‹_›) (erDecide_calm ‹_›))

theorem sampleOne_calm {egress src e i dp invalid k s} (h_s : Calm s0 s) : Calm s0 (sampleOne egress src e i dp invalid k s) := by
  unfold sampleOne
  extract_lets +onlyGivenNames -merge -underBinder ins1
  refine ite_k ‹_› ?_
  extract_lets +onlyGivenNames -merge -underBinder c2 n3 s4
  have hs4 : Calm s0 s4 := upd_ctSeen calm_keeps (sub_of rfl) ‹_›
  refine ite_k ‹_› ?_
  refine ite_k (addSat_k calm_keeps 18 part_ctLsInvalid (sub_of rfl) ‹_›) ?_
  extract_lets +onlyGivenNames -merge -underBinder l5 s6 s7 s8 s9
  have hs6 : Calm s0 s6 := set64_k calm_keeps 18 part_ctLsCount_2 (sub_of rfl) ‹_›
  have hs7 : Calm s0 s7 := set64_k calm_keeps 18 part_ctLsSum_2 (sub_of rfl) ‹_›
  have hs8 : Calm s0 s8 := set64_k calm_keeps 18 part_ctLsMin_2 (sub_of rfl) ‹_›
  have hs9 : Calm s0 s9 := set64_k calm_keeps 18 part_ctLsLast_2 (sub_of rfl) (set64_k calm_keeps 18 part_ctLsMax_2 (sub_of rfl) ‹_›)
  exact count_calm ‹_›

theorem latencySample_calm {egress src e i dp invalid s} (h_s : Calm s0 s) : Calm s0 (latencySample egress src e i dp invalid s) := by
  unfold latencySample
  exact foldl_k ‹_› (fun _ _ _ => sampleOne_calm ‹_›)

theorem countRx_calm {n d s} (h_s : Calm s0 s) : Calm s0 (countRx n d s) := by
  unfold countRx
  extract_lets +onlyGivenNames -merge -underBinder s1
  have hs1 : Calm s0 s1 := count_calm (count_calm ‹_›)
  exact count_calm ‹_›

theorem discardStored_calm {k s} (h_s : Calm s0 s) : Calm s0 (discardStored k s) := by
  unfold discardStored
  exact foldl_k ‹_› (fun _ _ _ => foldl_k ‹_› (fun _ _ _ => ite_k (discardCopy_calm ‹_›) ‹_›))

theorem poolEnd_calm {k data good cutBad s} (h_s : Calm s0 s) : Calm s0 (poolEnd k data good cutBad s) := by
  unfold poolEnd
  split
  · assumption
  · extract_lets +onlyGivenNames -merge -underBinder s1
    have hs1 : Calm s0 s1 := State.setPoolFrame_keeps calm_keeps (sub_of rfl) ‹_›
    exact ite_k ‹_› (discardStored_calm ‹_›)

theorem directEnd_calm {r fault s} (h_s : Calm s0 s) : Calm s0 (directEnd r fault s) := by
  unfold directEnd
  extract_lets +onlyGivenNames -merge -underBinder n1 data2 bad3 sent4 s5 s6 put7 s8 s9
  have hsent4 : Calm s0 sent4.2 := ite2_k (mk2_k ‹_›) (ite2_k (freeBytes_keeps calm_keeps (sub_of rfl) ‹_›) (mk2_k ‹_›))
  have hs5 : Calm s0 s5 := ‹_›
  have hput7 : Calm s0 put7 := upd_sw calm_keeps (sub_of rfl) ‹_›
  have hs8 : Calm s0 s8 := foldl_k ‹_› (fun _ _ _ => injectSent_keeps calm_keeps (sub_of rfl) ‹_›)
  extract_lets +onlyGivenNames -merge -underBinder s10 s11
  have hs10 : Calm s0 s10 := by
    unfold s10
    dsimp only [s9]
    exact ite_k (fifoPut_calm ‹_›) ‹_›
  have hs11 : Calm s0 s11 := captureFrame_calm ‹_›
  refine foldl_k ?_ (fun u _ hu => ?_)
  · assumption
  · extract_lets +onlyGivenNames -merge -underBinder s12 s13
    have hs12 : Calm s0 s12 := by
      unfold s12
      dsimp only [s9]
      exact ite_k (fifoPut_calm ‹_›) ‹_›
    have hs13 : Calm s0 s13 := captureFrame_calm ‹_›
    exact latencySample_calm ‹_›

theorem frameEnd_calm {n r data fault s} (h_s : Calm s0 s) : Calm s0 (frameEnd n r data fault s) := by
  unfold frameEnd
  extract_lets +onlyGivenNames -merge -underBinder s1
  have hs1 : Calm s0 s1 := State.setRx_keeps calm_keeps (sub_of rfl) ‹_›
  refine ite_k (directEnd_calm ‹_›) ?_
  extract_lets +onlyGivenNames -merge -underBinder broken2 tooLong3 good4 data'5 eover6 begun7 s8 s9 s10 s11
  have hs8 : Calm s0 s8 := ite_k (count_calm ‹_›) ‹_›
  have hs9 : Calm s0 s9 := ite_k (count_calm ‹_›) ‹_›
  have hs10 : Calm s0 s10 := ite_k (countRx_calm ‹_›) ‹_›
  have hs11 : Calm s0 s11 := ite_k (count_calm ‹_›) ‹_›
  refine ite_k (captureFrame_calm (ite_k (claimEnd_keeps calm_keeps (sub_of rfl) ‹_›) ‹_›)) ?_
  extract_lets +onlyGivenNames -merge -underBinder f12 f13 s14 s15 s16 s17
  have hs14 : Calm s0 s14 := by
    unfold s14
    split
    · exact poolEnd_calm ‹_›
    · assumption
  have hs15 : Calm s0 s15 := by
    unfold s15
    split
    · exact fmWhole_calm ‹_›
    · assumption
  have hs16 : Calm s0 s16 := by
    unfold s16
    split
    · exact erWhole_calm ‹_›
    · assumption
  have hs17 : Calm s0 s17 := ite_k (fifoPut_calm ‹_›) ‹_›
  exact ite_k (captureFrame_calm ‹_›) ‹_›

theorem outSet_calm {n v s} (h_s : Calm s0 s) : Calm s0 (outSet n v s) := by
  unfold outSet
  extract_lets +onlyGivenNames -merge -underBinder old1
  refine ite_k ‹_› ?_
  extract_lets +onlyGivenNames -merge -underBinder s2 s3
  have hs2 : Calm s0 s2 := placeEdge_keeps calm_keeps (sub_of rfl) ‹_›
  have hs3 : Calm s0 s3 := ite_k (setF_k calm_keeps 5 part_plOutStatusState (sub_of rfl) ‹_›) (setF_k calm_keeps 5 part_plPpsStatusState (sub_of rfl) ‹_›)
  exact raiseEv_calm ‹_›

theorem outRefresh_calm {n s} (h_s : Calm s0 s) : Calm s0 (outRefresh n s) := by
  unfold outRefresh
  extract_lets +onlyGivenNames -merge -underBinder s1
  have hs1 : Calm s0 s1 := outSquelch_keeps calm_keeps (sub_of rfl) ‹_›
  exact outSet_calm ‹_›

theorem outsRefresh_calm {s} (h_s : Calm s0 s) : Calm s0 (outsRefresh s) := by
  unfold outsRefresh
  exact foldl_k ‹_› (fun _ _ _ => outRefresh_calm ‹_›)

theorem setQc_calm {d st cause s} (h_s : Calm s0 s) : Calm s0 (setQc d st cause s) := by
  unfold setQc
  extract_lets +onlyGivenNames -merge -underBinder old1
  refine ite_k (checkMinute_keeps calm_keeps (sub_of rfl) ‹_›) ?_
  extract_lets +onlyGivenNames -merge -underBinder ho2 s3 s4 s5 s6
  have hs4 : Calm s0 s4 := State.setRd_keeps calm_keeps (sub_of rfl) ‹_›
  have hs5 : Calm s0 s5 := checkMinute_keeps calm_keeps (sub_of rfl) (showBound_keeps calm_keeps (sub_of rfl) ‹_›)
  have hs6 : Calm s0 s6 := raiseEv_calm ‹_›
  extract_lets +onlyGivenNames -merge -underBinder s7
  have hs7 : Calm s0 s7 := evdSend_calm ‹_›
  exact ite_k (tstatFollow_keeps calm_keeps (sub_of rfl) (outsRefresh_calm (calm_signal (by decide) ‹_›))) ‹_›

theorem setNtw_calm {v s} (h_s : Calm s0 s) : Calm s0 (setNtw v s) := by
  unfold setNtw
  extract_lets +onlyGivenNames -merge -underBinder w1 s2
  have hs2 : Calm s0 s2 := ite_k ‹_› (raiseEv_calm ‹_›)
  exact setI64_k calm_keeps 5 part_plNtw_2 (sub_of rfl) ‹_›

theorem takeFreq_calm {d h s} (h_s : Calm s0 s) : Calm s0 (takeFreq d h s) := by
  unfold takeFreq
  exact ite_k (rebaseLoop_keeps calm_keeps (sub_of rfl) (setNtw_calm ‹_›)) (rebaseLoop_keeps calm_keeps (sub_of rfl) (setServoRate_keeps calm_keeps (sub_of rfl) ‹_›))

theorem readLarder_calm {ks s} (h_s : Calm s0 s) : Calm s0 (readLarder ks s) := by
  unfold readLarder
  exact ite_k ‹_› (foldl_k ‹_› (fun _ _ _ => foldl_k ‹_› (fun _ _ _ => mpRead_calm ‹_›)))

theorem readWindow_calm {d s} (h_s : Calm s0 s) : Calm s0 (readWindow d s) := by
  unfold readWindow
  exact readLarder_calm ‹_›

theorem enterHoldover_calm {d cause s} (h_s : Calm s0 s) : Calm s0 (enterHoldover d cause s) := by
  unfold enterHoldover
  refine ite_k ‹_› ?_
  extract_lets +onlyGivenNames -merge -underBinder s1
  have hs1 : Calm s0 s1 := readWindow_calm ‹_›
  split
  · extract_lets +onlyGivenNames -merge -underBinder s2
    extract_lets +onlyGivenNames -merge -underBinder s3
    have hs3 : Calm s0 s3 := State.setRd_keeps calm_keeps (sub_of rfl) ‹_›
    exact setQc_calm (takeFreq_calm ‹_›)
  · exact setQc_calm ‹_›

theorem dropLock_calm {d s} (h_s : Calm s0 s) : Calm s0 (dropLock d s) := by
  unfold dropLock
  extract_lets +onlyGivenNames -merge -underBinder src1 s2
  have hs2 : Calm s0 s2 := State.setRd_keeps calm_keeps (sub_of rfl) (setF_k calm_keeps 5 part_plDStatusCount (sub_of rfl) ‹_›)
  exact ite_k (raiseEv_calm (setB_k calm_keeps 5 part_plDStatusLock (sub_of rfl) ‹_›)) ‹_›

theorem startAcquiring_calm {d s} (h_s : Calm s0 s) : Calm s0 (startAcquiring d s) := by
  unfold startAcquiring
  extract_lets +onlyGivenNames -merge -underBinder q1
  exact ite_k (setQc_calm ‹_›) ‹_›

theorem beginTxn_calm {d i cause s} (h_s : Calm s0 s) : Calm s0 (beginTxn d i cause s) := by
  unfold beginTxn
  extract_lets +onlyGivenNames -merge -underBinder old1 e2 r3 bnd4 s5 s6 s7 s8 s9 s10
  have hs5 : Calm s0 s5 := showSel_keeps calm_keeps (sub_of rfl) ‹_›
  have hs6 : Calm s0 s6 := setB_k calm_keeps 4 part_rsDSelQueued (sub_of rfl) (setB_k calm_keeps 4 part_rsDSelTxn (sub_of rfl) ‹_›)
  have hs7 : Calm s0 s7 := State.setRd_keeps calm_keeps (sub_of rfl) ‹_›
  have hs8 : Calm s0 s8 := dropLock_calm ‹_›
  have hs9 : Calm s0 s9 := setB_k calm_keeps 5 part_plDStatusSlow (sub_of rfl) (setB_k calm_keeps 5 part_plDStatusFacq (sub_of rfl) ‹_›)
  have hs10 : Calm s0 s10 := raiseEv_calm ‹_›
  exact checkMinute_keeps calm_keeps (sub_of rfl) (startAcquiring_calm ‹_›)

theorem cutFrame_calm {p rest s} (h_s : Calm s0 s) : Calm s0 (cutFrame p rest s) := by
  unfold cutFrame
  split
  · exact frameEnd_calm ‹_›
  · assumption

theorem ackDrop_calm {s} (h_s : Calm s0 s) : Calm s0 (ackDrop s) := by
  unfold ackDrop
  split
  · assumption
  · extract_lets +onlyGivenNames -merge -underBinder s1
    have hs1 : Calm s0 s1 := raiseEv_calm ‹_›
    exact ackEnds_keeps calm_keeps (sub_of rfl) ‹_›

theorem twinEvent_calm {old cause s} (h_s : Calm s0 s) : Calm s0 (twinEvent old cause s) := by
  unfold twinEvent
  exact State.signalVector_keeps calm_keeps (sub_of rfl) (raiseEv_calm ‹_›)

end

end Sys2Proof.Machine

/-! SUPPORT. The twin commands of group 0x0E (R572 to R589). -/

namespace Sys2Proof.Machine

/-! ### What a change of the twin state leaves of the twin part -/

/-- The marks of TW_STATUS that follow the twin state: ALIGNED and WTR_RUN. -/
def twinMarks : List Nat := [Reg.twStatusAligned.key, Reg.twStatusWtrRun.key]

/-- `t` differs from `s0` in the twin part in no more than the marks that follow the state, the restore timer and the wait for an offset. -/
structure TwinKept (s0 t : State) : Prop where
  regs : ∀ f : Fld, regPart f.addr = 20 → f.key ∉ twinMarks → t.getF f = s0.getF f
  tw : t.tw = { s0.tw with wtrUntil := t.tw.wtrUntil, offDue := t.tw.offDue }

theorem TwinKept.refl (s : State) : TwinKept s s := ⟨fun _ _ _ => rfl, rfl⟩

theorem TwinKept.isF {s0 t : State} (h : TwinKept s0 t) {f : Fld} (hf : regPart f.addr = 20) (hne : f.key ∉ twinMarks) : t.isF f = s0.isF f :=
  isF_of_getF (h.regs f hf hne)

section

variable {s0 : State}

/-- An operation beside the twin part keeps it. -/
theorem twinKept_keeps : Keeps (TwinKept s0) (2 ^ 64 - 1 - 2 ^ Part.rTw.ctorIdx - 2 ^ Part.tw.ctorIdx) where
  setF := fun s f v hb h => by
    have hother : regPart f.addr ≠ Part.rTw.ctorIdx := fun h0 => absurd hb (by rw [h0]; decide)
    exact ⟨fun g hg hne => (Part.same_setF .rTw s f v hother g hg).trans (h.regs g hg hne), h.tw⟩
  drop := fun s q hb h => by
    have hother : ∀ e, q e = false → regPart (e.1 / 32) ≠ Part.rTw.ctorIdx := fun e he h0 => absurd (hb e he) (by rw [h0]; decide)
    exact ⟨fun g hg hne => (Part.same_drop .rTw s q hother g hg).trans (h.regs g hg hne), h.tw⟩
  dma := fun s a bs hb h => ⟨h.regs, h.tw⟩
  rest := fun s t hr hm hb h => by
    have hw : t.tw = s.tw := hb .tw (by decide) rfl
    exact ⟨fun f hf hne => (getF_of_regs hr f).trans (h.regs f hf hne), by rw [hw]; exact h.tw⟩
  again := fun s hb _ => absurd hb (by decide)

/-- A mark that follows the state may be written. -/
theorem twinKept_mark {s : State} {f : Fld} {b : Bool} (hf : f.key ∈ twinMarks) (h : TwinKept s0 s) : TwinKept s0 (s.setB f b) :=
  ⟨fun g hg hne => (getF_setF_ne s (f := f) (g := g) (b2n b) (fun hk => hne (hk ▸ hf))).trans (h.regs g hg hne), h.tw⟩

/-- The restore timer may change. -/
theorem twinKept_wtr {s : State} {u} (h : TwinKept s0 s) : TwinKept s0 { s with tw := { s.tw with wtrUntil := u } } :=
  ⟨h.regs, congrArg (fun w : Twin => { w with wtrUntil := u }) h.tw⟩

/-- The wait for an offset may change. -/
theorem twinKept_offDue {s : State} {b} (h : TwinKept s0 s) : TwinKept s0 { s with tw := { s.tw with offDue := b } } :=
  ⟨h.regs, congrArg (fun w : Twin => { w with offDue := b }) h.tw⟩

theorem startWtr_kept {s : State} (h : TwinKept s0 s) : TwinKept s0 (startWtr s) := by
  unfold startWtr
  split
  · exact twinKept_wtr (twinKept_mark (by decide) h)
  · exact twinKept_wtr (twinKept_mark (by decide) h)

theorem restartWtr_kept {s : State} (h : TwinKept s0 s) : TwinKept s0 (restartWtr s) := ite_k (startWtr_kept h) h

theorem setAligned_kept {b : Bool} {e : Int} {s : State} (h : TwinKept s0 s) : TwinKept s0 (setAligned b e s) := by
  unfold setAligned
  refine ite_k h ?_
  extract_lets +onlyGivenNames -merge -underBinder s1 raised s2
  have hs1 : TwinKept s0 s1 := raiseEv_keeps twinKept_keeps (sub_of rfl) (twinKept_mark (by decide) h)
  have hs2 : TwinKept s0 s2 := twinKept_offDue hs1
  exact ite_k hs2 (ite_k (enterHoldover_keeps twinKept_keeps (sub_of rfl) (restartWtr_kept hs2)) (restartWtr_kept hs2))

theorem setAligned_calm {b : Bool} {e : Int} {s : State} (h : Calm s0 s) : Calm s0 (setAligned b e s) := by
  unfold setAligned
  refine ite_k h ?_
  extract_lets +onlyGivenNames -merge -underBinder s1 raised s2 s3
  have hs1 : Calm s0 s1 := raiseEv_calm (setB_k calm_keeps 20 part_twStatusAligned (sub_of rfl) h)
  have hs2 : Calm s0 s2 := upd_tw calm_keeps (sub_of rfl) hs1
  have hs3 : Calm s0 s3 := restartWtr_keeps calm_keeps (sub_of rfl) hs2
  exact ite_k hs2 (ite_k (enterHoldover_calm hs3) hs3)

end

/-! ### A twin state entered -/

/-- The state with the twin state `st` and HST_STATUS.ACTIVE shown. -/
def twinShown (st : Nat) (s : State) : State :=
  ({ (s.setF Reg.twStatusState st) with tw := { s.tw with entered := s.dtt, inRun := 0, outRun := 0 } } : State).setB Reg.hstStatusActive
    (st = 0 || st = 4 || st = 5)

theorem twinShown_twinState (st : Nat) (s : State) : (twinShown st s).twinState = st % 8 :=
  (getF_setF_ne _ (f := Reg.hstStatusActive) (g := Reg.twStatusState) _ (by decide)).trans (getF_setF_same s Reg.twStatusState st)

theorem twinShown_getF {st : Nat} {s : State} {f : Fld} (hf : regPart f.addr = 20) (hne : f.key ≠ Reg.twStatusState.key) :
    (twinShown st s).getF f = s.getF f := by
  have hother : f.key ≠ Reg.hstStatusActive.key := fun hk => by
    have haddr : f.addr = Reg.hstStatusActive.addr := by
      simp only [Fld.key] at hk
      omega
    exact absurd (haddr ▸ hf) (by decide)
  exact (getF_setF_ne _ (f := Reg.hstStatusActive) (g := f) _ hother).trans (getF_setF_ne s (f := Reg.twStatusState) (g := f) st hne)

theorem mirrorsLeave_calm {s0 : State} {old st : Nat} {s : State} (h : Calm s0 s) : Calm s0 (mirrorsLeave old st s) := by
  unfold mirrorsLeave
  refine ite_k h (ite_k (upd_tw calm_keeps (sub_of rfl) h) (ite_k ?_ h))
  exact upd_tw calm_keeps (sub_of rfl) (ackDrop_calm h)

/-- Entering a twin state keeps what the dropped mirrored commands leave of the twin part. -/
theorem enterTwin_kept (st : Nat) (s : State) : TwinKept (mirrorsLeave s.twinState st (twinShown st s)) (enterTwin st s) := by
  unfold enterTwin
  refine tstatFollow_keeps twinKept_keeps (sub_of rfl) (startWtr_kept ?_)
  exact ite_k (TwinKept.refl _) (setAligned_kept (TwinKept.refl _))

/-- Entering a twin state changes no register of the host block beside ACTIVE and the event bits. -/
theorem enterTwin_calm (st : Nat) (s : State) : Calm (twinShown st s) (enterTwin st s) := by
  unfold enterTwin
  have hleft : Calm (twinShown st s) (mirrorsLeave s.twinState st (twinShown st s)) := mirrorsLeave_calm (Calm.refl _)
  refine tstatFollow_keeps calm_keeps (sub_of rfl) (startWtr_keeps calm_keeps (sub_of rfl) ?_)
  exact ite_k hleft (setAligned_calm hleft)

theorem mirrorsLeave_getF {old st : Nat} {s : State} {f : Fld} (hf : regPart f.addr = 20) : (mirrorsLeave old st s).getF f = s.getF f :=
  mirrorsLeave_keeps (same_keeps .rTw s) (sub_of rfl) (fun _ _ => rfl) f hf

/-- The twin state after it is entered. -/
theorem enterTwin_twinState (st : Nat) (s : State) : (enterTwin st s).twinState = st % 8 :=
  ((enterTwin_kept st s).regs _ part_twStatusState (by decide)).trans ((mirrorsLeave_getF part_twStatusState).trans (twinShown_twinState st s))

/-- A field of the twin block that is none of the state's marks stays as a state is entered. -/
theorem enterTwin_getF {st : Nat} {s : State} {f : Fld} (hf : regPart f.addr = 20) (hmark : f.key ∉ twinMarks) (hst : f.key ≠ Reg.twStatusState.key) :
    (enterTwin st s).getF f = s.getF f :=
  ((enterTwin_kept st s).regs f hf hmark).trans ((mirrorsLeave_getF hf).trans (twinShown_getF hf hst))

/-- ACTIVE after a twin state is entered (R572). -/
theorem enterTwin_active (st : Nat) (s : State) : (enterTwin st s).isF Reg.hstStatusActive = (st = 0 || st = 4 || st = 5) :=
  ((enterTwin_calm st s).isF part_hstStatusActive (by decide)).trans (isF_setB_same _ Reg.hstStatusActive _ rfl)

/-! ### A twin state passed to -/

theorem setTwin_eq {st cause : Nat} {s : State} (h : s.twinState ≠ st) :
    setTwin st cause s = twinEvent s.twinState cause (outsRefresh (enterTwin st s)) := if_neg h

theorem setTwin_kept {st cause : Nat} {s : State} (h : s.twinState ≠ st) :
    TwinKept (mirrorsLeave s.twinState st (twinShown st s)) (setTwin st cause s) := by
  rw [setTwin_eq h]
  exact twinEvent_keeps twinKept_keeps (sub_of rfl) (outsRefresh_keeps twinKept_keeps (sub_of rfl) (enterTwin_kept st s))

theorem setTwin_getF_same {st cause : Nat} {s : State} (h : s.twinState ≠ st) {f : Fld} (hf : regPart f.addr = 20) :
    (setTwin st cause s).getF f = (enterTwin st s).getF f := by
  rw [setTwin_eq h]
  exact twinEvent_keeps (same_keeps .rTw (enterTwin st s)) (sub_of rfl)
    (outsRefresh_keeps (same_keeps .rTw (enterTwin st s)) (sub_of rfl) (fun _ _ => rfl)) f hf

theorem setTwin_calm {st cause : Nat} {s : State} (h : s.twinState ≠ st) : Calm (enterTwin st s) (setTwin st cause s) := by
  rw [setTwin_eq h]
  exact twinEvent_calm (outsRefresh_calm (Calm.refl _))

theorem setTwin_twinState {st cause : Nat} {s : State} (h : s.twinState ≠ st) : (setTwin st cause s).twinState = st % 8 :=
  (setTwin_getF_same h part_twStatusState).trans (enterTwin_twinState st s)

theorem setTwin_active {st cause : Nat} {s : State} (h : s.twinState ≠ st) :
    (setTwin st cause s).isF Reg.hstStatusActive = (st = 0 || st = 4 || st = 5) :=
  ((setTwin_calm h).isF part_hstStatusActive (by decide)).trans (enterTwin_active st s)

/-! ### TW_ENABLE -/

/-- The settings a TW_ENABLE entry gives, as the twin part holds them (R589). -/
def SettingsTaken (c : Cmd) (s : State) : Prop :=
  s.tw.hbMiss = cu c 2 2 ∧ s.tw.bw = cu c 4 4 ∧ s.tw.delay = cu c 8 8 ∧ s.tw.holdMask = cu c 20 1 + 256 * cu c 21 1 ∧
    s.isF Reg.twStatusRevertive = cbit c 1 1

theorem twSettings_taken (c : Cmd) (s : State) : SettingsTaken c (twSettings c s) :=
  ⟨rfl, rfl, rfl, rfl, isF_setB_same s Reg.twStatusRevertive _ rfl⟩

theorem twSettings_twinState (c : Cmd) (s : State) : (twSettings c s).twinState = s.twinState :=
  getF_setF_ne s (f := Reg.twStatusRevertive) (g := Reg.twStatusState) _ (by decide)

/-- The twin lanes as ON starts them. -/
def twLanes (c : Cmd) (s : State) : State :=
  [48, 49, 50, 51].foldl (fun s n =>
    let s := (laneMode n 5 0 s).setB (Reg.sdsStatusTxOn n) true
    s.setLane n { s.lane n with txStart := some s.dtt }) (twSettings c s)

/-- The partner unknown and no command mirrored. -/
def twForgotten (s : State) : State :=
  { s with tw := { s.tw with hb := none, faultFrom := none, bh := none, mirrors := [], forwarded := [] } }

theorem twForgotten_getF (s : State) (f : Fld) : (twForgotten s).getF f = s.getF f := rfl

/-- The state in which ON looks for its partner: the lanes started, the partner unknown, no command mirrored. -/
def twLooking (c : Cmd) (s : State) : State := twForgotten (twLanes c s)

theorem twOn_eq (c : Cmd) (s : State) : twOn c s = setTwin 1 1 (twLooking c s) := rfl

theorem twLanes_kept (c : Cmd) (s : State) : TwinKept (twSettings c s) (twLanes c s) := by
  refine foldl_k (TwinKept.refl _) (fun t n ht => ?_)
  dsimp only
  exact State.setLane_keeps twinKept_keeps (sub_of rfl)
    (setB_k twinKept_keeps 10 part_sdsStatusTxOn (sub_of rfl) (laneMode_keeps twinKept_keeps (sub_of rfl) ht))

/-- Settings taken stay where the twin part is kept. -/
theorem SettingsTaken.kept {c : Cmd} {s t : State} (h : SettingsTaken c s) (hk : TwinKept s t) : SettingsTaken c t := by
  obtain ⟨hmiss, hbw, hdelay, hmask, hrev⟩ := h
  refine ⟨?_, ?_, ?_, ?_, (hk.isF rfl (by decide)).trans hrev⟩
  · exact (congrArg Twin.hbMiss hk.tw).trans hmiss
  · exact (congrArg Twin.bw hk.tw).trans hbw
  · exact (congrArg Twin.delay hk.tw).trans hdelay
  · exact (congrArg Twin.holdMask hk.tw).trans hmask

theorem twLooking_twinState (c : Cmd) (s : State) : (twLooking c s).twinState = s.twinState :=
  (twForgotten_getF _ _).trans (((twLanes_kept c s).regs _ part_twStatusState (by decide)).trans (twSettings_twinState c s))

/-- The settings stay as the partner is forgotten. -/
theorem SettingsTaken.forgotten {c : Cmd} {s : State} (h : SettingsTaken c s) : SettingsTaken c (twForgotten s) := h

/-- The settings stay as a state is shown. -/
theorem SettingsTaken.shown {c : Cmd} {s : State} (st : Nat) (h : SettingsTaken c s) : SettingsTaken c (twinShown st s) := by
  obtain ⟨hmiss, hbw, hdelay, hmask, hrev⟩ := h
  exact ⟨hmiss, hbw, hdelay, hmask, (isF_of_getF (twinShown_getF rfl (by decide))).trans hrev⟩

theorem mirrorsLeave_off (s : State) (st : Nat) : mirrorsLeave 0 st s = s := by
  unfold mirrorsLeave
  split
  · rfl
  · rfl

/-- What ON from OFF leaves: LINKING with the entry's settings, the partner unknown and no command mirrored. -/
theorem twOn_leaves (c : Cmd) (s : State) (h : s.twinState = 0) :
    (twOn c s).twinState = 1 ∧ (twOn c s).isF Reg.hstStatusActive = false ∧ (twOn c s).tw.hb = none ∧ (twOn c s).tw.mirrors = [] ∧
    (twOn c s).tw.forwarded = [] ∧ SettingsTaken c (twOn c s) := by
  have hoff : (twLooking c s).twinState = 0 := (twLooking_twinState c s).trans h
  have hne : (twLooking c s).twinState ≠ 1 := by rw [hoff]; decide
  have hkept : TwinKept (twinShown 1 (twLooking c s)) (twOn c s) := by
    have hsame := setTwin_kept (cause := 1) hne
    rw [hoff, mirrorsLeave_off] at hsame
    exact hsame
  have hlooking : SettingsTaken c (twLooking c s) := ((twSettings_taken c s).kept (twLanes_kept c s)).forgotten
  rw [twOn_eq] at hkept ⊢
  exact ⟨setTwin_twinState hne, setTwin_active hne, congrArg Twin.hb hkept.tw, congrArg Twin.mirrors hkept.tw, congrArg Twin.forwarded hkept.tw,
    (hlooking.shown 1).kept hkept⟩

/-! ### Twin operation ended -/

/-- The twin lanes stopped and a frame in reception cut, as OFF leaves them. -/
def twLanesOff (s : State) : State :=
  [48, 49, 50, 51].foldl (fun s n =>
    let s := ((laneMode n 0 0 s).setB (Reg.sdsStatusTxOn n) false).setB (Reg.sdsStatusRxLock n) false
    s.setLane n { s.lane n with txStart := none }) (cutFrame 50 [] s)

/-- The state OFF passed to, with the served loop off the twin phase. -/
def twPassedOff (s : State) : State :=
  if s.twinState = 2 ∨ s.twinState = 3 then leaveTwinPhase (setTwin 0 1 s) else setTwin 0 1 s

/-- The link's marks of TW_STATUS taken away. -/
def twUnlinked (s : State) : State := ((s.setB Reg.twStatusLinkUp false).setB Reg.twStatusTwclkOk false).setB Reg.twStatusLinkFault false

/-- The link's marks of TW_STATUS taken away, the twin island asleep and the partner unknown. -/
def twAsleep (s : State) : State :=
  { twUnlinked s with islands := (twUnlinked s).islands.filter (fun k => k ≠ 61), tw := { (twUnlinked s).tw with hb := none, faultFrom := none } }

theorem twOff_eq (s : State) : twOff s = twAsleep (twLanesOff (twPassedOff s)) := by
  unfold twOff
  extract_lets was passed left lanes unlinked
  have hlanes : lanes = twLanesOff (twPassedOff s) := rfl
  clear_value lanes
  subst hlanes
  rfl

theorem twLanesOff_kept (s : State) : TwinKept s (twLanesOff s) := by
  refine foldl_k (cutFrame_keeps twinKept_keeps (sub_of rfl) (TwinKept.refl _)) (fun t n ht => ?_)
  dsimp only
  exact State.setLane_keeps twinKept_keeps (sub_of rfl) (setB_k twinKept_keeps 10 part_sdsStatusRxLock (sub_of rfl)
    (setB_k twinKept_keeps 10 part_sdsStatusTxOn (sub_of rfl) (laneMode_keeps twinKept_keeps (sub_of rfl) ht)))

theorem twLanesOff_calm (s : State) : Calm s (twLanesOff s) := by
  refine foldl_k (cutFrame_calm (Calm.refl _)) (fun t n ht => ?_)
  dsimp only
  exact State.setLane_keeps calm_keeps (sub_of rfl) (setB_k calm_keeps 10 part_sdsStatusRxLock (sub_of rfl)
    (setB_k calm_keeps 10 part_sdsStatusTxOn (sub_of rfl) (laneMode_keeps calm_keeps (sub_of rfl) ht)))

theorem leaveTwinPhase_calm {s0 s : State} (h : Calm s0 s) : Calm s0 (leaveTwinPhase s) := by
  unfold leaveTwinPhase
  dsimp only
  split
  · exact beginTxn_calm h
  · exact enterHoldover_calm h

theorem twPassedOff_kept (s : State) : TwinKept (setTwin 0 1 s) (twPassedOff s) :=
  ite_k (leaveTwinPhase_keeps twinKept_keeps (sub_of rfl) (TwinKept.refl _)) (TwinKept.refl _)

theorem twPassedOff_calm (s : State) : Calm (setTwin 0 1 s) (twPassedOff s) := ite_k (leaveTwinPhase_calm (Calm.refl _)) (Calm.refl _)

theorem twUnlinked_active (s : State) : (twUnlinked s).isF Reg.hstStatusActive = s.isF Reg.hstStatusActive :=
  (isF_setF_ne _ _ (by decide)).trans ((isF_setF_ne _ _ (by decide)).trans (isF_setF_ne _ _ (by decide)))

theorem twUnlinked_twinState (s : State) : (twUnlinked s).twinState = s.twinState :=
  read_setB (by decide) (read_setB (by decide) (getF_setF_ne s (f := Reg.twStatusLinkUp) (g := Reg.twStatusState) _ (by decide)))

theorem twUnlinked_linkUp (s : State) : (twUnlinked s).isF Reg.twStatusLinkUp = false :=
  (isF_setF_ne _ _ (by decide)).trans ((isF_setF_ne _ _ (by decide)).trans (isF_setB_same s Reg.twStatusLinkUp false rfl))

/-- What the end of twin operation shows. -/
theorem twAsleep_reads (s : State) : (twAsleep s).twinState = s.twinState ∧ (twAsleep s).isF Reg.hstStatusActive = s.isF Reg.hstStatusActive ∧
    (twAsleep s).isF Reg.twStatusLinkUp = false ∧ (twAsleep s).awake 61 = false ∧ (twAsleep s).tw.hb = none ∧ (twAsleep s).tw.mirrors = s.tw.mirrors :=
  ⟨twUnlinked_twinState s, twUnlinked_active s, twUnlinked_linkUp s, by simp [State.awake, twAsleep], rfl, rfl⟩

/-- A device that leaves STANDBY keeps of the mirrored commands those it has started (R583). -/
theorem mirrorsLeave_standby {st : Nat} (hst : 3 ≠ st) (s : State) :
    (mirrorsLeave 3 st (twinShown st s)).tw.mirrors = s.tw.mirrors.filter (fun m => mirrorRuns m s) := by
  unfold mirrorsLeave
  rw [if_neg hst, if_pos rfl]
  rfl

/-- What OFF leaves: the state, the link and its island down, and of the mirrored commands those begun (R572, R583). -/
theorem twOff_leaves (s : State) (h : s.twinState ≠ 0) :
    (twOff s).twinState = 0 ∧ (twOff s).isF Reg.hstStatusActive = true ∧ (twOff s).isF Reg.twStatusLinkUp = false ∧ (twOff s).awake 61 = false ∧
    (twOff s).tw.hb = none ∧ (s.twinState = 3 → (twOff s).tw.mirrors = s.tw.mirrors.filter (fun m => mirrorRuns m s)) := by
  have hstate : (twLanesOff (twPassedOff s)).twinState = 0 :=
    ((twLanesOff_kept _).regs _ part_twStatusState (by decide)).trans
      (((twPassedOff_kept s).regs _ part_twStatusState (by decide)).trans (setTwin_twinState h))
  have hactive : (twLanesOff (twPassedOff s)).isF Reg.hstStatusActive = true :=
    ((twLanesOff_calm _).isF part_hstStatusActive (by decide)).trans
      (((twPassedOff_calm s).isF part_hstStatusActive (by decide)).trans (setTwin_active h))
  have hmirrors : s.twinState = 3 → (twLanesOff (twPassedOff s)).tw.mirrors = s.tw.mirrors.filter (fun m => mirrorRuns m s) := fun hstandby => by
    have hlanes := congrArg Twin.mirrors (twLanesOff_kept (twPassedOff s)).tw
    have hpassed := congrArg Twin.mirrors (twPassedOff_kept s).tw
    have hleft := congrArg Twin.mirrors (setTwin_kept (cause := 1) h).tw
    rw [hstandby] at hleft
    exact hlanes.trans (hpassed.trans (hleft.trans (mirrorsLeave_standby (by decide) s)))
  obtain ⟨rstate, ractive, rlink, rawake, rhb, rmirrors⟩ := twAsleep_reads (twLanesOff (twPassedOff s))
  rw [twOff_eq]
  exact ⟨rstate.trans hstate, ractive.trans hactive, rlink, rawake, rhb, fun hstandby => rmirrors.trans (hmirrors hstandby)⟩

/-! ### TW_ENABLE, run -/

/-- COMMIT takes the settings and waits for a TIME frame (R587). -/
theorem twEnableEffect_commit {c : Cmd} {s : State} (h : cbit c 1 0 = true) : twEnableEffect c s = (twSettings c s, none) := if_pos h

theorem twEnableEffect_same {c : Cmd} {s : State} (h : cbit c 1 0 = false)
    (hsame : (cu c 0 1 = 1 ∧ s.twinState ≠ 0) ∨ (cu c 0 1 = 0 ∧ s.twinState = 0)) : twEnableEffect c s = (s, some okReply) := by
  unfold twEnableEffect
  obtain ⟨hon, hst⟩ | ⟨hon, hst⟩ := hsame
  · simp only [h, hon, hst, ne_eq, not_false_eq_true, if_true, reduceIte, Bool.false_eq_true]
  · simp [h, hon, hst]

/-- ON from OFF: denied by the port enable bound, waiting for the island, or run. -/
theorem twEnableEffect_on {c : Cmd} {s : State} (h : cbit c 1 0 = false) (hon : cu c 0 1 = 1) (hoff : s.twinState = 0) :
    twEnableEffect c s = if portEnabled 48 s = false then (portDenied 48 s, some (failWith stLocked 0))
      else if s.awake 61 = false then (s, none) else (twOn c s, some okReply) := by
  unfold twEnableEffect
  rw [if_neg (by simp [h]), if_pos hon, if_neg (by simp [hoff])]

theorem twEnableEffect_off {c : Cmd} {s : State} (h : cbit c 1 0 = false) (hon : cu c 0 1 = 0) (hst : s.twinState ≠ 0) :
    twEnableEffect c s = (twOff s, some okReply) := by
  unfold twEnableEffect
  rw [if_neg (by simp [h]), if_neg (by simp [hon]), if_neg hst]

theorem twinState_taken (c : Cmd) (s : State) : (taken c s).twinState = s.twinState := taken_getF c s part_twStatusState (by decide)

/-- A TW_ENABLE whose effect is known to answer at once. -/
theorem twEnable_ends {c : Cmd} {s : State} {u : State} {r : Reply} (h : Starts twEnableSpec c s) (heff : twEnableEffect c (taken c s) = (u, some r)) :
    exec (.twEnable c) s = .next (ended twEnableSpec c s u r) := by
  have hstate : (twEnableEffect c (taken c s)).1 = u := by rw [heff]
  rw [← hstate]
  exact runHeld_ends h (by rw [heff])

/-- A TW_ENABLE whose effect is known to wait. -/
theorem twEnable_waits {c : Cmd} {s : State} {u : State} (h : Starts twEnableSpec c s) (heff : twEnableEffect c (taken c s) = (u, none)) :
    exec (.twEnable c) s = .next (heldBack twEnableSpec c s u) := by
  have hstate : (twEnableEffect c (taken c s)).1 = u := by rw [heff]
  rw [← hstate]
  exact runHeld_waits h (by rw [heff])

/-! ### Takeover and takeback -/

/-- The claim a takeover raises above both devices' (R579). -/
def claimAbove (s : State) : Nat := max (s.getF Reg.twClaim) ((s.tw.hb.map (·.claim)).getD 0) + 1

/-- The claim sent, before the state of the device changes. -/
def twClaimed (kind : Nat) (s : State) : State :=
  twSend 6 [((s.setF Reg.twClaim (claimAbove s)).getF Reg.twClaim : Int), kind] [] (s.setF Reg.twClaim (claimAbove s))

/-- A takeover: the claim, the state, the outer loop, the outputs, the evidence module and TW_STATE. -/
theorem takeOver_eq (st cause kind : Nat) (s : State) : ∃ serial epoch block bh, takeOver st cause kind s =
    twinEvent s.twinState cause (evdTakeover (kind = 2) serial epoch block bh (outsRefresh (leaveTwinPhase (enterTwin st (twClaimed kind s))))) := by
  unfold takeOver
  extract_lets old far claimed sent serial b entered
  exact ⟨serial, b.1, b.2.1, b.2.2, rfl⟩

theorem takeOver_getF {st cause kind : Nat} {s : State} {f : Fld} (hf : regPart f.addr = 20) :
    (takeOver st cause kind s).getF f = (enterTwin st (twClaimed kind s)).getF f := by
  obtain ⟨serial, epoch, block, bh, heq⟩ := takeOver_eq st cause kind s
  rw [heq]
  have K := same_keeps .rTw (enterTwin st (twClaimed kind s))
  exact twinEvent_keeps K (sub_of rfl) (evdTakeover_keeps K (sub_of rfl) (outsRefresh_keeps K (sub_of rfl)
    (leaveTwinPhase_keeps K (sub_of rfl) (fun _ _ => rfl)))) f hf

theorem takeOver_calm (st cause kind : Nat) (s : State) : Calm (enterTwin st (twClaimed kind s)) (takeOver st cause kind s) := by
  obtain ⟨serial, epoch, block, bh, heq⟩ := takeOver_eq st cause kind s
  rw [heq]
  exact twinEvent_calm (evdTakeover_calm (outsRefresh_calm (leaveTwinPhase_calm (Calm.refl _))))

/-- What a takeover leaves: the state, ACTIVE, and the claim above both devices' (R579, R582). -/
theorem takeOver_leaves (st cause kind : Nat) (s : State) :
    (takeOver st cause kind s).twinState = st % 8 ∧ (takeOver st cause kind s).isF Reg.hstStatusActive = (st = 0 || st = 4 || st = 5) ∧
    (takeOver st cause kind s).getF Reg.twClaim = claimAbove s % 2 ^ 32 := by
  refine ⟨(takeOver_getF part_twStatusState).trans (enterTwin_twinState st _),
    ((takeOver_calm st cause kind s).isF part_hstStatusActive (by decide)).trans (enterTwin_active st _), ?_⟩
  refine (takeOver_getF part_twClaim).trans ((enterTwin_getF part_twClaim (by decide) (by decide)).trans ?_)
  refine (twSend_keeps (same_keeps .rTw (s.setF Reg.twClaim (claimAbove s))) (sub_of rfl) (fun _ _ => rfl) _ part_twClaim).trans ?_
  exact getF_setF_same s Reg.twClaim (claimAbove s)

theorem claimAbove_taken (c : Cmd) (s : State) : claimAbove (taken c s) = max (s.getF Reg.twClaim) ((s.tw.hb.map (·.claim)).getD 0) + 1 := by
  unfold claimAbove
  rw [taken_getF c s part_twClaim (by decide), taken_tw]

theorem partnerAlive_taken (c : Cmd) (s : State) : partnerAlive (taken c s) = partnerAlive s := by
  unfold partnerAlive
  rw [taken_tw, taken_dtt]

theorem twTakeoverEffect_standby {c : Cmd} {s : State} (h : s.twinState = 3) :
    (twTakeoverEffect c (taken c s)).1 = takeOver (if partnerAlive s then 4 else 5) 1 1 (taken c s) := by
  unfold twTakeoverEffect
  rw [if_pos ((twinState_taken c s).trans h), partnerAlive_taken]

theorem twTakeoverEffect_other {c : Cmd} {s : State} (h : s.twinState ≠ 3) : (twTakeoverEffect c (taken c s)).1 = taken c s := by
  unfold twTakeoverEffect
  exact if_neg (fun h3 => h ((twinState_taken c s).symm.trans h3))

/-! ### TW_SET_WTR -/

theorem countsPref_taken (c : Cmd) (s : State) : countsPref (taken c s) = countsPref s := by
  unfold countsPref
  rw [taken_tw, taken_isF c s part_twStatusStrapConflict (by decide), taken_isF c s (f := Reg.twStatusPref) (b := 20) rfl (by decide)]

/-- The restore time set, before a timer that runs restarts. -/
def wtrSet (n : Nat) (s : State) : State := { s with tw := { s.tw with wtrS := n } }

/-- What a restart of a timer that does not run leaves: everything. -/
theorem restartWtr_idle {s : State} (h : s.tw.wtrUntil = none) : restartWtr s = s := by
  unfold restartWtr
  rw [h]
  rfl

/-- A timer that runs restarts where the device waits to be restored, and otherwise stops (R585). -/
theorem restartWtr_runs {s : State} (h : s.tw.wtrUntil.isSome = true) : restartWtr s = startWtr s := if_pos h

theorem startWtr_waits {s : State} (h : s.twinState = 3 ∧ s.isF Reg.twStatusRevertive = true ∧ countsPref s = true) :
    (startWtr s).tw.wtrUntil = some (s.dtt + s.tw.wtrS * 781250000) := by
  unfold startWtr
  rw [if_pos h]

theorem startWtr_stops {s : State} (h : ¬ (s.twinState = 3 ∧ s.isF Reg.twStatusRevertive = true ∧ countsPref s = true)) :
    (startWtr s).tw.wtrUntil = none := by
  unfold startWtr
  rw [if_neg h]

/-- A restart writes the time beside the timer and no register but WTR_RUN. -/
theorem restartWtr_leaves (s : State) : (restartWtr s).tw.wtrS = s.tw.wtrS ∧ FieldsOf [Reg.twStatusWtrRun] s (restartWtr s) := by
  unfold restartWtr startWtr
  split
  · split
    · exact ⟨rfl, ((FieldsOf.refl _ s).setF (f := Reg.twStatusWtrRun) (by decide) (b2n true)).regs rfl⟩
    · exact ⟨rfl, ((FieldsOf.refl _ s).setF (f := Reg.twStatusWtrRun) (by decide) (b2n false)).regs rfl⟩
  · exact ⟨rfl, FieldsOf.refl _ s⟩

/-- What TW_SET_WTR leaves of the timer (R585). -/
theorem twSetWtrEffect_leaves (c : Cmd) (s : State) :
    (restartWtr (wtrSet (cu c 0 2) (taken c s))).tw.wtrS = cu c 0 2 ∧
    (s.tw.wtrUntil = none → restartWtr (wtrSet (cu c 0 2) (taken c s)) = wtrSet (cu c 0 2) (taken c s)) ∧
    (s.tw.wtrUntil.isSome = true → s.twinState = 3 → s.isF Reg.twStatusRevertive = true → countsPref s = true →
      (restartWtr (wtrSet (cu c 0 2) (taken c s))).tw.wtrUntil = some (s.dtt + cu c 0 2 * 781250000)) ∧
    (s.tw.wtrUntil.isSome = true → s.twinState ≠ 3 ∨ s.isF Reg.twStatusRevertive = false ∨ countsPref s = false →
      (restartWtr (wtrSet (cu c 0 2) (taken c s))).tw.wtrUntil = none) ∧
    FieldsOf [Reg.twStatusWtrRun] (taken c s) (restartWtr (wtrSet (cu c 0 2) (taken c s))) := by
  have huntil : (wtrSet (cu c 0 2) (taken c s)).tw.wtrUntil = s.tw.wtrUntil := by
    rw [← taken_tw c s]
    rfl
  have hstate : (wtrSet (cu c 0 2) (taken c s)).twinState = s.twinState := twinState_taken c s
  have hrev : (wtrSet (cu c 0 2) (taken c s)).isF Reg.twStatusRevertive = s.isF Reg.twStatusRevertive :=
    taken_isF c s part_twStatusRevertive (by decide)
  have hpref : countsPref (wtrSet (cu c 0 2) (taken c s)) = countsPref s := countsPref_taken c s
  have hdtt : (wtrSet (cu c 0 2) (taken c s)).dtt = s.dtt := taken_dtt c s
  obtain ⟨htime, hfields⟩ := restartWtr_leaves (wtrSet (cu c 0 2) (taken c s))
  refine ⟨htime, fun hidle => restartWtr_idle (huntil.trans hidle), fun hruns hst hr hp => ?_, fun hruns hor => ?_, fun f hf => hfields f hf⟩
  · rw [restartWtr_runs (by rw [huntil]; exact hruns), startWtr_waits ⟨hstate.trans hst, hrev.trans hr, hpref.trans hp⟩, hdtt]
    rfl
  · rw [restartWtr_runs (by rw [huntil]; exact hruns)]
    refine startWtr_stops ?_
    rw [hstate, hrev, hpref]
    rintro ⟨hst, hr, hp⟩
    simp [hst, hr, hp] at hor

/-! ### The commands of the group -/

/-- TW_STATUS reports what the state shows before its entry is taken. -/
theorem twStatusEffect_taken (c : Cmd) (s : State) : twStatusEffect c (taken c s) = (taken c s, (twStatusEffect c s).2) := by
  unfold twStatusEffect
  have hword : (taken c s).regWord 0xB00000 = s.regWord 0xB00000 := (taken_frame c s).regWord (b := 20) rfl (by decide)
  have hpair : ∀ a, regPart a = 20 → regPart (a + 4) = 20 → (taken c s).get64 a = s.get64 a := fun a h h4 => by
    unfold State.get64
    rw [taken_getF c s (f := word a) h (by decide), taken_getF c s (f := word (a + 4)) h4 (by decide)]
  rw [hword, hpair Reg.twAlign rfl rfl, hpair Reg.twDttOff rfl rfl, taken_getF c s part_twMirrorSeq (by decide),
    taken_getF c s part_twClaim (by decide), taken_tw, taken_dtt]

/-- Settles O51: TW_ENABLE by the cases of its effect, the takeovers by what they leave of the state and its claim. -/
theorem twinCommandsComplete : Obligations.TwinCommandsComplete := by
  unfold Obligations.TwinCommandsComplete
  refine ⟨fun c s h hcommit => ?_, fun c s h hc hon hoff hen hsleep => ?_, fun c s h hc hon hoff hen hawake => ?_, fun c s h hc hon hoff hden => ?_,
    fun c s h hc hsame => ?_, fun c s h hc hon hst => ?_, fun c s h hst => ?_, fun c s h hst => ?_, fun c s h => ?_, fun c s h => ?_, fun c s h => ?_⟩
  · exact ⟨_, twEnable_waits h (twEnableEffect_commit hcommit), twSettings_keeps (frame_keeps _ _) (sub_of rfl) (FrameOf.refl _ _), rfl,
      twSettings_taken c _⟩
  · have heff := twEnableEffect_on (s := taken c s) hc hon ((twinState_taken c s).trans hoff)
    rw [if_neg (by simp [portEnabled_taken, hen]), if_pos (by rw [taken_awake]; exact hsleep)] at heff
    exact ⟨_, twEnable_waits h heff, FrameOf.refl _ _, rfl⟩
  · have heff := twEnableEffect_on (s := taken c s) hc hon ((twinState_taken c s).trans hoff)
    rw [if_neg (by simp [portEnabled_taken, hen]), if_neg (by simp [hawake])] at heff
    obtain ⟨hstate, hactive, hhb, hmirrors, hforwarded, hsettings⟩ := twOn_leaves c (taken c s) ((twinState_taken c s).trans hoff)
    exact ⟨_, _, twEnable_ends h heff, twOn_keeps (frame_keeps _ _) (sub_of rfl) (FrameOf.refl _ _), rfl, hstate, hactive, hhb, hmirrors,
      hforwarded, hsettings⟩
  · have heff := twEnableEffect_on (s := taken c s) hc hon ((twinState_taken c s).trans hoff)
    rw [if_pos (by rw [portEnabled_taken]; exact hden)] at heff
    exact ⟨_, _, twEnable_ends h heff, portDenied_keeps (frame_keeps _ _) (sub_of rfl) (FrameOf.refl _ _), rfl, rfl⟩
  · exact ⟨_, _, twEnable_ends h (twEnableEffect_same hc (by rw [twinState_taken]; exact hsame)), FrameOf.refl _ _, rfl, rfl⟩
  · have hst' : (taken c s).twinState ≠ 0 := by rw [twinState_taken]; exact hst
    obtain ⟨hstate, hactive, hlink, hawake, hhb, hmirrors⟩ := twOff_leaves (taken c s) hst'
    exact ⟨_, _, twEnable_ends h (twEnableEffect_off hc hon hst'), twOff_keeps (frame_keeps _ _) (sub_of rfl) (FrameOf.refl _ _), rfl, hstate,
      hactive, hlink, hawake, hhb, fun h3 => hmirrors ((twinState_taken c s).trans h3)⟩
  · refine ⟨_, runCmd_starts h, twTakeoverEffect_keeps (frame_keeps _ _) (sub_of rfl) (FrameOf.refl _ _), ?_⟩
    rw [twTakeoverEffect_standby hst]
    obtain ⟨hstate, hactive, hclaim⟩ := takeOver_leaves (if partnerAlive s then 4 else 5) 1 1 (taken c s)
    rw [claimAbove_taken] at hclaim
    refine ⟨hstate.trans ?_, hactive.trans ?_, hclaim⟩
    · cases partnerAlive s <;> rfl
    · cases partnerAlive s <;> rfl
  · exact ⟨_, runCmd_starts h, twTakeoverEffect_keeps (frame_keeps _ _) (sub_of rfl) (FrameOf.refl _ _), twTakeoverEffect_other hst⟩
  · obtain ⟨hstate, hactive, hclaim⟩ := takeOver_leaves 4 6 2 (taken c s)
    rw [claimAbove_taken] at hclaim
    exact ⟨_, runCmd_starts h, takeOver_keeps (frame_keeps _ _) (sub_of rfl) (FrameOf.refl _ _), hstate, hactive, hclaim⟩
  · have hrun := runCmd_starts (f := twStatusEffect) h
    rw [twStatusEffect_taken] at hrun
    exact ⟨_, _, hrun, FrameOf.refl _ _, rfl, rfl⟩
  · exact ⟨_, runCmd_starts h, twSetWtrEffect_keeps (frame_keeps _ _) (sub_of rfl) (FrameOf.refl _ _), twSetWtrEffect_leaves c s⟩

end Sys2Proof.Machine

/-! SUPPORT. The quality state that a steer held too long gives the served domain (R40), and a state of the model in which it is given where the
obligation keeps the state as it is. -/

namespace Sys2Proof.Machine

/-! ### The quality state a change gives -/

/-- A class of uncertainty lies within its five bits. -/
theorem classOf_lt (e : Option Nat) : classOf e < 32 := by
  unfold classOf
  split
  · decide
  case h_2 v =>
    cases hfind : (List.range 31).find? (fun k => decide (v * 10 ≤ 65536 * 2 ^ k)) with
    | none => decide
    | some k =>
      have hk := List.mem_range.1 (List.mem_of_find?_eq_some hfind)
      rw [Option.getD_some]
      omega

/-- Showing the bound of a state shows the state. -/
theorem showBound_qcState (d : Nat) {st : Nat} (hst : st < 8) (s : State) : (showBound d st s).qcState d = st := by
  have hclass := classOf_lt (estimate d st s)
  have hqc : (showBound d st s).qc d = st * 32 + classOf (estimate d st s) := by
    unfold showBound
    extract_lets +onlyGivenNames -merge -underBinder e dom s1 s2 q s3 s4
    have hs3 : s3.getF (Reg.tbDStatusQc d) = q % 2 ^ 8 := getF_setF_same s2 (Reg.tbDStatusQc d) q
    have hs4 : s4.getF (Reg.tbDStatusQc d) = q % 2 ^ 8 := (Part.same_setF .rTb s3 _ q (by rw [part_rsDSelQc]; decide) _ part_tbDStatusQc).trans hs3
    clear_value s4
    have hnoted : (noteQuality s4).getF (Reg.tbDStatusQc d) = s4.getF (Reg.tbDStatusQc d) := rfl
    have hq : q % 2 ^ 8 = q := Nat.mod_eq_of_lt (show st * 32 + classOf (estimate d st s) < 2 ^ 8 by omega)
    rw [State.qc]
    split
    · exact hnoted.trans (hs4.trans hq)
    · exact hs4.trans hq
  unfold State.qcState
  omega

/-- A change of a domain's state for a cause above 3 leaves it in that state. -/
theorem setQc_qcState (d : Nat) {st cause : Nat} (hst : st < 8) (hcause : 3 < cause) (s : State) : (setQc d st cause s).qcState d = st := by
  have hkept : ∀ {t u : State}, Part.same .rTb t u → u.qcState d = t.qcState d := fun h => by
    unfold State.qcState State.qc
    rw [h _ part_tbDStatusQc]
  unfold setQc
  extract_lets +onlyGivenNames -merge -underBinder old
  split
  case isTrue h =>
    have hold : old / 32 = st := by simpa [Nat.not_le.2 hcause] using h
    exact (hkept (checkMinute_keeps (same_keeps .rTb s) (sub_of rfl) (Part.same_refl .rTb s))).trans hold
  case isFalse =>
    extract_lets +onlyGivenNames -merge -underBinder ho dom s1 s2 s3 s4
    have K := same_keeps .rTb (showBound d st s1)
    have hs4 : Part.same .rTb (showBound d st s1) s4 :=
      evdSend_keeps K (sub_of rfl) (raiseEv_keeps K (sub_of rfl) (checkMinute_keeps K (sub_of rfl) (Part.same_refl .rTb _)))
    clear_value s4
    refine (hkept (t := showBound d st s1) ?_).trans (showBound_qcState d hst s1)
    refine ite_k ?_ hs4
    exact tstatFollow_keeps K (sub_of rfl) (outsRefresh_keeps K (sub_of rfl) (raiseBit_k K 0 part_hstIrqStatusQcChg (sub_of rfl) hs4))

/-- A steer held too long leaves the domain in HOLDOVER or FREERUN, whatever its state was. -/
theorem enterHoldover_qcState (d : Nat) (s : State) : (enterHoldover d 5 s).qcState d = 4 ∨ (enterHoldover d 5 s).qcState d = 0 := by
  unfold enterHoldover
  rw [if_neg (by simp)]
  extract_lets window
  split
  · exact .inl (setQc_qcState d (by decide) (by decide) _)
  · exact .inr (setQc_qcState d (by decide) (by decide) _)

/-- HELD_STEER_EXPIRY acts on a steer held for more than 20 ms in every quality state but 0, 4, 5 and 7. -/
theorem heldSteerExpiry_acts {s : State} {x : Nat} (hheld : s.dpll.holdStart = some x)
    (hacts : ¬ (s.dtt ≤ x + 15625000 ∨ s.qcState s.served = 4 ∨ s.qcState s.served = 5 ∨ s.qcState s.served = 7 ∨ s.qcState s.served = 0)) :
    exec .heldSteerExpiry s = .next (enterHoldover s.served 5 s) := by
  have hrun : execHeldSteerExpiry s = .next (enterHoldover s.served 5 s) := by
    unfold execHeldSteerExpiry
    rw [hheld]
    exact if_neg hacts
  exact hrun

/-! ### A quality state there is none of -/

/-- A steer held since tick 0, one tick past 20 ms, with 256 in the QC field of domain A: the quality state reads 8, which is none of the eight there are.
No write gives the 8 bits of the field that value, but nothing in the statement keeps such a state out. -/
def heldBeyondStates : State :=
  { State.reset with dtt := 15625001, dpll := { State.reset.dpll with holdStart := some 0 }, regs := [((Reg.tbDStatusQc 0).key, 256)] }

theorem heldBeyondStates_served : heldBeyondStates.served = 0 := by decide +kernel

theorem heldBeyondStates_qcState : heldBeyondStates.qcState 0 = 8 := by decide +kernel

/-- HELD_STEER_EXPIRY acts in that state. -/
theorem heldBeyondStates_expires : exec .heldSteerExpiry heldBeyondStates = .next (enterHoldover 0 5 heldBeyondStates) := by
  have hrun := heldSteerExpiry_acts (s := heldBeyondStates) (x := 0) rfl (by
    rw [heldBeyondStates_served, heldBeyondStates_qcState]
    decide)
  rw [heldBeyondStates_served] at hrun
  exact hrun

/-- Refutes O57: where the QC field of the served domain holds 256, the quality state is none of 1, 2, 3 and 6, so HELD_STEER_EXPIRY is to leave the state as
it is; but the event looks for 0, 4, 5 and 7 and takes the domain to HOLDOVER or FREERUN. -/
theorem not_handoversTrialsAndRestartsRun : ¬ Obligations.HandoversTrialsAndRestartsRun := by
  unfold Obligations.HandoversTrialsAndRestartsRun
  rintro ⟨-, -, -, -, -, -, -, -, -, -, -, -, -, -, -, hstays, -⟩
  have hnone := hstays heldBeyondStates (.inr (by rw [heldBeyondStates_served, heldBeyondStates_qcState]; decide))
  rw [heldBeyondStates_expires] at hnone
  have hsame : enterHoldover 0 5 heldBeyondStates = heldBeyondStates := by injection hnone
  have hstate := enterHoldover_qcState 0 heldBeyondStates
  rw [hsame, heldBeyondStates_qcState] at hstate
  exact absurd hstate (by decide)

end Sys2Proof.Machine

/-! SUPPORT. The way of an access to its register: the bytes of a word, the accesses that main reset, the owner lock or the map itself turn away,
and the writes that the device refuses (R45 to R56, R681, R692). -/

namespace Sys2Proof.Machine

/-! ### Bytes of a word -/

/-- The byte at place `k` of a word written under byte enables. -/
def writtenByte (old v be k : Nat) : Nat := (if bit be k then v else old) / 2 ^ (8 * k) % 256

theorem sum_range_four (b w : Nat → Nat) : ((List.range 4).map (fun k => b k * w k)).sum = b 0 * w 0 + b 1 * w 1 + b 2 * w 2 + b 3 * w 3 := by
  simp [List.range_succ, Nat.add_assoc]

theorem mergeBytes_eq (old v be : Nat) : mergeBytes old v be =
    writtenByte old v be 0 * 2 ^ (8 * 0) + writtenByte old v be 1 * 2 ^ (8 * 1) + writtenByte old v be 2 * 2 ^ (8 * 2) + writtenByte old v be 3 * 2 ^ (8 * 3) :=
  sum_range_four (writtenByte old v be) (fun k => 2 ^ (8 * k))

theorem mergeBytes_lt (old v be : Nat) : mergeBytes old v be < 2 ^ 32 := by
  have hb : ∀ k, writtenByte old v be k < 256 := fun k => Nat.mod_lt _ (by decide)
  have h0 := hb 0
  have h1 := hb 1
  have h2 := hb 2
  have h3 := hb 3
  rw [mergeBytes_eq]
  omega

/-- With all four bytes enabled the word is the one written. -/
theorem mergeBytes_full {be : Nat} (h : be % 16 = 15) (old v : Nat) : mergeBytes old v be = v % 2 ^ 32 := by
  have hbyte : ∀ k, k < 4 → writtenByte old v be k = v / 2 ^ (8 * k) % 256 := by
    intro k hk
    have hbit : bit be k = true := by
      interval_cases k <;> simp only [bit, decide_eq_true_eq] <;> omega
    rw [writtenByte, if_pos hbit]
  rw [mergeBytes_eq, hbyte 0 (by decide), hbyte 1 (by decide), hbyte 2 (by decide), hbyte 3 (by decide)]
  omega

theorem maskBytes_full {be : Nat} (h : be % 16 = 15) (v : Nat) : maskBytes v be = v % 2 ^ 32 := mergeBytes_full h 0 v

/-! ### The map -/

theorem onStride_aligned {l : List (Nat × Nat)} (hl : ∀ e ∈ l, e.1 % 4 = 0) {n : Nat} (h : onStride l n = true) : n % 4 = 0 := by
  induction l generalizing n with
  | nil =>
    have hn : n = 0 := of_decide_eq_true h
    rw [hn]
  | cons e r ih =>
    have hrest : onStride r (n % e.1) = true := by
      unfold onStride at h
      exact ((Bool.and_eq_true _ _).mp h).2
    have hmod : n % e.1 % 4 = 0 := ih (fun x hx => hl x (List.mem_cons_of_mem _ hx)) hrest
    have hdvd : (4 : Nat) ∣ e.1 := Nat.dvd_of_mod_eq_zero (hl e List.mem_cons_self)
    rwa [Nat.mod_mod_of_dvd n hdvd] at hmod

/-- Whether the registers of a block stand at word offsets. -/
def wordAligned (l : List RegDesc) : Bool := l.all (fun d => d.base % 4 = 0 && d.strides.all (fun e => e.1 % 4 = 0))

theorem regsAt_wordAligned (off : Nat) : wordAligned (regsAt off) = true := by
  unfold regsAt
  repeat' refine ite_g (Q := fun l => wordAligned l = true) (by decide) ?_
  decide

/-- A register stands at a word offset (R45). -/
theorem regAt_aligned {off : Nat} {d : RegDesc} (h : regAt off = some d) : off % 4 = 0 := by
  unfold regAt at h
  split at h
  · cases h
  · have hd := List.all_eq_true.1 (regsAt_wordAligned off) d (List.mem_of_find?_eq_some h)
    have hat := List.find?_some h
    simp only [Bool.and_eq_true, decide_eq_true_eq, List.all_eq_true] at hd hat
    have := onStride_aligned hd.2 hat.2
    omega

/-- Outside the PTS block no port shuts a register. -/
theorem ptsShut_outside {off : Nat} (h : off < 0x200000 ∨ 0x20C000 ≤ off) (s : State) : ptsShut off s = false := by
  have hout : (decide (0x200000 ≤ off) && decide (off < 0x20C000)) = false := by
    simp only [Bool.and_eq_false_iff, decide_eq_false_iff_not]
    omega
  simp only [ptsShut, hout, Bool.false_and]

/-! ### Main reset and the owner lock -/

theorem whileUp_up {f : State → State} {s : State} (h : s.boot.inReset = false) : whileUp f s = .next (f s) := by
  simp only [whileUp, h, Bool.false_eq_true, if_false]

theorem whileUp_inReset {f : State → State} {s : State} (h : s.boot.inReset = true) : whileUp f s = .next s := by
  simp only [whileUp, h, if_true]

/-- A write TLP of one word. -/
@[simp] theorem busWrite_one (a : Access) (s : State) : busWrite a [] s = writeWord a [] s := by
  simp [busWrite, writeMore]

/-- A read TLP of one word. -/
@[simp] theorem busRead_one (a : Access) (s : State) : busRead a [] s = answered (le 4 (readWord a s).1) (readWord a s).2 := by
  simp [busRead, readMore, answered]

theorem writeWord_disabled {a : Access} (h : a.be % 16 = 0) (fs : List Fetched) (s : State) : writeWord a fs s = s := by
  simp only [writeWord, h, if_true]

theorem writeWord_shut {a : Access} {s : State} (hbe : a.be % 16 ≠ 0) (h : jtagShut a true s = true) (fs : List Fetched) :
    writeWord a fs s = accessFault a true s := by
  simp [writeWord, hbe, h]

theorem writeWord_bar2 {a : Access} (hbe : a.be % 16 ≠ 0) (h : a.bar = 2) (fs : List Fetched) (s : State) :
    writeWord a fs s = accessFault a true s := by
  simp [writeWord, hbe, h]

theorem writeWord_bar0 {a : Access} {off : Nat} {s : State} (h : SomeWrite a off s) (fs : List Fetched) : writeWord a fs s = writeBar0 a s := by
  obtain ⟨-, hopen, hbar, -, hbe⟩ := h
  simp [writeWord, hbe, hbar, hopen]

theorem FullWrite.someWrite {a : Access} {off : Nat} {s : State} (h : FullWrite a off s) : SomeWrite a off s := by
  obtain ⟨hup, hopen, hbar, hoff, hbe⟩ := h
  exact ⟨hup, hopen, hbar, hoff, by omega⟩

/-- On BAR0 a write that the owner lock shuts out and one that its register refuses end alike. -/
theorem writeWord_refused {a : Access} {s : State} (hbar : a.bar = 0) (hbe : a.be % 16 ≠ 0) (h : writeBar0 a s = accessFault a true s) :
    writeWord a [] s = accessFault a true s := by
  simp [writeWord, hbe, hbar, h]

/-! ### Where nothing is mapped -/

/-- No word of BAR0 answers at an offset: it is no word's offset, or neither a counter nor a register stands there. -/
def NoWord (off : Nat) : Prop :=
  off % 4 ≠ 0 ∨ (¬(0x900000 ≤ off ∧ off < 0x930000) ∧ ¬(0x980000 ≤ off ∧ off < 0x982000) ∧ regAt off = none)

theorem readBar0_noWord {off : Nat} (h : NoWord off) (p : Path) (s : State) : readBar0 p off s = none := by
  unfold readBar0
  rcases h with h | ⟨hcounter, hwindow, hreg⟩
  · rw [if_pos h]
  · simp [hcounter, hwindow, hreg]

theorem writeBar0_noWord {a : Access} (h : NoWord a.off) (s : State) : writeBar0 a s = accessFault a true s := by
  unfold writeBar0
  rcases h with h | ⟨-, -, hreg⟩
  · rw [if_pos h]
  · split
    · rfl
    · rw [hreg]

/-- The offsets of BAR4 at which a word stands (R47). -/
def Bar4Word (off : Nat) : Prop :=
  off = 0 ∨ off = 0x40 ∨ (0x100 ≤ off ∧ off < 0x300 ∧ off % 0x40 = 0) ∨ (0x2000 ≤ off ∧ off < 0x2400 ∧ off % 4 = 0) ∨ off = 0x3000 ∨ off = 0x3004

theorem readBar4_none {off : Nat} (h : ¬Bar4Word off) (s : State) : readBar4 off s = none := by
  unfold Bar4Word at h
  unfold readBar4
  rw [if_neg (by omega), if_neg (by omega), if_neg (by omega), if_neg (by omega)]

theorem writeBar4_none {a : Access} (h : ¬Bar4Word a.off) (fs : List Fetched) (s : State) : writeBar4 a fs s = accessFault a true s := by
  unfold Bar4Word at h
  have hbell : ¬(a.off = 0 ∨ a.off = 0x40 ∨ (0x100 ≤ a.off ∧ a.off < 0x300 ∧ a.off % 0x40 = 0)) := by omega
  have htable : ¬(0x2000 ≤ a.off ∧ a.off < 0x2400 ∧ a.off % 4 = 0) := by omega
  have hpending : ¬(a.off = 0x3000 ∨ a.off = 0x3004) := by omega
  exact (if_neg hbell).trans ((if_neg htable).trans (if_neg hpending))

/-- Where nothing is mapped: no word of BAR4, or none of BAR0, of which BAR2 shows the 1 MiB of the CT block (R45 to R47). -/
theorem unmapped_iff (a : Access) : unmapped a = true ↔
    (a.bar = 4 ∧ ¬Bar4Word a.off) ∨ (a.bar = 2 ∧ (0x100000 ≤ a.off ∨ NoWord (0x900000 + a.off))) ∨ (a.bar ≠ 4 ∧ a.bar ≠ 2 ∧ NoWord a.off) := by
  unfold unmapped Bar4Word NoWord
  by_cases h4 : a.bar = 4
  · simp only [h4, if_true, Bool.not_eq_true', decide_eq_false_iff_not]
    tauto
  · by_cases h2 : a.bar = 2
    · simp [h2, or_assoc, and_assoc, imp_iff_not_or]
    · simp [h4, h2, and_assoc, imp_iff_not_or]

/-- A read where nothing is mapped answers all ones in the bytes enabled, with ACCESS_FAULT (R55). -/
theorem readWord_unmapped {a : Access} (h : unmapped a = true) (hbe : a.be % 16 ≠ 0) (s : State) :
    readWord a s = (maskBytes (2 ^ 32 - 1) a.be, accessFault a false s) := by
  unfold readWord
  rw [if_neg hbe]
  rcases (unmapped_iff a).1 h with ⟨hbar, hw⟩ | ⟨hbar, hout | hw⟩ | ⟨h4, h2, hw⟩
  · simp [hbar, readBar4_none hw]
  · simp [hbar, Nat.not_lt.2 hout]
  · simp [hbar, readBar0_noWord hw]
  · simp [h4, h2, readBar0_noWord hw]

/-- A write where nothing is mapped is discarded with ACCESS_FAULT (R55). -/
theorem writeWord_unmapped {a : Access} (h : unmapped a = true) (hbe : a.be % 16 ≠ 0) (fs : List Fetched) (s : State) :
    writeWord a fs s = accessFault a true s := by
  unfold writeWord
  rw [if_neg hbe]
  rcases (unmapped_iff a).1 h with ⟨hbar, hw⟩ | ⟨hbar, -⟩ | ⟨h4, h2, hw⟩
  · simp [hbar, writeBar4_none hw]
  · simp [hbar]
  · simp [h4, h2, writeBar0_noWord hw]

/-! ### Writes of a register -/

/-- The guard's own registers and HST_RESET, which a core does not write (R675, R698). -/
def guarded (off : Nat) : Bool := inGd off || off = 0x30 || off = 0x34

/-- A write comes as far as the access rules of the register `d` at its offset: its port is not shut, and the bytes that a W32 register asks for are there. -/
def AtReg (a : Access) (d : RegDesc) (s : State) : Prop :=
  regAt a.off = some d ∧ ptsShut a.off s = false ∧ (d.w32 = true → a.be % 16 = 15)

theorem AtReg.enabled {a : Access} {d : RegDesc} {s : State} (h : AtReg a d s) : (d.w32 && decide (a.be % 16 ≠ 15)) = false := by
  obtain ⟨-, -, hw⟩ := h
  cases hd : d.w32
  · rfl
  · simp [hw hd]

theorem writeBar0_shut {a : Access} {d : RegDesc} {s : State} (hreg : regAt a.off = some d) (h : ptsShut a.off s = true) : writeBar0 a s = s := by
  unfold writeBar0
  simp [regAt_aligned hreg, hreg, h]

theorem writeBar0_partial {a : Access} {d : RegDesc} {s : State} (hreg : regAt a.off = some d) (hopen : ptsShut a.off s = false)
    (hw : d.w32 = true) (hbe : a.be % 16 ≠ 15) : writeBar0 a s = accessFault a true s := by
  unfold writeBar0
  simp [regAt_aligned hreg, hreg, hopen, hw, hbe]

theorem AtReg.locked {a : Access} {d : RegDesc} {s : State} (h : AtReg a d s) (hcore : isCore a.path = true) (hg : guarded a.off = true) :
    writeBar0 a s = discarded a.off a.path .locked a.data s := by
  have hbytes := h.enabled
  obtain ⟨hreg, hopen, -⟩ := h
  have halign : (a.off % 4 ≠ 0) = False := by simp [regAt_aligned hreg]
  unfold guarded at hg
  simp only [writeBar0, halign, hreg, hopen, hbytes, hcore, hg, Bool.and_true, Bool.false_eq_true, if_false, if_true]

theorem AtReg.readOnly {a : Access} {d : RegDesc} {s : State} (h : AtReg a d s) (hg : (isCore a.path && guarded a.off) = false)
    (hro : readOnly d = true) : writeBar0 a s = accessFault a true s := by
  have hbytes := h.enabled
  obtain ⟨hreg, hopen, -⟩ := h
  have halign : (a.off % 4 ≠ 0) = False := by simp [regAt_aligned hreg]
  unfold guarded at hg
  simp only [writeBar0, halign, hreg, hopen, hbytes, hg, hro, Bool.false_eq_true, if_false, if_true]

/-- A core's write of a read-only register is refused, as a guard violation where the register is guarded. -/
theorem writeBar0_readOnly_core {a : Access} {d : RegDesc} {s : State} (h : AtReg a d s) (hcore : isCore a.path = true) (hro : readOnly d = true) :
    writeBar0 a s = if inGd a.off = true ∨ a.off = 0x30 ∨ a.off = 0x34 then discarded a.off a.path .locked a.data s else accessFault a true s := by
  have hiff : guarded a.off = true ↔ (inGd a.off = true ∨ a.off = 0x30 ∨ a.off = 0x34) := by simp [guarded, or_assoc]
  split
  case isTrue hg => exact h.locked hcore (hiff.2 hg)
  case isFalse hg => exact h.readOnly (by simp [mt hiff.1 hg]) hro

/-- Any other path's write of a read-only register is an access fault, whatever bytes it enables. -/
theorem writeBar0_readOnly {a : Access} {d : RegDesc} {s : State} (hreg : regAt a.off = some d) (hopen : ptsShut a.off s = false)
    (hcore : isCore a.path = false) (hro : readOnly d = true) : writeBar0 a s = accessFault a true s := by
  by_cases hw : d.w32 = true ∧ a.be % 16 ≠ 15
  · exact writeBar0_partial hreg hopen hw.1 hw.2
  · have hat : AtReg a d s := ⟨hreg, hopen, fun h => by_contra fun hbe => hw ⟨h, hbe⟩⟩
    exact hat.readOnly (by simp [hcore]) hro

/-- Settles O9: each access is turned away where the map, the bar, the bytes enabled or the register's access codes stop it. -/
theorem accessesTheDeviceRefuses : Obligations.AccessesTheDeviceRefuses := by
  refine ⟨?_, ?_, ?_, ?_, ?_, ?_, ?_⟩
  · intro a s hup hun hbe
    have hread : exec (.unmappedRead a) s = whileUp (busRead a []) s := rfl
    rw [hread, whileUp_up hup, busRead_one, readWord_unmapped hun hbe]
  · intro a s hup hun hbe
    have hwrite : exec (.unmappedWrite a) s = whileUp (busWrite a []) s := rfl
    rw [hwrite, whileUp_up hup, busWrite_one, writeWord_unmapped hun hbe]
  · intro a d s hup hbar hcore hreg hopen hro hbe
    have hwrite : exec (.readOnlyWrite a) s = whileUp (busWrite a []) s := rfl
    rw [hwrite, whileUp_up hup, busWrite_one, writeWord_refused hbar hbe (writeBar0_readOnly hreg hopen hcore hro)]
  · intro a d s hup hbar hreg hopen hw hpart hbe
    have hwrite : exec (.partialW32Write a) s = whileUp (busWrite a []) s := rfl
    rw [hwrite, whileUp_up hup, busWrite_one, writeWord_refused hbar hbe (writeBar0_partial hreg hopen hw hpart)]
  · intro a s hup hbe
    have hwrite : exec (.bar2Write a) s = whileUp (busWrite { a with bar := 2 } []) s := rfl
    rw [hwrite, whileUp_up hup, busWrite_one, writeWord_bar2 (a := { a with bar := 2 }) hbe rfl]
  · intro a more s hup hoff hmore
    have hwrite : exec (.bar4LongWrite a more) s = whileUp (busWrite { a with bar := 4 } more) s := rfl
    have hlong : busWrite { a with bar := 4 } more s = accessFault { a with bar := 4 } true s := by
      unfold busWrite
      exact if_pos (by simp [hoff, hmore])
    rw [hwrite, whileUp_up hup, hlong]
  · intro a d s hup hjtag hbar hcore hreg hopen hw hro hbe
    have hwrite : exec (.readOnlyWrite a) s = whileUp (busWrite a []) s := rfl
    rw [hwrite, whileUp_up hup, busWrite_one, writeWord_bar0 ⟨hup, hjtag, hbar, rfl, hbe⟩, writeBar0_readOnly_core ⟨hreg, hopen, hw⟩ hcore hro]

end Sys2Proof.Machine

/-! SUPPORT. What an access fault writes (R55, R70): the fault's registers, the device's count of them, and one event record. -/

namespace Sys2Proof.Machine

/-! ### Fields written in turn -/

theorem FieldsOf.raiseBit {fs : List Fld} {s t : State} (h : FieldsOf fs s t) {f : Fld} (hf : f.key ∈ fs.map Fld.key) : FieldsOf fs s (t.raiseBit f) :=
  (h.setF hf 1).regs rfl

theorem getF_raiseBit_same (s : State) {f : Fld} (hw : f.width = 1) : (s.raiseBit f).getF f = 1 := by
  have h : (s.setF f 1).getF f = 1 := by rw [getF_setF_same, hw]; rfl
  exact h

theorem getF_raiseBit_ne (s : State) {f g : Fld} (h : g.key ≠ f.key) : (s.raiseBit f).getF g = s.getF g := getF_setF_ne s 1 h

@[simp] theorem State.raiseBit_dtt (s : State) (f : Fld) : (s.raiseBit f).dtt = s.dtt := rfl
@[simp] theorem State.raiseBit_evu (s : State) (f : Fld) : (s.raiseBit f).evu = s.evu := rfl
@[simp] theorem State.raiseBit_mp (s : State) (f : Fld) : (s.raiseBit f).mp = s.mp := rfl

/-! ### Counters and records -/

/-- With no error stored a counter advances without memory protection (R597). -/
theorem count_clean {s : State} (h : s.mp.errs = []) (c n : Nat) : count c n s = countRaw c n s := if_pos h

theorem countRaw_fields {fs : List Fld} {s t : State} (h : FieldsOf fs s t) {c : Nat} (hf : (Reg.ctOvf (c / 32)).key ∈ fs.map Fld.key) (n : Nat) :
    FieldsOf fs s (countRaw c n t) := by
  unfold countRaw
  dsimp only
  split
  · exact h.regs rfl
  · exact (h.regs rfl : FieldsOf fs s { t with counters := _ }).setF hf _

theorem countRaw_getF (s : State) (c n : Nat) {f : Fld} (h : f.key ≠ (Reg.ctOvf (c / 32)).key) : (countRaw c n s).getF f = s.getF f :=
  countRaw_fields (FieldsOf.refl [Reg.ctOvf (c / 32)] s) (by simp) n f (by simpa using h)

/-- A counter advances modulo 2^64 (R593). -/
theorem countRaw_counter (s : State) (c n : Nat) : (countRaw c n s).counter c = (s.counter c + n) % 2 ^ 64 := by
  have hset : ∀ t : State, t.counters = spSet 0 s.counters c ((s.counter c + n) % 2 ^ 64) → t.counter c = (s.counter c + n) % 2 ^ 64 := by
    intro t ht
    rw [State.counter, ht, spGet_spSet_same]
  unfold countRaw
  dsimp only
  split <;> exact hset _ rfl

@[simp] theorem countRaw_evu (s : State) (c n : Nat) : (countRaw c n s).evu = s.evu := by
  unfold countRaw
  dsimp only
  split <;> rfl

@[simp] theorem countRaw_dtt (s : State) (c n : Nat) : (countRaw c n s).dtt = s.dtt := by
  unfold countRaw
  dsimp only
  split <;> rfl

/-- An event that is no ALARM writes no register. -/
theorem raiseAt_regs {sev : Nat} (h : sev ≠ 3) (stamp src code : Nat) (payload : Bytes) (s : State) :
    (raiseAt stamp src sev code payload s).regs = s.regs := by
  unfold raiseAt
  rw [if_neg h]
  dsimp only
  split <;> rfl

theorem raiseAt_counters {sev : Nat} (h : sev ≠ 3) (stamp src code : Nat) (payload : Bytes) (s : State) :
    (raiseAt stamp src sev code payload s).counters = s.counters := by
  unfold raiseAt
  rw [if_neg h]
  dsimp only
  split <;> rfl

/-- An event of MINSEV or more that is no ALARM adds its record to the ordering hold (R75, R76). -/
theorem raiseAt_held {sev : Nat} (h : sev ≠ 3) {s : State} (hmin : s.getF Reg.hstEvrCfgMinsev ≤ sev) (stamp src code : Nat) (payload : Bytes) :
    ∃ e : EventRec, (raiseAt stamp src sev code payload s).evu = { s.evu with held := s.evu.held ++ [e] } ∧
      e.stamp = stamp ∧ e.src = src ∧ e.sev = sev ∧ e.code = code ∧ e.late = false := by
  unfold raiseAt
  rw [if_neg h]
  dsimp only
  rw [if_neg (Nat.not_lt.2 hmin)]
  exact ⟨_, rfl, rfl, rfl, rfl, rfl, rfl⟩

/-! ### The fault -/

/-- The fields that tell of the last access fault. -/
def faultFields : List Fld :=
  [Reg.hstStatusAccessFault, Reg.hstFaultAddrWrite, Reg.hstFaultAddrReq, Reg.hstFaultAddrBar, Reg.hstFaultAddrOffset, Reg.ctOvf 744]

/-- The registers of the last access fault, written. -/
def faultTold (a : Access) (w : Bool) (s : State) : State :=
  (((s.setB Reg.hstFaultAddrWrite w).setF Reg.hstFaultAddrReq a.path.ctorIdx).setF Reg.hstFaultAddrBar (a.bar / 2)).setF Reg.hstFaultAddrOffset a.off

/-- The device with an access fault counted and told of in its registers, before the record is raised. -/
def faultShown (a : Access) (w : Bool) (s : State) : State := faultTold a w (countRaw (devCtr 28) 1 (s.raiseBit Reg.hstStatusAccessFault))

/-- Bytes 20 to 31 of the record of an access fault (R55). -/
def faultPayload (a : Access) (w : Bool) : Bytes :=
  record 12 ([(20, le 4 (a.off % 2 ^ 26 + 2 ^ 26 * (a.bar / 2))), (24, le 1 a.path.ctorIdx), (25, le 1 (b2n w + 16 * (a.be % 16))),
    (28, le 4 (if w then a.data else 0))].map (fun f => (f.1 - 20, f.2)))

/-- An access fault is told of in the registers and raises its record. -/
theorem accessFault_eq {s : State} (h : s.mp.errs = []) (a : Access) (w : Bool) :
    accessFault a w s = raiseAt (faultShown a w s).dtt 131 1 1 (faultPayload a w) (faultShown a w s) := by
  have hraised : ∀ t : State, count (devCtr 28) 1 (s.raiseBit Reg.hstStatusAccessFault) = t →
      accessFault a w s = raiseAt (faultTold a w t).dtt 131 1 1 (faultPayload a w) (faultTold a w t) := by
    rintro t rfl
    rfl
  exact hraised _ (count_clean (by rw [State.raiseBit_mp, h]) _ _)

@[simp] theorem faultShown_dtt (a : Access) (w : Bool) (s : State) : (faultShown a w s).dtt = s.dtt := by
  simp only [faultShown, faultTold, State.setF_dtt, State.setB_dtt, countRaw_dtt, State.raiseBit_dtt]

@[simp] theorem faultShown_evu (a : Access) (w : Bool) (s : State) : (faultShown a w s).evu = s.evu := by
  simp only [faultShown, faultTold, State.setF_evu, State.setB_evu, countRaw_evu, State.raiseBit_evu]

/-- Telling of a fault writes its own fields alone. -/
theorem faultShown_fields (a : Access) (w : Bool) (s : State) : FieldsOf faultFields s (faultShown a w s) := by
  have hbit : FieldsOf faultFields s (s.raiseBit Reg.hstStatusAccessFault) := (FieldsOf.refl _ s).raiseBit (by decide)
  exact ((((countRaw_fields hbit (by decide) 1).setF (by decide) _).setF (by decide) _).setF (by decide) _).setF (by decide) _

theorem faultShown_frame (a : Access) (w : Bool) (s : State) : FrameOf [.rHst, .rCt, .counters, .bus] s (faultShown a w s) := by
  have K := frame_keeps [.rHst, .rCt, .counters, .bus] s
  have hbit := raiseBit_k K 0 part_hstStatusAccessFault (sub_of rfl) (FrameOf.refl _ s)
  have hwrite := setB_k K 0 (v := w) part_hstFaultAddrWrite (sub_of rfl) (countRaw_keeps K (c := devCtr 28) (n := 1) (sub_of rfl) hbit)
  exact setF_k K 0 part_hstFaultAddrOffset (sub_of rfl) (setF_k K 0 part_hstFaultAddrBar (sub_of rfl) (setF_k K 0 part_hstFaultAddrReq (sub_of rfl) hwrite))

/-- The fields of the last fault hold its direction, requester, BAR and offset (R55). -/
theorem faultShown_reads (a : Access) (w : Bool) (s : State) :
    (faultShown a w s).getF Reg.hstStatusAccessFault = 1 ∧ (faultShown a w s).getF Reg.hstFaultAddrWrite = b2n w ∧
    (faultShown a w s).getF Reg.hstFaultAddrReq = a.path.ctorIdx ∧ (faultShown a w s).getF Reg.hstFaultAddrBar = a.bar / 2 % 4 ∧
    (faultShown a w s).getF Reg.hstFaultAddrOffset = a.off % 2 ^ 26 := by
  unfold faultShown faultTold
  refine ⟨?_, ?_, ?_, ?_, ?_⟩
  · refine read_setF (by decide) (read_setF (by decide) (read_setF (by decide) (read_setB (by decide) ?_)))
    rw [countRaw_getF _ _ _ (by decide)]
    exact getF_raiseBit_same s rfl
  · refine read_setF (by decide) (read_setF (by decide) (read_setF (by decide) ?_))
    refine (getF_setF_same _ _ _).trans ?_
    cases w <;> rfl
  · refine read_setF (by decide) (read_setF (by decide) ?_)
    refine (getF_setF_same _ _ _).trans ?_
    cases a.path <;> rfl
  · exact read_setF (by decide) (getF_setF_same _ _ _)
  · exact getF_setF_same _ _ _

theorem faultShown_counter (a : Access) (w : Bool) (s : State) :
    (faultShown a w s).counter (devCtr 28) = (s.counter (devCtr 28) + 1) % 2 ^ 64 := countRaw_counter _ _ _

/-- Settles O10: the fault is told of in the registers, and its record, of severity 1, writes none. -/
theorem accessFaultIsLogged : Obligations.AccessFaultIsLogged := by
  intro a w s herrs
  rw [accessFault_eq herrs a w]
  have hsev : (1 : Nat) ≠ 3 := by decide
  have hregs := raiseAt_regs hsev (faultShown a w s).dtt 131 1 (faultPayload a w) (faultShown a w s)
  have hctr := raiseAt_counters hsev (faultShown a w s).dtt 131 1 (faultPayload a w) (faultShown a w s)
  simp only [getF_of_regs hregs, State.counter, hctr]
  obtain ⟨hbit, hwrite, hreq, hbar, hoff⟩ := faultShown_reads a w s
  refine ⟨hbit, hwrite, hreq, hbar, hoff, faultShown_counter a w s, ?_, (faultShown_fields a w s).regs hregs, ?_⟩
  · intro hmin
    have hmin' : (faultShown a w s).getF Reg.hstEvrCfgMinsev ≤ 1 := by
      rwa [faultShown_fields a w s Reg.hstEvrCfgMinsev (by decide)]
    obtain ⟨e, hevu, hrest⟩ := raiseAt_held hsev hmin' (faultShown a w s).dtt 131 1 (faultPayload a w)
    refine ⟨e, ?_⟩
    rw [hevu, faultShown_evu]
    rw [faultShown_dtt] at hrest
    exact ⟨rfl, hrest⟩
  · have K := frame_keeps [.rHst, .rCt, .evu, .counters, .bus] s
    refine raiseAt_keeps K (sub_of rfl) (fun p hp => faultShown_frame a w s p ?_)
    exact fun hin => hp (by simp at hin ⊢; tauto)

end Sys2Proof.Machine

/-! SUPPORT. What a write of a plain register does to each of its fields (R51, R56, R66). -/

namespace Sys2Proof.Machine

/-! ### One field -/

/-- The place of a register's field. -/
def fieldAt (off : Nat) (f : FieldDesc) : Fld := ⟨off, f.lo, f.hi - f.lo + 1⟩

/-- One field under a write of word `w` with the bits `m` written: an RW field takes it, a W1C bit written with 1 goes. -/
def writeField (off w m : Nat) (s : State) (f : FieldDesc) : State :=
  match f.acc with
  | .rw => s.setF (fieldAt off f) (w / 2 ^ f.lo)
  | .w1c => if bit m f.lo then s.clearBit (fieldAt off f) else s
  | _ => s

/-- What a field reads after a write of its register. -/
def fieldWritten (off w m : Nat) (s : State) (f : FieldDesc) : Nat :=
  match f.acc with
  | .rw => w / 2 ^ f.lo % 2 ^ (f.hi - f.lo + 1)
  | .w1c => if bit m f.lo = true ∧ ¬(spGet 0 s.bus.raised (fieldAt off f).key = s.dtt + 1 ∧ Config.sameCclk s.dtt (fieldAt off f).key = true) then 0
    else s.getF (fieldAt off f)
  | _ => s.getF (fieldAt off f)

theorem writeFields_eq (off v be : Nat) (d : RegDesc) (s : State) :
    writeFields off v be d s = d.fields.foldl (writeField off (mergeBytes (s.regWord off) v be) (maskBytes v be)) s := rfl

/-- Clearing a W1C bit writes 0, unless the device sets it in the same CCLK (R66). -/
theorem State.clearBit_eq (s : State) (f : Fld) : s.clearBit f =
    if spGet 0 s.bus.raised f.key = s.dtt + 1 ∧ Config.sameCclk s.dtt f.key = true then s else s.setF f 0 := by
  simp [State.clearBit]

/-- A field's write changes that field alone, whatever its access code. -/
theorem writeField_cases (off w m : Nat) (s : State) (f : FieldDesc) :
    writeField off w m s f = s ∨ ∃ v, writeField off w m s f = s.setF (fieldAt off f) v := by
  unfold writeField
  split
  · exact .inr ⟨_, rfl⟩
  · rw [State.clearBit_eq]
    split
    · split
      · exact .inl rfl
      · exact .inr ⟨_, rfl⟩
    · exact .inl rfl
  · exact .inl rfl

theorem writeField_getF_ne (off w m : Nat) (s : State) (f : FieldDesc) {g : Fld} (h : g.key ≠ (fieldAt off f).key) :
    (writeField off w m s f).getF g = s.getF g := by
  rcases writeField_cases off w m s f with hw | ⟨v, hw⟩
  · rw [hw]
  · rw [hw, getF_setF_ne _ _ h]

@[simp] theorem writeField_bus (off w m : Nat) (s : State) (f : FieldDesc) : (writeField off w m s f).bus = s.bus := by
  rcases writeField_cases off w m s f with hw | ⟨v, hw⟩ <;> rw [hw]
  rfl

@[simp] theorem writeField_dtt (off w m : Nat) (s : State) (f : FieldDesc) : (writeField off w m s f).dtt = s.dtt := by
  rcases writeField_cases off w m s f with hw | ⟨v, hw⟩ <;> rw [hw]
  rfl

theorem writeField_getF_same (off w m : Nat) (s : State) (f : FieldDesc) : (writeField off w m s f).getF (fieldAt off f) = fieldWritten off w m s f := by
  unfold writeField fieldWritten
  cases f.acc with
  | rw => exact getF_setF_same _ _ _
  | w1c =>
    dsimp only
    rw [State.clearBit_eq]
    by_cases hbit : bit m f.lo = true
    · by_cases hraised : spGet 0 s.bus.raised (fieldAt off f).key = s.dtt + 1 ∧ Config.sameCclk s.dtt (fieldAt off f).key = true
      · simp only [hbit, hraised, and_self, not_true, and_false, if_true, if_false]
      · simp only [hbit, hraised, not_false_iff, and_self, if_true, if_false, getF_setF_same, Nat.zero_mod]
    · simp only [hbit, false_and, if_false, Bool.false_eq_true]
  | _ => rfl

/-! ### The fields of a register -/

/-- Fields at distinct bits have distinct keys. -/
theorem fieldAt_key_inj {off : Nat} {f g : FieldDesc} (hf : f.lo < 32) (hg : g.lo < 32) (h : (fieldAt off f).key = (fieldAt off g).key) : f.lo = g.lo := by
  simp only [Fld.key, fieldAt] at h
  omega

theorem writeField_foldl_getF (off w m : Nat) (l : List FieldDesc) (s : State) {g : Fld} (h : g.key ∉ l.map (fun f => (fieldAt off f).key)) :
    (l.foldl (writeField off w m) s).getF g = s.getF g := by
  induction l generalizing s with
  | nil => rfl
  | cons e r ih =>
    rw [List.map_cons, List.mem_cons, not_or] at h
    rw [List.foldl_cons, ih _ h.2, writeField_getF_ne _ _ _ _ _ h.1]

/-- What a field is to read does not depend on the other fields of its register. -/
theorem fieldWritten_writeField (off w m : Nat) (s : State) {e f : FieldDesc} (h : (fieldAt off f).key ≠ (fieldAt off e).key) :
    fieldWritten off w m (writeField off w m s e) f = fieldWritten off w m s f := by
  unfold fieldWritten
  rw [writeField_bus, writeField_dtt, writeField_getF_ne _ _ _ _ _ h]

theorem writeField_foldl_same (off w m : Nat) (l : List FieldDesc) (s : State) (hnodup : (l.map (·.lo)).Nodup) (hlo : ∀ f ∈ l, f.lo < 32) {f : FieldDesc}
    (hf : f ∈ l) : (l.foldl (writeField off w m) s).getF (fieldAt off f) = fieldWritten off w m s f := by
  induction l generalizing s with
  | nil => cases hf
  | cons e r ih =>
    rw [List.map_cons, List.nodup_cons] at hnodup
    obtain ⟨hfirst, hrest⟩ := hnodup
    have he : e.lo < 32 := hlo e List.mem_cons_self
    have hne : ∀ g ∈ r, (fieldAt off g).key ≠ (fieldAt off e).key := fun g hg hkey =>
      hfirst (List.mem_map.2 ⟨g, hg, fieldAt_key_inj (hlo g (List.mem_cons_of_mem _ hg)) he hkey⟩)
    rw [List.foldl_cons]
    rcases List.mem_cons.1 hf with rfl | hin
    · rw [writeField_foldl_getF, writeField_getF_same]
      intro hkey
      obtain ⟨g, hg, hgk⟩ := List.mem_map.1 hkey
      exact hne g hg hgk
    · rw [ih _ hrest (fun g hg => hlo g (List.mem_cons_of_mem _ hg)) hin, fieldWritten_writeField _ _ _ _ (hne f hin)]

/-- A write of a register leaves every field of another place as it was. -/
theorem writeFields_fields (off v be : Nat) (d : RegDesc) (s : State) : FieldsOf (d.fields.map (fieldAt off)) s (writeFields off v be d s) := by
  intro g hg
  rw [List.map_map] at hg
  rw [writeFields_eq]
  exact writeField_foldl_getF off _ _ d.fields s hg

theorem writeFields_getF {d : RegDesc} (hnodup : (d.fields.map (·.lo)).Nodup) (hlo : ∀ f ∈ d.fields, f.lo < 32) {f : FieldDesc} (hf : f ∈ d.fields)
    (off v be : Nat) (s : State) :
    (writeFields off v be d s).getF (fieldAt off f) = fieldWritten off (mergeBytes (s.regWord off) v be) (maskBytes v be) s f := by
  rw [writeFields_eq]
  exact writeField_foldl_same off _ _ d.fields s hnodup hlo hf

/-- Settles O13: the fields of a register are written one by one, each at its own key. -/
theorem registerFieldsFollowTheirAccessCodes : Obligations.RegisterFieldsFollowTheirAccessCodes := by
  intro off v be d s hnodup hlo
  exact ⟨writeFields_fields off v be d s, fun f hf => writeFields_getF hnodup (fun g hg => (hlo g hg).1) hf off v be s⟩

end Sys2Proof.Machine

/-! SUPPORT. The rings that follow R71 to R78: a slot written, slots returned, and the condition that signals once. -/

namespace Sys2Proof.Machine

/-! ### Host memory read after a write -/

section

variable {α β : Type} (g : α → β)

theorem spDel_map (m : List (Nat × α)) (k : Nat) : (spDel m k).map (fun c => (c.1, g c.2)) = spDel (m.map (fun c => (c.1, g c.2))) k := by
  induction m with
  | nil => rfl
  | cons e r ih =>
    by_cases h : e.1 = k
    · simpa only [spDel, List.map_cons, h, if_true] using ih
    · simpa only [spDel, List.map_cons, h, if_false, List.cons.injEq, true_and] using ih

theorem spIns_map (m : List (Nat × α)) (k : Nat) (v : α) :
    (spIns m k v).map (fun c => (c.1, g c.2)) = spIns (m.map (fun c => (c.1, g c.2))) k (g v) := by
  induction m with
  | nil => rfl
  | cons e r ih =>
    by_cases h : k < e.1
    · simp only [spIns, List.map_cons, h, if_true]
    · simpa only [spIns, List.map_cons, h, if_false, List.cons.injEq, true_and] using ih

end

theorem memRead_memWrite_same (m : Memory) (a : Nat) (b : Byte) : memRead (memWrite m a b) a = some b := by
  rw [memRead_eq, memWrite, spIns_map some, spDel_map some]
  exact spGet_spIns_same _ _ _ _ (spGet_spDel_same _ _ _)

theorem memRead_memWrite_ne (m : Memory) {a j : Nat} (b : Byte) (h : j ≠ a) : memRead (memWrite m a b) j = memRead m j := by
  rw [memRead_eq, memRead_eq, memWrite, spIns_map some, spDel_map some, spGet_spIns_ne _ _ _ h, spGet_spDel_ne _ _ h]

/-- Bytes written from `a` on, below the end of the address space, leave every byte before them as it was. -/
theorem memRead_memWriteBytes_before {m : Memory} {a j : Nat} {bs : Bytes} (hend : a + bs.length ≤ 2 ^ 64) (hj : j < a) :
    memRead (memWriteBytes m a bs) j = memRead m j := by
  induction bs generalizing m a with
  | nil => rfl
  | cons b r ih =>
    rw [List.length_cons] at hend
    rw [memWriteBytes, ih (by omega) (by omega), Nat.mod_eq_of_lt (by omega), memRead_memWrite_ne _ _ (by omega)]

/-- Bytes written from `a` on, below the end of the address space, stand there. -/
theorem memRead_memWriteBytes {m : Memory} {a k : Nat} {bs : Bytes} (hend : a + bs.length ≤ 2 ^ 64) (hk : k < bs.length) :
    memRead (memWriteBytes m a bs) (a + k) = bs[k]? := by
  induction bs generalizing m a k with
  | nil => cases hk
  | cons b r ih =>
    rw [List.length_cons] at hend hk
    have hmod : a % 2 ^ 64 = a := Nat.mod_eq_of_lt (by omega)
    rw [memWriteBytes, hmod]
    cases k with
    | zero => rw [memRead_memWriteBytes_before (by omega) (by omega), Nat.add_zero, memRead_memWrite_same, List.getElem?_cons_zero]
    | succ n => rw [show a + (n + 1) = a + 1 + n by omega, ih (by omega) (by omega), List.getElem?_cons_succ]

/-! ### Signals -/

@[simp] theorem State.signalVector_regs (s : State) (v : Nat) : (s.signalVector v).regs = s.regs := by
  unfold State.signalVector
  split <;> rfl

@[simp] theorem State.signalVector_hostMem (s : State) (v : Nat) : (s.signalVector v).hostMem = s.hostMem := by
  unfold State.signalVector
  split <;> rfl

/-- A ring's signal writes no register field, but HST_IRQ_STATUS.EVR for the event ring (R78). -/
theorem ringSignal_getF (R : RingRegs) (s : State) {f : Fld} (h : f.key ≠ Reg.hstIrqStatusEvr.key) : (ringSignal R s).getF f = s.getF f := by
  have hvector : ((s.setRing R.id { s.ringDyn R.id with signalled := true }).signalVector R.vector).getF f = s.getF f :=
    getF_of_regs (State.signalVector_regs _ _) f
  unfold ringSignal
  dsimp only
  split
  · split
    · exact (getF_raiseBit_ne _ h).trans hvector
    · exact hvector
  · rfl

@[simp] theorem ringSignal_hostMem (R : RingRegs) (s : State) : (ringSignal R s).hostMem = s.hostMem := by
  unfold ringSignal
  dsimp only
  split
  · split <;> exact State.signalVector_hostMem _ _
  · rfl

/-- A condition already signalled since the consumer index advanced signals nothing (R78). -/
theorem ringSignal_signalled {R : RingRegs} {s : State} (h : (s.ringDyn R.id).signalled = true) : ringSignal R s = s := by
  simp [ringSignal, h]

/-! ### Slots -/

/-- What the operations of a ring ask of its registers: 16-bit indexes and a phase bit, at places of their own. -/
structure RingPlaced (R : RingRegs) : Prop where
  prodWidth : R.prod.width = 16
  consWidth : R.cons.width = 16
  phaseWidth : R.phase.width = 1
  prodIrq : R.prod.key ≠ Reg.hstIrqStatusEvr.key
  consIrq : R.cons.key ≠ Reg.hstIrqStatusEvr.key
  phaseIrq : R.phase.key ≠ Reg.hstIrqStatusEvr.key
  phaseProd : R.phase.key ≠ R.prod.key
  consProd : R.cons.key ≠ R.prod.key
  consPhase : R.cons.key ≠ R.phase.key

theorem evrRing_placed : RingPlaced evrRing := ⟨rfl, rfl, rfl, by decide, by decide, by decide, by decide, by decide, by decide⟩
theorem ttRing_placed : RingPlaced ttRing := ⟨rfl, rfl, rfl, by decide, by decide, by decide, by decide, by decide, by decide⟩
theorem learnRing_placed : RingPlaced learnRing := ⟨rfl, rfl, rfl, by decide, by decide, by decide, by decide, by decide, by decide⟩
theorem cqRing_placed (q : Nat) (h : q ≤ 1) : RingPlaced (cqRing q) := by
  interval_cases q <;> exact ⟨rfl, rfl, rfl, by decide, by decide, by decide, by decide, by decide, by decide⟩

/-- INDEX advances past a slot, and PHASE inverts where it wraps (R71). -/
def ringAdvance (R : RingRegs) (s : State) : State :=
  if (s.getF R.prod + 1) % ringSize R s = 0 then
    (s.setF R.prod ((s.getF R.prod + 1) % ringSize R s)).setB R.phase (!(s.setF R.prod ((s.getF R.prod + 1) % ringSize R s)).isF R.phase)
  else s.setF R.prod ((s.getF R.prod + 1) % ringSize R s)

/-- Where the next slot is written. -/
def slotAt (R : RingRegs) (s : State) : Nat := s.get64 R.base + s.getF R.prod * R.slot

/-- A slot is written, INDEX advances, the slot is unconsumed from now on, and the condition is looked at (R71, R78). -/
theorem ringPut_eq (R : RingRegs) (bs : Bool → Bytes) (s : State) : ringPut R bs s =
    ringSignal R ((ringAdvance R (s.dma (slotAt R s) (bs (s.isF R.phase)))).setRing R.id
      { (ringAdvance R (s.dma (slotAt R s) (bs (s.isF R.phase)))).ringDyn R.id with
        times := ((ringAdvance R (s.dma (slotAt R s) (bs (s.isF R.phase)))).ringDyn R.id).times ++
          [(ringAdvance R (s.dma (slotAt R s) (bs (s.isF R.phase)))).dtt] }) := rfl

section

variable {R : RingRegs}

theorem ringSize_pos (R : RingRegs) (s : State) : 0 < ringSize R s := Nat.two_pow_pos _

theorem ringSize_le {s : State} (h : s.getF R.log ≤ 16) : ringSize R s ≤ 2 ^ 16 := Nat.pow_le_pow_right (by decide) h

theorem ringAdvance_prod (h : RingPlaced R) (s : State) : (ringAdvance R s).getF R.prod = (s.getF R.prod + 1) % ringSize R s % 2 ^ 16 := by
  have hset : (s.setF R.prod ((s.getF R.prod + 1) % ringSize R s)).getF R.prod = (s.getF R.prod + 1) % ringSize R s % 2 ^ 16 := by
    rw [getF_setF_same, h.prodWidth]
  unfold ringAdvance
  split
  · exact read_setB h.phaseProd.symm hset
  · exact hset

theorem ringAdvance_phase (h : RingPlaced R) (s : State) :
    (ringAdvance R s).isF R.phase = (if (s.getF R.prod + 1) % ringSize R s = 0 then !s.isF R.phase else s.isF R.phase) := by
  unfold ringAdvance
  split
  · rw [isF_setB_same _ _ _ h.phaseWidth, isF_setF_ne _ _ h.phaseProd]
  · rw [isF_setF_ne _ _ h.phaseProd]

theorem ringAdvance_cons (h : RingPlaced R) (s : State) : (ringAdvance R s).getF R.cons = s.getF R.cons := by
  unfold ringAdvance
  split
  · exact read_setB h.consPhase (getF_setF_ne s _ h.consProd)
  · exact getF_setF_ne s _ h.consProd

@[simp] theorem ringAdvance_hostMem (R : RingRegs) (s : State) : (ringAdvance R s).hostMem = s.hostMem := by
  unfold ringAdvance
  split <;> rfl

theorem ringPut_getF (bs : Bool → Bytes) (s : State) {f : Fld} (hirq : f.key ≠ Reg.hstIrqStatusEvr.key) :
    (ringPut R bs s).getF f = (ringAdvance R (s.dma (slotAt R s) (bs (s.isF R.phase)))).getF f := by
  rw [ringPut_eq, ringSignal_getF _ _ hirq]
  exact getF_of_regs (State.setRing_regs _ _ _) f

theorem ringPut_prod (h : RingPlaced R) (bs : Bool → Bytes) (s : State) :
    (ringPut R bs s).getF R.prod = (s.getF R.prod + 1) % ringSize R s % 2 ^ 16 :=
  (ringPut_getF bs s h.prodIrq).trans (ringAdvance_prod h _)

theorem ringPut_phase (h : RingPlaced R) (bs : Bool → Bytes) (s : State) :
    (ringPut R bs s).isF R.phase = (if (s.getF R.prod + 1) % ringSize R s = 0 then !s.isF R.phase else s.isF R.phase) :=
  (isF_of_getF (ringPut_getF bs s h.phaseIrq)).trans (ringAdvance_phase h _)

theorem ringPut_cons (h : RingPlaced R) (bs : Bool → Bytes) (s : State) : (ringPut R bs s).getF R.cons = s.getF R.cons :=
  (ringPut_getF bs s h.consIrq).trans (ringAdvance_cons h _)

theorem ringPut_hostMem (R : RingRegs) (bs : Bool → Bytes) (s : State) :
    (ringPut R bs s).hostMem = memWriteBytes s.hostMem (slotAt R s) (bs (s.isF R.phase)) := by
  rw [ringPut_eq, ringSignal_hostMem, State.setRing_hostMem, ringAdvance_hostMem]
  rfl

/-! ### Slots returned -/

/-- An index of the ring's size or more returns nothing (R74). -/
theorem ringConsume_beyond {ix : Nat} {s : State} (h : ringSize R s ≤ ix) : ringConsume R ix s = (false, s) := if_pos h

/-- An index below the ring's size is taken (R74). -/
theorem ringConsume_within {ix : Nat} {s : State} (h : ix < ringSize R s) :
    ∃ d, ringConsume R ix s = (true, ringSignal R ((s.setF R.cons ix).setRing R.id d)) := ⟨_, if_neg (Nat.not_le.2 h)⟩

theorem ringConsume_cons (hR : RingPlaced R) {ix : Nat} {s : State} (h : ix < ringSize R s) : (ringConsume R ix s).2.getF R.cons = ix % 2 ^ 16 := by
  obtain ⟨d, hd⟩ := ringConsume_within h
  rw [hd]
  refine (ringSignal_getF _ _ hR.consIrq).trans ?_
  rw [getF_of_regs (State.setRing_regs _ _ _), getF_setF_same, hR.consWidth]

theorem ringConsume_prod (hR : RingPlaced R) (ix : Nat) (s : State) : (ringConsume R ix s).2.getF R.prod = s.getF R.prod := by
  rcases Nat.lt_or_ge ix (ringSize R s) with h | h
  · obtain ⟨d, hd⟩ := ringConsume_within h
    rw [hd]
    refine (ringSignal_getF _ _ hR.prodIrq).trans ?_
    rw [getF_of_regs (State.setRing_regs _ _ _), getF_setF_ne _ _ hR.consProd.symm]
  · rw [ringConsume_beyond h]

end

/-- The rings of R71 to R78 that the event unit, the mailbox, sessions and learning use: their registers have places of their own, in the blocks of
those parts. -/
theorem hostRing_placed {R : RingRegs} (h : R ∈ [evrRing, ttRing, learnRing, cqRing 0, cqRing 1]) :
    RingPlaced R ∧ ∃ b, RingIn b R ∧ Sub (2 ^ b ||| 3355443200) (partMask [.rHst, .rMbx, .rTt, .rFt, .hostMem, .rings, .bus]) := by
  simp only [List.mem_cons, List.not_mem_nil, or_false] at h
  rcases h with rfl | rfl | rfl | rfl | rfl
  · exact ⟨evrRing_placed, 0, ring_evr, sub_of rfl⟩
  · exact ⟨ttRing_placed, 8, ring_tt, sub_of rfl⟩
  · exact ⟨learnRing_placed, 12, ring_learn, sub_of rfl⟩
  · exact ⟨cqRing_placed 0 (by decide), 2, ring_cq, sub_of rfl⟩
  · exact ⟨cqRing_placed 1 (by decide), 2, ring_cq, sub_of rfl⟩

/-- Settles O15: with at most 2^16 slots the indexes fit their fields, and each clause is the ring operation's own lemma. -/
theorem ringOperations : Obligations.RingOperations := by
  intro R hR bs ix s _ hlog
  obtain ⟨hplaced, b, hin, hmask⟩ := hostRing_placed hR
  have hsize : ringSize R s ≤ 2 ^ 16 := ringSize_le hlog
  refine ⟨?_, ringPut_phase hplaced bs s, ?_, ?_, ringPut_cons hplaced bs s, ?_, ringConsume_beyond, ringSignal_signalled⟩
  · rw [ringPut_prod hplaced]
    exact Nat.mod_eq_of_lt (Nat.lt_of_lt_of_le (Nat.mod_lt _ (ringSize_pos R s)) hsize)
  · intro k hend hk
    rw [ringPut_hostMem]
    exact memRead_memWriteBytes hend hk
  · exact ringPut_k (frame_keeps _ s) b hin hmask (FrameOf.refl _ s)
  · intro hix
    obtain ⟨d, hd⟩ := ringConsume_within hix
    refine ⟨by rw [hd], ?_, ringConsume_prod hplaced ix s⟩
    rw [ringConsume_cons hplaced hix]
    exact Nat.mod_eq_of_lt (Nat.lt_of_lt_of_le hix hsize)

end Sys2Proof.Machine

/-! SUPPORT. A held event record passes to the event ring (R71, R76): INDEX is a field of 16 bits, so it wraps at 2^16 in a ring of any size. -/

namespace Sys2Proof.Machine

/-- With an empty internal buffer nothing drains. -/
theorem evrDrain_empty {s : State} (h : s.evu.buf = []) (n : Nat) : evrDrain n s = s := by
  cases n with
  | zero => rfl
  | succ n =>
    rw [evrDrain, h]
    split <;> rfl

/-- The state in which a record that passes has taken the next SEQ. -/
def seqTaken (s : State) : State := { s with evu := { s.evu with nextSeq := (s.evu.nextSeq + 1) % 2 ^ 32 } }

/-- With an empty buffer and room in the ring a record that passes is written. -/
theorem evrPass_writes {s : State} (hbuf : s.evu.buf = []) (husable : ringUsable evrRing s = true) (hfull : ringFull evrRing s = false) (e : EventRec) :
    evrPass e s = evrWrite { e with seq := s.evu.nextSeq } (seqTaken s) := by
  have hdrain : evrDrain 513 (seqTaken s) = seqTaken s := evrDrain_empty (s := seqTaken s) hbuf 513
  have hroom : ((seqTaken s).evu.buf = [] && ringUsable evrRing (seqTaken s) && !ringFull evrRing (seqTaken s)) = true := by
    rw [show (seqTaken s).evu.buf = [] from hbuf, show ringUsable evrRing (seqTaken s) = true from husable,
      show ringFull evrRing (seqTaken s) = false from hfull]
    rfl
  unfold evrPass
  extract_lets e' evu taken drained
  have hdrained : drained = seqTaken s := hdrain
  rw [hdrained]
  exact if_pos hroom

/-- A record written is put into the ring and counted. -/
theorem evrWrite_counts {s : State} (herrs : s.mp.errs = []) (e : EventRec) :
    ∃ f u, u.regs = s.regs ∧ evrWrite e s = countRaw (devCtr 29) 1 (ringPut evrRing f u) := by
  unfold evrWrite
  extract_lets loss newest s1
  refine ⟨fun ph => e.encode ph loss, s1, rfl, count_clean ?_ _ _⟩
  have hmp : (ringPut evrRing (fun ph => e.encode ph loss) s1).mp = s1.mp :=
    ringPut_k (same_keeps .mp s1) 0 ring_evr (sub_of rfl) (Part.same_refl .mp s1)
  rw [hmp]
  exact herrs

/-- A record written advances INDEX, in its 16 bits. -/
theorem evrWrite_prod {s : State} (herrs : s.mp.errs = []) (e : EventRec) :
    (evrWrite e s).getF Reg.hstEvrProdIndex = (s.getF Reg.hstEvrProdIndex + 1) % ringSize evrRing s % 2 ^ 16 := by
  obtain ⟨f, u, hregs, hwrite⟩ := evrWrite_counts herrs e
  rw [hwrite, countRaw_getF _ _ _ (by decide), ← getF_of_regs hregs, show ringSize evrRing s = ringSize evrRing u by
    unfold ringSize; rw [getF_of_regs hregs]]
  exact ringPut_prod evrRing_placed f u

/-- EVENT_RECORD_WRITE of a record that has been held for 2,048 ticks, with room in the ring, advances INDEX in its 16 bits. -/
theorem eventRecordWrite_prod {s : State} {e : EventRec} (hheld : firstHeld s.evu.held = some e) (hdue : e.stamp + 2048 ≤ s.dtt) (hbuf : s.evu.buf = [])
    (herrs : s.mp.errs = []) (husable : ringUsable evrRing s = true) (hfull : ringFull evrRing s = false) {t : State}
    (ht : exec .eventRecordWrite s = .next t) :
    t.getF Reg.hstEvrProdIndex = (s.getF Reg.hstEvrProdIndex + 1) % ringSize evrRing s % 2 ^ 16 := by
  have hrun : execEventRecordWrite s = .next t := ht
  unfold execEventRecordWrite at hrun
  rw [hheld] at hrun
  dsimp only at hrun
  rw [if_neg (Nat.not_lt.2 hdue), evrPass_writes (s := { s with evu := { s.evu with held := s.evu.held.erase e } }) hbuf husable hfull] at hrun
  injection hrun with hrun
  rw [← hrun]
  exact evrWrite_prod (s := seqTaken { s with evu := { s.evu with held := s.evu.held.erase e } }) herrs _

/-! ### A ring of more than 2^16 slots -/

/-- A record held since tick 0. -/
def heldRecord : EventRec := ⟨0, 131, 1, 1, 0, false, 0, [], false, 0⟩

/-- An event ring in use with LOG2SZ 17 and INDEX 65,535, and one record whose hold is over. A write of the configuration with that size sets CFG_ERR,
but nothing in the statement keeps such a state out. -/
def ringPastIndex : State :=
  { ((State.reset.setB Reg.hstEvrCfgEn true).setF Reg.hstEvrCfgLog2sz 17).setF Reg.hstEvrProdIndex 65535 with
    dtt := 2048, evu := ⟨[heldRecord], [], 0, false, none⟩ }

/-- Refutes O16: with LOG2SZ 17 and INDEX 65,535 the record written takes INDEX to 0 and not to 65,536, which its 16 bits do not hold. -/
theorem not_eventRecordsPassInOrder : ¬ Obligations.EventRecordsPassInOrder := by
  unfold Obligations.EventRecordsPassInOrder
  rintro ⟨-, -, hwritten, -⟩
  have hheld : firstHeld ringPastIndex.evu.held = some heldRecord := rfl
  have husable : ringUsable evrRing ringPastIndex = true := by decide +kernel
  have hfull : ringFull evrRing ringPastIndex = false := by decide +kernel
  have hindex : ringPastIndex.getF Reg.hstEvrProdIndex = 65535 := by decide +kernel
  have hsize : ringSize evrRing ringPastIndex = 131072 := by decide +kernel
  obtain ⟨t, ht, hprod, -⟩ := hwritten heldRecord ringPastIndex hheld (by decide) rfl rfl husable hfull
  rw [eventRecordWrite_prod hheld (by decide) rfl rfl husable hfull ht, hindex, hsize] at hprod
  exact absurd hprod (by decide)

end Sys2Proof.Machine

/-! SUPPORT. The doorbell of a net ring (R545, R546): the ring has up to 2^20 slots, and its consumer index is a field of 20 bits. -/

namespace Sys2Proof.Machine

/-- A net ring's signal writes no register. -/
@[simp] theorem nrSignal_regs (n : Nat) (s : State) : (nrSignal n s).regs = s.regs := by
  unfold nrSignal
  extract_lets ring dyn met
  exact ite_k (P := fun t => t.regs = s.regs) (State.signalVector_regs _ _) rfl

/-- A doorbell value below the ring's size is the consumer index, in its 20 bits. -/
theorem nrDoorbell_cons {n v : Nat} {s : State} (h : v < nrSize n s) : (nrDoorbell n v s).2.getF (Reg.capNrConsIndex n) = v % 2 ^ 20 := by
  unfold nrDoorbell
  rw [if_neg (Nat.not_le.2 h)]
  dsimp only
  rw [getF_of_regs (nrSignal_regs _ _), getF_of_regs (State.setRing_regs _ _ _), getF_setF_same]
  rfl

/-- A device out of main reset whose net ring 0 has 2^17 slots, as R545 allows. -/
def wideNetRing : State := { State.reset.setF (Reg.capNrCfgLog2sz 0) 17 with boot := { State.reset.boot with inReset := false } }

/-- The host returns the slots of net ring 0 up to slot 65,536. -/
def returnsSlot65536 : Access := ⟨.pcie, 4, 0x100, 15, 65536⟩

/-- Refutes O14: in a net ring of 2^17 slots the doorbell value 65,536 is taken as it is, in a field of 20 bits, and not modulo 2^16. -/
theorem not_ringsAreEnabledAndReturned : ¬ Obligations.RingsAreEnabledAndReturned := by
  unfold Obligations.RingsAreEnabledAndReturned
  rintro ⟨-, -, -, -, -, -, -, -, -, -, -, -, -, hbell, -⟩
  have hfull : FullBell returnsSlot65536 (0x100 + 0x40 * 0) wideNetRing := ⟨rfl, by decide +kernel, rfl, rfl⟩
  have hsize : nrSize 0 wideNetRing = 131072 := by decide +kernel
  have hbelow : returnsSlot65536.data < nrSize 0 wideNetRing := by
    rw [hsize]
    decide
  obtain ⟨t, -, ht, hcons, -⟩ := hbell returnsSlot65536 0 wideNetRing hfull (by decide) hbelow
  have hindex : t.getF (Reg.capNrConsIndex 0) = returnsSlot65536.data % 2 ^ 20 := by
    rw [ht]
    exact nrDoorbell_cons (s := rung returnsSlot65536 wideNetRing) hbelow
  rw [hindex] at hcons
  exact absurd hcons (by decide)

end Sys2Proof.Machine

/-! SUPPORT. What a reset of the host interface leaves (R44, R696, R709). -/

namespace Sys2Proof.Machine

/-- A table from which every entry of a key is gone reads the default there. -/
theorem spGet_filter_dropped {α : Type} (d : α) (l : List (Nat × α)) (q : Nat × α → Bool) (k : Nat) (h : ∀ e, e.1 = k → q e = false) :
    spGet d (l.filter q) k = d := by
  induction l with
  | nil => rfl
  | cons e r ih =>
    by_cases hq : q e = true
    · have hne : e.1 ≠ k := fun he => absurd (h e he) (by simp [hq])
      rw [List.filter_cons_of_pos hq, spGet, if_neg hne, ih]
    · rw [List.filter_cons_of_neg hq, ih]

/-- The host interface's own registers return to their reset values. -/
theorem hostIfReset_getF_reset (s : State) {f : Fld} (h : isHostIf f.addr = true) : (hostIfReset s).getF f = resetOf f.key := by
  rw [State.getF_eq]
  refine spGet_filter_dropped _ s.regs _ _ (fun e he => ?_)
  rw [he, key_div, h]
  rfl

/-- Every other register keeps its value. -/
theorem hostIfReset_getF (s : State) {f : Fld} (h : isHostIf f.addr = false) : (hostIfReset s).getF f = s.getF f := by
  rw [State.getF_eq, State.getF_eq]
  refine spGet_filter _ s.regs _ _ (fun e he => ?_)
  rw [he, key_div, h]
  rfl

theorem hostIfReset_disabled (s : State) {f : Fld} (h : isHostIf f.addr = true) (hreset : resetOf f.key = 0) : (hostIfReset s).isF f = false := by
  rw [State.isF, hostIfReset_getF_reset s h, hreset]
  rfl

/-- What a reset of the host interface leaves: queues, MSI-X table and net rings empty, rings disabled, the commands of queues dropped, all else as it
was. -/
theorem hostIfReset_leaves (s : State) :
    (hostIfReset s).mbx.urgent = ⟨0, [], [], [], false⟩ ∧ (hostIfReset s).mbx.general = ⟨0, [], [], [], false⟩ ∧
    (hostIfReset s).bus.msixTable = [] ∧ (hostIfReset s).bus.pba = 0 ∧ (hostIfReset s).netRings = [] ∧
    (hostIfReset s).isF (Reg.mbxCfgEn 0) = false ∧ (hostIfReset s).isF (Reg.mbxCfgEn 1) = false ∧ (hostIfReset s).isF Reg.hstEvrCfgEn = false ∧
    (hostIfReset s).mbx.longOp = s.mbx.longOp.map (fun o => { o with dropped := o.dropped || fromQueue o.cmd }) ∧
    (hostIfReset s).mbx.held = s.mbx.held.map (fun h => { h with dropped := h.dropped || fromQueue h.cmd }) ∧
    (∀ f : Fld, isHostIf f.addr = false → (hostIfReset s).getF f = s.getF f) ∧
    FrameOf [.rHst, .rMbx, .rCap, .rings, .netRings, .bus, .mbx] s (hostIfReset s) := by
  refine ⟨rfl, rfl, rfl, rfl, rfl, ?_, ?_, ?_, rfl, rfl, fun f hf => hostIfReset_getF s hf, ?_⟩
  · exact hostIfReset_disabled s (by decide) (by decide)
  · exact hostIfReset_disabled s (by decide) (by decide)
  · exact hostIfReset_disabled s (by decide) (by decide)
  · exact hostIfReset_keeps (frame_keeps _ s) (sub_of rfl) (FrameOf.refl _ s)

/-- Settles O19: a function level reset and a loss of the link are one operation, which main reset withholds. -/
theorem hostInterfaceResets : Obligations.HostInterfaceResets := by
  have hflr : ∀ s, exec .hostIfReset s = whileUp hostIfReset s := fun _ => rfl
  have hperst : ∀ s, exec .pciePerst s = whileUp hostIfReset s := fun _ => rfl
  refine ⟨fun s hup => ?_, fun s hup => ?_, fun s hreset => ?_⟩
  · exact ⟨hostIfReset s, (hflr s).trans (whileUp_up hup), hostIfReset_leaves s⟩
  · exact ⟨hostIfReset s, (hperst s).trans (whileUp_up hup), hostIfReset_leaves s⟩
  · exact ⟨(hflr s).trans (whileUp_inReset hreset), (hperst s).trans (whileUp_inReset hreset)⟩

end Sys2Proof.Machine

/-! SUPPORT. The SMBus target (R79 to R83). -/

namespace Sys2Proof.Machine

/-- A block read at the device's address is acknowledged and answered (R79). -/
theorem smbRead_mine {addr : Nat} {s : State} (hup : s.boot.inReset = false) (h : addr = s.boot.board.smbAddr) (f : State → State) :
    smbRead addr f s = .next (f (smbNack false s)) := by
  have hmine : smbMine addr s = true := decide_eq_true h
  simp only [smbRead, whileUp_up hup, hmine, if_true]

theorem smbRead_other {addr : Nat} {s : State} (hup : s.boot.inReset = false) (h : addr ≠ s.boot.board.smbAddr) (f : State → State) :
    smbRead addr f s = .next (smbNack true s) := by
  have hmine : smbMine addr s = false := decide_eq_false h
  simp only [smbRead, whileUp_up hup, hmine, Bool.false_eq_true, if_false]

/-- A block write at the device's address with a right PEC is acknowledged and has its effect (R79). -/
theorem smbWrite_mine {addr : Nat} {s : State} (hup : s.boot.inReset = false) (h : addr = s.boot.board.smbAddr) (f : State → State) :
    smbWrite addr true f s = .next (f (smbNack false s)) := by
  have hmine : smbMine addr s = true := decide_eq_true h
  simp only [smbWrite, whileUp_up hup, hmine, Bool.and_self, if_true]

theorem smbWrite_other {addr : Nat} {s : State} (hup : s.boot.inReset = false) (h : addr ≠ s.boot.board.smbAddr) (good : Bool) (f : State → State) :
    smbWrite addr good f s = .next (smbNack true s) := by
  have hmine : smbMine addr s = false := decide_eq_false h
  simp only [smbWrite, whileUp_up hup, hmine, Bool.false_and, Bool.false_eq_true, if_false]

theorem smbWrite_wrongPec {s : State} (hup : s.boot.inReset = false) (addr : Nat) (f : State → State) :
    smbWrite addr false f s = .next (smbNack true s) := by
  simp only [smbWrite, whileUp_up hup, Bool.and_false, Bool.false_eq_true, if_false]

/-- Only JTAG is shut out by the owner lock (R681). -/
theorem jtagShut_other {a : Access} (h : a.path ≠ .jtag) (w : Bool) (s : State) : jtagShut a w s = false := by
  simp [jtagShut, h]

/-- The blocks of SMBus command 0x11 hold no PTS register (R81). -/
theorem ptsShut_smbBlock {off : Nat} (h : smbBlock off = true) (s : State) : ptsShut off s = false := by
  refine ptsShut_outside ?_ s
  simp only [smbBlock, Bool.or_eq_true, Bool.and_eq_true, decide_eq_true_eq] at h
  omega

/-- A read of a plain register answers the bytes enabled of its word (R50). -/
theorem readBar0_plain {off : Nat} {d : RegDesc} {s : State} (hreg : regAt off = some d) (hkind : d.kind = .plain) (hopen : ptsShut off s = false)
    (hcounter : ¬(0x900000 ≤ off ∧ off < 0xA00000)) (p : Path) : readBar0 p off s = some (s.regWord off, s) := by
  have halign : ¬off % 4 ≠ 0 := not_not.2 (regAt_aligned hreg)
  have hcount : ¬(0x900000 ≤ off ∧ off < 0x930000) := by omega
  have hwindow : ¬(0x980000 ≤ off ∧ off < 0x982000) := by omega
  unfold readBar0
  simp [halign, hcount, hwindow, hreg, hkind, hopen]

/-- Command 0x11 reads a plain register of its blocks as any requester does. -/
theorem busRead_smb_plain {off : Nat} {d : RegDesc} {s : State} (hblock : smbBlock off = true) (hreg : regAt off = some d) (hkind : d.kind = .plain)
    (hcounter : ¬(0x900000 ≤ off ∧ off < 0xA00000)) : busRead ⟨.smbus, 0, off, 15, 0⟩ [] s = answered (le 4 (s.regWord off % 2 ^ 32)) s := by
  have hread : readWord ⟨.smbus, 0, off, 15, 0⟩ s = (s.regWord off % 2 ^ 32, s) := by
    have hjtag : jtagShut ⟨.smbus, 0, off, 15, 0⟩ false s = false := jtagShut_other (by simp) false s
    unfold readWord
    simp [hjtag, readBar0_plain hreg hkind (ptsShut_smbBlock hblock s) hcounter, maskBytes_full (be := 15) rfl]
  rw [busRead_one, hread]

/-! ### The rows -/

section

variable (addr : Nat) (s : State)

theorem smbusIdentityRead_row : exec (.smbusIdentityRead addr) s = execSmbusIdentityRead addr s := rfl
theorem smbusStatusRead_row : exec (.smbusStatusRead addr) s = execSmbusStatusRead addr s := rfl
theorem smbusTemperatureRead_row (high low : Int) : exec (.smbusTemperatureRead addr high low) s = execSmbusTemperatureRead addr high low s := rfl
theorem smbusOffsetWrite_row (good : Bool) (off : Nat) : exec (.smbusOffsetWrite addr good off) s = execSmbusOffsetWrite addr good off s := rfl
theorem smbusRegisterRead_row : exec (.smbusRegisterRead addr) s = execSmbusRegisterRead addr s := rfl
theorem smbusCommandWrite_row (good : Bool) (e : Fetched) : exec (.smbusCommandWrite addr good e) s = execSmbusCommandWrite addr good e s := rfl
theorem smbusCommandStatus_row : exec (.smbusCommandStatus addr) s = execSmbusCommandStatus addr s := rfl

end

section

variable {addr : Nat} {s : State} (hup : s.boot.inReset = false) (haddr : addr = s.boot.board.smbAddr)

include hup haddr

/-- Command 0x11 outside its blocks (R81). -/
theorem smbusRegisterRead_outside (hblock : smbBlock s.bus.smbOffset = false) : exec (.smbusRegisterRead addr) s =
    .next (answered (le 4 (2 ^ 32 - 1)) (accessFault ⟨.smbus, 0, s.bus.smbOffset, 15, 0⟩ false (smbNack false s))) := by
  have hoff : smbBlock (smbNack false s).bus.smbOffset = false := hblock
  rw [smbusRegisterRead_row, execSmbusRegisterRead, smbRead_mine hup haddr]
  simp only [hoff, Bool.false_eq_true, if_false]
  rfl

/-- Command 0x11 within its blocks is a read by the SMBus path (R81). -/
theorem smbusRegisterRead_inside (hblock : smbBlock s.bus.smbOffset = true) : exec (.smbusRegisterRead addr) s =
    .next (busRead ⟨.smbus, 0, s.bus.smbOffset, 15, 0⟩ [] (smbNack false s)) := by
  have hoff : smbBlock (smbNack false s).bus.smbOffset = true := hblock
  rw [smbusRegisterRead_row, execSmbusRegisterRead, smbRead_mine hup haddr]
  simp only [hoff, if_true]
  rfl

/-- Command 0x20 while no entry is in progress (R83). -/
theorem smbusCommandWrite_free (hfree : s.bus.smbBusy = false) (e : Fetched) : exec (.smbusCommandWrite addr true e) s =
    .next (smbTake e (smbNack false s)) := by
  have hbusy : (smbNack false s).bus.smbBusy = false := hfree
  rw [smbusCommandWrite_row, execSmbusCommandWrite, smbWrite_mine hup haddr]
  simp only [hbusy, Bool.false_eq_true, if_false]

/-- Command 0x20 while one is (R83). -/
theorem smbusCommandWrite_busy (hbusy : s.bus.smbBusy = true) (e : Fetched) : exec (.smbusCommandWrite addr true e) s = .next (smbNack true s) := by
  have hbusy : (smbNack false s).bus.smbBusy = true := hbusy
  rw [smbusCommandWrite_row, execSmbusCommandWrite, smbWrite_mine hup haddr]
  simp only [hbusy, if_true]
  rfl

end

/-- A transaction addressed elsewhere has no effect, whatever its command (R79). -/
theorem smbus_elsewhere {addr : Nat} {s : State} (hup : s.boot.inReset = false) (haddr : addr ≠ s.boot.board.smbAddr) {i : Instr} {high low : Int}
    {off : Nat} {good : Bool} {e : Fetched} (hi : i ∈ [.smbusIdentityRead addr, .smbusStatusRead addr, .smbusTemperatureRead addr high low,
      .smbusOffsetWrite addr good off, .smbusRegisterRead addr, .smbusCommandWrite addr good e, .smbusCommandStatus addr]) :
    exec i s = .next (smbNack true s) := by
  simp only [List.mem_cons, List.not_mem_nil, or_false] at hi
  rcases hi with rfl | rfl | rfl | rfl | rfl | rfl | rfl
  · rw [smbusIdentityRead_row, execSmbusIdentityRead, smbRead_other hup haddr]
  · rw [smbusStatusRead_row, execSmbusStatusRead, smbRead_other hup haddr]
  · rw [smbusTemperatureRead_row, execSmbusTemperatureRead, smbRead_other hup haddr]
  · rw [smbusOffsetWrite_row, execSmbusOffsetWrite, smbWrite_other hup haddr]
  · rw [smbusRegisterRead_row, execSmbusRegisterRead, smbRead_other hup haddr]
  · rw [smbusCommandWrite_row, execSmbusCommandWrite, smbWrite_other hup haddr]
  · rw [smbusCommandStatus_row, execSmbusCommandStatus, smbRead_other hup haddr]

/-- Settles O18: each command is a block read or write at the device's address, or one that goes unacknowledged. -/
theorem boardManagementOverSmbus : Obligations.BoardManagementOverSmbus := by
  refine ⟨?_, ?_, ?_, ?_, ?_, ?_, ?_, ?_, ?_, ?_, ?_, ?_⟩
  · intro addr s hup haddr
    rw [smbusIdentityRead_row, execSmbusIdentityRead, smbRead_mine hup haddr]
    rfl
  · intro addr s hup haddr
    rw [smbusStatusRead_row, execSmbusStatusRead, smbRead_mine hup haddr]
    rfl
  · intro addr high low s hup haddr
    rw [smbusTemperatureRead_row, execSmbusTemperatureRead, smbRead_mine hup haddr]
    rfl
  · intro addr off s hup haddr
    rw [smbusOffsetWrite_row, execSmbusOffsetWrite, smbWrite_mine hup haddr]
    rfl
  · intro addr s hup haddr hblock
    exact smbusRegisterRead_outside hup haddr hblock
  · intro addr d s hup haddr hblock _ hreg hkind hcounter
    rw [smbusRegisterRead_inside hup haddr hblock, busRead_smb_plain hblock hreg hkind hcounter]
    rfl
  · intro addr s hup haddr hblock
    exact smbusRegisterRead_inside hup haddr hblock
  · intro addr n s hup haddr hfree
    rw [smbusCommandWrite_free hup haddr hfree]
    rfl
  · intro addr e s hup haddr hbusy
    exact smbusCommandWrite_busy hup haddr hbusy e
  · intro addr s hup haddr
    rw [smbusCommandStatus_row, execSmbusCommandStatus, smbRead_mine hup haddr]
    rfl
  · intro addr i high low off good e s hup haddr hi
    exact smbus_elsewhere hup haddr hi
  · intro addr off e s hup
    refine ⟨?_, ?_⟩
    · rw [smbusOffsetWrite_row, execSmbusOffsetWrite, smbWrite_wrongPec hup]
    · rw [smbusCommandWrite_row, execSmbusCommandWrite, smbWrite_wrongPec hup]

end Sys2Proof.Machine

/-! SUPPORT. Reads that latch, and writes of plain registers (R51, R56 to R58, R66). -/

namespace Sys2Proof.Machine

/-! ### Reads -/

theorem readWord_bar0 {a : Access} {off : Nat} {s : State} (h : SomeRead a off s) {r : Nat × State} (hr : readBar0 a.path a.off s = some r) :
    readWord a s = (maskBytes r.1 a.be, r.2) := by
  obtain ⟨-, hopen, hbar, -, hbe⟩ := h
  unfold readWord
  simp [hbe, hopen, hbar, hr]

/-- Reading _LO answers the low word, and the high word goes into the path's shadow (R57). -/
theorem readPair_lo {off : Nat} (h : off % 8 = 0) (p : Path) (v : Nat) (s : State) : readPair p off v s = (v % 2 ^ 32, latch p (v / 2 ^ 32) s) := if_pos h

/-- LATCHING_LO_READ of one word, where the register answers `v` and leaves the state `t`. -/
theorem latchingLoRead_latches {a : Access} {off : Nat} {s : State} (h : SomeRead a off s) (halign : a.off % 8 = 0) {v : Nat} {t : State}
    (hr : readBar0 a.path a.off s = some (readPair a.path a.off v t)) : exec (.latchingLoRead a []) s = .next (latched a v t) := by
  have hrow : exec (.latchingLoRead a []) s = whileUp (busRead a []) s := rfl
  rw [readPair_lo halign] at hr
  rw [hrow, whileUp_up h.1, busRead_one, readWord_bar0 h hr]
  rfl

section

variable {off : Nat} {d : RegDesc} (hreg : regAt off = some d) (hcounter : ¬(0x900000 ≤ off ∧ off < 0x930000))
  (hwindow : ¬(0x980000 ≤ off ∧ off < 0x982000))

include hreg hcounter hwindow

/-- A latching pair but HST_DTT and AO_TIME holds its value in its two words; in the block of a port that is shut it reads 0. -/
theorem readBar0_latchLo (hkind : d.kind = .latchLo) (hdtt : off ≠ Reg.hstDtt) (hao : off ≠ Reg.aoTime) (p : Path) (s : State) :
    readBar0 p off s = some (readPair p off (if ptsShut off s then 0 else s.get64 off) s) := by
  unfold readBar0
  simp only [regAt_aligned hreg, hcounter, hwindow, hreg, hkind, hdtt, hao, ne_eq, not_true, if_false]
  split <;> rfl

/-- A read of _HI answers the path's shadow (R58). -/
theorem readBar0_latchHi (hkind : d.kind = .latchHi) (p : Path) (s : State) : readBar0 p off s = some (shadowOf p s, s) := by
  unfold readBar0
  simp only [regAt_aligned hreg, hcounter, hwindow, hreg, hkind, ne_eq, not_true, if_false]
  exact ite_self _

end

theorem readBar0_dtt (p : Path) (s : State) : readBar0 p Reg.hstDtt s = some (readPair p Reg.hstDtt s.dtt s) := by
  have hreg : regAt Reg.hstDtt = some ⟨0x10, [], .latchLo, false, [⟨31, 0, .ro, 0⟩]⟩ := rfl
  have hopen := ptsShut_outside (off := Reg.hstDtt) (.inl (by decide)) s
  unfold readBar0
  simp only [hreg, hopen, Bool.false_eq_true, if_false, if_true, show ¬(Reg.hstDtt % 4 ≠ 0) by decide,
    show ¬(0x900000 ≤ Reg.hstDtt ∧ Reg.hstDtt < 0x930000) by decide, show ¬(0x980000 ≤ Reg.hstDtt ∧ Reg.hstDtt < 0x982000) by decide]

/-- AO_TIME is read by the always-on domain's tick, which moves on by a free value. -/
theorem readBar0_aoTime (p : Path) (s : State) : readBar0 p Reg.aoTime s =
    some (readPair p Reg.aoTime ((s.ao.tick + s.draw.1) % 2 ^ 64) { s.draw.2 with ao := { s.ao with tick := (s.ao.tick + s.draw.1) % 2 ^ 64 } }) := by
  have hreg : regAt Reg.aoTime = some ⟨0xc00018, [], .latchLo, false, [⟨31, 0, .ro, 0⟩]⟩ := rfl
  have hopen := ptsShut_outside (off := Reg.aoTime) (.inr (by decide)) s
  unfold readBar0
  simp only [hreg, hopen, Bool.false_eq_true, if_false, if_true, show ¬(Reg.aoTime % 4 ≠ 0) by decide, show ¬(Reg.aoTime = Reg.hstDtt) by decide,
    show ¬(0x900000 ≤ Reg.aoTime ∧ Reg.aoTime < 0x930000) by decide, show ¬(0x980000 ≤ Reg.aoTime ∧ Reg.aoTime < 0x982000) by decide]
  rfl

/-- With no error stored a counter's _LO answers it (R590, R597). -/
theorem readBar0_counter {c : Nat} (hc : c < 24576) (p : Path) {s : State} (herrs : s.mp.errs = []) :
    readBar0 p (0x900000 + 8 * c) s = some (readPair p (0x900000 + 8 * c) (s.counter c) s) := by
  have hread : mpRead (mpWord 9 c) false s = (0, s) := if_pos herrs
  have hindex : (0x900000 + 8 * c - 0x900000) / 8 = c := by omega
  have hlo : (0x900000 + 8 * c) % 8 = 0 := by omega
  unfold readBar0 readCounter
  rw [if_neg (by omega), if_pos (by omega), hindex, if_pos hlo]
  dsimp only
  rw [hread]

/-! ### Words in a TLP -/

/-- Whether a write of two words to `a` takes effect as one (R60). -/
def atOnce (a : Access) (more : List (Nat × Nat)) : Prop := isPair a = true ∧ a.off % 8 = 0 ∧ more.length = 1

/-- A write of several words is its words in ascending order, but for a 64-bit write to an RW pair and one to the doorbells (R53, R54, R60). -/
theorem busWrite_words {a : Access} {more : List (Nat × Nat)} {s : State} (hbell : ¬(a.bar = 4 ∧ a.off < 0x1000))
    (hpair : jtagShut a true s = true ∨ ¬atOnce a more) : busWrite a more s = writeMore a more (writeWord a [] s) := by
  have hshort : (a.bar = 4 && decide (a.off < 0x1000) && decide (more ≠ [])) = false := by
    simp only [Bool.and_eq_false_iff, decide_eq_false_iff_not]
    tauto
  unfold busWrite
  simp only [hshort, Bool.false_eq_true, if_false]
  split
  · rfl
  · rename_i hjtag
    match more with
    | [] => rfl
    | [(be, v)] =>
      have hno : ¬((isPair a && decide (a.off % 8 = 0)) = true) := by
        intro h
        rw [Bool.and_eq_true, decide_eq_true_eq] at h
        exact hpair.elim hjtag (fun hn => hn ⟨h.1, h.2, rfl⟩)
      exact if_neg hno
    | _ :: _ :: _ => rfl

/-- A 64-bit write to an aligned RW pair stages _LO and takes both words (R60). -/
theorem busWrite_pair {a : Access} {be v : Nat} {s : State} (hjtag : jtagShut a true s = false) (hbar : a.bar = 0) (hpair : isPair a = true)
    (halign : a.off % 8 = 0) :
    busWrite a [(be, v)] s = pairCommit a.off v be (stage a.off (some (mergeBytes (s.regWord a.off) a.data a.be)) s) := by
  unfold busWrite
  simp [hjtag, hbar, hpair, halign]

/-! ### Writes past the access rules -/

/-- A write comes past the access rules of its register: no guard keeps its path out, and a write can change the register (R56, R675). -/
def Taken (a : Access) (d : RegDesc) (s : State) : Prop := AtReg a d s ∧ (isCore a.path && guarded a.off) = false ∧ readOnly d = false

theorem FullWrite.atReg {a : Access} {off : Nat} {s : State} (h : FullWrite a off s) {d : RegDesc} (hreg : regAt a.off = some d)
    (hopen : ptsShut a.off s = false) : AtReg a d s := by
  obtain ⟨-, -, -, -, hbe⟩ := h
  exact ⟨hreg, hopen, fun _ => hbe⟩

/-- GD_LOCK and TB_SNAP_CTRL are plain registers. -/
theorem regAt_kind_of_special {off : Nat} {d : RegDesc} (hreg : regAt off = some d) (hkind : d.kind ≠ .plain) : off ≠ 0x10000 ∧ off ≠ 0x100040 := by
  have hplain : ∀ n ∈ [0x10000, 0x100040], ∀ e, regAt n = some e → e.kind = .plain := by
    intro n hn e he
    have hall : [0x10000, 0x100040].all (fun n => (regAt n).all (fun e => e.kind = .plain)) = true := by decide
    have := List.all_eq_true.1 hall n hn
    rw [he] at this
    exact of_decide_eq_true this
  exact ⟨fun h => hkind (hplain off (by simp [h]) d hreg), fun h => hkind (hplain off (by simp [h]) d hreg)⟩

/-- What a write past the access rules does (R56, R60, R61, R64, R141). -/
def takeWrite (a : Access) (d : RegDesc) (s : State) : State :=
  if a.off = 0x10000 then
    if bit a.data 0 then s.setB Reg.gdLockLock true else if s.isF Reg.gdLockLock then discarded a.off a.path .lkClear a.data s else s
  else if a.off = 0x100040 then snapWritten a.data a.be s
  else match d.kind with
    | .keyA => writeKeyA a.off a.path a.data s
    | .keyB => writeKeyB (keyOff a.off) a.path a.data s
    | .pairLo => stage a.off (some (mergeBytes ((staged a.off s).getD (s.regWord a.off)) a.data a.be)) s
    | .pairHi => pairCommit (a.off - 4) a.data a.be s
    | _ =>
      match writeIndex a.off a.data s with
      | some r => if r.1 then r.2 else accessFault a true s
      | none => written a.off s (writeFields a.off a.data a.be d s)

theorem Taken.writeBar0_eq {a : Access} {d : RegDesc} {s : State} (h : Taken a d s) : writeBar0 a s = takeWrite a d s := by
  obtain ⟨hat, hg, hro⟩ := h
  have hbytes := hat.enabled
  obtain ⟨hreg, hopen, -⟩ := hat
  have halign : (a.off % 4 ≠ 0) = False := by simp [regAt_aligned hreg]
  unfold guarded at hg
  unfold writeBar0
  simp only [halign, hreg, hopen, hbytes, hg, hro, Bool.false_eq_true, if_false]
  rfl

theorem takeWrite_gdLock {a : Access} (h : a.off = 0x10000) (d : RegDesc) (s : State) : takeWrite a d s =
    if bit a.data 0 then s.setF Reg.gdLockLock 1 else if s.isF Reg.gdLockLock then discarded 0x10000 a.path .lkClear a.data s else s := by
  rw [takeWrite, if_pos h, h]
  rfl

section

variable {a : Access} {d : RegDesc} (hreg : regAt a.off = some d) (s : State)

include hreg

theorem takeWrite_keyA (hkind : d.kind = .keyA) : takeWrite a d s = writeKeyA a.off a.path a.data s := by
  obtain ⟨hlock, hsnap⟩ := regAt_kind_of_special hreg (by simp [hkind])
  simp only [takeWrite, hlock, hsnap, hkind, if_false]

theorem takeWrite_keyB (hkind : d.kind = .keyB) : takeWrite a d s = writeKeyB (keyOff a.off) a.path a.data s := by
  obtain ⟨hlock, hsnap⟩ := regAt_kind_of_special hreg (by simp [hkind])
  simp only [takeWrite, hlock, hsnap, hkind, if_false]

theorem takeWrite_pairLo (hkind : d.kind = .pairLo) : takeWrite a d s =
    stage a.off (some (mergeBytes ((staged a.off s).getD (s.regWord a.off)) a.data a.be)) s := by
  obtain ⟨hlock, hsnap⟩ := regAt_kind_of_special hreg (by simp [hkind])
  simp only [takeWrite, hlock, hsnap, hkind, if_false]

theorem takeWrite_pairHi (hkind : d.kind = .pairHi) : takeWrite a d s = pairCommit (a.off - 4) a.data a.be s := by
  obtain ⟨hlock, hsnap⟩ := regAt_kind_of_special hreg (by simp [hkind])
  simp only [takeWrite, hlock, hsnap, hkind, if_false]

end

theorem takeWrite_plain {a : Access} {d : RegDesc} {s : State} (hlock : a.off ≠ 0x10000) (hsnap : a.off ≠ 0x100040) (hkind : d.kind = .plain)
    (hindex : writeIndex a.off a.data s = none) : takeWrite a d s = written a.off s (writeFields a.off a.data a.be d s) := by
  simp only [takeWrite, hlock, hsnap, hkind, hindex, if_false]

end Sys2Proof.Machine

/-! SUPPORT. Writable and keyed pairs of registers (R60 to R65, R674, R675, R698). -/

namespace Sys2Proof.Machine

/-! ### Pairs on the map -/

/-- A register of the map with a property. -/
theorem exists_regAt {off : Nat} {p : RegDesc → Bool} (h : (regAt off).any p = true) : ∃ d, regAt off = some d ∧ p d = true := by
  cases hreg : regAt off with
  | none => simp [hreg] at h
  | some d => exact ⟨d, rfl, by simpa [hreg] using h⟩

/-- The two words of an RW pair: no W32 registers, of one field each, which no guard keeps. -/
theorem rwPairs_regs : rwPairs.all (fun off =>
    (regAt off).any (fun d => d.kind = .pairLo && d.w32 = false && readOnly d = false && d.fields = [⟨31, 0, .rw, 0⟩]) &&
    (regAt (off + 4)).any (fun d => d.kind = .pairHi && d.w32 = false && readOnly d = false) &&
    !guarded off && !guarded (off + 4) && off % 8 = 0 && (off + 4 < 0x200000 || 0x20C000 ≤ off)) = true := by decide

/-- The two words of a keyed pair: guarded registers that a write can change. -/
theorem keyedPairs_regs : keyedPairs.all (fun off =>
    (regAt off).any (fun d => d.kind = .keyA && readOnly d = false) && (regAt (off + 4)).any (fun d => d.kind = .keyB && readOnly d = false) &&
    guarded off && guarded (off + 4) && off % 8 = 0 && off + 4 < 0x200000) = true := by decide

/-- What the map says of the RW pair whose _LO word is at `off`. -/
structure RwPair (off : Nat) : Prop where
  lo : ∃ d, regAt off = some d ∧ d.kind = .pairLo ∧ d.w32 = false ∧ readOnly d = false ∧ d.fields = [⟨31, 0, .rw, 0⟩]
  hi : ∃ d, regAt (off + 4) = some d ∧ d.kind = .pairHi ∧ d.w32 = false ∧ readOnly d = false
  guardLo : guarded off = false
  guardHi : guarded (off + 4) = false
  align : off % 8 = 0
  openLo : ∀ s, ptsShut off s = false
  openHi : ∀ s, ptsShut (off + 4) s = false

theorem rwPair {off : Nat} (h : off ∈ rwPairs) : RwPair off := by
  have hall := List.all_eq_true.1 rwPairs_regs off h
  simp only [Bool.and_eq_true, Bool.or_eq_true, Bool.not_eq_true', decide_eq_true_eq] at hall
  obtain ⟨⟨⟨⟨⟨hlo, hhi⟩, hglo⟩, hghi⟩, halign⟩, hplace⟩ := hall
  obtain ⟨d, hd, hdp⟩ := exists_regAt hlo
  obtain ⟨e, he, hep⟩ := exists_regAt hhi
  simp only [Bool.and_eq_true, decide_eq_true_eq] at hdp hep
  obtain ⟨⟨⟨hk, hw⟩, hro⟩, hf⟩ := hdp
  obtain ⟨⟨hk', hw'⟩, hro'⟩ := hep
  exact ⟨⟨d, hd, hk, hw, hro, hf⟩, ⟨e, he, hk', hw', hro'⟩, hglo, hghi, halign, ptsShut_outside (by omega), ptsShut_outside (by omega)⟩

/-- What the map says of the keyed pair whose _A word is at `off`. -/
structure KeyedPair (off : Nat) : Prop where
  a : ∃ d, regAt off = some d ∧ d.kind = .keyA ∧ readOnly d = false
  b : ∃ d, regAt (off + 4) = some d ∧ d.kind = .keyB ∧ readOnly d = false
  guardA : guarded off = true
  guardB : guarded (off + 4) = true
  align : off % 8 = 0
  openA : ∀ s, ptsShut off s = false
  openB : ∀ s, ptsShut (off + 4) s = false

theorem keyedPair {off : Nat} (h : off ∈ keyedPairs) : KeyedPair off := by
  have hall := List.all_eq_true.1 keyedPairs_regs off h
  simp only [Bool.and_eq_true, decide_eq_true_eq] at hall
  obtain ⟨⟨⟨⟨⟨ha, hb⟩, hga⟩, hgb⟩, halign⟩, hplace⟩ := hall
  obtain ⟨d, hd, hdp⟩ := exists_regAt ha
  obtain ⟨e, he, hep⟩ := exists_regAt hb
  simp only [Bool.and_eq_true, decide_eq_true_eq] at hdp hep
  exact ⟨⟨d, hd, hdp⟩, ⟨e, he, hep⟩, hga, hgb, halign, ptsShut_outside (.inl (by omega)), ptsShut_outside (.inl hplace)⟩

/-! ### RW pairs -/

/-- A register of one field is that field's word. -/
theorem regWord_whole {off : Nat} {d : RegDesc} (hreg : regAt off = some d) (hf : d.fields = [⟨31, 0, .rw, 0⟩]) (s : State) :
    s.regWord off = s.getF (word off) := by
  unfold State.regWord
  simp only [hreg, hf, List.map_cons, List.map_nil, List.sum_cons, List.sum_nil, Nat.pow_zero, Nat.mul_one, Nat.add_zero]
  rfl

theorem staged_stage (off : Nat) (v : Option Nat) (s : State) : staged off (stage off v s) = v := spGet_spSet_same _ _ _ _

@[simp] theorem stage_regs (off : Nat) (v : Option Nat) (s : State) : (stage off v s).regs = s.regs := rfl

/-- A state that differs from `s` in registers alone still does so after a change of the staging. -/
theorem stage_shape {s t : State} (h : t = { s with regs := t.regs }) (off : Nat) (v : Option Nat) :
    stage off v t = { s with regs := (stage off v t).regs, bus := { s.bus with staging := (stage off v t).bus.staging } } := by
  generalize t.regs = r at h
  subst h
  rfl

theorem setF_setF_shape (f g : Fld) (x y : Nat) (s : State) : (s.setF f x).setF g y = { s with regs := ((s.setF f x).setF g y).regs } := rfl

/-- What a pair reads once it has taken its staged _LO and a written _HI (R60). -/
theorem pairCommit_get64 (off v be : Nat) (s : State) : (pairCommit off v be s).get64 off =
    (staged off s).getD (s.regWord off) % 2 ^ 32 / 4096 * 4096 + 2 ^ 32 * mergeBytes (s.regWord (off + 4)) v be := by
  have hne : (word off).key ≠ (word (off + 4)).key := by
    simp only [Fld.key, word]
    omega
  have hlt := mergeBytes_lt (s.regWord (off + 4)) v be
  unfold pairCommit
  extract_lets lo hi
  rw [State.get64, getF_of_regs (stage_regs _ _ _), getF_of_regs (stage_regs _ _ _), getF_setF_ne _ _ hne, getF_setF_same, getF_setF_same]
  have hwidth : ∀ n, (word n).width = 32 := fun _ => rfl
  have hlo : lo = (staged off s).getD (s.regWord off) := rfl
  have hhi : hi = mergeBytes (s.regWord (off + 4)) v be := rfl
  rw [hwidth, hwidth, ← hlo, ← hhi]
  rw [← hhi] at hlt
  clear_value lo hi
  omega

theorem pairCommit_staged (off v be : Nat) (s : State) : staged off (pairCommit off v be s) = none := staged_stage _ _ _

theorem pairCommit_fields (off v be : Nat) (s : State) : FieldsOf (pair off) s (pairCommit off v be s) :=
  (((FieldsOf.refl (pair off) s).setF (f := word off) (by simp [pair]) _).setF (f := word (off + 4)) (by simp [pair]) _).regs (stage_regs _ _ _)

/-- A pair's commit changes registers and the staging alone, even where the staging has been changed before. -/
theorem pairCommit_shape (off v be : Nat) (s : State) :
    pairCommit off v be s = { s with regs := (pairCommit off v be s).regs, bus := { s.bus with staging := (pairCommit off v be s).bus.staging } } := by
  unfold pairCommit
  extract_lets lo hi
  exact stage_shape (setF_setF_shape _ _ _ _ s) off none

/-! ### Keyed pairs -/

/-- No sequence of the pair and path is open. -/
theorem keySeq_none {off : Nat} {p : Path} {s : State} (h : ∀ k ∈ s.bus.keyed, ¬(k.off = off ∧ k.path = p)) : keySeq off p s = none := by
  refine List.find?_eq_none.2 (fun k hk hof => h k hk ?_)
  simpa [KeySeq.isOf] using hof

/-- A sequence that is still open, or none, does not expire. -/
theorem keyExpire_early {late off : Nat} {p : Path} {s : State} (h : ∀ k, keySeq off p s = some k → s.dtt < k.opened + late) : keyExpire late off p s = s := by
  unfold keyExpire
  split
  · rfl
  · rename_i k hk
    exact if_neg (Nat.not_le.2 (h k hk))

theorem early_of_none {off : Nat} {p : Path} {s : State} (h : keySeq off p s = none) : ∀ k, keySeq off p s = some k → s.dtt < k.opened + 33 := by
  intro k hk
  rw [h] at hk
  cases hk

theorem early_of_some {off : Nat} {p : Path} {s : State} {k : KeySeq} (h : keySeq off p s = some k) (hopen : s.dtt < k.opened + 33) :
    ∀ j, keySeq off p s = some j → s.dtt < j.opened + 33 := by
  intro j hj
  rw [h] at hj
  cases hj
  exact hopen

/-- The state with a sequence opened by an _A write (R61). -/
def keyOpened (off : Nat) (p : Path) (v : Nat) (s : State) : State := { s with bus := { s.bus with keyed := s.bus.keyed ++ [⟨off, p, v, s.dtt⟩] } }

theorem writeKeyA_opens {off : Nat} {p : Path} {s : State} (hlock : s.isF Reg.gdLockLock = false) (hnone : keySeq off p s = none) (v : Nat) :
    writeKeyA off p v s = keyOpened off p v s := by
  rw [writeKeyA, keyExpire_early (early_of_none hnone)]
  simp [hlock, hnone, keyOpened]

theorem writeKeyA_again {off : Nat} {p : Path} {s : State} (hlock : s.isF Reg.gdLockLock = false) {k : KeySeq} (hseq : keySeq off p s = some k)
    (hopen : s.dtt < k.opened + 33) (v : Nat) : writeKeyA off p v s = discarded off p .keyFail v (keyEnd off p s) := by
  rw [writeKeyA, keyExpire_early (early_of_some hseq hopen)]
  simp [hlock, hseq]

theorem writeKeyA_locked {off : Nat} {p : Path} {s : State} (hlock : s.isF Reg.gdLockLock = true)
    (hearly : ∀ k, keySeq off p s = some k → s.dtt < k.opened + 33) (v : Nat) : writeKeyA off p v s = discarded off p .locked v s := by
  rw [writeKeyA, keyExpire_early hearly]
  simp [hlock]

theorem writeKeyB_closes {off : Nat} {p : Path} {s : State} (hlock : s.isF Reg.gdLockLock = false) {k : KeySeq} (hseq : keySeq off p s = some k)
    (hopen : s.dtt < k.opened + 33) (v : Nat) : writeKeyB off p v s =
      if v = 2 ^ 32 - 1 - k.value then keyCommit off k.value (keyEnd off p s) else discarded (off + 4) p .keyFail v (keyEnd off p s) := by
  rw [writeKeyB, keyExpire_early (early_of_some hseq hopen)]
  simp [hlock, hseq]

theorem writeKeyB_unopened {off : Nat} {p : Path} {s : State} (hlock : s.isF Reg.gdLockLock = false) (hnone : keySeq off p s = none) (v : Nat) :
    writeKeyB off p v s = discarded (off + 4) p .keyFail v s := by
  rw [writeKeyB, keyExpire_early (early_of_none hnone)]
  simp [hlock, hnone]

theorem keySeq_keyOpened {off : Nat} {p : Path} {s : State} (hnone : keySeq off p s = none) (v : Nat) :
    keySeq off p (keyOpened off p v s) = some ⟨off, p, v, s.dtt⟩ := by
  unfold keySeq at hnone ⊢
  rw [keyOpened, List.find?_append (xs := s.bus.keyed), hnone]
  simp [KeySeq.isOf]

/-- Ending a sequence that has just been opened leaves the state as it was before. -/
theorem keyEnd_keyOpened {off : Nat} {p : Path} {s : State} (hnone : keySeq off p s = none) (v : Nat) : keyEnd off p (keyOpened off p v s) = s := by
  have hkeep : (s.bus.keyed ++ [(⟨off, p, v, s.dtt⟩ : KeySeq)]).filter (fun k => !k.isOf off p) = s.bus.keyed := by
    have hall : ∀ k ∈ s.bus.keyed, (!k.isOf off p) = true := fun k hk => by simpa using List.find?_eq_none.1 hnone k hk
    rw [List.filter_append, List.filter_eq_self.2 hall]
    simp [KeySeq.isOf]
  rw [keyEnd, keyOpened, hkeep]

/-- An _A write and then the _B write in the same tick (R62). -/
theorem writeKeyB_keyOpened {off : Nat} {p : Path} {s : State} (hlock : s.isF Reg.gdLockLock = false) (hnone : keySeq off p s = none) (v w : Nat) :
    writeKeyB off p w (keyOpened off p v s) = if w = 2 ^ 32 - 1 - v then keyCommit off v s else discarded (off + 4) p .keyFail w s := by
  have hseq := keySeq_keyOpened hnone v
  rw [writeKeyB_closes (s := keyOpened off p v s) hlock hseq (by show s.dtt < s.dtt + 33; omega), keyEnd_keyOpened hnone]

end Sys2Proof.Machine

/-! SUPPORT. The rows that write registers and pairs, and read latching ones (R51 to R66, R674, R698). -/

namespace Sys2Proof.Machine

/-! ### The rows -/

section

variable (a : Access) (s : State)

theorem registerWrite_row (more : List (Nat × Nat)) : exec (.registerWrite a more) s = whileUp (busWrite a more) s := rfl
theorem latchingLoRead_row (more : List Nat) : exec (.latchingLoRead a more) s = whileUp (busRead a more) s := rfl
theorem pairLoWrite_row : exec (.pairLoWrite a) s = whileUp (busWrite a []) s := rfl
theorem pairHiWrite_row : exec (.pairHiWrite a) s = whileUp (busWrite a []) s := rfl
theorem keyedAWrite_row : exec (.keyedAWrite a) s = whileUp (busWrite a []) s := rfl
theorem keyedBWrite_row : exec (.keyedBWrite a) s = whileUp (busWrite a []) s := rfl
theorem keyedPairWrite64_row (be v : Nat) : exec (.keyedPairWrite64 a be v) s = whileUp (busWrite a [(be, v)]) s := rfl
theorem keyedSequenceTimeout_row (off : Nat) (p : Path) : exec (.keyedSequenceTimeout off p) s = whileUp (keyExpire 32 off p) s := rfl
theorem gdLockSet_row : exec (.gdLockSet a) s = whileUp (busWrite a []) s := rfl
theorem hstReset_row (be v : Nat) : exec (.hstReset a be v) s = whileUp (busWrite a [(be, v)]) s := rfl

end

/-! ### Writes of one word -/

/-- A write of one word to BAR0 is its register's. -/
theorem whileUp_oneWord {a : Access} {off : Nat} {s : State} (h : SomeWrite a off s) : whileUp (busWrite a []) s = .next (writeBar0 a s) := by
  have hword := writeWord_bar0 h []
  obtain ⟨hup, -⟩ := h
  rw [whileUp_up hup, busWrite_one, hword]

/-- Main reset, and a write without bytes enabled, leave everything as it is (R51). -/
theorem whileUp_nothing {a : Access} {s : State} (h : s.boot.inReset = true ∨ a.be % 16 = 0) : whileUp (busWrite a []) s = .next s := by
  cases hup : s.boot.inReset with
  | true => exact whileUp_inReset hup
  | false =>
    have hbe : a.be % 16 = 0 := h.resolve_left (by simp [hup])
    rw [whileUp_up hup, busWrite_one, writeWord_disabled hbe]

/-- A core's write to a guarded register (R675, R698). -/
theorem writeWord_locked {a : Access} {d : RegDesc} {s : State} (hat : AtReg a d s) (hcore : isCore a.path = true) (hg : guarded a.off = true)
    (hbar : a.bar = 0) (hbe : a.be % 16 ≠ 0) : writeWord a [] s = discarded a.off a.path .locked a.data s := by
  have hpath : a.path ≠ .jtag := by
    intro hp
    rw [hp] at hcore
    exact absurd hcore (by decide)
  have hopen := jtagShut_other hpath true s
  simp [writeWord, hbe, hbar, hopen, hat.locked hcore hg]

/-- A core writes no plain register of the guard. -/
theorem plain_unguarded {a : Access} {d : RegDesc} (hreg : regAt a.off = some d) (hkind : d.kind = .plain) (hcore : isCore a.path = true → inGd a.off = false) :
    (isCore a.path && guarded a.off) = false := by
  have hkeyed : a.off ≠ 0x30 ∧ a.off ≠ 0x34 := by
    refine ⟨fun h => ?_, fun h => ?_⟩
    all_goals
      rw [h] at hreg
      cases hreg
      exact absurd hkind (by decide)
  cases hc : isCore a.path with
  | false => rfl
  | true => simp [guarded, hcore hc, hkeyed]

/-- A write of a plain register gives its fields their bits and has the register's own consequence (R56, R66). -/
theorem writeBar0_plain {a : Access} {d : RegDesc} {s : State} (hat : AtReg a d s) (hkind : d.kind = .plain) (hro : readOnly d = false)
    (hcore : isCore a.path = true → inGd a.off = false) (hlock : a.off ≠ 0x10000) (hsnap : a.off ≠ 0x100040) (hindex : writeIndex a.off a.data s = none) :
    writeBar0 a s = written a.off s (writeFields a.off a.data a.be d s) := by
  have hreg : regAt a.off = some d := hat.1
  have htaken : Taken a d s := ⟨hat, plain_unguarded hreg hkind hcore, hro⟩
  rw [htaken.writeBar0_eq, takeWrite_plain hlock hsnap hkind hindex]

/-- GD_LOCK is a W32 register that no port shuts. -/
theorem gdLock_atReg {a : Access} {s : State} (h : FullWrite a 0x10000 s) : AtReg a ⟨0x10000, [], .plain, true, [⟨0, 0, .lk, 0⟩]⟩ s := by
  obtain ⟨-, -, -, hoff, hbe⟩ := h
  exact ⟨by rw [hoff]; rfl, ptsShut_outside (by omega) s, fun _ => hbe⟩

/-- GD_LOCK.LOCK sets and stays set (R674). -/
theorem writeBar0_gdLock {a : Access} {s : State} (h : FullWrite a 0x10000 s) (hcore : isCore a.path = false) : writeBar0 a s =
    if bit a.data 0 then s.setF Reg.gdLockLock 1 else if s.isF Reg.gdLockLock then discarded 0x10000 a.path .lkClear a.data s else s := by
  have htaken : Taken a ⟨0x10000, [], .plain, true, [⟨0, 0, .lk, 0⟩]⟩ s := ⟨gdLock_atReg h, by simp [hcore], rfl⟩
  obtain ⟨-, -, -, hoff, -⟩ := h
  rw [htaken.writeBar0_eq, takeWrite_gdLock hoff]

/-! ### RW pairs -/

section

variable {off : Nat} (h : RwPair off) {a : Access} {s : State}

include h

/-- _LO of an RW pair is staged with its enabled bytes (R60). -/
theorem RwPair.writeBar0_lo (hoff : a.off = off) :
    writeBar0 a s = stage a.off (some (mergeBytes ((staged a.off s).getD (s.regWord a.off)) a.data a.be)) s := by
  subst hoff
  obtain ⟨d, hreg, hkind, hw, hro, -⟩ := h.lo
  have htaken : Taken a d s := ⟨⟨hreg, h.openLo s, by simp [hw]⟩, by simp [h.guardLo], hro⟩
  rw [htaken.writeBar0_eq, takeWrite_pairLo hreg s hkind]

/-- _HI of an RW pair takes the pair (R60). -/
theorem RwPair.writeBar0_hi (hoff : a.off = off + 4) : writeBar0 a s = pairCommit off a.data a.be s := by
  obtain ⟨d, hreg, hkind, hw, hro⟩ := h.hi
  have hguard := h.guardHi
  have hopen := h.openHi s
  rw [← hoff] at hreg hguard hopen
  have htaken : Taken a d s := ⟨⟨hreg, hopen, by simp [hw]⟩, by simp [hguard], hro⟩
  have hlo : a.off - 4 = off := by omega
  rw [htaken.writeBar0_eq, takeWrite_pairHi hreg s hkind, hlo]

theorem RwPair.isPair (hbar : a.bar = 0) (hoff : a.off = off) : Machine.isPair a = true := by
  obtain ⟨d, hreg, hkind, -⟩ := h.lo
  simp [Machine.isPair, hbar, hoff, hreg, hkind]

end

/-- A pair's commit changes none but its own fields, even where its staging has been changed before. -/
theorem pairCommit_stage_fields (off v be : Nat) (m : Option Nat) (s : State) : FieldsOf (pair off) s (pairCommit off v be (stage off m s)) := by
  intro f hf
  rw [pairCommit_fields off v be (stage off m s) f hf, getF_of_regs (stage_regs off m s)]

theorem pairCommit_stage_shape (off v be : Nat) (m : Option Nat) (s : State) : pairCommit off v be (stage off m s) =
    { s with regs := (pairCommit off v be (stage off m s)).regs, bus := { s.bus with staging := (pairCommit off v be (stage off m s)).bus.staging } } :=
  pairCommit_shape off v be (stage off m s)

/-! ### Keyed pairs -/

section

variable {off : Nat} (h : KeyedPair off) {a : Access} {s : State}

include h

/-- The _A write of a keyed pair comes past the access rules from every path but a core's. -/
theorem KeyedPair.writeBar0_a (hw : FullWrite a off s) (hcore : isCore a.path = false) : writeBar0 a s = writeKeyA off a.path a.data s := by
  obtain ⟨d, hreg, hkind, hro⟩ := h.a
  obtain ⟨-, -, -, rfl, hbe⟩ := hw
  have htaken : Taken a d s := ⟨⟨hreg, h.openA s, fun _ => hbe⟩, by simp [hcore], hro⟩
  rw [htaken.writeBar0_eq, takeWrite_keyA hreg s hkind]

/-- So does the _B write. -/
theorem KeyedPair.writeBar0_b (hw : FullWrite a (off + 4) s) (hcore : isCore a.path = false) : writeBar0 a s = writeKeyB off a.path a.data s := by
  obtain ⟨d, hreg, hkind, hro⟩ := h.b
  have hopen := h.openB s
  have halign := h.align
  obtain ⟨-, -, -, hoff, hbe⟩ := hw
  rw [← hoff] at hreg hopen
  have htaken : Taken a d s := ⟨⟨hreg, hopen, fun _ => hbe⟩, by simp [hcore], hro⟩
  have hkey : keyOff a.off = off := by
    unfold keyOff
    omega
  rw [htaken.writeBar0_eq, takeWrite_keyB hreg s hkind, hkey]

/-- A core's write to a half of a keyed pair is refused (R675). -/
theorem KeyedPair.locked {n : Nat} (hn : n = off ∨ n = off + 4) (hcore : isCore a.path = true) (hbar : a.bar = 0) (hoff : a.off = n) (hbe : a.be % 16 = 15) :
    writeWord a [] s = discarded n a.path .locked a.data s := by
  have hhalf : ∃ d, regAt n = some d ∧ ptsShut n s = false ∧ guarded n = true := by
    rcases hn with rfl | rfl
    · obtain ⟨d, hreg, -⟩ := h.a
      exact ⟨d, hreg, h.openA s, h.guardA⟩
    · obtain ⟨d, hreg, -⟩ := h.b
      exact ⟨d, hreg, h.openB s, h.guardB⟩
  subst hoff
  obtain ⟨d, hreg, hopen, hguard⟩ := hhalf
  exact writeWord_locked (d := d) ⟨hreg, hopen, fun _ => hbe⟩ hcore hguard hbar (by omega)

theorem KeyedPair.oneWord_locked {n : Nat} (hn : n = off ∨ n = off + 4) (hw : FullWrite a n s) (hcore : isCore a.path = true) :
    whileUp (busWrite a []) s = .next (discarded n a.path .locked a.data s) := by
  obtain ⟨hup, -, hbar, hoff, hbe⟩ := hw
  rw [whileUp_up hup, busWrite_one, h.locked hn hcore hbar hoff hbe]

/-- A 64-bit write to a keyed pair is its two words' writes (R62). -/
theorem KeyedPair.busWrite_both (hbar : a.bar = 0) (hoff : a.off = off) (be v : Nat) :
    busWrite a [(be, v)] s = writeWord { a with off := a.off + 4, be := be, data := v } [] (writeWord a [] s) := by
  obtain ⟨d, hreg, hkind, -⟩ := h.a
  have hno : isPair a = false := by simp [isPair, hbar, hoff, hreg, hkind]
  refine busWrite_words (by simp [hbar]) (.inr fun hatOnce => ?_)
  obtain ⟨hpair, -⟩ := hatOnce
  rw [hno] at hpair
  cases hpair

/-- The two words of a 64-bit write open and close a sequence at once (R62). -/
theorem KeyedPair.write64 (hw : FullWrite a off s) (hcore : isCore a.path = false) (hlock : s.isF Reg.gdLockLock = false)
    (hnone : keySeq off a.path s = none) {be : Nat} (hbe : be % 16 = 15) (v : Nat) : whileUp (busWrite a [(be, v)]) s =
      .next (if v = 2 ^ 32 - 1 - a.data then keyCommit off a.data s else discarded (off + 4) a.path .keyFail v s) := by
  have hfirst : writeWord a [] s = keyOpened off a.path a.data s := by
    rw [writeWord_bar0 hw.someWrite, h.writeBar0_a hw hcore, writeKeyA_opens hlock hnone]
  obtain ⟨hup, hjtag, hbar, hoff, -⟩ := hw
  have hsecond : FullWrite { a with off := a.off + 4, be := be, data := v } (off + 4) (keyOpened off a.path a.data s) :=
    ⟨hup, hjtag, hbar, by rw [hoff], hbe⟩
  rw [whileUp_up hup, h.busWrite_both hbar hoff, hfirst, writeWord_bar0 hsecond.someWrite, h.writeBar0_b hsecond hcore]
  exact congrArg Host.Outcome.next (writeKeyB_keyOpened hlock hnone a.data v)

/-- Both words of a core's 64-bit write are refused (R675). -/
theorem KeyedPair.write64_locked (hw : FullWrite a off s) (hcore : isCore a.path = true) {be : Nat} (hbe : be % 16 = 15) (v : Nat) :
    whileUp (busWrite a [(be, v)]) s = .next (discarded (off + 4) a.path .locked v (discarded off a.path .locked a.data s)) := by
  obtain ⟨hup, -, hbar, hoff, hbe'⟩ := hw
  rw [whileUp_up hup, h.busWrite_both hbar hoff, h.locked (.inl rfl) hcore hbar hoff hbe']
  exact congrArg Host.Outcome.next (h.locked (a := { a with off := a.off + 4, be := be, data := v }) (.inr rfl) hcore hbar (by rw [hoff]) hbe)

end

/-- HST_RESET takes any value, and its value 1 notes the time of the main reset to come (R698). -/
theorem keyCommit_hstReset (v : Nat) (s : State) : keyCommit 0x30 v s =
    if v = 1 then { s.setF (word 0x30) 1 with boot := { s.boot with hstResetAt := some s.dtt } } else s.setF (word 0x30) v := by
  have hstored : keyStored 0x30 v = v := rfl
  unfold keyCommit
  by_cases hv : v = 1
  · subst hv
    rfl
  · simp [hstored, hv]

end Sys2Proof.Machine

/-! O11: writes, latching reads, RW pairs and keyed pairs (R51 to R66, R674, R698). -/

namespace Sys2Proof.Machine

/-! ### The rows of several words -/

/-- A longer write is its first word's write and then the others' (R53). -/
theorem registerWrite_words {a : Access} {be v : Nat} {rest : List (Nat × Nat)} {s : State} (hup : s.boot.inReset = false)
    (hbell : ¬(a.bar = 4 ∧ a.off < 0x1000)) (hpair : rest = [] → isPair a = false ∨ a.off % 8 ≠ 0 ∨ jtagShut a true s = true) :
    ∃ t, exec (.registerWrite a []) s = .next t ∧ exec (.registerWrite a ((be, v) :: rest)) s = .next (writeMore a ((be, v) :: rest) t) := by
  have hshort : jtagShut a true s = true ∨ ¬atOnce a ((be, v) :: rest) := by
    by_cases hrest : rest = []
    · rcases hpair hrest with hno | halign | hjtag
      · exact .inr fun ⟨h, _, _⟩ => by simp [hno] at h
      · exact .inr fun ⟨_, h, _⟩ => halign h
      · exact .inl hjtag
    · exact .inr fun ⟨_, _, h⟩ => hrest (by simpa using h)
  refine ⟨writeWord a [] s, ?_, ?_⟩
  · rw [registerWrite_row, whileUp_up hup, busWrite_one]
  · rw [registerWrite_row, whileUp_up hup, busWrite_words hbell hshort]

/-- A 64-bit write to an RW pair takes both words at once (R60). -/
theorem registerWrite_pair {a : Access} {v : Nat} {s : State} (hw : FullWrite a a.off s) (h : RwPair a.off) :
    ∃ t, exec (.registerWrite a [(15, v)]) s = .next t ∧ t.get64 a.off = a.data % 2 ^ 32 / 4096 * 4096 + 2 ^ 32 * (v % 2 ^ 32) ∧ staged a.off t = none ∧
      FieldsOf (pair a.off) s t ∧ t = { s with regs := t.regs, bus := { s.bus with staging := t.bus.staging } } := by
  obtain ⟨hup, hjtag, hbar, -, hbe⟩ := hw
  refine ⟨_, ?_, ?_, pairCommit_staged _ _ _ _, pairCommit_stage_fields a.off v 15 (some (mergeBytes (s.regWord a.off) a.data a.be)) s,
    pairCommit_stage_shape _ _ _ _ _⟩
  · rw [registerWrite_row, whileUp_up hup, busWrite_pair hjtag hbar (h.isPair hbar rfl) h.align]
  · rw [pairCommit_get64, staged_stage, Option.getD_some, mergeBytes_full hbe, mergeBytes_full rfl, Nat.mod_mod]

/-- The write of _HI takes the staged _LO with it (R60). -/
theorem pairHiWrite_takes {a : Access} {off : Nat} {s : State} (hw : SomeWrite a (off + 4) s) (h : RwPair off) :
    ∃ t, exec (.pairHiWrite a) s = .next t ∧ t.get64 off = (staged off s).getD (s.getF (word off)) % 2 ^ 32 / 4096 * 4096 + 2 ^ 32 * newWord a s ∧
      staged off t = none ∧ FieldsOf (pair off) s t ∧ t = { s with regs := t.regs, bus := { s.bus with staging := t.bus.staging } } := by
  obtain ⟨d, hreg, -, -, -, hfields⟩ := h.lo
  have hrow : exec (.pairHiWrite a) s = .next (pairCommit off a.data a.be s) := by
    obtain ⟨-, -, -, hoff, -⟩ := id hw
    rw [pairHiWrite_row, whileUp_oneWord hw, h.writeBar0_hi hoff]
  obtain ⟨-, -, -, hoff, -⟩ := hw
  refine ⟨_, hrow, ?_, pairCommit_staged _ _ _ _, pairCommit_fields _ _ _ _, pairCommit_shape _ _ _ _⟩
  rw [pairCommit_get64, regWord_whole hreg hfields, newWord, hoff]

/-- A sequence left open for 32 ticks ends (R63). -/
theorem keyedSequenceTimeout_of_some {off : Nat} {p : Path} {k : KeySeq} {s : State} (hup : s.boot.inReset = false) (hseq : keySeq off p s = some k) :
    exec (.keyedSequenceTimeout off p) s = .next (if k.opened + 32 ≤ s.dtt then discarded off p .keyFail k.value (keyEnd off p s) else s) := by
  rw [keyedSequenceTimeout_row, whileUp_up hup, keyExpire, hseq]

theorem keyedSequenceTimeout_nothing {off : Nat} {p : Path} {s : State} (h : s.boot.inReset = true ∨ keySeq off p s = none) :
    exec (.keyedSequenceTimeout off p) s = .next s := by
  cases hup : s.boot.inReset with
  | true => exact whileUp_inReset hup
  | false =>
    have hnone : keySeq off p s = none := h.resolve_left (by simp [hup])
    rw [keyedSequenceTimeout_row, whileUp_up hup, keyExpire, hnone]

/-- The _A write of a core and one under LOCK (R674, R675). -/
theorem keyedAWrite_locked {a : Access} {s : State} (hw : FullWrite a a.off s) (h : KeyedPair a.off)
    (hlocked : isCore a.path = true ∨ s.isF Reg.gdLockLock = true ∧ (∀ k, keySeq a.off a.path s = some k → s.dtt < k.opened + 33)) :
    exec (.keyedAWrite a) s = .next (discarded a.off a.path .locked a.data s) := by
  rw [keyedAWrite_row]
  cases hcore : isCore a.path with
  | true => exact h.oneWord_locked (.inl rfl) hw hcore
  | false =>
    obtain ⟨hlock, hearly⟩ := hlocked.resolve_left (by simp [hcore])
    rw [whileUp_oneWord hw.someWrite, h.writeBar0_a hw hcore, writeKeyA_locked hlock hearly]

theorem hstReset_pair : KeyedPair 0x30 := keyedPair (by decide)

/-- No sequence of HST_RESET is open. -/
theorem hstReset_none {a : Access} {s : State} (hw : FullWrite a 0x30 s) (h : ∀ k ∈ s.bus.keyed, ¬(k.off = a.off ∧ k.path = a.path)) :
    keySeq 0x30 a.path s = none := by
  obtain ⟨-, -, -, hoff, -⟩ := hw
  exact keySeq_none (hoff ▸ h)

/-- Settles O11: each row is its words' accesses, and each word's access is what its register's kind makes of it. -/
theorem registerWritesAndPairs : Obligations.RegisterWritesAndPairs := by
  refine ⟨?_, ?_, ?_, ?_, ?_, ?_, ?_, ?_, ?_, ?_, ?_, ?_, ?_, ?_, ?_, ?_, ?_, ?_, ?_, ?_, ?_, ?_, ?_, ?_, ?_, ?_, ?_, ?_, ?_, ?_⟩
  case refine_1 =>
    intro a d s hw hreg _ hkind hro hw32 hopen hcore hlock hsnap hindex
    rw [registerWrite_row, whileUp_oneWord hw, writeBar0_plain ⟨hreg, hopen, hw32⟩ hkind hro hcore hlock hsnap hindex]
  case refine_2 =>
    intro a d s hw hreg _ hopen hcore hguard
    have hg : guarded a.off = true := by simpa [guarded, or_assoc] using hguard
    rw [registerWrite_row, whileUp_oneWord hw.someWrite, (hw.atReg hreg hopen).locked hcore hg]
  case refine_3 =>
    intro a d s hw hreg _ hshut
    rw [registerWrite_row, whileUp_oneWord hw, writeBar0_shut hreg hshut]
  case refine_4 =>
    intro a s h
    exact whileUp_nothing h
  case refine_5 =>
    intro a s hup hjtag hbe
    rw [registerWrite_row, whileUp_up hup, busWrite_one, writeWord_shut hbe hjtag]
  case refine_6 =>
    intro a be v rest s hup hbell hpair
    exact registerWrite_words hup hbell hpair
  case refine_7 =>
    intro a v s hw hmem
    exact registerWrite_pair hw (rwPair hmem)
  case refine_8 =>
    intro a d s hr hreg hkind halign hcounter hwindow hdtt hao
    exact latchingLoRead_latches hr halign (readBar0_latchLo hreg hcounter hwindow hkind hdtt hao a.path s)
  case refine_9 =>
    intro a s hr
    obtain ⟨hup, hjtag, hbar, hoff, hbe⟩ := hr
    exact latchingLoRead_latches (off := Reg.hstDtt) ⟨hup, hjtag, hbar, hoff, hbe⟩ (by rw [hoff]; rfl) (by rw [hoff]; exact readBar0_dtt a.path s)
  case refine_10 =>
    intro a s hr
    obtain ⟨hup, hjtag, hbar, hoff, hbe⟩ := hr
    exact latchingLoRead_latches (off := Reg.aoTime) ⟨hup, hjtag, hbar, hoff, hbe⟩ (by rw [hoff]; rfl) (by rw [hoff]; exact readBar0_aoTime a.path s)
  case refine_11 =>
    intro a c s hr hc herrs
    obtain ⟨hup, hjtag, hbar, hoff, hbe⟩ := hr
    exact latchingLoRead_latches (off := a.off) ⟨hup, hjtag, hbar, rfl, hbe⟩ (by omega) (by rw [hoff]; exact readBar0_counter hc a.path herrs)
  case refine_12 =>
    intro a d s hr hreg hkind _ hcounter hwindow
    have hword := readWord_bar0 hr (readBar0_latchHi hreg hcounter hwindow hkind a.path s)
    obtain ⟨hup, -⟩ := hr
    rw [latchingLoRead_row, whileUp_up hup, busRead_one, hword]
  case refine_13 =>
    intro a be rest s hup
    rw [latchingLoRead_row, whileUp_up hup]
    rfl
  case refine_14 =>
    intro a s hw hmem
    rw [pairLoWrite_row, whileUp_oneWord hw, (rwPair hmem).writeBar0_lo rfl]
    rfl
  case refine_15 =>
    intro a s hw hoff hmem
    obtain ⟨hup, hjtag, hbar, -, hbe⟩ := hw
    exact pairHiWrite_takes ⟨hup, hjtag, hbar, (Nat.sub_add_cancel hoff).symm, hbe⟩ (rwPair hmem)
  case refine_16 =>
    intro a s hw hmem hcore hlock hnone
    rw [keyedAWrite_row, whileUp_oneWord hw.someWrite, (keyedPair hmem).writeBar0_a hw hcore, writeKeyA_opens hlock (keySeq_none hnone)]
    rfl
  case refine_17 =>
    intro a k s hw hmem hcore hlock hseq hopen
    rw [keyedAWrite_row, whileUp_oneWord hw.someWrite, (keyedPair hmem).writeBar0_a hw hcore, writeKeyA_again hlock hseq hopen]
  case refine_18 =>
    intro a s hw hmem hlocked
    exact keyedAWrite_locked hw (keyedPair hmem) hlocked
  case refine_19 =>
    intro a off k s hw hmem hcore hlock hseq hopen
    rw [keyedBWrite_row, whileUp_oneWord hw.someWrite, (keyedPair hmem).writeBar0_b hw hcore, writeKeyB_closes hlock hseq hopen]
  case refine_20 =>
    intro a off s hw hmem hcore hlock hnone
    rw [keyedBWrite_row, whileUp_oneWord hw.someWrite, (keyedPair hmem).writeBar0_b hw hcore, writeKeyB_unopened hlock hnone]
  case refine_21 =>
    intro a off s hw hmem hcore
    rw [keyedBWrite_row, (keyedPair hmem).oneWord_locked (.inr rfl) hw hcore]
  case refine_22 =>
    intro a be v s hw hmem hcore hlock hnone hbe
    rw [keyedPairWrite64_row, (keyedPair hmem).write64 hw hcore hlock (keySeq_none hnone) hbe v]
  case refine_23 =>
    intro a be v s hw hmem hcore hbe
    rw [keyedPairWrite64_row, (keyedPair hmem).write64_locked hw hcore hbe v]
  case refine_24 =>
    intro off p k s hup hseq
    exact keyedSequenceTimeout_of_some hup hseq
  case refine_25 =>
    intro off p s h
    exact keyedSequenceTimeout_nothing h
  case refine_26 =>
    intro a s hw hcore
    rw [gdLockSet_row, whileUp_oneWord hw.someWrite, writeBar0_gdLock hw hcore]
  case refine_27 =>
    intro a s hw hcore
    have hat := gdLock_atReg hw
    have hrow := whileUp_oneWord hw.someWrite
    obtain ⟨-, -, -, hoff, -⟩ := hw
    rw [gdLockSet_row, hrow, hat.locked hcore (by rw [hoff]; decide), hoff]
  case refine_28 =>
    intro a be v s hw hcore hlock hnone hbe hv
    rw [hstReset_row, hstReset_pair.write64 hw hcore hlock (hstReset_none hw hnone) hbe, if_pos hv, keyCommit_hstReset]
  case refine_29 =>
    intro a be v s hw hcore hlock hnone hbe hv
    rw [hstReset_row, hstReset_pair.write64 hw hcore hlock (hstReset_none hw hnone) hbe, if_neg hv]
  case refine_30 =>
    intro a be v s hw hcore hbe
    rw [hstReset_row, hstReset_pair.write64_locked hw hcore hbe v]

end Sys2Proof.Machine

/-! SUPPORT. A Bluem command's way through its queue: the start checks in their order (R734), and the completion of a command that ends (R94, R99). -/

namespace Sys2Proof.Machine

/-- A command that waits for its ring's room alone sets CQ_STALL (R102). -/
theorem runCmd_stalls {k : CmdSpec} {f : Cmd → State → State × Reply} {c : Cmd} {s : State} (h : canStart k c s = false)
    (h' : stalls c s = true) : runCmd k f c s = .next (s.raiseBit (Reg.mbxStatusCqStall c.src.q)) := by
  simp [runCmd, h, h']

/-- A command that a start check stops changes what its completion can change, and no more. -/
theorem startFail_frame (k : CmdSpec) (c : Cmd) (slot t0 st d : Nat) (s : State) : FrameOf mailboxParts s (startFail k c slot t0 st d s) :=
  startFail_keeps (frame_keeps mailboxParts s) (sub_of rfl) (FrameOf.refl _ s)

/-- Settles O20: each clause is the shared run's own lemma for a command that starts, is stopped, stalls or waits. -/
theorem commandsStartStopOrWait : Obligations.CommandsStartStopOrWait := by
  unfold Obligations.CommandsStartStopOrWait
  intro k f c s
  exact ⟨runCmd_starts, fun st d hcan hcheck => ⟨_, runCmd_stopped hcan hcheck, startFail_frame k c _ _ st d s, rfl⟩, runCmd_stalls, runCmd_waits,
    taken_frame c s, ended_frame k c s⟩

/-! ### Start checks -/

/-- The last command of the queue's first hamper that has ended has failed (R93). -/
def failedBefore (q : Nat) (s : State) : Bool :=
  match (s.queue q).hampers with
  | h :: _ => decide (h.waiting.length < h.count) && !h.lastOk
  | [] => false

theorem failedBefore_of_head {q : Nat} {s : State} {h : Hamper} {r : List Hamper} (hq : (s.queue q).hampers = h :: r)
    (hbegun : h.waiting.length < h.count) (hbad : h.lastOk = false) : failedBefore q s = true := by
  simp [failedBefore, hq, hbegun, hbad]

theorem failedBefore_eq_false {q : Nat} {s : State}
    (h : ∀ (h : Hamper) (r : List Hamper), (s.queue q).hampers = h :: r → h.waiting.length < h.count → h.lastOk = true) : failedBefore q s = false := by
  unfold failedBefore
  cases hq : (s.queue q).hampers with
  | nil => rfl
  | cons x r => by_cases hbegun : x.waiting.length < x.count <;> simp [hbegun, h x r hq]

/-- The checks before the payload is looked at, on an entry of a queue: those on the other sources of a command do not apply. -/
theorem earlyCheck_of_queue (k : CmdSpec) {c : Cmd} (s : State) (h : c.src = .urgent ∨ c.src = .general) : earlyCheck k c s =
    if (s.queue c.src.q).cancels.contains (headSlot c s) = true then some (stCancelled, 0)
    else if c.chain = true ∧ failedBefore c.src.q s = true then some (stCancelled, 0)
    else match entryFault c with
      | some d => some (stBadArg, d)
      | none =>
        if c.src = .urgent ∧ k.urgent = false then some (stRefused, 1)
        else if s.isF Reg.hstStatusReady = false ∧ [0x01, 0x12, 0x13].contains (groupOf k.opcode) = false then some (stNotReady, 0)
        else if s.twinState = 3 ∧ neverMirrored k = false ∧ c.localOnly = false then some (stRefused, 5)
        else if lengthOk k c = false then some (stBadLen, 0)
        else none := by
  have hsmb : c.src ≠ .smbus := by rcases h with h | h <;> rw [h] <;> decide
  have himg : c.src ≠ .image := by rcases h with h | h <;> rw [h] <;> decide
  have hmir : c.src ≠ .mirror := by rcases h with h | h <;> rw [h] <;> decide
  have hq : (decide (c.src = .urgent) || decide (c.src = .general)) = true := by simpa using h
  have hall : earlyCheck k c s =
      if (decide (c.src = .urgent) || decide (c.src = .general)) && (s.queue c.src.q).cancels.contains (headSlot c s) then some (stCancelled, 0)
      else if (decide (c.src = .urgent) || decide (c.src = .general)) && c.chain && failedBefore c.src.q s then some (stCancelled, 0)
      else match entryFault c with
        | some d => some (stBadArg, d)
        | none =>
          if c.src = .urgent && !k.urgent then some (stRefused, 1)
          else if c.src = .smbus && !(k.reports || k.opcode = 0x0103 || k.opcode = 0x0E02) then some (stRefused, 0)
          else if !s.isF Reg.hstStatusReady && c.src ≠ .image && !([0x01, 0x12, 0x13].contains (groupOf k.opcode)) then some (stNotReady, 0)
          else if s.twinState = 3 && c.src ≠ .mirror && !neverMirrored k && !c.localOnly then some (stRefused, 5)
          else if !lengthOk k c then some (stBadLen, 0)
          else none := rfl
  rw [hall]
  simp [hq, hsmb, himg, hmir, and_assoc]


theorem lateCheck_unreadable (k : CmdSpec) {c : Cmd} (s : State) (hext : c.ext = true) (hx : c.xReadable = false) :
    lateCheck k c s = some (stInternal, 1) := by
  simp [lateCheck, hext, hx]

theorem lateCheck_readable (k : CmdSpec) {c : Cmd} (s : State) (h : c.ext = true → c.xReadable = true) : lateCheck k c s =
    if k.lenBy c = false then some (stBadLen, 0)
    else match k.args c s with
      | some d => some (stBadArg, d)
      | none => if c.bufSize < k.need c s then some (stBadLen, 0) else k.stops c s := by
  have hx : (c.ext && !c.xReadable) = false := by
    cases hext : c.ext with
    | false => rfl
    | true => simp [h hext]
  unfold lateCheck
  rw [hx, if_neg Bool.false_ne_true]
  cases k.lenBy c <;> rfl

/-- The checks after the first one that stops an entry are not asked. -/
theorem startCheck_of_early {k : CmdSpec} {c : Cmd} {s : State} {x : Nat × Nat} (h : earlyCheck k c s = some x) : startCheck k c s = some x := by
  simp [startCheck, h]

theorem startCheck_of_late {k : CmdSpec} {c : Cmd} {s : State} (h : earlyCheck k c s = none) : startCheck k c s = lateCheck k c s := by
  simp [startCheck, h]

/-- Settles O21: of the checks in their order, one that applies answers, and where it does not the next is asked. -/
theorem startChecksInOrder : Obligations.StartChecksInOrder := by
  unfold Obligations.StartChecksInOrder
  intro k c s hsrc
  have hearly := earlyCheck_of_queue k s hsrc
  refine ⟨fun hcan => startCheck_of_early (by rw [hearly, if_pos hcan]), fun hcan => ?_⟩
  rw [if_neg (ne_true_of_eq_false hcan)] at hearly
  refine ⟨fun h r hq hchain hbegun hbad => startCheck_of_early (by rw [hearly, if_pos ⟨hchain, failedBefore_of_head hq hbegun hbad⟩]), fun hchain => ?_⟩
  have hgoes : ¬(c.chain = true ∧ failedBefore c.src.q s = true) := fun ⟨hc, hf⟩ => by
    rw [failedBefore_eq_false (hchain hc)] at hf
    cases hf
  rw [if_neg hgoes] at hearly
  refine ⟨fun d hd => startCheck_of_early (by rw [hearly, hd]), fun hfault => ?_⟩
  simp only [hfault] at hearly
  refine ⟨fun hurg hno => startCheck_of_early (by rw [hearly, if_pos ⟨hurg, hno⟩]), fun hurg => ?_⟩
  rw [if_neg (fun ⟨hu, hno⟩ => by simp [hurg hu] at hno)] at hearly
  refine ⟨fun hready hgroup => startCheck_of_early (by rw [hearly, if_pos ⟨hready, hgroup⟩]), fun hready => ?_⟩
  rw [if_neg (fun ⟨hr, hg⟩ => by rw [hr, hg] at hready; simp at hready)] at hearly
  refine ⟨fun hst hmir hloc => startCheck_of_early (by rw [hearly, if_pos ⟨hst, hmir, hloc⟩]), fun hstandby => ?_⟩
  rw [if_neg (fun ⟨hst, hmir, hloc⟩ => by simp [hst, hmir, hloc] at hstandby)] at hearly
  refine ⟨fun hlen => startCheck_of_early (by rw [hearly, if_pos hlen]), fun hlen => ?_⟩
  rw [if_neg (by simp [hlen])] at hearly
  rw [startCheck_of_late hearly]
  refine ⟨lateCheck_unreadable k s, fun hread => ?_⟩
  rw [lateCheck_readable k s hread]
  refine ⟨fun hby => if_pos hby, fun hby => ?_⟩
  rw [if_neg (by simp [hby])]
  refine ⟨fun d hd => by rw [hd], fun hargs => ?_⟩
  simp only [hargs]
  exact ⟨fun hneed => if_pos hneed, fun hneed => if_neg (by omega)⟩

/-! ### Queues -/

section

variable (s : State)

@[simp] theorem queue_setQueue_same (q : Nat) (x : Queue) : (s.setQueue q x).queue q = x := by
  unfold State.queue State.setQueue
  split <;> rfl

theorem queue_of_mbx {s t : State} (h : t.mbx = s.mbx) (q : Nat) : t.queue q = s.queue q := by
  unfold State.queue
  rw [h]

@[simp] theorem setQueue_getF (q : Nat) (x : Queue) (f : Fld) : (s.setQueue q x).getF f = s.getF f := getF_of_regs (State.setQueue_regs s q x) f

/-- A completion entry written leaves the queues and the commands in service as they are. -/
theorem cplPut_mbx (q : Nat) (e : Cpl) : (cplPut q e s).mbx = s.mbx := cplPut_keeps (same_keeps .mbx s) (sub_of rfl) rfl

end

/-! ### Records of a fixed length -/

theorem place_length (l : Bytes) (o : Nat) (v : Bytes) : l.length ≤ (place l o v).length := by
  simp only [place, List.length_append, List.length_take, List.length_drop]
  omega

theorem record_length (n : Nat) (fs : List (Nat × Bytes)) : (record n fs).length = n := by
  have hlong : n ≤ (fs.foldl (fun l f => place l f.1 f.2) (List.replicate n 0)).length :=
    foldl_g (Q := fun l : Bytes => n ≤ l.length) (by simp) (fun l f hl => hl.trans (place_length l f.1 f.2))
  rw [record, List.length_take, Nat.min_eq_left hlong]

/-! ### A command that ends -/

/-- An entry without a result buffer has nothing written to one. -/
theorem writeBuf_none {c : Cmd} (h : c.rlen4k = 0) (r : Reply) (s : State) : writeBuf c r s = (r, 0, s) := by
  simp [writeBuf, Cmd.bufSize, h]

/-- The last command of a hamper without HEND, with no end entry waiting: its entry is written, and the hamper leaves the queue (R94). -/
theorem deliver_last {c : Cmd} {e : Cpl} {h : Hamper} {s : State} (hsrc : c.src = .urgent ∨ c.src = .general)
    (hone : (s.queue c.src.q).hampers = [h]) (hwait : h.waiting = []) (hend : h.hend = false) (hends : (s.queue c.src.q).endsWaiting = []) :
    deliver c e true s = (cplPut c.src.q e s).setQueue c.src.q { s.queue c.src.q with hampers := [] } := by
  have hput : (cplPut c.src.q e s).queue c.src.q = s.queue c.src.q := queue_of_mbx (cplPut_mbx _ _ _) _
  have hfinish : hamperFinish c.src.q e.status e.slot e.tDone (cplPut c.src.q e s) =
      (cplPut c.src.q e s).setQueue c.src.q { s.queue c.src.q with hampers := [] } := by
    simp [hamperFinish, hput, hone, hamperNote, hwait, hend]
  have hdeliver : deliver c e true s = flushEnds ((hamperFinish c.src.q e.status e.slot e.tDone (cplPut c.src.q e s)).queue c.src.q).endsWaiting.length
      c.src.q (hamperFinish c.src.q e.status e.slot e.tDone (cplPut c.src.q e s)) := by
    rcases hsrc with h | h <;> simp [deliver, h]
  rw [hdeliver, hfinish, queue_setQueue_same, hends]
  rfl

/-- Core 0 is free, having run one command more, GENERAL or not (R109). -/
def coreFreed (c : Cmd) (s : State) : State :=
  { s with mbx := { s.mbx with core0Free := s.dtt, executed := s.mbx.executed + 1, lastGeneral := endsGeneral c } }

/-- A queue's command that was not mirrored delivers its entry at once (R99, R101). -/
theorem finish_of_queue {c : Cmd} (hsrc : c.src = .urgent ∨ c.src = .general) (hbuf : c.rlen4k = 0) (op slot t0 cf : Nat) (r : Reply) (s : State) :
    finish op c slot t0 cf none r s =
      deliver c ⟨c.tag, op, r.status, cf, slot, 0, r.detail, t0, s.dtt, r.result⟩ (!(c.noCompl && r.status = stOk)) (coreFreed c s) := by
  rcases hsrc with h | h <;> simp [finish, writeBuf_none hbuf, h, coreFreed]

theorem ended_of_queue {k : CmdSpec} {c : Cmd} {s : State} (hsrc : c.src = .urgent ∨ c.src = .general) (hmir : mirrors k c s = false)
    (hbuf : c.rlen4k = 0) (s1 : State) (r : Reply) : ended k c s s1 r =
      deliver c ⟨c.tag, k.opcode, r.status, 8 * b2n (resumes c s), headSlot c s, 0, r.detail, startStamp c s, s1.dtt, r.result⟩
        (!(c.noCompl && r.status = stOk)) (coreFreed c s1) := by
  have hseq : mirrorSeq c false s = none := by rcases hsrc with h | h <;> simp [mirrorSeq, h]
  rw [← finish_of_queue hsrc hbuf, ended, hmir, hseq]
  rfl

theorem startStamp_le (c : Cmd) (s : State) : startStamp c s ≤ s.dtt := max_le (Nat.sub_le _ _) (min_le_left _ _)

/-- Where the ring has a valid size, an entry is written to its next slot (R101). -/
theorem cplPut_valid {q : Nat} {s : State} (hsize : 4 ≤ s.getF (Reg.mbxCfgCqLog2sz q)) (herr : s.isF (Reg.mbxCfgCfgErr q) = false) (e : Cpl) :
    cplPut q e s = ringPut (cqRing q) (fun ph => e.encode ph) s := if_pos ⟨hsize, herr⟩

theorem Source.q_le (x : Source) : x.q ≤ 1 := by cases x <;> decide

/-- Settles O22: a queue's command delivers its entry to its ring, and as its hamper's last takes the hamper along. -/
theorem completionEntryIsWritten : Obligations.CompletionEntryIsWritten := by
  unfold Obligations.CompletionEntryIsWritten
  refine ⟨fun e ph => record_length _ _, fun k c s s1 r h hsrc hmir hbuf hcompl hone hwait hend hends hsize herr => ?_⟩
  have hentry : (!(c.noCompl && decide (r.status = stOk))) = true := by
    cases hno : c.noCompl with
    | false => rfl
    | true => simp [hcompl hno]
  have hended := ended_of_queue hsrc hmir hbuf s1 r
  rw [hentry, deliver_last (s := coreFreed c s1) hsrc hone hwait hend hends, cplPut_valid (s := coreFreed c s1) hsize herr] at hended
  rw [hended]
  refine ⟨?_, ?_, ?_, startStamp_le c s⟩
  · rw [State.setQueue_hostMem, ringPut_hostMem]
    rfl
  · rw [queue_setQueue_same]
  · rw [setQueue_getF]
    exact ringPut_prod (cqRing_placed _ (Source.q_le _)) _ _

end Sys2Proof.Machine

/-! SUPPORT. The step record of a stepped command (R110): what a step that goes on and one that ends leave. -/

namespace Sys2Proof.Machine

theorem sat_lt {m n v : Nat} (h : m < n) : sat m v < n := by
  unfold sat
  split <;> omega

/-! ### The step record -/

/-- MBX_LONG_OP and MBX_LONG_STEP written. -/
def showLong (op tag done est : Nat) (s : State) : State :=
  (((s.setF Reg.mbxLongOpOpcode op).setF Reg.mbxLongOpTag tag).setF Reg.mbxLongStepDone done).setF Reg.mbxLongStepEstimate est

/-- The fields of MBX_LONG_OP and MBX_LONG_STEP. -/
def longFields : List Fld := [Reg.mbxLongOpOpcode, Reg.mbxLongOpTag, Reg.mbxLongStepDone, Reg.mbxLongStepEstimate]

theorem showLong_reads (op tag done est : Nat) (s : State) :
    (showLong op tag done est s).getF Reg.mbxLongOpOpcode = op % 2 ^ 16 ∧ (showLong op tag done est s).getF Reg.mbxLongOpTag = tag % 2 ^ 16 ∧
    (showLong op tag done est s).getF Reg.mbxLongStepDone = done % 2 ^ 16 :=
  ⟨read_setF (by decide) (read_setF (by decide) (read_setF (by decide) (getF_setF_same _ _ _))),
    read_setF (by decide) (read_setF (by decide) (getF_setF_same _ _ _)), read_setF (by decide) (getF_setF_same _ _ _)⟩

@[simp] theorem showLong_mbx (op tag done est : Nat) (s : State) : (showLong op tag done est s).mbx = s.mbx := rfl

theorem showLong_fields {fs : List Fld} {s t : State} (h : FieldsOf fs s t) (hfs : ∀ f ∈ longFields, f.key ∈ fs.map Fld.key) (op tag done est : Nat) :
    FieldsOf fs s (showLong op tag done est t) :=
  (((h.setF (hfs _ (by simp [longFields])) op).setF (hfs _ (by simp [longFields])) tag).setF (hfs _ (by simp [longFields])) done).setF
    (hfs _ (by simp [longFields])) est

theorem syncLong_none {s : State} (h : s.mbx.longOp = none) : syncLong s = showLong 0 0 0 0 s := by
  unfold syncLong
  rw [h]
  rfl

theorem syncLong_some {s : State} {o : LongOp} (h : s.mbx.longOp = some o) :
    syncLong s = showLong o.opcode o.cmd.tag (sat 0xFFFF o.done) (sat 0xFFFF o.estimate) s := by
  unfold syncLong
  rw [h]
  rfl

/-! ### Memory protection of a word written -/

theorem setTracker_fields {fs : List Fld} {s t : State} (h : FieldsOf fs s t) (hf : Reg.mpStatusTrackOcc.key ∈ fs.map Fld.key) (l : List TrackEntry) :
    FieldsOf fs s (setTracker l t) := (h.setF hf l.length).regs rfl

/-- A write of a protected word shows in the occupation of the tracker alone (R615). -/
theorem mpWrite_fields {fs : List Fld} {s t : State} (h : FieldsOf fs s t) (hf : Reg.mpStatusTrackOcc.key ∈ fs.map Fld.key) (w : Nat) :
    FieldsOf fs s (mpWrite w t) := by
  unfold mpWrite
  refine ite_k h ?_
  exact ite_k (setTracker_fields (h.regs rfl) hf _) (h.regs rfl)

/-- The step record kept reads good. -/
theorem storeStep_longOp (o : LongOp) (s : State) : (storeStep o s).mbx.longOp = some { o with recordOk := true } := by
  unfold storeStep
  extract_lets t
  clear_value t
  rfl

theorem storeStep_fields {fs : List Fld} {s t : State} (h : FieldsOf fs s t) (hf : Reg.mpStatusTrackOcc.key ∈ fs.map Fld.key) (o : LongOp) :
    FieldsOf fs s (storeStep o t) := by
  unfold storeStep
  extract_lets u
  have hu : FieldsOf fs s u := foldl_k h (fun t k ht => mpWrite_fields ht hf _)
  clear_value u
  exact hu.regs rfl

/-! ### A step taken -/

/-- No PROGRESS entry is due: none is asked for, or the last is less than 100 ms old (R111). -/
theorem progress_quiet {o : LongOp} {s : State} (h : o.cmd.prog = false ∨ s.dtt - o.lastProgress < 78125000) : progress o s = (o, s) := by
  unfold progress
  rw [if_neg]
  rcases h with h | h
  · simp [h]
  · simp [Nat.not_le.mpr h]

/-- Core 0 is free between two steps. -/
def coreBetween (s : State) : State := { s with mbx := { s.mbx with core0Free := s.dtt, executed := s.mbx.executed + 1, lastGeneral := false } }

/-- The step record with DONE one higher than before the step. -/
def stepCounted (o o' : LongOp) : LongOp := { o' with done := o.done + 1 }

theorem afterStep_more_quiet (k : CmdSpec) {o o' : LongOp} {s : State} (h : o'.cmd.prog = false ∨ s.dtt - o'.lastProgress < 78125000) :
    afterStep k o (s, .more o') = showLong o'.opcode o'.cmd.tag (sat 0xFFFF (o.done + 1)) (sat 0xFFFF o'.estimate) (storeStep (stepCounted o o') (coreBetween s)) := by
  have hquiet : progress (stepCounted o o') (coreBetween s) = (stepCounted o o', coreBetween s) := progress_quiet h
  have hafter : afterStep k o (s, .more o') = syncLong (storeStep (progress (stepCounted o o') (coreBetween s)).1 (progress (stepCounted o o') (coreBetween s)).2) := rfl
  rw [hafter, hquiet, syncLong_some (storeStep_longOp _ _)]
  rfl

theorem afterStep_done_dropped (k : CmdSpec) {o : LongOp} (h : o.dropped = true) (s : State) (r : Reply) :
    afterStep k o (s, .done r) = showLong 0 0 0 0 { s with mbx := { s.mbx with longOp := none } } := by
  rw [← syncLong_none (s := { s with mbx := { s.mbx with longOp := none } }) rfl]
  exact if_pos h

theorem afterStep_done_kept (k : CmdSpec) {o : LongOp} (h : o.dropped = false) (s : State) (r : Reply) : afterStep k o (s, .done r) =
    finish k.opcode o.cmd o.slot o.tStart (8 * b2n o.resumed) o.mirror r (syncLong { s with mbx := { s.mbx with longOp := none } }) :=
  if_neg (ne_true_of_eq_false h)

theorem showLong_keeps {P : State → Prop} {A : Nat} (K : Keeps P A) (hA : Sub 4 A) {op tag done est s} (h_s : P s) : P (showLong op tag done est s) :=
  setF_k K 2 part_mbxLongStepEstimate (sub rfl hA) (setF_k K 2 part_mbxLongStepDone (sub rfl hA) (setF_k K 2 part_mbxLongOpTag (sub rfl hA)
    (setF_k K 2 part_mbxLongOpOpcode (sub rfl hA) h_s)))

/-- Settles O24: by the ends of a step, with what the step store's words leave of the registers. -/
theorem steppedCommandsKeepTheirRecord : Obligations.SteppedCommandsKeepTheirRecord := by
  unfold Obligations.SteppedCommandsKeepTheirRecord
  intro k o o' s r
  refine ⟨fun hquiet => ?_, fun hdrop => ?_, fun hkept => afterStep_done_kept k hkept s r⟩
  · rw [afterStep_more_quiet k hquiet]
    obtain ⟨hop, htag, hdone⟩ := showLong_reads o'.opcode o'.cmd.tag (sat 0xFFFF (o.done + 1)) (sat 0xFFFF o'.estimate)
      (storeStep (stepCounted o o') (coreBetween s))
    rw [Nat.mod_eq_of_lt (sat_lt (by decide))] at hdone
    have K := frame_keeps [.rMbx, .rMp, .mbx, .mp] s
    have hcore : FrameOf [.rMbx, .rMp, .mbx, .mp] s (coreBetween s) := upd_mbx K (sub_of rfl) (FrameOf.refl _ s)
    have hframe := storeStep_keeps (o := stepCounted o o') K (sub_of rfl) hcore
    have hfields := storeStep_fields (fs := longFields ++ [Reg.mpStatusTrackOcc]) (s := s) (t := coreBetween s) ((FieldsOf.refl _ s).regs rfl) (by decide)
      (stepCounted o o')
    have hlong := storeStep_longOp (stepCounted o o') (coreBetween s)
    generalize storeStep (stepCounted o o') (coreBetween s) = t at *
    exact ⟨by rw [showLong_mbx]; exact hlong, hop, htag, hdone, showLong_fields hfields (by decide) _ _ _ _,
      showLong_keeps K (sub_of rfl) hframe⟩
  · rw [afterStep_done_dropped k hdrop]
    have K := frame_keeps [.rMbx, .mbx] s
    exact ⟨rfl, (showLong_reads 0 0 0 0 _).1, showLong_keeps K (sub_of rfl) (upd_mbx K (sub_of rfl) (FrameOf.refl _ s))⟩

end Sys2Proof.Machine


/-! SUPPORT. The queues of the mailbox (R87 to R91, R113): doorbells, the writes of MBX_CFG, HST_CANCEL. -/

namespace Sys2Proof.Machine

/-! ### Several fields written -/

/-- Fields written in turn. -/
def setFs (l : List (Fld × Nat)) (s : State) : State := l.foldl (fun s e => s.setF e.1 e.2) s

theorem setFs_fields (l : List (Fld × Nat)) (s : State) : FieldsOf (l.map Prod.fst) s (setFs l s) := by
  have hstep : ∀ m : List (Fld × Nat), (∀ e ∈ m, e ∈ l) → ∀ t, FieldsOf (l.map Prod.fst) s t → FieldsOf (l.map Prod.fst) s (setFs m t) := by
    intro m
    induction m with
    | nil => exact fun _ _ ht => ht
    | cons e r ih =>
      exact fun hm t ht => ih (fun x hx => hm x (List.mem_cons_of_mem _ hx)) _
        (ht.setF (List.mem_map_of_mem (List.mem_map_of_mem (hm e List.mem_cons_self))) e.2)
  exact hstep l (fun _ h => h) s (FieldsOf.refl _ s)

/-- Where some fields differ at most, so do more. -/
theorem FieldsOf.mono {fs gs : List Fld} {s t : State} (h : FieldsOf fs s t) (hsub : ∀ f ∈ fs, f.key ∈ gs.map Fld.key) : FieldsOf gs s t := by
  intro f hf
  refine h f (fun hm => hf ?_)
  obtain ⟨g, hg, hk⟩ := List.mem_map.1 hm
  exact hk ▸ hsub g hg

theorem setFs_shape (l : List (Fld × Nat)) (s : State) : ∃ r, setFs l s = { s with regs := r } := by
  induction l generalizing s with
  | nil => exact ⟨_, rfl⟩
  | cons e l ih => exact ih (s.setF e.1 e.2)

/-- Of fields at places of their own, each reads what was written to it. -/
theorem setFs_getF {l : List (Fld × Nat)} (hkeys : (l.map (·.1.key)).Nodup) {f : Fld} {v : Nat} (h : (f, v) ∈ l) (s : State) :
    (setFs l s).getF f = v % 2 ^ f.width := by
  induction l generalizing s with
  | nil => cases h
  | cons e r ih =>
    rw [List.map_cons, List.nodup_cons] at hkeys
    obtain ⟨hnew, hrest⟩ := hkeys
    rcases List.mem_cons.1 h with rfl | hin
    · have hlast : (setFs r (s.setF f v)).getF f = (s.setF f v).getF f := setFs_fields r _ f (by simpa using hnew)
      exact hlast.trans (getF_setF_same s f v)
    · exact ih hrest hin _

/-! ### Queues -/

theorem setQueue_shape (s : State) (q : Nat) (x : Queue) : ∃ m, s.setQueue q x = { s with mbx := m } := by
  unfold State.setQueue
  split <;> exact ⟨_, rfl⟩

theorem queue_setQueue_other {q : Nat} (hq : q ≤ 1) (s : State) (x : Queue) : (s.setQueue q x).queue (1 - q) = s.queue (1 - q) := by
  interval_cases q <;> rfl

/-- Of an empty hamper's end nothing is written where none waits. -/
theorem emptyEnds_idle {q : Nat} {s : State} (h : (s.queue q).endsWaiting = []) : emptyEnds q s = s := by
  simp [emptyEnds, h, flushEnds]

/-! ### Doorbells -/

section

variable {q : Nat} {a : Access} {s : State}

/-- A doorbell of a queue is rung (R47, R89). -/
theorem mbxDoorbell_row (h : FullBell a (0x40 * q) s) (hq : q ≤ 1) (fs : List Fetched) :
    exec (.mbxDoorbell a fs) s = .next (doorbell q a.data fs (rung a s)) := by
  obtain ⟨hup, hopen, hoff, hbe⟩ := h
  have hbell : writeBar4 { a with bar := 4 } fs s = doorbell q a.data fs (rung a s) := by
    unfold writeBar4
    interval_cases q <;> simp [hoff, hbe, rung]
  have hword : writeWord { a with bar := 4 } fs s = doorbell q a.data fs (rung a s) := by
    rw [← hbell]
    simp [writeWord, hbe, hopen]
  show whileUp (writeWord { a with bar := 4 } fs) s = _
  rw [whileUp_up hup, hword]

/-- Entries between the tail and the doorbell's INDEX (R89). -/
def rungEntries (q v : Nat) (s : State) : Nat :=
  (v % 2 ^ 16 + 2 ^ s.getF (Reg.mbxCfgSqLog2sz q) - (s.queue q).tail) % 2 ^ s.getF (Reg.mbxCfgSqLog2sz q)

theorem rungEntries_eq_zero {v : Nat} (hsize : v % 2 ^ 16 < 2 ^ s.getF (Reg.mbxCfgSqLog2sz q)) (htail : (s.queue q).tail < 2 ^ s.getF (Reg.mbxCfgSqLog2sz q)) :
    rungEntries q v s = 0 ↔ v % 2 ^ 16 = (s.queue q).tail := by
  unfold rungEntries
  generalize 2 ^ s.getF (Reg.mbxCfgSqLog2sz q) = n at *
  generalize v % 2 ^ 16 = ix at *
  generalize (s.queue q).tail = tail at *
  by_cases hle : tail ≤ ix
  · rw [show ix + n - tail = ix - tail + n by omega, Nat.add_mod_right, Nat.mod_eq_of_lt (by omega)]
    omega
  · rw [Nat.mod_eq_of_lt (by omega)]
    omega

/-- What core 0 will fetch of them. -/
def rungFetched (q v : Nat) (fs : List Fetched) (s : State) : List Fetched := (List.range (rungEntries q v s)).map (fun k => fs.getD k (.command 0))

/-- The hamper that a doorbell forms (R89). -/
def rungHamper (q v : Nat) (fs : List Fetched) (s : State) : Hamper :=
  ⟨v / 2 ^ 16 % 2 ^ 15, bit v 31, rungEntries q v s, (s.queue q).tail, (rungFetched q v fs s).map fetchedTag, none, true, none, s.mbx.doorbells, s.dtt⟩

/-- The queue with its tail at INDEX and the hamper at its end (R89). -/
def rungQueue (q v : Nat) (fs : List Fetched) (s : State) : Queue :=
  { s.queue q with tail := v % 2 ^ 16, hampers := (s.queue q).hampers ++ [rungHamper q v fs s] }

/-- The state with the hamper of a doorbell formed, before PENDING follows. -/
def hamperFormed (q v : Nat) (fs : List Fetched) (s : State) : State :=
  let t := (s.setF (Reg.mbxDbShadow q) v).setQueue q (rungQueue q v fs s)
  { t with mbx := { t.mbx with doorbells := t.mbx.doorbells + 1
                               odd := s.mbx.odd ++ oddOnes q (s.queue q).tail (2 ^ s.getF (Reg.mbxCfgSqLog2sz q)) (rungFetched q v fs s) } }

/-- The end entry of the empty hamper that a doorbell at the tail forms with HEND (R90). -/
def rungEnd (v : Nat) (s : State) : Cpl := hamperEnd ⟨v / 2 ^ 16 % 2 ^ 15, true, 0, v % 2 ^ 16, [], none, true, some s.dtt, 0, s.dtt⟩ s.dtt

/-- The queue takes the doorbell: it is enabled without CFG_ERR, and INDEX is one of its slots (R91). -/
def BellTaken (q v : Nat) (s : State) : Prop :=
  s.isF (Reg.mbxCfgEn q) = true ∧ s.isF (Reg.mbxCfgCfgErr q) = false ∧ v % 2 ^ 16 < 2 ^ s.getF (Reg.mbxCfgSqLog2sz q)

theorem doorbell_discarded {v : Nat} (h : s.isF (Reg.mbxCfgEn q) = false ∨ s.isF (Reg.mbxCfgCfgErr q) = true ∨ 2 ^ s.getF (Reg.mbxCfgSqLog2sz q) ≤ v % 2 ^ 16)
    (fs : List Fetched) : doorbell q v fs s = doorbellBad q v s := if_pos h

theorem BellTaken.good {v : Nat} (h : BellTaken q v s) :
    ¬(s.isF (Reg.mbxCfgEn q) = false ∨ s.isF (Reg.mbxCfgCfgErr q) = true ∨ 2 ^ s.getF (Reg.mbxCfgSqLog2sz q) ≤ v % 2 ^ 16) := by
  obtain ⟨hen, herr, hsize⟩ := h
  rw [hen, herr]
  simpa using hsize

theorem doorbell_forms {v : Nat} (h : BellTaken q v s) (hn : rungEntries q v s ≠ 0) (fs : List Fetched) :
    doorbell q v fs s = syncPending q (hamperFormed q v fs s) := (if_neg h.good).trans (if_neg hn)

theorem doorbell_idle {v : Nat} (h : BellTaken q v s) (hn : rungEntries q v s = 0) (hend : bit v 31 = false) (fs : List Fetched) :
    doorbell q v fs s = s.setF (Reg.mbxDbShadow q) v := (if_neg h.good).trans ((if_pos hn).trans (if_neg (ne_true_of_eq_false hend)))

theorem doorbell_ends {v : Nat} (h : BellTaken q v s) (hn : rungEntries q v s = 0) (hend : bit v 31 = true) (fs : List Fetched) : doorbell q v fs s =
    emptyEnds q ((s.setF (Reg.mbxDbShadow q) v).setQueue q { s.queue q with endsWaiting := (s.queue q).endsWaiting ++ [rungEnd v s] }) :=
  (if_neg h.good).trans ((if_pos hn).trans (if_pos hend))

/-- The queue that a hamper formed leaves. -/
theorem hamperFormed_queue (v : Nat) (fs : List Fetched) : (hamperFormed q v fs s).queue q = rungQueue q v fs s :=
  queue_setQueue_same (s.setF (Reg.mbxDbShadow q) v) q (rungQueue q v fs s)

theorem hamperFormed_other (hq : q ≤ 1) (v : Nat) (fs : List Fetched) : (hamperFormed q v fs s).queue (1 - q) = s.queue (1 - q) :=
  queue_setQueue_other hq (s.setF (Reg.mbxDbShadow q) v) (rungQueue q v fs s)

theorem hamperFormed_regs (v : Nat) (fs : List Fetched) : (hamperFormed q v fs s).regs = (s.setF (Reg.mbxDbShadow q) v).regs :=
  State.setQueue_regs _ _ _

theorem mbxDbShadow_ne_pending (q : Nat) : (Reg.mbxDbShadow q).key ≠ (Reg.mbxStatusPending q).key := by
  simp only [Fld.key, Reg.mbxDbShadow, Reg.mbxStatusPending]
  omega

/-- What a hamper formed leaves of the registers (R89). -/
theorem hamperFormed_reads (v : Nat) (fs : List Fetched) : (syncPending q (hamperFormed q v fs s)).getF (Reg.mbxDbShadow q) = v % 2 ^ 32 ∧
    FieldsOf [Reg.mbxDbShadow q, Reg.mbxStatusPending q] s (syncPending q (hamperFormed q v fs s)) := by
  have hregs := hamperFormed_regs (q := q) (s := s) v fs
  refine ⟨read_setF (mbxDbShadow_ne_pending q) (read_with hregs (getF_setF_same _ _ _)), ?_⟩
  exact FieldsOf.setF (FieldsOf.regs ((FieldsOf.refl _ s).setF (by simp) v) hregs) (by simp) _

theorem hamperFormed_shape (v : Nat) (fs : List Fetched) : syncPending q (hamperFormed q v fs s) =
    { s with regs := (syncPending q (hamperFormed q v fs s)).regs, mbx := (syncPending q (hamperFormed q v fs s)).mbx } := by
  obtain ⟨m, hm⟩ : ∃ m, hamperFormed q v fs s = { s.setF (Reg.mbxDbShadow q) v with mbx := m } := by
    obtain ⟨m, hm⟩ := setQueue_shape (s.setF (Reg.mbxDbShadow q) v) q (rungQueue q v fs s)
    rw [hamperFormed, hm]
    exact ⟨_, rfl⟩
  rw [hm]
  rfl

end

/-! ### MBX_CFG -/

/-- The register array of which MBX_CFG of queue `q` is one element. -/
def mbxCfgDesc : RegDesc := ⟨0x20010, [(0x100, 2)], .plain, false, [⟨31, 31, .ro, 0⟩, ⟨20, 16, .rw, 0⟩, ⟨12, 8, .rw, 0⟩, ⟨0, 0, .rw, 0⟩]⟩

/-- What a word written to MBX_CFG gives the fields that software writes. -/
def cfgFields (q w : Nat) : List (Fld × Nat) := [(Reg.mbxCfgCqLog2sz q, w / 2 ^ 16), (Reg.mbxCfgSqLog2sz q, w / 2 ^ 8), (Reg.mbxCfgEn q, w / 2 ^ 0)]

theorem regAt_mbxCfg {q : Nat} (hq : q ≤ 1) : regAt (0x20010 + 0x100 * q) = some mbxCfgDesc := by
  interval_cases q <;> decide

theorem writeFields_mbxCfg {q : Nat} (hq : q ≤ 1) (v be : Nat) (s : State) : writeFields (0x20010 + 0x100 * q) v be mbxCfgDesc s =
    setFs (cfgFields q (mergeBytes (s.regWord (0x20010 + 0x100 * q)) v be)) s := by
  rw [writeFields_eq]
  generalize mergeBytes (s.regWord (0x20010 + 0x100 * q)) v be = w
  generalize maskBytes v be = m
  interval_cases q <;> rfl

theorem written_mbxCfg {q : Nat} (hq : q ≤ 1) (o s : State) : written (0x20010 + 0x100 * q) o s =
    mbxCfgWritten q (o.isF (Reg.mbxCfgEn q)) (o.isF (Reg.mbxCfgCfgErr q)) s := by
  interval_cases q <;> simp [written]

theorem writeIndex_mbxCfg {q : Nat} (hq : q ≤ 1) (v : Nat) (s : State) : writeIndex (0x20010 + 0x100 * q) v s = none := by
  interval_cases q <;> simp [writeIndex]

/-- A write of some bytes of MBX_CFG (R71, R87, R88). -/
theorem mbxCfg_written {q : Nat} {a : Access} {s : State} (h : SomeWrite a (0x20010 + 0x100 * q) s) (hq : q ≤ 1) : whileUp (busWrite a []) s =
    .next (mbxCfgWritten q (s.isF (Reg.mbxCfgEn q)) (s.isF (Reg.mbxCfgCfgErr q)) (setFs (cfgFields q (newWord a s)) s)) := by
  have hrow := whileUp_oneWord h
  obtain ⟨-, -, -, hoff, -⟩ := h
  have hat : AtReg a mbxCfgDesc s := ⟨by rw [hoff]; exact regAt_mbxCfg hq, ptsShut_outside (by omega) s, fun hw => absurd hw (by decide)⟩
  have hcore : isCore a.path = true → inGd a.off = false := fun _ => by
    rw [hoff]
    interval_cases q <;> decide
  rw [hrow, writeBar0_plain hat rfl (by decide) hcore (by omega) (by omega) (by rw [hoff]; exact writeIndex_mbxCfg hq _ s), newWord, hoff,
    writeFields_mbxCfg hq, written_mbxCfg hq]

/-- The sizes in a word of MBX_CFG are valid (R87). -/
def SizesValid (w : Nat) : Prop := 4 ≤ w / 256 % 32 ∧ w / 256 % 32 ≤ w / 65536 % 32 ∧ w / 65536 % 32 ≤ 12

/-- The fields that enabling a queue writes have places of their own. -/
theorem enableKeys_nodup {q : Nat} (hq : q ≤ 1) : ([Reg.mbxCfgCqLog2sz q, Reg.mbxCfgSqLog2sz q, Reg.mbxCfgEn q, Reg.mbxCfgCfgErr q, Reg.mbxSqHeadIndex q,
    Reg.mbxCqProdIndex q, Reg.mbxCqProdPhase q].map Fld.key).Nodup := by
  interval_cases q <;> decide

theorem cfgKeys_nodup {q : Nat} (hq : q ≤ 1) :
    ([Reg.mbxCfgCqLog2sz q, Reg.mbxCfgSqLog2sz q, Reg.mbxCfgEn q, Reg.mbxCfgCfgErr q].map Fld.key).Nodup :=
  List.Nodup.of_append_left (enableKeys_nodup hq)

/-- MBX_CFG as a write of word `w` leaves it, with CFG_ERR (R71, R87). -/
def cfgTaken (q w : Nat) (bad : Bool) (s : State) : State := setFs (cfgFields q w ++ [(Reg.mbxCfgCfgErr q, b2n bad)]) s

section

variable {q : Nat}

/-- What MBX_CFG reads after a write. -/
theorem cfgTaken_reads (hq : q ≤ 1) (w : Nat) (bad : Bool) (s : State) :
    (cfgTaken q w bad s).getF (Reg.mbxCfgCqLog2sz q) = w / 65536 % 32 ∧ (cfgTaken q w bad s).getF (Reg.mbxCfgSqLog2sz q) = w / 256 % 32 ∧
    (cfgTaken q w bad s).getF (Reg.mbxCfgEn q) = w % 2 ∧ (cfgTaken q w bad s).getF (Reg.mbxCfgCfgErr q) = b2n bad := by
  have hread : ∀ f v, (f, v) ∈ cfgFields q w ++ [(Reg.mbxCfgCfgErr q, b2n bad)] → (cfgTaken q w bad s).getF f = v % 2 ^ f.width :=
    fun f v h => setFs_getF (l := cfgFields q w ++ [(Reg.mbxCfgCfgErr q, b2n bad)]) (cfgKeys_nodup hq) h s
  refine ⟨hread _ _ (by simp [cfgFields]), hread _ _ (by simp [cfgFields]), ?_, ?_⟩
  · exact (hread _ (w / 2 ^ 0) (by simp [cfgFields])).trans (by rw [Nat.pow_zero, Nat.div_one]; rfl)
  · rw [hread _ _ (List.mem_append_right _ (List.mem_singleton_self _))]
    cases bad <;> rfl

theorem cfgTaken_shape (q w : Nat) (bad : Bool) (s : State) : ∃ x, cfgTaken q w bad s = { s with regs := x } := setFs_shape _ s

theorem cfgTaken_mbx (q w : Nat) (bad : Bool) (s : State) : (cfgTaken q w bad s).mbx = s.mbx := by
  obtain ⟨x, hx⟩ := cfgTaken_shape q w bad s
  rw [hx]

theorem cfgTaken_queue (q w : Nat) (bad : Bool) (s : State) (n : Nat) : (cfgTaken q w bad s).queue n = s.queue n :=
  queue_of_mbx (cfgTaken_mbx q w bad s) n

theorem cfgTaken_fields (q w : Nat) (bad : Bool) (s : State) :
    FieldsOf [Reg.mbxCfgEn q, Reg.mbxCfgCfgErr q, Reg.mbxCfgSqLog2sz q, Reg.mbxCfgCqLog2sz q] s (cfgTaken q w bad s) := by
  exact (setFs_fields _ s).mono (by simp [cfgFields])

theorem mbxSizesOk_iff {t : State} {w : Nat} (hcq : t.getF (Reg.mbxCfgCqLog2sz q) = w / 65536 % 32) (hsq : t.getF (Reg.mbxCfgSqLog2sz q) = w / 256 % 32) :
    mbxSizesOk q t = true ↔ SizesValid w := by
  unfold mbxSizesOk SizesValid
  simp only [hcq, hsq, Bool.and_eq_true, decide_eq_true_eq]
  omega

/-- What follows a write of MBX_CFG (R71, R87, R88), by EN and the sizes of the word written. -/
theorem mbxCfgWritten_cases (hq : q ≤ 1) (was bad : Bool) (w : Nat) (s : State) :
    (w % 2 = 1 → SizesValid w → was = false ∨ bad = true →
      mbxCfgWritten q was bad (setFs (cfgFields q w) s) = queueEnable q (cfgTaken q w false s)) ∧
    (w % 2 = 1 → ¬SizesValid w → mbxCfgWritten q was bad (setFs (cfgFields q w) s) = cfgTaken q w true s) ∧
    (w % 2 = 0 → was = true → mbxCfgWritten q was bad (setFs (cfgFields q w) s) = queueDisable q (cfgTaken q w false s)) := by
  have hread : ∀ f v, (f, v) ∈ cfgFields q w → (setFs (cfgFields q w) s).getF f = v % 2 ^ f.width :=
    fun f v h =>
    have hkeys : ((cfgFields q w).map (·.1.key) ++ [(Reg.mbxCfgCfgErr q).key]).Nodup := cfgKeys_nodup hq
    setFs_getF hkeys.of_append_left h s
  have hsizes : mbxSizesOk q (setFs (cfgFields q w) s) = true ↔ SizesValid w :=
    mbxSizesOk_iff (hread _ _ (by simp [cfgFields])) (hread _ _ (by simp [cfgFields]))
  have hsizes' : ∀ b, mbxSizesOk q (cfgTaken q w b s) = true ↔ SizesValid w := fun b =>
    mbxSizesOk_iff (cfgTaken_reads hq w b s).1 (cfgTaken_reads hq w b s).2.1
  have hen : (setFs (cfgFields q w) s).isF (Reg.mbxCfgEn q) = decide (w % 2 = 1) := by
    have h := hread (Reg.mbxCfgEn q) (w / 2 ^ 0) (by simp [cfgFields])
    rw [Nat.pow_zero, Nat.div_one] at h
    unfold State.isF
    rw [h]
    rfl
  have hall : ∀ en bad', (setFs (cfgFields q w) s).isF (Reg.mbxCfgEn q) = en → (en && !mbxSizesOk q (setFs (cfgFields q w) s)) = bad' →
      mbxCfgWritten q was bad (setFs (cfgFields q w) s) =
        if en && mbxSizesOk q (cfgTaken q w bad' s) && (!was || bad) then queueEnable q (cfgTaken q w bad' s)
        else if was && !en then queueDisable q (cfgTaken q w bad' s) else cfgTaken q w bad' s := by
    rintro _ _ rfl rfl
    rfl
  refine ⟨fun h1 hv hor => ?_, fun h1 hv => ?_, fun h0 hwas => ?_⟩
  · rw [hall true false (by simp [hen, h1]) (by simp [hsizes.2 hv]), if_pos]
    rcases hor with h | h <;> simp [h, (hsizes' false).2 hv]
  · have hno : mbxSizesOk q (setFs (cfgFields q w) s) = false := Bool.eq_false_iff.2 (fun h => hv (hsizes.1 h))
    have hno' : mbxSizesOk q (cfgTaken q w true s) = false := Bool.eq_false_iff.2 (fun h => hv ((hsizes' true).1 h))
    rw [hall true true (by simp [hen, h1]) (by simp [hno]), if_neg (by simp [hno']), if_neg (by simp)]
  · rw [hall false false (by simp [hen, h0]) rfl, if_neg (by simp), if_pos (by simp [hwas])]

end

/-! ### A queue enabled -/

/-- A queue enabled, before waiting ends of empty hampers are looked at: head, tail and producer begin again (R87). -/
def queueStarted (q : Nat) (s : State) : State :=
  (ringReset (cqRing q) (s.setF (Reg.mbxSqHeadIndex q) 0)).setQueue q { s.queue q with tail := 0, fetchStopped := false }

theorem queueEnable_eq (q : Nat) (s : State) : queueEnable q s = emptyEnds q (queueStarted q s) := rfl

/-- What enabling a queue writes: the fields of MBX_CFG, then head, producer and PHASE (R87). -/
def startFields (q w : Nat) : List (Fld × Nat) :=
  cfgFields q w ++ [(Reg.mbxCfgCfgErr q, 0), (Reg.mbxSqHeadIndex q, 0), (Reg.mbxCqProdIndex q, 0), (Reg.mbxCqProdPhase q, 1)]

theorem queueStarted_regs (q w : Nat) (s : State) : (queueStarted q (cfgTaken q w false s)).regs =
    (setFs (startFields q w) s).regs := by
  unfold queueStarted
  rw [State.setQueue_regs]
  rfl

section

variable {q : Nat}

/-- What the registers read once a queue is enabled (R87). -/
theorem queueStarted_reads (hq : q ≤ 1) (w : Nat) (s : State) :
    (queueStarted q (cfgTaken q w false s)).getF (Reg.mbxCfgEn q) = w % 2 ∧ (queueStarted q (cfgTaken q w false s)).getF (Reg.mbxCfgCfgErr q) = 0 ∧
    (queueStarted q (cfgTaken q w false s)).getF (Reg.mbxCfgSqLog2sz q) = w / 256 % 32 ∧
    (queueStarted q (cfgTaken q w false s)).getF (Reg.mbxCfgCqLog2sz q) = w / 65536 % 32 ∧
    (queueStarted q (cfgTaken q w false s)).getF (Reg.mbxSqHeadIndex q) = 0 ∧ (queueStarted q (cfgTaken q w false s)).getF (Reg.mbxCqProdIndex q) = 0 ∧
    (queueStarted q (cfgTaken q w false s)).getF (Reg.mbxCqProdPhase q) = 1 := by
  have hread : ∀ f v, (f, v) ∈ startFields q w →
      (queueStarted q (cfgTaken q w false s)).getF f = v % 2 ^ f.width := fun f v h =>
    (getF_of_regs (queueStarted_regs q w s) f).trans (setFs_getF (l := startFields q w) (enableKeys_nodup hq) h s)
  refine ⟨(hread _ (w / 2 ^ 0) (by simp [startFields, cfgFields])).trans (by rw [Nat.pow_zero, Nat.div_one]; rfl), hread _ 0 (by simp [startFields]), hread _ _ (by simp [startFields, cfgFields]),
    hread _ _ (by simp [startFields, cfgFields]), hread _ 0 (by simp [startFields]), hread _ 0 (by simp [startFields]), hread _ 1 (by simp [startFields])⟩

theorem queueStarted_fields (q w : Nat) (s : State) : FieldsOf [Reg.mbxCfgEn q, Reg.mbxCfgCfgErr q, Reg.mbxCfgSqLog2sz q, Reg.mbxCfgCqLog2sz q,
    Reg.mbxSqHeadIndex q, Reg.mbxCqProdIndex q, Reg.mbxCqProdPhase q] s (queueStarted q (cfgTaken q w false s)) := by
  exact ((setFs_fields _ s).mono (by simp [startFields, cfgFields])).regs (queueStarted_regs q w s)

theorem queueStarted_queue (q : Nat) (s : State) : (queueStarted q s).queue q = { s.queue q with tail := 0, fetchStopped := false } :=
  queue_setQueue_same _ _ _

theorem queueStarted_other (hq : q ≤ 1) (s : State) : (queueStarted q s).queue (1 - q) = s.queue (1 - q) :=
  queue_setQueue_other hq _ _

theorem ringReset_shape (R : RingRegs) (s : State) : ∃ r g, ringReset R s = { s with regs := r, rings := g } := ⟨_, _, rfl⟩

theorem queueStarted_shape {s t : State} (ht : ∃ x, t = { s with regs := x }) (q : Nat) : queueStarted q t =
    { s with regs := (queueStarted q t).regs, rings := (queueStarted q t).rings, mbx := (queueStarted q t).mbx } := by
  obtain ⟨x, rfl⟩ := ht
  obtain ⟨m, hm⟩ := setQueue_shape (ringReset (cqRing q) (({ s with regs := x } : State).setF (Reg.mbxSqHeadIndex q) 0)) q
    { ({ s with regs := x } : State).queue q with tail := 0, fetchStopped := false }
  obtain ⟨r, g, hreset⟩ := ringReset_shape (cqRing q) (({ s with regs := x } : State).setF (Reg.mbxSqHeadIndex q) 0)
  rw [queueStarted, hm, hreset]
  rfl

/-! ### A queue disabled -/

/-- The hampers of a disabled queue: the one in service stays, with nothing left to start (R88). -/
def hampersKept (q : Nat) (s : State) : List Hamper :=
  if inService q s then ((s.queue q).hampers.take 1).map (fun h => { h with hend := h.hend && h.waiting = [], waiting := [] }) else []

theorem pendingOf_hampersKept {q : Nat} {s : State} {x : Queue} (h : x.hampers = hampersKept q s) : pendingOf x = 0 := by
  unfold pendingOf
  rw [h, hampersKept]
  split
  · simp [Function.comp_def]
  · rfl

/-- A queue disabled, with its entries not started discarded, before DISCARD and PENDING follow (R88). -/
def queueStopped (q : Nat) (s : State) : State :=
  let t := s.setQueue q { s.queue q with hampers := hampersKept q s, cancels := [] }
  { t with mbx := { t.mbx with odd := t.mbx.odd.filter (fun e => e.q ≠ q) } }

theorem queueDisable_eq (q : Nat) (s : State) : queueDisable q s =
    syncPending q (if decide (0 < pendingOf (s.queue q)) then (queueStopped q s).raiseBit (Reg.mbxStatusDiscard q) else queueStopped q s) := rfl

theorem queueStopped_regs (q : Nat) (s : State) : (queueStopped q s).regs = s.regs := State.setQueue_regs _ _ _

theorem queueDisable_mbx (q : Nat) (s : State) : (queueDisable q s).mbx = (queueStopped q s).mbx := by
  rw [queueDisable_eq]
  split <;> rfl

theorem queueDisable_queue (q : Nat) (s : State) : (queueDisable q s).queue q = { s.queue q with hampers := hampersKept q s, cancels := [] } :=
  (queue_of_mbx (queueDisable_mbx q s) q).trans (queue_setQueue_same _ _ _)

theorem queueDisable_other (hq : q ≤ 1) (s : State) : (queueDisable q s).queue (1 - q) = s.queue (1 - q) :=
  (queue_of_mbx (queueDisable_mbx q s) _).trans (queue_setQueue_other hq s _)

theorem queueDisable_shape {s t : State} (ht : ∃ x, t = { s with regs := x }) (q : Nat) : queueDisable q t =
    { s with regs := (queueDisable q t).regs, mbx := (queueDisable q t).mbx, bus := (queueDisable q t).bus } := by
  obtain ⟨x, rfl⟩ := ht
  obtain ⟨m, hm⟩ : ∃ m, queueStopped q { s with regs := x } = { s with regs := x, mbx := m } := by
    obtain ⟨m, hm⟩ := setQueue_shape { s with regs := x } q
      { ({ s with regs := x } : State).queue q with hampers := hampersKept q { s with regs := x }, cancels := [] }
    rw [queueStopped, hm]
    exact ⟨_, rfl⟩
  rw [queueDisable_eq, hm]
  split <;> rfl

theorem discard_ne_pending (q : Nat) : (Reg.mbxStatusDiscard q).key ≠ (Reg.mbxStatusPending q).key := by
  simp only [Fld.key, Reg.mbxStatusDiscard, Reg.mbxStatusPending]
  omega

/-- DISCARD is set where there was an entry to discard, and PENDING is 0 (R88). -/
theorem queueDisable_status (q : Nat) (s : State) : (queueDisable q s).getF (Reg.mbxStatusPending q) = 0 ∧
    (queueDisable q s).getF (Reg.mbxStatusDiscard q) = (if 0 < pendingOf (s.queue q) then 1 else s.getF (Reg.mbxStatusDiscard q)) ∧
    FieldsOf [Reg.mbxStatusPending q, Reg.mbxStatusDiscard q] s (queueDisable q s) := by
  have hqueue := queueDisable_queue q s
  have hpend : (queueDisable q s).getF (Reg.mbxStatusPending q) = pendingOf ((queueDisable q s).queue q) % 2 ^ 16 := by
    rw [queue_of_mbx (queueDisable_mbx q s)]
    rw [queueDisable_eq]
    split
    · exact getF_setF_same _ _ _
    · exact getF_setF_same _ _ _
  rw [pendingOf_hampersKept (congrArg Queue.hampers hqueue)] at hpend
  have hregs := queueStopped_regs q s
  have hbase : FieldsOf [Reg.mbxStatusPending q, Reg.mbxStatusDiscard q] s (queueStopped q s) := (FieldsOf.refl _ s).regs hregs
  refine ⟨hpend, ?_, ?_⟩
  · rw [queueDisable_eq]
    by_cases hany : 0 < pendingOf (s.queue q)
    · rw [if_pos (by simpa using hany), if_pos hany]
      exact read_setF (discard_ne_pending q) (getF_raiseBit_same _ rfl)
    · rw [if_neg (by simpa using hany), if_neg hany]
      exact read_setF (discard_ne_pending q) (getF_of_regs hregs _)
  · rw [queueDisable_eq]
    split
    · exact (hbase.raiseBit (by simp)).setF (by simp) _
    · exact hbase.setF (by simp) _

end
/-! ### HST_CANCEL -/

@[simp] theorem taken_fw (c : Cmd) (s : State) : (taken c s).fw = s.fw := taken_frame c s .fw (by decide)


section

variable {c : Cmd} {s : State}

/-- An entry not started is named among the cancellations of its queue (R113). -/
def cancelNoted (q n : Nat) (s : State) : State :=
  if (s.queue q).cancels.contains n then s else s.setQueue q { s.queue q with cancels := (s.queue q).cancels ++ [n] }

theorem cancelNoted_frame (q n : Nat) (s : State) : FrameOf [.mbx] s (cancelNoted q n s) :=
  ite_k (FrameOf.refl _ s) (State.setQueue_keeps (frame_keeps [.mbx] s) (sub_of rfl) (FrameOf.refl _ s))

theorem hstCancel_waiting {n : Nat} (h : Starts hstCancelSpec c s) (ht : cancelTarget c s = some (.inr n)) : exec (.hstCancel c) s =
    .next (ended hstCancelSpec c s (cancelNoted (cu c 2 1) n (taken c s)) (okWith [(32, le 1 0), (34, le 2 n), (36, le 4 0)])) := by
  have hrun := runCmd_starts (f := hstCancelEffect (cancelTarget c s)) h
  rw [ht] at hrun
  show runCmd hstCancelSpec (hstCancelEffect (cancelTarget c s)) c s = _
  rw [ht]
  exact hrun

theorem hstCancel_stepped {o : LongOp} (h : Starts hstCancelSpec c s) (ht : cancelTarget c s = some (.inl o)) : exec (.hstCancel c) s =
    .next (ended hstCancelSpec c s (longEnds stCancelled 0 (8 * b2n o.resumed) true o (taken c s))
      (okWith [(32, le 1 1), (34, le 2 o.slot), (36, le 4 o.done)])) := by
  have hrun := runCmd_starts (f := hstCancelEffect (cancelTarget c s)) h
  rw [ht] at hrun
  show runCmd hstCancelSpec (hstCancelEffect (cancelTarget c s)) c s = _
  rw [ht]
  exact hrun

end

/-! ### Steps -/

theorem steppedCommandStep_takes {amount : Nat} {o : LongOp} {k : CmdSpec} {f : LongOp → State → State × StepEnd} {s : State}
    (ho : s.mbx.longOp = some o) (hturn : stepTurn s = true) (hstep : stepOf amount o.opcode = some (k, f)) :
    exec (.steppedCommandStep amount) s = .next (afterStep k o (f o s)) := by
  show execSteppedCommandStep amount s = _
  simp [execSteppedCommandStep, ho, hturn, hstep]

theorem steppedCommandStep_waits (amount : Nat) {s : State} (h : s.mbx.longOp = none ∨ stepTurn s = false) :
    exec (.steppedCommandStep amount) s = .next s := by
  show execSteppedCommandStep amount s = _
  unfold execSteppedCommandStep
  cases ho : s.mbx.longOp with
  | none => rfl
  | some o => simp [h.resolve_left (by simp [ho])]

/-- Settles O23: doorbells by the entries they add, MBX_CFG by EN and sizes written, the commands by the shared run. -/
theorem queuesFormHampers : Obligations.QueuesFormHampers := by
  unfold Obligations.QueuesFormHampers
  refine ⟨?_, ?_, ?_, ?_, ?_, ?_, ?_, ?_, ?_, ?_, ?_, ?_, ?_⟩
  · intro a q fs s hbell hq hen herr hsize htail hne
    have htaken : BellTaken q a.data (rung a s) := ⟨hen, herr, hsize⟩
    have hn : rungEntries q a.data (rung a s) ≠ 0 := fun h => hne ((rungEntries_eq_zero (s := rung a s) hsize htail).1 h)
    obtain ⟨hshadow, hfields⟩ := hamperFormed_reads (q := q) (s := rung a s) a.data fs
    have hqueue := hamperFormed_queue (q := q) (s := rung a s) a.data fs
    refine ⟨_, (mbxDoorbell_row hbell hq fs).trans (congrArg _ (doorbell_forms htaken hn fs)), congrArg Queue.tail hqueue, ?_,
      hamperFormed_other hq a.data fs, hshadow, hfields, ?_⟩
    · refine (congrArg Queue.hampers hqueue).trans ?_
      simp only [rungQueue, rungHamper, rungFetched, List.map_map]
      rfl
    · exact hamperFormed_shape (s := rung a s) a.data fs
  · intro a q fs s hbell hq hen herr hsize htail heq hend
    have htaken : BellTaken q a.data (rung a s) := ⟨hen, herr, hsize⟩
    have hn := (rungEntries_eq_zero (s := rung a s) hsize htail).2 heq
    exact (mbxDoorbell_row hbell hq fs).trans (congrArg _ (doorbell_idle htaken hn hend fs))
  · intro a q fs s hbell hq hen herr hsize htail heq hend
    have htaken : BellTaken q a.data (rung a s) := ⟨hen, herr, hsize⟩
    have hn := (rungEntries_eq_zero (s := rung a s) hsize htail).2 heq
    exact (mbxDoorbell_row hbell hq fs).trans (congrArg _ (doorbell_ends htaken hn hend fs))
  · intro a q fs s hbell hq hbad
    exact (mbxDoorbell_row hbell hq fs).trans (congrArg _ (doorbell_discarded (s := rung a s) hbad fs))
  · intro a q s hw hq hwas hen h4 hle h12
    have hrun := (mbxCfgWritten_cases hq (s.isF (Reg.mbxCfgEn q)) (s.isF (Reg.mbxCfgCfgErr q)) (newWord a s) s).1 hen ⟨h4, hle, h12⟩ hwas
    obtain ⟨hren, hrerr, hrsq, hrcq, hrhead, hrprod, hrphase⟩ := queueStarted_reads hq (newWord a s) s
    have hqueue := queueStarted_queue q (cfgTaken q (newWord a s) false s)
    rw [cfgTaken_queue] at hqueue
    have hother := queueStarted_other hq (cfgTaken q (newWord a s) false s)
    rw [cfgTaken_queue] at hother
    have hfields := queueStarted_fields q (newWord a s) s
    have hshape := queueStarted_shape (cfgTaken_shape q (newWord a s) false s) q
    have hrow := mbxCfg_written hw hq
    rw [hrun, queueEnable_eq] at hrow
    generalize queueStarted q (cfgTaken q (newWord a s) false s) = u at *
    exact ⟨u, hrow, hren.trans hen, hrerr, hrsq, hrcq, hrhead, by rw [hqueue], hrprod, hrphase, hother, hfields, hshape,
      fun hends => emptyEnds_idle (by rw [hqueue, hends])⟩
  · intro a q s hw hq hen hsizes
    have hrun := (mbxCfgWritten_cases hq (s.isF (Reg.mbxCfgEn q)) (s.isF (Reg.mbxCfgCfgErr q)) (newWord a s) s).2.1 hen hsizes
    obtain ⟨hrcq, hrsq, hren, hrerr⟩ := cfgTaken_reads hq (newWord a s) true s
    have hfields := cfgTaken_fields q (newWord a s) true s
    obtain ⟨x, hshape⟩ := cfgTaken_shape q (newWord a s) true s
    have hrow := mbxCfg_written hw hq
    rw [hrun] at hrow
    generalize cfgTaken q (newWord a s) true s = u at *
    exact ⟨u, hrow, hren.trans hen, hrerr, hrsq, hrcq, hfields, by rw [hshape]⟩
  · intro a q s hw hq hwas hen
    have hrun := (mbxCfgWritten_cases hq (s.isF (Reg.mbxCfgEn q)) (s.isF (Reg.mbxCfgCfgErr q)) (newWord a s) s).2.2 hen hwas
    obtain ⟨-, -, hren, -⟩ := cfgTaken_reads hq (newWord a s) false s
    have hcfg := cfgTaken_fields q (newWord a s) false s
    have hqs := cfgTaken_queue q (newWord a s) false s
    have hmbx := cfgTaken_mbx q (newWord a s) false s
    have hshape := queueDisable_shape (cfgTaken_shape q (newWord a s) false s) q
    have hrow := mbxCfg_written hw hq
    rw [hrun] at hrow
    generalize cfgTaken q (newWord a s) false s = u at *
    obtain ⟨hpend, hdiscard, hfields⟩ := queueDisable_status q u
    have hqueue := queueDisable_queue q u
    refine ⟨queueDisable q u, hrow, (hfields _ ?_).trans (hren.trans hen), by rw [hqueue], pendingOf_hampersKept (by rw [hqueue]), hpend, fun hidle => ?_, ?_,
      (queueDisable_other hq u).trans (hqs _), hshape⟩
    · interval_cases q <;> decide
    · have hidle' : inService q u = false := by
        unfold inService at hidle ⊢
        rw [hmbx]
        exact hidle
      rw [hqueue, hampersKept, hidle']
      rfl
    · rw [hdiscard, hqs, hcfg _ (by interval_cases q <;> decide)]
  · exact fun c s h => ⟨_, runCmd_starts h, FrameOf.refl _ _, rfl⟩
  · intro c s h
    refine ⟨_, runCmd_starts h, upd_fw (frame_keeps [.fw] _) (sub_of rfl) (FrameOf.refl _ _), ?_⟩
    rw [← taken_fw c s]
    rfl
  · exact fun c s n h ht => ⟨_, hstCancel_waiting h ht, cancelNoted_frame _ _ _, rfl⟩
  · exact fun c s o h ht => ⟨_, hstCancel_stepped h ht, rfl, longEnds_keeps (frame_keeps _ _) (sub_of rfl) (FrameOf.refl _ _)⟩
  · exact fun amount o k f s ho hturn hstep => steppedCommandStep_takes ho hturn hstep
  · exact fun amount s h => steppedCommandStep_waits amount h

end Sys2Proof.Machine

/-! SUPPORT. The twin link's frames (R575): heartbeats and TIME frames sent, and frames that are not heard or have a bad CRC. -/

namespace Sys2Proof.Machine

theorem not_deaf {s : State} (h : twHears s = true) : ¬ twHears s = false := by simp [h]

/-- Where the link is heard it is up. -/
theorem linkUp_of_hears {s : State} (h : twHears s = true) : s.isF Reg.twStatusLinkUp = true := by
  unfold twHears at h
  simp only [Bool.and_eq_true] at h
  exact h.2

/-- The frame a device sends leads the frames sent. -/
theorem twSend_sent (type : Nat) (fields : List Int) (data : Bytes) (s : State) :
    (twSend type fields data s).tw.sent = if s.isF Reg.twStatusLinkUp = true then
      (⟨type, Config.twinPref % 2 = 1, spGet 0 s.tw.seqs type, s.dtt, fields, data⟩ :: s.tw.sent).take 8 else s.tw.sent := by
  unfold twSend
  split
  · rfl
  · rfl

theorem twSend_dtt (type : Nat) (fields : List Int) (data : Bytes) (s : State) : (twSend type fields data s).dtt = s.dtt :=
  twSend_keeps (same_keeps .dtt s) (sub_of rfl) rfl

/-- The heartbeat goes out at its interval. -/
theorem twHeartbeatTx_sends {s : State} (h : twHears s = true) (hdue : 15625 ≤ (s.dtt - s.tw.lastHb) * 2) :
    ∃ t, exec .twHeartbeatTx s = .next t ∧ t.tw.lastHb = s.dtt ∧
      t.tw.sent.head? = some ⟨1, Config.twinPref % 2 = 1, spGet 0 s.tw.seqs 1, s.dtt, [(s.twinState : Int), s.qc 0, s.qc 1, s.getF Reg.twClaim,
        b2n (!s.innerLocked || !s.isF Reg.hstStatusReady), Config.twinPref % 2, Config.serial], []⟩ := by
  have hrun : ¬ (twHears s = false ∨ (s.dtt - s.tw.lastHb) * 2 < 15625) := by
    rw [h]
    simp only [Bool.true_eq_false, false_or]
    omega
  refine ⟨_, if_neg hrun, twSend_dtt _ _ _ s, ?_⟩
  refine (congrArg List.head? (twSend_sent _ _ _ s)).trans ?_
  rw [if_pos (linkUp_of_hears h)]
  rfl

/-- The TIME frame goes out at its interval. -/
theorem twTimeTx_sends {s : State} (h : s.twinState = 4 ∨ s.twinState = 5) (hdue : s.tw.lastTime + 781250 ≤ s.dtt) :
    ∃ t, exec .twTimeTx s = .next t ∧ t.tw.lastTime = s.dtt ∧
      t.tw.sent = (if s.isF Reg.twStatusLinkUp = true then (⟨2, Config.twinPref % 2 = 1, spGet 0 s.tw.seqs 2, s.dtt,
        [s.timeNow 0, s.stepc 0, (s.seg 0).rate, s.timeNow 1, s.stepc 1, (s.seg 1).rate, s.served], []⟩ :: s.tw.sent).take 8 else s.tw.sent) := by
  have hrun : ¬ ((s.twinState ≠ 4 ∧ s.twinState ≠ 5) ∨ s.dtt < s.tw.lastTime + 781250) := by omega
  exact ⟨_, if_neg hrun, twSend_dtt _ _ _ s, twSend_sent _ _ _ s⟩

end Sys2Proof.Machine

/-! SUPPORT. Fields of one register block past an operation: all but those listed stay. -/

namespace Sys2Proof.Machine

/-- Every field of register block `b` but those listed reads in `t` as it read in `s`. -/
def BlockFields (b : Nat) (fs : List Fld) (s t : State) : Prop := ∀ f : Fld, regPart f.addr = b → f.key ∉ fs.map Fld.key → t.getF f = s.getF f

theorem BlockFields.refl (b : Nat) (fs : List Fld) (s : State) : BlockFields b fs s s := fun _ _ _ => rfl

theorem BlockFields.isF {b : Nat} {fs : List Fld} {s t : State} (h : BlockFields b fs s t) {f : Fld} (hf : regPart f.addr = b)
    (hne : f.key ∉ fs.map Fld.key) : t.isF f = s.isF f := isF_of_getF (h f hf hne)

/-- A field listed may be written. -/
theorem BlockFields.setF {b : Nat} {fs : List Fld} {s t : State} (h : BlockFields b fs s t) {f : Fld} (hf : f.key ∈ fs.map Fld.key) (v : Nat) :
    BlockFields b fs s (t.setF f v) :=
  fun g hg hne => (getF_setF_ne t (f := f) (g := g) v (fun hk => hne (hk ▸ hf))).trans (h g hg hne)

/-- An operation on other parts keeps the fields of the block. -/
theorem blockFields_keeps {b : Nat} (hb : b < 25) (fs : List Fld) (s0 : State) : Keeps (BlockFields b fs s0) (without (Part.ofNat b)) := by
  have hidx : ∀ n, n < 25 → (Part.ofNat n).ctorIdx = n := by decide
  have hregs : ∀ n, n < 25 → ∀ s t : State, (Part.ofNat n).same s t → sameRegs n s t := by
    intro n hn
    interval_cases n <;> exact fun _ _ => id
  have hno : ¬ (without (Part.ofNat b)).testBit 100 = true := fun h => absurd (without_bit _ _ h).2 (by decide)
  exact {
    setF := fun s f v ha h g hg hne => (hregs b hb _ _ (Part.same_setF _ s f v (without_bit _ _ ha).1) g hg).trans (h g hg hne)
    drop := fun s q ha h g hg hne => (hregs b hb _ _ (Part.same_drop _ s q (fun e he => (without_bit _ _ (ha e he)).1)) g hg).trans (h g hg hne)
    dma := fun s a bs _ h => h
    rest := fun s t hr _ _ h f hf hne => (getF_of_regs hr f).trans (h f hf hne)
    again := fun s ha _ => absurd ha hno }

end Sys2Proof.Machine

/-! SUPPORT. The partner's heartbeat (R572, R577, R579, R580): what is noted of it, and how the state follows. -/

namespace Sys2Proof.Machine

/-- The heartbeat noted, with the time since which the partner shows FAULT. -/
def hbNoted (h : Heartbeat) (s : State) : State :=
  { s with tw := { s.tw with hb := some h, faultFrom := if h.fault then (match s.tw.faultFrom with | some t => some t | none => some s.dtt) else none } }

/-- A link fault ends with the heartbeat that comes. -/
def linkHeard (s : State) : State :=
  if s.isF Reg.twStatusLinkFault then raiseEv 132 3 0x0E02 [(20, le 1 0)] (s.setB Reg.twStatusLinkFault false) else s

/-- The state in which the device answers a heartbeat: it is noted, the straps are compared and a link fault has ended. -/
def hbHeard (h : Heartbeat) (s : State) : State := linkHeard (strapCheck h.pref h.serial (hbNoted h s))

/-- How the twin state and the domains' quality follow a heartbeat. -/
def hbFollow (h : Heartbeat) (s : State) : State :=
  if s.twinState = 1 then
    if h.state = 4 ∨ h.state = 5 then setTwin 2 2 s
    else if h.state = 1 then (if countsPref s then setTwin 5 2 s else setTwin 2 2 s)
    else s
  else if (s.twinState = 4 ∨ s.twinState = 5) ∧ (h.state = 4 ∨ h.state = 5) then
    if s.getF Reg.twClaim < h.claim ∨ (s.getF Reg.twClaim = h.claim ∧ countsPref s = false) then setTwin 2 5 s else s
  else if s.twinState = 5 ∧ h.state = 3 then setTwin 4 7 s
  else if s.twinState = 3 ∧ s.isF Reg.twStatusAligned = true then followQc 1 h.qcB (followQc 0 h.qcA s)
  else s

/-- A good heartbeat of a link that is heard is noted and followed. -/
theorem twHeartbeatRx_good {state qcA qcB claim : Nat} {fault : Bool} {pref serial : Nat} {s : State} (h : twHears s = true) :
    exec (.twHeartbeatRx true state qcA qcB claim fault pref serial) s =
      .next (hbFollow ⟨s.dtt, state, qcA, qcB, claim, fault, pref, serial⟩ (hbHeard ⟨s.dtt, state, qcA, qcB, claim, fault, pref, serial⟩ s)) := by
  show execTwHeartbeatRx true state qcA qcB claim fault pref serial s = _
  unfold execTwHeartbeatRx
  rw [if_neg (not_deaf h), if_neg (by decide)]
  extract_lets src noted checked heard st claims own
  have hheard : heard = hbHeard ⟨s.dtt, state, qcA, qcB, claim, fault, pref, serial⟩ s := rfl
  rw [← hheard]
  clear_value heard
  simp only [hbFollow, apply_ite Host.Outcome.next, st, claims, own, Bool.or_eq_true, decide_eq_true_eq]

/-! What is noted of a heartbeat. -/

theorem linkHeard_tw (s : State) : (linkHeard s).tw = s.tw := by
  unfold linkHeard
  split
  · exact raiseEv_keeps (same_keeps .tw s) (sub_of rfl) rfl
  · rfl

theorem strapCheck_tw (pref serial : Nat) (s : State) : (strapCheck pref serial s).tw = s.tw := strapCheck_keeps (same_keeps .tw s) (sub_of rfl) rfl

theorem hbHeard_tw (h : Heartbeat) (s : State) : (hbHeard h s).tw = (hbNoted h s).tw := (linkHeard_tw _).trans (strapCheck_tw _ _ _)

theorem linkHeard_fields (s : State) : BlockFields 20 [Reg.twStatusLinkFault] s (linkHeard s) := by
  have h := BlockFields.refl 20 [Reg.twStatusLinkFault] s
  exact ite_k (raiseEv_keeps (blockFields_keeps (by decide) _ s) (sub_of rfl) (h.setF (f := Reg.twStatusLinkFault) (by decide) _)) h

/-- An event leaves the twin block as it is. -/
theorem raiseEv_getF_tw {src sev code : Nat} {fs : List (Nat × Bytes)} {s : State} {f : Fld} (hf : regPart f.addr = 20) :
    (raiseEv src sev code fs s).getF f = s.getF f := raiseEv_keeps (same_keeps .rTw s) (sub_of rfl) (fun _ _ => rfl) f hf

theorem linkHeard_linkFault (s : State) : (linkHeard s).isF Reg.twStatusLinkFault = false := by
  unfold linkHeard
  split
  case isTrue => exact (isF_of_getF (raiseEv_getF_tw part_twStatusLinkFault)).trans (isF_setB_same s Reg.twStatusLinkFault false rfl)
  case isFalse h => exact Bool.eq_false_iff.2 h

theorem strapCheck_fields (pref serial : Nat) (s : State) :
    BlockFields 20 [Reg.twStatusPartPref, Reg.twStatusStrapConflict] s (strapCheck pref serial s) := by
  unfold strapCheck
  extract_lets own s1 conflict
  have h1 : BlockFields 20 [Reg.twStatusPartPref, Reg.twStatusStrapConflict] s s1 :=
    (BlockFields.refl 20 _ s).setF (f := Reg.twStatusPartPref) (by decide) _
  exact ite_k h1 (raiseEv_keeps (blockFields_keeps (by decide) _ s) (sub_of rfl) (h1.setF (f := Reg.twStatusStrapConflict) (by decide) _))

/-- The straps' marks: the partner's strap and whether it equals the own one (R580). -/
theorem strapCheck_marks (pref serial : Nat) (s : State) : (strapCheck pref serial s).isF Reg.twStatusPartPref = decide (pref = 1) ∧
    (strapCheck pref serial s).isF Reg.twStatusStrapConflict = decide (pref = s.getF Reg.twStatusPref) := by
  unfold strapCheck
  extract_lets own s1 conflict
  have hpart : s1.isF Reg.twStatusPartPref = decide (pref = 1) := isF_setB_same s Reg.twStatusPartPref _ rfl
  split
  case isTrue h => exact ⟨hpart, h⟩
  case isFalse h =>
    exact ⟨(isF_of_getF (raiseEv_getF_tw part_twStatusPartPref)).trans ((isF_setF_ne s1 _ (by decide)).trans hpart),
      (isF_of_getF (raiseEv_getF_tw part_twStatusStrapConflict)).trans (isF_setB_same s1 Reg.twStatusStrapConflict conflict rfl)⟩

/-- What the state that answers a heartbeat shows of the straps and the link (R580, R581). -/
theorem hbHeard_marks (h : Heartbeat) (s : State) : (hbHeard h s).isF Reg.twStatusPartPref = decide (h.pref = 1) ∧
    (hbHeard h s).isF Reg.twStatusStrapConflict = decide (h.pref = s.getF Reg.twStatusPref) ∧ (hbHeard h s).isF Reg.twStatusLinkFault = false := by
  obtain ⟨hpart, hconflict⟩ := strapCheck_marks h.pref h.serial (hbNoted h s)
  have hlink := linkHeard_fields (strapCheck h.pref h.serial (hbNoted h s))
  exact ⟨(hlink.isF rfl (by decide)).trans hpart, (hlink.isF rfl (by decide)).trans hconflict, linkHeard_linkFault _⟩

/-- Every other field of the twin block stays as a heartbeat is heard. -/
theorem hbHeard_getF {h : Heartbeat} {s : State} {f : Fld} (hf : regPart f.addr = 20)
    (hne : f.key ∉ [Reg.twStatusPartPref, Reg.twStatusStrapConflict, Reg.twStatusLinkFault].map Fld.key) : (hbHeard h s).getF f = s.getF f := by
  simp only [List.map_cons, List.map_nil, List.mem_cons, List.not_mem_nil, or_false, not_or] at hne
  obtain ⟨hpart, hconflict, hfault⟩ := hne
  exact (linkHeard_fields _ f hf (by simpa using hfault)).trans (strapCheck_fields _ _ _ f hf (by simpa using ⟨hpart, hconflict⟩))

/-- Whether the device counts as preferred once the heartbeat is heard (R580). -/
theorem countsPref_hbHeard (h : Heartbeat) (s : State) : countsPref (hbHeard h s) = true ↔
    (if h.pref = s.getF Reg.twStatusPref then Config.serial < h.serial else s.isF Reg.twStatusPref = true) := by
  obtain ⟨-, hconflict, -⟩ := hbHeard_marks h s
  have hpref : (hbHeard h s).isF Reg.twStatusPref = s.isF Reg.twStatusPref := isF_of_getF (hbHeard_getF rfl (by decide))
  unfold countsPref
  rw [hconflict, hpref, hbHeard_tw]
  by_cases heq : h.pref = s.getF Reg.twStatusPref
  · simp [heq, hbNoted]
  · simp [heq]

/-! What a change of state leaves of the partner. -/

/-- The state and the marks that follow it. -/
def stateMarks : List Fld := [Reg.twStatusState, Reg.twStatusAligned, Reg.twStatusWtrRun]

/-- What is known of the partner stays, and in the twin block no more than the state and its marks changes. -/
structure PartnerKept (s t : State) : Prop where
  regs : BlockFields 20 stateMarks s t
  hb : t.tw.hb = s.tw.hb
  faultFrom : t.tw.faultFrom = s.tw.faultFrom

theorem PartnerKept.refl (s : State) : PartnerKept s s := ⟨BlockFields.refl _ _ s, rfl, rfl⟩

theorem ackEnds_tw (w : AckWait) (e : Cpl) (s : State) : (ackEnds w e s).tw = { s.tw with forwarded := s.tw.forwarded.filter (fun x => x.1 ≠ w.seq) } := by
  unfold ackEnds
  extract_lets mbx tw s1
  exact ite_k (P := Part.same .tw s1) rfl (deliver_keeps (same_keeps .tw s1) (sub_of rfl) rfl)

theorem ackDrop_tw (s : State) : (ackDrop s).tw = { s.tw with forwarded := (ackDrop s).tw.forwarded } := by
  unfold ackDrop
  split
  case h_1 => rfl
  case h_2 w hw =>
    extract_lets s1
    have h1 : s1.tw = s.tw := raiseEv_keeps (same_keeps .tw s) (sub_of rfl) rfl
    rw [ackEnds_tw, h1]

theorem mirrorsLeave_tw (old st : Nat) (s : State) :
    (mirrorsLeave old st s).tw = { s.tw with mirrors := (mirrorsLeave old st s).tw.mirrors, forwarded := (mirrorsLeave old st s).tw.forwarded } := by
  unfold mirrorsLeave
  split
  · rfl
  · split
    · rfl
    · split
      · rw [ackDrop_tw]
      · rfl

theorem setTwin_partnerKept (st cause : Nat) (s : State) : PartnerKept s (setTwin st cause s) := by
  by_cases h : s.twinState = st
  · unfold setTwin
    rw [if_pos h]
    exact PartnerKept.refl s
  have hkept := (setTwin_kept (cause := cause) h).tw
  rw [mirrorsLeave_tw] at hkept
  refine ⟨fun f hf hne => ?_, by rw [hkept]; rfl, by rw [hkept]; rfl⟩
  simp only [stateMarks, List.map_cons, List.mem_cons, not_or] at hne
  obtain ⟨hst, hmarks⟩ := hne
  exact (setTwin_getF_same h hf).trans (enterTwin_getF hf (by simpa [twinMarks] using hmarks) hst)

theorem followQc_partnerKept (d q : Nat) (s : State) : PartnerKept s (followQc d q s) := by
  have hregs : Part.same .rTw s (followQc d q s) := followQc_keeps (same_keeps .rTw s) (sub_of rfl) (Part.same_refl .rTw s)
  have htw : (followQc d q s).tw = s.tw := followQc_keeps (same_keeps .tw s) (sub_of rfl) rfl
  exact ⟨fun f hf _ => hregs f hf, by rw [htw], by rw [htw]⟩

theorem PartnerKept.trans {s t u : State} (h : PartnerKept s t) (h' : PartnerKept t u) : PartnerKept s u :=
  ⟨fun f hf hne => (h'.regs f hf hne).trans (h.regs f hf hne), h'.hb.trans h.hb, h'.faultFrom.trans h.faultFrom⟩

theorem hbFollow_partnerKept (h : Heartbeat) (s : State) : PartnerKept s (hbFollow h s) := by
  have hsame := PartnerKept.refl s
  unfold hbFollow
  refine ite_k (ite_k (setTwin_partnerKept _ _ s) (ite_k (ite_k (setTwin_partnerKept _ _ s) (setTwin_partnerKept _ _ s)) hsame)) ?_
  refine ite_k (ite_k (setTwin_partnerKept _ _ s) hsame) (ite_k (setTwin_partnerKept _ _ s) (ite_k ?_ hsame))
  exact (followQc_partnerKept 0 _ s).trans (followQc_partnerKept 1 _ _)

/-! How the twin state follows a heartbeat (R572, R579). -/

section

variable {h : Heartbeat} {s : State}

theorem hbHeard_twinState : (hbHeard h s).twinState = s.twinState := hbHeard_getF part_twStatusState (by decide)

theorem hbFollow_linking (hst : s.twinState = 1) : (hbFollow h s).twinState =
    if h.state = 4 ∨ h.state = 5 then 2 else if h.state = 1 then (if countsPref s = true then 5 else 2) else 1 := by
  have hto : ∀ st, 1 ≠ st → (setTwin st 2 s).twinState = st % 8 := fun st hne => setTwin_twinState (by rw [hst]; exact hne)
  unfold hbFollow
  rw [if_pos hst]
  split
  · exact hto 2 (by decide)
  · split
    · split
      · exact hto 5 (by decide)
      · exact hto 2 (by decide)
    · exact hst

theorem hbFollow_claims (hst : s.twinState = 4 ∨ s.twinState = 5) (hclaims : h.state = 4 ∨ h.state = 5) : (hbFollow h s).twinState =
    if s.getF Reg.twClaim < h.claim ∨ (s.getF Reg.twClaim = h.claim ∧ countsPref s = false) then 2 else s.twinState := by
  unfold hbFollow
  rw [if_neg (by omega), if_pos ⟨hst, hclaims⟩]
  split
  · exact setTwin_twinState (by omega)
  · rfl

theorem hbFollow_alone (hst : s.twinState = 5) (hstandby : h.state = 3) : (hbFollow h s).twinState = 4 := by
  unfold hbFollow
  rw [if_neg (by omega), if_neg (by omega), if_pos ⟨hst, hstandby⟩]
  exact setTwin_twinState (by omega)

theorem hbFollow_aligned (hst : s.twinState = 3) (hal : s.isF Reg.twStatusAligned = true) : hbFollow h s = followQc 1 h.qcB (followQc 0 h.qcA s) := by
  unfold hbFollow
  rw [if_neg (by omega), if_neg (by omega), if_neg (by omega), if_pos ⟨hst, hal⟩]

theorem followQc_twinState (d q : Nat) (s : State) : (followQc d q s).twinState = s.twinState :=
  followQc_keeps (same_keeps .rTw s) (sub_of rfl) (fun _ _ => rfl) _ part_twStatusState

theorem hbFollow_stays (hlink : s.twinState ≠ 1) (hclaims : ¬ ((s.twinState = 4 ∨ s.twinState = 5) ∧ (h.state = 4 ∨ h.state = 5)))
    (halone : ¬ (s.twinState = 5 ∧ h.state = 3)) : (hbFollow h s).twinState = s.twinState := by
  unfold hbFollow
  rw [if_neg hlink, if_neg hclaims, if_neg halone]
  split
  · exact (followQc_twinState 1 _ _).trans (followQc_twinState 0 _ s)
  · rfl

end

/-! The domains' quality follows the active's (R577). -/

/-- The state of a domain changes in the time base block no more than its own quality. -/
theorem setQc_fields (d st cause : Nat) (s : State) : BlockFields 3 [Reg.tbDStatusQc d] s (setQc d st cause s) := by
  have K := blockFields_keeps (b := 3) (by decide) [Reg.tbDStatusQc d] s
  have hshown : ∀ {u : State}, BlockFields 3 [Reg.tbDStatusQc d] s u → BlockFields 3 [Reg.tbDStatusQc d] s (showBound d st u) := fun {u} hu => by
    unfold showBound
    extract_lets +onlyGivenNames -merge -underBinder e dom s1 s2 q s3 s4
    have h2 : BlockFields 3 [Reg.tbDStatusQc d] s s2 := by
      have h1 : BlockFields 3 [Reg.tbDStatusQc d] s s1 := State.setRd_keeps K (sub_of rfl) hu
      unfold s2
      clear_value e
      split
      · exact set64_k K 4 part_rsDBound_2 (sub_of rfl) h1
      · exact set64_k K 4 part_rsDBound_2 (sub_of rfl) (State.draw_keeps K (sub_of rfl) h1)
    have h4 : BlockFields 3 [Reg.tbDStatusQc d] s s4 := setF_k K 4 part_rsDSelQc (sub_of rfl) (h2.setF (f := Reg.tbDStatusQc d) (by simp) q)
    exact ite_k (noteQuality_keeps K (sub_of rfl) h4) h4
  unfold setQc
  extract_lets +onlyGivenNames -merge -underBinder old
  refine ite_k ?_ ?_
  · exact checkMinute_keeps K (sub_of rfl) (BlockFields.refl _ _ s)
  extract_lets +onlyGivenNames -merge -underBinder ho dom s1 s2 s3 s4
  have h4 : BlockFields 3 [Reg.tbDStatusQc d] s s4 := evdSend_keeps K (sub_of rfl) (raiseEv_keeps K (sub_of rfl) (checkMinute_keeps K (sub_of rfl)
    (hshown (State.setRd_keeps K (sub_of rfl) (BlockFields.refl _ _ s)))))
  exact ite_k (tstatFollow_keeps K (sub_of rfl) (outsRefresh_keeps K (sub_of rfl) (raiseBit_k K 0 part_hstIrqStatusQcChg (sub_of rfl) h4))) h4

theorem followQc_fields (d q : Nat) (s : State) : BlockFields 3 [Reg.tbDStatusQc d] s (followQc d q s) := by
  have K := blockFields_keeps (b := 3) (by decide) [Reg.tbDStatusQc d] s
  unfold followQc
  extract_lets s1
  have h1 : BlockFields 3 [Reg.tbDStatusQc d] s s1 := ite_k (BlockFields.refl _ _ s) (setQc_fields d _ _ s)
  exact setF_k K 4 part_rsDSelQc (sub_of rfl) (h1.setF (f := Reg.tbDStatusQc d) (by simp) q)

theorem followQc_shows {q : Nat} (hq : q < 256) (d : Nat) (s : State) : (followQc d q s).getF (Reg.tbDStatusQc d) = q := by
  unfold followQc
  extract_lets s1
  refine (Part.same_setF .rTb _ _ _ (by rw [part_rsDSelQc]; decide) _ part_tbDStatusQc).trans ?_
  exact (getF_setF_same s1 (Reg.tbDStatusQc d) q).trans (Nat.mod_eq_of_lt hq)

/-- Both domains show the quality the active showed. -/
theorem followBoth_shows (qa qb : Nat) (s : State) : (qa < 256 → (followQc 1 qb (followQc 0 qa s)).getF (Reg.tbDStatusQc 0) = qa) ∧
    (qb < 256 → (followQc 1 qb (followQc 0 qa s)).getF (Reg.tbDStatusQc 1) = qb) :=
  ⟨fun ha => (followQc_fields 1 qb _ _ part_tbDStatusQc (by decide)).trans (followQc_shows ha 0 s), fun hb => followQc_shows hb 1 _⟩

/-! The heartbeat as the statements speak of it. -/

section

variable {state qcA qcB claim : Nat} {fault : Bool} {pref serial : Nat} {s : State}

theorem twHeartbeatRx_notes (h : twHears s = true) : ∃ t, exec (.twHeartbeatRx true state qcA qcB claim fault pref serial) s = .next t ∧
    t.tw.hb = some ⟨s.dtt, state, qcA, qcB, claim, fault, pref, serial⟩ ∧ t.tw.faultFrom = (if fault then some (s.tw.faultFrom.getD s.dtt) else none) ∧
    t.isF Reg.twStatusPartPref = decide (pref = 1) ∧ t.isF Reg.twStatusStrapConflict = decide (pref = s.getF Reg.twStatusPref) ∧
    t.isF Reg.twStatusLinkFault = false ∧ t.getF Reg.twClaim = s.getF Reg.twClaim := by
  obtain ⟨hregs, hhb, hfault⟩ := hbFollow_partnerKept ⟨s.dtt, state, qcA, qcB, claim, fault, pref, serial⟩
    (hbHeard ⟨s.dtt, state, qcA, qcB, claim, fault, pref, serial⟩ s)
  obtain ⟨hpart, hconflict, hlink⟩ := hbHeard_marks ⟨s.dtt, state, qcA, qcB, claim, fault, pref, serial⟩ s
  refine ⟨_, twHeartbeatRx_good h, ?_, ?_, (hregs.isF rfl (by decide)).trans hpart, (hregs.isF rfl (by decide)).trans hconflict,
    (hregs.isF rfl (by decide)).trans hlink, (hregs _ part_twClaim (by decide)).trans (hbHeard_getF part_twClaim (by decide))⟩
  · rw [hhb, hbHeard_tw]
    rfl
  · rw [hfault, hbHeard_tw]
    unfold hbNoted
    cases s.tw.faultFrom <;> rfl

/-- LINKING joins a partner that claims, and of two that look for each other the preferred stands alone (R572). -/
theorem twHeartbeatRx_linking (h : twHears s = true) (hst : s.twinState = 1) :
    ∃ t, exec (.twHeartbeatRx true state qcA qcB claim fault pref serial) s = .next t ∧ t.twinState = (if state = 4 ∨ state = 5 then 2 else
      if state = 1 then (if (if pref = s.getF Reg.twStatusPref then Config.serial < serial else s.isF Reg.twStatusPref = true) then 5 else 2) else 1) := by
  refine ⟨_, twHeartbeatRx_good h, (hbFollow_linking (hbHeard_twinState.trans hst)).trans ?_⟩
  simp only [countsPref_hbHeard]

/-- The lower claim gives way (R579). -/
theorem twHeartbeatRx_claims (h : twHears s = true) (hst : s.twinState = 4 ∨ s.twinState = 5) (hclaims : state = 4 ∨ state = 5) :
    ∃ t, exec (.twHeartbeatRx true state qcA qcB claim fault pref serial) s = .next t ∧ t.twinState = (if s.getF Reg.twClaim < claim ∨
      (s.getF Reg.twClaim = claim ∧ ¬(if pref = s.getF Reg.twStatusPref then Config.serial < serial else s.isF Reg.twStatusPref = true)) then 2
      else s.twinState) := by
  refine ⟨_, twHeartbeatRx_good h, (hbFollow_claims (by rw [hbHeard_twinState]; exact hst) hclaims).trans ?_⟩
  rw [hbHeard_getF part_twClaim (by decide), hbHeard_twinState]
  simp only [← Bool.not_eq_true, countsPref_hbHeard]

theorem twHeartbeatRx_alone (h : twHears s = true) (hst : s.twinState = 5) (hstandby : state = 3) :
    ∃ t, exec (.twHeartbeatRx true state qcA qcB claim fault pref serial) s = .next t ∧ t.twinState = 4 :=
  ⟨_, twHeartbeatRx_good h, hbFollow_alone (hbHeard_twinState.trans hst) hstandby⟩

theorem twHeartbeatRx_aligned (h : twHears s = true) (hst : s.twinState = 3) (hal : s.isF Reg.twStatusAligned = true) :
    ∃ t, exec (.twHeartbeatRx true state qcA qcB claim fault pref serial) s = .next t ∧ t.twinState = 3 ∧
      (qcA < 256 → t.getF (Reg.tbDStatusQc 0) = qcA) ∧ (qcB < 256 → t.getF (Reg.tbDStatusQc 1) = qcB) := by
  have hfollow := twHeartbeatRx_good (state := state) (qcA := qcA) (qcB := qcB) (claim := claim) (fault := fault) (pref := pref) (serial := serial) h
  rw [hbFollow_aligned (hbHeard_twinState.trans hst) ((isF_of_getF (hbHeard_getF part_twStatusAligned (by decide))).trans hal)] at hfollow
  exact ⟨_, hfollow, (followQc_twinState 1 _ _).trans ((followQc_twinState 0 _ _).trans (hbHeard_twinState.trans hst)), followBoth_shows _ _ _⟩

theorem twHeartbeatRx_stays (h : twHears s = true) (hlink : s.twinState ≠ 1) (hclaims : ¬ ((s.twinState = 4 ∨ s.twinState = 5) ∧ (state = 4 ∨ state = 5)))
    (halone : ¬ (s.twinState = 5 ∧ state = 3)) :
    ∃ t, exec (.twHeartbeatRx true state qcA qcB claim fault pref serial) s = .next t ∧ t.twinState = s.twinState := by
  have hstate := hbHeard_twinState (h := ⟨s.dtt, state, qcA, qcB, claim, fault, pref, serial⟩) (s := s)
  refine ⟨_, twHeartbeatRx_good h, (hbFollow_stays ?_ ?_ ?_).trans hstate⟩
  · rw [hstate]
    exact hlink
  · rw [hstate]
    exact hclaims
  · rw [hstate]
    exact halone

end

end Sys2Proof.Machine

/-! SUPPORT. What the end of a command leaves of the commands held back and of the twin block. -/

namespace Sys2Proof.Machine

/-- The mailbox differs in its queues at most. -/
def QueuesOnly (s t : State) : Prop := t.mbx = { s.mbx with urgent := t.mbx.urgent, general := t.mbx.general }

theorem QueuesOnly.refl (s : State) : QueuesOnly s s := rfl

theorem QueuesOnly.of_mbx {s t : State} (h : t.mbx = s.mbx) : QueuesOnly s t := by
  unfold QueuesOnly
  rw [h]

theorem QueuesOnly.trans {s t u : State} (h : QueuesOnly s t) (h' : QueuesOnly t u) : QueuesOnly s u := by
  unfold QueuesOnly at *
  rw [h', h]

theorem QueuesOnly.ackWait {s t : State} (h : QueuesOnly s t) : t.mbx.ackWait = s.mbx.ackWait := by
  unfold QueuesOnly at h
  rw [h]

theorem QueuesOnly.held {s t : State} (h : QueuesOnly s t) : t.mbx.held = s.mbx.held := by
  unfold QueuesOnly at h
  rw [h]

theorem setQueue_queuesOnly (s : State) (q : Nat) (x : Queue) : QueuesOnly s (s.setQueue q x) := by
  unfold State.setQueue
  split
  · rfl
  · rfl

theorem cplPut_queuesOnly (q : Nat) (e : Cpl) (s : State) : QueuesOnly s (cplPut q e s) :=
  .of_mbx (cplPut_keeps (same_keeps .mbx s) (sub_of rfl) rfl)

theorem hamperFinish_queuesOnly (q st slot now : Nat) (s : State) : QueuesOnly s (hamperFinish q st slot now s) := by
  unfold hamperFinish
  split
  · exact QueuesOnly.refl s
  · extract_lets h
    refine ite_k ?_ (setQueue_queuesOnly s q _)
    exact ite_k ((setQueue_queuesOnly s q _).trans (cplPut_queuesOnly q _ _)) (setQueue_queuesOnly s q _)

theorem flushEnds_queuesOnly (n q : Nat) (s : State) : QueuesOnly s (flushEnds n q s) := by
  induction n generalizing s with
  | zero => exact QueuesOnly.refl s
  | succ n ih =>
    unfold flushEnds
    split
    · exact QueuesOnly.refl s
    · exact ite_k (((setQueue_queuesOnly s q _).trans (cplPut_queuesOnly q _ _)).trans (ih _)) (QueuesOnly.refl s)

/-- A completion delivered changes of the mailbox its queues alone. -/
theorem deliver_queuesOnly (c : Cmd) (e : Cpl) (hasEntry : Bool) (s : State) : QueuesOnly s (deliver c e hasEntry s) := by
  unfold deliver
  split
  · exact QueuesOnly.refl s
  · exact QueuesOnly.refl s
  · exact QueuesOnly.refl s
  · extract_lets q s1 s2
    have h1 : QueuesOnly s s1 := ite_k (cplPut_queuesOnly _ e s) (QueuesOnly.refl s)
    exact (h1.trans (hamperFinish_queuesOnly _ _ _ _ _)).trans (flushEnds_queuesOnly _ _ _)

/-- The command that ends with its acknowledgement waits no more. -/
theorem ackEnds_ackWait (w : AckWait) (e : Cpl) (s : State) : (ackEnds w e s).mbx.ackWait = none := by
  unfold ackEnds
  extract_lets mbx tw s1
  split
  · rfl
  · exact (deliver_queuesOnly _ e _ s1).ackWait

/-- No command waits for the standby once the wait is dropped. -/
theorem ackDrop_ackWait (s : State) : (ackDrop s).mbx.ackWait = none := by
  unfold ackDrop
  split
  case h_1 h => exact h
  case h_2 w h => exact ackEnds_ackWait _ _ _

/-- A command that ends leaves the command held back as it is. -/
theorem finish_held (opcode : Nat) (c : Cmd) (slot t0 cf : Nat) (mir : Option Nat) (r : Reply) (s : State) :
    (finish opcode c slot t0 cf mir r s).mbx.held = s.mbx.held := by
  unfold finish
  extract_lets +onlyGivenNames -merge -underBinder mbx s1 w r1 s2 e hasEntry
  have hwritten : s2.mbx = s1.mbx := writeBuf_keeps (same_keeps .mbx s1) (sub_of rfl) rfl
  have h2 : s2.mbx.held = s.mbx.held := by rw [hwritten]
  clear_value s2
  split
  · exact (congrArg Mbx.held (mirrorDone_keeps (same_keeps .mbx s2) (sub_of rfl) rfl)).trans h2
  · split
    · exact (congrArg Mbx.held (imageDone_keeps (same_keeps .mbx s2) (sub_of rfl) rfl)).trans h2
    · split
      · exact h2
      · exact (deliver_queuesOnly c e hasEntry s2).held.trans h2

/-- Nothing is held back once a held command is resumed. -/
theorem resumeHeld_held (r : Reply) (s : State) : (resumeHeld r s).mbx.held = none := by
  unfold resumeHeld
  split
  case h_1 h => exact h
  case h_2 h _ =>
    extract_lets mbx s1
    split
    · rfl
    · exact finish_held _ _ _ _ _ _ r s1

/-- The fields in which the last mirrored command stands. -/
def lastMirror : List Fld := [Reg.twLastMirrorOpcode, Reg.twLastMirrorTag, Reg.twLastMirrorStStatus, Reg.twLastMirrorStTaken]

theorem mirrorDone_fields (seq : Option Nat) (e : Cpl) (s : State) : BlockFields 20 lastMirror s (mirrorDone seq e s) := by
  have K := blockFields_keeps (b := 20) (by decide) lastMirror s
  unfold mirrorDone
  split
  · exact BlockFields.refl _ _ s
  · extract_lets s1 s2
    have h1 : BlockFields 20 lastMirror s s1 :=
      ((BlockFields.refl _ _ s).setF (f := Reg.twLastMirrorOpcode) (by decide) _).setF (f := Reg.twLastMirrorTag) (by decide) _
    have h2 : BlockFields 20 lastMirror s s2 :=
      (h1.setF (f := Reg.twLastMirrorStStatus) (by decide) _).setF (f := Reg.twLastMirrorStTaken) (by decide) _
    exact twSend_keeps K (sub_of rfl) (upd_tw K (sub_of rfl) h2)

theorem finish_twFields (opcode : Nat) (c : Cmd) (slot t0 cf : Nat) (mir : Option Nat) (r : Reply) (s : State) :
    BlockFields 20 lastMirror s (finish opcode c slot t0 cf mir r s) := by
  have K := blockFields_keeps (b := 20) (by decide) lastMirror s
  unfold finish
  extract_lets +onlyGivenNames -merge -underBinder mbx s1 w r1 s2 e hasEntry
  have h2 : BlockFields 20 lastMirror s s2 := writeBuf_keeps K (sub_of rfl) (upd_mbx K (sub_of rfl) (BlockFields.refl _ _ s))
  clear_value s2
  refine ite_k ?_ (ite_k (imageDone_keeps K (sub_of rfl) h2) ?_)
  · exact fun f hf hne => (mirrorDone_fields mir e s2 f hf hne).trans (h2 f hf hne)
  · split
    · exact upd_mbx K (sub_of rfl) h2
    · exact deliver_keeps K (sub_of rfl) h2

/-- The end of a held command writes in the twin block where the last mirrored command stands. -/
theorem resumeHeld_twFields (r : Reply) (s : State) : BlockFields 20 lastMirror s (resumeHeld r s) := by
  unfold resumeHeld
  split
  · exact BlockFields.refl _ _ s
  · extract_lets mbx s1
    exact ite_k (BlockFields.refl _ _ s) (finish_twFields _ _ _ _ _ _ r s1)

end Sys2Proof.Machine

/-! SUPPORT. The active's TIME frame (R575, R577, R578, R587): a commit's steps, the step counters and the offset. -/

namespace Sys2Proof.Machine

/-! Signed pairs of registers. -/

theorem sext_twos {v : Int} (hlo : -2 ^ 63 ≤ v) (hhi : v < 2 ^ 63) : sext 64 (twos 64 v) = v := by
  unfold sext twos
  have hcast : ((v % 2 ^ 64).toNat : Int) = v % 2 ^ 64 := Int.toNat_of_nonneg (Int.emod_nonneg v (by decide))
  split <;> omega

/-- A signed pair reads what was written to it. -/
theorem getI64_setI64 (s : State) (a : Nat) {v : Int} (hlo : -2 ^ 63 ≤ v) (hhi : v < 2 ^ 63) : (s.setI64 a v).getI64 a = v := by
  unfold State.getI64 State.setI64
  have hnarrow : twos 64 v % 2 ^ 64 = twos 64 v := by
    unfold twos
    omega
  rw [get64_set64, hnarrow, sext_twos hlo hhi]

/-- A signed pair of a block stays where neither of its words is listed. -/
theorem BlockFields.getI64 {b : Nat} {fs : List Fld} {s t : State} (h : BlockFields b fs s t) {a : Nat} (hb : regPart a = b ∧ regPart (a + 4) = b)
    (hne : (word a).key ∉ fs.map Fld.key ∧ (word (a + 4)).key ∉ fs.map Fld.key) : t.getI64 a = s.getI64 a := by
  unfold State.getI64 State.get64
  rw [h (word a) hb.1 hne.1, h (word (a + 4)) hb.2 hne.2]

/-! The steps of a commit (R587). -/

theorem fixXc_free (spaced : Nat) (s : State) : s.dtt + 64 ≤ (fixXc none spaced s).1 ∧ spaced ≤ (fixXc none spaced s).1 := by
  unfold fixXc
  exact ⟨(le_max_left _ _).trans (Nat.le_add_right _ _), (le_max_right _ _).trans (Nat.le_add_right _ _)⟩

theorem fixXc_tb (inst : Option Nat) (spaced : Nat) (s : State) : (fixXc inst spaced s).2.tb = s.tb := fixXc_keeps (same_keeps .tb s) (sub_of rfl) rfl

theorem dom_of_tb {s t : State} (h : t.tb = s.tb) (d : Nat) : t.dom d = s.dom d := by
  unfold State.dom
  rw [h]

theorem dom_setDom_same (s : State) (d : Nat) (x : Domain) : (s.setDom d x).dom d = x := by
  unfold State.dom State.setDom
  split
  · rfl
  · rfl

theorem dom_setDom_ne {d k : Nat} (h : ¬ (d = 0 ↔ k = 0)) (s : State) (x : Domain) : (s.setDom d x).dom k = s.dom k := by
  unfold State.dom State.setDom
  by_cases hd : d = 0
  · have hk : ¬ k = 0 := fun hk => h ⟨fun _ => hk, fun _ => hd⟩
    rw [if_pos hd, if_neg hk, if_neg hk]
  · have hk : k = 0 := Classical.not_not.1 (fun hk => h ⟨fun h0 => absurd h0 hd, fun h0 => absurd h0 hk⟩)
    rw [if_neg hd, if_pos hk, if_pos hk]

/-- A commit appends a step that waits for its instant, with the active's step counter after it. -/
theorem commitStep_appends (d : Nat) (a : Int) (counter : Nat) (s : State) : ∃ x, s.dtt + 64 ≤ x ∧ spacedFrom d s ≤ x ∧
    ((commitStep d a counter s).dom d).steps = (s.dom d).steps ++ [⟨a, x, true, false, some counter⟩] := by
  obtain ⟨hsoon, hspaced⟩ := fixXc_free (spacedFrom d s) s
  refine ⟨(fixXc none (spacedFrom d s) s).1, hsoon, hspaced, ?_⟩
  have hdom := dom_of_tb (fixXc_tb none (spacedFrom d s) s) d
  unfold commitStep
  extract_lets f
  rw [dom_setDom_same]
  exact congrArg (fun x : Domain => x.steps ++ [⟨a, f.1, true, false, some counter⟩]) hdom

theorem commitStep_other {d k : Nat} (h : ¬ (d = 0 ↔ k = 0)) (a : Int) (counter : Nat) (s : State) : (commitStep d a counter s).dom k = s.dom k := by
  unfold commitStep
  extract_lets f
  exact (dom_setDom_ne h _ _).trans (dom_of_tb (fixXc_tb none (spacedFrom d s) s) k)

theorem spacedFrom_of_dom {d : Nat} {s t : State} (h : t.dom d = s.dom d) : spacedFrom d t = spacedFrom d s := by
  unfold spacedFrom State.seg
  rw [h]

/-- The state in which a commit has fixed both domains' steps. -/
def committed (off dA dB : Int) (stepA stepB : Nat) (s : State) : State := commitStep 1 dB stepB (commitStep 0 dA stepA (s.setI64 Reg.twDttOff off))

section

variable (off dA dB : Int) (stepA stepB : Nat) (s : State)

theorem committed_tw : Part.same .rTw (s.setI64 Reg.twDttOff off) (committed off dA dB stepA stepB s) :=
  commitStep_keeps (same_keeps .rTw _) (sub_of rfl) (commitStep_keeps (same_keeps .rTw _) (sub_of rfl) (Part.same_refl .rTw _))

theorem committed_dttOff (hlo : -2 ^ 63 ≤ off) (hhi : off < 2 ^ 63) : (committed off dA dB stepA stepB s).getI64 Reg.twDttOff = off := by
  have h := committed_tw off dA dB stepA stepB s
  have hsame : (committed off dA dB stepA stepB s).getI64 Reg.twDttOff = (s.setI64 Reg.twDttOff off).getI64 Reg.twDttOff := by
    unfold State.getI64 State.get64
    rw [h _ part_twDttOff_2.1, h _ part_twDttOff_2.2]
  exact hsame.trans (getI64_setI64 s _ hlo hhi)

theorem committed_twinState : (committed off dA dB stepA stepB s).twinState = s.twinState :=
  (committed_tw off dA dB stepA stepB s _ part_twStatusState).trans
    (read_setF (by decide) (getF_setF_ne s (f := word Reg.twDttOff) (g := Reg.twStatusState) _ (by decide)))

/-- Both domains have a step appended (R587). -/
theorem committed_steps :
    (∃ x, s.dtt + 64 ≤ x ∧ spacedFrom 0 s ≤ x ∧
      ((committed off dA dB stepA stepB s).dom 0).steps = (s.dom 0).steps ++ [⟨dA, x, true, false, some stepA⟩]) ∧
    (∃ x, s.dtt + 64 ≤ x ∧ spacedFrom 1 s ≤ x ∧
      ((committed off dA dB stepA stepB s).dom 1).steps = (s.dom 1).steps ++ [⟨dB, x, true, false, some stepB⟩]) := by
  have hdtt : (commitStep 0 dA stepA (s.setI64 Reg.twDttOff off)).dtt = s.dtt := commitStep_keeps (same_keeps .dtt s) (sub_of rfl) rfl
  have hone : (commitStep 0 dA stepA (s.setI64 Reg.twDttOff off)).dom 1 = s.dom 1 := commitStep_other (by decide) dA stepA _
  obtain ⟨x, hx, hxs, hstepsA⟩ := commitStep_appends 0 dA stepA (s.setI64 Reg.twDttOff off)
  obtain ⟨y, hy, hys, hstepsB⟩ := commitStep_appends 1 dB stepB (commitStep 0 dA stepA (s.setI64 Reg.twDttOff off))
  refine ⟨⟨x, hx, hxs, ?_⟩, ⟨y, hdtt ▸ hy, spacedFrom_of_dom hone ▸ hys, ?_⟩⟩
  · exact (congrArg Domain.steps (commitStep_other (by decide) dB stepB _)).trans hstepsA
  · exact hstepsB.trans (by rw [hone])

end

/-- STANDBY entered from JOINING leaves the time base as it is. -/
theorem setTwin_standby_tb {cause : Nat} {s : State} (h : s.twinState = 2) : (setTwin 3 cause s).tb = s.tb := by
  have K := same_keeps .tb s
  rw [setTwin_eq (by rw [h]; decide)]
  refine twinEvent_keeps K (sub_of rfl) (outsRefresh_keeps K (sub_of rfl) ?_)
  unfold enterTwin mirrorsLeave
  rw [h]
  exact tstatFollow_keeps K (sub_of rfl) (startWtr_keeps K (sub_of rfl) rfl)

/-! The step counters (R578). -/

/-- Both step counters read in `t` as they read in `s`. -/
def StepcKept (s t : State) : Prop := ∀ d, t.stepc d = s.stepc d

theorem StepcKept.refl (s : State) : StepcKept s s := fun _ => rfl

/-- An operation beside the time base block keeps the step counters. -/
theorem stepcKept_keeps (s0 : State) : Keeps (StepcKept s0) (without .rTb) where
  setF := fun s f v hb h d => (Part.same_setF .rTb s f v (without_bit _ _ hb).1 _ part_tbDStepc).trans (h d)
  drop := fun s q hb h d => (Part.same_drop .rTb s q (fun e he => (without_bit _ _ (hb e he)).1) _ part_tbDStepc).trans (h d)
  dma := fun s a bs _ h => h
  rest := fun s t hr _ _ h d => (getF_of_regs hr _).trans (h d)
  again := fun s hb _ => absurd (without_bit _ _ hb).2 (by decide)

/-- A field at another place of a domain's registers may be written. -/
theorem StepcKept.setF {s t : State} (h : StepcKept s t) {f : Fld} (hf : f.addr % 256 ≠ 4) (v : Nat) : StepcKept s (t.setF f v) := fun d => by
  refine (getF_setF_ne t v (f := f) (g := Reg.tbDStepc d) ?_).trans (h d)
  simp only [Fld.key, Reg.tbDStepc]
  omega

theorem StepcKept.setI64 {s t : State} (h : StepcKept s t) {a : Nat} (ha : a % 256 ≠ 4 ∧ (a + 4) % 256 ≠ 4) (v : Int) :
    StepcKept s (t.setI64 a v) := (h.setF (f := word a) ha.1 _).setF (f := word (a + 4)) ha.2 _

theorem StepcKept.set96 {s t : State} (h : StepcKept s t) {a : Nat} (ha : a % 256 ≠ 4 ∧ (a + 4) % 256 ≠ 4 ∧ (a + 8) % 256 ≠ 4) (v : Nat) :
    StepcKept s (t.set96 a v) :=
  ((h.setF (f := word a) ha.1 _).setF (f := word (a + 4)) ha.2.1 _).setF (f := word (a + 8)) ha.2.2 _

theorem StepcKept.setDom {s t : State} (h : StepcKept s t) (d : Nat) (x : Domain) : StepcKept s (t.setDom d x) :=
  State.setDom_keeps (stepcKept_keeps s) (sub_of rfl) h

theorem openSegment_stepcKept {s t : State} (h : StepcKept s t) (d x : Nat) (a r : Int) : StepcKept s (openSegment d x a r t) := by
  unfold openSegment
  dsimp only
  have hrate : (Reg.tbDRate d) % 256 ≠ 4 ∧ (Reg.tbDRate d + 4) % 256 ≠ 4 := by
    unfold Reg.tbDRate
    omega
  have htick : (Reg.tbDAncTk0 d).addr % 256 ≠ 4 ∧ ((Reg.tbDAncTk0 d).addr + 4) % 256 ≠ 4 ∧ ((Reg.tbDAncTk0 d).addr + 8) % 256 ≠ 4 := by
    simp only [Reg.tbDAncTk0]
    omega
  have htime : (Reg.tbDAncT0 d).addr % 256 ≠ 4 ∧ ((Reg.tbDAncT0 d).addr + 4) % 256 ≠ 4 ∧ ((Reg.tbDAncT0 d).addr + 8) % 256 ≠ 4 := by
    simp only [Reg.tbDAncT0]
    omega
  have hseq : (Reg.tbDAncSeq d).addr % 256 ≠ 4 := by
    simp only [Reg.tbDAncSeq]
    omega
  exact ((((h.setDom _ _).setI64 hrate _).set96 htick _).set96 htime _).setF hseq _

theorem setRate_stepcKept {s t : State} (h : StepcKept s t) (d : Nat) (r : Int) : StepcKept s (setRate d r t) := by
  unfold setRate
  exact ite_k (h.setDom _ _) (ite_k (openSegment_stepcKept (h.setDom _ _) _ _ _ _) (h.setDom _ _))

theorem startSlew_stepcKept {s t : State} (h : StepcKept s t) (d : Nat) (a : Int) (rate : Nat) : StepcKept s (startSlew d a rate t) := by
  unfold startSlew
  extract_lets dm total s1 s2
  have hrem : (Reg.tbDSlewRem d) % 256 ≠ 4 ∧ (Reg.tbDSlewRem d + 4) % 256 ≠ 4 := by
    unfold Reg.tbDSlewRem
    omega
  have hslewing : (Reg.tbDStatusSlewing d).addr % 256 ≠ 4 := by
    simp only [Reg.tbDStatusSlewing]
    omega
  have h2 : StepcKept s s2 := ((h.setDom _ _).setI64 hrem _).setF hslewing _
  exact ite_k h2 (setRate_stepcKept h2 _ _)

/-- A reference that returns leaves the step counters as they are. -/
theorem returnWith_stepcKept (d : Nat) (e : Int) (s : State) : StepcKept s (returnWith d e s) := by
  have K := stepcKept_keeps s
  have hneeded : (Reg.tbDStatusAlignNeeded d).addr % 256 ≠ 4 := by
    simp only [Reg.tbDStatusAlignNeeded]
    omega
  have herr : (Reg.tbDAlignErr d) % 256 ≠ 4 ∧ (Reg.tbDAlignErr d + 4) % 256 ≠ 4 := by
    unfold Reg.tbDAlignErr
    omega
  unfold returnWith
  extract_lets +onlyGivenNames -merge -underBinder back
  refine ite_k ?_ ?_
  · extract_lets +onlyGivenNames -merge -underBinder r s1
    have hr : StepcKept s r.2 := slewRateUsed_keeps K (sub_of rfl) (StepcKept.refl s)
    exact (startSlew_stepcKept hr d _ _).setDom _ _
  · extract_lets +onlyGivenNames -merge -underBinder s1 s2 s3
    have h1 : StepcKept s s1 := ite_k (StepcKept.refl s) (startSlew_stepcKept (StepcKept.refl s) d _ _)
    exact raiseEv_keeps K (sub_of rfl) (((h1.setDom _ _).setF hneeded _).setI64 herr _)

/-- Taking the active's step counter writes that counter alone. -/
theorem takeStepc_leaves (d n : Nat) (s : State) : (n < 2 ^ 32 → (takeStepc d n s).stepc d = n) ∧ FieldsOf [Reg.tbDStepc d] s (takeStepc d n s) := by
  unfold takeStepc
  split
  case isTrue h => exact ⟨fun _ => h, FieldsOf.refl _ s⟩
  case isFalse =>
    unfold setStepc
    extract_lets +onlyGivenNames -merge -underBinder old dom s1
    have h1 : FieldsOf [Reg.tbDStepc d] s s1 := (FieldsOf.refl _ s).regs (by unfold s1; rw [State.setDom_regs])
    exact ⟨fun hn => (getF_setF_same s1 (Reg.tbDStepc d) n).trans (Nat.mod_eq_of_lt hn), h1.setF (f := Reg.tbDStepc d) (by simp) n⟩

/-- Both domains' counters taken. -/
def countersTaken (stepA stepB : Nat) (s : State) : State := takeStepc 1 stepB (takeStepc 0 stepA s)

theorem countersTaken_leaves (stepA stepB : Nat) (s : State) : (stepA < 2 ^ 32 → (countersTaken stepA stepB s).stepc 0 = stepA) ∧
    (stepB < 2 ^ 32 → (countersTaken stepA stepB s).stepc 1 = stepB) ∧ FieldsOf [Reg.tbDStepc 0, Reg.tbDStepc 1] s (countersTaken stepA stepB s) := by
  obtain ⟨ha, hfa⟩ := takeStepc_leaves 0 stepA s
  obtain ⟨hb, hfb⟩ := takeStepc_leaves 1 stepB (takeStepc 0 stepA s)
  refine ⟨fun hn => (hfb _ (by decide)).trans (ha hn), hb, fun f hf => ?_⟩
  simp only [List.map_cons, List.map_nil, List.mem_cons, List.not_mem_nil, or_false, not_or] at hf
  obtain ⟨h0, h1⟩ := hf
  exact (hfb f (by simpa using h1)).trans (hfa f (by simpa using h0))

theorem countersTaken_tw (stepA stepB : Nat) (s : State) : (countersTaken stepA stepB s).tw = s.tw :=
  takeStepc_keeps (same_keeps .tw s) (sub_of rfl) (takeStepc_keeps (same_keeps .tw s) (sub_of rfl) rfl)

/-! The TIME frame as the statements speak of it. -/

section

variable {stamp here : Nat} {timeA timeB : Int} {stepA stepB : Nat} {rateA rateB : Int} {served : Nat} {s : State}

/-- An offset of two tick counts fits its register. -/
theorem offset_fits (hs : stamp < 2 ^ 62) (hh : here < 2 ^ 62) : -2 ^ 63 ≤ (stamp : Int) - here ∧ (stamp : Int) - here < 2 ^ 63 := by omega

/-- A commit takes the active's offset, and both domains a step to its time (R587). -/
theorem twTimeRx_commits (h : twHears s = true) (hst : s.twinState = 2) (hheld : holds 0x0E01 s = true)
    (hA : stepBeyondGuard (timeA - s.timeAt 0 (here * 2 ^ 16)) s = false) (hB : stepBeyondGuard (timeB - s.timeAt 1 (here * 2 ^ 16)) s = false) :
    ∃ t, exec (.twTimeRx true stamp here timeA timeB stepA stepB rateA rateB served) s = .next t ∧ t.twinState = 3 ∧
      (stamp < 2 ^ 62 → here < 2 ^ 62 → t.getI64 Reg.twDttOff = (stamp : Int) - here) ∧ t.mbx.held = none ∧
      (∃ x, s.dtt + 64 ≤ x ∧ spacedFrom 0 s ≤ x ∧
        (t.dom 0).steps = (s.dom 0).steps ++ [⟨timeA - s.timeAt 0 (here * 2 ^ 16), x, true, false, some stepA⟩]) ∧
      (∃ x, s.dtt + 64 ≤ x ∧ spacedFrom 1 s ≤ x ∧
        (t.dom 1).steps = (s.dom 1).steps ++ [⟨timeB - s.timeAt 1 (here * 2 ^ 16), x, true, false, some stepB⟩]) := by
  have hexec : exec (.twTimeRx true stamp here timeA timeB stepA stepB rateA rateB served) s = .next (resumeHeld okReply (setTwin 3 7
      (committed (stamp - here) (timeA - s.timeAt 0 (here * 2 ^ 16)) (timeB - s.timeAt 1 (here * 2 ^ 16)) stepA stepB s))) :=
    (if_neg (not_deaf h)).trans ((if_neg Bool.false_ne_true).trans ((if_pos ⟨hst, hheld⟩).trans
      ((if_neg (by rw [hA]; decide)).trans (if_neg (by rw [hB]; decide)))))
  have hsteps := committed_steps (stamp - here) (timeA - s.timeAt 0 (here * 2 ^ 16)) (timeB - s.timeAt 1 (here * 2 ^ 16)) stepA stepB s
  have hoff := committed_dttOff (stamp - here) (timeA - s.timeAt 0 (here * 2 ^ 16)) (timeB - s.timeAt 1 (here * 2 ^ 16)) stepA stepB s
  have hjoin : (committed (stamp - here) (timeA - s.timeAt 0 (here * 2 ^ 16)) (timeB - s.timeAt 1 (here * 2 ^ 16)) stepA stepB s).twinState = 2 :=
    (committed_twinState _ _ _ _ _ s).trans hst
  generalize committed (stamp - here) (timeA - s.timeAt 0 (here * 2 ^ 16)) (timeB - s.timeAt 1 (here * 2 ^ 16)) stepA stepB s = u at *
  have hfields := resumeHeld_twFields okReply (setTwin 3 7 u)
  have htb : (resumeHeld okReply (setTwin 3 7 u)).tb = u.tb :=
    (resumeHeld_keeps (same_keeps .tb (setTwin 3 7 u)) (sub_of rfl) rfl).trans (setTwin_standby_tb hjoin)
  refine ⟨_, hexec, ?_, fun hs hh => ?_, resumeHeld_held _ _, ?_⟩
  · exact (hfields _ part_twStatusState (by decide)).trans (setTwin_twinState (by rw [hjoin]; decide))
  · obtain ⟨hlo, hhi⟩ := offset_fits hs hh
    exact (hfields.getI64 part_twDttOff_2 (by decide)).trans (((setTwin_partnerKept 3 7 u).regs.getI64 part_twDttOff_2 (by decide)).trans (hoff hlo hhi))
  · rw [dom_of_tb htb, dom_of_tb htb]
    exact hsteps

/-- A commit whose step a guard bound stops is denied (R587). -/
theorem denied_waits_no_more (a : Int) (hst : s.twinState = 2) : (resumeHeld (failWith stLocked 0) (stepDenied a s)).mbx.held = none ∧
    (resumeHeld (failWith stLocked 0) (stepDenied a s)).twinState = 2 :=
  ⟨resumeHeld_held _ _, (resumeHeld_twFields _ _ _ part_twStatusState (by decide)).trans
    ((stepDenied_keeps (same_keeps .rTw s) (sub_of rfl) (fun _ _ => rfl) _ part_twStatusState).trans hst)⟩

theorem twTimeRx_deniedA (h : twHears s = true) (hst : s.twinState = 2) (hheld : holds 0x0E01 s = true)
    (hA : stepBeyondGuard (timeA - s.timeAt 0 (here * 2 ^ 16)) s = true) :
    exec (.twTimeRx true stamp here timeA timeB stepA stepB rateA rateB served) s =
      .next (resumeHeld (failWith stLocked 0) (stepDenied (timeA - s.timeAt 0 (here * 2 ^ 16)) s)) :=
  (if_neg (not_deaf h)).trans ((if_neg Bool.false_ne_true).trans ((if_pos ⟨hst, hheld⟩).trans (if_pos hA)))

theorem twTimeRx_deniedB (h : twHears s = true) (hst : s.twinState = 2) (hheld : holds 0x0E01 s = true)
    (hA : stepBeyondGuard (timeA - s.timeAt 0 (here * 2 ^ 16)) s = false) (hB : stepBeyondGuard (timeB - s.timeAt 1 (here * 2 ^ 16)) s = true) :
    exec (.twTimeRx true stamp here timeA timeB stepA stepB rateA rateB served) s =
      .next (resumeHeld (failWith stLocked 0) (stepDenied (timeB - s.timeAt 1 (here * 2 ^ 16)) s)) :=
  (if_neg (not_deaf h)).trans ((if_neg Bool.false_ne_true).trans ((if_pos ⟨hst, hheld⟩).trans ((if_neg (by rw [hA]; decide)).trans (if_pos hB))))

/-- The standby takes the step counters (R578). -/
theorem twTimeRx_counters (h : twHears s = true) (hst : s.twinState = 3) (hdue : s.tw.offDue = false) :
    exec (.twTimeRx true stamp here timeA timeB stepA stepB rateA rateB served) s = .next (countersTaken stepA stepB s) :=
  (if_neg (not_deaf h)).trans ((if_neg Bool.false_ne_true).trans ((if_neg (by omega)).trans ((if_pos hst).trans (if_neg (by
    rw [show (takeStepc 1 stepB (takeStepc 0 stepA s)).tw = s.tw from countersTaken_tw stepA stepB s, hdue]
    decide)))))

/-- The offset taken, with the counters. -/
def offsetTaken (off : Int) (s : State) : State := { (s.setI64 Reg.twDttOff off) with tw := { s.tw with offDue := false } }

/-- At a return of alignment the standby takes the offset too, and the active's time as a returning reference (R577). -/
theorem twTimeRx_returns (h : twHears s = true) (hst : s.twinState = 3) (hdue : s.tw.offDue = true) :
    ∃ t, exec (.twTimeRx true stamp here timeA timeB stepA stepB rateA rateB served) s = .next t ∧
      (stepA < 2 ^ 32 → t.getF (Reg.tbDStepc 0) = stepA) ∧ (stepB < 2 ^ 32 → t.getF (Reg.tbDStepc 1) = stepB) ∧
      (stamp < 2 ^ 62 → here < 2 ^ 62 → t.getI64 Reg.twDttOff = (stamp : Int) - here) ∧ t.tw = { s.tw with offDue := false } := by
  have htw := countersTaken_tw stepA stepB s
  obtain ⟨ha, hb, -⟩ := countersTaken_leaves stepA stepB s
  have hexec : ∃ d e, exec (.twTimeRx true stamp here timeA timeB stepA stepB rateA rateB served) s =
      .next (returnWith d e (offsetTaken (stamp - here) (countersTaken stepA stepB s))) :=
    ⟨_, _, (if_neg (not_deaf h)).trans ((if_neg Bool.false_ne_true).trans ((if_neg (by omega)).trans ((if_pos hst).trans (if_pos (by
      rw [show (takeStepc 1 stepB (takeStepc 0 stepA s)).tw = s.tw from htw, hdue])))))⟩
  obtain ⟨d, e, hexec⟩ := hexec
  generalize countersTaken stepA stepB s = u at *
  have hcounters := returnWith_stepcKept d e (offsetTaken (stamp - here) u)
  have hregs : Part.same .rTw (offsetTaken (stamp - here) u) (returnWith d e (offsetTaken (stamp - here) u)) :=
    returnWith_keeps (same_keeps .rTw _) (sub_of rfl) (Part.same_refl .rTw _)
  have hpart : (returnWith d e (offsetTaken (stamp - here) u)).tw = (offsetTaken (stamp - here) u).tw :=
    returnWith_keeps (same_keeps .tw _) (sub_of rfl) rfl
  have hstepc : ∀ k, (offsetTaken (stamp - here) u).stepc k = u.stepc k := fun k =>
    (Part.same_setF .rTb _ _ _ (by decide) _ part_tbDStepc).trans (Part.same_setF .rTb _ _ _ (by decide) _ part_tbDStepc)
  refine ⟨_, hexec, fun hn => (hcounters 0).trans ((hstepc 0).trans (ha hn)), fun hn => (hcounters 1).trans ((hstepc 1).trans (hb hn)),
    fun hs hh => ?_, ?_⟩
  · obtain ⟨hlo, hhi⟩ := offset_fits hs hh
    have hsame : (returnWith d e (offsetTaken (stamp - here) u)).getI64 Reg.twDttOff = (u.setI64 Reg.twDttOff (stamp - here)).getI64 Reg.twDttOff := by
      unfold State.getI64 State.get64
      rw [hregs _ part_twDttOff_2.1, hregs _ part_twDttOff_2.2]
      rfl
    exact hsame.trans (getI64_setI64 u _ hlo hhi)
  · rw [hpart, ← htw]
    rfl

end

end Sys2Proof.Machine

/-! SUPPORT. Mirrored commands received and acknowledgements (R122, R578). -/

namespace Sys2Proof.Machine

theorem twMirrorRx_waits {seq opcode tag instant : Nat} {s : State} (h : twHears s = true) (hst : s.twinState = 3) :
    ∃ t, exec (.twMirrorRx true seq opcode tag instant) s = .next t ∧ t.getF Reg.twMirrorSeq = (seq + 1) % 2 ^ 32 ∧ FieldsOf [Reg.twMirrorSeq] s t ∧
      t.tw = { s.tw with mirrors := s.tw.mirrors ++ [⟨seq, opcode, tag, if instant = 0 then none else some ((instant : Int) - s.getI64 Reg.twDttOff).toNat,
        decide (instant ≠ 0) && decide ((instant : Int) - s.getI64 Reg.twDttOff ≤ s.dtt)⟩] } :=
  ⟨_, (if_neg (not_deaf h)).trans ((if_neg Bool.false_ne_true).trans (if_neg (fun hne => hne hst))), getF_setF_same s Reg.twMirrorSeq (seq + 1),
    ((FieldsOf.refl _ s).setF (f := Reg.twMirrorSeq) (by decide) (seq + 1)).regs rfl, rfl⟩

/-- What the note of an acknowledgement leaves of the command looked up. -/
theorem ackNote_find (seq status detail n : Nat) (s : State) : (ackNote seq status detail s).tw.forwarded.find? (fun z => z.1 = n) =
    (s.tw.forwarded.find? (fun z => z.1 = n)).map (fun x => if x.1 = seq then (seq, some (status, detail)) else x) := by
  have hkey : ((fun z : Nat × Option (Nat × Nat) => decide (z.1 = n)) ∘ fun x => if x.1 = seq then (seq, some (status, detail)) else x) =
      fun z => decide (z.1 = n) := by
    funext x
    by_cases hx : x.1 = seq
    · simp [hx]
    · simp [hx]
  unfold ackNote
  exact List.find?_map.trans (by rw [hkey])

/-- A command whose acknowledgement has been noted is met with it. -/
theorem ackMet_acked {s : State} {w : AckWait} {y : Nat × Option (Nat × Nat)} {a : Nat × Nat} (hwait : s.mbx.ackWait = some w)
    (hfind : s.tw.forwarded.find? (fun z => z.1 = w.seq) = some y) (hack : y.2 = some a) : ackMet s = ackTaken w a.1 s := by
  unfold ackMet
  rw [hwait]
  dsimp only
  rw [hfind, Option.bind_some, hack]

theorem ackMet_unacked {s : State} (h : ∀ w, s.mbx.ackWait = some w → (s.tw.forwarded.find? (fun z => z.1 = w.seq)).bind (·.2) = none) :
    ackMet s = s := by
  unfold ackMet
  split
  case h_1 => rfl
  case h_2 w hw => rw [h w hw]

theorem twAckRx_good {seq status detail : Nat} {s : State} (h : twHears s = true) :
    exec (.twAckRx true seq status detail) s = .next (ackMet (ackNote seq status detail s)) := (if_neg (not_deaf h)).trans (if_neg Bool.false_ne_true)

theorem ackTaken_forwarded (w : AckWait) (status : Nat) (s : State) : (ackTaken w status s).tw.forwarded = s.tw.forwarded.filter (fun x => x.1 ≠ w.seq) := by
  unfold ackTaken
  extract_lets diff s1
  have h1 : s1.tw = s.tw := ite_k (P := Part.same .tw s) (raiseEv_keeps (same_keeps .tw s) (sub_of rfl) rfl) rfl
  rw [ackEnds_tw, h1]

/-- The acknowledgement of the command that waits completes it (R122). -/
theorem twAckRx_meets {seq status detail : Nat} {x : AckWait} {s : State} (h : twHears s = true) (hwait : s.mbx.ackWait = some x) (hseq : x.seq = seq)
    (hfwd : ∃ a, (seq, a) ∈ s.tw.forwarded) : ∃ t, exec (.twAckRx true seq status detail) s = .next t ∧
      t = ackTaken x status (ackNote seq status detail s) ∧ t.mbx.ackWait = none ∧ ∀ y ∈ t.tw.forwarded, y.1 ≠ seq := by
  obtain ⟨a, ha⟩ := hfwd
  have hfound : (s.tw.forwarded.find? (fun z => z.1 = x.seq)).isSome = true :=
    List.find?_isSome.2 ⟨(seq, a), ha, by simp [hseq]⟩
  obtain ⟨y, hy⟩ := Option.isSome_iff_exists.1 hfound
  have hkey : y.1 = seq := by
    have hy1 := List.find?_some hy
    rw [← hseq]
    simpa using hy1
  have hnoted : (ackNote seq status detail s).tw.forwarded.find? (fun z => z.1 = x.seq) = some (seq, some (status, detail)) := by
    rw [ackNote_find, hy, Option.map_some, if_pos hkey]
  have hmet : ackMet (ackNote seq status detail s) = ackTaken x status (ackNote seq status detail s) :=
    ackMet_acked (s := ackNote seq status detail s) hwait hnoted rfl
  refine ⟨_, twAckRx_good h, hmet, ?_, fun z hz => ?_⟩
  · rw [hmet]
    exact ackEnds_ackWait _ _ _
  · rw [hmet, ackTaken_forwarded] at hz
    have hne := (List.mem_filter.1 hz).2
    rw [hseq] at hne
    simpa using hne

theorem twAckRx_notes {seq status detail : Nat} {s : State} (h : twHears s = true) (hnone : ∀ x, s.mbx.ackWait = some x →
      ∀ y, s.tw.forwarded.find? (fun z => z.1 = x.seq) = some y → y.2 = none ∧ x.seq ≠ seq) :
    exec (.twAckRx true seq status detail) s = .next (ackNote seq status detail s) := by
  refine (twAckRx_good h).trans (congrArg Host.Outcome.next (ackMet_unacked (fun w hw => ?_)))
  rw [ackNote_find]
  cases hfind : s.tw.forwarded.find? (fun z => z.1 = w.seq) with
  | none => rfl
  | some y =>
    obtain ⟨hack, hne⟩ := hnone w hw y hfind
    have hkey : y.1 = w.seq := by simpa using List.find?_some hfind
    rw [Option.map_some, if_neg (by rw [hkey]; exact hne)]
    exact hack

theorem twAckRx_earlier {seq status detail : Nat} {x : AckWait} {y : Nat × Option (Nat × Nat)} {a : Nat × Nat} {s : State} (h : twHears s = true)
    (hwait : s.mbx.ackWait = some x) (hne : x.seq ≠ seq) (hfind : s.tw.forwarded.find? (fun z => z.1 = x.seq) = some y) (hack : y.2 = some a) :
    exec (.twAckRx true seq status detail) s = .next (ackTaken x a.1 (ackNote seq status detail s)) := by
  have hkey : y.1 = x.seq := by simpa using List.find?_some hfind
  have hnoted : (ackNote seq status detail s).tw.forwarded.find? (fun z => z.1 = x.seq) = some y := by
    rw [ackNote_find, hfind, Option.map_some, if_neg (by rw [hkey]; exact hne)]
  exact (twAckRx_good h).trans (congrArg Host.Outcome.next (ackMet_acked (s := ackNote seq status detail s) hwait hnoted hack))

/-- 1 ms after the active's own finish the command completes without its acknowledgement (R122). -/
theorem mirrorAckTimeout_drops {x : AckWait} {s : State} (hwait : s.mbx.ackWait = some x) (hdue : x.finished + 781250 ≤ s.dtt) :
    ∃ t, exec .mirrorAckTimeout s = .next t ∧ t.mbx.ackWait = none := by
  refine ⟨ackDrop s, ?_, ackDrop_ackWait s⟩
  show execMirrorAckTimeout s = _
  unfold execMirrorAckTimeout
  rw [hwait]
  exact if_neg (by omega)

theorem mirrorAckTimeout_waits {s : State} (hwait : ∀ x, s.mbx.ackWait = some x → s.dtt < x.finished + 781250) :
    exec .mirrorAckTimeout s = .next s := by
  show execMirrorAckTimeout s = _
  unfold execMirrorAckTimeout
  split
  case h_1 => rfl
  case h_2 x hx => exact if_pos (hwait x hx)

end Sys2Proof.Machine

/-! SUPPORT. Takeover and takeback on the link (R572, R579, R581, R585): the active gives way, a partner lost, the wait to restore. -/

namespace Sys2Proof.Machine

theorem restartWtr_twFields (s : State) : BlockFields 20 [Reg.twStatusWtrRun] s (restartWtr s) := fun f _ hne => (restartWtr_leaves s).2 f hne

/-- ALIGNED after it is set. -/
theorem setAligned_aligned (b : Bool) (e : Int) (s : State) : (setAligned b e s).isF Reg.twStatusAligned = b := by
  unfold setAligned
  split
  case isTrue h => exact h
  case isFalse =>
    extract_lets +onlyGivenNames -merge -underBinder s1 tw s2 s3
    have h2 : s2.isF Reg.twStatusAligned = b :=
      (isF_of_getF (raiseEv_getF_tw part_twStatusAligned)).trans (isF_setB_same s Reg.twStatusAligned b rfl)
    have h3 : s3.isF Reg.twStatusAligned = b := ((restartWtr_twFields s2).isF rfl (by decide)).trans h2
    clear_value s2 s3
    refine ite_k (P := fun t => t.isF Reg.twStatusAligned = b) h2 (ite_k (P := fun t => t.isF Reg.twStatusAligned = b) ?_ h3)
    exact (isF_of_getF (enterHoldover_keeps (same_keeps .rTw s3) (sub_of rfl) (fun _ _ => rfl) _ part_twStatusAligned)).trans h3

/-- Outside STANDBY alignment set leaves the mailbox as it is. -/
theorem setAligned_mbx {b : Bool} {e : Int} {s : State} (h : s.twinState ≠ 3) : (setAligned b e s).mbx = s.mbx := by
  unfold setAligned
  split
  · rfl
  · extract_lets +onlyGivenNames -merge -underBinder s1 tw s2 s3
    have h2 : s2.mbx = s.mbx := raiseEv_keeps (same_keeps .mbx s) (sub_of rfl) rfl
    have h3 : s3.mbx = s.mbx := (restartWtr_keeps (same_keeps .mbx s2) (sub_of rfl) rfl).trans h2
    have hstate : s3.twinState = s.twinState :=
      (restartWtr_kept (twinKept_offDue (raiseEv_keeps twinKept_keeps (sub_of rfl) (twinKept_mark (by decide) (TwinKept.refl s))))).regs _
        part_twStatusState (by decide)
    rw [if_neg (show ¬ s3.twinState = 3 by rw [hstate]; exact h)]
    exact ite_k (P := fun t => t.mbx = s.mbx) h2 h3

/-- The state entered, its mark shown and the mirrored commands left. -/
def twinLeft (st : Nat) (s : State) : State := mirrorsLeave s.twinState st (twinShown st s)

/-- JOINING and STANDBY keep the alignment as it is (R576). -/
theorem enterTwin_judged {st : Nat} (hst : st = 2 ∨ st = 3) (s : State) : enterTwin st s = tstatFollow (startWtr (twinLeft st s)) := by
  show tstatFollow (startWtr (if st = 2 ∨ st = 3 then twinLeft st s else _)) = _
  rw [if_pos hst]

/-- Every other state loses it. -/
theorem enterTwin_unjudged {st : Nat} (hst : ¬ (st = 2 ∨ st = 3)) (s : State) :
    enterTwin st s = tstatFollow (startWtr (setAligned false ((twinLeft st s).getI64 Reg.twAlign) (twinLeft st s))) := by
  show tstatFollow (startWtr (if st = 2 ∨ st = 3 then twinLeft st s else setAligned false ((twinLeft st s).getI64 Reg.twAlign) (twinLeft st s))) = _
  rw [if_neg hst]

/-- The restore timer writes of the registers WTR_RUN alone. -/
theorem startWtr_fields (s : State) : FieldsOf [Reg.twStatusWtrRun] s (startWtr s) := by
  unfold startWtr
  split
  · exact ((FieldsOf.refl _ s).setF (f := Reg.twStatusWtrRun) (by decide) (b2n true)).regs rfl
  · exact ((FieldsOf.refl _ s).setF (f := Reg.twStatusWtrRun) (by decide) (b2n false)).regs rfl

theorem enterTwin_aligned {st : Nat} (hst : ¬ (st = 2 ∨ st = 3)) (s : State) : (enterTwin st s).isF Reg.twStatusAligned = false := by
  rw [enterTwin_unjudged hst]
  exact (isF_of_getF (tstatFollow_keeps (same_keeps .rTw _) (sub_of rfl) (Part.same_refl .rTw _) _ part_twStatusAligned)).trans
    ((isF_of_getF (startWtr_fields _ _ (by decide))).trans (setAligned_aligned false _ _))

/-- Entering STANDBY or ALONE changes nothing in the mailbox beyond what leaving the mirrored commands does. -/
theorem enterTwin_mbx {st : Nat} (hst : st = 3 ∨ st = 5) (s : State) : (enterTwin st s).mbx = (twinLeft st s).mbx := by
  have hend : ∀ u : State, (tstatFollow (startWtr u)).mbx = u.mbx := fun u =>
    tstatFollow_keeps (same_keeps .mbx u) (sub_of rfl) (startWtr_keeps (same_keeps .mbx u) (sub_of rfl) rfl)
  obtain rfl | rfl := hst
  · rw [enterTwin_judged (by decide), hend]
  · have hstate : (twinLeft 5 s).twinState = 5 := (mirrorsLeave_getF part_twStatusState).trans (twinShown_twinState 5 s)
    rw [enterTwin_unjudged (by decide), hend, setAligned_mbx (by rw [hstate]; decide)]

/-- An active that leaves for STANDBY or ALONE has no command waiting for the standby and none forwarded (R584). -/
theorem setTwin_leavesActive {st cause : Nat} {s : State} (h : s.twinState = 4) (hst : st = 3 ∨ st = 5) :
    (setTwin st cause s).mbx.ackWait = none ∧ (setTwin st cause s).tw.forwarded = [] := by
  have hne : s.twinState ≠ st := by omega
  have hleft : twinLeft st s = { (ackDrop (twinShown st s)) with tw := { (ackDrop (twinShown st s)).tw with forwarded := [] } } := by
    unfold twinLeft mirrorsLeave
    rw [if_neg hne, if_neg (by omega), if_pos h]
  have htw := (setTwin_kept (cause := cause) hne).tw
  have hforwarded : (twinLeft st s).tw.forwarded = [] := by rw [hleft]
  have hwait : (twinLeft st s).mbx.ackWait = none := by
    rw [hleft]
    exact ackDrop_ackWait _
  have hmbx : (setTwin st cause s).mbx = (twinLeft st s).mbx := by
    rw [setTwin_eq hne]
    exact (twinEvent_keeps (same_keeps .mbx (enterTwin st s)) (sub_of rfl)
      (outsRefresh_keeps (same_keeps .mbx (enterTwin st s)) (sub_of rfl) rfl)).trans (enterTwin_mbx hst s)
  exact ⟨by rw [hmbx, hwait], (congrArg Twin.forwarded htw).trans hforwarded⟩

section

variable {s : State}

/-- The partner's claim noted with its heartbeat. -/
def claimNoted (claim : Nat) (s : State) : State := { s with tw := { s.tw with hb := s.tw.hb.map (fun h => { h with claim := claim }) } }

/-- A claim above its own makes the active the standby (R579). -/
theorem twClaimRx_gives {claim kind : Nat} (h : twHears s = true) (hst : s.twinState = 4) (hclaim : s.getF Reg.twClaim < claim)
    (hok : kind = 2 ∨ (s.innerLocked = true ∧ s.isF Reg.hstStatusReady = true)) :
    ∃ t, exec (.twClaimRx true claim kind) s = .next t ∧ t.twinState = 3 ∧ t.isF Reg.hstStatusActive = false ∧
      t.tw.hb = s.tw.hb.map (fun h => { h with claim := claim }) ∧ t.tw.forwarded = [] ∧ t.mbx.ackWait = none := by
  have hfaultless : kind = 2 ∨ (!(claimNoted claim s).innerLocked || !(claimNoted claim s).isF Reg.hstStatusReady) = false := by
    refine hok.imp id (fun hlr => ?_)
    rw [show (claimNoted claim s).innerLocked = true from hlr.1, show (claimNoted claim s).isF Reg.hstStatusReady = true from hlr.2]
    rfl
  have hnoted : (claimNoted claim s).twinState = 4 := hst
  have hne : (claimNoted claim s).twinState ≠ 3 := by rw [hnoted]; decide
  obtain ⟨hwait, hforwarded⟩ := setTwin_leavesActive (cause := if kind = 2 then 6 else 1) hnoted (.inl rfl)
  exact ⟨_, (if_neg (not_deaf h)).trans ((if_neg Bool.false_ne_true).trans (if_pos ⟨hnoted, hclaim, hfaultless⟩)), setTwin_twinState hne,
    setTwin_active hne, (setTwin_partnerKept 3 _ (claimNoted claim s)).hb, hforwarded, hwait⟩

theorem twClaimRx_notes {claim kind : Nat} (h : twHears s = true)
    (hstays : s.twinState ≠ 4 ∨ claim ≤ s.getF Reg.twClaim ∨ (kind ≠ 2 ∧ (s.innerLocked = false ∨ s.isF Reg.hstStatusReady = false))) :
    exec (.twClaimRx true claim kind) s = .next (claimNoted claim s) := by
  refine (if_neg (not_deaf h)).trans ((if_neg Bool.false_ne_true).trans (if_neg ?_))
  show ¬ (s.twinState = 4 ∧ s.getF Reg.twClaim < claim ∧ (kind = 2 ∨ (!s.innerLocked || !s.isF Reg.hstStatusReady) = false))
  rintro ⟨hst, hclaim, hok⟩
  obtain h4 | hle | ⟨hkind, hfault⟩ := hstays
  · exact h4 hst
  · omega
  · obtain h2 | hnone := hok
    · exact hkind h2
    · simp only [Bool.or_eq_false_iff, Bool.not_eq_eq_eq_not, Bool.not_false] at hnone
      obtain ⟨hlocked, hready⟩ := hnone
      simp [hlocked, hready] at hfault

/-- A partner lost leaves the active ALONE (R572). -/
theorem twHbMiss_active (hdead : partnerAlive s = false) (hst : s.twinState = 4) : ∃ t, exec .twHbMiss s = .next t ∧ t.twinState = 5 ∧
    t.mbx.ackWait = none ∧ t.tw.forwarded = [] := by
  obtain ⟨hwait, hforwarded⟩ := setTwin_leavesActive (cause := 3) hst (.inr rfl)
  exact ⟨_, (if_neg (by rw [hdead]; decide)).trans (if_pos hst), setTwin_twinState (by rw [hst]; decide), hwait, hforwarded⟩

/-- What a takeover by the standby leaves, as the statements speak of it (R579). -/
theorem takeOver_claims (st cause kind : Nat) (s : State) (hst : st < 8) : (takeOver st cause kind s).twinState = st ∧
    (takeOver st cause kind s).getF Reg.twClaim = (max (s.getF Reg.twClaim) ((s.tw.hb.map (·.claim)).getD 0) + 1) % 2 ^ 32 := by
  obtain ⟨hstate, -, hclaim⟩ := takeOver_leaves st cause kind s
  exact ⟨hstate.trans (Nat.mod_eq_of_lt hst), hclaim⟩

theorem twHbMiss_standby (hdead : partnerAlive s = false) (hst : s.twinState = 3) (hclk : s.isF Reg.twStatusTwclkOk = false) :
    ∃ t, exec .twHbMiss s = .next t ∧ t.twinState = 5 ∧ t.getF Reg.twClaim = (max (s.getF Reg.twClaim) ((s.tw.hb.map (·.claim)).getD 0) + 1) % 2 ^ 32 :=
  ⟨_, (if_neg (by rw [hdead]; decide)).trans ((if_neg (by omega)).trans ((if_pos hst).trans (if_pos hclk))), takeOver_claims 5 3 1 s (by decide)⟩

theorem twHbMiss_fault (hdead : partnerAlive s = false) (hst : s.twinState = 3) (hclk : s.isF Reg.twStatusTwclkOk = true) :
    ∃ t, exec .twHbMiss s = .next t ∧ t.twinState = 3 ∧ t.isF Reg.twStatusLinkFault = true := by
  have hbranch : exec .twHbMiss s = if s.isF Reg.twStatusLinkFault = true then .next s
      else .next (raiseEv 132 3 0x0E02 [(20, le 1 1)] (s.setB Reg.twStatusLinkFault true)) :=
    (if_neg (by rw [hdead]; decide)).trans ((if_neg (by omega)).trans ((if_pos hst).trans (if_neg (by rw [hclk]; decide))))
  by_cases hfault : s.isF Reg.twStatusLinkFault = true
  · exact ⟨s, hbranch.trans (if_pos hfault), hst, hfault⟩
  · exact ⟨_, hbranch.trans (if_neg hfault), (raiseEv_getF_tw part_twStatusState).trans (read_setB (by decide) hst),
      (isF_of_getF (raiseEv_getF_tw part_twStatusLinkFault)).trans (isF_setB_same s Reg.twStatusLinkFault true rfl)⟩

theorem twHbMiss_stays (h : partnerAlive s = true ∨ (s.twinState ≠ 3 ∧ s.twinState ≠ 4) ∨
      (s.twinState = 3 ∧ s.isF Reg.twStatusTwclkOk = true ∧ s.isF Reg.twStatusLinkFault = true)) : exec .twHbMiss s = .next s := by
  by_cases halive : partnerAlive s = true
  · exact if_pos halive
  obtain hlive | ⟨h3, h4⟩ | ⟨h3, hclk, hfault⟩ := h
  · exact absurd hlive halive
  · exact (if_neg halive).trans ((if_neg h4).trans (if_neg h3))
  · exact (if_neg halive).trans ((if_neg (by omega)).trans ((if_pos h3).trans ((if_neg (by rw [hclk]; decide)).trans (if_pos hfault))))

theorem twFaultTimeout_takes {f : Nat} (hfrom : s.tw.faultFrom = some f) (hst : s.twinState = 3) (hdue : f + 781250 ≤ s.dtt) :
    ∃ t, exec .twFaultTimeout s = .next t ∧ t.twinState = 5 ∧
      t.getF Reg.twClaim = (max (s.getF Reg.twClaim) ((s.tw.hb.map (·.claim)).getD 0) + 1) % 2 ^ 32 := by
  refine ⟨_, ?_, takeOver_claims 5 4 1 s (by decide)⟩
  show execTwFaultTimeout s = _
  unfold execTwFaultTimeout
  rw [hfrom]
  exact if_pos ⟨hst, hdue⟩

theorem twFaultTimeout_stays (h : s.twinState ≠ 3 ∨ ∀ f, s.tw.faultFrom = some f → s.dtt < f + 781250) : exec .twFaultTimeout s = .next s := by
  show execTwFaultTimeout s = _
  unfold execTwFaultTimeout
  split
  case h_1 f hf =>
    refine if_neg ?_
    rintro ⟨hst, hdue⟩
    obtain h3 | hearly := h
    · exact h3 hst
    · exact absurd hdue (Nat.not_le.2 (hearly f hf))
  case h_2 => rfl

theorem twWtrExpiry_takes {u : Nat} (huntil : s.tw.wtrUntil = some u) (hst : s.twinState = 3) (hdue : u ≤ s.dtt) (hmirrors : s.tw.mirrors = []) :
    ∃ t, exec .twWtrExpiry s = .next t ∧ t.twinState = 4 ∧
      t.getF Reg.twClaim = (max (s.getF Reg.twClaim) ((s.tw.hb.map (·.claim)).getD 0) + 1) % 2 ^ 32 := by
  refine ⟨_, ?_, takeOver_claims 4 6 2 s (by decide)⟩
  show execTwWtrExpiry s = _
  unfold execTwWtrExpiry
  rw [huntil]
  exact if_pos ⟨hst, hdue, hmirrors⟩

theorem twWtrExpiry_stays (h : s.tw.wtrUntil = none ∨ s.twinState ≠ 3 ∨ (∀ u, s.tw.wtrUntil = some u → s.dtt < u) ∨ s.tw.mirrors ≠ []) :
    exec .twWtrExpiry s = .next s := by
  show execTwWtrExpiry s = _
  unfold execTwWtrExpiry
  split
  case h_1 u hu =>
    refine if_neg ?_
    rintro ⟨hst, hdue, hmirrors⟩
    obtain hnone | h3 | hearly | hwaits := h
    · rw [hnone] at hu
      cases hu
    · exact h3 hst
    · exact absurd hdue (Nat.not_le.2 (hearly u hu))
    · exact hwaits hmirrors
  case h_2 => rfl

theorem twLinkTimeout_alone (hst : s.twinState = 1) (hdue : s.tw.entered + 7812500000 ≤ s.dtt) :
    ∃ t, exec .twLinkTimeout s = .next t ∧ t.twinState = 5 ∧ t.isF Reg.hstStatusActive = true := by
  have hne : s.twinState ≠ 5 := by rw [hst]; decide
  exact ⟨_, if_pos ⟨hst, hdue⟩, setTwin_twinState hne, setTwin_active hne⟩

end

end Sys2Proof.Machine

/-! SUPPORT. TWCLK and the twin link (R574, R576): alignment judged, the clock and the link lost. -/

namespace Sys2Proof.Machine

/-! TWCLK lost (R576, R581). -/

/-- The state after TWCLK is found lost, before a takeover. -/
def clockLost (s : State) : State :=
  let t := setAligned false (s.getI64 Reg.twAlign) (s.setB Reg.twStatusTwclkOk false)
  { t with tw := { t.tw with inRun := 0, outRun := 0 } }

/-- Whether the partner lives rests on its heartbeats alone. -/
theorem partnerAlive_of {s t : State} (hhb : t.tw.hb = s.tw.hb) (hmiss : t.tw.hbMiss = s.tw.hbMiss) (hdtt : t.dtt = s.dtt) :
    partnerAlive t = partnerAlive s := by
  unfold partnerAlive
  rw [hhb, hmiss, hdtt]

theorem clockLost_leaves (s : State) : (clockLost s).isF Reg.twStatusTwclkOk = false ∧ (clockLost s).isF Reg.twStatusAligned = false ∧
    (clockLost s).twinState = s.twinState ∧ partnerAlive (clockLost s) = partnerAlive s := by
  have haligned := setAligned_aligned false (s.getI64 Reg.twAlign) (s.setB Reg.twStatusTwclkOk false)
  obtain ⟨hregs, htw⟩ := setAligned_kept (b := false) (e := s.getI64 Reg.twAlign) (TwinKept.refl (s.setB Reg.twStatusTwclkOk false))
  have hdtt : (setAligned false (s.getI64 Reg.twAlign) (s.setB Reg.twStatusTwclkOk false)).dtt = s.dtt :=
    setAligned_keeps (same_keeps .dtt (s.setB Reg.twStatusTwclkOk false)) (sub_of rfl) rfl
  refine ⟨?_, haligned, ?_, partnerAlive_of ?_ ?_ hdtt⟩
  · exact (isF_of_getF (hregs _ part_twStatusTwclkOk (by decide))).trans (isF_setB_same s Reg.twStatusTwclkOk false rfl)
  · exact (hregs _ part_twStatusState (by decide)).trans (read_setB (by decide) rfl)
  · exact (congrArg Twin.hb htw :)
  · exact (congrArg Twin.hbMiss htw :)

theorem takeOver_clock (st cause kind : Nat) (s : State) : (takeOver st cause kind s).isF Reg.twStatusTwclkOk = s.isF Reg.twStatusTwclkOk := by
  refine isF_of_getF ((takeOver_getF part_twStatusTwclkOk).trans ((enterTwin_getF part_twStatusTwclkOk (by decide) (by decide)).trans ?_))
  exact (twSend_keeps (same_keeps .rTw (s.setF Reg.twClaim (claimAbove s))) (sub_of rfl) (fun _ _ => rfl) _ part_twStatusTwclkOk).trans
    (getF_setF_ne s (f := Reg.twClaim) (g := Reg.twStatusTwclkOk) _ (by decide))

theorem twTwclkLoss_leaves {s : State} (h : s.isF Reg.twStatusTwclkOk = true) : ∃ t, exec .twTwclkLoss s = .next t ∧
    t.isF Reg.twStatusTwclkOk = false ∧ t.isF Reg.twStatusAligned = false ∧
    t.twinState = (if s.twinState = 3 ∧ partnerAlive s = false then 5 else s.twinState) := by
  obtain ⟨hclk, haligned, hstate, halive⟩ := clockLost_leaves s
  have hbranch : exec .twTwclkLoss s = if (clockLost s).twinState = 3 ∧ partnerAlive (clockLost s) = false
      then .next (takeOver 5 3 1 (clockLost s)) else .next (clockLost s) := if_neg (by rw [h]; decide)
  rw [hstate, halive] at hbranch
  split
  case isTrue htake =>
    rw [if_pos htake] at hbranch
    exact ⟨_, hbranch, (takeOver_clock 5 3 1 _).trans hclk, (isF_of_getF (takeOver_getF part_twStatusAligned)).trans (enterTwin_aligned (by decide) _),
      (takeOver_claims 5 3 1 _ (by decide)).1⟩
  case isFalse hstay =>
    rw [if_neg hstay] at hbranch
    exact ⟨_, hbranch, hclk, haligned, hstate⟩

/-! TWCLK measured (R576). -/

/-- The error of a phase sample lies within half a period. -/
theorem twError_fits (raw : Int) (s : State) : -2 ^ 63 ≤ twError raw s ∧ twError raw s < 2 ^ 63 := by
  unfold twError divRound
  extract_lets v m
  have hlo : 0 ≤ m := Int.emod_nonneg v (by decide)
  have hhi : m < 8388608 := Int.emod_lt_of_pos v (by decide)
  split <;> omega

/-- The sample shown: TWCLK runs, and its error. -/
def sampleShown (e : Int) (s : State) : State := (s.setB Reg.twStatusTwclkOk true).setI64 Reg.twAlign e

theorem sampleShown_getF {e : Int} {s : State} {f : Fld} (hne : f.key ∉ [Reg.twStatusTwclkOk, word Reg.twAlign, word (Reg.twAlign + 4)].map Fld.key) :
    (sampleShown e s).getF f = s.getF f := by
  simp only [List.map_cons, List.map_nil, List.mem_cons, List.not_mem_nil, or_false, not_or] at hne
  obtain ⟨hclk, hlow, hhigh⟩ := hne
  exact read_setF hhigh (read_setF hlow (read_setB hclk rfl))

theorem sampleShown_clock (e : Int) (s : State) : (sampleShown e s).isF Reg.twStatusTwclkOk = true :=
  (isF_setF_ne _ _ (by decide)).trans ((isF_setF_ne _ _ (by decide)).trans (isF_setB_same s Reg.twStatusTwclkOk true rfl))

/-- The loop's step for a sample of error `e` (R577). -/
def sampleFiltered (e : Int) (s : State) : State :=
  filterStep s.served (s.tw.bw * 1000) (10 ^ 9) e (s.setI64 (Reg.plDPerr s.served) e)

theorem sampleFiltered_regs (e : Int) (s : State) : Part.same .rTw s (sampleFiltered e s) :=
  filterStep_keeps (same_keeps .rTw s) (sub_of rfl) (setI64_k (same_keeps .rTw s) 5 part_plDPerr_2 (sub_of rfl) (Part.same_refl .rTw s))

theorem sampleFiltered_tw (e : Int) (s : State) : (sampleFiltered e s).tw = s.tw :=
  filterStep_keeps (same_keeps .tw s) (sub_of rfl) (setI64_k (same_keeps .tw s) 5 part_plDPerr_2 (sub_of rfl) rfl)

/-- Samples in a row within 50 ps, this one counted. -/
def withinRun (e : Int) (s : State) : Nat := if decide (e.natAbs * 1000 ≤ 50 * 65536) then s.tw.inRun + 1 else 0

/-- Samples in a row beyond 200 ps, this one counted. -/
def beyondRun (e : Int) (s : State) : Nat := if decide (200 * 65536 < e.natAbs * 1000) then s.tw.outRun + 1 else 0

/-- The runs of samples counted. -/
def sampleCounted (e : Int) (s : State) : State :=
  { s with tw := { s.tw with inRun := min (withinRun e s) 4096, outRun := min (beyondRun e s) 16 } }

/-- Alignment judged by the runs (R576). -/
def alignJudged (e : Int) (s : State) : State :=
  if 4096 ≤ withinRun e s then setAligned true e (sampleCounted e s)
  else if 16 ≤ beyondRun e s then setAligned false e (sampleCounted e s) else sampleCounted e s

theorem alignJudged_kept (e : Int) (s : State) : BlockFields 20 [Reg.twStatusAligned, Reg.twStatusWtrRun] s (alignJudged e s) := by
  have hset : ∀ b, BlockFields 20 [Reg.twStatusAligned, Reg.twStatusWtrRun] s (setAligned b e (sampleCounted e s)) := fun b f hf hne =>
    (setAligned_kept (b := b) (e := e) (TwinKept.refl (sampleCounted e s))).regs f hf hne
  exact ite_k (hset true) (ite_k (hset false) (BlockFields.refl _ _ s))

theorem alignJudged_aligned (e : Int) (s : State) : (alignJudged e s).isF Reg.twStatusAligned =
    (if e.natAbs * 1000 ≤ 50 * 65536 ∧ 4095 ≤ s.tw.inRun then true
     else if 200 * 65536 < e.natAbs * 1000 ∧ 15 ≤ s.tw.outRun then false else s.isF Reg.twStatusAligned) := by
  have hin : 4096 ≤ withinRun e s ↔ e.natAbs * 1000 ≤ 50 * 65536 ∧ 4095 ≤ s.tw.inRun := by
    unfold withinRun
    by_cases hw : e.natAbs * 1000 ≤ 50 * 65536
    · simp [hw]
    · simp [hw]
  have hout : 16 ≤ beyondRun e s ↔ 200 * 65536 < e.natAbs * 1000 ∧ 15 ≤ s.tw.outRun := by
    unfold beyondRun
    by_cases hb : 200 * 65536 < e.natAbs * 1000
    · simp [hb]
    · simp [hb]
  unfold alignJudged
  simp only [← hin, ← hout]
  split
  · exact setAligned_aligned true e _
  · split
    · exact setAligned_aligned false e _
    · rfl

theorem twAlign_judges {raw : Int} {s : State} (hawake : s.awake 61 = true) (hst : s.twinState = 2 ∨ s.twinState = 3) :
    ∃ t, exec (.twAlign raw) s = .next t ∧ t.getI64 Reg.twAlign = twError raw s ∧ t.isF Reg.twStatusTwclkOk = true ∧
      t.isF Reg.twStatusAligned = (if (twError raw s).natAbs * 1000 ≤ 50 * 65536 ∧ 4095 ≤ s.tw.inRun then true
        else if 200 * 65536 < (twError raw s).natAbs * 1000 ∧ 15 ≤ s.tw.outRun then false else s.isF Reg.twStatusAligned) := by
  have hshown : (sampleShown (twError raw s) s).twinState = s.twinState := sampleShown_getF (by decide)
  have hexec : exec (.twAlign raw) s = .next (alignJudged (twError raw s) (sampleFiltered (twError raw s) (sampleShown (twError raw s) s))) :=
    (if_neg (not_or.2 ⟨by omega, by rw [hawake]; decide⟩)).trans (if_neg (fun hne => by
      rw [show ((s.setB Reg.twStatusTwclkOk true).setI64 Reg.twAlign (twError raw s)).twinState = s.twinState from hshown] at hne
      omega))
  obtain ⟨hlo, hhi⟩ := twError_fits raw s
  generalize twError raw s = e at *
  have hregs := sampleFiltered_regs e (sampleShown e s)
  have htw : (sampleFiltered e (sampleShown e s)).tw = s.tw := sampleFiltered_tw e (sampleShown e s)
  have hkept := alignJudged_kept e (sampleFiltered e (sampleShown e s))
  refine ⟨_, hexec, ?_, ?_, ?_⟩
  · refine (hkept.getI64 part_twAlign_2 (by decide)).trans (Eq.trans ?_ (getI64_setI64 (s.setB Reg.twStatusTwclkOk true) Reg.twAlign hlo hhi))
    unfold State.getI64 State.get64
    rw [hregs _ part_twAlign_2.1, hregs _ part_twAlign_2.2]
    rfl
  · exact (hkept.isF part_twStatusTwclkOk (by decide)).trans ((isF_of_getF (hregs _ part_twStatusTwclkOk)).trans (sampleShown_clock e s))
  · rw [alignJudged_aligned, htw, isF_of_getF (hregs _ part_twStatusAligned), isF_of_getF (sampleShown_getF (f := Reg.twStatusAligned) (by decide))]

theorem twAlign_shows {raw : Int} {s : State} (hawake : s.awake 61 = true) (hoff : s.twinState ≠ 0) (h2 : s.twinState ≠ 2) (h3 : s.twinState ≠ 3) :
    exec (.twAlign raw) s = .next (sampleShown (twError raw s) s) := by
  have hshown : (sampleShown (twError raw s) s).twinState = s.twinState := sampleShown_getF (by decide)
  refine (if_neg (not_or.2 ⟨hoff, by rw [hawake]; decide⟩)).trans (if_pos ?_)
  show (sampleShown (twError raw s) s).twinState ≠ 2 ∧ (sampleShown (twError raw s) s).twinState ≠ 3
  rw [hshown]
  exact ⟨h2, h3⟩

/-! The link lost (R574). -/

/-- The twin link found down: its mark taken away and a frame in reception cut. -/
def linkCut (s : State) : State := cutFrame 50 [] (s.setB Reg.twStatusLinkUp false)

/-- The twin lanes without lock. -/
def lanesUnlocked (s : State) : State := [48, 49, 50, 51].foldl (fun s n => s.setB (Reg.sdsStatusRxLock n) false) s

theorem lanesUnlocked_tw (s : State) : Part.same .rTw s (lanesUnlocked s) :=
  foldl_k (P := Part.same .rTw s) (Part.same_refl .rTw s) (fun _ _ h => setB_k (same_keeps .rTw s) 10 part_sdsStatusRxLock (sub_of rfl) h)

theorem lanesUnlocked_rxLock (s : State) : (lanesUnlocked s).isF (Reg.sdsStatusRxLock 48) = false :=
  (isF_setF_ne _ _ (by decide)).trans ((isF_setF_ne _ _ (by decide)).trans ((isF_setF_ne _ _ (by decide)).trans (isF_setB_same s _ false rfl)))

theorem twinLinkDown_leaves {s : State} (h : s.isF Reg.twStatusLinkUp = true) : ∃ t, exec .twinLinkDown s = .next t ∧
    t.isF Reg.twStatusLinkUp = false ∧ t.isF (Reg.sdsStatusRxLock 48) = false ∧ t.twinState = s.twinState := by
  have hregs : Part.same .rTw (s.setB Reg.twStatusLinkUp false) (lanesUnlocked (linkCut s)) :=
    Part.same_trans (cutFrame_keeps (same_keeps .rTw _) (sub_of rfl) (Part.same_refl .rTw _)) (lanesUnlocked_tw (linkCut s))
  obtain ⟨-, hfields⟩ := restartWtr_leaves (lanesUnlocked (linkCut s))
  refine ⟨_, if_neg (by rw [h]; decide), (isF_of_getF (hfields _ (by decide))).trans ?_, (isF_of_getF (hfields _ (by decide))).trans ?_,
    (hfields _ (by decide)).trans ?_⟩
  · exact (isF_of_getF (hregs _ part_twStatusLinkUp)).trans (isF_setB_same s Reg.twStatusLinkUp false rfl)
  · exact lanesUnlocked_rxLock _
  · exact (hregs _ part_twStatusState).trans (read_setB (by decide) rfl)

end Sys2Proof.Machine

/-! SUPPORT. The twin link and takeover, clause by clause. -/

namespace Sys2Proof.Machine

/-- A row that has a next state with a property has one within the row's frame. -/
theorem framed {ps : List Part} {s : State} {o : Out} {Q : State → Prop} (hframe : Nx (FrameOf ps s) o) (h : ∃ t, o = .next t ∧ Q t) :
    ∃ t, o = .next t ∧ FrameOf ps s t ∧ Q t := by
  obtain ⟨t, ho, hq⟩ := h
  exact ⟨t, ho, hframe t ho, hq⟩

/-- The parts a heartbeat that is heard can change. -/
def heartbeatParts : List Part := [.rHst, .rMbx, .rTb, .rRs, .rPl, .rBf, .rCt, .rMp, .rTw, .hostMem, .freeCount, .evu, .rings, .bus, .mbx, .counters, .tb,
  .refs, .dpll, .sw, .ft, .bf, .merges, .releases, .evd, .tw, .mp]

theorem twHeartbeatRx_frame (state qcA qcB claim : Nat) (fault : Bool) (pref serial : Nat) (s : State) :
    Nx (FrameOf heartbeatParts s) (exec (.twHeartbeatRx true state qcA qcB claim fault pref serial) s) :=
  execTwHeartbeatRx_keeps (frame_keeps _ s) (sub_of rfl) (FrameOf.refl _ s)

/-- The parts a TIME frame that is heard can change. -/
def timeParts : List Part := [.rHst, .rGd, .rMbx, .rTb, .rRs, .rPl, .rBf, .rCt, .rMp, .rTw, .hostMem, .freeCount, .evu, .rings, .bus, .mbx, .counters, .tb,
  .refs, .dpll, .sw, .ft, .bf, .merges, .releases, .evd, .tw, .mp, .boot]

theorem twTimeRx_frame (stamp here : Nat) (timeA timeB : Int) (stepA stepB : Nat) (rateA rateB : Int) (served : Nat) (s : State) :
    Nx (FrameOf timeParts s) (exec (.twTimeRx true stamp here timeA timeB stepA stepB rateA rateB served) s) :=
  execTwTimeRx_keeps (rateA := rateA) (rateB := rateB) (served := served) (frame_keeps _ s) (sub_of rfl) (FrameOf.refl _ s)

/-- Settles O52, row by row: what each frame, each interval and each loss on the twin link leaves, within the frame of its row. -/
theorem twinLinkAndTakeoverRun : Obligations.TwinLinkAndTakeoverRun := by
  unfold Obligations.TwinLinkAndTakeoverRun
  refine ⟨fun s h hdue => framed (execTwHeartbeatTx_keeps (frame_keeps _ s) (sub_of rfl) (FrameOf.refl _ s)) (twHeartbeatTx_sends h hdue),
    fun s h => if_pos h, fun _ _ _ _ _ _ _ _ s h => if_pos h, fun _ _ _ _ _ _ _ s h => if_neg (not_deaf h),
    fun _ _ _ _ _ _ _ s h => framed (twHeartbeatRx_frame _ _ _ _ _ _ _ s) (twHeartbeatRx_notes h),
    fun _ _ _ _ _ _ _ s h hst => framed (twHeartbeatRx_frame _ _ _ _ _ _ _ s) (twHeartbeatRx_linking h hst),
    fun _ _ _ _ _ _ _ s h hst hc => framed (twHeartbeatRx_frame _ _ _ _ _ _ _ s) (twHeartbeatRx_claims h hst hc),
    fun _ _ _ _ _ _ _ s h hst hs => framed (twHeartbeatRx_frame _ _ _ _ _ _ _ s) (twHeartbeatRx_alone h hst hs),
    fun _ _ _ _ _ _ _ s h hst hal => framed (twHeartbeatRx_frame _ _ _ _ _ _ _ s) (twHeartbeatRx_aligned h hst hal),
    fun _ _ _ _ _ _ _ s h h1 hc h5 => framed (twHeartbeatRx_frame _ _ _ _ _ _ _ s) (twHeartbeatRx_stays h h1 hc h5),
    fun s hst hdue => framed (execTwTimeTx_keeps (frame_keeps _ s) (sub_of rfl) (FrameOf.refl _ s)) (twTimeTx_sends hst hdue),
    fun s h => if_pos h, fun _ _ _ _ _ _ _ _ _ _ s h => if_pos h, fun _ _ _ _ _ _ _ _ _ s h => if_neg (not_deaf h),
    fun _ _ _ _ _ _ _ _ _ s h hst hheld hA hB => framed (twTimeRx_frame _ _ _ _ _ _ _ _ _ s) (twTimeRx_commits h hst hheld hA hB),
    fun _ _ _ _ _ _ _ _ _ s h hst hheld hA => framed (twTimeRx_frame _ _ _ _ _ _ _ _ _ s)
      ⟨_, twTimeRx_deniedA h hst hheld hA, rfl, denied_waits_no_more _ hst⟩,
    fun _ _ _ _ _ _ _ _ _ s h hst hheld hA hB => framed (twTimeRx_frame _ _ _ _ _ _ _ _ _ s)
      ⟨_, twTimeRx_deniedB h hst hheld hA hB, rfl, denied_waits_no_more _ hst⟩,
    fun _ _ _ _ a b _ _ _ s h hst hdue => framed (twTimeRx_frame _ _ _ _ _ _ _ _ _ s) ?_,
    fun _ _ _ _ _ _ _ _ _ s h hst hdue => framed (twTimeRx_frame _ _ _ _ _ _ _ _ _ s) (twTimeRx_returns h hst hdue),
    fun _ _ _ _ _ _ _ _ _ s h h3 hwait => (if_neg (not_deaf h)).trans ((if_neg Bool.false_ne_true).trans ((if_neg ?_).trans (if_neg h3))),
    fun _ _ _ _ _ s h => if_pos h, fun _ _ _ _ s h => if_neg (not_deaf h),
    fun _ _ _ _ s h hst => framed (execTwMirrorRx_keeps (frame_keeps _ s) (sub_of rfl) (FrameOf.refl _ s)) (twMirrorRx_waits h hst),
    fun _ _ _ _ s h hst => (if_neg (not_deaf h)).trans ((if_neg Bool.false_ne_true).trans (if_pos hst)),
    fun _ _ _ _ s h => if_pos h, fun _ _ _ s h => if_neg (not_deaf h),
    fun _ _ _ x s h hwait hseq hfwd => framed (execTwAckRx_keeps (frame_keeps _ s) (sub_of rfl) (FrameOf.refl _ s)) (twAckRx_meets h hwait hseq hfwd),
    fun _ _ _ s h hnone => twAckRx_notes h hnone,
    fun _ _ _ x y a s h hwait hne hfind hack => twAckRx_earlier h hwait hne hfind hack,
    fun x s hwait hdue => framed (execMirrorAckTimeout_keeps (frame_keeps _ s) (sub_of rfl) (FrameOf.refl _ s)) (mirrorAckTimeout_drops hwait hdue),
    fun s hwait => mirrorAckTimeout_waits hwait,
    fun _ _ _ _ s h => if_pos h, fun _ _ _ s h => if_neg (not_deaf h),
    fun _ _ _ s h => framed (execTwEvdBhRx_keeps (frame_keeps _ s) (sub_of rfl) (FrameOf.refl _ s))
      ⟨_, (if_neg (not_deaf h)).trans (if_neg Bool.false_ne_true), rfl⟩,
    fun _ _ _ s h => if_pos h, fun _ _ s h => if_neg (not_deaf h),
    fun _ _ s h hst hclaim hok => framed (execTwClaimRx_keeps (frame_keeps _ s) (sub_of rfl) (FrameOf.refl _ s)) (twClaimRx_gives h hst hclaim hok),
    fun _ _ s h hstays => twClaimRx_notes h hstays,
    fun s hst hdue => framed (execTwLinkTimeout_keeps (frame_keeps _ s) (sub_of rfl) (FrameOf.refl _ s)) (twLinkTimeout_alone hst hdue),
    fun s h => if_neg (by omega),
    fun s hdead hst => framed (execTwHbMiss_keeps (frame_keeps _ s) (sub_of rfl) (FrameOf.refl _ s)) (twHbMiss_active hdead hst),
    fun s hdead hst hclk => framed (execTwHbMiss_keeps (frame_keeps _ s) (sub_of rfl) (FrameOf.refl _ s)) (twHbMiss_standby hdead hst hclk),
    fun s hdead hst hclk => framed (execTwHbMiss_keeps (frame_keeps _ s) (sub_of rfl) (FrameOf.refl _ s)) (twHbMiss_fault hdead hst hclk),
    fun s h => twHbMiss_stays h,
    fun f s hfrom hst hdue => framed (execTwFaultTimeout_keeps (frame_keeps _ s) (sub_of rfl) (FrameOf.refl _ s)) (twFaultTimeout_takes hfrom hst hdue),
    fun s h => twFaultTimeout_stays h,
    fun s h => framed (execTwTwclkLoss_keeps (frame_keeps _ s) (sub_of rfl) (FrameOf.refl _ s)) (twTwclkLoss_leaves h),
    fun s h => if_pos h,
    fun raw s ha hst => framed (execTwAlign_keeps (frame_keeps _ s) (sub_of rfl) (FrameOf.refl _ s)) (twAlign_judges ha hst),
    fun raw s ha h0 h2 h3 => twAlign_shows ha h0 h2 h3,
    fun raw s h => if_pos h,
    fun u s hu hst hdue hm => framed (execTwWtrExpiry_keeps (frame_keeps _ s) (sub_of rfl) (FrameOf.refl _ s)) (twWtrExpiry_takes hu hst hdue hm),
    fun s h => twWtrExpiry_stays h,
    fun s h => framed (execTwinLinkDown_keeps (frame_keeps _ s) (sub_of rfl) (FrameOf.refl _ s)) (twinLinkDown_leaves h),
    fun s h => if_pos h⟩
  · obtain ⟨hcA, hcB, hfields⟩ := countersTaken_leaves a b s
    exact ⟨_, twTimeRx_counters h hst hdue, hcA, hcB, hfields, countersTaken_tw a b s⟩
  · rintro ⟨h2, hheld⟩
    obtain hne | hnone := hwait
    · exact hne h2
    · rw [hnone] at hheld
      cases hheld

end Sys2Proof.Machine

/-! SUPPORT. The time base in the state in which a command's effect begins: taking the entry leaves it as it was. -/

namespace Sys2Proof.Machine

theorem seg_of_dom {s t : State} {d : Nat} (h : t.dom d = s.dom d) : t.seg d = s.seg d := congrArg (fun x : Domain => x.segs.headD ⟨0, 0, 0⟩) h

theorem timeAt_of_segs {s t : State} {d : Nat} (h : (t.dom d).segs = (s.dom d).segs) (x : Nat) : t.timeAt d x = s.timeAt d x := by
  unfold State.timeAt
  rw [h]

theorem timeAt_of_dom {s t : State} {d : Nat} (h : t.dom d = s.dom d) (x : Nat) : t.timeAt d x = s.timeAt d x :=
  timeAt_of_segs (congrArg Domain.segs h) x

theorem stepsWaiting_of_dom {s t : State} {d : Nat} (h : t.dom d = s.dom d) : stepsWaiting d t = stepsWaiting d s := by
  unfold stepsWaiting
  rw [h]

theorem stepOutOfRange_of_dom {s t : State} {d : Nat} (h : t.dom d = s.dom d) (x : Nat) (a : Int) : stepOutOfRange d x a t = stepOutOfRange d x a s := by
  unfold stepOutOfRange
  rw [timeAt_of_dom h, stepsWaiting_of_dom h]

section

variable (c : Cmd) (s : State)

@[simp] theorem taken_tb : (taken c s).tb = s.tb := taken_frame c s .tb (by decide)
@[simp] theorem taken_dom (d : Nat) : (taken c s).dom d = s.dom d := dom_of_tb (taken_tb c s) d
@[simp] theorem taken_timeAt (d x : Nat) : (taken c s).timeAt d x = s.timeAt d x := timeAt_of_dom (taken_dom c s d) x
@[simp] theorem taken_stepc (d : Nat) : (taken c s).stepc d = s.stepc d := taken_getF c s part_tbDStepc (by decide)
@[simp] theorem taken_served : (taken c s).served = s.served := taken_getF c s part_tbStateServed (by decide)
@[simp] theorem taken_qcState (d : Nat) : (taken c s).qcState d = s.qcState d := by
  unfold State.qcState State.qc
  rw [taken_getF c s part_tbDStatusQc (by decide)]

/-- What waits of ALIGN_NEEDED and of its error stands as it stood. -/
@[simp] theorem taken_alignWanted (d : Nat) : alignWanted d (taken c s) = alignWanted d s := by
  unfold alignWanted
  rw [taken_isF c s part_tbDStatusAlignNeeded (by decide), taken_dom]

@[simp] theorem taken_alignError (d : Nat) : alignError d (taken c s) = alignError d s := by
  unfold alignError State.getI64 State.get64
  rw [taken_getF c s part_tbDAlignErr_2.1 (by decide), taken_getF c s part_tbDAlignErr_2.2 (by decide), stepsWaiting_of_dom (taken_dom c s d)]

/-- An entry of the standby's mirror leaves its queue only when the command ends. -/
@[simp] theorem taken_mirrorInstant : mirrorInstant c (taken c s) = mirrorInstant c s := by
  unfold mirrorInstant
  split
  case isTrue h =>
    have hmirror : taken c s = { s with mbx := { s.mbx with startedAt := startStamp c s } } := by
      unfold taken takeEntry
      simp [h]
    rw [hmirror]
    rfl
  case isFalse => rfl

end

/-! ### Steps of zero, and switches that switch nothing -/

/-- A step of 0 asks for nothing (R146). -/
theorem tbStepEffect_zero {c : Cmd} (h : ci c 4 8 = 0) (s : State) : tbStepEffect c s =
    (s, okWith [(32, le 8 s.dtt), (40, le 4 (s.stepc (cu c 0 1))), (44, ftBytes (s.timeAt (cu c 0 1) (s.dtt * 2 ^ 16)))]) := by
  unfold tbStepEffect
  dsimp only
  rw [if_pos h]

theorem tbStep_zero {c : Cmd} {s : State} (hs : Starts tbStepSpec c s) (h : ci c 4 8 = 0) : exec (.tbStep c) s = .next (ended tbStepSpec c s (taken c s)
    (okWith [(32, le 8 s.dtt), (40, le 4 (s.stepc (cu c 0 1))), (44, ftBytes (s.timeAt (cu c 0 1) (s.dtt * 2 ^ 16)))])) := by
  have hrun : exec (.tbStep c) s = .next (ended tbStepSpec c s (tbStepEffect c (taken c s)).1 (tbStepEffect c (taken c s)).2) := runCmd_starts hs
  rw [hrun, tbStepEffect_zero h]
  simp only [taken_dtt, taken_stepc, taken_timeAt]

/-- A command that changes nothing leaves what taking its entry and completing it leave. -/
theorem ended_taken_frame (k : CmdSpec) (c : Cmd) (s : State) (r : Reply) : FrameOf mailboxParts s (ended k c s (taken c s) r) := by
  intro p hp
  refine Part.same_trans (taken_frame c s p (fun h => hp ?_)) (ended_frame k c s (taken c s) r p hp)
  revert h
  cases p <;> decide

/-- Settles O7: the effect of TB_STEP on the state with its entry taken is that state. -/
theorem aStepOfZeroChangesNothing : Obligations.AStepOfZeroChangesNothing := by
  unfold Obligations.AStepOfZeroChangesNothing
  exact fun c s hs h => ⟨tbStep_zero hs h, ended_taken_frame _ _ _ _⟩

theorem tbSetServedEffect_same {c : Cmd} {s : State} (h : cu c 0 1 = s.served) : tbSetServedEffect c s =
    (s, some (okWith [(32, leI 8 0), (40, le 8 0), (48, le 4 (s.stepc s.served))])) := by
  unfold tbSetServedEffect
  dsimp only
  rw [if_pos h, h]

theorem tbSetServedEffect_unfit {c : Cmd} {s : State} (h : cu c 0 1 ≠ s.served) (hq : s.qcState (cu c 0 1) = 1 ∨ s.qcState (cu c 0 1) = 7) :
    tbSetServedEffect c s = (s, some (failWith stRefused 0x0202)) := (if_neg h).trans (if_pos hq)

/-- The state in which a switch to the domain of `c` waits for its instant (R154). -/
def switchAsked (c : Cmd) (s : State) : State :=
  { (s.setB Reg.tbStateSwitching true) with tb := { s.tb with switchReq := some ⟨cu c 0 1, cbit c 1 0⟩ } }

theorem tbSetServedEffect_asks {c : Cmd} {s : State} (h : cu c 0 1 ≠ s.served) (hq : ¬ (s.qcState (cu c 0 1) = 1 ∨ s.qcState (cu c 0 1) = 7)) :
    tbSetServedEffect c s = (switchAsked c s, none) := (if_neg h).trans (if_neg hq)

/-- A switch that is answered at once leaves the state with its entry taken. -/
theorem tbSetServed_ends {c : Cmd} {s : State} {r : Reply} (hs : Starts tbSetServedSpec c s) (h : tbSetServedEffect c (taken c s) = (taken c s, some r)) :
    exec (.tbSetServed c) s = .next (ended tbSetServedSpec c s (taken c s) r) := by
  have hrun := runHeld_ends (f := tbSetServedEffect) hs (congrArg Prod.snd h)
  rw [h] at hrun
  exact hrun

/-- Settles O8: both switches are answered before anything is changed. -/
theorem switchesThatDoNotSwitch : Obligations.SwitchesThatDoNotSwitch := by
  unfold Obligations.SwitchesThatDoNotSwitch
  refine ⟨fun c s hs h => ⟨taken c s, _, tbSetServed_ends hs ?_, FrameOf.refl _ _, rfl, rfl⟩,
    fun c s hs h hq => ⟨taken c s, _, tbSetServed_ends hs (tbSetServedEffect_unfit ?_ ?_), FrameOf.refl _ _, rfl, rfl⟩⟩
  · rw [tbSetServedEffect_same (by rw [taken_served]; exact h)]
    simp only [taken_served, taken_stepc]
  · rw [taken_served]
    exact h
  · rw [taken_qcState]
    exact hq

end Sys2Proof.Machine

/-! SUPPORT. What the commands of the time base leave: the registers and the domain each of them writes. -/

namespace Sys2Proof.Machine

/-! ### TB_SET_UTC, TB_SET_COMPACT -/

theorem FieldsOf.set64 {fs : List Fld} {s t : State} (h : FieldsOf fs s t) {a : Nat} (hf : ∀ f ∈ pair a, f.key ∈ fs.map Fld.key) (v : Nat) :
    FieldsOf fs s (t.set64 a v) := (h.setF (hf _ (by simp [pair])) _).setF (hf _ (by simp [pair])) _

theorem getF_set64_ne (s : State) {f : Fld} {a : Nat} (v : Nat) (h : ∀ g ∈ pair a, f.key ≠ g.key) : (s.set64 a v).getF f = s.getF f :=
  (getF_setF_ne _ _ (h _ (by simp [pair]))).trans (getF_setF_ne _ _ (h _ (by simp [pair])))

theorem tbDUtcOffset_apart (d : Nat) : (Reg.tbDUtcOffset d).key ≠ (Reg.tbDStatusLeap d).key ∧
    ∀ g ∈ pair (Reg.tbDLeapAt d), (Reg.tbDUtcOffset d).key ≠ g.key := by
  simp only [pair, List.forall_mem_cons, Fld.key, Reg.tbDUtcOffset, Reg.tbDStatusLeap, Reg.tbDLeapAt, word]
  refine ⟨by omega, by omega, by omega, by simp⟩

theorem tbDStatusLeap_apart (d : Nat) : ∀ g ∈ pair (Reg.tbDLeapAt d), (Reg.tbDStatusLeap d).key ≠ g.key := by
  simp only [pair, List.forall_mem_cons, Fld.key, Reg.tbDStatusLeap, Reg.tbDLeapAt, word]
  refine ⟨by omega, by omega, by simp⟩

theorem tbSetUtcEffect_leaves (c : Cmd) (s : State) : (tbSetUtcEffect c s).1.getF (Reg.tbDUtcOffset (cu c 0 1)) = cu c 2 2 % 2 ^ 16 ∧
    (tbSetUtcEffect c s).1.getF (Reg.tbDStatusLeap (cu c 0 1)) = cu c 1 1 % 2 ^ 2 ∧
    (tbSetUtcEffect c s).1.get64 (Reg.tbDLeapAt (cu c 0 1)) = cu c 4 6 % 2 ^ 64 ∧
    FieldsOf ([Reg.tbDUtcOffset (cu c 0 1), Reg.tbDStatusLeap (cu c 0 1)] ++ pair (Reg.tbDLeapAt (cu c 0 1))) s (tbSetUtcEffect c s).1 := by
  unfold tbSetUtcEffect
  dsimp only
  generalize cu c 0 1 = d
  obtain ⟨hleap, hat⟩ := tbDUtcOffset_apart d
  refine ⟨?_, ?_, get64_set64 _ _ _, (((FieldsOf.refl _ s).setF ?_ _).setF ?_ _).set64 ?_ _⟩
  · rw [getF_set64_ne _ _ hat, getF_setF_ne _ _ hleap, getF_setF_same]
    rfl
  · rw [getF_set64_ne _ _ (tbDStatusLeap_apart d), getF_setF_same]
    rfl
  · simp
  · simp
  · simp [pair]

theorem tbSetCompactEffect_leaves (c : Cmd) (s : State) : (tbSetCompactEffect c s).1.getF Reg.tbStateCompact = cu c 0 1 % 2 ^ 5 ∧
    FieldsOf [Reg.tbStateCompact] s (tbSetCompactEffect c s).1 ∧
    ∀ b ∈ (tbSetCompactEffect c s).1.tb.bases, b ∈ s.tb.bases ∧ bit (s.getF Reg.tbStateCompact) (b.1 / 256) = true :=
  ⟨getF_setF_same _ _ _, ((FieldsOf.refl _ s).setF (by simp) _).regs rfl, fun _ hb => List.mem_filter.1 hb⟩

/-! ### TB_SNAPSHOT -/

theorem raiseEv_getF {sev : Nat} (h : sev ≠ 3) (src code : Nat) (fs : List (Nat × Bytes)) (s : State) (f : Fld) :
    (raiseEv src sev code fs s).getF f = s.getF f := getF_of_regs (raiseAt_regs h _ _ _ _ _) f

/-- A capture is done, and nothing is armed after it (R141). -/
theorem capture_done (src x : Nat) (s : State) : (capture src x s).getF Reg.tbSnapCtrlDone = 1 ∧ (capture src x s).getF Reg.tbSnapCtrlArm = 0 := by
  unfold capture
  extract_lets _ _ _ _ _ _ _ _ t u v
  rw [raiseEv_getF (by decide), raiseEv_getF (by decide)]
  have hdone : u.getF Reg.tbSnapCtrlDone = 1 := getF_raiseBit_same t rfl
  have hkeep : v.getF Reg.tbSnapCtrlDone = u.getF Reg.tbSnapCtrlDone := getF_setF_ne u _ (by decide)
  exact ⟨hkeep.trans hdone, getF_setF_same u _ _⟩

theorem armSnap_fields (src : Nat) (s : State) : FieldsOf [Reg.tbSnapCtrlArm, Reg.tbSnapCtrlArmSrc] s (armSnap src s) := by
  have hsrc : FieldsOf [Reg.tbSnapCtrlArm, Reg.tbSnapCtrlArmSrc] s (s.setF Reg.tbSnapCtrlArmSrc src) := (FieldsOf.refl _ s).setF (by simp) _
  unfold armSnap
  exact ite_k (hsrc.setF (by simp) _) (hsrc.setF (by simp) _)

theorem tbSnapshotEffect_now {c : Cmd} (h : cu c 0 1 = 0) (s : State) :
    (tbSnapshotEffect c s).1 = capture 0 s.now80 s ∧ (tbSnapshotEffect c s).2.status = stOk := by
  unfold tbSnapshotEffect
  rw [if_pos h]
  dsimp only
  exact ⟨rfl, rfl⟩

theorem tbSnapshotEffect_arms {c : Cmd} (h : cu c 0 1 ≠ 0) (s : State) : tbSnapshotEffect c s = (armSnap (cu c 0 1) s, deferred) := if_neg h

/-! ### TB_ADJUST -/

/-- A steer bound of all ones bounds nothing (R674). -/
theorem steerClamp_unbounded {s : State} (h : s.getF Reg.gdSteerMaxA = 0xFFFFFFFF) (v : Int) : steerClamp v s = (v, s) := by
  unfold steerClamp
  dsimp only
  rw [h]
  rfl

theorem openSegment_tb (d x : Nat) (t r : Int) (s : State) :
    (openSegment d x t r s).tb = (s.setDom d { s.dom d with segs := (⟨x, t, clampRate r⟩ :: (s.dom d).segs).take 8 }).tb := by
  unfold openSegment
  dsimp only
  rw [State.addWrap_tb, State.set96_tb, State.set96_tb, State.setI64_tb]

/-- A new segment is all that changes of a domain. -/
theorem openSegment_dom (d x : Nat) (t r : Int) (s : State) :
    (openSegment d x t r s).dom d = { s.dom d with segs := (⟨x, t, clampRate r⟩ :: (s.dom d).segs).take 8 } := by
  rw [dom_of_tb (openSegment_tb d x t r s), dom_setDom_same]

theorem setRate_servoRate (d : Nat) (r : Int) (s : State) : ((setRate d r s).dom d).servoRate = (s.dom d).servoRate := by
  unfold setRate
  split
  case isTrue => rw [dom_setDom_same]
  case isFalse =>
    split
    case isTrue => rw [openSegment_dom, dom_setDom_same]
    case isFalse => rw [dom_setDom_same]

theorem dom_setRefs (s : State) (r : Refs) (d : Nat) : ({ s with refs := r } : State).dom d = s.dom d := rfl

/-- The state of a domain's holdover is not part of the time base. -/
theorem tbAdjustEffect_unbounded {c : Cmd} {s : State} (h : s.getF Reg.gdSteerMaxA = 0xFFFFFFFF) :
    (tbAdjustEffect c s).2 = okReply ∧ ((tbAdjustEffect c s).1.dom (cu c 0 1)).servoRate = clampRate (ci c 2 6) := by
  unfold tbAdjustEffect
  rw [steerClamp_unbounded h]
  dsimp only
  refine ⟨rfl, (setRate_servoRate _ _ _).trans ?_⟩
  have hdom := dom_setDom_same s (cu c 0 1) { s.dom (cu c 0 1) with servoRate := clampRate (ci c 2 6) }
  split
  case isTrue => rw [dom_setRefs, hdom]
  case isFalse => rw [dom_setRefs, hdom]

/-! ### TB_REALIGN, TB_SET_SERVED -/

/-- A realignment by 0 clears what asks for it (R153). -/
theorem tbRealignEffect_zero {c : Cmd} {s : State} (h : alignError s.served s = 0) : tbRealignEffect c s =
    (s.setB (Reg.tbDStatusAlignNeeded s.served) false, okWith [(32, leI 8 0), (40, le 8 s.dtt), (48, le 4 (s.stepc s.served))]) := if_pos h

theorem switchAsked_leaves (c : Cmd) (s : State) : (switchAsked c s).isF Reg.tbStateSwitching = true ∧
    (switchAsked c s).served = s.served ∧ FieldsOf [Reg.tbStateSwitching] s (switchAsked c s) :=
  ⟨isF_setB_same s Reg.tbStateSwitching true rfl, getF_setF_ne s (f := Reg.tbStateSwitching) (g := Reg.tbStateServed) 1 (by decide),
    FieldsOf.regs (t := s.setB Reg.tbStateSwitching true) ((FieldsOf.refl _ s).setF (by simp) _) rfl⟩

/-! ### The commands -/

/-- Settles O25, command by command. -/
theorem timeBaseCommandsComplete : Obligations.TimeBaseCommandsComplete := by
  unfold Obligations.TimeBaseCommandsComplete
  refine ⟨fun c s hs => ?read, fun c s hs => ?utc, fun c s hs => ?compact, fun c s hs hnow => ?now, fun c s hs harm => ?arm, fun c s hs => ?slew,
    fun c s hs hfree => ?adjust, fun c s hs hzero => ?step, fun c s hs hzero => ?realign, fun c s hs hother hacq hfault => ?switch⟩
  case read =>
    refine ⟨taken c s, ?_, FrameOf.refl _ _, rfl⟩
    have hrun : exec (.tbRead c) s = _ := runCmd_starts (f := tbReadEffect) hs
    rw [hrun]
    simp only [tbReadEffect, taken_dtt, taken_timeAt]
  case utc =>
    exact ⟨_, runCmd_starts (f := tbSetUtcEffect) hs, tbSetUtcEffect_keeps (frame_keeps _ _) (sub_of rfl) (FrameOf.refl _ _), tbSetUtcEffect_leaves c _⟩
  case compact =>
    obtain ⟨hval, hfields, hbases⟩ := tbSetCompactEffect_leaves c (taken c s)
    refine ⟨_, runCmd_starts (f := tbSetCompactEffect) hs, tbSetCompactEffect_keeps (frame_keeps _ _) (sub_of rfl) (FrameOf.refl _ _), hval, hfields, ?_⟩
    rw [taken_tb, taken_getF c s part_tbStateCompact (by decide)] at hbases
    exact hbases
  case now =>
    obtain ⟨hstate, hreply⟩ := tbSnapshotEffect_now hnow (taken c s)
    refine ⟨_, _, runCmd_starts (f := tbSnapshotEffect) hs, tbSnapshotEffect_keeps (frame_keeps _ _) (sub_of rfl) (FrameOf.refl _ _), ?_, hreply, ?_⟩
    · rw [hstate, State.now80, taken_dtt]
    · rw [hstate]
      exact capture_done _ _ _
  case arm =>
    have heffect := tbSnapshotEffect_arms harm (taken c s)
    refine ⟨_, _, runCmd_starts (f := tbSnapshotEffect) hs, tbSnapshotEffect_keeps (frame_keeps _ _) (sub_of rfl) (FrameOf.refl _ _), ?_⟩
    rw [heffect]
    exact ⟨rfl, rfl, armSnap_fields _ _⟩
  case slew =>
    exact ⟨_, _, runCmd_starts (f := tbSlewEffect) hs, tbSlewEffect_keeps (frame_keeps _ _) (sub_of rfl) (FrameOf.refl _ _), rfl, rfl⟩
  case adjust =>
    exact ⟨_, _, runCmd_starts (f := tbAdjustEffect) hs, tbAdjustEffect_keeps (frame_keeps _ _) (sub_of rfl) (FrameOf.refl _ _),
      tbAdjustEffect_unbounded ((taken_getF c s (b := 1) rfl (by decide)).trans hfree)⟩
  case step =>
    exact ⟨_, _, tbStep_zero hs hzero, FrameOf.refl _ _, rfl, rfl⟩
  case realign =>
    have hzero' : alignError (taken c s).served (taken c s) = 0 := by simpa using hzero
    refine ⟨_, _, runCmd_starts (f := tbRealignEffect) hs, tbRealignEffect_keeps (frame_keeps _ _) (sub_of rfl) (FrameOf.refl _ _), ?_⟩
    rw [tbRealignEffect_zero hzero', taken_served]
    exact ⟨rfl, rfl⟩
  case switch =>
    have heffect := tbSetServedEffect_asks (c := c) (s := taken c s) (by rwa [taken_served]) (by
      rw [taken_qcState]
      exact not_or.2 ⟨hacq, hfault⟩)
    have hrun : exec (.tbSetServed c) s = _ := runHeld_waits (f := tbSetServedEffect) hs (congrArg Prod.snd heffect)
    rw [heffect] at hrun
    obtain ⟨hsw, hserved, hfields⟩ := switchAsked_leaves c (taken c s)
    refine ⟨_, hrun, ?_, hsw, rfl, hserved.trans (taken_served c s), hfields⟩
    have hframe := tbSetServedEffect_keeps (frame_keeps [.rTb, .tb] (taken c s)) (sub_of rfl) (c := c) (FrameOf.refl _ _)
    rw [heffect] at hframe
    exact hframe

end Sys2Proof.Machine

/-! SUPPORT. Steps that commands ask for (R107, R108, R144, R147): the instant x_c they fix, and what each outcome leaves. -/

namespace Sys2Proof.Machine

/-- The instant that a command starting in `s` fixes for a step of domain `d` where no mirrored instant stands. -/
def ownInstant (d : Nat) (s : State) : Nat := (fixXc none (spacedFrom d s) s).1

theorem fixXc_own (d : Nat) (s : State) : fixXc none (spacedFrom d s) s = (ownInstant d s, s.draw.2) := rfl

theorem draw_dom (s : State) (d : Nat) : s.draw.2.dom d = s.dom d := rfl

/-- A command fixes its instant within 50 µs of the first one that is open to it (R107). -/
theorem ownInstant_early {d : Nat} {s : State} (hnow : s.dtt < 2 ^ 40) (hspaced : spacedFrom d s < 2 ^ 40) : ownInstant d s * 2 ^ 16 < 2 ^ 57 := by
  have hopen : s.draw.1 % 38998 < 38998 := Nat.mod_lt _ (by decide)
  have hsum : ownInstant d s = max (s.dtt + 64) (spacedFrom d s) + s.draw.1 % 38998 := rfl
  omega

section

variable {d : Nat} {a : Int} {moves realign : Bool} {s : State}

theorem requestStep_outOfRange (h : stepOutOfRange d (ownInstant d s * 2 ^ 16) a s = true) :
    requestStep none d a moves realign s = (s.draw.2, .error (failWith stRefused 0x0206)) := by
  unfold requestStep
  rw [fixXc_own]
  dsimp only
  rw [if_pos ((stepOutOfRange_of_dom (draw_dom s d) _ a).trans h)]

theorem requestStep_denied (h : stepOutOfRange d (ownInstant d s * 2 ^ 16) a s = false) (hb : stepBeyondGuard a s = true) :
    requestStep none d a moves realign s = (stepDenied a s.draw.2, .error (failWith stLocked 0)) := by
  have hin : ¬ stepOutOfRange d (ownInstant d s * 2 ^ 16) a s.draw.2 = true := by
    rw [stepOutOfRange_of_dom (draw_dom s d), h]
    decide
  unfold requestStep
  rw [fixXc_own]
  dsimp only
  rw [if_neg hin]
  exact if_pos hb

/-- The state in which a step waits for its instant (R144). -/
def stepAsked (d : Nat) (a : Int) (moves realign : Bool) (s : State) : State :=
  s.draw.2.setDom d { s.dom d with steps := (s.dom d).steps ++ [⟨a, ownInstant d s, moves, realign, none⟩] }

theorem requestStep_waits (h : stepOutOfRange d (ownInstant d s * 2 ^ 16) a s = false) (hb : stepBeyondGuard a s = false) :
    requestStep none d a moves realign s = (stepAsked d a moves realign s, .ok (ownInstant d s)) := by
  have hin : ¬ stepOutOfRange d (ownInstant d s * 2 ^ 16) a s.draw.2 = true := by
    rw [stepOutOfRange_of_dom (draw_dom s d), h]
    decide
  have hfree : ¬ stepBeyondGuard a s.draw.2 = true := by
    rw [show stepBeyondGuard a s.draw.2 = stepBeyondGuard a s from rfl, hb]
    decide
  unfold requestStep
  rw [fixXc_own]
  dsimp only
  rw [if_neg hin, if_neg hfree]
  rfl

/-- A step that waits stands last among its domain's steps, at an instant its domain's spacing allows (R128, R144). -/
theorem stepAsked_appends : ∃ x, s.dtt + 64 ≤ x ∧ spacedFrom d s ≤ x ∧
    ((stepAsked d a moves realign s).dom d).steps = (s.dom d).steps ++ [⟨a, x, moves, realign, none⟩] := by
  obtain ⟨hsoon, hspaced⟩ := fixXc_free (spacedFrom d s) s
  refine ⟨ownInstant d s, hsoon, hspaced, ?_⟩
  unfold stepAsked
  rw [dom_setDom_same]

end

/-! ### The two commands -/

section

variable {c : Cmd} {s t : State}

theorem tbStepEffect_fails {r : Reply} (h : ci c 4 8 ≠ 0) (hown : mirrorInstant c s = none)
    (hr : requestStep none (cu c 0 1) (ci c 4 8) (!alignWanted (cu c 0 1) s) false s = (t, .error r)) : tbStepEffect c s = (t, r) := by
  unfold tbStepEffect
  dsimp only
  rw [if_neg h, hown, hr]

theorem tbStepEffect_waits {x : Nat} (h : ci c 4 8 ≠ 0) (hown : mirrorInstant c s = none)
    (hr : requestStep none (cu c 0 1) (ci c 4 8) (!alignWanted (cu c 0 1) s) false s = (t, .ok x)) :
    (tbStepEffect c s).1 = t ∧ (tbStepEffect c s).2.status = stOk := by
  unfold tbStepEffect
  dsimp only
  rw [if_neg h, hown, hr]
  exact ⟨rfl, rfl⟩

theorem tbRealignEffect_waits {x : Nat} (h : alignError s.served s ≠ 0) (hown : mirrorInstant c s = none)
    (hr : requestStep none s.served (alignError s.served s) false true s = (t, .ok x)) :
    (tbRealignEffect c s).1 = t ∧ (tbRealignEffect c s).2.status = stOk := by
  unfold tbRealignEffect
  dsimp only
  rw [if_neg h, hown, hr]
  exact ⟨rfl, rfl⟩

end

section

variable (c : Cmd) (s : State)

@[simp] theorem taken_spacedFrom (d : Nat) : spacedFrom d (taken c s) = spacedFrom d s := spacedFrom_of_dom (taken_dom c s d)
@[simp] theorem taken_stepOutOfRange (d x : Nat) (a : Int) : stepOutOfRange d x a (taken c s) = stepOutOfRange d x a s :=
  stepOutOfRange_of_dom (taken_dom c s d) x a
@[simp] theorem taken_stepBeyondGuard (a : Int) : stepBeyondGuard a (taken c s) = stepBeyondGuard a s := by
  unfold stepBeyondGuard
  rw [taken_getF c s (b := 1) rfl (by decide)]

end

/-- What holds of a step at every instant a command may fix holds of it at the command's own. -/
theorem taken_ownInstant_range {c : Cmd} {s : State} {d : Nat} {a : Int} {b : Bool} (hnow : s.dtt < 2 ^ 40) (hspaced : spacedFrom d s < 2 ^ 40)
    (h : ∀ x, x < 2 ^ 57 → stepOutOfRange d x a s = b) : stepOutOfRange d (ownInstant d (taken c s) * 2 ^ 16) a (taken c s) = b := by
  have hearly := ownInstant_early (d := d) (s := taken c s) (by rwa [taken_dtt]) (by rwa [taken_spacedFrom])
  exact (taken_stepOutOfRange c s d _ a).trans (h _ hearly)

theorem tbStep_fails {c : Cmd} {s t : State} {r : Reply} (hs : Starts tbStepSpec c s) (h : ci c 4 8 ≠ 0) (hown : mirrorInstant c s = none)
    (hr : requestStep none (cu c 0 1) (ci c 4 8) (!alignWanted (cu c 0 1) (taken c s)) false (taken c s) = (t, .error r)) :
    exec (.tbStep c) s = .next (ended tbStepSpec c s t r) := by
  have hrun : exec (.tbStep c) s = _ := runCmd_starts (f := tbStepEffect) hs
  rw [tbStepEffect_fails h (by rwa [taken_mirrorInstant]) hr] at hrun
  exact hrun

/-- Settles O26: the instant a command fixes lies in the range its hypotheses speak of, so the outcome of its request is decided. -/
theorem stepsWaitForTheirInstant : Obligations.StepsWaitForTheirInstant := by
  unfold Obligations.StepsWaitForTheirInstant
  refine ⟨fun c s hs h hown hfree hnow hspaced hin => ?step, fun c s hs h hown hfree hnow hspaced hin => ?realign,
    fun c s hs h hown hbeyond hnow hspaced hin => ?denied, fun c s hs h hown hnow hspaced hout => ?refused, fun a s => ?guard⟩
  case step =>
    obtain ⟨hstate, hreply⟩ := tbStepEffect_waits (s := taken c s) h (by rwa [taken_mirrorInstant])
      (requestStep_waits (taken_ownInstant_range hnow hspaced hin) (by rwa [taken_stepBeyondGuard]))
    refine ⟨_, _, runCmd_starts (f := tbStepEffect) hs, tbStepEffect_keeps (frame_keeps _ _) (sub_of rfl) (FrameOf.refl _ _), hreply, ?_⟩
    rw [hstate]
    simpa using stepAsked_appends (s := taken c s) (d := cu c 0 1) (a := ci c 4 8) (moves := !alignWanted (cu c 0 1) (taken c s)) (realign := false)
  case realign =>
    have hserved := taken_served c s
    obtain ⟨hstate, hreply⟩ := tbRealignEffect_waits (c := c) (s := taken c s) (by rwa [taken_alignError, hserved]) (by rwa [taken_mirrorInstant])
      (requestStep_waits (by
        rw [taken_alignError, hserved]
        exact taken_ownInstant_range hnow hspaced hin) (by rwa [taken_stepBeyondGuard, taken_alignError, hserved]))
    refine ⟨_, _, runCmd_starts (f := tbRealignEffect) hs, tbRealignEffect_keeps (frame_keeps _ _) (sub_of rfl) (FrameOf.refl _ _), hreply, ?_⟩
    rw [hstate]
    simpa using stepAsked_appends (s := taken c s) (d := s.served) (a := alignError s.served s) (moves := false) (realign := true)
  case denied =>
    exact tbStep_fails hs h hown (requestStep_denied (taken_ownInstant_range hnow hspaced hin) (by rwa [taken_stepBeyondGuard]))
  case refused =>
    exact tbStep_fails hs h hown (requestStep_outOfRange (taken_ownInstant_range hnow hspaced hout))
  case guard =>
    unfold stepBeyondGuard
    simp

end Sys2Proof.Machine

/-! SUPPORT. The time base's own rows (R126, R133, R134, R141, R142, R144, R145, R149, R155): what each leaves once it is due. -/

namespace Sys2Proof.Machine

/-! ### A step applies (R144, R145) -/

theorem setStepc_tb (d x n : Nat) (s : State) :
    (setStepc d x n s).tb = (s.setDom d { s.dom d with stepLog := ((x, s.stepc d, n % 2 ^ 32) :: (s.dom d).stepLog).take 8 }).tb := rfl

theorem setStepc_dom (d x n : Nat) (s : State) :
    (setStepc d x n s).dom d = { s.dom d with stepLog := ((x, s.stepc d, n % 2 ^ 32) :: (s.dom d).stepLog).take 8 } := by
  rw [dom_of_tb (setStepc_tb d x n s), dom_setDom_same]

theorem setStepc_stepc (d x n : Nat) (s : State) : (setStepc d x n s).stepc d = n % 2 ^ 32 := getF_setF_same _ _ _

/-- Domain `d` stands in `t` as it stood in `s`, its step counter with it. -/
def DomKept (d : Nat) (s t : State) : Prop := t.dom d = s.dom d ∧ t.stepc d = s.stepc d

theorem DomKept.refl (d : Nat) (s : State) : DomKept d s s := ⟨rfl, rfl⟩

theorem DomKept.trans {d : Nat} {s t u : State} (h : DomKept d s t) (h' : DomKept d t u) : DomKept d s u :=
  ⟨h'.1.trans h.1, h'.2.trans h.2⟩

theorem DomKept.of_tb {d : Nat} {s t : State} (h : t.tb = s.tb) (hc : StepcKept s t) : DomKept d s t := ⟨dom_of_tb h d, hc d⟩

theorem DomKept.setF {d : Nat} {s t : State} (h : DomKept d s t) {f : Fld} (hf : f.addr % 256 ≠ 4) (v : Nat) : DomKept d s (t.setF f v) :=
  h.trans (.of_tb rfl ((StepcKept.refl t).setF hf v))

theorem DomKept.setI64 {d : Nat} {s t : State} (h : DomKept d s t) {a : Nat} (ha : a % 256 ≠ 4 ∧ (a + 4) % 256 ≠ 4) (v : Int) :
    DomKept d s (t.setI64 a v) := h.trans (.of_tb rfl ((StepcKept.refl t).setI64 ha v))

theorem raiseAt_domKept (d stamp src sev code : Nat) (payload : Bytes) (s : State) : DomKept d s (raiseAt stamp src sev code payload s) :=
  .of_tb (raiseAt_keeps (same_keeps .tb s) (sub_of rfl) rfl) (raiseAt_keeps (stepcKept_keeps s) (sub_of rfl) (StepcKept.refl s))

theorem evdSend_domKept (d rtype rflags src stamp : Nat) (fs : List (Nat × Bytes)) (s : State) : DomKept d s (evdSend rtype rflags src stamp fs s) :=
  .of_tb (evdSend_keeps (same_keeps .tb s) (sub_of rfl) rfl) (evdSend_keeps (stepcKept_keeps s) (sub_of rfl) (StepcKept.refl s))

theorem basesDue_domKept (d : Nat) (s : State) : DomKept d s (basesDue s) := ⟨rfl, rfl⟩

theorem noteStep_domKept (d : Nat) (s : State) : DomKept d s (noteStep s) := ⟨rfl, rfl⟩

/-- Domain `x` after its step `p` at time `t`: a segment at the step's instant, and the setpoint moved where it was so decided. -/
def steppedDom (p : PendingStep) (t : Int) (log : List (Nat × Nat × Nat)) (x : Domain) : Domain :=
  { x with segs := (⟨p.xc * 2 ^ 16, t, clampRate (x.segs.headD ⟨0, 0, 0⟩).rate⟩ :: x.segs).take 8, stepLog := log,
           setpoint := x.setpoint + (if p.moves then p.amount else 0) }

theorem stepNow_leaves (d : Nat) (p : PendingStep) (s : State) :
    (∃ log, (stepNow d p s).dom d = steppedDom p (s.timeAt d (p.xc * 2 ^ 16) + p.amount) log (s.dom d)) ∧
    (stepNow d p s).stepc d = (s.stepc d + 1) % 2 ^ 32 := by
  unfold stepNow
  extract_lets x u v _ w y z
  have hu : u.dom d = _ := openSegment_dom d x _ _ s
  have huc : u.stepc d = s.stepc d := openSegment_stepcKept (StepcKept.refl s) d x _ _ d
  have hv : v.dom d = _ := setStepc_dom d x (u.stepc d + 1) u
  have hvc : v.stepc d = (u.stepc d + 1) % 2 ^ 32 := setStepc_stepc d x _ u
  have hw : w.dom d = { v.dom d with setpoint := (v.dom d).setpoint + (if p.moves then p.amount else 0) } := by
    unfold w
    split
    case isTrue => exact dom_setDom_same v d _
    case isFalse => rw [Int.add_zero]
  have hwc : w.stepc d = v.stepc d := ite_k ((StepcKept.refl v).setDom d _) (StepcKept.refl v) d
  have hrest : DomKept d w (noteStep (basesDue z)) :=
    (((raiseAt_domKept d p.xc (96 + d) 1 0x0201 _ w).trans (evdSend_domKept d _ _ _ _ _ y)).trans (basesDue_domKept d z)).trans (noteStep_domKept d _)
  obtain ⟨hdom, hstepc⟩ := hrest
  refine ⟨⟨(v.dom d).stepLog, hdom.trans (hw.trans ?_)⟩, by rw [hstepc, hwc, hvc, huc]⟩
  rw [hv, hu]
  rfl

theorem StepcKept.tbOnly {s t : State} (h : StepcKept s t) (b : TimeBase) : StepcKept s { t with tb := b } := h

theorem dom_setRephase (s t : State) (o : Option Int) (x : Int) (d : Nat) :
    ({ s with tb := { t.tb with rephaseTo := o, rephaseAt := x } } : State).dom d = t.dom d := rfl

theorem rephase_domKept (d x : Nat) (a : Int) (s : State) : DomKept d s (rephase x a s) := by
  unfold rephase
  extract_lets off o t r
  split
  case isTrue =>
    have hr : r.2.tb = s.tb := rephaseOuts_keeps (same_keeps .tb s) (sub_of rfl) rfl
    have hrc : StepcKept s r.2 := rephaseOuts_keeps (stepcKept_keeps s) (sub_of rfl) (StepcKept.refl s)
    exact ⟨(dom_setRephase _ r.2 _ _ d).trans (dom_of_tb hr d), ((hrc.setI64 (a := Reg.tbOutOffset) (by decide) (off - a)).tbOnly _) d⟩
  case isFalse => exact DomKept.refl d s

/-- The step counter that a step leaves: a twin's commit brings its own (R144, R578). -/
def countedStep (d : Nat) (p : PendingStep) (s : State) : State :=
  match p.counter with
  | some n => setStepc d (p.xc * 2 ^ 16) n (stepNow d p s)
  | none => stepNow d p s

theorem countedStep_leaves (d : Nat) (p : PendingStep) (s : State) :
    (∃ log, (countedStep d p s).dom d = steppedDom p (s.timeAt d (p.xc * 2 ^ 16) + p.amount) log (s.dom d)) ∧
    (countedStep d p s).stepc d = (match p.counter with | some k => k % 2 ^ 32 | none => (s.stepc d + 1) % 2 ^ 32) := by
  obtain ⟨⟨log, hdom⟩, hstepc⟩ := stepNow_leaves d p s
  unfold countedStep
  split
  case h_1 n hn =>
    have hcounted := setStepc_dom d (p.xc * 2 ^ 16) n (stepNow d p s)
    rw [hdom] at hcounted
    exact ⟨⟨_, hcounted⟩, setStepc_stepc d _ n _⟩
  case h_2 => exact ⟨⟨log, hdom⟩, hstepc⟩

/-- What a step leaves of the outputs and of the alignment of its domain (R145, R153). -/
def stepFollowed (d : Nat) (p : PendingStep) (s : State) : State :=
  let t := if d = s.served then rephase (p.xc * 2 ^ 16) p.amount s else s
  if p.realign then (t.setB (Reg.tbDStatusAlignNeeded d) false).setI64 (Reg.tbDAlignErr d) 0
  else if t.isF (Reg.tbDStatusAlignNeeded d) then t.setI64 (Reg.tbDAlignErr d) (t.getI64 (Reg.tbDAlignErr d) - p.amount)
  else t

theorem stepFollowed_domKept (d : Nat) (p : PendingStep) (s : State) : DomKept d s (stepFollowed d p s) := by
  unfold stepFollowed
  extract_lets t
  have ht : DomKept d s t := ite_k (rephase_domKept d _ _ s) (DomKept.refl d s)
  have herr : (Reg.tbDAlignErr d) % 256 ≠ 4 ∧ (Reg.tbDAlignErr d + 4) % 256 ≠ 4 := by
    unfold Reg.tbDAlignErr
    omega
  have hneeded : (Reg.tbDStatusAlignNeeded d).addr % 256 ≠ 4 := by
    simp only [Reg.tbDStatusAlignNeeded]
    omega
  exact ite_k ((ht.setF hneeded _).setI64 herr _) (ite_k (ht.setI64 herr _) ht)

/-- The state in which the first waiting step of domain `d` has left its queue. -/
def stepTaken (d : Nat) (rest : List PendingStep) (s : State) : State := s.setDom d { s.dom d with steps := rest }

theorem applyStep_due {d : Nat} {p : PendingStep} {rest : List PendingStep} {s : State} (h : (s.dom d).steps = p :: rest) (hdue : p.xc ≤ s.dtt) :
    applyStep d s = stepFollowed d p (countedStep d p (stepTaken d rest s)) := by
  unfold applyStep
  split
  case h_1 hnil => rw [hnil] at h; cases h
  case h_2 q r hq =>
    rw [hq] at h
    cases h
    rw [if_neg (Nat.not_lt.2 hdue)]
    rfl

theorem applyStep_waits {d : Nat} {s : State} (h : (s.dom d).steps = [] ∨ ∃ p rest, (s.dom d).steps = p :: rest ∧ s.dtt < p.xc) :
    applyStep d s = s := by
  unfold applyStep
  obtain hnil | ⟨p, rest, hp, hearly⟩ := h
  · rw [hnil]
  · rw [hp]
    exact if_pos hearly

theorem stepApply_due {d : Nat} {p : PendingStep} {rest : List PendingStep} {s : State} (hd : d ≤ 1) (h : (s.dom d).steps = p :: rest)
    (hdue : p.xc ≤ s.dtt) : ∃ t, exec (.stepApply d) s = .next t ∧
      (t.dom d).steps = rest ∧ t.stepc d = (match p.counter with | some k => k % 2 ^ 32 | none => (s.stepc d + 1) % 2 ^ 32) ∧
      (t.seg d).x = p.xc * 2 ^ 16 ∧ (t.seg d).t = s.timeAt d (p.xc * 2 ^ 16) + p.amount ∧
      (t.dom d).setpoint = (s.dom d).setpoint + (if p.moves then p.amount else 0) := by
  have htaken : (stepTaken d rest s).dom d = { s.dom d with steps := rest } := dom_setDom_same s d _
  have hsegs : ((stepTaken d rest s).dom d).segs = (s.dom d).segs := by rw [htaken]
  have htime := timeAt_of_segs hsegs (p.xc * 2 ^ 16)
  have hcount : (stepTaken d rest s).stepc d = s.stepc d := (StepcKept.refl s).setDom d _ d
  obtain ⟨⟨log, hdom⟩, hstepc⟩ := countedStep_leaves d p (stepTaken d rest s)
  obtain ⟨hkept, hkeptc⟩ := stepFollowed_domKept d p (countedStep d p (stepTaken d rest s))
  rw [hdom, htaken, htime] at hkept
  rw [hstepc, hcount] at hkeptc
  refine ⟨applyStep d s, congrArg Host.Outcome.next (if_pos hd), ?_⟩
  rw [applyStep_due h hdue]
  unfold State.seg
  rw [hkept]
  exact ⟨rfl, hkeptc, rfl, rfl, rfl⟩

/-! ### A leap (R133, R134) -/

/-- The registers of domain `d` after its leap. -/
def leapTaken (d : Nat) (s : State) : State :=
  ((s.setI (Reg.tbDUtcOffset d) (s.getI (Reg.tbDUtcOffset d) + s.getI (Reg.tbDStatusLeap d))).setF (Reg.tbDStatusLeap d) 0).set64 (Reg.tbDLeapAt d) 0

theorem leapTaken_leaves (d : Nat) (s : State) :
    (leapTaken d s).getF (Reg.tbDUtcOffset d) = twos 16 (s.getI (Reg.tbDUtcOffset d) + s.getI (Reg.tbDStatusLeap d)) ∧
    (leapTaken d s).getF (Reg.tbDStatusLeap d) = 0 ∧ (leapTaken d s).get64 (Reg.tbDLeapAt d) = 0 ∧ DomKept d s (leapTaken d s) := by
  obtain ⟨hleap, hat⟩ := tbDUtcOffset_apart d
  unfold leapTaken
  refine ⟨?_, ?_, get64_set64 _ _ _, .of_tb rfl ?_⟩
  · rw [getF_set64_ne _ _ hat, getF_setF_ne _ _ hleap]
    refine (getF_setF_same s (Reg.tbDUtcOffset d) _).trans (Nat.mod_eq_of_lt ?_)
    simp only [Reg.tbDUtcOffset, twos]
    omega
  · rw [getF_set64_ne _ _ (tbDStatusLeap_apart d), getF_setF_same]
    rfl
  · have hutc : (Reg.tbDUtcOffset d).addr % 256 ≠ 4 := by simp only [Reg.tbDUtcOffset]; omega
    have hstatus : (Reg.tbDStatusLeap d).addr % 256 ≠ 4 := by simp only [Reg.tbDStatusLeap]; omega
    have hleapAt : (Reg.tbDLeapAt d) % 256 ≠ 4 ∧ (Reg.tbDLeapAt d + 4) % 256 ≠ 4 := by unfold Reg.tbDLeapAt; omega
    exact ((((StepcKept.refl s).setF hutc _).setF hstatus 0).setF (f := word _) hleapAt.1 _).setF (f := word _) hleapAt.2 _

/-- The state in which the leap of domain `d` has raised its event. -/
def leapRaised (d : Nat) (s : State) : State :=
  raiseEv (96 + d) 0 0x0205 [(20, leI 2 (s.getI (Reg.tbDUtcOffset d) + s.getI (Reg.tbDStatusLeap d)))] (leapTaken d s)

/-- The state that a leap of domain `d` leaves, with its record. -/
def leapNoted (d : Nat) (s : State) : State :=
  evdSend 0x14 d (96 + d) (leapRaised d s).dtt [(16, leI 2 (s.getI (Reg.tbDUtcOffset d) + s.getI (Reg.tbDStatusLeap d)))] (leapRaised d s)

theorem leapNoted_getF {d : Nat} {s : State} {f : Fld} (hf : regPart f.addr = 3) : (leapNoted d s).getF f = (leapTaken d s).getF f :=
  (evdSend_keeps (same_keeps .rTb (leapRaised d s)) (sub_of rfl) (Part.same_refl .rTb _) f hf).trans (raiseEv_getF (by decide) _ _ _ _ f)

theorem leapNoted_domKept (d : Nat) (s : State) : DomKept d (leapTaken d s) (leapNoted d s) :=
  (raiseAt_domKept d _ _ _ _ _ (leapTaken d s)).trans (evdSend_domKept d _ _ _ _ _ (leapRaised d s))

theorem tbLeap_due {d : Nat} {s : State} (hd : d ≤ 1) (hl : s.getI (Reg.tbDStatusLeap d) ≠ 0)
    (hdue : (s.get64 (Reg.tbDLeapAt d) : Int) * 10 ^ 9 * 2 ^ 16 ≤ s.timeNow d) : ∃ t, exec (.tbLeap d) s = .next t ∧
      t.getF (Reg.tbDUtcOffset d) = twos 16 (s.getI (Reg.tbDUtcOffset d) + s.getI (Reg.tbDStatusLeap d)) ∧ t.getF (Reg.tbDStatusLeap d) = 0 ∧
      t.get64 (Reg.tbDLeapAt d) = 0 ∧ t.dom d = s.dom d ∧ t.stepc d = s.stepc d := by
  have hrun : exec (.tbLeap d) s = .next (leapNoted d s) := if_pos ⟨hd, hl, hdue⟩
  obtain ⟨hutc, hleap, hat, hkept⟩ := leapTaken_leaves d s
  obtain ⟨hdoms, hstepc⟩ := hkept.trans (leapNoted_domKept d s)
  refine ⟨_, hrun, (leapNoted_getF part_tbDUtcOffset).trans hutc, (leapNoted_getF part_tbDStatusLeap).trans hleap, ?_, hdoms, hstepc⟩
  rw [← hat]
  unfold State.get64
  rw [leapNoted_getF part_tbDLeapAt_2.1, leapNoted_getF part_tbDLeapAt_2.2]

/-! ### A PTM dialog (R142) -/

theorem get96_set96 (s : State) (a v : Nat) : (s.set96 a v).get96 a = v % 2 ^ 96 := by
  have hhi : (s.set96 a v).getF (word (a + 8)) = v / 2 ^ 64 % 2 ^ 32 := getF_setF_same _ _ _
  have hlo : (s.set96 a v).get64 a = v % 2 ^ 64 := by
    have hkeys : (word a).key ≠ (word (a + 8)).key ∧ (word (a + 4)).key ≠ (word (a + 8)).key := by
      simp only [Fld.key, word]
      omega
    rw [← get64_set64 s a v]
    unfold State.get64 State.set96
    rw [getF_setF_ne _ _ hkeys.1, getF_setF_ne _ _ hkeys.2]
  unfold State.get96
  rw [hlo, hhi]
  omega

theorem getF_set96_ne (s : State) {f : Fld} {a : Nat} (v : Nat) (h : ∀ g ∈ triple a, f.key ≠ g.key) : (s.set96 a v).getF f = s.getF f :=
  (getF_setF_ne _ _ (h _ (by simp [triple]))).trans ((getF_setF_ne _ _ (h _ (by simp [triple]))).trans (getF_setF_ne _ _ (h _ (by simp [triple]))))

theorem FieldsOf.set96 {fs : List Fld} {s t : State} (h : FieldsOf fs s t) {a : Nat} (hf : ∀ f ∈ triple a, f.key ∈ fs.map Fld.key) (v : Nat) :
    FieldsOf fs s (t.set96 a v) := ((h.setF (hf _ (by simp [triple])) _).setF (hf _ (by simp [triple])) _).setF (hf _ (by simp [triple])) _

/-- The register fields that a PTM dialog writes. -/
def ptmFields : List Fld := pair Reg.tbPtmHost ++ triple Reg.tbPtmT0.addr ++ [Reg.tbPtmCtrlValid, Reg.tbPtmCtrlSeq]

/-- The state in which a dialog's Response has arrived with master time `master`. -/
def ptmHosted (master request : Nat) (s : State) : State :=
  ({ s with bus := { s.bus with ptm := (request, s.dtt) } } : State).set64 Reg.tbPtmHost master

/-- The PTM registers after a dialog whose Request left at `request` (R42, R142). -/
def ptmPaired (master turn request : Nat) (s : State) : State :=
  (((ptmHosted master request s).set96 Reg.tbPtmT0.addr (ft96 ((ptmHosted master request s).servedTime (ptmInstant request s.dtt turn)))).setB
    Reg.tbPtmCtrlValid true).addWrap Reg.tbPtmCtrlSeq 1

theorem servedTime_of_tb {s t : State} (h : t.tb = s.tb) (hserved : t.served = s.served) (x : Nat) : t.servedTime x = s.servedTime x := by
  have hat : t.servedAt x = s.servedAt x := by
    unfold State.servedAt
    rw [h, hserved]
  unfold State.servedTime
  rw [hat, timeAt_of_dom (dom_of_tb h _)]

theorem ptmHosted_servedTime (master request x : Nat) (s : State) : (ptmHosted master request s).servedTime x = s.servedTime x :=
  servedTime_of_tb (s := s) (t := ptmHosted master request s) rfl
    (getF_set64_ne (f := Reg.tbStateServed) (a := Reg.tbPtmHost) { s with bus := { s.bus with ptm := (request, s.dtt) } } master (by decide)) x

/-- A write of a register field changes the registers alone. -/
theorem setF_onlyRegs {s t : State} (h : ∃ r, t = { s with regs := r }) (f : Fld) (v : Nat) : ∃ r, t.setF f v = { s with regs := r } := by
  obtain ⟨r, rfl⟩ := h
  exact ⟨_, rfl⟩

theorem ptmPaired_shape (master turn request : Nat) (s : State) : ptmPaired master turn request s =
    { s with regs := (ptmPaired master turn request s).regs, bus := { s.bus with ptm := (request, s.dtt) } } := by
  have hshape : ∃ r, ptmPaired master turn request s = { ({ s with bus := { s.bus with ptm := (request, s.dtt) } } : State) with regs := r } := by
    iterate 7 refine setF_onlyRegs ?_ _ _
    exact ⟨s.regs, rfl⟩
  obtain ⟨r, hr⟩ := hshape
  rw [hr]

theorem ptmPaired_leaves (master turn request : Nat) (s : State) :
    (ptmPaired master turn request s).get64 Reg.tbPtmHost = master % 2 ^ 64 ∧
    (ptmPaired master turn request s).get96 Reg.tbPtmT0.addr = ft96 (s.servedTime (ptmInstant request s.dtt turn)) % 2 ^ 96 ∧
    (ptmPaired master turn request s).getF Reg.tbPtmCtrlValid = 1 ∧
    (ptmPaired master turn request s).getF Reg.tbPtmCtrlSeq = (s.getF Reg.tbPtmCtrlSeq + 1) % 2 ^ 8 ∧
    FieldsOf ptmFields s (ptmPaired master turn request s) := by
  let u := ptmHosted master request s
  let v := u.set96 Reg.tbPtmT0.addr (ft96 (s.servedTime (ptmInstant request s.dtt turn)))
  have ht : ptmPaired master turn request s = (v.setB Reg.tbPtmCtrlValid true).addWrap Reg.tbPtmCtrlSeq 1 := by
    unfold ptmPaired
    rw [ptmHosted_servedTime]
  have hwords : ∀ f : Fld, f.key ≠ Reg.tbPtmCtrlValid.key → f.key ≠ Reg.tbPtmCtrlSeq.key →
      ((v.setB Reg.tbPtmCtrlValid true).addWrap Reg.tbPtmCtrlSeq 1).getF f = v.getF f := fun f hvalid hseq =>
    (getF_setF_ne _ _ hseq).trans (getF_setF_ne _ _ hvalid)
  have hhost : v.get64 Reg.tbPtmHost = u.get64 Reg.tbPtmHost := by
    unfold State.get64
    rw [getF_set96_ne u (a := Reg.tbPtmT0.addr) _ (by decide), getF_set96_ne u (a := Reg.tbPtmT0.addr) _ (by decide)]
  rw [ht]
  refine ⟨?_, ?_, ?_, ?_, ?_⟩
  · refine Eq.trans ?_ (hhost.trans (get64_set64 _ _ _))
    unfold State.get64
    rw [hwords _ (by decide) (by decide), hwords _ (by decide) (by decide)]
  · refine Eq.trans ?_ (get96_set96 u Reg.tbPtmT0.addr _)
    unfold State.get96 State.get64
    rw [hwords _ (by decide) (by decide), hwords _ (by decide) (by decide), hwords _ (by decide) (by decide)]
  · exact (getF_setF_ne _ _ (by decide)).trans (getF_setF_same v Reg.tbPtmCtrlValid 1)
  · refine (getF_setF_same _ Reg.tbPtmCtrlSeq _).trans ?_
    have hseq : (v.setB Reg.tbPtmCtrlValid true).getF Reg.tbPtmCtrlSeq = s.getF Reg.tbPtmCtrlSeq :=
      (getF_setF_ne v _ (by decide)).trans ((getF_set96_ne u (a := Reg.tbPtmT0.addr) _ (by decide)).trans (getF_set64_ne _ (a := Reg.tbPtmHost) _ (by decide)))
    rw [hseq]
    rfl
  · have hu : FieldsOf ptmFields s u := FieldsOf.set64 (FieldsOf.refl ptmFields s) (by decide) _
    have hv : FieldsOf ptmFields s v := hu.set96 (by decide) _
    exact (hv.setF (by decide) _).setF (by decide) _

theorem ptmDialog_pairs {master turn request : Nat} {s : State} (hp : s.getF Reg.tbPtmCtrlPeriod ≠ 0) (hr : request ≤ s.dtt) :
    exec (.ptmDialog master turn request) s = .next (armedCapture 4 (ptmInstant request s.dtt turn) (ptmPaired master turn request s)) := by
  show execPtmDialog master turn request s = _
  unfold execPtmDialog
  rw [if_neg (not_or.2 ⟨hp, Nat.not_lt.2 hr⟩)]
  rfl

/-! ### The rows -/

theorem segmentRenewal_due {d : Nat} {s : State} (hd : d ≤ 1) (hold : (s.seg d).x + 2 ^ 38 * 2 ^ 16 ≤ s.now80) (hspaced : spacedNow d s = true) :
    exec (.segmentRenewal d) s = .next (openSegment d s.now80 (s.timeNow d) (s.seg d).rate s) := if_pos ⟨hd, hold, hspaced⟩

theorem outRephaseDone_due {o : Int} {s : State} (ho : s.tb.rephaseTo = some o) (hdue : s.tb.rephaseAt ≤ s.servedTime s.now80 + o) :
    exec .outRephaseDone s = .next { (s.setI64 Reg.tbOutOffset o) with tb := { s.tb with rephaseTo := none } } := by
  show execOutRephaseDone s = _
  unfold execOutRephaseDone
  rw [ho]
  exact if_neg (Int.not_lt.2 hdue)

theorem outRephaseDone_waits {s : State} (h : s.tb.rephaseTo = none ∨ ∃ o, s.tb.rephaseTo = some o ∧ s.servedTime s.now80 + o < s.tb.rephaseAt) :
    exec .outRephaseDone s = .next s := by
  show execOutRephaseDone s = _
  unfold execOutRephaseDone
  obtain hnone | ⟨o, ho, hearly⟩ := h
  · rw [hnone]
  · rw [ho]
    exact if_pos hearly

theorem tbOutAligned_due {s : State} (hon : s.tb.outSlewing = true)
    (hzero : (match s.tb.rephaseTo with | some o => o | none => s.getI64 Reg.tbOutOffset) = 0) :
    exec .tbOutAligned s = .next (raiseEv (96 + s.served) 0 0x0207 [] { s with tb := { s.tb with outSlewing := false } }) := by
  show execTbOutAligned s = _
  unfold execTbOutAligned
  refine if_pos ?_
  rw [hon]
  exact decide_eq_true hzero

theorem tbOutAligned_waits {s : State} (h : s.tb.outSlewing = false ∨
    (match s.tb.rephaseTo with | some o => o | none => s.getI64 Reg.tbOutOffset) ≠ 0) : exec .tbOutAligned s = .next s := by
  show execTbOutAligned s = _
  unfold execTbOutAligned
  refine if_neg ?_
  rw [Bool.and_eq_true]
  rintro ⟨hon, hzero⟩
  obtain h | h := h
  · rw [h] at hon
    cases hon
  · exact h (of_decide_eq_true hzero)

theorem tbSlewDone_due {d : Nat} {s : State} (hd : d ≤ 1) (hon : (s.dom d).slewOn = true) (hzero : s.slewRem d = 0) :
    exec (.tbSlewDone d) s = .next (raiseEv (96 + d) 0 0x0202 [(20, leI 8 (s.dom d).slewTotal)]
      (if d = s.served then s.setDom d { s.dom d with slewTotal := 0, slewOn := false }
        else setRate d (s.dom d).servoRate (s.setDom d { s.dom d with slewTotal := 0, slewOn := false }))) := by
  show execTbSlewDone d s = _
  unfold execTbSlewDone
  rw [if_pos ⟨hd, hon, hzero⟩]
  dsimp only
  rw [dom_setDom_same]
  have hserved : (s.setDom d { s.dom d with slewTotal := 0, slewOn := false }).served = s.served := getF_of_regs (State.setDom_regs s d _) _
  rw [hserved]

/-- Settles O27: each row once it is due, within its frame; before its time each leaves the state as it is. -/
theorem timeBaseEventsHappen : Obligations.TimeBaseEventsHappen := by
  unfold Obligations.TimeBaseEventsHappen
  refine ⟨fun d p rest s hd h hdue => framed (execStepApply_keeps (frame_keeps _ s) (sub_of rfl) (FrameOf.refl _ s)) (stepApply_due hd h hdue),
    fun d s hd hold hspaced => framed (execSegmentRenewal_keeps (frame_keeps _ s) (sub_of rfl) (FrameOf.refl _ s)) ⟨_, segmentRenewal_due hd hold hspaced, rfl⟩,
    fun o s ho hdue => framed (execOutRephaseDone_keeps (frame_keeps _ s) (sub_of rfl) (FrameOf.refl _ s)) ⟨_, outRephaseDone_due ho hdue, rfl⟩,
    fun s hon hzero => framed (execTbOutAligned_keeps (frame_keeps _ s) (sub_of rfl) (FrameOf.refl _ s)) ⟨_, tbOutAligned_due hon hzero, rfl⟩,
    fun d s hd hon hzero => framed (execTbSlewDone_keeps (frame_keeps _ s) (sub_of rfl) (FrameOf.refl _ s)) ⟨_, tbSlewDone_due hd hon hzero, rfl⟩,
    fun d s hd hl hdue => framed (execTbLeap_keeps (frame_keeps _ s) (sub_of rfl) (FrameOf.refl _ s)) (tbLeap_due hd hl hdue),
    fun src x s harm hsrc => framed (execSnapArmedCapture_keeps (frame_keeps _ s) (sub_of rfl) (FrameOf.refl _ s)) ⟨_, rfl, if_pos ?armed⟩,
    fun master turn request s hp hr => ?ptm,
    fun d s h => ?step,
    fun d s h => if_neg ?renewal,
    fun s h => outRephaseDone_waits h,
    fun s h => tbOutAligned_waits h,
    fun d s h => if_neg ?slewing,
    fun d s h => if_neg ?noLeap,
    fun src x s h => congrArg Host.Outcome.next (if_neg ?unarmed),
    fun master turn request s h => if_pos h⟩
  case armed => simp [harm, hsrc]
  case ptm =>
    obtain ⟨hhost, htime, hvalid, hseq, hfields⟩ := ptmPaired_leaves master turn request s
    have hrun := ptmDialog_pairs (turn := turn) (master := master) hp hr
    exact ⟨_, hrun, execPtmDialog_keeps (frame_keeps _ s) (sub_of rfl) (FrameOf.refl _ s) _ hrun, hhost, htime, hvalid, hseq, hfields,
      ptmPaired_shape master turn request s⟩
  case step =>
    refine congrArg Host.Outcome.next ?_
    by_cases hd : d ≤ 1
    · rw [if_pos hd]
      exact applyStep_waits (h.resolve_left (Nat.not_lt.2 hd))
    · exact if_neg hd
  case renewal =>
    rintro ⟨hd, hold, hspaced⟩
    obtain h | h | h := h
    · omega
    · omega
    · rw [hspaced] at h
      cases h
  case slewing =>
    rintro ⟨hd, hon, hzero⟩
    obtain h | h | h := h
    · omega
    · rw [hon] at h
      cases h
    · exact h hzero
  case noLeap =>
    rintro ⟨hd, hl, hdue⟩
    obtain h | h | h := h
    · omega
    · exact hl h
    · omega
  case unarmed =>
    rw [Bool.and_eq_true]
    rintro ⟨harm, hsrc⟩
    obtain h | h := h
    · rw [h] at harm
      cases harm
    · exact h (of_decide_eq_true hsrc)

end Sys2Proof.Machine

/-! SUPPORT. The outputs as they take their conditions (R336): of the DPLL's registers they write their own STATE alone. -/

namespace Sys2Proof.Machine

/-- STATE of the CLKOUTs and of the PPSOUTs. -/
def outStates : List Fld := (List.range 8).map Reg.plOutStatusState ++ (List.range 5).map Reg.plPpsStatusState

theorem outState_mem {n : Nat} (h : n < 8) : (Reg.plOutStatusState n).key ∈ outStates.map Fld.key :=
  List.mem_map_of_mem (List.mem_append_left _ (List.mem_map_of_mem (List.mem_range.2 h)))

theorem ppsState_mem (m : Nat) : (Reg.plPpsStatusState m).key ∈ outStates.map Fld.key := by
  have hmin : Reg.plPpsStatusState m = Reg.plPpsStatusState (min m 4) := by simp [Reg.plPpsStatusState]
  rw [hmin]
  exact List.mem_map_of_mem (List.mem_append_right _ (List.mem_map_of_mem (List.mem_range.2 (by omega))))

section

variable {s t : State}

theorem outSet_fields (h : BlockFields 5 outStates s t) (n v : Nat) : BlockFields 5 outStates s (outSet n v t) := by
  have K := blockFields_keeps (b := 5) (by decide) outStates s
  unfold outSet
  extract_lets old u w
  have hu : BlockFields 5 outStates s u := placeEdge_keeps K (sub_of rfl) h
  have hw : BlockFields 5 outStates s w := by
    unfold w
    split
    case isTrue hn => exact hu.setF (outState_mem hn) v
    case isFalse => exact hu.setF (ppsState_mem _) v
  exact ite_k h (raiseEv_keeps K (sub_of rfl) hw)

theorem outRefresh_fields (h : BlockFields 5 outStates s t) (n : Nat) : BlockFields 5 outStates s (outRefresh n t) :=
  outSet_fields (outSquelch_keeps (blockFields_keeps (by decide) outStates s) (sub_of rfl) h) _ _

theorem outsRefresh_fields (h : BlockFields 5 outStates s t) : BlockFields 5 outStates s (outsRefresh t) :=
  foldl_k (P := BlockFields 5 outStates s) h (fun _ n hn => outRefresh_fields hn n)

theorem outsRestart_fields (h : BlockFields 5 outStates s t) : BlockFields 5 outStates s (outsRestart t) := by
  unfold outsRestart
  refine ite_k (outsRefresh_fields (foldl_k h (fun u n hu => ite_k ?_ hu))) (outsRefresh_fields h)
  exact State.setOut_keeps (blockFields_keeps (by decide) outStates s) (sub_of rfl) hu

end

/-! ### The OSYNs (R326, R338) -/

/-- The lock and the retune of an OSYN are no output's STATE, nor is the state of the inner loop. -/
theorem osyn_apart {k : Nat} (h : k < 4) : (Reg.plOsynStatusLock k).key ∉ outStates.map Fld.key ∧ (Reg.plOsynStatusRetune k).key ∉ outStates.map Fld.key ∧
    (Reg.plOsynStatusLock k).key ≠ (Reg.plOsynStatusRetune k).key ∧ Reg.plStatusInnerLock.key ≠ (Reg.plOsynStatusLock k).key := by
  revert h k
  decide

/-- An OSYN that locks on its plan under the inner lock ends its retune. -/
def osynRestarted (k : Nat) (s : State) : State := (s.setB (Reg.plOsynStatusLock k) true).setB (Reg.plOsynStatusRetune k) false

section

variable {k : Nat} {s : State}

theorem osynLock_starts (hk : k < 4) (hlock : s.isF (Reg.plOsynStatusLock k) = false) (hden : s.getF (Reg.plOsynDenValue k) ≠ 0) :
    ¬ (4 ≤ k ∨ s.isF (Reg.plOsynStatusLock k) = true ∨ s.getF (Reg.plOsynDenValue k) = 0) := by
  rw [hlock]
  rintro (h | h | h)
  · omega
  · cases h
  · exact hden h

theorem osynLock_innerLocked (hk : k < 4) : (s.setB (Reg.plOsynStatusLock k) true).innerLocked = s.innerLocked :=
  isF_setF_ne s _ (osyn_apart hk).2.2.2

theorem osynLock_alone (hk : k < 4) (hlock : s.isF (Reg.plOsynStatusLock k) = false) (hden : s.getF (Reg.plOsynDenValue k) ≠ 0)
    (hinner : s.innerLocked = false) : exec (.osynLock k) s = .next (s.setF (Reg.plOsynStatusLock k) 1) := by
  have hnone : (!(s.setB (Reg.plOsynStatusLock k) true).innerLocked) = true := by rw [osynLock_innerLocked hk, hinner]; rfl
  exact (if_neg (osynLock_starts hk hlock hden)).trans (if_pos hnone)

theorem osynLock_restarts (hk : k < 4) (hlock : s.isF (Reg.plOsynStatusLock k) = false) (hden : s.getF (Reg.plOsynDenValue k) ≠ 0)
    (hinner : s.innerLocked = true) : exec (.osynLock k) s = .next (retuneDone (outsRestart (osynRestarted k s))) := by
  have hnone : ¬ (!(s.setB (Reg.plOsynStatusLock k) true).innerLocked) = true := by rw [osynLock_innerLocked hk, hinner]; decide
  exact (if_neg (osynLock_starts hk hlock hden)).trans (if_neg hnone)

theorem osynLock_locks (hk : k < 4) (hlock : s.isF (Reg.plOsynStatusLock k) = false) (hden : s.getF (Reg.plOsynDenValue k) ≠ 0) :
    ∃ t, exec (.osynLock k) s = .next t ∧ t.isF (Reg.plOsynStatusLock k) = true ∧ (s.innerLocked = true → t.isF (Reg.plOsynStatusRetune k) = false) := by
  obtain ⟨hl, hr, hlr, -⟩ := osyn_apart hk
  cases hinner : s.innerLocked
  case false => exact ⟨_, osynLock_alone hk hlock hden hinner, isF_setB_same s _ true rfl, fun h => by cases h⟩
  case true =>
    have hfields : BlockFields 5 outStates (osynRestarted k s) (retuneDone (outsRestart (osynRestarted k s))) :=
      retuneDone_keeps (blockFields_keeps (by decide) outStates _) (sub_of rfl) (outsRestart_fields (.refl 5 outStates _))
    refine ⟨_, osynLock_restarts hk hlock hden hinner, (hfields.isF part_plOsynStatusLock hl).trans ?_,
      fun _ => (hfields.isF part_plOsynStatusRetune hr).trans (isF_setB_same _ _ false rfl)⟩
    exact (isF_setF_ne _ _ hlr).trans (isF_setB_same s _ true rfl)

end

/-! ### The release of a squelched output (R336) -/

theorem out_setOut_same (s : State) (n : Nat) (o : OutDyn) : (s.setOut n o).out n = o := spGet_spSet_same _ _ _ _

theorem outCondition_lt (n : Nat) (s : State) : outCondition n s < 8 := by
  unfold outCondition
  split_ifs <;> decide

/-- An output that no squelch holds is not squelched. -/
theorem outCondition_free {n : Nat} {s : State} (h : (s.out n).squelched = false) : outCondition n s ≠ 4 := by
  unfold outCondition
  rw [h, if_neg Bool.false_ne_true]
  split_ifs <;> decide

theorem placeEdge_squelched (n old v : Nat) (s : State) : ((placeEdge n old v s).out n).squelched = (s.out n).squelched := by
  unfold placeEdge restartEdge stopEdge
  extract_lets
  split_ifs
  · rw [out_setOut_same]
  · rw [out_setOut_same]
  · rw [out_setOut_same]
  · rfl

theorem outState_of_regs {s t : State} (h : t.regs = s.regs) (n : Nat) : outState n t = outState n s := by
  unfold outState
  rw [getF_of_regs h, getF_of_regs h]

theorem out_of_dpll {s t : State} (h : t.dpll = s.dpll) (n : Nat) : t.out n = s.out n := by
  unfold State.out
  rw [h]

/-- STATE of an output is what it was set to; its squelch stays. -/
theorem outSet_leaves {n v : Nat} (hv : v < 8) (s : State) : outState n (outSet n v s) = v ∧ ((outSet n v s).out n).squelched = (s.out n).squelched := by
  unfold outSet
  extract_lets old u w
  split
  case isTrue h => exact ⟨h, rfl⟩
  case isFalse =>
    have hw : outState n w = v ∧ w.dpll = u.dpll := by
      unfold w outState
      split
      case isTrue => exact ⟨(getF_setF_same _ _ _).trans (Nat.mod_eq_of_lt hv), rfl⟩
      case isFalse => exact ⟨(getF_setF_same _ _ _).trans (Nat.mod_eq_of_lt hv), rfl⟩
    obtain ⟨hstate, hdpll⟩ := hw
    refine ⟨(outState_of_regs (raiseAt_regs (by decide) _ _ _ _ w) n).trans hstate, ?_⟩
    have hev : (raiseEv 99 0 0x0510 [(20, le 1 n), (21, le 1 old), (22, le 1 v)] w).dpll = w.dpll := raiseEv_keeps (same_keeps .dpll w) (sub_of rfl) rfl
    rw [out_of_dpll (hev.trans hdpll)]
    exact placeEdge_squelched n old v s

/-- Outside SQ_MASK no squelch begins. -/
theorem outSquelch_free {n : Nat} {s : State} (h : (s.out n).squelched = false) (hmask : bit (outMask n s) (s.qcState s.served) = false) :
    ((outSquelch n s).out n).squelched = false := by
  unfold outSquelch
  extract_lets o
  rw [hmask, Bool.and_false, if_neg Bool.false_ne_true]
  split_ifs
  · rw [out_setOut_same]
  · rw [out_setOut_same]
    exact h
  · exact h

theorem outRefresh_free {n : Nat} {s : State} (h : (s.out n).squelched = false) (hmask : bit (outMask n s) (s.qcState s.served) = false) :
    ((outRefresh n s).out n).squelched = false ∧ outState n (outRefresh n s) ≠ 4 := by
  have hfree := outSquelch_free h hmask
  obtain ⟨hstate, hsquelch⟩ := outSet_leaves (n := n) (outCondition_lt n (outSquelch n s)) (outSquelch n s)
  exact ⟨hsquelch.trans hfree, fun h4 => outCondition_free hfree (hstate.symm.trans h4)⟩

section

variable {out x : Nat} {s : State}

theorem squelchRelease_due (hout : out < 12) (hsq : (s.out out).squelched = true) (hclear : (s.out out).clear = some x) (hdue : x + 781250000 ≤ s.dtt) :
    exec (.squelchRelease out) s = .next (outRefresh out (s.setOut out { s.out out with squelched := false, clear := none })) := by
  show execSquelchRelease out s = _
  unfold execSquelchRelease
  dsimp only
  split
  case h_1 t ht =>
    rw [hclear] at ht
    cases ht
    exact if_pos ⟨hout, hsq, hdue⟩
  case h_2 hnone =>
    rw [hclear] at hnone
    cases hnone

theorem squelchRelease_waits (h : 12 ≤ out ∨ (s.out out).squelched = false ∨ ∀ x, (s.out out).clear = some x → s.dtt < x + 781250000) :
    exec (.squelchRelease out) s = .next s := by
  show execSquelchRelease out s = _
  unfold execSquelchRelease
  dsimp only
  split
  case h_1 t ht =>
    refine if_neg ?_
    rintro ⟨hout, hsq, hdue⟩
    obtain h | h | h := h
    · omega
    · rw [hsq] at h
      cases h
    · exact absurd (h t ht) (Nat.not_lt.2 hdue)
  case h_2 => rfl

end

/-! ### Bands and the time of day (R316, R332, R333) -/

section

variable {band : Nat} {s : State}

/-- The state in which a band search has chosen `band`. -/
def bandChosen (band : Nat) (s : State) : State :=
  ((({ s with dpll := { s.dpll with searchAll := false } } : State).setB Reg.plStatusSearch false).setF Reg.plStatusBand band).setB Reg.plStatusMargin false

theorem bandSearchDone_chooses (hsearch : s.isF Reg.plStatusSearch = true)
    (h : s.dpll.searchAll = true ∨ (band ≤ s.getF Reg.plStatusBand + 1 ∧ s.getF Reg.plStatusBand ≤ band + 1)) :
    exec (.bandSearchDone band) s = .next (bandChosen band s) := by
  refine if_pos ?_
  simpa [hsearch] using h

theorem bandChosen_leaves (band : Nat) (s : State) : (bandChosen band s).isF Reg.plStatusSearch = false ∧
    (bandChosen band s).getF Reg.plStatusBand = band % 2 ^ 8 ∧ (bandChosen band s).isF Reg.plStatusMargin = false ∧
    (bandChosen band s).dpll.searchAll = false ∧ FieldsOf [Reg.plStatusSearch, Reg.plStatusBand, Reg.plStatusMargin] s (bandChosen band s) := by
  unfold bandChosen
  refine ⟨?_, ?_, isF_setB_same _ _ false rfl, rfl, (((FieldsOf.refl _ s).setF (by decide) 0).setF (by decide) band).setF (by decide) 0⟩
  · exact (isF_setF_ne _ _ (by decide)).trans ((isF_setF_ne _ _ (by decide)).trans (isF_setB_same _ Reg.plStatusSearch false rfl))
  · exact (getF_setF_ne _ _ (by decide)).trans (getF_setF_same _ Reg.plStatusBand band)

theorem bandSearchDone_stays (h : s.isF Reg.plStatusSearch = false ∨
    (s.dpll.searchAll = false ∧ (s.getF Reg.plStatusBand + 1 < band ∨ band + 1 < s.getF Reg.plStatusBand))) :
    exec (.bandSearchDone band) s = .next s := by
  refine if_neg ?_
  rw [Bool.and_eq_true, Bool.or_eq_true, Bool.and_eq_true, decide_eq_true_eq, decide_eq_true_eq]
  rintro ⟨hsearch, hband⟩
  obtain h | ⟨hall, h⟩ := h
  · rw [h] at hsearch
    cases hsearch
  · rw [hall] at hband
    simp only [Bool.false_eq_true, false_or] at hband
    omega

end

section

variable {second : Nat} {s : State}

theorem todRxLabel_labels {x : Nat} (hedge : s.dpll.ppsEdge = some x) (hsoon : s.now80 ≤ x + 703125000 * 2 ^ 16) :
    exec (.todRxLabel second) s = .next { s with dpll := { s.dpll with todLabel := some (second, x) } } := by
  show execTodRxLabel second s = _
  unfold execTodRxLabel
  rw [hedge]
  exact if_pos hsoon

theorem todRxLabel_late (h : ∀ x, s.dpll.ppsEdge = some x → x + 703125000 * 2 ^ 16 < s.now80) : exec (.todRxLabel second) s = .next s := by
  show execTodRxLabel second s = _
  unfold execTodRxLabel
  split
  case h_1 x hx => exact if_neg (Nat.not_le.2 (h x hx))
  case h_2 => rfl

end

section

variable {edge n : Nat} {s : State}

/-- The output time at a TK80 instant, as PPSOUT0 is aligned to it. -/
def ppsTime (edge : Nat) (s : State) : Int := s.servedTime edge + s.getI64 Reg.tbOutOffset - (s.out 8).phaseNow

/-- The length of PPSOUT0's period. -/
def pps0Period (s : State) : Nat := ppsPeriod (s.out 8).rate (s.out 8).periodS

/-- An edge of PPSOUT0 stands nearer to second `n` than to any other pulse. -/
def onSecond (edge n : Nat) (s : State) : Prop := (ppsTime edge s - n * (10 ^ 9 * 2 ^ 16)).natAbs * 2 < pps0Period s * 2 ^ 16

theorem todMessage_sends (hn : n = (divRound (ppsTime edge s) (10 ^ 9 * 2 ^ 16)).toNat) (htod : s.getF (Reg.plPpsStatusTod 0) ≠ 0)
    (hrun : outState 8 s = 1 ∨ outState 8 s = 5) (hdue : edge + 7812500 * 2 ^ 16 ≤ s.now80) (hwhole : 20000000 ≤ pps0Period s ∨ onSecond edge n s) :
    exec (.todMessage edge) s =
      .next { s with dpll := { s.dpll with todTx := if s.getF (Reg.plPpsStatusTod 0) = 1 then zdaOf n s else todBinary n s } } := by
  subst hn
  refine if_neg ?_
  rintro (h | ⟨h1, h5⟩ | h | ⟨hshort, hoff⟩)
  · exact htod h
  · exact hrun.elim h1 h5
  · omega
  · obtain hlong | hon := hwhole
    · exact absurd hshort (Nat.not_lt.2 hlong)
    · rw [Bool.not_eq_true', decide_eq_false_iff_not] at hoff
      exact hoff hon

theorem todMessage_silent (hn : n = (divRound (ppsTime edge s) (10 ^ 9 * 2 ^ 16)).toNat)
    (h : s.getF (Reg.plPpsStatusTod 0) = 0 ∨ (outState 8 s ≠ 1 ∧ outState 8 s ≠ 5) ∨ s.now80 < edge + 7812500 * 2 ^ 16 ∨
      (pps0Period s < 20000000 ∧ ¬ onSecond edge n s)) : exec (.todMessage edge) s = .next s := by
  subst hn
  refine if_pos ?_
  obtain h | h | h | ⟨hshort, hoff⟩ := h
  · exact .inl h
  · exact .inr (.inl h)
  · exact .inr (.inr (.inl h))
  · refine .inr (.inr (.inr ⟨hshort, ?_⟩))
    rw [Bool.not_eq_true', decide_eq_false_iff_not]
    exact hoff

end

end Sys2Proof.Machine

/-! SUPPORT. The inner loop loses its lock (R292, R315, R336): both domains pass to FAULT, and the TDCO keeps its code. -/

namespace Sys2Proof.Machine

/-- Two changes of a block one after the other, where the second writes fields the first may. -/
theorem BlockFields.trans {b : Nat} {fs gs : List Fld} {s t u : State} (h : BlockFields b fs s t) (h' : BlockFields b gs t u)
    (hsub : ∀ f ∈ gs, f.key ∈ fs.map Fld.key) : BlockFields b fs s u := by
  intro f hb hf
  refine (h' f hb fun hg => ?_).trans (h f hb hf)
  obtain ⟨g, hg, hk⟩ := List.mem_map.1 hg
  exact hf (hk ▸ hsub g hg)

theorem BlockFields.innerLocked {fs : List Fld} {s t : State} (h : BlockFields 5 fs s t) (hf : Reg.plStatusInnerLock.key ∉ fs.map Fld.key) :
    t.innerLocked = s.innerLocked := h.isF rfl hf

/-- A change of a domain's state writes of the DPLL's registers the outputs' STATE alone. -/
theorem setQc_outFields (d st cause : Nat) (s : State) : BlockFields 5 outStates s (setQc d st cause s) := by
  have K := blockFields_keeps (b := 5) (by decide) outStates s
  unfold setQc
  extract_lets +onlyGivenNames -merge -underBinder old
  refine ite_k (checkMinute_keeps K (sub_of rfl) (BlockFields.refl _ _ s)) ?_
  extract_lets +onlyGivenNames -merge -underBinder ho dom s1 s2 s3 s4
  have h4 : BlockFields 5 outStates s s4 := evdSend_keeps K (sub_of rfl) (raiseEv_keeps K (sub_of rfl) (checkMinute_keeps K (sub_of rfl)
    (showBound_keeps K (sub_of rfl) (State.setRd_keeps K (sub_of rfl) (BlockFields.refl _ _ s)))))
  exact ite_k (tstatFollow_keeps K (sub_of rfl) (outsRefresh_fields (raiseBit_k K 0 part_hstIrqStatusQcChg (sub_of rfl) h4))) h4

/-- The DPLL's registers of domain `d` that the loss of its lock writes. -/
def lockFields (d : Nat) : List Fld := [Reg.plDStatusCount d, Reg.plDStatusLock d, Reg.plDStatusFacq d]

theorem dropLock_fields (d : Nat) (s : State) : BlockFields 5 (lockFields d) s (dropLock d s) := by
  have K := blockFields_keeps (b := 5) (by decide) (lockFields d) s
  unfold dropLock
  extract_lets r u
  have hu : BlockFields 5 (lockFields d) s u := State.setRd_keeps K (sub_of rfl) ((BlockFields.refl 5 _ s).setF (by simp [lockFields]) 0)
  exact ite_k (raiseEv_keeps K (sub_of rfl) (hu.setF (by simp [lockFields]) _)) hu

theorem dropLock_unlocks (d : Nat) (s : State) : (dropLock d s).isF (Reg.plDStatusLock d) = false := by
  unfold dropLock
  extract_lets r u
  split
  case isTrue => exact (isF_of_getF (raiseEv_getF (by decide) _ _ _ _ _)).trans (isF_setB_same u _ false rfl)
  case isFalse h => exact Bool.eq_false_iff.2 h

/-- Domain `d` as the loss of the inner lock leaves it. -/
def domainLost (d : Nat) (s : State) : State := setQc d 7 5 ((dropLock d s).setB (Reg.plDStatusFacq d) false)

theorem domainLost_fields (d : Nat) (s : State) : BlockFields 5 (lockFields d ++ outStates) s (domainLost d s) := by
  have hdrop : BlockFields 5 (lockFields d ++ outStates) s (dropLock d s) :=
    (BlockFields.refl 5 _ s).trans (dropLock_fields d s) (fun f hf => List.mem_map_of_mem (List.mem_append_left _ hf))
  exact (hdrop.setF (by simp [lockFields]) 0).trans (setQc_outFields d 7 5 _) (fun f hf => List.mem_map_of_mem (List.mem_append_right _ hf))

/-- The lock of a domain stands apart from the outputs' STATE. -/
theorem lockFields_apart (d : Nat) : (Reg.plDStatusLock d).key ∉ outStates.map Fld.key ∧ (Reg.plDStatusLock d).key ≠ (Reg.plDStatusFacq d).key := by
  have hmin : Reg.plDStatusLock d = Reg.plDStatusLock (min d 2) ∧ Reg.plDStatusFacq d = Reg.plDStatusFacq (min d 2) := by
    simp [Reg.plDStatusLock, Reg.plDStatusFacq]
  rw [hmin.1, hmin.2]
  have hle : min d 2 < 3 := by omega
  revert hle
  generalize min d 2 = k
  revert k
  decide

theorem domainLost_leaves (d : Nat) (s : State) : (domainLost d s).qcState d = 7 ∧ (domainLost d s).isF (Reg.plDStatusLock d) = false := by
  obtain ⟨hout, hfacq⟩ := lockFields_apart d
  refine ⟨setQc_qcState d (by decide) (by decide) _, ((setQc_outFields d 7 5 _).isF part_plDStatusLock hout).trans ?_⟩
  exact (isF_setF_ne _ _ hfacq).trans (dropLock_unlocks d s)

/-- The state of a domain outlasts what becomes of the other. -/
theorem domainLost_other {d k : Nat} (h : (Reg.tbDStatusQc k).key ≠ (Reg.tbDStatusQc d).key) (s : State) : (domainLost d s).qcState k = s.qcState k := by
  have K := blockFields_keeps (b := 3) (by decide) [Reg.tbDStatusQc d] s
  have hdrop : BlockFields 3 [Reg.tbDStatusQc d] s ((dropLock d s).setB (Reg.plDStatusFacq d) false) :=
    setB_k K 5 part_plDStatusFacq (sub_of rfl) (dropLock_keeps K (sub_of rfl) (BlockFields.refl _ _ s))
  have hlost := hdrop.trans (setQc_fields d 7 5 _) (by simp)
  exact congrArg (· / 32) (hlost _ part_tbDStatusQc (by simpa using h))

/-- The state in which the inner loop has lost its lock for `cause`, before the domains and the outputs follow. -/
def lockGone (cause : Nat) (s : State) : State :=
  raiseEv 98 1 0x0501 [(20, le 1 0), (21, le 1 cause), (22, le 1 ((lockLost ((s.setB Reg.plStatusInnerLock false).setB Reg.plStatusSearch true)).getF
    Reg.plStatusBand))] (lockLost ((s.setB Reg.plStatusInnerLock false).setB Reg.plStatusSearch true))

theorem lockGone_getF (cause : Nat) (s : State) (f : Fld) :
    (lockGone cause s).getF f = ((s.setB Reg.plStatusInnerLock false).setB Reg.plStatusSearch true).getF f := raiseEv_getF (by decide) _ _ _ _ f

theorem lockGone_fields (cause : Nat) (s : State) : BlockFields 5 [Reg.plStatusInnerLock, Reg.plStatusSearch] s (lockGone cause s) := fun f _ hf =>
  (lockGone_getF cause s f).trans (((FieldsOf.refl _ s).setF (by simp) _).setF (by simp) _ f hf)

theorem loseInner_locked {cause : Nat} {s : State} (h : s.innerLocked = true) :
    loseInner cause s = outsRefresh (stampStatusAll (domainLost 1 (domainLost 0 (lockGone cause s)))) := by
  refine if_neg ?_
  rw [h]
  decide

theorem loseInner_unlocked {cause : Nat} {s : State} (h : s.innerLocked = false) : loseInner cause s = s := by
  refine if_pos ?_
  rw [h]
  rfl

/-- The DPLL's registers that the domains and the outputs write as they follow the loss. -/
def lossFields : List Fld := lockFields 0 ++ lockFields 1 ++ outStates

theorem lossFollowed_fields (s : State) : BlockFields 5 lossFields s (outsRefresh (stampStatusAll (domainLost 1 (domainLost 0 s)))) := by
  have h0 : BlockFields 5 lossFields s (domainLost 0 s) := (BlockFields.refl 5 _ s).trans (domainLost_fields 0 s) (by decide)
  have h1 : BlockFields 5 lossFields s (domainLost 1 (domainLost 0 s)) := h0.trans (domainLost_fields 1 _) (by decide)
  have hstamp := stampStatusAll_keeps (blockFields_keeps (b := 5) (by decide) lossFields s) (sub_of rfl) h1
  exact hstamp.trans (outsRefresh_fields (BlockFields.refl 5 _ _)) (by decide)

theorem lossFollowed_leaves (s : State) : ∀ t, t = outsRefresh (stampStatusAll (domainLost 1 (domainLost 0 s))) →
    t.qcState 0 = 7 ∧ t.qcState 1 = 7 ∧ t.isF (Reg.plDStatusLock 0) = false ∧ t.isF (Reg.plDStatusLock 1) = false := by
  rintro t rfl
  generalize hu : domainLost 0 s = u
  generalize hv : domainLost 1 u = v
  obtain ⟨hq0, hl0⟩ := domainLost_leaves 0 s
  obtain ⟨hq1, hl1⟩ := domainLost_leaves 1 u
  rw [hu] at hq0 hl0
  rw [hv] at hq1 hl1
  have hqc : ∀ d, (outsRefresh (stampStatusAll v)).qcState d = v.qcState d := fun d => congrArg (· / 32)
    (outsRefresh_keeps (same_keeps .rTb v) (sub_of rfl) (stampStatusAll_keeps (same_keeps .rTb v) (sub_of rfl) (Part.same_refl .rTb v)) _ part_tbDStatusQc)
  have hout : BlockFields 5 outStates v (outsRefresh (stampStatusAll v)) :=
    outsRefresh_fields (stampStatusAll_keeps (blockFields_keeps (by decide) outStates v) (sub_of rfl) (BlockFields.refl 5 _ v))
  have hv0 : v.isF (Reg.plDStatusLock 0) = u.isF (Reg.plDStatusLock 0) := hv ▸ (domainLost_fields 1 u).isF part_plDStatusLock (by decide)
  have hvq : v.qcState 0 = u.qcState 0 := hv ▸ domainLost_other (by decide) u
  exact ⟨(hqc 0).trans (hvq.trans hq0), (hqc 1).trans hq1, (hout.isF part_plDStatusLock (lockFields_apart 0).1).trans (hv0.trans hl0),
    (hout.isF part_plDStatusLock (lockFields_apart 1).1).trans hl1⟩

theorem loseInner_leaves {cause : Nat} {s : State} (h : s.innerLocked = true) : (loseInner cause s).innerLocked = false ∧
    (loseInner cause s).isF Reg.plStatusSearch = true ∧ (loseInner cause s).qcState 0 = 7 ∧ (loseInner cause s).qcState 1 = 7 ∧
    (loseInner cause s).isF (Reg.plDStatusLock 0) = false ∧ (loseInner cause s).isF (Reg.plDStatusLock 1) = false ∧
    (loseInner cause s).getI64 Reg.plNtw = s.getI64 Reg.plNtw := by
  rw [loseInner_locked h]
  have hfields := lossFollowed_fields (lockGone cause s)
  obtain ⟨hq0, hq1, hl0, hl1⟩ := lossFollowed_leaves (lockGone cause s) _ rfl
  have hlock : (lockGone cause s).innerLocked = false := (isF_of_getF (lockGone_getF cause s _)).trans
    ((isF_setF_ne _ _ (by decide)).trans (isF_setB_same s Reg.plStatusInnerLock false rfl))
  have hsearch : (lockGone cause s).isF Reg.plStatusSearch = true := (isF_of_getF (lockGone_getF cause s _)).trans (isF_setB_same _ Reg.plStatusSearch true rfl)
  exact ⟨(hfields.innerLocked (by decide)).trans hlock, (hfields.isF rfl (by decide)).trans hsearch, hq0, hq1, hl0, hl1,
    (hfields.getI64 part_plNtw_2 (by decide)).trans ((lockGone_fields cause s).getI64 part_plNtw_2 (by decide))⟩

/-! ### The rows -/

/-- A loss of lock writes of the DPLL's registers no more than the inner loop's, the domains' locks and the outputs' STATE. -/
theorem loseInner_fields (cause : Nat) (s : State) :
    BlockFields 5 ([Reg.plStatusInnerLock, Reg.plStatusSearch] ++ lossFields) s (loseInner cause s) := by
  cases h : s.innerLocked
  case false =>
    rw [loseInner_unlocked h]
    exact BlockFields.refl 5 _ s
  case true =>
    rw [loseInner_locked h]
    exact ((BlockFields.refl 5 _ s).trans (lockGone_fields cause s) (by decide)).trans (lossFollowed_fields _) (by decide)

/-- The cause that SYSXO's fault gives the loss of lock (R315). -/
def sysxoCause (missing : Bool) : Nat := if missing then 2 else 3

theorem sysxoFault_leaves (missing : Bool) (s : State) : ∃ t, exec (.sysxoFault missing) s = .next t ∧
    t.isF Reg.plStatusSysxoOk = false ∧ t.innerLocked = false ∧ (s.innerLocked = true → t.qcState 0 = 7 ∧ t.qcState 1 = 7) := by
  let u := s.setB Reg.plStatusSysxoOk false
  let v := loseInner (sysxoCause missing) u
  have hout : BlockFields 5 outStates v (outsRefresh v) := outsRefresh_fields (BlockFields.refl 5 _ v)
  have hinner : u.innerLocked = s.innerLocked := isF_setF_ne s (f := Reg.plStatusSysxoOk) (g := Reg.plStatusInnerLock) 0 (by decide)
  have hok : v.isF Reg.plStatusSysxoOk = false :=
    ((loseInner_fields (sysxoCause missing) u).isF rfl (by decide)).trans (isF_setB_same s Reg.plStatusSysxoOk false rfl)
  have hlost : v.innerLocked = false := by
    cases h : u.innerLocked
    case false => exact (congrArg State.innerLocked (loseInner_unlocked h)).trans h
    case true => exact (loseInner_leaves h).1
  have hqc : ∀ d, (outsRefresh v).qcState d = v.qcState d := fun d => congrArg (· / 32)
    (outsRefresh_keeps (same_keeps .rTb v) (sub_of rfl) (Part.same_refl .rTb v) _ part_tbDStatusQc)
  refine ⟨outsRefresh v, rfl, (hout.isF rfl (by decide)).trans hok, (hout.innerLocked (by decide)).trans hlost, fun h => ?_⟩
  obtain ⟨-, -, hq0, hq1, -⟩ := loseInner_leaves (cause := sysxoCause missing) (hinner.trans h)
  exact ⟨(hqc 0).trans hq0, (hqc 1).trans hq1⟩

end Sys2Proof.Machine

/-! SUPPORT. What a guard violation leaves alone (R597, R619, R679): it counts and records, and the words it reads are counters', so that of the
references nothing changes, and of the guards its own status alone. -/

namespace Sys2Proof.Machine

/-- A word of a device counter is a word of the counters' memory. -/
theorem mpMem_counter {c : Nat} (hc : c < 2 ^ 40) : mpMem (mpWord 9 c) = 9 := by
  unfold mpMem mpWord
  omega

theorem mpAct_counter_refs {w : Nat} (hw : mpMem w = 9) (s : State) : (mpAct w s).refs = s.refs := by
  have K := same_keeps .refs s
  unfold mpAct
  extract_lets m a acted ue u
  have hm : m = 9 := hw
  rw [hm]
  exact raiseEv_keeps K (sub_of rfl) (setF_k K 18 part_ctOvf (sub_of rfl) (mpWrite_keeps K (sub_of rfl) (upd_counters K (sub_of rfl) rfl)))

theorem mpLost_counter_refs {w : Nat} (hw : mpMem w = 9) (scrub : Bool) (s : State) : (mpLost w scrub s).refs = s.refs := by
  have K := same_keeps .refs s
  unfold mpLost
  extract_lets m x u v
  have hu : u.refs = s.refs := countRaw_keeps K (sub_of rfl) (mpList_keeps K (sub_of rfl) (State.setMemSum_keeps K (sub_of rfl) rfl))
  have hv : v.refs = s.refs := set64_k K 19 part_mpLastUe_2 (sub_of rfl) hu
  exact (mpAct_counter_refs hw _).trans (mpEvent_keeps K (sub_of rfl) hv)

theorem mpRead_counter_refs {w : Nat} (hw : mpMem w = 9) (scrub : Bool) (s : State) : (mpRead w scrub s).2.refs = s.refs := by
  have K := same_keeps .refs s
  unfold mpRead
  split
  case isTrue => rfl
  case isFalse =>
    extract_lets k ks
    have hks : ks.2.refs = s.refs := ite2_k (P := fun t => t.refs = s.refs) rfl rfl
    split_ifs
    · exact mpCorrection_keeps K (sub_of rfl) hks
    · exact (mpLost_counter_refs hw scrub ks.2).trans hks
    · exact hks

theorem count_refs {c : Nat} (hc : c < 2 ^ 40) (n : Nat) (s : State) : (count c n s).refs = s.refs := by
  have K := same_keeps .refs s
  unfold count
  exact ite_k (P := fun t => t.refs = s.refs) (countRaw_keeps K (sub_of rfl) rfl)
    (mpWrite_keeps K (sub_of rfl) (countRaw_keeps K (sub_of rfl) (mpRead_counter_refs (mpMem_counter hc) false s)))

theorem evdDrop_refs (s : State) : (evdDrop s).refs = s.refs := by
  have K := same_keeps .refs s
  unfold evdDrop
  extract_lets b u
  have hu : u.refs = s.refs := count_refs (by decide) 1 _
  exact ite_k (P := fun t => t.refs = s.refs) hu (raiseEv_keeps K (sub_of rfl) (upd_evd K (sub_of rfl) hu))

theorem evdSend_refs (rtype rflags src stamp : Nat) (fs : List (Nat × Bytes)) (s : State) : (evdSend rtype rflags src stamp fs s).refs = s.refs := by
  unfold evdSend
  exact ite_k (P := fun t => t.refs = s.refs) (count_refs (by decide) 1 _) (ite_k (P := fun t => t.refs = s.refs) (evdDrop_refs s) rfl)

/-- The registers of the guard block that a guard violation writes. -/
def violationFields : List Fld := [Reg.gdStatusViolCount, Reg.gdStatusLastReq, Reg.gdStatusLastReason, Reg.gdStatusGdViol, Reg.gdViolAddrOffset]

section

variable (n off : Nat) (req : Path) (reason : GdReason) (action : Nat) (requested applied : Int) (evWord : Nat) (s : State)

theorem guardViolations_refs : (guardViolations n off req reason action requested applied evWord s).refs = s.refs := by
  have K := same_keeps .refs s
  unfold guardViolations
  extract_lets u v w x y z r
  have hu : u.refs = s.refs := count_refs (by decide) 1 _
  have hz : z.refs = s.refs := hu
  exact (evdSend_refs _ _ _ _ _ r).trans (raiseEv_keeps K (sub_of rfl) hz)

theorem guardViolations_fields : BlockFields 1 violationFields s (guardViolations n off req reason action requested applied evWord s) := by
  have K := blockFields_keeps (b := 1) (by decide) violationFields s
  unfold guardViolations
  extract_lets u v w x y z r
  have hu : BlockFields 1 violationFields s u := count_keeps K (sub_of rfl) ((BlockFields.refl 1 _ s).setF (by decide) _)
  have hw : BlockFields 1 violationFields s w := (hu.setF (f := Reg.gdStatusLastReq) (by decide) _).setF (f := Reg.gdStatusLastReason) (by decide) _
  have hx : BlockFields 1 violationFields s x := hw.setF (f := Reg.gdStatusGdViol) (by decide) 1
  have hy : BlockFields 1 violationFields s y := hx.setF (f := Reg.gdViolAddrOffset) (by decide) off
  exact evdSend_keeps K (sub_of rfl) (raiseEv_keeps K (sub_of rfl) (raiseBit_k K 0 part_hstIrqStatusGdViol (sub_of rfl) hy))

end

theorem clampNoted_refs (was now : Bool) (off : Nat) (requested applied : Int) (s : State) : (clampNoted was now off requested applied s).refs = s.refs :=
  ite_k (P := fun t => t.refs = s.refs) (guardViolations_refs _ _ _ _ _ _ _ _ s) rfl

theorem clampNoted_fields (was now : Bool) (off : Nat) (requested applied : Int) (s : State) :
    BlockFields 1 violationFields s (clampNoted was now off requested applied s) :=
  ite_k (guardViolations_fields _ _ _ _ _ _ _ _ s) (BlockFields.refl 1 _ s)

theorem clampNoted_tb (was now : Bool) (off : Nat) (requested applied : Int) (s : State) : (clampNoted was now off requested applied s).tb = s.tb :=
  clampNoted_keeps (same_keeps .tb s) (sub_of rfl) rfl

end Sys2Proof.Machine

/-! SUPPORT. The servo update (R130, R148, R158, R299, R306), part by part: what each part of it reads and what it writes. -/

namespace Sys2Proof.Machine

/-! ### Domains and selections -/

theorem dom_setDom_cases (s : State) (d k : Nat) (x : Domain) : (s.setDom d x).dom k = if (d = 0 ↔ k = 0) then x else s.dom k := by
  split
  case isTrue h =>
    have hk : (s.setDom d x).dom k = (s.setDom d x).dom d := by
      unfold State.dom
      simp only [h]
    rw [hk, dom_setDom_same]
  case isFalse h => exact dom_setDom_ne h s x

theorem dom_congr {d k : Nat} (h : d = 0 ↔ k = 0) (s : State) : s.dom k = s.dom d := by
  unfold State.dom
  simp only [h]

/-- What the loop filter of a domain and its mapper hold. -/
def SameLoop (x y : Domain) : Prop := y.segs = x.segs ∧ y.integ = x.integ ∧ y.prop = x.prop

theorem SameLoop.refl (x : Domain) : SameLoop x x := ⟨rfl, rfl, rfl⟩

theorem SameLoop.trans {x y z : Domain} (h : SameLoop x y) (h' : SameLoop y z) : SameLoop x z :=
  ⟨h'.1.trans h.1, h'.2.1.trans h.2.1, h'.2.2.trans h.2.2⟩

/-- A domain replaced by one with the same mapper and loop filter. -/
theorem sameLoop_setDom {s : State} {d : Nat} {x : Domain} (h : SameLoop (s.dom d) x) (k : Nat) : SameLoop (s.dom k) ((s.setDom d x).dom k) := by
  rw [dom_setDom_cases]
  split
  case isTrue hk =>
    rw [dom_congr hk]
    exact h
  case isFalse => exact SameLoop.refl _

theorem setDom_lastServo (s : State) (d : Nat) (x : Domain) : (s.setDom d x).tb.lastServo = s.tb.lastServo := by
  unfold State.setDom
  split <;> rfl

theorem rd_setRd_same (s : State) (d : Nat) (x : RsDom) : (s.setRd d x).rd d = x := by
  unfold State.rd State.setRd
  split <;> rfl

theorem rd_setRd_ne {d k : Nat} (h : ¬ (d = 0 ↔ k = 0)) (s : State) (x : RsDom) : (s.setRd d x).rd k = s.rd k := by
  unfold State.rd State.setRd
  by_cases hd : d = 0
  · have hk : ¬ k = 0 := fun hk => h ⟨fun _ => hk, fun _ => hd⟩
    rw [if_pos hd, if_neg hk, if_neg hk]
  · have hk : k = 0 := Classical.not_not.1 (fun hk => h ⟨fun h0 => absurd h0 hd, fun h0 => absurd h0 hk⟩)
    rw [if_neg hd, if_pos hk, if_pos hk]

theorem rd_of_refs {s t : State} (h : t.refs = s.refs) (d : Nat) : t.rd d = s.rd d := by
  unfold State.rd
  rw [h]

/-! ### What the update of the served domain reads -/

/-- The registers of the time base that slews write. -/
def slewFields : List Fld := (List.range 3).flatMap (fun d => pair (Reg.tbDSlewRem d) ++ [Reg.tbDStatusSlewing d])

/-- The registers of the DPLL that show the fine code. -/
def fineFields : List Fld := [Reg.plStatusFine, Reg.plStatusMargin]

/-- `t` stands as `s` did in everything that the update of the served domain reads. -/
structure ServoView (s t : State) : Prop where
  refs : t.refs = s.refs
  loop : ∀ d, SameLoop (s.dom d) (t.dom d)
  last : t.tb.lastServo = s.tb.lastServo
  dtt : t.dtt = s.dtt
  guards : BlockFields 1 violationFields s t
  time : BlockFields 3 slewFields s t
  selection : Part.same .rRs s t
  twin : Part.same .rTw s t
  pl : BlockFields 5 fineFields s t

theorem ServoView.refl (s : State) : ServoView s s :=
  ⟨rfl, fun _ => SameLoop.refl _, rfl, rfl, .refl 1 _ s, .refl 3 _ s, Part.same_refl _ s, Part.same_refl _ s, .refl 5 _ s⟩

theorem ServoView.trans {s t u : State} (h : ServoView s t) (h' : ServoView t u) : ServoView s u where
  refs := h'.refs.trans h.refs
  loop d := (h.loop d).trans (h'.loop d)
  last := h'.last.trans h.last
  dtt := h'.dtt.trans h.dtt
  guards := h.guards.trans h'.guards (fun _ hf => List.mem_map_of_mem hf)
  time := h.time.trans h'.time (fun _ hf => List.mem_map_of_mem hf)
  selection := Part.same_trans h.selection h'.selection
  twin := Part.same_trans h.twin h'.twin
  pl := h.pl.trans h'.pl (fun _ hf => List.mem_map_of_mem hf)

/-- The remainder and the mark of a domain's slew are of `slewFields`. -/
theorem slewFields_mem (d : Nat) : (∀ f ∈ pair (Reg.tbDSlewRem d), f.key ∈ slewFields.map Fld.key) ∧
    (Reg.tbDStatusSlewing d).key ∈ slewFields.map Fld.key := by
  have hmin : Reg.tbDSlewRem d = Reg.tbDSlewRem (min d 2) ∧ Reg.tbDStatusSlewing d = Reg.tbDStatusSlewing (min d 2) := by
    simp [Reg.tbDSlewRem, Reg.tbDStatusSlewing]
  rw [hmin.1, hmin.2]
  have hle : min d 2 < 3 := by omega
  revert hle
  generalize min d 2 = k
  revert k
  decide

/-- Of the time base, what tells which domain is served, how it stands and whether a rate is transferred is not of a slew. -/
theorem slewFields_apart (d : Nat) : Reg.tbStateServed.key ∉ slewFields.map Fld.key ∧ Reg.tbStateXfer.key ∉ slewFields.map Fld.key ∧
    (Reg.tbDStatusOpen d).key ∉ slewFields.map Fld.key ∧ (Reg.tbDStatusQc d).key ∉ slewFields.map Fld.key := by
  have hmin : Reg.tbDStatusOpen d = Reg.tbDStatusOpen (min d 2) ∧ Reg.tbDStatusQc d = Reg.tbDStatusQc (min d 2) := by
    simp [Reg.tbDStatusOpen, Reg.tbDStatusQc]
  rw [hmin.1, hmin.2]
  have hle : min d 2 < 3 := by omega
  revert hle
  generalize min d 2 = k
  revert k
  decide

namespace ServoView

variable {s t : State} (h : ServoView s t)

include h

theorem served : t.served = s.served := h.time _ part_tbStateServed (slewFields_apart 0).1

theorem xfer : t.isF Reg.tbStateXfer = s.isF Reg.tbStateXfer := h.time.isF part_tbStateXfer (slewFields_apart 0).2.1

theorem isOpen (d : Nat) : t.isF (Reg.tbDStatusOpen d) = s.isF (Reg.tbDStatusOpen d) := h.time.isF part_tbDStatusOpen (slewFields_apart d).2.2.1

theorem qcState (d : Nat) : t.qcState d = s.qcState d := congrArg (· / 32) (h.time _ part_tbDStatusQc (slewFields_apart d).2.2.2)

theorem rd (d : Nat) : t.rd d = s.rd d := rd_of_refs h.refs d

theorem seg (d : Nat) : t.seg d = s.seg d := congrArg (fun l : List Segment => l.headD ⟨0, 0, 0⟩) (h.loop d).1

theorem filterOut (d : Nat) : filterOut d t = Machine.filterOut d s := by
  unfold Machine.filterOut
  rw [(h.loop d).2.1, (h.loop d).2.2]

theorem twinPhase (d : Nat) : twinPhase d t = Machine.twinPhase d s := by
  have hstate : t.twinState = s.twinState := h.twin _ part_twStatusState
  have hclock : t.isF Reg.twStatusTwclkOk = s.isF Reg.twStatusTwclkOk := isF_of_getF (h.twin _ part_twStatusTwclkOk)
  unfold Machine.twinPhase
  rw [h.served, hstate, hclock]

theorem keepsFreq (d : Nat) : keepsFreq d t = Machine.keepsFreq d s := by
  unfold Machine.keepsFreq
  rw [h.isOpen, h.qcState]

theorem follows (d : Nat) : follows d t = Machine.follows d s := by
  have hsel : hasSelection d t = hasSelection d s := isF_of_getF (h.selection _ part_rsDSelSelValid)
  have hcapt : capturing d t = capturing d s := by
    unfold capturing
    rw [h.rd, h.dtt, isF_of_getF (h.selection _ part_rsDSelQueued)]
  unfold Machine.follows
  rw [h.twinPhase, h.isOpen, hsel, hcapt, h.qcState]

theorem ntwFor (v : Int) : ntwFor v t = Machine.ntwFor v s := by
  unfold Machine.ntwFor
  rw [h.served, h.seg]

theorem steerNow (d : Nat) : (steerNow d t).1 = (Machine.steerNow d s).1 := by
  have hbound : t.getF Reg.gdSteerMaxA = s.getF Reg.gdSteerMaxA := h.guards _ rfl (by decide)
  unfold Machine.steerNow
  dsimp only
  rw [hbound, h.rd]

theorem ntw : t.getI64 Reg.plNtw = s.getI64 Reg.plNtw := h.pl.getI64 part_plNtw_2 (by decide)

end ServoView

/-! ### Slews and the fine code -/

theorem clampNoted_view (was now : Bool) (off : Nat) (requested applied : Int) (s : State) :
    ServoView s (clampNoted was now off requested applied s) where
  refs := clampNoted_refs _ _ _ _ _ s
  loop d := by
    rw [dom_of_tb (clampNoted_tb _ _ _ _ _ s)]
    exact SameLoop.refl _
  last := congrArg TimeBase.lastServo (clampNoted_tb _ _ _ _ _ s)
  dtt := clampNoted_keeps (same_keeps .dtt s) (sub_of rfl) rfl
  guards := clampNoted_fields _ _ _ _ _ s
  time := clampNoted_keeps (blockFields_keeps (by decide) slewFields s) (sub_of rfl) (.refl 3 _ s)
  selection := clampNoted_keeps (same_keeps .rRs s) (sub_of rfl) (Part.same_refl .rRs s)
  twin := clampNoted_keeps (same_keeps .rTw s) (sub_of rfl) (Part.same_refl .rTw s)
  pl := clampNoted_keeps (blockFields_keeps (by decide) fineFields s) (sub_of rfl) (.refl 5 _ s)

theorem setDom_view {s : State} {d : Nat} {x : Domain} (h : SameLoop (s.dom d) x) : ServoView s (s.setDom d x) where
  refs := State.setDom_refs s d x
  loop := sameLoop_setDom h
  last := setDom_lastServo s d x
  dtt := State.setDom_dtt s d x
  guards f _ _ := getF_of_regs (State.setDom_regs s d x) f
  time f _ _ := getF_of_regs (State.setDom_regs s d x) f
  selection f _ := getF_of_regs (State.setDom_regs s d x) f
  twin f _ := getF_of_regs (State.setDom_regs s d x) f
  pl f _ _ := getF_of_regs (State.setDom_regs s d x) f

theorem setSlewRem_view (d : Nat) (r : Int) (s : State) : ServoView s (setSlewRem d r s) where
  refs := rfl
  loop _ := SameLoop.refl _
  last := rfl
  dtt := rfl
  guards := setSlewRem_keeps (blockFields_keeps (by decide) violationFields s) (sub_of rfl) (.refl 1 _ s)
  time := by
    obtain ⟨hrem, hmark⟩ := slewFields_mem d
    unfold setSlewRem
    exact (((BlockFields.refl 3 slewFields s).setF (hrem _ (by simp [pair])) _).setF (hrem _ (by simp [pair])) _).setF hmark _
  selection := setSlewRem_keeps (same_keeps .rRs s) (sub_of rfl) (Part.same_refl .rRs s)
  twin := setSlewRem_keeps (same_keeps .rTw s) (sub_of rfl) (Part.same_refl .rTw s)
  pl := setSlewRem_keeps (blockFields_keeps (by decide) fineFields s) (sub_of rfl) (.refl 5 _ s)

theorem slewUpdate_view (d t0 t1 : Nat) (s : State) : ServoView s (slewUpdate d t0 t1 s) := by
  unfold slewUpdate
  extract_lets dm b r clamped u r' moved back' dm' v
  split
  case isTrue => exact setDom_view ⟨rfl, rfl, rfl⟩
  case isFalse =>
    have hu : ServoView s u := clampNoted_view _ _ _ _ _ s
    have hv : ServoView u v := by
      refine setDom_view ?_
      have hdom : u.dom d = dm := dom_of_tb (clampNoted_tb _ _ _ _ _ s) d
      rw [hdom]
      split
      case isTrue => exact ⟨rfl, rfl, rfl⟩
      case isFalse => exact ⟨rfl, rfl, rfl⟩
    exact (hu.trans hv).trans (setSlewRem_view d r' v)

theorem showFine_view (fine : Nat) (margin : Bool) (s : State) : ServoView s (showFine fine margin s) where
  refs := showFine_keeps (same_keeps .refs s) (sub_of rfl) rfl
  loop d := by
    rw [dom_of_tb (showFine_keeps (same_keeps .tb s) (sub_of rfl) rfl)]
    exact SameLoop.refl _
  last := congrArg TimeBase.lastServo (showFine_keeps (same_keeps .tb s) (sub_of rfl) rfl)
  dtt := showFine_keeps (same_keeps .dtt s) (sub_of rfl) rfl
  guards := showFine_keeps (blockFields_keeps (by decide) violationFields s) (sub_of rfl) (.refl 1 _ s)
  time := showFine_keeps (blockFields_keeps (by decide) slewFields s) (sub_of rfl) (.refl 3 _ s)
  selection := showFine_keeps (same_keeps .rRs s) (sub_of rfl) (Part.same_refl .rRs s)
  twin := showFine_keeps (same_keeps .rTw s) (sub_of rfl) (Part.same_refl .rTw s)
  pl := by
    have hfine : BlockFields 5 fineFields s (s.setF Reg.plStatusFine fine) := (BlockFields.refl 5 _ s).setF (by decide) fine
    unfold showFine
    exact ite_k (raiseEv_keeps (blockFields_keeps (by decide) fineFields s) (sub_of rfl) (hfine.setF (by decide) _)) hfine

theorem showFine_fine (fine : Nat) (margin : Bool) (s : State) : (showFine fine margin s).getF Reg.plStatusFine = fine % 2 ^ Reg.plStatusFine.width := by
  have hfine : (s.setF Reg.plStatusFine fine).getF Reg.plStatusFine = fine % 2 ^ Reg.plStatusFine.width := getF_setF_same s _ fine
  unfold showFine
  extract_lets u
  split
  case isTrue => exact (raiseEv_getF (by decide) _ _ _ _ _).trans ((getF_setF_ne u (f := Reg.plStatusMargin) 1 (by decide)).trans hfine)
  case isFalse => exact hfine

end Sys2Proof.Machine

/-! SUPPORT. The servo update (R130, R148, R158, R299, R306), from the served domain's frequency on, and the whole of it. -/

namespace Sys2Proof.Machine

/-! ### What every later part of the update leaves -/

/-- The sums of both domains' frequency, the instant of the last update and the fine code stand as they stood. -/
structure SumsKept (s t : State) : Prop where
  ffo : ∀ d, (t.rd d).ffoCount = (s.rd d).ffoCount
  last : t.tb.lastServo = s.tb.lastServo
  fine : t.getF Reg.plStatusFine = s.getF Reg.plStatusFine

theorem SumsKept.refl (s : State) : SumsKept s s := ⟨fun _ => rfl, rfl, rfl⟩

theorem SumsKept.trans {s t u : State} (h : SumsKept s t) (h' : SumsKept t u) : SumsKept s u :=
  ⟨fun d => (h'.ffo d).trans (h.ffo d), h'.last.trans h.last, h'.fine.trans h.fine⟩

theorem SumsKept.of_refs {s t : State} (h : t.refs = s.refs) (hlast : t.tb.lastServo = s.tb.lastServo)
    (hfine : t.getF Reg.plStatusFine = s.getF Reg.plStatusFine) : SumsKept s t :=
  ⟨fun d => congrArg RsDom.ffoCount (rd_of_refs h d), hlast, hfine⟩

theorem setDom_sums (s : State) (d : Nat) (x : Domain) : SumsKept s (s.setDom d x) :=
  .of_refs (State.setDom_refs s d x) (setDom_lastServo s d x) (getF_of_regs (State.setDom_regs s d x) _)

theorem getI64_of_regs {s t : State} (h : t.regs = s.regs) (a : Nat) : t.getI64 a = s.getI64 a := by
  unfold State.getI64 State.get64
  rw [getF_of_regs h, getF_of_regs h]

/-! ### The NTW -/

theorem clampI_mem {lo hi : Int} (h : lo ≤ hi) (v : Int) : lo ≤ clampI lo hi v ∧ clampI lo hi v ≤ hi := by
  unfold clampI
  split_ifs <;> omega

theorem setNtw_ntw (v : Int) (s : State) : (setNtw v s).getI64 Reg.plNtw = clampI (-(2 ^ 36)) (2 ^ 36) v := by
  obtain ⟨hlo, hhi⟩ := clampI_mem (lo := -(2 ^ 36)) (hi := 2 ^ 36) (by decide) v
  exact getI64_setI64 _ _ (by omega) (by omega)

theorem setNtw_tb (v : Int) (s : State) : (setNtw v s).tb = s.tb := setNtw_keeps (same_keeps .tb s) (sub_of rfl) rfl

theorem setNtw_sums (v : Int) (s : State) : SumsKept s (setNtw v s) := by
  refine .of_refs (setNtw_keeps (same_keeps .refs s) (sub_of rfl) rfl) (congrArg TimeBase.lastServo (setNtw_tb v s)) ?_
  unfold setNtw
  extract_lets w u
  have hu : u.getF Reg.plStatusFine = s.getF Reg.plStatusFine :=
    ite_k (P := fun t => t.getF Reg.plStatusFine = s.getF Reg.plStatusFine) rfl (raiseEv_getF (by decide) _ _ _ _ _)
  exact (getF_set64_ne u (a := Reg.plNtw) _ (by decide)).trans hu

theorem rebaseLoop_regs (d : Nat) (v : Int) (s : State) : (rebaseLoop d v s).regs = s.regs := State.setDom_regs _ _ _

theorem rebaseLoop_sums (d : Nat) (v : Int) (s : State) : SumsKept s (rebaseLoop d v s) := setDom_sums _ _ _

/-- A loop filter that is rebased leaves every mapper. -/
theorem rebaseLoop_segs (d : Nat) (v : Int) (s : State) (k : Nat) : ((rebaseLoop d v s).dom k).segs = (s.dom k).segs := by
  unfold rebaseLoop
  rw [dom_setDom_cases]
  split
  case isTrue hk => rw [dom_congr hk]
  case isFalse => rfl

/-! ### The steer -/

/-- The state in which an update has taken the steer of domain `d`, which alone it marks. -/
theorem steerNow_state (d : Nat) (s : State) : ∃ u b, ServoView s u ∧ u.tb = s.tb ∧ Part.same .rPl s u ∧ (steerNow d s).2 = u.setRd d { s.rd d with steerClamped := b } := by
  unfold steerNow
  extract_lets b r v clamped
  exact ⟨_, clamped, clampNoted_view _ _ _ _ _ s, clampNoted_tb _ _ _ _ _ s,
    clampNoted_keeps (same_keeps .rPl s) (sub_of rfl) (Part.same_refl .rPl s), rfl⟩

theorem setRd_ffoCount {s : State} {d : Nat} {x : RsDom} (h : x.ffoCount = (s.rd d).ffoCount) (k : Nat) :
    ((s.setRd d x).rd k).ffoCount = (s.rd k).ffoCount := by
  by_cases hk : d = 0 ↔ k = 0
  · have hrd : ∀ t : State, t.rd k = t.rd d := fun t => by
      unfold State.rd
      simp only [hk]
    rw [hrd, hrd, rd_setRd_same, h]
  · rw [rd_setRd_ne hk]

theorem steerNow_leaves (d : Nat) (s : State) : SumsKept s (steerNow d s).2 ∧ (steerNow d s).2.tb = s.tb ∧
    (∀ v, ntwFor v (steerNow d s).2 = ntwFor v s) := by
  obtain ⟨u, b, hview, htb, hpl, hu⟩ := steerNow_state d s
  rw [hu]
  have hregs := State.setRd_regs u d { s.rd d with steerClamped := b }
  refine ⟨⟨fun k => ?_, ?_, (getF_of_regs hregs _).trans (hpl _ rfl)⟩, (State.setRd_tb _ _ _).trans htb, fun v => ?_⟩
  · rw [setRd_ffoCount (by rw [hview.rd]), hview.rd]
  · rw [State.setRd_tb, hview.last]
  · have hserved : (u.setRd d { s.rd d with steerClamped := b }).served = s.served := (getF_of_regs hregs _).trans hview.served
    have hseg : ∀ k, (u.setRd d { s.rd d with steerClamped := b }).seg k = s.seg k := fun k =>
      seg_of_dom (dom_of_tb ((State.setRd_tb u d _).trans htb) k)
    unfold ntwFor
    rw [hserved, hseg]

/-! ### The served domain's update -/

/-- The frequency that an update holds for a domain that keeps one: the held one with the steer of an open loop (R299, R305). -/
def heldNtw (s : State) : Int :=
  ntwFor (s.rd s.served).hoValue s + if s.isF (Reg.tbDStatusOpen s.served) then (steerNow s.served s).1 else 0

/-- The NTW that an update gives the served domain (R299, R305, R306, R319). -/
def servedNtw (s : State) : Int :=
  if twinPhase s.served s then clampI (-(2 ^ 36)) (2 ^ 36) (filterOut s.served s)
  else if keepsFreq s.served s then clampI (-(2 ^ 36)) (2 ^ 36) (heldNtw s)
  else if follows s.served s then clampI (-(2 ^ 36)) (2 ^ 36) (filterOut s.served s) else s.getI64 Reg.plNtw

theorem ServoView.servedNtw {s t : State} (h : ServoView s t) : servedNtw t = Machine.servedNtw s := by
  unfold Machine.servedNtw heldNtw
  rw [h.served, h.twinPhase, h.filterOut, h.keepsFreq, h.follows, h.rd, h.ntwFor, h.isOpen, h.steerNow, h.ntw]

/-- The state whose steer, with an open loop, the update has taken. -/
def steered (s : State) : Int × State := if s.isF (Reg.tbDStatusOpen s.served) then steerNow s.served s else (0, s)

theorem steered_leaves (s : State) : SumsKept s (steered s).2 ∧ (steered s).2.tb = s.tb ∧
    ntwFor (s.rd s.served).hoValue (steered s).2 + (steered s).1 = heldNtw s := by
  unfold steered heldNtw
  split
  case isTrue =>
    obtain ⟨hsums, htb, hntw⟩ := steerNow_leaves s.served s
    rw [hntw]
    exact ⟨hsums, htb, rfl⟩
  case isFalse => exact ⟨.refl s, rfl, rfl⟩

/-- The served domain's update, with its held frequency named. -/
theorem servedUpdate_eq (s : State) : servedUpdate s =
    if twinPhase s.served s then setNtw (filterOut s.served s) s
    else if keepsFreq s.served s then
      rebaseLoop s.served ((setNtw (heldNtw s) (steered s).2).getI64 Reg.plNtw) (setNtw (heldNtw s) (steered s).2)
    else if follows s.served s then setNtw (filterOut s.served s) s
    else rebaseLoop s.served (s.getI64 Reg.plNtw) s := by
  rw [← (steered_leaves s).2.2]
  rfl

theorem servedUpdate_leaves (s : State) : (servedUpdate s).getI64 Reg.plNtw = servedNtw s ∧ SumsKept s (servedUpdate s) ∧
    ∀ k, ((servedUpdate s).dom k).segs = (s.dom k).segs := by
  have hset : ∀ v, ∀ k, ((setNtw v s).dom k).segs = (s.dom k).segs := fun v k => congrArg Domain.segs (dom_of_tb (setNtw_tb v s) k)
  rw [servedUpdate_eq]
  unfold servedNtw
  split_ifs
  · exact ⟨setNtw_ntw _ s, setNtw_sums _ s, hset _⟩
  · obtain ⟨hsums, htb, -⟩ := steered_leaves s
    refine ⟨(getI64_of_regs (rebaseLoop_regs _ _ _) _).trans (setNtw_ntw _ _), (hsums.trans (setNtw_sums _ _)).trans (rebaseLoop_sums _ _ _), fun k => ?_⟩
    rw [rebaseLoop_segs, dom_of_tb ((setNtw_tb _ _).trans htb)]
  · exact ⟨setNtw_ntw _ s, setNtw_sums _ s, hset _⟩
  · exact ⟨getI64_of_regs (rebaseLoop_regs _ _ _) _, rebaseLoop_sums _ _ s, rebaseLoop_segs _ _ s⟩

/-! ### The other domain's update -/

/-- The registers of a domain's mapper. -/
def segFields (d : Nat) : List Fld := pair (Reg.tbDRate d) ++ triple (Reg.tbDAncTk0 d).addr ++ triple (Reg.tbDAncT0 d).addr ++ [Reg.tbDAncSeq d]

theorem segFields_min (d : Nat) : segFields d = segFields (min d 2) := by
  simp [segFields, Reg.tbDRate, Reg.tbDAncTk0, Reg.tbDAncT0, Reg.tbDAncSeq]

theorem segFields_apart (d : Nat) : Reg.tbStateXfer.key ∉ (segFields d).map Fld.key ∧ Reg.tbStateServed.key ∉ (segFields d).map Fld.key := by
  rw [segFields_min]
  have hle : min d 2 < 3 := by omega
  revert hle
  generalize min d 2 = k
  revert k
  decide

/-- `t` differs from `s` in the time base by domain `d` alone: its mapper, its loop filter and the registers of both. -/
structure OneDomain (d : Nat) (s t : State) : Prop where
  other : ∀ k, ¬ (d = 0 ↔ k = 0) → t.dom k = s.dom k
  last : t.tb.lastServo = s.tb.lastServo
  fields : BlockFields 3 (segFields d) s t

theorem OneDomain.refl (d : Nat) (s : State) : OneDomain d s s := ⟨fun _ _ => rfl, rfl, .refl 3 _ s⟩

theorem OneDomain.trans {d : Nat} {s t u : State} (h : OneDomain d s t) (h' : OneDomain d t u) : OneDomain d s u :=
  ⟨fun k hk => (h'.other k hk).trans (h.other k hk), h'.last.trans h.last, h.fields.trans h'.fields (fun _ hf => List.mem_map_of_mem hf)⟩

theorem setDom_oneDomain (d : Nat) (x : Domain) (s : State) : OneDomain d s (s.setDom d x) :=
  ⟨fun _ hk => dom_setDom_ne hk s x, setDom_lastServo s d x, fun _ _ _ => getF_of_regs (State.setDom_regs s d x) _⟩

theorem openSegment_oneDomain (d x : Nat) (t r : Int) (s : State) : OneDomain d s (openSegment d x t r s) where
  other k hk := by rw [dom_of_tb (openSegment_tb d x t r s), dom_setDom_ne hk]
  last := by rw [openSegment_tb, setDom_lastServo]
  fields := by
    unfold openSegment
    dsimp only
    have hdom := (setDom_oneDomain d { s.dom d with segs := (⟨x, t, clampRate r⟩ :: (s.dom d).segs).take 8 } s).fields
    have hmem : ∀ f ∈ segFields d, f.key ∈ (segFields d).map Fld.key := fun _ hf => List.mem_map_of_mem hf
    iterate 9 refine BlockFields.setF ?_ (hmem _ (by simp [segFields, pair, triple])) _
    exact hdom

theorem setRate_oneDomain (d : Nat) (r : Int) (s : State) : OneDomain d s (setRate d r s) := by
  unfold setRate
  exact ite_k (setDom_oneDomain d _ s) (ite_k ((setDom_oneDomain d _ s).trans (openSegment_oneDomain d _ _ _ _)) (setDom_oneDomain d _ s))

theorem setServoRate_oneDomain (d : Nat) (r : Int) (s : State) : OneDomain d s (setServoRate d r s) :=
  (setDom_oneDomain d _ s).trans (setRate_oneDomain d _ _)

theorem otherUpdate_oneDomain (s : State) : OneDomain (1 - s.served) s (otherUpdate s) := by
  unfold otherUpdate
  extract_lets o
  exact ite_k ((setServoRate_oneDomain o _ s).trans (setDom_oneDomain o _ _))
    (ite_k (setServoRate_oneDomain o _ s) ((setServoRate_oneDomain o _ s).trans (setDom_oneDomain o _ _)))

theorem otherUpdate_sums (s : State) : SumsKept s (otherUpdate s) :=
  .of_refs (otherUpdate_keeps (same_keeps .refs s) (sub_of rfl) rfl) (otherUpdate_oneDomain s).last
    (otherUpdate_keeps (same_keeps .rPl s) (sub_of rfl) (Part.same_refl .rPl s) _ rfl)

/-! ### The rate transfer -/

theorem setRate_sums (d : Nat) (r : Int) (s : State) : SumsKept s (setRate d r s) :=
  .of_refs (setRate_keeps (same_keeps .refs s) (sub_of rfl) rfl) (setRate_oneDomain d r s).last
    (setRate_keeps (same_keeps .rPl s) (sub_of rfl) (Part.same_refl .rPl s) _ rfl)

theorem xferUpdate_sums (t0 t1 : Nat) (s : State) : SumsKept s (xferUpdate t0 t1 s) := by
  unfold xferUpdate
  extract_lets d r r' m u _ v o _ w x
  refine ite_k (SumsKept.refl s) ?_
  have hv : SumsKept s v := ((setNtw_sums _ s).trans (setDom_sums _ _ _)).trans (setRate_sums _ _ _)
  have hx : SumsKept s x := (hv.trans (setDom_sums v o _)).trans (setRate_sums _ _ _)
  exact hx.trans (.of_refs rfl rfl (getF_setF_ne x (f := Reg.tbStateXfer) _ (by decide)))

theorem xferUpdate_none {s : State} (h : s.isF Reg.tbStateXfer = false) (t0 t1 : Nat) : xferUpdate t0 t1 s = s := by
  refine if_pos ?_
  rw [h]
  rfl

theorem xferUpdate_flag {s : State} (h : s.isF Reg.tbStateXfer = true) (t0 t1 : Nat) :
    (xferUpdate t0 t1 s).isF Reg.tbStateXfer = decide (towardZero (s.seg s.served).rate (xferMoved t0 t1) ≠ 0) := by
  unfold xferUpdate
  extract_lets d r r' m u _ v o _ w x
  rw [h, if_neg (by decide)]
  exact isF_setB_same x _ _ rfl

/-! ### The outputs' phases and the sums -/

theorem BlockFields.tbOnly {b : Nat} {fs : List Fld} {s t : State} (h : BlockFields b fs s t) (x : TimeBase) :
    BlockFields b fs s { t with tb := x } := h

theorem outPhases_leaves (m : Int) (s : State) : (outPhases m s).tb.lastServo = s.tb.lastServo ∧ BlockFields 3 (pair Reg.tbOutOffset) s (outPhases m s) := by
  unfold outPhases
  extract_lets u
  have hu : u.tb = s.tb ∧ BlockFields 3 (pair Reg.tbOutOffset) s u :=
    foldl_k (P := fun t => t.tb = s.tb ∧ BlockFields 3 (pair Reg.tbOutOffset) s t) ⟨rfl, .refl 3 _ s⟩ (fun t n ht => by
      dsimp only
      split_ifs
      · exact ht
      · exact ⟨ht.1, State.setOut_keeps (blockFields_keeps (by decide) _ s) (sub_of rfl) ht.2⟩)
  clear_value u
  obtain ⟨htb, hfields⟩ := hu
  have hoff : ∀ v, BlockFields 3 (pair Reg.tbOutOffset) s (u.setI64 Reg.tbOutOffset v) := fun v => (hfields.setF (by decide) _).setF (by decide) _
  split
  case isTrue =>
    split
    case h_1 o _ =>
      have hlast : u.tb.lastServo = s.tb.lastServo := congrArg TimeBase.lastServo htb
      exact ⟨hlast, (hoff _).tbOnly _⟩
    case h_2 => exact ⟨congrArg TimeBase.lastServo htb, hoff _⟩
  case isFalse => exact ⟨congrArg TimeBase.lastServo htb, hfields⟩

theorem outsUpdate_leaves (t0 t1 : Nat) (s : State) : SumsKept s (outsUpdate t0 t1 s) ∧ (outsUpdate t0 t1 s).isF Reg.tbStateXfer = s.isF Reg.tbStateXfer := by
  unfold outsUpdate
  extract_lets want clamped u
  have hu := clampNoted_view s.tb.outClamped clamped Reg.gdSlewMaxA.addr want (cfgSlewRate s) s
  have hpl : Part.same .rPl s u := clampNoted_keeps (same_keeps .rPl s) (sub_of rfl) (Part.same_refl .rPl s)
  generalize hv : ({ u with tb := { u.tb with outClamped := clamped } } : State) = v
  generalize slewMoved (cfgSlewRate u) t0 t1 = m
  obtain ⟨hlast, hfields⟩ := outPhases_leaves m v
  have hv' : v.refs = s.refs ∧ v.tb.lastServo = s.tb.lastServo ∧ Part.same .rPl s v ∧ v.isF Reg.tbStateXfer = s.isF Reg.tbStateXfer := by
    rw [← hv]
    exact ⟨hu.refs, hu.last, hpl, hu.xfer⟩
  obtain ⟨hrefs, hvlast, hvpl, hvx⟩ := hv'
  refine ⟨.of_refs ((outPhases_keeps (same_keeps .refs v) (sub_of rfl) rfl).trans hrefs) (hlast.trans hvlast) ?_, ?_⟩
  · exact (outPhases_keeps (same_keeps .rPl v) (sub_of rfl) (Part.same_refl .rPl v) _ rfl).trans (hvpl _ rfl)
  · exact (hfields.isF part_tbStateXfer (by decide)).trans hvx

end Sys2Proof.Machine

/-! SUPPORT. The servo update as a whole (R130): the parts in their order. -/

namespace Sys2Proof.Machine

/-- An update begins: its instant is noted. -/
def servoBegun (s : State) : State := { s with tb := { s.tb with lastServo := s.dtt } }

/-- Both domains' slews of an update (R148, R149). -/
def servoSlewed (s : State) : State :=
  slewUpdate (1 - (servoBegun s).served) s.tb.lastServo s.dtt (slewUpdate (servoBegun s).served s.tb.lastServo s.dtt (servoBegun s))

/-- The fine code of an update, under the inner lock (R315, R318). -/
def servoShown (fine : Nat) (margin : Bool) (s : State) : State :=
  if (servoSlewed s).innerLocked then showFine fine margin (servoSlewed s) else servoSlewed s

/-- The frequencies of both domains. -/
def servoSteered (fine : Nat) (margin : Bool) (s : State) : State := otherUpdate (servedUpdate (servoShown fine margin s))

/-- The rate transfer and the outputs' phases. -/
def servoMoved (fine : Nat) (margin : Bool) (s : State) : State :=
  outsUpdate s.tb.lastServo s.dtt (xferUpdate s.tb.lastServo s.dtt (servoSteered fine margin s))

/-- One more sample enters the sums of domain `d`'s frequency. -/
def ffoNoted (d : Nat) (s : State) : State :=
  s.setRd d { s.rd d with ffoSum := (s.rd d).ffoSum + domFreq d s, ffoCount := (s.rd d).ffoCount + 1 }

section

variable {fine : Nat} {margin : Bool} {s : State}

theorem servoUpdate_runs (hdue : s.tb.lastServo + 781250 ≤ s.dtt) (hheld : s.dpll.holdStart = none) (hrun : s.isF Reg.hstStatusFwRun = true) :
    exec (.servoUpdate fine margin) s = .next (ffoNoted 1 (ffoNoted 0 (servoMoved fine margin s))) := by
  have hgo : ¬ (s.dtt < s.tb.lastServo + 781250 ∨ s.dpll.holdStart.isSome = true ∨ (!s.isF Reg.hstStatusFwRun) = true) := by
    rw [hheld, hrun]
    rintro (h | h | h)
    · omega
    · cases h
    · cases h
  show execServoUpdate fine margin s = _
  unfold execServoUpdate
  rw [if_neg hgo]
  extract_lets t0 t1 _ u v w x
  have hv : v = servoSlewed s := rfl
  have hw : w = servoShown fine margin s := by
    unfold w servoShown
    rw [hv]
  have hx : x = servoMoved fine margin s := by
    unfold x servoMoved servoSteered
    rw [hw]
  rw [← hx]
  clear_value x
  rfl

theorem servoUpdate_waits (h : s.dtt < s.tb.lastServo + 781250 ∨ s.dpll.holdStart ≠ none ∨ s.isF Reg.hstStatusFwRun = false) :
    exec (.servoUpdate fine margin) s = .next s := by
  refine if_pos ?_
  obtain h | h | h := h
  · exact .inl h
  · exact .inr (.inl (Option.isSome_iff_ne_none.2 h))
  · refine .inr (.inr ?_)
    rw [h]
    rfl

end

section

variable (fine : Nat) (margin : Bool) (s : State)

theorem servoSlewed_view : ServoView (servoBegun s) (servoSlewed s) := (slewUpdate_view _ _ _ _).trans (slewUpdate_view _ _ _ _)

theorem servoShown_view : ServoView (servoBegun s) (servoShown fine margin s) := by
  unfold servoShown
  split
  case isTrue => exact (servoSlewed_view s).trans (showFine_view fine margin _)
  case isFalse => exact servoSlewed_view s

/-- The slews leave the DPLL's registers. -/
theorem servoSlewed_pl : Part.same .rPl s (servoSlewed s) :=
  slewUpdate_keeps (same_keeps .rPl s) (sub_of rfl) (slewUpdate_keeps (same_keeps .rPl s) (sub_of rfl) (fun _ _ => rfl))

theorem servoShown_fine : (servoShown fine margin s).getF Reg.plStatusFine =
    if s.innerLocked then fine % 2 ^ Reg.plStatusFine.width else s.getF Reg.plStatusFine := by
  have hpl := servoSlewed_pl s
  have hinner : (servoSlewed s).innerLocked = s.innerLocked := isF_of_getF (hpl _ rfl)
  unfold servoShown
  rw [hinner]
  split
  case isTrue => exact showFine_fine fine margin _
  case isFalse => exact hpl _ rfl

theorem servoSteered_sums : SumsKept (servoShown fine margin s) (servoSteered fine margin s) :=
  (servedUpdate_leaves _).2.1.trans (otherUpdate_sums _)

theorem servoMoved_sums : SumsKept (servoShown fine margin s) (servoMoved fine margin s) :=
  ((servoSteered_sums fine margin s).trans (xferUpdate_sums _ _ _)).trans (outsUpdate_leaves _ _ _).1

/-- The update of the served domain leaves the time base's registers. -/
theorem servedUpdate_tb (u : State) : Part.same .rTb u (servedUpdate u) := servedUpdate_keeps (same_keeps .rTb u) (sub_of rfl) (Part.same_refl .rTb u)

theorem servoSteered_marks : (servoSteered fine margin s).served = s.served ∧ (servoSteered fine margin s).isF Reg.tbStateXfer = s.isF Reg.tbStateXfer := by
  have hview := servoShown_view fine margin s
  have hserved := servedUpdate_tb (servoShown fine margin s)
  have hother := (otherUpdate_oneDomain (servedUpdate (servoShown fine margin s))).fields
  exact ⟨((hother _ rfl (segFields_apart _).2).trans (hserved _ rfl)).trans hview.served,
    ((hother.isF rfl (segFields_apart _).1).trans (isF_of_getF (hserved _ rfl))).trans hview.xfer⟩

theorem servoSteered_ntw : (servoSteered fine margin s).getI64 Reg.plNtw = servedNtw s := by
  have hother := otherUpdate_keeps (same_keeps .rPl (servedUpdate (servoShown fine margin s))) (sub_of rfl) (Part.same_refl .rPl _)
  have hkept : (servoSteered fine margin s).getI64 Reg.plNtw = (servedUpdate (servoShown fine margin s)).getI64 Reg.plNtw := by
    unfold State.getI64 State.get64
    rw [← hother _ part_plNtw_2.1, ← hother _ part_plNtw_2.2]
    rfl
  exact hkept.trans ((servedUpdate_leaves _).1.trans (servoShown_view fine margin s).servedNtw)

/-- The other domain's update leaves the served domain's mapper. -/
theorem servoSteered_rate : ((servoSteered fine margin s).seg s.served).rate = (s.seg s.served).rate := by
  have hview := servoShown_view fine margin s
  generalize hu : servoShown fine margin s = u at hview
  have hserved : (servedUpdate u).served = s.served := (servedUpdate_tb u _ rfl).trans hview.served
  have hother : (otherUpdate (servedUpdate u)).dom s.served = (servedUpdate u).dom s.served := by
    refine (otherUpdate_oneDomain (servedUpdate u)).other _ ?_
    rw [hserved]
    omega
  have hsegs : ((servoSteered fine margin s).dom s.served).segs = (s.dom s.served).segs := by
    unfold servoSteered
    rw [hu, hother, (servedUpdate_leaves u).2.2, (hview.loop _).1]
    rfl
  exact congrArg (fun l : List Segment => (l.headD ⟨0, 0, 0⟩).rate) hsegs

theorem ffoNoted_counts (u : State) (d : Nat) (h : d ≤ 1) : ((ffoNoted 1 (ffoNoted 0 u)).rd d).ffoCount = (u.rd d).ffoCount + 1 := by
  unfold ffoNoted
  interval_cases d
  · rw [rd_setRd_ne (by decide), rd_setRd_same]
  · rw [rd_setRd_same, rd_setRd_ne (by decide)]

theorem ffoNoted_regs (u : State) : (ffoNoted 1 (ffoNoted 0 u)).regs = u.regs := (State.setRd_regs _ _ _).trans (State.setRd_regs _ _ _)

end

section

variable {fine : Nat} {margin : Bool} {s : State}

theorem servoUpdate_sums (hdue : s.tb.lastServo + 781250 ≤ s.dtt) (hheld : s.dpll.holdStart = none) (hrun : s.isF Reg.hstStatusFwRun = true) :
    ∃ t, exec (.servoUpdate fine margin) s = .next t ∧ t.tb.lastServo = s.dtt ∧
      t.getF Reg.plStatusFine = (if s.innerLocked then fine % 2 ^ Reg.plStatusFine.width else s.getF Reg.plStatusFine) ∧
      ∀ d, d ≤ 1 → (t.rd d).ffoCount = (s.rd d).ffoCount + 1 := by
  obtain ⟨hffo, hlast, hfine⟩ := servoMoved_sums fine margin s
  have hview := servoShown_view fine margin s
  refine ⟨_, servoUpdate_runs hdue hheld hrun, ?_, (getF_of_regs (ffoNoted_regs _) _).trans (hfine.trans (servoShown_fine fine margin s)), fun d hd => ?_⟩
  · have htb : (ffoNoted 1 (ffoNoted 0 (servoMoved fine margin s))).tb = (servoMoved fine margin s).tb := (State.setRd_tb _ _ _).trans (State.setRd_tb _ _ _)
    rw [htb, hlast, hview.last]
    rfl
  · rw [ffoNoted_counts _ d hd, hffo, hview.rd]
    rfl

theorem servoUpdate_ntw (hdue : s.tb.lastServo + 781250 ≤ s.dtt) (hheld : s.dpll.holdStart = none) (hrun : s.isF Reg.hstStatusFwRun = true)
    (hx : s.isF Reg.tbStateXfer = false) :
    ∃ t, exec (.servoUpdate fine margin) s = .next t ∧ t.getI64 Reg.plNtw = servedNtw s ∧ t.isF Reg.tbStateXfer = false := by
  obtain ⟨-, hmark⟩ := servoSteered_marks fine margin s
  have hnone := xferUpdate_none (hmark.trans hx) s.tb.lastServo s.dtt
  have houts := outsUpdate_keeps (t0 := s.tb.lastServo) (t1 := s.dtt) (same_keeps .rPl (servoSteered fine margin s)) (sub_of rfl) (Part.same_refl .rPl _)
  obtain ⟨-, hflag⟩ := outsUpdate_leaves s.tb.lastServo s.dtt (servoSteered fine margin s)
  refine ⟨_, servoUpdate_runs hdue hheld hrun, ?_, ?_⟩
  · rw [getI64_of_regs (ffoNoted_regs _), ← servoSteered_ntw fine margin s]
    unfold servoMoved State.getI64 State.get64
    rw [hnone, houts _ part_plNtw_2.1, houts _ part_plNtw_2.2]
  · rw [isF_of_regs (ffoNoted_regs _)]
    unfold servoMoved
    rw [hnone, hflag, hmark, hx]

theorem servoUpdate_xfer (hdue : s.tb.lastServo + 781250 ≤ s.dtt) (hheld : s.dpll.holdStart = none) (hrun : s.isF Reg.hstStatusFwRun = true)
    (hx : s.isF Reg.tbStateXfer = true) : ∃ t, exec (.servoUpdate fine margin) s = .next t ∧
      t.isF Reg.tbStateXfer = decide (towardZero (s.seg s.served).rate (xferMoved s.tb.lastServo s.dtt) ≠ 0) := by
  obtain ⟨hserved, hmark⟩ := servoSteered_marks fine margin s
  refine ⟨_, servoUpdate_runs hdue hheld hrun, ?_⟩
  rw [isF_of_regs (ffoNoted_regs _)]
  unfold servoMoved
  rw [(outsUpdate_leaves _ _ _).2, xferUpdate_flag (hmark.trans hx), hserved, servoSteered_rate]

end

end Sys2Proof.Machine

/-! SUPPORT. What the domains, the selector and the outputs do under the inner lock leaves it, and brings no domain to FAULT (R292, R315). -/

namespace Sys2Proof.Machine

/-- A property that depends on some parts alone is kept by whatever keeps these parts. -/
theorem keeps_of_same {P : State → Prop} {ps : List Part} {A : Nat} (hA : ∀ p ∈ ps, ∀ k, A.testBit k = true → (without p).testBit k = true)
    (h100 : A.testBit 100 = false) (h : ∀ s t, (∀ p ∈ ps, p.same s t) → P s → P t) : Keeps P A where
  setF s f v hb hs := h s _ (fun p hp => (same_keeps p s).setF s f v (hA p hp _ hb) (Part.same_refl p s)) hs
  drop s q hb hs := h s _ (fun p hp => (same_keeps p s).drop s q (fun e he => hA p hp _ (hb e he)) (Part.same_refl p s)) hs
  dma s a bs hb hs := h s _ (fun p hp => (same_keeps p s).dma s a bs (hA p hp _ hb) (Part.same_refl p s)) hs
  rest s t hr hm hparts hs := h s t (fun p hp => (same_keeps p s).rest s t hr hm
    (fun q hq hreg => hparts q (Bool.eq_false_iff.2 fun hbit => Bool.eq_false_iff.1 hq (hA p hp _ hbit)) hreg) (Part.same_refl p s)) hs
  again s hb := by
    rw [h100] at hb
    cases hb

/-- The inner loop is locked, has been noted so, and SYSXO is good; none of the domains `D` is in FAULT. -/
structure Healthy (D : List Nat) (t : State) : Prop where
  locked : t.innerLocked = true
  clock : t.isF Reg.plStatusSysxoOk = true
  ever : t.dpll.everLocked = true
  noFault : ∀ d ∈ D, t.qcState d ≠ 7

/-- The parts that say so. -/
def healthParts : List Part := [.rTb, .rPl, .dpll]

/-- Every part but those. -/
def healthMask : Nat := without .rTb &&& without .rPl &&& without .dpll

theorem healthMask_sub : ∀ p ∈ healthParts, ∀ k, healthMask.testBit k = true → (without p).testBit k = true := by
  intro p hp k hk
  unfold healthMask at hk
  rw [Nat.testBit_and, Nat.testBit_and, Bool.and_eq_true, Bool.and_eq_true] at hk
  obtain ⟨⟨htb, hpl⟩, hdpll⟩ := hk
  simp only [healthParts, List.mem_cons, List.not_mem_nil, or_false] at hp
  obtain rfl | rfl | rfl := hp
  · exact htb
  · exact hpl
  · exact hdpll

theorem healthy_keeps (D : List Nat) : Keeps (Healthy D) healthMask :=
  keeps_of_same healthMask_sub (by decide) (fun s t hsame h => by
    have htb : Part.same .rTb s t := hsame .rTb (by simp [healthParts])
    have hpl : Part.same .rPl s t := hsame .rPl (by simp [healthParts])
    have hdpll : t.dpll = s.dpll := hsame .dpll (by simp [healthParts])
    exact ⟨(isF_of_getF (hpl _ rfl)).trans h.locked, (isF_of_getF (hpl _ rfl)).trans h.clock, (congrArg Dpll.everLocked hdpll).trans h.ever,
      fun d hd => (congrArg (· / 32) (htb _ part_tbDStatusQc)).trans_ne (h.noFault d hd)⟩)

/-- A field that says nothing of the inner loop nor of a domain's state. -/
def Harmless (f : Fld) : Prop := f.key ≠ Reg.plStatusInnerLock.key ∧ f.key ≠ Reg.plStatusSysxoOk.key ∧ ∀ d, (Reg.tbDStatusQc d).key ≠ f.key

theorem harmless_of_addr {f : Fld} (hpl : f.addr ≠ 0x120000) (htb : f.addr % 256 ≠ 0 ∨ 0x100300 < f.addr) : Harmless f := by
  refine ⟨fun h => hpl ?_, fun h => hpl ?_, fun d h => ?_⟩
  · rw [← key_div, h, key_div]
    rfl
  · rw [← key_div, h, key_div]
    rfl
  · have haddr : 0x100100 + min d 2 * 0x100 = f.addr := by
      rw [← key_div f, ← h, key_div]
      rfl
    omega

theorem qc_apart {f : Fld} (h : 0x100300 < f.addr) (d : Nat) : (Reg.tbDStatusQc d).key ≠ f.key := by
  intro hk
  have haddr : 0x100100 + min d 2 * 0x100 = f.addr := by
    rw [← key_div f, ← hk, key_div]
    rfl
  omega

theorem retune_harmless (k : Nat) : Harmless (Reg.plOsynStatusRetune k) := by
  refine harmless_of_addr ?_ ?_ <;> simp only [Reg.plOsynStatusRetune] <;> omega

section

variable {D : List Nat} {s : State}

theorem Healthy.setF (h : Healthy D s) {f : Fld} (hf : Harmless f) (v : Nat) : Healthy D (s.setF f v) :=
  ⟨(isF_setF_ne s v hf.1.symm).trans h.locked, (isF_setF_ne s v hf.2.1.symm).trans h.clock, h.ever,
    fun d hd => (congrArg (· / 32) (getF_setF_ne s v (hf.2.2 d))).trans_ne (h.noFault d hd)⟩

theorem Healthy.setOut (h : Healthy D s) (n : Nat) (o : OutDyn) : Healthy D (s.setOut n o) := ⟨h.locked, h.clock, h.ever, h.noFault⟩

/-! ### Outputs -/

theorem outSquelch_healthy (h : Healthy D s) (n : Nat) : Healthy D (outSquelch n s) :=
  ite_k (h.setOut _ _) (ite_k (h.setOut _ _) (ite_k (h.setOut _ _) h))

theorem placeEdge_healthy (h : Healthy D s) (n old v : Nat) : Healthy D (placeEdge n old v s) :=
  ite_k (h.setOut _ _) (ite_k (h.setOut _ _) (ite_k (h.setOut _ _) h))

theorem outState_harmless (n : Nat) : Harmless (Reg.plOutStatusState n) ∧ Harmless (Reg.plPpsStatusState n) := by
  refine ⟨harmless_of_addr ?_ ?_, harmless_of_addr ?_ ?_⟩ <;> simp only [Reg.plOutStatusState, Reg.plPpsStatusState] <;> omega

theorem outSet_healthy (h : Healthy D s) (n v : Nat) : Healthy D (outSet n v s) := by
  have hedge := placeEdge_healthy h n (outState n s) v
  have hstate := ite_k (c := n < 8) (hedge.setF (outState_harmless n).1 v) (hedge.setF (outState_harmless (n - 8)).2 v)
  exact ite_k h (raiseEv_keeps (healthy_keeps D) (sub_of rfl) hstate)

theorem outRefresh_healthy (h : Healthy D s) (n : Nat) : Healthy D (outRefresh n s) := outSet_healthy (outSquelch_healthy h n) _ _

theorem outsRefresh_healthy (h : Healthy D s) : Healthy D (outsRefresh s) := foldl_k h (fun _ n hn => outRefresh_healthy hn n)

theorem outsRestart_healthy (h : Healthy D s) : Healthy D (outsRestart s) :=
  ite_k (outsRefresh_healthy (foldl_k h (fun _ n hn => ite_k (hn.setOut n _) hn))) (outsRefresh_healthy h)

/-! ### Frequencies -/

theorem Healthy.setDom (h : Healthy D s) (d : Nat) (x : Domain) : Healthy D (s.setDom d x) := State.setDom_keeps (healthy_keeps D) (sub_of rfl) h

theorem mapper_harmless (d : Nat) : ∀ f ∈ segFields d, Harmless f := by
  have haddr : ∀ f ∈ segFields d, f.addr ≠ 0x120000 ∧ f.addr % 256 ≠ 0 := by
    rw [segFields_min]
    have hle : min d 2 < 3 := by omega
    revert hle
    generalize min d 2 = k
    revert k
    decide
  exact fun f hf => harmless_of_addr (haddr f hf).1 (.inl (haddr f hf).2)

theorem openSegment_healthy (h : Healthy D s) (d x : Nat) (t r : Int) : Healthy D (openSegment d x t r s) := by
  have hmem := mapper_harmless d
  unfold openSegment
  dsimp only
  iterate 9 refine Healthy.setF ?_ (hmem _ (by simp [segFields, pair, triple])) _
  exact h.setDom _ _

theorem setRate_healthy (h : Healthy D s) (d : Nat) (r : Int) : Healthy D (setRate d r s) :=
  ite_k (h.setDom _ _) (ite_k (openSegment_healthy (h.setDom _ _) _ _ _ _) (h.setDom _ _))

theorem setServoRate_healthy (h : Healthy D s) (d : Nat) (r : Int) : Healthy D (setServoRate d r s) := setRate_healthy (h.setDom _ _) _ _

theorem rebaseLoop_healthy (h : Healthy D s) (d : Nat) (v : Int) : Healthy D (rebaseLoop d v s) := h.setDom _ _

theorem setNtw_healthy (h : Healthy D s) (v : Int) : Healthy D (setNtw v s) := by
  unfold setNtw
  extract_lets w u
  have hu : Healthy D u := ite_k h (raiseEv_keeps (healthy_keeps D) (sub_of rfl) h)
  exact (hu.setF (f := word Reg.plNtw) (harmless_of_addr (by decide) (by decide)) _).setF (f := word (Reg.plNtw + 4))
    (harmless_of_addr (by decide) (by decide)) _

theorem takeFreq_healthy (h : Healthy D s) (d : Nat) (v : Int) : Healthy D (takeFreq d v s) :=
  ite_k (rebaseLoop_healthy (setNtw_healthy h _) _ _) (rebaseLoop_healthy (setServoRate_healthy h _ _) _ _)

/-! ### The states of the domains -/

theorem showBound_fields (d st : Nat) (s : State) : BlockFields 3 [Reg.tbDStatusQc d] s (showBound d st s) := by
  have K := blockFields_keeps (b := 3) (by decide) [Reg.tbDStatusQc d] s
  unfold showBound
  extract_lets +onlyGivenNames -merge -underBinder e dom u v q w x
  have hv : BlockFields 3 [Reg.tbDStatusQc d] s v := by
    have hu : BlockFields 3 [Reg.tbDStatusQc d] s u := State.setRd_keeps K (sub_of rfl) (.refl 3 _ s)
    unfold v
    clear_value e
    split
    · exact set64_k K 4 part_rsDBound_2 (sub_of rfl) hu
    · exact set64_k K 4 part_rsDBound_2 (sub_of rfl) (State.draw_keeps K (sub_of rfl) hu)
  have hx : BlockFields 3 [Reg.tbDStatusQc d] s x := setF_k K 4 part_rsDSelQc (sub_of rfl) (hv.setF (f := Reg.tbDStatusQc d) (by simp) q)
  exact ite_k (noteQuality_keeps K (sub_of rfl) hx) hx

/-- A state other than FAULT is shown. -/
theorem showBound_healthy (h : Healthy D s) (d : Nat) {st : Nat} (hst : st < 7) : Healthy D (showBound d st s) where
  locked := (isF_of_getF (showBound_keeps (same_keeps .rPl s) (sub_of rfl) (Part.same_refl .rPl s) _ rfl)).trans h.locked
  clock := (isF_of_getF (showBound_keeps (same_keeps .rPl s) (sub_of rfl) (Part.same_refl .rPl s) _ rfl)).trans h.clock
  ever := (congrArg Dpll.everLocked (showBound_keeps (same_keeps .dpll s) (sub_of rfl) rfl)).trans h.ever
  noFault k hk := by
    by_cases hkey : (Reg.tbDStatusQc k).key = (Reg.tbDStatusQc d).key
    · have hsame : (showBound d st s).qcState k = (showBound d st s).qcState d := by
        unfold State.qcState State.qc
        rw [State.getF_eq, State.getF_eq, hkey]
      rw [hsame, showBound_qcState d (by omega)]
      omega
    · exact (congrArg (· / 32) (showBound_fields d st s _ part_tbDStatusQc (by simpa using hkey))).trans_ne (h.noFault k hk)

theorem setQc_healthy (h : Healthy D s) (d : Nat) {st : Nat} (hst : st < 7) (cause : Nat) : Healthy D (setQc d st cause s) := by
  have K := healthy_keeps D
  unfold setQc
  extract_lets +onlyGivenNames -merge -underBinder old
  refine ite_k (checkMinute_keeps K (sub_of rfl) h) ?_
  extract_lets +onlyGivenNames -merge -underBinder ho dom s1 s2 s3 s4
  have h1 : Healthy D s1 := State.setRd_keeps K (sub_of rfl) h
  have h4 : Healthy D s4 := evdSend_keeps K (sub_of rfl) (raiseEv_keeps K (sub_of rfl) (checkMinute_keeps K (sub_of rfl) (showBound_healthy h1 d hst)))
  exact ite_k (tstatFollow_keeps K (sub_of rfl) (outsRefresh_healthy (raiseBit_k K 0 part_hstIrqStatusQcChg (sub_of rfl) h4))) h4

theorem enterHoldover_healthy (h : Healthy D s) (d cause : Nat) : Healthy D (enterHoldover d cause s) := by
  have K := healthy_keeps D
  unfold enterHoldover
  refine ite_k h ?_
  extract_lets u
  have hu : Healthy D u := readWindow_keeps K (sub_of rfl) h
  clear_value u
  split
  case h_1 v _ => exact setQc_healthy (takeFreq_healthy (State.setRd_keeps K (sub_of rfl) hu) d v) d (by decide) cause
  case h_2 => exact setQc_healthy hu d (by decide) cause

/-! ### The selector -/

theorem lock_harmless (d : Nat) : Harmless (Reg.plDStatusCount d) ∧ Harmless (Reg.plDStatusLock d) ∧ Harmless (Reg.plDStatusFacq d) ∧
    Harmless (Reg.plDStatusSlow d) := by
  refine ⟨harmless_of_addr ?_ ?_, harmless_of_addr ?_ ?_, harmless_of_addr ?_ ?_, harmless_of_addr ?_ ?_⟩ <;>
    simp only [Reg.plDStatusCount, Reg.plDStatusLock, Reg.plDStatusFacq, Reg.plDStatusSlow] <;> omega

theorem dropLock_healthy (h : Healthy D s) (d : Nat) : Healthy D (dropLock d s) := by
  obtain ⟨hcount, hlock, -⟩ := lock_harmless d
  unfold dropLock
  extract_lets r u
  have hu : Healthy D u := State.setRd_keeps (healthy_keeps D) (sub_of rfl) (h.setF hcount 0)
  exact ite_k (raiseEv_keeps (healthy_keeps D) (sub_of rfl) (hu.setF hlock _)) hu

theorem gradeLock_healthy (h : Healthy D s) (d : Nat) : Healthy D (gradeLock d s) := by
  unfold gradeLock
  split
  case h_1 => exact h
  case h_2 => exact ite_k (setQc_healthy h d (by decide) 2) (ite_k (setQc_healthy h d (by decide) 1) (checkMinute_keeps (healthy_keeps D) (sub_of rfl) h))

theorem startAcquiring_healthy (h : Healthy D s) (d : Nat) : Healthy D (startAcquiring d s) := ite_k (setQc_healthy h d (by decide) 1) h

theorem beginTxn_healthy (h : Healthy D s) (d i cause : Nat) : Healthy D (beginTxn d i cause s) := by
  have K := healthy_keeps D
  obtain ⟨-, -, hfacq, hslow⟩ := lock_harmless d
  unfold beginTxn
  extract_lets +onlyGivenNames -merge -underBinder old e r bnd s1 s2 s3 s4 s5 s6
  have h1 : Healthy D s1 := showSel_keeps K (sub_of rfl) h
  have h2 : Healthy D s2 := setB_k K 4 part_rsDSelQueued (sub_of rfl) (setB_k K 4 part_rsDSelTxn (sub_of rfl) h1)
  have h4 : Healthy D s4 := dropLock_healthy (State.setRd_keeps K (sub_of rfl) h2) d
  have h5 : Healthy D s5 := (h4.setF hfacq _).setF hslow _
  have h6 : Healthy D s6 := raiseEv_keeps K (sub_of rfl) h5
  exact checkMinute_keeps K (sub_of rfl) (startAcquiring_healthy h6 d)

theorem selectNone_healthy (h : Healthy D s) (d cause : Nat) : Healthy D (selectNone d cause s) := by
  have K := healthy_keeps D
  obtain ⟨-, -, hfacq, -⟩ := lock_harmless d
  unfold selectNone
  extract_lets +onlyGivenNames -merge -underBinder old s1 s2 s3 s4 q
  have h1 : Healthy D s1 := showSel_keeps K (sub_of rfl) (setB_k K 4 part_rsDSelQueued (sub_of rfl) h)
  have h3 : Healthy D s3 := (dropLock_healthy h1 d).setF hfacq 0
  have h4 : Healthy D s4 := raiseEv_keeps K (sub_of rfl) h3
  exact ite_k (enterHoldover_healthy h4 d 1) h4

theorem settleState_healthy (h : Healthy D s) (d : Nat) : Healthy D (settleState d s) := by
  have hminute : Healthy D (checkMinute d s) := checkMinute_keeps (healthy_keeps D) (sub_of rfl) h
  exact ite_k hminute (ite_k (ite_k (enterHoldover_healthy h d 1) hminute) (ite_k (setQc_healthy h d (by decide) 1) (gradeLock_healthy h d)))

theorem evaluate_healthy (h : Healthy D s) (d : Nat) : Healthy D (evaluate d s) := by
  have K := healthy_keeps D
  have hqueued : ∀ b, Healthy D (s.setB (Reg.rsDSelQueued d) b) := fun b => setB_k K 4 part_rsDSelQueued (sub_of rfl) h
  unfold evaluate
  extract_lets +onlyGivenNames -merge -underBinder ch
  clear_value ch
  refine ite_k (ite_k h (hqueued true)) (ite_k (settleState_healthy (hqueued false) d) ?_)
  cases ch with
  | none => exact selectNone_healthy h d _
  | some i => exact ite_k (checkMinute_keeps K (sub_of rfl) (hqueued true)) (beginTxn_healthy h d i _)

/-! ### The domains leave FAULT -/

/-- A domain that leaves FAULT, or was not in it, is not in FAULT. -/
theorem leaveFault_healthy (h : Healthy D s) (d : Nat) : Healthy (d :: D) (leaveFault d s) := by
  have K := healthy_keeps D
  have hjoin : ∀ {u : State}, Healthy D u → u.qcState d ≠ 7 → Healthy (d :: D) u := fun hu hd =>
    ⟨hu.locked, hu.clock, hu.ever, List.forall_mem_cons.2 ⟨hd, hu.noFault⟩⟩
  have hset : ∀ {u : State} {st : Nat}, Healthy D u → st < 7 → Healthy (d :: D) (setQc d st 5 u) := fun {u st} hu hst =>
    hjoin (setQc_healthy hu d hst 5) (by rw [setQc_qcState d (by omega) (by decide)]; omega)
  unfold leaveFault
  split
  case isTrue hq => exact hjoin h hq
  case isFalse =>
    split
    case isTrue => exact hset h (by decide)
    case isFalse =>
      extract_lets u
      have hu : Healthy D u := readWindow_keeps K (sub_of rfl) h
      clear_value u
      split
      case h_1 v _ => exact hset (takeFreq_healthy (State.setRd_keeps K (sub_of rfl) hu) d v) (by decide)
      case h_2 => exact hset hu (by decide)

theorem showFine_healthy (h : Healthy D s) (fine : Nat) (margin : Bool) : Healthy D (showFine fine margin s) := by
  have hfine : Healthy D (s.setF Reg.plStatusFine fine) := h.setF ⟨by decide, by decide, qc_apart (by decide)⟩ fine
  exact ite_k (raiseEv_keeps (healthy_keeps D) (sub_of rfl) (hfine.setF ⟨by decide, by decide, qc_apart (by decide)⟩ _)) hfine

end

/-! ### INNER_LOCK (R315) -/

/-- The state in which the inner loop has locked. -/
def innerUp (s : State) : State :=
  let t := (s.setB Reg.plStatusInnerLock true).setB Reg.plStatusSysxoOk true
  { t with dpll := { t.dpll with everLocked := true } }

theorem innerUp_healthy (s : State) : Healthy [] (innerUp s) :=
  ⟨(isF_setF_ne (s.setB Reg.plStatusInnerLock true) (f := Reg.plStatusSysxoOk) (g := Reg.plStatusInnerLock) 1 (by decide)).trans
      (isF_setB_same s Reg.plStatusInnerLock true rfl),
    isF_setB_same (s.setB Reg.plStatusInnerLock true) Reg.plStatusSysxoOk true rfl, rfl,
    fun _ hd => absurd hd (List.not_mem_nil)⟩

theorem innerLock_goes {s : State} (hloss : s.innerLocked = false) (hidle : s.isF Reg.plStatusSearch = false) :
    ¬ (s.innerLocked || s.isF Reg.plStatusSearch) = true := by
  rw [hloss, hidle]
  decide

theorem innerLock_healthy {fine : Nat} {margin : Bool} {s : State} (hloss : s.innerLocked = false) (hidle : s.isF Reg.plStatusSearch = false) :
    Nx (Healthy [1, 0]) (exec (.innerLock fine margin) s) := by
  have K := healthy_keeps
  show Nx (Healthy [1, 0]) (execInnerLock fine margin s)
  unfold execInnerLock
  rw [if_neg (innerLock_goes hloss hidle)]
  extract_lets +onlyGivenNames -merge -underBinder u src v w x y z
  have hv : Healthy [] v := innerUp_healthy s
  have hx : Healthy [] x := showFine_healthy (raiseEv_keeps (K []) (sub_of rfl) hv) fine margin
  have hy : Healthy [] y := foldl_k hx (fun _ k hk => ite_k (hk.setF (retune_harmless k) _) hk)
  have hz : Healthy [] z := retuneDone_keeps (K []) (sub_of rfl) (outsRestart_healthy hy)
  have hdomains : Healthy [1, 0] (evaluateAll (leaveFault 1 (leaveFault 0 z))) :=
    evaluate_healthy (evaluate_healthy (leaveFault_healthy (leaveFault_healthy hz 0) 1) 0) 1
  exact next_k (stampStatusAll_keeps (K [1, 0]) (sub_of rfl) (tstatFollow_keeps (K [1, 0]) (sub_of rfl) hdomains))

theorem innerLock_locks {fine : Nat} {margin : Bool} {s : State} (hloss : s.innerLocked = false) (hidle : s.isF Reg.plStatusSearch = false) :
    ∃ t, exec (.innerLock fine margin) s = .next t ∧ Healthy [1, 0] t :=
  next_only (innerLock_healthy hloss hidle) (if_neg (innerLock_goes hloss hidle))

end Sys2Proof.Machine

/-! SUPPORT. The inner loop, the servo and the outputs, clause by clause. -/

namespace Sys2Proof.Machine

/-- Settles O35, row by row: each row at its event, within its frame; otherwise each leaves the state as it is. -/
theorem loopsAndOutputsRun : Obligations.LoopsAndOutputsRun := by
  unfold Obligations.LoopsAndOutputsRun
  refine ⟨fun fine margin s hloss hidle => framed (execInnerLock_keeps (frame_keeps _ s) (sub_of rfl) (FrameOf.refl _ s)) ?lock,
    fun fine margin s h => if_pos ?locked,
    fun s h => framed (execInnerLockLoss_keeps (frame_keeps _ s) (sub_of rfl) (FrameOf.refl _ s)) ⟨_, rfl, loseInner_leaves h⟩,
    fun s h => congrArg Host.Outcome.next (loseInner_unlocked h),
    fun missing s => framed (execSysxoFault_keeps (frame_keeps _ s) (sub_of rfl) (FrameOf.refl _ s)) (sysxoFault_leaves missing s),
    fun band s hsearch h => framed (execBandSearchDone_keeps (frame_keeps _ s) (sub_of rfl) (FrameOf.refl _ s))
      ⟨_, bandSearchDone_chooses hsearch h, bandChosen_leaves band s⟩,
    fun band s h => bandSearchDone_stays h,
    fun fine margin s hdue hheld hrun => framed (execServoUpdate_keeps (frame_keeps _ s) (sub_of rfl) (FrameOf.refl _ s))
      (servoUpdate_sums hdue hheld hrun),
    fun fine margin s hdue hheld hrun hx => framed (execServoUpdate_keeps (frame_keeps _ s) (sub_of rfl) (FrameOf.refl _ s))
      (servoUpdate_ntw hdue hheld hrun hx),
    fun fine margin s hdue hheld hrun hx => framed (execServoUpdate_keeps (frame_keeps _ s) (sub_of rfl) (FrameOf.refl _ s))
      (servoUpdate_xfer hdue hheld hrun hx),
    fun fine margin s h => servoUpdate_waits h,
    fun k s hk hlock hden => framed (execOsynLock_keeps (frame_keeps _ s) (sub_of rfl) (FrameOf.refl _ s)) (osynLock_locks hk hlock hden),
    fun k s hk hlock hden hinner => osynLock_alone hk hlock hden hinner,
    fun k s h => if_pos h,
    fun out x s hout hsq hclear hdue hmask => framed (execSquelchRelease_keeps (frame_keeps _ s) (sub_of rfl) (FrameOf.refl _ s))
      ⟨_, squelchRelease_due hout hsq hclear hdue, outRefresh_free ?unsquelched ?mask⟩,
    fun out x s hout hsq hclear hdue => squelchRelease_due hout hsq hclear hdue,
    fun out s h => squelchRelease_waits h,
    fun edge n s hn htod hrun hdue hwhole => todMessage_sends hn htod hrun hdue hwhole,
    fun edge n s hn h => todMessage_silent hn h,
    fun second x s hedge hsoon => todRxLabel_labels hedge hsoon,
    fun second s h => todRxLabel_late h⟩
  case lock =>
    obtain ⟨t, hexec, hup⟩ := innerLock_locks hloss hidle
    exact ⟨t, hexec, hup.locked, hup.clock, hup.ever, hup.noFault 0 (by simp), hup.noFault 1 (by simp)⟩
  case locked => simpa using h
  case unsquelched => rw [out_setOut_same]
  case mask => exact hmask

end Sys2Proof.Machine

/-! SUPPORT. What memory protection may find on the way (R493, R597, R619) leaves alone of the frames in reception, in transmission and in the pool.
A count reads and writes its word, a lookup reads its entries, and an uncorrectable word of the pool, of a timed-hold frame or of the rules marks frames or
drops a rule: so every operation that counts can reach those parts, but only to mark what stands there. A predicate that survives such marks, and the
updates of all other parts, survives the operation. -/

namespace Sys2Proof.Machine

/-- The state with those frames of the pool marked broken that `hit` names. -/
def poolMarked (hit : Nat → Frame → Bool) (s : State) : State :=
  { s with bf := { s.bf with frames := s.bf.frames.map (fun e => (e.1, e.2.map (fun f => if hit e.1 f then { f with broken := true } else f))) } }

/-- The state with every frame in transmission changed by `f`. -/
def sendingMarked (f : TxFrame → TxFrame) (s : State) : State :=
  { s with sw := { s.sw with tx := s.sw.tx.map (fun e => (e.1, e.2.map f)) } }

/-- The mask of every part but the pipeline's and the pool's. -/
def besidesFrames : Nat := 2 ^ 64 - 1 - 2 ^ Part.sw.ctorIdx - 2 ^ Part.bf.ctorIdx

/-- `P` is kept by the updates of all parts beside the frames, and by what memory protection does to the frames. -/
structure Quiet (P : State → Prop) : Prop where
  others : Keeps P besidesFrames
  pool : ∀ (s : State) (hit : Nat → Frame → Bool), P s → P (poolMarked hit s)
  rules : ∀ (s : State) (r : List (Nat × Option Rule)), P s → P { s with sw := { s.sw with rules := r } }
  sending : ∀ (s : State) (f : TxFrame → TxFrame), P s → P (sendingMarked f s)

section

variable {P : State → Prop} (K : Quiet P)
include K

/-! ### Memory protection -/

theorem Quiet.raise {src sev code fs s} (h : P s) : P (raiseEv src sev code fs s) := raiseEv_keeps K.others (sub_of rfl) h

theorem poisonChip_quiet {c s} (h : P s) : P (poisonChip c s) :=
  K.raise (quarChip_keeps K.others (sub_of rfl) (K.pool s (fun _ f => f.cells.contains c) h))

theorem poisonDdr_quiet {c s} (h : P s) : P (poisonDdr c s) := by
  unfold poisonDdr
  extract_lets +onlyGivenNames -merge -underBinder hit b u v w
  have hu : P u := K.pool s (fun k _ => hit.contains k) h
  exact K.raise (ite_k hu (showQuar_keeps K.others (sub_of rfl) (upd_mp K.others (sub_of rfl) hu)))

theorem poisonHold_quiet {desc c s} (h : P s) : P (poisonHold desc c s) := by
  unfold poisonHold
  extract_lets +onlyGivenNames -merge -underBinder mark
  refine foldl_k ?_ (fun u _ hu => quarHold_keeps K.others (sub_of rfl) hu)
  have hsw := K.sending s (fun t => if t.kind = 0 then t else { t with frame := mark t.frame }) h
  exact upd_releases K.others (sub_of rfl) (s := { sendingMarked _ s with merges := _ }) (upd_merges K.others (sub_of rfl) hsw)

theorem mpAct_quiet {w s} (h : P s) : P (mpAct w s) := by
  have C := K.others
  unfold mpAct
  extract_lets +onlyGivenNames -merge -underBinder m a acted ue
  have hacted : ∀ {t}, P t → P (acted t) := fun ht => State.setMemSum_keeps C (sub_of rfl) ht
  have hue : ∀ {k loc sev t}, P t → P (ue k loc sev t) := fun ht => countRaw_keeps C (sub_of rfl) (K.raise ht)
  have hwrites : ∀ {l : List Nat} {f : Nat → Nat} {t}, P t → P (l.foldl (fun s k => mpWrite (f k) s) t) := fun ht =>
    foldl_k ht (fun _ _ hu => mpWrite_keeps C (sub_of rfl) hu)
  clear_value m a acted ue
  refine ite_k (hacted (poisonChip_quiet K h)) ?_
  refine ite_k (hacted (poisonHold_quiet K h)) ?_
  refine ite_k (hacted (poisonHold_quiet K h)) ?_
  refine ite_k (hacted (foldl_k h (fun _ _ hu => poisonChip_quiet K hu))) ?_
  refine ite_k ?slots (ite_k (ite_k (hacted (hue (upd_ft C (sub_of rfl) h))) h) ?_)
  case slots =>
    split
    · exact h
    · exact hacted (hue (hwrites (upd_ft C (sub_of rfl) h)))
  refine ite_k ?nexthops (ite_k ?rules ?_)
  case nexthops =>
    split
    · exact h
    · exact hacted (hue (upd_ft C (sub_of rfl) h))
  case rules =>
    split
    · exact h
    · exact hacted (hue (K.rules _ _ (hwrites h)))
  refine ite_k (ite_k (hacted (upd_refs C (sub_of rfl) h)) h) ?_
  refine ite_k (K.raise (setF_k C 18 part_ctOvf (sub_of rfl) (mpWrite_keeps C (sub_of rfl) (upd_counters C (sub_of rfl) h)))) ?_
  refine ite_k (hacted (upd_mp C (sub_of rfl) h)) ?_
  exact ite_k (upd_mbx C (sub_of rfl) h) (hacted (poisonDdr_quiet K h))

theorem mpLost_quiet {w scrub s} (h : P s) : P (mpLost w scrub s) := by
  have C := K.others
  have hlisted : P (mpList w 1 (s.setMemSum (mpMem w) { s.memSum (mpMem w) with ue := (s.memSum (mpMem w)).ue + 1 })) :=
    mpList_keeps C (sub_of rfl) (State.setMemSum_keeps C (sub_of rfl) h)
  exact mpAct_quiet K (mpEvent_keeps C (sub_of rfl) (set64_k C 19 part_mpLastUe_2 (sub_of rfl) (countRaw_keeps C (sub_of rfl) hlisted)))

theorem mpRead_quiet {w scrub s} (h : P s) : P (mpRead w scrub s).2 := by
  unfold mpRead
  refine ite2_k h ?_
  extract_lets +onlyGivenNames -merge -underBinder k ks
  have hks : P ks.2 := ite2_k (State.draw_keeps K.others (sub_of rfl) h) h
  exact ite2_k (mpCorrection_keeps K.others (sub_of rfl) hks) (ite2_k (mpLost_quiet K hks) hks)

theorem mergeFlush_quiet {e s} (h : P s) : P (mergeFlush e s) := by
  have hu := upd_mp K.others (sub_of rfl) h (x33 := { s.mp with merge := s.mp.merge.filter (fun y => y.word ≠ e.word) })
  exact ite_k (mpLost_quiet K hu) (mpWrite_keeps K.others (sub_of rfl) hu)

theorem mpPartial_quiet {w bytes s} (h : P s) : P (mpPartial w bytes s) := by
  unfold mpPartial
  extract_lets +onlyGivenNames -merge -underBinder old e rest
  refine ite_k (mergeFlush_quiet K (upd_mp K.others (sub_of rfl) h)) ?_
  exact upd_mp K.others (sub_of rfl) (ite_k h (mergeFlush_quiet K h))

/-! ### Counts -/

theorem count_quiet {c n s} (h : P s) : P (count c n s) :=
  ite_k (countRaw_keeps K.others (sub_of rfl) h) (mpWrite_keeps K.others (sub_of rfl) (countRaw_keeps K.others (sub_of rfl) (mpRead_quiet K h)))

theorem countRx_quiet {n d s} (h : P s) : P (countRx n d s) := count_quiet K (count_quiet K (count_quiet K h))

theorem countTx_quiet {n len stomped s} (h : P s) : P (countTx n len stomped s) :=
  ite_k (count_quiet K h) (count_quiet K (count_quiet K h))

/-! ### Evidence, capture and latency -/

theorem evdDrop_quiet {s} (h : P s) : P (evdDrop s) := by
  unfold evdDrop
  extract_lets +onlyGivenNames -merge -underBinder b u
  have hu : P u := count_quiet K (upd_evd K.others (sub_of rfl) h)
  exact ite_k hu (K.raise (upd_evd K.others (sub_of rfl) hu))

theorem evdSend_quiet {rtype rflags src stamp fs s} (h : P s) : P (evdSend rtype rflags src stamp fs s) :=
  ite_k (count_quiet K (upd_evd K.others (sub_of rfl) h)) (ite_k (evdDrop_quiet K h) (upd_evd K.others (sub_of rfl) h))

theorem nrItem_quiet {n head conts s} (h : P s) : P (nrItem n head conts s) := by
  have C := K.others
  unfold nrItem
  refine ite_k h (ite_k ?full ?room)
  case full =>
    extract_lets +onlyGivenNames -merge -underBinder u v r
    extract_lets +onlyGivenNames -merge -underBinder w
    have hw : P w := State.setNetRing_keeps C (sub_of rfl) (count_quiet K (addSat_k C 17 part_capNrDrop (sub_of rfl) h))
    exact ite_k (K.raise hw) hw
  case room =>
    extract_lets +onlyGivenNames -merge -underBinder r hd ph u v w x d y
    have hv : P v := foldl_k (nrPut_keeps C (sub_of rfl) h) (fun _ _ ht => nrPut_keeps C (sub_of rfl) ht)
    have hx : P x := State.setNetRing_keeps C (sub_of rfl) (State.dma_keeps C (sub_of rfl) hv)
    exact nrSignal_keeps C (sub_of rfl) (count_quiet K (State.setRing_keeps C (sub_of rfl) hx))

theorem capWrite_quiet {n trunc conts ev i s} (h : P s) : P (capWrite n trunc conts ev i s) :=
  nrItem_quiet K (ite_k (noteBase_keeps K.others (sub_of rfl) (nrItem_quiet K h)) h)

theorem selectOne_quiet {i k s} (h : P s) : P (selectOne i k s) := by
  unfold selectOne
  extract_lets +onlyGivenNames -merge -underBinder x
  refine ite_k h ?_
  extract_lets +onlyGivenNames -merge -underBinder u
  have hu : P u := State.setSelector_keeps K.others (sub_of rfl) h
  exact ite_k hu (capWrite_quiet K (ite_k (evdSend_quiet K hu) hu))

theorem captureFrame_quiet {i s} (h : P s) : P (captureFrame i s) := foldl_k h (fun _ _ hu => selectOne_quiet K hu)

theorem sampleOne_quiet {egress src e i dp invalid k s} (h : P s) : P (sampleOne egress src e i dp invalid k s) := by
  have C := K.others
  unfold sampleOne
  extract_lets +onlyGivenNames -merge -underBinder ins
  refine ite_k h ?_
  extract_lets +onlyGivenNames -merge -underBinder c n u
  have hu : P u := upd_ctSeen C (sub_of rfl) h
  refine ite_k hu (ite_k (addSat_k C 18 part_ctLsInvalid (sub_of rfl) hu) ?_)
  extract_lets +onlyGivenNames -merge -underBinder l v w x y
  have hw : P w := set64_k C 18 part_ctLsSum_2 (sub_of rfl) (set64_k C 18 part_ctLsCount_2 (sub_of rfl) hu)
  have hx : P x := set64_k C 18 part_ctLsMin_2 (sub_of rfl) hw
  exact count_quiet K (set64_k C 18 part_ctLsLast_2 (sub_of rfl) (set64_k C 18 part_ctLsMax_2 (sub_of rfl) hx))

theorem latencySample_quiet {egress src e i dp invalid s} (h : P s) : P (latencySample egress src e i dp invalid s) :=
  foldl_k h (fun _ _ hu => sampleOne_quiet K hu)

end

end Sys2Proof.Machine

/-! SUPPORT. The same of the groups and the pool: merge groups, release groups and copies that wait. -/

namespace Sys2Proof.Machine

section

variable {P : State → Prop} (K : Quiet P)
include K

/-! ### Merge groups -/

theorem fmDiscard_quiet {g kind h s} (hs : P s) : P (fmDiscard g kind h s) := by
  have C := K.others
  unfold fmDiscard
  extract_lets +onlyGivenNames -merge -underBinder off u n x v w
  have hu : P u := count_quiet K (fmRemove_keeps C (sub_of rfl) hs)
  have hv : P v := State.setMg_keeps C (sub_of rfl) hu
  have hw : P w := ite_k (ite_k (K.raise hv) hv) hu
  exact showMerge_keeps C (sub_of rfl) (ite_k (evdSend_quiet K hw) hw)

/-- What taking timed-hold cells for a merge frame leaves. -/
theorem fmTake_quiet {g f n s} {r : Frame × State} (hs : P s) (h : fmTake g f n s = some r) : P r.2 :=
  fmTake_keeps K.others (sub_of rfl) hs r h

theorem fmWhole_quiet {g f good s} (hs : P s) : P (fmWhole g f good s) := by
  unfold fmWhole
  split
  · exact hs
  · refine ite_k (fmDiscard_quiet K hs) (ite_k (fmDiscard_quiet K hs) ?_)
    split
    · exact fmDiscard_quiet K hs
    · next htake => exact showMerge_keeps K.others (sub_of rfl) (State.setMg_keeps K.others (sub_of rfl) (fmTake_quiet K hs htake))

theorem fmEnter_quiet {g f s} (hs : P s) : P (fmEnter g f s).2 := by
  have C := K.others
  unfold fmEnter
  extract_lets +onlyGivenNames -merge -underBinder p
  refine ite2_k (count_quiet K hs) (ite2_k (count_quiet K hs) ?_)
  extract_lets +onlyGivenNames -merge -underBinder x trim k0 k late h u
  have hu : P u := State.setMg_keeps C (sub_of rfl) hs
  split
  · exact mk2_k (fmDiscard_quiet K hu)
  next htake =>
    extract_lets +onlyGivenNames -merge -underBinder x1 v n
    have hv : P v := State.setMg_keeps C (sub_of rfl) (fmTake_quiet K hu htake)
    extract_lets +onlyGivenNames -merge -underBinder x2 w
    have hw : P w := count_quiet K (State.setMg_keeps C (sub_of rfl) hv)
    extract_lets +onlyGivenNames -merge -underBinder y z
    have hy : P y := ite_k (ite_k (K.raise hw) hw) hv
    have hz : P z := showMerge_keeps C (sub_of rfl) hy
    refine ite2_k ?_ (mk2_k hz)
    split
    · exact mk2_k (fmDiscard_quiet K hz)
    · exact mk2_k hz

theorem fmSent_quiet {g f s} (hs : P s) : P (fmSent g f s) := showMerge_keeps K.others (sub_of rfl) (count_quiet K (count_quiet K hs))

/-! ### Release groups -/

theorem erPut_quiet {g tIn body nss s} (hs : P s) : P (erPut g tIn body nss s) :=
  have hu : P (if s.isF (Reg.erGCfgEvidence g) then evdSend 0x03 0 115 s.dtt [(16, body)] s else s) := ite_k (evdSend_quiet K hs) hs
  ite_k (capWrite_quiet K hu) hu

theorem erRecord_quiet {g kind x s} (hs : P s) : P (erRecord g kind x s) :=
  erPut_quiet K (ite_k (noteBase_keeps K.others (sub_of rfl) (erPut_quiet K hs)) hs)

theorem erEnd_quiet {g kind x s} (hs : P s) : P (erEnd g kind x s) :=
  showRelease_keeps K.others (sub_of rfl) (erRecord_quiet K (State.setRg_keeps K.others (sub_of rfl) hs))

theorem erDiscard_quiet {g kind x s} (hs : P s) : P (erDiscard g kind x s) := by
  unfold erDiscard
  extract_lets +onlyGivenNames -merge -underBinder u n y v w
  have hu : P u := count_quiet K hs
  have hv : P v := State.setRg_keeps K.others (sub_of rfl) hu
  exact erEnd_quiet K (ite_k (ite_k (K.raise hv) hv) hu)

/-- What taking timed-hold cells for a release frame leaves. -/
theorem erTake_quiet {g f n s} {r : Frame × State} (hs : P s) (h : erTake g f n s = some r) : P r.2 :=
  erTake_keeps K.others (sub_of rfl) hs r h

theorem erTarget_quiet {g x p} (hx : P x.2) : P (erTarget g x p).2 := by
  have hnote : ∀ {c}, P (erLateNote g (count c 1 x.2)) := erLateNote_keeps K.others (sub_of rfl) (count_quiet K hx)
  exact ite2_k hx (ite2_k (count_quiet K hx) (ite2_k hnote hnote))

theorem erFinish_quiet {g x s} (hs : P s) : P (erFinish g x s) := ite_k (erEnd_quiet K hs) (showRelease_keeps K.others (sub_of rfl) hs)

theorem erDecide_quiet {g x s} (hs : P s) : P (erDecide g x s) := by
  have C := K.others
  unfold erDecide
  extract_lets +onlyGivenNames -merge -underBinder f b rg ps y u downFails failing
  have hu : P u := erReplace_keeps C (sub_of rfl) (addWrap_k C 15 part_erGFseq (sub_of rfl) hs)
  refine ite_k ?dropped ?decided
  case dropped =>
    extract_lets +onlyGivenNames -merge -underBinder v n r w z
    have hv : P v := foldl_k hu (fun _ _ ht => ite_k (count_quiet K ht) ht)
    have hw : P w := count_quiet K (State.setRg_keeps C (sub_of rfl) hv)
    exact erEnd_quiet K (ite_k (K.raise hw) hw)
  case decided =>
    extract_lets +onlyGivenNames -merge -underBinder r v w
    have hr : P r.2 := foldl_g (Q := fun r : RelFrame × State => P r.2) hu (fun _ _ ht => erTarget_quiet K ht)
    have hv : P v := count_quiet K (erReplace_keeps C (sub_of rfl) hr)
    exact erFinish_quiet K (ite_k (count_quiet K hv) hv)

theorem erWhole_quiet {g f good s} (hs : P s) : P (erWhole g f good s) := by
  have C := K.others
  unfold erWhole
  split
  · exact hs
  · refine ite_k (erDiscard_quiet K hs) ?_
    split
    · exact erDiscard_quiet K hs
    next htake =>
      extract_lets +onlyGivenNames -merge -underBinder y u
      have hu : P u := erReplace_keeps C (sub_of rfl) (erTake_quiet K hs htake)
      exact ite_k (showRelease_keeps C (sub_of rfl) (count_quiet K (State.setRg_keeps C (sub_of rfl) hu)))
        (ite_k (erDiscard_quiet K hu) (erDecide_quiet K hu))

theorem erEnter_quiet {g f s} (hs : P s) : P (erEnter g f s).2 := by
  unfold erEnter
  refine ite2_k (count_quiet K hs) (ite2_k (count_quiet K hs) ?_)
  extract_lets +onlyGivenNames -merge -underBinder x
  split
  · exact erDiscard_quiet K hs
  · next htake => exact showRelease_keeps K.others (sub_of rfl) (State.setRg_keeps K.others (sub_of rfl) (erTake_quiet K hs htake))

theorem erSent_quiet {g p fseq bad ok s} (hs : P s) : P (erSent g p fseq bad ok s) := by
  unfold erSent
  split
  · exact hs
  · split
    · exact hs
    · exact erFinish_quiet K (erReplace_keeps K.others (sub_of rfl) (count_quiet K hs))

/-! ### Copies of the pool, where `P` does not speak of the pool -/

section

variable (B : Keeps P (without .sw))
include B

theorem discardCopy_quiet {k off c s} (hs : P s) : P (discardCopy k off c s) :=
  count_quiet K (endCopy_keeps B (sub_of rfl) (removeCopy_keeps B (sub_of rfl) hs))

theorem poolEnd_quiet {k data good cutBad s} (hs : P s) : P (poolEnd k data good cutBad s) := by
  unfold poolEnd
  split
  · exact hs
  · extract_lets +onlyGivenNames -merge -underBinder u
    have hu : P u := State.setPoolFrame_keeps B (sub_of rfl) hs
    exact ite_k hu (foldl_k hu (fun _ _ hv => foldl_k hv (fun _ _ hw => ite_k (discardCopy_quiet K B hw) hw)))

theorem joinQueue_quiet {k n len c before s} (hs : P s) : P (joinQueue k n len c before s) := by
  unfold joinQueue
  split
  · exact hs
  · extract_lets +onlyGivenNames -merge -underBinder spilled m f q u v w
    have hu : P u := State.setBq_keeps B (sub_of rfl) (State.setPoolFrame_keeps B (sub_of rfl) hs)
    have hv : P v := count_quiet K (count_quiet K hu)
    have hw : P w := ite_k (count_quiet K hv) hv
    refine ite_k (setB_k B 13 part_bfSpillStatusStageFull (sub_of rfl) (upd_bf B (sub_of rfl) ?_)) (addOcc_keeps B (sub_of rfl) hw)
    exact setB_k B 13 part_bfQStatusSpilling (sub_of rfl) hw

theorem admitLeg_quiet {k n len replicated f before l s} (hs : P s) : P (admitLeg k n len replicated f before l s).2.2 := by
  unfold admitLeg
  extract_lets +onlyGivenNames -merge -underBinder q e c lost
  have hlost : ∀ off, P (lost off s) := fun off => ite_k (count_quiet K (count_quiet K hs)) (count_quiet K hs)
  split
  · exact count_quiet K hs
  · exact joinQueue_quiet K B hs
  · exact joinQueue_quiet K B hs
  · exact hlost 3
  · exact hlost 4

theorem admitFrame_quiet {f pl len s} (hs : P s) : P (admitFrame f pl len s).2 := by
  unfold admitFrame
  refine ite2_k hs ?_
  extract_lets +onlyGivenNames -merge -underBinder before k n a u b v r w x
  have ha : P a.2 := allocate_keeps B (sub_of rfl) hs
  have hu : P u := State.setPoolFrame_keeps B (sub_of rfl) (writeCells_keeps B (sub_of rfl) (writeCells_keeps B (sub_of rfl) ha))
  have hr : P r.2.2 := foldl_g (Q := fun r : Bool × Bool × State => P r.2.2) (upd_bf B (sub_of rfl) hu) (fun _ _ ht => admitLeg_quiet K B ht)
  have hx : P x := by
    unfold x
    split
    · exact ite_k (count_quiet K hr) hr
    · exact hr
  exact ite2_k (syncPool_keeps B (sub_of rfl) hx) (syncPool_keeps B (sub_of rfl) (State.setPoolFrame_keeps B (sub_of rfl) hx))

theorem placeFrame_quiet {n f pl len s} (hs : P s) : P (placeFrame n f pl len s).2 := by
  unfold placeFrame
  extract_lets +onlyGivenNames -merge -underBinder base m e p
  have hm : P m.2 := by
    unfold m
    split
    · exact fmEnter_quiet K hs
    · exact hs
  have he : P e.2 := by
    unfold e
    split
    · exact erEnter_quiet K hm
    · exact hm
  exact admitFrame_quiet K B he

end

end

end Sys2Proof.Machine

/-! SUPPORT. The same of the lookups and the decision of R409: the tables' words are read, notifications and discards are counted. -/

namespace Sys2Proof.Machine

section

variable {P : State → Prop} (K : Quiet P)
include K

/-! ### Lookups -/

/-- Words are read one after the other. -/
theorem mpReads_quiet {α : Type} {l : List α} {f : α → Nat} {s} (hs : P s) : P (l.foldl (fun s a => (mpRead (f a) false s).2) s) :=
  foldl_k hs (fun _ _ hu => mpRead_quiet K hu)

theorem ftLookup_quiet {key s} (hs : P s) : P (ftLookup key s).2 := ite_k hs (showOcc_keeps K.others (sub_of rfl) (mpReads_quiet K hs))

theorem readWords_quiet {mem addrs s} (hs : P s) : P (readWords mem addrs s) := ite_k hs (mpReads_quiet K hs)

theorem setHit_quiet {loc s} (hs : P s) : P (setHit loc s) := by
  unfold setHit
  split
  · exact hs
  · exact ite_k hs (mpPartial_quiet K (upd_ft K.others (sub_of rfl) hs))

theorem destLookup_quiet {key s} (hs : P s) : P (destLookup key s).2 := by
  have hu : P (ftLookup key s).2 := ftLookup_quiet K hs
  unfold destLookup
  extract_lets r
  split
  · exact ite_k (setHit_quiet K hu) hu
  · exact hu

theorem learnNotify_quiet {kind src lag vid mac old s} (hs : P s) : P (learnNotify kind src lag vid mac old s) := by
  have C := K.others
  have hdrop : ∀ {t}, P t → P (learnDrop t) := fun ht =>
    upd_ft C (sub_of rfl) (learnSecond_keeps C (sub_of rfl) (count_quiet K (set64_k C 12 part_ftLrnDrop_2 (sub_of rfl) ht)))
  unfold learnNotify
  extract_lets +onlyGivenNames -merge -underBinder us k held
  refine ite_k hs ?_
  extract_lets +onlyGivenNames -merge -underBinder t x u
  have hu : P u := upd_ft C (sub_of rfl) hs
  exact ite_k (hdrop hu) (count_quiet K (learnRecord_keeps C (sub_of rfl) (upd_ft C (sub_of rfl) hu)))

theorem sourceLookup_quiet {f s} (hs : P s) : P (sourceLookup f s).2 := by
  unfold sourceLookup
  refine ite2_k hs ?_
  extract_lets +onlyGivenNames -merge -underBinder lag mac r
  have hr : P r.2 := ftLookup_quiet K hs
  split
  · exact learnNotify_quiet K hr
  · extract_lets +onlyGivenNames -merge -underBinder u away v
    have hu : P u := setHit_quiet K hr
    have hv : P v := ite_k (learnNotify_quiet K hu) hu
    exact ite2_k (count_quiet K hv) hv

theorem classify_quiet {k s} (hs : P s) : P (classify k s).2 := mpReads_quiet K hs

/-! ### Legs -/

theorem portLeg_quiet {src egress pcp r bridged c s} (hs : P s) : P (portLeg src egress pcp r bridged c s).2 :=
  ite2_k hs (ite2_k (ite2_k (count_quiet K hs) hs) hs)

theorem lagLeg_quiet {src g pcp key r bridged c s} (hs : P s) : P (lagLeg src g pcp key r bridged c s).2 := by
  unfold lagLeg
  split
  · exact count_quiet K hs
  · refine ite2_k hs ?_
    split
    · exact count_quiet K hs
    · exact portLeg_quiet K hs

theorem floodLegs_quiet {src pcp key r vid s} (hs : P s) : P (floodLegs src pcp key r vid s).2 :=
  legsOf_keeps K.others (sub_of rfl) (fun _ _ ht => lagLeg_quiet K ht)
    (legsOf_keeps K.others (sub_of rfl) (fun _ _ ht => portLeg_quiet K ht) hs)

theorem mcastLegs_quiet {src pcp key r g s} (hs : P s) : P (mcastLegs src pcp key r g s).2 :=
  legsOf_keeps K.others (sub_of rfl) (fun _ _ ht => ite2_k (portLeg_quiet K ht) (ite2_k (lagLeg_quiet K ht) (portLeg_quiet K ht))) hs

theorem entryPlan_quiet {src f key r type dest s} (hs : P s) : P (entryPlan src f key r type dest s).2 := by
  unfold entryPlan
  extract_lets +onlyGivenNames -merge -underBinder b c
  refine ite2_k (portLeg_quiet K hs) (ite2_k (lagLeg_quiet K hs) ?_)
  refine ite2_k (ite2_k (count_quiet K hs) (mcastLegs_quiet K hs)) (ite2_k (count_quiet K hs) ?_)
  exact ite2_k hs (ite2_k hs (ite2_k hs hs))

/-! ### Routing and bridging -/

theorem takeHop_quiet {i s} (hs : P s) : P (takeHop i s).2 := by
  have hu : P (readWords 6 [2 * i, 2 * i + 1] s) := readWords_quiet K hs
  unfold takeHop
  extract_lets u
  split <;> exact hu

theorem routeLookup_quiet {p s} (hs : P s) : P (routeLookup p s).2 := by
  unfold routeLookup
  extract_lets +onlyGivenNames -merge -underBinder r
  have hr : P r.2 := destLookup_quiet K hs
  split
  · exact ite2_k (takeHop_quiet K hr) (ite2_k hr hr)
  · split
    · exact hr
    · extract_lets +onlyGivenNames -merge -underBinder u x
      have hu : P u := readWords_quiet K hr
      exact ite2_k hu (ite2_k (takeHop_quiet K hu) (ite2_k hu hu))

theorem routePlan_quiet {src f p key r s} (hs : P s) : P (routePlan src f p key r s).2 := by
  unfold routePlan
  refine ite2_k hs (ite2_k hs ?_)
  extract_lets +onlyGivenNames -merge -underBinder h
  have hh : P h.2 := routeLookup_quiet K hs
  split
  · exact hh
  · exact count_quiet K hh
  · exact hh
  · extract_lets +onlyGivenNames -merge -underBinder b c l
    have hl : P l.2 := ite2_k (lagLeg_quiet K hh) (portLeg_quiet K hh)
    exact ite2_k hl hl

theorem bridgeFind_quiet {f p s} (hs : P s) : P (bridgeFind f p s).2 := by
  unfold bridgeFind
  extract_lets +onlyGivenNames -merge -underBinder d
  refine ite2_k ?_ (destLookup_quiet K hs)
  extract_lets +onlyGivenNames -merge -underBinder a
  have ha : P a.2 := destLookup_quiet K hs
  split
  · exact ha
  · exact destLookup_quiet K ha

theorem bridgePlan_quiet {src f p key r s} (hs : P s) : P (bridgePlan src f p key r s).2 := by
  unfold bridgePlan
  extract_lets +onlyGivenNames -merge -underBinder a
  have ha : P a.2 := bridgeFind_quiet K hs
  split
  · exact entryPlan_quiet K ha
  · exact ite2_k (floodLegs_quiet K ha) ha

theorem redirectLookup_quiet {routed f p s} (hs : P s) : P (redirectLookup routed f p s).2 := by
  unfold redirectLookup
  refine ite2_k (ite2_k hs (ite2_k hs ?_)) ?_
  · have hh : P (routeLookup p s).2 := routeLookup_quiet K hs
    extract_lets h
    split <;> exact hh
  · have ha : P (bridgeFind f p s).2 := bridgeFind_quiet K hs
    extract_lets a
    split <;> exact ha

theorem trapPlan_quiet {n reason r vid s} (hs : P s) : P (trapPlan n reason r vid s).2 := by
  unfold trapPlan
  split
  · exact hs
  · exact count_quiet K hs

theorem decision_quiet {n f s} (hs : P s) : P (decision n f s).2.2 := by
  unfold decision
  split
  · exact count_quiet K hs
  extract_lets +onlyGivenNames -merge -underBinder f1 l
  have hl : P l.2 := sourceLookup_quiet K hs
  refine ite22_k hl ?_
  extract_lets +onlyGivenNames -merge -underBinder p key k r u act f2
  have hu : P u := classify_quiet K hl
  refine ite22_k (count_quiet K hu) ?_
  split
  · exact trapPlan_quiet K hu
  refine ite22_k hu (ite22_k hu (ite22_k (ite22_k (count_quiet K hu) hu) ?_))
  extract_lets +onlyGivenNames -merge -underBinder routed
  refine ite22_k ?redirected ?found
  case redirected =>
    extract_lets +onlyGivenNames -merge -underBinder x
    have hx : P x.2 := redirectLookup_quiet K hu
    split
    · exact trapPlan_quiet K hx
    · exact ite2_k (lagLeg_quiet K hx) (portLeg_quiet K hx)
  case found =>
    extract_lets +onlyGivenNames -merge -underBinder x
    have hx : P x.2 := ite2_k (routePlan_quiet K hu) (bridgePlan_quiet K hu)
    split
    · exact trapPlan_quiet K hx
    · exact ite22_k hx hx

end

end Sys2Proof.Machine

/-! SUPPORT. The frames in reception and in transmission, the bytes sent and the pool past the operations that count: the predicates that are quiet. -/

namespace Sys2Proof.Machine

/-! ### Quiet predicates -/

/-- A smaller mask leaves less to keep. -/
theorem Keeps.mono {P : State → Prop} {A B : Nat} (K : Keeps P A) (h : Sub B A) : Keeps P B where
  setF := fun s f v hb => K.setF s f v (h.bit hb)
  drop := fun s q hb => K.drop s q (fun e he => h.bit (hb e he))
  dma := fun s a bs hb => K.dma s a bs (h.bit hb)
  rest := fun s t hr hm hp => K.rest s t hr hm (fun p hA => hp p (by
    by_contra hb
    exact absurd (h.bit (by simpa using hb)) (by simp [hA])))
  again := fun s hb => K.again s (h.bit hb)

/-- What is said of one part is kept by every operation on the other parts. -/
theorem part_keeps {α : Type} {p : Part} {f : State → α} (hp : ∀ {s t : State}, p.same s t → f t = f s) (Q : α → Prop) :
    Keeps (fun t => Q (f t)) (without p) where
  setF := fun s g v hb h => (hp ((same_keeps p s).setF s g v hb (p.same_refl s)) : f _ = f s) ▸ h
  drop := fun s q hb h => (hp ((same_keeps p s).drop s q hb (p.same_refl s)) : f _ = f s) ▸ h
  dma := fun s a bs hb h => (hp ((same_keeps p s).dma s a bs hb (p.same_refl s)) : f _ = f s) ▸ h
  rest := fun s t hr hm hs h => (hp ((same_keeps p s).rest s t hr hm hs (p.same_refl s)) : f _ = f s) ▸ h
  again := fun s hb _ => absurd (without_bit p _ hb).2 (by decide)

/-- What is said of the pipeline's own state is kept beside it. -/
theorem sw_keeps (Q : Switch → Prop) : Keeps (fun t => Q t.sw) (without .sw) := part_keeps (p := .sw) id Q

/-- What is said of the frames in reception is quiet. -/
theorem rx_quiet (Q : List (Nat × Option RxFrame) → Prop) : Quiet (fun t => Q t.sw.rx) where
  others := (sw_keeps (fun w => Q w.rx)).mono (sub_of rfl)
  pool := fun _ _ h => h
  rules := fun _ _ h => h
  sending := fun _ _ h => h

theorem spGet_none_map {α β : Type} (f : Nat → α → β) (l : List (Nat × Option α)) (n : Nat) :
    spGet none (l.map (fun e => (e.1, e.2.map (f e.1)))) n = (spGet none l n).map (f n) := by
  induction l with
  | nil => rfl
  | cons e r ih =>
    obtain ⟨j, v⟩ := e
    by_cases hj : j = n
    · simp [spGet, hj]
    · simpa [spGet, hj] using ih

/-- Nothing is in transmission at egress `n`, and the bytes sent are `l`. -/
def Left (n : Nat) (l : List (Nat × Bytes)) (w : Switch) : Prop := spGet none w.tx n = none ∧ w.sent = l

theorem left_quiet (n : Nat) (l : List (Nat × Bytes)) : Quiet (fun t => Left n l t.sw) where
  others := (sw_keeps (Left n l)).mono (sub_of rfl)
  pool := fun _ _ h => h
  rules := fun _ _ h => h
  sending := fun s f h => ⟨by simpa [sendingMarked, spGet_none_map (fun _ => f)] using h.1, h.2⟩

/-- The bytes sent are `l`. -/
theorem sent_quiet (l : List (Nat × Bytes)) : Quiet (fun t => t.sw.sent = l) where
  others := (sw_keeps (fun w => w.sent = l)).mono (sub_of rfl)
  pool := fun _ _ h => h
  rules := fun _ _ h => h
  sending := fun _ _ h => h

/-- Pool frame `k` stands, and `Q` holds of it. -/
def Pooled (k : Nat) (Q : Frame → Prop) (s : State) : Prop := ∃ f, s.poolFrame k = some f ∧ Q f

/-- What is said of a pool frame is quiet where it stays true of a broken frame. -/
theorem pooled_quiet (k : Nat) {Q : Frame → Prop} (hQ : ∀ f : Frame, Q f → Q { f with broken := true }) : Quiet (Pooled k Q) where
  others := (part_keeps (p := .bf) id (fun b => ∃ f, spGet none b.frames k = some f ∧ Q f)).mono (sub_of rfl)
  pool := by
    rintro s hit ⟨f, hf, hq⟩
    refine ⟨if hit k f then { f with broken := true } else f, ?_, ?_⟩
    · show spGet none (s.bf.frames.map _) k = _
      rw [spGet_none_map (fun j f => if hit j f then { f with broken := true } else f)]
      exact congrArg (Option.map _) hf
    · split
      · exact hQ f hq
      · exact hq
  rules := fun _ _ h => h
  sending := fun _ _ h => h

end Sys2Proof.Machine

/-! SUPPORT. The end of a frame in reception (R197, R209, R399, R414 to R416, R425, R428): what the direct path sends, and what each case leaves. -/

namespace Sys2Proof.Machine

/-! ### Errors injected into frames (R226) -/

/-- An injection changes the bytes sent, and no frame in reception. -/
theorem injectSent_rx (n : Nat) (s : State) : (injectSent n s).sw.rx = s.sw.rx := by
  unfold injectSent
  refine ite_k (P := fun t => t.sw.rx = s.sw.rx) rfl (foldl_k (P := fun t => t.sw.rx = s.sw.rx) rfl fun u m hu => ?_)
  refine ite_k (P := fun t => t.sw.rx = s.sw.rx) hu ?_
  extract_lets d f bits flip
  refine ite_k (P := fun t => t.sw.rx = s.sw.rx) hu (ite_k (P := fun t => t.sw.rx = s.sw.rx) ?_ hu)
  exact ite_k (P := fun t => t.sw.rx = s.sw.rx) hu hu

/-- A fold whose every step leaves its start as it is ends there. -/
theorem foldl_stays {α β : Type} {f : β → α → β} {b : β} {l : List α} (h : ∀ a ∈ l, f b a = b) : l.foldl f b = b := by
  induction l with
  | nil => rfl
  | cons a l ih =>
    rw [List.foldl_cons, h a List.mem_cons_self]
    exact ih fun c hc => h c (List.mem_cons_of_mem a hc)

/-- Without an injection the state stands. -/
theorem injectSent_none {n : Nat} {s : State} (h : NoInjection n s) : injectSent n s = s := by
  unfold injectSent
  split
  · rfl
  next hn =>
    refine foldl_stays fun k hk => if_pos ?_
    rcases h.resolve_left hn k hk with hoff | hpattern
    · simp [hoff]
    · simp [hpattern]

/-- Whether errors are injected at an egress stands in registers alone. -/
theorem NoInjection.of_regs {n : Nat} {s t : State} (h : NoInjection n s) (hr : t.regs = s.regs) : NoInjection n t := by
  refine h.imp_right fun hl k hk => ?_
  rw [isF_of_regs hr, isF_of_regs hr]
  refine hl k ?_
  unfold portLanes State.mode at *
  rwa [getF_of_regs hr] at hk

/-! ### The direct path -/

/-- The state in which the outputs of a direct-path frame have sent its bytes (R197, R425, R428). -/
def directSent (r : RxFrame) (fault : Bool) (s : State) : State :=
  let data := r.frame.data
  let sent := if fault then (stompBytes data, s) else if r.slipped then freeBytes data.length s else (data, s)
  let s := { sent.2 with sw := { sent.2.sw with sent := r.outs.foldl (fun l o => spSet [] l o.1 sent.1) sent.2.sw.sent } }
  r.outs.foldl (fun s o => injectSent o.1 s) s

theorem directSent_rx (r : RxFrame) (fault : Bool) (s : State) : (directSent r fault s).sw.rx = s.sw.rx := by
  unfold directSent
  extract_lets data sent t
  have hfree : (freeBytes data.length s).2.sw = s.sw := freeBytes_keeps (same_keeps .sw s) (sub_of rfl) rfl
  have hsent : sent.2.sw.rx = s.sw.rx :=
    ite2_k (P := fun t => t.sw.rx = s.sw.rx) rfl (ite2_k (P := fun t => t.sw.rx = s.sw.rx) (congrArg Switch.rx hfree) rfl)
  exact foldl_k (P := fun t => t.sw.rx = s.sw.rx) hsent fun u o hu => (injectSent_rx o.1 u).trans hu

/-- What every output of a list was given it has. -/
theorem spGet_foldl_same {α β : Type} [DecidableEq α] (d v : α) (f : β → Nat) {os : List β} {o : β} (ho : o ∈ os) (l : List (Nat × α)) :
    spGet d (os.foldl (fun l o => spSet d l (f o) v) l) (f o) = v := by
  have hkeep : ∀ (os : List β) (l : List (Nat × α)), spGet d l (f o) = v → spGet d (os.foldl (fun l o => spSet d l (f o) v) l) (f o) = v :=
    fun os l h => foldl_g (Q := fun l => spGet d l (f o) = v) h fun m a hm => by
      by_cases ha : f o = f a
      · rw [ha]; exact spGet_spSet_same _ _ _ _
      · rw [spGet_spSet_ne _ _ _ ha]; exact hm
  induction os generalizing l with
  | nil => cases ho
  | cons a os ih =>
    rcases List.mem_cons.1 ho with rfl | hmem
    · exact hkeep os _ (spGet_spSet_same _ _ _ _)
    · exact ih hmem _

/-- Where no errors are injected, the outputs of a frame into which no slip fell have sent its bytes, ended bad where a fault cut it. -/
theorem directSent_sent {r : RxFrame} {s : State} (fault : Bool) (hslip : r.slipped = false) (h : ∀ o ∈ r.outs, NoInjection o.1 s) :
    ∀ o ∈ r.outs, spGet [] (directSent r fault s).sw.sent o.1 = if fault then stompBytes r.frame.data else r.frame.data := by
  unfold directSent
  extract_lets data sent t x u
  have hsent : sent = (if fault then stompBytes data else data, s) := by
    unfold sent
    rw [hslip]
    cases fault <;> rfl
  have hregs : u.regs = s.regs := congrArg (fun y : Bytes × State => y.2.regs) hsent
  rw [foldl_stays fun o ho => injectSent_none ((h o ho).of_regs hregs)]
  intro o ho
  show spGet [] (r.outs.foldl (fun l o => spSet [] l o.1 sent.1) sent.2.sw.sent) o.1 = _
  rw [spGet_foldl_same [] sent.1 (fun o : Nat × Nat × Bool => o.1) ho, hsent]

section

variable {P : State → Prop} (K : Quiet P)
include K

/-- What follows the bytes sent at the end of a direct-path frame: stamp entries, captures and samples. -/
theorem directEnd_quiet {r fault s} (h : P (directSent r fault s)) : P (directEnd r fault s) := by
  unfold directEnd
  extract_lets +onlyGivenNames -merge -underBinder n data bad sent u x t v put
  have hv : P v := h
  have hput : ∀ {p k x i b t}, P t → P (put p k x i b t) := fun ht => ite_k (fifoPut_keeps K.others (sub_of rfl) ht) ht
  clear_value put v
  extract_lets +onlyGivenNames -merge -underBinder w y
  have hy : P y := captureFrame_quiet K (hput hv)
  refine foldl_k hy fun t o ht => ?_
  extract_lets +onlyGivenNames -merge -underBinder w' y'
  exact latencySample_quiet K (captureFrame_quiet K (hput ht))

end

theorem directEnd_rx (r : RxFrame) (fault : Bool) (s : State) : (directEnd r fault s).sw.rx = s.sw.rx :=
  directEnd_quiet (rx_quiet (fun l => l = s.sw.rx)) (directSent_rx r fault s)

theorem directEnd_sent (r : RxFrame) (fault : Bool) (s : State) : (directEnd r fault s).sw.sent = (directSent r fault s).sw.sent :=
  directEnd_quiet (sent_quiet _) rfl

end Sys2Proof.Machine

/-! SUPPORT. The end of a frame of the pipeline (R209, R399, R414 to R416, R592), part by part: its counts, its place in the pool, what takes it. -/

namespace Sys2Proof.Machine

/-! ### The frames in reception and in transmission -/

@[simp] theorem setRx_rx_same (s : State) (n : Nat) (r : Option RxFrame) : spGet none (s.setRx n r).sw.rx n = r := spGet_spSet_same none s.sw.rx n r

@[simp] theorem setTx_tx_same (s : State) (n : Nat) (t : Option TxFrame) : spGet none (s.setTx n t).sw.tx n = t := spGet_spSet_same none s.sw.tx n t

/-! ### The parts -/

/-- Whether a frame ends good: no fault cut or spoiled it, its FCS is right, and it is no longer than MAX_FRAME (R399, R416). -/
def endsGood (n : Nat) (r : RxFrame) (data : Bytes) (fault : Bool) (s : State) : Bool :=
  !(fault || r.fecBad || !fcsGood data) && !decide ((s.swPort n).maxFrame < data.length)

/-- Whether a good frame is too long for an egress to which a cut-through copy has begun (R415). -/
def endsOver (n : Nat) (r : RxFrame) (data : Bytes) (fault : Bool) (s : State) : Bool :=
  endsGood n r data fault s && (match r.pool with | some k => cutOver k data.length s | none => false)

/-- The state in which a frame's end is counted (R591). -/
def endCounted (n : Nat) (r : RxFrame) (data : Bytes) (fault : Bool) (s : State) : State :=
  let good := endsGood n r data fault s
  let eover := endsOver n r data fault s
  let tooLong := decide ((s.swPort n).maxFrame < data.length)
  let begun : Bool := match r.pool with | some k => cutBegun k s | none => false
  let u := if tooLong then count (srcCtr n 7) 1 s else s
  let v := if (!good && (!tooLong || begun)) || eover then count (srcCtr n 5) 1 u else u
  let w := if good && !eover then countRx n data v else v
  if good && fb data (12 + 4 * (parse data).tags) 2 = 0x8808 then count (srcCtr n 8) 1 w else w

/-- The state in which a frame of the pool is closed there. -/
def poolClosed (n : Nat) (r : RxFrame) (data : Bytes) (fault : Bool) (s : State) : State :=
  let u := endCounted n r data fault s
  match r.pool with
  | some k => poolEnd k (if fault then data ++ [0, 0, 0, 0] else data) (endsGood n r data fault s) (endsOver n r data fault s) u
  | none => u

section

variable {n : Nat} {r : RxFrame} {data : Bytes} {fault : Bool} {s : State}

/-- A good frame has neither a fault nor a wrong FCS, and a length that its source takes. -/
theorem endsGood_iff : endsGood n r data fault s = true ↔
    r.fecBad = false ∧ fault = false ∧ fcsGood data = true ∧ data.length ≤ (s.swPort n).maxFrame := by
  unfold endsGood
  cases fault <;> cases r.fecBad <;> cases fcsGood data <;> simp

theorem endsGood_setRx (x : Option RxFrame) : endsGood n r data fault (s.setRx n x) = endsGood n r data fault s := rfl

/-- The end of a claimed message: counts, the engine's inbox where it is good, and captures (R252). -/
theorem frameEnd_claimed (hdp : r.dp = false) (hclaimed : r.claimed = true) : frameEnd n r data fault s =
    captureFrame (capItem 1 n r.frame data (!endsGood n r data fault s) false 0 r.frame.inBad 0 0xFF (endCounted n r data fault (s.setRx n none)))
      (if endsGood n r data fault s then claimEnd r data (endCounted n r data fault (s.setRx n none)) else endCounted n r data fault (s.setRx n none)) := by
  unfold frameEnd
  simp only [hdp, hclaimed, if_true, Bool.false_eq_true, if_false]
  rfl

section

variable {P : State → Prop} (K : Quiet P)
include K

theorem endCounted_quiet (h : P s) : P (endCounted n r data fault s) := by
  unfold endCounted
  extract_lets good eover tooLong begun u v w
  have hu : P u := ite_k (count_quiet K h) h
  have hv : P v := ite_k (count_quiet K hu) hu
  have hw : P w := ite_k (countRx_quiet K hv) hv
  exact ite_k (count_quiet K hw) hw

theorem poolClosed_quiet (B : Keeps P (without .sw)) (h : P s) : P (poolClosed n r data fault s) := by
  unfold poolClosed
  extract_lets u
  split
  · exact poolEnd_quiet K B (endCounted_quiet K h)
  · exact endCounted_quiet K h

/-- What follows the pool's part at the end of a frame: groups, a stamp entry and captures. -/
theorem frameEnd_quiet (hdp : r.dp = false) (hclaimed : r.claimed = false) (h : P (poolClosed n r data fault (s.setRx n none))) :
    P (frameEnd n r data fault s) := by
  unfold frameEnd
  extract_lets +onlyGivenNames -merge -underBinder s1
  rw [if_neg (by simp [hdp])]
  extract_lets +onlyGivenNames -merge -underBinder broken tooLong good data' eover begun u1 u2 u3 u4
  rw [if_neg (by simp [hclaimed])]
  extract_lets +onlyGivenNames -merge -underBinder f1 f2 v w x y
  have hv : P v := h
  have hw : P w := by
    unfold w
    split
    · exact fmWhole_quiet K hv
    · exact hv
  have hx : P x := by
    unfold x
    split
    · exact erWhole_quiet K hw
    · exact hw
  have hy : P y := ite_k (fifoPut_keeps K.others (sub_of rfl) hx) hx
  exact ite_k (captureFrame_quiet K hy) hy

end

/-- The source receives nothing any more. -/
theorem frameEnd_rx : spGet none (frameEnd n r data fault s).sw.rx n = none := by
  have hset := setRx_rx_same s n none
  have K := rx_quiet (fun l => spGet none l n = none)
  cases hdp : r.dp with
  | true =>
    unfold frameEnd
    rw [if_pos hdp, directEnd_rx]
    exact hset
  | false =>
    cases hclaimed : r.claimed with
    | true =>
      rw [frameEnd_claimed hdp hclaimed]
      have hu := endCounted_quiet (n := n) (r := r) (data := data) (fault := fault) K hset
      exact captureFrame_quiet K (ite_k (P := fun t => spGet none t.sw.rx n = none) (claimEnd_keeps K.others (sub_of rfl) hu) hu)
    | false => exact frameEnd_quiet K hdp hclaimed (poolClosed_quiet K (sw_keeps (fun w => spGet none w.rx n = none)) hset)

/-! ### The pool -/

@[simp] theorem poolFrame_setPoolFrame_same (s : State) (k : Nat) (f : Option Frame) : (s.setPoolFrame k f).poolFrame k = f :=
  spGet_spSet_same none s.bf.frames k f

/-- A pool frame that ends good has its bytes, and none of its copies is discarded. -/
theorem poolEnd_good {k : Nat} {f : Frame} {s : State} (hf : s.poolFrame k = some f) (data : Bytes) (cutBad : Bool) :
    poolEnd k data true cutBad s = s.setPoolFrame k (some { f with data := data, whole := true, bad := cutBad }) := by
  unfold poolEnd
  rw [hf]
  rfl

/-- A good frame in the pool stands there whole with its bytes. -/
theorem frameEnd_pooled {k : Nat} {f : Frame} (hdp : r.dp = false) (hclaimed : r.claimed = false) (hpool : r.pool = some k)
    (hf : s.poolFrame k = some f) (hgood : endsGood n r data fault s = true) :
    ∃ y, (frameEnd n r data fault s).poolFrame k = some y ∧ y.whole = true ∧ y.data = data := by
  obtain ⟨-, rfl, -⟩ := endsGood_iff.1 hgood
  refine frameEnd_quiet (pooled_quiet k (Q := fun y => y.whole = true ∧ y.data = data) fun _ h => h) hdp hclaimed ?_
  obtain ⟨y, hy, -⟩ : Pooled k (fun _ => True) (endCounted n r data false (s.setRx n none)) :=
    endCounted_quiet (pooled_quiet k fun _ h => h) ⟨f, hf, trivial⟩
  unfold poolClosed
  rw [hpool]
  dsimp only
  rw [endsGood_setRx, hgood, poolEnd_good hy]
  exact ⟨_, poolFrame_setPoolFrame_same _ k _, rfl, rfl⟩

end

/-! ### Claimed messages -/

/-- The parts that counts can change. -/
def countParts : List Part := [.rHst, .rBf, .rCt, .rMp, .freeCount, .evu, .bus, .mbx, .counters, .refs, .sw, .ft, .bf, .merges, .releases, .mp]

theorem endCounted_frame (n : Nat) (r : RxFrame) (data : Bytes) (fault : Bool) (s : State) :
    FrameOf countParts s (endCounted n r data fault (s.setRx n none)) := by
  have K := frame_keeps countParts s
  have hcount : ∀ {c k t}, FrameOf countParts s t → FrameOf countParts s (count c k t) := fun ht => count_keeps K (sub_of rfl) ht
  have hset : FrameOf countParts s (s.setRx n none) := State.setRx_keeps K (sub_of rfl) (FrameOf.refl _ s)
  unfold endCounted
  extract_lets good eover tooLong begun u v w
  have hu : FrameOf countParts s u := ite_k (hcount hset) hset
  have hv : FrameOf countParts s v := ite_k (hcount hu) hu
  have hw : FrameOf countParts s w := ite_k (countRx_keeps K (sub_of rfl) hv) hv
  exact ite_k (hcount hw) hw

/-- Which session claims a message, and its step counters, are no matter of counts. -/
theorem claimEnd_inbox {s u : State} (h : FrameOf countParts s u) (r : RxFrame) (data : Bytes) : (claimEnd r data u).tt.inbox = (claimEnd r data s).tt.inbox := by
  have htt : u.tt = s.tt := h .tt (by decide)
  have hstate : ∀ k, ttState k u = ttState k s := fun k => h.getF_of_part part_ttSStateState rfl
  have hclaimant : ∀ p d src, claimant src p d u = claimant src p d s := fun p d src => by
    unfold claimant
    simp only [htt, hstate]
  have hstep : ∀ d x, u.stepcAt d x = s.stepcAt d x := fun d x => by
    unfold State.stepcAt State.dom State.stepc
    rw [h .tb (by decide), h.getF_of_part part_tbDStepc rfl]
  unfold claimEnd
  simp only [hclaimant, hstep]
  split
  · rw [htt]
  · simp only [htt]

end Sys2Proof.Machine

/-! SUPPORT. The rows of reception: FRAME_RX (R196, R208, R213, R409) and FRAME_END (R399, R414, R416). -/

namespace Sys2Proof.Machine

/-! ### FRAME_RX -/

/-- The decision adds to a frame what it finds; the frame's source and stamp stand. -/
theorem decision_frame (n : Nat) (f : Frame) (s : State) : (decision n f s).1.src = f.src ∧ (decision n f s).1.tIn = f.tIn := by
  have keep : ∀ {c : Prop} [Decidable c] {a b : Frame × Plan × State}, (a.1.src = f.src ∧ a.1.tIn = f.tIn) → (b.1.src = f.src ∧ b.1.tIn = f.tIn) →
      (if c then a else b).1.src = f.src ∧ (if c then a else b).1.tIn = f.tIn := fun ha hb =>
    ite_g (Q := fun r : Frame × Plan × State => r.1.src = f.src ∧ r.1.tIn = f.tIn) ha hb
  have same : f.src = f.src ∧ f.tIn = f.tIn := ⟨rfl, rfl⟩
  unfold decision
  split
  · exact same
  extract_lets +onlyGivenNames -merge -underBinder f1 l
  refine keep same ?_
  extract_lets +onlyGivenNames -merge -underBinder p key k r u act f2
  refine keep same ?_
  split
  · exact same
  refine keep same (keep same (keep (keep same same) ?_))
  extract_lets +onlyGivenNames -merge -underBinder routed
  refine keep ?_ ?_
  all_goals
    extract_lets +onlyGivenNames -merge -underBinder x
    split
  · exact same
  · exact same
  · exact same
  · exact keep same same

section

variable {src len : Nat} {head : Bytes} {bad : Bool} {m : EdgeMeas} {outs : List EdgeMeas} {s : State}

/-- Frame `x` of source `src` has begun (R196, R209, R409): its stamp is taken; a direct-path frame has the stamps of its outputs and goes nowhere else. -/
def Begun (src : Nat) (bad : Bool) (m : EdgeMeas) (outs : List EdgeMeas) (s : State) (x : RxFrame) : Prop :=
  x.dp = (decide (src < 48) && s.isF (Reg.swPortStatusDpRx src)) ∧ x.fecBad = bad ∧ x.slipped = false ∧ x.frame.src = src ∧
  x.frame.tIn = (if src < 48 then rxStamp src m s else s.now80) ∧
  (x.dp = true → x.pool = none ∧ x.merge = none ∧ x.release = none ∧ directOuts src outs s = some x.outs)

/-- A row answers a state of which `Q` holds. -/
def Answers (Q : State → Prop) (o : Out) : Prop := ∃ t, o = .next t ∧ Q t

/-- A frame that its source receives begins, on the direct path where its outputs' stamps are known. -/
theorem frameRx_begins (hidle : spGet none s.sw.rx src = none) (hhead : 64 ≤ head.length) (hlen : head.length ≤ len)
    (hopen : receives src m s = true) (houts : ¬(src < 48 ∧ s.isF (Reg.swPortStatusDpRx src) = true) ∨ (directOuts src outs s).isSome = true) :
    Answers (fun t => ∃ x, spGet none t.sw.rx src = some x ∧ Begun src bad m outs s x) (exec (.frameRx src len head bad m outs) s) := by
  show Answers _ (execFrameRx src len head bad m outs s)
  unfold execFrameRx
  extract_lets +onlyGivenNames -merge -underBinder isPort
  rw [if_neg (by simp [hidle]; omega), if_neg (by simp [hopen])]
  extract_lets +onlyGivenNames -merge -underBinder x inv f0 f
  have hx : x = if src < 48 then rxStamp src m s else s.now80 := by simp [x, isPort]
  by_cases hdp : (isPort && s.isF (Reg.swPortStatusDpRx src)) = true
  · obtain ⟨o, ho⟩ : ∃ o, directOuts src outs s = some o := by
      refine Option.isSome_iff_exists.1 (houts.resolve_left fun h => h ?_)
      simpa [isPort] using hdp
    rw [if_pos hdp, ho]
    exact ⟨_, rfl, _, setRx_rx_same _ _ _, hdp.symm, rfl, rfl, rfl, hx, fun _ => ⟨rfl, rfl, rfl, ho⟩⟩
  · have hbegun : ∀ (u : State) (r : RxFrame), r.dp = false → r.fecBad = bad → r.slipped = false → r.frame.src = src → r.frame.tIn = x →
        Answers (fun t => ∃ y, spGet none t.sw.rx src = some y ∧ Begun src bad m outs s y) (.next (u.setRx src (some r))) :=
      fun u r h hbad hslip hsrc htin => ⟨_, rfl, r, setRx_rx_same _ _ _, h.trans (Bool.eq_false_of_not_eq_true hdp).symm, hbad, hslip, hsrc, htin.trans hx,
        fun h' => absurd (h.symm.trans h') (by decide)⟩
    rw [if_neg hdp]
    extract_lets +onlyGivenNames -merge -underBinder p
    split_ifs
    · exact hbegun _ _ rfl rfl rfl rfl rfl
    · exact hbegun _ _ rfl rfl rfl rfl rfl
    · exact hbegun _ _ rfl rfl rfl rfl rfl
    · obtain ⟨hsrc, htin⟩ := decision_frame src f s
      exact hbegun _ _ rfl rfl rfl hsrc htin

/-- A direct-path frame that lacks a stamp of an output does not begin. -/
theorem frameRx_unmeasured (hidle : spGet none s.sw.rx src = none) (hhead : 64 ≤ head.length) (hlen : head.length ≤ len)
    (hopen : receives src m s = true) (hdp : src < 48 ∧ s.isF (Reg.swPortStatusDpRx src) = true) (houts : directOuts src outs s = none) :
    exec (.frameRx src len head bad m outs) s = .next s := by
  show execFrameRx src len head bad m outs s = .next s
  unfold execFrameRx
  extract_lets +onlyGivenNames -merge -underBinder isPort
  rw [if_neg (by simp [hidle]; omega), if_neg (by simp [hopen])]
  extract_lets +onlyGivenNames -merge -underBinder x inv f0 f
  rw [if_pos (by simp [isPort, hdp]), houts]

/-- A frame that comes in a relock is counted bad until its link is up (R213, log entry 266). -/
theorem frameRx_relocks (hidle : spGet none s.sw.rx src = none) (hhead : 64 ≤ head.length) (hlen : head.length ≤ len)
    (hshut : receives src m s = false) (hlock : src < 48 ∧ (s.lane src).relocking = true ∧ s.linkUp src = false) :
    exec (.frameRx src len head bad m outs) s = .next (count (srcCtr src 5) 1 s) := by
  show execFrameRx src len head bad m outs s = _
  unfold execFrameRx
  extract_lets +onlyGivenNames -merge -underBinder isPort
  rw [if_neg (by simp [hidle]; omega), if_pos (by simp [hshut]), if_pos (by simp [isPort, hlock])]

/-- What is no head of a frame, and a head that its source does not receive, changes nothing. -/
theorem frameRx_refused (h : (spGet none s.sw.rx src).isSome = true ∨ head.length < 64 ∨ len < head.length ∨
      (receives src m s = false ∧ ¬(src < 48 ∧ (s.lane src).relocking = true ∧ s.linkUp src = false))) :
    exec (.frameRx src len head bad m outs) s = .next s := by
  show execFrameRx src len head bad m outs s = _
  unfold execFrameRx
  extract_lets +onlyGivenNames -merge -underBinder isPort
  by_cases hno : ((spGet none s.sw.rx src).isSome || decide (head.length < 64) || decide (len < head.length)) = true
  · rw [if_pos hno]
  · simp only [Bool.or_eq_true, decide_eq_true_eq, not_or] at hno
    obtain ⟨⟨hidle, hhead⟩, hlen⟩ := hno
    obtain ⟨hshut, hlock⟩ := ((h.resolve_left hidle).resolve_left hhead).resolve_left hlen
    rw [if_neg (by simp [hidle, hhead, hlen]), if_pos (by simp [hshut]), if_neg (by simpa [isPort] using hlock)]

end

/-! ### FRAME_END -/

section

variable {src : Nat} {rest : Bytes} {fault : Bool} {m : EdgeMeas} {outs : List EdgeMeas} {s : State}

/-- The end of a frame in reception. -/
theorem execFrameEnd_frame {x : RxFrame} (hx : spGet none s.sw.rx src = some x) :
    exec (.frameEnd src rest fault m outs) s = .next (frameEnd src x (x.frame.data ++ rest) fault s) := by
  show execFrameEnd src rest fault m outs s = _
  unfold execFrameEnd
  rw [hx]

/-- A fragment that comes with no frame in reception. -/
theorem execFrameEnd_runt (hidle : spGet none s.sw.rx src = none) (h : src < 48 ∧ receives src m s = true ∧ rest ≠ [] ∧ rest.length < 64) :
    exec (.frameEnd src rest fault m outs) s = .next (runtEnd src rest fault m outs s) := by
  show execFrameEnd src rest fault m outs s = _
  unfold execFrameEnd
  rw [hidle]
  exact if_pos h

/-- Nothing that ends leaves the state as it is. -/
theorem execFrameEnd_nothing (hidle : spGet none s.sw.rx src = none)
    (h : 48 ≤ src ∨ receives src m s = false ∨ rest = [] ∨ 64 ≤ rest.length) : exec (.frameEnd src rest fault m outs) s = .next s := by
  show execFrameEnd src rest fault m outs s = _
  unfold execFrameEnd
  rw [hidle]
  refine if_neg ?_
  rintro ⟨hsrc, hopen, hrest, hlen⟩
  rcases h with h | h | h | h
  · omega
  · rw [hopen] at h
    cases h
  · exact hrest h
  · omega

/-- PTS_CFG selects a fragment's stamp with RX_SEL 3 alone (R189). -/
theorem selected_runt (sel : Nat) : selected sel false false false = decide (sel = 3) := by
  unfold selected
  simp

/-- A count reads on as PTS_CFG has it. -/
theorem count_rxSel (p c n : Nat) (s : State) : (count c n s).getF (Reg.ptsCfgRxSel p) = s.getF (Reg.ptsCfgRxSel p) :=
  (count_keeps (frame_keeps countParts s) (sub_of rfl) (FrameOf.refl _ s)).getF_of_part
    (regPart_9 (by simp only [Reg.ptsCfgRxSel]; omega) (by simp only [Reg.ptsCfgRxSel]; omega)) rfl

/-- A fragment whose stamp is not selected is counted (R399). -/
theorem runtEnd_counted (hdp : s.isF (Reg.swPortStatusDpRx src) = false) (hsel : s.getF (Reg.ptsCfgRxSel src) ≠ 3) :
    runtEnd src rest fault m outs s = count (srcCtr src 6) 1 s := by
  unfold runtEnd
  extract_lets +onlyGivenNames -merge -underBinder inv f
  rw [if_neg (by simp [hdp])]
  extract_lets +onlyGivenNames -merge -underBinder u
  exact if_neg (by rw [selected_runt, count_rxSel]; simpa using hsel)

/-- A fragment ends no frame in reception. -/
theorem runtEnd_rx : (runtEnd src rest fault m outs s).sw.rx = s.sw.rx := by
  have K := rx_quiet (fun l => l = s.sw.rx)
  unfold runtEnd
  extract_lets +onlyGivenNames -merge -underBinder inv f
  refine ite_k (P := fun t => t.sw.rx = s.sw.rx) ?_ ?_
  · split
    · rfl
    · exact directEnd_rx _ _ _
  · extract_lets +onlyGivenNames -merge -underBinder u
    have hu : u.sw.rx = s.sw.rx := count_quiet K rfl
    exact ite_k (P := fun t => t.sw.rx = s.sw.rx) (fifoPut_keeps K.others (sub_of rfl) hu) hu

/-- The outputs of a direct-path frame have sent its bytes (R197, R428). -/
theorem frameEnd_direct {x : RxFrame} {data : Bytes} (hdp : x.dp = true) (hslip : x.slipped = false) (h : ∀ o ∈ x.outs, NoInjection o.1 s) :
    ∀ o ∈ x.outs, spGet [] (frameEnd src x data fault s).sw.sent o.1 = if fault then stompBytes data else data := by
  unfold frameEnd
  rw [if_pos hdp, directEnd_sent]
  exact directSent_sent (r := { x with frame := { x.frame with data := data } }) fault hslip fun o ho => (h o ho).of_regs rfl

/-- A good claimed message joins the engine's inbox (R252). -/
theorem frameEnd_claimed_good {x : RxFrame} {data : Bytes} (hdp : x.dp = false) (hclaimed : x.claimed = true)
    (hgood : endsGood src x data fault s = true) : (frameEnd src x data fault s).tt.inbox = (claimEnd x data s).tt.inbox := by
  rw [frameEnd_claimed hdp hclaimed, if_pos hgood, ← claimEnd_inbox (endCounted_frame src x data fault s)]
  exact captureFrame_keeps (part_keeps (p := .tt) (congrArg TimeXfer.inbox) (fun l => l = _)) (sub_of rfl) rfl

/-- A bad claimed message does not. -/
theorem frameEnd_claimed_bad {x : RxFrame} {data : Bytes} (hdp : x.dp = false) (hclaimed : x.claimed = true)
    (hbad : endsGood src x data fault s = false) : (frameEnd src x data fault s).tt.inbox = s.tt.inbox := by
  have htt := endCounted_frame src x data fault s .tt (by decide)
  rw [frameEnd_claimed hdp hclaimed, hbad]
  exact captureFrame_keeps (part_keeps (p := .tt) (congrArg TimeXfer.inbox) (fun l => l = s.tt.inbox)) (sub_of rfl) (congrArg TimeXfer.inbox htt)

end

end Sys2Proof.Machine

/-! SUPPORT. The rows of transmission: EGRESS_PICK (R486, R487, R499), FRAME_TX_DONE (R183, R592) and SW_DP_SLIP (R425). -/

namespace Sys2Proof.Machine

/-! ### EGRESS_PICK -/

section

variable {n : Nat} {m : EdgeMeas} {s : State}

theorem execEgressPick_picks (h : CanBegin n m s) : exec (.egressPick n m) s = .next (pick n (predicted n m s) s) := by
  obtain ⟨hn, hmode, hmeasured, -, -⟩ := h
  exact if_pos ⟨hn, hmode.imp_right And.left, hmeasured⟩

/-- An egress that can begin picks from its merge group, or from its queues. -/
theorem pick_open (h : CanBegin n m s) (pred : Nat × Bool) : pick n pred s =
    (match mergeOf n s with
    | none => beginQueued n pred 4096 s
    | some g =>
      let r := fmUnpoisoned 4096 g s
      match r.1 with
      | none => beginQueued n pred 4096 r.2
      | some h =>
        if !fitsBefore n (h.frame.data.length + 36) r.2 then r.2
        else
          let b := fmBegin g h pred r.2
          let len := if b.1.kind = 3 then b.1.frame.data.length else b.1.extra.length
          takeTokens (n * 9 + 8) len (showMerge g (b.2.setTx n (some b.1)))) := by
  obtain ⟨-, hmode, -, hidle, hreleased⟩ := h
  unfold pick
  refine if_neg ?_
  rcases hmode with hn | ⟨-, hheld, hfault⟩
  · simp [hidle, hreleased]
    omega
  · simp [hidle, hreleased, hheld, hfault]

/-- An egress that cannot begin a frame picks nothing. -/
theorem execEgressPick_holds (h : 52 ≤ n ∨ (n < 48 ∧ (s.mode n = 0 ∨ (s.lane n).held = true ∨ (s.lane n).remoteFault = true)) ∨ measures n m s = false ∨
      spGet none s.sw.tx n ≠ none ∨ released n s = false) : exec (.egressPick n m) s = .next s := by
  show execEgressPick n m s = _
  unfold execEgressPick
  split
  next hopen =>
    obtain ⟨hn, hmode, hmeasured⟩ := hopen
    refine congrArg Host.Outcome.next (if_pos ?_)
    rcases h with h | ⟨hport, h | h | h⟩ | h | h | h
    · omega
    · omega
    · simp [hport, h]
    · simp [hport, h]
    · simp [hmeasured] at h
    · simp [Option.isSome_iff_ne_none.2 h]
    · simp [h]
  · rfl

/-- What the scheduler's round leaves: all but the pool's own state (R486). -/
theorem pickQueue_frame (n : Nat) (s : State) : FrameOf [.bf] s (pickQueue n s).2 :=
  pickQueue_keeps (frame_keeps [.bf] s) (sub_of rfl) (FrameOf.refl _ s)

/-- The frame that a queue's copy begins to send. -/
def queuedTx (n q : Nat) (c : Copy) (f : Frame) (pred : Nat × Bool) (s : State) : TxFrame :=
  ⟨0, c, q, 0, f, 0, pred.1, carriesStamp f c n s, s.dtt, [], pred.2, s.qc s.served⟩

/-- The head of the queue picked begins where it is not broken and no word holds an error. -/
theorem beginQueued_begins {q fuel : Nat} {c : Copy} {l : List Copy} {f : Frame} (pred : Nat × Bool) (hpick : (pickQueue n s).1 = some q)
    (hqueue : ((pickQueue n s).2.bq (n * 8 + q)).copies = c :: l) (hframe : (pickQueue n s).2.poolFrame c.frame = some f) (hgood : f.broken = false)
    (herrs : s.mp.errs = []) : spGet none (beginQueued n pred (fuel + 1) s).sw.tx n = some (queuedTx n q c f pred (pickQueue n s).2) := by
  have hclean : (pickQueue n s).2.mp.errs = [] := by rw [pickQueue_frame n s .mp (by decide), herrs]
  have hread : poolRead f (pickQueue n s).2 = (pickQueue n s).2 := if_pos hclean
  rw [beginQueued]
  simp only [hpick, hqueue, hframe, hread, Option.getD_some, hgood, Bool.false_eq_true, if_false]
  exact setTx_tx_same _ _ _

/-- The scheduler serves the head of the queue it picks (R486, R487). -/
theorem egressPick_queue {q : Nat} {c : Copy} {l : List Copy} {f : Frame} (h : CanBegin n m s) (hmerge : mergeOf n s = none)
    (hpick : (pickQueue n s).1 = some q) (hqueue : ((pickQueue n s).2.bq (n * 8 + q)).copies = c :: l)
    (hframe : (pickQueue n s).2.poolFrame c.frame = some f) (hgood : f.broken = false) (herrs : s.mp.errs = []) :
    Answers (fun t => ∃ x, spGet none t.sw.tx n = some x ∧ x.kind = 0 ∧ x.copy = c ∧ x.queue = q ∧ x.frame = f ∧ x.start = s.dtt ∧
      x.pred = (predicted n m s).1 ∧ x.inv = (predicted n m s).2 ∧ x.qc = s.qc s.served) (exec (.egressPick n m) s) := by
  have hframed := pickQueue_frame n s
  have hserved : (pickQueue n s).2.served = s.served := hframed.getF _ (by decide)
  have hqc : (pickQueue n s).2.qc (pickQueue n s).2.served = s.qc s.served := by
    rw [hserved]
    exact hframed.getF_of_part (b := 3) (regPart_3 (by simp only [Reg.tbDStatusQc]; omega) (by simp only [Reg.tbDStatusQc]; omega)) rfl
  refine ⟨_, execEgressPick_picks h, queuedTx n q c f (predicted n m s) (pickQueue n s).2, ?_, rfl, rfl, rfl, rfl, hframed .dtt (by decide), rfl, rfl, hqc⟩
  rw [pick_open h, hmerge]
  exact beginQueued_begins _ hpick hqueue hframe hgood herrs

/-- With no queue to serve the round is all that happens. -/
theorem egressPick_none (h : CanBegin n m s) (hmerge : mergeOf n s = none) (hpick : (pickQueue n s).1 = none) :
    exec (.egressPick n m) s = .next (pickQueue n s).2 := by
  rw [execEgressPick_picks h, pick_open h, hmerge]
  dsimp only
  rw [beginQueued]
  simp only [hpick]

/-- The merge output begins its ready frame where it ends before the next release copy (R499, R511, R534). -/
theorem egressPick_merge {g : Nat} {x : HeldFrame} (h : CanBegin n m s) (hmerge : mergeOf n s = some g) (hready : (fmUnpoisoned 4096 g s).1 = some x)
    (hfits : fitsBefore n (x.frame.data.length + 36) (fmUnpoisoned 4096 g s).2 = true) :
    Answers (fun t => spGet none t.sw.tx n = some (fmBegin g x (predicted n m s) (fmUnpoisoned 4096 g s).2).1) (exec (.egressPick n m) s) := by
  refine ⟨_, execEgressPick_picks h, ?_⟩
  rw [pick_open h, hmerge]
  simp only [hready, hfits, Bool.not_true, Bool.false_eq_true, if_false]
  have K := sw_keeps (fun w => spGet none w.tx n = some (fmBegin g x (predicted n m s) (fmUnpoisoned 4096 g s).2).1)
  exact takeTokens_keeps K (sub_of rfl) (showMerge_keeps K (sub_of rfl) (setTx_tx_same _ _ _))

/-- A merge frame that would not end before the next release copy waits (R534). -/
theorem egressPick_merge_waits {g : Nat} {x : HeldFrame} (h : CanBegin n m s) (hmerge : mergeOf n s = some g) (hready : (fmUnpoisoned 4096 g s).1 = some x)
    (hfits : fitsBefore n (x.frame.data.length + 36) (fmUnpoisoned 4096 g s).2 = false) :
    exec (.egressPick n m) s = .next (fmUnpoisoned 4096 g s).2 := by
  rw [execEgressPick_picks h, pick_open h, hmerge]
  simp only [hready, hfits, Bool.not_false, if_true]

end

/-! ### FRAME_TX_DONE -/

section

variable {P : State → Prop} (K : Quiet P)
include K

theorem txRecords_quiet {n t f data e inv stomped s} (h : P s) : P (txRecords n t f data e inv stomped s) := by
  unfold txRecords
  refine ite_k h ?_
  extract_lets +onlyGivenNames -merge -underBinder u ask v w
  have hu : P u := predCheck_keeps K.others (sub_of rfl) h
  have hw : P w := captureFrame_quiet K (ite_k (fifoPut_keeps K.others (sub_of rfl) hu) hu)
  exact ite_k hw (latencySample_quiet K hw)

theorem deliverHost_quiet {f c queue data s} (h : P s) : P (deliverHost f c queue data s) := capWrite_quiet K h

theorem enterWhole_quiet (B : Keeps P (without .sw)) {n f s} (h : P s) : P (enterWhole n f s).2 := by
  unfold enterWhole
  extract_lets +onlyGivenNames -merge -underBinder u d r v
  have hr : P r.2 := placeFrame_quiet K B (decision_quiet K (countRx_quiet K h))
  show P v
  unfold v
  split
  · exact poolEnd_quiet K B hr
  · exact hr

end

section

variable {n : Nat} {m : EdgeMeas} {x : TxFrame} {s : State}

/-- The state in which a queued copy of frame `f` with bytes `b` has left egress `n` (R415, R419, R422, R592). -/
def queuedLeft (n : Nat) (x : TxFrame) (f : Frame) (b : Bytes × Bool) (e : Nat) (s : State) : State :=
  let u := endCopy (n * 8 + x.queue) x.copy (countTx n b.1.length b.2 (s.setTx n none))
  let v := txRecords n x f b.1 e x.inv b.2 u
  if n = 48 then deliverHost f x.copy x.queue b.1 v
  else if n = 51 then (enterWhole 51 { f with data := b.1, recirc := true, cells := [], shared := 0, copies := 0, bad := false } v).2
  else v

theorem queuedLeft_quiet {P : State → Prop} (K : Quiet P) (B : Keeps P (without .sw)) {f : Frame} {b : Bytes × Bool} {e : Nat} (h : P (s.setTx n none)) :
    P (queuedLeft n x f b e s) := by
  unfold queuedLeft
  extract_lets u v
  have hv : P v := txRecords_quiet K (endCopy_keeps B (sub_of rfl) (countTx_quiet K h))
  exact ite_k (deliverHost_quiet K hv) (ite_k (enterWhole_quiet K B hv) hv)

/-- The state in which a frame of a group, or a base frame, with bytes `d` has left egress `n` (R504, R537, R592). -/
def groupLeft (n : Nat) (x : TxFrame) (lost : Bool) (d : Bytes) (e : Nat) (inv : Bool) (s : State) : State :=
  let u := txRecords n x x.frame d e inv lost (countTx n d.length lost (s.setTx n none))
  if x.kind = 1 then (if lost then showMerge x.group u else fmSent x.group x.frame u)
  else if x.kind = 2 then erSent x.group n x.seq inv (!lost) u
  else u

theorem groupLeft_quiet {P : State → Prop} (K : Quiet P) {lost : Bool} {d : Bytes} {e : Nat} {inv : Bool} (h : P (s.setTx n none)) :
    P (groupLeft n x lost d e inv s) := by
  unfold groupLeft
  extract_lets u
  have hu : P u := txRecords_quiet K (countTx_quiet K h)
  exact ite_k (ite_k (showMerge_keeps K.others (sub_of rfl) hu) (fmSent_quiet K hu)) (ite_k (erSent_quiet K hu) hu)

/-- The state with bytes `d` sent at egress `n`. -/
def sentAt (n : Nat) (d : Bytes) (s : State) : State := { s with sw := { s.sw with sent := spSet [] s.sw.sent n d } }

/-- The bytes of a group's frame at its end (R415, R493, R513, log entry 261). -/
def groupBytes (x : TxFrame) (s : State) : Bytes :=
  if x.kind = 3 then x.frame.data else if x.frame.broken || x.frame.holdBad then poisonEnd s.mp.quarHold x.frame (noFcs x.extra) else x.extra

/-- A queued frame that has come whole leaves, its cells read. -/
theorem execFrameTxDone_queued {f : Frame} (hx : spGet none s.sw.tx n = some x) (hmeasured : measures n m s = true) (hkind : x.kind = 0)
    (hf : s.poolFrame x.copy.frame = some f) (hwhole : f.whole = true) :
    let u := poolRead f s
    let g := (u.poolFrame x.copy.frame).getD f
    exec (.frameTxDone n m) s =
      .next (queuedLeft n x g (queuedBytes n x g u) (measured n m s) (injectSent n (sentAt n (queuedBytes n x g u).1 u))) := by
  intro u g
  show execFrameTxDone n m s = _
  unfold execFrameTxDone
  simp only [hx, hmeasured, hkind, hf, hwhole, Bool.not_true, Bool.false_eq_true, if_false, if_true]
  unfold queuedLeft
  extract_lets
  rw [apply_ite Host.Outcome.next, apply_ite Host.Outcome.next]
  rfl

/-- A group's frame leaves, its cells read. -/
theorem execFrameTxDone_group (hx : spGet none s.sw.tx n = some x) (hmeasured : measures n m s = true) (hkind : x.kind ≠ 0) :
    let u := holdRead x.frame s
    let y := (spGet none u.sw.tx n).getD x
    exec (.frameTxDone n m) s =
      .next (groupLeft n y (y.frame.broken || y.frame.holdBad) (groupBytes y u) (measured n m s) x.inv (injectSent n (sentAt n (groupBytes y u) u))) := by
  intro u y
  show execFrameTxDone n m s = _
  unfold execFrameTxDone
  simp only [hx, hmeasured, hkind, Bool.not_true, Bool.false_eq_true, if_false]
  exact (ite_congr rfl (fun _ => rfl) fun _ => (apply_ite Host.Outcome.next (y.kind = 2) _ _).symm).trans
    (apply_ite Host.Outcome.next (y.kind = 1) _ _).symm

/-- Past its end nothing is in transmission at the egress, and the bytes sent are those that stood before its records. -/
theorem queuedLeft_left {f : Frame} {b : Bytes × Bool} {e : Nat} : Left n s.sw.sent (queuedLeft n x f b e s).sw :=
  queuedLeft_quiet (left_quiet n _) (sw_keeps _) ⟨setTx_tx_same _ _ _, rfl⟩

theorem groupLeft_left {lost : Bool} {d : Bytes} {e : Nat} {inv : Bool} : Left n s.sw.sent (groupLeft n x lost d e inv s).sw :=
  groupLeft_quiet (left_quiet n _) ⟨setTx_tx_same _ _ _, rfl⟩

theorem injectSent_sentAt (d : Bytes) (h : NoInjection n s) : spGet [] (injectSent n (sentAt n d s)).sw.sent n = d := by
  rw [injectSent_none (h.of_regs (t := sentAt n d s) rfl)]
  exact spGet_spSet_same [] s.sw.sent n d

/-- A queued frame leaves with the bytes its edits give (R400, R412, R415). -/
theorem frameTxDone_queued {f : Frame} (hx : spGet none s.sw.tx n = some x) (hmeasured : measures n m s = true) (hkind : x.kind = 0)
    (hf : s.poolFrame x.copy.frame = some f) (hwhole : f.whole = true) :
    Answers (fun t => spGet none t.sw.tx n = none ∧ (s.mp.errs = [] → NoInjection n s → spGet [] t.sw.sent n = (queuedBytes n x f s).1))
      (exec (.frameTxDone n m) s) := by
  refine ⟨_, execFrameTxDone_queued hx hmeasured hkind hf hwhole, queuedLeft_left.1, fun herrs hno => ?_⟩
  have hread : poolRead f s = s := if_pos herrs
  rw [queuedLeft_left.2, hread, hf]
  exact injectSent_sentAt _ hno

/-- A frame of a group leaves with the bytes it began with, or ends bad (R415, R493). -/
theorem frameTxDone_group (hx : spGet none s.sw.tx n = some x) (hmeasured : measures n m s = true) (hkind : x.kind ≠ 0) :
    Answers (fun t => spGet none t.sw.tx n = none ∧ (s.mp.errs = [] → NoInjection n s → spGet [] t.sw.sent n = groupBytes x s))
      (exec (.frameTxDone n m) s) := by
  refine ⟨_, execFrameTxDone_group hx hmeasured hkind, groupLeft_left.1, fun herrs hno => ?_⟩
  have hread : holdRead x.frame s = s := if_pos herrs
  rw [groupLeft_left.2, hread, hx]
  exact injectSent_sentAt _ hno

/-- A copy whose frame stands no more in the pool ends. -/
theorem frameTxDone_gone (hx : spGet none s.sw.tx n = some x) (hmeasured : measures n m s = true) (hkind : x.kind = 0)
    (hf : s.poolFrame x.copy.frame = none) : exec (.frameTxDone n m) s = .next (s.setTx n none) := by
  show execFrameTxDone n m s = _
  unfold execFrameTxDone
  simp only [hx, hmeasured, hkind, hf, Bool.not_true, Bool.false_eq_true, if_false, if_true]

/-- Nothing ends where nothing is in transmission, its stamp is not measured, or its frame has not come whole. -/
theorem frameTxDone_waits (h : spGet none s.sw.tx n = none ∨ measures n m s = false ∨
      (∃ x f, spGet none s.sw.tx n = some x ∧ x.kind = 0 ∧ s.poolFrame x.copy.frame = some f ∧ f.whole = false)) :
    exec (.frameTxDone n m) s = .next s := by
  show execFrameTxDone n m s = _
  unfold execFrameTxDone
  rcases h with hnone | hmeasured | ⟨x, f, hx, hkind, hf, hwhole⟩
  · rw [hnone]
  · split
    · rfl
    · exact if_pos (by simp [hmeasured])
  · simp only [hx, hkind, hf, hwhole, Bool.not_false, if_true]
    split_ifs <;> rfl

end

/-! ### SW_DP_SLIP -/

/-- A slip of a TRANSPARENT connection counts and restores the fill to 4 words (R425). -/
theorem swDpSlip_counts {lane : Nat} {s : State} (up : Bool) (hlane : lane < 48) (hconn : s.isF (Reg.swDpStatusConn lane) = true)
    (hmode : s.getF (Reg.swDpStatusMode lane) = 1) :
    Answers (fun t => t.getF (Reg.swDpStatusSlips lane) = min 255 (s.getF (Reg.swDpStatusSlips lane) + 1) ∧ t.getF (Reg.swDpStatusFill lane) = 4)
      (exec (.swDpSlip lane up) s) := by
  show Answers _ (execSwDpSlip lane up s)
  unfold execSwDpSlip
  rw [if_pos ⟨hlane, hconn, hmode⟩]
  extract_lets u v
  have hvu : v.regs = u.regs := by
    unfold v
    split
    · split <;> rfl
    · rfl
  have hne : (Reg.swDpStatusSlips lane).key ≠ (Reg.swDpStatusFill lane).key := by simp [Fld.key, Reg.swDpStatusSlips, Reg.swDpStatusFill]
  refine ⟨_, rfl, ?_, ?_⟩
  · rw [raiseEv_getF (by decide), getF_of_regs hvu, getF_setF_ne _ _ hne]
    unfold State.addSat
    rw [getF_setF_same]
    generalize s.getF (Reg.swDpStatusSlips lane) = slips
    show (if slips + 1 ≤ 255 then slips + 1 else 255) % 256 = min 255 (slips + 1)
    by_cases h : slips + 1 ≤ 255
    · rw [if_pos h]
      omega
    · rw [if_neg h]
      omega
  · rw [raiseEv_getF (by decide), getF_of_regs hvu, getF_setF_same]
    rfl

theorem swDpSlip_stays {lane : Nat} {s : State} (up : Bool) (h : 48 ≤ lane ∨ s.isF (Reg.swDpStatusConn lane) = false ∨ s.getF (Reg.swDpStatusMode lane) ≠ 1) :
    exec (.swDpSlip lane up) s = .next s := by
  refine if_neg ?_
  rintro ⟨hlane, hconn, hmode⟩
  rcases h with h | h | h
  · omega
  · rw [hconn] at h
    cases h
  · exact h hmode

end Sys2Proof.Machine

/-! Settlement of O41, on the rows that carry a frame through the switch. -/

namespace Sys2Proof.Machine

/-! ### A row's effect with its frame -/

/-- The parts that FRAME_RX can change. -/
def frameRxParts : List Part :=
  [.rHst, .rFt, .rBf, .rFm, .rEr, .rCap, .rCt, .rMp, .hostMem, .freeCount, .evu, .rings, .bus, .mbx, .counters, .tb, .refs, .sw, .ft, .bf, .merges,
   .releases, .evd, .netRings, .mp]

/-- The parts that FRAME_END can change. -/
def frameEndParts : List Part :=
  [.rHst, .rPts, .rBf, .rFm, .rEr, .rCap, .rCt, .rMp, .hostMem, .freeCount, .evu, .rings, .bus, .mbx, .counters, .tb, .fifos, .tt, .refs, .sw, .ft,
   .bf, .merges, .releases, .evd, .netRings, .selectors, .ctSeen, .mp, .lanes]

/-- The parts that EGRESS_PICK can change. -/
def egressPickParts : List Part :=
  [.rHst, .rBf, .rFm, .rCt, .rMp, .freeCount, .evu, .bus, .mbx, .counters, .tb, .refs, .sw, .ft, .bf, .merges, .releases, .evd, .mp]

/-- The parts that FRAME_TX_DONE can change. -/
def frameTxDoneParts : List Part :=
  [.rHst, .rPts, .rFt, .rBf, .rFm, .rEr, .rCap, .rCt, .rMp, .hostMem, .freeCount, .evu, .rings, .bus, .mbx, .counters, .tb, .fifos, .lanes, .refs,
   .sw, .ft, .bf, .merges, .releases, .evd, .netRings, .selectors, .ctSeen, .mp]

section

variable {Q : State → Prop} {s : State}

theorem frameRx_framed {src len : Nat} {head : Bytes} {bad : Bool} {m : EdgeMeas} {outs : List EdgeMeas}
    (h : Answers Q (exec (.frameRx src len head bad m outs) s)) :
    ∃ t, exec (.frameRx src len head bad m outs) s = .next t ∧ FrameOf frameRxParts s t ∧ Q t :=
  framed (execFrameRx_keeps (frame_keeps _ s) (sub_of rfl) (FrameOf.refl _ s)) h

theorem frameEnd_framed {src : Nat} {rest : Bytes} {fault : Bool} {m : EdgeMeas} {outs : List EdgeMeas}
    (h : Answers Q (exec (.frameEnd src rest fault m outs) s)) :
    ∃ t, exec (.frameEnd src rest fault m outs) s = .next t ∧ FrameOf frameEndParts s t ∧ Q t :=
  framed (execFrameEnd_keeps (frame_keeps _ s) (sub_of rfl) (FrameOf.refl _ s)) h

theorem egressPick_framed {n : Nat} {m : EdgeMeas} (h : Answers Q (exec (.egressPick n m) s)) :
    ∃ t, exec (.egressPick n m) s = .next t ∧ FrameOf egressPickParts s t ∧ Q t :=
  framed (execEgressPick_keeps (frame_keeps _ s) (sub_of rfl) (FrameOf.refl _ s)) h

theorem frameTxDone_framed {n : Nat} {m : EdgeMeas} (h : Answers Q (exec (.frameTxDone n m) s)) :
    ∃ t, exec (.frameTxDone n m) s = .next t ∧ FrameOf frameTxDoneParts s t ∧ Q t :=
  framed (execFrameTxDone_keeps (frame_keeps _ s) (sub_of rfl) (FrameOf.refl _ s)) h

end

/-- The end of a frame in reception answers the state `frameEnd` gives. -/
theorem frameEnd_answers {Q : State → Prop} {src : Nat} {rest : Bytes} {fault : Bool} {m : EdgeMeas} {outs : List EdgeMeas} {x : RxFrame} {s : State}
    (hx : spGet none s.sw.rx src = some x) (h : Q (frameEnd src x (x.frame.data ++ rest) fault s)) : Answers Q (exec (.frameEnd src rest fault m outs) s) :=
  ⟨_, execFrameEnd_frame hx, h⟩

theorem endsGood_false_iff {n : Nat} {r : RxFrame} {data : Bytes} {fault : Bool} {s : State} : endsGood n r data fault s = false ↔
    r.fecBad = true ∨ fault = true ∨ fcsGood data = false ∨ (s.swPort n).maxFrame < data.length := by
  rw [← Bool.not_eq_true, endsGood_iff, not_and_or, not_and_or, not_and_or, Bool.not_eq_false, Bool.not_eq_false, Bool.not_eq_true, not_le]

/-- Settles O41, clause by clause: a row's effect is a lemma above, and its frame the row's own `_keeps`. -/
theorem framesPassThePipeline : Obligations.FramesPassThePipeline := by
  unfold Obligations.FramesPassThePipeline
  refine ⟨?received, ?unmeasured, ?relocking, ?refused, ?ended, ?pooled, ?claimedGood, ?claimedBad, ?direct, ?fragmentCounted, ?fragmentStamped,
    ?fragmentDirect, ?noEnd, ?queue, ?noQueue, ?merge, ?mergeWaits, ?picks, ?holds, ?queuedLeaves, ?groupLeaves, ?gone, ?stays, ?slip, ?noSlip⟩
  case received => exact fun _ _ _ _ _ _ _ hidle hhead hlen hopen houts => frameRx_framed (frameRx_begins hidle hhead hlen hopen houts)
  case unmeasured => exact fun _ _ _ _ _ _ _ hidle hhead hlen hopen hdp houts => frameRx_unmeasured hidle hhead hlen hopen hdp houts
  case relocking => exact fun _ _ _ _ _ _ _ hidle hhead hlen hshut hlock => frameRx_relocks hidle hhead hlen hshut hlock
  case refused => exact fun _ _ _ _ _ _ _ h => frameRx_refused h
  case ended => exact fun _ _ _ _ _ _ _ hx => frameEnd_framed (frameEnd_answers hx frameEnd_rx)
  case pooled =>
    intro src k rest fault m outs x f s hx hdp hclaimed hpool hf hfec hfault hfcs hmax
    have hgood := endsGood_iff.2 ⟨hfec, hfault, hfcs, hmax⟩
    exact frameEnd_framed (frameEnd_answers hx ⟨frameEnd_rx, frameEnd_pooled hdp hclaimed hpool hf hgood⟩)
  case claimedGood =>
    intro src rest fault m outs x s hx hdp hclaimed hfec hfault hfcs hmax
    have hgood := endsGood_iff.2 ⟨hfec, hfault, hfcs, hmax⟩
    exact frameEnd_framed (frameEnd_answers hx ⟨frameEnd_rx, frameEnd_claimed_good hdp hclaimed hgood⟩)
  case claimedBad =>
    exact fun _ _ _ _ _ _ _ hx hdp hclaimed hbad =>
      frameEnd_framed (frameEnd_answers hx ⟨frameEnd_rx, frameEnd_claimed_bad hdp hclaimed (endsGood_false_iff.2 hbad)⟩)
  case direct =>
    exact fun _ _ _ _ _ _ _ hx hdp hslip => frameEnd_framed (frameEnd_answers hx ⟨frameEnd_rx, frameEnd_direct hdp hslip⟩)
  case fragmentCounted =>
    intro src rest fault m outs s hidle hsrc hopen hrest hshort hdp hsel
    rw [execFrameEnd_runt hidle ⟨hsrc, hopen, hrest, hshort⟩, runtEnd_counted hdp hsel]
  case fragmentStamped =>
    exact fun _ _ _ _ _ _ hidle hsrc hopen hrest hshort _ _ =>
      frameEnd_framed ⟨_, execFrameEnd_runt hidle ⟨hsrc, hopen, hrest, hshort⟩, rfl, runtEnd_rx⟩
  case fragmentDirect => exact fun _ _ _ _ _ _ hidle hsrc hopen hrest hshort _ => execFrameEnd_runt hidle ⟨hsrc, hopen, hrest, hshort⟩
  case noEnd => exact fun _ _ _ _ _ _ hidle h => execFrameEnd_nothing hidle h
  case queue =>
    exact fun _ _ _ _ _ _ _ h hmerge hpick hqueue hframe hgood herrs =>
      egressPick_framed (egressPick_queue h hmerge hpick hqueue hframe hgood herrs)
  case noQueue => exact fun _ _ _ h hmerge hpick => egressPick_none h hmerge hpick
  case merge => exact fun _ _ _ _ _ h hmerge hready hfits => egressPick_framed (egressPick_merge h hmerge hready hfits)
  case mergeWaits => exact fun _ _ _ _ _ h hmerge hready hfits => egressPick_merge_waits h hmerge hready hfits
  case picks => exact fun _ _ _ h => egressPick_framed ⟨_, execEgressPick_picks h, rfl⟩
  case holds => exact fun _ _ _ h => execEgressPick_holds h
  case queuedLeaves =>
    exact fun _ _ _ _ _ hx hmeasured hkind hf hwhole => frameTxDone_framed (frameTxDone_queued hx hmeasured hkind hf hwhole)
  case groupLeaves => exact fun _ _ _ _ hx hmeasured hkind => frameTxDone_framed (frameTxDone_group hx hmeasured hkind)
  case gone => exact fun _ _ _ _ hx hmeasured hkind hf => frameTxDone_gone hx hmeasured hkind hf
  case stays => exact fun _ _ _ h => frameTxDone_waits h
  case slip =>
    exact fun lane up s hlane hconn hmode =>
      framed (execSwDpSlip_keeps (frame_keeps _ s) (sub_of rfl) (FrameOf.refl _ s)) (swDpSlip_counts up hlane hconn hmode)
  case noSlip => exact fun _ up _ h => swDpSlip_stays up h

end Sys2Proof.Machine
